-- ==== Sys2Proof/Word.lean ====
section
/-! DEFINITION. The words of the model: bytes, byte strings and the identifiers of Yalzo's parts (R10). -/

namespace Sys2Proof

/-- One byte. -/
abbrev Byte := BitVec 8

/-- A byte string; the first byte stands first (R86: little-endian values). -/
abbrev Bytes := List Byte

/-- Lane 0 to lane 31 (R10). -/
abbrev LaneId := Fin 32

/-- Team 0 to team 31 (R10). -/
abbrev TeamId := Fin 32

/-- Bus segment 0 to 3 (R10). -/
abbrev SegId := Fin 4

/-- Port A is 0 and port B is 1; MGMT0/1, BATON0/1 and DDR0/1 are numbered alike (R533). -/
abbrev PortId := Fin 2

/-- Read channel 0 to 7 of a lane (R15). -/
abbrev ChanId := Fin 8

/-- Data track 0 to 3 of a band (R181). -/
abbrev TrackId := Fin 4

/-- A byte from a natural number, modulo 256. -/
abbrev byte (n : Nat) : Byte := BitVec.ofNat 8 n

end Sys2Proof
end

