-- ==== Sys2Proof/Syntax.lean ====
section
/-! DEFINITION. The commands and happenings of Yalzo: one constructor of `Instr` per row of
spec/opcode_table.json, in the table's order, with the operands that the row's rules take from outside
the step. -/

namespace Sys2Proof

/-- A Kyeri datagram as it arrives on a MGMT port (R98, R99): the frame's bytes, unparsed. -/
structure Datagram where
  /-- MGMT port on which it arrived. -/
  port : PortId
  /-- IPv6 address at which it arrived, and its source address, 16 bytes each. -/
  own : Bytes
  addr : Bytes
  /-- UDP source port. -/
  uport : Nat
  /-- The frame (R100). -/
  data : Bytes
  deriving DecidableEq, Repr, Inhabited

/-- An NVMe command's place: controller (port), submission queue identifier, command identifier. -/
structure CmdId where
  ctrl : PortId
  sq : Nat
  cid : Nat
  deriving DecidableEq, Repr, Inhabited

/-- Who makes a dictionary access (R106): a session by its slot 0-7, no session, the host over NVMe, or the
peer's CONFIG frame (R679). -/
inductive Who where
  | nvme (ctrl : PortId)
  | session (slot : Fin 8)
  | outside
  | peer
  deriving DecidableEq, Repr, Inhabited

/-- The boundaries at which a level 2 sequencer takes up an order (R37). -/
inductive Boundary where
  | period
  | preamble
  | extent
  | joint
  deriving DecidableEq, Repr

/-- The loop classes of R60 and the cascades of R376 that share their release. -/
inductive LoopId where
  | actuator
  | readPower
  | spindleCurrent
  | sledPosition
  | spindleSpeed
  deriving DecidableEq, Repr

/-- What level 2 detects (R49, R53, R169): a fault of one lane by its code, or of a front-end die. -/
inductive FaultSource where
  | lane (n : LaneId) (code : Nat)
  | die (d : Fin 4)
  deriving DecidableEq, Repr

/-- The pickup ID read of R151 as it ended on the SIDEBAND bus. -/
inductive IdRead where
  | noAnswer
  | read (image : Bytes) (temp : Int)
  deriving DecidableEq, Repr

/-- The data of an NVMe command as transferred; where the transfer failed, the generic status code that the failure calls for (R116). -/
inductive HostData where
  | bytes (b : Bytes)
  | failed (sc : Nat)
  deriving DecidableEq, Repr

/-- Where the list of an I/O command (PRP or SGL), and its data, lie in the Controller Memory Buffer of its port (R538, R544, R618):
offset and bytes of the list, offset of the data; none for host memory. -/
structure Transfer where
  list : Option (Nat × Nat)
  data : Option Nat
  deriving DecidableEq, Repr, Inhabited

/-- What the lead-in read found (R158, R224): each slot below the first blank one of the primary and of the backup, as its block of
262,144 bytes where it decoded after the retry ladder, and the highest write epoch found in the metadata of the disc (R225). -/
structure LeadIn where
  primary : List (Option Bytes)
  backup : List (Option Bytes)
  epoch : Nat
  deriving DecidableEq, Repr, Inhabited

/-- A slot that the recovery scan reads (R225): whether all its sectors decode, directly or through the outer code, with the write epoch
and the logical extent that they carry. -/
structure SlotRead where
  decodes : Bool
  epoch : Nat
  extent : Nat
  deriving DecidableEq, Repr, Inhabited

/-- A copy that the recovery scan reads in a spare band (R225): its place, and the epoch, logical extent and sector that it carries. -/
structure CopyRead where
  psa : Nat
  epoch : Nat
  extent : Nat
  sector : Nat
  deriving DecidableEq, Repr, Inhabited

/-- What the recovery scan reads: the slots of each layer and track forward from its next slot to the first blank one, the copies in the
spare bands, and the lowest blank test unit of layers (R225, R229). -/
structure ScanRead where
  slots : List (Fin 8 × TrackId × List SlotRead)
  copies : List CopyRead
  units : List (Fin 8 × Nat)
  deriving DecidableEq, Repr, Inhabited

/-- A wobble frame as read (R185): its 229 wobbles, true for an inverted one, with the master angle of its sync. -/
structure WobbleRead where
  wobbles : List Bool
  /-- rms phase error of the frame, Q15 word (R259). -/
  rms : Int
  /-- Master angle at the frame's sync (R399). -/
  angle : Nat
  deriving DecidableEq, Repr, Inhabited

/-- What the V channel reports of one written sector (R264, R265). -/
structure VerifyRead where
  decisions : Bool
  syncOffset : Int
  resyncFound : Nat
  /-- Positions of the differing channel bits, rising. -/
  diffs : List Nat
  dropoutBits : Nat
  deriving DecidableEq, Repr, Inhabited

/-- What one mark window shows (R312): whether the mark is the sync mark, and for positions of the window, by their rising
offset from the prediction, the bits that differ from the mark's pattern. -/
structure MarkWindow where
  sync : Bool
  offsets : List (Int × Nat)
  deriving DecidableEq, Repr, Inhabited

/-- What the ADCs have taken over the frame that ends on a track (R291): its physical sector address, and for each of the 8 channels the
codes of channel bits -16 to 40,319 as that channel counts them from the start of its frame (R308). -/
structure SectorSamples where
  psa : Nat
  codes : List (List Int)
  deriving DecidableEq, Repr, Inhabited

/-- A stride record of R470 as posted. -/
structure Stride where
  target : Int
  speed : Nat
  accel : Nat
  jerk : Nat
  flags : Nat
  status : Nat
  tag : Nat
  deriving DecidableEq, Repr, Inhabited

/-- Line-to-line crossings seen while the bridge floats (R447): intervals in ticks, the least amplitude in mV,
the measured speed in 0.01 rpm, the angle in master counts, and whether the direction is forward. -/
structure BackEmf where
  intervals : List Nat
  amplitude : Nat
  speed : Int
  angle : Nat
  forward : Bool
  deriving DecidableEq, Repr, Inhabited

/-- What a memory channel's serial presence data and training show at a boot (R597, R598): ranks and density in Gbit. -/
inductive DdrSeen where
  | absent
  | unsupported
  | untrained (ranks density : Nat)
  | ready (ranks density : Nat)
  deriving DecidableEq, Repr, Inhabited

/-- The commands and happenings of the device: one constructor per row of the table. -/
inductive Instr where
  -- Five levels and lane faults
  | orderTakeUp (n : LaneId) (b : Boundary)
  | laneFaultDetect (src : FaultSource)
  | laneFault (n : LaneId)
  | laneRecovery (n : LaneId)
  -- Loop engine instants and the core supply
  | observerUpdate (n : LaneId) (codes : List Int) (f : List Int) (ia ib : Int) (volts : List Int) (late : Bool)
  | outputRelease (n : LaneId) (l : LoopId)
  | biquadSlot (n : LaneId) (powerMonitor : Int) (late : List Nat)
  | overrunBankCheck (n : LaneId)
  | coreSupplyChange
  | coreSupplyInForce
  -- Kyeri sessions
  | hello (d : Datagram)
  | prove (d : Datagram)
  | proveTimeout (session : Nat)
  | close (d : Datagram)
  | kyeriRead (d : Datagram)
  | kyeriWrite (d : Datagram)
  | batch (d : Datagram)
  | eventAck (d : Datagram)
  | discover (d : Datagram)
  | discoverReply
  | announce
  | eventResend (slot : Fin 8)
  | sessionIdleTimeout (slot : Fin 8)
  -- Dictionary over NVMe and entries with a behaviour
  | dictionaryWrite (c : CmdId) (dw10 dw11 dw12 : Nat) (data : HostData)
  | dictionaryRead (c : CmdId) (dw10 dw11 dw12 : Nat) (failed : Option Nat)
  | dictionaryBatch (c : CmdId) (dw10 : Nat) (data : HostData)
  | entryWrite (who : Who) (index sub : Nat) (value : Bytes)
  | save (who : Who) (value : Bytes)
  | saveDone (readBackOk : Bool)
  | restoreFactoryDefaults (who : Who) (value : Bytes)
  | keySlotWrite (who : Who) (slot : Fin 8) (value : Bytes)
  | keyRoleWrite (who : Who) (slot : Fin 8) (value : Bytes)
  -- Life of a lane
  | presenceSample (n : LaneId) (presence disc clamp : Bool)
  | presenceChange (n : LaneId)
  | pickupAccept (n : LaneId) (r : IdRead)
  | linkTrainingDone (n : LaneId) (laser : Bool)
  | linkTrainingTimeout (n : LaneId) (laser : Bool)
  | linkRetrainRetry (n : LaneId) (laser : Bool)
  | homingStall (n : LaneId)
  | homingNoStall (n : LaneId)
  | discStatusChange (n : LaneId)
  | leadInReadStart (n : LaneId)
  | leadInReadComplete (n : LaneId) (r : LeadIn)
  | teamMembersWrite (who : Who) (t : TeamId) (value : Bytes)
  | createVolume (who : Who) (t : TeamId) (value : Bytes)
  | volumeCreated (t : TeamId)
  | spinUp (n : LaneId)
  | atSpeed (n : LaneId)
  | focusCapture (n : LaneId) (peaks : List Nat) (position : Int)
  | layerJump (n : LaneId) (outward : Bool) (landed : Bool)
  | bandCapture (n : LaneId) (w : WobbleRead) (speeds : List Nat)
  | wobbleFrame (n : LaneId) (w : WobbleRead)
  | writeClockUnlock (n : LaneId) (errors : List Int)
  | runoutRevolution (n : LaneId)
  | startLearningRun (who : Who) (n : LaneId) (value : Bytes)
  | idleParkTimeout (n : LaneId)
  | rampDown (n : LaneId)
  | laneModeWrite (who : Who) (n : LaneId) (value : Bytes)
  | laneEnableWrite (who : Who) (n : LaneId) (value : Bytes)
  | laneReset (who : Who) (n : LaneId) (value : Bytes)
  | pickupTempRead (n : LaneId) (temp : Int)
  | sessionCloseDue (n : LaneId)
  | sessionCloseWrite (n : LaneId) (verify : List VerifyRead)
  | recoveryScan (n : LaneId)
  | recoveryScanEnd (n : LaneId) (r : ScanRead)
  -- Writing
  | passStart (n : LaneId) (blank : List (TrackId × Bool))
  | sectorPlayout (n : LaneId)
  | sectorVerify (n : LaneId) (k : TrackId) (v : VerifyRead)
  | passEnd (n : LaneId)
  | relocationPass (n : LaneId) (verify : List (TrackId × List VerifyRead))
  | relocationMove (n : LaneId)
  | sealDelayExpire (t : TeamId) (extent : Nat)
  -- Reading
  | extentReadStart (n : LaneId) (k : TrackId) (slot : Nat)
  | acquisition (n : LaneId) (c : ChanId) (level : Nat) (rms : Nat) (phase : Int) (phaseError : Nat) (residual : Int)
  | syncMarkSearch (n : LaneId) (c : ChanId) (w : MarkWindow)
  | timingLost (n : LaneId) (c : ChanId) (bit : Nat)
  | dropoutStart (n : LaneId) (c : ChanId) (bit : Nat)
  | dropoutEnd (n : LaneId) (c : ChanId) (bit : Nat)
  | dropoutCoastLimit (n : LaneId) (c : ChanId) (bit : Nat)
  | sectorRecord (n : LaneId) (k : TrackId) (r : SectorSamples)
  | captureArm (who : Who) (n : LaneId) (value : Bytes)
  | captureStart (n : LaneId) (samples : List Bytes)
  | testSourceWrite (who : Who) (n : LaneId) (value : Bytes)
  | restoreClassTaps (who : Who) (n : LaneId) (value : Bytes)
  | ldpcDecode (n : LaneId) (k : TrackId) (sector : Nat)
  | extentReadOutcome (n : LaneId) (k : TrackId)
  | outerDecode (n : LaneId) (k : TrackId)
  | ladderStep (n : LaneId) (k : TrackId)
  | refreshWaitExpire (n : LaneId)
  | clearReadDefectList (who : Who) (n : LaneId) (value : Bytes)
  -- Loop engine banks
  | observerSwitchRequest (who : Who) (value : Bytes)
  | biquadSwitchRequest (who : Who) (value : Bytes)
  | observerShadowWrite (who : Who) (n : LaneId) (value : Bytes)
  | biquadShadowWrite (who : Who) (n : LaneId) (value : Bytes)
  | librarySlotWrite (who : Who) (slot : Fin 16) (sub : Nat) (value : Bytes)
  -- Spindle and pacer
  | commutationStep (n : LaneId)
  | zeroCrossing (n : LaneId)
  | rotorLost (n : LaneId)
  | startFromRest (n : LaneId) (peaks : List (List Nat))
  | handover (n : LaneId)
  | openLoopTimeout (n : LaneId)
  | coastEnd (n : LaneId) (backEmf : Nat)
  | voltageLimitEnter (n : LaneId)
  | voltageLimitExit (n : LaneId)
  | busSample (g : SegId) (mv : Nat)
  | chopFailureDetect (g : SegId)
  | clearChopperFailure (who : Who) (g : SegId) (value : Bytes)
  | busOvervoltage (g : SegId)
  | regenToShort (n : LaneId)
  | shortBrakeRest (n : LaneId)
  | flyingRestart (n : LaneId) (b : BackEmf)
  | flyingRestartTimeout (n : LaneId)
  | pacerEvaluation (n : LaneId)
  -- Sled
  | sledSetpoint (n : LaneId) (master : Nat) (sa sb : Int)
  | hostStride (who : Who) (n : LaneId) (value : Bytes)
  | hostStop (who : Who) (n : LaneId) (value : Bytes)
  | quietDelayExpire (n : LaneId)
  | holdCurrentTimeout (n : LaneId)
  | encFailure (n : LaneId) (noEdge : Bool)
  | microstepTableWrite (who : Who) (n : LaneId) (value : Bytes)
  | restoreDefaultTable (who : Who) (n : LaneId) (value : Bytes)
  -- Warm-up
  | startWarmUp (who : Who) (n : LaneId) (value : Bytes)
  | warmUpStart (n : LaneId)
  | warmUpPartEnd (n : LaneId) (samples : List (List Int))
  | warmUpRead (n : LaneId)
  | warmUpPartTimeout (n : LaneId)
  | opcWaitExpire (n : LaneId)
  | writePowerPass (n : LaneId) (beta : List (List Int)) (diffs : List (List Nat))
  | warmUpRetry (n : LaneId)
  | trimSetRestore (who : Who) (n : LaneId) (value : Bytes)
  -- NVMe admin
  | createIoSq (c : CmdId) (dw10 dw11 : Nat) (prp : Nat)
  | createIoCq (c : CmdId) (dw10 dw11 : Nat) (prp : Nat)
  | deleteIoSq (c : CmdId) (dw10 : Nat)
  | deleteIoCq (c : CmdId) (dw10 : Nat)
  | getLogPage (c : CmdId) (nsid dw10 dw11 dw12 dw13 : Nat)
  | identify (c : CmdId) (nsid dw10 dw11 : Nat)
  | abort (c : CmdId) (dw10 : Nat)
  | setFeaturesArbitration (c : CmdId) (sv : Bool) (dw11 : Nat)
  | setFeaturesPowerManagement (c : CmdId) (sv : Bool) (dw11 : Nat)
  | setFeaturesTempThreshold (c : CmdId) (sv : Bool) (dw11 : Nat)
  | setFeaturesNumberOfQueues (c : CmdId) (sv : Bool) (dw11 : Nat)
  | setFeaturesIntCoalescing (c : CmdId) (sv : Bool) (dw11 : Nat)
  | setFeaturesIntVectorConfig (c : CmdId) (sv : Bool) (dw11 : Nat)
  | setFeaturesAsyncEventConfig (c : CmdId) (sv : Bool) (dw11 : Nat)
  | setFeaturesUnsupported (c : CmdId) (sv : Bool) (fid : Nat)
  | getFeatures (c : CmdId) (dw10 dw11 : Nat)
  | asyncEventRequest (c : CmdId)
  | firmwareImageDownload (c : CmdId) (ofst : Nat) (data : Option Bytes)
  | firmwareCommitVerify (c : CmdId) (fs : Nat)
  | firmwareCommitPending (c : CmdId) (fs : Nat)
  | firmwareCommitSelect (c : CmdId) (fs : Nat)
  | firmwareCommitActivate (c : CmdId) (fs : Nat) (peerHolds : Bool)
  | securitySend (c : CmdId) (protocol : Nat) (data : Option Bytes)
  | securityReceive (c : CmdId) (protocol : Nat) (len : Nat)
  | getVersion
  | getCapabilities (flags : Nat)
  | negotiateAlgorithms (asym hash : Nat)
  | getDigests
  | getCertificate (slot offset len : Nat)
  | challenge (slot summary : Nat) (nonce : Bytes)
  | getMeasurements (index : Nat) (nonce : Option Bytes)
  | spdmUnsupportedRequest (code : Nat)
  | invalidOpcode (c : CmdId) (opcode : Nat)
  -- NVMe I/O
  | flush (c : CmdId) (nsid : Nat)
  | write (c : CmdId) (nsid slba nlb : Nat) (x : Transfer)
  | read (c : CmdId) (nsid slba nlb : Nat) (x : Transfer)
  | zoneAppend (c : CmdId) (nsid zslba nlb : Nat) (x : Transfer)
  | zoneManagementReceive (c : CmdId) (nsid slba option numd : Nat) (part : Bool)
  | zoneOpen (c : CmdId) (nsid slba : Nat) (all : Bool)
  | zoneClose (c : CmdId) (nsid slba : Nat) (all : Bool)
  | zoneFinish (c : CmdId) (nsid slba : Nat) (all : Bool)
  | zoneReset (c : CmdId) (nsid slba : Nat) (all : Bool)
  | zoneOffline (c : CmdId) (nsid slba : Nat) (all : Bool)
  | setZoneDescriptorExtension (c : CmdId) (nsid slba : Nat)
  | sqDoorbell (ctrl : PortId) (q tail : Nat)
  | cqDoorbell (ctrl : PortId) (q head : Nat)
  | commandComplete (c : CmdId)
  | detachHoldExpire (t : TeamId)
  | orderWaitExpire (t : TeamId) (extent : Nat)
  | zoneRebuild (t : TeamId)
  | controllerEnable (ctrl : PortId) (ams aqa : Nat)
  | controllerReset (ctrl : PortId)
  | pcieLinkDown (port : PortId)
  | shutdownNotify (ctrl : PortId)
  | laneWaitExpire (n : LaneId)
  | testOrderingWrite (who : Who) (value : Bytes)
  -- Buffer memory and cache
  | memoryChannelLost (ch : PortId) (cause : Nat)
  | bufferFillDone
  | scrubStep (flips : List (Nat × Nat))
  | scrubModeWrite (who : Who) (value : Bytes)
  | startPass (who : Who) (value : Bytes)
  | endPass (who : Who) (value : Bytes)
  | cmbRead (port : PortId) (offset len : Nat)
  | cmbWrite (port : PortId) (offset : Nat) (data : Bytes) (ep : Bool)
  | hostDataCompletion (c : CmdId) (lba : Nat) (data : Bytes) (ep : Bool) (error : Bool)
  | hostDataTimeout (c : CmdId) (lba : Nat)
  | cacheAccess (addr : Nat) (data : Option Bytes) (flips : List (Nat × Nat))
  | cacheFillComplete (bank : Fin 16) (flips : List (Nat × Nat))
  | writebackDrain
  | wayModeWrite (who : Who) (value : Bytes)
  | modeChangeComplete
  | cacheClean (who : Who) (value : Bytes)
  | cacheInvalidate (who : Who) (value : Bytes)
  | cacheCleanInvalidate (who : Who) (value : Bytes)
  | cacheLoad (who : Who) (value : Bytes)
  | maintenanceComplete
  -- Relay pair
  | soloTimeout
  | peerArrived (serial : Bytes)
  | pairselClaim (low : Nat)
  | holdConflict
  | demandRelease
  | batonLinkTrained (link : PortId) (serial : Bytes)
  | batonLinkLost (link : PortId)
  | peerDeparted
  | pairHello (frame : Bytes) (side : Bool)
  | heartbeatSend
  | heartbeat (frame : Bytes)
  | mirror (frame : Bytes)
  | commit (frame : Bytes)
  | ack (frame : Bytes)
  | config (frame : Bytes)
  | drill (frame : Bytes)
  | aliveLoss
  | heartbeatLoss
  | takeoverRefused
  | startDrill (who : Who) (value : Bytes)
  | drillSchedule
  | drillQuiesceExpire
  | drillRelease
  | drillCheck (holdHigh : Bool)
  | laneViewMismatch (n : LaneId) (peerPresence peerDisc : Bool)
  -- Power
  | unitStateWrite (who : Who) (value : Bytes)
  | standEntry
  | standEntryTimeout
  | sleepEntry
  | wakeStep (ok : Bool)
  | wakeStepTimeout
  | wakeFromStand
  | demandWake
  -- Firmware
  | openDownload (who : Who) (value : Bytes)
  | chunk (who : Who) (value : Bytes)
  | imageVerify
  | imageCopyToPeer
  | abandonDownload (who : Who) (value : Bytes)
  | activate (who : Who) (value : Bytes) (peerHolds : Bool)
  | activationStep
  | rollingActivationStep (ok : Bool)
  | trialExpire
  | commitTrial (who : Who) (value : Bytes)
  | watchdogExpire (core : Fin 12)
  | failStop (cause : Nat)
  | bootRom (ddr : List DdrSeen)
  | deviceReset (aon : Bool)
  -- Records
  | lifetimeSave
  | pickupLifetimeWrite (n : LaneId)
  | setCalendar (who : Who) (value : Bytes)
  | setPpsTime (who : Who) (value : Bytes)
  | ppsEdge
  | ppsTimeout
  -- Ports and supplies
  | driveStatus (n : LaneId) (payload : Bytes) (crc : Nat)
  | driveStatusTimeout (n : LaneId)
  | laserStatus (n : LaneId) (payload : Bytes) (crc : Nat)
  | laserStatusTimeout (n : LaneId)
  | sidebandRetry (n : LaneId) (acked : Bool)
  | mdioPoll (port : PortId) (up : Bool)
  | thermalTrip (die : Fin 5) (temp : Int)
  | clearAlert (who : Who) (value : Bytes)
  | powerUpStep (group : Fin 5)
  | powerUpTimeout
  | powerUpRetry
  | supplyCheck (mv : List Nat)
  | pmicPgFall (group : Fin 4)
  | aonPowerFail
  | compositeTemperatureChange (temps : List Int)
  | referenceClockLost (clk : PortId)
  | pcieLinkTrained (port : PortId) (speed width : Nat)
  | powerDownStep (pgFell : Bool)
  | commandAddressParityError (ch : PortId) (cleared : Bool)
  | interruptCoalescingTimeout (ctrl : PortId) (vector : Nat)
  | jtagInstruction (ir : Nat) (tdi : List Bool)
  | neighbourDiscovery (port : PortId) (addr : Bytes) (msg : Bytes)
  deriving DecidableEq, Repr

end Sys2Proof
end

