-- ==== Sys2Proof/Machine/Bits.lean ====
section
/-! DEFINITION. Byte order, bit fields, fixed point and the cyclic checks that the spec gives by polynomial. -/

namespace Sys2Proof.Machine

/-- A natural number from little-endian bytes (R86). -/
def fromLE : Bytes → Nat
  | [] => 0
  | b :: bs => b.toNat + 256 * fromLE bs

/-- The `n` little-endian bytes of a natural number. -/
def toLE : Nat → Nat → Bytes
  | 0, _ => []
  | n + 1, v => byte v :: toLE n (v / 256)

/-- The `n` bytes of a two's-complement integer, little-endian. -/
def toLEInt (n : Nat) (v : Int) : Bytes := toLE n (v % (256 ^ n : Nat)).toNat

/-- A two's-complement integer of `w` bits from its bits. -/
def signed (w : Nat) (v : Nat) : Int :=
  if v % 2 ^ w < 2 ^ (w - 1) then ((v % 2 ^ w : Nat) : Int) else ((v % 2 ^ w : Nat) : Int) - (2 ^ w : Nat)

/-- A two's-complement integer from little-endian bytes. -/
def fromLEInt (b : Bytes) : Int := signed (8 * b.length) (fromLE b)

/-- Bits hi..lo of a natural number (R17). -/
def bits (v hi lo : Nat) : Nat := v / 2 ^ lo % 2 ^ (hi + 1 - lo)

/-- Bit i of a natural number. -/
def bit (v i : Nat) : Bool := v / 2 ^ i % 2 = 1

/-- A bit as a number. -/
def b2n (b : Bool) : Nat := if b then 1 else 0

/-- `n` bytes from an offset. -/
def slice (b : Bytes) (off n : Nat) : Bytes := (b.drop off).take n

/-- The little-endian field of `n` bytes at an offset. -/
def field (b : Bytes) (off n : Nat) : Nat := fromLE (slice b off n)

/-- A byte string with `v` put at an offset. -/
def patch (b : Bytes) (off : Nat) (v : Bytes) : Bytes := b.take off ++ v ++ b.drop (off + v.length)

/-- Zero bytes. -/
def zeroBytes (n : Nat) : Bytes := List.replicate n 0

/-- Saturation to a range. -/
def sat (v lo hi : Int) : Int := if v < lo then lo else if hi < v then hi else v

/-- Division rounded to the nearest integer, halves away from zero (R249, R383, R495); the divisor is positive. -/
def roundDiv (a : Int) (d : Nat) : Int :=
  if 0 ≤ a then (2 * a + d) / (2 * d) else -((2 * (-a) + d) / (2 * d))

/-- The bits of `v`, least significant first. -/
def bitsLE : Nat → Nat → List Bool
  | 0, _ => []
  | n + 1, v => (v % 2 = 1) :: bitsLE n (v / 2)

/-- The `n` bits of `v`, most significant first. -/
def bitsBE (n v : Nat) : List Bool := (bitsLE n v).reverse

/-- A number from bits, most significant first. -/
def fromBitsBE (l : List Bool) : Nat := l.foldl (fun a b => 2 * a + b2n b) 0

/-- The `w` bits of `v` in reverse order. -/
def reflectBits (w v : Nat) : Nat := fromBitsBE (bitsLE w v)

/-- `n` shifts of a reflected CRC register. -/
def crcShift (poly : Nat) : Nat → Nat → Nat
  | 0, c => c
  | n + 1, c => crcShift poly n (if c % 2 = 1 then (c / 2) ^^^ poly else c / 2)

/-- A reflected CRC register fed with bytes. -/
def crcReflected (poly : Nat) : Bytes → Nat → Nat
  | [], c => c
  | b :: bs, c => crcReflected poly bs (crcShift poly 8 (c ^^^ b.toNat))

/-- CRC-32 of R119. -/
def crc32 (b : Bytes) : Nat := crcReflected (reflectBits 32 0x04C11DB7) b 0xFFFFFFFF ^^^ 0xFFFFFFFF

/-- CRC-64 of R200. -/
def crc64 (b : Bytes) : Nat :=
  crcReflected (reflectBits 64 0x42F0E1EBA9EA3693) b 0xFFFFFFFFFFFFFFFF ^^^ 0xFFFFFFFFFFFFFFFF

/-- One bit into an unreflected CRC register of `w` bits. -/
def crcBit (w poly c : Nat) (b : Bool) : Nat :=
  let top := c / 2 ^ (w - 1) % 2
  let c' := 2 * c % 2 ^ w
  if top = b2n b then c' else c' ^^^ poly

/-- CRC-24 of R187 over bits, first bit first. -/
def crc24 (l : List Bool) : Nat := l.foldl (crcBit 24 0x864CFB) 0

/-- CRC-16 of R781 over bytes. -/
def crc16 (b : Bytes) : Nat := (b.flatMap (fun x => bitsBE 8 x.toNat)).foldl (crcBit 16 0x1021) 0xFFFF

/-- ASCII text as bytes. -/
def ascii (s : List Nat) : Bytes := s.map byte

/-- A byte string padded with spaces to `n` bytes (R132, R153). -/
def padSpaces (n : Nat) (b : Bytes) : Bytes := (b ++ List.replicate n (byte 0x20)).take n

/-- A byte string padded with zeros to a multiple of `m` (R117). -/
def padZero (m : Nat) (b : Bytes) : Bytes := b ++ List.replicate ((m - b.length % m) % m) 0

/-- The greatest integer whose square does not exceed `n`, by bisection over `k` bits. -/
def isqrtBits : Nat → Nat → Nat → Nat
  | 0, _, r => r
  | k + 1, n, r => if (r + 2 ^ k) * (r + 2 ^ k) ≤ n then isqrtBits k n (r + 2 ^ k) else isqrtBits k n r

/-- Integer square root of numbers below 2^128. -/
def isqrt (n : Nat) : Nat := isqrtBits 64 n 0

end Sys2Proof.Machine
end

