-- ==== Sys2Proof/Machine/Entries.lean ====
section
/-! DEFINITION. The dictionary's entries (R81-R85): for each index its subindices, with type, length, access,
gate, range and default, as the entry tables of the chapters give them. A decimal of a fixed-point entry stands
for its word (R834). `special` marks a default that depends on the unit, the pickup or a rule. -/

namespace Sys2Proof.Machine

/-- Types of dictionary values (R26). -/
inductive Ty where
  | bool | u8 | u16 | u32 | u64 | s16 | s32 | s64 | q15 | qc | str | blob | time
  deriving DecidableEq, Repr

/-- Access classes (R27). -/
inductive Acc where
  | ro | rw | wo | rwp | rwk | cst
  deriving DecidableEq, Repr

/-- Gates on writes (R28, R767). -/
inductive Gate where
  | none | parked | stand | active | notStandby
  deriving DecidableEq, Repr

/-- Ranges. `each w lo hi` bounds every w-byte element of a BLOB. -/
inductive Rng where
  | any
  | nat (lo hi : Nat)
  | int (lo hi : Int)
  | each (w lo hi : Nat)
  | eachInt (w : Nat) (lo hi : Int)
  deriving DecidableEq, Repr

/-- Defaults. -/
inductive Dflt where
  | zero | ones | empty | special
  | num (v : Int)
  | bytes (b : List Nat)
  deriving DecidableEq, Repr

/-- One entry at a subindex; `len` is the value's length in bytes, 0 where it varies. -/
structure Entry where
  sub : Nat
  ty : Ty
  len : Nat
  acc : Acc
  gate : Gate
  rng : Rng
  dflt : Dflt
  deriving DecidableEq, Repr

/-- An entry, in the order of the tables' columns. -/
def e (sub : Nat) (ty : Ty) (len : Nat) (acc : Acc) (gate : Gate) (rng : Rng) (dflt : Dflt) : Entry :=
  { sub := sub, ty := ty, len := len, acc := acc, gate := gate, rng := rng, dflt := dflt }

/-- Entries of R417. -/
def entriesBiquadBank : List (Nat × List Entry) := [
  (0x6030, [e 1 .blob 2048 .rw .none .any .special,
    e 2 .blob 2048 .ro .none .any .special,
    e 3 .blob 2048 .ro .none .any .special])]

/-- Entries of R175, R806. -/
def entriesLane0 : List (Nat × List Entry) := [
  (0x00, [e 1 .u8 1 .ro .none (.nat 0 9) .zero,
    e 2 .u8 1 .ro .none (.nat 0 9) .zero,
    e 3 .time 8 .ro .none .any .zero,
    e 4 .u16 2 .ro .none .any (.num 128)]),
  (0x01, [e 1 .bool 1 .rwp .none (.nat 0 1) (.num 1),
    e 2 .u8 1 .rw .none (.nat 0 3) .zero,
    e 3 .u16 2 .rwp .none (.nat 10 65535) (.num 600),
    e 4 .u32 4 .wo .none (.nat 1381192780 1381192780) .zero]),
  (0x02, [e 1 .u16 2 .ro .none .any .zero,
    e 2 .u8 1 .ro .none (.nat 0 9) .zero,
    e 3 .u8 1 .ro .none .any .zero,
    e 4 .u8 1 .rwp .none (.nat 1 10) (.num 3),
    e 5 .u16 2 .rwp .none (.nat 10 3600) (.num 60)]),
  (0x03, [e 1 .u8 1 .ro .none .any .zero,
    e 2 .u8 1 .ro .none (.nat 0 3) .zero,
    e 3 .blob 6 .ro .none .any .zero,
    e 4 .blob 4 .ro .none .any .zero]),
  (0x04, [e 1 .str 0 .ro .none .any .empty,
    e 2 .u16 2 .ro .none .any .zero,
    e 3 .blob 256 .ro .none .any .zero,
    e 5 .s16 2 .ro .none .any .zero,
    e 6 .s16 2 .rwp .none (.int (400) (1000)) (.num 700)]),
  (0x05, [e 1 .blob 16 .ro .none .any .zero,
    e 2 .u8 1 .ro .none (.nat 0 31) (.num 255),
    e 3 .u8 1 .ro .none (.nat 0 32) .zero,
    e 4 .u8 1 .ro .none (.nat 0 31) .special]),
  (0x06, [e 1 .u8 1 .ro .none (.nat 0 7) (.num 255),
    e 2 .u32 4 .ro .none .any (.num 4294967295),
    e 3 .q15 2 .rwp .none (.int (1638) (29491)) (.num 8192),
    e 4 .u16 2 .rwp .none (.nat 500 20000) (.num 5000)])]

/-- Entries of R230, R337, R373. -/
def entriesLane20 : List (Nat × List Entry) := [
  (0x20, [e 1 .blob 128 .ro .none .any .zero,
    e 2 .blob 48 .ro .none .any .zero,
    e 3 .u32 4 .ro .none .any .zero,
    e 4 .u16 2 .ro .none (.nat 0 7568) .zero,
    e 5 .blob 128 .ro .none .any .zero,
    e 6 .u16 2 .ro .none (.nat 0 1323) (.num 1323),
    e 7 .u32 4 .ro .none .any .zero]),
  (0x21, [e 1 .u16 2 .rwp .none (.nat 10 3600) (.num 60),
    e 2 .u32 4 .rwp .none (.nat 3600 604800) (.num 86400)]),
  (0x22, [e 1 .blob 8 .rwk .none (.each 1 0 144) .special,
    e 2 .blob 8 .rwk .none (.eachInt 1 (-127) 127) .zero,
    e 3 .q15 2 .rwp .none (.int (9830) (19661)) (.num 14746),
    e 4 .blob 16 .ro .none .any .zero,
    e 5 .u8 1 .rwp .none (.nat 16 96) (.num 40),
    e 6 .u8 1 .rwp .none (.nat 4 48) (.num 24)]),
  (0x23, [e 1 .q15 2 .rwp .none (.int (328) (16384)) (.num 4096),
    e 2 .q15 2 .rwp .none (.int (3) (1638)) (.num 128),
    e 3 .q15 2 .rwp .none (.int (66) (8192)) (.num 1024),
    e 4 .q15 2 .rwp .none (.int (1) (328)) (.num 8),
    e 5 .q15 2 .rwp .none (.int (655) (8192)) (.num 2621),
    e 6 .blob 16 .ro .none .any .zero,
    e 7 .u8 1 .ro .none .any .zero]),
  (0x24, [e 1 .blob 960 .rw .none .any .special,
    e 2 .blob 960 .rw .none .any .special,
    e 3 .blob 960 .rw .none .any .special,
    e 4 .blob 960 .rw .none .any .special,
    e 5 .blob 960 .rw .none .any .special,
    e 6 .blob 960 .rw .none .any .special,
    e 7 .blob 960 .rw .none .any .special,
    e 8 .blob 960 .rw .none .any .special,
    e 9 .q15 2 .rwp .none (.int (1) (256)) (.num 8),
    e 10 .bool 1 .rw .none (.nat 0 1) (.num 1),
    e 11 .u8 1 .wo .none (.nat 1 255) .zero,
    e 12 .u8 1 .ro .none .any .zero]),
  (0x25, [e 1 .q15 2 .rwp .none (.int (0) (29491)) .special,
    e 2 .q15 2 .rwp .none (.int (0) (16384)) .special,
    e 3 .q15 2 .rwp .none (.int (0) (16384)) .special,
    e 4 .bool 1 .rwp .none (.nat 0 1) (.num 1),
    e 5 .blob 16 .ro .none .any (.bytes [0, 1, 0, 1, 0, 1, 0, 1, 0, 1, 0, 1, 0, 1, 0, 1]),
    e 6 .q15 2 .rwp .none (.int (983) (32440)) .special,
    e 7 .u8 1 .rwp .none (.nat 32 128) (.num 64)]),
  (0x26, [e 1 .u8 1 .cst .none .any (.num 8),
    e 2 .u8 1 .rwp .none (.nat 0 8) (.num 4),
    e 3 .u8 1 .rwp .none (.nat 0 6) (.num 3),
    e 4 .u8 1 .rwp .none (.nat 1 8) (.num 2),
    e 5 .u8 1 .cst .none .any (.num 3),
    e 6 .s16 2 .ro .none (.int (-256) (256)) .zero,
    e 7 .bool 1 .rwp .none (.nat 0 1) (.num 1)]),
  (0x27, [e 1 .u16 2 .rwp .none (.nat 100 800) (.num 400),
    e 2 .u16 2 .rwp .none (.nat 1100 4000) (.num 1600),
    e 3 .u8 1 .rwp .none (.nat 2 64) (.num 8),
    e 4 .u8 1 .rwp .none (.nat 0 64) (.num 16),
    e 5 .u16 2 .rwp .none (.nat 256 20000) (.num 4000),
    e 6 .blob 8 .ro .none .any .special]),
  (0x28, [e 1 .u16 2 .rwp .none (.nat 50 500) (.num 200),
    e 2 .blob 16 .ro .none .any .special]),
  (0x29, [e 1 .blob 16 .ro .none .any .zero,
    e 2 .q15 2 .ro .none .any .zero,
    e 3 .u8 1 .ro .none .any .zero,
    e 4 .blob 8 .ro .none .any .zero]),
  (0x2A, [e 1 .u32 4 .wo .none (.nat 1 65536) .zero,
    e 2 .u8 1 .ro .none (.nat 0 3) .zero,
    e 3 .blob 0 .ro .none .any .empty,
    e 4 .u16 2 .rw .parked (.nat 0 20000) .zero]),
  (0x30, [e 1 .u8 1 .rwp .none (.nat 4 40) (.num 20),
    e 2 .u8 1 .rwp .none (.nat 20 200) (.num 60),
    e 3 .u8 1 .rwp .none (.nat 0 6) (.num 6),
    e 4 .u8 1 .rwp .none (.nat 0 4) (.num 1),
    e 5 .u8 1 .rwp .none (.nat 5 40) (.num 15),
    e 6 .u8 1 .rwp .none (.nat 10 80) (.num 30)]),
  (0x31, [e 1 .u8 1 .rwp .none (.nat 1 8) (.num 4),
    e 2 .bool 1 .rwp .none (.nat 0 1) (.num 1),
    e 3 .u16 2 .rwp .none (.nat 60 65535) (.num 3600),
    e 4 .u16 2 .ro .none (.nat 0 1024) .zero,
    e 5 .u8 1 .rwp .none (.nat 1 50) (.num 10)]),
  (0x32, [e 1 .blob 65536 .ro .none .any .zero,
    e 2 .u16 2 .ro .none (.nat 0 4096) .zero,
    e 3 .u32 4 .wo .none (.nat 1129075268 1129075268) .zero])]

/-- Entries of R281. -/
def entriesLane40 : List (Nat × List Entry) := [
  (0x40, [e 1 .u16 2 .rwp .none (.nat 50 2000) (.num 400),
    e 2 .u16 2 .rwp .none (.nat 8 512) (.num 64),
    e 3 .u16 2 .rwp .none (.nat 0 4000) (.num 256),
    e 4 .u8 1 .rwp .none (.nat 1 8) (.num 2),
    e 5 .u8 1 .rwp .none (.nat 1 32) (.num 8),
    e 6 .u8 1 .rwp .none (.nat 1 16) (.num 3),
    e 7 .bool 1 .ro .none (.nat 0 1) .zero]),
  (0x41, [e 1 .bool 1 .ro .none (.nat 0 1) .zero,
    e 2 .q15 2 .ro .none .any .zero,
    e 3 .q15 2 .rwp .none (.int (328) (3277)) (.num 1311),
    e 4 .q15 2 .rwp .none (.int (3277) (14746)) (.num 8192),
    e 5 .s16 2 .ro .none (.int (-512) (512)) .zero]),
  (0x42, [e 1 .blob 36 .ro .none .any .zero,
    e 2 .blob 36 .ro .none .any .zero,
    e 3 .blob 36 .ro .none .any .zero,
    e 4 .blob 36 .ro .none .any .zero,
    e 5 .blob 1152 .rwp .none .any .zero,
    e 6 .bool 1 .rwp .none (.nat 0 1) .zero]),
  (0x43, [e 1 .blob 4 .ro .none .any .zero,
    e 2 .blob 8 .ro .none .any .zero,
    e 3 .u8 1 .rwp .none (.nat 0 16) (.num 4),
    e 4 .u16 2 .ro .none .any .zero]),
  (0x44, [e 1 .u16 2 .rwp .none (.nat 100 1200) (.num 600)])]

/-- Entries of R418. -/
def entriesLane60 : List (Nat × List Entry) := [
  (0x60, [e 1 .u16 2 .ro .none .any .zero,
    e 2 .blob 48 .ro .none .any .zero,
    e 3 .blob 6 .ro .none .any .zero,
    e 4 .blob 24 .ro .none .any .zero]),
  (0x62, [e 1 .blob 12288 .ro .none .any .zero,
    e 2 .q15 2 .rwp .none (.int (0) (16384)) (.num 2048),
    e 3 .u8 1 .rwp .none (.nat 2 50) (.num 10),
    e 4 .u32 4 .ro .none .any .zero,
    e 5 .u16 2 .ro .none .any .zero,
    e 6 .u32 4 .wo .none (.nat 1279611470 1279611470) .zero]),
  (0x63, [e 1 .u8 1 .ro .none (.nat 0 3) .zero,
    e 2 .blob 256 .ro .none .any .zero,
    e 3 .blob 32 .ro .none .any .zero,
    e 4 .u16 2 .ro .none (.nat 0 1023) .zero])]

/-- Entries of R458, R832. -/
def entriesLane80 : List (Nat × List Entry) := [
  (0x80, [e 1 .u16 2 .ro .none .any .zero,
    e 2 .s32 4 .ro .none .any .zero,
    e 3 .s32 4 .ro .none .any .zero,
    e 4 .u16 2 .ro .none .any .zero,
    e 5 .u8 1 .ro .none (.nat 0 5) .zero,
    e 6 .blob 6 .ro .none .any .zero,
    e 7 .s16 2 .ro .none .any .special]),
  (0x81, [e 1 .u16 2 .rwp .none (.nat 100 6000) (.num 3000),
    e 2 .u16 2 .rwp .none (.nat 100 6000) (.num 3000),
    e 3 .u16 2 .rwp .none (.nat 240 6000) (.num 6000),
    e 4 .u8 1 .rwp .none (.nat 1 10) (.num 1)]),
  (0x82, [e 1 .u16 2 .rwp .none (.nat 150 450) (.num 300),
    e 2 .q15 2 .rwp .none (.int (328) (29491)) (.num 8192),
    e 3 .q15 2 .rwp .none (.int (33) (8192)) (.num 1024),
    e 4 .u16 2 .rwp .none (.nat 100 600) (.num 300)]),
  (0x83, [e 1 .u16 2 .rwp .none (.nat 10 200) (.num 50),
    e 3 .u16 2 .rwp .none (.nat 100 10000) (.num 1500),
    e 4 .u16 2 .rwp .none (.nat 50 150) (.num 150),
    e 5 .u8 1 .rwp .none (.nat 3 24) (.num 6)]),
  (0x84, [e 1 .bool 1 .rwp .none (.nat 0 1) (.num 1),
    e 2 .u16 2 .rwp .none (.nat 100 5000) (.num 500),
    e 3 .q15 2 .rwp .none (.int (3277) (32767)) (.num 26214),
    e 4 .u16 2 .rwp .none (.nat 20 1000) (.num 100)]),
  (0x85, [e 2 .u16 2 .rwp .none (.nat 100 20000) (.num 1500),
    e 3 .u16 2 .rwp .none (.nat 100 10000) (.num 1500),
    e 4 .u16 2 .rwp .none (.nat 5 3600) (.num 120),
    e 5 .u8 1 .rwp .none (.nat 60 150) (.num 110),
    e 6 .s32 4 .ro .none .any .zero]),
  (0x86, [e 1 .u16 2 .rwp .none (.nat 1000 50000) (.num 10000)]),
  (0x88, [e 1 .u8 1 .rwp .none (.nat 0 1) .zero,
    e 2 .u16 2 .rwp .none (.nat 2496 9984) (.num 9984),
    e 3 .u16 2 .rwp .none (.nat 500 60000) (.num 5000),
    e 4 .u16 2 .rwp .none (.nat 100 400) (.num 125),
    e 5 .u16 2 .rwp .none (.nat 200 60000) (.num 2000),
    e 6 .u16 2 .rwp .none (.nat 1000 60000) (.num 10000),
    e 7 .u16 2 .rwp .none (.nat 2496 9984) (.num 9984),
    e 8 .u16 2 .ro .none .any (.num 9984),
    e 9 .u16 2 .ro .none .any (.num 9984),
    e 10 .u16 2 .ro .none .any (.num 9984),
    e 11 .u8 1 .ro .none .any .zero,
    e 12 .u32 4 .ro .none .any .zero,
    e 13 .u64 8 .ro .none .any .zero])]

/-- Entries of R501. -/
def entriesLaneA0 : List (Nat × List Entry) := [
  (0xA0, [e 1 .u16 2 .ro .none .any .zero,
    e 2 .s64 8 .ro .none .any .zero,
    e 3 .s32 4 .ro .none .any .zero,
    e 4 .s32 4 .ro .none .any .zero,
    e 5 .u16 2 .ro .none (.nat 0 1023) .zero,
    e 6 .s32 4 .ro .none .any .zero]),
  (0xA1, [e 1 .u16 2 .rwp .none (.nat 100 15000) (.num 15000),
    e 2 .u16 2 .rwp .none (.nat 100 3000) (.num 3000),
    e 3 .u16 2 .rwp .none (.nat 300 10000) (.num 3000),
    e 4 .u16 2 .rwp .none (.nat 3000 10000) (.num 6000)]),
  (0xA2, [e 1 .blob 128 .ro .none .any .zero,
    e 2 .blob 16 .wo .parked .any .zero,
    e 3 .u32 4 .wo .parked (.nat 1398034256 1398034256) .zero,
    e 4 .blob 16 .ro .none .any .zero]),
  (0xA3, [e 1 .s32 4 .rwp .none (.int (-1024) (0)) (.num (-256)),
    e 2 .s32 4 .rwp .none (.int (600000) (614144)) (.num 614144),
    e 3 .u8 1 .rwp .none (.nat 30 60) (.num 48),
    e 4 .u8 1 .rwp .none (.nat 5 60) (.num 20)]),
  (0xA4, [e 1 .blob 516 .ro .none .any .special,
    e 2 .blob 516 .rwp .none .any .special,
    e 3 .u32 4 .wo .none (.nat 1413562956 1413562956) .zero]),
  (0xA5, [e 1 .u16 2 .rwp .none (.nat 100 2000) (.num 400),
    e 2 .u16 2 .rwp .none (.nat 10 500) (.num 50),
    e 3 .q15 2 .rwp .none (.int (3277) (32440)) (.num 16384),
    e 4 .q15 2 .rwp .none (.int (3277) (32440)) (.num 29491),
    e 5 .q15 2 .rwp .none (.int (1638) (32440)) (.num 9830),
    e 6 .u16 2 .rwp .none (.nat 1 1000) (.num 10),
    e 7 .u16 2 .rwp .none (.nat 10 10000) (.num 200),
    e 8 .q15 2 .cst .none .any (.num 9830)]),
  (0xA6, [e 1 .u8 1 .rwp .parked (.nat 0 1) .zero,
    e 2 .u32 4 .rwp .parked (.nat 256 65536) (.num 4096),
    e 3 .blob 8 .ro .none .any (.bytes [1, 0, 0, 0, 0xA0, 0x0F, 0, 0]),
    e 4 .blob 48 .ro .none .any .zero,
    e 5 .u32 4 .ro .none .any .zero])]

/-- Entries of R529. -/
def entriesLaneC0 : List (Nat × List Entry) := [
  (0xC0, [e 1 .u8 1 .wo .none (.nat 1 127) .zero,
    e 2 .u16 2 .ro .none .any .zero,
    e 3 .u16 2 .rwp .none (.nat 5 200) (.num 30),
    e 4 .u16 2 .rwp .none (.nat 10 3600) (.num 60),
    e 5 .u16 2 .rwp .none (.nat 0 60000) (.num 10000),
    e 6 .u8 1 .rwp .none (.nat 1 10) (.num 3),
    e 7 .bool 1 .rwp .none (.nat 0 1) (.num 1),
    e 8 .u32 4 .rwp .none (.nat 1000 600000) (.num 30000),
    e 9 .s16 2 .ro .none .any .zero,
    e 10 .s16 2 .ro .none .any .special,
    e 11 .time 8 .ro .none .any .zero,
    e 12 .blob 7 .ro .none .any .zero]),
  (0xC1, [e 1 .blob 80 .rwk .none .any .special,
    e 2 .blob 64 .ro .none .any .special,
    e 3 .blob 16 .rwk .none .any .special]),
  (0xC2, [e 1 .s16 2 .rwk .none .any .special,
    e 2 .s16 2 .rwk .none .any .special,
    e 3 .s16 2 .rwk .none .any .special,
    e 4 .blob 12 .rwp .none (.each 4 0 268435456) (.bytes [0x93, 0x18, 0x4, 0x0, 0x93, 0x18, 0x4, 0x0, 0x93, 0x18, 0x4, 0x0]),
    e 5 .u8 1 .rwp .none (.nat 5 40) (.num 20),
    e 6 .u8 1 .rwp .none (.nat 10 200) (.num 50),
    e 7 .u8 1 .rwp .none (.nat 5 40) (.num 15),
    e 8 .u8 1 .rwp .none (.nat 10 200) (.num 50),
    e 9 .u16 2 .rwp .none (.nat 10 300) (.num 60)]),
  (0xC3, [e 1 .u16 2 .rwk .none .any .special,
    e 2 .u8 1 .rwp .none (.nat 2 10) (.num 5)]),
  (0xC4, [e 1 .blob 8 .rwk .none .any .special,
    e 2 .q15 2 .rwp .none (.int (-3277) (4915)) (.num 655)]),
  (0xC5, [e 1 .blob 128 .rwp .none .any .special])]

/-- Entries of R281, R337, R373, R418, R458, R501, R529, R767, R806. -/
def entriesLaneE0 : List (Nat × List Entry) := [
  (0xE0, [e 1 .blob 64 .ro .none .any .zero,
    e 2 .blob 64 .ro .none .any .zero,
    e 3 .blob 64 .ro .none .any .zero,
    e 4 .blob 64 .ro .none .any .zero,
    e 5 .blob 64 .ro .none .any .zero,
    e 6 .blob 64 .ro .none .any .zero,
    e 7 .blob 64 .ro .none .any .zero,
    e 8 .blob 64 .ro .none .any .zero,
    e 9 .blob 64 .ro .none .any .zero]),
  (0xE1, [e 1 .u64 8 .ro .none .any .zero,
    e 2 .u64 8 .ro .none .any .zero,
    e 3 .u64 8 .ro .none .any .zero]),
  (0xE2, [e 1 .u64 8 .ro .none .any .zero,
    e 2 .u64 8 .ro .none .any .zero,
    e 3 .u64 8 .ro .none .any .zero,
    e 4 .u64 8 .ro .none .any .zero,
    e 5 .u64 8 .ro .none .any .zero,
    e 6 .u64 8 .ro .none .any .zero]),
  (0xE3, [e 1 .u64 8 .ro .none .any .zero,
    e 2 .u64 8 .ro .none .any .zero,
    e 3 .u64 8 .ro .none .any .zero,
    e 4 .u64 8 .ro .none .any .zero,
    e 5 .u64 8 .ro .none .any .zero,
    e 6 .u64 8 .ro .none .any .zero,
    e 7 .u64 8 .ro .none .any .zero,
    e 8 .blob 48 .ro .none .any .zero,
    e 9 .u64 8 .ro .none .any .zero,
    e 10 .blob 48 .ro .none .any .zero,
    e 11 .u64 8 .ro .none .any .zero,
    e 12 .u64 8 .ro .none .any .zero]),
  (0xE4, [e 1 .u64 8 .ro .none .any .zero,
    e 2 .blob 48 .ro .none .any .zero,
    e 3 .u64 8 .ro .none .any .zero,
    e 4 .u64 8 .ro .none .any .zero,
    e 5 .blob 16 .ro .none .any .zero,
    e 6 .u64 8 .ro .none .any .zero]),
  (0xE5, [e 1 .u64 8 .ro .none .any .zero,
    e 2 .blob 16 .ro .none .any .zero,
    e 3 .blob 16 .ro .none .any .zero,
    e 4 .u64 8 .ro .none .any .zero,
    e 5 .u64 8 .ro .none .any .zero,
    e 6 .u64 8 .ro .none .any .zero]),
  (0xE6, [e 1 .u64 8 .ro .none .any .zero,
    e 2 .blob 24 .ro .none .any .zero,
    e 3 .u64 8 .ro .none .any .zero,
    e 4 .u64 8 .ro .none .any .zero,
    e 5 .u64 8 .ro .none .any .zero]),
  (0xE7, [e 1 .blob 16 .ro .none .any .zero,
    e 2 .blob 56 .ro .none .any .zero,
    e 3 .u64 8 .ro .none .any .zero]),
  (0xE8, [e 1 .blob 20 .ro .none .any .special,
    e 2 .blob 16 .ro .none .any .special,
    e 3 .blob 32 .ro .none .any .special,
    e 4 .s16 2 .ro .none .any .special,
    e 5 .blob 24 .ro .none .any .zero,
    e 6 .u32 4 .rwp .none (.nat 0 1000000) .zero,
    e 7 .u16 2 .rwp .none (.nat 600 86400) (.num 3600)]),
  (0xE9, [e 1 .u64 8 .ro .none .any .zero,
    e 2 .u64 8 .ro .none .any .zero,
    e 3 .blob 16 .ro .none .any .zero,
    e 4 .u64 8 .ro .none .any .zero,
    e 5 .u64 8 .ro .none .any .zero])]

/-- Entries of R417. -/
def entriesLibrary : List (Nat × List Entry) := [
  (0x6080, [e 1 .u16 2 .rwp .none (.nat 0 65535) (.num 65535),
    e 2 .blob 2048 .rwp .none .any .zero,
    e 3 .blob 2048 .rwp .none .any .zero,
    e 4 .str 0 .rwp .none .any .empty])]

/-- Entries of R417. -/
def entriesObserverBank : List (Nat × List Entry) := [
  (0x6010, [e 1 .blob 2048 .rw .none .any .special,
    e 2 .blob 2048 .ro .none .any .special,
    e 3 .blob 2048 .ro .none .any .special])]

/-- Entries of R459. -/
def entriesSegment : List (Nat × List Entry) := [
  (0x2240, [e 1 .u16 2 .rwp .none (.nat 12000 36000) (.num 36000),
    e 2 .u16 2 .rwp .none (.nat 12500 44000) (.num 39000),
    e 3 .u16 2 .rwp .none (.nat 12400 43900) (.num 38000),
    e 4 .u16 2 .rwp .none (.nat 12600 44500) (.num 40000),
    e 5 .u16 2 .rwp .none (.nat 12800 45000) (.num 42000),
    e 6 .u16 2 .rwp .none (.nat 100 5000) (.num 500),
    e 7 .u8 1 .ro .none .any .zero,
    e 8 .u32 4 .wo .none (.nat 1128812368 1128812368) .zero,
    e 9 .u16 2 .ro .none .any .zero])]

/-- Entries of R177, R282, R374, R562, R595. -/
def entriesTeam : List (Nat × List Entry) := [
  (0x00, [e 1 .u32 4 .rwp .stand .any .special,
    e 2 .u8 1 .ro .none (.nat 0 4) .special,
    e 3 .blob 16 .ro .none .any .zero,
    e 4 .blob 32 .ro .none .any .ones,
    e 5 .u32 4 .wo .none (.nat 1313167190 1313167190) .zero]),
  (0x18, [e 1 .u32 4 .ro .none (.nat 0 32) .zero,
    e 2 .u32 4 .ro .none (.nat 0 7450) .zero,
    e 3 .u16 2 .rwp .none (.nat 0 3600) (.num 60),
    e 4 .u32 4 .rwp .none (.nat 100 600000) (.num 10000),
    e 5 .u8 1 .ro .none .any (.num 3),
    e 6 .blob 4 .ro .none .any .zero,
    e 7 .blob 12 .ro .none .any .zero,
    e 8 .u32 4 .ro .none (.nat 0 7450) .zero]),
  (0x1C, [e 1 .u16 2 .rwp .none (.nat 5 600) (.num 30),
    e 2 .u16 2 .ro .none (.nat 0 4032) .zero,
    e 3 .blob 16 .ro .none .any .zero]),
  (0x40, [e 1 .u16 2 .rwp .none (.nat 10 10000) (.num 200),
    e 2 .u8 1 .ro .none (.nat 0 128) .special]),
  (0x42, [e 1 .blob 512 .ro .none .any .ones]),
  (0x64, [e 1 .blob 6144 .ro .none .any .zero,
    e 2 .u16 2 .ro .none (.nat 0 256) .zero,
    e 3 .u64 8 .ro .none .any .zero])]

/-- Entries of R137, R745. -/
def entriesUnit1000 : List (Nat × List Entry) := [
  (0x1000, [e 1 .str 0 .cst .none .any (.bytes [0x59, 0x5A, 0x2D, 0x33, 0x32, 0x41, 0x31]),
    e 2 .str 0 .cst .none .any .special,
    e 3 .u32 4 .cst .none .any (.num 1496451585),
    e 4 .blob 5 .cst .none .any .special,
    e 5 .u16 2 .cst .none .any (.num 256)]),
  (0x1010, [e 1 .blob 48 .ro .none .any .special,
    e 2 .blob 48 .ro .none .any .special,
    e 3 .blob 48 .ro .none .any .special,
    e 4 .blob 48 .ro .none .any .special,
    e 5 .u32 4 .ro .none .any .special,
    e 6 .blob 8 .ro .none .any .special,
    e 7 .blob 48 .ro .none .any .special])]

/-- Entries of R137. -/
def entriesUnit1100 : List (Nat × List Entry) := [
  (0x1100, [e 1 .bool 1 .rwp .none (.nat 0 1) (.num 1),
    e 2 .bool 1 .rwp .none (.nat 0 1) (.num 1),
    e 3 .blob 16 .rwp .none .any .zero,
    e 4 .blob 16 .rwp .none .any .zero,
    e 5 .u8 1 .rwp .none (.nat 8 128) (.num 64),
    e 6 .blob 6 .cst .none .any .special,
    e 7 .blob 6 .cst .none .any .special,
    e 8 .u16 2 .cst .none .any (.num 47810),
    e 9 .bool 1 .rwp .none (.nat 0 1) (.num 1),
    e 10 .u16 2 .cst .none .any (.num 1000),
    e 11 .u16 2 .rwp .none (.nat 10 600) (.num 60)]),
  (0x1110, [e 1 .blob 32 .wo .none .any .empty,
    e 2 .blob 32 .wo .none .any .empty,
    e 3 .blob 32 .wo .none .any .empty,
    e 4 .blob 32 .wo .none .any .empty,
    e 5 .blob 32 .wo .none .any .empty,
    e 6 .blob 32 .wo .none .any .empty,
    e 7 .blob 32 .wo .none .any .empty,
    e 8 .blob 32 .wo .none .any .empty]),
  (0x1111, [e 1 .u8 1 .rwp .none (.nat 0 3) .zero,
    e 2 .u8 1 .rwp .none (.nat 0 3) .zero,
    e 3 .u8 1 .rwp .none (.nat 0 3) .zero,
    e 4 .u8 1 .rwp .none (.nat 0 3) .zero,
    e 5 .u8 1 .rwp .none (.nat 0 3) .zero,
    e 6 .u8 1 .rwp .none (.nat 0 3) .zero,
    e 7 .u8 1 .rwp .none (.nat 0 3) .zero,
    e 8 .u8 1 .rwp .none (.nat 0 3) .zero]),
  (0x1120, [e 1 .blob 24 .ro .none .any .zero,
    e 2 .blob 24 .ro .none .any .zero,
    e 3 .blob 24 .ro .none .any .zero,
    e 4 .blob 24 .ro .none .any .zero,
    e 5 .blob 24 .ro .none .any .zero,
    e 6 .blob 24 .ro .none .any .zero,
    e 7 .blob 24 .ro .none .any .zero,
    e 8 .blob 24 .ro .none .any .zero]),
  (0x1121, [e 1 .u8 1 .rw .none (.nat 0 254) (.num 254),
    e 2 .u8 1 .rw .none (.nat 0 254) (.num 254),
    e 3 .u8 1 .rw .none (.nat 0 254) (.num 254),
    e 4 .u8 1 .rw .none (.nat 0 254) (.num 254),
    e 5 .u8 1 .rw .none (.nat 0 254) (.num 254),
    e 6 .u8 1 .rw .none (.nat 0 254) (.num 254),
    e 7 .u8 1 .rw .none (.nat 0 254) (.num 254),
    e 8 .u8 1 .rw .none (.nat 0 254) (.num 254)]),
  (0x1122, [e 1 .u32 4 .ro .none .any .zero])]

/-- Entries of R767. -/
def entriesUnit1200 : List (Nat × List Entry) := [
  (0x1200, [e 1 .u32 4 .ro .none .any .zero,
    e 2 .u32 4 .ro .none .any .special,
    e 3 .u64 8 .ro .none .any .zero]),
  (0x1201, [e 1 .u32 4 .rw .none .any .zero,
    e 2 .u32 4 .rw .none .any .zero,
    e 3 .u32 4 .rw .none .any .zero,
    e 4 .u32 4 .rw .none .any .zero,
    e 5 .u32 4 .rw .none .any .zero,
    e 6 .u32 4 .rw .none .any .zero,
    e 7 .u32 4 .rw .none .any .zero,
    e 8 .u32 4 .rw .none .any .zero,
    e 9 .u32 4 .rw .none .any .zero]),
  (0x1202, [e 1 .blob 0 .ro .none .any .zero,
    e 2 .blob 0 .ro .none .any .zero,
    e 3 .blob 0 .ro .none .any .zero,
    e 4 .blob 0 .ro .none .any .zero,
    e 5 .blob 0 .ro .none .any .zero,
    e 6 .blob 0 .ro .none .any .zero,
    e 7 .blob 0 .ro .none .any .zero,
    e 8 .blob 0 .ro .none .any .zero,
    e 9 .blob 0 .ro .none .any .zero])]

/-- Entries of R137, R807. -/
def entriesUnit2000 : List (Nat × List Entry) := [
  (0x2000, [e 1 .u32 4 .ro .none .any .special,
    e 2 .u32 4 .wo .none (.nat 1396790853 1396790853) .zero,
    e 3 .u32 4 .ro .none .any .special,
    e 4 .u32 4 .wo .stand (.nat 1178682196 1178682196) .zero,
    e 5 .u16 2 .ro .none .any .special,
    e 6 .u32 4 .ro .none .any .special,
    e 7 .u32 4 .ro .none .any .special]),
  (0x2010, [e 1 .u8 1 .ro .none .any .special,
    e 2 .u8 1 .rwp .none (.nat 0 255) .zero,
    e 3 .u8 1 .rw .none (.nat 0 255) .zero,
    e 4 .u8 1 .ro .none .any .zero,
    e 5 .u8 1 .rwp .none (.nat 0 254) .zero,
    e 6 .u32 4 .wo .none (.nat 1095520852 1095520852) .zero,
    e 7 .u8 1 .ro .none .any .zero])]

/-- Entries of R690. -/
def entriesUnit2100 : List (Nat × List Entry) := [
  (0x2100, [e 1 .u8 1 .ro .none (.nat 0 3) .zero,
    e 2 .u16 2 .ro .none .any .zero,
    e 3 .u32 4 .ro .none .any .zero,
    e 4 .u8 1 .ro .none (.nat 0 1) .special,
    e 5 .str 0 .ro .none .any .empty,
    e 6 .u16 2 .cst .none .any (.num 1),
    e 7 .u8 1 .ro .none (.nat 0 7) .zero,
    e 8 .u16 2 .ro .none .any .zero,
    e 9 .u32 4 .ro .none .any .zero,
    e 10 .blob 16 .ro .none .any .zero,
    e 11 .u32 4 .ro .none .any .zero]),
  (0x2101, [e 1 .u32 4 .rwp .none (.nat 0 2592000) (.num 604800),
    e 2 .u32 4 .wo .active (.nat 1146243404 1146243404) .zero,
    e 3 .time 8 .ro .none .any .zero,
    e 4 .blob 16 .ro .none .any .zero,
    e 5 .u16 2 .rwp .none (.nat 20 1000) (.num 100)]),
  (0x2102, [e 1 .blob 40 .ro .none .any .zero,
    e 2 .blob 24 .ro .none .any .zero,
    e 3 .u64 8 .ro .none .any .zero])]

/-- Entries of R714, R832. -/
def entriesUnit2200 : List (Nat × List Entry) := [
  (0x2200, [e 1 .u8 1 .rw .none (.nat 0 2) .zero,
    e 2 .u16 2 .ro .none .any .zero,
    e 3 .u8 1 .ro .none .any .zero,
    e 4 .u16 2 .rwp .none (.nat 2496 9984) (.num 5000),
    e 5 .u16 2 .rwp .none (.nat 10 600) (.num 60),
    e 6 .u8 1 .rwp .none (.nat 1 8) (.num 2),
    e 7 .blob 28 .ro .none .any .zero,
    e 8 .u32 4 .ro .none (.nat 0 65532) .zero,
    e 9 .blob 32 .ro .none .any .zero]),
  (0x2210, [e 1 .u16 2 .ro .none (.nat 650 850) (.num 850),
    e 2 .u16 2 .rwp .none (.nat 650 850) (.num 650),
    e 3 .blob 14 .ro .none .any .zero,
    e 4 .blob 10 .ro .none .any .zero,
    e 5 .blob 12 .ro .none .any .special])]

/-- Entries of R628. -/
def entriesUnit2300 : List (Nat × List Entry) := [
  (0x2300, [e 1 .u64 8 .ro .none .any .special,
    e 2 .blob 8 .ro .none .any .zero,
    e 3 .u16 2 .ro .none .any (.num 6400),
    e 5 .u16 2 .ro .none .any .zero]),
  (0x2301, [e 1 .blob 120 .ro .none .any .special]),
  (0x2310, [e 1 .u8 1 .rwp .none (.nat 0 1) .zero,
    e 2 .u16 2 .rwp .none (.nat 1 1000) (.num 4),
    e 3 .u64 8 .ro .none .any .zero,
    e 4 .u32 4 .ro .none .any .zero,
    e 6 .blob 128 .ro .none .any .zero]),
  (0x2311, [e 1 .blob 16 .rw .none .any .zero,
    e 2 .u16 2 .rwp .none (.nat 100 20000) (.num 4000),
    e 3 .u32 4 .wo .none (.nat 1346458451 1346458451) .zero,
    e 4 .u8 1 .ro .none (.nat 0 2) .zero,
    e 5 .blob 128 .ro .none .any .zero,
    e 6 .u32 4 .wo .none (.nat 1094865492 1094865492) .zero]),
  (0x2320, [e 1 .u64 8 .ro .none .any .zero,
    e 2 .u64 8 .ro .none .any .zero,
    e 3 .blob 16 .ro .none .any .zero,
    e 4 .blob 320 .ro .none .any .zero,
    e 5 .u32 4 .rwp .none (.nat 16 1000000) (.num 4096),
    e 6 .u64 8 .ro .none .any .zero,
    e 7 .u64 8 .ro .none .any .zero])]

/-- Entries of R657. -/
def entriesUnit2400 : List (Nat × List Entry) := [
  (0x2400, [e 1 .u16 2 .ro .none .any .zero,
    e 2 .blob 16 .cst .none .any (.bytes [0, 0, 0, 2, 16, 0, 64, 0, 0, 0x80, 0, 0, 16, 0, 0, 0])]),
  (0x2401, [e 1 .blob 16 .rwp .none (.each 1 0 3) .zero,
    e 2 .blob 16 .ro .none .any .zero,
    e 3 .u32 4 .ro .none (.nat 0 16777216) .zero]),
  (0x2402, [e 1 .blob 5 .rwp .none (.each 1 0 1) (.bytes [0, 1, 0, 0, 1])]),
  (0x2410, [e 1 .blob 24 .wo .none .any .zero,
    e 2 .blob 32 .ro .none .any .zero]),
  (0x2420, [e 1 .u16 2 .rw .none (.nat 0 32767) .zero,
    e 2 .blob 64 .ro .none .any .special]),
  (0x2430, [e 1 .blob 16 .ro .none .any .zero,
    e 2 .blob 16 .ro .none .any .zero,
    e 3 .u64 8 .ro .none .any .zero,
    e 4 .u64 8 .ro .none .any .zero,
    e 5 .u64 8 .ro .none .any .zero,
    e 6 .u64 8 .ro .none .any .zero,
    e 7 .u64 8 .ro .none .any .zero,
    e 8 .u64 8 .ro .none .any .zero])]

/-- Entries of R561, R594. -/
def entriesUnit2500 : List (Nat × List Entry) := [
  (0x2500, [e 1 .blob 8 .cst .none .any .special,
    e 2 .blob 2 .ro .none .any .zero,
    e 3 .str 0 .rwp .none .any .special,
    e 4 .u16 2 .rwp .stand (.nat 0 1024) .zero,
    e 5 .u16 2 .rwp .stand (.nat 0 1024) .zero,
    e 6 .blob 2 .ro .none .any .zero,
    e 7 .blob 4 .ro .none .any .zero]),
  (0x2510, [e 1 .u8 1 .ro .none (.nat 0 1) (.num 1),
    e 2 .u8 1 .ro .none .any (.num 1),
    e 3 .bool 1 .rw .none (.nat 0 1) .zero,
    e 4 .u16 2 .rwp .none (.nat 100 60000) (.num 2000),
    e 5 .blob 4 .ro .none .any .zero,
    e 6 .u16 2 .ro .none (.nat 0 4096) .zero,
    e 7 .u16 2 .ro .none (.nat 0 4096) .zero,
    e 8 .u64 8 .ro .none .any .zero,
    e 9 .blob 40 .ro .none .any .zero])]

/-- Entries of R745. -/
def entriesUnit2600 : List (Nat × List Entry) := [
  (0x2600, [e 1 .u8 1 .ro .none (.nat 0 1) .special,
    e 2 .blob 64 .ro .none .any .special,
    e 3 .blob 2 .ro .none .any .special,
    e 4 .u8 1 .ro .none (.nat 0 1) .special,
    e 5 .blob 2 .ro .none .any .special,
    e 6 .u32 4 .rwp .none (.nat 60 604800) (.num 600),
    e 7 .u32 4 .wo .none (.nat 1129138516 1129138516) .zero,
    e 8 .u32 4 .ro .none .any .zero]),
  (0x2610, [e 1 .blob 4096 .wo .none .any .zero,
    e 2 .blob 16420 .wo .none .any .zero,
    e 3 .blob 272 .ro .none .any .special,
    e 4 .u32 4 .wo .none (.nat 1094864452 1094864452) .zero]),
  (0x2620, [e 1 .u32 4 .wo .none (.nat 1094931542 1094931542) .zero,
    e 2 .blob 8 .ro .none .any .zero]),
  (0x2630, [e 1 .blob 24 .ro .none .any .special])]

/-- Entries of R767. -/
def entriesUnit2700 : List (Nat × List Entry) := [
  (0x2700, [e 1 .time 8 .rwk .notStandby .any .special,
    e 2 .time 8 .wo .notStandby .any .zero,
    e 3 .u8 1 .ro .none .any (.num 1)]),
  (0x2701, [e 1 .s32 4 .ro .none .any .zero,
    e 2 .blob 16 .ro .none .any .zero]),
  (0x2710, [e 1 .blob 64 .ro .none .any .special,
    e 2 .u32 4 .ro .none .any .special,
    e 3 .u16 2 .rwp .none (.nat 300 3600) (.num 600),
    e 4 .u32 4 .ro .none .any .special])]

/-- Entries of R417. -/
def entriesUnit6000 : List (Nat × List Entry) := [
  (0x6000, [e 1 .u8 1 .ro .none .any (.num 255),
    e 2 .blob 64 .ro .none .any .zero]),
  (0x6001, [e 1 .u32 4 .wo .none .any .zero,
    e 2 .u32 4 .wo .none .any .zero,
    e 3 .u32 4 .ro .none .any .zero,
    e 4 .u32 4 .ro .none .any .zero])]

/-- Entries at the offsets of a lane's 0x100 indices (R82). -/
def laneEntries : List (Nat × List Entry) := entriesLane0 ++ entriesLane20 ++ entriesLane40 ++ entriesLane60 ++ entriesLane80 ++ entriesLaneA0 ++ entriesLaneC0 ++ entriesLaneE0

/-- Unit entries outside the numbered families. -/
def unitEntries : List (Nat × List Entry) :=
  entriesUnit1000 ++ entriesUnit1100 ++ entriesUnit1200 ++ entriesUnit2000 ++ entriesUnit2100 ++ entriesUnit2200 ++ entriesUnit2300 ++ entriesUnit2400 ++ entriesUnit2500 ++ entriesUnit2600 ++ entriesUnit2700 ++ entriesUnit6000

/-- The subindices at an index of a table. -/
def tableAt : List (Nat × List Entry) → Nat → Option (List Entry)
  | [], _ => none
  | (i, es) :: rest, k => if i = k then some es else tableAt rest k

/-- The subindices that stand at an index (R81-R84); none where the index holds no entry. -/
def entriesAt (index : Nat) : Option (List Entry) :=
  if 0x4000 ≤ index ∧ index < 0x6000 then tableAt laneEntries (index % 256)
  else if 0x3000 ≤ index ∧ index < 0x4000 then tableAt entriesTeam (index % 128)
  else if 0x2240 ≤ index ∧ index < 0x2244 then tableAt entriesSegment 0x2240
  else if 0x6010 ≤ index ∧ index < 0x6030 then tableAt entriesObserverBank 0x6010
  else if 0x6030 ≤ index ∧ index < 0x6050 then tableAt entriesBiquadBank 0x6030
  else if 0x6080 ≤ index ∧ index < 0x6090 then tableAt entriesLibrary 0x6080
  else tableAt unitEntries index

/-- The entry at a subindex of a list. -/
def entryIn : List Entry → Nat → Option Entry
  | [], _ => none
  | x :: rest, k => if x.sub = k then some x else entryIn rest k

/-- The entry at an index and subindex from 01 up. -/
def findEntry (index sub : Nat) : Option Entry :=
  match entriesAt index with
  | none => none
  | some es => entryIn es sub

/-- The highest subindex at an index: the value of subindex 00 (R85). -/
def highestSub : List Entry → Nat
  | [] => 0
  | x :: rest => max x.sub (highestSub rest)

end Sys2Proof.Machine
end

