-- ==== Sys2Proof/Machine/Hash.lean ====
section
/-! DEFINITION. The hashes that the rules name (R107, R108, R721, R725, R729): SHA-256 and SHA-384 of FIPS 180-4 and HMAC of FIPS 198-1, used
as published. Words are natural numbers below 2^w; the constants are fractions of roots of primes, as the standard derives them. -/

namespace Sys2Proof.Machine

/-- One hash of the family: word width, rounds, the first prime of the initial value, and its rotations (two large and two small sums). -/
structure ShaKind where
  w : Nat
  rounds : Nat
  first : Nat
  big0 : List Nat
  big1 : List Nat
  small0 : List Nat
  small1 : List Nat

/-- SHA-256. -/
def sha256Kind : ShaKind :=
  { w := 32, rounds := 64, first := 0, big0 := [2, 13, 22], big1 := [6, 11, 25], small0 := [7, 18, 3], small1 := [17, 19, 10] }

/-- SHA-384. -/
def sha384Kind : ShaKind :=
  { w := 64, rounds := 80, first := 8, big0 := [28, 34, 39], big1 := [14, 18, 41], small0 := [1, 8, 7], small1 := [19, 61, 6] }

/-- The first 80 primes. -/
def shaPrimes : List Nat := (List.range 410).filter (fun p => decide (2 ≤ p) && (List.range 21).all (fun q => decide (q < 2 ∨ p ≤ q ∨ p % q ≠ 0)))

/-- The largest number whose k-th power is at most n, by its bits from a width down. -/
def integerRoot (k n : Nat) : Nat → Nat → Nat
  | 0, r => r
  | b + 1, r => integerRoot k n b (if (r + 2 ^ b) ^ k ≤ n then r + 2 ^ b else r)

/-- The first w bits of the fraction of a k-th root. -/
def rootFraction (k w p : Nat) : Nat := integerRoot k (p * 2 ^ (k * w)) (w + 5) 0 % 2 ^ w

/-- A word rotated right. -/
def rotateWord (w x n : Nat) : Nat := (x / 2 ^ n) ||| (x * 2 ^ (w - n) % 2 ^ w)

/-- Three rotations joined. -/
def bigSum (k : ShaKind) (r : List Nat) (x : Nat) : Nat :=
  rotateWord k.w x (r.getD 0 0) ^^^ rotateWord k.w x (r.getD 1 0) ^^^ rotateWord k.w x (r.getD 2 0)

/-- Two rotations and a shift joined. -/
def smallSum (k : ShaKind) (r : List Nat) (x : Nat) : Nat :=
  rotateWord k.w x (r.getD 0 0) ^^^ rotateWord k.w x (r.getD 1 0) ^^^ (x / 2 ^ r.getD 2 0)

/-- The message schedule, newest word first. -/
def shaSchedule (k : ShaKind) : Nat → List Nat → List Nat
  | 0, l => l
  | n + 1, l =>
    shaSchedule k n
      ((smallSum k k.small1 (l.getD 1 0) + l.getD 6 0 + smallSum k k.small0 (l.getD 14 0) + l.getD 15 0) % 2 ^ k.w :: l)

/-- One round on the eight working words. -/
def shaRound (k : ShaKind) (v : List Nat) (c : Nat × Nat) : List Nat :=
  match v with
  | [a, b, c0, d, e, f, g, h] =>
    let top := 2 ^ k.w - 1
    let choose := (e &&& f) ^^^ ((top - e) &&& g)
    let major := (a &&& b) ^^^ (a &&& c0) ^^^ (b &&& c0)
    let t := h + bigSum k k.big1 e + choose + c.1 + c.2
    [(t + bigSum k k.big0 a + major) % 2 ^ k.w, a, b, c0, (d + t) % 2 ^ k.w, e, f, g]
  | _ => v

/-- One block of 16 words taken into the hash value. -/
def shaBlock (k : ShaKind) (consts : List Nat) (hash block : List Nat) : List Nat :=
  let words := (shaSchedule k (k.rounds - 16) block.reverse).reverse
  List.zipWith (fun x y => (x + y) % 2 ^ k.w) hash ((List.zip consts words).foldl (shaRound k) hash)

/-- The number of some bytes, the first most significant. -/
def bigEndian (b : Bytes) : Nat := b.foldl (fun (a : Nat) (x : Byte) => 256 * a + x.toNat) 0

/-- A number as bytes, the most significant first. -/
def toBigEndian (n v : Nat) : Bytes := (toLE n v).reverse

/-- The words of a list of bytes. -/
def shaWords (k : ShaKind) : Nat → Bytes → List Nat
  | 0, _ => []
  | n + 1, b => bigEndian (b.take (k.w / 8)) :: shaWords k n (b.drop (k.w / 8))

/-- Blocks of 16 words. -/
def shaBlocks : Nat → List Nat → List (List Nat)
  | 0, _ => []
  | n + 1, l => l.take 16 :: shaBlocks n (l.drop 16)

/-- A message with its padding: a one bit, zeros, and its length in bits in two words. -/
def shaPad (k : ShaKind) (b : Bytes) : Bytes :=
  let block := 2 * k.w
  let tail := k.w / 4
  b ++ [byte 0x80] ++ List.replicate ((block - (b.length + 1 + tail) % block) % block) 0 ++ toBigEndian tail (8 * b.length)

/-- The eight words of a hash. -/
def shaDigest (k : ShaKind) (b : Bytes) : List Nat :=
  let m := shaPad k b
  let consts := (shaPrimes.take k.rounds).map (rootFraction 3 k.w)
  let start := ((shaPrimes.drop k.first).take 8).map (rootFraction 2 k.w)
  (shaBlocks (m.length / (2 * k.w)) (shaWords k (8 * m.length / k.w) m)).foldl (shaBlock k consts) start

/-- SHA-256 (R729). -/
@[irreducible] def sha256 (b : Bytes) : Bytes := (shaDigest sha256Kind b).flatMap (toBigEndian 4)

/-- SHA-384 (R721, R725). -/
@[irreducible] def sha384 (b : Bytes) : Bytes := ((shaDigest sha384Kind b).flatMap (toBigEndian 8)).take 48

/-- One round of SHA-1 on its five working words: round number and word of the schedule. -/
def sha1Round (v : List Nat) (c : Nat × Nat) : List Nat :=
  match v with
  | [a, b, c0, d, e] =>
    let f := if c.1 < 20 then (b &&& c0) ^^^ ((2 ^ 32 - 1 - b) &&& d) else if c.1 < 40 ∨ 60 ≤ c.1 then b ^^^ c0 ^^^ d
      else (b &&& c0) ^^^ (b &&& d) ^^^ (c0 &&& d)
    -- square roots of 2, 3, 5 and 10, with two bits before the point
    let k := integerRoot 2 ([2, 3, 5, 10].getD (c.1 / 20) 0 * 2 ^ 60) 34 0
    [(rotateWord 32 a 27 + f + e + k + c.2) % 2 ^ 32, a, rotateWord 32 b 2, c0, d]
  | _ => v

/-- The message schedule of SHA-1, newest word first. -/
def sha1Schedule : Nat → List Nat → List Nat
  | 0, l => l
  | n + 1, l => sha1Schedule n (rotateWord 32 (l.getD 2 0 ^^^ l.getD 7 0 ^^^ l.getD 13 0 ^^^ l.getD 15 0) 31 :: l)

/-- SHA-1, for the name-based identifier of R534. -/
@[irreducible] def sha1 (b : Bytes) : Bytes :=
  let m := shaPad sha256Kind b
  ((shaBlocks (m.length / 64) (shaWords sha256Kind (m.length / 4) m)).foldl (fun h block =>
    List.zipWith (fun x y => (x + y) % 2 ^ 32) h ((List.zip (List.range 80) (sha1Schedule 64 block.reverse).reverse).foldl sha1Round h))
    [0x67452301, 0xEFCDAB89, 0x98BADCFE, 0x10325476, 0xC3D2E1F0]).flatMap (toBigEndian 4)

/-- HMAC-SHA-384 of a message under a key (R107, R108): keys are padded to the block of 128 bytes. -/
def hmacSha384 (key message : Bytes) : Bytes :=
  let k := if key.length ≤ 128 then key else sha384 key
  let pad (x : Nat) : Bytes := (k ++ List.replicate (128 - k.length) 0).map (fun (b : Byte) => byte (b.toNat ^^^ x))
  sha384 (pad 0x5C ++ sha384 (pad 0x36 ++ message))

end Sys2Proof.Machine
end

