-- ==== Sys2Proof/Machine/Maps.lean ====
section
/-! DEFINITION. Sparse maps as lists of pairs with strictly rising keys, and updates of vectors and lists. -/

namespace Sys2Proof.Machine

/-- The value at a key. -/
def mapGet {α : Type} : List (Nat × α) → Nat → Option α
  | [], _ => none
  | (k, v) :: rest, x => if k = x then some v else mapGet rest x

/-- The map with a value at a key; the keys stay strictly rising. -/
def mapSet {α : Type} : List (Nat × α) → Nat → α → List (Nat × α)
  | [], x, w => [(x, w)]
  | (k, v) :: rest, x, w =>
    if x < k then (x, w) :: (k, v) :: rest
    else if x = k then (x, w) :: rest
    else (k, v) :: mapSet rest x w

/-- The map without a key. -/
def mapErase {α : Type} : List (Nat × α) → Nat → List (Nat × α)
  | [], _ => []
  | (k, v) :: rest, x => if k = x then rest else (k, v) :: mapErase rest x

/-- The keys of a map rise strictly. -/
def mapSorted {α : Type} : List (Nat × α) → Bool
  | [] => true
  | [_] => true
  | (k, _) :: (k', v') :: rest => decide (k < k') && mapSorted ((k', v') :: rest)

/-- A list with the element at an index replaced. -/
def listModify {α : Type} : List α → Nat → (α → α) → List α
  | [], _, _ => []
  | a :: rest, 0, f => f a :: rest
  | a :: rest, n + 1, f => a :: listModify rest n f

/-- The first element that satisfies a test is taken out. -/
def removeFirst {α : Type} (p : α → Bool) : List α → List α
  | [] => []
  | a :: rest => if p a then rest else a :: removeFirst p rest

/-- A vector with the element at an index changed. -/
def vecModify {α : Type} {n : Nat} (v : Vector α n) (i : Fin n) (f : α → α) : Vector α n := v.set i (f v[i])

/-- Numbers below `n`, rising. -/
def upTo (n : Nat) : List Nat := List.range n

/-- Sum of a list of integers. -/
def sumInt : List Int → Int
  | [] => 0
  | a :: rest => a + sumInt rest

/-- Sum of a list of natural numbers. -/
def sumNat : List Nat → Nat
  | [] => 0
  | a :: rest => a + sumNat rest

end Sys2Proof.Machine
end

