-- ==== Sys2Proof/Config.lean ====
section
/-! DEFINITION. What the spec leaves to the unit, to the pickup class, to published standards and to chance: constants
without a body, so that nothing can be proved of a value the spec does not give. -/

namespace Sys2Proof.Config

/-! ### Constants of the unit, fixed at manufacture -/

/-- 1000:02: the 12 characters of the serial number (R137). -/
opaque serialNumber : Vector Byte 12
/-- 1000:04: die revisions (R137). -/
opaque dieRevisions : Vector Byte 5
/-- 1100:06 and 1100:07: MAC addresses (R137). -/
opaque macAddress : PortId → Vector Byte 6
/-- 2500:01: VID, DID, SSVID, SSID (R561). -/
opaque pciIdentity : Vector Byte 8
/-- The strap PAIRSEL_SIDE (R659, R804): true for side 1. -/
opaque side : Bool
/-- The straps GPIO0-GPIO3: board identity (R804). -/
opaque boardIdentity : Fin 16
/-- The device certificate chain of slot 0 (R726). -/
opaque certificateChain : Bytes
/-- SHA-384 of the boot ROM (R725). -/
opaque romMeasurement : Vector Byte 48
/-- The image that stands in slot 0 when the unit is delivered (R718): header and sections. -/
opaque factoryImage : Bytes
/-- A signing key's revocation bit (R722). -/
opaque keyRevoked : Fin 4 → Bool
/-- Fused minimum security version as delivered (R722). -/
opaque fusedMinimum : Nat

/-! ### The pickup class (R153, R334, R337): default tables of a class -/

/-- Default of a lane entry that the tables give as 'Pickup class': class, offset, subindex. -/
opaque classDefault : Nat → Nat → Nat → Bytes
/-- Surface threshold of a class (R164): the peak of the detector sum above which the cover surface counts. -/
opaque surfaceThreshold : Nat → Nat
/-- Nominal layer peak of a class (R164, L+06:03). -/
opaque nominalPeak : Nat → Nat

/-- Read power of a layer, units of 10 uW, before the disc's media identity has been read: R505 takes it from there. -/
opaque firstReadPower : Nat → Nat

/-! ### Published standards, used as published (00_scope.md) -/

/-- ECDSA P-384 verification under the fused key of an index (R719, R721): key index, signed bytes, signature. -/
opaque ecdsaVerify : Fin 4 → Bytes → Bytes → Bool
/-- ECDSA P-384 signature of the device key over an SPDM transcript (R726). -/
opaque spdmSign : Bytes → Vector Byte 96
/-- What the Commands Supported and Effects log says of a supported command beside CSUPP (R542): set 0 admin or 1 I/O, opcode. -/
opaque commandEffects : Nat → Nat → Nat

/-! ### Free values: what an undefined, random or unstated value may be -/

/-- The n-th free value drawn; the state counts the draws (field `free`). -/
opaque freeValue : Nat → Nat
/-- A free byte string of a length, for the n-th draw (nonces R107, R726; R580). -/
opaque freeBytes : Nat → Nat → Bytes
/-- A quotient whose divisor is zero: numerator (R384 and the cells of levels 1 and 2). -/
opaque divByZero : Int → Int

/-- A measured quantity that only the hardware knows: the entry that shows it, at a tick. -/
opaque measured : Nat → Nat → Nat

/-- The value of a subindex below an index's highest that no table gives (R85): its type and value are not in the spec. -/
opaque gapValue : Nat → Nat → Bytes

end Sys2Proof.Config
end

