-- ==== Sys2Proof/Machine/StateHost.lean ====
section
/-! DEFINITION. The host side: controllers, queues, commands in flight, namespaces, zones and staged extents
(12_nvme_host.md, 13_command_order.md, R232-R236, R275-R279). -/

namespace Sys2Proof.Machine

/-- Zone states (R552-R559); Offline never occurs. -/
inductive ZoneState where
  | empty | implicit | explicit | closed | full | readOnly
  deriving DecidableEq, Repr

/-- A zone: its write pointer counts LBAs from the zone's first. -/
structure Zone where
  st : ZoneState
  wp : Nat
  /-- Zone Finished by Controller. -/
  byCtrl : Bool
  /-- Arrival sequence of its last write (R553). -/
  used : Nat
  deriving DecidableEq, Repr

/-- A zone that nothing has written. -/
def Zone.blank : Zone := { st := .empty, wp := 0, byCtrl := false, used := 0 }

/-- An admitted LBA of an extent: its position, the arrival sequence of its command, and where its data stands in the
staging region once it has arrived. -/
structure Staged where
  pos : Nat
  seq : Nat
  addr : Option Nat
  deriving DecidableEq, Repr

/-- A team extent that is open, due, or kept until its commands have completed (R236, R243, R275). -/
structure Extent where
  lbas : List Staged
  isSealed : Bool
  verified : Bool
  /-- Tick of the last admission into it (R275). -/
  last : Nat
  /-- Tick from which a lower zone has held it back (R555). -/
  heldSince : Option Nat
  /-- Positions refused for poison, with its kind: 1 host, 2 memory (R244, R245). -/
  refused : List (Nat × Nat)
  /-- Positions whose sector failed verify and whose copy has not verified (R278). -/
  waiting : List Nat
  /-- Its writing has ended: it will never be recorded (R551, R555, R559, R588). -/
  ended : Bool
  deriving DecidableEq, Repr

/-- An entry of a team's unrecoverable LBA list (R364, R374). -/
structure BadRun where
  first : Nat
  time : Nat
  count : Nat
  lane : Nat
  hits : Nat
  deriving DecidableEq, Repr

/-- A namespace (R547-R562). -/
structure Namespace where
  listed : Bool
  volume : Bytes
  /-- The team's disc count N when the namespace entered the list (R549). -/
  count : Nat
  /-- The zones have been built since the device reset (R843). -/
  built : Bool
  /-- Zones that are not blank. -/
  zones : List (Nat × Zone)
  /-- Extents by team extent number. -/
  extents : List (Nat × Extent)
  /-- LBAs below a write pointer that read as zeros: first LBA and count (R556). -/
  zeros : List (Nat × Nat)
  /-- Last verified logical extent of a spot-stream (R279). -/
  lastVerified : List (Nat × Nat)
  /-- Tick at which the team left ATTACHED with commands held (R551). -/
  detached : Option Nat
  deriving DecidableEq, Repr

/-- Kinds of commands in flight (R573, R578). -/
inductive FlightKind where
  | read | write | append | flush
  /-- A Zone Management Send on a zone, or on all. -/
  | zoneSend (zone : Option Nat)
  | zoneReceive
  /-- An admin command; `abortable` by R578. -/
  | admin (opcode : Nat) (abortable : Bool)
  deriving DecidableEq, Repr

/-- A command in flight (R564, R573). -/
structure Flight where
  c : CmdId
  seq : Nat
  kind : FlightKind
  /-- Namespace identifier; 0xFFFFFFFF for every namespace. -/
  nsid : Nat
  slba : Nat
  count : Nat
  /-- Class of its queue: 0 urgent, 1 high, 2 medium, 3 low. -/
  cls : Nat
  /-- LBAs of a Read not yet sent, or of a write whose data has not arrived. -/
  left : List Nat
  /-- LBAs of a Read at or above a write pointer at its admission (R556, R576). -/
  above : List Nat
  /-- Status due at completion: SCT, SC, and DNR where a rule gives it. -/
  status : Option (Nat × Nat × Option Bool)
  dw0 : Nat
  dw1 : Nat
  /-- No completion is posted (R586). -/
  silent : Bool
  /-- Its submission queue has been deleted (R585). -/
  sqGone : Bool
  /-- Lanes on which it waits, with the tick (R588). -/
  waits : List (LaneId × Nat)
  /-- The STANDBY's acknowledgement of its COMMIT record is awaited (R673). -/
  committing : Bool
  /-- Carried over from the old holder (R571, R682). -/
  carried : Bool
  /-- Lowest unrecoverable LBA of a Read (R363). -/
  badLba : Option Nat
  /-- Tick of the admission. -/
  tick : Nat
  /-- Offset of its data in the Controller Memory Buffer of its port; its data or its list lies there (R683). -/
  cmb : Option Nat
  viaCmb : Bool
  deriving DecidableEq, Repr

/-- An I/O submission queue (R537, R568). -/
structure SubQueue where
  id : Nat
  size : Nat
  base : Nat
  cls : Nat
  cq : Nat
  head : Nat
  tail : Nat
  deriving DecidableEq, Repr

/-- A completion entry: command, status code type and status code, DNR where a rule gives it, Dwords 0 and 1. -/
structure CqEntry where
  c : CmdId
  sct : Nat
  sc : Nat
  dnr : Option Bool
  dw0 : Nat
  dw1 : Nat
  deriving DecidableEq, Repr

/-- An I/O completion queue (R537, R539). -/
structure CompQueue where
  id : Nat
  size : Nat
  base : Nat
  vector : Nat
  ien : Bool
  head : Nat
  tail : Nat
  phase : Bool
  /-- Completions since the last interrupt (R539). -/
  waiting : Nat
  /-- Committed entries that wait for a slot of a full queue, oldest first. -/
  held : List CqEntry
  deriving DecidableEq, Repr

/-- Feature values of a controller (R541). -/
structure Features where
  /-- Arbitration: burst, LPW, MPW, HPW. -/
  arbitration : Nat
  /-- Over and under temperature thresholds, K. -/
  tempOver : Nat
  tempUnder : Nat
  queues : Nat
  coalescing : Nat
  /-- Vectors with coalescing disabled (R539). -/
  noCoalesce : List Nat
  async : Nat
  deriving DecidableEq, Repr

/-- One I/O controller (R533). -/
structure Controller where
  enabled : Bool
  ready : Bool
  /-- Weighted round robin with urgent class is selected (R568). -/
  wrr : Bool
  shutdown : Bool
  /-- CSTS.PP (R737). -/
  paused : Bool
  /-- A controller reset waits for its commands (R586). -/
  resetting : Bool
  sqs : List SubQueue
  cqs : List CompQueue
  /-- The admin queue pair; size 0 until the controller is enabled (R537). -/
  asq : SubQueue
  acq : CompQueue
  feat : Features
  /-- Command identifiers of the outstanding Asynchronous Event Requests (R543). -/
  aers : List Nat
  /-- Asynchronous events that wait for a request: type, information, log page. -/
  events : List (Nat × Nat × Nat)
  /-- Event types masked until their log page is read. -/
  masked : List Nat
  /-- Error Information log, newest first: count, SQID, CID, status, LBA, NSID (R542). -/
  errors : List (Nat × Nat × Nat × Nat × Nat × Nat)
  errorCount : Nat
  changedNs : List Nat
  /-- Critical Warning last reported (R543). -/
  warning : Nat
  /-- 512-byte units read and written, Read and Write commands, and media errors (R542). -/
  unitsRead : Nat
  unitsWritten : Nat
  reads : Nat
  writes : Nat
  mediaErrors : Nat
  /-- Negotiated PCIe speed and width; 0 while the link is down (2500:02). -/
  speed : Nat
  width : Nat
  /-- Delete I/O Submission Queue commands in flight with their queues (R585). -/
  deletes : List (CmdId × Nat)
  deriving DecidableEq, Repr

/-- The SPDM responder (R726): 0 start, 1 version, 2 capabilities, 3 algorithms; the messages so far. -/
structure Spdm where
  stage : Nat
  /-- The exchange so far: VERSION, CAPABILITIES, ALGORITHMS messages. -/
  transcript : Bytes
  /-- The answer that the next Security Receive takes. -/
  response : Option Bytes
  deriving DecidableEq, Repr

/-- A round robin at a queue: controller, queue, and commands that it may still give in this visit (R569). -/
structure Visit where
  ctrl : PortId
  sq : Nat
  left : Nat
  deriving DecidableEq, Repr

/-- Whose turn it is (R569, R571): the controller whose admin queue comes next, the round robins of class urgent and of ORDERED mode,
the controller whose weighted round is in progress, what that round still grants to high, medium and low, and the round robin of each of
these classes on each controller. -/
structure Arbiter where
  admin : PortId
  urgent : Visit
  plain : Visit
  round : PortId
  credits : List Nat
  classes : Vector Visit 6
  deriving DecidableEq, Repr

/-- Admission, ordering and SPDM (R564-R596). -/
structure HostSide where
  arb : Arbiter
  ctrls : Vector Controller 2
  flights : List Flight
  /-- Arrival sequence of the last admission (2510:08). -/
  seq : Nat
  /-- Causes of ORDERED (2510:02). -/
  causes : Nat
  /-- I/O commands are not fetched (R687, R696). -/
  stopped : Bool
  /-- The activation pause: nothing is admitted and no completion is committed (R587). -/
  frozen : Bool
  /-- ANA changes counted since reset, for the log page of NVMe 2.0. -/
  anaChanges : Nat
  spdm : Spdm
  /-- Reassembled LBAs on their way to the host: NSID, LBA, buffer address, read again once (R619). -/
  reassembly : List (Nat × Nat × Nat × Bool)
  deriving DecidableEq, Repr

/-- Features after a controller reset (R569; temperature thresholds as NVMe 2.0 gives them: WCTEMP and 0). -/
def Features.reset : Features :=
  { arbitration := 0x07030003, tempOver := 378, tempUnder := 0, queues := 0x003F003F, coalescing := 0, noCoalesce := [],
    async := 0 }

/-- An admin queue pair before its controller is enabled. -/
def SubQueue.admin (size : Nat) : SubQueue := { id := 0, size := size, base := 0, cls := 0, cq := 0, head := 0, tail := 0 }

/-- An admin completion queue: vector 0 (R539). -/
def CompQueue.admin (size : Nat) : CompQueue :=
  { id := 0, size := size, base := 0, vector := 0, ien := true, head := 0, tail := 0, phase := true, waiting := 0, held := [] }

/-- No queue has been visited. -/
def Arbiter.reset : Arbiter :=
  let v : Visit := { ctrl := 0, sq := 0, left := 0 }
  { admin := 0, urgent := v, plain := v, round := 0, credits := [0, 0, 0], classes := Vector.replicate 6 v }

/-- A controller after a device reset. -/
def Controller.reset : Controller :=
  { enabled := false, ready := false, wrr := false, shutdown := false, paused := false, resetting := false, sqs := [],
    cqs := [], asq := SubQueue.admin 0, acq := CompQueue.admin 0, feat := Features.reset, aers := [], events := [], masked := [], errors := [], errorCount := 0,
    changedNs := [], warning := 0, unitsRead := 0, unitsWritten := 0, reads := 0, writes := 0, mediaErrors := 0,
    speed := 0, width := 0, deletes := [] }

/-- The host side after a device reset: ORDERED for start-up (R594). -/
def HostSide.reset : HostSide :=
  { arb := Arbiter.reset, ctrls := Vector.replicate 2 Controller.reset, flights := [], seq := 0, causes := 1, stopped := false, frozen := false,
    anaChanges := 0,
    spdm := { stage := 0, transcript := [], response := none }, reassembly := [] }

/-- A namespace that has not entered the active list. -/
def Namespace.reset : Namespace :=
  { listed := false, volume := [], count := 0, built := false, zones := [], extents := [], zeros := [],
    lastVerified := [], detached := none }

end Sys2Proof.Machine
end

