-- ==== Sys2Proof/Machine/StateDrive.lean ====
section
/-! DEFINITION. The loops, the spindle, the pacer, the sled and the bus segments (08_loop_engine.md, 09_spindle.md,
10_sled.md). Q8.23 values are integers in units of 2^-23. -/

namespace Sys2Proof.Machine

/-- A biquad cascade of a lane (R376, R390): section states s1, s2; output last computed; output latch; output last
released. -/
structure Cascade where
  secs : List (Int × Int)
  out : Int
  latch : Option Int
  released : Int
  /-- Count of the sample instant from which the output was last computed (R60, R61). -/
  born : Nat
  /-- The competitor lost, or abstained at, the last selection (R396). -/
  lost : Bool
  deriving DecidableEq, Repr

/-- The runout table of a lane and its learning (R398-R404). A bin is (sum of ufb, count). -/
structure Runout where
  /-- Entries of the axes focus, tracking, tilt; missing entries are 0. -/
  table : Vector (List Int) 3
  valid : Bool
  learning : Bool
  /-- Bins of the revolution in progress, by bin number. -/
  revBins : Vector (List (Nat × Int × Nat)) 3
  /-- Bins of the counted revolutions of the learning run. -/
  runBins : Vector (List (Nat × Int × Nat)) 3
  /-- The revolution in progress does not count (R401). -/
  spoiled : Bool
  counted : Nat
  /-- Counted learning revolutions since clamp (L+62:04). -/
  total : Nat
  idx : Nat
  idxValid : Bool
  /-- Speed of the last completed run, 0.01 rpm; none before one. -/
  runSpeed : Option Int
  deriving DecidableEq, Repr

/-- The banks of a lane (R405): missing bytes are zero. -/
structure Banks where
  obsActive : Bytes
  obsShadow : Bytes
  obsRef : Bytes
  bqActive : Bytes
  bqShadow : Bytes
  bqRef : Bytes
  obsPending : Bool
  bqPending : Bool
  deriving DecidableEq, Repr

/-- Overrun response of a lane (R414-R416). -/
structure Overrun where
  /-- Step 2 is due: the check words of the active copies. -/
  checkDue : Bool
  /-- Steps 3 and 4 are due. -/
  reloadObs : Bool
  reloadBq : Bool
  /-- The actuator outputs are zero from the next release until the recovery's sweep (R415). -/
  zeroNext : Bool
  zero : Bool
  readPowerHeld : Bool
  spindleHeld : Bool
  sledHeld : Bool
  stopped : Bool
  /-- Tick of the last reload of the biquad copies. -/
  reloadAt : Option Nat
  deriving DecidableEq, Repr

/-- The loop engine's state of a lane (R376-R419). -/
structure Loop where
  /-- Timer counts of the last observer sample, of the last biquad slot and of the last release of each loop (R60, R63). -/
  sampledAt : Option Nat
  slotAt : Option Nat
  releasedAt : Vector (Option Nat) 5
  x : List Int
  latch : Option (List Int)
  released : List Int
  /-- Axis closed: focus, tracking, tilt (R387). -/
  closed : Vector Bool 3
  /-- Servo offsets of rows 0 to 2 in force (R384, R523). -/
  offsets : List Int
  cascades : Vector Cascade 6
  winner : Nat
  selected : Int
  trace : List Nat
  tracePos : Nat
  banks : Banks
  overrun : Overrun
  runout : Runout
  /-- A layer jump is in progress (R165). -/
  jumping : Bool
  /-- SEQ of the next DRIVE frame and CARRIER_SLOT of the next frame (R779, R780). -/
  frameSeq : Nat
  carrierSlot : Nat
  /-- Read-power set-points last released, W0-W3 at gate 0 and the read channel (R66, R255, R415). -/
  powers : List Nat
  deriving DecidableEq, Repr

/-- The spindle of a lane (R421-R448, R457). -/
structure Spindle where
  /-- 0 rest, 1 injecting, 2 open-loop ramp, 3 closed loop, 4 coasting, 5 short braking, 6 flying restart. -/
  phase : Nat
  mode : Nat
  step : Nat
  commOffset : Nat
  duty : Int
  /-- Electrical angle, 2^40 per electrical revolution, and its advance per observer period. -/
  theta : Nat
  omega : Int
  elecRev : Nat
  /-- Revolutions since the last start, the count that extends the master angle (R483). -/
  turns : Nat
  /-- Ramp reference in units of rpm / 2,400,000 (R434). -/
  ref : Int
  /-- The speed ordered while no wobble address is valid, rpm (R435). -/
  order : Nat
  /-- A stop is ordered: the set-point is 240 rpm, then short braking (R147, R445). -/
  stopping : Bool
  /-- 24 kHz samples for which the speed has been within tolerance (R438). -/
  near : Nat
  atSpeed : Bool
  /-- 48 kHz samples at, and below, cascade 1's upper limit (R439). -/
  atLimit : Nat
  belowLimit : Nat
  limited : Bool
  /-- L+85:06 and the bus voltage at that record (R451). -/
  limitSpeed : Int
  limitBus : Nat
  /-- Selections won in a row by competitor 2 (R445). -/
  regenWins : Nat
  /-- Coasting in a retarget in place of regeneration (R445). -/
  coast : Bool
  /-- 48 kHz samples with the winding current below 2 % of the limit, and whether the windings stay fully shorted (R444). -/
  quiet : Nat
  shorted : Bool
  /-- 24 kHz samples at rest (R437). -/
  rested : Nat
  /-- Winding temperature, 0.1 degC * 2^20 (R437). -/
  temp : Int
  ia : Int
  ib : Int
  ic : Int
  /-- Phase voltages last sampled, mV, and the last two used samples of the floating phase against its reference, the newer first,
  with their counts (R425, R426). -/
  volts : List Int
  crossing : List (Int × Nat)
  /-- DUTY in force at the bridge: that released takes force at the start of the next carrier period (R424). -/
  dutyOn : Int
  /-- Distances of the last crossings from the open-loop ramp's angles, newest first (R431). -/
  handover : List Int
  /-- Timer count at which the commutation cell last ran (R429). -/
  commAt : Option Nat
  /-- Angle run since the last accepted crossing, and consecutive large errors with their sign (R446). -/
  lastCross : Nat
  largeErr : Int
  /-- Speed before the loss of the rotor, 0.01 rpm, and the tick of its detection (R447). -/
  lostSpeed : Int
  lostAt : Nat
  /-- A wobble address is valid (R435). -/
  wobbleValid : Bool
  writeRamp : Bool
  /-- 48 kHz samples of the present millisecond spent voltage-limited, and energy regenerated below one joule, in
  nanojoules (L+E5:05, L+E5:06). -/
  limitedRem : Nat
  regen : Nat
  deriving DecidableEq, Repr

/-- The pacer of a lane (R450-R456). -/
structure Pacer where
  v : Nat
  /-- A raise that waits for the core supply (R73). -/
  raise : Option Nat
  /-- Velocity ordered by the retry ladder (R456). -/
  override : Option Nat
  unitCeiling : Nat
  ceiling : Nat
  term : Nat
  /-- Team demand averaged, bytes per second * 2^16 (R452). -/
  demand : Nat
  /-- Bytes of the team's admissions counted at the last evaluation. -/
  seen : Nat
  /-- Evaluations in a row with vt below 0.9 v. -/
  low : Nat
  /-- The pacer has made its first evaluation since power-up (R453). -/
  begun : Bool
  /-- Event 1404 has been raised for the present ceiling (R455). -/
  warned : Bool
  deriving DecidableEq, Repr

/-- A profile of strides: position, speed and acceleration at the joint in q = 2^-16 / 3 microstep per second powers,
then segments of constant jerk (jerk, ticks), the ticks run since the joint, and the target and speed at its end. -/
structure Profile where
  x0 : Int
  v0 : Int
  a0 : Int
  segs : List (Int × Nat)
  t : Nat
  target : Int
  vEnd : Int
  deriving DecidableEq, Repr

/-- The sled of a lane (R462-R500). -/
structure Sled where
  /-- Profile position, 2^-16 microstep; speed and acceleration in q/s and q/s^2. -/
  p : Int
  v : Int
  a : Int
  profile : Option Profile
  /-- The queue, the stride in progress first (R471). -/
  queue : List Stride
  /-- The first stride of the queue is in progress. -/
  running : Bool
  /-- A stop is being carried out (R477). -/
  stopping : Bool
  last : Stride
  geared : Bool
  g : Int
  gRem : Nat
  ratioN : Int
  ratioD : Nat
  armed : List (Nat × Int × Nat)
  master : Nat
  encLast : Nat
  angleLast : Nat
  fallback : Bool
  centering : Bool
  /-- Output of cascade 2 in force, Q8.23 microsteps. -/
  c : Int
  /-- Set-point s, 2^-16 microstep. -/
  s : Int
  k : Nat
  shift : Int
  mode : Nat
  /-- Amplitude in force, its start and goal (Q15), and the periods of the ramp run, of 16 (R496). -/
  amp : Int
  ampFrom : Int
  ampTo : Int
  ampStep : Nat
  below : Nat
  rest : Nat
  hold : Bool
  atLimit : Bool
  /-- Table in force (512 bytes; empty for the default table) and the accepted one (R491). -/
  table : Bytes
  pendingTable : Option Bytes
  lastE : Int
  ia : Int
  ib : Int
  latch : Option (Int × Int)
  /-- Sled bridge command released (R494). -/
  command : Nat
  /-- The lane holds its radius (R44, R486). -/
  radiusHold : Bool
  /-- Timer count of the last set-point period (R467). -/
  setAt : Option Nat
  /-- Path of s below one full step, in 2^-16 microstep (L+E6:01). -/
  path : Nat
  /-- Homing (R499): full steps since it began, sum and number of the load angles of the full step in progress, and the means of
  the last full steps, newest first, in 1/1,024 electrical revolution. -/
  homeSteps : Nat
  loadSum : Int
  loadCount : Nat
  loads : List Int
  deriving DecidableEq, Repr

/-- A bus segment (R440-R443, R459). -/
structure Segment where
  mv : Nat
  chop : Bool
  failed : Bool
  overvoltage : Bool
  /-- Samples since CHOPs rose, and the voltage then. -/
  chopFor : Nat
  chopMv : Nat
  /-- Samples at or above the overvoltage threshold, and the peak. -/
  overFor : Nat
  peak : Nat
  deriving DecidableEq, Repr

end Sys2Proof.Machine
end

