-- ==== Sys2Proof/Machine/StateLife.lean ====
section
/-! DEFINITION. The life of a lane and of a team (03_lane_life.md): states, lines, pickup, disc, fault record, rings. -/

namespace Sys2Proof.Machine

/-- Lane states (R11, R140), in the order of their codes. -/
inductive LaneState where
  | off | parked | spun | focused | tracking | ready | reading | writing | holding | fault
  deriving DecidableEq, Repr

/-- Code of a lane state in L+00:01 (R140). -/
def LaneState.code : LaneState → Nat
  | .off => 0 | .parked => 1 | .spun => 2 | .focused => 3 | .tracking => 4
  | .ready => 5 | .reading => 6 | .writing => 7 | .holding => 8 | .fault => 9

/-- The orders that level 3 posts to a lane's level 2 sequencers, by the boundary of R37 at which each is taken up. -/
inductive Order where
  /-- A stride (R470), at a joint. -/
  | stride (r : Stride)
  /-- An armed ratio change (R485): position, N, D; a loop setting, at a period. -/
  | gearing (pos : Nat) (n : Int) (d : Nat)
  /-- A start of the spindle (R144), and the ramp-down of R147: loop settings, at a period. -/
  | spin
  | park
  /-- An extent read on a track: layer, and slot of the data bands (R141); a read setting, at a sector preamble. -/
  | read (k : TrackId) (layer slot : Nat)
  /-- A write pass: layer and slot (R235); a write setting, at an extent boundary. -/
  | write (layer slot : Nat)
  deriving DecidableEq, Repr

/-- What level 2 posts to a lane's completion ring (R36). -/
inductive Completion where
  /-- A fault, with the lane's state at its detection (R168, R178). -/
  | fault (code : Nat) (at' : LaneState)
  | stride (tag status : Nat)
  /-- An extent read to its end, and an extent written and verified to its end or abandoned (R45, R47, R48). -/
  | readDone (k : TrackId) (slot : Nat)
  | writeDone (k : TrackId) (slot : Nat) (abandoned : Bool)
  | taken (o : Order)
  deriving DecidableEq, Repr

/-- An accepted pickup (R151, R153). -/
structure Pickup where
  serial : Bytes
  cls : Nat
  /-- The whole ID memory as read, and as Yalzo has written its lifetime area since. -/
  image : Bytes
  deriving DecidableEq, Repr

/-- A line sampled every 1 ms and debounced (R150): the last sample, the tick of its first equal sample, the value
that has been stable for 50 ms. -/
structure Line where
  raw : Bool
  since : Nat
  stable : Bool
  deriving DecidableEq, Repr

/-- How far the lead-in of the disc now clamped has been read (R157, R158). -/
inductive LeadInState where
  | unread | reading | blank | identified | unusable
  deriving DecidableEq, Repr

/-- The state machine of a lane. -/
structure Life where
  st : LaneState
  prev : LaneState
  /-- TIME of the last change of state (L+00:03). -/
  changed : Nat
  presence : Line
  disc : Line
  clamp : Line
  /-- A presence change of R150 that level 3 has not yet answered with an ID read. -/
  arriving : Bool
  pickup : Option Pickup
  /-- Last pickup temperature read over SIDEBAND, 0.1 degC (R840). -/
  temp : Int
  /-- Event 2001 has been raised for the disc now clamped. -/
  discKnown : Bool
  leadIn : LeadInState
  volume : Bytes
  discIndex : Nat
  discCount : Nat
  homing : Bool
  homed : Bool
  /-- A SPIN-UP order is being carried out. -/
  spinning : Bool
  /-- A ramp-down of R147 is being carried out. -/
  ramping : Bool
  /-- Tick at which idle time starts (R145). -/
  idle : Nat
  layer : Option Nat
  band : Option Nat
  /-- Target layer and band of level 3's orders (R167). -/
  targetLayer : Nat
  targetBand : Nat
  /-- Band to which a band jump by the actuator is under way; it lands when the wobble address shows it (R166). -/
  jump : Option Nat
  /-- Failed focus sweeps and layer mismatches of the capture in progress (R160, R164). -/
  sweeps : Nat
  mismatches : Nat
  deriving DecidableEq, Repr

/-- Faults and recovery of a lane (R168-R174) and its rings (R36). -/
structure FaultRec where
  orders : List Order
  completions : List Completion
  last : Nat
  /-- Re-entry state of the last fault by R169. -/
  reentry : LaneState
  /-- The state from which recovery goes on: the lower of the re-entry states (R172). -/
  resume : LaneState
  /-- Ticks of the recovery attempts, newest first (R171-R173). -/
  attempts : List Nat
  recovering : Bool
  /-- The sled homes before the lane re-enters at PARKED: a fault 1105 stands (R169). -/
  rehome : Bool
  latched : Bool
  /-- The lane waits to be reset: it is ramped down first (R174). -/
  resetting : Bool
  /-- The safe condition of R49 is in force. -/
  safe : Bool
  deriving DecidableEq, Repr

/-- The DRIVE, LASER and SIDEBAND links of a lane (R154, R785, R794, R797, R806). -/
structure Links where
  driveTrained : Bool
  laserTrained : Bool
  driveSelected : Bool
  laserSelected : Bool
  laserFallen : Bool
  /-- A training is in progress, and the trainings given since the accept or the fault. -/
  driveTraining : Bool
  laserTraining : Bool
  driveTries : Nat
  laserTries : Nat
  /-- Ticks at which the last trainings began. -/
  driveFrom : Nat
  laserFrom : Nat
  /-- Tick at which the last failed retrain ended (R839). -/
  retrainAt : Option Nat
  /-- L+03:02: 1 no status, 2 not trained, 3 driver FAULTS. -/
  lastCause : Nat
  driveStatus : Bytes
  laserStatus : Bytes
  /-- Tick of the last valid DRIVE and LASER status, and wrong frames in a row. -/
  driveSeen : Nat
  laserSeen : Nat
  driveBad : Nat
  laserBad : Nat
  /-- Sideband transactions failed in a row (R797). -/
  sidebandFails : Nat
  deriving DecidableEq, Repr

/-- Team states (R161, R177), in the order of their codes. -/
inductive TeamState where
  | empty | assembling | attached | blank | conflict
  deriving DecidableEq, Repr

/-- Code of a team state in T+00:02. -/
def TeamState.code : TeamState → Nat
  | .empty => 0 | .assembling => 1 | .attached => 2 | .blank => 3 | .conflict => 4

/-- A volume being created (R163): its identity, and the member lanes whose record stands verified in both lead-ins and has been
read back. -/
structure Creation where
  volume : Bytes
  written : List LaneId
  readBack : List LaneId
  deriving DecidableEq, Repr

end Sys2Proof.Machine
end

