-- ==== Sys2Proof/Machine/StateMedia.lean ====
section
/-! DEFINITION. A lane's disc as Yalzo knows it, its write path and its read path (04 to 07 of the spec). -/

namespace Sys2Proof.Machine

/-- What the slot map of R239 knows of a slot. -/
inductive SlotState where
  | blank | written | verified | skipped
  deriving DecidableEq, Repr

/-- A relocation entry (R222): original PSA, kind 0 relocated, 1 skipped slot, 2 defective, and the replacement. -/
structure RelocEntry where
  kind : Nat
  psa : Nat
  repl : Nat
  deriving DecidableEq, Repr

/-- The disc clamped in a lane (R215-R229, R239). Position 4 * layer + track in the vectors of 32. -/
structure Disc where
  /-- Media identity body (R219) and volume record body (R220); empty where none. -/
  media : Bytes
  volumeRec : Bytes
  /-- Write-strategy defaults of the lead-in: 36 bytes at 36 * (4 * layer + class). -/
  strategies : Bytes
  /-- Highest epoch recorded in the lead-in, and the highest found in any metadata (R212, R225). -/
  epoch : Nat
  seenEpoch : Nat
  /-- Open write epoch; 0 when no session is open (L+20:03). -/
  openEpoch : Nat
  /-- The open session was begun here since the disc was clamped: its counts and entries below are known (R212, R271). -/
  ours : Bool
  sessionStart : Nat
  /-- Tick at which the session opened and at which the last extent write started (R213). -/
  sessionTick : Nat
  lastStart : Nat
  closeDue : Option Nat
  /-- The primary copy of the block that a close is due to write has verified (R216). -/
  primaryDone : Bool
  sessionSectors : Nat
  sessionRelocated : Nat
  sessionSkipped : Nat
  /-- Blocks used in the primary and the backup, and the next block sequence (R215, R216). -/
  usedPrimary : Nat
  usedBackup : Nat
  nextBlock : Nat
  skips : Vector (List Nat) 32
  /-- Lowest slot not yet written (offset 80 of R221), and that of the last disc write record (R225). -/
  nextSlot : Vector Nat 32
  recNext : Vector Nat 32
  /-- Slots at or after `nextSlot`, and any slot the map holds explicitly. -/
  slots : Vector (List (Nat × SlotState)) 32
  /-- Logical extents recorded and verified (offset 208 of R221). -/
  extents : Vector Nat 32
  testUnit : Vector Nat 8
  relocs : List RelocEntry
  /-- Relocation entries made in the open session, in order (R271). -/
  sessionRelocs : List RelocEntry
  /-- PSA of sector 0 of each relocation slot used (R210). -/
  relocUsed : List Nat
  /-- A recovery scan is due or runs (R225, R226). -/
  scanDue : Bool
  closed : Bool
  /-- Events 2008 and 2022 given, by position (R209, R372). -/
  warnedOuter : List Nat
  warnedLow : List Nat
  created : Nat
  firstSession : Nat
  lastSession : Nat
  deriving DecidableEq, Repr

/-- A copy queued for relocation (R266) or refresh (R368). -/
structure Copy where
  track : TrackId
  /-- PSA of the sector that it replaces. -/
  psa : Nat
  dra : Nat
  layer : Nat
  sector : Nat
  kind : Nat
  /-- Logical extent. -/
  extent : Nat
  user : Bytes
  /-- Place of a refresh copy's user bytes in staging (R370, R618). -/
  addr : Option Nat
  refresh : Bool
  tick : Nat
  deriving DecidableEq, Repr

/-- What one track writes in a pass (R235). -/
structure PassTrack where
  team : TeamId
  /-- Team extent and logical extent. -/
  x : Nat
  e : Nat
  /-- Messages of the data sectors encoded so far (R191), for the outer parity. -/
  msgs : List Bytes
  /-- The sector that comes next as the encoder holds it, with whether it is padding; none where it is not ready (R241, R242). -/
  ready : Option (Bytes × Bool)
  /-- Failed sectors whose copy has verified while the pass still runs (R278). -/
  copied : List Nat
  judged : Nat
  failed : List Nat
  deriving DecidableEq, Repr

/-- A write pass in progress (R235). -/
structure Pass where
  layer : Nat
  /-- Slot of the data bands. -/
  slot : Nat
  tracks : Vector (Option PassTrack) 4
  /-- Sector whose playout comes next, 0 to 72. -/
  sector : Nat
  /-- The first symbol has switched the strategy bank (R254). -/
  begun : Bool
  /-- The gates have been dropped: the pass is cut (R170, R263). -/
  cut : Bool
  /-- Sum and number of the sync position errors of the sectors verified in the pass (R258). -/
  syncSum : Int
  syncCount : Nat
  deriving DecidableEq, Repr

/-- The write path of a lane. -/
structure WritePath where
  pass : Option Pass
  queue : List Copy
  /-- A lane's extents abandoned in a row (R274). -/
  abandoned : Nat
  suspended : Bool
  clockLocked : Bool
  rms : Int
  /-- Wobbles in a row beyond the unlock limit, frames in a row with a failing CRC, and with a valid one. -/
  badWobbles : Nat
  badFrames : Nat
  goodFrames : Nat
  /-- Write offset, T/32 (L+41:05). -/
  offset : Int
  /-- Tables in force for S0-S3, and the tables in the two banks of the driver (R254). -/
  tables : Vector Bytes 4
  banks : Vector (Vector Bytes 4) 2
  bank : Fin 2
  /-- A relocation move is under way: the band to which the lane returns after it (R269). -/
  moveFrom : Option Nat
  /-- Address of the last frame, as read or predicted (R262). -/
  wobbleLayer : Nat
  wobbleBand : Nat
  wobbleFrame : Nat
  wobbleKind : Nat
  deriving DecidableEq, Repr

/-- A mark accepted or predicted in the sector that a channel frames (R311): mark number (0 sync), its position in channel bits, offset
from its prediction, whether it was found. -/
structure Align where
  mark : Nat
  pos : Int
  offset : Int
  found : Bool
  deriving DecidableEq, Repr

/-- A false start (R320): mark, and the alternate's offset after the accepted position if one was found. -/
structure FalseStart where
  mark : Nat
  alternate : Option Nat
  deriving DecidableEq, Repr

/-- One read channel of a lane. -/
structure Channel where
  /-- Sync state by its code in R323. -/
  sync : Nat
  misses : Nat
  /-- AGC correction in steps of 0.25 dB (R288). -/
  agc : Int
  residual : Int
  locked : Bool
  /-- Lock tests failed in a row (R297). -/
  lockFails : Nat
  /-- Acquire at the next preamble (R294). -/
  reacquire : Bool
  /-- Physical address of the frame that it frames next without acquisition: the one after the last that it framed (R294). -/
  ahead : Option Nat
  noTiming : Bool
  blank : Bool
  laneDrop : Bool
  /-- First bit of a dropout in progress. -/
  dropout : Option Nat
  /-- Spans of flagged bits of the sector: first bit, bit after the last. -/
  flags : List (Nat × Nat)
  /-- Next mark to search, 0 sync, 1-19 resync, and its predicted position. -/
  mark : Nat
  predicted : Int
  aligns : List Align
  falseStarts : List FalseStart
  /-- Clock phase, T/64: loaded at an acquisition, steered by the timing loop (R293, R295, R298). -/
  phase : Int
  /-- Noise estimate of its output, squares of 2^-19 of a bit's amplitude (R303), and SNR estimate (L+29:01). -/
  sigma : Nat
  snr : Int
  /-- Mean ADC sample of its last sector, in 1/256 of a code, and whether its last frame carried a dropout flag (R514, R520). -/
  mean : Int
  dropped : Bool
  deriving DecidableEq, Repr

/-- What has been delivered and judged for a sector of an extent read (R311, R339-R344). -/
structure SectorRead where
  psa : Nat
  /-- Soft values in codeword order, combined over the reads of the ladder (R353). -/
  soft : List Int
  /-- Erasure map: one flag per group of 16 codeword bits. -/
  erased : List Bool
  noTiming : Bool
  blank : Bool
  laneDrop : Bool
  diversity : Bool
  aligns : List Align
  falseStarts : List FalseStart
  /-- Modulated soft values with their flags, kept for realignment and re-reading (R311, R322). -/
  raw : List (Int × Bool)
  /-- Order of its last channel bit among the sectors of the unit (R341), and realignments tried (R322). -/
  stamp : Nat
  tries : Nat
  /-- First decode has been made. -/
  judged : Bool
  /-- The 4,128-byte message where the sector is good. -/
  good : Option Bytes
  /-- Outcome code of R367 under which it was made good; flagged at its first decode. -/
  outcome : Nat
  firstFlagged : Bool
  deriving DecidableEq, Repr

/-- An extent read in progress on a track (R351). -/
structure ReadJob where
  layer : Nat
  slot : Nat
  /-- Band of a relocation extent; none for a slot of the data bands. -/
  relocBand : Option Nat
  /-- Lead-in block read. -/
  leadIn : Bool
  /-- Logical extent. -/
  e : Nat
  sectors : List (Nat × SectorRead)
  /-- Next sector of the read in progress, 72 when it has ended. -/
  next : Nat
  /-- Ladder step: 0 before the ladder; reads made within the step. -/
  step : Nat
  reads : Nat
  /-- What is due: 0 records, decodes and the outcome of R351; 1 the outer code; 2 the ladder. -/
  phase : Nat
  /-- Relocation extents still to read in step 2: band and relocation slot. -/
  todo : List (Nat × Nat)
  deriving DecidableEq, Repr

/-- A sector that waits for a decoder core or is held by one (R341): first decodes before realignments and ladder decodes, and within a
priority by the order of the sectors' last channel bits. -/
structure DecodeJob where
  lane : Fin 32
  track : Fin 4
  sector : Nat
  stamp : Nat
  later : Bool
  deriving DecidableEq, Repr

/-- The pool of 8 decoder cores (R341): sectors held by cores, those that wait, and the count of sectors delivered. -/
structure DecoderPool where
  held : List DecodeJob
  waiting : List DecodeJob
  count : Nat
  deriving DecidableEq, Repr

/-- An entry of the read defect list (R367). -/
structure Defect where
  psa : Nat
  time : Nat
  hits : Nat
  outcome : Nat
  deriving DecidableEq, Repr

/-- The read path of a lane. -/
structure ReadPath where
  channels : Vector Channel 8
  /-- Mode of the channels as of the last sector preamble (R284), the low-pass cutoff programmed at it, Hz (R290), and the frequency word of
  the ADC clocks, Hz (R293). -/
  mode : Nat
  cutoff : Nat
  word : Nat
  /-- Layer whose tap set and references are in force (R331). -/
  layer : Nat
  jobs : Vector (Option ReadJob) 4
  /-- Ladders that a lane fault has suspended, or that read relocated copies (R352, R356). -/
  held : Vector (Option ReadJob) 4
  /-- Offsets of the last 8 accepted sync marks, T/32, newest first (L+26:06). -/
  offsets : List Int
  /-- Layers adapted since the disc was clamped (L+24:0C). -/
  adapted : Nat
  /-- Sectors left with the equaliser step multiplied by 4 (R332). -/
  fast : Nat
  /-- Capture (R335): status, samples armed, data. -/
  capStatus : Nat
  capCount : Nat
  capData : Bytes
  balance : Int
  defects : List Defect
  /-- The ladder's temporary tracking and focus offsets (R352), nm. -/
  trackOffset : Int
  focusOffset : Int
  deriving DecidableEq, Repr

end Sys2Proof.Machine
end

