-- ==== Sys2Proof/Machine/StateLane.lean ====
section
/-! DEFINITION. A lane's whole state, with its warm-up (11_warm_up.md), and its values at reset. -/

namespace Sys2Proof.Machine

/-- Warm-up of a lane (R503-R530). -/
structure WarmUp where
  /-- The trim set, in the order of R503: values last accepted or written, and values in force on the loop. -/
  trims : List Int
  inForce : List Int
  factory : List Int
  /-- Reference temperature (L+C0:0A), TIME of the last accepted warm-up (L+C0:0B). -/
  refTemp : Int
  accepted : Nat
  /-- BASELINE_FACTORY of R176. -/
  baseline : Bool
  running : Bool
  /-- Parts of the run still to come, parts that ran, and the part in progress. -/
  todo : List Nat
  ran : List Nat
  part : Nat
  byHost : Bool
  opcWaiting : Bool
  detectorPending : Bool
  /-- The host asked for these parts (R507). -/
  asked : Nat
  autoStopped : Bool
  failures : Nat
  /-- Some part of this run failed. -/
  failed : Bool
  /-- Temperature at the last failure (R522), and tick at which a new automatic run may start. -/
  failTemp : Int
  retryAt : Option Nat
  /-- Results of the parts, codes of L+C0:0C. -/
  results : List Nat
  /-- Probe of R516: index 0-2, frames counted, value at the part's start, means so far. -/
  probe : Nat
  frames : Nat
  v0 : Int
  q : List Int
  /-- Sums, over the frames counted, of what the part measures (R514 to R516). -/
  sums : List Int
  /-- Tick of the part's start (R512). -/
  started : Nat
  /-- A frame while reading, or a pass while writing, has begun since the last step of an offset, and since the last
  read-power release (R523). -/
  mark : Bool
  powerMark : Bool
  /-- Frames still to pass before one counts (R511). -/
  settle : Nat
  /-- DETECTOR measures during the spin-up in progress (R513). -/
  detecting : Bool
  /-- A test-zone pass is in progress (R517): layer and first unit. -/
  testPass : Option (Nat × Nat)
  /-- Layer and band to which the lane returns from the test zone (R517). -/
  backTo : Option (Nat × Nat)
  deriving DecidableEq, Repr

/-- What a lane keeps of its pickup's lifetime records (R753-R755, R766). -/
structure PickupLife where
  /-- Nanoseconds of laser-on time below 0.1 h: W0-W3, read channel. -/
  onRem : List Nat
  /-- Write energy below 0.1 J, in units of 10 uW * ns: W0-W3. -/
  energyRem : List Nat
  /-- Tick of the last write of the area. -/
  written : Nat
  /-- Highest temperature and warm-ups accepted since the last write of the area. -/
  highest : Int
  warmUps : Nat
  /-- The lane has entered PARKED since the last write of the area. -/
  due : Bool
  /-- Event 1701 has been raised since the acceptance. -/
  warned : Bool
  deriving DecidableEq, Repr

/-- A lane. -/
structure Lane where
  life : Life
  flt : FaultRec
  links : Links
  loop : Loop
  spin : Spindle
  pace : Pacer
  sled : Sled
  disc : Option Disc
  wr : WritePath
  rd : ReadPath
  warm : WarmUp
  plife : PickupLife
  /-- Segment start slot: the lane waits to start from rest (R708). -/
  startWaiting : Bool
  deriving DecidableEq, Repr

/-- A line released since tick 0. -/
def Line.reset : Line := { raw := false, since := 0, stable := false }

/-- Life of a lane after reset: OFF (R175, R176). -/
def Life.reset : Life :=
  { st := .off, prev := .off, changed := 0, presence := Line.reset, disc := Line.reset, clamp := Line.reset,
    arriving := false, pickup := none, temp := 0, discKnown := false, leadIn := .unread, volume := [],
    discIndex := 0xFF, discCount := 0, homing := false, homed := false, spinning := false, ramping := false,
    idle := 0, layer := none, band := none, targetLayer := 0, targetBand := 220, jump := none, sweeps := 0, mismatches := 0 }

/-- No fault, empty rings. -/
def FaultRec.reset : FaultRec :=
  { orders := [], completions := [], last := 0, reentry := .off, resume := .off, attempts := [],
    recovering := false, rehome := false, latched := false, resetting := false, safe := false }

/-- Links untrained. -/
def Links.reset : Links :=
  { driveTrained := false, laserTrained := false, driveSelected := false, laserSelected := false,
    laserFallen := false, driveTraining := false, laserTraining := false, driveTries := 0, laserTries := 0, driveFrom := 0, laserFrom := 0,
    retrainAt := none, lastCause := 0, driveStatus := [], laserStatus := [], driveSeen := 0, laserSeen := 0,
    driveBad := 0, laserBad := 0, sidebandFails := 0 }

/-- A cascade at zero. -/
def Cascade.reset : Cascade := { secs := [], out := 0, latch := none, released := 0, born := 0, lost := false }

/-- No banks, no switch pending. -/
def Banks.reset : Banks :=
  { obsActive := [], obsShadow := [], obsRef := [], bqActive := [], bqShadow := [], bqRef := [], obsPending := false,
    bqPending := false }

/-- No overrun. -/
def Overrun.reset : Overrun :=
  { checkDue := false, reloadObs := false, reloadBq := false, zeroNext := false, zero := false,
    readPowerHeld := false, spindleHeld := false, sledHeld := false, stopped := false, reloadAt := none }

/-- A table of zeros, not valid (R167, R404). -/
def Runout.reset : Runout :=
  { table := Vector.replicate 3 [], valid := false, learning := false, revBins := Vector.replicate 3 [],
    runBins := Vector.replicate 3 [], spoiled := true, counted := 0, total := 0, idx := 0, idxValid := false,
    runSpeed := none }

/-- Loops after reset (R418, R419). -/
def Loop.reset : Loop :=
  { sampledAt := none, slotAt := none, releasedAt := Vector.replicate 5 none, x := [], latch := none, released := [0, 0, 0], closed := Vector.replicate 3 false,
    offsets := [0, 0, 0], cascades := Vector.replicate 6 Cascade.reset, winner := 0, selected := 0, trace := [],
    tracePos := 0, banks := Banks.reset, overrun := Overrun.reset, runout := Runout.reset,
    jumping := false, frameSeq := 0, carrierSlot := 0, powers := [0, 0, 0, 0, 0] }

/-- Spindle at rest, and for long (R437), bridge at FLOAT (R421, R457). -/
def Spindle.reset : Spindle :=
  { phase := 0, mode := 0, step := 0, commOffset := 0, duty := 0, theta := 0, omega := 0, elecRev := 0, turns := 0,
    ref := 0, order := 6000, stopping := false, near := 0, atSpeed := false, atLimit := 0, belowLimit := 0,
    limited := false, limitSpeed := 0, limitBus := 0, regenWins := 0, coast := false, quiet := 0, shorted := false, rested := 2 ^ 32,
    temp := 0, ia := 0, ib := 0, ic := 0, volts := [0, 0, 0], crossing := [], dutyOn := 0, handover := [], commAt := none, lastCross := 0, largeErr := 0, lostSpeed := 0, lostAt := 0, wobbleValid := false,
    writeRamp := false, limitedRem := 0, regen := 0 }

/-- Pacer at full rate (R167, R458). -/
def Pacer.reset : Pacer :=
  { v := 9984, raise := none, override := none, unitCeiling := 9984, ceiling := 9984, term := 0, demand := 0,
    seen := 0, low := 0, begun := false, warned := false }

/-- A stride record of zeros. -/
def Stride.zero : Stride := { target := 0, speed := 0, accel := 0, jerk := 0, flags := 0, status := 0, tag := 0 }

/-- Sled after reset (R500, R501). -/
def Sled.reset : Sled :=
  { p := 0, v := 0, a := 0, profile := none, queue := [], running := false, stopping := false, last := Stride.zero,
    geared := false, g := 0, gRem := 0, ratioN := 1, ratioD := 4000, armed := [], master := 0, encLast := 0,
    angleLast := 0, fallback := false, centering := false, c := 0, s := 0, k := 0, shift := 0, mode := 0, amp := 0,
    ampFrom := 0, ampTo := 0, ampStep := 16, below := 0, rest := 0, hold := false, atLimit := false, table := [],
    pendingTable := none, lastE := 0, ia := 0, ib := 0, latch := none, command := 0, radiusHold := false, setAt := none,
    path := 0, homeSteps := 0, loadSum := 0, loadCount := 0, loads := [] }

/-- Write path after reset (R281). -/
def WritePath.reset : WritePath :=
  { pass := none, queue := [], abandoned := 0, suspended := false, clockLocked := false, rms := 0, badWobbles := 0,
    badFrames := 0, goodFrames := 0, offset := 0, tables := Vector.replicate 4 [],
    banks := Vector.replicate 2 (Vector.replicate 4 []), bank := 0, moveFrom := none, wobbleLayer := 0,
    wobbleBand := 0, wobbleFrame := 0, wobbleKind := 3 }

/-- A channel after reset (R334, R337). -/
def Channel.reset : Channel :=
  { sync := 0, misses := 0, agc := 0, residual := 0, locked := false, lockFails := 0, reacquire := true, ahead := none,
    noTiming := false, blank := false, laneDrop := false, dropout := none, flags := [], mark := 0, predicted := 0,
    aligns := [], falseStarts := [], phase := 0, sigma := 2 ^ 38, snr := 0, mean := 0, dropped := false }

/-- Read path after reset. -/
def ReadPath.reset : ReadPath :=
  { channels := Vector.replicate 8 Channel.reset, mode := 0, cutoff := 0, word := 0, layer := 0, jobs := Vector.replicate 4 none, held := Vector.replicate 4 none, offsets := [],
    adapted := 0, fast := 0, capStatus := 0, capCount := 0, capData := [], balance := 0, defects := [],
    trackOffset := 0, focusOffset := 0 }

/-- Warm-up after reset (R528, R529). -/
def WarmUp.reset : WarmUp :=
  { trims := List.replicate 32 0, inForce := List.replicate 32 0, factory := List.replicate 32 0, refTemp := 0,
    accepted := 0, baseline := true, running := false, todo := [], ran := [], part := 0, byHost := false,
    opcWaiting := false, detectorPending := false, asked := 0, autoStopped := false, failures := 0,
    failed := false, failTemp := 0, retryAt := none, results := List.replicate 7 0, probe := 0, frames := 0, sums := [],
    v0 := 0, q := [], started := 0, mark := false, powerMark := false, settle := 0, detecting := false,
    testPass := none, backTo := none }

/-- No lifetime remainders. -/
def PickupLife.reset : PickupLife :=
  { onRem := [0, 0, 0, 0, 0], energyRem := [0, 0, 0, 0], written := 0, highest := 0, warmUps := 0, due := false,
    warned := false }

/-- A lane after reset. -/
def Lane.reset : Lane :=
  { life := Life.reset, flt := FaultRec.reset, links := Links.reset, loop := Loop.reset, spin := Spindle.reset,
    pace := Pacer.reset, sled := Sled.reset, disc := none, wr := WritePath.reset, rd := ReadPath.reset,
    warm := WarmUp.reset, plife := PickupLife.reset, startWaiting := false }

/-- A bus segment after reset (R459). -/
def Segment.reset : Segment :=
  { mv := 0, chop := false, failed := false, overvoltage := false, chopFor := 0, chopMv := 0, overFor := 0, peak := 0 }

end Sys2Proof.Machine
end

