-- ==== Sys2Proof/Machine/StateMemory.lean ====
section
/-! DEFINITION. Buffer memory and buffer cache (14_buffer_memory.md, 15_cache.md). -/

namespace Sys2Proof.Machine

/-- A scrub summary in progress or ended (R625). -/
structure Summary where
  start : Nat
  length : Nat
  began : Nat
  ended : Nat
  lines : Nat
  corrected : Nat
  uncorrectable : Nat
  storedHost : Nat
  storedMemory : Nat
  repaired : Nat
  firstBad : Nat
  lastBad : Nat
  firstStored : Nat
  status : Nat
  /-- Corrections by device, 40 * channel + 20 * rank + position. -/
  devices : List (Nat × Nat)
  deriving DecidableEq, Repr

/-- A memory channel (R597-R599). -/
structure DdrChannel where
  ready : Bool
  present : Bool
  ranks : Nat
  /-- Density in Gbit. -/
  density : Nat
  /-- Line reads in a row that decoded uncorrectable, and tries of the command in error (R599). -/
  badReads : Nat
  parityTries : Nat
  deriving DecidableEq, Repr

/-- Buffer memory: 80 bytes to the line (R605), 64 data bytes and then the check symbols' 16 bytes. -/
structure Memory where
  /-- Bytes that differ from what an unlisted address reads as, by rising address 80 * line + byte. -/
  cells : List Host.Cell
  /-- Lines last filled with M_H applied: first line and count (R612, R613). -/
  hostFilled : List (Nat × Nat)
  chan : Vector DdrChannel 2
  fillDone : Bool
  /-- CMB sizes in force, units of 16 MiB (R546). -/
  cmb : Vector Nat 2
  lapPos : Nat
  laps : Nat
  lap : Summary
  lastLap : Option Summary
  pass : Option Summary
  passPos : Nat
  lastPass : Option Summary
  /-- Pass status 2311:04. -/
  passStatus : Nat
  /-- Corrections since reset by device (2320:04) and devices reported (R611). -/
  corrections : List (Nat × Nat)
  degraded : List Nat
  /-- Ticks of the events 3001 of the last second (R629). -/
  recent : List Nat
  deriving DecidableEq, Repr

/-- A slot of the cache (R634); its way's mode stands with the way. -/
structure CacheSlot where
  tag : Nat
  valid : Bool
  dirty : Bool
  age : Nat
  /-- 0 none, 1 host, 2 memory. -/
  poison : Nat
  data : Bytes
  deriving DecidableEq, Repr

/-- A miss that blocks its bank (R641): line, way reserved, and the bytes of a partial write that merges. -/
structure Miss where
  line : Nat
  way : Nat
  write : Option (Nat × Bytes)
  tick : Nat
  deriving DecidableEq, Repr

/-- A line in the write-back buffer (R642). -/
structure WriteBack where
  line : Nat
  data : Bytes
  poison : Nat
  deriving DecidableEq, Repr

/-- A maintenance order (R649) and its counts (2410:02). -/
structure Maint where
  /-- 0 idle, 1 running, 2 done. -/
  state : Nat
  op : Nat
  byWay : Bool
  way : Nat
  mask : Nat
  start : Nat
  length : Nat
  reached : Nat
  written : Nat
  invalidated : Nat
  locked : Nat
  /-- Lines whose fill was in flight when the order reached them (R653). -/
  deferred : List Nat
  deriving DecidableEq, Repr

/-- The cache. -/
structure Cache where
  serving : Bool
  /-- Slots that differ from an empty one, by 16 * set + way; scratchpad ways hold their words here too. -/
  slots : List (Nat × CacheSlot)
  /-- Modes in force, one per way (2401:02). -/
  modes : List Nat
  /-- Modes asked for while a change runs (R645). -/
  change : Option (List Nat)
  misses : Vector (Option Miss) 16
  wb : List WriteBack
  maint : Maint
  deriving DecidableEq, Repr

/-- No line read yet. -/
def Summary.blank : Summary :=
  { start := 0, length := 0, began := 0, ended := 0, lines := 0, corrected := 0, uncorrectable := 0, storedHost := 0,
    storedMemory := 0, repaired := 0, firstBad := 2 ^ 64 - 1, lastBad := 2 ^ 64 - 1, firstStored := 2 ^ 64 - 1,
    status := 0, devices := [] }

/-- A channel not yet trained. -/
def DdrChannel.reset : DdrChannel :=
  { ready := false, present := false, ranks := 0, density := 0, badReads := 0, parityTries := 0 }

/-- Buffer memory before its fill (R612). -/
def Memory.reset : Memory :=
  { cells := [], hostFilled := [], chan := Vector.replicate 2 DdrChannel.reset, fillDone := false,
    cmb := Vector.replicate 2 0, lapPos := 0, laps := 0, lap := Summary.blank, lastLap := none, pass := none, passPos := 0,
    lastPass := none, passStatus := 0, corrections := [], degraded := [], recent := [] }

/-- A slot after reset (R640). -/
def CacheSlot.empty : CacheSlot := { tag := 0, valid := false, dirty := false, age := 3, poison := 0, data := [] }

/-- No order given. -/
def Maint.idle : Maint :=
  { state := 0, op := 0, byWay := false, way := 0, mask := 0, start := 0, length := 0, reached := 0, written := 0,
    invalidated := 0, locked := 0, deferred := [] }

/-- The cache after reset (R640). -/
def Cache.reset : Cache :=
  { serving := false, slots := [], modes := List.replicate 16 0, change := none, misses := Vector.replicate 16 none,
    wb := [], maint := Maint.idle }

end Sys2Proof.Machine
end

