-- ==== Sys2Proof/Machine/StateUnit.lean ====
section
/-! DEFINITION. The unit's own state: Kyeri sessions, the configuration copies, the event log, the calendar, the
lifetime region and the ports of the unit. -/

namespace Sys2Proof.Machine

/-- A stored response (R104): sequence of the request, the whole request and the whole response. -/
structure Stored where
  seq : Nat
  request : Bytes
  response : Bytes
  deriving DecidableEq, Repr

/-- An open session (R107-R112). -/
structure Session where
  /-- Session number S of R107. -/
  number : Nat
  /-- Role of 1111: 1 observer, 2 operator, 3 admin (R106). -/
  role : Nat
  /-- Port, own address, and the station's address and UDP port of the last frame (R99). -/
  port : PortId
  own : Bytes
  addr : Bytes
  uport : Nat
  /-- Key slot 0-7 for slots 1-8. -/
  slot : Nat
  /-- Session key of R107 step 5. -/
  key : Bytes
  /-- Highest accepted sequence (R105). -/
  highest : Nat
  /-- Tick of the last accepted frame (R112). -/
  last : Nat
  /-- The last 16 requests with their responses, newest first (R104). -/
  stored : List Stored
  /-- Sequence of the last EVENT sent in the session (R100). -/
  txSeq : Nat
  deriving DecidableEq, Repr

/-- A HELLO answered and not yet proved (R107). -/
structure Hello where
  number : Nat
  ns : Bytes
  nd : Bytes
  slot : Nat
  /-- Tick of Yalzo's answer. -/
  tick : Nat
  deriving DecidableEq, Repr

/-- Whose segments are held: a session by its number, or a submission queue (R95, R116). -/
inductive Owner where
  | session (number : Nat)
  | queue (ctrl : PortId) (sq : Nat)
  | peer
  deriving DecidableEq, Repr

/-- Segments held of a value not yet complete (R95-R97). -/
structure Held where
  owner : Owner
  index : Nat
  sub : Nat
  total : Nat
  data : Bytes
  deriving DecidableEq, Repr

/-- An EVENT frame without its EVENT-ACK (R136): session slot, log sequence, the frame's body, times sent, tick sent. -/
structure EventWait where
  slot : Nat
  seq : Nat
  body : Bytes
  sends : Nat
  tick : Nat
  deriving DecidableEq, Repr

/-- A DISCOVER that waits for its answer (R131). -/
structure Discovery where
  port : PortId
  own : Bytes
  addr : Bytes
  uport : Nat
  tick : Nat
  deriving DecidableEq, Repr

/-- Kyeri and the dictionary's stored values. -/
structure Dict where
  /-- Stored values of entries, by index * 256 + subindex; an entry not listed holds its default. -/
  reg : List (Nat × Bytes)
  /-- Change counters (R93); an entry not listed has counted no write. -/
  chg : List (Nat × Nat)
  /-- Key slots 1-8 of 1110 (R113). -/
  keys : Vector (Option Bytes) 8
  sessions : Vector (Option Session) 8
  hellos : List Hello
  /-- Number of the next session (R107). -/
  nextSession : Nat
  /-- Ticks of the failed proofs, newest first (R110). -/
  proofFails : List Nat
  held : List Held
  discoveries : List Discovery
  eventWaits : List EventWait
  /-- Tick of the last ANNOUNCE (R130); none before the first. -/
  announced : Option Nat
  deriving DecidableEq, Repr

/-- To whom the status of a dictionary write that does not return at once is due: a Kyeri request of a session or an NVMe dictionary command,
with the write's position in a batch, an accessor outside both, or the peer's CONFIG frame. -/
inductive Reply where
  | frame (slot : Fin 8) (session ty seq : Nat) (d : Datagram) (pos : Nat)
  | command (c : CmdId) (pos : Nat)
  | record (who : Who) (index sub : Nat)
  | peer (seq : Nat)
  deriving DecidableEq, Repr

/-- A save in progress (R120): the copy written (false A, true B) and the bytes taken at its place in the order. -/
structure SaveRun where
  copy : Bool
  image : Bytes
  tick : Nat
  /-- To whom the result is due (R120, R679). -/
  reply : Reply
  deriving DecidableEq, Repr

/-- The configuration region (R117) and its status (R128, R129). -/
structure ConfigRegion where
  copyA : Bytes
  copyB : Bytes
  /-- Copy in force: generation and saved check word; none where no copy is in force (R128). -/
  inForce : Option (Nat × Nat)
  save : Option SaveRun
  defaultsUsed : Bool
  dropped : Bool
  aBad : Bool
  bBad : Bool
  deriving DecidableEq, Repr

/-- An entry of the event log (R762). -/
structure LogEntry where
  seq : Nat
  code : Nat
  source : Nat
  flags : Nat
  time : Nat
  data : Bytes
  deriving DecidableEq, Repr

/-- The event log (R762-R765). -/
structure Log where
  /-- Newest first, at most 65,536. -/
  entries : List LogEntry
  nextSeq : Nat
  overwritten : Nat
  deriving DecidableEq, Repr

/-- The calendar (R757-R761). -/
structure Calendar where
  /-- TIME at tick `tick`, in nanoseconds. -/
  base : Nat
  /-- Tick at which the calendar stood at `base`. -/
  tick : Nat
  /-- Rate correction in force, 0.001 ppm (2701:01). -/
  rate : Int
  /-- Offset still to be slewed out since `tick`, in nanoseconds (R760). -/
  slew : Int
  unset : Bool
  ppsPresent : Bool
  ppsMissing : Bool
  ppsMismatch : Bool
  learned : Bool
  /-- PPS edges measured for the rate correction (R761). -/
  edges : Nat
  /-- A write of 2700:02 that waits for its edge: TAI named and tick of the write (R759). -/
  named : Option (Nat × Nat)
  /-- 2701:02: last setting and its step. -/
  lastSet : Nat
  lastStep : Int
  deriving DecidableEq, Repr

/-- Lifetime counts of the unit and the lanes, and the pages of the lifetime region (R747-R752). -/
structure Lifetime where
  /-- 2710:01: power-on time (s), power cycles, unsafe shutdowns, takeovers, drills passed, lines corrected, lines
  uncorrectable, fail-stops. -/
  unit : Vector Nat 8
  /-- L+E8:03 per lane: revolutions, full steps, layer jumps, deadline overruns. -/
  lanes : Vector (Vector Nat 4) 32
  pages : Vector Bytes 16
  generation : Nat
  /-- Page taken at start or written last; none where no page is valid (R749). -/
  page : Option (Fin 16)
  lastSave : Nat
  /-- Next log sequence at the last save (R750). -/
  lastSeq : Nat
  /-- Tick from which power-on time has been counted. -/
  counted : Nat
  /-- A save is due with this CLEAN flag (R750, R752); none while none is. -/
  due : Option Bool
  deriving DecidableEq, Repr

end Sys2Proof.Machine
end

