-- ==== Sys2Proof/Machine/StateSystem.lean ====
section
/-! DEFINITION. Relay pair, power states, firmware, supplies and ports (16 to 18, 20 and 21 of the spec). -/

namespace Sys2Proof.Machine

/-- A baton drill in progress (R687). -/
structure Drill where
  /-- 1 quiesce, 2 DRILL sent, 3 PAIRSEL released. -/
  stage : Nat
  /-- Tick at which the stage began, and the release instant t_d. -/
  began : Nat
  td : Nat
  deriving DecidableEq, Repr

/-- Lines and role of the relay pair (R659-R691). -/
structure Pair where
  /-- 0 SOLO, 1 ACTIVE, 2 STANDBY, 3 UNPAIRED (2100:01). -/
  role : Nat
  /-- The role has been taken since the device reset (R665). -/
  decided : Bool
  /-- Tick of the end of the device reset. -/
  began : Nat
  epoch : Nat
  /-- Reason for UNPAIRED (2100:07). -/
  reason : Nat
  hold : Bool
  /-- PAIRSEL_HOLD_I and PAIRSEL_ALIVE_I as last seen. -/
  peerHold : Bool
  /-- This device's ALIVE line toggles (R661). -/
  alive : Bool
  peerAlive : Bool
  demand : Bool
  /-- The peer's serial number; empty until the peer has arrived (2100:05). -/
  peerSerial : Bytes
  /-- The peer's PAIR_HELLO has passed the checks of R688: its epoch, check word and TIME. -/
  hello : Option (Nat × Nat × Nat)
  links : Vector Bool 2
  /-- Highest sequence accepted of the peer, and the sequence and cut last sent (R670). -/
  rxSeq : Nat
  txSeq : Nat
  txCut : Nat
  /-- Records of the cut being received, and of the latest complete cut (R672). -/
  gathering : List Bytes
  mirror : List Bytes
  /-- COMMIT records received since the latest complete cut (R673, R682). -/
  commits : List Bytes
  /-- The period timer stands this far ahead of the model's count of ticks (R664). -/
  shift : Int
  deriving DecidableEq, Repr

/-- Who asked for a unit state (R693, R712). -/
inductive PowerWho where
  | nvme (c : CmdId)
  | dict (reply : Reply)
  /-- The peer, by the sequence of its CONFIG frame (R710, R712). -/
  | peer (seq : Nat)
  deriving DecidableEq, Repr

/-- A power request: target NVMe power state. -/
structure PowerReq where
  ps : Nat
  who : PowerWho
  deriving DecidableEq, Repr

/-- Mirroring, takeover and drills (R669-R688). -/
structure PairWork where
  armed : Bool
  /-- The full copy has been received or sent since pairing (R669). -/
  full : Bool
  mismatch : Bool
  slewing : Bool
  /-- Tick of the last valid HEARTBEAT received, and sent. -/
  lastBeat : Nat
  lastCut : Nat
  /-- A takeover has been triggered and PAIRSEL is not yet held: its tick and cause: 0 alive lost, 1 heartbeats lost,
  3 a drill (R676, R687). -/
  taking : Option (Nat × Nat)
  /-- Next log sequence that the stream of event log entries carries. -/
  logSent : Nat
  /-- Lanes whose view differs from the peer's (2100:0B). -/
  view : Nat
  drill : Option Drill
  /-- Tick from which the drill interval counts, and until which a drill is deferred (R687). -/
  drillFrom : Nat
  deferred : Nat
  lastDrill : Bytes
  lastTakeover : Bytes
  /-- Mirroring stays off until the peer has been reset (R687). -/
  barred : Bool
  /-- COMMIT records that await their ACK: sequence and command. -/
  commits : List (Nat × CmdId)
  /-- CONFIG frames that await their ACK: sequence and where the result is due (R679). -/
  configs : List (Nat × Reply)
  /-- Power requests that a STANDBY has sent on: sequence and asker (R712). -/
  asked : List (Nat × PowerReq)
  /-- Takeover triggers are suppressed (R710). -/
  suppressed : Bool
  deriving DecidableEq, Repr

/-- Power states (R692-R714). -/
structure Power where
  /-- 0 RUN, 1 STAND, 2 SLEEP. -/
  unit : Nat
  ps : Nat
  running : Option PowerReq
  waiting : List PowerReq
  /-- Tick at which the request began. -/
  began : Nat
  /-- Step of R705 reached, and the tick of its start. -/
  wake : Nat
  stepAt : Nat
  wakeTimes : List Nat
  wokeFromSleep : Bool
  resumeFailed : Bool
  saveBytes : Nat
  /-- Isolation holds the edges at the values of R701. -/
  isolated : Bool
  selfRefresh : Bool
  /-- Lanes with a clamped disc that spin up after a wake from SLEEP (R708). -/
  spinAfter : List LaneId
  deriving DecidableEq, Repr

/-- A slot of the boot flash (R716, R718). -/
structure FlashSlot where
  /-- State code of R718. -/
  st : Nat
  version : Nat
  security : Nat
  length : Nat
  image : Bytes
  deriving DecidableEq, Repr

/-- The slot directory (R717): generation and boot slot of each copy, the states standing with the slots. -/
structure Directory where
  genA : Nat
  genB : Nat
  boot : Nat
  /-- TIME at which the running slot entered TRIAL. -/
  trialTime : Nat
  deriving DecidableEq, Repr

/-- The download record (R728-R730) and its status (2610:03). -/
structure Download where
  /-- 0 none, 1 open, 2 verified, 3 failed. -/
  state : Nat
  nvme : Bool
  slot : Nat
  header : Bytes
  /-- Chunks present. -/
  chunks : List Nat
  /-- Bytes of a chunk that Firmware Image Download has begun. -/
  status : Nat
  /-- The last chunk has arrived and the image is to be verified (R731). -/
  due : Bool
  deriving DecidableEq, Repr

/-- An activation (R736-R740). -/
structure Activation where
  /-- 0 idle, 1 running, 2 done, 3 failed. -/
  state : Nat
  step : Nat
  /-- Step of the rolling sequence of R738; 0 for a solo activation. -/
  rolling : Nat
  began : Nat
  stoppedAt : Nat
  pause : Nat
  who : Option PowerWho
  deriving DecidableEq, Repr

/-- Firmware (R716-R746). -/
structure Firmware where
  slots : Vector FlashSlot 2
  dir : Directory
  load : Download
  act : Activation
  /-- Running slot; none while no core runs (R724). -/
  running : Option (Fin 2)
  /-- The boot ROM has run since the device reset. -/
  booted : Bool
  /-- Measurements 2 to 4 and 7 (R725). -/
  loader : Bytes
  unitFw : Bytes
  laneFw : Bytes
  config : Bytes
  fusedMin : Nat
  /-- 2600:05: last reset cause and fail-stop code. -/
  resetCause : Nat
  failCode : Nat
  /-- 2630:01: activations, fallbacks; the fail-stops stand with the lifetime counts. -/
  activations : Nat
  fallbacks : Nat
  /-- Tick at which the running slot entered TRIAL, in device time (R741). -/
  trialTick : Nat
  deriving DecidableEq, Repr

/-- What the always-on island keeps over a device reset (R599, R743, R814, R817). -/
structure Island where
  cause : Option Nat
  channel : Option (Nat × Nat)
  /-- A supply fault whose event is due after the boot: rail and value. -/
  supply : Option (Nat × Nat)
  rail : Nat
  railMv : Nat
  railTime : Nat
  /-- Step of R816 that failed first, when the sequence was retried. -/
  retried : Option Nat
  resumeFailed : Bool
  resetPort : Bool
  /-- A trial slot was left by a fail-stop (R742). -/
  trialFailed : Bool
  deriving DecidableEq, Repr

/-- Supplies, temperature and reset (R798-R820). -/
structure Supply where
  /-- Step of R816 reached: 0 before, 6 complete. -/
  step : Nat
  en : Vector Bool 4
  pg : Vector Bool 4
  /-- Origin of the sequence, or the tick from which the enables are held low; failures of the sequence and the step that failed
  last. -/
  stepAt : Nat
  failures : Nat
  failStep : Nat
  /-- Groups still to be lowered in order, and the tick at which the last was lowered (R819, R820, R699). -/
  lowering : List (Fin 4)
  loweredAt : Nat
  rails : List Nat
  /-- Comparisons in a row outside the range, per rail. -/
  bad : List Nat
  temps : List Int
  warn : Bool
  trip : Bool
  clocks : Vector Bool 2
  aonPg : Bool
  /-- A device reset is asserted or in progress (R805). -/
  inReset : Bool
  /-- A device reset follows within 1 ms (R743, R814). -/
  resetDue : Bool
  /-- VAON feeds the wake domain (R813). -/
  vaon : Bool
  /-- The always-on island has left reset since the last boot (R749, R757). -/
  powerOn : Bool
  deriving DecidableEq, Repr

/-- Ports of the unit (R798-R808). -/
structure Ports where
  mdioUp : Vector Bool 2
  gpioIn : Nat
  /-- Instruction in the JTAG register: 0 BYPASS, 1 IDCODE, 2 SAMPLE/PRELOAD, 3 EXTEST; bits shifted out last. -/
  jtag : Nat
  jtagOut : List Bool
  preload : List Bool
  /-- Neighbours learned on the MGMT ports. -/
  neighbours : List (PortId × Bytes)
  /-- Nibbles of each lane's LASER message stream that wait for units to carry them (R788, R789). -/
  messages : Vector (List Nat) 32
  deriving DecidableEq, Repr

/-- No peer seen (R665). -/
def Pair.reset : Pair :=
  { role := 0, decided := false, began := 0, epoch := 0, reason := 0, hold := false, peerHold := false, alive := false,
    peerAlive := false, demand := false, peerSerial := [], hello := none, links := Vector.replicate 2 false, rxSeq := 0,
    txSeq := 0, txCut := 0, gathering := [], mirror := [], commits := [], shift := 0 }

/-- No mirroring. -/
def PairWork.reset : PairWork :=
  { armed := false, full := false, mismatch := false, slewing := false, lastBeat := 0, lastCut := 0, taking := none,
    logSent := 0, view := 0, drill := none, drillFrom := 0, deferred := 0, lastDrill := [], lastTakeover := [], barred := false,
    commits := [], configs := [], asked := [], suppressed := false }

/-- RUN in PS0 (R713, R714). -/
def Power.reset : Power :=
  { unit := 0, ps := 0, running := none, waiting := [], began := 0, wake := 0, stepAt := 0,
    wakeTimes := List.replicate 7 0, wokeFromSleep := false, resumeFailed := false, saveBytes := 0, isolated := false,
    selfRefresh := false, spinAfter := [] }

/-- An empty slot. -/
def FlashSlot.empty : FlashSlot := { st := 0, version := 0, security := 0, length := 0, image := [] }

/-- No download. -/
def Download.none : Download :=
  { state := 0, nvme := false, slot := 0, header := [], chunks := [], status := 0, due := false }

/-- No activation. -/
def Activation.idle : Activation :=
  { state := 0, step := 0, rolling := 0, began := 0, stoppedAt := 0, pause := 0, who := Option.none }

/-- Nothing kept. -/
def Island.reset : Island :=
  { cause := none, channel := none, supply := none, rail := 0xFF, railMv := 0, railTime := 0, retried := none,
    resumeFailed := false, resetPort := false, trialFailed := false }

/-- Step 1 of the power-up sequence (R816): PMIC3_EN is high. -/
def Supply.reset : Supply :=
  { step := 1, en := #v[false, false, false, true], pg := Vector.replicate 4 false, stepAt := 0, failures := 0, failStep := 0,
    lowering := [], loweredAt := 0, rails := List.replicate 7 0, bad := List.replicate 7 0, temps := List.replicate 5 0,
    warn := false, trip := false, clocks := Vector.replicate 2 false, aonPg := true, inReset := false, resetDue := false, vaon := false,
    powerOn := true }

/-- Ports after reset. -/
def Ports.reset : Ports :=
  { mdioUp := Vector.replicate 2 false, gpioIn := 0, jtag := 1, jtagOut := [], preload := [], neighbours := []
    messages := Vector.replicate 32 [] }

end Sys2Proof.Machine
end

