-- ==== Sys2Proof/Machine/State.lean ====
section
/-! DEFINITION. The whole state of Yalzo, its faults and refusals, and its state after reset. -/

namespace Sys2Proof.Machine

/-- The reasons for which the machine stops with a fault. -/
inductive Fault where
  /-- Raised by an access of a host or of the memory system to an address that the spec gives no memory (R544, R600):
  safe, since no claim can be made of what such an access does. -/
  | noSuchAddress (addr : Nat)
  deriving DecidableEq, Repr

/-- The reasons for which a command is refused. -/
inductive Refusal where
  /-- The command has no meaning in this model: safe. -/
  | notModelled (mnemonic : String)
  deriving DecidableEq, Repr

/-- What Yalzo sends at its ports, in the order in which it is sent: the model's own record. -/
inductive Sent where
  /-- A Kyeri frame to a station (R99, R100): port, own address, the station's address and UDP port. -/
  | kyeri (port : PortId) (own addr : Bytes) (uport : Nat) (frame : Bytes)
  /-- An ANNOUNCE to a group, UDP port 47810, with its hop limit (R130). -/
  | announce (port : PortId) (group : Bytes) (hops : Nat) (frame : Bytes)
  /-- An NVMe completion (R564): status code type, status code, the Do Not Retry bit where a rule gives it,
  completion dwords 0 and 1. -/
  | completion (c : CmdId) (sct sc : Nat) (dnr : Option Bool) (dw0 dw1 : Nat)
  /-- Data to the host for a command. -/
  | data (c : CmdId) (bytes : Bytes)
  /-- A DRIVE frame (R777): its 16 payload bytes and its CRC. -/
  | drive (n : LaneId) (frame : Bytes)
  /-- Units of the LASER link (R787): whether LASER_CLK is the write clock or 96 MHz from the reference, and the bits that pairs D0 to D3
  carry, 4 to a LASER_CLK period. -/
  | laser (n : LaneId) (writeClock : Bool) (pairs : Vector (List Bool) 4)
  /-- A write of the ID memory's lifetime area (R754). -/
  | sideband (n : LaneId) (bytes : Bytes)
  /-- The status of a dictionary access made by an accessor (R88). -/
  | answer (who : Who) (index sub status : Nat)
  /-- A baton frame, sent on every trained link (R670). -/
  | baton (frame : Bytes)
  /-- An MSI-X interrupt (R539). -/
  | interrupt (ctrl : PortId) (vector : Nat)
  /-- An SPDM response (R726). -/
  | spdm (message : Bytes)
  /-- A read completion of the Controller Memory Buffer with its EP bit (R618). -/
  | cmb (port : PortId) (bytes : Bytes) (ep : Bool)
  /-- An LBA sent to the host for a Read, with its EP bit (R619). -/
  | lba (c : CmdId) (lba : Nat) (bytes : Bytes) (ep : Bool)
  /-- A neighbour advertisement or a multicast listener report (R803). -/
  | neighbour (port : PortId) (message : Bytes)
  deriving DecidableEq, Repr

/-- A team. -/
structure Team where
  st : TeamState
  volume : Bytes
  /-- Lane of each disc index (T+00:04). -/
  map : List Nat
  creation : Option Creation
  /-- Bytes of the commands admitted, and whether the team has had a command (R452, R453). -/
  admitted : Nat
  history : Bool
  /-- T+64:01, oldest entry first (R364). -/
  bad : List BadRun
  ns : Namespace
  deriving DecidableEq, Repr

/-- The machine. -/
structure State where
  /-- Commands that wait, the next first. -/
  pending : List Instr
  /-- Count of the period timer (R58, R837). -/
  ticks : Nat
  /-- Free values drawn so far: the model's own counter. -/
  free : Nat
  /-- Everything sent at the ports, newest first: the model's own record. -/
  sent : List Sent
  dict : Dict
  conf : ConfigRegion
  log : Log
  cal : Calendar
  life : Lifetime
  lanes : Vector Lane 32
  /-- The LDPC decoder cores, shared by all lanes (R341). -/
  pool : DecoderPool
  teams : Vector Team 32
  segs : Vector Segment 4
  /-- An event of a class in 2010:05 has been logged since the last write of 2010:06 (R798). -/
  alert : Bool
  /-- Core supply in force and as set by firmware, mV (R68, R72, R73). -/
  coreMv : Nat
  coreGoal : Nat
  host : HostSide
  mem : Memory
  cache : Cache
  pair : Pair
  work : PairWork
  power : Power
  fw : Firmware
  island : Island
  sup : Supply
  ports : Ports
  deriving DecidableEq, Repr

/-- Kyeri and the stored values after reset: every entry at its default, no key, no session (R113, R124). -/
def Dict.reset : Dict :=
  { reg := [], chg := [], keys := Vector.replicate 8 none, sessions := Vector.replicate 8 none, hellos := [],
    nextSession := 1, proofFails := [], held := [], discoveries := [], eventWaits := [], announced := none }

/-- The configuration region with no valid copy: the defaults are used (R124, R128). -/
def ConfigRegion.reset : ConfigRegion :=
  { copyA := [], copyB := [], inForce := none, save := none, defaultsUsed := true, dropped := false, aBad := true,
    bBad := true }

/-- An empty log (R764). -/
def Log.reset : Log := { entries := [], nextSeq := 0, overwritten := 0 }

/-- A calendar that has not been set (R757). -/
def Calendar.reset : Calendar :=
  { base := 0, tick := 0, rate := 0, slew := 0, unset := true, ppsPresent := false, ppsMissing := false,
    ppsMismatch := false, learned := false, edges := 0, named := none, lastSet := 0, lastStep := 0 }

/-- No valid lifetime page: every count at zero (R749). -/
def Lifetime.reset : Lifetime :=
  { unit := Vector.replicate 8 0, lanes := Vector.replicate 32 (Vector.replicate 4 0), pages := Vector.replicate 16 [],
    generation := 0, page := none, lastSave := 0, lastSeq := 0, counted := 0, due := none }

/-- A team whose lanes hold no disc: ASSEMBLING where it has members by default, else EMPTY (R161, R177). -/
def Team.reset (t : Nat) : Team :=
  { st := if t < 8 then .assembling else .empty, volume := [], map := List.replicate 32 0xFF, creation := none,
    admitted := 0, history := false, bad := [], ns := Namespace.reset }

/-- The boot flash of a unit as delivered: one committed image in slot 0, slot 1 empty (R718). -/
def Firmware.reset : Firmware :=
  { slots := #v[{ st := 5, version := field Sys2Proof.Config.factoryImage 12 4
                  security := field Sys2Proof.Config.factoryImage 24 4
                  length := field Sys2Proof.Config.factoryImage 32 4, image := Sys2Proof.Config.factoryImage },
                FlashSlot.empty]
    dir := { genA := 1, genB := 0, boot := 0, trialTime := 0 }, load := Download.none, act := Activation.idle
    running := none, booted := false, loader := [], unitFw := [], laneFw := [], config := []
    fusedMin := Sys2Proof.Config.fusedMinimum, resetCause := 0, failCode := 0, activations := 0, fallbacks := 0
    trialTick := 0 }

/-- The machine right after reset. -/
def State.reset : State :=
  { pending := [], ticks := 0, free := 0, sent := [], dict := Dict.reset, conf := ConfigRegion.reset,
    log := Log.reset, cal := Calendar.reset, life := Lifetime.reset, lanes := Vector.replicate 32 Lane.reset,
    pool := { held := [], waiting := [], count := 0 },
    teams := Vector.ofFn (fun t : Fin 32 => Team.reset t.val), segs := Vector.replicate 4 Segment.reset,
    alert := false, coreMv := 850, coreGoal := 850, host := HostSide.reset, mem := Memory.reset, cache := Cache.reset,
    pair := Pair.reset, work := PairWork.reset, power := Power.reset, fw := Firmware.reset, island := Island.reset,
    sup := Supply.reset, ports := Ports.reset }

end Sys2Proof.Machine
end

