-- ==== Sys2Proof/Machine/Ops.lean ====
section
/-! DEFINITION. The operations that every family shares: time, stored entries, counters, the event log, lanes and
their completion rings, free values. -/

namespace Sys2Proof.Machine

/-! ### Time -/

/-- Nanoseconds of a number of ticks of 1/4.8 GHz (R58). -/
def tickNs (t : Nat) : Nat := t * 5 / 24

/-- Ticks of a number of nanoseconds. -/
def nsTicks (ns : Nat) : Nat := ns * 24 / 5

/-- Ticks of a number of milliseconds. -/
def msTicks (ms : Nat) : Nat := ms * 4800000

/-- Ticks of a number of seconds. -/
def secTicks (sec : Nat) : Nat := sec * 4800000000

/-- At least `d` ticks have passed since the tick `t0`. -/
def passed (s : State) (t0 d : Nat) : Bool := decide (t0 + d ≤ s.ticks)

/-- The calendar as it stands (R757-R760): the base, the ticks since at the rate in force, and the part of an offset
slewed out at 100 ppm. -/
def calendarNow (c : Calendar) (ticks : Nat) : Nat :=
  let ns : Int := (tickNs (ticks - c.tick) : Nat)
  let cap : Int := ns / 10000
  let slewed : Int := sat c.slew (-cap) cap
  ((c.base : Int) + ns + ns * c.rate / 1000000000 + slewed).toNat % 2 ^ 64

/-- The period timer's count (R837): the model's ticks with the alignment of R664. -/
def timerCount (s : State) : Nat := ((s.ticks : Int) + s.pair.shift).toNat

/-- Ticks of the count since a lane's last observer period 0 (R63, R64, R837). -/
def lanePhase (s : State) (n : LaneId) : Nat := (timerCount s + 200000 - 3125 * (n.val % 4)) % 200000

/-- Observer period p of a lane, modulo 16 (R837, R377). -/
def lanePeriod (s : State) (n : LaneId) : Nat := lanePhase s n / 12500

/-- Ticks since the lane's last observer sample instant. -/
def laneOffset (s : State) (n : LaneId) : Nat := lanePhase s n % 12500

/-- Levels 1 and 2 run (R41, R42): not in a device reset, not in SLEEP, and not on a standby before it takes over (R676). -/
def levelsRun (s : State) : Bool :=
  decide (s.sup.step = 6) && !s.sup.inReset && decide (s.power.unit ≠ 2) && (decide (s.pair.role ≠ 2) || s.work.taking.isSome)

/-- TIME of the state. -/
def timeNow (s : State) : Nat := calendarNow s.cal s.ticks

/-! ### Free values -/

/-- The next free value, below `m`. -/
def draw (m : Nat) (s : State) : Nat × State :=
  (Sys2Proof.Config.freeValue s.free % m, { s with free := s.free + 1 })

/-- The next `n` free bytes. -/
def drawBytes (n : Nat) (s : State) : Bytes × State :=
  ((Sys2Proof.Config.freeBytes s.free n ++ List.replicate n 0).take n, { s with free := s.free + 1 })

/-! ### Indices -/

/-- Index of a lane-relative entry (R24). -/
def laneIdx (n : LaneId) (off : Nat) : Nat := 0x4000 + 0x100 * n.val + off

/-- Index of a team-relative entry (R25). -/
def teamIdx (t : TeamId) (off : Nat) : Nat := 0x3000 + 0x80 * t.val + off

/-- Index of a bus segment's entries (R459). -/
def segIdx (g : SegId) : Nat := 0x2240 + g.val

/-- Key of an entry in the stored values. -/
def regKey (index sub : Nat) : Nat := index * 256 + sub

/-- Segment of a lane (R10). -/
def segOf (n : LaneId) : SegId := ⟨n.val / 8, by omega⟩

/-- Lane by a number. -/
def laneOf (k : Nat) : LaneId := Fin.ofNat 32 k

/-- Every lane, rising. -/
def allLanes : List LaneId := List.ofFn (fun i : Fin 32 => i)

/-- Every team, rising. -/
def allTeams : List TeamId := List.ofFn (fun i : Fin 32 => i)

/-! ### Lanes and teams -/

/-- A lane. -/
def laneAt (s : State) (n : LaneId) : Lane := s.lanes[n]

/-- A value of each of a lane's 8 read channels. -/
def perChan {α : Type} (l : Lane) (f : Channel → α) : List α := l.rd.channels.toList.map f

/-- The state with one lane changed. -/
def setLane (n : LaneId) (f : Lane → Lane) (s : State) : State := { s with lanes := vecModify s.lanes n f }

/-- A team. -/
def teamAt (s : State) (t : TeamId) : Team := s.teams[t]

/-- The state with one team changed. -/
def setTeam (t : TeamId) (f : Team → Team) (s : State) : State := { s with teams := vecModify s.teams t f }

/-- The state with one segment changed. -/
def setSeg (g : SegId) (f : Segment → Segment) (s : State) : State := { s with segs := vecModify s.segs g f }

/-- Class of the pickup accepted in a lane. -/
def pickupClass (s : State) (n : LaneId) : Option Nat := ((laneAt s n).life.pickup).map (fun p => p.cls)

/-! ### Stored entries -/

/-- The bytes of a list of small numbers. -/
def natBytes (l : List Nat) : Bytes := l.map byte

/-- f(m) of the default microstep table (R492): round(65,535 sin(90 degrees m / 256)), by the rotation recurrence in
2^-60 units. -/
def sineTable : List Nat :=
  let s1 : Int := 7074193361797233
  let c1 : Int := 1152899801185339687
  let rec go : Nat → Int → Int → List Nat
    | 0, _, _ => []
    | k + 1, sn, cs =>
      (roundDiv (65535 * sn) (2 ^ 60)).toNat :: go k ((sn * c1 + cs * s1) / 2 ^ 60) ((cs * c1 - sn * s1) / 2 ^ 60)
  go 256 0 (2 ^ 60)

/-- The default microstep table's 512 bytes (R488, R492). -/
def defaultTable : Bytes := sineTable.flatMap (toLE 2)

/-- Window and step of each index (R520). -/
def hurdleDefault : Bytes :=
  (upTo 32).flatMap (fun i =>
    if i < 8 then toLE 2 24 ++ toLE 2 12
    else if i < 16 then toLE 2 40 ++ toLE 2 20
    else if i < 24 then toLE 2 1024 ++ toLE 2 512
    else if i = 24 then toLE 2 120 ++ toLE 2 40
    else if i = 25 then toLE 2 60 ++ toLE 2 30
    else if i = 26 then toLE 2 300 ++ toLE 2 100
    else if i = 27 then toLE 2 410 ++ toLE 2 328
    else toLE 2 1024 ++ toLE 2 614)

/-- A byte as two lower-case hexadecimal digits. -/
def hexByte (b : Byte) : Bytes :=
  let d (v : Nat) : Byte := byte (if v < 10 then 0x30 + v else 0x57 + v)
  [d (b.toNat / 16), d (b.toNat % 16)]

/-- The name-based version 5 identifier of a name in the name space of R534, in its 36 characters. -/
def uuidOf (name : Bytes) : Bytes :=
  let h := (sha1 (natBytes [0x5D, 0x1E, 0x3A, 0x70, 0x8C, 0x42, 0x5B, 0x9F, 0xA6, 0xD3, 0x1F, 0x40, 0xC2, 0xE8, 0x7B, 0x19] ++ name)).take 16
  let u := patch (patch h 6 [byte (0x50 + (h.getD 6 0).toNat % 16)]) 8 [byte (0x80 + (h.getD 8 0).toNat % 64)]
  let part (a n : Nat) : Bytes := (slice u a n).flatMap hexByte
  part 0 4 ++ [0x2D] ++ part 4 2 ++ [0x2D] ++ part 6 2 ++ [0x2D] ++ part 8 2 ++ [0x2D] ++ part 10 6

/-- 2500:03's default: nqn.2014-08.org.nvmexpress:uuid: and the identifier of the serial number (R534). -/
def defaultNqn : Bytes :=
  natBytes [0x6E, 0x71, 0x6E, 0x2E, 0x32, 0x30, 0x31, 0x34, 0x2D, 0x30, 0x38, 0x2E, 0x6F, 0x72, 0x67, 0x2E, 0x6E, 0x76, 0x6D, 0x65, 0x78,
    0x70, 0x72, 0x65, 0x73, 0x73, 0x3A, 0x75, 0x75, 0x69, 0x64, 0x3A] ++ uuidOf Sys2Proof.Config.serialNumber.toList

/-- Defaults that the tables give by a rule: of the pickup class where one is fitted (R334), of T+00:01 (R177), of the
microstep table (R492), of the hurdle limits (R520) and of the NQN (R534). -/
def specialDefault (cls : Option Nat) (index sub len : Nat) : Bytes :=
  if 0x4000 ≤ index ∧ index < 0x6000 then
    let off := index % 256
    if off = 0xA4 then defaultTable ++ toLE 4 (crc32 defaultTable)
    else if off = 0xC5 then hurdleDefault
    else match cls with
      | none => List.replicate len 0
      | some k => (Sys2Proof.Config.classDefault k off sub ++ List.replicate len 0).take len
  else if 0x3000 ≤ index ∧ index < 0x4000 then
    let t := (index - 0x3000) / 128
    if index % 128 = 0 ∧ sub = 1 then toLE 4 (if t < 8 then 0xF * 2 ^ (4 * t) else 0) else List.replicate len 0
  else if index = 0x2500 ∧ sub = 3 then defaultNqn
  else List.replicate len 0

/-- The default of an entry (R124 step 1). -/
def defaultOf (cls : Option Nat) (index : Nat) (e : Entry) : Bytes :=
  match e.dflt with
  | .zero => List.replicate e.len 0
  | .ones => List.replicate e.len 0xFF
  | .empty => []
  | .special => specialDefault cls index e.sub e.len
  | .num v => toLEInt e.len v
  | .bytes b => natBytes b

/-- The lane whose entry an index names. -/
def laneOfIndex (index : Nat) : Option LaneId :=
  if 0x4000 ≤ index ∧ index < 0x6000 then some (laneOf ((index - 0x4000) / 256)) else none

/-- The stored value of an entry: as last written, else its default. -/
def stored (s : State) (index sub : Nat) : Bytes :=
  match mapGet s.dict.reg (regKey index sub) with
  | some b => b
  | none =>
    match findEntry index sub with
    | none => []
    | some e => defaultOf ((laneOfIndex index).bind (pickupClass s)) index e

/-- The stored value of an entry as a number. -/
def cfg (s : State) (index sub : Nat) : Nat := fromLE (stored s index sub)

/-- The stored value of an entry as a signed number. -/
def cfgInt (s : State) (index sub : Nat) : Int := fromLEInt (stored s index sub)

/-- A lane entry as a number. -/
def lcfg (s : State) (n : LaneId) (off sub : Nat) : Nat := cfg s (laneIdx n off) sub

/-- A lane entry as a signed number. -/
def lcfgInt (s : State) (n : LaneId) (off sub : Nat) : Int := cfgInt s (laneIdx n off) sub

/-- The state with a stored value. -/
def store (index sub : Nat) (v : Bytes) (s : State) : State :=
  { s with dict := { s.dict with reg := mapSet s.dict.reg (regKey index sub) v } }

/-- The state with a stored value forgotten: the entry holds its default again. -/
def unstore (index sub : Nat) (s : State) : State :=
  { s with dict := { s.dict with reg := mapErase s.dict.reg (regKey index sub) } }

/-- Element `i` of `w` bytes of a stored entry. -/
def elem (s : State) (index sub w i : Nat) : Nat := field (stored s index sub) (w * i) w

/-- The counter at element `i` of a counting entry advanced by `k`, 8 bytes to the element. -/
def bump (index sub i k : Nat) (s : State) : State :=
  let b := stored s index sub
  store index sub (patch b (8 * i) (toLE 8 (field b (8 * i) 8 + k))) s

/-- A lane counter advanced (L+E0 to L+E9). -/
def lbump (n : LaneId) (off sub i k : Nat) (s : State) : State := bump (laneIdx n off) sub i k s

/-- A lifetime counter of a lane advanced, without wrap (R747, R756): 0 revolutions, 1 full steps, 2 layer jumps,
3 deadline overruns. -/
def lifeLane (n : LaneId) (i : Fin 4) (k : Nat) (s : State) : State :=
  { s with life := { s.life with
      lanes := vecModify s.life.lanes n (fun v => vecModify v i (fun x => min (x + k) (2 ^ 64 - 1))) } }

/-- A lifetime counter of the unit advanced, without wrap (R756). -/
def lifeUnit (i : Fin 8) (k : Nat) (s : State) : State :=
  { s with life := { s.life with unit := vecModify s.life.unit i (fun x => min (x + k) (2 ^ 64 - 1)) } }

/-! ### Sending -/

/-- The state with something sent. -/
def send (x : Sent) (s : State) : State := { s with sent := x :: s.sent }

/-- A Kyeri frame without its tag (R100). -/
def kyeriHeader (ty session seq status : Nat) (body : Bytes) : Bytes :=
  [0x4B, 0x59, 0x01, byte ty] ++ toLE 4 session ++ toLE 4 seq ++ toLE 2 body.length ++ toLE 2 status ++ body

/-- The tag of a frame under a session key (R108). -/
def kyeriTag (key frame : Bytes) : Bytes := (hmacSha384 key frame).take 16

/-! ### Events -/

/-- A field of an event's data, by its width in R836; `tail` is a serial number or an identity. -/
inductive EvField where
  | u8 (n : Nat) | u16 (n : Nat) | u32 (n : Nat) | s32 (i : Int) | u64 (n : Nat) | raw (b : Bytes) | tail (b : Bytes)
  deriving DecidableEq, Repr

/-- Bytes of a field that is not a tail. -/
def EvField.bytes : EvField → Bytes
  | .u8 n => toLE 1 n
  | .u16 n => toLE 2 n
  | .u32 n => toLE 4 n
  | .s32 i => toLEInt 4 i
  | .u64 n => toLE 8 n
  | .raw b => b
  | .tail _ => []

/-- Bytes of a field that is a tail, without padding spaces. -/
def EvField.tailBytes : EvField → Bytes
  | .tail b => b
  | _ => []

/-- The 16 data bytes of an event (R836): fields in order, the tail last and cut to the bytes left, zeros after. -/
def evData (fs : List EvField) : Bytes :=
  ((fs.flatMap EvField.bytes ++ fs.flatMap EvField.tailBytes) ++ List.replicate 16 0).take 16

/-- A serial number without its padding spaces. -/
def unpad (b : Bytes) : Bytes := (b.reverse.dropWhile (fun x => x == 0x20)).reverse

/-- The body of an EVENT frame (R102). -/
def eventBody (e : LogEntry) : Bytes := toLE 4 e.seq ++ toLE 2 e.code ++ [0, 0] ++ toLE 8 e.time ++ e.data

/-- An EVENT frame to the session in a slot whose class mask holds the event's class (R133), and its wait for the
EVENT-ACK (R136). -/
def sendEvent (e : LogEntry) (slot : Fin 8) (s : State) : State :=
  match s.dict.sessions[slot] with
  | none => s
  | some x =>
    if bit (cfg s 0x1121 (slot.val + 1)) (e.code / 0x1000) then
      let body := eventBody e
      let f := kyeriHeader 0x20 x.number (x.txSeq + 1) 0 body
      send (.kyeri x.port x.own x.addr x.uport (f ++ kyeriTag x.key f))
        { s with dict := { s.dict with
            sessions := s.dict.sessions.set slot (some { x with txSeq := x.txSeq + 1 })
            eventWaits := s.dict.eventWaits ++
              [{ slot := slot.val, seq := e.seq, body := body, sends := 1, tick := s.ticks }] } }
    else s

/-- An entry put into the log, the oldest overwritten when 65,536 stand (R763). -/
def logPut (e : LogEntry) (l : Log) : Log :=
  { entries := e :: l.entries.take 65535
    nextSeq := (l.nextSeq + 1) % 2 ^ 32
    overwritten := if l.entries.length < 65536 then l.overwritten else l.overwritten + 1 }

/-- A log entry appended with a source, flags and time of its own, and sent to the sessions (R133, R763); ALERT_N falls
for a class in 2010:05 (R798); a lifetime save falls due when the sequence has run 2^19 beyond the value last saved
(R750). -/
def logAppend (code source flags time : Nat) (data : Bytes) (s : State) : State :=
  let e : LogEntry :=
    { seq := s.log.nextSeq, code := code, source := source, flags := flags, time := time, data := data }
  let s1 := { s with log := logPut e s.log, alert := s.alert || bit (cfg s 0x2010 5) (code / 0x1000) }
  let s2 := if s1.life.lastSeq + 2 ^ 19 ≤ s1.log.nextSeq ∧ s1.life.due = none
    then { s1 with life := { s1.life with due := some false } } else s1
  (List.ofFn (fun i : Fin 8 => i)).foldl (fun a i => sendEvent e i a) s2

/-- An event of this device (R30, R133, R762). -/
def raise (code : Nat) (fs : List EvField) (s : State) : State :=
  logAppend code 0 (b2n s.cal.unset) (timeNow s) (evData fs) s

/-! ### Rings, faults and the safe condition -/

/-- A completion is a fault. -/
def Completion.isFault : Completion → Bool
  | .fault _ _ => true
  | _ => false

/-- A ring of 64 completions (R36). DESIGN CHOICE (log 73): one more than 64 puts out the oldest result that is no fault. -/
def ringKeep (l : List Completion) : List Completion :=
  (if l.length ≤ 64 then l else removeFirst (fun c => !c.isFault) l).take 64

/-- A result posted to a lane's completion ring (R36, R48). -/
def postCompletion (n : LaneId) (c : Completion) (s : State) : State :=
  setLane n (fun l => { l with flt := { l.flt with completions := ringKeep (l.flt.completions ++ [c]) } }) s

/-- Level 3 collects the results in a lane's ring (R35, R48); the faults are left for LANE_FAULT. -/
def collect (n : LaneId) (s : State) : State :=
  setLane n (fun l => { l with flt := { l.flt with completions := l.flt.completions.filter Completion.isFault } }) s

/-- An order posted to a lane's order ring (R36). DESIGN CHOICE (log 73): a ring that holds 64 takes no more. -/
def postOrder (n : LaneId) (o : Order) (s : State) : State :=
  setLane n (fun l => { l with flt := { l.flt with orders := (l.flt.orders ++ [o]).take 64 } }) s

/-- An order taken from a lane's ring and reported taken (R36, R37). -/
def takeOrder (n : LaneId) (o : Order) (s : State) : State :=
  postCompletion n (.taken o)
    (setLane n (fun l => { l with flt := { l.flt with orders := removeFirst (fun x => decide (x = o)) l.flt.orders } }) s)

/-- Level 3 posts an order whose sequencer stands at its boundary, and takes up and carries out the order at once (R35, R37). -/
def orderNow (n : LaneId) (o : Order) (f : State → State) (s : State) : State :=
  let s1 := postOrder n o (collect n s)
  if (laneAt s1 n).flt.orders.contains o then f (takeOrder n o s1) else s1

/-- A lane's state changed (R140, R175). -/
def enter (n : LaneId) (st : LaneState) (s : State) : State :=
  let t := timeNow s
  setLane n (fun l =>
    if l.life.st = st then l
    else { l with life := { l.life with st := st, prev := l.life.st, changed := t } }) s

/-- Level 2 closes or opens the three axes of a lane (R387). -/
def setClosed (n : LaneId) (f t k : Bool) (s : State) : State :=
  setLane n (fun l => { l with loop := { l.loop with closed := #v[f, t, k] } }) s

/-- The lane is above PARKED (R140): SPUN to HOLDING. -/
def abovePark (st : LaneState) : Bool := decide (2 ≤ st.code ∧ st.code ≤ 8)

/-- The lane is READY or above and not in FAULT. -/
def readyUp (st : LaneState) : Bool := decide (5 ≤ st.code ∧ st.code ≤ 8)

end Sys2Proof.Machine
end

