-- ==== Sys2Proof/Machine/Health.lean ====
section
/-! DEFINITION. Health of the device, fail-stops and what keeps a device reset due (R661, R742, R743). -/

namespace Sys2Proof.Machine

/-- A dictionary effect: the state it leaves, or the status that rejects it (R29, R88). -/
abbrev Eff := Except Nat State

/-- Health ends: ALIVE stops toggling and HOLD falls, in hardware (R661). -/
def loseHealth (s : State) : State :=
  { s with
    pair := { s.pair with alive := false, hold := false, demand := false }
    sup := { s.sup with resetDue := true } }

/-- The other of two slots. -/
def otherSlot (r : Fin 2) : Fin 2 := if r = 0 then 1 else 0

/-- The slot directory updated (R717): the copy that does not hold the higher generation is written. -/
def dirUpdate (f : Directory → Directory) (s : State) : State :=
  { s with fw := { s.fw with dir :=
      let d := f s.fw.dir
      { d with
        genA := if s.fw.dir.genA ≤ s.fw.dir.genB then s.fw.dir.genB + 1 else s.fw.dir.genA
        genB := if s.fw.dir.genA ≤ s.fw.dir.genB then s.fw.dir.genB else s.fw.dir.genA + 1 } } }

/-- A slot changed, with the directory. -/
def setSlot (r : Fin 2) (f : FlashSlot → FlashSlot) (s : State) : State :=
  dirUpdate id { s with fw := { s.fw with slots := s.fw.slots.set r (f s.fw.slots[r]) } }

/-- The running slot is TRIAL: the previous slot becomes the boot slot, and the trial slot VALID (R742). -/
def trialBack (s : State) : State :=
  match s.fw.running with
  | none => s
  | some r =>
    if s.fw.slots[r].st = 4 then
      let o := otherSlot r
      let slots := (s.fw.slots.set r { s.fw.slots[r] with st := 2 }).set o { s.fw.slots[o] with st := 5 }
      dirUpdate (fun d => { d with boot := o.val }) { s with
        fw := { s.fw with slots := slots, fallbacks := s.fw.fallbacks + 1 }
        island := { s.island with trialFailed := true } }
    else s

/-- A fail-stop (R743): health ends, the cause is kept in the always-on island, and a device reset follows. -/
def failStop (cause : Nat) (s : State) : State :=
  if s.sup.resetDue then s
  else
    let s1 := trialBack (loseHealth s)
    lifeUnit 7 1 { s1 with island := { s1.island with cause := some cause } }

end Sys2Proof.Machine
end

