-- ==== Sys2Proof/Machine/LineCode.lean ====
section
/-! DEFINITION. The line code of buffer memory (R601, R605-R608): a Reed-Solomon code of 40 symbols over GF(2^16). -/

namespace Sys2Proof.Machine

/-- Product by x in GF(2^16) (R605). -/
def gfDouble (a : Nat) : Nat := if a < 32768 then 2 * a else (2 * a) ^^^ 0x1100B

/-- Product in GF(2^16), over `n` bits of the second factor. -/
def gfMulBits : Nat → Nat → Nat → Nat
  | 0, _, _ => 0
  | n + 1, a, b => (if b % 2 = 1 then a else 0) ^^^ gfMulBits n (gfDouble a) (b / 2)

/-- Product in GF(2^16). -/
def gfMul (a b : Nat) : Nat := gfMulBits 16 a b

/-- Power in GF(2^16), over `n` bits of the exponent. -/
def gfPowBits : Nat → Nat → Nat → Nat
  | 0, _, _ => 1
  | n + 1, a, e => gfMul (if e % 2 = 1 then a else 1) (gfPowBits n (gfMul a a) (e / 2))

/-- Power in GF(2^16). -/
def gfPow (a e : Nat) : Nat := gfPowBits 16 a e

/-- Inverse of a non-zero element. -/
def gfInv (a : Nat) : Nat := gfPow a 65534

/-- β to a power (R605). -/
def beta (k : Nat) : Nat := gfPow 2 k

/-- A polynomial, highest coefficient first, times (x + r). -/
def polyTimesRoot (p : List Nat) (r : Nat) : List Nat :=
  List.zipWith (fun a b => a ^^^ b) (p ++ [0]) (0 :: p.map (gfMul r))

/-- g(x) without its leading 1 (R605). -/
def lineGenerator : List Nat := ((upTo 8).foldl (fun p k => polyTimesRoot p (beta k)) [1]).tail

/-- Division register of the encoder fed with data symbols, highest first. -/
def lineRemainder (g : List Nat) : List Nat → List Nat → List Nat
  | [], r => r
  | d :: ds, r =>
    let q := d ^^^ r.headD 0
    lineRemainder g ds (List.zipWith (fun a b => a ^^^ gfMul q b) (r.tail ++ [0]) g)

/-- The 8 check symbols of 32 data symbols (R605). -/
def lineCheck (data : List Nat) : List Nat := lineRemainder lineGenerator data (List.replicate 8 0)

/-- Value of the word's polynomial at a point. -/
def polyAt (x : Nat) (w : List Nat) : Nat := w.foldl (fun a c => gfMul a x ^^^ c) 0

/-- The 8 syndromes of a word. -/
def syndromes (w : List Nat) : List Nat := (upTo 8).map (fun j => polyAt (beta j) w)

/-- The nibble of a data device at a beat: device `d` of 0-7 on the half that starts at byte `base` (R601, R606). -/
def deviceNibble (b : Bytes) (base d n : Nat) : Nat :=
  let v := (b.getD (base + 4 * n + d / 2) 0).toNat
  if d % 2 = 0 then v % 16 else v / 16

/-- Four nibbles as a symbol. -/
def nibbleSymbol (b : Bytes) (base d n : Nat) : Nat :=
  deviceNibble b base d n + 16 * deviceNibble b base d (n + 1) + 256 * deviceNibble b base d (n + 2) +
    4096 * deviceNibble b base d (n + 3)

/-- The 32 data symbols of 64 bytes (R606). -/
def dataSymbols (b : Bytes) : List Nat :=
  (upTo 32).map (fun k => nibbleSymbol b (if k < 16 then 0 else 32) (k % 16 / 2) (if k % 2 = 0 then 0 else 4))

/-- Nibble of a byte position from data symbols: byte `i` of 64, low or high. -/
def symbolNibble (w : List Nat) (i : Nat) (high : Bool) : Nat :=
  let d := 2 * (i % 4) + b2n high
  let n := i % 32 / 4
  let k := 16 * (i / 32) + 2 * d + n / 4
  w.getD k 0 / 16 ^ (n % 4) % 16

/-- The 64 bytes of 32 data symbols. -/
def symbolBytes (w : List Nat) : Bytes := (upTo 64).map (fun i => byte (symbolNibble w i false + 16 * symbolNibble w i true))

/-- The 40 symbols of a stored line of 80 bytes: check symbol c at bytes 64 + 2c, little-endian. -/
def lineSymbols (b : Bytes) : List Nat := dataSymbols (b.take 64) ++ (upTo 8).map (fun c => field b (64 + 2 * c) 2)

/-- The mask of a poison kind (R607): 1 host, 2 memory. -/
def poisonMask (k : Nat) : Nat := if k = 1 then 0x8D3B else if k = 2 then 0x72C4 else 0

/-- The stored line of data and poison kind: fresh check symbols with the mask applied. -/
def encodeLine (data : Bytes) (poison : Nat) : Bytes :=
  data ++ (lineCheck (dataSymbols data)).flatMap (fun c => toLE 2 (c ^^^ poisonMask poison))

/-- A word with its check symbols masked. -/
def maskWord (k : Nat) (w : List Nat) : List Nat := w.take 32 ++ (w.drop 32).map (fun c => c ^^^ poisonMask k)

/-- First symbol of a device by its position 0-19 (R606); its second symbol follows. -/
def deviceSymbol (d : Nat) : Nat :=
  if d < 8 then 2 * d else if d < 10 then 32 + 2 * (d - 8) else if d < 18 then 16 + 2 * (d - 10) else 36 + 2 * (d - 18)

/-- The word corrected on device `d` alone, if a codeword lies there. -/
def correctDevice (w syn : List Nat) (d : Nat) : Option (List Nat) :=
  let k := deviceSymbol d
  let x1 := beta (39 - k)
  let x2 := beta (38 - k)
  let s0 := syn.getD 0 0
  let s1 := syn.getD 1 0
  let e2 := gfMul (s1 ^^^ gfMul s0 x1) (gfInv (x1 ^^^ x2))
  let e1 := s0 ^^^ e2
  if (upTo 8).all (fun j => syn.getD j 0 == (gfMul e1 (gfPow x1 j) ^^^ gfMul e2 (gfPow x2 j))) then
    some ((w.set k (w.getD k 0 ^^^ e1)).set (k + 1) (w.getD (k + 1) 0 ^^^ e2))
  else none

/-- A word decoded (R608): the codeword and the device corrected, if any. -/
def decodeWord (w : List Nat) : Option (List Nat × Option Nat) :=
  let syn := syndromes w
  if syn.all (fun v => v == 0) then some (w, none)
  else (upTo 20).findSome? (fun d => (correctDevice w syn d).map (fun v => (v, some d)))

/-- Results of a line's decoding (R608). -/
inductive LineResult where
  | good (data : Bytes)
  | corrected (data : Bytes) (device : Nat)
  | stored (data : Bytes) (kind : Nat)
  | uncorrectable (data : Bytes)
  deriving DecidableEq, Repr

/-- A stored line decoded by the table of R608. -/
def decodeLine (b : Bytes) : LineResult :=
  let w := lineSymbols b
  match decodeWord w, decodeWord (maskWord 1 w), decodeWord (maskWord 2 w) with
  | some (_, none), _, _ => .good (b.take 64)
  | some (v, some d), none, none => .corrected (symbolBytes v) d
  | none, some (v, _), none => .stored (symbolBytes v) 1
  | none, none, some (v, _) => .stored (symbolBytes v) 2
  | _, _, _ => .uncorrectable (b.take 64)

end Sys2Proof.Machine
end

