-- ==== Sys2Proof/Machine/Memory.lean ====
section
/-! DEFINITION. Buffer memory: its map, its lines and their decoding (R597-R611, R625-R629). -/

namespace Sys2Proof.Machine

/-! ### Address space (R597-R604) -/

/-- Bytes of one channel: 2 subchannels of 8 data devices per rank. -/
def channelBytes (c : DdrChannel) : Nat := if c.ready then c.ranks * c.density * 2 ^ 31 else 0

/-- Channels in use, rising. -/
def channelsUsed (m : Memory) : List Nat := (upTo 2).filter (fun c => if c = 0 then m.chan[0].ready else m.chan[1].ready)

/-- Buffer size (2300:01). -/
def bufferSize (m : Memory) : Nat := channelBytes m.chan[0] + channelBytes m.chan[1]

/-- Size of a CMB in bytes. -/
def cmbBytes (m : Memory) (p : PortId) : Nat := m.cmb[p] * 2 ^ 24

/-- Base and size of a region by its kind (R602). -/
def regionOf (m : Memory) (k : Nat) : Nat × Nat :=
  let fw := 2 ^ 29
  let rd := 2 ^ 32
  let a := cmbBytes m 0
  let b := cmbBytes m 1
  if k = 0 then (0, fw) else if k = 1 then (fw, rd) else if k = 2 then (fw + rd, a)
  else if k = 3 then (fw + rd + a, b) else (fw + rd + a + b, bufferSize m - (fw + rd + a + b))

/-- Kind of the region of an address. -/
def regionKind (m : Memory) (a : Nat) : Nat :=
  if a < 2 ^ 29 then 0
  else if a < 2 ^ 29 + 2 ^ 32 then 1
  else if a < 2 ^ 29 + 2 ^ 32 + cmbBytes m 0 then 2
  else if a < 2 ^ 29 + 2 ^ 32 + cmbBytes m 0 + cmbBytes m 1 then 3 else 4

/-- Channel and pair index of a line (R600). -/
def linePlace (m : Memory) (line : Nat) : Nat × Nat :=
  match channelsUsed m with
  | [c] => (c, line / 2)
  | _ => (line / 2 % 2, line / 4)

/-- Rank of a pair index on its channel: the ranks follow one another in equal parts. -/
def lineRank (m : Memory) (line : Nat) : Nat :=
  match linePlace m line with
  | (c, p) =>
    let ch := if c = 0 then m.chan[0] else m.chan[1]
    if ch.ranks = 2 then p / (ch.density * 2 ^ 24) else 0

/-- The address lies in the buffer. -/
def inBuffer (m : Memory) (a : Nat) : Bool := decide (a < bufferSize m)

/-! ### Bytes of lines -/

/-- A line was last filled with M_H applied and has not been written since. -/
def hostFilledAt (m : Memory) (line : Nat) : Bool := m.hostFilled.any (fun r => decide (r.1 ≤ line ∧ line < r.1 + r.2))

/-- What byte `i` of a line reads as when no cell lists it: zeros with valid check symbols, or with M_H applied where the
line belongs to a range so filled (R612). -/
def unlisted (m : Memory) (a : Nat) : Byte :=
  if 64 ≤ a % 80 ∧ hostFilledAt m (a / 80) then (if a % 2 = 0 then 0x3B else 0x8D) else 0

/-- One stored byte, by its address 80 * line + byte. -/
def memByte (m : Memory) (a : Nat) : Byte := (mapGet m.cells a).getD (unlisted m a)

/-- One stored byte set; the canonical form is kept. -/
def memSet (a : Nat) (v : Byte) (m : Memory) : Memory :=
  { m with cells := if v = unlisted m a then mapErase m.cells a else mapSet m.cells a v }

/-- The 80 stored bytes of a line. -/
def memLine (m : Memory) (line : Nat) : Bytes := (upTo 80).map (fun i => memByte m (80 * line + i))

/-- Stored bytes set from an address on. -/
def memSets : Nat → Bytes → Memory → Memory
  | _, [], m => m
  | a, b :: bs, m => memSets (a + 1) bs (memSet a b m)

/-- A line stored with its poison mark (R605, R607). -/
def memStore (line : Nat) (data : Bytes) (poison : Nat) (m : Memory) : Memory :=
  memSets (80 * line) (encodeLine ((data ++ List.replicate 64 0).take 64) poison) m

/-- Upsets of stored bytes: byte of a pair's 160 and the bits that change. -/
def memUpset (pair : Nat) : List (Nat × Nat) → Memory → Memory
  | [], m => m
  | (i, x) :: rest, m => memUpset pair rest (memSet (160 * pair + i % 160) (memByte m (160 * pair + i % 160) ^^^ byte x) m)

/-- The canonical form of the memory: addresses strictly rising, and no entry equal to what an unlisted address reads as. -/
def Memory.wf (m : Memory) : Bool := mapSorted m.cells && m.cells.all (fun c => decide (c.2 ≠ unlisted m c.1))

/-- Entries of a range of lines forgotten, and the range filled with M_H applied (R612, R613). -/
def fillHost (first count : Nat) (m : Memory) : Memory :=
  let keep := m.cells.filter (fun c => !decide (first ≤ c.1 / 80 ∧ c.1 / 80 < first + count))
  { m with cells := keep, hostFilled := if count = 0 then m.hostFilled else (first, count) :: m.hostFilled }

/-! ### Counting and events -/

/-- Device's place in 2320:04. -/
def deviceIndex (m : Memory) (line d : Nat) : Nat := 40 * (linePlace m line).1 + 20 * lineRank m line + d

/-- Event 3001, at most 64 times in any second (R629): found by 0 demand read, 1 lap, 2 pass. -/
def raiseUncorrectable (line found : Nat) (s : State) : State :=
  let recent := s.mem.recent.filter (fun t => decide (s.ticks < t + secTicks 1))
  if 64 ≤ recent.length then bump 0x2320 7 0 1 { s with mem := { s.mem with recent := recent } }
  else
    raise 0x3001 [.u64 (64 * line), .u8 found, .u8 (linePlace s.mem line).1, .u8 (lineRank s.mem line)]
      { s with mem := { s.mem with recent := s.ticks :: recent } }

/-- A correction on a device counted (R608, R611). -/
def countCorrection (line d : Nat) (s : State) : State :=
  let i := deviceIndex s.mem line d
  let k := (mapGet s.mem.corrections i).getD 0 + 1
  let s1 := lifeUnit 5 1 (bump 0x2320 1 0 1 { s with mem := { s.mem with corrections := mapSet s.mem.corrections i k } })
  if cfg s 0x2320 5 ≤ k ∧ !s.mem.degraded.contains i then
    raise 0x3002 [.u8 (i / 40), .u8 (i / 20 % 2), .u8 (i % 20), .u32 k]
      { s1 with mem := { s1.mem with degraded := i :: s1.mem.degraded } }
  else s1

/-- Line reads in a row that decoded uncorrectable on a channel (R599). -/
def countBadRead (line : Nat) (bad : Bool) (s : State) : State :=
  let c : PortId := Fin.ofNat 2 (linePlace s.mem line).1
  { s with mem := { s.mem with
      chan := vecModify s.mem.chan c (fun x => { x with badReads := if bad then x.badReads + 1 else 0 }) } }

/-- The result of decoding a line with its data and mark (R608), counted, and written back where R610 says. -/
def fetchLine (found line : Nat) (s : State) : (Bytes × Nat) × LineResult × State :=
  let r := decodeLine (memLine s.mem line)
  match r with
  | .good d => ((d, 0), r, countBadRead line false s)
  | .corrected d dev =>
    ((d, 0), r, countCorrection line dev (countBadRead line false { s with mem := memStore line d 0 s.mem }))
  | .stored d k => ((d, k), r, bump 0x2320 3 (k - 1) 1 (countBadRead line false s))
  | .uncorrectable d =>
    ((d, 2), r, raiseUncorrectable line found (lifeUnit 6 1 (bump 0x2320 2 0 1
      (countBadRead line true { s with mem := memStore line d 2 s.mem }))))

/-- A line read by demand, with its partner, which the burst also brings (R601, R610). -/
def demandRead (line : Nat) (s : State) : (Bytes × Nat) × State :=
  match fetchLine 0 line s with
  | (v, _, s1) => (v, (fetchLine 0 (line ^^^ 1) s1).2.2)

/-- A line written back to memory with its mark: the partner is read first (R601, R626, R636). -/
def demandWrite (line : Nat) (data : Bytes) (poison : Nat) (s : State) : State :=
  let s1 := (fetchLine 0 (line ^^^ 1) s).2.2
  { s1 with mem := memStore line data poison s1.mem }

end Sys2Proof.Machine
end

