-- ==== Sys2Proof/Machine/Cache.lean ====
section
/-! DEFINITION. The buffer cache (R631-R658): mapping, replacement, fills, write-backs, way modes and maintenance. -/

namespace Sys2Proof.Machine

/-! ### Mapping (R632) -/

/-- Tag of a line. -/
def tagOf (line : Nat) : Nat := line / 2 ^ 15

/-- The fold of a tag into a set number. -/
def tagFold (t : Nat) : Nat := (t % 2 ^ 15) ^^^ (t / 2 ^ 15 % 2 * 2 ^ 14)

/-- Set of a line. -/
def setOf (line : Nat) : Nat := (line % 2 ^ 15) ^^^ tagFold (tagOf line)

/-- Bank of a line. -/
def bankOf (line : Nat) : Fin 16 := Fin.ofNat 16 (setOf line)

/-- The line of a set and tag. -/
def lineOf (set tag : Nat) : Nat := tag * 2 ^ 15 + (set ^^^ tagFold tag)

/-! ### Slots -/

/-- A slot. -/
def slotAt (c : Cache) (set way : Nat) : CacheSlot := (mapGet c.slots (16 * set + way)).getD CacheSlot.empty

/-- A slot set. -/
def slotSet (set way : Nat) (x : CacheSlot) (c : Cache) : Cache :=
  { c with slots := if x = CacheSlot.empty then mapErase c.slots (16 * set + way) else mapSet c.slots (16 * set + way) x }

/-- Mode of a way in force: 0 cache, 1 locked, 2 scratchpad, 3 off. -/
def wayMode (c : Cache) (way : Nat) : Nat := c.modes.getD way 3

/-- Mode that a way has or is changing to. -/
def wayGoal (c : Cache) (way : Nat) : Nat :=
  match c.change with
  | some l => l.getD way 3
  | none => wayMode c way

/-- The way that holds a line. -/
def findWay (c : Cache) (line : Nat) : Option Nat :=
  (upTo 16).find? (fun w =>
    let x := slotAt c (setOf line) w
    decide (wayMode c w ≤ 1) && x.valid && decide (x.tag = tagOf line))

/-- Ways whose slots a fill may take: in cache mode, and not being cleaned for a change (R638, R646). -/
def fillWays (c : Cache) : List Nat := (upTo 16).filter (fun w => wayMode c w = 0 && decide (wayGoal c w ≤ 1))

/-- Age of the oldest of a set's candidates. -/
def oldestAge (c : Cache) (set : Nat) : Nat := (fillWays c).foldl (fun a w => max a (slotAt c set w).age) 0

/-- The victim of R638 and the cache with the ages advanced. -/
def victim (set : Nat) (c : Cache) : Nat × Cache :=
  match (fillWays c).find? (fun w => !(slotAt c set w).valid) with
  | some w => (w, c)
  | none =>
    let d := 3 - oldestAge c set
    let c1 := (fillWays c).foldl (fun a w => slotSet set w { slotAt a set w with age := (slotAt a set w).age + d } a) c
    (((fillWays c1).find? (fun w => (slotAt c1 set w).age = 3)).getD 0, c1)

/-- Age at which a line of a region enters (R639). -/
def entryAge (s : State) (line : Nat) : Nat := if elem s 0x2402 1 1 (regionKind s.mem (64 * line)) = 1 then 3 else 1

/-- A cache change in the state. -/
def setCache (f : Cache → Cache) (s : State) : State := { s with cache := f s.cache }

/-! ### Write-back buffer (R636, R642) -/

/-- The oldest line of the write-back buffer goes to memory. -/
def drainOne (s : State) : State :=
  match s.cache.wb with
  | [] => s
  | w :: rest =>
    bump 0x2430 3 0 1 (demandWrite w.line w.data w.poison (setCache (fun c => { c with wb := rest }) s))

/-- The write-back buffer emptied. -/
def drainAll (s : State) : State := (List.replicate s.cache.wb.length ()).foldl (fun a _ => drainOne a) s

/-- A slot emptied; a dirty line goes to the write-back buffer. -/
def evict (set way : Nat) (s : State) : State :=
  let x := slotAt s.cache set way
  if x.valid && x.dirty then
    setCache (fun c => slotSet set way { x with valid := false, dirty := false, data := [] }
      { c with wb := c.wb ++ [{ line := lineOf set x.tag, data := x.data, poison := x.poison }] }) s
  else s

/-- The write-back buffer has no entry free. -/
def wbFull (c : Cache) : Bool := decide (64 ≤ c.wb.length)

/-! ### Accesses -/

/-- Bytes merged into a line. -/
def mergeLine (old : Bytes) (off : Nat) (b : Bytes) : Bytes :=
  (patch ((old ++ List.replicate 64 0).take 64) off b).take 64

/-- A line installed. -/
def install (line way : Nat) (data : Bytes) (poison age : Nat) (dirty : Bool) (s : State) : State :=
  let streaming := elem s 0x2402 1 1 (regionKind s.mem (64 * line))
  bump 0x2430 2 (if streaming = 1 then 1 else 0) 1
    (setCache (slotSet (setOf line) way
      { tag := tagOf line, valid := true, dirty := dirty, age := age, poison := poison, data := data }) s)

/-- The fill of a miss arrives: the pair is read, the line installed, the waiting write merged, the bank unblocked
(R636, R637, R641). A write of the whole line needs no read (R635). -/
def completeFill (b : Fin 16) (s : State) : State :=
  match s.cache.misses[b] with
  | none => s
  | some m =>
    let set := setOf m.line
    let s1 := evict set m.way (drainAll s)
    let s2 := match m.write with
      | some (off, d) =>
        if off = 0 ∧ 64 ≤ d.length then install m.line m.way (d.take 64) 0 (entryAge s1 m.line) true s1
        else
          match demandRead m.line s1 with
          | ((old, p), t) => install m.line m.way (mergeLine old off d) p (entryAge t m.line) true t
      | none =>
        match demandRead m.line s1 with
        | ((old, p), t) => install m.line m.way old p (entryAge t m.line) false t
    bump 0x2430 4 0 (tickNs (s.ticks - m.tick))
      (setCache (fun c => { c with misses := c.misses.set b none }) s2)

/-- A line brought into the cache, at once: for the consumers inside the device. -/
def ensureLine (line : Nat) (s : State) : Nat × State :=
  let s0 := completeFill (bankOf line) s
  match findWay s0.cache line with
  | some w =>
    (w, bump 0x2430 1 0 1 (setCache (fun c => slotSet (setOf line) w { slotAt c (setOf line) w with age := 0 } c) s0))
  | none =>
    match victim (setOf line) s0.cache with
    | (w, c1) =>
      let s1 := evict (setOf line) w (drainAll (bump 0x2430 1 1 1 { s0 with cache := c1 }))
      match demandRead line s1 with
      | ((d, p), s2) => (w, install line w d p (entryAge s2 line) false s2)

/-- A line read through the cache: data and mark. -/
def lineGet (line : Nat) (s : State) : (Bytes × Nat) × State :=
  if s.cache.serving then
    match ensureLine line s with
    | (w, s1) => let x := slotAt s1.cache (setOf line) w; ((x.data, x.poison), s1)
  else demandRead line s

/-- A whole line written through the cache with its mark (R614, R635). -/
def linePut (line : Nat) (data : Bytes) (poison : Nat) (s : State) : State :=
  if s.cache.serving then
    let s0 := completeFill (bankOf line) s
    match findWay s0.cache line with
    | some w =>
      bump 0x2430 1 0 1 (setCache (slotSet (setOf line) w
        { tag := tagOf line, valid := true, dirty := true, age := 0, poison := poison, data := data }) s0)
    | none =>
      match victim (setOf line) s0.cache with
      | (w, c1) =>
        install line w data poison (entryAge s0 line) true
          (evict (setOf line) w (drainAll (bump 0x2430 1 1 1 { s0 with cache := c1 })))
  else demandWrite line data poison s

/-- Part of a line written through the cache: the merged line keeps its mark, or takes the write's (R614, R617). -/
def linePart (line off : Nat) (b : Bytes) (mark : Nat) (s : State) : State :=
  if off = 0 ∧ 64 ≤ b.length then linePut line (b.take 64) mark s
  else
    match lineGet line s with
    | ((old, p), s1) => linePut line (mergeLine old off b) (if p = 0 then mark else p) s1

/-- Bytes written from an address on, with a mark for every line that they touch. -/
def bufferWrite : Nat → Nat → Bytes → Nat → State → State
  | 0, _, _, _, s => s
  | fuel + 1, a, b, mark, s =>
    if b.isEmpty then s
    else
      let k := 64 - a % 64
      bufferWrite fuel (a + k) (b.drop k) mark (linePart (a / 64) (a % 64) (b.take k) mark s)

/-- Bytes read from an address on, with the mark of the first line that carries one: 0 none, 1 host, 2 memory. -/
def bufferRead : Nat → Nat → Nat → State → (Bytes × Nat) × State
  | 0, _, _, s => (([], 0), s)
  | fuel + 1, a, n, s =>
    if n = 0 then (([], 0), s)
    else
      let k := min n (64 - a % 64)
      match lineGet (a / 64) s with
      | ((d, p), s1) =>
        match bufferRead fuel (a + k) (n - k) s1 with
        | ((rest, q), s2) => ((slice d (a % 64) k ++ rest, if p = 0 then q else p), s2)

/-- A poisoned firmware line is repaired from its other copy; with both poisoned the data is lost and the device
fail-stops (R604, R620). -/
def firmwareRepair (line : Nat) (s : State) : State :=
  match lineGet (line ^^^ 2) s with
  | ((d, p), s1) =>
    if p = 0 then bump 0x2320 6 0 1 (linePut line d 0 s1)
    else failStop 2 (raise 0x3005 [.u64 (64 * line)] s1)

/-- Array errors at a hit (R655): word 0-7 of the data or 8 for the tag word, and the number of bits in error. None:
the slot was lost and the access misses. -/
def arrayErrors (line way : Nat) : List (Nat × Nat) → State → State
  | [], s => s
  | (w, k) :: rest, s =>
    let set := setOf line
    let x := slotAt s.cache set way
    let s1 :=
      if k = 0 then s
      else if k = 1 then bump 0x2430 7 0 1 s
      else if w < 8 then
        raise 0x3009 [.u32 set, .u8 way] (bump 0x2430 8 0 1
          (setCache (slotSet set way { x with poison := 2, dirty := true }) s))
      else if x.dirty then failStop 3 (raise 0x3010 [.u32 set, .u8 way] (bump 0x2430 8 0 1 s))
      else bump 0x2430 8 0 1 (setCache (slotSet set way { x with valid := false }) s)
    arrayErrors line way rest s1

/-- A request that misses: the bank blocks with its victim chosen (R638, R641). -/
def startMiss (line : Nat) (w : Option (Nat × Bytes)) (s : State) : State :=
  match victim (setOf line) s.cache with
  | (way, c1) =>
    let whole := match w with
      | some (off, d) => decide (off = 0 ∧ 64 ≤ d.length)
      | none => false
    let s1 := bump 0x2430 1 1 1 { s with cache := c1 }
    if whole && !(wbFull c1 && (slotAt c1 (setOf line) way).dirty) then
      install line way ((w.map (fun q => q.2.take 64)).getD []) 0 (entryAge s1 line) true (evict (setOf line) way s1)
    else
      let miss : Miss := { line := line, way := way, write := w, tick := s.ticks }
      setCache (fun c => { c with misses := c.misses.set (bankOf line) (some miss) }) s1

/-- CACHE_ACCESS (R635-R641, R646, R655): a read of the line at an address, or a write of bytes from that address on
within its line. A blocked bank serves nothing. -/
def cacheAccess (addr : Nat) (data : Option Bytes) (flips : List (Nat × Nat)) (s : State) : State :=
  let line := addr / 64
  let set := setOf line
  if !s.cache.serving ∨ s.cache.misses[bankOf line].isSome then s
  else
    let w := data.map (fun d => (addr % 64, d.take (64 - addr % 64)))
    let s1 := match findWay s.cache line with
      | some way => arrayErrors line way flips s
      | none => s
    match findWay s1.cache line with
    | none => startMiss line w s1
    | some way =>
      let x := slotAt s1.cache set way
      match w with
      | none =>
        let s2 := bump 0x2430 1 0 1 (setCache (slotSet set way { x with age := 0 }) s1)
        if x.poison ≠ 0 ∧ regionKind s.mem addr = 0 then firmwareRepair line s2 else s2
      | some (off, d) =>
        let whole := decide (off = 0 ∧ 64 ≤ d.length)
        bump 0x2430 1 0 1 (setCache (slotSet set way
          { x with age := 0, dirty := true, data := mergeLine x.data off d, poison := if whole then 0 else x.poison }) s1)

/-- CACHE_ACCESS. -/
def execCacheAccess (addr : Nat) (data : Option Bytes) (flips : List (Nat × Nat)) (s : State) :
    Host.Outcome State Fault Refusal :=
  if s.cache.serving && !inBuffer s.mem addr then .fault (.noSuchAddress addr) else .next (cacheAccess addr data flips s)

/-! ### Maintenance (R649-R654) -/

/-- A slot's line written to memory and made clean. -/
def cleanSlot (set way : Nat) (s : State) : State :=
  let x := slotAt s.cache set way
  if x.valid && x.dirty then
    bump 0x2430 3 0 1 (demandWrite (lineOf set x.tag) x.data x.poison
      (setCache (slotSet set way { x with dirty := false }) s))
  else s

/-- A slot's VALID cleared. -/
def dropSlot (set way : Nat) (s : State) : State :=
  setCache (slotSet set way { slotAt s.cache set way with valid := false, dirty := false, data := [] }) s

/-- Counts of the order in progress. -/
def maintCount (written invalidated locked : Nat) (s : State) : State :=
  setCache (fun c => { c with maint := { c.maint with
    reached := c.maint.reached + 1, written := c.maint.written + written
    invalidated := c.maint.invalidated + invalidated, locked := c.maint.locked + locked } }) s

/-- One slot taken by an order of operation 1, 2 or 3 (R650, R651). -/
def maintSlot (op set way : Nat) (s : State) : State :=
  let x := slotAt s.cache set way
  let lock := decide (wayMode s.cache way = 1)
  if !x.valid ∨ 2 ≤ wayMode s.cache way then s
  else if op = 1 then maintCount (b2n x.dirty) 0 0 (cleanSlot set way s)
  else
    let clean := decide (op = 3) || lock
    let s1 := if clean then cleanSlot set way s
      else if x.dirty then bump 0x2430 5 0 1 s else s
    let s2 := if lock then bump 0x2430 6 0 1 s1 else s1
    maintCount (b2n (clean && x.dirty)) 1 (b2n lock) (dropSlot set way s2)

/-- One line loaded (R650, operation 4). -/
def maintLoad (way line : Nat) (s : State) : State :=
  let set := setOf line
  match findWay s.cache line with
  | some w =>
    let x := slotAt s.cache set w
    if w = way then maintCount 0 0 0 (setCache (slotSet set w { x with age := 0 }) s)
    else
      let dirty := (slotAt s.cache set way).valid && (slotAt s.cache set way).dirty
      maintCount (b2n dirty) 0 0 (setCache (fun c => slotSet set way { x with age := 0 } (slotSet set w CacheSlot.empty c))
        (cleanSlot set way s))
  | none =>
    let dirty := (slotAt s.cache set way).valid && (slotAt s.cache set way).dirty
    match demandRead line (cleanSlot set way s) with
    | ((d, p), s1) => maintCount (b2n dirty) 0 0 (setCache (slotSet set way
        { tag := tagOf line, valid := true, dirty := false, age := 0, poison := p, data := d }) s1)

/-- A pair put into a list by its first component. -/
def insertBy (x : Nat × Nat × Nat) : List (Nat × Nat × Nat) → List (Nat × Nat × Nat)
  | [] => [x]
  | y :: rest => if x.1 ≤ y.1 then x :: y :: rest else y :: insertBy x rest

/-- The slots that an order reaches, in its order (R650): address or set, then set and way. -/
def reachedSlots (c : Cache) (m : Maint) : List (Nat × Nat × Nat) :=
  c.slots.foldl (fun acc p =>
    let set := p.1 / 16
    let way := p.1 % 16
    let line := lineOf set p.2.tag
    if m.byWay then
      if bit m.mask way ∧ m.start ≤ set ∧ set < m.start + m.length then insertBy (set, set, way) acc else acc
    else if p.2.valid ∧ m.start ≤ 64 * line ∧ 64 * line < m.start + m.length then insertBy (line, set, way) acc else acc) []

/-- An order carried out on every line that it reaches but those whose fill is in flight (R652, R653). -/
def maintRun (s : State) : State :=
  let m := s.cache.maint
  let flying := (List.ofFn (fun b : Fin 16 => s.cache.misses[b])).filterMap (fun x => x.map (fun q => q.line))
  let inRange (l : Nat) : Bool := decide (m.start ≤ 64 * l ∧ 64 * l < m.start + m.length)
  let late := if m.byWay then [] else flying.filter inRange
  let s1 := setCache (fun c => { c with maint := { c.maint with deferred := late } }) (drainAll s)
  if m.op = 4 then
    ((upTo (m.length / 64)).map (fun k => m.start / 64 + k)).foldl
      (fun a l => if late.contains l then a else maintLoad m.way l a) s1
  else (reachedSlots s1.cache m).foldl (fun a q => maintSlot m.op q.2.1 q.2.2 a) s1

/-- Checks of a maintenance order and its start (R649): the status that rejects it, or the order carried out. -/
def maintEffect (v : Bytes) (s : State) : Eff :=
  let op := field v 0 1
  let scope := field v 1 1
  let way := field v 2 1
  let mask := field v 4 2
  let start := field v 8 8
  let len := field v 16 8
  if s.cache.maint.state = 1 ∨ s.cache.change.isSome then .error 0x0501
  else if field v 3 1 ≠ 0 ∨ field v 6 2 ≠ 0 ∨ (scope = 0 ∧ mask ≠ 0) ∨ (op ≠ 4 ∧ way ≠ 0) then .error 0x0303
  else if op = 0 ∨ 4 < op ∨ 1 < scope then .error 0x0301
  else if op = 4 ∧ (scope = 1 ∨ 16 ≤ way ∨ wayMode s.cache way ≠ 0) then .error 0x0304
  else if scope = 0 ∧ (start % 64 ≠ 0 ∨ len % 64 ≠ 0 ∨ len < 64 ∨ bufferSize s.mem < start + len) then .error 0x0301
  else if scope = 1 ∧ (len = 0 ∨ 32768 < start + len) then .error 0x0301
  else
    .ok (maintRun (setCache (fun c => { c with maint := { Maint.idle with
      state := 1, op := op, byWay := decide (scope = 1), way := way, mask := mask, start := start, length := len } }) s))

/-- MAINTENANCE_COMPLETE (R651, R654): once no fill is awaited, the order is done; event 3011 where lines of locked ways
were invalidated. -/
def execMaintenanceComplete (s : State) : Host.Outcome State Fault Refusal :=
  let m := s.cache.maint
  if m.state = 1 ∧ m.deferred.isEmpty then
    let s1 := setCache (fun c => { c with maint := { c.maint with state := 2 } }) s
    .next (if m.locked = 0 then s1 else raise 0x3011 [.u32 m.locked, .u8 m.op, .u8 (b2n m.byWay)] s1)
  else .next s

/-- CACHE_FILL_COMPLETE (R636, R641, R653): upsets of the pair's stored bytes, then the fill, then an order that waited for
the line. A fill whose victim finds the write-back buffer full waits (R642). -/
def execCacheFillComplete (bank : Fin 16) (flips : List (Nat × Nat)) (s : State) : Host.Outcome State Fault Refusal :=
  match s.cache.misses[bank] with
  | none => .next s
  | some m =>
    if wbFull s.cache && (slotAt s.cache (setOf m.line) m.way).dirty then .next s
    else
      let s1 := completeFill bank { s with mem := memUpset (m.line / 2) flips s.mem }
      let s2 := if (slotAt s1.cache (setOf m.line) m.way).poison ≠ 0 ∧ regionKind s.mem (64 * m.line) = 0
        then firmwareRepair m.line s1 else s1
      if s2.cache.maint.deferred.contains m.line then
        let s3 := setCache (fun c => { c with maint := { c.maint with deferred := c.maint.deferred.erase m.line } }) s2
        match findWay s3.cache m.line with
        | some w => .next (if s3.cache.maint.op = 4 then maintLoad s3.cache.maint.way m.line s3
            else maintSlot s3.cache.maint.op (setOf m.line) w s3)
        | none => .next s3
      else .next s2

/-- WRITEBACK_DRAIN (R636, R642). -/
def execWritebackDrain (s : State) : Host.Outcome State Fault Refusal := .next (drainOne s)

/-! ### Way modes (R644-R648) -/

/-- Ways of a mode in a request. -/
def countMode (l : List Nat) (m : Nat) : Nat := (l.filter (fun x => x == m)).length

/-- The conditions of R644. -/
def modesOk (l : List Nat) : Bool :=
  decide (countMode l 1 ≤ 4) && decide (countMode l 2 ≤ 8) && decide (4 ≤ countMode l 0) &&
    (upTo 8).all (fun k => decide (l.getD (2 * k) 0 = 3) == decide (l.getD (2 * k + 1) 0 = 3))

/-- A change of way modes asked for (R644). -/
def wayModeEffect (v : Bytes) (s : State) : Eff :=
  let l := v.map (fun b => b.toNat)
  if s.cache.change.isSome ∨ s.cache.maint.state = 1 then .error 0x0501
  else if modesOk l then
    .ok (if s.cache.serving ∧ l ≠ s.cache.modes then setCache (fun c => { c with change := some l }) s else s)
  else .error 0x0304

/-- Slots of a way. -/
def slotsOfWay (c : Cache) (w : Nat) : List Nat := (c.slots.filter (fun p => p.1 % 16 = w)).map (fun p => p.1 / 16)

/-- One way's change (R645). -/
def changeWay (old new w : Nat) (s : State) : State :=
  let s1 := if old ≤ 1 ∧ 2 ≤ new then
      (slotsOfWay s.cache w).foldl (fun a set => cleanSlot set w a) s
    else s
  let s2 := if (old ≤ 1 ∧ 2 ≤ new) ∨ 2 ≤ old then
      setCache (fun c => { c with slots := c.slots.filter (fun p => decide (p.1 % 16 ≠ w)) }) s1
    else s1
  setCache (fun c => { c with modes := c.modes.set w new }) s2

/-- MODE_CHANGE_COMPLETE (R645, R646): the ways in increasing order. -/
def modeChangeComplete (s : State) : State :=
  match s.cache.change with
  | none => s
  | some l =>
    let s1 := drainAll s
    setCache (fun c => { c with change := none })
      ((upTo 16).foldl (fun a w => changeWay (wayMode a.cache w) (l.getD w 3) w a) s1)

/-- MODE_CHANGE_COMPLETE. -/
def execModeChangeComplete (s : State) : Host.Outcome State Fault Refusal := .next (modeChangeComplete s)

/-- Every dirty line written back and kept (R696 step 5). -/
def cacheCleanAll (s : State) : State :=
  (drainAll s).cache.slots.foldl (fun a p => if wayMode a.cache (p.1 % 16) ≤ 1 then cleanSlot (p.1 / 16) (p.1 % 16) a else a)
    (drainAll s)

/-- Tag words of a set (R634). -/
def tagWord (c : Cache) (set w : Nat) : Nat :=
  let x := slotAt c set w
  x.tag + 2 ^ 16 * b2n x.valid + 2 ^ 17 * b2n x.dirty + 2 ^ 18 * x.age + 2 ^ 20 * x.poison + 2 ^ 22 * wayMode c w

end Sys2Proof.Machine
end

