-- ==== Sys2Proof/Machine/Scrub.lean ====
section
/-! DEFINITION. Scrubbing, the Controller Memory Buffer, the fill and the loss of a channel (R544, R598, R599,
R612-R626). -/

namespace Sys2Proof.Machine

/-- Identifier of the controller of a port (R533). -/
def controllerId (p : PortId) : Nat := 1 + 2 * b2n Sys2Proof.Config.side + p.val

/-! ### Scrub (R621-R626) -/

/-- A summary with one line's result (R625). -/
def summaryLine (m : Memory) (line : Nat) (r : LineResult) (repaired : Bool) (x : Summary) : Summary :=
  let y := { x with lines := x.lines + 1 }
  let a := 64 * line
  match r with
  | .good _ => y
  | .corrected _ d =>
    let i := deviceIndex m line d
    { y with corrected := y.corrected + 1, devices := mapSet y.devices i ((mapGet y.devices i).getD 0 + 1) }
  | .stored _ k =>
    let z := { y with firstStored := if y.firstStored = 2 ^ 64 - 1 then a else y.firstStored }
    if k = 1 then { z with storedHost := z.storedHost + 1 } else { z with storedMemory := z.storedMemory + 1 }
  | .uncorrectable _ =>
    if repaired then { y with repaired := y.repaired + 1 }
    else { y with uncorrectable := y.uncorrectable + 1, lastBad := a,
                  firstBad := if y.firstBad = 2 ^ 64 - 1 then a else y.firstBad }

/-- Device with most corrections, and their count: the lowest on a tie, 0 for none. -/
def worstDevice (l : List (Nat × Nat)) : Nat × Nat := l.foldl (fun a p => if a.2 < p.2 then p else a) (0, 0)

/-- The 128 bytes of a summary (R625). -/
def summaryBytes (x : Summary) : Bytes :=
  let w := worstDevice x.devices
  toLE 8 x.start ++ toLE 8 x.length ++ toLE 8 x.began ++ toLE 8 x.ended ++ toLE 8 x.lines ++ toLE 8 x.corrected ++
    toLE 8 x.uncorrectable ++ toLE 8 x.storedHost ++ toLE 8 x.storedMemory ++ toLE 8 x.repaired ++ toLE 8 x.firstBad ++
    toLE 8 x.lastBad ++ toLE 8 x.firstStored ++ toLE 1 x.status ++ toLE 1 (w.1 / 40) ++ toLE 1 (w.1 / 20 % 2) ++
    toLE 1 (w.1 % 20) ++ toLE 4 w.2 ++ List.replicate 16 0

/-- One line scrubbed (R608, R610, R626): its result, and whether the cache repaired it. -/
def scrubLine (found line : Nat) (s : State) : LineResult × Bool × State :=
  match fetchLine found line s with
  | (_, r, s1) =>
    match r, findWay s.cache line with
    | .uncorrectable d, some w =>
      let x := slotAt s.cache (setOf line) w
      if x.poison = 0 then
        (r, true, setCache (slotSet (setOf line) w { x with dirty := true })
          { s1 with mem := { s1.mem with cells := s.mem.cells } })
      else (r, false, { s1 with mem := memStore line d x.poison s1.mem })
    | _, _ => (r, false, s1)

/-- The memory's lap or pass summary with one line's result. -/
def summarize (pass : Bool) (line : Nat) (r : LineResult) (rep : Bool) (s : State) : State :=
  if pass then { s with mem := { s.mem with pass := s.mem.pass.map (summaryLine s.mem line r rep) } }
  else { s with mem := { s.mem with lap := summaryLine s.mem line r rep s.mem.lap } }

/-- A pair scrubbed. -/
def scrubPair (pass : Bool) (pair : Nat) (s : State) : State :=
  let found := if pass then 2 else 1
  match scrubLine found (2 * pair) s with
  | (r, rep, s1) =>
    match scrubLine found (2 * pair + 1) (summarize pass (2 * pair) r rep s1) with
    | (r2, rep2, s2) => summarize pass (2 * pair + 1) r2 rep2 s2

/-- A pass ends (R624): status 0 complete, 1 by 2311:06, 2 by STAND, SLEEP or a change of mode. -/
def endPassWith (status : Nat) (s : State) : State :=
  match s.mem.pass with
  | none => s
  | some x =>
    let y := { x with ended := timeNow s, status := status }
    raise 0x3006 [.u8 status, .u32 y.uncorrectable]
      { s with mem := { s.mem with pass := none, lastPass := some y, passStatus := 2 } }

/-- The lap wraps (R622): its summary is stored, event 3008, and the next begins. -/
def lapWrap (s : State) : State :=
  let y := { s.mem.lap with length := bufferSize s.mem, ended := timeNow s }
  raise 0x3008 [.u32 (s.mem.laps + 1), .u32 y.uncorrectable]
    { s with mem := { s.mem with
        lapPos := 0, laps := s.mem.laps + 1, lastLap := some y, lap := { Summary.blank with began := timeNow s } } }

/-- SCRUB_STEP (R622-R626): the next pair of the pass or of the lap, after upsets of its stored bytes. -/
def scrubStep (flips : List (Nat × Nat)) (s : State) : State :=
  if !s.mem.fillDone ∨ s.power.unit ≠ 0 then s
  else
    match s.mem.pass with
    | some x =>
      let p := s.mem.passPos / 128
      let s1 := scrubPair true p { s with mem := memUpset p flips s.mem }
      let s2 := { s1 with mem := { s1.mem with passPos := s1.mem.passPos + 128 } }
      if x.start + x.length ≤ s2.mem.passPos then endPassWith 0 s2 else s2
    | none =>
      if cfg s 0x2310 1 = 0 then
        let p := s.mem.lapPos / 128
        let s1 := scrubPair false p { s with mem := memUpset p flips s.mem }
        let s2 := { s1 with mem := { s1.mem with lapPos := s1.mem.lapPos + 128 } }
        if bufferSize s2.mem ≤ s2.mem.lapPos then lapWrap s2 else s2
      else s

/-- SCRUB_STEP. -/
def execScrubStep (flips : List (Nat × Nat)) (s : State) : Host.Outcome State Fault Refusal := .next (scrubStep flips s)

/-- A write of 2310:01 (R621). -/
def scrubModeEffect (s : State) : Eff := if s.mem.pass.isSome then .error 0x0501 else .ok s

/-- A write of 2311:03 (R621, R624). -/
def startPassEffect (s : State) : Eff :=
  let start := elem s 0x2311 1 8 0
  let len := elem s 0x2311 1 8 1
  if s.mem.pass.isSome then .error 0x0501
  else if cfg s 0x2310 1 = 0 then .error 0x0304
  else if start % 128 ≠ 0 ∨ len % 128 ≠ 0 ∨ bufferSize s.mem < start + len then .error 0x0301
  else
    let s1 := { s with mem := { s.mem with
      pass := some { Summary.blank with start := start, length := len, began := timeNow s }, passPos := start
      passStatus := 1 } }
    .ok (if len = 0 then endPassWith 0 s1 else s1)

/-! ### Controller Memory Buffer (R544, R602, R614, R617, R618) -/

/-- CMB_READ: the bytes go to the host, with EP and event 3003 where a line carries a mark. -/
def execCmbRead (port : PortId) (offset len : Nat) (s : State) : Host.Outcome State Fault Refusal :=
  if !s.cache.serving then .next s
  else if cmbBytes s.mem port < offset + len then .fault (.noSuchAddress offset)
  else
    match bufferRead (len / 64 + 2) ((regionOf s.mem (2 + port.val)).1 + offset) len s with
    | ((b, p), s1) =>
      let s2 := send (.cmb port b (decide (p ≠ 0))) s1
      .next (if p = 0 then s2 else raise 0x3003 [.u8 (controllerId port), .u8 0] s2)

/-- CMB_WRITE: every line that a TLP with EP touches takes a host mark. -/
def execCmbWrite (port : PortId) (offset : Nat) (data : Bytes) (ep : Bool) (s : State) : Host.Outcome State Fault Refusal :=
  if !s.cache.serving then .next s
  else if cmbBytes s.mem port < offset + data.length then .fault (.noSuchAddress offset)
  else
    .next (bufferWrite (data.length / 64 + 2) ((regionOf s.mem (2 + port.val)).1 + offset) data (b2n ep) s)

/-! ### Fill and loss of a channel -/

/-- Lines of a CMB region: first and count. -/
def cmbLines (m : Memory) (p : PortId) : Nat × Nat := ((regionOf m (2 + p.val)).1 / 64, cmbBytes m p / 64)

/-- The hardware fill of every line (R612). -/
def fillAll (m : Memory) : Memory :=
  let a := cmbLines m 0
  let b := cmbLines m 1
  { m with cells := [], hostFilled := (if a.2 = 0 then [] else [a]) ++ (if b.2 = 0 then [] else [b]), fillDone := true }

/-- BUFFER_FILL_DONE (R612, R623, R640, R648): the fill is complete, the cache serves, the lap starts and the way modes of
2401:01 are applied. -/
def execBufferFillDone (s : State) : Host.Outcome State Fault Refusal :=
  if s.mem.fillDone ∨ (channelsUsed s.mem).isEmpty then .next s
  else
    let asked := (stored s 0x2401 1).map (fun b => b.toNat)
    .next { s with
      mem := { fillAll s.mem with lapPos := 0, lap := { Summary.blank with began := timeNow s } }
      cache := { s.cache with serving := true, change := if asked = s.cache.modes then none else some asked }
      host := { s.host with ctrls := s.host.ctrls.map (fun c => if c.enabled && s.fw.running.isSome then { c with ready := true } else c) } }

/-- COMMAND_ADDRESS_PARITY_ERROR (R599): a try of the command in error, cleared or not. -/
def execCommandAddressParityError (ch : PortId) (cleared : Bool) (s : State) : Host.Outcome State Fault Refusal :=
  .next { s with mem := { s.mem with
    chan := vecModify s.mem.chan ch (fun c => { c with parityTries := if cleared then 0 else c.parityTries + 1 }) } }

/-- MEMORY_CHANNEL_LOST (R599): three retries have not cleared a parity error (cause 0), or 64 line reads in a row were
uncorrectable (cause 1); fail-stop 7, with the channel and the cause kept. -/
def execMemoryChannelLost (ch : PortId) (cause : Nat) (s : State) : Host.Outcome State Fault Refusal :=
  let c := s.mem.chan[ch]
  if c.ready ∧ ((cause = 0 ∧ 3 ≤ c.parityTries) ∨ (cause = 1 ∧ 64 ≤ c.badReads)) then
    let s1 := failStop 7 s
    .next { s1 with island := { s1.island with channel := some (ch.val, cause) } }
  else .next s

end Sys2Proof.Machine
end

