-- ==== Sys2Proof/Machine/HostOps.lean ====
section
/-! DEFINITION. Operations of the host side: controllers, asynchronous events, completions, namespaces, zones, extents and
the commands in flight (12_nvme_host.md, 13_command_order.md, R232-R236, R243, R275-R278). -/

namespace Sys2Proof.Machine

/-! ### Access -/

/-- A controller changed. -/
def setCtrl (p : PortId) (f : Controller → Controller) (s : State) : State :=
  { s with host := { s.host with ctrls := vecModify s.host.ctrls p f } }

/-- The host side changed. -/
def setHost (f : HostSide → HostSide) (s : State) : State := { s with host := f s.host }

/-- A team's namespace changed. -/
def setNs (t : TeamId) (f : Namespace → Namespace) (s : State) : State := setTeam t (fun x => { x with ns := f x.ns }) s

/-- A team's namespace. -/
def nsAt (s : State) (t : TeamId) : Namespace := (teamAt s t).ns

/-- Commands in flight changed. -/
def setFlights (f : List Flight → List Flight) (s : State) : State :=
  setHost (fun h => { h with flights := f h.flights }) s

/-- One command in flight changed. -/
def setFlight (c : CmdId) (f : Flight → Flight) (s : State) : State :=
  setFlights (fun l => l.map (fun x => if x.c = c then f x else x)) s

/-- The command in flight of an identifier. -/
def flightOf (s : State) (c : CmdId) : Option Flight := s.host.flights.find? (fun x => decide (x.c = c))

/-- Both ports. -/
def bothPorts : List PortId := [0, 1]

/-! ### Baton frames (R670) -/

/-- A baton frame with its header and check word. -/
def batonFrame (ty flags epoch seq cut : Nat) (body : Bytes) : Bytes :=
  let f := [byte ty, byte flags] ++ toLE 2 body.length ++ toLE 4 epoch ++ toLE 4 seq ++ toLE 4 cut ++ body
  f ++ toLE 4 (crc32 f)

/-- A baton link is trained. -/
def batonUp (s : State) : Bool := s.pair.links[0] || s.pair.links[1]

/-- A frame sent to the peer on every trained link. -/
def batonSend (ty flags : Nat) (body : Bytes) (s : State) : State :=
  if batonUp s then
    send (.baton (batonFrame ty flags s.pair.epoch (s.pair.txSeq + 1) s.pair.txCut body))
      { s with pair := { s.pair with txSeq := s.pair.txSeq + 1 } }
  else s

/-! ### Completion queues (R537, R539) -/

/-- The completion queue of a submission queue, by its identifier; the admin queues have 0. -/
def cqOf (c : Controller) (sq : Nat) : Option Nat := if sq = 0 then some 0 else (c.sqs.find? (fun q => q.id = sq)).map (fun q => q.cq)

/-- A completion queue of a controller. -/
def cqAt (c : Controller) (id : Nat) : Option CompQueue := if id = 0 then some c.acq else c.cqs.find? (fun q => q.id = id)

/-- A completion queue changed. -/
def setCq (p : PortId) (id : Nat) (f : CompQueue → CompQueue) (s : State) : State :=
  setCtrl p (fun c => if id = 0 then { c with acq := f c.acq }
    else { c with cqs := c.cqs.map (fun x => if x.id = id then f x else x) }) s

/-- A completion queue has no free slot. -/
def CompQueue.full (q : CompQueue) : Bool := decide (q.size ≠ 0 ∧ (q.tail + 1) % q.size = q.head)

/-- Interrupts of a queue's vector are coalesced (R539): not those of the admin queue. -/
def coalesces (f : Features) (q : CompQueue) : Bool :=
  decide (q.id ≠ 0) && decide (f.coalescing % 256 ≠ 0) && decide (f.coalescing / 256 % 256 ≠ 0) && !f.noCoalesce.contains q.vector

/-- A completion entry is posted in a slot of its queue; the interrupt is sent, or waits for its count. -/
def cqTake (p : PortId) (q : CompQueue) (e : CqEntry) (s : State) : State :=
  let feat := s.host.ctrls[p].feat
  let q1 := { q with
    tail := (q.tail + 1) % (if q.size = 0 then 1 else q.size)
    phase := if q.tail + 1 = q.size then !q.phase else q.phase, waiting := q.waiting + 1 }
  let fire := q.ien && (!coalesces feat q || decide (feat.coalescing % 256 < q1.waiting))
  let q2 := if fire then { q1 with waiting := 0 } else q1
  let s1 := send (.completion e.c e.sct e.sc e.dnr e.dw0 e.dw1) (setCq p q.id (fun _ => q2) s)
  if fire then send (.interrupt p q.vector) s1 else s1

/-- A committed entry goes to its queue: in order, and where the queue is full it waits for a slot. -/
def cqPut (p : PortId) (id : Nat) (e : CqEntry) (s : State) : State :=
  match cqAt s.host.ctrls[p] id with
  | none => s
  | some q => if q.full || !q.held.isEmpty then setCq p id (fun q => { q with held := q.held ++ [e] }) s else cqTake p q e s

/-- Entries that wait take the slots that a doorbell has freed. -/
def cqDrain (p : PortId) (id : Nat) : Nat → State → State
  | 0, s => s
  | n + 1, s =>
    match cqAt s.host.ctrls[p] id with
    | none => s
    | some q =>
      match q.held with
      | [] => s
      | e :: rest => if q.full then s else cqDrain p id n (cqTake p { q with held := rest } e s)

/-! ### Asynchronous events (R543) -/

/-- Bit of feature 0Bh that enables an event, as NVMe 2.0 numbers them: SMART by its Critical Warning bit, notices 8, 9, 11
and 27; errors are always enabled. -/
def asyncEnabled (f : Features) (ty info : Nat) : Bool :=
  if ty = 1 then bit f.async (if info = 0 then 2 else if info = 1 then 1 else 0)
  else if ty = 2 then bit f.async (if info = 0 then 8 else if info = 1 then 9 else if info = 3 then 11 else 27)
  else true

/-- Log page that an asynchronous event names. -/
def asyncLog (ty info : Nat) : Nat :=
  if ty = 0 then 1 else if ty = 1 then 2 else if info = 0 then 4 else if info = 1 then 3 else if info = 3 then 12 else 0xBF

/-- An admin completion that answers a waiting Asynchronous Event Request. -/
def asyncPost (p : PortId) (ty info : Nat) (s : State) : State :=
  match s.host.ctrls[p].aers with
  | [] => setCtrl p (fun c => { c with events := c.events ++ [(ty, info, asyncLog ty info)] }) s
  | cid :: rest =>
    cqPut p 0 { c := { ctrl := p, sq := 0, cid := cid }, sct := 0, sc := 0, dnr := none, dw0 := ty + 256 * info + 65536 * asyncLog ty info, dw1 := 0 }
      (setCtrl p (fun c => { c with aers := rest, masked := ty :: c.masked }) s)

/-- An asynchronous event on one controller: sent at once, kept, or dropped while its type is masked or not enabled. -/
def asyncEvent (p : PortId) (ty info : Nat) (s : State) : State :=
  let c := s.host.ctrls[p]
  if c.ready && asyncEnabled c.feat ty info then
    if c.masked.contains ty then setCtrl p (fun c => { c with events := c.events ++ [(ty, info, asyncLog ty info)] }) s
    else asyncPost p ty info s
  else s

/-- An asynchronous event on both controllers. -/
def asyncBoth (ty info : Nat) (s : State) : State := bothPorts.foldl (fun a p => asyncEvent p ty info a) s

/-- ANA Change: the state of a namespace's group has changed (R543, R550). -/
def anaChange (s : State) : State := asyncBoth 2 3 (setHost (fun h => { h with anaChanges := h.anaChanges + 1 }) s)

/-- Namespace Attribute Changed: the namespace enters the Changed Namespace List. -/
def namespaceChanged (nsid : Nat) (s : State) : State :=
  asyncBoth 2 0 (bothPorts.foldl (fun a p => setCtrl p (fun c =>
    { c with changedNs := if c.changedNs.contains nsid then c.changedNs else c.changedNs ++ [nsid] }) a) s)

/-! ### Completions (R564, R579, R673) -/

/-- An Error Information log entry for a command that completes with an error (R542). -/
def errorEntry (p : PortId) (sq cid status lba nsid : Nat) (s : State) : State :=
  setCtrl p (fun c => { c with
    errorCount := c.errorCount + 1
    errors := ((c.errorCount + 1, sq, cid, status, lba, nsid) :: c.errors).take 64 }) s

/-- A completion entry is committed and posted; an error's log entry names an LBA and a namespace. -/
def postAt (lba nsid : Nat) (c : CmdId) (sct sc : Nat) (dnr : Option Bool) (dw0 dw1 : Nat) (s : State) : State :=
  let s1 := if sct = 0 ∧ sc = 0 then s else errorEntry c.ctrl c.sq c.cid (256 * sct + sc) lba nsid s
  match cqOf s1.host.ctrls[c.ctrl] c.sq with
  | some id => cqPut c.ctrl id { c := c, sct := sct, sc := sc, dnr := dnr, dw0 := dw0, dw1 := dw1 } s1
  | none => s1

/-- A completion entry of a command without an LBA. -/
def post (c : CmdId) (sct sc : Nat) (dnr : Option Bool) (dw0 dw1 : Nat) (s : State) : State := postAt 0 0 c sct sc dnr dw0 dw1 s

/-- A command in flight with nothing done yet. -/
def newFlight (c : CmdId) (seq : Nat) (kind : FlightKind) : Flight :=
  { c := c, seq := seq, kind := kind, nsid := 0, slba := 0, count := 0, cls := 0, left := [], above := [], status := none,
    dw0 := 0, dw1 := 0, silent := false, sqGone := false, waits := [], committing := false, carried := false, badLba := none, tick := 0, cmb := none, viaCmb := false }

/-- This device commits completions only after the STANDBY's acknowledgement (R673). -/
def needsAck (s : State) : Bool := decide (s.pair.role = 1) && batonUp s

/-- Body of a COMMIT record: controller, SQID, CID, status and dwords of the completion. -/
def commitBody (c : CmdId) (sct sc dw0 dw1 : Nat) : Bytes :=
  toLE 1 c.ctrl.val ++ toLE 1 0 ++ toLE 2 c.sq ++ toLE 2 c.cid ++ toLE 1 sct ++ toLE 1 sc ++ toLE 4 dw0 ++ toLE 4 dw1

/-- A COMMIT record sent, with its place among those that await their ACK. -/
def sendCommit (c : CmdId) (sct sc dw0 dw1 : Nat) (s : State) : State :=
  let s1 := batonSend 0x11 0 (commitBody c sct sc dw0 dw1) s
  { s1 with work := { s1.work with commits := s1.work.commits ++ [(s1.pair.txSeq, c)] } }

/-- A command that is not in flight completes at once with a status; in a pair, after its COMMIT record is
acknowledged. -/
def completeOp (op : Nat) (c : CmdId) (st : Nat × Nat × Option Bool) (dw0 : Nat) (s : State) : State :=
  if needsAck s then
    sendCommit c st.1 st.2.1 dw0 0 (setFlights (fun l => l ++
      [{ newFlight c s.host.seq (.admin op false) with status := some st, dw0 := dw0, committing := true }]) s)
  else post c st.1 st.2.1 st.2.2 dw0 0 s

/-- Completion with a status. -/
def completeAs (c : CmdId) (st : Nat × Nat × Option Bool) (dw0 : Nat) (s : State) : State := completeOp 0 c st dw0 s

/-- Completion with a status code type and status code. -/
def complete (c : CmdId) (sct sc : Nat) (dw0 : Nat) (s : State) : State := completeAs c (sct, sc, none) dw0 s

/-- Successful Completion. -/
def succeed (c : CmdId) (s : State) : State := complete c 0 0 0 s

/-- Invalid Field in Command. -/
def invalidField (c : CmdId) (s : State) : State := complete c 0 2 0 s

/-! ### Extents (R232-R234) -/

/-- Number of a team's discs N. -/
def discCount (s : State) (t : TeamId) : Nat := (nsAt s t).count

/-- Disc index of a team extent. -/
def extentDisc (n x : Nat) : Nat := x / 4 % (if n = 0 then 1 else n)

/-- Logical extent of a team extent on its disc. -/
def extentLogical (n x : Nat) : Nat := 4 * (x / (4 * (if n = 0 then 1 else n))) + x % 4

/-- Team extent of a disc's logical extent. -/
def teamExtent (n i e : Nat) : Nat := 4 * (e / 4 * n + i) + e % 4

/-- Lane that holds a disc index of a team. -/
def laneOfDisc (s : State) (t : TeamId) (i : Nat) : Option LaneId :=
  let k := (teamAt s t).map.getD i 0xFF
  if k < 32 then some (laneOf k) else none

/-- Lane of a team extent. -/
def laneOfExtent (s : State) (t : TeamId) (x : Nat) : Option LaneId := laneOfDisc s t (extentDisc (discCount s t) x)

/-- Zones of a team of N discs (R549). -/
def zoneCount (n : Nat) : Nat := n * 3814720 / 16384

/-- Size of a namespace in LBAs. -/
def nsSize (ns : Namespace) : Nat := zoneCount ns.count * 2 ^ 20

/-- An extent of a namespace. -/
def extentAt (ns : Namespace) (x : Nat) : Option Extent := mapGet ns.extents x

/-- An extent with nothing admitted. -/
def Extent.fresh : Extent :=
  { lbas := [], isSealed := false, verified := false, last := 0, heldSince := none, refused := [], waiting := [],
    ended := false }

/-- An extent changed. -/
def setExtent (t : TeamId) (x : Nat) (f : Extent → Extent) (s : State) : State :=
  setNs t (fun ns => { ns with extents := mapSet ns.extents x (f ((mapGet ns.extents x).getD Extent.fresh)) }) s

/-! ### Zones (R552-R559) -/

/-- A zone of a namespace. -/
def zoneAt (ns : Namespace) (z : Nat) : Zone := (mapGet ns.zones z).getD Zone.blank

/-- A zone set. -/
def setZone (t : TeamId) (z : Nat) (f : Zone → Zone) (s : State) : State :=
  setNs t (fun ns => { ns with zones := mapSet ns.zones z (f (zoneAt ns z)) }) s

/-- The zone is open. -/
def Zone.isOpen (z : Zone) : Bool := decide (z.st = .implicit ∨ z.st = .explicit)

/-- The zone is active. -/
def Zone.isActive (z : Zone) : Bool := z.isOpen || decide (z.st = .closed)

/-- Zones of all namespaces that satisfy a test: team, zone number and zone. -/
def zonesWhere (s : State) (p : Zone → Bool) : List (TeamId × Nat × Zone) :=
  allTeams.flatMap (fun t => (nsAt s t).zones.filterMap (fun q => if p q.2 then some (t, q.1, q.2) else none))

/-- Open zones of the device. -/
def openZones (s : State) : Nat := (zonesWhere s Zone.isOpen).length

/-- Active zones of the device. -/
def activeZones (s : State) : Nat := (zonesWhere s Zone.isActive).length

/-- The implicitly opened zone whose last write is oldest (R553). -/
def oldestImplicit (s : State) : Option (TeamId × Nat × Zone) :=
  (zonesWhere s (fun z => decide (z.st = .implicit))).foldl (fun a q =>
    match a with
    | none => some q
    | some b => if q.2.2.used < b.2.2.used then some q else some b) none

/-- A zone closed in place: one with nothing written returns to Empty (NVMe 2.0), another becomes Closed. -/
def closeZone (t : TeamId) (z : Nat) (s : State) : State :=
  setZone t z (fun q => { q with st := if q.wp = 0 then .empty else .closed }) s

/-- Room for one more open zone (R553): the status that refuses it, or the state after an implicit close. -/
def openRoom (t : TeamId) (z : Nat) (s : State) : Except (Nat × Nat) State :=
  let q := zoneAt (nsAt s t) z
  if q.isOpen then .ok s
  else if !q.isActive && decide (256 ≤ activeZones s) then .error (1, 0xBD)
  else if openZones s < 128 then .ok s
  else
    match oldestImplicit s with
    | some (t', z', _) => .ok (closeZone t' z' s)
    | none => .error (1, 0xBE)

/-- A lower zone of the namespace is Empty (R557). -/
def emptyBelow (ns : Namespace) (z : Nat) : Bool := (upTo z).any (fun k => decide ((zoneAt ns k).st = .empty))

/-- LBAs that read as zeros from now on. -/
def addZeros (t : TeamId) (first count : Nat) (s : State) : State :=
  if count = 0 then s else setNs t (fun ns => { ns with zeros := (first, count) :: ns.zeros }) s

/-- A zone takes a new write pointer, and becomes Full at its end. -/
def moveWp (t : TeamId) (z wp : Nat) (s : State) : State :=
  setZone t z (fun q => { q with wp := wp, st := if 2 ^ 20 ≤ wp then .full else q.st }) s

/-- An open extent sealed with padding (R275, R276). -/
def sealExtent (t : TeamId) (x : Nat) (s : State) : State :=
  match extentAt (nsAt s t) x with
  | none => s
  | some e =>
    if e.isSealed then s
    else
      let z := x / 16384
      let s1 := setExtent t x (fun e => { e with isSealed := true }) s
      let wp := (zoneAt (nsAt s t) z).wp
      let goal := (x % 16384 + 1) * 64
      if wp < goal then moveWp t z goal (addZeros t (z * 2 ^ 20 + wp) (goal - wp) s1) else s1

/-- Open extents of a namespace. -/
def openExtents (ns : Namespace) : List Nat :=
  (ns.extents.filter (fun p => !p.2.isSealed && !p.2.lbas.isEmpty)).map (fun p => p.1)

/-- Every open extent of a namespace sealed (R275, R581). -/
def sealAll (t : TeamId) (s : State) : State := (openExtents (nsAt s t)).foldl (fun a x => sealExtent t x a) s

/-- A zone becomes Full; LBAs from its write pointer on read as zeros (R551, R555, R558, R589). -/
def fillZone (t : TeamId) (z : Nat) (byCtrl : Bool) (s : State) : State :=
  let s1 := ((openExtents (nsAt s t)).filter (fun x => x / 16384 = z)).foldl (fun a x => sealExtent t x a) s
  let wp := (zoneAt (nsAt s1 t) z).wp
  setZone t z (fun q => { q with st := .full, wp := 2 ^ 20, byCtrl := q.byCtrl || byCtrl })
    (addZeros t (z * 2 ^ 20 + wp) (2 ^ 20 - wp) s1)

/-- A zone finished by the controller, with its asynchronous event (R543). -/
def finishByController (t : TeamId) (z : Nat) (s : State) : State := asyncBoth 2 0xEF (fillZone t z true s)

/-- A sealed extent is held back by a lower zone of its namespace that is open or closed (R555). -/
def heldBack (ns : Namespace) (x : Nat) : Bool := ns.zones.any (fun q => decide (q.1 < x / 16384) && q.2.isActive)

/-- The wait of R555 begins, or ends, for every sealed extent of a namespace. -/
def markHeld (t : TeamId) (s : State) : State :=
  setNs t (fun ns => { ns with extents := ns.extents.map (fun p =>
    (p.1, if p.2.isSealed && !p.2.verified && !p.2.ended then
        (if heldBack ns p.1 then { p.2 with heldSince := some (p.2.heldSince.getD s.ticks) }
         else { p.2 with heldSince := none })
      else p.2)) }) s

/-! ### ANA (R550) -/

/-- A namespace is Optimized on this device. -/
def anaOptimized (s : State) (t : TeamId) : Bool :=
  decide ((teamAt s t).st = .attached) &&
    (decide (s.pair.role ≤ 1) || (decide (s.pair.role = 3) && s.pair.hold))

/-! ### Staging (R602, R243) -/

/-- Staging addresses in use. -/
def stagingUsed (s : State) : List Nat :=
  allTeams.flatMap (fun t => (nsAt s t).extents.flatMap (fun p => p.2.lbas.filterMap (fun l => l.addr))) ++
    allLanes.flatMap (fun n => (laneAt s n).wr.queue.filterMap (fun c => c.addr))

/-- The lowest place of 4,096 bytes from a base that is not in use: among `n + 1` places one is free when `n` are used. -/
def freePlace (base : Nat) (used : List Nat) : Nat :=
  ((upTo (used.length + 1)).map (fun k => base + 4096 * k)).find? (fun a => !used.contains a) |>.getD base

/-- Place for a staged LBA in region 4. -/
def stagingPlace (s : State) : Nat := freePlace (regionOf s.mem 4).1 (stagingUsed s)

/-- Place for a reassembled LBA in region 1. -/
def reassemblyPlace (s : State) : Nat := freePlace (regionOf s.mem 1).1 (s.host.reassembly.map (fun r => r.2.2.1))

/-! ### Range locks (R573-R576) -/

/-- Team of a namespace identifier. -/
def teamOfNsid (nsid : Nat) : Option TeamId := if 1 ≤ nsid ∧ nsid ≤ 32 then some (Fin.ofNat 32 (nsid - 1)) else none

/-- The command holds a range-lock entry. -/
def Flight.locks (f : Flight) : Bool :=
  match f.kind with
  | .read => true
  | .write => true
  | .append => true
  | _ => false

/-- The command writes. -/
def Flight.writes (f : Flight) : Bool :=
  match f.kind with
  | .write => true
  | .append => true
  | _ => false

/-- A command stalls behind an earlier one (R574). -/
def stallsOn (f g : Flight) : Bool :=
  f.locks && g.locks && decide (g.seq < f.seq) && decide (f.nsid = g.nsid) && (f.writes || g.writes) &&
    decide (f.slba < g.slba + g.count) && decide (g.slba < f.slba + f.count)

/-- A command is stalled. -/
def stalled (s : State) (f : Flight) : Bool := s.host.flights.any (stallsOn f)

/-! ### Completion of writes (R245, R278, R588, R590) -/

/-- The staged LBAs of a command: extent number, extent, and the LBA's record. -/
def stagedOf (ns : Namespace) (seq : Nat) : List (Nat × Extent × Staged) :=
  ns.extents.flatMap (fun p => (p.2.lbas.filter (fun l => l.seq = seq)).map (fun l => (p.1, p.2, l)))

/-- A staged LBA of a command has reached its end: verified with its copy, or ended. -/
def stagedDone (q : Nat × Extent × Staged) : Bool :=
  q.2.1.ended || (q.2.1.verified && !q.2.1.waiting.contains q.2.2.pos)

/-- Status of a write whose LBAs have all reached their end: a status given to it already stands (R551, R588); else the
kind of poison that refused an LBA (R245). -/
def writeStatus (l : List (Nat × Extent × Staged)) : Nat × Nat × Option Bool :=
  let kinds := l.flatMap (fun q => (q.2.1.refused.filter (fun r => r.1 = q.2.2.pos)).map (fun r => r.2))
  if kinds.contains 2 then (0, 6, none) else if kinds.contains 1 then (0, 4, none) else (0, 0, none)

/-- A write in flight may complete. -/
def writeReady (s : State) (f : Flight) : Bool :=
  match teamOfNsid f.nsid with
  | none => true
  | some t => (stagedOf (nsAt s t) f.seq).all stagedDone

/-- An earlier write or append of the namespaces concerned is still in flight: what a Flush or a Zone Management Send waits
for (R581, R584). -/
def earlierWrites (s : State) (f : Flight) (zone : Option Nat) : Bool :=
  s.host.flights.any (fun g => g.writes && decide (g.seq < f.seq) && (decide (f.nsid = 0xFFFFFFFF) || decide (g.nsid = f.nsid)) &&
    (match zone with
     | some z => decide (g.slba / 2 ^ 20 = z)
     | none => true))

/-- The status at which a command in flight may now complete. -/
def dueStatus (s : State) (f : Flight) : Option (Nat × Nat × Option Bool) :=
  match f.kind with
  | .read => if f.left.isEmpty ∧ (f.status.isSome ∨ !stalled s f) then some (f.status.getD (0, 0, none)) else none
  | .write | .append =>
    if writeReady s f ∧ !stalled s f then
      some (f.status.getD (match teamOfNsid f.nsid with
        | some t => writeStatus (stagedOf (nsAt s t) f.seq)
        | none => (0, 0, none)))
    else none
  | .flush => if earlierWrites s f none then none else some (f.status.getD (0, 0, none))
  | .zoneSend z => if earlierWrites s f z then none else some (f.status.getD (0, 0, none))
  | .zoneReceive => some (f.status.getD (0, 0, none))
  | .admin _ _ => f.status

/-- Extents that no command in flight and no queued copy still needs lose their staging (R243). -/
def freeExtents (t : TeamId) (s : State) : State :=
  let live := s.host.flights.filterMap (fun f => if f.writes ∧ f.nsid = t.val + 1 then some f.seq else none)
  let copied := (upTo (discCount s t)).flatMap (fun i =>
    match laneOfDisc s t i with
    | some n => ((laneAt s n).wr.queue.filter (fun c => !c.refresh)).map (fun c => teamExtent (discCount s t) i c.extent)
    | none => [])
  setNs t (fun ns => { ns with extents := ns.extents.filter (fun p =>
    !((p.2.verified && p.2.waiting.isEmpty || p.2.ended) && p.2.lbas.all (fun l => !live.contains l.seq) &&
      !copied.contains p.1)) }) s

/-- A command leaves flight: its lock entry goes, and staging that nobody needs is released. -/
def removeFlight (c : CmdId) (s : State) : State :=
  let f := flightOf s c
  let s1 := setFlights (fun l => l.filter (fun x => decide (x.c ≠ c))) s
  match f.bind (fun x => teamOfNsid x.nsid) with
  | some t => freeExtents t s1
  | none => s1

/-- A command's completion is committed (R564, R579): the posting, and the host counters of R542. -/
def commitFlight (f : Flight) (st : Nat × Nat × Option Bool) (s : State) : State :=
  let s1 := removeFlight f.c s
  if f.silent then s1
  else
    let s2 := postAt (f.badLba.getD 0) f.nsid f.c st.1 st.2.1 st.2.2 f.dw0 f.dw1 s1
    let bad := decide (st = (2, 0x81, st.2.2)) || decide (f.writes ∧ (st.1 = 0 ∧ (st.2.1 = 4 ∨ st.2.1 = 6)))
    setCtrl f.c.ctrl (fun c => { c with
      reads := c.reads + b2n (decide (f.kind = .read))
      writes := c.writes + b2n f.writes
      unitsRead := c.unitsRead + (if f.kind = .read ∧ st.1 = 0 ∧ st.2.1 = 0 then 8 * f.count else 0)
      unitsWritten := c.unitsWritten + (if f.writes ∧ st.1 = 0 ∧ st.2.1 = 0 then 8 * f.count else 0)
      mediaErrors := c.mediaErrors + b2n bad }) s2

/-- A command whose conditions hold completes, but in an activation pause (R587); in a pair its COMMIT record goes first
(R673). -/
def tryComplete (c : CmdId) (s : State) : State :=
  match flightOf s c with
  | none => s
  | some f =>
    if f.committing || s.host.frozen then s
    else
      match dueStatus s f with
      | none => s
      | some st =>
        if needsAck s && !f.silent then
          sendCommit c st.1 st.2.1 f.dw0 f.dw1 (setFlight c (fun x => { x with committing := true, status := some st }) s)
        else commitFlight f st s

/-! ### Namespaces entering and leaving the list (R548-R551) -/

/-- A namespace leaves the active list (R548): event 7003 with its reason. -/
def nsLeave (t : TeamId) (reason : Nat) (s : State) : State :=
  if (nsAt s t).listed then
    namespaceChanged (t.val + 1) (raise 0x7003 [.u8 t.val, .u32 (t.val + 1), .u8 reason]
      (setNs t (fun ns => { Namespace.reset with lastVerified := ns.lastVerified }) s))
  else s

/-- A namespace enters the active list (R548, R843). -/
def nsEnter (t : TeamId) (volume : Bytes) (count : Nat) (s : State) : State :=
  namespaceChanged (t.val + 1) (setNs t (fun _ => { Namespace.reset with listed := true, volume := volume, count := count }) s)

/-! ### Waiting on lanes and ends of commands (R551, R588-R592) -/

/-- Discs of a team. -/
def lbaLane (s : State) (t : TeamId) (lba : Nat) : Option LaneId := laneOfExtent s t (lba / 64)

/-- Team extents of a write that lie on a lane and have not verified. -/
def unverifiedOn (s : State) (t : TeamId) (f : Flight) (n : LaneId) : List Nat :=
  ((stagedOf (nsAt s t) f.seq).filter (fun q => !stagedDone q && decide (laneOfExtent s t q.1 = some n))).map (fun q => q.1)

/-- LBAs of a read not yet sent that lie on a lane. -/
def readsOn (s : State) (t : TeamId) (f : Flight) (n : LaneId) : List Nat :=
  f.left.filter (fun l => decide (lbaLane s t l = some n))

/-- A command waits, or works, on a lane. -/
def usesLane (s : State) (f : Flight) (n : LaneId) : Bool :=
  match teamOfNsid f.nsid with
  | none => false
  | some t =>
    match f.kind with
    | .read => !(readsOn s t f n).isEmpty
    | .write | .append => !(unverifiedOn s t f n).isEmpty
    | _ => false

/-- A lane keeps commands waiting: in FAULT, suspended or scanning (R588). -/
def laneHolds (l : Lane) : Bool :=
  decide (l.life.st = .fault) || l.wr.suspended || (l.disc.map (fun d => d.scanDue)).getD false

/-- Commands begin to wait on a lane (R588). -/
def beginWaits (n : LaneId) (s : State) : State :=
  setFlights (fun l => l.map (fun f =>
    if usesLane s f n && !f.waits.any (fun w => decide (w.1 = n)) then { f with waits := f.waits ++ [(n, s.ticks)] } else f)) s

/-- Waits on a lane that holds nobody any longer end. -/
def endWaits (n : LaneId) (s : State) : State :=
  setFlights (fun l => l.map (fun f => { f with waits := f.waits.filter (fun w => decide (w.1 ≠ n)) })) s

/-- An extent's remaining part will never be recorded: its admitted LBAs read as zeros. -/
def endExtent (t : TeamId) (x : Nat) (s : State) : State :=
  match extentAt (nsAt s t) x with
  | none => s
  | some e =>
    if e.ended ∨ e.verified then s
    else addZeros t (64 * x) e.lbas.length (setExtent t x (fun e => { e with ended := true, isSealed := true }) s)

/-- A write ended on a lane (R588, R589): status Write Fault with DNR, its staged extents there released, its zone Full
with event 7006. -/
def endWriteOn (t : TeamId) (n : LaneId) (f : Flight) (s : State) : State :=
  let xs := unverifiedOn s t f n
  let z := f.slba / 2 ^ 20
  let s1 := setFlight f.c (fun g => { g with status := some (2, 0x80, some true), left := [] }) s
  let s2 := xs.foldl (fun a x => endExtent t x a) s1
  if (zoneAt (nsAt s2 t) z).st = .full ∨ (zoneAt (nsAt s2 t) z).st = .readOnly then s2
  else raise 0x7006 [.u8 t.val, .u32 z, .u8 n.val] (finishByController t z s2)

/-- A read ended on a lane: Namespace Not Ready, DNR = 0; LBAs of other lanes are still sent (R588). -/
def endReadOn (t : TeamId) (n : LaneId) (f : Flight) (s : State) : State :=
  let gone := readsOn s t f n
  setFlight f.c (fun g => { g with
    status := if g.badLba.isSome then g.status else some (0, 0x82, some false), left := g.left.filter (fun l => !gone.contains l) }) s

/-- Commands that use a lane and satisfy a test are ended (R588, R592): event 7007 once for a team, with the counts. -/
def endOnLane (t : TeamId) (n : LaneId) (latch : Bool) (p : Flight → Bool) (s : State) : State :=
  let hit := s.host.flights.filter (fun f => decide (f.nsid = t.val + 1) && usesLane s f n && p f)
  if hit.isEmpty then s
  else
    let rd := (hit.filter (fun f => !f.writes)).length
    let wr := (hit.filter Flight.writes).length
    let s1 := hit.foldl (fun a f => if f.writes then endWriteOn t n f a else endReadOn t n f a) s
    raise 0x7007 [.u8 t.val, .u8 n.val, .u32 rd, .u32 wr, .u8 (b2n latch)]
      (bump (teamIdx t 0x1C) 3 1 wr (bump (teamIdx t 0x1C) 3 0 rd s1))

/-! ### ORDERED mode (R571) -/

/-- A cause of ORDERED begins or ends; event 7008 when the mode changes. -/
def setCause (i : Nat) (on : Bool) (s : State) : State :=
  let old := s.host.causes
  let new := if on then old ||| 2 ^ i else if bit old i then old - 2 ^ i else old
  let s1 := setHost (fun h => { h with causes := new }) s
  if (old = 0) = (new = 0) then s1 else raise 0x7008 [.u8 (b2n (decide (new ≠ 0))), .u8 new] s1

/-! ### Backlog of a lane (R452) -/

/-- Bytes of admitted reads on a lane's extents not yet delivered, plus bytes staged for its spot-streams not yet
verified. -/
def laneBacklog (s : State) (n : LaneId) : Nat :=
  let rd := sumNat (s.host.flights.map (fun f =>
    match f.kind, teamOfNsid f.nsid with
    | .read, some t => (readsOn s t f n).length
    | _, _ => 0))
  let wr := sumNat (allTeams.map (fun t =>
    sumNat ((nsAt s t).extents.map (fun p =>
      if !p.2.verified && !p.2.ended && decide (laneOfExtent s t p.1 = some n) then p.2.lbas.length else 0))))
  4096 * (rd + wr)

end Sys2Proof.Machine
end

