-- ==== Sys2Proof/Machine/Laser.lean ====
section
/-! DEFINITION. The words of a bank, and the READ_POWER message of the LASER link (R49, R255, R505). -/

namespace Sys2Proof.Machine

/-- The 32-bit words of a bank, signed. -/
def bankWords : Nat → Bytes → List Int
  | 0, _ => []
  | k + 1, b => signed 32 (field b 0 4) :: bankWords k (b.drop 4)

/-- The 512 words of a bank (R388, R392). -/
def wordsOf (b : Bytes) : List Int := bankWords 512 b

/-- The laser of a lane is on (R140): SPUN to HOLDING but for a ramp-down (R147); in FAULT while the spindle is driven or taken
over, at the read power of the safe condition (R49). -/
def laserOn (l : Lane) : Bool :=
  !l.life.ramping && (abovePark l.life.st || (decide (l.life.st = .fault) && decide (l.spin.phase = 3 ∨ l.spin.phase = 6)))

/-- The read-power set-point of the read channel, units of 10 uW (R505); 0 while the laser is off. -/
def readSetpoint (l : Lane) : Nat :=
  let layer := l.life.layer.getD l.life.targetLayer
  let media : Nat := match l.disc with
    | none => Sys2Proof.Config.firstReadPower layer
    | some d => field d.media (52 + 2 * layer) 2
  let v := (roundDiv ((media : Int) * l.warm.inForce.getD 27 0) 4096).toNat
  if laserOn l then min v (media * 11 / 10) else 0

/-- The five set-points of a READ_POWER message: W0-W3 at gate 0, read channel (R255, R392). -/
def readPowers (l : Lane) : List Nat :=
  let p := readSetpoint l
  let w := wordsOf l.loop.banks.bqActive
  (upTo 4).map (fun k => ((p : Int) * w.getD (291 + k) 0 / 2 ^ 28).toNat) ++ [p]

/-! ### The LASER link (R253, R255, R787 to R791, R794) -/

/-- The symbols of channel bits (R253): DATA and GATE of the tracks given with their bits; BANK_SWITCH on the first where it is asked. -/
def symbolsOf : Nat → Bool → List (Nat × List Bool) → List Nat
  | 0, _, _ => []
  | k + 1, switch, ts =>
    ts.foldl (fun a t => a + 16 * 2 ^ t.1 + 2 ^ t.1 * b2n (t.2.headD false)) (256 * b2n switch) ::
      symbolsOf k false (ts.map (fun t => (t.1, t.2.tail)))

/-- Units of symbols and message nibbles (R788); a nibble that is missing is idle. -/
def laserUnits : List Nat → List Nat → List Nat
  | [], _ => []
  | y :: ys, ns => (y + 4096 * ns.headD 0) :: laserUnits ys ns.tail

/-- What pairs D0 to D3 carry (R787): pair k has bits 4k + 3 to 4k of each unit, most significant first. -/
def laserPairs (units : List Nat) : Vector (List Bool) 4 :=
  Vector.ofFn (fun k : Fin 4 => units.flatMap (fun u => bitsBE 4 (u / 16 ^ k.val % 16)))

/-- A message as nibbles (R789): idle nibbles before it, 0xF, its type, length, body and CRC, each byte high nibble first. -/
def messageNibbles (ty : Nat) (body : Bytes) : List Nat :=
  let m := [byte ty, byte body.length] ++ body
  [0, 0, 0, 0, 15] ++ (m ++ toLE 2 (crc16 m)).flatMap (fun b => [b.toNat / 16, b.toNat % 16])

/-- The write clock has a wobble to lock to (R787): the lane is tracking a disc. -/
def hasWobble (l : Lane) : Bool := decide (4 ≤ l.life.st.code ∧ l.life.st.code ≤ 8) && l.disc.isSome

/-- Units on a lane's LASER link at its clock. -/
def sendUnits (n : LaneId) (units : List Nat) (s : State) : State := send (.laser n (hasWobble (laneAt s n)) (laserPairs units)) s

/-- Training (R794): units that alternate, as many as the laser driver has to see. -/
def sendTraining (n : LaneId) (s : State) : State := sendUnits n ((upTo 512).flatMap (fun _ => [0x9A53, 0x65AC])) s

/-- The nibbles of a lane that wait. -/
def setMessages (n : LaneId) (b : List Nat) (s : State) : State := { s with ports := { s.ports with messages := s.ports.messages.set n b } }

/-- A message on a lane's LASER link (R255, R789): in units of its own, or behind the symbols of a pass that is playing. A device that does
not hold PAIRSEL sends only IDLE there (R660, R663, R791). -/
def sendLaser (n : LaneId) (ty : Nat) (body : Bytes) (s : State) : State :=
  let stream := s.ports.messages[n] ++ messageNibbles ty body
  if !s.pair.hold then setMessages n [] s
  else if (laneAt s n).wr.pass.any (fun p => p.begun) then setMessages n stream s
  else sendUnits n (laserUnits (List.replicate stream.length 0) stream) (setMessages n [] s)

/-- The symbols of a sector (R253), with the messages that wait, by the holder of PAIRSEL. -/
def sendSymbols (n : LaneId) (switch : Bool) (tracks : List (Nat × List Bool)) (s : State) : State :=
  let symbols := symbolsOf ((tracks.head?.map (fun t => t.2.length)).getD 0) switch tracks
  if s.pair.hold then sendUnits n (laserUnits symbols s.ports.messages[n]) (setMessages n (s.ports.messages[n].drop symbols.length) s)
  else s

/-- READ_POWER (R255): type 2 of the LASER messages with its five set-points. -/
def sendPowers (n : LaneId) (ps : List Nat) (s : State) : State := sendLaser n 2 (ps.flatMap (toLE 2)) s

/-- The safe condition's message to the laser driver (R49): read power, with write modulation off. -/
def safeLaser (n : LaneId) (s : State) : State :=
  if (laneAt s n).links.laserTrained then sendPowers n (readPowers (laneAt s n)) s else s

/-- Laser-on time of a read-power period of 50,000 ticks (R755). -/
def countLaser (ps : List Nat) (l : Lane) : Lane :=
  { l with plife := { l.plife with onRem := (upTo 5).map (fun k =>
      l.plife.onRem.getD k 0 + (if ps.getD k 0 = 0 then 0 else 250000)) } }

/-- READ_POWER at its release instant, with the laser-on time of the period; without a new result the set-points last released are
released again (R66, R415). -/
def releasePowers (n : LaneId) (fresh : Bool) (s : State) : State :=
  let ps := if fresh then readPowers (laneAt s n) else (laneAt s n).loop.powers
  let s1 := setLane n (fun l => { l with loop := { l.loop with powers := ps } }) s
  if s1.pair.hold then sendPowers n ps (setLane n (countLaser ps) s1) else s1

end Sys2Proof.Machine
end

