-- ==== Sys2Proof/Machine/Sled.lean ====
section
/-! DEFINITION. Sled strides, gearing, microsteps and current modes (10_sled.md). Positions of profiles are in
q = 2^-16 / 3 microstep, so that the limits of R472 are whole numbers of q per second and its powers. -/

namespace Sys2Proof.Machine

/-! ### Profiles -/

/-- Ticks per second of the period timer (R58). -/
def tickHz : Int := 4800000000

/-- Speed limit in q/s from 0.01 mm/s. -/
def qSpeed (v : Nat) : Int := 2 ^ 25 * v

/-- Acceleration in q/s^2 from mm/s^2. -/
def qAccel (a : Nat) : Int := 2 ^ 25 * 100 * a

/-- Jerk in q/s^3 from m/s^3. -/
def qJerk (j : Nat) : Int := 2 ^ 25 * 100000 * j

/-- Position, speed and acceleration after `t` ticks of constant jerk. -/
def jerkStep (x v a j : Int) (t : Nat) : Int × Int × Int :=
  let t' : Int := t
  (x + v * t' / tickHz + a * t' * t' / (2 * tickHz * tickHz) + j * t' * t' * t' / (6 * tickHz * tickHz * tickHz),
   v + a * t' / tickHz + j * t' * t' / (2 * tickHz * tickHz),
   a + j * t' / tickHz)

/-- Position, speed and acceleration along segments, `t` ticks after their start. -/
def segsEval : List (Int × Nat) → Int → Int → Int → Nat → Int × Int × Int
  | [], x, v, a, t => jerkStep x v a 0 t
  | (j, d) :: rest, x, v, a, t =>
    if t ≤ d then jerkStep x v a j t
    else
      match jerkStep x v a j d with
      | (x', v', a') => segsEval rest x' v' a' (t - d)

/-- Duration of segments in ticks. -/
def segsTime (l : List (Int × Nat)) : Nat := sumNat (l.map (fun p => p.2))

/-- Ticks of `num / den` seconds, not below 0. -/
def secsToTicks (num den : Int) : Nat := if den ≤ 0 then 0 else (num * tickHz / den).toNat

/-- Time-optimal change of speed from (v0, a0) to v1 at acceleration 0, within acceleration A and jerk J (R474). -/
def rampSegs (v0 a0 v1 A J : Int) : List (Int × Nat) :=
  let settle := v0 + a0 * (if 0 ≤ a0 then a0 else -a0) / (2 * J)
  let sg : Int := if settle ≤ v1 then 1 else -1
  let v0' := sg * v0
  let a0' := sg * a0
  let v1' := sg * v1
  let peak2 := J * (v1' - v0') + a0' * a0' / 2
  let peak : Int := isqrt peak2.toNat
  let ap := if A < peak then A else peak
  let flat := v1' - v0' - (ap * ap - a0' * a0') / (2 * J) - ap * ap / (2 * J)
  [(sg * J, secsToTicks (ap - a0') J), (0, if A < peak then secsToTicks flat ap else 0), (-(sg * J), secsToTicks ap J)]

/-- Displacement of a change of speed. -/
def rampDist (v0 a0 v1 A J : Int) : Int :=
  let l := rampSegs v0 a0 v1 A J
  (segsEval l 0 v0 a0 (segsTime l)).1

/-- The greatest value at or above `lo` with the property, found by adding falling powers of two below 2^k. -/
def bisect (p : Int → Bool) : Nat → Int → Int
  | 0, lo => lo
  | k + 1, lo => if p (lo + 2 ^ k) then bisect p k (lo + 2 ^ k) else bisect p k lo

/-- Segments from (v0, a0) over the displacement `d` to the speed `vEnd` within the limits, without a reversal: the
change to a peak speed, a cruise, and the change to the end speed. -/
def planAhead (v0 a0 d vEnd V A J : Int) : List (Int × Nat) :=
  let dist (vp : Int) : Int := rampDist v0 a0 vp A J + rampDist vp 0 vEnd A J
  if dist V ≤ d then
    rampSegs v0 a0 V A J ++ [(0, secsToTicks (d - dist V) V)] ++ rampSegs V 0 vEnd A J
  else if d ≤ dist (-V) then
    rampSegs v0 a0 (-V) A J ++ [(0, secsToTicks (dist (-V) - d) V)] ++ rampSegs (-V) 0 vEnd A J
  else
    let vp := bisect (fun v => decide (v ≤ V) && decide (dist v ≤ d)) 41 (-V)
    rampSegs v0 a0 vp A J ++ rampSegs vp 0 vEnd A J

/-- Segments from (v0, a0) over the displacement `d` to the speed `vEnd` (R474, R475); where the target lies behind the
point at which the motion can come to rest, the profile comes to rest there and reverses (R476). -/
def planSegs (v0 a0 d vEnd V A J : Int) : List (Int × Nat) :=
  let halt := rampDist v0 a0 0 A J
  if (0 < v0 ∧ d < halt) ∨ (v0 < 0 ∧ halt < d) then
    rampSegs v0 a0 0 A J ++ planAhead 0 0 (d - halt) vEnd V A J
  else planAhead v0 a0 d vEnd V A J

/-- Limits of a stride (R472): speed, acceleration, jerk in q. -/
def strideLimits (s : State) (n : LaneId) (r : Stride) : Int × Int × Int :=
  let low (a b : Nat) : Nat := if a = 0 then b else min a b
  (qSpeed (low r.speed (lcfg s n 0xA1 1)), qAccel (low r.accel (lcfg s n 0xA1 2)), qJerk (low r.jerk (lcfg s n 0xA1 3)))

/-- A stride's flags BLEND, REPLACE, GEAR_AT_END (R470). -/
def strideBlend (r : Stride) : Bool := bit r.flags 0
def strideReplaces (r : Stride) : Bool := bit r.flags 1
def strideGearAtEnd (r : Stride) : Bool := bit r.flags 2

/-- The record of a stride (R470). -/
def strideBytes (r : Stride) : Bytes :=
  toLEInt 4 r.target ++ toLE 2 r.speed ++ toLE 2 r.accel ++ toLE 2 r.jerk ++ toLE 1 r.flags ++ toLE 1 r.status
    ++ toLE 4 r.tag

/-- The stride of a record (R470), with no status. -/
def strideOf (b : Bytes) : Stride :=
  { target := fromLEInt (slice b 0 4), speed := field b 4 2, accel := field b 6 2, jerk := field b 8 2,
    flags := field b 10 1, status := 0, tag := field b 12 4 }

/-- The speed at the joint of the first of two strides, from position `x` in q (R475). -/
def jointSpeed (s : State) (n : LaneId) (x v a : Int) (r : Stride) (next : Option Stride) : Int :=
  match next with
  | none => 0
  | some r2 =>
    let d1 := 3 * 65536 * r.target - x
    let d2 := 3 * 65536 * (r2.target - r.target)
    if strideBlend r2 ∧ ((0 < d1 ∧ 0 < d2) ∨ (d1 < 0 ∧ d2 < 0)) then
      let sg : Int := if 0 < d1 then 1 else -1
      match strideLimits s n r, strideLimits s n r2 with
      | (v1, a1, j1), (v2, a2, j2) =>
        let cap := if v1 < v2 then v1 else v2
        sg * bisect (fun u => decide (u ≤ cap) && decide (rampDist u 0 0 a2 j2 ≤ sg * d2)
          && decide (rampDist (sg * v) (sg * a) u a1 j1 ≤ sg * d1)) 41 0
    else 0

/-- The profile of the first stride of a queue from the present motion. -/
def planStride (s : State) (n : LaneId) (d : Sled) : Option Profile :=
  match d.queue with
  | [] => none
  | r :: rest =>
    match strideLimits s n r with
    | (V, A, J) =>
      let x := 3 * d.p
      let vEnd := jointSpeed s n x d.v d.a r rest.head?
      some { x0 := x, v0 := d.v, a0 := d.a, segs := planSegs d.v d.a (3 * 65536 * r.target - x) vEnd V A J, t := 0
             target := 65536 * r.target, vEnd := vEnd }

/-! ### Gearing -/

/-- Signed 32-bit difference of two master positions (R483). -/
def masterDiff (a b : Nat) : Int := signed 32 ((a + 2 ^ 32 - b % 2 ^ 32) % 2 ^ 32)

/-- The term g + r / D in 2^-16 microstep. -/
def gearTerm (d : Sled) : Int := 65536 * d.g + 65536 * (d.gRem : Int) / (if d.ratioD = 0 then 1 else d.ratioD)

/-- `k` master counts at the ratio in force (R482). -/
def gearAdvance (k : Int) (d : Sled) : Sled :=
  let D : Int := if d.ratioD = 0 then 1 else d.ratioD
  let r := (d.gRem : Int) + d.ratioN * k
  { d with g := d.g + r / D, gRem := (r % D).toNat }

/-- A ratio put in force; the fraction r / D keeps its value. -/
def takeRatio (n : Int) (dd : Nat) (d : Sled) : Sled :=
  { d with ratioN := n, ratioD := dd, gRem := d.gRem * dd / (if d.ratioD = 0 then 1 else d.ratioD) }

/-- `k` master counts from position `pos`, with the armed changes split at their positions (R485). -/
def gearRun : Nat → Nat → Int → Sled → Sled
  | 0, _, k, d => gearAdvance k d
  | fuel + 1, pos, k, d =>
    match d.armed with
    | [] => gearAdvance k d
    | (at', n, dd) :: rest =>
      let ahead := masterDiff at' pos
      if ahead ≤ 0 then gearRun fuel pos k (takeRatio n dd { d with armed := rest })
      else if ahead ≤ k then
        gearRun fuel at' (k - ahead) (takeRatio n dd { (gearAdvance ahead d) with armed := rest })
      else gearAdvance k d

/-- A ratio change armed in order of position (R485); with 4 armed the state stays. -/
def armRatio (pos : Nat) (n : Int) (dd : Nat) (d : Sled) : Sled :=
  if d.armed.length < 4 then
    let rec ins : List (Nat × Int × Nat) → List (Nat × Int × Nat)
      | [] => [(pos, n, dd)]
      | (p, a, b) :: rest => if 0 ≤ masterDiff pos p then (p, a, b) :: ins rest else (pos, n, dd) :: (p, a, b) :: rest
    { d with armed := ins d.armed }
  else d

/-- Level 2 adds c to p and clears the section states of cascade 2 (R469). -/
def foldCascade (n : LaneId) (s : State) : State :=
  setLane n (fun l =>
    { l with
      sled := { l.sled with p := l.sled.p + l.sled.c / 128, c := 0 }
      loop := { l.loop with cascades := vecModify l.loop.cascades 2 (fun x => { x with secs := [], out := 0 }) } }) s

/-- Gearing engages at the nominal ratio (R484). -/
def gearEngage (n : LaneId) (s : State) : State :=
  setLane n (fun l => { l with sled := { l.sled with geared := true, ratioN := 1, ratioD := 4000 } }) s

/-- Gearing disengages: g + r/D joins p, and g and r clear (R484, R469). -/
def gearDisengage (n : LaneId) (s : State) : State :=
  if (laneAt s n).sled.geared then
    foldCascade n (setLane n (fun l =>
      { l with sled := { l.sled with geared := false, p := l.sled.p + gearTerm l.sled, g := 0, gRem := 0, armed := [] } }) s)
  else s

/-- Tracking opens: gearing disengages (R484, R387). -/
def openTracking (n : LaneId) (s : State) : State :=
  gearDisengage n (setLane n (fun l =>
    { l with loop := { l.loop with closed := #v[l.loop.closed[0], false, false] } }) s)

/-- Every axis opens: focus is lost (R387). -/
def openFocus (n : LaneId) (s : State) : State :=
  openTracking n (setLane n (fun l => { l with loop := { l.loop with closed := Vector.replicate 3 false } }) s)

/-! ### Strides -/

/-- A stride completes: posted with its tag and status, recorded and counted (R479, L+A2:04, L+E6:02). -/
def strideComplete (n : LaneId) (r : Stride) (s : State) : State :=
  let s1 := postCompletion n (.stride r.tag r.status) s
  let s2 := setLane n (fun l => { l with sled := { l.sled with last := r } }) s1
  if bit r.status 0 then lbump n 0xE6 2 0 1 s2
  else if bit r.status 1 then lbump n 0xE6 2 1 1 s2
  else if bit r.status 3 then lbump n 0xE6 2 2 1 s2
  else s2

/-- Strides that complete together with a status bit added. -/
def strideDrop (n : LaneId) (st : Nat) : List Stride → State → State
  | [], s => s
  | r :: rest, s => strideDrop n st rest (strideComplete n { r with status := r.status ||| st } s)

/-- The first stride of the queue begins from the present motion (R469, R475). -/
def strideStart (n : LaneId) (s : State) : State :=
  let s1 := foldCascade n s
  let d := (laneAt s1 n).sled
  setLane n (fun l =>
    { l with sled := { l.sled with profile := planStride s1 n d, running := !d.queue.isEmpty, rest := 0 } }) s1

/-- The target of a stride lies within the soft limits (R473). -/
def withinSoft (s : State) (n : LaneId) (target : Int) : Bool :=
  decide (lcfgInt s n 0xA3 1 ≤ target) && decide (target ≤ lcfgInt s n 0xA3 2)

/-- A stride is taken: refused, replacing, queued, or started (R471, R473, R475, R476). -/
def strideAccept (n : LaneId) (r : Stride) (s : State) : State :=
  if !withinSoft s n r.target then strideComplete n { r with status := 8 } s
  else
    let d := (laneAt s n).sled
    if strideReplaces r then
      strideStart n (setLane n (fun l => { l with sled := { l.sled with queue := [r], stopping := false } })
        (strideDrop n 2 d.queue s))
    else if d.queue.isEmpty then
      strideStart n (setLane n (fun l => { l with sled := { l.sled with queue := [r] } }) s)
    else
      let s1 := setLane n (fun l => { l with sled := { l.sled with queue := l.sled.queue ++ [r] } }) s
      if d.queue.length = 1 ∧ d.running ∧ !d.stopping then
        setLane n (fun l => { l with sled := { l.sled with profile := planStride s1 n (laneAt s1 n).sled } }) s1
      else s1

/-- A stop (R477): the stride in progress decelerates within its limits, the queue is aborted; at rest nothing
changes. -/
def sledStop (n : LaneId) (s : State) : State :=
  let d := (laneAt s n).sled
  match d.queue with
  | [] => s
  | r :: rest =>
    if d.running ∧ !d.stopping then
      match strideLimits s n r with
      | (_, A, J) =>
        let segs := rampSegs d.v d.a 0 A J
        let fin := (segsEval segs (3 * d.p) d.v d.a (segsTime segs)).1 / 3
        setLane n (fun l => { l with sled := { l.sled with
            queue := [{ r with status := r.status ||| 2 }], stopping := true
            profile := some { x0 := 3 * d.p, v0 := d.v, a0 := d.a, segs := segs, t := 0, target := fin, vEnd := 0 } } })
          (strideDrop n 2 rest s)
    else s

/-! ### The safe condition (R49, R168, R169) -/

/-- Short braking begins: MODE SHORT (R444, R445). -/
def shortBrake (n : LaneId) (s : State) : State :=
  lbump n 0xE5 4 0 1 (setLane n (fun l =>
    { l with spin := { l.spin with mode := 2, phase := 5, quiet := 0, shorted := false, duty := 0, stopping := true, atSpeed := false } }) s)

/-- The bridge goes to FLOAT (R421). -/
def floatBridge (n : LaneId) (phase : Nat) (s : State) : State :=
  setLane n (fun l => { l with spin := { l.spin with
    mode := 0, duty := 0, commOffset := 0, phase := phase, atSpeed := false } }) s

/-- Ramp-down of R147: the laser goes off, focus and tracking open, the sled returns to park by a stride, and the
spindle decelerates toward 240 rpm. `park` is false where the sled has stalled. A spindle at rest has nothing to ramp down. -/
def rampStart (n : LaneId) (park : Bool) (s : State) : State :=
  let turning := decide ((laneAt s n).spin.phase ≠ 0)
  let s1 := openFocus n s
  let s2 := setLane n (fun l =>
    { l with
      life := { l.life with ramping := turning, spinning := false, layer := none, band := none, jump := none }
      spin := { l.spin with stopping := turning, wobbleValid := false, atSpeed := false, near := 0 }
      startWaiting := false }) s1
  let s3 := if park then strideAccept n { Stride.zero with target := -256, flags := 2 } s2 else s2
  if !turning ∨ (laneAt s3 n).spin.phase = 3 ∨ (laneAt s3 n).spin.phase = 5 then s3 else shortBrake n s3

/-- The ramp-down as an order of level 3 (R35). -/
def rampOrder (n : LaneId) (s : State) : State := orderNow n .park (rampStart n true) s

/-- What the spindle does on detection of a fault (R169). -/
def faultSpindle (n : LaneId) (code : Nat) (s : State) : State :=
  if code = 0x110B ∨ code = 0x110C ∨ code = 0x110D then
    if (laneAt s n).spin.phase = 0 then s else shortBrake n s
  else if code = 0x1104 then s
  else if code = 0x1105 then rampStart n false s
  else if code = 0x1108 ∨ code = 0x1109 ∨ code = 0x110A ∨ code = 0x1110 then rampStart n true s
  else s

/-- Level 2 detects a fault of a lane: write modulation goes off at read power, a moving sled decelerates, the loop lost opens, the
spindle acts by R169, and the fault is posted (R49, R168). -/
def detectFault (n : LaneId) (code : Nat) (s : State) : State :=
  let st := (laneAt s n).life.st
  let s1 := safeLaser n (setLane n (fun l =>
    { l with
      flt := { l.flt with safe := true }
      wr := { l.wr with pass := l.wr.pass.map (fun p => { p with cut := true }) } }) s)
  let s2 := sledStop n s1
  let s3 := if code = 0x1102 ∨ code = 0x110C ∨ code = 0x110D then openFocus n s2
    else if code = 0x1103 then openTracking n s2 else s2
  postCompletion n (.fault code st) (faultSpindle n code s3)

/-- Set-point terms other than the profile: g + c in 2^-16 microstep. -/
def offProfile (d : Sled) : Int := gearTerm d + d.c / 128

/-- Where the profile comes to rest, in 2^-16 microstep. -/
def restPoint (d : Sled) : Int :=
  match d.profile with
  | some pr => if pr.vEnd = 0 then pr.target else (d.queue.getD 1 Stride.zero).target * 65536
  | none => d.p

/-- The profile run on by `dt` ticks; strides that reach their end complete, and the next begins in the same period
(R475, R479). -/
def profileRun (n : LaneId) : Nat → Nat → State → State
  | 0, _, s => s
  | fuel + 1, dt, s =>
    let d := (laneAt s n).sled
    match d.profile with
    | none => s
    | some pr =>
      let total := segsTime pr.segs
      let t := pr.t + dt
      if t < total then
        match segsEval pr.segs pr.x0 pr.v0 pr.a0 t with
        | (x, v, a) => setLane n (fun l => { l with sled := { l.sled with
            p := x / 3, v := v, a := a, profile := some { pr with t := t } } }) s
      else
        let r := d.queue.headD Stride.zero
        let done : Nat := if bit r.status 1 ∨ bit r.status 2 then 0 else 1
        let blended : Nat := if pr.vEnd = 0 then 0 else 16
        let s1 := setLane n (fun l => { l with sled := { l.sled with
          p := pr.target, v := pr.vEnd, a := 0, profile := none, queue := l.sled.queue.tail, running := false,
          stopping := false } }) s
        let s2 := strideComplete n { r with status := r.status ||| done ||| blended } s1
        let s3 := if strideGearAtEnd r ∧ done = 1 ∧ (laneAt s2 n).loop.closed[1] then gearEngage n s2 else s2
        if (laneAt s3 n).sled.queue.isEmpty then s3 else profileRun n fuel (t - total) (strideStart n s3)

/-- The check of R478 at a set-point period. -/
def softCheck (n : LaneId) (s : State) : State :=
  let d := (laneAt s n).sled
  let lo := 65536 * lcfgInt s n 0xA3 1
  let hi := 65536 * lcfgInt s n 0xA3 2
  let off := offProfile d
  let stopAt := restPoint d + off
  if lo ≤ stopAt ∧ stopAt ≤ hi then setLane n (fun l => { l with sled := { l.sled with atLimit := false } }) s
  else
    let outer := decide (hi < stopAt)
    let lim := if outer then hi else lo
    let sg : Int := if outer then 1 else -1
    if d.v = 0 ∧ !d.running then
      let excess := stopAt - lim
      let s1 := setLane n (fun l => { l with sled := { l.sled with
        g := l.sled.g - excess / 65536, gRem := 0, atLimit := true } }) s
      if d.atLimit then s1 else raise 0x1501 [.u8 n.val, .u8 (b2n outer), .u8 0] (lbump n 0xE6 3 0 1 s1)
    else
      let room := 3 * (sg * (lim - off - d.p))
      let J := match d.queue with
        | r :: _ => (strideLimits s n r).2.2
        | [] => qJerk (lcfg s n 0xA1 3)
      let amax := qAccel (lcfg s n 0xA1 4)
      let fits (A : Int) : Bool := decide (rampDist (sg * d.v) (sg * d.a) 0 A J ≤ room)
      let mark : List Stride := match d.queue with
        | r :: rest => { r with status := r.status ||| 4 } :: rest
        | [] => []
      if fits amax then
        let A := amax - bisect (fun k => decide (k < amax) && fits (amax - k)) 45 0
        let segs := rampSegs d.v d.a 0 A J
        raise 0x1501 [.u8 n.val, .u8 (b2n outer), .u8 0] (lbump n 0xE6 3 0 1
          (setLane n (fun l => { l with sled := { l.sled with
            queue := mark
            profile := some { x0 := 3 * d.p, v0 := d.v, a0 := d.a, segs := segs, t := 0, target := lim - off,
                              vEnd := 0 } } }) s))
      else
        let s1 := setLane n (fun l => { l with sled := { l.sled with
          p := lim - off, v := 0, a := 0, profile := none, running := false, stopping := false, queue := mark.tail,
          atLimit := true } }) s
        let s2 := match mark with
          | r :: _ => strideComplete n r s1
          | [] => s1
        detectFault n 0x1105
          (raise 0x1501 [.u8 n.val, .u8 (b2n outer), .u8 1] (lbump n 0xE6 3 0 1 s2))

/-! ### Microsteps and currents -/

/-- f(m) of a table; the empty table is the default one (R488, R492). -/
def tableAtM (t : Bytes) (m : Nat) : Nat :=
  if 256 ≤ m then 65535 else if t.isEmpty then sineTable.getD m 0 else field t (2 * m) 2

/-- Signed fractions of coils A and B, in 1/65,535 (R489). -/
def coils (t : Bytes) (e : Nat) : Int × Int :=
  let m := e % 256
  let f : Int := tableAtM t m
  let h : Int := tableAtM t (256 - m)
  if e / 256 % 4 = 0 then (h, f) else if e / 256 % 4 = 1 then (-f, h) else if e / 256 % 4 = 2 then (-h, -f) else (f, -h)

/-- A coil current on the link: amplitude (Q15) times fraction, in 2^-13 (R495). -/
def coilCurrent (amp frac : Int) : Int := sat (roundDiv (amp * frac * 8192) (32768 * 65535)) (-8192) 8191

/-- A 14-bit field of a signed value. -/
def field14 (v : Int) : Nat := (v % 16384).toNat

/-- The sled bridge command (R494). -/
def sledCommand (mode : Nat) (ia ib : Int) : Nat := mode + 4 * field14 ia + 65536 * field14 ib

/-- Word of the homing amplitude 0.3 (L+A5:08, R834). -/
def homingAmp : Int := 9830

/-- Amplitude of a mode (R494, R496). -/
def modeAmp (s : State) (n : LaneId) (mode : Nat) : Int :=
  if mode = 2 then lcfgInt s n 0xA5 4 else if mode = 1 then lcfgInt s n 0xA5 3 else 0

/-- A mode taken, with its ramp of 16 periods (R496). -/
def takeMode (s : State) (n : LaneId) (mode : Nat) (d : Sled) : Sled :=
  if d.mode = mode then d
  else { d with mode := mode, ampFrom := d.amp, ampTo := modeAmp s n mode, ampStep := 0, hold := false }

/-- One period of the amplitude's ramp. -/
def ampRun (d : Sled) : Sled :=
  if d.ampStep < 16 then
    { d with ampStep := d.ampStep + 1, amp := d.ampFrom + roundDiv ((d.ampTo - d.ampFrom) * (d.ampStep + 1)) 16 }
  else d

/-- Mode, amplitude and the counts of slow and resting periods, from the speed of the period (R496-R498). -/
def currentMode (s : State) (n : LaneId) (speed : Int) (moving : Bool) (d : Sled) : Sled :=
  let life := (laneAt s n).life
  if life.homing then { d with mode := 1, amp := homingAmp, ampStep := 16, hold := false }
  else if life.st = .off then { d with mode := 0, amp := 0, ampStep := 16, hold := false }
  else
    let strong := qSpeed (lcfg s n 0xA5 1)
    let quiet := qSpeed (lcfg s n 0xA5 1 - lcfg s n 0xA5 2)
    let d1 := { d with below := if speed < quiet then d.below + 1 else 0
                       rest := if moving || d.geared then 0 else d.rest + 1 }
    let d2 := if d1.mode = 0 then takeMode s n 1 d1 else d1
    let d3 := if d2.hold && (moving || d2.geared) then
        { d2 with hold := false, amp := modeAmp s n 1, ampTo := modeAmp s n 1, ampStep := 16 } else d2
    ampRun (if strong < speed then takeMode s n 2 d3 else d3)

/-- The microstep cell: electrical position, table change at its boundary, currents into the latch (R489-R491, R495). -/
def microstep (d : Sled) : Sled :=
  let e := roundDiv d.s 65536 - d.k
  let cross := decide (e % 256 = 0) || decide (e / 256 ≠ d.lastE / 256)
  let d1 := match d.pendingTable with
    | some t => if cross then { d with table := t, pendingTable := none } else d
    | none => d
  match coils d1.table (e % 1024).toNat with
  | (a, b) =>
    let ia := coilCurrent d1.amp a
    let ib := coilCurrent d1.amp b
    { d1 with lastE := e, ia := ia, ib := ib, latch := some (ia, ib) }

/-! ### The set-point -/

/-- Master angle of the spindle observer, 16 bits (R428). -/
def masterAngle (p : Spindle) : Nat := (p.elecRev % 4) * 16384 + p.theta * 16384 / 2 ^ 40

/-- Master counts since the last set-point, from the source in force (R483, R487); `enc` is the quadrature count. -/
def masterDelta (s : State) (n : LaneId) (enc : Nat) : Int :=
  let l := laneAt s n
  if lcfg s n 0xA6 1 = 1 ∧ !l.sled.fallback then
    masterDiff enc l.sled.encLast * (65536 / lcfg s n 0xA6 2 : Nat)
  else signed 16 ((masterAngle l.spin + 65536 - l.sled.angleLast) % 65536)

/-- The gearing term advanced over the period (R481-R485). -/
def gearPeriod (n : LaneId) (enc : Nat) (s : State) : State :=
  let k := masterDelta s n enc
  setLane n (fun l =>
    let pos := l.sled.master
    let d := if l.sled.geared then gearRun 5 pos k l.sled else l.sled
    { l with sled := { d with
        master := (((pos : Int) + k) % 2 ^ 32).toNat
        encLast := enc, angleLast := masterAngle l.spin } }) s

/-! ### Homing (R154, R155, R465, R498, R499) -/

/-- Homing begins: the sled is driven toward the inner stop at 20 mm/s (R154). -/
def beginHoming (n : LaneId) (s : State) : State :=
  setLane n (fun l => { l with
    life := { l.life with homing := true, homed := false }
    sled := { l.sled with
      queue := [], running := false, stopping := false, v := -qSpeed 2000, a := 0
      profile := some { x0 := 3 * l.sled.p, v0 := -qSpeed 2000, a0 := 0, segs := [], t := 0, target := 0, vEnd := 0 }
      homeSteps := 0, loadSum := 0, loadCount := 0, loads := [] } }) s

/-- Angle of a coil current vector (A, B), in 1/1,024 electrical revolution, by the sines of R492. -/
def vectorAngle (a b : Int) : Int :=
  let quarter (x y : Int) : Int := bisect (fun m => decide (m ≤ 256) &&
    decide (x * (tableAtM [] m.toNat : Nat) ≤ y * (tableAtM [] (256 - m.toNat) : Nat))) 9 0
  if 0 < a ∧ 0 ≤ b then quarter a b
  else if a ≤ 0 ∧ 0 < b then 256 + quarter b (-a)
  else if a < 0 ∧ b ≤ 0 then 512 + quarter (-a) (-b)
  else if b < 0 then 768 + quarter (-b) a else 0

/-- An angle brought into half an electrical revolution on either side of 0. -/
def wrapLoad (v : Int) : Int := (v + 512) % 1024 - 512

/-- The load angle of a sample (R499): from the commanded to the measured coil current vector. -/
def loadAngle (d : Sled) (sa sb : Int) : Int := wrapLoad (vectorAngle sa sb - vectorAngle d.ia d.ib)

/-- A sample of the load angle while homing, averaged over each full step; the last 9 means are kept. -/
def loadSample (sa sb e : Int) (d : Sled) : Sled :=
  let sum := d.loadSum + loadAngle d sa sb
  if d.lastE / 256 = e / 256 then { d with loadSum := sum, loadCount := d.loadCount + 1 }
  else { d with
    homeSteps := d.homeSteps + 1, loadSum := 0, loadCount := 0
    loads := (roundDiv sum (d.loadCount + 1) :: d.loads).take 9 }

/-- A stall (R499): from the 16th full step on, the load angle has changed by more than L+A3:04 from its mean over the last 8
full steps. -/
def sledStalled (s : State) (n : LaneId) : Bool :=
  let d := (laneAt s n).sled
  decide (16 ≤ d.homeSteps) && decide (d.loads.length = 9) &&
    decide (1024 * lcfg s n 0xA3 4 < 360 * (wrapLoad (d.loads.headD 0 - roundDiv (sumInt (d.loads.drop 1)) 8)).natAbs)

/-- The drive of homing ends: the sled stands still. -/
def endHoming (l : Lane) : Lane :=
  if l.life.homing then
    { l with life := { l.life with homing := false }, sled := { l.sled with profile := none, v := 0, a := 0 } }
  else l

/-- The profile of homing run on by one period. -/
def homingRun (n : LaneId) (s : State) : State :=
  setLane n (fun l =>
    match l.sled.profile with
    | none => l
    | some pr => { l with sled := { l.sled with
        p := (segsEval [] pr.x0 pr.v0 pr.a0 (pr.t + 100000)).1 / 3, v := pr.v0, a := 0, profile := some { pr with t := pr.t + 100000 } } }) s

/-- The sled's back-off from the stop by 64 full steps, 16,384 microsteps (R154, R465). -/
def backOff (n : LaneId) (s : State) : State :=
  lifeLane n 1 64 (lbump n 0xE6 1 0 64 (setLane n (fun l => { l with sled := { l.sled with
    p := l.sled.p + 65536 * 16384, s := l.sled.s + 65536 * 16384, v := 0, a := 0, profile := none } }) s))

/-- One set-point period (R467), with the coil currents sampled at it (R499). -/
def sledPeriod (n : LaneId) (enc : Nat) (sa sb : Int) (s : State) : State :=
  let homing := (laneAt s n).life.homing
  let g0 := gearTerm (laneAt s n).sled
  let s1 := gearPeriod n enc s
  let vg := 3 * (gearTerm (laneAt s1 n).sled - g0) * 48000
  let s2 := if homing then homingRun n s1 else profileRun n 9 100000 s1
  let s3 := setLane n (fun l => { l with sled := { l.sled with
    centering := l.loop.closed[1] && l.sled.geared && !l.loop.overrun.sledHeld
    c := if l.loop.overrun.sledHeld then 0 else l.loop.cascades[2].out } }) s2
  let s4 := if homing then s3 else softCheck n s3
  let d := (laneAt s4 n).sled
  let sNew := d.p + offProfile d
  let sum := d.v + vg
  let speed := if 0 ≤ sum then sum else -sum
  let moved := (if 0 ≤ sNew - d.s then sNew - d.s else d.s - sNew).toNat
  let path := d.path + moved
  let d0 := { (if homing then loadSample sa sb (roundDiv sNew 65536 - d.k) d else d) with s := sNew, path := path % 2 ^ 24 }
  let d1 := microstep (currentMode s4 n speed (d.running || decide (d.v ≠ 0)) d0)
  let s5 := setLane n (fun l => { l with sled := d1 }) s4
  let steps := path / 2 ^ 24
  if steps = 0 then s5 else lifeLane n 1 steps (lbump n 0xE6 1 0 steps s5)

/-- SLED_SETPOINT (R467): a set-point period, at the lane's sled sample instant (R63, R837). -/
def sledSetpoint (n : LaneId) (enc : Nat) (sa sb : Int) (s : State) : State :=
  if levelsRun s ∧ lanePhase s n % 100000 = 0 ∧ (laneAt s n).sled.setAt ≠ some (timerCount s) then
    sledPeriod n enc sa sb (setLane n (fun l => { l with sled := { l.sled with setAt := some (timerCount s) } }) s)
  else s

/-- SLED_SETPOINT. -/
def execSledSetpoint (n : LaneId) (master : Nat) (sa sb : Int) (s : State) : Host.Outcome State Fault Refusal :=
  .next (sledSetpoint n master sa sb s)

/-- QUIET_DELAY_EXPIRE (R496): the speed has stayed below the lower threshold for the delay. -/
def execQuietDelayExpire (n : LaneId) (s : State) : Host.Outcome State Fault Refusal :=
  .next (setLane n (fun l =>
    if l.sled.mode = 2 ∧ 48 * lcfg s n 0xA5 6 ≤ l.sled.below then { l with sled := takeMode s n 1 l.sled } else l) s)

/-- HOLD_CURRENT_TIMEOUT (R497): p has been at rest with gearing disengaged for the rest time. -/
def execHoldCurrentTimeout (n : LaneId) (s : State) : Host.Outcome State Fault Refusal :=
  .next (setLane n (fun l =>
    if l.sled.mode = 1 ∧ !l.sled.hold ∧ 48 * lcfg s n 0xA5 7 ≤ l.sled.rest then
      { l with sled := { l.sled with hold := true, ampFrom := l.sled.amp, ampTo := lcfgInt s n 0xA5 5, ampStep := 0 } }
    else l) s)

/-- ENC_FAILURE (R487): both lines changed between two samples, or no edge for a revolution above 240 rpm; the master passes to the spindle observer's angle and P continues. -/
def execEncFailure (n : LaneId) (noEdge : Bool) (s : State) : Host.Outcome State Fault Refusal :=
  let l := laneAt s n
  if lcfg s n 0xA6 1 = 1 ∧ !l.sled.fallback ∧ (noEdge → 24000 < l.spin.omega * 576000000 / 2 ^ 40) then
    .next (raise 0x1502 [.u8 n.val, .u8 (b2n noEdge)] (lbump n 0xE9 5 0 1
      (setLane n (fun l => { l with sled := { l.sled with fallback := true, angleLast := masterAngle l.spin } }) s)))
  else .next s

/-! ### Homing, shifts and tables -/

/-- The coordinate of the set-point moved by whole microsteps without moving the motor: p and k move alike (R465, R466,
R493). -/
def shiftCoordinate (n : LaneId) (by' : Int) (s : State) : State :=
  setLane n (fun l => { l with sled := { l.sled with
    p := l.sled.p + 65536 * by', s := l.sled.s + 65536 * by', shift := by'
    k := (((l.sled.k : Int) + by') % 1024).toNat, lastE := l.sled.lastE } }) s

/-- Homing ended: the set-point stands at -256 (R465). -/
def homeCoordinate (n : LaneId) (s : State) : State :=
  setLane n (fun l =>
    let old := roundDiv l.sled.s 65536
    { l with sled := { l.sled with
        p := 65536 * -256, g := 0, gRem := 0, s := 65536 * -256, v := 0, a := 0
        k := (((l.sled.k : Int) + (-256 - old)) % 1024).toNat } }) s

/-- A table's 512 bytes meet the value rules of R490. -/
def tableRises : Nat → Nat → Bytes → Bool
  | 0, _, _ => true
  | fuel + 1, low, b => if b.isEmpty then true else decide (low ≤ field b 0 2) && tableRises fuel (field b 0 2) (b.drop 2)

/-- f(0) = 0 and f is non-decreasing (R490). -/
def tableOk (b : Bytes) : Bool := decide (field b 0 2 = 0) && tableRises 256 0 (b.take 512)

/-- The table of L+A4:02 pends its boundary (R491). -/
def loadTable (n : LaneId) (b : Bytes) (s : State) : State :=
  setLane n (fun l => { l with sled := { l.sled with pendingTable := some (b.take 512) } }) s

/-- At start the persisted table of L+A4:02 is in force, or the default one where its check word is wrong, with event 1504 (R492). -/
def startTable (n : LaneId) (s : State) : State :=
  let b := stored s (laneIdx n 0xA4) 2
  let put (t : Bytes) : State := setLane n (fun l => { l with sled := { l.sled with table := t, pendingTable := none } }) s
  if crc32 (b.take 512) = field b 512 4 then put (b.take 512) else raise 0x1504 [.u8 n.val] (put defaultTable)

/-- A master source written: an ENC failure is forgotten, and source 1 counts on from here (R483, R487). -/
def sourceWritten (n : LaneId) (s : State) : State :=
  setLane n (fun l => { l with sled := { l.sled with fallback := false } }) s

end Sys2Proof.Machine
end

