-- ==== Sys2Proof/Machine/Loop.lean ====
section
/-! DEFINITION. The loop engine: number formats, the observer and biquad datapaths, the selector, the runout table,
banks, releases and deadline overruns (08_loop_engine.md, R58-R67, R778). -/

namespace Sys2Proof.Machine

/-! ### Number formats -/

/-- Saturation to Q8.23 (R379). -/
def sat32 (v : Int) : Int := sat v (-2147483648) 2147483647

/-- An accumulator of Q11.51 rounded to Q8.23, before saturation (R380). -/
def round28 (acc : Int) : Int := (acc + 2 ^ 27) / 2 ^ 28

/-- Sum of products of two lists. -/
def dot : List Int → List Int → Int
  | a :: as, b :: bs => a * b + dot as bs
  | _, _ => 0

/-- `len` words from an offset. -/
def row (w : List Int) (off len : Nat) : List Int := (w.drop off).take len

/-- An unsigned field of a bank's word. -/
def wordBits (w : List Int) (i hi lo : Nat) : Nat := bits ((w.getD i 0 % 2 ^ 32).toNat) hi lo

/-- The check word of a bank is right (R388, R392). -/
def bankCheck (b : Bytes) : Bool := decide (crc32 ((b ++ List.replicate 2048 0).take 2044) = field b 2044 4)

/-- A QC limit as Q8.23: 2^4 added and the low 5 bits discarded (R384). -/
def umaxQ (w : Int) : Int := (w + 16) / 32

/-! ### Runout -/

/-- The disc angle of a sample in 1/65,536 revolution, predicted for the release (R399). -/
def discAngle (l : Lane) : Nat :=
  let m := ((((l.spin.elecRev % 4 : Nat) : Int) * 2 ^ 40 + l.spin.theta + l.spin.omega / 4) / 2 ^ 26) % 65536
  ((m - (l.loop.runout.idx : Int)) % 65536).toNat

/-- The runout value of an axis at a disc angle (R399); 0 until the index angle is latched or while not valid (R400). -/
def runoutValue (r : Runout) (a : Fin 3) (ang : Nat) : Int :=
  if r.valid ∧ r.idxValid then
    let t := r.table[a]
    let i := ang / 64
    let t0 := t.getD i 0
    t0 + (t.getD ((i + 1) % 1024) 0 - t0) * (ang % 64 : Nat) / 64
  else 0

/-- A sample put into a bin. -/
def binAdd (m : List (Nat × Int × Nat)) (i : Nat) (v : Int) : List (Nat × Int × Nat) :=
  match mapGet m i with
  | none => mapSet m i (v, 1)
  | some (t, k) => mapSet m i (t + v, k + 1)

/-- Mean of a bin; 0 for an empty one (R401). -/
def binMean (m : List (Nat × Int × Nat)) (i : Nat) : Int :=
  match mapGet m i with
  | none => 0
  | some (t, k) => roundDiv t (if k = 0 then 1 else k)

/-- The bins of one revolution added to those of a run. -/
def binJoin : List (Nat × Int × Nat) → List (Nat × Int × Nat) → List (Nat × Int × Nat)
  | m, [] => m
  | m, (i, t, k) :: rest =>
    binJoin (match mapGet m i with
      | none => mapSet m i (t, k)
      | some (t', k') => mapSet m i (t + t', k + k')) rest

/-- The table with the smoothed means added (R401), times a gain in Q15 (R402). -/
def runoutAdd (t : List Int) (m : List (Nat × Int × Nat)) (gain : Int) : List Int :=
  (upTo 1024).map (fun i =>
    let b3 := binMean m ((i + 1023) % 1024) + 2 * binMean m i + binMean m ((i + 1) % 1024)
    sat32 (t.getD i 0 + roundDiv (b3 * gain) (4 * 32768)))

/-! ### Offsets -/

/-- A value moved toward its goal by at most a step. -/
def approach (v goal step : Int) : Int :=
  if goal < v - step then v - step else if v + step < goal then v + step else goal

/-- An extent read is in progress on the lane: READING, or a warm-up or lead-in read. -/
def laneReading (l : Lane) : Bool := l.rd.jobs.toList.any (fun j => j.isSome)

/-- Mode to which level 2 sets the read channels (R284): 0 idle, 1 read, 2 verify. -/
def modeGoal (l : Lane) : Nat := if l.life.st = .writing ∨ l.warm.testPass.isSome then 2 else if laneReading l then 1 else 0

/-- Mode of the read channels in force: as of the last sector preamble. DEDUCED (log 81): idle on a lane that follows no groove. -/
def channelMode (l : Lane) : Nat := if l.loop.closed[1] then l.rd.mode else 0

/-- The boundary of R523 has been reached, given the mark of the lane's frame or pass. -/
def atBoundary (l : Lane) (mark : Bool) : Bool := if laneReading l ∨ l.life.st = .writing then mark else true

/-- The index that the part in progress probes, and its step d (R516). -/
def probeStep (s : State) (n : LaneId) (w : WarmUp) : Option (Nat × Int) :=
  if !w.running then none
  else if w.part = 3 then some (24, (lcfg s n 0xC2 7 : Nat))
  else if w.part = 4 then some (26, (lcfg s n 0xC2 8 : Nat))
  else if w.part = 5 then some (27, w.v0 * (lcfg s n 0xC3 2 : Nat) / 100)
  else none

/-- Where the value in force of a trim index moves to: the probe level of the part in progress (R516), else the value last
accepted or written. -/
def trimGoal (s : State) (n : LaneId) (w : WarmUp) (i : Nat) : Int :=
  match probeStep s n w with
  | some (k, d) => if k = i then w.v0 + ((w.probe : Int) - 1) * d else w.trims.getD i 0
  | none => w.trims.getD i 0

/-- A trim within the limits of the front end: gain codes 0 to 144, offsets of ±63.5 mV (R288, R289). -/
def rfLimit (i : Nat) (v : Int) : Int := if i < 8 then sat v 0 144 else if i < 16 then sat v (-127) 127 else v

/-- The amplifier gain code in force of a channel: trim and AGC correction (R288, L+22:04). -/
def gainCode (l : Lane) (c : Fin 8) : Int := sat (l.warm.inForce.getD c.val 0 + l.rd.channels[c].agc) 0 144

/-- The next value in force of a trim index (R523). -/
def trimStep (s : State) (n : LaneId) (w : WarmUp) (i : Nat) : Int :=
  let v := w.inForce.getD i 0
  let goal := trimGoal s n w i
  if i = 24 ∨ i = 25 then approach v goal (lcfg s n 0xC2 5 : Nat)
  else if i = 26 then approach v goal (lcfg s n 0xC2 6 : Nat)
  else rfLimit i goal

/-- Values of the indices of a range take force; 4 frames do not count after a change (R511), and a change of a servo
offset or of the read-power factor while reading raises the equaliser step (R332). -/
def takeTrims (n : LaneId) (p : Nat → Bool) (s : State) : State :=
  let w := (laneAt s n).warm
  let next := (upTo 32).map (fun i => if p i then trimStep s n w i else w.inForce.getD i 0)
  if next = w.inForce then s
  else setLane n (fun l =>
    { l with
      warm := { l.warm with inForce := next, settle := 4 }
      rd := { l.rd with fast := if laneReading l && (upTo 32).any (fun i => decide (24 ≤ i ∧ i ≤ 27) && p i &&
        decide (next.getD i 0 ≠ w.inForce.getD i 0)) then 4 else l.rd.fast } }) s

/-- RF trims of channel `c` take force; the channel acquires where one changes (R523, R332). -/
def takeRf (n : LaneId) (c : ChanId) (s : State) : State :=
  let w := (laneAt s n).warm
  let same := decide (w.inForce.getD c.val 0 = w.trims.getD c.val 0) &&
    decide (w.inForce.getD (8 + c.val) 0 = w.trims.getD (8 + c.val) 0)
  if same then s
  else takeTrims n (fun i => decide (i = c.val ∨ i = 8 + c.val))
    (setLane n (fun l => { l with rd := { l.rd with
      channels := vecModify l.rd.channels c (fun x => { x with reacquire := true }) } }) s)

/-- Every channel. -/
def allChans : List ChanId := [0, 1, 2, 3, 4, 5, 6, 7]

/-- RF trims take force at once on a lane in no extent (R523). -/
def takeRfAtOnce (n : LaneId) (s : State) : State :=
  let l := laneAt s n
  if laneReading l ∨ l.life.st = .writing then s else allChans.foldl (fun a c => takeRf n c a) s

/-- A frame begins on a lane that reads: its boundary of R523, for the RF trims and for the marks. -/
def frameBegins (n : LaneId) (s : State) : State :=
  allChans.foldl (fun a c => takeRf n c a)
    (setLane n (fun l => { l with warm := { l.warm with mark := true, powerMark := true, settle := l.warm.settle - 1 } }) s)

/-- The channels of a lane whose mode changes abandon their framing (R323) and acquire (R294). -/
def idleChannels (n : LaneId) (s : State) : State :=
  setLane n (fun l => { l with rd := { l.rd with channels := l.rd.channels.map (fun x => { x with
    sync := 0, reacquire := true, misses := 0, flags := [], dropout := none, aligns := [], falseStarts := [], blank := false
    noTiming := false, laneDrop := false }) } }) s

/-- The framing of a sector at an address ends: spans that reach into the next sector stay, and the channel tracks into the next frame. -/
def Channel.endFrame (x : Channel) (psa : Option Nat) : Channel :=
  { x with
    ahead := psa.map (fun p => p + 4), dropped := !x.flags.isEmpty || x.dropout.isSome
    flags := (x.flags.filter (fun f => decide (40304 < f.2))).map (fun f => (0, f.2 - 40304))
    dropout := x.dropout.map (fun _ => 0), aligns := [], falseStarts := [], blank := false, noTiming := false, laneDrop := false }

/-- The channel has framed the sector by its sync mark. -/
def Channel.framed (x : Channel) : Bool := !x.noTiming && !x.blank && !x.aligns.isEmpty

/-- A pass begins: its boundary of R523, for the RF trims of the V channels, the write-power factors and the marks. -/
def passBegins (n : LaneId) (s : State) : State :=
  let s1 := idleChannels n (setLane n (fun l => { l with warm := { l.warm with mark := true, powerMark := true } }) s)
  takeTrims n (fun i => decide (28 ≤ i)) ([4, 5, 6, 7].foldl (fun a c => takeRf n c a) s1)

/-- Detector trims and servo offsets take force at the boundary, in limited steps (R523). -/
def takeOffsets (n : LaneId) (s : State) : State :=
  if atBoundary (laneAt s n) (laneAt s n).warm.mark then
    setLane n (fun l => { l with warm := { l.warm with mark := false } })
      (takeTrims n (fun i => decide (16 ≤ i ∧ i ≤ 26)) s)
  else s

/-- The read-power factor takes force at a read-power sample instant (R523). -/
def takePower (n : LaneId) (s : State) : State :=
  if atBoundary (laneAt s n) (laneAt s n).warm.powerMark then
    setLane n (fun l => { l with warm := { l.warm with powerMark := false } }) (takeTrims n (fun i => decide (i = 27)) s)
  else s

/-- r of R384 for axis `a`: the servo offset times its scale, in Q8.23 (R504); the ladder's offsets add (R525). -/
def rowOffset (s : State) (n : LaneId) (a : Nat) : Int :=
  let l := laneAt s n
  let extra : Int := if a = 0 then l.rd.focusOffset else if a = 1 then l.rd.trackOffset else 0
  let scale := signed 32 (elem s (laneIdx n 0xC2) 4 4 a)
  sat32 (((l.warm.inForce.getD (24 + a) 0 + extra) * scale + 16) / 32)

/-! ### Banks -/

/-- The initial states of a bank (R388). -/
def bankX0 (b : Bytes) : List Int :=
  let w := wordsOf b
  (row w 433 12).take (wordBits w 0 7 0)

/-- The observer reference loaded into the active and shadow copies, with the states from x0 (R414 step 3). -/
def reloadObserver (l : Lane) : Lane :=
  { l with loop := { l.loop with
      banks := { l.loop.banks with obsActive := l.loop.banks.obsRef, obsShadow := l.loop.banks.obsRef }
      x := bankX0 l.loop.banks.obsRef
      overrun := { l.loop.overrun with reloadObs := false } } }

/-- An observer switch (R409, R411, R413). -/
def switchObserver (l : Lane) : Lane :=
  let b := l.loop.banks
  let w := wordsOf b.obsShadow
  { l with loop := { l.loop with
      banks := { b with obsActive := b.obsShadow, obsShadow := b.obsActive, obsPending := false }
      x := if wordBits w 2 0 0 = 1 then bankX0 b.obsShadow else l.loop.x } }

/-- A biquad switch (R409, R411): section states are kept. -/
def switchBiquad (l : Lane) : Lane :=
  let b := l.loop.banks
  { l with loop := { l.loop with banks := { b with bqActive := b.bqShadow, bqShadow := b.bqActive, bqPending := false } } }

/-- The biquad reference loaded, section states kept; the loops held for the reload resume (R414 step 4, R415). -/
def reloadBiquad (tick : Nat) (l : Lane) : Lane :=
  { l with loop := { l.loop with
      banks := { l.loop.banks with bqActive := l.loop.banks.bqRef, bqShadow := l.loop.banks.bqRef }
      overrun := { l.loop.overrun with
        reloadBq := false, readPowerHeld := false, spindleHeld := false, sledHeld := false, reloadAt := some tick } } }

/-- What is due for the observer bank at a sample instant: the reload, else a pending switch. -/
def observerBanks (n : LaneId) (s : State) : State :=
  let l := laneAt s n
  if l.loop.overrun.reloadObs ∧ !l.loop.overrun.checkDue then
    lbump n 0xE4 6 0 1 (setLane n reloadObserver s)
  else if l.loop.banks.obsPending then lbump n 0xE4 5 0 1 (setLane n switchObserver s)
  else s

/-- What is due for the biquad bank at a 24 kHz sample instant. -/
def biquadBanks (n : LaneId) (s : State) : State :=
  let l := laneAt s n
  if l.loop.overrun.reloadBq ∧ !l.loop.overrun.checkDue then
    lbump n 0xE4 6 0 1 (setLane n (reloadBiquad s.ticks) s)
  else if l.loop.banks.bqPending then lbump n 0xE4 5 1 1 (setLane n switchBiquad s)
  else s

/-! ### The observer update (R384) -/

/-- Detector values of converter codes (R382). -/
def detectorValues (codes : List Int) : List Int := (upTo 8).map (fun j => 256 * codes.getD j 0)

/-- Sum of the detectors of a mask. -/
def maskSum (mask : Nat) (d : List Int) : Int := sumInt ((upTo 8).map (fun j => if bit mask j then d.getD j 0 else 0))

/-- The measurements of a bank (R384). -/
def measure (w : List Int) (d : List Int) : List Int :=
  let ny := wordBits w 0 15 8
  let sum := maskSum (wordBits w 1 15 8) d
  let den := if sum < 32768 then (32768 : Int) else sum
  (upTo ny).map (fun i =>
    let y := sat32 (round28 (dot (row w (382 + 8 * i) 8) d))
    if bit (wordBits w 1 5 0) i then sat32 (roundDiv (y * 2 ^ 23) den.toNat) else y)

/-- The innovation e := y - r - C x, rounded once (R380, R384). -/
def innovation (w : List Int) (x y r : List Int) : List Int :=
  (upTo y.length).map (fun i =>
    sat32 (round28 ((y.getD i 0 - r.getD i 0) * 2 ^ 28 - dot (row w (256 + 12 * i) 12) x)))

/-- The feedback of an axis before saturation: -K x - Ke e. -/
def feedback (w : List Int) (x e : List Int) (a : Nat) : Int :=
  round28 (-(dot (row w (328 + 12 * a) 12) x) - dot (row w (364 + 6 * a) 6) e)

/-- Next state of a row before saturation: A x + B u + L e. -/
def nextRow (w : List Int) (x u e : List Int) (i : Nat) : Int :=
  round28 (dot (row w (4 + 12 * i) 12) x + dot (row w (148 + 3 * i) 3) u + dot (row w (184 + 6 * i) 6) e)

/-- A value lies outside Q8.23 (R381). -/
def saturates (v : Int) : Bool := decide (sat32 v ≠ v)

/-- The observer update of a lane from its detector values and the feedforward f (R384). -/
def observerCell (s : State) (n : LaneId) (d f : List Int) : List Int × List Int × List Int × Bool × Bool :=
  let l := laneAt s n
  let w := wordsOf l.loop.banks.obsActive
  let x := l.loop.x
  let y := measure w d
  let r := [rowOffset s n 0, rowOffset s n 1, rowOffset s n 2]
  let e := innovation w x y r
  let ufb := (upTo 3).map (feedback w x e)
  let ang := discAngle l
  let u := (List.ofFn (fun a : Fin 3 => a)).map (fun a =>
    let m := umaxQ (w.getD (430 + a.val) 0)
    let fa := f.getD a.val 0
    if l.loop.closed[a] then sat (sat32 (ufb.getD a.val 0) + fa + runoutValue l.loop.runout a ang) (-m) m
    else sat fa (-m) m)
  let xs := (upTo (wordBits w 0 7 0)).map (nextRow w x u e)
  (u, ufb.map sat32, xs.map sat32, xs.any saturates, ufb.any saturates)

/-- Bins of the closed axes whose feedforward is 0 (R401). -/
def binSample (ang : Nat) (ufb f : List Int) (l : Lane) : Lane :=
  let r := l.loop.runout
  if (r.learning || r.valid) && r.idxValid then
    { l with loop := { l.loop with runout := { r with
        revBins := Vector.ofFn (fun a : Fin 3 =>
          if l.loop.closed[a] ∧ f.getD a.val 0 = 0 then binAdd r.revBins[a] (ang / 64) (ufb.getD a.val 0)
          else r.revBins[a]) } } }
  else l

/-- The spindle observer advances by one observer period (R427, R428). -/
def spindleAdvance (p : Spindle) : Spindle :=
  let t := (p.theta : Int) + p.omega
  let k := t / 2 ^ 40
  let er := ((p.elecRev : Int) + k) % 4
  { p with
    theta := (t % 2 ^ 40).toNat, elecRev := er.toNat
    turns := p.turns + (((p.elecRev : Int) + k) / 4).toNat
    lastCross := p.lastCross + p.omega.toNat }

/-- The floating phase of a STEP (R422): 2 C, 1 B, 0 A. -/
def floatingPhase (step : Nat) : Nat := 2 - step % 3

/-- The sample of the floating phase against its reference, where it is used (R426): with the conducting pair switched on, against half
the bus voltage; below |DUTY| 0.125 in the freewheeling part, against 0 V. The carrier is centred on the 48 kHz instant (R424). -/
def crossSample (p : Spindle) (bus : Nat) (j : Nat) : Option Int :=
  let duty := p.dutyOn.natAbs
  let driven := decide (min j (8 - j) * 8192 ≤ duty)
  let v := p.volts.getD (floatingPhase p.step) 0
  if 4096 ≤ duty then (if driven then some (2 * v - bus) else none) else if driven then none else some (2 * v)

/-- The spindle's part of a sample instant (R425 to R428): angle, currents, voltages, and the samples that a crossing rests on. -/
def spindleSample (s : State) (n : LaneId) (ia ib : Int) (volts : List Int) (l : Lane) : Lane :=
  let j := lanePeriod s n % 8
  let p := { (spindleAdvance l.spin) with
    ia := ia, ib := ib, ic := -(ia + ib), volts := (upTo 3).map (fun i => volts.getD i 0)
    dutyOn := if j = 4 then l.spin.duty else l.spin.dutyOn }
  let seen := match crossSample p s.segs[segOf n].mv j with
    | some v => (v, timerCount s) :: p.crossing.take 1
    | none => p.crossing
  { l with spin := { p with crossing := seen } }

/-- The observer update of a lane into its latch (R384, R381); a late result does not reach the latch (R66). -/
def observerCompute (n : LaneId) (codes f : List Int) (late : Bool) (s : State) : State :=
  if late then setLane n (fun l => { l with loop := { l.loop with latch := none } }) s
  else
    match observerCell s n (detectorValues codes) f with
    | (u, ufb, x, xsat, usat) =>
      let ang := discAngle (laneAt s n)
      let t1 := setLane n (fun l =>
        binSample ang ufb f { l with loop := { l.loop with latch := some u, x := x } }) s
      let t2 := if xsat then lbump n 0xE4 3 0 1 t1 else t1
      if usat then lbump n 0xE4 4 0 1 t2 else t2

/-- The lane's observer sample instant has come and its sample has not been taken (R63, R64, R837). -/
def observerDue (s : State) (n : LaneId) : Bool :=
  levelsRun s && decide (laneOffset s n = 0) && decide ((laneAt s n).loop.sampledAt ≠ some (timerCount s))

/-- A sample: banks and offsets that take force at the instant, the spindle observer's advance with the sampled voltages and currents
(R427), and the update into the output latch. -/
def observerSample (n : LaneId) (codes f : List Int) (ia ib : Int) (volts : List Int) (late : Bool) (s : State) : State :=
  let s1 := takeOffsets n (observerBanks n (setLane n (fun l =>
    { l with loop := { l.loop with sampledAt := some (timerCount s) } }) s))
  let t0 := (laneAt s1 n).spin.turns
  let s2 := setLane n (spindleSample s1 n ia ib volts) s1
  let s3 := observerCompute n codes f late s2
  let k := (laneAt s3 n).spin.turns - t0
  if k = 0 then s3 else lifeLane n 0 k (lbump n 0xE5 1 0 k s3)

/-- OBSERVER_UPDATE (R384). -/
def observerUpdate (n : LaneId) (codes f : List Int) (ia ib : Int) (volts : List Int) (late : Bool) (s : State) : State :=
  if observerDue s n then observerSample n codes f ia ib volts late s else s

/-- OBSERVER_UPDATE. -/
def execObserverUpdate (n : LaneId) (codes f : List Int) (ia ib : Int) (volts : List Int) (late : Bool) (s : State) :
    Host.Outcome State Fault Refusal :=
  .next (observerUpdate n codes f ia ib volts late s)

/-! ### Cascades (R390, R391, R395) -/

/-- What a cascade delivers: its output, its next section states, and whether an output and a state saturate (R381). -/
structure CascadeOut where
  out : Int
  secs : List (Int × Int)
  outSat : Bool
  stateSat : Bool

/-- The sections of a cascade from its coefficient words, 5 to the section. -/
def sections : Nat → List Int → List (Int × Int) → Int → CascadeOut
  | 0, _, _, v => { out := v, secs := [], outSat := false, stateSat := false }
  | k + 1, c, st, v =>
    let p := st.headD (0, 0)
    let w := round28 (c.getD 0 0 * v + p.1 * 2 ^ 28)
    let s1 := round28 (c.getD 1 0 * v - c.getD 3 0 * sat32 w + p.2 * 2 ^ 28)
    let s2 := round28 (c.getD 2 0 * v - c.getD 4 0 * sat32 w)
    let r := sections k (c.drop 5) st.tail (sat32 w)
    { out := r.out, secs := (sat32 s1, sat32 s2) :: r.secs
      outSat := saturates w || r.outSat, stateSat := saturates s1 || saturates s2 || r.stateSat }

/-- The output of a cascade and its next section states (R390, R391). -/
def cascadeRun (w : List Int) (c : Nat) (st : List (Int × Int)) (v : Int) : CascadeOut :=
  let blk := row w (48 * c) 48
  let v0 := round28 (blk.getD 1 0 * v)
  let r := sections (wordBits blk 0 3 0) (blk.drop 2) st (sat32 v0)
  let o := round28 (blk.getD 42 0 * r.out)
  { r with out := sat (sat32 o) (blk.getD 44 0) (blk.getD 43 0), outSat := r.outSat || saturates v0 || saturates o }

/-- Cascade `c` run with an input, at the sample instant of the slot; with `hold` its section states stay (R396). A late result is
discarded, states and all (R66). -/
def runCascade (n : LaneId) (c : Fin 6) (v : Int) (hold late : Bool) (s : State) : State :=
  let l := laneAt s n
  let x := l.loop.cascades[c]
  let put (y : Cascade) : State := setLane n (fun l => { l with loop := { l.loop with cascades := l.loop.cascades.set c y } }) s
  if late then put { x with latch := none }
  else
    let r := cascadeRun (wordsOf l.loop.banks.bqActive) c.val x.secs v
    let s1 := put { x with
      secs := if hold then x.secs else r.secs, out := r.out, latch := some r.out, born := timerCount s - laneOffset s n }
    let s2 := if r.stateSat && !hold then lbump n 0xE4 3 0 1 s1 else s1
    if r.outSat then lbump n 0xE4 4 0 1 s2 else s2

/-- DIRMASK excludes a direction: bit 0 for positive, bit 1 for negative (R392, R395). -/
def abstains (mask : Nat) (dir : Int) : Bool := if 0 < dir then !bit mask 0 else if dir < 0 then !bit mask 1 else true

/-- Magnitudes of the four competitors (R395). -/
def competitors (l : Lane) : Int × List Int :=
  let w := wordsOf l.loop.banks.bqActive
  let o0 := l.loop.cascades[0].released
  let dir : Int := if 0 < o0 then 1 else if o0 < 0 then -1 else 0
  let m (mask : Nat) (o : Int) : Int := if dir = 0 ∨ abstains mask dir then 2147483647 else if o < 0 then 0 else o
  (dir, [dir * o0, m (wordBits w 289 1 0) (w.getD 288 0), m (wordBits w (48 * 4) 5 4) l.loop.cascades[4].out,
    m (wordBits w (48 * 5) 5 4) l.loop.cascades[5].released])

/-- The lowest index of the least value. -/
def argMin : List Int → Nat → Nat × Int → Nat
  | [], _, best => best.1
  | v :: rest, i, best => argMin rest (i + 1) (if v < best.2 then (i, v) else best)

/-- The selector at a 48 kHz instant (R395-R397). -/
def selector (l : Lane) : Lane :=
  match competitors l with
  | (dir, m) =>
    let win := argMin m 0 (0, m.getD 0 0)
    let lose (c : Fin 6) (k : Nat) (v : Vector Cascade 6) : Vector Cascade 6 :=
      vecModify v c (fun x => { x with lost := decide (win ≠ k) })
    let pos := l.loop.tracePos
    { l with
      loop := { l.loop with
        winner := win, selected := dir * m.getD win 0
        cascades := lose 5 3 (lose 4 2 (lose 0 0 l.loop.cascades))
        trace := (l.loop.trace ++ List.replicate (if l.loop.trace.length < 1024 then 1024 else 0) 0).take 1024
          |>.set pos win
        tracePos := (pos + 1) % 1024 }
      spin := { l.spin with regenWins := if win = 2 then l.spin.regenWins + 1 else 0 } }

/-! ### Spindle quantities -/

/-- Measured speed in 0.01 rpm (L+80:02). -/
def speedCenti (p : Spindle) : Int := p.omega * 576000000 / 2 ^ 40

/-- Measured speed in Q8.23 of 1,000 rpm (R436). -/
def speedQ (p : Spindle) : Int := p.omega * 5760 / 2 ^ 17

/-- 2 pi times 10^15. -/
def twoPi : Nat := 6283185307179586

/-- Radius of a band in nm (R179). -/
def bandRadius (b : Nat) : Nat := 22000000 + 960 * b

/-- Speed of a linear velocity at a band, in rpm / 2,400,000 (R435). -/
def clvRef (v b : Nat) : Int := (v * 144000000 * 1000000 * 1000000000000000 / (twoPi * bandRadius b) : Nat)

/-- The pacer's velocity in force, or the one the ladder orders (R456). -/
def velocity (l : Lane) : Nat := l.pace.override.getD l.pace.v

/-- The speed set-point of a lane, rpm / 2,400,000 (R435): 240 rpm on a stop (R147). -/
def speedSetpoint (s : State) (n : LaneId) : Int :=
  let l := laneAt s n
  let top : Int := 2400000 * (lcfg s n 0x81 3 : Nat)
  let order : Int := min top (2400000 * (l.spin.order : Nat))
  if l.spin.stopping then 2400000 * 240
  else match l.life.band with
    | some b => if l.spin.wobbleValid then min top (clvRef (velocity l) b) else order
    | none => order

/-- Electrical advance per observer period at 240 rpm, 2^-40 revolution: the end of the open-loop ramp (R431). -/
def openLoopTop : Int := 45812984

/-- SPEED_RAMP (R434, R252, R439): the reference moves toward the set-point at a 24 kHz sample; a stop that has come down to
240 rpm goes on by short braking (R147, R445). -/
def speedRamp (n : LaneId) (s : State) : State :=
  let l := laneAt s n
  let goal := speedSetpoint s n
  let up : Int := 100 * (if l.life.st = .writing then lcfg s n 0x44 1 else lcfg s n 0x81 1 : Nat)
  let down : Int := 100 * (if l.life.st = .writing then lcfg s n 0x44 1 else lcfg s n 0x81 2 : Nat)
  let r := if l.spin.ref + up < goal then l.spin.ref + up else if goal < l.spin.ref - down then l.spin.ref - down else goal
  let cap := 24000 * speedCenti l.spin * 1005 / 1000
  let r' := if l.spin.limited ∧ cap < r then cap else r
  let tol : Int := goal * (lcfg s n 0x81 4 : Nat) / 100
  let diff := 24000 * speedCenti l.spin - goal
  let inTol := decide (-tol ≤ diff) && decide (diff ≤ tol)
  let openRate := min (l.spin.omega + openLoopTop / (24 * lcfg s n 0x83 4 : Nat)) openLoopTop
  if l.spin.phase = 3 ∧ l.spin.stopping ∧ inTol then shortBrake n s
  else setLane n (fun l =>
    if l.spin.phase = 2 then
      { l with spin := { l.spin with
        omega := openRate, near := if l.spin.omega = openLoopTop then l.spin.near + 1 else 0 } }
    else
      { l with spin := { l.spin with
        ref := r', writeRamp := decide (l.life.st = .writing)
        near := if inTol then l.spin.near + 1 else 0
        atSpeed := if inTol then l.spin.atSpeed else false
        coast := l.spin.coast && decide (goal < 24000 * speedCenti l.spin) } }) s

/-- The current of the high-side phase of the STEP in force, mA (R422, R436). -/
def pairCurrent (p : Spindle) : Int := if p.step / 2 = 0 then p.ia else if p.step / 2 = 1 then p.ib else p.ic

/-- The largest magnitude of the phase currents, mA. -/
def windingCurrent (p : Spindle) : Int :=
  let a (v : Int) : Int := if v < 0 then -v else v
  max (a p.ia) (max (a p.ib) (a p.ic))

/-- Milli-units as Q8.23. -/
def milliQ (v : Int) : Int := sat32 (v * 2 ^ 23 / 1000)

/-- The spindle has been at rest for five time constants, as it has at power-up (R437). -/
def longRest (s : State) (n : LaneId) : Bool := decide (5 * lcfg s n 0x85 4 * 24000 ≤ (laneAt s n).spin.rested)

/-- The winding temperature estimate at a 24 kHz sample, 0.1 degC * 2^20 (R437). -/
def thermal (s : State) (n : LaneId) : Int :=
  let l := laneAt s n
  let tau := lcfg s n 0x85 4
  let i := pairCurrent l.spin
  let pmw : Int := i * i * (lcfg s n 0x85 2 : Nat) / 1000000
  let goal := 2 ^ 20 * l.life.temp + 2 ^ 20 * (lcfg s n 0x85 3 : Nat) * pmw / 10000
  if longRest s n then 2 ^ 20 * l.life.temp
  else l.spin.temp + (goal - l.spin.temp) / (24000 * (if tau = 0 then 1 else tau) : Nat)

/-- Set-point of cascade 1: the selected current, the start current of the open-loop ramp, or the short-brake current (R431, R436,
R444). -/
def currentInput (s : State) (n : LaneId) : Int :=
  let l := laneAt s n
  let lim := (wordsOf l.loop.banks.bqActive).getD 288 0
  if l.spin.mode = 2 then lim * lcfgInt s n 0x84 3 / 32768 - milliQ (windingCurrent l.spin)
  else if l.spin.phase = 2 then milliQ ((lcfg s n 0x83 3 : Nat) - pairCurrent l.spin)
  else sat32 (l.loop.selected - milliQ (pairCurrent l.spin))

/-- Counts of the 48 kHz sample that later happenings rest on: cascade 1 at its upper limit (R439), winding current below
2 % of the limit (R444), time voltage-limited and energy regenerated (L+E5:05, L+E5:06). -/
def countSample (n : LaneId) (s : State) : State :=
  let l := laneAt s n
  let w := wordsOf l.loop.banks.bqActive
  let top := decide (w.getD (48 + 43) 0 ≤ l.loop.cascades[1].out)
  let atL := top && decide (0 < l.loop.selected) && decide (l.loop.winner = 0)
  let i := windingCurrent l.spin
  let quiet := decide (milliQ i * 50 < w.getD 288 0)
  let d := if l.spin.duty < 0 then -l.spin.duty else l.spin.duty
  let regen : Nat := if l.loop.selected < 0 ∧ l.spin.mode = 1
    then ((s.segs[segOf n].mv : Int) * i * d / 32768 / 48).toNat else 0
  let lr := if l.spin.limited then l.spin.limitedRem + 1 else l.spin.limitedRem
  let rg := l.spin.regen + regen
  let s1 := setLane n (fun l => { l with spin := { l.spin with
    atLimit := if atL then l.spin.atLimit + 1 else 0
    belowLimit := if top then 0 else l.spin.belowLimit + 1
    quiet := if quiet then l.spin.quiet + 1 else 0
    limitedRem := lr % 48, regen := rg % 1000000000 } }) s
  let s2 := if lr / 48 = 0 then s1 else lbump n 0xE5 5 0 (lr / 48) s1
  if rg / 1000000000 = 0 then s2 else lbump n 0xE5 6 0 (rg / 1000000000) s2

/-- A cascade that was late is not recorded as released; the list names the late ones (R65). -/
def isLate (late : List Nat) (c : Nat) : Bool := late.elem c

/-- The slot of a 48 kHz instant (R377): read power, bus-voltage limit, selector, current, sled. -/
def slot48 (n : LaneId) (pm : Int) (late : List Nat) (s : State) : State :=
  let ov := (laneAt s n).loop.overrun
  let spindleOff := ov.spindleHeld || ov.stopped
  let s1 := if ov.readPowerHeld then s else runCascade n 3 (256 * pm) false (isLate late 3) s
  let reg : Int := cfg s (segIdx (segOf n)) 4
  let s2 := if spindleOff then s1 else
    runCascade n 4 (milliQ (reg - (s.segs[segOf n].mv : Int))) (laneAt s1 n).loop.cascades[4].lost (isLate late 4) s1
  let s3 := if spindleOff then s2 else
    let t := setLane n selector s2
    lbump n 0x63 3 (laneAt t n).loop.winner 1 t
  let s4 := if spindleOff then s3 else runCascade n 1 (currentInput s3 n) false (isLate late 1) s3
  let s5 := if ov.sledHeld then s4 else
    let l := laneAt s4 n
    runCascade n 2 (l.loop.released.getD 1 0) (!(l.loop.closed[1] && l.sled.geared)) (isLate late 2) s4
  countSample n s5

/-- The slot of p = 1 (R377): speed and thermal limit. -/
def slot24 (n : LaneId) (late : List Nat) (s : State) : State :=
  let ov := (laneAt s n).loop.overrun
  let tmp := thermal s n
  let s0 := setLane n (fun l => { l with spin := { l.spin with
    temp := tmp, rested := if l.spin.phase = 0 then l.spin.rested + 1 else 0 } }) s
  if ov.spindleHeld || ov.stopped then s0
  else
    let l := laneAt s0 n
    let s1 := runCascade n 0 (sat32 (l.spin.ref * 2 ^ 23 / 2400000000 - speedQ l.spin))
      (l.loop.cascades[0].lost || l.spin.limited) (isLate late 0) s0
    runCascade n 5 (milliQ (1000 * (lcfg s n 0x85 5 : Nat) - 100 * (tmp / 2 ^ 20))) (laneAt s1 n).loop.cascades[5].lost
      (isLate late 5) s1

/-- The lane's biquad slot is open and has not run: the 651 ns that follow its sample instant (R377). -/
def slotDue (s : State) (n : LaneId) : Bool :=
  levelsRun s && decide (laneOffset s n < 3125) && decide ((laneAt s n).loop.slotAt ≠ some (timerCount s - laneOffset s n))

/-- The cascades due in an observer period p (R377). -/
def slotCascades (n : LaneId) (pm : Int) (late : List Nat) (p : Nat) (s0 : State) : State :=
  let s := if p % 4 = 0 then takePower n s0 else s0
  if p = 0 then slot48 n pm late (speedRamp n (biquadBanks n s))
  else if p = 8 then slot48 n pm late s
  else if p = 4 ∨ p = 12 then
    if (laneAt s n).loop.overrun.readPowerHeld then s else runCascade n 3 (256 * pm) false (isLate late 3) s
  else if p = 1 then slot24 n late s
  else s

/-- BIQUAD_SLOT (R377, R837). -/
def biquadSlot (n : LaneId) (pm : Int) (late : List Nat) (s : State) : State :=
  if slotDue s n then
    slotCascades n pm late (lanePeriod s n) (setLane n (fun l =>
      { l with loop := { l.loop with slotAt := some (timerCount s - laneOffset s n) } }) s)
  else s

/-- BIQUAD_SLOT. -/
def execBiquadSlot (n : LaneId) (powerMonitor : Int) (late : List Nat) (s : State) : Host.Outcome State Fault Refusal :=
  .next (biquadSlot n powerMonitor late s)

/-! ### Releases (R60) and overruns (R65-R67, R414-R416) -/

/-- An actuator output as sent: round(u 2^15), saturated (R383). -/
def actuatorWord (u : Int) : Int := sat (roundDiv u 256) (-32768) 32767

/-- The spindle bridge command (R421). -/
def spindleCommand (p : Spindle) : Nat := p.mode + 8 * p.step + 64 * p.commOffset + 65536 * (p.duty % 65536).toNat

/-- TYPE of a lane's DRIVE frames (R779): command, IDLE, training. A device that does not hold PAIRSEL sends IDLE (R660,
R663). -/
def frameType (hold : Bool) (k : Links) : Nat := if k.driveTraining then 2 else if k.driveTrained && hold then 0 else 1

/-- The payload of a DRIVE frame (R779). -/
def drivePayload (hold : Bool) (l : Lane) : Bytes :=
  let ty := frameType hold l.links
  let head := [byte (ty + 4 * l.loop.carrierSlot + 32 * l.loop.frameSeq), byte (b2n Sys2Proof.Config.side)]
  if ty = 2 then head ++ List.replicate 14 0x4A
  else if ty = 1 then head ++ List.replicate 14 0
  else head ++ (upTo 3).flatMap (fun a => toLEInt 2 (actuatorWord (l.loop.released.getD a 0)))
    ++ toLE 4 (spindleCommand l.spin) ++ toLE 4 l.sled.command

/-- A payload with its CRC (R777, R781), the low byte first. -/
def withCrc (b : Bytes) : Bytes := b ++ toLE 2 (crc16 b)

/-- DRIVE_FRAME (R778-R780): the frame of an actuator release instant. -/
def driveFrame (n : LaneId) (s : State) : State :=
  let s1 := setLane n (fun l => { l with loop := { l.loop with carrierSlot := lanePeriod s n % 8 } }) s
  setLane n (fun l => { l with loop := { l.loop with frameSeq := (l.loop.frameSeq + 1) % 8 } })
    (send (.drive n (withCrc (drivePayload s.pair.hold (laneAt s1 n)))) s1)

/-- Overrun of a loop: the previous value stands, the update is discarded, fault 1101 (R66, R67, R414-R416). `cs` are the
cascades that overran; none for the actuator. -/
def overrunOf (n : LaneId) (cs : List Nat) (s : State) : State :=
  let l := laneAt s n
  let spindle := cs.any (fun c => c = 0 || c = 1 || c = 4 || c = 5)
  let again := spindle && (match l.loop.overrun.reloadAt with
    | some t => decide (s.ticks < t + msTicks 100)
    | none => false)
  let s1 := match cs with
    | [] => lbump n 0xE4 1 0 1 s
    | _ => cs.foldl (fun a c => lbump n 0xE4 2 c 1 a) s
  let s2 := lifeLane n 3 1 (bump 0x6000 2 (n.val / 4) 1 s1)
  let s3 := setLane n (fun l => { l with loop := { l.loop with overrun := { l.loop.overrun with
    checkDue := true, reloadObs := true, reloadBq := true, zeroNext := true
    readPowerHeld := l.loop.overrun.readPowerHeld || cs.elem 3
    spindleHeld := l.loop.overrun.spindleHeld || spindle
    sledHeld := l.loop.overrun.sledHeld || cs.elem 2 } } }) s2
  if again then
    raise 0x1302 [.u8 n.val, .u8 (cs.headD 0)] (shortBrake n (detectFault n 0x1101 (setLane n (fun l =>
      { l with loop := { l.loop with overrun := { l.loop.overrun with stopped := true } } }) s3)))
  else detectFault n 0x1101 s3

/-- A cascade's latch released; without a result it is released again as it stood (R66). -/
def releaseCascade (c : Fin 6) (l : Lane) : Lane :=
  { l with loop := { l.loop with cascades := vecModify l.loop.cascades c (fun x =>
      { x with released := x.latch.getD x.released, latch := none }) } }

/-- The period of a class's releases, and the sample-to-output latency at which they lie in it, in ticks (R60, R61). -/
def releaseTimes : LoopId → Nat × Nat
  | .actuator => (12500, 3125)
  | .readPower => (50000, 6250)
  | .spindleCurrent => (100000, 12500)
  | .sledPosition => (100000, 12500)
  | .spindleSpeed => (200000, 25000)

/-- Place of a class in `releasedAt`. -/
def loopIdx : LoopId → Fin 5
  | .actuator => 0
  | .readPower => 1
  | .spindleCurrent => 2
  | .sledPosition => 3
  | .spindleSpeed => 4

/-- The release instant of a class has come on a lane and its release has not happened (R60, R63). -/
def releaseDue (s : State) (n : LaneId) (lp : LoopId) : Bool :=
  levelsRun s && decide (lanePhase s n % (releaseTimes lp).1 = (releaseTimes lp).2) &&
    decide ((laneAt s n).loop.releasedAt[loopIdx lp] ≠ some (timerCount s))

/-- Count of the sample instant that a release at this instant stems from (R61). -/
def sampleOf (s : State) (lp : LoopId) : Nat := timerCount s - (releaseTimes lp).2

/-- The output of the actuator latch (R62, R66, R415): the value of the release's own sample, else the previous one; zero after an
overrun until the recovery's sweep. -/
def releaseActuator (n : LaneId) (s : State) : State :=
  let s0 := if (laneAt s n).loop.overrun.zeroNext then
      setLane n (fun l => { l with loop := { l.loop with
        overrun := { l.loop.overrun with zeroNext := false, zero := true } } }) (openFocus n s)
    else s
  let l := laneAt s0 n
  let value := if l.loop.sampledAt = some (sampleOf s .actuator) then l.loop.latch else none
  let s1 := driveFrame n (setLane n (fun l => { l with loop := { l.loop with
    released := if l.loop.overrun.zero then [0, 0, 0] else value.getD l.loop.released, latch := none } }) s0)
  if value.isSome then s1 else overrunOf n [] s1

/-- The cascades that feed a release and are not held. -/
def releaseSet (l : Lane) : LoopId → List Nat
  | .actuator => []
  | .readPower => if l.loop.overrun.readPowerHeld then [] else [3]
  | .spindleCurrent => if l.loop.overrun.spindleHeld || l.loop.overrun.stopped then [] else [1, 4]
  | .sledPosition => if l.loop.overrun.sledHeld then [] else [2]
  | .spindleSpeed => if l.loop.overrun.spindleHeld || l.loop.overrun.stopped then [] else [0, 5]

/-- A cascade's latch holds the result of the release's own sample. -/
def resultReady (l : Lane) (born : Nat) (c : Nat) : Bool :=
  let x := l.loop.cascades[Fin.ofNat 6 c]
  x.latch.isSome && decide (x.born = born)

/-- The duty in force of a released value (R421, R444, R445): a coasting bridge has none; in SHORT it is a fraction, and once it reaches 1
with the current below its value the windings stay fully shorted. -/
def takeDuty (s : State) (n : LaneId) (p : Spindle) (d : Int) : Spindle :=
  if p.coast then { p with duty := 0 }
  else if p.mode = 1 then { p with duty := d }
  else if p.mode = 2 then
    if p.shorted ∨ (32767 ≤ d ∧ 0 < currentInput s n) then { p with duty := 32767, shorted := true } else { p with duty := max d 0 }
  else { p with duty := 0 }

/-- A released output given to what carries it (R62, R255, R421, R424, R494). -/
def carryOutput (n : LaneId) (lp : LoopId) (fresh : Bool) (s : State) : State :=
  match lp with
  | .readPower => releasePowers n fresh s
  | .spindleCurrent => setLane n (fun l => { l with spin := takeDuty s n l.spin (actuatorWord l.loop.cascades[1].released) }) s
  | .sledPosition => setLane n (fun l =>
      match l.sled.latch with
      | some (a, b) => { l with sled := { l.sled with command := sledCommand l.sled.mode a b, latch := none } }
      | none => l) s
  | _ => s

/-- A release of one of the biquad classes (R60, R65, R66). -/
def releaseBiquad (n : LaneId) (lp : LoopId) (s : State) : State :=
  let l := laneAt s n
  let set := releaseSet l lp
  let missing := set.filter (fun c => !resultReady l (sampleOf s lp) c)
  let s1 := (set.filter (fun c => !missing.contains c)).foldl (fun a c => setLane n (releaseCascade (Fin.ofNat 6 c)) a) s
  let s2 := carryOutput n lp (!set.isEmpty && missing.isEmpty) s1
  if missing.isEmpty then s2 else overrunOf n missing s2

/-- OUTPUT_RELEASE (R60): the release instant of a class on a lane. -/
def outputRelease (n : LaneId) (lp : LoopId) (s : State) : State :=
  if releaseDue s n lp then
    let s1 := setLane n (fun l => { l with loop := { l.loop with
      releasedAt := l.loop.releasedAt.set (loopIdx lp) (some (timerCount s)) } }) s
    match lp with
    | .actuator => releaseActuator n s1
    | _ => releaseBiquad n lp s1
  else s

/-- OUTPUT_RELEASE. -/
def execOutputRelease (n : LaneId) (l : LoopId) (s : State) : Host.Outcome State Fault Refusal :=
  .next (outputRelease n l s)

/-- OVERRUN_BANK_CHECK (R414 step 2): the check words of the active copies; event 1301 for each that fails. -/
def execOverrunBankCheck (n : LaneId) (s : State) : Host.Outcome State Fault Refusal :=
  let l := laneAt s n
  if l.loop.overrun.checkDue then
    let s1 := setLane n (fun l =>
      { l with loop := { l.loop with overrun := { l.loop.overrun with checkDue := false } } }) s
    let s2 := if bankCheck l.loop.banks.obsActive then s1 else raise 0x1301 [.u8 n.val, .u8 0] s1
    .next (if bankCheck l.loop.banks.bqActive then s2 else raise 0x1301 [.u8 n.val, .u8 1] s2)
  else .next s

/-! ### Switch requests (R409, R412) -/

/-- Lanes of a mask, rising. -/
def lanesOfMask (m : Nat) : List LaneId := allLanes.filter (fun n => bit m n.val)

/-- Status of a switch request (R412): 0401 before 0601 before 0501. -/
def switchStatus (s : State) (obs : Bool) (mask : Nat) : Nat :=
  let ls := lanesOfMask mask
  let bank (l : Lane) : Bytes := if obs then l.loop.banks.obsShadow else l.loop.banks.bqShadow
  let busy (l : Lane) : Bool := if obs then l.loop.banks.obsPending else l.loop.banks.bqPending
  if ls.any (fun n => (laneAt s n).life.pickup.isNone) then 0x0401
  else if ls.any (fun n => !bankCheck (bank (laneAt s n))) then 0x0601
  else if ls.any (fun n => busy (laneAt s n)) then 0x0501
  else 0

/-- Switches requested for the lanes of a mask (R409). -/
def requestSwitch (obs : Bool) (mask : Nat) (s : State) : State :=
  (lanesOfMask mask).foldl (fun a n => setLane n (fun l =>
    { l with loop := { l.loop with banks :=
        if obs then { l.loop.banks with obsPending := true } else { l.loop.banks with bqPending := true } } }) a) s

/-- The library slot that holds a class (R406). -/
def librarySlot (s : State) (cls : Nat) : Option Nat :=
  (upTo 16).find? (fun k => decide (cfg s (0x6080 + k) 1 = cls) && decide (cls ≠ 0xFFFF))

/-- The reference copies of every lane of a slot's class take the slot's banks (R407). -/
def refreshReferences (slot : Nat) (s : State) : State :=
  let cls := cfg s (0x6080 + slot) 1
  let ob := stored s (0x6080 + slot) 2
  let bq := stored s (0x6080 + slot) 3
  allLanes.foldl (fun a n =>
    if pickupClass a n = some cls then
      setLane n (fun l => { l with loop := { l.loop with banks := { l.loop.banks with obsRef := ob, bqRef := bq } } }) a
    else a) s

/-- At acceptance the slot's banks go into the three copies, the states start at x0 and zero (R406). -/
def loadBanks (n : LaneId) (cls : Nat) (s : State) : State :=
  match librarySlot s cls with
  | none => s
  | some k =>
    let ob := stored s (0x6080 + k) 2
    let bq := stored s (0x6080 + k) 3
    setLane n (fun l => { l with loop := { l.loop with
      banks := { obsActive := ob, obsShadow := ob, obsRef := ob, bqActive := bq, bqShadow := bq, bqRef := bq,
                 obsPending := false, bqPending := false }
      x := bankX0 ob
      cascades := Vector.replicate 6 Cascade.reset } }) s

/-! ### Learning runs (R401-R404) -/

/-- A learning run starts (R403). -/
def startLearning (n : LaneId) (s : State) : State :=
  setLane n (fun l => { l with loop := { l.loop with runout := { l.loop.runout with
    learning := true, counted := 0, runBins := Vector.replicate 3 [], revBins := Vector.replicate 3 []
    spoiled := true } } }) s

/-- RUNOUT_REVOLUTION (R401, R402): a revolution from index to index ends. One that opened an axis, jumped or moved the
index does not count. -/
def runoutRevolution (n : LaneId) (s : State) : State :=
  let r := (laneAt s n).loop.runout
  let clear (x : Runout) : Runout := { x with revBins := Vector.replicate 3 [], spoiled := false }
  let put (x : Runout) : State := setLane n (fun l => { l with loop := { l.loop with runout := x } }) s
  if r.spoiled ∨ !r.idxValid then put (clear r)
  else if r.learning then
    let run := Vector.ofFn (fun a : Fin 3 => binJoin r.runBins[a] r.revBins[a])
    let r1 := { r with runBins := run, counted := r.counted + 1, total := r.total + 1 }
    if r.counted + 1 < 8 then put (clear r1)
    else put (clear { r1 with
      table := Vector.ofFn (fun a : Fin 3 => runoutAdd r.table[a] run[a] 32768)
      valid := true, learning := false, runSpeed := some (speedCenti (laneAt s n).spin)
      runBins := Vector.replicate 3 [] })
  else if r.valid then
    put (clear { r with table := Vector.ofFn (fun a : Fin 3 => runoutAdd r.table[a] r.revBins[a] (lcfgInt s n 0x62 2)) })
  else put (clear r)

/-- RUNOUT_REVOLUTION. -/
def execRunoutRevolution (n : LaneId) (s : State) : Host.Outcome State Fault Refusal := .next (runoutRevolution n s)

/-- The revolution in progress will not count (R401). -/
def spoil (n : LaneId) (s : State) : State :=
  setLane n (fun l => { l with loop := { l.loop with runout := { l.loop.runout with spoiled := true } } }) s

end Sys2Proof.Machine
end

