-- ==== Sys2Proof/Machine/Spindle.lean ====
section
/-! DEFINITION. Spindle, bus segments, pacer and core supply (09_spindle.md, R68-R73, R811, R812). Electrical angles
are in 2^-40 revolution; the angle 60 degrees * k is where STEP k begins at the default commutation delay. -/

namespace Sys2Proof.Machine

/-- Tenths of a degree electrical as an angle. -/
def deciDegrees (d : Nat) : Int := (d * 2 ^ 40 / 3600 : Nat)

/-- An angle brought into half a revolution on either side of 0. -/
def wrapAngle (v : Int) : Int := (v + 2 ^ 39) % 2 ^ 40 - 2 ^ 39

/-! ### Commutation (R426-R429) -/

/-- One run of the commutation cell (R429): the next STEP with the point of the crossing, else STEP again with COMM_OFFSET 0. The
samples of the floating phase begin anew with a STEP. -/
def commutate (s : State) (n : LaneId) (l : Lane) : Lane :=
  let p := l.spin
  if p.mode = 1 ∧ (p.phase = 2 ∨ p.phase = 3) then
    let phi := ((p.theta : Int) - (deciDegrees (lcfg s n 0x82 1) - deciDegrees 300)) % 2 ^ 40
    let adv := 8 * p.omega
    let k := phi * 6 / 2 ^ 40
    let k2 := (phi + adv) * 6 / 2 ^ 40
    if k < k2 ∧ 0 < adv then
      let edge := (k + 1) * 2 ^ 40 / 6 - phi
      { l with spin := { p with step := ((k + 1) % 6).toNat, commOffset := (edge * 256 / adv).toNat % 256, crossing := [] } }
    else { l with spin := { p with commOffset := 0 } }
  else l

/-- COMMUTATION_STEP (R424, R429): once per carrier period, at its start, half a period after the 48 kHz sample instant. -/
def commutationStep (n : LaneId) (s : State) : State :=
  if levelsRun s ∧ lanePhase s n % 100000 = 50000 ∧ (laneAt s n).spin.commAt ≠ some (timerCount s) then
    setLane n (commutate s n) (setLane n (fun l => { l with spin := { l.spin with commAt := some (timerCount s) } }) s)
  else s

/-- COMMUTATION_STEP. -/
def execCommutationStep (n : LaneId) (s : State) : Host.Outcome State Fault Refusal := .next (commutationStep n s)

/-- Ticks from the crossing that the last two used samples enclose, interpolated linearly between them (R426), to the last sample
instant; none where they lie on one side. -/
def crossingAge (sampledAt : Nat) (p : Spindle) : Option Nat :=
  match p.crossing with
  | [(v1, c1), (v0, c0)] =>
    if (v0 < 0 ∧ 0 ≤ v1) ∨ (0 < v0 ∧ v1 ≤ 0) then
      some (sampledAt - (c0 + (c1 - c0) * v0.natAbs / (v0.natAbs + v1.natAbs)))
    else none
  | _ => none

/-- Phase error of a crossing (R427): the angle that it marks, midway in the present STEP, less the angle at its instant. -/
def crossingError (p : Spindle) (age : Nat) : Int :=
  wrapAngle (deciDegrees (600 * ((p.step + 1) % 6)) - deciDegrees 300 - ((p.theta : Int) - p.omega * age / 12500))

/-- An accepted crossing corrects angle and speed (R427); errors beyond half the window are counted (R446). -/
def acceptCrossing (s : State) (n : LaneId) (e : Int) (p : Spindle) : Spindle :=
  let win := deciDegrees (lcfg s n 0x82 4)
  if -win ≤ e ∧ e ≤ win then
    let large : Int := if win < 2 * e then (if 0 < p.largeErr then p.largeErr + 1 else 1)
      else if 2 * e < -win then (if p.largeErr < 0 then p.largeErr - 1 else -1) else 0
    { p with
      theta := (((p.theta : Int) + lcfgInt s n 0x82 2 * e / 32768) % 2 ^ 40).toNat
      omega := p.omega + lcfgInt s n 0x82 3 * e * (6 * p.omega) / (32768 * 2 ^ 40)
      lastCross := 0, largeErr := large }
  else p

/-- ZERO_CROSSING (R426, R427): in closed loop the crossing corrects the observer; in the last quarter of the open-loop ramp its distance
from the ramp's angle is kept for the handover (R431). -/
def zeroCrossing (n : LaneId) (s : State) : State :=
  let l := laneAt s n
  match crossingAge (l.loop.sampledAt.getD 0) l.spin with
  | none => s
  | some age =>
    let e := crossingError l.spin age
    setLane n (fun l =>
      let p := { l.spin with crossing := [] }
      { l with spin :=
          if p.phase = 3 then acceptCrossing s n e p
          else if p.phase = 2 ∧ 3 * openLoopTop ≤ 4 * p.omega then { p with handover := (e :: p.handover).take 16 } else p }) s

/-- ZERO_CROSSING. -/
def execZeroCrossing (n : LaneId) (s : State) : Host.Outcome State Fault Refusal := .next (zeroCrossing n s)

/-- The rotor is lost (R446): no crossing by half a step time after its predicted instant, or three large errors of one
sign. -/
def rotorIsLost (p : Spindle) : Bool :=
  decide (p.phase = 3) && (decide (2 ^ 38 ≤ p.lastCross) || decide (3 ≤ p.largeErr) || decide (p.largeErr ≤ -3))

/-- Level 2 takes the rotor for lost: fault 1104, FLOAT, then a flying restart or short braking (R446 to R448). -/
def rotorLost (n : LaneId) (s : State) : State :=
  let p := (laneAt s n).spin
  let s1 := setLane n (fun l => { l with spin := { l.spin with lostSpeed := speedCenti p, lostAt := s.ticks, largeErr := 0 } })
    (floatBridge n 6 (detectFault n 0x1104 s))
  if lcfg s n 0x84 1 = 1 then s1 else shortBrake n s1

/-- ROTOR_LOST (R446). -/
def execRotorLost (n : LaneId) (s : State) : Host.Outcome State Fault Refusal :=
  if rotorIsLost (laneAt s n).spin then .next (rotorLost n s) else .next s

/-! ### Start from rest (R430-R433) -/

/-- The vector of the highest peak of a round, when it exceeds the next by at least 3 % (R430). -/
def injectionRound (peaks : List Nat) : Option Nat :=
  let top := peaks.foldl max 0
  let k := peaks.findIdx (fun v => v == top)
  let next := ((upTo peaks.length).filter (fun i => i ≠ k)).foldl (fun a i => max a (peaks.getD i 0)) 0
  if peaks.length = 6 ∧ 103 * next ≤ 100 * top then some k else none

/-- The rotor's sector from two or three rounds (R430). -/
def rotorSector (rounds : List (List Nat)) : Option Nat :=
  let r (i : Nat) : Option Nat := injectionRound (rounds.getD i [])
  match r 0, r 1 with
  | some a, some b => if a = b then some a else
      match r 2 with
      | some c => if c = a ∨ c = b then some c else none
      | none => none
  | some a, none => if r 2 = some a then some a else none
  | none, some b => if r 2 = some b then some b else none
  | none, none => none

/-- A start fails (R433): event 1401, fault 1104. -/
def startFailed (n : LaneId) (reason : Nat) (s : State) : State :=
  detectFault n 0x1104 (raise 0x1401 [.u8 n.val, .u8 reason] (lbump n 0xE5 2 1 1 s))

/-- START_FROM_REST (R430, R431): the sector found starts the open-loop ramp; otherwise reason 1. -/
def execStartFromRest (n : LaneId) (peaks : List (List Nat)) (s : State) : Host.Outcome State Fault Refusal :=
  if (laneAt s n).spin.phase = 1 then
    match rotorSector peaks with
    | some k => .next (setLane n (fun l => { l with spin := { l.spin with
        phase := 2, mode := 1, step := (k + 1) % 6, commOffset := 0, omega := 0, near := 0
        theta := ((2 * ((k + 1) % 6) + 1) * 2 ^ 40) / 12, elecRev := 0, largeErr := 0, lastCross := 0
        crossing := [], handover := [] } }) s)
    | none => .next (startFailed n 1 (floatBridge n 0 s))
  else .next s

/-- HANDOVER (R431): the last L+83:05 crossings each lay within 15 degrees of the ramp's angle. DESIGN CHOICE (log 87): the last one's
distance is added whole to the angle, and the ramp's speed is taken as it is. -/
def execHandover (n : LaneId) (s : State) : Host.Outcome State Fault Refusal :=
  let p := (laneAt s n).spin
  let k := lcfg s n 0x83 5
  let seen := p.handover.take k
  if p.phase = 2 ∧ seen.length = k ∧ seen.all (fun e => decide (-deciDegrees 150 ≤ e) && decide (e ≤ deciDegrees 150)) then
    .next (setLane n (fun l => { l with spin := { l.spin with
      phase := 3, ref := 2400000 * 240, near := 0, lastCross := 0, handover := []
      theta := (((p.theta : Int) + seen.headD 0) % 2 ^ 40).toNat } }) s)
  else .next s

/-- OPEN_LOOP_TIMEOUT (R432): 240 rpm in open loop for 50 ms, or the time given, without handover: reason 2, FLOAT. -/
def execOpenLoopTimeout (n : LaneId) (s : State) : Host.Outcome State Fault Refusal :=
  let p := (laneAt s n).spin
  if p.phase = 2 ∧ 1200 ≤ p.near then .next (floatBridge n 4 (startFailed n 2 s)) else .next s

/-- COAST_END (R432): back-EMF below L+84:02; short braking follows. -/
def execCoastEnd (n : LaneId) (backEmf : Nat) (s : State) : Host.Outcome State Fault Refusal :=
  if (laneAt s n).spin.phase = 4 ∧ backEmf < lcfg s n 0x84 2 then .next (shortBrake n s) else .next s

/-! ### Voltage limit, bus and chopper (R439-R445) -/

/-- VOLTAGE_LIMIT_ENTER (R439). -/
def execVoltageLimitEnter (n : LaneId) (s : State) : Host.Outcome State Fault Refusal :=
  let p := (laneAt s n).spin
  let mv := s.segs[segOf n].mv
  if p.phase = 3 ∧ !p.limited ∧ 480 ≤ p.atLimit then
    .next (raise 0x1402 [.u8 n.val, .u32 ((speedCenti p).toNat / 100), .u32 mv]
      (setLane n (fun l => { l with spin := { l.spin with
        limited := true, limitSpeed := speedCenti p, limitBus := mv, belowLimit := 0 } }) s))
  else .next s

/-- VOLTAGE_LIMIT_EXIT (R439). -/
def execVoltageLimitExit (n : LaneId) (s : State) : Host.Outcome State Fault Refusal :=
  .next (setLane n (fun l =>
    if l.spin.limited ∧ 480 ≤ l.spin.belowLimit then { l with spin := { l.spin with limited := false, atLimit := 0 } }
    else l) s)

/-- Lanes of a segment (R10). -/
def lanesOfSeg (g : SegId) : List LaneId := allLanes.filter (fun n => decide (segOf n = g))

/-- BUS_SAMPLE (R440): CHOPs follows the bus voltage; a recorded voltage-limited speed clears when the bus has moved by
1 V (R451). -/
def busSample (g : SegId) (mv : Nat) (s : State) : State :=
  let c := s.segs[g]
  let on := if c.failed then false
    else if cfg s (segIdx g) 2 ≤ mv then true else if mv ≤ cfg s (segIdx g) 3 then false else c.chop
  let high := decide (cfg s (segIdx g) 5 ≤ mv)
  let s1 := setSeg g (fun c => { c with
    mv := mv, chop := on
    chopFor := if on then (if c.chop then c.chopFor + 1 else 0) else 0
    chopMv := if on && !c.chop then mv else c.chopMv
    overFor := if high then c.overFor + 1 else 0
    peak := if high then max c.peak mv else 0
    overvoltage := c.overvoltage && high }) s
  (lanesOfSeg g).foldl (fun a n => setLane n (fun l =>
    let d : Int := (mv : Int) - l.spin.limitBus
    if l.spin.limitSpeed ≠ 0 ∧ (1000 ≤ d ∨ d ≤ -1000) then { l with spin := { l.spin with limitSpeed := 0 } } else l) a) s1

/-- BUS_SAMPLE. -/
def execBusSample (g : SegId) (mv : Nat) (s : State) : Host.Outcome State Fault Refusal := .next (busSample g mv s)

/-- CHOP_FAILURE_DETECT (R441). -/
def execChopFailureDetect (g : SegId) (s : State) : Host.Outcome State Fault Refusal :=
  let c := s.segs[g]
  if c.chop ∧ !c.failed ∧ 384 * cfg s (segIdx g) 6 ≤ 1000 * c.chopFor ∧ c.chopMv < c.mv + 200 then
    .next (raise 0x5101 [.u8 g.val, .u32 c.mv] (setSeg g (fun c => { c with failed := true, chop := false, chopFor := 0 }) s))
  else .next s

/-- BUS_OVERVOLTAGE (R443): 50 us at or above the threshold; lanes with a negative selected current are short-braked. -/
def execBusOvervoltage (g : SegId) (s : State) : Host.Outcome State Fault Refusal :=
  let c := s.segs[g]
  if !c.overvoltage ∧ 384 * 50 ≤ 1000 * c.overFor then
    let hit := (lanesOfSeg g).filter (fun n => decide ((laneAt s n).loop.selected < 0))
    let s1 := setSeg g (fun c => { c with overvoltage := true }) s
    .next (raise 0x5102 [.u8 g.val, .u32 c.peak, .u32 (sumNat (hit.map (fun n => 2 ^ n.val)))]
      (hit.foldl (fun a n => detectFault n 0x110B a) s1))
  else .next s

/-- REGEN_TO_SHORT (R445): competitor 2 has won every selection for 2 ms; a stop short-brakes, a retarget coasts. -/
def execRegenToShort (n : LaneId) (s : State) : Host.Outcome State Fault Refusal :=
  let p := (laneAt s n).spin
  if p.phase = 3 ∧ 96 ≤ p.regenWins then
    if p.stopping then .next (shortBrake n s)
    else .next (setLane n (fun l => { l with spin := { l.spin with coast := true, regenWins := 0 } }) s)
  else .next s

/-! ### Flying restart (R447, R448) -/

/-- A flying restart that fails leads to short braking; the lane re-enters at PARKED (R448). -/
def flyingFailed (n : LaneId) (rpm : Nat) (s : State) : State :=
  raise 0x1403 [.u8 n.val, .u8 1, .u32 rpm] (lbump n 0xE5 3 1 1
    (shortBrake n (setLane n (fun l => { l with flt := { l.flt with reentry := .parked, resume := .parked } }) s)))

/-- Three crossings 60 degrees apart within 10 %: the intervals differ by no more than that (R447). -/
def evenIntervals (l : List Nat) : Bool :=
  match l with
  | [a, b] => decide (9 * a ≤ 10 * b) && decide (9 * b ≤ 10 * a)
  | _ => false

/-- The time of two electrical revolutions at the speed before the loss has not passed since its detection (R447). -/
def restartInTime (s : State) (p : Spindle) : Bool := decide (((s.ticks - p.lostAt : Nat) : Int) * p.lostSpeed ≤ 14400000000000)

/-- FLYING_RESTART (R447). -/
def execFlyingRestart (n : LaneId) (b : BackEmf) (s : State) : Host.Outcome State Fault Refusal :=
  let p := (laneAt s n).spin
  if p.phase ≠ 6 then .next s
  else
    if b.forward ∧ restartInTime s p ∧ evenIntervals b.intervals ∧ lcfg s n 0x84 2 ≤ b.amplitude then
      let om := b.speed * 2 ^ 40 / 576000000
      .next (raise 0x1403 [.u8 n.val, .u8 0, .u32 (b.speed.toNat / 100)] (lbump n 0xE5 3 0 1
        (setLane n (fun l =>
          { l with spin := { l.spin with
              phase := 3, mode := 1, omega := om, theta := b.angle % 16384 * 2 ^ 26, elecRev := b.angle / 16384 % 4
              step := b.angle % 16384 * 6 / 16384, commOffset := 0, ref := b.speed * 24000, lastCross := 0, near := 0
              crossing := [] } }) s)))
    else .next (flyingFailed n (b.speed.toNat / 100) s)

/-- FLYING_RESTART_TIMEOUT (R447, R448). -/
def execFlyingRestartTimeout (n : LaneId) (s : State) : Host.Outcome State Fault Refusal :=
  let p := (laneAt s n).spin
  if p.phase = 6 ∧ !restartInTime s p then .next (flyingFailed n 0 s) else .next s

/-! ### Core supply (R71-R73, R811, R812) -/

/-- The lane's rate enters R72's sum: above PARKED, and already while it starts or stands in FAULT with its spindle turning, so that
no change of state finds the supply too low. -/
def drawsRate (l : Lane) : Bool :=
  abovePark l.life.st || l.life.spinning || (decide (l.life.st = .fault) && decide (l.spin.phase ≠ 0))

/-- Sum over the lanes of 138 * v (R72); a velocity that the ladder lowers keeps its full rate, so that it may be lifted at once. -/
def rateSum (s : State) : Nat :=
  sumNat (allLanes.map (fun n => let l := laneAt s n; if drawsRate l then 138 * max l.pace.v (velocity l) else 0))

/-- Lowest voltage of R71 whose rate covers a sum of 138 * v over 9,984 (R72). -/
def coverMv (sum : Nat) : Nat :=
  if sum ≤ 2900 * 9984 then 650 else if sum ≤ 3700 * 9984 then 700 else if sum ≤ 4500 * 9984 then 750
  else if sum ≤ 5200 * 9984 then 800 else 850

/-- The core set-point that R72 and the floor 2210:02 require with an addition to the sum. -/
def needMv (s : State) (extra : Nat) : Nat := max (coverMv (rateSum s + extra)) (cfg s 0x2210 2)

/-- What the lanes' pending raises add to the sum. -/
def raiseSum (s : State) : Nat :=
  sumNat (allLanes.map (fun n =>
    let l := laneAt s n
    match l.pace.raise with
    | some v => if drawsRate l then 138 * (v - l.pace.v) else 0
    | none => 0))

/-- CORE_SUPPLY_CHANGE (R72, R73): level 5 sets the supply that the velocities in force and the pending raises need. -/
def execCoreSupplyChange (s : State) : Host.Outcome State Fault Refusal :=
  .next { s with coreGoal := needMv s (raiseSum s) }

/-- The supply, in force and to come, covers the velocities in force with an addition to the sum (R73). -/
def supplyCovers (s : State) (extra : Nat) : Bool := decide (needMv s extra ≤ min s.coreMv s.coreGoal)

/-- CORE_SUPPLY_IN_FORCE (R73, R811): the supply reaches its set-point, unless that has come to lie below what R72 requires, and the
raises that it covers take force. -/
def execCoreSupplyInForce (s : State) : Host.Outcome State Fault Refusal :=
  if s.coreGoal < needMv s 0 then .next s
  else
    let s1 := { s with coreMv := s.coreGoal }
    if needMv s1 (raiseSum s1) ≤ s1.coreMv then
      .next (allLanes.foldl (fun a n => setLane n (fun l =>
        match l.pace.raise with
        | some v => { l with pace := { l.pace with v := v, raise := none } }
        | none => l) a) s1)
    else .next s1

/-! ### Pacer (R450-R456) -/

/-- Highest write velocity of the media identity, mm/s (R219). -/
def mediaVelocity (l : Lane) : Nat :=
  match l.disc with
  | some d => field d.media 68 2
  | none => 9984

/-- The voltage term: recorded speed times 2 pi r_b times 0.98, mm/s (R451). -/
def voltageTerm (l : Lane) : Nat :=
  (l.spin.limitSpeed.toNat) * twoPi / 1000000000000 * bandRadius (l.life.band.getD 0) / 1000000000 * 98 / 600000

/-- The ceiling with its limiting term (R451, R455): 1 host, 2 unit, 3 media write, 4 voltage. -/
def ceilingOf (s : State) (n : LaneId) : Nat × Nat :=
  let l := laneAt s n
  let host := lcfg s n 0x88 7
  let media := if l.life.st = .writing then max 2496 (mediaVelocity l) else 9984
  let volt := if l.spin.limitSpeed ≠ 0 then voltageTerm l else 9984
  let c := min 9984 (min (min host l.pace.unitCeiling) (min media volt))
  (c, if 9984 ≤ c then 0 else if c = host then 1 else if c = l.pace.unitCeiling then 2 else if c = media then 3 else 4)

/-- The team of a lane (L+05:04). -/
def teamOfLane (s : State) (n : LaneId) : Option TeamId :=
  allTeams.find? (fun t => bit (cfg s (teamIdx t 0) 1) n.val)

/-- The lane belongs to an ATTACHED team. -/
def inAttached (s : State) (n : LaneId) : Bool :=
  match teamOfLane s n with
  | some t => decide ((teamAt s t).st = .attached)
  | none => false

/-- The mode in force (R145, R175): PARK does not apply to a lane of an ATTACHED team, which is parked by idle time only. -/
def modeOf (s : State) (n : LaneId) : Nat :=
  let m := lcfg s n 0x01 2
  if m = 1 ∧ inAttached s n then 0 else m

/-- Member lanes of a team. -/
def membersOf (s : State) (t : TeamId) : List LaneId := allLanes.filter (fun n => bit (cfg s (teamIdx t 0) 1) n.val)

end Sys2Proof.Machine
end

