-- ==== Sys2Proof/Machine/Toloon.lean ====
section
/-! DEFINITION. The Toloon recording format (04_toloon_format.md): places, sectors, codes, metadata and lead-in records. -/

namespace Sys2Proof.Machine

/-! ### Bands, frames and places (R179-R186, R202-R210, R215, R228) -/

/-- Frames of a band of radial zone z (R182). -/
def zoneFrames (z : Nat) : Nat := 131 + 3 * z - ([8, 16, 24, 33, 41, 49, 57, 65, 74].filter (fun w => decide (w ≤ z))).length

/-- Frames of a band. -/
def bandFrames (b : Nat) : Nat := zoneFrames (b / 500)

/-- Wobble kind of a band (R183): 0 system, 1 data, 2 spare, 3 test, 4 guard. -/
def bandKind (b : Nat) : Nat :=
  if b < 200 then 3 else if b < 220 then 4 else if b < 480 then 0 else if b < 500 then 4 else if b % 50 = 49 then 2 else 1

/-- Radial zone and data frame within it of data frame n (R207), over the zones from z on. -/
def frameZone : Nat → Nat → Nat → Nat × Nat
  | 0, z, n => (z, n)
  | fuel + 1, z, n => if 490 * zoneFrames z ≤ n then frameZone fuel (z + 1) (n - 490 * zoneFrames z) else (z, n)

/-- Band and frame of data frame n of a track (R207). -/
def dataPlace (n : Nat) : Nat × Nat :=
  match frameZone 73 1 n with
  | (z, m) =>
    let d := m / zoneFrames z
    (500 * z + 50 * (d / 49) + d % 49, m % zoneFrames z)

/-- Data frames below radial zone z. -/
def framesBelow (z : Nat) : Nat := sumNat ((upTo z).map (fun k => if k = 0 then 0 else 490 * zoneFrames k))

/-- Data frame of a band and frame. -/
def dataFrame (b f : Nat) : Nat :=
  let z := b / 500
  let r := b % 500
  framesBelow z + (49 * (r / 50) + r % 50) * zoneFrames z + f

/-- Band and frame of a data frame of the lead-in bands (R215). -/
def leadPlace (n : Nat) : Nat × Nat := (220 + n / 131, n % 131)

/-- Physical sector address (R205). -/
def psaOf (layer b f k : Nat) : Nat := layer * 2 ^ 27 + b * 2 ^ 11 + f * 4 + k

/-- Band of a physical sector address. -/
def psaBand (p : Nat) : Nat := bits p 26 11

/-- PSA of sector `s` of slot P of a track (R202, R205). -/
def slotPsa (layer k p s : Nat) : Nat := match dataPlace (72 * p + s) with | (b, f) => psaOf layer b f k

/-- PSA of sector `s` of relocation slot q of a spare band (R210). -/
def relocPsa (layer k b q s : Nat) : Nat := psaOf layer b (72 * q + s) k

/-- Relocation slots of a track in a spare band (R210). -/
def relocSlots (b : Nat) : Nat := bandFrames b / 72

/-- Layer and slot and track of the u-th place of the primary (copy 0) or backup lead-in (R215). -/
def leadSlot (backup : Bool) (u : Nat) : Nat × Nat × Nat :=
  (if backup then 7 - u / 1892 else u / 1892, u % 1892 / 4, u % 4)

/-- Blocks that a lead-in has room for (R215). -/
def leadRoom : Nat := 7568

/-- Band, track and first frame of a test unit (R228). -/
def testPlace (u : Nat) : Nat × Nat × Nat := (u / 32, u % 32 % 4, 16 * (u % 32 / 4))

/-- Layer, track and index of a logical extent (R204). -/
def extentPlace (e : Nat) : Nat × Nat × Nat := (e / 476840, e % 476840 % 4, e % 476840 / 4)

/-- Logical extent of a layer, track and index. -/
def logicalExtent (layer k j : Nat) : Nat := 476840 * layer + 4 * j + k

/-- The lowest slot from P on that holds the j-th logical extent after the skips, which stand rising (R206). -/
def slotAfter : List Nat → Nat → Nat
  | [], p => p
  | k :: rest, p => if k ≤ p then slotAfter rest (p + 1) else p

/-- Slot of the j-th logical extent of a track with the skips given (R206). -/
def slotOfIndex (skips : List Nat) (j : Nat) : Nat := slotAfter skips j

/-- Index of the logical extent that a slot holds; none where the slot is skipped. -/
def indexOfSlot (skips : List Nat) (p : Nat) : Option Nat :=
  if skips.contains p then none else some (p - (skips.filter (fun k => decide (k < p))).length)

/-- A number put into a rising list. -/
def insertNat (x : Nat) : List Nat → List Nat
  | [] => [x]
  | y :: rest => if x < y then x :: y :: rest else if x = y then y :: rest else y :: insertNat x rest

/-- Position 4 * layer + track. -/
def trackPos (layer k : Nat) : Fin 32 := Fin.ofNat 32 (4 * layer + k)

/-- Slot of a logical extent on a disc: layer, track and slot. -/
def slotOfExtent (d : Disc) (e : Nat) : Nat × Nat × Nat :=
  match extentPlace e with
  | (l, k, j) => (l, k, slotOfIndex d.skips[trackPos l k] j)

/-- The disc holds a logical extent: its slot lies below the lowest slot not yet written, unless the map says otherwise
(R206, R239). -/
def holdsExtent (d : Disc) (e : Nat) : Bool :=
  match slotOfExtent d e with
  | (l, k, p) =>
    match mapGet d.slots[trackPos l k] p with
    | some .written => true
    | some .verified => true
    | some _ => false
    | none => decide (p < d.nextSlot[trackPos l k])

/-- First logical extent of a track and layer that its skips leave no slot for (R209). -/
def unwritableFrom (d : Disc) (pos : Fin 32) : Option Nat :=
  let n := d.skips[pos].length
  if 1323 < n then some (logicalExtent (pos.val / 4) (pos.val % 4) (120533 - n)) else none

/-! ### Wobble address (R185-R187) -/

/-- The 31 bits before the check of a wobble address (R186). -/
def wobbleHead (layer band frame kind : Nat) : List Bool := bitsBE 3 layer ++ bitsBE 16 band ++ bitsBE 9 frame ++ bitsBE 3 kind

/-- The 55 bits of a wobble address. -/
def wobbleBits (layer band frame kind : Nat) : List Bool :=
  let h := wobbleHead layer band frame kind
  h ++ bitsBE 24 (crc24 h)

/-- The 229 wobbles of a frame (R185): the sync IIIIIINN, a cell of four for each bit, NNII for 0 and IINN for 1, and one N. -/
def frameWobbles (bits : List Bool) : List Bool :=
  List.replicate 6 true ++ [false, false] ++ bits.flatMap (fun b => [b, b, !b, !b]) ++ [false]

/-- The bits of a frame's cells; none where a cell is neither NNII nor IINN. -/
def cellBits : Nat → List Bool → Option (List Bool)
  | 0, _ => some []
  | k + 1, a :: b :: c :: d :: rest =>
    if a = b ∧ c = d ∧ a ≠ c then (cellBits k rest).map (fun l => a :: l) else none
  | _ + 1, _ => none

/-- A wobble address (R186). -/
structure WobbleAddr where
  layer : Nat
  band : Nat
  frame : Nat
  kind : Nat
  deriving DecidableEq, Repr

/-- The value of bits, most significant first. -/
def ofBitsBE (l : List Bool) : Nat := l.foldl (fun a b => 2 * a + b2n b) 0

/-- The address that a frame carries (R185 to R187); none where its sync, a cell or its CRC-24 is wrong. -/
def wobbleAddr (w : List Bool) : Option WobbleAddr :=
  if w.length = 229 ∧ w.take 8 = [true, true, true, true, true, true, false, false] ∧ w.getD 228 true = false then
    match cellBits 55 (w.drop 8) with
    | none => none
    | some b =>
      if ofBitsBE (b.drop 31) = crc24 (b.take 31) then
        some { layer := ofBitsBE (b.take 3), band := ofBitsBE ((b.drop 3).take 16), frame := ofBitsBE ((b.drop 19).take 9)
               kind := ofBitsBE ((b.drop 28).take 3) }
      else none
  else none

/-! ### Sector (R189-R198) -/

/-- Scrambler output of `n` bits from a register (R193). -/
def scrambler : Nat → Nat → List Bool
  | 0, _ => []
  | n + 1, r =>
    let o := r / 2 ^ 16 % 2
    let new := o ^^^ (r / 2 ^ 13 % 2)
    (o = 1) :: scrambler n ((2 * r + new) % 2 ^ 17)

/-- Seed of a sector (R194). -/
def seedOf (psa : Nat) : Nat := psa % 131071 + 1

/-- Exclusive or of two bit strings. -/
def xorBits (a b : List Bool) : List Bool := List.zipWith (fun x y => x != y) a b

/-- Bits of bytes, most significant bit of each byte first (R192). -/
def bytesToBits (b : Bytes) : List Bool := b.flatMap (fun x => bitsBE 8 x.toNat)

/-- Bytes of bits, most significant first, by 8. -/
def bitsToBytes : Nat → List Bool → Bytes
  | 0, _ => []
  | n + 1, l => byte (fromBitsBE (l.take 8)) :: bitsToBytes n (l.drop 8)

/-- Columns of 256 bits. -/
def columns : Nat → List Bool → List (List Bool)
  | 0, _ => []
  | n + 1, l => l.take 256 :: columns n (l.drop 256)

/-- Rows of a message column (R197). -/
def ldpcRows (j : Nat) : List Nat := [j % 16, (j % 16 + 1 + j / 16) % 16, (j % 16 + 3 + 2 * (j / 16)) % 16]

/-- Shift of the block in row i of message column j (R197). -/
def ldpcShift (i j : Nat) : Nat := (2 * i + 1) * (j * j + 3 * j + 7) % 256

/-- A column rotated by a shift: bit r is the column's bit (r + t) mod 256. -/
def rotate (t : Nat) (c : List Bool) : List Bool := c.drop t ++ c.take t

/-- σ_i of R198. -/
def ldpcSigma (cols : List (List Bool)) (i : Nat) : List Bool :=
  (upTo 129).foldl (fun acc j => if (ldpcRows j).contains i then xorBits acc (rotate (ldpcShift i j) (cols.getD j [])) else acc)
    (List.replicate 256 false)

/-- Parity blocks from row i on, after the block before (R198). -/
def ldpcParity (cols : List (List Bool)) : Nat → Nat → List Bool → List Bool
  | 0, _, _ => []
  | n + 1, i, prev =>
    let p := xorBits (ldpcSigma cols i) prev
    p ++ ldpcParity cols n (i + 1) p

/-- The 37,120-bit codeword of a 4,128-byte message (R196-R198). -/
def ldpcEncode (msg : Bytes) : List Bool :=
  let m := bytesToBits msg
  m ++ ldpcParity (columns 129 m) 16 0 (List.replicate 256 false)

/-- The 16/17 code over groups of 16 bits with a running digital sum (R195). -/
def modulate : Nat → Int → List Bool → List Bool
  | 0, _, _ => []
  | n + 1, rds, l =>
    let d := l.take 16
    let delta : Int := 2 * ((d.filter (fun b => b)).length : Int) - 17
    let p := if rds + delta < 0 then -(rds + delta) else rds + delta
    let q := if rds - delta < 0 then -(rds - delta) else rds - delta
    if p ≤ q then false :: (d ++ modulate n (rds + delta) (l.drop 16))
    else true :: (d.map (fun b => !b) ++ modulate n (rds - delta) (l.drop 16))

/-- Codeword bits of hard modulated bits (R195). -/
def demodulate : Nat → List Bool → List Bool
  | 0, _ => []
  | n + 1, l => ((l.drop 1).take 16).map (fun b => b != l.headD false) ++ demodulate n (l.drop 17)

/-- Segments with their resync marks (R190, R191). -/
def segmentsFrom : Nat → Nat → List Bool → List Bool
  | 0, _, _ => []
  | n + 1, m, l => l.take 1972 ++ (if m < 19 then bitsBE 32 0xE2B41D4B else []) ++ segmentsFrom n (m + 1) (l.drop 1972)

/-- The 40,304 channel bits of a sector from its message and its place (R190, R191). -/
def sectorBits (psa : Nat) (msg : Bytes) : List Bool :=
  let coded := xorBits (ldpcEncode msg) (scrambler 37120 (seedOf psa))
  (List.replicate 48 [true, true, false, false]).flatten ++ bitsBE 48 0x1F350D8B5CE2 ++
    segmentsFrom 20 0 (modulate 2320 0 coded) ++ bitsBE 16 0xCCCC

/-! ### Metadata (R199-R201) -/

/-- Metadata bytes (R199). -/
def metadata (dra layer spot sec kind ext epoch : Nat) (tag user : Bytes) : Bytes :=
  toLE 4 dra ++ [byte layer, byte spot, byte sec, byte kind] ++ toLE 4 ext ++ toLE 4 epoch ++
    (tag ++ List.replicate 8 0).take 8 ++ toLE 8 (crc64 user)

/-- The user bytes of a padding sector (R201). -/
def paddingBytes : Bytes := List.replicate 4096 0

/-! ### Outer code RS(72,64) (R203) -/

/-- Product by x in GF(2^8). -/
def g8Double (a : Nat) : Nat := if a < 128 then 2 * a else (2 * a) ^^^ 0x11D

/-- Product in GF(2^8), over `n` bits. -/
def g8MulBits : Nat → Nat → Nat → Nat
  | 0, _, _ => 0
  | n + 1, a, b => (if b % 2 = 1 then a else 0) ^^^ g8MulBits n (g8Double a) (b / 2)

/-- Product in GF(2^8). -/
def g8Mul (a b : Nat) : Nat := g8MulBits 8 a b

/-- Power in GF(2^8), over `n` bits of the exponent. -/
def g8PowBits : Nat → Nat → Nat → Nat
  | 0, _, _ => 1
  | n + 1, a, e => g8Mul (if e % 2 = 1 then a else 1) (g8PowBits n (g8Mul a a) (e / 2))

/-- Power in GF(2^8). -/
def g8Pow (a e : Nat) : Nat := g8PowBits 8 a e

/-- Inverse of a non-zero element. -/
def g8Inv (a : Nat) : Nat := g8Pow a 254

/-- g(x) of R203 without its leading 1. -/
def outerGenerator : List Nat :=
  ((upTo 8).foldl (fun p k => List.zipWith (fun a b => a ^^^ b) (p ++ [0]) (0 :: p.map (g8Mul (g8Pow 2 k)))) [1]).tail

/-- Division register fed with one symbol. -/
def outerStep (r : List Nat) (d : Nat) : List Nat :=
  let q := d ^^^ r.headD 0
  List.zipWith (fun a b => a ^^^ g8Mul q b) (r.tail ++ [0]) outerGenerator

/-- Parity symbols of the 64 symbols of one byte position. -/
def outerParity (symbols : List Nat) : List Nat := symbols.foldl outerStep (List.replicate 8 0)

/-- The 8 parity messages of 64 data messages (R203). -/
def outerMessages (msgs : List Bytes) : List Bytes :=
  let cols := (upTo 4128).map (fun b => outerParity (msgs.map (fun m => (m.getD b 0).toNat)))
  (upTo 8).map (fun k => cols.map (fun c => byte (c.getD k 0)))

/-! ### Lead-in blocks and records (R217-R222) -/

/-- A record (R218). -/
def leadRecord (ty : Nat) (body : Bytes) : Bytes :=
  padZero 8 (toLE 2 ty ++ toLE 2 1 ++ toLE 4 (8 + body.length) ++ body)

/-- The data bytes of a lead-in block (R217): slot is 4 * slot + track on its layer. -/
def leadBlock (slot layer : Nat) (backup : Bool) (seq epoch time : Nat) (records : List Bytes) : Bytes :=
  let r := records.flatten
  let h := toLE 4 0x314E4C54 ++ toLE 2 1 ++ toLE 2 slot ++ [byte layer, byte (b2n backup)] ++ toLE 2 records.length ++
    toLE 4 seq ++ toLE 4 r.length ++ toLE 4 epoch ++ toLE 8 time
  (h ++ r ++ List.replicate 262144 0).take 262144

/-- Records of a block's bytes after the header: type and body. -/
def leadRecords : Nat → Bytes → List (Nat × Bytes)
  | 0, _ => []
  | n + 1, b =>
    let len := field b 4 4
    (field b 0 2, slice b 8 (len - 8)) :: leadRecords n (b.drop (len + (8 - len % 8) % 8))

/-- Records of a block (R217, R218); none where the header is not that of a lead-in block. -/
def blockRecords (b : Bytes) : List (Nat × Bytes) :=
  if field b 0 4 = 0x314E4C54 ∧ field b 4 2 = 1 then leadRecords (field b 10 2) (b.drop 32) else []

/-- The media identity is one that Yalzo uses (R219). -/
def mediaOk (m : Bytes) : Bool :=
  decide (field m 1 1 = 1 ∧ field m 2 2 = 1 ∧ field m 36 1 = 8 ∧ field m 37 1 = 75 ∧ field m 38 2 = 500) &&
    decide (field m 40 4 = 22000000 ∧ field m 44 2 = 960 ∧ field m 46 2 = 40304 ∧ field m 48 1 = 176)

/-- Volume record body (R220). -/
def volumeBody (vol : Bytes) (count index time : Nat) : Bytes :=
  (vol ++ List.replicate 16 0).take 16 ++ [byte count, byte index, 12, 0] ++ toLE 4 3814720 ++ toLE 8 time ++
    padSpaces 16 Sys2Proof.Config.serialNumber.toList

/-- A vector's numbers as 32-bit words. -/
def words32 {n : Nat} (v : Vector Nat n) : Bytes := v.toList.flatMap (toLE 4)

/-- Disc write record body (R221), 336 bytes. DESIGN CHOICE (log 79): the table's Writer of 16 bytes at 24 and its Pickup at 32 overlap; the
Pickup's bytes stand in the overlap. -/
def writeRecordBody (d : Disc) (kind now : Nat) (pickup : Bytes) : Bytes :=
  toLE 4 d.openEpoch ++ [byte kind, 0, 0, 0] ++ toLE 8 d.sessionStart ++ toLE 8 now ++
    (padSpaces 16 Sys2Proof.Config.serialNumber.toList).take 8 ++ padSpaces 16 pickup ++ toLE 8 d.sessionSectors ++
    toLE 4 d.sessionRelocated ++ toLE 4 d.sessionSkipped ++ d.testUnit.toList.flatMap (toLE 2) ++ words32 d.nextSlot ++
    words32 d.extents

/-- One relocation entry's 8 bytes (R222). -/
def relocBytes (e : RelocEntry) : Bytes :=
  toLE 4 (e.kind * 2 ^ 30 + e.psa) ++ toLE 4 (if e.kind = 0 then e.repl else 0xFFFFFFFF)

/-- Relocation segment body (R222). -/
def relocBody (l : List RelocEntry) : Bytes := toLE 4 l.length ++ [0, 0, 0, 0] ++ l.flatMap relocBytes

/-- Entries of a relocation segment body. -/
def relocEntries : Nat → Bytes → List RelocEntry
  | 0, _ => []
  | n + 1, b =>
    { kind := field b 0 4 / 2 ^ 30, psa := field b 0 4 % 2 ^ 30, repl := field b 4 4 } :: relocEntries n (b.drop 8)

/-- A disc of which nothing is known. -/
def Disc.fresh : Disc :=
  { media := [], volumeRec := [], strategies := [], epoch := 0, seenEpoch := 0, openEpoch := 0, ours := false, sessionStart := 0,
    sessionTick := 0, lastStart := 0, closeDue := none, primaryDone := false, sessionSectors := 0, sessionRelocated := 0, sessionSkipped := 0,
    usedPrimary := 0, usedBackup := 0, nextBlock := 0, skips := Vector.replicate 32 [], nextSlot := Vector.replicate 32 0, recNext := Vector.replicate 32 0,
    slots := Vector.replicate 32 [], extents := Vector.replicate 32 0, testUnit := Vector.replicate 8 0, relocs := [],
    sessionRelocs := [], relocUsed := [], scanDue := false, closed := false, warnedOuter := [], warnedLow := [],
    created := 0, firstSession := 0, lastSession := 0 }

/-- A vector of 32-bit words from bytes. -/
def words32Of (n : Nat) (b : Bytes) : Vector Nat n := Vector.ofFn (fun i : Fin n => field b (4 * i.val) 4)

/-- Relocation table and skips with an entry added (R206, R223). -/
def addReloc (d : Disc) (e : RelocEntry) : Disc :=
  if e.kind = 1 then
    let l := bits e.psa 29 27
    let k := e.psa % 4
    let p := dataFrame (psaBand e.psa) (bits e.psa 10 2) / 72
    { d with relocs := d.relocs ++ [e], skips := vecModify d.skips (trackPos l k) (insertNat p) }
  else
    { d with
      relocs := d.relocs ++ [e]
      relocUsed := if e.kind = 0 then
          let q := bits e.repl 10 2 / 72
          insertNat (relocPsa (bits e.repl 29 27) (e.repl % 4) (psaBand e.repl) q 0) d.relocUsed
        else d.relocUsed }

/-- One record of the lead-in taken into a disc's knowledge (R158, R218-R223). -/
def takeRecord (d : Disc) (r : Nat × Bytes) : Disc :=
  let b := r.2
  if r.1 = 1 then { d with media := b.take 128 }
  else if r.1 = 2 then { d with strategies := b }
  else if r.1 = 0x10 then { d with volumeRec := b.take 48, created := field b 24 8 }
  else if r.1 = 0x20 then
    { d with
      epoch := max d.epoch (field b 0 4)
      firstSession := if d.firstSession = 0 then field b 8 8 else d.firstSession
      lastSession := field b 8 8
      testUnit := Vector.ofFn (fun i : Fin 8 => field b (64 + 2 * i.val) 2)
      nextSlot := words32Of 32 (b.drop 80), recNext := words32Of 32 (b.drop 80), extents := words32Of 32 (b.drop 208) }
  else if r.1 = 0x30 then (relocEntries (field b 0 4) (b.drop 8)).foldl addReloc d
  else d

/-- The block sequence of a lead-in block (R217); none where its header is not that of one. -/
def blockSequence (b : Bytes) : Option Nat := if field b 0 4 = 0x314E4C54 ∧ field b 4 2 = 1 then some (field b 12 4) else none

/-- The first copy of a block sequence among the slots of a lead-in (R224). -/
def blockIn (slots : List (Option Bytes)) (seq : Nat) : Option Bytes :=
  slots.findSome? (fun o => o.bind (fun b => if blockSequence b = some seq then some b else none))

/-- The copy taken of a block sequence: that of the primary, or of the backup where the primary's does not decode (R159, R224). -/
def blockOf (r : LeadIn) (seq : Nat) : Option Bytes := (blockIn r.primary seq).or (blockIn r.backup seq)

/-- Block sequences recorded: one more than the highest that a copy shows. -/
def blockCount (r : LeadIn) : Nat :=
  (r.primary ++ r.backup).foldl (fun a o => max a (((o.bind blockSequence).map (fun q => q + 1)).getD 0)) 0

/-- The blocks of a lead-in in block-sequence order; none where there is none, or a sequence that neither copy yields (R224). -/
def leadBlocks (r : LeadIn) : Option (List Bytes) :=
  let l := (upTo (blockCount r)).filterMap (blockOf r)
  if l.length = blockCount r ∧ l ≠ [] then some l else none

/-- A disc's knowledge from its lead-in blocks in block-sequence order. -/
def discFrom (blocks : List Bytes) (r : LeadIn) : Disc :=
  let d := (blocks.flatMap blockRecords).foldl takeRecord Disc.fresh
  { d with usedPrimary := r.primary.length, usedBackup := r.backup.length, nextBlock := blocks.length, seenEpoch := r.epoch }

/-- Free relocation slots of a track on a layer (L+43:02). -/
def relocFree (d : Disc) (layer k : Nat) : Nat :=
  2090 - (d.relocUsed.filter (fun p => decide (bits p 29 27 = layer ∧ p % 4 = k))).length

end Sys2Proof.Machine
end

