-- ==== Sys2Proof/Machine/Admission.lean ====
section
/-! DEFINITION. Fetch and admission of a submission entry (R564-R571), and what the zones of a namespace are rebuilt from
and become (R559, R843). -/

namespace Sys2Proof.Machine

/-! ### Fetch (R564, R565, R570, R587, R618) -/

/-- Commands in flight: admin, I/O (2510:05). Outstanding Asynchronous Event Requests are admin commands. -/
def inFlight (s : State) : Nat × Nat :=
  ((s.host.flights.filter (fun f => decide (f.c.sq = 0))).length
      + s.host.ctrls[0].aers.length + s.host.ctrls[1].aers.length,
    (s.host.flights.filter (fun f => decide (f.c.sq ≠ 0))).length)

/-- The other port. -/
def otherPort (p : PortId) : PortId := if p = 0 then 1 else 0

/-- A submission queue holds entries. -/
def SubQueue.waits (q : SubQueue) : Bool := decide (q.head ≠ q.tail)

/-- A controller's admin queue gives the next command: it holds entries and one of the 64 places is free (R564). -/
def adminWaits (s : State) (p : PortId) : Bool :=
  let k := s.host.ctrls[p]
  k.ready && k.asq.waits && decide ((inFlight s).1 < 64)

/-- I/O queues that may give the next command, with their class; none while the I/O places are taken (R570), or admission of I/O commands
has stopped. -/
def ioWaits (s : State) : List (PortId × Nat × Nat) :=
  if s.host.stopped ∨ 4032 ≤ (inFlight s).2 then []
  else bothPorts.flatMap (fun p =>
    let k := s.host.ctrls[p]
    if k.ready then (k.sqs.filter (fun q => q.waits && !k.deletes.any (fun d => decide (d.2 = q.id)))).map (fun q => (p, q.id, q.cls)) else [])

/-- Place of a queue in a round robin over the queues of both controllers. -/
def turnKey (p : PortId) (q : Nat) : Nat := 2 ^ 20 * p.val + q

/-- The queue that comes next in a round robin: the one visited while it may give more, else the next after it. -/
def nextInTurn (v : Visit) (l : List (PortId × Nat)) : Option (PortId × Nat) :=
  let least (m : List (PortId × Nat)) : Option (PortId × Nat) := m.foldl (fun a q => match a with
    | some x => if turnKey q.1 q.2 < turnKey x.1 x.2 then some q else a
    | none => some q) none
  if v.left ≠ 0 ∧ l.contains (v.ctrl, v.sq) then some (v.ctrl, v.sq)
  else (least (l.filter (fun q => decide (turnKey v.ctrl v.sq < turnKey q.1 q.2)))).orElse (fun _ => least l)

/-- Commands to a queue's visit: the Arbitration Burst of its controller, 7 for no limit (feature 01h). -/
def burstOf (s : State) (p : PortId) : Nat :=
  let b := s.host.ctrls[p].feat.arbitration % 8
  if b = 7 then 2 ^ 32 else 2 ^ b

/-- A round robin after a queue has given a command. -/
def Visit.next (v : Visit) (q : PortId × Nat) (burst : Nat) : Visit :=
  { ctrl := q.1, sq := q.2, left := (if v.left ≠ 0 ∧ v.ctrl = q.1 ∧ v.sq = q.2 then v.left else burst) - 1 }

/-- What a weighted round grants to high, medium and low: HPW, MPW and LPW, zero based (feature 01h). -/
def fullCredits (s : State) (p : PortId) : List Nat :=
  let a := s.host.ctrls[p].feat.arbitration
  [bits a 31 24 + 1, bits a 23 16 + 1, bits a 15 8 + 1]

/-- The class that a weighted round serves next: the highest that has a grant left and entries. -/
def roundClass (l : List (PortId × Nat × Nat)) (p : PortId) (credits : List Nat) : Option Nat :=
  [1, 2, 3].find? (fun k => decide (credits.getD (k - 1) 0 ≠ 0) && l.any (fun q => decide (q.1 = p ∧ q.2.2 = k)))

/-- The weighted step (R569 step 3): the round in progress goes on, else the other controller's begins, else a new one of the same. -/
def chooseWeighted (s : State) (l : List (PortId × Nat × Nat)) : Option ((PortId × Nat) × Arbiter) :=
  let a := s.host.arb
  let serve (p : PortId) (credits : List Nat) : Option ((PortId × Nat) × Arbiter) :=
    (roundClass l p credits).bind (fun k =>
      let i : Fin 6 := Fin.ofNat 6 (3 * p.val + k - 1)
      (nextInTurn a.classes[i] ((l.filter (fun q => decide (q.1 = p ∧ q.2.2 = k))).map (fun q => (q.1, q.2.1)))).map (fun q =>
        (q, { a with round := p, credits := credits.set (k - 1) (credits.getD (k - 1) 0 - 1), classes := a.classes.set i (a.classes[i].next q (burstOf s p)) })))
  (serve a.round a.credits).orElse (fun _ => (serve (otherPort a.round) (fullCredits s (otherPort a.round))).orElse (fun _ =>
    serve a.round (fullCredits s a.round)))

/-- The queue that gives the next command, and the turns after it (R569 to R571): admin queues alternately; in ORDERED mode a plain round
robin over all I/O queues; in NORMAL mode class urgent, then the weighted classes. -/
def chooseNext (s : State) : Option ((PortId × Nat) × Arbiter) :=
  let a := s.host.arb
  let l := ioWaits s
  let all := l.map (fun q => (q.1, q.2.1))
  let urgent := (l.filter (fun q => decide (q.2.2 = 0))).map (fun q => (q.1, q.2.1))
  if adminWaits s a.admin then some ((a.admin, 0), { a with admin := otherPort a.admin })
  else if adminWaits s (otherPort a.admin) then some ((otherPort a.admin, 0), a)
  else if s.host.causes ≠ 0 then
    (nextInTurn { a.plain with left := 0 } all).map (fun q => (q, { a with plain := a.plain.next q 1 }))
  else if !urgent.isEmpty then
    (nextInTurn a.urgent urgent).map (fun q => (q, { a with urgent := a.urgent.next q (burstOf s q.1) }))
  else chooseWeighted s l

/-- The command's queue is the one that gives the next command, and admission has not stopped (R569, R587). -/
def canFetch (s : State) (c : CmdId) : Bool :=
  !s.host.frozen && ((chooseNext s).any (fun q => decide (q.1 = (c.ctrl, c.sq))))

/-- The submission queue's head advances by one entry, and the turn passes on. -/
def advanceHead (c : CmdId) (s : State) : State :=
  let next (q : SubQueue) : SubQueue := { q with head := (q.head + 1) % (if q.size = 0 then 1 else q.size) }
  setHost (fun h => { h with arb := ((chooseNext s).map (fun q => q.2)).getD h.arb })
    (setCtrl c.ctrl (fun k => if c.sq = 0 then { k with asq := next k.asq }
      else { k with sqs := k.sqs.map (fun q => if q.id = c.sq then next q else q) }) s)

/-- Buffer address of an offset in a port's CMB (R602). -/
def cmbAddress (s : State) (p : PortId) (off : Nat) : Nat := (regionOf s.mem (2 + p.val)).1 + off

/-- An operand that names a place in the port's own CMB: 2^63 plus the offset. -/
def cmbPlace (s : State) (p : PortId) (prp : Nat) : Option Nat := if 2 ^ 63 ≤ prp then some (cmbAddress s p (prp - 2 ^ 63)) else none

/-- A list in the CMB is read at admission: whether it carries a mark (R618), or lies outside the CMB. -/
def listFails (p : PortId) (l : Option (Nat × Nat)) (s : State) : Bool × State :=
  match l with
  | none => (false, s)
  | some (off, len) =>
    if cmbBytes s.mem p < off + len then (true, s)
    else
      match bufferRead (len / 64 + 2) (cmbAddress s p off) len s with
      | ((_, m), s1) => (decide (m ≠ 0), s1)

/-- The list and the data of an I/O command of `count` LBAs: none of it fails to be transferred (R560, R618). -/
def transferFails (p : PortId) (x : Transfer) (count : Nat) (s : State) : Bool × State :=
  if x.data.any (fun off => decide (cmbBytes s.mem p < off + 4096 * count)) then (true, s) else listFails p x.list s

/-- The submission entry stands in the CMB on a line that carries a mark. -/
def entryPoisoned (c : CmdId) (s : State) : Bool × State :=
  match s.host.ctrls[c.ctrl].sqs.find? (fun q => q.id = c.sq) with
  | none => (false, s)
  | some q =>
    match cmbPlace s c.ctrl q.base with
    | none => (false, s)
    | some a =>
      match bufferRead 2 (a + 64 * q.head) 64 s with
      | ((_, p), s1) => (decide (p ≠ 0), s1)

/-- The queue's class: the QPRIO of its creation (R569). -/
def queueClass (s : State) (c : CmdId) : Nat :=
  ((s.host.ctrls[c.ctrl].sqs.find? (fun q => q.id = c.sq)).map (fun q => q.cls)).getD 0

/-- An identifier of a command that is in flight. -/
def busyId (s : State) (c : CmdId) : Bool :=
  (flightOf s c).isSome || (decide (c.sq = 0) && s.host.ctrls[c.ctrl].aers.contains c.cid)

/-- A command that fails a check at admission completes at once (R566). -/
def refuse (c : CmdId) (st : Nat × Nat × Option Bool) (s : State) : State := completeAs c st 0 (bump 0x2510 9 1 1 s)

/-- A command admitted: counted (2510:09). -/
def admitted (s : State) : State := bump 0x2510 9 0 1 s

/-- Fetch of one submission entry: a marked entry is consumed without a completion (R618); another takes the next arrival
sequence, and its own checks follow. -/
def fetch (c : CmdId) (k : State → State) (s : State) : State :=
  if canFetch s c then
    match entryPoisoned c s with
    | (true, s1) =>
      raise 0x3004 [.u8 (controllerId c.ctrl), .u16 c.sq]
        (asyncEvent c.ctrl 0 4 (errorEntry c.ctrl c.sq 0xFFFF 0 0 0 (advanceHead c s1)))
    | (false, s1) =>
      let s2 := setHost (fun h => { h with seq := h.seq + 1 }) (advanceHead c s1)
      if busyId s2 c then refuse c (0, 3, none) s2 else k s2
  else s

/-- A command put into flight; a stalled one is counted (R573, R574). -/
def takeOff (f : Flight) (s : State) : State :=
  let s1 := admitted (setFlights (fun l => l ++ [{ f with tick := s.ticks }]) s)
  if stalled s1 f then bump 0x2510 9 2 1 s1 else s1

/-! ### Namespace checks -/

/-- The first checks of an I/O command: its namespace is in the active list (SC 0Bh) and Optimized here (R550). -/
def nsCheck (s : State) (nsid : Nat) : Except (Nat × Nat × Option Bool) TeamId :=
  match teamOfNsid nsid with
  | none => .error (0, 0x0B, none)
  | some t =>
    if !(nsAt s t).listed then .error (0, 0x0B, none)
    else if anaOptimized s t then .ok t else .error (3, 2, none)

/-- The zones have been built (R843). -/
def builtCheck (s : State) (t : TeamId) : Except (Nat × Nat × Option Bool) Unit :=
  if (nsAt s t).built then .ok () else .error (0, 0x82, some false)

/-! ### ORDERED mode: ends of its causes (R571) -/

/-- Every disc of every ATTACHED team has ended its recovery scan, or carries no open session. -/
def scansEnded (s : State) : Bool :=
  allTeams.all (fun t => decide ((teamAt s t).st ≠ .attached) ||
    (membersOf s t).all (fun n => (((laneAt s n).disc).map (fun d => !d.scanDue)).getD true))

/-- Start-up ends once a controller is enabled and the scans have ended. -/
def startupCheck (s : State) : State :=
  if bit s.host.causes 0 && (s.host.ctrls[0].ready || s.host.ctrls[1].ready) && scansEnded s then setCause 0 false s else s

/-- Takeover recovery and activation recovery end when every command carried over has completed. -/
def carriedCheck (s : State) : State :=
  if s.host.flights.any (fun f => f.carried) then s
  else
    let s1 := if bit s.host.causes 2 then setCause 2 false s else s
    if bit s1.host.causes 3 && !s1.host.frozen then setCause 3 false s1 else s1

/-! ### Places of a zone's extents (R233, R234, R552) -/

/-- Groups g of a disc i of N discs whose extents 4 (g N + i) to 4 (g N + i) + 3 lie in zone z: first, and one past. -/
def zoneGroups (n i z : Nat) : Nat × Nat :=
  let N := if n = 0 then 1 else n
  ((4096 * z - i + N - 1) / N, (4096 * (z + 1) - i + N - 1) / N)

/-- Discs of a team with their lanes and what is known of the disc. -/
def teamDiscs (s : State) (t : TeamId) : List (Nat × LaneId × Disc) :=
  (upTo (discCount s t)).filterMap (fun i =>
    match laneOfDisc s t i with
    | none => none
    | some n => ((laneAt s n).disc).map (fun d => (i, n, d)))

/-- Highest recorded group of a zone on one track and layer of a disc, counted as R221 counts its logical extents. -/
def highestGroup (d : Disc) (pos : Fin 32) (r : Nat × Nat) : Option Nat :=
  let base := pos.val / 4 * 119210
  let top := min r.2 (base + d.extents[pos])
  if max r.1 base < top then some (top - 1) else none

/-- The m of R843: team extents of a zone, counted from its first, up to the highest recorded. -/
def zoneRecorded (n z : Nat) (discs : List (Nat × LaneId × Disc)) : Nat :=
  discs.foldl (fun a q =>
    (List.ofFn (fun p : Fin 32 => p)).foldl (fun b p =>
      match highestGroup q.2.2 p (zoneGroups n q.1 z) with
      | none => b
      | some g => max b (4 * (g * n + q.1) + p.val % 4 + 1 - 16384 * z)) a) 0

/-- The zones of a namespace from the counts m of each, the highest zone last (R843). -/
def rebuiltZones : List (Nat × Nat) → List (Nat × Zone)
  | [] => []
  | (z, m) :: rest =>
    let later := rebuiltZones rest
    if m = 0 then later
    else
      let higher := rest.any (fun q => decide (q.2 ≠ 0))
      (z, { st := if m = 16384 ∨ higher then .full else .closed, wp := if m = 16384 ∨ higher then 2 ^ 20 else 64 * m
            byCtrl := decide (m ≠ 16384) && higher, used := 0 }) :: later

/-- The LBAs of a rebuilt zone from its rebuilt pointer to its end read as zeros when the zone comes back Full. -/
def rebuiltZeros (l : List (Nat × Nat)) (zones : List (Nat × Zone)) : List (Nat × Nat) :=
  zones.filterMap (fun q =>
    match mapGet l q.1 with
    | some m => if q.2.st = .full ∧ m < 16384 then some (2 ^ 20 * q.1 + 64 * m, 2 ^ 20 - 64 * m) else none
    | none => none)

/-! ### Read Only zones (R559) -/

/-- Zone z holds an unwritable logical extent of a disc, or a higher one of the same track and layer. -/
def zoneUnwritable (n z i : Nat) (d : Disc) : Bool :=
  (List.ofFn (fun p : Fin 32 => p)).any (fun p =>
    match unwritableFrom d p with
    | none => false
    | some e =>
      let r := zoneGroups n i z
      decide (max r.1 (e / 4) < min r.2 (119210 * (p.val / 4 + 1))))

/-- Why a zone must be Read Only: 0 unwritable extent, 1 disc closed. -/
def readOnlyReason (n z : Nat) (discs : List (Nat × LaneId × Disc)) : Option Nat :=
  if discs.any (fun q => zoneUnwritable n z q.1 q.2.2) then some 0
  else if discs.any (fun q => q.2.2.closed && decide ((zoneGroups n q.1 z).1 < (zoneGroups n q.1 z).2)) then some 1
  else none

/-- The extents of a namespace that can no longer be recorded: their disc is closed, or they are unwritable. -/
def lostExtents (s : State) (t : TeamId) : List (Nat × LaneId) :=
  let n := discCount s t
  (nsAt s t).extents.filterMap (fun p =>
    if p.2.verified ∨ p.2.ended then none
    else
      match laneOfExtent s t p.1 with
      | none => none
      | some k =>
        match (laneAt s k).disc with
        | none => none
        | some d =>
          let e := extentLogical n p.1
          match extentPlace e with
          | (l, tr, _) =>
            let bad : Bool := match unwritableFrom d (trackPos l tr) with
              | some e0 => decide (e0 ≤ e)
              | none => false
            if d.closed || bad then some (p.1, k) else none)

/-- Writes with an LBA in an extent that can no longer be recorded end at once, as the write row of R588 ends them. -/
def endLostWrites (t : TeamId) (s : State) : State :=
  (lostExtents s t).foldl (fun a q =>
    let hit := a.host.flights.filter (fun f => f.writes && decide (f.nsid = t.val + 1) &&
      (stagedOf (nsAt a t) f.seq).any (fun g => decide (g.1 = q.1) && !stagedDone g))
    let a1 := setFlights (fun l => l.map (fun f =>
      if hit.any (fun h => decide (h.c = f.c)) then { f with status := some (2, 0x80, some true) } else f)) a
    endExtent t q.1 a1) s

/-- Zones that an unwritable extent or a closed disc makes Read Only, with event 7005 for each, and the writes that this
ends (R559). -/
def checkReadOnly (t : TeamId) (s : State) : State :=
  let ns := nsAt s t
  let discs := teamDiscs s t
  if ns.listed ∧ ns.built ∧ discs.any (fun q => q.2.2.closed || (List.ofFn (fun p : Fin 32 => p)).any (fun p =>
      (unwritableFrom q.2.2 p).isSome)) then
    let s1 := (upTo (zoneCount ns.count)).foldl (fun a z =>
      let q := zoneAt (nsAt a t) z
      if q.st = .full ∨ q.st = .readOnly then a
      else
        match readOnlyReason ns.count z discs with
        | none => a
        | some r =>
          raise 0x7005 [.u8 t.val, .u32 z, .u8 r] (asyncBoth 2 0xEF (setZone t z (fun q => { q with st := .readOnly }) a))) s
    endLostWrites t s1
  else s

/-- R559 for the team of a lane. -/
def checkReadOnlyLane (n : LaneId) (s : State) : State :=
  match teamOfLane s n with
  | some t => checkReadOnly t s
  | none => s

end Sys2Proof.Machine
end

