-- ==== Sys2Proof/Machine/Warning.lean ====
section
/-! DEFINITION. What the SMART / Health log reports, and the asynchronous events of its Critical Warning (R542, R543). -/

namespace Sys2Proof.Machine

/-- Lanes of ATTACHED teams. -/
def attachedLanes (s : State) : List LaneId :=
  allLanes.filter (fun n =>
    match teamOfLane s n with
    | some t => decide ((teamAt s t).st = .attached)
    | none => false)

/-- Composite temperature: the highest junction temperature of the five dies, in kelvin, from 0.1 degC. -/
def compositeKelvin (s : State) : Nat := ((s.sup.temps.foldl max (-2731) + 2731) / 10).toNat

/-- Available Spare, percent. -/
def availableSpare (s : State) : Nat :=
  (attachedLanes s).foldl (fun a n =>
    match (laneAt s n).disc with
    | none => a
    | some d =>
      let layer := ((laneAt s n).life.layer).getD (laneAt s n).life.targetLayer
      (upTo 4).foldl (fun b k => min b (100 * relocFree d layer k / 2090)) a) 100

/-- Percentage Used. -/
def percentageUsed (s : State) : Nat :=
  min 255 ((attachedLanes s).foldl (fun a n =>
    match (laneAt s n).disc with
    | none => a
    | some d => max a (100 * sumNat d.extents.toList / 3814720)) 0)

/-- Every namespace has only Full or Read Only zones; false while the list is empty. -/
def allZonesSpent (s : State) : Bool :=
  let l := allTeams.filter (fun t => (nsAt s t).listed)
  !l.isEmpty && l.all (fun t =>
    let ns := nsAt s t
    (upTo (zoneCount ns.count)).all (fun z => decide ((zoneAt ns z).st = .full ∨ (zoneAt ns z).st = .readOnly)))

/-- Critical Warning of a controller (R542). -/
def criticalWarning (s : State) (p : PortId) : Nat :=
  let f := s.host.ctrls[p].feat
  let k := compositeKelvin s
  b2n (decide (availableSpare s < lcfg s 0 0x31 5)) + 2 * b2n (decide (f.tempOver ≤ k) || decide (k ≤ f.tempUnder)) +
    4 * b2n ((attachedLanes s).any (fun n => (laneAt s n).flt.latched || (laneAt s n).wr.suspended)) + 8 * b2n (allZonesSpent s)

/-- Bits of the Critical Warning that have become 1 raise their SMART / Health events (R543). -/
def warningCheck (s : State) : State :=
  bothPorts.foldl (fun a p =>
    let new := criticalWarning a p
    let old := a.host.ctrls[p].warning
    let rises (i : Nat) : Bool := bit new i && !bit old i
    let a1 := setCtrl p (fun c => { c with warning := new }) a
    let a2 := if rises 0 then asyncEvent p 1 2 a1 else a1
    let a3 := if rises 1 then asyncEvent p 1 1 a2 else a2
    if rises 2 || rises 3 then asyncEvent p 1 0 a3 else a3) s

end Sys2Proof.Machine
end

