-- ==== Sys2Proof/Machine/NvmeAdmin.lean ====
section
/-! DEFINITION. NVMe admin commands of queues, logs, identification, features, aborts and asynchronous events (R533-R543,
R577-R580, R585). -/

namespace Sys2Proof.Machine

/-- An admin command stands in the admin submission queue. -/
def adminId (c : CmdId) : CmdId := { c with sq := 0 }

/-- Fetch of an admin command that SLEEP serves too (R703). -/
def fetchAny (c : CmdId) (k : CmdId → State → State) (s : State) : State := fetch (adminId c) (k (adminId c)) s

/-- Fetch of an admin command: in SLEEP it completes with Command Sequence Error (R703). -/
def fetchAdmin (c : CmdId) (k : CmdId → State → State) (s : State) : State :=
  fetchAny c (fun a s1 => if s1.power.unit = 2 then refuse a (0, 0xC, none) s1 else k a s1) s

/-- An admin command with its whole effect at admission succeeds. -/
def adminDone (c : CmdId) (dw0 : Nat) (s : State) : State := completeAs c (0, 0, none) dw0 (admitted s)

/-! ### Queues (R537-R539, R544, R585) -/

/-- Create I/O Completion Queue: QID and size in dword 10, PC, IEN and vector in dword 11. -/
def createCq (dw10 dw11 prp : Nat) (c : CmdId) (s : State) : State :=
  let id := dw10 % 65536
  let size := dw10 / 65536 % 65536 + 1
  let k := s.host.ctrls[c.ctrl]
  if id = 0 ∨ 64 < id ∨ k.cqs.any (fun q => q.id = id) then refuse c (1, 1, none) s
  else if size < 2 ∨ 4096 < size then refuse c (1, 2, none) s
  else if 64 < dw11 / 65536 % 65536 then refuse c (1, 8, none) s
  else if 2 ^ 63 ≤ prp then refuse c (0, 0x12, none) s
  else
    adminDone c 0 (setCtrl c.ctrl (fun k => { k with cqs := k.cqs ++
      [{ id := id, size := size, base := prp, vector := dw11 / 65536 % 65536, ien := bit dw11 1, head := 0, tail := 0
         phase := true, waiting := 0, held := [] }] }) s)

/-- CREATE_IO_CQ. -/
def execCreateIoCq (c : CmdId) (dw10 dw11 prp : Nat) (s : State) : Host.Outcome State Fault Refusal :=
  .next (fetchAdmin c (createCq dw10 dw11 prp) s)

/-- Create I/O Submission Queue: QID and size in dword 10, PC, QPRIO and CQID in dword 11. -/
def createSq (dw10 dw11 prp : Nat) (c : CmdId) (s : State) : State :=
  let id := dw10 % 65536
  let size := dw10 / 65536 % 65536 + 1
  let k := s.host.ctrls[c.ctrl]
  if id = 0 ∨ 64 < id ∨ k.sqs.any (fun q => q.id = id) then refuse c (1, 1, none) s
  else if size < 2 ∨ 4096 < size then refuse c (1, 2, none) s
  else if !k.cqs.any (fun q => q.id = dw11 / 65536 % 65536) then refuse c (1, 0, none) s
  else
    match (if bit dw11 0 ∨ prp < 2 ^ 63 then (false, s) else listFails c.ctrl (some (prp - 2 ^ 63, 8 * ((size * 64 + 4095) / 4096))) s) with
    | (true, s1) => refuse c (0, 4, none) s1
    | (false, s1) =>
      adminDone c 0 (setCtrl c.ctrl (fun k => { k with sqs := k.sqs ++
        [{ id := id, size := size, base := prp, cls := if k.wrr then bits dw11 2 1 else 0, cq := dw11 / 65536 % 65536
           head := 0, tail := 0 }] }) s1)

/-- CREATE_IO_SQ. -/
def execCreateIoSq (c : CmdId) (dw10 dw11 prp : Nat) (s : State) : Host.Outcome State Fault Refusal :=
  .next (fetchAdmin c (createSq dw10 dw11 prp) s)

/-- Delete I/O Submission Queue: reads of the queue end, writes run on, and the Delete waits for them (R585). -/
def deleteSq (dw10 : Nat) (c : CmdId) (s : State) : State :=
  let id := dw10 % 65536
  let k := s.host.ctrls[c.ctrl]
  if id = 0 ∨ !k.sqs.any (fun q => q.id = id) ∨ k.deletes.any (fun d => decide (d.2 = id)) then refuse c (1, 1, none) s
  else
    let mine := s.host.flights.filter (fun f => decide (f.c.ctrl = c.ctrl) && decide (f.c.sq = id))
    let s1 := takeOff (newFlight c s.host.seq (.admin 0 false))
      (setCtrl c.ctrl (fun k => { k with deletes := k.deletes ++ [(c, id)] }) s)
    let s2 := setFlights (fun l => l.map (fun f =>
      if f.c.ctrl = c.ctrl ∧ f.c.sq = id then
        (if f.kind = .read ∧ !f.committing then { f with sqGone := true, status := some (0, 8, none), left := [] }
         else { f with sqGone := true })
      else f)) s1
    (mine.filter (fun f => decide (f.kind = .read))).foldl (fun a f => tryComplete f.c a) s2

/-- DELETE_IO_SQ. -/
def execDeleteIoSq (c : CmdId) (dw10 : Nat) (s : State) : Host.Outcome State Fault Refusal :=
  .next (fetchAdmin c (deleteSq dw10) s)

/-- Delete I/O Completion Queue: Invalid Queue Deletion while a submission queue names it (NVMe 2.0). -/
def deleteCq (dw10 : Nat) (c : CmdId) (s : State) : State :=
  let id := dw10 % 65536
  let k := s.host.ctrls[c.ctrl]
  if id = 0 ∨ !k.cqs.any (fun q => q.id = id) then refuse c (1, 1, none) s
  else if k.sqs.any (fun q => q.cq = id) then refuse c (1, 0x0C, none) s
  else adminDone c 0 (setCtrl c.ctrl (fun k => { k with cqs := k.cqs.filter (fun q => decide (q.id ≠ id)) }) s)

/-- DELETE_IO_CQ. -/
def execDeleteIoCq (c : CmdId) (dw10 : Nat) (s : State) : Host.Outcome State Fault Refusal :=
  .next (fetchAdmin c (deleteCq dw10) s)

/-- INTERRUPT_COALESCING_TIMEOUT (R539): the aggregation time has run; the waiting completions of a vector interrupt. -/
def execInterruptCoalescingTimeout (ctrl : PortId) (vector : Nat) (s : State) : Host.Outcome State Fault Refusal :=
  let hit := s.host.ctrls[ctrl].cqs.any (fun q => decide (q.vector = vector) && q.ien && decide (q.waiting ≠ 0))
  if hit then
    .next (send (.interrupt ctrl vector) (setCtrl ctrl (fun k => { k with cqs := k.cqs.map (fun q =>
      if q.vector = vector then { q with waiting := 0 } else q) }) s))
  else .next s

/-! ### Log pages (R542) -/

/-- A hexadecimal digit. -/
def hexDigit (n : Nat) : Byte := byte (if n % 16 < 10 then 0x30 + n % 16 else 0x37 + n % 16)

/-- A firmware version as 8 ASCII characters: the digits of its word. -/
def versionText (v : Nat) : Bytes := (upTo 8).map (fun i => hexDigit (v / 16 ^ (7 - i)))

/-- Error Information log: 64 bytes to the entry. -/
def errorLog (c : Controller) : Bytes :=
  c.errors.flatMap (fun e =>
    toLE 8 e.1 ++ toLE 2 e.2.1 ++ toLE 2 e.2.2.1 ++ toLE 2 (2 * e.2.2.2.1) ++ toLE 2 0xFFFF ++ toLE 8 e.2.2.2.2.1 ++
      toLE 4 e.2.2.2.2.2 ++ zeroBytes 36)

/-- Power-on time in seconds (R747), counted up to now. -/
def powerOnSeconds (s : State) : Nat := s.life.unit[0] + (s.ticks - s.life.counted) / secTicks 1

/-- SMART / Health Information log of a controller. -/
def smartLog (s : State) (p : PortId) : Bytes :=
  let c := s.host.ctrls[p]
  let u (v : Nat) : Bytes := toLE 16 v
  toLE 1 (criticalWarning s p) ++ toLE 2 (compositeKelvin s) ++ toLE 1 (availableSpare s) ++ toLE 1 (lcfg s 0 0x31 5) ++
    toLE 1 (percentageUsed s) ++ zeroBytes 26 ++ u ((c.unitsRead + 999) / 1000) ++ u ((c.unitsWritten + 999) / 1000) ++
    u c.reads ++ u c.writes ++ u 0 ++ u s.life.unit[1] ++ u (powerOnSeconds s / 3600) ++ u s.life.unit[2] ++ u c.mediaErrors ++
    u c.errorCount ++ zeroBytes 320

/-- Firmware Slot Information log: running slot in AFI [2:0], PENDING slot in AFI [6:4], versions. -/
def firmwareLog (s : State) : Bytes :=
  let run := match s.fw.running with
    | some r => r.val + 1
    | none => 0
  let pend := if s.fw.slots[0].st = 3 then 1 else if s.fw.slots[1].st = 3 then 2 else 0
  let v (i : Fin 2) : Bytes := if s.fw.slots[i].st = 0 then zeroBytes 8 else versionText s.fw.slots[i].version
  toLE 1 (run + 16 * pend) ++ zeroBytes 7 ++ v 0 ++ v 1 ++ zeroBytes 488

/-- Changed Namespace List. -/
def changedLog (c : Controller) : Bytes := (c.changedNs.flatMap (toLE 4) ++ zeroBytes 4096).take 4096

/-- Asymmetric Namespace Access log: one group per namespace in the active list. -/
def anaLog (s : State) (groupsOnly : Bool) : Bytes :=
  let l := allTeams.filter (fun t => (nsAt s t).listed)
  toLE 8 s.host.anaChanges ++ toLE 2 l.length ++ zeroBytes 6 ++ l.flatMap (fun t =>
    toLE 4 (t.val + 1) ++ toLE 4 (if groupsOnly then 0 else 1) ++ toLE 8 s.host.anaChanges ++
      toLE 1 (if anaOptimized s t then 1 else 3) ++ zeroBytes 15 ++ (if groupsOnly then [] else toLE 4 (t.val + 1)))

/-- Opcodes of the admin commands, and of the I/O commands, that Yalzo supports (R540). -/
def adminOpcodes : List Nat := [0, 1, 2, 4, 5, 6, 8, 9, 0xA, 0xC, 0x10, 0x11, 0x81, 0x82, 0xC1, 0xC2, 0xC5]
def ioOpcodes : List Nat := [0, 1, 2, 0x79, 0x7A, 0x7D]

/-- Commands Supported and Effects log: CSUPP of each opcode; what else an entry says of a supported command is free. -/
def effectsLog : Bytes :=
  let entries (set : Nat) (l : List Nat) : Bytes := (upTo 256).flatMap (fun op =>
    toLE 4 (if l.contains op then 1 + 2 * Sys2Proof.Config.commandEffects set op else 0))
  entries 0 adminOpcodes ++ entries 1 ioOpcodes ++ zeroBytes 2048

/-- A log page by its identifier. -/
def logPage (s : State) (p : PortId) (lid : Nat) (groupsOnly : Bool) : Option Bytes :=
  if lid = 1 then some ((errorLog s.host.ctrls[p] ++ zeroBytes 4096).take 4096)
  else if lid = 2 then some (smartLog s p)
  else if lid = 3 then some (firmwareLog s)
  else if lid = 4 then some (changedLog s.host.ctrls[p])
  else if lid = 5 then some effectsLog
  else if lid = 0xC then some (anaLog s groupsOnly)
  else none

/-- Event type that reading a log page unmasks. -/
def logType (lid : Nat) : Option Nat :=
  if lid = 1 then some 0 else if lid = 2 then some 1 else if lid = 3 ∨ lid = 4 ∨ lid = 0xC then some 2 else none

/-- The first waiting event whose type is not masked answers a waiting request. -/
def asyncNext (p : PortId) (s : State) : State :=
  let c := s.host.ctrls[p]
  match c.events.find? (fun e => !c.masked.contains e.1), c.aers with
  | some e, _ :: _ =>
    asyncPost p e.1 e.2.1 (setCtrl p (fun c => { c with events := removeFirst (fun x => x == e) c.events }) s)
  | _, _ => s

/-- Reading a log page without RAE unmasks its event type; the Changed Namespace List empties. -/
def logRead (p : PortId) (lid : Nat) (rae : Bool) (s : State) : State :=
  if rae then s
  else
    let s1 := if lid = 4 then setCtrl p (fun c => { c with changedNs := [] }) s else s
    match logType lid with
    | none => s1
    | some ty => asyncNext p (setCtrl p (fun c => { c with masked := c.masked.filter (fun x => x ≠ ty) }) s1)

/-- Get Log Page: LID, RAE and length in dwords 10 and 11, offset in dwords 12 and 13. -/
def getLog (nsid dw10 dw11 dw12 dw13 : Nat) (c : CmdId) (s : State) : State :=
  let lid := dw10 % 256
  let len := 4 * (dw10 / 65536 % 65536 + 65536 * (dw11 % 65536) + 1)
  let off := dw12 % 2 ^ 32 + 2 ^ 32 * dw13
  match logPage s c.ctrl lid (lid = 0xC && bit dw10 8) with
  | none => refuse c (0, 2, none) s
  | some b =>
    if off % 4 ≠ 0 ∨ b.length < off ∨ (lid = 2 ∧ nsid ≠ 0 ∧ nsid ≠ 0xFFFFFFFF) ∨ 2 ^ 20 < len then refuse c (0, 2, none) s
    else
      adminDone c 0 (logRead c.ctrl lid (bit dw10 15) (send (.data c ((b.drop off ++ zeroBytes len).take len)) s))

/-- GET_LOG_PAGE. -/
def execGetLogPage (c : CmdId) (nsid dw10 dw11 dw12 dw13 : Nat) (s : State) : Host.Outcome State Fault Refusal :=
  .next (fetchAdmin c (getLog nsid dw10 dw11 dw12 dw13) s)

/-! ### Identify (R533-R535, R547, R549, R552) -/

/-- Bytes put at offsets of a structure of zeros of a length. -/
def structure' (len : Nat) (l : List (Nat × Bytes)) : Bytes :=
  l.foldl (fun a p => (patch a p.1 p.2).take len) (zeroBytes len)

/-- ASCII "Yalzo YZ-32A1". -/
def modelName : Bytes := ascii [0x59, 0x61, 0x6C, 0x7A, 0x6F, 0x20, 0x59, 0x5A, 0x2D, 0x33, 0x32, 0x41, 0x31]

/-- Version of the running slot. -/
def runningVersion (s : State) : Nat :=
  match s.fw.running with
  | some r => s.fw.slots[r].version
  | none => 0

/-- Power state descriptor of NVMe 2.0 (R692): power in 0.01 W, non-operational, entry and exit latency in us. -/
def powerDescriptor (mp : Nat) (nops : Bool) (enlat exlat : Nat) : Bytes :=
  toLE 2 mp ++ [0, byte (2 * b2n nops)] ++ toLE 4 enlat ++ toLE 4 exlat ++ zeroBytes 20

/-- Identify Controller data; fields not named report 0. -/
def identifyController (s : State) (p : PortId) : Bytes :=
  structure' 4096 [
    (0, slice (Sys2Proof.Config.pciIdentity.toList) 0 2), (2, slice (Sys2Proof.Config.pciIdentity.toList) 4 2),
    (4, padSpaces 20 Sys2Proof.Config.serialNumber.toList), (24, padSpaces 40 modelName), (64, versionText (runningVersion s)),
    (77, [8]), (78, toLE 2 (controllerId p)), (80, toLE 4 0x00020000), (256, toLE 2 5), (258, [3, 7]), (261, [6, 63, 4]),
    (266, toLE 2 378), (268, toLE 2 388), (342, [2, 0x49]), (344, toLE 4 32), (348, toLE 4 32), (512, [0x66, 0x44]),
    (514, toLE 2 4096), (516, toLE 4 32), (536, toLE 4 1), (768, (stored s 0x2500 3 ++ zeroBytes 256).take 256),
    (2048, powerDescriptor 5600 false 0 0), (2080, powerDescriptor 3000 false 0 0),
    (2112, powerDescriptor 900 true 2600000 10000), (2144, powerDescriptor 900 true 2600000 10000),
    (2176, powerDescriptor 110 true 2850000 40000)]

/-- Identify Namespace data of the NVM command set. -/
def identifyNamespace (ns : Namespace) (nsid : Nat) : Bytes :=
  if ns.listed then
    structure' 4096 [(0, toLE 8 (nsSize ns)), (8, toLE 8 (nsSize ns)), (16, toLE 8 (nsSize ns)), (92, toLE 4 nsid),
      (104, (ns.volume ++ zeroBytes 16).take 16), (130, [12])]
  else zeroBytes 4096

/-- Identify Namespace data of the Zoned Namespace command set: OZCS, MAR, MOR, ZSZE, ZDES. -/
def identifyZoned (ns : Namespace) : Bytes :=
  if ns.listed then structure' 4096 [(2, toLE 2 1), (4, toLE 4 255), (8, toLE 4 127), (2816, toLE 8 (2 ^ 20))]
  else zeroBytes 4096

/-- Active Namespace ID list above an NSID. -/
def activeList (s : State) (above : Nat) : Bytes :=
  ((allTeams.filter (fun t : TeamId => (nsAt s t).listed && decide (above < t.val + 1))).flatMap (fun t => toLE 4 (t.val + 1)) ++
    zeroBytes 4096).take 4096

/-- Namespace Identification Descriptor list: NGUID and the zoned command set. -/
def descriptorList (ns : Namespace) : Bytes :=
  (natBytes [2, 16, 0, 0] ++ (ns.volume ++ zeroBytes 16).take 16 ++ natBytes [4, 1, 0, 0, 2] ++ zeroBytes 4096).take 4096

/-- Identify data by CNS (R540); an NSID that cannot exist gives Invalid Namespace. -/
def identifyResult (s : State) (p : PortId) (nsid cns csi : Nat) : Except (Nat × Nat × Option Bool) Bytes :=
  let onNs (f : Namespace → Bytes) : Except (Nat × Nat × Option Bool) Bytes :=
    match teamOfNsid nsid with
    | none => .error (0, 0x0B, none)
    | some t => .ok (f (nsAt s t))
  if cns = 0 then onNs (fun ns => identifyNamespace ns nsid)
  else if cns = 1 then .ok (identifyController s p)
  else if cns = 2 then (if 0xFFFFFFFE ≤ nsid then .error (0, 0x0B, none) else .ok (activeList s nsid))
  else if cns = 3 then
    match teamOfNsid nsid with
    | none => .error (0, 0x0B, none)
    | some t => if (nsAt s t).listed then .ok (descriptorList (nsAt s t)) else .error (0, 0x0B, none)
  else if cns = 5 ∧ csi = 2 then onNs identifyZoned
  else if cns = 6 ∧ csi = 2 then .ok (structure' 4096 [(0, [8])])
  else .error (0, 2, none)

/-- IDENTIFY: CNS in dword 10 [7:0], CSI in dword 11 [31:24]. -/
def execIdentify (c : CmdId) (nsid dw10 dw11 : Nat) (s : State) : Host.Outcome State Fault Refusal :=
  .next (fetchAdmin c (fun c s =>
    match identifyResult s c.ctrl nsid (dw10 % 256) (dw11 / 2 ^ 24 % 256) with
    | .error e => refuse c e s
    | .ok b => adminDone c 0 (send (.data c b) s)) s)

/-! ### Abort (R577-R580) -/

/-- Commands that can be aborted (R578). -/
def abortable (k : FlightKind) : Bool :=
  match k with
  | .read => true
  | .zoneReceive => true
  | .admin _ a => a
  | _ => false

/-- Abort: SQID and CID in dword 10. -/
def abortCommand (dw10 : Nat) (c : CmdId) (s : State) : State :=
  let target : CmdId := { ctrl := c.ctrl, sq := dw10 % 65536, cid := dw10 / 65536 % 65536 }
  let pending := s.host.flights.filter (fun f => decide (f.c.ctrl = c.ctrl) && decide (f.kind = .admin 8 false))
  if 4 ≤ pending.length then refuse c (1, 3, none) s
  else
    let hit := match flightOf s target with
      | some f => abortable f.kind && !f.committing
      | none => false
    if hit then
      completeOp 8 c (0, 0, none) 0 (bump 0x2510 9 3 1 (admitted
        (tryComplete target (setFlight target (fun f => { f with status := some (0, 7, none), left := [] }) s))))
    else completeOp 8 c (0, 0, none) 1 (bump 0x2510 9 4 1 (admitted s))

/-- ABORT. -/
def execAbort (c : CmdId) (dw10 : Nat) (s : State) : Host.Outcome State Fault Refusal := .next (fetchAdmin c (abortCommand dw10) s)

/-! ### Features (R541) -/

/-- A Set Features: SV is refused; the effect, or the status that refuses it. -/
def setFeature (sv : Bool) (g : CmdId → State → Except (Nat × Nat × Option Bool) (Nat × State)) (c : CmdId) (s : State) : State :=
  if sv then refuse c (1, 0x0D, none) s
  else
    match g c s with
    | .error e => refuse c e s
    | .ok (dw0, s1) => adminDone c dw0 s1

/-- A feature value changed. -/
def putFeature (c : CmdId) (f : Features → Features) (s : State) : Except (Nat × Nat × Option Bool) (Nat × State) :=
  .ok (0, setCtrl c.ctrl (fun k => { k with feat := f k.feat }) s)

/-- SET_FEATURES_ARBITRATION (01h). -/
def execSetFeaturesArbitration (c : CmdId) (sv : Bool) (dw11 : Nat) (s : State) : Host.Outcome State Fault Refusal :=
  .next (fetchAdmin c (setFeature sv (fun c s =>
    if bits dw11 7 3 ≠ 0 then .error (0, 2, none) else putFeature c (fun f => { f with arbitration := dw11 % 2 ^ 32 }) s)) s)

/-- SET_FEATURES_TEMP_THRESHOLD (04h): the composite temperature's over or under threshold. -/
def execSetFeaturesTempThreshold (c : CmdId) (sv : Bool) (dw11 : Nat) (s : State) : Host.Outcome State Fault Refusal :=
  .next (fetchAdmin c (fun c s => warningCheck (setFeature sv (fun c s =>
    if bits dw11 19 16 ≠ 0 ∨ 1 < bits dw11 21 20 ∨ bits dw11 31 22 ≠ 0 then .error (0, 2, none)
    else if bit dw11 20 then putFeature c (fun f => { f with tempUnder := dw11 % 65536 }) s
    else putFeature c (fun f => { f with tempOver := dw11 % 65536 }) s) c s)) s)

/-- SET_FEATURES_NUMBER_OF_QUEUES (07h): at most 64 of each; Command Sequence Error once a queue exists (NVMe 2.0). -/
def execSetFeaturesNumberOfQueues (c : CmdId) (sv : Bool) (dw11 : Nat) (s : State) : Host.Outcome State Fault Refusal :=
  .next (fetchAdmin c (setFeature sv (fun c s =>
    let k := s.host.ctrls[c.ctrl]
    let sq := dw11 % 65536
    let cq := dw11 / 65536 % 65536
    if sq = 65535 ∨ cq = 65535 then .error (0, 2, none)
    else if !k.sqs.isEmpty ∨ !k.cqs.isEmpty then .error (0, 0x0C, none)
    else
      let v := min sq 63 + 65536 * min cq 63
      .ok (v, setCtrl c.ctrl (fun k => { k with feat := { k.feat with queues := v } }) s))) s)

/-- SET_FEATURES_INT_COALESCING (08h): threshold and time. -/
def execSetFeaturesIntCoalescing (c : CmdId) (sv : Bool) (dw11 : Nat) (s : State) : Host.Outcome State Fault Refusal :=
  .next (fetchAdmin c (setFeature sv (fun c s =>
    if bits dw11 31 16 ≠ 0 then .error (0, 2, none) else putFeature c (fun f => { f with coalescing := dw11 % 65536 }) s)) s)

/-- SET_FEATURES_INT_VECTOR_CONFIG (09h): coalescing disabled for a vector. -/
def execSetFeaturesIntVectorConfig (c : CmdId) (sv : Bool) (dw11 : Nat) (s : State) : Host.Outcome State Fault Refusal :=
  .next (fetchAdmin c (setFeature sv (fun c s =>
    let v := dw11 % 65536
    if 64 < v ∨ bits dw11 31 17 ≠ 0 then .error (0, 2, none)
    else putFeature c (fun f => { f with
      noCoalesce := if bit dw11 16 then v :: f.noCoalesce.filter (fun x => x ≠ v) else f.noCoalesce.filter (fun x => x ≠ v) }) s)) s)

/-- SET_FEATURES_ASYNC_EVENT_CONFIG (0Bh). -/
def execSetFeaturesAsyncEventConfig (c : CmdId) (sv : Bool) (dw11 : Nat) (s : State) : Host.Outcome State Fault Refusal :=
  .next (fetchAdmin c (setFeature sv (fun c s => putFeature c (fun f => { f with async := dw11 % 2 ^ 32 }) s)) s)

/-- SET_FEATURES_UNSUPPORTED: Invalid Field in Command. -/
def execSetFeaturesUnsupported (c : CmdId) (sv : Bool) (_fid : Nat) (s : State) : Host.Outcome State Fault Refusal :=
  .next (fetchAdmin c (setFeature sv (fun _ _ => .error (0, 2, none))) s)

/-- The value of a feature (R541). -/
def featureValue (s : State) (p : PortId) (fid dw11 : Nat) : Option Nat :=
  let f := s.host.ctrls[p].feat
  if fid = 1 then some f.arbitration
  else if fid = 2 then some s.power.ps
  else if fid = 4 then (if bits dw11 19 16 ≠ 0 ∨ 1 < bits dw11 21 20 then none else some (if bit dw11 20 then f.tempUnder else f.tempOver))
  else if fid = 7 then some f.queues
  else if fid = 8 then some f.coalescing
  else if fid = 9 then
    (if 64 < dw11 % 65536 then none else some (dw11 % 65536 + 65536 * b2n (f.noCoalesce.contains (dw11 % 65536))))
  else if fid = 0xB then some f.async
  else none

/-- GET_FEATURES: FID in dword 10 [7:0]; SEL, which R535 does not report, must be 0. In SLEEP only 02h is served (R703). -/
def execGetFeatures (c : CmdId) (dw10 dw11 : Nat) (s : State) : Host.Outcome State Fault Refusal :=
  .next (fetchAny c (fun c s =>
    if s.power.unit = 2 ∧ dw10 % 256 ≠ 2 then refuse c (0, 0xC, none) s
    else if dw10 / 256 ≠ 0 then refuse c (0, 2, none) s
    else
      match featureValue s c.ctrl (dw10 % 256) dw11 with
      | none => refuse c (0, 2, none) s
      | some v => adminDone c v s) s)

/-! ### Asynchronous Event Requests and unknown opcodes -/

/-- ASYNC_EVENT_REQUEST (R543): at most 8 outstanding (R535). -/
def execAsyncEventRequest (c : CmdId) (s : State) : Host.Outcome State Fault Refusal :=
  .next (fetchAdmin c (fun c s =>
    if 8 ≤ s.host.ctrls[c.ctrl].aers.length then refuse c (1, 5, none) s
    else asyncNext c.ctrl (setCtrl c.ctrl (fun k => { k with aers := k.aers ++ [c.cid] }) (admitted s))) s)

/-- INVALID_OPCODE (R540): Invalid Command Opcode, on the queue that holds the command. -/
def execInvalidOpcode (c : CmdId) (_opcode : Nat) (s : State) : Host.Outcome State Fault Refusal :=
  .next (fetch c (refuse c (0, 1, none)) s)

end Sys2Proof.Machine
end

