-- ==== Sys2Proof/Machine/Io.lean ====
section
/-! DEFINITION. NVMe I/O commands, doorbells, completion, waits and controller resets (12_nvme_host.md,
13_command_order.md). -/

namespace Sys2Proof.Machine

/-! ### Sending the data of a Read (R556, R576, R619) -/

/-- The LBA lies in a range that reads as zeros. -/
def inZeros (ns : Namespace) (lba : Nat) : Bool := ns.zeros.any (fun r => decide (r.1 ≤ lba ∧ lba < r.1 + r.2))

/-- The disc that an LBA's extent belongs to holds the extent; none where no disc is identified there. -/
def lbaHeld (s : State) (t : TeamId) (lba : Nat) : Option Bool :=
  match lbaLane s t lba with
  | none => none
  | some n => ((laneAt s n).disc).map (fun d => holdsExtent d (extentLogical (discCount s t) (lba / 64)))

/-- An LBA of a Read reads as zeros without a media access (R556). -/
def readsZero (s : State) (t : TeamId) (f : Flight) (lba : Nat) : Bool :=
  f.above.contains lba || inZeros (nsAt s t) lba || decide (lbaHeld s t lba = some false)

/-- One LBA of a Read goes to where its data lies: to the host, with EP where it is marked, or into the CMB with its mark (R544, R618). -/
def putLba (c : CmdId) (f : Flight) (lba : Nat) (b : Bytes) (mark : Nat) (s : State) : State :=
  match f.cmb with
  | none => send (.lba c lba b (decide (mark ≠ 0))) s
  | some off => bufferWrite 65 (cmbAddress s c.ctrl (off + 4096 * (lba - f.slba))) b mark s

/-- A Read that is not stalled sends the LBAs that read as zeros. -/
def serveZeros (c : CmdId) (s : State) : State :=
  match flightOf s c with
  | none => s
  | some f =>
    match f.kind, teamOfNsid f.nsid with
    | .read, some t =>
      if stalled s f then s
      else
        let hit := f.left.filter (readsZero s t f)
        setFlight c (fun g => { g with left := g.left.filter (fun l => !hit.contains l) })
          (hit.foldl (fun a l => putLba c f l (zeroBytes 4096) 0 a) s)
    | _, _ => s

/-- Bytes of the commands admitted for a team, the demand of R452, and its history (R453). -/
def countDemand (t : TeamId) (count : Nat) (s : State) : State :=
  setTeam t (fun x => { x with admitted := x.admitted + 4096 * count, history := true }) s

/-- MDTS and ZASL: 256 LBAs of 4,096 bytes (R535). -/
def transferOk (count : Nat) : Bool := decide (count ≤ 256)

/-- LBAs of a range. -/
def lbaRange (first count : Nat) : List Nat := (upTo count).map (fun i => first + i)

/-- Checks of a Read (R550, R560). -/
def readCheck (s : State) (nsid slba count : Nat) : Except (Nat × Nat × Option Bool) TeamId :=
  match nsCheck s nsid with
  | .error e => .error e
  | .ok t =>
    if !transferOk count then .error (0, 2, none)
    else if nsSize (nsAt s t) < slba + count then .error (0, 0x80, none)
    else .ok t

/-- A lane that keeps commands waiting makes those that use it wait from now on (R588). -/
def waitOnHeldLanes (c : CmdId) (s : State) : State :=
  setFlight c (fun f => { f with waits := f.waits ++ (allLanes.filter (fun n =>
    laneHolds (laneAt s n) && usesLane s f n && !f.waits.any (fun w => decide (w.1 = n)))).map (fun n => (n, s.ticks)) }) s

/-- READ (R556, R573-R576): the LBAs at or above a zone's write pointer are noted at admission. -/
def readCommand (c : CmdId) (nsid slba nlb : Nat) (x : Transfer) (s0 : State) : State :=
  match readCheck s0 nsid slba (nlb + 1), transferFails c.ctrl x (nlb + 1) s0 with
  | .error e, _ => refuse c e s0
  | .ok _, (true, s) => refuse c (0, 4, none) s
  | .ok t, (false, s) =>
    let ns := nsAt s t
    let ls := lbaRange slba (nlb + 1)
    let above := if ns.built then ls.filter (fun l => decide ((zoneAt ns (l / 2 ^ 20)).wp ≤ l % 2 ^ 20)) else []
    let f := { newFlight c s.host.seq .read with
      nsid := nsid, slba := slba, count := nlb + 1, cls := queueClass s c, left := ls, above := above, cmb := x.data, viaCmb := x.data.isSome || x.list.isSome }
    waitOnHeldLanes c (serveZeros c (takeOff f (countDemand t (nlb + 1) s)))

/-- READ. -/
def execRead (c : CmdId) (nsid slba nlb : Nat) (x : Transfer) (s : State) : Host.Outcome State Fault Refusal :=
  .next (fetch c (readCommand c nsid slba nlb x) s)

/-! ### Writes (R553-R557, R565) -/

/-- The LBAs of an admitted write join their extents; the 64th of an extent seals it (R275). -/
def claim (t : TeamId) (seq : Nat) : List Nat → State → State
  | [], s => s
  | l :: rest, s =>
    claim t seq rest (setExtent t (l / 64) (fun e =>
      let lbas := e.lbas ++ [{ pos := l % 64, seq := seq, addr := none }]
      { e with lbas := lbas, last := s.ticks, isSealed := e.isSealed || decide (64 ≤ lbas.length) || decide (l % 64 = 63) }) s)

/-- Checks of a write at a zone's write pointer (R554, R557, R559) before the room for an open zone. -/
def writeCheck (s : State) (nsid slba count : Nat) (append : Bool) : Except (Nat × Nat × Option Bool) TeamId :=
  match nsCheck s nsid with
  | .error e => .error e
  | .ok t =>
    match builtCheck s t with
    | .error e => .error e
    | .ok _ =>
      let ns := nsAt s t
      let z := slba / 2 ^ 20
      let q := zoneAt ns z
      if !transferOk count then .error (0, 2, none)
      else if nsSize ns < slba + (if append then 1 else count) then .error (0, 0x80, none)
      else if append ∧ slba % 2 ^ 20 ≠ 0 then .error (0, 2, none)
      else if q.st = .readOnly then .error (1, 0xBA, none)
      else if q.st = .full then .error (1, 0xB9, none)
      else if !append ∧ 2 ^ 20 < slba % 2 ^ 20 + count then .error (1, 0xB8, none)
      else if append ∧ 2 ^ 20 < q.wp + count then .error (1, 0xB8, none)
      else if !append ∧ slba % 2 ^ 20 ≠ q.wp then .error (1, 0xBC, none)
      else if emptyBelow ns z then .error (1, 0xBC, none)
      else .ok t

/-- A zone takes a write: it opens implicitly, or the status that refuses it. -/
def openForWrite (t : TeamId) (z : Nat) (s : State) : Except (Nat × Nat × Option Bool) State :=
  match openRoom t z s with
  | .error e => .error (e.1, e.2, none)
  | .ok s1 =>
    let seq := s.host.seq
    .ok (setZone t z (fun q => { q with st := if q.isOpen then q.st else .implicit, used := seq }) s1)

/-- WRITE and ZONE_APPEND admitted: LBAs claimed at the write pointer, which advances (R554, R565). -/
def writeCommand (c : CmdId) (nsid slba nlb : Nat) (append : Bool) (x : Transfer) (s0 : State) : State :=
  match writeCheck s0 nsid slba (nlb + 1) append, transferFails c.ctrl x (nlb + 1) s0 with
  | .error e, _ => refuse c e s0
  | .ok _, (true, s) => refuse c (0, 4, none) s
  | .ok t, (false, s) =>
    let z := slba / 2 ^ 20
    match openForWrite t z s with
    | .error e => refuse c e s
    | .ok s1 =>
      let wp := (zoneAt (nsAt s t) z).wp
      let first := z * 2 ^ 20 + wp
      let ls := lbaRange first (nlb + 1)
      let f := { newFlight c s.host.seq (if append then .append else .write) with
        nsid := nsid, slba := first, count := nlb + 1, cls := queueClass s c, left := ls
        dw0 := if append then first % 2 ^ 32 else 0, dw1 := if append then first / 2 ^ 32 else 0, cmb := x.data, viaCmb := x.data.isSome || x.list.isSome }
      let s2 := moveWp t z (wp + nlb + 1) (claim t s.host.seq ls s1)
      waitOnHeldLanes c (markHeld t (takeOff f (countDemand t (nlb + 1) s2)))

/-- WRITE. -/
def execWrite (c : CmdId) (nsid slba nlb : Nat) (x : Transfer) (s : State) : Host.Outcome State Fault Refusal :=
  .next (fetch c (writeCommand c nsid slba nlb false x) s)

/-- ZONE_APPEND. -/
def execZoneAppend (c : CmdId) (nsid zslba nlb : Nat) (x : Transfer) (s : State) : Host.Outcome State Fault Refusal :=
  .next (fetch c (writeCommand c nsid zslba nlb true x) s)

/-! ### Data from the host (R243, R574, R617) -/

/-- One LBA of a write in staging, with its mark: 0 none, 1 host, 2 memory. -/
def stageLba (c : CmdId) (lba : Nat) (data : Bytes) (mark : Nat) (s : State) : State :=
  match flightOf s c with
  | none => s
  | some f =>
    match teamOfNsid f.nsid with
    | none => s
    | some t =>
      if f.writes ∧ f.left.contains lba ∧ !stalled s f then
        let a := stagingPlace s
        let s1 := bufferWrite 65 a ((data ++ List.replicate 4096 0).take 4096) mark s
        let s2 := setExtent t (lba / 64) (fun e => { e with lbas := e.lbas.map (fun l =>
          if l.pos = lba % 64 ∧ l.seq = f.seq then { l with addr := some a } else l) }) s1
        setFlight c (fun g => { g with left := g.left.filter (fun l => l ≠ lba) }) s2
      else s

/-- HOST_DATA_COMPLETION (R617, R618): one LBA of a write's data arrives; lines from a completion with EP or an error carry the host mark,
and data in the CMB is staged with the mark that it carries. The bytes of a completion that ended with an error are a free value. -/
def execHostDataCompletion (c : CmdId) (lba : Nat) (data : Bytes) (ep error : Bool) (s : State) :
    Host.Outcome State Fault Refusal :=
  match (flightOf s c).bind (fun f => f.cmb.map (fun off => cmbAddress s c.ctrl (off + 4096 * (lba - f.slba)))) with
  | some a =>
    match bufferRead 65 a 4096 s with
    | ((b, m), s1) => .next (stageLba c lba b m s1)
  | none =>
    if error then
      match drawBytes 4096 s with
      | (d, s1) => .next (stageLba c lba d 1 s1)
    else .next (stageLba c lba data (b2n ep) s)

/-- HOST_DATA_TIMEOUT: a completion timeout marks the lines it was to write. -/
def execHostDataTimeout (c : CmdId) (lba : Nat) (s : State) : Host.Outcome State Fault Refusal :=
  match drawBytes 4096 s with
  | (d, s1) => .next (stageLba c lba d 1 s1)

/-! ### Flush and Zone Management (R558, R567, R581-R584) -/

/-- Namespaces that a Flush concerns. -/
def flushTeams (s : State) (nsid : Nat) : List TeamId :=
  if nsid = 0xFFFFFFFF then allTeams.filter (fun t => (nsAt s t).listed)
  else
    match teamOfNsid nsid with
    | some t => [t]
    | none => []

/-- FLUSH: every open extent of the namespace is sealed at admission; completion follows the earlier writes. -/
def flushCommand (c : CmdId) (nsid : Nat) (s : State) : State :=
  let bad : Option (Nat × Nat × Option Bool) := if nsid = 0xFFFFFFFF then none
    else match nsCheck s nsid with
      | .error e => some e
      | .ok _ => none
  match bad with
  | some e => refuse c e s
  | none =>
    let f := { newFlight c s.host.seq .flush with nsid := nsid, cls := queueClass s c }
    tryComplete c (takeOff f ((flushTeams s nsid).foldl (fun a t => markHeld t (sealAll t a)) s))

/-- FLUSH. -/
def execFlush (c : CmdId) (nsid : Nat) (s : State) : Host.Outcome State Fault Refusal := .next (fetch c (flushCommand c nsid) s)

/-- Checks of a Zone Management Send: the zone that it names. -/
def zoneCheck (s : State) (nsid slba : Nat) (all : Bool) : Except (Nat × Nat × Option Bool) TeamId :=
  match nsCheck s nsid with
  | .error e => .error e
  | .ok t =>
    match builtCheck s t with
    | .error e => .error e
    | .ok _ =>
      if all then .ok t
      else if nsSize (nsAt s t) ≤ slba then .error (0, 0x80, none)
      else if slba % 2 ^ 20 ≠ 0 then .error (0, 2, none)
      else .ok t

/-- A zone opened explicitly (R553, R557). -/
def openZone (t : TeamId) (z : Nat) (s : State) : Except (Nat × Nat × Option Bool) State :=
  let q := zoneAt (nsAt s t) z
  if q.st = .full ∨ q.st = .readOnly then .error (1, 0xBF, none)
  else if emptyBelow (nsAt s t) z then .error (1, 0xBF, none)
  else if q.st = .explicit then .ok s
  else
    match openRoom t z s with
    | .error e => .error (e.1, e.2, none)
    | .ok s1 => .ok (setZone t z (fun q => { q with st := .explicit }) s1)

/-- A zone closed. -/
def closeZoneAsked (t : TeamId) (z : Nat) (s : State) : Except (Nat × Nat × Option Bool) State :=
  let q := zoneAt (nsAt s t) z
  if q.isOpen then .ok (closeZone t z s) else if q.st = .closed then .ok s else .error (1, 0xBF, none)

/-- A zone finished. -/
def finishZone (t : TeamId) (z : Nat) (s : State) : Except (Nat × Nat × Option Bool) State :=
  let q := zoneAt (nsAt s t) z
  if q.st = .readOnly then .error (1, 0xBF, none) else if q.st = .full then .ok s else .ok (fillZone t z false s)

/-- An action on every zone of a namespace that satisfies a test; the first refusal stands. -/
def onZones (t : TeamId) (p : Zone → Bool) (g : TeamId → Nat → State → Except (Nat × Nat × Option Bool) State) (s : State) :
    Except (Nat × Nat × Option Bool) State :=
  (((nsAt s t).zones.filter (fun q => p q.2)).map (fun q => q.1)).foldl (fun a z =>
    match a with
    | .error e => .error e
    | .ok s1 => g t z s1) (.ok s)

/-- A Zone Management Send whose effect stands at admission. -/
def zoneSendNow (c : CmdId) (nsid slba : Nat) (all : Bool) (p : Zone → Bool)
    (g : TeamId → Nat → State → Except (Nat × Nat × Option Bool) State) (s : State) : State :=
  match zoneCheck s nsid slba all with
  | .error e => refuse c e s
  | .ok t =>
    match (if all then onZones t p g s else g t (slba / 2 ^ 20) s) with
    | .error e => refuse c e s
    | .ok s1 => succeed c (admitted (markHeld t s1))

/-- ZONE_OPEN: with Select All, every Closed zone. -/
def execZoneOpen (c : CmdId) (nsid slba : Nat) (all : Bool) (s : State) : Host.Outcome State Fault Refusal :=
  .next (fetch c (zoneSendNow c nsid slba all (fun q => decide (q.st = .closed)) openZone) s)

/-- ZONE_CLOSE: with Select All, every open zone. -/
def execZoneClose (c : CmdId) (nsid slba : Nat) (all : Bool) (s : State) : Host.Outcome State Fault Refusal :=
  .next (fetch c (zoneSendNow c nsid slba all Zone.isOpen closeZoneAsked) s)

/-- Zone Finish: seals at admission, completes after the earlier writes of its zone (R558, R584). -/
def zoneFinishCommand (c : CmdId) (nsid slba : Nat) (all : Bool) (s : State) : State :=
  match zoneCheck s nsid slba all with
  | .error e => refuse c e s
  | .ok t =>
    match (if all then onZones t Zone.isActive finishZone s else finishZone t (slba / 2 ^ 20) s) with
    | .error e => refuse c e s
    | .ok s1 =>
      let f := { newFlight c s.host.seq (.zoneSend (if all then none else some (slba / 2 ^ 20))) with
        nsid := nsid, slba := slba, cls := queueClass s c }
      tryComplete c (takeOff f (markHeld t s1))

/-- ZONE_FINISH: with Select All, every active zone. -/
def execZoneFinish (c : CmdId) (nsid slba : Nat) (all : Bool) (s : State) : Host.Outcome State Fault Refusal :=
  .next (fetch c (zoneFinishCommand c nsid slba all) s)

/-- A Zone Management Send action that is not supported (R558): Invalid Field in Command, and no zone changes. -/
def zoneUnsupported (c : CmdId) (nsid : Nat) (s : State) : State :=
  match nsCheck s nsid with
  | .error e => refuse c e s
  | .ok _ => refuse c (0, 2, none) s

/-- ZONE_RESET. -/
def execZoneReset (c : CmdId) (nsid _slba : Nat) (_all : Bool) (s : State) : Host.Outcome State Fault Refusal :=
  .next (fetch c (zoneUnsupported c nsid) s)

/-- ZONE_OFFLINE. -/
def execZoneOffline (c : CmdId) (nsid _slba : Nat) (_all : Bool) (s : State) : Host.Outcome State Fault Refusal :=
  .next (fetch c (zoneUnsupported c nsid) s)

/-- SET_ZONE_DESCRIPTOR_EXTENSION. -/
def execSetZoneDescriptorExtension (c : CmdId) (nsid _slba : Nat) (s : State) : Host.Outcome State Fault Refusal :=
  .next (fetch c (zoneUnsupported c nsid) s)

/-- Zone State as the zone descriptor of NVMe 2.0 codes it. -/
def zoneStateCode : ZoneState → Nat
  | .empty => 1 | .implicit => 2 | .explicit => 3 | .closed => 4 | .readOnly => 0xD | .full => 0xE

/-- A zone descriptor of NVMe 2.0: type, state, attributes, capacity, start and write pointer. -/
def zoneDescriptor (z : Nat) (q : Zone) : Bytes :=
  [2, byte (16 * zoneStateCode q.st), byte (b2n q.byCtrl)] ++ List.replicate 5 0 ++ toLE 8 (2 ^ 20) ++ toLE 8 (z * 2 ^ 20) ++
    toLE 8 (z * 2 ^ 20 + q.wp) ++ List.replicate 32 0

/-- Reporting options of Report Zones: 0 all zones, 1 to 7 the zones of one state. -/
def reportHit (option : Nat) (q : Zone) : Bool :=
  decide (option = 0) || decide (option = 1 ∧ q.st = .empty) || decide (option = 2 ∧ q.st = .implicit) ||
    decide (option = 3 ∧ q.st = .explicit) || decide (option = 4 ∧ q.st = .closed) || decide (option = 5 ∧ q.st = .full) ||
    decide (option = 6 ∧ q.st = .readOnly)

/-- The zone report (R567): zones from the one that holds SLBA, in a buffer of `len` bytes. -/
def zoneReport (ns : Namespace) (slba option len : Nat) (part : Bool) : Bytes :=
  let hits := ((upTo (zoneCount ns.count)).filter (fun z => decide (slba / 2 ^ 20 ≤ z) && reportHit option (zoneAt ns z)))
  let fit := (len - 64) / 64
  let shown := hits.take fit
  (toLE 8 (if part then shown.length else hits.length) ++ List.replicate 56 0 ++
    shown.flatMap (fun z => zoneDescriptor z (zoneAt ns z)) ++ List.replicate len 0).take len

/-- Zone Management Receive (R567): the report as it stands at admission. -/
def zoneReceive (c : CmdId) (nsid slba option numd : Nat) (part : Bool) (s : State) : State :=
  match nsCheck s nsid with
  | .error e => refuse c e s
  | .ok t =>
    match builtCheck s t with
    | .error e => refuse c e s
    | .ok _ =>
      if nsSize (nsAt s t) ≤ slba then refuse c (0, 0x80, none) s
      else if 7 < option ∨ 2 ^ 18 < numd + 1 then refuse c (0, 2, none) s
      else
        let f := { newFlight c s.host.seq .zoneReceive with nsid := nsid, slba := slba, cls := queueClass s c }
        tryComplete c (takeOff f (send (.data c (zoneReport (nsAt s t) slba option (4 * (numd + 1)) part)) s))

/-- ZONE_MANAGEMENT_RECEIVE. -/
def execZoneManagementReceive (c : CmdId) (nsid slba option numd : Nat) (part : Bool) (s : State) :
    Host.Outcome State Fault Refusal := .next (fetch c (zoneReceive c nsid slba option numd part) s)

/-! ### Doorbells -/

/-- SQ_DOORBELL: the tail of a submission queue; a value or queue that does not exist raises the Error event of NVMe 2.0. -/
def execSqDoorbell (ctrl : PortId) (q tail : Nat) (s : State) : Host.Outcome State Fault Refusal :=
  let k := s.host.ctrls[ctrl]
  match (if q = 0 then some k.asq else k.sqs.find? (fun x => x.id = q)) with
  | none => .next (asyncEvent ctrl 0 0 s)
  | some x =>
    if x.size ≤ tail then .next (asyncEvent ctrl 0 1 s)
    else if q = 0 then .next (setCtrl ctrl (fun k => { k with asq := { k.asq with tail := tail } }) s)
    else .next (setCtrl ctrl (fun k => { k with sqs := k.sqs.map (fun y => if y.id = q then { y with tail := tail } else y) }) s)

/-- CQ_DOORBELL: the head of a completion queue; entries that wait take the slots that it frees. -/
def execCqDoorbell (ctrl : PortId) (q head : Nat) (s : State) : Host.Outcome State Fault Refusal :=
  match cqAt s.host.ctrls[ctrl] q with
  | none => .next (asyncEvent ctrl 0 0 s)
  | some x =>
    if x.size ≤ head then .next (asyncEvent ctrl 0 1 s)
    else .next (cqDrain ctrl q x.held.length (setCq ctrl q (fun y => { y with head := head }) s))

/-! ### Completion (R564, R579, R585) -/

/-- A Delete I/O Submission Queue completes after every admitted command of its queue (R585). -/
def settleDelete (c : CmdId) (s : State) : State :=
  match s.host.ctrls[c.ctrl].deletes.find? (fun d => decide (d.1 = c)) with
  | none => s
  | some d =>
    if s.host.flights.any (fun f => decide (f.c.ctrl = c.ctrl) && decide (f.c.sq = d.2)) then s
    else
      setFlight c (fun f => { f with status := some (0, 0, none) })
        (setCtrl c.ctrl (fun k => { k with
          deletes := k.deletes.filter (fun x => decide (x.1 ≠ c)), sqs := k.sqs.filter (fun q => decide (q.id ≠ d.2)) }) s)

/-- Commands of a reset controller that have been recorded leave flight without a completion (R586). -/
def settleSilent (s : State) : State :=
  (s.host.flights.filter (fun f => f.silent)).foldl (fun a f => tryComplete f.c a) s

/-! ### Waits that end (R551, R555, R588) -/

/-- A write of a departed team ends: its extents not yet recorded end, and its zone becomes Full with event 7004. -/
def detachWrite (t : TeamId) (f : Flight) (s : State) : State :=
  let z := f.slba / 2 ^ 20
  let s1 := ((stagedOf (nsAt s t) f.seq).filter (fun q => !stagedDone q)).foldl (fun a q => endExtent t q.1 a) s
  if (zoneAt (nsAt s1 t) z).st = .full then s1
  else raise 0x7004 [.u8 t.val, .u32 z, .u8 1] (finishByController t z s1)

/-- DETACH_HOLD_EXPIRE (R551). -/
def execDetachHoldExpire (t : TeamId) (s : State) : Host.Outcome State Fault Refusal :=
  match (nsAt s t).detached with
  | none => .next s
  | some k =>
    if (teamAt s t).st ≠ .attached ∧ passed s k (secTicks (cfg s (teamIdx t 0x18) 3)) then
      let hit := s.host.flights.filter (fun f => decide (f.nsid = t.val + 1))
      let s1 := hit.foldl (fun a f =>
        setFlight f.c (fun g => { g with status := some (3, 2, none), left := [] }) (if f.writes then detachWrite t f a else a)) s
      let s2 := hit.foldl (fun a f => tryComplete f.c a) s1
      .next (setNs t (fun ns => { ns with detached := none }) s2)
    else .next s

/-- ORDER_WAIT_EXPIRE (R555): every lower zone that still holds the extent back is finished, with event 7004 for each. -/
def execOrderWaitExpire (t : TeamId) (extent : Nat) (s : State) : Host.Outcome State Fault Refusal :=
  match (extentAt (nsAt s t) extent).bind (fun e => e.heldSince) with
  | none => .next s
  | some k =>
    if passed s k (msTicks (cfg s (teamIdx t 0x18) 4)) then
      let lower := (nsAt s t).zones.filter (fun q => decide (q.1 < extent / 16384) && q.2.isActive)
      .next (markHeld t (lower.foldl (fun a q =>
        raise 0x7004 [.u8 t.val, .u32 q.1, .u8 0] (finishByController t q.1 a)) s))
    else .next s

/-- LANE_WAIT_EXPIRE (R588-R592): commands that have waited on the lane for the limit end; all that wait end when the lane
has latched. -/
def execLaneWaitExpire (n : LaneId) (s : State) : Host.Outcome State Fault Refusal :=
  match teamOfLane s n with
  | none => .next s
  | some t =>
    let latched := (laneAt s n).flt.latched
    let limit := secTicks (cfg s (teamIdx t 0x1C) 1)
    let hit := s.host.flights.map (fun f => f.c)
    let s1 := endOnLane t n latched (fun f =>
      f.waits.any (fun w => decide (w.1 = n) && (latched || decide (w.2 + limit ≤ s.ticks)))) s
    .next (hit.foldl (fun a c => tryComplete c a) s1)

/-- SEAL_DELAY_EXPIRE (R275-R277): an open extent that no write has joined for the seal delay is sealed. -/
def execSealDelayExpire (t : TeamId) (extent : Nat) (s : State) : Host.Outcome State Fault Refusal :=
  match extentAt (nsAt s t) extent with
  | none => .next s
  | some e =>
    if !e.isSealed ∧ passed s e.last (msTicks (cfg s (teamIdx t 0x40) 1)) then .next (markHeld t (sealExtent t extent s))
    else .next s

/-! ### Zone rebuild (R843) -/

/-- ZONE_REBUILD: zones of a listed namespace from its discs, once no recovery scan is due. -/
def execZoneRebuild (t : TeamId) (s : State) : Host.Outcome State Fault Refusal :=
  let ns := nsAt s t
  let discs := teamDiscs s t
  if ns.listed ∧ !ns.built ∧ (teamAt s t).st = .attached ∧ discs.length = ns.count ∧ discs.all (fun q => !q.2.2.scanDue) then
    let counts := (upTo (zoneCount ns.count)).map (fun z => (z, zoneRecorded ns.count z discs))
    let zones := rebuiltZones counts
    .next (checkReadOnly t (setNs t (fun x => { x with
      built := true, zones := zones, zeros := rebuiltZeros counts zones ++ x.zeros }) s))
  else .next s

/-! ### Controllers (R532, R546, R586, R612, R613, R750) -/

/-- Slots of the cache that hold lines of a range forgotten. -/
def cacheForget (first count : Nat) (s : State) : State :=
  setCache (fun c => { c with
    slots := c.slots.filter (fun p => !(p.2.valid && decide (wayMode c (p.1 % 16) ≤ 1) &&
      decide (first ≤ lineOf (p.1 / 16) p.2.tag ∧ lineOf (p.1 / 16) p.2.tag < first + count)))
    wb := c.wb.filter (fun w => !decide (first ≤ w.line ∧ w.line < first + count)) }) s

/-- A CMB region filled as R612 fills it. -/
def refillCmb (p : PortId) (s : State) : State :=
  let r := cmbLines s.mem p
  let s1 := cacheForget r.1 r.2 s
  { s1 with mem := fillHost r.1 r.2 s1.mem }

/-- A new CMB size takes force at a controller reset of its port. -/
def takeCmbSize (p : PortId) (s : State) : State :=
  let v := cfg s 0x2500 (4 + p.val)
  if v = s.mem.cmb[p] then s else refillCmb p { s with mem := { s.mem with cmb := s.mem.cmb.set p v } }

/-- A write of a reset controller: LBAs whose data did not arrive are refused and read as zeros (R586). Its identifier is free
again, so it goes on under one that no host can use. -/
def resetWrite (f : Flight) (s : State) : State :=
  match teamOfNsid f.nsid with
  | none => s
  | some t =>
    let gone := (stagedOf (nsAt s t) f.seq).filter (fun q => q.2.2.addr.isNone)
    let s1 := gone.foldl (fun a q => addZeros t (64 * q.1 + q.2.2.pos) 1
      (setExtent t q.1 (fun e => { e with refused := e.refused ++ [(q.2.2.pos, 0)] }) a)) s
    setFlight f.c (fun g => { g with
      silent := true, left := [], committing := false, c := { g.c with sq := 65536 + g.seq } }) s1

/-- What a controller reset does to the commands of its controller (R586). -/
def resetFlights (p : PortId) (s : State) : State :=
  let hit := s.host.flights.filter (fun f => decide (f.c.ctrl = p) && !f.silent)
  hit.foldl (fun a f =>
    match f.kind with
    | .write | .append => resetWrite f a
    | .flush | .zoneSend _ => removeFlight f.c a
    | .read | .zoneReceive | .admin _ _ => removeFlight f.c a) s

/-- A controller reset (R586): CC.EN cleared, a Function Level Reset or a link loss. Segments held of its queues are
discarded (R116). -/
def controllerReset (p : PortId) (s : State) : State :=
  let s1 := resetFlights p s
  let s2 := { s1 with
    work := { s1.work with commits := s1.work.commits.filter (fun q => decide (q.2.ctrl ≠ p)) }
    dict := { s1.dict with held := s1.dict.held.filter (fun h => match h.owner with
      | .queue q _ => decide (q ≠ p)
      | _ => true) } }
  takeCmbSize p (setCtrl p (fun c =>
    { Controller.reset with
      errors := c.errors, errorCount := c.errorCount, warning := c.warning, unitsRead := c.unitsRead
      unitsWritten := c.unitsWritten, reads := c.reads, writes := c.writes, mediaErrors := c.mediaErrors
      speed := c.speed, width := c.width }) s2)

/-- CONTROLLER_RESET. -/
def execControllerReset (ctrl : PortId) (s : State) : Host.Outcome State Fault Refusal := .next (carriedCheck (controllerReset ctrl s))

/-- PCIE_LINK_DOWN (R532). -/
def execPcieLinkDown (port : PortId) (s : State) : Host.Outcome State Fault Refusal :=
  .next (carriedCheck (controllerReset port (setCtrl port (fun c => { c with speed := 0, width := 0 }) s)))

/-- CONTROLLER_ENABLE (R537, R568, R612, R724): CC.EN set over a trained link, with CC.AMS and the sizes of the admin queues as AQA holds
them; CSTS.RDY follows once the buffer has been filled and firmware runs. -/
def execControllerEnable (ctrl : PortId) (ams aqa : Nat) (s : State) : Host.Outcome State Fault Refusal :=
  if s.host.ctrls[ctrl].speed = 0 then .next s
  else .next (startupCheck (setCtrl ctrl (fun c => { c with
    enabled := true, ready := s.mem.fillDone && s.fw.running.isSome, wrr := decide (ams = 1)
    asq := SubQueue.admin (aqa % 4096 + 1), acq := CompQueue.admin (aqa / 65536 % 4096 + 1) }) s))

/-- SHUTDOWN_NOTIFY (R750, R752): CC.SHN is written, and a lifetime save with CLEAN falls due. -/
def execShutdownNotify (ctrl : PortId) (s : State) : Host.Outcome State Fault Refusal :=
  let s1 := setCtrl ctrl (fun c => { c with shutdown := true }) s
  .next { s1 with life := { s1.life with due := some true } }

end Sys2Proof.Machine
end

