-- ==== Sys2Proof/Machine/Reply.lean ====
section
/-! DEFINITION. Answers of the dictionary server on its three paths (R88, R100, R104, R108, R115), and effects whose status
is due later. -/

namespace Sys2Proof.Machine

/-- Every session slot. -/
def allSlots : List (Fin 8) := List.ofFn (fun i : Fin 8 => i)

/-- A response in a session to a datagram, on the address and port at which it arrived (R99), stored with it (R100, R104, R108). -/
def respond (slot : Fin 8) (d : Datagram) (ty seq status : Nat) (body : Bytes) (s : State) : State :=
  match s.dict.sessions[slot] with
  | none => s
  | some x =>
    let f := kyeriHeader (ty + 0x80) x.number seq status body
    let r := f ++ kyeriTag x.key f
    send (.kyeri d.port d.own d.addr d.uport r) { s with dict := { s.dict with
      sessions := s.dict.sessions.set slot (some { x with
        stored := ({ seq := seq, request := d.data, response := r } :: x.stored).take 16 }) } }

/-- A dictionary command that has been transferred completes with Successful Completion, the status in Dword 0 (R115). -/
def dictDone (c : CmdId) (dw0 dw1 : Nat) (s : State) : State :=
  match flightOf s c with
  | some _ => tryComplete c (setFlight c (fun f => { f with status := some (0, 0, none), dw0 := dw0, dw1 := dw1 }) s)
  | none => s

/-- An acknowledgement of a sequence with a status. -/
def sendAck (seq status : Nat) (s : State) : State := batonSend 0x12 0 (toLE 4 seq ++ toLE 2 status ++ toLE 2 0) s

/-- The change counter of an entry (R93), modulo 2^32. -/
def changeOf (s : State) (index sub : Nat) : Nat := ((s.dict.chg.find? (fun q => decide (q.1 = regKey index sub))).map (fun q => q.2)).getD 0

/-- An accepted write counted (R93). -/
def countChange (index sub : Nat) (s : State) : State :=
  { s with dict := { s.dict with
      chg := (regKey index sub, (changeOf s index sub + 1) % 2 ^ 32) :: s.dict.chg.filter (fun q => decide (q.1 ≠ regKey index sub)) } }

/-- The reply of a batch, at the position of one of its writes; a write alone has none. -/
def Reply.atPos (r : Reply) (k : Nat) : Reply :=
  match r with
  | .frame slot session ty seq d pos => .frame slot session ty seq d (if pos = 0 then 0 else k)
  | .command c pos => .command c (if pos = 0 then 0 else k)
  | .record who i sub => .record who i sub
  | .peer seq => .peer seq

/-- The status of an access that was due later, on the address and port at which its request arrived (R99); of a batch, with the
position of the write that failed. -/
def answerReply (r : Reply) (status : Nat) (s : State) : State :=
  match r with
  | .frame slot number ty seq d pos =>
    match s.dict.sessions[slot] with
    | some x =>
      if x.number = number then respond slot d ty seq status (if ty = 0x12 then toLE 1 (if status = 0 then 0 else pos) else []) s
      else s
    | none => s
  | .command c pos => dictDone c (status + 65536 * (if status = 0 then 0 else pos)) 0 s
  | .record who i sub => send (.answer who i sub status) s
  | .peer seq => sendAck seq status s

end Sys2Proof.Machine
end

