-- ==== Sys2Proof/Machine/Checks.lean ====
section
/-! DEFINITION. Checks 5 to 8 of R87 on a value, and the access rights of R106. -/

namespace Sys2Proof.Machine

/-! ### Length, reserved bits and range (checks 5 to 7) -/

/-- The value's length matches the entry's type (R26, R86); a STR varies. -/
def lengthOk (e : Entry) (v : Bytes) : Bool :=
  match e.ty with
  | .str => true
  | _ => decide (v.length = e.len)

/-- The entry's place within its family: lane offset, team offset, else the index, so that one rule serves a family. -/
def familyOf (index : Nat) : Nat :=
  if 0x4000 ≤ index ∧ index < 0x6000 then 0x4000 + index % 256
  else if 0x3000 ≤ index ∧ index < 0x4000 then 0x3000 + index % 128
  else if 0x2240 ≤ index ∧ index < 0x2244 then 0x2240
  else if 0x6010 ≤ index ∧ index < 0x6030 then 0x6010
  else if 0x6030 ≤ index ∧ index < 0x6050 then 0x6030
  else if 0x6080 ≤ index ∧ index < 0x6090 then 0x6080
  else index

/-- Reserved bits of the value are zero: class masks (R137, R807), the stride record (R470), the trim set (R527), the
maintenance order (R649). -/
def reservedOk (index sub : Nat) (v : Bytes) : Bool :=
  let f := familyOf index
  if f = 0x1121 ∨ (f = 0x2010 ∧ sub = 5) then decide (fromLE v % 2 = 0)
  else if f = 0x40A2 ∧ sub = 2 then decide (field v 10 1 / 8 = 0) && decide (field v 11 1 / 32 = 0)
  else if f = 0x40C1 ∧ sub = 1 then (slice v 66 6).all (fun b => decide (b = 0))
  else if f = 0x2410 ∧ sub = 1 then decide (field v 3 1 = 0) && decide (field v 6 2 = 0)
  else if f = 0x2610 ∧ sub = 2 then decide (field v 2 2 = 0)
  else true

/-- Elements of `w` bytes. -/
def elements (w : Nat) (v : Bytes) : List Bytes := (upTo (v.length / (if w = 0 then 1 else w))).map (fun i => slice v (w * i) w)

/-- The value lies within a range of the tables. -/
def rangeOk (r : Rng) (v : Bytes) : Bool :=
  match r with
  | .any => true
  | .nat lo hi => decide (lo ≤ fromLE v ∧ fromLE v ≤ hi)
  | .int lo hi => decide (lo ≤ fromLEInt v ∧ fromLEInt v ≤ hi)
  | .each w lo hi => (elements w v).all (fun b => decide (lo ≤ fromLE b ∧ fromLE b ≤ hi))
  | .eachInt w lo hi => (elements w v).all (fun b => decide (lo ≤ fromLEInt b ∧ fromLEInt b ≤ hi))

/-- A static address (R137): zero, unique local fc00::/7, or global unicast 2000::/3. -/
def addressOk (v : Bytes) : Bool :=
  let b := field v 0 1
  v.all (fun x => decide (x = 0)) || decide (0x20 ≤ b ∧ b < 0x40) || decide (0xFC ≤ b ∧ b ≤ 0xFD)

/-- An ASCII decimal digit. -/
def isDigit (b : Byte) : Bool := decide (0x30 ≤ b.toNat ∧ b.toNat ≤ 0x39)

/-- A name of the form nqn.yyyy-mm.name (R137, NVMe 2.0) of 11 to 223 bytes. -/
def nqnOk (v : Bytes) : Bool :=
  decide (11 ≤ v.length ∧ v.length ≤ 223) && decide (v.take 4 = natBytes [0x6E, 0x71, 0x6E, 0x2E]) &&
    (slice v 4 4).all isDigit && decide (field v 8 1 = 0x2D) && (slice v 9 2).all isDigit &&
    (decide (v.length = 11) || decide (field v 11 1 = 0x2E))

/-- Ranges that the tables give by a rule or in words. -/
def ruleRange (index sub : Nat) (v : Bytes) : Bool :=
  let f := familyOf index
  if f = 0x1100 ∧ (sub = 3 ∨ sub = 4) then addressOk v
  else if f = 0x40A6 ∧ sub = 2 then decide (2 ^ Nat.log2 (fromLE v) = fromLE v)
  else if f = 0x2101 ∧ sub = 1 then decide (fromLE v = 0) || decide (3600 ≤ fromLE v ∧ fromLE v ≤ 2592000)
  else if f = 0x2500 ∧ sub = 3 then nqnOk v
  else if f = 0x6080 ∧ sub = 4 then decide (v.length ≤ 32)
  else if f = 0x6010 ∧ sub = 1 ∨ f = 0x6080 ∧ sub = 2 then
    (upTo 3).all (fun a => decide (0 ≤ fromLEInt (slice v (4 * (430 + a)) 4) ∧ fromLEInt (slice v (4 * (430 + a)) 4) ≤ 2 ^ 28))
  else true

/-- Checks 5 to 7 on a value: 0 where it passes. -/
def valueStatus (index : Nat) (e : Entry) (v : Bytes) : Nat :=
  if !lengthOk e v then 0x0302
  else if !reservedOk index e.sub v then 0x0303
  else if rangeOk e.rng v && ruleRange index e.sub v then 0 else 0x0301

/-! ### Consistency (check 8) -/

/-- The 32-bit words of a bank. -/
def plainWords : Nat → Bytes → List Nat
  | 0, _ => []
  | k + 1, b => field b 0 4 :: plainWords k (b.drop 4)

/-- Every word is 0. -/
def zeros (l : List Nat) : Bool := l.all (fun v => v == 0)

/-- Dimension and zero rules of an observer bank (R389). -/
def observerRules (b : Bytes) : Bool :=
  let ws := plainWords 512 b
  let w (i : Nat) : Nat := ws.getD i 0
  let nx := bits (w 0) 7 0
  let ny := bits (w 0) 15 8
  let outside (base rows cols nr nc : Nat) : Bool :=
    (upTo rows).all (fun r => zeros ((ws.drop (base + cols * r + (if r < nr then nc else 0))).take (cols - (if r < nr then nc else 0))))
  decide (1 ≤ nx ∧ nx ≤ 12 ∧ 3 ≤ ny ∧ ny ≤ 6 ∧ bits (w 0) 23 16 = 3 ∧ bits (w 0) 31 24 = 1) &&
    decide (bits (w 1) 7 6 = 0 ∧ bits (w 1) 31 16 = 0 ∧ w 2 / 2 = 0 ∧ w 3 = 0) &&
    outside 4 12 12 nx nx && outside 148 12 3 nx 3 && outside 184 12 6 nx ny && outside 256 6 12 ny nx &&
    outside 328 3 12 3 nx && outside 364 3 6 3 ny && outside 382 6 8 ny 8 && outside 433 12 1 nx 1 &&
    zeros ((ws.drop 445).take 66)

/-- Value rules of a biquad bank but its check word (R392, R393). -/
def biquadRules (b : Bytes) : Bool :=
  let ws := plainWords 512 b
  let w (i : Nat) : Nat := ws.getD i 0
  let sw (i : Nat) : Int := signed 32 (w i)
  let cascade (c : Nat) : Bool :=
    let n := bits (w (48 * c)) 3 0
    decide (n ≤ 8 ∧ w (48 * c) / 64 = 0 ∧ sw (48 * c + 44) ≤ sw (48 * c + 43)) &&
      zeros ((ws.drop (48 * c + 45)).take 3) && zeros ((ws.drop (48 * c + 2 + 5 * n)).take (40 - 5 * n))
  (upTo 6).all cascade && decide (0 ≤ sw 288 ∧ w 289 / 4 = 0 ∧ w 290 / 8 = 0) &&
    zeros ((ws.drop 295).take 216)

/-- Members of every other team (T+00:01). -/
def otherMembers (s : State) (t : Nat) : Nat :=
  (allTeams.filter (fun u => decide (u.val ≠ t))).foldl (fun a u => a ||| cfg s (teamIdx u 0) 1) 0

/-- Check 8 of R87: the stored value of an entry is consistent with the entries it names, on the state given. -/
def consistent (s : State) (index sub : Nat) : Bool :=
  let f := familyOf index
  let v := stored s index sub
  let c (i : Nat) : Nat := cfg s index i
  let ci (i : Nat) : Int := cfgInt s index i
  if f = 0x3000 ∧ sub = 1 then decide (fromLE v &&& otherMembers s ((index - 0x3000) / 128) = 0)
  else if f = 0x4023 ∧ (sub = 1 ∨ sub = 3) then decide (ci 3 ≤ ci 1)
  else if f = 0x4023 ∧ (sub = 2 ∨ sub = 4) then decide (ci 4 ≤ ci 2)
  else if f = 0x4030 ∧ (sub = 1 ∨ sub = 2) then decide (c 1 ≤ c 2)
  else if f = 0x40C2 ∧ (sub = 5 ∨ sub = 7) then decide (c 7 ≤ c 5)
  else if f = 0x40C2 ∧ (sub = 6 ∨ sub = 8) then decide (c 8 ≤ c 6)
  else if f = 0x40A5 ∧ 3 ≤ sub ∧ sub ≤ 5 then decide (ci 5 ≤ ci 3 ∧ ci 3 ≤ ci 4)
  else if f = 0x40A3 ∧ (sub = 1 ∨ sub = 2) then decide (ci 1 < ci 2)
  else if f = 0x2240 ∧ sub ≤ 5 then decide (c 1 < c 3 ∧ c 3 < c 2 ∧ c 2 < c 4 ∧ c 4 < c 5)
  else if f = 0x4042 ∧ sub = 5 then
    (upTo 32).all (fun i => decide (field v (36 * i) 1 = i / 4 ∧ field v (36 * i + 1) 1 = i % 4))
  else if f = 0x40A4 ∧ sub = 2 then tableOk v
  else if f = 0x2401 ∧ sub = 1 then modesOk (v.map (fun b => b.toNat))
  else if f = 0x2500 ∧ (sub = 4 ∨ sub = 5) then decide (c 4 + c 5 ≤ 1024) && decide (2 ^ 25 * (c 4 + c 5) ≤ bufferSize s.mem)
  else if f = 0x6010 ∨ f = 0x6080 ∧ sub = 2 then observerRules v
  else if f = 0x6030 ∨ f = 0x6080 ∧ sub = 3 then biquadRules v
  else if f = 0x6080 ∧ sub = 1 then
    decide (fromLE v = 0xFFFF) || (upTo 16).all (fun k => decide (0x6080 + k = index) || decide (cfg s (0x6080 + k) 1 ≠ fromLE v))
  else true

/-! ### Who may (R106, R703) -/

/-- The accessor may read an entry: anyone the identity entries; a session or NVMe every entry. -/
def mayReadEntry (who : Who) (index : Nat) : Bool :=
  match who with
  | .outside => decide (0x1000 ≤ index ∧ index < 0x1100)
  | _ => true

/-- The accessor may write an entry. -/
def mayWriteEntry (s : State) (who : Who) (index sub : Nat) (acc : Acc) : Bool :=
  match who with
  | .outside => false
  | .nvme _ => true
  | .peer => decide (index ≠ 0x1110)
  | .session slot =>
    match s.dict.sessions[slot] with
    | none => false
    | some x =>
      if x.role = 3 then true
      else if x.role = 2 then
        decide (acc = .rw ∨ acc = .rwk ∨ acc = .wo) && decide (index ≠ 0x1110) &&
          !(decide (index = 0x2000) && (decide (sub = 2) || decide (sub = 4))) && !decide (0x2600 ≤ index ∧ index < 0x2700)
      else false

/-- An index served in SLEEP (R703). -/
def servedInSleep (index : Nat) : Bool := decide (0x1000 ≤ index ∧ index < 0x1100) || decide (0x2200 ≤ index ∧ index < 0x2300)

/-- The gate of an entry on a write (R28, R679, R703, R739): 0 where it is open. -/
def gateStatus (s : State) (who : Who) (index : Nat) (e : Entry) : Nat :=
  if who = .peer then 0
  else if s.power.unit = 2 ∧ !servedInSleep index then 0x0402
  else if s.fw.running.isNone ∧ !(decide (0x1000 ≤ index ∧ index < 0x1100)) then 0x0402
  else
    match e.gate with
    | .parked =>
      match laneOfIndex index with
      | some n => if (laneAt s n).life.st = .parked then 0 else 0x0401
      | none => 0
    | .stand => if s.power.unit = 1 then (if e.acc = .rwp ∧ s.pair.role = 2 then 0x0403 else 0) else 0x0402
    | .active => if s.pair.role = 1 then 0 else 0x0403
    | .notStandby => if s.pair.role = 2 then 0x0403 else 0
    | .none =>
      if s.pair.role = 2 ∧ ((e.acc = .rwp ∧ !(decide (0x1100 ≤ index ∧ index < 0x1200))) ∨
          (index = 0x2610 ∧ e.sub ≤ 2) ∨ (index = 0x2620 ∧ e.sub = 1)) then 0x0403
      else if familyOf index = 0x4062 ∧ e.sub = 6 then
        match laneOfIndex index with
        | some n => if 4 ≤ (laneAt s n).life.st.code ∧ (laneAt s n).life.st.code ≤ 8 then 0 else 0x0401
        | none => 0
      else 0

/-- Checks 1 to 4 of a write: the entry, or the status of the first check that fails. A subindex that the tables skip exists and is
not written. -/
def accessChecks (s : State) (who : Who) (index sub : Nat) : Except Nat Entry :=
  match entriesAt index with
  | none => .error 0x0101
  | some es =>
    if highestSub es < sub then .error 0x0102
    else
      match entryIn es sub with
      | none => .error 0x0201
      | some e =>
        if e.acc = .ro ∨ e.acc = .cst then .error 0x0201
        else if !mayWriteEntry s who index sub e.acc then .error 0x0203
        else if gateStatus s who index e ≠ 0 then .error (gateStatus s who index e)
        else .ok e

/-- Checks 1 to 7 of a write. -/
def writeChecks (s : State) (who : Who) (index sub : Nat) (v : Bytes) : Except Nat Entry :=
  match accessChecks s who index sub with
  | .error k => .error k
  | .ok e => if valueStatus index e v = 0 then .ok e else .error (valueStatus index e v)

end Sys2Proof.Machine
end

