-- ==== Sys2Proof/Machine/Persist.lean ====
section
/-! DEFINITION. The configuration region: records, check words, saves and the start (R117 to R129). -/

namespace Sys2Proof.Machine

/-- Code of a type in records (R26). -/
def tyCode : Ty → Nat
  | .bool => 1 | .u8 => 2 | .u16 => 3 | .u32 => 4 | .u64 => 5 | .s16 => 6 | .s32 => 7 | .s64 => 8
  | .q15 => 9 | .qc => 10 | .str => 11 | .blob => 12 | .time => 13

/-- Entries of a table that satisfy a test, at a base index. -/
def keysOf (p : Entry → Bool) (base : Nat) (l : List (Nat × List Entry)) : List (Nat × Entry) :=
  l.flatMap (fun q => (q.2.filter p).map (fun e => (base + q.1, e)))

/-- Every entry that satisfies a test, in increasing order of index and subindex (R118). -/
def entriesWhere (p : Entry → Bool) : List (Nat × Entry) :=
  let unit := keysOf p 0 unitEntries
  let seg := (upTo 4).flatMap (fun g => keysOf p g entriesSegment)
  unit.filter (fun k => decide (k.1 < 0x2240)) ++ seg ++
    unit.filter (fun k => decide (0x2240 ≤ k.1 ∧ k.1 < 0x3000)) ++
    (upTo 32).flatMap (fun t => keysOf p (0x3000 + 0x80 * t) entriesTeam) ++
    (upTo 32).flatMap (fun n => keysOf p (0x4000 + 0x100 * n) laneEntries) ++
    unit.filter (fun k => decide (0x6000 ≤ k.1)) ++
    (upTo 32).flatMap (fun n => keysOf p n entriesObserverBank) ++
    (upTo 32).flatMap (fun n => keysOf p n entriesBiquadBank) ++
    (upTo 16).flatMap (fun k => keysOf p k entriesLibrary)

/-- Every RWP entry. -/
def rwpEntries : List (Nat × Entry) := entriesWhere (fun e => decide (e.acc = .rwp))

/-- The entries of 1100 to 11FF, left out of both check words (R127). -/
def isComm (index : Nat) : Bool := decide (0x1100 ≤ index ∧ index < 0x1200)

/-- One record, padded to a multiple of 4 (R117). -/
def recordBytes (index sub ty : Nat) (v : Bytes) : Bytes :=
  padZero 4 (toLE 2 index ++ [byte sub, byte ty] ++ toLE 2 v.length ++ v)

/-- The record of an entry as it stands. -/
def entryRecord (s : State) (k : Nat × Entry) : Bytes := recordBytes k.1 k.2.sub (tyCode k.2.ty) (stored s k.1 k.2.sub)

/-- The records of the key slots (R113, R118); an empty slot's record holds no byte. -/
def keyRecords (s : State) : Bytes :=
  allSlots.flatMap (fun i => recordBytes 0x1110 (i.val + 1) 12 ((s.dict.keys[i]).getD []))

/-- The record stream that the check words cover (R127). -/
def checkStream (s : State) : Bytes := (rwpEntries.filter (fun k => !isComm k.1)).flatMap (entryRecord s)

/-- 2000:01, the live check word (R127). -/
def liveCheck (s : State) : Nat := crc32 (checkStream s)

/-- The record area of a save (R118). -/
def saveRecords (s : State) : Bytes :=
  (rwpEntries.filter (fun k => decide (k.1 < 0x1110))).flatMap (entryRecord s) ++ keyRecords s ++
    (rwpEntries.filter (fun k => decide (0x1110 < k.1))).flatMap (entryRecord s)

/-- A copy with its check word (R117). -/
def copyImage (gen : Nat) (records : Bytes) : Bytes :=
  let b := toLE 4 0x4643594B ++ toLE 2 1 ++ toLE 2 0 ++ toLE 4 gen ++ toLE 4 records.length ++ toLE 4 0x59320A01 ++ zeroBytes 12 ++ records
  b ++ toLE 4 (crc32 b)

/-- A record as parsed: index, subindex, type code, value. -/
structure ConfRecord where
  index : Nat
  sub : Nat
  ty : Nat
  value : Bytes

/-- The records of an area, by at most `n`. -/
def parseRecords : Nat → Bytes → List ConfRecord
  | 0, _ => []
  | n + 1, b =>
    if b.length < 6 then []
    else
      let len := field b 4 2
      { index := field b 0 2, sub := field b 2 1, ty := field b 3 1, value := slice b 6 len } ::
        parseRecords n (b.drop ((6 + len + 3) / 4 * 4))

/-- A copy's generation and record area, where its magic, format, hardware type and check word are valid (R124). -/
def copyValid (b : Bytes) : Option (Nat × Bytes) :=
  let n := field b 12 4
  if field b 0 4 = 0x4643594B ∧ field b 4 2 = 1 ∧ field b 16 4 = 0x59320A01 ∧ 36 + n ≤ b.length ∧
      crc32 (b.take (32 + n)) = field b (32 + n) 4 then some (field b 8 4, slice b 32 n) else none

/-- The saved check word over a record area (R128). -/
def savedCheck (area : Bytes) : Nat :=
  crc32 (((parseRecords area.length area).filter (fun r => !isComm r.index)).flatMap (fun r => recordBytes r.index r.sub r.ty r.value))

/-! ### Start (R124) -/

/-- Checks 5 to 7 of a record, with the test of its type byte. DESIGN CHOICE (log 84): one that names an entry that is not RWP is
skipped as a write of it would be. -/
def recordStatus (r : ConfRecord) : Nat :=
  if r.index = 0x1110 ∧ 1 ≤ r.sub ∧ r.sub ≤ 8 then (if r.ty = 12 ∧ (r.value.length = 32 ∨ r.value.isEmpty) then 0 else 0x0302)
  else
    match entriesAt r.index with
    | none => 0x0101
    | some es =>
      match entryIn es r.sub with
      | none => if highestSub es < r.sub then 0x0102 else 0x0201
      | some e => if e.acc ≠ .rwp then 0x0201 else if r.ty ≠ tyCode e.ty then 0x0302 else valueStatus r.index e r.value

/-- A key slot filled, or emptied by a value without bytes. -/
def putKey (sub : Nat) (v : Bytes) (s : State) : State :=
  { s with dict := { s.dict with keys := s.dict.keys.set (Fin.ofNat 8 (sub - 1)) (if v.isEmpty then none else some v) } }

/-- A record skipped: event 6011 and RECORD_DROPPED. -/
def recordDropped (index sub status : Nat) (s : State) : State :=
  raise 0x6011 [.u16 index, .u8 sub, .u16 status] { s with conf := { s.conf with dropped := true } }

/-- Steps 3 and 4: records applied in order; the keys applied are kept. -/
def applyRecords (l : List ConfRecord) (s : State) : State × List (Nat × Nat) :=
  l.foldl (fun acc r =>
    let k := recordStatus r
    if k ≠ 0 then (recordDropped r.index r.sub k acc.1, acc.2)
    else if r.index = 0x1110 then (putKey r.sub r.value acc.1, acc.2)
    else (store r.index r.sub r.value acc.1, acc.2 ++ [(r.index, r.sub)])) (s, [])

/-- Step 5: records that fail check 8 return to their defaults until none fails; each round drops at least one. -/
def settleRecords : Nat → List (Nat × Nat) → State → State
  | 0, _, s => s
  | n + 1, l, s =>
    let bad := l.filter (fun k => !consistent s k.1 k.2)
    if bad.isEmpty then s
    else settleRecords n (l.filter (fun k => !bad.contains k))
      (bad.foldl (fun a k => recordDropped k.1 k.2 0x0304 (unstore k.1 k.2 a)) s)

/-- The start of the dictionary (R124): the valid copy of higher generation, or the defaults with event 6010. DESIGN CHOICE (log 84):
of two copies of one generation it takes A. -/
def startDictionary (s : State) : State :=
  let a := copyValid s.conf.copyA
  let b := copyValid s.conf.copyB
  let s0 := { s with conf := { s.conf with
    aBad := a.isNone, bBad := b.isNone, dropped := false, defaultsUsed := a.isNone && b.isNone, inForce := none, save := none } }
  let pick := match a, b with
    | some x, some y => some (if x.1 < y.1 then y else x)
    | some x, none => some x
    | none, y => y
  match pick with
  | none => raise 0x6010 [.u8 1, .u8 1] s0
  | some (gen, area) =>
    match applyRecords (parseRecords area.length area) { s0 with conf := { s0.conf with inForce := some (gen, savedCheck area) } } with
    | (s1, l) => settleRecords (l.length + 1) l s1

/-! ### Save (R120 to R123) -/

/-- The copy that a save writes: the one that does not hold the highest valid generation; false for A. -/
def saveTarget (c : ConfigRegion) : Bool :=
  match copyValid c.copyA, copyValid c.copyB with
  | some x, some y => decide (y.1 ≤ x.1)
  | some _, none => true
  | none, _ => false

/-- Generation in force of the valid copies. -/
def highestGen (c : ConfigRegion) : Nat := max ((copyValid c.copyA).map (fun x => x.1) |>.getD 0) ((copyValid c.copyB).map (fun x => x.1) |>.getD 0)

/-- A save begins (R120): 0501 while one runs, 0502 where the records do not fit. -/
def startSave (reply : Reply) (s : State) : Eff :=
  let img := copyImage (highestGen s.conf + 1) (saveRecords s)
  if s.conf.save.isSome then .error 0x0501
  else if 2 ^ 18 < img.length then .error 0x0502
  else .ok { s with conf := { s.conf with save := some { copy := saveTarget s.conf, image := img, tick := s.ticks, reply := reply } } }

/-- The copy that a save writes holds new bytes, valid or bad. -/
def putCopy (copy ok : Bool) (b : Bytes) (c : ConfigRegion) : ConfigRegion :=
  if copy then { c with copyB := b, bBad := !ok } else { c with copyA := b, aBad := !ok }

/-- SAVE_DONE (R120): the copy has been written and read back. The write that asked for it is now accepted and counted (R93), and
block 7 of the measurements is taken anew (R725); a read-back whose check word is wrong leaves the copy bad and returns 0601. -/
def execSaveDone (readBackOk : Bool) (s : State) : Host.Outcome State Fault Refusal :=
  match s.conf.save with
  | none => .next s
  | some r =>
    if readBackOk then
      .next (answerReply r.reply 0 (countChange 0x2000 2 { s with
        conf := { putCopy r.copy true r.image s.conf with
          save := none, inForce := some (field r.image 8 4, savedCheck (slice r.image 32 (field r.image 12 4))) }
        fw := { s.fw with config := sha384 r.image } }))
    else .next (answerReply r.reply 0x0601 { s with conf := { putCopy r.copy false [] s.conf with save := none } })

/-- Restore of the factory defaults (R125): every RWP entry but those of 1100 to 11FF; no copy changes. -/
def restoreDefaults (s : State) : State :=
  { s with dict := { s.dict with
      reg := s.dict.reg.filter (fun p => isComm (p.1 / 256) ||
        !((findEntry (p.1 / 256) (p.1 % 256)).map (fun e => decide (e.acc = .rwp))).getD false) } }

end Sys2Proof.Machine
end

