-- ==== Sys2Proof/Machine/Records.lean ====
section
/-! DEFINITION. Lifetime records and the calendar (19_lifetime_records.md). -/

namespace Sys2Proof.Machine

/-! ### Calendar (R757 to R761) -/

/-- The calendar put to a TIME at this tick. -/
def putTime (t : Nat) (s : State) : State := { s with cal := { s.cal with base := t, tick := s.ticks, slew := 0 } }

/-- A setting of the calendar: CALENDAR_UNSET falls, and 2701:02 takes the setting and its step (R758). -/
def setTime (t : Nat) (s : State) : State :=
  { putTime t s with cal := { (putTime t s).cal with unset := false, lastSet := t, lastStep := (t : Int) - timeNow s } }

/-- An offset begins to be slewed out at no more than 100 ppm (R688, R760). -/
def slewTime (off : Int) (s : State) : State := { putTime (timeNow s) s with cal := { (putTime (timeNow s) s).cal with slew := off } }

/-- 2700:01 (R758). -/
def setCalendarEffect (v : Bytes) (s : State) : Eff := .ok (setTime (fromLE v) s)

/-- 2700:02 (R759, R760). -/
def setPpsEffect (v : Bytes) (s : State) : Eff :=
  .ok { s with cal := { s.cal with named := some (fromLE v, s.ticks), ppsMismatch := false, ppsMissing := false } }

/-- Offset of a TIME from its nearest whole second: what has to be added to reach it. -/
def secondOffset (t : Nat) : Int :=
  let r := t % 1000000000
  if r < 500000000 then -(r : Int) else (1000000000 - r : Nat)

/-- An edge measured against the calendar's whole second (R760). How the rate correction is learned is not stated: it is a
free value. -/
def measureEdge (s : State) : State :=
  let off := secondOffset (timeNow s)
  if s.cal.unset ∨ s.cal.ppsMismatch then s
  else if off.natAbs ≤ 1000000 then
    match draw (2 ^ 32) (slewTime off s) with
    | (r, s1) => { s1 with cal := { s1.cal with
        rate := signed 32 r, edges := s1.cal.edges + 1, learned := decide (1000 ≤ s1.cal.edges + 1) } }
  else { s with cal := { s.cal with ppsMismatch := true } }

/-- PPS_EDGE (R759, R760). -/
def execPpsEdge (s : State) : Host.Outcome State Fault Refusal :=
  let s0 := { s with cal := { s.cal with ppsPresent := true } }
  match s.cal.named with
  | some (t, at') =>
    if s.ticks ≤ at' + msTicks 1100 then
      .next { setTime t s0 with cal := { (setTime t s0).cal with named := none } }
    else .next (measureEdge { s0 with cal := { s0.cal with named := none, ppsMissing := true } })
  | none => .next (measureEdge s0)

/-- PPS_TIMEOUT (R759): the write lapses. -/
def execPpsTimeout (s : State) : Host.Outcome State Fault Refusal :=
  match s.cal.named with
  | some (_, at') =>
    if passed s at' (msTicks 1100) then
      .next { s with cal := { s.cal with named := none, ppsMissing := true, ppsPresent := false } }
    else .next s
  | none => .next s

/-! ### Lifetime region (R748 to R752) -/

/-- Power-on seconds counted up to now. -/
def countPowerOn (s : State) : State :=
  let n := (s.ticks - s.life.counted) / secTicks 1
  let s1 := lifeUnit 0 n s
  { s1 with life := { s1.life with counted := s1.life.counted + n * secTicks 1 } }

/-- A page (R748). -/
def lifePage (s : State) (clean : Bool) : Bytes :=
  let b := toLE 4 0x54464C59 ++ toLE 4 (s.life.generation + 1) ++ toLE 8 (timeNow s) ++ toLE 4 s.log.nextSeq ++
    toLE 4 (b2n clean) ++ s.life.unit.toList.flatMap (toLE 8) ++ s.life.lanes.toList.flatMap (fun v => v.toList.flatMap (toLE 8))
  b ++ toLE 4 (crc32 b)

/-- A page with a valid magic and check word. -/
def pageValid (b : Bytes) : Bool := decide (field b 0 4 = 0x54464C59 ∧ crc32 (b.take 1112) = field b 1112 4)

/-- A page written (R749 to R751): the one after the page last written, from 15 back to 0. -/
def lifeSave (clean : Bool) (s : State) : State :=
  let s1 := countPowerOn s
  let p : Fin 16 := match s1.life.page with
    | some q => if q = 0 then 15 else q - 1
    | none => 15
  { s1 with life := { s1.life with
      pages := s1.life.pages.set p (lifePage s1 clean), page := some p, generation := s1.life.generation + 1
      lastSave := s1.ticks, lastSeq := s1.log.nextSeq, due := none } }

/-- LIFETIME_SAVE (R750, R751): a save that is due, or whose interval has passed; it waits for a configuration save. -/
def execLifetimeSave (s : State) : Host.Outcome State Fault Refusal :=
  if s.conf.save.isSome then .next s
  else
    match s.life.due with
    | some clean => .next (lifeSave clean s)
    | none => if passed s s.life.lastSave (secTicks (cfg s 0x2710 3)) then .next (lifeSave false s) else .next s

/-- The valid page of highest generation (R749). -/
def bestPage (l : Lifetime) : Option (Fin 16 × Bytes) :=
  (List.ofFn (fun i : Fin 16 => i)).foldl (fun a i =>
    let b := l.pages[i]
    if !pageValid b then a
    else
      match a with
      | none => some (i, b)
      | some q => if field q.2 4 4 < field b 4 4 then some (i, b) else a) none

/-- What a start takes from the lifetime region: the counts, the log's first sequence and the calendar
(R27, R749, R752, R757, R764). -/
def startLifetime (powerOn : Bool) (s : State) : State :=
  let fresh (l : Lifetime) : Lifetime := { l with lastSave := s.ticks, counted := s.ticks, due := none }
  let s1 := match bestPage s.life with
    | none => raise 0x1702 [] { s with
        life := fresh { s.life with unit := Vector.replicate 8 0, lanes := Vector.replicate 32 (Vector.replicate 4 0), generation := 0, page := none, lastSeq := 0 } }
    | some (i, b) =>
      let w (off : Nat) : Nat := field b off 8
      let seq := (field b 16 4 + 2 ^ 20) % 2 ^ 32
      { s with
        life := fresh { s.life with
          unit := Vector.ofFn (fun k : Fin 8 => w (24 + 8 * k.val) + (if k.val = 2 ∧ powerOn ∧ field b 20 4 % 2 = 0 then 1 else 0))
          lanes := Vector.ofFn (fun n : Fin 32 => Vector.ofFn (fun k : Fin 4 => w (88 + 32 * n.val + 8 * k.val)))
          generation := field b 4 4, page := some i, lastSeq := field b 16 4 }
        log := { s.log with nextSeq := seq }
        cal := { s.cal with base := w 8, tick := s.ticks, unset := true } }
  if powerOn then lifeUnit 1 1 s1 else s1

/-! ### The pickup's lifetime area (R753 to R755, R766) -/

/-- 0.1 h in nanoseconds, and 0.1 J in units of 10 uW * ns. -/
def lifeUnits : Nat × Nat := (360000000000, 10000000000000)

/-- A 32-bit count advanced without wrap (R756). -/
def addCount (v k : Nat) : Nat := min (v + k) (2 ^ 32 - 1)

/-- A count of the area; every count of an area left blank is zero. -/
def areaCount (image : Bytes) (off : Nat) : Nat := if field image 128 2 = 0 then 0 else field image off 4

/-- The area as it is written next (R753). -/
def lifeArea (s : State) (p : Pickup) (l : PickupLife) : Bytes :=
  let top : Int := if field p.image 128 2 = 0 then l.highest else max (fromLEInt (slice p.image 176 2)) l.highest
  toLE 2 1 ++ toLE 2 0 ++
    (upTo 5).flatMap (fun k => toLE 4 (addCount (areaCount p.image (132 + 4 * k)) (l.onRem.getD k 0 / lifeUnits.1))) ++
    (upTo 4).flatMap (fun k => toLE 4 (addCount (areaCount p.image (152 + 4 * k)) (l.energyRem.getD k 0 / lifeUnits.2))) ++
    toLE 4 (addCount (areaCount p.image 168) l.warmUps) ++ toLE 4 0 ++ toLEInt 2 top ++ toLE 2 0 ++ toLE 8 (timeNow s) ++
    Sys2Proof.Config.serialNumber.toList.drop 4 ++ zeroBytes 28

/-- Event 1701 for the first emitter beyond the limit, once after each acceptance (R766). -/
def ageCheck (n : LaneId) (s : State) : State :=
  let l := laneAt s n
  let limit := lcfg s n 0xE8 6
  match l.life.pickup with
  | none => s
  | some p =>
    if limit = 0 ∨ l.plife.warned then s
    else
      match (upTo 5).find? (fun k => decide (limit < areaCount p.image (132 + 4 * k))) with
      | none => s
      | some k => raise 0x1701 [.u8 n.val, .u8 k, .u32 (areaCount p.image (132 + 4 * k))]
          (setLane n (fun l => { l with plife := { l.plife with warned := true } }) s)

/-- PICKUP_LIFETIME_WRITE (R754): after the interval, and when the lane has entered PARKED. -/
def pickupLifetimeWrite (n : LaneId) (s : State) : State :=
  let l := laneAt s n
  match l.life.pickup with
  | none => s
  | some p =>
    if l.plife.due ∨ passed s l.plife.written (secTicks (lcfg s n 0xE8 7)) then
      let body := (p.image ++ zeroBytes 128).take 128 ++ lifeArea s p l.plife ++ zeroBytes 28
      let img := body ++ toLE 4 (crc32 body)
      ageCheck n (send (.sideband n (img.drop 128)) (setLane n (fun l => { l with
        life := { l.life with pickup := some { p with image := img } }
        plife := { l.plife with
          onRem := l.plife.onRem.map (fun v => v % lifeUnits.1), energyRem := l.plife.energyRem.map (fun v => v % lifeUnits.2)
          written := s.ticks, warmUps := 0, due := false } }) s))
    else s

/-- PICKUP_LIFETIME_WRITE. -/
def execPickupLifetimeWrite (n : LaneId) (s : State) : Host.Outcome State Fault Refusal := .next (pickupLifetimeWrite n s)

end Sys2Proof.Machine
end

