-- ==== Sys2Proof/Machine/Mirror.lean ====
section
/-! DEFINITION. The mirrored set (R671, R672). The layout of a MIRROR record is not in the spec: records are made and read by
functions without a body. -/

namespace Sys2Proof.Machine

/-- What is mirrored of a lane: loop states, runout table, sled, spindle, pass, and with them the lane's state and the
knowledge of its disc on which they rest. -/
structure LaneImage where
  life : Life
  loop : Loop
  spin : Spindle
  sled : Sled
  disc : Option Disc
  pass : Option Pass

/-- The image of a cut: its period-timer count, the lanes, the teams with their namespaces, the queues and the commands
in flight, the last arrival sequence, and the event log entries logged since the cut before. -/
structure MirrorImage where
  tick : Nat
  lanes : Vector LaneImage 32
  teams : Vector Team 32
  queues : Vector (List SubQueue × List CompQueue) 2
  flights : List Flight
  seq : Nat
  log : List LogEntry

end Sys2Proof.Machine

namespace Sys2Proof.Config

/-- Bodies of the MIRROR records of a cut. -/
opaque mirrorRecords : Sys2Proof.Machine.MirrorImage → List Bytes

/-- The image that the records of a complete cut give; none where they give none. -/
opaque mirrorImage : List Bytes → Option Sys2Proof.Machine.MirrorImage

end Sys2Proof.Config

namespace Sys2Proof.Machine

/-- A lane's part of the image. -/
def laneImage (l : Lane) : LaneImage :=
  { life := l.life, loop := l.loop, spin := l.spin, sled := l.sled, disc := l.disc, pass := l.wr.pass }

/-- The image of this device. -/
def imageOf (s : State) : MirrorImage :=
  { tick := timerCount s, lanes := s.lanes.map laneImage, teams := s.teams
    queues := s.host.ctrls.map (fun c => (c.sqs, c.cqs)), flights := s.host.flights, seq := s.host.seq
    log := s.log.entries.filter (fun e => decide ((e.seq + 2 ^ 32 - s.work.logSent) % 2 ^ 32 < 2 ^ 31)) }

end Sys2Proof.Machine
end

