-- ==== Sys2Proof/Machine/Ldpc.lean ====
section
/-! DEFINITION. Decoding a sector and an extent (R310, R340, R346): soft demodulation, the layered offset min-sum decoder of
the LDPC code, and the errors-and-erasures decoder of the outer code. -/

namespace Sys2Proof.Machine

/-! ### Soft demodulation (R310) -/

/-- The soft value of a codeword bit from its control bit and its own modulated bit; sign(0) is 0. -/
def softDemod (c r : Int) : Int := c.sign * r.sign * ((min c.natAbs r.natAbs : Nat) : Int)

/-- One group of 17 modulated bits, unscrambled. -/
def demodGroup (g : List (Int × Bool)) (scr : List Bool) : List Int :=
  let c := (g.headD (0, true)).1
  List.zipWith (fun r b => if b then -(softDemod c r.1) else softDemod c r.1) (g.drop 1) scr

/-- Groups of 17 modulated soft values with their flags: soft codeword values, and the erasure map, where one flagged bit
erases its group (R310, R311). -/
def demodGroups : Nat → List (Int × Bool) → List Bool → List Int × List Bool
  | 0, _, _ => ([], [])
  | n + 1, l, scr =>
    let g := l.take 17
    match demodGroups n (l.drop 17) (scr.drop 16) with
    | (v, e) => (demodGroup g (scr.take 16) ++ v, g.any (fun x => x.2) :: e)

/-- The 1,972 values of a segment from its 1,980 at an offset within the 4 bits of margin (R322). -/
def segmentSlice (raw : List (Int × Bool)) (g : Nat) (o : Int) : List (Int × Bool) :=
  (raw.drop (1980 * g + (4 + o).toNat)).take 1972

/-- Soft values and erasure map of a sector, the segments that `dep` names shifted by `o`. -/
def sectorSoft (psa : Nat) (raw : List (Int × Bool)) (dep : Nat → Bool) (o : Int) : List Int × List Bool :=
  demodGroups 2320 ((upTo 20).flatMap (fun g => segmentSlice raw g (if dep g then o else 0))) (scrambler 37120 (seedOf psa))

/-- Erased groups get soft value 0 on all 16 codeword bits (R339). -/
def eraseGroups : List Int → List Bool → List Int
  | _, [] => []
  | l, e :: rest => (if e then List.replicate 16 0 else l.take 16) ++ eraseGroups (l.drop 16) rest

/-! ### LDPC (R196, R197, R340) -/

/-- Blocks of 256 values. -/
def softColumns : Nat → List Int → List (List Int)
  | 0, _ => []
  | n + 1, l => l.take 256 :: softColumns n (l.drop 256)

/-- A block rotated by a shift. -/
def rotateInt (t : Nat) (c : List Int) : List Int := c.drop t ++ c.take t

/-- The blocks of a row of H: column and shift; message columns, then the staircase of parity columns (R197, R198). -/
def rowBlocks (i : Nat) : List (Nat × Nat) :=
  ((upTo 129).filter (fun j => (ldpcRows j).contains i)).map (fun j => (j, ldpcShift i j)) ++
    (if i = 0 then [(129, 0)] else [(128 + i, 0), (129 + i, 0)])

/-- Least magnitude less the offset, with the product of the signs, over the other blocks of a row. -/
def checkMessage (off : Nat) (others : List (List Int)) : List Int :=
  let neg := others.foldl (fun a c => List.zipWith (fun x y => x != decide (y < 0)) a c) (List.replicate 256 false)
  match others with
  | [] => List.replicate 256 0
  | c :: rest =>
    let mag := rest.foldl (fun a d => List.zipWith (fun (x : Nat) (y : Int) => min x y.natAbs) a d) (c.map Int.natAbs)
    List.zipWith (fun m b => let v : Int := ((m - off : Nat) : Int); if b then -v else v) mag neg

/-- One layer: block row `i` with its messages. -/
def ldpcLayer (off i : Nat) (st : List (List Int) × List (List (List Int))) : List (List Int) × List (List (List Int)) :=
  let blocks := rowBlocks i
  let t := List.zipWith (fun b r => List.zipWith (fun x y => x - y) (rotateInt b.2 (st.1.getD b.1 [])) r) blocks (st.2.getD i [])
  let new := (upTo blocks.length).map (fun k => checkMessage off (t.eraseIdx k))
  let sums := List.zipWith (fun b p => (b.1, rotateInt (256 - b.2) p)) blocks
    (List.zipWith (fun x y => List.zipWith (fun u v => u + v) x y) t new)
  (sums.foldl (fun cols u => cols.set u.1 u.2) st.1, st.2.set i new)

/-- Every parity check holds on the hard decisions; a negative value decides 1. -/
def ldpcHolds (cols : List (List Int)) : Bool :=
  (upTo 16).all (fun i =>
    ((rowBlocks i).foldl (fun a b => xorBits a ((rotateInt b.2 (cols.getD b.1 [])).map (fun v => decide (v < 0))))
      (List.replicate 256 false)).all (fun b => !b))

/-- Sweeps over the 16 layers up to a limit: values after convergence, if it came, and sweeps made. -/
def ldpcSweeps (off : Nat) : Nat → Nat → List (List Int) × List (List (List Int)) → Option (List (List Int)) × Nat
  | 0, done, _ => (none, done)
  | n + 1, done, st =>
    let st1 := (upTo 16).foldl (fun a i => ldpcLayer off i a) st
    if ldpcHolds st1.1 then (some st1.1, done + 1) else ldpcSweeps off n (done + 1) st1

/-- A decode (R340): the 4,128-byte message where it converges, and the iterations made. -/
def ldpcDecode (off limit : Nat) (soft : List Int) : Option Bytes × Nat :=
  let zero := (upTo 16).map (fun i => (rowBlocks i).map (fun _ => List.replicate 256 (0 : Int)))
  match ldpcSweeps off limit 0 (softColumns 145 soft, zero) with
  | (none, k) => (none, k)
  | (some cols, k) => (some (bitsToBytes 4128 ((cols.take 129).flatten.map (fun v => decide (v < 0)))), k)

/-! ### Outer code (R203, R346) -/

/-- Product of two polynomials over GF(2^8), lowest coefficient first, to `n` coefficients. -/
def g8PolyMul (n : Nat) (a b : List Nat) : List Nat :=
  (upTo n).map (fun k => (upTo (k + 1)).foldl (fun acc i => acc ^^^ g8Mul (a.getD i 0) (b.getD (k - i) 0)) 0)

/-- Value of a polynomial at a point. -/
def g8PolyAt (x : Nat) (p : List Nat) : Nat := p.reverse.foldl (fun a c => g8Mul a x ^^^ c) 0

/-- Locator of a sector's symbol: sector 0 stands at the highest power (R203). -/
def outerLocator (i : Nat) : Nat := g8Pow 2 (71 - i)

/-- The 8 syndromes of the 72 symbols of a byte position. -/
def outerSyndromes (w : List Nat) : List Nat := (upTo 8).map (fun j => w.foldl (fun a c => g8Mul a (g8Pow 2 j) ^^^ c) 0)

/-- State of the Berlekamp-Massey iteration: connection polynomial, previous one, its length, shift and discrepancy. -/
structure Massey where
  c : List Nat
  b : List Nat
  len : Nat
  m : Nat
  d : Nat
  deriving DecidableEq, Repr

/-- One step over the sequence. -/
def masseyStep (t : List Nat) (n : Nat) (q : Massey) : Massey :=
  let d := (upTo (q.len + 1)).foldl (fun a i => if i ≤ n then a ^^^ g8Mul (q.c.getD i 0) (t.getD (n - i) 0) else a) 0
  if d = 0 then { q with m := q.m + 1 }
  else
    let f := g8Mul d (g8Inv q.d)
    let new := (upTo 9).map (fun i => q.c.getD i 0 ^^^ (if q.m ≤ i then g8Mul f (q.b.getD (i - q.m) 0) else 0))
    if 2 * q.len ≤ n then { c := new, b := q.c, len := n + 1 - q.len, m := 1, d := d } else { q with c := new, m := q.m + 1 }

/-- The error locator of a sequence. -/
def massey (t : List Nat) : Massey := (upTo t.length).foldl (fun q n => masseyStep t n q) { c := [1], b := [1], len := 0, m := 1, d := 1 }

/-- One byte position of an extent decoded for errors and erasures (R346): `w` has 0 at the erased sectors. -/
def outerPosition (erased : List Nat) (w : List Nat) : Option (List Nat) :=
  let syn := outerSyndromes w
  let gamma := erased.foldl (fun p i => g8PolyMul 9 p [1, outerLocator i]) [1]
  let xi := g8PolyMul 8 syn gamma
  let q := massey (xi.drop erased.length)
  if 8 < 2 * q.len + erased.length then none
  else
    let psi := g8PolyMul 9 q.c gamma
    let omega := g8PolyMul 8 syn psi
    let deriv := (upTo 8).map (fun i => if i % 2 = 0 then psi.getD (i + 1) 0 else 0)
    let out := (upTo 72).map (fun i =>
      let x := outerLocator i
      if g8PolyAt (g8Inv x) psi = 0 then
        w.getD i 0 ^^^ g8Mul x (g8Mul (g8PolyAt (g8Inv x) omega) (g8Inv (g8PolyAt (g8Inv x) deriv)))
      else w.getD i 0)
    if (outerSyndromes out).all (fun v => decide (v = 0)) then some out else none

/-- The 72 messages of an extent rebuilt from those known; none where a byte position cannot be corrected. -/
def outerDecode (msgs : List (Option Bytes)) : Option (List Bytes) :=
  let erased := (upTo 72).filter (fun i => ((msgs.getD i none).isNone))
  let cols := (upTo 4128).map (fun b =>
    outerPosition erased (msgs.map (fun m => match m with
      | some x => (x.getD b 0).toNat
      | none => 0)))
  if cols.all (fun c => c.isSome) then
    some ((upTo 72).map (fun i => cols.map (fun c => byte ((c.getD []).getD i 0))))
  else none

end Sys2Proof.Machine
end

