-- ==== Sys2Proof/Machine/Detector.lean ====
section
/-! DEFINITION. The joint equaliser and detector of a lane (R298, R300 to R307) over the samples of one sector. DESIGN CHOICE (log 82): the
amplitude of a channel bit is 2^19, an ADC code is 2^12 of it, and tap products are kept exact. -/

namespace Sys2Proof.Machine

/-! ### Logarithms -/

/-- Fraction bits of a base-2 logarithm from a mantissa with 31 bits after the point, in 1 to 2. -/
def log2Frac : Nat → Nat → Nat → Nat
  | 0, _, a => a
  | k + 1, m, a => let q := m * m / 2 ^ 31; if 2 ^ 32 ≤ q then log2Frac k (q / 2) (2 * a + 1) else log2Frac k q (2 * a)

/-- Base-2 logarithm with 16 bits after the point; 0 for 0. -/
def log2Fix (x : Nat) : Int := if x = 0 then 0 else ((65536 * x.log2 + log2Frac 16 (x * 2 ^ 31 / 2 ^ x.log2) 0 : Nat) : Int)

/-- 10 log10 of a ratio of powers, in 0.01 dB. -/
def powerRatio (a b : Nat) : Int := roundDiv ((log2Fix a - log2Fix b) * 30103) 6553600

/-- 20 log10 of a ratio of amplitudes, in steps of 0.25 dB. -/
def gainSteps (a b : Nat) : Int := roundDiv ((log2Fix a - log2Fix b) * 30103) 81920000

/-! ### Target and metric (R300, R304) -/

/-- What the detector works with: the target's coefficients (Q15), tracks held at -1, noise weights, window, soft scale (Q15), the least
noise estimate of the S outputs, and the adaptation step (Q15). -/
structure Detector where
  g : Int
  cIn : Int
  cOut : Int
  held : Nat
  weights : List Nat
  window : Nat
  scale : Int
  ref : Nat
  step : Int
  deriving DecidableEq, Repr

/-- A track's channel bit as -1 or +1, from the bits of the four tracks. -/
def pm (b k : Nat) : Int := if bit b k then 1 else -1

/-- The target of a track after the bits `s` at the bits `b`; track 0 has no inward neighbour and track 3 no outward one. -/
def Detector.target (p : Detector) (k s b : Nat) : Int :=
  16 * (32768 * pm b k + p.g * pm s k + (if k = 0 then 0 else p.cIn * pm b (k - 1)) + (if 3 ≤ k then 0 else p.cOut * pm b (k + 1)))

/-- Power of a track's target over independent bits. -/
def Detector.power (p : Detector) (k : Nat) : Nat :=
  (256 * (2 ^ 30 + p.g * p.g + (if k = 0 then 0 else p.cIn * p.cIn) + (if 3 ≤ k then 0 else p.cOut * p.cOut))).toNat

/-- Metric of a branch at the outputs and weights of a bit. -/
def Detector.branch (p : Detector) (ws : List Nat) (ys : List Int) (s b : Nat) : Int :=
  sumInt ((upTo 8).map (fun o => let d := ys.getD o 0 - p.target (o % 4) s b; (ws.getD o 0 : Nat) * (d * d)))

/-- The states: bits of the four tracks, a blank track held at -1 (R306). -/
def Detector.states (p : Detector) : List Nat := (upTo 16).filter (fun b => decide (b &&& p.held = 0))

/-- Least of a list of metrics. -/
def least : List Int → Int
  | [] => 0
  | a :: rest => rest.foldl min a

/-! ### Equaliser and tentative decisions (R298, R300 to R302) -/

/-- A bit as the forward pass leaves it: metrics of the states before it, outputs and weights. -/
structure BitTrace where
  alpha : List (Nat × Int)
  ys : List Int
  ws : List Nat
  deriving DecidableEq, Repr

/-- A bit decided 24 bits behind the newest sample: its place, bits of the four tracks, targets and errors of the 8 outputs. -/
structure Decided where
  pos : Nat
  bits : Nat
  targets : List Int
  errors : List Int
  deriving DecidableEq, Repr

/-- The forward pass: taps of each output with 29 bits below the Q3.12 unit, samples from 7 bits before the next bit on, survivors with
their metrics and latest decisions, windows and outputs of the last 25 bits, and what it has left behind, newest first. -/
structure Forward where
  taps : List (List Int)
  rest : List (List Int)
  paths : List (Nat × Int × List Nat)
  recent : List (List (List Int) × List Int)
  trace : List BitTrace
  decided : List Decided
  deriving DecidableEq, Repr

/-- Samples that output `o` is formed from: the 15 of each of its four inputs. -/
def inputsOf (wins : List (List Int)) (o : Nat) : List Int := ((wins.drop (4 * (o / 4))).take 4).flatten

/-- The outputs of the equaliser. -/
def outputsOf (taps wins : List (List Int)) : List Int :=
  (upTo 8).map (fun o => sumInt (List.zipWith (fun t x => t * x) (taps.getD o []) (inputsOf wins o)) / 2 ^ 29)

/-- The best way into a state: earlier states in rising order, the first on equal metrics. -/
def bestInto (p : Detector) (ws : List Nat) (ys : List Int) (paths : List (Nat × Int × List Nat)) (b : Nat) : Nat × Int × List Nat :=
  match paths.foldl (fun (a : Option (Int × List Nat)) q =>
      let m := q.2.1 + p.branch ws ys q.1 b
      match a with
      | some x => if m < x.1 then some (m, q.2.2) else a
      | none => some (m, q.2.2)) none with
  | some x => (b, x.1, b :: x.2.take 25)
  | none => (b, 0, [b])

/-- The decisions of the best survivor. -/
def bestPath (paths : List (Nat × Int × List Nat)) : List Nat :=
  ((paths.foldl (fun (a : Option (Nat × Int × List Nat)) q => match a with
    | some x => if q.2.1 < x.2.1 then some q else a
    | none => some q) none).map (fun q => q.2.2)).getD []

/-- Least mean squares for one output: the error less its target moves each tap against its sample (R302). -/
def adaptTaps (step e : Int) (taps xs : List Int) : List Int := List.zipWith (fun t x => t - step * e * x) taps xs

/-- One bit of the forward pass; `look` says whether an output counts at a bit (R309), `adapts` whether it adapts there. -/
def Forward.step (p : Detector) (look adapts : Nat → Nat → Bool) (f : Forward) (n : Nat) : Forward :=
  let wins := f.rest.map (fun x => x.take 15)
  let ys := outputsOf f.taps wins
  let ws := (upTo 8).map (fun o => if look o n then p.weights.getD o 0 else 0)
  let paths := p.states.map (bestInto p ws ys f.paths)
  let recent := (wins, ys) :: f.recent.take 24
  let path := bestPath paths
  let a := path.getD 24 0
  let d : Decided :=
    { pos := n - 24, bits := a, targets := (upTo 8).map (fun o => p.target (o % 4) (path.getD 25 0) a)
      errors := (upTo 8).map (fun o => (recent.getD 24 ([], [])).2.getD o 0 - p.target (o % 4) (path.getD 25 0) a) }
  let old := recent.length = 25
  { taps := if old then (upTo 8).map (fun o =>
        let t := f.taps.getD o []
        if adapts o d.pos then adaptTaps p.step (d.errors.getD o 0) t (inputsOf (recent.getD 24 ([], [])).1 o) else t)
      else f.taps
    rest := f.rest.map (fun x => x.drop 1), paths := paths, recent := recent
    trace := { alpha := f.paths.map (fun q => (q.1, q.2.1)), ys := ys, ws := ws } :: f.trace
    decided := if old then d :: f.decided else f.decided }

/-! ### Soft values (R304, R305) -/

/-- One bit of the backward pass for a track: metrics after the bit, and the differences of the best metrics with the bit 1 and 0. -/
def backStep (p : Detector) (k : Nat) (x : BitTrace) (acc : List (Nat × Int) × List Int) : List (Nat × Int) × List Int :=
  let through (v : Bool) : List Int := x.alpha.flatMap (fun s =>
    (acc.1.filter (fun b => decide (bit b.1 k = v))).map (fun b => s.2 + p.branch x.ws x.ys s.1 b.1 + b.2))
  (p.states.map (fun s => (s, least (acc.1.map (fun b => p.branch x.ws x.ys s b.1 + b.2)))),
    (least (through true) - least (through false)) :: acc.2)

/-- The differences of a track over windows: each is entered from a further window of bits beyond it, with equal metrics. -/
def differences (p : Detector) (k : Nat) : Nat → List BitTrace → List Int
  | 0, _ => []
  | n + 1, l =>
    if l.isEmpty then []
    else ((l.take (2 * p.window)).foldr (backStep p k) (p.states.map (fun s => (s, 0)), [])).2.take p.window ++
      differences p k n (l.drop p.window)

/-- The soft value of a difference of metrics: the log-likelihood ratio in units of the least noise, scaled, rounded and saturated. -/
def softValue (p : Detector) (d : Int) : Int := sat (roundDiv (d * p.scale) (2 ^ 24 * max p.ref 1)) (-31) 31

/-- First channel bit of the pass: decision-directed work begins there (R295). -/
def firstBit : Nat := 160

/-- Bits of the pass, to 16 bits after the sector. -/
def passBits : Nat := 40320 - firstBit

/-- What a sector's pass gives: the soft values of a track from `firstBit` on, the taps after it and the bits decided, oldest first. -/
structure Detected where
  soft : List Int
  taps : List (List Int)
  decided : List Decided
  deriving DecidableEq, Repr

/-- The pass over a sector's samples, which begin 7 bits before `firstBit`, with the taps in force at its start. -/
def detect (p : Detector) (look adapts : Nat → Nat → Bool) (taps samples : List (List Int)) (k : Nat) : Detected :=
  let f0 : Forward := { taps := taps, rest := samples, paths := p.states.map (fun s => (s, 0, [])), recent := [], trace := [], decided := [] }
  let f := (upTo passBits).foldl (fun f i => f.step p look adapts (firstBit + i)) f0
  { soft := (differences p k (passBits / max p.window 1 + 1) f.trace.reverse).map (softValue p), taps := f.taps, decided := f.decided.reverse }

/-! ### What a sector leaves (R292, R298, R303, R327) -/

/-- Mean of squares; at least 1. -/
def meanSquare (l : List Int) : Nat := max 1 ((sumInt (l.map (fun e => e * e))).toNat / max l.length 1)

/-- The noise estimate of an output from the bits decided in a sector: the last 4,096 at which it counts. -/
def noiseOf (look : Nat → Nat → Bool) (o : Nat) (l : List Decided) : Option Nat :=
  let es := (l.filter (fun d => look o d.pos)).map (fun d => d.errors.getD o 0)
  if es.isEmpty then none else some (meanSquare (es.drop (es.length - 4096)))

/-- Phase and residual frequency, both in 2^-53 T and T per bit, moved by one bit: the proportional and integral gains (Q15) times the
phase error; during a flag the integral path is frozen and the phase coasts (R298, R325). -/
def timingBit (kp ki : Int) (flagged : Bool) (err : Int) (q : Int × Int) : Int × Int :=
  if flagged then (q.1 + q.2, q.2)
  else
    let f := sat (q.2 - ki * err) (-45035996273705) 45035996273705
    (q.1 + f - kp * err, f)

/-- The timing loop over the bits decided: the phase error of a bit is its error times half the change of the target across it. -/
def timingLoop (kp ki : Int) (flagged : Nat → Bool) (o : Nat) : List Decided → Int × Int → Int × Int
  | a :: b :: c :: rest, q =>
    timingLoop kp ki flagged o (b :: c :: rest)
      (timingBit kp ki (flagged b.pos) (b.errors.getD o 0 * (c.targets.getD o 0 - a.targets.getD o 0) / 2) q)
  | _, q => q

/-- A coupling coefficient as the error's correlation with a neighbour's decisions corrects it, in the amplitude of a bit. -/
def coupling (c : Int) (o : Nat) (q : Nat) (l : List Decided) : Int :=
  16 * c + roundDiv (sumInt (l.map (fun d => d.errors.getD o 0 * pm d.bits q))) (max l.length 1)

/-- The crosstalk balance, Q15: (c_out - c_in) / (c_out + c_in), averaged over tracks 1 and 2. -/
def balanceOf (p : Detector) (l : List Decided) : Int :=
  let one (k : Nat) : Int :=
    let i := coupling p.cIn k (k - 1) l
    let o := coupling p.cOut k (k + 1) l
    if 0 < o + i then sat (roundDiv (32768 * (o - i)) (o + i).toNat) (-32768) 32767 else 0
  roundDiv (one 1 + one 2) 2

end Sys2Proof.Machine
end

