-- ==== Sys2Proof/Machine/Team.lean ====
section
/-! DEFINITION. Evaluation of a team: its state, its attachment and its namespace (R161-R163, R548-R551). -/

namespace Sys2Proof.Machine

/-- What a member lane shows for R161: no disc or a disc not yet read; blank; unusable; identified with volume identity,
disc index and disc count. -/
inductive Seen where
  | incomplete
  | blank
  | unusable
  | identified (volume : Bytes) (index count : Nat)
  deriving DecidableEq, Repr

/-- What a lane shows. -/
def seenOf (s : State) (n : LaneId) : Seen :=
  let f := (laneAt s n).life
  if !f.discKnown then .incomplete
  else
    match f.leadIn with
    | .blank => .blank
    | .unusable => .unusable
    | .identified => .identified f.volume f.discIndex f.discCount
    | _ => .incomplete

/-- A lane's disc takes part in a cause of event 2004 (R162, R178) among the lanes of its team. -/
def takesPart (l : List (LaneId × Seen)) (count : Nat) (n : LaneId) (x : Seen) (cause : Nat) : Bool :=
  let others (p : Bytes → Nat → Nat → Bool) : Bool :=
    l.any (fun q => decide (q.1 ≠ n) && (match q.2 with
      | .identified v i c => p v i c
      | _ => false))
  match x, cause with
  | .blank, 0 => others (fun _ _ _ => true)
  | .identified _ _ _, 0 => l.any (fun q => decide (q.2 = .blank))
  | .identified v _ _, 1 => others (fun w _ _ => decide (w ≠ v))
  | .identified _ i _, 2 => others (fun _ j _ => decide (j = i))
  | .identified _ _ c, 3 => decide (c ≠ count)
  | .unusable, 4 => true
  | .identified _ i c, 5 => decide (c ≤ i)
  | _, _ => false

/-- The lowest-coded cause that holds for a lane, or for any lane. -/
def conflictCause (l : List (LaneId × Seen)) (count : Nat) (only : Option LaneId) : Option Nat :=
  let hit (k : Nat) (p : LaneId → Bool) : Bool := l.any (fun q => p q.1 && takesPart l count q.1 q.2 k)
  match only with
  | some n =>
    match (upTo 6).find? (fun k => hit k (fun m => decide (m = n))) with
    | some k => some k
    | none => (upTo 6).find? (fun k => hit k (fun _ => true))
  | none => (upTo 6).find? (fun k => hit k (fun _ => true))

/-- The members of a team with what they show. -/
def seenMembers (s : State) (t : TeamId) : List (LaneId × Seen) := (membersOf s t).map (fun n => (n, seenOf s n))

/-- The team state of R161: the first row that applies. -/
def teamVerdict (l : List (LaneId × Seen)) : TeamState :=
  if l.isEmpty then .empty
  else if (conflictCause l l.length none).isSome then .conflict
  else if l.any (fun q => decide (q.2 = .incomplete)) then .assembling
  else if l.any (fun q => decide (q.2 = .blank)) then .blank
  else .attached

/-- Lane of each disc index. -/
def discMap (l : List (LaneId × Seen)) : List Nat :=
  (upTo 32).map (fun i =>
    match l.find? (fun q => match q.2 with
        | .identified _ j _ => decide (j = i)
        | _ => false) with
    | some q => q.1.val
    | none => 0xFF)

/-- Volume identity that the members show. -/
def volumeOf (l : List (LaneId × Seen)) : Bytes :=
  match l.findSome? (fun q => match q.2 with
      | .identified v _ _ => some v
      | _ => none) with
  | some v => v
  | none => []

/-- A team enters ATTACHED (R162, R548, R550, R551). -/
def teamAttach (t : TeamId) (l : List (LaneId × Seen)) (s : State) : State :=
  let v := volumeOf l
  let s1 := raise 0x7001 [.u8 t.val, .u32 (t.val + 1)]
    (setTeam t (fun x => { x with st := .attached, volume := v, map := discMap l }) s)
  let s2 := if (nsAt s1 t).listed ∧ (nsAt s1 t).volume ≠ v then nsLeave t 2 s1 else s1
  let s3 := if (nsAt s2 t).listed then setNs t (fun ns => { ns with detached := none }) s2 else nsEnter t v l.length s2
  checkReadOnly t (anaChange s3)

/-- A team leaves ATTACHED: its commands are held for the detach hold. -/
def teamDetach (t : TeamId) (st : TeamState) (s : State) : State :=
  anaChange (raise 0x7002 [.u8 t.val, .u32 (t.val + 1)]
    (setNs t (fun ns => { ns with detached := some s.ticks })
      (setTeam t (fun x => { x with st := st, map := List.replicate 32 0xFF }) s)))

/-- TEAM_EVALUATE (R161, R162): `cause` is the lane whose event led to it; none after a change of T+00:01.
DEDUCED (log entry 91): a team that left keeps the volume identity that T+00:03 shows. -/
def evaluateTeam (t : TeamId) (cause : Option LaneId) (s : State) : State :=
  if (teamAt s t).creation.isSome then s
  else
    let l := seenMembers s t
    let old := (teamAt s t).st
    let new := teamVerdict l
    let same := decide (new = .attached) && decide ((teamAt s t).volume = volumeOf l) && decide ((teamAt s t).map = discMap l)
    let s1 := if old = .attached ∧ !same then teamDetach t new s else s
    let s2 := if new = .attached then (if same && decide (old = .attached) then s1 else teamAttach t l s1)
      else setTeam t (fun x => { x with st := new, map := discMap l }) s1
    let s3 := if new = .conflict ∧ old ≠ .conflict then
        raise 0x2004 [.u8 t.val, .u8 ((cause.map (fun n => n.val)).getD 0xFF),
          .u8 ((conflictCause l l.length cause).getD 0)] s2
      else s2
    let s4 := if new = .empty then nsLeave t 0 s3 else s3
    warningCheck (startupCheck s4)

/-- The team of a lane is evaluated. -/
def evaluateLane (n : LaneId) (s : State) : State :=
  match teamOfLane s n with
  | some t => evaluateTeam t (some n) s
  | none => s

/-- Event 2002 for a lane (R133): a blank disc has no volume identity and no disc index. -/
def raiseIdentified (n : LaneId) (s : State) : State :=
  let f := (laneAt s n).life
  raise 0x2002 [.u8 n.val, .u8 f.discIndex, .tail ((f.volume ++ List.replicate 16 0).take 16)] s

/-- A disc's identity as its volume record gives it (L+05). -/
def takeIdentity (n : LaneId) (rec : Bytes) (s : State) : State :=
  setLane n (fun l => { l with life := { l.life with
    leadIn := if rec.isEmpty then .blank else .identified
    volume := rec.take 16, discCount := field rec 16 1, discIndex := if rec.isEmpty then 0xFF else field rec 17 1 } }) s

/-- A creation ends early (R163): event 2002 for each lane whose record was read back, the team evaluated at each. -/
def abortCreation (t : TeamId) (s : State) : State :=
  match (teamAt s t).creation with
  | none => s
  | some c =>
    let s1 := setTeam t (fun x => { x with creation := none }) s
    (c.readBack.filter (fun n => (laneAt s1 n).life.discKnown)).foldl (fun a n => evaluateTeam t (some n) (raiseIdentified n
      (takeIdentity n (((laneAt a n).disc.map (fun d => d.volumeRec)).getD []) a))) s1

/-- A creation of the lane's team ends early. -/
def abortCreationOf (n : LaneId) (s : State) : State :=
  match teamOfLane s n with
  | some t => abortCreation t s
  | none => s

end Sys2Proof.Machine
end

