-- ==== Sys2Proof/Machine/Write.lean ====
section
/-! DEFINITION. Writing and read-after-write verify (05_write_path.md): passes, sectors, relocation, abandoned extents. -/

namespace Sys2Proof.Machine

/-! ### Access -/

/-- A lane's write path changed. -/
def setWr (n : LaneId) (f : WritePath → WritePath) (s : State) : State := setLane n (fun l => { l with wr := f l.wr }) s

/-- A lane's disc changed. -/
def setDisc (n : LaneId) (f : Disc → Disc) (s : State) : State := setLane n (fun l => { l with disc := l.disc.map f }) s

/-- A lane's pass changed. -/
def setPass (n : LaneId) (f : Pass → Pass) (s : State) : State := setWr n (fun w => { w with pass := w.pass.map f }) s

/-- Four tracks. -/
def allTracks : List TrackId := [0, 1, 2, 3]

/-- Namespace tag of the disc in a lane (R199). -/
def namespaceTag (d : Disc) : Bytes := (d.volumeRec ++ List.replicate 8 0).take 8

/-! ### Skip entries (R208, R209, R239) -/

/-- A relocation entry of the open session (R222, R271). -/
def enterReloc (n : LaneId) (e : RelocEntry) (s : State) : State :=
  setDisc n (fun d => { addReloc d e with
    sessionRelocs := d.sessionRelocs ++ [e]
    sessionRelocated := d.sessionRelocated + (if e.kind = 0 then 1 else 0)
    sessionSkipped := d.sessionSkipped + (if e.kind = 1 then 1 else 0) }) s

/-- Event 2008 once for a track and layer whose outer reserve is exhausted, and the zones that this makes Read Only. -/
def checkOuter (n : LaneId) (pos : Fin 32) (s : State) : State :=
  match (laneAt s n).disc with
  | none => s
  | some d =>
    match unwritableFrom d pos with
    | none => s
    | some e =>
      if d.warnedOuter.contains pos.val then checkReadOnlyLane n s
      else
        checkReadOnlyLane n (raise 0x2008 [.u8 n.val, .u8 (pos.val / 4), .u8 (pos.val % 4), .u32 e]
          (setDisc n (fun d => { d with warnedOuter := pos.val :: d.warnedOuter }) s))

/-- A skip entry for a slot: its extent and every later one of the track move up by one slot (R208). -/
def skipSlot (n : LaneId) (layer k slot : Nat) (s : State) : State :=
  let pos := trackPos layer k
  checkOuter n pos (setDisc n (fun d => { d with
      slots := vecModify d.slots pos (fun m => mapSet m slot .skipped)
      nextSlot := vecModify d.nextSlot pos (fun p => max p (slot + 1)) })
    (enterReloc n { kind := 1, psa := slotPsa layer k slot 0, repl := 0xFFFFFFFF } s))

/-! ### Due extents (R235-R239, R555) -/

/-- Team extents due on a lane: sealed, not verified, not ended, not held back. -/
def dueOn (s : State) (n : LaneId) : List (TeamId × Nat) :=
  match teamOfLane s n with
  | none => []
  | some t =>
    if (teamAt s t).st = .attached then
      ((nsAt s t).extents.filter (fun p => p.2.isSealed && !p.2.verified && !p.2.ended &&
        !heldBack (nsAt s t) p.1 && decide (laneOfExtent s t p.1 = some n))).map (fun p => (t, p.1))
    else []

/-- Open extents on a lane. -/
def openOn (s : State) (n : LaneId) : List (TeamId × Nat) :=
  match teamOfLane s n with
  | none => []
  | some t => ((openExtents (nsAt s t)).filter (fun x => decide (laneOfExtent s t x = some n))).map (fun x => (t, x))

/-- Layer, track and slot of a team extent on the disc of a lane. -/
def placeOf (s : State) (d : Disc) (q : TeamId × Nat) : Nat × Nat × Nat :=
  slotOfExtent d (extentLogical (discCount s q.1) q.2)

/-- The pass to start next: layer and slot of the lowest due extent whose slot holds no open extent, and the due extents of
that slot, of which each is the lowest of its track (R235, R236, R555). -/
def nextPass (s : State) (n : LaneId) : Option (Nat × Nat × List (Nat × TeamId × Nat)) :=
  match (laneAt s n).disc with
  | none => none
  | some d =>
    let due := (dueOn s n).map (fun q => (placeOf s d q, q))
    let opened := (openOn s n).map (placeOf s d)
    let first := due.filter (fun a =>
      !due.any (fun b => decide (b.1.2.1 = a.1.2.1) && decide (b.2.2 < a.2.2)) &&
      !opened.any (fun o => decide (o.1 = a.1.1) && decide (o.2.2 = a.1.2.2)))
    match first.foldl (fun best a =>
      match best with
      | none => some (a.1.1, a.1.2.2)
      | some b => if a.1.1 < b.1 ∨ (a.1.1 = b.1 ∧ a.1.2.2 < b.2) then some (a.1.1, a.1.2.2) else some b) none with
    | none => none
    | some b =>
      some (b.1, b.2, (first.filter (fun a => decide (a.1.1 = b.1) && decide (a.1.2.2 = b.2))).map (fun a => (a.1.2.1, a.2)))

/-! ### Which job is next (R572) -/

/-- What R572 weighs of a job: the lowest arrival sequence, the highest class and the oldest admission of the commands it
serves. -/
structure JobRank where
  seq : Nat
  cls : Nat
  tick : Nat
  deriving DecidableEq, Repr

/-- The rank of a job that serves some commands. -/
def rankOf : List Flight → Option JobRank
  | [] => none
  | f :: rest =>
    match rankOf rest with
    | none => some { seq := f.seq, cls := f.cls, tick := f.tick }
    | some r => some { seq := min f.seq r.seq, cls := min f.cls r.cls, tick := min f.tick r.tick }

/-- An LBA of a Read is still to be read from its disc: not reassembled, or to be read again (R619). -/
def stillToRead (s : State) (nsid lba : Nat) : Bool :=
  !s.host.reassembly.any (fun r => decide (r.1 = nsid ∧ r.2.1 = lba ∧ r.2.2.1 ≠ 0))

/-- LBAs that a Read waits for on a lane. -/
def wantedOn (s : State) (t : TeamId) (f : Flight) (n : LaneId) : List Nat :=
  if stalled s f ∨ (teamAt s t).st ≠ .attached then []
  else (readsOn s t f n).filter (fun l => stillToRead s f.nsid l && !readsZero s t f l)

/-- The extents that Reads wait for on a lane: layer, track and slot, with the Reads of each. -/
def readJobs (s : State) (n : LaneId) : List ((Nat × Nat × Nat) × List Flight) :=
  match teamOfLane s n, (laneAt s n).disc with
  | some t, some d =>
    let per := s.host.flights.flatMap (fun f =>
      if f.kind = .read ∧ f.nsid = t.val + 1 then
        (((wantedOn s t f n).map (fun l => slotOfExtent d (extentLogical (discCount s t) (l / 64)))).eraseDups).map (fun p => (p, f))
      else [])
    ((per.map (fun q => q.1)).eraseDups).map (fun p => (p, (per.filter (fun q => decide (q.1 = p))).map (fun q => q.2)))
  | _, _ => []

/-- Commands that a pass on some team extents serves. -/
def passFlights (s : State) (l : List (TeamId × Nat)) : List Flight :=
  s.host.flights.filter (fun f => f.writes && l.any (fun q =>
    decide (f.nsid = q.1.val + 1) && (stagedOf (nsAt s q.1) f.seq).any (fun g => decide (g.1 = q.2))))

/-- A job may be taken before others (R572): in ORDERED mode by the lowest arrival sequence; in NORMAL mode by age, then by
class. Among equals the position decides, which is the command's own choice. -/
def takenFirst (s : State) (r : JobRank) (others : List JobRank) : Bool :=
  if s.host.causes ≠ 0 then others.all (fun o => decide (r.seq ≤ o.seq))
  else
    let aged (x : JobRank) : Bool := passed s x.tick (msTicks (cfg s 0x2510 4))
    if aged r || others.any aged then aged r && others.all (fun o => !aged o || decide (r.tick ≤ o.tick))
    else others.all (fun o => decide (r.cls ≤ o.cls))

/-- The lane's band lies at or one before a band, where following reaches it (R486). -/
def standsAt (l : Lane) (b : Nat) : Bool := (l.life.band.map (fun x => decide (x ≤ b ∧ b ≤ x + 1))).getD false

/-- Level 3 orders the lane to a place; a relocation move under way gives way to it. -/
def orderTo (n : LaneId) (layer band : Nat) (s : State) : State :=
  setLane n (fun x => { x with
    life := { x.life with targetLayer := layer, targetBand := band }, wr := { x.wr with moveFrom := none } }) s

/-- Band and frame of the sector of a pass that comes next (R202, R207). -/
def passPlace (p : Pass) : Nat × Nat := dataPlace (72 * p.slot + p.sector)

/-- The lane stands at a frame, by layer, band, frame and kind of the wobble address (R262). -/
def framedAt (w : WritePath) (layer band frame kind : Nat) : Bool :=
  decide (w.wobbleLayer = layer ∧ w.wobbleBand = band ∧ w.wobbleFrame = frame ∧ w.wobbleKind = kind)

/-- The frame that the lane has come to is that of a pass's next sector, in layer, band, frame and kind (R262). -/
def gateMatches (w : WritePath) (p : Pass) : Bool :=
  framedAt w p.layer (passPlace p).1 (passPlace p).2 1

/-- What every write of a lane asks for (R141, R251, R260): the write clock locked, the spindle at speed, no ramp-down, no test source,
unit RUN, no drill, and PAIRSEL held (R663). -/
def mayRecord (s : State) (n : LaneId) : Bool :=
  let l := laneAt s n
  l.wr.clockLocked && l.spin.atSpeed && decide (velocity l ≤ mediaVelocity l) && !l.life.ramping && decide (lcfg s n 0x2A 4 = 0) &&
    decide (s.power.unit = 0) && s.work.drill.isNone && s.pair.hold

/-- A disc open for extents and copies on a lane that is not suspended (R226, R227, R274), with no close to be written first (R213). -/
def discOpen (l : Lane) (d : Disc) : Bool := !l.wr.suspended && !d.closed && !d.scanDue && d.closeDue.isNone

/-! ### Write strategy (R247-R250, R254) -/

/-- Fields of a strategy table as numbers: layer, class, Pw, Pk, Pc, peak length, cooling length, 24 shifts. -/
def tableFields (b : Bytes) : List Int :=
  [(field b 0 1 : Int), (field b 1 1 : Int), (field b 2 2 : Int), (field b 4 2 : Int), (field b 6 2 : Int), (field b 8 1 : Int),
   (field b 9 1 : Int)] ++ (upTo 24).map (fun i => fromLEInt (slice b (12 + i) 1))

/-- Velocity of a class, mm/s. -/
def classVelocity (c : Nat) : Int := 2500 + 2500 * c

/-- The table in force for a spot (R249): interpolation between the two velocity classes and the spot's factor of 1/4,096. -/
def strategyTable (base : Bytes) (layer : Nat) (v : Nat) (factor : Int) : Bytes :=
  let c := if (v : Int) < 5000 then 0 else if (v : Int) < 7500 then 1 else 2
  let a := tableFields (slice base (36 * (4 * layer + c)) 36)
  let b := tableFields (slice base (36 * (4 * layer + c + 1)) 36)
  let num (i : Nat) : Int := a.getD i 0 * 2500 + (b.getD i 0 - a.getD i 0) * ((v : Int) - classVelocity c)
  let power (i : Nat) : Int := roundDiv (num i * factor) (2500 * 4096)
  let plain (i : Nat) : Int := roundDiv (num i) 2500
  toLEInt 1 (plain 0) ++ toLEInt 1 (plain 1) ++ (upTo 3).flatMap (fun i => toLEInt 2 (power (2 + i))) ++ toLEInt 1 (plain 5) ++
    toLEInt 1 (plain 6) ++ [0, 0] ++ (upTo 24).flatMap (fun i => toLEInt 1 (plain (7 + i)))

/-- Base tables of a lane: the lead-in's defaults, or the override tables (R249). -/
def baseTables (s : State) (n : LaneId) (d : Disc) : Bytes := if lcfg s n 0x42 6 = 1 then stored s (laneIdx n 0x42) 5 else d.strategies

/-- Write-power factor of a spot: trims 28 to 31 in force (R503). -/
def writeFactor (l : Lane) (k : Nat) : Int := l.warm.inForce.getD (28 + k) 0

/-- The other strategy bank. -/
def otherBank (b : Fin 2) : Fin 2 := if b = 0 then 1 else 0

/-- STRATEGY (R254, R255): tables that differ from those in the inactive bank are sent: type 1 of the LASER messages. -/
def loadStrategies (n : LaneId) (layer : Nat) (s : State) : State :=
  match (laneAt s n).disc with
  | none => s
  | some d =>
    let l := laneAt s n
    let o := otherBank l.wr.bank
    let tabs : Vector Bytes 4 := Vector.ofFn (fun k : Fin 4 => strategyTable (baseTables s n d) layer (velocity l) (writeFactor l k.val))
    let s1 := allTracks.foldl (fun a k =>
      if l.wr.banks[o][k] = tabs[k] then a else sendLaser n 1 ([byte k.val, byte o.val] ++ tabs[k]) a) s
    setWr n (fun w => { w with tables := tabs, banks := w.banks.set o tabs }) s1

/-! ### Sessions (R212 to R214) -/

/-- A lane leaves READY to HOLDING: a close that is due is not written, and a session that is open stays open on the disc until the recovery
scan has closed it (R213, R214, R225). -/
def sessionLeft (d : Disc) : Disc :=
  { d with closeDue := none, primaryDone := false, scanDue := d.scanDue || decide (d.openEpoch ≠ 0), seenEpoch := max d.seenEpoch d.openEpoch }

/-- A write session begins when none is open (R212). -/
def beginSession (n : LaneId) (s : State) : State :=
  let now := timeNow s
  setDisc n (fun d =>
    if d.openEpoch ≠ 0 then { d with lastStart := s.ticks }
    else { d with
      openEpoch := d.epoch + 1, ours := true, sessionStart := now, sessionTick := s.ticks, lastStart := s.ticks, sessionSectors := 0
      sessionRelocated := 0
      firstSession := if d.firstSession = 0 then now else d.firstSession, lastSession := now }) s

/-! ### Passes (R235-R239, R251, R260) -/

/-- The lane may start a write pass. -/
def mayWrite (s : State) (n : LaneId) : Bool :=
  let l := laneAt s n
  match l.disc with
  | none => false
  | some d =>
    decide (l.life.st = .ready ∨ l.life.st = .writing) && l.wr.pass.isNone && !laneReading l &&
      l.rd.held.toList.all (fun j => j.isNone) && discOpen l d && mayRecord s n && !s.host.frozen

/-- What R239 knows of a slot: recorded by the map or by the blank check given, blank, or neither. -/
inductive SlotSeen where
  | recorded | blank | unknown
  deriving DecidableEq, Repr

/-- The slot by the map, below the lowest slot not yet written, or by the blank check given (R239). -/
def slotSeen (d : Disc) (layer k slot : Nat) (blank : List (TrackId × Bool)) : SlotSeen :=
  match mapGet d.slots[trackPos layer k] slot with
  | some .blank => .blank
  | some _ => .recorded
  | none =>
    if slot < d.nextSlot[trackPos layer k] then .recorded
    else
      match blank.find? (fun b => decide (b.1.val = k)) with
      | some b => if b.2 then .blank else .recorded
      | none => .unknown

/-- Slots found recorded get a skip entry and event 2014 (R239). -/
def skipRecorded (n : LaneId) (layer slot : Nat) (ks : List Nat) (s : State) : State :=
  ks.foldl (fun a k => raise 0x2014 [.u8 n.val, .u8 layer, .u8 k, .u32 slot] (skipSlot n layer k slot a)) s

/-! ### Sectors (R240-R246, R253) -/

/-- Duration of a sector in ns at a velocity in mm/s (40,304 T of 26 nm). -/
def sectorNs (v : Nat) : Nat := 40304 * 26000 / (if v = 0 then 1 else v)

/-- Write energy of a sector on the gated tracks (R755), in units of 10 uW * ns. -/
def countEnergy (n : LaneId) (gated : List Nat) (s : State) : State :=
  setLane n (fun l => { l with plife := { l.plife with energyRem := (upTo 4).map (fun k =>
    l.plife.energyRem.getD k 0 +
      (if gated.contains k then field (l.wr.tables.toList.getD k []) 2 2 * sectorNs (velocity l) else 0)) } }) s

/-- A data sector of an extent as the encoder takes it (R240, R244): the 4,096 user bytes, whether it is padding, and the
mark of a poisoned sector. -/
def takeSector (e : Extent) (pos : Nat) (s : State) : (Bytes × Bool × Nat) × State :=
  match e.lbas.find? (fun l => l.pos = pos) with
  | none => ((paddingBytes, true, 0), s)
  | some l =>
    match l.addr with
    | none => ((paddingBytes, true, 0), s)
    | some a =>
      if e.refused.any (fun r => r.1 = pos) then ((paddingBytes, true, 0), s)
      else
        match bufferRead 65 a 4096 s with
        | ((b, m), s1) => if m = 0 then ((b, false, 0), s1) else ((paddingBytes, true, m), s1)

/-- A poisoned sector is refused (R244-R246): its LBA reads as zeros, event 2012. -/
def refuseSector (n : LaneId) (pt : PassTrack) (pos mark : Nat) (s : State) : State :=
  raise 0x2012 [.u8 n.val, .u32 (64 * pt.e + pos), .u8 (if mark = 1 then 0 else 1)]
    (lbump n 0xE2 5 0 1 (addZeros pt.team (64 * pt.x + pos) 1
      (setExtent pt.team pt.x (fun e => { e with refused := e.refused ++ [(pos, mark)] }) s)))

/-- The message of sector `sec` of a data extent and whether it is padding, with the state after the staging read. -/
def buildSector (n : LaneId) (layer k sec : Nat) (pt : PassTrack) (d : Disc) (s : State) : Bytes × Bool × State :=
  if sec < 64 then
    let e := ((extentAt (nsAt s pt.team) pt.x)).getD Extent.fresh
    match takeSector e sec s with
    | ((u, pad, m), s1) =>
      (u ++ metadata (64 * pt.e + sec) layer k sec (b2n pad) pt.e d.openEpoch (namespaceTag d) u, pad,
        if m = 0 then s1 else refuseSector n pt sec m s1)
  else ((outerMessages pt.msgs).getD (sec - 64) [], false, s)

/-- A data sector whose data has not arrived (R242). -/
def sectorLate (s : State) (pt : PassTrack) (sec : Nat) : Bool :=
  match extentAt (nsAt s pt.team) pt.x with
  | none => false
  | some e => e.lbas.any (fun l => l.pos = sec && l.addr.isNone && !e.refused.any (fun r => r.1 = sec))

/-- A track of a pass changed. -/
def setTrack (n : LaneId) (k : TrackId) (f : PassTrack → PassTrack) (s : State) : State :=
  setPass n (fun q => { q with tracks := vecModify q.tracks k (fun o => o.map f) }) s

/-- The encoder starts a sector of a track (R240, R241). DEDUCED (log 76): a sector whose data has not arrived by then is not ready at its
playout (R242). -/
def encodeSector (n : LaneId) (sec : Nat) (k : TrackId) (s : State) : State :=
  let l := laneAt s n
  match l.disc, l.wr.pass.bind (fun p => (p.tracks[k]).map (fun pt => (p, pt))) with
  | some d, some (p, pt) =>
    if sectorLate s pt sec then setTrack n k (fun t => { t with ready := none }) s
    else
      match buildSector n p.layer k.val sec pt d s with
      | (msg, pad, s1) =>
        setTrack n k (fun t => { t with ready := some (msg, pad), msgs := if sec < 64 then t.msgs ++ [msg] else t.msgs }) s1
  | _, _ => s

/-- The encoder starts a sector on every track of the pass (R241). -/
def encodeNext (n : LaneId) (sec : Nat) (s : State) : State :=
  if 72 ≤ sec then s else allTracks.foldl (fun a k => encodeSector n sec k a) s

/-- The pass to be started: tracks with their due extents, not yet encoded. -/
def newPass (s : State) (layer slot : Nat) (good : List (Nat × TeamId × Nat)) : Pass :=
  { layer := layer, slot := slot, sector := 0, begun := false, cut := false, syncSum := 0, syncCount := 0
    tracks := Vector.ofFn (fun k : Fin 4 =>
      (good.find? (fun q => q.1 = k.val)).map (fun q =>
        { team := q.2.1, x := q.2.2, e := extentLogical (discCount s q.2.1) q.2.2, msgs := [], ready := none, copied := []
          judged := 0, failed := [] })) }

/-- A pass starts at its order (R37): the session, its tables, and the first sectors in the encoder (R212, R241, R254). -/
def startPass (n : LaneId) (layer slot : Nat) (good : List (Nat × TeamId × Nat)) (s : State) : State :=
  encodeNext n 0 (enter n .writing (setWr n (fun w => { w with pass := some (newPass s layer slot good) })
    (loadStrategies n layer (passBegins n (beginSession n s)))))

/-- Level 3 orders a pass, which level 2 takes up (R35). -/
def beginPass (n : LaneId) (layer slot : Nat) (good : List (Nat × TeamId × Nat)) (s : State) : State :=
  orderNow n (.write layer slot) (startPass n layer slot good) s

/-- Level 3 lowers a lane's velocity to the highest at which its disc is written (R251). -/
def slowForWrite (n : LaneId) (s : State) : State :=
  setLane n (fun l =>
    let v := max 2496 (mediaVelocity l)
    if v < l.pace.v then { l with pace := { l.pace with v := v, raise := none }, spin := { l.spin with atSpeed := false, near := 0 } } else l) s

/-- PASS_START (R236, R239, R251, R254, R260): `blank` holds the blank checks made. A slot whose state the map does not hold waits for
its check. -/
def passStart (n : LaneId) (blank : List (TrackId × Bool)) (s0 : State) : State :=
  match (laneAt s0 n).disc, nextPass s0 n with
  | some d, some (layer, slot, l) =>
    let s := if (laneAt s0 n).life.st = .ready ∧ discOpen (laneAt s0 n) d then slowForWrite n s0 else s0
    let others := (readJobs s n).filterMap (fun j => rankOf j.2)
    let first := ((rankOf (passFlights s (l.map (fun q => q.2)))).map (fun r => takenFirst s r others)).getD others.isEmpty
    if !first then s
    else if (laneAt s n).life.layer ≠ some layer ∨ !standsAt (laneAt s n) (dataPlace (72 * slot)).1 then
      orderTo n layer (dataPlace (72 * slot)).1 s
    else if mayWrite s n && !l.any (fun q => decide (slotSeen d layer q.1 slot blank = .unknown)) then
      let bad := (l.filter (fun q => decide (slotSeen d layer q.1 slot blank = .recorded))).map (fun q => q.1)
      let s1 := skipRecorded n layer slot bad s
      let good := l.filter (fun q => !bad.contains q.1)
      if good.isEmpty then s1 else beginPass n layer slot good s1
    else s
  | _, _ => s0

/-- PASS_START. -/
def execPassStart (n : LaneId) (blank : List (TrackId × Bool)) (s : State) : Host.Outcome State Fault Refusal :=
  .next (passStart n blank s)

/-- The sector that the encoder holds of one track put out: its channel bits are added to those of the other tracks. -/
def playTrack (n : LaneId) (p : Pass) (k : TrackId) (acc : List (Nat × List Bool) × State) : List (Nat × List Bool) × State :=
  match (p.tracks[k]).bind (fun pt => pt.ready) with
  | none => acc
  | some (msg, pad) =>
    (acc.1 ++ [(k.val, sectorBits (slotPsa p.layer k.val p.slot p.sector) msg)],
      lbump n 0xE2 6 0 (b2n pad) (lbump n 0xE2 1 0 1 acc.2))

/-- A track of a pass whose sector is not ready (R242). -/
def notReady (p : Pass) : Bool := allTracks.any (fun k => (p.tracks[k]).any (fun pt => pt.ready.isNone))

/-- SECTOR_PLAYOUT (R240-R246, R253, R254, R262): once the lane has come to its frame, the next sector of the pass on every gated track;
the encoder starts the sector after it. -/
def sectorPlayout (n : LaneId) (s : State) : State :=
  let l := laneAt s n
  match l.wr.pass with
  | none => s
  | some p =>
    if p.cut ∨ 72 ≤ p.sector ∨ !gateMatches l.wr p then s
    else if notReady p then detectFault n 0x1101 (lifeLane n 3 1 s)
    else
      match allTracks.foldl (fun a k => playTrack n p k a) ([], s) with
      | (bits, s1) =>
        let s2 := sendSymbols n (!p.begun) bits (countEnergy n (bits.map (fun b => b.1)) s1)
        let s3 := setDisc n (fun d => { d with sessionSectors := d.sessionSectors + bits.length }) s2
        encodeNext n (p.sector + 1) (setWr n (fun w => { w with
          bank := if p.begun then w.bank else otherBank w.bank
          pass := w.pass.map (fun q => { q with sector := q.sector + 1, begun := true }) }) s3)

/-- SECTOR_PLAYOUT. -/
def execSectorPlayout (n : LaneId) (s : State) : Host.Outcome State Fault Refusal := .next (sectorPlayout n s)

/-! ### Verify (R264, R265, R278, R279) -/

/-- The longest stretch of differing bits (R264): bursts split where two differing bits lie more than 16 bits apart. -/
def longestBurst : List Nat → Nat
  | [] => 0
  | a :: rest =>
    let rec go : Nat → Nat → Nat → List Nat → Nat
      | start, last, best, [] => max best (last - start + 1)
      | start, last, best, b :: bs =>
        if b ≤ last + 16 then go start b best bs else go b b (max best (last - start + 1)) bs
    go a a 0 rest

/-- The verdict of R264 on one sector. -/
def verifyOk (s : State) (n : LaneId) (v : VerifyRead) : Bool :=
  let lim : Int := (lcfg s n 0x40 4 : Nat)
  v.decisions && decide (-lim ≤ v.syncOffset) && decide (v.syncOffset ≤ lim) && decide (18 ≤ v.resyncFound) &&
    decide (v.diffs.length ≤ lcfg s n 0x40 1) && decide (longestBurst v.diffs ≤ lcfg s n 0x40 2) &&
    decide (v.dropoutBits ≤ lcfg s n 0x40 3)

/-- Commands of a team that may now complete do so (R278). -/
def settleWrites (t : TeamId) (s : State) : State :=
  (s.host.flights.filter (fun f => f.writes && decide (f.nsid = t.val + 1))).foldl (fun a f => tryComplete f.c a) s

/-- An extent has verified whole: the map, the counts and the spot-stream advance (R239, R279), and commands complete. -/
def extentVerified (n : LaneId) (layer : Nat) (k : TrackId) (slot : Nat) (pt : PassTrack) (s : State) : State :=
  let pos := trackPos layer k.val
  let waiting := pt.failed.filter (fun i => decide (i < 64) && !pt.copied.contains i)
  let s1 := setDisc n (fun d => { d with
      slots := vecModify d.slots pos (fun m => mapSet
        ((upTo (slot - d.nextSlot[pos])).foldl (fun a i => if (mapGet a (d.nextSlot[pos] + i)).isNone
          then mapSet a (d.nextSlot[pos] + i) .blank else a) m) slot .verified)
      nextSlot := vecModify d.nextSlot pos (fun p => max p (slot + 1))
      extents := vecModify d.extents pos (fun c => max c ((extentPlace pt.e).2.2 + 1)) }) s
  let i := (laneAt s n).life.discIndex
  let s2 := setNs pt.team (fun ns => { ns with lastVerified := mapSet ns.lastVerified (4 * i + k.val) pt.e })
    (setExtent pt.team pt.x (fun e => { e with
      verified := true, waiting := waiting.filter (fun w => !e.refused.any (fun r => r.1 = w)) }) s1)
  postCompletion n (.writeDone k slot false) (setWr n (fun w => { w with abandoned := 0 }) (freeExtents pt.team (settleWrites pt.team s2)))

/-- An abandoned extent's copies are dropped, its slot skipped, event 2011, and after L+40:06 in a row writing on the lane is suspended
(R273, R274). -/
def abandonSlot (n : LaneId) (layer : Nat) (k : TrackId) (slot e failed : Nat) (s : State) : State :=
  let s1 := setWr n (fun w => { w with
    queue := w.queue.filter (fun c => c.refresh || !decide (c.track = k ∧ c.extent = e)), abandoned := w.abandoned + 1 }) s
  let s2 := postCompletion n (.writeDone k slot true) (raise 0x2011 [.u8 n.val, .u8 layer, .u8 k.val, .u32 slot, .u32 failed]
    (lbump n 0xE2 4 0 1 (skipSlot n layer k.val slot s1)))
  if lcfg s n 0x40 6 ≤ (laneAt s2 n).wr.abandoned ∧ !(laneAt s2 n).wr.suspended then
    warningCheck (beginWaits n (raise 0x2013 [.u8 n.val] (setWr n (fun w => { w with suspended := true }) s2)))
  else s2

/-- EXTENT_ABANDONED (R272-R274): the extent leaves its pass, and is written again in the next slot. -/
def abandonExtent (n : LaneId) (p : Pass) (k : TrackId) (pt : PassTrack) (s : State) : State :=
  abandonSlot n p.layer k p.slot pt.e pt.failed.length (setPass n (fun q => { q with tracks := q.tracks.set k none }) s)

/-- The copies queued for a track and layer, refresh copies apart, need more relocation slots than are free (R267, R272). -/
def copiesOver (l : Lane) (layer : Nat) (k : TrackId) : Bool :=
  match l.disc with
  | none => false
  | some d => decide (64 * relocFree d layer k.val < (l.wr.queue.filter (fun c =>
      decide (c.track = k ∧ c.layer = layer) && !c.refresh)).length)

/-- A copy of a failed data sector queued (R266, R618): its user bytes come from staging; a marked line makes no copy, the
sector gets a kind-2 entry and its LBA is refused. -/
def queueCopy (n : LaneId) (p : Pass) (k : TrackId) (pt : PassTrack) (sec : Nat) (s : State) : State :=
  let e := ((extentAt (nsAt s pt.team) pt.x)).getD Extent.fresh
  let psa := slotPsa p.layer k.val p.slot sec
  match takeSector e sec s with
  | ((u, pad, m), s1) =>
    if m = 0 then
      setWr n (fun w => { w with queue := w.queue ++
        [{ track := k, psa := psa, dra := 64 * pt.e + sec, layer := p.layer, sector := sec, kind := b2n pad, extent := pt.e
           user := u, addr := none, refresh := false, tick := s.ticks }] }) s1
    else refuseSector n pt sec m (enterReloc n { kind := 2, psa := psa, repl := 0xFFFFFFFF } s1)

/-- The V channel of a track comes to the end of the sector verified (R285, R294, R336). -/
def endVerifyFrame (n : LaneId) (k : TrackId) (psa : Nat) (s : State) : State :=
  let c : ChanId := Fin.ofNat 8 (4 + k.val)
  lbump n 0xE0 1 c.val (b2n ((laneAt s n).rd.channels[c]).framed)
    (setLane n (fun l => { l with rd := { l.rd with channels := vecModify l.rd.channels c (fun x => x.endFrame (some psa)) } }) s)

/-- A sector that failed verify: a copy of a data sector is queued, a parity sector becomes defective (R266, R270). -/
def sectorFailed (n : LaneId) (p : Pass) (k : TrackId) (pt : PassTrack) (sec : Nat) (s : State) : State :=
  let s1 := lbump n 0xE2 2 0 1 s
  if sec < 64 then queueCopy n p k pt sec s1
  else enterReloc n { kind := 2, psa := slotPsa p.layer k.val p.slot sec, repl := 0xFFFFFFFF } s1

/-- SECTOR_VERIFY (R258, R264-R266, R270, R272). -/
def sectorVerify (n : LaneId) (k : TrackId) (v : VerifyRead) (s : State) : State :=
  match (laneAt s n).wr.pass with
  | none => s
  | some p =>
    match p.tracks[k] with
    | none => s
    | some pt =>
      if p.cut ∨ p.sector ≤ pt.judged then s
      else
        let ok := verifyOk s n v
        let sec := pt.judged
        let pt1 := { pt with judged := sec + 1, failed := if ok then pt.failed else pt.failed ++ [sec] }
        let s1 := setPass n (fun q => { q with
          tracks := q.tracks.set k (some pt1)
          syncSum := q.syncSum + (if ok then v.syncOffset else 0), syncCount := q.syncCount + b2n ok }) (endVerifyFrame n k (slotPsa p.layer k.val p.slot sec) s)
        let s2 := if ok then s1 else sectorFailed n p k pt1 sec s1
        if lcfg s n 0x40 5 < pt1.failed.length || (!ok && copiesOver (laneAt s2 n) p.layer k) then abandonExtent n p k pt1 s2
        else if sec = 71 then extentVerified n p.layer k p.slot pt1 s2
        else s2

/-- SECTOR_VERIFY. -/
def execSectorVerify (n : LaneId) (k : TrackId) (v : VerifyRead) (s : State) : Host.Outcome State Fault Refusal :=
  .next (sectorVerify n k v s)

/-! ### End of a pass (R141, R170, R208, R258, R263) -/

/-- A pass cut before its extents verified: their slots are skipped, their copies dropped, and they stay due (R170, R208). -/
def cutPass (n : LaneId) (s : State) : State :=
  match (laneAt s n).wr.pass with
  | none => s
  | some p =>
    let s1 := allTracks.foldl (fun a k =>
      match p.tracks[k] with
      | none => a
      | some pt =>
        if pt.judged < 72 ∧ p.begun then
          skipSlot n p.layer k.val p.slot (setWr n (fun w => { w with
            queue := w.queue.filter (fun c => c.refresh || !decide (c.track = k ∧ c.extent = pt.e)) }) a)
        else a) s
    setWr n (fun w => { w with pass := none }) s1

/-- The pass has been played out and judged on every track. -/
def passDone (p : Pass) : Bool :=
  decide (p.sector = 72) && allTracks.all (fun k => (p.tracks[k]).all (fun pt => decide (pt.judged = 72)))

/-- The write offset after a pass (R258): moved by the mean sync position error of the sectors verified in it, by at most 1/32 T. -/
def moveOffset (n : LaneId) (sum : Int) (count : Nat) (s : State) : State :=
  if count = 0 then s
  else setWr n (fun w => { w with offset := sat (w.offset + sat (roundDiv (32 * sum) count) (-1) 1) (-512) 512 }) s

/-- A lane that has ended its pass leaves WRITING; idle time begins (R141, R145). -/
def leaveWriting (n : LaneId) (s : State) : State :=
  if (laneAt s n).life.st = .writing then
    enter n .ready (idleChannels n (setLane n (fun x => { x with life := { x.life with idle := s.ticks } }) s))
  else s

/-- PASS_END (R46, R141, R258): the lane leaves WRITING, the write offset moves, and level 3 collects what level 2 posted. A cut pass
leaves its slots skipped. -/
def passEnd (n : LaneId) (s : State) : State :=
  match (laneAt s n).wr.pass with
  | none => s
  | some p =>
    if p.cut || passDone p then
      collect n (leaveWriting n (setWr n (fun w => { w with pass := none })
        (moveOffset n p.syncSum p.syncCount (if p.cut then cutPass n s else s))))
    else s

/-- A pass played out whole in one step, in no other pass: the lane is WRITING meanwhile and then as before (R141, R145). -/
def asWriting (n : LaneId) (f : State → State) (s : State) : State :=
  let st := (laneAt s n).life.st
  if (laneAt s n).wr.pass.isSome then f s
  else enter n st (setLane n (fun x => { x with life := { x.life with idle := s.ticks } }) (f (enter n .writing s)))

/-! ### Relocation (R211, R266-R270, R370) -/

/-- Queued refresh copies that satisfy a test are dropped, counted and reported with a reason (R371). -/
def dropRefresh (n : LaneId) (reason : Nat) (p : Copy → Bool) (s : State) : State :=
  let hit := ((laneAt s n).wr.queue.filter (fun c => c.refresh && p c)).length
  if hit = 0 then s
  else raise 0x2021 [.u8 n.val, .u32 hit, .u8 reason] (lbump n 0xE3 0xC 0 hit
    (setWr n (fun w => { w with queue := w.queue.filter (fun c => !(c.refresh && p c)) }) s))

/-- Refresh copies of a track and layer without a free relocation slot are dropped (R371), and event 2022 is raised once where
the free slots have fallen below L+31:05 percent (R372). -/
def checkSpare (n : LaneId) (layer k : Nat) (s : State) : State :=
  match (laneAt s n).disc with
  | none => s
  | some d =>
    let left := relocFree d layer k
    let pos := (trackPos layer k).val
    let s1 := if 100 * left < lcfg s n 0x31 5 * 2090 ∧ !d.warnedLow.contains pos then
        raise 0x2022 [.u8 n.val, .u8 layer, .u8 k, .u32 left] (setDisc n (fun d => { d with warnedLow := pos :: d.warnedLow }) s)
      else s
    if left = 0 then dropRefresh n 2 (fun c => decide (c.layer = layer ∧ c.track.val = k)) s1 else s1

/-- A copy with its user bytes: those of a refresh copy are taken from staging, where a mark discards it, counted (R618). -/
def loadCopy (n : LaneId) (c : Copy) (acc : List Copy × State) : List Copy × State :=
  match c.addr with
  | none => (acc.1 ++ [c], acc.2)
  | some a =>
    match bufferRead 65 a 4096 acc.2 with
    | ((b, m), s1) => if m = 0 then (acc.1 ++ [{ c with user := b }], s1) else (acc.1, lbump n 0xE3 0xC 0 1 s1)

/-- The spare band that a lane at a band crosses next. -/
def spareAfter (b : Nat) : Nat := b / 50 * 50 + 49

/-- Lowest free relocation slot of a track in a spare band (R210, R268). -/
def freeReloc (d : Disc) (layer k b : Nat) : Option Nat :=
  (upTo (relocSlots b)).find? (fun q => !d.relocUsed.contains (relocPsa layer k b q 0))

/-- Every track with copies queued on a layer has a free slot in a spare band. -/
def spareFits (d : Disc) (layer : Nat) (ks : List Nat) (b : Nat) : Bool := ks.all (fun k => (freeReloc d layer k b).isSome)

/-- Tracks that have copies queued for a layer. -/
def queuedTracks (q : List Copy) (layer : Nat) : List Nat :=
  (upTo 4).filter (fun k => q.any (fun c => decide (c.track.val = k ∧ c.layer = layer)))

/-- The spare band nearest to a band that fits (R269). -/
def nearestSpare (d : Disc) (layer : Nat) (ks : List Nat) (b : Nat) : Option Nat :=
  let dist (x : Nat) : Nat := (x - b) + (b - x)
  (((upTo 740).map (fun i => 549 + 50 * i)).filter (spareFits d layer ks)).foldl (fun a x =>
    match a with
    | none => some x
    | some y => if dist x < dist y then some x else some y) none

/-- A verified copy: its entry is in force, and the sector it replaces no longer holds its command back (R270, R278, R369). -/
def copyVerified (n : LaneId) (c : Copy) (s : State) : State :=
  if c.refresh then lbump n 0xE3 0xB 0 1 s
  else
    let s1 := setTrack n c.track (fun pt => if pt.e = c.extent then { pt with copied := c.sector :: pt.copied } else pt)
      (lbump n 0xE2 3 0 1 s)
    match teamOfLane s n with
    | none => s1
    | some t =>
      let x := teamExtent (discCount s t) (laneAt s n).life.discIndex c.extent
      match extentAt (nsAt s t) x with
      | none => s1
      | some _ =>
        freeExtents t (settleWrites t
          (setExtent t x (fun e => { e with waiting := e.waiting.filter (fun w => w ≠ c.sector) }) s1))

/-- The messages of a relocation extent (R211, R267): copies in order, padding after them, then the outer parity. -/
def relocMessages (d : Disc) (layer k : Nat) (cs : List Copy) : List Bytes :=
  let data := (upTo 64).map (fun i =>
    match cs[i]? with
    | some c => c.user ++ metadata c.dra c.layer c.track.val c.sector (c.kind + 128) c.extent d.openEpoch (namespaceTag d) c.user
    | none => paddingBytes ++ metadata 0xFFFFFFFF layer k i 1 0xFFFFFFFF d.openEpoch (namespaceTag d) paddingBytes)
  data ++ outerMessages data

/-- The slot of the extent of a copy on its disc, where the map holds that extent verified and nothing after it on the track. -/
def lastSlotOf (l : Lane) (c : Copy) : Option Nat :=
  match l.disc with
  | none => none
  | some d =>
    match slotOfExtent d c.extent with
    | (layer, k, slot) =>
      if layer = c.layer ∧ k = c.track.val ∧ d.nextSlot[trackPos layer k] = slot + 1 then some slot else none

/-- A verified extent whose copy has no free relocation slot any more is abandoned (R272): it is due again. DESIGN CHOICE (log 77): only
where its slot is the last one written of its track; a copy of an earlier slot stays queued. -/
def abandonVerified (n : LaneId) (c : Copy) (s : State) : State :=
  match lastSlotOf (laneAt s n) c, teamOfLane s n with
  | some slot, some t =>
    let x := teamExtent (discCount s t) (laneAt s n).life.discIndex c.extent
    abandonSlot n c.layer c.track slot c.extent 0
      (setDisc n (fun d => { d with extents := vecModify d.extents (trackPos c.layer c.track.val) (fun v => v - 1) })
        (setExtent t x (fun e => { e with verified := false, waiting := [] }) s))
  | _, _ => s

/-- A copy that failed verify is queued again (R270), or its extent is abandoned (R272). -/
def requeue (n : LaneId) (c : Copy) (s : State) : State :=
  let s1 := setWr n (fun w => { w with queue := w.queue ++ [{ c with tick := s.ticks }] }) (lbump n 0xE2 2 0 1 s)
  let inPass := match (laneAt s n).wr.pass.bind (fun p => p.tracks[c.track]) with
    | some pt => decide (pt.e = c.extent)
    | none => false
  if !c.refresh && copiesOver (laneAt s1 n) c.layer c.track && !inPass then abandonVerified n c s1 else s1

/-- One track's copies recorded in a relocation slot: entries, verify results and copies queued again. -/
def recordCopies (n : LaneId) (layer : Nat) (k : TrackId) (band q : Nat) (cs : List Copy) (ok : Nat → Bool) (s : State) : State :=
  let psa (i : Nat) : Nat := relocPsa layer k.val band q i
  let s1 := (upTo cs.length).foldl (fun a i =>
    match cs[i]? with
    | none => a
    | some c =>
      let a1 := enterReloc n { kind := 0, psa := c.psa, repl := psa i } a
      if ok i then copyVerified n c a1 else requeue n c a1) s
  ((upTo 8).filter (fun i => !ok (64 + i))).foldl (fun a i =>
    enterReloc n { kind := 2, psa := psa (64 + i), repl := 0xFFFFFFFF } (lbump n 0xE2 2 0 1 a)) s1

/-- The symbols of an extent played on some tracks, messages and places by track, and their write energy (R253, R755). -/
def playExtent (n : LaneId) (switch : Bool) (tracks : List (Nat × List Bytes × (Nat → Nat))) (s : State) : State :=
  (upTo 72).foldl (fun a sec =>
    sendSymbols n (switch && decide (sec = 0)) (tracks.map (fun t => (t.1, sectorBits (t.2.2 sec) (t.2.1.getD sec []))))
      (countEnergy n (tracks.map (fun t => t.1)) a)) s

/-- What one track records in a relocation pass: its relocation slot and its copies. -/
abbrev RelocUse := TrackId × Nat × List Copy

/-- The relocation slots of a pass played out in order; the first symbol switches the bank (R254, R268). -/
def playReloc (n : LaneId) (d : Disc) (layer band : Nat) (use : List RelocUse) (s : State) : State :=
  let qs := (upTo (relocSlots band)).filter (fun q => use.any (fun u => decide (u.2.1 = q)))
  qs.foldl (fun a q =>
    playExtent n (decide (qs.head? = some q)) ((use.filter (fun u => decide (u.2.1 = q))).map (fun u =>
      (u.1.val, relocMessages d layer u.1.val u.2.2, relocPsa layer u.1.val band q))) a) s

/-- The reads of a track's sectors by the verify comparator. -/
def readsOf (verify : List (TrackId × List VerifyRead)) (k : TrackId) : List VerifyRead :=
  ((verify.find? (fun v => decide (v.1 = k))).map (fun v => v.2)).getD []

/-- Sector `i` of a track passes verify; one of which nothing was read fails (R265). -/
def readOk (s : State) (n : LaneId) (reads : List VerifyRead) (i : Nat) : Bool := (reads[i]?).any (verifyOk s n)

/-- The write offset moved by the sectors of some reads that pass verify (R258). -/
def offsetOf (n : LaneId) (reads : List VerifyRead) (s : State) : State :=
  let good := reads.filter (verifyOk s n)
  moveOffset n (good.foldl (fun a v => a + v.syncOffset) 0) good.length s

/-- The copies that a relocation pass at the index of a spare band records (R268): queued for the layer 200 us before, up to 64 to a track,
in the lowest free relocation slot of the track. -/
def relocUses (s : State) (l : Lane) (d : Disc) (layer band : Nat) : List RelocUse :=
  let ready := l.wr.queue.filter (fun c => decide (c.layer = layer) && passed s c.tick (nsTicks 200000))
  allTracks.filterMap (fun k =>
    match (ready.filter (fun c => decide (c.track = k))).take 64, freeReloc d layer k.val band with
    | [], _ => none
    | _, none => none
    | cs, some q => some (k, q, cs))

/-- A relocation pass may run: in a pass that has begun, or on a READY lane at rest between extents (R141, R254, R262, R274). -/
def mayRelocate (s : State) (n : LaneId) : Bool :=
  let l := laneAt s n
  match l.disc with
  | none => false
  | some d => discOpen l d && mayRecord s n && !laneReading l &&
      (match l.wr.pass with
       | some p => p.begun && !p.cut
       | none => decide (l.life.st = .ready))

/-- The copies that are put out, with their user bytes. -/
def loadUses (n : LaneId) (use : List RelocUse) (s : State) : List RelocUse × State :=
  use.foldl (fun (acc : List RelocUse × State) u =>
    match u.2.2.foldl (fun a c => loadCopy n c a) ([], acc.2) with
    | (cs, a) => (if cs.isEmpty then acc.1 else acc.1 ++ [(u.1, u.2.1, cs)], a)) ([], s)

/-- The copies of a relocation pass recorded and judged (R267, R268, R270). -/
def relocate (n : LaneId) (layer band : Nat) (taken : List RelocUse) (verify : List (TrackId × List VerifyRead)) (s : State) : State :=
  match loadUses n taken (setWr n (fun w => { w with queue := w.queue.filter (fun c => !taken.any (fun u => u.2.2.contains c)) }) s) with
  | (use, s0) =>
    let s1 := loadStrategies n layer (passBegins n (beginSession n s0))
    let d1 := ((laneAt s1 n).disc).getD Disc.fresh
    let s2 := playReloc n d1 layer band use (setWr n (fun w => { w with bank := otherBank w.bank }) s1)
    let s3 := setDisc n (fun d => { d with sessionSectors := d.sessionSectors + 72 * use.length })
      (lbump n 0xE2 1 0 (72 * use.length) (lbump n 0xE2 6 0 (sumNat (use.map (fun u => 64 - u.2.2.length))) s2))
    let s4 := use.foldl (fun a u => checkSpare n layer u.1.val
      (recordCopies n layer u.1 band u.2.1 u.2.2 (readOk s n (readsOf verify u.1)) a)) s3
    offsetOf n (use.flatMap (fun u => readsOf verify u.1)) s4

/-- The lane returns from a relocation move (R269). -/
def endMove (n : LaneId) (s : State) : State :=
  setLane n (fun l =>
    match l.wr.moveFrom with
    | none => l
    | some b => { l with wr := { l.wr with moveFrom := none }, life := { l.life with targetBand := b } }) s

/-- RELOCATION_PASS (R267-R270): at the index of a spare band, one relocation pass that serves every track with copies queued; `verify`
holds what the V spots read of each track's sectors. -/
def relocationPass (n : LaneId) (verify : List (TrackId × List VerifyRead)) (s : State) : State :=
  let l := laneAt s n
  match l.disc, l.life.layer, l.life.band with
  | some d, some layer, some b =>
    let use := relocUses s l d layer b
    if mayRelocate s n && framedAt l.wr layer b 0 2 && !use.isEmpty then endMove n (asWriting n (relocate n layer b use verify) s)
    else s
  | _, _, _ => s

/-- RELOCATION_PASS. -/
def execRelocationPass (n : LaneId) (verify : List (TrackId × List VerifyRead)) (s : State) : Host.Outcome State Fault Refusal :=
  .next (relocationPass n verify s)

/-- Frames of bands below a band, spare bands counted, from a band on. -/
def framesFrom (b : Nat) (count : Nat) : Nat := sumNat ((upTo count).map (fun i => bandFrames (b + i)))

/-- The passes already due on the lane's layer, run in slot order from now without pause, reach the index of the next spare band within
L+43:03 revolutions (R269). DEDUCED (log 78): a lane that does not stand in the band of the first of them takes one revolution to reach it. -/
def dueCrosses (s : State) (n : LaneId) (layer b : Nat) : Bool :=
  let l := laneAt s n
  match l.disc with
  | none => false
  | some d =>
    let slots := ((dueOn s n).map (placeOf s d)).filterMap (fun pl => if pl.1 = layer then some pl.2.2 else none)
    match slots with
    | [] => false
    | p :: rest =>
      let b1 := (dataPlace (72 * rest.foldl min p)).1
      let sb := spareAfter b1
      let wait := lcfg s n 0x43 3 * bandFrames b1
      decide (dataFrame (sb + 1) 0 < 72 * rest.foldl max p + 72) &&
        decide (framesFrom b1 (sb - b1) + (if b = b1 then 0 else bandFrames b1) ≤ wait + (if b = b1 then l.wr.wobbleFrame else 0))

/-- RELOCATION_MOVE (R269): level 3 orders the lane to the nearest spare band of the layer with a free relocation slot on
every track concerned; it returns after the pass there. -/
def relocationMove (n : LaneId) (s : State) : State :=
  let l := laneAt s n
  match l.disc, l.life.layer, l.life.band with
  | some d, some layer, some b =>
    let ks := queuedTracks l.wr.queue layer
    if ks.isEmpty ∨ l.wr.moveFrom.isSome ∨ l.wr.pass.isSome ∨ !discOpen l d ∨ l.life.st ≠ .ready ∨ laneReading l ∨
        dueCrosses s n layer b then s
    else
      match nearestSpare d layer ks b with
      | none => s
      | some sb => setLane n (fun x => { x with
          wr := { x.wr with moveFrom := some b }, life := { x.life with targetBand := sb } }) s
  | _, _, _ => s

/-- RELOCATION_MOVE. -/
def execRelocationMove (n : LaneId) (s : State) : Host.Outcome State Fault Refusal := .next (relocationMove n s)

end Sys2Proof.Machine
end

