-- ==== Sys2Proof/Machine/WarmUp.lean ====
section
/-! DEFINITION. Warm-up calibration of a lane (11_warm_up.md). A part's means are kept as sums over the frames that it counted. -/

namespace Sys2Proof.Machine

/-- A lane's warm-up changed. -/
def setWarm (n : LaneId) (f : WarmUp → WarmUp) (s : State) : State := setLane n (fun l => { l with warm := f l.warm }) s

/-! ### Triggers (R507, R508, R522) -/

/-- The pickup temperature differs from a value by at least L+C0:03. -/
def tempMoved (s : State) (n : LaneId) (ref : Int) : Bool :=
  decide (lcfg s n 0xC0 3 ≤ ((laneAt s n).life.temp - ref).natAbs)

/-- The temperature trigger holds. -/
def tempTrigger (s : State) (n : LaneId) : Bool :=
  decide (lcfg s n 0xC0 7 = 1) && tempMoved s n (laneAt s n).warm.refTemp

/-- A trigger of R507 holds: DUE of R528. -/
def warmDue (s : State) (n : LaneId) : Bool :=
  let l := laneAt s n
  l.life.pickup.isSome && (decide (l.warm.asked ≠ 0) || l.warm.baseline || tempTrigger s n)

/-- A warm-up may start of itself, or is asked for. -/
def warmStarts (s : State) (n : LaneId) : Bool :=
  let w := (laneAt s n).warm
  decide (w.asked ≠ 0) || (!w.autoStopped && w.retryAt.isNone && (w.baseline || tempTrigger s n))

/-! ### Places and limits -/

/-- The index that a probed part measures (R510). -/
def probeIndex (part : Nat) : Nat := if part = 3 then 24 else if part = 4 then 26 else 27

/-- The part whose run keeps a host from writing an index (R525). -/
def partOfIndex (i : Nat) : Nat :=
  if i < 16 then 1 else if i < 24 then 0 else if i = 24 then 3 else if i = 25 then 2 else if i = 26 then 4
  else if i = 27 then 5 else 6

/-- Frames that a part, or a probe level, counts (R510). -/
def partFrames (part : Nat) : Nat := if part ≤ 2 then 64 else if part ≤ 5 then 8 else 16

/-- The window of an index (R520). -/
def windowOf (s : State) (n : LaneId) (i : Nat) : Nat := elem s (laneIdx n 0xC5) 1 2 (2 * i)

/-- The step of an index (R520). -/
def stepOf (s : State) (n : LaneId) (i : Nat) : Nat := elem s (laneIdx n 0xC5) 1 2 (2 * i + 1)

/-- The values that a part gives its indices against their limits (R520): 1 passed, 2 window, 3 step. -/
def judgeTrims (s : State) (n : LaneId) (vals : List (Nat × Int)) : Nat :=
  let w := (laneAt s n).warm
  if vals.any (fun v => decide (windowOf s n v.1 < (v.2 - w.factory.getD v.1 0).natAbs)) then 2
  else if vals.any (fun v => decide (stepOf s n v.1 < (v.2 - w.trims.getD v.1 0).natAbs)) then 3 else 1

/-- Values put into the trim set; RF trims take force at once where the lane is in no extent (R523). -/
def putTrims (n : LaneId) (vals : List (Nat × Int)) (s : State) : State :=
  takeRfAtOnce n (setWarm n (fun w => { w with trims := vals.foldl (fun t v => t.set v.1 v.2) w.trims }) s)

/-- The lowest unused test unit rounded up to a multiple of 4 (R517). -/
def firstUnit (d : Disc) (layer : Nat) : Nat := (d.testUnit[Fin.ofNat 8 layer] + 3) / 4 * 4

/-- The layer of the lane's next due write, or the layer in focus (R517 step 2). -/
def opcLayer (s : State) (n : LaneId) : Nat :=
  match nextPass s n with
  | some p => p.1
  | none => ((laneAt s n).life.layer).getD (laneAt s n).life.targetLayer

/-- Why WRITE_POWER is skipped (R519): 0 disc closed, 1 test units exhausted. -/
def opcSkip (s : State) (n : LaneId) : Option Nat :=
  match (laneAt s n).disc with
  | none => some 0
  | some d => if d.closed then some 0 else if 6400 < firstUnit d (opcLayer s n) + 4 then some 1 else none

/-! ### HOLDING for a warm-up (R143, R512, R517) -/

/-- A HOLDING lane whose cause has ended becomes READY, once it has returned from the test zone; idle time counts from there (R145,
R517). -/
def leaveHold (n : LaneId) (s : State) : State :=
  if (laneAt s n).life.st = .holding ∧ lcfg s n 0x01 2 ≠ 3 ∧ (laneAt s n).warm.backTo.isNone then
    enter n .ready (setLane n (fun l => { l with life := { l.life with idle := s.ticks } }) s)
  else s

/-- The lane stands at an extent boundary: no pass, no extent read. -/
def atExtentBoundary (l : Lane) : Bool :=
  decide (l.life.st = .ready ∨ l.life.st = .holding) && l.wr.pass.isNone && !laneReading l

/-- WRITE_POWER takes the boundary at which the lane stands (R517): at once where no extent is due, in any case after
L+C0:05. The lane goes to the band of the test units, and is to return to where it stands. -/
def opcHold (n : LaneId) (s : State) : State :=
  let l := laneAt s n
  if l.warm.running && l.warm.opcWaiting && atExtentBoundary l &&
      ((nextPass s n).isNone || passed s l.warm.started (msTicks (lcfg s n 0xC0 5))) then
    match l.disc with
    | none => s
    | some d =>
      let layer := opcLayer s n
      let u := firstUnit d layer
      orderTo n layer (testPlace u).1 (enter n .holding (setWarm n (fun w => { w with
        opcWaiting := false, testPass := some (layer, u)
        backTo := some (l.life.layer.getD l.life.targetLayer, l.life.band.getD l.life.targetBand) }) s))
  else s

/-- The lane has returned from the test zone (R517 step 6). -/
def opcReturned (n : LaneId) (s : State) : State :=
  let l := laneAt s n
  match l.warm.backTo with
  | some (layer, band) =>
    if l.warm.testPass.isNone ∧ l.life.layer = some layer ∧ standsAt l band then
      leaveHold n (setWarm n (fun w => { w with backTo := none }) s)
    else s
  | none => s

/-- What the end of an extent allows (R143, R144): HOLDING by the mode HOLD, or for WRITE_POWER. -/
def holdCheck (n : LaneId) (s : State) : State :=
  if (laneAt s n).life.st = .ready ∧ lcfg s n 0x01 2 = 3 then enter n .holding s else opcHold n s

/-- PASS_END. -/
def execPassEnd (n : LaneId) (s : State) : Host.Outcome State Fault Refusal := .next (holdCheck n (passEnd n s))

/-! ### The run (R508, R510, R521, R522) -/

/-- A run ends (R521, R522): accepted when every part that ran passed. -/
def warmEnd (n : LaneId) (s : State) : State :=
  let w := (laneAt s n).warm
  let temp := (laneAt s n).life.temp
  let now := timeNow s
  let s1 := leaveHold n (setWarm n (fun w => { w with
    running := false, part := 0, todo := [], opcWaiting := false, testPass := none, byHost := false }) s)
  if w.failed then
    let k := w.failures + 1
    let stop := decide (lcfg s n 0xC0 6 ≤ k)
    let s2 := setWarm n (fun w => { w with
      failures := k, failTemp := temp, autoStopped := w.autoStopped || stop
      retryAt := if stop then none else some (s.ticks + secTicks (lcfg s n 0xC0 4)) }) s1
    if stop && !w.autoStopped then raise 0x1604 [.u8 n.val, .u32 k] s2 else s2
  else
    let s2 := raise 0x1601 [.u8 n.val, .u16 (sumNat (w.ran.map (fun p => 2 ^ p))), .s32 temp]
      (lbump n 0xE7 1 1 1 (setLane n (fun l => { l with
        warm := { l.warm with refTemp := temp, accepted := now, baseline := false, failures := 0, retryAt := none, autoStopped := false }
        plife := { l.plife with warmUps := l.plife.warmUps + 1 } }) s1))
    if w.byHost ∧ (laneAt s n).wr.suspended then
      let s3 := setWr n (fun x => { x with suspended := false, abandoned := 0 }) s2
      if laneHolds (laneAt s3 n) then s3 else endWaits n s3
    else s2

/-- A part's result (L+C0:0C), with event 1602 and its count where it failed. -/
def partResult (n : LaneId) (part code : Nat) (s : State) : State :=
  let s1 := setWarm n (fun w => { w with results := w.results.set part code }) s
  if code = 1 ∨ code = 7 then s1
  else raise 0x1602 [.u8 n.val, .u8 part, .u8 code]
    (lbump n 0xE7 2 part 1 (setWarm n (fun w => { w with failed := w.failed || decide (part ≠ 0) }) s1))

/-- The next part of a run begins, or the run ends. -/
def beginPart (n : LaneId) : Nat → State → State
  | 0, s => s
  | fuel + 1, s =>
    match (laneAt s n).warm.todo with
    | [] => warmEnd n s
    | p :: rest =>
      let s1 := setWarm n (fun w => { w with
        part := p, todo := rest, ran := w.ran ++ [p], started := s.ticks, frames := 0, probe := 0, q := []
        v0 := w.trims.getD (probeIndex p) 0, opcWaiting := decide (p = 6) }) (leaveHold n s)
      if p = 6 then
        match opcSkip s1 n with
        | some r => beginPart n fuel (raise 0x1603 [.u8 n.val, .u8 (opcLayer s1 n), .u8 r] (partResult n 6 7 s1))
        | none => opcHold n s1
      else s1

/-- The part in progress ends with its result. -/
def endPart (n : LaneId) (code : Nat) (s : State) : State := beginPart n 8 (partResult n (laneAt s n).warm.part code s)

/-- WARM_UP_START (R507, R508): a due warm-up starts. -/
def warmUpStart (n : LaneId) (s : State) : State :=
  let l := laneAt s n
  if readyUp l.life.st && !l.warm.running && warmStarts s n then
    let asked := l.warm.asked
    beginPart n 8 (lbump n 0xE7 1 0 1 (setWarm n (fun w => { w with
      running := true, byHost := decide (asked ≠ 0), asked := 0, failed := false, ran := []
      todo := if asked = 0 then [1, 2, 3, 4, 5, 6] else [1, 2, 3, 4, 5, 6].filter (fun p => bit asked p)
      results := w.results.take 1 ++ List.replicate 6 0 }) s))
  else s

/-- WARM_UP_START. -/
def execWarmUpStart (n : LaneId) (s : State) : Host.Outcome State Fault Refusal := .next (warmUpStart n s)

/-- A lane fault or a disc departure meets a warm-up (R525): it ends, not accepted; parts passed keep their results, a probe
level reverts, and the warm-up is due again. -/
def warmCut (n : LaneId) (s : State) : State :=
  let w := (laneAt s n).warm
  let s0 := setWarm n (fun w => { w with detecting := false, backTo := none }) s
  if w.running then
    let again := if w.byHost then sumNat ((w.ran ++ w.todo).map (fun p => 2 ^ p)) else 0
    setWarm n (fun w => { w with asked := again, retryAt := none })
      (warmEnd n (setWarm n (fun w => { w with failed := true }) (partResult n w.part 6 s0)))
  else s0

/-! ### Results of the parts (R513 to R518, R520) -/

/-- ADC codes per 0.5 mV at the front end's input, in 2^-40 code, at a gain code (R288; 1.0 V over 256 codes, R822):
0.128 * 10^((0.25 g - 6) / 20), by the ratio 10^(1/80). -/
def codesPerHalfMv : Nat → Nat
  | 0 => 70535832456
  | g + 1 => codesPerHalfMv g * 1186587420355160254 / 2 ^ 60

/-- RF (R514): the mean AGC corrections and mean ADC samples of the 8 channels over the frames counted. -/
def rfValues (l : Lane) : List (Nat × Int) :=
  let w := l.warm
  allChans.flatMap (fun ch =>
    let c := ch.val
    let g := (gainCode l ch).toNat
    [(c, w.trims.getD c 0 + roundDiv (w.sums.getD c 0) w.frames),
     (8 + c, w.trims.getD (8 + c) 0 - roundDiv (w.sums.getD (8 + c) 0 * 2 ^ 40) (256 * w.frames * codesPerHalfMv (min g 144)))])

/-- At least 48 of the 64 frames carry no dropout flag, on every channel (R520). -/
def rfQuality (w : WarmUp) : Bool := (upTo 8).all (fun c => decide (48 ≤ w.sums.getD (16 + c) 0))

/-- TRACKING (R515): the mean crosstalk balance, in Q15. -/
def trackingValue (s : State) (n : LaneId) : Int :=
  let w := (laneAt s n).warm
  w.trims.getD 25 0 - roundDiv ((lcfg s n 0xC2 9 : Nat) * w.sums.getD 0 0) (32768 * w.frames)

/-- The result of a probe (R516) from v0, the step and the sums at its three levels, in 0.01 dB / 32; none where a quality test fails. -/
def probeResult (v0 d : Int) (q : List Int) : Option Int :=
  let q0 := q.getD 0 0
  let q2 := q.getD 2 0
  let c := q0 - 2 * q.getD 1 0 + q2
  if -5 * 32 < c then none
  else
    let den := -2 * c
    let num := d * (q0 - q2)
    if 2 * d * den < (num.natAbs : Int) then none else some (roundDiv (v0 * den - num) den.toNat)

/-- The values judged, and the part ended with the outcome. -/
def settlePart (n : LaneId) (ok : Bool) (vals : List (Nat × Int)) (s : State) : State :=
  let code := if ok then judgeTrims s n vals else 4
  endPart n code (if code = 1 then putTrims n vals s else s)

/-- The codes of a detector in the samples of DETECTOR (R513). -/
def detectorCodes (samples : List (List Int)) (j : Nat) : List Int := samples.map (fun x => x.getD j 0)

/-- Maximum less minimum of a list of codes (R520). -/
def spread : List Int → Int
  | [] => 0
  | a :: rest => rest.foldl max a - rest.foldl min a

/-- DETECTOR judged and put in force by itself (R508, R513): its 1,024 samples of D0 to D7. -/
def detectorEnd (n : LaneId) (samples : List (List Int)) (s : State) : State :=
  let w := (laneAt s n).warm
  let vals := (upTo 8).map (fun j => (16 + j, w.trims.getD (16 + j) 0 - roundDiv (sumInt (detectorCodes samples j)) 1024))
  let ok := (upTo 8).all (fun j => decide (spread (detectorCodes samples j) ≤ 256))
  let code := if ok then judgeTrims s n vals else 4
  partResult n 0 code (setWarm n (fun w => { w with detecting := false, detectorPending := false })
    (if code = 1 then putTrims n vals s else s))

/-- One level of a probe ends (R516). -/
def probeEnd (n : LaneId) (s : State) : State :=
  let w := (laneAt s n).warm
  let q := w.q ++ [w.sums.getD 0 0]
  if w.probe < 2 then setWarm n (fun w => { w with q := q, probe := w.probe + 1, frames := 0 }) s
  else
    let d := ((probeStep s n w).map (fun p => p.2)).getD 0
    let s1 := setWarm n (fun w => { w with q := q }) s
    match probeResult w.v0 d q with
    | some v => settlePart n true [(probeIndex w.part, v)] s1
    | none => settlePart n false [] s1

/-- WARM_UP_PART_END (R513 to R521): the measurement of DETECTOR ends with its 1,024 samples, or that of the part in progress, or of one
probe level, with its frames counted. -/
def warmUpPartEnd (n : LaneId) (samples : List (List Int)) (s : State) : State :=
  let l := laneAt s n
  let w := l.warm
  if w.detecting then (if samples.length = 1024 then detectorEnd n samples s else s)
  else if w.running ∧ partFrames w.part ≤ w.frames then
    if w.part = 1 then settlePart n (rfQuality w) (rfValues l) s
    else if w.part = 2 then settlePart n true [(25, trackingValue s n)] s
    else if w.part ≤ 5 then probeEnd n s
    else settlePart n (decide (w.q.length = 4)) ((upTo 4).map (fun k => (28 + k, w.q.getD k 0))) s
  else s

/-- WARM_UP_PART_END. -/
def execWarmUpPartEnd (n : LaneId) (samples : List (List Int)) (s : State) : Host.Outcome State Fault Refusal :=
  .next (warmUpPartEnd n samples s)

/-- WARM_UP_PART_TIMEOUT (R512): an in-line part that has not counted its frames within L+C0:08 fails with no data. -/
def execWarmUpPartTimeout (n : LaneId) (s : State) : Host.Outcome State Fault Refusal :=
  let w := (laneAt s n).warm
  if w.running ∧ 1 ≤ w.part ∧ w.part ≤ 5 ∧ w.frames < partFrames w.part ∧
      passed s w.started (msTicks (lcfg s n 0xC0 8)) then .next (endPart n 5 s)
  else .next s

/-! ### Warm-up reads (R512) -/

/-- An extent read that begins. -/
def newJob (layer slot : Nat) (band : Option Nat) (leadIn : Bool) (e : Nat) : ReadJob :=
  { layer := layer, slot := slot, relocBand := band, leadIn := leadIn, e := e, sectors := [], next := 0, step := 0, reads := 0
    phase := 0, todo := [] }

/-- Lead-in block reads on every track. -/
def leadJobs (layer : Nat) : Vector (Option ReadJob) 4 := Vector.replicate 4 (some (newJob layer 0 none true 0))

/-- Reads of a slot on every track that does not skip it. -/
def slotJobs (d : Disc) (layer slot : Nat) : Vector (Option ReadJob) 4 :=
  Vector.ofFn (fun k : Fin 4 =>
    (indexOfSlot d.skips[trackPos layer k.val] slot).map (fun j => newJob layer slot none false (logicalExtent layer k.val j)))

/-- The recorded slot nearest to a band on a layer; none where the layer holds none. -/
def nearestRecorded (d : Disc) (layer b : Nat) : Option Nat :=
  let top := allTracks.foldl (fun a k => max a d.nextSlot[trackPos layer k.val]) 0
  if top = 0 then none else some (min (dataFrame (max b 500) 0 / 72) (top - 1))

/-- A lane of the holder of PAIRSEL turns at a velocity at which Yalzo reads (R286, R663). -/
def readable (s : State) (n : LaneId) : Bool :=
  let l := laneAt s n
  s.pair.hold && l.spin.atSpeed && decide (2496 ≤ velocity l ∧ velocity l ≤ 9984)

/-- WARM_UP_READ (R512, R286): 100 ms without an extent read; the lane becomes HOLDING, goes to the nearest recorded slot, or to the lead-in,
and reads it. -/
def warmUpRead (n : LaneId) (s : State) : State :=
  let l := laneAt s n
  if l.warm.running ∧ 1 ≤ l.warm.part ∧ l.warm.part ≤ 5 ∧ atExtentBoundary l ∧
      passed s (max l.life.idle l.warm.started) (msTicks 100) then
    match l.disc, l.life.layer with
    | some d, some layer =>
      let near := nearestRecorded d layer (l.life.band.getD 0)
      let band := (near.map (fun p => (dataPlace (72 * p)).1)).getD 220
      let s1 := enter n .holding s
      if !standsAt l band then orderTo n layer band s1
      else if readable s n then
        frameBegins n (idleChannels n (setLane n (fun l => { l with rd := { l.rd with
          jobs := (near.map (slotJobs d layer)).getD (leadJobs layer) } }) s1))
      else s1
    | _, _ => s
  else s

/-- WARM_UP_READ. -/
def execWarmUpRead (n : LaneId) (s : State) : Host.Outcome State Fault Refusal := .next (warmUpRead n s)

/-! ### WRITE_POWER (R517 to R519) -/

/-- OPC_WAIT_EXPIRE (R517): the lane becomes HOLDING at the boundary at which it stands, else at the next one. -/
def execOpcWaitExpire (n : LaneId) (s : State) : Host.Outcome State Fault Refusal := .next (opcHold n s)

/-- First frame j with beta_j <= t < beta_(j+1). -/
def betaCross (t : Int) (b : List Int) : Option Nat := (upTo 15).find? (fun j => decide (b.getD j 0 ≤ t) && decide (t < b.getD (j + 1) 0))

/-- The factor of a spot from its 16 betas and differing bits (R518); none where a quality hurdle fails (R520). -/
def opcFactor (t old : Int) (limit : Nat) (b : List Int) (diffs : List Nat) : Option Int :=
  let rises := ((upTo 15).filter (fun j => decide (b.getD j 0 < b.getD (j + 1) 0))).length
  match betaCross t b with
  | none => none
  | some j =>
    let bj := b.getD j 0
    let w := b.getD (j + 1) 0 - bj
    let near := if w ≤ 2 * (t - bj) then j + 1 else j
    if 12 ≤ rises ∧ b.getD 0 0 ≤ t ∧ t ≤ b.getD 15 0 ∧ diffs.getD near 0 ≤ limit then
      some (roundDiv (old * ((790 + 28 * (j : Int)) * w + 28 * (t - bj))) (1000 * w.toNat))
    else none

/-- A table with Pw, Pk and Pc scaled by s_j = 0.790 + 0.028 j (R517 step 4). -/
def scaledTable (t : Bytes) (j : Nat) : Bytes :=
  patch t 2 ((upTo 3).flatMap (fun i => toLEInt 2 (roundDiv ((field t (2 + 2 * i) 2 : Int) * (790 + 28 * (j : Int))) 1000)))

/-- One test frame on the four tracks (R228, R229): its tables and its symbols. -/
def testFrame (n : LaneId) (d : Disc) (layer u0 j : Nat) (s : State) : State :=
  let w := (laneAt s n).wr
  let o := otherBank w.bank
  let tabs : Vector Bytes 4 := Vector.ofFn (fun k : Fin 4 => scaledTable w.tables[k] j)
  let s1 := allTracks.foldl (fun a k => sendLaser n 1 ([byte k.val, byte o.val] ++ tabs[k]) a) s
  let r := allTracks.foldl (fun (acc : List (Nat × List Bool) × State) k =>
    match drawBytes 4096 acc.2 with
    | (user, a1) =>
      match draw (2 ^ 32) a1 with
      | (dra, a2) =>
        match testPlace (u0 + k.val) with
        | (band, _, f) =>
          let msg := user ++ metadata dra layer k.val j 4 (u0 + k.val) d.openEpoch (namespaceTag d) user
          (acc.1 ++ [(k.val, sectorBits (psaOf layer band (f + j) k.val) msg)], a2)) ([], s1)
  sendSymbols n true r.1 (setWr n (fun w => { w with bank := o, banks := w.banks.set o tabs }) (countEnergy n [0, 1, 2, 3] r.2))

/-- The disc takes a pass in the test zone: not closed, under no scan, with no close to be written first (R213, R226, R227). -/
def testable (d : Disc) : Bool := !d.closed && !d.scanDue && d.closeDue.isNone

/-- The 16 test frames of a visit, the units that they use, and the factors that their betas and differing bits give (R517, R518). -/
def testVisit (n : LaneId) (layer u0 : Nat) (beta : List (List Int)) (diffs : List (List Nat)) (s : State) : State :=
  let l := laneAt s n
  let s1 := loadStrategies n layer (passBegins n (beginSession n s))
  let d1 := ((laneAt s1 n).disc).getD Disc.fresh
  let s2 := (upTo 16).foldl (fun a j => testFrame n d1 layer u0 j a) s1
  let s3 := lbump n 0xE7 3 0 (u0 + 4 - d1.testUnit[Fin.ofNat 8 layer]) (setDisc n (fun d => { d with
    testUnit := d.testUnit.set (Fin.ofNat 8 layer) (u0 + 4), sessionSectors := d.sessionSectors + 64 }) s2)
  let factors := (upTo 4).filterMap (fun k =>
    opcFactor (lcfgInt s n 0xC4 2) (l.warm.trims.getD (28 + k) 0) (lcfg s n 0x40 1) (beta.getD k []) (diffs.getD k []))
  setWarm n (fun w => { w with q := factors, frames := 16, testPass := none }) s3

/-- WRITE_POWER_PASS (R517 to R519): at its first frame in the test zone, the visit with its measured betas (Q15) and differing bits by
track and frame; the lane then goes back to the band and layer that it left. -/
def writePowerPass (n : LaneId) (beta : List (List Int)) (diffs : List (List Nat)) (s0 : State) : State :=
  match (laneAt s0 n).warm.testPass, (laneAt s0 n).disc with
  | some (layer, u0), some d =>
    let s := if (laneAt s0 n).life.st = .holding then slowForWrite n s0 else s0
    let l := laneAt s n
    match testPlace u0 with
    | (band, _, frame) =>
      if l.warm.running ∧ l.warm.part = 6 ∧ l.life.st = .holding ∧ testable d ∧ mayRecord s n ∧ framedAt l.wr layer band frame 3 then
        let back := l.warm.backTo.getD (layer, band)
        opcReturned n (orderTo n back.1 back.2 (testVisit n layer u0 beta diffs s))
      else s
  | _, _ => s0

/-- WRITE_POWER_PASS. -/
def execWritePowerPass (n : LaneId) (beta : List (List Int)) (diffs : List (List Nat)) (s : State) :
    Host.Outcome State Fault Refusal := .next (writePowerPass n beta diffs s)

/-- WARM_UP_RETRY (R522): the retry interval has passed; the automatic warm-up starts again. -/
def execWarmUpRetry (n : LaneId) (s : State) : Host.Outcome State Fault Refusal :=
  match (laneAt s n).warm.retryAt with
  | some t => if t ≤ s.ticks then .next (warmUpStart n (setWarm n (fun w => { w with retryAt := none }) s)) else .next s
  | none => .next s

/-- A temperature read ends a stop of automatic warm-ups when it has moved from its value at the last failure (R522). -/
def warmResume (n : LaneId) (s : State) : State :=
  let w := (laneAt s n).warm
  if w.autoStopped && tempMoved s n w.failTemp then setWarm n (fun w => { w with autoStopped := false, failures := 0 }) s else s

/-! ### Written entries (R509, R525, R527) -/

/-- L+C0:01. -/
def startWarmEffect (n : LaneId) (v : Bytes) (s : State) : Eff :=
  let m := fromLE v
  let l := laneAt s n
  if l.warm.running then .error 0x0501
  else if m ≠ 1 ∧ !readyUp l.life.st then .error 0x0401
  else .ok (setWarm n (fun w => { w with
    asked := m - m % 2, detectorPending := w.detectorPending || bit m 0
    failures := if w.autoStopped then 0 else w.failures, autoStopped := false }) s)

/-- A write of trims from an index on (R525): the window where the entry names it, and the part that runs. -/
def trimEffect (n : LaneId) (first : Nat) (vals : List Int) (window : Bool) (s : State) : Eff :=
  let w := (laneAt s n).warm
  let l := (upTo vals.length).map (fun i => (first + i, vals.getD i 0))
  if window && l.any (fun v => decide (windowOf s n v.1 < (v.2 - w.factory.getD v.1 0).natAbs)) then .error 0x0301
  else if l.any (fun v => (w.running && decide (w.part = partOfIndex v.1)) || (w.detecting && decide (partOfIndex v.1 = 0))) then
    .error 0x0501
  else .ok (putTrims n l s)

/-- The 32 trims of a trim set (R503, R526). -/
def trimWords (v : Bytes) : List Int := (upTo 32).map (fun i => fromLEInt (slice v (2 * i) 2))

/-- L+C1:01: a trim set is restored (R527). -/
def trimRestoreEffect (n : LaneId) (v : Bytes) (s : State) : Eff :=
  let w := (laneAt s n).warm
  let t := trimWords v
  if (slice v 66 6).any (fun b => decide (b ≠ 0)) then .error 0x0303
  else if (upTo 32).any (fun i => decide (windowOf s n i < (t.getD i 0 - w.factory.getD i 0).natAbs)) then .error 0x0301
  else if w.running || w.detecting then .error 0x0501
  else .ok (raise 0x1601 [.u8 n.val, .u16 0, .s32 (laneAt s n).life.temp]
    (setWarm n (fun w => { w with
      refTemp := fromLEInt (slice v 64 2), accepted := field v 72 8, baseline := false, failures := 0, retryAt := none
      autoStopped := false }) (putTrims n ((upTo 32).map (fun i => (i, t.getD i 0))) s)))

/-- The trim set as L+C1:01 holds it (R526). -/
def trimSetBytes (w : WarmUp) : Bytes :=
  w.trims.flatMap (toLEInt 2) ++ toLEInt 2 w.refTemp ++ zeroBytes 6 ++ toLE 8 w.accepted

end Sys2Proof.Machine
end

