-- ==== Sys2Proof/Machine/LaneFault.lean ====
section
/-! DEFINITION. Lane faults and recovery (R36, R49, R53, R168 to R173, R839). -/

namespace Sys2Proof.Machine

/-! ### Detection (R49, R53, R168, R169) -/

/-- The codes of R169 that level 2 detects on a lane. -/
def faultCodes : List Nat :=
  [0x1101, 0x1102, 0x1103, 0x1104, 0x1105, 0x1106, 0x1107, 0x1108, 0x1109, 0x110A, 0x110B, 0x110C, 0x110D, 0x110E, 0x1110]

/-- A fault detected with what it says of its links or rotor: a front-end die carries the LASER link's transmitter (R50). -/
def detectCode (n : LaneId) (code : Nat) (s : State) : State :=
  let s1 := setLane n (fun l => { l with links := { l.links with
    driveTrained := l.links.driveTrained && decide (code ≠ 0x1106)
    laserTrained := l.links.laserTrained && decide (code ≠ 0x1107 ∧ code ≠ 0x1108) } }) s
  if code = 0x1104 then rotorLost n s1 else detectFault n code s1

/-- A lane may take a lane fault: every state except OFF (R144). -/
def mayFault (l : Lane) : Bool := decide (l.life.st ≠ .off)

/-- Lanes of a front-end die (R10, R53): 8 to the die. -/
def lanesOfDie (d : Fin 4) : List LaneId := allLanes.filter (fun n => decide (n.val / 8 = d.val))

/-- LANE_FAULT_DETECT (R49, R53). -/
def laneFaultDetect (src : FaultSource) (s : State) : State :=
  match src with
  | .lane n code => if mayFault (laneAt s n) && faultCodes.contains code then detectCode n code s else s
  | .die d => (lanesOfDie d).foldl (fun a n => if mayFault (laneAt a n) then detectCode n 0x1108 a else a) s

/-- LANE_FAULT_DETECT. -/
def execLaneFaultDetect (src : FaultSource) (s : State) : Host.Outcome State Fault Refusal := .next (laneFaultDetect src s)

/-! ### Collection (R168 to R173) -/

/-- The re-entry state of a fault (R169); that of 1104 is as the spindle's response leaves it. -/
def reentryOf (l : Lane) (code : Nat) : LaneState :=
  if code = 0x1101 ∨ code = 0x1102 then .spun
  else if code = 0x1103 then .focused
  else if code = 0x1104 then (if l.spin.phase = 3 ∨ l.spin.phase = 6 then .spun else .parked)
  else if code = 0x1107 ∨ code = 0x110E then .tracking
  else if code = 0x110D ∨ code = 0x1110 then .off
  else .parked

/-- No recovery follows the fault, and it counts no attempt (R146). -/
def noRecovery (code : Nat) : Bool := decide (code = 0x110C ∨ code = 0x110D ∨ code = 0x1110)

/-- The lower of two states. -/
def lowerState (a b : LaneState) : LaneState := if a.code ≤ b.code then a else b

/-- Ticks of the attempts still within the window (R173). -/
def attemptsNow (s : State) (n : LaneId) : List Nat :=
  ((laneAt s n).flt.attempts).filter (fun t => decide (s.ticks < t + secTicks (lcfg s n 0x02 5)))

/-- What a latched fault does to commands and warnings (R588, R592, R543). -/
def latchEnds (n : LaneId) (s : State) : State :=
  warningCheck (match teamOfLane s n with
    | some t => endOnLane t n true (fun _ => true) s
    | none => s)

/-- The lane ramps down to rest where it turns (R147, R173). -/
def rampIfTurning (n : LaneId) (s : State) : State :=
  let l := laneAt s n
  if l.spin.phase = 0 ∨ l.life.ramping ∨ l.spin.phase = 5 then s else rampOrder n s

/-- A lane's fault latches (R173): event 110F with the attempts within the window. -/
def latchFault (n : LaneId) (code : Nat) (s : State) : State :=
  latchEnds n (raise 0x110F [.u8 n.val, .u16 code, .u8 (attemptsNow s n).length]
    (setLane n (fun l => { l with flt := { l.flt with latched := true, recovering := false } }) s))

/-- A recovery attempt is counted (R171, R172); beyond the limit the fault latches (R173). -/
def countAttempt (n : LaneId) (s : State) : State :=
  let l := s.ticks :: attemptsNow s n
  let s1 := setLane n (fun x => { x with flt := { x.flt with attempts := l } }) s
  if lcfg s n 0x02 4 < l.length then latchFault n (laneAt s n).flt.last (rampIfTurning n s1) else s1

/-- A ladder that is suspended: its step will be run again from its beginning, with the soft values held (R356). -/
def suspendJob (held job : Option ReadJob) : Option ReadJob :=
  let again (j : ReadJob) : Option ReadJob := if !j.leadIn ∧ (j.phase = 2 ∨ j.step ≠ 0) then some { j with next := 72, reads := 0, phase := 2, todo := [] } else none
  match held with
  | some h => again h
  | none => job.bind again

/-- The lane's extents in progress are disposed of (R170): the pass is cut, extent reads are dropped to be read again, a ladder
is suspended (R356), and a session that is open stays open on the disc (R213, R214). -/
def dropExtents (n : LaneId) (s : State) : State :=
  setLane n (fun l => { l with rd := { l.rd with
                                 jobs := Vector.replicate 4 none, trackOffset := 0, focusOffset := 0
                                 held := Vector.ofFn (fun k : Fin 4 => suspendJob l.rd.held[k] l.rd.jobs[k]) }
                               disc := l.disc.map sessionLeft
                               pace := { l.pace with override := none } }) (cutPass n s)

/-- Level 3 sets the lane to FAULT, with what R162, R168 to R173, R525 and R588 make of it. `at'` is the lane's state at detection;
recovery goes on from the lower of the re-entry states. DEDUCED (log 74): it never enters above the state at detection. -/
def enterFault (n : LaneId) (code : Nat) (at' : LaneState) (s0 : State) : State :=
  let s := setLane n endHoming s0
  let l := laneAt s n
  let re := reentryOf l code
  let low := lowerState re at'
  let again := l.flt.recovering && !noRecovery code
  let s1 := raise code [.u8 n.val, .u8 at'.code, .u8 re.code] (enter n .fault (setLane n (fun l => { l with
    flt := { l.flt with
      last := code, reentry := re, recovering := again, rehome := l.flt.rehome || decide (code = 0x1105)
      resume := if l.flt.recovering then lowerState low l.flt.resume else low }
    life := { l.life with spinning := false, mismatches := 0, jump := none }
    startWaiting := false
    wr := { l.wr with clockLocked := false, goodFrames := 0, badFrames := 0, badWobbles := 0 } }) s))
  let s2 := warmCut n (beginWaits n (abortCreationOf n (dropExtents n s1)))
  if l.flt.latched then latchEnds n (rampIfTurning n s2)
  else if code = 0x1101 ∧ l.loop.overrun.stopped then latchFault n code s2
  else if again then countAttempt n s2 else s2

/-- The next posted fault of a lane with the state at its detection, and the ring without it. -/
def takeFault : List Completion → Option (Nat × LaneState × List Completion)
  | [] => none
  | .fault c a :: rest => some (c, a, rest)
  | x :: rest => (takeFault rest).map (fun r => (r.1, r.2.1, x :: r.2.2))

/-- LANE_FAULT (R168): level 3 collects a posted fault. A lane that is OFF keeps its state: the fault is logged (R155). -/
def laneFault (n : LaneId) (s0 : State) : State :=
  let s := collect n s0
  let l := laneAt s n
  match takeFault l.flt.completions with
  | none => s
  | some (code, at', rest) =>
    let s1 := setLane n (fun l => { l with flt := { l.flt with completions := rest } }) s
    if mayFault l then enterFault n code at' s1
    else raise code [.u8 n.val, .u8 at'.code, .u8 LaneState.off.code]
      (setLane n (fun l => { l with flt := { l.flt with last := code, reentry := .off, resume := .off } }) s1)

/-- LANE_FAULT. -/
def execLaneFault (n : LaneId) (s : State) : Host.Outcome State Fault Refusal := .next (laneFault n s)

/-- Posted faults collected, `k` of them. -/
def collectFaults (n : LaneId) : Nat → State → State
  | 0, s => s
  | k + 1, s => collectFaults n k (laneFault n s)

/-- A fault detected and collected at once with those posted before it, where a rule orders it before another event (R146, R160). -/
def faultNow (n : LaneId) (code : Nat) (s : State) : State :=
  let s1 := detectCode n code s
  collectFaults n (((laneAt s1 n).flt.completions.filter Completion.isFault).length) s1

/-! ### Recovery (R169, R171, R839, R840) -/

/-- Temperature limit in force (R840, L+04:05), 0.1 degC. -/
def tempLimit (s : State) (n : LaneId) : Int :=
  match (laneAt s n).life.pickup with
  | none => 0
  | some p => let v := fromLEInt (slice p.image 100 2); if v = 0 then lcfgInt s n 0x04 6 else v

/-- What the fault's row of R169 asks for before recovery has come about. -/
def recoveryReady (s : State) (n : LaneId) : Bool :=
  let l := laneAt s n
  let spindle := if l.flt.resume = .parked then decide (l.spin.phase = 0) && !l.life.ramping else decide (l.spin.phase = 3)
  spindle && !(decide (l.flt.last = 0x1109) && decide (tempLimit s n - 50 < l.life.temp)) &&
    !(l.loop.overrun.reloadObs || l.loop.overrun.reloadBq) && l.life.pickup.isSome

/-- Loops as the re-entry state has them (R140). -/
def reenter (n : LaneId) (st : LaneState) (s : State) : State :=
  let s1 := match st with
    | .focused => openTracking n s
    | .tracking => s
    | _ => openFocus n s
  enter n st (setLane n (fun l => { l with
    flt := { l.flt with safe := false, recovering := decide (st ≠ .parked) || (l.life.disc.stable && l.life.clamp.stable) }
    life := { l.life with
      layer := if st = .parked ∨ st = .spun then none else l.life.layer
      band := if st = .tracking then l.life.band else none, jump := none }
    loop := { l.loop with overrun := { l.loop.overrun with zero := l.loop.overrun.zero && decide (st = .spun) } } }) s1)

end Sys2Proof.Machine
end

