-- ==== Sys2Proof/Machine/LaneLife.lean ====
section
/-! DEFINITION. The life of a lane: lines, pickup, links, homing, disc, lead-in, sessions and volumes (03_lane_life.md,
R212 to R227). -/

namespace Sys2Proof.Machine

/-- A lane's life changed. -/
def setLife (n : LaneId) (f : Life → Life) (s : State) : State := setLane n (fun l => { l with life := f l.life }) s

/-- A lane's links changed. -/
def setLinks (n : LaneId) (f : Links → Links) (s : State) : State := setLane n (fun l => { l with links := f l.links }) s

/-- A disc is clamped: both lines stable. -/
def clamped (l : Lane) : Bool := l.life.disc.stable && l.life.clamp.stable

/-- STAND or SLEEP is the target of the request that runs, and no I/O command is in flight any more (R696 steps 3 and 4). -/
def standing (s : State) : Bool :=
  (s.power.running.map (fun r => decide (3 ≤ r.ps))).getD false && s.host.flights.all (fun f => decide (f.c.sq = 0))

/-! ### PARKED and OFF (R140, R144, R156, R214) -/

/-- Event 2001 for a disc not yet announced (R133, R156). -/
def announceDisc (n : LaneId) (s : State) : State :=
  let l := laneAt s n
  if clamped l ∧ !l.life.discKnown then
    raise 0x2001 [.u8 n.val] (setLife n (fun f => { f with discKnown := true, leadIn := .unread }) s)
  else s

/-- An open session stays open on the disc of a lane that leaves READY to HOLDING (R213, R214). -/
def dropClose (n : LaneId) (s : State) : State := setDisc n sessionLeft s

/-- A spindle that still turns is brought to rest by short braking. -/
def brakeIfTurning (n : LaneId) (s : State) : State :=
  if (laneAt s n).spin.phase = 0 ∨ (laneAt s n).spin.phase = 5 then s else shortBrake n s

/-- A lane is OFF. -/
def enterOff (n : LaneId) (s : State) : State :=
  enter n .off (dropClose n (openFocus n (setLane n (fun l => { endHoming l with
    life := { l.life with homing := false, homed := false, ramping := false, spinning := false, layer := none, band := none, jump := none }
    flt := { l.flt with recovering := false, rehome := false, resetting := false, safe := false }
    startWaiting := false }) s)))

/-- A lane enters PARKED. -/
def enterParked (n : LaneId) (s : State) : State :=
  announceDisc n (enter n .parked (dropClose n (setLane n (fun l => { l with
    life := { l.life with
      homing := false, ramping := false, spinning := false, layer := none, band := none, jump := none, sweeps := 0, mismatches := 0 }
    spin := { l.spin with stopping := false, wobbleValid := false }
    plife := { l.plife with due := true }
    startWaiting := false }) (openFocus n s))))

/-! ### Lines (R150, R156) -/

/-- A line sampled. -/
def Line.sample (tick : Nat) (v : Bool) (x : Line) : Line := if x.raw = v then x else { x with raw := v, since := tick }

/-- The line has settled: its last change has been stable for 50 ms. -/
def Line.settled (tick : Nat) (x : Line) : Bool := decide (x.raw ≠ x.stable) && decide (x.since + msTicks 50 ≤ tick)

/-- PRESENCE_SAMPLE (R150, R156), in every unit state except SLEEP. -/
def execPresenceSample (n : LaneId) (presence disc clamp : Bool) (s : State) : Host.Outcome State Fault Refusal :=
  if s.power.unit = 2 then .next s
  else .next (setLife n (fun f => { f with
    presence := f.presence.sample s.ticks presence, disc := f.disc.sample s.ticks disc, clamp := f.clamp.sample s.ticks clamp }) s)

/-! ### Links and homing (R154, R155, R785, R794, R839) -/

/-- The lane may leave OFF (R144, R173). -/
def mayLeaveOff (s : State) (n : LaneId) : Bool :=
  let l := laneAt s n
  decide (l.life.st = .off) && l.life.pickup.isSome && decide (lcfg s n 0x01 1 = 1) && !l.flt.latched && decide (s.power.unit ≠ 2)

/-- Homing begins once both links are trained. -/
def homeIfTrained (n : LaneId) (s : State) : State :=
  let l := laneAt s n
  if mayLeaveOff s n && l.links.driveTrained && l.links.laserTrained && !l.life.homing then beginHoming n s else s

/-- A training begins (L+E9:03). -/
def startTraining (n : LaneId) (laser : Bool) (s : State) : State :=
  let s1 := lbump n 0xE9 3 (b2n laser) 1 (setLinks n (fun k =>
    if laser then { k with laserTraining := true, laserTrained := false, laserFrom := s.ticks }
    else { k with driveTraining := true, driveTrained := false, driveFrom := s.ticks }) s)
  if laser then sendTraining n s1 else s1

/-- The trainings of R154 begin on a lane that may leave OFF; links still trained are kept. -/
def leaveOff (n : LaneId) (s : State) : State :=
  if mayLeaveOff s n then
    let k := (laneAt s n).links
    let s1 := setLinks n (fun k => { k with driveTries := 1, laserTries := 1 }) s
    let s2 := if k.driveTrained then s1 else startTraining n false s1
    homeIfTrained n (if k.laserTrained then s2 else startTraining n true s2)
  else s

/-- A lane whose cause for OFF has come: OFF where its spindle is at rest, else once short braking has brought it there (R838); the
trainings of R154 follow where a pickup has been accepted meanwhile. -/
def offAtRest (n : LaneId) (s : State) : State :=
  if (laneAt s n).spin.phase = 0 then leaveOff n (enterOff n s) else brakeIfTurning n s

/-- The link that a lane in FAULT waits for: true for LASER. -/
def lostLink (l : Lane) : Option Bool :=
  if !l.links.driveTrained then some false else if !l.links.laserTrained then some true else none

/-- The spindle of a lane that re-enters at PARKED is still driven (R169). -/
def mustRamp (l : Lane) : Bool :=
  decide (l.flt.resume = .parked) && decide (l.spin.phase ≠ 0 ∧ l.spin.phase ≠ 4 ∧ l.spin.phase ≠ 5) && !l.life.ramping

/-- A recovery may go on with its next part: a retrain, a ramp-down, homing, or the re-entry. -/
def recoveryStands (s : State) (n : LaneId) : Bool :=
  let l := laneAt s n
  match lostLink l with
  | some laser => l.links.retrainAt.isNone && !(if laser then l.links.laserTraining else l.links.driveTraining)
  | none => mustRamp l || recoveryReady s n

/-- The next part of a recovery (R169, R171, R172, R839): a lost link is retrained, the spindle ramps down to re-enter at PARKED, the sled
homes after 1105, and the lane re-enters. -/
def recoveryGoes (n : LaneId) (s : State) : State :=
  let l := laneAt s n
  match lostLink l with
  | some laser => startTraining n laser s
  | none =>
    if mustRamp l then rampOrder n s
    else if l.flt.rehome && decide (l.flt.resume = .parked) then beginHoming n s
    else reenter n l.flt.resume s

/-- LINK_TRAINING_DONE: event 1802 (R808); a recovery that waited for the link goes on (R169). -/
def linkTrainingDone (n : LaneId) (laser : Bool) (s : State) : State :=
  let k := (laneAt s n).links
  if (if laser then k.laserTraining else k.driveTraining) then
    let took := tickNs (s.ticks - (if laser then k.laserFrom else k.driveFrom)) / 1000
    let s1 := raise 0x1802 [.u8 n.val, .u8 (b2n laser), .u32 took] (setLinks n (fun k =>
      if laser then { k with laserTraining := false, laserTrained := true, retrainAt := none, laserBad := 0, laserSeen := s.ticks }
      else { k with driveTraining := false, driveTrained := true, retrainAt := none, driveBad := 0, driveSeen := s.ticks }) s)
    let l := laneAt s1 n
    if l.life.st = .fault then (if l.flt.recovering && recoveryStands s1 n then recoveryGoes n s1 else s1)
    else homeIfTrained n s1
  else s

/-- LINK_TRAINING_DONE. -/
def execLinkTrainingDone (n : LaneId) (laser : Bool) (s : State) : Host.Outcome State Fault Refusal := .next (linkTrainingDone n laser s)

/-- No posted fault waits on the lane. -/
def noFault (l : Lane) : Bool := !l.flt.completions.any Completion.isFault

/-- A lane in FAULT that level 3 may recover: not latched, not to be reset, with a recovery by its fault's row, and no fault posted. -/
def mayRecover (l : Lane) : Bool :=
  decide (l.life.st = .fault) && !l.flt.latched && !l.flt.resetting && !noRecovery l.flt.last && !l.life.homing && noFault l

/-- LANE_RECOVERY (R171, R172, R839): recovery counts an attempt, unless it restarts one that a further fault broke, which has been
counted. -/
def laneRecovery (n : LaneId) (s : State) : State :=
  let l := laneAt s n
  if mayRecover l && recoveryStands s n then
    let s1 := if l.flt.recovering then s else countAttempt n s
    if (laneAt s1 n).flt.latched then s1
    else recoveryGoes n (setLane n (fun l => { l with flt := { l.flt with recovering := true } }) s1)
  else s

/-- LANE_RECOVERY. -/
def execLaneRecovery (n : LaneId) (s : State) : Host.Outcome State Fault Refusal := .next (laneRecovery n s)

/-- LINK_TRAINING_TIMEOUT, 1 ms after a training began (R785, R794): up to three trainings at acceptance, then event 1003 with
reason 5 or 6 (R154); a failed retrain counts a further attempt (R839). -/
def linkTrainingTimeout (n : LaneId) (laser : Bool) (s : State) : State :=
  let l := laneAt s n
  let k := l.links
  if (if laser then k.laserTraining else k.driveTraining) && passed s (if laser then k.laserFrom else k.driveFrom) (msTicks 1) then
    let stopped := setLinks n (fun k => if laser then { k with laserTraining := false } else { k with driveTraining := false }) s
    if l.life.st = .fault then countAttempt n (setLinks n (fun k => { k with retrainAt := some s.ticks }) stopped)
    else if (if laser then k.laserTries else k.driveTries) < 3 then
      startTraining n laser (setLinks n (fun k =>
        if laser then { k with laserTries := k.laserTries + 1 } else { k with driveTries := k.driveTries + 1 }) stopped)
    else raise 0x1003 [.u8 n.val, .u8 (if laser then 6 else 5)] stopped
  else s

/-- LINK_TRAINING_TIMEOUT. -/
def execLinkTrainingTimeout (n : LaneId) (laser : Bool) (s : State) : Host.Outcome State Fault Refusal :=
  .next (linkTrainingTimeout n laser s)

/-- LINK_RETRAIN_RETRY (R839): 100 ms after a failed retrain ended. -/
def execLinkRetrainRetry (n : LaneId) (laser : Bool) (s : State) : Host.Outcome State Fault Refusal :=
  let l := laneAt s n
  let untrained := if laser then !l.links.laserTrained && !l.links.laserTraining else !l.links.driveTrained && !l.links.driveTraining
  match l.links.retrainAt with
  | some t =>
    if l.life.st = .fault ∧ !l.flt.latched ∧ untrained ∧ passed s t (msTicks 100) then
      .next (startTraining n laser (setLinks n (fun k => { k with retrainAt := none }) s))
    else .next s
  | none => .next s

/-- HOMING_STALL (R154, R465, R499): the load angle shows a stall; the sled backs off to park, the coordinate is set and the lane enters
PARKED. -/
def homingStall (n : LaneId) (s : State) : State :=
  let l := laneAt s n
  if l.life.homing && sledStalled s n then
    let s1 := lbump n 0xE6 5 0 1 (homeCoordinate n (setLane n (fun l => { l with
      life := { l.life with homing := false, homed := true }, flt := { l.flt with rehome := false } }) (backOff n s)))
    if l.life.st = .fault then enterParked n (reenter n .parked s1) else enterParked n s1
  else s

/-- HOMING_STALL. -/
def execHomingStall (n : LaneId) (s : State) : Host.Outcome State Fault Refusal := .next (homingStall n s)

/-- HOMING_NO_STALL (R155): 40 mm, 2,667 full steps of 15 um, without a stall: fault 1105; the lane is left OFF. -/
def execHomingNoStall (n : LaneId) (s : State) : Host.Outcome State Fault Refusal :=
  let l := laneAt s n
  if l.life.homing ∧ 2667 ≤ l.sled.homeSteps then
    .next (enterOff n (faultNow n 0x1105 (setLane n endHoming s)))
  else .next s

/-! ### Pickup (R146, R150 to R153, R506) -/

/-- Why an ID memory is rejected (R151, R152). -/
def idReason (s : State) (b : Bytes) : Option Nat :=
  if field b 0 4 ≠ 0x4B595055 ∨ field b 4 2 ≠ 1 ∨ b.length ≠ 256 then some 2
  else if crc32 (b.take 252) ≠ field b 252 4 then some 3
  else if (librarySlot s (field b 6 2)).isNone then some 4 else none

/-- The 32 factory trims of an ID memory (R153). -/
def factoryTrims (b : Bytes) : List Int := (upTo 32).map (fun i => fromLEInt (slice b (36 + 2 * i) 2))

/-- A pickup accepted: its banks, trims and baseline, and event 1001 (R151, R406, R506). -/
def takePickup (n : LaneId) (b : Bytes) (temp : Int) (s : State) : State :=
  let t := factoryTrims b
  let s1 := setLane n (fun l => { l with
    life := { l.life with pickup := some { serial := slice b 8 16, cls := field b 6 2, image := b }, temp := temp }
    warm := { WarmUp.reset with
      trims := t, inForce := (upTo 32).map (fun i => rfLimit i (t.getD i 0)), factory := t, refTemp := temp, baseline := true, detectorPending := l.warm.detectorPending }
    spin := { l.spin with temp := 2 ^ 20 * temp }
    plife := { PickupLife.reset with written := s.ticks, highest := temp } }) s
  leaveOff n (raise 0x1001 [.u8 n.val, .tail (unpad (slice b 8 16))] (loadBanks n (field b 6 2) s1))

/-- PICKUP_ACCEPT (R151 to R154, R797). -/
def pickupAccept (n : LaneId) (r : IdRead) (s : State) : State :=
  if (laneAt s n).life.arriving then
    let s1 := setLife n (fun f => { f with arriving := false }) s
    match r with
    | .noAnswer => raise 0x1003 [.u8 n.val, .u8 1] s1
    | .read b temp =>
      match idReason s b with
      | some k => raise 0x1003 [.u8 n.val, .u8 k] s1
      | none => takePickup n b temp s1
  else s

/-- PICKUP_ACCEPT. -/
def execPickupAccept (n : LaneId) (r : IdRead) (s : State) : Host.Outcome State Fault Refusal := .next (pickupAccept n r s)

/-- A pickup departs (R133, R146): fault 110D first where the lane is above PARKED; OFF once the spindle is at rest (R838); event
1002. DEDUCED (log entry 90): R838 waits without bound, where R144 names 10 ms. -/
def pickupDeparted (n : LaneId) (s : State) : State :=
  let s1 := offAtRest n (setLane n (fun l => { endHoming l with
      life := { l.life with arriving := false, pickup := none, spinning := false, homing := false }
      links := { Links.reset with driveSelected := l.links.driveSelected, laserSelected := l.links.laserSelected, lastCause := l.links.lastCause }
      plife := PickupLife.reset, startWaiting := false })
    (if abovePark (laneAt s n).life.st then faultNow n 0x110D s else s))
  match (laneAt s n).life.pickup with
  | some p => raise 0x1002 [.u8 n.val, .tail (unpad p.serial)] s1
  | none => s1

/-- PRESENCE_CHANGE (R150). -/
def presenceChange (n : LaneId) (s : State) : State :=
  let p := (laneAt s n).life.presence
  if s.power.unit ≠ 2 ∧ p.settled s.ticks then
    let s1 := setLife n (fun f => { f with presence := { f.presence with stable := f.presence.raw } }) s
    if p.raw then setLife n (fun f => { f with arriving := true }) s1 else pickupDeparted n s1
  else s

/-- PRESENCE_CHANGE. -/
def execPresenceChange (n : LaneId) (s : State) : Host.Outcome State Fault Refusal := .next (presenceChange n s)

/-- PICKUP_TEMP_READ (R507, R522, R840): once per second above OFF, FAULT included. -/
def pickupTempRead (n : LaneId) (temp : Int) (s : State) : State :=
  let l := laneAt s n
  if l.life.st = .off then s
  else
    let s1 := warmResume n (setLane n (fun l => { l with
      life := { l.life with temp := temp }, plife := { l.plife with highest := max l.plife.highest temp } }) s)
    let stands := (decide (l.life.st = .fault) && decide (l.flt.last = 0x1109)) || l.flt.completions.any (fun c => match c with
      | .fault k _ => decide (k = 0x1109)
      | _ => false)
    if tempLimit s n ≤ temp ∧ !stands then detectFault n 0x1109 s1 else s1

/-- PICKUP_TEMP_READ. -/
def execPickupTempRead (n : LaneId) (temp : Int) (s : State) : Host.Outcome State Fault Refusal := .next (pickupTempRead n temp s)

/-! ### Disc (R133, R156, R160, R404) -/

/-- What a lane knows of a disc is forgotten. -/
def forgetDisc (n : LaneId) (s : State) : State :=
  setLane n (fun l => { l with
    disc := none
    life := { l.life with discKnown := false, leadIn := .unread, volume := [], discIndex := 0xFF, discCount := 0, sweeps := 0, mismatches := 0 }
    loop := { l.loop with runout := Runout.reset }
    wr := { l.wr with queue := [], abandoned := 0, moveFrom := none }
    rd := { l.rd with adapted := 0, defects := [], jobs := Vector.replicate 4 none, held := Vector.replicate 4 none } })
    (dropRefresh n 0 (fun _ => true) s)

/-- A disc departs: fault 110C first where the lane is above PARKED; event 2003 except in OFF; the team is evaluated. -/
def discDeparted (n : LaneId) (s : State) : State :=
  let s1 := if abovePark (laneAt s n).life.st then faultNow n 0x110C s
    else brakeIfTurning n (setLane n (fun l => { l with life := { l.life with spinning := false }, startWaiting := false }) s)
  let known := (laneAt s1 n).life.discKnown
  let s2 := abortCreationOf n (warmCut n (forgetDisc n s1))
  evaluateLane n (if known ∧ (laneAt s2 n).life.st ≠ .off then raise 0x2003 [.u8 n.val] s2 else s2)

/-- DISC_STATUS_CHANGE (R133, R150, R156). -/
def discStatusChange (n : LaneId) (s : State) : State :=
  let f := (laneAt s n).life
  if s.power.unit ≠ 2 ∧ (f.disc.settled s.ticks || f.clamp.settled s.ticks) then
    let take (x : Line) : Line := if x.settled s.ticks then { x with stable := x.raw } else x
    let s1 := setLife n (fun f => { f with disc := take f.disc, clamp := take f.clamp }) s
    let now := clamped (laneAt s1 n)
    if clamped (laneAt s n) && !now then discDeparted n s1
    else if now && !clamped (laneAt s n) then
      let s2 := setLane n (fun l => { l with disc := some Disc.fresh }) s1
      if (laneAt s2 n).life.st = .off then s2 else announceDisc n s2
    else s1
  else s

/-- DISC_STATUS_CHANGE. -/
def execDiscStatusChange (n : LaneId) (s : State) : Host.Outcome State Fault Refusal := .next (discStatusChange n s)

/-! ### Lead-in blocks written (R215 to R217) -/

/-- The messages of a lead-in block's 64 sectors and 8 parity sectors (R199, R203, R215). The DRA of a lead-in sector is not
stated: it is a free value. -/
def leadMessages (d : Disc) (block : Bytes) (layer k epoch : Nat) (s : State) : List Bytes × State :=
  let r := (upTo 64).foldl (fun (acc : List Bytes × State) i =>
    match draw (2 ^ 32) acc.2 with
    | (dra, a) =>
      let user := slice block (4096 * i) 4096
      (acc.1 ++ [user ++ metadata dra layer k i 3 d.nextBlock epoch (namespaceTag d) user], a)) ([], s)
  (r.1 ++ outerMessages r.1, r.2)

/-- One copy of a lead-in block played out in the next unused slot of its lead-in (R215 to R217). -/
def writeLead (n : LaneId) (backup : Bool) (epoch : Nat) (records : List Bytes) (s : State) : State :=
  match (laneAt s n).disc with
  | none => s
  | some d =>
    match leadSlot backup (if backup then d.usedBackup else d.usedPrimary) with
    | (layer, slot, k) =>
      let block := leadBlock (4 * slot + k) layer backup d.nextBlock epoch (timeNow s) records
      let s1 := loadStrategies n layer (passBegins n s)
      match leadMessages d block layer k epoch s1 with
      | (msgs, s2) =>
        let psa (i : Nat) : Nat := match leadPlace (72 * slot + i) with | (b, f) => psaOf layer b f k
        lbump n 0xE2 1 0 72 (setWr n (fun w => { w with bank := otherBank w.bank }) (playExtent n true [(k, msgs, psa)] s2))

/-- A slot of a lead-in is used. -/
def useLead (n : LaneId) (backup : Bool) (s : State) : State :=
  setDisc n (fun d => if backup then { d with usedBackup := d.usedBackup + 1 } else { d with usedPrimary := d.usedPrimary + 1 }) s

/-- The disc closes for writing when a lead-in has no unused slot (R227). -/
def checkLeadFull (n : LaneId) (s : State) : State :=
  match (laneAt s n).disc with
  | none => s
  | some d =>
    if !d.closed ∧ (leadRoom ≤ d.usedPrimary ∨ leadRoom ≤ d.usedBackup) then
      checkReadOnlyLane n (dropRefresh n 1 (fun _ => true) (raise 0x2007 [.u8 n.val] (setDisc n (fun d => { d with closed := true }) s)))
    else s

/-- A block that has verified in both lead-ins is recorded. -/
def blockDone (n : LaneId) (s : State) : State := setDisc n (fun d => { d with nextBlock := d.nextBlock + 1, primaryDone := false }) s

/-! ### Lead-in read (R157 to R159, R224, R225, R251) -/

/-- The volume record of a creation for a lane (R163, R220). -/
def creationRecord (s : State) (t : TeamId) (n : LaneId) (c : Creation) : Bytes :=
  let m := membersOf s t
  leadRecord 0x10 (volumeBody c.volume m.length (m.findIdx (fun k => decide (k = n))) (timeNow s))

/-- The lane's team creates a volume and its record has not been read back. -/
def creating (s : State) (n : LaneId) : Option (TeamId × Creation) :=
  match teamOfLane s n with
  | none => none
  | some t =>
    match (teamAt s t).creation with
    | none => none
    | some c => if c.readBack.contains n then none else some (t, c)

/-- The lead-in read begins on every track: READY becomes READING. -/
def startLeadIn (n : LaneId) (s : State) : State :=
  enter n .reading (frameBegins n (idleChannels n (setLane n (fun l => { l with
    life := { l.life with leadIn := .reading }, rd := { l.rd with jobs := leadJobs 0 } }) s)))

/-- The lead-in is to be read: that of a disc not yet read, or during a creation once the volume record stands verified in both lead-ins
(R157, R163). -/
def leadInDue (s : State) (n : LaneId) : Bool :=
  let l := laneAt s n
  match creating s n with
  | some (_, c) => decide (l.life.leadIn = .blank) && c.written.contains n
  | none => decide (l.life.leadIn = .unread ∨ l.life.leadIn = .reading)

/-- LEAD_IN_READ_START (R157, R163, R286): a READY lane with its disc clamped goes to the lead-in band of layer 0 and reads the lead-in. -/
def leadInReadStart (n : LaneId) (s : State) : State :=
  let l := laneAt s n
  if l.life.st = .ready ∧ !l.life.ramping ∧ atExtentBoundary l ∧ clamped l ∧ leadInDue s n then
    if l.life.layer ≠ some 0 ∨ !standsAt l 220 then orderTo n 0 220 s
    else if readable s n then startLeadIn n s else s
  else s

/-- LEAD_IN_READ_START. -/
def execLeadInReadStart (n : LaneId) (s : State) : Host.Outcome State Fault Refusal := .next (leadInReadStart n s)

/-- A disc is unusable: event 2006, the team evaluated, the lane parked (R158, R160, R219). -/
def discUnusable (n : LaneId) (reason : Nat) (s : State) : State :=
  rampIfTurning n (evaluateLane n (raise 0x2006 [.u8 n.val, .u8 reason]
    (setLife n (fun f => { f with leadIn := .unusable, mismatches := 0 }) s)))

/-- The lane leaves READING: idle time starts, and what an extent boundary allows follows. -/
def leaveReading (n : LaneId) (s : State) : State :=
  let l := laneAt s n
  let s1 := setLane n (fun l => { l with rd := { l.rd with jobs := Vector.replicate 4 none } }) s
  if l.life.st = .reading then
    holdCheck n (enter n .ready (setLife n (fun f => { f with idle := s.ticks, targetBand := f.band.getD f.targetBand, jump := none }) s1))
  else s1

/-- The write limits that a disc's lead-in sets at its identification, and the session that it shows open (R225, R227, R251). -/
def limitDisc (n : LaneId) (s : State) : State :=
  match (laneAt s n).disc with
  | none => s
  | some d =>
    let v := field d.media 68 2
    let full := decide (leadRoom ≤ d.usedPrimary ∨ leadRoom ≤ d.usedBackup)
    let left := decide (d.epoch < d.seenEpoch)
    let s1 := setDisc n (fun d => { d with
      closed := full || decide (v < 2496), scanDue := left, openEpoch := if left then d.seenEpoch else 0, ours := false }) s
    let s2 := if v < 2496 then raise 0x1404 [.u8 n.val, .u32 v, .u8 3] s1 else s1
    if full then raise 0x2007 [.u8 n.val] s2 else s2

/-- The lead-in has been read: the disc is blank, identified or unusable. -/
def leadInRead (n : LaneId) (d : Disc) (s : State) : State :=
  let s1 := setLane n (fun l => { l with disc := some d }) s
  if mediaOk d.media then evaluateLane n (raiseIdentified n (limitDisc n (takeIdentity n d.volumeRec s1)))
  else discUnusable n 3 s1

/-- A disc's volume record is read back during a creation (R163). -/
def volumeReadBack (n : LaneId) (t : TeamId) (c : Creation) (d : Disc) (s : State) : State :=
  let s1 := setLane n (fun l => { l with
    disc := l.disc.map (fun o => { o with volumeRec := d.volumeRec, created := d.created })
    life := { l.life with leadIn := .blank } }) s
  if d.volumeRec.take 16 = c.volume then setTeam t (fun x => { x with creation := some { c with readBack := c.readBack ++ [n] } }) s1
  else discUnusable n 1 (abortCreation t s1)

/-- LEAD_IN_READ_COMPLETE (R158, R163, R219, R224). -/
def leadInReadComplete (n : LaneId) (r : LeadIn) (s : State) : State :=
  let l := laneAt s n
  if l.life.st = .reading ∧ l.life.leadIn = .reading then
    let s1 := leaveReading n s
    match leadBlocks r, creating s n with
    | none, some (t, _) => discUnusable n 1 (abortCreation t s1)
    | none, none => discUnusable n 1 s1
    | some blocks, some (t, c) => volumeReadBack n t c (discFrom blocks r) s1
    | some blocks, none => leadInRead n (discFrom blocks r) s1
  else s

/-- LEAD_IN_READ_COMPLETE. -/
def execLeadInReadComplete (n : LaneId) (r : LeadIn) (s : State) : Host.Outcome State Fault Refusal := .next (leadInReadComplete n r s)

/-! ### Creating a volume (R163) -/

/-- T+00:05: a volume is created on a BLANK team. Its identity is the TIME of the write and the last 8 characters of
1000:02. -/
def createVolumeEffect (t : TeamId) (s : State) : Eff :=
  let x := teamAt s t
  if x.st ≠ .blank then .error 0x0304
  else if x.creation.isSome then .error 0x0501
  else
    let vol := toLE 8 (timeNow s) ++ Sys2Proof.Config.serialNumber.toList.drop 4
    .ok (setTeam t (fun x => { x with creation := some { volume := vol, written := [], readBack := [] } }) s)

/-- VOLUME_CREATED (R163): every record has been read back; event 2002 for each member lane, then one evaluation. -/
def volumeCreated (t : TeamId) (s : State) : State :=
  let m := membersOf s t
  match (teamAt s t).creation with
  | none => s
  | some c =>
    if m.all (fun n => c.readBack.contains n) then
      let s1 := setTeam t (fun x => { x with creation := none }) s
      let s2 := m.foldl (fun a n => raiseIdentified n
        (takeIdentity n (((laneAt a n).disc.map (fun d => d.volumeRec)).getD []) a)) s1
      evaluateTeam t m.getLast? s2
    else s

/-- VOLUME_CREATED. -/
def execVolumeCreated (t : TeamId) (s : State) : Host.Outcome State Fault Refusal := .next (volumeCreated t s)

/-! ### Sessions (R213 to R216, R225 to R227) -/

/-- SESSION_CLOSE_DUE (R213): the close delay or the maximum length has passed. -/
def sessionCloseDue (n : LaneId) (s : State) : State :=
  match (laneAt s n).disc with
  | none => s
  | some d =>
    if d.openEpoch = 0 ∨ d.scanDue ∨ d.closeDue.isSome ∨ !readyUp (laneAt s n).life.st then s
    else if passed s d.sessionTick (secTicks (lcfg s n 0x21 2)) then setDisc n (fun d => { d with closeDue := some 1 }) s
    else if passed s d.lastStart (secTicks (lcfg s n 0x21 1)) then setDisc n (fun d => { d with closeDue := some 0 }) s
    else s

/-- SESSION_CLOSE_DUE. -/
def execSessionCloseDue (n : LaneId) (s : State) : Host.Outcome State Fault Refusal := .next (sessionCloseDue n s)

/-- The records of a close (R213, R218). -/
def closeRecords (s : State) (n : LaneId) (d : Disc) (kind : Nat) : List Bytes :=
  [leadRecord 0x20 (writeRecordBody d kind (timeNow s) (((laneAt s n).life.pickup.map (fun p => p.serial)).getD [])),
   leadRecord 0x30 (relocBody d.sessionRelocs)]

/-- A session is closed (R213); the recovery scan, if its close was of kind 2, has ended with event 2009 (R225, R226). -/
def sessionClosed (n : LaneId) (d : Disc) (kind : Nat) (s : State) : State :=
  let s1 := setDisc n (fun d => { d with
    epoch := d.openEpoch, openEpoch := 0, ours := false, closeDue := none, scanDue := false, recNext := d.nextSlot, sessionRelocs := []
    sessionSkipped := 0 }) s
  if kind = 2 then
    let s2 := raise 0x2009 [.u8 n.val, .u32 d.openEpoch, .u32 d.sessionSkipped] s1
    startupCheck (if laneHolds (laneAt s2 n) then s2 else endWaits n s2)
  else s1

/-- A block to be recorded in the lead-ins: its write epoch and its records. -/
structure DueBlock where
  epoch : Nat
  records : List Bytes
  deriving DecidableEq, Repr

/-- The block that a lane is to record: the volume record of a creation, or that of a close (R163, R213). -/
def dueBlock (s : State) (n : LaneId) : Option DueBlock :=
  let l := laneAt s n
  match l.disc with
  | none => none
  | some d =>
    match creating s n with
    | some (t, c) =>
      if l.life.leadIn = .blank ∧ !c.written.contains n then some { epoch := 0, records := [creationRecord s t n c] } else none
    | none => d.closeDue.map (fun kind => { epoch := d.openEpoch, records := closeRecords s n d kind })

/-- A due block stands verified in both lead-ins. -/
def blockRecorded (n : LaneId) (s : State) : State :=
  match (laneAt s n).disc with
  | none => s
  | some d =>
    match creating s n, d.closeDue with
    | some (t, c), _ => blockDone n (setTeam t (fun x => { x with creation := some { c with written := c.written ++ [n] } }) s)
    | none, some kind => sessionClosed n d kind (blockDone n s)
    | none, none => s

/-- A due block finds no unused slot (R227): the close is given up. DESIGN CHOICE (log 80): the session stays open on the closed disc, and
its scan has ended. -/
def blockLost (n : LaneId) (s : State) : State :=
  let s1 := setDisc n (fun d => { d with closeDue := none, primaryDone := false, scanDue := false }) s
  if laneHolds (laneAt s1 n) then s1 else endWaits n s1

/-- One copy of a block recorded and judged (R216, R258): verified whole, it is done; else the block is written again in the following slot. -/
def recordBlock (n : LaneId) (b : DueBlock) (backup : Bool) (verify : List VerifyRead) (s : State) : State :=
  let s1 := offsetOf n verify (useLead n backup (asWriting n (writeLead n backup b.epoch b.records) s))
  let s2 := if (upTo 72).all (readOk s n verify) then
      (if backup then blockRecorded n s1 else setDisc n (fun d => { d with primaryDone := true }) s1)
    else s1
  checkLeadFull n s2

/-- SESSION_CLOSE_WRITE (R163, R213, R216, R225): the next copy of the block that is due, first in the primary and then in the backup. The
lane is slowed and ordered to the slot first; `verify` holds what the V spot reads of the copy's sectors. -/
def sessionCloseWrite (n : LaneId) (verify : List VerifyRead) (s0 : State) : State :=
  match (laneAt s0 n).disc, dueBlock s0 n with
  | some d, some b =>
    let used := if d.primaryDone then d.usedBackup else d.usedPrimary
    let l0 := laneAt s0 n
    if !readyUp l0.life.st ∨ l0.wr.pass.isSome ∨ laneReading l0 ∨ l0.life.ramping then s0
    else if leadRoom ≤ used then blockLost n s0
    else
      let s := slowForWrite n s0
      match leadSlot d.primaryDone used with
      | (layer, slot, _) =>
        let place := leadPlace (72 * slot)
        if l0.life.layer ≠ some layer ∨ !standsAt l0 place.1 then orderTo n layer place.1 s
        else if mayRecord s n && framedAt l0.wr layer place.1 place.2 0 then recordBlock n b d.primaryDone verify s
        else s
  | _, _ => s0

/-- SESSION_CLOSE_WRITE. -/
def execSessionCloseWrite (n : LaneId) (verify : List VerifyRead) (s : State) : Host.Outcome State Fault Refusal :=
  .next (sessionCloseWrite n verify s)

/-! ### Recovery scan (R225, R226) -/

/-- RECOVERY_SCAN (R225, R588): commands begin to wait on the lane whose disc is under the scan. -/
def execRecoveryScan (n : LaneId) (s : State) : Host.Outcome State Fault Refusal :=
  if readyUp (laneAt s n).life.st ∧ ((laneAt s n).disc.map (fun d => d.scanDue)).getD false then .next (beginWaits n s) else .next s

/-- A slot that the scan counts as written: its extent is recorded (R225 step 2). -/
def scanWritten (layer k slot : Nat) (d : Disc) : Disc :=
  let pos := trackPos layer k
  match indexOfSlot d.skips[pos] slot with
  | none => d
  | some j => { d with
      slots := vecModify d.slots pos (fun m => mapSet m slot .verified)
      nextSlot := vecModify d.nextSlot pos (fun p => max p (slot + 1))
      extents := vecModify d.extents pos (fun c => max c (j + 1))
      sessionSectors := if d.ours then d.sessionSectors else d.sessionSectors + 72 }

/-- The slots of a track from one on as the scan reads them (R225 steps 2 and 3): one of which all sectors decode with the open epoch and
the expected logical extent is written; any other gets a skip entry. -/
def scanSlots (n : LaneId) (layer k : Nat) : List SlotRead → Nat → State → State
  | [], _, s => s
  | r :: rest, p, s =>
    let s1 := match (laneAt s n).disc with
      | none => s
      | some d =>
        match indexOfSlot d.skips[trackPos layer k] p with
        | none => s
        | some j =>
          if r.decodes ∧ r.epoch = d.openEpoch ∧ r.extent = logicalExtent layer k j then setDisc n (scanWritten layer k p) s
          else skipSlot n layer k p s
    scanSlots n layer k rest (p + 1) s1

/-- A copy of the open epoch gets its kind-0 entry, unless it stands (R225 step 4). -/
def scanCopy (n : LaneId) (c : CopyRead) (s : State) : State :=
  match (laneAt s n).disc with
  | none => s
  | some d =>
    match slotOfExtent d c.extent with
    | (layer, k, slot) =>
      let e : RelocEntry := { kind := 0, psa := slotPsa layer k slot c.sector, repl := c.psa }
      if c.epoch = d.openEpoch ∧ !d.relocs.contains e then enterReloc n e s else s

/-- RECOVERY_SCAN_END (R225): what the scan read is taken in, and the close of kind 2 falls due. The start of a session that was not this
device's to open is not known: it is a free value. -/
def recoveryScanEnd (n : LaneId) (r : ScanRead) (s : State) : State :=
  let l := laneAt s n
  match l.disc with
  | none => s
  | some d =>
    if d.scanDue ∧ d.closeDue.isNone ∧ readyUp l.life.st ∧ l.wr.pass.isNone ∧ !laneReading l then
      match draw (2 ^ 64) s with
      | (start, s0) =>
        let s1 := setDisc n (fun d => { d with
          openEpoch := d.seenEpoch, sessionStart := if d.ours then d.sessionStart else start
          sessionSectors := if d.ours then d.sessionSectors else 0, sessionRelocated := if d.ours then d.sessionRelocated else 0
          testUnit := r.units.foldl (fun v u => v.set u.1 (max v[u.1] u.2)) d.testUnit }) (if d.ours then s else s0)
        let s2 := r.slots.foldl (fun a q => scanSlots n q.1.val q.2.1.val q.2.2 d.recNext[trackPos q.1.val q.2.1.val] a) s1
        setDisc n (fun d => { d with closeDue := some 2 }) (r.copies.foldl (fun a c => scanCopy n c a) s2)
    else s

/-- RECOVERY_SCAN_END. -/
def execRecoveryScanEnd (n : LaneId) (r : ScanRead) (s : State) : Host.Outcome State Fault Refusal := .next (recoveryScanEnd n r s)

/-! ### Team members (R161, R177, R548) -/

/-- T+00:01 takes force: a namespace whose members change leaves the list, and every team concerned is evaluated. -/
def membersChanged (t : TeamId) (s : State) : State := evaluateTeam t none (nsLeave t 1 s)

end Sys2Proof.Machine
end

