-- ==== Sys2Proof/Machine/Pacer.lean ====
section
/-! DEFINITION. The pacer of a lane (R450-R456). -/

namespace Sys2Proof.Machine

/-- Lane demand d averaged with L+88:03 over the evaluation period of 100 ms, bytes/s * 2^16 (R452). -/
def demandNext (s : State) (n : LaneId) : Nat × Nat :=
  let l := laneAt s n
  match teamOfLane s n with
  | none => (0, l.pace.seen)
  | some t =>
    let tm := teamAt s t
    let count := (membersOf s t).length
    let rate := 65536 * (10 * (tm.admitted - l.pace.seen)) / (if count = 0 then 1 else count)
    let tc := lcfg s n 0x88 3
    (((l.pace.demand : Int) + ((rate : Int) - l.pace.demand) * 100 / (if tc = 0 then 1 else tc : Nat)).toNat, tm.admitted)

/-- The target velocity of AUTO (R452) before the limits. -/
def targetVelocity (s : State) (n : LaneId) (d : Nat) : Nat :=

  let rt := max (d / 65536 * lcfg s n 0x88 4 / 100) (laneBacklog s n * 1000 / lcfg s n 0x88 5)
  9984 * rt / 138800000

/-- A velocity taken: a fall at once, a rise when the core supply covers it, else once that supply is in force
(R73, R454). -/
def takeVelocity (n : LaneId) (v : Nat) (s : State) : State :=
  let l := laneAt s n
  if v ≤ l.pace.v then setLane n (fun l => { l with pace := { l.pace with v := v, raise := none } }) s
  else
    if supplyCovers s (if drawsRate l then 138 * (v - l.pace.v) else 0) then setLane n (fun l => { l with pace := { l.pace with v := v, raise := none } }) s
    else setLane n (fun l => { l with pace := { l.pace with raise := some v } }) s

/-- PACER_EVALUATION (R451-R455). -/
def pacerEvaluation (n : LaneId) (s : State) : State :=
  let l := laneAt s n
  match ceilingOf s n, demandNext s n with
  | (c, term), (d, seen) =>
    let s1 := setLane n (fun l => { l with pace := { l.pace with
      ceiling := c, term := term, demand := d, seen := seen, begun := true
      warned := l.pace.warned && decide (c < 2496) } }) s
    let s2 := if c < 2496 ∧ !l.pace.warned then
        raise 0x1404 [.u8 n.val, .u32 c, .u8 term]
          (setLane n (fun l => { l with pace := { l.pace with warned := true } }) s1)
      else s1
    let hist := match teamOfLane s n with
      | some t => (teamAt s t).history
      | none => false
    if lcfg s n 0x88 1 = 1 then takeVelocity n (min (lcfg s n 0x88 2) c) s2
    else if !l.pace.begun ∨ !hist then takeVelocity n c s2
    else
      let vt := min (max (targetVelocity s n d) 2496) c
      if l.pace.v < vt then takeVelocity n vt (setLane n (fun l => { l with pace := { l.pace with low := 0 } }) s2)
      else
        let low := if 10 * vt < 9 * l.pace.v then l.pace.low + 1 else 0
        let s3 := setLane n (fun l => { l with pace := { l.pace with low := low } }) s2
        if lcfg s n 0x88 6 ≤ 100 * low then
          takeVelocity n vt (setLane n (fun l => { l with pace := { l.pace with low := 0 } }) s3)
        else if c < l.pace.v then takeVelocity n c s3 else s3

/-- PACER_EVALUATION. -/
def execPacerEvaluation (n : LaneId) (s : State) : Host.Outcome State Fault Refusal := .next (pacerEvaluation n s)

end Sys2Proof.Machine
end

