-- ==== Sys2Proof/Machine/Track.lean ====
section
/-! DEFINITION. From PARKED to READY and back: spin-up, focus, layer jumps, band capture, wobble frames, ramp-down, mode,
enable and reset (R140 to R149, R160 to R166, R174, R259 to R263, R438). -/

namespace Sys2Proof.Machine

/-! ### Spin-up (R144, R430, R708) -/

/-- The team has work for the lane: commands that use it, or extents due on it. -/
def demanded (s : State) (n : LaneId) : Bool := s.host.flights.any (fun f => usesLane s f n) || !(dueOn s n).isEmpty

/-- A reason of R144 to leave PARKED holds. -/
def spinReason (s : State) (n : LaneId) : Bool :=
  let l := laneAt s n
  let mode := modeOf s n
  l.flt.recovering || decide (l.life.leadIn = .unread) || decide (l.life.leadIn = .reading) || demanded s n ||
    decide (mode = 2 ∨ mode = 3) || warmStarts s n || l.warm.detectorPending || (creating s n).isSome || s.power.spinAfter.contains n

/-- A PARKED lane may spin up. -/
def maySpin (s : State) (n : LaneId) : Bool :=
  let l := laneAt s n
  decide (l.life.st = .parked) && clamped l && l.life.discKnown && decide (l.life.leadIn ≠ .unusable) &&
    decide (s.power.unit = 0) && !standing s && decide (modeOf s n ≠ 1) && decide (lcfg s n 0x01 1 = 1) &&
    !l.flt.latched && !l.flt.resetting && decide (l.spin.phase = 0) && !l.loop.overrun.stopped && spinReason s n

/-- Lanes of a segment that start from rest. -/
def starting (s : State) (g : SegId) : Nat :=
  ((lanesOfSeg g).filter (fun n => (laneAt s n).life.spinning && !(laneAt s n).startWaiting &&
    decide ((laneAt s n).life.st = .parked))).length

/-- The start from rest begins: injection, with DETECTOR during the run-up (R430, R508, R513). -/
def beginStart (n : LaneId) (s : State) : State :=
  setLane n (fun l => { l with
    life := { l.life with
      spinning := true, sweeps := 0, mismatches := 0
      targetLayer := if l.life.leadIn = .unread ∨ l.life.leadIn = .reading then 0 else l.life.targetLayer
      targetBand := if l.life.leadIn = .unread ∨ l.life.leadIn = .reading then 220 else l.life.targetBand }
    spin := { l.spin with
      phase := 1, mode := 3, step := 0, duty := 0, stopping := false, coast := false, near := 0, atSpeed := false, regenWins := 0 }
    warm := { l.warm with detecting := true }
    startWaiting := false }) (lbump n 0xE5 2 0 1 s)

/-- The core supply's set-point covers a lane that is about to run (R72, R73). -/
def raiseSupply (n : LaneId) (s : State) : State :=
  let l := laneAt s n
  { s with coreGoal := max s.coreGoal (needMv s (if drawsRate l then 0 else 138 * max l.pace.v (velocity l))) }

/-- SPIN_UP (R144, R708): at most 2200:06 lanes of a segment start from rest at once; others wait. -/
def spinUp (n : LaneId) (s : State) : State :=
  if maySpin s n && (!(laneAt s n).life.spinning || (laneAt s n).startWaiting) then
    if starting s (segOf n) < cfg s 0x2200 6 then orderNow n .spin (beginStart n) (raiseSupply n s)
    else setLane n (fun l => { l with startWaiting := true, life := { l.life with spinning := true } }) s
  else s

/-- SPIN_UP. -/
def execSpinUp (n : LaneId) (s : State) : Host.Outcome State Fault Refusal := .next (spinUp n s)

/-- The next lane of a segment that waits starts (LANE_START_SLOT, R708). -/
def nextStart (g : SegId) (s : State) : State :=
  match (lanesOfSeg g).find? (fun n => (laneAt s n).startWaiting) with
  | some n => spinUp n s
  | none => s

/-- A starting lane enters SPUN (R438). DETECTOR, if its measurement has not ended, has no data. -/
def enterSpun (n : LaneId) (s : State) : State :=
  let s1 := if (laneAt s n).warm.detecting then
      partResult n 0 5 (setWarm n (fun w => { w with detecting := false }) s) else s
  nextStart (segOf n) (enter n .spun (setLane n (fun l => { l with life := { l.life with spinning := false } })
    { s1 with power := { s1.power with spinAfter := s1.power.spinAfter.filter (fun k => decide (k ≠ n)) } }))

/-- The speed has settled at a value that differs from that of the last learning run by more than L+62:03 percent (R403). -/
def relearnDue (s : State) (n : LaneId) : Bool :=
  let l := laneAt s n
  match l.loop.runout.runSpeed with
  | none => false
  | some v => l.loop.closed[1] && !l.loop.runout.learning &&
    decide ((v.natAbs : Nat) * lcfg s n 0x62 3 < 100 * (speedCenti l.spin - v).natAbs)

/-- AT_SPEED (R438): the speed has been within tolerance for 20 ms, 480 samples of 24 kHz. A lane enters SPUN once the core supply
covers its rate (R72, R73). -/
def atSpeed (n : LaneId) (s : State) : State :=
  let l := laneAt s n
  if l.spin.phase = 3 ∧ 480 ≤ l.spin.near ∧ !l.spin.atSpeed then
    let s1 := setLane n (fun l => { l with spin := { l.spin with atSpeed := true } }) s
    if l.life.st = .parked ∧ l.life.spinning then (if needMv s 0 ≤ s.coreMv then enterSpun n s1 else s)
    else if relearnDue s1 n then startLearning n s1 else s1
  else s

/-- AT_SPEED. -/
def execAtSpeed (n : LaneId) (s : State) : Host.Outcome State Fault Refusal := .next (atSpeed n s)

/-! ### Focus and layers (R160, R164, R165) -/

/-- A focus sweep, or a capture with three layer mismatches, has failed (R160, R164): the third makes the disc unusable; a lane that had
focus takes fault 1102, and sweeps again once it has re-entered at SPUN. -/
def sweepFailed (n : LaneId) (s : State) : State :=
  let k := (laneAt s n).life.sweeps + 1
  let s1 := openFocus n (setLife n (fun f => { f with sweeps := k, mismatches := 0, layer := none, band := none, jump := none }) s)
  if 3 ≤ k then discUnusable n 2 s1
  else if (laneAt s n).life.st = .spun then s1 else detectFault n 0x1102 s1

/-- A lane whose focus stands on the target layer is FOCUSED (R144). -/
def focusReached (n : LaneId) (s : State) : State :=
  let l := laneAt s n
  if l.life.st = .spun ∧ l.life.layer = some l.life.targetLayer then enter n .focused s else s

/-- The sweep meets layer 7 (R164): after the first peak above the surface threshold, the cover, a peak above L+06:03 of the class's
nominal layer peak. -/
def layerSeen (s : State) (n : LaneId) (peaks : List Nat) : Bool :=
  let cls := (pickupClass s n).getD 0
  let later := (peaks.dropWhile (fun v => decide (v ≤ Sys2Proof.Config.surfaceThreshold cls))).drop 1
  later.any (fun v => decide (lcfg s n 0x06 3 * Sys2Proof.Config.nominalPeak cls < 32768 * v))

/-- Focus captured on layer 7 (R164, R167): the observer starts from the measured position and zero velocity. DEDUCED (log 75): its first
state is the focus position. -/
def focusClosed (n : LaneId) (position : Int) (s : State) : State :=
  focusReached n (setClosed n true false false (setLane n (fun l => { l with
    life := { l.life with layer := some 7 }
    loop := { l.loop with
      x := position :: List.replicate 11 0, overrun := { l.loop.overrun with zero := false, zeroNext := false } } }) s))

/-- FOCUS_CAPTURE (R164): a sweep ends, with the peaks of the detector sum that it met and the lens position at the zero crossing. -/
def focusCapture (n : LaneId) (peaks : List Nat) (position : Int) (s : State) : State :=
  let l := laneAt s n
  if l.life.st = .spun ∧ !l.life.ramping ∧ !l.loop.closed[0] then
    if layerSeen s n peaks then focusClosed n position s else sweepFailed n s
  else s

/-- FOCUS_CAPTURE. -/
def execFocusCapture (n : LaneId) (peaks : List Nat) (position : Int) (s : State) : Host.Outcome State Fault Refusal :=
  .next (focusCapture n peaks position s)

/-- The layer one jump away. -/
def jumpLayer (k : Nat) (outward : Bool) : Nat := if outward then k + 1 else k - 1

/-- A layer jump meets a warm-up (R525): the part in line starts again on the new layer. -/
def warmJump (n : LaneId) (s : State) : State :=
  let w := (laneAt s n).warm
  if w.running ∧ w.part ≤ 5 then setWarm n (fun w => { w with frames := 0, probe := 0, q := [], settle := 4 }) s else s

/-- The coordinate of a band in microsteps (R462). -/
def bandCoordinate (b : Nat) : Int := roundDiv (16384 * (b : Int)) 1000

/-- A stride to the lane's target band. -/
def strideToTarget (n : LaneId) (s : State) : State :=
  strideAccept n { Stride.zero with target := bandCoordinate (laneAt s n).life.targetBand, flags := 6 } s

/-- A layer jump may run: focus closed above PARKED, at no extent, and a layer that way. -/
def mayJump (l : Lane) (k : Nat) (outward : Bool) : Bool :=
  l.loop.closed[0] && abovePark l.life.st && !l.life.ramping && l.wr.pass.isNone && !laneReading l &&
    (if outward then decide (k < 7) else decide (0 < k))

/-- LAYER_JUMP (R142, R165, R484): one layer at a time; tracking opens. A move that changes the band by more than 32 too begins its stride
at the same time (R841). A jump that fails is fault 1102. -/
def layerJump (n : LaneId) (outward landed : Bool) (s : State) : State :=
  let l := laneAt s n
  match l.life.layer with
  | none => s
  | some k =>
    if mayJump l k outward then
      let s1 := spoil n (openTracking n (lifeLane n 2 1 (idleChannels n (setLane n (fun l => { l with
        spin := { l.spin with wobbleValid := false }, life := { l.life with band := none, jump := none } }) s))))
      let far := (l.life.band.map (fun b => decide (32 < ((l.life.targetBand : Int) - b).natAbs))).getD false
      let s2 := if far && decide (l.life.layer ≠ some l.life.targetLayer) then strideToTarget n s1 else s1
      if landed then
        focusReached n (warmJump n (setLife n (fun f => { f with layer := some (jumpLayer k outward) }) s2))
      else detectFault n 0x1102 s2
    else s

/-- LAYER_JUMP. -/
def execLayerJump (n : LaneId) (outward landed : Bool) (s : State) : Host.Outcome State Fault Refusal :=
  .next (layerJump n outward landed s)

/-! ### Moves to a band (R44, R166, R484, R486) -/

/-- The master position of the band's index in the next revolution (R486). -/
def nextIndex (l : Lane) : Nat :=
  let d := (l.loop.runout.idx + 65536 - l.sled.master % 65536) % 65536
  (l.sled.master + (if d = 0 then 65536 else d)) % 2 ^ 32

/-- A ratio armed on a lane. -/
def armAt (n : LaneId) (pos : Nat) (num : Int) (s : State) : State :=
  setLane n (fun l => { l with sled := armRatio pos num 4000 l.sled }) s

/-- Level 2 at a frame 0 on the target layer with no extent in progress: the radius is held by a jump back of one band once
per revolution (R44); another band within 32 is reached by the actuator, a farther one by a stride (R166, R486). -/
def seek (n : LaneId) (s : State) : State :=
  let l := laneAt s n
  match l.life.band with
  | none => s
  | some b =>
    let k : Int := (l.life.targetBand : Int) - b
    if l.life.layer ≠ some l.life.targetLayer then s
    else if k = 0 ∨ k = -1 then
      let s1 := setLife n (fun f => { f with jump := if k = 0 then none else some f.targetBand }) s
      if l.sled.radiusHold then s1
      else armAt n (nextIndex l) 0 (setLane n (fun l => { l with sled := { l.sled with radiusHold := true } }) s1)
    else if -32 ≤ k ∧ k ≤ 32 then
      spoil n (armAt n ((nextIndex l + 65536) % 2 ^ 32) 1 (armAt n (nextIndex l) (1 + k)
        (setLane n (fun l => { l with
          life := { l.life with jump := some l.life.targetBand }, sled := { l.sled with radiusHold := false } }) (idleChannels n s))))
    else
      strideToTarget n (spoil n (openTracking n (setLane n (fun l => { l with
        spin := { l.spin with wobbleValid := false }, life := { l.life with band := none, jump := none }
        sled := { l.sled with radiusHold := false } }) (idleChannels n s))))

/-- Following resumes when an extent begins (R486). -/
def follow (n : LaneId) (s : State) : State :=
  let l := laneAt s n
  if l.sled.radiusHold then
    armAt n l.sled.master 1 (setLane n (fun l => { l with sled := { l.sled with radiusHold := false } }) s)
  else s

/-! ### Band capture (R164, R166, R466) -/

/-- The band that the set-point coordinate lies on (R466). -/
def expectedBand (d : Sled) : Int := roundDiv (1000 * d.s) (65536 * 16384)

/-- Tracking closes on the groove read (R166, R400, R403, R484); the write clock has one valid frame so far (R259).
DEDUCED (log entry 90): a read of the right layer is enough, and the stride to the target band follows; R144 names layer and band. -/
def captured (n : LaneId) (w : WobbleRead) (a : WobbleAddr) (s : State) : State :=
  let l := laneAt s n
  let s1 := gearEngage n (setClosed n true true true (setLane n (fun l => { l with
    life := { l.life with band := some a.band, mismatches := 0, sweeps := 0, jump := none }
    spin := { l.spin with wobbleValid := true }
    sled := { l.sled with radiusHold := false }
    wr := { l.wr with
      wobbleLayer := a.layer, wobbleBand := a.band, wobbleFrame := a.frame, wobbleKind := a.kind, rms := w.rms, goodFrames := 1
      badFrames := 0, clockLocked := false }
    loop := { l.loop with runout := { l.loop.runout with idxValid := false, spoiled := true } } }) s))
  let s2 := if l.loop.runout.valid ∨ l.loop.runout.learning then s1 else startLearning n s1
  let s3 := if l.life.st = .focused ∧ a.layer = l.life.targetLayer then enter n .tracking s2 else s2
  if 32 < ((l.life.targetBand : Int) - a.band).natAbs then seek n s3 else s3

/-- Band capture may close tracking (R166, R841): focus closed, tracking open, the sled's stride ended, and the groove-crossing speed below
L+06:04 for 0.5 ms, the last 192 observer periods. -/
def mayCapture (s : State) (n : LaneId) (speeds : List Nat) : Bool :=
  let l := laneAt s n
  l.loop.closed[0] && !l.loop.closed[1] && decide (3 ≤ l.life.st.code ∧ l.life.st.code ≤ 8) && !l.life.ramping && !l.sled.running &&
    decide (speeds.length = 192) && speeds.all (fun v => decide (v < lcfg s n 0x06 4))

/-- BAND_CAPTURE (R164 step 5, R166, R466): the wobble address read, with the crossing speeds before it in um/s. -/
def bandCapture (n : LaneId) (w : WobbleRead) (speeds : List Nat) (s : State) : State :=
  let l := laneAt s n
  match mayCapture s n speeds, wobbleAddr w.wobbles with
  | true, some a =>
    if l.life.layer ≠ some a.layer then
      let s1 := setLife n (fun f => { f with layer := some a.layer, mismatches := f.mismatches + 1 }) s
      if 3 ≤ l.life.mismatches + 1 then sweepFailed n s1 else s1
    else
      let diff := (a.band : Int) - expectedBand l.sled
      if diff.natAbs ≤ lcfg s n 0xA3 3 then captured n w a (shiftCoordinate n (roundDiv (16384 * diff) 1000) s)
      else
        detectFault n 0x1105 (raise 0x1503 [.u8 n.val, .u32 a.band, .s32 (expectedBand l.sled)] (lbump n 0xE6 4 0 1 s))
  | _, _ => s

/-- BAND_CAPTURE. -/
def execBandCapture (n : LaneId) (w : WobbleRead) (speeds : List Nat) (s : State) : Host.Outcome State Fault Refusal :=
  .next (bandCapture n w speeds s)

/-! ### Wobble frames (R144, R166, R186, R259, R262, R263, R400) -/

/-- The frame address after an address on the same layer. -/
def nextFrame (b f : Nat) : Nat × Nat := if bandFrames b ≤ f + 1 then (b + 1, 0) else (b, f + 1)

/-- The address that a frame takes: as read, or predicted from the last valid one (R262). -/
def frameAddr (l : Lane) (a : Option WobbleAddr) : WobbleAddr :=
  let p := nextFrame l.wr.wobbleBand l.wr.wobbleFrame
  a.getD { layer := l.wr.wobbleLayer, band := p.1, frame := p.2, kind := bandKind p.1 }

/-- A frame of the groove followed: its address, the write clock's lock (R259), and a band jump that has landed (R166). -/
def takeAddress (n : LaneId) (w : WobbleRead) (s : State) : State :=
  setLane n (fun l =>
    let read := wobbleAddr w.wobbles
    let a := frameAddr l read
    let good := if read.isSome then l.wr.goodFrames + 1 else 0
    { l with
      wr := { l.wr with
        wobbleLayer := a.layer, wobbleBand := a.band, wobbleFrame := a.frame, wobbleKind := a.kind, rms := w.rms
        goodFrames := good, badFrames := if read.isSome then 0 else l.wr.badFrames + 1
        clockLocked := decide (w.rms ≤ (lcfg s n 0x41 3 : Nat)) && decide (2 ≤ good) }
      life := { l.life with band := some a.band, jump := if l.life.jump = some a.band then none else l.life.jump }
      spin := { l.spin with wobbleValid := true } }) s

/-- The index angle is latched at the first frame 0 after a capture (R400). -/
def takeIndex (n : LaneId) (w : WobbleRead) (s : State) : State :=
  let l := laneAt s n
  if (wobbleAddr w.wobbles).map (fun a => a.frame) = some 0 ∧ !l.loop.runout.idxValid then
    setLane n (fun l => { l with loop := { l.loop with runout := { l.loop.runout with
      idx := w.angle % 65536, idxValid := true, spoiled := true } } }) s
  else s

/-- The frame that a begun pass has come to is neither that of its next sector nor one of a spare band on the way there (R262). -/
def passMismatch (l : Lane) : Bool :=
  match l.wr.pass with
  | none => false
  | some p =>
    match passPlace p with
    | (b, _) => p.begun && !p.cut && decide (p.sector < 72) && !gateMatches l.wr p &&
        !(decide (l.wr.wobbleLayer = p.layer ∧ l.wr.wobbleBand < b) && decide (l.wr.wobbleKind = 2))

/-- WRITE_ADDRESS_MISMATCH (R263): the gates drop, the pass is cut, event 2010, and the band is captured again. -/
def addressMismatch (n : LaneId) (s : State) : State :=
  let w := (laneAt s n).wr
  openTracking n (raise 0x2010 [.u8 n.val, .u8 w.wobbleLayer, .u32 w.wobbleBand, .u32 w.wobbleFrame]
    (setPass n (fun p => { p with cut := true }) s))

/-- TRACKING becomes READY (R144): the write clock is locked, the runout table is learned or realigned, and the lane stands on
its target. -/
def becomeReady (n : LaneId) (s : State) : State :=
  let l := laneAt s n
  let r := l.loop.runout
  if l.life.st = .tracking ∧ l.wr.clockLocked ∧ r.valid ∧ r.idxValid ∧ !r.learning ∧ l.life.layer = some l.life.targetLayer ∧
      l.life.band = some l.life.targetBand then
    let s1 := enter n .ready (setLane n (fun l => { l with
      life := { l.life with idle := s.ticks }, flt := { l.flt with recovering := false }, warm := { l.warm with backTo := none } }) s)
    holdCheck n (if laneHolds (laneAt s1 n) then s1 else endWaits n s1)
  else s

/-- Channel bit rate, Hz: the linear velocity over 26 nm (R286). -/
def bitRate (l : Lane) : Nat := velocity l * 1000000 / 26

/-- A sector preamble on the lane: a change of mode or layer takes force with the channels' framing abandoned (R284, R323, R331), the
low-pass cutoff is programmed from the bit rate (R290), and the frequency word follows the write clock (R293). -/
def preamble (n : LaneId) (s : State) : State :=
  let l := laneAt s n
  let layer := l.life.layer.getD l.rd.layer
  setLane n (fun x => { x with rd := { x.rd with
    mode := modeGoal l, layer := layer, word := bitRate l, cutoff := lcfg s n 0x22 3 * bitRate l / 32768 } })
    (if l.rd.mode = modeGoal l ∧ l.rd.layer = layer then s else idleChannels n s)

/-- WOBBLE_FRAME (R186). -/
def wobbleFrame (n : LaneId) (w : WobbleRead) (s : State) : State :=
  let l := laneAt s n
  if l.loop.closed[1] ∧ 4 ≤ l.life.st.code ∧ l.life.st.code ≤ 8 then
    let s1 := preamble n (takeIndex n w (takeAddress n w s))
    let l1 := laneAt s1 n
    if passMismatch l1 || (decide (3 ≤ l1.wr.badFrames) && (l1.wr.pass.map (fun p => p.begun && !p.cut)).getD false) then
      addressMismatch n s1
    else
      let busy := l1.wr.pass.isSome || laneReading l1 || l1.life.ramping
      let s2 := if l1.wr.wobbleFrame = 0 then (if busy then follow n s1 else seek n s1) else s1
      becomeReady n (opcReturned n s2)
  else s

/-- WOBBLE_FRAME. -/
def execWobbleFrame (n : LaneId) (w : WobbleRead) (s : State) : Host.Outcome State Fault Refusal := .next (wobbleFrame n w s)

/-- WRITE_CLOCK_UNLOCK (R261): a phase error beyond L+41:04 in 4 consecutive wobbles. -/
def execWriteClockUnlock (n : LaneId) (errors : List Int) (s : State) : Host.Outcome State Fault Refusal :=
  let l := laneAt s n
  let last := (errors.reverse).take 4
  if l.loop.closed[1] ∧ 4 ≤ l.life.st.code ∧ l.life.st.code ≤ 8 ∧ last.length = 4 ∧
      last.all (fun e => decide (lcfg s n 0x41 4 < e.natAbs)) then
    .next (detectFault n 0x110E (setWr n (fun w => { w with clockLocked := false }) s))
  else .next s

/-! ### Back to PARKED (R145, R147, R444) -/

/-- The lane stands at an extent boundary above PARKED, or starts, and no ramp-down runs. -/
def mayRamp (l : Lane) : Bool := (abovePark l.life.st || (l.life.spinning && decide (l.spin.phase ≠ 0))) && !l.life.ramping && l.wr.pass.isNone && !laneReading l

/-- IDLE_PARK_TIMEOUT (R144, R145): idle for L+01:03 with mode AUTO. -/
def execIdleParkTimeout (n : LaneId) (s : State) : Host.Outcome State Fault Refusal :=
  let l := laneAt s n
  if mayRamp l ∧ l.life.st = .ready ∧ modeOf s n = 0 ∧ !demanded s n ∧ passed s l.life.idle (secTicks (lcfg s n 0x01 3)) then
    .next (rampOrder n s)
  else .next s

/-- A cause other than idleness ramps the lane down (R144, R148, R158, R174). -/
def rampCause (s : State) (n : LaneId) : Bool :=
  let l := laneAt s n
  decide (modeOf s n = 1) || decide (s.power.unit ≠ 0) || standing s || l.flt.resetting || decide (lcfg s n 0x01 1 = 0) ||
    l.flt.latched || decide (l.life.leadIn = .unusable)

/-- RAMP_DOWN (R147). -/
def execRampDown (n : LaneId) (s : State) : Host.Outcome State Fault Refusal :=
  if mayRamp (laneAt s n) ∧ rampCause s n then .next (rampOrder n s) else .next s

/-- The lane object rebuilt (R174): orders, completions and the counters of L+02 are dropped, and the lane is OFF; the pickup
is read again. -/
def resetLane (n : LaneId) (s : State) : State :=
  let s1 := dropRefresh n 3 (fun _ => true) (enterOff n s)
  let s2 := setLane n (fun l => { l with
    flt := FaultRec.reset
    wr := { l.wr with suspended := false, abandoned := 0 }
    life := { l.life with arriving := l.life.presence.stable, pickup := none }
    warm := { WarmUp.reset with trims := l.warm.trims, inForce := l.warm.inForce, factory := l.warm.factory }
    loop := { l.loop with overrun := Overrun.reset }
    rd := { l.rd with jobs := Vector.replicate 4 none, held := Vector.replicate 4 none }
    plife := PickupLife.reset }) s1
  endWaits n (unstore (laneIdx n 0x2A) 4 s2)

/-- The lane passes to OFF at rest: its pickup has gone, it is disabled, or its fault's row says OFF (R144, R169). -/
def offDue (s : State) (n : LaneId) : Bool :=
  let l := laneAt s n
  l.life.pickup.isNone || decide (lcfg s n 0x01 1 = 0) || (decide (l.life.st = .fault) && decide (l.flt.last = 0x110D ∨ l.flt.last = 0x1110))

/-- What the lane becomes once the spindle is at rest (R144, R147, R169, R174, R838). -/
def atRest (n : LaneId) (s : State) : State :=
  let l := laneAt s n
  if l.flt.resetting then resetLane n (if l.life.st = .fault then s else enterParked n s)
  else if l.life.st = .off then s
  else if offDue s n then leaveOff n (enterOff n s)
  else if l.life.st ≠ .fault then enterParked n s
  else if !l.flt.latched && decide (l.flt.last = 0x110C) then
    enterParked n (setLane n (fun l => { l with flt := { l.flt with safe := false } }) s)
  else
    let s1 := setLife n (fun f => { f with ramping := false }) s
    if l.flt.recovering && recoveryStands s1 n && decide (lostLink l = none) then recoveryGoes n s1 else s1

/-- SHORT_BRAKE_REST (R444): rest has been reached; the bridge goes to FLOAT. -/
def execShortBrakeRest (n : LaneId) (s : State) : Host.Outcome State Fault Refusal :=
  let l := laneAt s n
  if l.spin.phase = 5 ∧ 48 * lcfg s n 0x84 4 ≤ l.spin.quiet then
    .next (atRest n (setLane n (fun l => { l with spin := { l.spin with stopping := false, omega := 0, ref := 0 } }) (floatBridge n 0 s)))
  else .next s

/-! ### Written entries (R143, R144, R146, R174, R403) -/

/-- L+01:02: the mode. -/
def laneModeEffect (n : LaneId) (v : Bytes) (s : State) : Eff :=
  let m := fromLE v
  if (m = 1 ∨ m = 3) ∧ inAttached s n then .error 0x0304
  else
    let s1 := store (laneIdx n 0x01) 2 v s
    .ok (if m = 3 then (if atExtentBoundary (laneAt s1 n) then holdCheck n s1 else s1)
      else if (laneAt s1 n).warm.testPass.isNone ∧ !laneReading (laneAt s1 n) then leaveHold n s1 else s1)

/-- L+01:01: enable (R144, R146). A lane above PARKED takes fault 1110 on its way to OFF. -/
def laneEnableEffect (n : LaneId) (v : Bytes) (s : State) : Eff :=
  let on := decide (fromLE v = 1)
  if !on ∧ inAttached s n then .error 0x0304
  else
    let s1 := store (laneIdx n 0x01) 1 v s
    let l := laneAt s1 n
    .ok (if on then leaveOff n s1
      else if abovePark l.life.st then faultNow n 0x1110 s1
      else if l.spin.phase = 0 then enterOff n s1
      else rampIfTurning n s1)

/-- L+01:04: lane reset (R174). Orders and completions are dropped; a lane that turns is first ramped down, once its extents in progress
have come to their boundary (R45, R47, R147). -/
def laneResetEffect (n : LaneId) (s : State) : Eff :=
  let l := laneAt s n
  let s1 := setLane n (fun l => { l with flt := { l.flt with orders := [], completions := [] } }) s
  if l.spin.phase = 0 then .ok (resetLane n (dropExtents n s1))
  else
    let s2 := setLane n (fun l => { l with flt := { l.flt with resetting := true } }) s1
    .ok (if l.life.st = .fault ∨ mayRamp l then rampIfTurning n s2 else s2)

/-- L+62:06: a learning run starts (R403); 0401 below TRACKING. -/
def startLearningEffect (n : LaneId) (s : State) : Eff :=
  let c := (laneAt s n).life.st.code
  if 4 ≤ c ∧ c ≤ 8 then .ok (startLearning n s) else .error 0x0401

end Sys2Proof.Machine
end

