-- ==== Sys2Proof/Machine/Channel.lean ====
section
/-! DEFINITION. The read channels of a lane (06_read_channel.md): acquisition, marks, dropouts, sector records and capture. -/

namespace Sys2Proof.Machine

/-! ### Access -/

/-- A lane's read path changed. -/
def setRd (n : LaneId) (f : ReadPath → ReadPath) (s : State) : State := setLane n (fun l => { l with rd := f l.rd })  s

/-- One channel changed. -/
def setChan (n : LaneId) (c : ChanId) (f : Channel → Channel) (s : State) : State :=
  setRd n (fun r => { r with channels := vecModify r.channels c f }) s

/-- One extent read changed. -/
def setJob (n : LaneId) (k : TrackId) (f : ReadJob → ReadJob) (s : State) : State :=
  setRd n (fun r => { r with jobs := vecModify r.jobs k (fun o => o.map f) }) s

/-- The track of a channel (R15). -/
def trackOf (c : ChanId) : TrackId := Fin.ofNat 4 c.val

/-- The S channel, or the V channel, of a track. -/
def chanOf (k : TrackId) (v : Bool) : ChanId := Fin.ofNat 8 (k.val + 4 * b2n v)

/-- Layer that a lane reads. -/
def readLayer (l : Lane) : Nat := l.life.layer.getD 0

/-- The channel frames sectors in its lane's mode: an extent read on its track, or a pass seen by its V channel, while the bit rate lies
within 96 to 384 Mbit/s (R284, R286). -/
def frames (l : Lane) (c : ChanId) : Bool :=
  decide (2496 ≤ velocity l ∧ velocity l ≤ 9984) &&
    if channelMode l = 1 then ((l.rd.jobs[trackOf c]).map (fun j => decide (j.next < 72))).getD false
    else decide (channelMode l = 2) && decide (4 ≤ c.val) && (l.warm.testPass.isSome || l.wr.pass.isSome)

/-- A V channel whose track's gate is low in the pass (R285). -/
def gateLow (l : Lane) (c : ChanId) : Bool :=
  decide (channelMode l = 2) && (l.wr.pass.map (fun p => (p.tracks[trackOf c]).isNone)).getD false

/-! ### Decoder cores (R341) -/

/-- The pool of decoder cores changed. -/
def setPool (f : DecoderPool → DecoderPool) (s : State) : State := { s with pool := f s.pool }

/-- A sector still waits for the decode it was queued for: its extent read holds it, delivered at that time and not judged. -/
def DecodeJob.live (s : State) (d : DecodeJob) : Bool :=
  (((laneAt s d.lane).rd.jobs[d.track]).bind (fun j => mapGet j.sectors d.sector)).any (fun r => decide (r.stamp = d.stamp) && !r.judged)

/-- A sector is taken before another: first decodes first, then the earlier last channel bit. -/
def DecodeJob.before (a b : DecodeJob) : Bool := if a.later = b.later then decide (a.stamp < b.stamp) else !a.later

/-- Free cores take the sectors that come first. -/
def takeCores : Nat → List DecodeJob → List DecodeJob → List DecodeJob × List DecodeJob
  | 0, held, waiting => (held, waiting)
  | n + 1, held, waiting =>
    match waiting with
    | [] => (held, [])
    | d :: rest =>
      let first := rest.foldl (fun a x => if x.before a then x else a) d
      takeCores n (held ++ [first]) (removeFirst (fun x => decide (x = first)) waiting)

/-- Cores that hold no sector, of the 8, take those that wait; sectors whose extent read has gone leave. -/
def fillCores (s : State) : State :=
  let held := s.pool.held.filter (DecodeJob.live s)
  let r := takeCores (8 - held.length) held (s.pool.waiting.filter (DecodeJob.live s))
  setPool (fun p => { p with held := r.1, waiting := r.2 }) s

/-! ### Frames and sectors -/

/-- A channel bit is flagged (R315, R325): in a span, or after the start of the dropout in progress less its guard. -/
def Channel.flagged (x : Channel) (guard b : Nat) : Bool :=
  x.flags.any (fun f => decide (f.1 ≤ b ∧ b < f.2)) || (x.dropout.map (fun a => decide (a ≤ b + guard))).getD false

/-- PSA of the next sector of an extent read. -/
def ReadJob.psa (j : ReadJob) (k i : Nat) : Nat :=
  match j.relocBand with
  | some b => relocPsa j.layer k b j.slot i
  | none => if j.leadIn then match leadPlace (72 * j.slot + i) with
      | (b, f) => psaOf j.layer b f k
    else slotPsa j.layer k j.slot i

/-- The lane's frame boundary is counted on the lowest track that reads. -/
def leadTrack (l : Lane) (k : TrackId) : Bool := allTracks.all (fun q => decide (k.val ≤ q.val) || (l.rd.jobs[q]).isNone)

/-- Physical address of the frame that a channel frames next: of an extent read, or of the sector next verified in a pass. -/
def frameNow (l : Lane) (c : ChanId) : Option Nat :=
  if channelMode l = 1 then (l.rd.jobs[trackOf c]).map (fun j => j.psa (trackOf c).val j.next)
  else l.wr.pass.bind (fun p => (p.tracks[trackOf c]).map (fun pt => slotPsa p.layer (trackOf c).val p.slot pt.judged))

/-- The channel acquires at the preamble of its next frame (R294): ordered, or the frame is not the one after the last that it framed. -/
def acquires (l : Lane) (c : ChanId) : Bool :=
  l.rd.channels[c].reacquire || ((frameNow l c).map (fun p => decide (l.rd.channels[c].ahead ≠ some p))).getD false

/-- A ladder runs on the lane. -/
def ladderRuns (l : Lane) : Bool := l.rd.held.toList.any (fun j => j.isSome) || l.rd.jobs.toList.any (fun j => (j.map (fun q => decide (q.step ≠ 0))).getD false)

/-- The frame counts toward the measurement in progress (R511, R525). -/
def frameCounts (s : State) (n : LaneId) (good : Bool) : Bool :=
  let l := laneAt s n
  let w := l.warm
  w.running && decide (1 ≤ w.part ∧ w.part ≤ 5) && good && decide (w.settle = 0) && !ladderRuns l && decide (w.frames < partFrames w.part) &&
    (decide (w.part ≤ 2) || decide (w.inForce.getD (probeIndex w.part) 0 = trimGoal s n w (probeIndex w.part)))

/-- What a part measures at a frame: AGC corrections, mean samples and frames with no dropout flag of the 8 channels for RF, the crosstalk
balance for TRACKING, the sum of the SNR estimates of the four S outputs for a probe (R514 to R516, R520). -/
def figures (l : Lane) : List Int :=
  if l.warm.part = 1 then
    perChan l (fun x => x.agc) ++ perChan l (fun x => x.mean) ++ perChan l (fun x => if x.dropped then 0 else 1)
  else if l.warm.part = 2 then [l.rd.balance]
  else [sumInt ((perChan l (fun x => x.snr)).take 4)]

/-- A frame counted toward the measurement in progress. -/
def countFrame (l : Lane) : WarmUp :=
  { l.warm with
    frames := l.warm.frames + 1
    sums := if l.warm.frames = 0 then figures l else List.zipWith (fun a b => a + b) l.warm.sums (figures l) }

/-- A frame of the lane ends and the next begins (R332, R511, R523). -/
def endLaneFrame (n : LaneId) (good : Bool) (s : State) : State :=
  let counts := frameCounts s n good
  frameBegins n (setLane n (fun l => { l with
    warm := if counts then countFrame l else l.warm
    rd := { l.rd with fast := l.rd.fast - 1 } }) s)

/-- A record combined with what the ladder holds of its sector (R344, R353). -/
def combine (ladder : Bool) (old : Option SectorRead) (r : SectorRead) : SectorRead :=
  match old with
  | none => r
  | some o =>
    if ladder then
      { r with
        soft := if o.soft.isEmpty then r.soft else if r.soft.isEmpty then o.soft
          else List.zipWith (fun x y => sat (x + y) (-31) 31) o.soft r.soft
        erased := if o.erased.isEmpty then r.erased else if r.erased.isEmpty then o.erased
          else List.zipWith (fun x y => x && y) o.erased r.erased
        noTiming := o.noTiming && r.noTiming, blank := o.blank && r.blank, good := o.good, judged := o.good.isSome
        outcome := o.outcome, firstFlagged := o.firstFlagged }
    else { r with firstFlagged := o.firstFlagged }

/-- A record without soft values: NO_TIMING or BLANK (R296, R329). -/
def emptyRecord (psa : Nat) (noTiming blank : Bool) : SectorRead :=
  { psa := psa, soft := [], erased := [], noTiming := noTiming, blank := blank, laneDrop := false, diversity := false, aligns := []
    falseStarts := [], raw := [], stamp := 0, tries := 0, judged := false, good := none, outcome := 0, firstFlagged := false }

/-- A sector joins those that wait for a core (R341). -/
def awaitCore (n : LaneId) (k : TrackId) (i stamp : Nat) (later : Bool) (s : State) : State :=
  fillCores (setPool (fun p => { p with
    waiting := p.waiting ++ [{ lane := n, track := k, sector := i, stamp := stamp, later := later }] }) s)

/-- A record delivered to the decoder (R311, R341): the sector is the job's next. -/
def deliver (n : LaneId) (k : TrackId) (r : SectorRead) (s : State) : State :=
  match (laneAt s n).rd.jobs[k] with
  | none => s
  | some j =>
    let lead := leadTrack (laneAt s n) k
    let stamp := s.pool.count
    let fin (x : Channel) : Channel := x.endFrame (some (j.psa k.val j.next))
    let now := { combine (decide (j.step ≠ 0)) (mapGet j.sectors j.next) r with stamp := stamp, tries := 0 }
    let s1 := setChan n (chanOf k true) fin (setChan n (chanOf k false) fin
      (setJob n k (fun j => { j with sectors := mapSet j.sectors j.next now, next := j.next + 1 }) s))
    let s2 := setPool (fun p => { p with count := stamp + 1 }) s1
    let s3 := if now.judged then s2 else awaitCore n k j.next stamp (decide (j.step ≠ 0)) s2
    if lead then endLaneFrame n (!r.noTiming && !r.laneDrop) s3 else s3

/-! ### Acquisition (R288, R292 to R297, R323, R328, R329, R331) -/

/-- Blank and recorded references of a layer (L+28:02): gain code and level. -/
def blankReference (s : State) (n : LaneId) (layer : Nat) : Nat := elem s (laneIdx n 0x28) 2 1 (2 * layer + 1)

/-- An AGC correction within ±L+22:06, and its sum with the trim within 0 to 144 (R288). -/
def agcLimit (s : State) (n : LaneId) (c : ChanId) (v : Int) : Int :=
  let lim : Int := (lcfg s n 0x22 6 : Nat)
  let trim := (laneAt s n).warm.inForce.getD c.val 0
  sat (sat v (-lim) lim) (-trim) (144 - trim)

/-- The AGC correction after the preamble (R292): 16 steps of 1/16 of the error to the target rms, in steps of gain. -/
def agcAcquire (s : State) (n : LaneId) (c : ChanId) (rms : Nat) : Int :=
  let err := gainSteps (lcfg s n 0x22 5) rms
  agcLimit s n c ((laneAt s n).rd.channels[c].agc + roundDiv (err * (16 ^ 16 - 15 ^ 16)) (16 ^ 16))

/-- The mean offset of the last 8 accepted sync marks (L+26:06). -/
def readOffset (r : ReadPath) : Int := if r.offsets.isEmpty then 0 else sumInt r.offsets / (r.offsets.length : Int)

/-- A frame whose preamble shows it blank (R328, R329): the record of an S channel is delivered. -/
def blankFrame (n : LaneId) (c : ChanId) (s : State) : State :=
  let s1 := lbump n 0xE0 9 c.val 1 (setChan n c (fun x => { x with sync := 0, blank := true, noTiming := false, reacquire := true, locked := false }) s)
  match (laneAt s n).rd.jobs[trackOf c] with
  | some j => if channelMode (laneAt s n) = 1 ∧ c.val < 4 then deliver n (trackOf c) (emptyRecord (j.psa (trackOf c).val j.next) false true) s1 else s1
  | none => s1

/-- A lock test that fails (R296, R297): counted; event 1201 at the 32nd in a row; the record of an S channel is delivered. -/
def lockFailed (n : LaneId) (c : ChanId) (s : State) : State :=
  let k := (laneAt s n).rd.channels[c].lockFails + 1
  let s1 := lbump n 0xE0 8 c.val 1 (setChan n c (fun x => { x with
    sync := 0, noTiming := true, reacquire := true, locked := false, lockFails := k }) s)
  let s2 := if k = 32 then raise 0x1201 [.u8 n.val, .u8 c.val] s1 else s1
  match (laneAt s n).rd.jobs[trackOf c] with
  | some j => if channelMode (laneAt s n) = 1 ∧ c.val < 4 then deliver n (trackOf c) (emptyRecord (j.psa (trackOf c).val j.next) true false) s2 else s2
  | none => s2

/-- A passed lock test opens the sync window (R293, R295, R313). -/
def lockPassed (n : LaneId) (c : ChanId) (phase residual : Int) (s : State) : State :=
  let l := laneAt s n
  let p : Int := 192 + roundDiv (readOffset l.rd) 32
  setChan n c (fun x => { x with
    sync := 2, noTiming := false, blank := false, reacquire := false, ahead := frameNow l c, locked := true, lockFails := 0, misses := 0
    mark := 0, predicted := p, phase := phase, residual := sat residual (-5000) 5000 }) s

/-- ACQUISITION (R294, R295, R323, R328): the mean |sample| of the preamble at the recorded gain, the rms of the samples, the phase of
the tone, T/64, the mean phase error magnitude of the lock test, Q15 of T, and the frequency that the phase loop has found, ppm. -/
def acquisition (n : LaneId) (c : ChanId) (level rms : Nat) (phase : Int) (phaseError : Nat) (residual : Int) (s : State) : State :=
  let l := laneAt s n
  if frames l c && acquires l c then
    let s1 := setChan n c (fun x => x.endFrame x.ahead) s
    if gateLow l c || decide (1000 * level < lcfg s n 0x28 1 * blankReference s n l.rd.layer) then blankFrame n c s1
    else
      let s2 := setChan n c (fun x => { x with sync := 1, agc := agcAcquire s1 n c rms }) s1
      if phaseError ≤ lcfg s n 0x23 5 then lockPassed n c phase residual s2 else lockFailed n c s2
  else s

/-- ACQUISITION. -/
def execAcquisition (n : LaneId) (c : ChanId) (level rms : Nat) (phase : Int) (phaseError : Nat) (residual : Int) (s : State) :
    Host.Outcome State Fault Refusal := .next (acquisition n c level rms phase phaseError residual s)

/-! ### Marks (R312 to R321, R323) -/

/-- Bits of a mark's predicted span that are flagged. -/
def markFlagged (x : Channel) (guard len : Nat) : Nat :=
  ((upTo len).filter (fun i => x.flagged guard (x.predicted + (i : Int)).toNat)).length

/-- Positions of a window that qualify (R312). -/
def qualifying (limit : Nat) (l : List (Int × Nat)) : List Int :=
  (l.filter (fun p => decide (-8 ≤ p.1 ∧ p.1 ≤ 8 ∧ p.2 ≤ limit))).map (fun p => p.1)

/-- Where the next mark is predicted from the position of a mark (R313): after resync mark 19 it is the next frame's sync mark. -/
def nextPrediction (mark : Nat) (pos : Int) : Nat × Int :=
  if mark = 0 then (1, pos + 2020) else if mark < 19 then (mark + 1, pos + 2004) else (0, pos + 2212 - 40304)

/-- A mark's position taken, with its segment's alignment. -/
def takeMark (x : Channel) (off : Int) (found : Bool) : Channel :=
  let p := nextPrediction x.mark (x.predicted + off)
  { x with aligns := x.aligns ++ [{ mark := x.mark, pos := x.predicted + off, offset := off, found := found }], mark := p.1, predicted := p.2 }

/-- A mark accepted at its earliest qualifying position (R312, R317, R320, R323). -/
def acceptMark (n : LaneId) (c : ChanId) (off : Int) (rest : List Int) (s : State) : State :=
  let x := (laneAt s n).rd.channels[c]
  let early := decide (off ≤ -((lcfg s n 0x26 4 : Nat) : Int))
  let s1 := if early then
      lbump n 0xE0 4 c.val 1 (setChan n c (fun x => { x with falseStarts := x.falseStarts ++
        [{ mark := x.mark, alternate := rest.head?.map (fun r => (r - off).toNat) }] }) s)
    else s
  let s2 := if x.mark = 0 then setRd n (fun r => { r with offsets := (32 * (x.predicted + off - 192) :: r.offsets).take 8 }) s1 else s1
  lbump n 0xE0 2 c.val 1 (setChan n c (fun x => { takeMark x off true with sync := 3, misses := 0 }) s2)

/-- The third missed mark in a row (R318, R319): the rest of the sector is flagged and the channel acquires again; an S channel
in read mode, or a V channel in verify mode, drops the lane. -/
def markDrop (n : LaneId) (c : ChanId) (from' : Nat) (s : State) : State :=
  let s1 := setChan n c (fun x => { x with sync := 0, misses := 0, reacquire := true, flags := x.flags ++ [(from', 40304)] }) s
  if (channelMode (laneAt s n) = 1) = (c.val < 4) then
    lbump n 0xE1 1 0 1 (setRd n (fun r => { r with channels := r.channels.map (fun x => { x with reacquire := true }) })
      (setChan n c (fun x => { x with laneDrop := true }) s1))
  else s1

/-- A mark that is missed (R316, R317, R323): the flywheel. -/
def missMark (n : LaneId) (c : ChanId) (s : State) : State :=
  let x := (laneAt s n).rd.channels[c]
  let k := x.misses + 1
  let s1 := lbump n 0xE0 3 c.val 1 (setChan n c (fun x => { takeMark x 0 false with misses := k, sync := if x.sync = 4 then 5 else 4 }) s)
  if 3 ≤ k then markDrop n c x.predicted.toNat s1 else s1

/-- SYNC_MARK_SEARCH (R323): a window closes. A mark more than half inside flagged bits is not searched (R314). -/
def syncMarkSearch (n : LaneId) (c : ChanId) (w : MarkWindow) (s : State) : State :=
  let l := laneAt s n
  let x := l.rd.channels[c]
  if frames l c && !(acquires l c && x.aligns.isEmpty) && decide (2 ≤ x.sync ∧ x.sync ≤ 5) && decide (w.sync = decide (x.mark = 0)) && decide (x.aligns.length < 20) then
    let len := if w.sync then 48 else 32
    if len < 2 * markFlagged x (lcfg s n 0x27 4) len then setChan n c (fun x => takeMark x 0 false) s
    else
      match qualifying (lcfg s n 0x26 (if w.sync then 2 else 3)) w.offsets with
      | off :: rest => acceptMark n c off rest s
      | [] => missMark n c s
  else s

/-- SYNC_MARK_SEARCH. -/
def execSyncMarkSearch (n : LaneId) (c : ChanId) (w : MarkWindow) (s : State) : Host.Outcome State Fault Refusal :=
  .next (syncMarkSearch n c w s)

/-! ### Dropouts (R299, R324 to R326) -/

/-- A dropout begins at a bit. -/
def beginDropout (n : LaneId) (c : ChanId) (bit : Nat) (s : State) : State :=
  let l := laneAt s n
  if frames l c && !gateLow l c && (l.rd.channels[c].dropout).isNone then
    lbump n 0xE0 6 c.val 1 (setChan n c (fun x => { x with dropout := some bit }) s)
  else s

/-- Bits of the sector that a span flags. -/
def spanBits (lo hi : Nat) : Nat := min hi 40304 - lo

/-- The flag of a dropout closed at a bit (L+E0:07). -/
def closeDropout (n : LaneId) (c : ChanId) (lo hi : Nat) (s : State) : State :=
  lbump n 0xE0 7 c.val (spanBits lo hi) (setChan n c (fun x => { x with dropout := none, flags := x.flags ++ [(lo, hi)] }) s)

/-- TIMING_LOST (R299, R323): the channel continues as if a dropout had begun. -/
def execTimingLost (n : LaneId) (c : ChanId) (bit : Nat) (s : State) : Host.Outcome State Fault Refusal :=
  if 3 ≤ (laneAt s n).rd.channels[c].sync then .next (beginDropout n c bit (setChan n c (fun x => { x with locked := false }) s)) else .next s

/-- DROPOUT_START (R324). -/
def execDropoutStart (n : LaneId) (c : ChanId) (bit : Nat) (s : State) : Host.Outcome State Fault Refusal := .next (beginDropout n c bit s)

/-- DROPOUT_END (R324, R325): the flag covers L+27:04 bits before the start and after the end. -/
def execDropoutEnd (n : LaneId) (c : ChanId) (bit : Nat) (s : State) : Host.Outcome State Fault Refusal :=
  match (laneAt s n).rd.channels[c].dropout with
  | none => .next s
  | some a => let g := lcfg s n 0x27 4; .next (closeDropout n c (a - g) (bit + g) s)

/-- DROPOUT_COAST_LIMIT (R326): a dropout longer than L+27:05; the rest of the sector is flagged and the channel acquires again. -/
def execDropoutCoastLimit (n : LaneId) (c : ChanId) (bit : Nat) (s : State) : Host.Outcome State Fault Refusal :=
  match (laneAt s n).rd.channels[c].dropout with
  | none => .next s
  | some a =>
    if lcfg s n 0x27 5 < bit - a then
      .next (setChan n c (fun x => { x with sync := 0, reacquire := true }) (closeDropout n c (a - lcfg s n 0x27 4) 40304 s))
    else .next s

/-! ### Sector records (R302 to R311, R327) -/

/-- Position of a channel's sync mark less its place in the format: its count of channel bits against the index of the detector (R308). -/
def frameShift (x : Channel) : Int := ((x.aligns.find? (fun a => decide (a.mark = 0))).map (fun a => a.pos - 192)).getD 0

/-- A look at a channel bit, by its index in the sector, gives the bit weight (R307, R309): the channel has framed the sector, with timing,
and does not flag the bit; a V channel only while L+25:04 is true. -/
def looks (s : State) (n : LaneId) (o : Nat) (b : Nat) : Bool :=
  let x := (laneAt s n).rd.channels.toList.getD o Channel.reset
  x.framed && !x.noTiming && !x.blank && !x.flagged (lcfg s n 0x27 4) ((b : Int) + frameShift x).toNat &&
    (decide (o < 4) || decide (lcfg s n 0x25 4 = 1))

/-- An output adapts at a bit (R302): while L+24:0A is true, its channel has framed the sector, and no input of it is in a dropout. -/
def adaptsAt (s : State) (n : LaneId) (o b : Nat) : Bool :=
  let chans := (laneAt s n).rd.channels.toList
  decide (lcfg s n 0x24 0xA = 1) && (chans.getD o Channel.reset).framed &&
    ((chans.drop (4 * (o / 4))).take 4).all (fun x => !x.flagged (lcfg s n 0x27 4) ((b : Int) + frameShift x).toNat)

/-- Noise weights (R303, R307, L+25:05), in 1/256: no S weights in verify mode, no V weights in read mode without the second look. -/
def noiseWeights (l : Lane) (second : Bool) : List Nat :=
  let sg (c : ChanId) : Nat := max l.rd.channels[c].sigma 1
  let ref := (List.ofFn (fun k : Fin 4 => sg (chanOf k false))).foldl min (sg 0)
  allChans.map (fun c =>
    if (channelMode l = 2 ∧ c.val < 4) ∨ (channelMode l = 1 ∧ 4 ≤ c.val ∧ !second) then 0 else min 1024 (256 * ref / sg c))

/-- The detector as a lane's entries and estimates set it (R300, R303 to R306, R332). -/
def detectorOf (s : State) (n : LaneId) : Detector :=
  let l := laneAt s n
  let sg (k : TrackId) : Nat := max l.rd.channels[chanOf k false].sigma 1
  { g := (lcfg s n 0x25 1 : Nat), cIn := (lcfg s n 0x25 2 : Nat), cOut := (lcfg s n 0x25 3 : Nat)
    held := sumNat (allTracks.map (fun k => if l.rd.channels[chanOf k false].blank then 2 ^ k.val else 0))
    weights := noiseWeights l (decide (lcfg s n 0x25 4 = 1)), window := max 1 (lcfg s n 0x25 7), scale := (lcfg s n 0x25 6 : Nat)
    ref := allTracks.foldl (fun a k => min a (sg k)) (sg 0)
    step := ((if 0 < l.rd.fast then 4 else 1) * lcfg s n 0x24 9 : Nat) }

/-- Taps of the 8 outputs in force on a layer, with 29 bits below the Q3.12 unit (R301). -/
def tapsOf (s : State) (n : LaneId) (layer : Nat) : List (List Int) :=
  let b := stored s (laneIdx n 0x24) (1 + layer)
  (upTo 8).map (fun o => (upTo 60).map (fun i => fromLEInt (slice b (120 * o + 2 * i) 2) * 2 ^ 29))

/-- Codes of a channel from the detector's index `b` on; what was not taken reads 0, and a code saturates (R291). -/
def codesFrom (r : SectorSamples) (x : Channel) (c b : Nat) : List Int :=
  (((r.codes.getD c []).map (fun v => sat v (-128) 127)) ++ List.replicate 64 0).drop ((b : Int) + 16 + frameShift x).toNat

/-- The pass of the detector over a sector (R304). -/
def detectSector (s : State) (n : LaneId) (k : TrackId) (r : SectorSamples) : Detected :=
  let l := laneAt s n
  detect (detectorOf s n) (looks s n) (adaptsAt s n) (tapsOf s n l.rd.layer)
    (allChans.map (fun c => codesFrom r l.rd.channels[c] c.val (firstBit - 7))) k.val

/-- Index at which segment `g` of a sector begins (R190, R313): after the mark that aligns it. -/
def segmentStart (x : Channel) (g : Nat) : Nat :=
  ((x.aligns.find? (fun a => decide (a.mark = g))).map (fun a => (a.pos - frameShift x + (if g = 0 then 48 else 32)).toNat)).getD (240 + 2004 * g)

/-- Soft values of the 20 segments with 4 bits of margin at each edge, 1,980 to the segment (R311), with their flags: a bit that neither
look saw is 0 and flagged (R309). -/
def segmentSoft (x : Channel) (sLook vLook : Nat → Bool) (soft : List Int) : List (Int × Bool) :=
  (upTo 20).flatMap (fun g =>
    let b := segmentStart x g - 4
    let cut := (soft.drop (b - firstBit)).take 1980
    (upTo 1980).zipWith (fun i v => if sLook (b + i) || vLook (b + i) then (v, false) else (0, true)) (cut ++ List.replicate (1980 - cut.length) 0))

/-- What a sector leaves in an output (R292, R298, R303, R514): noise and SNR estimates, the clock, the mean sample, and the AGC correction,
frozen while a dropout is flagged. -/
def adaptOutput (n : LaneId) (r : SectorSamples) (d : Detected) (c : ChanId) (s : State) : State :=
  let x := (laneAt s n).rd.channels[c]
  match noiseOf (looks s n) c.val d.decided with
  | none => s
  | some sigma =>
    let g := lcfg s n 0x27 4
    let t := timingLoop (lcfg s n 0x23 3 : Nat) (lcfg s n 0x23 4 : Nat) (fun b => x.flagged g ((b : Int) + frameShift x).toNat) c.val d.decided
      (0, roundDiv (x.residual * 2 ^ 53) 1000000)
    let codes := (codesFrom r x c.val firstBit).take passBits
    let rms := (meanSquare codes).sqrt
    let agc := if x.dropout.isSome then x.agc else agcLimit s n c (x.agc + gainSteps (lcfg s n 0x22 5) rms)
    setChan n c (fun y => { y with
      sigma := sigma, snr := sat (powerRatio ((detectorOf s n).power (c.val % 4)) sigma) (-32768) 32767
      residual := sat (roundDiv (t.2 * 1000000) (2 ^ 53)) (-5000) 5000, phase := (y.phase + roundDiv (t.1 * 64) (2 ^ 53)) % 64, agc := agc
      mean := roundDiv (256 * sumInt codes) (max codes.length 1) }) s

/-- Adapted taps of a track's outputs overwrite the set of the layer in force (R302). -/
def storeTaps (n : LaneId) (k : TrackId) (d : Detected) (s : State) : State :=
  let layer := (laneAt s n).rd.layer
  let image (o : Nat) : Bytes := (d.taps.getD o []).flatMap (fun t => toLEInt 2 (sat (roundDiv t (2 ^ 29)) (-32768) 32767))
  if lcfg s n 0x24 0xA = 1 then
    setRd n (fun q => { q with adapted := q.adapted ||| 2 ^ layer })
      (store (laneIdx n 0x24) (1 + layer)
        (patch (patch (stored s (laneIdx n 0x24) (1 + layer)) (120 * k.val) (image k.val)) (120 * (4 + k.val)) (image (4 + k.val))) s)
  else s

/-- What a sector's end leaves on a track (R292, R298, R302, R303, R327, R332): its outputs and taps, the layer's envelope reference after a
sector with no dropout, and the crosstalk balance. -/
def adaptTrack (n : LaneId) (k : TrackId) (r : SectorSamples) (d : Detected) (s : State) : State :=
  let l := laneAt s n
  let x := l.rd.channels[chanOf k false]
  let codes := (codesFrom r x k.val firstBit).take passBits
  let env := sumNat (codes.map Int.natAbs) / max codes.length 1
  let bal := balanceOf (detectorOf s n) d.decided
  let s1 := storeTaps n k d (adaptOutput n r d (chanOf k true) (adaptOutput n r d (chanOf k false) s))
  let s2 := if x.flags.isEmpty && x.dropout.isNone then
      store (laneIdx n 0x27) 6 (patch (stored s1 (laneIdx n 0x27) 6) l.rd.layer [byte env]) s1
    else s1
  if k.val = 1 ∨ k.val = 2 then setRd n (fun q => { q with balance := bal }) s2 else s2

/-- The record of a sector from what the detector gives (R311). -/
def recordOf (s : State) (n : LaneId) (k : TrackId) (psa : Nat) (d : Detected) : SectorRead :=
  let x := (laneAt s n).rd.channels[chanOf k false]
  let sLook := looks s n k.val
  let vLook := looks s n (4 + k.val)
  let raw := segmentSoft x sLook vLook d.soft
  let out := sectorSoft psa raw (fun _ => false) 0
  { psa := psa, soft := out.1, erased := out.2, noTiming := false, blank := false, laneDrop := x.laneDrop
    diversity := (upTo 20).any (fun g => (upTo 1972).any (fun i => vLook (segmentStart x g + i)))
    aligns := x.aligns, falseStarts := x.falseStarts, raw := raw, stamp := 0, tries := 0, judged := false, good := none, outcome := 0
    firstFlagged := false }

/-- SECTOR_RECORD (R300 to R311): at a sector's end on a track that reads, the detector's values are delivered as a record. -/
def sectorRecord (n : LaneId) (k : TrackId) (r : SectorSamples) (s : State) : State :=
  let l := laneAt s n
  match l.rd.jobs[k] with
  | none => s
  | some j =>
    if j.next < 72 ∧ channelMode l = 1 ∧ (j.leadIn ∨ r.psa = j.psa k.val j.next) then
      let d := detectSector s n k r
      let rec' := recordOf s n k r.psa d
      let lost := sumNat ((upTo 20).map (fun q => ((segmentSlice rec'.raw q 0).filter (fun x => x.2)).length))
      let s1 := lbump n 0xE0 1 k.val (b2n l.rd.channels[chanOf k false].framed)
        (lbump n 0xE0 1 (4 + k.val) (b2n l.rd.channels[chanOf k true].framed) s)
      let s2 := lbump n 0xE1 2 0 (b2n rec'.diversity) (lbump n 0xE1 3 0 lost s1)
      deliver n k rec' (adaptTrack n k r d s2)
    else s

/-- SECTOR_RECORD. -/
def execSectorRecord (n : LaneId) (k : TrackId) (r : SectorSamples) (s : State) : Host.Outcome State Fault Refusal :=
  .next (sectorRecord n k r s)

/-! ### Capture, taps and defect list (R335, R337, R367) -/

/-- L+2A:01: a capture is armed. -/
def captureArmEffect (n : LaneId) (v : Bytes) (s : State) : Eff :=
  .ok (setRd n (fun r => { r with capStatus := 1, capCount := fromLE v, capData := [] }) s)

/-- CAPTURE_START (R335): at the sync mark of the next sector that the lane frames; each sample set is 8 codes. -/
def execCaptureStart (n : LaneId) (samples : List Bytes) (s : State) : Host.Outcome State Fault Refusal :=
  let l := laneAt s n
  if l.rd.capStatus = 1 ∧ l.rd.channels.toList.any (fun x : Channel => decide (2 ≤ x.sync)) ∧ samples.length = l.rd.capCount then
    .next (setRd n (fun r => { r with capStatus := 3, capData := samples.flatMap (fun x => (x ++ zeroBytes 8).take 8) }) s)
  else .next s

/-- L+24:0B: the pickup class's taps of the layers named are restored. -/
def restoreTapsEffect (n : LaneId) (v : Bytes) (s : State) : Eff :=
  .ok ((upTo 8).foldl (fun a k => if bit (fromLE v) k then unstore (laneIdx n 0x24) (1 + k) a else a) s)

/-- L+32:03: the read defect list is cleared. -/
def clearDefectsEffect (n : LaneId) (s : State) : Eff := .ok (setRd n (fun r => { r with defects := [] }) s)

end Sys2Proof.Machine
end

