-- ==== Sys2Proof/Machine/Read.lean ====
section
/-! DEFINITION. Extent reads (07_codes_defects.md): decoding, the outer code, the retry ladder, delivery, defects and refresh
copies. -/

namespace Sys2Proof.Machine

/-! ### Checks of a decoded sector (R343, R344) -/

/-- The highest epoch known for a disc. -/
def knownEpoch (d : Disc) : Nat := max (max d.epoch d.seenEpoch) d.openEpoch

/-- Fields of the metadata that hold in every kind of sector: write epoch, bits [6:4] of the kind aside, and the user CRC. -/
def metaCommon (d : Disc) (msg : Bytes) : Bool :=
  let m := msg.drop 4096
  decide (field m 12 4 ≤ knownEpoch d) && decide (field m 24 8 = crc64 (msg.take 4096))

/-- Fields of a sector of a data extent, or of its copy. -/
def metaData (d : Disc) (msg : Bytes) (e i : Nat) (copy : Bool) : Bool :=
  let m := msg.drop 4096
  match extentPlace e with
  | (layer, k, _) =>
    metaCommon d msg && decide (field m 0 4 = 64 * e + i) && decide (field m 4 1 = layer) && decide (field m 5 1 = k) &&
      decide (field m 6 1 = i) && decide (field m 7 1 % 16 ≤ 1) && decide (bit (field m 7 1) 7 = copy) && decide (field m 8 4 = e) &&
      decide (slice m 16 8 = namespaceTag d)

/-- Fields of a padding sector of a relocation extent. -/
def metaPadding (d : Disc) (msg : Bytes) (layer k i : Nat) : Bool :=
  let m := msg.drop 4096
  metaCommon d msg && decide (field m 0 4 = 0xFFFFFFFF) && decide (field m 4 1 = layer) && decide (field m 5 1 = k) &&
    decide (field m 6 1 = i) && decide (field m 7 1 % 16 = 1) && !bit (field m 7 1) 7 && decide (field m 8 4 = 0xFFFFFFFF) &&
    decide (slice m 16 8 = namespaceTag d)

/-- Fields of a lead-in block's sector. -/
def metaLead (d : Disc) (msg : Bytes) (layer k i : Nat) : Bool :=
  let m := msg.drop 4096
  metaCommon d msg && decide (field m 4 1 = layer) && decide (field m 5 1 = k) && decide (field m 6 1 = i) &&
    decide (field m 7 1 % 16 = 3) && !bit (field m 7 1) 7

/-- Logical extent and sector of a physical sector of the data bands. -/
def originalOf (d : Disc) (psa : Nat) : Option (Nat × Nat) :=
  let layer := bits psa 29 27
  let k := psa % 4
  let f := dataFrame (psaBand psa) (bits psa 10 2)
  (indexOfSlot d.skips[trackPos layer k] (f / 72)).map (fun j => (logicalExtent layer k j, f % 72))

/-- The relocation entry in force for an original: the last of kind 0 (R223). -/
def copyOf (d : Disc) (psa : Nat) : Option Nat :=
  (d.relocs.reverse.find? (fun r => decide (r.kind = 0 ∧ r.psa = psa))).map (fun r => r.repl)

/-- A kind-2 entry marks a sector defective. -/
def defective (d : Disc) (psa : Nat) : Bool := d.relocs.any (fun r => decide (r.kind = 2 ∧ r.psa = psa))

/-- The checks of R343 on sector `i` of an extent read. -/
def sectorOk (d : Disc) (j : ReadJob) (k i : Nat) (msg : Bytes) : Bool :=
  if 64 ≤ i then true
  else if j.leadIn then metaLead d msg j.layer k i
  else
    match j.relocBand with
    | none => metaData d msg j.e i false
    | some _ =>
      match d.relocs.reverse.find? (fun r => decide (r.kind = 0 ∧ r.repl = j.psa k i)) with
      | none => metaPadding d msg j.layer k i
      | some r =>
        match originalOf d r.psa with
        | none => false
        | some (e, s) => metaData d msg e s true

/-- A judged sector counts as an erasure (R344). -/
def isFlagged (d : Disc) (j : ReadJob) (k : Nat) (r : SectorRead) : Bool :=
  r.judged && r.good.isNone && !(r.blank && (j.leadIn || decide (slotSeen d j.layer k j.slot [] ≠ .recorded)))

/-- Flagged sectors of an extent read. -/
def flaggedOf (d : Disc) (j : ReadJob) (k : Nat) : List Nat := (j.sectors.filter (fun p => isFlagged d j k p.2)).map (fun p => p.1)

/-- A job's sector changed. -/
def setSector (n : LaneId) (k : TrackId) (i : Nat) (f : SectorRead → SectorRead) (s : State) : State :=
  setJob n k (fun j => { j with sectors := j.sectors.map (fun p => if p.1 = i then (p.1, f p.2) else p) }) s

/-! ### Read defect list (R367) -/

/-- A defect list with the entry whose last time is oldest taken out. -/
def dropOldest (l : List Defect) : List Defect :=
  match l.foldl (fun (a : Option Nat) x => some (min (a.getD x.time) x.time)) none with
  | none => l
  | some t => removeFirst (fun x => decide (x.time = t)) l

/-- A sector flagged at its first decode enters the list, or is counted again. -/
def noteDefect (psa now : Nat) (l : List Defect) : List Defect :=
  if l.any (fun x => decide (x.psa = psa)) then
    l.map (fun x => if x.psa = psa then { x with time := now, hits := min (x.hits + 1) 65535 } else x)
  else (if 4096 ≤ l.length then dropOldest l else l) ++ [{ psa := psa, time := now, hits := 1, outcome := 15 }]

/-- How a listed sector was delivered. -/
def settleDefect (psa outcome : Nat) (l : List Defect) : List Defect :=
  l.map (fun x => if x.psa = psa then { x with outcome := outcome } else x)

/-! ### Decoding one sector (R322, R339 to R344) -/

/-- A segment depends on a false start (R321): the last mark accepted at or before it was one. -/
def dependent (r : SectorRead) (g : Nat) : Bool :=
  (upTo (g + 1)).foldl (fun dep m =>
    match r.aligns.find? (fun a => decide (a.mark = m)) with
    | some a => if a.found then r.falseStarts.any (fun f => decide (f.mark = m)) else dep
    | none => dep) false

/-- Offsets of the realignments, in order (R322). -/
def realignOffsets (r : SectorRead) : List Int :=
  (r.falseStarts.filterMap (fun f => f.alternate.bind (fun a => if a ≤ 4 then some (a : Int) else none))) ++
    [1, -1, 2, -2, 3, -3, 4, -4]

/-- One decode of a record: as delivered, or at the realignment that its tries have come to (R322, R339). -/
def decodeOnce (off limit : Nat) (r : SectorRead) : Option Bytes × Nat :=
  if r.tries = 0 then ldpcDecode off limit (eraseGroups r.soft r.erased)
  else
    match sectorSoft r.psa r.raw (dependent r) ((realignOffsets r).getD (r.tries - 1) 0) with
    | (soft, er) => ldpcDecode off limit (eraseGroups soft er)

/-- The core that holds a sector is free again. -/
def freeCore (n : LaneId) (k : TrackId) (i : Nat) (s : State) : State :=
  setPool (fun p => { p with held := p.held.filter (fun d => !decide (d.lane = n ∧ d.track = k ∧ d.sector = i)) }) s

/-- A decode that did not converge, with a realignment left: the sector waits for a core again (R322, R339, R341). -/
def realignNext (n : LaneId) (k : TrackId) (i : Nat) (r : SectorRead) (s : State) : State :=
  awaitCore n k i r.stamp true (freeCore n k i (setSector n k i (fun x => { x with tries := x.tries + 1 }) s))

/-- A record without soft values is judged without a decode (R296, R329, R344). -/
def judgeEmpty (n : LaneId) (k : TrackId) (i : Nat) (d : Disc) (j : ReadJob) (r : SectorRead) (s : State) : State :=
  let bad := isFlagged d j k.val { r with judged := true }
  let s1 := setSector n k i (fun x => { x with judged := true, firstFlagged := x.firstFlagged || (decide (j.step = 0) && bad) }) s
  if j.step = 0 && bad then setRd n (fun q => { q with defects := noteDefect r.psa (timeNow s) q.defects }) s1 else s1

/-- The last decode of a record is judged by R343: the message it gave, if any. -/
def judgeDecode (n : LaneId) (k : TrackId) (i : Nat) (d : Disc) (j : ReadJob) (r : SectorRead) (m : Option Bytes) (s : State) : State :=
  let first := decide (j.step = 0)
  let ok := (m.map (sectorOk d j k.val i)).getD false
  let good := if ok && !defective d r.psa then m else none
  let saved := decide (r.tries ≠ 0) && m.isSome
  let s1 := setSector n k i (fun x => { x with
    judged := true, good := good, outcome := if first then 0 else j.step, firstFlagged := x.firstFlagged || (first && good.isNone) }) s
  let s2 := lbump n 0xE3 4 0 (b2n (m.isSome && !ok)) (lbump n 0xE0 5 k.val (b2n saved) s1)
  let s3 := if !first && good.isSome then lbump n 0xE3 8 (j.step - 1) 1 s2 else s2
  if first && good.isNone then setRd n (fun q => { q with defects := noteDefect r.psa (timeNow s) q.defects }) s3
  else if saved && good.isSome then setRd n (fun q => { q with defects := settleDefect r.psa 0 q.defects }) s3
  else s3

/-- A core completes the decode of a record (R339): it is judged, or goes to its next realignment. -/
def decodeRecord (n : LaneId) (k : TrackId) (i : Nat) (d : Disc) (j : ReadJob) (r : SectorRead) (s : State) : State :=
  if r.noTiming ∨ r.blank then judgeEmpty n k i d j r s
  else
    let first := decide (j.step = 0)
    match decodeOnce (lcfg s n 0x30 4) (lcfg s n 0x30 (if first then 1 else 2)) r with
    | (m, iters) =>
      let s1 := lbump n 0xE3 3 0 iters s
      let s2 := if first && decide (r.tries = 0) then lbump n 0xE3 1 0 1 (lbump n 0xE3 2 0 (b2n m.isNone) s1) else s1
      if m.isNone && first && !r.falseStarts.isEmpty && decide (lcfg s n 0x26 7 = 1) && decide (r.tries < (realignOffsets r).length) then
        realignNext n k i r s2
      else judgeDecode n k i d j r m s2

/-- LDPC_DECODE (R339, R341): the core that holds sector `i` of the track's extent read completes it and takes the next. -/
def decodeSector (n : LaneId) (k : TrackId) (i : Nat) (s0 : State) : State :=
  let s := fillCores s0
  match (laneAt s n).disc, (laneAt s n).rd.jobs[k] with
  | some d, some j =>
    match mapGet j.sectors i with
    | some r =>
      if s.pool.held.any (fun x => decide (x.lane = n ∧ x.track = k ∧ x.sector = i)) then fillCores (decodeRecord n k i d j r s) else s
    | none => s
  | _, _ => s

/-- LDPC_DECODE. -/
def execLdpcDecode (n : LaneId) (k : TrackId) (sector : Nat) (s : State) : Host.Outcome State Fault Refusal :=
  .next (decodeSector n k sector s)

/-! ### What the host waits for (R354, R355, R360) -/

/-- Team and team extent of a logical extent on a lane. -/
def teamPlace (s : State) (n : LaneId) (e : Nat) : Option (TeamId × Nat) :=
  (teamOfLane s n).map (fun t => (t, teamExtent (discCount s t) (laneAt s n).life.discIndex e))

/-- Data sectors of an extent read that hold requested LBAs. -/
def requested (s : State) (n : LaneId) (j : ReadJob) : List Nat :=
  if j.leadIn then upTo 64
  else if j.relocBand.isSome then []
  else
    match teamPlace s n j.e with
    | none => []
    | some (t, x) => (upTo 64).filter (fun i => s.host.flights.any (fun f =>
        decide (f.kind = .read ∧ f.nsid = t.val + 1) && (wantedOn s t f n).contains (64 * x + i)))

/-- Requested sectors that are flagged. -/
def missing (s : State) (n : LaneId) (k : TrackId) (j : ReadJob) : List Nat :=
  match (laneAt s n).disc with
  | none => []
  | some d => (requested s n j).filter (fun i => (flaggedOf d j k.val).contains i)

/-! ### Unrecoverable sectors (R360 to R364) -/

/-- Runs of consecutive numbers of a rising list: first and count. -/
def runsOf : List Nat → List (Nat × Nat)
  | [] => []
  | a :: rest =>
    match runsOf rest with
    | (b, c) :: more => if a + 1 = b then (a, c + 1) :: more else (a, 1) :: (b, c) :: more
    | [] => [(a, 1)]

/-- A run of unrecoverable LBAs entered in the team's list (R364). -/
def enterRun (first count lane now : Nat) (l : List BadRun) : List BadRun :=
  let hit (x : BadRun) : Bool := decide (x.first < first + count ∧ first < x.first + x.count)
  let near := l.filter hit
  let lo := near.foldl (fun a x => min a x.first) first
  let hi := near.foldl (fun a x => max a (x.first + x.count)) (first + count)
  let own : BadRun := { first := first, time := now, count := count, lane := lane, hits := 1 }
  let push (m : List BadRun) (x : BadRun) : List BadRun := (if 256 ≤ m.length then m.drop 1 else m) ++ [x]
  if near.isEmpty ∨ 65535 < hi - lo then push l own
  else push (l.filter (fun x => !hit x))
    { first := lo, time := now, count := hi - lo, lane := lane, hits := min 255 (near.foldl (fun a x => max a x.hits) 0 + 1) }

/-- Sectors that stay flagged after the ladder: event 2020, the list, and the Reads that name them (R362, R364). -/
def loseSectors (n : LaneId) (k : TrackId) (j : ReadJob) (lost : List Nat) (s : State) : State :=
  match teamPlace s n j.e with
  | none => s
  | some (t, x) =>
    if lost.isEmpty then s
    else
      let lbas := lost.map (fun i => 64 * x + i)
      let now := timeNow s
      let s1 := setFlights (fun l => l.map (fun f =>
        let mine := f.left.filter (fun b => lbas.contains b)
        if f.kind = .read ∧ f.nsid = t.val + 1 ∧ !mine.isEmpty then
          { f with
            status := some (2, 0x81, none), left := f.left.filter (fun b => !lbas.contains b)
            badLba := some (mine.foldl min (f.badLba.getD (mine.headD 0))) }
        else f)) s
      let s2 := setTeam t (fun q => { q with bad := (runsOf lbas).foldl (fun l r => enterRun r.1 r.2 n.val now l) q.bad }) s1
      raise 0x2020 [.u8 n.val, .u8 j.layer, .u8 k.val, .u32 j.slot, .u32 lost.length]
        (bump (teamIdx t 0x64) 3 0 lost.length (lbump n 0xE3 9 0 lost.length s2))

/-! ### Delivery (R361, R365, R619) -/

/-- A good LBA put into read reassembly; one that is read again takes fresh lines. -/
def reassemble (t : TeamId) (lba : Nat) (user : Bytes) (s : State) : State :=
  let a := reassemblyPlace s
  let old := s.host.reassembly.any (fun r => decide (r.1 = t.val + 1 ∧ r.2.1 = lba))
  setHost (fun h => { h with reassembly :=
      (h.reassembly.filter (fun r => !decide (r.1 = t.val + 1 ∧ r.2.1 = lba))) ++ [(t.val + 1, lba, a, old)] })
    (bufferWrite 65 a user 0 s)

/-- Requested sectors that are good go to read reassembly. -/
def deliverGood (n : LaneId) (j : ReadJob) (s : State) : State :=
  match teamPlace s n j.e with
  | none => s
  | some (t, x) => (requested s n j).foldl (fun a i =>
      match (mapGet j.sectors i).bind (fun r => r.good) with
      | some m => reassemble t (64 * x + i) (m.take 4096) a
      | none => a) s

/-- A reassembled LBA that no Read waits for any more leaves its lines. -/
def dropReassembled (s : State) : State :=
  setHost (fun h => { h with reassembly := h.reassembly.filter (fun r => h.flights.any (fun f =>
    decide (f.nsid = r.1) && f.left.contains r.2.1)) }) s

/-- One reassembled LBA of a Read is sent (R619): a mark the first time has the extent read again, the second time EP, event
3003 and Internal Error, unless an unrecoverable LBA gives the status. -/
def sendLba (c : CmdId) (lba addr : Nat) (again : Bool) (s : State) : State :=
  match flightOf s c with
  | none => s
  | some f =>
    match bufferRead 65 addr 4096 s with
    | ((b, m), s1) =>
      let gone (st : Option (Nat × Nat × Option Bool)) (a : State) : State :=
        setFlight c (fun g => { g with left := g.left.filter (fun l => l ≠ lba), status := st }) a
      if m = 0 then gone f.status (putLba c f lba b 0 s1)
      else if again then
        raise 0x3003 [.u8 (controllerId c.ctrl), .u8 1]
          (gone (if f.badLba.isSome then f.status else some (0, 6, none)) (putLba c f lba b m s1))
      else setHost (fun h => { h with reassembly := h.reassembly.map (fun r =>
        if r.1 = f.nsid ∧ r.2.1 = lba then (r.1, r.2.1, 0, true) else r) }) s1

/-- A Read sends its reassembled LBAs. -/
def sendReassembled (c : CmdId) (s : State) : State :=
  match flightOf s c with
  | none => s
  | some f =>
    if f.kind ≠ .read ∨ stalled s f then s
    else dropReassembled ((s.host.reassembly.filter (fun r => decide (r.1 = f.nsid ∧ r.2.2.1 ≠ 0) && f.left.contains r.2.1)).foldl
      (fun a r => sendLba c r.2.1 r.2.2.1 r.2.2.2 a) s)

/-- COMMAND_COMPLETE: a command whose conditions hold is committed and its range lock removed; while admission is stopped for
an activation, completions wait (R587). -/
def execCommandComplete (c : CmdId) (s : State) : Host.Outcome State Fault Refusal :=
  if s.host.frozen then .next s
  else .next (carriedCheck (settleSilent (tryComplete c (settleDelete c (sendReassembled c (serveZeros c s))))))

/-! ### Refresh copies (R368 to R370) -/

/-- One refresh copy queued, with its user bytes in staging; a copy beyond 1,024 is dropped. -/
def queueRefresh (n : LaneId) (k : TrackId) (j : ReadJob) (i : Nat) (msg : Bytes) (s : State) : State :=
  if 1024 ≤ ((laneAt s n).wr.queue.filter (fun c => c.refresh)).length then s
  else
    let a := stagingPlace s
    setWr n (fun w => { w with queue := w.queue ++
      [{ track := k, psa := j.psa k.val i, dra := 64 * j.e + i, layer := j.layer, sector := i, kind := field msg 4103 1 % 16
         extent := j.e, user := [], addr := some a, refresh := true, tick := s.ticks }] }) (bufferWrite 65 a (msg.take 4096) 0 s)

/-- The copies that an extent read queues (R368, R369). -/
def queueRefreshes (n : LaneId) (k : TrackId) (j : ReadJob) (s : State) : State :=
  let firsts := (j.sectors.filter (fun p => p.2.firstFlagged)).length
  let late := j.sectors.any (fun p => decide (p.1 < 64) && p.2.good.isSome && p.2.firstFlagged &&
    decide (p.2.outcome = 8 ∨ (2 ≤ p.2.outcome ∧ p.2.outcome ≤ 6)))
  let closed := ((laneAt s n).disc.map (fun d => d.closed)).getD true
  if !j.leadIn && (decide (lcfg s n 0x31 1 ≤ firsts) || late) && decide (lcfg s n 0x31 2 = 1) && inAttached s n && !closed &&
      !(laneAt s n).wr.suspended && decide (0 < j.sectors.length) then
    checkSpare n j.layer k.val (j.sectors.foldl (fun a p =>
      match p.2.good with
      | some m => if p.2.firstFlagged ∧ p.1 < 64 then queueRefresh n k j p.1 m a else a
      | none => a) s)
  else s

/-! ### The end of an extent read -/

/-- The ladder's temporary offsets and velocity lapse (R352, R456). -/
def lapseStep (n : LaneId) (s : State) : State :=
  setLane n (fun l => { l with rd := { l.rd with trackOffset := 0, focusOffset := 0 }, pace := { l.pace with override := none } }) s

/-- What a finished read says of its listed sectors (R367). -/
def settleDefects (n : LaneId) (j : ReadJob) (lost : List Nat) (s : State) : State :=
  setRd n (fun q => { q with defects := j.sectors.foldl (fun l p =>
    if !p.2.firstFlagged then l
    else if p.2.good.isSome then settleDefect p.2.psa p.2.outcome l
    else if lost.contains p.1 then settleDefect p.2.psa 15 l else l) q.defects }) s

/-- The lane leaves READING, or its warm-up read ends, once no extent read is left. -/
def readsEnd (n : LaneId) (s : State) : State :=
  let l := laneAt s n
  if laneReading l then s
  else if l.life.st = .reading then leaveReading n (idleChannels n s) else idleChannels n s

/-- What an extent read has seen of a slot that the map does not hold (R239). -/
def noteSlot (n : LaneId) (k : TrackId) (j : ReadJob) (s : State) : State :=
  if j.leadIn ∨ j.relocBand.isSome then s
  else setDisc n (fun d =>
    let p := trackPos j.layer k.val
    if (mapGet d.slots[p] j.slot).isSome ∨ j.slot < d.nextSlot[p] then d
    else { d with slots := d.slots.set p (mapSet d.slots[p] j.slot
      (if j.sectors.all (fun x => x.2.blank) then .blank else .written)) }) s

/-- An extent read ends (R47, R48): good LBAs are delivered, those still flagged are unrecoverable, and its completion is posted. -/
def finishJob (n : LaneId) (k : TrackId) (s : State) : State :=
  match (laneAt s n).rd.jobs[k] with
  | none => s
  | some j =>
    let lost := if j.leadIn then [] else missing s n k j
    let s1 := settleDefects n j lost (lapseStep n s)
    let s2 := postCompletion n (.readDone k j.slot) (noteSlot n k j (queueRefreshes n k j (loseSectors n k j lost (deliverGood n j s1))))
    let more := j.leadIn && decide ((laneAt s n).life.st = .reading)
    readsEnd n (setRd n (fun r => { r with
      jobs := r.jobs.set k (if more then some (newJob j.layer j.slot none true 0) else none), held := r.held.set k none }) s2)

/-! ### The retry ladder (R352 to R358) -/

/-- Another ladder runs on the lane (R355). -/
def otherLadder (l : Lane) (k : TrackId) : Bool :=
  allTracks.any (fun q => decide (q ≠ k) && ((l.rd.held[q]).isSome || ((l.rd.jobs[q]).map (fun j => decide (j.step ≠ 0))).getD false))

/-- Relocation extents of the relocated copies of flagged originals: band and relocation slot (R352 step 2). -/
def copyExtents (d : Disc) (j : ReadJob) (k : Nat) : List (Nat × Nat) :=
  ((flaggedOf d j k).filterMap (fun i => (copyOf d (j.psa k i)).map (fun r => (psaBand r, bits r 10 2 / 72)))).eraseDups

/-- The next relocation extent of step 2 is read while the ladder is held. -/
def readCopies (n : LaneId) (k : TrackId) (j : ReadJob) (s : State) : State :=
  match j.todo with
  | [] => setRd n (fun r => { r with jobs := r.jobs.set k (some j), held := r.held.set k none }) s
  | (b, q) :: rest =>
    idleChannels n (setLane n (fun l => { l with
      life := { l.life with targetBand := b }
      rd := { l.rd with
        jobs := l.rd.jobs.set k (some (newJob j.layer q (some b) false 0)), held := l.rd.held.set k (some { j with todo := rest }) } }) s)

/-- The two copies of a lead-in block change places (R358). -/
def swapCopies (n : LaneId) (k : TrackId) (s : State) : State :=
  setRd n (fun r =>
    match r.jobs[k], r.held[k] with
    | some j, some h => { r with
        jobs := r.jobs.set k (some { h with step := j.step, reads := j.reads, phase := 2 }), held := r.held.set k (some j) }
    | _, _ => r) s

/-- One read of a ladder step begins: step 1 decodes again, step 2 reads relocated copies, steps 3 to 6 read again with the
offset or velocity of the step. -/
def beginRead (n : LaneId) (k : TrackId) (step r : Nat) (s : State) : State :=
  let l := laneAt s n
  match l.disc, l.rd.jobs[k] with
  | some d, some j =>
    let put (f : ReadJob → ReadJob) (a : State) : State := setJob n k (fun x => f { x with step := step, reads := r, phase := 2 }) a
    let flagged := flaggedOf d j k.val
    let redo (x : ReadJob) : ReadJob := { x with sectors := x.sectors.map (fun p =>
      if flagged.contains p.1 then (p.1, { p.2 with judged := false }) else p) }
    let back (a : State) : State := idleChannels n (setLane n (fun x => { x with
      life := { x.life with targetBand := if j.leadIn then x.life.targetBand else (dataPlace (72 * j.slot)).1 } }) a)
    if step = 1 then
      if r = 0 then flagged.foldl (fun a i => awaitCore n k i (((mapGet j.sectors i).map (fun x => x.stamp)).getD 0) true a) (put redo s)
      else setRd n (fun q => { q with held := q.held.set k (some j) }) (put (fun x => { x with sectors := [], next := 0 }) s)
    else if step = 2 then
      if j.leadIn then put (fun x => x) s
      else readCopies n k { j with step := 2, reads := r, phase := 2, todo := copyExtents d j k.val } s
    else
      let s0 := put (fun x => x) s
      let s1 := if j.leadIn ∧ r % 2 = 0 ∧ (l.rd.held[k]).isSome then swapCopies n k s0 else s0
      let s2 := back (setJob n k (fun x => { x with next := 0 }) s1)
      let second := decide (r % 2 = 1)
      if step = 4 then
        setRd n (fun q => { q with trackOffset := if second then lcfg s n 0x30 5 else -((lcfg s n 0x30 5 : Nat) : Int) }) s2
      else if step = 5 then
        setRd n (fun q => { q with focusOffset := if second then lcfg s n 0x30 6 else -((lcfg s n 0x30 6 : Nat) : Int) }) s2
      else if step = 6 then
        setLane n (fun x => { x with pace := { x.pace with override := some (max (x.pace.v / 2) 2496) } }) s2
      else s2
  | _, _ => s

/-- Reads of a step. -/
def stepReads (leadIn : Bool) (step : Nat) : Nat :=
  if step = 1 then (if leadIn then 2 else 1) else if step = 2 then 1 else if leadIn then 4 else 2

/-- The ladder goes on to its next read or step, or ends after step L+30:03 (R354). -/
def ladderNext (n : LaneId) (k : TrackId) (s : State) : State :=
  match (laneAt s n).rd.jobs[k] with
  | none => s
  | some j =>
    if j.reads + 1 < stepReads j.leadIn j.step then beginRead n k j.step (j.reads + 1) s
    else if j.step < lcfg s n 0x30 3 then beginRead n k (j.step + 1) 0 (lapseStep n s)
    else finishJob n k s

/-- A ladder starts: counted; the warm-up's measurement in progress is discarded (R525). -/
def startLadder (n : LaneId) (k : TrackId) (s : State) : State :=
  beginRead n k 1 0 (lbump n 0xE3 7 0 1 (setLane n (fun l => { l with warm := { l.warm with frames := 0 } }) s))

/-- The fourth row of R351: the ladder, where a requested sector is flagged; it waits while another runs (R355). -/
def ladderOrEnd (n : LaneId) (k : TrackId) (s : State) : State :=
  match (laneAt s n).rd.jobs[k] with
  | none => s
  | some j =>
    if lcfg s n 0x30 3 = 0 ∨ (missing s n k j).isEmpty then finishJob n k s
    else if otherLadder (laneAt s n) k then setJob n k (fun x => { x with phase := 2 }) s
    else startLadder n k s

/-- The message that was encoded into the outer parity, from a relocated copy (R349). -/
def restoreCopy (j : ReadJob) (msg : Bytes) : Bytes :=
  let kind := field msg 4103 1
  let m := patch msg 4103 [byte (kind % 128)]
  match j.sectors.findSome? (fun p => if p.1 < 64 ∧ p.2.outcome ≠ 8 then p.2.good else none) with
  | some g => patch m 4108 (slice g 4108 4)
  | none => m

/-- Good copies of a relocation extent take the places of their flagged originals (R349), and the next one is read. -/
def copiesRead (n : LaneId) (k : TrackId) (sub main : ReadJob) (s : State) : State :=
  match (laneAt s n).disc with
  | none => s
  | some d =>
    let found := (flaggedOf d main k.val).filterMap (fun i =>
      match copyOf d (main.psa k.val i) with
      | none => none
      | some r => (sub.sectors.find? (fun p => decide (p.2.psa = r))).bind (fun p => p.2.good.map (fun g => (i, restoreCopy main g))))
    let main1 := { main with sectors := main.sectors.map (fun p =>
      match found.find? (fun f => decide (f.1 = p.1)) with
      | some f => (p.1, { p.2 with good := some f.2, outcome := 8 })
      | none => p) }
    readCopies n k main1 (lbump n 0xE3 8 1 found.length s)

/-- What follows the end of an extent read's codes: a relocation extent of step 2 gives its copies to the ladder held. -/
def concludeJob (n : LaneId) (k : TrackId) (good : Bool) (s : State) : State :=
  match (laneAt s n).rd.jobs[k], (laneAt s n).rd.held[k] with
  | some j, some main =>
    if j.relocBand.isSome then copiesRead n k j main s
    else if good then finishJob n k s else if j.step = 0 then ladderOrEnd n k s else ladderNext n k s
  | some j, none => if good then finishJob n k s else if j.step = 0 then ladderOrEnd n k s else ladderNext n k s
  | none, _ => s

/-! ### Outcome (R351, R354) -/

/-- Bin of L+E3:0A for a flagged count. -/
def histogramBin (f : Nat) : Nat := if f = 0 then 0 else if f = 1 then 1 else if f ≤ 3 then 2 else if f ≤ 6 then 3 else if f ≤ 8 then 4 else 5

/-- Every sector of the extent read has been delivered and judged. -/
def allJudged (j : ReadJob) : Bool := decide (j.next = 72 ∧ j.sectors.length = 72) && j.sectors.all (fun p => p.2.judged)

/-- The row of R351 by the flagged count: nothing to do, the outer code, or what follows it. -/
def takeCount (n : LaneId) (k : TrackId) (s : State) : State :=
  match (laneAt s n).disc, (laneAt s n).rd.jobs[k] with
  | some d, some j =>
    let f := flaggedOf d j k.val
    if !f.any (fun i => decide (i < 64)) then concludeJob n k true s
    else if j.step ≠ 0 ∧ (missing s n k j).isEmpty then concludeJob n k true s
    else if f.length ≤ 8 then setJob n k (fun x => { x with phase := 1 }) s
    else concludeJob n k false s
  | _, _ => s

/-- EXTENT_READ_OUTCOME (R351). -/
def extentReadOutcome (n : LaneId) (k : TrackId) (s : State) : State :=
  match (laneAt s n).rd.jobs[k] with
  | none => s
  | some j =>
    if j.phase = 0 ∧ j.step = 0 ∧ allJudged j then
      takeCount n k (lbump n 0xE3 0xA (histogramBin ((j.sectors.filter (fun p => p.2.firstFlagged)).length)) 1 s)
    else s

/-- EXTENT_READ_OUTCOME. -/
def execExtentReadOutcome (n : LaneId) (k : TrackId) (s : State) : Host.Outcome State Fault Refusal := .next (extentReadOutcome n k s)

/-- The rebuilt data sectors of an extent, where every one passes R343 (R347). -/
def rebuilt (d : Disc) (j : ReadJob) (k : Nat) : Option (List (Nat × Bytes)) :=
  match outerDecode ((upTo 72).map (fun i => (mapGet j.sectors i).bind (fun r => r.good))) with
  | none => none
  | some msgs =>
    let hit := (flaggedOf d j k).filter (fun i => decide (i < 64))
    if hit.all (fun i => sectorOk d j k i (msgs.getD i [])) then some (hit.map (fun i => (i, msgs.getD i []))) else none

/-- OUTER_DECODE (R346 to R348). -/
def outerStepOf (n : LaneId) (k : TrackId) (s : State) : State :=
  match (laneAt s n).disc, (laneAt s n).rd.jobs[k] with
  | some d, some j =>
    if j.phase ≠ 1 then s
    else
      match rebuilt d j k.val with
      | none => concludeJob n k false (setJob n k (fun x => { x with phase := if x.step = 0 then 0 else 2 }) s)
      | some l =>
        concludeJob n k true (lbump n 0xE3 5 0 1 (lbump n 0xE3 6 0 l.length (setJob n k (fun x => { x with
          phase := 2
          sectors := x.sectors.map (fun p =>
            match l.find? (fun q => decide (q.1 = p.1)) with
            | some q => (p.1, { p.2 with good := some q.2, outcome := 7 })
            | none => p) }) s)))
  | _, _ => s

/-- OUTER_DECODE. -/
def execOuterDecode (n : LaneId) (k : TrackId) (s : State) : Host.Outcome State Fault Refusal := .next (outerStepOf n k s)

/-- LADDER_STEP (R352, R354): a step, or a read within a step, ends; a ladder that waited for another begins. -/
def ladderStep (n : LaneId) (k : TrackId) (s : State) : State :=
  match (laneAt s n).rd.jobs[k] with
  | none => s
  | some j =>
    if j.phase ≠ 2 then s
    else if j.step = 0 then (if otherLadder (laneAt s n) k then s else ladderOrEnd n k s)
    else if (if j.step = 2 then j.todo.isEmpty else allJudged j) then takeCount n k s
    else s

/-- LADDER_STEP. -/
def execLadderStep (n : LaneId) (k : TrackId) (s : State) : Host.Outcome State Fault Refusal := .next (ladderStep n k s)

/-! ### Extent reads begin (R141, R286, R355, R356, R572, R842) -/

/-- The lane may start an extent read. -/
def mayRead (s : State) (n : LaneId) : Bool :=
  let l := laneAt s n
  decide (l.life.st = .ready ∨ l.life.st = .reading) && !l.life.ramping && l.wr.pass.isNone && l.disc.isSome &&
    decide (l.life.leadIn = .identified) && readable s n && l.wr.clockLocked &&
    !s.host.frozen && decide (s.power.unit = 0) && l.rd.jobs.toList.all (fun j => (j.map (fun q => decide (q.step < 2) && !q.leadIn)).getD true) &&
    ((l.disc.map (fun d => d.closeDue.isNone)).getD false)

/-- An extent read begins on a track at its order (R37): the lane is READING. -/
def beginJob (n : LaneId) (k : TrackId) (j : ReadJob) (s : State) : State :=
  let s1 := if laneReading (laneAt s n) then s else idleChannels n s
  enter n .reading (frameBegins n (setRd n (fun r => { r with jobs := r.jobs.set k (some j), held := r.held.set k none }) s1))

/-- Level 3 orders an extent read, which level 2 takes up (R35, R141). -/
def takeJob (n : LaneId) (k : TrackId) (j : ReadJob) (s : State) : State := orderNow n (.read k j.layer j.slot) (beginJob n k j) s

/-- A suspended ladder goes on: its step is run again from its beginning (R356). -/
def resumeLadder (n : LaneId) (k : TrackId) (j : ReadJob) (s : State) : State :=
  if j.step = 0 then takeJob n k j s else beginRead n k j.step 0 (takeJob n k j s)

/-- EXTENT_READ_START (R141): level 3 starts the read of a slot of a track for which Reads wait. A read at another place orders
the lane there. -/
def extentReadStart (n : LaneId) (k : TrackId) (slot : Nat) (s : State) : State :=
  let l := laneAt s n
  match l.rd.held[k] with
  | some h =>
    if mayRead s n && (l.rd.jobs[k]).isNone && decide (h.slot = slot) then
      if l.life.layer = some h.layer ∧ standsAt l (dataPlace (72 * h.slot)).1 then resumeLadder n k h s
      else orderTo n h.layer (dataPlace (72 * h.slot)).1 s
    else s
  | none =>
    let jobs := readJobs s n
    let rank (p : Nat × Nat × Nat) : Option JobRank := (jobs.find? (fun j => decide (j.1 = p))).bind (fun j => rankOf j.2)
    let here (layer : Nat) : Bool := jobs.any (fun j => decide (j.1 = (layer, k.val, slot)))
    let layer := l.life.layer.getD 8
    match (if here layer then some layer else (upTo 8).find? here) with
    | none => s
    | some y =>
      let first := ((rank (y, k.val, slot)).map (fun r => takenFirst s r (jobs.filterMap (fun j => rankOf j.2)))).getD false
      if !first ∨ (l.rd.jobs[k]).isSome then s
      else if y ≠ layer ∨ !standsAt l (dataPlace (72 * slot)).1 then (if laneReading l then s else orderTo n y (dataPlace (72 * slot)).1 s)
      else if mayRead s n && l.rd.held.toList.all (fun h => (h.map (fun q => decide (q.step < 2))).getD true) then
        match l.disc.bind (fun d => indexOfSlot d.skips[trackPos y k.val] slot) with
        | none => s
        | some i => takeJob n k (newJob y slot none false (logicalExtent y k.val i)) s
      else s

/-- EXTENT_READ_START. -/
def execExtentReadStart (n : LaneId) (k : TrackId) (slot : Nat) (s : State) : Host.Outcome State Fault Refusal :=
  .next (extentReadStart n k slot s)

/-! ### Refresh wait (R370) -/

/-- REFRESH_WAIT_EXPIRE: a copy queued longer than L+31:03 makes level 3 order a relocation move, while the lane is READY with no
host extent due. -/
def refreshWaitExpire (n : LaneId) (s : State) : State :=
  let l := laneAt s n
  match l.wr.queue.find? (fun c => c.refresh && passed s c.tick (secTicks (lcfg s n 0x31 3))) with
  | none => s
  | some c =>
    if l.life.st = .ready ∧ l.wr.moveFrom.isNone ∧ (readJobs s n).isEmpty ∧ (dueOn s n).isEmpty then
      match l.disc with
      | none => s
      | some d =>
        match nearestSpare d c.layer (queuedTracks l.wr.queue c.layer) (l.life.band.getD 0) with
        | none => checkSpare n c.layer c.track.val s
        | some sb => setLane n (fun x => { x with
            wr := { x.wr with moveFrom := some (l.life.band.getD 0) }, life := { x.life with targetBand := sb, targetLayer := c.layer } }) s
    else s

/-- REFRESH_WAIT_EXPIRE. -/
def execRefreshWaitExpire (n : LaneId) (s : State) : Host.Outcome State Fault Refusal := .next (refreshWaitExpire n s)

end Sys2Proof.Machine
end

