-- ==== Sys2Proof/Machine/Pair.lean ====
section
/-! DEFINITION. The relay pair (16_relay_pair.md): PAIRSEL, roles, baton frames, mirroring, takeover and the baton drill. -/

namespace Sys2Proof.Machine

/-! ### Roles and arming (R665, R669, R691) -/

/-- The pair changed, with ANA Change for each listed namespace whose state changes (R550). -/
def roleChange (f : Pair → Pair) (s : State) : State :=
  let s1 := { s with pair := f s.pair }
  (allTeams.filter (fun t => (nsAt s t).listed && (anaOptimized s t != anaOptimized s1 t))).foldl (fun a _ => anaChange a) s1

/-- Mirroring disarmed: event 4005 where it was armed. -/
def disarm (s : State) : State :=
  if s.work.armed then raise 0x4005 [.u8 1] { s with work := { s.work with armed := false } } else s

/-- Mirroring armed. -/
def arm (s : State) : State :=
  if s.work.armed ∨ s.work.mismatch ∨ s.work.barred then s
  else raise 0x4005 [.u8 0] { s with work := { s.work with armed := true } }

/-- The device becomes UNPAIRED with a reason: event 4004. -/
def unpair (reason : Nat) (s : State) : State :=
  raise 0x4004 [.u8 reason] (roleChange (fun p => { p with role := 3, decided := true, reason := reason, hello := none }) (disarm s))

/-- Without a peer nothing waits for an acknowledgement any longer (R673). -/
def flushAcks (s : State) : State :=
  let s1 := { s with work := { s.work with commits := [], configs := [] } }
  let s2 := s.work.commits.foldl (fun a q =>
    match flightOf a q.2 with
    | some f => commitFlight f (f.status.getD (0, 0, none)) a
    | none => a) s1
  carriedCheck (s.work.configs.foldl (fun a q => answerReply q.2 0 a) s2)

/-- Queues above 64 exist (CARRIED_QUEUES). -/
def carriedQueues (s : State) : Bool := s.host.ctrls.toList.any (fun c => c.sqs.any (fun q => decide (64 < q.id)))

/-- A releasing device's queues stand with the device that carries them (R681): its I/O commands leave flight without a
completion, and its lanes' extents in progress are the other's. -/
def yieldQueues (s : State) : State :=
  let s1 := setFlights (fun l => l.filter (fun f => match f.kind with
    | .admin _ _ => true
    | _ => false)) s
  let s2 := bothPorts.foldl (fun a p => setCtrl p (fun c => { c with sqs := [], cqs := [], deletes := [] }) a) s1
  allLanes.foldl (fun a n => setLane n (fun l => { l with
    wr := { l.wr with pass := none }
    rd := { l.rd with jobs := Vector.replicate 4 none, held := Vector.replicate 4 none } }) a)
    { s2 with work := { s2.work with commits := [] } }

/-! ### PAIR_HELLO (R668, R670, R688) -/

/-- Header of the running image; empty while no core runs. -/
def runningHeader (s : State) : Bytes :=
  match s.fw.running with
  | some r => (s.fw.slots[r].image).take 4096
  | none => []

/-- Body of a PAIR_HELLO: the role claimed is ACTIVE by the holder of PAIRSEL, else STANDBY. -/
def helloBody (s : State) : Bytes :=
  let h := runningHeader s
  toLE 2 1 ++ toLE 4 0x59320A01 ++ Sys2Proof.Config.serialNumber.toList ++ toLE 4 (field h 12 4) ++ toLE 4 (field h 16 4) ++
    toLE 4 (field h 20 4) ++ toLE 4 (liveCheck s) ++ toLE 1 (if s.pair.hold then 1 else 2) ++ toLE 4 s.pair.epoch ++ toLE 8 (timeNow s)

/-- The versions pair: they are equal, or each lies within the other's window. -/
def windowsOk (h body : Bytes) : Bool :=
  let v := field h 12 4
  let w := field body 18 4
  decide (v = w) || (decide (field h 16 4 ≤ w ∧ w ≤ field h 20 4) && decide (field body 22 4 ≤ v ∧ v ≤ field body 26 4))

/-- The first check of R688 that a peer's PAIR_HELLO fails: its reason. -/
def helloReason (s : State) (body : Bytes) (side : Bool) : Option Nat :=
  if field body 0 2 ≠ 1 then some 1
  else if field body 2 4 ≠ 0x59320A01 then some 2
  else if !windowsOk (runningHeader s) body then some 3
  else if side = Sys2Proof.Config.side then some 4 else none

/-- The pair forms once the peer's hello has passed and one device holds PAIRSEL (R665 to R669, R688). -/
def formPair (s : State) : State :=
  match s.pair.hello with
  | none => s
  | some (epoch, word, time) =>
    if s.pair.role ≠ 0 ∧ s.pair.hold ≠ s.pair.peerHold then
      let e := max s.pair.epoch epoch + 1
      let role := if s.pair.hold then 1 else 2
      let s1 := roleChange (fun p => { p with
        role := role, decided := true, reason := 0, epoch := e, hello := none, gathering := [], mirror := [], commits := [] }) s
      let s2 := raise 0x4003 [.u8 role, .u32 e, .tail (unpad s.pair.peerSerial)] { s1 with work := { s1.work with
        full := false, mismatch := decide (word ≠ liveCheck s), view := 0, lastBeat := s.ticks, logSent := s.log.nextSeq
        drillFrom := s.ticks, barred := s.work.barred && decide (epoch ≠ 0), suppressed := false } }
      if role = 2 ∧ 1000000 < ((time : Int) - timeNow s).natAbs then putTime time s2 else s2
    else s

/-- The peer's serial number becomes known: event 4001 (R133). -/
def peerKnown (serial : Bytes) (s : State) : State :=
  if s.pair.peerSerial.isEmpty ∧ batonUp s then
    raise 0x4001 [.tail (unpad serial)] { s with pair := { s.pair with peerSerial := serial } }
  else s

/-- A SOLO or undecided device with a peer becomes UNPAIRED (R665). -/
def meetPeer (s : State) : State :=
  if s.pair.role = 0 then roleChange (fun p => { p with role := 3, decided := true, reason := 0 }) s else s

/-! ### Frames received (R667, R670) -/

/-- A baton frame as received. -/
structure BatonIn where
  ty : Nat
  epoch : Nat
  seq : Nat
  body : Bytes

/-- A frame whose length and check word are right. -/
def parseBaton (f : Bytes) : Option BatonIn :=
  let n := field f 2 2
  if f.length = 20 + n ∧ n ≤ 8192 ∧ crc32 (f.take (16 + n)) = field f (16 + n) 4 then
    some { ty := field f 0 1, epoch := field f 4 4, seq := field f 8 4, body := slice f 16 n }
  else none

/-- Reception of a frame of a type: one that fails its check is counted in 2100:0A, for the lowest trained link; one of a lower
epoch, but for a PAIR_HELLO, and a second copy are discarded. The effect takes the highest sequence accepted before. -/
def batonReceive (ty : Nat) (frame : Bytes) (k : BatonIn → Nat → State → State) (s : State) : State :=
  if !batonUp s then s
  else
    match parseBaton frame with
    | none => bump 0x2100 0xA (if s.pair.links[0] then 0 else 1) 1 s
    | some f =>
      if f.ty ≠ ty ∨ (ty ≠ 2 ∧ f.epoch < s.pair.epoch) ∨ f.seq ≤ s.pair.rxSeq then s
      else k f s.pair.rxSeq { s with pair := { s.pair with rxSeq := f.seq } }

/-! ### Arrival and departure -/

/-- SOLO_TIMEOUT (R665). -/
def execSoloTimeout (s : State) : Host.Outcome State Fault Refusal :=
  if !s.pair.decided ∧ passed s s.pair.began (secTicks 1) ∧ !s.pair.peerAlive ∧ !batonUp s then
    .next (roleChange (fun p => { p with role := 0, decided := true }) s)
  else .next s

/-- PEER_ARRIVED (R133, R665): an alive edge or a trained link; event 4001 once a link is trained. -/
def execPeerArrived (serial : Bytes) (s : State) : Host.Outcome State Fault Refusal :=
  .next (peerKnown serial (meetPeer { s with pair := { s.pair with peerAlive := true } }))

/-- BATON_LINK_TRAINED (R133, R665, R668, R802): event 4001 when the first link trains, and pairing begins with a PAIR_HELLO. The
peer's serial number comes with the training. -/
def execBatonLinkTrained (link : PortId) (serial : Bytes) (s : State) : Host.Outcome State Fault Refusal :=
  if s.pair.links[link] ∨ s.power.unit = 2 then .next s
  else
    let first := !batonUp s
    let s1 := { s with pair := { s.pair with
      links := s.pair.links.set link true, rxSeq := if first then 0 else s.pair.rxSeq } }
    .next (if first then batonSend 0x02 0 (helloBody s1) (peerKnown serial (meetPeer s1)) else s1)

/-- BATON_LINK_LOST (R671, R802): event 4009 while the other link stands. -/
def execBatonLinkLost (link : PortId) (s : State) : Host.Outcome State Fault Refusal :=
  if s.pair.links[link] then
    let s1 := { s with pair := { s.pair with links := s.pair.links.set link false } }
    .next (if batonUp s1 then raise 0x4009 [.u8 link.val] s1 else s1)
  else .next s

/-- PEER_DEPARTED (R133, R665): both links or the alive line are lost. -/
def peerDeparted (s : State) : State :=
  if s.pair.peerSerial.isEmpty ∧ s.pair.role = 0 then s
  else
    let lost := batonUp s
    let s1 := if s.pair.peerSerial.isEmpty then disarm s else raise 0x4002 [.tail (unpad s.pair.peerSerial)] (disarm s)
    let s2 := roleChange (fun p => { p with
      role := if s.work.taking.isSome then p.role else 0, reason := if s.work.taking.isSome then p.reason else 0, peerSerial := []
      hello := none, peerAlive := p.peerAlive && !lost, peerHold := p.peerHold && !lost }) s1
    flushAcks s2

/-- PEER_DEPARTED. -/
def execPeerDeparted (s : State) : Host.Outcome State Fault Refusal := .next (peerDeparted s)

/-- PAIR_HELLO. The peer's strap is not in the frame's body: it comes with the happening. A pair that has slept pairs
again in its roles (R711). -/
def pairHello (side : Bool) (f : BatonIn) (s : State) : State :=
  let serial := slice f.body 6 12
  let s1 := peerKnown serial (meetPeer s)
  match helloReason s1 f.body side with
  | some r => unpair r s1
  | none => formPair { s1 with pair := { s1.pair with
      peerSerial := serial, peerHold := decide (field f.body 34 1 = 1)
      hello := some (field f.body 35 4, field f.body 30 4, field f.body 39 8) } }

/-- PAIR_HELLO. -/
def execPairHello (frame : Bytes) (side : Bool) (s : State) : Host.Outcome State Fault Refusal :=
  .next (batonReceive 2 frame (fun f _ a => pairHello side f a) s)

/-! ### Takeover (R676 to R683) -/

/-- States advanced by one missed period with the outputs last released (R676). -/
def missPeriod (w : List Int) (u x : List Int) : List Int :=
  (upTo 12).map (fun i => sat32 (nextRow w x u (List.replicate 6 0) i))

/-- A function applied a number of times. -/
def iter {α : Type} (f : α → α) : Nat → α → α
  | 0, a => a
  | n + 1, a => iter f n (f a)

/-- A lane that the taking device goes on with, from its mirrored record; reads, ladders, queued copies and a warm-up of the old
holder are not mirrored (R671, R680). -/
def takeLane (missed : Nat) (i : LaneImage) (l : Lane) : Lane :=
  let w := wordsOf i.loop.banks.obsActive
  { l with
    life := { i.life with presence := l.life.presence, disc := l.life.disc, clamp := l.life.clamp }
    loop := { i.loop with x := iter (missPeriod w i.loop.released) missed i.loop.x }
    spin := iter spindleAdvance missed i.spin
    sled := i.sled
    disc := i.disc
    wr := { l.wr with pass := i.pass, queue := [] }
    rd := { l.rd with jobs := Vector.replicate 4 none, held := Vector.replicate 4 none } }

/-- The pass that the old holder had in progress on a lane (R680): played out, it is left to the scan of R225; else it is cut
and its slots are skipped. -/
def settlePass (n : LaneId) (s : State) : State :=
  match (laneAt s n).wr.pass with
  | none => s
  | some p =>
    if p.sector = 72 then setDisc n sessionLeft (setLane n (fun l => { l with wr := { l.wr with pass := none } }) s)
    else cutPass n s

/-- A lane in READING or WRITING stands READY on the new holder, and its view decides (R688). -/
def settleLane (n : LaneId) (s : State) : State :=
  let s1 := settlePass n s
  let s2 := if (laneAt s1 n).life.st = .reading ∨ (laneAt s1 n).life.st = .writing then enter n .ready s1 else s1
  if bit s.work.view n.val then faultNow n 0x110A s2 else s2

/-- An extent whose relocation copies had not all verified: its slot is skipped on every track, and the extents there that are
still needed are due again (R680). -/
def redoExtent (t : TeamId) (x : Nat) (s : State) : State :=
  let N := discCount s t
  match laneOfExtent s t x with
  | none => s
  | some n =>
    match (laneAt s n).disc with
    | none => s
    | some d =>
      match slotOfExtent d (extentLogical N x) with
      | (layer, _, slot) =>
        (upTo 4).foldl (fun a k =>
          let due := (indexOfSlot d.skips[trackPos layer k] slot).map (fun j => teamExtent N (extentDisc N x) (logicalExtent layer k j))
          match due with
          | none => a
          | some y =>
            if (extentAt (nsAt s t) y).isSome then
              skipSlot n layer k slot (setExtent t y (fun e => { e with verified := false, waiting := [] }) a)
            else a) s

/-- Every extent that waits for copies written again, and the staged data of unverified extents fetched again (R680). -/
def redoStaging (s : State) : State :=
  let s1 := allTeams.foldl (fun a t =>
    ((nsAt a t).extents.filter (fun p => p.2.verified && !p.2.waiting.isEmpty)).foldl (fun b p => redoExtent t p.1 b) a) s
  let s2 := allTeams.foldl (fun a t => setNs t (fun ns => { ns with extents := ns.extents.map (fun p =>
    (p.1, if p.2.verified || p.2.ended then p.2 else { p.2 with lbas := p.2.lbas.map (fun l => { l with addr := none }) })) }) a) s1
  setFlights (fun l => l.map (fun f =>
    match f.writes, teamOfNsid f.nsid with
    | true, some t => { f with left := ((stagedOf (nsAt s2 t) f.seq).filter (fun q => !stagedDone q)).map (fun q => 64 * q.1 + q.2.2.pos) }
    | _, _ => f)) s2

/-- A queue that lies in a CMB is not carried (R683). -/
def inCmb (base : Nat) : Bool := decide (2 ^ 63 ≤ base)

/-- Queues y appear as 64 + y on the controller of the same port, with their commands (R681 to R683). -/
def carryQueues (m : MirrorImage) (s : State) : State :=
  let s1 := bothPorts.foldl (fun a p => setCtrl p (fun c => { c with
    sqs := c.sqs ++ (m.queues[p].1.filter (fun q => decide (q.id ≤ 64) && !inCmb q.base)).map (fun q => { q with id := q.id + 64, cq := q.cq + 64 })
    cqs := c.cqs ++ (m.queues[p].2.filter (fun q => decide (q.id ≤ 64) && !inCmb q.base)).map (fun q => { q with id := q.id + 64 }) }) a) s
  let stays (f : Flight) : Bool :=
    decide (1 ≤ f.c.sq ∧ f.c.sq ≤ 64) && m.queues[f.c.ctrl].1.any (fun q => decide (q.id = f.c.sq) && !inCmb q.base)
  let old := (m.flights.filter stays).map (fun f =>
    { f with c := { f.c with sq := f.c.sq + 64 }, carried := true, committing := false, status := if f.committing then none else f.status })
  setHost (fun h => { h with flights := h.flights ++ old, seq := max h.seq m.seq }) s1

/-- A carried command whose data or list lay in the CMB of the old holder ends with Data Transfer Error (R683): a read at once; of a write,
the LBAs not yet verified are refused. -/
def loseCmb (f : Flight) (s : State) : State :=
  if !(f.carried && f.viaCmb) then s
  else
    let s1 := setFlight f.c (fun g => { g with left := [], cmb := none, viaCmb := false, status := if f.writes then g.status else some (0, 4, none) }) s
    match f.writes, teamOfNsid f.nsid with
    | true, some t => ((stagedOf (nsAt s1 t) f.seq).filter (fun q => !stagedDone q)).foldl (fun a q =>
        addZeros t (64 * q.1 + q.2.2.pos) 1 (setExtent t q.1 (fun e => { e with refused := e.refused ++ [(q.2.2.pos, 1)] }) a)) s1
    | _, _ => s1

/-- A committed completion written again to the carried queue (R682). -/
def repost (body : Bytes) (s : State) : State :=
  let c : CmdId := { ctrl := Fin.ofNat 2 (field body 0 1), sq := field body 2 2 + 64, cid := field body 4 2 }
  post c (field body 6 1) (field body 7 1) none (field body 8 4) (field body 12 4) (removeFlight c s)

/-- The new holder goes on from the latest complete cut (R676, R680 to R683). -/
def warmTake (m : MirrorImage) (s : State) : State :=
  let missed := (timerCount s - m.tick) / 12500
  let s1 := { s with
    lanes := Vector.ofFn (fun n : Fin 32 => takeLane missed m.lanes[n] s.lanes[n]), teams := m.teams }
  let s1b := redoStaging (allLanes.foldl (fun a n => settleLane n a) (carryQueues m s1))
  let s2 := s1b.host.flights.foldl (fun a f => loseCmb f a) s1b
  let s3 := s.pair.commits.foldl (fun a b => repost b a) s2
  if s3.host.flights.any (fun f => f.carried) then setCause 2 true s3 else s3

/-- A lane of a cold takeover: fault 1104 and a flying restart (R678); the state at the loss is not known, so the fault's row
alone gives the re-entry state. -/
def coldLane (n : LaneId) (s : State) : State :=
  if (laneAt s n).life.pickup.isNone then s
  else
    let s1 := rotorLost n s
    enterFault n 0x1104 .ready (setLane n (fun l => { l with flt := { l.flt with
      completions := ((takeFault l.flt.completions).map (fun q => q.2.2)).getD l.flt.completions } }) s1)

/-- PAIRSEL is taken (R676 to R683, R687 step 4): 0 the alive line was lost, 1 heartbeats, 3 a drill. The output hold is a free
value within R677. -/
def takeover (cause : Nat) (s : State) : State :=
  match draw 16001 s with
  | (hold, s0) =>
    let img := if s.work.armed then Sys2Proof.Config.mirrorImage s.pair.mirror else none
    let s1 := { s0 with
      pair := { s0.pair with hold := true, demand := false, peerHold := false, epoch := s.pair.epoch + 1, commits := [] }
      work := { s0.work with taking := none, drill := none, drillFrom := s.ticks } }
    let s2 := match img with
      | some m => warmTake m { s1 with pair := { s1.pair with commits := s.pair.commits } }
      | none => allLanes.foldl (fun a n => coldLane n a) s1
    let s3 := roleChange (fun p => { p with
      commits := [], role := if cause = 0 then 0 else if cause = 3 then 1 else 3, reason := if cause = 1 then 5 else 0 }) s2
    let e := s3.pair.epoch
    if cause = 3 then
      raise 0x4007 [.u32 e, .u32 hold] (lifeUnit 4 1 (bump 0x2102 1 3 1 { s3 with work := { s3.work with
        full := true, lastDrill := toLE 8 (timeNow s) ++ toLE 4 0 ++ toLE 4 hold } }))
    else
      let code := if img.isSome then cause else 2
      let s4 := disarm { s3 with work := { s3.work with
        lastTakeover := toLE 8 (timeNow s) ++ toLE 4 e ++ toLE 4 code ++ toLE 4 hold ++
          toLE 4 (s3.host.flights.filter (fun f => f.carried)).length } }
      let s5 := raise 0x4006 [.u8 code, .u32 e, .u32 hold] (lifeUnit 3 1 (bump 0x2102 1 cause 1 s4))
      if cause = 1 then raise 0x4004 [.u8 5] s5 else s5

/-- ALIVE_LOSS (R661, R675): a peer that is not healthy has lowered its HOLD in hardware. -/
def execAliveLoss (s : State) : Host.Outcome State Fault Refusal :=
  let s1 := { s with pair := { s.pair with peerAlive := false, peerHold := false } }
  if s.pair.role = 2 ∧ !s.work.suppressed ∧ s.work.taking.isNone then
    .next { s1 with work := { s1.work with taking := some (s.ticks, 0) } }
  else .next s1

/-- HEARTBEAT_LOSS (R675, R676): DEMAND is raised at a peer whose alive line still toggles. -/
def execHeartbeatLoss (s : State) : Host.Outcome State Fault Refusal :=
  if s.pair.role = 2 ∧ !s.work.suppressed ∧ s.work.taking.isNone ∧ passed s s.work.lastBeat 29280 then
    .next { s with
      work := { s.work with taking := some (s.ticks, 1) }, pair := { s.pair with demand := s.pair.peerAlive } }
  else .next s

/-- TAKEOVER_REFUSED (R678). A standby that could not take PAIRSEL in a drill stays STANDBY. -/
def execTakeoverRefused (s : State) : Host.Outcome State Fault Refusal :=
  match s.work.taking with
  | none => .next s
  | some (t, cause) =>
    if passed s t 36000 then
      let s1 := { s with
        work := { s.work with taking := none, drill := none }, pair := { s.pair with demand := false, peerHold := true } }
      if cause = 3 then .next s1
      else .next (raise 0x400A [.u32 s.pair.epoch] (unpair 7 (bump 0x2102 1 2 1 s1)))
    else .next s

/-- Ticks for which HOLD_I is low before a device claims of itself: 10 ms on side 0, 100 ms on side 1 (R666). -/
def claimWait : Nat := msTicks (if Sys2Proof.Config.side then 100 else 10)

/-- PAIRSEL_CLAIM (R660, R666, R676, R687): HOLD_I has been low for a number of ticks; a takeover asks for 0.5 us. -/
def pairselClaim (low : Nat) (s : State) : State :=
  if !s.pair.alive ∨ s.pair.hold ∨ low < 2400 then s
  else
    match s.work.taking with
    | some (_, cause) =>
      if cause = 3 ∧ timerCount s < (s.work.drill.map (fun d => d.td)).getD 0 then s else takeover cause s
    | none =>
      if s.pair.decided ∧ (s.pair.role = 0 ∨ s.pair.role = 3) ∧ claimWait ≤ low then
        let s1 := roleChange (fun p => { p with hold := true, peerHold := false }) s
        formPair (if s1.pair.role = 3 ∧ batonUp s1 then batonSend 0x02 0 (helloBody s1) s1 else s1)
      else s

/-- PAIRSEL_CLAIM. -/
def execPairselClaim (low : Nat) (s : State) : Host.Outcome State Fault Refusal := .next (pairselClaim low s)

/-- HOLD_CONFLICT (R660): both HOLD lines are high; the side-1 device lowers its own. -/
def execHoldConflict (s : State) : Host.Outcome State Fault Refusal :=
  if s.pair.hold then
    .next (if Sys2Proof.Config.side then roleChange (fun p => { p with hold := false, peerHold := true }) s
      else { s with pair := { s.pair with peerHold := false } })
  else .next s

/-- DEMAND_RELEASE (R660, R665, R712): not in SLEEP. Without mirroring the controllers end as at a controller reset (R678). -/
def demandRelease (s : State) : State :=
  if s.pair.hold ∧ s.power.unit ≠ 2 then
    let s1 := roleChange (fun p => { p with hold := false, peerHold := true }) s
    let s2 := if s.pair.role = 1 then
        (if s.work.armed then yieldQueues s1 else bothPorts.foldl (fun a p => controllerReset p a) s1)
      else s1
    if s.pair.role = 1 then unpair 6 { s2 with work := { s2.work with drill := none } } else s2
  else s

/-- DEMAND_RELEASE. -/
def execDemandRelease (s : State) : Host.Outcome State Fault Refusal := .next (demandRelease s)

/-! ### The baton drill (R687) -/

/-- A write pass is in progress. -/
def anyPass (s : State) : Bool := allLanes.any (fun n => (laneAt s n).wr.pass.isSome)

/-- Step 2: DRILL names the release instant of lane 0 that lies at least 20 us ahead (R687, R837). -/
def drillGo (s : State) : State :=
  match s.work.drill with
  | none => s
  | some d =>
    if d.stage = 1 ∧ !anyPass s then
      let t := timerCount s + 96000
      let td := t + (12500 + 3125 - t % 12500) % 12500
      batonSend 0x30 0 (toLE 8 td) { s with work := { s.work with drill := some { d with stage := 2, td := td } } }
    else s

/-- A drill begins, where its conditions hold. -/
def beginDrill (s : State) : Eff :=
  if !s.work.armed ∨ carriedQueues s then .error 0x0304
  else if s.work.drill.isSome then .error 0x0501
  else .ok (drillGo { s with work := { s.work with drill := some { stage := 1, began := s.ticks, td := 0 }, drillFrom := s.ticks } })

/-- 2101:02. -/
def startDrillEffect (s : State) : Eff := beginDrill s

/-- DRILL_SCHEDULE: the interval has passed since the last drill; a drill that meets a condition is deferred by 1 h. -/
def execDrillSchedule (s : State) : Host.Outcome State Fault Refusal :=
  let iv := cfg s 0x2101 1
  if s.pair.role = 1 ∧ iv ≠ 0 ∧ passed s s.work.drillFrom (secTicks iv) ∧ s.work.deferred ≤ s.ticks then
    match beginDrill s with
    | .ok s1 => .next s1
    | .error _ => .next { s with work := { s.work with deferred := s.ticks + secTicks 3600 } }
  else .next s

/-- A drill fails: stage 0 or 1 of event 4008. -/
def drillFailed (stage : Nat) (s : State) : State :=
  raise 0x4008 [.u8 stage] (bump 0x2102 1 4 1 { s with work := { s.work with
    drill := none, lastDrill := toLE 8 (timeNow s) ++ toLE 4 (1 + stage) ++ toLE 4 0 } })

/-- DRILL_QUIESCE_EXPIRE (step 1). -/
def execDrillQuiesceExpire (s : State) : Host.Outcome State Fault Refusal :=
  match s.work.drill with
  | none => .next s
  | some d =>
    if d.stage = 1 ∧ passed s d.began (msTicks (cfg s 0x2101 5)) then
      if anyPass s then .next (drillFailed 0 { s with work := { s.work with deferred := s.ticks + secTicks 3600 } })
      else .next (drillGo s)
    else .next s

/-- DRILL (step 2): the standby starts its engines for release at t_d. -/
def execDrill (frame : Bytes) (s : State) : Host.Outcome State Fault Refusal :=
  .next (batonReceive 0x30 frame (fun f _ a =>
    if a.pair.role = 2 ∧ a.work.taking.isNone then { a with work := { a.work with
      taking := some (a.ticks, 3), drill := some { stage := 2, began := a.ticks, td := field f.body 0 8 } } }
    else a) s)

/-- DRILL_RELEASE (step 3). -/
def execDrillRelease (s : State) : Host.Outcome State Fault Refusal :=
  match s.work.drill with
  | none => .next s
  | some d =>
    if s.pair.role = 1 ∧ d.stage = 2 ∧ d.td ≤ timerCount s then
      .next { s with pair := { s.pair with hold := false }, work := { s.work with drill := some { d with stage := 3 } } }
    else .next s

/-- DRILL_CHECK (steps 5 and 6): the peer's HOLD is looked at from t_d + 8 us on, its heartbeat from t_d + 10 us on. -/
def drillCheck (holdHigh : Bool) (s : State) : State :=
  match s.work.drill with
  | none => s
  | some d =>
    if d.stage = 4 then
      match draw 16001 s with
      | (hold, s0) =>
        let s1 := roleChange (fun p => { p with role := 2, peerHold := true, mirror := [], gathering := [] }) (yieldQueues s0)
        lifeUnit 4 1 (bump 0x2102 1 3 1 { s1 with work := { s1.work with
          drill := none, lastBeat := s.ticks, lastDrill := toLE 8 (timeNow s) ++ toLE 4 0 ++ toLE 4 hold } })
    else if d.stage = 3 ∧ ((!holdHigh ∧ d.td + 38400 ≤ timerCount s) ∨ d.td + 48000 ≤ timerCount s) then
      drillFailed 1 (disarm { s with
        pair := { s.pair with hold := true }, work := { s.work with barred := true } })
    else s

/-- DRILL_CHECK. -/
def execDrillCheck (holdHigh : Bool) (s : State) : Host.Outcome State Fault Refusal := .next (drillCheck holdHigh s)

/-! ### Heartbeats and mirroring (R664, R669 to R674, R688) -/

/-- HEARTBEAT_SEND (R671, R674): the cut's MIRROR records, then the HEARTBEAT that closes it. -/
def heartbeatSend (s : State) : State :=
  if s.pair.role = 1 ∧ s.pair.hold ∧ batonUp s ∧ s.power.unit ≠ 2 ∧ passed s s.work.lastCut 9120 then
    let s1 := { s with pair := { s.pair with txCut := s.pair.txCut + 1 } }
    let s2 := (Sys2Proof.Config.mirrorRecords (imageOf s)).foldl (fun a b => batonSend 0x10 0 b a) s1
    let s3 := batonSend 0x01 1 (toLE 8 (timerCount s) ++ toLE 8 (timeNow s) ++ toLE 4 s2.pair.txSeq) s2
    drillGo { s3 with work := { s3.work with lastCut := s.ticks, logSent := s.log.nextSeq, full := true } }
  else s

/-- HEARTBEAT_SEND. -/
def execHeartbeatSend (s : State) : Host.Outcome State Fault Refusal := .next (heartbeatSend s)

/-- The STANDBY follows the ACTIVE's period timer and calendar (R664, R688), and adopts its epoch (R667). -/
def followActive (f : BatonIn) (s : State) : State :=
  let off : Int := (field f.body 8 8 : Int) - timeNow s
  let s1 := if off = 0 then s else slewTime off s
  let shift : Int := (field f.body 0 8 : Int) - s.ticks
  let missed := (s.ticks - s.work.lastBeat + 4800) / 9600
  let s2 := if missed = 2 then bump 0x2102 3 0 1 s1 else s1
  { s2 with
    pair := { s2.pair with epoch := f.epoch, shift := if (shift - s.pair.shift).natAbs ≤ 1 then s.pair.shift else shift }
    work := { s2.work with lastBeat := s.ticks, slewing := decide (off ≠ 0) } }

/-- A cut that every frame of has arrived becomes the latest (R669, R672, R763). -/
def closeCut (f : BatonIn) (s : State) : State :=
  let s1 := { s with pair := { s.pair with mirror := s.pair.gathering, gathering := [], commits := [] } }
  let s2 := match Sys2Proof.Config.mirrorImage s1.pair.mirror with
    | some m => m.log.reverse.foldl (fun (a : State) (e : LogEntry) => logAppend e.code 1 e.flags e.time e.data a) s1
    | none => s1
  if s2.work.full then
    if s2.work.armed then s2
    else
      let s3 := arm s2
      if s3.work.armed then sendAck f.seq 0 s3 else s3
  else { s2 with work := { s2.work with full := true } }

/-- HEARTBEAT: on the STANDBY, and on the old ACTIVE of a drill. -/
def heartbeatIn (f : BatonIn) (before : Nat) (s : State) : State :=
  match s.work.drill, decide (s.pair.role = 1) with
  | some d, true =>
    if d.stage = 3 ∧ s.pair.epoch < f.epoch then
      { s with pair := { s.pair with epoch := f.epoch }, work := { s.work with drill := some { d with stage := 4 }, lastBeat := s.ticks } }
    else s
  | _, _ =>
    if s.pair.role = 2 then
      let s1 := followActive f s
      if field f.body 16 4 = before then closeCut f s1 else { s1 with pair := { s1.pair with gathering := [] } }
    else s

/-- HEARTBEAT. -/
def execHeartbeat (frame : Bytes) (s : State) : Host.Outcome State Fault Refusal := .next (batonReceive 1 frame heartbeatIn s)

/-- MIRROR (R672): a record of the cut being received. -/
def execMirror (frame : Bytes) (s : State) : Host.Outcome State Fault Refusal :=
  .next (batonReceive 0x10 frame (fun f _ a =>
    if a.pair.role = 2 then { a with pair := { a.pair with gathering := a.pair.gathering ++ [f.body] } } else a) s)

/-- COMMIT (R673): stored and acknowledged. -/
def execCommit (frame : Bytes) (s : State) : Host.Outcome State Fault Refusal :=
  .next (batonReceive 0x11 frame (fun f _ a =>
    if a.pair.role = 2 then sendAck f.seq 0 { a with pair := { a.pair with commits := a.pair.commits ++ [f.body] } } else a) s)

/-- A lane view mismatch (R688): the lane is marked in 2100:0B, with event 400B. -/
def execLaneViewMismatch (n : LaneId) (peerPresence peerDisc : Bool) (s : State) : Host.Outcome State Fault Refusal :=
  let l := laneAt s n
  let disc := clamped l
  if (s.pair.role = 1 ∨ s.pair.role = 2) ∧ (l.life.presence.stable ≠ peerPresence ∨ disc ≠ peerDisc) ∧ !bit s.work.view n.val then
    .next (raise 0x400B [.u8 n.val, .u8 (b2n l.life.presence.stable), .u8 (b2n disc), .u8 (b2n peerPresence), .u8 (b2n peerDisc)]
      { s with work := { s.work with view := s.work.view + 2 ^ n.val } })
  else .next s

end Sys2Proof.Machine
end

