-- ==== Sys2Proof/Machine/Power.lean ====
section
/-! DEFINITION. Power states (17_power_states.md): requests, entry to STAND and SLEEP, waking, and the acknowledgements that
power requests, completions and CONFIG frames of a pair await. -/

namespace Sys2Proof.Machine

/-! ### Frames of a pair (R679, R710, R712) -/

/-- A CONFIG frame: index, subindex, a zero byte, the sender's live check word and the value. -/
def sendConfig (index sub : Nat) (v : Bytes) (s : State) : State :=
  batonSend 0x20 0 (toLE 2 index ++ toLE 1 sub ++ toLE 1 0 ++ toLE 4 (liveCheck s) ++ v) s

/-- The ACTIVE sends the target state to the STANDBY (R710). -/
def tellStandby (ps : Nat) (s : State) : State := if s.pair.role = 1 then sendConfig 0x2200 3 (toLE 1 ps) s else s

/-! ### Requests (R693 to R695, R697, R698) -/

/-- Unit state of an NVMe power state (R692). -/
def unitOfPs (ps : Nat) : Nat := if ps ≤ 1 then 0 else if ps ≤ 3 then 1 else 2

/-- The power block changed. -/
def setPower (f : Power → Power) (s : State) : State := { s with power := f s.power }

/-- A request is answered: carried out, or refused in the asker's own status form (R697). -/
def powerAnswer (r : PowerReq) (ok : Bool) (s : State) : State :=
  match r.who with
  | .nvme c => tryComplete c (setFlight c (fun f => { f with status := some (0, if ok then 0 else 0x15, none) }) s)
  | .dict reply => if ok then answerReply reply 0 (countChange 0x2200 1 s) else answerReply reply 0x0401 s
  | .peer seq => if s.pair.role = 1 then sendAck seq (if ok then 0 else 0x0401) s else s

/-- A request is refused with a reason (R697, R698, R715): 0 entry limit, 1 queue in a CMB. -/
def powerRefuse (r : PowerReq) (reason : Nat) (s : State) : State :=
  powerAnswer r false (raise 0x5203 [.u8 (unitOfPs r.ps), .u8 reason] (bump 0x2200 9 3 1 s))

/-- An I/O queue of either controller lies in a CMB (R698). -/
def queueInCmb (s : State) : Bool :=
  s.host.ctrls.toList.any (fun c => c.sqs.any (fun q => inCmb q.base) || c.cqs.any (fun q => inCmb q.base))

/-- The PS1 cap set or lifted on every lane (R695, R709): it takes force at the next pacer evaluation. -/
def capLanes (ps : Nat) (s : State) : State :=
  let v := if ps = 1 then cfg s 0x2200 4 else 9984
  allLanes.foldl (fun a n => setLane n (fun l => { l with pace := { l.pace with unitCeiling := v } }) a)
    (setPower (fun p => { p with ps := ps }) s)

/-- A wake from SLEEP begins (R705 step 1, R711): the device that holds PAIRSEL wakes its peer by a pulse of DEMAND. -/
def beginWake (s : State) : State :=
  { s with
    power := { s.power with wake := 1, stepAt := s.ticks, began := s.ticks, wakeTimes := List.replicate 7 0 }
    sup := { s.sup with en := s.sup.en.set 0 true }
    pair := { s.pair with demand := s.pair.hold && decide (s.pair.role = 1) } }

/-- A request begins from the state in force (R694 to R696, R698). -/
def powerBegin (r : PowerReq) (s : State) : State :=
  let run := setPower (fun p => { p with running := some r, began := s.ticks }) s
  let same := decide (r.ps = s.power.ps) || (match r.who with
    | .dict _ => decide (unitOfPs r.ps = s.power.unit)
    | _ => false)
  if same then powerAnswer r true s
  else if s.power.unit = 2 then beginWake run
  else if r.ps = 4 ∧ queueInCmb s then powerRefuse r 1 s
  else if s.power.unit = 1 then (if r.ps = 4 then tellStandby 4 run else run)
  else if r.ps ≤ 1 then powerAnswer r true (tellStandby r.ps (capLanes r.ps s))
  else allTeams.foldl (fun a t => sealAll t a) (setHost (fun h => { h with stopped := true }) run)

/-- The waiting requests begin in order, until one runs. -/
def powerPump : Nat → State → State
  | 0, s => s
  | n + 1, s =>
    if s.power.running.isSome then s
    else
      match s.power.waiting with
      | [] => s
      | r :: rest => powerPump n (powerBegin r (setPower (fun p => { p with waiting := rest }) s))

/-- The request that runs ends, and the next begins from the state it left. -/
def powerNext (s : State) : State :=
  powerPump (s.power.waiting.length + 1) (setPower (fun p => { p with running := none }) s)

/-- Requests that this STANDBY has sent on and that its own state now meets (R712). -/
def settleAsked (s : State) : State :=
  let hit := s.work.asked.filter (fun q => decide (unitOfPs q.2.ps = s.power.unit))
  hit.foldl (fun a q => powerAnswer q.2 true a)
    { s with work := { s.work with asked := s.work.asked.filter (fun q => decide (unitOfPs q.2.ps ≠ s.power.unit)) } }

/-- The target of the request that runs has been reached. -/
def powerDone (s : State) : State :=
  match s.power.running with
  | none => s
  | some r => powerNext (settleAsked (powerAnswer r true s))

/-- A request that arrives at the power sequencer (R693, R694, R712). -/
def requestPower (r : PowerReq) (s : State) : State :=
  match r.who with
  | .peer _ =>
    if s.power.running.isSome then setPower (fun p => { p with waiting := p.waiting ++ [r] }) s else powerBegin r s
  | _ =>
    if s.pair.role = 2 ∧ unitOfPs r.ps = s.power.unit ∧ r.ps = s.power.ps ∧ s.power.running.isNone then powerAnswer r true s
    else if s.pair.role = 2 ∧ s.power.unit = 2 then
      { s with
        pair := { s.pair with demand := true }, work := { s.work with asked := s.work.asked ++ [(0, r)] } }
    else if s.pair.role = 2 ∧ batonUp s then
      let s1 := sendConfig 0x2200 3 (toLE 1 r.ps) s
      { s1 with work := { s1.work with asked := s1.work.asked ++ [(s1.pair.txSeq, r)] } }
    else if s.power.running.isSome then setPower (fun p => { p with waiting := p.waiting ++ [r] }) s
    else powerBegin r s

/-- SET_FEATURES_POWER_MANAGEMENT (R692, R693): PS2 and states beyond PS4 are not selectable; the feature cannot be saved. -/
def execSetFeaturesPowerManagement (c : CmdId) (sv : Bool) (dw11 : Nat) (s : State) : Host.Outcome State Fault Refusal :=
  .next (fetchAny c (fun a s1 =>
    let ps := dw11 % 32
    if sv then refuse a (1, 0x0D, none) s1
    else if ps = 2 then refuse a (0, 2, none) (raise 0x5203 [.u8 1, .u8 2] (bump 0x2200 9 3 1 s1))
    else if 4 < ps then refuse a (0, 2, none) s1
    else requestPower { ps := ps, who := .nvme a } (takeOff (newFlight a s1.host.seq (.admin 9 false)) s1)) s)

/-- A write of 2200:01 (R693, R714): the state is reached, or refused, later. -/
def unitStateEffect (v : Nat) (reply : Reply) (s : State) : State :=
  requestPower { ps := if v = 0 then 0 else v + 2, who := .dict reply } s

/-! ### STAND (R696, R697, R706) -/

/-- A state of the unit is entered: event 5201 with the time taken. -/
def unitEntered (unit ps : Nat) (s : State) : State :=
  raise 0x5201 [.u8 unit, .u8 ps, .u32 (tickNs (s.ticks - s.power.began) / 1000000)]
    (setPower (fun p => { p with unit := unit, ps := ps, wokeFromSleep := false }) s)

/-- Entry to STAND waits for nothing more: no I/O command in flight and every lane PARKED or OFF (R148, R696). -/
def standReady (s : State) : Bool :=
  s.host.flights.all (fun f => decide (f.c.sq = 0)) &&
    allLanes.all (fun n => decide ((laneAt s n).life.st = .off ∨ (laneAt s n).life.st = .parked))

/-- STAND_ENTRY: step 5, and the unit is in STAND. -/
def standEntry (s : State) : State :=
  match s.power.running with
  | none => s
  | some r =>
    if s.power.unit = 0 ∧ 3 ≤ r.ps ∧ standReady s then
      let s1 := cacheCleanAll (endPassWith 2 s)
      let s2 := bump 0x2200 9 0 1 { s1 with
        power := { s1.power with selfRefresh := true }, life := { s1.life with due := some true } }
      let s3 := tellStandby r.ps (unitEntered 1 3 s2)
      if r.ps = 3 then powerDone s3 else s3
    else s

/-- STAND_ENTRY. -/
def execStandEntry (s : State) : Host.Outcome State Fault Refusal := .next (standEntry s)

/-- STAND_ENTRY_TIMEOUT (R697). -/
def execStandEntryTimeout (s : State) : Host.Outcome State Fault Refusal :=
  match s.power.running with
  | none => .next s
  | some r =>
    if s.power.unit = 0 ∧ 3 ≤ r.ps ∧ passed s s.power.began (secTicks (cfg s 0x2200 5)) then
      .next (powerNext (powerRefuse r 0 (setHost (fun h => { h with stopped := false }) s)))
    else .next s

/-- WAKE_FROM_STAND (R706): DDR5 leaves self-refresh, the lap and admission resume. -/
def wakeFromStand (s : State) : State :=
  match s.power.running with
  | none => s
  | some r =>
    if s.power.unit = 1 ∧ r.ps ≤ 1 then
      let s1 := bump 0x2200 9 2 1 (setPower (fun p => { p with selfRefresh := false }) (setHost (fun h => { h with stopped := false }) s))
      powerDone (tellStandby r.ps (unitEntered 0 r.ps (capLanes r.ps s1)))
    else s

/-- WAKE_FROM_STAND. -/
def execWakeFromStand (s : State) : Host.Outcome State Fault Refusal := .next (wakeFromStand s)

/-! ### SLEEP (R699 to R703) -/

/-- A lane passes to OFF with a last command frame and a READ_POWER of zeros (R699 step 1). -/
def laneSleeps (n : LaneId) (s : State) : State :=
  let s1 := setLane n (fun l => { l with
    spin := Spindle.reset, sled := { l.sled with command := 0, hold := false, mode := 0 }
    loop := { l.loop with released := [0, 0, 0], closed := Vector.replicate 3 false } }) (enterOff n s)
  let k := (laneAt s1 n).links
  let s2 := if k.driveTrained then driveFrame n s1 else s1
  if k.laserTrained then sendPowers n [0, 0, 0, 0, 0] s2 else s2

/-- What a lane loses with the core domain and the front-end dies (R700, R702): all but what DDR5 keeps, its pickup and its
records. -/
def laneLoses (l : Lane) : Lane :=
  { l with
    loop := { Loop.reset with runout := l.loop.runout }
    spin := Spindle.reset
    pace := { Pacer.reset with unitCeiling := l.pace.unitCeiling }
    sled := { Sled.reset with table := l.sled.table, pendingTable := l.sled.pendingTable }
    wr := { WritePath.reset with queue := l.wr.queue, abandoned := l.wr.abandoned, suspended := l.wr.suspended, moveFrom := l.wr.moveFrom }
    rd := { ReadPath.reset with defects := l.rd.defects }
    links := Links.reset
    warm := { l.warm with
      running := false, todo := [], ran := [], part := 0, opcWaiting := false, detectorPending := false, detecting := false, testPass := none }
    life := { l.life with homed := false, homing := false, targetLayer := 0, targetBand := 220 }
    startWaiting := false }

/-- SLEEP_ENTRY (R699, R702): steps 1 to 5, and PMIC1 is disabled; it waits for a save in progress. -/
def sleepEntry (s : State) : State :=
  match s.power.running with
  | none => s
  | some r =>
    if s.power.unit = 1 ∧ r.ps = 4 ∧ !s.power.isolated ∧ s.conf.save.isNone then
      let s1 := refillCmb 1 (refillCmb 0 (allLanes.foldl (fun a n => laneSleeps n a) s))
      let s2 := drainAll (cacheCleanAll s1)
      let s3 := lifeSave true { s2 with
        cache := { s2.cache with serving := false, slots := [], modes := List.replicate 16 3, change := none } }
      { s3 with
        power := { s3.power with saveBytes := 39624, isolated := true }
        lanes := s3.lanes.map laneLoses
        segs := s3.segs.map (fun g => { g with chop := false })
        sup := { s3.sup with vaon := true, en := s3.sup.en.set 1 false, lowering := [2, 0], loweredAt := s.ticks } }
    else s

/-- SLEEP_ENTRY. -/
def execSleepEntry (s : State) : Host.Outcome State Fault Refusal := .next (sleepEntry s)

/-- The last supply group has been disabled: the unit is in SLEEP. -/
def sleepReached (s : State) : State :=
  powerDone (unitEntered 2 4 (bump 0x2200 9 1 1 (disarm { s with
    pair := { s.pair with links := Vector.replicate 2 false, gathering := [], mirror := [], commits := [] }
    work := { s.work with full := false } })))

/-! ### Waking from SLEEP (R705, R707, R708) -/

/-- Bounds of the steps of R705, ms. -/
def wakeBound : Nat → Nat
  | 1 => 5 | 2 => 10 | 3 => 15 | 4 => 17 | 5 => 26 | 6 => 36 | _ => 40

/-- The wake ends in a device reset (R705, R713): a step that timed out, or fail-stop 4 for a check that failed (R743). -/
def wakeFails (check : Bool) (s : State) : State :=
  let s1 := { s with
    power := { s.power with wake := 0 }, island := { s.island with resumeFailed := true } }
  if check then failStop 4 s1 else loseHealth s1

/-- Time of a step from the origin, in microseconds. -/
def wakeTime (s : State) : Nat := tickNs (s.ticks - s.power.began) / 1000

/-- The stored values of RW entries return to their defaults (R126, R707). -/
def dropVolatile (s : State) : State :=
  { s with dict := { s.dict with
      reg := s.dict.reg.filter (fun p => !((findEntry (p.1 / 256) (p.1 % 256)).map (fun e => decide (e.acc = .rw))).getD false) } }

/-- A lane after a wake: its banks are loaded again, its disc is unidentified, and a lane with a clamped disc spins up
(R406, R708). -/
def laneWakes (n : LaneId) (s : State) : State :=
  let l := laneAt s n
  let s1 := match l.life.pickup with
    | some p => loadBanks n p.cls s
    | none => s
  let s2 := setLane n (fun l => { l with life := { l.life with leadIn := .unread } }) s1
  let s3 := if clamped l then { s2 with power := { s2.power with spinAfter := s2.power.spinAfter ++ [n] } } else s2
  leaveOff n s3

/-- Step 7 of R705: the unit is in RUN, and admission resumes in the power state of the request; a request for STAND goes on
from there. -/
def wakeEnds (r : PowerReq) (s : State) : State :=
  let ps := if r.ps ≤ 1 then r.ps else 0
  let s1 := dropVolatile { s with
    power := { s.power with
      wake := 0, wakeTimes := s.power.wakeTimes.set 6 (wakeTime s), selfRefresh := false, spinAfter := [] }
    host := { s.host with stopped := false }
    cache := { s.cache with serving := true, slots := [], modes := List.replicate 16 0, change := some ((stored s 0x2401 1).map (fun b => b.toNat)) } }
  let s2 := setPower (fun p => { p with wokeFromSleep := true }) (unitEntered 0 ps (capLanes ps (setCause 1 false s1)))
  let s3 := allLanes.foldl (fun a n => laneWakes n a) s2
  let s4 := bump 0x2200 9 2 1 (allTeams.foldl (fun a t => evaluateTeam t none a) s3)
  if r.ps ≤ 1 then powerDone s4 else powerBegin r (settleAsked s4)

/-- WAKE_STEP (R705): the ready signal of the step in progress, and the next step starts; a save list or an image that fails its
check ends the wake. -/
def wakeStep (ok : Bool) (s : State) : State :=
  match s.power.running with
  | none => s
  | some r =>
    let k := s.power.wake
    let s1 := { s with
      power := { s.power with wakeTimes := s.power.wakeTimes.set (k - 1) (wakeTime s), wake := k + 1, stepAt := s.ticks }
      pair := { s.pair with demand := false } }
    if s.power.unit ≠ 2 ∨ k = 0 then s
    else if !ok then (if k = 5 ∨ k = 6 then wakeFails true s else s)
    else if k = 1 then { s1 with sup := { s1.sup with pg := s1.sup.pg.set 0 true, en := s1.sup.en.set 2 true } }
    else if k = 2 then { s1 with sup := { s1.sup with pg := s1.sup.pg.set 2 true, en := s1.sup.en.set 1 true } }
    else if k = 3 then { s1 with sup := { s1.sup with pg := s1.sup.pg.set 1 true } }
    else if k = 4 then s1
    else if k = 5 then setPower (fun p => { p with selfRefresh := false }) s1
    else wakeEnds r { s1 with sup := { s1.sup with vaon := false }, power := { s1.power with isolated := false } }

/-- WAKE_STEP. -/
def execWakeStep (ok : Bool) (s : State) : Host.Outcome State Fault Refusal := .next (wakeStep ok s)

/-- WAKE_STEP_TIMEOUT: a ready signal not seen within four times its bound. -/
def execWakeStepTimeout (s : State) : Host.Outcome State Fault Refusal :=
  if s.power.unit = 2 ∧ 1 ≤ s.power.wake ∧ passed s s.power.began (msTicks (4 * wakeBound s.power.wake)) then
    .next (wakeFails false (raise 0x5202 [.u8 s.power.wake] s))
  else .next s

/-- DEMAND_WAKE (R711, R712): in SLEEP, PAIRSEL_DEMAND_I high for 10 us is a wake request, for the device that holds PAIRSEL as
for the other. -/
def execDemandWake (s : State) : Host.Outcome State Fault Refusal :=
  if s.power.unit = 2 ∧ s.power.wake = 0 then .next (requestPower { ps := 0, who := .peer 0 } s) else .next s

/-! ### Acknowledgements (R669, R673, R679, R712) -/

/-- An ACK of a sequence with its status: of a COMMIT record, whose command's completion is now committed; of a CONFIG frame,
whose write now returns; of a power request, which a status other than 0 refuses; else of the cut that arms mirroring. -/
def ackIn (seq status : Nat) (s : State) : State :=
  match s.work.commits.find? (fun q => decide (q.1 = seq)), s.work.configs.find? (fun q => decide (q.1 = seq)),
      s.work.asked.find? (fun q => decide (q.1 = seq)) with
  | some (_, c), _, _ =>
    let s1 := { s with work := { s.work with commits := s.work.commits.filter (fun q => decide (q.1 ≠ seq)) } }
    match flightOf s1 c with
    | some f => carriedCheck (commitFlight f (f.status.getD (0, 0, none)) s1)
    | none => s1
  | none, some (_, r), _ =>
    answerReply r 0 { s with work := { s.work with configs := s.work.configs.filter (fun q => decide (q.1 ≠ seq)) } }
  | none, none, some (_, r) =>
    if status = 0 then s
    else powerAnswer r false { s with work := { s.work with asked := s.work.asked.filter (fun q => decide (q.1 ≠ seq)) } }
  | none, none, none => if s.pair.role = 1 ∧ s.work.full then arm s else s

/-- ACK. -/
def execAck (frame : Bytes) (s : State) : Host.Outcome State Fault Refusal :=
  .next (batonReceive 0x12 frame (fun f _ a => ackIn (field f.body 0 4) (field f.body 4 2) a) s)

end Sys2Proof.Machine
end

