-- ==== Sys2Proof/Machine/Firmware.lean ====
section
/-! DEFINITION. Firmware images, downloads, activation and trial (R716 to R746). -/

namespace Sys2Proof.Machine

/-! ### Image verification (R719 to R722) -/

/-- Sections of a header: type, offset, length and SHA-384. -/
def sectionsOf (h : Bytes) : List (Nat × Nat × Nat × Bytes) :=
  (upTo (field h 42 2)).map (fun i => (field h (64 + 64 * i) 2, field h (68 + 64 * i) 4, field h (72 + 64 * i) 4, slice h (80 + 64 * i) 48))

/-- Every byte is zero. -/
def allZeroBytes (b : Bytes) : Bool := b.all (fun x => decide (x = 0))

/-- Two sections do not overlap. -/
def apart (a b : Nat × Nat × Nat × Bytes) : Bool := decide (a.2.1 + a.2.2.1 ≤ b.2.1) || decide (b.2.1 + b.2.2.1 ≤ a.2.1)

/-- Pairs of a list satisfy a test. -/
def pairwiseOk {α : Type} (p : α → α → Bool) : List α → Bool
  | [] => true
  | a :: rest => rest.all (p a) && pairwiseOk p rest

/-- Section rules of R720. -/
def sectionsOk (h : Bytes) : Bool :=
  let l := sectionsOf h
  l.all (fun q => decide (1 ≤ q.1 ∧ q.1 ≤ 8) && decide (4096 ≤ q.2.1 ∧ q.2.1 + q.2.2.1 ≤ field h 32 4)) &&
    [1, 2, 3].all (fun t => decide ((l.filter (fun q => decide (q.1 = t))).length = 1)) && pairwiseOk apart l &&
    (upTo (field h 42 2)).all (fun i => decide (field h (66 + 64 * i) 2 = 0 ∧ field h (76 + 64 * i) 4 = 0)) &&
    allZeroBytes (slice h (64 + 64 * field h 42 2) (64 * (8 - field h 42 2)))

/-- Check 1 of R721. -/
def formatOk (h : Bytes) : Bool :=
  decide (h.length = 4096 ∧ field h 0 4 = 0x474D4959 ∧ field h 4 2 = 1 ∧ field h 6 2 = 4096) &&
    decide (4096 ≤ field h 32 4 ∧ field h 32 4 ≤ 33554432 ∧ field h 36 4 < 4 ∧ field h 40 2 ≤ 64) &&
    decide (3 ≤ field h 42 2 ∧ field h 42 2 ≤ 8) && sectionsOk h &&
    allZeroBytes (slice h 44 20) && allZeroBytes (slice h 1600 2368) && allZeroBytes (slice h 4065 31)

/-- Check 3 of R721. -/
def serialOk (h : Bytes) : Bool :=
  !bit (field h 36 4) 0 ||
    (upTo (field h 40 2)).any (fun i => decide (slice h (576 + 16 * i) 16 = padSpaces 16 Sys2Proof.Config.serialNumber.toList))

/-- Check 4 of R721. -/
def signatureOk (h : Bytes) : Bool :=
  let k := field h 4064 1
  decide (k < 4) && !Sys2Proof.Config.keyRevoked (Fin.ofNat 4 k) && Sys2Proof.Config.ecdsaVerify (Fin.ofNat 4 k) (h.take 3968) (slice h 3968 96)

/-- Check 5 of R721. -/
def digestsOk (image : Bytes) : Bool :=
  (sectionsOf image).all (fun q => decide (sha384 (slice image q.2.1 q.2.2.1) = q.2.2.2))

/-- The first check of R721 that an image fails; with `whole` false, of a header: checks 1 to 4 and 6 (R728). -/
def verifyOrder (whole : Bool) (image : Bytes) (least : Nat) : Option Nat :=
  let h := image.take 4096
  if !formatOk h || (whole && decide (image.length ≠ field h 32 4)) then some 1
  else if field h 8 4 ≠ 0x59320A01 then some 2
  else if !serialOk h then some 3
  else if !signatureOk h then some 4
  else if whole && !digestsOk image then some 5
  else if field h 24 4 < least then some 6 else none

/-- Dictionary status of a failed check. -/
def orderStatus (k : Nat) : Nat := if k = 1 then 0x0304 else if k = 4 ∨ k = 5 then 0x0602 else 0x0603

/-- NVMe status of a failed check. -/
def orderNvme (k : Nat) : Nat × Nat × Option Bool := if k = 6 then (1, 0x13, none) else (1, 7, none)

/-! ### Slots and downloads (R718, R727 to R732) -/

/-- The inactive slot. -/
def inactiveSlot (s : State) : Fin 2 := otherSlot (s.fw.running.getD 0)

/-- Chunks of an image (R728). -/
def chunkCount (h : Bytes) : Nat := (field h 32 4 + 16383) / 16384

/-- The download record changed. -/
def setLoad (f : Download → Download) (s : State) : State := { s with fw := { s.fw with load := f s.fw.load } }

/-- A download is opened on the inactive slot (R727, R728): the order of the check that refuses it, 0 for those of R727. -/
def openLoad (h : Bytes) (nvme : Bool) (s : State) : Except Nat State :=
  let r := inactiveSlot s
  let o := otherSlot r
  if s.fw.slots[o].st = 4 ∨ s.fw.slots[r].st = 3 then .error 0
  else
    match verifyOrder false h s.fw.fusedMin with
    | some k => .error k
    | none => .ok (setLoad (fun _ => { state := 1, nvme := nvme, slot := r.val, header := h, chunks := [], status := 0, due := false })
        (setSlot r (fun _ => { st := 1, version := field h 12 4, security := field h 24 4, length := field h 32 4
                               image := zeroBytes (field h 32 4) }) s))

/-- A chunk programmed and marked; one already present is not programmed again (R729). With the last missing chunk the image is
due to be verified (R731). -/
def putChunk (c : Nat) (data : Bytes) (s : State) : State :=
  let d := s.fw.load
  if d.chunks.contains c then s
  else
    let r : Fin 2 := Fin.ofNat 2 d.slot
    let len := field d.header 32 4
    let part := data.take (len - 16384 * c)
    let chunks := insertNat c d.chunks
    setLoad (fun d => { d with chunks := chunks, due := decide (chunks.length = chunkCount d.header) })
      { s with fw := { s.fw with slots := s.fw.slots.set r { s.fw.slots[r] with image := (patch s.fw.slots[r].image (16384 * c) part).take len } } }

/-- 2610:01 (R728). -/
def openDownloadEffect (v : Bytes) (s : State) : Eff :=
  match openLoad v false s with
  | .ok s1 => .ok s1
  | .error k => .error (if k = 0 then 0x0304 else orderStatus k)

/-- 2610:02 (R729). -/
def chunkEffect (v : Bytes) (s : State) : Eff :=
  let d := s.fw.load
  let c := field v 0 2
  let data := slice v 36 16384
  if d.state ≠ 1 then .error 0x0304
  else if chunkCount d.header ≤ c then .error 0x0301
  else if sha256 data ≠ slice v 4 32 then .error 0x0601
  else if c = 0 ∧ data.take 4096 ≠ d.header then .error 0x0304
  else .ok (putChunk c data s)

/-- 2610:04 (R732). -/
def abandonEffect (s : State) : Eff :=
  if s.fw.load.state = 1 then
    .ok (setLoad (fun _ => Download.none) (setSlot (Fin.ofNat 2 s.fw.load.slot) (fun _ => FlashSlot.empty) s))
  else .ok s

/-- The whole slot is verified (R731): the state and whether it is VALID. -/
def verifySlot (s : State) : State × Bool :=
  let r : Fin 2 := Fin.ofNat 2 s.fw.load.slot
  let b := s.fw.slots[r].image
  match verifyOrder true b s.fw.fusedMin with
  | none => (raise 0x6001 [.u8 r.val, .u32 (field b 12 4)] (setLoad (fun d => { d with state := 2, status := 0, due := false })
      (setSlot r (fun f => { f with st := 2 }) s)), true)
  | some k => (raise 0x6002 [.u8 r.val, .u8 k] (setLoad (fun d => { d with state := 3, status := orderStatus k, due := false })
      (setSlot r (fun _ => FlashSlot.empty) s)), false)

/-- IMAGE_VERIFY (R731): the last missing chunk has arrived. -/
def execImageVerify (s : State) : Host.Outcome State Fault Refusal :=
  if s.fw.load.state = 1 ∧ s.fw.load.due then .next (verifySlot s).1 else .next s

/-- IMAGE_COPY_TO_PEER (R739): a completed download of an ACTIVE device has been copied into the peer's inactive slot. -/
def execImageCopyToPeer (s : State) : Host.Outcome State Fault Refusal :=
  let r := inactiveSlot s
  if s.pair.role = 1 ∧ batonUp s ∧ s.fw.load.state = 2 ∧ s.fw.slots[r].st = 2 then
    .next (raise 0x6009 [.u8 r.val, .u32 s.fw.slots[r].version] s)
  else .next s

/-! ### Firmware Image Download and Commit (R734, R735, R739) -/

/-- Chunks of a transfer programmed in order. -/
def putChunks : Nat → Nat → Bytes → State → State
  | 0, _, _, s => s
  | n + 1, c, b, s => if b.isEmpty then s else putChunks n (c + 1) (b.drop 16384) (putChunk c (b.take 16384) s)

/-- The transfer's offset and length (R734), against the header in force. -/
def transferFits (h : Bytes) (ofst len : Nat) : Bool :=
  decide (0 < len ∧ ofst % 16384 = 0 ∧ (len % 16384 = 0 ∨ ofst + len = field h 32 4) ∧ (ofst + len + 16383) / 16384 ≤ chunkCount h)

/-- Firmware Image Download: `ofst` in bytes. -/
def imageDownload (ofst : Nat) (data : Option Bytes) (c : CmdId) (s : State) : State :=
  match data with
  | none => refuse c (0, 4, none) s
  | some b =>
    let d := s.fw.load
    if s.pair.role = 2 then refuse c (1, 0x13, none) s
    else if d.state = 1 ∧ !d.nvme then refuse c (0, 0xC, none) s
    else if ofst % 16384 ≠ 0 ∨ b.isEmpty then refuse c (0, 2, none) s
    else
      let fresh := decide (ofst = 0) && (decide (d.state ≠ 1) || decide (b.take 4096 ≠ d.header))
      if fresh then
        if b.length < 4096 then refuse c (0, 2, none) s
        else
          match openLoad (b.take 4096) true s with
          | .error k => refuse c (orderNvme k) s
          | .ok s1 =>
            if transferFits (b.take 4096) ofst b.length then adminDone c 0 (putChunks 2048 0 b s1) else refuse c (0, 2, none) s
      else if d.state ≠ 1 then refuse c (0, 0xC, none) s
      else if !transferFits d.header ofst b.length then refuse c (0, 2, none) s
      else adminDone c 0 (putChunks 2048 (ofst / 16384) b s)

/-- FIRMWARE_IMAGE_DOWNLOAD. -/
def execFirmwareImageDownload (c : CmdId) (ofst : Nat) (data : Option Bytes) (s : State) : Host.Outcome State Fault Refusal :=
  .next (fetchAdmin c (imageDownload ofst data) s)

/-- The slot that FS names, for the actions that may not name the running slot. -/
def slotOfFs (s : State) (fs : Nat) : Option (Fin 2) :=
  if fs = 0 then some (inactiveSlot s)
  else if fs ≤ 2 then (if s.fw.running = some (Fin.ofNat 2 (fs - 1)) then none else some (Fin.ofNat 2 (fs - 1)))
  else none

/-- Action 000b: the status with which it does not succeed, or the state with the slot VALID. -/
def completeLoad (r : Fin 2) (s : State) : Except (Nat × Nat × Option Bool) State :=
  let d := s.fw.load
  if d.state = 1 ∧ d.slot = r.val then
    if d.due then
      match verifySlot s with
      | (s1, true) => .ok s1
      | (_, false) => .error (1, 7, none)
    else .error (0, 0xC, none)
  else if s.fw.slots[r].st = 2 ∨ s.fw.slots[r].st = 3 then .ok s
  else if d.state = 3 then .error (1, 7, none) else .error (0, 0xC, none)

/-- What action 000b leaves even where it fails: an image that does not verify leaves its slot EMPTY. -/
def afterLoad (r : Fin 2) (s : State) : State :=
  if s.fw.load.state = 1 ∧ s.fw.load.slot = r.val ∧ s.fw.load.due then (verifySlot s).1 else s

/-- A slot becomes PENDING and the boot slot (R718). -/
def makePending (r : Fin 2) (s : State) : State :=
  dirUpdate (fun d => { d with boot := r.val }) { s with fw := { s.fw with slots := s.fw.slots.set r { s.fw.slots[r] with st := 3 } } }

/-- Actions 000b and 001b. -/
def commitLoad (pending : Bool) (fs : Nat) (c : CmdId) (s : State) : State :=
  if s.pair.role = 2 then refuse c (1, 0x13, none) s
  else
    match slotOfFs s fs with
    | none => refuse c (1, 6, none) s
    | some r =>
      match completeLoad r s with
      | .error e => refuse c e (afterLoad r s)
      | .ok s1 => if pending then completeAs c (1, 0xB, none) 0 (admitted (makePending r s1)) else adminDone c 0 s1

/-- FIRMWARE_COMMIT_VERIFY (action 000b). -/
def execFirmwareCommitVerify (c : CmdId) (fs : Nat) (s : State) : Host.Outcome State Fault Refusal :=
  .next (fetchAdmin c (commitLoad false fs) s)

/-- FIRMWARE_COMMIT_PENDING (action 001b). -/
def execFirmwareCommitPending (c : CmdId) (fs : Nat) (s : State) : Host.Outcome State Fault Refusal :=
  .next (fetchAdmin c (commitLoad true fs) s)

/-- FIRMWARE_COMMIT_SELECT (action 010b): a slot that is not VALID is an invalid firmware slot. -/
def execFirmwareCommitSelect (c : CmdId) (fs : Nat) (s : State) : Host.Outcome State Fault Refusal :=
  .next (fetchAdmin c (fun c s =>
    if s.pair.role = 2 then refuse c (1, 0x13, none) s
    else
      match slotOfFs s fs with
      | none => refuse c (1, 6, none) s
      | some r =>
        if s.fw.slots[r].st = 2 ∨ s.fw.slots[r].st = 3 then completeAs c (1, 0xB, none) 0 (admitted (makePending r s))
        else refuse c (1, 6, none) s) s)

/-! ### Activation (R736 to R740) -/

/-- The activation changed. -/
def setAct (f : Activation → Activation) (s : State) : State := { s with fw := { s.fw with act := f s.fw.act } }

/-- The header of a slot. -/
def slotHeader (s : State) (r : Fin 2) : Bytes := (s.fw.slots[r].image).take 4096

/-- What refuses an activation (R736): dictionary status and NVMe status. -/
structure ActRefusal where
  dict : Nat
  nvme : Nat × Nat × Option Bool
  pending : Bool
  deriving DecidableEq

/-- The version of one image lies within the window of the other, both ways (R738 step 1). -/
def windowsMeet (a b : Bytes) : Bool :=
  decide (field a 16 4 ≤ field b 12 4 ∧ field b 12 4 ≤ field a 20 4) && decide (field b 16 4 ≤ field a 12 4 ∧ field a 12 4 ≤ field b 20 4)

/-- The cases of R736 in order; `peerHolds` is the peer's answer whether it holds the same image VALID. -/
def actRefused (peerHolds : Bool) (s : State) : Option ActRefusal :=
  let r := inactiveSlot s
  let new := slotHeader s r
  let run := runningHeader s
  if s.fw.slots[r].st ≠ 2 ∧ s.fw.slots[r].st ≠ 3 then some { dict := 0x0304, nvme := (1, 6, none), pending := false }
  else if s.power.unit = 2 then some { dict := 0x0402, nvme := (1, 0x13, none), pending := false }
  else if s.fw.act.state = 1 ∨ s.work.drill.isSome ∨ s.power.running.isSome then
    some { dict := 0x0501, nvme := (1, 0x13, none), pending := false }
  else if s.pair.role = 2 ∨ (s.pair.role = 3 ∧ !s.pair.hold) then some { dict := 0x0403, nvme := (1, 0x13, none), pending := false }
  else if field run 28 2 < field new 30 2 then some { dict := 0x0304, nvme := (1, 0xB, none), pending := true }
  else if s.pair.role = 1 ∧ !(peerHolds && s.work.armed && windowsMeet run new) then
    some { dict := 0x0304, nvme := (1, 0x13, none), pending := false }
  else none

/-- An activation begins: on an ACTIVE device with the STANDBY's (R738 step 2), else here (R737). -/
def actBegin (who : Option PowerWho) (s : State) : State :=
  let rolling := decide (s.pair.role = 1)
  let s1 := setAct (fun _ => { Activation.idle with
    state := 1, step := if rolling then 0 else 1, rolling := if rolling then 2 else 0, began := s.ticks, who := who }) s
  if rolling then disarm (sendConfig 0x2620 1 (toLE 4 0x41435456) s1) else s1

/-- 2620:01: the asker's status is that of the acceptance. -/
def activateEffect (peerHolds : Bool) (s : State) : Eff × State :=
  match actRefused peerHolds s with
  | some e => (.error e.dict, if e.pending then makePending (inactiveSlot s) s else s)
  | none => (.ok (actBegin none s), s)

/-- Action 011b: as 000b, then activation; the command completes when the activation has ended. In SLEEP it is prohibited. -/
def commitActivate (fs : Nat) (peerHolds : Bool) (c : CmdId) (s : State) : State :=
  if s.power.unit = 2 ∨ s.pair.role = 2 then refuse c (1, 0x13, none) s
  else
    match slotOfFs s fs with
    | none => refuse c (1, 6, none) s
    | some r =>
      match completeLoad r s with
      | .error e => refuse c e (afterLoad r s)
      | .ok s1 =>
        match actRefused peerHolds s1 with
        | some e => refuse c e.nvme (if e.pending then makePending r s1 else s1)
        | none => actBegin (some (.nvme c)) (takeOff (newFlight c s1.host.seq (.admin 0x10 false)) s1)

/-- FIRMWARE_COMMIT_ACTIVATE (action 011b). -/
def execFirmwareCommitActivate (c : CmdId) (fs : Nat) (peerHolds : Bool) (s : State) : Host.Outcome State Fault Refusal :=
  .next (fetchAny c (commitActivate fs peerHolds) s)

/-- The asker of an activation is answered. -/
def actAnswer (st : Nat × Nat × Option Bool) (s : State) : State :=
  match s.fw.act.who with
  | some (.nvme c) => tryComplete c (setFlight c (fun f => { f with status := some st }) s)
  | _ => s

/-- An activation fails at a step: event 6006. -/
def actFails (step : Nat) (st : Nat × Nat × Option Bool) (s : State) : State :=
  let s1 := actAnswer st (raise 0x6006 [.u8 step] s)
  setAct (fun a => { a with state := 3, who := none }) s1

/-- Measurements of an image (R725): loader, unit and lane sections. -/
def measureImage (b : Bytes) (s : State) : State :=
  let m (t : Nat) : Bytes :=
    ((sectionsOf b).find? (fun q => decide (q.1 = t))).elim [] (fun q => sha384 (slice b q.2.1 q.2.2.1))
  { s with fw := { s.fw with loader := m 1, unitFw := m 2, laneFw := m 3 } }

/-- Firmware Activation Starting on each controller that has it enabled (R543, R737 step 2). -/
def actStarting (s : State) : State :=
  let r := inactiveSlot s
  asyncBoth 2 1 (raise 0x6004 [.u8 r.val, .u32 s.fw.slots[r].version] s)

/-- Step 3 (R587, R593): the last admission; CSTS.PP is set and the dictionary server stops. -/
def actPause (s : State) : State :=
  setAct (fun a => { a with stoppedAt := s.ticks }) (setHost (fun h => { h with
    frozen := true, ctrls := h.ctrls.map (fun c => { c with paused := true }) }) s)

/-- Step 5: the handoff is written, a lifetime save is made, and the directory names the new slot TRIAL and boot slot. -/
def actHandoff (s : State) : State :=
  let r := inactiveSlot s
  let o := otherSlot r
  let s1 := lifeSave false s
  let slots := (s1.fw.slots.set r { s1.fw.slots[r] with st := 4 }).set o { s1.fw.slots[o] with st := 2 }
  dirUpdate (fun d => { d with boot := r.val, trialTime := timeNow s1 }) { s1 with fw := { s1.fw with slots := slots, trialTick := s1.ticks } }

/-- Step 7 (R571, R587, R593): admission resumes ORDERED, completions that fell due are committed, and the device pairs again. -/
def actResume (s : State) : State :=
  let pause := tickNs (s.ticks - s.fw.act.stoppedAt) / 1000
  let b := match s.fw.running with
    | some r => s.fw.slots[r].image
    | none => []
  let s1 := measureImage b (setHost (fun h => { h with
    frozen := false, ctrls := h.ctrls.map (fun c => { c with paused := false })
    flights := h.flights.map (fun f => { f with carried := true }) }) s)
  let s2 := carriedCheck (setCause 3 true { s1 with fw := { s1.fw with activations := s1.fw.activations + 1 } })
  let s3 := raise 0x6005 [.u32 (field b 12 4), .u32 pause] (setAct (fun a => { a with
    pause := pause, step := 7, state := if a.rolling = 0 then 2 else 1 }) s2)
  let s4 := (s3.host.flights.map (fun f => f.c)).foldl (fun a c => tryComplete c a) s3
  let s5 := if s4.fw.act.rolling = 0 then setAct (fun a => { a with who := none }) (actAnswer (0, 0, none) s4) else s4
  carriedCheck (if batonUp s5 then batonSend 0x02 0 (helloBody s5) s5 else s5)

/-- ACTIVATION_STEP (R737): the step in progress completes and the next begins; the image fails its check at step 1. -/
def activationStep (s : State) : State :=
  let a := s.fw.act
  if a.state ≠ 1 ∨ !(a.rolling = 0 ∨ a.rolling = 5) then s
  else
    let next := setAct (fun a => { a with step := a.step + 1 })
    if a.step = 1 then
      let r := inactiveSlot s
      match verifyOrder true s.fw.slots[r].image s.fw.fusedMin with
      | some k => actFails 1 (orderNvme k) s
      | none => next (actStarting s)
    else if a.step = 2 then next (actPause s)
    else if a.step = 3 then next s
    else if a.step = 4 then next (actHandoff s)
    else if a.step = 5 then next { s with fw := { s.fw with running := some (inactiveSlot s) } }
    else if a.step = 6 then actResume s
    else s

/-- ACTIVATION_STEP. -/
def execActivationStep (s : State) : Host.Outcome State Fault Refusal := .next (activationStep s)

/-- A step of R738 succeeds, and the next begins: the drill of step 4, this device's own activation of step 5; after step 6 the
commit completes. -/
def rollingNext (s : State) : State :=
  let k := s.fw.act.rolling
  let s1 := setAct (fun a => { a with rolling := k + 1 }) s
  if k = 3 then
    match beginDrill s1 with
    | .ok s2 => s2
    | .error _ => actFails 4 (1, 0x13, none) s1
  else if k = 4 then setAct (fun a => { a with step := 1 }) s1
  else if k = 6 then setAct (fun a => { a with state := 2, rolling := 0, who := none }) (actAnswer (0, 0, none) s)
  else s1

/-- What a step of R738 rests on, as far as this device sees it. -/
def rollingHolds (s : State) : Bool :=
  match s.fw.act.rolling with
  | 3 => s.work.armed
  | 4 => decide (s.pair.role = 2)
  | 5 => decide (s.fw.act.step = 7)
  | 6 => decide (s.pair.role = 2)
  | _ => true

/-- ROLLING_ACTIVATION_STEP (R738, R740): a step of the pair's activation completes or fails. -/
def execRollingActivationStep (ok : Bool) (s : State) : Host.Outcome State Fault Refusal :=
  let a := s.fw.act
  if a.state ≠ 1 ∨ a.rolling = 0 then .next s
  else if !ok then .next (setAct (fun a => { a with rolling := 0 }) (actFails a.rolling (1, 0x13, none) s))
  else if rollingHolds s then .next (rollingNext s)
  else .next s

/-! ### Trial and fail-stops (R741 to R743) -/

/-- The running TRIAL slot becomes RUNNING and the previous one VALID; RAISE_MINIMUM raises the fused minimum (R722, R741). -/
def commitTrial (s : State) : State :=
  match s.fw.running with
  | none => s
  | some r =>
    if s.fw.slots[r].st = 4 then
      let o := otherSlot r
      let h := slotHeader s r
      let up := bit (field h 36 4) 1 && decide (s.fw.fusedMin < field h 24 4)
      let old := s.fw.slots[o].st
      let slots := (s.fw.slots.set r { s.fw.slots[r] with st := 5 }).set o { s.fw.slots[o] with st := if old = 5 then 2 else old }
      raise 0x6008 [.u32 (field h 12 4), .u8 (b2n up)] (dirUpdate id { s with fw := { s.fw with
        slots := slots, fusedMin := if up then field h 24 4 else s.fw.fusedMin } })
    else s

/-- 2600:07. -/
def commitTrialEffect (s : State) : Eff := .ok (commitTrial s)

/-- TRIAL_EXPIRE (R741). -/
def execTrialExpire (s : State) : Host.Outcome State Fault Refusal :=
  if passed s s.fw.trialTick (secTicks (cfg s 0x2600 6)) then .next (commitTrial s) else .next s

/-- The watchdog of a core runs (R743): lane cores 0 to 7 halt from step 4 of an activation, unit cores 8 to 11 from step 5, both
to step 6. -/
def watchdogRuns (core : Fin 12) (s : State) : Bool :=
  s.fw.running.isSome &&
    !(decide (s.fw.act.state = 1) && (decide (s.fw.act.step = 5) || (decide (s.fw.act.step = 4) && decide (core.val < 8))))

/-- WATCHDOG_EXPIRE (R743): fail-stop 1. -/
def execWatchdogExpire (core : Fin 12) (s : State) : Host.Outcome State Fault Refusal :=
  if watchdogRuns core s then .next (failStop 1 s) else .next s

/-- A fail-stop cause of R743 can arise: 4 in a wake's checks, 5 between steps 3 and 6 of an activation. -/
def causeArises (cause : Nat) (s : State) : Bool :=
  s.fw.running.isSome && decide (1 ≤ cause ∧ cause ≤ 7) &&
    (decide (cause ≠ 4) || (decide (s.power.unit = 2) && decide (5 ≤ s.power.wake))) &&
    (decide (cause ≠ 5) || (decide (s.fw.act.state = 1) && decide (3 ≤ s.fw.act.step ∧ s.fw.act.step ≤ 5)))

/-- FAIL_STOP (R743). -/
def execFailStop (cause : Nat) (s : State) : Host.Outcome State Fault Refusal :=
  if causeArises cause s then .next (failStop cause s) else .next s

end Sys2Proof.Machine
end

