-- ==== Sys2Proof/Machine/Spdm.lean ====
section
/-! DEFINITION. The SPDM 1.2 responder (R725, R726), by the message formats of DMTF SPDM 1.2. -/

namespace Sys2Proof.Machine

/-! ### Measurements (R725) -/

/-- The running header's version, security version with the fused minimum: blocks 5 and 6. -/
def versionBlock (s : State) : Bytes := toLE 4 (field (runningHeader s) 12 4)

/-- Block 6. -/
def securityBlock (s : State) : Bytes := toLE 4 (field (runningHeader s) 24 4) ++ toLE 4 s.fw.fusedMin

/-- Value type and value of a measurement block. -/
def measurement (s : State) (i : Nat) : Nat × Bytes :=
  if i = 1 then (0x00, Sys2Proof.Config.romMeasurement.toList)
  else if i = 2 then (0x01, s.fw.loader)
  else if i = 3 then (0x01, s.fw.unitFw)
  else if i = 4 then (0x01, s.fw.laneFw)
  else if i = 5 then (0x86, versionBlock s)
  else if i = 6 then (0x87, securityBlock s)
  else (0x03, s.fw.config)

/-- A measurement block; bit 7 of the type marks a raw value. -/
def measurementBlock (s : State) (i : Nat) : Bytes :=
  let m := measurement s i
  toLE 1 i ++ toLE 1 1 ++ toLE 2 (3 + m.2.length) ++ toLE 1 m.1 ++ toLE 2 m.2.length ++ m.2

/-- Every block, in order of its index. -/
def allBlocks (s : State) : Bytes := (upTo 7).flatMap (fun i => measurementBlock s (i + 1))

/-! ### Messages -/

/-- SHA-384 as bytes. -/
def sha (b : Bytes) : Bytes := sha384 b

/-- The responder's exchange changed. -/
def setSpdm (f : Spdm → Spdm) (s : State) : State := setHost (fun h => { h with spdm := f h.spdm }) s

/-- A response given: it stands for the next Security Receive, and the exchange goes on. -/
def spdmReply (stage : Nat) (fresh : Bool) (request response : Bytes) (s : State) : State :=
  send (.spdm response) (setSpdm (fun x => {
    stage := stage, transcript := (if fresh then [] else x.transcript) ++ request ++ response, response := some response }) s)

/-- ERROR with its code: 1 InvalidRequest, 4 UnexpectedRequest, 7 UnsupportedRequest; the exchange stays as it is. -/
def spdmError (code data : Nat) (s : State) : State :=
  let m := natBytes [0x12, 0x7F, code, data]
  send (.spdm m) (setSpdm (fun x => { x with response := some m }) s)

/-- A request that the exchange has come far enough for. -/
def spdmAt (least : Nat) (k : State → State) (s : State) : State := if s.host.spdm.stage < least then spdmError 4 0 s else k s

/-- GET_VERSION: version 1.2 only. -/
def spdmVersion (s : State) : State :=
  spdmReply 1 true (natBytes [0x10, 0x84, 0, 0]) (natBytes [0x10, 0x04, 0, 0, 0, 1, 0x00, 0x12]) s

/-- GET_CAPABILITIES: CERT_CAP, CHAL_CAP and MEAS_CAP with signature; what R726 does not give is free. -/
def spdmCapabilities (flags : Nat) (s : State) : State :=
  spdmAt 1 (fun s =>
    match drawBytes 9 s with
    | (b, s1) => spdmReply 2 false (natBytes [0x12, 0xE1, 0, 0, 0, 0, 0, 0] ++ toLE 4 flags)
        (natBytes [0x12, 0x61, 0, 0, 0] ++ b.take 1 ++ natBytes [0, 0] ++ toLE 4 0x16 ++ b.drop 1) s1) s

/-- NEGOTIATE_ALGORITHMS: ECDSA P-384 and SHA-384, where they are offered. -/
def spdmAlgorithms (asym hash : Nat) (s : State) : State :=
  spdmAt 2 (fun s =>
    spdmReply 3 false (natBytes [0x12, 0xE3, 0, 0] ++ toLE 2 32 ++ natBytes [1, 0] ++ toLE 4 asym ++ toLE 4 hash ++ zeroBytes 16)
      (natBytes [0x12, 0x63, 0, 0] ++ toLE 2 36 ++ natBytes [1, 0] ++ toLE 4 4 ++ toLE 4 (if bit asym 7 then 0x80 else 0) ++
        toLE 4 (if bit hash 1 then 2 else 0) ++ zeroBytes 16) s) s

/-- GET_DIGESTS: slot 0. -/
def spdmDigests (s : State) : State :=
  spdmAt 3 (fun s => spdmReply 3 false (natBytes [0x12, 0x81, 0, 0])
    (natBytes [0x12, 0x01, 0, 1] ++ sha Sys2Proof.Config.certificateChain) s) s

/-- GET_CERTIFICATE: a portion of slot 0's chain. -/
def spdmCertificate (slot offset len : Nat) (s : State) : State :=
  spdmAt 3 (fun s =>
    let chain := Sys2Proof.Config.certificateChain
    if slot ≠ 0 ∨ chain.length ≤ offset then spdmError 1 0 s
    else
      let part := slice chain offset len
      spdmReply 3 false (natBytes [0x12, 0x82, 0, 0] ++ toLE 2 offset ++ toLE 2 len)
        (natBytes [0x12, 0x02, 0, 0] ++ toLE 2 part.length ++ toLE 2 (chain.length - offset - part.length) ++ part) s) s

/-- CHALLENGE: with the summary hash of all blocks, or none. -/
def spdmChallenge (slot summary : Nat) (nonce : Bytes) (s : State) : State :=
  spdmAt 3 (fun s =>
    if slot ≠ 0 ∨ (summary ≠ 0 ∧ summary ≠ 0xFF) then spdmError 1 0 s
    else
      match drawBytes 32 s with
      | (n, s1) =>
        let req := natBytes [0x12, 0x83, 0, summary] ++ nonce
        let body := natBytes [0x12, 0x03, 0, 1] ++ sha Sys2Proof.Config.certificateChain ++ n ++
          (if summary = 0xFF then sha (allBlocks s1) else []) ++ toLE 2 0
        spdmReply 3 false req (body ++ (Sys2Proof.Config.spdmSign (s1.host.spdm.transcript ++ req ++ body)).toList) s1) s

/-- GET_MEASUREMENTS: indices 1 to 7, all by 0xFF, their number by 0; signed when the request carries a nonce. -/
def spdmMeasurements (index : Nat) (nonce : Option Bytes) (s : State) : State :=
  spdmAt 3 (fun s =>
    if 7 < index ∧ index ≠ 0xFF then spdmError 1 0 s
    else
      match drawBytes 32 s with
      | (n, s1) =>
        let rec' := if index = 0 then [] else if index = 0xFF then allBlocks s1 else measurementBlock s1 index
        let count := if index = 0 then 0 else if index = 0xFF then 7 else 1
        let req := natBytes [0x12, 0xE0, b2n nonce.isSome, index] ++ (nonce.elim [] (fun b => b ++ [0]))
        let body := natBytes [0x12, 0x60, if index = 0 then 7 else 0, 0, count] ++ toLE 3 rec'.length ++ rec' ++ n ++ toLE 2 0
        let sig := if nonce.isSome then (Sys2Proof.Config.spdmSign (s1.host.spdm.transcript ++ req ++ body)).toList else []
        spdmReply 3 false req (body ++ sig) s1) s

/-- A request by its message. -/
def spdmRequest (m : Bytes) (s : State) : State :=
  let p1 := field m 2 1
  let p2 := field m 3 1
  match field m 1 1 with
  | 0x84 => spdmVersion s
  | 0xE1 => spdmCapabilities (field m 8 4) s
  | 0xE3 => spdmAlgorithms (field m 8 4) (field m 12 4) s
  | 0x81 => spdmDigests s
  | 0x82 => spdmCertificate (p1 % 16) (field m 4 2) (field m 6 2) s
  | 0x83 => spdmChallenge (p1 % 16) p2 (slice m 4 32) s
  | 0xE0 => spdmMeasurements p2 (if bit p1 0 then some (slice m 4 32) else none) s
  | c => spdmError 7 c s

/-! ### Commands -/

/-- GET_VERSION. -/
def execGetVersion (s : State) : Host.Outcome State Fault Refusal := .next (spdmVersion s)

/-- GET_CAPABILITIES. -/
def execGetCapabilities (flags : Nat) (s : State) : Host.Outcome State Fault Refusal := .next (spdmCapabilities flags s)

/-- NEGOTIATE_ALGORITHMS. -/
def execNegotiateAlgorithms (asym hash : Nat) (s : State) : Host.Outcome State Fault Refusal := .next (spdmAlgorithms asym hash s)

/-- GET_DIGESTS. -/
def execGetDigests (s : State) : Host.Outcome State Fault Refusal := .next (spdmDigests s)

/-- GET_CERTIFICATE. -/
def execGetCertificate (slot offset len : Nat) (s : State) : Host.Outcome State Fault Refusal := .next (spdmCertificate slot offset len s)

/-- CHALLENGE. -/
def execChallenge (slot summary : Nat) (nonce : Bytes) (s : State) : Host.Outcome State Fault Refusal := .next (spdmChallenge slot summary nonce s)

/-- GET_MEASUREMENTS. -/
def execGetMeasurements (index : Nat) (nonce : Option Bytes) (s : State) : Host.Outcome State Fault Refusal := .next (spdmMeasurements index nonce s)

/-- SPDM_UNSUPPORTED_REQUEST: ERROR UnsupportedRequest with the request's code. -/
def execSpdmUnsupportedRequest (code : Nat) (s : State) : Host.Outcome State Fault Refusal := .next (spdmError 7 code s)

/-- SECURITY_SEND: a request for the responder, with protocol E8h. -/
def execSecuritySend (c : CmdId) (protocol : Nat) (data : Option Bytes) (s : State) : Host.Outcome State Fault Refusal :=
  .next (fetchAdmin c (fun c s =>
    if protocol ≠ 0xE8 then refuse c (0, 2, none) s
    else
      match data with
      | none => refuse c (0, 4, none) s
      | some m => adminDone c 0 (spdmRequest m s)) s)

/-- SECURITY_RECEIVE: the response, followed by zeros to the length asked for. -/
def execSecurityReceive (c : CmdId) (protocol : Nat) (len : Nat) (s : State) : Host.Outcome State Fault Refusal :=
  .next (fetchAdmin c (fun c s =>
    if protocol ≠ 0xE8 then refuse c (0, 2, none) s
    else
      let m := s.host.spdm.response.getD []
      adminDone c 0 (send (.data c ((m ++ zeroBytes len).take len)) (setSpdm (fun x => { x with response := none }) s))) s)

end Sys2Proof.Machine
end

