-- ==== Sys2Proof/Machine/Supplies.lean ====
section
/-! DEFINITION. Device resets, the boot, supplies, clocks and temperature (R597, R598, R723, R724, R743, R744, R799, R804,
R805, R809 to R820). -/

namespace Sys2Proof.Machine

/-! ### Device reset (R42, R175, R744, R805) -/

/-- A lane after a device reset: it restarts from OFF, and a spindle that still turns is short-braked to rest (R744). -/
def laneRestart (l : Lane) : Lane :=
  { Lane.reset with spin := { Spindle.reset with
      phase := if l.spin.phase = 0 then 0 else 5, mode := if l.spin.phase = 0 then 0 else 2, stopping := decide (l.spin.phase ≠ 0) } }

/-- Firmware state over a device reset: what the boot flash and the fuses hold. -/
def Firmware.restart (f : Firmware) : Firmware :=
  { f with
    act := Activation.idle, running := none, booted := false, loader := [], unitFw := [], laneFw := [], config := [] }

/-- The state of a device in reset. What the flash, the fuses, the always-on island, the supplies and the boundary-scan register hold
stays; all else takes its reset value (R27, R176, R594, R640, R661, R667, R802), the calendar of the RWK entry 2700:01 too. -/
def deviceReset (s : State) : State :=
  { State.reset with
    pending := s.pending, ticks := s.ticks, free := s.free, sent := s.sent
    conf := { ConfigRegion.reset with copyA := s.conf.copyA, copyB := s.conf.copyB }
    life := { Lifetime.reset with pages := s.life.pages }
    lanes := s.lanes.map laneRestart
    pair := { Pair.reset with shift := s.pair.shift, peerHold := s.pair.peerHold }
    fw := s.fw.restart
    island := s.island
    sup := { s.sup with warn := false, trip := false, inReset := true, resetDue := false, vaon := false, bad := List.replicate 7 0 }
    ports := { Ports.reset with jtag := s.ports.jtag, jtagOut := s.ports.jtagOut, preload := s.ports.preload, gpioIn := s.ports.gpioIn } }

/-- The enables are lowered in order from a group on (R819, R820). -/
def lowerFrom (g : Fin 4) (rest : List (Fin 4)) (s : State) : State :=
  { s with sup := { s.sup with en := s.sup.en.set g false, lowering := rest, loweredAt := s.ticks } }

/-- AON_POWER_FAIL (R819). -/
def aonFail (s : State) : State :=
  let s1 := deviceReset (loseHealth s)
  lowerFrom 1 [2, 0, 3] { s1 with sup := { s1.sup with aonPg := false } }

/-- AON_POWER_FAIL. -/
def execAonPowerFail (s : State) : Host.Outcome State Fault Refusal := .next (if s.sup.aonPg then aonFail s else s)

/-- DEVICE_RESET: RESET_N or AON_PG low, or the device reset that a fail-stop, a supply fault or a failed wake left due; a reset
by a port is kept for 2600:05 (R743, R745, R805). -/
def execDeviceReset (aon : Bool) (s : State) : Host.Outcome State Fault Refusal :=
  if aon then .next (if s.sup.aonPg then aonFail s else s)
  else
    let port := !s.sup.resetDue
    let s1 := deviceReset (loseHealth s)
    .next { s1 with island := { s1.island with resetPort := port } }

/-! ### Boot (R598, R723, R724, R744) -/

/-- What a boot finds of a channel (R597, R598): the channel, and the reason of event 3007. -/
def chanSeen : DdrSeen → DdrChannel × Option Nat
  | .absent => (DdrChannel.reset, some 0)
  | .unsupported => ({ DdrChannel.reset with present := true }, some 1)
  | .untrained r d => ({ DdrChannel.reset with present := true, ranks := r, density := d }, some 2)
  | .ready r d => ({ DdrChannel.reset with present := true, ranks := r, density := d, ready := true }, none)

/-- Both channels, populated alike or the second not used. -/
def chansSeen (l : List DdrSeen) : (DdrChannel × Option Nat) × (DdrChannel × Option Nat) :=
  let a := chanSeen (l.getD 0 .absent)
  let b := chanSeen (l.getD 1 .absent)
  if a.1.ready ∧ b.1.ready ∧ (a.1.ranks ≠ b.1.ranks ∨ a.1.density ≠ b.1.density) then (a, ({ b.1 with ready := false }, some 1)) else (a, b)

/-- The CMB sizes take force, or both are 0 where R603 does not hold. -/
def bootCmb (s : State) : State :=
  let a := cfg s 0x2500 4
  let b := cfg s 0x2500 5
  if 2 ^ 25 * (a + b) ≤ bufferSize s.mem then { s with mem := { s.mem with cmb := #v[a, b] } }
  else { s with mem := { s.mem with cmb := #v[0, 0] } }

/-- Memory as trained at the boot (R598). -/
def trainMemory (l : List DdrSeen) (s : State) : State :=
  { s with mem := { s.mem with chan := #v[(chansSeen l).1.1, (chansSeen l).2.1] } }

/-- The CMBs of the memory trained, and an event 3007 for a channel not used (R598). -/
def bootMemory (l : List DdrSeen) (s : State) : State :=
  let tell (i : Nat) (x : DdrChannel × Option Nat) (s : State) : State := x.2.elim s (fun k => raise 0x3007 [.u8 i, .u8 k] s)
  tell 1 (chansSeen l).2 (tell 0 (chansSeen l).1 (bootCmb s))

/-- The image that the ROM boots: the boot slot where it verifies, else the other slot in a state of R724 (R723, R724). -/
def bootPick (s : State) : Option (Fin 2 × Bool) :=
  let r : Fin 2 := Fin.ofNat 2 s.fw.dir.boot
  let o := otherSlot r
  let good (i : Fin 2) : Bool := (verifyOrder true s.fw.slots[i].image s.fw.fusedMin).isNone
  if good r then some (r, false)
  else if (s.fw.slots[o].st = 2 ∨ s.fw.slots[o].st = 3 ∨ s.fw.slots[o].st = 5) ∧ good o then some (o, true)
  else none

/-- The state of the booted slot (R718): a PENDING image is on trial, a VALID one that stands in for a failed one runs. -/
def bootedState (st : Nat) : Nat := if st = 3 ∨ st = 4 then 4 else 5

/-- The slot directory after the ROM's choice; a boot slot that failed has no usable image. -/
def bootSlots (r : Fin 2) (fell : Bool) (s : State) : State :=
  let o := otherSlot r
  let trial := decide (s.fw.slots[r].st = 3)
  let other := if fell then FlashSlot.empty else { s.fw.slots[o] with st := if 4 ≤ s.fw.slots[o].st then 2 else s.fw.slots[o].st }
  let slots := (s.fw.slots.set r { s.fw.slots[r] with st := bootedState s.fw.slots[r].st }).set o other
  let s1 := measureImage s.fw.slots[r].image { s with fw := { s.fw with
    slots := slots, running := some r, trialTick := if trial then s.ticks else s.fw.trialTick
    fallbacks := s.fw.fallbacks + b2n fell } }
  if slots[0].st = s.fw.slots[0].st ∧ slots[1].st = s.fw.slots[1].st ∧ !fell then s1
  else dirUpdate (fun d => { d with boot := r.val, trialTime := if trial then timeNow s else d.trialTime }) s1

/-- 2600:05: power-on, RESET port, fail-stop or resume failed; after a supply fault the cause has no code and is free. -/
def bootCause (s : State) : State :=
  let put (c k : Nat) (a : State) : State := { a with fw := { a.fw with resetCause := c, failCode := k } }
  if s.sup.powerOn then put 0 0 s
  else
    match s.island.cause with
    | some k => put 2 k s
    | none =>
      if s.island.resumeFailed then put 3 0 s
      else if s.island.resetPort then put 1 0 s
      else
        match draw 4 s with
        | (c, s1) => put c 0 s1

/-- Events that the boot owes for what the always-on island kept (R599, R742, R744, R814, R817). -/
def bootEvents (fell : Option Nat) (s : State) : State :=
  let i := s.island
  let s1 := fell.elim s (fun r => raise 0x6003 [.u8 r] s)
  let s2 := i.cause.elim s1 (fun k => raise 0x6007 [.u8 k] s1)
  let s3 := if i.trialFailed then raise 0x6006 [.u8 0] s2 else s2
  let s4 := i.channel.elim s3 (fun c => raise 0x3012 [.u8 c.1, .u8 c.2, .u8 (b2n s.mem.chan[Fin.ofNat 2 c.1].ready)] s3)
  let s5 := i.supply.elim s4 (fun r => raise 0x5104 [.u8 r.1, .u32 r.2] s4)
  i.retried.elim s5 (fun k => raise 0x5105 [.u8 k] s5)

/-- The copy in force is measured (R725 block 7). -/
def measureConfig (s : State) : State :=
  match s.conf.inForce with
  | none => s
  | some (gen, _) =>
    let b := if (copyValid s.conf.copyA).map (fun x => x.1) = some gen then s.conf.copyA else s.conf.copyB
    { s with fw := { s.fw with config := sha b } }

/-- The unit cores start: memory, lifetime region, dictionary, teams and pair (R124, R161, R598, R661, R665, R749, R764). -/
def bootRun (r : Fin 2) (fell : Bool) (ddr : List DdrSeen) (s : State) : State :=
  let s1 := bootCause (bootSlots r fell s)
  let s2 := measureConfig (startDictionary (startLifetime s.sup.powerOn (trainMemory ddr s1)))
  let s3 := allTeams.foldl (fun a t => evaluateTeam t none a)
    (bootEvents (if fell then some (otherSlot r).val else none) (bootMemory ddr (allLanes.foldl (fun a n => startTable n a) s2)))
  { s3 with
    pair := { s3.pair with alive := true, began := s.ticks }
    power := { s3.power with resumeFailed := s.island.resumeFailed }
    island := { s3.island with
      cause := none, channel := none, supply := none, retried := none, resumeFailed := false, resetPort := false, trialFailed := false } }

/-- BOOT_ROM: once the supplies stand and the references are locked (R816 step 6). Where no slot verifies, no core starts. -/
def bootRom (ddr : List DdrSeen) (s : State) : State :=
  if s.fw.booted ∨ s.sup.step < 5 ∨ !s.sup.lowering.isEmpty then s
  else
    let s1 := { s with
      fw := { s.fw with booted := true }
      sup := { s.sup with step := 6, clocks := Vector.replicate 2 true, inReset := false, failures := 0 } }
    let s2 := match bootPick s1 with
      | some (r, fell) => bootRun r fell ddr s1
      | none => s1
    { s2 with sup := { s2.sup with powerOn := false } }

/-- BOOT_ROM. -/
def execBootRom (ddr : List DdrSeen) (s : State) : Host.Outcome State Fault Refusal := .next (bootRom ddr s)

/-! ### Power-up and power-down (R816 to R820) -/

/-- Step of R816 that waits for a group's power-good, with the group whose enable follows. -/
def powerUpWaits : Nat → Option (Fin 4 × Option (Fin 4))
  | 1 => some (3, some 0)
  | 2 => some (0, some 2)
  | 3 => some (2, some 1)
  | 4 => some (1, none)
  | _ => none

/-- The always-on group has come back: what the island held is gone, and its counts begin again (R757, R814, R837). -/
def powerReturns (s : State) : State :=
  if s.sup.aonPg ∨ !s.sup.lowering.isEmpty then s
  else { s with
    cal := Calendar.reset, island := Island.reset, pair := { s.pair with shift := -(s.ticks : Int) }
    sup := { Supply.reset with en := #v[false, false, false, true], stepAt := s.ticks, pg := Vector.replicate 4 false } }

/-- The power-good of a group is seen and the next enable is raised (R816 steps 2 to 5). -/
def powerGoodSeen (group : Nat) (s : State) : State :=
  match powerUpWaits s.sup.step with
  | some (g, nx) =>
    if group = g.val ∧ s.sup.aonPg ∧ s.sup.lowering.isEmpty then
      { s with sup := { s.sup with
          step := s.sup.step + 1, pg := s.sup.pg.set g true
          en := match nx with
            | some h => s.sup.en.set h true
            | none => s.sup.en } }
    else s
  | none => s

/-- POWER_UP_STEP: AON_PG (4) takes the always-on island out of reset, or the power-good of a group is seen. -/
def execPowerUpStep (group : Fin 5) (s : State) : Host.Outcome State Fault Refusal :=
  .next (if group = 4 then powerReturns s else powerGoodSeen group.val s)

/-- Bounds of R816 on the power-goods of steps 2 to 5, ms from the origin. -/
def powerUpBound (step : Nat) : Nat := 16 + 4 * step

/-- First rail of a supply group. -/
def railOf (g : Fin 4) : Nat := g.val

/-- 2210:05 takes a rail and its measured value. -/
def keepRail (rail : Nat) (s : State) : State :=
  { s with island := { s.island with rail := rail, railMv := s.sup.rails.getD rail 0, railTime := timeNow s } }

/-- POWER_UP_TIMEOUT (R817): the enables are lowered; the second failure records the rail. -/
def execPowerUpTimeout (s : State) : Host.Outcome State Fault Refusal :=
  match powerUpWaits s.sup.step with
  | some (g, _) =>
    let k := s.sup.step + 1
    if s.sup.lowering.isEmpty ∧ passed s s.sup.stepAt (msTicks (powerUpBound s.sup.step)) then
      let s1 := { s with sup := { s.sup with
        step := 0, en := Vector.replicate 4 false, pg := Vector.replicate 4 false, stepAt := s.ticks, failures := s.sup.failures + 1, failStep := k } }
      .next (if s.sup.failures = 0 then { s1 with island := { s1.island with retried := some k } } else keepRail (railOf g) s1)
    else .next s
  | none => .next s

/-- POWER_UP_RETRY (R817): after 1 s with the enables low. -/
def execPowerUpRetry (s : State) : Host.Outcome State Fault Refusal :=
  if s.sup.step = 0 ∧ s.sup.failures = 1 ∧ passed s s.sup.stepAt (secTicks 1) then
    .next { s with sup := { s.sup with step := 1, en := #v[false, false, false, true], stepAt := s.ticks } }
  else .next s

/-- POWER_DOWN_STEP (R699, R819, R820): the power-good of the group lowered last falls, or 500 us have passed, and the next
enable is lowered; entry to SLEEP waits for the power-good and ends with the last. -/
def execPowerDownStep (pgFell : Bool) (s : State) : Host.Outcome State Fault Refusal :=
  let sleep := s.power.isolated && decide (s.power.unit = 1)
  let s1 := if pgFell then { s with sup := { s.sup with pg := Vector.ofFn (fun g : Fin 4 => s.sup.pg[g] && s.sup.en[g]) } } else s
  match s.sup.lowering with
  | [] => .next s1
  | g :: rest =>
    if pgFell ∨ (!sleep ∧ passed s s.sup.loweredAt (2400000)) then
      let s2 := lowerFrom g rest s1
      if sleep ∧ rest.isEmpty then .next (sleepReached s2) else .next s2
    else .next s1

/-! ### Supplies, clocks and temperature (R661, R799, R814, R831) -/

/-- Range of a rail, mV * 10 (R809). -/
def railRange : Nat → Nat × Nat
  | 0 => (9200, 9800) | 1 => (9500, 10500) | 2 => (8550, 9450) | 3 => (10670, 11330) | 4 => (8550, 9450) | 5 => (17100, 18900) | _ => (7125, 7875)

/-- The rail must lie in its range: its group is enabled with its power-good high; the always-on group always. -/
def railWatched (s : State) (i : Nat) : Bool :=
  if i < 4 then s.sup.en[Fin.ofNat 4 i] && s.sup.pg[Fin.ofNat 4 i] else s.sup.aonPg

/-- A supply fault (R814): health ends, and the rail and its value are kept. -/
def supplyFault (rail : Nat) (s : State) : State :=
  let s1 := keepRail rail (loseHealth s)
  { s1 with island := { s1.island with supply := some (rail, s1.sup.rails.getD rail 0) } }

/-- SUPPLY_CHECK (R814): one comparison of every rail. -/
def execSupplyCheck (mv : List Nat) (s : State) : Host.Outcome State Fault Refusal :=
  let out (i : Nat) : Bool := railWatched s i && !decide ((railRange i).1 ≤ 10 * mv.getD i 0 ∧ 10 * mv.getD i 0 ≤ (railRange i).2)
  let bad := (upTo 7).map (fun i => if out i then s.sup.bad.getD i 0 + 1 else 0)
  let s1 := { s with sup := { s.sup with rails := (upTo 7).map (fun i => mv.getD i 0), bad := bad } }
  if s.sup.resetDue then .next s1
  else .next (((upTo 7).find? (fun i => decide (2 ≤ bad.getD i 0))).elim s1 (fun i => supplyFault i s1))

/-- PMIC_PG_FALL (R814): a power-good falls while its enable is high. -/
def execPmicPgFall (group : Fin 4) (s : State) : Host.Outcome State Fault Refusal :=
  if s.sup.en[group] ∧ s.sup.pg[group] ∧ !s.sup.resetDue then
    .next (supplyFault (railOf group) { s with sup := { s.sup with pg := s.sup.pg.set group false } })
  else .next s

/-- REFERENCE_CLOCK_LOST (R661): health ends in hardware. -/
def execReferenceClockLost (clk : PortId) (s : State) : Host.Outcome State Fault Refusal :=
  .next { s with
    sup := { s.sup with clocks := s.sup.clocks.set clk false }
    pair := { s.pair with alive := false, hold := false, demand := false } }

/-- COMPOSITE_TEMPERATURE_CHANGE (R542, R543, R799): junction temperatures read, 0.1 degC; THERM_WARN_N above 105 degC. -/
def compositeChange (temps : List Int) (s : State) : State :=
  let t := (upTo 5).map (fun i => temps.getD i 0)
  warningCheck { s with sup := { s.sup with temps := t, warn := t.any (fun x => decide (1050 < x)) } }

/-- COMPOSITE_TEMPERATURE_CHANGE. -/
def execCompositeTemperatureChange (temps : List Int) (s : State) : Host.Outcome State Fault Refusal := .next (compositeChange temps s)

/-- THERMAL_TRIP (R799, R820): a junction above 125 degC; PMIC1_EN and then PMIC0_EN are lowered. -/
def execThermalTrip (die : Fin 5) (temp : Int) (s : State) : Host.Outcome State Fault Refusal :=
  if temp ≤ 1250 ∨ s.sup.trip then .next s
  else
    let s1 := compositeChange (s.sup.temps.set die.val temp) s
    .next (lowerFrom 1 [0] (raise 0x5103 [.u8 die.val, .s32 (temp / 10)] { s1 with sup := { s1.sup with trip := true } }))

end Sys2Proof.Machine
end

