-- ==== Sys2Proof/Machine/Ports.lean ====
section
/-! DEFINITION. Lane links as the drivers report them, the SIDEBAND bus, and the MGMT, PCIe and JTAG ports (20_ports_package.md). -/

namespace Sys2Proof.Machine

/-! ### DRIVE and LASER status (R784 to R786, R793, R794) -/

/-- A link fault with its cause for L+03:02; only DRIVE keeps one. -/
def linkFault (n : LaneId) (laser : Bool) (cause : Nat) (s : State) : State :=
  if mayFault (laneAt s n) then
    detectCode n (if laser then 0x1107 else 0x1106) (if laser then s else setLinks n (fun k => { k with lastCause := cause }) s)
  else s

/-- What a status with a right CRC says of a trained link: FAULTS bits set twice in a row with event 1801, or TRAINED clear. -/
def judgeStatus (n : LaneId) (laser trained : Bool) (old new : Nat) (s : State) : State :=
  if (if laser then (laneAt s n).links.laserTrained else (laneAt s n).links.driveTrained) then
    if old &&& new ≠ 0 then linkFault n laser 3 (raise 0x1801 [.u8 n.val, .u8 (b2n laser), .u8 new] s)
    else if !trained then linkFault n laser 2 s else s
  else s

/-- DRIVE_STATUS. -/
def driveStatus (n : LaneId) (payload : Bytes) (crc : Nat) (s : State) : State :=
  if payload.length ≠ 6 ∨ crc16 payload ≠ crc then lbump n 0xE9 1 0 1 (setLinks n (fun k => { k with driveBad := k.driveBad + 1 }) s)
  else
    let old := (laneAt s n).links.driveStatus
    judgeStatus n false (bit (field payload 0 1) 4) (field old 1 1 % 32) (field payload 1 1 % 32)
      (setLinks n (fun k => { k with driveStatus := payload, driveSeen := s.ticks, driveBad := 0, driveSelected := bit (field payload 0 1) 3 }) s)

/-- DRIVE_STATUS. -/
def execDriveStatus (n : LaneId) (payload : Bytes) (crc : Nat) (s : State) : Host.Outcome State Fault Refusal := .next (driveStatus n payload crc s)

/-- DRIVE_STATUS_TIMEOUT: 16 frame periods without a status. -/
def execDriveStatusTimeout (n : LaneId) (s : State) : Host.Outcome State Fault Refusal :=
  let k := (laneAt s n).links
  if k.driveTrained ∧ passed s k.driveSeen 200000 then .next (linkFault n false 1 s) else .next s

/-- LASER_STATUS. -/
def laserStatus (n : LaneId) (payload : Bytes) (crc : Nat) (s : State) : State :=
  if payload.length ≠ 4 ∨ crc16 payload ≠ crc then lbump n 0xE9 2 0 1 (setLinks n (fun k => { k with laserBad := k.laserBad + 1 }) s)
  else
    let old := (laneAt s n).links.laserStatus
    let b := field payload 0 1
    judgeStatus n true (bit b 0) (field old 1 1 % 16) (field payload 1 1 % 16)
      (setLinks n (fun k => { k with
        laserStatus := payload, laserSeen := s.ticks, laserBad := 0, laserSelected := bit b 1, laserFallen := bit b 2 }) s)

/-- LASER_STATUS. -/
def execLaserStatus (n : LaneId) (payload : Bytes) (crc : Nat) (s : State) : Host.Outcome State Fault Refusal := .next (laserStatus n payload crc s)

/-- LASER_STATUS_TIMEOUT: 32 us without a status. -/
def execLaserStatusTimeout (n : LaneId) (s : State) : Host.Outcome State Fault Refusal :=
  let k := (laneAt s n).links
  if k.laserTrained ∧ passed s k.laserSeen 153600 then .next (linkFault n true 1 s) else .next s

/-! ### SIDEBAND (R797) -/

/-- SIDEBAND_RETRY: a transaction tried, acknowledged or not; the third failure in a row is a lane fault above PARKED, or rejects
a pickup. -/
def sidebandRetry (n : LaneId) (acked : Bool) (s : State) : State :=
  if acked then setLinks n (fun k => { k with sidebandFails := 0 }) s
  else
    let f := (laneAt s n).links.sidebandFails + 1
    let s1 := lbump n 0xE9 4 0 1 (setLinks n (fun k => { k with sidebandFails := f % 3 }) s)
    if f < 3 then s1
    else if abovePark (laneAt s n).life.st then detectCode n 0x110A s1
    else if (laneAt s n).life.arriving then raise 0x1003 [.u8 n.val, .u8 1] (setLife n (fun f => { f with arriving := false }) s1)
    else s1

/-- SIDEBAND_RETRY. -/
def execSidebandRetry (n : LaneId) (acked : Bool) (s : State) : Host.Outcome State Fault Refusal := .next (sidebandRetry n acked s)

/-! ### MGMT, PCIe and JTAG (R532, R800, R803) -/

/-- MDIO_POLL: the link state of the external PHY. -/
def execMdioPoll (port : PortId) (up : Bool) (s : State) : Host.Outcome State Fault Refusal :=
  .next { s with ports := { s.ports with mdioUp := s.ports.mdioUp.set port up } }

/-- PCIE_LINK_TRAINED: the negotiated speed and width (2500:02). -/
def execPcieLinkTrained (port : PortId) (speed width : Nat) (s : State) : Host.Outcome State Fault Refusal :=
  .next (setCtrl port (fun c => { c with speed := speed, width := width }) s)

/-- JTAG_INSTRUCTION: an instruction and the bits shifted in at TDI; the bits at TDO. What stands in the boundary cells is not
given: it is free. Other instructions select BYPASS (IEEE 1149.1). -/
def jtagInstruction (ir : Nat) (tdi : List Bool) (s : State) : State :=
  let n := tdi.length
  let shift (dr : List Bool) : List Bool := (dr ++ tdi).take n
  if ir = 1 then { s with ports := { s.ports with jtag := 1, jtagOut := shift (bitsLE 32 0x159320A3) } }
  else if ir = 2 ∨ ir = 3 then
    match drawBytes n s with
    | (b, s1) => { s1 with ports := { s1.ports with
        jtag := ir, preload := tdi, jtagOut := b.map (fun x => decide (x.toNat % 2 = 1)) } }
  else { s with ports := { s.ports with jtag := 0, jtagOut := shift [false] } }

/-- JTAG_INSTRUCTION. -/
def execJtagInstruction (ir : Nat) (tdi : List Bool) (s : State) : Host.Outcome State Fault Refusal := .next (jtagInstruction ir tdi s)

/-- The link-local address of a MGMT port (R99): fe80::/64 and the modified EUI-64 of its MAC address. -/
def linkLocal (port : PortId) : Bytes :=
  let m := (Sys2Proof.Config.macAddress port).toList
  natBytes [0xFE, 0x80, 0, 0, 0, 0, 0, 0] ++ (m.take 1).map (fun b => b ^^^ 2) ++ slice m 1 2 ++ [0xFF, 0xFE] ++ m.drop 3

/-- The addresses of a MGMT port (R99): link-local, and static where it is set. -/
def ownAddresses (s : State) (port : PortId) : List Bytes :=
  let st := stored s 0x1100 (3 + port.val)
  linkLocal port :: (if st.all (fun b => decide (b = 0)) then [] else [st])

/-- Sum of 16-bit big-endian words, with its carries folded back. -/
def onesSum : Nat → Bytes → Nat → Nat
  | 0, _, acc => acc
  | n + 1, b, acc =>
    let v := acc + 256 * (b.getD 0 0).toNat + (b.getD 1 0).toNat
    onesSum n (b.drop 2) (v % 65536 + v / 65536)

/-- An ICMPv6 message with its checksum over the pseudo-header. -/
def icmpMessage (src dst : Bytes) (ty : Nat) (body : Bytes) : Bytes :=
  let m := natBytes [ty, 0, 0, 0] ++ body
  let pseudo := src ++ dst ++ (toLE 4 m.length).reverse ++ natBytes [0, 0, 0, 58] ++ m
  let c := 65535 - onesSum (pseudo.length / 2 + 1) pseudo 0
  natBytes [ty, 0, c / 256, c % 256] ++ body

/-- The group of the announcements (R130), and that of multicast listener reports. -/
def announceGroup : Bytes := natBytes [0xFF, 0x02, 0, 0, 0, 0, 0, 0, 0, 0, 0, 0, 0, 0, 0x4B, 0x59]

/-- Where version 2 listener reports go. -/
def reportGroup : Bytes := natBytes [0xFF, 0x02, 0, 0, 0, 0, 0, 0, 0, 0, 0, 0, 0, 0, 0, 0x16]

/-- NEIGHBOUR_DISCOVERY: an ICMPv6 message of neighbour discovery or multicast listener discovery from an address (R803). A
solicitation for an own address is answered, a neighbour's link-layer address is learned, a listener query reports the group
of the announcements. -/
def neighbourDiscovery (port : PortId) (addr msg : Bytes) (s : State) : State :=
  if cfg s 0x1100 (1 + port.val) = 0 then s
  else
    let ty := field msg 0 1
    let own := ownAddresses s port
    let target := slice msg 8 16
    let learn (a mac : Bytes) (s : State) : State := { s with ports := { s.ports with
      neighbours := s.ports.neighbours.filter (fun q => decide (q ≠ (port, a ++ mac)) && !(decide (q.1 = port) && decide (q.2.take 16 = a))) ++
        [(port, a ++ mac)] } }
    if ty = 135 then
      if own.contains target then
        send (.neighbour port (icmpMessage target addr 136 (natBytes [0x60, 0, 0, 0] ++ target ++ natBytes [2, 1] ++
          (Sys2Proof.Config.macAddress port).toList))) (if field msg 24 1 = 1 then learn addr (slice msg 26 6) s else s)
      else s
    else if ty = 136 then (if field msg 24 1 = 2 then learn target (slice msg 26 6) s else s)
    else if ty = 130 then
      send (.neighbour port (icmpMessage (own.headD []) reportGroup 143 (natBytes [0, 0, 0, 1, 4, 0, 0, 0] ++ announceGroup))) s
    else s

/-- NEIGHBOUR_DISCOVERY. -/
def execNeighbourDiscovery (port : PortId) (addr msg : Bytes) (s : State) : Host.Outcome State Fault Refusal :=
  .next (neighbourDiscovery port addr msg s)

end Sys2Proof.Machine
end

