-- ==== Sys2Proof/Machine/View.lean ====
section
/-! DEFINITION. What a read of the dictionary gives: the entries whose value is not the stored one (R81 to R86, R91, and the
entry tables of the chapters). -/

namespace Sys2Proof.Machine

/-- Flags as a number, bit 0 first. -/
def flagBits : List Bool → Nat
  | [] => 0
  | b :: bs => b2n b + 2 * flagBits bs

/-- A value cut or filled with zeros to a length. -/
def fitBytes (n : Nat) (b : Bytes) : Bytes := (b ++ zeroBytes n).take n

/-- Numbers as little-endian bytes of one width. -/
def packNat (w : Nat) (l : List Nat) : Bytes := l.flatMap (toLE w)

/-- Signed numbers as little-endian bytes of one width. -/
def packInt (w : Nat) (l : List Int) : Bytes := l.flatMap (toLEInt w)

/-! ### Lanes: identity and state (R175, R806) -/

/-- L+00:04 (R176). -/
def laneStatus (l : Lane) : Nat :=
  flagBits [l.life.pickup.isSome, l.life.disc.stable, l.life.clamp.stable, decide (l.life.leadIn = .identified),
    decide (l.life.leadIn = .blank), decide (l.life.leadIn = .unusable), l.loop.runout.valid, l.warm.baseline, l.flt.latched,
    l.life.homed]

/-- Entries L+00 to L+06. -/
def viewLife (s : State) (n : LaneId) (off sub : Nat) : Option Bytes :=
  let l := laneAt s n
  let img : Bytes := (l.life.pickup.map (fun p => p.image)).getD []
  match off, sub with
  | 0x00, 1 => some (toLE 1 l.life.st.code)
  | 0x00, 2 => some (toLE 1 l.life.prev.code)
  | 0x00, 3 => some (toLE 8 l.life.changed)
  | 0x00, 4 => some (toLE 2 (laneStatus l))
  | 0x02, 1 => some (toLE 2 l.flt.last)
  | 0x02, 2 => some (toLE 1 l.flt.reentry.code)
  | 0x02, 3 => some (toLE 1 (attemptsNow s n).length)
  | 0x03, 1 => some (toLE 1 (flagBits [l.links.driveTrained, l.links.laserTrained, l.links.driveSelected, l.links.laserSelected, l.links.laserFallen]))
  | 0x03, 2 => some (toLE 1 l.links.lastCause)
  | 0x03, 3 => some (fitBytes 6 l.links.driveStatus)
  | 0x03, 4 => some (fitBytes 4 l.links.laserStatus)
  | 0x04, 1 => some ((l.life.pickup.map (fun p => unpad p.serial)).getD [])
  | 0x04, 2 => some (toLE 2 ((l.life.pickup.map (fun p => p.cls)).getD 0))
  | 0x04, 3 => some (fitBytes 256 img)
  | 0x04, 5 => some (toLEInt 2 (tempLimit s n))
  | 0x05, 1 => some (fitBytes 16 l.life.volume)
  | 0x05, 2 => some (toLE 1 l.life.discIndex)
  | 0x05, 3 => some (toLE 1 l.life.discCount)
  | 0x05, 4 => some (toLE 1 ((teamOfLane s n).elim 0xFF (fun t => t.val)))
  | 0x06, 1 => some (toLE 1 (l.life.layer.getD 0xFF))
  | 0x06, 2 => some (toLE 4 (l.life.band.getD 0xFFFFFFFF))
  | _, _ => none

/-! ### Lanes: disc, read channels and writing (R230, R281, R337, R373) -/

/-- Layer that the entries of a lane's current layer name. -/
def currentLayer (l : Lane) : Nat := l.life.layer.getD 0

/-- L+20:06: outer-reserve slots left, least over the tracks of the current layer (R209). -/
def outerLeft (l : Lane) (d : Disc) : Nat :=
  (upTo 4).foldl (fun a k => min a (1323 - (d.skips[trackPos (currentLayer l) k]).length)) 1323

/-- L+43:02: relocation slots left on the current layer, per track (R210). -/
def relocLeft (l : Lane) (d : Disc) (k : Nat) : Nat :=
  let layer := currentLayer l
  let all := sumNat ((upTo 37500).map (fun b => if bandKind b = 2 then relocSlots b else 0))
  all - (d.relocUsed.filter (fun p => decide (p / 2 ^ 27 % 8 = layer ∧ p % 4 = k))).length

/-- An entry of the read defect list (R367). -/
def defectBytes (d : Defect) : Bytes := toLE 4 d.psa ++ toLE 8 d.time ++ toLE 2 (min d.hits 65535) ++ toLE 1 d.outcome ++ toLE 1 0

/-- Entries L+20 to L+32 of a lane. -/
def viewRead (s : State) (n : LaneId) (off sub : Nat) : Option Bytes :=
  let l := laneAt s n
  let d := l.disc
  match off, sub with
  | 0x20, 1 => some (fitBytes 128 ((d.map (fun d => d.media)).getD []))
  | 0x20, 2 => some (fitBytes 48 ((d.map (fun d => d.volumeRec)).getD []))
  | 0x20, 3 => some (toLE 4 ((d.map (fun d => if d.scanDue then d.seenEpoch else d.openEpoch)).getD 0))
  | 0x20, 4 => some (toLE 2 ((d.map (fun d => d.usedPrimary)).getD 0))
  | 0x20, 5 => some (fitBytes 128 ((d.map (fun d => words32 d.nextSlot)).getD []))
  | 0x20, 6 => some (toLE 2 ((d.map (fun d => outerLeft l d)).getD 1323))
  | 0x20, 7 => some (toLE 4 ((d.map (fun d => d.relocs.length)).getD 0))
  | 0x22, 4 => some (packInt 2 (allChans.map (fun c => 25 * gainCode l c - 600)))
  | 0x23, 6 => some (packInt 2 (perChan l (fun x => x.residual)))
  | 0x23, 7 => some (toLE 1 (flagBits (perChan l (fun x => x.locked))))
  | 0x24, 12 => some (toLE 1 l.rd.adapted)
  | 0x25, 5 => some (packNat 2 (noiseWeights l (decide (lcfg s n 0x25 4 = 1))))
  | 0x26, 6 => some (toLEInt 2 (readOffset l.rd))
  | 0x29, 1 => some (packInt 2 (perChan l (fun x => x.snr)))
  | 0x29, 2 => some (toLEInt 2 l.rd.balance)
  | 0x29, 3 => some (toLE 1 (channelMode l + 128 * b2n (decide (lcfg s n 0x2A 4 ≠ 0))))
  | 0x29, 4 => some (packNat 1 (perChan l (fun x => x.sync)))
  | 0x2A, 2 => some (toLE 1 l.rd.capStatus)
  | 0x2A, 3 => some l.rd.capData
  | 0x31, 4 => some (toLE 2 (l.wr.queue.filter (fun c => c.refresh)).length)
  | 0x32, 1 => some (fitBytes 65536 (l.rd.defects.flatMap defectBytes))
  | 0x32, 2 => some (toLE 2 l.rd.defects.length)
  | _, _ => none

/-- Entries L+40 to L+43 of a lane. -/
def viewWrite (s : State) (n : LaneId) (off sub : Nat) : Option Bytes :=
  let l := laneAt s n
  match off, sub with
  | 0x40, 7 => some (toLE 1 (b2n l.wr.suspended))
  | 0x41, 1 => some (toLE 1 (b2n l.wr.clockLocked))
  | 0x41, 2 => some (toLEInt 2 l.wr.rms)
  | 0x41, 5 => some (toLEInt 2 l.wr.offset)
  | 0x42, 1 => some (fitBytes 36 l.wr.tables[0])
  | 0x42, 2 => some (fitBytes 36 l.wr.tables[1])
  | 0x42, 3 => some (fitBytes 36 l.wr.tables[2])
  | 0x42, 4 => some (fitBytes 36 l.wr.tables[3])
  | 0x43, 1 => some (packNat 1 (allTracks.map (fun k => min 255 (l.wr.queue.filter (fun c => decide (c.track = k))).length)))
  | 0x43, 2 => some (packNat 2 (allTracks.map (fun k => (l.disc.map (fun d => relocLeft l d k.val)).getD 0)))
  | 0x43, 4 => some (toLE 2 ((l.disc.map (fun d => d.sessionRelocs.length)).getD 0))
  | _, _ => none

/-! ### Lanes: loops, spindle, pacer and sled (R417 to R419, R456, R457, R499, R500) -/

/-- L+60:01 (R419). -/
def loopStatus (p : Loop) : Nat :=
  flagBits [p.closed[0], p.closed[1], p.closed[2], p.runout.learning, p.runout.valid, p.banks.obsPending, p.banks.bqPending,
    p.overrun.checkDue || p.overrun.reloadObs || p.overrun.reloadBq, p.overrun.stopped]

/-- L+63:02 (R397): four codes to the byte. -/
def traceBytes (t : List Nat) : Bytes :=
  (upTo 256).map (fun b => byte (sumNat ((upTo 4).map (fun k => (t.getD (4 * b + k) 0) * 4 ^ k))))

/-- Entries L+60 to L+63 of a lane. -/
def viewLoop (s : State) (n : LaneId) (off sub : Nat) : Option Bytes :=
  let p := (laneAt s n).loop
  match off, sub with
  | 0x60, 1 => some (toLE 2 (loopStatus p))
  | 0x60, 2 => some (packInt 4 ((upTo 12).map (fun i => p.x.getD i 0)))
  | 0x60, 3 => some (packInt 2 ((upTo 3).map (fun a => actuatorWord (p.released.getD a 0))))
  | 0x60, 4 => some (packInt 4 (p.cascades.toList.map (fun c => c.out)))
  | 0x62, 1 => some (packInt 4 (p.runout.table.toList.flatMap (fun t => (upTo 1024).map (fun i => t.getD i 0))))
  | 0x62, 4 => some (toLE 4 p.runout.total)
  | 0x62, 5 => some (toLE 2 p.runout.idx)
  | 0x63, 1 => some (toLE 1 p.winner)
  | 0x63, 2 => some (traceBytes p.trace)
  | 0x63, 4 => some (toLE 2 p.tracePos)
  | _, _ => none

/-- L+80:01 (R457). -/
def spindleStatus (l : Lane) : Nat :=
  l.spin.phase + 8 * flagBits [l.spin.atSpeed, l.spin.limited, decide (l.loop.winner = 1), decide (l.loop.winner = 2),
    decide (l.loop.winner = 3), l.spin.writeRamp]

/-- L+A0:01 (R500). -/
def sledStatus (l : Lane) : Nat :=
  let d := l.sled
  d.mode + 4 * flagBits [d.running, d.geared, d.centering, d.hold, l.life.homing, d.atLimit, d.pendingTable.isSome, d.fallback]

/-- Table in force with its check word (R488, R491). -/
def tableInForce (d : Sled) : Bytes :=
  let t := if d.table.isEmpty then defaultTable else d.table
  t ++ toLE 4 (crc32 t)

/-- Entries L+80 to L+A6 of a lane. -/
def viewMotion (s : State) (n : LaneId) (off sub : Nat) : Option Bytes :=
  let l := laneAt s n
  let d := l.sled
  match off, sub with
  | 0x80, 1 => some (toLE 2 (spindleStatus l))
  | 0x80, 2 => some (toLEInt 4 (speedCenti l.spin))
  | 0x80, 3 => some (toLEInt 4 (speedSetpoint s n / 24000))
  | 0x80, 4 => some (toLE 2 (masterAngle l.spin))
  | 0x80, 5 => some (toLE 1 l.spin.step)
  | 0x80, 6 => some (packInt 2 [l.spin.ia, l.spin.ib, l.spin.ic])
  | 0x80, 7 => some (toLEInt 2 (if longRest s n then l.life.temp else l.spin.temp / 2 ^ 20))
  | 0x85, 6 => some (toLEInt 4 l.spin.limitSpeed)
  | 0x88, 8 => some (toLE 2 l.pace.unitCeiling)
  | 0x88, 9 => some (toLE 2 l.pace.ceiling)
  | 0x88, 10 => some (toLE 2 (velocity l))
  | 0x88, 11 => some (toLE 1 l.pace.term)
  | 0x88, 12 => some (toLE 4 (l.pace.demand / 65536 / 1000))
  | 0x88, 13 => some (toLE 8 (laneBacklog s n))
  | 0xA0, 1 => some (toLE 2 (sledStatus l))
  | 0xA0, 2 => some (toLEInt 8 d.s)
  | 0xA0, 3 => some (toLEInt 4 (d.v * 10 / 2 ^ 25))
  | 0xA0, 4 => some (toLEInt 4 d.g)
  | 0xA0, 5 => some (toLE 2 d.k)
  | 0xA0, 6 => some (toLEInt 4 d.shift)
  | 0xA2, 1 => some (fitBytes 128 (d.queue.flatMap strideBytes))
  | 0xA2, 4 => some (strideBytes d.last)
  | 0xA4, 1 => some (tableInForce d)
  | 0xA6, 3 => some (toLEInt 4 d.ratioN ++ toLE 4 d.ratioD)
  | 0xA6, 4 => some (fitBytes 48 (d.armed.flatMap (fun a => toLE 4 a.1 ++ toLEInt 4 a.2.1 ++ toLE 4 a.2.2)))
  | 0xA6, 5 => some (toLE 4 d.master)
  | _, _ => none

/-! ### Lanes: warm-up and records (R526, R528 to R530, R753 to R755) -/

/-- L+C0:02 (R528). -/
def warmStatus (s : State) (n : LaneId) : Nat :=
  let w := (laneAt s n).warm
  b2n w.running + 2 * (if w.running then w.part else 0) + 16 * flagBits [w.opcWaiting, warmDue s n, w.autoStopped, w.detectorPending]

/-- Entries L+C0 to L+C4 of a lane, with the values accepted or written of R503. -/
def viewWarm (s : State) (n : LaneId) (off sub : Nat) : Option Bytes :=
  let l := laneAt s n
  let w := l.warm
  let t (i k : Nat) : List Int := (w.trims.drop i).take k
  match off, sub with
  | 0xC0, 2 => some (toLE 2 (warmStatus s n))
  | 0xC0, 9 => some (toLEInt 2 l.life.temp)
  | 0xC0, 10 => some (toLEInt 2 w.refTemp)
  | 0xC0, 11 => some (toLE 8 w.accepted)
  | 0xC0, 12 => some (packNat 1 w.results)
  | 0xC1, 1 => some (trimSetBytes w)
  | 0xC1, 2 => some (packInt 2 w.factory)
  | 0xC1, 3 => some (packInt 2 (t 16 8))
  | 0xC2, 1 => some (packInt 2 (t 24 1))
  | 0xC2, 2 => some (packInt 2 (t 25 1))
  | 0xC2, 3 => some (packInt 2 (t 26 1))
  | 0xC3, 1 => some (packInt 2 (t 27 1))
  | 0xC4, 1 => some (packInt 2 (t 28 4))
  | 0x22, 1 => some (packInt 1 (t 0 8))
  | 0x22, 2 => some (packInt 1 (t 8 8))
  | _, _ => none

/-- Entries L+E8 of a lane (R755). -/
def viewPickup (s : State) (n : LaneId) (off sub : Nat) : Option Bytes :=
  let l := laneAt s n
  let img : Bytes := (l.life.pickup.map (fun p => p.image)).getD []
  match off, sub with
  | 0xE8, 1 => some (packNat 4 ((upTo 5).map (fun k => addCount (areaCount img (132 + 4 * k)) (l.plife.onRem.getD k 0 / lifeUnits.1))))
  | 0xE8, 2 => some (packNat 4 ((upTo 4).map (fun k => addCount (areaCount img (152 + 4 * k)) (l.plife.energyRem.getD k 0 / lifeUnits.2))))
  | 0xE8, 3 => some (packNat 8 s.life.lanes[n].toList)
  | 0xE8, 4 => some (toLEInt 2 (if field img 128 2 = 0 then l.plife.highest else max (fromLEInt (slice img 176 2)) l.plife.highest))
  | 0xE8, 5 => some (packNat 8 ((l.disc.map (fun d => [d.created, d.firstSession, d.lastSession])).getD [0, 0, 0]))
  | _, _ => none

/-- A lane's live entries. -/
def viewLane (s : State) (n : LaneId) (off sub : Nat) : Option Bytes :=
  if off < 0x20 then viewLife s n off sub
  else if off = 0x22 ∧ sub ≤ 2 then viewWarm s n off sub
  else if off < 0x40 then viewRead s n off sub
  else if off < 0x60 then viewWrite s n off sub
  else if off < 0x80 then viewLoop s n off sub
  else if off < 0xC0 then viewMotion s n off sub
  else if off < 0xE0 then viewWarm s n off sub
  else viewPickup s n off sub

/-! ### Teams (R177, R280, R374, R562, R595) -/

/-- Zones of a namespace that satisfy a test. -/
def zonesOf (ns : Namespace) (p : Zone → Bool) : Nat := (ns.zones.filter (fun z => p z.2)).length

/-- A zone takes no more writes. -/
def Zone.spent (z : Zone) : Bool := decide (z.st = .full ∨ z.st = .readOnly)

/-- T+18:08: the lowest zone not Full or Read Only, or Z. -/
def lowestZone (ns : Namespace) : Nat :=
  let z := zoneCount ns.count
  (((upTo z).find? (fun k => !(zoneAt ns k).spent)).getD z)

/-- An entry of the unrecoverable LBA list (R374). -/
def badRunBytes (b : BadRun) : Bytes := toLE 8 b.first ++ toLE 8 b.time ++ toLE 2 b.count ++ toLE 1 b.lane ++ toLE 1 (min b.hits 255) ++ toLE 4 0

/-- A team's live entries. -/
def viewTeam (s : State) (t : TeamId) (off sub : Nat) : Option Bytes :=
  let x := teamAt s t
  let ns := x.ns
  let live (b : Bytes) : Bytes := if ns.listed then b else fitBytes b.length []
  match off, sub with
  | 0x00, 2 => some (toLE 1 x.st.code)
  | 0x00, 3 => some (fitBytes 16 x.volume)
  | 0x00, 4 => some (packNat 1 x.map)
  | 0x18, 1 => some (toLE 4 (if ns.listed then t.val + 1 else 0))
  | 0x18, 2 => some (live (toLE 4 (zoneCount ns.count)))
  | 0x18, 5 => some (toLE 1 (if ns.listed && anaOptimized s t then 1 else 3))
  | 0x18, 6 => some (live (packNat 2 [zonesOf ns Zone.isOpen, zonesOf ns Zone.isActive]))
  | 0x18, 7 => some (live (packNat 4 [zonesOf ns (fun z => decide (z.st = .full)), zonesOf ns (fun z => z.byCtrl),
      zonesOf ns (fun z => decide (z.st = .readOnly))]))
  | 0x18, 8 => some (live (toLE 4 (lowestZone ns)))
  | 0x1C, 2 => some (toLE 2 (s.host.flights.filter (fun f => decide (f.nsid = t.val + 1) && !f.waits.isEmpty)).length)
  | 0x40, 2 => some (toLE 1 (4 * (membersOf s t).length))
  | 0x42, 1 => some (packNat 4 ((upTo 128).map (fun k => (mapGet ns.lastVerified k).getD 0xFFFFFFFF)))
  | 0x64, 1 => some (fitBytes 6144 (x.bad.flatMap badRunBytes))
  | 0x64, 2 => some (toLE 2 x.bad.length)
  | _, _ => none

end Sys2Proof.Machine
end

