-- ==== Sys2Proof/Machine/ViewUnit.lean ====
section
/-! DEFINITION. What a read of the unit's entries gives, and the value of any entry (R81 to R91). -/

namespace Sys2Proof.Machine

/-! ### Identity, communication and the log (R137, R745, R765, R767) -/

/-- 1120:0n, the state of a session. -/
def sessionBytes (x : Option Session) : Bytes :=
  match x with
  | none => zeroBytes 24
  | some q => toLE 4 q.number ++ toLE 1 q.role ++ toLE 1 q.port.val ++ toLE 2 0 ++ fitBytes 16 q.addr

/-- A log entry of 32 bytes (R762). -/
def logEntryBytes (e : LogEntry) : Bytes :=
  toLE 4 e.seq ++ toLE 2 e.code ++ toLE 1 e.source ++ toLE 1 e.flags ++ toLE 8 e.time ++ e.data

/-- The entry is of sequence at or after a cursor, sequences compared by signed 32-bit difference. -/
def atOrAfter (seq cursor : Nat) : Bool := decide ((seq + 2 ^ 32 - cursor % 2 ^ 32) % 2 ^ 32 < 2 ^ 31)

/-- 1202:0n, the log window at a cursor (R765). -/
def logWindow (l : Log) (cursor : Nat) : Bytes :=
  let hit := (l.entries.reverse.filter (fun e => atOrAfter e.seq cursor)).take 32
  match hit with
  | [] => toLE 4 l.nextSeq ++ toLE 4 0
  | e :: _ => toLE 4 e.seq ++ toLE 4 hit.length ++ hit.flatMap logEntryBytes

/-- Entries 1000 to 12FF. -/
def viewIdentity (s : State) (index sub : Nat) : Option Bytes :=
  if index = 0x1120 then some (sessionBytes (s.dict.sessions[Fin.ofNat 8 (sub - 1)]))
  else if index = 0x1202 then some (logWindow s.log (cfg s 0x1201 sub))
  else if index = 0x1010 ∧ 1 ≤ sub ∧ sub ≤ 7 then some (measurement s sub).2
  else
    match index, sub with
    | 0x1000, 2 => some Sys2Proof.Config.serialNumber.toList
    | 0x1000, 4 => some Sys2Proof.Config.dieRevisions.toList
    | 0x1100, 6 => some (Sys2Proof.Config.macAddress 0).toList
    | 0x1100, 7 => some (Sys2Proof.Config.macAddress 1).toList
    | 0x1200, 1 => some (toLE 4 ((s.log.entries.getLast?.map (fun e => e.seq)).getD s.log.nextSeq))
    | 0x1200, 2 => some (toLE 4 s.log.nextSeq)
    | 0x1200, 3 => some (toLE 8 s.log.overwritten)
    | _, _ => none

/-! ### Configuration, ports and supplies (R129, R137, R807, R821) -/

/-- 2000:03: the check word of the copy in force (R128). -/
def savedWord (s : State) : Nat := (s.conf.inForce.map (fun c => c.2)).getD 0

/-- 2000:05 (R129). -/
def configStatus (s : State) : Nat :=
  flagBits [s.conf.defaultsUsed, s.conf.dropped, s.conf.aBad, s.conf.bBad, s.conf.save.isSome,
    s.conf.inForce.isNone || decide (liveCheck s ≠ savedWord s)]

/-- Entries 2000 to 20FF. -/
def viewConfig (s : State) (index sub : Nat) : Option Bytes :=
  match index, sub with
  | 0x2000, 1 => some (toLE 4 (liveCheck s))
  | 0x2000, 3 => some (toLE 4 (savedWord s))
  | 0x2000, 5 => some (toLE 2 (configStatus s))
  | 0x2000, 6 => some (toLE 4 ((s.conf.inForce.map (fun c => c.1)).getD 0))
  | 0x2000, 7 => some (toLE 4 ((s.conf.inForce.map (fun c => c.1)).getD 0))
  | 0x2010, 1 => some (toLE 1 (b2n Sys2Proof.Config.side + 2 * Sys2Proof.Config.boardIdentity.val))
  | 0x2010, 4 => some (toLE 1 s.ports.gpioIn)
  | 0x2010, 7 => some (toLE 1 (flagBits [s.sup.warn, s.sup.trip]))
  | _, _ => none

/-! ### Pair (R689, R690) -/

/-- 2100:02 (R689). -/
def pairStatus (s : State) : Nat :=
  flagBits [s.pair.peerAlive, s.pair.links[0], s.pair.links[1], s.pair.hold, s.pair.peerHold, s.work.armed, s.work.mismatch,
    s.work.slewing, s.work.drill.isSome, carriedQueues s, decide (s.work.view ≠ 0)]

/-- 2100:08: age of the latest complete cut, ns. -/
def mirrorLag (s : State) : Nat :=
  if s.pair.role = 2 ∧ s.work.full then tickNs (s.ticks - s.work.lastBeat)
  else if s.pair.role = 1 ∧ s.work.full then tickNs (s.ticks - s.work.lastCut) else 0

/-- 2101:03: TIME of the next scheduled drill; 0 where there is no schedule (R687). -/
def nextDrill (s : State) : Nat :=
  let iv := cfg s 0x2101 1
  if iv = 0 ∨ s.pair.role ≠ 1 then 0
  else timeNow s + tickNs (max (s.work.drillFrom + secTicks iv) s.work.deferred - s.ticks)

/-- Entries 2100 to 21FF. The stream rate is measured: its value is not in the spec. -/
def viewPair (s : State) (index sub : Nat) : Option Bytes :=
  match index, sub with
  | 0x2100, 1 => some (toLE 1 s.pair.role)
  | 0x2100, 2 => some (toLE 2 (pairStatus s))
  | 0x2100, 3 => some (toLE 4 s.pair.epoch)
  | 0x2100, 4 => some (toLE 1 (b2n Sys2Proof.Config.side))
  | 0x2100, 5 => some (unpad s.pair.peerSerial)
  | 0x2100, 7 => some (toLE 1 s.pair.reason)
  | 0x2100, 8 => some (toLE 2 (min 65535 (mirrorLag s)))
  | 0x2100, 9 => some (toLE 4 (if s.work.full then Sys2Proof.Config.measured 0x210009 s.ticks else 0))
  | 0x2100, 11 => some (toLE 4 s.work.view)
  | 0x2101, 3 => some (toLE 8 (nextDrill s))
  | 0x2101, 4 => some (fitBytes 16 s.work.lastDrill)
  | 0x2102, 2 => some (fitBytes 24 s.work.lastTakeover)
  | _, _ => none

/-! ### Power, supplies and segments (R457 to R460, R713, R714, R821) -/

/-- 2200:02 (R713). -/
def powerStatus (s : State) : Nat :=
  s.power.unit + 4 * flagBits [s.power.running.isSome, !s.power.waiting.isEmpty, decide (s.power.ps = 1), s.power.wokeFromSleep,
    s.power.resumeFailed]

/-- 2240+s:07. -/
def segmentStatus (g : Segment) : Nat := flagBits [g.chop, g.failed, g.overvoltage]

/-- Entries 2200 to 22FF. -/
def viewPower (s : State) (index sub : Nat) : Option Bytes :=
  let seg : Segment := s.segs[Fin.ofNat 4 (index - 0x2240)]
  if 0x2240 ≤ index ∧ index < 0x2244 then
    (if sub = 7 then some (toLE 1 (segmentStatus seg)) else if sub = 9 then some (toLE 2 seg.mv) else none)
  else
    match index, sub with
    | 0x2200, 1 => some (toLE 1 s.power.unit)
    | 0x2200, 2 => some (toLE 2 (powerStatus s))
    | 0x2200, 3 => some (toLE 1 s.power.ps)
    | 0x2200, 7 => some (packNat 4 s.power.wakeTimes)
    | 0x2200, 8 => some (toLE 4 s.power.saveBytes)
    | 0x2210, 1 => some (toLE 2 s.coreMv)
    | 0x2210, 3 => some (packNat 2 s.sup.rails)
    | 0x2210, 4 => some (packInt 2 s.sup.temps)
    | 0x2210, 5 => some (toLE 1 s.island.rail ++ toLE 1 0 ++ toLE 2 s.island.railMv ++ toLE 8 s.island.railTime)
    | _, _ => none

/-! ### Buffer memory and cache (R627, R628, R656, R657) -/

/-- 2300:05 (R627). -/
def memoryStatus (s : State) : Nat :=
  let lap := decide (cfg s 0x2310 1 = 0) && decide (s.power.unit = 0) && s.mem.fillDone
  flagBits [s.mem.chan[0].ready, s.mem.chan[1].ready, s.mem.fillDone, lap, s.mem.pass.isSome, !s.mem.degraded.isEmpty,
    decide ((channelsUsed s.mem).length = 1)]

/-- Geometry of a channel (2300:02): 20 devices per rank and subchannel pair. -/
def geometryBytes (c : DdrChannel) : Bytes :=
  if c.present then toLE 1 (20 * c.ranks) ++ toLE 1 c.ranks ++ toLE 1 c.density ++ toLE 1 0 else toLE 4 0

/-- A region of 2301:01. -/
def regionBytes (m : Memory) (k : Nat) : Bytes := toLE 1 k ++ zeroBytes 7 ++ toLE 8 (regionOf m k).1 ++ toLE 8 (regionOf m k).2

/-- A summary, zeros before the first. -/
def summaryOf (x : Option Summary) : Bytes := (x.map summaryBytes).getD (zeroBytes 128)

/-- Entries 2300 to 24FF. -/
def viewMemory (s : State) (index sub : Nat) : Option Bytes :=
  let c := s.cache
  match index, sub with
  | 0x2300, 1 => some (toLE 8 (bufferSize s.mem))
  | 0x2300, 2 => some (geometryBytes s.mem.chan[0] ++ geometryBytes s.mem.chan[1])
  | 0x2300, 5 => some (toLE 2 (memoryStatus s))
  | 0x2301, 1 => some ((upTo 5).flatMap (regionBytes s.mem))
  | 0x2310, 3 => some (toLE 8 s.mem.lapPos)
  | 0x2310, 4 => some (toLE 4 s.mem.laps)
  | 0x2310, 6 => some (summaryOf s.mem.lastLap)
  | 0x2311, 4 => some (toLE 1 s.mem.passStatus)
  | 0x2311, 5 => some (summaryOf s.mem.lastPass)
  | 0x2320, 4 => some (packNat 4 ((upTo 80).map (fun i => (mapGet s.mem.corrections i).getD 0)))
  | 0x2400, 1 => some (toLE 2 (flagBits [c.serving, decide (c.maint.state = 1), c.change.isSome, wbFull c]))
  | 0x2401, 2 => some (packNat 1 c.modes)
  | 0x2401, 3 => some (toLE 4 (2 ^ 21 * countMode c.modes 2))
  | 0x2410, 2 => some (toLE 1 c.maint.state ++ toLE 1 c.maint.op ++ zeroBytes 6 ++
      packNat 8 [c.maint.reached, c.maint.written, c.maint.invalidated])
  | 0x2420, 2 => some (packNat 4 ((upTo 16).map (tagWord c (cfg s 0x2420 1))))
  | _, _ => none

/-! ### Host interface (R561, R594) -/

/-- Commands in flight that satisfy a test. -/
def flightCount (s : State) (p : Flight → Bool) : Nat := (s.host.flights.filter p).length

/-- A command in flight is an admin command. -/
def Flight.isAdmin (f : Flight) : Bool :=
  match f.kind with
  | .admin _ _ => true
  | _ => false

/-- Link status of a port (2500:02). -/
def linkByte (c : Controller) : Nat := c.speed + 16 * c.width

/-- Entries 2500 to 25FF. -/
def viewHost (s : State) (index sub : Nat) : Option Bytes :=
  let a := s.host.ctrls[0]
  let b := s.host.ctrls[1]
  match index, sub with
  | 0x2500, 1 => some Sys2Proof.Config.pciIdentity.toList
  | 0x2500, 2 => some (packNat 1 [linkByte a, linkByte b])
  | 0x2500, 6 => some (packNat 1 [a.sqs.length, b.sqs.length])
  | 0x2500, 7 => some (packNat 2 [openZones s, activeZones s])
  | 0x2510, 1 => some (toLE 1 (b2n (decide (s.host.causes ≠ 0))))
  | 0x2510, 2 => some (toLE 1 s.host.causes)
  | 0x2510, 5 => some (packNat 2 [flightCount s Flight.isAdmin, flightCount s (fun f => !f.isAdmin)])
  | 0x2510, 6 => some (toLE 2 (flightCount s Flight.locks))
  | 0x2510, 7 => some (toLE 2 (flightCount s (stalled s)))
  | 0x2510, 8 => some (toLE 8 s.host.seq)
  | _, _ => none

/-! ### Firmware, records and loop engine (R417, R745, R767) -/

/-- A directory copy (R717). -/
def directoryBytes (f : Firmware) : Bytes :=
  let slot (x : FlashSlot) : Bytes := toLE 1 x.st ++ toLE 4 x.version ++ toLE 4 x.security ++ toLE 4 x.length
  let b := toLE 4 0x52444959 ++ toLE 4 (max f.dir.genA f.dir.genB) ++ toLE 1 f.dir.boot ++ slot f.slots[0] ++ slot f.slots[1] ++
    toLE 8 f.dir.trialTime
  b ++ toLE 4 (crc32 b)

/-- 2610:03. -/
def downloadBytes (d : Download) : Bytes :=
  toLE 1 d.state ++ toLE 1 (b2n d.nvme) ++ toLE 1 d.slot ++ toLE 1 0 ++ toLE 2 (if d.state = 0 then 0 else chunkCount d.header) ++
    toLE 2 d.chunks.length ++ toLE 2 d.status ++ zeroBytes 6 ++
    (upTo 256).map (fun i => byte (flagBits ((upTo 8).map (fun k => d.chunks.contains (8 * i + k)))))

/-- 2600:08: what is left of the trial period (R741). -/
def trialLeft (s : State) : Nat :=
  match s.fw.running with
  | some r => if s.fw.slots[r].st = 4 then cfg s 0x2600 6 - (s.ticks - s.fw.trialTick) / secTicks 1 else 0
  | none => 0

/-- 2700:03. -/
def calendarStatus (c : Calendar) : Nat := flagBits [c.unset, c.ppsPresent, c.ppsMissing, c.ppsMismatch, c.learned]

/-- Entries 2600 to 27FF. -/
def viewFirmware (s : State) (index sub : Nat) : Option Bytes :=
  let f := s.fw
  match index, sub with
  | 0x2600, 1 => some (toLE 1 ((f.running.map (fun r => r.val)).getD 0))
  | 0x2600, 2 => some (fitBytes 64 (directoryBytes f))
  | 0x2600, 3 => some (packNat 1 [f.slots[0].st, f.slots[1].st])
  | 0x2600, 4 => some (toLE 1 f.dir.boot)
  | 0x2600, 5 => some (packNat 1 [f.resetCause, f.failCode])
  | 0x2600, 8 => some (toLE 4 (trialLeft s))
  | 0x2610, 3 => some (downloadBytes f.load)
  | 0x2620, 2 => some (toLE 1 f.act.state ++ toLE 1 f.act.step ++ toLE 2 0 ++ toLE 4 f.act.pause)
  | 0x2630, 1 => some (packNat 8 [f.activations, f.fallbacks, s.life.unit[7]])
  | 0x2700, 1 => some (toLE 8 (timeNow s))
  | 0x2700, 3 => some (toLE 1 (calendarStatus s.cal))
  | 0x2701, 1 => some (toLEInt 4 s.cal.rate)
  | 0x2701, 2 => some (toLE 8 s.cal.lastSet ++ toLEInt 8 s.cal.lastStep)
  | 0x2710, 1 => some (packNat 8 (powerOnSeconds s :: s.life.unit.toList.drop 1))
  | 0x2710, 2 => some (toLE 4 (powerOnSeconds s / 3600))
  | 0x2710, 4 => some (toLE 4 s.life.generation)
  | _, _ => none

/-- Entries 6000 to 60FF. -/
def viewEngine (s : State) (index sub : Nat) : Option Bytes :=
  let mask (p : Lane → Bool) : Nat := flagBits (s.lanes.toList.map p)
  let l : Lane := laneAt s (laneOf (index % 32 + 16))
  match index, sub with
  | 0x6000, 1 => some (toLE 1 (if levelsRun s then 0xFF else 0))
  | 0x6001, 3 => some (toLE 4 (mask (fun l => l.loop.banks.obsPending)))
  | 0x6001, 4 => some (toLE 4 (mask (fun l => l.loop.banks.bqPending)))
  | _, _ =>
    if 0x6010 ≤ index ∧ index < 0x6030 then
      let b := l.loop.banks
      some (fitBytes 2048 (if sub = 1 then b.obsShadow else if sub = 2 then b.obsActive else b.obsRef))
    else if 0x6030 ≤ index ∧ index < 0x6050 then
      let b := l.loop.banks
      some (fitBytes 2048 (if sub = 1 then b.bqShadow else if sub = 2 then b.bqActive else b.bqRef))
    else none

/-! ### The value of an entry -/

/-- The live value of an entry that is not simply stored. -/
def liveValue (s : State) (index sub : Nat) : Option Bytes :=
  if 0x4000 ≤ index ∧ index < 0x6000 then viewLane s (laneOf ((index - 0x4000) / 256)) (index % 256) sub
  else if 0x3000 ≤ index ∧ index < 0x4000 then viewTeam s (Fin.ofNat 32 ((index - 0x3000) / 128)) (index % 128) sub
  else if index < 0x2000 then viewIdentity s index sub
  else if index < 0x2100 then viewConfig s index sub
  else if index < 0x2200 then viewPair s index sub
  else if index < 0x2300 then viewPower s index sub
  else if index < 0x2500 then viewMemory s index sub
  else if index < 0x2600 then viewHost s index sub
  else if index < 0x3000 then viewFirmware s index sub
  else viewEngine s index sub

/-- An entry of a lane without a pickup reads its default (R84); L+05:04 and L+E8:03 have none but what T+00:01 and the lifetime
region hold. -/
def unfitted (s : State) (index sub : Nat) : Bool :=
  match laneOfIndex index with
  | some n => (laneAt s n).life.pickup.isNone && !(decide (index % 256 = 0x05) && decide (sub = 4)) &&
      !(decide (index % 256 = 0xE8) && decide (sub = 3))
  | none => false

/-- The value that a read of an entry gives (R91). -/
def readValue (s : State) (index : Nat) (e : Entry) : Bytes :=
  if unfitted s index e.sub then defaultOf none index e
  else
    match liveValue s index e.sub with
    | some b => b
    | none => stored s index e.sub

/-- The status of a read of an entry (R81, R85, R87 checks 1 to 4, R703, R724), or its value. -/
def readAccess (s : State) (who : Who) (index sub : Nat) : Except Nat Bytes :=
  match entriesAt index with
  | none => .error 0x0101
  | some es =>
    let e? : Option Entry := entryIn es sub
    if highestSub es < sub then .error 0x0102
    else if (e?.map (fun e => decide (e.acc = .wo))).getD false then .error 0x0202
    else if !mayReadEntry who index then .error 0x0203
    else if s.power.unit = 2 ∧ !servedInSleep index then .error 0x0402
    else if s.fw.running.isNone ∧ !(decide (0x1000 ≤ index ∧ index < 0x1100)) then .error 0x0402
    else
      match e? with
      | none => .ok (if sub = 0 then toLE 1 (highestSub es) else Sys2Proof.Config.gapValue index sub)
      | some e => .ok (readValue s index e)

end Sys2Proof.Machine
end

