-- ==== Sys2Proof/Machine/Server.lean ====
section
/-! DEFINITION. The dictionary server (R86 to R95): the effect of every write with a behaviour of its own, and the order of
checks and effects that every path shares. -/

namespace Sys2Proof.Machine

/-- One write of the dictionary. -/
structure Put where
  index : Nat
  sub : Nat
  value : Bytes
  deriving DecidableEq, Repr

/-! ### Sessions -/

/-- A session is closed: its held segments, stored responses and events to be acknowledged are discarded (R112). -/
def closeSession (slot : Fin 8) (s : State) : State :=
  match s.dict.sessions[slot] with
  | none => s
  | some x =>
    { s with dict := { s.dict with
        sessions := s.dict.sessions.set slot none
        held := s.dict.held.filter (fun h => decide (h.owner ≠ .session x.number))
        eventWaits := s.dict.eventWaits.filter (fun w => decide (w.slot ≠ slot.val)) } }

/-- Every session opened with a key slot is closed (R138, R139). -/
def closeKey (k : Nat) (s : State) : State :=
  allSlots.foldl (fun a i => if (a.dict.sessions[i]).any (fun x => decide (x.slot = k)) then closeSession i a else a) s

/-! ### Effects of writes -/

/-- What follows a restore of the defaults (R125) beside the stored values: lanes enabled again leave OFF, the default
microstep tables and way modes pend. -/
def restoreEffect (s : State) : State :=
  let s1 := restoreDefaults s
  let s2 := allLanes.foldl (fun a n =>
    let b := if lcfg s n 0x01 1 = 0 ∧ lcfg a n 0x01 1 = 1 then leaveOff n a else a
    if stored b (laneIdx n 0xA4) 2 = stored s (laneIdx n 0xA4) 2 then b else loadTable n (stored b (laneIdx n 0xA4) 2) b) s1
  let modes := (stored s2 0x2401 1).map (fun b => b.toNat)
  if stored s 0x2401 1 = stored s2 0x2401 1 then s2 else setCache (fun c => { c with change := some modes }) s2

/-- Writes of the entries 4000 to 5FFF. -/
def applyLane (n : LaneId) (off sub : Nat) (v : Bytes) (s : State) : Eff :=
  let st := store (laneIdx n off) sub v s
  if off = 0x01 ∧ sub = 1 then laneEnableEffect n v s
  else if off = 0x01 ∧ sub = 2 then laneModeEffect n v s
  else if off = 0x01 ∧ sub = 4 then laneResetEffect n s
  else if off = 0x22 ∧ sub = 1 then trimEffect n 0 (v.map (fun b => (b.toNat : Int))) false s
  else if off = 0x22 ∧ sub = 2 then trimEffect n 8 (v.map (fun b => fromLEInt [b])) false s
  else if off = 0x24 ∧ sub = 0x0B then restoreTapsEffect n v s
  else if off = 0x2A ∧ sub = 1 then captureArmEffect n v s
  else if off = 0x32 ∧ sub = 3 then clearDefectsEffect n s
  else if off = 0x62 ∧ sub = 6 then startLearningEffect n s
  else if off = 0xA2 ∧ sub = 2 then
    if withinSoft s n (strideOf v).target then .ok (postOrder n (.stride (strideOf v)) s) else .error 0x0301
  else if off = 0xA2 ∧ sub = 3 then .ok (sledStop n s)
  else if off = 0xA4 ∧ sub = 2 then
    if crc32 (v.take 512) = field v 512 4 then .ok (loadTable n v st) else .error 0x0601
  else if off = 0xA4 ∧ sub = 3 then .ok (loadTable n defaultTable (unstore (laneIdx n 0xA4) 2 s))
  else if off = 0xA6 ∧ sub = 1 then .ok (sourceWritten n st)
  else if off = 0xC0 ∧ sub = 1 then startWarmEffect n v s
  else if off = 0xC1 ∧ sub = 1 then trimRestoreEffect n v s
  else if off = 0xC1 ∧ sub = 3 then trimEffect n 16 ((elements 2 v).map fromLEInt) true s
  else if off = 0xC2 ∧ sub ≤ 3 then trimEffect n (23 + sub) [fromLEInt v] true s
  else if off = 0xC3 ∧ sub = 1 then trimEffect n 27 [(fromLE v : Int)] true s
  else if off = 0xC4 ∧ sub = 1 then trimEffect n 28 ((elements 2 v).map fromLEInt) true s
  else .ok st

/-- A write of a shadow bank (R389, R393, R412): its check word, then a switch that is pending. -/
def applyShadow (n : LaneId) (obs : Bool) (v : Bytes) (s : State) : Eff :=
  let b := (laneAt s n).loop.banks
  if !bankCheck v then .error 0x0601
  else if (if obs then b.obsPending else b.bqPending) then .error 0x0501
  else
    .ok (setLane n (fun l => { l with loop := { l.loop with
      banks := if obs then { l.loop.banks with obsShadow := v } else { l.loop.banks with bqShadow := v } } }) s)

/-- A write of a library slot (R407): the check word of a bank, then the reference copies of the class. -/
def applyLibrary (slot sub : Nat) (v : Bytes) (s : State) : Eff :=
  if (sub = 2 ∨ sub = 3) ∧ !bankCheck v then .error 0x0601
  else
    let s1 := store (0x6080 + slot) sub v s
    .ok (if sub ≤ 3 then refreshReferences slot s1 else s1)

/-- A write of 6001:01 or 6001:02 (R409, R412). -/
def applySwitch (obs : Bool) (v : Bytes) (s : State) : Eff :=
  let k := switchStatus s obs (fromLE v)
  if k = 0 then .ok (requestSwitch obs (fromLE v) s) else .error k

/-- Writes of the entries of the loop engine. -/
def applyEngine (index sub : Nat) (v : Bytes) (s : State) : Eff :=
  let f := familyOf index
  if f = 0x6001 ∧ sub = 1 then applySwitch true v s
  else if f = 0x6001 ∧ sub = 2 then applySwitch false v s
  else if f = 0x6010 then applyShadow (laneOf (index - 0x6010)) true v s
  else if f = 0x6030 then applyShadow (laneOf (index - 0x6030)) false v s
  else if f = 0x6080 then applyLibrary (index - 0x6080) sub v s
  else .ok (store index sub v s)

/-- Writes of the entries below 3000, and of the teams; `ph` is the peer's answer of R736. -/
def applyUnit (reply : Reply) (ph : Bool) (index sub : Nat) (v : Bytes) (s : State) : Eff :=
  let f := familyOf index
  let st := store index sub v s
  if f = 0x1110 then .ok (closeKey (sub - 1) (putKey sub v s))
  else if f = 0x1111 then .ok (if fromLE v = 0 then closeKey (sub - 1) (putKey sub [] st) else st)
  else if f = 0x2000 ∧ sub = 2 then startSave reply s
  else if f = 0x2000 ∧ sub = 4 then .ok (restoreEffect s)
  else if f = 0x2010 ∧ sub = 6 then .ok { s with alert := false }
  else if f = 0x2101 ∧ sub = 2 then startDrillEffect s
  else if f = 0x2200 ∧ sub = 1 then .ok (unitStateEffect (fromLE v) reply s)
  else if f = 0x2200 ∧ sub = 4 then .ok (if st.power.ps = 1 then capLanes 1 st else st)
  else if f = 0x2240 ∧ sub = 8 then .ok (setSeg (Fin.ofNat 4 (index - 0x2240)) (fun g => { g with failed := false }) s)
  else if f = 0x2310 ∧ sub = 1 then (scrubModeEffect s).map (fun a => store index sub v a)
  else if f = 0x2311 ∧ sub = 3 then startPassEffect s
  else if f = 0x2311 ∧ sub = 6 then .ok (endPassWith 1 s)
  else if f = 0x2401 ∧ sub = 1 then (wayModeEffect v s).map (fun a => store index sub v a)
  else if f = 0x2410 ∧ sub = 1 then maintEffect v s
  else if f = 0x2510 ∧ sub = 3 then .ok (setCause 1 (decide (fromLE v = 1)) st)
  else if f = 0x2600 ∧ sub = 7 then commitTrialEffect s
  else if f = 0x2610 ∧ sub = 1 then openDownloadEffect v s
  else if f = 0x2610 ∧ sub = 2 then chunkEffect v s
  else if f = 0x2610 ∧ sub = 4 then abandonEffect s
  else if f = 0x2620 ∧ sub = 1 then (activateEffect ph s).1
  else if f = 0x2700 ∧ sub = 1 then setCalendarEffect v s
  else if f = 0x2700 ∧ sub = 2 then setPpsEffect v s
  else if f = 0x3000 ∧ sub = 5 then createVolumeEffect (Fin.ofNat 32 ((index - 0x3000) / 128)) s
  else .ok st

/-- The effect of one write, with checks 9 and 10 of R87 and the checks that the chapters leave to it. -/
def applyWrite (reply : Reply) (ph : Bool) (p : Put) (s : State) : Eff :=
  if 0x4000 ≤ p.index ∧ p.index < 0x6000 then applyLane (laneOf ((p.index - 0x4000) / 256)) (p.index % 256) p.sub p.value s
  else if 0x6000 ≤ p.index then applyEngine p.index p.sub p.value s
  else applyUnit reply ph p.index p.sub p.value s

/-! ### Order of the checks (R87, R94) -/

/-- The state as it would stand after a write that passes: its effect and its value. A write that check 9 or 10 refuses leaves its
value for the checks before. -/
def asWritten (ph : Bool) (p : Put) (s : State) : State :=
  store p.index p.sub p.value (match applyWrite (.record .peer p.index p.sub) ph p s with
    | .ok s1 => s1
    | .error _ => s)

/-- Checks 1 to 7 of every write in order, each on the state as it would stand after the earlier ones; the status and the position of
the first that fails, or the state as it would stand after them all. -/
def checkPuts (who : Who) (ph : Bool) : List Put → Nat → State → Except (Nat × Nat) State
  | [], _, s => .ok s
  | p :: rest, k, s =>
    match writeChecks s who p.index p.sub p.value with
    | .error e => .error (e, k)
    | .ok _ => checkPuts who ph rest (k + 1) (asWritten ph p s)

/-- Check 8 of every write on the state as the whole batch would leave it: the position of the first that fails. -/
def consistPuts (s : State) : List Put → Nat → Option Nat
  | [], _ => none
  | p :: rest, k => if consistent s p.index p.sub then consistPuts s rest (k + 1) else some k

/-- The status of the write is due later: a save or a change of the unit state. -/
def Put.isLater (p : Put) : Bool := decide (p.index = 0x2000 ∧ p.sub = 2) || decide (p.index = 0x2200 ∧ p.sub = 1)

/-- The effects of the writes in order; the status and the position of the first that is refused. The answer of the whole is that of
the last write whose status is due later; one before it reports to the accessor alone. -/
def applyPuts (who : Who) (reply : Reply) (ph : Bool) : List Put → Nat → State → Except (Nat × Nat) State
  | [], _, s => .ok s
  | p :: rest, k, s =>
    match applyWrite (if rest.any Put.isLater then .record who p.index p.sub else reply.atPos k) ph p s with
    | .error e => .error (e, k)
    | .ok s1 => applyPuts who reply ph rest (k + 1) (if p.isLater then s1 else countChange p.index p.sub s1)

/-- The write goes to the STANDBY: an RWP entry outside 1100 to 11FF, a save, or a restore of the defaults (R679). -/
def Put.isShared (p : Put) : Bool :=
  (((findEntry p.index p.sub).map (fun e => decide (e.acc = .rwp))).getD false && !isComm p.index) ||
    decide (p.index = 0x2000 ∧ (p.sub = 2 ∨ p.sub = 4))

/-- Members or defaults were written: every team is evaluated once. -/
def settleTeams (l : List Put) (s : State) : State :=
  if l.any (fun p => (decide (familyOf p.index = 0x3000) && decide (p.sub = 1)) || (decide (p.index = 0x2000) && decide (p.sub = 4))) then
    allTeams.foldl (fun a t => evaluateTeam t none a) s
  else s

/-- The ACTIVE sends the accepted writes to the STANDBY; the status of a write of an RWP entry is due when the last has been
applied there (R679). -/
def shareConfig (reply : Reply) (l : List Put) (s : State) : Bool × State :=
  if s.pair.role = 1 ∧ batonUp s then
    let s1 := l.foldl (fun a p => if p.isShared then sendConfig p.index p.sub p.value a else a) s
    if l.any (fun p => p.isShared && !p.isLater) then
      (true, { s1 with work := { s1.work with configs := s1.work.configs ++ [(s1.pair.txSeq, reply)] } })
    else (false, s1)
  else (false, s)

/-- What a rejected write leaves: nothing changes (R29), but that an activation that the handoff format prevents leaves its slot
PENDING (R736). -/
def residue (ph : Bool) (l : List Put) (k : Nat) (s : State) : State :=
  match l.drop (k - 1) with
  | p :: _ => if p.index = 0x2620 ∧ p.sub = 1 then (activateEffect ph s).2 else s
  | [] => s

/-- What comes of writes: status and failing position at once, or a status that is due later. -/
inductive Outcome where
  | now (status position : Nat) (s : State)
  | later (s : State)

/-- The state that an outcome leaves. -/
def Outcome.state : Outcome → State
  | .now _ _ s => s
  | .later s => s

/-- Writes carried out as a whole (R87, R94). A write alone is a batch of one. The frames of one batch reach a STANDBY one by one:
check 8 was made on the ACTIVE, over the whole batch. -/
def serve (who : Who) (reply : Reply) (ph : Bool) (l : List Put) (s : State) : Outcome :=
  match checkPuts who ph l 1 s with
  | .error (e, k) => .now e k s
  | .ok scratch =>
    match (if who = .peer then none else consistPuts scratch l 1) with
    | some k => .now 0x0304 k s
    | none =>
      match applyPuts who reply ph l 1 s with
      | .error (e, k) => .now e k (residue ph l k s)
      | .ok s1 =>
        match shareConfig (if l.any Put.isLater then .record who 0x2000 2 else reply) l (settleTeams l s1) with
        | (true, s2) => .later s2
        | (false, s2) => if l.any Put.isLater then .later s2 else .now 0 0 s2

end Sys2Proof.Machine
end

