-- ==== Sys2Proof/Machine/Kyeri.lean ====
section
/-! DEFINITION. Kyeri on the MGMT ports (R95 to R112, R130 to R136): frames as they arrive, sessions, segments, batches,
discovery and the resending of events. -/

namespace Sys2Proof.Machine

/-! ### Frames (R98, R100, R101) -/

/-- A frame as parsed: its fields, and the bytes that its tag covers. -/
structure KFrame where
  session : Nat
  seq : Nat
  body : Bytes
  head : Bytes
  tag : Bytes

/-- A frame of a type that passes the checks of R101 but that of its tag, on a port that is enabled, while level 5 runs: else it
is dropped. -/
def parseFrame (ty : Nat) (d : Datagram) (s : State) : Option KFrame :=
  let b := d.data
  let n := field b 12 2
  let t := if field b 4 4 = 0 then 0 else 16
  if b.length ≤ 1232 ∧ b.take 2 = natBytes [0x4B, 0x59] ∧ field b 2 1 = 1 ∧ field b 3 1 = ty ∧ n ≤ 1200 ∧
      b.length = 16 + n + t ∧ cfg s 0x1100 (1 + d.port.val) = 1 ∧ s.fw.booted ∧ !s.host.frozen ∧
      ((ownAddresses s d.port).contains d.own ∨ (ty = 0x30 ∧ d.own = announceGroup)) then
    some { session := field b 4 4, seq := field b 8 4, body := slice b 16 n, head := b.take (16 + n), tag := b.drop (16 + n) }
  else none

/-- The open session of a number, with its slot. -/
def sessionOf (s : State) (number : Nat) : Option (Fin 8 × Session) :=
  allSlots.findSome? (fun i => match s.dict.sessions[i] with
    | some x => if x.number = number then some (i, x) else none
    | none => none)

/-- A frame to the sender of a datagram, from the address at which it arrived (R99). -/
def sendBack (d : Datagram) (f : Bytes) (s : State) : State := send (.kyeri d.port d.own d.addr d.uport f) s

/-- A response outside a session, without a tag. -/
def answerOut (d : Datagram) (ty seq status : Nat) (body : Bytes) (s : State) : State :=
  sendBack d (kyeriHeader (ty + 0x80) 0 seq status body) s

/-- A response in a session, stored where the session is still open (R104). -/
def answerIn (slot : Fin 8) (x : Session) (d : Datagram) (ty seq status : Nat) (body : Bytes) (s : State) : State :=
  if (s.dict.sessions[slot]).any (fun y => decide (y.number = x.number)) then respond slot d ty seq status body s
  else
    let f := kyeriHeader (ty + 0x80) x.number seq status body
    sendBack d (f ++ kyeriTag x.key f) s

/-- A frame in a session: a tag that fails drops it, a repeat receives the stored response (R104), another sequence that is not
above the highest accepted drops it (R105); else it is accepted. -/
def inSession (d : Datagram) (f : KFrame) (k : Fin 8 → Session → State → State) (s : State) : State :=
  match sessionOf s f.session with
  | none => s
  | some (slot, x) =>
    if kyeriTag x.key f.head ≠ f.tag then s
    else if f.seq ≤ x.highest then
      match x.stored.find? (fun r => decide (r.seq = f.seq) && decide (r.request = d.data)) with
      | some r => sendBack d r.response s
      | none => s
    else
      let y := { x with highest := f.seq, last := s.ticks, port := d.port, own := d.own, addr := d.addr, uport := d.uport }
      k slot y { s with dict := { s.dict with sessions := s.dict.sessions.set slot (some y) } }

/-- A request of a type: in a session by `k`, outside one by `out`. -/
def receive (ty : Nat) (d : Datagram) (out : KFrame → State → State) (k : KFrame → Fin 8 → Session → State → State) (s : State) : State :=
  match parseFrame ty d s with
  | none => s
  | some f => if f.session = 0 then out f s else inSession d f (k f) s

/-! ### Sessions (R107 to R112) -/

/-- Proofs that have failed in the last 60 s. -/
def recentFails (s : State) : Nat := (s.dict.proofFails.filter (fun t => !passed s t (secTicks 60))).length

/-- What refuses a HELLO: 0 nothing. A slot whose role is 0 is empty (R138). -/
def helloStatus (s : State) (body : Bytes) : Nat :=
  let k := field body 32 1
  if body.length ≠ 33 then 0x0302
  else if 5 ≤ recentFails s ∨ k = 0 ∨ 8 < k ∨ (s.dict.keys[Fin.ofNat 8 (k - 1)]).isNone ∨ cfg s 0x1111 k = 0 then 0x0203
  else if allSlots.all (fun i => (s.dict.sessions[i]).isSome) then 0x0501 else 0

/-- HELLO: answered with a fresh nonce and a session number. DESIGN CHOICE (log 85): one sent inside a session counts as its last
accepted frame and is not answered. -/
def hello (d : Datagram) (s : State) : State :=
  receive 0x01 d (fun f s =>
    let k := helloStatus s f.body
    if k ≠ 0 then answerOut d 0x01 0 k [] s
    else
      match drawBytes 32 s with
      | (nd, s1) =>
        let h : Hello := { number := s1.dict.nextSession, ns := f.body.take 32, nd := nd, slot := field f.body 32 1 - 1, tick := s1.ticks }
        answerOut d 0x01 0 0 (nd ++ toLE 4 h.number)
          { s1 with dict := { s1.dict with hellos := s1.dict.hellos ++ [h], nextSession := h.number + 1 } })
    (fun _ _ _ s => s) s

/-- HELLO. -/
def execHello (d : Datagram) (s : State) : Host.Outcome State Fault Refusal := .next (hello d s)

/-- The concatenation of R107, after its leading byte. -/
def proofBytes (h : Hello) : Bytes := h.ns ++ h.nd ++ toLE 4 h.number ++ Sys2Proof.Config.serialNumber.toList

/-- A proof that fails (R109, R110): counted, logged and answered outside the session under its request's sequence; the exchange
stays open for the rest of its 2 s (DESIGN CHOICE, log 86). The spec names no event code for the log's
entry: the code and data are free. -/
def proofFailed (d : Datagram) (seq : Nat) (s : State) : State :=
  match draw 65536 s with
  | (code, s1) =>
    match drawBytes 16 s1 with
    | (data, s2) =>
      let s3 := store 0x1122 1 (toLE 4 (cfg s2 0x1122 1 + 1))
        { s2 with dict := { s2.dict with proofFails := s2.ticks :: s2.dict.proofFails } }
      answerOut d 0x02 seq 0x0203 [] (logAppend code 0 (b2n s3.cal.unset) (timeNow s3) data s3)

/-- The session that an exchange opens: the key and role of its slot, and the session key. -/
def openedBy (h : Hello) (d : Datagram) (s : State) : Option Session :=
  match s.dict.keys[Fin.ofNat 8 h.slot] with
  | none => none
  | some key =>
    if cfg s 0x1111 (h.slot + 1) = 0 then none
    else
      some { number := h.number, role := cfg s 0x1111 (h.slot + 1), port := d.port, own := d.own, addr := d.addr, uport := d.uport, slot := h.slot
             key := hmacSha384 key (natBytes [2] ++ proofBytes h), highest := 1, last := s.ticks
             stored := [], txSeq := 0 }

/-- The proof, then the tag, of a PROVE are right, and its sequence is 1: another sequence is a proof that fails (DESIGN CHOICE,
log 86). -/
def proofRight (h : Hello) (x : Session) (f : KFrame) (s : State) : Bool :=
  match s.dict.keys[Fin.ofNat 8 h.slot] with
  | none => false
  | some key =>
    decide (f.body = hmacSha384 key (natBytes [1] ++ proofBytes h)) &&
      decide (kyeriTag x.key f.head = f.tag) && decide (f.seq = 1)

/-- A PROVE of an exchange: the session opens in the lowest free slot, where the proof has arrived within 2 s of the answer. -/
def proveNew (d : Datagram) (f : KFrame) (s : State) : State :=
  match s.dict.hellos.find? (fun h => decide (h.number = f.session)) with
  | none => proofFailed d f.seq s
  | some h =>
    match openedBy h d s with
    | none => proofFailed d f.seq s
    | some x =>
      if passed s h.tick (secTicks 2) || !proofRight h x f s then proofFailed d f.seq s
      else
        match allSlots.find? (fun i => (s.dict.sessions[i]).isNone) with
        | none => answerOut d 0x02 f.seq 0x0501 [] s
        | some slot =>
          answerIn slot x d 0x02 1 0 [] { s with dict := { s.dict with
            sessions := s.dict.sessions.set slot (some x)
            hellos := s.dict.hellos.filter (fun g => decide (g.number ≠ h.number)) } }

/-- PROVE: one whose session is open can only be a repeat; one that names Session 0 is dropped (DESIGN CHOICE, log 86). -/
def prove (d : Datagram) (s : State) : State :=
  match parseFrame 0x02 d s with
  | none => s
  | some f =>
    if f.session = 0 then s
    else if (sessionOf s f.session).isSome then inSession d f (fun _ _ s => s) s
    else proveNew d f s

/-- PROVE. -/
def execProve (d : Datagram) (s : State) : Host.Outcome State Fault Refusal := .next (prove d s)

/-- PROVE_TIMEOUT: an exchange not proved within 2 s ends. -/
def execProveTimeout (session : Nat) (s : State) : Host.Outcome State Fault Refusal :=
  .next { s with dict := { s.dict with
    hellos := s.dict.hellos.filter (fun h => !(decide (h.number = session) && passed s h.tick (secTicks 2))) } }

/-- CLOSE: answered, then the session ends. -/
def execClose (d : Datagram) (s : State) : Host.Outcome State Fault Refusal :=
  .next (receive 0x03 d (fun _ s => s) (fun f slot x s => closeSession slot (answerIn slot x d 0x03 f.seq 0 [] s)) s)

/-- SESSION_IDLE_TIMEOUT (R112). -/
def execSessionIdleTimeout (slot : Fin 8) (s : State) : Host.Outcome State Fault Refusal :=
  .next (match s.dict.sessions[slot] with
    | some x => if passed s x.last (secTicks (cfg s 0x1100 0xB)) then closeSession slot s else s
    | none => s)

/-! ### Reads (R103) -/

/-- A segment of a value from an offset, by R103: the status, the total length and the bytes. -/
def readSegment (s : State) (who : Who) (index sub off len limit : Nat) : Except Nat (Nat × Bytes) :=
  match readAccess s who index sub with
  | .error e => .error e
  | .ok v =>
    if v.length ≤ off ∧ !(decide (off = 0) && decide (v.length = 0)) then .error 0x0302
    else .ok (v.length, slice v off (min len limit))

/-- The answer to a READ's body: status and body. -/
def readAnswer (s : State) (who : Who) (b : Bytes) : Nat × Bytes :=
  if b.length ≠ 10 then (0x0302, [])
  else
    let index := field b 0 2
    let sub := field b 2 1
    match readSegment s who index sub (field b 4 4) (field b 8 2) 1180 with
    | .error e => (e, [])
    | .ok (total, v) => (0, toLE 4 total ++ toLE 4 (changeOf s index sub) ++ v)

/-- KYERI_READ: outside a session only the identity entries (R106). -/
def execKyeriRead (d : Datagram) (s : State) : Host.Outcome State Fault Refusal :=
  .next (receive 0x10 d
    (fun f s => answerOut d 0x10 f.seq (readAnswer s .outside f.body).1 (readAnswer s .outside f.body).2 s)
    (fun f slot x s =>
      answerIn slot x d 0x10 f.seq (readAnswer s (.session slot) f.body).1 (readAnswer s (.session slot) f.body).2 s) s)

/-! ### Writes (R94 to R97) -/

/-- The segments held of a value. -/
def heldOf (s : State) (o : Owner) (index sub : Nat) : Option Held :=
  s.dict.held.find? (fun h => decide (h.owner = o ∧ h.index = index ∧ h.sub = sub))

/-- The segments held of a value discarded. -/
def dropHeld (o : Owner) (index sub : Nat) (s : State) : State :=
  { s with dict := { s.dict with held := s.dict.held.filter (fun h => !decide (h.owner = o ∧ h.index = index ∧ h.sub = sub)) } }

/-- Bytes of all segments held. -/
def heldTotal (s : State) : Nat := (s.dict.held.map (fun h => h.data.length)).sum

/-- A segment of a value (R95 to R97): a status with what it leaves, or the whole value at its last segment. The first segment is at
offset 0, each other where the held bytes end. -/
def takeSegment (o : Owner) (index sub off total : Nat) (last : Bool) (data : Bytes) (s : State) : Except (Nat × State) (Bytes × State) :=
  let h := heldOf s o index sub
  let got : Bytes := (h.map (fun h => h.data)).getD []
  let s1 := dropHeld o index sub s
  if off ≠ got.length ∨ (h.isSome ∧ h.map (fun h => h.total) ≠ some total) ∨ total < off + data.length ∨
      (last ∧ off + data.length ≠ total) then .error (0x0302, s1)
  else if last then .ok (got ++ data, s1)
  else if 2 ^ 20 < heldTotal s + data.length then .error (0x0502, s)
  else
    .error (0, { s1 with dict := { s1.dict with
      held := s1.dict.held ++ [{ owner := o, index := index, sub := sub, total := total, data := got ++ data }] } })

/-- The peer's answer of R736 to an activation asked for in a frame or an NVMe dictionary command is free. -/
def peerAnswer (l : List Put) (s : State) : Bool × State :=
  if l.any (fun p => decide (p.index = 0x2620) && decide (p.sub = 1)) then
    match draw 2 s with
    | (k, s1) => (decide (k = 1), s1)
  else (false, s)

/-- Writes served with the peer's answer drawn where they ask for it. -/
def serveDrawn (who : Who) (reply : Reply) (l : List Put) (s : State) : Outcome :=
  match peerAnswer l s with
  | (ph, s1) => serve who reply ph l s1

/-- The status of a write outside a session: that of checks 1 to 3, of which 3 always fails (R106). -/
def outsideStatus (s : State) (p : Put) : Nat :=
  match writeChecks s .outside p.index p.sub p.value with
  | .error e => e
  | .ok _ => 0x0203

/-- A segment that passes checks 1 to 4 (R87) is taken in (R95); the checks of its value follow with the last. -/
def writeSegment (who : Who) (o : Owner) (index sub off total : Nat) (last : Bool) (data : Bytes) (s : State) : Except (Nat × State) (Bytes × State) :=
  match accessChecks s who index sub with
  | .error k => .error (k, s)
  | .ok _ => takeSegment o index sub off total last data s

/-- KYERI_WRITE. -/
def execKyeriWrite (d : Datagram) (s : State) : Host.Outcome State Fault Refusal :=
  .next (receive 0x11 d
    (fun f s =>
      answerOut d 0x11 f.seq (if f.body.length < 12 then 0x0302
        else outsideStatus s { index := field f.body 0 2, sub := field f.body 2 1, value := f.body.drop 12 }) [] s)
    (fun f slot x s =>
      let b := f.body
      let index := field b 0 2
      let sub := field b 2 1
      if b.length < 12 then answerIn slot x d 0x11 f.seq 0x0302 [] s
      else
        match writeSegment (.session slot) (.session x.number) index sub (field b 4 4) (field b 8 4) (bit (field b 3 1) 0) (b.drop 12) s with
        | .error (k, s1) => answerIn slot x d 0x11 f.seq k [] s1
        | .ok (v, s1) =>
          match serveDrawn (.session slot) (.frame slot x.number 0x11 f.seq d 0) [{ index := index, sub := sub, value := v }] s1 with
          | .now k _ s2 => answerIn slot x d 0x11 f.seq k [] s2
          | .later s2 => s2) s)

/-- The writes of a batch in their layout of R102: a record that runs past the end is an error at its position, counted from `k`;
bytes after the last are one at 0. -/
def parseBatch : Nat → Nat → Bytes → Except Nat (List Put)
  | 0, _, b => if b.isEmpty then .ok [] else .error 0
  | n + 1, k, b =>
    let len := field b 4 2
    if b.length < 6 + len then .error k
    else
      (parseBatch n (k + 1) (b.drop (4 * ((6 + len + 3) / 4)))).map
        (fun l => { index := field b 0 2, sub := field b 2 1, value := slice b 6 len } :: l)

/-- The writes of a batch by its count: a count of 0 or above 32 is refused before any of them is checked (R94). -/
def batchPuts (count : Nat) (b : Bytes) : Except Nat (List Put) :=
  if count = 0 ∨ 32 < count then .error 0 else parseBatch count 1 b

/-- BATCH. -/
def execBatch (d : Datagram) (s : State) : Host.Outcome State Fault Refusal :=
  .next (receive 0x12 d
    (fun f s =>
      match batchPuts (field f.body 0 1) (f.body.drop 4) with
      | .error k => answerOut d 0x12 f.seq 0x0302 (toLE 1 k) s
      | .ok l => answerOut d 0x12 f.seq ((l.head?.map (outsideStatus s)).getD 0x0203) (toLE 1 1) s)
    (fun f slot x s =>
      match batchPuts (field f.body 0 1) (f.body.drop 4) with
      | .error k => answerIn slot x d 0x12 f.seq 0x0302 (toLE 1 k) s
      | .ok l =>
        match serveDrawn (.session slot) (.frame slot x.number 0x12 f.seq d 1) l s with
        | .now st k s1 => answerIn slot x d 0x12 f.seq st (toLE 1 k) s1
        | .later s1 => s1) s)

/-! ### Events (R136) -/

/-- EVENT_ACK. -/
def execEventAck (d : Datagram) (s : State) : Host.Outcome State Fault Refusal :=
  .next (receive 0x21 d (fun _ s => s) (fun f slot _ s =>
    { s with dict := { s.dict with
      eventWaits := s.dict.eventWaits.filter (fun w => !decide (w.slot = slot.val ∧ w.seq = field f.body 0 4)) } }) s)

/-- One EVENT without an answer for 500 ms: sent again, at most 4 times, then missed by the session. -/
def resendEvent (slot : Fin 8) (w : EventWait) (s : State) : State :=
  let s1 := { s with dict := { s.dict with eventWaits := s.dict.eventWaits.filter (fun q => !decide (q.slot = w.slot ∧ q.seq = w.seq)) } }
  match s.dict.sessions[slot] with
  | none => s1
  | some x =>
    if 5 ≤ w.sends then s1
    else
      let f := kyeriHeader 0x20 x.number (x.txSeq + 1) 0 w.body
      send (.kyeri x.port x.own x.addr x.uport (f ++ kyeriTag x.key f)) { s1 with dict := { s1.dict with
        sessions := s1.dict.sessions.set slot (some { x with txSeq := x.txSeq + 1 })
        eventWaits := s1.dict.eventWaits ++ [{ w with sends := w.sends + 1, tick := s.ticks }] } }

/-- EVENT_RESEND. -/
def execEventResend (slot : Fin 8) (s : State) : Host.Outcome State Fault Refusal :=
  .next ((s.dict.eventWaits.filter (fun w => decide (w.slot = slot.val) && passed s w.tick (msTicks 500))).foldl
    (fun a w => resendEvent slot w a) s)

/-! ### Discovery (R130 to R132) -/

/-- A mask of lanes. -/
def laneMask (p : LaneId → Bool) : Nat := allLanes.foldl (fun a n => if p n then a + 2 ^ n.val else a) 0

/-- The body of an ANNOUNCE (R132). -/
def announceBody (s : State) : Bytes :=
  padSpaces 8 (stored s 0x1000 1) ++ padSpaces 16 Sys2Proof.Config.serialNumber.toList ++ toLE 4 0x59320A01 ++
    toLE 4 (field (runningHeader s) 12 4) ++ toLE 1 s.pair.role ++ toLE 1 s.power.unit ++
    toLE 2 (allSlots.filter (fun i => (s.dict.sessions[i]).isSome)).length ++
    toLE 4 (laneMask (fun n => (laneAt s n).life.pickup.isSome)) ++
    toLE 4 (laneMask (fun n => (laneAt s n).life.disc.stable && (laneAt s n).life.clamp.stable)) ++
    toLE 4 (liveCheck s) ++ padSpaces 16 (if s.pair.role = 0 then [] else s.pair.peerSerial)

/-- DISCOVER, sent to a port or to the group: its answer falls due after a random delay. -/
def execDiscover (d : Datagram) (s : State) : Host.Outcome State Fault Refusal :=
  .next (receive 0x30 d (fun _ s =>
    { s with dict := { s.dict with
      discoveries := s.dict.discoveries ++ [{ port := d.port, own := d.own, addr := d.addr, uport := d.uport, tick := s.ticks }] } })
    (fun _ _ _ s => s) s)

/-- DISCOVER_REPLY: the oldest DISCOVER is answered (R131). -/
def execDiscoverReply (s : State) : Host.Outcome State Fault Refusal :=
  .next (match s.dict.discoveries with
    | [] => s
    | q :: rest =>
      send (.kyeri q.port (if q.own = announceGroup then linkLocal q.port else q.own) q.addr q.uport (kyeriHeader 0xB0 0 0 0 (announceBody s)))
        { s with dict := { s.dict with discoveries := rest } })

/-- ANNOUNCE (R130): to the group with hop limit 1, on each enabled port whose link is up, while 1100:09 is true, no sooner than 990 ms after the last. -/
def execAnnounce (s : State) : Host.Outcome State Fault Refusal :=
  .next (if s.fw.booted ∧ cfg s 0x1100 9 = 1 ∧ (s.dict.announced.all (fun t => passed s t (msTicks 990))) then
      bothPorts.foldl (fun (a : State) (p : PortId) =>
        if a.ports.mdioUp[p] ∧ cfg a 0x1100 (1 + p.val) = 1 then
          send (.announce p announceGroup 1 (kyeriHeader 0x31 0 0 0 (announceBody a))) a
        else a) { s with dict := { s.dict with announced := some s.ticks } }
    else s)

end Sys2Proof.Machine
end

