-- ==== Sys2Proof/Machine/Access.lean ====
section
/-! DEFINITION. The dictionary over NVMe (R114 to R116), the writes of entries with a behaviour of their own as single happenings,
and the CONFIG frames of a pair (R679, R710, R712). -/

namespace Sys2Proof.Machine

/-! ### NVMe (R114 to R116) -/

/-- A dictionary command in flight: in SLEEP one that names an entry outside 1000 to 10FF and 2200 to 22FF completes with Command
Sequence Error (R703). -/
def dictCommand (c : CmdId) (opcode : Nat) (indices : List Nat) (k : CmdId → State → State) (s : State) : State :=
  fetchAny c (fun a s1 =>
    if s1.power.unit = 2 ∧ indices.any (fun i => !servedInSleep i) then refuse a (0, 0xC, none) s1
    else k a (takeOff (newFlight a s1.host.seq (.admin opcode false)) s1)) s

/-- The status code and failing position of a command's writes. -/
def dictOutcome (c : CmdId) (o : Outcome) : State :=
  match o with
  | .now k pos s => dictDone c (k + 65536 * pos) 0 s
  | .later s => s

/-- DICTIONARY_WRITE: the data of a segment; a transfer that fails ends the command with its generic status (R116). -/
def execDictionaryWrite (c : CmdId) (dw10 dw11 dw12 : Nat) (data : HostData) (s : State) : Host.Outcome State Fault Refusal :=
  let index := bits dw10 15 0
  let sub := bits dw10 23 16
  match data with
  | .failed sc => .next (fetchAny c (fun a s1 => refuse a (0, sc, none) s1) s)
  | .bytes v =>
    .next (dictCommand c 0xC1 [index] (fun a s1 =>
      match writeSegment (.nvme a.ctrl) (.queue a.ctrl a.sq) index sub dw11 dw12 (bit dw10 24) v s1 with
      | .error (k, s2) => dictDone a k 0 s2
      | .ok (b, s2) =>
        match serveDrawn (.nvme a.ctrl) (.command a 0) [{ index := index, sub := sub, value := b }] s2 with
        | .now k _ s3 => dictDone a k 0 s3
        | .later s3 => s3) s)

/-- DICTIONARY_READ: the bytes go to the host, with the entry's change counter in Dword 1 (R115). -/
def execDictionaryRead (c : CmdId) (dw10 dw11 dw12 : Nat) (failed : Option Nat) (s : State) : Host.Outcome State Fault Refusal :=
  let index := bits dw10 15 0
  let sub := bits dw10 23 16
  match failed with
  | some sc => .next (fetchAny c (fun a s1 => refuse a (0, sc, none) s1) s)
  | none =>
    .next (dictCommand c 0xC2 [index] (fun a s1 =>
      match readSegment s1 (.nvme a.ctrl) index sub dw11 dw12 65536 with
      | .error k => dictDone a k (changeOf s1 index sub) s1
      | .ok (_, v) => dictDone a 0 (changeOf s1 index sub) (if v.isEmpty then s1 else send (.data a v) s1)) s)

/-- DICTIONARY_BATCH: a count of 0 or above 32 transfers no data (R94). -/
def execDictionaryBatch (c : CmdId) (dw10 : Nat) (data : HostData) (s : State) : Host.Outcome State Fault Refusal :=
  if dw10 = 0 ∨ 32 < dw10 then .next (dictCommand c 0xC5 [] (fun a s1 => dictDone a 0x0302 0 s1) s)
  else
    match data with
    | .failed sc => .next (fetchAny c (fun a s1 => refuse a (0, sc, none) s1) s)
    | .bytes b =>
      match batchPuts dw10 b with
      | .error k => .next (dictCommand c 0xC5 [] (fun a s1 => dictDone a (0x0302 + 65536 * k) 0 s1) s)
      | .ok l =>
        .next (dictCommand c 0xC5 (l.map (fun p => p.index)) (fun a s1 =>
          dictOutcome a (serveDrawn (.nvme a.ctrl) (.command a 1) l s1)) s)

/-! ### Single writes -/

/-- A write by an accessor, with the peer's answer of R736: its status is recorded as the answer to the accessor. -/
def putEntryWith (ph : Bool) (who : Who) (index sub : Nat) (v : Bytes) (s : State) : State :=
  match serve who (.record who index sub) ph [{ index := index, sub := sub, value := v }] s with
  | .now k _ s1 => send (.answer who index sub k) s1
  | .later s1 => s1

/-- A write by an accessor. -/
def putEntry (who : Who) (index sub : Nat) (v : Bytes) (s : State) : State := putEntryWith false who index sub v s

/-- The entry has a behaviour of its own beside holding its value, and a row of its own. -/
def ownBehaviour (index sub : Nat) : Bool :=
  let f := familyOf index
  decide (f = 0x1110 ∨ f = 0x1111) || (decide (f = 0x2000) && decide (sub = 2 ∨ sub = 4)) ||
    (decide (f = 0x2010) && decide (sub = 6)) || (decide (f = 0x2101) && decide (sub = 2)) ||
    (decide (f = 0x2200) && decide (sub = 1)) || (decide (f = 0x2240) && decide (sub = 8)) ||
    (decide (f = 0x2310) && decide (sub = 1)) || (decide (f = 0x2311) && decide (sub = 3 ∨ sub = 6)) ||
    (decide (f = 0x2401) && decide (sub = 1)) || (decide (f = 0x2410) && decide (sub = 1)) ||
    (decide (f = 0x2510) && decide (sub = 3)) || (decide (f = 0x2600) && decide (sub = 7)) ||
    (decide (f = 0x2610) && decide (sub = 1 ∨ sub = 2 ∨ sub = 4)) || (decide (f = 0x2620) && decide (sub = 1)) ||
    (decide (f = 0x2700) && decide (sub = 1 ∨ sub = 2)) || (decide (f = 0x3000) && decide (sub = 1 ∨ sub = 5)) ||
    (decide (f = 0x4001) && decide (sub = 1 ∨ sub = 2 ∨ sub = 4)) || (decide (f = 0x4024) && decide (sub = 0x0B)) ||
    (decide (f = 0x402A) && decide (sub = 1 ∨ sub = 4)) || (decide (f = 0x4032) && decide (sub = 3)) ||
    (decide (f = 0x4062) && decide (sub = 6)) || (decide (f = 0x40A2) && decide (sub = 2 ∨ sub = 3)) ||
    (decide (f = 0x40A4) && decide (sub = 2 ∨ sub = 3)) || (decide (f = 0x40C0) && decide (sub = 1)) ||
    (decide (f = 0x40C1) && decide (sub = 1)) || (decide (f = 0x6001) && decide (sub = 1 ∨ sub = 2)) ||
    decide (f = 0x6010 ∨ f = 0x6030 ∨ f = 0x6080)

/-- ENTRY_WRITE: of an entry without a row of its own. -/
def execEntryWrite (who : Who) (index sub : Nat) (value : Bytes) (s : State) : Host.Outcome State Fault Refusal :=
  if ownBehaviour index sub then .next s else .next (putEntry who index sub value s)

/-- SAVE (R120 to R122). -/
def execSave (who : Who) (value : Bytes) (s : State) : Host.Outcome State Fault Refusal := .next (putEntry who 0x2000 2 value s)

/-- RESTORE_FACTORY_DEFAULTS (R125). -/
def execRestoreFactoryDefaults (who : Who) (value : Bytes) (s : State) : Host.Outcome State Fault Refusal :=
  .next (putEntry who 0x2000 4 value s)

/-- KEY_SLOT_WRITE (R113, R139). -/
def execKeySlotWrite (who : Who) (slot : Fin 8) (value : Bytes) (s : State) : Host.Outcome State Fault Refusal :=
  .next (putEntry who 0x1110 (slot.val + 1) value s)

/-- KEY_ROLE_WRITE (R138). -/
def execKeyRoleWrite (who : Who) (slot : Fin 8) (value : Bytes) (s : State) : Host.Outcome State Fault Refusal :=
  .next (putEntry who 0x1111 (slot.val + 1) value s)

/-- TEAM_MEMBERS_WRITE (R177). -/
def execTeamMembersWrite (who : Who) (t : TeamId) (value : Bytes) (s : State) : Host.Outcome State Fault Refusal :=
  .next (putEntry who (teamIdx t 0) 1 value s)

/-- CREATE_VOLUME (R163). -/
def execCreateVolume (who : Who) (t : TeamId) (value : Bytes) (s : State) : Host.Outcome State Fault Refusal :=
  .next (putEntry who (teamIdx t 0) 5 value s)

/-- START_LEARNING_RUN (R403). -/
def execStartLearningRun (who : Who) (n : LaneId) (value : Bytes) (s : State) : Host.Outcome State Fault Refusal :=
  .next (putEntry who (laneIdx n 0x62) 6 value s)

/-- LANE_MODE_WRITE (L+01:02). -/
def execLaneModeWrite (who : Who) (n : LaneId) (value : Bytes) (s : State) : Host.Outcome State Fault Refusal :=
  .next (putEntry who (laneIdx n 0x01) 2 value s)

/-- LANE_ENABLE_WRITE (L+01:01). -/
def execLaneEnableWrite (who : Who) (n : LaneId) (value : Bytes) (s : State) : Host.Outcome State Fault Refusal :=
  .next (putEntry who (laneIdx n 0x01) 1 value s)

/-- LANE_RESET (R174). -/
def execLaneReset (who : Who) (n : LaneId) (value : Bytes) (s : State) : Host.Outcome State Fault Refusal :=
  .next (putEntry who (laneIdx n 0x01) 4 value s)

/-- CAPTURE_ARM (R335). -/
def execCaptureArm (who : Who) (n : LaneId) (value : Bytes) (s : State) : Host.Outcome State Fault Refusal :=
  .next (putEntry who (laneIdx n 0x2A) 1 value s)

/-- TEST_SOURCE_WRITE (L+2A:04). -/
def execTestSourceWrite (who : Who) (n : LaneId) (value : Bytes) (s : State) : Host.Outcome State Fault Refusal :=
  .next (putEntry who (laneIdx n 0x2A) 4 value s)

/-- RESTORE_CLASS_TAPS (L+24:0B). -/
def execRestoreClassTaps (who : Who) (n : LaneId) (value : Bytes) (s : State) : Host.Outcome State Fault Refusal :=
  .next (putEntry who (laneIdx n 0x24) 0x0B value s)

/-- CLEAR_READ_DEFECT_LIST (L+32:03). -/
def execClearReadDefectList (who : Who) (n : LaneId) (value : Bytes) (s : State) : Host.Outcome State Fault Refusal :=
  .next (putEntry who (laneIdx n 0x32) 3 value s)

/-- OBSERVER_SWITCH_REQUEST (R409, R412). -/
def execObserverSwitchRequest (who : Who) (value : Bytes) (s : State) : Host.Outcome State Fault Refusal :=
  .next (putEntry who 0x6001 1 value s)

/-- BIQUAD_SWITCH_REQUEST (R409, R412). -/
def execBiquadSwitchRequest (who : Who) (value : Bytes) (s : State) : Host.Outcome State Fault Refusal :=
  .next (putEntry who 0x6001 2 value s)

/-- OBSERVER_SHADOW_WRITE (R389, R412). -/
def execObserverShadowWrite (who : Who) (n : LaneId) (value : Bytes) (s : State) : Host.Outcome State Fault Refusal :=
  .next (putEntry who (0x6010 + n.val) 1 value s)

/-- BIQUAD_SHADOW_WRITE (R393, R412). -/
def execBiquadShadowWrite (who : Who) (n : LaneId) (value : Bytes) (s : State) : Host.Outcome State Fault Refusal :=
  .next (putEntry who (0x6030 + n.val) 1 value s)

/-- LIBRARY_SLOT_WRITE (R407). -/
def execLibrarySlotWrite (who : Who) (slot : Fin 16) (sub : Nat) (value : Bytes) (s : State) : Host.Outcome State Fault Refusal :=
  .next (putEntry who (0x6080 + slot.val) sub value s)

/-- CLEAR_CHOPPER_FAILURE (2240+s:08). -/
def execClearChopperFailure (who : Who) (g : SegId) (value : Bytes) (s : State) : Host.Outcome State Fault Refusal :=
  .next (putEntry who (segIdx g) 8 value s)

/-- HOST_STRIDE (R470 to R473). -/
def execHostStride (who : Who) (n : LaneId) (value : Bytes) (s : State) : Host.Outcome State Fault Refusal :=
  .next (putEntry who (laneIdx n 0xA2) 2 value s)

/-- HOST_STOP (R477). -/
def execHostStop (who : Who) (n : LaneId) (value : Bytes) (s : State) : Host.Outcome State Fault Refusal :=
  .next (putEntry who (laneIdx n 0xA2) 3 value s)

/-- MICROSTEP_TABLE_WRITE (R490, R491). -/
def execMicrostepTableWrite (who : Who) (n : LaneId) (value : Bytes) (s : State) : Host.Outcome State Fault Refusal :=
  .next (putEntry who (laneIdx n 0xA4) 2 value s)

/-- RESTORE_DEFAULT_TABLE (L+A4:03). -/
def execRestoreDefaultTable (who : Who) (n : LaneId) (value : Bytes) (s : State) : Host.Outcome State Fault Refusal :=
  .next (putEntry who (laneIdx n 0xA4) 3 value s)

/-- START_WARM_UP (R509). -/
def execStartWarmUp (who : Who) (n : LaneId) (value : Bytes) (s : State) : Host.Outcome State Fault Refusal :=
  .next (putEntry who (laneIdx n 0xC0) 1 value s)

/-- TRIM_SET_RESTORE (R527). -/
def execTrimSetRestore (who : Who) (n : LaneId) (value : Bytes) (s : State) : Host.Outcome State Fault Refusal :=
  .next (putEntry who (laneIdx n 0xC1) 1 value s)

/-- TEST_ORDERING_WRITE (2510:03). -/
def execTestOrderingWrite (who : Who) (value : Bytes) (s : State) : Host.Outcome State Fault Refusal :=
  .next (putEntry who 0x2510 3 value s)

/-- SCRUB_MODE_WRITE (R621). -/
def execScrubModeWrite (who : Who) (value : Bytes) (s : State) : Host.Outcome State Fault Refusal :=
  .next (putEntry who 0x2310 1 value s)

/-- START_PASS (R621, R624). -/
def execStartPass (who : Who) (value : Bytes) (s : State) : Host.Outcome State Fault Refusal := .next (putEntry who 0x2311 3 value s)

/-- END_PASS (2311:06). -/
def execEndPass (who : Who) (value : Bytes) (s : State) : Host.Outcome State Fault Refusal := .next (putEntry who 0x2311 6 value s)

/-- WAY_MODE_WRITE (R643 to R645). -/
def execWayModeWrite (who : Who) (value : Bytes) (s : State) : Host.Outcome State Fault Refusal :=
  .next (putEntry who 0x2401 1 value s)

/-- A maintenance order of an operation; the row of another operation does not name it. -/
def maintOrder (op : Nat) (who : Who) (value : Bytes) (s : State) : State :=
  if field value 0 1 = op then putEntry who 0x2410 1 value s else s

/-- CACHE_CLEAN (R649). -/
def execCacheClean (who : Who) (value : Bytes) (s : State) : Host.Outcome State Fault Refusal := .next (maintOrder 1 who value s)

/-- CACHE_INVALIDATE (R649). -/
def execCacheInvalidate (who : Who) (value : Bytes) (s : State) : Host.Outcome State Fault Refusal := .next (maintOrder 2 who value s)

/-- CACHE_CLEAN_INVALIDATE (R649). -/
def execCacheCleanInvalidate (who : Who) (value : Bytes) (s : State) : Host.Outcome State Fault Refusal :=
  .next (maintOrder 3 who value s)

/-- CACHE_LOAD (R649). -/
def execCacheLoad (who : Who) (value : Bytes) (s : State) : Host.Outcome State Fault Refusal := .next (maintOrder 4 who value s)

/-- START_DRILL (R687). -/
def execStartDrill (who : Who) (value : Bytes) (s : State) : Host.Outcome State Fault Refusal := .next (putEntry who 0x2101 2 value s)

/-- UNIT_STATE_WRITE (R693, R714). -/
def execUnitStateWrite (who : Who) (value : Bytes) (s : State) : Host.Outcome State Fault Refusal :=
  .next (putEntry who 0x2200 1 value s)

/-- OPEN_DOWNLOAD (R728). -/
def execOpenDownload (who : Who) (value : Bytes) (s : State) : Host.Outcome State Fault Refusal :=
  .next (putEntry who 0x2610 1 value s)

/-- CHUNK (R729). -/
def execChunk (who : Who) (value : Bytes) (s : State) : Host.Outcome State Fault Refusal := .next (putEntry who 0x2610 2 value s)

/-- ABANDON_DOWNLOAD (R732). -/
def execAbandonDownload (who : Who) (value : Bytes) (s : State) : Host.Outcome State Fault Refusal :=
  .next (putEntry who 0x2610 4 value s)

/-- ACTIVATE (R736), with the peer's answer whether it holds the same image. -/
def execActivate (who : Who) (value : Bytes) (peerHolds : Bool) (s : State) : Host.Outcome State Fault Refusal :=
  .next (putEntryWith peerHolds who 0x2620 1 value s)

/-- COMMIT_TRIAL (R741). -/
def execCommitTrial (who : Who) (value : Bytes) (s : State) : Host.Outcome State Fault Refusal :=
  .next (putEntry who 0x2600 7 value s)

/-- SET_CALENDAR (R758). -/
def execSetCalendar (who : Who) (value : Bytes) (s : State) : Host.Outcome State Fault Refusal :=
  .next (putEntry who 0x2700 1 value s)

/-- SET_PPS_TIME (R759). -/
def execSetPpsTime (who : Who) (value : Bytes) (s : State) : Host.Outcome State Fault Refusal :=
  .next (putEntry who 0x2700 2 value s)

/-- CLEAR_ALERT (2010:06). -/
def execClearAlert (who : Who) (value : Bytes) (s : State) : Host.Outcome State Fault Refusal :=
  .next (putEntry who 0x2010 6 value s)

/-! ### CONFIG (R679, R688, R710, R712) -/

/-- The live check words of the pair compared after a CONFIG frame (R688). -/
def compareWords (word : Nat) (s : State) : State :=
  if liveCheck s = word then
    if s.work.mismatch then
      let s1 := { s with work := { s.work with mismatch := false } }
      if s1.work.full then arm s1 else s1
    else s
  else disarm { s with work := { s.work with mismatch := true } }

/-- A CONFIG frame: of the STANDBY's power request to the ACTIVE, or of the ACTIVE's target state, writes, save, restore or
activation to the STANDBY. -/
def configIn (f : BatonIn) (s : State) : State :=
  let index := field f.body 0 2
  let sub := field f.body 2 1
  let word := field f.body 4 4
  let v := f.body.drop 8
  if index = 0x2200 ∧ sub = 3 then
    let s1 := if s.pair.role = 2 ∧ fromLE v = 4 then { s with work := { s.work with suppressed := true } } else s
    requestPower { ps := fromLE v, who := .peer f.seq } s1
  else if s.pair.role ≠ 2 then s
  else if index = 0x2620 ∧ sub = 1 then actBegin (some (.peer f.seq)) (countChange index sub s)
  else
    match serve .peer (.peer f.seq) false [{ index := index, sub := sub, value := v }] s with
    | .now k _ s1 => sendAck f.seq k (compareWords word s1)
    | .later s1 => compareWords word s1

/-- CONFIG. -/
def execConfig (frame : Bytes) (s : State) : Host.Outcome State Fault Refusal :=
  .next (batonReceive 0x20 frame (fun f _ a => configIn f a) s)

end Sys2Proof.Machine
end

