-- ==== Sys2Proof/Machine/Orders.lean ====
section
/-! DEFINITION. Orders that stand in a lane's ring taken up by its level 2 sequencers at their boundaries (R37, R46, R471, R485). -/

namespace Sys2Proof.Machine

/-- The boundary of R37 that an order waits for. -/
def orderAt (b : Boundary) : Order → Bool
  | .stride _ => decide (b = .joint)
  | .gearing _ _ _ => decide (b = .period)
  | .spin => decide (b = .period)
  | .park => decide (b = .period)
  | .read _ _ _ => decide (b = .preamble)
  | .write _ _ => decide (b = .extent)

/-- The sequencer has room for an order: 8 strides (R471), 4 ratios (R485), a lane that may spin up or ramp down, a free track, and a lane
in no pass. -/
def orderFits (s : State) (n : LaneId) : Order → Bool
  | .stride r => decide ((laneAt s n).sled.queue.length < 8) || strideReplaces r
  | .gearing _ _ _ => decide ((laneAt s n).sled.armed.length < 4)
  | .spin => maySpin s n
  | .park => mayRamp (laneAt s n)
  | .read k _ _ => mayRead s n && ((laneAt s n).rd.jobs[k]).isNone
  | .write _ _ => mayWrite s n

/-- The extent read of a slot. -/
def jobAt (l : Lane) (k : TrackId) (layer slot : Nat) : Option ReadJob :=
  (l.disc.bind (fun d => indexOfSlot d.skips[trackPos layer k.val] slot)).map (fun i => newJob layer slot none false (logicalExtent layer k.val i))

/-- An order carried out by its sequencer. -/
def applyOrder (n : LaneId) (s : State) : Order → State
  | .stride r => strideAccept n r s
  | .gearing p a b => setLane n (fun l => { l with sled := armRatio p a b l.sled }) s
  | .spin => beginStart n (raiseSupply n s)
  | .park => rampStart n true s
  | .read k layer slot =>
    match jobAt (laneAt s n) k layer slot with
    | some j => beginJob n k j s
    | none => s
  | .write layer slot =>
    match nextPass s n with
    | some (y, q, l) => if y = layer ∧ q = slot then startPass n layer slot l s else s
    | none => s

/-- ORDER_TAKE_UP (R37): the first order of the boundary's kind, if there is room for it. -/
def orderTakeUp (n : LaneId) (b : Boundary) (s : State) : State :=
  match (laneAt s n).flt.orders.find? (orderAt b) with
  | none => s
  | some o => if orderFits s n o then applyOrder n (takeOrder n o s) o else s

/-- ORDER_TAKE_UP. -/
def execOrderTakeUp (n : LaneId) (b : Boundary) (s : State) : Host.Outcome State Fault Refusal := .next (orderTakeUp n b s)

end Sys2Proof.Machine
end

