-- ==== Sys2Proof/Machine/Dispatch.lean ====
section
/-! DEFINITION. The meaning of every command: one arm per row of spec/opcode_table.json, each a call of its own
definition. -/

namespace Sys2Proof.Machine

/-- The effect of a command on everything but the queue. -/
def exec (i : Instr) (s : State) : Host.Outcome State Fault Refusal :=
  match i with
  -- Five levels and lane faults
  | .orderTakeUp n b => Sys2Proof.Machine.execOrderTakeUp n b s
  | .laneFaultDetect src => Sys2Proof.Machine.execLaneFaultDetect src s
  | .laneFault n => Sys2Proof.Machine.execLaneFault n s
  | .laneRecovery n => Sys2Proof.Machine.execLaneRecovery n s
  -- Loop engine instants and the core supply
  | .observerUpdate n codes f ia ib volts late => Sys2Proof.Machine.execObserverUpdate n codes f ia ib volts late s
  | .outputRelease n l => Sys2Proof.Machine.execOutputRelease n l s
  | .biquadSlot n powerMonitor late => Sys2Proof.Machine.execBiquadSlot n powerMonitor late s
  | .overrunBankCheck n => Sys2Proof.Machine.execOverrunBankCheck n s
  | .coreSupplyChange => Sys2Proof.Machine.execCoreSupplyChange s
  | .coreSupplyInForce => Sys2Proof.Machine.execCoreSupplyInForce s
  -- Kyeri sessions
  | .hello d => Sys2Proof.Machine.execHello d s
  | .prove d => Sys2Proof.Machine.execProve d s
  | .proveTimeout session => Sys2Proof.Machine.execProveTimeout session s
  | .close d => Sys2Proof.Machine.execClose d s
  | .kyeriRead d => Sys2Proof.Machine.execKyeriRead d s
  | .kyeriWrite d => Sys2Proof.Machine.execKyeriWrite d s
  | .batch d => Sys2Proof.Machine.execBatch d s
  | .eventAck d => Sys2Proof.Machine.execEventAck d s
  | .discover d => Sys2Proof.Machine.execDiscover d s
  | .discoverReply => Sys2Proof.Machine.execDiscoverReply s
  | .announce => Sys2Proof.Machine.execAnnounce s
  | .eventResend slot => Sys2Proof.Machine.execEventResend slot s
  | .sessionIdleTimeout slot => Sys2Proof.Machine.execSessionIdleTimeout slot s
  -- Dictionary over NVMe and entries with a behaviour
  | .dictionaryWrite c dw10 dw11 dw12 data => Sys2Proof.Machine.execDictionaryWrite c dw10 dw11 dw12 data s
  | .dictionaryRead c dw10 dw11 dw12 failed => Sys2Proof.Machine.execDictionaryRead c dw10 dw11 dw12 failed s
  | .dictionaryBatch c dw10 data => Sys2Proof.Machine.execDictionaryBatch c dw10 data s
  | .entryWrite who index sub value => Sys2Proof.Machine.execEntryWrite who index sub value s
  | .save who value => Sys2Proof.Machine.execSave who value s
  | .saveDone readBackOk => Sys2Proof.Machine.execSaveDone readBackOk s
  | .restoreFactoryDefaults who value => Sys2Proof.Machine.execRestoreFactoryDefaults who value s
  | .keySlotWrite who slot value => Sys2Proof.Machine.execKeySlotWrite who slot value s
  | .keyRoleWrite who slot value => Sys2Proof.Machine.execKeyRoleWrite who slot value s
  -- Life of a lane
  | .presenceSample n presence disc clamp => Sys2Proof.Machine.execPresenceSample n presence disc clamp s
  | .presenceChange n => Sys2Proof.Machine.execPresenceChange n s
  | .pickupAccept n r => Sys2Proof.Machine.execPickupAccept n r s
  | .linkTrainingDone n laser => Sys2Proof.Machine.execLinkTrainingDone n laser s
  | .linkTrainingTimeout n laser => Sys2Proof.Machine.execLinkTrainingTimeout n laser s
  | .linkRetrainRetry n laser => Sys2Proof.Machine.execLinkRetrainRetry n laser s
  | .homingStall n => Sys2Proof.Machine.execHomingStall n s
  | .homingNoStall n => Sys2Proof.Machine.execHomingNoStall n s
  | .discStatusChange n => Sys2Proof.Machine.execDiscStatusChange n s
  | .leadInReadStart n => Sys2Proof.Machine.execLeadInReadStart n s
  | .leadInReadComplete n r => Sys2Proof.Machine.execLeadInReadComplete n r s
  | .teamMembersWrite who t value => Sys2Proof.Machine.execTeamMembersWrite who t value s
  | .createVolume who t value => Sys2Proof.Machine.execCreateVolume who t value s
  | .volumeCreated t => Sys2Proof.Machine.execVolumeCreated t s
  | .spinUp n => Sys2Proof.Machine.execSpinUp n s
  | .atSpeed n => Sys2Proof.Machine.execAtSpeed n s
  | .focusCapture n peaks position => Sys2Proof.Machine.execFocusCapture n peaks position s
  | .layerJump n outward landed => Sys2Proof.Machine.execLayerJump n outward landed s
  | .bandCapture n w speeds => Sys2Proof.Machine.execBandCapture n w speeds s
  | .wobbleFrame n w => Sys2Proof.Machine.execWobbleFrame n w s
  | .writeClockUnlock n errors => Sys2Proof.Machine.execWriteClockUnlock n errors s
  | .runoutRevolution n => Sys2Proof.Machine.execRunoutRevolution n s
  | .startLearningRun who n value => Sys2Proof.Machine.execStartLearningRun who n value s
  | .idleParkTimeout n => Sys2Proof.Machine.execIdleParkTimeout n s
  | .rampDown n => Sys2Proof.Machine.execRampDown n s
  | .laneModeWrite who n value => Sys2Proof.Machine.execLaneModeWrite who n value s
  | .laneEnableWrite who n value => Sys2Proof.Machine.execLaneEnableWrite who n value s
  | .laneReset who n value => Sys2Proof.Machine.execLaneReset who n value s
  | .pickupTempRead n temp => Sys2Proof.Machine.execPickupTempRead n temp s
  | .sessionCloseDue n => Sys2Proof.Machine.execSessionCloseDue n s
  | .sessionCloseWrite n verify => Sys2Proof.Machine.execSessionCloseWrite n verify s
  | .recoveryScan n => Sys2Proof.Machine.execRecoveryScan n s
  | .recoveryScanEnd n r => Sys2Proof.Machine.execRecoveryScanEnd n r s
  -- Writing
  | .passStart n blank => Sys2Proof.Machine.execPassStart n blank s
  | .sectorPlayout n => Sys2Proof.Machine.execSectorPlayout n s
  | .sectorVerify n k v => Sys2Proof.Machine.execSectorVerify n k v s
  | .passEnd n => Sys2Proof.Machine.execPassEnd n s
  | .relocationPass n verify => Sys2Proof.Machine.execRelocationPass n verify s
  | .relocationMove n => Sys2Proof.Machine.execRelocationMove n s
  | .sealDelayExpire t extent => Sys2Proof.Machine.execSealDelayExpire t extent s
  -- Reading
  | .extentReadStart n k slot => Sys2Proof.Machine.execExtentReadStart n k slot s
  | .acquisition n c level rms phase phaseError residual => Sys2Proof.Machine.execAcquisition n c level rms phase phaseError residual s
  | .syncMarkSearch n c w => Sys2Proof.Machine.execSyncMarkSearch n c w s
  | .timingLost n c bit => Sys2Proof.Machine.execTimingLost n c bit s
  | .dropoutStart n c bit => Sys2Proof.Machine.execDropoutStart n c bit s
  | .dropoutEnd n c bit => Sys2Proof.Machine.execDropoutEnd n c bit s
  | .dropoutCoastLimit n c bit => Sys2Proof.Machine.execDropoutCoastLimit n c bit s
  | .sectorRecord n k r => Sys2Proof.Machine.execSectorRecord n k r s
  | .captureArm who n value => Sys2Proof.Machine.execCaptureArm who n value s
  | .captureStart n samples => Sys2Proof.Machine.execCaptureStart n samples s
  | .testSourceWrite who n value => Sys2Proof.Machine.execTestSourceWrite who n value s
  | .restoreClassTaps who n value => Sys2Proof.Machine.execRestoreClassTaps who n value s
  | .ldpcDecode n k sector => Sys2Proof.Machine.execLdpcDecode n k sector s
  | .extentReadOutcome n k => Sys2Proof.Machine.execExtentReadOutcome n k s
  | .outerDecode n k => Sys2Proof.Machine.execOuterDecode n k s
  | .ladderStep n k => Sys2Proof.Machine.execLadderStep n k s
  | .refreshWaitExpire n => Sys2Proof.Machine.execRefreshWaitExpire n s
  | .clearReadDefectList who n value => Sys2Proof.Machine.execClearReadDefectList who n value s
  -- Loop engine banks
  | .observerSwitchRequest who value => Sys2Proof.Machine.execObserverSwitchRequest who value s
  | .biquadSwitchRequest who value => Sys2Proof.Machine.execBiquadSwitchRequest who value s
  | .observerShadowWrite who n value => Sys2Proof.Machine.execObserverShadowWrite who n value s
  | .biquadShadowWrite who n value => Sys2Proof.Machine.execBiquadShadowWrite who n value s
  | .librarySlotWrite who slot sub value => Sys2Proof.Machine.execLibrarySlotWrite who slot sub value s
  -- Spindle and pacer
  | .commutationStep n => Sys2Proof.Machine.execCommutationStep n s
  | .zeroCrossing n => Sys2Proof.Machine.execZeroCrossing n s
  | .rotorLost n => Sys2Proof.Machine.execRotorLost n s
  | .startFromRest n peaks => Sys2Proof.Machine.execStartFromRest n peaks s
  | .handover n => Sys2Proof.Machine.execHandover n s
  | .openLoopTimeout n => Sys2Proof.Machine.execOpenLoopTimeout n s
  | .coastEnd n backEmf => Sys2Proof.Machine.execCoastEnd n backEmf s
  | .voltageLimitEnter n => Sys2Proof.Machine.execVoltageLimitEnter n s
  | .voltageLimitExit n => Sys2Proof.Machine.execVoltageLimitExit n s
  | .busSample g mv => Sys2Proof.Machine.execBusSample g mv s
  | .chopFailureDetect g => Sys2Proof.Machine.execChopFailureDetect g s
  | .clearChopperFailure who g value => Sys2Proof.Machine.execClearChopperFailure who g value s
  | .busOvervoltage g => Sys2Proof.Machine.execBusOvervoltage g s
  | .regenToShort n => Sys2Proof.Machine.execRegenToShort n s
  | .shortBrakeRest n => Sys2Proof.Machine.execShortBrakeRest n s
  | .flyingRestart n b => Sys2Proof.Machine.execFlyingRestart n b s
  | .flyingRestartTimeout n => Sys2Proof.Machine.execFlyingRestartTimeout n s
  | .pacerEvaluation n => Sys2Proof.Machine.execPacerEvaluation n s
  -- Sled
  | .sledSetpoint n master sa sb => Sys2Proof.Machine.execSledSetpoint n master sa sb s
  | .hostStride who n value => Sys2Proof.Machine.execHostStride who n value s
  | .hostStop who n value => Sys2Proof.Machine.execHostStop who n value s
  | .quietDelayExpire n => Sys2Proof.Machine.execQuietDelayExpire n s
  | .holdCurrentTimeout n => Sys2Proof.Machine.execHoldCurrentTimeout n s
  | .encFailure n noEdge => Sys2Proof.Machine.execEncFailure n noEdge s
  | .microstepTableWrite who n value => Sys2Proof.Machine.execMicrostepTableWrite who n value s
  | .restoreDefaultTable who n value => Sys2Proof.Machine.execRestoreDefaultTable who n value s
  -- Warm-up
  | .startWarmUp who n value => Sys2Proof.Machine.execStartWarmUp who n value s
  | .warmUpStart n => Sys2Proof.Machine.execWarmUpStart n s
  | .warmUpPartEnd n samples => Sys2Proof.Machine.execWarmUpPartEnd n samples s
  | .warmUpRead n => Sys2Proof.Machine.execWarmUpRead n s
  | .warmUpPartTimeout n => Sys2Proof.Machine.execWarmUpPartTimeout n s
  | .opcWaitExpire n => Sys2Proof.Machine.execOpcWaitExpire n s
  | .writePowerPass n beta diffs => Sys2Proof.Machine.execWritePowerPass n beta diffs s
  | .warmUpRetry n => Sys2Proof.Machine.execWarmUpRetry n s
  | .trimSetRestore who n value => Sys2Proof.Machine.execTrimSetRestore who n value s
  -- NVMe admin
  | .createIoSq c dw10 dw11 prp => Sys2Proof.Machine.execCreateIoSq c dw10 dw11 prp s
  | .createIoCq c dw10 dw11 prp => Sys2Proof.Machine.execCreateIoCq c dw10 dw11 prp s
  | .deleteIoSq c dw10 => Sys2Proof.Machine.execDeleteIoSq c dw10 s
  | .deleteIoCq c dw10 => Sys2Proof.Machine.execDeleteIoCq c dw10 s
  | .getLogPage c nsid dw10 dw11 dw12 dw13 => Sys2Proof.Machine.execGetLogPage c nsid dw10 dw11 dw12 dw13 s
  | .identify c nsid dw10 dw11 => Sys2Proof.Machine.execIdentify c nsid dw10 dw11 s
  | .abort c dw10 => Sys2Proof.Machine.execAbort c dw10 s
  | .setFeaturesArbitration c sv dw11 => Sys2Proof.Machine.execSetFeaturesArbitration c sv dw11 s
  | .setFeaturesPowerManagement c sv dw11 => Sys2Proof.Machine.execSetFeaturesPowerManagement c sv dw11 s
  | .setFeaturesTempThreshold c sv dw11 => Sys2Proof.Machine.execSetFeaturesTempThreshold c sv dw11 s
  | .setFeaturesNumberOfQueues c sv dw11 => Sys2Proof.Machine.execSetFeaturesNumberOfQueues c sv dw11 s
  | .setFeaturesIntCoalescing c sv dw11 => Sys2Proof.Machine.execSetFeaturesIntCoalescing c sv dw11 s
  | .setFeaturesIntVectorConfig c sv dw11 => Sys2Proof.Machine.execSetFeaturesIntVectorConfig c sv dw11 s
  | .setFeaturesAsyncEventConfig c sv dw11 => Sys2Proof.Machine.execSetFeaturesAsyncEventConfig c sv dw11 s
  | .setFeaturesUnsupported c sv fid => Sys2Proof.Machine.execSetFeaturesUnsupported c sv fid s
  | .getFeatures c dw10 dw11 => Sys2Proof.Machine.execGetFeatures c dw10 dw11 s
  | .asyncEventRequest c => Sys2Proof.Machine.execAsyncEventRequest c s
  | .firmwareImageDownload c ofst data => Sys2Proof.Machine.execFirmwareImageDownload c ofst data s
  | .firmwareCommitVerify c fs => Sys2Proof.Machine.execFirmwareCommitVerify c fs s
  | .firmwareCommitPending c fs => Sys2Proof.Machine.execFirmwareCommitPending c fs s
  | .firmwareCommitSelect c fs => Sys2Proof.Machine.execFirmwareCommitSelect c fs s
  | .firmwareCommitActivate c fs peerHolds => Sys2Proof.Machine.execFirmwareCommitActivate c fs peerHolds s
  | .securitySend c protocol data => Sys2Proof.Machine.execSecuritySend c protocol data s
  | .securityReceive c protocol len => Sys2Proof.Machine.execSecurityReceive c protocol len s
  | .getVersion => Sys2Proof.Machine.execGetVersion s
  | .getCapabilities flags => Sys2Proof.Machine.execGetCapabilities flags s
  | .negotiateAlgorithms asym hash => Sys2Proof.Machine.execNegotiateAlgorithms asym hash s
  | .getDigests => Sys2Proof.Machine.execGetDigests s
  | .getCertificate slot offset len => Sys2Proof.Machine.execGetCertificate slot offset len s
  | .challenge slot summary nonce => Sys2Proof.Machine.execChallenge slot summary nonce s
  | .getMeasurements index nonce => Sys2Proof.Machine.execGetMeasurements index nonce s
  | .spdmUnsupportedRequest code => Sys2Proof.Machine.execSpdmUnsupportedRequest code s
  | .invalidOpcode c opcode => Sys2Proof.Machine.execInvalidOpcode c opcode s
  -- NVMe I/O
  | .flush c nsid => Sys2Proof.Machine.execFlush c nsid s
  | .write c nsid slba nlb x => Sys2Proof.Machine.execWrite c nsid slba nlb x s
  | .read c nsid slba nlb x => Sys2Proof.Machine.execRead c nsid slba nlb x s
  | .zoneAppend c nsid zslba nlb x => Sys2Proof.Machine.execZoneAppend c nsid zslba nlb x s
  | .zoneManagementReceive c nsid slba option numd part => Sys2Proof.Machine.execZoneManagementReceive c nsid slba option numd part s
  | .zoneOpen c nsid slba all => Sys2Proof.Machine.execZoneOpen c nsid slba all s
  | .zoneClose c nsid slba all => Sys2Proof.Machine.execZoneClose c nsid slba all s
  | .zoneFinish c nsid slba all => Sys2Proof.Machine.execZoneFinish c nsid slba all s
  | .zoneReset c nsid slba all => Sys2Proof.Machine.execZoneReset c nsid slba all s
  | .zoneOffline c nsid slba all => Sys2Proof.Machine.execZoneOffline c nsid slba all s
  | .setZoneDescriptorExtension c nsid slba => Sys2Proof.Machine.execSetZoneDescriptorExtension c nsid slba s
  | .sqDoorbell ctrl q tail => Sys2Proof.Machine.execSqDoorbell ctrl q tail s
  | .cqDoorbell ctrl q head => Sys2Proof.Machine.execCqDoorbell ctrl q head s
  | .commandComplete c => Sys2Proof.Machine.execCommandComplete c s
  | .detachHoldExpire t => Sys2Proof.Machine.execDetachHoldExpire t s
  | .orderWaitExpire t extent => Sys2Proof.Machine.execOrderWaitExpire t extent s
  | .zoneRebuild t => Sys2Proof.Machine.execZoneRebuild t s
  | .controllerEnable ctrl ams aqa => Sys2Proof.Machine.execControllerEnable ctrl ams aqa s
  | .controllerReset ctrl => Sys2Proof.Machine.execControllerReset ctrl s
  | .pcieLinkDown port => Sys2Proof.Machine.execPcieLinkDown port s
  | .shutdownNotify ctrl => Sys2Proof.Machine.execShutdownNotify ctrl s
  | .laneWaitExpire n => Sys2Proof.Machine.execLaneWaitExpire n s
  | .testOrderingWrite who value => Sys2Proof.Machine.execTestOrderingWrite who value s
  -- Buffer memory and cache
  | .memoryChannelLost ch cause => Sys2Proof.Machine.execMemoryChannelLost ch cause s
  | .bufferFillDone => Sys2Proof.Machine.execBufferFillDone s
  | .scrubStep flips => Sys2Proof.Machine.execScrubStep flips s
  | .scrubModeWrite who value => Sys2Proof.Machine.execScrubModeWrite who value s
  | .startPass who value => Sys2Proof.Machine.execStartPass who value s
  | .endPass who value => Sys2Proof.Machine.execEndPass who value s
  | .cmbRead port offset len => Sys2Proof.Machine.execCmbRead port offset len s
  | .cmbWrite port offset data ep => Sys2Proof.Machine.execCmbWrite port offset data ep s
  | .hostDataCompletion c lba data ep error => Sys2Proof.Machine.execHostDataCompletion c lba data ep error s
  | .hostDataTimeout c lba => Sys2Proof.Machine.execHostDataTimeout c lba s
  | .cacheAccess addr data flips => Sys2Proof.Machine.execCacheAccess addr data flips s
  | .cacheFillComplete bank flips => Sys2Proof.Machine.execCacheFillComplete bank flips s
  | .writebackDrain => Sys2Proof.Machine.execWritebackDrain s
  | .wayModeWrite who value => Sys2Proof.Machine.execWayModeWrite who value s
  | .modeChangeComplete => Sys2Proof.Machine.execModeChangeComplete s
  | .cacheClean who value => Sys2Proof.Machine.execCacheClean who value s
  | .cacheInvalidate who value => Sys2Proof.Machine.execCacheInvalidate who value s
  | .cacheCleanInvalidate who value => Sys2Proof.Machine.execCacheCleanInvalidate who value s
  | .cacheLoad who value => Sys2Proof.Machine.execCacheLoad who value s
  | .maintenanceComplete => Sys2Proof.Machine.execMaintenanceComplete s
  -- Relay pair
  | .soloTimeout => Sys2Proof.Machine.execSoloTimeout s
  | .peerArrived serial => Sys2Proof.Machine.execPeerArrived serial s
  | .pairselClaim low => Sys2Proof.Machine.execPairselClaim low s
  | .holdConflict => Sys2Proof.Machine.execHoldConflict s
  | .demandRelease => Sys2Proof.Machine.execDemandRelease s
  | .batonLinkTrained link serial => Sys2Proof.Machine.execBatonLinkTrained link serial s
  | .batonLinkLost link => Sys2Proof.Machine.execBatonLinkLost link s
  | .peerDeparted => Sys2Proof.Machine.execPeerDeparted s
  | .pairHello frame side => Sys2Proof.Machine.execPairHello frame side s
  | .heartbeatSend => Sys2Proof.Machine.execHeartbeatSend s
  | .heartbeat frame => Sys2Proof.Machine.execHeartbeat frame s
  | .mirror frame => Sys2Proof.Machine.execMirror frame s
  | .commit frame => Sys2Proof.Machine.execCommit frame s
  | .ack frame => Sys2Proof.Machine.execAck frame s
  | .config frame => Sys2Proof.Machine.execConfig frame s
  | .drill frame => Sys2Proof.Machine.execDrill frame s
  | .aliveLoss => Sys2Proof.Machine.execAliveLoss s
  | .heartbeatLoss => Sys2Proof.Machine.execHeartbeatLoss s
  | .takeoverRefused => Sys2Proof.Machine.execTakeoverRefused s
  | .startDrill who value => Sys2Proof.Machine.execStartDrill who value s
  | .drillSchedule => Sys2Proof.Machine.execDrillSchedule s
  | .drillQuiesceExpire => Sys2Proof.Machine.execDrillQuiesceExpire s
  | .drillRelease => Sys2Proof.Machine.execDrillRelease s
  | .drillCheck holdHigh => Sys2Proof.Machine.execDrillCheck holdHigh s
  | .laneViewMismatch n peerPresence peerDisc => Sys2Proof.Machine.execLaneViewMismatch n peerPresence peerDisc s
  -- Power
  | .unitStateWrite who value => Sys2Proof.Machine.execUnitStateWrite who value s
  | .standEntry => Sys2Proof.Machine.execStandEntry s
  | .standEntryTimeout => Sys2Proof.Machine.execStandEntryTimeout s
  | .sleepEntry => Sys2Proof.Machine.execSleepEntry s
  | .wakeStep ok => Sys2Proof.Machine.execWakeStep ok s
  | .wakeStepTimeout => Sys2Proof.Machine.execWakeStepTimeout s
  | .wakeFromStand => Sys2Proof.Machine.execWakeFromStand s
  | .demandWake => Sys2Proof.Machine.execDemandWake s
  -- Firmware
  | .openDownload who value => Sys2Proof.Machine.execOpenDownload who value s
  | .chunk who value => Sys2Proof.Machine.execChunk who value s
  | .imageVerify => Sys2Proof.Machine.execImageVerify s
  | .imageCopyToPeer => Sys2Proof.Machine.execImageCopyToPeer s
  | .abandonDownload who value => Sys2Proof.Machine.execAbandonDownload who value s
  | .activate who value peerHolds => Sys2Proof.Machine.execActivate who value peerHolds s
  | .activationStep => Sys2Proof.Machine.execActivationStep s
  | .rollingActivationStep ok => Sys2Proof.Machine.execRollingActivationStep ok s
  | .trialExpire => Sys2Proof.Machine.execTrialExpire s
  | .commitTrial who value => Sys2Proof.Machine.execCommitTrial who value s
  | .watchdogExpire core => Sys2Proof.Machine.execWatchdogExpire core s
  | .failStop cause => Sys2Proof.Machine.execFailStop cause s
  | .bootRom ddr => Sys2Proof.Machine.execBootRom ddr s
  | .deviceReset aon => Sys2Proof.Machine.execDeviceReset aon s
  -- Records
  | .lifetimeSave => Sys2Proof.Machine.execLifetimeSave s
  | .pickupLifetimeWrite n => Sys2Proof.Machine.execPickupLifetimeWrite n s
  | .setCalendar who value => Sys2Proof.Machine.execSetCalendar who value s
  | .setPpsTime who value => Sys2Proof.Machine.execSetPpsTime who value s
  | .ppsEdge => Sys2Proof.Machine.execPpsEdge s
  | .ppsTimeout => Sys2Proof.Machine.execPpsTimeout s
  -- Ports and supplies
  | .driveStatus n payload crc => Sys2Proof.Machine.execDriveStatus n payload crc s
  | .driveStatusTimeout n => Sys2Proof.Machine.execDriveStatusTimeout n s
  | .laserStatus n payload crc => Sys2Proof.Machine.execLaserStatus n payload crc s
  | .laserStatusTimeout n => Sys2Proof.Machine.execLaserStatusTimeout n s
  | .sidebandRetry n acked => Sys2Proof.Machine.execSidebandRetry n acked s
  | .mdioPoll port up => Sys2Proof.Machine.execMdioPoll port up s
  | .thermalTrip die temp => Sys2Proof.Machine.execThermalTrip die temp s
  | .clearAlert who value => Sys2Proof.Machine.execClearAlert who value s
  | .powerUpStep group => Sys2Proof.Machine.execPowerUpStep group s
  | .powerUpTimeout => Sys2Proof.Machine.execPowerUpTimeout s
  | .powerUpRetry => Sys2Proof.Machine.execPowerUpRetry s
  | .supplyCheck mv => Sys2Proof.Machine.execSupplyCheck mv s
  | .pmicPgFall group => Sys2Proof.Machine.execPmicPgFall group s
  | .aonPowerFail => Sys2Proof.Machine.execAonPowerFail s
  | .compositeTemperatureChange temps => Sys2Proof.Machine.execCompositeTemperatureChange temps s
  | .referenceClockLost clk => Sys2Proof.Machine.execReferenceClockLost clk s
  | .pcieLinkTrained port speed width => Sys2Proof.Machine.execPcieLinkTrained port speed width s
  | .powerDownStep pgFell => Sys2Proof.Machine.execPowerDownStep pgFell s
  | .commandAddressParityError ch cleared => Sys2Proof.Machine.execCommandAddressParityError ch cleared s
  | .interruptCoalescingTimeout ctrl vector => Sys2Proof.Machine.execInterruptCoalescingTimeout ctrl vector s
  | .jtagInstruction ir tdi => Sys2Proof.Machine.execJtagInstruction ir tdi s
  | .neighbourDiscovery port addr msg => Sys2Proof.Machine.execNeighbourDiscovery port addr msg s

end Sys2Proof.Machine
end

