-- ==== Sys2Proof/WellFormed.lean ====
section
/-! DEFINITION. Well-formed commands: every operand lies in the range of the field that carries it. -/

namespace Sys2Proof

/-- An operand's value with the least and the greatest value that its field carries. -/
abbrev Bound := Nat × Nat × Nat

/-- The value lies in its range. -/
def Bound.ok (b : Bound) : Bool := decide (b.2.1 ≤ b.1 ∧ b.1 ≤ b.2.2)

/-- A UDP datagram over IPv6 (R98, R99). -/
def datagramBounds (d : Datagram) : List Bound := [(d.own.length, 16, 16), (d.addr.length, 16, 16), (d.uport, 0, 65535), (d.data.length, 0, 65527)]

/-- Queue and command identifiers of NVMe (R564). -/
def commandBounds (c : CmdId) : List Bound := [(c.sq, 0, 65535), (c.cid, 0, 65535)]

/-- A wobble frame has 229 wobbles (R185). -/
def wobbleBounds (w : WobbleRead) : List Bound := [(w.wobbles.length, 229, 229)]

/-- Data as transferred, or a generic status code (R116). -/
def hostDataBounds : HostData → List Bound
  | .bytes b => [(b.length, 0, 4294967295)]
  | .failed sc => [(sc, 0, 255)]

/-- Places in the Controller Memory Buffer (R544). -/
def transferBounds (x : Transfer) : List Bound :=
  x.list.elim [] (fun l => [(l.1, 0, 18446744073709551615), (l.2, 0, 4294967295)]) ++ [(x.data.getD 0, 0, 18446744073709551615)]

/-- The operands of a command with their ranges; operands whose type already bounds them, and measured values, have none. -/
def Instr.bounds : Instr → List Bound
  -- Five levels and lane faults
  | .orderTakeUp _ _ => []
  | .laneFaultDetect _ => []
  | .laneFault _ => []
  | .laneRecovery _ => []
  -- Loop engine instants and the core supply
  | .observerUpdate _ _ _ _ _ _ _ => []
  | .outputRelease _ _ => []
  | .biquadSlot _ _ _ => []
  | .overrunBankCheck _ => []
  | .coreSupplyChange => []
  | .coreSupplyInForce => []
  -- Kyeri sessions
  | .hello d => datagramBounds d
  | .prove d => datagramBounds d
  | .proveTimeout session => [(session, 0, 4294967295)]
  | .close d => datagramBounds d
  | .kyeriRead d => datagramBounds d
  | .kyeriWrite d => datagramBounds d
  | .batch d => datagramBounds d
  | .eventAck d => datagramBounds d
  | .discover d => datagramBounds d
  | .discoverReply => []
  | .announce => []
  | .eventResend _ => []
  | .sessionIdleTimeout _ => []
  -- Dictionary over NVMe and entries with a behaviour
  | .dictionaryWrite c dw10 dw11 dw12 data => commandBounds c ++ hostDataBounds data ++ [(dw10, 0, 4294967295), (dw11, 0, 4294967295), (dw12, 0, 4294967295)]
  | .dictionaryRead c dw10 dw11 dw12 failed => commandBounds c ++ [(dw10, 0, 4294967295), (dw11, 0, 4294967295), (dw12, 0, 4294967295), (failed.getD 0, 0, 255)]
  | .dictionaryBatch c dw10 data => commandBounds c ++ hostDataBounds data ++ [(dw10, 0, 4294967295)]
  | .entryWrite _ index sub value => [(index, 0, 65535), (sub, 0, 255), (value.length, 0, 4294967295)]
  | .save _ value => [(value.length, 0, 4294967295)]
  | .saveDone _ => []
  | .restoreFactoryDefaults _ value => [(value.length, 0, 4294967295)]
  | .keySlotWrite _ _ value => [(value.length, 0, 4294967295)]
  | .keyRoleWrite _ _ value => [(value.length, 0, 4294967295)]
  -- Life of a lane
  | .presenceSample _ _ _ _ => []
  | .presenceChange _ => []
  | .pickupAccept _ _ => []
  | .linkTrainingDone _ _ => []
  | .linkTrainingTimeout _ _ => []
  | .linkRetrainRetry _ _ => []
  | .homingStall _ => []
  | .homingNoStall _ => []
  | .discStatusChange _ => []
  | .leadInReadStart _ => []
  | .leadInReadComplete _ _ => []
  | .teamMembersWrite _ _ value => [(value.length, 0, 4294967295)]
  | .createVolume _ _ value => [(value.length, 0, 4294967295)]
  | .volumeCreated _ => []
  | .spinUp _ => []
  | .atSpeed _ => []
  | .focusCapture _ _ _ => []
  | .layerJump _ _ _ => []
  | .bandCapture _ w _ => wobbleBounds w
  | .wobbleFrame _ w => wobbleBounds w
  | .writeClockUnlock _ _ => []
  | .runoutRevolution _ => []
  | .startLearningRun _ _ value => [(value.length, 0, 4294967295)]
  | .idleParkTimeout _ => []
  | .rampDown _ => []
  | .laneModeWrite _ _ value => [(value.length, 0, 4294967295)]
  | .laneEnableWrite _ _ value => [(value.length, 0, 4294967295)]
  | .laneReset _ _ value => [(value.length, 0, 4294967295)]
  | .pickupTempRead _ _ => []
  | .sessionCloseDue _ => []
  | .sessionCloseWrite _ _ => []
  | .recoveryScan _ => []
  | .recoveryScanEnd _ _ => []
  -- Writing
  | .passStart _ _ => []
  | .sectorPlayout _ => []
  | .sectorVerify _ _ _ => []
  | .passEnd _ => []
  | .relocationPass _ _ => []
  | .relocationMove _ => []
  | .sealDelayExpire _ _ => []
  -- Reading
  | .extentReadStart _ _ _ => []
  | .acquisition _ _ _ _ _ _ _ => []
  | .syncMarkSearch _ _ _ => []
  | .timingLost _ _ _ => []
  | .dropoutStart _ _ _ => []
  | .dropoutEnd _ _ _ => []
  | .dropoutCoastLimit _ _ _ => []
  | .sectorRecord _ _ _ => []
  | .captureArm _ _ value => [(value.length, 0, 4294967295)]
  | .captureStart _ _ => []
  | .testSourceWrite _ _ value => [(value.length, 0, 4294967295)]
  | .restoreClassTaps _ _ value => [(value.length, 0, 4294967295)]
  | .ldpcDecode _ _ sector => [(sector, 0, 31)]
  | .extentReadOutcome _ _ => []
  | .outerDecode _ _ => []
  | .ladderStep _ _ => []
  | .refreshWaitExpire _ => []
  | .clearReadDefectList _ _ value => [(value.length, 0, 4294967295)]
  -- Loop engine banks
  | .observerSwitchRequest _ value => [(value.length, 0, 4294967295)]
  | .biquadSwitchRequest _ value => [(value.length, 0, 4294967295)]
  | .observerShadowWrite _ _ value => [(value.length, 0, 4294967295)]
  | .biquadShadowWrite _ _ value => [(value.length, 0, 4294967295)]
  | .librarySlotWrite _ _ sub value => [(sub, 0, 255), (value.length, 0, 4294967295)]
  -- Spindle and pacer
  | .commutationStep _ => []
  | .zeroCrossing _ => []
  | .rotorLost _ => []
  | .startFromRest _ _ => []
  | .handover _ => []
  | .openLoopTimeout _ => []
  | .coastEnd _ _ => []
  | .voltageLimitEnter _ => []
  | .voltageLimitExit _ => []
  | .busSample _ _ => []
  | .chopFailureDetect _ => []
  | .clearChopperFailure _ _ value => [(value.length, 0, 4294967295)]
  | .busOvervoltage _ => []
  | .regenToShort _ => []
  | .shortBrakeRest _ => []
  | .flyingRestart _ _ => []
  | .flyingRestartTimeout _ => []
  | .pacerEvaluation _ => []
  -- Sled
  | .sledSetpoint _ _ _ _ => []
  | .hostStride _ _ value => [(value.length, 0, 4294967295)]
  | .hostStop _ _ value => [(value.length, 0, 4294967295)]
  | .quietDelayExpire _ => []
  | .holdCurrentTimeout _ => []
  | .encFailure _ _ => []
  | .microstepTableWrite _ _ value => [(value.length, 0, 4294967295)]
  | .restoreDefaultTable _ _ value => [(value.length, 0, 4294967295)]
  -- Warm-up
  | .startWarmUp _ _ value => [(value.length, 0, 4294967295)]
  | .warmUpStart _ => []
  | .warmUpPartEnd _ _ => []
  | .warmUpRead _ => []
  | .warmUpPartTimeout _ => []
  | .opcWaitExpire _ => []
  | .writePowerPass _ _ _ => []
  | .warmUpRetry _ => []
  | .trimSetRestore _ _ value => [(value.length, 0, 4294967295)]
  -- NVMe admin
  | .createIoSq c dw10 dw11 prp => commandBounds c ++ [(dw10, 0, 4294967295), (dw11, 0, 4294967295), (prp, 0, 18446744073709551615)]
  | .createIoCq c dw10 dw11 prp => commandBounds c ++ [(dw10, 0, 4294967295), (dw11, 0, 4294967295), (prp, 0, 18446744073709551615)]
  | .deleteIoSq c dw10 => commandBounds c ++ [(dw10, 0, 4294967295)]
  | .deleteIoCq c dw10 => commandBounds c ++ [(dw10, 0, 4294967295)]
  | .getLogPage c nsid dw10 dw11 dw12 dw13 => commandBounds c ++ [(nsid, 0, 4294967295), (dw10, 0, 4294967295), (dw11, 0, 4294967295), (dw12, 0, 4294967295), (dw13, 0, 4294967295)]
  | .identify c nsid dw10 dw11 => commandBounds c ++ [(nsid, 0, 4294967295), (dw10, 0, 4294967295), (dw11, 0, 4294967295)]
  | .abort c dw10 => commandBounds c ++ [(dw10, 0, 4294967295)]
  | .setFeaturesArbitration c _ dw11 => commandBounds c ++ [(dw11, 0, 4294967295)]
  | .setFeaturesPowerManagement c _ dw11 => commandBounds c ++ [(dw11, 0, 4294967295)]
  | .setFeaturesTempThreshold c _ dw11 => commandBounds c ++ [(dw11, 0, 4294967295)]
  | .setFeaturesNumberOfQueues c _ dw11 => commandBounds c ++ [(dw11, 0, 4294967295)]
  | .setFeaturesIntCoalescing c _ dw11 => commandBounds c ++ [(dw11, 0, 4294967295)]
  | .setFeaturesIntVectorConfig c _ dw11 => commandBounds c ++ [(dw11, 0, 4294967295)]
  | .setFeaturesAsyncEventConfig c _ dw11 => commandBounds c ++ [(dw11, 0, 4294967295)]
  | .setFeaturesUnsupported c _ fid => commandBounds c ++ [(fid, 0, 255)]
  | .getFeatures c dw10 dw11 => commandBounds c ++ [(dw10, 0, 4294967295), (dw11, 0, 4294967295)]
  | .asyncEventRequest c => commandBounds c
  | .firmwareImageDownload c ofst data => commandBounds c ++ [(ofst, 0, 18446744073709551615), (((data.map List.length).getD 0), 0, 4294967295)]
  | .firmwareCommitVerify c fs => commandBounds c ++ [(fs, 0, 7)]
  | .firmwareCommitPending c fs => commandBounds c ++ [(fs, 0, 7)]
  | .firmwareCommitSelect c fs => commandBounds c ++ [(fs, 0, 7)]
  | .firmwareCommitActivate c fs _ => commandBounds c ++ [(fs, 0, 7)]
  | .securitySend c protocol data => commandBounds c ++ [(protocol, 0, 255), (((data.map List.length).getD 0), 0, 4294967295)]
  | .securityReceive c protocol len => commandBounds c ++ [(protocol, 0, 255), (len, 0, 4294967295)]
  | .getVersion => []
  | .getCapabilities flags => [(flags, 0, 4294967295)]
  | .negotiateAlgorithms asym hash => [(asym, 0, 4294967295), (hash, 0, 4294967295)]
  | .getDigests => []
  | .getCertificate slot offset len => [(slot, 0, 255), (offset, 0, 65535), (len, 0, 65535)]
  | .challenge slot summary nonce => [(slot, 0, 255), (summary, 0, 255), (nonce.length, 32, 32)]
  | .getMeasurements index nonce => [(index, 0, 255), (((nonce.map List.length).getD 32), 32, 32)]
  | .spdmUnsupportedRequest code => [(code, 0, 255)]
  | .invalidOpcode c opcode => commandBounds c ++ [(opcode, 0, 255)]
  -- NVMe I/O
  | .flush c nsid => commandBounds c ++ [(nsid, 0, 4294967295)]
  | .write c nsid slba nlb x => commandBounds c ++ transferBounds x ++ [(nsid, 0, 4294967295), (slba, 0, 18446744073709551615), (nlb, 0, 65535)]
  | .read c nsid slba nlb x => commandBounds c ++ transferBounds x ++ [(nsid, 0, 4294967295), (slba, 0, 18446744073709551615), (nlb, 0, 65535)]
  | .zoneAppend c nsid zslba nlb x => commandBounds c ++ transferBounds x ++ [(nsid, 0, 4294967295), (zslba, 0, 18446744073709551615), (nlb, 0, 65535)]
  | .zoneManagementReceive c nsid slba option numd _ => commandBounds c ++ [(nsid, 0, 4294967295), (slba, 0, 18446744073709551615), (option, 0, 255), (numd, 0, 4294967295)]
  | .zoneOpen c nsid slba _ => commandBounds c ++ [(nsid, 0, 4294967295), (slba, 0, 18446744073709551615)]
  | .zoneClose c nsid slba _ => commandBounds c ++ [(nsid, 0, 4294967295), (slba, 0, 18446744073709551615)]
  | .zoneFinish c nsid slba _ => commandBounds c ++ [(nsid, 0, 4294967295), (slba, 0, 18446744073709551615)]
  | .zoneReset c nsid slba _ => commandBounds c ++ [(nsid, 0, 4294967295), (slba, 0, 18446744073709551615)]
  | .zoneOffline c nsid slba _ => commandBounds c ++ [(nsid, 0, 4294967295), (slba, 0, 18446744073709551615)]
  | .setZoneDescriptorExtension c nsid slba => commandBounds c ++ [(nsid, 0, 4294967295), (slba, 0, 18446744073709551615)]
  | .sqDoorbell _ q tail => [(q, 0, 65535), (tail, 0, 65535)]
  | .cqDoorbell _ q head => [(q, 0, 65535), (head, 0, 65535)]
  | .commandComplete c => commandBounds c
  | .detachHoldExpire _ => []
  | .orderWaitExpire _ _ => []
  | .zoneRebuild _ => []
  | .controllerEnable _ ams aqa => [(ams, 0, 7), (aqa, 0, 4294967295)]
  | .controllerReset _ => []
  | .pcieLinkDown _ => []
  | .shutdownNotify _ => []
  | .laneWaitExpire _ => []
  | .testOrderingWrite _ value => [(value.length, 0, 4294967295)]
  -- Buffer memory and cache
  | .memoryChannelLost _ _ => []
  | .bufferFillDone => []
  | .scrubStep _ => []
  | .scrubModeWrite _ value => [(value.length, 0, 4294967295)]
  | .startPass _ value => [(value.length, 0, 4294967295)]
  | .endPass _ value => [(value.length, 0, 4294967295)]
  | .cmbRead _ offset len => [(offset, 0, 18446744073709551615), (len, 0, 4294967295)]
  | .cmbWrite _ offset data _ => [(offset, 0, 18446744073709551615), (data.length, 0, 4294967295)]
  | .hostDataCompletion c lba data _ _ => commandBounds c ++ [(lba, 0, 18446744073709551615), (data.length, 0, 4294967295)]
  | .hostDataTimeout c lba => commandBounds c ++ [(lba, 0, 18446744073709551615)]
  | .cacheAccess _ data _ => [(((data.map List.length).getD 0), 0, 64)]
  | .cacheFillComplete _ _ => []
  | .writebackDrain => []
  | .wayModeWrite _ value => [(value.length, 0, 4294967295)]
  | .modeChangeComplete => []
  | .cacheClean _ value => [(value.length, 0, 4294967295)]
  | .cacheInvalidate _ value => [(value.length, 0, 4294967295)]
  | .cacheCleanInvalidate _ value => [(value.length, 0, 4294967295)]
  | .cacheLoad _ value => [(value.length, 0, 4294967295)]
  | .maintenanceComplete => []
  -- Relay pair
  | .soloTimeout => []
  | .peerArrived serial => [(serial.length, 12, 12)]
  | .pairselClaim _ => []
  | .holdConflict => []
  | .demandRelease => []
  | .batonLinkTrained _ serial => [(serial.length, 12, 12)]
  | .batonLinkLost _ => []
  | .peerDeparted => []
  | .pairHello frame _ => [(frame.length, 20, 8212)]
  | .heartbeatSend => []
  | .heartbeat frame => [(frame.length, 20, 8212)]
  | .mirror frame => [(frame.length, 20, 8212)]
  | .commit frame => [(frame.length, 20, 8212)]
  | .ack frame => [(frame.length, 20, 8212)]
  | .config frame => [(frame.length, 20, 8212)]
  | .drill frame => [(frame.length, 20, 8212)]
  | .aliveLoss => []
  | .heartbeatLoss => []
  | .takeoverRefused => []
  | .startDrill _ value => [(value.length, 0, 4294967295)]
  | .drillSchedule => []
  | .drillQuiesceExpire => []
  | .drillRelease => []
  | .drillCheck _ => []
  | .laneViewMismatch _ _ _ => []
  -- Power
  | .unitStateWrite _ value => [(value.length, 0, 4294967295)]
  | .standEntry => []
  | .standEntryTimeout => []
  | .sleepEntry => []
  | .wakeStep _ => []
  | .wakeStepTimeout => []
  | .wakeFromStand => []
  | .demandWake => []
  -- Firmware
  | .openDownload _ value => [(value.length, 0, 4294967295)]
  | .chunk _ value => [(value.length, 0, 4294967295)]
  | .imageVerify => []
  | .imageCopyToPeer => []
  | .abandonDownload _ value => [(value.length, 0, 4294967295)]
  | .activate _ value _ => [(value.length, 0, 4294967295)]
  | .activationStep => []
  | .rollingActivationStep _ => []
  | .trialExpire => []
  | .commitTrial _ value => [(value.length, 0, 4294967295)]
  | .watchdogExpire _ => []
  | .failStop _ => []
  | .bootRom _ => []
  | .deviceReset _ => []
  -- Records
  | .lifetimeSave => []
  | .pickupLifetimeWrite _ => []
  | .setCalendar _ value => [(value.length, 0, 4294967295)]
  | .setPpsTime _ value => [(value.length, 0, 4294967295)]
  | .ppsEdge => []
  | .ppsTimeout => []
  -- Ports and supplies
  | .driveStatus _ payload crc => [(payload.length, 6, 6), (crc, 0, 65535)]
  | .driveStatusTimeout _ => []
  | .laserStatus _ payload crc => [(payload.length, 4, 4), (crc, 0, 65535)]
  | .laserStatusTimeout _ => []
  | .sidebandRetry _ _ => []
  | .mdioPoll _ _ => []
  | .thermalTrip _ _ => []
  | .clearAlert _ value => [(value.length, 0, 4294967295)]
  | .powerUpStep _ => []
  | .powerUpTimeout => []
  | .powerUpRetry => []
  | .supplyCheck _ => []
  | .pmicPgFall _ => []
  | .aonPowerFail => []
  | .compositeTemperatureChange _ => []
  | .referenceClockLost _ => []
  | .pcieLinkTrained _ speed width => [(speed, 0, 5), (width, 0, 16)]
  | .powerDownStep _ => []
  | .commandAddressParityError _ _ => []
  | .interruptCoalescingTimeout _ vector => [(vector, 0, 65535)]
  | .jtagInstruction _ _ => []
  | .neighbourDiscovery _ addr msg => [(addr.length, 16, 16), (msg.length, 0, 1240)]

/-- The command is well-formed. -/
def Instr.wellFormed (i : Instr) : Bool := i.bounds.all Bound.ok

end Sys2Proof
end

