-- ==== Sys2Proof/Safety.lean ====
section
/-! DEFINITION. What a safe run keeps: the parts of the machine that a command leaves alone, and the invariant of every step. -/

namespace Sys2Proof.Machine

/-- The parts of the machine, but for the queue and the period timer: `reg` the stored entries, `keys` the session keys, `dict`
what else the dictionary keeps. -/
inductive Part where
  | free | sent | reg | keys | dict | conf | log | cal | life | lanes | pool | teams | segs | alert | core | host | mem | cache | pair | work | power
  | fw | island | sup | ports
  deriving DecidableEq, Repr

/-- Two states agree in a part. -/
def Part.same (x : Part) (s t : State) : Prop :=
  match x with
  | .free => t.free = s.free
  | .sent => t.sent = s.sent
  | .reg => t.dict.reg = s.dict.reg
  | .keys => t.dict.keys = s.dict.keys
  | .dict => t.dict = { s.dict with reg := t.dict.reg, keys := t.dict.keys }
  | .conf => t.conf = s.conf
  | .log => t.log = s.log
  | .cal => t.cal = s.cal
  | .life => t.life = s.life
  | .lanes => t.lanes = s.lanes
  | .pool => t.pool = s.pool
  | .teams => t.teams = s.teams
  | .segs => t.segs = s.segs
  | .alert => t.alert = s.alert
  | .core => t.coreMv = s.coreMv ∧ t.coreGoal = s.coreGoal
  | .host => t.host = s.host
  | .mem => t.mem = s.mem
  | .cache => t.cache = s.cache
  | .pair => t.pair = s.pair
  | .work => t.work = s.work
  | .power => t.power = s.power
  | .fw => t.fw = s.fw
  | .island => t.island = s.island
  | .sup => t.sup = s.sup
  | .ports => t.ports = s.ports

/-- The parts of a lane: its state of R140, what else its life holds, and its other records. -/
inductive LanePart where
  | st | life | flt | links | loop | spin | pace | sled | disc | wr | rd | warm | plife | waiting
  deriving DecidableEq, Repr

/-- Two values of a lane agree in a part. -/
def LanePart.same (x : LanePart) (l m : Lane) : Prop :=
  match x with
  | .st => m.life.st = l.life.st
  | .life => m.life = { l.life with st := m.life.st }
  | .flt => m.flt = l.flt
  | .links => m.links = l.links
  | .loop => m.loop = l.loop
  | .spin => m.spin = l.spin
  | .pace => m.pace = l.pace
  | .sled => m.sled = l.sled
  | .disc => m.disc = l.disc
  | .wr => m.wr = l.wr
  | .rd => m.rd = l.rd
  | .warm => m.warm = l.warm
  | .plife => m.plife = l.plife
  | .waiting => m.startWaiting = l.startWaiting

/-- The parts of the machine that a command may change. -/
def partsOf : Instr → List Part
  | .ppsTimeout =>
    [.cal]
  | .coreSupplyChange =>
    [.core]
  | .proveTimeout _ | .sessionIdleTimeout _ =>
    [.dict]
  | .recoveryScan _ | .pcieLinkTrained _ _ _ =>
    [.host]
  | .presenceSample _ _ _ _ | .leadInReadStart _ | .runoutRevolution _ | .sessionCloseDue _ | .relocationMove _
  | .captureStart _ _ | .commutationStep _ | .zeroCrossing _ | .handover _ | .voltageLimitExit _
  | .quietDelayExpire _ | .holdCurrentTimeout _ | .warmUpRead _ | .opcWaitExpire _ =>
    [.lanes]
  | .lifetimeSave =>
    [.life]
  | .commandAddressParityError _ _ =>
    [.mem]
  | .mdioPoll _ _ =>
    [.ports]
  | .powerUpRetry =>
    [.sup]
  | .sealDelayExpire _ _ =>
    [.teams]
  | .ppsEdge =>
    [.free, .cal]
  | .jtagInstruction _ _ =>
    [.free, .ports]
  | .powerUpTimeout =>
    [.island, .sup]
  | .coreSupplyInForce =>
    [.lanes, .core]
  | .extentReadStart _ _ _ =>
    [.lanes, .pool]
  | .busSample _ _ =>
    [.lanes, .segs]
  | .shutdownNotify _ =>
    [.life, .host]
  | .referenceClockLost _ =>
    [.pair, .sup]
  | .aliveLoss | .heartbeatLoss | .drillRelease =>
    [.pair, .work]
  | .biquadSlot _ _ _ | .idleParkTimeout _ | .rampDown _ | .syncMarkSearch _ _ _ | .timingLost _ _ _
  | .dropoutStart _ _ _ | .dropoutEnd _ _ _ | .dropoutCoastLimit _ _ _ | .coastEnd _ _ | .regenToShort _ =>
    [.reg, .lanes]
  | .mirror _ =>
    [.reg, .pair]
  | .close _ | .kyeriRead _ | .eventAck _ | .discover _ | .discoverReply
  | .announce | .eventResend _ =>
    [.sent, .dict]
  | .getVersion | .negotiateAlgorithms _ _ | .getDigests | .getCertificate _ _ _ | .spdmUnsupportedRequest _
  | .sqDoorbell _ _ _ | .cqDoorbell _ _ _ | .interruptCoalescingTimeout _ _ =>
    [.sent, .host]
  | .neighbourDiscovery _ _ _ =>
    [.sent, .ports]
  | .hello _ =>
    [.free, .sent, .dict]
  | .getCapabilities _ | .challenge _ _ _ | .getMeasurements _ _ =>
    [.free, .sent, .host]
  | .bufferFillDone =>
    [.host, .mem, .cache]
  | .supplyCheck _ | .pmicPgFall _ =>
    [.pair, .island, .sup]
  | .spinUp _ =>
    [.reg, .lanes, .core]
  | .sectorRecord _ _ _ | .ldpcDecode _ _ _ =>
    [.reg, .lanes, .pool]
  | .observerUpdate _ _ _ _ _ _ _ =>
    [.reg, .life, .lanes]
  | .drill _ =>
    [.reg, .pair, .work]
  | .soloTimeout | .holdConflict =>
    [.sent, .host, .pair]
  | .compositeTemperatureChange _ =>
    [.sent, .host, .sup]
  | .heartbeatSend | .drillSchedule =>
    [.sent, .pair, .work]
  | .linkRetrainRetry _ _ =>
    [.sent, .reg, .lanes]
  | .commit _ =>
    [.sent, .reg, .pair]
  | .powerUpStep _ =>
    [.cal, .pair, .island, .sup]
  | .laneFaultDetect _ | .writeClockUnlock _ _ | .pickupTempRead _ _ | .rotorLost _ | .driveStatusTimeout _
  | .laserStatusTimeout _ =>
    [.sent, .reg, .lanes, .ports]
  | .writePowerPass _ _ _ =>
    [.free, .sent, .reg, .lanes, .ports]
  | .memoryChannelLost _ _ | .watchdogExpire _ | .failStop _ =>
    [.life, .pair, .fw, .island, .sup]
  | .imageCopyToPeer =>
    [.sent, .dict, .log, .life, .alert]
  | .layerJump _ _ _ =>
    [.sent, .reg, .life, .lanes, .ports]
  | .maintenanceComplete =>
    [.sent, .dict, .log, .life, .alert, .cache]
  | .imageVerify | .trialExpire =>
    [.sent, .dict, .log, .life, .alert, .fw]
  | .controllerEnable _ _ _ =>
    [.sent, .dict, .log, .life, .alert, .host]
  | .batonLinkLost _ =>
    [.sent, .dict, .log, .life, .alert, .pair]
  | .laneViewMismatch _ _ _ =>
    [.sent, .dict, .log, .life, .alert, .work]
  | .overrunBankCheck _ | .voltageLimitEnter _ | .pacerEvaluation _ | .pickupLifetimeWrite _ =>
    [.sent, .dict, .log, .life, .lanes, .alert]
  | .chopFailureDetect _ =>
    [.sent, .dict, .log, .life, .segs, .alert]
  | .prove _ =>
    [.free, .sent, .reg, .dict, .log, .life, .alert]
  | .peerArrived _ | .batonLinkTrained _ _ =>
    [.sent, .dict, .log, .life, .alert, .host, .pair]
  | .thermalTrip _ _ =>
    [.sent, .dict, .log, .life, .alert, .host, .sup]
  | .orderWaitExpire _ _ | .zoneRebuild _ =>
    [.sent, .dict, .log, .life, .teams, .alert, .host]
  | .pickupAccept _ _ | .linkTrainingDone _ _ | .homingStall _ | .refreshWaitExpire _ | .flyingRestart _ _
  | .flyingRestartTimeout _ | .encFailure _ _ =>
    [.sent, .reg, .dict, .log, .life, .lanes, .alert]
  | .saveDone _ =>
    [.sent, .dict, .conf, .teams, .host, .pair, .work, .fw]
  | .volumeCreated _ | .passEnd _ =>
    [.sent, .dict, .log, .life, .lanes, .teams, .alert, .host]
  | .scrubStep _ | .cmbRead _ _ _ | .cmbWrite _ _ _ _ | .writebackDrain | .modeChangeComplete =>
    [.sent, .reg, .dict, .log, .life, .alert, .mem, .cache]
  | .drillQuiesceExpire =>
    [.sent, .reg, .dict, .log, .life, .alert, .pair, .work]
  | .wobbleFrame _ _ | .shortBrakeRest _ | .warmUpStart _ | .warmUpPartEnd _ _ | .warmUpPartTimeout _
  | .warmUpRetry _ =>
    [.sent, .reg, .dict, .log, .life, .lanes, .alert, .host]
  | .outputRelease _ _ | .startFromRest _ _ | .openLoopTimeout _ | .sledSetpoint _ _ _ _ | .driveStatus _ _ _
  | .laserStatus _ _ _ | .sidebandRetry _ _ =>
    [.sent, .reg, .dict, .log, .life, .lanes, .alert, .ports]
  | .acquisition _ _ _ _ _ _ _ =>
    [.sent, .reg, .dict, .log, .life, .lanes, .pool, .alert]
  | .recoveryScanEnd _ _ =>
    [.free, .sent, .dict, .log, .life, .lanes, .teams, .alert, .host]
  | .detachHoldExpire _ | .peerDeparted =>
    [.sent, .dict, .log, .life, .teams, .alert, .host, .pair, .work]
  | .heartbeat _ =>
    [.sent, .reg, .dict, .log, .cal, .life, .alert, .pair, .work]
  | .takeoverRefused =>
    [.sent, .reg, .dict, .log, .life, .alert, .host, .pair, .work]
  | .atSpeed _ =>
    [.sent, .reg, .dict, .log, .life, .lanes, .alert, .core, .power]
  | .busOvervoltage _ =>
    [.sent, .reg, .dict, .log, .life, .lanes, .segs, .alert, .ports]
  | .laneFault _ | .laneRecovery _ | .linkTrainingTimeout _ _ | .leadInReadComplete _ _ =>
    [.sent, .reg, .dict, .log, .life, .lanes, .teams, .alert, .host]
  | .wakeStepTimeout =>
    [.sent, .dict, .log, .life, .alert, .pair, .power, .fw, .island, .sup]
  | .activationStep | .rollingActivationStep _ =>
    [.sent, .dict, .log, .life, .teams, .alert, .host, .pair, .work, .fw]
  | .pairHello _ _ =>
    [.sent, .reg, .dict, .log, .cal, .life, .alert, .host, .pair, .work]
  | .presenceChange _ | .homingNoStall _ | .discStatusChange _ | .focusCapture _ _ _ | .bandCapture _ _ _ =>
    [.sent, .reg, .dict, .log, .life, .lanes, .teams, .alert, .host, .ports]
  | .laneWaitExpire _ | .ack _ =>
    [.sent, .reg, .dict, .log, .life, .teams, .alert, .host, .pair, .work]
  | .drillCheck _ =>
    [.free, .sent, .reg, .dict, .log, .life, .lanes, .alert, .host, .pair, .work]
  | .sessionCloseWrite _ _ =>
    [.free, .sent, .reg, .dict, .log, .life, .lanes, .teams, .alert, .host, .ports]
  | .hostDataCompletion _ _ _ _ _ | .hostDataTimeout _ _ =>
    [.free, .sent, .reg, .dict, .log, .life, .teams, .alert, .host, .mem, .cache]
  | .createIoSq _ _ _ _ | .createIoCq _ _ _ _ | .deleteIoCq _ _ | .getLogPage _ _ _ _ _ _ | .identify _ _ _ _
  | .setFeaturesArbitration _ _ _ | .setFeaturesTempThreshold _ _ _ | .setFeaturesNumberOfQueues _ _ _ | .setFeaturesIntCoalescing _ _ _ | .setFeaturesIntVectorConfig _ _ _
  | .setFeaturesAsyncEventConfig _ _ _ | .setFeaturesUnsupported _ _ _ | .getFeatures _ _ _ | .asyncEventRequest _ | .securityReceive _ _ _
  | .invalidOpcode _ _ | .zoneReset _ _ _ _ | .zoneOffline _ _ _ _ | .setZoneDescriptorExtension _ _ _ =>
    [.sent, .reg, .dict, .log, .life, .alert, .host, .mem, .cache, .pair, .work]
  | .sectorPlayout _ =>
    [.sent, .reg, .dict, .log, .life, .lanes, .teams, .alert, .mem, .cache, .ports]
  | .securitySend _ _ _ =>
    [.free, .sent, .reg, .dict, .log, .life, .alert, .host, .mem, .cache, .pair, .work]
  | .firmwareImageDownload _ _ _ | .firmwareCommitVerify _ _ | .firmwareCommitPending _ _ | .firmwareCommitSelect _ _ | .firmwareCommitActivate _ _ _ =>
    [.sent, .reg, .dict, .log, .life, .alert, .host, .mem, .cache, .pair, .work, .fw]
  | .cacheAccess _ _ _ | .cacheFillComplete _ _ =>
    [.sent, .reg, .dict, .log, .life, .alert, .mem, .cache, .pair, .fw, .island, .sup]
  | .extentReadOutcome _ _ | .outerDecode _ _ | .ladderStep _ _ =>
    [.sent, .reg, .dict, .log, .life, .lanes, .pool, .teams, .alert, .host, .mem, .cache]
  | .orderTakeUp _ _ =>
    [.sent, .reg, .dict, .log, .life, .lanes, .teams, .alert, .core, .mem, .cache, .ports]
  | .passStart _ _ =>
    [.sent, .reg, .dict, .log, .life, .lanes, .teams, .alert, .host, .mem, .cache, .ports]
  | .dictionaryRead _ _ _ _ _ | .deleteIoSq _ _ | .abort _ _ | .flush _ _ | .write _ _ _ _ _
  | .read _ _ _ _ _ | .zoneAppend _ _ _ _ _ | .zoneManagementReceive _ _ _ _ _ _ | .zoneOpen _ _ _ _ | .zoneClose _ _ _ _
  | .zoneFinish _ _ _ _ | .commandComplete _ | .controllerReset _ | .pcieLinkDown _ =>
    [.sent, .reg, .dict, .log, .life, .teams, .alert, .host, .mem, .cache, .pair, .work]
  | .sleepEntry =>
    [.sent, .reg, .dict, .log, .life, .lanes, .segs, .alert, .mem, .cache, .power, .sup, .ports]
  | .sectorVerify _ _ _ | .demandRelease =>
    [.sent, .reg, .dict, .log, .life, .lanes, .teams, .alert, .host, .mem, .cache, .pair, .work]
  | .standEntryTimeout | .wakeFromStand | .demandWake | .powerDownStep _ =>
    [.sent, .reg, .dict, .log, .life, .lanes, .teams, .alert, .host, .pair, .work, .power, .sup]
  | .pairselClaim _ =>
    [.free, .sent, .reg, .dict, .log, .cal, .life, .lanes, .teams, .alert, .host, .pair, .work, .ports]
  | .relocationPass _ _ =>
    [.sent, .reg, .dict, .log, .life, .lanes, .teams, .alert, .host, .mem, .cache, .pair, .work, .ports]
  | .setFeaturesPowerManagement _ _ _ | .standEntry =>
    [.sent, .reg, .dict, .log, .life, .lanes, .teams, .alert, .host, .mem, .cache, .pair, .work, .power, .sup]
  | .wakeStep _ =>
    [.sent, .reg, .dict, .log, .life, .lanes, .teams, .alert, .host, .cache, .pair, .work, .power, .fw, .island, .sup]
  | .bootRom _ =>
    [.free, .sent, .reg, .keys, .dict, .conf, .log, .cal, .life, .lanes,
     .teams, .alert, .host, .mem, .pair, .power, .fw, .island, .sup]
  | .entryWrite _ _ _ _ | .save _ _ | .restoreFactoryDefaults _ _ | .keySlotWrite _ _ _ | .keyRoleWrite _ _ _
  | .teamMembersWrite _ _ _ | .createVolume _ _ _ | .startLearningRun _ _ _ | .laneModeWrite _ _ _ | .laneEnableWrite _ _ _
  | .laneReset _ _ _ | .captureArm _ _ _ | .testSourceWrite _ _ _ | .restoreClassTaps _ _ _ | .clearReadDefectList _ _ _
  | .observerSwitchRequest _ _ | .biquadSwitchRequest _ _ | .observerShadowWrite _ _ _ | .biquadShadowWrite _ _ _ | .librarySlotWrite _ _ _ _
  | .clearChopperFailure _ _ _ | .hostStride _ _ _ | .hostStop _ _ _ | .microstepTableWrite _ _ _ | .restoreDefaultTable _ _ _
  | .startWarmUp _ _ _ | .trimSetRestore _ _ _ | .testOrderingWrite _ _ | .scrubModeWrite _ _ | .startPass _ _
  | .endPass _ _ | .wayModeWrite _ _ | .cacheClean _ _ | .cacheInvalidate _ _ | .cacheCleanInvalidate _ _
  | .cacheLoad _ _ | .config _ | .startDrill _ _ | .unitStateWrite _ _ | .openDownload _ _
  | .chunk _ _ | .abandonDownload _ _ | .activate _ _ _ | .commitTrial _ _ | .setCalendar _ _
  | .setPpsTime _ _ | .clearAlert _ _ =>
    [.sent, .reg, .keys, .dict, .conf, .log, .cal, .life, .lanes, .teams, .segs,
     .alert, .host, .mem, .cache, .pair, .work, .power, .fw, .sup, .ports]
  | .kyeriWrite _ | .batch _ | .dictionaryWrite _ _ _ _ _ | .dictionaryBatch _ _ _ =>
    [.free, .sent, .reg, .keys, .dict, .conf, .log, .cal, .life, .lanes, .teams, .segs,
     .alert, .host, .mem, .cache, .pair, .work, .power, .fw, .sup, .ports]
  | .aonPowerFail =>
    [.reg, .keys, .dict, .conf, .log, .cal, .life, .lanes, .pool, .teams, .segs, .alert,
     .core, .host, .mem, .cache, .pair, .work, .power, .fw, .sup, .ports]
  | .deviceReset _ =>
    [.reg, .keys, .dict, .conf, .log, .cal, .life, .lanes, .pool, .teams, .segs, .alert,
     .core, .host, .mem, .cache, .pair, .work, .power, .fw, .island, .sup, .ports]

/-- The lane that a command works on, and the parts of that lane that it may change, for the commands that leave every other
lane alone. -/
def laneOfCmd : Instr → Option (LaneId × List LanePart)
  | .sessionCloseDue n | .recoveryScanEnd n _ =>
    some (n, [.disc])
  | .presenceSample n _ _ _ =>
    some (n, [.life])
  | .linkRetrainRetry n _ =>
    some (n, [.links])
  | .overrunBankCheck n | .runoutRevolution n =>
    some (n, [.loop])
  | .pacerEvaluation n =>
    some (n, [.pace])
  | .syncMarkSearch n _ _ | .timingLost n _ _ | .dropoutStart n _ _ | .dropoutEnd n _ _ | .dropoutCoastLimit n _ _
  | .captureStart n _ | .ldpcDecode n _ _ =>
    some (n, [.rd])
  | .quietDelayExpire n | .holdCurrentTimeout n | .encFailure n _ =>
    some (n, [.sled])
  | .commutationStep n | .zeroCrossing n | .handover n | .coastEnd n _ | .voltageLimitEnter n
  | .voltageLimitExit n | .regenToShort n =>
    some (n, [.spin])
  | .flyingRestart n _ | .flyingRestartTimeout n =>
    some (n, [.flt, .spin])
  | .pickupLifetimeWrite n =>
    some (n, [.life, .plife])
  | .relocationMove n =>
    some (n, [.life, .wr])
  | .acquisition n _ _ _ _ _ _ | .sectorRecord n _ _ =>
    some (n, [.rd, .warm])
  | .refreshWaitExpire n =>
    some (n, [.life, .disc, .wr])
  | .sectorVerify n _ _ =>
    some (n, [.flt, .disc, .wr, .rd])
  | .observerUpdate n _ _ _ _ _ _ | .biquadSlot n _ _ =>
    some (n, [.loop, .spin, .rd, .warm])
  | .opcWaitExpire n =>
    some (n, [.st, .life, .wr, .warm])
  | .spinUp n =>
    some (n, [.life, .flt, .spin, .warm, .waiting])
  | .leadInReadStart n | .warmUpRead n =>
    some (n, [.st, .life, .wr, .rd, .warm])
  | .warmUpStart n | .warmUpPartTimeout n | .warmUpRetry n =>
    some (n, [.st, .life, .wr, .warm, .plife])
  | .idleParkTimeout n | .rampDown n =>
    some (n, [.life, .flt, .loop, .spin, .sled, .waiting])
  | .warmUpPartEnd n _ =>
    some (n, [.st, .life, .wr, .rd, .warm, .plife])
  | .linkTrainingTimeout n _ =>
    some (n, [.life, .flt, .links, .loop, .spin, .sled, .waiting])
  | .writeClockUnlock n _ | .rotorLost n | .startFromRest n _ | .openLoopTimeout n | .sledSetpoint n _ _ _ =>
    some (n, [.life, .flt, .loop, .spin, .sled, .wr, .waiting])
  | .pickupAccept n _ =>
    some (n, [.life, .links, .loop, .spin, .sled, .warm, .plife])
  | .passEnd n =>
    some (n, [.st, .life, .flt, .disc, .wr, .rd, .warm])
  | .extentReadStart n _ _ =>
    some (n, [.st, .life, .flt, .pace, .wr, .rd, .warm])
  | .driveStatus n _ _ | .driveStatusTimeout n | .laserStatus n _ _ | .laserStatusTimeout n | .sidebandRetry n _ =>
    some (n, [.life, .flt, .links, .loop, .spin, .sled, .wr, .waiting])
  | .outputRelease n _ =>
    some (n, [.life, .flt, .loop, .spin, .sled, .wr, .plife, .waiting])
  | .relocationPass n _ =>
    some (n, [.st, .life, .flt, .disc, .wr, .rd, .warm, .plife])
  | .laneRecovery n | .linkTrainingDone n _ =>
    some (n, [.st, .life, .flt, .links, .loop, .spin, .sled, .waiting])
  | .focusCapture n _ _ =>
    some (n, [.st, .life, .flt, .loop, .spin, .sled, .wr, .waiting])
  | .extentReadOutcome n _ | .outerDecode n _ | .ladderStep n _ =>
    some (n, [.st, .life, .flt, .pace, .disc, .wr, .rd, .warm])
  | .sectorPlayout n =>
    some (n, [.life, .flt, .loop, .spin, .sled, .disc, .wr, .plife, .waiting])
  | .pickupTempRead n _ =>
    some (n, [.life, .flt, .loop, .spin, .sled, .wr, .warm, .plife, .waiting])
  | .homingStall n =>
    some (n, [.st, .life, .flt, .loop, .spin, .sled, .disc, .plife, .waiting])
  | .bandCapture n _ _ =>
    some (n, [.st, .life, .flt, .loop, .spin, .sled, .wr, .rd, .waiting])
  | .wobbleFrame n _ =>
    some (n, [.st, .life, .flt, .loop, .spin, .sled, .wr, .rd, .warm])
  | .passStart n _ =>
    some (n, [.st, .life, .flt, .spin, .pace, .disc, .wr, .rd, .warm])
  | .sessionCloseWrite n _ | .writePowerPass n _ _ =>
    some (n, [.st, .life, .spin, .pace, .disc, .wr, .rd, .warm, .plife])
  | .layerJump n _ _ =>
    some (n, [.st, .life, .flt, .loop, .spin, .sled, .wr, .rd, .warm, .waiting])
  | .orderTakeUp n _ =>
    some (n, [.st, .life, .flt, .loop, .spin, .sled, .disc, .wr, .rd, .warm, .waiting])
  | .shortBrakeRest n =>
    some (n, [.st, .life, .flt, .links, .loop, .spin, .sled, .disc, .wr, .rd, .warm, .plife, .waiting])
  | _ => none

/-- Code and data of the newest entry of the event log (R762). -/
def lastEvent (s : State) : Option (Nat × Bytes) := s.log.entries.head?.map (fun e => (e.code, e.data))

/-- The event log holds at most its 65,536 entries (R762, R763). -/
def Log.bounded (l : Log) : Prop := l.entries.length ≤ 65536

/-- Every open session holds at most its last 16 responses (R104). -/
def Dict.bounded (d : Dict) : Prop := ∀ i : Fin 8, ∀ x : Session, d.sessions[i] = some x → x.stored.length ≤ 16

/-- The invariant: buffer memory is in its canonical form, and the log and the sessions' responses keep their bounds. -/
structure Inv (s : State) : Prop where
  mem : s.mem.wf = true
  log : s.log.bounded
  dict : s.dict.bounded

end Sys2Proof.Machine
end

