-- ==== Sys2Proof/Safety/Terms.lean ====
section
/-! DEFINITION. The terms in which the statements speak of frames, accesses and completions. -/

namespace Sys2Proof.Machine

/-- A datagram by its parts: port, the device's address and the station's, UDP port and frame. -/
def gram (p : PortId) (own addr : Bytes) (uport : Nat) (data : Bytes) : Datagram :=
  { port := p, own := own, addr := addr, uport := uport, data := data }

/-- The frame of a session that carries a right tag (R100, R108). -/
def sessionFrame (x : Session) (ty seq status : Nat) (body : Bytes) : Bytes :=
  let f := kyeriHeader ty x.number seq status body
  f ++ kyeriTag x.key f

/-- The key of the session that an exchange opens under a slot's key (R107 step 5). -/
def exchangeKey (h : Hello) (key : Bytes) : Bytes := hmacSha384 key (natBytes [2] ++ proofBytes h)

/-- The PROVE frame that holds the right proof and tag for an exchange under a slot's key (R107, R109). -/
def proveFrame (h : Hello) (key : Bytes) : Bytes :=
  let f := kyeriHeader 2 h.number 1 0 (hmacSha384 key (natBytes [1] ++ proofBytes h))
  f ++ kyeriTag (exchangeKey h key) f

/-- The device takes Kyeri frames on a port: it has booted, and the port's entry in 1100 allows Kyeri. -/
def listens (s : State) (p : PortId) : Bool := decide (cfg s 0x1100 (1 + p.val) = 1) && s.fw.booted && !s.host.frozen

/-- A session of a slot takes a frame of a sequence above its highest, with a body that a frame can hold. -/
def hears (s : State) (p : PortId) (slot : Fin 8) (x : Session) (seq : Nat) (body : Bytes) : Bool :=
  listens s p && decide (sessionOf s x.number = some (slot, x)) && decide (0 < x.number ∧ x.number < 2 ^ 32) &&
    decide (x.highest < seq ∧ seq < 2 ^ 32) && decide (body.length ≤ 1200)

/-- The session after it has taken the frame: the sequence is its highest, and the answer goes where the frame came from. -/
def heardSession (s : State) (p : PortId) (own addr : Bytes) (uport : Nat) (x : Session) (seq : Nat) : Session :=
  { x with highest := seq, last := s.ticks, port := p, own := own, addr := addr, uport := uport }

/-- The state in which the session has taken the frame. -/
def heard (s : State) (p : PortId) (own addr : Bytes) (uport : Nat) (slot : Fin 8) (x : Session) (seq : Nat) : State :=
  { s with dict := { s.dict with sessions := s.dict.sessions.set slot (some (heardSession s p own addr uport x seq)) } }

/-- A write passes the checks of R87 up to the entry's own effect. -/
def writePasses (s : State) (who : Who) (index sub : Nat) (v : Bytes) : Bool :=
  (match writeChecks s who index sub v with
    | .ok _ => true
    | .error _ => false) && consistent (store index sub v s) index sub

/-- An entry whose write does nothing but store its value: no row of its own, no trim (R526), and not 2200:04. -/
def plainEntry (index sub : Nat) : Bool :=
  let f := familyOf index
  !ownBehaviour index sub && !(decide (index = 0x2200) && decide (sub = 4)) && !(decide (f = 0x4022) && decide (sub ≤ 2)) &&
    !(decide (f = 0x40C1) && decide (sub = 3)) && !(decide (f = 0x40C2) && decide (sub ≤ 3)) &&
    !(decide (f = 0x40C3 ∨ f = 0x40C4) && decide (sub = 1))

/-- The state in which a dictionary command over NVMe is carried out: fetched, in flight and counted. -/
def taken (s : State) (c : CmdId) (opcode : Nat) : State :=
  let s1 := setHost (fun h => { h with seq := h.seq + 1 }) (advanceHead (adminId c) s)
  takeOff (newFlight (adminId c) s1.host.seq (.admin opcode false)) s1

/-- A write that has passed is answered with success. -/
abbrev answered (t : State) (who : Who) (index sub status : Nat) : Prop := t.sent.head? = some (.answer who index sub status)

/-- The completion queue of a command's submission queue takes an entry at once. -/
def cqRoom (s : State) (c : CmdId) : Bool :=
  ((cqOf s.host.ctrls[c.ctrl] c.sq).bind (cqAt s.host.ctrls[c.ctrl])).any (fun q => !q.full && q.held.isEmpty)

/-- An admin command is taken up and can complete at once: the admin queue gives the next command, its identifier is free, the device
is not in SLEEP, no peer has to acknowledge the completion, and the admin completion queue takes it and interrupts. -/
def adminOpen (s : State) (c : CmdId) : Bool :=
  canFetch s (adminId c) && !busyId s (adminId c) && decide (s.power.unit ≠ 2) && !needsAck s && cqRoom s (adminId c) &&
    decide (s.host.ctrls[c.ctrl].acq.id = 0 ∧ s.host.ctrls[c.ctrl].acq.vector = 0) && s.host.ctrls[c.ctrl].acq.ien &&
    s.host.ctrls[c.ctrl].sqs.all (fun q => decide (q.id ≠ 0))

/-- A controller that has taken an admin command and answered it: the head of its submission queue and the tail of its completion queue
have advanced. -/
def servedAdmin (k : Controller) : Controller :=
  { k with
    asq := { k.asq with head := (k.asq.head + 1) % (if k.asq.size = 0 then 1 else k.asq.size) }
    acq := { k.acq with
      tail := (k.acq.tail + 1) % (if k.acq.size = 0 then 1 else k.acq.size)
      phase := if k.acq.tail + 1 = k.acq.size then !k.acq.phase else k.acq.phase
      waiting := 0 } }

/-- What an admin command's completion sends: the completion, then the admin queue's interrupt (newest first). -/
def adminAnswer (c : CmdId) (sct sc dw0 dw1 : Nat) : List Sent :=
  [.interrupt c.ctrl 0, .completion (adminId c) sct sc none dw0 dw1]

/-- An I/O command is taken up and can complete at once: its queue gives the next command, its entry does not lie in a CMB, its
identifier is free, no peer has to acknowledge the completion, and its completion queue takes it. -/
def ioOpen (s : State) (c : CmdId) : Bool :=
  canFetch s c && !busyId s c && decide (c.sq ≠ 0) && !needsAck s && cqRoom s c &&
    s.host.ctrls[c.ctrl].sqs.all (fun q => decide (q.id ≠ c.sq ∨ q.base < 2 ^ 63))

/-- An I/O command's completion has just been sent, before or after its queue's interrupt. -/
abbrev ioDone (t : State) (c : CmdId) (st : Nat × Nat × Option Bool) (dw0 dw1 : Nat) : Prop :=
  Sent.completion c st.1 st.2.1 st.2.2 dw0 dw1 ∈ t.sent.take 2

/-- A maintenance command's value passes the checks of R650, and nothing else holds the cache. -/
def maintOk (s : State) (v : Bytes) : Bool :=
  match maintEffect v s with
  | .ok _ => true
  | .error _ => false

/-- A BATON frame with these parts is taken: a link is up, its epoch is not behind, and its sequence is new (R667, R670). -/
def hearsBaton (s : State) (epoch seq : Nat) (body : Bytes) : Bool :=
  batonUp s && decide (s.pair.epoch ≤ epoch ∧ epoch < 2 ^ 32) && decide (s.pair.rxSeq < seq ∧ seq < 2 ^ 32) &&
    decide (body.length ≤ 8192)

/-- The state in which a frame's sequence has been taken. -/
def heardBaton (s : State) (seq : Nat) : State := { s with pair := { s.pair with rxSeq := seq } }

/-- The frame of an ACK that the state would just have sent (R673). -/
def ackFrame (s : State) (seq status : Nat) : Bytes :=
  batonFrame 0x12 0 s.pair.epoch s.pair.txSeq s.pair.txCut (toLE 4 seq ++ toLE 2 status ++ toLE 2 0)

/-- The message sent last, where it is of SPDM; else no bytes. -/
def newestSpdm (s : State) : Bytes :=
  match s.sent with
  | .spdm m :: _ => m
  | _ => []

/-- The state in which an observer update computes: its instant taken, the banks and offsets of the instant in force, and the spindle's
part sampled (R384, R411, R414, R427, R523). -/
def sampledState (s : State) (n : LaneId) (ia ib : Int) (volts : List Int) : State :=
  let s1 := takeOffsets n (observerBanks n (setLane n (fun l =>
    { l with loop := { l.loop with sampledAt := some (timerCount s) } }) s))
  setLane n (spindleSample s1 n ia ib volts) s1

/-- A lane's sled sample instant whose set-point has not been formed (R63, R467, R837). -/
def sledDue (s : State) (n : LaneId) : Bool :=
  levelsRun s && decide (lanePhase s n % 100000 = 0 ∧ (laneAt s n).sled.setAt ≠ some (timerCount s))

/-- The state in which a biquad slot computes: its instant taken. -/
def slotTaken (s : State) (n : LaneId) : State :=
  setLane n (fun l => { l with loop := { l.loop with slotAt := some (timerCount s - laneOffset s n) } }) s

/-- A cascade's run of a lane with its active bank. -/
def runOf (l : Lane) (c : Fin 6) (v : Int) : CascadeOut := cascadeRun (wordsOf l.loop.banks.bqActive) c.val l.loop.cascades[c].secs v

end Sys2Proof.Machine
end

