-- ==== Sys2Proof/Certificates/Slice0/Obligations.lean ====
section
/-! DEFINITION. The statements for the provers, each a rule or a group of rules of the spec over every state. -/

open Sys2Proof Sys2Proof.Machine

/-- A step runs the command at the front of the queue. For every command and state: a step of a state with the command at the
front of its queue is the command's meaning on the state with the rest of the queue. -/
def Obligations.StepRunsTheFrontCommand : Prop :=
  ∀ (c : Instr) (rest : List Instr) (s : State), s.pending = c :: rest → step s = exec c { s with pending := rest }

/-- A step on an empty queue is one tick of the period timer (the model's choice, log entry 1). With no command waiting, the
period timer counts one tick of 5/24 ns and nothing else changes. That the tick stands on the empty queue is the model's
choice: log entry 1. -/
def Obligations.IdleStepIsOneTick : Prop :=
  ∀ s : State, s.pending = [] → step s = .next { s with ticks := s.ticks + 1 }

/-- The state after reset keeps the invariant, with every lane OFF, the unit in RUN and no session open. After reset the invariant
holds; every lane is OFF, the unit is in RUN at PS0, no session is open, HOLD and ALIVE are low, and no command waits. Reset
values that the spec does not give are the model's: log entries 9 and 10. -/
def Obligations.InvAtReset : Prop :=
  Inv State.reset ∧ State.reset.pending = [] ∧ (∀ n : LaneId, (laneAt State.reset n).life.st = .off) ∧
    State.reset.power.unit = 0 ∧ State.reset.power.ps = 0 ∧ (∀ i : Fin 8, State.reset.dict.sessions[i] = none) ∧
    State.reset.pair.hold = false ∧ State.reset.pair.alive = false

/-- Every step keeps the invariant: buffer memory in its canonical form, the event log and the stored responses within their
bounds. From every state that meets the invariant, whatever command stands at the front of the queue, a step that answers a
next state leaves one that meets it: buffer memory lists rising addresses and no line equal to what an unlisted line reads as,
the event log holds at most its 65,536 entries, and every open session at most its last 16 responses. -/
def Obligations.InvKeptByEveryStep : Prop :=
  ∀ s t : State, Inv s → step s = .next t → Inv t

/-- What every command leaves unchanged: the queue, the period timer, and every part of the machine that it is not listed with.
For every command of the table: where its meaning answers a next state, the queue and the period timer are as before, and so
is every part of the machine that partsOf does not name for it: registers of the dictionary, sessions and keys, saved copies,
log, calendar, lifetime counts, lanes, teams, bus segments, host controllers, buffer memory, cache, pair, power, firmware,
supplies and ports. -/
def Obligations.FrameOfEveryCommand : Prop :=
  ∀ (i : Instr) (s t : State), exec i s = .next t →
    t.pending = s.pending ∧ t.ticks = s.ticks ∧ ∀ x : Part, x ∉ partsOf i → x.same s t

/-- A command of a lane leaves every other lane, and the lane's other parts, unchanged. For every command that laneOfCmd gives a
lane and its parts: where it answers a next state, every other lane is as before, and of its own lane only those parts may
differ. -/
def Obligations.LanesKeptApart : Prop :=
  ∀ (i : Instr) (n : LaneId) (ps : List LanePart) (s t : State), laneOfCmd i = some (n, ps) → exec i s = .next t →
    (∀ k : LaneId, k ≠ n → laneAt t k = laneAt s k) ∧ ∀ x : LanePart, x ∉ ps → x.same (laneAt s n) (laneAt t n)

/-- No command is refused, and only an access to an address that no memory has stops the machine. For every command and state: no
meaning ends in a refusal, and the one fault is that of a CMB read, a CMB write or a cache access whose address lies in no
memory. -/
def Obligations.CommandsRun : Prop :=
  ∀ (i : Instr) (s : State), (∀ r : Refusal, exec i s ≠ .refused r) ∧ ∀ f : Fault, exec i s = .fault f →
    (∃ p o l, i = .cmbRead p o l) ∨ (∃ p o d e, i = .cmbWrite p o d e) ∨ (∃ a d fl, i = .cacheAccess a d fl)

/-- Orders taken up, faults detected and collected, and the recovery of a lane. ORDER_TAKE_UP (R37, R471, R485): an order that
does not fit waits; a gearing ratio is armed at the period boundary and reported taken; a stride taken up at the joint starts
where the queue is empty, and completes with status 8 where its target lies outside the soft limits; with no order of the
boundary's kind nothing happens. LANE_FAULT_DETECT (R49, R53, R168): a fault of R169 on a lane that is not OFF puts the lane
into the safe condition and cuts a pass in progress; on a lane whose sled has no stride and whose ring has room the fault is
posted with the lane's state at the detection; every lane of a front-end die is put into the safe condition by the die's
fault; a lane in OFF is left as it is. LANE_FAULT, LANE_RECOVERY (R168, R169, R171, R173): the posted fault brings the lane
into FAULT with its code, the re-entry state of its row, and the state to resume, which (the model's reading, log entry 74) is
the lower of that and the state at detection; with no fault posted only the ring's results are collected; a lane that waits
for nothing re-enters at the state to resume and leaves the safe condition; a recovery counts an attempt, and one beyond the
limit latches the fault; a latched lane does not recover. -/
def Obligations.LaneOrdersFaultsAndRecovery : Prop :=
  (∀ (n : LaneId) (b : Boundary) (o : Order) (s : State), (laneAt s n).flt.orders.find? (orderAt b) = some o →
     orderFits s n o = false → exec (.orderTakeUp n b) s = .next s) ∧
  (∀ (n : LaneId) (b : Boundary) (s : State), (laneAt s n).flt.orders.find? (orderAt b) = none → exec (.orderTakeUp n b) s = .next s) ∧
  (∀ (n : LaneId) (p : Nat) (a : Int) (d : Nat) (s : State),
     (laneAt s n).flt.orders.find? (orderAt .period) = some (.gearing p a d) → (laneAt s n).sled.armed.length < 4 →
     ∃ t, exec (.orderTakeUp n .period) s = .next t ∧ (laneAt t n).sled = armRatio p a d (laneAt s n).sled ∧
       (laneAt t n).flt.orders = removeFirst (fun x => decide (x = .gearing p a d)) (laneAt s n).flt.orders ∧
       (laneAt t n).flt.completions = ringKeep ((laneAt s n).flt.completions ++ [Completion.taken (.gearing p a d)])) ∧
  (∀ (n : LaneId) (r : Stride) (s : State), (laneAt s n).flt.orders.find? (orderAt .joint) = some (.stride r) →
     (laneAt s n).sled.queue = [] → withinSoft s n r.target = true →
     ∃ t, exec (.orderTakeUp n .joint) s = .next t ∧ (laneAt t n).sled.queue = [r] ∧ (laneAt t n).sled.running = true ∧
       (laneAt t n).flt.orders = removeFirst (fun x => decide (x = .stride r)) (laneAt s n).flt.orders) ∧
  (∀ (n : LaneId) (r : Stride) (s : State), (laneAt s n).flt.orders.find? (orderAt .joint) = some (.stride r) →
     orderFits s n (.stride r) = true → withinSoft s n r.target = false →
     ∃ t, exec (.orderTakeUp n .joint) s = .next t ∧ (laneAt t n).sled.last = { r with status := 8 } ∧
       (laneAt t n).sled.queue = (laneAt s n).sled.queue ∧
       (laneAt t n).flt.orders = removeFirst (fun x => decide (x = .stride r)) (laneAt s n).flt.orders) ∧
  (∀ (n : LaneId) (code : Nat) (s : State), (laneAt s n).life.st ≠ .off → code ∈ faultCodes →
     ∃ t, exec (.laneFaultDetect (.lane n code)) s = .next t ∧ (laneAt t n).flt.safe = true ∧
       (laneAt t n).wr.pass = (laneAt s n).wr.pass.map (fun p => { p with cut := true })) ∧
  (∀ (n : LaneId) (code : Nat) (s : State), (laneAt s n).life.st ≠ .off → code ∈ faultCodes → (laneAt s n).sled.queue = [] →
     (laneAt s n).flt.completions.length < 64 →
     ∃ t, exec (.laneFaultDetect (.lane n code)) s = .next t ∧ .fault code (laneAt s n).life.st ∈ (laneAt t n).flt.completions) ∧
  (∀ (n : LaneId) (code : Nat) (s : State), (laneAt s n).life.st = .off → exec (.laneFaultDetect (.lane n code)) s = .next s) ∧
  (∀ (d : Fin 4) (n : LaneId) (s : State), n.val / 8 = d.val → (laneAt s n).life.st ≠ .off →
     ∃ t, exec (.laneFaultDetect (.die d)) s = .next t ∧ (laneAt t n).flt.safe = true) ∧
  (∀ (n : LaneId) (code : Nat) (at' : LaneState) (rest : List Completion) (s : State),
     takeFault (laneAt s n).flt.completions = some (code, at', rest) →
     (laneAt s n).life.st ≠ .off → (laneAt s n).flt.latched = false → (laneAt s n).flt.recovering = false →
     ∃ t, exec (.laneFault n) s = .next t ∧ (laneAt t n).life.st = .fault ∧ (laneAt t n).flt.last = code ∧
       (laneAt t n).flt.reentry = reentryOf (laneAt s n) code ∧
       (laneAt t n).flt.resume = lowerState (reentryOf (laneAt s n) code) at') ∧
  (∀ (n : LaneId) (s : State), takeFault (laneAt s n).flt.completions = none →
     ∃ t, exec (.laneFault n) s = .next t ∧ (laneAt t n).life = (laneAt s n).life ∧ (laneAt t n).flt.completions = []) ∧
  (∀ (n : LaneId) (s : State), mayRecover (laneAt s n) = true → lostLink (laneAt s n) = none → mustRamp (laneAt s n) = false →
     recoveryReady s n = true → (laneAt s n).flt.rehome = false → (laneAt s n).flt.recovering = true →
     (laneAt s n).flt.resume ≠ .fault →
     ∃ t, exec (.laneRecovery n) s = .next t ∧ (laneAt t n).life.st = (laneAt s n).flt.resume ∧ (laneAt t n).flt.safe = false) ∧
  (∀ (n : LaneId) (s : State), mayRecover (laneAt s n) = true → recoveryStands s n = true → (laneAt s n).flt.recovering = false →
     lcfg s n 0x02 4 ≤ (attemptsNow s n).length →
     ∃ t, exec (.laneRecovery n) s = .next t ∧ (laneAt t n).flt.latched = true ∧ (laneAt t n).flt.attempts = s.ticks :: attemptsNow s n) ∧
  (∀ (n : LaneId) (s : State), (laneAt s n).flt.latched = true → exec (.laneRecovery n) s = .next s)

/-- The observer instant, the release of the outputs, the biquad slots of a loop period, and the check of the banks after an
overrun. OBSERVER_UPDATE (R64, R66, R384, R425, R427, R837): at the lane's sample instant, once, the cell's outputs go into
the latch and its next states into force, the two phase currents are taken, the third being their negated sum, and the rotor's
angle advances by its speed; a late update leaves the latch empty and the states as they were; at no other instant does
anything happen. OUTPUT_RELEASE (R60, R65 to R67, R414, R415): at the release instant of its class the actuator output of the
release's sample is released and sent in the DRIVE frame, and the latch emptied; without it the previous output stands, and
the overrun makes the banks' check and reload due, makes the next output zero and puts the lane into the safe condition; zero
is released until the recovery's sweep; the cascades of another class whose results are there are released, and a missing one
is an overrun; outside the instant nothing happens. BIQUAD_SLOT (R66, R377, R390, R391, R837): in its slot of the observer
periods 4 and 12 the read power cascade runs on the monitor's power, in that of period 1 the speed and thermal cascades, in
those of 0 and 8 the read power, bus voltage, current and sled cascades; a late result is not latched; a period without a
cascade, or a slot that has run, changes no cascade. OVERRUN_BANK_CHECK (R414): the check of the active banks raises event
1301 for a bank whose check word fails; with no check due nothing happens. -/
def Obligations.LoopPeriodSlotsKept : Prop :=
  (∀ (n : LaneId) (codes f : List Int) (ia ib : Int) (volts : List Int) (s : State), observerDue s n = true →
     ∃ t, exec (.observerUpdate n codes f ia ib volts false) s = .next t ∧
       (laneAt t n).loop.latch = some (observerCell (sampledState s n ia ib volts) n (detectorValues codes) f).1 ∧
       (laneAt t n).loop.x = (observerCell (sampledState s n ia ib volts) n (detectorValues codes) f).2.2.1 ∧
       (laneAt t n).loop.sampledAt = some (timerCount s) ∧ (laneAt t n).spin.ia = ia ∧ (laneAt t n).spin.ib = ib ∧
       (laneAt t n).spin.ic = -(ia + ib) ∧
       (laneAt t n).spin.theta = (((laneAt s n).spin.theta + (laneAt s n).spin.omega) % 2 ^ 40).toNat) ∧
  (∀ (n : LaneId) (codes f : List Int) (ia ib : Int) (volts : List Int) (s : State), observerDue s n = true →
     ∃ t, exec (.observerUpdate n codes f ia ib volts true) s = .next t ∧ (laneAt t n).loop.latch = none ∧
       (laneAt t n).loop.x = (laneAt (sampledState s n ia ib volts) n).loop.x ∧
       (laneAt t n).loop.sampledAt = some (timerCount s) ∧ (laneAt t n).spin.ia = ia ∧ (laneAt t n).spin.ib = ib ∧
       (laneAt t n).spin.ic = -(ia + ib) ∧
       (laneAt t n).spin.theta = (((laneAt s n).spin.theta + (laneAt s n).spin.omega) % 2 ^ 40).toNat) ∧
  (∀ (n : LaneId) (codes f : List Int) (ia ib : Int) (volts : List Int) (late : Bool) (s : State), observerDue s n = false →
     exec (.observerUpdate n codes f ia ib volts late) s = .next s) ∧
  (∀ (n : LaneId) (u : List Int) (s : State), releaseDue s n .actuator = true → (laneAt s n).loop.latch = some u →
     (laneAt s n).loop.sampledAt = some (sampleOf s .actuator) → (laneAt s n).loop.overrun.zeroNext = false →
     (laneAt s n).loop.overrun.zero = false →
     ∃ t, exec (.outputRelease n .actuator) s = .next t ∧ (laneAt t n).loop.released = u ∧ (laneAt t n).loop.latch = none ∧
       t.sent.head? = some (.drive n (withCrc (drivePayload s.pair.hold { laneAt s n with loop := { (laneAt s n).loop with
         released := u, carrierSlot := lanePeriod s n % 8 } })))) ∧
  (∀ (n : LaneId) (s : State), releaseDue s n .actuator = true →
     ((laneAt s n).loop.latch = none ∨ (laneAt s n).loop.sampledAt ≠ some (sampleOf s .actuator)) →
     (laneAt s n).loop.overrun.zeroNext = false → (laneAt s n).loop.overrun.zero = false →
     ∃ t, exec (.outputRelease n .actuator) s = .next t ∧ (laneAt t n).loop.overrun.checkDue = true ∧
       (laneAt t n).loop.overrun.reloadObs = true ∧ (laneAt t n).loop.overrun.reloadBq = true ∧
       (laneAt t n).loop.overrun.zeroNext = true ∧ (laneAt t n).flt.safe = true ∧
       (laneAt t n).loop.released = (laneAt s n).loop.released) ∧
  (∀ (n : LaneId) (s : State), releaseDue s n .actuator = true → (laneAt s n).loop.overrun.zero = true →
     ∃ t, exec (.outputRelease n .actuator) s = .next t ∧ (laneAt t n).loop.released = [0, 0, 0]) ∧
  (∀ (n : LaneId) (lp : LoopId) (s : State), releaseDue s n lp = true → lp ≠ .actuator →
     (∀ c ∈ releaseSet (laneAt s n) lp, resultReady (laneAt s n) (sampleOf s lp) c = true) →
     ∃ t, exec (.outputRelease n lp) s = .next t ∧ ∀ c : Fin 6, c.val ∈ releaseSet (laneAt s n) lp →
       some (laneAt t n).loop.cascades[c].released = (laneAt s n).loop.cascades[c].latch ∧ (laneAt t n).loop.cascades[c].latch = none) ∧
  (∀ (n : LaneId) (lp : LoopId) (c : Nat) (s : State), releaseDue s n lp = true → lp ≠ .actuator → c ∈ releaseSet (laneAt s n) lp →
     resultReady (laneAt s n) (sampleOf s lp) c = false →
     ∃ t, exec (.outputRelease n lp) s = .next t ∧ (laneAt t n).loop.overrun.checkDue = true ∧ (laneAt t n).flt.safe = true ∧
       (laneAt t n).loop.cascades[Fin.ofNat 6 c].released = (laneAt s n).loop.cascades[Fin.ofNat 6 c].released) ∧
  (∀ (n : LaneId) (lp : LoopId) (s : State), releaseDue s n lp = false → exec (.outputRelease n lp) s = .next s) ∧
  (∀ (n : LaneId) (pm : Int) (late : List Nat) (s : State), slotDue s n = true → lanePeriod s n = 4 ∨ lanePeriod s n = 12 →
     (laneAt s n).loop.overrun.readPowerHeld = false → 3 ∉ late →
     ∃ t, exec (.biquadSlot n pm late) s = .next t ∧ (laneAt t n).loop.cascades[(3 : Fin 6)].out = (runOf (laneAt s n) 3 (256 * pm)).out ∧
       (laneAt t n).loop.cascades[(3 : Fin 6)].latch = some (runOf (laneAt s n) 3 (256 * pm)).out ∧
       (laneAt t n).loop.cascades[(3 : Fin 6)].secs = (runOf (laneAt s n) 3 (256 * pm)).secs) ∧
  (∀ (n : LaneId) (pm : Int) (late : List Nat) (s : State), slotDue s n = true → lanePeriod s n = 4 ∨ lanePeriod s n = 12 →
     (laneAt s n).loop.overrun.readPowerHeld = false → 3 ∈ late →
     ∃ t, exec (.biquadSlot n pm late) s = .next t ∧ (laneAt t n).loop.cascades[(3 : Fin 6)].latch = none ∧
       (laneAt t n).loop.cascades[(3 : Fin 6)].out = (laneAt s n).loop.cascades[(3 : Fin 6)].out ∧
       (laneAt t n).loop.cascades[(3 : Fin 6)].secs = (laneAt s n).loop.cascades[(3 : Fin 6)].secs) ∧
  (∀ (n : LaneId) (pm : Int) (late : List Nat) (s : State), slotDue s n = true → lanePeriod s n = 1 →
     (laneAt s n).loop.overrun.spindleHeld = false → (laneAt s n).loop.overrun.stopped = false → 0 ∉ late → 5 ∉ late →
     ∃ t, exec (.biquadSlot n pm late) s = .next t ∧
       (laneAt t n).loop.cascades[(0 : Fin 6)].latch =
         some (runOf (laneAt s n) 0 (sat32 ((laneAt s n).spin.ref * 2 ^ 23 / 2400000000 - speedQ (laneAt s n).spin))).out ∧
       (laneAt t n).loop.cascades[(5 : Fin 6)].latch =
         some (runOf (laneAt s n) 5 (milliQ (1000 * (lcfg s n 0x85 5 : Nat) - 100 * (thermal s n / 2 ^ 20)))).out) ∧
  (∀ (n : LaneId) (pm : Int) (late : List Nat) (s : State), slotDue s n = true → lanePeriod s n = 8 ∨ lanePeriod s n = 0 →
     (laneAt s n).loop.overrun.readPowerHeld = false → (laneAt s n).loop.overrun.spindleHeld = false →
     (laneAt s n).loop.overrun.stopped = false → (laneAt s n).loop.overrun.sledHeld = false →
     (laneAt s n).loop.overrun.reloadBq = false → (laneAt s n).loop.banks.bqPending = false → late = [] →
     (lanePeriod s n = 0 → (laneAt s n).spin.stopping = false) →
     ∃ t, exec (.biquadSlot n pm late) s = .next t ∧
       (laneAt t n).loop.cascades[(3 : Fin 6)].latch = some (runOf (laneAt s n) 3 (256 * pm)).out ∧
       (laneAt t n).loop.cascades[(4 : Fin 6)].latch =
         some (runOf (laneAt s n) 4 (milliQ ((cfg s (segIdx (segOf n)) 4 : Nat) - (s.segs[segOf n].mv : Int)))).out ∧
       (laneAt t n).loop.cascades[(2 : Fin 6)].latch = some (runOf (laneAt s n) 2 ((laneAt s n).loop.released.getD 1 0)).out ∧
       (laneAt t n).loop.cascades[(1 : Fin 6)].latch.isSome = true) ∧
  (∀ (n : LaneId) (pm : Int) (late : List Nat) (s : State), lanePeriod s n ∉ [0, 1, 4, 8, 12] →
     ∃ t, exec (.biquadSlot n pm late) s = .next t ∧ (laneAt t n).loop.cascades = (laneAt s n).loop.cascades) ∧
  (∀ (n : LaneId) (pm : Int) (late : List Nat) (s : State), slotDue s n = false → exec (.biquadSlot n pm late) s = .next s) ∧
  (∀ (n : LaneId) (s : State), (laneAt s n).loop.overrun.checkDue = true → bankCheck (laneAt s n).loop.banks.obsActive = true →
     bankCheck (laneAt s n).loop.banks.bqActive = false →
     ∃ t, exec (.overrunBankCheck n) s = .next t ∧ (laneAt t n).loop.overrun.checkDue = false ∧
       lastEvent t = some (0x1301, evData [.u8 n.val, .u8 1])) ∧
  (∀ (n : LaneId) (s : State), (laneAt s n).loop.overrun.checkDue = true → bankCheck (laneAt s n).loop.banks.obsActive = false →
     bankCheck (laneAt s n).loop.banks.bqActive = true →
     ∃ t, exec (.overrunBankCheck n) s = .next t ∧ (laneAt t n).loop.overrun.checkDue = false ∧
       lastEvent t = some (0x1301, evData [.u8 n.val, .u8 0])) ∧
  (∀ (n : LaneId) (s : State), (laneAt s n).loop.overrun.checkDue = true → bankCheck (laneAt s n).loop.banks.obsActive = true →
     bankCheck (laneAt s n).loop.banks.bqActive = true →
     ∃ t, exec (.overrunBankCheck n) s = .next t ∧ (laneAt t n).loop.overrun.checkDue = false ∧ t.log = s.log) ∧
  (∀ (n : LaneId) (s : State), (laneAt s n).loop.overrun.checkDue = false → exec (.overrunBankCheck n) s = .next s)

/-- The bridge is stepped, and the angle corrected, as the rotor's crossings say. COMMUTATION_STEP, ZERO_CROSSING (R424, R426,
R427, R429, R431): at the carrier period's start a bridge in DRIVE, in open or closed loop, steps where a step falls within
the period, and else keeps its STEP with COMM_OFFSET 0; another bridge keeps its command; at no other instant does anything
happen. A crossing that the samples enclose corrects angle and speed in closed loop, where it lies in the window, is kept for
the handover in the last quarter of the ramp, and corrects nothing else; without such samples nothing happens. -/
def Obligations.CommutationFollowsTheRotor : Prop :=
  (∀ (n : LaneId) (s : State), ¬(levelsRun s = true ∧ lanePhase s n % 100000 = 50000 ∧ (laneAt s n).spin.commAt ≠ some (timerCount s)) →
     exec (.commutationStep n) s = .next s) ∧
  (∀ (n : LaneId) (s : State), levelsRun s = true → lanePhase s n % 100000 = 50000 → (laneAt s n).spin.commAt ≠ some (timerCount s) →
     ¬((laneAt s n).spin.mode = 1 ∧ ((laneAt s n).spin.phase = 2 ∨ (laneAt s n).spin.phase = 3)) →
     ∃ t, exec (.commutationStep n) s = .next t ∧ (laneAt t n).spin = { (laneAt s n).spin with commAt := some (timerCount s) }) ∧
  (∀ (n : LaneId) (s : State), levelsRun s = true → lanePhase s n % 100000 = 50000 → (laneAt s n).spin.commAt ≠ some (timerCount s) →
     (laneAt s n).spin.mode = 1 → (laneAt s n).spin.phase = 3 → (laneAt s n).spin.omega ≤ 0 →
     ∃ t, exec (.commutationStep n) s = .next t ∧
       (laneAt t n).spin = { (laneAt s n).spin with commAt := some (timerCount s), commOffset := 0 }) ∧
  (∀ (n : LaneId) (s : State) (phi k k2 : Int), levelsRun s = true → lanePhase s n % 100000 = 50000 →
     (laneAt s n).spin.commAt ≠ some (timerCount s) → (laneAt s n).spin.mode = 1 →
     (laneAt s n).spin.phase = 2 ∨ (laneAt s n).spin.phase = 3 →
     phi = (((laneAt s n).spin.theta : Int) - (deciDegrees (lcfg s n 0x82 1) - deciDegrees 300)) % 2 ^ 40 →
     k = phi * 6 / 2 ^ 40 → k2 = (phi + 8 * (laneAt s n).spin.omega) * 6 / 2 ^ 40 → 0 < (laneAt s n).spin.omega → k < k2 →
     ∃ t, exec (.commutationStep n) s = .next t ∧ (laneAt t n).spin.step = ((k + 1) % 6).toNat ∧
       (laneAt t n).spin.commOffset = (((k + 1) * 2 ^ 40 / 6 - phi) * 256 / (8 * (laneAt s n).spin.omega)).toNat % 256) ∧
  (∀ (n : LaneId) (s : State), crossingAge ((laneAt s n).loop.sampledAt.getD 0) (laneAt s n).spin = none →
     exec (.zeroCrossing n) s = .next s) ∧
  (∀ (n : LaneId) (age : Nat) (e : Int) (s : State), crossingAge ((laneAt s n).loop.sampledAt.getD 0) (laneAt s n).spin = some age →
     (laneAt s n).spin.phase = 3 → e = crossingError (laneAt s n).spin age →
     -deciDegrees (lcfg s n 0x82 4) ≤ e → e ≤ deciDegrees (lcfg s n 0x82 4) →
     ∃ t, exec (.zeroCrossing n) s = .next t ∧ (laneAt t n).spin.lastCross = 0 ∧
       (laneAt t n).spin.theta = (((laneAt s n).spin.theta + lcfgInt s n 0x82 2 * e / 32768) % 2 ^ 40).toNat ∧
       (laneAt t n).spin.omega =
         (laneAt s n).spin.omega + lcfgInt s n 0x82 3 * e * (6 * (laneAt s n).spin.omega) / (32768 * 2 ^ 40)) ∧
  (∀ (n : LaneId) (age : Nat) (e : Int) (s : State), crossingAge ((laneAt s n).loop.sampledAt.getD 0) (laneAt s n).spin = some age →
     (laneAt s n).spin.phase = 3 → e = crossingError (laneAt s n).spin age →
     (e < -deciDegrees (lcfg s n 0x82 4) ∨ deciDegrees (lcfg s n 0x82 4) < e) →
     ∃ t, exec (.zeroCrossing n) s = .next t ∧ (laneAt t n).spin = { (laneAt s n).spin with crossing := [] }) ∧
  (∀ (n : LaneId) (age : Nat) (s : State), crossingAge ((laneAt s n).loop.sampledAt.getD 0) (laneAt s n).spin = some age →
     (laneAt s n).spin.phase = 2 → 3 * openLoopTop ≤ 4 * (laneAt s n).spin.omega →
     ∃ t, exec (.zeroCrossing n) s = .next t ∧ (laneAt t n).spin.theta = (laneAt s n).spin.theta ∧
       (laneAt t n).spin.handover = (crossingError (laneAt s n).spin age :: (laneAt s n).spin.handover).take 16)

/-- A start from rest, a lost rotor, flying restarts and short braking. START_FROM_REST, HANDOVER, OPEN_LOOP_TIMEOUT, COAST_END
(R430 to R433): the rotor's sector starts the open-loop ramp in the next STEP; without a sector the start fails with event
1401, reason 1, and fault 1104; the handover closes the loop at 240 rpm; a ramp that is not handed over in time floats, fails
with event 1401, reason 2, and is put into the safe condition; a coasting rotor is short-braked once its back-EMF has fallen.
ROTOR_LOST, FLYING_RESTART, FLYING_RESTART_TIMEOUT (R446 to R448): a lost rotor is a fault 1104 and floats for a flying
restart; a restart that succeeds resumes closed loop at the speed measured, with event 1403, and one that fails, or is not
done within two electrical revolutions, short-brakes, with event 1403 and re-entry at PARKED. -/
def Obligations.SpindlesStartAndRestart : Prop :=
  (∀ (n : LaneId) (peaks : List (List Nat)) (k : Nat) (s : State), (laneAt s n).spin.phase = 1 → rotorSector peaks = some k →
     ∃ t, exec (.startFromRest n peaks) s = .next t ∧ (laneAt t n).spin.phase = 2 ∧ (laneAt t n).spin.mode = 1 ∧
       (laneAt t n).spin.step = (k + 1) % 6 ∧ (laneAt t n).spin.omega = 0) ∧
  (∀ (n : LaneId) (peaks : List (List Nat)) (s : State), (laneAt s n).spin.phase = 1 → rotorSector peaks = none →
     (laneAt s n).sled.queue = [] → (laneAt s n).flt.completions.length < 64 →
     ∃ t, exec (.startFromRest n peaks) s = .next t ∧ lastEvent t = some (0x1401, evData [.u8 n.val, .u8 1]) ∧
       .fault 0x1104 (laneAt s n).life.st ∈ (laneAt t n).flt.completions ∧ (laneAt t n).spin.phase = 0) ∧
  (∀ (n : LaneId) (s : State), (laneAt s n).spin.phase = 2 → lcfg s n 0x83 5 ≤ (laneAt s n).spin.handover.length →
     (∀ e ∈ (laneAt s n).spin.handover.take (lcfg s n 0x83 5), -deciDegrees 150 ≤ e ∧ e ≤ deciDegrees 150) →
     ∃ t, exec (.handover n) s = .next t ∧ (laneAt t n).spin.phase = 3 ∧ (laneAt t n).spin.ref = 2400000 * 240) ∧
  (∀ (n : LaneId) (s : State), (laneAt s n).spin.phase ≠ 2 ∨ (laneAt s n).spin.handover.length < lcfg s n 0x83 5 →
     exec (.handover n) s = .next s) ∧
  (∀ (n : LaneId) (s : State), (laneAt s n).spin.phase = 2 → 1200 ≤ (laneAt s n).spin.near →
     ∃ t, exec (.openLoopTimeout n) s = .next t ∧ lastEvent t = some (0x1401, evData [.u8 n.val, .u8 2]) ∧
       (laneAt t n).spin.phase = 4 ∧ (laneAt t n).spin.mode = 0 ∧ (laneAt t n).flt.safe = true) ∧
  (∀ (n : LaneId) (v : Nat) (s : State), (laneAt s n).spin.phase = 4 → v < lcfg s n 0x84 2 →
     ∃ t, exec (.coastEnd n v) s = .next t ∧ (laneAt t n).spin.phase = 5 ∧ (laneAt t n).spin.mode = 2 ∧ (laneAt t n).spin.duty = 0) ∧
  (∀ (n : LaneId) (s : State), rotorIsLost (laneAt s n).spin = true → lcfg s n 0x84 1 = 1 →
     (laneAt s n).sled.queue = [] → (laneAt s n).flt.completions.length < 64 →
     ∃ t, exec (.rotorLost n) s = .next t ∧ (laneAt t n).spin.phase = 6 ∧ (laneAt t n).spin.mode = 0 ∧
       (laneAt t n).spin.lostSpeed = speedCenti (laneAt s n).spin ∧ .fault 0x1104 (laneAt s n).life.st ∈ (laneAt t n).flt.completions) ∧
  (∀ (n : LaneId) (s : State), rotorIsLost (laneAt s n).spin = false → exec (.rotorLost n) s = .next s) ∧
  (∀ (n : LaneId) (b : BackEmf) (s : State), (laneAt s n).spin.phase = 6 → b.forward = true →
     restartInTime s (laneAt s n).spin = true → evenIntervals b.intervals = true →
     lcfg s n 0x84 2 ≤ b.amplitude →
     ∃ t, exec (.flyingRestart n b) s = .next t ∧ (laneAt t n).spin.phase = 3 ∧
       (laneAt t n).spin.omega = b.speed * 2 ^ 40 / 576000000 ∧
       lastEvent t = some (0x1403, evData [.u8 n.val, .u8 0, .u32 (b.speed.toNat / 100)])) ∧
  (∀ (n : LaneId) (b : BackEmf) (s : State), (laneAt s n).spin.phase = 6 → b.forward = false →
     ∃ t, exec (.flyingRestart n b) s = .next t ∧ (laneAt t n).spin.phase = 5 ∧ (laneAt t n).flt.reentry = .parked ∧
       lastEvent t = some (0x1403, evData [.u8 n.val, .u8 1, .u32 (b.speed.toNat / 100)])) ∧
  (∀ (n : LaneId) (s : State), (laneAt s n).spin.phase = 6 → restartInTime s (laneAt s n).spin = false →
     ∃ t, exec (.flyingRestartTimeout n) s = .next t ∧ (laneAt t n).spin.phase = 5 ∧ (laneAt t n).flt.reentry = .parked ∧
       lastEvent t = some (0x1403, evData [.u8 n.val, .u8 1, .u32 0]))

/-- Voltage limit, regeneration, chopper, overvoltage and the pacer. VOLTAGE_LIMIT_ENTER, VOLTAGE_LIMIT_EXIT, REGEN_TO_SHORT
(R439, R445, R451): after 10 ms at the limit the lane is voltage-limited, its speed and the bus voltage are recorded and event
1402 raised; after 10 ms below it the lane is limited no more, and the record stands; after 2 ms of won selections a stop
short-brakes and a retarget coasts. BUS_SAMPLE, CHOP_FAILURE_DETECT, BUS_OVERVOLTAGE (R440, R441, R443): the chopper switches
on at 2240+:02 and off at 2240+:03 and holds between; a chopper that does not hold the bus fails with event 5101; 50 us at or
above the threshold is an overvoltage with event 5102, and a lane whose selected current is negative is put into the safe
condition. PACER_EVALUATION (R451 to R455): the velocity ordered, or in AUTO at the first evaluation the ceiling and then the
target of the demand, each held to the ceiling, is taken at once where it falls or the core supply covers it, and else waits
for the supply; a ceiling below 2,496 mm/s raises event 1404 once. CLEAR_CHOPPER_FAILURE (R441) clears the segment's failure
and nothing else of it. -/
def Obligations.SpindlesShareTheBus : Prop :=
  (∀ (n : LaneId) (s : State), (laneAt s n).spin.phase = 3 → (laneAt s n).spin.limited = false → 480 ≤ (laneAt s n).spin.atLimit →
     ∃ t, exec (.voltageLimitEnter n) s = .next t ∧ (laneAt t n).spin.limited = true ∧
       (laneAt t n).spin.limitSpeed = speedCenti (laneAt s n).spin ∧ (laneAt t n).spin.limitBus = s.segs[segOf n].mv ∧
       lastEvent t = some (0x1402,
         evData [.u8 n.val, .u32 ((speedCenti (laneAt s n).spin).toNat / 100), .u32 s.segs[segOf n].mv])) ∧
  (∀ (n : LaneId) (s : State), (laneAt s n).spin.limited = true → 480 ≤ (laneAt s n).spin.belowLimit →
     ∃ t, exec (.voltageLimitExit n) s = .next t ∧ (laneAt t n).spin.limited = false ∧
       (laneAt t n).spin.limitSpeed = (laneAt s n).spin.limitSpeed) ∧
  (∀ (n : LaneId) (s : State), (laneAt s n).spin.phase = 3 → 96 ≤ (laneAt s n).spin.regenWins → (laneAt s n).spin.stopping = true →
     ∃ t, exec (.regenToShort n) s = .next t ∧ (laneAt t n).spin.phase = 5 ∧ (laneAt t n).spin.mode = 2) ∧
  (∀ (n : LaneId) (s : State), (laneAt s n).spin.phase = 3 → 96 ≤ (laneAt s n).spin.regenWins → (laneAt s n).spin.stopping = false →
     ∃ t, exec (.regenToShort n) s = .next t ∧ (laneAt t n).spin.coast = true ∧ (laneAt t n).spin.phase = 3) ∧
  (∀ (g : SegId) (mv : Nat) (s : State),
     ∃ t, exec (.busSample g mv) s = .next t ∧ t.segs[g].mv = mv ∧
       (s.segs[g].failed = true → t.segs[g].chop = false) ∧
       (s.segs[g].failed = false → cfg s (segIdx g) 2 ≤ mv → t.segs[g].chop = true) ∧
       (s.segs[g].failed = false → mv < cfg s (segIdx g) 2 → mv ≤ cfg s (segIdx g) 3 → t.segs[g].chop = false) ∧
       (s.segs[g].failed = false → mv < cfg s (segIdx g) 2 → cfg s (segIdx g) 3 < mv → t.segs[g].chop = s.segs[g].chop) ∧
       ∀ h : SegId, h ≠ g → t.segs[h] = s.segs[h]) ∧
  (∀ (g : SegId) (s : State), s.segs[g].chop = true → s.segs[g].failed = false →
     384 * cfg s (segIdx g) 6 ≤ 1000 * s.segs[g].chopFor → s.segs[g].chopMv < s.segs[g].mv + 200 →
     ∃ t, exec (.chopFailureDetect g) s = .next t ∧ t.segs[g].failed = true ∧ t.segs[g].chop = false ∧
       lastEvent t = some (0x5101, evData [.u8 g.val, .u32 s.segs[g].mv])) ∧
  (∀ (g : SegId) (s : State), s.segs[g].overvoltage = false → 384 * 50 ≤ 1000 * s.segs[g].overFor →
     ∃ t, exec (.busOvervoltage g) s = .next t ∧ t.segs[g].overvoltage = true ∧ (lastEvent t).map (fun e => e.1) = some 0x5102 ∧
       ∀ n : LaneId, segOf n = g → (laneAt s n).loop.selected < 0 → (laneAt t n).flt.safe = true) ∧
  (∀ (n : LaneId) (c term : Nat) (s : State), lcfg s n 0x88 1 = 1 → ceilingOf s n = (c, term) → 2496 ≤ c →
     min (lcfg s n 0x88 2) c ≤ (laneAt s n).pace.v →
     ∃ t, exec (.pacerEvaluation n) s = .next t ∧ (laneAt t n).pace.v = min (lcfg s n 0x88 2) c ∧ (laneAt t n).pace.raise = none ∧
       (laneAt t n).pace.ceiling = c ∧ (laneAt t n).pace.term = term ∧ (laneAt t n).pace.begun = true ∧ t.log = s.log) ∧
  (∀ (n : LaneId) (c term : Nat) (s : State), ceilingOf s n = (c, term) → c < 2496 → (laneAt s n).pace.warned = false →
     ∃ t, exec (.pacerEvaluation n) s = .next t ∧ (laneAt t n).pace.warned = true ∧
       lastEvent t = some (0x1404, evData [.u8 n.val, .u32 c, .u8 term])) ∧
  (∀ (n : LaneId) (c term : Nat) (s : State), lcfg s n 0x88 1 = 1 → ceilingOf s n = (c, term) → 2496 ≤ c →
     (laneAt s n).pace.v < min (lcfg s n 0x88 2) c →
     ∃ t, exec (.pacerEvaluation n) s = .next t ∧
       (if supplyCovers s (if drawsRate (laneAt s n) then 138 * (min (lcfg s n 0x88 2) c - (laneAt s n).pace.v) else 0)
         then (laneAt t n).pace.v = min (lcfg s n 0x88 2) c ∧ (laneAt t n).pace.raise = none
         else (laneAt t n).pace.v = (laneAt s n).pace.v ∧ (laneAt t n).pace.raise = some (min (lcfg s n 0x88 2) c))) ∧
  (∀ (n : LaneId) (c term : Nat) (s : State), lcfg s n 0x88 1 ≠ 1 → ceilingOf s n = (c, term) → 2496 ≤ c →
     (laneAt s n).pace.begun = false → c ≤ (laneAt s n).pace.v →
     ∃ t, exec (.pacerEvaluation n) s = .next t ∧ (laneAt t n).pace.v = c ∧ (laneAt t n).pace.raise = none ∧ (laneAt t n).pace.begun = true) ∧
  (∀ (n : LaneId) (u : TeamId) (c term : Nat) (s : State), lcfg s n 0x88 1 ≠ 1 → ceilingOf s n = (c, term) → 2496 ≤ c →
     (laneAt s n).pace.begun = true → teamOfLane s n = some u → (teamAt s u).history = true →
     (laneAt s n).pace.v < min (max (targetVelocity s n (demandNext s n).1) 2496) c →
     supplyCovers s (if drawsRate (laneAt s n)
       then 138 * (min (max (targetVelocity s n (demandNext s n).1) 2496) c - (laneAt s n).pace.v) else 0) = true →
     ∃ t, exec (.pacerEvaluation n) s = .next t ∧
       (laneAt t n).pace.v = min (max (targetVelocity s n (demandNext s n).1) 2496) c ∧ (laneAt t n).pace.demand = (demandNext s n).1) ∧
  (∀ (who : Who) (g : SegId) (v : Bytes) (s : State), writePasses s who (segIdx g) 8 v = true → needsAck s = false →
     ∃ t, exec (.clearChopperFailure who g v) s = .next t ∧ answered t who (segIdx g) 8 0 ∧
       t.segs[g] = { s.segs[g] with failed := false } ∧ t.dict.reg = s.dict.reg)

/-- The core supply follows the velocities and their raises. CORE_SUPPLY_CHANGE, CORE_SUPPLY_IN_FORCE (R72, R73, R811): the set-
point becomes the voltage that the rates with the pending raises need, not below 2210:02, while the supply stands; a set-point
that covers the velocities in force comes into force, and the raises that it covers take force together, or wait where it does
not cover them; one that has come to lie below what they need does not come into force. -/
def Obligations.CoreSupplyFollowsTheRates : Prop :=
  (∀ s : State, ∃ t, exec .coreSupplyChange s = .next t ∧
     t.coreGoal = max (coverMv (rateSum s + raiseSum s)) (cfg s 0x2210 2) ∧ t.coreMv = s.coreMv) ∧
  (∀ s : State, needMv s (raiseSum s) ≤ s.coreGoal →
     ∃ t, exec .coreSupplyInForce s = .next t ∧ t.coreMv = s.coreGoal ∧
       ∀ n : LaneId, (laneAt t n).pace.raise = none ∧ (laneAt t n).pace.v = (laneAt s n).pace.raise.getD (laneAt s n).pace.v) ∧
  (∀ s : State, needMv s 0 ≤ s.coreGoal → s.coreGoal < needMv s (raiseSum s) →
     ∃ t, exec .coreSupplyInForce s = .next t ∧ t.coreMv = s.coreGoal ∧ ∀ n : LaneId, laneAt t n = laneAt s n) ∧
  (∀ s : State, s.coreGoal < needMv s 0 → exec .coreSupplyInForce s = .next s)

/-- HELLO and PROVE open a session; a DISCOVER is answered; the device announces itself. HELLO, PROVE, PROVE_TIMEOUT (R107, R109,
R110): a HELLO of a slot that holds a key and a role answers a nonce and a session number; the right proof in time opens the
session, with the slot's role and the derived key, and ends the exchange; after five failed proofs a HELLO is answered 0203
and changes nothing; a PROVE of no exchange fails with status 0203, is counted, and opens nothing; an exchange that has waited
2 s ends. DISCOVER, DISCOVER_REPLY, ANNOUNCE (R130 to R132): a DISCOVER without a session waits for its answer; the oldest is
answered with frame B0 from the address that was asked, or from the link-local one where the group was; on each enabled port
whose link is up an ANNOUNCE is sent to the group with hop limit 1. That no ANNOUNCE comes sooner than 990 ms after the last
is DEDUCED (log entry 20). -/
def Obligations.SessionsOpenAndDiscovery : Prop :=
  (∀ (p : PortId) (own addr ns : Bytes) (uport seq : Nat) (k : Fin 8) (s : State), own ∈ ownAddresses s p → listens s p = true → ns.length = 32 → seq < 2 ^ 32 →
     recentFails s < 5 → (s.dict.keys[k]).isSome = true → cfg s 0x1111 (k.val + 1) ≠ 0 →
     allSlots.all (fun i => (s.dict.sessions[i]).isSome) = false →
     ∃ t, exec (.hello (gram p own addr uport (kyeriHeader 1 0 seq 0 (ns ++ [byte (k.val + 1)])))) s = .next t ∧
       t.dict.hellos = s.dict.hellos ++
         [{ number := s.dict.nextSession, ns := ns, nd := (drawBytes 32 s).1, slot := k.val, tick := s.ticks }] ∧
       t.dict.nextSession = s.dict.nextSession + 1 ∧
       t.sent.head? = some (.kyeri p own addr uport (kyeriHeader 0x81 0 0 0 ((drawBytes 32 s).1 ++ toLE 4 s.dict.nextSession)))) ∧
  (∀ (p : PortId) (own addr body : Bytes) (uport seq : Nat) (s : State), own ∈ ownAddresses s p → listens s p = true → body.length = 33 → seq < 2 ^ 32 →
     5 ≤ recentFails s →
     ∃ t, exec (.hello (gram p own addr uport (kyeriHeader 1 0 seq 0 body))) s = .next t ∧ t.dict = s.dict ∧
       t.sent.head? = some (.kyeri p own addr uport (kyeriHeader 0x81 0 0 0x0203 []))) ∧
  (∀ (p : PortId) (own addr key : Bytes) (uport : Nat) (h : Hello) (slot : Fin 8) (s : State), own ∈ ownAddresses s p → listens s p = true →
     0 < h.number ∧ h.number < 2 ^ 32 → h.slot < 8 → sessionOf s h.number = none →
     s.dict.hellos.find? (fun g => decide (g.number = h.number)) = some h → s.dict.keys[Fin.ofNat 8 h.slot] = some key →
     cfg s 0x1111 (h.slot + 1) ≠ 0 → passed s h.tick (secTicks 2) = false →
     allSlots.find? (fun i => (s.dict.sessions[i]).isNone) = some slot →
     ∃ t, exec (.prove (gram p own addr uport (proveFrame h key))) s = .next t ∧
       (t.dict.sessions[slot]).map (fun y => (y.number, y.role, y.slot, y.key, y.highest)) =
         some (h.number, cfg s 0x1111 (h.slot + 1), h.slot, exchangeKey h key, 1) ∧
       t.dict.hellos = s.dict.hellos.filter (fun g => decide (g.number ≠ h.number))) ∧
  (∀ (p : PortId) (own addr body tag : Bytes) (uport number seq : Nat) (s : State), own ∈ ownAddresses s p → listens s p = true → 0 < number ∧ number < 2 ^ 32 →
     seq < 2 ^ 32 → body.length ≤ 1200 → tag.length = 16 → sessionOf s number = none →
     s.dict.hellos.find? (fun g => decide (g.number = number)) = none →
     ∃ t, exec (.prove (gram p own addr uport (kyeriHeader 2 number seq 0 body ++ tag))) s = .next t ∧
       t.dict.proofFails = s.ticks :: s.dict.proofFails ∧ cfg t 0x1122 1 = (cfg s 0x1122 1 + 1) % 2 ^ 32 ∧
       (∀ i : Fin 8, (t.dict.sessions[i]).isSome = (s.dict.sessions[i]).isSome) ∧
       t.sent.head? = some (.kyeri p own addr uport (kyeriHeader 0x82 0 seq 0x0203 []))) ∧
  (∀ (number : Nat) (s : State), ∃ t, exec (.proveTimeout number) s = .next t ∧
     t.dict.hellos = s.dict.hellos.filter (fun h => !(decide (h.number = number) && passed s h.tick (secTicks 2)))) ∧
  (∀ (p : PortId) (own addr : Bytes) (uport seq : Nat) (s : State), own ∈ ownAddresses s p → listens s p = true → seq < 2 ^ 32 →
     ∃ t, exec (.discover (gram p own addr uport (kyeriHeader 0x30 0 seq 0 []))) s = .next t ∧
       t.dict.discoveries = s.dict.discoveries ++ [{ port := p, own := own, addr := addr, uport := uport, tick := s.ticks }] ∧ t.sent = s.sent) ∧
  (∀ (q : Discovery) (rest : List Discovery) (s : State), s.dict.discoveries = q :: rest → q.own ≠ announceGroup →
     ∃ t, exec .discoverReply s = .next t ∧ t.dict.discoveries = rest ∧
       t.sent = .kyeri q.port q.own q.addr q.uport (kyeriHeader 0xB0 0 0 0 (announceBody s)) :: s.sent) ∧
  (∀ (q : Discovery) (rest : List Discovery) (s : State), s.dict.discoveries = q :: rest → q.own = announceGroup →
     ∃ t, exec .discoverReply s = .next t ∧ t.dict.discoveries = rest ∧
       t.sent = .kyeri q.port (linkLocal q.port) q.addr q.uport (kyeriHeader 0xB0 0 0 0 (announceBody s)) :: s.sent) ∧
  (∀ s : State, s.fw.booted = true → cfg s 0x1100 9 = 1 → s.dict.announced.all (fun t => passed s t (msTicks 990)) = true →
     s.ports.mdioUp = Vector.replicate 2 true → cfg s 0x1100 1 = 1 → cfg s 0x1100 2 = 1 →
     ∃ t, exec .announce s = .next t ∧ t.dict.announced = some s.ticks ∧
       t.sent = .announce 1 announceGroup 1 (kyeriHeader 0x31 0 0 0 (announceBody s)) ::
         .announce 0 announceGroup 1 (kyeriHeader 0x31 0 0 0 (announceBody s)) :: s.sent)

/-- A session without frames for the idle time is closed. SESSION_IDLE_TIMEOUT (R112): the session ends and its responses with it,
its held segments are discarded; before the time nothing happens. -/
def Obligations.IdleSessionCloses : Prop :=
  (∀ (slot : Fin 8) (x : Session) (s : State), s.dict.sessions[slot] = some x → passed s x.last (secTicks (cfg s 0x1100 0xB)) = true →
     ∃ t, exec (.sessionIdleTimeout slot) s = .next t ∧ t.dict.sessions[slot] = none ∧
       t.dict.held = s.dict.held.filter (fun h => decide (h.owner ≠ .session x.number)) ∧
       ∀ i : Fin 8, i ≠ slot → t.dict.sessions[i] = s.dict.sessions[i]) ∧
  (∀ (slot : Fin 8) (x : Session) (s : State), s.dict.sessions[slot] = some x → passed s x.last (secTicks (cfg s 0x1100 0xB)) = false →
     exec (.sessionIdleTimeout slot) s = .next s)

/-- Frames of a session: close, read, write, batch, event acknowledgement and the resending of events. CLOSE, KYERI_READ,
EVENT_ACK, EVENT_RESEND (R101 to R103, R136): a CLOSE ends the session, and is answered under it; a read answers the value's
length, the change counter and the value; an acknowledged event is sent no more; one that is not acknowledged is sent again
after 500 ms, four times at most. KYERI_WRITE, BATCH (R94, R95, R102, R103): a write in one segment puts the value in force
and is answered 0000; a batch of accepted plain writes puts all values in force; a batch with a count of 0 or above 32 is
answered 0302 with position 0 and changes no entry, and neither does a batch one of whose writes fails. -/
def Obligations.SessionFramesAndWrites : Prop :=
  (∀ (p : PortId) (own addr body : Bytes) (uport seq : Nat) (slot : Fin 8) (x : Session) (s : State), own ∈ ownAddresses s p → hears s p slot x seq body = true →
     ∃ t, exec (.close (gram p own addr uport (sessionFrame x 3 seq 0 body))) s = .next t ∧
       t.dict.sessions[slot] = none ∧ t.dict.held = s.dict.held.filter (fun h => decide (h.owner ≠ .session x.number)) ∧
       t.dict.eventWaits = s.dict.eventWaits.filter (fun w => decide (w.slot ≠ slot.val)) ∧
       t.sent.head? = some (.kyeri p own addr uport (sessionFrame x 0x83 seq 0 []))) ∧
  (∀ (p : PortId) (own addr v : Bytes) (uport seq index sub : Nat) (slot : Fin 8) (x : Session) (s : State), own ∈ ownAddresses s p →
     hears s p slot x seq [] = true → index < 65536 → sub < 256 → 0 < v.length → v.length ≤ 1180 →
     readAccess (heard s p own addr uport slot x seq) (.session slot) index sub = .ok v →
     ∃ t, exec (.kyeriRead (gram p own addr uport (sessionFrame x 0x10 seq 0
         (toLE 2 index ++ [byte sub, 0] ++ toLE 4 0 ++ toLE 2 v.length)))) s = .next t ∧
       t.sent.head? = some (.kyeri p own addr uport
         (sessionFrame x 0x90 seq 0 (toLE 4 v.length ++ toLE 4 (changeOf s index sub) ++ v))) ∧ t.dict.reg = s.dict.reg) ∧
  (∀ (p : PortId) (own addr : Bytes) (uport seq k : Nat) (slot : Fin 8) (x : Session) (s : State), own ∈ ownAddresses s p → hears s p slot x seq [] = true → k < 2 ^ 32 →
     ∃ t, exec (.eventAck (gram p own addr uport (sessionFrame x 0x21 seq 0 (toLE 4 k)))) s = .next t ∧
       t.dict.eventWaits = s.dict.eventWaits.filter (fun w => !decide (w.slot = slot.val ∧ w.seq = k))) ∧
  (∀ (slot : Fin 8) (x : Session) (w : EventWait) (s : State), s.dict.sessions[slot] = some x → s.dict.eventWaits = [w] → w.slot = slot.val →
     passed s w.tick (msTicks 500) = true → w.sends < 5 →
     ∃ t, exec (.eventResend slot) s = .next t ∧ t.dict.eventWaits = [{ w with sends := w.sends + 1, tick := s.ticks }] ∧
       t.sent.head? = some (.kyeri x.port x.own x.addr x.uport (
         (kyeriHeader 0x20 x.number (x.txSeq + 1) 0 w.body) ++ kyeriTag x.key (kyeriHeader 0x20 x.number (x.txSeq + 1) 0 w.body)))) ∧
  (∀ (slot : Fin 8) (w : EventWait) (s : State), s.dict.eventWaits = [w] → w.slot = slot.val →
     passed s w.tick (msTicks 500) = true → 5 ≤ w.sends →
     ∃ t, exec (.eventResend slot) s = .next t ∧ t.dict.eventWaits = [] ∧ t.sent = s.sent) ∧
  (∀ (p : PortId) (own addr v : Bytes) (uport seq index sub : Nat) (slot : Fin 8) (x : Session) (s : State), own ∈ ownAddresses s p →
     hears s p slot x seq (List.replicate 12 0 ++ v) = true → index < 65536 → sub < 256 → plainEntry index sub = true →
     heldOf s (.session x.number) index sub = none → needsAck s = false →
     writePasses (heard s p own addr uport slot x seq) (.session slot) index sub v = true →
     ∃ t, exec (.kyeriWrite (gram p own addr uport (sessionFrame x 0x11 seq 0
         (toLE 2 index ++ [byte sub, 1] ++ toLE 4 0 ++ toLE 4 v.length ++ v)))) s = .next t ∧ stored t index sub = v ∧
       t.sent.head? = some (.kyeri p own addr uport (sessionFrame x 0x91 seq 0 []))) ∧
  (∀ (p : PortId) (own addr b : Bytes) (uport seq : Nat) (l : List Put) (scratch : State) (slot : Fin 8) (x : Session) (s : State), own ∈ ownAddresses s p →
     hears s p slot x seq ([0, 0, 0, 0] ++ b) = true → needsAck s = false → l.length < 256 → batchPuts l.length b = .ok l →
     (∀ q ∈ l, plainEntry q.index q.sub = true) → (l.map (fun q => regKey q.index q.sub)).Nodup →
     checkPuts (.session slot) false l 1 (heard s p own addr uport slot x seq) = .ok scratch → consistPuts scratch l 1 = none →
     ∃ t, exec (.batch (gram p own addr uport (sessionFrame x 0x12 seq 0 ([byte l.length, 0, 0, 0] ++ b)))) s = .next t ∧
       (∀ q ∈ l, stored t q.index q.sub = q.value) ∧ t.sent.head? = some (.kyeri p own addr uport (sessionFrame x 0x92 seq 0 [0]))) ∧
  (∀ (p : PortId) (own addr b : Bytes) (uport seq k : Nat) (slot : Fin 8) (x : Session) (s : State), own ∈ ownAddresses s p →
     hears s p slot x seq ([0, 0, 0, 0] ++ b) = true → k < 256 → (k = 0 ∨ 32 < k) →
     ∃ t, exec (.batch (gram p own addr uport (sessionFrame x 0x12 seq 0 ([byte k, 0, 0, 0] ++ b)))) s = .next t ∧
       t.dict.reg = s.dict.reg ∧ t.sent.head? = some (.kyeri p own addr uport (sessionFrame x 0x92 seq 0x0302 [0]))) ∧
  (∀ (p : PortId) (own addr b : Bytes) (uport seq e k : Nat) (l : List Put) (slot : Fin 8) (x : Session) (s : State), own ∈ ownAddresses s p →
     hears s p slot x seq ([0, 0, 0, 0] ++ b) = true → l.length < 256 → batchPuts l.length b = .ok l →
     (∀ q ∈ l, plainEntry q.index q.sub = true) → checkPuts (.session slot) false l 1 (heard s p own addr uport slot x seq) = .error (e, k) →
     ∃ t, exec (.batch (gram p own addr uport (sessionFrame x 0x12 seq 0 ([byte l.length, 0, 0, 0] ++ b)))) s = .next t ∧
       t.dict.reg = s.dict.reg ∧ t.sent.head? = some (.kyeri p own addr uport (sessionFrame x 0x92 seq e (toLE 1 k))))

/-- A write that a check refuses answers its status and changes nothing else. ENTRY_WRITE (R87, R29): the status of the first
check that fails is answered, whoever writes; nothing else changes. Check 8 (0304) is not made on a write that the peer has
sent: the ACTIVE made it over the whole batch (log entry 89). -/
def Obligations.RefusedWriteChangesNothing : Prop :=
  (∀ (who : Who) (index sub e : Nat) (v : Bytes) (s : State), ownBehaviour index sub = false → writeChecks s who index sub v = .error e →
     exec (.entryWrite who index sub v) s = .next (send (.answer who index sub e) s)) ∧
  (∀ (who : Who) (index sub : Nat) (v : Bytes) (en : Entry) (s : State), ownBehaviour index sub = false → who ≠ .peer →
     writeChecks s who index sub v = .ok en → consistent (store index sub v s) index sub = false →
     exec (.entryWrite who index sub v) s = .next (send (.answer who index sub 0x0304) s))

/-- An accepted write is in force when its status 0000 is answered. ENTRY_WRITE (R89, R93): the entry reads the value written, its
change counter has advanced, and every other entry keeps its value. The peer of a pair with a BATON link answers a shared
write later (R679), so the pair's link is down here. -/
def Obligations.AcceptedWriteTakesForce : Prop :=
  (∀ (who : Who) (index sub : Nat) (v : Bytes) (s : State), plainEntry index sub = true → writePasses s who index sub v = true →
     needsAck s = false → index < 65536 → sub < 256 →
     ∃ t, exec (.entryWrite who index sub v) s = .next t ∧ stored t index sub = v ∧
       changeOf t index sub = (changeOf s index sub + 1) % 2 ^ 32 ∧ answered t who index sub 0 ∧
       ∀ i j : Nat, j < 256 → (i ≠ index ∨ j ≠ sub) → stored t i j = stored s i j) ∧
  (∀ (index sub : Nat) (v : Bytes) (en : Entry) (s : State), plainEntry index sub = true → writeChecks s .peer index sub v = .ok en →
     needsAck s = false → index < 65536 → sub < 256 →
     ∃ t, exec (.entryWrite .peer index sub v) s = .next t ∧ stored t index sub = v ∧ answered t .peer index sub 0 ∧
       ∀ i j : Nat, j < 256 → (i ≠ index ∨ j ≠ sub) → stored t i j = stored s i j)

/-- Dictionary commands complete successfully with the dictionary's status. DICTIONARY_WRITE, DICTIONARY_READ, DICTIONARY_BATCH
(R114, R115): an accepted write puts the value in force and completes with status 0000 in Dword 0; a read transfers the value
and completes with the change counter in Dword 1; a batch of accepted plain writes puts all values in force. In each case the
completion is successful. -/
def Obligations.DictionaryOverNvme : Prop :=
  (∀ (c : CmdId) (index sub : Nat) (v : Bytes) (s : State), adminOpen s c = true → index < 65536 → sub < 256 →
     plainEntry index sub = true → heldOf s (.queue c.ctrl 0) index sub = none →
     writePasses (taken s c 0xC1) (.nvme c.ctrl) index sub v = true →
     ∃ t, exec (.dictionaryWrite c (index + 65536 * sub + 2 ^ 24) 0 v.length (.bytes v)) s = .next t ∧ stored t index sub = v ∧
       t.sent.take 2 = adminAnswer c 0 0 0 0) ∧
  (∀ (c : CmdId) (index sub len : Nat) (v : Bytes) (s : State), adminOpen s c = true → index < 65536 → sub < 256 → 0 < v.length →
     readAccess (taken s c 0xC2) (.nvme c.ctrl) index sub = .ok v → v.length ≤ len → v.length ≤ 65536 →
     ∃ t, exec (.dictionaryRead c (index + 65536 * sub) 0 len none) s = .next t ∧ t.dict = (taken s c 0xC2).dict ∧
       t.sent.take 3 = adminAnswer c 0 0 0 (changeOf s index sub) ++ [.data (adminId c) v]) ∧
  (∀ (c : CmdId) (b : Bytes) (l : List Put) (scratch : State) (s : State), adminOpen s c = true → batchPuts l.length b = .ok l →
     (∀ q ∈ l, plainEntry q.index q.sub = true) → (l.map (fun q => regKey q.index q.sub)).Nodup →
     checkPuts (.nvme c.ctrl) false l 1 (taken s c 0xC5) = .ok scratch → consistPuts scratch l 1 = none →
     ∃ t, exec (.dictionaryBatch c l.length (.bytes b)) s = .next t ∧ (∀ q ∈ l, stored t q.index q.sub = q.value) ∧
       t.sent.take 2 = adminAnswer c 0 0 0 0) ∧
  (∀ (c : CmdId) (k : Nat) (data : HostData) (s : State), adminOpen s c = true → (k = 0 ∨ 32 < k) →
     ∃ t, exec (.dictionaryBatch c k data) s = .next t ∧ t.dict = (taken s c 0xC5).dict ∧ t.sent.take 2 = adminAnswer c 0 0 0x0302 0)

/-- A new key, or the role 0, closes every session of the slot. KEY_SLOT_WRITE, KEY_ROLE_WRITE (R138, R139): over every writer
whose write passes the checks of R87. -/
def Obligations.KeySlotsAndRoles : Prop :=
  (∀ (who : Who) (n : Fin 8) (v : Bytes) (s : State), writePasses s who 0x1110 (n.val + 1) v = true → needsAck s = false → v ≠ [] →
     ∃ t, exec (.keySlotWrite who n v) s = .next t ∧ t.dict.keys[n] = some v ∧ answered t who 0x1110 (n.val + 1) 0 ∧
       (∀ i : Fin 8, (t.dict.sessions[i]).any (fun y => decide (y.slot = n.val)) = false) ∧
       ∀ i : Fin 8, (s.dict.sessions[i]).any (fun y => decide (y.slot = n.val)) = false → t.dict.sessions[i] = s.dict.sessions[i]) ∧
  (∀ (who : Who) (n : Fin 8) (s : State), writePasses s who 0x1111 (n.val + 1) [0] = true → needsAck s = false →
     ∃ t, exec (.keyRoleWrite who n [0]) s = .next t ∧ t.dict.keys[n] = none ∧ answered t who 0x1111 (n.val + 1) 0 ∧
       (∀ i : Fin 8, (t.dict.sessions[i]).any (fun y => decide (y.slot = n.val)) = false) ∧
       ∀ i : Fin 8, (s.dict.sessions[i]).any (fun y => decide (y.slot = n.val)) = false → t.dict.sessions[i] = s.dict.sessions[i]) ∧
  (∀ (who : Who) (n : Fin 8) (v : Bytes) (s : State), writePasses s who 0x1111 (n.val + 1) v = true → needsAck s = false → fromLE v ≠ 0 →
     ∃ t, exec (.keyRoleWrite who n v) s = .next t ∧ t.dict.keys = s.dict.keys ∧ t.dict.sessions = s.dict.sessions ∧
       stored t 0x1111 (n.val + 1) = v)

/-- A save is taken, written, verified and answered; factory defaults. SAVE, SAVE_DONE, RESTORE_FACTORY_DEFAULTS (R93, R120, R121,
R125, R725): a save takes the values in force into the copy without the highest valid generation; a second one is answered
0501 while it runs, and values too large for a copy 0502; a good read-back brings the copy into force, counts the write, takes
block 7 of the measurements anew and answers 0000 to whoever asked, a bad one answers 0601, leaves that copy bad and the
configuration in force; with no save running nothing happens. The restore puts the stored entries back to their defaults, but
for 1100 to 11FF, and is answered 0000. The peer of a pair with a BATON link answers a shared write later (R679), so the
pair's link is down where a save or a restore begins. -/
def Obligations.SavesAndDefaults : Prop :=
  (∀ (who : Who) (v : Bytes) (s : State), writePasses s who 0x2000 2 v = true → needsAck s = false → s.conf.save = none →
     ∃ t, exec (.save who v) s = .next t ∧
       (if (copyImage (highestGen s.conf + 1) (saveRecords s)).length ≤ 2 ^ 18 then t.sent = s.sent ∧ t.conf = { s.conf with save := some (
           SaveRun.mk (saveTarget s.conf) (copyImage (highestGen s.conf + 1) (saveRecords s)) s.ticks (.record who 0x2000 2)) }
         else t.conf = s.conf ∧ answered t who 0x2000 2 0x0502)) ∧
  (∀ (who : Who) (v : Bytes) (r : SaveRun) (s : State), writePasses s who 0x2000 2 v = true → s.conf.save = some r →
     ∃ t, exec (.save who v) s = .next t ∧ t.conf = s.conf ∧ answered t who 0x2000 2 0x0501) ∧
  (∀ (r : SaveRun) (s : State), s.conf.save = some r →
     exec (.saveDone true) s = .next (answerReply r.reply 0 (countChange 0x2000 2 { s with
         conf := { s.conf with
           save := none, inForce := some (field r.image 8 4, savedCheck (slice r.image 32 (field r.image 12 4)))
           copyA := if r.copy then s.conf.copyA else r.image, aBad := s.conf.aBad && r.copy
           copyB := if r.copy then r.image else s.conf.copyB, bBad := s.conf.bBad && !r.copy }
         fw := { s.fw with config := sha384 r.image } }))) ∧
  (∀ (r : SaveRun) (s : State), s.conf.save = some r →
     exec (.saveDone false) s = .next (answerReply r.reply 0x0601 { s with
         conf := { s.conf with
           save := none
           copyA := if r.copy then s.conf.copyA else [], aBad := s.conf.aBad || !r.copy
           copyB := if r.copy then [] else s.conf.copyB, bBad := s.conf.bBad || r.copy } })) ∧
  (∀ (who : Who) (k index sub : Nat) (s : State), answered (answerReply (.record who index sub) k s) who index sub k) ∧
  (∀ (ok : Bool) (s : State), s.conf.save = none → exec (.saveDone ok) s = .next s) ∧
  (∀ (who : Who) (v : Bytes) (s : State), writePasses s who 0x2000 4 v = true → needsAck s = false →
     exec (.restoreFactoryDefaults who v) s = .next (send (.answer who 0x2000 4 0) (settleTeams
       [{ index := 0x2000, sub := 4, value := v }] (countChange 0x2000 4 (restoreEffect s))))) ∧
  (∀ (index sub : Nat) (en : Entry) (s : State), sub < 256 → findEntry index sub = some en → en.acc = .rwp → isComm index = false →
     stored (restoreDefaults s) index sub = defaultOf ((laneOfIndex index).bind (pickupClass s)) index en)

/-- Presence line, pickup acceptance and departure. PRESENCE_SAMPLE, PRESENCE_CHANGE, PICKUP_ACCEPT (R150, R151): the lines are
sampled but in SLEEP; a change stands after 50 ms; a pickup that leaves a lane at rest brings it to OFF and its record away,
with event 1002; one whose ID does not answer or is wrong is refused with event 1003 and the reason, and one accepted is
recorded with event 1001. -/
def Obligations.PickupComesAndGoes : Prop :=
  (∀ (n : LaneId) (p d c : Bool) (s : State), s.power.unit ≠ 2 →
     ∃ t, exec (.presenceSample n p d c) s = .next t ∧
       (laneAt t n).life.presence = Line.sample s.ticks p (laneAt s n).life.presence ∧
       (laneAt t n).life.disc = Line.sample s.ticks d (laneAt s n).life.disc ∧
       (laneAt t n).life.clamp = Line.sample s.ticks c (laneAt s n).life.clamp ∧ (laneAt t n).life.st = (laneAt s n).life.st) ∧
  (∀ (n : LaneId) (s : State), (laneAt s n).life.presence.settled s.ticks = false → exec (.presenceChange n) s = .next s) ∧
  (∀ (n : LaneId) (s : State), s.power.unit ≠ 2 → (laneAt s n).life.presence.settled s.ticks = true →
     (laneAt s n).life.presence.raw = true →
     ∃ t, exec (.presenceChange n) s = .next t ∧ (laneAt t n).life.arriving = true ∧ (laneAt t n).life.presence.stable = true) ∧
  (∀ (n : LaneId) (p : Pickup) (s : State), s.power.unit ≠ 2 → (laneAt s n).life.presence.settled s.ticks = true →
     (laneAt s n).life.presence.raw = false → (laneAt s n).spin.phase = 0 → (laneAt s n).life.pickup = some p →
     ∃ t, exec (.presenceChange n) s = .next t ∧ (laneAt t n).life.pickup = none ∧ (laneAt t n).life.st = .off ∧
       (laneAt t n).links.driveTrained = false ∧ (laneAt t n).plife = PickupLife.reset ∧
       lastEvent t = some (0x1002, evData [.u8 n.val, .tail (unpad p.serial)])) ∧
  (∀ (n : LaneId) (s : State), (laneAt s n).life.arriving = true →
     ∃ t, exec (.pickupAccept n .noAnswer) s = .next t ∧ (laneAt t n).life.arriving = false ∧
       (laneAt t n).life.pickup = (laneAt s n).life.pickup ∧ lastEvent t = some (0x1003, evData [.u8 n.val, .u8 1])) ∧
  (∀ (n : LaneId) (b : Bytes) (temp : Int) (k : Nat) (s : State), (laneAt s n).life.arriving = true → idReason s b = some k →
     ∃ t, exec (.pickupAccept n (.read b temp)) s = .next t ∧ (laneAt t n).life.arriving = false ∧
       (laneAt t n).life.pickup = (laneAt s n).life.pickup ∧ lastEvent t = some (0x1003, evData [.u8 n.val, .u8 k])) ∧
  (∀ (n : LaneId) (b : Bytes) (temp : Int) (s : State), (laneAt s n).life.arriving = true → idReason s b = none →
     ∃ t, exec (.pickupAccept n (.read b temp)) s = .next t ∧
       (laneAt t n).life.pickup = some { serial := slice b 8 16, cls := field b 6 2, image := b } ∧ (laneAt t n).life.temp = temp ∧
       lastEvent t = some (0x1001, evData [.u8 n.val, .tail (unpad (slice b 8 16))]))

/-- Training of the DRIVE and LASER links. LINK_TRAINING_DONE, LINK_TRAINING_TIMEOUT, LINK_RETRAIN_RETRY (R154, R839): a trained
link is recorded with event 1802, and with both links trained homing begins; a training that has not come about in 1 ms is
tried again, three times in all, and ends with event 1003, reason 5 or 6; in FAULT it counts as a recovery attempt and is
tried again after 100 ms. -/
def Obligations.LinksTrainAndRetry : Prop :=
  (∀ (n : LaneId) (laser : Bool) (s : State),
     (if laser then (laneAt s n).links.laserTraining else (laneAt s n).links.driveTraining) = true → (laneAt s n).life.st ≠ .fault →
     ∃ t, exec (.linkTrainingDone n laser) s = .next t ∧
       (if laser then (laneAt t n).links.laserTrained else (laneAt t n).links.driveTrained) = true ∧
       (if laser then (laneAt t n).links.laserTraining else (laneAt t n).links.driveTraining) = false ∧
       lastEvent t = some (0x1802, evData [.u8 n.val, .u8 (b2n laser),
         .u32 (tickNs (s.ticks - (if laser then (laneAt s n).links.laserFrom else (laneAt s n).links.driveFrom)) / 1000)])) ∧
  (∀ (n : LaneId) (s : State), (laneAt s n).links.laserTraining = true → (laneAt s n).links.driveTrained = true → mayLeaveOff s n = true →
     (laneAt s n).life.homing = false →
     ∃ t, exec (.linkTrainingDone n true) s = .next t ∧ (laneAt t n).life.homing = true ∧ (laneAt t n).life.homed = false) ∧
  (∀ (n : LaneId) (laser : Bool) (s : State),
     (if laser then (laneAt s n).links.laserTraining else (laneAt s n).links.driveTraining) = true → (laneAt s n).life.st ≠ .fault →
     passed s (if laser then (laneAt s n).links.laserFrom else (laneAt s n).links.driveFrom) (msTicks 1) = true →
     (if laser then (laneAt s n).links.laserTries else (laneAt s n).links.driveTries) < 3 →
     ∃ t, exec (.linkTrainingTimeout n laser) s = .next t ∧ t.log = s.log ∧
       (if laser then (laneAt t n).links.laserTraining else (laneAt t n).links.driveTraining) = true ∧
       (if laser then (laneAt t n).links.laserTries else (laneAt t n).links.driveTries) =
         (if laser then (laneAt s n).links.laserTries else (laneAt s n).links.driveTries) + 1) ∧
  (∀ (n : LaneId) (laser : Bool) (s : State),
     (if laser then (laneAt s n).links.laserTraining else (laneAt s n).links.driveTraining) = true → (laneAt s n).life.st ≠ .fault →
     passed s (if laser then (laneAt s n).links.laserFrom else (laneAt s n).links.driveFrom) (msTicks 1) = true →
     3 ≤ (if laser then (laneAt s n).links.laserTries else (laneAt s n).links.driveTries) →
     ∃ t, exec (.linkTrainingTimeout n laser) s = .next t ∧
       (if laser then (laneAt t n).links.laserTraining else (laneAt t n).links.driveTraining) = false ∧
       lastEvent t = some (0x1003, evData [.u8 n.val, .u8 (if laser then 6 else 5)])) ∧
  (∀ (n : LaneId) (laser : Bool) (s : State),
     (if laser then (laneAt s n).links.laserTraining else (laneAt s n).links.driveTraining) = true → (laneAt s n).life.st = .fault →
     passed s (if laser then (laneAt s n).links.laserFrom else (laneAt s n).links.driveFrom) (msTicks 1) = true →
     ∃ t, exec (.linkTrainingTimeout n laser) s = .next t ∧ (laneAt t n).links.retrainAt = some s.ticks ∧
       (laneAt t n).flt.attempts = s.ticks :: attemptsNow s n) ∧
  (∀ (n : LaneId) (laser : Bool) (s : State),
     (if laser then (laneAt s n).links.laserTraining else (laneAt s n).links.driveTraining) = false →
     exec (.linkTrainingTimeout n laser) s = .next s ∧ exec (.linkTrainingDone n laser) s = .next s) ∧
  (∀ (n : LaneId) (laser : Bool) (t0 : Nat) (s : State), (laneAt s n).links.retrainAt = some t0 → (laneAt s n).life.st = .fault →
     (laneAt s n).flt.latched = false → (laneAt s n).links.driveTrained = false → (laneAt s n).links.driveTraining = false →
     (laneAt s n).links.laserTrained = false → (laneAt s n).links.laserTraining = false → passed s t0 (msTicks 100) = true →
     ∃ t, exec (.linkRetrainRetry n laser) s = .next t ∧ (laneAt t n).links.retrainAt = none ∧
       (if laser then (laneAt t n).links.laserTraining else (laneAt t n).links.driveTraining) = true)

/-- Homing ends parked or off; the pickup's temperature. HOMING_STALL, HOMING_NO_STALL, PICKUP_TEMP_READ (R154, R155, R840): the
stall ends homing in PARKED with the coordinate set; after 40 mm without a stall the lane is OFF again, with fault 1105; a
temperature read above OFF is kept with its highest, and at the limit the lane is put into the safe condition. -/
def Obligations.HomingAndTemperature : Prop :=
  (∀ (n : LaneId) (s : State), (laneAt s n).life.homing = true → sledStalled s n = true →
     ∃ t, exec (.homingStall n) s = .next t ∧ (laneAt t n).life.st = .parked ∧ (laneAt t n).life.homed = true ∧
       (laneAt t n).life.homing = false ∧ (laneAt t n).sled.p = 65536 * -256) ∧
  (∀ (n : LaneId) (s : State), sledStalled s n = false → exec (.homingStall n) s = .next s) ∧
  (∀ (n : LaneId) (s : State), (laneAt s n).life.homing = true → 2667 ≤ (laneAt s n).sled.homeSteps →
     (laneAt s n).life.st = .off → noFault (laneAt s n) = true →
     (laneAt s n).flt.completions.length < 64 →
     ∃ t, exec (.homingNoStall n) s = .next t ∧ (laneAt t n).life.st = .off ∧ (laneAt t n).life.homing = false ∧
       (laneAt t n).flt.last = 0x1105 ∧ lastEvent t = some (0x1105, evData [.u8 n.val, .u8 0, .u8 0])) ∧
  (∀ (n : LaneId) (s : State), (laneAt s n).life.homing = false → exec (.homingStall n) s = .next s ∧ exec (.homingNoStall n) s = .next s) ∧
  (∀ (n : LaneId) (temp : Int) (s : State), (laneAt s n).life.st ≠ .off →
     ∃ t, exec (.pickupTempRead n temp) s = .next t ∧ (laneAt t n).life.temp = temp ∧
       (laneAt t n).plife.highest = max (laneAt s n).plife.highest temp ∧
       (tempLimit s n ≤ temp → (laneAt s n).life.st ≠ .fault → (laneAt s n).flt.completions = [] → (laneAt t n).flt.safe = true)) ∧
  (∀ (n : LaneId) (temp : Int) (s : State), (laneAt s n).life.st = .off → exec (.pickupTempRead n temp) s = .next s)

/-- Disc status and the lead-in read. DISC_STATUS_CHANGE, LEAD_IN_READ_START, LEAD_IN_READ_COMPLETE (R156 to R158): a disc clamped
becomes known with event 2001; one that leaves is forgotten; a READY lane goes to the lead-in of layer 0 and reads it there,
which ends with the disc blank or identified, or unusable where no copy of a block was read. -/
def Obligations.DiscsComeGoAndAreRead : Prop :=
  (∀ (n : LaneId) (s : State), s.power.unit ≠ 2 → (laneAt s n).life.disc.settled s.ticks = true → (laneAt s n).life.disc.raw = true →
     (laneAt s n).life.clamp.settled s.ticks = false → (laneAt s n).life.clamp.stable = true → (laneAt s n).life.discKnown = false →
     (laneAt s n).life.st ≠ .off →
     ∃ t, exec (.discStatusChange n) s = .next t ∧ (laneAt t n).disc = some Disc.fresh ∧ (laneAt t n).life.discKnown = true ∧
       (laneAt t n).life.leadIn = .unread ∧ lastEvent t = some (0x2001, evData [.u8 n.val])) ∧
  (∀ (n : LaneId) (s : State), s.power.unit ≠ 2 → (laneAt s n).life.disc.settled s.ticks = true → (laneAt s n).life.disc.raw = false →
     (laneAt s n).life.clamp.stable = true →
     ∃ t, exec (.discStatusChange n) s = .next t ∧ (laneAt t n).disc = none ∧ (laneAt t n).life.discKnown = false ∧
       (laneAt t n).life.disc.stable = false) ∧
  (∀ (n : LaneId) (s : State), (laneAt s n).life.disc.settled s.ticks = false → (laneAt s n).life.clamp.settled s.ticks = false →
     exec (.discStatusChange n) s = .next s) ∧
  (∀ (n : LaneId) (s : State), (laneAt s n).life.st = .ready → (laneAt s n).life.ramping = false →
     atExtentBoundary (laneAt s n) = true → clamped (laneAt s n) = true → leadInDue s n = true → (laneAt s n).life.layer = some 0 →
     standsAt (laneAt s n) 220 = true → readable s n = true →
     ∃ t, exec (.leadInReadStart n) s = .next t ∧ (laneAt t n).life.st = .reading ∧ (laneAt t n).life.leadIn = .reading ∧
       (laneAt t n).rd.jobs = leadJobs 0) ∧
  (∀ (n : LaneId) (s : State), (laneAt s n).life.st = .ready → (laneAt s n).life.ramping = false →
     atExtentBoundary (laneAt s n) = true → clamped (laneAt s n) = true → leadInDue s n = true →
     ((laneAt s n).life.layer ≠ some 0 ∨ standsAt (laneAt s n) 220 = false) →
     ∃ t, exec (.leadInReadStart n) s = .next t ∧ (laneAt t n).life.targetLayer = 0 ∧ (laneAt t n).life.targetBand = 220 ∧
       (laneAt t n).life.st = .ready) ∧
  (∀ (n : LaneId) (r : LeadIn) (s : State), (laneAt s n).life.st = .reading → (laneAt s n).life.leadIn = .reading → creating s n = none →
     leadBlocks r = none →
     ∃ t, exec (.leadInReadComplete n r) s = .next t ∧ (laneAt t n).life.leadIn = .unusable) ∧
  (∀ (n : LaneId) (r : LeadIn) (bs : List Bytes) (s : State), (laneAt s n).life.st = .reading → (laneAt s n).life.leadIn = .reading →
     creating s n = none → leadBlocks r = some bs → mediaOk (discFrom bs r).media = true →
     ∃ t, exec (.leadInReadComplete n r) s = .next t ∧
       (laneAt t n).life.volume = (discFrom bs r).volumeRec.take 16 ∧
       (laneAt t n).life.leadIn = (if (discFrom bs r).volumeRec.isEmpty then .blank else .identified))

/-- Team membership, volume creation and the team's state. TEAM_MEMBERS_WRITE, CREATE_VOLUME, VOLUME_CREATED (R163, R177): a
membership written is in force and every team is judged anew; a blank team starts its creation, another one answers 0304; a
creation read back on all members ends. A team without a creation has the state that its members' discs give it. -/
def Obligations.VolumesAndTeams : Prop :=
  (∀ (who : Who) (u : TeamId) (v : Bytes) (s : State), writePasses s who (teamIdx u 0) 1 v = true → needsAck s = false →
     exec (.teamMembersWrite who u v) s = .next (send (.answer who (teamIdx u 0) 1 0)
       (settleTeams [{ index := teamIdx u 0, sub := 1, value := v }]
         (countChange (teamIdx u 0) 1 (store (teamIdx u 0) 1 v s))))) ∧
  (∀ (u : TeamId) (cause : Option LaneId) (s : State), (teamAt s u).creation = none →
     (teamAt (evaluateTeam u cause s) u).st = teamVerdict (seenMembers s u)) ∧
  (∀ (who : Who) (u : TeamId) (v : Bytes) (s : State), writePasses s who (teamIdx u 0) 5 v = true → needsAck s = false →
     (teamAt s u).st = .blank → (teamAt s u).creation = none →
     ∃ t, exec (.createVolume who u v) s = .next t ∧ answered t who (teamIdx u 0) 5 0 ∧ (teamAt t u).creation =
       some { volume := toLE 8 (timeNow s) ++ Sys2Proof.Config.serialNumber.toList.drop 4, written := [], readBack := [] }) ∧
  (∀ (who : Who) (u : TeamId) (v : Bytes) (s : State), writePasses s who (teamIdx u 0) 5 v = true → (teamAt s u).st ≠ .blank →
     exec (.createVolume who u v) s = .next (send (.answer who (teamIdx u 0) 5 0x0304) s)) ∧
  (∀ (u : TeamId) (c : Creation) (s : State), (teamAt s u).creation = some c → (membersOf s u).all (fun n => c.readBack.contains n) = true →
     ∃ t, exec (.volumeCreated u) s = .next t ∧ (teamAt t u).creation = none) ∧
  (∀ (u : TeamId) (c : Creation) (s : State), (teamAt s u).creation = some c → (membersOf s u).all (fun n => c.readBack.contains n) = false →
     exec (.volumeCreated u) s = .next s)

/-- A write session closes when due; the recovery scan closes an open one. SESSION_CLOSE_DUE, SESSION_CLOSE_WRITE, RECOVERY_SCAN,
RECOVERY_SCAN_END (R213, R215, R216, R225, R226): the session is due by its length or after its idle time; on a lane in place
the close is written first to the primary, then to the backup lead-in, and with both verified the epoch stands closed; a copy
that does not verify uses its slot and stays due; the scan holds the lane's commands, and what it has read makes a close of
the open epoch, of kind 2, due. -/
def Obligations.WriteSessionsClose : Prop :=
  (∀ (n : LaneId) (d : Disc) (s : State), (laneAt s n).disc = some d → d.openEpoch ≠ 0 → d.scanDue = false → d.closeDue = none →
     readyUp (laneAt s n).life.st = true →
     ∃ t, exec (.sessionCloseDue n) s = .next t ∧ (laneAt t n).disc.map (fun x => x.closeDue) = some (
       if passed s d.sessionTick (secTicks (lcfg s n 0x21 2)) then some 1
       else if passed s d.lastStart (secTicks (lcfg s n 0x21 1)) then some 0 else none)) ∧
  (∀ (n : LaneId) (d : Disc) (k layer slot tr : Nat) (v : List VerifyRead) (s : State), (laneAt s n).disc = some d → d.closeDue = some k →
     creating s n = none → d.primaryDone = false → d.usedPrimary < leadRoom → leadSlot false d.usedPrimary = (layer, slot, tr) →
     readyUp (laneAt s n).life.st = true → (laneAt s n).wr.pass = none → laneReading (laneAt s n) = false →
     (laneAt s n).life.ramping = false → (laneAt s n).life.layer = some layer →
     standsAt (laneAt s n) (leadPlace (72 * slot)).1 = true → mayRecord (slowForWrite n s) n = true →
     framedAt (laneAt s n).wr layer (leadPlace (72 * slot)).1 (leadPlace (72 * slot)).2 0 = true →
     ∃ t, exec (.sessionCloseWrite n v) s = .next t ∧
       (laneAt t n).disc.map (fun x => (x.primaryDone, x.usedPrimary, x.usedBackup, x.epoch, x.openEpoch, x.closeDue)) =
         some ((upTo 72).all (readOk (slowForWrite n s) n v), d.usedPrimary + 1, d.usedBackup, d.epoch, d.openEpoch, some k)) ∧
  (∀ (n : LaneId) (d : Disc) (k layer slot tr : Nat) (v : List VerifyRead) (s : State), (laneAt s n).disc = some d → d.closeDue = some k →
     creating s n = none → d.primaryDone = true → d.usedBackup < leadRoom → leadSlot true d.usedBackup = (layer, slot, tr) →
     readyUp (laneAt s n).life.st = true → (laneAt s n).wr.pass = none → laneReading (laneAt s n) = false →
     (laneAt s n).life.ramping = false → (laneAt s n).life.layer = some layer →
     standsAt (laneAt s n) (leadPlace (72 * slot)).1 = true → mayRecord (slowForWrite n s) n = true →
     framedAt (laneAt s n).wr layer (leadPlace (72 * slot)).1 (leadPlace (72 * slot)).2 0 = true →
     ∃ t, exec (.sessionCloseWrite n v) s = .next t ∧
       (laneAt t n).disc.map (fun x => (x.primaryDone, x.usedPrimary, x.usedBackup, x.epoch, x.openEpoch, x.closeDue)) =
         some (if (upTo 72).all (readOk (slowForWrite n s) n v) then (false, d.usedPrimary, d.usedBackup + 1, d.openEpoch, 0, none)
           else (true, d.usedPrimary, d.usedBackup + 1, d.epoch, d.openEpoch, some k))) ∧
  (∀ (n : LaneId) (d : Disc) (s : State), (laneAt s n).disc = some d → d.scanDue = true → readyUp (laneAt s n).life.st = true →
     exec (.recoveryScan n) s = .next (beginWaits n s)) ∧
  (∀ (n : LaneId) (d : Disc) (r : ScanRead) (s : State), (laneAt s n).disc = some d →
     d.scanDue = true → d.closeDue = none → readyUp (laneAt s n).life.st = true → (laneAt s n).wr.pass = none →
     laneReading (laneAt s n) = false →
     ∃ t, exec (.recoveryScanEnd n r) s = .next t ∧
       (laneAt t n).disc.map (fun x => (x.closeDue, x.epoch, x.openEpoch)) = some (some 2, d.epoch, d.seenEpoch))

/-- Spin-up, its limit of starts, and the arrival at speed. SPIN_UP, AT_SPEED (R144, R438, R73): a lane that has a reason starts
its spindle from rest by a spin order, with DETECTOR, or waits where its segment already starts as many lanes as 2200:06
allows; a lane without one stays; after 20 ms within tolerance a starting lane is SPUN once the core supply covers its rate,
and it does not become SPUN before. -/
def Obligations.LanesStartAndGetToSpeed : Prop :=
  (∀ (n : LaneId) (s : State), maySpin s n = true → (laneAt s n).life.spinning = false → starting s (segOf n) < cfg s 0x2200 6 →
     (laneAt s n).flt.orders.length < 64 →
     ∃ t, exec (.spinUp n) s = .next t ∧ (laneAt t n).life.spinning = true ∧ (laneAt t n).spin.phase = 1 ∧
       (laneAt t n).startWaiting = false ∧ (laneAt t n).warm.detecting = true) ∧
  (∀ (n : LaneId) (s : State), maySpin s n = true → (laneAt s n).life.spinning = false → cfg s 0x2200 6 ≤ starting s (segOf n) →
     ∃ t, exec (.spinUp n) s = .next t ∧ (laneAt t n).startWaiting = true ∧ (laneAt t n).spin = (laneAt s n).spin) ∧
  (∀ (n : LaneId) (s : State), maySpin s n = false → exec (.spinUp n) s = .next s) ∧
  (∀ (n : LaneId) (s : State), (laneAt s n).spin.phase = 3 → 480 ≤ (laneAt s n).spin.near → (laneAt s n).spin.atSpeed = false →
     (laneAt s n).life.st = .parked → (laneAt s n).life.spinning = true → needMv s 0 ≤ s.coreMv →
     ∃ t, exec (.atSpeed n) s = .next t ∧ (laneAt t n).life.st = .spun ∧ (laneAt t n).spin.atSpeed = true ∧
       (laneAt t n).life.spinning = false) ∧
  (∀ (n : LaneId) (s : State), (laneAt s n).life.st = .parked → (laneAt s n).life.spinning = true → s.coreMv < needMv s 0 →
     exec (.atSpeed n) s = .next s)

/-- Focus capture, layer jumps, band capture, wobble frames and the write clock. FOCUS_CAPTURE, LAYER_JUMP (R164, R165): a sweep
whose peaks show layer 7 beyond the cover closes focus there, with the observer at the position measured and zero velocity
(which of its states is the position is the model's choice, log 75); a sweep without that peak is counted, and the third makes
the disc unusable; a lane that is not SPUN does not sweep; a jump that lands moves one layer and opens tracking, one that does
not puts the lane into the safe condition. BAND_CAPTURE, WOBBLE_FRAME, WRITE_CLOCK_UNLOCK (R166, R186, R261): once the
crossing speed has been low for 0.5 ms, a frame whose CRC holds, on the lane's layer and near its coordinate, closes tracking
and tilt on its band, and a lane FOCUSED on its target layer is TRACKING; too far off it raises event 1503 and the safe
condition; one of another layer is a mismatch; a crossing too fast or a frame in error captures nothing; a frame in tracking
gives the lane its address; four errors beyond L+41:04 in a row unlock the write clock. -/
def Obligations.FocusLayersAndBands : Prop :=
  (∀ (n : LaneId) (peaks : List Nat) (position : Int) (s : State), (laneAt s n).life.st = .spun → (laneAt s n).life.ramping = false →
     (laneAt s n).loop.closed[0] = false → layerSeen s n peaks = true →
     ∃ t, exec (.focusCapture n peaks position) s = .next t ∧ (laneAt t n).loop.closed = #v[true, false, false] ∧
       (laneAt t n).life.layer = some 7 ∧ (laneAt t n).loop.x = position :: List.replicate 11 0 ∧
       (laneAt t n).life.st = (if (laneAt s n).life.targetLayer = 7 then .focused else .spun)) ∧
  (∀ (n : LaneId) (peaks : List Nat) (position : Int) (s : State), (laneAt s n).life.st = .spun → (laneAt s n).life.ramping = false →
     (laneAt s n).loop.closed[0] = false → layerSeen s n peaks = false →
     ∃ t, exec (.focusCapture n peaks position) s = .next t ∧ (laneAt t n).life.layer = none ∧
       (if 3 ≤ (laneAt s n).life.sweeps + 1 then (laneAt t n).life.leadIn = .unusable
        else (laneAt t n).life.sweeps = (laneAt s n).life.sweeps + 1)) ∧
  (∀ (n : LaneId) (peaks : List Nat) (position : Int) (s : State), (laneAt s n).life.st ≠ .spun →
     exec (.focusCapture n peaks position) s = .next s) ∧
  (∀ (n : LaneId) (outward : Bool) (k : Nat) (s : State), (laneAt s n).life.layer = some k → (laneAt s n).loop.closed[0] = true →
     abovePark (laneAt s n).life.st = true → (laneAt s n).life.ramping = false → (laneAt s n).wr.pass = none →
     laneReading (laneAt s n) = false → (if outward then k < 7 else 0 < k) →
     ∃ t, exec (.layerJump n outward true) s = .next t ∧ (laneAt t n).life.layer = some (if outward then k + 1 else k - 1) ∧
       (laneAt t n).loop.closed = #v[true, false, false]) ∧
  (∀ (n : LaneId) (outward : Bool) (k : Nat) (s : State), (laneAt s n).life.layer = some k → (laneAt s n).loop.closed[0] = true →
     abovePark (laneAt s n).life.st = true → (laneAt s n).life.ramping = false → (laneAt s n).wr.pass = none →
     laneReading (laneAt s n) = false → (if outward then k < 7 else 0 < k) →
     ∃ t, exec (.layerJump n outward false) s = .next t ∧ (laneAt t n).flt.safe = true ∧ (laneAt t n).loop.closed[0] = false) ∧
  (∀ (n : LaneId) (w : WobbleRead) (a : WobbleAddr) (speeds : List Nat) (s : State), mayCapture s n speeds = true →
     wobbleAddr w.wobbles = some a → (laneAt s n).life.layer = some a.layer →
     ((a.band : Int) - expectedBand (laneAt s n).sled).natAbs ≤ lcfg s n 0xA3 3 →
     (((laneAt s n).life.targetBand : Int) - a.band).natAbs ≤ 32 →
     ∃ t, exec (.bandCapture n w speeds) s = .next t ∧ (laneAt t n).life.band = some a.band ∧
       (laneAt t n).loop.closed = #v[true, true, true] ∧ (laneAt t n).life.mismatches = 0 ∧ (laneAt t n).sled.geared = true ∧
       (laneAt t n).life.st =
         (if (laneAt s n).life.st = .focused ∧ a.layer = (laneAt s n).life.targetLayer then .tracking else (laneAt s n).life.st)) ∧
  (∀ (n : LaneId) (w : WobbleRead) (a : WobbleAddr) (speeds : List Nat) (s : State), mayCapture s n speeds = true →
     wobbleAddr w.wobbles = some a → (laneAt s n).life.layer = some a.layer →
     lcfg s n 0xA3 3 < ((a.band : Int) - expectedBand (laneAt s n).sled).natAbs →
     ∃ t, exec (.bandCapture n w speeds) s = .next t ∧ (laneAt t n).flt.safe = true ∧
       lastEvent t = some (0x1503, evData [.u8 n.val, .u32 a.band, .s32 (expectedBand (laneAt s n).sled)])) ∧
  (∀ (n : LaneId) (w : WobbleRead) (a : WobbleAddr) (speeds : List Nat) (s : State), mayCapture s n speeds = true →
     wobbleAddr w.wobbles = some a → (laneAt s n).life.layer ≠ some a.layer → (laneAt s n).life.mismatches < 2 →
     ∃ t, exec (.bandCapture n w speeds) s = .next t ∧ (laneAt t n).life.layer = some a.layer ∧
       (laneAt t n).life.mismatches = (laneAt s n).life.mismatches + 1) ∧
  (∀ (n : LaneId) (w : WobbleRead) (speeds : List Nat) (s : State), (mayCapture s n speeds = false ∨ wobbleAddr w.wobbles = none) →
     exec (.bandCapture n w speeds) s = .next s) ∧
  (∀ (n : LaneId) (w : WobbleRead) (a : WobbleAddr) (s : State), (laneAt s n).loop.closed[1] = true → 4 ≤ (laneAt s n).life.st.code →
     (laneAt s n).life.st.code ≤ 8 → (laneAt s n).wr.pass = none → wobbleAddr w.wobbles = some a → a.frame ≠ 0 →
     ∃ t, exec (.wobbleFrame n w) s = .next t ∧ (laneAt t n).wr.wobbleLayer = a.layer ∧ (laneAt t n).wr.wobbleBand = a.band ∧
       (laneAt t n).wr.wobbleFrame = a.frame ∧ (laneAt t n).wr.wobbleKind = a.kind ∧ (laneAt t n).wr.badFrames = 0 ∧
       (laneAt t n).wr.goodFrames = (laneAt s n).wr.goodFrames + 1 ∧ (laneAt t n).wr.rms = w.rms ∧
       (laneAt t n).life.band = some a.band) ∧
  (∀ (n : LaneId) (w : WobbleRead) (s : State), (laneAt s n).loop.closed[1] = false → exec (.wobbleFrame n w) s = .next s) ∧
  (∀ (n : LaneId) (e : List Int) (s : State), (laneAt s n).loop.closed[1] = true → 4 ≤ (laneAt s n).life.st.code →
     (laneAt s n).life.st.code ≤ 8 → (e.reverse.take 4).length = 4 →
     (e.reverse.take 4).all (fun x => decide (lcfg s n 0x41 4 < x.natAbs)) = true →
     ∃ t, exec (.writeClockUnlock n e) s = .next t ∧ (laneAt t n).wr.clockLocked = false ∧ (laneAt t n).flt.safe = true) ∧
  (∀ (n : LaneId) (e : List Int) (s : State), (e.reverse.take 4).all (fun x => decide (lcfg s n 0x41 4 < x.natAbs)) = false →
     exec (.writeClockUnlock n e) s = .next s)

/-- Learning of the runout tables. RUNOUT_REVOLUTION, START_LEARNING_RUN (R401, R403): a spoiled revolution is dropped; a clean
one of a learning run is counted, and the eighth makes the tables valid; a run is started from TRACKING up, and refused 0401
below. -/
def Obligations.RunoutIsLearned : Prop :=
  (∀ (n : LaneId) (s : State), (laneAt s n).loop.runout.spoiled = true →
     ∃ t, exec (.runoutRevolution n) s = .next t ∧ (laneAt t n).loop.runout.spoiled = false ∧
       (laneAt t n).loop.runout.table = (laneAt s n).loop.runout.table ∧ (laneAt t n).loop.runout.counted = (laneAt s n).loop.runout.counted) ∧
  (∀ (n : LaneId) (s : State), (laneAt s n).loop.runout.spoiled = false → (laneAt s n).loop.runout.idxValid = true →
     (laneAt s n).loop.runout.learning = true →
     ∃ t, exec (.runoutRevolution n) s = .next t ∧ (laneAt t n).loop.runout.counted = (laneAt s n).loop.runout.counted + 1 ∧
       ((laneAt s n).loop.runout.counted + 1 < 8 → (laneAt t n).loop.runout.learning = true ∧
         (laneAt t n).loop.runout.table = (laneAt s n).loop.runout.table) ∧
       (8 ≤ (laneAt s n).loop.runout.counted + 1 → (laneAt t n).loop.runout.learning = false ∧
         (laneAt t n).loop.runout.valid = true ∧ (laneAt t n).loop.runout.runSpeed = some (speedCenti (laneAt s n).spin))) ∧
  (∀ (who : Who) (n : LaneId) (v : Bytes) (s : State), writePasses s who (laneIdx n 0x62) 6 v = true → needsAck s = false →
     4 ≤ (laneAt s n).life.st.code → (laneAt s n).life.st.code ≤ 8 →
     ∃ t, exec (.startLearningRun who n v) s = .next t ∧ (laneAt t n).loop.runout.learning = true ∧
       (laneAt t n).loop.runout.counted = 0 ∧ answered t who (laneIdx n 0x62) 6 0) ∧
  (∀ (ctrl : PortId) (n : LaneId) (s : State), (laneAt s n).life.st = .spun → s.fw.running.isSome = true → s.power.unit ≠ 2 →
     s.pair.role ≠ 2 →
     exec (.startLearningRun (.nvme ctrl) n (toLE 4 0x4C45524E)) s = .next (send (.answer (.nvme ctrl) (laneIdx n 0x62) 6 0x0401) s))

/-- A lane ramps down when idle or ordered to, and parks when its rotor rests. IDLE_PARK_TIMEOUT, RAMP_DOWN, SHORT_BRAKE_REST
(R145, R147, R444): once idle for L+01:03, or for another cause, a park order opens the loops and, where the spindle turns,
starts its stop; a lane with commands or extents due, or without a cause, stays; a rotor at rest ends the braking and brings
the lane to PARKED, or a lane that is to be reset to OFF. -/
def Obligations.LanesParkAndRest : Prop :=
  (∀ (n : LaneId) (s : State), mayRamp (laneAt s n) = true → (laneAt s n).life.st = .ready → modeOf s n = 0 → demanded s n = false →
     (laneAt s n).flt.orders.length < 64 →
     passed s (laneAt s n).life.idle (secTicks (lcfg s n 0x01 3)) = true →
     ∃ t, exec (.idleParkTimeout n) s = .next t ∧ (laneAt t n).life.ramping = decide ((laneAt s n).spin.phase ≠ 0) ∧ (laneAt t n).loop.closed = Vector.replicate 3 false ∧
       (laneAt t n).spin.stopping = decide ((laneAt s n).spin.phase ≠ 0)) ∧
  (∀ (n : LaneId) (s : State), demanded s n = true → exec (.idleParkTimeout n) s = .next s) ∧
  (∀ (n : LaneId) (s : State), mayRamp (laneAt s n) = true → rampCause s n = true → (laneAt s n).flt.orders.length < 64 →
     ∃ t, exec (.rampDown n) s = .next t ∧ (laneAt t n).life.ramping = decide ((laneAt s n).spin.phase ≠ 0) ∧ (laneAt t n).loop.closed = Vector.replicate 3 false ∧
       (laneAt t n).spin.stopping = decide ((laneAt s n).spin.phase ≠ 0)) ∧
  (∀ (n : LaneId) (s : State), rampCause s n = false → exec (.rampDown n) s = .next s) ∧
  (∀ (n : LaneId) (s : State), (laneAt s n).spin.phase = 5 → 48 * lcfg s n 0x84 4 ≤ (laneAt s n).spin.quiet →
     (laneAt s n).life.st ≠ .off → (laneAt s n).life.st ≠ .fault → (laneAt s n).flt.resetting = false → offDue s n = false →
     ∃ t, exec (.shortBrakeRest n) s = .next t ∧ (laneAt t n).life.st = .parked ∧ (laneAt t n).spin.phase = 0 ∧
       (laneAt t n).spin.mode = 0 ∧ (laneAt t n).life.ramping = false) ∧
  (∀ (n : LaneId) (s : State), (laneAt s n).spin.phase = 5 → 48 * lcfg s n 0x84 4 ≤ (laneAt s n).spin.quiet →
     (laneAt s n).flt.resetting = true →
     ∃ t, exec (.shortBrakeRest n) s = .next t ∧ (laneAt t n).life.st = .off ∧ (laneAt t n).flt = FaultRec.reset ∧
       (laneAt t n).life.pickup = none)

/-- Mode, enable and reset of a lane. LANE_MODE_WRITE, LANE_ENABLE_WRITE, LANE_RESET (R146, R174, R175): a mode or a disable that
an attached team does not allow answers 0304; an accepted mode is in force; a parked lane disabled is OFF at rest, and while
it turns is ramped down first, and one above PARKED is in FAULT; a reset at rest clears the lane, and one in motion first
stops it. -/
def Obligations.LaneModeEnableAndReset : Prop :=
  (∀ (who : Who) (n : LaneId) (v : Bytes) (s : State), writePasses s who (laneIdx n 0x01) 2 v = true → needsAck s = false →
     inAttached s n = false →
     ∃ t, exec (.laneModeWrite who n v) s = .next t ∧ stored t (laneIdx n 0x01) 2 = v ∧ answered t who (laneIdx n 0x01) 2 0 ∧
       (fromLE v = 3 → atExtentBoundary (laneAt s n) = true → (laneAt s n).life.st = .ready → (laneAt t n).life.st = .holding)) ∧
  (∀ (who : Who) (n : LaneId) (v : Bytes) (s : State), writePasses s who (laneIdx n 0x01) 2 v = true → inAttached s n = true →
     (fromLE v = 1 ∨ fromLE v = 3) →
     exec (.laneModeWrite who n v) s = .next (send (.answer who (laneIdx n 0x01) 2 0x0304) s)) ∧
  (∀ (who : Who) (n : LaneId) (s : State), writePasses s who (laneIdx n 0x01) 1 [0] = true → inAttached s n = true →
     exec (.laneEnableWrite who n [0]) s = .next (send (.answer who (laneIdx n 0x01) 1 0x0304) s)) ∧
  (∀ (who : Who) (n : LaneId) (s : State), writePasses s who (laneIdx n 0x01) 1 [0] = true → needsAck s = false →
     inAttached s n = false → (laneAt s n).life.st = .parked → (laneAt s n).spin.phase = 0 →
     ∃ t, exec (.laneEnableWrite who n [0]) s = .next t ∧ (laneAt t n).life.st = .off ∧ stored t (laneIdx n 0x01) 1 = [0] ∧
       answered t who (laneIdx n 0x01) 1 0) ∧
  (∀ (who : Who) (n : LaneId) (s : State), writePasses s who (laneIdx n 0x01) 1 [0] = true → needsAck s = false →
     inAttached s n = false → (laneAt s n).life.st = .parked → (laneAt s n).spin.phase ≠ 0 → (laneAt s n).spin.phase ≠ 5 →
     (laneAt s n).life.ramping = false → (laneAt s n).flt.orders.length < 64 →
     ∃ t, exec (.laneEnableWrite who n [0]) s = .next t ∧ (laneAt t n).life.st = .parked ∧ (laneAt t n).life.ramping = true ∧
       stored t (laneIdx n 0x01) 1 = [0] ∧ answered t who (laneIdx n 0x01) 1 0) ∧
  (∀ (who : Who) (n : LaneId) (s : State), writePasses s who (laneIdx n 0x01) 1 [0] = true → needsAck s = false →
     inAttached s n = false → abovePark (laneAt s n).life.st = true →
     ∃ t, exec (.laneEnableWrite who n [0]) s = .next t ∧ (laneAt t n).life.st = .fault ∧ stored t (laneIdx n 0x01) 1 = [0] ∧
       answered t who (laneIdx n 0x01) 1 0) ∧
  (∀ (who : Who) (n : LaneId) (s : State), writePasses s who (laneIdx n 0x01) 1 [1] = true → needsAck s = false →
     ∃ t, exec (.laneEnableWrite who n [1]) s = .next t ∧ stored t (laneIdx n 0x01) 1 = [1] ∧ answered t who (laneIdx n 0x01) 1 0) ∧
  (∀ (who : Who) (n : LaneId) (v : Bytes) (s : State), writePasses s who (laneIdx n 0x01) 4 v = true → needsAck s = false →
     (laneAt s n).spin.phase = 0 →
     ∃ t, exec (.laneReset who n v) s = .next t ∧ (laneAt t n).life.st = .off ∧ (laneAt t n).flt = FaultRec.reset ∧
       (laneAt t n).life.pickup = none ∧ (laneAt t n).life.arriving = (laneAt s n).life.presence.stable ∧
       answered t who (laneIdx n 0x01) 4 0) ∧
  (∀ (who : Who) (n : LaneId) (v : Bytes) (s : State), writePasses s who (laneIdx n 0x01) 4 v = true → needsAck s = false →
     (laneAt s n).spin.phase ≠ 0 →
     ∃ t, exec (.laneReset who n v) s = .next t ∧ (laneAt t n).flt.resetting = true ∧ (laneAt t n).flt.orders = [] ∧
       answered t who (laneIdx n 0x01) 4 0)

/-- A write pass starts where its extents are due, or the lane is ordered there. PASS_START (R236, R239): with nothing due nothing
happens; with no read of the lane competing, a lane elsewhere is ordered to the slot; one in place whose slots are blank
begins the pass there in WRITING, in the open session or a new one; a slot found recorded gets its skip entry and event 2014
and is not written; one whose state is not known yet waits for its blank check. -/
def Obligations.PassesStartInPlace : Prop :=
  (∀ (n : LaneId) (blank : List (TrackId × Bool)) (s : State), nextPass s n = none → exec (.passStart n blank) s = .next s) ∧
  (∀ (n : LaneId) (blank : List (TrackId × Bool)) (d : Disc) (layer slot : Nat) (l : List (Nat × TeamId × Nat)) (s : State),
     (laneAt s n).disc = some d → nextPass s n = some (layer, slot, l) → readJobs s n = [] →
     ((laneAt s n).life.layer ≠ some layer ∨ standsAt (laneAt s n) (dataPlace (72 * slot)).1 = false) →
     ∃ t, exec (.passStart n blank) s = .next t ∧ (laneAt t n).life.targetLayer = layer ∧
       (laneAt t n).life.targetBand = (dataPlace (72 * slot)).1 ∧ (laneAt t n).wr = { (laneAt s n).wr with moveFrom := none }) ∧
  (∀ (n : LaneId) (blank : List (TrackId × Bool)) (d : Disc) (layer slot : Nat) (l : List (Nat × TeamId × Nat)) (s : State),
     (laneAt s n).disc = some d → nextPass s n = some (layer, slot, l) → readJobs s n = [] → l ≠ [] →
     (laneAt s n).life.layer = some layer → standsAt (laneAt s n) (dataPlace (72 * slot)).1 = true → mayWrite s n = true →
     (laneAt s n).pace.v ≤ max 2496 (mediaVelocity (laneAt s n)) → (laneAt s n).flt.orders.length < 64 →
     l.all (fun q => decide (slotSeen d layer q.1 slot blank = .blank)) = true →
     ∃ t, exec (.passStart n blank) s = .next t ∧ (laneAt t n).life.st = .writing ∧
       (laneAt t n).wr.pass.map (fun p => (p.layer, p.slot, p.sector, p.begun, p.cut)) = some (layer, slot, 0, false, false) ∧
       (laneAt t n).disc.map (fun x => x.openEpoch) = some (if d.openEpoch ≠ 0 then d.openEpoch else d.epoch + 1)) ∧
  (∀ (n : LaneId) (blank : List (TrackId × Bool)) (d : Disc) (layer slot : Nat) (q : Nat × TeamId × Nat) (s : State),
     (laneAt s n).disc = some d → nextPass s n = some (layer, slot, [q]) → readJobs s n = [] →
     (laneAt s n).life.layer = some layer → standsAt (laneAt s n) (dataPlace (72 * slot)).1 = true → mayWrite s n = true →
     (laneAt s n).pace.v ≤ max 2496 (mediaVelocity (laneAt s n)) → slotSeen d layer q.1 slot blank = .recorded →
     ∃ t, exec (.passStart n blank) s = .next t ∧ (laneAt t n).wr.pass = none ∧
       (laneAt t n).disc.map (fun x => x.slots[trackPos layer q.1]) = some (mapSet d.slots[trackPos layer q.1] slot .skipped) ∧
       lastEvent t = some (0x2014, evData [.u8 n.val, .u8 layer, .u8 q.1, .u32 slot])) ∧
  (∀ (n : LaneId) (blank : List (TrackId × Bool)) (d : Disc) (layer slot : Nat) (l : List (Nat × TeamId × Nat)) (s : State),
     (laneAt s n).disc = some d → nextPass s n = some (layer, slot, l) → readJobs s n = [] →
     (laneAt s n).life.layer = some layer → standsAt (laneAt s n) (dataPlace (72 * slot)).1 = true →
     (laneAt s n).pace.v ≤ max 2496 (mediaVelocity (laneAt s n)) → l.any (fun q => decide (slotSeen d layer q.1 slot blank = .unknown)) = true →
     exec (.passStart n blank) s = .next s)

/-- Sectors of a pass are played out in turn, verified in turn, and the pass ends. SECTOR_PLAYOUT, SECTOR_VERIFY, PASS_END (R241,
R242, R258, R262, R264): at the frame of the pass's next sector that sector's symbols go out on every track, the first with a
bank switch; a sector that is not ready is a fault and cuts the pass, and at another frame nothing is played; each verify
judges the next sector; an extent with too many failed ones is abandoned, and one judged whole is recorded; the pass ends when
all is judged or when cut, and the write offset moves by the mean sync error of its good sectors, by at most 1. -/
def Obligations.SectorsPlayedAndVerified : Prop :=
  (∀ (n : LaneId) (p : Pass) (s : State), (laneAt s n).wr.pass = some p → p.cut = false → p.sector < 72 →
     gateMatches (laneAt s n).wr p = true → notReady p = false →
     ∃ t, exec (.sectorPlayout n) s = .next t ∧
       (laneAt t n).wr.pass.map (fun q => (q.sector, q.begun, q.cut)) = some (p.sector + 1, true, false) ∧
       (laneAt t n).wr.bank = (if p.begun then (laneAt s n).wr.bank else otherBank (laneAt s n).wr.bank) ∧
       (sendSymbols n (!p.begun) (allTracks.foldl (fun a k => playTrack n p k a) ([], s)).1 { s with sent := [] }).sent.all
         (fun x => t.sent.contains x) = true) ∧
  (∀ (n : LaneId) (p : Pass) (s : State), (laneAt s n).wr.pass = some p → p.cut = false → p.sector < 72 →
     gateMatches (laneAt s n).wr p = true → notReady p = true →
     ∃ t, exec (.sectorPlayout n) s = .next t ∧ (laneAt t n).wr.pass = some { p with cut := true } ∧ (laneAt t n).flt.safe = true) ∧
  (∀ (n : LaneId) (p : Pass) (s : State), (laneAt s n).wr.pass = some p → gateMatches (laneAt s n).wr p = false →
     exec (.sectorPlayout n) s = .next s) ∧
  (∀ (n : LaneId) (k : TrackId) (v : VerifyRead) (p : Pass) (pt : PassTrack) (s : State), (laneAt s n).wr.pass = some p →
     p.tracks[k] = some pt → p.cut = false → pt.judged < p.sector → pt.judged < 71 → verifyOk s n v = true →
     pt.failed.length ≤ lcfg s n 0x40 5 →
     ∃ t, exec (.sectorVerify n k v) s = .next t ∧
       ((laneAt t n).wr.pass.bind (fun q => q.tracks[k])).map (fun q => (q.judged, q.failed)) = some (pt.judged + 1, pt.failed)) ∧
  (∀ (n : LaneId) (k : TrackId) (v : VerifyRead) (p : Pass) (pt : PassTrack) (s : State), (laneAt s n).wr.pass = some p →
     p.tracks[k] = some pt → p.cut = false → pt.judged < p.sector → verifyOk s n v = false → lcfg s n 0x40 5 ≤ pt.failed.length →
     ∃ t, exec (.sectorVerify n k v) s = .next t ∧ (laneAt t n).wr.pass.map (fun q => q.tracks[k]) = some none ∧
       (laneAt t n).wr.abandoned = (laneAt s n).wr.abandoned + 1) ∧
  (∀ (n : LaneId) (k : TrackId) (v : VerifyRead) (p : Pass) (pt : PassTrack) (d : Disc) (s : State), (laneAt s n).wr.pass = some p →
     p.tracks[k] = some pt → p.cut = false → 71 < p.sector → pt.judged = 71 → verifyOk s n v = true →
     pt.failed.length ≤ lcfg s n 0x40 5 → (laneAt s n).disc = some d →
     ∃ t, exec (.sectorVerify n k v) s = .next t ∧ (laneAt t n).wr.abandoned = 0 ∧
       (laneAt t n).disc.map (fun x => x.nextSlot[trackPos p.layer k.val]) = some (max d.nextSlot[trackPos p.layer k.val] (p.slot + 1))) ∧
  (∀ (n : LaneId) (p : Pass) (s : State), (laneAt s n).wr.pass = some p → p.cut = false → passDone p = true →
     ∃ t, exec (.passEnd n) s = .next t ∧ (laneAt t n).wr.pass = none ∧
       (laneAt t n).wr.offset = (if p.syncCount = 0 then (laneAt s n).wr.offset
         else sat ((laneAt s n).wr.offset + sat (roundDiv (32 * p.syncSum) p.syncCount) (-1) 1) (-512) 512) ∧
       ((laneAt s n).life.st = .writing → (laneAt s n).warm.opcWaiting = false →
         (laneAt t n).life.st = (if lcfg s n 0x01 2 = 3 then .holding else .ready))) ∧
  (∀ (n : LaneId) (p : Pass) (s : State), (laneAt s n).wr.pass = some p → p.cut = true →
     ∃ t, exec (.passEnd n) s = .next t ∧ (laneAt t n).wr.pass = none ∧ ((laneAt s n).life.st = .writing → (laneAt s n).warm.opcWaiting = false →
         (laneAt t n).life.st = (if lcfg s n 0x01 2 = 3 then .holding else .ready))) ∧
  (∀ (n : LaneId) (p : Pass) (s : State), (laneAt s n).wr.pass = some p → p.cut = false → passDone p = false →
     exec (.passEnd n) s = .next s)

/-- Relocation passes and moves; the seal delay. RELOCATION_PASS, RELOCATION_MOVE, SEAL_DELAY_EXPIRE (R268, R269, R275): at the
index of a spare band a queued copy is recorded in the band's lowest free relocation slot, entered in the table and, verified
there, no longer queued, and the lane is READY again; with none queued nothing happens; the move orders the lane to the
nearest spare band that has room; an open extent is sealed when its delay has passed, not before. -/
def Obligations.SectorsRelocated : Prop :=
  (∀ (n : LaneId) (d : Disc) (layer b q : Nat) (c : Copy) (verify : List (TrackId × List VerifyRead)) (s : State),
     (laneAt s n).disc = some d → (laneAt s n).life.layer = some layer → (laneAt s n).life.band = some b → mayRelocate s n = true →
     framedAt (laneAt s n).wr layer b 0 2 = true → (laneAt s n).wr.pass = none → (laneAt s n).wr.queue = [c] → c.layer = layer →
     c.addr = none → passed s c.tick (nsTicks 200000) = true → d.openEpoch ≠ 0 → freeReloc d layer c.track.val b = some q →
     (upTo 72).all (readOk s n (readsOf verify c.track)) = true →
     ∃ t, exec (.relocationPass n verify) s = .next t ∧ (laneAt t n).wr.queue = [] ∧ (laneAt t n).life.st = .ready ∧
       (laneAt t n).wr.bank = otherBank (laneAt s n).wr.bank ∧
       (laneAt t n).disc.map (fun x => x.sessionRelocs) =
         some (d.sessionRelocs ++ [{ kind := 0, psa := c.psa, repl := relocPsa layer c.track.val b q 0 }])) ∧
  (∀ (n : LaneId) (verify : List (TrackId × List VerifyRead)) (s : State), (laneAt s n).wr.queue = [] →
     exec (.relocationPass n verify) s = .next s) ∧
  (∀ (n : LaneId) (d : Disc) (layer b sb : Nat) (s : State), (laneAt s n).disc = some d → (laneAt s n).life.layer = some layer →
     (laneAt s n).life.band = some b → (laneAt s n).life.st = .ready → queuedTracks (laneAt s n).wr.queue layer ≠ [] →
     (laneAt s n).wr.moveFrom = none → (laneAt s n).wr.pass = none → discOpen (laneAt s n) d = true → laneReading (laneAt s n) = false →
     dueCrosses s n layer b = false → nearestSpare d layer (queuedTracks (laneAt s n).wr.queue layer) b = some sb →
     ∃ t, exec (.relocationMove n) s = .next t ∧ (laneAt t n).wr.moveFrom = some b ∧ (laneAt t n).life.targetBand = sb) ∧
  (∀ (n : LaneId) (s : State), (laneAt s n).wr.moveFrom.isSome = true → exec (.relocationMove n) s = .next s) ∧
  (∀ (u : TeamId) (x : Nat) (e : Extent) (s : State), extentAt (nsAt s u) x = some e → e.isSealed = false →
     passed s e.last (msTicks (cfg s (teamIdx u 0x40) 1)) = true →
     ∃ t, exec (.sealDelayExpire u x) s = .next t ∧ (extentAt (nsAt t u) x).map (fun y => y.isSealed) = some true) ∧
  (∀ (u : TeamId) (x : Nat) (e : Extent) (s : State), extentAt (nsAt s u) x = some e →
     passed s e.last (msTicks (cfg s (teamIdx u 0x40) 1)) = false → exec (.sealDelayExpire u x) s = .next s)

/-- Acquisition of a read channel, its search for marks, dropouts and the loss of timing. ACQUISITION, SYNC_MARK_SEARCH (R295,
R323): outside its frames a channel does nothing; a passed lock test opens the sync window with the phase and frequency found,
the frequency within 5,000 ppm; a failed one and a blank frame wait for the next preamble; a mark that qualifies locks the
channel and aligns its segment, one missed flywheels it, and the third miss in a row drops it. TIMING_LOST, DROPOUT_START,
DROPOUT_END, DROPOUT_COAST_LIMIT (R299, R324, R326): a dropout begins at its bit, and loss of timing begins one too; its end
flags its bits with the guard on both sides; beyond the coast limit the rest of the sector is flagged and the channel acquires
anew. -/
def Obligations.ChannelsAcquireAndLose : Prop :=
  (∀ (n : LaneId) (c : ChanId) (level rms : Nat) (phase : Int) (e : Nat) (f : Int) (s : State), frames (laneAt s n) c = false →
     exec (.acquisition n c level rms phase e f) s = .next s) ∧
  (∀ (n : LaneId) (c : ChanId) (level rms : Nat) (phase : Int) (e : Nat) (f : Int) (s : State), frames (laneAt s n) c = true →
     (laneAt s n).rd.channels[c].reacquire = true → gateLow (laneAt s n) c = false → lcfg s n 0x28 1 * blankReference s n (laneAt s n).rd.layer ≤ 1000 * level →
     e ≤ lcfg s n 0x23 5 →
     ∃ t, exec (.acquisition n c level rms phase e f) s = .next t ∧ (laneAt t n).rd.channels[c].sync = 2 ∧
       (laneAt t n).rd.channels[c].locked = true ∧ (laneAt t n).rd.channels[c].reacquire = false ∧
       (laneAt t n).rd.channels[c].lockFails = 0 ∧ (laneAt t n).rd.channels[c].phase = phase ∧
       (laneAt t n).rd.channels[c].residual = sat f (-5000) 5000) ∧
  (∀ (n : LaneId) (c : ChanId) (level rms : Nat) (phase : Int) (e : Nat) (f : Int) (s : State), frames (laneAt s n) c = true →
     (laneAt s n).rd.channels[c].reacquire = true → gateLow (laneAt s n) c = false → lcfg s n 0x28 1 * blankReference s n (laneAt s n).rd.layer ≤ 1000 * level →
     lcfg s n 0x23 5 < e →
     ∃ t, exec (.acquisition n c level rms phase e f) s = .next t ∧ (laneAt t n).rd.channels[c].sync = 0 ∧
       (laneAt t n).rd.channels[c].locked = false ∧ (laneAt t n).rd.channels[c].reacquire = true ∧
       (laneAt t n).rd.channels[c].lockFails = (laneAt s n).rd.channels[c].lockFails + 1) ∧
  (∀ (n : LaneId) (c : ChanId) (level rms : Nat) (phase : Int) (e : Nat) (f : Int) (s : State), frames (laneAt s n) c = true →
     (laneAt s n).rd.channels[c].reacquire = true → 1000 * level < lcfg s n 0x28 1 * blankReference s n (laneAt s n).rd.layer →
     ∃ t, exec (.acquisition n c level rms phase e f) s = .next t ∧ (laneAt t n).rd.channels[c].sync = 0 ∧
       (laneAt t n).rd.channels[c].locked = false ∧ (laneAt t n).rd.channels[c].reacquire = true) ∧
  (∀ (n : LaneId) (c : ChanId) (w : MarkWindow) (x : Channel) (off : Int) (rest : List Int) (s : State),
     frames (laneAt s n) c = true → (laneAt s n).rd.channels[c] = x → (acquires (laneAt s n) c && x.aligns.isEmpty) = false → 2 ≤ x.sync ∧ x.sync ≤ 5 → w.sync = decide (x.mark = 0) →
     x.aligns.length < 20 → 2 * markFlagged x (lcfg s n 0x27 4) (if w.sync then 48 else 32) ≤ (if w.sync then 48 else 32) →
     qualifying (lcfg s n 0x26 (if w.sync then 2 else 3)) w.offsets = off :: rest →
     ∃ t, exec (.syncMarkSearch n c w) s = .next t ∧ (laneAt t n).rd.channels[c].sync = 3 ∧ (laneAt t n).rd.channels[c].misses = 0 ∧
       (laneAt t n).rd.channels[c].aligns = x.aligns ++ [{ mark := x.mark, pos := x.predicted + off, offset := off, found := true }]) ∧
  (∀ (n : LaneId) (c : ChanId) (w : MarkWindow) (x : Channel) (s : State),
     frames (laneAt s n) c = true → (laneAt s n).rd.channels[c] = x → (acquires (laneAt s n) c && x.aligns.isEmpty) = false → 2 ≤ x.sync ∧ x.sync ≤ 5 → w.sync = decide (x.mark = 0) →
     x.aligns.length < 20 → 2 * markFlagged x (lcfg s n 0x27 4) (if w.sync then 48 else 32) ≤ (if w.sync then 48 else 32) →
     qualifying (lcfg s n 0x26 (if w.sync then 2 else 3)) w.offsets = [] → x.misses < 2 →
     ∃ t, exec (.syncMarkSearch n c w) s = .next t ∧ (laneAt t n).rd.channels[c].sync = (if x.sync = 4 then 5 else 4) ∧
       (laneAt t n).rd.channels[c].misses = x.misses + 1) ∧
  (∀ (n : LaneId) (c : ChanId) (w : MarkWindow) (x : Channel) (s : State),
     frames (laneAt s n) c = true → (laneAt s n).rd.channels[c] = x → (acquires (laneAt s n) c && x.aligns.isEmpty) = false → 2 ≤ x.sync ∧ x.sync ≤ 5 → w.sync = decide (x.mark = 0) →
     x.aligns.length < 20 → 2 * markFlagged x (lcfg s n 0x27 4) (if w.sync then 48 else 32) ≤ (if w.sync then 48 else 32) →
     qualifying (lcfg s n 0x26 (if w.sync then 2 else 3)) w.offsets = [] → 2 ≤ x.misses →
     ∃ t, exec (.syncMarkSearch n c w) s = .next t ∧ (laneAt t n).rd.channels[c].sync = 0 ∧
       (laneAt t n).rd.channels[c].misses = 0 ∧ (laneAt t n).rd.channels[c].reacquire = true) ∧
  (∀ (n : LaneId) (c : ChanId) (b : Nat) (s : State), frames (laneAt s n) c = true → gateLow (laneAt s n) c = false →
     (laneAt s n).rd.channels[c].dropout = none →
     3 ≤ (laneAt s n).rd.channels[c].sync →
     ∃ t, exec (.timingLost n c b) s = .next t ∧ (laneAt t n).rd.channels[c].locked = false ∧
       (laneAt t n).rd.channels[c].dropout = some b) ∧
  (∀ (n : LaneId) (c : ChanId) (b : Nat) (s : State), frames (laneAt s n) c = true → gateLow (laneAt s n) c = false →
     (laneAt s n).rd.channels[c].dropout = none →
     ∃ t, exec (.dropoutStart n c b) s = .next t ∧ (laneAt t n).rd.channels[c] = { (laneAt s n).rd.channels[c] with dropout := some b }) ∧
  (∀ (n : LaneId) (c : ChanId) (b a : Nat) (s : State), (laneAt s n).rd.channels[c].dropout = some a →
     ∃ t, exec (.dropoutEnd n c b) s = .next t ∧ (laneAt t n).rd.channels[c] = { (laneAt s n).rd.channels[c] with
       dropout := none, flags := (laneAt s n).rd.channels[c].flags ++ [(a - lcfg s n 0x27 4, b + lcfg s n 0x27 4)] }) ∧
  (∀ (n : LaneId) (c : ChanId) (b a : Nat) (s : State), (laneAt s n).rd.channels[c].dropout = some a → lcfg s n 0x27 5 < b - a →
     ∃ t, exec (.dropoutCoastLimit n c b) s = .next t ∧ (laneAt t n).rd.channels[c] = { (laneAt s n).rd.channels[c] with
       dropout := none, sync := 0, reacquire := true, flags := (laneAt s n).rd.channels[c].flags ++ [(a - lcfg s n 0x27 4, 40304)] }) ∧
  (∀ (n : LaneId) (c : ChanId) (b a : Nat) (s : State), (laneAt s n).rd.channels[c].dropout = some a → b - a ≤ lcfg s n 0x27 5 →
     exec (.dropoutCoastLimit n c b) s = .next s)

/-- An extent is read sector by sector, decoded, and ends good or in the retry ladder. EXTENT_READ_START, SECTOR_RECORD,
LDPC_DECODE, EXTENT_READ_OUTCOME, OUTER_DECODE, LADDER_STEP (R141, R311, R339, R341, R346, R351, R352): a wanted extent of a
lane in place is taken up by a read order; the detector's record of each sector joins the read; a core judges the sector it
holds, by the message decoded and the checks of R343, and a sector that no core holds waits; an extent with no flagged data
sector ends, one with up to 8 goes to the outer code, whose rebuilt sectors are counted, and flagged sectors that are wanted
start the ladder. -/
def Obligations.ExtentsReadAndDecoded : Prop :=
  (∀ (n : LaneId) (k : TrackId) (slot y i : Nat) (fs : List Flight) (r : JobRank) (d : Disc) (s : State),
     (laneAt s n).rd.held = Vector.replicate 4 none → (laneAt s n).life.layer = some y → readJobs s n = [((y, k.val, slot), fs)] →
     rankOf fs = some r → (laneAt s n).rd.jobs[k] = none → standsAt (laneAt s n) (dataPlace (72 * slot)).1 = true → mayRead s n = true →
     (laneAt s n).flt.orders.length < 64 →
     (laneAt s n).disc = some d → indexOfSlot d.skips[trackPos y k.val] slot = some i →
     ∃ t, exec (.extentReadStart n k slot) s = .next t ∧ (laneAt t n).life.st = .reading ∧
       (laneAt t n).rd.jobs[k] = some (newJob y slot none false (logicalExtent y k.val i))) ∧
  (∀ (n : LaneId) (k : TrackId) (slot : Nat) (s : State), (laneAt s n).rd.held[k] = none → readJobs s n = [] →
     exec (.extentReadStart n k slot) s = .next s) ∧
  (∀ (n : LaneId) (k : TrackId) (r : SectorSamples) (j : ReadJob) (s : State), (laneAt s n).rd.jobs[k] = some j → j.next < 72 →
     channelMode (laneAt s n) = 1 → (j.leadIn = true ∨ r.psa = j.psa k.val j.next) →
     ∃ t, exec (.sectorRecord n k r) s = .next t ∧ (laneAt t n).rd.jobs[k].map (fun x => x.next) = some (j.next + 1) ∧
       ((laneAt t n).rd.jobs[k].bind (fun x => mapGet x.sectors j.next)) =
         some { combine (decide (j.step ≠ 0)) (mapGet j.sectors j.next) (recordOf s n k r.psa (detectSector s n k r)) with
           stamp := s.pool.count, tries := 0 } ∧
       t.pool.count = s.pool.count + 1) ∧
  (∀ (n : LaneId) (k : TrackId) (r : SectorSamples) (s : State), (laneAt s n).rd.jobs[k] = none → exec (.sectorRecord n k r) s = .next s) ∧
  (∀ (n : LaneId) (k : TrackId) (i : Nat) (d : Disc) (j : ReadJob) (r : SectorRead) (s : State), (laneAt s n).disc = some d →
     (laneAt s n).rd.jobs[k] = some j → mapGet j.sectors i = some r → (r.noTiming = true ∨ r.blank = true) →
     (fillCores s).pool.held.any (fun x => decide (x.lane = n ∧ x.track = k ∧ x.sector = i)) = true →
     ∃ t, exec (.ldpcDecode n k i) s = .next t ∧
       ((laneAt t n).rd.jobs[k].bind (fun x => mapGet x.sectors i)).map (fun x => (x.judged, x.good)) = some (true, r.good)) ∧
  (∀ (n : LaneId) (k : TrackId) (i : Nat) (d : Disc) (j : ReadJob) (r : SectorRead) (s : State), (laneAt s n).disc = some d →
     (laneAt s n).rd.jobs[k] = some j → mapGet j.sectors i = some r → r.noTiming = false → r.blank = false → r.falseStarts = [] →
     (fillCores s).pool.held.any (fun x => decide (x.lane = n ∧ x.track = k ∧ x.sector = i)) = true →
     ∃ t, exec (.ldpcDecode n k i) s = .next t ∧
       ((laneAt t n).rd.jobs[k].bind (fun x => mapGet x.sectors i)).map (fun x => (x.judged, x.good)) =
         some (true, ((decodeOnce (lcfg s n 0x30 4) (lcfg s n 0x30 (if j.step = 0 then 1 else 2)) r).1).bind
           (fun m => if sectorOk d j k.val i m && !defective d r.psa then some m else none))) ∧
  (∀ (n : LaneId) (k : TrackId) (i : Nat) (s : State),
     (fillCores s).pool.held.any (fun x => decide (x.lane = n ∧ x.track = k ∧ x.sector = i)) = false →
     exec (.ldpcDecode n k i) s = .next (fillCores s)) ∧
  (∀ (n : LaneId) (k : TrackId) (d : Disc) (j : ReadJob) (s : State), (laneAt s n).disc = some d → (laneAt s n).rd.jobs[k] = some j →
     (laneAt s n).rd.held[k] = none → j.leadIn = false → j.relocBand = none → j.phase = 0 → j.step = 0 → allJudged j = true →
     (flaggedOf d j k.val).any (fun i => decide (i < 64)) = false →
     ∃ t, exec (.extentReadOutcome n k) s = .next t ∧ (laneAt t n).rd.jobs[k] = none) ∧
  (∀ (n : LaneId) (k : TrackId) (d : Disc) (j : ReadJob) (s : State), (laneAt s n).disc = some d → (laneAt s n).rd.jobs[k] = some j →
     j.phase = 0 → j.step = 0 → allJudged j = true → (flaggedOf d j k.val).any (fun i => decide (i < 64)) = true →
     (flaggedOf d j k.val).length ≤ 8 →
     ∃ t, exec (.extentReadOutcome n k) s = .next t ∧ (laneAt t n).rd.jobs[k] = some { j with phase := 1 }) ∧
  (∀ (n : LaneId) (k : TrackId) (j : ReadJob) (s : State), (laneAt s n).rd.jobs[k] = some j → allJudged j = false →
     exec (.extentReadOutcome n k) s = .next s) ∧
  (∀ (n : LaneId) (k : TrackId) (d : Disc) (j : ReadJob) (s : State), (laneAt s n).disc = some d → (laneAt s n).rd.jobs[k] = some j →
     (laneAt s n).rd.held[k] = none → j.leadIn = false → j.relocBand = none → j.phase = 1 → j.step = 0 → lcfg s n 0x30 3 = 0 →
     ∃ t, exec (.outerDecode n k) s = .next t ∧ (laneAt t n).rd.jobs[k] = none ∧
       (match rebuilt d j k.val with
         | some l => stored t (laneIdx n 0xE3) 5 = stored (lbump n 0xE3 5 0 1 s) (laneIdx n 0xE3) 5 ∧
             stored t (laneIdx n 0xE3) 6 = stored (lbump n 0xE3 6 0 l.length s) (laneIdx n 0xE3) 6
         | none => stored t (laneIdx n 0xE3) 5 = stored s (laneIdx n 0xE3) 5 ∧
             stored t (laneIdx n 0xE3) 6 = stored s (laneIdx n 0xE3) 6)) ∧
  (∀ (n : LaneId) (k : TrackId) (d : Disc) (j : ReadJob) (s : State), (laneAt s n).disc = some d → (laneAt s n).rd.jobs[k] = some j →
     (laneAt s n).rd.held[k] = none → j.phase = 2 → j.step = 0 → lcfg s n 0x30 3 ≠ 0 → missing s n k j ≠ [] →
     otherLadder (laneAt s n) k = false →
     ∃ t, exec (.ladderStep n k) s = .next t ∧ (laneAt t n).rd.jobs[k].map (fun x => (x.step, x.reads, x.phase)) = some (1, 0, 2)) ∧
  (∀ (n : LaneId) (k : TrackId) (j : ReadJob) (s : State), (laneAt s n).rd.jobs[k] = some j → j.phase ≠ 2 →
     exec (.ladderStep n k) s = .next s)

/-- Capture, test source, class taps, the read defect list and the refresh wait. CAPTURE_ARM, CAPTURE_START, TEST_SOURCE_WRITE,
RESTORE_CLASS_TAPS, CLEAR_READ_DEFECT_LIST, REFRESH_WAIT_EXPIRE (R335 to R337, R367, R370): an armed capture takes its count
of sample sets at the next sync mark; a test source is set on a parked lane, and refused 0401 elsewhere; the taps named read
the class's again; the defect list is emptied; a refresh copy that has waited for L+31:03 on an idle lane orders a move. -/
def Obligations.CaptureTestSourceAndDefects : Prop :=
  (∀ (who : Who) (n : LaneId) (v : Bytes) (s : State), writePasses s who (laneIdx n 0x2A) 1 v = true → needsAck s = false →
     ∃ t, exec (.captureArm who n v) s = .next t ∧ (laneAt t n).rd.capStatus = 1 ∧ (laneAt t n).rd.capCount = fromLE v ∧
       (laneAt t n).rd.capData = [] ∧ answered t who (laneIdx n 0x2A) 1 0) ∧
  (∀ (n : LaneId) (l : List Bytes) (s : State), (laneAt s n).rd.capStatus = 1 →
     (laneAt s n).rd.channels.toList.any (fun x => decide (2 ≤ x.sync)) = true → l.length = (laneAt s n).rd.capCount →
     ∃ t, exec (.captureStart n l) s = .next t ∧ (laneAt t n).rd.capStatus = 3 ∧
       (laneAt t n).rd.capData = l.flatMap (fun x => (x ++ zeroBytes 8).take 8)) ∧
  (∀ (n : LaneId) (l : List Bytes) (s : State), (laneAt s n).rd.capStatus ≠ 1 → exec (.captureStart n l) s = .next s) ∧
  (∀ (who : Who) (n : LaneId) (v : Bytes) (s : State), writePasses s who (laneIdx n 0x2A) 4 v = true → needsAck s = false →
     ∃ t, exec (.testSourceWrite who n v) s = .next t ∧ stored t (laneIdx n 0x2A) 4 = v ∧ answered t who (laneIdx n 0x2A) 4 0) ∧
  (∀ (ctrl : PortId) (n : LaneId) (v : Bytes) (s : State), (laneAt s n).life.st ≠ .parked → s.fw.running.isSome = true → s.power.unit ≠ 2 →
     exec (.testSourceWrite (.nvme ctrl) n v) s = .next (send (.answer (.nvme ctrl) (laneIdx n 0x2A) 4 0x0401) s)) ∧
  (∀ (who : Who) (n : LaneId) (v : Bytes) (s : State), writePasses s who (laneIdx n 0x24) 0x0B v = true → needsAck s = false →
     ∃ t, exec (.restoreClassTaps who n v) s = .next t ∧ answered t who (laneIdx n 0x24) 0x0B 0 ∧
       ∀ k : Fin 8, mapGet t.dict.reg (regKey (laneIdx n 0x24) (1 + k.val)) =
         (if bit (fromLE v) k.val then none else mapGet s.dict.reg (regKey (laneIdx n 0x24) (1 + k.val)))) ∧
  (∀ (who : Who) (n : LaneId) (v : Bytes) (s : State), writePasses s who (laneIdx n 0x32) 3 v = true → needsAck s = false →
     ∃ t, exec (.clearReadDefectList who n v) s = .next t ∧ (laneAt t n).rd.defects = [] ∧ answered t who (laneIdx n 0x32) 3 0) ∧
  (∀ (n : LaneId) (c : Copy) (d : Disc) (sb : Nat) (s : State),
     (laneAt s n).wr.queue.find? (fun x => x.refresh && passed s x.tick (secTicks (lcfg s n 0x31 3))) = some c →
     (laneAt s n).life.st = .ready → (laneAt s n).wr.moveFrom = none → readJobs s n = [] → dueOn s n = [] → (laneAt s n).disc = some d →
     nearestSpare d c.layer (queuedTracks (laneAt s n).wr.queue c.layer) ((laneAt s n).life.band.getD 0) = some sb →
     ∃ t, exec (.refreshWaitExpire n) s = .next t ∧ (laneAt t n).wr.moveFrom = some ((laneAt s n).life.band.getD 0) ∧ (laneAt t n).life.targetBand = sb ∧
       (laneAt t n).life.targetLayer = c.layer) ∧
  (∀ (n : LaneId) (s : State),
     (laneAt s n).wr.queue.find? (fun x => x.refresh && passed s x.tick (secTicks (lcfg s n 0x31 3))) = none →
     exec (.refreshWaitExpire n) s = .next s)

/-- Coefficient banks are written, checked and switched on request. OBSERVER_SWITCH_REQUEST, BIQUAD_SWITCH_REQUEST,
OBSERVER_SHADOW_WRITE, BIQUAD_SHADOW_WRITE, LIBRARY_SLOT_WRITE (R389, R393, R407, R409, R412): a request marks every lane of
its mask and no other, or answers the status of the first lane that bars it; a shadow bank with a wrong check word is refused
0601 and one with a switch pending 0501; a library slot's banks become the reference of its class. -/
def Obligations.BanksSwitchOnRequest : Prop :=
  (∀ (who : Who) (v : Bytes) (s : State), writePasses s who 0x6001 1 v = true → needsAck s = false → switchStatus s true (fromLE v) = 0 →
     ∃ t, exec (.observerSwitchRequest who v) s = .next t ∧ answered t who 0x6001 1 0 ∧
       (∀ n : LaneId, n ∈ lanesOfMask (fromLE v) → (laneAt t n).loop.banks = { (laneAt s n).loop.banks with obsPending := true }) ∧
       ∀ n : LaneId, n ∉ lanesOfMask (fromLE v) → laneAt t n = laneAt s n) ∧
  (∀ (who : Who) (v : Bytes) (s : State), writePasses s who 0x6001 2 v = true → needsAck s = false → switchStatus s false (fromLE v) = 0 →
     ∃ t, exec (.biquadSwitchRequest who v) s = .next t ∧ answered t who 0x6001 2 0 ∧
       (∀ n : LaneId, n ∈ lanesOfMask (fromLE v) → (laneAt t n).loop.banks = { (laneAt s n).loop.banks with bqPending := true }) ∧
       ∀ n : LaneId, n ∉ lanesOfMask (fromLE v) → laneAt t n = laneAt s n) ∧
  (∀ (who : Who) (v : Bytes) (s : State), writePasses s who 0x6001 1 v = true → switchStatus s true (fromLE v) ≠ 0 →
     exec (.observerSwitchRequest who v) s = .next (send (.answer who 0x6001 1 (switchStatus s true (fromLE v))) s)) ∧
  (∀ (who : Who) (v : Bytes) (s : State), writePasses s who 0x6001 2 v = true → switchStatus s false (fromLE v) ≠ 0 →
     exec (.biquadSwitchRequest who v) s = .next (send (.answer who 0x6001 2 (switchStatus s false (fromLE v))) s)) ∧
  (∀ (who : Who) (n : LaneId) (v : Bytes) (s : State), writePasses s who (0x6010 + n.val) 1 v = true → needsAck s = false →
     bankCheck v = true → (laneAt s n).loop.banks.obsPending = false →
     ∃ t, exec (.observerShadowWrite who n v) s = .next t ∧ answered t who (0x6010 + n.val) 1 0 ∧
       (laneAt t n).loop.banks = { (laneAt s n).loop.banks with obsShadow := v }) ∧
  (∀ (who : Who) (n : LaneId) (v : Bytes) (s : State), writePasses s who (0x6010 + n.val) 1 v = true →
     (bankCheck v = false ∨ (laneAt s n).loop.banks.obsPending = true) →
     exec (.observerShadowWrite who n v) s =
       .next (send (.answer who (0x6010 + n.val) 1 (if bankCheck v then 0x0501 else 0x0601)) s)) ∧
  (∀ (who : Who) (n : LaneId) (v : Bytes) (s : State), writePasses s who (0x6030 + n.val) 1 v = true → needsAck s = false →
     bankCheck v = true → (laneAt s n).loop.banks.bqPending = false →
     ∃ t, exec (.biquadShadowWrite who n v) s = .next t ∧ answered t who (0x6030 + n.val) 1 0 ∧
       (laneAt t n).loop.banks = { (laneAt s n).loop.banks with bqShadow := v }) ∧
  (∀ (who : Who) (n : LaneId) (v : Bytes) (s : State), writePasses s who (0x6030 + n.val) 1 v = true →
     (bankCheck v = false ∨ (laneAt s n).loop.banks.bqPending = true) →
     exec (.biquadShadowWrite who n v) s =
       .next (send (.answer who (0x6030 + n.val) 1 (if bankCheck v then 0x0501 else 0x0601)) s)) ∧
  (∀ (who : Who) (slot : Fin 16) (sub : Nat) (v : Bytes) (s : State), writePasses s who (0x6080 + slot.val) sub v = true →
     needsAck s = false → 1 ≤ sub ∧ sub ≤ 3 → (sub ≠ 1 → bankCheck v = true) →
     ∃ t, exec (.librarySlotWrite who slot sub v) s = .next t ∧ stored t (0x6080 + slot.val) sub = v ∧
       answered t who (0x6080 + slot.val) sub 0 ∧
       ∀ n : LaneId, pickupClass s n = some (cfg t (0x6080 + slot.val) 1) →
         (laneAt t n).loop.banks.obsRef = stored t (0x6080 + slot.val) 2 ∧ (laneAt t n).loop.banks.bqRef = stored t (0x6080 + slot.val) 3) ∧
  (∀ (who : Who) (slot : Fin 16) (sub : Nat) (v : Bytes) (s : State), writePasses s who (0x6080 + slot.val) sub v = true →
     (sub = 2 ∨ sub = 3) → bankCheck v = false →
     exec (.librarySlotWrite who slot sub v) s = .next (send (.answer who (0x6080 + slot.val) sub 0x0601) s))

/-- The sled: set-point, host strides, stop, coil currents, encoder and microstep tables. SLED_SETPOINT, HOST_STRIDE, HOST_STOP,
QUIET_DELAY_EXPIRE, HOLD_CURRENT_TIMEOUT, ENC_FAILURE, MICROSTEP_TABLE_WRITE, RESTORE_DEFAULT_TABLE: at the lane's sled sample
instant the set-point is formed from the profile's position, the gearing term and the centering term, homing runs at its speed
and amplitude, and at another instant nothing happens; a stride within the soft limits is posted to the order ring, another
answers 0301; a stop decelerates the stride that runs; the coil current drops after the quiet delay and to the hold current
after the rest time; a failed ENC leaves the spindle observer as master, with event 1502; a microstep table pends its
boundary, or is refused 0601. -/
def Obligations.SledFollowsItsOrders : Prop :=
  (∀ (n : LaneId) (e : Nat) (sa sb : Int) (d : Sled) (s : State), sledDue s n = true → (laneAt s n).life.homing = false →
     (laneAt s n).sled = d → d.profile = none → d.geared = false → d.running = false → (laneAt s n).loop.overrun.sledHeld = false →
     65536 * lcfgInt s n 0xA3 1 ≤ d.p + offProfile { d with c := (laneAt s n).loop.cascades[2].out } →
     d.p + offProfile { d with c := (laneAt s n).loop.cascades[2].out } ≤ 65536 * lcfgInt s n 0xA3 2 →
     ∃ t, exec (.sledSetpoint n e sa sb) s = .next t ∧ (laneAt t n).sled.p = d.p ∧ (laneAt t n).sled.centering = false ∧
       (laneAt t n).sled.s = d.p + offProfile { d with c := (laneAt s n).loop.cascades[2].out } ∧
       (laneAt t n).sled.c = (laneAt s n).loop.cascades[2].out ∧ (laneAt t n).sled.encLast = e ∧
       (laneAt t n).sled.master = (((d.master : Int) + masterDelta s n e) % 2 ^ 32).toNat ∧ (laneAt t n).sled.latch.isSome = true) ∧
  (∀ (n : LaneId) (e : Nat) (sa sb : Int) (d : Sled) (pr : Profile) (s : State), sledDue s n = true → (laneAt s n).life.homing = false →
     (laneAt s n).sled = d → d.profile = some pr → d.geared = false →
     pr.vEnd = 0 → pr.t + 100000 < segsTime pr.segs → (laneAt s n).loop.overrun.sledHeld = false →
     65536 * lcfgInt s n 0xA3 1 ≤ pr.target + offProfile { d with c := (laneAt s n).loop.cascades[2].out } →
     pr.target + offProfile { d with c := (laneAt s n).loop.cascades[2].out } ≤ 65536 * lcfgInt s n 0xA3 2 →
     ∃ t, exec (.sledSetpoint n e sa sb) s = .next t ∧ (laneAt t n).sled.profile = some { pr with t := pr.t + 100000 } ∧
       (laneAt t n).sled.p = (segsEval pr.segs pr.x0 pr.v0 pr.a0 (pr.t + 100000)).1 / 3 ∧
       (laneAt t n).sled.v = (segsEval pr.segs pr.x0 pr.v0 pr.a0 (pr.t + 100000)).2.1 ∧ (laneAt t n).sled.queue = d.queue) ∧
  (∀ (n : LaneId) (e : Nat) (sa sb : Int) (pr : Profile) (s : State), sledDue s n = true → (laneAt s n).life.homing = true →
     (laneAt s n).sled.profile = some pr →
     ∃ t, exec (.sledSetpoint n e sa sb) s = .next t ∧ (laneAt t n).sled.v = pr.v0 ∧
       (laneAt t n).sled.p = (segsEval [] pr.x0 pr.v0 pr.a0 (pr.t + 100000)).1 / 3 ∧ (laneAt t n).sled.mode = 1 ∧
       (laneAt t n).sled.amp = homingAmp) ∧
  (∀ (n : LaneId) (e : Nat) (sa sb : Int) (s : State), sledDue s n = false → exec (.sledSetpoint n e sa sb) s = .next s) ∧
  (∀ (who : Who) (n : LaneId) (v : Bytes) (s : State), writePasses s who (laneIdx n 0xA2) 2 v = true → needsAck s = false →
     withinSoft s n (strideOf v).target = true → (laneAt s n).flt.orders.length < 64 →
     ∃ t, exec (.hostStride who n v) s = .next t ∧ answered t who (laneIdx n 0xA2) 2 0 ∧
       (laneAt t n).flt.orders = (laneAt s n).flt.orders ++ [.stride (strideOf v)]) ∧
  (∀ (who : Who) (n : LaneId) (v : Bytes) (s : State), writePasses s who (laneIdx n 0xA2) 2 v = true →
     withinSoft s n (strideOf v).target = false →
     exec (.hostStride who n v) s = .next (send (.answer who (laneIdx n 0xA2) 2 0x0301) s)) ∧
  (∀ (who : Who) (n : LaneId) (v : Bytes) (r : Stride) (s : State), writePasses s who (laneIdx n 0xA2) 3 v = true → needsAck s = false →
     (laneAt s n).sled.running = true → (laneAt s n).sled.stopping = false → (laneAt s n).sled.queue = [r] →
     ∃ t, exec (.hostStop who n v) s = .next t ∧ answered t who (laneIdx n 0xA2) 3 0 ∧ (laneAt t n).sled.stopping = true ∧
       (laneAt t n).sled.queue = [{ r with status := r.status ||| 2 }] ∧ (laneAt t n).sled.p = (laneAt s n).sled.p ∧
       (laneAt t n).sled.profile.map (fun p => (p.v0, p.a0, p.vEnd)) = some ((laneAt s n).sled.v, (laneAt s n).sled.a, 0)) ∧
  (∀ (n : LaneId) (s : State), (laneAt s n).sled.mode = 2 → 48 * lcfg s n 0xA5 6 ≤ (laneAt s n).sled.below →
     ∃ t, exec (.quietDelayExpire n) s = .next t ∧ (laneAt t n).sled = { (laneAt s n).sled with
       mode := 1, ampFrom := (laneAt s n).sled.amp, ampTo := lcfgInt s n 0xA5 3, ampStep := 0, hold := false }) ∧
  (∀ (n : LaneId) (s : State), (laneAt s n).sled.mode = 1 → (laneAt s n).sled.hold = false →
     48 * lcfg s n 0xA5 7 ≤ (laneAt s n).sled.rest →
     ∃ t, exec (.holdCurrentTimeout n) s = .next t ∧ (laneAt t n).sled = { (laneAt s n).sled with
       hold := true, ampFrom := (laneAt s n).sled.amp, ampTo := lcfgInt s n 0xA5 5, ampStep := 0 }) ∧
  (∀ (n : LaneId) (noEdge : Bool) (s : State), lcfg s n 0xA6 1 = 1 → (laneAt s n).sled.fallback = false →
     (noEdge = true → 24000 < (laneAt s n).spin.omega * 576000000 / 2 ^ 40) →
     ∃ t, exec (.encFailure n noEdge) s = .next t ∧ (laneAt t n).sled.fallback = true ∧
       lastEvent t = some (0x1502, evData [.u8 n.val, .u8 (b2n noEdge)]) ∧ (laneAt t n).sled.master = (laneAt s n).sled.master) ∧
  (∀ (n : LaneId) (noEdge : Bool) (s : State), (lcfg s n 0xA6 1 ≠ 1 ∨ (laneAt s n).sled.fallback = true) →
     exec (.encFailure n noEdge) s = .next s) ∧
  (∀ (who : Who) (n : LaneId) (v : Bytes) (s : State), writePasses s who (laneIdx n 0xA4) 2 v = true → needsAck s = false →
     crc32 (v.take 512) = field v 512 4 →
     ∃ t, exec (.microstepTableWrite who n v) s = .next t ∧ answered t who (laneIdx n 0xA4) 2 0 ∧
       stored t (laneIdx n 0xA4) 2 = v ∧ (laneAt t n).sled.pendingTable = some (v.take 512) ∧
       (laneAt t n).sled.table = (laneAt s n).sled.table) ∧
  (∀ (who : Who) (n : LaneId) (v : Bytes) (s : State), writePasses s who (laneIdx n 0xA4) 2 v = true →
     crc32 (v.take 512) ≠ field v 512 4 →
     exec (.microstepTableWrite who n v) s = .next (send (.answer who (laneIdx n 0xA4) 2 0x0601) s)) ∧
  (∀ (who : Who) (n : LaneId) (v : Bytes) (s : State), writePasses s who (laneIdx n 0xA4) 3 v = true → needsAck s = false →
     ∃ t, exec (.restoreDefaultTable who n v) s = .next t ∧ answered t who (laneIdx n 0xA4) 3 0 ∧
       (laneAt t n).sled.pendingTable = some (defaultTable.take 512) ∧ mapGet t.dict.reg (regKey (laneIdx n 0xA4) 2) = none)

/-- Warm-ups begin, wait, are measured part by part, judged, ended and retried. START_WARM_UP, WARM_UP_START, WARM_UP_RETRY,
OPC_WAIT_EXPIRE, TRIM_SET_RESTORE (R508, R509, R517, R522, R527): the parts asked for are noted, or refused 0501 while a warm-
up runs and 0401 below READY; a due warm-up starts with its first part, and a failed one again after its interval; WRITE_POWER
that has waited for L+C0:05 takes the next boundary in HOLDING and is ordered to its test units; a trim set within the windows
replaces the trims, one outside is refused 0301. WARM_UP_READ, WARM_UP_PART_END, WARM_UP_PART_TIMEOUT, WRITE_POWER_PASS (R512,
R513, R517, R521): after 100 ms without a read the lane becomes HOLDING, goes to the nearest recorded slot or the lead-in and
reads it; DETECTOR is judged from its 1,024 samples, RF and TRACKING from the frames counted, a probe level from its sum; a
part that fails keeps the trims and raises event 1602, and the next part begins; a part that counts no frames in time fails
with code 5; a test pass at its place uses four test units, gives the factors, and orders the lane back. -/
def Obligations.WarmUpsRunAndEnd : Prop :=
  (∀ (who : Who) (n : LaneId) (v : Bytes) (s : State), writePasses s who (laneIdx n 0xC0) 1 v = true → needsAck s = false →
     (laneAt s n).warm.running = false → (fromLE v = 1 ∨ readyUp (laneAt s n).life.st = true) →
     ∃ t, exec (.startWarmUp who n v) s = .next t ∧ answered t who (laneIdx n 0xC0) 1 0 ∧
       (laneAt t n).warm.asked = fromLE v - fromLE v % 2 ∧ (laneAt t n).warm.autoStopped = false ∧
       (laneAt t n).warm.detectorPending = ((laneAt s n).warm.detectorPending || bit (fromLE v) 0) ∧
       (laneAt t n).warm.trims = (laneAt s n).warm.trims) ∧
  (∀ (who : Who) (n : LaneId) (v : Bytes) (s : State), writePasses s who (laneIdx n 0xC0) 1 v = true →
     ((laneAt s n).warm.running = true ∨ (fromLE v ≠ 1 ∧ readyUp (laneAt s n).life.st = false)) →
     exec (.startWarmUp who n v) s =
       .next (send (.answer who (laneIdx n 0xC0) 1 (if (laneAt s n).warm.running then 0x0501 else 0x0401)) s)) ∧
  (∀ (n : LaneId) (p : Nat) (rest : List Nat) (s : State), readyUp (laneAt s n).life.st = true → (laneAt s n).warm.running = false →
     warmStarts s n = true →
     (if (laneAt s n).warm.asked = 0 then [1, 2, 3, 4, 5, 6] else [1, 2, 3, 4, 5, 6].filter (fun p => bit (laneAt s n).warm.asked p)) = p :: rest →
     p ≠ 6 →
     ∃ t, exec (.warmUpStart n) s = .next t ∧ (laneAt t n).warm.running = true ∧ (laneAt t n).warm.part = p ∧
       (laneAt t n).warm.todo = rest ∧ (laneAt t n).warm.byHost = decide ((laneAt s n).warm.asked ≠ 0) ∧ (laneAt t n).warm.asked = 0 ∧
       (laneAt t n).warm.started = s.ticks ∧ (laneAt t n).warm.failed = false) ∧
  (∀ (n : LaneId) (s : State), (readyUp (laneAt s n).life.st = false ∨ (laneAt s n).warm.running = true ∨ warmStarts s n = false) →
     exec (.warmUpStart n) s = .next s) ∧
  (∀ (n : LaneId) (k : Nat) (s : State), (laneAt s n).warm.retryAt = some k → k ≤ s.ticks → readyUp (laneAt s n).life.st = true →
     (laneAt s n).warm.running = false → (laneAt s n).warm.asked = 0 → (laneAt s n).warm.autoStopped = false →
     (laneAt s n).warm.baseline = true →
     ∃ t, exec (.warmUpRetry n) s = .next t ∧ (laneAt t n).warm.running = true ∧ (laneAt t n).warm.part = 1 ∧
       (laneAt t n).warm.todo = [2, 3, 4, 5, 6] ∧ (laneAt t n).warm.retryAt = none) ∧
  (∀ (n : LaneId) (s : State), ((laneAt s n).warm.retryAt = none ∨ ∃ k, (laneAt s n).warm.retryAt = some k ∧ s.ticks < k) →
     exec (.warmUpRetry n) s = .next s) ∧
  (∀ (n : LaneId) (d : Disc) (s : State), (laneAt s n).warm.running = true → (laneAt s n).warm.opcWaiting = true →
     atExtentBoundary (laneAt s n) = true → passed s (laneAt s n).warm.started (msTicks (lcfg s n 0xC0 5)) = true →
     (laneAt s n).disc = some d →
     ∃ t, exec (.opcWaitExpire n) s = .next t ∧ (laneAt t n).life.st = .holding ∧ (laneAt t n).warm.opcWaiting = false ∧
       (laneAt t n).warm.testPass = some (opcLayer s n, firstUnit d (opcLayer s n)) ∧ (laneAt t n).life.targetLayer = opcLayer s n ∧
       (laneAt t n).life.targetBand = (testPlace (firstUnit d (opcLayer s n))).1) ∧
  (∀ (n : LaneId) (s : State), ((laneAt s n).warm.running = false ∨ (laneAt s n).warm.opcWaiting = false) →
     exec (.opcWaitExpire n) s = .next s) ∧
  (∀ (who : Who) (n : LaneId) (v : Bytes) (s : State), writePasses s who (laneIdx n 0xC1) 1 v = true → needsAck s = false →
     (slice v 66 6).any (fun b => decide (b ≠ 0)) = false →
     (upTo 32).any (fun i => decide (windowOf s n i < ((trimWords v).getD i 0 - (laneAt s n).warm.factory.getD i 0).natAbs)) = false →
     (laneAt s n).warm.running = false → (laneAt s n).warm.detecting = false → (laneAt s n).warm.trims.length = 32 →
     ∃ t, exec (.trimSetRestore who n v) s = .next t ∧ answered t who (laneIdx n 0xC1) 1 0 ∧
       (laneAt t n).warm.trims = trimWords v ∧ (laneAt t n).warm.refTemp = fromLEInt (slice v 64 2) ∧
       (laneAt t n).warm.accepted = field v 72 8 ∧ (laneAt t n).warm.baseline = false ∧ (laneAt t n).warm.failures = 0) ∧
  (∀ (who : Who) (n : LaneId) (v : Bytes) (s : State), writePasses s who (laneIdx n 0xC1) 1 v = true →
     (slice v 66 6).any (fun b => decide (b ≠ 0)) = false →
     (upTo 32).any (fun i => decide (windowOf s n i < ((trimWords v).getD i 0 - (laneAt s n).warm.factory.getD i 0).natAbs)) = true →
     exec (.trimSetRestore who n v) s = .next (send (.answer who (laneIdx n 0xC1) 1 0x0301) s)) ∧
  (∀ (n : LaneId) (d : Disc) (y : Nat) (s : State), (laneAt s n).warm.running = true → 1 ≤ (laneAt s n).warm.part →
     (laneAt s n).warm.part ≤ 5 → atExtentBoundary (laneAt s n) = true →
     passed s (max (laneAt s n).life.idle (laneAt s n).warm.started) (msTicks 100) = true → (laneAt s n).disc = some d →
     (laneAt s n).life.layer = some y → nearestRecorded d y ((laneAt s n).life.band.getD 0) = none →
     standsAt (laneAt s n) 220 = true → readable s n = true →
     ∃ t, exec (.warmUpRead n) s = .next t ∧ (laneAt t n).life.st = .holding ∧ (laneAt t n).rd.jobs = leadJobs y) ∧
  (∀ (n : LaneId) (d : Disc) (y : Nat) (s : State), (laneAt s n).warm.running = true → 1 ≤ (laneAt s n).warm.part →
     (laneAt s n).warm.part ≤ 5 → atExtentBoundary (laneAt s n) = true →
     passed s (max (laneAt s n).life.idle (laneAt s n).warm.started) (msTicks 100) = true → (laneAt s n).disc = some d →
     (laneAt s n).life.layer = some y → nearestRecorded d y ((laneAt s n).life.band.getD 0) = none →
     standsAt (laneAt s n) 220 = false →
     ∃ t, exec (.warmUpRead n) s = .next t ∧ (laneAt t n).life.st = .holding ∧ (laneAt t n).life.targetLayer = y ∧
       (laneAt t n).life.targetBand = 220 ∧ (laneAt t n).rd.jobs = (laneAt s n).rd.jobs) ∧
  (∀ (n : LaneId) (s : State), ((laneAt s n).warm.running = false ∨ atExtentBoundary (laneAt s n) = false) →
     exec (.warmUpRead n) s = .next s) ∧
  (∀ (n : LaneId) (m : List (List Int)) (s : State), (laneAt s n).warm.detecting = true → m.length = 1024 →
     (upTo 8).all (fun j => decide (spread (detectorCodes m j) ≤ 256)) = false →
     ∃ t, exec (.warmUpPartEnd n m) s = .next t ∧ (laneAt t n).warm.detecting = false ∧
       (laneAt t n).warm.trims = (laneAt s n).warm.trims ∧ (laneAt t n).warm.results = (laneAt s n).warm.results.set 0 4 ∧
       lastEvent t = some (0x1602, evData [.u8 n.val, .u8 0, .u8 4])) ∧
  (∀ (n : LaneId) (m : List (List Int)) (s : State), (laneAt s n).warm.detecting = true → m.length = 1024 →
     (upTo 8).all (fun j => decide (spread (detectorCodes m j) ≤ 256)) = true → (laneAt s n).warm.trims.length = 32 →
     judgeTrims s n ((upTo 8).map (fun j =>
       (16 + j, (laneAt s n).warm.trims.getD (16 + j) 0 - roundDiv (sumInt (detectorCodes m j)) 1024))) = 1 →
     ∃ t, exec (.warmUpPartEnd n m) s = .next t ∧ (laneAt t n).warm.detecting = false ∧
       (laneAt t n).warm.results = (laneAt s n).warm.results.set 0 1 ∧
       ∀ i : Fin 32, (laneAt t n).warm.trims.getD i.val 0 = (if 16 ≤ i.val ∧ i.val < 24 then
         (laneAt s n).warm.trims.getD i.val 0 - roundDiv (sumInt (detectorCodes m (i.val - 16))) 1024
         else (laneAt s n).warm.trims.getD i.val 0)) ∧
  (∀ (n : LaneId) (m : List (List Int)) (p : Nat) (rest : List Nat) (s : State), (laneAt s n).warm.detecting = false →
     (laneAt s n).warm.running = true → (laneAt s n).warm.part = 1 → 64 ≤ (laneAt s n).warm.frames →
     rfQuality (laneAt s n).warm = false → (laneAt s n).warm.todo = p :: rest → p ≠ 6 →
     ∃ t, exec (.warmUpPartEnd n m) s = .next t ∧ (laneAt t n).warm.part = p ∧ (laneAt t n).warm.todo = rest ∧
       (laneAt t n).warm.results = (laneAt s n).warm.results.set 1 4 ∧ (laneAt t n).warm.failed = true ∧
       (laneAt t n).warm.trims = (laneAt s n).warm.trims ∧ lastEvent t = some (0x1602, evData [.u8 n.val, .u8 1, .u8 4])) ∧
  (∀ (n : LaneId) (m : List (List Int)) (p : Nat) (rest : List Nat) (s : State), (laneAt s n).warm.detecting = false →
     (laneAt s n).warm.running = true → (laneAt s n).warm.part = 2 → 64 ≤ (laneAt s n).warm.frames →
     (laneAt s n).warm.trims.length = 32 → judgeTrims s n [(25, trackingValue s n)] = 1 → (laneAt s n).warm.todo = p :: rest → p ≠ 6 →
     ∃ t, exec (.warmUpPartEnd n m) s = .next t ∧ (laneAt t n).warm.part = p ∧ (laneAt t n).warm.todo = rest ∧
       (laneAt t n).warm.results = (laneAt s n).warm.results.set 2 1 ∧
       (laneAt t n).warm.trims = (laneAt s n).warm.trims.set 25 (trackingValue s n)) ∧
  (∀ (n : LaneId) (m : List (List Int)) (s : State), (laneAt s n).warm.detecting = false → (laneAt s n).warm.running = true →
     3 ≤ (laneAt s n).warm.part ∧ (laneAt s n).warm.part ≤ 5 → 8 ≤ (laneAt s n).warm.frames → (laneAt s n).warm.probe < 2 →
     ∃ t, exec (.warmUpPartEnd n m) s = .next t ∧ (laneAt t n).warm = { (laneAt s n).warm with
       q := (laneAt s n).warm.q ++ [(laneAt s n).warm.sums.getD 0 0], probe := (laneAt s n).warm.probe + 1, frames := 0 }) ∧
  (∀ (n : LaneId) (m : List (List Int)) (s : State), (laneAt s n).warm.detecting = false →
     ((laneAt s n).warm.running = false ∨ (laneAt s n).warm.frames < partFrames (laneAt s n).warm.part) →
     exec (.warmUpPartEnd n m) s = .next s) ∧
  (∀ (n : LaneId) (p : Nat) (rest : List Nat) (s : State), (laneAt s n).warm.running = true →
     1 ≤ (laneAt s n).warm.part ∧ (laneAt s n).warm.part ≤ 5 → (laneAt s n).warm.frames < partFrames (laneAt s n).warm.part →
     passed s (laneAt s n).warm.started (msTicks (lcfg s n 0xC0 8)) = true → (laneAt s n).warm.todo = p :: rest → p ≠ 6 →
     ∃ t, exec (.warmUpPartTimeout n) s = .next t ∧ (laneAt t n).warm.part = p ∧
       (laneAt t n).warm.results = (laneAt s n).warm.results.set (laneAt s n).warm.part 5 ∧ (laneAt t n).warm.failed = true ∧
       lastEvent t = some (0x1602, evData [.u8 n.val, .u8 (laneAt s n).warm.part, .u8 5])) ∧
  (∀ (n : LaneId) (s : State), passed s (laneAt s n).warm.started (msTicks (lcfg s n 0xC0 8)) = false →
     exec (.warmUpPartTimeout n) s = .next s) ∧
  (∀ (n : LaneId) (beta : List (List Int)) (diffs : List (List Nat)) (y u0 : Nat) (d : Disc) (s : State),
     (laneAt s n).warm.testPass = some (y, u0) → (laneAt s n).disc = some d → (laneAt s n).warm.running = true →
     (laneAt s n).warm.part = 6 → (laneAt s n).life.st = .holding → testable d = true → mayRecord s n = true →
     (laneAt s n).pace.v ≤ max 2496 (mediaVelocity (laneAt s n)) →
     framedAt (laneAt s n).wr y (testPlace u0).1 (testPlace u0).2.2 3 = true →
     ∃ t, exec (.writePowerPass n beta diffs) s = .next t ∧ (laneAt t n).warm.testPass = none ∧ (laneAt t n).warm.frames = 16 ∧
       (laneAt t n).disc.map (fun x => x.testUnit[Fin.ofNat 8 y]) = some (u0 + 4) ∧
       ((laneAt t n).life.targetLayer, (laneAt t n).life.targetBand) = (laneAt s n).warm.backTo.getD (y, (testPlace u0).1) ∧
       (laneAt t n).warm.q = (upTo 4).filterMap (fun k => opcFactor (lcfgInt s n 0xC4 2) ((laneAt s n).warm.trims.getD (28 + k) 0)
         (lcfg s n 0x40 1) (beta.getD k []) (diffs.getD k []))) ∧
  (∀ (n : LaneId) (beta : List (List Int)) (diffs : List (List Nat)) (s : State), (laneAt s n).warm.testPass = none →
     exec (.writePowerPass n beta diffs) s = .next s)

/-- I/O queues are created and deleted. CREATE_IO_CQ, CREATE_IO_SQ, DELETE_IO_SQ, DELETE_IO_CQ (R537, R539, R585): a queue of a
free identifier and an allowed size comes to be, another identifier ends Invalid Queue Identifier, a completion queue in the
CMB Invalid Use of CMB, and a submission queue that names no completion queue Completion Queue Invalid; the deletion of a
submission queue stays pending and holds its commands; a completion queue is deleted unless a submission queue names it. -/
def Obligations.QueuesCreatedAndDeleted : Prop :=
  (∀ (c : CmdId) (id size vec : Nat) (prp : Nat) (s : State), adminOpen s c = true → 1 ≤ id ∧ id ≤ 64 → 2 ≤ size ∧ size ≤ 4096 → vec ≤ 64 →
     prp < 2 ^ 63 → s.host.ctrls[c.ctrl].cqs.all (fun q => decide (q.id ≠ id)) = true →
     ∃ t, exec (.createIoCq c (id + 65536 * (size - 1)) (3 + 65536 * vec) prp) s = .next t ∧
       t.host.ctrls[c.ctrl].cqs = s.host.ctrls[c.ctrl].cqs ++
         [{ id := id, size := size, base := prp, vector := vec, ien := true, head := 0, tail := 0, phase := true, waiting := 0, held := [] }] ∧
       t.sent.take 2 = adminAnswer c 0 0 0 0) ∧
  (∀ (c : CmdId) (dw10 dw11 prp : Nat) (s : State), adminOpen s c = true →
     (dw10 % 65536 = 0 ∨ 64 < dw10 % 65536 ∨ s.host.ctrls[c.ctrl].cqs.any (fun q => q.id = dw10 % 65536) = true) →
     ∃ t, exec (.createIoCq c dw10 dw11 prp) s = .next t ∧ t.host.ctrls[c.ctrl].cqs = s.host.ctrls[c.ctrl].cqs ∧
       t.sent.take 2 = adminAnswer c 1 1 0 0) ∧
  (∀ (c : CmdId) (id size vec : Nat) (prp : Nat) (s : State), adminOpen s c = true → 1 ≤ id ∧ id ≤ 64 → 2 ≤ size ∧ size ≤ 4096 → vec ≤ 64 →
     2 ^ 63 ≤ prp → s.host.ctrls[c.ctrl].cqs.all (fun q => decide (q.id ≠ id)) = true →
     ∃ t, exec (.createIoCq c (id + 65536 * (size - 1)) (3 + 65536 * vec) prp) s = .next t ∧
       t.host.ctrls[c.ctrl].cqs = s.host.ctrls[c.ctrl].cqs ∧ t.sent.take 2 = adminAnswer c 0 0x12 0 0) ∧
  (∀ (c : CmdId) (id size cls cq : Nat) (prp : Nat) (s : State), adminOpen s c = true → 1 ≤ id ∧ id ≤ 64 → 2 ≤ size ∧ size ≤ 4096 →
     s.host.ctrls[c.ctrl].sqs.all (fun q => decide (q.id ≠ id)) = true →
     s.host.ctrls[c.ctrl].cqs.any (fun q => q.id = cq) = true → cls < 4 → cq < 65536 →
     ∃ t, exec (.createIoSq c (id + 65536 * (size - 1)) (1 + 2 * cls + 65536 * cq) prp) s = .next t ∧
       t.host.ctrls[c.ctrl].sqs = s.host.ctrls[c.ctrl].sqs ++ [{ id := id, size := size, base := prp, cls := if s.host.ctrls[c.ctrl].wrr then cls else 0, cq := cq, head := 0, tail := 0 }] ∧
       t.sent.take 2 = adminAnswer c 0 0 0 0) ∧
  (∀ (c : CmdId) (id size : Nat) (dw11 prp : Nat) (s : State), adminOpen s c = true → 1 ≤ id ∧ id ≤ 64 → 2 ≤ size ∧ size ≤ 4096 →
     s.host.ctrls[c.ctrl].cqs.any (fun q => q.id = dw11 / 65536 % 65536) = false →
     s.host.ctrls[c.ctrl].sqs.all (fun q => decide (q.id ≠ id)) = true →
     ∃ t, exec (.createIoSq c (id + 65536 * (size - 1)) dw11 prp) s = .next t ∧ t.host.ctrls = s.host.ctrls.set c.ctrl (t.host.ctrls[c.ctrl]) ∧
       t.host.ctrls[c.ctrl].sqs = s.host.ctrls[c.ctrl].sqs ∧ t.sent.take 2 = adminAnswer c 1 0 0 0) ∧
  (∀ (c : CmdId) (q : SubQueue) (s : State), canFetch s (adminId c) = true → busyId s (adminId c) = false → s.power.unit ≠ 2 → 0 < q.id →
     q.id < 65536 → s.host.ctrls[c.ctrl].sqs = [q] → s.host.ctrls[c.ctrl].deletes = [] → s.host.flights = [] →
     ∃ t, exec (.deleteIoSq c q.id) s = .next t ∧ t.host.ctrls[c.ctrl].deletes = [(adminId c, q.id)] ∧
       t.host.ctrls[c.ctrl].sqs = [q] ∧ t.host.flights.map (fun f => f.c) = [adminId c] ∧ t.sent = s.sent) ∧
  (∀ (c : CmdId) (dw10 : Nat) (s : State), adminOpen s c = true → s.host.ctrls[c.ctrl].sqs = [] →
     ∃ t, exec (.deleteIoSq c dw10) s = .next t ∧ t.host.ctrls[c.ctrl].deletes = s.host.ctrls[c.ctrl].deletes ∧
       t.sent.take 2 = adminAnswer c 1 1 0 0) ∧
  (∀ (c : CmdId) (q : CompQueue) (s : State), adminOpen s c = true → 0 < q.id → q.id < 65536 → s.host.ctrls[c.ctrl].cqs = [q] →
     s.host.ctrls[c.ctrl].sqs.any (fun x => x.cq = q.id) = false →
     ∃ t, exec (.deleteIoCq c q.id) s = .next t ∧ t.host.ctrls[c.ctrl].cqs = [] ∧ t.sent.take 2 = adminAnswer c 0 0 0 0) ∧
  (∀ (c : CmdId) (q : CompQueue) (s : State), adminOpen s c = true → 0 < q.id → q.id < 65536 → s.host.ctrls[c.ctrl].cqs = [q] →
     s.host.ctrls[c.ctrl].sqs.any (fun x => x.cq = q.id) = true →
     ∃ t, exec (.deleteIoCq c q.id) s = .next t ∧ t.host.ctrls[c.ctrl].cqs = [q] ∧ t.sent.take 2 = adminAnswer c 1 12 0 0)

/-- Log pages, Identify, Get Features, Abort and asynchronous events. GET_LOG_PAGE, IDENTIFY, GET_FEATURES, ABORT,
ASYNC_EVENT_REQUEST, INVALID_OPCODE (R535, R540 to R543, R578, R579): a log page and Identify data are transferred in the
length asked for, and others end Invalid Field; a feature's value is Dword 0; an abort of a Read in flight is counted and ends
with Dword 0 0, one that finds nothing with 1; up to 8 event requests wait, a further one ends Asynchronous Event Request
Limit Exceeded; an unknown opcode ends Invalid Command Opcode. -/
def Obligations.AdminQueriesAnswered : Prop :=
  (∀ (c : CmdId) (nsid lid : Nat) (b : Bytes) (numd : Nat) (s : State), adminOpen s c = true → lid < 256 → numd < 65536 →
     logPage s c.ctrl lid false = some b → (lid = 2 → nsid = 0) →
     ∃ t, exec (.getLogPage c nsid (lid + 32768 + 65536 * numd) 0 0 0) s = .next t ∧
       t.sent.take 3 = adminAnswer c 0 0 0 0 ++ [.data (adminId c) ((b ++ zeroBytes (4 * numd + 4)).take (4 * numd + 4))]) ∧
  (∀ (c : CmdId) (nsid dw10 dw11 dw12 dw13 : Nat) (s : State), adminOpen s c = true →
     logPage s c.ctrl (dw10 % 256) (dw10 % 256 = 0xC && bit dw10 8) = none →
     ∃ t, exec (.getLogPage c nsid dw10 dw11 dw12 dw13) s = .next t ∧ t.sent.take 2 = adminAnswer c 0 2 0 0) ∧
  (∀ (c : CmdId) (nsid cns csi : Nat) (b : Bytes) (s : State), adminOpen s c = true → cns < 256 → csi < 256 →
     identifyResult s c.ctrl nsid cns csi = .ok b →
     ∃ t, exec (.identify c nsid cns (2 ^ 24 * csi)) s = .next t ∧ t.sent.take 3 = adminAnswer c 0 0 0 0 ++ [.data (adminId c) b]) ∧
  (∀ (c : CmdId) (nsid cns csi sct sc : Nat) (d : Option Bool) (s : State), adminOpen s c = true → cns < 256 → csi < 256 →
     identifyResult s c.ctrl nsid cns csi = .error (sct, sc, d) → d = none →
     ∃ t, exec (.identify c nsid cns (2 ^ 24 * csi)) s = .next t ∧ t.sent.take 2 = adminAnswer c sct sc 0 0) ∧
  (∀ (c : CmdId) (fid dw11 v : Nat) (s : State), adminOpen s c = true → fid < 256 → featureValue s c.ctrl fid dw11 = some v →
     ∃ t, exec (.getFeatures c fid dw11) s = .next t ∧ t.host.ctrls = s.host.ctrls.set c.ctrl (servedAdmin s.host.ctrls[c.ctrl]) ∧
       t.sent.take 2 = adminAnswer c 0 0 v 0) ∧
  (∀ (c : CmdId) (fid dw11 : Nat) (s : State), adminOpen s c = true → fid < 256 → featureValue s c.ctrl fid dw11 = none →
     ∃ t, exec (.getFeatures c fid dw11) s = .next t ∧ t.sent.take 2 = adminAnswer c 0 2 0 0) ∧
  (∀ (c : CmdId) (dw10 : Nat) (s : State), adminOpen s c = true → s.host.flights = [] → 40 ≤ (stored s 0x2510 9).length →
     ∃ t, exec (.abort c dw10) s = .next t ∧ elem t 0x2510 9 8 4 = (elem s 0x2510 9 8 4 + 1) % 2 ^ 64 ∧ t.sent.take 2 = adminAnswer c 0 0 1 0) ∧
  (∀ (c : CmdId) (f : Flight) (s : State), adminOpen s c = true → s.host.flights = [f] → f.kind = .read → f.committing = false →
     f.c.ctrl = c.ctrl → 0 < f.c.sq ∧ f.c.sq < 65536 → f.c.cid < 65536 → 40 ≤ (stored s 0x2510 9).length →
     ∃ t, exec (.abort c (f.c.sq + 65536 * f.c.cid)) s = .next t ∧ elem t 0x2510 9 8 3 = (elem s 0x2510 9 8 3 + 1) % 2 ^ 64 ∧
       t.sent.take 2 = adminAnswer c 0 0 0 0) ∧
  (∀ (c : CmdId) (s : State), adminOpen s c = true → s.host.ctrls[c.ctrl].aers.length < 8 → s.host.ctrls[c.ctrl].events = [] →
     ∃ t, exec (.asyncEventRequest c) s = .next t ∧ t.host.ctrls[c.ctrl].aers = s.host.ctrls[c.ctrl].aers ++ [c.cid] ∧ t.sent = s.sent) ∧
  (∀ (c : CmdId) (s : State), adminOpen s c = true → 8 ≤ s.host.ctrls[c.ctrl].aers.length →
     ∃ t, exec (.asyncEventRequest c) s = .next t ∧ t.host.ctrls[c.ctrl].aers = s.host.ctrls[c.ctrl].aers ∧
       t.sent.take 2 = adminAnswer c 1 5 0 0) ∧
  (∀ (c : CmdId) (op : Nat) (s : State), adminOpen s c = true → c.sq = 0 →
     ∃ t, exec (.invalidOpcode c op) s = .next t ∧ t.lanes = s.lanes ∧ t.teams = s.teams ∧ t.sent.take 2 = adminAnswer c 0 1 0 0)

/-- Set Features. SET_FEATURES_ARBITRATION, _TEMP_THRESHOLD, _NUMBER_OF_QUEUES, _INT_COALESCING, _INT_VECTOR_CONFIG,
_ASYNC_EVENT_CONFIG and _UNSUPPORTED: without SV an accepted value takes force on that controller alone; with SV the command
ends Feature Identifier Not Saveable, and an unsupported identifier ends Invalid Field. -/
def Obligations.FeaturesTakeTheirValues : Prop :=
  (∀ (c : CmdId) (v : Nat) (s : State), adminOpen s c = true → v < 2 ^ 32 → bits v 7 3 = 0 →
     ∃ t, exec (.setFeaturesArbitration c false v) s = .next t ∧ t.sent.take 2 = adminAnswer c 0 0 0 0 ∧
       t.host.ctrls = s.host.ctrls.set c.ctrl { servedAdmin s.host.ctrls[c.ctrl] with feat := { s.host.ctrls[c.ctrl].feat with arbitration := v } }) ∧
  (∀ (c : CmdId) (k : Nat) (under : Bool) (s : State), adminOpen s c = true → k < 65536 →
     ∃ t, exec (.setFeaturesTempThreshold c false (k + (if under then 2 ^ 20 else 0))) s = .next t ∧
       t.host.ctrls[c.ctrl].feat = (if under then { s.host.ctrls[c.ctrl].feat with tempUnder := k } else { s.host.ctrls[c.ctrl].feat with tempOver := k }) ∧
       .completion (adminId c) 0 0 none 0 0 ∈ t.sent) ∧
  (∀ (c : CmdId) (a b : Nat) (s : State), adminOpen s c = true → a < 65535 → b < 65535 → s.host.ctrls[c.ctrl].sqs = [] →
     s.host.ctrls[c.ctrl].cqs = [] →
     ∃ t, exec (.setFeaturesNumberOfQueues c false (a + 65536 * b)) s = .next t ∧
       t.host.ctrls[c.ctrl].feat.queues = min a 63 + 65536 * min b 63 ∧ t.sent.take 2 = adminAnswer c 0 0 (min a 63 + 65536 * min b 63) 0) ∧
  (∀ (c : CmdId) (v : Nat) (s : State), adminOpen s c = true → v < 65536 →
     ∃ t, exec (.setFeaturesIntCoalescing c false v) s = .next t ∧ t.sent.take 2 = adminAnswer c 0 0 0 0 ∧
       t.host.ctrls = s.host.ctrls.set c.ctrl { servedAdmin s.host.ctrls[c.ctrl] with feat := { s.host.ctrls[c.ctrl].feat with coalescing := v } }) ∧
  (∀ (c : CmdId) (v : Nat) (cd : Bool) (s : State), adminOpen s c = true → v ≤ 64 →
     ∃ t, exec (.setFeaturesIntVectorConfig c false (v + (if cd then 65536 else 0))) s = .next t ∧ t.sent.take 2 = adminAnswer c 0 0 0 0 ∧
       ∀ w : Nat, t.host.ctrls[c.ctrl].feat.noCoalesce.contains w = (if w = v then cd else s.host.ctrls[c.ctrl].feat.noCoalesce.contains w)) ∧
  (∀ (c : CmdId) (v : Nat) (s : State), adminOpen s c = true → v < 2 ^ 32 →
     ∃ t, exec (.setFeaturesAsyncEventConfig c false v) s = .next t ∧ t.sent.take 2 = adminAnswer c 0 0 0 0 ∧
       t.host.ctrls = s.host.ctrls.set c.ctrl { servedAdmin s.host.ctrls[c.ctrl] with feat := { s.host.ctrls[c.ctrl].feat with async := v } }) ∧
  (∀ (c : CmdId) (fid : Nat) (sv : Bool) (s : State), adminOpen s c = true →
     ∃ t, exec (.setFeaturesUnsupported c sv fid) s = .next t ∧ t.host.ctrls[c.ctrl].feat = s.host.ctrls[c.ctrl].feat ∧
       t.sent.take 2 = (if sv then adminAnswer c 1 0x0D 0 0 else adminAnswer c 0 2 0 0)) ∧
  (∀ (c : CmdId) (v : Nat) (s : State), adminOpen s c = true →
     ∃ t, exec (.setFeaturesArbitration c true v) s = .next t ∧ t.host.ctrls[c.ctrl].feat = s.host.ctrls[c.ctrl].feat ∧
       t.sent.take 2 = adminAnswer c 1 0x0D 0 0) ∧
  (∀ (c : CmdId) (v : Nat) (s : State), adminOpen s c = true → (¬ s.host.ctrls[c.ctrl].sqs = [] ∨ ¬ s.host.ctrls[c.ctrl].cqs = []) →
     v % 65536 ≠ 65535 → v / 65536 % 65536 ≠ 65535 →
     ∃ t, exec (.setFeaturesNumberOfQueues c false v) s = .next t ∧ t.host.ctrls[c.ctrl].feat = s.host.ctrls[c.ctrl].feat ∧
       t.sent.take 2 = adminAnswer c 0 0x0C 0 0)

/-- Firmware images are downloaded, verified, copied and abandoned. OPEN_DOWNLOAD, CHUNK, IMAGE_VERIFY, IMAGE_COPY_TO_PEER,
ABANDON_DOWNLOAD, FIRMWARE_IMAGE_DOWNLOAD (R726 to R734, R739): an opened download takes the inactive slot with its header, or
is refused with the status of the first check that fails; a chunk whose SHA-256 is right is marked present, another answers
0601, and one outside the download 0301 or 0304; the whole image leaves its slot VALID or EMPTY, with events 6001 or 6002; the
copy to the peer is logged with event 6009; an abandoned download leaves its slot EMPTY; over NVMe the same download is made
by transfers. The verdict of the signature is a free value: the statement holds for either. -/
def Obligations.ImagesDownloaded : Prop :=
  (∀ (who : Who) (v : Bytes) (s : State), writePasses s who 0x2610 1 v = true → needsAck s = false →
     s.fw.slots[otherSlot (inactiveSlot s)].st ≠ 4 → s.fw.slots[inactiveSlot s].st ≠ 3 →
     ∃ t, exec (.openDownload who v) s = .next t ∧
       (verifyOrder false v s.fw.fusedMin = none → answered t who 0x2610 1 0 ∧ t.fw.slots[inactiveSlot s].st = 1 ∧
         t.fw.load = { state := 1, nvme := false, slot := (inactiveSlot s).val, header := v, chunks := [], status := 0, due := false }) ∧
       ∀ k, verifyOrder false v s.fw.fusedMin = some k → answered t who 0x2610 1 (orderStatus k) ∧ t.fw = s.fw) ∧
  (∀ (who : Who) (v : Bytes) (s : State), writePasses s who 0x2610 2 v = true → needsAck s = false → s.fw.load.state = 1 →
     field v 0 2 < chunkCount s.fw.load.header → field v 0 2 ≠ 0 →
     ∃ t, exec (.chunk who v) s = .next t ∧
       (sha256 (slice v 36 16384) = slice v 4 32 → answered t who 0x2610 2 0 ∧ t.fw.load.chunks.contains (field v 0 2) = true) ∧
       (sha256 (slice v 36 16384) ≠ slice v 4 32 → answered t who 0x2610 2 0x0601 ∧ t.fw = s.fw)) ∧
  (∀ (who : Who) (v : Bytes) (s : State), writePasses s who 0x2610 2 v = true →
     (s.fw.load.state ≠ 1 ∨ chunkCount s.fw.load.header ≤ field v 0 2) →
     exec (.chunk who v) s = .next (send (.answer who 0x2610 2 (if s.fw.load.state = 1 then 0x0301 else 0x0304)) s)) ∧
  (∀ (s : State), s.fw.load.state = 1 → s.fw.load.due = true →
     ∃ t, exec .imageVerify s = .next t ∧ t.fw.load.due = false ∧
       (verifyOrder true s.fw.slots[Fin.ofNat 2 s.fw.load.slot].image s.fw.fusedMin = none → t.fw.load.state = 2 ∧
         t.fw.slots[Fin.ofNat 2 s.fw.load.slot] = { s.fw.slots[Fin.ofNat 2 s.fw.load.slot] with st := 2 }) ∧
       ∀ k, verifyOrder true s.fw.slots[Fin.ofNat 2 s.fw.load.slot].image s.fw.fusedMin = some k → t.fw.load.state = 3 ∧
         t.fw.load.status = orderStatus k ∧ t.fw.slots[Fin.ofNat 2 s.fw.load.slot] = FlashSlot.empty ∧
         lastEvent t = some (0x6002, evData [.u8 (s.fw.load.slot % 2), .u8 k])) ∧
  (∀ (s : State), (s.fw.load.state ≠ 1 ∨ s.fw.load.due = false) → exec .imageVerify s = .next s) ∧
  (∀ (s : State), s.pair.role = 1 → batonUp s = true → s.fw.load.state = 2 → s.fw.slots[inactiveSlot s].st = 2 →
     ∃ t, exec .imageCopyToPeer s = .next t ∧ t.fw = s.fw ∧
       lastEvent t = some (0x6009, evData [.u8 (inactiveSlot s).val, .u32 s.fw.slots[inactiveSlot s].version])) ∧
  (∀ (s : State), (s.pair.role ≠ 1 ∨ batonUp s = false ∨ s.fw.load.state ≠ 2) → exec .imageCopyToPeer s = .next s) ∧
  (∀ (who : Who) (v : Bytes) (s : State), writePasses s who 0x2610 4 v = true → needsAck s = false →
     ∃ t, exec (.abandonDownload who v) s = .next t ∧ answered t who 0x2610 4 0 ∧
       (s.fw.load.state = 1 → t.fw.load = Download.none ∧ t.fw.slots[Fin.ofNat 2 s.fw.load.slot] = FlashSlot.empty) ∧
       (s.fw.load.state ≠ 1 → t.fw = s.fw)) ∧
  (∀ (c : CmdId) (b : Bytes) (s : State), adminOpen s c = true → s.pair.role ≠ 2 → s.fw.load.state ≠ 1 → 4096 ≤ b.length →
     s.fw.slots[otherSlot (inactiveSlot s)].st ≠ 4 → s.fw.slots[inactiveSlot s].st ≠ 3 → transferFits (b.take 4096) 0 b.length = true →
     b.length ≤ 33554432 →
     ∃ t, exec (.firmwareImageDownload c 0 (some b)) s = .next t ∧
       (verifyOrder false (b.take 4096) s.fw.fusedMin = none → t.fw.load.state = 1 ∧ t.fw.load.nvme = true ∧
         t.fw.load.header = b.take 4096 ∧ t.sent.take 2 = adminAnswer c 0 0 0 0 ∧
         ∀ k, 16384 * k < b.length → t.fw.load.chunks.contains k = true) ∧
       ∀ k, verifyOrder false (b.take 4096) s.fw.fusedMin = some k → t.fw = s.fw ∧
         t.sent.take 2 = adminAnswer c (orderNvme k).1 (orderNvme k).2.1 0 0) ∧
  (∀ (c : CmdId) (ofst : Nat) (b : Bytes) (s : State), adminOpen s c = true → s.pair.role ≠ 2 → s.fw.load.state = 1 →
     s.fw.load.nvme = true → ofst ≠ 0 → transferFits s.fw.load.header ofst b.length = true → b.length ≤ 33554432 →
     ∃ t, exec (.firmwareImageDownload c ofst (some b)) s = .next t ∧ t.sent.take 2 = adminAnswer c 0 0 0 0 ∧
       t.fw.load.header = s.fw.load.header ∧ ∀ k, 16384 * k < b.length → t.fw.load.chunks.contains (ofst / 16384 + k) = true) ∧
  (∀ (c : CmdId) (ofst : Nat) (b : Bytes) (s : State), adminOpen s c = true → s.pair.role ≠ 2 → s.fw.load.state ≠ 1 → ofst ≠ 0 →
     ofst % 16384 = 0 → b ≠ [] →
     ∃ t, exec (.firmwareImageDownload c ofst (some b)) s = .next t ∧ t.fw = s.fw ∧ t.sent.take 2 = adminAnswer c 0 0x0C 0 0)

/-- Firmware commits, activation alone and in a pair, and the trial. FIRMWARE_COMMIT_VERIFY, _PENDING, _SELECT and _ACTIVATE,
ACTIVATE, COMMIT_TRIAL, TRIAL_EXPIRE (R735, R736, R741): a commit of a VALID slot verifies it, or makes it PENDING and the
boot slot; another slot ends Invalid Firmware Slot; an activation that R736 does not refuse begins at its first step and
leaves its command in flight, and one refused ends with the status of the case; the trial is committed by the entry, or when
its time has run, and not before. ACTIVATION_STEP, ROLLING_ACTIVATION_STEP (R737, R738): each step of an activation leads to
the next: the image checked, admission frozen, the handoff and the directory written, the new slot running, admission resumed
with the pause counted; a step of the pair's activation that fails ends it with event 6006, and one that succeeds leads to the
next. -/
def Obligations.ImagesCommittedAndActivated : Prop :=
  (∀ (c : CmdId) (fs : Nat) (r : Fin 2) (s : State), adminOpen s c = true → s.pair.role ≠ 2 → slotOfFs s fs = some r → s.fw.load.state ≠ 1 →
     s.fw.slots[r].st = 2 →
     (∃ t, exec (.firmwareCommitVerify c fs) s = .next t ∧ t.fw = s.fw ∧ t.sent.take 2 = adminAnswer c 0 0 0 0) ∧
       (∃ t, exec (.firmwareCommitPending c fs) s = .next t ∧ t.fw.slots[r] = { s.fw.slots[r] with st := 3 } ∧ t.fw.dir.boot = r.val ∧
         t.sent.take 2 = adminAnswer c 1 0x0B 0 0) ∧
       ∃ t, exec (.firmwareCommitSelect c fs) s = .next t ∧ t.fw.slots[r] = { s.fw.slots[r] with st := 3 } ∧ t.fw.dir.boot = r.val ∧
         t.sent.take 2 = adminAnswer c 1 0x0B 0 0) ∧
  (∀ (c : CmdId) (fs : Nat) (s : State), adminOpen s c = true → s.pair.role ≠ 2 → slotOfFs s fs = none →
     (∃ t, exec (.firmwareCommitVerify c fs) s = .next t ∧ t.fw = s.fw ∧ t.sent.take 2 = adminAnswer c 1 6 0 0) ∧
       (∃ t, exec (.firmwareCommitPending c fs) s = .next t ∧ t.fw = s.fw ∧ t.sent.take 2 = adminAnswer c 1 6 0 0) ∧
       ∃ t, exec (.firmwareCommitSelect c fs) s = .next t ∧ t.fw = s.fw ∧ t.sent.take 2 = adminAnswer c 1 6 0 0) ∧
  (∀ (c : CmdId) (fs : Nat) (ph : Bool) (r : Fin 2) (s : State), adminOpen s c = true → s.pair.role ≠ 1 → slotOfFs s fs = some r →
     s.fw.load.state ≠ 1 → actRefused ph s = none →
     ∃ t, exec (.firmwareCommitActivate c fs ph) s = .next t ∧ t.sent = s.sent ∧
       t.fw = { s.fw with act := { Activation.idle with state := 1, step := 1, began := s.ticks, who := some (.nvme (adminId c)) } }) ∧
  (∀ (c : CmdId) (fs : Nat) (ph : Bool) (r : Fin 2) (e : ActRefusal) (s : State), adminOpen s c = true → s.pair.role ≠ 2 →
     slotOfFs s fs = some r → s.fw.load.state ≠ 1 → (s.fw.slots[r].st = 2 ∨ s.fw.slots[r].st = 3) → actRefused ph s = some e →
     ∃ t, exec (.firmwareCommitActivate c fs ph) s = .next t ∧ t.fw.act = s.fw.act ∧
       t.sent.take 2 = adminAnswer c e.nvme.1 e.nvme.2.1 0 0 ∧
       (e.pending = true → t.fw.slots[r] = { s.fw.slots[r] with st := 3 } ∧ t.fw.dir.boot = r.val)) ∧
  (∀ (who : Who) (v : Bytes) (ph : Bool) (s : State), writePasses s who 0x2620 1 v = true → needsAck s = false → s.pair.role ≠ 1 →
     actRefused ph s = none →
     ∃ t, exec (.activate who v ph) s = .next t ∧ answered t who 0x2620 1 0 ∧
       t.fw = { s.fw with act := { Activation.idle with state := 1, step := 1, began := s.ticks, who := none } }) ∧
  (∀ (who : Who) (v : Bytes) (ph : Bool) (e : ActRefusal) (s : State), writePasses s who 0x2620 1 v = true → actRefused ph s = some e →
     ∃ t, exec (.activate who v ph) s = .next t ∧ answered t who 0x2620 1 e.dict ∧ t.fw.act = s.fw.act ∧
       (e.pending = true → t.fw.slots[inactiveSlot s] = { s.fw.slots[inactiveSlot s] with st := 3 })) ∧
  (∀ (who : Who) (v : Bytes) (r : Fin 2) (s : State), writePasses s who 0x2600 7 v = true → needsAck s = false → s.fw.running = some r →
     s.fw.slots[r].st = 4 →
     ∃ t, exec (.commitTrial who v) s = .next t ∧ answered t who 0x2600 7 0 ∧ t.fw.slots[r] = { s.fw.slots[r] with st := 5 } ∧
       (lastEvent t).map (fun e => e.1) = some 0x6008 ∧
       (bit (field (slotHeader s r) 36 4) 1 = false → t.fw.fusedMin = s.fw.fusedMin)) ∧
  (∀ (r : Fin 2) (s : State), s.fw.running = some r → s.fw.slots[r].st = 4 → passed s s.fw.trialTick (secTicks (cfg s 0x2600 6)) = true →
     ∃ t, exec .trialExpire s = .next t ∧ t.fw.slots[r] = { s.fw.slots[r] with st := 5 } ∧
       (s.fw.slots[otherSlot r].st = 5 → t.fw.slots[otherSlot r].st = 2) ∧ (lastEvent t).map (fun e => e.1) = some 0x6008) ∧
  (∀ (s : State), passed s s.fw.trialTick (secTicks (cfg s 0x2600 6)) = false → exec .trialExpire s = .next s) ∧
  (∀ (s : State), s.fw.act.state = 1 → s.fw.act.rolling = 0 → s.fw.act.step = 1 → s.fw.act.who = none →
     ∃ t, exec .activationStep s = .next t ∧
       (verifyOrder true s.fw.slots[inactiveSlot s].image s.fw.fusedMin = none → t.fw.act = { s.fw.act with step := 2 }) ∧
       (verifyOrder true s.fw.slots[inactiveSlot s].image s.fw.fusedMin ≠ none → t.fw.act = { s.fw.act with state := 3 } ∧
         lastEvent t = some (0x6006, evData [.u8 1]))) ∧
  (∀ (s : State), s.fw.act.state = 1 → s.fw.act.rolling = 0 → s.fw.act.step = 2 →
     ∃ t, exec .activationStep s = .next t ∧ t.host.frozen = true ∧ t.fw.act = { s.fw.act with step := 3, stoppedAt := s.ticks } ∧
       ∀ p : PortId, t.host.ctrls[p] = { s.host.ctrls[p] with paused := true }) ∧
  (∀ (s : State), s.fw.act.state = 1 → s.fw.act.rolling = 0 → s.fw.act.step = 3 →
     ∃ t, exec .activationStep s = .next t ∧ t.fw.act = { s.fw.act with step := 4 }) ∧
  (∀ (s : State), s.fw.act.state = 1 → s.fw.act.rolling = 0 → s.fw.act.step = 4 →
     ∃ t, exec .activationStep s = .next t ∧ t.fw.act = { s.fw.act with step := 5 } ∧ t.fw.slots[inactiveSlot s].st = 4 ∧
       t.fw.slots[otherSlot (inactiveSlot s)].st = 2 ∧ t.fw.dir.boot = (inactiveSlot s).val ∧ t.life.generation = s.life.generation + 1) ∧
  (∀ (s : State), s.fw.act.state = 1 → s.fw.act.rolling = 0 → s.fw.act.step = 5 →
     ∃ t, exec .activationStep s = .next t ∧ t.fw = { s.fw with running := some (inactiveSlot s), act := { s.fw.act with step := 6 } }) ∧
  (∀ (s : State), s.fw.act.state = 1 → s.fw.act.rolling = 0 → s.fw.act.step = 6 → s.fw.act.who = none → s.host.flights = [] →
     ∃ t, exec .activationStep s = .next t ∧ t.host.frozen = false ∧ t.fw.activations = s.fw.activations + 1 ∧ t.fw.act.state = 2 ∧
       t.fw.act.step = 7 ∧ t.fw.act.pause = tickNs (s.ticks - s.fw.act.stoppedAt) / 1000) ∧
  (∀ (s : State), (s.fw.act.state ≠ 1 ∨ (s.fw.act.rolling ≠ 0 ∧ s.fw.act.rolling ≠ 5)) → exec .activationStep s = .next s) ∧
  (∀ (s : State), s.fw.act.state = 1 → s.fw.act.rolling ≠ 0 → s.fw.act.who = none →
     ∃ t, exec (.rollingActivationStep false) s = .next t ∧ t.fw.act = { s.fw.act with state := 3, rolling := 0 } ∧
       lastEvent t = some (0x6006, evData [.u8 s.fw.act.rolling])) ∧
  (∀ (s : State), s.fw.act.state = 1 → s.fw.act.rolling = 2 →
     ∃ t, exec (.rollingActivationStep true) s = .next t ∧ t.fw.act = { s.fw.act with rolling := 3 } ∧ t.work = s.work) ∧
  (∀ (ok : Bool) (s : State), (s.fw.act.state ≠ 1 ∨ s.fw.act.rolling = 0) → exec (.rollingActivationStep ok) s = .next s)

/-- SPDM requests are answered in their order, over Security Send and Receive. GET_VERSION restarts the exchange at version 1.2;
GET_CAPABILITIES, NEGOTIATE_ALGORITHMS, GET_DIGESTS, GET_CERTIFICATE, CHALLENGE and GET_MEASUREMENTS are answered once the
stage they need is reached, a stage earlier with UnexpectedRequest and no other effect; SPDM_UNSUPPORTED_REQUEST is answered
UnsupportedRequest (R726). SECURITY_SEND and SECURITY_RECEIVE carry a message of protocol E8h and its answer, and end 02h on
another protocol (R542). The formats are those of log entry 17. -/
def Obligations.SpdmAnswers : Prop :=
  (∀ (s : State),
     ∃ t, exec .getVersion s = .next t ∧ t.host.spdm.stage = 1 ∧
       t.sent = .spdm (natBytes [0x10, 0x04, 0, 0, 0, 1, 0x00, 0x12]) :: s.sent ∧
       t.host.spdm.transcript = natBytes [0x10, 0x84, 0, 0] ++ natBytes [0x10, 0x04, 0, 0, 0, 1, 0x00, 0x12]) ∧
  (∀ (f : Nat) (s : State), 1 ≤ s.host.spdm.stage →
     ∃ t, exec (.getCapabilities f) s = .next t ∧ t.host.spdm.stage = 2 ∧ t.sent.tail = s.sent ∧
       (newestSpdm t).take 5 = natBytes [0x12, 0x61, 0, 0, 0] ∧ slice (newestSpdm t) 8 4 = toLE 4 0x16) ∧
  (∀ (asym hash : Nat) (s : State), 2 ≤ s.host.spdm.stage →
     ∃ t, exec (.negotiateAlgorithms asym hash) s = .next t ∧ t.host.spdm.stage = 3 ∧
       t.sent = .spdm (natBytes [0x12, 0x63, 0, 0] ++ toLE 2 36 ++ natBytes [1, 0] ++ toLE 4 4 ++ toLE 4 (if bit asym 7 then 0x80 else 0) ++
           toLE 4 (if bit hash 1 then 2 else 0) ++ zeroBytes 16) :: s.sent) ∧
  (∀ (s : State), 3 ≤ s.host.spdm.stage →
     ∃ t, exec .getDigests s = .next t ∧ t.host.spdm.stage = 3 ∧
       t.sent = .spdm (natBytes [0x12, 0x01, 0, 1] ++ sha384 Sys2Proof.Config.certificateChain) :: s.sent) ∧
  (∀ (off len : Nat) (s : State), 3 ≤ s.host.spdm.stage →
     ∃ t, exec (.getCertificate 0 off len) s = .next t ∧
       (off < Sys2Proof.Config.certificateChain.length → t.host.spdm.stage = 3 ∧
         t.sent = .spdm (natBytes [0x12, 0x02, 0, 0] ++ toLE 2 (slice Sys2Proof.Config.certificateChain off len).length ++
           toLE 2 (Sys2Proof.Config.certificateChain.length - off - (slice Sys2Proof.Config.certificateChain off len).length) ++
           slice Sys2Proof.Config.certificateChain off len) :: s.sent) ∧
       (Sys2Proof.Config.certificateChain.length ≤ off → t.sent = .spdm (natBytes [0x12, 0x7F, 1, 0]) :: s.sent ∧
         t.host.spdm.transcript = s.host.spdm.transcript)) ∧
  (∀ (summary : Nat) (nonce : Bytes) (s : State), 3 ≤ s.host.spdm.stage → (summary = 0 ∨ summary = 0xFF) →
     ∃ t, exec (.challenge 0 summary nonce) s = .next t ∧ t.host.spdm.stage = 3 ∧ t.sent.tail = s.sent ∧
       (newestSpdm t).take 52 = natBytes [0x12, 0x03, 0, 1] ++ sha384 Sys2Proof.Config.certificateChain ∧
       slice (newestSpdm t) 84 (if summary = 0xFF then 48 else 0) = (if summary = 0xFF then sha384 (allBlocks s) else []) ∧
       (newestSpdm t).drop ((newestSpdm t).length - 96) = (Sys2Proof.Config.spdmSign (s.host.spdm.transcript ++
         (natBytes [0x12, 0x83, 0, summary] ++ nonce) ++ (newestSpdm t).take ((newestSpdm t).length - 96))).toList) ∧
  (∀ (index : Nat) (nonce : Option Bytes) (s : State), 3 ≤ s.host.spdm.stage → 1 ≤ index ∧ index ≤ 7 →
     ∃ t, exec (.getMeasurements index nonce) s = .next t ∧ t.host.spdm.stage = 3 ∧ t.sent.tail = s.sent ∧
       (newestSpdm t).take (8 + (measurementBlock s index).length) =
         natBytes [0x12, 0x60, 0, 0, 1] ++ toLE 3 (measurementBlock s index).length ++ measurementBlock s index ∧
       ∀ b ∈ nonce, (newestSpdm t).drop ((newestSpdm t).length - 96) = (Sys2Proof.Config.spdmSign (s.host.spdm.transcript ++
         (natBytes [0x12, 0xE0, 1, index] ++ (b ++ [0])) ++ (newestSpdm t).take ((newestSpdm t).length - 96))).toList) ∧
  (∀ (nonce : Option Bytes) (s : State), 3 ≤ s.host.spdm.stage →
     (∃ t, exec (.getMeasurements 0xFF nonce) s = .next t ∧ t.host.spdm.stage = 3 ∧
         (newestSpdm t).take (8 + (allBlocks s).length) = natBytes [0x12, 0x60, 0, 0, 7] ++ toLE 3 (allBlocks s).length ++ allBlocks s) ∧
       ∃ t, exec (.getMeasurements 0 nonce) s = .next t ∧ t.host.spdm.stage = 3 ∧
         (newestSpdm t).take 8 = natBytes [0x12, 0x60, 7, 0, 0, 0, 0, 0]) ∧
  (∀ (f a h off len slot summary : Nat) (n : Bytes) (m : Option Bytes) (s : State), s.host.spdm.stage = 0 →
     ∃ t, exec .getDigests s = .next t ∧ exec (.getCapabilities f) s = .next t ∧ exec (.negotiateAlgorithms a h) s = .next t ∧
       exec (.getCertificate slot off len) s = .next t ∧ exec (.challenge slot summary n) s = .next t ∧
       exec (.getMeasurements a m) s = .next t ∧ t.host.spdm.stage = 0 ∧ t.host.spdm.transcript = s.host.spdm.transcript ∧
       t.sent = .spdm (natBytes [0x12, 0x7F, 4, 0]) :: s.sent) ∧
  (∀ (code : Nat) (s : State),
     ∃ t, exec (.spdmUnsupportedRequest code) s = .next t ∧ t.sent = .spdm (natBytes [0x12, 0x7F, 7, code]) :: s.sent ∧
       t.host.spdm.stage = s.host.spdm.stage ∧ t.host.spdm.transcript = s.host.spdm.transcript) ∧
  (∀ (c : CmdId) (s : State), adminOpen s c = true →
     ∃ t, exec (.securitySend c 0xE8 (some (natBytes [0x10, 0x84, 0, 0]))) s = .next t ∧ t.host.spdm.stage = 1 ∧
       t.host.spdm.response = some (natBytes [0x10, 0x04, 0, 0, 0, 1, 0x00, 0x12]) ∧ t.sent.take 2 = adminAnswer c 0 0 0 0) ∧
  (∀ (c : CmdId) (p : Nat) (m : Option Bytes) (s : State), adminOpen s c = true → p ≠ 0xE8 →
     ∃ t, exec (.securitySend c p m) s = .next t ∧ t.host.spdm = s.host.spdm ∧ t.sent.take 2 = adminAnswer c 0 2 0 0) ∧
  (∀ (c : CmdId) (len : Nat) (s : State), adminOpen s c = true →
     ∃ t, exec (.securityReceive c 0xE8 len) s = .next t ∧ t.host.spdm.response = none ∧
       t.sent.take 3 = adminAnswer c 0 0 0 0 ++ [.data (adminId c) ((s.host.spdm.response.getD [] ++ zeroBytes len).take len)])

/-- Reads, writes, appends, flush and the zone commands of a namespace. A READ that passes the checks is put in flight, and those
of its LBAs at or above a zone's write pointer read as zeros, sent at once (R556); a WRITE or ZONE_APPEND takes its LBAs at
the write pointer, which advances, and opens its zone implicitly (R554, R565). Each that fails a check, or whose list lies
outside the CMB, completes with its status and no other effect. FLUSH seals the open extents of its namespace and completes
(R581). ZONE_OPEN, ZONE_CLOSE and ZONE_FINISH change the zone's state, or end with Invalid Zone State Transition (R558);
ZONE_RESET, ZONE_OFFLINE and SET_ZONE_DESCRIPTOR_EXTENSION end with Invalid Field and change no zone; ZONE_MANAGEMENT_RECEIVE
sends the report of the zones (R567). The bytes of the report are those of log entry 17. -/
def Obligations.HostCommandsServed : Prop :=
  (∀ (c : CmdId) (nsid slba nlb : Nat) (x : Transfer) (tm : TeamId) (s : State), ioOpen s c = true → (readCheck s nsid slba (nlb + 1)).toOption = some tm →
     x.list = none → x.data.all (fun off => decide (off + 4096 * (nlb + 1) ≤ cmbBytes s.mem c.ctrl)) = true →
     s.host.flights = [] → (nsAt s tm).built = true →
     ∃ t, exec (.read c nsid slba nlb x) s = .next t ∧
       t.host.flights.map (fun f => (f.c, f.kind, f.nsid, f.slba, f.count, f.cmb)) = [(c, .read, nsid, slba, nlb + 1, x.data)] ∧
       (∀ l ∈ lbaRange slba (nlb + 1), (zoneAt (nsAt s tm) (l / 2 ^ 20)).wp ≤ l % 2 ^ 20 →
         (x.data = none → .lba c l (List.replicate 4096 0) false ∈ t.sent) ∧ ∀ f ∈ t.host.flights, l ∉ f.left) ∧
       t.lanes = s.lanes) ∧
  (∀ (c : CmdId) (nsid slba nlb : Nat) (x : Transfer) (e : Nat × Nat × Option Bool) (s : State), ioOpen s c = true →
     readCheck s nsid slba (nlb + 1) = .error e →
     ∃ t, exec (.read c nsid slba nlb x) s = .next t ∧ t.host.flights = s.host.flights ∧ ioDone t c e 0 0) ∧
  (∀ (c : CmdId) (nsid slba nlb : Nat) (x : Transfer) (tm : TeamId) (z : Zone) (s : State), ioOpen s c = true →
     (writeCheck s nsid slba (nlb + 1) false).toOption = some tm →
     x.list = none → x.data.all (fun off => decide (off + 4096 * (nlb + 1) ≤ cmbBytes s.mem c.ctrl)) = true → zoneAt (nsAt s tm) (slba / 2 ^ 20) = z →
     (z.isOpen = true ∨ (openZones s < 128 ∧ activeZones s < 256)) →
     ∃ t, exec (.write c nsid slba nlb x) s = .next t ∧
       (flightOf t c).map (fun f => (f.nsid, f.slba, f.count, f.left, f.dw0, f.dw1, f.cmb)) =
         some (nsid, slba, nlb + 1, lbaRange slba (nlb + 1), 0, 0, x.data) ∧
       (zoneAt (nsAt t tm) (slba / 2 ^ 20)).wp = z.wp + nlb + 1 ∧
       (zoneAt (nsAt t tm) (slba / 2 ^ 20)).st = (if 2 ^ 20 ≤ z.wp + nlb + 1 then .full else if z.isOpen then z.st else .implicit) ∧
       t.sent = s.sent) ∧
  (∀ (c : CmdId) (nsid slba nlb : Nat) (x : Transfer) (tm : TeamId) (z : Zone) (s : State), ioOpen s c = true →
     (writeCheck s nsid slba (nlb + 1) true).toOption = some tm →
     x.list = none → x.data.all (fun off => decide (off + 4096 * (nlb + 1) ≤ cmbBytes s.mem c.ctrl)) = true → zoneAt (nsAt s tm) (slba / 2 ^ 20) = z →
     (z.isOpen = true ∨ (openZones s < 128 ∧ activeZones s < 256)) →
     ∃ t, exec (.zoneAppend c nsid slba nlb x) s = .next t ∧
       (flightOf t c).map (fun f => (f.nsid, f.slba, f.count, f.left, f.dw0, f.dw1, f.cmb)) =
         some (nsid, slba + z.wp, nlb + 1, lbaRange (slba + z.wp) (nlb + 1), (slba + z.wp) % 2 ^ 32, (slba + z.wp) / 2 ^ 32, x.data) ∧
       (zoneAt (nsAt t tm) (slba / 2 ^ 20)).wp = z.wp + nlb + 1 ∧
       (zoneAt (nsAt t tm) (slba / 2 ^ 20)).st = (if 2 ^ 20 ≤ z.wp + nlb + 1 then .full else if z.isOpen then z.st else .implicit) ∧
       t.sent = s.sent) ∧
  (∀ (c : CmdId) (nsid slba nlb : Nat) (x : Transfer) (e : Nat × Nat × Option Bool) (s : State), ioOpen s c = true →
     writeCheck s nsid slba (nlb + 1) false = .error e →
     ∃ t, exec (.write c nsid slba nlb x) s = .next t ∧ t.teams = s.teams ∧ t.host.flights = s.host.flights ∧ ioDone t c e 0 0) ∧
  (∀ (c : CmdId) (nsid slba nlb : Nat) (x : Transfer) (e : Nat × Nat × Option Bool) (s : State), ioOpen s c = true →
     writeCheck s nsid slba (nlb + 1) true = .error e →
     ∃ t, exec (.zoneAppend c nsid slba nlb x) s = .next t ∧ t.teams = s.teams ∧ t.host.flights = s.host.flights ∧ ioDone t c e 0 0) ∧
  (∀ (c : CmdId) (nsid slba nlb off len : Nat) (a b : TeamId) (d : Option Nat) (s : State), ioOpen s c = true → cmbBytes s.mem c.ctrl < off + len →
     (readCheck s nsid slba (nlb + 1)).toOption = some a → (writeCheck s nsid slba (nlb + 1) false).toOption = some b →
     (∃ t, exec (.read c nsid slba nlb ⟨some (off, len), d⟩) s = .next t ∧ t.teams = s.teams ∧ t.host.flights = s.host.flights ∧
         ioDone t c (0, 4, none) 0 0) ∧
       ∃ t, exec (.write c nsid slba nlb ⟨some (off, len), d⟩) s = .next t ∧ t.teams = s.teams ∧ t.host.flights = s.host.flights ∧
         ioDone t c (0, 4, none) 0 0) ∧
  (∀ (c : CmdId) (nsid : Nat) (tm : TeamId) (s : State), ioOpen s c = true → nsCheck s nsid = .ok tm → s.host.flights = [] →
     ((nsAt s tm).extents.map (fun p => p.1)).Pairwise (· < ·) →
     ∃ t, exec (.flush c nsid) s = .next t ∧ t.host.flights = [] ∧ ioDone t c (0, 0, none) 0 0 ∧ openExtents (nsAt t tm) = []) ∧
  (∀ (c : CmdId) (nsid slba : Nat) (tm : TeamId) (z : Zone) (s : State), ioOpen s c = true →
     (zoneCheck s nsid slba false).toOption = some tm → zoneAt (nsAt s tm) (slba / 2 ^ 20) = z →
     z.st ≠ .full → z.st ≠ .readOnly → emptyBelow (nsAt s tm) (slba / 2 ^ 20) = false → openZones s < 128 → activeZones s < 256 →
     ∃ t, exec (.zoneOpen c nsid slba false) s = .next t ∧ zoneAt (nsAt t tm) (slba / 2 ^ 20) = { z with st := .explicit } ∧
       ioDone t c (0, 0, none) 0 0) ∧
  (∀ (c : CmdId) (nsid slba : Nat) (tm : TeamId) (z : Zone) (s : State), ioOpen s c = true →
     (zoneCheck s nsid slba false).toOption = some tm → zoneAt (nsAt s tm) (slba / 2 ^ 20) = z →
     (z.st = .full ∨ z.st = .readOnly) →
     ∃ t, exec (.zoneOpen c nsid slba false) s = .next t ∧ t.teams = s.teams ∧ ioDone t c (1, 0xBF, none) 0 0) ∧
  (∀ (c : CmdId) (nsid slba : Nat) (tm : TeamId) (z : Zone) (s : State), ioOpen s c = true →
     (zoneCheck s nsid slba false).toOption = some tm → zoneAt (nsAt s tm) (slba / 2 ^ 20) = z →
     z.isOpen = true →
     ∃ t, exec (.zoneClose c nsid slba false) s = .next t ∧
       zoneAt (nsAt t tm) (slba / 2 ^ 20) = { z with st := if z.wp = 0 then .empty else .closed } ∧ ioDone t c (0, 0, none) 0 0) ∧
  (∀ (c : CmdId) (nsid slba : Nat) (tm : TeamId) (z : Zone) (s : State), ioOpen s c = true →
     (zoneCheck s nsid slba false).toOption = some tm → zoneAt (nsAt s tm) (slba / 2 ^ 20) = z →
     z.isOpen = false → z.st ≠ .closed →
     ∃ t, exec (.zoneClose c nsid slba false) s = .next t ∧ t.teams = s.teams ∧ ioDone t c (1, 0xBF, none) 0 0) ∧
  (∀ (c : CmdId) (nsid slba : Nat) (tm : TeamId) (z : Zone) (s : State), ioOpen s c = true →
     (zoneCheck s nsid slba false).toOption = some tm → zoneAt (nsAt s tm) (slba / 2 ^ 20) = z →
     z.st ≠ .readOnly → s.host.flights = [] →
     ∃ t, exec (.zoneFinish c nsid slba false) s = .next t ∧ (zoneAt (nsAt t tm) (slba / 2 ^ 20)).st = .full ∧
       (zoneAt (nsAt t tm) (slba / 2 ^ 20)).wp = (if z.st = .full then z.wp else 2 ^ 20) ∧ ioDone t c (0, 0, none) 0 0) ∧
  (∀ (c : CmdId) (nsid slba : Nat) (all : Bool) (tm : TeamId) (s : State), ioOpen s c = true → nsCheck s nsid = .ok tm →
     (∃ t, exec (.zoneReset c nsid slba all) s = .next t ∧ t.teams = s.teams ∧ ioDone t c (0, 2, none) 0 0) ∧
       (∃ t, exec (.zoneOffline c nsid slba all) s = .next t ∧ t.teams = s.teams ∧ ioDone t c (0, 2, none) 0 0) ∧
       ∃ t, exec (.setZoneDescriptorExtension c nsid slba) s = .next t ∧ t.teams = s.teams ∧ ioDone t c (0, 2, none) 0 0) ∧
  (∀ (c : CmdId) (nsid slba option numd : Nat) (part : Bool) (tm : TeamId) (s : State), ioOpen s c = true → nsCheck s nsid = .ok tm →
     (nsAt s tm).built = true → slba < nsSize (nsAt s tm) → option ≤ 7 → numd < 2 ^ 18 →
     ∃ t, exec (.zoneManagementReceive c nsid slba option numd part) s = .next t ∧ ioDone t c (0, 0, none) 0 0 ∧
       .data c (zoneReport (nsAt s tm) slba option (4 * (numd + 1)) part) ∈ t.sent ∧ (nsAt t tm).zones = (nsAt s tm).zones)

/-- Doorbells, completions, waits, and the life of a controller. SQ_DOORBELL sets a queue's tail and CQ_DOORBELL its head, which
lets a completion that waited for a slot out; a doorbell of no queue raises the Error event. COMMAND_COMPLETE posts a read
whose LBAs have been sent. DETACH_HOLD_EXPIRE, ORDER_WAIT_EXPIRE and LANE_WAIT_EXPIRE end the waits of R551, R555 and R588,
and change nothing where nothing waits. ZONE_REBUILD gives the zones from the discs (R843). CONTROLLER_ENABLE over a trained
link sets the controller's admin queues (R532); CONTROLLER_RESET and PCIE_LINK_DOWN return a controller to its reset values
but for its log and counts, and leave no command of it that completes (R586). SHUTDOWN_NOTIFY makes a lifetime save due
(R750). TEST_ORDERING_WRITE sets or clears the test cause of ORDERED mode (R571). INTERRUPT_COALESCING_TIMEOUT sends the
vector's interrupt. -/
def Obligations.HostQueuesAndWaits : Prop :=
  (∀ (p : PortId) (q v : Nat) (x : SubQueue) (s : State), q ≠ 0 → s.host.ctrls[p].sqs.find? (fun y => y.id = q) = some x → v < x.size →
     ∃ t, exec (.sqDoorbell p q v) s = .next t ∧ t.host.ctrls[p].sqs.find? (fun y => y.id = q) = some { x with tail := v } ∧ t.sent = s.sent) ∧
  (∀ (p : PortId) (q v : Nat) (x : CompQueue) (s : State), q ≠ 0 → s.host.ctrls[p].cqs.find? (fun y => y.id = q) = some x → v < x.size → x.held = [] →
     ∃ t, exec (.cqDoorbell p q v) s = .next t ∧ t.host.ctrls[p].cqs.find? (fun y => y.id = q) = some { x with head := v } ∧ t.sent = s.sent) ∧
  (∀ (p : PortId) (q v : Nat) (x : CompQueue) (e : CqEntry) (rest : List CqEntry) (s : State), q ≠ 0 →
     s.host.ctrls[p].cqs.find? (fun y => y.id = q) = some x → v < x.size → x.held = e :: rest → (x.tail + 1) % x.size ≠ v →
     ∃ t, exec (.cqDoorbell p q v) s = .next t ∧ .completion e.c e.sct e.sc e.dnr e.dw0 e.dw1 ∈ t.sent ∧
       (t.host.ctrls[p].cqs.find? (fun y => y.id = q)).any (fun y => decide (y.head = v) && decide (y.held.length < x.held.length)) = true) ∧
  (∀ (p : PortId) (q v : Nat) (s : State), q ≠ 0 → s.host.ctrls[p].ready = true → s.host.ctrls[p].masked.contains 0 = false →
     s.host.ctrls[p].aers = [] → s.host.ctrls[p].sqs.find? (fun y => y.id = q) = none →
     ∃ t, exec (.sqDoorbell p q v) s = .next t ∧ t.host.ctrls[p] = { s.host.ctrls[p] with events := s.host.ctrls[p].events ++ [(0, 0, 1)] }) ∧
  (∀ (p : PortId) (q v : Nat) (s : State), q ≠ 0 → s.host.ctrls[p].ready = true → s.host.ctrls[p].masked.contains 0 = false →
     s.host.ctrls[p].aers = [] → s.host.ctrls[p].cqs.find? (fun y => y.id = q) = none →
     ∃ t, exec (.cqDoorbell p q v) s = .next t ∧ t.host.ctrls[p] = { s.host.ctrls[p] with events := s.host.ctrls[p].events ++ [(0, 0, 1)] }) ∧
  (∀ (c : CmdId) (f : Flight) (s : State), s.host.frozen = false → needsAck s = false → cqRoom s c = true → s.host.flights = [f] → f.c = c → f.kind = .read →
     f.left = [] → f.status = none → f.committing = false → f.silent = false → s.host.ctrls[c.ctrl].deletes = [] →
     s.host.reassembly = [] →
     ∃ t, exec (.commandComplete c) s = .next t ∧ t.host.flights = [] ∧ .completion c 0 0 none f.dw0 f.dw1 ∈ t.sent.take 2 ∧
       t.host.ctrls[c.ctrl].unitsRead = s.host.ctrls[c.ctrl].unitsRead + 8 * f.count ∧
       t.host.ctrls[c.ctrl].reads = s.host.ctrls[c.ctrl].reads + 1) ∧
  (∀ (c : CmdId) (s : State), s.host.frozen = true → exec (.commandComplete c) s = .next s) ∧
  (∀ (tm : TeamId) (k : Nat) (f : Flight) (s : State), (nsAt s tm).detached = some k → (teamAt s tm).st ≠ .attached →
     passed s k (secTicks (cfg s (teamIdx tm 0x18) 3)) = true → s.host.flights = [f] → f.nsid = tm.val + 1 → f.kind = .read →
     f.committing = false → f.silent = false → needsAck s = false → s.host.frozen = false → cqRoom s f.c = true →
     ∃ t, exec (.detachHoldExpire tm) s = .next t ∧ (nsAt t tm).detached = none ∧ t.host.flights = [] ∧
       .completion f.c 3 2 none f.dw0 f.dw1 ∈ t.sent.take 2) ∧
  (∀ (tm : TeamId) (s : State), (nsAt s tm).detached = none → exec (.detachHoldExpire tm) s = .next s) ∧
  (∀ (tm : TeamId) (x k z : Nat) (q : Zone) (s : State), (extentAt (nsAt s tm) x).bind (fun e => e.heldSince) = some k →
     passed s k (msTicks (cfg s (teamIdx tm 0x18) 4)) = true →
     (nsAt s tm).zones.filter (fun q => decide (q.1 < x / 16384) && q.2.isActive) = [(z, q)] →
     ∃ t, exec (.orderWaitExpire tm x) s = .next t ∧ (zoneAt (nsAt t tm) z).st = .full ∧ (zoneAt (nsAt t tm) z).byCtrl = true ∧
       lastEvent t = some (0x7004, evData [.u8 tm.val, .u32 z, .u8 0])) ∧
  (∀ (tm : TeamId) (x : Nat) (s : State), (extentAt (nsAt s tm) x).bind (fun e => e.heldSince) = none →
     exec (.orderWaitExpire tm x) s = .next s) ∧
  (∀ (n : LaneId) (tm : TeamId) (w : Nat) (f : Flight) (s : State), teamOfLane s n = some tm → s.host.flights = [f] → f.nsid = tm.val + 1 →
     f.kind = .read → usesLane s f n = true → f.left.all (fun l => decide (lbaLane s tm l = some n)) = true → f.waits = [(n, w)] →
     w + secTicks (cfg s (teamIdx tm 0x1C) 1) ≤ s.ticks → f.badLba = none → f.committing = false → f.silent = false → needsAck s = false →
     s.host.frozen = false → cqRoom s f.c = true →
     ∃ t, exec (.laneWaitExpire n) s = .next t ∧ t.host.flights = [] ∧ .completion f.c 0 0x82 (some false) f.dw0 f.dw1 ∈ t.sent.take 2 ∧
       lastEvent t = some (0x7007, evData [.u8 tm.val, .u8 n.val, .u32 1, .u32 0, .u8 (b2n (laneAt s n).flt.latched)])) ∧
  (∀ (n : LaneId) (s : State), teamOfLane s n = none → exec (.laneWaitExpire n) s = .next s) ∧
  (∀ (tm : TeamId) (s : State), (nsAt s tm).listed = true → (nsAt s tm).built = false → (teamAt s tm).st = .attached →
     (teamDiscs s tm).length = (nsAt s tm).count → (teamDiscs s tm).all (fun q => !q.2.2.scanDue) = true →
     (teamDiscs s tm).any (fun q => q.2.2.closed || (List.ofFn (fun p : Fin 32 => p)).any (fun p => (unwritableFrom q.2.2 p).isSome)) = false →
     ∃ t, exec (.zoneRebuild tm) s = .next t ∧ (nsAt t tm).built = true ∧ (nsAt t tm).zones = rebuiltZones ((upTo (zoneCount (nsAt s tm).count)).map
       (fun z => (z, zoneRecorded (nsAt s tm).count z (teamDiscs s tm))))) ∧
  (∀ (tm : TeamId) (s : State), ((nsAt s tm).listed = false ∨ (nsAt s tm).built = true) → exec (.zoneRebuild tm) s = .next s) ∧
  (∀ (p : PortId) (ams aqa : Nat) (s : State), s.host.ctrls[p].speed ≠ 0 →
     ∃ t, exec (.controllerEnable p ams aqa) s = .next t ∧ t.host.ctrls = s.host.ctrls.set p { s.host.ctrls[p] with
       enabled := true, ready := s.mem.fillDone && s.fw.running.isSome, wrr := decide (ams = 1)
       asq := SubQueue.admin (aqa % 4096 + 1), acq := CompQueue.admin (aqa / 65536 % 4096 + 1) }) ∧
  (∀ (p : PortId) (s : State), s.host.flights.all (fun f => !f.writes || (teamOfNsid f.nsid).isSome) = true →
     (∃ t, exec (.controllerReset p) s = .next t ∧ t.host.ctrls[p].ready = false ∧ t.host.ctrls[p].enabled = false ∧
         t.host.ctrls[p].sqs = [] ∧ t.host.ctrls[p].cqs = [] ∧ t.host.ctrls[p].feat = Features.reset ∧ t.host.ctrls[p].aers = [] ∧
         t.host.ctrls[p].errors = s.host.ctrls[p].errors ∧ t.host.ctrls[p].speed = s.host.ctrls[p].speed ∧
         ∀ f ∈ t.host.flights, f.c.ctrl = p → f.silent = true) ∧
       ∃ t, exec (.pcieLinkDown p) s = .next t ∧ t.host.ctrls[p].ready = false ∧ t.host.ctrls[p].speed = 0 ∧ t.host.ctrls[p].width = 0 ∧
         ∀ f ∈ t.host.flights, f.c.ctrl = p → f.silent = true) ∧
  (∀ (p : PortId) (s : State),
     ∃ t, exec (.shutdownNotify p) s = .next t ∧ t.host.ctrls = s.host.ctrls.set p { s.host.ctrls[p] with shutdown := true } ∧
       t.life = { s.life with due := some true }) ∧
  (∀ (who : Who) (v : Bytes) (s : State), writePasses s who 0x2510 3 v = true → needsAck s = false →
     ∃ t, exec (.testOrderingWrite who v) s = .next t ∧ stored t 0x2510 3 = v ∧ bit t.host.causes 1 = decide (fromLE v = 1) ∧
       answered t who 0x2510 3 0) ∧
  (∀ (p : PortId) (k : Nat) (s : State), s.host.ctrls[p].cqs.any (fun q => decide (q.vector = k) && q.ien && decide (q.waiting ≠ 0)) = true →
     ∃ t, exec (.interruptCoalescingTimeout p k) s = .next t ∧ t.sent = .interrupt p k :: s.sent ∧
       t.host.ctrls[p].cqs = s.host.ctrls[p].cqs.map (fun q => if q.vector = k then { q with waiting := 0 } else q)) ∧
  (∀ (p : PortId) (k : Nat) (s : State), s.host.ctrls[p].cqs.any (fun q => decide (q.vector = k) && q.ien && decide (q.waiting ≠ 0)) = false →
     exec (.interruptCoalescingTimeout p k) s = .next s)

/-- Buffer memory: fill, CMB, host data, scrubbing and lost channels. BUFFER_FILL_DONE ends the fill: the memory reads as R612
fills it, the cache serves, and enabled controllers become ready. CMB_WRITE and CMB_READ write and read the bytes of a
resident line of a port's CMB, with the line's mark; an address past the CMB is no memory (the one fault of the model), and
before the cache serves neither does anything. HOST_DATA_COMPLETION and HOST_DATA_TIMEOUT stage an LBA of a write and take it
from those awaited (R617, R618). SCRUB_STEP moves the lap or the pass on by a pair of lines and ends a pass at its last pair;
SCRUB_MODE_WRITE sets the mode, START_PASS and END_PASS begin and end a pass, each answered 0501 or 0304 where R621 to R624
refuse it. COMMAND_ADDRESS_PARITY_ERROR counts a channel's tries in a row; MEMORY_CHANNEL_LOST after the third, or after 64
bad reads, resets the device with cause 7 (R599). -/
def Obligations.BufferMemoryServed : Prop :=
  (∀ (s : State), s.mem.fillDone = false → (channelsUsed s.mem).isEmpty = false →
     ∃ t, exec .bufferFillDone s = .next t ∧ t.mem.fillDone = true ∧ t.mem.cells = [] ∧ t.cache.serving = true ∧
       ∀ p : PortId, t.host.ctrls[p].ready = (s.host.ctrls[p].ready || (s.host.ctrls[p].enabled && s.fw.running.isSome))) ∧
  (∀ (s : State), (s.mem.fillDone = true ∨ (channelsUsed s.mem).isEmpty = true) → exec .bufferFillDone s = .next s) ∧
  (∀ (p : PortId) (off line w : Nat) (data : Bytes) (ep : Bool) (s : State), s.cache.serving = true →
     off + data.length ≤ cmbBytes s.mem p → data ≠ [] → line = ((regionOf s.mem (2 + p.val)).1 + off) / 64 →
     ((regionOf s.mem (2 + p.val)).1 + off) % 64 + data.length ≤ 64 → findWay s.cache line = some w →
     s.cache.misses[bankOf line] = none → (slotAt s.cache (setOf line) w).poison = 0 → (slotAt s.cache (setOf line) w).data.length = 64 →
     ∃ t, exec (.cmbWrite p off data ep) s = .next t ∧ t.mem = s.mem ∧
       (slotAt t.cache (setOf line) w).dirty = true ∧ (slotAt t.cache (setOf line) w).poison = b2n ep ∧
       slice (slotAt t.cache (setOf line) w).data (((regionOf s.mem (2 + p.val)).1 + off) % 64) data.length = data ∧
       (∀ k, k ≠ 16 * setOf line + w → mapGet t.cache.slots k = mapGet s.cache.slots k) ∧ t.sent = s.sent) ∧
  (∀ (p : PortId) (off len line w : Nat) (s : State), s.cache.serving = true → off + len ≤ cmbBytes s.mem p → 0 < len →
     line = ((regionOf s.mem (2 + p.val)).1 + off) / 64 → ((regionOf s.mem (2 + p.val)).1 + off) % 64 + len ≤ 64 →
     findWay s.cache line = some w → s.cache.misses[bankOf line] = none → (slotAt s.cache (setOf line) w).poison = 0 →
     ∃ t, exec (.cmbRead p off len) s = .next t ∧ t.mem = s.mem ∧
       t.sent = .cmb p (slice (slotAt s.cache (setOf line) w).data (((regionOf s.mem (2 + p.val)).1 + off) % 64) len) false :: s.sent) ∧
  (∀ (p : PortId) (off len : Nat) (data : Bytes) (ep : Bool) (s : State), s.cache.serving = true → cmbBytes s.mem p < off + len →
     data.length = len →
     exec (.cmbRead p off len) s = .fault (.noSuchAddress off) ∧ exec (.cmbWrite p off data ep) s = .fault (.noSuchAddress off)) ∧
  (∀ (p : PortId) (off len : Nat) (data : Bytes) (ep : Bool) (s : State), s.cache.serving = false →
     exec (.cmbRead p off len) s = .next s ∧ exec (.cmbWrite p off data ep) s = .next s) ∧
  (∀ (c : CmdId) (lba : Nat) (data : Bytes) (ep err : Bool) (tm : TeamId) (f : Flight) (e : Extent) (s : State),
     s.host.flights = [f] → f.c = c → f.writes = true → teamOfNsid f.nsid = some tm → f.left.contains lba = true →
     extentAt (nsAt s tm) (lba / 64) = some e → e.lbas = [{ pos := lba % 64, seq := f.seq, addr := none }] →
     (∃ t, exec (.hostDataCompletion c lba data ep err) s = .next t ∧
         (flightOf t c).map (fun g => g.left) = some (f.left.filter (fun l => decide (l ≠ lba))) ∧
         (extentAt (nsAt t tm) (lba / 64)).map (fun x => x.lbas) = some [{ pos := lba % 64, seq := f.seq, addr := some (stagingPlace s) }]) ∧
       ∃ t, exec (.hostDataTimeout c lba) s = .next t ∧
         (flightOf t c).map (fun g => g.left) = some (f.left.filter (fun l => decide (l ≠ lba))) ∧
         (extentAt (nsAt t tm) (lba / 64)).map (fun x => x.lbas) = some [{ pos := lba % 64, seq := f.seq, addr := some (stagingPlace s) }]) ∧
  (∀ (flips : List (Nat × Nat)) (s : State), s.mem.fillDone = true → s.power.unit = 0 → s.mem.pass = none → cfg s 0x2310 1 = 0 →
     s.mem.lapPos + 128 < bufferSize s.mem →
     ∃ t, exec (.scrubStep flips) s = .next t ∧ t.mem.lapPos = s.mem.lapPos + 128 ∧ t.mem.lap.lines = s.mem.lap.lines + 2 ∧
       t.mem.pass = none ∧ t.mem.laps = s.mem.laps) ∧
  (∀ (flips : List (Nat × Nat)) (x : Summary) (s : State), s.mem.fillDone = true → s.power.unit = 0 → s.mem.pass = some x →
     s.mem.passPos + 128 < x.start + x.length →
     ∃ t, exec (.scrubStep flips) s = .next t ∧ t.mem.passPos = s.mem.passPos + 128 ∧ t.mem.lapPos = s.mem.lapPos ∧
       t.mem.pass.map (fun y => y.lines) = some (x.lines + 2)) ∧
  (∀ (flips : List (Nat × Nat)) (x : Summary) (s : State), s.mem.fillDone = true → s.power.unit = 0 → s.mem.pass = some x →
     x.start + x.length ≤ s.mem.passPos + 128 →
     ∃ t, exec (.scrubStep flips) s = .next t ∧ t.mem.pass = none ∧ t.mem.passStatus = 2 ∧
       t.mem.lastPass.map (fun y => (y.lines, y.status)) = some (x.lines + 2, 0) ∧ (lastEvent t).map (fun e => e.1) = some 0x3006) ∧
  (∀ (flips : List (Nat × Nat)) (s : State), (s.mem.fillDone = false ∨ s.power.unit ≠ 0) → exec (.scrubStep flips) s = .next s) ∧
  (∀ (who : Who) (v : Bytes) (s : State), writePasses s who 0x2310 1 v = true → needsAck s = false → s.mem.pass = none →
     ∃ t, exec (.scrubModeWrite who v) s = .next t ∧ stored t 0x2310 1 = v ∧ answered t who 0x2310 1 0 ∧ t.mem = s.mem) ∧
  (∀ (who : Who) (v : Bytes) (s : State), writePasses s who 0x2310 1 v = true → s.mem.pass.isSome = true →
     exec (.scrubModeWrite who v) s = .next (send (.answer who 0x2310 1 0x0501) s)) ∧
  (∀ (who : Who) (v : Bytes) (s : State), writePasses s who 0x2311 3 v = true → needsAck s = false → s.mem.pass = none → cfg s 0x2310 1 ≠ 0 →
     elem s 0x2311 1 8 0 % 128 = 0 → elem s 0x2311 1 8 1 % 128 = 0 → elem s 0x2311 1 8 1 ≠ 0 →
     elem s 0x2311 1 8 0 + elem s 0x2311 1 8 1 ≤ bufferSize s.mem →
     ∃ t, exec (.startPass who v) s = .next t ∧ t.mem.passPos = elem s 0x2311 1 8 0 ∧ t.mem.passStatus = 1 ∧ answered t who 0x2311 3 0 ∧
       t.mem.pass = some { Summary.blank with start := elem s 0x2311 1 8 0, length := elem s 0x2311 1 8 1, began := timeNow s }) ∧
  (∀ (who : Who) (v : Bytes) (s : State), writePasses s who 0x2311 3 v = true → (s.mem.pass.isSome = true ∨ cfg s 0x2310 1 = 0) →
     exec (.startPass who v) s = .next (send (.answer who 0x2311 3 (if s.mem.pass.isSome then 0x0501 else 0x0304)) s)) ∧
  (∀ (who : Who) (v : Bytes) (x : Summary) (s : State), writePasses s who 0x2311 6 v = true → needsAck s = false → s.mem.pass = some x →
     ∃ t, exec (.endPass who v) s = .next t ∧ t.mem.pass = none ∧ t.mem.passStatus = 2 ∧
       t.mem.lastPass = some { x with ended := timeNow s, status := 1 } ∧ (lastEvent t).map (fun e => e.1) = some 0x3006 ∧
       answered t who 0x2311 6 0) ∧
  (∀ (ch : PortId) (cleared : Bool) (s : State),
     ∃ t, exec (.commandAddressParityError ch cleared) s = .next t ∧
       t.mem = { s.mem with chan := s.mem.chan.set ch { s.mem.chan[ch] with parityTries := if cleared then 0 else s.mem.chan[ch].parityTries + 1 } }) ∧
  (∀ (ch : PortId) (cause : Nat) (s : State), s.mem.chan[ch].ready = true → s.sup.resetDue = false →
     ((cause = 0 ∧ 3 ≤ s.mem.chan[ch].parityTries) ∨ (cause = 1 ∧ 64 ≤ s.mem.chan[ch].badReads)) →
     ∃ t, exec (.memoryChannelLost ch cause) s = .next t ∧ t.island.channel = some (ch.val, cause) ∧ t.island.cause = some 7 ∧
       t.sup.resetDue = true ∧ t.pair.alive = false ∧ t.mem = s.mem) ∧
  (∀ (ch : PortId) (cause : Nat) (s : State), (s.mem.chan[ch].ready = false ∨ 1 < cause) → exec (.memoryChannelLost ch cause) s = .next s)

/-- The buffer cache: accesses, fills, write-back, way modes and maintenance. CACHE_ACCESS that hits reads a line, or merges bytes
into it and makes it dirty, and makes it the youngest; one that misses blocks its bank (R637, R641). CACHE_FILL_COMPLETE
installs the line of a bank's miss; WRITEBACK_DRAIN stores the oldest line of the write-back buffer (R642). WAY_MODE_WRITE
begins a change of way modes, and MODE_CHANGE_COMPLETE puts it in force (R644, R645). CACHE_CLEAN, CACHE_INVALIDATE,
CACHE_CLEAN_INVALIDATE and CACHE_LOAD carry out an order of maintenance over an address range (CACHE_LOAD here of one line),
and answer 0501 while another order or change runs (R650); MAINTENANCE_COMPLETE ends the order, with event 3011 where it
reached locked ways (R654). -/
def Obligations.CacheServed : Prop :=
  (∀ (a w : Nat) (s : State), s.cache.serving = true → inBuffer s.mem a = true → s.cache.misses[bankOf (a / 64)] = none →
     findWay s.cache (a / 64) = some w → (slotAt s.cache (setOf (a / 64)) w).poison = 0 →
     ∃ t, exec (.cacheAccess a none []) s = .next t ∧ t.mem = s.mem ∧
       slotAt t.cache (setOf (a / 64)) w = { slotAt s.cache (setOf (a / 64)) w with age := 0 } ∧ t.cache.wb = s.cache.wb) ∧
  (∀ (a w : Nat) (d : Bytes) (s : State), s.cache.serving = true → inBuffer s.mem a = true → s.cache.misses[bankOf (a / 64)] = none →
     findWay s.cache (a / 64) = some w → (slotAt s.cache (setOf (a / 64)) w).data.length = 64 → a % 64 + d.length ≤ 64 →
     ∃ t, exec (.cacheAccess a (some d) []) s = .next t ∧ t.mem = s.mem ∧ (slotAt t.cache (setOf (a / 64)) w).dirty = true ∧
       (slotAt t.cache (setOf (a / 64)) w).data = patch (slotAt s.cache (setOf (a / 64)) w).data (a % 64) d ∧
       (slotAt t.cache (setOf (a / 64)) w).age = 0) ∧
  (∀ (a : Nat) (s : State), s.cache.serving = true → inBuffer s.mem a = true → s.cache.misses[bankOf (a / 64)] = none →
     findWay s.cache (a / 64) = none →
     ∃ t, exec (.cacheAccess a none []) s = .next t ∧ t.mem = s.mem ∧
       t.cache.misses[bankOf (a / 64)].map (fun m => (m.line, m.write, m.tick)) = some (a / 64, none, s.ticks)) ∧
  (∀ (a : Nat) (d : Option Bytes) (fl : List (Nat × Nat)) (s : State), s.cache.serving = true → inBuffer s.mem a = false →
     exec (.cacheAccess a d fl) s = .fault (.noSuchAddress a)) ∧
  (∀ (a : Nat) (d : Option Bytes) (fl : List (Nat × Nat)) (s : State), s.cache.serving = false → exec (.cacheAccess a d fl) s = .next s) ∧
  (∀ (b : Fin 16) (m : Miss) (fl : List (Nat × Nat)) (s : State), s.cache.misses[b] = some m → wbFull s.cache = false → m.way < 16 →
     wayMode s.cache m.way ≤ 1 → s.cache.maint.deferred = [] →
     (∀ k : Fin 16, (s.cache.misses[k]).all (fun x => decide (bankOf x.line = k)) = true) →
     ∃ t, exec (.cacheFillComplete b fl) s = .next t ∧ t.cache.misses[b] = none ∧ (findWay t.cache m.line).isSome = true ∧
       (slotAt t.cache (setOf m.line) m.way).valid = true ∧ (slotAt t.cache (setOf m.line) m.way).tag = tagOf m.line) ∧
  (∀ (b : Fin 16) (fl : List (Nat × Nat)) (s : State), s.cache.misses[b] = none → exec (.cacheFillComplete b fl) s = .next s) ∧
  (∀ (w : WriteBack) (rest : List WriteBack) (s : State), s.cache.wb = w :: rest → s.mem.wf = true →
     ∃ t, exec .writebackDrain s = .next t ∧ t.cache = { s.cache with wb := rest } ∧
       memLine t.mem w.line = encodeLine ((w.data ++ List.replicate 64 0).take 64) w.poison) ∧
  (∀ (s : State), s.cache.wb = [] → exec .writebackDrain s = .next s) ∧
  (∀ (who : Who) (v : Bytes) (s : State), writePasses s who 0x2401 1 v = true → needsAck s = false → s.cache.change = none →
     s.cache.maint.state ≠ 1 → s.cache.serving = true → v.map (fun b => b.toNat) ≠ s.cache.modes →
     ∃ t, exec (.wayModeWrite who v) s = .next t ∧ t.cache = { s.cache with change := some (v.map (fun b => b.toNat)) } ∧
       stored t 0x2401 1 = v ∧ answered t who 0x2401 1 0) ∧
  (∀ (who : Who) (v : Bytes) (s : State), writePasses s who 0x2401 1 v = true → (s.cache.change.isSome = true ∨ s.cache.maint.state = 1) →
     exec (.wayModeWrite who v) s = .next (send (.answer who 0x2401 1 0x0501) s)) ∧
  (∀ (l : List Nat) (s : State), s.cache.change = some l → l.length = 16 → s.cache.modes.length = 16 →
     ∃ t, exec .modeChangeComplete s = .next t ∧ t.cache.modes = l ∧ t.cache.change = none ∧ t.cache.wb = []) ∧
  (∀ (s : State), s.cache.change = none → exec .modeChangeComplete s = .next s) ∧
  (∀ (who : Who) (v : Bytes) (s : State), writePasses s who 0x2410 1 v = true → needsAck s = false → field v 0 1 = 1 →
     maintOk s v = true → field v 1 1 = 0 →
     ∃ t, exec (.cacheClean who v) s = .next t ∧ t.cache.maint.state = 1 ∧ t.cache.maint.op = 1 ∧ answered t who 0x2410 1 0 ∧
       ∀ set way, way < 16 → (slotAt t.cache set way).valid = true → wayMode t.cache way ≤ 1 →
         field v 8 8 ≤ 64 * lineOf set (slotAt t.cache set way).tag →
         64 * lineOf set (slotAt t.cache set way).tag < field v 8 8 + field v 16 8 → (slotAt t.cache set way).dirty = false) ∧
  (∀ (who : Who) (v : Bytes) (s : State), writePasses s who 0x2410 1 v = true → needsAck s = false → field v 0 1 = 2 →
     maintOk s v = true → field v 1 1 = 0 → (s.cache.slots.map (fun p => p.1)).Pairwise (· < ·) →
     ∃ t, exec (.cacheInvalidate who v) s = .next t ∧ t.cache.maint.state = 1 ∧ t.cache.maint.op = 2 ∧ answered t who 0x2410 1 0 ∧
       ∀ set way, way < 16 → wayMode t.cache way ≤ 1 → field v 8 8 ≤ 64 * lineOf set (slotAt t.cache set way).tag →
         64 * lineOf set (slotAt t.cache set way).tag < field v 8 8 + field v 16 8 → (slotAt t.cache set way).valid = false) ∧
  (∀ (who : Who) (v : Bytes) (s : State), writePasses s who 0x2410 1 v = true → needsAck s = false → field v 0 1 = 3 →
     maintOk s v = true → field v 1 1 = 0 → (s.cache.slots.map (fun p => p.1)).Pairwise (· < ·) →
     ∃ t, exec (.cacheCleanInvalidate who v) s = .next t ∧ t.cache.maint.state = 1 ∧ t.cache.maint.op = 3 ∧ answered t who 0x2410 1 0 ∧
       ∀ set way, way < 16 → wayMode t.cache way ≤ 1 → field v 8 8 ≤ 64 * lineOf set (slotAt t.cache set way).tag →
         64 * lineOf set (slotAt t.cache set way).tag < field v 8 8 + field v 16 8 → (slotAt t.cache set way).valid = false) ∧
  (∀ (who : Who) (v : Bytes) (s : State), writePasses s who 0x2410 1 v = true → needsAck s = false → field v 0 1 = 4 →
     maintOk s v = true → field v 16 8 = 64 → s.cache.misses = Vector.replicate 16 none →
     ∃ t, exec (.cacheLoad who v) s = .next t ∧ t.cache.maint.state = 1 ∧ t.cache.maint.op = 4 ∧ answered t who 0x2410 1 0 ∧
       (slotAt t.cache (setOf (field v 8 8 / 64)) (field v 2 1)).valid = true ∧
       (slotAt t.cache (setOf (field v 8 8 / 64)) (field v 2 1)).tag = tagOf (field v 8 8 / 64)) ∧
  (∀ (who : Who) (v : Bytes) (s : State), writePasses s who 0x2410 1 v = true → (s.cache.maint.state = 1 ∨ s.cache.change.isSome = true) →
     1 ≤ field v 0 1 → field v 0 1 ≤ 4 →
     (if field v 0 1 = 1 then exec (.cacheClean who v) s else if field v 0 1 = 2 then exec (.cacheInvalidate who v) s
        else if field v 0 1 = 3 then exec (.cacheCleanInvalidate who v) s else exec (.cacheLoad who v) s) =
       .next (send (.answer who 0x2410 1 0x0501) s)) ∧
  (∀ (s : State), s.cache.maint.state = 1 → s.cache.maint.deferred = [] →
     ∃ t, exec .maintenanceComplete s = .next t ∧ t.cache = { s.cache with maint := { s.cache.maint with state := 2 } } ∧
       (s.cache.maint.locked = 0 → t.log = s.log) ∧ (s.cache.maint.locked ≠ 0 →
         lastEvent t = some (0x3011, evData [.u32 s.cache.maint.locked, .u8 s.cache.maint.op, .u8 (b2n s.cache.maint.byWay)]))) ∧
  (∀ (s : State), s.cache.maint.state ≠ 1 → exec .maintenanceComplete s = .next s)

/-- Arrival, HOLD, links, PAIR-HELLO and departure. SOLO_TIMEOUT leaves a device without a peer SOLO; PEER_ARRIVED and
BATON_LINK_TRAINED make it UNPAIRED, and the first link brings event 4001 and a PAIR_HELLO (R133, R665). PAIRSEL_CLAIM takes a
HOLD that has been low long enough, or carries a takeover out; HOLD_CONFLICT leaves HOLD with side 0; DEMAND_RELEASE lowers
it, an ACTIVE device becoming UNPAIRED with reason 6 (R660, R666, R678). BATON_LINK_LOST lowers one link with event 4009;
PEER_DEPARTED ends the pair. PAIR_HELLO that fails a check leaves the device UNPAIRED with the reason; one that passes forms
the pair once one of the two holds PAIRSEL (R668, R688). ALIVE_LOSS and HEARTBEAT_LOSS begin a takeover on the STANDBY (R675);
TAKEOVER_REFUSED after 7.5 us ends it UNPAIRED with reason 7. -/
def Obligations.PairFormsAndParts : Prop :=
  (∀ (s : State), s.pair.decided = false → passed s s.pair.began (secTicks 1) = true → s.pair.peerAlive = false → batonUp s = false →
     ∃ t, exec .soloTimeout s = .next t ∧ t.pair = { s.pair with role := 0, decided := true }) ∧
  (∀ (s : State), s.pair.decided = true → exec .soloTimeout s = .next s) ∧
  (∀ (serial : Bytes) (s : State), batonUp s = false →
     ∃ t, exec (.peerArrived serial) s = .next t ∧ t.pair = (if s.pair.role = 0 then
       { s.pair with peerAlive := true, role := 3, decided := true, reason := 0 } else { s.pair with peerAlive := true })) ∧
  (∀ (low : Nat) (s : State), s.pair.alive = true → s.pair.hold = false → s.work.taking = none → s.pair.decided = true →
     (s.pair.role = 0 ∨ (s.pair.role = 3 ∧ batonUp s = false ∧ s.pair.hello = none)) → 2400 ≤ low → claimWait ≤ low →
     ∃ t, exec (.pairselClaim low) s = .next t ∧ t.pair = { s.pair with hold := true, peerHold := false }) ∧
  (∀ (low k : Nat) (s : State), s.pair.alive = true → s.pair.hold = false → s.work.taking = some (k, 0) → s.work.armed = false → 2400 ≤ low →
     ∃ t, exec (.pairselClaim low) s = .next t ∧ t.pair.hold = true ∧ t.pair.role = 0 ∧ t.pair.epoch = s.pair.epoch + 1 ∧
       t.work.taking = none ∧ (lastEvent t).map (fun e => e.1) = some 0x4006 ∧
       ∀ n : LaneId, (laneAt s n).life.pickup.isSome = true → (laneAt t n).life.st = .fault) ∧
  (∀ (low : Nat) (s : State), (s.pair.alive = false ∨ s.pair.hold = true ∨ low < 2400) → exec (.pairselClaim low) s = .next s) ∧
  (∀ (s : State), s.pair.hold = true →
     ∃ t, exec .holdConflict s = .next t ∧ t.pair.hold = !Sys2Proof.Config.side ∧ t.pair.peerHold = Sys2Proof.Config.side) ∧
  (∀ (s : State), s.pair.hold = false → exec .holdConflict s = .next s) ∧
  (∀ (s : State), s.pair.hold = true → s.power.unit ≠ 2 → s.pair.role ≠ 1 →
     ∃ t, exec .demandRelease s = .next t ∧ t.pair = { s.pair with hold := false, peerHold := true }) ∧
  (∀ (s : State), s.pair.hold = true → s.power.unit ≠ 2 → s.pair.role = 1 → s.work.armed = true →
     ∃ t, exec .demandRelease s = .next t ∧ t.pair.hold = false ∧ t.pair.role = 3 ∧ t.pair.reason = 6 ∧ t.work.armed = false ∧
       lastEvent t = some (0x4004, evData [.u8 6]) ∧ ∀ p : PortId, t.host.ctrls[p].sqs = [] ∧ t.host.ctrls[p].cqs = []) ∧
  (∀ (s : State), (s.pair.hold = false ∨ s.power.unit = 2) → exec .demandRelease s = .next s) ∧
  (∀ (k : PortId) (serial : Bytes) (s : State), batonUp s = false → s.power.unit ≠ 2 →
     ∃ t, exec (.batonLinkTrained k serial) s = .next t ∧ t.pair.links = s.pair.links.set k true ∧ t.pair.rxSeq = 0 ∧
       t.pair.role = (if s.pair.role = 0 then 3 else s.pair.role) ∧
       t.sent.head? = some (.baton (batonFrame 2 0 t.pair.epoch t.pair.txSeq t.pair.txCut (helloBody t))) ∧
       (s.pair.peerSerial = [] → t.pair.peerSerial = serial ∧ lastEvent t = some (0x4001, evData [.tail (unpad serial)]))) ∧
  (∀ (k : PortId) (serial : Bytes) (s : State), batonUp s = true → s.pair.links[k] = false → s.power.unit ≠ 2 →
     exec (.batonLinkTrained k serial) s = .next { s with pair := { s.pair with links := s.pair.links.set k true } }) ∧
  (∀ (k : PortId) (serial : Bytes) (s : State), (s.pair.links[k] = true ∨ s.power.unit = 2) → exec (.batonLinkTrained k serial) s = .next s) ∧
  (∀ (k j : PortId) (s : State), s.pair.links[k] = true → j ≠ k → s.pair.links[j] = true →
     ∃ t, exec (.batonLinkLost k) s = .next t ∧ t.pair = { s.pair with links := s.pair.links.set k false } ∧
       lastEvent t = some (0x4009, evData [.u8 k.val])) ∧
  (∀ (k : PortId) (s : State), s.pair.links[k] = false → exec (.batonLinkLost k) s = .next s) ∧
  (∀ (s : State), s.pair.peerSerial ≠ [] → s.work.taking = none →
     ∃ t, exec .peerDeparted s = .next t ∧ t.pair.role = 0 ∧ t.pair.peerSerial = [] ∧ t.pair.hello = none ∧ t.work.armed = false ∧
       t.work.commits = [] ∧ t.work.configs = []) ∧
  (∀ (s : State), s.pair.peerSerial = [] → s.pair.role = 0 → exec .peerDeparted s = .next s) ∧
  (∀ (epoch seq cut : Nat) (body : Bytes) (side : Bool) (r : Nat) (s : State), hearsBaton s s.pair.epoch seq body = true → epoch < 2 ^ 32 →
     helloReason s body side = some r →
     ∃ t, exec (.pairHello (batonFrame 2 0 epoch seq cut body) side) s = .next t ∧ t.pair.role = 3 ∧ t.pair.reason = r ∧
       t.pair.rxSeq = seq ∧ t.work.armed = false ∧ lastEvent t = some (0x4004, evData [.u8 r])) ∧
  (∀ (epoch seq cut : Nat) (body : Bytes) (side : Bool) (s : State), hearsBaton s s.pair.epoch seq body = true → epoch < 2 ^ 32 →
     ∃ t, exec (.pairHello (batonFrame 2 0 epoch seq cut body) side) s = .next t ∧ t.pair.rxSeq = seq ∧
       (helloReason s body side = none → t.pair.peerHold = decide (field body 34 1 = 1) ∧
         (s.pair.hold ≠ decide (field body 34 1 = 1) → t.pair.role = (if s.pair.hold then 1 else 2) ∧
           t.pair.epoch = max s.pair.epoch (field body 35 4) + 1 ∧ t.pair.hello = none) ∧
         (s.pair.hold = decide (field body 34 1 = 1) → t.pair.hello = some (field body 35 4, field body 30 4, field body 39 8)))) ∧
  (∀ (s : State), s.pair.role = 2 → s.work.suppressed = false → s.work.taking = none →
     ∃ t, exec .aliveLoss s = .next t ∧ t.pair = { s.pair with peerAlive := false, peerHold := false } ∧
       t.work = { s.work with taking := some (s.ticks, 0) }) ∧
  (∀ (s : State), s.pair.role ≠ 2 →
     ∃ t, exec .aliveLoss s = .next t ∧ t.pair = { s.pair with peerAlive := false, peerHold := false } ∧ t.work = s.work) ∧
  (∀ (s : State), s.pair.role = 2 → s.work.suppressed = false → s.work.taking = none → passed s s.work.lastBeat 29280 = true →
     ∃ t, exec .heartbeatLoss s = .next t ∧ t.pair = { s.pair with demand := s.pair.peerAlive } ∧
       t.work = { s.work with taking := some (s.ticks, 1) }) ∧
  (∀ (s : State), (s.pair.role ≠ 2 ∨ passed s s.work.lastBeat 29280 = false) → exec .heartbeatLoss s = .next s) ∧
  (∀ (k cause : Nat) (s : State), s.work.taking = some (k, cause) → passed s k 36000 = true → cause ≠ 3 →
     ∃ t, exec .takeoverRefused s = .next t ∧ t.pair.role = 3 ∧ t.pair.reason = 7 ∧ t.pair.demand = false ∧ t.work.taking = none ∧
       t.pair.hold = s.pair.hold ∧ lastEvent t = some (0x400A, evData [.u32 s.pair.epoch])) ∧
  (∀ (s : State), s.work.taking = none → exec .takeoverRefused s = .next s)

/-- Heartbeats, the mirror, acknowledgements, shared configuration and drills. HEARTBEAT_SEND closes a cut of the mirror; on the
STANDBY a HEARTBEAT makes the cut its mirror, MIRROR adds a record to the cut, and COMMIT is stored and acknowledged (R671 to
R674). ACK posts the completion, or answers the write, that waited for it, or arms mirroring. CONFIG writes an entry from the
peer and acknowledges it. START_DRILL and DRILL_SCHEDULE begin a drill, or defer it; DRILL starts the STANDBY's part;
DRILL_QUIESCE_EXPIRE, DRILL_RELEASE and DRILL_CHECK carry it to its end or to its failure (R687). LANE_VIEW_MISMATCH marks the
lane with event 400B (R688). -/
def Obligations.PairWorksTogether : Prop :=
  (∀ (s : State), s.pair.role = 1 → s.pair.hold = true → batonUp s = true → s.power.unit ≠ 2 → passed s s.work.lastCut 9120 = true →
     s.work.drill = none →
     ∃ t, exec .heartbeatSend s = .next t ∧ t.pair.txCut = s.pair.txCut + 1 ∧ t.work.lastCut = s.ticks ∧ t.work.full = true ∧
       t.sent.head? = some (.baton (batonFrame 1 1 s.pair.epoch t.pair.txSeq t.pair.txCut
         (toLE 8 (timerCount s) ++ toLE 8 (timeNow s) ++ toLE 4 (t.pair.txSeq - 1)))) ∧ t.lanes = s.lanes) ∧
  (∀ (s : State), (s.pair.role ≠ 1 ∨ s.pair.hold = false ∨ batonUp s = false) → exec .heartbeatSend s = .next s) ∧
  (∀ (epoch seq cut timer time : Nat) (s : State), hearsBaton s epoch seq (zeroBytes 20) = true → s.pair.role = 2 →
     timer < 2 ^ 64 → time < 2 ^ 64 →
     ∃ t, exec (.heartbeat (batonFrame 1 1 epoch seq cut (toLE 8 timer ++ toLE 8 time ++ toLE 4 s.pair.rxSeq))) s = .next t ∧
       t.pair.epoch = epoch ∧ t.pair.rxSeq = seq ∧ t.work.lastBeat = s.ticks ∧ t.pair.mirror = s.pair.gathering ∧ t.pair.gathering = [] ∧
       t.pair.commits = [] ∧ t.work.full = true) ∧
  (∀ (epoch seq cut : Nat) (body : Bytes) (s : State), hearsBaton s epoch seq body = true → s.pair.role = 2 →
     ∃ t, exec (.mirror (batonFrame 0x10 0 epoch seq cut body)) s = .next t ∧ t = { s with
       pair := { s.pair with rxSeq := seq, gathering := s.pair.gathering ++ [body] } }) ∧
  (∀ (epoch seq cut : Nat) (body : Bytes) (s : State), hearsBaton s epoch seq body = true → s.pair.role = 2 →
     ∃ t, exec (.commit (batonFrame 0x11 0 epoch seq cut body)) s = .next t ∧ t.pair = { s.pair with
         rxSeq := seq, commits := s.pair.commits ++ [body], txSeq := s.pair.txSeq + 1 } ∧
       t.sent = .baton (ackFrame t seq 0) :: s.sent) ∧
  (∀ (epoch seq cut k : Nat) (c : CmdId) (f : Flight) (s : State), hearsBaton s epoch seq (zeroBytes 8) = true → k < 2 ^ 32 →
     s.work.commits = [(k, c)] → s.host.flights = [f] → f.c = c → f.silent = false → cqRoom s c = true →
     ∃ t, exec (.ack (batonFrame 0x12 0 epoch seq cut (toLE 4 k ++ toLE 4 0))) s = .next t ∧ t.work.commits = [] ∧ t.host.flights = [] ∧
       .completion c (f.status.getD (0, 0, none)).1 (f.status.getD (0, 0, none)).2.1 (f.status.getD (0, 0, none)).2.2 f.dw0 f.dw1 ∈ t.sent.take 3) ∧
  (∀ (epoch seq cut k : Nat) (who : Who) (i j : Nat) (s : State), hearsBaton s epoch seq (zeroBytes 8) = true → k < 2 ^ 32 →
     s.work.commits = [] → s.work.configs = [(k, .record who i j)] →
     ∃ t, exec (.ack (batonFrame 0x12 0 epoch seq cut (toLE 4 k ++ toLE 4 0))) s = .next t ∧ t.work.configs = [] ∧ answered t who i j 0) ∧
  (∀ (epoch seq cut k : Nat) (s : State), hearsBaton s epoch seq (zeroBytes 8) = true → k < 2 ^ 32 → s.work.commits = [] →
     s.work.configs = [] → s.work.asked = [] → s.pair.role = 1 → s.work.full = true → s.work.armed = false → s.work.mismatch = false →
     s.work.barred = false →
     ∃ t, exec (.ack (batonFrame 0x12 0 epoch seq cut (toLE 4 k ++ toLE 4 0))) s = .next t ∧ t.work = { s.work with armed := true } ∧
       lastEvent t = some (0x4005, evData [.u8 0])) ∧
  (∀ (epoch seq cut index sub word : Nat) (v : Bytes) (s : State), hearsBaton s epoch seq (zeroBytes 8 ++ v) = true → s.pair.role = 2 →
     index < 65536 → sub < 256 → word < 2 ^ 32 → plainEntry index sub = true → writePasses (heardBaton s seq) .peer index sub v = true →
     ∃ t, exec (.config (batonFrame 0x20 0 epoch seq cut (toLE 2 index ++ [byte sub, 0] ++ toLE 4 word ++ v))) s = .next t ∧
       stored t index sub = v ∧ t.sent.head? = some (.baton (ackFrame t seq 0)) ∧ (t.work.mismatch = true ↔ liveCheck t ≠ word)) ∧
  (∀ (epoch seq cut td : Nat) (s : State), hearsBaton s epoch seq (zeroBytes 8) = true → s.pair.role = 2 → s.work.taking = none →
     td < 2 ^ 64 →
     ∃ t, exec (.drill (batonFrame 0x30 0 epoch seq cut (toLE 8 td))) s = .next t ∧
       t.work = { s.work with taking := some (s.ticks, 3), drill := some { stage := 2, began := s.ticks, td := td } }) ∧
  (∀ (who : Who) (v : Bytes) (s : State), writePasses s who 0x2101 2 v = true → s.work.armed = true → carriedQueues s = false →
     s.work.drill = none →
     ∃ t, exec (.startDrill who v) s = .next t ∧ answered t who 0x2101 2 0 ∧
       t.work.drill.map (fun d => (d.stage, d.began)) = some (if anyPass s then 1 else 2, s.ticks)) ∧
  (∀ (who : Who) (v : Bytes) (s : State), writePasses s who 0x2101 2 v = true → s.work.armed = false →
     exec (.startDrill who v) s = .next (send (.answer who 0x2101 2 0x0304) s)) ∧
  (∀ (s : State), s.pair.role = 1 → cfg s 0x2101 1 ≠ 0 → passed s s.work.drillFrom (secTicks (cfg s 0x2101 1)) = true →
     s.work.deferred ≤ s.ticks → s.work.armed = false →
     ∃ t, exec .drillSchedule s = .next t ∧ t = { s with work := { s.work with deferred := s.ticks + secTicks 3600 } }) ∧
  (∀ (s : State), s.pair.role = 1 → cfg s 0x2101 1 ≠ 0 → passed s s.work.drillFrom (secTicks (cfg s 0x2101 1)) = true →
     s.work.deferred ≤ s.ticks → s.work.armed = true → carriedQueues s = false → s.work.drill = none →
     ∃ t, exec .drillSchedule s = .next t ∧ t.work.drillFrom = s.ticks ∧
       t.work.drill.map (fun d => d.stage) = some (if anyPass s then 1 else 2)) ∧
  (∀ (d : Drill) (s : State), s.work.drill = some d → d.stage = 1 → passed s d.began (msTicks (cfg s 0x2101 5)) = true → anyPass s = true →
     ∃ t, exec .drillQuiesceExpire s = .next t ∧ t.work.drill = none ∧ t.work.deferred = s.ticks + secTicks 3600 ∧
       lastEvent t = some (0x4008, evData [.u8 0])) ∧
  (∀ (s : State), s.work.drill = none → exec .drillQuiesceExpire s = .next s) ∧
  (∀ (d : Drill) (s : State), s.work.drill = some d → s.pair.role = 1 → d.stage = 2 → d.td ≤ timerCount s →
     ∃ t, exec .drillRelease s = .next t ∧ t.pair = { s.pair with hold := false } ∧ t.work = { s.work with drill := some { d with stage := 3 } }) ∧
  (∀ (s : State), s.work.drill = none → exec .drillRelease s = .next s) ∧
  (∀ (d : Drill) (h : Bool) (s : State), s.work.drill = some d → d.stage = 4 →
     ∃ t, exec (.drillCheck h) s = .next t ∧ t.pair.role = 2 ∧ t.pair.peerHold = true ∧ t.work.drill = none ∧ t.work.lastBeat = s.ticks ∧
       ∀ p : PortId, t.host.ctrls[p].sqs = []) ∧
  (∀ (d : Drill) (h : Bool) (s : State), s.work.drill = some d → d.stage = 3 → d.td + 48000 ≤ timerCount s →
     ∃ t, exec (.drillCheck h) s = .next t ∧ t.pair.hold = true ∧ t.work.drill = none ∧ t.work.barred = true ∧ t.work.armed = false ∧
       lastEvent t = some (0x4008, evData [.u8 1])) ∧
  (∀ (h : Bool) (s : State), s.work.drill = none → exec (.drillCheck h) s = .next s) ∧
  (∀ (n : LaneId) (pp pd : Bool) (s : State), (s.pair.role = 1 ∨ s.pair.role = 2) → (laneAt s n).life.presence.stable ≠ pp →
     bit s.work.view n.val = false →
     ∃ t, exec (.laneViewMismatch n pp pd) s = .next t ∧ bit t.work.view n.val = true ∧
       lastEvent t = some (0x400B, evData [.u8 n.val, .u8 (b2n (laneAt s n).life.presence.stable), .u8 (b2n (clamped (laneAt s n))), .u8 (b2n pp), .u8 (b2n pd)])) ∧
  (∀ (n : LaneId) (pp pd : Bool) (s : State), (bit s.work.view n.val = true ∨ (s.pair.role ≠ 1 ∧ s.pair.role ≠ 2)) →
     exec (.laneViewMismatch n pp pd) s = .next s)

/-- Power states are asked for. SET_FEATURES_POWER_MANAGEMENT and UNIT_STATE_WRITE ask for a power state (R692, R693): PS0 and PS1
are reached at once in RUN with the cap of PS1 on every lane (R695), STAND and SLEEP begin by stopping admission (R696), PS2
cannot be selected and the feature cannot be saved, and SLEEP is refused while a queue lies in a CMB (R698). DEMAND_WAKE
begins the wake of a unit in SLEEP (R711). -/
def Obligations.PowerRequestsTaken : Prop :=
  (∀ (c : CmdId) (dw11 : Nat) (s : State), adminOpen s c = true →
     ∃ t, exec (.setFeaturesPowerManagement c true dw11) s = .next t ∧ t.power = s.power ∧ t.sent.take 2 = adminAnswer c 1 0x0D 0 0) ∧
  (∀ (c : CmdId) (dw11 : Nat) (s : State), adminOpen s c = true → s.power.unit = 0 → s.power.running = none → s.pair.role ≠ 2 →
     dw11 % 32 ≤ 1 → dw11 % 32 ≠ s.power.ps →
     ∃ t, exec (.setFeaturesPowerManagement c false dw11) s = .next t ∧ t.power = { s.power with ps := dw11 % 32 } ∧
       (∀ n : LaneId, (laneAt t n).pace.unitCeiling = (if dw11 % 32 = 1 then cfg s 0x2200 4 else 9984)) ∧ t.sent.take 2 = adminAnswer c 0 0 0 0) ∧
  (∀ (c : CmdId) (dw11 : Nat) (s : State), adminOpen s c = true → dw11 % 32 = 2 →
     ∃ t, exec (.setFeaturesPowerManagement c false dw11) s = .next t ∧ t.power = s.power ∧ lastEvent t = some (0x5203, evData [.u8 1, .u8 2]) ∧
       t.sent.take 2 = adminAnswer c 0 2 0 0) ∧
  (∀ (c : CmdId) (dw11 : Nat) (s : State), adminOpen s c = true → 4 < dw11 % 32 →
     ∃ t, exec (.setFeaturesPowerManagement c false dw11) s = .next t ∧ t.power = s.power ∧ t.sent.take 2 = adminAnswer c 0 2 0 0) ∧
  (∀ (c : CmdId) (dw11 : Nat) (s : State), adminOpen s c = true → s.power.unit = 0 → s.power.running = none → s.pair.role ≠ 2 →
     (dw11 % 32 = 3 ∨ dw11 % 32 = 4) → dw11 % 32 ≠ s.power.ps → queueInCmb s = false →
     ∃ t, exec (.setFeaturesPowerManagement c false dw11) s = .next t ∧ t.host.stopped = true ∧
       t.power = { s.power with running := some { ps := dw11 % 32, who := .nvme (adminId c) }, began := s.ticks }) ∧
  (∀ (c : CmdId) (dw11 : Nat) (s : State), adminOpen s c = true → s.power.unit = 0 → s.power.running = none → s.pair.role ≠ 2 →
     dw11 % 32 = 4 → s.power.ps ≠ 4 → queueInCmb s = true →
     ∃ t, exec (.setFeaturesPowerManagement c false dw11) s = .next t ∧ t.power = s.power ∧ t.host.stopped = s.host.stopped ∧
       lastEvent t = some (0x5203, evData [.u8 2, .u8 1]) ∧ t.sent.take 2 = adminAnswer c 0 0x15 0 0) ∧
  (∀ (who : Who) (v : Bytes) (s : State), writePasses s who 0x2200 1 v = true → s.power.unit = 0 → s.power.running = none → s.pair.role ≠ 2 →
     fromLE v = 0 →
     ∃ t, exec (.unitStateWrite who v) s = .next t ∧ t.power = s.power ∧ answered t who 0x2200 1 0) ∧
  (∀ (who : Who) (v : Bytes) (s : State), writePasses s who 0x2200 1 v = true → s.power.unit = 0 → s.power.ps ≤ 1 → s.power.running = none →
     s.pair.role ≠ 2 → fromLE v = 1 →
     ∃ t, exec (.unitStateWrite who v) s = .next t ∧ t.host.stopped = true ∧
       t.power = { s.power with running := some { ps := 3, who := .dict (.record who 0x2200 1) }, began := s.ticks }) ∧
  (∀ (s : State), s.power.unit = 2 → s.power.ps = 4 → s.power.wake = 0 → s.power.running = none →
     ∃ t, exec .demandWake s = .next t ∧ t.sup = { s.sup with en := s.sup.en.set 0 true } ∧
       t.power = { s.power with running := some { ps := 0, who := .peer 0 }, began := s.ticks, wake := 1, stepAt := s.ticks, wakeTimes := List.replicate 7 0 } ∧
       t.pair = { s.pair with demand := s.pair.hold && decide (s.pair.role = 1) }) ∧
  (∀ (s : State), (s.power.unit ≠ 2 ∨ s.power.wake ≠ 0) → exec .demandWake s = .next s)

/-- STAND is entered, refused and left, and SLEEP entered. STAND_ENTRY brings a unit whose lanes are at rest and whose I/O has
ended into STAND, with event 5201 and the answer to a request for STAND; a request for SLEEP runs on (R696).
STAND_ENTRY_TIMEOUT ends a request with 0401 and event 5203 once 2200:05 has passed (R697). WAKE_FROM_STAND returns to RUN and
resumes admission (R706). SLEEP_ENTRY stops the lanes, saves, empties the cache, isolates the core domain and lowers PMIC1
(R699, R702). -/
def Obligations.StandEnteredAndLeft : Prop :=
  (∀ (who : Who) (i j : Nat) (s : State), s.power.running = some { ps := 3, who := .dict (.record who i j) } → s.power.waiting = [] →
     s.work.asked = [] → s.power.unit = 0 → standReady s = true →
     ∃ t, exec .standEntry s = .next t ∧ t.power.unit = 1 ∧ t.power.ps = 3 ∧ t.power.running = none ∧ t.power.selfRefresh = true ∧
       t.life.due = some true ∧ answered t who i j 0 ∧
       lastEvent t = some (0x5201, evData [.u8 1, .u8 3, .u32 (tickNs (s.ticks - s.power.began) / 1000000)])) ∧
  (∀ (r : PowerReq) (s : State), s.power.running = some r → 3 < r.ps → s.power.unit = 0 → standReady s = true →
     ∃ t, exec .standEntry s = .next t ∧ t.power.unit = 1 ∧ t.power.ps = 3 ∧ t.power.running = some r ∧ t.power.selfRefresh = true) ∧
  (∀ (s : State), (s.power.running = none ∨ s.power.unit ≠ 0 ∨ standReady s = false) → exec .standEntry s = .next s) ∧
  (∀ (ps : Nat) (who : Who) (i j : Nat) (s : State), s.power.running = some { ps := ps, who := .dict (.record who i j) } → s.power.waiting = [] →
     s.power.unit = 0 → 3 ≤ ps → passed s s.power.began (secTicks (cfg s 0x2200 5)) = true →
     ∃ t, exec .standEntryTimeout s = .next t ∧ t.power = { s.power with running := none } ∧ t.host.stopped = false ∧
       lastEvent t = some (0x5203, evData [.u8 (unitOfPs ps), .u8 0]) ∧ answered t who i j 0x0401) ∧
  (∀ (s : State), (s.power.running = none ∨ s.power.unit ≠ 0) → exec .standEntryTimeout s = .next s) ∧
  (∀ (ps : Nat) (who : Who) (i j : Nat) (s : State), s.power.running = some { ps := ps, who := .dict (.record who i j) } → s.power.waiting = [] →
     s.work.asked = [] → s.power.unit = 1 → ps ≤ 1 →
     ∃ t, exec .wakeFromStand s = .next t ∧ t.power.unit = 0 ∧ t.power.ps = ps ∧ t.power.running = none ∧ t.power.selfRefresh = false ∧
       t.host.stopped = false ∧ answered t who i j 0) ∧
  (∀ (s : State), (s.power.running = none ∨ s.power.unit ≠ 1) → exec .wakeFromStand s = .next s) ∧
  (∀ (r : PowerReq) (s : State), s.power.running = some r → r.ps = 4 → s.power.unit = 1 → s.power.isolated = false → s.conf.save = none →
     ∃ t, exec .sleepEntry s = .next t ∧ t.power = { s.power with saveBytes := 39624, isolated := true } ∧ t.cache.serving = false ∧
       t.cache.slots = [] ∧ t.sup = { s.sup with vaon := true, en := s.sup.en.set 1 false, lowering := [2, 0], loweredAt := s.ticks } ∧
       ∀ n : LaneId, (laneAt t n).spin = Spindle.reset ∧ (laneAt t n).life.st = .off ∧ (laneAt t n).loop.runout = (laneAt s n).loop.runout) ∧
  (∀ (s : State), (s.power.running = none ∨ s.power.unit ≠ 1) → exec .sleepEntry s = .next s)

/-- A wake from SLEEP. WAKE_STEP, WAKE_STEP_TIMEOUT (R705): each ready signal starts the next step, the last ends in RUN; a step
not seen in four times its bound, and a check that fails, end the wake in a device reset. -/
def Obligations.WakesStepByStep : Prop :=
  (∀ (r : PowerReq) (s : State), s.power.running = some r → s.power.unit = 2 → s.power.wake = 1 →
     ∃ t, exec (.wakeStep true) s = .next t ∧ t.power.wake = 2 ∧ t.sup = { s.sup with pg := s.sup.pg.set 0 true, en := s.sup.en.set 2 true } ∧
       t.pair = { s.pair with demand := false } ∧ t.power.wakeTimes = s.power.wakeTimes.set 0 (tickNs (s.ticks - s.power.began) / 1000)) ∧
  (∀ (r : PowerReq) (s : State), s.power.running = some r → s.power.unit = 2 → s.power.wake = 2 →
     ∃ t, exec (.wakeStep true) s = .next t ∧ t.power.wake = 3 ∧ t.sup = { s.sup with pg := s.sup.pg.set 2 true, en := s.sup.en.set 1 true }) ∧
  (∀ (r : PowerReq) (s : State), s.power.running = some r → s.power.unit = 2 → s.power.wake = 3 →
     ∃ t, exec (.wakeStep true) s = .next t ∧ t.power.wake = 4 ∧ t.sup = { s.sup with pg := s.sup.pg.set 1 true }) ∧
  (∀ (r : PowerReq) (s : State), s.power.running = some r → s.power.unit = 2 → s.power.wake = 4 →
     ∃ t, exec (.wakeStep true) s = .next t ∧ t.power.wake = 5 ∧ t.sup = s.sup ∧
       t.power.wakeTimes = s.power.wakeTimes.set 3 (tickNs (s.ticks - s.power.began) / 1000)) ∧
  (∀ (r : PowerReq) (s : State), s.power.running = some r → s.power.unit = 2 → s.power.wake = 5 →
     ∃ t, exec (.wakeStep true) s = .next t ∧ t.power.wake = 6 ∧ t.power.selfRefresh = false ∧ t.sup = s.sup) ∧
  (∀ (ps : Nat) (who : Who) (i j : Nat) (s : State), s.power.running = some { ps := ps, who := .dict (.record who i j) } → ps ≤ 1 →
     s.power.waiting = [] → s.work.asked = [] → s.power.unit = 2 → s.power.wake = 6 →
     ∃ t, exec (.wakeStep true) s = .next t ∧ t.power.unit = 0 ∧ t.power.ps = ps ∧ t.power.wake = 0 ∧ t.power.isolated = false ∧
       t.power.wokeFromSleep = true ∧ t.power.running = none ∧ t.host.stopped = false ∧ t.cache.serving = true ∧ t.sup.vaon = false ∧
       answered t who i j 0) ∧
  (∀ (r : PowerReq) (k : Nat) (s : State), s.power.running = some r → s.power.unit = 2 → s.power.wake = k → (k = 5 ∨ k = 6) →
     s.sup.resetDue = false →
     ∃ t, exec (.wakeStep false) s = .next t ∧ t.power = { s.power with wake := 0 } ∧ t.sup.resetDue = true ∧ t.island.cause = some 4 ∧
       t.island.resumeFailed = true ∧ t.pair.alive = false ∧ t.pair.hold = false) ∧
  (∀ (ok : Bool) (s : State), (s.power.running = none ∨ s.power.unit ≠ 2 ∨ s.power.wake = 0) → exec (.wakeStep ok) s = .next s) ∧
  (∀ (s : State), s.power.unit = 2 → 1 ≤ s.power.wake → passed s s.power.began (msTicks (4 * wakeBound s.power.wake)) = true →
     ∃ t, exec .wakeStepTimeout s = .next t ∧ t.power = { s.power with wake := 0 } ∧ t.island = { s.island with resumeFailed := true } ∧
       t.sup = { s.sup with resetDue := true } ∧ t.pair = { s.pair with alive := false, hold := false, demand := false } ∧
       lastEvent t = some (0x5202, evData [.u8 s.power.wake])) ∧
  (∀ (s : State), (s.power.unit ≠ 2 ∨ s.power.wake = 0) → exec .wakeStepTimeout s = .next s)

/-- Fail-stops, supply faults, the trip and device resets. WATCHDOG_EXPIRE of a watchdog that runs, and FAIL_STOP, end health with
their code and leave a device reset due; an image on trial falls back (R742 to R744). DEVICE_RESET returns the machine to its
reset values but for what outlives it; with AON_PG low, as AON_POWER_FAIL, the enables are lowered too (R819). SUPPLY_CHECK
faults on a rail's second reading in a row outside its range, PMIC_PG_FALL at once (R814). REFERENCE_CLOCK_LOST ends health
(R661). THERMAL_TRIP lowers the supplies above 125 degC (R820), COMPOSITE_TEMPERATURE_CHANGE sets THERM_WARN_N above 105 degC
and the warning of the controllers (R799). That nothing else outlives a device reset is the reading of log entries 18 and 83. -/
def Obligations.HealthEndsInAReset : Prop :=
  (∀ (core : Fin 12) (s : State), watchdogRuns core s = true → s.sup.resetDue = false →
     ∃ t, exec (.watchdogExpire core) s = .next t ∧ t.island.cause = some 1 ∧ t.sup = { s.sup with resetDue := true } ∧
       t.pair = { s.pair with alive := false, hold := false, demand := false }) ∧
  (∀ (core : Fin 12) (s : State), watchdogRuns core s = false → exec (.watchdogExpire core) s = .next s) ∧
  (∀ (k : Nat) (r : Fin 2) (s : State), s.fw.running = some r → 1 ≤ k → k ≤ 7 → k ≠ 4 → k ≠ 5 → s.sup.resetDue = false → s.fw.slots[r].st ≠ 4 →
     ∃ t, exec (.failStop k) s = .next t ∧ t.island = { s.island with cause := some k } ∧ t.sup = { s.sup with resetDue := true } ∧
       t.fw = s.fw ∧ t.pair = { s.pair with alive := false, hold := false, demand := false }) ∧
  (∀ (k : Nat) (r : Fin 2) (s : State), s.fw.running = some r → 1 ≤ k → k ≤ 7 → k ≠ 4 → k ≠ 5 → s.sup.resetDue = false → s.fw.slots[r].st = 4 →
     ∃ t, exec (.failStop k) s = .next t ∧ t.island = { s.island with cause := some k, trialFailed := true } ∧ t.fw.slots[r].st = 2 ∧
       t.fw.slots[otherSlot r].st = 5 ∧ t.fw.dir.boot = (otherSlot r).val ∧ t.fw.fallbacks = s.fw.fallbacks + 1) ∧
  (∀ (k : Nat) (s : State), (s.fw.running = none ∨ k = 0 ∨ 7 < k) → exec (.failStop k) s = .next s) ∧
  (∀ (s : State), ∃ t, exec (.deviceReset false) s = .next t ∧ t.pair.alive = false ∧ t.pair.hold = false ∧ t.sup.inReset = true ∧
       t.sup.resetDue = false ∧ t.fw.booted = false ∧ t.fw.slots = s.fw.slots ∧ t.island = { s.island with resetPort := !s.sup.resetDue } ∧
       t.conf.copyA = s.conf.copyA ∧ t.conf.copyB = s.conf.copyB ∧ t.life.pages = s.life.pages ∧ t.cal = State.reset.cal ∧ t.dict = State.reset.dict ∧
       t.host = State.reset.host ∧ t.mem = State.reset.mem ∧
       ∀ n : LaneId, laneAt t n = { Lane.reset with spin := (laneAt t n).spin } ∧
         ((laneAt s n).spin.phase = 0 → (laneAt t n).spin = Spindle.reset) ∧
         ((laneAt s n).spin.phase ≠ 0 → (laneAt t n).spin.stopping = true ∧ (laneAt t n).spin.mode = 2)) ∧
  (∀ (s : State), s.sup.aonPg = true →
     ∃ t, exec (.deviceReset true) s = .next t ∧ exec .aonPowerFail s = .next t ∧ t.sup.aonPg = false ∧ t.sup.inReset = true ∧ t.fw.booted = false ∧
       t.sup.en = s.sup.en.set 1 false ∧ t.sup.lowering = [2, 0, 3] ∧ t.sup.loweredAt = s.ticks ∧ t.lanes = s.lanes.map laneRestart) ∧
  (∀ (s : State), s.sup.aonPg = false → exec .aonPowerFail s = .next s) ∧
  (∀ (mv : List Nat) (i : Fin 7) (s : State), s.sup.resetDue = false → railWatched s i.val = true →
     (10 * mv.getD i.val 0 < (railRange i.val).1 ∨ (railRange i.val).2 < 10 * mv.getD i.val 0) → 1 ≤ s.sup.bad.getD i.val 0 →
     (∀ j : Fin 7, j < i → s.sup.bad.getD j.val 0 = 0) →
     ∃ t, exec (.supplyCheck mv) s = .next t ∧ t.sup.resetDue = true ∧ t.pair = { s.pair with alive := false, hold := false, demand := false } ∧
       t.island = { s.island with rail := i.val, railMv := mv.getD i.val 0, railTime := timeNow s, supply := some (i.val, mv.getD i.val 0) }) ∧
  (∀ (mv : List Nat) (s : State), (∀ i : Fin 7, s.sup.bad.getD i.val 0 = 0 ∨ ((railRange i.val).1 ≤ 10 * mv.getD i.val 0 ∧ 10 * mv.getD i.val 0 ≤ (railRange i.val).2)) →
     ∃ t, exec (.supplyCheck mv) s = .next t ∧ t.pair = s.pair ∧ t.island = s.island ∧ t.sup.resetDue = s.sup.resetDue) ∧
  (∀ (g : Fin 4) (s : State), s.sup.en[g] = true → s.sup.pg[g] = true → s.sup.resetDue = false →
     ∃ t, exec (.pmicPgFall g) s = .next t ∧ t.sup = { s.sup with pg := s.sup.pg.set g false, resetDue := true } ∧
       t.pair = { s.pair with alive := false, hold := false, demand := false } ∧ t.island.rail = g.val) ∧
  (∀ (g : Fin 4) (s : State), (s.sup.en[g] = false ∨ s.sup.pg[g] = false ∨ s.sup.resetDue = true) → exec (.pmicPgFall g) s = .next s) ∧
  (∀ (clk : PortId) (s : State),
     ∃ t, exec (.referenceClockLost clk) s = .next t ∧ t.sup = { s.sup with clocks := s.sup.clocks.set clk false } ∧
       t.pair = { s.pair with alive := false, hold := false, demand := false }) ∧
  (∀ (die : Fin 5) (temp : Int) (s : State), 1250 < temp → s.sup.trip = false →
     ∃ t, exec (.thermalTrip die temp) s = .next t ∧ t.sup.trip = true ∧ t.sup.en = s.sup.en.set 1 false ∧ t.sup.lowering = [0] ∧
       lastEvent t = some (0x5103, evData [.u8 die.val, .s32 (temp / 10)])) ∧
  (∀ (die : Fin 5) (temp : Int) (s : State), (temp ≤ 1250 ∨ s.sup.trip = true) → exec (.thermalTrip die temp) s = .next s) ∧
  (∀ (temps : List Int) (s : State), temps.length = 5 →
     ∃ t, exec (.compositeTemperatureChange temps) s = .next t ∧ t.sup.temps = temps ∧ (t.sup.warn = true ↔ ∃ x ∈ temps, 1050 < x)) ∧
  (∀ (temps : List Int) (p : PortId) (s : State), temps.length = 5 → s.host.ctrls[p].warning / 2 % 2 = 0 → s.host.ctrls[p].feat.tempOver = 358 →
     (∃ x ∈ temps, 849 ≤ x) →
     ∃ t, exec (.compositeTemperatureChange temps) s = .next t ∧ t.host.ctrls[p].warning / 2 % 2 = 1)

/-- Power-up, the boot and power-down. POWER_UP_STEP takes the island out of reset with AON_PG, and raises the next enable with
each power-good (R816); POWER_UP_TIMEOUT lowers the enables, and POWER_UP_RETRY begins once more (R817). BOOT_ROM boots the
slot that verifies, or none (R723, R724). POWER_DOWN_STEP lowers the next enable on the power-good's fall or after its bound,
and the last of an entry to SLEEP brings the unit there (R699, R819). -/
def Obligations.BootsInSequence : Prop :=
  (∀ (k : Nat) (x : Fin 5) (g : Fin 4) (nx : Option (Fin 4)) (s : State), s.sup.lowering = [] → s.sup.aonPg = true → s.sup.step = k →
     powerUpWaits k = some (g, nx) → x.val = g.val →
     exec (.powerUpStep x) s = .next { s with sup := { s.sup with
       step := k + 1, pg := s.sup.pg.set g true, en := nx.elim s.sup.en (fun h => s.sup.en.set h true) } }) ∧
  (∀ (s : State), s.sup.aonPg = false → s.sup.lowering = [] →
     exec (.powerUpStep 4) s = .next { s with
       cal := Calendar.reset, island := Island.reset, pair := { s.pair with shift := -(s.ticks : Int) }
       sup := { Supply.reset with en := #v[false, false, false, true], stepAt := s.ticks, pg := Vector.replicate 4 false } }) ∧
  (∀ (x : Fin 5) (s : State), (s.sup.lowering ≠ [] ∨ (x = 4 ∧ s.sup.aonPg = true) ∨
       (x ≠ 4 ∧ (s.sup.aonPg = false ∨ (powerUpWaits s.sup.step).all (fun q => decide (q.1.val ≠ x.val)) = true))) →
     exec (.powerUpStep x) s = .next s) ∧
  (∀ (s : State), 1 ≤ s.sup.step → s.sup.step ≤ 4 → s.sup.lowering = [] → s.sup.failures = 0 →
     passed s s.sup.stepAt (msTicks (16 + 4 * s.sup.step)) = true →
     ∃ t, exec .powerUpTimeout s = .next t ∧ t.sup.step = 0 ∧ t.sup.en = Vector.replicate 4 false ∧ t.sup.failures = 1 ∧
       t.island = { s.island with retried := some (s.sup.step + 1) }) ∧
  (∀ (g : Fin 4) (nx : Option (Fin 4)) (s : State), powerUpWaits s.sup.step = some (g, nx) → s.sup.lowering = [] → s.sup.failures ≠ 0 →
     passed s s.sup.stepAt (msTicks (16 + 4 * s.sup.step)) = true →
     ∃ t, exec .powerUpTimeout s = .next t ∧ t.sup.step = 0 ∧ t.sup.en = Vector.replicate 4 false ∧ t.island.rail = g.val) ∧
  (∀ (s : State), powerUpWaits s.sup.step = none → exec .powerUpTimeout s = .next s) ∧
  (∀ (s : State), s.sup.step = 0 → s.sup.failures = 1 → passed s s.sup.stepAt (secTicks 1) = true →
     ∃ t, exec .powerUpRetry s = .next t ∧ t = { s with sup := { s.sup with step := 1, en := #v[false, false, false, true], stepAt := s.ticks } }) ∧
  (∀ (s : State), (s.sup.step ≠ 0 ∨ s.sup.failures ≠ 1) → exec .powerUpRetry s = .next s) ∧
  (∀ (ddr : List DdrSeen) (s : State), s.fw.booted = false → 5 ≤ s.sup.step → s.sup.lowering = [] →
     ∃ t, exec (.bootRom ddr) s = .next t ∧ t.fw.booted = true ∧ t.sup.step = 6 ∧ t.sup.inReset = false ∧ t.sup.powerOn = false ∧
       (bootPick s = none → t.fw.running = s.fw.running ∧ t.pair = s.pair ∧ t.dict = s.dict) ∧
       ∀ (r : Fin 2) (fell : Bool), bootPick s = some (r, fell) → t.fw.running = some r ∧ t.pair.alive = true ∧
         t.fw.slots[r].st = bootedState s.fw.slots[r].st ∧ t.fw.loader = (measureImage s.fw.slots[r].image s).fw.loader ∧
         t.mem.chan = #v[(chansSeen ddr).1.1, (chansSeen ddr).2.1] ∧ (fell = true → t.fw.slots[otherSlot r].st = 0)) ∧
  (∀ (ddr : List DdrSeen) (s : State), (s.fw.booted = true ∨ s.sup.step < 5 ∨ s.sup.lowering ≠ []) → exec (.bootRom ddr) s = .next s) ∧
  (∀ (g : Fin 4) (rest : List (Fin 4)) (s : State), s.sup.lowering = g :: rest → (s.power.isolated = false ∨ s.power.unit ≠ 1) →
     ∃ t, exec (.powerDownStep true) s = .next t ∧ t.sup = { s.sup with
       pg := Vector.ofFn (fun i : Fin 4 => s.sup.pg[i] && s.sup.en[i]), en := s.sup.en.set g false, lowering := rest, loweredAt := s.ticks }) ∧
  (∀ (g : Fin 4) (rest : List (Fin 4)) (s : State), s.sup.lowering = g :: rest → (s.power.isolated = false ∨ s.power.unit ≠ 1) →
     passed s s.sup.loweredAt 2400000 = true →
     ∃ t, exec (.powerDownStep false) s = .next t ∧ t.sup = { s.sup with en := s.sup.en.set g false, lowering := rest, loweredAt := s.ticks }) ∧
  (∀ (g : Fin 4) (who : Who) (i j : Nat) (s : State), s.sup.lowering = [g] → s.power.isolated = true → s.power.unit = 1 →
     s.power.running = some { ps := 4, who := .dict (.record who i j) } → s.power.waiting = [] → s.work.asked = [] →
     ∃ t, exec (.powerDownStep true) s = .next t ∧ t.power.unit = 2 ∧ t.power.ps = 4 ∧ t.power.running = none ∧ t.sup.en[g] = false ∧
       t.sup.lowering = [] ∧ t.pair.links = Vector.replicate 2 false ∧ answered t who i j 0) ∧
  (∀ (s : State), s.sup.lowering = [] → exec (.powerDownStep false) s = .next s)

/-- Lifetime saves, the pickup's area, the calendar and ALERT_N. LIFETIME_SAVE writes the next page once a save is due or the
interval has passed (R749, R750); PICKUP_LIFETIME_WRITE writes a pickup's area (R753, R754). SET_CALENDAR sets the calendar
(R758); SET_PPS_TIME names the next edge, and PPS_EDGE takes that time, or slews toward the nearest second, or finds a
mismatch (R759, R760); PPS_TIMEOUT ends the wait for the edge. CLEAR_ALERT lowers ALERT_N (R798). What a rate correction is
learned from an edge the spec does not state: it is a free value of log entry 14, and nothing is said of it here. -/
def Obligations.RecordsAndCalendarKept : Prop :=
  (∀ (clean : Bool) (q : Fin 16) (s : State), s.conf.save = none → s.life.due = some clean → s.life.page = some q →
     ∃ t, exec .lifetimeSave s = .next t ∧ t.life.due = none ∧ t.life.generation = s.life.generation + 1 ∧ t.life.lastSave = s.ticks ∧
       t.life.lastSeq = s.log.nextSeq ∧ t.life.page = some (if q = 0 then 15 else q - 1 : Fin 16) ∧
       t.life.pages = s.life.pages.set (if q = 0 then 15 else q - 1 : Fin 16) (lifePage (countPowerOn s) clean)) ∧
  (∀ (s : State), s.conf.save = none → s.life.due = none → passed s s.life.lastSave (secTicks (cfg s 0x2710 3)) = true → s.life.page = none →
     ∃ t, exec .lifetimeSave s = .next t ∧ t.life.page = some 15 ∧ t.life.pages = s.life.pages.set 15 (lifePage (countPowerOn s) false)) ∧
  (∀ (s : State), (s.conf.save.isSome = true ∨ (s.life.due = none ∧ passed s s.life.lastSave (secTicks (cfg s 0x2710 3)) = false)) →
     exec .lifetimeSave s = .next s) ∧
  (∀ (n : LaneId) (p : Pickup) (s : State), (laneAt s n).life.pickup = some p → (laneAt s n).plife.due = true →
     ∃ t, exec (.pickupLifetimeWrite n) s = .next t ∧ (laneAt t n).plife.due = false ∧ (laneAt t n).plife.written = s.ticks ∧
       (laneAt t n).plife.warmUps = 0 ∧
       let body := (p.image ++ zeroBytes 128).take 128 ++ lifeArea s p (laneAt s n).plife ++ zeroBytes 28
       (laneAt t n).life.pickup = some { p with image := body ++ toLE 4 (crc32 body) } ∧ Sent.sideband n ((body ++ toLE 4 (crc32 body)).drop 128) ∈ t.sent) ∧
  (∀ (n : LaneId) (s : State), ((laneAt s n).life.pickup = none ∨ ((laneAt s n).plife.due = false ∧
     passed s (laneAt s n).plife.written (secTicks (lcfg s n 0xE8 7)) = false)) → exec (.pickupLifetimeWrite n) s = .next s) ∧
  (∀ (who : Who) (v : Bytes) (s : State), writePasses s who 0x2700 1 v = true →
     ∃ t, exec (.setCalendar who v) s = .next t ∧ timeNow t = fromLE v ∧ t.cal.unset = false ∧ t.cal.lastSet = fromLE v ∧
       t.cal.lastStep = (fromLE v : Int) - timeNow s ∧ answered t who 0x2700 1 0) ∧
  (∀ (who : Who) (v : Bytes) (s : State), writePasses s who 0x2700 2 v = true →
     ∃ t, exec (.setPpsTime who v) s = .next t ∧ t.cal = { s.cal with named := some (fromLE v, s.ticks), ppsMismatch := false, ppsMissing := false } ∧
       answered t who 0x2700 2 0) ∧
  (∀ (time k : Nat) (s : State), s.cal.named = some (time, k) → s.ticks ≤ k + msTicks 1100 →
     ∃ t, exec .ppsEdge s = .next t ∧ timeNow t = time ∧ t.cal.unset = false ∧ t.cal.named = none ∧ t.cal.ppsPresent = true ∧ t.cal.lastSet = time) ∧
  (∀ (s : State), s.cal.named = none → s.cal.unset = false → s.cal.ppsMismatch = false → (secondOffset (timeNow s)).natAbs ≤ 1000000 →
     ∃ t, exec .ppsEdge s = .next t ∧ t.cal.slew = secondOffset (timeNow s) ∧ t.cal.base = timeNow s ∧ t.cal.tick = s.ticks ∧
       t.cal.edges = s.cal.edges + 1 ∧ t.cal.ppsMismatch = false) ∧
  (∀ (s : State), s.cal.named = none → s.cal.unset = false → s.cal.ppsMismatch = false → 1000000 < (secondOffset (timeNow s)).natAbs →
     ∃ t, exec .ppsEdge s = .next t ∧ t.cal = { s.cal with ppsPresent := true, ppsMismatch := true }) ∧
  (∀ (s : State), s.cal.named = none → (s.cal.unset = true ∨ s.cal.ppsMismatch = true) →
     ∃ t, exec .ppsEdge s = .next t ∧ t.cal = { s.cal with ppsPresent := true }) ∧
  (∀ (time k : Nat) (s : State), s.cal.named = some (time, k) → passed s k (msTicks 1100) = true →
     ∃ t, exec .ppsTimeout s = .next t ∧ t = { s with cal := { s.cal with named := none, ppsMissing := true, ppsPresent := false } }) ∧
  (∀ (s : State), s.cal.named = none → exec .ppsTimeout s = .next s) ∧
  (∀ (who : Who) (v : Bytes) (s : State), writePasses s who 0x2010 6 v = true →
     ∃ t, exec (.clearAlert who v) s = .next t ∧ t.alert = false ∧ answered t who 0x2010 6 0)

/-- DRIVE and LASER statuses, SIDEBAND, PHYs, JTAG and neighbours. DRIVE_STATUS and LASER_STATUS with a wrong CRC are counted;
with a right one they are kept, and a fault bit set twice in a row (event 1801) or TRAINED clear is a link fault, as is their
absence for 41.7 us or 32 us (DRIVE_STATUS_TIMEOUT, LASER_STATUS_TIMEOUT; R784, R786, R793, R794). SIDEBAND_RETRY counts
failures; the third in a row is a lane fault above PARKED, or rejects an arriving pickup (R797). MDIO_POLL and
PCIE_LINK_TRAINED keep what was seen (R531, R803). JTAG_INSTRUCTION shifts the register it selects (R800). NEIGHBOUR_DISCOVERY
answers a solicitation for an own address, learns neighbours and reports the group of the announcements (R803). -/
def Obligations.LinksWatchedAndPortsServed : Prop :=
  (∀ (n : LaneId) (p : Bytes) (crc : Nat) (s : State), (p.length ≠ 6 ∨ crc16 p ≠ crc) →
     ∃ t, exec (.driveStatus n p crc) s = .next t ∧
       t.lanes = (setLane n (fun l => { l with links := { l.links with driveBad := l.links.driveBad + 1 } }) s).lanes ∧
       elem t (laneIdx n 0xE9) 1 8 0 = (elem s (laneIdx n 0xE9) 1 8 0 + 1) % 2 ^ 64) ∧
  (∀ (n : LaneId) (p : Bytes) (s : State), p.length = 6 → (laneAt s n).links.driveTrained = true → bit (field p 0 1) 4 = true →
     field (laneAt s n).links.driveStatus 1 1 % 32 &&& field p 1 1 % 32 = 0 →
     ∃ t, exec (.driveStatus n p (crc16 p)) s = .next t ∧ (laneAt t n).links = { (laneAt s n).links with
       driveStatus := p, driveSeen := s.ticks, driveBad := 0, driveSelected := bit (field p 0 1) 3 } ∧ (laneAt t n).flt = (laneAt s n).flt) ∧
  (∀ (n : LaneId) (p : Bytes) (s : State), p.length = 6 → (laneAt s n).links.driveTrained = true → (laneAt s n).life.st ≠ .off →
     field (laneAt s n).links.driveStatus 1 1 % 32 &&& field p 1 1 % 32 ≠ 0 →
     ∃ t, exec (.driveStatus n p (crc16 p)) s = .next t ∧ (laneAt t n).links.driveTrained = false ∧ (laneAt t n).links.lastCause = 3 ∧
       (laneAt t n).flt.safe = true ∧ ((laneAt s n).sled.queue = [] → (laneAt s n).flt.completions.length < 64 →
         .fault 0x1106 (laneAt s n).life.st ∈ (laneAt t n).flt.completions) ∧
       lastEvent t = some (0x1801, evData [.u8 n.val, .u8 0, .u8 (field p 1 1 % 32)])) ∧
  (∀ (n : LaneId) (p : Bytes) (s : State), p.length = 6 → (laneAt s n).links.driveTrained = true → (laneAt s n).life.st ≠ .off →
     bit (field p 0 1) 4 = false → field (laneAt s n).links.driveStatus 1 1 % 32 &&& field p 1 1 % 32 = 0 →
     ∃ t, exec (.driveStatus n p (crc16 p)) s = .next t ∧ (laneAt t n).links.driveTrained = false ∧ (laneAt t n).links.lastCause = 2 ∧
       (laneAt t n).flt.safe = true) ∧
  (∀ (n : LaneId) (s : State), (laneAt s n).links.driveTrained = true → passed s (laneAt s n).links.driveSeen 200000 = true → (laneAt s n).life.st ≠ .off →
     ∃ t, exec (.driveStatusTimeout n) s = .next t ∧ (laneAt t n).links.driveTrained = false ∧ (laneAt t n).links.lastCause = 1 ∧
       (laneAt t n).flt.safe = true) ∧
  (∀ (n : LaneId) (s : State), ((laneAt s n).links.driveTrained = false ∨ passed s (laneAt s n).links.driveSeen 200000 = false) →
     exec (.driveStatusTimeout n) s = .next s) ∧
  (∀ (n : LaneId) (p : Bytes) (crc : Nat) (s : State), (p.length ≠ 4 ∨ crc16 p ≠ crc) →
     ∃ t, exec (.laserStatus n p crc) s = .next t ∧
       t.lanes = (setLane n (fun l => { l with links := { l.links with laserBad := l.links.laserBad + 1 } }) s).lanes ∧
       elem t (laneIdx n 0xE9) 2 8 0 = (elem s (laneIdx n 0xE9) 2 8 0 + 1) % 2 ^ 64) ∧
  (∀ (n : LaneId) (p : Bytes) (s : State), p.length = 4 → (laneAt s n).links.laserTrained = true → bit (field p 0 1) 0 = true →
     field (laneAt s n).links.laserStatus 1 1 % 16 &&& field p 1 1 % 16 = 0 →
     ∃ t, exec (.laserStatus n p (crc16 p)) s = .next t ∧ (laneAt t n).links = { (laneAt s n).links with
       laserStatus := p, laserSeen := s.ticks, laserBad := 0, laserSelected := bit (field p 0 1) 1, laserFallen := bit (field p 0 1) 2 } ∧
       (laneAt t n).flt = (laneAt s n).flt) ∧
  (∀ (n : LaneId) (p : Bytes) (s : State), p.length = 4 → (laneAt s n).links.laserTrained = true → (laneAt s n).life.st ≠ .off →
     (bit (field p 0 1) 0 = false ∨ field (laneAt s n).links.laserStatus 1 1 % 16 &&& field p 1 1 % 16 ≠ 0) →
     ∃ t, exec (.laserStatus n p (crc16 p)) s = .next t ∧ (laneAt t n).links.laserTrained = false ∧ (laneAt t n).flt.safe = true ∧
       ((laneAt s n).sled.queue = [] → (laneAt s n).flt.completions.length < 64 →
         .fault 0x1107 (laneAt s n).life.st ∈ (laneAt t n).flt.completions)) ∧
  (∀ (n : LaneId) (s : State), (laneAt s n).links.laserTrained = true → passed s (laneAt s n).links.laserSeen 153600 = true → (laneAt s n).life.st ≠ .off →
     ∃ t, exec (.laserStatusTimeout n) s = .next t ∧ (laneAt t n).links.laserTrained = false ∧ (laneAt t n).flt.safe = true) ∧
  (∀ (n : LaneId) (s : State), ((laneAt s n).links.laserTrained = false ∨ passed s (laneAt s n).links.laserSeen 153600 = false) →
     exec (.laserStatusTimeout n) s = .next s) ∧
  (∀ (n : LaneId) (s : State), exec (.sidebandRetry n true) s =
     .next (setLane n (fun l => { l with links := { l.links with sidebandFails := 0 } }) s)) ∧
  (∀ (n : LaneId) (s : State), (laneAt s n).links.sidebandFails < 2 →
     ∃ t, exec (.sidebandRetry n false) s = .next t ∧ (laneAt t n).links.sidebandFails = (laneAt s n).links.sidebandFails + 1 ∧
       (laneAt t n).flt = (laneAt s n).flt ∧ elem t (laneIdx n 0xE9) 4 8 0 = (elem s (laneIdx n 0xE9) 4 8 0 + 1) % 2 ^ 64) ∧
  (∀ (n : LaneId) (s : State), (laneAt s n).links.sidebandFails = 2 → abovePark (laneAt s n).life.st = true →
     ∃ t, exec (.sidebandRetry n false) s = .next t ∧ (laneAt t n).links.sidebandFails = 0 ∧ (laneAt t n).flt.safe = true ∧
       ((laneAt s n).sled.queue = [] → (laneAt s n).flt.completions.length < 64 →
         .fault 0x110A (laneAt s n).life.st ∈ (laneAt t n).flt.completions)) ∧
  (∀ (n : LaneId) (s : State), (laneAt s n).links.sidebandFails = 2 → (laneAt s n).life.st = .off → (laneAt s n).life.arriving = true →
     ∃ t, exec (.sidebandRetry n false) s = .next t ∧ (laneAt t n).life.arriving = false ∧ lastEvent t = some (0x1003, evData [.u8 n.val, .u8 1])) ∧
  (∀ (port : PortId) (up : Bool) (s : State),
     exec (.mdioPoll port up) s = .next { s with ports := { s.ports with mdioUp := s.ports.mdioUp.set port up } }) ∧
  (∀ (port : PortId) (speed width : Nat) (s : State),
     exec (.pcieLinkTrained port speed width) s = .next (setCtrl port (fun c => { c with speed := speed, width := width }) s)) ∧
  (∀ (ir : Nat) (tdi : List Bool) (s : State), ir ≠ 2 → ir ≠ 3 →
     exec (.jtagInstruction ir tdi) s = .next { s with ports := { s.ports with
       jtag := if ir = 1 then 1 else 0
       jtagOut := ((if ir = 1 then bitsLE 32 0x159320A3 else [false]) ++ tdi).take tdi.length } }) ∧
  (∀ (ir : Nat) (tdi : List Bool) (s : State), (ir = 2 ∨ ir = 3) →
     ∃ t, exec (.jtagInstruction ir tdi) s = .next t ∧ t.ports.jtag = ir ∧ t.ports.preload = tdi ∧ t.ports.jtagOut.length = tdi.length ∧
       t.lanes = s.lanes ∧ t.fw = s.fw ∧ t.mem = s.mem) ∧
  (∀ (port : PortId) (addr msg : Bytes) (s : State), cfg s 0x1100 (1 + port.val) ≠ 0 → field msg 0 1 = 135 →
     (slice msg 8 16 = linkLocal port ∨ ((stored s 0x1100 (3 + port.val)).all (fun b => decide (b = 0)) = false ∧
       slice msg 8 16 = stored s 0x1100 (3 + port.val))) →
     ∃ t, exec (.neighbourDiscovery port addr msg) s = .next t ∧ t.sent = .neighbour port (icmpMessage (slice msg 8 16) addr 136
         (natBytes [0x60, 0, 0, 0] ++ slice msg 8 16 ++ natBytes [2, 1] ++ (Sys2Proof.Config.macAddress port).toList)) :: s.sent ∧
       (field msg 24 1 = 1 → (port, addr ++ slice msg 26 6) ∈ t.ports.neighbours)) ∧
  (∀ (port : PortId) (addr msg : Bytes) (s : State), cfg s 0x1100 (1 + port.val) ≠ 0 → field msg 0 1 = 136 → field msg 24 1 = 2 →
     ∃ t, exec (.neighbourDiscovery port addr msg) s = .next t ∧ t.sent = s.sent ∧ (port, slice msg 8 16 ++ slice msg 26 6) ∈ t.ports.neighbours) ∧
  (∀ (port : PortId) (addr msg : Bytes) (s : State), cfg s 0x1100 (1 + port.val) ≠ 0 → field msg 0 1 = 130 →
     ∃ t, exec (.neighbourDiscovery port addr msg) s = .next t ∧ t.ports = s.ports ∧ t.sent = .neighbour port (icmpMessage
       (linkLocal port) reportGroup 143 (natBytes [0, 0, 0, 1, 4, 0, 0, 0] ++ announceGroup)) :: s.sent) ∧
  (∀ (port : PortId) (addr msg : Bytes) (s : State), (cfg s 0x1100 (1 + port.val) = 0 ∨ field msg 0 1 < 130) →
     exec (.neighbourDiscovery port addr msg) s = .next s)
end

