-- ==== Sys2Proof/Laws/Keeps.lean ====
section
/-! SUPPORT. What an operation keeps: the queue, the period timer, the parts that it does not name, and the invariant. -/

namespace Sys2Proof.Machine

/-- From `s` to `t` the queue and the period timer stand, only the parts of `p` may differ, and the invariant is kept. -/
structure Keeps (p : List Part) (s t : State) : Prop where
  queue : t.pending = s.pending
  ticks : t.ticks = s.ticks
  frame : ∀ x, x ∉ p → x.same s t
  mem : s.mem.wf = true → t.mem.wf = true
  log : s.log.bounded → t.log.bounded
  dict : s.dict.bounded → t.dict.bounded

theorem Part.same_refl (x : Part) (s : State) : x.same s s := by cases x <;> simp [Part.same]

theorem Part.same_trans {x : Part} {s t u : State} (h : x.same s t) (k : x.same t u) : x.same s u := by
  cases x <;> simp only [Part.same] at * <;> first
    | exact k.trans h
    | exact ⟨k.1.trans h.1, k.2.trans h.2⟩
    | (rw [k, h])

theorem Keeps.refl (p : List Part) (s : State) : Keeps p s s :=
  ⟨rfl, rfl, fun x _ => x.same_refl s, id, id, id⟩

theorem Keeps.trans {p : List Part} {s t u : State} (h : Keeps p s t) (k : Keeps p t u) : Keeps p s u :=
  ⟨k.queue.trans h.queue, k.ticks.trans h.ticks, fun x hx => Part.same_trans (h.frame x hx) (k.frame x hx),
    k.mem ∘ h.mem, k.log ∘ h.log, k.dict ∘ h.dict⟩

theorem Keeps.inv {p : List Part} {s t : State} (h : Keeps p s t) (i : Inv s) : Inv t := ⟨h.mem i.mem, h.log i.log, h.dict i.dict⟩

/-- Parts named within parts named. -/
theorem subP {q r p : List Part} (hp : r ⊆ p) (h : q.all (fun x => r.contains x) = true) : q ⊆ p := by
  intro x hx
  have := List.all_eq_true.mp h x hx
  exact hp (by simpa using this)

theorem memP {r p : List Part} {x : Part} (hp : r ⊆ p) (h : r.contains x = true) : x ∈ p := hp (by simpa using h)

/-- A record update of the state. -/
theorem Keeps.upd {p : List Part} {s0 s : State} {v1 v2 v3 v4 v5 v6 v7 v8 vp v9 v10 v11 v12 v13 v14 v15 v16 v17 v18 v19 v20 v21 v22 v23}
    (h : Keeps p s0 s)
    (h1 : v1 = s.free ∨ .free ∈ p) (h2 : v2 = s.sent ∨ .sent ∈ p) (h3 : v3.reg = s.dict.reg ∨ .reg ∈ p)
    (h3k : v3.keys = s.dict.keys ∨ .keys ∈ p) (h3d : v3 = { s.dict with reg := v3.reg, keys := v3.keys } ∨ .dict ∈ p) (h4 : v4 = s.conf ∨ .conf ∈ p)
    (h5 : v5 = s.log ∨ .log ∈ p) (h6 : v6 = s.cal ∨ .cal ∈ p) (h7 : v7 = s.life ∨ .life ∈ p) (h8 : v8 = s.lanes ∨ .lanes ∈ p)
    (hp : vp = s.pool ∨ .pool ∈ p) (h9 : v9 = s.teams ∨ .teams ∈ p) (h10 : v10 = s.segs ∨ .segs ∈ p) (h11 : v11 = s.alert ∨ .alert ∈ p)
    (h12 : v12 = s.coreMv ∨ .core ∈ p) (h13 : v13 = s.coreGoal ∨ .core ∈ p) (h14 : v14 = s.host ∨ .host ∈ p)
    (h15 : v15 = s.mem ∨ .mem ∈ p) (h16 : v16 = s.cache ∨ .cache ∈ p) (h17 : v17 = s.pair ∨ .pair ∈ p)
    (h18 : v18 = s.work ∨ .work ∈ p) (h19 : v19 = s.power ∨ .power ∈ p) (h20 : v20 = s.fw ∨ .fw ∈ p)
    (h21 : v21 = s.island ∨ .island ∈ p) (h22 : v22 = s.sup ∨ .sup ∈ p) (h23 : v23 = s.ports ∨ .ports ∈ p)
    (hm : s.mem.wf = true → v15.wf = true) (hl : s.log.bounded → v5.bounded) (hd : s.dict.bounded → v3.bounded) :
    Keeps p s0 (State.mk s.pending s.ticks v1 v2 v3 v4 v5 v6 v7 v8 vp v9 v10 v11 v12 v13 v14 v15 v16 v17 v18 v19 v20 v21 v22 v23) := by
  refine h.trans ⟨rfl, rfl, fun x hx => ?_, hm, hl, hd⟩
  cases x <;> simp only [Part.same]
  · exact h1.resolve_right hx
  · exact h2.resolve_right hx
  · exact h3.resolve_right hx
  · exact h3k.resolve_right hx
  · exact h3d.resolve_right hx
  · exact h4.resolve_right hx
  · exact h5.resolve_right hx
  · exact h6.resolve_right hx
  · exact h7.resolve_right hx
  · exact h8.resolve_right hx
  · exact hp.resolve_right hx
  · exact h9.resolve_right hx
  · exact h10.resolve_right hx
  · exact h11.resolve_right hx
  · exact ⟨h12.resolve_right hx, h13.resolve_right hx⟩
  · exact h14.resolve_right hx
  · exact h15.resolve_right hx
  · exact h16.resolve_right hx
  · exact h17.resolve_right hx
  · exact h18.resolve_right hx
  · exact h19.resolve_right hx
  · exact h20.resolve_right hx
  · exact h21.resolve_right hx
  · exact h22.resolve_right hx
  · exact h23.resolve_right hx

/-- Buffer memory whose stored bytes are unchanged keeps its form. -/
theorem wf_of {m n : Memory} (h : n.cells = m.cells) (k : n.hostFilled = m.hostFilled) : m.wf = true → n.wf = true := by
  have u : unlisted n = unlisted m := funext fun a => by unfold unlisted hostFilledAt; rw [k]
  intro hm; unfold Memory.wf at *; rw [h, u]; exact hm

/-- A dictionary whose sessions are unchanged keeps its bounds. -/
theorem dict_of {d e : Dict} (h : e.sessions = d.sessions) : d.bounded → e.bounded := by
  simp [Dict.bounded, h]

/-- A session put into a slot with few enough responses. -/
theorem dict_set {d e : Dict} {i : Fin 8} {y : Option Session} (he : e.sessions = d.sessions.set i y)
    (hy : d.bounded → ∀ x, y = some x → x.stored.length ≤ 16) : d.bounded → e.bounded := by
  intro hd j x hj
  rw [he] at hj
  by_cases q : j = i
  · subst q
    exact hy hd x (by simpa using hj)
  · have q' : i.val ≠ j.val := fun e => q (Fin.ext e.symm)
    have : d.sessions[j] = some x := by
      simpa [Vector.getElem_set, q'] using hj
    exact hd j x this

/-- A log whose entries are unchanged keeps its bound. -/
theorem log_of {d e : Log} (h : e.entries = d.entries) : d.bounded → e.bounded := by
  simp [Log.bounded, h]

theorem Keeps.ite {p : List Part} {s0 a b : State} {c : Prop} [Decidable c] (h : Keeps p s0 a) (k : Keeps p s0 b) :
    Keeps p s0 (if c then a else b) := by split <;> assumption

/-- A fold of operations that keep. -/
theorem Keeps.foldl {α : Type} {p : List Part} {s0 : State} (f : State → α → State) :
    ∀ (l : List α) (s : State), (∀ a x, Keeps p s0 a → Keeps p s0 (f a x)) → Keeps p s0 s → Keeps p s0 (l.foldl f s)
  | [], _, _, h => h
  | x :: l, s, hf, h => Keeps.foldl f l (f s x) hf (hf s x h)

/-- A fold whose accumulator carries the state. -/
theorem Keeps.foldP {α β : Type} {p : List Part} {s0 : State} (g : β → State) (f : β → α → β) (l : List α) (b : β)
    (hf : ∀ b x, Keeps p s0 (g b) → Keeps p s0 (g (f b x))) (h : Keeps p s0 (g b)) : Keeps p s0 (g (l.foldl f b)) := by
  induction l generalizing b with
  | nil => exact h
  | cons x l ih => exact ih _ (hf b x h)

theorem Keeps.fold2 {α β : Type} {p : List Part} {s0 : State} (f : β × State → α → β × State) (l : List α) (b : β × State)
    (hf : ∀ b x, Keeps p s0 b.2 → Keeps p s0 (f b x).2) (h : Keeps p s0 b.2) : Keeps p s0 (l.foldl f b).2 :=
  Keeps.foldP (fun b => b.2) f l b hf h

theorem Keeps.fold1 {α β : Type} {p : List Part} {s0 : State} (f : State × β → α → State × β) (l : List α) (b : State × β)
    (hf : ∀ b x, Keeps p s0 b.1 → Keeps p s0 (f b x).1) (h : Keeps p s0 b.1) : Keeps p s0 (l.foldl f b).1 :=
  Keeps.foldP (fun b => b.1) f l b hf h

theorem Keeps.elim {α : Type} {p : List Part} {s0 a : State} {o : Option α} {f : α → State} (h : Keeps p s0 a)
    (k : ∀ x, Keeps p s0 (f x)) : Keeps p s0 (o.elim a f) := by
  cases o with
  | none => exact h
  | some x => exact k x

/-- Every next state of an outcome is kept. -/
def KeepsO (p : List Part) (s0 : State) (o : Host.Outcome State Fault Refusal) : Prop := ∀ r, o = .next r → Keeps p s0 r

theorem KeepsO.next {p : List Part} {s0 t : State} (h : Keeps p s0 t) : KeepsO p s0 (.next t) := fun _ q => by
  injection q with q; exact q ▸ h

theorem KeepsO.fault {p : List Part} {s0 : State} {f : Fault} : KeepsO p s0 (.fault f) := fun _ q => by injection q

theorem KeepsO.ite {p : List Part} {s0 : State} {a b : Host.Outcome State Fault Refusal} {c : Prop} [Decidable c] (h : KeepsO p s0 a)
    (k : KeepsO p s0 b) : KeepsO p s0 (if c then a else b) := by split <;> assumption

/-- Every state that an effect answers is kept. -/
def KeepsE {α : Type} (p : List Part) (s0 : State) (o : Except α State) : Prop := ∀ r, o = .ok r → Keeps p s0 r

theorem KeepsE.ok {α : Type} {p : List Part} {s0 t : State} (h : Keeps p s0 t) : KeepsE (α := α) p s0 (.ok t) := fun _ q => by
  injection q with q; exact q ▸ h

theorem KeepsE.error {α : Type} {p : List Part} {s0 : State} {e : α} : KeepsE p s0 (.error e) := fun _ q => by injection q

theorem KeepsE.ite {α : Type} {p : List Part} {s0 : State} {a b : Except α State} {c : Prop} [Decidable c] (h : KeepsE p s0 a)
    (k : KeepsE p s0 b) : KeepsE p s0 (if c then a else b) := by split <;> assumption

theorem KeepsE.map {α : Type} {p : List Part} {s0 : State} {e : Except α State} {f : State → State} (h : KeepsE p s0 e)
    (k : ∀ t, Keeps p s0 t → Keeps p s0 (f t)) : KeepsE p s0 (e.map f) := by
  intro r q
  cases e with
  | error e => injection q
  | ok t => injection q with q; exact q ▸ k t (h t rfl)

/-- Every state that an effect answers beside a number is kept. -/
def KeepsF {α β : Type} (p : List Part) (s0 : State) (o : Except α (β × State)) : Prop := ∀ r, o = .ok r → Keeps p s0 r.2

theorem KeepsF.ok {α β : Type} {p : List Part} {s0 : State} {r : β × State} (h : Keeps p s0 r.2) : KeepsF (α := α) p s0 (.ok r) :=
  fun _ q => by injection q with q; exact q ▸ h

theorem KeepsF.error {α β : Type} {p : List Part} {s0 : State} {e : α} : KeepsF (β := β) p s0 (.error e) := fun _ q => by injection q

theorem KeepsF.ite {α β : Type} {p : List Part} {s0 : State} {a b : Except α (β × State)} {c : Prop} [Decidable c]
    (h : KeepsF p s0 a) (k : KeepsF p s0 b) : KeepsF p s0 (if c then a else b) := by split <;> assumption

theorem KeepsF.of {α β : Type} {p : List Part} {s0 t : State} {e : Except α (β × State)} {b : β} (q : e = .ok (b, t))
    (h : KeepsF p s0 e) : Keeps p s0 t := h _ q

theorem KeepsE.of {α : Type} {p : List Part} {s0 t : State} {e : Except α State} (q : e = .ok t) (h : KeepsE p s0 e) : Keeps p s0 t :=
  h t q

theorem Keeps.snd {α : Type} {p : List Part} {s0 t : State} {e : α × State} {a : α} (q : e = (a, t)) (h : Keeps p s0 e.2) :
    Keeps p s0 t := by subst q; exact h

theorem Keeps.snd2 {α β : Type} {p : List Part} {s0 t : State} {e : α × β × State} {a : α} {b : β} (q : e = (a, b, t))
    (h : Keeps p s0 e.2.2) : Keeps p s0 t := by subst q; exact h

theorem Keeps.fst {α : Type} {p : List Part} {s0 t : State} {e : State × α} {a : α} (q : e = (t, a)) (h : Keeps p s0 e.1) :
    Keeps p s0 t := by subst q; exact h

end Sys2Proof.Machine
end

