-- ==== Sys2Proof/Laws/KeepsOps.lean ====
section
/-! SUPPORT. What the operations of Ops.lean keep. -/

namespace Sys2Proof.Machine

set_option linter.unusedTactic false
set_option linter.unreachableTactic false
set_option linter.unusedVariables false

theorem keeps_draw {Kp : List Part} {K0 s : State} {m : Nat} (hKp : [.free] ⊆ Kp) (hK : Keeps Kp K0 s) :
    Keeps Kp K0 (draw m s).2 := by
  unfold draw
  with_reducible repeat' first
    | assumption
    | exact .inl rfl
    | exact .inr (memP hKp (by decide))
    | exact id
    | apply Keeps.upd

theorem keeps_drawBytes {Kp : List Part} {K0 s : State} {n : Nat} (hKp : [.free] ⊆ Kp) (hK : Keeps Kp K0 s) :
    Keeps Kp K0 (drawBytes n s).2 := by
  unfold drawBytes
  with_reducible repeat' first
    | assumption
    | exact .inl rfl
    | exact .inr (memP hKp (by decide))
    | exact id
    | apply Keeps.upd

theorem keeps_setLane {Kp : List Part} {K0 s : State} {n : LaneId} {f : Lane → Lane} (hKp : [.lanes] ⊆ Kp) (hK : Keeps Kp K0 s) :
    Keeps Kp K0 (setLane n f s) := by
  unfold setLane
  with_reducible repeat' first
    | assumption
    | exact .inl rfl
    | exact .inr (memP hKp (by decide))
    | exact id
    | apply Keeps.upd

theorem keeps_setTeam {Kp : List Part} {K0 s : State} {t : TeamId} {f : Team → Team} (hKp : [.teams] ⊆ Kp) (hK : Keeps Kp K0 s) :
    Keeps Kp K0 (setTeam t f s) := by
  unfold setTeam
  with_reducible repeat' first
    | assumption
    | exact .inl rfl
    | exact .inr (memP hKp (by decide))
    | exact id
    | apply Keeps.upd

theorem keeps_setSeg {Kp : List Part} {K0 s : State} {g : SegId} {f : Segment → Segment} (hKp : [.segs] ⊆ Kp) (hK : Keeps Kp K0 s) :
    Keeps Kp K0 (setSeg g f s) := by
  unfold setSeg
  with_reducible repeat' first
    | assumption
    | exact .inl rfl
    | exact .inr (memP hKp (by decide))
    | exact id
    | apply Keeps.upd

theorem keeps_store {Kp : List Part} {K0 s : State} {index : Nat} {sub : Nat} {v : Bytes} (hKp : [.reg] ⊆ Kp) (hK : Keeps Kp K0 s) :
    Keeps Kp K0 (store index sub v s) := by
  unfold store
  with_reducible repeat' first
    | assumption
    | exact .inl rfl
    | exact .inr (memP hKp (by decide))
    | exact id
    | exact dict_of rfl
    | apply Keeps.upd

theorem keeps_unstore {Kp : List Part} {K0 s : State} {index : Nat} {sub : Nat} (hKp : [.reg] ⊆ Kp) (hK : Keeps Kp K0 s) :
    Keeps Kp K0 (unstore index sub s) := by
  unfold unstore
  with_reducible repeat' first
    | assumption
    | exact .inl rfl
    | exact .inr (memP hKp (by decide))
    | exact id
    | exact dict_of rfl
    | apply Keeps.upd

theorem keeps_bump {Kp : List Part} {K0 s : State} {index : Nat} {sub : Nat} {i : Nat} {k : Nat} (hKp : [.reg] ⊆ Kp) (hK : Keeps Kp K0 s) :
    Keeps Kp K0 (bump index sub i k s) := by
  unfold bump
  with_reducible repeat' first
    | assumption
    | refine keeps_store (subP hKp (by decide)) ?_

theorem keeps_lbump {Kp : List Part} {K0 s : State} {n : LaneId} {off : Nat} {sub : Nat} {i : Nat} {k : Nat} (hKp : [.reg] ⊆ Kp) (hK : Keeps Kp K0 s) :
    Keeps Kp K0 (lbump n off sub i k s) := by
  unfold lbump
  with_reducible repeat' first
    | assumption
    | refine keeps_bump (subP hKp (by decide)) ?_

theorem keeps_lifeLane {Kp : List Part} {K0 s : State} {n : LaneId} {i : Fin 4} {k : Nat} (hKp : [.life] ⊆ Kp) (hK : Keeps Kp K0 s) :
    Keeps Kp K0 (lifeLane n i k s) := by
  unfold lifeLane
  with_reducible repeat' first
    | assumption
    | exact .inl rfl
    | exact .inr (memP hKp (by decide))
    | exact id
    | apply Keeps.upd

theorem keeps_lifeUnit {Kp : List Part} {K0 s : State} {i : Fin 8} {k : Nat} (hKp : [.life] ⊆ Kp) (hK : Keeps Kp K0 s) :
    Keeps Kp K0 (lifeUnit i k s) := by
  unfold lifeUnit
  with_reducible repeat' first
    | assumption
    | exact .inl rfl
    | exact .inr (memP hKp (by decide))
    | exact id
    | apply Keeps.upd

theorem keeps_send {Kp : List Part} {K0 s : State} {x : Sent} (hKp : [.sent] ⊆ Kp) (hK : Keeps Kp K0 s) :
    Keeps Kp K0 (send x s) := by
  unfold send
  with_reducible repeat' first
    | assumption
    | exact .inl rfl
    | exact .inr (memP hKp (by decide))
    | exact id
    | apply Keeps.upd

theorem keeps_sendEvent {p : List Part} {s0 s : State} {e : LogEntry} {slot : Fin 8} (hp : [.sent, .dict] ⊆ p) (h : Keeps p s0 s) :
    Keeps p s0 (sendEvent e slot s) := by
  unfold sendEvent
  split
  · exact h
  · rename_i x hx
    split
    · refine keeps_send (subP hp (by decide)) ?_
      with_reducible apply Keeps.upd h
      case hd => exact dict_set rfl (fun hd y hy => by cases hy; exact hd slot x hx)
      all_goals with_reducible first
        | exact .inl rfl
        | exact .inr (memP hp (by decide))
        | exact id
    · exact h

theorem keeps_logAppend {p : List Part} {s0 s : State} {code source flags time : Nat} {data : Bytes}
    (hp : [.sent, .dict, .log, .life, .alert] ⊆ p) (h : Keeps p s0 s) : Keeps p s0 (logAppend code source flags time data s) := by
  unfold logAppend
  refine Keeps.foldl _ _ _ (fun _ _ h => keeps_sendEvent (subP hp (by decide)) h) (Keeps.ite ?_ ?_)
  on_goal 1 => with_reducible apply Keeps.upd
  on_goal 1 =>
    with_reducible apply Keeps.upd h
    case hl => exact fun _ => by simp [logPut, Log.bounded]
    all_goals with_reducible first
      | exact .inl rfl
      | exact .inr (memP hp (by decide))
      | exact id
  on_goal 30 =>
    with_reducible apply Keeps.upd h
    case hl => exact fun _ => by simp [logPut, Log.bounded]
    all_goals with_reducible first
      | exact .inl rfl
      | exact .inr (memP hp (by decide))
      | exact id
  all_goals with_reducible first
    | exact .inl rfl
    | exact .inr (memP hp (by decide))
    | exact id

theorem keeps_raise {Kp : List Part} {K0 s : State} {code : Nat} {fs : List EvField} (hKp : [.sent, .dict, .log, .life, .alert] ⊆ Kp) (hK : Keeps Kp K0 s) :
    Keeps Kp K0 (raise code fs s) := by
  unfold raise
  with_reducible repeat' first
    | assumption
    | refine keeps_logAppend (subP hKp (by decide)) ?_

theorem keeps_postCompletion {Kp : List Part} {K0 s : State} {n : LaneId} {c : Completion} (hKp : [.lanes] ⊆ Kp) (hK : Keeps Kp K0 s) :
    Keeps Kp K0 (postCompletion n c s) := by
  unfold postCompletion
  with_reducible repeat' first
    | assumption
    | refine keeps_setLane (subP hKp (by decide)) ?_

theorem keeps_collect {Kp : List Part} {K0 s : State} {n : LaneId} (hKp : [.lanes] ⊆ Kp) (hK : Keeps Kp K0 s) :
    Keeps Kp K0 (collect n s) := by
  unfold collect
  with_reducible repeat' first
    | assumption
    | refine keeps_setLane (subP hKp (by decide)) ?_

theorem keeps_postOrder {Kp : List Part} {K0 s : State} {n : LaneId} {o : Order} (hKp : [.lanes] ⊆ Kp) (hK : Keeps Kp K0 s) :
    Keeps Kp K0 (postOrder n o s) := by
  unfold postOrder
  with_reducible repeat' first
    | assumption
    | refine keeps_setLane (subP hKp (by decide)) ?_

theorem keeps_takeOrder {Kp : List Part} {K0 s : State} {n : LaneId} {o : Order} (hKp : [.lanes] ⊆ Kp) (hK : Keeps Kp K0 s) :
    Keeps Kp K0 (takeOrder n o s) := by
  unfold takeOrder
  with_reducible repeat' first
    | assumption
    | refine keeps_postCompletion (subP hKp (by decide)) ?_
    | refine keeps_setLane (subP hKp (by decide)) ?_

theorem keeps_orderNow {Kp : List Part} {K0 s : State} {n : LaneId} {o : Order} {f : State → State} (hKp : [.lanes] ⊆ Kp) (hK : Keeps Kp K0 s) (hk : ∀ q, Keeps Kp K0 q → Keeps Kp K0 (f q)) :
    Keeps Kp K0 (orderNow n o f s) := by
  unfold orderNow
  with_reducible repeat' first
    | assumption
    | refine keeps_postOrder (subP hKp (by decide)) ?_
    | refine keeps_collect (subP hKp (by decide)) ?_
    | refine keeps_takeOrder (subP hKp (by decide)) ?_
    | refine Keeps.ite ?_ ?_
    | apply hk

theorem keeps_enter {Kp : List Part} {K0 s : State} {n : LaneId} {st : LaneState} (hKp : [.lanes] ⊆ Kp) (hK : Keeps Kp K0 s) :
    Keeps Kp K0 (enter n st s) := by
  unfold enter
  with_reducible repeat' first
    | assumption
    | refine keeps_setLane (subP hKp (by decide)) ?_
    | refine Keeps.ite ?_ ?_

theorem keeps_setClosed {Kp : List Part} {K0 s : State} {n : LaneId} {f : Bool} {t : Bool} {k : Bool} (hKp : [.lanes] ⊆ Kp) (hK : Keeps Kp K0 s) :
    Keeps Kp K0 (setClosed n f t k s) := by
  unfold setClosed
  with_reducible repeat' first
    | assumption
    | refine keeps_setLane (subP hKp (by decide)) ?_

end Sys2Proof.Machine
end

