-- ==== Sys2Proof/Laws/KeepsHealth.lean ====
section
/-! SUPPORT. What the operations of Health.lean keep. -/

namespace Sys2Proof.Machine

set_option linter.unusedTactic false
set_option linter.unreachableTactic false
set_option linter.unusedVariables false

theorem keeps_loseHealth {Kp : List Part} {K0 s : State}  (hKp : [.pair, .sup] ⊆ Kp) (hK : Keeps Kp K0 s) :
    Keeps Kp K0 (loseHealth s) := by
  unfold loseHealth
  with_reducible repeat' first
    | assumption
    | exact .inl rfl
    | exact .inr (memP hKp (by decide))
    | exact id
    | apply Keeps.upd

theorem keeps_dirUpdate {Kp : List Part} {K0 s : State} {f : Directory → Directory} (hKp : [.fw] ⊆ Kp) (hK : Keeps Kp K0 s) :
    Keeps Kp K0 (dirUpdate f s) := by
  unfold dirUpdate
  with_reducible repeat' first
    | assumption
    | refine Keeps.ite ?_ ?_
    | exact .inl rfl
    | exact .inr (memP hKp (by decide))
    | exact id
    | apply Keeps.upd

theorem keeps_setSlot {Kp : List Part} {K0 s : State} {r : Fin 2} {f : FlashSlot → FlashSlot} (hKp : [.fw] ⊆ Kp) (hK : Keeps Kp K0 s) :
    Keeps Kp K0 (setSlot r f s) := by
  unfold setSlot
  with_reducible repeat' first
    | assumption
    | refine keeps_dirUpdate (subP hKp (by decide)) ?_
    | exact .inl rfl
    | exact .inr (memP hKp (by decide))
    | exact id
    | apply Keeps.upd

theorem keeps_trialBack {Kp : List Part} {K0 s : State}  (hKp : [.fw, .island] ⊆ Kp) (hK : Keeps Kp K0 s) :
    Keeps Kp K0 (trialBack s) := by
  unfold trialBack
  with_reducible repeat' first
    | assumption
    | refine keeps_dirUpdate (subP hKp (by decide)) ?_
    | refine Keeps.ite ?_ ?_
    | exact .inl rfl
    | exact .inr (memP hKp (by decide))
    | exact id
    | split
    | apply Keeps.upd

theorem keeps_failStop {Kp : List Part} {K0 s : State} {cause : Nat} (hKp : [.life, .pair, .fw, .island, .sup] ⊆ Kp) (hK : Keeps Kp K0 s) :
    Keeps Kp K0 (failStop cause s) := by
  unfold failStop
  with_reducible repeat' first
    | assumption
    | refine keeps_trialBack (subP hKp (by decide)) ?_
    | refine keeps_loseHealth (subP hKp (by decide)) ?_
    | refine keeps_lifeUnit (subP hKp (by decide)) ?_
    | refine Keeps.ite ?_ ?_
    | exact .inl rfl
    | exact .inr (memP hKp (by decide))
    | exact id
    | apply Keeps.upd

end Sys2Proof.Machine
end

