-- ==== Sys2Proof/Laws/Memory.lean ====
section
/-! SUPPORT. Sparse maps and buffer memory: every memory operation keeps the canonical form, and a byte reads as it was
written. -/

namespace Sys2Proof.Machine

/-! ### Maps -/

/-- Every key of a map lies above a bound. -/
def above {α : Type} (x : Nat) (m : List (Nat × α)) : Bool := m.all (fun c => decide (x < c.1))

theorem mapSorted_cons {α : Type} (k : Nat) (v : α) (m : List (Nat × α)) :
    mapSorted ((k, v) :: m) = (above k m && mapSorted m) := by
  induction m generalizing k v with
  | nil => rfl
  | cons c m ih =>
    obtain ⟨k', v'⟩ := c
    rw [mapSorted, ih k' v']
    by_cases h : k < k'
    · have : above k' m = true → above k m = true := fun h' => by
        simp only [above, List.all_eq_true, decide_eq_true_eq] at *
        exact fun c hc => lt_trans h (h' c hc)
      have e : above k ((k', v') :: m) = above k m := by simp [above, h]
      rw [e, decide_eq_true h, Bool.true_and, Bool.eq_iff_iff, Bool.and_eq_true, Bool.and_eq_true, Bool.and_eq_true]
      exact ⟨fun q => ⟨this q.1, q⟩, fun q => q.2⟩
    · simp [above, h]

theorem above_mapSet {α : Type} {b x : Nat} {w : α} {m : List (Nat × α)} (h : above b m = true) (hx : b < x) :
    above b (mapSet m x w) = true := by
  induction m with
  | nil => simp [mapSet, above, hx]
  | cons c m ih =>
    obtain ⟨k, v⟩ := c
    simp only [above, List.all_cons, Bool.and_eq_true, decide_eq_true_eq] at h ih ⊢
    unfold mapSet
    split
    · simp only [List.all_cons, Bool.and_eq_true, decide_eq_true_eq]; exact ⟨hx, h⟩
    · split
      · simp only [List.all_cons, Bool.and_eq_true, decide_eq_true_eq]; exact ⟨hx, h.2⟩
      · simp only [List.all_cons, Bool.and_eq_true, decide_eq_true_eq]; exact ⟨h.1, ih h.2⟩

theorem above_mono {α : Type} {a b : Nat} {m : List (Nat × α)} (h : above b m = true) (k : a ≤ b) : above a m = true := by
  simp only [above, List.all_eq_true, decide_eq_true_eq] at *
  exact fun c hc => lt_of_le_of_lt k (h c hc)

theorem mapSorted_mapSet {α : Type} {x : Nat} {w : α} {m : List (Nat × α)} (h : mapSorted m = true) :
    mapSorted (mapSet m x w) = true := by
  induction m with
  | nil => rfl
  | cons c m ih =>
    obtain ⟨k, v⟩ := c
    have h' := h
    rw [mapSorted_cons, Bool.and_eq_true] at h
    unfold mapSet
    split
    · rename_i hk
      rw [mapSorted_cons, Bool.and_eq_true]
      refine ⟨?_, h'⟩
      simp only [above, List.all_cons, Bool.and_eq_true, decide_eq_true_eq]
      exact ⟨hk, above_mono h.1 (le_of_lt hk)⟩
    · split
      · rename_i hk
        subst hk
        rw [mapSorted_cons, Bool.and_eq_true]; exact h
      · rename_i h1 h2
        rw [mapSorted_cons, Bool.and_eq_true]
        exact ⟨above_mapSet h.1 (by omega), ih h.2⟩

theorem all_mapErase {α : Type} {x : Nat} {P : Nat × α → Bool} {m : List (Nat × α)} (h : m.all P = true) :
    (mapErase m x).all P = true := by
  induction m with
  | nil => rfl
  | cons c m ih =>
    obtain ⟨k, v⟩ := c
    simp only [List.all_cons, Bool.and_eq_true] at h
    unfold mapErase
    split
    · exact h.2
    · simp only [List.all_cons, Bool.and_eq_true]; exact ⟨h.1, ih h.2⟩

theorem mapSorted_mapErase {α : Type} {x : Nat} {m : List (Nat × α)} (h : mapSorted m = true) :
    mapSorted (mapErase m x) = true := by
  induction m with
  | nil => rfl
  | cons c m ih =>
    obtain ⟨k, v⟩ := c
    rw [mapSorted_cons, Bool.and_eq_true] at h
    unfold mapErase
    split
    · exact h.2
    · rw [mapSorted_cons, Bool.and_eq_true]; exact ⟨all_mapErase h.1, ih h.2⟩

theorem all_mapSet {α : Type} {x : Nat} {w : α} {P : Nat × α → Bool} {m : List (Nat × α)} (h : m.all P = true) (hx : P (x, w) = true) :
    (mapSet m x w).all P = true := by
  induction m with
  | nil => simp [mapSet, hx]
  | cons c m ih =>
    obtain ⟨k, v⟩ := c
    have h' := h
    simp only [List.all_cons, Bool.and_eq_true] at h
    unfold mapSet
    split
    · simp only [List.all_cons, Bool.and_eq_true]; exact ⟨hx, h⟩
    · split
      · simp only [List.all_cons, Bool.and_eq_true]; exact ⟨hx, h.2⟩
      · simp only [List.all_cons, Bool.and_eq_true]; exact ⟨h.1, ih h.2⟩

theorem mapSorted_filter {α : Type} {P : Nat × α → Bool} {m : List (Nat × α)} (h : mapSorted m = true) :
    mapSorted (m.filter P) = true := by
  induction m with
  | nil => rfl
  | cons c m ih =>
    obtain ⟨k, v⟩ := c
    rw [mapSorted_cons, Bool.and_eq_true] at h
    rw [List.filter_cons]
    split
    · rw [mapSorted_cons, Bool.and_eq_true]
      refine ⟨?_, ih h.2⟩
      have := h.1
      simp only [above, List.all_eq_true, decide_eq_true_eq, List.mem_filter] at *
      exact fun c hc => this c hc.1
    · exact ih h.2

theorem mapGet_above {α : Type} {x : Nat} {m : List (Nat × α)} (h : above x m = true) : mapGet m x = none := by
  induction m with
  | nil => rfl
  | cons c m ih =>
    obtain ⟨k, v⟩ := c
    simp only [above, List.all_cons, Bool.and_eq_true, decide_eq_true_eq] at h ih
    unfold mapGet
    rw [if_neg (by omega), ih h.2]

theorem mapGet_mapSet {α : Type} (m : List (Nat × α)) (x y : Nat) (w : α) :
    mapGet (mapSet m x w) y = if x = y then some w else mapGet m y := by
  induction m with
  | nil => simp [mapSet, mapGet]
  | cons c m ih =>
    obtain ⟨k, v⟩ := c
    unfold mapSet
    split
    · simp [mapGet]
    · split
      · rename_i h1 h2; subst h2; simp only [mapGet]; split <;> rfl
      · rename_i h1 h2
        simp only [mapGet, ih]
        by_cases q : k = y
        · subst q; simp [h2]
        · simp [q]

theorem mapGet_mapErase {α : Type} {m : List (Nat × α)} (x y : Nat) (h : mapSorted m = true) :
    mapGet (mapErase m x) y = if x = y then none else mapGet m y := by
  induction m with
  | nil => simp [mapErase, mapGet]
  | cons c m ih =>
    obtain ⟨k, v⟩ := c
    rw [mapSorted_cons, Bool.and_eq_true] at h
    unfold mapErase
    split
    · rename_i hk
      subst hk
      by_cases q : k = y
      · subst q; simp [mapGet_above h.1]
      · simp [mapGet, q]
    · rename_i hk
      simp only [mapGet, ih h.2]
      by_cases q : k = y
      · subst q; simp [Ne.symm hk]
      · simp [q]

/-! ### Buffer memory -/

@[simp] theorem unlisted_memSet (a : Nat) (v : Byte) (m : Memory) : unlisted (memSet a v m) = unlisted m := rfl

theorem memSet_wf {a : Nat} {v : Byte} {m : Memory} (h : m.wf = true) : (memSet a v m).wf = true := by
  unfold Memory.wf at *
  rw [Bool.and_eq_true] at *
  rw [unlisted_memSet]
  unfold memSet
  by_cases q : v = unlisted m a
  · simp only [q, if_true]
    exact ⟨mapSorted_mapErase h.1, all_mapErase h.2⟩
  · simp only [q, if_false]
    exact ⟨mapSorted_mapSet h.1, all_mapSet h.2 (by simp [q])⟩

/-- One byte set: it reads as written, and every other byte as before. -/
theorem memByte_memSet {a b : Nat} {v : Byte} {m : Memory} (h : m.wf = true) :
    memByte (memSet a v m) b = if a = b then v else memByte m b := by
  unfold Memory.wf at h
  rw [Bool.and_eq_true] at h
  unfold memByte
  rw [unlisted_memSet]
  unfold memSet
  by_cases q : v = unlisted m a
  · simp only [q, if_true, mapGet_mapErase a b h.1]
    by_cases e : a = b
    · subst e; simp
    · simp [e]
  · simp only [q, if_false, mapGet_mapSet]
    by_cases e : a = b <;> simp [e]

theorem memSets_wf {b : Bytes} {a : Nat} {m : Memory} (h : m.wf = true) : (memSets a b m).wf = true := by
  induction b generalizing a m with
  | nil => exact h
  | cons x b ih => exact ih (memSet_wf h)

/-- Bytes set from an address on leave every byte outside alone. -/
theorem memByte_memSets_other {b : Bytes} {a c : Nat} {m : Memory} (h : m.wf = true) (hc : c < a ∨ a + b.length ≤ c) :
    memByte (memSets a b m) c = memByte m c := by
  induction b generalizing a m with
  | nil => rfl
  | cons x b ih =>
    simp only [List.length_cons] at hc
    rw [memSets, ih (memSet_wf h) (by omega), memByte_memSet h, if_neg (by omega)]

/-- Bytes set from an address on read as written. -/
theorem memByte_memSets_same {b : Bytes} {a i : Nat} {m : Memory} (h : m.wf = true) (hi : i < b.length) :
    memByte (memSets a b m) (a + i) = b[i] := by
  induction b generalizing a i m with
  | nil => simp at hi
  | cons x b ih =>
    cases i with
    | zero => rw [memSets, memByte_memSets_other (memSet_wf h) (by omega), memByte_memSet h]; simp
    | succ i =>
      have := ih (a := a + 1) (i := i) (m := memSet a x m) (memSet_wf h) (by simpa using hi)
      rw [memSets, show a + (i + 1) = a + 1 + i by omega, this]; rfl

/-- A memory that lists nothing is in its form. -/
theorem wf_nil {m : Memory} (h : m.cells = []) : m.wf = true := by
  unfold Memory.wf mapSorted; rw [h]; rfl

theorem memStore_wf {line poison : Nat} {d : Bytes} {m : Memory} (h : m.wf = true) : (memStore line d poison m).wf = true := memSets_wf h

theorem memUpset_wf {l : List (Nat × Nat)} {pair : Nat} {m : Memory} (h : m.wf = true) : (memUpset pair l m).wf = true := by
  induction l generalizing m with
  | nil => exact h
  | cons c l ih => exact ih (memSet_wf h)

theorem fillHost_wf {first count : Nat} {m : Memory} (h : m.wf = true) : (fillHost first count m).wf = true := by
  unfold Memory.wf at *
  rw [Bool.and_eq_true] at *
  refine ⟨mapSorted_filter h.1, ?_⟩
  have h2 := h.2
  rw [List.all_eq_true] at h2 ⊢
  intro c hc
  obtain ⟨hc, hn⟩ := List.mem_filter.mp hc
  have hn : ¬(first ≤ c.1 / 80 ∧ c.1 / 80 < first + count) := by
    simp only [Bool.not_eq_true', decide_eq_false_iff_not] at hn; exact hn
  have e : hostFilledAt (fillHost first count m) (c.1 / 80) = hostFilledAt m (c.1 / 80) := by
    unfold fillHost hostFilledAt
    dsimp only
    split
    · rfl
    · rw [List.any_cons, decide_eq_false hn, Bool.false_or]
  have := h2 c hc
  unfold unlisted at *
  rwa [e]

end Sys2Proof.Machine
end

