-- ==== Sys2Proof/Laws/KeepsMemory.lean ====
section
/-! SUPPORT. What the operations of Memory.lean keep. -/

namespace Sys2Proof.Machine

set_option linter.unusedTactic false
set_option linter.unreachableTactic false
set_option linter.unusedVariables false

theorem keeps_raiseUncorrectable {Kp : List Part} {K0 s : State} {line : Nat} {found : Nat} (hKp : [.sent, .reg, .dict, .log, .life, .alert, .mem] ⊆ Kp) (hK : Keeps Kp K0 s) :
    Keeps Kp K0 (raiseUncorrectable line found s) := by
  unfold raiseUncorrectable
  with_reducible repeat' first
    | assumption
    | refine keeps_bump (subP hKp (by decide)) ?_
    | refine keeps_raise (subP hKp (by decide)) ?_
    | refine Keeps.ite ?_ ?_
    | exact .inl rfl
    | exact .inr (memP hKp (by decide))
    | exact id
    | exact wf_of rfl rfl
    | exact fun h => memStore_wf h
    | exact fun h => memUpset_wf h
    | exact fun h => fillHost_wf h
    | exact fun _ => wf_nil (by unfold fillAll; rfl)
    | apply Keeps.upd

theorem keeps_countCorrection {Kp : List Part} {K0 s : State} {line : Nat} {d : Nat} (hKp : [.sent, .reg, .dict, .log, .life, .alert, .mem] ⊆ Kp) (hK : Keeps Kp K0 s) :
    Keeps Kp K0 (countCorrection line d s) := by
  unfold countCorrection
  with_reducible repeat' first
    | assumption
    | refine keeps_lifeUnit (subP hKp (by decide)) ?_
    | refine keeps_bump (subP hKp (by decide)) ?_
    | refine keeps_raise (subP hKp (by decide)) ?_
    | refine Keeps.ite ?_ ?_
    | exact .inl rfl
    | exact .inr (memP hKp (by decide))
    | exact id
    | exact wf_of rfl rfl
    | exact fun h => memStore_wf h
    | exact fun h => memUpset_wf h
    | exact fun h => fillHost_wf h
    | exact fun _ => wf_nil (by unfold fillAll; rfl)
    | apply Keeps.upd

theorem keeps_countBadRead {Kp : List Part} {K0 s : State} {line : Nat} {bad : Bool} (hKp : [.mem] ⊆ Kp) (hK : Keeps Kp K0 s) :
    Keeps Kp K0 (countBadRead line bad s) := by
  unfold countBadRead
  with_reducible repeat' first
    | assumption
    | refine Keeps.ite ?_ ?_
    | exact .inl rfl
    | exact .inr (memP hKp (by decide))
    | exact id
    | exact wf_of rfl rfl
    | exact fun h => memStore_wf h
    | exact fun h => memUpset_wf h
    | exact fun h => fillHost_wf h
    | exact fun _ => wf_nil (by unfold fillAll; rfl)
    | apply Keeps.upd

theorem keeps_fetchLine {Kp : List Part} {K0 s : State} {found : Nat} {line : Nat} (hKp : [.sent, .reg, .dict, .log, .life, .alert, .mem] ⊆ Kp) (hK : Keeps Kp K0 s) :
    Keeps Kp K0 (fetchLine found line s).2.2 := by
  unfold fetchLine
  dsimp only
  with_reducible repeat' first
    | assumption
    | refine keeps_countBadRead (subP hKp (by decide)) ?_
    | refine keeps_countCorrection (subP hKp (by decide)) ?_
    | refine keeps_bump (subP hKp (by decide)) ?_
    | refine keeps_raiseUncorrectable (subP hKp (by decide)) ?_
    | refine keeps_lifeUnit (subP hKp (by decide)) ?_
    | exact .inl rfl
    | exact .inr (memP hKp (by decide))
    | exact id
    | exact wf_of rfl rfl
    | exact fun h => memStore_wf h
    | exact fun h => memUpset_wf h
    | exact fun h => fillHost_wf h
    | exact fun _ => wf_nil (by unfold fillAll; rfl)
    | split
    | apply Keeps.upd

theorem keeps_demandRead {Kp : List Part} {K0 s : State} {line : Nat} (hKp : [.sent, .reg, .dict, .log, .life, .alert, .mem] ⊆ Kp) (hK : Keeps Kp K0 s) :
    Keeps Kp K0 (demandRead line s).2 := by
  unfold demandRead
  with_reducible repeat' first
    | assumption
    | refine keeps_fetchLine (subP hKp (by decide)) ?_
    | refine Keeps.snd2 (by assumption) ?_
    | split

theorem keeps_demandWrite {Kp : List Part} {K0 s : State} {line : Nat} {data : Bytes} {poison : Nat} (hKp : [.sent, .reg, .dict, .log, .life, .alert, .mem] ⊆ Kp) (hK : Keeps Kp K0 s) :
    Keeps Kp K0 (demandWrite line data poison s) := by
  unfold demandWrite
  dsimp only
  with_reducible repeat' first
    | assumption
    | refine keeps_fetchLine (subP hKp (by decide)) ?_
    | exact .inl rfl
    | exact .inr (memP hKp (by decide))
    | exact id
    | exact wf_of rfl rfl
    | exact fun h => memStore_wf h
    | exact fun h => memUpset_wf h
    | exact fun h => fillHost_wf h
    | exact fun _ => wf_nil (by unfold fillAll; rfl)
    | refine Keeps.snd2 (by assumption) ?_
    | apply Keeps.upd

end Sys2Proof.Machine
end

