-- ==== Sys2Proof/Laws/KeepsCache.lean ====
section
/-! SUPPORT. What the operations of Cache.lean keep. -/

namespace Sys2Proof.Machine

set_option linter.unusedTactic false
set_option linter.unreachableTactic false
set_option linter.unusedVariables false

theorem keeps_setCache {Kp : List Part} {K0 s : State} {f : Cache → Cache} (hKp : [.cache] ⊆ Kp) (hK : Keeps Kp K0 s) :
    Keeps Kp K0 (setCache f s) := by
  unfold setCache
  with_reducible repeat' first
    | assumption
    | exact .inl rfl
    | exact .inr (memP hKp (by decide))
    | exact id
    | apply Keeps.upd

theorem keeps_drainOne {Kp : List Part} {K0 s : State}  (hKp : [.sent, .reg, .dict, .log, .life, .alert, .mem, .cache] ⊆ Kp) (hK : Keeps Kp K0 s) :
    Keeps Kp K0 (drainOne s) := by
  unfold drainOne
  with_reducible repeat' first
    | assumption
    | refine keeps_bump (subP hKp (by decide)) ?_
    | refine keeps_demandWrite (subP hKp (by decide)) ?_
    | refine keeps_setCache (subP hKp (by decide)) ?_
    | split

theorem keeps_drainAll {Kp : List Part} {K0 s : State}  (hKp : [.sent, .reg, .dict, .log, .life, .alert, .mem, .cache] ⊆ Kp) (hK : Keeps Kp K0 s) :
    Keeps Kp K0 (drainAll s) := by
  unfold drainAll
  with_reducible repeat' first
    | assumption
    | refine keeps_drainOne (subP hKp (by decide)) ?_
    | refine Keeps.fold2 _ _ _ (fun _ _ _ => ?_) ?_
    | refine Keeps.foldl _ _ _ (fun _ _ _ => ?_) ?_

theorem keeps_evict {Kp : List Part} {K0 s : State} {set : Nat} {way : Nat} (hKp : [.cache] ⊆ Kp) (hK : Keeps Kp K0 s) :
    Keeps Kp K0 (evict set way s) := by
  unfold evict
  with_reducible repeat' first
    | assumption
    | refine keeps_setCache (subP hKp (by decide)) ?_
    | refine Keeps.ite ?_ ?_

theorem keeps_install {Kp : List Part} {K0 s : State} {line : Nat} {way : Nat} {data : Bytes} {poison : Nat} {age : Nat} {dirty : Bool} (hKp : [.reg, .cache] ⊆ Kp) (hK : Keeps Kp K0 s) :
    Keeps Kp K0 (install line way data poison age dirty s) := by
  unfold install
  with_reducible repeat' first
    | assumption
    | refine keeps_bump (subP hKp (by decide)) ?_
    | refine keeps_setCache (subP hKp (by decide)) ?_
    | refine Keeps.ite ?_ ?_

theorem keeps_completeFill {Kp : List Part} {K0 s : State} {b : Fin 16} (hKp : [.sent, .reg, .dict, .log, .life, .alert, .mem, .cache] ⊆ Kp) (hK : Keeps Kp K0 s) :
    Keeps Kp K0 (completeFill b s) := by
  unfold completeFill
  with_reducible repeat' first
    | assumption
    | refine keeps_evict (subP hKp (by decide)) ?_
    | refine keeps_drainAll (subP hKp (by decide)) ?_
    | refine keeps_install (subP hKp (by decide)) ?_
    | refine keeps_demandRead (subP hKp (by decide)) ?_
    | refine keeps_bump (subP hKp (by decide)) ?_
    | refine keeps_setCache (subP hKp (by decide)) ?_
    | refine Keeps.ite ?_ ?_
    | refine Keeps.snd (by assumption) ?_
    | split

theorem keeps_ensureLine {Kp : List Part} {K0 s : State} {line : Nat} (hKp : [.sent, .reg, .dict, .log, .life, .alert, .mem, .cache] ⊆ Kp) (hK : Keeps Kp K0 s) :
    Keeps Kp K0 (ensureLine line s).2 := by
  unfold ensureLine
  extract_lets
  with_reducible repeat' first
    | assumption
    | refine keeps_completeFill (subP hKp (by decide)) ?_
    | refine keeps_bump (subP hKp (by decide)) ?_
    | refine keeps_setCache (subP hKp (by decide)) ?_
    | refine keeps_evict (subP hKp (by decide)) ?_
    | refine keeps_drainAll (subP hKp (by decide)) ?_
    | refine keeps_demandRead (subP hKp (by decide)) ?_
    | refine keeps_install (subP hKp (by decide)) ?_
    | exact .inl rfl
    | exact .inr (memP hKp (by decide))
    | exact id
    | refine Keeps.snd (by assumption) ?_
    | split
    | apply Keeps.upd

theorem keeps_lineGet {Kp : List Part} {K0 s : State} {line : Nat} (hKp : [.sent, .reg, .dict, .log, .life, .alert, .mem, .cache] ⊆ Kp) (hK : Keeps Kp K0 s) :
    Keeps Kp K0 (lineGet line s).2 := by
  unfold lineGet
  dsimp only
  with_reducible repeat' first
    | assumption
    | refine keeps_ensureLine (subP hKp (by decide)) ?_
    | refine keeps_demandRead (subP hKp (by decide)) ?_
    | refine Keeps.ite ?_ ?_
    | refine Keeps.snd (by assumption) ?_
    | split

theorem keeps_linePut {Kp : List Part} {K0 s : State} {line : Nat} {data : Bytes} {poison : Nat} (hKp : [.sent, .reg, .dict, .log, .life, .alert, .mem, .cache] ⊆ Kp) (hK : Keeps Kp K0 s) :
    Keeps Kp K0 (linePut line data poison s) := by
  unfold linePut
  with_reducible repeat' first
    | assumption
    | refine keeps_completeFill (subP hKp (by decide)) ?_
    | refine keeps_bump (subP hKp (by decide)) ?_
    | refine keeps_setCache (subP hKp (by decide)) ?_
    | refine keeps_install (subP hKp (by decide)) ?_
    | refine keeps_evict (subP hKp (by decide)) ?_
    | refine keeps_drainAll (subP hKp (by decide)) ?_
    | refine keeps_demandWrite (subP hKp (by decide)) ?_
    | refine Keeps.ite ?_ ?_
    | exact .inl rfl
    | exact .inr (memP hKp (by decide))
    | exact id
    | split
    | apply Keeps.upd

theorem keeps_linePart {Kp : List Part} {K0 s : State} {line : Nat} {off : Nat} {b : Bytes} {mark : Nat} (hKp : [.sent, .reg, .dict, .log, .life, .alert, .mem, .cache] ⊆ Kp) (hK : Keeps Kp K0 s) :
    Keeps Kp K0 (linePart line off b mark s) := by
  unfold linePart
  with_reducible repeat' first
    | assumption
    | refine keeps_linePut (subP hKp (by decide)) ?_
    | refine keeps_lineGet (subP hKp (by decide)) ?_
    | refine Keeps.ite ?_ ?_
    | refine Keeps.snd (by assumption) ?_
    | split

theorem keeps_bufferWrite {Kp : List Part} {K0 s : State} {y0 : Nat} {y1 : Nat} {y2 : Bytes} {y3 : Nat} (hKp : [.sent, .reg, .dict, .log, .life, .alert, .mem, .cache] ⊆ Kp) (hK : Keeps Kp K0 s) :
    Keeps Kp K0 (bufferWrite y0 y1 y2 y3 s) := by
  induction y0 generalizing y1 y2 y3 s with
  | zero => exact hK
  | succ n ih =>
    unfold bufferWrite
    with_reducible repeat' first
      | assumption
      | refine ih ?_
      | refine keeps_linePart (subP hKp (by decide)) ?_
      | refine Keeps.ite ?_ ?_

theorem keeps_bufferRead {Kp : List Part} {K0 s : State} {y0 : Nat} {y1 : Nat} {y2 : Nat} (hKp : [.sent, .reg, .dict, .log, .life, .alert, .mem, .cache] ⊆ Kp) (hK : Keeps Kp K0 s) :
    Keeps Kp K0 (bufferRead y0 y1 y2 s).2 := by
  induction y0 generalizing y1 y2 s with
  | zero => exact hK
  | succ n ih =>
    unfold bufferRead
    with_reducible repeat' first
      | assumption
      | refine ih ?_
      | refine keeps_lineGet (subP hKp (by decide)) ?_
      | refine Keeps.ite ?_ ?_
      | refine Keeps.snd (by assumption) ?_
      | split

theorem keeps_firmwareRepair {Kp : List Part} {K0 s : State} {line : Nat} (hKp : [.sent, .reg, .dict, .log, .life, .alert, .mem, .cache, .pair, .fw, .island, .sup] ⊆ Kp) (hK : Keeps Kp K0 s) :
    Keeps Kp K0 (firmwareRepair line s) := by
  unfold firmwareRepair
  with_reducible repeat' first
    | assumption
    | refine keeps_lineGet (subP hKp (by decide)) ?_
    | refine keeps_bump (subP hKp (by decide)) ?_
    | refine keeps_linePut (subP hKp (by decide)) ?_
    | refine keeps_failStop (subP hKp (by decide)) ?_
    | refine keeps_raise (subP hKp (by decide)) ?_
    | refine Keeps.ite ?_ ?_
    | refine Keeps.snd (by assumption) ?_
    | split

theorem keeps_arrayErrors {Kp : List Part} {K0 s : State} {line : Nat} {way : Nat} {y0 : List (Nat × Nat)} (hKp : [.sent, .reg, .dict, .log, .life, .alert, .cache, .pair, .fw, .island, .sup] ⊆ Kp) (hK : Keeps Kp K0 s) :
    Keeps Kp K0 (arrayErrors line way y0 s) := by
  induction y0 generalizing s with
  | nil => exact hK
  | cons a l ih =>
    unfold arrayErrors
    with_reducible repeat' first
      | assumption
      | refine ih ?_
      | refine keeps_bump (subP hKp (by decide)) ?_
      | refine keeps_raise (subP hKp (by decide)) ?_
      | refine keeps_setCache (subP hKp (by decide)) ?_
      | refine keeps_failStop (subP hKp (by decide)) ?_
      | refine Keeps.ite ?_ ?_

theorem keeps_startMiss {Kp : List Part} {K0 s : State} {line : Nat} {w : Option (Nat × Bytes)} (hKp : [.reg, .cache] ⊆ Kp) (hK : Keeps Kp K0 s) :
    Keeps Kp K0 (startMiss line w s) := by
  unfold startMiss
  with_reducible repeat' first
    | assumption
    | refine keeps_bump (subP hKp (by decide)) ?_
    | refine keeps_install (subP hKp (by decide)) ?_
    | refine keeps_evict (subP hKp (by decide)) ?_
    | refine keeps_setCache (subP hKp (by decide)) ?_
    | refine Keeps.ite ?_ ?_
    | exact .inl rfl
    | exact .inr (memP hKp (by decide))
    | exact id
    | split
    | apply Keeps.upd

theorem keeps_cacheAccess {Kp : List Part} {K0 s : State} {addr : Nat} {data : Option Bytes} {flips : List (Nat × Nat)} (hKp : [.sent, .reg, .dict, .log, .life, .alert, .mem, .cache, .pair, .fw, .island, .sup] ⊆ Kp) (hK : Keeps Kp K0 s) :
    Keeps Kp K0 (cacheAccess addr data flips s) := by
  unfold cacheAccess
  dsimp only
  with_reducible repeat' first
    | assumption
    | refine keeps_arrayErrors (subP hKp (by decide)) ?_
    | refine keeps_startMiss (subP hKp (by decide)) ?_
    | refine keeps_bump (subP hKp (by decide)) ?_
    | refine keeps_setCache (subP hKp (by decide)) ?_
    | refine keeps_firmwareRepair (subP hKp (by decide)) ?_
    | refine Keeps.ite ?_ ?_
    | split

theorem keeps_execCacheAccess {Kp : List Part} {K0 s : State} {addr : Nat} {data : Option Bytes} {flips : List (Nat × Nat)} (hKp : [.sent, .reg, .dict, .log, .life, .alert, .mem, .cache, .pair, .fw, .island, .sup] ⊆ Kp) (hK : Keeps Kp K0 s) :
    KeepsO Kp K0 (execCacheAccess addr data flips s) := by
  unfold execCacheAccess
  with_reducible repeat' first
    | assumption
    | refine KeepsO.next ?_
    | exact KeepsO.fault
    | refine KeepsO.ite ?_ ?_
    | refine keeps_cacheAccess (subP hKp (by decide)) ?_
    | refine Keeps.ite ?_ ?_

theorem keeps_cleanSlot {Kp : List Part} {K0 s : State} {set : Nat} {way : Nat} (hKp : [.sent, .reg, .dict, .log, .life, .alert, .mem, .cache] ⊆ Kp) (hK : Keeps Kp K0 s) :
    Keeps Kp K0 (cleanSlot set way s) := by
  unfold cleanSlot
  with_reducible repeat' first
    | assumption
    | refine keeps_bump (subP hKp (by decide)) ?_
    | refine keeps_demandWrite (subP hKp (by decide)) ?_
    | refine keeps_setCache (subP hKp (by decide)) ?_
    | refine Keeps.ite ?_ ?_

theorem keeps_dropSlot {Kp : List Part} {K0 s : State} {set : Nat} {way : Nat} (hKp : [.cache] ⊆ Kp) (hK : Keeps Kp K0 s) :
    Keeps Kp K0 (dropSlot set way s) := by
  unfold dropSlot
  with_reducible repeat' first
    | assumption
    | refine keeps_setCache (subP hKp (by decide)) ?_

theorem keeps_maintCount {Kp : List Part} {K0 s : State} {written : Nat} {invalidated : Nat} {locked : Nat} (hKp : [.cache] ⊆ Kp) (hK : Keeps Kp K0 s) :
    Keeps Kp K0 (maintCount written invalidated locked s) := by
  unfold maintCount
  with_reducible repeat' first
    | assumption
    | refine keeps_setCache (subP hKp (by decide)) ?_

theorem keeps_maintSlot {Kp : List Part} {K0 s : State} {op : Nat} {set : Nat} {way : Nat} (hKp : [.sent, .reg, .dict, .log, .life, .alert, .mem, .cache] ⊆ Kp) (hK : Keeps Kp K0 s) :
    Keeps Kp K0 (maintSlot op set way s) := by
  unfold maintSlot
  with_reducible repeat' first
    | assumption
    | refine keeps_maintCount (subP hKp (by decide)) ?_
    | refine keeps_cleanSlot (subP hKp (by decide)) ?_
    | refine keeps_bump (subP hKp (by decide)) ?_
    | refine keeps_dropSlot (subP hKp (by decide)) ?_
    | refine Keeps.ite ?_ ?_

theorem keeps_maintLoad {Kp : List Part} {K0 s : State} {way : Nat} {line : Nat} (hKp : [.sent, .reg, .dict, .log, .life, .alert, .mem, .cache] ⊆ Kp) (hK : Keeps Kp K0 s) :
    Keeps Kp K0 (maintLoad way line s) := by
  unfold maintLoad
  with_reducible repeat' first
    | assumption
    | refine keeps_maintCount (subP hKp (by decide)) ?_
    | refine keeps_setCache (subP hKp (by decide)) ?_
    | refine keeps_cleanSlot (subP hKp (by decide)) ?_
    | refine keeps_demandRead (subP hKp (by decide)) ?_
    | refine Keeps.ite ?_ ?_
    | refine Keeps.snd (by assumption) ?_
    | split

theorem keeps_maintRun {Kp : List Part} {K0 s : State}  (hKp : [.sent, .reg, .dict, .log, .life, .alert, .mem, .cache] ⊆ Kp) (hK : Keeps Kp K0 s) :
    Keeps Kp K0 (maintRun s) := by
  unfold maintRun
  with_reducible repeat' first
    | assumption
    | refine keeps_setCache (subP hKp (by decide)) ?_
    | refine keeps_drainAll (subP hKp (by decide)) ?_
    | refine keeps_maintLoad (subP hKp (by decide)) ?_
    | refine keeps_maintSlot (subP hKp (by decide)) ?_
    | refine Keeps.fold2 _ _ _ (fun _ _ _ => ?_) ?_
    | refine Keeps.foldl _ _ _ (fun _ _ _ => ?_) ?_
    | refine Keeps.ite ?_ ?_

theorem keeps_maintEffect {Kp : List Part} {K0 s : State} {v : Bytes} (hKp : [.sent, .reg, .dict, .log, .life, .alert, .mem, .cache] ⊆ Kp) (hK : Keeps Kp K0 s) :
    KeepsE Kp K0 (maintEffect v s) := by
  unfold maintEffect
  with_reducible repeat' first
    | assumption
    | refine KeepsE.ok ?_
    | exact KeepsE.error
    | refine KeepsE.ite ?_ ?_
    | refine keeps_maintRun (subP hKp (by decide)) ?_
    | refine keeps_setCache (subP hKp (by decide)) ?_
    | refine Keeps.ite ?_ ?_

theorem keeps_execMaintenanceComplete {Kp : List Part} {K0 s : State}  (hKp : [.sent, .dict, .log, .life, .alert, .cache] ⊆ Kp) (hK : Keeps Kp K0 s) :
    KeepsO Kp K0 (execMaintenanceComplete s) := by
  unfold execMaintenanceComplete
  with_reducible repeat' first
    | assumption
    | refine KeepsO.next ?_
    | refine KeepsO.ite ?_ ?_
    | refine keeps_setCache (subP hKp (by decide)) ?_
    | refine keeps_raise (subP hKp (by decide)) ?_
    | refine Keeps.ite ?_ ?_

theorem keeps_execCacheFillComplete {Kp : List Part} {K0 s : State} {bank : Fin 16} {flips : List (Nat × Nat)} (hKp : [.sent, .reg, .dict, .log, .life, .alert, .mem, .cache, .pair, .fw, .island, .sup] ⊆ Kp) (hK : Keeps Kp K0 s) :
    KeepsO Kp K0 (execCacheFillComplete bank flips s) := by
  unfold execCacheFillComplete
  dsimp only
  with_reducible repeat' first
    | assumption
    | refine KeepsO.next ?_
    | refine KeepsO.ite ?_ ?_
    | refine keeps_completeFill (subP hKp (by decide)) ?_
    | refine keeps_firmwareRepair (subP hKp (by decide)) ?_
    | refine keeps_setCache (subP hKp (by decide)) ?_
    | refine keeps_maintLoad (subP hKp (by decide)) ?_
    | refine keeps_maintSlot (subP hKp (by decide)) ?_
    | refine Keeps.ite ?_ ?_
    | exact .inl rfl
    | exact .inr (memP hKp (by decide))
    | exact id
    | exact wf_of rfl rfl
    | exact fun h => memStore_wf h
    | exact fun h => memUpset_wf h
    | exact fun h => fillHost_wf h
    | exact fun _ => wf_nil (by unfold fillAll; rfl)
    | split
    | apply Keeps.upd

theorem keeps_execWritebackDrain {Kp : List Part} {K0 s : State}  (hKp : [.sent, .reg, .dict, .log, .life, .alert, .mem, .cache] ⊆ Kp) (hK : Keeps Kp K0 s) :
    KeepsO Kp K0 (execWritebackDrain s) := by
  unfold execWritebackDrain
  with_reducible repeat' first
    | assumption
    | refine KeepsO.next ?_
    | refine keeps_drainOne (subP hKp (by decide)) ?_

theorem keeps_wayModeEffect {Kp : List Part} {K0 s : State} {v : Bytes} (hKp : [.cache] ⊆ Kp) (hK : Keeps Kp K0 s) :
    KeepsE Kp K0 (wayModeEffect v s) := by
  unfold wayModeEffect
  with_reducible repeat' first
    | assumption
    | refine KeepsE.ok ?_
    | exact KeepsE.error
    | refine KeepsE.ite ?_ ?_
    | refine KeepsE.map ?_ (fun _ _ => ?_)
    | refine keeps_setCache (subP hKp (by decide)) ?_
    | refine Keeps.ite ?_ ?_

theorem keeps_changeWay {Kp : List Part} {K0 s : State} {old : Nat} {new : Nat} {w : Nat} (hKp : [.sent, .reg, .dict, .log, .life, .alert, .mem, .cache] ⊆ Kp) (hK : Keeps Kp K0 s) :
    Keeps Kp K0 (changeWay old new w s) := by
  unfold changeWay
  with_reducible repeat' first
    | assumption
    | refine keeps_cleanSlot (subP hKp (by decide)) ?_
    | refine keeps_setCache (subP hKp (by decide)) ?_
    | refine Keeps.fold2 _ _ _ (fun _ _ _ => ?_) ?_
    | refine Keeps.foldl _ _ _ (fun _ _ _ => ?_) ?_
    | refine Keeps.ite ?_ ?_

theorem keeps_modeChangeComplete {Kp : List Part} {K0 s : State}  (hKp : [.sent, .reg, .dict, .log, .life, .alert, .mem, .cache] ⊆ Kp) (hK : Keeps Kp K0 s) :
    Keeps Kp K0 (modeChangeComplete s) := by
  unfold modeChangeComplete
  with_reducible repeat' first
    | assumption
    | refine keeps_drainAll (subP hKp (by decide)) ?_
    | refine keeps_setCache (subP hKp (by decide)) ?_
    | refine keeps_changeWay (subP hKp (by decide)) ?_
    | refine Keeps.fold2 _ _ _ (fun _ _ _ => ?_) ?_
    | refine Keeps.foldl _ _ _ (fun _ _ _ => ?_) ?_
    | split

theorem keeps_execModeChangeComplete {Kp : List Part} {K0 s : State}  (hKp : [.sent, .reg, .dict, .log, .life, .alert, .mem, .cache] ⊆ Kp) (hK : Keeps Kp K0 s) :
    KeepsO Kp K0 (execModeChangeComplete s) := by
  unfold execModeChangeComplete
  with_reducible repeat' first
    | assumption
    | refine KeepsO.next ?_
    | refine keeps_modeChangeComplete (subP hKp (by decide)) ?_

theorem keeps_cacheCleanAll {Kp : List Part} {K0 s : State}  (hKp : [.sent, .reg, .dict, .log, .life, .alert, .mem, .cache] ⊆ Kp) (hK : Keeps Kp K0 s) :
    Keeps Kp K0 (cacheCleanAll s) := by
  unfold cacheCleanAll
  with_reducible repeat' first
    | assumption
    | refine keeps_drainAll (subP hKp (by decide)) ?_
    | refine keeps_cleanSlot (subP hKp (by decide)) ?_
    | refine Keeps.fold2 _ _ _ (fun _ _ _ => ?_) ?_
    | refine Keeps.foldl _ _ _ (fun _ _ _ => ?_) ?_
    | refine Keeps.ite ?_ ?_

end Sys2Proof.Machine
end

