-- ==== Sys2Proof/Laws/KeepsScrub.lean ====
section
/-! SUPPORT. What the operations of Scrub.lean keep. -/

namespace Sys2Proof.Machine

set_option linter.unusedTactic false
set_option linter.unreachableTactic false
set_option linter.unusedVariables false

/-- The range filled as host data is not touched by a store. -/
theorem memSets_hostFilled {b : Bytes} {a : Nat} {m : Memory} : (memSets a b m).hostFilled = m.hostFilled := by
  induction b generalizing a m with
  | nil => rfl
  | cons x b ih => exact ih

theorem fetchLine_hostFilled {found line : Nat} {s : State} :
    (fetchLine found line s).2.2.mem.hostFilled = s.mem.hostFilled := by
  have h {t u : State} (k : Keeps [.sent, .reg, .dict, .log, .life, .alert] t u) : u.mem.hostFilled = t.mem.hostFilled :=
    congrArg Memory.hostFilled (k.frame .mem (by decide))
  unfold fetchLine
  dsimp only
  split
  · rfl
  · unfold countCorrection
    dsimp only
    split
    · refine (h (keeps_raise (by decide) (.refl _ _))).trans ?_
      exact (h (keeps_lifeUnit (by decide) (keeps_bump (by decide) (.refl _ _)))).trans memSets_hostFilled
    · exact (h (keeps_lifeUnit (by decide) (keeps_bump (by decide) (.refl _ _)))).trans memSets_hostFilled
  · exact (h (keeps_bump (by decide) (.refl _ _))).trans rfl
  · unfold raiseUncorrectable
    dsimp only
    split
    · refine (h (keeps_bump (by decide) (.refl _ _))).trans ?_
      exact (h (keeps_lifeUnit (by decide) (keeps_bump (by decide) (.refl _ _)))).trans memSets_hostFilled
    · refine (h (keeps_raise (by decide) (.refl _ _))).trans ?_
      exact (h (keeps_lifeUnit (by decide) (keeps_bump (by decide) (.refl _ _)))).trans memSets_hostFilled

theorem keeps_scrubLine {Kp : List Part} {K0 s : State} {found : Nat} {line : Nat}
    (hKp : [.sent, .reg, .dict, .log, .life, .alert, .mem, .cache] ⊆ Kp) (hK : Keeps Kp K0 s) :
    Keeps Kp K0 (scrubLine found line s).2.2 := by
  have hf : Keeps Kp K0 (fetchLine found line s).2.2 := keeps_fetchLine (subP hKp (by decide)) hK
  have hh := fetchLine_hostFilled (found := found) (line := line) (s := s)
  unfold scrubLine
  generalize fetchLine found line s = q at hf hh ⊢
  obtain ⟨v, r, s1⟩ := q
  dsimp only at hf hh ⊢
  split
  · split
    · refine keeps_setCache (subP hKp (by decide)) ?_
      refine ⟨hf.queue, hf.ticks, fun x hx => ?_, fun h => wf_of (m := s.mem) rfl hh (hK.mem h), hf.log, hf.dict⟩
      have hm : x ≠ .mem := fun e => hx (e ▸ memP hKp (by decide))
      have := hf.frame x hx
      cases x <;> first | exact absurd rfl hm | exact this
    · with_reducible apply Keeps.upd hf
      all_goals with_reducible first
        | exact .inl rfl
        | exact .inr (memP hKp (by decide))
        | exact id
        | exact fun h => memStore_wf h
  · exact hf

theorem keeps_summarize {Kp : List Part} {K0 s : State} {pass : Bool} {line : Nat} {r : LineResult} {rep : Bool} (hKp : [.mem] ⊆ Kp) (hK : Keeps Kp K0 s) :
    Keeps Kp K0 (summarize pass line r rep s) := by
  unfold summarize
  with_reducible repeat' first
    | assumption
    | refine Keeps.ite ?_ ?_
    | exact .inl rfl
    | exact .inr (memP hKp (by decide))
    | exact id
    | exact wf_of rfl rfl
    | exact fun h => memStore_wf h
    | exact fun h => memUpset_wf h
    | exact fun h => fillHost_wf h
    | exact fun _ => wf_nil (by unfold fillAll; rfl)
    | apply Keeps.upd

theorem keeps_scrubPair {Kp : List Part} {K0 s : State} {pass : Bool} {pair : Nat} (hKp : [.sent, .reg, .dict, .log, .life, .alert, .mem, .cache] ⊆ Kp) (hK : Keeps Kp K0 s) :
    Keeps Kp K0 (scrubPair pass pair s) := by
  unfold scrubPair
  with_reducible repeat' first
    | assumption
    | refine keeps_scrubLine (subP hKp (by decide)) ?_
    | refine keeps_summarize (subP hKp (by decide)) ?_
    | refine Keeps.ite ?_ ?_
    | refine Keeps.snd2 (by assumption) ?_
    | split

theorem keeps_endPassWith {Kp : List Part} {K0 s : State} {status : Nat} (hKp : [.sent, .dict, .log, .life, .alert, .mem] ⊆ Kp) (hK : Keeps Kp K0 s) :
    Keeps Kp K0 (endPassWith status s) := by
  unfold endPassWith
  with_reducible repeat' first
    | assumption
    | refine keeps_raise (subP hKp (by decide)) ?_
    | exact .inl rfl
    | exact .inr (memP hKp (by decide))
    | exact id
    | exact wf_of rfl rfl
    | exact fun h => memStore_wf h
    | exact fun h => memUpset_wf h
    | exact fun h => fillHost_wf h
    | exact fun _ => wf_nil (by unfold fillAll; rfl)
    | split
    | apply Keeps.upd

theorem keeps_lapWrap {Kp : List Part} {K0 s : State}  (hKp : [.sent, .dict, .log, .life, .alert, .mem] ⊆ Kp) (hK : Keeps Kp K0 s) :
    Keeps Kp K0 (lapWrap s) := by
  unfold lapWrap
  with_reducible repeat' first
    | assumption
    | refine keeps_raise (subP hKp (by decide)) ?_
    | exact .inl rfl
    | exact .inr (memP hKp (by decide))
    | exact id
    | exact wf_of rfl rfl
    | exact fun h => memStore_wf h
    | exact fun h => memUpset_wf h
    | exact fun h => fillHost_wf h
    | exact fun _ => wf_nil (by unfold fillAll; rfl)
    | apply Keeps.upd

theorem keeps_scrubStep {Kp : List Part} {K0 s : State} {flips : List (Nat × Nat)}
    (hKp : [.sent, .reg, .dict, .log, .life, .alert, .mem, .cache] ⊆ Kp) (hK : Keeps Kp K0 s) :
    Keeps Kp K0 (scrubStep flips s) := by
  have up {m : Memory} {t : State} (h : Keeps Kp K0 t) (w : t.mem.wf = true → m.wf = true) : Keeps Kp K0 { t with mem := m } := by
    with_reducible apply Keeps.upd h
    all_goals with_reducible first
      | exact .inl rfl
      | exact .inr (memP hKp (by decide))
      | exact w
      | exact id
  unfold scrubStep
  refine Keeps.ite hK ?_
  split
  · rename_i x _
    have k : Keeps Kp K0 (scrubPair true (s.mem.passPos / 128) { s with mem := memUpset (s.mem.passPos / 128) flips s.mem }) :=
      keeps_scrubPair (subP hKp (by decide)) (up hK fun h => memUpset_wf h)
    extract_lets p s1 m s2
    change Keeps Kp K0 s1 at k
    clear_value s1
    have k2 : Keeps Kp K0 s2 := up k (wf_of rfl rfl)
    clear_value s2
    exact Keeps.ite (keeps_endPassWith (subP hKp (by decide)) k2) k2
  · refine Keeps.ite ?_ hK
    have k : Keeps Kp K0 (scrubPair false (s.mem.lapPos / 128) { s with mem := memUpset (s.mem.lapPos / 128) flips s.mem }) :=
      keeps_scrubPair (subP hKp (by decide)) (up hK fun h => memUpset_wf h)
    extract_lets p s1 m s2
    change Keeps Kp K0 s1 at k
    clear_value s1
    have k2 : Keeps Kp K0 s2 := up k (wf_of rfl rfl)
    clear_value s2
    exact Keeps.ite (keeps_lapWrap (subP hKp (by decide)) k2) k2

theorem keeps_execScrubStep {Kp : List Part} {K0 s : State} {flips : List (Nat × Nat)} (hKp : [.sent, .reg, .dict, .log, .life, .alert, .mem, .cache] ⊆ Kp) (hK : Keeps Kp K0 s) :
    KeepsO Kp K0 (execScrubStep flips s) := by
  unfold execScrubStep
  with_reducible repeat' first
    | assumption
    | refine KeepsO.next ?_
    | refine keeps_scrubStep (subP hKp (by decide)) ?_

theorem keeps_scrubModeEffect {Kp : List Part} {K0 s : State}  (hKp : [] ⊆ Kp) (hK : Keeps Kp K0 s) :
    KeepsE Kp K0 (scrubModeEffect s) := by
  unfold scrubModeEffect
  with_reducible repeat' first
    | assumption
    | refine KeepsE.ok ?_
    | exact KeepsE.error
    | refine KeepsE.ite ?_ ?_
    | refine Keeps.ite ?_ ?_

theorem keeps_startPassEffect {Kp : List Part} {K0 s : State}  (hKp : [.sent, .dict, .log, .life, .alert, .mem] ⊆ Kp) (hK : Keeps Kp K0 s) :
    KeepsE Kp K0 (startPassEffect s) := by
  unfold startPassEffect
  with_reducible repeat' first
    | assumption
    | refine KeepsE.ok ?_
    | exact KeepsE.error
    | refine KeepsE.ite ?_ ?_
    | refine keeps_endPassWith (subP hKp (by decide)) ?_
    | refine Keeps.ite ?_ ?_
    | exact .inl rfl
    | exact .inr (memP hKp (by decide))
    | exact id
    | exact wf_of rfl rfl
    | exact fun h => memStore_wf h
    | exact fun h => memUpset_wf h
    | exact fun h => fillHost_wf h
    | exact fun _ => wf_nil (by unfold fillAll; rfl)
    | apply Keeps.upd

theorem keeps_execCmbRead {Kp : List Part} {K0 s : State} {port : PortId} {offset : Nat} {len : Nat} (hKp : [.sent, .reg, .dict, .log, .life, .alert, .mem, .cache] ⊆ Kp) (hK : Keeps Kp K0 s) :
    KeepsO Kp K0 (execCmbRead port offset len s) := by
  unfold execCmbRead
  with_reducible repeat' first
    | assumption
    | refine KeepsO.next ?_
    | exact KeepsO.fault
    | refine KeepsO.ite ?_ ?_
    | refine keeps_bufferRead (subP hKp (by decide)) ?_
    | refine keeps_send (subP hKp (by decide)) ?_
    | refine keeps_raise (subP hKp (by decide)) ?_
    | refine Keeps.ite ?_ ?_
    | split

theorem keeps_execCmbWrite {Kp : List Part} {K0 s : State} {port : PortId} {offset : Nat} {data : Bytes} {ep : Bool} (hKp : [.sent, .reg, .dict, .log, .life, .alert, .mem, .cache] ⊆ Kp) (hK : Keeps Kp K0 s) :
    KeepsO Kp K0 (execCmbWrite port offset data ep s) := by
  unfold execCmbWrite
  with_reducible repeat' first
    | assumption
    | refine KeepsO.next ?_
    | exact KeepsO.fault
    | refine KeepsO.ite ?_ ?_
    | refine keeps_bufferWrite (subP hKp (by decide)) ?_
    | refine Keeps.ite ?_ ?_

theorem keeps_execBufferFillDone {Kp : List Part} {K0 s : State}  (hKp : [.host, .mem, .cache] ⊆ Kp) (hK : Keeps Kp K0 s) :
    KeepsO Kp K0 (execBufferFillDone s) := by
  unfold execBufferFillDone
  with_reducible repeat' first
    | assumption
    | refine KeepsO.next ?_
    | refine KeepsO.ite ?_ ?_
    | refine Keeps.ite ?_ ?_
    | exact .inl rfl
    | exact .inr (memP hKp (by decide))
    | exact id
    | exact wf_of rfl rfl
    | exact fun h => memStore_wf h
    | exact fun h => memUpset_wf h
    | exact fun h => fillHost_wf h
    | exact fun _ => wf_nil (by unfold fillAll; rfl)
    | apply Keeps.upd

theorem keeps_execCommandAddressParityError {Kp : List Part} {K0 s : State} {ch : PortId} {cleared : Bool} (hKp : [.mem] ⊆ Kp) (hK : Keeps Kp K0 s) :
    KeepsO Kp K0 (execCommandAddressParityError ch cleared s) := by
  unfold execCommandAddressParityError
  with_reducible repeat' first
    | assumption
    | refine KeepsO.next ?_
    | refine KeepsO.ite ?_ ?_
    | refine Keeps.ite ?_ ?_
    | exact .inl rfl
    | exact .inr (memP hKp (by decide))
    | exact id
    | exact wf_of rfl rfl
    | exact fun h => memStore_wf h
    | exact fun h => memUpset_wf h
    | exact fun h => fillHost_wf h
    | exact fun _ => wf_nil (by unfold fillAll; rfl)
    | apply Keeps.upd

theorem keeps_execMemoryChannelLost {Kp : List Part} {K0 s : State} {ch : PortId} {cause : Nat} (hKp : [.life, .pair, .fw, .island, .sup] ⊆ Kp) (hK : Keeps Kp K0 s) :
    KeepsO Kp K0 (execMemoryChannelLost ch cause s) := by
  unfold execMemoryChannelLost
  with_reducible repeat' first
    | assumption
    | refine KeepsO.next ?_
    | refine KeepsO.ite ?_ ?_
    | refine keeps_failStop (subP hKp (by decide)) ?_
    | refine Keeps.ite ?_ ?_
    | exact .inl rfl
    | exact .inr (memP hKp (by decide))
    | exact id
    | apply Keeps.upd

end Sys2Proof.Machine
end

