-- ==== Sys2Proof/Laws/KeepsHostOps.lean ====
section
/-! SUPPORT. What the operations of HostOps.lean keep. -/

namespace Sys2Proof.Machine

set_option linter.unusedTactic false
set_option linter.unreachableTactic false
set_option linter.unusedVariables false

theorem keeps_setCtrl {Kp : List Part} {K0 s : State} {p : PortId} {f : Controller → Controller} (hKp : [.host] ⊆ Kp) (hK : Keeps Kp K0 s) :
    Keeps Kp K0 (setCtrl p f s) := by
  unfold setCtrl
  with_reducible repeat' first
    | assumption
    | exact .inl rfl
    | exact .inr (memP hKp (by decide))
    | exact id
    | apply Keeps.upd

theorem keeps_setHost {Kp : List Part} {K0 s : State} {f : HostSide → HostSide} (hKp : [.host] ⊆ Kp) (hK : Keeps Kp K0 s) :
    Keeps Kp K0 (setHost f s) := by
  unfold setHost
  with_reducible repeat' first
    | assumption
    | exact .inl rfl
    | exact .inr (memP hKp (by decide))
    | exact id
    | apply Keeps.upd

theorem keeps_setNs {Kp : List Part} {K0 s : State} {t : TeamId} {f : Namespace → Namespace} (hKp : [.teams] ⊆ Kp) (hK : Keeps Kp K0 s) :
    Keeps Kp K0 (setNs t f s) := by
  unfold setNs
  with_reducible repeat' first
    | assumption
    | refine keeps_setTeam (subP hKp (by decide)) ?_

theorem keeps_setFlights {Kp : List Part} {K0 s : State} {f : List Flight → List Flight} (hKp : [.host] ⊆ Kp) (hK : Keeps Kp K0 s) :
    Keeps Kp K0 (setFlights f s) := by
  unfold setFlights
  with_reducible repeat' first
    | assumption
    | refine keeps_setHost (subP hKp (by decide)) ?_

theorem keeps_setFlight {Kp : List Part} {K0 s : State} {c : CmdId} {f : Flight → Flight} (hKp : [.host] ⊆ Kp) (hK : Keeps Kp K0 s) :
    Keeps Kp K0 (setFlight c f s) := by
  unfold setFlight
  with_reducible repeat' first
    | assumption
    | refine keeps_setFlights (subP hKp (by decide)) ?_
    | refine Keeps.ite ?_ ?_

theorem keeps_batonSend {Kp : List Part} {K0 s : State} {ty : Nat} {flags : Nat} {body : Bytes} (hKp : [.sent, .pair] ⊆ Kp) (hK : Keeps Kp K0 s) :
    Keeps Kp K0 (batonSend ty flags body s) := by
  unfold batonSend
  with_reducible repeat' first
    | assumption
    | refine keeps_send (subP hKp (by decide)) ?_
    | refine Keeps.ite ?_ ?_
    | exact .inl rfl
    | exact .inr (memP hKp (by decide))
    | exact id
    | apply Keeps.upd

theorem keeps_setCq {Kp : List Part} {K0 s : State} {p : PortId} {id : Nat} {f : CompQueue → CompQueue} (hKp : [.host] ⊆ Kp) (hK : Keeps Kp K0 s) :
    Keeps Kp K0 (setCq p id f s) := by
  unfold setCq
  with_reducible repeat' first
    | assumption
    | refine keeps_setCtrl (subP hKp (by decide)) ?_
    | refine Keeps.ite ?_ ?_

theorem keeps_cqTake {Kp : List Part} {K0 s : State} {p : PortId} {q : CompQueue} {e : CqEntry} (hKp : [.sent, .host] ⊆ Kp) (hK : Keeps Kp K0 s) :
    Keeps Kp K0 (cqTake p q e s) := by
  unfold cqTake
  extract_lets
  with_reducible repeat' first
    | assumption
    | refine keeps_send (subP hKp (by decide)) ?_
    | refine keeps_setCq (subP hKp (by decide)) ?_
    | refine Keeps.ite ?_ ?_

theorem keeps_cqPut {Kp : List Part} {K0 s : State} {p : PortId} {id : Nat} {e : CqEntry} (hKp : [.sent, .host] ⊆ Kp) (hK : Keeps Kp K0 s) :
    Keeps Kp K0 (cqPut p id e s) := by
  unfold cqPut
  with_reducible repeat' first
    | assumption
    | refine keeps_setCq (subP hKp (by decide)) ?_
    | refine keeps_cqTake (subP hKp (by decide)) ?_
    | refine Keeps.ite ?_ ?_
    | split

theorem keeps_cqDrain {Kp : List Part} {K0 s : State} {p : PortId} {id : Nat} {y0 : Nat} (hKp : [.sent, .host] ⊆ Kp) (hK : Keeps Kp K0 s) :
    Keeps Kp K0 (cqDrain p id y0 s) := by
  induction y0 generalizing s with
  | zero => exact hK
  | succ n ih =>
    unfold cqDrain
    with_reducible repeat' first
      | assumption
      | refine ih ?_
      | refine keeps_cqTake (subP hKp (by decide)) ?_
      | refine Keeps.ite ?_ ?_
      | split

theorem keeps_asyncPost {Kp : List Part} {K0 s : State} {p : PortId} {ty : Nat} {info : Nat} (hKp : [.sent, .host] ⊆ Kp) (hK : Keeps Kp K0 s) :
    Keeps Kp K0 (asyncPost p ty info s) := by
  unfold asyncPost
  with_reducible repeat' first
    | assumption
    | refine keeps_setCtrl (subP hKp (by decide)) ?_
    | refine keeps_cqPut (subP hKp (by decide)) ?_
    | split

theorem keeps_asyncEvent {Kp : List Part} {K0 s : State} {p : PortId} {ty : Nat} {info : Nat} (hKp : [.sent, .host] ⊆ Kp) (hK : Keeps Kp K0 s) :
    Keeps Kp K0 (asyncEvent p ty info s) := by
  unfold asyncEvent
  with_reducible repeat' first
    | assumption
    | refine keeps_setCtrl (subP hKp (by decide)) ?_
    | refine keeps_asyncPost (subP hKp (by decide)) ?_
    | refine Keeps.ite ?_ ?_

theorem keeps_asyncBoth {Kp : List Part} {K0 s : State} {ty : Nat} {info : Nat} (hKp : [.sent, .host] ⊆ Kp) (hK : Keeps Kp K0 s) :
    Keeps Kp K0 (asyncBoth ty info s) := by
  unfold asyncBoth
  with_reducible repeat' first
    | assumption
    | refine keeps_asyncEvent (subP hKp (by decide)) ?_
    | refine Keeps.fold2 _ _ _ (fun _ _ _ => ?_) ?_
    | refine Keeps.foldl _ _ _ (fun _ _ _ => ?_) ?_

theorem keeps_anaChange {Kp : List Part} {K0 s : State}  (hKp : [.sent, .host] ⊆ Kp) (hK : Keeps Kp K0 s) :
    Keeps Kp K0 (anaChange s) := by
  unfold anaChange
  with_reducible repeat' first
    | assumption
    | refine keeps_asyncBoth (subP hKp (by decide)) ?_
    | refine keeps_setHost (subP hKp (by decide)) ?_

theorem keeps_namespaceChanged {Kp : List Part} {K0 s : State} {nsid : Nat} (hKp : [.sent, .host] ⊆ Kp) (hK : Keeps Kp K0 s) :
    Keeps Kp K0 (namespaceChanged nsid s) := by
  unfold namespaceChanged
  with_reducible repeat' first
    | assumption
    | refine keeps_asyncBoth (subP hKp (by decide)) ?_
    | refine keeps_setCtrl (subP hKp (by decide)) ?_
    | refine Keeps.fold2 _ _ _ (fun _ _ _ => ?_) ?_
    | refine Keeps.foldl _ _ _ (fun _ _ _ => ?_) ?_
    | refine Keeps.ite ?_ ?_

theorem keeps_errorEntry {Kp : List Part} {K0 s : State} {p : PortId} {sq : Nat} {cid : Nat} {status : Nat} {lba : Nat} {nsid : Nat} (hKp : [.host] ⊆ Kp) (hK : Keeps Kp K0 s) :
    Keeps Kp K0 (errorEntry p sq cid status lba nsid s) := by
  unfold errorEntry
  with_reducible repeat' first
    | assumption
    | refine keeps_setCtrl (subP hKp (by decide)) ?_

theorem keeps_postAt {Kp : List Part} {K0 s : State} {lba : Nat} {nsid : Nat} {c : CmdId} {sct : Nat} {sc : Nat} {dnr : Option Bool} {dw0 : Nat} {dw1 : Nat} (hKp : [.sent, .host] ⊆ Kp) (hK : Keeps Kp K0 s) :
    Keeps Kp K0 (postAt lba nsid c sct sc dnr dw0 dw1 s) := by
  unfold postAt
  extract_lets
  with_reducible repeat' first
    | assumption
    | refine keeps_errorEntry (subP hKp (by decide)) ?_
    | refine keeps_cqPut (subP hKp (by decide)) ?_
    | refine Keeps.ite ?_ ?_
    | split

theorem keeps_post {Kp : List Part} {K0 s : State} {c : CmdId} {sct : Nat} {sc : Nat} {dnr : Option Bool} {dw0 : Nat} {dw1 : Nat} (hKp : [.sent, .host] ⊆ Kp) (hK : Keeps Kp K0 s) :
    Keeps Kp K0 (post c sct sc dnr dw0 dw1 s) := by
  unfold post
  with_reducible repeat' first
    | assumption
    | refine keeps_postAt (subP hKp (by decide)) ?_

theorem keeps_sendCommit {Kp : List Part} {K0 s : State} {c : CmdId} {sct : Nat} {sc : Nat} {dw0 : Nat} {dw1 : Nat} (hKp : [.sent, .pair, .work] ⊆ Kp) (hK : Keeps Kp K0 s) :
    Keeps Kp K0 (sendCommit c sct sc dw0 dw1 s) := by
  unfold sendCommit
  with_reducible repeat' first
    | assumption
    | refine keeps_batonSend (subP hKp (by decide)) ?_
    | exact .inl rfl
    | exact .inr (memP hKp (by decide))
    | exact id
    | apply Keeps.upd

theorem keeps_completeOp {Kp : List Part} {K0 s : State} {op : Nat} {c : CmdId} {st : Nat × Nat × Option Bool} {dw0 : Nat} (hKp : [.sent, .host, .pair, .work] ⊆ Kp) (hK : Keeps Kp K0 s) :
    Keeps Kp K0 (completeOp op c st dw0 s) := by
  unfold completeOp
  with_reducible repeat' first
    | assumption
    | refine keeps_sendCommit (subP hKp (by decide)) ?_
    | refine keeps_setFlights (subP hKp (by decide)) ?_
    | refine keeps_post (subP hKp (by decide)) ?_
    | refine Keeps.ite ?_ ?_

theorem keeps_completeAs {Kp : List Part} {K0 s : State} {c : CmdId} {st : Nat × Nat × Option Bool} {dw0 : Nat} (hKp : [.sent, .host, .pair, .work] ⊆ Kp) (hK : Keeps Kp K0 s) :
    Keeps Kp K0 (completeAs c st dw0 s) := by
  unfold completeAs
  with_reducible repeat' first
    | assumption
    | refine keeps_completeOp (subP hKp (by decide)) ?_

theorem keeps_complete {Kp : List Part} {K0 s : State} {c : CmdId} {sct : Nat} {sc : Nat} {dw0 : Nat} (hKp : [.sent, .host, .pair, .work] ⊆ Kp) (hK : Keeps Kp K0 s) :
    Keeps Kp K0 (complete c sct sc dw0 s) := by
  unfold complete
  with_reducible repeat' first
    | assumption
    | refine keeps_completeAs (subP hKp (by decide)) ?_

theorem keeps_succeed {Kp : List Part} {K0 s : State} {c : CmdId} (hKp : [.sent, .host, .pair, .work] ⊆ Kp) (hK : Keeps Kp K0 s) :
    Keeps Kp K0 (succeed c s) := by
  unfold succeed
  with_reducible repeat' first
    | assumption
    | refine keeps_complete (subP hKp (by decide)) ?_

theorem keeps_invalidField {Kp : List Part} {K0 s : State} {c : CmdId} (hKp : [.sent, .host, .pair, .work] ⊆ Kp) (hK : Keeps Kp K0 s) :
    Keeps Kp K0 (invalidField c s) := by
  unfold invalidField
  with_reducible repeat' first
    | assumption
    | refine keeps_complete (subP hKp (by decide)) ?_

theorem keeps_setExtent {Kp : List Part} {K0 s : State} {t : TeamId} {x : Nat} {f : Extent → Extent} (hKp : [.teams] ⊆ Kp) (hK : Keeps Kp K0 s) :
    Keeps Kp K0 (setExtent t x f s) := by
  unfold setExtent
  with_reducible repeat' first
    | assumption
    | refine keeps_setNs (subP hKp (by decide)) ?_

theorem keeps_setZone {Kp : List Part} {K0 s : State} {t : TeamId} {z : Nat} {f : Zone → Zone} (hKp : [.teams] ⊆ Kp) (hK : Keeps Kp K0 s) :
    Keeps Kp K0 (setZone t z f s) := by
  unfold setZone
  with_reducible repeat' first
    | assumption
    | refine keeps_setNs (subP hKp (by decide)) ?_

theorem keeps_closeZone {Kp : List Part} {K0 s : State} {t : TeamId} {z : Nat} (hKp : [.teams] ⊆ Kp) (hK : Keeps Kp K0 s) :
    Keeps Kp K0 (closeZone t z s) := by
  unfold closeZone
  with_reducible repeat' first
    | assumption
    | refine keeps_setZone (subP hKp (by decide)) ?_
    | refine Keeps.ite ?_ ?_

theorem keeps_openRoom {Kp : List Part} {K0 s : State} {t : TeamId} {z : Nat} (hKp : [.teams] ⊆ Kp) (hK : Keeps Kp K0 s) :
    KeepsE Kp K0 (openRoom t z s) := by
  unfold openRoom
  with_reducible repeat' first
    | assumption
    | refine KeepsE.ok ?_
    | exact KeepsE.error
    | refine KeepsE.ite ?_ ?_
    | refine keeps_closeZone (subP hKp (by decide)) ?_
    | refine Keeps.ite ?_ ?_
    | split

theorem keeps_addZeros {Kp : List Part} {K0 s : State} {t : TeamId} {first : Nat} {count : Nat} (hKp : [.teams] ⊆ Kp) (hK : Keeps Kp K0 s) :
    Keeps Kp K0 (addZeros t first count s) := by
  unfold addZeros
  with_reducible repeat' first
    | assumption
    | refine keeps_setNs (subP hKp (by decide)) ?_
    | refine Keeps.ite ?_ ?_

theorem keeps_moveWp {Kp : List Part} {K0 s : State} {t : TeamId} {z : Nat} {wp : Nat} (hKp : [.teams] ⊆ Kp) (hK : Keeps Kp K0 s) :
    Keeps Kp K0 (moveWp t z wp s) := by
  unfold moveWp
  with_reducible repeat' first
    | assumption
    | refine keeps_setZone (subP hKp (by decide)) ?_
    | refine Keeps.ite ?_ ?_

theorem keeps_sealExtent {Kp : List Part} {K0 s : State} {t : TeamId} {x : Nat} (hKp : [.teams] ⊆ Kp) (hK : Keeps Kp K0 s) :
    Keeps Kp K0 (sealExtent t x s) := by
  unfold sealExtent
  with_reducible repeat' first
    | assumption
    | refine keeps_setExtent (subP hKp (by decide)) ?_
    | refine keeps_moveWp (subP hKp (by decide)) ?_
    | refine keeps_addZeros (subP hKp (by decide)) ?_
    | refine Keeps.ite ?_ ?_
    | split

theorem keeps_sealAll {Kp : List Part} {K0 s : State} {t : TeamId} (hKp : [.teams] ⊆ Kp) (hK : Keeps Kp K0 s) :
    Keeps Kp K0 (sealAll t s) := by
  unfold sealAll
  with_reducible repeat' first
    | assumption
    | refine keeps_sealExtent (subP hKp (by decide)) ?_
    | refine Keeps.fold2 _ _ _ (fun _ _ _ => ?_) ?_
    | refine Keeps.foldl _ _ _ (fun _ _ _ => ?_) ?_

theorem keeps_fillZone {Kp : List Part} {K0 s : State} {t : TeamId} {z : Nat} {byCtrl : Bool} (hKp : [.teams] ⊆ Kp) (hK : Keeps Kp K0 s) :
    Keeps Kp K0 (fillZone t z byCtrl s) := by
  unfold fillZone
  with_reducible repeat' first
    | assumption
    | refine keeps_sealExtent (subP hKp (by decide)) ?_
    | refine keeps_setZone (subP hKp (by decide)) ?_
    | refine keeps_addZeros (subP hKp (by decide)) ?_
    | refine Keeps.fold2 _ _ _ (fun _ _ _ => ?_) ?_
    | refine Keeps.foldl _ _ _ (fun _ _ _ => ?_) ?_

theorem keeps_finishByController {Kp : List Part} {K0 s : State} {t : TeamId} {z : Nat} (hKp : [.sent, .teams, .host] ⊆ Kp) (hK : Keeps Kp K0 s) :
    Keeps Kp K0 (finishByController t z s) := by
  unfold finishByController
  with_reducible repeat' first
    | assumption
    | refine keeps_asyncBoth (subP hKp (by decide)) ?_
    | refine keeps_fillZone (subP hKp (by decide)) ?_

theorem keeps_markHeld {Kp : List Part} {K0 s : State} {t : TeamId} (hKp : [.teams] ⊆ Kp) (hK : Keeps Kp K0 s) :
    Keeps Kp K0 (markHeld t s) := by
  unfold markHeld
  with_reducible repeat' first
    | assumption
    | refine keeps_setNs (subP hKp (by decide)) ?_
    | refine Keeps.ite ?_ ?_

theorem keeps_freeExtents {Kp : List Part} {K0 s : State} {t : TeamId} (hKp : [.teams] ⊆ Kp) (hK : Keeps Kp K0 s) :
    Keeps Kp K0 (freeExtents t s) := by
  unfold freeExtents
  with_reducible repeat' first
    | assumption
    | refine keeps_setNs (subP hKp (by decide)) ?_
    | refine Keeps.ite ?_ ?_
    | split

theorem keeps_removeFlight {Kp : List Part} {K0 s : State} {c : CmdId} (hKp : [.teams, .host] ⊆ Kp) (hK : Keeps Kp K0 s) :
    Keeps Kp K0 (removeFlight c s) := by
  unfold removeFlight
  extract_lets
  with_reducible repeat' first
    | assumption
    | refine keeps_setFlights (subP hKp (by decide)) ?_
    | refine keeps_freeExtents (subP hKp (by decide)) ?_
    | split

theorem keeps_commitFlight {Kp : List Part} {K0 s : State} {f : Flight} {st : Nat × Nat × Option Bool} (hKp : [.sent, .teams, .host] ⊆ Kp) (hK : Keeps Kp K0 s) :
    Keeps Kp K0 (commitFlight f st s) := by
  unfold commitFlight
  with_reducible repeat' first
    | assumption
    | refine keeps_removeFlight (subP hKp (by decide)) ?_
    | refine keeps_postAt (subP hKp (by decide)) ?_
    | refine keeps_setCtrl (subP hKp (by decide)) ?_
    | refine Keeps.ite ?_ ?_

theorem keeps_tryComplete {Kp : List Part} {K0 s : State} {c : CmdId} (hKp : [.sent, .teams, .host, .pair, .work] ⊆ Kp) (hK : Keeps Kp K0 s) :
    Keeps Kp K0 (tryComplete c s) := by
  unfold tryComplete
  with_reducible repeat' first
    | assumption
    | refine keeps_sendCommit (subP hKp (by decide)) ?_
    | refine keeps_setFlight (subP hKp (by decide)) ?_
    | refine keeps_commitFlight (subP hKp (by decide)) ?_
    | refine Keeps.ite ?_ ?_
    | split

theorem keeps_nsLeave {Kp : List Part} {K0 s : State} {t : TeamId} {reason : Nat} (hKp : [.sent, .dict, .log, .life, .teams, .alert, .host] ⊆ Kp) (hK : Keeps Kp K0 s) :
    Keeps Kp K0 (nsLeave t reason s) := by
  unfold nsLeave
  with_reducible repeat' first
    | assumption
    | refine keeps_namespaceChanged (subP hKp (by decide)) ?_
    | refine keeps_raise (subP hKp (by decide)) ?_
    | refine keeps_setNs (subP hKp (by decide)) ?_
    | refine Keeps.ite ?_ ?_

theorem keeps_nsEnter {Kp : List Part} {K0 s : State} {t : TeamId} {volume : Bytes} {count : Nat} (hKp : [.sent, .teams, .host] ⊆ Kp) (hK : Keeps Kp K0 s) :
    Keeps Kp K0 (nsEnter t volume count s) := by
  unfold nsEnter
  with_reducible repeat' first
    | assumption
    | refine keeps_namespaceChanged (subP hKp (by decide)) ?_
    | refine keeps_setNs (subP hKp (by decide)) ?_

theorem keeps_beginWaits {Kp : List Part} {K0 s : State} {n : LaneId} (hKp : [.host] ⊆ Kp) (hK : Keeps Kp K0 s) :
    Keeps Kp K0 (beginWaits n s) := by
  unfold beginWaits
  with_reducible repeat' first
    | assumption
    | refine keeps_setFlights (subP hKp (by decide)) ?_
    | refine Keeps.ite ?_ ?_

theorem keeps_endWaits {Kp : List Part} {K0 s : State} {n : LaneId} (hKp : [.host] ⊆ Kp) (hK : Keeps Kp K0 s) :
    Keeps Kp K0 (endWaits n s) := by
  unfold endWaits
  with_reducible repeat' first
    | assumption
    | refine keeps_setFlights (subP hKp (by decide)) ?_

theorem keeps_endExtent {Kp : List Part} {K0 s : State} {t : TeamId} {x : Nat} (hKp : [.teams] ⊆ Kp) (hK : Keeps Kp K0 s) :
    Keeps Kp K0 (endExtent t x s) := by
  unfold endExtent
  with_reducible repeat' first
    | assumption
    | refine keeps_addZeros (subP hKp (by decide)) ?_
    | refine keeps_setExtent (subP hKp (by decide)) ?_
    | refine Keeps.ite ?_ ?_
    | split

theorem keeps_endWriteOn {Kp : List Part} {K0 s : State} {t : TeamId} {n : LaneId} {f : Flight} (hKp : [.sent, .dict, .log, .life, .teams, .alert, .host] ⊆ Kp) (hK : Keeps Kp K0 s) :
    Keeps Kp K0 (endWriteOn t n f s) := by
  unfold endWriteOn
  with_reducible repeat' first
    | assumption
    | refine keeps_setFlight (subP hKp (by decide)) ?_
    | refine keeps_endExtent (subP hKp (by decide)) ?_
    | refine keeps_raise (subP hKp (by decide)) ?_
    | refine keeps_finishByController (subP hKp (by decide)) ?_
    | refine Keeps.fold2 _ _ _ (fun _ _ _ => ?_) ?_
    | refine Keeps.foldl _ _ _ (fun _ _ _ => ?_) ?_
    | refine Keeps.ite ?_ ?_

theorem keeps_endReadOn {Kp : List Part} {K0 s : State} {t : TeamId} {n : LaneId} {f : Flight} (hKp : [.host] ⊆ Kp) (hK : Keeps Kp K0 s) :
    Keeps Kp K0 (endReadOn t n f s) := by
  unfold endReadOn
  with_reducible repeat' first
    | assumption
    | refine keeps_setFlight (subP hKp (by decide)) ?_
    | refine Keeps.ite ?_ ?_

theorem keeps_endOnLane {Kp : List Part} {K0 s : State} {t : TeamId} {n : LaneId} {latch : Bool} {p : Flight → Bool} (hKp : [.sent, .reg, .dict, .log, .life, .teams, .alert, .host] ⊆ Kp) (hK : Keeps Kp K0 s) :
    Keeps Kp K0 (endOnLane t n latch p s) := by
  unfold endOnLane
  with_reducible repeat' first
    | assumption
    | refine keeps_endWriteOn (subP hKp (by decide)) ?_
    | refine keeps_endReadOn (subP hKp (by decide)) ?_
    | refine keeps_raise (subP hKp (by decide)) ?_
    | refine keeps_bump (subP hKp (by decide)) ?_
    | refine Keeps.fold2 _ _ _ (fun _ _ _ => ?_) ?_
    | refine Keeps.foldl _ _ _ (fun _ _ _ => ?_) ?_
    | refine Keeps.ite ?_ ?_

theorem keeps_setCause {Kp : List Part} {K0 s : State} {i : Nat} {on : Bool} (hKp : [.sent, .dict, .log, .life, .alert, .host] ⊆ Kp) (hK : Keeps Kp K0 s) :
    Keeps Kp K0 (setCause i on s) := by
  unfold setCause
  with_reducible repeat' first
    | assumption
    | refine keeps_setHost (subP hKp (by decide)) ?_
    | refine keeps_raise (subP hKp (by decide)) ?_
    | refine Keeps.ite ?_ ?_

end Sys2Proof.Machine
end

