-- ==== Sys2Proof/Laws/KeepsLaser.lean ====
section
/-! SUPPORT. What the operations of Laser.lean keep. -/

namespace Sys2Proof.Machine

set_option linter.unusedTactic false
set_option linter.unreachableTactic false
set_option linter.unusedVariables false

theorem keeps_sendUnits {Kp : List Part} {K0 s : State} {n : LaneId} {units : List Nat} (hKp : [.sent] ⊆ Kp) (hK : Keeps Kp K0 s) :
    Keeps Kp K0 (sendUnits n units s) := by
  unfold sendUnits
  with_reducible repeat' first
    | assumption
    | refine keeps_send (subP hKp (by decide)) ?_

theorem keeps_sendTraining {Kp : List Part} {K0 s : State} {n : LaneId} (hKp : [.sent] ⊆ Kp) (hK : Keeps Kp K0 s) :
    Keeps Kp K0 (sendTraining n s) := by
  unfold sendTraining
  with_reducible repeat' first
    | assumption
    | refine keeps_sendUnits (subP hKp (by decide)) ?_

theorem keeps_setMessages {Kp : List Part} {K0 s : State} {n : LaneId} {b : List Nat} (hKp : [.ports] ⊆ Kp) (hK : Keeps Kp K0 s) :
    Keeps Kp K0 (setMessages n b s) := by
  unfold setMessages
  with_reducible repeat' first
    | assumption
    | exact .inl rfl
    | exact .inr (memP hKp (by decide))
    | exact id
    | apply Keeps.upd

theorem keeps_sendLaser {Kp : List Part} {K0 s : State} {n : LaneId} {ty : Nat} {body : Bytes} (hKp : [.sent, .ports] ⊆ Kp) (hK : Keeps Kp K0 s) :
    Keeps Kp K0 (sendLaser n ty body s) := by
  unfold sendLaser
  with_reducible repeat' first
    | assumption
    | refine keeps_setMessages (subP hKp (by decide)) ?_
    | refine keeps_sendUnits (subP hKp (by decide)) ?_
    | refine Keeps.ite ?_ ?_

theorem keeps_sendSymbols {Kp : List Part} {K0 s : State} {n : LaneId} {switch : Bool} {tracks : List (Nat × List Bool)} (hKp : [.sent, .ports] ⊆ Kp) (hK : Keeps Kp K0 s) :
    Keeps Kp K0 (sendSymbols n switch tracks s) := by
  unfold sendSymbols
  with_reducible repeat' first
    | assumption
    | refine keeps_sendUnits (subP hKp (by decide)) ?_
    | refine keeps_setMessages (subP hKp (by decide)) ?_
    | refine Keeps.ite ?_ ?_

theorem keeps_sendPowers {Kp : List Part} {K0 s : State} {n : LaneId} {ps : List Nat} (hKp : [.sent, .ports] ⊆ Kp) (hK : Keeps Kp K0 s) :
    Keeps Kp K0 (sendPowers n ps s) := by
  unfold sendPowers
  with_reducible repeat' first
    | assumption
    | refine keeps_sendLaser (subP hKp (by decide)) ?_

theorem keeps_safeLaser {Kp : List Part} {K0 s : State} {n : LaneId} (hKp : [.sent, .ports] ⊆ Kp) (hK : Keeps Kp K0 s) :
    Keeps Kp K0 (safeLaser n s) := by
  unfold safeLaser
  with_reducible repeat' first
    | assumption
    | refine keeps_sendPowers (subP hKp (by decide)) ?_
    | refine Keeps.ite ?_ ?_

theorem keeps_releasePowers {Kp : List Part} {K0 s : State} {n : LaneId} {fresh : Bool} (hKp : [.sent, .lanes, .ports] ⊆ Kp) (hK : Keeps Kp K0 s) :
    Keeps Kp K0 (releasePowers n fresh s) := by
  unfold releasePowers
  with_reducible repeat' first
    | assumption
    | refine keeps_setLane (subP hKp (by decide)) ?_
    | refine keeps_sendPowers (subP hKp (by decide)) ?_
    | refine Keeps.ite ?_ ?_

end Sys2Proof.Machine
end

