-- ==== Sys2Proof/Laws/KeepsSled.lean ====
section
/-! SUPPORT. What the operations of Sled.lean keep. -/

namespace Sys2Proof.Machine

set_option linter.unusedTactic false
set_option linter.unreachableTactic false
set_option linter.unusedVariables false

theorem keeps_foldCascade {Kp : List Part} {K0 s : State} {n : LaneId} (hKp : [.lanes] ⊆ Kp) (hK : Keeps Kp K0 s) :
    Keeps Kp K0 (foldCascade n s) := by
  unfold foldCascade
  with_reducible repeat' first
    | assumption
    | refine keeps_setLane (subP hKp (by decide)) ?_

theorem keeps_gearEngage {Kp : List Part} {K0 s : State} {n : LaneId} (hKp : [.lanes] ⊆ Kp) (hK : Keeps Kp K0 s) :
    Keeps Kp K0 (gearEngage n s) := by
  unfold gearEngage
  with_reducible repeat' first
    | assumption
    | refine keeps_setLane (subP hKp (by decide)) ?_

theorem keeps_gearDisengage {Kp : List Part} {K0 s : State} {n : LaneId} (hKp : [.lanes] ⊆ Kp) (hK : Keeps Kp K0 s) :
    Keeps Kp K0 (gearDisengage n s) := by
  unfold gearDisengage
  with_reducible repeat' first
    | assumption
    | refine keeps_foldCascade (subP hKp (by decide)) ?_
    | refine keeps_setLane (subP hKp (by decide)) ?_
    | refine Keeps.ite ?_ ?_

theorem keeps_openTracking {Kp : List Part} {K0 s : State} {n : LaneId} (hKp : [.lanes] ⊆ Kp) (hK : Keeps Kp K0 s) :
    Keeps Kp K0 (openTracking n s) := by
  unfold openTracking
  with_reducible repeat' first
    | assumption
    | refine keeps_gearDisengage (subP hKp (by decide)) ?_
    | refine keeps_setLane (subP hKp (by decide)) ?_

theorem keeps_openFocus {Kp : List Part} {K0 s : State} {n : LaneId} (hKp : [.lanes] ⊆ Kp) (hK : Keeps Kp K0 s) :
    Keeps Kp K0 (openFocus n s) := by
  unfold openFocus
  with_reducible repeat' first
    | assumption
    | refine keeps_openTracking (subP hKp (by decide)) ?_
    | refine keeps_setLane (subP hKp (by decide)) ?_

theorem keeps_strideComplete {Kp : List Part} {K0 s : State} {n : LaneId} {r : Stride} (hKp : [.reg, .lanes] ⊆ Kp) (hK : Keeps Kp K0 s) :
    Keeps Kp K0 (strideComplete n r s) := by
  unfold strideComplete
  with_reducible repeat' first
    | assumption
    | refine keeps_postCompletion (subP hKp (by decide)) ?_
    | refine keeps_setLane (subP hKp (by decide)) ?_
    | refine keeps_lbump (subP hKp (by decide)) ?_
    | refine Keeps.ite ?_ ?_

theorem keeps_strideDrop {Kp : List Part} {K0 s : State} {n : LaneId} {st : Nat} {y0 : List Stride} (hKp : [.reg, .lanes] ⊆ Kp) (hK : Keeps Kp K0 s) :
    Keeps Kp K0 (strideDrop n st y0 s) := by
  induction y0 generalizing s with
  | nil => exact hK
  | cons a l ih =>
    unfold strideDrop
    with_reducible repeat' first
      | assumption
      | refine ih ?_
      | refine keeps_strideComplete (subP hKp (by decide)) ?_

theorem keeps_strideStart {Kp : List Part} {K0 s : State} {n : LaneId} (hKp : [.lanes] ⊆ Kp) (hK : Keeps Kp K0 s) :
    Keeps Kp K0 (strideStart n s) := by
  unfold strideStart
  with_reducible repeat' first
    | assumption
    | refine keeps_foldCascade (subP hKp (by decide)) ?_
    | refine keeps_setLane (subP hKp (by decide)) ?_

theorem keeps_strideAccept {Kp : List Part} {K0 s : State} {n : LaneId} {r : Stride} (hKp : [.reg, .lanes] ⊆ Kp) (hK : Keeps Kp K0 s) :
    Keeps Kp K0 (strideAccept n r s) := by
  unfold strideAccept
  with_reducible repeat' first
    | assumption
    | refine keeps_strideComplete (subP hKp (by decide)) ?_
    | refine keeps_strideStart (subP hKp (by decide)) ?_
    | refine keeps_setLane (subP hKp (by decide)) ?_
    | refine keeps_strideDrop (subP hKp (by decide)) ?_
    | refine Keeps.ite ?_ ?_

theorem keeps_sledStop {Kp : List Part} {K0 s : State} {n : LaneId} (hKp : [.reg, .lanes] ⊆ Kp) (hK : Keeps Kp K0 s) :
    Keeps Kp K0 (sledStop n s) := by
  unfold sledStop
  extract_lets
  with_reducible repeat' first
    | assumption
    | refine keeps_setLane (subP hKp (by decide)) ?_
    | refine keeps_strideDrop (subP hKp (by decide)) ?_
    | refine Keeps.ite ?_ ?_
    | split

theorem keeps_shortBrake {Kp : List Part} {K0 s : State} {n : LaneId} (hKp : [.reg, .lanes] ⊆ Kp) (hK : Keeps Kp K0 s) :
    Keeps Kp K0 (shortBrake n s) := by
  unfold shortBrake
  with_reducible repeat' first
    | assumption
    | refine keeps_lbump (subP hKp (by decide)) ?_
    | refine keeps_setLane (subP hKp (by decide)) ?_

theorem keeps_floatBridge {Kp : List Part} {K0 s : State} {n : LaneId} {phase : Nat} (hKp : [.lanes] ⊆ Kp) (hK : Keeps Kp K0 s) :
    Keeps Kp K0 (floatBridge n phase s) := by
  unfold floatBridge
  with_reducible repeat' first
    | assumption
    | refine keeps_setLane (subP hKp (by decide)) ?_

theorem keeps_rampStart {Kp : List Part} {K0 s : State} {n : LaneId} {park : Bool} (hKp : [.reg, .lanes] ⊆ Kp) (hK : Keeps Kp K0 s) :
    Keeps Kp K0 (rampStart n park s) := by
  unfold rampStart
  with_reducible repeat' first
    | assumption
    | refine keeps_openFocus (subP hKp (by decide)) ?_
    | refine keeps_setLane (subP hKp (by decide)) ?_
    | refine keeps_strideAccept (subP hKp (by decide)) ?_
    | refine keeps_shortBrake (subP hKp (by decide)) ?_
    | refine Keeps.ite ?_ ?_

theorem keeps_rampOrder {Kp : List Part} {K0 s : State} {n : LaneId} (hKp : [.reg, .lanes] ⊆ Kp) (hK : Keeps Kp K0 s) :
    Keeps Kp K0 (rampOrder n s) := by
  unfold rampOrder
  with_reducible repeat' first
    | assumption
    | (intro _; try intros)
    | refine keeps_orderNow (subP hKp (by decide)) ?_ ?_
    | refine keeps_rampStart (subP hKp (by decide)) ?_

theorem keeps_faultSpindle {Kp : List Part} {K0 s : State} {n : LaneId} {code : Nat} (hKp : [.reg, .lanes] ⊆ Kp) (hK : Keeps Kp K0 s) :
    Keeps Kp K0 (faultSpindle n code s) := by
  unfold faultSpindle
  with_reducible repeat' first
    | assumption
    | refine keeps_shortBrake (subP hKp (by decide)) ?_
    | refine keeps_rampStart (subP hKp (by decide)) ?_
    | refine Keeps.ite ?_ ?_

theorem keeps_detectFault {Kp : List Part} {K0 s : State} {n : LaneId} {code : Nat} (hKp : [.sent, .reg, .lanes, .ports] ⊆ Kp) (hK : Keeps Kp K0 s) :
    Keeps Kp K0 (detectFault n code s) := by
  unfold detectFault
  with_reducible repeat' first
    | assumption
    | refine keeps_safeLaser (subP hKp (by decide)) ?_
    | refine keeps_setLane (subP hKp (by decide)) ?_
    | refine keeps_sledStop (subP hKp (by decide)) ?_
    | refine keeps_openFocus (subP hKp (by decide)) ?_
    | refine keeps_openTracking (subP hKp (by decide)) ?_
    | refine keeps_postCompletion (subP hKp (by decide)) ?_
    | refine keeps_faultSpindle (subP hKp (by decide)) ?_
    | refine Keeps.ite ?_ ?_

theorem keeps_profileRun {Kp : List Part} {K0 s : State} {n : LaneId} {y0 : Nat} {y1 : Nat} (hKp : [.reg, .lanes] ⊆ Kp) (hK : Keeps Kp K0 s) :
    Keeps Kp K0 (profileRun n y0 y1 s) := by
  induction y0 generalizing y1 s with
  | zero => exact hK
  | succ n ih =>
    unfold profileRun
    extract_lets
    with_reducible repeat' first
      | assumption
      | refine ih ?_
      | refine keeps_setLane (subP hKp (by decide)) ?_
      | refine keeps_strideComplete (subP hKp (by decide)) ?_
      | refine keeps_gearEngage (subP hKp (by decide)) ?_
      | refine keeps_strideStart (subP hKp (by decide)) ?_
      | refine Keeps.ite ?_ ?_
      | split

theorem keeps_softCheck {Kp : List Part} {K0 s : State} {n : LaneId} (hKp : [.sent, .reg, .dict, .log, .life, .lanes, .alert, .ports] ⊆ Kp) (hK : Keeps Kp K0 s) :
    Keeps Kp K0 (softCheck n s) := by
  unfold softCheck
  with_reducible repeat' first
    | assumption
    | refine keeps_setLane (subP hKp (by decide)) ?_
    | refine keeps_raise (subP hKp (by decide)) ?_
    | refine keeps_lbump (subP hKp (by decide)) ?_
    | refine keeps_strideComplete (subP hKp (by decide)) ?_
    | refine keeps_detectFault (subP hKp (by decide)) ?_
    | refine Keeps.ite ?_ ?_
    | split

theorem keeps_gearPeriod {Kp : List Part} {K0 s : State} {n : LaneId} {enc : Nat} (hKp : [.lanes] ⊆ Kp) (hK : Keeps Kp K0 s) :
    Keeps Kp K0 (gearPeriod n enc s) := by
  unfold gearPeriod
  with_reducible repeat' first
    | assumption
    | refine keeps_setLane (subP hKp (by decide)) ?_
    | refine Keeps.ite ?_ ?_

theorem keeps_beginHoming {Kp : List Part} {K0 s : State} {n : LaneId} (hKp : [.lanes] ⊆ Kp) (hK : Keeps Kp K0 s) :
    Keeps Kp K0 (beginHoming n s) := by
  unfold beginHoming
  with_reducible repeat' first
    | assumption
    | refine keeps_setLane (subP hKp (by decide)) ?_

theorem keeps_homingRun {Kp : List Part} {K0 s : State} {n : LaneId} (hKp : [.lanes] ⊆ Kp) (hK : Keeps Kp K0 s) :
    Keeps Kp K0 (homingRun n s) := by
  unfold homingRun
  with_reducible repeat' first
    | assumption
    | refine keeps_setLane (subP hKp (by decide)) ?_
    | split

theorem keeps_backOff {Kp : List Part} {K0 s : State} {n : LaneId} (hKp : [.reg, .life, .lanes] ⊆ Kp) (hK : Keeps Kp K0 s) :
    Keeps Kp K0 (backOff n s) := by
  unfold backOff
  with_reducible repeat' first
    | assumption
    | refine keeps_lifeLane (subP hKp (by decide)) ?_
    | refine keeps_lbump (subP hKp (by decide)) ?_
    | refine keeps_setLane (subP hKp (by decide)) ?_

theorem keeps_sledPeriod {Kp : List Part} {K0 s : State} {n : LaneId} {enc : Nat} {sa : Int} {sb : Int} (hKp : [.sent, .reg, .dict, .log, .life, .lanes, .alert, .ports] ⊆ Kp) (hK : Keeps Kp K0 s) :
    Keeps Kp K0 (sledPeriod n enc sa sb s) := by
  unfold sledPeriod
  with_reducible repeat' first
    | assumption
    | refine keeps_gearPeriod (subP hKp (by decide)) ?_
    | refine keeps_homingRun (subP hKp (by decide)) ?_
    | refine keeps_profileRun (subP hKp (by decide)) ?_
    | refine keeps_setLane (subP hKp (by decide)) ?_
    | refine keeps_softCheck (subP hKp (by decide)) ?_
    | refine keeps_lifeLane (subP hKp (by decide)) ?_
    | refine keeps_lbump (subP hKp (by decide)) ?_
    | refine Keeps.ite ?_ ?_

theorem keeps_sledSetpoint {Kp : List Part} {K0 s : State} {n : LaneId} {enc : Nat} {sa : Int} {sb : Int} (hKp : [.sent, .reg, .dict, .log, .life, .lanes, .alert, .ports] ⊆ Kp) (hK : Keeps Kp K0 s) :
    Keeps Kp K0 (sledSetpoint n enc sa sb s) := by
  unfold sledSetpoint
  with_reducible repeat' first
    | assumption
    | refine keeps_sledPeriod (subP hKp (by decide)) ?_
    | refine keeps_setLane (subP hKp (by decide)) ?_
    | refine Keeps.ite ?_ ?_

theorem keeps_execSledSetpoint {Kp : List Part} {K0 s : State} {n : LaneId} {master : Nat} {sa : Int} {sb : Int} (hKp : [.sent, .reg, .dict, .log, .life, .lanes, .alert, .ports] ⊆ Kp) (hK : Keeps Kp K0 s) :
    KeepsO Kp K0 (execSledSetpoint n master sa sb s) := by
  unfold execSledSetpoint
  with_reducible repeat' first
    | assumption
    | refine KeepsO.next ?_
    | refine keeps_sledSetpoint (subP hKp (by decide)) ?_

theorem keeps_execQuietDelayExpire {Kp : List Part} {K0 s : State} {n : LaneId} (hKp : [.lanes] ⊆ Kp) (hK : Keeps Kp K0 s) :
    KeepsO Kp K0 (execQuietDelayExpire n s) := by
  unfold execQuietDelayExpire
  with_reducible repeat' first
    | assumption
    | refine KeepsO.next ?_
    | refine KeepsO.ite ?_ ?_
    | refine keeps_setLane (subP hKp (by decide)) ?_
    | refine Keeps.ite ?_ ?_

theorem keeps_execHoldCurrentTimeout {Kp : List Part} {K0 s : State} {n : LaneId} (hKp : [.lanes] ⊆ Kp) (hK : Keeps Kp K0 s) :
    KeepsO Kp K0 (execHoldCurrentTimeout n s) := by
  unfold execHoldCurrentTimeout
  with_reducible repeat' first
    | assumption
    | refine KeepsO.next ?_
    | refine KeepsO.ite ?_ ?_
    | refine keeps_setLane (subP hKp (by decide)) ?_
    | refine Keeps.ite ?_ ?_

theorem keeps_execEncFailure {Kp : List Part} {K0 s : State} {n : LaneId} {noEdge : Bool} (hKp : [.sent, .reg, .dict, .log, .life, .lanes, .alert] ⊆ Kp) (hK : Keeps Kp K0 s) :
    KeepsO Kp K0 (execEncFailure n noEdge s) := by
  unfold execEncFailure
  with_reducible repeat' first
    | assumption
    | refine KeepsO.next ?_
    | refine KeepsO.ite ?_ ?_
    | refine keeps_raise (subP hKp (by decide)) ?_
    | refine keeps_lbump (subP hKp (by decide)) ?_
    | refine keeps_setLane (subP hKp (by decide)) ?_
    | refine Keeps.ite ?_ ?_

theorem keeps_shiftCoordinate {Kp : List Part} {K0 s : State} {n : LaneId} {by' : Int} (hKp : [.lanes] ⊆ Kp) (hK : Keeps Kp K0 s) :
    Keeps Kp K0 (shiftCoordinate n by' s) := by
  unfold shiftCoordinate
  with_reducible repeat' first
    | assumption
    | refine keeps_setLane (subP hKp (by decide)) ?_

theorem keeps_homeCoordinate {Kp : List Part} {K0 s : State} {n : LaneId} (hKp : [.lanes] ⊆ Kp) (hK : Keeps Kp K0 s) :
    Keeps Kp K0 (homeCoordinate n s) := by
  unfold homeCoordinate
  with_reducible repeat' first
    | assumption
    | refine keeps_setLane (subP hKp (by decide)) ?_

theorem keeps_loadTable {Kp : List Part} {K0 s : State} {n : LaneId} {b : Bytes} (hKp : [.lanes] ⊆ Kp) (hK : Keeps Kp K0 s) :
    Keeps Kp K0 (loadTable n b s) := by
  unfold loadTable
  with_reducible repeat' first
    | assumption
    | refine keeps_setLane (subP hKp (by decide)) ?_

theorem keeps_startTable {Kp : List Part} {K0 s : State} {n : LaneId} (hKp : [.sent, .dict, .log, .life, .lanes, .alert] ⊆ Kp) (hK : Keeps Kp K0 s) :
    Keeps Kp K0 (startTable n s) := by
  unfold startTable
  with_reducible repeat' first
    | assumption
    | refine keeps_setLane (subP hKp (by decide)) ?_
    | refine keeps_raise (subP hKp (by decide)) ?_
    | refine Keeps.ite ?_ ?_

theorem keeps_sourceWritten {Kp : List Part} {K0 s : State} {n : LaneId} (hKp : [.lanes] ⊆ Kp) (hK : Keeps Kp K0 s) :
    Keeps Kp K0 (sourceWritten n s) := by
  unfold sourceWritten
  with_reducible repeat' first
    | assumption
    | refine keeps_setLane (subP hKp (by decide)) ?_

end Sys2Proof.Machine
end

