-- ==== Sys2Proof/Laws/KeepsLoop.lean ====
section
/-! SUPPORT. What the operations of Loop.lean keep. -/

namespace Sys2Proof.Machine

set_option linter.unusedTactic false
set_option linter.unreachableTactic false
set_option linter.unusedVariables false

theorem keeps_takeTrims {Kp : List Part} {K0 s : State} {n : LaneId} {p : Nat → Bool} (hKp : [.lanes] ⊆ Kp) (hK : Keeps Kp K0 s) :
    Keeps Kp K0 (takeTrims n p s) := by
  unfold takeTrims
  with_reducible repeat' first
    | assumption
    | refine keeps_setLane (subP hKp (by decide)) ?_
    | refine Keeps.ite ?_ ?_

theorem keeps_takeRf {Kp : List Part} {K0 s : State} {n : LaneId} {c : ChanId} (hKp : [.lanes] ⊆ Kp) (hK : Keeps Kp K0 s) :
    Keeps Kp K0 (takeRf n c s) := by
  unfold takeRf
  with_reducible repeat' first
    | assumption
    | refine keeps_takeTrims (subP hKp (by decide)) ?_
    | refine keeps_setLane (subP hKp (by decide)) ?_
    | refine Keeps.ite ?_ ?_

theorem keeps_takeRfAtOnce {Kp : List Part} {K0 s : State} {n : LaneId} (hKp : [.lanes] ⊆ Kp) (hK : Keeps Kp K0 s) :
    Keeps Kp K0 (takeRfAtOnce n s) := by
  unfold takeRfAtOnce
  with_reducible repeat' first
    | assumption
    | refine keeps_takeRf (subP hKp (by decide)) ?_
    | refine Keeps.fold2 _ _ _ (fun _ _ _ => ?_) ?_
    | refine Keeps.foldl _ _ _ (fun _ _ _ => ?_) ?_
    | refine Keeps.ite ?_ ?_

theorem keeps_frameBegins {Kp : List Part} {K0 s : State} {n : LaneId} (hKp : [.lanes] ⊆ Kp) (hK : Keeps Kp K0 s) :
    Keeps Kp K0 (frameBegins n s) := by
  unfold frameBegins
  with_reducible repeat' first
    | assumption
    | refine keeps_takeRf (subP hKp (by decide)) ?_
    | refine keeps_setLane (subP hKp (by decide)) ?_
    | refine Keeps.fold2 _ _ _ (fun _ _ _ => ?_) ?_
    | refine Keeps.foldl _ _ _ (fun _ _ _ => ?_) ?_

theorem keeps_idleChannels {Kp : List Part} {K0 s : State} {n : LaneId} (hKp : [.lanes] ⊆ Kp) (hK : Keeps Kp K0 s) :
    Keeps Kp K0 (idleChannels n s) := by
  unfold idleChannels
  with_reducible repeat' first
    | assumption
    | refine keeps_setLane (subP hKp (by decide)) ?_

theorem keeps_passBegins {Kp : List Part} {K0 s : State} {n : LaneId} (hKp : [.lanes] ⊆ Kp) (hK : Keeps Kp K0 s) :
    Keeps Kp K0 (passBegins n s) := by
  unfold passBegins
  with_reducible repeat' first
    | assumption
    | refine keeps_idleChannels (subP hKp (by decide)) ?_
    | refine keeps_setLane (subP hKp (by decide)) ?_
    | refine keeps_takeTrims (subP hKp (by decide)) ?_
    | refine keeps_takeRf (subP hKp (by decide)) ?_
    | refine Keeps.fold2 _ _ _ (fun _ _ _ => ?_) ?_
    | refine Keeps.foldl _ _ _ (fun _ _ _ => ?_) ?_

theorem keeps_takeOffsets {Kp : List Part} {K0 s : State} {n : LaneId} (hKp : [.lanes] ⊆ Kp) (hK : Keeps Kp K0 s) :
    Keeps Kp K0 (takeOffsets n s) := by
  unfold takeOffsets
  with_reducible repeat' first
    | assumption
    | refine keeps_setLane (subP hKp (by decide)) ?_
    | refine keeps_takeTrims (subP hKp (by decide)) ?_
    | refine Keeps.ite ?_ ?_

theorem keeps_takePower {Kp : List Part} {K0 s : State} {n : LaneId} (hKp : [.lanes] ⊆ Kp) (hK : Keeps Kp K0 s) :
    Keeps Kp K0 (takePower n s) := by
  unfold takePower
  with_reducible repeat' first
    | assumption
    | refine keeps_setLane (subP hKp (by decide)) ?_
    | refine keeps_takeTrims (subP hKp (by decide)) ?_
    | refine Keeps.ite ?_ ?_

theorem keeps_observerBanks {Kp : List Part} {K0 s : State} {n : LaneId} (hKp : [.reg, .lanes] ⊆ Kp) (hK : Keeps Kp K0 s) :
    Keeps Kp K0 (observerBanks n s) := by
  unfold observerBanks
  with_reducible repeat' first
    | assumption
    | refine keeps_lbump (subP hKp (by decide)) ?_
    | refine keeps_setLane (subP hKp (by decide)) ?_
    | refine Keeps.ite ?_ ?_

theorem keeps_biquadBanks {Kp : List Part} {K0 s : State} {n : LaneId} (hKp : [.reg, .lanes] ⊆ Kp) (hK : Keeps Kp K0 s) :
    Keeps Kp K0 (biquadBanks n s) := by
  unfold biquadBanks
  with_reducible repeat' first
    | assumption
    | refine keeps_lbump (subP hKp (by decide)) ?_
    | refine keeps_setLane (subP hKp (by decide)) ?_
    | refine Keeps.ite ?_ ?_

theorem keeps_observerCompute {Kp : List Part} {K0 s : State} {n : LaneId} {codes : List Int} {f : List Int} {late : Bool} (hKp : [.reg, .lanes] ⊆ Kp) (hK : Keeps Kp K0 s) :
    Keeps Kp K0 (observerCompute n codes f late s) := by
  unfold observerCompute
  with_reducible repeat' first
    | assumption
    | refine keeps_setLane (subP hKp (by decide)) ?_
    | refine keeps_lbump (subP hKp (by decide)) ?_
    | refine Keeps.ite ?_ ?_
    | split

theorem keeps_observerSample {Kp : List Part} {K0 s : State} {n : LaneId} {codes : List Int} {f : List Int} {ia : Int} {ib : Int} {volts : List Int} {late : Bool} (hKp : [.reg, .life, .lanes] ⊆ Kp) (hK : Keeps Kp K0 s) :
    Keeps Kp K0 (observerSample n codes f ia ib volts late s) := by
  unfold observerSample
  with_reducible repeat' first
    | assumption
    | refine keeps_takeOffsets (subP hKp (by decide)) ?_
    | refine keeps_observerBanks (subP hKp (by decide)) ?_
    | refine keeps_setLane (subP hKp (by decide)) ?_
    | refine keeps_observerCompute (subP hKp (by decide)) ?_
    | refine keeps_lifeLane (subP hKp (by decide)) ?_
    | refine keeps_lbump (subP hKp (by decide)) ?_
    | refine Keeps.ite ?_ ?_

theorem keeps_observerUpdate {Kp : List Part} {K0 s : State} {n : LaneId} {codes : List Int} {f : List Int} {ia : Int} {ib : Int} {volts : List Int} {late : Bool} (hKp : [.reg, .life, .lanes] ⊆ Kp) (hK : Keeps Kp K0 s) :
    Keeps Kp K0 (observerUpdate n codes f ia ib volts late s) := by
  unfold observerUpdate
  with_reducible repeat' first
    | assumption
    | refine keeps_observerSample (subP hKp (by decide)) ?_
    | refine Keeps.ite ?_ ?_

theorem keeps_execObserverUpdate {Kp : List Part} {K0 s : State} {n : LaneId} {codes : List Int} {f : List Int} {ia : Int} {ib : Int} {volts : List Int} {late : Bool} (hKp : [.reg, .life, .lanes] ⊆ Kp) (hK : Keeps Kp K0 s) :
    KeepsO Kp K0 (execObserverUpdate n codes f ia ib volts late s) := by
  unfold execObserverUpdate
  with_reducible repeat' first
    | assumption
    | refine KeepsO.next ?_
    | refine keeps_observerUpdate (subP hKp (by decide)) ?_

theorem keeps_runCascade {Kp : List Part} {K0 s : State} {n : LaneId} {c : Fin 6} {v : Int} {hold : Bool} {late : Bool} (hKp : [.reg, .lanes] ⊆ Kp) (hK : Keeps Kp K0 s) :
    Keeps Kp K0 (runCascade n c v hold late s) := by
  unfold runCascade
  with_reducible repeat' first
    | assumption
    | refine keeps_setLane (subP hKp (by decide)) ?_
    | refine keeps_lbump (subP hKp (by decide)) ?_
    | refine Keeps.ite ?_ ?_

theorem keeps_speedRamp {Kp : List Part} {K0 s : State} {n : LaneId} (hKp : [.reg, .lanes] ⊆ Kp) (hK : Keeps Kp K0 s) :
    Keeps Kp K0 (speedRamp n s) := by
  unfold speedRamp
  with_reducible repeat' first
    | assumption
    | refine keeps_shortBrake (subP hKp (by decide)) ?_
    | refine keeps_setLane (subP hKp (by decide)) ?_
    | refine Keeps.ite ?_ ?_

theorem keeps_countSample {Kp : List Part} {K0 s : State} {n : LaneId} (hKp : [.reg, .lanes] ⊆ Kp) (hK : Keeps Kp K0 s) :
    Keeps Kp K0 (countSample n s) := by
  unfold countSample
  with_reducible repeat' first
    | assumption
    | refine keeps_setLane (subP hKp (by decide)) ?_
    | refine keeps_lbump (subP hKp (by decide)) ?_
    | refine Keeps.ite ?_ ?_

theorem keeps_slot48 {Kp : List Part} {K0 s : State} {n : LaneId} {pm : Int} {late : List Nat} (hKp : [.reg, .lanes] ⊆ Kp) (hK : Keeps Kp K0 s) :
    Keeps Kp K0 (slot48 n pm late s) := by
  unfold slot48
  with_reducible repeat' first
    | assumption
    | refine keeps_runCascade (subP hKp (by decide)) ?_
    | refine keeps_setLane (subP hKp (by decide)) ?_
    | refine keeps_lbump (subP hKp (by decide)) ?_
    | refine keeps_countSample (subP hKp (by decide)) ?_
    | refine Keeps.ite ?_ ?_

theorem keeps_slot24 {Kp : List Part} {K0 s : State} {n : LaneId} {late : List Nat} (hKp : [.reg, .lanes] ⊆ Kp) (hK : Keeps Kp K0 s) :
    Keeps Kp K0 (slot24 n late s) := by
  unfold slot24
  with_reducible repeat' first
    | assumption
    | refine keeps_setLane (subP hKp (by decide)) ?_
    | refine keeps_runCascade (subP hKp (by decide)) ?_
    | refine Keeps.ite ?_ ?_

theorem keeps_slotCascades {Kp : List Part} {K0 s0 : State} {n : LaneId} {pm : Int} {late : List Nat} {p : Nat} (hKp : [.reg, .lanes] ⊆ Kp) (hK : Keeps Kp K0 s0) :
    Keeps Kp K0 (slotCascades n pm late p s0) := by
  unfold slotCascades
  with_reducible repeat' first
    | assumption
    | refine keeps_takePower (subP hKp (by decide)) ?_
    | refine keeps_slot48 (subP hKp (by decide)) ?_
    | refine keeps_speedRamp (subP hKp (by decide)) ?_
    | refine keeps_biquadBanks (subP hKp (by decide)) ?_
    | refine keeps_runCascade (subP hKp (by decide)) ?_
    | refine keeps_slot24 (subP hKp (by decide)) ?_
    | refine Keeps.ite ?_ ?_

theorem keeps_biquadSlot {Kp : List Part} {K0 s : State} {n : LaneId} {pm : Int} {late : List Nat} (hKp : [.reg, .lanes] ⊆ Kp) (hK : Keeps Kp K0 s) :
    Keeps Kp K0 (biquadSlot n pm late s) := by
  unfold biquadSlot
  with_reducible repeat' first
    | assumption
    | refine keeps_slotCascades (subP hKp (by decide)) ?_
    | refine keeps_setLane (subP hKp (by decide)) ?_
    | refine Keeps.ite ?_ ?_

theorem keeps_execBiquadSlot {Kp : List Part} {K0 s : State} {n : LaneId} {powerMonitor : Int} {late : List Nat} (hKp : [.reg, .lanes] ⊆ Kp) (hK : Keeps Kp K0 s) :
    KeepsO Kp K0 (execBiquadSlot n powerMonitor late s) := by
  unfold execBiquadSlot
  with_reducible repeat' first
    | assumption
    | refine KeepsO.next ?_
    | refine keeps_biquadSlot (subP hKp (by decide)) ?_

theorem keeps_driveFrame {Kp : List Part} {K0 s : State} {n : LaneId} (hKp : [.sent, .lanes] ⊆ Kp) (hK : Keeps Kp K0 s) :
    Keeps Kp K0 (driveFrame n s) := by
  unfold driveFrame
  with_reducible repeat' first
    | assumption
    | refine keeps_setLane (subP hKp (by decide)) ?_
    | refine keeps_send (subP hKp (by decide)) ?_

theorem keeps_overrunOf {Kp : List Part} {K0 s : State} {n : LaneId} {cs : List Nat} (hKp : [.sent, .reg, .dict, .log, .life, .lanes, .alert, .ports] ⊆ Kp) (hK : Keeps Kp K0 s) :
    Keeps Kp K0 (overrunOf n cs s) := by
  unfold overrunOf
  with_reducible repeat' first
    | assumption
    | refine keeps_lbump (subP hKp (by decide)) ?_
    | refine keeps_lifeLane (subP hKp (by decide)) ?_
    | refine keeps_bump (subP hKp (by decide)) ?_
    | refine keeps_setLane (subP hKp (by decide)) ?_
    | refine keeps_raise (subP hKp (by decide)) ?_
    | refine keeps_shortBrake (subP hKp (by decide)) ?_
    | refine keeps_detectFault (subP hKp (by decide)) ?_
    | refine Keeps.fold2 _ _ _ (fun _ _ _ => ?_) ?_
    | refine Keeps.foldl _ _ _ (fun _ _ _ => ?_) ?_
    | refine Keeps.ite ?_ ?_
    | split

theorem keeps_releaseActuator {Kp : List Part} {K0 s : State} {n : LaneId} (hKp : [.sent, .reg, .dict, .log, .life, .lanes, .alert, .ports] ⊆ Kp) (hK : Keeps Kp K0 s) :
    Keeps Kp K0 (releaseActuator n s) := by
  unfold releaseActuator
  extract_lets
  with_reducible repeat' first
    | assumption
    | refine keeps_setLane (subP hKp (by decide)) ?_
    | refine keeps_openFocus (subP hKp (by decide)) ?_
    | refine keeps_driveFrame (subP hKp (by decide)) ?_
    | refine keeps_overrunOf (subP hKp (by decide)) ?_
    | refine Keeps.ite ?_ ?_

theorem keeps_carryOutput {Kp : List Part} {K0 s : State} {n : LaneId} {lp : LoopId} {fresh : Bool} (hKp : [.sent, .lanes, .ports] ⊆ Kp) (hK : Keeps Kp K0 s) :
    Keeps Kp K0 (carryOutput n lp fresh s) := by
  unfold carryOutput
  with_reducible repeat' first
    | assumption
    | refine keeps_releasePowers (subP hKp (by decide)) ?_
    | refine keeps_setLane (subP hKp (by decide)) ?_
    | split

theorem keeps_releaseBiquad {Kp : List Part} {K0 s : State} {n : LaneId} {lp : LoopId} (hKp : [.sent, .reg, .dict, .log, .life, .lanes, .alert, .ports] ⊆ Kp) (hK : Keeps Kp K0 s) :
    Keeps Kp K0 (releaseBiquad n lp s) := by
  unfold releaseBiquad
  with_reducible repeat' first
    | assumption
    | refine keeps_setLane (subP hKp (by decide)) ?_
    | refine keeps_carryOutput (subP hKp (by decide)) ?_
    | refine keeps_overrunOf (subP hKp (by decide)) ?_
    | refine Keeps.fold2 _ _ _ (fun _ _ _ => ?_) ?_
    | refine Keeps.foldl _ _ _ (fun _ _ _ => ?_) ?_
    | refine Keeps.ite ?_ ?_

theorem keeps_outputRelease {Kp : List Part} {K0 s : State} {n : LaneId} {lp : LoopId} (hKp : [.sent, .reg, .dict, .log, .life, .lanes, .alert, .ports] ⊆ Kp) (hK : Keeps Kp K0 s) :
    Keeps Kp K0 (outputRelease n lp s) := by
  unfold outputRelease
  with_reducible repeat' first
    | assumption
    | refine keeps_setLane (subP hKp (by decide)) ?_
    | refine keeps_releaseActuator (subP hKp (by decide)) ?_
    | refine keeps_releaseBiquad (subP hKp (by decide)) ?_
    | refine Keeps.ite ?_ ?_
    | split

theorem keeps_execOutputRelease {Kp : List Part} {K0 s : State} {n : LaneId} {l : LoopId} (hKp : [.sent, .reg, .dict, .log, .life, .lanes, .alert, .ports] ⊆ Kp) (hK : Keeps Kp K0 s) :
    KeepsO Kp K0 (execOutputRelease n l s) := by
  unfold execOutputRelease
  with_reducible repeat' first
    | assumption
    | refine KeepsO.next ?_
    | refine keeps_outputRelease (subP hKp (by decide)) ?_

theorem keeps_execOverrunBankCheck {Kp : List Part} {K0 s : State} {n : LaneId} (hKp : [.sent, .dict, .log, .life, .lanes, .alert] ⊆ Kp) (hK : Keeps Kp K0 s) :
    KeepsO Kp K0 (execOverrunBankCheck n s) := by
  unfold execOverrunBankCheck
  with_reducible repeat' first
    | assumption
    | refine KeepsO.next ?_
    | refine KeepsO.ite ?_ ?_
    | refine keeps_setLane (subP hKp (by decide)) ?_
    | refine keeps_raise (subP hKp (by decide)) ?_
    | refine Keeps.ite ?_ ?_

theorem keeps_requestSwitch {Kp : List Part} {K0 s : State} {obs : Bool} {mask : Nat} (hKp : [.lanes] ⊆ Kp) (hK : Keeps Kp K0 s) :
    Keeps Kp K0 (requestSwitch obs mask s) := by
  unfold requestSwitch
  with_reducible repeat' first
    | assumption
    | refine keeps_setLane (subP hKp (by decide)) ?_
    | refine Keeps.fold2 _ _ _ (fun _ _ _ => ?_) ?_
    | refine Keeps.foldl _ _ _ (fun _ _ _ => ?_) ?_
    | refine Keeps.ite ?_ ?_

theorem keeps_refreshReferences {Kp : List Part} {K0 s : State} {slot : Nat} (hKp : [.lanes] ⊆ Kp) (hK : Keeps Kp K0 s) :
    Keeps Kp K0 (refreshReferences slot s) := by
  unfold refreshReferences
  with_reducible repeat' first
    | assumption
    | refine keeps_setLane (subP hKp (by decide)) ?_
    | refine Keeps.fold2 _ _ _ (fun _ _ _ => ?_) ?_
    | refine Keeps.foldl _ _ _ (fun _ _ _ => ?_) ?_
    | refine Keeps.ite ?_ ?_

theorem keeps_loadBanks {Kp : List Part} {K0 s : State} {n : LaneId} {cls : Nat} (hKp : [.lanes] ⊆ Kp) (hK : Keeps Kp K0 s) :
    Keeps Kp K0 (loadBanks n cls s) := by
  unfold loadBanks
  with_reducible repeat' first
    | assumption
    | refine keeps_setLane (subP hKp (by decide)) ?_
    | split

theorem keeps_startLearning {Kp : List Part} {K0 s : State} {n : LaneId} (hKp : [.lanes] ⊆ Kp) (hK : Keeps Kp K0 s) :
    Keeps Kp K0 (startLearning n s) := by
  unfold startLearning
  with_reducible repeat' first
    | assumption
    | refine keeps_setLane (subP hKp (by decide)) ?_

theorem keeps_runoutRevolution {Kp : List Part} {K0 s : State} {n : LaneId} (hKp : [.lanes] ⊆ Kp) (hK : Keeps Kp K0 s) :
    Keeps Kp K0 (runoutRevolution n s) := by
  unfold runoutRevolution
  with_reducible repeat' first
    | assumption
    | refine keeps_setLane (subP hKp (by decide)) ?_
    | refine Keeps.ite ?_ ?_

theorem keeps_execRunoutRevolution {Kp : List Part} {K0 s : State} {n : LaneId} (hKp : [.lanes] ⊆ Kp) (hK : Keeps Kp K0 s) :
    KeepsO Kp K0 (execRunoutRevolution n s) := by
  unfold execRunoutRevolution
  with_reducible repeat' first
    | assumption
    | refine KeepsO.next ?_
    | refine keeps_runoutRevolution (subP hKp (by decide)) ?_

theorem keeps_spoil {Kp : List Part} {K0 s : State} {n : LaneId} (hKp : [.lanes] ⊆ Kp) (hK : Keeps Kp K0 s) :
    Keeps Kp K0 (spoil n s) := by
  unfold spoil
  with_reducible repeat' first
    | assumption
    | refine keeps_setLane (subP hKp (by decide)) ?_

end Sys2Proof.Machine
end

