-- ==== Sys2Proof/Laws/KeepsSpindle.lean ====
section
/-! SUPPORT. What the operations of Spindle.lean keep. -/

namespace Sys2Proof.Machine

set_option linter.unusedTactic false
set_option linter.unreachableTactic false
set_option linter.unusedVariables false

theorem keeps_commutationStep {Kp : List Part} {K0 s : State} {n : LaneId} (hKp : [.lanes] ⊆ Kp) (hK : Keeps Kp K0 s) :
    Keeps Kp K0 (commutationStep n s) := by
  unfold commutationStep
  with_reducible repeat' first
    | assumption
    | refine keeps_setLane (subP hKp (by decide)) ?_
    | refine Keeps.ite ?_ ?_

theorem keeps_execCommutationStep {Kp : List Part} {K0 s : State} {n : LaneId} (hKp : [.lanes] ⊆ Kp) (hK : Keeps Kp K0 s) :
    KeepsO Kp K0 (execCommutationStep n s) := by
  unfold execCommutationStep
  with_reducible repeat' first
    | assumption
    | refine KeepsO.next ?_
    | refine keeps_commutationStep (subP hKp (by decide)) ?_

theorem keeps_zeroCrossing {Kp : List Part} {K0 s : State} {n : LaneId} (hKp : [.lanes] ⊆ Kp) (hK : Keeps Kp K0 s) :
    Keeps Kp K0 (zeroCrossing n s) := by
  unfold zeroCrossing
  extract_lets
  with_reducible repeat' first
    | assumption
    | refine keeps_setLane (subP hKp (by decide)) ?_
    | refine Keeps.ite ?_ ?_
    | split

theorem keeps_execZeroCrossing {Kp : List Part} {K0 s : State} {n : LaneId} (hKp : [.lanes] ⊆ Kp) (hK : Keeps Kp K0 s) :
    KeepsO Kp K0 (execZeroCrossing n s) := by
  unfold execZeroCrossing
  with_reducible repeat' first
    | assumption
    | refine KeepsO.next ?_
    | refine keeps_zeroCrossing (subP hKp (by decide)) ?_

theorem keeps_rotorLost {Kp : List Part} {K0 s : State} {n : LaneId} (hKp : [.sent, .reg, .lanes, .ports] ⊆ Kp) (hK : Keeps Kp K0 s) :
    Keeps Kp K0 (rotorLost n s) := by
  unfold rotorLost
  with_reducible repeat' first
    | assumption
    | refine keeps_setLane (subP hKp (by decide)) ?_
    | refine keeps_floatBridge (subP hKp (by decide)) ?_
    | refine keeps_detectFault (subP hKp (by decide)) ?_
    | refine keeps_shortBrake (subP hKp (by decide)) ?_
    | refine Keeps.ite ?_ ?_

theorem keeps_execRotorLost {Kp : List Part} {K0 s : State} {n : LaneId} (hKp : [.sent, .reg, .lanes, .ports] ⊆ Kp) (hK : Keeps Kp K0 s) :
    KeepsO Kp K0 (execRotorLost n s) := by
  unfold execRotorLost
  with_reducible repeat' first
    | assumption
    | refine KeepsO.next ?_
    | refine KeepsO.ite ?_ ?_
    | refine keeps_rotorLost (subP hKp (by decide)) ?_
    | refine Keeps.ite ?_ ?_

theorem keeps_startFailed {Kp : List Part} {K0 s : State} {n : LaneId} {reason : Nat} (hKp : [.sent, .reg, .dict, .log, .life, .lanes, .alert, .ports] ⊆ Kp) (hK : Keeps Kp K0 s) :
    Keeps Kp K0 (startFailed n reason s) := by
  unfold startFailed
  with_reducible repeat' first
    | assumption
    | refine keeps_detectFault (subP hKp (by decide)) ?_
    | refine keeps_raise (subP hKp (by decide)) ?_
    | refine keeps_lbump (subP hKp (by decide)) ?_

theorem keeps_execStartFromRest {Kp : List Part} {K0 s : State} {n : LaneId} {peaks : List (List Nat)} (hKp : [.sent, .reg, .dict, .log, .life, .lanes, .alert, .ports] ⊆ Kp) (hK : Keeps Kp K0 s) :
    KeepsO Kp K0 (execStartFromRest n peaks s) := by
  unfold execStartFromRest
  with_reducible repeat' first
    | assumption
    | refine KeepsO.next ?_
    | refine KeepsO.ite ?_ ?_
    | refine keeps_setLane (subP hKp (by decide)) ?_
    | refine keeps_startFailed (subP hKp (by decide)) ?_
    | refine keeps_floatBridge (subP hKp (by decide)) ?_
    | refine Keeps.ite ?_ ?_
    | split

theorem keeps_execHandover {Kp : List Part} {K0 s : State} {n : LaneId} (hKp : [.lanes] ⊆ Kp) (hK : Keeps Kp K0 s) :
    KeepsO Kp K0 (execHandover n s) := by
  unfold execHandover
  with_reducible repeat' first
    | assumption
    | refine KeepsO.next ?_
    | refine KeepsO.ite ?_ ?_
    | refine keeps_setLane (subP hKp (by decide)) ?_
    | refine Keeps.ite ?_ ?_

theorem keeps_execOpenLoopTimeout {Kp : List Part} {K0 s : State} {n : LaneId} (hKp : [.sent, .reg, .dict, .log, .life, .lanes, .alert, .ports] ⊆ Kp) (hK : Keeps Kp K0 s) :
    KeepsO Kp K0 (execOpenLoopTimeout n s) := by
  unfold execOpenLoopTimeout
  with_reducible repeat' first
    | assumption
    | refine KeepsO.next ?_
    | refine KeepsO.ite ?_ ?_
    | refine keeps_floatBridge (subP hKp (by decide)) ?_
    | refine keeps_startFailed (subP hKp (by decide)) ?_
    | refine Keeps.ite ?_ ?_

theorem keeps_execCoastEnd {Kp : List Part} {K0 s : State} {n : LaneId} {backEmf : Nat} (hKp : [.reg, .lanes] ⊆ Kp) (hK : Keeps Kp K0 s) :
    KeepsO Kp K0 (execCoastEnd n backEmf s) := by
  unfold execCoastEnd
  with_reducible repeat' first
    | assumption
    | refine KeepsO.next ?_
    | refine KeepsO.ite ?_ ?_
    | refine keeps_shortBrake (subP hKp (by decide)) ?_
    | refine Keeps.ite ?_ ?_

theorem keeps_execVoltageLimitEnter {Kp : List Part} {K0 s : State} {n : LaneId} (hKp : [.sent, .dict, .log, .life, .lanes, .alert] ⊆ Kp) (hK : Keeps Kp K0 s) :
    KeepsO Kp K0 (execVoltageLimitEnter n s) := by
  unfold execVoltageLimitEnter
  with_reducible repeat' first
    | assumption
    | refine KeepsO.next ?_
    | refine KeepsO.ite ?_ ?_
    | refine keeps_raise (subP hKp (by decide)) ?_
    | refine keeps_setLane (subP hKp (by decide)) ?_
    | refine Keeps.ite ?_ ?_

theorem keeps_execVoltageLimitExit {Kp : List Part} {K0 s : State} {n : LaneId} (hKp : [.lanes] ⊆ Kp) (hK : Keeps Kp K0 s) :
    KeepsO Kp K0 (execVoltageLimitExit n s) := by
  unfold execVoltageLimitExit
  with_reducible repeat' first
    | assumption
    | refine KeepsO.next ?_
    | refine KeepsO.ite ?_ ?_
    | refine keeps_setLane (subP hKp (by decide)) ?_
    | refine Keeps.ite ?_ ?_

theorem keeps_busSample {Kp : List Part} {K0 s : State} {g : SegId} {mv : Nat} (hKp : [.lanes, .segs] ⊆ Kp) (hK : Keeps Kp K0 s) :
    Keeps Kp K0 (busSample g mv s) := by
  unfold busSample
  with_reducible repeat' first
    | assumption
    | refine keeps_setSeg (subP hKp (by decide)) ?_
    | refine keeps_setLane (subP hKp (by decide)) ?_
    | refine Keeps.fold2 _ _ _ (fun _ _ _ => ?_) ?_
    | refine Keeps.foldl _ _ _ (fun _ _ _ => ?_) ?_
    | refine Keeps.ite ?_ ?_

theorem keeps_execBusSample {Kp : List Part} {K0 s : State} {g : SegId} {mv : Nat} (hKp : [.lanes, .segs] ⊆ Kp) (hK : Keeps Kp K0 s) :
    KeepsO Kp K0 (execBusSample g mv s) := by
  unfold execBusSample
  with_reducible repeat' first
    | assumption
    | refine KeepsO.next ?_
    | refine keeps_busSample (subP hKp (by decide)) ?_

theorem keeps_execChopFailureDetect {Kp : List Part} {K0 s : State} {g : SegId} (hKp : [.sent, .dict, .log, .life, .segs, .alert] ⊆ Kp) (hK : Keeps Kp K0 s) :
    KeepsO Kp K0 (execChopFailureDetect g s) := by
  unfold execChopFailureDetect
  with_reducible repeat' first
    | assumption
    | refine KeepsO.next ?_
    | refine KeepsO.ite ?_ ?_
    | refine keeps_raise (subP hKp (by decide)) ?_
    | refine keeps_setSeg (subP hKp (by decide)) ?_
    | refine Keeps.ite ?_ ?_

theorem keeps_execBusOvervoltage {Kp : List Part} {K0 s : State} {g : SegId} (hKp : [.sent, .reg, .dict, .log, .life, .lanes, .segs, .alert, .ports] ⊆ Kp) (hK : Keeps Kp K0 s) :
    KeepsO Kp K0 (execBusOvervoltage g s) := by
  unfold execBusOvervoltage
  with_reducible repeat' first
    | assumption
    | refine KeepsO.next ?_
    | refine KeepsO.ite ?_ ?_
    | refine keeps_setSeg (subP hKp (by decide)) ?_
    | refine keeps_raise (subP hKp (by decide)) ?_
    | refine keeps_detectFault (subP hKp (by decide)) ?_
    | refine Keeps.fold2 _ _ _ (fun _ _ _ => ?_) ?_
    | refine Keeps.foldl _ _ _ (fun _ _ _ => ?_) ?_
    | refine Keeps.ite ?_ ?_

theorem keeps_execRegenToShort {Kp : List Part} {K0 s : State} {n : LaneId} (hKp : [.reg, .lanes] ⊆ Kp) (hK : Keeps Kp K0 s) :
    KeepsO Kp K0 (execRegenToShort n s) := by
  unfold execRegenToShort
  with_reducible repeat' first
    | assumption
    | refine KeepsO.next ?_
    | refine KeepsO.ite ?_ ?_
    | refine keeps_shortBrake (subP hKp (by decide)) ?_
    | refine keeps_setLane (subP hKp (by decide)) ?_
    | refine Keeps.ite ?_ ?_

theorem keeps_flyingFailed {Kp : List Part} {K0 s : State} {n : LaneId} {rpm : Nat} (hKp : [.sent, .reg, .dict, .log, .life, .lanes, .alert] ⊆ Kp) (hK : Keeps Kp K0 s) :
    Keeps Kp K0 (flyingFailed n rpm s) := by
  unfold flyingFailed
  with_reducible repeat' first
    | assumption
    | refine keeps_raise (subP hKp (by decide)) ?_
    | refine keeps_lbump (subP hKp (by decide)) ?_
    | refine keeps_shortBrake (subP hKp (by decide)) ?_
    | refine keeps_setLane (subP hKp (by decide)) ?_

theorem keeps_execFlyingRestart {Kp : List Part} {K0 s : State} {n : LaneId} {b : BackEmf} (hKp : [.sent, .reg, .dict, .log, .life, .lanes, .alert] ⊆ Kp) (hK : Keeps Kp K0 s) :
    KeepsO Kp K0 (execFlyingRestart n b s) := by
  unfold execFlyingRestart
  with_reducible repeat' first
    | assumption
    | refine KeepsO.next ?_
    | refine KeepsO.ite ?_ ?_
    | refine keeps_raise (subP hKp (by decide)) ?_
    | refine keeps_lbump (subP hKp (by decide)) ?_
    | refine keeps_setLane (subP hKp (by decide)) ?_
    | refine keeps_flyingFailed (subP hKp (by decide)) ?_
    | refine Keeps.ite ?_ ?_

theorem keeps_execFlyingRestartTimeout {Kp : List Part} {K0 s : State} {n : LaneId} (hKp : [.sent, .reg, .dict, .log, .life, .lanes, .alert] ⊆ Kp) (hK : Keeps Kp K0 s) :
    KeepsO Kp K0 (execFlyingRestartTimeout n s) := by
  unfold execFlyingRestartTimeout
  with_reducible repeat' first
    | assumption
    | refine KeepsO.next ?_
    | refine KeepsO.ite ?_ ?_
    | refine keeps_flyingFailed (subP hKp (by decide)) ?_
    | refine Keeps.ite ?_ ?_

theorem keeps_execCoreSupplyChange {Kp : List Part} {K0 s : State} (hKp : [.core] ⊆ Kp) (hK : Keeps Kp K0 s) :
    KeepsO Kp K0 (execCoreSupplyChange s) := by
  unfold execCoreSupplyChange
  refine KeepsO.next ?_
  generalize needMv s (raiseSum s) = x
  with_reducible apply Keeps.upd hK
  all_goals with_reducible first
    | exact .inl rfl
    | exact .inr (memP hKp (by decide))
    | exact id

theorem keeps_execCoreSupplyInForce {Kp : List Part} {K0 s : State}  (hKp : [.lanes, .core] ⊆ Kp) (hK : Keeps Kp K0 s) :
    KeepsO Kp K0 (execCoreSupplyInForce s) := by
  unfold execCoreSupplyInForce
  with_reducible repeat' first
    | assumption
    | refine KeepsO.next ?_
    | refine KeepsO.ite ?_ ?_
    | refine keeps_setLane (subP hKp (by decide)) ?_
    | refine Keeps.fold2 _ _ _ (fun _ _ _ => ?_) ?_
    | refine Keeps.foldl _ _ _ (fun _ _ _ => ?_) ?_
    | refine Keeps.ite ?_ ?_
    | exact .inl rfl
    | exact .inr (memP hKp (by decide))
    | exact id
    | split
    | apply Keeps.upd

end Sys2Proof.Machine
end

