-- ==== Sys2Proof/Laws/KeepsAdmission.lean ====
section
/-! SUPPORT. What the operations of Admission.lean keep. -/

namespace Sys2Proof.Machine

set_option linter.unusedTactic false
set_option linter.unreachableTactic false
set_option linter.unusedVariables false

theorem keeps_advanceHead {Kp : List Part} {K0 s : State} {c : CmdId} (hKp : [.host] ⊆ Kp) (hK : Keeps Kp K0 s) :
    Keeps Kp K0 (advanceHead c s) := by
  unfold advanceHead
  with_reducible repeat' first
    | assumption
    | refine keeps_setHost (subP hKp (by decide)) ?_
    | refine keeps_setCtrl (subP hKp (by decide)) ?_
    | refine Keeps.ite ?_ ?_

theorem keeps_listFails {Kp : List Part} {K0 s : State} {p : PortId} {l : Option (Nat × Nat)} (hKp : [.sent, .reg, .dict, .log, .life, .alert, .mem, .cache] ⊆ Kp) (hK : Keeps Kp K0 s) :
    Keeps Kp K0 (listFails p l s).2 := by
  unfold listFails
  with_reducible repeat' first
    | assumption
    | refine keeps_bufferRead (subP hKp (by decide)) ?_
    | refine Keeps.ite ?_ ?_
    | split

theorem keeps_transferFails {Kp : List Part} {K0 s : State} {p : PortId} {x : Transfer} {count : Nat} (hKp : [.sent, .reg, .dict, .log, .life, .alert, .mem, .cache] ⊆ Kp) (hK : Keeps Kp K0 s) :
    Keeps Kp K0 (transferFails p x count s).2 := by
  unfold transferFails
  with_reducible repeat' first
    | assumption
    | refine keeps_listFails (subP hKp (by decide)) ?_
    | refine Keeps.ite ?_ ?_
    | refine Keeps.snd (by assumption) ?_
    | split

theorem keeps_entryPoisoned {Kp : List Part} {K0 s : State} {c : CmdId} (hKp : [.sent, .reg, .dict, .log, .life, .alert, .mem, .cache] ⊆ Kp) (hK : Keeps Kp K0 s) :
    Keeps Kp K0 (entryPoisoned c s).2 := by
  unfold entryPoisoned
  with_reducible repeat' first
    | assumption
    | refine keeps_bufferRead (subP hKp (by decide)) ?_
    | split

theorem keeps_refuse {Kp : List Part} {K0 s : State} {c : CmdId} {st : Nat × Nat × Option Bool} (hKp : [.sent, .reg, .host, .pair, .work] ⊆ Kp) (hK : Keeps Kp K0 s) :
    Keeps Kp K0 (refuse c st s) := by
  unfold refuse
  with_reducible repeat' first
    | assumption
    | refine keeps_completeAs (subP hKp (by decide)) ?_
    | refine keeps_bump (subP hKp (by decide)) ?_

theorem keeps_admitted {Kp : List Part} {K0 s : State}  (hKp : [.reg] ⊆ Kp) (hK : Keeps Kp K0 s) :
    Keeps Kp K0 (admitted s) := by
  unfold admitted
  with_reducible repeat' first
    | assumption
    | refine keeps_bump (subP hKp (by decide)) ?_

theorem keeps_fetch {Kp : List Part} {K0 s : State} {c : CmdId} {k : State → State} (hKp : [.sent, .reg, .dict, .log, .life, .alert, .host, .mem, .cache, .pair, .work] ⊆ Kp) (hK : Keeps Kp K0 s) (hk : ∀ q, Keeps Kp K0 q → Keeps Kp K0 (k q)) :
    Keeps Kp K0 (fetch c k s) := by
  unfold fetch
  with_reducible repeat' first
    | assumption
    | refine keeps_entryPoisoned (subP hKp (by decide)) ?_
    | refine keeps_raise (subP hKp (by decide)) ?_
    | refine keeps_asyncEvent (subP hKp (by decide)) ?_
    | refine keeps_errorEntry (subP hKp (by decide)) ?_
    | refine keeps_advanceHead (subP hKp (by decide)) ?_
    | refine keeps_setHost (subP hKp (by decide)) ?_
    | refine keeps_refuse (subP hKp (by decide)) ?_
    | refine Keeps.ite ?_ ?_
    | refine Keeps.snd (by assumption) ?_
    | apply hk
    | split

theorem keeps_takeOff {Kp : List Part} {K0 s : State} {f : Flight} (hKp : [.reg, .host] ⊆ Kp) (hK : Keeps Kp K0 s) :
    Keeps Kp K0 (takeOff f s) := by
  unfold takeOff
  with_reducible repeat' first
    | assumption
    | refine keeps_admitted (subP hKp (by decide)) ?_
    | refine keeps_setFlights (subP hKp (by decide)) ?_
    | refine keeps_bump (subP hKp (by decide)) ?_
    | refine Keeps.ite ?_ ?_

theorem keeps_startupCheck {Kp : List Part} {K0 s : State}  (hKp : [.sent, .dict, .log, .life, .alert, .host] ⊆ Kp) (hK : Keeps Kp K0 s) :
    Keeps Kp K0 (startupCheck s) := by
  unfold startupCheck
  with_reducible repeat' first
    | assumption
    | refine keeps_setCause (subP hKp (by decide)) ?_
    | refine Keeps.ite ?_ ?_

theorem keeps_carriedCheck {Kp : List Part} {K0 s : State}  (hKp : [.sent, .dict, .log, .life, .alert, .host] ⊆ Kp) (hK : Keeps Kp K0 s) :
    Keeps Kp K0 (carriedCheck s) := by
  unfold carriedCheck
  with_reducible repeat' first
    | assumption
    | refine keeps_setCause (subP hKp (by decide)) ?_
    | refine Keeps.ite ?_ ?_

theorem keeps_endLostWrites {Kp : List Part} {K0 s : State} {t : TeamId} (hKp : [.teams, .host] ⊆ Kp) (hK : Keeps Kp K0 s) :
    Keeps Kp K0 (endLostWrites t s) := by
  unfold endLostWrites
  with_reducible repeat' first
    | assumption
    | refine keeps_setFlights (subP hKp (by decide)) ?_
    | refine keeps_endExtent (subP hKp (by decide)) ?_
    | refine Keeps.fold2 _ _ _ (fun _ _ _ => ?_) ?_
    | refine Keeps.foldl _ _ _ (fun _ _ _ => ?_) ?_
    | refine Keeps.ite ?_ ?_

theorem keeps_checkReadOnly {Kp : List Part} {K0 s : State} {t : TeamId} (hKp : [.sent, .dict, .log, .life, .teams, .alert, .host] ⊆ Kp) (hK : Keeps Kp K0 s) :
    Keeps Kp K0 (checkReadOnly t s) := by
  unfold checkReadOnly
  with_reducible repeat' first
    | assumption
    | refine keeps_raise (subP hKp (by decide)) ?_
    | refine keeps_asyncBoth (subP hKp (by decide)) ?_
    | refine keeps_setZone (subP hKp (by decide)) ?_
    | refine keeps_endLostWrites (subP hKp (by decide)) ?_
    | refine Keeps.fold2 _ _ _ (fun _ _ _ => ?_) ?_
    | refine Keeps.foldl _ _ _ (fun _ _ _ => ?_) ?_
    | refine Keeps.ite ?_ ?_
    | split

theorem keeps_checkReadOnlyLane {Kp : List Part} {K0 s : State} {n : LaneId} (hKp : [.sent, .dict, .log, .life, .teams, .alert, .host] ⊆ Kp) (hK : Keeps Kp K0 s) :
    Keeps Kp K0 (checkReadOnlyLane n s) := by
  unfold checkReadOnlyLane
  with_reducible repeat' first
    | assumption
    | refine keeps_checkReadOnly (subP hKp (by decide)) ?_
    | split

end Sys2Proof.Machine
end

