-- ==== Sys2Proof/Laws/KeepsIo.lean ====
section
/-! SUPPORT. What the operations of Io.lean keep. -/

namespace Sys2Proof.Machine

set_option linter.unusedTactic false
set_option linter.unreachableTactic false
set_option linter.unusedVariables false

theorem keeps_putLba {Kp : List Part} {K0 s : State} {c : CmdId} {f : Flight} {lba : Nat} {b : Bytes} {mark : Nat} (hKp : [.sent, .reg, .dict, .log, .life, .alert, .mem, .cache] ⊆ Kp) (hK : Keeps Kp K0 s) :
    Keeps Kp K0 (putLba c f lba b mark s) := by
  unfold putLba
  with_reducible repeat' first
    | assumption
    | refine keeps_send (subP hKp (by decide)) ?_
    | refine keeps_bufferWrite (subP hKp (by decide)) ?_
    | split

theorem keeps_serveZeros {Kp : List Part} {K0 s : State} {c : CmdId} (hKp : [.sent, .reg, .dict, .log, .life, .alert, .host, .mem, .cache] ⊆ Kp) (hK : Keeps Kp K0 s) :
    Keeps Kp K0 (serveZeros c s) := by
  unfold serveZeros
  with_reducible repeat' first
    | assumption
    | refine keeps_setFlight (subP hKp (by decide)) ?_
    | refine keeps_putLba (subP hKp (by decide)) ?_
    | refine Keeps.fold2 _ _ _ (fun _ _ _ => ?_) ?_
    | refine Keeps.foldl _ _ _ (fun _ _ _ => ?_) ?_
    | refine Keeps.ite ?_ ?_
    | split

theorem keeps_countDemand {Kp : List Part} {K0 s : State} {t : TeamId} {count : Nat} (hKp : [.teams] ⊆ Kp) (hK : Keeps Kp K0 s) :
    Keeps Kp K0 (countDemand t count s) := by
  unfold countDemand
  with_reducible repeat' first
    | assumption
    | refine keeps_setTeam (subP hKp (by decide)) ?_

theorem keeps_waitOnHeldLanes {Kp : List Part} {K0 s : State} {c : CmdId} (hKp : [.host] ⊆ Kp) (hK : Keeps Kp K0 s) :
    Keeps Kp K0 (waitOnHeldLanes c s) := by
  unfold waitOnHeldLanes
  with_reducible repeat' first
    | assumption
    | refine keeps_setFlight (subP hKp (by decide)) ?_

theorem keeps_readCommand {Kp : List Part} {K0 s0 : State} {c : CmdId} {nsid : Nat} {slba : Nat} {nlb : Nat} {x : Transfer} (hKp : [.sent, .reg, .dict, .log, .life, .teams, .alert, .host, .mem, .cache, .pair, .work] ⊆ Kp) (hK : Keeps Kp K0 s0) :
    Keeps Kp K0 (readCommand c nsid slba nlb x s0) := by
  unfold readCommand
  with_reducible repeat' first
    | assumption
    | refine keeps_transferFails (subP hKp (by decide)) ?_
    | refine keeps_refuse (subP hKp (by decide)) ?_
    | refine keeps_waitOnHeldLanes (subP hKp (by decide)) ?_
    | refine keeps_serveZeros (subP hKp (by decide)) ?_
    | refine keeps_takeOff (subP hKp (by decide)) ?_
    | refine keeps_countDemand (subP hKp (by decide)) ?_
    | refine Keeps.ite ?_ ?_
    | refine Keeps.snd (by assumption) ?_
    | split

theorem keeps_execRead {Kp : List Part} {K0 s : State} {c : CmdId} {nsid : Nat} {slba : Nat} {nlb : Nat} {x : Transfer} (hKp : [.sent, .reg, .dict, .log, .life, .teams, .alert, .host, .mem, .cache, .pair, .work] ⊆ Kp) (hK : Keeps Kp K0 s) :
    KeepsO Kp K0 (execRead c nsid slba nlb x s) := by
  unfold execRead
  with_reducible repeat' first
    | assumption
    | refine KeepsO.next ?_
    | (intro _; try intros)
    | refine keeps_fetch (subP hKp (by decide)) ?_ ?_
    | refine keeps_readCommand (subP hKp (by decide)) ?_

theorem keeps_claim {Kp : List Part} {K0 s : State} {t : TeamId} {seq : Nat} {y0 : List Nat} (hKp : [.teams] ⊆ Kp) (hK : Keeps Kp K0 s) :
    Keeps Kp K0 (claim t seq y0 s) := by
  induction y0 generalizing s with
  | nil => exact hK
  | cons a l ih =>
    unfold claim
    with_reducible repeat' first
      | assumption
      | refine ih ?_
      | refine keeps_setExtent (subP hKp (by decide)) ?_

theorem keeps_openForWrite {Kp : List Part} {K0 s : State} {t : TeamId} {z : Nat} (hKp : [.teams] ⊆ Kp) (hK : Keeps Kp K0 s) :
    KeepsE Kp K0 (openForWrite t z s) := by
  unfold openForWrite
  with_reducible repeat' first
    | assumption
    | refine KeepsE.ok ?_
    | exact KeepsE.error
    | refine KeepsE.ite ?_ ?_
    | refine KeepsE.of (by assumption) ?_
    | refine keeps_openRoom (subP hKp (by decide)) ?_
    | refine keeps_setZone (subP hKp (by decide)) ?_
    | refine Keeps.ite ?_ ?_
    | split

theorem keeps_writeCommand {Kp : List Part} {K0 s0 : State} {c : CmdId} {nsid : Nat} {slba : Nat} {nlb : Nat} {append : Bool} {x : Transfer} (hKp : [.sent, .reg, .dict, .log, .life, .teams, .alert, .host, .mem, .cache, .pair, .work] ⊆ Kp) (hK : Keeps Kp K0 s0) :
    Keeps Kp K0 (writeCommand c nsid slba nlb append x s0) := by
  unfold writeCommand
  extract_lets
  with_reducible repeat' first
    | assumption
    | refine KeepsE.of (by assumption) ?_
    | refine keeps_transferFails (subP hKp (by decide)) ?_
    | refine keeps_refuse (subP hKp (by decide)) ?_
    | refine keeps_openForWrite (subP hKp (by decide)) ?_
    | refine keeps_moveWp (subP hKp (by decide)) ?_
    | refine keeps_claim (subP hKp (by decide)) ?_
    | refine keeps_waitOnHeldLanes (subP hKp (by decide)) ?_
    | refine keeps_markHeld (subP hKp (by decide)) ?_
    | refine keeps_takeOff (subP hKp (by decide)) ?_
    | refine keeps_countDemand (subP hKp (by decide)) ?_
    | refine Keeps.ite ?_ ?_
    | refine Keeps.snd (by assumption) ?_
    | split

theorem keeps_execWrite {Kp : List Part} {K0 s : State} {c : CmdId} {nsid : Nat} {slba : Nat} {nlb : Nat} {x : Transfer} (hKp : [.sent, .reg, .dict, .log, .life, .teams, .alert, .host, .mem, .cache, .pair, .work] ⊆ Kp) (hK : Keeps Kp K0 s) :
    KeepsO Kp K0 (execWrite c nsid slba nlb x s) := by
  unfold execWrite
  with_reducible repeat' first
    | assumption
    | refine KeepsO.next ?_
    | (intro _; try intros)
    | refine keeps_fetch (subP hKp (by decide)) ?_ ?_
    | refine keeps_writeCommand (subP hKp (by decide)) ?_

theorem keeps_execZoneAppend {Kp : List Part} {K0 s : State} {c : CmdId} {nsid : Nat} {zslba : Nat} {nlb : Nat} {x : Transfer} (hKp : [.sent, .reg, .dict, .log, .life, .teams, .alert, .host, .mem, .cache, .pair, .work] ⊆ Kp) (hK : Keeps Kp K0 s) :
    KeepsO Kp K0 (execZoneAppend c nsid zslba nlb x s) := by
  unfold execZoneAppend
  with_reducible repeat' first
    | assumption
    | refine KeepsO.next ?_
    | (intro _; try intros)
    | refine keeps_fetch (subP hKp (by decide)) ?_ ?_
    | refine keeps_writeCommand (subP hKp (by decide)) ?_

theorem keeps_stageLba {Kp : List Part} {K0 s : State} {c : CmdId} {lba : Nat} {data : Bytes} {mark : Nat} (hKp : [.sent, .reg, .dict, .log, .life, .teams, .alert, .host, .mem, .cache] ⊆ Kp) (hK : Keeps Kp K0 s) :
    Keeps Kp K0 (stageLba c lba data mark s) := by
  unfold stageLba
  with_reducible repeat' first
    | assumption
    | refine keeps_bufferWrite (subP hKp (by decide)) ?_
    | refine keeps_setExtent (subP hKp (by decide)) ?_
    | refine keeps_setFlight (subP hKp (by decide)) ?_
    | refine Keeps.ite ?_ ?_
    | split

theorem keeps_execHostDataCompletion {Kp : List Part} {K0 s : State} {c : CmdId} {lba : Nat} {data : Bytes} {ep : Bool} {error : Bool} (hKp : [.free, .sent, .reg, .dict, .log, .life, .teams, .alert, .host, .mem, .cache] ⊆ Kp) (hK : Keeps Kp K0 s) :
    KeepsO Kp K0 (execHostDataCompletion c lba data ep error s) := by
  unfold execHostDataCompletion
  with_reducible repeat' first
    | assumption
    | refine KeepsO.next ?_
    | refine KeepsO.ite ?_ ?_
    | refine keeps_bufferRead (subP hKp (by decide)) ?_
    | refine keeps_stageLba (subP hKp (by decide)) ?_
    | refine keeps_drawBytes (subP hKp (by decide)) ?_
    | refine Keeps.ite ?_ ?_
    | refine Keeps.snd (by assumption) ?_
    | split

theorem keeps_execHostDataTimeout {Kp : List Part} {K0 s : State} {c : CmdId} {lba : Nat} (hKp : [.free, .sent, .reg, .dict, .log, .life, .teams, .alert, .host, .mem, .cache] ⊆ Kp) (hK : Keeps Kp K0 s) :
    KeepsO Kp K0 (execHostDataTimeout c lba s) := by
  unfold execHostDataTimeout
  with_reducible repeat' first
    | assumption
    | refine KeepsO.next ?_
    | refine keeps_drawBytes (subP hKp (by decide)) ?_
    | refine keeps_stageLba (subP hKp (by decide)) ?_
    | refine Keeps.snd (by assumption) ?_
    | split

theorem keeps_flushCommand {Kp : List Part} {K0 s : State} {c : CmdId} {nsid : Nat} (hKp : [.sent, .reg, .teams, .host, .pair, .work] ⊆ Kp) (hK : Keeps Kp K0 s) :
    Keeps Kp K0 (flushCommand c nsid s) := by
  unfold flushCommand
  with_reducible repeat' first
    | assumption
    | refine keeps_refuse (subP hKp (by decide)) ?_
    | refine keeps_tryComplete (subP hKp (by decide)) ?_
    | refine keeps_takeOff (subP hKp (by decide)) ?_
    | refine keeps_markHeld (subP hKp (by decide)) ?_
    | refine keeps_sealAll (subP hKp (by decide)) ?_
    | refine Keeps.fold2 _ _ _ (fun _ _ _ => ?_) ?_
    | refine Keeps.foldl _ _ _ (fun _ _ _ => ?_) ?_
    | refine Keeps.ite ?_ ?_
    | split

theorem keeps_execFlush {Kp : List Part} {K0 s : State} {c : CmdId} {nsid : Nat} (hKp : [.sent, .reg, .dict, .log, .life, .teams, .alert, .host, .mem, .cache, .pair, .work] ⊆ Kp) (hK : Keeps Kp K0 s) :
    KeepsO Kp K0 (execFlush c nsid s) := by
  unfold execFlush
  with_reducible repeat' first
    | assumption
    | refine KeepsO.next ?_
    | (intro _; try intros)
    | refine keeps_fetch (subP hKp (by decide)) ?_ ?_
    | refine keeps_flushCommand (subP hKp (by decide)) ?_

theorem keeps_openZone {Kp : List Part} {K0 s : State} {t : TeamId} {z : Nat} (hKp : [.teams] ⊆ Kp) (hK : Keeps Kp K0 s) :
    KeepsE Kp K0 (openZone t z s) := by
  unfold openZone
  with_reducible repeat' first
    | assumption
    | refine KeepsE.ok ?_
    | exact KeepsE.error
    | refine KeepsE.ite ?_ ?_
    | refine KeepsE.of (by assumption) ?_
    | refine keeps_openRoom (subP hKp (by decide)) ?_
    | refine keeps_setZone (subP hKp (by decide)) ?_
    | refine Keeps.ite ?_ ?_
    | split

theorem keeps_closeZoneAsked {Kp : List Part} {K0 s : State} {t : TeamId} {z : Nat} (hKp : [.teams] ⊆ Kp) (hK : Keeps Kp K0 s) :
    KeepsE Kp K0 (closeZoneAsked t z s) := by
  unfold closeZoneAsked
  with_reducible repeat' first
    | assumption
    | refine KeepsE.ok ?_
    | exact KeepsE.error
    | refine KeepsE.ite ?_ ?_
    | refine keeps_closeZone (subP hKp (by decide)) ?_
    | refine Keeps.ite ?_ ?_

theorem keeps_finishZone {Kp : List Part} {K0 s : State} {t : TeamId} {z : Nat} (hKp : [.teams] ⊆ Kp) (hK : Keeps Kp K0 s) :
    KeepsE Kp K0 (finishZone t z s) := by
  unfold finishZone
  with_reducible repeat' first
    | assumption
    | refine KeepsE.ok ?_
    | exact KeepsE.error
    | refine KeepsE.ite ?_ ?_
    | refine keeps_fillZone (subP hKp (by decide)) ?_
    | refine Keeps.ite ?_ ?_

theorem keeps_onZones {Kp : List Part} {K0 s : State} {t : TeamId} {p : Zone → Bool}
    {g : TeamId → Nat → State → Except (Nat × Nat × Option Bool) State} (_hKp : [] ⊆ Kp) (hK : Keeps Kp K0 s)
    (hk : ∀ x0 x1 q, Keeps Kp K0 q → KeepsE Kp K0 (g x0 x1 q)) : KeepsE Kp K0 (onZones t p g s) := by
  unfold onZones
  generalize List.map _ _ = l
  have : ∀ e : Except (Nat × Nat × Option Bool) State, KeepsE Kp K0 e → KeepsE Kp K0 (l.foldl (fun a z =>
      match a with
      | .error e => .error e
      | .ok s1 => g t z s1) e) := by
    induction l with
    | nil => exact fun e h => h
    | cons z l ih =>
      intro e h
      refine ih _ ?_
      cases e with
      | error e => exact KeepsE.error
      | ok s1 => exact hk t z s1 (h s1 rfl)
  exact this _ (KeepsE.ok hK)

theorem keeps_zoneSendNow {Kp : List Part} {K0 s : State} {c : CmdId} {nsid : Nat} {slba : Nat} {all : Bool} {p : Zone → Bool} {g : TeamId → Nat → State → Except (Nat × Nat × Option Bool) State} (hKp : [.sent, .reg, .teams, .host, .pair, .work] ⊆ Kp) (hK : Keeps Kp K0 s) (hk : ∀ x0 x1 q, Keeps Kp K0 q → KeepsE Kp K0 (g x0 x1 q)) :
    Keeps Kp K0 (zoneSendNow c nsid slba all p g s) := by
  unfold zoneSendNow
  with_reducible repeat' first
    | assumption
    | refine KeepsE.of (by assumption) ?_
    | (intro _; try intros)
    | refine keeps_refuse (subP hKp (by decide)) ?_
    | refine keeps_onZones (subP hKp (by decide)) ?_ ?_
    | refine keeps_succeed (subP hKp (by decide)) ?_
    | refine keeps_admitted (subP hKp (by decide)) ?_
    | refine keeps_markHeld (subP hKp (by decide)) ?_
    | refine Keeps.ite ?_ ?_
    | apply hk
    | split

theorem keeps_execZoneOpen {Kp : List Part} {K0 s : State} {c : CmdId} {nsid : Nat} {slba : Nat} {all : Bool} (hKp : [.sent, .reg, .dict, .log, .life, .teams, .alert, .host, .mem, .cache, .pair, .work] ⊆ Kp) (hK : Keeps Kp K0 s) :
    KeepsO Kp K0 (execZoneOpen c nsid slba all s) := by
  unfold execZoneOpen
  with_reducible repeat' first
    | assumption
    | refine KeepsO.next ?_
    | refine KeepsE.of (by assumption) ?_
    | (intro _; try intros)
    | refine keeps_fetch (subP hKp (by decide)) ?_ ?_
    | refine keeps_zoneSendNow (subP hKp (by decide)) ?_ ?_
    | refine keeps_openZone (subP hKp (by decide)) ?_

theorem keeps_execZoneClose {Kp : List Part} {K0 s : State} {c : CmdId} {nsid : Nat} {slba : Nat} {all : Bool} (hKp : [.sent, .reg, .dict, .log, .life, .teams, .alert, .host, .mem, .cache, .pair, .work] ⊆ Kp) (hK : Keeps Kp K0 s) :
    KeepsO Kp K0 (execZoneClose c nsid slba all s) := by
  unfold execZoneClose
  with_reducible repeat' first
    | assumption
    | refine KeepsO.next ?_
    | refine KeepsE.of (by assumption) ?_
    | (intro _; try intros)
    | refine keeps_fetch (subP hKp (by decide)) ?_ ?_
    | refine keeps_zoneSendNow (subP hKp (by decide)) ?_ ?_
    | refine keeps_closeZoneAsked (subP hKp (by decide)) ?_

theorem keeps_zoneFinishCommand {Kp : List Part} {K0 s : State} {c : CmdId} {nsid : Nat} {slba : Nat} {all : Bool} (hKp : [.sent, .reg, .teams, .host, .pair, .work] ⊆ Kp) (hK : Keeps Kp K0 s) :
    Keeps Kp K0 (zoneFinishCommand c nsid slba all s) := by
  unfold zoneFinishCommand
  with_reducible repeat' first
    | assumption
    | refine KeepsE.of (by assumption) ?_
    | (intro _; try intros)
    | refine keeps_refuse (subP hKp (by decide)) ?_
    | refine keeps_onZones (subP hKp (by decide)) ?_ ?_
    | refine keeps_finishZone (subP hKp (by decide)) ?_
    | refine keeps_tryComplete (subP hKp (by decide)) ?_
    | refine keeps_takeOff (subP hKp (by decide)) ?_
    | refine keeps_markHeld (subP hKp (by decide)) ?_
    | refine Keeps.ite ?_ ?_
    | split

theorem keeps_execZoneFinish {Kp : List Part} {K0 s : State} {c : CmdId} {nsid : Nat} {slba : Nat} {all : Bool} (hKp : [.sent, .reg, .dict, .log, .life, .teams, .alert, .host, .mem, .cache, .pair, .work] ⊆ Kp) (hK : Keeps Kp K0 s) :
    KeepsO Kp K0 (execZoneFinish c nsid slba all s) := by
  unfold execZoneFinish
  with_reducible repeat' first
    | assumption
    | refine KeepsO.next ?_
    | (intro _; try intros)
    | refine keeps_fetch (subP hKp (by decide)) ?_ ?_
    | refine keeps_zoneFinishCommand (subP hKp (by decide)) ?_

theorem keeps_zoneUnsupported {Kp : List Part} {K0 s : State} {c : CmdId} {nsid : Nat} (hKp : [.sent, .reg, .host, .pair, .work] ⊆ Kp) (hK : Keeps Kp K0 s) :
    Keeps Kp K0 (zoneUnsupported c nsid s) := by
  unfold zoneUnsupported
  with_reducible repeat' first
    | assumption
    | refine keeps_refuse (subP hKp (by decide)) ?_
    | split

theorem keeps_execZoneReset {Kp : List Part} {K0 s : State} {c : CmdId} {nsid : Nat} {_slba : Nat} {_all : Bool} (hKp : [.sent, .reg, .dict, .log, .life, .alert, .host, .mem, .cache, .pair, .work] ⊆ Kp) (hK : Keeps Kp K0 s) :
    KeepsO Kp K0 (execZoneReset c nsid _slba _all s) := by
  unfold execZoneReset
  with_reducible repeat' first
    | assumption
    | refine KeepsO.next ?_
    | (intro _; try intros)
    | refine keeps_fetch (subP hKp (by decide)) ?_ ?_
    | refine keeps_zoneUnsupported (subP hKp (by decide)) ?_

theorem keeps_execZoneOffline {Kp : List Part} {K0 s : State} {c : CmdId} {nsid : Nat} {_slba : Nat} {_all : Bool} (hKp : [.sent, .reg, .dict, .log, .life, .alert, .host, .mem, .cache, .pair, .work] ⊆ Kp) (hK : Keeps Kp K0 s) :
    KeepsO Kp K0 (execZoneOffline c nsid _slba _all s) := by
  unfold execZoneOffline
  with_reducible repeat' first
    | assumption
    | refine KeepsO.next ?_
    | (intro _; try intros)
    | refine keeps_fetch (subP hKp (by decide)) ?_ ?_
    | refine keeps_zoneUnsupported (subP hKp (by decide)) ?_

theorem keeps_execSetZoneDescriptorExtension {Kp : List Part} {K0 s : State} {c : CmdId} {nsid : Nat} {_slba : Nat} (hKp : [.sent, .reg, .dict, .log, .life, .alert, .host, .mem, .cache, .pair, .work] ⊆ Kp) (hK : Keeps Kp K0 s) :
    KeepsO Kp K0 (execSetZoneDescriptorExtension c nsid _slba s) := by
  unfold execSetZoneDescriptorExtension
  with_reducible repeat' first
    | assumption
    | refine KeepsO.next ?_
    | (intro _; try intros)
    | refine keeps_fetch (subP hKp (by decide)) ?_ ?_
    | refine keeps_zoneUnsupported (subP hKp (by decide)) ?_

theorem keeps_zoneReceive {Kp : List Part} {K0 s : State} {c : CmdId} {nsid : Nat} {slba : Nat} {option : Nat} {numd : Nat} {part : Bool} (hKp : [.sent, .reg, .teams, .host, .pair, .work] ⊆ Kp) (hK : Keeps Kp K0 s) :
    Keeps Kp K0 (zoneReceive c nsid slba option numd part s) := by
  unfold zoneReceive
  with_reducible repeat' first
    | assumption
    | refine keeps_refuse (subP hKp (by decide)) ?_
    | refine keeps_tryComplete (subP hKp (by decide)) ?_
    | refine keeps_takeOff (subP hKp (by decide)) ?_
    | refine keeps_send (subP hKp (by decide)) ?_
    | refine Keeps.ite ?_ ?_
    | split

theorem keeps_execZoneManagementReceive {Kp : List Part} {K0 s : State} {c : CmdId} {nsid : Nat} {slba : Nat} {option : Nat} {numd : Nat} {part : Bool} (hKp : [.sent, .reg, .dict, .log, .life, .teams, .alert, .host, .mem, .cache, .pair, .work] ⊆ Kp) (hK : Keeps Kp K0 s) :
    KeepsO Kp K0 (execZoneManagementReceive c nsid slba option numd part s) := by
  unfold execZoneManagementReceive
  with_reducible repeat' first
    | assumption
    | refine KeepsO.next ?_
    | (intro _; try intros)
    | refine keeps_fetch (subP hKp (by decide)) ?_ ?_
    | refine keeps_zoneReceive (subP hKp (by decide)) ?_

theorem keeps_execSqDoorbell {Kp : List Part} {K0 s : State} {ctrl : PortId} {q : Nat} {tail : Nat} (hKp : [.sent, .host] ⊆ Kp) (hK : Keeps Kp K0 s) :
    KeepsO Kp K0 (execSqDoorbell ctrl q tail s) := by
  unfold execSqDoorbell
  extract_lets
  with_reducible repeat' first
    | assumption
    | refine KeepsO.next ?_
    | refine KeepsO.ite ?_ ?_
    | refine keeps_asyncEvent (subP hKp (by decide)) ?_
    | refine keeps_setCtrl (subP hKp (by decide)) ?_
    | refine Keeps.ite ?_ ?_
    | split

theorem keeps_execCqDoorbell {Kp : List Part} {K0 s : State} {ctrl : PortId} {q : Nat} {head : Nat} (hKp : [.sent, .host] ⊆ Kp) (hK : Keeps Kp K0 s) :
    KeepsO Kp K0 (execCqDoorbell ctrl q head s) := by
  unfold execCqDoorbell
  with_reducible repeat' first
    | assumption
    | refine KeepsO.next ?_
    | refine KeepsO.ite ?_ ?_
    | refine keeps_asyncEvent (subP hKp (by decide)) ?_
    | refine keeps_cqDrain (subP hKp (by decide)) ?_
    | refine keeps_setCq (subP hKp (by decide)) ?_
    | refine Keeps.ite ?_ ?_
    | split

theorem keeps_settleDelete {Kp : List Part} {K0 s : State} {c : CmdId} (hKp : [.host] ⊆ Kp) (hK : Keeps Kp K0 s) :
    Keeps Kp K0 (settleDelete c s) := by
  unfold settleDelete
  with_reducible repeat' first
    | assumption
    | refine keeps_setFlight (subP hKp (by decide)) ?_
    | refine keeps_setCtrl (subP hKp (by decide)) ?_
    | refine Keeps.ite ?_ ?_
    | split

theorem keeps_settleSilent {Kp : List Part} {K0 s : State}  (hKp : [.sent, .teams, .host, .pair, .work] ⊆ Kp) (hK : Keeps Kp K0 s) :
    Keeps Kp K0 (settleSilent s) := by
  unfold settleSilent
  with_reducible repeat' first
    | assumption
    | refine keeps_tryComplete (subP hKp (by decide)) ?_
    | refine Keeps.fold2 _ _ _ (fun _ _ _ => ?_) ?_
    | refine Keeps.foldl _ _ _ (fun _ _ _ => ?_) ?_

theorem keeps_detachWrite {Kp : List Part} {K0 s : State} {t : TeamId} {f : Flight} (hKp : [.sent, .dict, .log, .life, .teams, .alert, .host] ⊆ Kp) (hK : Keeps Kp K0 s) :
    Keeps Kp K0 (detachWrite t f s) := by
  unfold detachWrite
  with_reducible repeat' first
    | assumption
    | refine keeps_endExtent (subP hKp (by decide)) ?_
    | refine keeps_raise (subP hKp (by decide)) ?_
    | refine keeps_finishByController (subP hKp (by decide)) ?_
    | refine Keeps.fold2 _ _ _ (fun _ _ _ => ?_) ?_
    | refine Keeps.foldl _ _ _ (fun _ _ _ => ?_) ?_
    | refine Keeps.ite ?_ ?_

theorem keeps_execDetachHoldExpire {Kp : List Part} {K0 s : State} {t : TeamId} (hKp : [.sent, .dict, .log, .life, .teams, .alert, .host, .pair, .work] ⊆ Kp) (hK : Keeps Kp K0 s) :
    KeepsO Kp K0 (execDetachHoldExpire t s) := by
  unfold execDetachHoldExpire
  with_reducible repeat' first
    | assumption
    | refine KeepsO.next ?_
    | refine KeepsO.ite ?_ ?_
    | refine keeps_setFlight (subP hKp (by decide)) ?_
    | refine keeps_detachWrite (subP hKp (by decide)) ?_
    | refine keeps_tryComplete (subP hKp (by decide)) ?_
    | refine keeps_setNs (subP hKp (by decide)) ?_
    | refine Keeps.fold2 _ _ _ (fun _ _ _ => ?_) ?_
    | refine Keeps.foldl _ _ _ (fun _ _ _ => ?_) ?_
    | refine Keeps.ite ?_ ?_
    | split

theorem keeps_execOrderWaitExpire {Kp : List Part} {K0 s : State} {t : TeamId} {extent : Nat} (hKp : [.sent, .dict, .log, .life, .teams, .alert, .host] ⊆ Kp) (hK : Keeps Kp K0 s) :
    KeepsO Kp K0 (execOrderWaitExpire t extent s) := by
  unfold execOrderWaitExpire
  with_reducible repeat' first
    | assumption
    | refine KeepsO.next ?_
    | refine KeepsO.ite ?_ ?_
    | refine keeps_markHeld (subP hKp (by decide)) ?_
    | refine keeps_raise (subP hKp (by decide)) ?_
    | refine keeps_finishByController (subP hKp (by decide)) ?_
    | refine Keeps.fold2 _ _ _ (fun _ _ _ => ?_) ?_
    | refine Keeps.foldl _ _ _ (fun _ _ _ => ?_) ?_
    | refine Keeps.ite ?_ ?_
    | split

theorem keeps_execLaneWaitExpire {Kp : List Part} {K0 s : State} {n : LaneId} (hKp : [.sent, .reg, .dict, .log, .life, .teams, .alert, .host, .pair, .work] ⊆ Kp) (hK : Keeps Kp K0 s) :
    KeepsO Kp K0 (execLaneWaitExpire n s) := by
  unfold execLaneWaitExpire
  with_reducible repeat' first
    | assumption
    | refine KeepsO.next ?_
    | refine keeps_endOnLane (subP hKp (by decide)) ?_
    | refine keeps_tryComplete (subP hKp (by decide)) ?_
    | refine Keeps.fold2 _ _ _ (fun _ _ _ => ?_) ?_
    | refine Keeps.foldl _ _ _ (fun _ _ _ => ?_) ?_
    | split

theorem keeps_execSealDelayExpire {Kp : List Part} {K0 s : State} {t : TeamId} {extent : Nat} (hKp : [.teams] ⊆ Kp) (hK : Keeps Kp K0 s) :
    KeepsO Kp K0 (execSealDelayExpire t extent s) := by
  unfold execSealDelayExpire
  with_reducible repeat' first
    | assumption
    | refine KeepsO.next ?_
    | refine KeepsO.ite ?_ ?_
    | refine keeps_markHeld (subP hKp (by decide)) ?_
    | refine keeps_sealExtent (subP hKp (by decide)) ?_
    | refine Keeps.ite ?_ ?_
    | split

theorem keeps_execZoneRebuild {Kp : List Part} {K0 s : State} {t : TeamId} (hKp : [.sent, .dict, .log, .life, .teams, .alert, .host] ⊆ Kp) (hK : Keeps Kp K0 s) :
    KeepsO Kp K0 (execZoneRebuild t s) := by
  unfold execZoneRebuild
  with_reducible repeat' first
    | assumption
    | refine KeepsO.next ?_
    | refine KeepsO.ite ?_ ?_
    | refine keeps_checkReadOnly (subP hKp (by decide)) ?_
    | refine keeps_setNs (subP hKp (by decide)) ?_
    | refine Keeps.ite ?_ ?_

theorem keeps_cacheForget {Kp : List Part} {K0 s : State} {first : Nat} {count : Nat} (hKp : [.cache] ⊆ Kp) (hK : Keeps Kp K0 s) :
    Keeps Kp K0 (cacheForget first count s) := by
  unfold cacheForget
  with_reducible repeat' first
    | assumption
    | refine keeps_setCache (subP hKp (by decide)) ?_

theorem keeps_refillCmb {Kp : List Part} {K0 s : State} {p : PortId} (hKp : [.mem, .cache] ⊆ Kp) (hK : Keeps Kp K0 s) :
    Keeps Kp K0 (refillCmb p s) := by
  unfold refillCmb
  with_reducible repeat' first
    | assumption
    | refine keeps_cacheForget (subP hKp (by decide)) ?_
    | exact .inl rfl
    | exact .inr (memP hKp (by decide))
    | exact id
    | exact wf_of rfl rfl
    | exact fun h => memStore_wf h
    | exact fun h => memUpset_wf h
    | exact fun h => fillHost_wf h
    | exact fun _ => wf_nil (by unfold fillAll; rfl)
    | apply Keeps.upd

theorem keeps_takeCmbSize {Kp : List Part} {K0 s : State} {p : PortId} (hKp : [.mem, .cache] ⊆ Kp) (hK : Keeps Kp K0 s) :
    Keeps Kp K0 (takeCmbSize p s) := by
  unfold takeCmbSize
  with_reducible repeat' first
    | assumption
    | refine keeps_refillCmb (subP hKp (by decide)) ?_
    | refine Keeps.ite ?_ ?_
    | exact .inl rfl
    | exact .inr (memP hKp (by decide))
    | exact id
    | exact wf_of rfl rfl
    | exact fun h => memStore_wf h
    | exact fun h => memUpset_wf h
    | exact fun h => fillHost_wf h
    | exact fun _ => wf_nil (by unfold fillAll; rfl)
    | apply Keeps.upd

theorem keeps_resetWrite {Kp : List Part} {K0 s : State} {f : Flight} (hKp : [.teams, .host] ⊆ Kp) (hK : Keeps Kp K0 s) :
    Keeps Kp K0 (resetWrite f s) := by
  unfold resetWrite
  with_reducible repeat' first
    | assumption
    | refine keeps_addZeros (subP hKp (by decide)) ?_
    | refine keeps_setExtent (subP hKp (by decide)) ?_
    | refine keeps_setFlight (subP hKp (by decide)) ?_
    | refine Keeps.fold2 _ _ _ (fun _ _ _ => ?_) ?_
    | refine Keeps.foldl _ _ _ (fun _ _ _ => ?_) ?_
    | split

theorem keeps_resetFlights {Kp : List Part} {K0 s : State} {p : PortId} (hKp : [.sent, .reg, .teams, .host, .pair, .work] ⊆ Kp) (hK : Keeps Kp K0 s) :
    Keeps Kp K0 (resetFlights p s) := by
  unfold resetFlights
  with_reducible repeat' first
    | assumption
    | refine keeps_resetWrite (subP hKp (by decide)) ?_
    | refine keeps_removeFlight (subP hKp (by decide)) ?_
    | refine keeps_zoneReceive (subP hKp (by decide)) ?_
    | refine Keeps.fold2 _ _ _ (fun _ _ _ => ?_) ?_
    | refine Keeps.foldl _ _ _ (fun _ _ _ => ?_) ?_
    | split

theorem keeps_controllerReset {Kp : List Part} {K0 s : State} {p : PortId} (hKp : [.sent, .reg, .dict, .teams, .host, .mem, .cache, .pair, .work] ⊆ Kp) (hK : Keeps Kp K0 s) :
    Keeps Kp K0 (controllerReset p s) := by
  unfold controllerReset
  with_reducible repeat' first
    | assumption
    | refine keeps_resetFlights (subP hKp (by decide)) ?_
    | refine keeps_takeCmbSize (subP hKp (by decide)) ?_
    | refine keeps_setCtrl (subP hKp (by decide)) ?_
    | exact .inl rfl
    | exact .inr (memP hKp (by decide))
    | exact id
    | exact dict_of rfl
    | split
    | apply Keeps.upd

theorem keeps_execControllerReset {Kp : List Part} {K0 s : State} {ctrl : PortId} (hKp : [.sent, .reg, .dict, .log, .life, .teams, .alert, .host, .mem, .cache, .pair, .work] ⊆ Kp) (hK : Keeps Kp K0 s) :
    KeepsO Kp K0 (execControllerReset ctrl s) := by
  unfold execControllerReset
  with_reducible repeat' first
    | assumption
    | refine KeepsO.next ?_
    | refine keeps_carriedCheck (subP hKp (by decide)) ?_
    | refine keeps_controllerReset (subP hKp (by decide)) ?_

theorem keeps_execPcieLinkDown {Kp : List Part} {K0 s : State} {port : PortId} (hKp : [.sent, .reg, .dict, .log, .life, .teams, .alert, .host, .mem, .cache, .pair, .work] ⊆ Kp) (hK : Keeps Kp K0 s) :
    KeepsO Kp K0 (execPcieLinkDown port s) := by
  unfold execPcieLinkDown
  with_reducible repeat' first
    | assumption
    | refine KeepsO.next ?_
    | refine keeps_carriedCheck (subP hKp (by decide)) ?_
    | refine keeps_controllerReset (subP hKp (by decide)) ?_
    | refine keeps_setCtrl (subP hKp (by decide)) ?_

theorem keeps_execControllerEnable {Kp : List Part} {K0 s : State} {ctrl : PortId} {ams : Nat} {aqa : Nat} (hKp : [.sent, .dict, .log, .life, .alert, .host] ⊆ Kp) (hK : Keeps Kp K0 s) :
    KeepsO Kp K0 (execControllerEnable ctrl ams aqa s) := by
  unfold execControllerEnable
  with_reducible repeat' first
    | assumption
    | refine KeepsO.next ?_
    | refine KeepsO.ite ?_ ?_
    | refine keeps_startupCheck (subP hKp (by decide)) ?_
    | refine keeps_setCtrl (subP hKp (by decide)) ?_
    | refine Keeps.ite ?_ ?_

theorem keeps_execShutdownNotify {Kp : List Part} {K0 s : State} {ctrl : PortId} (hKp : [.life, .host] ⊆ Kp) (hK : Keeps Kp K0 s) :
    KeepsO Kp K0 (execShutdownNotify ctrl s) := by
  unfold execShutdownNotify
  with_reducible repeat' first
    | assumption
    | refine KeepsO.next ?_
    | refine keeps_setCtrl (subP hKp (by decide)) ?_
    | exact .inl rfl
    | exact .inr (memP hKp (by decide))
    | exact id
    | apply Keeps.upd

end Sys2Proof.Machine
end

