-- ==== Sys2Proof/Laws/KeepsWarning.lean ====
section
/-! SUPPORT. What the operations of Warning.lean keep. -/

namespace Sys2Proof.Machine

set_option linter.unusedTactic false
set_option linter.unreachableTactic false
set_option linter.unusedVariables false

theorem keeps_warningCheck {Kp : List Part} {K0 s : State}  (hKp : [.sent, .host] ⊆ Kp) (hK : Keeps Kp K0 s) :
    Keeps Kp K0 (warningCheck s) := by
  unfold warningCheck
  with_reducible repeat' first
    | assumption
    | refine keeps_setCtrl (subP hKp (by decide)) ?_
    | refine keeps_asyncEvent (subP hKp (by decide)) ?_
    | refine Keeps.fold2 _ _ _ (fun _ _ _ => ?_) ?_
    | refine Keeps.foldl _ _ _ (fun _ _ _ => ?_) ?_
    | refine Keeps.ite ?_ ?_

end Sys2Proof.Machine
end

