-- ==== Sys2Proof/Laws/KeepsTeam.lean ====
section
/-! SUPPORT. What the operations of Team.lean keep. -/

namespace Sys2Proof.Machine

set_option linter.unusedTactic false
set_option linter.unreachableTactic false
set_option linter.unusedVariables false

theorem keeps_teamAttach {Kp : List Part} {K0 s : State} {t : TeamId} {l : List (LaneId × Seen)} (hKp : [.sent, .dict, .log, .life, .teams, .alert, .host] ⊆ Kp) (hK : Keeps Kp K0 s) :
    Keeps Kp K0 (teamAttach t l s) := by
  unfold teamAttach
  with_reducible repeat' first
    | assumption
    | refine keeps_raise (subP hKp (by decide)) ?_
    | refine keeps_setTeam (subP hKp (by decide)) ?_
    | refine keeps_nsLeave (subP hKp (by decide)) ?_
    | refine keeps_setNs (subP hKp (by decide)) ?_
    | refine keeps_nsEnter (subP hKp (by decide)) ?_
    | refine keeps_checkReadOnly (subP hKp (by decide)) ?_
    | refine keeps_anaChange (subP hKp (by decide)) ?_
    | refine Keeps.ite ?_ ?_

theorem keeps_teamDetach {Kp : List Part} {K0 s : State} {t : TeamId} {st : TeamState} (hKp : [.sent, .dict, .log, .life, .teams, .alert, .host] ⊆ Kp) (hK : Keeps Kp K0 s) :
    Keeps Kp K0 (teamDetach t st s) := by
  unfold teamDetach
  with_reducible repeat' first
    | assumption
    | refine keeps_anaChange (subP hKp (by decide)) ?_
    | refine keeps_raise (subP hKp (by decide)) ?_
    | refine keeps_setNs (subP hKp (by decide)) ?_
    | refine keeps_setTeam (subP hKp (by decide)) ?_

theorem keeps_evaluateTeam {Kp : List Part} {K0 s : State} {t : TeamId} {cause : Option LaneId} (hKp : [.sent, .dict, .log, .life, .teams, .alert, .host] ⊆ Kp) (hK : Keeps Kp K0 s) :
    Keeps Kp K0 (evaluateTeam t cause s) := by
  unfold evaluateTeam
  with_reducible repeat' first
    | assumption
    | refine keeps_teamDetach (subP hKp (by decide)) ?_
    | refine keeps_teamAttach (subP hKp (by decide)) ?_
    | refine keeps_setTeam (subP hKp (by decide)) ?_
    | refine keeps_raise (subP hKp (by decide)) ?_
    | refine keeps_nsLeave (subP hKp (by decide)) ?_
    | refine keeps_warningCheck (subP hKp (by decide)) ?_
    | refine keeps_startupCheck (subP hKp (by decide)) ?_
    | refine Keeps.ite ?_ ?_

theorem keeps_evaluateLane {Kp : List Part} {K0 s : State} {n : LaneId} (hKp : [.sent, .dict, .log, .life, .teams, .alert, .host] ⊆ Kp) (hK : Keeps Kp K0 s) :
    Keeps Kp K0 (evaluateLane n s) := by
  unfold evaluateLane
  with_reducible repeat' first
    | assumption
    | refine keeps_evaluateTeam (subP hKp (by decide)) ?_
    | split

theorem keeps_raiseIdentified {Kp : List Part} {K0 s : State} {n : LaneId} (hKp : [.sent, .dict, .log, .life, .alert] ⊆ Kp) (hK : Keeps Kp K0 s) :
    Keeps Kp K0 (raiseIdentified n s) := by
  unfold raiseIdentified
  with_reducible repeat' first
    | assumption
    | refine keeps_raise (subP hKp (by decide)) ?_

theorem keeps_takeIdentity {Kp : List Part} {K0 s : State} {n : LaneId} {rec : Bytes} (hKp : [.lanes] ⊆ Kp) (hK : Keeps Kp K0 s) :
    Keeps Kp K0 (takeIdentity n rec s) := by
  unfold takeIdentity
  with_reducible repeat' first
    | assumption
    | refine keeps_setLane (subP hKp (by decide)) ?_
    | refine Keeps.ite ?_ ?_

theorem keeps_abortCreation {Kp : List Part} {K0 s : State} {t : TeamId} (hKp : [.sent, .dict, .log, .life, .lanes, .teams, .alert, .host] ⊆ Kp) (hK : Keeps Kp K0 s) :
    Keeps Kp K0 (abortCreation t s) := by
  unfold abortCreation
  with_reducible repeat' first
    | assumption
    | refine keeps_setTeam (subP hKp (by decide)) ?_
    | refine keeps_evaluateTeam (subP hKp (by decide)) ?_
    | refine keeps_raiseIdentified (subP hKp (by decide)) ?_
    | refine keeps_takeIdentity (subP hKp (by decide)) ?_
    | refine Keeps.fold2 _ _ _ (fun _ _ _ => ?_) ?_
    | refine Keeps.foldl _ _ _ (fun _ _ _ => ?_) ?_
    | split

theorem keeps_abortCreationOf {Kp : List Part} {K0 s : State} {n : LaneId} (hKp : [.sent, .dict, .log, .life, .lanes, .teams, .alert, .host] ⊆ Kp) (hK : Keeps Kp K0 s) :
    Keeps Kp K0 (abortCreationOf n s) := by
  unfold abortCreationOf
  with_reducible repeat' first
    | assumption
    | refine keeps_abortCreation (subP hKp (by decide)) ?_
    | split

end Sys2Proof.Machine
end

