-- ==== Sys2Proof/Laws/KeepsWrite.lean ====
section
/-! SUPPORT. What the operations of Write.lean keep. -/

namespace Sys2Proof.Machine

set_option linter.unusedTactic false
set_option linter.unreachableTactic false
set_option linter.unusedVariables false

theorem keeps_setWr {Kp : List Part} {K0 s : State} {n : LaneId} {f : WritePath → WritePath} (hKp : [.lanes] ⊆ Kp) (hK : Keeps Kp K0 s) :
    Keeps Kp K0 (setWr n f s) := by
  unfold setWr
  with_reducible repeat' first
    | assumption
    | refine keeps_setLane (subP hKp (by decide)) ?_

theorem keeps_setDisc {Kp : List Part} {K0 s : State} {n : LaneId} {f : Disc → Disc} (hKp : [.lanes] ⊆ Kp) (hK : Keeps Kp K0 s) :
    Keeps Kp K0 (setDisc n f s) := by
  unfold setDisc
  with_reducible repeat' first
    | assumption
    | refine keeps_setLane (subP hKp (by decide)) ?_

theorem keeps_setPass {Kp : List Part} {K0 s : State} {n : LaneId} {f : Pass → Pass} (hKp : [.lanes] ⊆ Kp) (hK : Keeps Kp K0 s) :
    Keeps Kp K0 (setPass n f s) := by
  unfold setPass
  with_reducible repeat' first
    | assumption
    | refine keeps_setWr (subP hKp (by decide)) ?_

theorem keeps_enterReloc {Kp : List Part} {K0 s : State} {n : LaneId} {e : RelocEntry} (hKp : [.lanes] ⊆ Kp) (hK : Keeps Kp K0 s) :
    Keeps Kp K0 (enterReloc n e s) := by
  unfold enterReloc
  with_reducible repeat' first
    | assumption
    | refine keeps_setDisc (subP hKp (by decide)) ?_
    | refine Keeps.ite ?_ ?_

theorem keeps_checkOuter {Kp : List Part} {K0 s : State} {n : LaneId} {pos : Fin 32} (hKp : [.sent, .dict, .log, .life, .lanes, .teams, .alert, .host] ⊆ Kp) (hK : Keeps Kp K0 s) :
    Keeps Kp K0 (checkOuter n pos s) := by
  unfold checkOuter
  with_reducible repeat' first
    | assumption
    | refine keeps_checkReadOnlyLane (subP hKp (by decide)) ?_
    | refine keeps_raise (subP hKp (by decide)) ?_
    | refine keeps_setDisc (subP hKp (by decide)) ?_
    | refine Keeps.ite ?_ ?_
    | split

theorem keeps_skipSlot {Kp : List Part} {K0 s : State} {n : LaneId} {layer : Nat} {k : Nat} {slot : Nat} (hKp : [.sent, .dict, .log, .life, .lanes, .teams, .alert, .host] ⊆ Kp) (hK : Keeps Kp K0 s) :
    Keeps Kp K0 (skipSlot n layer k slot s) := by
  unfold skipSlot
  with_reducible repeat' first
    | assumption
    | refine keeps_checkOuter (subP hKp (by decide)) ?_
    | refine keeps_setDisc (subP hKp (by decide)) ?_
    | refine keeps_enterReloc (subP hKp (by decide)) ?_

theorem keeps_orderTo {Kp : List Part} {K0 s : State} {n : LaneId} {layer : Nat} {band : Nat} (hKp : [.lanes] ⊆ Kp) (hK : Keeps Kp K0 s) :
    Keeps Kp K0 (orderTo n layer band s) := by
  unfold orderTo
  with_reducible repeat' first
    | assumption
    | refine keeps_setLane (subP hKp (by decide)) ?_

theorem keeps_loadStrategies {Kp : List Part} {K0 s : State} {n : LaneId} {layer : Nat} (hKp : [.sent, .lanes, .ports] ⊆ Kp) (hK : Keeps Kp K0 s) :
    Keeps Kp K0 (loadStrategies n layer s) := by
  unfold loadStrategies
  with_reducible repeat' first
    | assumption
    | refine keeps_sendLaser (subP hKp (by decide)) ?_
    | refine keeps_setWr (subP hKp (by decide)) ?_
    | refine Keeps.fold2 _ _ _ (fun _ _ _ => ?_) ?_
    | refine Keeps.foldl _ _ _ (fun _ _ _ => ?_) ?_
    | refine Keeps.ite ?_ ?_
    | split

theorem keeps_beginSession {Kp : List Part} {K0 s : State} {n : LaneId} (hKp : [.lanes] ⊆ Kp) (hK : Keeps Kp K0 s) :
    Keeps Kp K0 (beginSession n s) := by
  unfold beginSession
  with_reducible repeat' first
    | assumption
    | refine keeps_setDisc (subP hKp (by decide)) ?_
    | refine Keeps.ite ?_ ?_

theorem keeps_skipRecorded {Kp : List Part} {K0 s : State} {n : LaneId} {layer : Nat} {slot : Nat} {ks : List Nat} (hKp : [.sent, .dict, .log, .life, .lanes, .teams, .alert, .host] ⊆ Kp) (hK : Keeps Kp K0 s) :
    Keeps Kp K0 (skipRecorded n layer slot ks s) := by
  unfold skipRecorded
  with_reducible repeat' first
    | assumption
    | refine keeps_raise (subP hKp (by decide)) ?_
    | refine keeps_skipSlot (subP hKp (by decide)) ?_
    | refine Keeps.fold2 _ _ _ (fun _ _ _ => ?_) ?_
    | refine Keeps.foldl _ _ _ (fun _ _ _ => ?_) ?_

theorem keeps_countEnergy {Kp : List Part} {K0 s : State} {n : LaneId} {gated : List Nat} (hKp : [.lanes] ⊆ Kp) (hK : Keeps Kp K0 s) :
    Keeps Kp K0 (countEnergy n gated s) := by
  unfold countEnergy
  with_reducible repeat' first
    | assumption
    | refine keeps_setLane (subP hKp (by decide)) ?_
    | refine Keeps.ite ?_ ?_

theorem keeps_takeSector {Kp : List Part} {K0 s : State} {e : Extent} {pos : Nat} (hKp : [.sent, .reg, .dict, .log, .life, .alert, .mem, .cache] ⊆ Kp) (hK : Keeps Kp K0 s) :
    Keeps Kp K0 (takeSector e pos s).2 := by
  unfold takeSector
  dsimp only
  with_reducible repeat' first
    | assumption
    | refine keeps_bufferRead (subP hKp (by decide)) ?_
    | refine Keeps.ite ?_ ?_
    | split

theorem keeps_refuseSector {Kp : List Part} {K0 s : State} {n : LaneId} {pt : PassTrack} {pos : Nat} {mark : Nat} (hKp : [.sent, .reg, .dict, .log, .life, .teams, .alert] ⊆ Kp) (hK : Keeps Kp K0 s) :
    Keeps Kp K0 (refuseSector n pt pos mark s) := by
  unfold refuseSector
  with_reducible repeat' first
    | assumption
    | refine keeps_raise (subP hKp (by decide)) ?_
    | refine keeps_lbump (subP hKp (by decide)) ?_
    | refine keeps_addZeros (subP hKp (by decide)) ?_
    | refine keeps_setExtent (subP hKp (by decide)) ?_
    | refine Keeps.ite ?_ ?_

theorem keeps_buildSector {Kp : List Part} {K0 s : State} {n : LaneId} {layer : Nat} {k : Nat} {sec : Nat} {pt : PassTrack} {d : Disc} (hKp : [.sent, .reg, .dict, .log, .life, .teams, .alert, .mem, .cache] ⊆ Kp) (hK : Keeps Kp K0 s) :
    Keeps Kp K0 (buildSector n layer k sec pt d s).2.2 := by
  unfold buildSector
  with_reducible repeat' first
    | assumption
    | refine keeps_takeSector (subP hKp (by decide)) ?_
    | refine keeps_refuseSector (subP hKp (by decide)) ?_
    | refine Keeps.ite ?_ ?_
    | refine Keeps.snd (by assumption) ?_
    | split

theorem keeps_setTrack {Kp : List Part} {K0 s : State} {n : LaneId} {k : TrackId} {f : PassTrack → PassTrack} (hKp : [.lanes] ⊆ Kp) (hK : Keeps Kp K0 s) :
    Keeps Kp K0 (setTrack n k f s) := by
  unfold setTrack
  with_reducible repeat' first
    | assumption
    | refine keeps_setPass (subP hKp (by decide)) ?_

theorem keeps_encodeSector {Kp : List Part} {K0 s : State} {n : LaneId} {sec : Nat} {k : TrackId} (hKp : [.sent, .reg, .dict, .log, .life, .lanes, .teams, .alert, .mem, .cache] ⊆ Kp) (hK : Keeps Kp K0 s) :
    Keeps Kp K0 (encodeSector n sec k s) := by
  unfold encodeSector
  extract_lets
  with_reducible repeat' first
    | assumption
    | refine keeps_setTrack (subP hKp (by decide)) ?_
    | refine keeps_buildSector (subP hKp (by decide)) ?_
    | refine Keeps.ite ?_ ?_
    | refine Keeps.snd2 (by assumption) ?_
    | split

theorem keeps_encodeNext {Kp : List Part} {K0 s : State} {n : LaneId} {sec : Nat} (hKp : [.sent, .reg, .dict, .log, .life, .lanes, .teams, .alert, .mem, .cache] ⊆ Kp) (hK : Keeps Kp K0 s) :
    Keeps Kp K0 (encodeNext n sec s) := by
  unfold encodeNext
  with_reducible repeat' first
    | assumption
    | refine keeps_encodeSector (subP hKp (by decide)) ?_
    | refine Keeps.fold2 _ _ _ (fun _ _ _ => ?_) ?_
    | refine Keeps.foldl _ _ _ (fun _ _ _ => ?_) ?_
    | refine Keeps.ite ?_ ?_

theorem keeps_startPass {Kp : List Part} {K0 s : State} {n : LaneId} {layer : Nat} {slot : Nat} {good : List (Nat × TeamId × Nat)} (hKp : [.sent, .reg, .dict, .log, .life, .lanes, .teams, .alert, .mem, .cache, .ports] ⊆ Kp) (hK : Keeps Kp K0 s) :
    Keeps Kp K0 (startPass n layer slot good s) := by
  unfold startPass
  with_reducible repeat' first
    | assumption
    | refine keeps_encodeNext (subP hKp (by decide)) ?_
    | refine keeps_enter (subP hKp (by decide)) ?_
    | refine keeps_setWr (subP hKp (by decide)) ?_
    | refine keeps_loadStrategies (subP hKp (by decide)) ?_
    | refine keeps_passBegins (subP hKp (by decide)) ?_
    | refine keeps_beginSession (subP hKp (by decide)) ?_

theorem keeps_beginPass {Kp : List Part} {K0 s : State} {n : LaneId} {layer : Nat} {slot : Nat} {good : List (Nat × TeamId × Nat)} (hKp : [.sent, .reg, .dict, .log, .life, .lanes, .teams, .alert, .mem, .cache, .ports] ⊆ Kp) (hK : Keeps Kp K0 s) :
    Keeps Kp K0 (beginPass n layer slot good s) := by
  unfold beginPass
  with_reducible repeat' first
    | assumption
    | (intro _; try intros)
    | refine keeps_orderNow (subP hKp (by decide)) ?_ ?_
    | refine keeps_startPass (subP hKp (by decide)) ?_

theorem keeps_slowForWrite {Kp : List Part} {K0 s : State} {n : LaneId} (hKp : [.lanes] ⊆ Kp) (hK : Keeps Kp K0 s) :
    Keeps Kp K0 (slowForWrite n s) := by
  unfold slowForWrite
  with_reducible repeat' first
    | assumption
    | refine keeps_setLane (subP hKp (by decide)) ?_
    | refine Keeps.ite ?_ ?_

theorem keeps_passStart {Kp : List Part} {K0 s0 : State} {n : LaneId} {blank : List (TrackId × Bool)} (hKp : [.sent, .reg, .dict, .log, .life, .lanes, .teams, .alert, .host, .mem, .cache, .ports] ⊆ Kp) (hK : Keeps Kp K0 s0) :
    Keeps Kp K0 (passStart n blank s0) := by
  unfold passStart
  with_reducible repeat' first
    | assumption
    | refine keeps_slowForWrite (subP hKp (by decide)) ?_
    | refine keeps_orderTo (subP hKp (by decide)) ?_
    | refine keeps_skipRecorded (subP hKp (by decide)) ?_
    | refine keeps_beginPass (subP hKp (by decide)) ?_
    | refine Keeps.ite ?_ ?_
    | split

theorem keeps_execPassStart {Kp : List Part} {K0 s : State} {n : LaneId} {blank : List (TrackId × Bool)} (hKp : [.sent, .reg, .dict, .log, .life, .lanes, .teams, .alert, .host, .mem, .cache, .ports] ⊆ Kp) (hK : Keeps Kp K0 s) :
    KeepsO Kp K0 (execPassStart n blank s) := by
  unfold execPassStart
  with_reducible repeat' first
    | assumption
    | refine KeepsO.next ?_
    | refine keeps_passStart (subP hKp (by decide)) ?_

theorem keeps_playTrack {Kp : List Part} {K0 : State} {n : LaneId} {p : Pass} {k : TrackId}
    {acc : List (Nat × List Bool) × State} (hKp : [.reg] ⊆ Kp) (hK : Keeps Kp K0 acc.2) : Keeps Kp K0 (playTrack n p k acc).2 := by
  unfold playTrack
  split
  · exact hK
  · exact keeps_lbump (subP hKp (by decide)) (keeps_lbump (subP hKp (by decide)) hK)

theorem keeps_sectorPlayout {Kp : List Part} {K0 s : State} {n : LaneId} (hKp : [.sent, .reg, .dict, .log, .life, .lanes, .teams, .alert, .mem, .cache, .ports] ⊆ Kp) (hK : Keeps Kp K0 s) :
    Keeps Kp K0 (sectorPlayout n s) := by
  unfold sectorPlayout
  extract_lets
  with_reducible repeat' first
    | assumption
    | refine keeps_detectFault (subP hKp (by decide)) ?_
    | refine keeps_lifeLane (subP hKp (by decide)) ?_
    | refine keeps_playTrack (subP hKp (by decide)) ?_
    | refine keeps_sendSymbols (subP hKp (by decide)) ?_
    | refine keeps_countEnergy (subP hKp (by decide)) ?_
    | refine keeps_setDisc (subP hKp (by decide)) ?_
    | refine keeps_encodeNext (subP hKp (by decide)) ?_
    | refine keeps_setWr (subP hKp (by decide)) ?_
    | refine Keeps.fold2 _ _ _ (fun _ _ _ => ?_) ?_
    | refine Keeps.foldl _ _ _ (fun _ _ _ => ?_) ?_
    | refine Keeps.ite ?_ ?_
    | refine Keeps.snd (by assumption) ?_
    | split

theorem keeps_execSectorPlayout {Kp : List Part} {K0 s : State} {n : LaneId} (hKp : [.sent, .reg, .dict, .log, .life, .lanes, .teams, .alert, .mem, .cache, .ports] ⊆ Kp) (hK : Keeps Kp K0 s) :
    KeepsO Kp K0 (execSectorPlayout n s) := by
  unfold execSectorPlayout
  with_reducible repeat' first
    | assumption
    | refine KeepsO.next ?_
    | refine keeps_sectorPlayout (subP hKp (by decide)) ?_

theorem keeps_settleWrites {Kp : List Part} {K0 s : State} {t : TeamId} (hKp : [.sent, .teams, .host, .pair, .work] ⊆ Kp) (hK : Keeps Kp K0 s) :
    Keeps Kp K0 (settleWrites t s) := by
  unfold settleWrites
  with_reducible repeat' first
    | assumption
    | refine keeps_tryComplete (subP hKp (by decide)) ?_
    | refine Keeps.fold2 _ _ _ (fun _ _ _ => ?_) ?_
    | refine Keeps.foldl _ _ _ (fun _ _ _ => ?_) ?_

theorem keeps_extentVerified {Kp : List Part} {K0 s : State} {n : LaneId} {layer : Nat} {k : TrackId} {slot : Nat} {pt : PassTrack} (hKp : [.sent, .lanes, .teams, .host, .pair, .work] ⊆ Kp) (hK : Keeps Kp K0 s) :
    Keeps Kp K0 (extentVerified n layer k slot pt s) := by
  unfold extentVerified
  with_reducible repeat' first
    | assumption
    | refine keeps_setDisc (subP hKp (by decide)) ?_
    | refine keeps_setNs (subP hKp (by decide)) ?_
    | refine keeps_setExtent (subP hKp (by decide)) ?_
    | refine keeps_postCompletion (subP hKp (by decide)) ?_
    | refine keeps_setWr (subP hKp (by decide)) ?_
    | refine keeps_freeExtents (subP hKp (by decide)) ?_
    | refine keeps_settleWrites (subP hKp (by decide)) ?_
    | refine Keeps.fold2 _ _ _ (fun _ _ _ => ?_) ?_
    | refine Keeps.foldl _ _ _ (fun _ _ _ => ?_) ?_
    | refine Keeps.ite ?_ ?_

theorem keeps_abandonSlot {Kp : List Part} {K0 s : State} {n : LaneId} {layer : Nat} {k : TrackId} {slot : Nat} {e : Nat} {failed : Nat} (hKp : [.sent, .reg, .dict, .log, .life, .lanes, .teams, .alert, .host] ⊆ Kp) (hK : Keeps Kp K0 s) :
    Keeps Kp K0 (abandonSlot n layer k slot e failed s) := by
  unfold abandonSlot
  with_reducible repeat' first
    | assumption
    | refine keeps_setWr (subP hKp (by decide)) ?_
    | refine keeps_postCompletion (subP hKp (by decide)) ?_
    | refine keeps_raise (subP hKp (by decide)) ?_
    | refine keeps_lbump (subP hKp (by decide)) ?_
    | refine keeps_skipSlot (subP hKp (by decide)) ?_
    | refine keeps_warningCheck (subP hKp (by decide)) ?_
    | refine keeps_beginWaits (subP hKp (by decide)) ?_
    | refine Keeps.ite ?_ ?_

theorem keeps_abandonExtent {Kp : List Part} {K0 s : State} {n : LaneId} {p : Pass} {k : TrackId} {pt : PassTrack} (hKp : [.sent, .reg, .dict, .log, .life, .lanes, .teams, .alert, .host] ⊆ Kp) (hK : Keeps Kp K0 s) :
    Keeps Kp K0 (abandonExtent n p k pt s) := by
  unfold abandonExtent
  with_reducible repeat' first
    | assumption
    | refine keeps_abandonSlot (subP hKp (by decide)) ?_
    | refine keeps_setPass (subP hKp (by decide)) ?_

theorem keeps_queueCopy {Kp : List Part} {K0 s : State} {n : LaneId} {p : Pass} {k : TrackId} {pt : PassTrack} {sec : Nat} (hKp : [.sent, .reg, .dict, .log, .life, .lanes, .teams, .alert, .mem, .cache] ⊆ Kp) (hK : Keeps Kp K0 s) :
    Keeps Kp K0 (queueCopy n p k pt sec s) := by
  unfold queueCopy
  with_reducible repeat' first
    | assumption
    | refine keeps_takeSector (subP hKp (by decide)) ?_
    | refine keeps_setWr (subP hKp (by decide)) ?_
    | refine keeps_refuseSector (subP hKp (by decide)) ?_
    | refine keeps_enterReloc (subP hKp (by decide)) ?_
    | refine Keeps.ite ?_ ?_
    | refine Keeps.snd (by assumption) ?_
    | split

theorem keeps_endVerifyFrame {Kp : List Part} {K0 s : State} {n : LaneId} {k : TrackId} {psa : Nat} (hKp : [.reg, .lanes] ⊆ Kp) (hK : Keeps Kp K0 s) :
    Keeps Kp K0 (endVerifyFrame n k psa s) := by
  unfold endVerifyFrame
  with_reducible repeat' first
    | assumption
    | refine keeps_lbump (subP hKp (by decide)) ?_
    | refine keeps_setLane (subP hKp (by decide)) ?_

theorem keeps_sectorFailed {Kp : List Part} {K0 s : State} {n : LaneId} {p : Pass} {k : TrackId} {pt : PassTrack} {sec : Nat} (hKp : [.sent, .reg, .dict, .log, .life, .lanes, .teams, .alert, .mem, .cache] ⊆ Kp) (hK : Keeps Kp K0 s) :
    Keeps Kp K0 (sectorFailed n p k pt sec s) := by
  unfold sectorFailed
  with_reducible repeat' first
    | assumption
    | refine keeps_lbump (subP hKp (by decide)) ?_
    | refine keeps_queueCopy (subP hKp (by decide)) ?_
    | refine keeps_enterReloc (subP hKp (by decide)) ?_
    | refine Keeps.ite ?_ ?_

theorem keeps_sectorVerify {Kp : List Part} {K0 s : State} {n : LaneId} {k : TrackId} {v : VerifyRead} (hKp : [.sent, .reg, .dict, .log, .life, .lanes, .teams, .alert, .host, .mem, .cache, .pair, .work] ⊆ Kp) (hK : Keeps Kp K0 s) :
    Keeps Kp K0 (sectorVerify n k v s) := by
  unfold sectorVerify
  with_reducible repeat' first
    | assumption
    | refine keeps_setPass (subP hKp (by decide)) ?_
    | refine keeps_endVerifyFrame (subP hKp (by decide)) ?_
    | refine keeps_sectorFailed (subP hKp (by decide)) ?_
    | refine keeps_abandonExtent (subP hKp (by decide)) ?_
    | refine keeps_extentVerified (subP hKp (by decide)) ?_
    | refine Keeps.ite ?_ ?_
    | split

theorem keeps_execSectorVerify {Kp : List Part} {K0 s : State} {n : LaneId} {k : TrackId} {v : VerifyRead} (hKp : [.sent, .reg, .dict, .log, .life, .lanes, .teams, .alert, .host, .mem, .cache, .pair, .work] ⊆ Kp) (hK : Keeps Kp K0 s) :
    KeepsO Kp K0 (execSectorVerify n k v s) := by
  unfold execSectorVerify
  with_reducible repeat' first
    | assumption
    | refine KeepsO.next ?_
    | refine keeps_sectorVerify (subP hKp (by decide)) ?_

theorem keeps_cutPass {Kp : List Part} {K0 s : State} {n : LaneId} (hKp : [.sent, .dict, .log, .life, .lanes, .teams, .alert, .host] ⊆ Kp) (hK : Keeps Kp K0 s) :
    Keeps Kp K0 (cutPass n s) := by
  unfold cutPass
  with_reducible repeat' first
    | assumption
    | refine keeps_skipSlot (subP hKp (by decide)) ?_
    | refine keeps_setWr (subP hKp (by decide)) ?_
    | refine Keeps.fold2 _ _ _ (fun _ _ _ => ?_) ?_
    | refine Keeps.foldl _ _ _ (fun _ _ _ => ?_) ?_
    | refine Keeps.ite ?_ ?_
    | split

theorem keeps_moveOffset {Kp : List Part} {K0 s : State} {n : LaneId} {sum : Int} {count : Nat} (hKp : [.lanes] ⊆ Kp) (hK : Keeps Kp K0 s) :
    Keeps Kp K0 (moveOffset n sum count s) := by
  unfold moveOffset
  with_reducible repeat' first
    | assumption
    | refine keeps_setWr (subP hKp (by decide)) ?_
    | refine Keeps.ite ?_ ?_

theorem keeps_leaveWriting {Kp : List Part} {K0 s : State} {n : LaneId} (hKp : [.lanes] ⊆ Kp) (hK : Keeps Kp K0 s) :
    Keeps Kp K0 (leaveWriting n s) := by
  unfold leaveWriting
  with_reducible repeat' first
    | assumption
    | refine keeps_enter (subP hKp (by decide)) ?_
    | refine keeps_idleChannels (subP hKp (by decide)) ?_
    | refine keeps_setLane (subP hKp (by decide)) ?_
    | refine Keeps.ite ?_ ?_

theorem keeps_passEnd {Kp : List Part} {K0 s : State} {n : LaneId} (hKp : [.sent, .dict, .log, .life, .lanes, .teams, .alert, .host] ⊆ Kp) (hK : Keeps Kp K0 s) :
    Keeps Kp K0 (passEnd n s) := by
  unfold passEnd
  with_reducible repeat' first
    | assumption
    | refine keeps_collect (subP hKp (by decide)) ?_
    | refine keeps_leaveWriting (subP hKp (by decide)) ?_
    | refine keeps_setWr (subP hKp (by decide)) ?_
    | refine keeps_moveOffset (subP hKp (by decide)) ?_
    | refine keeps_cutPass (subP hKp (by decide)) ?_
    | refine Keeps.ite ?_ ?_
    | split

theorem keeps_asWriting {Kp : List Part} {K0 s : State} {n : LaneId} {f : State → State} (hKp : [.lanes] ⊆ Kp) (hK : Keeps Kp K0 s) (hk : ∀ q, Keeps Kp K0 q → Keeps Kp K0 (f q)) :
    Keeps Kp K0 (asWriting n f s) := by
  unfold asWriting
  with_reducible repeat' first
    | assumption
    | refine keeps_enter (subP hKp (by decide)) ?_
    | refine keeps_setLane (subP hKp (by decide)) ?_
    | refine Keeps.ite ?_ ?_
    | apply hk

theorem keeps_dropRefresh {Kp : List Part} {K0 s : State} {n : LaneId} {reason : Nat} {p : Copy → Bool} (hKp : [.sent, .reg, .dict, .log, .life, .lanes, .alert] ⊆ Kp) (hK : Keeps Kp K0 s) :
    Keeps Kp K0 (dropRefresh n reason p s) := by
  unfold dropRefresh
  with_reducible repeat' first
    | assumption
    | refine keeps_raise (subP hKp (by decide)) ?_
    | refine keeps_lbump (subP hKp (by decide)) ?_
    | refine keeps_setWr (subP hKp (by decide)) ?_
    | refine Keeps.ite ?_ ?_

theorem keeps_checkSpare {Kp : List Part} {K0 s : State} {n : LaneId} {layer : Nat} {k : Nat} (hKp : [.sent, .reg, .dict, .log, .life, .lanes, .alert] ⊆ Kp) (hK : Keeps Kp K0 s) :
    Keeps Kp K0 (checkSpare n layer k s) := by
  unfold checkSpare
  with_reducible repeat' first
    | assumption
    | refine keeps_raise (subP hKp (by decide)) ?_
    | refine keeps_setDisc (subP hKp (by decide)) ?_
    | refine keeps_dropRefresh (subP hKp (by decide)) ?_
    | refine Keeps.ite ?_ ?_
    | split

theorem keeps_loadCopy {Kp : List Part} {K0 : State} {n : LaneId} {c : Copy} {acc : List Copy × State}
    (hKp : [.sent, .reg, .dict, .log, .life, .alert, .mem, .cache] ⊆ Kp) (hK : Keeps Kp K0 acc.2) : Keeps Kp K0 (loadCopy n c acc).2 := by
  unfold loadCopy
  split
  · exact hK
  · split
    rename_i h
    have k := Keeps.snd h (keeps_bufferRead (subP hKp (by decide)) hK)
    split
    · exact k
    · exact keeps_lbump (subP hKp (by decide)) k

theorem keeps_copyVerified {Kp : List Part} {K0 s : State} {n : LaneId} {c : Copy} (hKp : [.sent, .reg, .lanes, .teams, .host, .pair, .work] ⊆ Kp) (hK : Keeps Kp K0 s) :
    Keeps Kp K0 (copyVerified n c s) := by
  unfold copyVerified
  dsimp only
  with_reducible repeat' first
    | assumption
    | refine keeps_lbump (subP hKp (by decide)) ?_
    | refine keeps_setTrack (subP hKp (by decide)) ?_
    | refine keeps_freeExtents (subP hKp (by decide)) ?_
    | refine keeps_settleWrites (subP hKp (by decide)) ?_
    | refine keeps_setExtent (subP hKp (by decide)) ?_
    | refine Keeps.ite ?_ ?_
    | split

theorem keeps_abandonVerified {Kp : List Part} {K0 s : State} {n : LaneId} {c : Copy} (hKp : [.sent, .reg, .dict, .log, .life, .lanes, .teams, .alert, .host] ⊆ Kp) (hK : Keeps Kp K0 s) :
    Keeps Kp K0 (abandonVerified n c s) := by
  unfold abandonVerified
  with_reducible repeat' first
    | assumption
    | refine keeps_abandonSlot (subP hKp (by decide)) ?_
    | refine keeps_setDisc (subP hKp (by decide)) ?_
    | refine keeps_setExtent (subP hKp (by decide)) ?_
    | split

theorem keeps_requeue {Kp : List Part} {K0 s : State} {n : LaneId} {c : Copy} (hKp : [.sent, .reg, .dict, .log, .life, .lanes, .teams, .alert, .host] ⊆ Kp) (hK : Keeps Kp K0 s) :
    Keeps Kp K0 (requeue n c s) := by
  unfold requeue
  with_reducible repeat' first
    | assumption
    | refine keeps_setWr (subP hKp (by decide)) ?_
    | refine keeps_lbump (subP hKp (by decide)) ?_
    | refine keeps_abandonVerified (subP hKp (by decide)) ?_
    | refine Keeps.ite ?_ ?_
    | split

theorem keeps_recordCopies {Kp : List Part} {K0 s : State} {n : LaneId} {layer : Nat} {k : TrackId} {band : Nat} {q : Nat} {cs : List Copy} {ok : Nat → Bool} (hKp : [.sent, .reg, .dict, .log, .life, .lanes, .teams, .alert, .host, .pair, .work] ⊆ Kp) (hK : Keeps Kp K0 s) :
    Keeps Kp K0 (recordCopies n layer k band q cs ok s) := by
  unfold recordCopies
  with_reducible repeat' first
    | assumption
    | refine keeps_enterReloc (subP hKp (by decide)) ?_
    | refine keeps_copyVerified (subP hKp (by decide)) ?_
    | refine keeps_requeue (subP hKp (by decide)) ?_
    | refine keeps_lbump (subP hKp (by decide)) ?_
    | refine Keeps.fold2 _ _ _ (fun _ _ _ => ?_) ?_
    | refine Keeps.foldl _ _ _ (fun _ _ _ => ?_) ?_
    | refine Keeps.ite ?_ ?_
    | split

theorem keeps_playExtent {Kp : List Part} {K0 s : State} {n : LaneId} {switch : Bool} {tracks : List (Nat × List Bytes × (Nat → Nat))} (hKp : [.sent, .lanes, .ports] ⊆ Kp) (hK : Keeps Kp K0 s) :
    Keeps Kp K0 (playExtent n switch tracks s) := by
  unfold playExtent
  with_reducible repeat' first
    | assumption
    | refine keeps_sendSymbols (subP hKp (by decide)) ?_
    | refine keeps_countEnergy (subP hKp (by decide)) ?_
    | refine Keeps.fold2 _ _ _ (fun _ _ _ => ?_) ?_
    | refine Keeps.foldl _ _ _ (fun _ _ _ => ?_) ?_

theorem keeps_playReloc {Kp : List Part} {K0 s : State} {n : LaneId} {d : Disc} {layer : Nat} {band : Nat} {use : List RelocUse} (hKp : [.sent, .lanes, .ports] ⊆ Kp) (hK : Keeps Kp K0 s) :
    Keeps Kp K0 (playReloc n d layer band use s) := by
  unfold playReloc
  with_reducible repeat' first
    | assumption
    | refine keeps_playExtent (subP hKp (by decide)) ?_
    | refine Keeps.fold2 _ _ _ (fun _ _ _ => ?_) ?_
    | refine Keeps.foldl _ _ _ (fun _ _ _ => ?_) ?_

theorem keeps_offsetOf {Kp : List Part} {K0 s : State} {n : LaneId} {reads : List VerifyRead} (hKp : [.lanes] ⊆ Kp) (hK : Keeps Kp K0 s) :
    Keeps Kp K0 (offsetOf n reads s) := by
  unfold offsetOf
  with_reducible repeat' first
    | assumption
    | refine keeps_moveOffset (subP hKp (by decide)) ?_
    | refine Keeps.fold2 _ _ _ (fun _ _ _ => ?_) ?_
    | refine Keeps.foldl _ _ _ (fun _ _ _ => ?_) ?_

theorem keeps_loadUses {Kp : List Part} {K0 s : State} {n : LaneId} {use : List RelocUse} (hKp : [.sent, .reg, .dict, .log, .life, .alert, .mem, .cache] ⊆ Kp) (hK : Keeps Kp K0 s) :
    Keeps Kp K0 (loadUses n use s).2 := by
  unfold loadUses
  with_reducible repeat' first
    | assumption
    | refine keeps_loadCopy (subP hKp (by decide)) ?_
    | refine Keeps.fold2 _ _ _ (fun _ _ _ => ?_) ?_
    | refine Keeps.foldl _ _ _ (fun _ _ _ => ?_) ?_
    | refine Keeps.ite ?_ ?_
    | refine Keeps.snd (by assumption) ?_
    | split

theorem keeps_relocate {Kp : List Part} {K0 s : State} {n : LaneId} {layer : Nat} {band : Nat} {taken : List RelocUse} {verify : List (TrackId × List VerifyRead)} (hKp : [.sent, .reg, .dict, .log, .life, .lanes, .teams, .alert, .host, .mem, .cache, .pair, .work, .ports] ⊆ Kp) (hK : Keeps Kp K0 s) :
    Keeps Kp K0 (relocate n layer band taken verify s) := by
  unfold relocate
  with_reducible repeat' first
    | assumption
    | refine keeps_loadUses (subP hKp (by decide)) ?_
    | refine keeps_setWr (subP hKp (by decide)) ?_
    | refine keeps_loadStrategies (subP hKp (by decide)) ?_
    | refine keeps_passBegins (subP hKp (by decide)) ?_
    | refine keeps_beginSession (subP hKp (by decide)) ?_
    | refine keeps_playReloc (subP hKp (by decide)) ?_
    | refine keeps_setDisc (subP hKp (by decide)) ?_
    | refine keeps_lbump (subP hKp (by decide)) ?_
    | refine keeps_checkSpare (subP hKp (by decide)) ?_
    | refine keeps_recordCopies (subP hKp (by decide)) ?_
    | refine keeps_offsetOf (subP hKp (by decide)) ?_
    | refine Keeps.fold2 _ _ _ (fun _ _ _ => ?_) ?_
    | refine Keeps.foldl _ _ _ (fun _ _ _ => ?_) ?_
    | refine Keeps.snd (by assumption) ?_
    | split

theorem keeps_endMove {Kp : List Part} {K0 s : State} {n : LaneId} (hKp : [.lanes] ⊆ Kp) (hK : Keeps Kp K0 s) :
    Keeps Kp K0 (endMove n s) := by
  unfold endMove
  with_reducible repeat' first
    | assumption
    | refine keeps_setLane (subP hKp (by decide)) ?_
    | split

theorem keeps_relocationPass {Kp : List Part} {K0 s : State} {n : LaneId} {verify : List (TrackId × List VerifyRead)} (hKp : [.sent, .reg, .dict, .log, .life, .lanes, .teams, .alert, .host, .mem, .cache, .pair, .work, .ports] ⊆ Kp) (hK : Keeps Kp K0 s) :
    Keeps Kp K0 (relocationPass n verify s) := by
  unfold relocationPass
  dsimp only
  with_reducible repeat' first
    | assumption
    | (intro _; try intros)
    | refine keeps_endMove (subP hKp (by decide)) ?_
    | refine keeps_asWriting (subP hKp (by decide)) ?_ ?_
    | refine keeps_relocate (subP hKp (by decide)) ?_
    | refine Keeps.ite ?_ ?_
    | split

theorem keeps_execRelocationPass {Kp : List Part} {K0 s : State} {n : LaneId} {verify : List (TrackId × List VerifyRead)} (hKp : [.sent, .reg, .dict, .log, .life, .lanes, .teams, .alert, .host, .mem, .cache, .pair, .work, .ports] ⊆ Kp) (hK : Keeps Kp K0 s) :
    KeepsO Kp K0 (execRelocationPass n verify s) := by
  unfold execRelocationPass
  with_reducible repeat' first
    | assumption
    | refine KeepsO.next ?_
    | refine keeps_relocationPass (subP hKp (by decide)) ?_

theorem keeps_relocationMove {Kp : List Part} {K0 s : State} {n : LaneId} (hKp : [.lanes] ⊆ Kp) (hK : Keeps Kp K0 s) :
    Keeps Kp K0 (relocationMove n s) := by
  unfold relocationMove
  extract_lets
  with_reducible repeat' first
    | assumption
    | refine keeps_setLane (subP hKp (by decide)) ?_
    | refine Keeps.ite ?_ ?_
    | split

theorem keeps_execRelocationMove {Kp : List Part} {K0 s : State} {n : LaneId} (hKp : [.lanes] ⊆ Kp) (hK : Keeps Kp K0 s) :
    KeepsO Kp K0 (execRelocationMove n s) := by
  unfold execRelocationMove
  with_reducible repeat' first
    | assumption
    | refine KeepsO.next ?_
    | refine keeps_relocationMove (subP hKp (by decide)) ?_

end Sys2Proof.Machine
end

