-- ==== Sys2Proof/Laws/KeepsWarmUp.lean ====
section
/-! SUPPORT. What the operations of WarmUp.lean keep. -/

namespace Sys2Proof.Machine

set_option linter.unusedTactic false
set_option linter.unreachableTactic false
set_option linter.unusedVariables false

theorem keeps_setWarm {Kp : List Part} {K0 s : State} {n : LaneId} {f : WarmUp → WarmUp} (hKp : [.lanes] ⊆ Kp) (hK : Keeps Kp K0 s) :
    Keeps Kp K0 (setWarm n f s) := by
  unfold setWarm
  with_reducible repeat' first
    | assumption
    | refine keeps_setLane (subP hKp (by decide)) ?_

theorem keeps_putTrims {Kp : List Part} {K0 s : State} {n : LaneId} {vals : List (Nat × Int)} (hKp : [.lanes] ⊆ Kp) (hK : Keeps Kp K0 s) :
    Keeps Kp K0 (putTrims n vals s) := by
  unfold putTrims
  with_reducible repeat' first
    | assumption
    | refine keeps_takeRfAtOnce (subP hKp (by decide)) ?_
    | refine keeps_setWarm (subP hKp (by decide)) ?_
    | refine Keeps.fold2 _ _ _ (fun _ _ _ => ?_) ?_
    | refine Keeps.foldl _ _ _ (fun _ _ _ => ?_) ?_

theorem keeps_leaveHold {Kp : List Part} {K0 s : State} {n : LaneId} (hKp : [.lanes] ⊆ Kp) (hK : Keeps Kp K0 s) :
    Keeps Kp K0 (leaveHold n s) := by
  unfold leaveHold
  with_reducible repeat' first
    | assumption
    | refine keeps_enter (subP hKp (by decide)) ?_
    | refine keeps_setLane (subP hKp (by decide)) ?_
    | refine Keeps.ite ?_ ?_

theorem keeps_opcHold {Kp : List Part} {K0 s : State} {n : LaneId} (hKp : [.lanes] ⊆ Kp) (hK : Keeps Kp K0 s) :
    Keeps Kp K0 (opcHold n s) := by
  unfold opcHold
  with_reducible repeat' first
    | assumption
    | refine keeps_orderTo (subP hKp (by decide)) ?_
    | refine keeps_enter (subP hKp (by decide)) ?_
    | refine keeps_setWarm (subP hKp (by decide)) ?_
    | refine Keeps.ite ?_ ?_
    | split

theorem keeps_opcReturned {Kp : List Part} {K0 s : State} {n : LaneId} (hKp : [.lanes] ⊆ Kp) (hK : Keeps Kp K0 s) :
    Keeps Kp K0 (opcReturned n s) := by
  unfold opcReturned
  extract_lets
  with_reducible repeat' first
    | assumption
    | refine keeps_leaveHold (subP hKp (by decide)) ?_
    | refine keeps_setWarm (subP hKp (by decide)) ?_
    | refine Keeps.ite ?_ ?_
    | split

theorem keeps_holdCheck {Kp : List Part} {K0 s : State} {n : LaneId} (hKp : [.lanes] ⊆ Kp) (hK : Keeps Kp K0 s) :
    Keeps Kp K0 (holdCheck n s) := by
  unfold holdCheck
  with_reducible repeat' first
    | assumption
    | refine keeps_enter (subP hKp (by decide)) ?_
    | refine keeps_opcHold (subP hKp (by decide)) ?_
    | refine Keeps.ite ?_ ?_

theorem keeps_execPassEnd {Kp : List Part} {K0 s : State} {n : LaneId} (hKp : [.sent, .dict, .log, .life, .lanes, .teams, .alert, .host] ⊆ Kp) (hK : Keeps Kp K0 s) :
    KeepsO Kp K0 (execPassEnd n s) := by
  unfold execPassEnd
  with_reducible repeat' first
    | assumption
    | refine KeepsO.next ?_
    | refine keeps_holdCheck (subP hKp (by decide)) ?_
    | refine keeps_passEnd (subP hKp (by decide)) ?_

theorem keeps_warmEnd {Kp : List Part} {K0 s : State} {n : LaneId} (hKp : [.sent, .reg, .dict, .log, .life, .lanes, .alert, .host] ⊆ Kp) (hK : Keeps Kp K0 s) :
    Keeps Kp K0 (warmEnd n s) := by
  unfold warmEnd
  with_reducible repeat' first
    | assumption
    | refine keeps_leaveHold (subP hKp (by decide)) ?_
    | refine keeps_setWarm (subP hKp (by decide)) ?_
    | refine keeps_raise (subP hKp (by decide)) ?_
    | refine keeps_lbump (subP hKp (by decide)) ?_
    | refine keeps_setLane (subP hKp (by decide)) ?_
    | refine keeps_setWr (subP hKp (by decide)) ?_
    | refine keeps_endWaits (subP hKp (by decide)) ?_
    | refine Keeps.ite ?_ ?_

theorem keeps_partResult {Kp : List Part} {K0 s : State} {n : LaneId} {part : Nat} {code : Nat} (hKp : [.sent, .reg, .dict, .log, .life, .lanes, .alert] ⊆ Kp) (hK : Keeps Kp K0 s) :
    Keeps Kp K0 (partResult n part code s) := by
  unfold partResult
  with_reducible repeat' first
    | assumption
    | refine keeps_setWarm (subP hKp (by decide)) ?_
    | refine keeps_raise (subP hKp (by decide)) ?_
    | refine keeps_lbump (subP hKp (by decide)) ?_
    | refine Keeps.ite ?_ ?_

theorem keeps_beginPart {Kp : List Part} {K0 s : State} {n : LaneId} {y0 : Nat} (hKp : [.sent, .reg, .dict, .log, .life, .lanes, .alert, .host] ⊆ Kp) (hK : Keeps Kp K0 s) :
    Keeps Kp K0 (beginPart n y0 s) := by
  induction y0 generalizing s with
  | zero => exact hK
  | succ n ih =>
    unfold beginPart
    with_reducible repeat' first
      | assumption
      | refine ih ?_
      | refine keeps_warmEnd (subP hKp (by decide)) ?_
      | refine keeps_setWarm (subP hKp (by decide)) ?_
      | refine keeps_leaveHold (subP hKp (by decide)) ?_
      | refine keeps_raise (subP hKp (by decide)) ?_
      | refine keeps_partResult (subP hKp (by decide)) ?_
      | refine keeps_opcHold (subP hKp (by decide)) ?_
      | refine Keeps.ite ?_ ?_
      | split

theorem keeps_endPart {Kp : List Part} {K0 s : State} {n : LaneId} {code : Nat} (hKp : [.sent, .reg, .dict, .log, .life, .lanes, .alert, .host] ⊆ Kp) (hK : Keeps Kp K0 s) :
    Keeps Kp K0 (endPart n code s) := by
  unfold endPart
  with_reducible repeat' first
    | assumption
    | refine keeps_beginPart (subP hKp (by decide)) ?_
    | refine keeps_partResult (subP hKp (by decide)) ?_

theorem keeps_warmUpStart {Kp : List Part} {K0 s : State} {n : LaneId} (hKp : [.sent, .reg, .dict, .log, .life, .lanes, .alert, .host] ⊆ Kp) (hK : Keeps Kp K0 s) :
    Keeps Kp K0 (warmUpStart n s) := by
  unfold warmUpStart
  with_reducible repeat' first
    | assumption
    | refine keeps_beginPart (subP hKp (by decide)) ?_
    | refine keeps_lbump (subP hKp (by decide)) ?_
    | refine keeps_setWarm (subP hKp (by decide)) ?_
    | refine Keeps.ite ?_ ?_

theorem keeps_execWarmUpStart {Kp : List Part} {K0 s : State} {n : LaneId} (hKp : [.sent, .reg, .dict, .log, .life, .lanes, .alert, .host] ⊆ Kp) (hK : Keeps Kp K0 s) :
    KeepsO Kp K0 (execWarmUpStart n s) := by
  unfold execWarmUpStart
  with_reducible repeat' first
    | assumption
    | refine KeepsO.next ?_
    | refine keeps_warmUpStart (subP hKp (by decide)) ?_

theorem keeps_warmCut {Kp : List Part} {K0 s : State} {n : LaneId} (hKp : [.sent, .reg, .dict, .log, .life, .lanes, .alert, .host] ⊆ Kp) (hK : Keeps Kp K0 s) :
    Keeps Kp K0 (warmCut n s) := by
  unfold warmCut
  with_reducible repeat' first
    | assumption
    | refine keeps_setWarm (subP hKp (by decide)) ?_
    | refine keeps_warmEnd (subP hKp (by decide)) ?_
    | refine keeps_partResult (subP hKp (by decide)) ?_
    | refine Keeps.ite ?_ ?_

theorem keeps_settlePart {Kp : List Part} {K0 s : State} {n : LaneId} {ok : Bool} {vals : List (Nat × Int)} (hKp : [.sent, .reg, .dict, .log, .life, .lanes, .alert, .host] ⊆ Kp) (hK : Keeps Kp K0 s) :
    Keeps Kp K0 (settlePart n ok vals s) := by
  unfold settlePart
  with_reducible repeat' first
    | assumption
    | refine keeps_endPart (subP hKp (by decide)) ?_
    | refine keeps_putTrims (subP hKp (by decide)) ?_
    | refine Keeps.ite ?_ ?_

theorem keeps_detectorEnd {Kp : List Part} {K0 s : State} {n : LaneId} {samples : List (List Int)} (hKp : [.sent, .reg, .dict, .log, .life, .lanes, .alert] ⊆ Kp) (hK : Keeps Kp K0 s) :
    Keeps Kp K0 (detectorEnd n samples s) := by
  unfold detectorEnd
  with_reducible repeat' first
    | assumption
    | refine keeps_partResult (subP hKp (by decide)) ?_
    | refine keeps_setWarm (subP hKp (by decide)) ?_
    | refine keeps_putTrims (subP hKp (by decide)) ?_
    | refine Keeps.ite ?_ ?_

theorem keeps_probeEnd {Kp : List Part} {K0 s : State} {n : LaneId} (hKp : [.sent, .reg, .dict, .log, .life, .lanes, .alert, .host] ⊆ Kp) (hK : Keeps Kp K0 s) :
    Keeps Kp K0 (probeEnd n s) := by
  unfold probeEnd
  extract_lets
  with_reducible repeat' first
    | assumption
    | refine keeps_setWarm (subP hKp (by decide)) ?_
    | refine keeps_settlePart (subP hKp (by decide)) ?_
    | refine Keeps.ite ?_ ?_
    | split

theorem keeps_warmUpPartEnd {Kp : List Part} {K0 s : State} {n : LaneId} {samples : List (List Int)} (hKp : [.sent, .reg, .dict, .log, .life, .lanes, .alert, .host] ⊆ Kp) (hK : Keeps Kp K0 s) :
    Keeps Kp K0 (warmUpPartEnd n samples s) := by
  unfold warmUpPartEnd
  with_reducible repeat' first
    | assumption
    | refine keeps_detectorEnd (subP hKp (by decide)) ?_
    | refine keeps_settlePart (subP hKp (by decide)) ?_
    | refine keeps_probeEnd (subP hKp (by decide)) ?_
    | refine Keeps.ite ?_ ?_

theorem keeps_execWarmUpPartEnd {Kp : List Part} {K0 s : State} {n : LaneId} {samples : List (List Int)} (hKp : [.sent, .reg, .dict, .log, .life, .lanes, .alert, .host] ⊆ Kp) (hK : Keeps Kp K0 s) :
    KeepsO Kp K0 (execWarmUpPartEnd n samples s) := by
  unfold execWarmUpPartEnd
  with_reducible repeat' first
    | assumption
    | refine KeepsO.next ?_
    | refine keeps_warmUpPartEnd (subP hKp (by decide)) ?_

theorem keeps_execWarmUpPartTimeout {Kp : List Part} {K0 s : State} {n : LaneId} (hKp : [.sent, .reg, .dict, .log, .life, .lanes, .alert, .host] ⊆ Kp) (hK : Keeps Kp K0 s) :
    KeepsO Kp K0 (execWarmUpPartTimeout n s) := by
  unfold execWarmUpPartTimeout
  with_reducible repeat' first
    | assumption
    | refine KeepsO.next ?_
    | refine KeepsO.ite ?_ ?_
    | refine keeps_endPart (subP hKp (by decide)) ?_
    | refine Keeps.ite ?_ ?_

theorem keeps_warmUpRead {Kp : List Part} {K0 s : State} {n : LaneId} (hKp : [.lanes] ⊆ Kp) (hK : Keeps Kp K0 s) :
    Keeps Kp K0 (warmUpRead n s) := by
  unfold warmUpRead
  with_reducible repeat' first
    | assumption
    | refine keeps_enter (subP hKp (by decide)) ?_
    | refine keeps_orderTo (subP hKp (by decide)) ?_
    | refine keeps_frameBegins (subP hKp (by decide)) ?_
    | refine keeps_idleChannels (subP hKp (by decide)) ?_
    | refine keeps_setLane (subP hKp (by decide)) ?_
    | refine Keeps.ite ?_ ?_
    | split

theorem keeps_execWarmUpRead {Kp : List Part} {K0 s : State} {n : LaneId} (hKp : [.lanes] ⊆ Kp) (hK : Keeps Kp K0 s) :
    KeepsO Kp K0 (execWarmUpRead n s) := by
  unfold execWarmUpRead
  with_reducible repeat' first
    | assumption
    | refine KeepsO.next ?_
    | refine keeps_warmUpRead (subP hKp (by decide)) ?_

theorem keeps_execOpcWaitExpire {Kp : List Part} {K0 s : State} {n : LaneId} (hKp : [.lanes] ⊆ Kp) (hK : Keeps Kp K0 s) :
    KeepsO Kp K0 (execOpcWaitExpire n s) := by
  unfold execOpcWaitExpire
  with_reducible repeat' first
    | assumption
    | refine KeepsO.next ?_
    | refine keeps_opcHold (subP hKp (by decide)) ?_

theorem keeps_testFrame {Kp : List Part} {K0 s : State} {n : LaneId} {d : Disc} {layer : Nat} {u0 : Nat} {j : Nat} (hKp : [.free, .sent, .lanes, .ports] ⊆ Kp) (hK : Keeps Kp K0 s) :
    Keeps Kp K0 (testFrame n d layer u0 j s) := by
  unfold testFrame
  with_reducible repeat' first
    | assumption
    | refine keeps_sendLaser (subP hKp (by decide)) ?_
    | refine keeps_drawBytes (subP hKp (by decide)) ?_
    | refine keeps_draw (subP hKp (by decide)) ?_
    | refine keeps_sendSymbols (subP hKp (by decide)) ?_
    | refine keeps_setWr (subP hKp (by decide)) ?_
    | refine keeps_countEnergy (subP hKp (by decide)) ?_
    | refine Keeps.fold2 _ _ _ (fun _ _ _ => ?_) ?_
    | refine Keeps.foldl _ _ _ (fun _ _ _ => ?_) ?_
    | refine Keeps.snd (by assumption) ?_
    | split

theorem keeps_testVisit {Kp : List Part} {K0 s : State} {n : LaneId} {layer : Nat} {u0 : Nat} {beta : List (List Int)} {diffs : List (List Nat)} (hKp : [.free, .sent, .reg, .lanes, .ports] ⊆ Kp) (hK : Keeps Kp K0 s) :
    Keeps Kp K0 (testVisit n layer u0 beta diffs s) := by
  unfold testVisit
  with_reducible repeat' first
    | assumption
    | refine keeps_loadStrategies (subP hKp (by decide)) ?_
    | refine keeps_passBegins (subP hKp (by decide)) ?_
    | refine keeps_beginSession (subP hKp (by decide)) ?_
    | refine keeps_testFrame (subP hKp (by decide)) ?_
    | refine keeps_lbump (subP hKp (by decide)) ?_
    | refine keeps_setDisc (subP hKp (by decide)) ?_
    | refine keeps_setWarm (subP hKp (by decide)) ?_
    | refine Keeps.fold2 _ _ _ (fun _ _ _ => ?_) ?_
    | refine Keeps.foldl _ _ _ (fun _ _ _ => ?_) ?_

theorem keeps_writePowerPass {Kp : List Part} {K0 s0 : State} {n : LaneId} {beta : List (List Int)} {diffs : List (List Nat)} (hKp : [.free, .sent, .reg, .lanes, .ports] ⊆ Kp) (hK : Keeps Kp K0 s0) :
    Keeps Kp K0 (writePowerPass n beta diffs s0) := by
  unfold writePowerPass
  with_reducible repeat' first
    | assumption
    | refine keeps_slowForWrite (subP hKp (by decide)) ?_
    | refine keeps_opcReturned (subP hKp (by decide)) ?_
    | refine keeps_orderTo (subP hKp (by decide)) ?_
    | refine keeps_testVisit (subP hKp (by decide)) ?_
    | refine Keeps.ite ?_ ?_
    | split

theorem keeps_execWritePowerPass {Kp : List Part} {K0 s : State} {n : LaneId} {beta : List (List Int)} {diffs : List (List Nat)} (hKp : [.free, .sent, .reg, .lanes, .ports] ⊆ Kp) (hK : Keeps Kp K0 s) :
    KeepsO Kp K0 (execWritePowerPass n beta diffs s) := by
  unfold execWritePowerPass
  with_reducible repeat' first
    | assumption
    | refine KeepsO.next ?_
    | refine keeps_writePowerPass (subP hKp (by decide)) ?_

theorem keeps_execWarmUpRetry {Kp : List Part} {K0 s : State} {n : LaneId} (hKp : [.sent, .reg, .dict, .log, .life, .lanes, .alert, .host] ⊆ Kp) (hK : Keeps Kp K0 s) :
    KeepsO Kp K0 (execWarmUpRetry n s) := by
  unfold execWarmUpRetry
  with_reducible repeat' first
    | assumption
    | refine KeepsO.next ?_
    | refine KeepsO.ite ?_ ?_
    | refine keeps_warmUpStart (subP hKp (by decide)) ?_
    | refine keeps_setWarm (subP hKp (by decide)) ?_
    | refine Keeps.ite ?_ ?_
    | split

theorem keeps_warmResume {Kp : List Part} {K0 s : State} {n : LaneId} (hKp : [.lanes] ⊆ Kp) (hK : Keeps Kp K0 s) :
    Keeps Kp K0 (warmResume n s) := by
  unfold warmResume
  with_reducible repeat' first
    | assumption
    | refine keeps_setWarm (subP hKp (by decide)) ?_
    | refine Keeps.ite ?_ ?_

theorem keeps_startWarmEffect {Kp : List Part} {K0 s : State} {n : LaneId} {v : Bytes} (hKp : [.lanes] ⊆ Kp) (hK : Keeps Kp K0 s) :
    KeepsE Kp K0 (startWarmEffect n v s) := by
  unfold startWarmEffect
  with_reducible repeat' first
    | assumption
    | refine KeepsE.ok ?_
    | exact KeepsE.error
    | refine KeepsE.ite ?_ ?_
    | refine keeps_setWarm (subP hKp (by decide)) ?_
    | refine Keeps.ite ?_ ?_

theorem keeps_trimEffect {Kp : List Part} {K0 s : State} {n : LaneId} {first : Nat} {vals : List Int} {window : Bool} (hKp : [.lanes] ⊆ Kp) (hK : Keeps Kp K0 s) :
    KeepsE Kp K0 (trimEffect n first vals window s) := by
  unfold trimEffect
  with_reducible repeat' first
    | assumption
    | refine KeepsE.ok ?_
    | exact KeepsE.error
    | refine KeepsE.ite ?_ ?_
    | refine KeepsE.map ?_ (fun _ _ => ?_)
    | refine keeps_putTrims (subP hKp (by decide)) ?_
    | refine Keeps.ite ?_ ?_

theorem keeps_trimRestoreEffect {Kp : List Part} {K0 s : State} {n : LaneId} {v : Bytes} (hKp : [.sent, .dict, .log, .life, .lanes, .alert] ⊆ Kp) (hK : Keeps Kp K0 s) :
    KeepsE Kp K0 (trimRestoreEffect n v s) := by
  unfold trimRestoreEffect
  with_reducible repeat' first
    | assumption
    | refine KeepsE.ok ?_
    | exact KeepsE.error
    | refine KeepsE.ite ?_ ?_
    | refine KeepsE.map ?_ (fun _ _ => ?_)
    | refine keeps_raise (subP hKp (by decide)) ?_
    | refine keeps_setWarm (subP hKp (by decide)) ?_
    | refine keeps_putTrims (subP hKp (by decide)) ?_
    | refine Keeps.ite ?_ ?_

end Sys2Proof.Machine
end

