-- ==== Sys2Proof/Laws/KeepsLaneFault.lean ====
section
/-! SUPPORT. What the operations of LaneFault.lean keep. -/

namespace Sys2Proof.Machine

set_option linter.unusedTactic false
set_option linter.unreachableTactic false
set_option linter.unusedVariables false

theorem keeps_detectCode {Kp : List Part} {K0 s : State} {n : LaneId} {code : Nat} (hKp : [.sent, .reg, .lanes, .ports] ⊆ Kp) (hK : Keeps Kp K0 s) :
    Keeps Kp K0 (detectCode n code s) := by
  unfold detectCode
  with_reducible repeat' first
    | assumption
    | refine keeps_setLane (subP hKp (by decide)) ?_
    | refine keeps_rotorLost (subP hKp (by decide)) ?_
    | refine keeps_detectFault (subP hKp (by decide)) ?_
    | refine Keeps.ite ?_ ?_

theorem keeps_laneFaultDetect {Kp : List Part} {K0 s : State} {src : FaultSource} (hKp : [.sent, .reg, .lanes, .ports] ⊆ Kp) (hK : Keeps Kp K0 s) :
    Keeps Kp K0 (laneFaultDetect src s) := by
  unfold laneFaultDetect
  with_reducible repeat' first
    | assumption
    | refine keeps_detectCode (subP hKp (by decide)) ?_
    | refine Keeps.fold2 _ _ _ (fun _ _ _ => ?_) ?_
    | refine Keeps.foldl _ _ _ (fun _ _ _ => ?_) ?_
    | refine Keeps.ite ?_ ?_
    | split

theorem keeps_execLaneFaultDetect {Kp : List Part} {K0 s : State} {src : FaultSource} (hKp : [.sent, .reg, .lanes, .ports] ⊆ Kp) (hK : Keeps Kp K0 s) :
    KeepsO Kp K0 (execLaneFaultDetect src s) := by
  unfold execLaneFaultDetect
  with_reducible repeat' first
    | assumption
    | refine KeepsO.next ?_
    | refine keeps_laneFaultDetect (subP hKp (by decide)) ?_

theorem keeps_latchEnds {Kp : List Part} {K0 s : State} {n : LaneId} (hKp : [.sent, .reg, .dict, .log, .life, .teams, .alert, .host] ⊆ Kp) (hK : Keeps Kp K0 s) :
    Keeps Kp K0 (latchEnds n s) := by
  unfold latchEnds
  with_reducible repeat' first
    | assumption
    | refine keeps_warningCheck (subP hKp (by decide)) ?_
    | refine keeps_endOnLane (subP hKp (by decide)) ?_
    | split

theorem keeps_rampIfTurning {Kp : List Part} {K0 s : State} {n : LaneId} (hKp : [.reg, .lanes] ⊆ Kp) (hK : Keeps Kp K0 s) :
    Keeps Kp K0 (rampIfTurning n s) := by
  unfold rampIfTurning
  with_reducible repeat' first
    | assumption
    | refine keeps_rampOrder (subP hKp (by decide)) ?_
    | refine Keeps.ite ?_ ?_

theorem keeps_latchFault {Kp : List Part} {K0 s : State} {n : LaneId} {code : Nat} (hKp : [.sent, .reg, .dict, .log, .life, .lanes, .teams, .alert, .host] ⊆ Kp) (hK : Keeps Kp K0 s) :
    Keeps Kp K0 (latchFault n code s) := by
  unfold latchFault
  with_reducible repeat' first
    | assumption
    | refine keeps_latchEnds (subP hKp (by decide)) ?_
    | refine keeps_raise (subP hKp (by decide)) ?_
    | refine keeps_setLane (subP hKp (by decide)) ?_

theorem keeps_countAttempt {Kp : List Part} {K0 s : State} {n : LaneId} (hKp : [.sent, .reg, .dict, .log, .life, .lanes, .teams, .alert, .host] ⊆ Kp) (hK : Keeps Kp K0 s) :
    Keeps Kp K0 (countAttempt n s) := by
  unfold countAttempt
  with_reducible repeat' first
    | assumption
    | refine keeps_setLane (subP hKp (by decide)) ?_
    | refine keeps_latchFault (subP hKp (by decide)) ?_
    | refine keeps_rampIfTurning (subP hKp (by decide)) ?_
    | refine Keeps.ite ?_ ?_

theorem keeps_dropExtents {Kp : List Part} {K0 s : State} {n : LaneId} (hKp : [.sent, .dict, .log, .life, .lanes, .teams, .alert, .host] ⊆ Kp) (hK : Keeps Kp K0 s) :
    Keeps Kp K0 (dropExtents n s) := by
  unfold dropExtents
  with_reducible repeat' first
    | assumption
    | refine keeps_setLane (subP hKp (by decide)) ?_
    | refine keeps_cutPass (subP hKp (by decide)) ?_

theorem keeps_enterFault {Kp : List Part} {K0 s0 : State} {n : LaneId} {code : Nat} {at' : LaneState} (hKp : [.sent, .reg, .dict, .log, .life, .lanes, .teams, .alert, .host] ⊆ Kp) (hK : Keeps Kp K0 s0) :
    Keeps Kp K0 (enterFault n code at' s0) := by
  unfold enterFault
  with_reducible repeat' first
    | assumption
    | refine keeps_setLane (subP hKp (by decide)) ?_
    | refine keeps_raise (subP hKp (by decide)) ?_
    | refine keeps_enter (subP hKp (by decide)) ?_
    | refine keeps_warmCut (subP hKp (by decide)) ?_
    | refine keeps_beginWaits (subP hKp (by decide)) ?_
    | refine keeps_abortCreationOf (subP hKp (by decide)) ?_
    | refine keeps_dropExtents (subP hKp (by decide)) ?_
    | refine keeps_latchEnds (subP hKp (by decide)) ?_
    | refine keeps_rampIfTurning (subP hKp (by decide)) ?_
    | refine keeps_latchFault (subP hKp (by decide)) ?_
    | refine keeps_countAttempt (subP hKp (by decide)) ?_
    | refine Keeps.ite ?_ ?_
    | split


theorem keeps_laneFault {Kp : List Part} {K0 s0 : State} {n : LaneId} (hKp : [.sent, .reg, .dict, .log, .life, .lanes, .teams, .alert, .host] ⊆ Kp) (hK : Keeps Kp K0 s0) :
    Keeps Kp K0 (laneFault n s0) := by
  unfold laneFault
  extract_lets
  with_reducible repeat' first
    | assumption
    | refine keeps_collect (subP hKp (by decide)) ?_
    | refine keeps_takeFault (subP hKp (by decide)) ?_
    | refine keeps_setLane (subP hKp (by decide)) ?_
    | refine keeps_enterFault (subP hKp (by decide)) ?_
    | refine keeps_raise (subP hKp (by decide)) ?_
    | refine Keeps.ite ?_ ?_
    | split

theorem keeps_execLaneFault {Kp : List Part} {K0 s : State} {n : LaneId} (hKp : [.sent, .reg, .dict, .log, .life, .lanes, .teams, .alert, .host] ⊆ Kp) (hK : Keeps Kp K0 s) :
    KeepsO Kp K0 (execLaneFault n s) := by
  unfold execLaneFault
  with_reducible repeat' first
    | assumption
    | refine KeepsO.next ?_
    | refine keeps_laneFault (subP hKp (by decide)) ?_

theorem keeps_collectFaults {Kp : List Part} {K0 s : State} {n : LaneId} {y0 : Nat} (hKp : [.sent, .reg, .dict, .log, .life, .lanes, .teams, .alert, .host] ⊆ Kp) (hK : Keeps Kp K0 s) :
    Keeps Kp K0 (collectFaults n y0 s) := by
  induction y0 generalizing s with
  | zero => exact hK
  | succ n ih =>
    unfold collectFaults
    with_reducible repeat' first
      | assumption
      | refine ih ?_
      | refine keeps_laneFault (subP hKp (by decide)) ?_

theorem keeps_faultNow {Kp : List Part} {K0 s : State} {n : LaneId} {code : Nat} (hKp : [.sent, .reg, .dict, .log, .life, .lanes, .teams, .alert, .host, .ports] ⊆ Kp) (hK : Keeps Kp K0 s) :
    Keeps Kp K0 (faultNow n code s) := by
  unfold faultNow
  with_reducible repeat' first
    | assumption
    | refine keeps_detectCode (subP hKp (by decide)) ?_
    | refine keeps_collectFaults (subP hKp (by decide)) ?_

theorem keeps_reenter {Kp : List Part} {K0 s : State} {n : LaneId} {st : LaneState} (hKp : [.lanes] ⊆ Kp) (hK : Keeps Kp K0 s) :
    Keeps Kp K0 (reenter n st s) := by
  unfold reenter
  with_reducible repeat' first
    | assumption
    | refine keeps_openTracking (subP hKp (by decide)) ?_
    | refine keeps_openFocus (subP hKp (by decide)) ?_
    | refine keeps_enter (subP hKp (by decide)) ?_
    | refine keeps_setLane (subP hKp (by decide)) ?_
    | refine Keeps.ite ?_ ?_
    | split

end Sys2Proof.Machine
end

