-- ==== Sys2Proof/Laws/KeepsLaneLife.lean ====
section
/-! SUPPORT. What the operations of LaneLife.lean keep. -/

namespace Sys2Proof.Machine

set_option linter.unusedTactic false
set_option linter.unreachableTactic false
set_option linter.unusedVariables false

theorem keeps_setLife {Kp : List Part} {K0 s : State} {n : LaneId} {f : Life → Life} (hKp : [.lanes] ⊆ Kp) (hK : Keeps Kp K0 s) :
    Keeps Kp K0 (setLife n f s) := by
  unfold setLife
  with_reducible repeat' first
    | assumption
    | refine keeps_setLane (subP hKp (by decide)) ?_

theorem keeps_setLinks {Kp : List Part} {K0 s : State} {n : LaneId} {f : Links → Links} (hKp : [.lanes] ⊆ Kp) (hK : Keeps Kp K0 s) :
    Keeps Kp K0 (setLinks n f s) := by
  unfold setLinks
  with_reducible repeat' first
    | assumption
    | refine keeps_setLane (subP hKp (by decide)) ?_

theorem keeps_announceDisc {Kp : List Part} {K0 s : State} {n : LaneId} (hKp : [.sent, .dict, .log, .life, .lanes, .alert] ⊆ Kp) (hK : Keeps Kp K0 s) :
    Keeps Kp K0 (announceDisc n s) := by
  unfold announceDisc
  with_reducible repeat' first
    | assumption
    | refine keeps_raise (subP hKp (by decide)) ?_
    | refine keeps_setLife (subP hKp (by decide)) ?_
    | refine Keeps.ite ?_ ?_

theorem keeps_dropClose {Kp : List Part} {K0 s : State} {n : LaneId} (hKp : [.lanes] ⊆ Kp) (hK : Keeps Kp K0 s) :
    Keeps Kp K0 (dropClose n s) := by
  unfold dropClose
  with_reducible repeat' first
    | assumption
    | refine keeps_setDisc (subP hKp (by decide)) ?_

theorem keeps_brakeIfTurning {Kp : List Part} {K0 s : State} {n : LaneId} (hKp : [.reg, .lanes] ⊆ Kp) (hK : Keeps Kp K0 s) :
    Keeps Kp K0 (brakeIfTurning n s) := by
  unfold brakeIfTurning
  with_reducible repeat' first
    | assumption
    | refine keeps_shortBrake (subP hKp (by decide)) ?_
    | refine Keeps.ite ?_ ?_

theorem keeps_enterOff {Kp : List Part} {K0 s : State} {n : LaneId} (hKp : [.lanes] ⊆ Kp) (hK : Keeps Kp K0 s) :
    Keeps Kp K0 (enterOff n s) := by
  unfold enterOff
  with_reducible repeat' first
    | assumption
    | refine keeps_enter (subP hKp (by decide)) ?_
    | refine keeps_dropClose (subP hKp (by decide)) ?_
    | refine keeps_openFocus (subP hKp (by decide)) ?_
    | refine keeps_setLane (subP hKp (by decide)) ?_

theorem keeps_enterParked {Kp : List Part} {K0 s : State} {n : LaneId} (hKp : [.sent, .dict, .log, .life, .lanes, .alert] ⊆ Kp) (hK : Keeps Kp K0 s) :
    Keeps Kp K0 (enterParked n s) := by
  unfold enterParked
  with_reducible repeat' first
    | assumption
    | refine keeps_announceDisc (subP hKp (by decide)) ?_
    | refine keeps_enter (subP hKp (by decide)) ?_
    | refine keeps_dropClose (subP hKp (by decide)) ?_
    | refine keeps_setLane (subP hKp (by decide)) ?_
    | refine keeps_openFocus (subP hKp (by decide)) ?_
    | split

theorem keeps_execPresenceSample {Kp : List Part} {K0 s : State} {n : LaneId} {presence : Bool} {disc : Bool} {clamp : Bool} (hKp : [.lanes] ⊆ Kp) (hK : Keeps Kp K0 s) :
    KeepsO Kp K0 (execPresenceSample n presence disc clamp s) := by
  unfold execPresenceSample
  with_reducible repeat' first
    | assumption
    | refine KeepsO.next ?_
    | refine KeepsO.ite ?_ ?_
    | refine keeps_setLife (subP hKp (by decide)) ?_
    | refine Keeps.ite ?_ ?_

theorem keeps_homeIfTrained {Kp : List Part} {K0 s : State} {n : LaneId} (hKp : [.lanes] ⊆ Kp) (hK : Keeps Kp K0 s) :
    Keeps Kp K0 (homeIfTrained n s) := by
  unfold homeIfTrained
  with_reducible repeat' first
    | assumption
    | refine keeps_beginHoming (subP hKp (by decide)) ?_
    | refine Keeps.ite ?_ ?_

theorem keeps_startTraining {Kp : List Part} {K0 s : State} {n : LaneId} {laser : Bool} (hKp : [.sent, .reg, .lanes] ⊆ Kp) (hK : Keeps Kp K0 s) :
    Keeps Kp K0 (startTraining n laser s) := by
  unfold startTraining
  with_reducible repeat' first
    | assumption
    | refine keeps_lbump (subP hKp (by decide)) ?_
    | refine keeps_setLinks (subP hKp (by decide)) ?_
    | refine keeps_sendTraining (subP hKp (by decide)) ?_
    | refine Keeps.ite ?_ ?_

theorem keeps_leaveOff {Kp : List Part} {K0 s : State} {n : LaneId} (hKp : [.sent, .reg, .lanes] ⊆ Kp) (hK : Keeps Kp K0 s) :
    Keeps Kp K0 (leaveOff n s) := by
  unfold leaveOff
  with_reducible repeat' first
    | assumption
    | refine keeps_setLinks (subP hKp (by decide)) ?_
    | refine keeps_startTraining (subP hKp (by decide)) ?_
    | refine keeps_homeIfTrained (subP hKp (by decide)) ?_
    | refine Keeps.ite ?_ ?_

theorem keeps_offAtRest {Kp : List Part} {K0 s : State} {n : LaneId} (hKp : [.sent, .reg, .lanes] ⊆ Kp) (hK : Keeps Kp K0 s) :
    Keeps Kp K0 (offAtRest n s) := by
  unfold offAtRest
  with_reducible repeat' first
    | assumption
    | refine keeps_leaveOff (subP hKp (by decide)) ?_
    | refine keeps_enterOff (subP hKp (by decide)) ?_
    | refine keeps_brakeIfTurning (subP hKp (by decide)) ?_
    | refine Keeps.ite ?_ ?_

theorem keeps_recoveryGoes {Kp : List Part} {K0 s : State} {n : LaneId} (hKp : [.sent, .reg, .lanes] ⊆ Kp) (hK : Keeps Kp K0 s) :
    Keeps Kp K0 (recoveryGoes n s) := by
  unfold recoveryGoes
  extract_lets
  with_reducible repeat' first
    | assumption
    | refine keeps_startTraining (subP hKp (by decide)) ?_
    | refine keeps_rampOrder (subP hKp (by decide)) ?_
    | refine keeps_beginHoming (subP hKp (by decide)) ?_
    | refine keeps_reenter (subP hKp (by decide)) ?_
    | refine Keeps.ite ?_ ?_
    | split

theorem keeps_linkTrainingDone {Kp : List Part} {K0 s : State} {n : LaneId} {laser : Bool} (hKp : [.sent, .reg, .dict, .log, .life, .lanes, .alert] ⊆ Kp) (hK : Keeps Kp K0 s) :
    Keeps Kp K0 (linkTrainingDone n laser s) := by
  unfold linkTrainingDone
  with_reducible repeat' first
    | assumption
    | refine keeps_raise (subP hKp (by decide)) ?_
    | refine keeps_setLinks (subP hKp (by decide)) ?_
    | refine keeps_recoveryGoes (subP hKp (by decide)) ?_
    | refine keeps_homeIfTrained (subP hKp (by decide)) ?_
    | refine Keeps.ite ?_ ?_

theorem keeps_execLinkTrainingDone {Kp : List Part} {K0 s : State} {n : LaneId} {laser : Bool} (hKp : [.sent, .reg, .dict, .log, .life, .lanes, .alert] ⊆ Kp) (hK : Keeps Kp K0 s) :
    KeepsO Kp K0 (execLinkTrainingDone n laser s) := by
  unfold execLinkTrainingDone
  with_reducible repeat' first
    | assumption
    | refine KeepsO.next ?_
    | refine keeps_linkTrainingDone (subP hKp (by decide)) ?_

theorem keeps_laneRecovery {Kp : List Part} {K0 s : State} {n : LaneId} (hKp : [.sent, .reg, .dict, .log, .life, .lanes, .teams, .alert, .host] ⊆ Kp) (hK : Keeps Kp K0 s) :
    Keeps Kp K0 (laneRecovery n s) := by
  unfold laneRecovery
  with_reducible repeat' first
    | assumption
    | refine keeps_countAttempt (subP hKp (by decide)) ?_
    | refine keeps_recoveryGoes (subP hKp (by decide)) ?_
    | refine keeps_setLane (subP hKp (by decide)) ?_
    | refine Keeps.ite ?_ ?_

theorem keeps_execLaneRecovery {Kp : List Part} {K0 s : State} {n : LaneId} (hKp : [.sent, .reg, .dict, .log, .life, .lanes, .teams, .alert, .host] ⊆ Kp) (hK : Keeps Kp K0 s) :
    KeepsO Kp K0 (execLaneRecovery n s) := by
  unfold execLaneRecovery
  with_reducible repeat' first
    | assumption
    | refine KeepsO.next ?_
    | refine keeps_laneRecovery (subP hKp (by decide)) ?_

theorem keeps_linkTrainingTimeout {Kp : List Part} {K0 s : State} {n : LaneId} {laser : Bool} (hKp : [.sent, .reg, .dict, .log, .life, .lanes, .teams, .alert, .host] ⊆ Kp) (hK : Keeps Kp K0 s) :
    Keeps Kp K0 (linkTrainingTimeout n laser s) := by
  unfold linkTrainingTimeout
  with_reducible repeat' first
    | assumption
    | refine keeps_setLinks (subP hKp (by decide)) ?_
    | refine keeps_countAttempt (subP hKp (by decide)) ?_
    | refine keeps_startTraining (subP hKp (by decide)) ?_
    | refine keeps_raise (subP hKp (by decide)) ?_
    | refine Keeps.ite ?_ ?_

theorem keeps_execLinkTrainingTimeout {Kp : List Part} {K0 s : State} {n : LaneId} {laser : Bool} (hKp : [.sent, .reg, .dict, .log, .life, .lanes, .teams, .alert, .host] ⊆ Kp) (hK : Keeps Kp K0 s) :
    KeepsO Kp K0 (execLinkTrainingTimeout n laser s) := by
  unfold execLinkTrainingTimeout
  with_reducible repeat' first
    | assumption
    | refine KeepsO.next ?_
    | refine keeps_linkTrainingTimeout (subP hKp (by decide)) ?_

theorem keeps_execLinkRetrainRetry {Kp : List Part} {K0 s : State} {n : LaneId} {laser : Bool} (hKp : [.sent, .reg, .lanes] ⊆ Kp) (hK : Keeps Kp K0 s) :
    KeepsO Kp K0 (execLinkRetrainRetry n laser s) := by
  unfold execLinkRetrainRetry
  extract_lets
  with_reducible repeat' first
    | assumption
    | refine KeepsO.next ?_
    | exact KeepsO.fault
    | refine KeepsO.ite ?_ ?_
    | refine keeps_startTraining (subP hKp (by decide)) ?_
    | refine keeps_setLinks (subP hKp (by decide)) ?_
    | refine Keeps.ite ?_ ?_
    | split

theorem keeps_homingStall {Kp : List Part} {K0 s : State} {n : LaneId} (hKp : [.sent, .reg, .dict, .log, .life, .lanes, .alert] ⊆ Kp) (hK : Keeps Kp K0 s) :
    Keeps Kp K0 (homingStall n s) := by
  unfold homingStall
  with_reducible repeat' first
    | assumption
    | refine keeps_lbump (subP hKp (by decide)) ?_
    | refine keeps_homeCoordinate (subP hKp (by decide)) ?_
    | refine keeps_setLane (subP hKp (by decide)) ?_
    | refine keeps_backOff (subP hKp (by decide)) ?_
    | refine keeps_enterParked (subP hKp (by decide)) ?_
    | refine keeps_reenter (subP hKp (by decide)) ?_
    | refine Keeps.ite ?_ ?_

theorem keeps_execHomingStall {Kp : List Part} {K0 s : State} {n : LaneId} (hKp : [.sent, .reg, .dict, .log, .life, .lanes, .alert] ⊆ Kp) (hK : Keeps Kp K0 s) :
    KeepsO Kp K0 (execHomingStall n s) := by
  unfold execHomingStall
  with_reducible repeat' first
    | assumption
    | refine KeepsO.next ?_
    | refine keeps_homingStall (subP hKp (by decide)) ?_

theorem keeps_execHomingNoStall {Kp : List Part} {K0 s : State} {n : LaneId} (hKp : [.sent, .reg, .dict, .log, .life, .lanes, .teams, .alert, .host, .ports] ⊆ Kp) (hK : Keeps Kp K0 s) :
    KeepsO Kp K0 (execHomingNoStall n s) := by
  unfold execHomingNoStall
  with_reducible repeat' first
    | assumption
    | refine KeepsO.next ?_
    | refine KeepsO.ite ?_ ?_
    | refine keeps_enterOff (subP hKp (by decide)) ?_
    | refine keeps_faultNow (subP hKp (by decide)) ?_
    | refine keeps_setLane (subP hKp (by decide)) ?_
    | refine Keeps.ite ?_ ?_

theorem keeps_takePickup {Kp : List Part} {K0 s : State} {n : LaneId} {b : Bytes} {temp : Int} (hKp : [.sent, .reg, .dict, .log, .life, .lanes, .alert] ⊆ Kp) (hK : Keeps Kp K0 s) :
    Keeps Kp K0 (takePickup n b temp s) := by
  unfold takePickup
  with_reducible repeat' first
    | assumption
    | refine keeps_setLane (subP hKp (by decide)) ?_
    | refine keeps_leaveOff (subP hKp (by decide)) ?_
    | refine keeps_raise (subP hKp (by decide)) ?_
    | refine keeps_loadBanks (subP hKp (by decide)) ?_

theorem keeps_pickupAccept {Kp : List Part} {K0 s : State} {n : LaneId} {r : IdRead} (hKp : [.sent, .reg, .dict, .log, .life, .lanes, .alert] ⊆ Kp) (hK : Keeps Kp K0 s) :
    Keeps Kp K0 (pickupAccept n r s) := by
  unfold pickupAccept
  with_reducible repeat' first
    | assumption
    | refine keeps_setLife (subP hKp (by decide)) ?_
    | refine keeps_raise (subP hKp (by decide)) ?_
    | refine keeps_takePickup (subP hKp (by decide)) ?_
    | refine Keeps.ite ?_ ?_
    | split

theorem keeps_execPickupAccept {Kp : List Part} {K0 s : State} {n : LaneId} {r : IdRead} (hKp : [.sent, .reg, .dict, .log, .life, .lanes, .alert] ⊆ Kp) (hK : Keeps Kp K0 s) :
    KeepsO Kp K0 (execPickupAccept n r s) := by
  unfold execPickupAccept
  with_reducible repeat' first
    | assumption
    | refine KeepsO.next ?_
    | refine keeps_pickupAccept (subP hKp (by decide)) ?_

theorem keeps_pickupDeparted {Kp : List Part} {K0 s : State} {n : LaneId} (hKp : [.sent, .reg, .dict, .log, .life, .lanes, .teams, .alert, .host, .ports] ⊆ Kp) (hK : Keeps Kp K0 s) :
    Keeps Kp K0 (pickupDeparted n s) := by
  unfold pickupDeparted
  with_reducible repeat' first
    | assumption
    | refine keeps_offAtRest (subP hKp (by decide)) ?_
    | refine keeps_setLane (subP hKp (by decide)) ?_
    | refine keeps_faultNow (subP hKp (by decide)) ?_
    | refine keeps_raise (subP hKp (by decide)) ?_
    | refine Keeps.ite ?_ ?_
    | split

theorem keeps_presenceChange {Kp : List Part} {K0 s : State} {n : LaneId} (hKp : [.sent, .reg, .dict, .log, .life, .lanes, .teams, .alert, .host, .ports] ⊆ Kp) (hK : Keeps Kp K0 s) :
    Keeps Kp K0 (presenceChange n s) := by
  unfold presenceChange
  with_reducible repeat' first
    | assumption
    | refine keeps_setLife (subP hKp (by decide)) ?_
    | refine keeps_pickupDeparted (subP hKp (by decide)) ?_
    | refine Keeps.ite ?_ ?_

theorem keeps_execPresenceChange {Kp : List Part} {K0 s : State} {n : LaneId} (hKp : [.sent, .reg, .dict, .log, .life, .lanes, .teams, .alert, .host, .ports] ⊆ Kp) (hK : Keeps Kp K0 s) :
    KeepsO Kp K0 (execPresenceChange n s) := by
  unfold execPresenceChange
  with_reducible repeat' first
    | assumption
    | refine KeepsO.next ?_
    | refine keeps_presenceChange (subP hKp (by decide)) ?_

theorem keeps_pickupTempRead {Kp : List Part} {K0 s : State} {n : LaneId} {temp : Int} (hKp : [.sent, .reg, .lanes, .ports] ⊆ Kp) (hK : Keeps Kp K0 s) :
    Keeps Kp K0 (pickupTempRead n temp s) := by
  unfold pickupTempRead
  with_reducible repeat' first
    | assumption
    | refine keeps_warmResume (subP hKp (by decide)) ?_
    | refine keeps_setLane (subP hKp (by decide)) ?_
    | refine keeps_detectFault (subP hKp (by decide)) ?_
    | refine Keeps.ite ?_ ?_
    | split

theorem keeps_execPickupTempRead {Kp : List Part} {K0 s : State} {n : LaneId} {temp : Int} (hKp : [.sent, .reg, .lanes, .ports] ⊆ Kp) (hK : Keeps Kp K0 s) :
    KeepsO Kp K0 (execPickupTempRead n temp s) := by
  unfold execPickupTempRead
  with_reducible repeat' first
    | assumption
    | refine KeepsO.next ?_
    | refine keeps_pickupTempRead (subP hKp (by decide)) ?_

theorem keeps_forgetDisc {Kp : List Part} {K0 s : State} {n : LaneId} (hKp : [.sent, .reg, .dict, .log, .life, .lanes, .alert] ⊆ Kp) (hK : Keeps Kp K0 s) :
    Keeps Kp K0 (forgetDisc n s) := by
  unfold forgetDisc
  with_reducible repeat' first
    | assumption
    | refine keeps_setLane (subP hKp (by decide)) ?_
    | refine keeps_dropRefresh (subP hKp (by decide)) ?_
    | split

theorem keeps_discDeparted {Kp : List Part} {K0 s : State} {n : LaneId} (hKp : [.sent, .reg, .dict, .log, .life, .lanes, .teams, .alert, .host, .ports] ⊆ Kp) (hK : Keeps Kp K0 s) :
    Keeps Kp K0 (discDeparted n s) := by
  unfold discDeparted
  with_reducible repeat' first
    | assumption
    | refine keeps_faultNow (subP hKp (by decide)) ?_
    | refine keeps_brakeIfTurning (subP hKp (by decide)) ?_
    | refine keeps_setLane (subP hKp (by decide)) ?_
    | refine keeps_abortCreationOf (subP hKp (by decide)) ?_
    | refine keeps_warmCut (subP hKp (by decide)) ?_
    | refine keeps_forgetDisc (subP hKp (by decide)) ?_
    | refine keeps_evaluateLane (subP hKp (by decide)) ?_
    | refine keeps_raise (subP hKp (by decide)) ?_
    | refine Keeps.ite ?_ ?_

theorem keeps_discStatusChange {Kp : List Part} {K0 s : State} {n : LaneId} (hKp : [.sent, .reg, .dict, .log, .life, .lanes, .teams, .alert, .host, .ports] ⊆ Kp) (hK : Keeps Kp K0 s) :
    Keeps Kp K0 (discStatusChange n s) := by
  unfold discStatusChange
  with_reducible repeat' first
    | assumption
    | refine keeps_setLife (subP hKp (by decide)) ?_
    | refine keeps_discDeparted (subP hKp (by decide)) ?_
    | refine keeps_setLane (subP hKp (by decide)) ?_
    | refine keeps_announceDisc (subP hKp (by decide)) ?_
    | refine Keeps.ite ?_ ?_

theorem keeps_execDiscStatusChange {Kp : List Part} {K0 s : State} {n : LaneId} (hKp : [.sent, .reg, .dict, .log, .life, .lanes, .teams, .alert, .host, .ports] ⊆ Kp) (hK : Keeps Kp K0 s) :
    KeepsO Kp K0 (execDiscStatusChange n s) := by
  unfold execDiscStatusChange
  with_reducible repeat' first
    | assumption
    | refine KeepsO.next ?_
    | refine keeps_discStatusChange (subP hKp (by decide)) ?_

theorem keeps_leadMessages {Kp : List Part} {K0 s : State} {d : Disc} {block : Bytes} {layer : Nat} {k : Nat} {epoch : Nat} (hKp : [.free] ⊆ Kp) (hK : Keeps Kp K0 s) :
    Keeps Kp K0 (leadMessages d block layer k epoch s).2 := by
  unfold leadMessages
  with_reducible repeat' first
    | assumption
    | refine keeps_draw (subP hKp (by decide)) ?_
    | refine Keeps.fold2 _ _ _ (fun _ _ _ => ?_) ?_
    | refine Keeps.foldl _ _ _ (fun _ _ _ => ?_) ?_
    | refine Keeps.snd (by assumption) ?_
    | split

theorem keeps_writeLead {Kp : List Part} {K0 s : State} {n : LaneId} {backup : Bool} {epoch : Nat} {records : List Bytes} (hKp : [.free, .sent, .reg, .lanes, .ports] ⊆ Kp) (hK : Keeps Kp K0 s) :
    Keeps Kp K0 (writeLead n backup epoch records s) := by
  unfold writeLead
  with_reducible repeat' first
    | assumption
    | refine keeps_loadStrategies (subP hKp (by decide)) ?_
    | refine keeps_passBegins (subP hKp (by decide)) ?_
    | refine keeps_leadMessages (subP hKp (by decide)) ?_
    | refine keeps_lbump (subP hKp (by decide)) ?_
    | refine keeps_setWr (subP hKp (by decide)) ?_
    | refine keeps_playExtent (subP hKp (by decide)) ?_
    | refine Keeps.ite ?_ ?_
    | refine Keeps.snd (by assumption) ?_
    | split

theorem keeps_useLead {Kp : List Part} {K0 s : State} {n : LaneId} {backup : Bool} (hKp : [.lanes] ⊆ Kp) (hK : Keeps Kp K0 s) :
    Keeps Kp K0 (useLead n backup s) := by
  unfold useLead
  with_reducible repeat' first
    | assumption
    | refine keeps_setDisc (subP hKp (by decide)) ?_
    | refine Keeps.ite ?_ ?_

theorem keeps_checkLeadFull {Kp : List Part} {K0 s : State} {n : LaneId} (hKp : [.sent, .reg, .dict, .log, .life, .lanes, .teams, .alert, .host] ⊆ Kp) (hK : Keeps Kp K0 s) :
    Keeps Kp K0 (checkLeadFull n s) := by
  unfold checkLeadFull
  with_reducible repeat' first
    | assumption
    | refine keeps_checkReadOnlyLane (subP hKp (by decide)) ?_
    | refine keeps_dropRefresh (subP hKp (by decide)) ?_
    | refine keeps_raise (subP hKp (by decide)) ?_
    | refine keeps_setDisc (subP hKp (by decide)) ?_
    | refine Keeps.ite ?_ ?_
    | split

theorem keeps_blockDone {Kp : List Part} {K0 s : State} {n : LaneId} (hKp : [.lanes] ⊆ Kp) (hK : Keeps Kp K0 s) :
    Keeps Kp K0 (blockDone n s) := by
  unfold blockDone
  with_reducible repeat' first
    | assumption
    | refine keeps_setDisc (subP hKp (by decide)) ?_

theorem keeps_startLeadIn {Kp : List Part} {K0 s : State} {n : LaneId} (hKp : [.lanes] ⊆ Kp) (hK : Keeps Kp K0 s) :
    Keeps Kp K0 (startLeadIn n s) := by
  unfold startLeadIn
  with_reducible repeat' first
    | assumption
    | refine keeps_enter (subP hKp (by decide)) ?_
    | refine keeps_frameBegins (subP hKp (by decide)) ?_
    | refine keeps_idleChannels (subP hKp (by decide)) ?_
    | refine keeps_setLane (subP hKp (by decide)) ?_

theorem keeps_leadInReadStart {Kp : List Part} {K0 s : State} {n : LaneId} (hKp : [.lanes] ⊆ Kp) (hK : Keeps Kp K0 s) :
    Keeps Kp K0 (leadInReadStart n s) := by
  unfold leadInReadStart
  with_reducible repeat' first
    | assumption
    | refine keeps_orderTo (subP hKp (by decide)) ?_
    | refine keeps_startLeadIn (subP hKp (by decide)) ?_
    | refine Keeps.ite ?_ ?_

theorem keeps_execLeadInReadStart {Kp : List Part} {K0 s : State} {n : LaneId} (hKp : [.lanes] ⊆ Kp) (hK : Keeps Kp K0 s) :
    KeepsO Kp K0 (execLeadInReadStart n s) := by
  unfold execLeadInReadStart
  with_reducible repeat' first
    | assumption
    | refine KeepsO.next ?_
    | refine keeps_leadInReadStart (subP hKp (by decide)) ?_

theorem keeps_discUnusable {Kp : List Part} {K0 s : State} {n : LaneId} {reason : Nat} (hKp : [.sent, .reg, .dict, .log, .life, .lanes, .teams, .alert, .host] ⊆ Kp) (hK : Keeps Kp K0 s) :
    Keeps Kp K0 (discUnusable n reason s) := by
  unfold discUnusable
  with_reducible repeat' first
    | assumption
    | refine keeps_rampIfTurning (subP hKp (by decide)) ?_
    | refine keeps_evaluateLane (subP hKp (by decide)) ?_
    | refine keeps_raise (subP hKp (by decide)) ?_
    | refine keeps_setLife (subP hKp (by decide)) ?_
    | split

theorem keeps_leaveReading {Kp : List Part} {K0 s : State} {n : LaneId} (hKp : [.lanes] ⊆ Kp) (hK : Keeps Kp K0 s) :
    Keeps Kp K0 (leaveReading n s) := by
  unfold leaveReading
  with_reducible repeat' first
    | assumption
    | refine keeps_setLane (subP hKp (by decide)) ?_
    | refine keeps_holdCheck (subP hKp (by decide)) ?_
    | refine keeps_enter (subP hKp (by decide)) ?_
    | refine keeps_setLife (subP hKp (by decide)) ?_
    | refine Keeps.ite ?_ ?_

theorem keeps_limitDisc {Kp : List Part} {K0 s : State} {n : LaneId} (hKp : [.sent, .dict, .log, .life, .lanes, .alert] ⊆ Kp) (hK : Keeps Kp K0 s) :
    Keeps Kp K0 (limitDisc n s) := by
  unfold limitDisc
  with_reducible repeat' first
    | assumption
    | refine keeps_setDisc (subP hKp (by decide)) ?_
    | refine keeps_raise (subP hKp (by decide)) ?_
    | refine Keeps.ite ?_ ?_
    | split

theorem keeps_leadInRead {Kp : List Part} {K0 s : State} {n : LaneId} {d : Disc} (hKp : [.sent, .reg, .dict, .log, .life, .lanes, .teams, .alert, .host] ⊆ Kp) (hK : Keeps Kp K0 s) :
    Keeps Kp K0 (leadInRead n d s) := by
  unfold leadInRead
  with_reducible repeat' first
    | assumption
    | refine keeps_setLane (subP hKp (by decide)) ?_
    | refine keeps_evaluateLane (subP hKp (by decide)) ?_
    | refine keeps_raiseIdentified (subP hKp (by decide)) ?_
    | refine keeps_limitDisc (subP hKp (by decide)) ?_
    | refine keeps_takeIdentity (subP hKp (by decide)) ?_
    | refine keeps_discUnusable (subP hKp (by decide)) ?_
    | refine Keeps.ite ?_ ?_

theorem keeps_volumeReadBack {Kp : List Part} {K0 s : State} {n : LaneId} {t : TeamId} {c : Creation} {d : Disc} (hKp : [.sent, .reg, .dict, .log, .life, .lanes, .teams, .alert, .host] ⊆ Kp) (hK : Keeps Kp K0 s) :
    Keeps Kp K0 (volumeReadBack n t c d s) := by
  unfold volumeReadBack
  with_reducible repeat' first
    | assumption
    | refine keeps_setLane (subP hKp (by decide)) ?_
    | refine keeps_setTeam (subP hKp (by decide)) ?_
    | refine keeps_discUnusable (subP hKp (by decide)) ?_
    | refine keeps_abortCreation (subP hKp (by decide)) ?_
    | refine Keeps.ite ?_ ?_

theorem keeps_leadInReadComplete {Kp : List Part} {K0 s : State} {n : LaneId} {r : LeadIn} (hKp : [.sent, .reg, .dict, .log, .life, .lanes, .teams, .alert, .host] ⊆ Kp) (hK : Keeps Kp K0 s) :
    Keeps Kp K0 (leadInReadComplete n r s) := by
  unfold leadInReadComplete
  with_reducible repeat' first
    | assumption
    | refine keeps_leaveReading (subP hKp (by decide)) ?_
    | refine keeps_discUnusable (subP hKp (by decide)) ?_
    | refine keeps_abortCreation (subP hKp (by decide)) ?_
    | refine keeps_volumeReadBack (subP hKp (by decide)) ?_
    | refine keeps_leadInRead (subP hKp (by decide)) ?_
    | refine Keeps.ite ?_ ?_
    | split

theorem keeps_execLeadInReadComplete {Kp : List Part} {K0 s : State} {n : LaneId} {r : LeadIn} (hKp : [.sent, .reg, .dict, .log, .life, .lanes, .teams, .alert, .host] ⊆ Kp) (hK : Keeps Kp K0 s) :
    KeepsO Kp K0 (execLeadInReadComplete n r s) := by
  unfold execLeadInReadComplete
  with_reducible repeat' first
    | assumption
    | refine KeepsO.next ?_
    | refine keeps_leadInReadComplete (subP hKp (by decide)) ?_

theorem keeps_createVolumeEffect {Kp : List Part} {K0 s : State} {t : TeamId} (hKp : [.teams] ⊆ Kp) (hK : Keeps Kp K0 s) :
    KeepsE Kp K0 (createVolumeEffect t s) := by
  unfold createVolumeEffect
  with_reducible repeat' first
    | assumption
    | refine KeepsE.ok ?_
    | exact KeepsE.error
    | refine KeepsE.ite ?_ ?_
    | refine keeps_setTeam (subP hKp (by decide)) ?_
    | refine Keeps.ite ?_ ?_

theorem keeps_volumeCreated {Kp : List Part} {K0 s : State} {t : TeamId} (hKp : [.sent, .dict, .log, .life, .lanes, .teams, .alert, .host] ⊆ Kp) (hK : Keeps Kp K0 s) :
    Keeps Kp K0 (volumeCreated t s) := by
  unfold volumeCreated
  with_reducible repeat' first
    | assumption
    | refine keeps_setTeam (subP hKp (by decide)) ?_
    | refine keeps_raiseIdentified (subP hKp (by decide)) ?_
    | refine keeps_takeIdentity (subP hKp (by decide)) ?_
    | refine keeps_evaluateTeam (subP hKp (by decide)) ?_
    | refine Keeps.fold2 _ _ _ (fun _ _ _ => ?_) ?_
    | refine Keeps.foldl _ _ _ (fun _ _ _ => ?_) ?_
    | refine Keeps.ite ?_ ?_
    | split

theorem keeps_execVolumeCreated {Kp : List Part} {K0 s : State} {t : TeamId} (hKp : [.sent, .dict, .log, .life, .lanes, .teams, .alert, .host] ⊆ Kp) (hK : Keeps Kp K0 s) :
    KeepsO Kp K0 (execVolumeCreated t s) := by
  unfold execVolumeCreated
  with_reducible repeat' first
    | assumption
    | refine KeepsO.next ?_
    | refine keeps_volumeCreated (subP hKp (by decide)) ?_

theorem keeps_sessionCloseDue {Kp : List Part} {K0 s : State} {n : LaneId} (hKp : [.lanes] ⊆ Kp) (hK : Keeps Kp K0 s) :
    Keeps Kp K0 (sessionCloseDue n s) := by
  unfold sessionCloseDue
  with_reducible repeat' first
    | assumption
    | refine keeps_setDisc (subP hKp (by decide)) ?_
    | refine Keeps.ite ?_ ?_
    | split

theorem keeps_execSessionCloseDue {Kp : List Part} {K0 s : State} {n : LaneId} (hKp : [.lanes] ⊆ Kp) (hK : Keeps Kp K0 s) :
    KeepsO Kp K0 (execSessionCloseDue n s) := by
  unfold execSessionCloseDue
  with_reducible repeat' first
    | assumption
    | refine KeepsO.next ?_
    | refine keeps_sessionCloseDue (subP hKp (by decide)) ?_

theorem keeps_sessionClosed {Kp : List Part} {K0 s : State} {n : LaneId} {d : Disc} {kind : Nat} (hKp : [.sent, .dict, .log, .life, .lanes, .alert, .host] ⊆ Kp) (hK : Keeps Kp K0 s) :
    Keeps Kp K0 (sessionClosed n d kind s) := by
  unfold sessionClosed
  with_reducible repeat' first
    | assumption
    | refine keeps_setDisc (subP hKp (by decide)) ?_
    | refine keeps_raise (subP hKp (by decide)) ?_
    | refine keeps_startupCheck (subP hKp (by decide)) ?_
    | refine keeps_endWaits (subP hKp (by decide)) ?_
    | refine Keeps.ite ?_ ?_

theorem keeps_blockRecorded {Kp : List Part} {K0 s : State} {n : LaneId} (hKp : [.sent, .dict, .log, .life, .lanes, .teams, .alert, .host] ⊆ Kp) (hK : Keeps Kp K0 s) :
    Keeps Kp K0 (blockRecorded n s) := by
  unfold blockRecorded
  with_reducible repeat' first
    | assumption
    | refine keeps_blockDone (subP hKp (by decide)) ?_
    | refine keeps_setTeam (subP hKp (by decide)) ?_
    | refine keeps_sessionClosed (subP hKp (by decide)) ?_
    | split

theorem keeps_blockLost {Kp : List Part} {K0 s : State} {n : LaneId} (hKp : [.lanes, .host] ⊆ Kp) (hK : Keeps Kp K0 s) :
    Keeps Kp K0 (blockLost n s) := by
  unfold blockLost
  with_reducible repeat' first
    | assumption
    | refine keeps_setDisc (subP hKp (by decide)) ?_
    | refine keeps_endWaits (subP hKp (by decide)) ?_
    | refine Keeps.ite ?_ ?_

theorem keeps_recordBlock {Kp : List Part} {K0 s : State} {n : LaneId} {b : DueBlock} {backup : Bool} {verify : List VerifyRead} (hKp : [.free, .sent, .reg, .dict, .log, .life, .lanes, .teams, .alert, .host, .ports] ⊆ Kp) (hK : Keeps Kp K0 s) :
    Keeps Kp K0 (recordBlock n b backup verify s) := by
  unfold recordBlock
  with_reducible repeat' first
    | assumption
    | (intro _; try intros)
    | refine keeps_offsetOf (subP hKp (by decide)) ?_
    | refine keeps_useLead (subP hKp (by decide)) ?_
    | refine keeps_asWriting (subP hKp (by decide)) ?_ ?_
    | refine keeps_writeLead (subP hKp (by decide)) ?_
    | refine keeps_blockRecorded (subP hKp (by decide)) ?_
    | refine keeps_setDisc (subP hKp (by decide)) ?_
    | refine keeps_checkLeadFull (subP hKp (by decide)) ?_
    | refine Keeps.ite ?_ ?_

theorem keeps_sessionCloseWrite {Kp : List Part} {K0 s0 : State} {n : LaneId} {verify : List VerifyRead} (hKp : [.free, .sent, .reg, .dict, .log, .life, .lanes, .teams, .alert, .host, .ports] ⊆ Kp) (hK : Keeps Kp K0 s0) :
    Keeps Kp K0 (sessionCloseWrite n verify s0) := by
  unfold sessionCloseWrite
  with_reducible repeat' first
    | assumption
    | refine keeps_blockLost (subP hKp (by decide)) ?_
    | refine keeps_slowForWrite (subP hKp (by decide)) ?_
    | refine keeps_orderTo (subP hKp (by decide)) ?_
    | refine keeps_recordBlock (subP hKp (by decide)) ?_
    | refine Keeps.ite ?_ ?_
    | split

theorem keeps_execSessionCloseWrite {Kp : List Part} {K0 s : State} {n : LaneId} {verify : List VerifyRead} (hKp : [.free, .sent, .reg, .dict, .log, .life, .lanes, .teams, .alert, .host, .ports] ⊆ Kp) (hK : Keeps Kp K0 s) :
    KeepsO Kp K0 (execSessionCloseWrite n verify s) := by
  unfold execSessionCloseWrite
  with_reducible repeat' first
    | assumption
    | refine KeepsO.next ?_
    | refine keeps_sessionCloseWrite (subP hKp (by decide)) ?_

theorem keeps_execRecoveryScan {Kp : List Part} {K0 s : State} {n : LaneId} (hKp : [.host] ⊆ Kp) (hK : Keeps Kp K0 s) :
    KeepsO Kp K0 (execRecoveryScan n s) := by
  unfold execRecoveryScan
  with_reducible repeat' first
    | assumption
    | refine KeepsO.next ?_
    | refine KeepsO.ite ?_ ?_
    | refine keeps_beginWaits (subP hKp (by decide)) ?_
    | refine Keeps.ite ?_ ?_

theorem keeps_scanSlots {Kp : List Part} {K0 s : State} {n : LaneId} {layer : Nat} {k : Nat} {y0 : List SlotRead} {y1 : Nat} (hKp : [.sent, .dict, .log, .life, .lanes, .teams, .alert, .host] ⊆ Kp) (hK : Keeps Kp K0 s) :
    Keeps Kp K0 (scanSlots n layer k y0 y1 s) := by
  induction y0 generalizing y1 s with
  | nil => exact hK
  | cons a l ih =>
    unfold scanSlots
    with_reducible repeat' first
      | assumption
      | refine ih ?_
      | refine keeps_setDisc (subP hKp (by decide)) ?_
      | refine keeps_skipSlot (subP hKp (by decide)) ?_
      | refine Keeps.ite ?_ ?_
      | split

theorem keeps_scanCopy {Kp : List Part} {K0 s : State} {n : LaneId} {c : CopyRead} (hKp : [.lanes] ⊆ Kp) (hK : Keeps Kp K0 s) :
    Keeps Kp K0 (scanCopy n c s) := by
  unfold scanCopy
  with_reducible repeat' first
    | assumption
    | refine keeps_enterReloc (subP hKp (by decide)) ?_
    | refine Keeps.ite ?_ ?_
    | split

theorem keeps_recoveryScanEnd {Kp : List Part} {K0 s : State} {n : LaneId} {r : ScanRead} (hKp : [.free, .sent, .dict, .log, .life, .lanes, .teams, .alert, .host] ⊆ Kp) (hK : Keeps Kp K0 s) :
    Keeps Kp K0 (recoveryScanEnd n r s) := by
  unfold recoveryScanEnd
  extract_lets
  with_reducible repeat' first
    | assumption
    | refine keeps_draw (subP hKp (by decide)) ?_
    | refine keeps_setDisc (subP hKp (by decide)) ?_
    | refine keeps_scanSlots (subP hKp (by decide)) ?_
    | refine keeps_scanCopy (subP hKp (by decide)) ?_
    | refine Keeps.fold2 _ _ _ (fun _ _ _ => ?_) ?_
    | refine Keeps.foldl _ _ _ (fun _ _ _ => ?_) ?_
    | refine Keeps.ite ?_ ?_
    | refine Keeps.snd (by assumption) ?_
    | split

theorem keeps_execRecoveryScanEnd {Kp : List Part} {K0 s : State} {n : LaneId} {r : ScanRead} (hKp : [.free, .sent, .dict, .log, .life, .lanes, .teams, .alert, .host] ⊆ Kp) (hK : Keeps Kp K0 s) :
    KeepsO Kp K0 (execRecoveryScanEnd n r s) := by
  unfold execRecoveryScanEnd
  with_reducible repeat' first
    | assumption
    | refine KeepsO.next ?_
    | refine keeps_recoveryScanEnd (subP hKp (by decide)) ?_

theorem keeps_membersChanged {Kp : List Part} {K0 s : State} {t : TeamId} (hKp : [.sent, .dict, .log, .life, .teams, .alert, .host] ⊆ Kp) (hK : Keeps Kp K0 s) :
    Keeps Kp K0 (membersChanged t s) := by
  unfold membersChanged
  with_reducible repeat' first
    | assumption
    | refine keeps_evaluateTeam (subP hKp (by decide)) ?_
    | refine keeps_nsLeave (subP hKp (by decide)) ?_

end Sys2Proof.Machine
end

