-- ==== Sys2Proof/Laws/KeepsPacer.lean ====
section
/-! SUPPORT. What the operations of Pacer.lean keep. -/

namespace Sys2Proof.Machine

set_option linter.unusedTactic false
set_option linter.unreachableTactic false
set_option linter.unusedVariables false

theorem keeps_takeVelocity {Kp : List Part} {K0 s : State} {n : LaneId} {v : Nat} (hKp : [.lanes] ⊆ Kp) (hK : Keeps Kp K0 s) :
    Keeps Kp K0 (takeVelocity n v s) := by
  unfold takeVelocity
  with_reducible repeat' first
    | assumption
    | refine keeps_setLane (subP hKp (by decide)) ?_
    | refine Keeps.ite ?_ ?_

theorem keeps_pacerEvaluation {Kp : List Part} {K0 s : State} {n : LaneId} (hKp : [.sent, .dict, .log, .life, .lanes, .alert] ⊆ Kp) (hK : Keeps Kp K0 s) :
    Keeps Kp K0 (pacerEvaluation n s) := by
  unfold pacerEvaluation
  with_reducible repeat' first
    | assumption
    | refine keeps_setLane (subP hKp (by decide)) ?_
    | refine keeps_raise (subP hKp (by decide)) ?_
    | refine keeps_takeVelocity (subP hKp (by decide)) ?_
    | refine Keeps.ite ?_ ?_
    | split

theorem keeps_execPacerEvaluation {Kp : List Part} {K0 s : State} {n : LaneId} (hKp : [.sent, .dict, .log, .life, .lanes, .alert] ⊆ Kp) (hK : Keeps Kp K0 s) :
    KeepsO Kp K0 (execPacerEvaluation n s) := by
  unfold execPacerEvaluation
  with_reducible repeat' first
    | assumption
    | refine KeepsO.next ?_
    | refine keeps_pacerEvaluation (subP hKp (by decide)) ?_

end Sys2Proof.Machine
end

