-- ==== Sys2Proof/Laws/KeepsTrack.lean ====
section
/-! SUPPORT. What the operations of Track.lean keep. -/

namespace Sys2Proof.Machine

set_option linter.unusedTactic false
set_option linter.unreachableTactic false
set_option linter.unusedVariables false

theorem keeps_beginStart {Kp : List Part} {K0 s : State} {n : LaneId} (hKp : [.reg, .lanes] ⊆ Kp) (hK : Keeps Kp K0 s) :
    Keeps Kp K0 (beginStart n s) := by
  unfold beginStart
  with_reducible repeat' first
    | assumption
    | refine keeps_setLane (subP hKp (by decide)) ?_
    | refine keeps_lbump (subP hKp (by decide)) ?_
    | refine Keeps.ite ?_ ?_
    | split

theorem keeps_raiseSupply {Kp : List Part} {K0 s : State} {n : LaneId} (hKp : [.core] ⊆ Kp) (hK : Keeps Kp K0 s) :
    Keeps Kp K0 (raiseSupply n s) := by
  unfold raiseSupply
  with_reducible repeat' first
    | assumption
    | refine Keeps.ite ?_ ?_
    | exact .inl rfl
    | exact .inr (memP hKp (by decide))
    | exact id
    | apply Keeps.upd

theorem keeps_spinUp {Kp : List Part} {K0 s : State} {n : LaneId} (hKp : [.reg, .lanes, .core] ⊆ Kp) (hK : Keeps Kp K0 s) :
    Keeps Kp K0 (spinUp n s) := by
  unfold spinUp
  with_reducible repeat' first
    | assumption
    | (intro _; try intros)
    | refine keeps_orderNow (subP hKp (by decide)) ?_ ?_
    | refine keeps_beginStart (subP hKp (by decide)) ?_
    | refine keeps_raiseSupply (subP hKp (by decide)) ?_
    | refine keeps_setLane (subP hKp (by decide)) ?_
    | refine Keeps.ite ?_ ?_

theorem keeps_execSpinUp {Kp : List Part} {K0 s : State} {n : LaneId} (hKp : [.reg, .lanes, .core] ⊆ Kp) (hK : Keeps Kp K0 s) :
    KeepsO Kp K0 (execSpinUp n s) := by
  unfold execSpinUp
  with_reducible repeat' first
    | assumption
    | refine KeepsO.next ?_
    | refine keeps_spinUp (subP hKp (by decide)) ?_

theorem keeps_nextStart {Kp : List Part} {K0 s : State} {g : SegId} (hKp : [.reg, .lanes, .core] ⊆ Kp) (hK : Keeps Kp K0 s) :
    Keeps Kp K0 (nextStart g s) := by
  unfold nextStart
  with_reducible repeat' first
    | assumption
    | refine keeps_spinUp (subP hKp (by decide)) ?_
    | split

theorem keeps_enterSpun {Kp : List Part} {K0 s : State} {n : LaneId} (hKp : [.sent, .reg, .dict, .log, .life, .lanes, .alert, .core, .power] ⊆ Kp) (hK : Keeps Kp K0 s) :
    Keeps Kp K0 (enterSpun n s) := by
  unfold enterSpun
  with_reducible repeat' first
    | assumption
    | refine keeps_partResult (subP hKp (by decide)) ?_
    | refine keeps_setWarm (subP hKp (by decide)) ?_
    | refine keeps_nextStart (subP hKp (by decide)) ?_
    | refine keeps_enter (subP hKp (by decide)) ?_
    | refine keeps_setLane (subP hKp (by decide)) ?_
    | refine Keeps.ite ?_ ?_
    | exact .inl rfl
    | exact .inr (memP hKp (by decide))
    | exact id
    | apply Keeps.upd

theorem keeps_atSpeed {Kp : List Part} {K0 s : State} {n : LaneId} (hKp : [.sent, .reg, .dict, .log, .life, .lanes, .alert, .core, .power] ⊆ Kp) (hK : Keeps Kp K0 s) :
    Keeps Kp K0 (atSpeed n s) := by
  unfold atSpeed
  with_reducible repeat' first
    | assumption
    | refine keeps_setLane (subP hKp (by decide)) ?_
    | refine keeps_enterSpun (subP hKp (by decide)) ?_
    | refine keeps_startLearning (subP hKp (by decide)) ?_
    | refine Keeps.ite ?_ ?_

theorem keeps_execAtSpeed {Kp : List Part} {K0 s : State} {n : LaneId} (hKp : [.sent, .reg, .dict, .log, .life, .lanes, .alert, .core, .power] ⊆ Kp) (hK : Keeps Kp K0 s) :
    KeepsO Kp K0 (execAtSpeed n s) := by
  unfold execAtSpeed
  with_reducible repeat' first
    | assumption
    | refine KeepsO.next ?_
    | refine keeps_atSpeed (subP hKp (by decide)) ?_

theorem keeps_sweepFailed {Kp : List Part} {K0 s : State} {n : LaneId} (hKp : [.sent, .reg, .dict, .log, .life, .lanes, .teams, .alert, .host, .ports] ⊆ Kp) (hK : Keeps Kp K0 s) :
    Keeps Kp K0 (sweepFailed n s) := by
  unfold sweepFailed
  with_reducible repeat' first
    | assumption
    | refine keeps_openFocus (subP hKp (by decide)) ?_
    | refine keeps_setLife (subP hKp (by decide)) ?_
    | refine keeps_discUnusable (subP hKp (by decide)) ?_
    | refine keeps_detectFault (subP hKp (by decide)) ?_
    | refine Keeps.ite ?_ ?_
    | split

theorem keeps_focusReached {Kp : List Part} {K0 s : State} {n : LaneId} (hKp : [.lanes] ⊆ Kp) (hK : Keeps Kp K0 s) :
    Keeps Kp K0 (focusReached n s) := by
  unfold focusReached
  with_reducible repeat' first
    | assumption
    | refine keeps_enter (subP hKp (by decide)) ?_
    | refine Keeps.ite ?_ ?_

theorem keeps_focusClosed {Kp : List Part} {K0 s : State} {n : LaneId} {position : Int} (hKp : [.lanes] ⊆ Kp) (hK : Keeps Kp K0 s) :
    Keeps Kp K0 (focusClosed n position s) := by
  unfold focusClosed
  with_reducible repeat' first
    | assumption
    | refine keeps_focusReached (subP hKp (by decide)) ?_
    | refine keeps_setClosed (subP hKp (by decide)) ?_
    | refine keeps_setLane (subP hKp (by decide)) ?_

theorem keeps_focusCapture {Kp : List Part} {K0 s : State} {n : LaneId} {peaks : List Nat} {position : Int} (hKp : [.sent, .reg, .dict, .log, .life, .lanes, .teams, .alert, .host, .ports] ⊆ Kp) (hK : Keeps Kp K0 s) :
    Keeps Kp K0 (focusCapture n peaks position s) := by
  unfold focusCapture
  with_reducible repeat' first
    | assumption
    | refine keeps_focusClosed (subP hKp (by decide)) ?_
    | refine keeps_sweepFailed (subP hKp (by decide)) ?_
    | refine Keeps.ite ?_ ?_

theorem keeps_execFocusCapture {Kp : List Part} {K0 s : State} {n : LaneId} {peaks : List Nat} {position : Int} (hKp : [.sent, .reg, .dict, .log, .life, .lanes, .teams, .alert, .host, .ports] ⊆ Kp) (hK : Keeps Kp K0 s) :
    KeepsO Kp K0 (execFocusCapture n peaks position s) := by
  unfold execFocusCapture
  with_reducible repeat' first
    | assumption
    | refine KeepsO.next ?_
    | refine keeps_focusCapture (subP hKp (by decide)) ?_

theorem keeps_warmJump {Kp : List Part} {K0 s : State} {n : LaneId} (hKp : [.lanes] ⊆ Kp) (hK : Keeps Kp K0 s) :
    Keeps Kp K0 (warmJump n s) := by
  unfold warmJump
  with_reducible repeat' first
    | assumption
    | refine keeps_setWarm (subP hKp (by decide)) ?_
    | refine Keeps.ite ?_ ?_

theorem keeps_strideToTarget {Kp : List Part} {K0 s : State} {n : LaneId} (hKp : [.reg, .lanes] ⊆ Kp) (hK : Keeps Kp K0 s) :
    Keeps Kp K0 (strideToTarget n s) := by
  unfold strideToTarget
  with_reducible repeat' first
    | assumption
    | refine keeps_strideAccept (subP hKp (by decide)) ?_

theorem keeps_layerJump {Kp : List Part} {K0 s : State} {n : LaneId} {outward : Bool} {landed : Bool} (hKp : [.sent, .reg, .life, .lanes, .ports] ⊆ Kp) (hK : Keeps Kp K0 s) :
    Keeps Kp K0 (layerJump n outward landed s) := by
  unfold layerJump
  extract_lets
  with_reducible repeat' first
    | assumption
    | refine keeps_spoil (subP hKp (by decide)) ?_
    | refine keeps_openTracking (subP hKp (by decide)) ?_
    | refine keeps_lifeLane (subP hKp (by decide)) ?_
    | refine keeps_idleChannels (subP hKp (by decide)) ?_
    | refine keeps_setLane (subP hKp (by decide)) ?_
    | refine keeps_strideToTarget (subP hKp (by decide)) ?_
    | refine keeps_focusReached (subP hKp (by decide)) ?_
    | refine keeps_warmJump (subP hKp (by decide)) ?_
    | refine keeps_setLife (subP hKp (by decide)) ?_
    | refine keeps_detectFault (subP hKp (by decide)) ?_
    | refine Keeps.ite ?_ ?_
    | split

theorem keeps_execLayerJump {Kp : List Part} {K0 s : State} {n : LaneId} {outward : Bool} {landed : Bool} (hKp : [.sent, .reg, .life, .lanes, .ports] ⊆ Kp) (hK : Keeps Kp K0 s) :
    KeepsO Kp K0 (execLayerJump n outward landed s) := by
  unfold execLayerJump
  with_reducible repeat' first
    | assumption
    | refine KeepsO.next ?_
    | refine keeps_layerJump (subP hKp (by decide)) ?_

theorem keeps_armAt {Kp : List Part} {K0 s : State} {n : LaneId} {pos : Nat} {num : Int} (hKp : [.lanes] ⊆ Kp) (hK : Keeps Kp K0 s) :
    Keeps Kp K0 (armAt n pos num s) := by
  unfold armAt
  with_reducible repeat' first
    | assumption
    | refine keeps_setLane (subP hKp (by decide)) ?_

theorem keeps_seek {Kp : List Part} {K0 s : State} {n : LaneId} (hKp : [.reg, .lanes] ⊆ Kp) (hK : Keeps Kp K0 s) :
    Keeps Kp K0 (seek n s) := by
  unfold seek
  extract_lets
  with_reducible repeat' first
    | assumption
    | refine keeps_setLife (subP hKp (by decide)) ?_
    | refine keeps_armAt (subP hKp (by decide)) ?_
    | refine keeps_setLane (subP hKp (by decide)) ?_
    | refine keeps_spoil (subP hKp (by decide)) ?_
    | refine keeps_idleChannels (subP hKp (by decide)) ?_
    | refine keeps_strideToTarget (subP hKp (by decide)) ?_
    | refine keeps_openTracking (subP hKp (by decide)) ?_
    | refine Keeps.ite ?_ ?_
    | split

theorem keeps_follow {Kp : List Part} {K0 s : State} {n : LaneId} (hKp : [.lanes] ⊆ Kp) (hK : Keeps Kp K0 s) :
    Keeps Kp K0 (follow n s) := by
  unfold follow
  with_reducible repeat' first
    | assumption
    | refine keeps_armAt (subP hKp (by decide)) ?_
    | refine keeps_setLane (subP hKp (by decide)) ?_
    | refine Keeps.ite ?_ ?_

theorem keeps_captured {Kp : List Part} {K0 s : State} {n : LaneId} {w : WobbleRead} {a : WobbleAddr} (hKp : [.reg, .lanes] ⊆ Kp) (hK : Keeps Kp K0 s) :
    Keeps Kp K0 (captured n w a s) := by
  unfold captured
  with_reducible repeat' first
    | assumption
    | refine keeps_gearEngage (subP hKp (by decide)) ?_
    | refine keeps_setClosed (subP hKp (by decide)) ?_
    | refine keeps_setLane (subP hKp (by decide)) ?_
    | refine keeps_startLearning (subP hKp (by decide)) ?_
    | refine keeps_enter (subP hKp (by decide)) ?_
    | refine keeps_seek (subP hKp (by decide)) ?_
    | refine Keeps.ite ?_ ?_
    | split

theorem keeps_bandCapture {Kp : List Part} {K0 s : State} {n : LaneId} {w : WobbleRead} {speeds : List Nat} (hKp : [.sent, .reg, .dict, .log, .life, .lanes, .teams, .alert, .host, .ports] ⊆ Kp) (hK : Keeps Kp K0 s) :
    Keeps Kp K0 (bandCapture n w speeds s) := by
  unfold bandCapture
  with_reducible repeat' first
    | assumption
    | refine keeps_setLife (subP hKp (by decide)) ?_
    | refine keeps_sweepFailed (subP hKp (by decide)) ?_
    | refine keeps_captured (subP hKp (by decide)) ?_
    | refine keeps_shiftCoordinate (subP hKp (by decide)) ?_
    | refine keeps_detectFault (subP hKp (by decide)) ?_
    | refine keeps_raise (subP hKp (by decide)) ?_
    | refine keeps_lbump (subP hKp (by decide)) ?_
    | refine Keeps.ite ?_ ?_
    | split

theorem keeps_execBandCapture {Kp : List Part} {K0 s : State} {n : LaneId} {w : WobbleRead} {speeds : List Nat} (hKp : [.sent, .reg, .dict, .log, .life, .lanes, .teams, .alert, .host, .ports] ⊆ Kp) (hK : Keeps Kp K0 s) :
    KeepsO Kp K0 (execBandCapture n w speeds s) := by
  unfold execBandCapture
  with_reducible repeat' first
    | assumption
    | refine KeepsO.next ?_
    | refine keeps_bandCapture (subP hKp (by decide)) ?_

theorem keeps_takeAddress {Kp : List Part} {K0 s : State} {n : LaneId} {w : WobbleRead} (hKp : [.lanes] ⊆ Kp) (hK : Keeps Kp K0 s) :
    Keeps Kp K0 (takeAddress n w s) := by
  unfold takeAddress
  with_reducible repeat' first
    | assumption
    | refine keeps_setLane (subP hKp (by decide)) ?_
    | refine Keeps.ite ?_ ?_

theorem keeps_takeIndex {Kp : List Part} {K0 s : State} {n : LaneId} {w : WobbleRead} (hKp : [.lanes] ⊆ Kp) (hK : Keeps Kp K0 s) :
    Keeps Kp K0 (takeIndex n w s) := by
  unfold takeIndex
  with_reducible repeat' first
    | assumption
    | refine keeps_setLane (subP hKp (by decide)) ?_
    | refine Keeps.ite ?_ ?_

theorem keeps_addressMismatch {Kp : List Part} {K0 s : State} {n : LaneId} (hKp : [.sent, .dict, .log, .life, .lanes, .alert] ⊆ Kp) (hK : Keeps Kp K0 s) :
    Keeps Kp K0 (addressMismatch n s) := by
  unfold addressMismatch
  with_reducible repeat' first
    | assumption
    | refine keeps_openTracking (subP hKp (by decide)) ?_
    | refine keeps_raise (subP hKp (by decide)) ?_
    | refine keeps_setPass (subP hKp (by decide)) ?_

theorem keeps_becomeReady {Kp : List Part} {K0 s : State} {n : LaneId} (hKp : [.lanes, .host] ⊆ Kp) (hK : Keeps Kp K0 s) :
    Keeps Kp K0 (becomeReady n s) := by
  unfold becomeReady
  with_reducible repeat' first
    | assumption
    | refine keeps_enter (subP hKp (by decide)) ?_
    | refine keeps_setLane (subP hKp (by decide)) ?_
    | refine keeps_holdCheck (subP hKp (by decide)) ?_
    | refine keeps_endWaits (subP hKp (by decide)) ?_
    | refine Keeps.ite ?_ ?_

theorem keeps_preamble {Kp : List Part} {K0 s : State} {n : LaneId} (hKp : [.lanes] ⊆ Kp) (hK : Keeps Kp K0 s) :
    Keeps Kp K0 (preamble n s) := by
  unfold preamble
  with_reducible repeat' first
    | assumption
    | refine keeps_setLane (subP hKp (by decide)) ?_
    | refine keeps_idleChannels (subP hKp (by decide)) ?_
    | refine Keeps.ite ?_ ?_

theorem keeps_wobbleFrame {Kp : List Part} {K0 s : State} {n : LaneId} {w : WobbleRead} (hKp : [.sent, .reg, .dict, .log, .life, .lanes, .alert, .host] ⊆ Kp) (hK : Keeps Kp K0 s) :
    Keeps Kp K0 (wobbleFrame n w s) := by
  unfold wobbleFrame
  with_reducible repeat' first
    | assumption
    | refine keeps_preamble (subP hKp (by decide)) ?_
    | refine keeps_takeIndex (subP hKp (by decide)) ?_
    | refine keeps_takeAddress (subP hKp (by decide)) ?_
    | refine keeps_addressMismatch (subP hKp (by decide)) ?_
    | refine keeps_follow (subP hKp (by decide)) ?_
    | refine keeps_seek (subP hKp (by decide)) ?_
    | refine keeps_becomeReady (subP hKp (by decide)) ?_
    | refine keeps_opcReturned (subP hKp (by decide)) ?_
    | refine Keeps.ite ?_ ?_
    | split

theorem keeps_execWobbleFrame {Kp : List Part} {K0 s : State} {n : LaneId} {w : WobbleRead} (hKp : [.sent, .reg, .dict, .log, .life, .lanes, .alert, .host] ⊆ Kp) (hK : Keeps Kp K0 s) :
    KeepsO Kp K0 (execWobbleFrame n w s) := by
  unfold execWobbleFrame
  with_reducible repeat' first
    | assumption
    | refine KeepsO.next ?_
    | refine keeps_wobbleFrame (subP hKp (by decide)) ?_

theorem keeps_execWriteClockUnlock {Kp : List Part} {K0 s : State} {n : LaneId} {errors : List Int} (hKp : [.sent, .reg, .lanes, .ports] ⊆ Kp) (hK : Keeps Kp K0 s) :
    KeepsO Kp K0 (execWriteClockUnlock n errors s) := by
  unfold execWriteClockUnlock
  with_reducible repeat' first
    | assumption
    | refine KeepsO.next ?_
    | refine KeepsO.ite ?_ ?_
    | refine keeps_detectFault (subP hKp (by decide)) ?_
    | refine keeps_setWr (subP hKp (by decide)) ?_
    | refine Keeps.ite ?_ ?_

theorem keeps_execIdleParkTimeout {Kp : List Part} {K0 s : State} {n : LaneId} (hKp : [.reg, .lanes] ⊆ Kp) (hK : Keeps Kp K0 s) :
    KeepsO Kp K0 (execIdleParkTimeout n s) := by
  unfold execIdleParkTimeout
  with_reducible repeat' first
    | assumption
    | refine KeepsO.next ?_
    | refine KeepsO.ite ?_ ?_
    | refine keeps_rampOrder (subP hKp (by decide)) ?_
    | refine Keeps.ite ?_ ?_

theorem keeps_execRampDown {Kp : List Part} {K0 s : State} {n : LaneId} (hKp : [.reg, .lanes] ⊆ Kp) (hK : Keeps Kp K0 s) :
    KeepsO Kp K0 (execRampDown n s) := by
  unfold execRampDown
  with_reducible repeat' first
    | assumption
    | refine KeepsO.next ?_
    | refine KeepsO.ite ?_ ?_
    | refine keeps_rampOrder (subP hKp (by decide)) ?_
    | refine Keeps.ite ?_ ?_

theorem keeps_resetLane {Kp : List Part} {K0 s : State} {n : LaneId} (hKp : [.sent, .reg, .dict, .log, .life, .lanes, .alert, .host] ⊆ Kp) (hK : Keeps Kp K0 s) :
    Keeps Kp K0 (resetLane n s) := by
  unfold resetLane
  with_reducible repeat' first
    | assumption
    | refine keeps_dropRefresh (subP hKp (by decide)) ?_
    | refine keeps_enterOff (subP hKp (by decide)) ?_
    | refine keeps_setLane (subP hKp (by decide)) ?_
    | refine keeps_endWaits (subP hKp (by decide)) ?_
    | refine keeps_unstore (subP hKp (by decide)) ?_

theorem keeps_atRest {Kp : List Part} {K0 s : State} {n : LaneId} (hKp : [.sent, .reg, .dict, .log, .life, .lanes, .alert, .host] ⊆ Kp) (hK : Keeps Kp K0 s) :
    Keeps Kp K0 (atRest n s) := by
  unfold atRest
  with_reducible repeat' first
    | assumption
    | refine keeps_resetLane (subP hKp (by decide)) ?_
    | refine keeps_enterParked (subP hKp (by decide)) ?_
    | refine keeps_leaveOff (subP hKp (by decide)) ?_
    | refine keeps_enterOff (subP hKp (by decide)) ?_
    | refine keeps_setLane (subP hKp (by decide)) ?_
    | refine keeps_setLife (subP hKp (by decide)) ?_
    | refine keeps_recoveryGoes (subP hKp (by decide)) ?_
    | refine Keeps.ite ?_ ?_

theorem keeps_execShortBrakeRest {Kp : List Part} {K0 s : State} {n : LaneId} (hKp : [.sent, .reg, .dict, .log, .life, .lanes, .alert, .host] ⊆ Kp) (hK : Keeps Kp K0 s) :
    KeepsO Kp K0 (execShortBrakeRest n s) := by
  unfold execShortBrakeRest
  with_reducible repeat' first
    | assumption
    | refine KeepsO.next ?_
    | refine KeepsO.ite ?_ ?_
    | refine keeps_atRest (subP hKp (by decide)) ?_
    | refine keeps_setLane (subP hKp (by decide)) ?_
    | refine keeps_floatBridge (subP hKp (by decide)) ?_
    | refine Keeps.ite ?_ ?_

theorem keeps_laneModeEffect {Kp : List Part} {K0 s : State} {n : LaneId} {v : Bytes} (hKp : [.reg, .lanes] ⊆ Kp) (hK : Keeps Kp K0 s) :
    KeepsE Kp K0 (laneModeEffect n v s) := by
  unfold laneModeEffect
  with_reducible repeat' first
    | assumption
    | refine KeepsE.ok ?_
    | exact KeepsE.error
    | refine KeepsE.ite ?_ ?_
    | refine keeps_store (subP hKp (by decide)) ?_
    | refine keeps_holdCheck (subP hKp (by decide)) ?_
    | refine keeps_leaveHold (subP hKp (by decide)) ?_
    | refine Keeps.ite ?_ ?_

theorem keeps_laneEnableEffect {Kp : List Part} {K0 s : State} {n : LaneId} {v : Bytes} (hKp : [.sent, .reg, .dict, .log, .life, .lanes, .teams, .alert, .host, .ports] ⊆ Kp) (hK : Keeps Kp K0 s) :
    KeepsE Kp K0 (laneEnableEffect n v s) := by
  unfold laneEnableEffect
  with_reducible repeat' first
    | assumption
    | refine KeepsE.ok ?_
    | exact KeepsE.error
    | refine KeepsE.ite ?_ ?_
    | refine keeps_store (subP hKp (by decide)) ?_
    | refine keeps_leaveOff (subP hKp (by decide)) ?_
    | refine keeps_faultNow (subP hKp (by decide)) ?_
    | refine keeps_enterOff (subP hKp (by decide)) ?_
    | refine keeps_rampIfTurning (subP hKp (by decide)) ?_
    | refine Keeps.ite ?_ ?_

theorem keeps_laneResetEffect {Kp : List Part} {K0 s : State} {n : LaneId} (hKp : [.sent, .reg, .dict, .log, .life, .lanes, .teams, .alert, .host] ⊆ Kp) (hK : Keeps Kp K0 s) :
    KeepsE Kp K0 (laneResetEffect n s) := by
  unfold laneResetEffect
  with_reducible repeat' first
    | assumption
    | refine KeepsE.ok ?_
    | refine KeepsE.ite ?_ ?_
    | refine keeps_setLane (subP hKp (by decide)) ?_
    | refine keeps_resetLane (subP hKp (by decide)) ?_
    | refine keeps_dropExtents (subP hKp (by decide)) ?_
    | refine keeps_rampIfTurning (subP hKp (by decide)) ?_
    | refine Keeps.ite ?_ ?_

theorem keeps_startLearningEffect {Kp : List Part} {K0 s : State} {n : LaneId} (hKp : [.lanes] ⊆ Kp) (hK : Keeps Kp K0 s) :
    KeepsE Kp K0 (startLearningEffect n s) := by
  unfold startLearningEffect
  with_reducible repeat' first
    | assumption
    | refine KeepsE.ok ?_
    | exact KeepsE.error
    | refine KeepsE.ite ?_ ?_
    | refine keeps_startLearning (subP hKp (by decide)) ?_
    | refine Keeps.ite ?_ ?_

end Sys2Proof.Machine
end

