-- ==== Sys2Proof/Laws/KeepsChannel.lean ====
section
/-! SUPPORT. What the operations of Channel.lean keep. -/

namespace Sys2Proof.Machine

set_option linter.unusedTactic false
set_option linter.unreachableTactic false
set_option linter.unusedVariables false

theorem keeps_setRd {Kp : List Part} {K0 s : State} {n : LaneId} {f : ReadPath → ReadPath} (hKp : [.lanes] ⊆ Kp) (hK : Keeps Kp K0 s) :
    Keeps Kp K0 (setRd n f s) := by
  unfold setRd
  with_reducible repeat' first
    | assumption
    | refine keeps_setLane (subP hKp (by decide)) ?_

theorem keeps_setChan {Kp : List Part} {K0 s : State} {n : LaneId} {c : ChanId} {f : Channel → Channel} (hKp : [.lanes] ⊆ Kp) (hK : Keeps Kp K0 s) :
    Keeps Kp K0 (setChan n c f s) := by
  unfold setChan
  with_reducible repeat' first
    | assumption
    | refine keeps_setRd (subP hKp (by decide)) ?_

theorem keeps_setJob {Kp : List Part} {K0 s : State} {n : LaneId} {k : TrackId} {f : ReadJob → ReadJob} (hKp : [.lanes] ⊆ Kp) (hK : Keeps Kp K0 s) :
    Keeps Kp K0 (setJob n k f s) := by
  unfold setJob
  with_reducible repeat' first
    | assumption
    | refine keeps_setRd (subP hKp (by decide)) ?_

theorem keeps_setPool {Kp : List Part} {K0 s : State} {f : DecoderPool → DecoderPool} (hKp : [.pool] ⊆ Kp) (hK : Keeps Kp K0 s) :
    Keeps Kp K0 (setPool f s) := by
  unfold setPool
  with_reducible repeat' first
    | assumption
    | exact .inl rfl
    | exact .inr (memP hKp (by decide))
    | exact id
    | apply Keeps.upd

theorem keeps_fillCores {Kp : List Part} {K0 s : State}  (hKp : [.pool] ⊆ Kp) (hK : Keeps Kp K0 s) :
    Keeps Kp K0 (fillCores s) := by
  unfold fillCores
  with_reducible repeat' first
    | assumption
    | refine keeps_setPool (subP hKp (by decide)) ?_

theorem keeps_endLaneFrame {Kp : List Part} {K0 s : State} {n : LaneId} {good : Bool} (hKp : [.lanes] ⊆ Kp) (hK : Keeps Kp K0 s) :
    Keeps Kp K0 (endLaneFrame n good s) := by
  unfold endLaneFrame
  with_reducible repeat' first
    | assumption
    | refine keeps_frameBegins (subP hKp (by decide)) ?_
    | refine keeps_setLane (subP hKp (by decide)) ?_
    | refine Keeps.ite ?_ ?_

theorem keeps_awaitCore {Kp : List Part} {K0 s : State} {n : LaneId} {k : TrackId} {i : Nat} {stamp : Nat} {later : Bool} (hKp : [.pool] ⊆ Kp) (hK : Keeps Kp K0 s) :
    Keeps Kp K0 (awaitCore n k i stamp later s) := by
  unfold awaitCore
  with_reducible repeat' first
    | assumption
    | refine keeps_fillCores (subP hKp (by decide)) ?_
    | refine keeps_setPool (subP hKp (by decide)) ?_

theorem keeps_deliver {Kp : List Part} {K0 s : State} {n : LaneId} {k : TrackId} {r : SectorRead} (hKp : [.lanes, .pool] ⊆ Kp) (hK : Keeps Kp K0 s) :
    Keeps Kp K0 (deliver n k r s) := by
  unfold deliver
  with_reducible repeat' first
    | assumption
    | refine keeps_setChan (subP hKp (by decide)) ?_
    | refine keeps_setJob (subP hKp (by decide)) ?_
    | refine keeps_setPool (subP hKp (by decide)) ?_
    | refine keeps_awaitCore (subP hKp (by decide)) ?_
    | refine keeps_endLaneFrame (subP hKp (by decide)) ?_
    | refine Keeps.ite ?_ ?_
    | split

theorem keeps_blankFrame {Kp : List Part} {K0 s : State} {n : LaneId} {c : ChanId} (hKp : [.reg, .lanes, .pool] ⊆ Kp) (hK : Keeps Kp K0 s) :
    Keeps Kp K0 (blankFrame n c s) := by
  unfold blankFrame
  with_reducible repeat' first
    | assumption
    | refine keeps_lbump (subP hKp (by decide)) ?_
    | refine keeps_setChan (subP hKp (by decide)) ?_
    | refine keeps_deliver (subP hKp (by decide)) ?_
    | refine Keeps.ite ?_ ?_
    | split

theorem keeps_lockFailed {Kp : List Part} {K0 s : State} {n : LaneId} {c : ChanId} (hKp : [.sent, .reg, .dict, .log, .life, .lanes, .pool, .alert] ⊆ Kp) (hK : Keeps Kp K0 s) :
    Keeps Kp K0 (lockFailed n c s) := by
  unfold lockFailed
  with_reducible repeat' first
    | assumption
    | refine keeps_lbump (subP hKp (by decide)) ?_
    | refine keeps_setChan (subP hKp (by decide)) ?_
    | refine keeps_raise (subP hKp (by decide)) ?_
    | refine keeps_deliver (subP hKp (by decide)) ?_
    | refine Keeps.ite ?_ ?_
    | split

theorem keeps_lockPassed {Kp : List Part} {K0 s : State} {n : LaneId} {c : ChanId} {phase : Int} {residual : Int} (hKp : [.lanes] ⊆ Kp) (hK : Keeps Kp K0 s) :
    Keeps Kp K0 (lockPassed n c phase residual s) := by
  unfold lockPassed
  with_reducible repeat' first
    | assumption
    | refine keeps_setChan (subP hKp (by decide)) ?_

theorem keeps_acquisition {Kp : List Part} {K0 s : State} {n : LaneId} {c : ChanId} {level : Nat} {rms : Nat} {phase : Int} {phaseError : Nat} {residual : Int} (hKp : [.sent, .reg, .dict, .log, .life, .lanes, .pool, .alert] ⊆ Kp) (hK : Keeps Kp K0 s) :
    Keeps Kp K0 (acquisition n c level rms phase phaseError residual s) := by
  unfold acquisition
  with_reducible repeat' first
    | assumption
    | refine keeps_setChan (subP hKp (by decide)) ?_
    | refine keeps_blankFrame (subP hKp (by decide)) ?_
    | refine keeps_lockPassed (subP hKp (by decide)) ?_
    | refine keeps_lockFailed (subP hKp (by decide)) ?_
    | refine Keeps.ite ?_ ?_

theorem keeps_execAcquisition {Kp : List Part} {K0 s : State} {n : LaneId} {c : ChanId} {level : Nat} {rms : Nat} {phase : Int} {phaseError : Nat} {residual : Int} (hKp : [.sent, .reg, .dict, .log, .life, .lanes, .pool, .alert] ⊆ Kp) (hK : Keeps Kp K0 s) :
    KeepsO Kp K0 (execAcquisition n c level rms phase phaseError residual s) := by
  unfold execAcquisition
  with_reducible repeat' first
    | assumption
    | refine KeepsO.next ?_
    | refine keeps_acquisition (subP hKp (by decide)) ?_

theorem keeps_acceptMark {Kp : List Part} {K0 s : State} {n : LaneId} {c : ChanId} {off : Int} {rest : List Int} (hKp : [.reg, .lanes] ⊆ Kp) (hK : Keeps Kp K0 s) :
    Keeps Kp K0 (acceptMark n c off rest s) := by
  unfold acceptMark
  with_reducible repeat' first
    | assumption
    | refine keeps_lbump (subP hKp (by decide)) ?_
    | refine keeps_setChan (subP hKp (by decide)) ?_
    | refine keeps_setRd (subP hKp (by decide)) ?_
    | refine Keeps.ite ?_ ?_

theorem keeps_markDrop {Kp : List Part} {K0 s : State} {n : LaneId} {c : ChanId} {from' : Nat} (hKp : [.reg, .lanes] ⊆ Kp) (hK : Keeps Kp K0 s) :
    Keeps Kp K0 (markDrop n c from' s) := by
  unfold markDrop
  with_reducible repeat' first
    | assumption
    | refine keeps_setChan (subP hKp (by decide)) ?_
    | refine keeps_lbump (subP hKp (by decide)) ?_
    | refine keeps_setRd (subP hKp (by decide)) ?_
    | refine Keeps.ite ?_ ?_

theorem keeps_missMark {Kp : List Part} {K0 s : State} {n : LaneId} {c : ChanId} (hKp : [.reg, .lanes] ⊆ Kp) (hK : Keeps Kp K0 s) :
    Keeps Kp K0 (missMark n c s) := by
  unfold missMark
  with_reducible repeat' first
    | assumption
    | refine keeps_lbump (subP hKp (by decide)) ?_
    | refine keeps_setChan (subP hKp (by decide)) ?_
    | refine keeps_markDrop (subP hKp (by decide)) ?_
    | refine Keeps.ite ?_ ?_

theorem keeps_syncMarkSearch {Kp : List Part} {K0 s : State} {n : LaneId} {c : ChanId} {w : MarkWindow} (hKp : [.reg, .lanes] ⊆ Kp) (hK : Keeps Kp K0 s) :
    Keeps Kp K0 (syncMarkSearch n c w s) := by
  unfold syncMarkSearch
  with_reducible repeat' first
    | assumption
    | refine keeps_setChan (subP hKp (by decide)) ?_
    | refine keeps_acceptMark (subP hKp (by decide)) ?_
    | refine keeps_missMark (subP hKp (by decide)) ?_
    | refine Keeps.ite ?_ ?_
    | split

theorem keeps_execSyncMarkSearch {Kp : List Part} {K0 s : State} {n : LaneId} {c : ChanId} {w : MarkWindow} (hKp : [.reg, .lanes] ⊆ Kp) (hK : Keeps Kp K0 s) :
    KeepsO Kp K0 (execSyncMarkSearch n c w s) := by
  unfold execSyncMarkSearch
  with_reducible repeat' first
    | assumption
    | refine KeepsO.next ?_
    | refine keeps_syncMarkSearch (subP hKp (by decide)) ?_

theorem keeps_beginDropout {Kp : List Part} {K0 s : State} {n : LaneId} {c : ChanId} {bit : Nat} (hKp : [.reg, .lanes] ⊆ Kp) (hK : Keeps Kp K0 s) :
    Keeps Kp K0 (beginDropout n c bit s) := by
  unfold beginDropout
  with_reducible repeat' first
    | assumption
    | refine keeps_lbump (subP hKp (by decide)) ?_
    | refine keeps_setChan (subP hKp (by decide)) ?_
    | refine Keeps.ite ?_ ?_

theorem keeps_closeDropout {Kp : List Part} {K0 s : State} {n : LaneId} {c : ChanId} {lo : Nat} {hi : Nat} (hKp : [.reg, .lanes] ⊆ Kp) (hK : Keeps Kp K0 s) :
    Keeps Kp K0 (closeDropout n c lo hi s) := by
  unfold closeDropout
  with_reducible repeat' first
    | assumption
    | refine keeps_lbump (subP hKp (by decide)) ?_
    | refine keeps_setChan (subP hKp (by decide)) ?_

theorem keeps_execTimingLost {Kp : List Part} {K0 s : State} {n : LaneId} {c : ChanId} {bit : Nat} (hKp : [.reg, .lanes] ⊆ Kp) (hK : Keeps Kp K0 s) :
    KeepsO Kp K0 (execTimingLost n c bit s) := by
  unfold execTimingLost
  with_reducible repeat' first
    | assumption
    | refine KeepsO.next ?_
    | refine KeepsO.ite ?_ ?_
    | refine keeps_beginDropout (subP hKp (by decide)) ?_
    | refine keeps_setChan (subP hKp (by decide)) ?_
    | refine Keeps.ite ?_ ?_

theorem keeps_execDropoutStart {Kp : List Part} {K0 s : State} {n : LaneId} {c : ChanId} {bit : Nat} (hKp : [.reg, .lanes] ⊆ Kp) (hK : Keeps Kp K0 s) :
    KeepsO Kp K0 (execDropoutStart n c bit s) := by
  unfold execDropoutStart
  with_reducible repeat' first
    | assumption
    | refine KeepsO.next ?_
    | refine keeps_beginDropout (subP hKp (by decide)) ?_

theorem keeps_execDropoutEnd {Kp : List Part} {K0 s : State} {n : LaneId} {c : ChanId} {bit : Nat} (hKp : [.reg, .lanes] ⊆ Kp) (hK : Keeps Kp K0 s) :
    KeepsO Kp K0 (execDropoutEnd n c bit s) := by
  unfold execDropoutEnd
  with_reducible repeat' first
    | assumption
    | refine KeepsO.next ?_
    | refine keeps_closeDropout (subP hKp (by decide)) ?_
    | split

theorem keeps_execDropoutCoastLimit {Kp : List Part} {K0 s : State} {n : LaneId} {c : ChanId} {bit : Nat} (hKp : [.reg, .lanes] ⊆ Kp) (hK : Keeps Kp K0 s) :
    KeepsO Kp K0 (execDropoutCoastLimit n c bit s) := by
  unfold execDropoutCoastLimit
  with_reducible repeat' first
    | assumption
    | refine KeepsO.next ?_
    | refine KeepsO.ite ?_ ?_
    | refine keeps_setChan (subP hKp (by decide)) ?_
    | refine keeps_closeDropout (subP hKp (by decide)) ?_
    | refine Keeps.ite ?_ ?_
    | split

theorem keeps_adaptOutput {Kp : List Part} {K0 s : State} {n : LaneId} {r : SectorSamples} {d : Detected} {c : ChanId} (hKp : [.lanes] ⊆ Kp) (hK : Keeps Kp K0 s) :
    Keeps Kp K0 (adaptOutput n r d c s) := by
  unfold adaptOutput
  with_reducible repeat' first
    | assumption
    | refine keeps_setChan (subP hKp (by decide)) ?_
    | refine Keeps.ite ?_ ?_
    | split

theorem keeps_storeTaps {Kp : List Part} {K0 s : State} {n : LaneId} {k : TrackId} {d : Detected} (hKp : [.reg, .lanes] ⊆ Kp) (hK : Keeps Kp K0 s) :
    Keeps Kp K0 (storeTaps n k d s) := by
  unfold storeTaps
  with_reducible repeat' first
    | assumption
    | refine keeps_setRd (subP hKp (by decide)) ?_
    | refine keeps_store (subP hKp (by decide)) ?_
    | refine Keeps.ite ?_ ?_

theorem keeps_adaptTrack {Kp : List Part} {K0 s : State} {n : LaneId} {k : TrackId} {r : SectorSamples} {d : Detected} (hKp : [.reg, .lanes] ⊆ Kp) (hK : Keeps Kp K0 s) :
    Keeps Kp K0 (adaptTrack n k r d s) := by
  unfold adaptTrack
  with_reducible repeat' first
    | assumption
    | refine keeps_storeTaps (subP hKp (by decide)) ?_
    | refine keeps_adaptOutput (subP hKp (by decide)) ?_
    | refine keeps_store (subP hKp (by decide)) ?_
    | refine keeps_setRd (subP hKp (by decide)) ?_
    | refine Keeps.ite ?_ ?_

theorem keeps_sectorRecord {Kp : List Part} {K0 s : State} {n : LaneId} {k : TrackId} {r : SectorSamples} (hKp : [.reg, .lanes, .pool] ⊆ Kp) (hK : Keeps Kp K0 s) :
    Keeps Kp K0 (sectorRecord n k r s) := by
  unfold sectorRecord
  extract_lets
  with_reducible repeat' first
    | assumption
    | refine keeps_lbump (subP hKp (by decide)) ?_
    | refine keeps_deliver (subP hKp (by decide)) ?_
    | refine keeps_adaptTrack (subP hKp (by decide)) ?_
    | refine Keeps.ite ?_ ?_
    | split

theorem keeps_execSectorRecord {Kp : List Part} {K0 s : State} {n : LaneId} {k : TrackId} {r : SectorSamples} (hKp : [.reg, .lanes, .pool] ⊆ Kp) (hK : Keeps Kp K0 s) :
    KeepsO Kp K0 (execSectorRecord n k r s) := by
  unfold execSectorRecord
  with_reducible repeat' first
    | assumption
    | refine KeepsO.next ?_
    | refine keeps_sectorRecord (subP hKp (by decide)) ?_

theorem keeps_captureArmEffect {Kp : List Part} {K0 s : State} {n : LaneId} {v : Bytes} (hKp : [.lanes] ⊆ Kp) (hK : Keeps Kp K0 s) :
    KeepsE Kp K0 (captureArmEffect n v s) := by
  unfold captureArmEffect
  with_reducible repeat' first
    | assumption
    | refine KeepsE.ok ?_
    | refine keeps_setRd (subP hKp (by decide)) ?_

theorem keeps_execCaptureStart {Kp : List Part} {K0 s : State} {n : LaneId} {samples : List Bytes} (hKp : [.lanes] ⊆ Kp) (hK : Keeps Kp K0 s) :
    KeepsO Kp K0 (execCaptureStart n samples s) := by
  unfold execCaptureStart
  with_reducible repeat' first
    | assumption
    | refine KeepsO.next ?_
    | refine KeepsO.ite ?_ ?_
    | refine keeps_setRd (subP hKp (by decide)) ?_
    | refine Keeps.ite ?_ ?_

theorem keeps_restoreTapsEffect {Kp : List Part} {K0 s : State} {n : LaneId} {v : Bytes} (hKp : [.reg] ⊆ Kp) (hK : Keeps Kp K0 s) :
    KeepsE Kp K0 (restoreTapsEffect n v s) := by
  unfold restoreTapsEffect
  with_reducible repeat' first
    | assumption
    | refine KeepsE.ok ?_
    | refine KeepsE.ite ?_ ?_
    | refine keeps_unstore (subP hKp (by decide)) ?_
    | refine Keeps.fold2 _ _ _ (fun _ _ _ => ?_) ?_
    | refine Keeps.foldl _ _ _ (fun _ _ _ => ?_) ?_
    | refine Keeps.ite ?_ ?_

theorem keeps_clearDefectsEffect {Kp : List Part} {K0 s : State} {n : LaneId} (hKp : [.lanes] ⊆ Kp) (hK : Keeps Kp K0 s) :
    KeepsE Kp K0 (clearDefectsEffect n s) := by
  unfold clearDefectsEffect
  with_reducible repeat' first
    | assumption
    | refine KeepsE.ok ?_
    | refine keeps_setRd (subP hKp (by decide)) ?_

end Sys2Proof.Machine
end

