-- ==== Sys2Proof/Laws/KeepsRead.lean ====
section
/-! SUPPORT. What the operations of Read.lean keep. -/

namespace Sys2Proof.Machine

set_option linter.unusedTactic false
set_option linter.unreachableTactic false
set_option linter.unusedVariables false

theorem keeps_setSector {Kp : List Part} {K0 s : State} {n : LaneId} {k : TrackId} {i : Nat} {f : SectorRead → SectorRead} (hKp : [.lanes] ⊆ Kp) (hK : Keeps Kp K0 s) :
    Keeps Kp K0 (setSector n k i f s) := by
  unfold setSector
  with_reducible repeat' first
    | assumption
    | refine keeps_setJob (subP hKp (by decide)) ?_
    | refine Keeps.ite ?_ ?_

theorem keeps_freeCore {Kp : List Part} {K0 s : State} {n : LaneId} {k : TrackId} {i : Nat} (hKp : [.pool] ⊆ Kp) (hK : Keeps Kp K0 s) :
    Keeps Kp K0 (freeCore n k i s) := by
  unfold freeCore
  with_reducible repeat' first
    | assumption
    | refine keeps_setPool (subP hKp (by decide)) ?_

theorem keeps_realignNext {Kp : List Part} {K0 s : State} {n : LaneId} {k : TrackId} {i : Nat} {r : SectorRead} (hKp : [.lanes, .pool] ⊆ Kp) (hK : Keeps Kp K0 s) :
    Keeps Kp K0 (realignNext n k i r s) := by
  unfold realignNext
  with_reducible repeat' first
    | assumption
    | refine keeps_awaitCore (subP hKp (by decide)) ?_
    | refine keeps_freeCore (subP hKp (by decide)) ?_
    | refine keeps_setSector (subP hKp (by decide)) ?_

theorem keeps_judgeEmpty {Kp : List Part} {K0 s : State} {n : LaneId} {k : TrackId} {i : Nat} {d : Disc} {j : ReadJob} {r : SectorRead} (hKp : [.lanes] ⊆ Kp) (hK : Keeps Kp K0 s) :
    Keeps Kp K0 (judgeEmpty n k i d j r s) := by
  unfold judgeEmpty
  with_reducible repeat' first
    | assumption
    | refine keeps_setSector (subP hKp (by decide)) ?_
    | refine keeps_setRd (subP hKp (by decide)) ?_
    | refine Keeps.ite ?_ ?_

theorem keeps_judgeDecode {Kp : List Part} {K0 s : State} {n : LaneId} {k : TrackId} {i : Nat} {d : Disc} {j : ReadJob} {r : SectorRead} {m : Option Bytes} (hKp : [.reg, .lanes] ⊆ Kp) (hK : Keeps Kp K0 s) :
    Keeps Kp K0 (judgeDecode n k i d j r m s) := by
  unfold judgeDecode
  with_reducible repeat' first
    | assumption
    | refine keeps_setSector (subP hKp (by decide)) ?_
    | refine keeps_lbump (subP hKp (by decide)) ?_
    | refine keeps_setRd (subP hKp (by decide)) ?_
    | refine Keeps.ite ?_ ?_

theorem keeps_decodeRecord {Kp : List Part} {K0 s : State} {n : LaneId} {k : TrackId} {i : Nat} {d : Disc} {j : ReadJob} {r : SectorRead} (hKp : [.reg, .lanes, .pool] ⊆ Kp) (hK : Keeps Kp K0 s) :
    Keeps Kp K0 (decodeRecord n k i d j r s) := by
  unfold decodeRecord
  with_reducible repeat' first
    | assumption
    | refine keeps_judgeEmpty (subP hKp (by decide)) ?_
    | refine keeps_lbump (subP hKp (by decide)) ?_
    | refine keeps_realignNext (subP hKp (by decide)) ?_
    | refine keeps_judgeDecode (subP hKp (by decide)) ?_
    | refine Keeps.ite ?_ ?_
    | split

theorem keeps_decodeSector {Kp : List Part} {K0 s0 : State} {n : LaneId} {k : TrackId} {i : Nat} (hKp : [.reg, .lanes, .pool] ⊆ Kp) (hK : Keeps Kp K0 s0) :
    Keeps Kp K0 (decodeSector n k i s0) := by
  unfold decodeSector
  extract_lets
  with_reducible repeat' first
    | assumption
    | refine keeps_fillCores (subP hKp (by decide)) ?_
    | refine keeps_decodeRecord (subP hKp (by decide)) ?_
    | refine Keeps.ite ?_ ?_
    | split

theorem keeps_execLdpcDecode {Kp : List Part} {K0 s : State} {n : LaneId} {k : TrackId} {sector : Nat} (hKp : [.reg, .lanes, .pool] ⊆ Kp) (hK : Keeps Kp K0 s) :
    KeepsO Kp K0 (execLdpcDecode n k sector s) := by
  unfold execLdpcDecode
  with_reducible repeat' first
    | assumption
    | refine KeepsO.next ?_
    | refine keeps_decodeSector (subP hKp (by decide)) ?_

theorem keeps_loseSectors {Kp : List Part} {K0 s : State} {n : LaneId} {k : TrackId} {j : ReadJob} {lost : List Nat} (hKp : [.sent, .reg, .dict, .log, .life, .teams, .alert, .host] ⊆ Kp) (hK : Keeps Kp K0 s) :
    Keeps Kp K0 (loseSectors n k j lost s) := by
  unfold loseSectors
  with_reducible repeat' first
    | assumption
    | refine keeps_setFlights (subP hKp (by decide)) ?_
    | refine keeps_setTeam (subP hKp (by decide)) ?_
    | refine keeps_raise (subP hKp (by decide)) ?_
    | refine keeps_bump (subP hKp (by decide)) ?_
    | refine keeps_lbump (subP hKp (by decide)) ?_
    | refine Keeps.fold2 _ _ _ (fun _ _ _ => ?_) ?_
    | refine Keeps.foldl _ _ _ (fun _ _ _ => ?_) ?_
    | refine Keeps.ite ?_ ?_
    | split

theorem keeps_reassemble {Kp : List Part} {K0 s : State} {t : TeamId} {lba : Nat} {user : Bytes} (hKp : [.sent, .reg, .dict, .log, .life, .alert, .host, .mem, .cache] ⊆ Kp) (hK : Keeps Kp K0 s) :
    Keeps Kp K0 (reassemble t lba user s) := by
  unfold reassemble
  with_reducible repeat' first
    | assumption
    | refine keeps_setHost (subP hKp (by decide)) ?_
    | refine keeps_bufferWrite (subP hKp (by decide)) ?_

theorem keeps_deliverGood {Kp : List Part} {K0 s : State} {n : LaneId} {j : ReadJob} (hKp : [.sent, .reg, .dict, .log, .life, .alert, .host, .mem, .cache] ⊆ Kp) (hK : Keeps Kp K0 s) :
    Keeps Kp K0 (deliverGood n j s) := by
  unfold deliverGood
  with_reducible repeat' first
    | assumption
    | refine keeps_reassemble (subP hKp (by decide)) ?_
    | refine Keeps.fold2 _ _ _ (fun _ _ _ => ?_) ?_
    | refine Keeps.foldl _ _ _ (fun _ _ _ => ?_) ?_
    | split

theorem keeps_dropReassembled {Kp : List Part} {K0 s : State}  (hKp : [.host] ⊆ Kp) (hK : Keeps Kp K0 s) :
    Keeps Kp K0 (dropReassembled s) := by
  unfold dropReassembled
  with_reducible repeat' first
    | assumption
    | refine keeps_setHost (subP hKp (by decide)) ?_

theorem keeps_sendLba {Kp : List Part} {K0 s : State} {c : CmdId} {lba : Nat} {addr : Nat} {again : Bool} (hKp : [.sent, .reg, .dict, .log, .life, .alert, .host, .mem, .cache] ⊆ Kp) (hK : Keeps Kp K0 s) :
    Keeps Kp K0 (sendLba c lba addr again s) := by
  unfold sendLba
  with_reducible repeat' first
    | assumption
    | refine keeps_bufferRead (subP hKp (by decide)) ?_
    | refine keeps_setFlight (subP hKp (by decide)) ?_
    | refine keeps_putLba (subP hKp (by decide)) ?_
    | refine keeps_raise (subP hKp (by decide)) ?_
    | refine keeps_setHost (subP hKp (by decide)) ?_
    | refine Keeps.ite ?_ ?_
    | split

theorem keeps_sendReassembled {Kp : List Part} {K0 s : State} {c : CmdId} (hKp : [.sent, .reg, .dict, .log, .life, .alert, .host, .mem, .cache] ⊆ Kp) (hK : Keeps Kp K0 s) :
    Keeps Kp K0 (sendReassembled c s) := by
  unfold sendReassembled
  with_reducible repeat' first
    | assumption
    | refine keeps_dropReassembled (subP hKp (by decide)) ?_
    | refine keeps_sendLba (subP hKp (by decide)) ?_
    | refine Keeps.fold2 _ _ _ (fun _ _ _ => ?_) ?_
    | refine Keeps.foldl _ _ _ (fun _ _ _ => ?_) ?_
    | refine Keeps.ite ?_ ?_
    | split

theorem keeps_execCommandComplete {Kp : List Part} {K0 s : State} {c : CmdId} (hKp : [.sent, .reg, .dict, .log, .life, .teams, .alert, .host, .mem, .cache, .pair, .work] ⊆ Kp) (hK : Keeps Kp K0 s) :
    KeepsO Kp K0 (execCommandComplete c s) := by
  unfold execCommandComplete
  with_reducible repeat' first
    | assumption
    | refine KeepsO.next ?_
    | refine KeepsO.ite ?_ ?_
    | refine keeps_carriedCheck (subP hKp (by decide)) ?_
    | refine keeps_settleSilent (subP hKp (by decide)) ?_
    | refine keeps_tryComplete (subP hKp (by decide)) ?_
    | refine keeps_settleDelete (subP hKp (by decide)) ?_
    | refine keeps_sendReassembled (subP hKp (by decide)) ?_
    | refine keeps_serveZeros (subP hKp (by decide)) ?_
    | refine Keeps.ite ?_ ?_

theorem keeps_queueRefresh {Kp : List Part} {K0 s : State} {n : LaneId} {k : TrackId} {j : ReadJob} {i : Nat} {msg : Bytes} (hKp : [.sent, .reg, .dict, .log, .life, .lanes, .alert, .mem, .cache] ⊆ Kp) (hK : Keeps Kp K0 s) :
    Keeps Kp K0 (queueRefresh n k j i msg s) := by
  unfold queueRefresh
  with_reducible repeat' first
    | assumption
    | refine keeps_setWr (subP hKp (by decide)) ?_
    | refine keeps_bufferWrite (subP hKp (by decide)) ?_
    | refine Keeps.ite ?_ ?_

theorem keeps_queueRefreshes {Kp : List Part} {K0 s : State} {n : LaneId} {k : TrackId} {j : ReadJob} (hKp : [.sent, .reg, .dict, .log, .life, .lanes, .alert, .mem, .cache] ⊆ Kp) (hK : Keeps Kp K0 s) :
    Keeps Kp K0 (queueRefreshes n k j s) := by
  unfold queueRefreshes
  with_reducible repeat' first
    | assumption
    | refine keeps_checkSpare (subP hKp (by decide)) ?_
    | refine keeps_queueRefresh (subP hKp (by decide)) ?_
    | refine Keeps.fold2 _ _ _ (fun _ _ _ => ?_) ?_
    | refine Keeps.foldl _ _ _ (fun _ _ _ => ?_) ?_
    | refine Keeps.ite ?_ ?_
    | split

theorem keeps_lapseStep {Kp : List Part} {K0 s : State} {n : LaneId} (hKp : [.lanes] ⊆ Kp) (hK : Keeps Kp K0 s) :
    Keeps Kp K0 (lapseStep n s) := by
  unfold lapseStep
  with_reducible repeat' first
    | assumption
    | refine keeps_setLane (subP hKp (by decide)) ?_

theorem keeps_settleDefects {Kp : List Part} {K0 s : State} {n : LaneId} {j : ReadJob} {lost : List Nat} (hKp : [.lanes] ⊆ Kp) (hK : Keeps Kp K0 s) :
    Keeps Kp K0 (settleDefects n j lost s) := by
  unfold settleDefects
  with_reducible repeat' first
    | assumption
    | refine keeps_setRd (subP hKp (by decide)) ?_
    | refine Keeps.fold2 _ _ _ (fun _ _ _ => ?_) ?_
    | refine Keeps.foldl _ _ _ (fun _ _ _ => ?_) ?_
    | refine Keeps.ite ?_ ?_

theorem keeps_readsEnd {Kp : List Part} {K0 s : State} {n : LaneId} (hKp : [.lanes] ⊆ Kp) (hK : Keeps Kp K0 s) :
    Keeps Kp K0 (readsEnd n s) := by
  unfold readsEnd
  with_reducible repeat' first
    | assumption
    | refine keeps_leaveReading (subP hKp (by decide)) ?_
    | refine keeps_idleChannels (subP hKp (by decide)) ?_
    | refine Keeps.ite ?_ ?_

theorem keeps_noteSlot {Kp : List Part} {K0 s : State} {n : LaneId} {k : TrackId} {j : ReadJob} (hKp : [.lanes] ⊆ Kp) (hK : Keeps Kp K0 s) :
    Keeps Kp K0 (noteSlot n k j s) := by
  unfold noteSlot
  with_reducible repeat' first
    | assumption
    | refine keeps_setDisc (subP hKp (by decide)) ?_
    | refine Keeps.ite ?_ ?_

theorem keeps_finishJob {Kp : List Part} {K0 s : State} {n : LaneId} {k : TrackId} (hKp : [.sent, .reg, .dict, .log, .life, .lanes, .teams, .alert, .host, .mem, .cache] ⊆ Kp) (hK : Keeps Kp K0 s) :
    Keeps Kp K0 (finishJob n k s) := by
  unfold finishJob
  with_reducible repeat' first
    | assumption
    | refine keeps_settleDefects (subP hKp (by decide)) ?_
    | refine keeps_lapseStep (subP hKp (by decide)) ?_
    | refine keeps_postCompletion (subP hKp (by decide)) ?_
    | refine keeps_noteSlot (subP hKp (by decide)) ?_
    | refine keeps_queueRefreshes (subP hKp (by decide)) ?_
    | refine keeps_loseSectors (subP hKp (by decide)) ?_
    | refine keeps_deliverGood (subP hKp (by decide)) ?_
    | refine keeps_readsEnd (subP hKp (by decide)) ?_
    | refine keeps_setRd (subP hKp (by decide)) ?_
    | refine Keeps.ite ?_ ?_
    | split

theorem keeps_readCopies {Kp : List Part} {K0 s : State} {n : LaneId} {k : TrackId} {j : ReadJob} (hKp : [.lanes] ⊆ Kp) (hK : Keeps Kp K0 s) :
    Keeps Kp K0 (readCopies n k j s) := by
  unfold readCopies
  with_reducible repeat' first
    | assumption
    | refine keeps_setRd (subP hKp (by decide)) ?_
    | refine keeps_idleChannels (subP hKp (by decide)) ?_
    | refine keeps_setLane (subP hKp (by decide)) ?_
    | split

theorem keeps_swapCopies {Kp : List Part} {K0 s : State} {n : LaneId} {k : TrackId} (hKp : [.lanes] ⊆ Kp) (hK : Keeps Kp K0 s) :
    Keeps Kp K0 (swapCopies n k s) := by
  unfold swapCopies
  with_reducible repeat' first
    | assumption
    | refine keeps_setRd (subP hKp (by decide)) ?_
    | split

theorem keeps_beginRead {Kp : List Part} {K0 s : State} {n : LaneId} {k : TrackId} {step : Nat} {r : Nat} (hKp : [.lanes, .pool] ⊆ Kp) (hK : Keeps Kp K0 s) :
    Keeps Kp K0 (beginRead n k step r s) := by
  unfold beginRead
  extract_lets
  with_reducible repeat' first
    | assumption
    | refine keeps_setJob (subP hKp (by decide)) ?_
    | refine keeps_idleChannels (subP hKp (by decide)) ?_
    | refine keeps_setLane (subP hKp (by decide)) ?_
    | refine keeps_awaitCore (subP hKp (by decide)) ?_
    | refine keeps_setRd (subP hKp (by decide)) ?_
    | refine keeps_readCopies (subP hKp (by decide)) ?_
    | refine keeps_swapCopies (subP hKp (by decide)) ?_
    | refine Keeps.fold2 _ _ _ (fun _ _ _ => ?_) ?_
    | refine Keeps.foldl _ _ _ (fun _ _ _ => ?_) ?_
    | refine Keeps.ite ?_ ?_
    | split

theorem keeps_ladderNext {Kp : List Part} {K0 s : State} {n : LaneId} {k : TrackId} (hKp : [.sent, .reg, .dict, .log, .life, .lanes, .pool, .teams, .alert, .host, .mem, .cache] ⊆ Kp) (hK : Keeps Kp K0 s) :
    Keeps Kp K0 (ladderNext n k s) := by
  unfold ladderNext
  with_reducible repeat' first
    | assumption
    | refine keeps_beginRead (subP hKp (by decide)) ?_
    | refine keeps_lapseStep (subP hKp (by decide)) ?_
    | refine keeps_finishJob (subP hKp (by decide)) ?_
    | refine Keeps.ite ?_ ?_
    | split

theorem keeps_startLadder {Kp : List Part} {K0 s : State} {n : LaneId} {k : TrackId} (hKp : [.reg, .lanes, .pool] ⊆ Kp) (hK : Keeps Kp K0 s) :
    Keeps Kp K0 (startLadder n k s) := by
  unfold startLadder
  with_reducible repeat' first
    | assumption
    | refine keeps_beginRead (subP hKp (by decide)) ?_
    | refine keeps_lbump (subP hKp (by decide)) ?_
    | refine keeps_setLane (subP hKp (by decide)) ?_

theorem keeps_ladderOrEnd {Kp : List Part} {K0 s : State} {n : LaneId} {k : TrackId} (hKp : [.sent, .reg, .dict, .log, .life, .lanes, .pool, .teams, .alert, .host, .mem, .cache] ⊆ Kp) (hK : Keeps Kp K0 s) :
    Keeps Kp K0 (ladderOrEnd n k s) := by
  unfold ladderOrEnd
  with_reducible repeat' first
    | assumption
    | refine keeps_finishJob (subP hKp (by decide)) ?_
    | refine keeps_setJob (subP hKp (by decide)) ?_
    | refine keeps_startLadder (subP hKp (by decide)) ?_
    | refine Keeps.ite ?_ ?_
    | split

theorem keeps_copiesRead {Kp : List Part} {K0 s : State} {n : LaneId} {k : TrackId} {sub : ReadJob} {main : ReadJob} (hKp : [.reg, .lanes] ⊆ Kp) (hK : Keeps Kp K0 s) :
    Keeps Kp K0 (copiesRead n k sub main s) := by
  unfold copiesRead
  with_reducible repeat' first
    | assumption
    | refine keeps_readCopies (subP hKp (by decide)) ?_
    | refine keeps_lbump (subP hKp (by decide)) ?_
    | split

theorem keeps_concludeJob {Kp : List Part} {K0 s : State} {n : LaneId} {k : TrackId} {good : Bool} (hKp : [.sent, .reg, .dict, .log, .life, .lanes, .pool, .teams, .alert, .host, .mem, .cache] ⊆ Kp) (hK : Keeps Kp K0 s) :
    Keeps Kp K0 (concludeJob n k good s) := by
  unfold concludeJob
  with_reducible repeat' first
    | assumption
    | refine keeps_copiesRead (subP hKp (by decide)) ?_
    | refine keeps_finishJob (subP hKp (by decide)) ?_
    | refine keeps_ladderOrEnd (subP hKp (by decide)) ?_
    | refine keeps_ladderNext (subP hKp (by decide)) ?_
    | refine Keeps.ite ?_ ?_
    | split

theorem keeps_takeCount {Kp : List Part} {K0 s : State} {n : LaneId} {k : TrackId} (hKp : [.sent, .reg, .dict, .log, .life, .lanes, .pool, .teams, .alert, .host, .mem, .cache] ⊆ Kp) (hK : Keeps Kp K0 s) :
    Keeps Kp K0 (takeCount n k s) := by
  unfold takeCount
  with_reducible repeat' first
    | assumption
    | refine keeps_concludeJob (subP hKp (by decide)) ?_
    | refine keeps_setJob (subP hKp (by decide)) ?_
    | refine Keeps.ite ?_ ?_
    | split

theorem keeps_extentReadOutcome {Kp : List Part} {K0 s : State} {n : LaneId} {k : TrackId} (hKp : [.sent, .reg, .dict, .log, .life, .lanes, .pool, .teams, .alert, .host, .mem, .cache] ⊆ Kp) (hK : Keeps Kp K0 s) :
    Keeps Kp K0 (extentReadOutcome n k s) := by
  unfold extentReadOutcome
  with_reducible repeat' first
    | assumption
    | refine keeps_takeCount (subP hKp (by decide)) ?_
    | refine keeps_lbump (subP hKp (by decide)) ?_
    | refine Keeps.ite ?_ ?_
    | split

theorem keeps_execExtentReadOutcome {Kp : List Part} {K0 s : State} {n : LaneId} {k : TrackId} (hKp : [.sent, .reg, .dict, .log, .life, .lanes, .pool, .teams, .alert, .host, .mem, .cache] ⊆ Kp) (hK : Keeps Kp K0 s) :
    KeepsO Kp K0 (execExtentReadOutcome n k s) := by
  unfold execExtentReadOutcome
  with_reducible repeat' first
    | assumption
    | refine KeepsO.next ?_
    | refine keeps_extentReadOutcome (subP hKp (by decide)) ?_

theorem keeps_outerStepOf {Kp : List Part} {K0 s : State} {n : LaneId} {k : TrackId} (hKp : [.sent, .reg, .dict, .log, .life, .lanes, .pool, .teams, .alert, .host, .mem, .cache] ⊆ Kp) (hK : Keeps Kp K0 s) :
    Keeps Kp K0 (outerStepOf n k s) := by
  unfold outerStepOf
  with_reducible repeat' first
    | assumption
    | refine keeps_concludeJob (subP hKp (by decide)) ?_
    | refine keeps_setJob (subP hKp (by decide)) ?_
    | refine keeps_lbump (subP hKp (by decide)) ?_
    | refine Keeps.ite ?_ ?_
    | split

theorem keeps_execOuterDecode {Kp : List Part} {K0 s : State} {n : LaneId} {k : TrackId} (hKp : [.sent, .reg, .dict, .log, .life, .lanes, .pool, .teams, .alert, .host, .mem, .cache] ⊆ Kp) (hK : Keeps Kp K0 s) :
    KeepsO Kp K0 (execOuterDecode n k s) := by
  unfold execOuterDecode
  with_reducible repeat' first
    | assumption
    | refine KeepsO.next ?_
    | refine keeps_outerStepOf (subP hKp (by decide)) ?_

theorem keeps_ladderStep {Kp : List Part} {K0 s : State} {n : LaneId} {k : TrackId} (hKp : [.sent, .reg, .dict, .log, .life, .lanes, .pool, .teams, .alert, .host, .mem, .cache] ⊆ Kp) (hK : Keeps Kp K0 s) :
    Keeps Kp K0 (ladderStep n k s) := by
  unfold ladderStep
  with_reducible repeat' first
    | assumption
    | refine keeps_ladderOrEnd (subP hKp (by decide)) ?_
    | refine keeps_takeCount (subP hKp (by decide)) ?_
    | refine Keeps.ite ?_ ?_
    | split

theorem keeps_execLadderStep {Kp : List Part} {K0 s : State} {n : LaneId} {k : TrackId} (hKp : [.sent, .reg, .dict, .log, .life, .lanes, .pool, .teams, .alert, .host, .mem, .cache] ⊆ Kp) (hK : Keeps Kp K0 s) :
    KeepsO Kp K0 (execLadderStep n k s) := by
  unfold execLadderStep
  with_reducible repeat' first
    | assumption
    | refine KeepsO.next ?_
    | refine keeps_ladderStep (subP hKp (by decide)) ?_

theorem keeps_beginJob {Kp : List Part} {K0 s : State} {n : LaneId} {k : TrackId} {j : ReadJob} (hKp : [.lanes] ⊆ Kp) (hK : Keeps Kp K0 s) :
    Keeps Kp K0 (beginJob n k j s) := by
  unfold beginJob
  with_reducible repeat' first
    | assumption
    | refine keeps_idleChannels (subP hKp (by decide)) ?_
    | refine keeps_enter (subP hKp (by decide)) ?_
    | refine keeps_frameBegins (subP hKp (by decide)) ?_
    | refine keeps_setRd (subP hKp (by decide)) ?_
    | refine Keeps.ite ?_ ?_

theorem keeps_takeJob {Kp : List Part} {K0 s : State} {n : LaneId} {k : TrackId} {j : ReadJob} (hKp : [.lanes] ⊆ Kp) (hK : Keeps Kp K0 s) :
    Keeps Kp K0 (takeJob n k j s) := by
  unfold takeJob
  with_reducible repeat' first
    | assumption
    | (intro _; try intros)
    | refine keeps_orderNow (subP hKp (by decide)) ?_ ?_
    | refine keeps_beginJob (subP hKp (by decide)) ?_

theorem keeps_resumeLadder {Kp : List Part} {K0 s : State} {n : LaneId} {k : TrackId} {j : ReadJob} (hKp : [.lanes, .pool] ⊆ Kp) (hK : Keeps Kp K0 s) :
    Keeps Kp K0 (resumeLadder n k j s) := by
  unfold resumeLadder
  with_reducible repeat' first
    | assumption
    | refine keeps_takeJob (subP hKp (by decide)) ?_
    | refine keeps_beginRead (subP hKp (by decide)) ?_
    | refine Keeps.ite ?_ ?_

theorem keeps_extentReadStart {Kp : List Part} {K0 s : State} {n : LaneId} {k : TrackId} {slot : Nat} (hKp : [.lanes, .pool] ⊆ Kp) (hK : Keeps Kp K0 s) :
    Keeps Kp K0 (extentReadStart n k slot s) := by
  unfold extentReadStart
  extract_lets
  with_reducible repeat' first
    | assumption
    | refine keeps_resumeLadder (subP hKp (by decide)) ?_
    | refine keeps_orderTo (subP hKp (by decide)) ?_
    | refine keeps_takeJob (subP hKp (by decide)) ?_
    | refine Keeps.ite ?_ ?_
    | split

theorem keeps_execExtentReadStart {Kp : List Part} {K0 s : State} {n : LaneId} {k : TrackId} {slot : Nat} (hKp : [.lanes, .pool] ⊆ Kp) (hK : Keeps Kp K0 s) :
    KeepsO Kp K0 (execExtentReadStart n k slot s) := by
  unfold execExtentReadStart
  with_reducible repeat' first
    | assumption
    | refine KeepsO.next ?_
    | refine keeps_extentReadStart (subP hKp (by decide)) ?_

theorem keeps_refreshWaitExpire {Kp : List Part} {K0 s : State} {n : LaneId} (hKp : [.sent, .reg, .dict, .log, .life, .lanes, .alert] ⊆ Kp) (hK : Keeps Kp K0 s) :
    Keeps Kp K0 (refreshWaitExpire n s) := by
  unfold refreshWaitExpire
  extract_lets
  with_reducible repeat' first
    | assumption
    | refine keeps_checkSpare (subP hKp (by decide)) ?_
    | refine keeps_setLane (subP hKp (by decide)) ?_
    | refine Keeps.ite ?_ ?_
    | split

theorem keeps_execRefreshWaitExpire {Kp : List Part} {K0 s : State} {n : LaneId} (hKp : [.sent, .reg, .dict, .log, .life, .lanes, .alert] ⊆ Kp) (hK : Keeps Kp K0 s) :
    KeepsO Kp K0 (execRefreshWaitExpire n s) := by
  unfold execRefreshWaitExpire
  with_reducible repeat' first
    | assumption
    | refine KeepsO.next ?_
    | refine keeps_refreshWaitExpire (subP hKp (by decide)) ?_

end Sys2Proof.Machine
end

