-- ==== Sys2Proof/Laws/KeepsNvmeAdmin.lean ====
section
/-! SUPPORT. What the operations of NvmeAdmin.lean keep. -/

namespace Sys2Proof.Machine

set_option linter.unusedTactic false
set_option linter.unreachableTactic false
set_option linter.unusedVariables false

theorem keeps_fetchAny {Kp : List Part} {K0 s : State} {c : CmdId} {k : CmdId → State → State} (hKp : [.sent, .reg, .dict, .log, .life, .alert, .host, .mem, .cache, .pair, .work] ⊆ Kp) (hK : Keeps Kp K0 s) (hk : ∀ x0 q, Keeps Kp K0 q → Keeps Kp K0 (k x0 q)) :
    Keeps Kp K0 (fetchAny c k s) := by
  unfold fetchAny
  with_reducible repeat' first
    | assumption
    | (intro _; try intros)
    | refine keeps_fetch (subP hKp (by decide)) ?_ ?_
    | apply hk

theorem keeps_fetchAdmin {Kp : List Part} {K0 s : State} {c : CmdId} {k : CmdId → State → State} (hKp : [.sent, .reg, .dict, .log, .life, .alert, .host, .mem, .cache, .pair, .work] ⊆ Kp) (hK : Keeps Kp K0 s) (hk : ∀ x0 q, Keeps Kp K0 q → Keeps Kp K0 (k x0 q)) :
    Keeps Kp K0 (fetchAdmin c k s) := by
  unfold fetchAdmin
  with_reducible repeat' first
    | assumption
    | (intro _; try intros)
    | refine keeps_fetchAny (subP hKp (by decide)) ?_ ?_
    | refine keeps_refuse (subP hKp (by decide)) ?_
    | refine Keeps.ite ?_ ?_
    | apply hk

theorem keeps_adminDone {Kp : List Part} {K0 s : State} {c : CmdId} {dw0 : Nat} (hKp : [.sent, .reg, .host, .pair, .work] ⊆ Kp) (hK : Keeps Kp K0 s) :
    Keeps Kp K0 (adminDone c dw0 s) := by
  unfold adminDone
  with_reducible repeat' first
    | assumption
    | refine keeps_completeAs (subP hKp (by decide)) ?_
    | refine keeps_admitted (subP hKp (by decide)) ?_

theorem keeps_createCq {Kp : List Part} {K0 s : State} {dw10 : Nat} {dw11 : Nat} {prp : Nat} {c : CmdId} (hKp : [.sent, .reg, .host, .pair, .work] ⊆ Kp) (hK : Keeps Kp K0 s) :
    Keeps Kp K0 (createCq dw10 dw11 prp c s) := by
  unfold createCq
  with_reducible repeat' first
    | assumption
    | refine keeps_refuse (subP hKp (by decide)) ?_
    | refine keeps_adminDone (subP hKp (by decide)) ?_
    | refine keeps_setCtrl (subP hKp (by decide)) ?_
    | refine Keeps.ite ?_ ?_

theorem keeps_execCreateIoCq {Kp : List Part} {K0 s : State} {c : CmdId} {dw10 : Nat} {dw11 : Nat} {prp : Nat} (hKp : [.sent, .reg, .dict, .log, .life, .alert, .host, .mem, .cache, .pair, .work] ⊆ Kp) (hK : Keeps Kp K0 s) :
    KeepsO Kp K0 (execCreateIoCq c dw10 dw11 prp s) := by
  unfold execCreateIoCq
  with_reducible repeat' first
    | assumption
    | refine KeepsO.next ?_
    | (intro _; try intros)
    | refine keeps_fetchAdmin (subP hKp (by decide)) ?_ ?_
    | refine keeps_createCq (subP hKp (by decide)) ?_

theorem keeps_createSq {Kp : List Part} {K0 s : State} {dw10 : Nat} {dw11 : Nat} {prp : Nat} {c : CmdId} (hKp : [.sent, .reg, .dict, .log, .life, .alert, .host, .mem, .cache, .pair, .work] ⊆ Kp) (hK : Keeps Kp K0 s) :
    Keeps Kp K0 (createSq dw10 dw11 prp c s) := by
  unfold createSq
  with_reducible repeat' first
    | assumption
    | refine keeps_refuse (subP hKp (by decide)) ?_
    | refine keeps_listFails (subP hKp (by decide)) ?_
    | refine keeps_adminDone (subP hKp (by decide)) ?_
    | refine keeps_setCtrl (subP hKp (by decide)) ?_
    | refine Keeps.ite ?_ ?_
    | refine Keeps.snd (by assumption) ?_
    | split

theorem keeps_execCreateIoSq {Kp : List Part} {K0 s : State} {c : CmdId} {dw10 : Nat} {dw11 : Nat} {prp : Nat} (hKp : [.sent, .reg, .dict, .log, .life, .alert, .host, .mem, .cache, .pair, .work] ⊆ Kp) (hK : Keeps Kp K0 s) :
    KeepsO Kp K0 (execCreateIoSq c dw10 dw11 prp s) := by
  unfold execCreateIoSq
  with_reducible repeat' first
    | assumption
    | refine KeepsO.next ?_
    | (intro _; try intros)
    | refine keeps_fetchAdmin (subP hKp (by decide)) ?_ ?_
    | refine keeps_createSq (subP hKp (by decide)) ?_

theorem keeps_deleteSq {Kp : List Part} {K0 s : State} {dw10 : Nat} {c : CmdId} (hKp : [.sent, .reg, .teams, .host, .pair, .work] ⊆ Kp) (hK : Keeps Kp K0 s) :
    Keeps Kp K0 (deleteSq dw10 c s) := by
  unfold deleteSq
  with_reducible repeat' first
    | assumption
    | refine keeps_refuse (subP hKp (by decide)) ?_
    | refine keeps_takeOff (subP hKp (by decide)) ?_
    | refine keeps_setCtrl (subP hKp (by decide)) ?_
    | refine keeps_setFlights (subP hKp (by decide)) ?_
    | refine keeps_tryComplete (subP hKp (by decide)) ?_
    | refine Keeps.fold2 _ _ _ (fun _ _ _ => ?_) ?_
    | refine Keeps.foldl _ _ _ (fun _ _ _ => ?_) ?_
    | refine Keeps.ite ?_ ?_

theorem keeps_execDeleteIoSq {Kp : List Part} {K0 s : State} {c : CmdId} {dw10 : Nat} (hKp : [.sent, .reg, .dict, .log, .life, .teams, .alert, .host, .mem, .cache, .pair, .work] ⊆ Kp) (hK : Keeps Kp K0 s) :
    KeepsO Kp K0 (execDeleteIoSq c dw10 s) := by
  unfold execDeleteIoSq
  with_reducible repeat' first
    | assumption
    | refine KeepsO.next ?_
    | (intro _; try intros)
    | refine keeps_fetchAdmin (subP hKp (by decide)) ?_ ?_
    | refine keeps_deleteSq (subP hKp (by decide)) ?_

theorem keeps_deleteCq {Kp : List Part} {K0 s : State} {dw10 : Nat} {c : CmdId} (hKp : [.sent, .reg, .host, .pair, .work] ⊆ Kp) (hK : Keeps Kp K0 s) :
    Keeps Kp K0 (deleteCq dw10 c s) := by
  unfold deleteCq
  with_reducible repeat' first
    | assumption
    | refine keeps_refuse (subP hKp (by decide)) ?_
    | refine keeps_adminDone (subP hKp (by decide)) ?_
    | refine keeps_setCtrl (subP hKp (by decide)) ?_
    | refine Keeps.ite ?_ ?_

theorem keeps_execDeleteIoCq {Kp : List Part} {K0 s : State} {c : CmdId} {dw10 : Nat} (hKp : [.sent, .reg, .dict, .log, .life, .alert, .host, .mem, .cache, .pair, .work] ⊆ Kp) (hK : Keeps Kp K0 s) :
    KeepsO Kp K0 (execDeleteIoCq c dw10 s) := by
  unfold execDeleteIoCq
  with_reducible repeat' first
    | assumption
    | refine KeepsO.next ?_
    | (intro _; try intros)
    | refine keeps_fetchAdmin (subP hKp (by decide)) ?_ ?_
    | refine keeps_deleteCq (subP hKp (by decide)) ?_

theorem keeps_execInterruptCoalescingTimeout {Kp : List Part} {K0 s : State} {ctrl : PortId} {vector : Nat} (hKp : [.sent, .host] ⊆ Kp) (hK : Keeps Kp K0 s) :
    KeepsO Kp K0 (execInterruptCoalescingTimeout ctrl vector s) := by
  unfold execInterruptCoalescingTimeout
  with_reducible repeat' first
    | assumption
    | refine KeepsO.next ?_
    | refine KeepsO.ite ?_ ?_
    | refine keeps_send (subP hKp (by decide)) ?_
    | refine keeps_setCtrl (subP hKp (by decide)) ?_
    | refine Keeps.ite ?_ ?_

theorem keeps_asyncNext {Kp : List Part} {K0 s : State} {p : PortId} (hKp : [.sent, .host] ⊆ Kp) (hK : Keeps Kp K0 s) :
    Keeps Kp K0 (asyncNext p s) := by
  unfold asyncNext
  extract_lets
  with_reducible repeat' first
    | assumption
    | refine keeps_asyncPost (subP hKp (by decide)) ?_
    | refine keeps_setCtrl (subP hKp (by decide)) ?_
    | split

theorem keeps_logRead {Kp : List Part} {K0 s : State} {p : PortId} {lid : Nat} {rae : Bool} (hKp : [.sent, .host] ⊆ Kp) (hK : Keeps Kp K0 s) :
    Keeps Kp K0 (logRead p lid rae s) := by
  unfold logRead
  with_reducible repeat' first
    | assumption
    | refine keeps_setCtrl (subP hKp (by decide)) ?_
    | refine keeps_asyncNext (subP hKp (by decide)) ?_
    | refine Keeps.ite ?_ ?_
    | split

theorem keeps_getLog {Kp : List Part} {K0 s : State} {nsid : Nat} {dw10 : Nat} {dw11 : Nat} {dw12 : Nat} {dw13 : Nat} {c : CmdId} (hKp : [.sent, .reg, .host, .pair, .work] ⊆ Kp) (hK : Keeps Kp K0 s) :
    Keeps Kp K0 (getLog nsid dw10 dw11 dw12 dw13 c s) := by
  unfold getLog
  extract_lets
  with_reducible repeat' first
    | assumption
    | refine keeps_refuse (subP hKp (by decide)) ?_
    | refine keeps_adminDone (subP hKp (by decide)) ?_
    | refine keeps_logRead (subP hKp (by decide)) ?_
    | refine keeps_send (subP hKp (by decide)) ?_
    | refine Keeps.ite ?_ ?_
    | split

theorem keeps_execGetLogPage {Kp : List Part} {K0 s : State} {c : CmdId} {nsid : Nat} {dw10 : Nat} {dw11 : Nat} {dw12 : Nat} {dw13 : Nat} (hKp : [.sent, .reg, .dict, .log, .life, .alert, .host, .mem, .cache, .pair, .work] ⊆ Kp) (hK : Keeps Kp K0 s) :
    KeepsO Kp K0 (execGetLogPage c nsid dw10 dw11 dw12 dw13 s) := by
  unfold execGetLogPage
  with_reducible repeat' first
    | assumption
    | refine KeepsO.next ?_
    | (intro _; try intros)
    | refine keeps_fetchAdmin (subP hKp (by decide)) ?_ ?_
    | refine keeps_getLog (subP hKp (by decide)) ?_

theorem keeps_execIdentify {Kp : List Part} {K0 s : State} {c : CmdId} {nsid : Nat} {dw10 : Nat} {dw11 : Nat} (hKp : [.sent, .reg, .dict, .log, .life, .alert, .host, .mem, .cache, .pair, .work] ⊆ Kp) (hK : Keeps Kp K0 s) :
    KeepsO Kp K0 (execIdentify c nsid dw10 dw11 s) := by
  unfold execIdentify
  with_reducible repeat' first
    | assumption
    | refine KeepsO.next ?_
    | (intro _; try intros)
    | refine keeps_fetchAdmin (subP hKp (by decide)) ?_ ?_
    | refine keeps_refuse (subP hKp (by decide)) ?_
    | refine keeps_adminDone (subP hKp (by decide)) ?_
    | refine keeps_send (subP hKp (by decide)) ?_
    | split

theorem keeps_abortCommand {Kp : List Part} {K0 s : State} {dw10 : Nat} {c : CmdId} (hKp : [.sent, .reg, .teams, .host, .pair, .work] ⊆ Kp) (hK : Keeps Kp K0 s) :
    Keeps Kp K0 (abortCommand dw10 c s) := by
  unfold abortCommand
  with_reducible repeat' first
    | assumption
    | refine keeps_refuse (subP hKp (by decide)) ?_
    | refine keeps_completeOp (subP hKp (by decide)) ?_
    | refine keeps_bump (subP hKp (by decide)) ?_
    | refine keeps_admitted (subP hKp (by decide)) ?_
    | refine keeps_tryComplete (subP hKp (by decide)) ?_
    | refine keeps_setFlight (subP hKp (by decide)) ?_
    | refine Keeps.ite ?_ ?_
    | split

theorem keeps_execAbort {Kp : List Part} {K0 s : State} {c : CmdId} {dw10 : Nat} (hKp : [.sent, .reg, .dict, .log, .life, .teams, .alert, .host, .mem, .cache, .pair, .work] ⊆ Kp) (hK : Keeps Kp K0 s) :
    KeepsO Kp K0 (execAbort c dw10 s) := by
  unfold execAbort
  with_reducible repeat' first
    | assumption
    | refine KeepsO.next ?_
    | (intro _; try intros)
    | refine keeps_fetchAdmin (subP hKp (by decide)) ?_ ?_
    | refine keeps_abortCommand (subP hKp (by decide)) ?_

theorem keeps_setFeature {Kp : List Part} {K0 s : State} {sv : Bool}
    {g : CmdId → State → Except (Nat × Nat × Option Bool) (Nat × State)} {c : CmdId} (hKp : [.sent, .reg, .host, .pair, .work] ⊆ Kp)
    (hK : Keeps Kp K0 s) (hk : ∀ x0 q, Keeps Kp K0 q → KeepsF Kp K0 (g x0 q)) : Keeps Kp K0 (setFeature sv g c s) := by
  unfold setFeature
  refine Keeps.ite (keeps_refuse (subP hKp (by decide)) hK) ?_
  split
  · exact keeps_refuse (subP hKp (by decide)) hK
  · rename_i h
    exact keeps_adminDone (subP hKp (by decide)) (KeepsF.of h (hk _ _ hK))

theorem keeps_putFeature {Kp : List Part} {K0 s : State} {c : CmdId} {f : Features → Features} (hKp : [.host] ⊆ Kp)
    (hK : Keeps Kp K0 s) : KeepsF Kp K0 (putFeature c f s) := KeepsF.ok (keeps_setCtrl (subP hKp (by decide)) hK)

theorem keeps_execSetFeaturesArbitration {Kp : List Part} {K0 s : State} {c : CmdId} {sv : Bool} {dw11 : Nat} (hKp : [.sent, .reg, .dict, .log, .life, .alert, .host, .mem, .cache, .pair, .work] ⊆ Kp) (hK : Keeps Kp K0 s) :
    KeepsO Kp K0 (execSetFeaturesArbitration c sv dw11 s) := by
  unfold execSetFeaturesArbitration
  with_reducible repeat' first
    | assumption
    | refine KeepsO.next ?_
    | refine KeepsO.ite ?_ ?_
    | (intro _; try intros)
    | exact KeepsF.error
    | refine KeepsF.ite ?_ ?_
    | refine keeps_putFeature (subP hKp (by decide)) ?_
    | refine KeepsF.ok ?_
    | refine keeps_setFeature (subP hKp (by decide)) ?_ ?_
    | exact KeepsF.error
    | refine keeps_fetchAdmin (subP hKp (by decide)) ?_ ?_
    | refine keeps_setFeature (subP hKp (by decide)) ?_ ?_
    | refine keeps_putFeature (subP hKp (by decide)) ?_
    | refine Keeps.ite ?_ ?_

theorem keeps_execSetFeaturesTempThreshold {Kp : List Part} {K0 s : State} {c : CmdId} {sv : Bool} {dw11 : Nat} (hKp : [.sent, .reg, .dict, .log, .life, .alert, .host, .mem, .cache, .pair, .work] ⊆ Kp) (hK : Keeps Kp K0 s) :
    KeepsO Kp K0 (execSetFeaturesTempThreshold c sv dw11 s) := by
  unfold execSetFeaturesTempThreshold
  with_reducible repeat' first
    | assumption
    | refine KeepsO.next ?_
    | refine KeepsO.ite ?_ ?_
    | (intro _; try intros)
    | exact KeepsF.error
    | refine KeepsF.ite ?_ ?_
    | refine keeps_putFeature (subP hKp (by decide)) ?_
    | refine KeepsF.ok ?_
    | refine keeps_setFeature (subP hKp (by decide)) ?_ ?_
    | exact KeepsF.error
    | refine keeps_fetchAdmin (subP hKp (by decide)) ?_ ?_
    | refine keeps_warningCheck (subP hKp (by decide)) ?_
    | refine keeps_setFeature (subP hKp (by decide)) ?_ ?_
    | refine keeps_putFeature (subP hKp (by decide)) ?_
    | refine Keeps.ite ?_ ?_

theorem keeps_execSetFeaturesNumberOfQueues {Kp : List Part} {K0 s : State} {c : CmdId} {sv : Bool} {dw11 : Nat} (hKp : [.sent, .reg, .dict, .log, .life, .alert, .host, .mem, .cache, .pair, .work] ⊆ Kp) (hK : Keeps Kp K0 s) :
    KeepsO Kp K0 (execSetFeaturesNumberOfQueues c sv dw11 s) := by
  unfold execSetFeaturesNumberOfQueues
  with_reducible repeat' first
    | assumption
    | refine KeepsO.next ?_
    | refine KeepsO.ite ?_ ?_
    | (intro _; try intros)
    | exact KeepsF.error
    | refine KeepsF.ite ?_ ?_
    | refine keeps_putFeature (subP hKp (by decide)) ?_
    | refine KeepsF.ok ?_
    | refine keeps_setFeature (subP hKp (by decide)) ?_ ?_
    | exact KeepsF.error
    | refine keeps_fetchAdmin (subP hKp (by decide)) ?_ ?_
    | refine keeps_setFeature (subP hKp (by decide)) ?_ ?_
    | refine keeps_setCtrl (subP hKp (by decide)) ?_
    | refine Keeps.ite ?_ ?_

theorem keeps_execSetFeaturesIntCoalescing {Kp : List Part} {K0 s : State} {c : CmdId} {sv : Bool} {dw11 : Nat} (hKp : [.sent, .reg, .dict, .log, .life, .alert, .host, .mem, .cache, .pair, .work] ⊆ Kp) (hK : Keeps Kp K0 s) :
    KeepsO Kp K0 (execSetFeaturesIntCoalescing c sv dw11 s) := by
  unfold execSetFeaturesIntCoalescing
  with_reducible repeat' first
    | assumption
    | refine KeepsO.next ?_
    | refine KeepsO.ite ?_ ?_
    | (intro _; try intros)
    | exact KeepsF.error
    | refine KeepsF.ite ?_ ?_
    | refine keeps_putFeature (subP hKp (by decide)) ?_
    | refine KeepsF.ok ?_
    | refine keeps_setFeature (subP hKp (by decide)) ?_ ?_
    | exact KeepsF.error
    | refine keeps_fetchAdmin (subP hKp (by decide)) ?_ ?_
    | refine keeps_setFeature (subP hKp (by decide)) ?_ ?_
    | refine keeps_putFeature (subP hKp (by decide)) ?_
    | refine Keeps.ite ?_ ?_

theorem keeps_execSetFeaturesIntVectorConfig {Kp : List Part} {K0 s : State} {c : CmdId} {sv : Bool} {dw11 : Nat} (hKp : [.sent, .reg, .dict, .log, .life, .alert, .host, .mem, .cache, .pair, .work] ⊆ Kp) (hK : Keeps Kp K0 s) :
    KeepsO Kp K0 (execSetFeaturesIntVectorConfig c sv dw11 s) := by
  unfold execSetFeaturesIntVectorConfig
  with_reducible repeat' first
    | assumption
    | refine KeepsO.next ?_
    | refine KeepsO.ite ?_ ?_
    | (intro _; try intros)
    | exact KeepsF.error
    | refine KeepsF.ite ?_ ?_
    | refine keeps_putFeature (subP hKp (by decide)) ?_
    | refine KeepsF.ok ?_
    | refine keeps_setFeature (subP hKp (by decide)) ?_ ?_
    | exact KeepsF.error
    | refine keeps_fetchAdmin (subP hKp (by decide)) ?_ ?_
    | refine keeps_setFeature (subP hKp (by decide)) ?_ ?_
    | refine keeps_putFeature (subP hKp (by decide)) ?_
    | refine Keeps.ite ?_ ?_

theorem keeps_execSetFeaturesAsyncEventConfig {Kp : List Part} {K0 s : State} {c : CmdId} {sv : Bool} {dw11 : Nat} (hKp : [.sent, .reg, .dict, .log, .life, .alert, .host, .mem, .cache, .pair, .work] ⊆ Kp) (hK : Keeps Kp K0 s) :
    KeepsO Kp K0 (execSetFeaturesAsyncEventConfig c sv dw11 s) := by
  unfold execSetFeaturesAsyncEventConfig
  with_reducible repeat' first
    | assumption
    | refine KeepsO.next ?_
    | (intro _; try intros)
    | exact KeepsF.error
    | refine KeepsF.ite ?_ ?_
    | refine keeps_putFeature (subP hKp (by decide)) ?_
    | refine KeepsF.ok ?_
    | refine keeps_setFeature (subP hKp (by decide)) ?_ ?_
    | exact KeepsF.error
    | refine keeps_fetchAdmin (subP hKp (by decide)) ?_ ?_
    | refine keeps_setFeature (subP hKp (by decide)) ?_ ?_
    | refine keeps_putFeature (subP hKp (by decide)) ?_

theorem keeps_execSetFeaturesUnsupported {Kp : List Part} {K0 s : State} {c : CmdId} {sv : Bool} {_fid : Nat} (hKp : [.sent, .reg, .dict, .log, .life, .alert, .host, .mem, .cache, .pair, .work] ⊆ Kp) (hK : Keeps Kp K0 s) :
    KeepsO Kp K0 (execSetFeaturesUnsupported c sv _fid s) := by
  unfold execSetFeaturesUnsupported
  with_reducible repeat' first
    | assumption
    | refine KeepsO.next ?_
    | (intro _; try intros)
    | exact KeepsF.error
    | refine KeepsF.ite ?_ ?_
    | refine keeps_putFeature (subP hKp (by decide)) ?_
    | refine KeepsF.ok ?_
    | refine keeps_setFeature (subP hKp (by decide)) ?_ ?_
    | exact KeepsF.error
    | refine keeps_fetchAdmin (subP hKp (by decide)) ?_ ?_
    | refine keeps_setFeature (subP hKp (by decide)) ?_ ?_

theorem keeps_execGetFeatures {Kp : List Part} {K0 s : State} {c : CmdId} {dw10 : Nat} {dw11 : Nat} (hKp : [.sent, .reg, .dict, .log, .life, .alert, .host, .mem, .cache, .pair, .work] ⊆ Kp) (hK : Keeps Kp K0 s) :
    KeepsO Kp K0 (execGetFeatures c dw10 dw11 s) := by
  unfold execGetFeatures
  with_reducible repeat' first
    | assumption
    | refine KeepsO.next ?_
    | refine KeepsO.ite ?_ ?_
    | (intro _; try intros)
    | refine keeps_fetchAny (subP hKp (by decide)) ?_ ?_
    | refine keeps_refuse (subP hKp (by decide)) ?_
    | refine keeps_adminDone (subP hKp (by decide)) ?_
    | refine Keeps.ite ?_ ?_
    | split

theorem keeps_execAsyncEventRequest {Kp : List Part} {K0 s : State} {c : CmdId} (hKp : [.sent, .reg, .dict, .log, .life, .alert, .host, .mem, .cache, .pair, .work] ⊆ Kp) (hK : Keeps Kp K0 s) :
    KeepsO Kp K0 (execAsyncEventRequest c s) := by
  unfold execAsyncEventRequest
  with_reducible repeat' first
    | assumption
    | refine KeepsO.next ?_
    | refine KeepsO.ite ?_ ?_
    | (intro _; try intros)
    | refine keeps_fetchAdmin (subP hKp (by decide)) ?_ ?_
    | refine keeps_refuse (subP hKp (by decide)) ?_
    | refine keeps_asyncNext (subP hKp (by decide)) ?_
    | refine keeps_setCtrl (subP hKp (by decide)) ?_
    | refine keeps_admitted (subP hKp (by decide)) ?_
    | refine Keeps.ite ?_ ?_

theorem keeps_execInvalidOpcode {Kp : List Part} {K0 s : State} {c : CmdId} {_opcode : Nat} (hKp : [.sent, .reg, .dict, .log, .life, .alert, .host, .mem, .cache, .pair, .work] ⊆ Kp) (hK : Keeps Kp K0 s) :
    KeepsO Kp K0 (execInvalidOpcode c _opcode s) := by
  unfold execInvalidOpcode
  with_reducible repeat' first
    | assumption
    | refine KeepsO.next ?_
    | (intro _; try intros)
    | refine keeps_fetch (subP hKp (by decide)) ?_ ?_
    | refine keeps_refuse (subP hKp (by decide)) ?_

end Sys2Proof.Machine
end

