-- ==== Sys2Proof/Laws/KeepsReply.lean ====
section
/-! SUPPORT. What the operations of Reply.lean keep. -/

namespace Sys2Proof.Machine

set_option linter.unusedTactic false
set_option linter.unreachableTactic false
set_option linter.unusedVariables false

theorem keeps_respond {Kp : List Part} {K0 s : State} {slot : Fin 8} {d : Datagram} {ty seq status : Nat} {body : Bytes}
    (hKp : [.sent, .dict] ⊆ Kp) (hK : Keeps Kp K0 s) : Keeps Kp K0 (respond slot d ty seq status body s) := by
  unfold respond
  split
  · exact hK
  · refine keeps_send (subP hKp (by decide)) ?_
    with_reducible apply Keeps.upd hK
    case hd =>
      refine dict_set rfl (fun _ y hy => ?_)
      cases hy
      simp only [List.length_take]
      omega
    all_goals with_reducible first
      | exact .inl rfl
      | exact .inr (memP hKp (by decide))
      | exact id

theorem keeps_dictDone {Kp : List Part} {K0 s : State} {c : CmdId} {dw0 : Nat} {dw1 : Nat} (hKp : [.sent, .teams, .host, .pair, .work] ⊆ Kp) (hK : Keeps Kp K0 s) :
    Keeps Kp K0 (dictDone c dw0 dw1 s) := by
  unfold dictDone
  with_reducible repeat' first
    | assumption
    | refine keeps_tryComplete (subP hKp (by decide)) ?_
    | refine keeps_setFlight (subP hKp (by decide)) ?_
    | split

theorem keeps_sendAck {Kp : List Part} {K0 s : State} {seq : Nat} {status : Nat} (hKp : [.sent, .pair] ⊆ Kp) (hK : Keeps Kp K0 s) :
    Keeps Kp K0 (sendAck seq status s) := by
  unfold sendAck
  with_reducible repeat' first
    | assumption
    | refine keeps_batonSend (subP hKp (by decide)) ?_

theorem keeps_countChange {Kp : List Part} {K0 s : State} {index : Nat} {sub : Nat} (hKp : [.dict] ⊆ Kp) (hK : Keeps Kp K0 s) :
    Keeps Kp K0 (countChange index sub s) := by
  unfold countChange
  with_reducible repeat' first
    | assumption
    | exact .inl rfl
    | exact .inr (memP hKp (by decide))
    | exact id
    | exact dict_of rfl
    | apply Keeps.upd

theorem keeps_answerReply {Kp : List Part} {K0 s : State} {r : Reply} {status : Nat} (hKp : [.sent, .dict, .teams, .host, .pair, .work] ⊆ Kp) (hK : Keeps Kp K0 s) :
    Keeps Kp K0 (answerReply r status s) := by
  unfold answerReply
  with_reducible repeat' first
    | assumption
    | refine keeps_respond (subP hKp (by decide)) ?_
    | refine keeps_dictDone (subP hKp (by decide)) ?_
    | refine keeps_send (subP hKp (by decide)) ?_
    | refine keeps_sendAck (subP hKp (by decide)) ?_
    | refine Keeps.ite ?_ ?_
    | split

end Sys2Proof.Machine
end

