-- ==== Sys2Proof/Laws/KeepsPersist.lean ====
section
/-! SUPPORT. What the operations of Persist.lean keep. -/

namespace Sys2Proof.Machine

set_option linter.unusedTactic false
set_option linter.unreachableTactic false
set_option linter.unusedVariables false

theorem keeps_putKey {Kp : List Part} {K0 s : State} {sub : Nat} {v : Bytes} (hKp : [.keys] ⊆ Kp) (hK : Keeps Kp K0 s) :
    Keeps Kp K0 (putKey sub v s) := by
  unfold putKey
  with_reducible repeat' first
    | assumption
    | refine Keeps.ite ?_ ?_
    | exact .inl rfl
    | exact .inr (memP hKp (by decide))
    | exact id
    | exact dict_of rfl
    | apply Keeps.upd

theorem keeps_recordDropped {Kp : List Part} {K0 s : State} {index : Nat} {sub : Nat} {status : Nat} (hKp : [.sent, .dict, .conf, .log, .life, .alert] ⊆ Kp) (hK : Keeps Kp K0 s) :
    Keeps Kp K0 (recordDropped index sub status s) := by
  unfold recordDropped
  with_reducible repeat' first
    | assumption
    | refine keeps_raise (subP hKp (by decide)) ?_
    | exact .inl rfl
    | exact .inr (memP hKp (by decide))
    | exact id
    | apply Keeps.upd

theorem keeps_applyRecords {Kp : List Part} {K0 s : State} {l : List ConfRecord}
    (hKp : [.sent, .reg, .keys, .dict, .conf, .log, .life, .alert] ⊆ Kp) (hK : Keeps Kp K0 s) : Keeps Kp K0 (applyRecords l s).1 := by
  unfold applyRecords
  refine Keeps.foldP (fun b : State × List (Nat × Nat) => b.1) _ _ _ (fun b x h => ?_) hK
  dsimp only at h ⊢
  generalize recordStatus x = k
  split
  · with_reducible exact keeps_recordDropped (subP hKp (by decide)) h
  · split
    · with_reducible exact keeps_putKey (subP hKp (by decide)) h
    · with_reducible exact keeps_store (subP hKp (by decide)) h

theorem keeps_settleRecords {Kp : List Part} {K0 s : State} {y0 : Nat} {y1 : List (Nat × Nat)} (hKp : [.sent, .reg, .dict, .conf, .log, .life, .alert] ⊆ Kp) (hK : Keeps Kp K0 s) :
    Keeps Kp K0 (settleRecords y0 y1 s) := by
  induction y0 generalizing y1 s with
  | zero => exact hK
  | succ n ih =>
    unfold settleRecords
    with_reducible repeat' first
      | assumption
      | refine ih ?_
      | refine keeps_recordDropped (subP hKp (by decide)) ?_
      | refine keeps_unstore (subP hKp (by decide)) ?_
      | refine Keeps.fold2 _ _ _ (fun _ _ _ => ?_) ?_
      | refine Keeps.foldl _ _ _ (fun _ _ _ => ?_) ?_
      | refine Keeps.ite ?_ ?_

theorem keeps_startDictionary {Kp : List Part} {K0 s : State}  (hKp : [.sent, .reg, .keys, .dict, .conf, .log, .life, .alert] ⊆ Kp) (hK : Keeps Kp K0 s) :
    Keeps Kp K0 (startDictionary s) := by
  unfold startDictionary
  with_reducible repeat' first
    | assumption
    | refine keeps_raise (subP hKp (by decide)) ?_
    | refine keeps_applyRecords (subP hKp (by decide)) ?_
    | refine keeps_settleRecords (subP hKp (by decide)) ?_
    | refine Keeps.ite ?_ ?_
    | exact .inl rfl
    | exact .inr (memP hKp (by decide))
    | exact id
    | refine Keeps.fst (by assumption) ?_
    | split
    | apply Keeps.upd

theorem keeps_startSave {Kp : List Part} {K0 s : State} {reply : Reply} (hKp : [.conf] ⊆ Kp) (hK : Keeps Kp K0 s) :
    KeepsE Kp K0 (startSave reply s) := by
  unfold startSave
  with_reducible repeat' first
    | assumption
    | refine KeepsE.ok ?_
    | exact KeepsE.error
    | refine KeepsE.ite ?_ ?_
    | refine Keeps.ite ?_ ?_
    | exact .inl rfl
    | exact .inr (memP hKp (by decide))
    | exact id
    | apply Keeps.upd

theorem keeps_execSaveDone {Kp : List Part} {K0 s : State} {readBackOk : Bool}
    (hKp : [.sent, .dict, .conf, .teams, .host, .pair, .work, .fw] ⊆ Kp) (hK : Keeps Kp K0 s) :
    KeepsO Kp K0 (execSaveDone readBackOk s) := by
  have up {c : ConfigRegion} {f : Firmware} : Keeps Kp K0 { s with conf := c, fw := f } := by
    with_reducible apply Keeps.upd hK
    all_goals with_reducible first
      | exact .inl rfl
      | exact .inr (memP hKp (by decide))
      | exact id
  have up1 {c : ConfigRegion} : Keeps Kp K0 { s with conf := c } := by
    with_reducible apply Keeps.upd hK
    all_goals with_reducible first
      | exact .inl rfl
      | exact .inr (memP hKp (by decide))
      | exact id
  unfold execSaveDone
  split
  · exact KeepsO.next hK
  · refine KeepsO.ite (KeepsO.next ?_) (KeepsO.next ?_)
    · exact keeps_answerReply (subP hKp (by decide)) (keeps_countChange (subP hKp (by decide)) up)
    · exact keeps_answerReply (subP hKp (by decide)) up1

theorem keeps_restoreDefaults {Kp : List Part} {K0 s : State}  (hKp : [.reg] ⊆ Kp) (hK : Keeps Kp K0 s) :
    Keeps Kp K0 (restoreDefaults s) := by
  unfold restoreDefaults
  with_reducible repeat' first
    | assumption
    | exact .inl rfl
    | exact .inr (memP hKp (by decide))
    | exact id
    | exact dict_of rfl
    | apply Keeps.upd

end Sys2Proof.Machine
end

