-- ==== Sys2Proof/Laws/KeepsRecords.lean ====
section
/-! SUPPORT. What the operations of Records.lean keep. -/

namespace Sys2Proof.Machine

set_option linter.unusedTactic false
set_option linter.unreachableTactic false
set_option linter.unusedVariables false

theorem keeps_putTime {Kp : List Part} {K0 s : State} {t : Nat} (hKp : [.cal] ⊆ Kp) (hK : Keeps Kp K0 s) :
    Keeps Kp K0 (putTime t s) := by
  unfold putTime
  with_reducible repeat' first
    | assumption
    | exact .inl rfl
    | exact .inr (memP hKp (by decide))
    | exact id
    | apply Keeps.upd

theorem keeps_setTime {Kp : List Part} {K0 s : State} {t : Nat} (hKp : [.cal] ⊆ Kp) (hK : Keeps Kp K0 s) :
    Keeps Kp K0 (setTime t s) := by
  unfold setTime
  with_reducible repeat' first
    | assumption
    | refine keeps_putTime (subP hKp (by decide)) ?_
    | exact .inl rfl
    | exact .inr (memP hKp (by decide))
    | exact id
    | apply Keeps.upd

theorem keeps_slewTime {Kp : List Part} {K0 s : State} {off : Int} (hKp : [.cal] ⊆ Kp) (hK : Keeps Kp K0 s) :
    Keeps Kp K0 (slewTime off s) := by
  unfold slewTime
  with_reducible repeat' first
    | assumption
    | refine keeps_putTime (subP hKp (by decide)) ?_
    | exact .inl rfl
    | exact .inr (memP hKp (by decide))
    | exact id
    | apply Keeps.upd

theorem keeps_setCalendarEffect {Kp : List Part} {K0 s : State} {v : Bytes} (hKp : [.cal] ⊆ Kp) (hK : Keeps Kp K0 s) :
    KeepsE Kp K0 (setCalendarEffect v s) := by
  unfold setCalendarEffect
  with_reducible repeat' first
    | assumption
    | refine KeepsE.ok ?_
    | refine keeps_setTime (subP hKp (by decide)) ?_

theorem keeps_setPpsEffect {Kp : List Part} {K0 s : State} {v : Bytes} (hKp : [.cal] ⊆ Kp) (hK : Keeps Kp K0 s) :
    KeepsE Kp K0 (setPpsEffect v s) := by
  unfold setPpsEffect
  with_reducible repeat' first
    | assumption
    | refine KeepsE.ok ?_
    | exact .inl rfl
    | exact .inr (memP hKp (by decide))
    | exact id
    | split
    | apply Keeps.upd

theorem keeps_measureEdge {Kp : List Part} {K0 s : State}  (hKp : [.free, .cal] ⊆ Kp) (hK : Keeps Kp K0 s) :
    Keeps Kp K0 (measureEdge s) := by
  unfold measureEdge
  with_reducible repeat' first
    | assumption
    | refine keeps_draw (subP hKp (by decide)) ?_
    | refine keeps_slewTime (subP hKp (by decide)) ?_
    | refine Keeps.ite ?_ ?_
    | exact .inl rfl
    | exact .inr (memP hKp (by decide))
    | exact id
    | refine Keeps.snd (by assumption) ?_
    | split
    | apply Keeps.upd

theorem keeps_execPpsEdge {Kp : List Part} {K0 s : State}  (hKp : [.free, .cal] ⊆ Kp) (hK : Keeps Kp K0 s) :
    KeepsO Kp K0 (execPpsEdge s) := by
  unfold execPpsEdge
  with_reducible repeat' first
    | assumption
    | refine KeepsO.next ?_
    | refine KeepsO.ite ?_ ?_
    | refine keeps_setTime (subP hKp (by decide)) ?_
    | refine keeps_measureEdge (subP hKp (by decide)) ?_
    | refine Keeps.ite ?_ ?_
    | exact .inl rfl
    | exact .inr (memP hKp (by decide))
    | exact id
    | split
    | apply Keeps.upd

theorem keeps_execPpsTimeout {Kp : List Part} {K0 s : State}  (hKp : [.cal] ⊆ Kp) (hK : Keeps Kp K0 s) :
    KeepsO Kp K0 (execPpsTimeout s) := by
  unfold execPpsTimeout
  with_reducible repeat' first
    | assumption
    | refine KeepsO.next ?_
    | refine KeepsO.ite ?_ ?_
    | refine Keeps.ite ?_ ?_
    | exact .inl rfl
    | exact .inr (memP hKp (by decide))
    | exact id
    | split
    | apply Keeps.upd

theorem keeps_countPowerOn {Kp : List Part} {K0 s : State}  (hKp : [.life] ⊆ Kp) (hK : Keeps Kp K0 s) :
    Keeps Kp K0 (countPowerOn s) := by
  unfold countPowerOn
  with_reducible repeat' first
    | assumption
    | refine keeps_lifeUnit (subP hKp (by decide)) ?_
    | exact .inl rfl
    | exact .inr (memP hKp (by decide))
    | exact id
    | apply Keeps.upd

theorem keeps_lifeSave {Kp : List Part} {K0 s : State} {clean : Bool} (hKp : [.life] ⊆ Kp) (hK : Keeps Kp K0 s) :
    Keeps Kp K0 (lifeSave clean s) := by
  unfold lifeSave
  with_reducible repeat' first
    | assumption
    | refine keeps_countPowerOn (subP hKp (by decide)) ?_
    | refine Keeps.ite ?_ ?_
    | exact .inl rfl
    | exact .inr (memP hKp (by decide))
    | exact id
    | split
    | apply Keeps.upd

theorem keeps_execLifetimeSave {Kp : List Part} {K0 s : State}  (hKp : [.life] ⊆ Kp) (hK : Keeps Kp K0 s) :
    KeepsO Kp K0 (execLifetimeSave s) := by
  unfold execLifetimeSave
  with_reducible repeat' first
    | assumption
    | refine KeepsO.next ?_
    | refine KeepsO.ite ?_ ?_
    | refine keeps_lifeSave (subP hKp (by decide)) ?_
    | refine Keeps.ite ?_ ?_
    | split

theorem keeps_startLifetime {Kp : List Part} {K0 s : State} {powerOn : Bool}
    (hKp : [.sent, .dict, .log, .cal, .life, .alert] ⊆ Kp) (hK : Keeps Kp K0 s) : Keeps Kp K0 (startLifetime powerOn s) := by
  have up {l : Lifetime} {g : Log} {c : Calendar} (hg : g.entries = s.log.entries) : Keeps Kp K0 { s with life := l, log := g, cal := c } := by
    with_reducible apply Keeps.upd hK
    all_goals with_reducible first
      | exact .inl rfl
      | exact .inr (memP hKp (by decide))
      | exact id
      | exact log_of hg
  have up1 {l : Lifetime} : Keeps Kp K0 { s with life := l } := by
    with_reducible apply Keeps.upd hK
    all_goals with_reducible first
      | exact .inl rfl
      | exact .inr (memP hKp (by decide))
      | exact id
  have k : Keeps Kp K0 (match bestPage s.life with
    | none => raise 0x1702 [] { s with
        life := { s.life with
          unit := Vector.replicate 8 0, lanes := Vector.replicate 32 (Vector.replicate 4 0), generation := 0, page := none, lastSeq := 0
          lastSave := s.ticks, counted := s.ticks, due := none } }
    | some (i, b) =>
      { s with
        life := { s.life with
          unit := Vector.ofFn (fun k : Fin 8 =>
            field b (24 + 8 * k.val) 8 + (if k.val = 2 ∧ powerOn ∧ field b 20 4 % 2 = 0 then 1 else 0))
          lanes := Vector.ofFn (fun n : Fin 32 => Vector.ofFn (fun k : Fin 4 => field b (88 + 32 * n.val + 8 * k.val) 8))
          generation := field b 4 4, page := some i, lastSeq := field b 16 4
          lastSave := s.ticks, counted := s.ticks, due := none }
        log := { s.log with nextSeq := (field b 16 4 + 2 ^ 20) % 2 ^ 32 }
        cal := { s.cal with base := field b 8 8, tick := s.ticks, unset := true } }) := by
    split
    · exact keeps_raise (subP hKp (by decide)) up1
    · exact up rfl
  exact Keeps.ite (keeps_lifeUnit (subP hKp (by decide)) k) k

theorem keeps_ageCheck {Kp : List Part} {K0 s : State} {n : LaneId} (hKp : [.sent, .dict, .log, .life, .lanes, .alert] ⊆ Kp) (hK : Keeps Kp K0 s) :
    Keeps Kp K0 (ageCheck n s) := by
  unfold ageCheck
  extract_lets
  with_reducible repeat' first
    | assumption
    | refine keeps_raise (subP hKp (by decide)) ?_
    | refine keeps_setLane (subP hKp (by decide)) ?_
    | refine Keeps.ite ?_ ?_
    | split

theorem keeps_pickupLifetimeWrite {Kp : List Part} {K0 s : State} {n : LaneId} (hKp : [.sent, .dict, .log, .life, .lanes, .alert] ⊆ Kp) (hK : Keeps Kp K0 s) :
    Keeps Kp K0 (pickupLifetimeWrite n s) := by
  unfold pickupLifetimeWrite
  extract_lets
  with_reducible repeat' first
    | assumption
    | refine keeps_ageCheck (subP hKp (by decide)) ?_
    | refine keeps_send (subP hKp (by decide)) ?_
    | refine keeps_setLane (subP hKp (by decide)) ?_
    | refine Keeps.ite ?_ ?_
    | split

theorem keeps_execPickupLifetimeWrite {Kp : List Part} {K0 s : State} {n : LaneId} (hKp : [.sent, .dict, .log, .life, .lanes, .alert] ⊆ Kp) (hK : Keeps Kp K0 s) :
    KeepsO Kp K0 (execPickupLifetimeWrite n s) := by
  unfold execPickupLifetimeWrite
  with_reducible repeat' first
    | assumption
    | refine KeepsO.next ?_
    | refine keeps_pickupLifetimeWrite (subP hKp (by decide)) ?_

end Sys2Proof.Machine
end

