-- ==== Sys2Proof/Laws/KeepsPair.lean ====
section
/-! SUPPORT. What the operations of Pair.lean keep. -/

namespace Sys2Proof.Machine

set_option linter.unusedTactic false
set_option linter.unreachableTactic false
set_option linter.unusedVariables false

theorem keeps_roleChange {Kp : List Part} {K0 s : State} {f : Pair → Pair} (hKp : [.sent, .host, .pair] ⊆ Kp) (hK : Keeps Kp K0 s) :
    Keeps Kp K0 (roleChange f s) := by
  unfold roleChange
  with_reducible repeat' first
    | assumption
    | refine keeps_anaChange (subP hKp (by decide)) ?_
    | refine Keeps.fold2 _ _ _ (fun _ _ _ => ?_) ?_
    | refine Keeps.foldl _ _ _ (fun _ _ _ => ?_) ?_
    | exact .inl rfl
    | exact .inr (memP hKp (by decide))
    | exact id
    | apply Keeps.upd

theorem keeps_disarm {Kp : List Part} {K0 s : State}  (hKp : [.sent, .dict, .log, .life, .alert, .work] ⊆ Kp) (hK : Keeps Kp K0 s) :
    Keeps Kp K0 (disarm s) := by
  unfold disarm
  with_reducible repeat' first
    | assumption
    | refine keeps_raise (subP hKp (by decide)) ?_
    | refine Keeps.ite ?_ ?_
    | exact .inl rfl
    | exact .inr (memP hKp (by decide))
    | exact id
    | apply Keeps.upd

theorem keeps_arm {Kp : List Part} {K0 s : State}  (hKp : [.sent, .dict, .log, .life, .alert, .work] ⊆ Kp) (hK : Keeps Kp K0 s) :
    Keeps Kp K0 (arm s) := by
  unfold arm
  with_reducible repeat' first
    | assumption
    | refine keeps_raise (subP hKp (by decide)) ?_
    | refine Keeps.ite ?_ ?_
    | exact .inl rfl
    | exact .inr (memP hKp (by decide))
    | exact id
    | split
    | apply Keeps.upd

theorem keeps_unpair {Kp : List Part} {K0 s : State} {reason : Nat} (hKp : [.sent, .dict, .log, .life, .alert, .host, .pair, .work] ⊆ Kp) (hK : Keeps Kp K0 s) :
    Keeps Kp K0 (unpair reason s) := by
  unfold unpair
  with_reducible repeat' first
    | assumption
    | refine keeps_raise (subP hKp (by decide)) ?_
    | refine keeps_roleChange (subP hKp (by decide)) ?_
    | refine keeps_disarm (subP hKp (by decide)) ?_

theorem keeps_flushAcks {Kp : List Part} {K0 s : State}  (hKp : [.sent, .dict, .log, .life, .teams, .alert, .host, .pair, .work] ⊆ Kp) (hK : Keeps Kp K0 s) :
    Keeps Kp K0 (flushAcks s) := by
  unfold flushAcks
  with_reducible repeat' first
    | assumption
    | refine keeps_commitFlight (subP hKp (by decide)) ?_
    | refine keeps_carriedCheck (subP hKp (by decide)) ?_
    | refine keeps_answerReply (subP hKp (by decide)) ?_
    | refine Keeps.fold2 _ _ _ (fun _ _ _ => ?_) ?_
    | refine Keeps.foldl _ _ _ (fun _ _ _ => ?_) ?_
    | exact .inl rfl
    | exact .inr (memP hKp (by decide))
    | exact id
    | split
    | apply Keeps.upd

theorem keeps_yieldQueues {Kp : List Part} {K0 s : State}  (hKp : [.lanes, .host, .work] ⊆ Kp) (hK : Keeps Kp K0 s) :
    Keeps Kp K0 (yieldQueues s) := by
  unfold yieldQueues
  with_reducible repeat' first
    | assumption
    | refine keeps_setFlights (subP hKp (by decide)) ?_
    | refine keeps_setCtrl (subP hKp (by decide)) ?_
    | refine keeps_setLane (subP hKp (by decide)) ?_
    | refine Keeps.fold2 _ _ _ (fun _ _ _ => ?_) ?_
    | refine Keeps.foldl _ _ _ (fun _ _ _ => ?_) ?_
    | exact .inl rfl
    | exact .inr (memP hKp (by decide))
    | exact id
    | split
    | apply Keeps.upd

theorem keeps_formPair {Kp : List Part} {K0 s : State}  (hKp : [.sent, .dict, .log, .cal, .life, .alert, .host, .pair, .work] ⊆ Kp) (hK : Keeps Kp K0 s) :
    Keeps Kp K0 (formPair s) := by
  unfold formPair
  with_reducible repeat' first
    | assumption
    | refine keeps_roleChange (subP hKp (by decide)) ?_
    | refine keeps_raise (subP hKp (by decide)) ?_
    | refine keeps_putTime (subP hKp (by decide)) ?_
    | refine Keeps.ite ?_ ?_
    | exact .inl rfl
    | exact .inr (memP hKp (by decide))
    | exact id
    | split
    | apply Keeps.upd

theorem keeps_peerKnown {Kp : List Part} {K0 s : State} {serial : Bytes} (hKp : [.sent, .dict, .log, .life, .alert, .pair] ⊆ Kp) (hK : Keeps Kp K0 s) :
    Keeps Kp K0 (peerKnown serial s) := by
  unfold peerKnown
  with_reducible repeat' first
    | assumption
    | refine keeps_raise (subP hKp (by decide)) ?_
    | refine Keeps.ite ?_ ?_
    | exact .inl rfl
    | exact .inr (memP hKp (by decide))
    | exact id
    | apply Keeps.upd

theorem keeps_meetPeer {Kp : List Part} {K0 s : State}  (hKp : [.sent, .host, .pair] ⊆ Kp) (hK : Keeps Kp K0 s) :
    Keeps Kp K0 (meetPeer s) := by
  unfold meetPeer
  with_reducible repeat' first
    | assumption
    | refine keeps_roleChange (subP hKp (by decide)) ?_
    | refine Keeps.ite ?_ ?_

theorem keeps_batonReceive {Kp : List Part} {K0 s : State} {ty : Nat} {frame : Bytes} {k : BatonIn → Nat → State → State} (hKp : [.reg, .pair] ⊆ Kp) (hK : Keeps Kp K0 s) (hk : ∀ x0 x1 q, Keeps Kp K0 q → Keeps Kp K0 (k x0 x1 q)) :
    Keeps Kp K0 (batonReceive ty frame k s) := by
  unfold batonReceive
  with_reducible repeat' first
    | assumption
    | refine keeps_bump (subP hKp (by decide)) ?_
    | refine Keeps.ite ?_ ?_
    | exact .inl rfl
    | exact .inr (memP hKp (by decide))
    | exact id
    | apply hk
    | split
    | apply Keeps.upd

theorem keeps_execSoloTimeout {Kp : List Part} {K0 s : State}  (hKp : [.sent, .host, .pair] ⊆ Kp) (hK : Keeps Kp K0 s) :
    KeepsO Kp K0 (execSoloTimeout s) := by
  unfold execSoloTimeout
  with_reducible repeat' first
    | assumption
    | refine KeepsO.next ?_
    | refine KeepsO.ite ?_ ?_
    | refine keeps_roleChange (subP hKp (by decide)) ?_
    | refine Keeps.ite ?_ ?_

theorem keeps_execPeerArrived {Kp : List Part} {K0 s : State} {serial : Bytes} (hKp : [.sent, .dict, .log, .life, .alert, .host, .pair] ⊆ Kp) (hK : Keeps Kp K0 s) :
    KeepsO Kp K0 (execPeerArrived serial s) := by
  unfold execPeerArrived
  with_reducible repeat' first
    | assumption
    | refine KeepsO.next ?_
    | refine keeps_peerKnown (subP hKp (by decide)) ?_
    | refine keeps_meetPeer (subP hKp (by decide)) ?_
    | exact .inl rfl
    | exact .inr (memP hKp (by decide))
    | exact id
    | apply Keeps.upd

theorem keeps_execBatonLinkTrained {Kp : List Part} {K0 s : State} {link : PortId} {serial : Bytes} (hKp : [.sent, .dict, .log, .life, .alert, .host, .pair] ⊆ Kp) (hK : Keeps Kp K0 s) :
    KeepsO Kp K0 (execBatonLinkTrained link serial s) := by
  unfold execBatonLinkTrained
  with_reducible repeat' first
    | assumption
    | refine KeepsO.next ?_
    | refine KeepsO.ite ?_ ?_
    | refine keeps_batonSend (subP hKp (by decide)) ?_
    | refine keeps_peerKnown (subP hKp (by decide)) ?_
    | refine keeps_meetPeer (subP hKp (by decide)) ?_
    | refine Keeps.ite ?_ ?_
    | exact .inl rfl
    | exact .inr (memP hKp (by decide))
    | exact id
    | apply Keeps.upd

theorem keeps_execBatonLinkLost {Kp : List Part} {K0 s : State} {link : PortId} (hKp : [.sent, .dict, .log, .life, .alert, .pair] ⊆ Kp) (hK : Keeps Kp K0 s) :
    KeepsO Kp K0 (execBatonLinkLost link s) := by
  unfold execBatonLinkLost
  with_reducible repeat' first
    | assumption
    | refine KeepsO.next ?_
    | refine KeepsO.ite ?_ ?_
    | refine keeps_raise (subP hKp (by decide)) ?_
    | refine Keeps.ite ?_ ?_
    | exact .inl rfl
    | exact .inr (memP hKp (by decide))
    | exact id
    | apply Keeps.upd

theorem keeps_peerDeparted {Kp : List Part} {K0 s : State}  (hKp : [.sent, .dict, .log, .life, .teams, .alert, .host, .pair, .work] ⊆ Kp) (hK : Keeps Kp K0 s) :
    Keeps Kp K0 (peerDeparted s) := by
  unfold peerDeparted
  with_reducible repeat' first
    | assumption
    | refine keeps_disarm (subP hKp (by decide)) ?_
    | refine keeps_raise (subP hKp (by decide)) ?_
    | refine keeps_roleChange (subP hKp (by decide)) ?_
    | refine keeps_flushAcks (subP hKp (by decide)) ?_
    | refine Keeps.ite ?_ ?_

theorem keeps_execPeerDeparted {Kp : List Part} {K0 s : State}  (hKp : [.sent, .dict, .log, .life, .teams, .alert, .host, .pair, .work] ⊆ Kp) (hK : Keeps Kp K0 s) :
    KeepsO Kp K0 (execPeerDeparted s) := by
  unfold execPeerDeparted
  with_reducible repeat' first
    | assumption
    | refine KeepsO.next ?_
    | refine keeps_peerDeparted (subP hKp (by decide)) ?_

theorem keeps_pairHello {Kp : List Part} {K0 s : State} {side : Bool} {f : BatonIn} (hKp : [.sent, .dict, .log, .cal, .life, .alert, .host, .pair, .work] ⊆ Kp) (hK : Keeps Kp K0 s) :
    Keeps Kp K0 (pairHello side f s) := by
  unfold pairHello
  with_reducible repeat' first
    | assumption
    | refine keeps_peerKnown (subP hKp (by decide)) ?_
    | refine keeps_meetPeer (subP hKp (by decide)) ?_
    | refine keeps_unpair (subP hKp (by decide)) ?_
    | refine keeps_formPair (subP hKp (by decide)) ?_
    | exact .inl rfl
    | exact .inr (memP hKp (by decide))
    | exact id
    | split
    | apply Keeps.upd

theorem keeps_execPairHello {Kp : List Part} {K0 s : State} {frame : Bytes} {side : Bool} (hKp : [.sent, .reg, .dict, .log, .cal, .life, .alert, .host, .pair, .work] ⊆ Kp) (hK : Keeps Kp K0 s) :
    KeepsO Kp K0 (execPairHello frame side s) := by
  unfold execPairHello
  with_reducible repeat' first
    | assumption
    | refine KeepsO.next ?_
    | (intro _; try intros)
    | refine keeps_batonReceive (subP hKp (by decide)) ?_ ?_
    | refine keeps_pairHello (subP hKp (by decide)) ?_

theorem keeps_settlePass {Kp : List Part} {K0 s : State} {n : LaneId} (hKp : [.sent, .dict, .log, .life, .lanes, .teams, .alert, .host] ⊆ Kp) (hK : Keeps Kp K0 s) :
    Keeps Kp K0 (settlePass n s) := by
  unfold settlePass
  with_reducible repeat' first
    | assumption
    | refine keeps_setDisc (subP hKp (by decide)) ?_
    | refine keeps_setLane (subP hKp (by decide)) ?_
    | refine keeps_cutPass (subP hKp (by decide)) ?_
    | refine Keeps.ite ?_ ?_
    | split

theorem keeps_settleLane {Kp : List Part} {K0 s : State} {n : LaneId} (hKp : [.sent, .reg, .dict, .log, .life, .lanes, .teams, .alert, .host, .ports] ⊆ Kp) (hK : Keeps Kp K0 s) :
    Keeps Kp K0 (settleLane n s) := by
  unfold settleLane
  with_reducible repeat' first
    | assumption
    | refine keeps_settlePass (subP hKp (by decide)) ?_
    | refine keeps_enter (subP hKp (by decide)) ?_
    | refine keeps_faultNow (subP hKp (by decide)) ?_
    | refine Keeps.ite ?_ ?_

theorem keeps_redoExtent {Kp : List Part} {K0 s : State} {t : TeamId} {x : Nat} (hKp : [.sent, .dict, .log, .life, .lanes, .teams, .alert, .host] ⊆ Kp) (hK : Keeps Kp K0 s) :
    Keeps Kp K0 (redoExtent t x s) := by
  unfold redoExtent
  dsimp only
  with_reducible repeat' first
    | assumption
    | refine keeps_skipSlot (subP hKp (by decide)) ?_
    | refine keeps_setExtent (subP hKp (by decide)) ?_
    | refine Keeps.fold2 _ _ _ (fun _ _ _ => ?_) ?_
    | refine Keeps.foldl _ _ _ (fun _ _ _ => ?_) ?_
    | refine Keeps.ite ?_ ?_
    | split

theorem keeps_redoStaging {Kp : List Part} {K0 s : State}  (hKp : [.sent, .dict, .log, .life, .lanes, .teams, .alert, .host] ⊆ Kp) (hK : Keeps Kp K0 s) :
    Keeps Kp K0 (redoStaging s) := by
  unfold redoStaging
  with_reducible repeat' first
    | assumption
    | refine keeps_redoExtent (subP hKp (by decide)) ?_
    | refine keeps_setNs (subP hKp (by decide)) ?_
    | refine keeps_setFlights (subP hKp (by decide)) ?_
    | refine Keeps.fold2 _ _ _ (fun _ _ _ => ?_) ?_
    | refine Keeps.foldl _ _ _ (fun _ _ _ => ?_) ?_
    | refine Keeps.ite ?_ ?_
    | split

theorem keeps_carryQueues {Kp : List Part} {K0 s : State} {m : MirrorImage} (hKp : [.host] ⊆ Kp) (hK : Keeps Kp K0 s) :
    Keeps Kp K0 (carryQueues m s) := by
  unfold carryQueues
  with_reducible repeat' first
    | assumption
    | refine keeps_setCtrl (subP hKp (by decide)) ?_
    | refine keeps_setHost (subP hKp (by decide)) ?_
    | refine Keeps.fold2 _ _ _ (fun _ _ _ => ?_) ?_
    | refine Keeps.foldl _ _ _ (fun _ _ _ => ?_) ?_
    | refine Keeps.ite ?_ ?_

theorem keeps_loseCmb {Kp : List Part} {K0 s : State} {f : Flight} (hKp : [.teams, .host] ⊆ Kp) (hK : Keeps Kp K0 s) :
    Keeps Kp K0 (loseCmb f s) := by
  unfold loseCmb
  with_reducible repeat' first
    | assumption
    | refine keeps_setFlight (subP hKp (by decide)) ?_
    | refine keeps_addZeros (subP hKp (by decide)) ?_
    | refine keeps_setExtent (subP hKp (by decide)) ?_
    | refine Keeps.fold2 _ _ _ (fun _ _ _ => ?_) ?_
    | refine Keeps.foldl _ _ _ (fun _ _ _ => ?_) ?_
    | refine Keeps.ite ?_ ?_
    | split

theorem keeps_repost {Kp : List Part} {K0 s : State} {body : Bytes} (hKp : [.sent, .teams, .host] ⊆ Kp) (hK : Keeps Kp K0 s) :
    Keeps Kp K0 (repost body s) := by
  unfold repost
  with_reducible repeat' first
    | assumption
    | refine keeps_post (subP hKp (by decide)) ?_
    | refine keeps_removeFlight (subP hKp (by decide)) ?_

theorem keeps_warmTake {Kp : List Part} {K0 s : State} {m : MirrorImage} (hKp : [.sent, .reg, .dict, .log, .life, .lanes, .teams, .alert, .host, .ports] ⊆ Kp)
    (hK : Keeps Kp K0 s) : Keeps Kp K0 (warmTake m s) := by
  have up {l : Vector Lane 32} {t : Vector Team 32} : Keeps Kp K0 { s with lanes := l, teams := t } := by
    with_reducible apply Keeps.upd hK
    all_goals with_reducible first
      | exact .inl rfl
      | exact .inr (memP hKp (by decide))
      | exact id
  unfold warmTake
  extract_lets missed s1 s1b s2 s3
  have k1 : Keeps Kp K0 s1 := up
  clear_value s1
  have kb : Keeps Kp K0 s1b :=
    keeps_redoStaging (subP hKp (by decide)) (.foldl _ _ _ (fun _ _ h => keeps_settleLane (subP hKp (by decide)) h)
      (keeps_carryQueues (subP hKp (by decide)) k1))
  clear_value s1b
  have k2 : Keeps Kp K0 s2 := .foldl _ _ _ (fun _ _ h => keeps_loseCmb (subP hKp (by decide)) h) kb
  clear_value s2
  have k3 : Keeps Kp K0 s3 := .foldl _ _ _ (fun _ _ h => keeps_repost (subP hKp (by decide)) h) k2
  clear_value s3
  exact .ite (keeps_setCause (subP hKp (by decide)) k3) k3

theorem keeps_coldLane {Kp : List Part} {K0 s : State} {n : LaneId} (hKp : [.sent, .reg, .dict, .log, .life, .lanes, .teams, .alert, .host, .ports] ⊆ Kp) (hK : Keeps Kp K0 s) :
    Keeps Kp K0 (coldLane n s) := by
  unfold coldLane
  with_reducible repeat' first
    | assumption
    | refine keeps_rotorLost (subP hKp (by decide)) ?_
    | refine keeps_enterFault (subP hKp (by decide)) ?_
    | refine keeps_setLane (subP hKp (by decide)) ?_
    | refine keeps_takeFault (subP hKp (by decide)) ?_
    | refine Keeps.ite ?_ ?_

theorem keeps_takeover {Kp : List Part} {K0 s : State} {cause : Nat} (hKp : [.free, .sent, .reg, .dict, .log, .life, .lanes, .teams, .alert, .host, .pair, .work, .ports] ⊆ Kp)
    (hK : Keeps Kp K0 s) : Keeps Kp K0 (takeover cause s) := by
  have up {t : State} {a : Pair} {b : PairWork} (h : Keeps Kp K0 t) : Keeps Kp K0 { t with pair := a, work := b } := by
    with_reducible apply Keeps.upd h
    all_goals with_reducible first
      | exact .inl rfl
      | exact .inr (memP hKp (by decide))
      | exact id
  have up1 {t : State} {a : Pair} (h : Keeps Kp K0 t) : Keeps Kp K0 { t with pair := a } := by
    with_reducible apply Keeps.upd h
    all_goals with_reducible first
      | exact .inl rfl
      | exact .inr (memP hKp (by decide))
      | exact id
  have up2 {t : State} {b : PairWork} (h : Keeps Kp K0 t) : Keeps Kp K0 { t with work := b } := by
    with_reducible apply Keeps.upd h
    all_goals with_reducible first
      | exact .inl rfl
      | exact .inr (memP hKp (by decide))
      | exact id
  unfold takeover
  split
  rename_i hold s0 h0
  have k0 : Keeps Kp K0 s0 := .snd h0 (keeps_draw (subP hKp (by decide)) hK)
  extract_lets img p w s1 q s2 s3 e w1 code s4 s5
  have k1 : Keeps Kp K0 s1 := up k0
  clear_value s1
  have k2 : Keeps Kp K0 s2 := by
    change Keeps Kp K0 (match img with | some m => _ | none => _)
    clear_value img
    cases img with
    | some m => exact keeps_warmTake (subP hKp (by decide)) (up1 k1)
    | none => exact .foldl _ _ _ (fun _ _ h => keeps_coldLane (subP hKp (by decide)) h) k1
  clear_value s2
  have k3 : Keeps Kp K0 s3 := keeps_roleChange (subP hKp (by decide)) k2
  clear_value s3
  refine .ite ?_ ?_
  · exact keeps_raise (subP hKp (by decide)) (keeps_lifeUnit (subP hKp (by decide)) (keeps_bump (subP hKp (by decide)) (up2 k3)))
  · have k4 : Keeps Kp K0 s4 := keeps_disarm (subP hKp (by decide)) (up2 k3)
    clear_value s4
    have k5 : Keeps Kp K0 s5 :=
      keeps_raise (subP hKp (by decide)) (keeps_lifeUnit (subP hKp (by decide)) (keeps_bump (subP hKp (by decide)) k4))
    clear_value s5
    exact .ite (keeps_raise (subP hKp (by decide)) k5) k5

theorem keeps_execAliveLoss {Kp : List Part} {K0 s : State}  (hKp : [.pair, .work] ⊆ Kp) (hK : Keeps Kp K0 s) :
    KeepsO Kp K0 (execAliveLoss s) := by
  unfold execAliveLoss
  with_reducible repeat' first
    | assumption
    | refine KeepsO.next ?_
    | refine KeepsO.ite ?_ ?_
    | refine Keeps.ite ?_ ?_
    | exact .inl rfl
    | exact .inr (memP hKp (by decide))
    | exact id
    | apply Keeps.upd

theorem keeps_execHeartbeatLoss {Kp : List Part} {K0 s : State}  (hKp : [.pair, .work] ⊆ Kp) (hK : Keeps Kp K0 s) :
    KeepsO Kp K0 (execHeartbeatLoss s) := by
  unfold execHeartbeatLoss
  with_reducible repeat' first
    | assumption
    | refine KeepsO.next ?_
    | refine KeepsO.ite ?_ ?_
    | refine Keeps.ite ?_ ?_
    | exact .inl rfl
    | exact .inr (memP hKp (by decide))
    | exact id
    | apply Keeps.upd

theorem keeps_execTakeoverRefused {Kp : List Part} {K0 s : State}  (hKp : [.sent, .reg, .dict, .log, .life, .alert, .host, .pair, .work] ⊆ Kp) (hK : Keeps Kp K0 s) :
    KeepsO Kp K0 (execTakeoverRefused s) := by
  unfold execTakeoverRefused
  with_reducible repeat' first
    | assumption
    | refine KeepsO.next ?_
    | refine KeepsO.ite ?_ ?_
    | refine keeps_raise (subP hKp (by decide)) ?_
    | refine keeps_unpair (subP hKp (by decide)) ?_
    | refine keeps_bump (subP hKp (by decide)) ?_
    | refine Keeps.ite ?_ ?_
    | exact .inl rfl
    | exact .inr (memP hKp (by decide))
    | exact id
    | split
    | apply Keeps.upd

theorem keeps_pairselClaim {Kp : List Part} {K0 s : State} {low : Nat} (hKp : [.free, .sent, .reg, .dict, .log, .cal, .life, .lanes, .teams, .alert, .host, .pair, .work, .ports] ⊆ Kp) (hK : Keeps Kp K0 s) :
    Keeps Kp K0 (pairselClaim low s) := by
  unfold pairselClaim
  with_reducible repeat' first
    | assumption
    | refine keeps_takeover (subP hKp (by decide)) ?_
    | refine keeps_roleChange (subP hKp (by decide)) ?_
    | refine keeps_formPair (subP hKp (by decide)) ?_
    | refine keeps_batonSend (subP hKp (by decide)) ?_
    | refine Keeps.ite ?_ ?_
    | split

theorem keeps_execPairselClaim {Kp : List Part} {K0 s : State} {low : Nat} (hKp : [.free, .sent, .reg, .dict, .log, .cal, .life, .lanes, .teams, .alert, .host, .pair, .work, .ports] ⊆ Kp) (hK : Keeps Kp K0 s) :
    KeepsO Kp K0 (execPairselClaim low s) := by
  unfold execPairselClaim
  with_reducible repeat' first
    | assumption
    | refine KeepsO.next ?_
    | refine keeps_pairselClaim (subP hKp (by decide)) ?_

theorem keeps_execHoldConflict {Kp : List Part} {K0 s : State}  (hKp : [.sent, .host, .pair] ⊆ Kp) (hK : Keeps Kp K0 s) :
    KeepsO Kp K0 (execHoldConflict s) := by
  unfold execHoldConflict
  with_reducible repeat' first
    | assumption
    | refine KeepsO.next ?_
    | refine KeepsO.ite ?_ ?_
    | refine keeps_roleChange (subP hKp (by decide)) ?_
    | refine Keeps.ite ?_ ?_
    | exact .inl rfl
    | exact .inr (memP hKp (by decide))
    | exact id
    | apply Keeps.upd

theorem keeps_demandRelease {Kp : List Part} {K0 s : State}  (hKp : [.sent, .reg, .dict, .log, .life, .lanes, .teams, .alert, .host, .mem, .cache, .pair, .work] ⊆ Kp) (hK : Keeps Kp K0 s) :
    Keeps Kp K0 (demandRelease s) := by
  unfold demandRelease
  with_reducible repeat' first
    | assumption
    | refine keeps_roleChange (subP hKp (by decide)) ?_
    | refine keeps_yieldQueues (subP hKp (by decide)) ?_
    | refine keeps_controllerReset (subP hKp (by decide)) ?_
    | refine keeps_unpair (subP hKp (by decide)) ?_
    | refine Keeps.fold2 _ _ _ (fun _ _ _ => ?_) ?_
    | refine Keeps.foldl _ _ _ (fun _ _ _ => ?_) ?_
    | refine Keeps.ite ?_ ?_
    | exact .inl rfl
    | exact .inr (memP hKp (by decide))
    | exact id
    | apply Keeps.upd

theorem keeps_execDemandRelease {Kp : List Part} {K0 s : State}  (hKp : [.sent, .reg, .dict, .log, .life, .lanes, .teams, .alert, .host, .mem, .cache, .pair, .work] ⊆ Kp) (hK : Keeps Kp K0 s) :
    KeepsO Kp K0 (execDemandRelease s) := by
  unfold execDemandRelease
  with_reducible repeat' first
    | assumption
    | refine KeepsO.next ?_
    | refine keeps_demandRelease (subP hKp (by decide)) ?_

theorem keeps_drillGo {Kp : List Part} {K0 s : State}  (hKp : [.sent, .pair, .work] ⊆ Kp) (hK : Keeps Kp K0 s) :
    Keeps Kp K0 (drillGo s) := by
  unfold drillGo
  with_reducible repeat' first
    | assumption
    | refine keeps_batonSend (subP hKp (by decide)) ?_
    | refine Keeps.ite ?_ ?_
    | exact .inl rfl
    | exact .inr (memP hKp (by decide))
    | exact id
    | split
    | apply Keeps.upd

theorem keeps_beginDrill {Kp : List Part} {K0 s : State}  (hKp : [.sent, .pair, .work] ⊆ Kp) (hK : Keeps Kp K0 s) :
    KeepsE Kp K0 (beginDrill s) := by
  unfold beginDrill
  with_reducible repeat' first
    | assumption
    | refine KeepsE.ok ?_
    | exact KeepsE.error
    | refine KeepsE.ite ?_ ?_
    | refine keeps_drillGo (subP hKp (by decide)) ?_
    | refine Keeps.ite ?_ ?_
    | exact .inl rfl
    | exact .inr (memP hKp (by decide))
    | exact id
    | apply Keeps.upd

theorem keeps_startDrillEffect {Kp : List Part} {K0 s : State}  (hKp : [.sent, .pair, .work] ⊆ Kp) (hK : Keeps Kp K0 s) :
    KeepsE Kp K0 (startDrillEffect s) := by
  unfold startDrillEffect
  with_reducible repeat' first
    | assumption
    | refine KeepsE.ok ?_
    | refine keeps_beginDrill (subP hKp (by decide)) ?_

theorem keeps_execDrillSchedule {Kp : List Part} {K0 s : State}  (hKp : [.sent, .pair, .work] ⊆ Kp) (hK : Keeps Kp K0 s) :
    KeepsO Kp K0 (execDrillSchedule s) := by
  unfold execDrillSchedule
  with_reducible repeat' first
    | assumption
    | refine KeepsO.next ?_
    | refine KeepsO.ite ?_ ?_
    | refine KeepsE.of (by assumption) ?_
    | refine keeps_beginDrill (subP hKp (by decide)) ?_
    | refine Keeps.ite ?_ ?_
    | exact .inl rfl
    | exact .inr (memP hKp (by decide))
    | exact id
    | split
    | apply Keeps.upd

theorem keeps_drillFailed {Kp : List Part} {K0 s : State} {stage : Nat} (hKp : [.sent, .reg, .dict, .log, .life, .alert, .work] ⊆ Kp) (hK : Keeps Kp K0 s) :
    Keeps Kp K0 (drillFailed stage s) := by
  unfold drillFailed
  with_reducible repeat' first
    | assumption
    | refine keeps_raise (subP hKp (by decide)) ?_
    | refine keeps_bump (subP hKp (by decide)) ?_
    | exact .inl rfl
    | exact .inr (memP hKp (by decide))
    | exact id
    | apply Keeps.upd

theorem keeps_execDrillQuiesceExpire {Kp : List Part} {K0 s : State}  (hKp : [.sent, .reg, .dict, .log, .life, .alert, .pair, .work] ⊆ Kp) (hK : Keeps Kp K0 s) :
    KeepsO Kp K0 (execDrillQuiesceExpire s) := by
  unfold execDrillQuiesceExpire
  with_reducible repeat' first
    | assumption
    | refine KeepsO.next ?_
    | refine KeepsO.ite ?_ ?_
    | refine keeps_drillFailed (subP hKp (by decide)) ?_
    | refine keeps_drillGo (subP hKp (by decide)) ?_
    | refine Keeps.ite ?_ ?_
    | exact .inl rfl
    | exact .inr (memP hKp (by decide))
    | exact id
    | split
    | apply Keeps.upd

theorem keeps_execDrill {Kp : List Part} {K0 s : State} {frame : Bytes} (hKp : [.reg, .pair, .work] ⊆ Kp) (hK : Keeps Kp K0 s) :
    KeepsO Kp K0 (execDrill frame s) := by
  unfold execDrill
  with_reducible repeat' first
    | assumption
    | refine KeepsO.next ?_
    | refine KeepsO.ite ?_ ?_
    | (intro _; try intros)
    | refine keeps_batonReceive (subP hKp (by decide)) ?_ ?_
    | refine Keeps.ite ?_ ?_
    | exact .inl rfl
    | exact .inr (memP hKp (by decide))
    | exact id
    | apply Keeps.upd

theorem keeps_execDrillRelease {Kp : List Part} {K0 s : State}  (hKp : [.pair, .work] ⊆ Kp) (hK : Keeps Kp K0 s) :
    KeepsO Kp K0 (execDrillRelease s) := by
  unfold execDrillRelease
  with_reducible repeat' first
    | assumption
    | refine KeepsO.next ?_
    | refine KeepsO.ite ?_ ?_
    | refine Keeps.ite ?_ ?_
    | exact .inl rfl
    | exact .inr (memP hKp (by decide))
    | exact id
    | split
    | apply Keeps.upd

theorem keeps_drillCheck {Kp : List Part} {K0 s : State} {holdHigh : Bool} (hKp : [.free, .sent, .reg, .dict, .log, .life, .lanes, .alert, .host, .pair, .work] ⊆ Kp) (hK : Keeps Kp K0 s) :
    Keeps Kp K0 (drillCheck holdHigh s) := by
  unfold drillCheck
  with_reducible repeat' first
    | assumption
    | refine keeps_draw (subP hKp (by decide)) ?_
    | refine keeps_roleChange (subP hKp (by decide)) ?_
    | refine keeps_yieldQueues (subP hKp (by decide)) ?_
    | refine keeps_lifeUnit (subP hKp (by decide)) ?_
    | refine keeps_bump (subP hKp (by decide)) ?_
    | refine keeps_drillFailed (subP hKp (by decide)) ?_
    | refine keeps_disarm (subP hKp (by decide)) ?_
    | refine Keeps.ite ?_ ?_
    | exact .inl rfl
    | exact .inr (memP hKp (by decide))
    | exact id
    | refine Keeps.snd (by assumption) ?_
    | split
    | apply Keeps.upd

theorem keeps_execDrillCheck {Kp : List Part} {K0 s : State} {holdHigh : Bool} (hKp : [.free, .sent, .reg, .dict, .log, .life, .lanes, .alert, .host, .pair, .work] ⊆ Kp) (hK : Keeps Kp K0 s) :
    KeepsO Kp K0 (execDrillCheck holdHigh s) := by
  unfold execDrillCheck
  with_reducible repeat' first
    | assumption
    | refine KeepsO.next ?_
    | refine keeps_drillCheck (subP hKp (by decide)) ?_

theorem keeps_heartbeatSend {Kp : List Part} {K0 s : State}  (hKp : [.sent, .pair, .work] ⊆ Kp) (hK : Keeps Kp K0 s) :
    Keeps Kp K0 (heartbeatSend s) := by
  unfold heartbeatSend
  with_reducible repeat' first
    | assumption
    | refine keeps_batonSend (subP hKp (by decide)) ?_
    | refine keeps_drillGo (subP hKp (by decide)) ?_
    | refine Keeps.fold2 _ _ _ (fun _ _ _ => ?_) ?_
    | refine Keeps.foldl _ _ _ (fun _ _ _ => ?_) ?_
    | refine Keeps.ite ?_ ?_
    | exact .inl rfl
    | exact .inr (memP hKp (by decide))
    | exact id
    | apply Keeps.upd

theorem keeps_execHeartbeatSend {Kp : List Part} {K0 s : State}  (hKp : [.sent, .pair, .work] ⊆ Kp) (hK : Keeps Kp K0 s) :
    KeepsO Kp K0 (execHeartbeatSend s) := by
  unfold execHeartbeatSend
  with_reducible repeat' first
    | assumption
    | refine KeepsO.next ?_
    | refine keeps_heartbeatSend (subP hKp (by decide)) ?_

theorem keeps_followActive {Kp : List Part} {K0 s : State} {f : BatonIn} (hKp : [.reg, .cal, .pair, .work] ⊆ Kp) (hK : Keeps Kp K0 s) :
    Keeps Kp K0 (followActive f s) := by
  unfold followActive
  with_reducible repeat' first
    | assumption
    | refine keeps_slewTime (subP hKp (by decide)) ?_
    | refine keeps_bump (subP hKp (by decide)) ?_
    | refine Keeps.ite ?_ ?_
    | exact .inl rfl
    | exact .inr (memP hKp (by decide))
    | exact id
    | apply Keeps.upd

theorem keeps_closeCut {Kp : List Part} {K0 s : State} {f : BatonIn} (hKp : [.sent, .dict, .log, .life, .alert, .pair, .work] ⊆ Kp) (hK : Keeps Kp K0 s) :
    Keeps Kp K0 (closeCut f s) := by
  unfold closeCut
  with_reducible repeat' first
    | assumption
    | refine keeps_logAppend (subP hKp (by decide)) ?_
    | refine keeps_arm (subP hKp (by decide)) ?_
    | refine keeps_sendAck (subP hKp (by decide)) ?_
    | refine Keeps.fold2 _ _ _ (fun _ _ _ => ?_) ?_
    | refine Keeps.foldl _ _ _ (fun _ _ _ => ?_) ?_
    | refine Keeps.ite ?_ ?_
    | exact .inl rfl
    | exact .inr (memP hKp (by decide))
    | exact id
    | split
    | apply Keeps.upd

theorem keeps_heartbeatIn {Kp : List Part} {K0 s : State} {f : BatonIn} {before : Nat} (hKp : [.sent, .reg, .dict, .log, .cal, .life, .alert, .pair, .work] ⊆ Kp) (hK : Keeps Kp K0 s) :
    Keeps Kp K0 (heartbeatIn f before s) := by
  unfold heartbeatIn
  with_reducible repeat' first
    | assumption
    | refine keeps_followActive (subP hKp (by decide)) ?_
    | refine keeps_closeCut (subP hKp (by decide)) ?_
    | refine Keeps.ite ?_ ?_
    | exact .inl rfl
    | exact .inr (memP hKp (by decide))
    | exact id
    | split
    | apply Keeps.upd

theorem keeps_execHeartbeat {Kp : List Part} {K0 s : State} {frame : Bytes} (hKp : [.sent, .reg, .dict, .log, .cal, .life, .alert, .pair, .work] ⊆ Kp) (hK : Keeps Kp K0 s) :
    KeepsO Kp K0 (execHeartbeat frame s) := by
  unfold execHeartbeat
  with_reducible repeat' first
    | assumption
    | refine KeepsO.next ?_
    | (intro _; try intros)
    | refine keeps_batonReceive (subP hKp (by decide)) ?_ ?_
    | refine keeps_heartbeatIn (subP hKp (by decide)) ?_

theorem keeps_execMirror {Kp : List Part} {K0 s : State} {frame : Bytes} (hKp : [.reg, .pair] ⊆ Kp) (hK : Keeps Kp K0 s) :
    KeepsO Kp K0 (execMirror frame s) := by
  unfold execMirror
  with_reducible repeat' first
    | assumption
    | refine KeepsO.next ?_
    | refine KeepsO.ite ?_ ?_
    | (intro _; try intros)
    | refine keeps_batonReceive (subP hKp (by decide)) ?_ ?_
    | refine Keeps.ite ?_ ?_
    | exact .inl rfl
    | exact .inr (memP hKp (by decide))
    | exact id
    | apply Keeps.upd

theorem keeps_execCommit {Kp : List Part} {K0 s : State} {frame : Bytes} (hKp : [.sent, .reg, .pair] ⊆ Kp) (hK : Keeps Kp K0 s) :
    KeepsO Kp K0 (execCommit frame s) := by
  unfold execCommit
  with_reducible repeat' first
    | assumption
    | refine KeepsO.next ?_
    | refine KeepsO.ite ?_ ?_
    | (intro _; try intros)
    | refine keeps_batonReceive (subP hKp (by decide)) ?_ ?_
    | refine keeps_sendAck (subP hKp (by decide)) ?_
    | refine Keeps.ite ?_ ?_
    | exact .inl rfl
    | exact .inr (memP hKp (by decide))
    | exact id
    | apply Keeps.upd

theorem keeps_execLaneViewMismatch {Kp : List Part} {K0 s : State} {n : LaneId} {peerPresence : Bool} {peerDisc : Bool} (hKp : [.sent, .dict, .log, .life, .alert, .work] ⊆ Kp) (hK : Keeps Kp K0 s) :
    KeepsO Kp K0 (execLaneViewMismatch n peerPresence peerDisc s) := by
  unfold execLaneViewMismatch
  with_reducible repeat' first
    | assumption
    | refine KeepsO.next ?_
    | refine KeepsO.ite ?_ ?_
    | refine keeps_raise (subP hKp (by decide)) ?_
    | refine Keeps.ite ?_ ?_
    | exact .inl rfl
    | exact .inr (memP hKp (by decide))
    | exact id
    | apply Keeps.upd

end Sys2Proof.Machine
end

