-- ==== Sys2Proof/Laws/KeepsPower.lean ====
section
/-! SUPPORT. What the operations of Power.lean keep. -/

namespace Sys2Proof.Machine

set_option linter.unusedTactic false
set_option linter.unreachableTactic false
set_option linter.unusedVariables false

theorem keeps_sendConfig {Kp : List Part} {K0 s : State} {index : Nat} {sub : Nat} {v : Bytes} (hKp : [.sent, .pair] ⊆ Kp) (hK : Keeps Kp K0 s) :
    Keeps Kp K0 (sendConfig index sub v s) := by
  unfold sendConfig
  with_reducible repeat' first
    | assumption
    | refine keeps_batonSend (subP hKp (by decide)) ?_

theorem keeps_tellStandby {Kp : List Part} {K0 s : State} {ps : Nat} (hKp : [.sent, .pair] ⊆ Kp) (hK : Keeps Kp K0 s) :
    Keeps Kp K0 (tellStandby ps s) := by
  unfold tellStandby
  with_reducible repeat' first
    | assumption
    | refine keeps_sendConfig (subP hKp (by decide)) ?_
    | refine Keeps.ite ?_ ?_

theorem keeps_setPower {Kp : List Part} {K0 s : State} {f : Power → Power} (hKp : [.power] ⊆ Kp) (hK : Keeps Kp K0 s) :
    Keeps Kp K0 (setPower f s) := by
  unfold setPower
  with_reducible repeat' first
    | assumption
    | exact .inl rfl
    | exact .inr (memP hKp (by decide))
    | exact id
    | apply Keeps.upd

theorem keeps_powerAnswer {Kp : List Part} {K0 s : State} {r : PowerReq} {ok : Bool} (hKp : [.sent, .dict, .teams, .host, .pair, .work] ⊆ Kp) (hK : Keeps Kp K0 s) :
    Keeps Kp K0 (powerAnswer r ok s) := by
  unfold powerAnswer
  with_reducible repeat' first
    | assumption
    | refine keeps_tryComplete (subP hKp (by decide)) ?_
    | refine keeps_setFlight (subP hKp (by decide)) ?_
    | refine keeps_answerReply (subP hKp (by decide)) ?_
    | refine keeps_countChange (subP hKp (by decide)) ?_
    | refine keeps_sendAck (subP hKp (by decide)) ?_
    | refine Keeps.ite ?_ ?_
    | split

theorem keeps_powerRefuse {Kp : List Part} {K0 s : State} {r : PowerReq} {reason : Nat} (hKp : [.sent, .reg, .dict, .log, .life, .teams, .alert, .host, .pair, .work] ⊆ Kp) (hK : Keeps Kp K0 s) :
    Keeps Kp K0 (powerRefuse r reason s) := by
  unfold powerRefuse
  with_reducible repeat' first
    | assumption
    | refine keeps_powerAnswer (subP hKp (by decide)) ?_
    | refine keeps_raise (subP hKp (by decide)) ?_
    | refine keeps_bump (subP hKp (by decide)) ?_

theorem keeps_capLanes {Kp : List Part} {K0 s : State} {ps : Nat} (hKp : [.lanes, .power] ⊆ Kp) (hK : Keeps Kp K0 s) :
    Keeps Kp K0 (capLanes ps s) := by
  unfold capLanes
  with_reducible repeat' first
    | assumption
    | refine keeps_setLane (subP hKp (by decide)) ?_
    | refine keeps_setPower (subP hKp (by decide)) ?_
    | refine Keeps.fold2 _ _ _ (fun _ _ _ => ?_) ?_
    | refine Keeps.foldl _ _ _ (fun _ _ _ => ?_) ?_
    | refine Keeps.ite ?_ ?_

theorem keeps_beginWake {Kp : List Part} {K0 s : State}  (hKp : [.pair, .power, .sup] ⊆ Kp) (hK : Keeps Kp K0 s) :
    Keeps Kp K0 (beginWake s) := by
  unfold beginWake
  with_reducible repeat' first
    | assumption
    | exact .inl rfl
    | exact .inr (memP hKp (by decide))
    | exact id
    | apply Keeps.upd

theorem keeps_powerBegin {Kp : List Part} {K0 s : State} {r : PowerReq} (hKp : [.sent, .reg, .dict, .log, .life, .lanes, .teams, .alert, .host, .pair, .work, .power, .sup] ⊆ Kp) (hK : Keeps Kp K0 s) :
    Keeps Kp K0 (powerBegin r s) := by
  unfold powerBegin
  with_reducible repeat' first
    | assumption
    | refine keeps_setPower (subP hKp (by decide)) ?_
    | refine keeps_powerAnswer (subP hKp (by decide)) ?_
    | refine keeps_beginWake (subP hKp (by decide)) ?_
    | refine keeps_powerRefuse (subP hKp (by decide)) ?_
    | refine keeps_tellStandby (subP hKp (by decide)) ?_
    | refine keeps_capLanes (subP hKp (by decide)) ?_
    | refine keeps_sealAll (subP hKp (by decide)) ?_
    | refine keeps_setHost (subP hKp (by decide)) ?_
    | refine Keeps.fold2 _ _ _ (fun _ _ _ => ?_) ?_
    | refine Keeps.foldl _ _ _ (fun _ _ _ => ?_) ?_
    | refine Keeps.ite ?_ ?_
    | split

theorem keeps_powerPump {Kp : List Part} {K0 s : State} {y0 : Nat} (hKp : [.sent, .reg, .dict, .log, .life, .lanes, .teams, .alert, .host, .pair, .work, .power, .sup] ⊆ Kp) (hK : Keeps Kp K0 s) :
    Keeps Kp K0 (powerPump y0 s) := by
  induction y0 generalizing s with
  | zero => exact hK
  | succ n ih =>
    unfold powerPump
    with_reducible repeat' first
      | assumption
      | refine ih ?_
      | refine keeps_powerBegin (subP hKp (by decide)) ?_
      | refine keeps_setPower (subP hKp (by decide)) ?_
      | refine Keeps.ite ?_ ?_
      | split

theorem keeps_powerNext {Kp : List Part} {K0 s : State}  (hKp : [.sent, .reg, .dict, .log, .life, .lanes, .teams, .alert, .host, .pair, .work, .power, .sup] ⊆ Kp) (hK : Keeps Kp K0 s) :
    Keeps Kp K0 (powerNext s) := by
  unfold powerNext
  with_reducible repeat' first
    | assumption
    | refine keeps_powerPump (subP hKp (by decide)) ?_
    | refine keeps_setPower (subP hKp (by decide)) ?_

theorem keeps_settleAsked {Kp : List Part} {K0 s : State}  (hKp : [.sent, .dict, .teams, .host, .pair, .work] ⊆ Kp) (hK : Keeps Kp K0 s) :
    Keeps Kp K0 (settleAsked s) := by
  unfold settleAsked
  with_reducible repeat' first
    | assumption
    | refine keeps_powerAnswer (subP hKp (by decide)) ?_
    | refine Keeps.fold2 _ _ _ (fun _ _ _ => ?_) ?_
    | refine Keeps.foldl _ _ _ (fun _ _ _ => ?_) ?_
    | exact .inl rfl
    | exact .inr (memP hKp (by decide))
    | exact id
    | apply Keeps.upd

theorem keeps_powerDone {Kp : List Part} {K0 s : State}  (hKp : [.sent, .reg, .dict, .log, .life, .lanes, .teams, .alert, .host, .pair, .work, .power, .sup] ⊆ Kp) (hK : Keeps Kp K0 s) :
    Keeps Kp K0 (powerDone s) := by
  unfold powerDone
  with_reducible repeat' first
    | assumption
    | refine keeps_powerNext (subP hKp (by decide)) ?_
    | refine keeps_settleAsked (subP hKp (by decide)) ?_
    | refine keeps_powerAnswer (subP hKp (by decide)) ?_
    | split

theorem keeps_requestPower {Kp : List Part} {K0 s : State} {r : PowerReq} (hKp : [.sent, .reg, .dict, .log, .life, .lanes, .teams, .alert, .host, .pair, .work, .power, .sup] ⊆ Kp) (hK : Keeps Kp K0 s) :
    Keeps Kp K0 (requestPower r s) := by
  unfold requestPower
  with_reducible repeat' first
    | assumption
    | refine keeps_setPower (subP hKp (by decide)) ?_
    | refine keeps_powerBegin (subP hKp (by decide)) ?_
    | refine keeps_powerAnswer (subP hKp (by decide)) ?_
    | refine keeps_sendConfig (subP hKp (by decide)) ?_
    | refine Keeps.ite ?_ ?_
    | exact .inl rfl
    | exact .inr (memP hKp (by decide))
    | exact id
    | split
    | apply Keeps.upd

theorem keeps_execSetFeaturesPowerManagement {Kp : List Part} {K0 s : State} {c : CmdId} {sv : Bool} {dw11 : Nat} (hKp : [.sent, .reg, .dict, .log, .life, .lanes, .teams, .alert, .host, .mem, .cache, .pair, .work, .power, .sup] ⊆ Kp) (hK : Keeps Kp K0 s) :
    KeepsO Kp K0 (execSetFeaturesPowerManagement c sv dw11 s) := by
  unfold execSetFeaturesPowerManagement
  with_reducible repeat' first
    | assumption
    | refine KeepsO.next ?_
    | refine KeepsO.ite ?_ ?_
    | (intro _; try intros)
    | refine keeps_fetchAny (subP hKp (by decide)) ?_ ?_
    | refine keeps_refuse (subP hKp (by decide)) ?_
    | refine keeps_raise (subP hKp (by decide)) ?_
    | refine keeps_bump (subP hKp (by decide)) ?_
    | refine keeps_requestPower (subP hKp (by decide)) ?_
    | refine keeps_takeOff (subP hKp (by decide)) ?_
    | refine Keeps.ite ?_ ?_

theorem keeps_unitStateEffect {Kp : List Part} {K0 s : State} {v : Nat} {reply : Reply} (hKp : [.sent, .reg, .dict, .log, .life, .lanes, .teams, .alert, .host, .pair, .work, .power, .sup] ⊆ Kp) (hK : Keeps Kp K0 s) :
    Keeps Kp K0 (unitStateEffect v reply s) := by
  unfold unitStateEffect
  with_reducible repeat' first
    | assumption
    | refine keeps_requestPower (subP hKp (by decide)) ?_
    | refine Keeps.ite ?_ ?_

theorem keeps_unitEntered {Kp : List Part} {K0 s : State} {unit : Nat} {ps : Nat} (hKp : [.sent, .dict, .log, .life, .alert, .power] ⊆ Kp) (hK : Keeps Kp K0 s) :
    Keeps Kp K0 (unitEntered unit ps s) := by
  unfold unitEntered
  with_reducible repeat' first
    | assumption
    | refine keeps_raise (subP hKp (by decide)) ?_
    | refine keeps_setPower (subP hKp (by decide)) ?_

theorem keeps_standEntry {Kp : List Part} {K0 s : State}  (hKp : [.sent, .reg, .dict, .log, .life, .lanes, .teams, .alert, .host, .mem, .cache, .pair, .work, .power, .sup] ⊆ Kp) (hK : Keeps Kp K0 s) :
    Keeps Kp K0 (standEntry s) := by
  unfold standEntry
  with_reducible repeat' first
    | assumption
    | refine keeps_cacheCleanAll (subP hKp (by decide)) ?_
    | refine keeps_endPassWith (subP hKp (by decide)) ?_
    | refine keeps_bump (subP hKp (by decide)) ?_
    | refine keeps_tellStandby (subP hKp (by decide)) ?_
    | refine keeps_unitEntered (subP hKp (by decide)) ?_
    | refine keeps_powerDone (subP hKp (by decide)) ?_
    | refine Keeps.ite ?_ ?_
    | exact .inl rfl
    | exact .inr (memP hKp (by decide))
    | exact id
    | split
    | apply Keeps.upd

theorem keeps_execStandEntry {Kp : List Part} {K0 s : State}  (hKp : [.sent, .reg, .dict, .log, .life, .lanes, .teams, .alert, .host, .mem, .cache, .pair, .work, .power, .sup] ⊆ Kp) (hK : Keeps Kp K0 s) :
    KeepsO Kp K0 (execStandEntry s) := by
  unfold execStandEntry
  with_reducible repeat' first
    | assumption
    | refine KeepsO.next ?_
    | refine keeps_standEntry (subP hKp (by decide)) ?_

theorem keeps_execStandEntryTimeout {Kp : List Part} {K0 s : State}  (hKp : [.sent, .reg, .dict, .log, .life, .lanes, .teams, .alert, .host, .pair, .work, .power, .sup] ⊆ Kp) (hK : Keeps Kp K0 s) :
    KeepsO Kp K0 (execStandEntryTimeout s) := by
  unfold execStandEntryTimeout
  with_reducible repeat' first
    | assumption
    | refine KeepsO.next ?_
    | refine KeepsO.ite ?_ ?_
    | refine keeps_powerNext (subP hKp (by decide)) ?_
    | refine keeps_powerRefuse (subP hKp (by decide)) ?_
    | refine keeps_setHost (subP hKp (by decide)) ?_
    | refine Keeps.ite ?_ ?_
    | split

theorem keeps_wakeFromStand {Kp : List Part} {K0 s : State}  (hKp : [.sent, .reg, .dict, .log, .life, .lanes, .teams, .alert, .host, .pair, .work, .power, .sup] ⊆ Kp) (hK : Keeps Kp K0 s) :
    Keeps Kp K0 (wakeFromStand s) := by
  unfold wakeFromStand
  with_reducible repeat' first
    | assumption
    | refine keeps_bump (subP hKp (by decide)) ?_
    | refine keeps_setPower (subP hKp (by decide)) ?_
    | refine keeps_setHost (subP hKp (by decide)) ?_
    | refine keeps_powerDone (subP hKp (by decide)) ?_
    | refine keeps_tellStandby (subP hKp (by decide)) ?_
    | refine keeps_unitEntered (subP hKp (by decide)) ?_
    | refine keeps_capLanes (subP hKp (by decide)) ?_
    | refine Keeps.ite ?_ ?_
    | split

theorem keeps_execWakeFromStand {Kp : List Part} {K0 s : State}  (hKp : [.sent, .reg, .dict, .log, .life, .lanes, .teams, .alert, .host, .pair, .work, .power, .sup] ⊆ Kp) (hK : Keeps Kp K0 s) :
    KeepsO Kp K0 (execWakeFromStand s) := by
  unfold execWakeFromStand
  with_reducible repeat' first
    | assumption
    | refine KeepsO.next ?_
    | refine keeps_wakeFromStand (subP hKp (by decide)) ?_

theorem keeps_laneSleeps {Kp : List Part} {K0 s : State} {n : LaneId} (hKp : [.sent, .lanes, .ports] ⊆ Kp) (hK : Keeps Kp K0 s) :
    Keeps Kp K0 (laneSleeps n s) := by
  unfold laneSleeps
  with_reducible repeat' first
    | assumption
    | refine keeps_setLane (subP hKp (by decide)) ?_
    | refine keeps_enterOff (subP hKp (by decide)) ?_
    | refine keeps_driveFrame (subP hKp (by decide)) ?_
    | refine keeps_sendPowers (subP hKp (by decide)) ?_
    | refine Keeps.ite ?_ ?_

theorem keeps_sleepEntry {Kp : List Part} {K0 s : State} (hKp : [.sent, .reg, .dict, .log, .life, .lanes, .segs, .alert, .mem, .cache, .power, .sup, .ports] ⊆ Kp)
    (hK : Keeps Kp K0 s) : Keeps Kp K0 (sleepEntry s) := by
  have up1 {t : State} {c : Cache} (h : Keeps Kp K0 t) : Keeps Kp K0 { t with cache := c } := by
    with_reducible apply Keeps.upd h
    all_goals with_reducible first
      | exact .inl rfl
      | exact .inr (memP hKp (by decide))
      | exact id
  have up2 {t : State} {p : Power} {l : Vector Lane 32} {g : Vector Segment 4} {x : Supply} (h : Keeps Kp K0 t) :
      Keeps Kp K0 { t with power := p, lanes := l, segs := g, sup := x } := by
    with_reducible apply Keeps.upd h
    all_goals with_reducible first
      | exact .inl rfl
      | exact .inr (memP hKp (by decide))
      | exact id
  unfold sleepEntry
  split
  · exact hK
  · refine .ite ?_ hK
    extract_lets s1 s2 m s3
    have k1 : Keeps Kp K0 s1 := keeps_refillCmb (subP hKp (by decide)) (keeps_refillCmb (subP hKp (by decide))
      (.foldl _ _ _ (fun _ _ h => keeps_laneSleeps (subP hKp (by decide)) h) hK))
    clear_value s1
    have k2 : Keeps Kp K0 s2 := keeps_drainAll (subP hKp (by decide)) (keeps_cacheCleanAll (subP hKp (by decide)) k1)
    clear_value s2
    have k3 : Keeps Kp K0 s3 := keeps_lifeSave (subP hKp (by decide)) (up1 k2)
    clear_value s3
    exact up2 k3

theorem keeps_execSleepEntry {Kp : List Part} {K0 s : State}  (hKp : [.sent, .reg, .dict, .log, .life, .lanes, .segs, .alert, .mem, .cache, .power, .sup, .ports] ⊆ Kp) (hK : Keeps Kp K0 s) :
    KeepsO Kp K0 (execSleepEntry s) := by
  unfold execSleepEntry
  with_reducible repeat' first
    | assumption
    | refine KeepsO.next ?_
    | refine keeps_sleepEntry (subP hKp (by decide)) ?_

theorem keeps_sleepReached {Kp : List Part} {K0 s : State}  (hKp : [.sent, .reg, .dict, .log, .life, .lanes, .teams, .alert, .host, .pair, .work, .power, .sup] ⊆ Kp) (hK : Keeps Kp K0 s) :
    Keeps Kp K0 (sleepReached s) := by
  unfold sleepReached
  with_reducible repeat' first
    | assumption
    | refine keeps_powerDone (subP hKp (by decide)) ?_
    | refine keeps_unitEntered (subP hKp (by decide)) ?_
    | refine keeps_bump (subP hKp (by decide)) ?_
    | refine keeps_disarm (subP hKp (by decide)) ?_
    | exact .inl rfl
    | exact .inr (memP hKp (by decide))
    | exact id
    | apply Keeps.upd

theorem keeps_wakeFails {Kp : List Part} {K0 s : State} {check : Bool} (hKp : [.life, .pair, .power, .fw, .island, .sup] ⊆ Kp) (hK : Keeps Kp K0 s) :
    Keeps Kp K0 (wakeFails check s) := by
  unfold wakeFails
  with_reducible repeat' first
    | assumption
    | refine keeps_failStop (subP hKp (by decide)) ?_
    | refine keeps_loseHealth (subP hKp (by decide)) ?_
    | refine Keeps.ite ?_ ?_
    | exact .inl rfl
    | exact .inr (memP hKp (by decide))
    | exact id
    | apply Keeps.upd

theorem keeps_dropVolatile {Kp : List Part} {K0 s : State}  (hKp : [.reg] ⊆ Kp) (hK : Keeps Kp K0 s) :
    Keeps Kp K0 (dropVolatile s) := by
  unfold dropVolatile
  with_reducible repeat' first
    | assumption
    | exact .inl rfl
    | exact .inr (memP hKp (by decide))
    | exact id
    | exact dict_of rfl
    | apply Keeps.upd

theorem keeps_laneWakes {Kp : List Part} {K0 s : State} {n : LaneId} (hKp : [.sent, .reg, .lanes, .power] ⊆ Kp) (hK : Keeps Kp K0 s) :
    Keeps Kp K0 (laneWakes n s) := by
  unfold laneWakes
  with_reducible repeat' first
    | assumption
    | refine keeps_loadBanks (subP hKp (by decide)) ?_
    | refine keeps_setLane (subP hKp (by decide)) ?_
    | refine keeps_leaveOff (subP hKp (by decide)) ?_
    | refine Keeps.ite ?_ ?_
    | exact .inl rfl
    | exact .inr (memP hKp (by decide))
    | exact id
    | split
    | apply Keeps.upd

theorem keeps_wakeEnds {Kp : List Part} {K0 s : State} {r : PowerReq} (hKp : [.sent, .reg, .dict, .log, .life, .lanes, .teams, .alert, .host, .cache, .pair, .work, .power, .sup] ⊆ Kp) (hK : Keeps Kp K0 s) :
    Keeps Kp K0 (wakeEnds r s) := by
  unfold wakeEnds
  with_reducible repeat' first
    | assumption
    | refine keeps_dropVolatile (subP hKp (by decide)) ?_
    | refine keeps_setPower (subP hKp (by decide)) ?_
    | refine keeps_unitEntered (subP hKp (by decide)) ?_
    | refine keeps_capLanes (subP hKp (by decide)) ?_
    | refine keeps_setCause (subP hKp (by decide)) ?_
    | refine keeps_laneWakes (subP hKp (by decide)) ?_
    | refine keeps_bump (subP hKp (by decide)) ?_
    | refine keeps_evaluateTeam (subP hKp (by decide)) ?_
    | refine keeps_powerDone (subP hKp (by decide)) ?_
    | refine keeps_powerBegin (subP hKp (by decide)) ?_
    | refine keeps_settleAsked (subP hKp (by decide)) ?_
    | refine Keeps.fold2 _ _ _ (fun _ _ _ => ?_) ?_
    | refine Keeps.foldl _ _ _ (fun _ _ _ => ?_) ?_
    | refine Keeps.ite ?_ ?_
    | exact .inl rfl
    | exact .inr (memP hKp (by decide))
    | exact id
    | apply Keeps.upd

theorem keeps_wakeStep {Kp : List Part} {K0 s : State} {ok : Bool} (hKp : [.sent, .reg, .dict, .log, .life, .lanes, .teams, .alert, .host, .cache, .pair, .work, .power, .fw, .island, .sup] ⊆ Kp) (hK : Keeps Kp K0 s) :
    Keeps Kp K0 (wakeStep ok s) := by
  unfold wakeStep
  with_reducible repeat' first
    | assumption
    | refine keeps_wakeFails (subP hKp (by decide)) ?_
    | refine keeps_setPower (subP hKp (by decide)) ?_
    | refine keeps_wakeEnds (subP hKp (by decide)) ?_
    | refine Keeps.ite ?_ ?_
    | exact .inl rfl
    | exact .inr (memP hKp (by decide))
    | exact id
    | split
    | apply Keeps.upd

theorem keeps_execWakeStep {Kp : List Part} {K0 s : State} {ok : Bool} (hKp : [.sent, .reg, .dict, .log, .life, .lanes, .teams, .alert, .host, .cache, .pair, .work, .power, .fw, .island, .sup] ⊆ Kp) (hK : Keeps Kp K0 s) :
    KeepsO Kp K0 (execWakeStep ok s) := by
  unfold execWakeStep
  with_reducible repeat' first
    | assumption
    | refine KeepsO.next ?_
    | refine keeps_wakeStep (subP hKp (by decide)) ?_

theorem keeps_execWakeStepTimeout {Kp : List Part} {K0 s : State}  (hKp : [.sent, .dict, .log, .life, .alert, .pair, .power, .fw, .island, .sup] ⊆ Kp) (hK : Keeps Kp K0 s) :
    KeepsO Kp K0 (execWakeStepTimeout s) := by
  unfold execWakeStepTimeout
  with_reducible repeat' first
    | assumption
    | refine KeepsO.next ?_
    | refine KeepsO.ite ?_ ?_
    | refine keeps_wakeFails (subP hKp (by decide)) ?_
    | refine keeps_raise (subP hKp (by decide)) ?_
    | refine Keeps.ite ?_ ?_

theorem keeps_execDemandWake {Kp : List Part} {K0 s : State}  (hKp : [.sent, .reg, .dict, .log, .life, .lanes, .teams, .alert, .host, .pair, .work, .power, .sup] ⊆ Kp) (hK : Keeps Kp K0 s) :
    KeepsO Kp K0 (execDemandWake s) := by
  unfold execDemandWake
  with_reducible repeat' first
    | assumption
    | refine KeepsO.next ?_
    | refine KeepsO.ite ?_ ?_
    | refine keeps_requestPower (subP hKp (by decide)) ?_
    | refine Keeps.ite ?_ ?_

theorem keeps_ackIn {Kp : List Part} {K0 s : State} {seq : Nat} {status : Nat} (hKp : [.sent, .dict, .log, .life, .teams, .alert, .host, .pair, .work] ⊆ Kp) (hK : Keeps Kp K0 s) :
    Keeps Kp K0 (ackIn seq status s) := by
  unfold ackIn
  with_reducible repeat' first
    | assumption
    | refine keeps_carriedCheck (subP hKp (by decide)) ?_
    | refine keeps_commitFlight (subP hKp (by decide)) ?_
    | refine keeps_answerReply (subP hKp (by decide)) ?_
    | refine keeps_powerAnswer (subP hKp (by decide)) ?_
    | refine keeps_arm (subP hKp (by decide)) ?_
    | refine Keeps.ite ?_ ?_
    | exact .inl rfl
    | exact .inr (memP hKp (by decide))
    | exact id
    | split
    | apply Keeps.upd

theorem keeps_execAck {Kp : List Part} {K0 s : State} {frame : Bytes} (hKp : [.sent, .reg, .dict, .log, .life, .teams, .alert, .host, .pair, .work] ⊆ Kp) (hK : Keeps Kp K0 s) :
    KeepsO Kp K0 (execAck frame s) := by
  unfold execAck
  with_reducible repeat' first
    | assumption
    | refine KeepsO.next ?_
    | (intro _; try intros)
    | refine keeps_batonReceive (subP hKp (by decide)) ?_ ?_
    | refine keeps_ackIn (subP hKp (by decide)) ?_

end Sys2Proof.Machine
end

