-- ==== Sys2Proof/Laws/KeepsFirmware.lean ====
section
/-! SUPPORT. What the operations of Firmware.lean keep. -/

namespace Sys2Proof.Machine

set_option linter.unusedTactic false
set_option linter.unreachableTactic false
set_option linter.unusedVariables false

theorem keeps_setLoad {Kp : List Part} {K0 s : State} {f : Download → Download} (hKp : [.fw] ⊆ Kp) (hK : Keeps Kp K0 s) :
    Keeps Kp K0 (setLoad f s) := by
  unfold setLoad
  with_reducible repeat' first
    | assumption
    | exact .inl rfl
    | exact .inr (memP hKp (by decide))
    | exact id
    | apply Keeps.upd

theorem keeps_openLoad {Kp : List Part} {K0 s : State} {h : Bytes} {nvme : Bool} (hKp : [.fw] ⊆ Kp) (hK : Keeps Kp K0 s) :
    KeepsE Kp K0 (openLoad h nvme s) := by
  unfold openLoad
  with_reducible repeat' first
    | assumption
    | refine KeepsE.ok ?_
    | exact KeepsE.error
    | refine KeepsE.ite ?_ ?_
    | refine keeps_setLoad (subP hKp (by decide)) ?_
    | refine keeps_setSlot (subP hKp (by decide)) ?_
    | refine Keeps.ite ?_ ?_
    | split

theorem keeps_putChunk {Kp : List Part} {K0 s : State} {c : Nat} {data : Bytes} (hKp : [.fw] ⊆ Kp) (hK : Keeps Kp K0 s) :
    Keeps Kp K0 (putChunk c data s) := by
  unfold putChunk
  with_reducible repeat' first
    | assumption
    | refine keeps_setLoad (subP hKp (by decide)) ?_
    | refine Keeps.ite ?_ ?_
    | exact .inl rfl
    | exact .inr (memP hKp (by decide))
    | exact id
    | apply Keeps.upd

theorem keeps_openDownloadEffect {Kp : List Part} {K0 s : State} {v : Bytes} (hKp : [.fw] ⊆ Kp) (hK : Keeps Kp K0 s) :
    KeepsE Kp K0 (openDownloadEffect v s) := by
  unfold openDownloadEffect
  with_reducible repeat' first
    | assumption
    | refine KeepsE.ok ?_
    | exact KeepsE.error
    | refine KeepsE.ite ?_ ?_
    | refine KeepsE.of (by assumption) ?_
    | refine keeps_openLoad (subP hKp (by decide)) ?_
    | refine Keeps.ite ?_ ?_
    | split

theorem keeps_chunkEffect {Kp : List Part} {K0 s : State} {v : Bytes} (hKp : [.fw] ⊆ Kp) (hK : Keeps Kp K0 s) :
    KeepsE Kp K0 (chunkEffect v s) := by
  unfold chunkEffect
  with_reducible repeat' first
    | assumption
    | refine KeepsE.ok ?_
    | exact KeepsE.error
    | refine KeepsE.ite ?_ ?_
    | refine keeps_putChunk (subP hKp (by decide)) ?_
    | refine Keeps.ite ?_ ?_

theorem keeps_abandonEffect {Kp : List Part} {K0 s : State}  (hKp : [.fw] ⊆ Kp) (hK : Keeps Kp K0 s) :
    KeepsE Kp K0 (abandonEffect s) := by
  unfold abandonEffect
  with_reducible repeat' first
    | assumption
    | refine KeepsE.ok ?_
    | refine KeepsE.ite ?_ ?_
    | refine keeps_setLoad (subP hKp (by decide)) ?_
    | refine keeps_setSlot (subP hKp (by decide)) ?_
    | refine Keeps.ite ?_ ?_

theorem keeps_verifySlot {Kp : List Part} {K0 s : State}  (hKp : [.sent, .dict, .log, .life, .alert, .fw] ⊆ Kp) (hK : Keeps Kp K0 s) :
    Keeps Kp K0 (verifySlot s).1 := by
  unfold verifySlot
  extract_lets
  with_reducible repeat' first
    | assumption
    | refine keeps_raise (subP hKp (by decide)) ?_
    | refine keeps_setLoad (subP hKp (by decide)) ?_
    | refine keeps_setSlot (subP hKp (by decide)) ?_
    | split

theorem keeps_execImageVerify {Kp : List Part} {K0 s : State}  (hKp : [.sent, .dict, .log, .life, .alert, .fw] ⊆ Kp) (hK : Keeps Kp K0 s) :
    KeepsO Kp K0 (execImageVerify s) := by
  unfold execImageVerify
  with_reducible repeat' first
    | assumption
    | refine KeepsO.next ?_
    | refine KeepsO.ite ?_ ?_
    | refine keeps_verifySlot (subP hKp (by decide)) ?_
    | refine Keeps.ite ?_ ?_
    | refine Keeps.fst (by assumption) ?_

theorem keeps_execImageCopyToPeer {Kp : List Part} {K0 s : State}  (hKp : [.sent, .dict, .log, .life, .alert] ⊆ Kp) (hK : Keeps Kp K0 s) :
    KeepsO Kp K0 (execImageCopyToPeer s) := by
  unfold execImageCopyToPeer
  with_reducible repeat' first
    | assumption
    | refine KeepsO.next ?_
    | refine KeepsO.ite ?_ ?_
    | refine keeps_raise (subP hKp (by decide)) ?_
    | refine Keeps.ite ?_ ?_

theorem keeps_putChunks {Kp : List Part} {K0 s : State} {y0 : Nat} {y1 : Nat} {y2 : Bytes} (hKp : [.fw] ⊆ Kp) (hK : Keeps Kp K0 s) :
    Keeps Kp K0 (putChunks y0 y1 y2 s) := by
  induction y0 generalizing y1 y2 s with
  | zero => exact hK
  | succ n ih =>
    unfold putChunks
    with_reducible repeat' first
      | assumption
      | refine ih ?_
      | refine keeps_putChunk (subP hKp (by decide)) ?_
      | refine Keeps.ite ?_ ?_

theorem keeps_imageDownload {Kp : List Part} {K0 s : State} {ofst : Nat} {data : Option Bytes} {c : CmdId} (hKp : [.sent, .reg, .host, .pair, .work, .fw] ⊆ Kp) (hK : Keeps Kp K0 s) :
    Keeps Kp K0 (imageDownload ofst data c s) := by
  unfold imageDownload
  with_reducible repeat' first
    | assumption
    | refine KeepsE.of (by assumption) ?_
    | refine keeps_refuse (subP hKp (by decide)) ?_
    | refine keeps_openLoad (subP hKp (by decide)) ?_
    | refine keeps_adminDone (subP hKp (by decide)) ?_
    | refine keeps_putChunks (subP hKp (by decide)) ?_
    | refine Keeps.ite ?_ ?_
    | split

theorem keeps_execFirmwareImageDownload {Kp : List Part} {K0 s : State} {c : CmdId} {ofst : Nat} {data : Option Bytes} (hKp : [.sent, .reg, .dict, .log, .life, .alert, .host, .mem, .cache, .pair, .work, .fw] ⊆ Kp) (hK : Keeps Kp K0 s) :
    KeepsO Kp K0 (execFirmwareImageDownload c ofst data s) := by
  unfold execFirmwareImageDownload
  with_reducible repeat' first
    | assumption
    | refine KeepsO.next ?_
    | (intro _; try intros)
    | refine keeps_fetchAdmin (subP hKp (by decide)) ?_ ?_
    | refine keeps_imageDownload (subP hKp (by decide)) ?_

theorem keeps_completeLoad {Kp : List Part} {K0 s : State} {r : Fin 2} (hKp : [.sent, .dict, .log, .life, .alert, .fw] ⊆ Kp) (hK : Keeps Kp K0 s) :
    KeepsE Kp K0 (completeLoad r s) := by
  unfold completeLoad
  with_reducible repeat' first
    | assumption
    | refine KeepsE.ok ?_
    | exact KeepsE.error
    | refine KeepsE.ite ?_ ?_
    | refine keeps_verifySlot (subP hKp (by decide)) ?_
    | refine Keeps.ite ?_ ?_
    | refine Keeps.fst (by assumption) ?_
    | split

theorem keeps_afterLoad {Kp : List Part} {K0 s : State} {r : Fin 2} (hKp : [.sent, .dict, .log, .life, .alert, .fw] ⊆ Kp) (hK : Keeps Kp K0 s) :
    Keeps Kp K0 (afterLoad r s) := by
  unfold afterLoad
  with_reducible repeat' first
    | assumption
    | refine keeps_verifySlot (subP hKp (by decide)) ?_
    | refine Keeps.ite ?_ ?_
    | refine Keeps.fst (by assumption) ?_

theorem keeps_makePending {Kp : List Part} {K0 s : State} {r : Fin 2} (hKp : [.fw] ⊆ Kp) (hK : Keeps Kp K0 s) :
    Keeps Kp K0 (makePending r s) := by
  unfold makePending
  with_reducible repeat' first
    | assumption
    | refine keeps_dirUpdate (subP hKp (by decide)) ?_
    | exact .inl rfl
    | exact .inr (memP hKp (by decide))
    | exact id
    | apply Keeps.upd

theorem keeps_commitLoad {Kp : List Part} {K0 s : State} {pending : Bool} {fs : Nat} {c : CmdId} (hKp : [.sent, .reg, .dict, .log, .life, .alert, .host, .pair, .work, .fw] ⊆ Kp) (hK : Keeps Kp K0 s) :
    Keeps Kp K0 (commitLoad pending fs c s) := by
  unfold commitLoad
  with_reducible repeat' first
    | assumption
    | refine KeepsE.of (by assumption) ?_
    | refine keeps_refuse (subP hKp (by decide)) ?_
    | refine keeps_completeLoad (subP hKp (by decide)) ?_
    | refine keeps_afterLoad (subP hKp (by decide)) ?_
    | refine keeps_completeAs (subP hKp (by decide)) ?_
    | refine keeps_admitted (subP hKp (by decide)) ?_
    | refine keeps_makePending (subP hKp (by decide)) ?_
    | refine keeps_adminDone (subP hKp (by decide)) ?_
    | refine Keeps.ite ?_ ?_
    | split

theorem keeps_execFirmwareCommitVerify {Kp : List Part} {K0 s : State} {c : CmdId} {fs : Nat} (hKp : [.sent, .reg, .dict, .log, .life, .alert, .host, .mem, .cache, .pair, .work, .fw] ⊆ Kp) (hK : Keeps Kp K0 s) :
    KeepsO Kp K0 (execFirmwareCommitVerify c fs s) := by
  unfold execFirmwareCommitVerify
  with_reducible repeat' first
    | assumption
    | refine KeepsO.next ?_
    | (intro _; try intros)
    | refine keeps_fetchAdmin (subP hKp (by decide)) ?_ ?_
    | refine keeps_commitLoad (subP hKp (by decide)) ?_

theorem keeps_execFirmwareCommitPending {Kp : List Part} {K0 s : State} {c : CmdId} {fs : Nat} (hKp : [.sent, .reg, .dict, .log, .life, .alert, .host, .mem, .cache, .pair, .work, .fw] ⊆ Kp) (hK : Keeps Kp K0 s) :
    KeepsO Kp K0 (execFirmwareCommitPending c fs s) := by
  unfold execFirmwareCommitPending
  with_reducible repeat' first
    | assumption
    | refine KeepsO.next ?_
    | (intro _; try intros)
    | refine keeps_fetchAdmin (subP hKp (by decide)) ?_ ?_
    | refine keeps_commitLoad (subP hKp (by decide)) ?_

theorem keeps_execFirmwareCommitSelect {Kp : List Part} {K0 s : State} {c : CmdId} {fs : Nat} (hKp : [.sent, .reg, .dict, .log, .life, .alert, .host, .mem, .cache, .pair, .work, .fw] ⊆ Kp) (hK : Keeps Kp K0 s) :
    KeepsO Kp K0 (execFirmwareCommitSelect c fs s) := by
  unfold execFirmwareCommitSelect
  with_reducible repeat' first
    | assumption
    | refine KeepsO.next ?_
    | refine KeepsO.ite ?_ ?_
    | (intro _; try intros)
    | refine keeps_fetchAdmin (subP hKp (by decide)) ?_ ?_
    | refine keeps_refuse (subP hKp (by decide)) ?_
    | refine keeps_completeAs (subP hKp (by decide)) ?_
    | refine keeps_admitted (subP hKp (by decide)) ?_
    | refine keeps_makePending (subP hKp (by decide)) ?_
    | refine Keeps.ite ?_ ?_
    | split

theorem keeps_setAct {Kp : List Part} {K0 s : State} {f : Activation → Activation} (hKp : [.fw] ⊆ Kp) (hK : Keeps Kp K0 s) :
    Keeps Kp K0 (setAct f s) := by
  unfold setAct
  with_reducible repeat' first
    | assumption
    | exact .inl rfl
    | exact .inr (memP hKp (by decide))
    | exact id
    | apply Keeps.upd

theorem keeps_actBegin {Kp : List Part} {K0 s : State} {who : Option PowerWho} (hKp : [.sent, .dict, .log, .life, .alert, .pair, .work, .fw] ⊆ Kp) (hK : Keeps Kp K0 s) :
    Keeps Kp K0 (actBegin who s) := by
  unfold actBegin
  with_reducible repeat' first
    | assumption
    | refine keeps_setAct (subP hKp (by decide)) ?_
    | refine keeps_disarm (subP hKp (by decide)) ?_
    | refine keeps_sendConfig (subP hKp (by decide)) ?_
    | refine Keeps.ite ?_ ?_

theorem keeps_activateEffect {Kp : List Part} {K0 s : State} {peerHolds : Bool} (hKp : [.sent, .dict, .log, .life, .alert, .pair, .work, .fw] ⊆ Kp) (hK : Keeps Kp K0 s) :
    Keeps Kp K0 (activateEffect peerHolds s).2 := by
  unfold activateEffect
  with_reducible repeat' first
    | assumption
    | refine keeps_makePending (subP hKp (by decide)) ?_
    | refine keeps_actBegin (subP hKp (by decide)) ?_
    | refine Keeps.ite ?_ ?_
    | split

theorem keeps_commitActivate {Kp : List Part} {K0 s : State} {fs : Nat} {peerHolds : Bool} {c : CmdId} (hKp : [.sent, .reg, .dict, .log, .life, .alert, .host, .pair, .work, .fw] ⊆ Kp) (hK : Keeps Kp K0 s) :
    Keeps Kp K0 (commitActivate fs peerHolds c s) := by
  unfold commitActivate
  with_reducible repeat' first
    | assumption
    | refine KeepsE.of (by assumption) ?_
    | refine keeps_refuse (subP hKp (by decide)) ?_
    | refine keeps_completeLoad (subP hKp (by decide)) ?_
    | refine keeps_afterLoad (subP hKp (by decide)) ?_
    | refine keeps_makePending (subP hKp (by decide)) ?_
    | refine keeps_actBegin (subP hKp (by decide)) ?_
    | refine keeps_takeOff (subP hKp (by decide)) ?_
    | refine Keeps.ite ?_ ?_
    | split

theorem keeps_execFirmwareCommitActivate {Kp : List Part} {K0 s : State} {c : CmdId} {fs : Nat} {peerHolds : Bool} (hKp : [.sent, .reg, .dict, .log, .life, .alert, .host, .mem, .cache, .pair, .work, .fw] ⊆ Kp) (hK : Keeps Kp K0 s) :
    KeepsO Kp K0 (execFirmwareCommitActivate c fs peerHolds s) := by
  unfold execFirmwareCommitActivate
  with_reducible repeat' first
    | assumption
    | refine KeepsO.next ?_
    | (intro _; try intros)
    | refine keeps_fetchAny (subP hKp (by decide)) ?_ ?_
    | refine keeps_commitActivate (subP hKp (by decide)) ?_

theorem keeps_actAnswer {Kp : List Part} {K0 s : State} {st : Nat × Nat × Option Bool} (hKp : [.sent, .teams, .host, .pair, .work] ⊆ Kp) (hK : Keeps Kp K0 s) :
    Keeps Kp K0 (actAnswer st s) := by
  unfold actAnswer
  with_reducible repeat' first
    | assumption
    | refine keeps_tryComplete (subP hKp (by decide)) ?_
    | refine keeps_setFlight (subP hKp (by decide)) ?_
    | split

theorem keeps_actFails {Kp : List Part} {K0 s : State} {step : Nat} {st : Nat × Nat × Option Bool} (hKp : [.sent, .dict, .log, .life, .teams, .alert, .host, .pair, .work, .fw] ⊆ Kp) (hK : Keeps Kp K0 s) :
    Keeps Kp K0 (actFails step st s) := by
  unfold actFails
  with_reducible repeat' first
    | assumption
    | refine keeps_actAnswer (subP hKp (by decide)) ?_
    | refine keeps_raise (subP hKp (by decide)) ?_
    | refine keeps_setAct (subP hKp (by decide)) ?_

theorem keeps_measureImage {Kp : List Part} {K0 s : State} {b : Bytes} (hKp : [.fw] ⊆ Kp) (hK : Keeps Kp K0 s) :
    Keeps Kp K0 (measureImage b s) := by
  unfold measureImage
  with_reducible repeat' first
    | assumption
    | refine Keeps.elim ?_ (fun _ => ?_)
    | exact .inl rfl
    | exact .inr (memP hKp (by decide))
    | exact id
    | apply Keeps.upd

theorem keeps_actStarting {Kp : List Part} {K0 s : State}  (hKp : [.sent, .dict, .log, .life, .alert, .host] ⊆ Kp) (hK : Keeps Kp K0 s) :
    Keeps Kp K0 (actStarting s) := by
  unfold actStarting
  with_reducible repeat' first
    | assumption
    | refine keeps_asyncBoth (subP hKp (by decide)) ?_
    | refine keeps_raise (subP hKp (by decide)) ?_

theorem keeps_actPause {Kp : List Part} {K0 s : State}  (hKp : [.host, .fw] ⊆ Kp) (hK : Keeps Kp K0 s) :
    Keeps Kp K0 (actPause s) := by
  unfold actPause
  with_reducible repeat' first
    | assumption
    | refine keeps_setAct (subP hKp (by decide)) ?_
    | refine keeps_setHost (subP hKp (by decide)) ?_

theorem keeps_actHandoff {Kp : List Part} {K0 s : State}  (hKp : [.life, .fw] ⊆ Kp) (hK : Keeps Kp K0 s) :
    Keeps Kp K0 (actHandoff s) := by
  unfold actHandoff
  with_reducible repeat' first
    | assumption
    | refine keeps_lifeSave (subP hKp (by decide)) ?_
    | refine keeps_dirUpdate (subP hKp (by decide)) ?_
    | exact .inl rfl
    | exact .inr (memP hKp (by decide))
    | exact id
    | apply Keeps.upd

theorem keeps_actResume {Kp : List Part} {K0 s : State}  (hKp : [.sent, .dict, .log, .life, .teams, .alert, .host, .pair, .work, .fw] ⊆ Kp) (hK : Keeps Kp K0 s) :
    Keeps Kp K0 (actResume s) := by
  unfold actResume
  extract_lets
  with_reducible repeat' first
    | assumption
    | refine keeps_measureImage (subP hKp (by decide)) ?_
    | refine keeps_setHost (subP hKp (by decide)) ?_
    | refine keeps_carriedCheck (subP hKp (by decide)) ?_
    | refine keeps_setCause (subP hKp (by decide)) ?_
    | refine keeps_raise (subP hKp (by decide)) ?_
    | refine keeps_setAct (subP hKp (by decide)) ?_
    | refine keeps_tryComplete (subP hKp (by decide)) ?_
    | refine keeps_actAnswer (subP hKp (by decide)) ?_
    | refine keeps_batonSend (subP hKp (by decide)) ?_
    | refine Keeps.fold2 _ _ _ (fun _ _ _ => ?_) ?_
    | refine Keeps.foldl _ _ _ (fun _ _ _ => ?_) ?_
    | refine Keeps.ite ?_ ?_
    | exact .inl rfl
    | exact .inr (memP hKp (by decide))
    | exact id
    | split
    | apply Keeps.upd

theorem keeps_activationStep {Kp : List Part} {K0 s : State}  (hKp : [.sent, .dict, .log, .life, .teams, .alert, .host, .pair, .work, .fw] ⊆ Kp) (hK : Keeps Kp K0 s) :
    Keeps Kp K0 (activationStep s) := by
  unfold activationStep
  with_reducible repeat' first
    | assumption
    | refine keeps_setAct (subP hKp (by decide)) ?_
    | refine keeps_actFails (subP hKp (by decide)) ?_
    | refine keeps_actStarting (subP hKp (by decide)) ?_
    | refine keeps_actPause (subP hKp (by decide)) ?_
    | refine keeps_actHandoff (subP hKp (by decide)) ?_
    | refine keeps_actResume (subP hKp (by decide)) ?_
    | refine Keeps.ite ?_ ?_
    | exact .inl rfl
    | exact .inr (memP hKp (by decide))
    | exact id
    | split
    | apply Keeps.upd

theorem keeps_execActivationStep {Kp : List Part} {K0 s : State}  (hKp : [.sent, .dict, .log, .life, .teams, .alert, .host, .pair, .work, .fw] ⊆ Kp) (hK : Keeps Kp K0 s) :
    KeepsO Kp K0 (execActivationStep s) := by
  unfold execActivationStep
  with_reducible repeat' first
    | assumption
    | refine KeepsO.next ?_
    | refine keeps_activationStep (subP hKp (by decide)) ?_

theorem keeps_rollingNext {Kp : List Part} {K0 s : State}  (hKp : [.sent, .dict, .log, .life, .teams, .alert, .host, .pair, .work, .fw] ⊆ Kp) (hK : Keeps Kp K0 s) :
    Keeps Kp K0 (rollingNext s) := by
  unfold rollingNext
  with_reducible repeat' first
    | assumption
    | refine KeepsE.of (by assumption) ?_
    | refine keeps_setAct (subP hKp (by decide)) ?_
    | refine keeps_beginDrill (subP hKp (by decide)) ?_
    | refine keeps_actFails (subP hKp (by decide)) ?_
    | refine keeps_actAnswer (subP hKp (by decide)) ?_
    | refine Keeps.ite ?_ ?_
    | split

theorem keeps_execRollingActivationStep {Kp : List Part} {K0 s : State} {ok : Bool} (hKp : [.sent, .dict, .log, .life, .teams, .alert, .host, .pair, .work, .fw] ⊆ Kp) (hK : Keeps Kp K0 s) :
    KeepsO Kp K0 (execRollingActivationStep ok s) := by
  unfold execRollingActivationStep
  with_reducible repeat' first
    | assumption
    | refine KeepsO.next ?_
    | refine KeepsO.ite ?_ ?_
    | refine keeps_setAct (subP hKp (by decide)) ?_
    | refine keeps_actFails (subP hKp (by decide)) ?_
    | refine keeps_rollingNext (subP hKp (by decide)) ?_
    | refine Keeps.ite ?_ ?_

theorem keeps_commitTrial {Kp : List Part} {K0 s : State}  (hKp : [.sent, .dict, .log, .life, .alert, .fw] ⊆ Kp) (hK : Keeps Kp K0 s) :
    Keeps Kp K0 (commitTrial s) := by
  unfold commitTrial
  with_reducible repeat' first
    | assumption
    | refine keeps_raise (subP hKp (by decide)) ?_
    | refine keeps_dirUpdate (subP hKp (by decide)) ?_
    | refine Keeps.ite ?_ ?_
    | exact .inl rfl
    | exact .inr (memP hKp (by decide))
    | exact id
    | split
    | apply Keeps.upd

theorem keeps_commitTrialEffect {Kp : List Part} {K0 s : State}  (hKp : [.sent, .dict, .log, .life, .alert, .fw] ⊆ Kp) (hK : Keeps Kp K0 s) :
    KeepsE Kp K0 (commitTrialEffect s) := by
  unfold commitTrialEffect
  with_reducible repeat' first
    | assumption
    | refine KeepsE.ok ?_
    | refine keeps_commitTrial (subP hKp (by decide)) ?_

theorem keeps_execTrialExpire {Kp : List Part} {K0 s : State}  (hKp : [.sent, .dict, .log, .life, .alert, .fw] ⊆ Kp) (hK : Keeps Kp K0 s) :
    KeepsO Kp K0 (execTrialExpire s) := by
  unfold execTrialExpire
  with_reducible repeat' first
    | assumption
    | refine KeepsO.next ?_
    | refine KeepsO.ite ?_ ?_
    | refine keeps_commitTrial (subP hKp (by decide)) ?_
    | refine Keeps.ite ?_ ?_

theorem keeps_execWatchdogExpire {Kp : List Part} {K0 s : State} {core : Fin 12} (hKp : [.life, .pair, .fw, .island, .sup] ⊆ Kp) (hK : Keeps Kp K0 s) :
    KeepsO Kp K0 (execWatchdogExpire core s) := by
  unfold execWatchdogExpire
  with_reducible repeat' first
    | assumption
    | refine KeepsO.next ?_
    | refine KeepsO.ite ?_ ?_
    | refine keeps_failStop (subP hKp (by decide)) ?_
    | refine Keeps.ite ?_ ?_

theorem keeps_execFailStop {Kp : List Part} {K0 s : State} {cause : Nat} (hKp : [.life, .pair, .fw, .island, .sup] ⊆ Kp) (hK : Keeps Kp K0 s) :
    KeepsO Kp K0 (execFailStop cause s) := by
  unfold execFailStop
  with_reducible repeat' first
    | assumption
    | refine KeepsO.next ?_
    | refine KeepsO.ite ?_ ?_
    | refine keeps_failStop (subP hKp (by decide)) ?_
    | refine Keeps.ite ?_ ?_

end Sys2Proof.Machine
end

