-- ==== Sys2Proof/Laws/KeepsSpdm.lean ====
section
/-! SUPPORT. What the operations of Spdm.lean keep. -/

namespace Sys2Proof.Machine

set_option linter.unusedTactic false
set_option linter.unreachableTactic false
set_option linter.unusedVariables false

theorem keeps_setSpdm {Kp : List Part} {K0 s : State} {f : Spdm → Spdm} (hKp : [.host] ⊆ Kp) (hK : Keeps Kp K0 s) :
    Keeps Kp K0 (setSpdm f s) := by
  unfold setSpdm
  with_reducible repeat' first
    | assumption
    | refine keeps_setHost (subP hKp (by decide)) ?_

theorem keeps_spdmReply {Kp : List Part} {K0 s : State} {stage : Nat} {fresh : Bool} {request : Bytes} {response : Bytes} (hKp : [.sent, .host] ⊆ Kp) (hK : Keeps Kp K0 s) :
    Keeps Kp K0 (spdmReply stage fresh request response s) := by
  unfold spdmReply
  with_reducible repeat' first
    | assumption
    | refine keeps_send (subP hKp (by decide)) ?_
    | refine keeps_setSpdm (subP hKp (by decide)) ?_
    | refine Keeps.ite ?_ ?_

theorem keeps_spdmError {Kp : List Part} {K0 s : State} {code : Nat} {data : Nat} (hKp : [.sent, .host] ⊆ Kp) (hK : Keeps Kp K0 s) :
    Keeps Kp K0 (spdmError code data s) := by
  unfold spdmError
  with_reducible repeat' first
    | assumption
    | refine keeps_send (subP hKp (by decide)) ?_
    | refine keeps_setSpdm (subP hKp (by decide)) ?_

theorem keeps_spdmAt {Kp : List Part} {K0 s : State} {least : Nat} {k : State → State} (hKp : [.sent, .host] ⊆ Kp) (hK : Keeps Kp K0 s) (hk : ∀ q, Keeps Kp K0 q → Keeps Kp K0 (k q)) :
    Keeps Kp K0 (spdmAt least k s) := by
  unfold spdmAt
  with_reducible repeat' first
    | assumption
    | refine keeps_spdmError (subP hKp (by decide)) ?_
    | refine Keeps.ite ?_ ?_
    | apply hk

theorem keeps_spdmVersion {Kp : List Part} {K0 s : State}  (hKp : [.sent, .host] ⊆ Kp) (hK : Keeps Kp K0 s) :
    Keeps Kp K0 (spdmVersion s) := by
  unfold spdmVersion
  with_reducible repeat' first
    | assumption
    | refine keeps_spdmReply (subP hKp (by decide)) ?_

theorem keeps_spdmCapabilities {Kp : List Part} {K0 s : State} {flags : Nat} (hKp : [.free, .sent, .host] ⊆ Kp) (hK : Keeps Kp K0 s) :
    Keeps Kp K0 (spdmCapabilities flags s) := by
  unfold spdmCapabilities
  with_reducible repeat' first
    | assumption
    | (intro _; try intros)
    | refine keeps_spdmAt (subP hKp (by decide)) ?_ ?_
    | refine keeps_drawBytes (subP hKp (by decide)) ?_
    | refine keeps_spdmReply (subP hKp (by decide)) ?_
    | refine Keeps.snd (by assumption) ?_
    | split

theorem keeps_spdmAlgorithms {Kp : List Part} {K0 s : State} {asym : Nat} {hash : Nat} (hKp : [.sent, .host] ⊆ Kp) (hK : Keeps Kp K0 s) :
    Keeps Kp K0 (spdmAlgorithms asym hash s) := by
  unfold spdmAlgorithms
  with_reducible repeat' first
    | assumption
    | (intro _; try intros)
    | refine keeps_spdmAt (subP hKp (by decide)) ?_ ?_
    | refine keeps_spdmReply (subP hKp (by decide)) ?_
    | refine Keeps.ite ?_ ?_

theorem keeps_spdmDigests {Kp : List Part} {K0 s : State}  (hKp : [.sent, .host] ⊆ Kp) (hK : Keeps Kp K0 s) :
    Keeps Kp K0 (spdmDigests s) := by
  unfold spdmDigests
  with_reducible repeat' first
    | assumption
    | (intro _; try intros)
    | refine keeps_spdmAt (subP hKp (by decide)) ?_ ?_
    | refine keeps_spdmReply (subP hKp (by decide)) ?_

theorem keeps_spdmCertificate {Kp : List Part} {K0 s : State} {slot : Nat} {offset : Nat} {len : Nat} (hKp : [.sent, .host] ⊆ Kp) (hK : Keeps Kp K0 s) :
    Keeps Kp K0 (spdmCertificate slot offset len s) := by
  unfold spdmCertificate
  with_reducible repeat' first
    | assumption
    | (intro _; try intros)
    | refine keeps_spdmAt (subP hKp (by decide)) ?_ ?_
    | refine keeps_spdmError (subP hKp (by decide)) ?_
    | refine keeps_spdmReply (subP hKp (by decide)) ?_
    | refine Keeps.ite ?_ ?_

theorem keeps_spdmChallenge {Kp : List Part} {K0 s : State} {slot : Nat} {summary : Nat} {nonce : Bytes} (hKp : [.free, .sent, .host] ⊆ Kp) (hK : Keeps Kp K0 s) :
    Keeps Kp K0 (spdmChallenge slot summary nonce s) := by
  unfold spdmChallenge
  with_reducible repeat' first
    | assumption
    | (intro _; try intros)
    | refine keeps_spdmAt (subP hKp (by decide)) ?_ ?_
    | refine keeps_spdmError (subP hKp (by decide)) ?_
    | refine keeps_drawBytes (subP hKp (by decide)) ?_
    | refine keeps_spdmReply (subP hKp (by decide)) ?_
    | refine Keeps.ite ?_ ?_
    | refine Keeps.snd (by assumption) ?_
    | split

theorem keeps_spdmMeasurements {Kp : List Part} {K0 s : State} {index : Nat} {nonce : Option Bytes} (hKp : [.free, .sent, .host] ⊆ Kp) (hK : Keeps Kp K0 s) :
    Keeps Kp K0 (spdmMeasurements index nonce s) := by
  unfold spdmMeasurements
  with_reducible repeat' first
    | assumption
    | (intro _; try intros)
    | refine Keeps.elim ?_ (fun _ => ?_)
    | refine keeps_spdmAt (subP hKp (by decide)) ?_ ?_
    | refine keeps_spdmError (subP hKp (by decide)) ?_
    | refine keeps_drawBytes (subP hKp (by decide)) ?_
    | refine keeps_spdmReply (subP hKp (by decide)) ?_
    | refine Keeps.ite ?_ ?_
    | refine Keeps.snd (by assumption) ?_
    | split

theorem keeps_spdmRequest {Kp : List Part} {K0 s : State} {m : Bytes} (hKp : [.free, .sent, .host] ⊆ Kp) (hK : Keeps Kp K0 s) :
    Keeps Kp K0 (spdmRequest m s) := by
  unfold spdmRequest
  with_reducible repeat' first
    | assumption
    | refine keeps_spdmVersion (subP hKp (by decide)) ?_
    | refine keeps_spdmCapabilities (subP hKp (by decide)) ?_
    | refine keeps_spdmAlgorithms (subP hKp (by decide)) ?_
    | refine keeps_spdmDigests (subP hKp (by decide)) ?_
    | refine keeps_spdmCertificate (subP hKp (by decide)) ?_
    | refine keeps_spdmChallenge (subP hKp (by decide)) ?_
    | refine keeps_spdmMeasurements (subP hKp (by decide)) ?_
    | refine keeps_spdmError (subP hKp (by decide)) ?_
    | refine Keeps.ite ?_ ?_
    | split

theorem keeps_execGetVersion {Kp : List Part} {K0 s : State}  (hKp : [.sent, .host] ⊆ Kp) (hK : Keeps Kp K0 s) :
    KeepsO Kp K0 (execGetVersion s) := by
  unfold execGetVersion
  with_reducible repeat' first
    | assumption
    | refine KeepsO.next ?_
    | refine keeps_spdmVersion (subP hKp (by decide)) ?_

theorem keeps_execGetCapabilities {Kp : List Part} {K0 s : State} {flags : Nat} (hKp : [.free, .sent, .host] ⊆ Kp) (hK : Keeps Kp K0 s) :
    KeepsO Kp K0 (execGetCapabilities flags s) := by
  unfold execGetCapabilities
  with_reducible repeat' first
    | assumption
    | refine KeepsO.next ?_
    | refine keeps_spdmCapabilities (subP hKp (by decide)) ?_

theorem keeps_execNegotiateAlgorithms {Kp : List Part} {K0 s : State} {asym : Nat} {hash : Nat} (hKp : [.sent, .host] ⊆ Kp) (hK : Keeps Kp K0 s) :
    KeepsO Kp K0 (execNegotiateAlgorithms asym hash s) := by
  unfold execNegotiateAlgorithms
  with_reducible repeat' first
    | assumption
    | refine KeepsO.next ?_
    | refine keeps_spdmAlgorithms (subP hKp (by decide)) ?_

theorem keeps_execGetDigests {Kp : List Part} {K0 s : State}  (hKp : [.sent, .host] ⊆ Kp) (hK : Keeps Kp K0 s) :
    KeepsO Kp K0 (execGetDigests s) := by
  unfold execGetDigests
  with_reducible repeat' first
    | assumption
    | refine KeepsO.next ?_
    | refine keeps_spdmDigests (subP hKp (by decide)) ?_

theorem keeps_execGetCertificate {Kp : List Part} {K0 s : State} {slot : Nat} {offset : Nat} {len : Nat} (hKp : [.sent, .host] ⊆ Kp) (hK : Keeps Kp K0 s) :
    KeepsO Kp K0 (execGetCertificate slot offset len s) := by
  unfold execGetCertificate
  with_reducible repeat' first
    | assumption
    | refine KeepsO.next ?_
    | refine keeps_spdmCertificate (subP hKp (by decide)) ?_

theorem keeps_execChallenge {Kp : List Part} {K0 s : State} {slot : Nat} {summary : Nat} {nonce : Bytes} (hKp : [.free, .sent, .host] ⊆ Kp) (hK : Keeps Kp K0 s) :
    KeepsO Kp K0 (execChallenge slot summary nonce s) := by
  unfold execChallenge
  with_reducible repeat' first
    | assumption
    | refine KeepsO.next ?_
    | refine keeps_spdmChallenge (subP hKp (by decide)) ?_

theorem keeps_execGetMeasurements {Kp : List Part} {K0 s : State} {index : Nat} {nonce : Option Bytes} (hKp : [.free, .sent, .host] ⊆ Kp) (hK : Keeps Kp K0 s) :
    KeepsO Kp K0 (execGetMeasurements index nonce s) := by
  unfold execGetMeasurements
  with_reducible repeat' first
    | assumption
    | refine KeepsO.next ?_
    | refine keeps_spdmMeasurements (subP hKp (by decide)) ?_

theorem keeps_execSpdmUnsupportedRequest {Kp : List Part} {K0 s : State} {code : Nat} (hKp : [.sent, .host] ⊆ Kp) (hK : Keeps Kp K0 s) :
    KeepsO Kp K0 (execSpdmUnsupportedRequest code s) := by
  unfold execSpdmUnsupportedRequest
  with_reducible repeat' first
    | assumption
    | refine KeepsO.next ?_
    | refine keeps_spdmError (subP hKp (by decide)) ?_

theorem keeps_execSecuritySend {Kp : List Part} {K0 s : State} {c : CmdId} {protocol : Nat} {data : Option Bytes} (hKp : [.free, .sent, .reg, .dict, .log, .life, .alert, .host, .mem, .cache, .pair, .work] ⊆ Kp) (hK : Keeps Kp K0 s) :
    KeepsO Kp K0 (execSecuritySend c protocol data s) := by
  unfold execSecuritySend
  with_reducible repeat' first
    | assumption
    | refine KeepsO.next ?_
    | refine KeepsO.ite ?_ ?_
    | (intro _; try intros)
    | refine keeps_fetchAdmin (subP hKp (by decide)) ?_ ?_
    | refine keeps_refuse (subP hKp (by decide)) ?_
    | refine keeps_adminDone (subP hKp (by decide)) ?_
    | refine keeps_spdmRequest (subP hKp (by decide)) ?_
    | refine Keeps.ite ?_ ?_
    | split

theorem keeps_execSecurityReceive {Kp : List Part} {K0 s : State} {c : CmdId} {protocol : Nat} {len : Nat} (hKp : [.sent, .reg, .dict, .log, .life, .alert, .host, .mem, .cache, .pair, .work] ⊆ Kp) (hK : Keeps Kp K0 s) :
    KeepsO Kp K0 (execSecurityReceive c protocol len s) := by
  unfold execSecurityReceive
  with_reducible repeat' first
    | assumption
    | refine KeepsO.next ?_
    | refine KeepsO.ite ?_ ?_
    | (intro _; try intros)
    | refine keeps_fetchAdmin (subP hKp (by decide)) ?_ ?_
    | refine keeps_refuse (subP hKp (by decide)) ?_
    | refine keeps_adminDone (subP hKp (by decide)) ?_
    | refine keeps_send (subP hKp (by decide)) ?_
    | refine keeps_setSpdm (subP hKp (by decide)) ?_
    | refine Keeps.ite ?_ ?_

end Sys2Proof.Machine
end

