-- ==== Sys2Proof/Laws/KeepsSupplies.lean ====
section
/-! SUPPORT. What the operations of Supplies.lean keep. -/

namespace Sys2Proof.Machine

set_option linter.unusedTactic false
set_option linter.unreachableTactic false
set_option linter.unusedVariables false

theorem keeps_deviceReset {Kp : List Part} {K0 s : State} (hKp : [.reg, .keys, .dict, .conf, .log, .cal, .life, .lanes, .pool, .teams, .segs, .alert, .core, .host, .mem, .cache, .pair, .work, .power, .fw, .sup, .ports] ⊆ Kp)
    (hK : Keeps Kp K0 s) : Keeps Kp K0 (deviceReset s) := by
  refine hK.trans ⟨rfl, rfl, fun x hx => ?_, fun _ => wf_nil rfl, fun _ => Nat.zero_le _, fun _ i x h => ?_⟩
  · cases x <;> first
      | rfl
      | exact absurd (memP hKp (by decide)) hx
  · have : (Vector.replicate 8 (none : Option Session))[i] = some x := h
    simp at this

theorem keeps_lowerFrom {Kp : List Part} {K0 s : State} {g : Fin 4} {rest : List (Fin 4)} (hKp : [.sup] ⊆ Kp) (hK : Keeps Kp K0 s) :
    Keeps Kp K0 (lowerFrom g rest s) := by
  unfold lowerFrom
  with_reducible repeat' first
    | assumption
    | exact .inl rfl
    | exact .inr (memP hKp (by decide))
    | exact id
    | apply Keeps.upd

theorem keeps_aonFail {Kp : List Part} {K0 s : State}  (hKp : [.reg, .keys, .dict, .conf, .log, .cal, .life, .lanes, .pool, .teams, .segs, .alert, .core, .host, .mem, .cache, .pair, .work, .power, .fw, .sup, .ports] ⊆ Kp) (hK : Keeps Kp K0 s) :
    Keeps Kp K0 (aonFail s) := by
  unfold aonFail
  with_reducible repeat' first
    | assumption
    | refine keeps_deviceReset (subP hKp (by decide)) ?_
    | refine keeps_loseHealth (subP hKp (by decide)) ?_
    | refine keeps_lowerFrom (subP hKp (by decide)) ?_
    | exact .inl rfl
    | exact .inr (memP hKp (by decide))
    | exact id
    | apply Keeps.upd

theorem keeps_execAonPowerFail {Kp : List Part} {K0 s : State}  (hKp : [.reg, .keys, .dict, .conf, .log, .cal, .life, .lanes, .pool, .teams, .segs, .alert, .core, .host, .mem, .cache, .pair, .work, .power, .fw, .sup, .ports] ⊆ Kp) (hK : Keeps Kp K0 s) :
    KeepsO Kp K0 (execAonPowerFail s) := by
  unfold execAonPowerFail
  with_reducible repeat' first
    | assumption
    | refine KeepsO.next ?_
    | refine KeepsO.ite ?_ ?_
    | refine keeps_aonFail (subP hKp (by decide)) ?_
    | refine Keeps.ite ?_ ?_

theorem keeps_execDeviceReset {Kp : List Part} {K0 s : State} {aon : Bool} (hKp : [.reg, .keys, .dict, .conf, .log, .cal, .life, .lanes, .pool, .teams, .segs, .alert, .core, .host, .mem, .cache, .pair, .work, .power, .fw, .island, .sup, .ports] ⊆ Kp) (hK : Keeps Kp K0 s) :
    KeepsO Kp K0 (execDeviceReset aon s) := by
  unfold execDeviceReset
  with_reducible repeat' first
    | assumption
    | refine KeepsO.next ?_
    | refine KeepsO.ite ?_ ?_
    | refine keeps_aonFail (subP hKp (by decide)) ?_
    | refine keeps_deviceReset (subP hKp (by decide)) ?_
    | refine keeps_loseHealth (subP hKp (by decide)) ?_
    | refine Keeps.ite ?_ ?_
    | exact .inl rfl
    | exact .inr (memP hKp (by decide))
    | exact id
    | apply Keeps.upd

theorem keeps_bootCmb {Kp : List Part} {K0 s : State}  (hKp : [.mem] ⊆ Kp) (hK : Keeps Kp K0 s) :
    Keeps Kp K0 (bootCmb s) := by
  unfold bootCmb
  with_reducible repeat' first
    | assumption
    | refine Keeps.ite ?_ ?_
    | exact .inl rfl
    | exact .inr (memP hKp (by decide))
    | exact id
    | exact wf_of rfl rfl
    | exact fun h => memStore_wf h
    | exact fun h => memUpset_wf h
    | exact fun h => fillHost_wf h
    | exact fun _ => wf_nil (by unfold fillAll; rfl)
    | apply Keeps.upd

theorem keeps_trainMemory {Kp : List Part} {K0 s : State} {l : List DdrSeen} (hKp : [.mem] ⊆ Kp) (hK : Keeps Kp K0 s) :
    Keeps Kp K0 (trainMemory l s) := by
  unfold trainMemory
  with_reducible repeat' first
    | assumption
    | exact .inl rfl
    | exact .inr (memP hKp (by decide))
    | exact id
    | exact wf_of rfl rfl
    | exact fun h => memStore_wf h
    | exact fun h => memUpset_wf h
    | exact fun h => fillHost_wf h
    | exact fun _ => wf_nil (by unfold fillAll; rfl)
    | apply Keeps.upd

theorem keeps_bootMemory {Kp : List Part} {K0 s : State} {l : List DdrSeen} (hKp : [.sent, .dict, .log, .life, .alert, .mem] ⊆ Kp)
    (hK : Keeps Kp K0 s) : Keeps Kp K0 (bootMemory l s) := by
  unfold bootMemory
  have k0 : Keeps Kp K0 (bootCmb s) := keeps_bootCmb (subP hKp (by decide)) hK
  have k1 : Keeps Kp K0 ((chansSeen l).1.2.elim (bootCmb s) (fun k => raise 0x3007 [.u8 0, .u8 k] (bootCmb s))) :=
    .elim k0 fun _ => keeps_raise (subP hKp (by decide)) k0
  exact .elim k1 fun _ => keeps_raise (subP hKp (by decide)) k1

theorem keeps_bootSlots {Kp : List Part} {K0 s : State} {r : Fin 2} {fell : Bool} (hKp : [.fw] ⊆ Kp) (hK : Keeps Kp K0 s) :
    Keeps Kp K0 (bootSlots r fell s) := by
  unfold bootSlots
  with_reducible repeat' first
    | assumption
    | refine keeps_measureImage (subP hKp (by decide)) ?_
    | refine keeps_dirUpdate (subP hKp (by decide)) ?_
    | refine Keeps.ite ?_ ?_
    | exact .inl rfl
    | exact .inr (memP hKp (by decide))
    | exact id
    | apply Keeps.upd

theorem keeps_bootCause {Kp : List Part} {K0 s : State}  (hKp : [.free, .fw] ⊆ Kp) (hK : Keeps Kp K0 s) :
    Keeps Kp K0 (bootCause s) := by
  unfold bootCause
  with_reducible repeat' first
    | assumption
    | refine keeps_draw (subP hKp (by decide)) ?_
    | refine Keeps.ite ?_ ?_
    | exact .inl rfl
    | exact .inr (memP hKp (by decide))
    | exact id
    | refine Keeps.snd (by assumption) ?_
    | split
    | apply Keeps.upd

theorem keeps_bootEvents {Kp : List Part} {K0 s : State} {fell : Option Nat} (hKp : [.sent, .dict, .log, .life, .alert] ⊆ Kp) (hK : Keeps Kp K0 s) :
    Keeps Kp K0 (bootEvents fell s) := by
  unfold bootEvents
  with_reducible repeat' first
    | assumption
    | refine Keeps.elim ?_ (fun _ => ?_)
    | refine keeps_raise (subP hKp (by decide)) ?_
    | refine Keeps.ite ?_ ?_

theorem keeps_measureConfig {Kp : List Part} {K0 s : State}  (hKp : [.fw] ⊆ Kp) (hK : Keeps Kp K0 s) :
    Keeps Kp K0 (measureConfig s) := by
  unfold measureConfig
  with_reducible repeat' first
    | assumption
    | refine Keeps.ite ?_ ?_
    | exact .inl rfl
    | exact .inr (memP hKp (by decide))
    | exact id
    | split
    | apply Keeps.upd

theorem keeps_bootRun {Kp : List Part} {K0 s : State} {r : Fin 2} {fell : Bool} {ddr : List DdrSeen} (hKp : [.free, .sent, .reg, .keys, .dict, .conf, .log, .cal, .life, .lanes, .teams, .alert, .host, .mem, .pair, .power, .fw, .island] ⊆ Kp)
    (hK : Keeps Kp K0 s) : Keeps Kp K0 (bootRun r fell ddr s) := by
  unfold bootRun
  extract_lets s1 s2 s3
  have k1 : Keeps Kp K0 s1 := keeps_bootCause (subP hKp (by decide)) (keeps_bootSlots (subP hKp (by decide)) hK)
  clear_value s1
  have k2 : Keeps Kp K0 s2 := keeps_measureConfig (subP hKp (by decide)) (keeps_startDictionary (subP hKp (by decide))
    (keeps_startLifetime (subP hKp (by decide)) (keeps_trainMemory (subP hKp (by decide)) k1)))
  clear_value s2
  have k3 : Keeps Kp K0 s3 := .foldl _ _ _ (fun _ _ h => keeps_evaluateTeam (subP hKp (by decide)) h)
    (keeps_bootEvents (subP hKp (by decide)) (keeps_bootMemory (subP hKp (by decide))
      (.foldl _ _ _ (fun _ _ h => keeps_startTable (subP hKp (by decide)) h) k2)))
  clear_value s3
  with_reducible apply Keeps.upd k3
  all_goals with_reducible first
    | exact .inl rfl
    | exact .inr (memP hKp (by decide))
    | exact id

theorem keeps_bootRom {Kp : List Part} {K0 s : State} {ddr : List DdrSeen} (hKp : [.free, .sent, .reg, .keys, .dict, .conf, .log, .cal, .life, .lanes, .teams, .alert, .host, .mem, .pair, .power, .fw, .island, .sup] ⊆ Kp) (hK : Keeps Kp K0 s) :
    Keeps Kp K0 (bootRom ddr s) := by
  unfold bootRom
  with_reducible repeat' first
    | assumption
    | refine keeps_bootRun (subP hKp (by decide)) ?_
    | refine Keeps.ite ?_ ?_
    | exact .inl rfl
    | exact .inr (memP hKp (by decide))
    | exact id
    | split
    | apply Keeps.upd

theorem keeps_execBootRom {Kp : List Part} {K0 s : State} {ddr : List DdrSeen} (hKp : [.free, .sent, .reg, .keys, .dict, .conf, .log, .cal, .life, .lanes, .teams, .alert, .host, .mem, .pair, .power, .fw, .island, .sup] ⊆ Kp) (hK : Keeps Kp K0 s) :
    KeepsO Kp K0 (execBootRom ddr s) := by
  unfold execBootRom
  with_reducible repeat' first
    | assumption
    | refine KeepsO.next ?_
    | refine keeps_bootRom (subP hKp (by decide)) ?_

theorem keeps_powerReturns {Kp : List Part} {K0 s : State}  (hKp : [.cal, .pair, .island, .sup] ⊆ Kp) (hK : Keeps Kp K0 s) :
    Keeps Kp K0 (powerReturns s) := by
  unfold powerReturns
  with_reducible repeat' first
    | assumption
    | refine Keeps.ite ?_ ?_
    | exact .inl rfl
    | exact .inr (memP hKp (by decide))
    | exact id
    | apply Keeps.upd

theorem keeps_powerGoodSeen {Kp : List Part} {K0 s : State} {group : Nat} (hKp : [.sup] ⊆ Kp) (hK : Keeps Kp K0 s) :
    Keeps Kp K0 (powerGoodSeen group s) := by
  unfold powerGoodSeen
  with_reducible repeat' first
    | assumption
    | refine Keeps.ite ?_ ?_
    | exact .inl rfl
    | exact .inr (memP hKp (by decide))
    | exact id
    | split
    | apply Keeps.upd

theorem keeps_execPowerUpStep {Kp : List Part} {K0 s : State} {group : Fin 5} (hKp : [.cal, .pair, .island, .sup] ⊆ Kp) (hK : Keeps Kp K0 s) :
    KeepsO Kp K0 (execPowerUpStep group s) := by
  unfold execPowerUpStep
  with_reducible repeat' first
    | assumption
    | refine KeepsO.next ?_
    | refine KeepsO.ite ?_ ?_
    | refine keeps_powerReturns (subP hKp (by decide)) ?_
    | refine keeps_powerGoodSeen (subP hKp (by decide)) ?_
    | refine Keeps.ite ?_ ?_

theorem keeps_keepRail {Kp : List Part} {K0 s : State} {rail : Nat} (hKp : [.island] ⊆ Kp) (hK : Keeps Kp K0 s) :
    Keeps Kp K0 (keepRail rail s) := by
  unfold keepRail
  with_reducible repeat' first
    | assumption
    | exact .inl rfl
    | exact .inr (memP hKp (by decide))
    | exact id
    | apply Keeps.upd

theorem keeps_execPowerUpTimeout {Kp : List Part} {K0 s : State}  (hKp : [.island, .sup] ⊆ Kp) (hK : Keeps Kp K0 s) :
    KeepsO Kp K0 (execPowerUpTimeout s) := by
  unfold execPowerUpTimeout
  with_reducible repeat' first
    | assumption
    | refine KeepsO.next ?_
    | refine KeepsO.ite ?_ ?_
    | refine keeps_keepRail (subP hKp (by decide)) ?_
    | refine Keeps.ite ?_ ?_
    | exact .inl rfl
    | exact .inr (memP hKp (by decide))
    | exact id
    | split
    | apply Keeps.upd

theorem keeps_execPowerUpRetry {Kp : List Part} {K0 s : State}  (hKp : [.sup] ⊆ Kp) (hK : Keeps Kp K0 s) :
    KeepsO Kp K0 (execPowerUpRetry s) := by
  unfold execPowerUpRetry
  with_reducible repeat' first
    | assumption
    | refine KeepsO.next ?_
    | refine KeepsO.ite ?_ ?_
    | refine Keeps.ite ?_ ?_
    | exact .inl rfl
    | exact .inr (memP hKp (by decide))
    | exact id
    | apply Keeps.upd

theorem keeps_execPowerDownStep {Kp : List Part} {K0 s : State} {pgFell : Bool} (hKp : [.sent, .reg, .dict, .log, .life, .lanes, .teams, .alert, .host, .pair, .work, .power, .sup] ⊆ Kp) (hK : Keeps Kp K0 s) :
    KeepsO Kp K0 (execPowerDownStep pgFell s) := by
  unfold execPowerDownStep
  with_reducible repeat' first
    | assumption
    | refine KeepsO.next ?_
    | refine KeepsO.ite ?_ ?_
    | refine keeps_lowerFrom (subP hKp (by decide)) ?_
    | refine keeps_sleepReached (subP hKp (by decide)) ?_
    | refine Keeps.ite ?_ ?_
    | exact .inl rfl
    | exact .inr (memP hKp (by decide))
    | exact id
    | split
    | apply Keeps.upd

theorem keeps_supplyFault {Kp : List Part} {K0 s : State} {rail : Nat} (hKp : [.pair, .island, .sup] ⊆ Kp) (hK : Keeps Kp K0 s) :
    Keeps Kp K0 (supplyFault rail s) := by
  unfold supplyFault
  with_reducible repeat' first
    | assumption
    | refine keeps_keepRail (subP hKp (by decide)) ?_
    | refine keeps_loseHealth (subP hKp (by decide)) ?_
    | exact .inl rfl
    | exact .inr (memP hKp (by decide))
    | exact id
    | apply Keeps.upd

theorem keeps_execSupplyCheck {Kp : List Part} {K0 s : State} {mv : List Nat} (hKp : [.pair, .island, .sup] ⊆ Kp)
    (hK : Keeps Kp K0 s) : KeepsO Kp K0 (execSupplyCheck mv s) := by
  have up {x : Supply} : Keeps Kp K0 { s with sup := x } := by
    with_reducible apply Keeps.upd hK
    all_goals with_reducible first
      | exact .inl rfl
      | exact .inr (memP hKp (by decide))
      | exact id
  unfold execSupplyCheck
  extract_lets out bad p s1
  have k : Keeps Kp K0 s1 := up
  clear_value s1
  exact KeepsO.ite (KeepsO.next k) (KeepsO.next (.elim k fun _ => keeps_supplyFault (subP hKp (by decide)) k))

theorem keeps_execPmicPgFall {Kp : List Part} {K0 s : State} {group : Fin 4} (hKp : [.pair, .island, .sup] ⊆ Kp) (hK : Keeps Kp K0 s) :
    KeepsO Kp K0 (execPmicPgFall group s) := by
  unfold execPmicPgFall
  with_reducible repeat' first
    | assumption
    | refine KeepsO.next ?_
    | refine KeepsO.ite ?_ ?_
    | refine keeps_supplyFault (subP hKp (by decide)) ?_
    | refine Keeps.ite ?_ ?_
    | exact .inl rfl
    | exact .inr (memP hKp (by decide))
    | exact id
    | apply Keeps.upd

theorem keeps_execReferenceClockLost {Kp : List Part} {K0 s : State} {clk : PortId} (hKp : [.pair, .sup] ⊆ Kp) (hK : Keeps Kp K0 s) :
    KeepsO Kp K0 (execReferenceClockLost clk s) := by
  unfold execReferenceClockLost
  with_reducible repeat' first
    | assumption
    | refine KeepsO.next ?_
    | exact .inl rfl
    | exact .inr (memP hKp (by decide))
    | exact id
    | apply Keeps.upd

theorem keeps_compositeChange {Kp : List Part} {K0 s : State} {temps : List Int} (hKp : [.sent, .host, .sup] ⊆ Kp) (hK : Keeps Kp K0 s) :
    Keeps Kp K0 (compositeChange temps s) := by
  unfold compositeChange
  with_reducible repeat' first
    | assumption
    | refine keeps_warningCheck (subP hKp (by decide)) ?_
    | exact .inl rfl
    | exact .inr (memP hKp (by decide))
    | exact id
    | apply Keeps.upd

theorem keeps_execCompositeTemperatureChange {Kp : List Part} {K0 s : State} {temps : List Int} (hKp : [.sent, .host, .sup] ⊆ Kp) (hK : Keeps Kp K0 s) :
    KeepsO Kp K0 (execCompositeTemperatureChange temps s) := by
  unfold execCompositeTemperatureChange
  with_reducible repeat' first
    | assumption
    | refine KeepsO.next ?_
    | refine keeps_compositeChange (subP hKp (by decide)) ?_

theorem keeps_execThermalTrip {Kp : List Part} {K0 s : State} {die : Fin 5} {temp : Int} (hKp : [.sent, .dict, .log, .life, .alert, .host, .sup] ⊆ Kp) (hK : Keeps Kp K0 s) :
    KeepsO Kp K0 (execThermalTrip die temp s) := by
  unfold execThermalTrip
  with_reducible repeat' first
    | assumption
    | refine KeepsO.next ?_
    | refine KeepsO.ite ?_ ?_
    | refine keeps_compositeChange (subP hKp (by decide)) ?_
    | refine keeps_lowerFrom (subP hKp (by decide)) ?_
    | refine keeps_raise (subP hKp (by decide)) ?_
    | refine Keeps.ite ?_ ?_
    | exact .inl rfl
    | exact .inr (memP hKp (by decide))
    | exact id
    | apply Keeps.upd

end Sys2Proof.Machine
end

