-- ==== Sys2Proof/Laws/KeepsPorts.lean ====
section
/-! SUPPORT. What the operations of Ports.lean keep. -/

namespace Sys2Proof.Machine

set_option linter.unusedTactic false
set_option linter.unreachableTactic false
set_option linter.unusedVariables false

theorem keeps_linkFault {Kp : List Part} {K0 s : State} {n : LaneId} {laser : Bool} {cause : Nat} (hKp : [.sent, .reg, .lanes, .ports] ⊆ Kp) (hK : Keeps Kp K0 s) :
    Keeps Kp K0 (linkFault n laser cause s) := by
  unfold linkFault
  with_reducible repeat' first
    | assumption
    | refine keeps_detectCode (subP hKp (by decide)) ?_
    | refine keeps_setLinks (subP hKp (by decide)) ?_
    | refine Keeps.ite ?_ ?_

theorem keeps_judgeStatus {Kp : List Part} {K0 s : State} {n : LaneId} {laser : Bool} {trained : Bool} {old : Nat} {new : Nat} (hKp : [.sent, .reg, .dict, .log, .life, .lanes, .alert, .ports] ⊆ Kp) (hK : Keeps Kp K0 s) :
    Keeps Kp K0 (judgeStatus n laser trained old new s) := by
  unfold judgeStatus
  with_reducible repeat' first
    | assumption
    | refine keeps_linkFault (subP hKp (by decide)) ?_
    | refine keeps_raise (subP hKp (by decide)) ?_
    | refine Keeps.ite ?_ ?_

theorem keeps_driveStatus {Kp : List Part} {K0 s : State} {n : LaneId} {payload : Bytes} {crc : Nat} (hKp : [.sent, .reg, .dict, .log, .life, .lanes, .alert, .ports] ⊆ Kp) (hK : Keeps Kp K0 s) :
    Keeps Kp K0 (driveStatus n payload crc s) := by
  unfold driveStatus
  with_reducible repeat' first
    | assumption
    | refine keeps_lbump (subP hKp (by decide)) ?_
    | refine keeps_setLinks (subP hKp (by decide)) ?_
    | refine keeps_judgeStatus (subP hKp (by decide)) ?_
    | refine Keeps.ite ?_ ?_

theorem keeps_execDriveStatus {Kp : List Part} {K0 s : State} {n : LaneId} {payload : Bytes} {crc : Nat} (hKp : [.sent, .reg, .dict, .log, .life, .lanes, .alert, .ports] ⊆ Kp) (hK : Keeps Kp K0 s) :
    KeepsO Kp K0 (execDriveStatus n payload crc s) := by
  unfold execDriveStatus
  with_reducible repeat' first
    | assumption
    | refine KeepsO.next ?_
    | refine keeps_driveStatus (subP hKp (by decide)) ?_

theorem keeps_execDriveStatusTimeout {Kp : List Part} {K0 s : State} {n : LaneId} (hKp : [.sent, .reg, .lanes, .ports] ⊆ Kp) (hK : Keeps Kp K0 s) :
    KeepsO Kp K0 (execDriveStatusTimeout n s) := by
  unfold execDriveStatusTimeout
  with_reducible repeat' first
    | assumption
    | refine KeepsO.next ?_
    | refine KeepsO.ite ?_ ?_
    | refine keeps_linkFault (subP hKp (by decide)) ?_
    | refine Keeps.ite ?_ ?_

theorem keeps_laserStatus {Kp : List Part} {K0 s : State} {n : LaneId} {payload : Bytes} {crc : Nat} (hKp : [.sent, .reg, .dict, .log, .life, .lanes, .alert, .ports] ⊆ Kp) (hK : Keeps Kp K0 s) :
    Keeps Kp K0 (laserStatus n payload crc s) := by
  unfold laserStatus
  with_reducible repeat' first
    | assumption
    | refine keeps_lbump (subP hKp (by decide)) ?_
    | refine keeps_setLinks (subP hKp (by decide)) ?_
    | refine keeps_judgeStatus (subP hKp (by decide)) ?_
    | refine Keeps.ite ?_ ?_

theorem keeps_execLaserStatus {Kp : List Part} {K0 s : State} {n : LaneId} {payload : Bytes} {crc : Nat} (hKp : [.sent, .reg, .dict, .log, .life, .lanes, .alert, .ports] ⊆ Kp) (hK : Keeps Kp K0 s) :
    KeepsO Kp K0 (execLaserStatus n payload crc s) := by
  unfold execLaserStatus
  with_reducible repeat' first
    | assumption
    | refine KeepsO.next ?_
    | refine keeps_laserStatus (subP hKp (by decide)) ?_

theorem keeps_execLaserStatusTimeout {Kp : List Part} {K0 s : State} {n : LaneId} (hKp : [.sent, .reg, .lanes, .ports] ⊆ Kp) (hK : Keeps Kp K0 s) :
    KeepsO Kp K0 (execLaserStatusTimeout n s) := by
  unfold execLaserStatusTimeout
  with_reducible repeat' first
    | assumption
    | refine KeepsO.next ?_
    | refine KeepsO.ite ?_ ?_
    | refine keeps_linkFault (subP hKp (by decide)) ?_
    | refine Keeps.ite ?_ ?_

theorem keeps_sidebandRetry {Kp : List Part} {K0 s : State} {n : LaneId} {acked : Bool} (hKp : [.sent, .reg, .dict, .log, .life, .lanes, .alert, .ports] ⊆ Kp) (hK : Keeps Kp K0 s) :
    Keeps Kp K0 (sidebandRetry n acked s) := by
  unfold sidebandRetry
  with_reducible repeat' first
    | assumption
    | refine keeps_setLinks (subP hKp (by decide)) ?_
    | refine keeps_lbump (subP hKp (by decide)) ?_
    | refine keeps_detectCode (subP hKp (by decide)) ?_
    | refine keeps_raise (subP hKp (by decide)) ?_
    | refine keeps_setLife (subP hKp (by decide)) ?_
    | refine Keeps.ite ?_ ?_

theorem keeps_execSidebandRetry {Kp : List Part} {K0 s : State} {n : LaneId} {acked : Bool} (hKp : [.sent, .reg, .dict, .log, .life, .lanes, .alert, .ports] ⊆ Kp) (hK : Keeps Kp K0 s) :
    KeepsO Kp K0 (execSidebandRetry n acked s) := by
  unfold execSidebandRetry
  with_reducible repeat' first
    | assumption
    | refine KeepsO.next ?_
    | refine keeps_sidebandRetry (subP hKp (by decide)) ?_

theorem keeps_execMdioPoll {Kp : List Part} {K0 s : State} {port : PortId} {up : Bool} (hKp : [.ports] ⊆ Kp) (hK : Keeps Kp K0 s) :
    KeepsO Kp K0 (execMdioPoll port up s) := by
  unfold execMdioPoll
  with_reducible repeat' first
    | assumption
    | refine KeepsO.next ?_
    | exact .inl rfl
    | exact .inr (memP hKp (by decide))
    | exact id
    | apply Keeps.upd

theorem keeps_execPcieLinkTrained {Kp : List Part} {K0 s : State} {port : PortId} {speed : Nat} {width : Nat} (hKp : [.host] ⊆ Kp) (hK : Keeps Kp K0 s) :
    KeepsO Kp K0 (execPcieLinkTrained port speed width s) := by
  unfold execPcieLinkTrained
  with_reducible repeat' first
    | assumption
    | refine KeepsO.next ?_
    | refine keeps_setCtrl (subP hKp (by decide)) ?_

theorem keeps_jtagInstruction {Kp : List Part} {K0 s : State} {ir : Nat} {tdi : List Bool} (hKp : [.free, .ports] ⊆ Kp) (hK : Keeps Kp K0 s) :
    Keeps Kp K0 (jtagInstruction ir tdi s) := by
  unfold jtagInstruction
  with_reducible repeat' first
    | assumption
    | refine keeps_drawBytes (subP hKp (by decide)) ?_
    | refine Keeps.ite ?_ ?_
    | exact .inl rfl
    | exact .inr (memP hKp (by decide))
    | exact id
    | refine Keeps.snd (by assumption) ?_
    | split
    | apply Keeps.upd

theorem keeps_execJtagInstruction {Kp : List Part} {K0 s : State} {ir : Nat} {tdi : List Bool} (hKp : [.free, .ports] ⊆ Kp) (hK : Keeps Kp K0 s) :
    KeepsO Kp K0 (execJtagInstruction ir tdi s) := by
  unfold execJtagInstruction
  with_reducible repeat' first
    | assumption
    | refine KeepsO.next ?_
    | refine keeps_jtagInstruction (subP hKp (by decide)) ?_

theorem keeps_neighbourDiscovery {Kp : List Part} {K0 s : State} {port : PortId} {addr : Bytes} {msg : Bytes} (hKp : [.sent, .ports] ⊆ Kp) (hK : Keeps Kp K0 s) :
    Keeps Kp K0 (neighbourDiscovery port addr msg s) := by
  unfold neighbourDiscovery
  with_reducible repeat' first
    | assumption
    | refine keeps_send (subP hKp (by decide)) ?_
    | refine Keeps.ite ?_ ?_
    | exact .inl rfl
    | exact .inr (memP hKp (by decide))
    | exact id
    | apply Keeps.upd

theorem keeps_execNeighbourDiscovery {Kp : List Part} {K0 s : State} {port : PortId} {addr : Bytes} {msg : Bytes} (hKp : [.sent, .ports] ⊆ Kp) (hK : Keeps Kp K0 s) :
    KeepsO Kp K0 (execNeighbourDiscovery port addr msg s) := by
  unfold execNeighbourDiscovery
  with_reducible repeat' first
    | assumption
    | refine KeepsO.next ?_
    | refine keeps_neighbourDiscovery (subP hKp (by decide)) ?_

end Sys2Proof.Machine
end

