-- ==== Sys2Proof/Laws/KeepsServer.lean ====
section
/-! SUPPORT. What the operations of Server.lean keep. -/

namespace Sys2Proof.Machine

set_option linter.unusedTactic false
set_option linter.unreachableTactic false
set_option linter.unusedVariables false

theorem keepsE_activateEffect {Kp : List Part} {K0 s : State} {peerHolds : Bool} (hKp : [.sent, .dict, .log, .life, .alert, .pair, .work, .fw] ⊆ Kp) (hK : Keeps Kp K0 s) :
    KeepsE Kp K0 (activateEffect peerHolds s).1 := by
  unfold activateEffect
  split
  · exact KeepsE.error
  · exact KeepsE.ok (keeps_actBegin (subP hKp (by decide)) hK)

theorem keeps_closeSession {Kp : List Part} {K0 s : State} {slot : Fin 8} (hKp : [.dict] ⊆ Kp) (hK : Keeps Kp K0 s) :
    Keeps Kp K0 (closeSession slot s) := by
  unfold closeSession
  split
  · exact hK
  · with_reducible apply Keeps.upd hK
    case hd => exact dict_set rfl (fun _ _ h => by injection h)
    all_goals with_reducible first
      | exact .inl rfl
      | exact .inr (memP hKp (by decide))
      | exact id

theorem keeps_closeKey {Kp : List Part} {K0 s : State} {k : Nat} (hKp : [.dict] ⊆ Kp) (hK : Keeps Kp K0 s) :
    Keeps Kp K0 (closeKey k s) := by
  unfold closeKey
  with_reducible repeat' first
    | assumption
    | refine keeps_closeSession (subP hKp (by decide)) ?_
    | refine Keeps.fold2 _ _ _ (fun _ _ _ => ?_) ?_
    | refine Keeps.foldl _ _ _ (fun _ _ _ => ?_) ?_
    | refine Keeps.ite ?_ ?_

theorem keeps_restoreEffect {Kp : List Part} {K0 s : State}  (hKp : [.sent, .reg, .lanes, .cache] ⊆ Kp) (hK : Keeps Kp K0 s) :
    Keeps Kp K0 (restoreEffect s) := by
  unfold restoreEffect
  with_reducible repeat' first
    | assumption
    | refine keeps_restoreDefaults (subP hKp (by decide)) ?_
    | refine keeps_leaveOff (subP hKp (by decide)) ?_
    | refine keeps_loadTable (subP hKp (by decide)) ?_
    | refine keeps_setCache (subP hKp (by decide)) ?_
    | refine Keeps.fold2 _ _ _ (fun _ _ _ => ?_) ?_
    | refine Keeps.foldl _ _ _ (fun _ _ _ => ?_) ?_
    | refine Keeps.ite ?_ ?_

theorem keeps_applyLane {Kp : List Part} {K0 s : State} {n : LaneId} {off : Nat} {sub : Nat} {v : Bytes} (hKp : [.sent, .reg, .dict, .log, .life, .lanes, .teams, .alert, .host, .ports] ⊆ Kp) (hK : Keeps Kp K0 s) :
    KeepsE Kp K0 (applyLane n off sub v s) := by
  unfold applyLane
  with_reducible repeat' first
    | assumption
    | refine KeepsE.ok ?_
    | exact KeepsE.error
    | refine KeepsE.ite ?_ ?_
    | refine KeepsE.map ?_ (fun _ _ => ?_)
    | refine keeps_store (subP hKp (by decide)) ?_
    | refine keeps_laneEnableEffect (subP hKp (by decide)) ?_
    | refine keeps_laneModeEffect (subP hKp (by decide)) ?_
    | refine keeps_laneResetEffect (subP hKp (by decide)) ?_
    | refine keeps_trimEffect (subP hKp (by decide)) ?_
    | refine keeps_restoreTapsEffect (subP hKp (by decide)) ?_
    | refine keeps_captureArmEffect (subP hKp (by decide)) ?_
    | refine keeps_clearDefectsEffect (subP hKp (by decide)) ?_
    | refine keeps_startLearningEffect (subP hKp (by decide)) ?_
    | refine keeps_postOrder (subP hKp (by decide)) ?_
    | refine keeps_sledStop (subP hKp (by decide)) ?_
    | refine keeps_loadTable (subP hKp (by decide)) ?_
    | refine keeps_unstore (subP hKp (by decide)) ?_
    | refine keeps_sourceWritten (subP hKp (by decide)) ?_
    | refine keeps_startWarmEffect (subP hKp (by decide)) ?_
    | refine keeps_trimRestoreEffect (subP hKp (by decide)) ?_
    | refine Keeps.ite ?_ ?_

theorem keeps_applyShadow {Kp : List Part} {K0 s : State} {n : LaneId} {obs : Bool} {v : Bytes} (hKp : [.lanes] ⊆ Kp) (hK : Keeps Kp K0 s) :
    KeepsE Kp K0 (applyShadow n obs v s) := by
  unfold applyShadow
  with_reducible repeat' first
    | assumption
    | refine KeepsE.ok ?_
    | exact KeepsE.error
    | refine KeepsE.ite ?_ ?_
    | refine keeps_setLane (subP hKp (by decide)) ?_
    | refine Keeps.ite ?_ ?_

theorem keeps_applyLibrary {Kp : List Part} {K0 s : State} {slot : Nat} {sub : Nat} {v : Bytes} (hKp : [.reg, .lanes] ⊆ Kp) (hK : Keeps Kp K0 s) :
    KeepsE Kp K0 (applyLibrary slot sub v s) := by
  unfold applyLibrary
  with_reducible repeat' first
    | assumption
    | refine KeepsE.ok ?_
    | exact KeepsE.error
    | refine KeepsE.ite ?_ ?_
    | refine keeps_store (subP hKp (by decide)) ?_
    | refine keeps_refreshReferences (subP hKp (by decide)) ?_
    | refine Keeps.ite ?_ ?_

theorem keeps_applySwitch {Kp : List Part} {K0 s : State} {obs : Bool} {v : Bytes} (hKp : [.lanes] ⊆ Kp) (hK : Keeps Kp K0 s) :
    KeepsE Kp K0 (applySwitch obs v s) := by
  unfold applySwitch
  with_reducible repeat' first
    | assumption
    | refine KeepsE.ok ?_
    | exact KeepsE.error
    | refine KeepsE.ite ?_ ?_
    | refine keeps_requestSwitch (subP hKp (by decide)) ?_
    | refine Keeps.ite ?_ ?_

theorem keeps_applyEngine {Kp : List Part} {K0 s : State} {index : Nat} {sub : Nat} {v : Bytes} (hKp : [.reg, .lanes] ⊆ Kp) (hK : Keeps Kp K0 s) :
    KeepsE Kp K0 (applyEngine index sub v s) := by
  unfold applyEngine
  with_reducible repeat' first
    | assumption
    | refine KeepsE.ok ?_
    | refine KeepsE.ite ?_ ?_
    | refine keeps_applySwitch (subP hKp (by decide)) ?_
    | refine keeps_applyShadow (subP hKp (by decide)) ?_
    | refine keeps_applyLibrary (subP hKp (by decide)) ?_
    | refine keeps_store (subP hKp (by decide)) ?_
    | refine Keeps.ite ?_ ?_

theorem keeps_applyUnit {Kp : List Part} {K0 s : State} {reply : Reply} {ph : Bool} {index : Nat} {sub : Nat} {v : Bytes} (hKp : [.sent, .reg, .keys, .dict, .conf, .log, .cal, .life, .lanes, .teams, .segs, .alert, .host, .mem, .cache, .pair, .work, .power, .fw, .sup] ⊆ Kp) (hK : Keeps Kp K0 s) :
    KeepsE Kp K0 (applyUnit reply ph index sub v s) := by
  unfold applyUnit
  with_reducible repeat' first
    | assumption
    | refine KeepsE.ok ?_
    | refine KeepsE.ite ?_ ?_
    | refine KeepsE.map ?_ (fun _ _ => ?_)
    | refine keepsE_activateEffect (subP hKp (by decide)) ?_
    | refine keeps_store (subP hKp (by decide)) ?_
    | refine keeps_closeKey (subP hKp (by decide)) ?_
    | refine keeps_putKey (subP hKp (by decide)) ?_
    | refine keeps_startSave (subP hKp (by decide)) ?_
    | refine keeps_restoreEffect (subP hKp (by decide)) ?_
    | refine keeps_startDrillEffect (subP hKp (by decide)) ?_
    | refine keeps_unitStateEffect (subP hKp (by decide)) ?_
    | refine keeps_capLanes (subP hKp (by decide)) ?_
    | refine keeps_setSeg (subP hKp (by decide)) ?_
    | refine keeps_scrubModeEffect (subP hKp (by decide)) ?_
    | refine keeps_startPassEffect (subP hKp (by decide)) ?_
    | refine keeps_endPassWith (subP hKp (by decide)) ?_
    | refine keeps_wayModeEffect (subP hKp (by decide)) ?_
    | refine keeps_maintEffect (subP hKp (by decide)) ?_
    | refine keeps_setCause (subP hKp (by decide)) ?_
    | refine keeps_commitTrialEffect (subP hKp (by decide)) ?_
    | refine keeps_openDownloadEffect (subP hKp (by decide)) ?_
    | refine keeps_chunkEffect (subP hKp (by decide)) ?_
    | refine keeps_abandonEffect (subP hKp (by decide)) ?_
    | refine keeps_activateEffect (subP hKp (by decide)) ?_
    | refine keeps_setCalendarEffect (subP hKp (by decide)) ?_
    | refine keeps_setPpsEffect (subP hKp (by decide)) ?_
    | refine keeps_createVolumeEffect (subP hKp (by decide)) ?_
    | refine Keeps.ite ?_ ?_
    | exact .inl rfl
    | exact .inr (memP hKp (by decide))
    | exact id
    | refine Keeps.snd (by assumption) ?_
    | apply Keeps.upd

theorem keeps_applyWrite {Kp : List Part} {K0 s : State} {reply : Reply} {ph : Bool} {p : Put} (hKp : [.sent, .reg, .keys, .dict, .conf, .log, .cal, .life, .lanes, .teams, .segs, .alert, .host, .mem, .cache, .pair, .work, .power, .fw, .sup, .ports] ⊆ Kp) (hK : Keeps Kp K0 s) :
    KeepsE Kp K0 (applyWrite reply ph p s) := by
  unfold applyWrite
  with_reducible repeat' first
    | assumption
    | refine KeepsE.ok ?_
    | refine KeepsE.ite ?_ ?_
    | refine keeps_applyLane (subP hKp (by decide)) ?_
    | refine keeps_applyEngine (subP hKp (by decide)) ?_
    | refine keeps_applyUnit (subP hKp (by decide)) ?_
    | refine Keeps.ite ?_ ?_

theorem keeps_asWritten {Kp : List Part} {K0 s : State} {ph : Bool} {p : Put} (hKp : [.sent, .reg, .keys, .dict, .conf, .log, .cal, .life, .lanes, .teams, .segs, .alert, .host, .mem, .cache, .pair, .work, .power, .fw, .sup, .ports] ⊆ Kp) (hK : Keeps Kp K0 s) :
    Keeps Kp K0 (asWritten ph p s) := by
  unfold asWritten
  with_reducible repeat' first
    | assumption
    | refine KeepsE.of (by assumption) ?_
    | refine keeps_store (subP hKp (by decide)) ?_
    | refine keeps_applyWrite (subP hKp (by decide)) ?_
    | split

theorem keeps_applyPuts {Kp : List Part} {K0 s : State} {who : Who} {reply : Reply} {ph : Bool} {l : List Put} {k : Nat} (hKp : [.sent, .reg, .keys, .dict, .conf, .log, .cal, .life, .lanes, .teams, .segs, .alert, .host, .mem, .cache, .pair, .work, .power, .fw, .sup, .ports] ⊆ Kp)
    (hK : Keeps Kp K0 s) : KeepsE Kp K0 (applyPuts who reply ph l k s) := by
  induction l generalizing k s with
  | nil => exact KeepsE.ok hK
  | cons p l ih =>
    unfold applyPuts
    split
    · exact KeepsE.error
    · rename_i h
      have k1 := KeepsE.of h (keeps_applyWrite (subP hKp (by decide)) hK)
      exact ih (.ite k1 (keeps_countChange (subP hKp (by decide)) k1))

theorem keeps_settleTeams {Kp : List Part} {K0 s : State} {l : List Put} (hKp : [.sent, .dict, .log, .life, .teams, .alert, .host] ⊆ Kp) (hK : Keeps Kp K0 s) :
    Keeps Kp K0 (settleTeams l s) := by
  unfold settleTeams
  with_reducible repeat' first
    | assumption
    | refine keeps_evaluateTeam (subP hKp (by decide)) ?_
    | refine Keeps.fold2 _ _ _ (fun _ _ _ => ?_) ?_
    | refine Keeps.foldl _ _ _ (fun _ _ _ => ?_) ?_
    | refine Keeps.ite ?_ ?_

/-- The state that an answer given at once, or later, leaves. -/
theorem Keeps.now {p : List Part} {s0 t : State} {o : Outcome} {k pos : Nat} (q : o = .now k pos t) (h : Keeps p s0 o.state) :
    Keeps p s0 t := by subst q; exact h

theorem Keeps.later {p : List Part} {s0 t : State} {o : Outcome} (q : o = .later t) (h : Keeps p s0 o.state) : Keeps p s0 t := by
  subst q; exact h

theorem keeps_shareConfig {Kp : List Part} {K0 s : State} {reply : Reply} {l : List Put} (hKp : [.sent, .pair, .work] ⊆ Kp)
    (hK : Keeps Kp K0 s) : Keeps Kp K0 (shareConfig reply l s).2 := by
  unfold shareConfig
  split
  · have k : Keeps Kp K0 (l.foldl (fun a p => if p.isShared then sendConfig p.index p.sub p.value a else a) s) :=
      .foldl _ _ _ (fun _ _ h => .ite (keeps_sendConfig (subP hKp (by decide)) h) h) hK
    extract_lets s1 m
    change Keeps Kp K0 s1 at k
    clear_value s1
    split
    · with_reducible apply Keeps.upd k
      all_goals with_reducible first
        | exact .inl rfl
        | exact .inr (memP hKp (by decide))
        | exact id
    · exact k
  · exact hK

theorem keeps_residue {Kp : List Part} {K0 s : State} {ph : Bool} {l : List Put} {k : Nat} (hKp : [.sent, .dict, .log, .life, .alert, .pair, .work, .fw] ⊆ Kp) (hK : Keeps Kp K0 s) :
    Keeps Kp K0 (residue ph l k s) := by
  unfold residue
  with_reducible repeat' first
    | assumption
    | refine keepsE_activateEffect (subP hKp (by decide)) ?_
    | refine keeps_activateEffect (subP hKp (by decide)) ?_
    | refine Keeps.ite ?_ ?_
    | refine Keeps.snd (by assumption) ?_
    | split

theorem keeps_serve {Kp : List Part} {K0 s : State} {who : Who} {reply : Reply} {ph : Bool} {l : List Put} (hKp : [.sent, .reg, .keys, .dict, .conf, .log, .cal, .life, .lanes, .teams, .segs, .alert, .host, .mem, .cache, .pair, .work, .power, .fw, .sup, .ports] ⊆ Kp)
    (hK : Keeps Kp K0 s) : Keeps Kp K0 (serve who reply ph l s).state := by
  unfold serve
  split
  · exact hK
  · split
    · exact hK
    · split
      · exact keeps_residue (subP hKp (by decide)) hK
      · rename_i s1 h
        have k1 := KeepsE.of h (keeps_applyPuts (subP hKp (by decide)) hK)
        have k2 := keeps_shareConfig (Kp := Kp) (K0 := K0) (reply := if l.any Put.isLater then .record who 0x2000 2 else reply) (l := l)
          (subP hKp (by decide)) (keeps_settleTeams (l := l) (subP hKp (by decide)) k1)
        split
        · rename_i e
          exact .snd e k2
        · rename_i e
          split
          · exact .snd e k2
          · exact .snd e k2

end Sys2Proof.Machine
end

