-- ==== Sys2Proof/Laws/KeepsKyeri.lean ====
section
/-! SUPPORT. What the operations of Kyeri.lean keep. -/

namespace Sys2Proof.Machine

set_option linter.unusedTactic false
set_option linter.unreachableTactic false
set_option linter.unusedVariables false

theorem keeps_sendBack {Kp : List Part} {K0 s : State} {d : Datagram} {f : Bytes} (hKp : [.sent] ⊆ Kp) (hK : Keeps Kp K0 s) :
    Keeps Kp K0 (sendBack d f s) := by
  unfold sendBack
  with_reducible repeat' first
    | assumption
    | refine keeps_send (subP hKp (by decide)) ?_

theorem keeps_answerOut {Kp : List Part} {K0 s : State} {d : Datagram} {ty : Nat} {seq : Nat} {status : Nat} {body : Bytes} (hKp : [.sent] ⊆ Kp) (hK : Keeps Kp K0 s) :
    Keeps Kp K0 (answerOut d ty seq status body s) := by
  unfold answerOut
  with_reducible repeat' first
    | assumption
    | refine keeps_sendBack (subP hKp (by decide)) ?_

theorem keeps_answerIn {Kp : List Part} {K0 s : State} {slot : Fin 8} {x : Session} {d : Datagram} {ty : Nat} {seq : Nat} {status : Nat} {body : Bytes} (hKp : [.sent, .dict] ⊆ Kp) (hK : Keeps Kp K0 s) :
    Keeps Kp K0 (answerIn slot x d ty seq status body s) := by
  unfold answerIn
  with_reducible repeat' first
    | assumption
    | refine keeps_respond (subP hKp (by decide)) ?_
    | refine keeps_sendBack (subP hKp (by decide)) ?_
    | refine Keeps.ite ?_ ?_

theorem keeps_inSession {Kp : List Part} {K0 s : State} {d : Datagram} {f : KFrame} {k : Fin 8 → Session → State → State}
    (hKp : [.sent, .dict] ⊆ Kp) (hK : Keeps Kp K0 s) (hk : ∀ i x q, Keeps Kp K0 q → Keeps Kp K0 (k i x q)) :
    Keeps Kp K0 (inSession d f k s) := by
  unfold inSession
  split
  · exact hK
  · rename_i slot x hx
    have hs : s.dict.sessions[slot] = some x := by
      obtain ⟨i, _, hi⟩ := List.exists_of_findSome?_eq_some hx
      split at hi
      · rename_i y hy
        split at hi
        · injection hi with hi
          injection hi with h1 h2
          rw [← h1, ← h2]
          exact hy
        · injection hi
      · injection hi
    split
    · exact hK
    · split
      · split
        · exact keeps_sendBack (subP hKp (by decide)) hK
        · exact hK
      · refine hk _ _ _ ?_
        with_reducible apply Keeps.upd hK
        case hd =>
          refine dict_set rfl (fun hd y hy => ?_)
          cases hy
          exact hd slot x hs
        all_goals with_reducible first
          | exact .inl rfl
          | exact .inr (memP hKp (by decide))
          | exact id

theorem keeps_receive {Kp : List Part} {K0 s : State} {ty : Nat} {d : Datagram} {out : KFrame → State → State}
    {k : KFrame → Fin 8 → Session → State → State} (hKp : [.sent, .dict] ⊆ Kp) (hK : Keeps Kp K0 s)
    (ho : ∀ f q, Keeps Kp K0 q → Keeps Kp K0 (out f q)) (hk : ∀ f i x q, Keeps Kp K0 q → Keeps Kp K0 (k f i x q)) :
    Keeps Kp K0 (receive ty d out k s) := by
  unfold receive
  split
  · exact hK
  · exact .ite (ho _ _ hK) (keeps_inSession (subP hKp (by decide)) hK (hk _))

theorem keeps_hello {Kp : List Part} {K0 s : State} {d : Datagram} (hKp : [.free, .sent, .dict] ⊆ Kp) (hK : Keeps Kp K0 s) :
    Keeps Kp K0 (hello d s) := by
  unfold hello
  refine keeps_receive (subP hKp (by decide)) hK (fun f q h => ?_) (fun _ _ _ _ h => h)
  dsimp only
  split
  · exact keeps_answerOut (subP hKp (by decide)) h
  · have k : Keeps Kp K0 (drawBytes 32 q).2 := keeps_drawBytes (subP hKp (by decide)) h
    generalize drawBytes 32 q = r at k
    obtain ⟨nd, s1⟩ := r
    refine keeps_answerOut (subP hKp (by decide)) ?_
    with_reducible apply Keeps.upd k
    case hd => exact dict_of rfl
    all_goals with_reducible first
      | exact .inl rfl
      | exact .inr (memP hKp (by decide))
      | exact id

theorem keeps_execHello {Kp : List Part} {K0 s : State} {d : Datagram} (hKp : [.free, .sent, .dict] ⊆ Kp) (hK : Keeps Kp K0 s) :
    KeepsO Kp K0 (execHello d s) := by
  unfold execHello
  with_reducible repeat' first
    | assumption
    | refine KeepsO.next ?_
    | refine keeps_hello (subP hKp (by decide)) ?_

theorem keeps_proofFailed {Kp : List Part} {K0 s : State} {d : Datagram} {seq : Nat} (hKp : [.free, .sent, .reg, .dict, .log, .life, .alert] ⊆ Kp) (hK : Keeps Kp K0 s) :
    Keeps Kp K0 (proofFailed d seq s) := by
  unfold proofFailed
  with_reducible repeat' first
    | assumption
    | refine keeps_draw (subP hKp (by decide)) ?_
    | refine keeps_drawBytes (subP hKp (by decide)) ?_
    | refine keeps_store (subP hKp (by decide)) ?_
    | refine keeps_answerOut (subP hKp (by decide)) ?_
    | refine keeps_logAppend (subP hKp (by decide)) ?_
    | exact .inl rfl
    | exact .inr (memP hKp (by decide))
    | exact id
    | exact dict_of rfl
    | refine Keeps.snd (by assumption) ?_
    | split
    | apply Keeps.upd

theorem keeps_proveNew {Kp : List Part} {K0 s : State} {d : Datagram} {f : KFrame} (hKp : [.free, .sent, .reg, .dict, .log, .life, .alert] ⊆ Kp) (hK : Keeps Kp K0 s) :
    Keeps Kp K0 (proveNew d f s) := by
  unfold proveNew
  split
  · exact keeps_proofFailed (subP hKp (by decide)) hK
  · split
    · exact keeps_proofFailed (subP hKp (by decide)) hK
    · rename_i h _ x hx
      have : x.stored = [] := by
        unfold openedBy at hx
        split at hx
        · injection hx
        · split at hx
          · injection hx
          · injection hx with hx
            rw [← hx]
      refine .ite (keeps_proofFailed (subP hKp (by decide)) hK) ?_
      split
      · exact keeps_answerOut (subP hKp (by decide)) hK
      · refine keeps_answerIn (subP hKp (by decide)) ?_
        with_reducible apply Keeps.upd hK
        case hd =>
          refine dict_set rfl (fun hd y hy => ?_)
          cases hy
          simp [this]
        all_goals with_reducible first
          | exact .inl rfl
          | exact .inr (memP hKp (by decide))
          | exact id

theorem keeps_prove {Kp : List Part} {K0 s : State} {d : Datagram} (hKp : [.free, .sent, .reg, .dict, .log, .life, .alert] ⊆ Kp) (hK : Keeps Kp K0 s) :
    Keeps Kp K0 (prove d s) := by
  unfold prove
  with_reducible repeat' first
    | assumption
    | (intro _; try intros)
    | refine keeps_inSession (subP hKp (by decide)) ?_ ?_
    | refine keeps_proveNew (subP hKp (by decide)) ?_
    | refine Keeps.ite ?_ ?_
    | split

theorem keeps_execProve {Kp : List Part} {K0 s : State} {d : Datagram} (hKp : [.free, .sent, .reg, .dict, .log, .life, .alert] ⊆ Kp) (hK : Keeps Kp K0 s) :
    KeepsO Kp K0 (execProve d s) := by
  unfold execProve
  with_reducible repeat' first
    | assumption
    | refine KeepsO.next ?_
    | refine keeps_prove (subP hKp (by decide)) ?_

theorem keeps_execProveTimeout {Kp : List Part} {K0 s : State} {session : Nat} (hKp : [.dict] ⊆ Kp) (hK : Keeps Kp K0 s) :
    KeepsO Kp K0 (execProveTimeout session s) := by
  unfold execProveTimeout
  with_reducible repeat' first
    | assumption
    | refine KeepsO.next ?_
    | exact .inl rfl
    | exact .inr (memP hKp (by decide))
    | exact id
    | exact dict_of rfl
    | apply Keeps.upd

theorem keeps_execClose {Kp : List Part} {K0 s : State} {d : Datagram} (hKp : [.sent, .dict] ⊆ Kp) (hK : Keeps Kp K0 s) :
    KeepsO Kp K0 (execClose d s) := by
  unfold execClose
  with_reducible repeat' first
    | assumption
    | refine KeepsO.next ?_
    | (intro _; try intros)
    | refine keeps_receive (subP hKp (by decide)) ?_ ?_ ?_
    | refine keeps_closeSession (subP hKp (by decide)) ?_
    | refine keeps_answerIn (subP hKp (by decide)) ?_

theorem keeps_execSessionIdleTimeout {Kp : List Part} {K0 s : State} {slot : Fin 8} (hKp : [.dict] ⊆ Kp) (hK : Keeps Kp K0 s) :
    KeepsO Kp K0 (execSessionIdleTimeout slot s) := by
  unfold execSessionIdleTimeout
  with_reducible repeat' first
    | assumption
    | refine KeepsO.next ?_
    | refine KeepsO.ite ?_ ?_
    | refine keeps_closeSession (subP hKp (by decide)) ?_
    | refine Keeps.ite ?_ ?_
    | split

theorem keeps_execKyeriRead {Kp : List Part} {K0 s : State} {d : Datagram} (hKp : [.sent, .dict] ⊆ Kp) (hK : Keeps Kp K0 s) :
    KeepsO Kp K0 (execKyeriRead d s) := by
  unfold execKyeriRead
  with_reducible repeat' first
    | assumption
    | refine KeepsO.next ?_
    | (intro _; try intros)
    | refine keeps_receive (subP hKp (by decide)) ?_ ?_ ?_
    | refine keeps_answerOut (subP hKp (by decide)) ?_
    | refine keeps_answerIn (subP hKp (by decide)) ?_

theorem keeps_dropHeld {Kp : List Part} {K0 s : State} {o : Owner} {index : Nat} {sub : Nat} (hKp : [.dict] ⊆ Kp) (hK : Keeps Kp K0 s) :
    Keeps Kp K0 (dropHeld o index sub s) := by
  unfold dropHeld
  with_reducible repeat' first
    | assumption
    | exact .inl rfl
    | exact .inr (memP hKp (by decide))
    | exact id
    | exact dict_of rfl
    | apply Keeps.upd

theorem keeps_takeSegment {Kp : List Part} {K0 s : State} {o : Owner} {index sub off total : Nat} {last : Bool} {data : Bytes}
    (hKp : [.dict] ⊆ Kp) (hK : Keeps Kp K0 s) : KeepsF Kp K0 (takeSegment o index sub off total last data s) := by
  unfold takeSegment
  extract_lets h got s1
  refine .ite .error (.ite (.ok ?_) (.ite .error .error))
  exact keeps_dropHeld (subP hKp (by decide)) hK

theorem takeSegment_error {Kp : List Part} {K0 s t : State} {o : Owner} {index sub off total k : Nat} {last : Bool} {data : Bytes}
    (q : takeSegment o index sub off total last data s = .error (k, t)) (hKp : [.dict] ⊆ Kp) (hK : Keeps Kp K0 s) : Keeps Kp K0 t := by
  have kd : Keeps Kp K0 (dropHeld o index sub s) := keeps_dropHeld (subP hKp (by decide)) hK
  have up {h : List Held} {u : State} (k : Keeps Kp K0 u) : Keeps Kp K0 { u with dict := { u.dict with held := h } } := by
    with_reducible apply Keeps.upd k
    all_goals with_reducible first
      | exact .inl rfl
      | exact .inr (memP hKp (by decide))
      | exact id
      | exact dict_of rfl
  unfold takeSegment at q
  extract_lets h got s1 at q
  split at q
  · injection q with q; injection q with _ q; exact q ▸ kd
  · split at q
    · injection q
    · split at q
      · injection q with q; injection q with _ q; exact q ▸ hK
      · injection q with q; injection q with _ q; exact q ▸ up kd

theorem keeps_peerAnswer {Kp : List Part} {K0 s : State} {l : List Put} (hKp : [.free] ⊆ Kp) (hK : Keeps Kp K0 s) :
    Keeps Kp K0 (peerAnswer l s).2 := by
  unfold peerAnswer
  with_reducible repeat' first
    | assumption
    | refine keeps_draw (subP hKp (by decide)) ?_
    | refine Keeps.ite ?_ ?_
    | refine Keeps.snd (by assumption) ?_
    | split

theorem keeps_serveDrawn {Kp : List Part} {K0 s : State} {who : Who} {reply : Reply} {l : List Put} (hKp : [.free, .sent, .reg, .keys, .dict, .conf, .log, .cal, .life, .lanes, .teams, .segs, .alert, .host, .mem, .cache, .pair, .work, .power, .fw, .sup, .ports] ⊆ Kp)
    (hK : Keeps Kp K0 s) : Keeps Kp K0 (serveDrawn who reply l s).state := by
  unfold serveDrawn
  split
  rename_i h
  exact keeps_serve (subP hKp (by decide)) (.snd h (keeps_peerAnswer (subP hKp (by decide)) hK))

theorem keeps_writeSegment {Kp : List Part} {K0 s : State} {who : Who} {o : Owner} {index sub off total : Nat} {last : Bool} {data : Bytes}
    (hKp : [.dict] ⊆ Kp) (hK : Keeps Kp K0 s) : KeepsF Kp K0 (writeSegment who o index sub off total last data s) := by
  unfold writeSegment
  split
  · exact .error
  · exact keeps_takeSegment hKp hK

theorem writeSegment_error {Kp : List Part} {K0 s t : State} {who : Who} {o : Owner} {index sub off total k : Nat} {last : Bool} {data : Bytes}
    (q : writeSegment who o index sub off total last data s = .error (k, t)) (hKp : [.dict] ⊆ Kp) (hK : Keeps Kp K0 s) : Keeps Kp K0 t := by
  unfold writeSegment at q
  split at q
  · injection q with q; injection q with _ q; exact q ▸ hK
  · exact takeSegment_error q hKp hK

theorem keeps_execKyeriWrite {Kp : List Part} {K0 s : State} {d : Datagram} (hKp : [.free, .sent, .reg, .keys, .dict, .conf, .log, .cal, .life, .lanes, .teams, .segs, .alert, .host, .mem, .cache, .pair, .work, .power, .fw, .sup, .ports] ⊆ Kp) (hK : Keeps Kp K0 s) :
    KeepsO Kp K0 (execKyeriWrite d s) := by
  unfold execKyeriWrite
  with_reducible repeat' first
    | assumption
    | refine KeepsO.next ?_
    | refine KeepsO.ite ?_ ?_
    | (intro _; try intros)
    | refine Keeps.now (by assumption) ?_
    | refine Keeps.later (by assumption) ?_
    | refine writeSegment_error (by assumption) (subP hKp (by decide)) ?_
    | refine KeepsF.of (by assumption) ?_
    | refine keeps_writeSegment (subP hKp (by decide)) ?_
    | refine keeps_receive (subP hKp (by decide)) ?_ ?_ ?_
    | refine keeps_answerOut (subP hKp (by decide)) ?_
    | refine keeps_answerIn (subP hKp (by decide)) ?_
    | refine keeps_serveDrawn (subP hKp (by decide)) ?_
    | refine Keeps.ite ?_ ?_
    | split

theorem keeps_execBatch {Kp : List Part} {K0 s : State} {d : Datagram} (hKp : [.free, .sent, .reg, .keys, .dict, .conf, .log, .cal, .life, .lanes, .teams, .segs, .alert, .host, .mem, .cache, .pair, .work, .power, .fw, .sup, .ports] ⊆ Kp) (hK : Keeps Kp K0 s) :
    KeepsO Kp K0 (execBatch d s) := by
  unfold execBatch
  with_reducible repeat' first
    | assumption
    | refine KeepsO.next ?_
    | (intro _; try intros)
    | refine Keeps.now (by assumption) ?_
    | refine Keeps.later (by assumption) ?_
    | refine keeps_receive (subP hKp (by decide)) ?_ ?_ ?_
    | refine keeps_answerOut (subP hKp (by decide)) ?_
    | refine keeps_answerIn (subP hKp (by decide)) ?_
    | refine keeps_serveDrawn (subP hKp (by decide)) ?_
    | split

theorem keeps_execEventAck {Kp : List Part} {K0 s : State} {d : Datagram} (hKp : [.sent, .dict] ⊆ Kp) (hK : Keeps Kp K0 s) :
    KeepsO Kp K0 (execEventAck d s) := by
  refine .next (keeps_receive (subP hKp (by decide)) hK (fun _ _ h => h) (fun _ _ _ _ h => ?_))
  with_reducible apply Keeps.upd h
  case hd => exact dict_of rfl
  all_goals with_reducible first
    | exact .inl rfl
    | exact .inr (memP hKp (by decide))
    | exact id

theorem keeps_resendEvent {Kp : List Part} {K0 s : State} {slot : Fin 8} {w : EventWait} (hKp : [.sent, .dict] ⊆ Kp) (hK : Keeps Kp K0 s) :
    Keeps Kp K0 (resendEvent slot w s) := by
  have k1 {l : List EventWait} : Keeps Kp K0 { s with dict := { s.dict with eventWaits := l } } := by
    with_reducible apply Keeps.upd hK
    all_goals with_reducible first
      | exact .inl rfl
      | exact .inr (memP hKp (by decide))
      | exact id
      | exact dict_of rfl
  unfold resendEvent
  dsimp only
  split
  · exact k1
  · rename_i x hx
    refine .ite k1 (keeps_send (subP hKp (by decide)) ?_)
    with_reducible apply Keeps.upd hK
    case hd =>
      refine dict_set rfl (fun hd y hy => ?_)
      cases hy
      exact hd slot x hx
    all_goals with_reducible first
      | exact .inl rfl
      | exact .inr (memP hKp (by decide))
      | exact id

theorem keeps_execEventResend {Kp : List Part} {K0 s : State} {slot : Fin 8} (hKp : [.sent, .dict] ⊆ Kp) (hK : Keeps Kp K0 s) :
    KeepsO Kp K0 (execEventResend slot s) := by
  unfold execEventResend
  with_reducible repeat' first
    | assumption
    | refine KeepsO.next ?_
    | refine keeps_resendEvent (subP hKp (by decide)) ?_
    | refine Keeps.fold2 _ _ _ (fun _ _ _ => ?_) ?_
    | refine Keeps.foldl _ _ _ (fun _ _ _ => ?_) ?_

theorem keeps_execDiscover {Kp : List Part} {K0 s : State} {d : Datagram} (hKp : [.sent, .dict] ⊆ Kp) (hK : Keeps Kp K0 s) :
    KeepsO Kp K0 (execDiscover d s) := by
  refine .next (keeps_receive (subP hKp (by decide)) hK (fun _ _ h => ?_) (fun _ _ _ _ h => h))
  with_reducible apply Keeps.upd h
  case hd => exact dict_of rfl
  all_goals with_reducible first
    | exact .inl rfl
    | exact .inr (memP hKp (by decide))
    | exact id

theorem keeps_execDiscoverReply {Kp : List Part} {K0 s : State}  (hKp : [.sent, .dict] ⊆ Kp) (hK : Keeps Kp K0 s) :
    KeepsO Kp K0 (execDiscoverReply s) := by
  unfold execDiscoverReply
  with_reducible repeat' first
    | assumption
    | refine KeepsO.next ?_
    | refine KeepsO.ite ?_ ?_
    | refine keeps_send (subP hKp (by decide)) ?_
    | refine Keeps.ite ?_ ?_
    | exact .inl rfl
    | exact .inr (memP hKp (by decide))
    | exact id
    | exact dict_of rfl
    | split
    | apply Keeps.upd

theorem keeps_execAnnounce {Kp : List Part} {K0 s : State}  (hKp : [.sent, .dict] ⊆ Kp) (hK : Keeps Kp K0 s) :
    KeepsO Kp K0 (execAnnounce s) := by
  unfold execAnnounce
  with_reducible repeat' first
    | assumption
    | refine KeepsO.next ?_
    | refine KeepsO.ite ?_ ?_
    | refine keeps_send (subP hKp (by decide)) ?_
    | refine Keeps.fold2 _ _ _ (fun _ _ _ => ?_) ?_
    | refine Keeps.foldl _ _ _ (fun _ _ _ => ?_) ?_
    | refine Keeps.ite ?_ ?_
    | exact .inl rfl
    | exact .inr (memP hKp (by decide))
    | exact id
    | exact dict_of rfl
    | apply Keeps.upd

end Sys2Proof.Machine
end

