-- ==== Sys2Proof/Laws/KeepsAccess.lean ====
section
/-! SUPPORT. What the operations of Access.lean keep. -/

namespace Sys2Proof.Machine

set_option linter.unusedTactic false
set_option linter.unreachableTactic false
set_option linter.unusedVariables false

theorem keeps_dictCommand {Kp : List Part} {K0 s : State} {c : CmdId} {opcode : Nat} {indices : List Nat} {k : CmdId → State → State} (hKp : [.sent, .reg, .dict, .log, .life, .alert, .host, .mem, .cache, .pair, .work] ⊆ Kp) (hK : Keeps Kp K0 s) (hk : ∀ x0 q, Keeps Kp K0 q → Keeps Kp K0 (k x0 q)) :
    Keeps Kp K0 (dictCommand c opcode indices k s) := by
  unfold dictCommand
  with_reducible repeat' first
    | assumption
    | (intro _; try intros)
    | refine keeps_fetchAny (subP hKp (by decide)) ?_ ?_
    | refine keeps_refuse (subP hKp (by decide)) ?_
    | refine keeps_takeOff (subP hKp (by decide)) ?_
    | refine Keeps.ite ?_ ?_
    | apply hk

theorem keeps_dictOutcome {Kp : List Part} {K0 : State} {c : CmdId} {o : Outcome} (hKp : [.sent, .teams, .host, .pair, .work] ⊆ Kp) (hK : Keeps Kp K0 o.state) :
    Keeps Kp K0 (dictOutcome c o) := by
  unfold dictOutcome
  split
  · exact keeps_dictDone (subP hKp (by decide)) hK
  · exact hK

theorem keeps_execDictionaryWrite {Kp : List Part} {K0 s : State} {c : CmdId} {dw10 : Nat} {dw11 : Nat} {dw12 : Nat} {data : HostData} (hKp : [.free, .sent, .reg, .keys, .dict, .conf, .log, .cal, .life, .lanes, .teams, .segs, .alert, .host, .mem, .cache, .pair, .work, .power, .fw, .sup, .ports] ⊆ Kp) (hK : Keeps Kp K0 s) :
    KeepsO Kp K0 (execDictionaryWrite c dw10 dw11 dw12 data s) := by
  unfold execDictionaryWrite
  with_reducible repeat' first
    | assumption
    | refine KeepsO.next ?_
    | (intro _; try intros)
    | refine Keeps.now (by assumption) ?_
    | refine Keeps.later (by assumption) ?_
    | refine writeSegment_error (by assumption) (subP hKp (by decide)) ?_
    | refine KeepsF.of (by assumption) ?_
    | refine keeps_writeSegment (subP hKp (by decide)) ?_
    | refine keeps_fetchAny (subP hKp (by decide)) ?_ ?_
    | refine keeps_refuse (subP hKp (by decide)) ?_
    | refine keeps_dictCommand (subP hKp (by decide)) ?_ ?_
    | refine keeps_dictDone (subP hKp (by decide)) ?_
    | refine keeps_serveDrawn (subP hKp (by decide)) ?_
    | split

theorem keeps_execDictionaryRead {Kp : List Part} {K0 s : State} {c : CmdId} {dw10 : Nat} {dw11 : Nat} {dw12 : Nat} {failed : Option Nat} (hKp : [.sent, .reg, .dict, .log, .life, .teams, .alert, .host, .mem, .cache, .pair, .work] ⊆ Kp) (hK : Keeps Kp K0 s) :
    KeepsO Kp K0 (execDictionaryRead c dw10 dw11 dw12 failed s) := by
  unfold execDictionaryRead
  with_reducible repeat' first
    | assumption
    | refine KeepsO.next ?_
    | refine KeepsO.ite ?_ ?_
    | (intro _; try intros)
    | refine keeps_fetchAny (subP hKp (by decide)) ?_ ?_
    | refine keeps_refuse (subP hKp (by decide)) ?_
    | refine keeps_dictCommand (subP hKp (by decide)) ?_ ?_
    | refine keeps_dictDone (subP hKp (by decide)) ?_
    | refine keeps_send (subP hKp (by decide)) ?_
    | refine Keeps.ite ?_ ?_
    | split

theorem keeps_execDictionaryBatch {Kp : List Part} {K0 s : State} {c : CmdId} {dw10 : Nat} {data : HostData} (hKp : [.free, .sent, .reg, .keys, .dict, .conf, .log, .cal, .life, .lanes, .teams, .segs, .alert, .host, .mem, .cache, .pair, .work, .power, .fw, .sup, .ports] ⊆ Kp) (hK : Keeps Kp K0 s) :
    KeepsO Kp K0 (execDictionaryBatch c dw10 data s) := by
  unfold execDictionaryBatch
  with_reducible repeat' first
    | assumption
    | refine KeepsO.next ?_
    | refine KeepsO.ite ?_ ?_
    | (intro _; try intros)
    | refine Keeps.now (by assumption) ?_
    | refine Keeps.later (by assumption) ?_
    | refine keeps_dictCommand (subP hKp (by decide)) ?_ ?_
    | refine keeps_dictDone (subP hKp (by decide)) ?_
    | refine keeps_fetchAny (subP hKp (by decide)) ?_ ?_
    | refine keeps_refuse (subP hKp (by decide)) ?_
    | refine keeps_dictOutcome (subP hKp (by decide)) ?_
    | refine keeps_serveDrawn (subP hKp (by decide)) ?_
    | refine Keeps.ite ?_ ?_
    | split

theorem keeps_putEntryWith {Kp : List Part} {K0 s : State} {ph : Bool} {who : Who} {index : Nat} {sub : Nat} {v : Bytes} (hKp : [.sent, .reg, .keys, .dict, .conf, .log, .cal, .life, .lanes, .teams, .segs, .alert, .host, .mem, .cache, .pair, .work, .power, .fw, .sup, .ports] ⊆ Kp) (hK : Keeps Kp K0 s) :
    Keeps Kp K0 (putEntryWith ph who index sub v s) := by
  unfold putEntryWith
  with_reducible repeat' first
    | assumption
    | refine Keeps.now (by assumption) ?_
    | refine Keeps.later (by assumption) ?_
    | refine keeps_serve (subP hKp (by decide)) ?_
    | refine keeps_send (subP hKp (by decide)) ?_
    | split

theorem keeps_putEntry {Kp : List Part} {K0 s : State} {who : Who} {index : Nat} {sub : Nat} {v : Bytes} (hKp : [.sent, .reg, .keys, .dict, .conf, .log, .cal, .life, .lanes, .teams, .segs, .alert, .host, .mem, .cache, .pair, .work, .power, .fw, .sup, .ports] ⊆ Kp) (hK : Keeps Kp K0 s) :
    Keeps Kp K0 (putEntry who index sub v s) := by
  unfold putEntry
  with_reducible repeat' first
    | assumption
    | refine keeps_putEntryWith (subP hKp (by decide)) ?_

theorem keeps_execEntryWrite {Kp : List Part} {K0 s : State} {who : Who} {index : Nat} {sub : Nat} {value : Bytes} (hKp : [.sent, .reg, .keys, .dict, .conf, .log, .cal, .life, .lanes, .teams, .segs, .alert, .host, .mem, .cache, .pair, .work, .power, .fw, .sup, .ports] ⊆ Kp) (hK : Keeps Kp K0 s) :
    KeepsO Kp K0 (execEntryWrite who index sub value s) := by
  unfold execEntryWrite
  with_reducible repeat' first
    | assumption
    | refine KeepsO.next ?_
    | refine KeepsO.ite ?_ ?_
    | refine keeps_putEntry (subP hKp (by decide)) ?_
    | refine Keeps.ite ?_ ?_

theorem keeps_execSave {Kp : List Part} {K0 s : State} {who : Who} {value : Bytes} (hKp : [.sent, .reg, .keys, .dict, .conf, .log, .cal, .life, .lanes, .teams, .segs, .alert, .host, .mem, .cache, .pair, .work, .power, .fw, .sup, .ports] ⊆ Kp) (hK : Keeps Kp K0 s) :
    KeepsO Kp K0 (execSave who value s) := by
  unfold execSave
  with_reducible repeat' first
    | assumption
    | refine KeepsO.next ?_
    | refine keeps_putEntry (subP hKp (by decide)) ?_

theorem keeps_execRestoreFactoryDefaults {Kp : List Part} {K0 s : State} {who : Who} {value : Bytes} (hKp : [.sent, .reg, .keys, .dict, .conf, .log, .cal, .life, .lanes, .teams, .segs, .alert, .host, .mem, .cache, .pair, .work, .power, .fw, .sup, .ports] ⊆ Kp) (hK : Keeps Kp K0 s) :
    KeepsO Kp K0 (execRestoreFactoryDefaults who value s) := by
  unfold execRestoreFactoryDefaults
  with_reducible repeat' first
    | assumption
    | refine KeepsO.next ?_
    | refine keeps_putEntry (subP hKp (by decide)) ?_

theorem keeps_execKeySlotWrite {Kp : List Part} {K0 s : State} {who : Who} {slot : Fin 8} {value : Bytes} (hKp : [.sent, .reg, .keys, .dict, .conf, .log, .cal, .life, .lanes, .teams, .segs, .alert, .host, .mem, .cache, .pair, .work, .power, .fw, .sup, .ports] ⊆ Kp) (hK : Keeps Kp K0 s) :
    KeepsO Kp K0 (execKeySlotWrite who slot value s) := by
  unfold execKeySlotWrite
  with_reducible repeat' first
    | assumption
    | refine KeepsO.next ?_
    | refine keeps_putEntry (subP hKp (by decide)) ?_

theorem keeps_execKeyRoleWrite {Kp : List Part} {K0 s : State} {who : Who} {slot : Fin 8} {value : Bytes} (hKp : [.sent, .reg, .keys, .dict, .conf, .log, .cal, .life, .lanes, .teams, .segs, .alert, .host, .mem, .cache, .pair, .work, .power, .fw, .sup, .ports] ⊆ Kp) (hK : Keeps Kp K0 s) :
    KeepsO Kp K0 (execKeyRoleWrite who slot value s) := by
  unfold execKeyRoleWrite
  with_reducible repeat' first
    | assumption
    | refine KeepsO.next ?_
    | refine keeps_putEntry (subP hKp (by decide)) ?_

theorem keeps_execTeamMembersWrite {Kp : List Part} {K0 s : State} {who : Who} {t : TeamId} {value : Bytes} (hKp : [.sent, .reg, .keys, .dict, .conf, .log, .cal, .life, .lanes, .teams, .segs, .alert, .host, .mem, .cache, .pair, .work, .power, .fw, .sup, .ports] ⊆ Kp) (hK : Keeps Kp K0 s) :
    KeepsO Kp K0 (execTeamMembersWrite who t value s) := by
  unfold execTeamMembersWrite
  with_reducible repeat' first
    | assumption
    | refine KeepsO.next ?_
    | refine keeps_putEntry (subP hKp (by decide)) ?_

theorem keeps_execCreateVolume {Kp : List Part} {K0 s : State} {who : Who} {t : TeamId} {value : Bytes} (hKp : [.sent, .reg, .keys, .dict, .conf, .log, .cal, .life, .lanes, .teams, .segs, .alert, .host, .mem, .cache, .pair, .work, .power, .fw, .sup, .ports] ⊆ Kp) (hK : Keeps Kp K0 s) :
    KeepsO Kp K0 (execCreateVolume who t value s) := by
  unfold execCreateVolume
  with_reducible repeat' first
    | assumption
    | refine KeepsO.next ?_
    | refine keeps_putEntry (subP hKp (by decide)) ?_

theorem keeps_execStartLearningRun {Kp : List Part} {K0 s : State} {who : Who} {n : LaneId} {value : Bytes} (hKp : [.sent, .reg, .keys, .dict, .conf, .log, .cal, .life, .lanes, .teams, .segs, .alert, .host, .mem, .cache, .pair, .work, .power, .fw, .sup, .ports] ⊆ Kp) (hK : Keeps Kp K0 s) :
    KeepsO Kp K0 (execStartLearningRun who n value s) := by
  unfold execStartLearningRun
  with_reducible repeat' first
    | assumption
    | refine KeepsO.next ?_
    | refine keeps_putEntry (subP hKp (by decide)) ?_

theorem keeps_execLaneModeWrite {Kp : List Part} {K0 s : State} {who : Who} {n : LaneId} {value : Bytes} (hKp : [.sent, .reg, .keys, .dict, .conf, .log, .cal, .life, .lanes, .teams, .segs, .alert, .host, .mem, .cache, .pair, .work, .power, .fw, .sup, .ports] ⊆ Kp) (hK : Keeps Kp K0 s) :
    KeepsO Kp K0 (execLaneModeWrite who n value s) := by
  unfold execLaneModeWrite
  with_reducible repeat' first
    | assumption
    | refine KeepsO.next ?_
    | refine keeps_putEntry (subP hKp (by decide)) ?_

theorem keeps_execLaneEnableWrite {Kp : List Part} {K0 s : State} {who : Who} {n : LaneId} {value : Bytes} (hKp : [.sent, .reg, .keys, .dict, .conf, .log, .cal, .life, .lanes, .teams, .segs, .alert, .host, .mem, .cache, .pair, .work, .power, .fw, .sup, .ports] ⊆ Kp) (hK : Keeps Kp K0 s) :
    KeepsO Kp K0 (execLaneEnableWrite who n value s) := by
  unfold execLaneEnableWrite
  with_reducible repeat' first
    | assumption
    | refine KeepsO.next ?_
    | refine keeps_putEntry (subP hKp (by decide)) ?_

theorem keeps_execLaneReset {Kp : List Part} {K0 s : State} {who : Who} {n : LaneId} {value : Bytes} (hKp : [.sent, .reg, .keys, .dict, .conf, .log, .cal, .life, .lanes, .teams, .segs, .alert, .host, .mem, .cache, .pair, .work, .power, .fw, .sup, .ports] ⊆ Kp) (hK : Keeps Kp K0 s) :
    KeepsO Kp K0 (execLaneReset who n value s) := by
  unfold execLaneReset
  with_reducible repeat' first
    | assumption
    | refine KeepsO.next ?_
    | refine keeps_putEntry (subP hKp (by decide)) ?_

theorem keeps_execCaptureArm {Kp : List Part} {K0 s : State} {who : Who} {n : LaneId} {value : Bytes} (hKp : [.sent, .reg, .keys, .dict, .conf, .log, .cal, .life, .lanes, .teams, .segs, .alert, .host, .mem, .cache, .pair, .work, .power, .fw, .sup, .ports] ⊆ Kp) (hK : Keeps Kp K0 s) :
    KeepsO Kp K0 (execCaptureArm who n value s) := by
  unfold execCaptureArm
  with_reducible repeat' first
    | assumption
    | refine KeepsO.next ?_
    | refine keeps_putEntry (subP hKp (by decide)) ?_

theorem keeps_execTestSourceWrite {Kp : List Part} {K0 s : State} {who : Who} {n : LaneId} {value : Bytes} (hKp : [.sent, .reg, .keys, .dict, .conf, .log, .cal, .life, .lanes, .teams, .segs, .alert, .host, .mem, .cache, .pair, .work, .power, .fw, .sup, .ports] ⊆ Kp) (hK : Keeps Kp K0 s) :
    KeepsO Kp K0 (execTestSourceWrite who n value s) := by
  unfold execTestSourceWrite
  with_reducible repeat' first
    | assumption
    | refine KeepsO.next ?_
    | refine keeps_putEntry (subP hKp (by decide)) ?_

theorem keeps_execRestoreClassTaps {Kp : List Part} {K0 s : State} {who : Who} {n : LaneId} {value : Bytes} (hKp : [.sent, .reg, .keys, .dict, .conf, .log, .cal, .life, .lanes, .teams, .segs, .alert, .host, .mem, .cache, .pair, .work, .power, .fw, .sup, .ports] ⊆ Kp) (hK : Keeps Kp K0 s) :
    KeepsO Kp K0 (execRestoreClassTaps who n value s) := by
  unfold execRestoreClassTaps
  with_reducible repeat' first
    | assumption
    | refine KeepsO.next ?_
    | refine keeps_putEntry (subP hKp (by decide)) ?_

theorem keeps_execClearReadDefectList {Kp : List Part} {K0 s : State} {who : Who} {n : LaneId} {value : Bytes} (hKp : [.sent, .reg, .keys, .dict, .conf, .log, .cal, .life, .lanes, .teams, .segs, .alert, .host, .mem, .cache, .pair, .work, .power, .fw, .sup, .ports] ⊆ Kp) (hK : Keeps Kp K0 s) :
    KeepsO Kp K0 (execClearReadDefectList who n value s) := by
  unfold execClearReadDefectList
  with_reducible repeat' first
    | assumption
    | refine KeepsO.next ?_
    | refine keeps_putEntry (subP hKp (by decide)) ?_

theorem keeps_execObserverSwitchRequest {Kp : List Part} {K0 s : State} {who : Who} {value : Bytes} (hKp : [.sent, .reg, .keys, .dict, .conf, .log, .cal, .life, .lanes, .teams, .segs, .alert, .host, .mem, .cache, .pair, .work, .power, .fw, .sup, .ports] ⊆ Kp) (hK : Keeps Kp K0 s) :
    KeepsO Kp K0 (execObserverSwitchRequest who value s) := by
  unfold execObserverSwitchRequest
  with_reducible repeat' first
    | assumption
    | refine KeepsO.next ?_
    | refine keeps_putEntry (subP hKp (by decide)) ?_

theorem keeps_execBiquadSwitchRequest {Kp : List Part} {K0 s : State} {who : Who} {value : Bytes} (hKp : [.sent, .reg, .keys, .dict, .conf, .log, .cal, .life, .lanes, .teams, .segs, .alert, .host, .mem, .cache, .pair, .work, .power, .fw, .sup, .ports] ⊆ Kp) (hK : Keeps Kp K0 s) :
    KeepsO Kp K0 (execBiquadSwitchRequest who value s) := by
  unfold execBiquadSwitchRequest
  with_reducible repeat' first
    | assumption
    | refine KeepsO.next ?_
    | refine keeps_putEntry (subP hKp (by decide)) ?_

theorem keeps_execObserverShadowWrite {Kp : List Part} {K0 s : State} {who : Who} {n : LaneId} {value : Bytes} (hKp : [.sent, .reg, .keys, .dict, .conf, .log, .cal, .life, .lanes, .teams, .segs, .alert, .host, .mem, .cache, .pair, .work, .power, .fw, .sup, .ports] ⊆ Kp) (hK : Keeps Kp K0 s) :
    KeepsO Kp K0 (execObserverShadowWrite who n value s) := by
  unfold execObserverShadowWrite
  with_reducible repeat' first
    | assumption
    | refine KeepsO.next ?_
    | refine keeps_putEntry (subP hKp (by decide)) ?_

theorem keeps_execBiquadShadowWrite {Kp : List Part} {K0 s : State} {who : Who} {n : LaneId} {value : Bytes} (hKp : [.sent, .reg, .keys, .dict, .conf, .log, .cal, .life, .lanes, .teams, .segs, .alert, .host, .mem, .cache, .pair, .work, .power, .fw, .sup, .ports] ⊆ Kp) (hK : Keeps Kp K0 s) :
    KeepsO Kp K0 (execBiquadShadowWrite who n value s) := by
  unfold execBiquadShadowWrite
  with_reducible repeat' first
    | assumption
    | refine KeepsO.next ?_
    | refine keeps_putEntry (subP hKp (by decide)) ?_

theorem keeps_execLibrarySlotWrite {Kp : List Part} {K0 s : State} {who : Who} {slot : Fin 16} {sub : Nat} {value : Bytes} (hKp : [.sent, .reg, .keys, .dict, .conf, .log, .cal, .life, .lanes, .teams, .segs, .alert, .host, .mem, .cache, .pair, .work, .power, .fw, .sup, .ports] ⊆ Kp) (hK : Keeps Kp K0 s) :
    KeepsO Kp K0 (execLibrarySlotWrite who slot sub value s) := by
  unfold execLibrarySlotWrite
  with_reducible repeat' first
    | assumption
    | refine KeepsO.next ?_
    | refine keeps_putEntry (subP hKp (by decide)) ?_

theorem keeps_execClearChopperFailure {Kp : List Part} {K0 s : State} {who : Who} {g : SegId} {value : Bytes} (hKp : [.sent, .reg, .keys, .dict, .conf, .log, .cal, .life, .lanes, .teams, .segs, .alert, .host, .mem, .cache, .pair, .work, .power, .fw, .sup, .ports] ⊆ Kp) (hK : Keeps Kp K0 s) :
    KeepsO Kp K0 (execClearChopperFailure who g value s) := by
  unfold execClearChopperFailure
  with_reducible repeat' first
    | assumption
    | refine KeepsO.next ?_
    | refine keeps_putEntry (subP hKp (by decide)) ?_

theorem keeps_execHostStride {Kp : List Part} {K0 s : State} {who : Who} {n : LaneId} {value : Bytes} (hKp : [.sent, .reg, .keys, .dict, .conf, .log, .cal, .life, .lanes, .teams, .segs, .alert, .host, .mem, .cache, .pair, .work, .power, .fw, .sup, .ports] ⊆ Kp) (hK : Keeps Kp K0 s) :
    KeepsO Kp K0 (execHostStride who n value s) := by
  unfold execHostStride
  with_reducible repeat' first
    | assumption
    | refine KeepsO.next ?_
    | refine keeps_putEntry (subP hKp (by decide)) ?_

theorem keeps_execHostStop {Kp : List Part} {K0 s : State} {who : Who} {n : LaneId} {value : Bytes} (hKp : [.sent, .reg, .keys, .dict, .conf, .log, .cal, .life, .lanes, .teams, .segs, .alert, .host, .mem, .cache, .pair, .work, .power, .fw, .sup, .ports] ⊆ Kp) (hK : Keeps Kp K0 s) :
    KeepsO Kp K0 (execHostStop who n value s) := by
  unfold execHostStop
  with_reducible repeat' first
    | assumption
    | refine KeepsO.next ?_
    | refine keeps_putEntry (subP hKp (by decide)) ?_

theorem keeps_execMicrostepTableWrite {Kp : List Part} {K0 s : State} {who : Who} {n : LaneId} {value : Bytes} (hKp : [.sent, .reg, .keys, .dict, .conf, .log, .cal, .life, .lanes, .teams, .segs, .alert, .host, .mem, .cache, .pair, .work, .power, .fw, .sup, .ports] ⊆ Kp) (hK : Keeps Kp K0 s) :
    KeepsO Kp K0 (execMicrostepTableWrite who n value s) := by
  unfold execMicrostepTableWrite
  with_reducible repeat' first
    | assumption
    | refine KeepsO.next ?_
    | refine keeps_putEntry (subP hKp (by decide)) ?_

theorem keeps_execRestoreDefaultTable {Kp : List Part} {K0 s : State} {who : Who} {n : LaneId} {value : Bytes} (hKp : [.sent, .reg, .keys, .dict, .conf, .log, .cal, .life, .lanes, .teams, .segs, .alert, .host, .mem, .cache, .pair, .work, .power, .fw, .sup, .ports] ⊆ Kp) (hK : Keeps Kp K0 s) :
    KeepsO Kp K0 (execRestoreDefaultTable who n value s) := by
  unfold execRestoreDefaultTable
  with_reducible repeat' first
    | assumption
    | refine KeepsO.next ?_
    | refine keeps_putEntry (subP hKp (by decide)) ?_

theorem keeps_execStartWarmUp {Kp : List Part} {K0 s : State} {who : Who} {n : LaneId} {value : Bytes} (hKp : [.sent, .reg, .keys, .dict, .conf, .log, .cal, .life, .lanes, .teams, .segs, .alert, .host, .mem, .cache, .pair, .work, .power, .fw, .sup, .ports] ⊆ Kp) (hK : Keeps Kp K0 s) :
    KeepsO Kp K0 (execStartWarmUp who n value s) := by
  unfold execStartWarmUp
  with_reducible repeat' first
    | assumption
    | refine KeepsO.next ?_
    | refine keeps_putEntry (subP hKp (by decide)) ?_

theorem keeps_execTrimSetRestore {Kp : List Part} {K0 s : State} {who : Who} {n : LaneId} {value : Bytes} (hKp : [.sent, .reg, .keys, .dict, .conf, .log, .cal, .life, .lanes, .teams, .segs, .alert, .host, .mem, .cache, .pair, .work, .power, .fw, .sup, .ports] ⊆ Kp) (hK : Keeps Kp K0 s) :
    KeepsO Kp K0 (execTrimSetRestore who n value s) := by
  unfold execTrimSetRestore
  with_reducible repeat' first
    | assumption
    | refine KeepsO.next ?_
    | refine keeps_putEntry (subP hKp (by decide)) ?_

theorem keeps_execTestOrderingWrite {Kp : List Part} {K0 s : State} {who : Who} {value : Bytes} (hKp : [.sent, .reg, .keys, .dict, .conf, .log, .cal, .life, .lanes, .teams, .segs, .alert, .host, .mem, .cache, .pair, .work, .power, .fw, .sup, .ports] ⊆ Kp) (hK : Keeps Kp K0 s) :
    KeepsO Kp K0 (execTestOrderingWrite who value s) := by
  unfold execTestOrderingWrite
  with_reducible repeat' first
    | assumption
    | refine KeepsO.next ?_
    | refine keeps_putEntry (subP hKp (by decide)) ?_

theorem keeps_execScrubModeWrite {Kp : List Part} {K0 s : State} {who : Who} {value : Bytes} (hKp : [.sent, .reg, .keys, .dict, .conf, .log, .cal, .life, .lanes, .teams, .segs, .alert, .host, .mem, .cache, .pair, .work, .power, .fw, .sup, .ports] ⊆ Kp) (hK : Keeps Kp K0 s) :
    KeepsO Kp K0 (execScrubModeWrite who value s) := by
  unfold execScrubModeWrite
  with_reducible repeat' first
    | assumption
    | refine KeepsO.next ?_
    | refine keeps_putEntry (subP hKp (by decide)) ?_

theorem keeps_execStartPass {Kp : List Part} {K0 s : State} {who : Who} {value : Bytes} (hKp : [.sent, .reg, .keys, .dict, .conf, .log, .cal, .life, .lanes, .teams, .segs, .alert, .host, .mem, .cache, .pair, .work, .power, .fw, .sup, .ports] ⊆ Kp) (hK : Keeps Kp K0 s) :
    KeepsO Kp K0 (execStartPass who value s) := by
  unfold execStartPass
  with_reducible repeat' first
    | assumption
    | refine KeepsO.next ?_
    | refine keeps_putEntry (subP hKp (by decide)) ?_

theorem keeps_execEndPass {Kp : List Part} {K0 s : State} {who : Who} {value : Bytes} (hKp : [.sent, .reg, .keys, .dict, .conf, .log, .cal, .life, .lanes, .teams, .segs, .alert, .host, .mem, .cache, .pair, .work, .power, .fw, .sup, .ports] ⊆ Kp) (hK : Keeps Kp K0 s) :
    KeepsO Kp K0 (execEndPass who value s) := by
  unfold execEndPass
  with_reducible repeat' first
    | assumption
    | refine KeepsO.next ?_
    | refine keeps_putEntry (subP hKp (by decide)) ?_

theorem keeps_execWayModeWrite {Kp : List Part} {K0 s : State} {who : Who} {value : Bytes} (hKp : [.sent, .reg, .keys, .dict, .conf, .log, .cal, .life, .lanes, .teams, .segs, .alert, .host, .mem, .cache, .pair, .work, .power, .fw, .sup, .ports] ⊆ Kp) (hK : Keeps Kp K0 s) :
    KeepsO Kp K0 (execWayModeWrite who value s) := by
  unfold execWayModeWrite
  with_reducible repeat' first
    | assumption
    | refine KeepsO.next ?_
    | refine keeps_putEntry (subP hKp (by decide)) ?_

theorem keeps_maintOrder {Kp : List Part} {K0 s : State} {op : Nat} {who : Who} {value : Bytes} (hKp : [.sent, .reg, .keys, .dict, .conf, .log, .cal, .life, .lanes, .teams, .segs, .alert, .host, .mem, .cache, .pair, .work, .power, .fw, .sup, .ports] ⊆ Kp) (hK : Keeps Kp K0 s) :
    Keeps Kp K0 (maintOrder op who value s) := by
  unfold maintOrder
  with_reducible repeat' first
    | assumption
    | refine keeps_putEntry (subP hKp (by decide)) ?_
    | refine Keeps.ite ?_ ?_

theorem keeps_execCacheClean {Kp : List Part} {K0 s : State} {who : Who} {value : Bytes} (hKp : [.sent, .reg, .keys, .dict, .conf, .log, .cal, .life, .lanes, .teams, .segs, .alert, .host, .mem, .cache, .pair, .work, .power, .fw, .sup, .ports] ⊆ Kp) (hK : Keeps Kp K0 s) :
    KeepsO Kp K0 (execCacheClean who value s) := by
  unfold execCacheClean
  with_reducible repeat' first
    | assumption
    | refine KeepsO.next ?_
    | refine keeps_maintOrder (subP hKp (by decide)) ?_

theorem keeps_execCacheInvalidate {Kp : List Part} {K0 s : State} {who : Who} {value : Bytes} (hKp : [.sent, .reg, .keys, .dict, .conf, .log, .cal, .life, .lanes, .teams, .segs, .alert, .host, .mem, .cache, .pair, .work, .power, .fw, .sup, .ports] ⊆ Kp) (hK : Keeps Kp K0 s) :
    KeepsO Kp K0 (execCacheInvalidate who value s) := by
  unfold execCacheInvalidate
  with_reducible repeat' first
    | assumption
    | refine KeepsO.next ?_
    | refine keeps_maintOrder (subP hKp (by decide)) ?_

theorem keeps_execCacheCleanInvalidate {Kp : List Part} {K0 s : State} {who : Who} {value : Bytes} (hKp : [.sent, .reg, .keys, .dict, .conf, .log, .cal, .life, .lanes, .teams, .segs, .alert, .host, .mem, .cache, .pair, .work, .power, .fw, .sup, .ports] ⊆ Kp) (hK : Keeps Kp K0 s) :
    KeepsO Kp K0 (execCacheCleanInvalidate who value s) := by
  unfold execCacheCleanInvalidate
  with_reducible repeat' first
    | assumption
    | refine KeepsO.next ?_
    | refine keeps_maintOrder (subP hKp (by decide)) ?_

theorem keeps_execCacheLoad {Kp : List Part} {K0 s : State} {who : Who} {value : Bytes} (hKp : [.sent, .reg, .keys, .dict, .conf, .log, .cal, .life, .lanes, .teams, .segs, .alert, .host, .mem, .cache, .pair, .work, .power, .fw, .sup, .ports] ⊆ Kp) (hK : Keeps Kp K0 s) :
    KeepsO Kp K0 (execCacheLoad who value s) := by
  unfold execCacheLoad
  with_reducible repeat' first
    | assumption
    | refine KeepsO.next ?_
    | refine keeps_maintOrder (subP hKp (by decide)) ?_

theorem keeps_execStartDrill {Kp : List Part} {K0 s : State} {who : Who} {value : Bytes} (hKp : [.sent, .reg, .keys, .dict, .conf, .log, .cal, .life, .lanes, .teams, .segs, .alert, .host, .mem, .cache, .pair, .work, .power, .fw, .sup, .ports] ⊆ Kp) (hK : Keeps Kp K0 s) :
    KeepsO Kp K0 (execStartDrill who value s) := by
  unfold execStartDrill
  with_reducible repeat' first
    | assumption
    | refine KeepsO.next ?_
    | refine keeps_putEntry (subP hKp (by decide)) ?_

theorem keeps_execUnitStateWrite {Kp : List Part} {K0 s : State} {who : Who} {value : Bytes} (hKp : [.sent, .reg, .keys, .dict, .conf, .log, .cal, .life, .lanes, .teams, .segs, .alert, .host, .mem, .cache, .pair, .work, .power, .fw, .sup, .ports] ⊆ Kp) (hK : Keeps Kp K0 s) :
    KeepsO Kp K0 (execUnitStateWrite who value s) := by
  unfold execUnitStateWrite
  with_reducible repeat' first
    | assumption
    | refine KeepsO.next ?_
    | refine keeps_putEntry (subP hKp (by decide)) ?_

theorem keeps_execOpenDownload {Kp : List Part} {K0 s : State} {who : Who} {value : Bytes} (hKp : [.sent, .reg, .keys, .dict, .conf, .log, .cal, .life, .lanes, .teams, .segs, .alert, .host, .mem, .cache, .pair, .work, .power, .fw, .sup, .ports] ⊆ Kp) (hK : Keeps Kp K0 s) :
    KeepsO Kp K0 (execOpenDownload who value s) := by
  unfold execOpenDownload
  with_reducible repeat' first
    | assumption
    | refine KeepsO.next ?_
    | refine keeps_putEntry (subP hKp (by decide)) ?_

theorem keeps_execChunk {Kp : List Part} {K0 s : State} {who : Who} {value : Bytes} (hKp : [.sent, .reg, .keys, .dict, .conf, .log, .cal, .life, .lanes, .teams, .segs, .alert, .host, .mem, .cache, .pair, .work, .power, .fw, .sup, .ports] ⊆ Kp) (hK : Keeps Kp K0 s) :
    KeepsO Kp K0 (execChunk who value s) := by
  unfold execChunk
  with_reducible repeat' first
    | assumption
    | refine KeepsO.next ?_
    | refine keeps_putEntry (subP hKp (by decide)) ?_

theorem keeps_execAbandonDownload {Kp : List Part} {K0 s : State} {who : Who} {value : Bytes} (hKp : [.sent, .reg, .keys, .dict, .conf, .log, .cal, .life, .lanes, .teams, .segs, .alert, .host, .mem, .cache, .pair, .work, .power, .fw, .sup, .ports] ⊆ Kp) (hK : Keeps Kp K0 s) :
    KeepsO Kp K0 (execAbandonDownload who value s) := by
  unfold execAbandonDownload
  with_reducible repeat' first
    | assumption
    | refine KeepsO.next ?_
    | refine keeps_putEntry (subP hKp (by decide)) ?_

theorem keeps_execActivate {Kp : List Part} {K0 s : State} {who : Who} {value : Bytes} {peerHolds : Bool} (hKp : [.sent, .reg, .keys, .dict, .conf, .log, .cal, .life, .lanes, .teams, .segs, .alert, .host, .mem, .cache, .pair, .work, .power, .fw, .sup, .ports] ⊆ Kp) (hK : Keeps Kp K0 s) :
    KeepsO Kp K0 (execActivate who value peerHolds s) := by
  unfold execActivate
  with_reducible repeat' first
    | assumption
    | refine KeepsO.next ?_
    | refine keeps_putEntryWith (subP hKp (by decide)) ?_

theorem keeps_execCommitTrial {Kp : List Part} {K0 s : State} {who : Who} {value : Bytes} (hKp : [.sent, .reg, .keys, .dict, .conf, .log, .cal, .life, .lanes, .teams, .segs, .alert, .host, .mem, .cache, .pair, .work, .power, .fw, .sup, .ports] ⊆ Kp) (hK : Keeps Kp K0 s) :
    KeepsO Kp K0 (execCommitTrial who value s) := by
  unfold execCommitTrial
  with_reducible repeat' first
    | assumption
    | refine KeepsO.next ?_
    | refine keeps_putEntry (subP hKp (by decide)) ?_

theorem keeps_execSetCalendar {Kp : List Part} {K0 s : State} {who : Who} {value : Bytes} (hKp : [.sent, .reg, .keys, .dict, .conf, .log, .cal, .life, .lanes, .teams, .segs, .alert, .host, .mem, .cache, .pair, .work, .power, .fw, .sup, .ports] ⊆ Kp) (hK : Keeps Kp K0 s) :
    KeepsO Kp K0 (execSetCalendar who value s) := by
  unfold execSetCalendar
  with_reducible repeat' first
    | assumption
    | refine KeepsO.next ?_
    | refine keeps_putEntry (subP hKp (by decide)) ?_

theorem keeps_execSetPpsTime {Kp : List Part} {K0 s : State} {who : Who} {value : Bytes} (hKp : [.sent, .reg, .keys, .dict, .conf, .log, .cal, .life, .lanes, .teams, .segs, .alert, .host, .mem, .cache, .pair, .work, .power, .fw, .sup, .ports] ⊆ Kp) (hK : Keeps Kp K0 s) :
    KeepsO Kp K0 (execSetPpsTime who value s) := by
  unfold execSetPpsTime
  with_reducible repeat' first
    | assumption
    | refine KeepsO.next ?_
    | refine keeps_putEntry (subP hKp (by decide)) ?_

theorem keeps_execClearAlert {Kp : List Part} {K0 s : State} {who : Who} {value : Bytes} (hKp : [.sent, .reg, .keys, .dict, .conf, .log, .cal, .life, .lanes, .teams, .segs, .alert, .host, .mem, .cache, .pair, .work, .power, .fw, .sup, .ports] ⊆ Kp) (hK : Keeps Kp K0 s) :
    KeepsO Kp K0 (execClearAlert who value s) := by
  unfold execClearAlert
  with_reducible repeat' first
    | assumption
    | refine KeepsO.next ?_
    | refine keeps_putEntry (subP hKp (by decide)) ?_

theorem keeps_compareWords {Kp : List Part} {K0 s : State} {word : Nat} (hKp : [.sent, .dict, .log, .life, .alert, .work] ⊆ Kp) (hK : Keeps Kp K0 s) :
    Keeps Kp K0 (compareWords word s) := by
  unfold compareWords
  with_reducible repeat' first
    | assumption
    | refine keeps_arm (subP hKp (by decide)) ?_
    | refine keeps_disarm (subP hKp (by decide)) ?_
    | refine Keeps.ite ?_ ?_
    | exact .inl rfl
    | exact .inr (memP hKp (by decide))
    | exact id
    | split
    | apply Keeps.upd

theorem keeps_configIn {Kp : List Part} {K0 s : State} {f : BatonIn} (hKp : [.sent, .reg, .keys, .dict, .conf, .log, .cal, .life, .lanes, .teams, .segs, .alert, .host, .mem, .cache, .pair, .work, .power, .fw, .sup, .ports] ⊆ Kp) (hK : Keeps Kp K0 s) :
    Keeps Kp K0 (configIn f s) := by
  unfold configIn
  with_reducible repeat' first
    | assumption
    | refine Keeps.now (by assumption) ?_
    | refine Keeps.later (by assumption) ?_
    | refine keeps_requestPower (subP hKp (by decide)) ?_
    | refine keeps_actBegin (subP hKp (by decide)) ?_
    | refine keeps_countChange (subP hKp (by decide)) ?_
    | refine keeps_serve (subP hKp (by decide)) ?_
    | refine keeps_sendAck (subP hKp (by decide)) ?_
    | refine keeps_compareWords (subP hKp (by decide)) ?_
    | refine Keeps.ite ?_ ?_
    | exact .inl rfl
    | exact .inr (memP hKp (by decide))
    | exact id
    | split
    | apply Keeps.upd

theorem keeps_execConfig {Kp : List Part} {K0 s : State} {frame : Bytes} (hKp : [.sent, .reg, .keys, .dict, .conf, .log, .cal, .life, .lanes, .teams, .segs, .alert, .host, .mem, .cache, .pair, .work, .power, .fw, .sup, .ports] ⊆ Kp) (hK : Keeps Kp K0 s) :
    KeepsO Kp K0 (execConfig frame s) := by
  unfold execConfig
  with_reducible repeat' first
    | assumption
    | refine KeepsO.next ?_
    | (intro _; try intros)
    | refine keeps_batonReceive (subP hKp (by decide)) ?_ ?_
    | refine keeps_configIn (subP hKp (by decide)) ?_

end Sys2Proof.Machine
end

