-- ==== Sys2Proof/Laws/KeepsOrders.lean ====
section
/-! SUPPORT. What the operations of Orders.lean keep. -/

namespace Sys2Proof.Machine

set_option linter.unusedTactic false
set_option linter.unreachableTactic false
set_option linter.unusedVariables false

theorem keeps_applyOrder {Kp : List Part} {K0 s : State} {n : LaneId} {y0 : Order} (hKp : [.sent, .reg, .dict, .log, .life, .lanes, .teams, .alert, .core, .mem, .cache, .ports] ⊆ Kp) (hK : Keeps Kp K0 s) :
    Keeps Kp K0 (applyOrder n s y0) := by
  cases y0
  all_goals
    unfold applyOrder
    with_reducible repeat' first
      | assumption
      | refine keeps_strideAccept (subP hKp (by decide)) ?_
      | refine keeps_setLane (subP hKp (by decide)) ?_
      | refine keeps_beginStart (subP hKp (by decide)) ?_
      | refine keeps_raiseSupply (subP hKp (by decide)) ?_
      | refine keeps_rampStart (subP hKp (by decide)) ?_
      | refine keeps_beginJob (subP hKp (by decide)) ?_
      | refine keeps_startPass (subP hKp (by decide)) ?_
      | refine Keeps.ite ?_ ?_
      | split

theorem keeps_orderTakeUp {Kp : List Part} {K0 s : State} {n : LaneId} {b : Boundary} (hKp : [.sent, .reg, .dict, .log, .life, .lanes, .teams, .alert, .core, .mem, .cache, .ports] ⊆ Kp) (hK : Keeps Kp K0 s) :
    Keeps Kp K0 (orderTakeUp n b s) := by
  unfold orderTakeUp
  with_reducible repeat' first
    | assumption
    | refine keeps_applyOrder (subP hKp (by decide)) ?_
    | refine keeps_takeOrder (subP hKp (by decide)) ?_
    | refine Keeps.ite ?_ ?_
    | split

theorem keeps_execOrderTakeUp {Kp : List Part} {K0 s : State} {n : LaneId} {b : Boundary} (hKp : [.sent, .reg, .dict, .log, .life, .lanes, .teams, .alert, .core, .mem, .cache, .ports] ⊆ Kp) (hK : Keeps Kp K0 s) :
    KeepsO Kp K0 (execOrderTakeUp n b s) := by
  unfold execOrderTakeUp
  with_reducible repeat' first
    | assumption
    | refine KeepsO.next ?_
    | refine keeps_orderTakeUp (subP hKp (by decide)) ?_

end Sys2Proof.Machine
end

