-- ==== Sys2Proof/Laws/LaneKeeps.lean ====
section
/-! SUPPORT. What an operation on a lane keeps: every other lane, and the parts of its own lane that it does not name. -/

namespace Sys2Proof.Machine

/-- From `s` to `t` every lane but `n` stands, and of lane `n` only the parts of `q` may differ. -/
structure LK (n : LaneId) (q : List LanePart) (s t : State) : Prop where
  own : ∀ x, x ∉ q → x.same s.lanes[n] t.lanes[n]
  others : ∀ m : LaneId, m ≠ n → t.lanes[m] = s.lanes[m]

theorem LanePart.same_refl (x : LanePart) (l : Lane) : x.same l l := by cases x <;> rfl

theorem LanePart.same_trans {x : LanePart} {a b c : Lane} (h : x.same a b) (k : x.same b c) : x.same a c := by
  cases x <;> simp only [LanePart.same] at * <;> first
    | exact k.trans h
    | (rw [k, h])

theorem LK.refl (n : LaneId) (q : List LanePart) (s : State) : LK n q s s := ⟨fun x _ => x.same_refl _, fun _ _ => rfl⟩

theorem LK.trans {n : LaneId} {q : List LanePart} {s t u : State} (h : LK n q s t) (k : LK n q t u) : LK n q s u :=
  ⟨fun x hx => LanePart.same_trans (h.own x hx) (k.own x hx), fun m hm => (k.others m hm).trans (h.others m hm)⟩

/-- The lanes stand altogether. -/
theorem LK.eq {n : LaneId} {q : List LanePart} {s t u : State} (e : u.lanes = t.lanes) (h : LK n q s t) : LK n q s u := by
  refine ⟨fun x hx => ?_, fun m hm => ?_⟩
  · rw [e]; exact h.own x hx
  · rw [e]; exact h.others m hm

/-- An operation that leaves the lanes alone. -/
theorem LK.keep {n : LaneId} {q : List LanePart} {p : List Part} {s t u : State} (k : Keeps p t u) (hp : p.contains .lanes = false)
    (h : LK n q s t) : LK n q s u :=
  .eq (k.frame .lanes (fun c => by simp [c] at hp)) h

/-- Lane parts named within lane parts named. -/
theorem subL {p q r : List LanePart} (hp : r ⊆ p) (h : q.all (fun x => r.contains x) = true) : q ⊆ p := by
  intro x hx
  have := List.all_eq_true.mp h x hx
  exact hp (by simpa using this)

theorem memL {r p : List LanePart} {x : LanePart} (hp : r ⊆ p) (h : r.contains x = true) : x ∈ p := hp (by simpa using h)

/-- The lane changed in named parts. -/
theorem LK.set {n : LaneId} {q : List LanePart} {s t : State} {f : Lane → Lane} (hf : ∀ l x, x ∉ q → x.same l (f l)) (h : LK n q s t) :
    LK n q s (setLane n f t) := by
  refine h.trans ⟨fun x hx => ?_, fun m hm => ?_⟩
  · have : (setLane n f t).lanes[n] = f t.lanes[n] := by simp [setLane, vecModify]
    rw [this]; exact hf _ x hx
  · have : n.val ≠ m.val := fun e => hm (Fin.ext e.symm)
    simp [setLane, vecModify, this]

theorem LK.upd {n : LaneId} {q : List LanePart} {s0 s : State} {w1 w2 v1 v2 v3 v4 v5 v6 v7 vp v9 v10 v11 v12 v13 v14 v15 v16 v17 v18 v19 v20 v21 v22 v23}
    (h : LK n q s0 s) :
    LK n q s0 (State.mk w1 w2 v1 v2 v3 v4 v5 v6 v7 s.lanes vp v9 v10 v11 v12 v13 v14 v15 v16 v17 v18 v19 v20 v21 v22 v23) := .eq (t := s) rfl h

theorem LK.ite {n : LaneId} {q : List LanePart} {s0 a b : State} {c : Prop} [Decidable c] (h : LK n q s0 a) (k : LK n q s0 b) :
    LK n q s0 (if c then a else b) := by split <;> assumption

theorem LK.elim {α : Type} {n : LaneId} {q : List LanePart} {s0 a : State} {o : Option α} {f : α → State} (h : LK n q s0 a)
    (k : ∀ x, LK n q s0 (f x)) : LK n q s0 (o.elim a f) := by
  cases o with
  | none => exact h
  | some x => exact k x

theorem LK.foldl {α : Type} {n : LaneId} {q : List LanePart} {s0 : State} (f : State → α → State) :
    ∀ (l : List α) (s : State), (∀ a x, LK n q s0 a → LK n q s0 (f a x)) → LK n q s0 s → LK n q s0 (l.foldl f s)
  | [], _, _, h => h
  | x :: l, s, hf, h => LK.foldl f l (f s x) hf (hf s x h)

theorem LK.fold2 {α β : Type} {n : LaneId} {q : List LanePart} {s0 : State} (f : β × State → α → β × State) (l : List α) (b : β × State)
    (hf : ∀ b x, LK n q s0 b.2 → LK n q s0 (f b x).2) (h : LK n q s0 b.2) : LK n q s0 (l.foldl f b).2 := by
  induction l generalizing b with
  | nil => exact h
  | cons x l ih => exact ih _ (hf b x h)

theorem LK.snd {α : Type} {n : LaneId} {q : List LanePart} {s0 t : State} {e : α × State} {a : α} (h : e = (a, t)) (k : LK n q s0 e.2) :
    LK n q s0 t := by subst h; exact k

theorem LK.snd2 {α β : Type} {n : LaneId} {q : List LanePart} {s0 t : State} {e : α × β × State} {a : α} {b : β} (h : e = (a, b, t))
    (k : LK n q s0 e.2.2) : LK n q s0 t := by subst h; exact k

theorem LK.fst {α : Type} {n : LaneId} {q : List LanePart} {s0 t : State} {e : State × α} {a : α} (h : e = (t, a)) (k : LK n q s0 e.1) :
    LK n q s0 t := by subst h; exact k

/-- Every next state of an outcome is kept. -/
def LKO (n : LaneId) (q : List LanePart) (s0 : State) (o : Host.Outcome State Fault Refusal) : Prop := ∀ r, o = .next r → LK n q s0 r

theorem LKO.next {n : LaneId} {q : List LanePart} {s0 t : State} (h : LK n q s0 t) : LKO n q s0 (.next t) := fun _ e => by
  injection e with e; exact e ▸ h

theorem LKO.ite {n : LaneId} {q : List LanePart} {s0 : State} {a b : Host.Outcome State Fault Refusal} {c : Prop} [Decidable c]
    (h : LKO n q s0 a) (k : LKO n q s0 b) : LKO n q s0 (if c then a else b) := by split <;> assumption

/-- Every state that an effect answers is kept. -/
def LKE {α : Type} (n : LaneId) (q : List LanePart) (s0 : State) (o : Except α State) : Prop := ∀ r, o = .ok r → LK n q s0 r

theorem LKE.ok {α : Type} {n : LaneId} {q : List LanePart} {s0 t : State} (h : LK n q s0 t) : LKE (α := α) n q s0 (.ok t) := fun _ e => by
  injection e with e; exact e ▸ h

theorem LKE.error {α : Type} {n : LaneId} {q : List LanePart} {s0 : State} {e : α} : LKE n q s0 (.error e) := fun _ e => by injection e

theorem LKE.ite {α : Type} {n : LaneId} {q : List LanePart} {s0 : State} {a b : Except α State} {c : Prop} [Decidable c]
    (h : LKE n q s0 a) (k : LKE n q s0 b) : LKE n q s0 (if c then a else b) := by split <;> assumption

theorem LKE.map {α : Type} {n : LaneId} {q : List LanePart} {s0 : State} {e : Except α State} {f : State → State} (h : LKE n q s0 e)
    (k : ∀ t, LK n q s0 t → LK n q s0 (f t)) : LKE n q s0 (e.map f) := by
  intro r he
  cases e with
  | error e => injection he
  | ok t => injection he with he; exact he ▸ k t (h t rfl)

theorem LKE.keep {α : Type} {n : LaneId} {q : List LanePart} {p : List Part} {s t : State} {e : Except α State} (k : KeepsE p t e)
    (hp : p.contains .lanes = false) (h : LK n q s t) : LKE n q s e := fun r he => .keep (k r he) hp h

theorem LK.of {α : Type} {n : LaneId} {q : List LanePart} {s0 t : State} {e : Except α State} (h : e = .ok t) (k : LKE n q s0 e) :
    LK n q s0 t := k t h

end Sys2Proof.Machine
end

