-- ==== Sys2Proof/Laws/LaneOpsLaws.lean ====
section
/-! SUPPORT. What the operations of Ops.lean on a lane keep of it and of the other lanes. -/

namespace Sys2Proof.Machine

set_option linter.unusedTactic false
set_option linter.unreachableTactic false
set_option linter.unusedVariables false


theorem lk_postCompletion {Lq : List LanePart} {K0 : State} {n : LaneId} {s : State} {c : Completion} (hq : [.flt] ⊆ Lq) (hK : LK n Lq K0 s) :
    LK n Lq K0 (postCompletion n c s) := by
  unfold postCompletion
  with_reducible repeat' first
    | assumption
    | refine LK.set ?_ ?_
    | (intro l x hx; cases x <;> with_unfolding_all first | exact absurd (memL hq (by decide)) hx | exact rfl | (dsimp only [LanePart.same]; (repeat' split) <;> rfl))

theorem lk_collect {Lq : List LanePart} {K0 : State} {n : LaneId} {s : State}  (hq : [.flt] ⊆ Lq) (hK : LK n Lq K0 s) :
    LK n Lq K0 (collect n s) := by
  unfold collect
  with_reducible repeat' first
    | assumption
    | refine LK.set ?_ ?_
    | (intro l x hx; cases x <;> with_unfolding_all first | exact absurd (memL hq (by decide)) hx | exact rfl | (dsimp only [LanePart.same]; (repeat' split) <;> rfl))

theorem lk_postOrder {Lq : List LanePart} {K0 : State} {n : LaneId} {s : State} {o : Order} (hq : [.flt] ⊆ Lq) (hK : LK n Lq K0 s) :
    LK n Lq K0 (postOrder n o s) := by
  unfold postOrder
  with_reducible repeat' first
    | assumption
    | refine LK.set ?_ ?_
    | (intro l x hx; cases x <;> with_unfolding_all first | exact absurd (memL hq (by decide)) hx | exact rfl | (dsimp only [LanePart.same]; (repeat' split) <;> rfl))

theorem lk_takeOrder {Lq : List LanePart} {K0 : State} {n : LaneId} {s : State} {o : Order} (hq : [.flt] ⊆ Lq) (hK : LK n Lq K0 s) :
    LK n Lq K0 (takeOrder n o s) := by
  unfold takeOrder
  with_reducible repeat' first
    | assumption
    | refine LK.set ?_ ?_
    | (intro l x hx; cases x <;> with_unfolding_all first | exact absurd (memL hq (by decide)) hx | exact rfl | (dsimp only [LanePart.same]; (repeat' split) <;> rfl))
    | refine lk_postCompletion (subL hq (by decide)) ?_

theorem lk_orderNow {Lq : List LanePart} {K0 : State} {n : LaneId} {s : State} {o : Order} {f : State → State} (hq : [.flt] ⊆ Lq) (hK : LK n Lq K0 s) (hk : ∀ q, LK n Lq K0 q → LK n Lq K0 (f q)) :
    LK n Lq K0 (orderNow n o f s) := by
  unfold orderNow
  with_reducible repeat' first
    | assumption
    | refine lk_postOrder (subL hq (by decide)) ?_
    | refine lk_collect (subL hq (by decide)) ?_
    | refine lk_takeOrder (subL hq (by decide)) ?_
    | refine LK.ite ?_ ?_
    | apply hk

theorem lk_enter {Lq : List LanePart} {K0 : State} {n : LaneId} {s : State} {st : LaneState} (hq : [.st, .life] ⊆ Lq) (hK : LK n Lq K0 s) :
    LK n Lq K0 (enter n st s) := by
  unfold enter
  with_reducible repeat' first
    | assumption
    | refine LK.set ?_ ?_
    | (intro l x hx; cases x <;> with_unfolding_all first | exact absurd (memL hq (by decide)) hx | exact rfl | (dsimp only [LanePart.same]; (repeat' split) <;> rfl))
    | refine LK.ite ?_ ?_

theorem lk_setClosed {Lq : List LanePart} {K0 : State} {n : LaneId} {s : State} {f : Bool} {t : Bool} {k : Bool} (hq : [.loop] ⊆ Lq) (hK : LK n Lq K0 s) :
    LK n Lq K0 (setClosed n f t k s) := by
  unfold setClosed
  with_reducible repeat' first
    | assumption
    | refine LK.set ?_ ?_
    | (intro l x hx; cases x <;> with_unfolding_all first | exact absurd (memL hq (by decide)) hx | exact rfl | (dsimp only [LanePart.same]; (repeat' split) <;> rfl))

end Sys2Proof.Machine
end

