-- ==== Sys2Proof/Laws/LaneLaserLaws.lean ====
section
/-! SUPPORT. What the operations of Laser.lean on a lane keep of it and of the other lanes. -/

namespace Sys2Proof.Machine

set_option linter.unusedTactic false
set_option linter.unreachableTactic false
set_option linter.unusedVariables false

theorem lk_releasePowers {Lq : List LanePart} {K0 : State} {n : LaneId} {s : State} {fresh : Bool} (hq : [.loop, .plife] ⊆ Lq) (hK : LK n Lq K0 s) :
    LK n Lq K0 (releasePowers n fresh s) := by
  unfold releasePowers
  with_reducible repeat' first
    | assumption
    | refine LK.set ?_ ?_
    | (intro l x hx; cases x <;> with_unfolding_all first | exact absurd (memL hq (by decide)) hx | exact rfl | (dsimp only [LanePart.same, countLaser]; (repeat' split) <;> rfl))
    | refine LK.keep (u := sendPowers _ _ _) (keeps_sendPowers (List.Subset.refl _) (.refl _ _)) (by decide) ?_
    | refine LK.ite ?_ ?_

end Sys2Proof.Machine
end

