-- ==== Sys2Proof/Laws/LaneSledLaws.lean ====
section
/-! SUPPORT. What the operations of Sled.lean on a lane keep of it and of the other lanes. -/

namespace Sys2Proof.Machine

set_option linter.unusedTactic false
set_option linter.unreachableTactic false
set_option linter.unusedVariables false

theorem lk_foldCascade {Lq : List LanePart} {K0 : State} {n : LaneId} {s : State}  (hq : [.loop, .sled] ⊆ Lq) (hK : LK n Lq K0 s) :
    LK n Lq K0 (foldCascade n s) := by
  unfold foldCascade
  with_reducible repeat' first
    | assumption
    | refine LK.set ?_ ?_
    | (intro l x hx; cases x <;> with_unfolding_all first | exact absurd (memL hq (by decide)) hx | exact rfl | (dsimp only [LanePart.same]; (repeat' split) <;> rfl))

theorem lk_gearEngage {Lq : List LanePart} {K0 : State} {n : LaneId} {s : State}  (hq : [.sled] ⊆ Lq) (hK : LK n Lq K0 s) :
    LK n Lq K0 (gearEngage n s) := by
  unfold gearEngage
  with_reducible repeat' first
    | assumption
    | refine LK.set ?_ ?_
    | (intro l x hx; cases x <;> with_unfolding_all first | exact absurd (memL hq (by decide)) hx | exact rfl | (dsimp only [LanePart.same]; (repeat' split) <;> rfl))

theorem lk_gearDisengage {Lq : List LanePart} {K0 : State} {n : LaneId} {s : State}  (hq : [.loop, .sled] ⊆ Lq) (hK : LK n Lq K0 s) :
    LK n Lq K0 (gearDisengage n s) := by
  unfold gearDisengage
  with_reducible repeat' first
    | assumption
    | refine LK.set ?_ ?_
    | (intro l x hx; cases x <;> with_unfolding_all first | exact absurd (memL hq (by decide)) hx | exact rfl | (dsimp only [LanePart.same]; (repeat' split) <;> rfl))
    | refine lk_foldCascade (subL hq (by decide)) ?_
    | refine LK.ite ?_ ?_

theorem lk_openTracking {Lq : List LanePart} {K0 : State} {n : LaneId} {s : State}  (hq : [.loop, .sled] ⊆ Lq) (hK : LK n Lq K0 s) :
    LK n Lq K0 (openTracking n s) := by
  unfold openTracking
  with_reducible repeat' first
    | assumption
    | refine LK.set ?_ ?_
    | (intro l x hx; cases x <;> with_unfolding_all first | exact absurd (memL hq (by decide)) hx | exact rfl | (dsimp only [LanePart.same]; (repeat' split) <;> rfl))
    | refine lk_gearDisengage (subL hq (by decide)) ?_

theorem lk_openFocus {Lq : List LanePart} {K0 : State} {n : LaneId} {s : State}  (hq : [.loop, .sled] ⊆ Lq) (hK : LK n Lq K0 s) :
    LK n Lq K0 (openFocus n s) := by
  unfold openFocus
  with_reducible repeat' first
    | assumption
    | refine LK.set ?_ ?_
    | (intro l x hx; cases x <;> with_unfolding_all first | exact absurd (memL hq (by decide)) hx | exact rfl | (dsimp only [LanePart.same]; (repeat' split) <;> rfl))
    | refine lk_openTracking (subL hq (by decide)) ?_

theorem lk_strideComplete {Lq : List LanePart} {K0 : State} {n : LaneId} {s : State} {r : Stride} (hq : [.flt, .sled] ⊆ Lq) (hK : LK n Lq K0 s) :
    LK n Lq K0 (strideComplete n r s) := by
  unfold strideComplete
  with_reducible repeat' first
    | assumption
    | refine LK.set ?_ ?_
    | (intro l x hx; cases x <;> with_unfolding_all first | exact absurd (memL hq (by decide)) hx | exact rfl | (dsimp only [LanePart.same]; (repeat' split) <;> rfl))
    | refine lk_postCompletion (subL hq (by decide)) ?_
    | refine LK.keep (u := lbump _ _ _ _ _ _) (keeps_lbump (List.Subset.refl _) (.refl _ _)) (by decide) ?_
    | refine LK.ite ?_ ?_

theorem lk_strideDrop {Lq : List LanePart} {K0 : State} {n : LaneId} {s : State} {st : Nat} {y0 : List Stride} (hq : [.flt, .sled] ⊆ Lq) (hK : LK n Lq K0 s) :
    LK n Lq K0 (strideDrop n st y0 s) := by
  induction y0 generalizing s with
  | nil => exact hK
  | cons a l ih =>
    unfold strideDrop
    with_reducible repeat' first
      | assumption
      | refine ih ?_
      | refine lk_strideComplete (subL hq (by decide)) ?_

theorem lk_strideStart {Lq : List LanePart} {K0 : State} {n : LaneId} {s : State}  (hq : [.loop, .sled] ⊆ Lq) (hK : LK n Lq K0 s) :
    LK n Lq K0 (strideStart n s) := by
  unfold strideStart
  with_reducible repeat' first
    | assumption
    | refine LK.set ?_ ?_
    | (intro l x hx; cases x <;> with_unfolding_all first | exact absurd (memL hq (by decide)) hx | exact rfl | (dsimp only [LanePart.same]; (repeat' split) <;> rfl))
    | refine lk_foldCascade (subL hq (by decide)) ?_

theorem lk_strideAccept {Lq : List LanePart} {K0 : State} {n : LaneId} {s : State} {r : Stride} (hq : [.flt, .loop, .sled] ⊆ Lq) (hK : LK n Lq K0 s) :
    LK n Lq K0 (strideAccept n r s) := by
  unfold strideAccept
  with_reducible repeat' first
    | assumption
    | refine LK.set ?_ ?_
    | (intro l x hx; cases x <;> with_unfolding_all first | exact absurd (memL hq (by decide)) hx | exact rfl | (dsimp only [LanePart.same]; (repeat' split) <;> rfl))
    | refine lk_strideComplete (subL hq (by decide)) ?_
    | refine lk_strideStart (subL hq (by decide)) ?_
    | refine lk_strideDrop (subL hq (by decide)) ?_
    | refine LK.ite ?_ ?_

theorem lk_sledStop {Lq : List LanePart} {K0 : State} {n : LaneId} {s : State}  (hq : [.flt, .sled] ⊆ Lq) (hK : LK n Lq K0 s) :
    LK n Lq K0 (sledStop n s) := by
  unfold sledStop
  extract_lets
  with_reducible repeat' first
    | assumption
    | refine LK.set ?_ ?_
    | (intro l x hx; cases x <;> with_unfolding_all first | exact absurd (memL hq (by decide)) hx | exact rfl | (dsimp only [LanePart.same]; (repeat' split) <;> rfl))
    | refine lk_strideDrop (subL hq (by decide)) ?_
    | refine LK.ite ?_ ?_
    | split

theorem lk_shortBrake {Lq : List LanePart} {K0 : State} {n : LaneId} {s : State}  (hq : [.spin] ⊆ Lq) (hK : LK n Lq K0 s) :
    LK n Lq K0 (shortBrake n s) := by
  unfold shortBrake
  with_reducible repeat' first
    | assumption
    | refine LK.set ?_ ?_
    | (intro l x hx; cases x <;> with_unfolding_all first | exact absurd (memL hq (by decide)) hx | exact rfl | (dsimp only [LanePart.same]; (repeat' split) <;> rfl))
    | refine LK.keep (u := lbump _ _ _ _ _ _) (keeps_lbump (List.Subset.refl _) (.refl _ _)) (by decide) ?_

theorem lk_floatBridge {Lq : List LanePart} {K0 : State} {n : LaneId} {s : State} {phase : Nat} (hq : [.spin] ⊆ Lq) (hK : LK n Lq K0 s) :
    LK n Lq K0 (floatBridge n phase s) := by
  unfold floatBridge
  with_reducible repeat' first
    | assumption
    | refine LK.set ?_ ?_
    | (intro l x hx; cases x <;> with_unfolding_all first | exact absurd (memL hq (by decide)) hx | exact rfl | (dsimp only [LanePart.same]; (repeat' split) <;> rfl))

theorem lk_rampStart {Lq : List LanePart} {K0 : State} {n : LaneId} {s : State} {park : Bool} (hq : [.life, .flt, .loop, .spin, .sled, .waiting] ⊆ Lq) (hK : LK n Lq K0 s) :
    LK n Lq K0 (rampStart n park s) := by
  unfold rampStart
  with_reducible repeat' first
    | assumption
    | refine LK.set ?_ ?_
    | (intro l x hx; cases x <;> with_unfolding_all first | exact absurd (memL hq (by decide)) hx | exact rfl | (dsimp only [LanePart.same]; (repeat' split) <;> rfl))
    | refine lk_openFocus (subL hq (by decide)) ?_
    | refine lk_strideAccept (subL hq (by decide)) ?_
    | refine lk_shortBrake (subL hq (by decide)) ?_
    | refine LK.ite ?_ ?_

theorem lk_rampOrder {Lq : List LanePart} {K0 : State} {n : LaneId} {s : State}  (hq : [.life, .flt, .loop, .spin, .sled, .waiting] ⊆ Lq) (hK : LK n Lq K0 s) :
    LK n Lq K0 (rampOrder n s) := by
  unfold rampOrder
  with_reducible repeat' first
    | assumption
    | (intro _; try intros)
    | refine lk_orderNow (subL hq (by decide)) ?_ ?_
    | refine lk_rampStart (subL hq (by decide)) ?_

theorem lk_faultSpindle {Lq : List LanePart} {K0 : State} {n : LaneId} {s : State} {code : Nat} (hq : [.life, .flt, .loop, .spin, .sled, .waiting] ⊆ Lq) (hK : LK n Lq K0 s) :
    LK n Lq K0 (faultSpindle n code s) := by
  unfold faultSpindle
  with_reducible repeat' first
    | assumption
    | refine lk_shortBrake (subL hq (by decide)) ?_
    | refine lk_rampStart (subL hq (by decide)) ?_
    | refine LK.ite ?_ ?_

theorem lk_detectFault {Lq : List LanePart} {K0 : State} {n : LaneId} {s : State} {code : Nat} (hq : [.life, .flt, .loop, .spin, .sled, .wr, .waiting] ⊆ Lq) (hK : LK n Lq K0 s) :
    LK n Lq K0 (detectFault n code s) := by
  unfold detectFault
  with_reducible repeat' first
    | assumption
    | refine LK.set ?_ ?_
    | (intro l x hx; cases x <;> with_unfolding_all first | exact absurd (memL hq (by decide)) hx | exact rfl | (dsimp only [LanePart.same]; (repeat' split) <;> rfl))
    | refine LK.keep (u := safeLaser _ _) (keeps_safeLaser (List.Subset.refl _) (.refl _ _)) (by decide) ?_
    | refine lk_sledStop (subL hq (by decide)) ?_
    | refine lk_openFocus (subL hq (by decide)) ?_
    | refine lk_openTracking (subL hq (by decide)) ?_
    | refine lk_postCompletion (subL hq (by decide)) ?_
    | refine lk_faultSpindle (subL hq (by decide)) ?_
    | refine LK.ite ?_ ?_

theorem lk_profileRun {Lq : List LanePart} {K0 : State} {n : LaneId} {s : State} {y0 : Nat} {y1 : Nat} (hq : [.flt, .loop, .sled] ⊆ Lq) (hK : LK n Lq K0 s) :
    LK n Lq K0 (profileRun n y0 y1 s) := by
  induction y0 generalizing y1 s with
  | zero => exact hK
  | succ n ih =>
    unfold profileRun
    extract_lets
    with_reducible repeat' first
      | assumption
      | refine ih ?_
      | refine LK.set ?_ ?_
      | (intro l x hx; cases x <;> with_unfolding_all first | exact absurd (memL hq (by decide)) hx | exact rfl | (dsimp only [LanePart.same]; (repeat' split) <;> rfl))
      | refine lk_strideComplete (subL hq (by decide)) ?_
      | refine lk_gearEngage (subL hq (by decide)) ?_
      | refine lk_strideStart (subL hq (by decide)) ?_
      | refine LK.ite ?_ ?_
      | split

theorem lk_softCheck {Lq : List LanePart} {K0 : State} {n : LaneId} {s : State}  (hq : [.life, .flt, .loop, .spin, .sled, .wr, .waiting] ⊆ Lq) (hK : LK n Lq K0 s) :
    LK n Lq K0 (softCheck n s) := by
  unfold softCheck
  with_reducible repeat' first
    | assumption
    | refine LK.set ?_ ?_
    | (intro l x hx; cases x <;> with_unfolding_all first | exact absurd (memL hq (by decide)) hx | exact rfl | (dsimp only [LanePart.same]; (repeat' split) <;> rfl))
    | refine LK.keep (u := raise _ _ _) (keeps_raise (List.Subset.refl _) (.refl _ _)) (by decide) ?_
    | refine LK.keep (u := lbump _ _ _ _ _ _) (keeps_lbump (List.Subset.refl _) (.refl _ _)) (by decide) ?_
    | refine lk_strideComplete (subL hq (by decide)) ?_
    | refine lk_detectFault (subL hq (by decide)) ?_
    | refine LK.ite ?_ ?_
    | split

theorem lk_gearPeriod {Lq : List LanePart} {K0 : State} {n : LaneId} {s : State} {enc : Nat} (hq : [.sled] ⊆ Lq) (hK : LK n Lq K0 s) :
    LK n Lq K0 (gearPeriod n enc s) := by
  unfold gearPeriod
  with_reducible repeat' first
    | assumption
    | refine LK.set ?_ ?_
    | (intro l x hx; cases x <;> with_unfolding_all first | exact absurd (memL hq (by decide)) hx | exact rfl | (dsimp only [LanePart.same]; (repeat' split) <;> rfl))
    | refine LK.ite ?_ ?_

theorem lk_beginHoming {Lq : List LanePart} {K0 : State} {n : LaneId} {s : State}  (hq : [.life, .sled] ⊆ Lq) (hK : LK n Lq K0 s) :
    LK n Lq K0 (beginHoming n s) := by
  unfold beginHoming
  with_reducible repeat' first
    | assumption
    | refine LK.set ?_ ?_
    | (intro l x hx; cases x <;> with_unfolding_all first | exact absurd (memL hq (by decide)) hx | exact rfl | (dsimp only [LanePart.same]; (repeat' split) <;> rfl))

theorem lk_homingRun {Lq : List LanePart} {K0 : State} {n : LaneId} {s : State}  (hq : [.sled] ⊆ Lq) (hK : LK n Lq K0 s) :
    LK n Lq K0 (homingRun n s) := by
  unfold homingRun
  with_reducible repeat' first
    | assumption
    | refine LK.set ?_ ?_
    | (intro l x hx; cases x <;> with_unfolding_all first | exact absurd (memL hq (by decide)) hx | exact rfl | (dsimp only [LanePart.same]; (repeat' split) <;> rfl))
    | split

theorem lk_backOff {Lq : List LanePart} {K0 : State} {n : LaneId} {s : State}  (hq : [.sled] ⊆ Lq) (hK : LK n Lq K0 s) :
    LK n Lq K0 (backOff n s) := by
  unfold backOff
  with_reducible repeat' first
    | assumption
    | refine LK.set ?_ ?_
    | (intro l x hx; cases x <;> with_unfolding_all first | exact absurd (memL hq (by decide)) hx | exact rfl | (dsimp only [LanePart.same]; (repeat' split) <;> rfl))
    | refine LK.keep (u := lifeLane _ _ _ _) (keeps_lifeLane (List.Subset.refl _) (.refl _ _)) (by decide) ?_
    | refine LK.keep (u := lbump _ _ _ _ _ _) (keeps_lbump (List.Subset.refl _) (.refl _ _)) (by decide) ?_

theorem lk_sledPeriod {Lq : List LanePart} {K0 : State} {n : LaneId} {s : State} {enc : Nat} {sa : Int} {sb : Int} (hq : [.life, .flt, .loop, .spin, .sled, .wr, .waiting] ⊆ Lq) (hK : LK n Lq K0 s) :
    LK n Lq K0 (sledPeriod n enc sa sb s) := by
  unfold sledPeriod
  with_reducible repeat' first
    | assumption
    | refine LK.set ?_ ?_
    | (intro l x hx; cases x <;> with_unfolding_all first | exact absurd (memL hq (by decide)) hx | exact rfl | (dsimp only [LanePart.same]; (repeat' split) <;> rfl))
    | refine lk_gearPeriod (subL hq (by decide)) ?_
    | refine lk_homingRun (subL hq (by decide)) ?_
    | refine lk_profileRun (subL hq (by decide)) ?_
    | refine lk_softCheck (subL hq (by decide)) ?_
    | refine LK.keep (u := lifeLane _ _ _ _) (keeps_lifeLane (List.Subset.refl _) (.refl _ _)) (by decide) ?_
    | refine LK.keep (u := lbump _ _ _ _ _ _) (keeps_lbump (List.Subset.refl _) (.refl _ _)) (by decide) ?_
    | refine LK.ite ?_ ?_

theorem lk_sledSetpoint {Lq : List LanePart} {K0 : State} {n : LaneId} {s : State} {enc : Nat} {sa : Int} {sb : Int} (hq : [.life, .flt, .loop, .spin, .sled, .wr, .waiting] ⊆ Lq) (hK : LK n Lq K0 s) :
    LK n Lq K0 (sledSetpoint n enc sa sb s) := by
  unfold sledSetpoint
  with_reducible repeat' first
    | assumption
    | refine LK.set ?_ ?_
    | (intro l x hx; cases x <;> with_unfolding_all first | exact absurd (memL hq (by decide)) hx | exact rfl | (dsimp only [LanePart.same]; (repeat' split) <;> rfl))
    | refine lk_sledPeriod (subL hq (by decide)) ?_
    | refine LK.ite ?_ ?_

theorem lk_execSledSetpoint {Lq : List LanePart} {K0 : State} {n : LaneId} {s : State} {master : Nat} {sa : Int} {sb : Int} (hq : [.life, .flt, .loop, .spin, .sled, .wr, .waiting] ⊆ Lq) (hK : LK n Lq K0 s) :
    LKO n Lq K0 (execSledSetpoint n master sa sb s) := by
  unfold execSledSetpoint
  with_reducible repeat' first
    | assumption
    | refine LKO.next ?_
    | refine LKO.ite ?_ ?_
    | refine lk_sledSetpoint (subL hq (by decide)) ?_

theorem lk_execQuietDelayExpire {Lq : List LanePart} {K0 : State} {n : LaneId} {s : State}  (hq : [.sled] ⊆ Lq) (hK : LK n Lq K0 s) :
    LKO n Lq K0 (execQuietDelayExpire n s) := by
  unfold execQuietDelayExpire
  with_reducible repeat' first
    | assumption
    | refine LKO.next ?_
    | refine LKO.ite ?_ ?_
    | refine LK.set ?_ ?_
    | (intro l x hx; cases x <;> with_unfolding_all first | exact absurd (memL hq (by decide)) hx | exact rfl | (dsimp only [LanePart.same]; (repeat' split) <;> rfl))
    | refine LK.ite ?_ ?_

theorem lk_execHoldCurrentTimeout {Lq : List LanePart} {K0 : State} {n : LaneId} {s : State}  (hq : [.sled] ⊆ Lq) (hK : LK n Lq K0 s) :
    LKO n Lq K0 (execHoldCurrentTimeout n s) := by
  unfold execHoldCurrentTimeout
  with_reducible repeat' first
    | assumption
    | refine LKO.next ?_
    | refine LKO.ite ?_ ?_
    | refine LK.set ?_ ?_
    | (intro l x hx; cases x <;> with_unfolding_all first | exact absurd (memL hq (by decide)) hx | exact rfl | (dsimp only [LanePart.same]; (repeat' split) <;> rfl))
    | refine LK.ite ?_ ?_

theorem lk_execEncFailure {Lq : List LanePart} {K0 : State} {n : LaneId} {s : State} {noEdge : Bool} (hq : [.sled] ⊆ Lq) (hK : LK n Lq K0 s) :
    LKO n Lq K0 (execEncFailure n noEdge s) := by
  unfold execEncFailure
  with_reducible repeat' first
    | assumption
    | refine LKO.next ?_
    | refine LKO.ite ?_ ?_
    | refine LK.set ?_ ?_
    | (intro l x hx; cases x <;> with_unfolding_all first | exact absurd (memL hq (by decide)) hx | exact rfl | (dsimp only [LanePart.same]; (repeat' split) <;> rfl))
    | refine LK.keep (u := raise _ _ _) (keeps_raise (List.Subset.refl _) (.refl _ _)) (by decide) ?_
    | refine LK.keep (u := lbump _ _ _ _ _ _) (keeps_lbump (List.Subset.refl _) (.refl _ _)) (by decide) ?_
    | refine LK.ite ?_ ?_

theorem lk_shiftCoordinate {Lq : List LanePart} {K0 : State} {n : LaneId} {s : State} {by' : Int} (hq : [.sled] ⊆ Lq) (hK : LK n Lq K0 s) :
    LK n Lq K0 (shiftCoordinate n by' s) := by
  unfold shiftCoordinate
  with_reducible repeat' first
    | assumption
    | refine LK.set ?_ ?_
    | (intro l x hx; cases x <;> with_unfolding_all first | exact absurd (memL hq (by decide)) hx | exact rfl | (dsimp only [LanePart.same]; (repeat' split) <;> rfl))

theorem lk_homeCoordinate {Lq : List LanePart} {K0 : State} {n : LaneId} {s : State}  (hq : [.sled] ⊆ Lq) (hK : LK n Lq K0 s) :
    LK n Lq K0 (homeCoordinate n s) := by
  unfold homeCoordinate
  with_reducible repeat' first
    | assumption
    | refine LK.set ?_ ?_
    | (intro l x hx; cases x <;> with_unfolding_all first | exact absurd (memL hq (by decide)) hx | exact rfl | (dsimp only [LanePart.same]; (repeat' split) <;> rfl))

theorem lk_loadTable {Lq : List LanePart} {K0 : State} {n : LaneId} {s : State} {b : Bytes} (hq : [.sled] ⊆ Lq) (hK : LK n Lq K0 s) :
    LK n Lq K0 (loadTable n b s) := by
  unfold loadTable
  with_reducible repeat' first
    | assumption
    | refine LK.set ?_ ?_
    | (intro l x hx; cases x <;> with_unfolding_all first | exact absurd (memL hq (by decide)) hx | exact rfl | (dsimp only [LanePart.same]; (repeat' split) <;> rfl))

theorem lk_startTable {Lq : List LanePart} {K0 : State} {n : LaneId} {s : State}  (hq : [.sled] ⊆ Lq) (hK : LK n Lq K0 s) :
    LK n Lq K0 (startTable n s) := by
  unfold startTable
  with_reducible repeat' first
    | assumption
    | refine LK.set ?_ ?_
    | (intro l x hx; cases x <;> with_unfolding_all first | exact absurd (memL hq (by decide)) hx | exact rfl | (dsimp only [LanePart.same]; (repeat' split) <;> rfl))
    | refine LK.keep (u := raise _ _ _) (keeps_raise (List.Subset.refl _) (.refl _ _)) (by decide) ?_
    | refine LK.ite ?_ ?_

theorem lk_sourceWritten {Lq : List LanePart} {K0 : State} {n : LaneId} {s : State}  (hq : [.sled] ⊆ Lq) (hK : LK n Lq K0 s) :
    LK n Lq K0 (sourceWritten n s) := by
  unfold sourceWritten
  with_reducible repeat' first
    | assumption
    | refine LK.set ?_ ?_
    | (intro l x hx; cases x <;> with_unfolding_all first | exact absurd (memL hq (by decide)) hx | exact rfl | (dsimp only [LanePart.same]; (repeat' split) <;> rfl))

end Sys2Proof.Machine
end

