-- ==== Sys2Proof/Laws/LaneLoopLaws.lean ====
section
/-! SUPPORT. What the operations of Loop.lean on a lane keep of it and of the other lanes. -/

namespace Sys2Proof.Machine

set_option linter.unusedTactic false
set_option linter.unreachableTactic false
set_option linter.unusedVariables false

theorem lk_takeTrims {Lq : List LanePart} {K0 : State} {n : LaneId} {s : State} {p : Nat → Bool} (hq : [.rd, .warm] ⊆ Lq) (hK : LK n Lq K0 s) :
    LK n Lq K0 (takeTrims n p s) := by
  unfold takeTrims
  with_reducible repeat' first
    | assumption
    | refine LK.set ?_ ?_
    | (intro l x hx; cases x <;> with_unfolding_all first | exact absurd (memL hq (by decide)) hx | exact rfl | (dsimp only [LanePart.same]; (repeat' split) <;> rfl))
    | refine LK.ite ?_ ?_

theorem lk_takeRf {Lq : List LanePart} {K0 : State} {n : LaneId} {s : State} {c : ChanId} (hq : [.rd, .warm] ⊆ Lq) (hK : LK n Lq K0 s) :
    LK n Lq K0 (takeRf n c s) := by
  unfold takeRf
  with_reducible repeat' first
    | assumption
    | refine LK.set ?_ ?_
    | (intro l x hx; cases x <;> with_unfolding_all first | exact absurd (memL hq (by decide)) hx | exact rfl | (dsimp only [LanePart.same]; (repeat' split) <;> rfl))
    | refine lk_takeTrims (subL hq (by decide)) ?_
    | refine LK.ite ?_ ?_

theorem lk_takeRfAtOnce {Lq : List LanePart} {K0 : State} {n : LaneId} {s : State}  (hq : [.rd, .warm] ⊆ Lq) (hK : LK n Lq K0 s) :
    LK n Lq K0 (takeRfAtOnce n s) := by
  unfold takeRfAtOnce
  with_reducible repeat' first
    | assumption
    | refine lk_takeRf (subL hq (by decide)) ?_
    | refine LK.fold2 _ _ _ (fun _ _ _ => ?_) ?_
    | refine LK.foldl _ _ _ (fun _ _ _ => ?_) ?_
    | refine LK.ite ?_ ?_

theorem lk_frameBegins {Lq : List LanePart} {K0 : State} {n : LaneId} {s : State}  (hq : [.rd, .warm] ⊆ Lq) (hK : LK n Lq K0 s) :
    LK n Lq K0 (frameBegins n s) := by
  unfold frameBegins
  with_reducible repeat' first
    | assumption
    | refine LK.set ?_ ?_
    | (intro l x hx; cases x <;> with_unfolding_all first | exact absurd (memL hq (by decide)) hx | exact rfl | (dsimp only [LanePart.same]; (repeat' split) <;> rfl))
    | refine lk_takeRf (subL hq (by decide)) ?_
    | refine LK.fold2 _ _ _ (fun _ _ _ => ?_) ?_
    | refine LK.foldl _ _ _ (fun _ _ _ => ?_) ?_

theorem lk_idleChannels {Lq : List LanePart} {K0 : State} {n : LaneId} {s : State}  (hq : [.rd] ⊆ Lq) (hK : LK n Lq K0 s) :
    LK n Lq K0 (idleChannels n s) := by
  unfold idleChannels
  with_reducible repeat' first
    | assumption
    | refine LK.set ?_ ?_
    | (intro l x hx; cases x <;> with_unfolding_all first | exact absurd (memL hq (by decide)) hx | exact rfl | (dsimp only [LanePart.same]; (repeat' split) <;> rfl))

theorem lk_passBegins {Lq : List LanePart} {K0 : State} {n : LaneId} {s : State}  (hq : [.rd, .warm] ⊆ Lq) (hK : LK n Lq K0 s) :
    LK n Lq K0 (passBegins n s) := by
  unfold passBegins
  with_reducible repeat' first
    | assumption
    | refine LK.set ?_ ?_
    | (intro l x hx; cases x <;> with_unfolding_all first | exact absurd (memL hq (by decide)) hx | exact rfl | (dsimp only [LanePart.same]; (repeat' split) <;> rfl))
    | refine lk_idleChannels (subL hq (by decide)) ?_
    | refine lk_takeTrims (subL hq (by decide)) ?_
    | refine lk_takeRf (subL hq (by decide)) ?_
    | refine LK.fold2 _ _ _ (fun _ _ _ => ?_) ?_
    | refine LK.foldl _ _ _ (fun _ _ _ => ?_) ?_

theorem lk_takeOffsets {Lq : List LanePart} {K0 : State} {n : LaneId} {s : State}  (hq : [.rd, .warm] ⊆ Lq) (hK : LK n Lq K0 s) :
    LK n Lq K0 (takeOffsets n s) := by
  unfold takeOffsets
  with_reducible repeat' first
    | assumption
    | refine LK.set ?_ ?_
    | (intro l x hx; cases x <;> with_unfolding_all first | exact absurd (memL hq (by decide)) hx | exact rfl | (dsimp only [LanePart.same]; (repeat' split) <;> rfl))
    | refine lk_takeTrims (subL hq (by decide)) ?_
    | refine LK.ite ?_ ?_

theorem lk_takePower {Lq : List LanePart} {K0 : State} {n : LaneId} {s : State}  (hq : [.rd, .warm] ⊆ Lq) (hK : LK n Lq K0 s) :
    LK n Lq K0 (takePower n s) := by
  unfold takePower
  with_reducible repeat' first
    | assumption
    | refine LK.set ?_ ?_
    | (intro l x hx; cases x <;> with_unfolding_all first | exact absurd (memL hq (by decide)) hx | exact rfl | (dsimp only [LanePart.same]; (repeat' split) <;> rfl))
    | refine lk_takeTrims (subL hq (by decide)) ?_
    | refine LK.ite ?_ ?_

theorem lk_observerBanks {Lq : List LanePart} {K0 : State} {n : LaneId} {s : State}  (hq : [.loop] ⊆ Lq) (hK : LK n Lq K0 s) :
    LK n Lq K0 (observerBanks n s) := by
  unfold observerBanks
  with_reducible repeat' first
    | assumption
    | refine LK.set ?_ ?_
    | (intro l x hx; cases x <;> with_unfolding_all first | exact absurd (memL hq (by decide)) hx | exact rfl | (dsimp only [LanePart.same, reloadObserver, switchObserver]; (repeat' split) <;> rfl))
    | refine LK.keep (u := lbump _ _ _ _ _ _) (keeps_lbump (List.Subset.refl _) (.refl _ _)) (by decide) ?_
    | refine LK.ite ?_ ?_

theorem lk_biquadBanks {Lq : List LanePart} {K0 : State} {n : LaneId} {s : State}  (hq : [.loop] ⊆ Lq) (hK : LK n Lq K0 s) :
    LK n Lq K0 (biquadBanks n s) := by
  unfold biquadBanks
  with_reducible repeat' first
    | assumption
    | refine LK.set ?_ ?_
    | (intro l x hx; cases x <;> with_unfolding_all first | exact absurd (memL hq (by decide)) hx | exact rfl | (dsimp only [LanePart.same, reloadBiquad, switchBiquad]; (repeat' split) <;> rfl))
    | refine LK.keep (u := lbump _ _ _ _ _ _) (keeps_lbump (List.Subset.refl _) (.refl _ _)) (by decide) ?_
    | refine LK.ite ?_ ?_

theorem lk_observerCompute {Lq : List LanePart} {K0 : State} {n : LaneId} {s : State} {codes : List Int} {f : List Int} {late : Bool} (hq : [.loop] ⊆ Lq) (hK : LK n Lq K0 s) :
    LK n Lq K0 (observerCompute n codes f late s) := by
  unfold observerCompute
  with_reducible repeat' first
    | assumption
    | refine LK.set ?_ ?_
    | (intro l x hx; cases x <;> with_unfolding_all first | exact absurd (memL hq (by decide)) hx | exact rfl | (dsimp only [LanePart.same, binSample]; (repeat' split) <;> rfl))
    | refine LK.keep (u := lbump _ _ _ _ _ _) (keeps_lbump (List.Subset.refl _) (.refl _ _)) (by decide) ?_
    | refine LK.ite ?_ ?_
    | split

theorem lk_observerSample {Lq : List LanePart} {K0 : State} {n : LaneId} {s : State} {codes : List Int} {f : List Int} {ia : Int} {ib : Int} {volts : List Int} {late : Bool} (hq : [.loop, .spin, .rd, .warm] ⊆ Lq) (hK : LK n Lq K0 s) :
    LK n Lq K0 (observerSample n codes f ia ib volts late s) := by
  unfold observerSample
  with_reducible repeat' first
    | assumption
    | refine LK.set ?_ ?_
    | (intro l x hx; cases x <;> with_unfolding_all first | exact absurd (memL hq (by decide)) hx | exact rfl | (dsimp only [LanePart.same, spindleSample]; (repeat' split) <;> rfl))
    | refine lk_takeOffsets (subL hq (by decide)) ?_
    | refine lk_observerBanks (subL hq (by decide)) ?_
    | refine lk_observerCompute (subL hq (by decide)) ?_
    | refine LK.keep (u := lifeLane _ _ _ _) (keeps_lifeLane (List.Subset.refl _) (.refl _ _)) (by decide) ?_
    | refine LK.keep (u := lbump _ _ _ _ _ _) (keeps_lbump (List.Subset.refl _) (.refl _ _)) (by decide) ?_
    | refine LK.ite ?_ ?_

theorem lk_observerUpdate {Lq : List LanePart} {K0 : State} {n : LaneId} {s : State} {codes : List Int} {f : List Int} {ia : Int} {ib : Int} {volts : List Int} {late : Bool} (hq : [.loop, .spin, .rd, .warm] ⊆ Lq) (hK : LK n Lq K0 s) :
    LK n Lq K0 (observerUpdate n codes f ia ib volts late s) := by
  unfold observerUpdate
  with_reducible repeat' first
    | assumption
    | refine lk_observerSample (subL hq (by decide)) ?_
    | refine LK.ite ?_ ?_

theorem lk_execObserverUpdate {Lq : List LanePart} {K0 : State} {n : LaneId} {s : State} {codes : List Int} {f : List Int} {ia : Int} {ib : Int} {volts : List Int} {late : Bool} (hq : [.loop, .spin, .rd, .warm] ⊆ Lq) (hK : LK n Lq K0 s) :
    LKO n Lq K0 (execObserverUpdate n codes f ia ib volts late s) := by
  unfold execObserverUpdate
  with_reducible repeat' first
    | assumption
    | refine LKO.next ?_
    | refine LKO.ite ?_ ?_
    | refine lk_observerUpdate (subL hq (by decide)) ?_

theorem lk_runCascade {Lq : List LanePart} {K0 : State} {n : LaneId} {s : State} {c : Fin 6} {v : Int} {hold : Bool} {late : Bool} (hq : [.loop] ⊆ Lq) (hK : LK n Lq K0 s) :
    LK n Lq K0 (runCascade n c v hold late s) := by
  unfold runCascade
  with_reducible repeat' first
    | assumption
    | refine LK.set ?_ ?_
    | (intro l x hx; cases x <;> with_unfolding_all first | exact absurd (memL hq (by decide)) hx | exact rfl | (dsimp only [LanePart.same]; (repeat' split) <;> rfl))
    | refine LK.keep (u := lbump _ _ _ _ _ _) (keeps_lbump (List.Subset.refl _) (.refl _ _)) (by decide) ?_
    | refine LK.ite ?_ ?_

theorem lk_speedRamp {Lq : List LanePart} {K0 : State} {n : LaneId} {s : State}  (hq : [.spin] ⊆ Lq) (hK : LK n Lq K0 s) :
    LK n Lq K0 (speedRamp n s) := by
  unfold speedRamp
  extract_lets
  with_reducible repeat' first
    | assumption
    | refine LK.set ?_ ?_
    | (intro l x hx; cases x <;> with_unfolding_all first | exact absurd (memL hq (by decide)) hx | exact rfl | (dsimp only [LanePart.same]; (repeat' split) <;> rfl))
    | refine lk_shortBrake (subL hq (by decide)) ?_
    | refine LK.ite ?_ ?_

theorem lk_countSample {Lq : List LanePart} {K0 : State} {n : LaneId} {s : State}  (hq : [.spin] ⊆ Lq) (hK : LK n Lq K0 s) :
    LK n Lq K0 (countSample n s) := by
  unfold countSample
  with_reducible repeat' first
    | assumption
    | refine LK.set ?_ ?_
    | (intro l x hx; cases x <;> with_unfolding_all first | exact absurd (memL hq (by decide)) hx | exact rfl | (dsimp only [LanePart.same]; (repeat' split) <;> rfl))
    | refine LK.keep (u := lbump _ _ _ _ _ _) (keeps_lbump (List.Subset.refl _) (.refl _ _)) (by decide) ?_
    | refine LK.ite ?_ ?_

theorem lk_slot48 {Lq : List LanePart} {K0 : State} {n : LaneId} {s : State} {pm : Int} {late : List Nat} (hq : [.loop, .spin] ⊆ Lq) (hK : LK n Lq K0 s) :
    LK n Lq K0 (slot48 n pm late s) := by
  unfold slot48
  with_reducible repeat' first
    | assumption
    | refine LK.set ?_ ?_
    | (intro l x hx; cases x <;> with_unfolding_all first | exact absurd (memL hq (by decide)) hx | exact rfl | (dsimp only [LanePart.same, selector]; (repeat' split) <;> rfl))
    | refine lk_runCascade (subL hq (by decide)) ?_
    | refine LK.keep (u := lbump _ _ _ _ _ _) (keeps_lbump (List.Subset.refl _) (.refl _ _)) (by decide) ?_
    | refine lk_countSample (subL hq (by decide)) ?_
    | refine LK.ite ?_ ?_

theorem lk_slot24 {Lq : List LanePart} {K0 : State} {n : LaneId} {s : State} {late : List Nat} (hq : [.loop, .spin] ⊆ Lq) (hK : LK n Lq K0 s) :
    LK n Lq K0 (slot24 n late s) := by
  unfold slot24
  with_reducible repeat' first
    | assumption
    | refine LK.set ?_ ?_
    | (intro l x hx; cases x <;> with_unfolding_all first | exact absurd (memL hq (by decide)) hx | exact rfl | (dsimp only [LanePart.same]; (repeat' split) <;> rfl))
    | refine lk_runCascade (subL hq (by decide)) ?_
    | refine LK.ite ?_ ?_

theorem lk_slotCascades {Lq : List LanePart} {K0 : State} {n : LaneId} {s0 : State} {pm : Int} {late : List Nat} {p : Nat} (hq : [.loop, .spin, .rd, .warm] ⊆ Lq) (hK : LK n Lq K0 s0) :
    LK n Lq K0 (slotCascades n pm late p s0) := by
  unfold slotCascades
  with_reducible repeat' first
    | assumption
    | refine lk_takePower (subL hq (by decide)) ?_
    | refine lk_slot48 (subL hq (by decide)) ?_
    | refine lk_speedRamp (subL hq (by decide)) ?_
    | refine lk_biquadBanks (subL hq (by decide)) ?_
    | refine lk_runCascade (subL hq (by decide)) ?_
    | refine lk_slot24 (subL hq (by decide)) ?_
    | refine LK.ite ?_ ?_

theorem lk_biquadSlot {Lq : List LanePart} {K0 : State} {n : LaneId} {s : State} {pm : Int} {late : List Nat} (hq : [.loop, .spin, .rd, .warm] ⊆ Lq) (hK : LK n Lq K0 s) :
    LK n Lq K0 (biquadSlot n pm late s) := by
  unfold biquadSlot
  with_reducible repeat' first
    | assumption
    | refine LK.set ?_ ?_
    | (intro l x hx; cases x <;> with_unfolding_all first | exact absurd (memL hq (by decide)) hx | exact rfl | (dsimp only [LanePart.same]; (repeat' split) <;> rfl))
    | refine lk_slotCascades (subL hq (by decide)) ?_
    | refine LK.ite ?_ ?_

theorem lk_execBiquadSlot {Lq : List LanePart} {K0 : State} {n : LaneId} {s : State} {powerMonitor : Int} {late : List Nat} (hq : [.loop, .spin, .rd, .warm] ⊆ Lq) (hK : LK n Lq K0 s) :
    LKO n Lq K0 (execBiquadSlot n powerMonitor late s) := by
  unfold execBiquadSlot
  with_reducible repeat' first
    | assumption
    | refine LKO.next ?_
    | refine LKO.ite ?_ ?_
    | refine lk_biquadSlot (subL hq (by decide)) ?_

theorem lk_driveFrame {Lq : List LanePart} {K0 : State} {n : LaneId} {s : State}  (hq : [.loop] ⊆ Lq) (hK : LK n Lq K0 s) :
    LK n Lq K0 (driveFrame n s) := by
  unfold driveFrame
  with_reducible repeat' first
    | assumption
    | refine LK.set ?_ ?_
    | (intro l x hx; cases x <;> with_unfolding_all first | exact absurd (memL hq (by decide)) hx | exact rfl | (dsimp only [LanePart.same]; (repeat' split) <;> rfl))
    | refine LK.keep (u := send _ _) (keeps_send (List.Subset.refl _) (.refl _ _)) (by decide) ?_

theorem lk_overrunOf {Lq : List LanePart} {K0 : State} {n : LaneId} {s : State} {cs : List Nat} (hq : [.life, .flt, .loop, .spin, .sled, .wr, .waiting] ⊆ Lq) (hK : LK n Lq K0 s) :
    LK n Lq K0 (overrunOf n cs s) := by
  unfold overrunOf
  with_reducible repeat' first
    | assumption
    | refine LK.set ?_ ?_
    | (intro l x hx; cases x <;> with_unfolding_all first | exact absurd (memL hq (by decide)) hx | exact rfl | (dsimp only [LanePart.same]; (repeat' split) <;> rfl))
    | refine LK.keep (u := lbump _ _ _ _ _ _) (keeps_lbump (List.Subset.refl _) (.refl _ _)) (by decide) ?_
    | refine LK.keep (u := lifeLane _ _ _ _) (keeps_lifeLane (List.Subset.refl _) (.refl _ _)) (by decide) ?_
    | refine LK.keep (u := bump _ _ _ _ _) (keeps_bump (List.Subset.refl _) (.refl _ _)) (by decide) ?_
    | refine LK.keep (u := raise _ _ _) (keeps_raise (List.Subset.refl _) (.refl _ _)) (by decide) ?_
    | refine lk_shortBrake (subL hq (by decide)) ?_
    | refine lk_detectFault (subL hq (by decide)) ?_
    | refine LK.fold2 _ _ _ (fun _ _ _ => ?_) ?_
    | refine LK.foldl _ _ _ (fun _ _ _ => ?_) ?_
    | refine LK.ite ?_ ?_
    | split

theorem lk_releaseActuator {Lq : List LanePart} {K0 : State} {n : LaneId} {s : State}  (hq : [.life, .flt, .loop, .spin, .sled, .wr, .waiting] ⊆ Lq) (hK : LK n Lq K0 s) :
    LK n Lq K0 (releaseActuator n s) := by
  unfold releaseActuator
  extract_lets
  with_reducible repeat' first
    | assumption
    | refine LK.set ?_ ?_
    | (intro l x hx; cases x <;> with_unfolding_all first | exact absurd (memL hq (by decide)) hx | exact rfl | (dsimp only [LanePart.same]; (repeat' split) <;> rfl))
    | refine lk_openFocus (subL hq (by decide)) ?_
    | refine lk_driveFrame (subL hq (by decide)) ?_
    | refine lk_overrunOf (subL hq (by decide)) ?_
    | refine LK.ite ?_ ?_

theorem lk_carryOutput {Lq : List LanePart} {K0 : State} {n : LaneId} {s : State} {lp : LoopId} {fresh : Bool} (hq : [.loop, .spin, .sled, .plife] ⊆ Lq) (hK : LK n Lq K0 s) :
    LK n Lq K0 (carryOutput n lp fresh s) := by
  unfold carryOutput
  with_reducible repeat' first
    | assumption
    | refine LK.set ?_ ?_
    | (intro l x hx; cases x <;> with_unfolding_all first | exact absurd (memL hq (by decide)) hx | exact rfl | (dsimp only [LanePart.same]; (repeat' split) <;> rfl))
    | refine lk_releasePowers (subL hq (by decide)) ?_
    | split

theorem lk_releaseBiquad {Lq : List LanePart} {K0 : State} {n : LaneId} {s : State} {lp : LoopId} (hq : [.life, .flt, .loop, .spin, .sled, .wr, .plife, .waiting] ⊆ Lq) (hK : LK n Lq K0 s) :
    LK n Lq K0 (releaseBiquad n lp s) := by
  unfold releaseBiquad
  with_reducible repeat' first
    | assumption
    | refine LK.set ?_ ?_
    | (intro l x hx; cases x <;> with_unfolding_all first | exact absurd (memL hq (by decide)) hx | exact rfl | (dsimp only [LanePart.same, releaseCascade]; (repeat' split) <;> rfl))
    | refine lk_carryOutput (subL hq (by decide)) ?_
    | refine lk_overrunOf (subL hq (by decide)) ?_
    | refine LK.fold2 _ _ _ (fun _ _ _ => ?_) ?_
    | refine LK.foldl _ _ _ (fun _ _ _ => ?_) ?_
    | refine LK.ite ?_ ?_

theorem lk_outputRelease {Lq : List LanePart} {K0 : State} {n : LaneId} {s : State} {lp : LoopId} (hq : [.life, .flt, .loop, .spin, .sled, .wr, .plife, .waiting] ⊆ Lq) (hK : LK n Lq K0 s) :
    LK n Lq K0 (outputRelease n lp s) := by
  unfold outputRelease
  with_reducible repeat' first
    | assumption
    | refine LK.set ?_ ?_
    | (intro l x hx; cases x <;> with_unfolding_all first | exact absurd (memL hq (by decide)) hx | exact rfl | (dsimp only [LanePart.same]; (repeat' split) <;> rfl))
    | refine lk_releaseActuator (subL hq (by decide)) ?_
    | refine lk_releaseBiquad (subL hq (by decide)) ?_
    | refine LK.ite ?_ ?_
    | split

theorem lk_execOutputRelease {Lq : List LanePart} {K0 : State} {n : LaneId} {s : State} {l : LoopId} (hq : [.life, .flt, .loop, .spin, .sled, .wr, .plife, .waiting] ⊆ Lq) (hK : LK n Lq K0 s) :
    LKO n Lq K0 (execOutputRelease n l s) := by
  unfold execOutputRelease
  with_reducible repeat' first
    | assumption
    | refine LKO.next ?_
    | refine LKO.ite ?_ ?_
    | refine lk_outputRelease (subL hq (by decide)) ?_

theorem lk_execOverrunBankCheck {Lq : List LanePart} {K0 : State} {n : LaneId} {s : State}  (hq : [.loop] ⊆ Lq) (hK : LK n Lq K0 s) :
    LKO n Lq K0 (execOverrunBankCheck n s) := by
  unfold execOverrunBankCheck
  with_reducible repeat' first
    | assumption
    | refine LKO.next ?_
    | refine LKO.ite ?_ ?_
    | refine LK.set ?_ ?_
    | (intro l x hx; cases x <;> with_unfolding_all first | exact absurd (memL hq (by decide)) hx | exact rfl | (dsimp only [LanePart.same]; (repeat' split) <;> rfl))
    | refine LK.keep (u := raise _ _ _) (keeps_raise (List.Subset.refl _) (.refl _ _)) (by decide) ?_
    | refine LK.ite ?_ ?_

theorem lk_loadBanks {Lq : List LanePart} {K0 : State} {n : LaneId} {s : State} {cls : Nat} (hq : [.loop] ⊆ Lq) (hK : LK n Lq K0 s) :
    LK n Lq K0 (loadBanks n cls s) := by
  unfold loadBanks
  with_reducible repeat' first
    | assumption
    | refine LK.set ?_ ?_
    | (intro l x hx; cases x <;> with_unfolding_all first | exact absurd (memL hq (by decide)) hx | exact rfl | (dsimp only [LanePart.same]; (repeat' split) <;> rfl))
    | split

theorem lk_startLearning {Lq : List LanePart} {K0 : State} {n : LaneId} {s : State}  (hq : [.loop] ⊆ Lq) (hK : LK n Lq K0 s) :
    LK n Lq K0 (startLearning n s) := by
  unfold startLearning
  with_reducible repeat' first
    | assumption
    | refine LK.set ?_ ?_
    | (intro l x hx; cases x <;> with_unfolding_all first | exact absurd (memL hq (by decide)) hx | exact rfl | (dsimp only [LanePart.same]; (repeat' split) <;> rfl))

theorem lk_runoutRevolution {Lq : List LanePart} {K0 : State} {n : LaneId} {s : State}  (hq : [.loop] ⊆ Lq) (hK : LK n Lq K0 s) :
    LK n Lq K0 (runoutRevolution n s) := by
  unfold runoutRevolution
  with_reducible repeat' first
    | assumption
    | refine LK.set ?_ ?_
    | (intro l x hx; cases x <;> with_unfolding_all first | exact absurd (memL hq (by decide)) hx | exact rfl | (dsimp only [LanePart.same]; (repeat' split) <;> rfl))
    | refine LK.ite ?_ ?_

theorem lk_execRunoutRevolution {Lq : List LanePart} {K0 : State} {n : LaneId} {s : State}  (hq : [.loop] ⊆ Lq) (hK : LK n Lq K0 s) :
    LKO n Lq K0 (execRunoutRevolution n s) := by
  unfold execRunoutRevolution
  with_reducible repeat' first
    | assumption
    | refine LKO.next ?_
    | refine LKO.ite ?_ ?_
    | refine lk_runoutRevolution (subL hq (by decide)) ?_

theorem lk_spoil {Lq : List LanePart} {K0 : State} {n : LaneId} {s : State}  (hq : [.loop] ⊆ Lq) (hK : LK n Lq K0 s) :
    LK n Lq K0 (spoil n s) := by
  unfold spoil
  with_reducible repeat' first
    | assumption
    | refine LK.set ?_ ?_
    | (intro l x hx; cases x <;> with_unfolding_all first | exact absurd (memL hq (by decide)) hx | exact rfl | (dsimp only [LanePart.same]; (repeat' split) <;> rfl))

end Sys2Proof.Machine
end

