-- ==== Sys2Proof/Laws/LaneSpindleLaws.lean ====
section
/-! SUPPORT. What the operations of Spindle.lean on a lane keep of it and of the other lanes. -/

namespace Sys2Proof.Machine

set_option linter.unusedTactic false
set_option linter.unreachableTactic false
set_option linter.unusedVariables false

theorem lk_commutationStep {Lq : List LanePart} {K0 : State} {n : LaneId} {s : State}  (hq : [.spin] ⊆ Lq) (hK : LK n Lq K0 s) :
    LK n Lq K0 (commutationStep n s) := by
  unfold commutationStep
  with_reducible repeat' first
    | assumption
    | refine LK.set ?_ ?_
    | (intro l x hx; cases x <;> with_unfolding_all first | exact absurd (memL hq (by decide)) hx | exact rfl | (dsimp only [LanePart.same, commutate]; (repeat' split) <;> rfl))
    | refine LK.ite ?_ ?_

theorem lk_execCommutationStep {Lq : List LanePart} {K0 : State} {n : LaneId} {s : State}  (hq : [.spin] ⊆ Lq) (hK : LK n Lq K0 s) :
    LKO n Lq K0 (execCommutationStep n s) := by
  unfold execCommutationStep
  with_reducible repeat' first
    | assumption
    | refine LKO.next ?_
    | refine LKO.ite ?_ ?_
    | refine lk_commutationStep (subL hq (by decide)) ?_

theorem lk_zeroCrossing {Lq : List LanePart} {K0 : State} {n : LaneId} {s : State}  (hq : [.spin] ⊆ Lq) (hK : LK n Lq K0 s) :
    LK n Lq K0 (zeroCrossing n s) := by
  unfold zeroCrossing
  extract_lets
  with_reducible repeat' first
    | assumption
    | refine LK.set ?_ ?_
    | (intro l x hx; cases x <;> with_unfolding_all first | exact absurd (memL hq (by decide)) hx | exact rfl | (dsimp only [LanePart.same]; (repeat' split) <;> rfl))
    | refine LK.ite ?_ ?_
    | split

theorem lk_execZeroCrossing {Lq : List LanePart} {K0 : State} {n : LaneId} {s : State}  (hq : [.spin] ⊆ Lq) (hK : LK n Lq K0 s) :
    LKO n Lq K0 (execZeroCrossing n s) := by
  unfold execZeroCrossing
  with_reducible repeat' first
    | assumption
    | refine LKO.next ?_
    | refine LKO.ite ?_ ?_
    | refine lk_zeroCrossing (subL hq (by decide)) ?_

theorem lk_rotorLost {Lq : List LanePart} {K0 : State} {n : LaneId} {s : State}  (hq : [.life, .flt, .loop, .spin, .sled, .wr, .waiting] ⊆ Lq) (hK : LK n Lq K0 s) :
    LK n Lq K0 (rotorLost n s) := by
  unfold rotorLost
  with_reducible repeat' first
    | assumption
    | refine LK.set ?_ ?_
    | (intro l x hx; cases x <;> with_unfolding_all first | exact absurd (memL hq (by decide)) hx | exact rfl | (dsimp only [LanePart.same]; (repeat' split) <;> rfl))
    | refine lk_floatBridge (subL hq (by decide)) ?_
    | refine lk_detectFault (subL hq (by decide)) ?_
    | refine lk_shortBrake (subL hq (by decide)) ?_
    | refine LK.ite ?_ ?_

theorem lk_execRotorLost {Lq : List LanePart} {K0 : State} {n : LaneId} {s : State}  (hq : [.life, .flt, .loop, .spin, .sled, .wr, .waiting] ⊆ Lq) (hK : LK n Lq K0 s) :
    LKO n Lq K0 (execRotorLost n s) := by
  unfold execRotorLost
  with_reducible repeat' first
    | assumption
    | refine LKO.next ?_
    | refine LKO.ite ?_ ?_
    | refine lk_rotorLost (subL hq (by decide)) ?_
    | refine LK.ite ?_ ?_

theorem lk_startFailed {Lq : List LanePart} {K0 : State} {n : LaneId} {s : State} {reason : Nat} (hq : [.life, .flt, .loop, .spin, .sled, .wr, .waiting] ⊆ Lq) (hK : LK n Lq K0 s) :
    LK n Lq K0 (startFailed n reason s) := by
  unfold startFailed
  with_reducible repeat' first
    | assumption
    | refine lk_detectFault (subL hq (by decide)) ?_
    | refine LK.keep (u := raise _ _ _) (keeps_raise (List.Subset.refl _) (.refl _ _)) (by decide) ?_
    | refine LK.keep (u := lbump _ _ _ _ _ _) (keeps_lbump (List.Subset.refl _) (.refl _ _)) (by decide) ?_

theorem lk_execStartFromRest {Lq : List LanePart} {K0 : State} {n : LaneId} {s : State} {peaks : List (List Nat)} (hq : [.life, .flt, .loop, .spin, .sled, .wr, .waiting] ⊆ Lq) (hK : LK n Lq K0 s) :
    LKO n Lq K0 (execStartFromRest n peaks s) := by
  unfold execStartFromRest
  with_reducible repeat' first
    | assumption
    | refine LKO.next ?_
    | refine LKO.ite ?_ ?_
    | refine LK.set ?_ ?_
    | (intro l x hx; cases x <;> with_unfolding_all first | exact absurd (memL hq (by decide)) hx | exact rfl | (dsimp only [LanePart.same]; (repeat' split) <;> rfl))
    | refine lk_startFailed (subL hq (by decide)) ?_
    | refine lk_floatBridge (subL hq (by decide)) ?_
    | refine LK.ite ?_ ?_
    | split

theorem lk_execHandover {Lq : List LanePart} {K0 : State} {n : LaneId} {s : State}  (hq : [.spin] ⊆ Lq) (hK : LK n Lq K0 s) :
    LKO n Lq K0 (execHandover n s) := by
  unfold execHandover
  with_reducible repeat' first
    | assumption
    | refine LKO.next ?_
    | refine LKO.ite ?_ ?_
    | refine LK.set ?_ ?_
    | (intro l x hx; cases x <;> with_unfolding_all first | exact absurd (memL hq (by decide)) hx | exact rfl | (dsimp only [LanePart.same]; (repeat' split) <;> rfl))
    | refine LK.ite ?_ ?_

theorem lk_execOpenLoopTimeout {Lq : List LanePart} {K0 : State} {n : LaneId} {s : State}  (hq : [.life, .flt, .loop, .spin, .sled, .wr, .waiting] ⊆ Lq) (hK : LK n Lq K0 s) :
    LKO n Lq K0 (execOpenLoopTimeout n s) := by
  unfold execOpenLoopTimeout
  with_reducible repeat' first
    | assumption
    | refine LKO.next ?_
    | refine LKO.ite ?_ ?_
    | refine lk_floatBridge (subL hq (by decide)) ?_
    | refine lk_startFailed (subL hq (by decide)) ?_
    | refine LK.ite ?_ ?_

theorem lk_execCoastEnd {Lq : List LanePart} {K0 : State} {n : LaneId} {s : State} {backEmf : Nat} (hq : [.spin] ⊆ Lq) (hK : LK n Lq K0 s) :
    LKO n Lq K0 (execCoastEnd n backEmf s) := by
  unfold execCoastEnd
  with_reducible repeat' first
    | assumption
    | refine LKO.next ?_
    | refine LKO.ite ?_ ?_
    | refine lk_shortBrake (subL hq (by decide)) ?_
    | refine LK.ite ?_ ?_

theorem lk_execVoltageLimitEnter {Lq : List LanePart} {K0 : State} {n : LaneId} {s : State}  (hq : [.spin] ⊆ Lq) (hK : LK n Lq K0 s) :
    LKO n Lq K0 (execVoltageLimitEnter n s) := by
  unfold execVoltageLimitEnter
  with_reducible repeat' first
    | assumption
    | refine LKO.next ?_
    | refine LKO.ite ?_ ?_
    | refine LK.set ?_ ?_
    | (intro l x hx; cases x <;> with_unfolding_all first | exact absurd (memL hq (by decide)) hx | exact rfl | (dsimp only [LanePart.same]; (repeat' split) <;> rfl))
    | refine LK.keep (u := raise _ _ _) (keeps_raise (List.Subset.refl _) (.refl _ _)) (by decide) ?_
    | refine LK.ite ?_ ?_

theorem lk_execVoltageLimitExit {Lq : List LanePart} {K0 : State} {n : LaneId} {s : State}  (hq : [.spin] ⊆ Lq) (hK : LK n Lq K0 s) :
    LKO n Lq K0 (execVoltageLimitExit n s) := by
  unfold execVoltageLimitExit
  with_reducible repeat' first
    | assumption
    | refine LKO.next ?_
    | refine LKO.ite ?_ ?_
    | refine LK.set ?_ ?_
    | (intro l x hx; cases x <;> with_unfolding_all first | exact absurd (memL hq (by decide)) hx | exact rfl | (dsimp only [LanePart.same]; (repeat' split) <;> rfl))
    | refine LK.ite ?_ ?_

theorem lk_execRegenToShort {Lq : List LanePart} {K0 : State} {n : LaneId} {s : State}  (hq : [.spin] ⊆ Lq) (hK : LK n Lq K0 s) :
    LKO n Lq K0 (execRegenToShort n s) := by
  unfold execRegenToShort
  with_reducible repeat' first
    | assumption
    | refine LKO.next ?_
    | refine LKO.ite ?_ ?_
    | refine LK.set ?_ ?_
    | (intro l x hx; cases x <;> with_unfolding_all first | exact absurd (memL hq (by decide)) hx | exact rfl | (dsimp only [LanePart.same]; (repeat' split) <;> rfl))
    | refine lk_shortBrake (subL hq (by decide)) ?_
    | refine LK.ite ?_ ?_

theorem lk_flyingFailed {Lq : List LanePart} {K0 : State} {n : LaneId} {s : State} {rpm : Nat} (hq : [.flt, .spin] ⊆ Lq) (hK : LK n Lq K0 s) :
    LK n Lq K0 (flyingFailed n rpm s) := by
  unfold flyingFailed
  with_reducible repeat' first
    | assumption
    | refine LK.set ?_ ?_
    | (intro l x hx; cases x <;> with_unfolding_all first | exact absurd (memL hq (by decide)) hx | exact rfl | (dsimp only [LanePart.same]; (repeat' split) <;> rfl))
    | refine LK.keep (u := raise _ _ _) (keeps_raise (List.Subset.refl _) (.refl _ _)) (by decide) ?_
    | refine LK.keep (u := lbump _ _ _ _ _ _) (keeps_lbump (List.Subset.refl _) (.refl _ _)) (by decide) ?_
    | refine lk_shortBrake (subL hq (by decide)) ?_

theorem lk_execFlyingRestart {Lq : List LanePart} {K0 : State} {n : LaneId} {s : State} {b : BackEmf} (hq : [.flt, .spin] ⊆ Lq) (hK : LK n Lq K0 s) :
    LKO n Lq K0 (execFlyingRestart n b s) := by
  unfold execFlyingRestart
  with_reducible repeat' first
    | assumption
    | refine LKO.next ?_
    | refine LKO.ite ?_ ?_
    | refine LK.set ?_ ?_
    | (intro l x hx; cases x <;> with_unfolding_all first | exact absurd (memL hq (by decide)) hx | exact rfl | (dsimp only [LanePart.same]; (repeat' split) <;> rfl))
    | refine LK.keep (u := raise _ _ _) (keeps_raise (List.Subset.refl _) (.refl _ _)) (by decide) ?_
    | refine LK.keep (u := lbump _ _ _ _ _ _) (keeps_lbump (List.Subset.refl _) (.refl _ _)) (by decide) ?_
    | refine lk_flyingFailed (subL hq (by decide)) ?_
    | refine LK.ite ?_ ?_

theorem lk_execFlyingRestartTimeout {Lq : List LanePart} {K0 : State} {n : LaneId} {s : State}  (hq : [.flt, .spin] ⊆ Lq) (hK : LK n Lq K0 s) :
    LKO n Lq K0 (execFlyingRestartTimeout n s) := by
  unfold execFlyingRestartTimeout
  with_reducible repeat' first
    | assumption
    | refine LKO.next ?_
    | refine LKO.ite ?_ ?_
    | refine lk_flyingFailed (subL hq (by decide)) ?_
    | refine LK.ite ?_ ?_

end Sys2Proof.Machine
end

