-- ==== Sys2Proof/Laws/LaneTeamLaws.lean ====
section
/-! SUPPORT. What the operations of Team.lean on a lane keep of it and of the other lanes. -/

namespace Sys2Proof.Machine

set_option linter.unusedTactic false
set_option linter.unreachableTactic false
set_option linter.unusedVariables false

theorem lk_takeIdentity {Lq : List LanePart} {K0 : State} {n : LaneId} {s : State} {rec : Bytes} (hq : [.life] ⊆ Lq) (hK : LK n Lq K0 s) :
    LK n Lq K0 (takeIdentity n rec s) := by
  unfold takeIdentity
  with_reducible repeat' first
    | assumption
    | refine LK.set ?_ ?_
    | (intro l x hx; cases x <;> with_unfolding_all first | exact absurd (memL hq (by decide)) hx | exact rfl | (dsimp only [LanePart.same]; (repeat' split) <;> rfl))
    | refine LK.ite ?_ ?_

end Sys2Proof.Machine
end

