-- ==== Sys2Proof/Laws/LaneWriteLaws.lean ====
section
/-! SUPPORT. What the operations of Write.lean on a lane keep of it and of the other lanes. -/

namespace Sys2Proof.Machine

set_option linter.unusedTactic false
set_option linter.unreachableTactic false
set_option linter.unusedVariables false

theorem lk_setWr {Lq : List LanePart} {K0 : State} {n : LaneId} {s : State} {f : WritePath → WritePath} (hq : [.wr] ⊆ Lq) (hK : LK n Lq K0 s) :
    LK n Lq K0 (setWr n f s) := by
  unfold setWr
  with_reducible repeat' first
    | assumption
    | refine LK.set ?_ ?_
    | (intro l x hx; cases x <;> with_unfolding_all first | exact absurd (memL hq (by decide)) hx | exact rfl | (dsimp only [LanePart.same]; (repeat' split) <;> rfl))

theorem lk_setDisc {Lq : List LanePart} {K0 : State} {n : LaneId} {s : State} {f : Disc → Disc} (hq : [.disc] ⊆ Lq) (hK : LK n Lq K0 s) :
    LK n Lq K0 (setDisc n f s) := by
  unfold setDisc
  with_reducible repeat' first
    | assumption
    | refine LK.set ?_ ?_
    | (intro l x hx; cases x <;> with_unfolding_all first | exact absurd (memL hq (by decide)) hx | exact rfl | (dsimp only [LanePart.same]; (repeat' split) <;> rfl))

theorem lk_setPass {Lq : List LanePart} {K0 : State} {n : LaneId} {s : State} {f : Pass → Pass} (hq : [.wr] ⊆ Lq) (hK : LK n Lq K0 s) :
    LK n Lq K0 (setPass n f s) := by
  unfold setPass
  with_reducible repeat' first
    | assumption
    | refine lk_setWr (subL hq (by decide)) ?_

theorem lk_enterReloc {Lq : List LanePart} {K0 : State} {n : LaneId} {s : State} {e : RelocEntry} (hq : [.disc] ⊆ Lq) (hK : LK n Lq K0 s) :
    LK n Lq K0 (enterReloc n e s) := by
  unfold enterReloc
  with_reducible repeat' first
    | assumption
    | refine lk_setDisc (subL hq (by decide)) ?_
    | refine LK.ite ?_ ?_

theorem lk_checkOuter {Lq : List LanePart} {K0 : State} {n : LaneId} {s : State} {pos : Fin 32} (hq : [.disc] ⊆ Lq) (hK : LK n Lq K0 s) :
    LK n Lq K0 (checkOuter n pos s) := by
  unfold checkOuter
  with_reducible repeat' first
    | assumption
    | refine LK.keep (u := checkReadOnlyLane _ _) (keeps_checkReadOnlyLane (List.Subset.refl _) (.refl _ _)) (by decide) ?_
    | refine LK.keep (u := raise _ _ _) (keeps_raise (List.Subset.refl _) (.refl _ _)) (by decide) ?_
    | refine lk_setDisc (subL hq (by decide)) ?_
    | refine LK.ite ?_ ?_
    | split

theorem lk_skipSlot {Lq : List LanePart} {K0 : State} {n : LaneId} {s : State} {layer : Nat} {k : Nat} {slot : Nat} (hq : [.disc] ⊆ Lq) (hK : LK n Lq K0 s) :
    LK n Lq K0 (skipSlot n layer k slot s) := by
  unfold skipSlot
  with_reducible repeat' first
    | assumption
    | refine lk_checkOuter (subL hq (by decide)) ?_
    | refine lk_setDisc (subL hq (by decide)) ?_
    | refine lk_enterReloc (subL hq (by decide)) ?_

theorem lk_orderTo {Lq : List LanePart} {K0 : State} {n : LaneId} {s : State} {layer : Nat} {band : Nat} (hq : [.life, .wr] ⊆ Lq) (hK : LK n Lq K0 s) :
    LK n Lq K0 (orderTo n layer band s) := by
  unfold orderTo
  with_reducible repeat' first
    | assumption
    | refine LK.set ?_ ?_
    | (intro l x hx; cases x <;> with_unfolding_all first | exact absurd (memL hq (by decide)) hx | exact rfl | (dsimp only [LanePart.same]; (repeat' split) <;> rfl))

theorem lk_loadStrategies {Lq : List LanePart} {K0 : State} {n : LaneId} {s : State} {layer : Nat} (hq : [.wr] ⊆ Lq) (hK : LK n Lq K0 s) :
    LK n Lq K0 (loadStrategies n layer s) := by
  unfold loadStrategies
  with_reducible repeat' first
    | assumption
    | refine LK.keep (u := sendLaser _ _ _ _) (keeps_sendLaser (List.Subset.refl _) (.refl _ _)) (by decide) ?_
    | refine lk_setWr (subL hq (by decide)) ?_
    | refine LK.fold2 _ _ _ (fun _ _ _ => ?_) ?_
    | refine LK.foldl _ _ _ (fun _ _ _ => ?_) ?_
    | refine LK.ite ?_ ?_
    | split

theorem lk_beginSession {Lq : List LanePart} {K0 : State} {n : LaneId} {s : State}  (hq : [.disc] ⊆ Lq) (hK : LK n Lq K0 s) :
    LK n Lq K0 (beginSession n s) := by
  unfold beginSession
  with_reducible repeat' first
    | assumption
    | refine lk_setDisc (subL hq (by decide)) ?_
    | refine LK.ite ?_ ?_

theorem lk_skipRecorded {Lq : List LanePart} {K0 : State} {n : LaneId} {s : State} {layer : Nat} {slot : Nat} {ks : List Nat} (hq : [.disc] ⊆ Lq) (hK : LK n Lq K0 s) :
    LK n Lq K0 (skipRecorded n layer slot ks s) := by
  unfold skipRecorded
  with_reducible repeat' first
    | assumption
    | refine LK.keep (u := raise _ _ _) (keeps_raise (List.Subset.refl _) (.refl _ _)) (by decide) ?_
    | refine lk_skipSlot (subL hq (by decide)) ?_
    | refine LK.fold2 _ _ _ (fun _ _ _ => ?_) ?_
    | refine LK.foldl _ _ _ (fun _ _ _ => ?_) ?_

theorem lk_countEnergy {Lq : List LanePart} {K0 : State} {n : LaneId} {s : State} {gated : List Nat} (hq : [.plife] ⊆ Lq) (hK : LK n Lq K0 s) :
    LK n Lq K0 (countEnergy n gated s) := by
  unfold countEnergy
  with_reducible repeat' first
    | assumption
    | refine LK.set ?_ ?_
    | (intro l x hx; cases x <;> with_unfolding_all first | exact absurd (memL hq (by decide)) hx | exact rfl | (dsimp only [LanePart.same]; (repeat' split) <;> rfl))
    | refine LK.ite ?_ ?_

theorem lk_setTrack {Lq : List LanePart} {K0 : State} {n : LaneId} {s : State} {k : TrackId} {f : PassTrack → PassTrack} (hq : [.wr] ⊆ Lq) (hK : LK n Lq K0 s) :
    LK n Lq K0 (setTrack n k f s) := by
  unfold setTrack
  with_reducible repeat' first
    | assumption
    | refine lk_setPass (subL hq (by decide)) ?_

theorem lk_encodeSector {Lq : List LanePart} {K0 : State} {n : LaneId} {s : State} {sec : Nat} {k : TrackId} (hq : [.wr] ⊆ Lq) (hK : LK n Lq K0 s) :
    LK n Lq K0 (encodeSector n sec k s) := by
  unfold encodeSector
  with_reducible repeat' first
    | assumption
    | refine lk_setTrack (subL hq (by decide)) ?_
    | refine LK.keep (u := (buildSector _ _ _ _ _ _ _).2.2) (keeps_buildSector (List.Subset.refl _) (.refl _ _)) (by decide) ?_
    | refine LK.ite ?_ ?_
    | refine LK.snd2 (by assumption) ?_
    | split
    | apply LK.upd

theorem lk_encodeNext {Lq : List LanePart} {K0 : State} {n : LaneId} {s : State} {sec : Nat} (hq : [.wr] ⊆ Lq) (hK : LK n Lq K0 s) :
    LK n Lq K0 (encodeNext n sec s) := by
  unfold encodeNext
  with_reducible repeat' first
    | assumption
    | refine lk_encodeSector (subL hq (by decide)) ?_
    | refine LK.fold2 _ _ _ (fun _ _ _ => ?_) ?_
    | refine LK.foldl _ _ _ (fun _ _ _ => ?_) ?_
    | refine LK.ite ?_ ?_

theorem lk_startPass {Lq : List LanePart} {K0 : State} {n : LaneId} {s : State} {layer : Nat} {slot : Nat} {good : List (Nat × TeamId × Nat)} (hq : [.st, .life, .disc, .wr, .rd, .warm] ⊆ Lq) (hK : LK n Lq K0 s) :
    LK n Lq K0 (startPass n layer slot good s) := by
  unfold startPass
  with_reducible repeat' first
    | assumption
    | refine lk_encodeNext (subL hq (by decide)) ?_
    | refine lk_enter (subL hq (by decide)) ?_
    | refine lk_setWr (subL hq (by decide)) ?_
    | refine lk_loadStrategies (subL hq (by decide)) ?_
    | refine lk_passBegins (subL hq (by decide)) ?_
    | refine lk_beginSession (subL hq (by decide)) ?_

theorem lk_beginPass {Lq : List LanePart} {K0 : State} {n : LaneId} {s : State} {layer : Nat} {slot : Nat} {good : List (Nat × TeamId × Nat)} (hq : [.st, .life, .flt, .disc, .wr, .rd, .warm] ⊆ Lq) (hK : LK n Lq K0 s) :
    LK n Lq K0 (beginPass n layer slot good s) := by
  unfold beginPass
  with_reducible repeat' first
    | assumption
    | (intro _; try intros)
    | refine lk_orderNow (subL hq (by decide)) ?_ ?_
    | refine lk_startPass (subL hq (by decide)) ?_

theorem lk_slowForWrite {Lq : List LanePart} {K0 : State} {n : LaneId} {s : State}  (hq : [.spin, .pace] ⊆ Lq) (hK : LK n Lq K0 s) :
    LK n Lq K0 (slowForWrite n s) := by
  unfold slowForWrite
  with_reducible repeat' first
    | assumption
    | refine LK.set ?_ ?_
    | (intro l x hx; cases x <;> with_unfolding_all first | exact absurd (memL hq (by decide)) hx | exact rfl | (dsimp only [LanePart.same]; (repeat' split) <;> rfl))
    | refine LK.ite ?_ ?_

theorem lk_passStart {Lq : List LanePart} {K0 : State} {n : LaneId} {s0 : State} {blank : List (TrackId × Bool)} (hq : [.st, .life, .flt, .spin, .pace, .disc, .wr, .rd, .warm] ⊆ Lq) (hK : LK n Lq K0 s0) :
    LK n Lq K0 (passStart n blank s0) := by
  unfold passStart
  with_reducible repeat' first
    | assumption
    | refine lk_slowForWrite (subL hq (by decide)) ?_
    | refine lk_orderTo (subL hq (by decide)) ?_
    | refine lk_skipRecorded (subL hq (by decide)) ?_
    | refine lk_beginPass (subL hq (by decide)) ?_
    | refine LK.ite ?_ ?_
    | split

theorem lk_execPassStart {Lq : List LanePart} {K0 : State} {n : LaneId} {s : State} {blank : List (TrackId × Bool)} (hq : [.st, .life, .flt, .spin, .pace, .disc, .wr, .rd, .warm] ⊆ Lq) (hK : LK n Lq K0 s) :
    LKO n Lq K0 (execPassStart n blank s) := by
  unfold execPassStart
  with_reducible repeat' first
    | assumption
    | refine LKO.next ?_
    | refine LKO.ite ?_ ?_
    | refine lk_passStart (subL hq (by decide)) ?_

theorem lk_sectorPlayout {Lq : List LanePart} {K0 : State} {n : LaneId} {s : State}  (hq : [.life, .flt, .loop, .spin, .sled, .disc, .wr, .plife, .waiting] ⊆ Lq) (hK : LK n Lq K0 s) :
    LK n Lq K0 (sectorPlayout n s) := by
  unfold sectorPlayout
  extract_lets
  with_reducible repeat' first
    | assumption
    | refine lk_detectFault (subL hq (by decide)) ?_
    | refine LK.keep (u := lifeLane _ _ _ _) (keeps_lifeLane (List.Subset.refl _) (.refl _ _)) (by decide) ?_
    | refine LK.keep (u := (playTrack _ _ _ _).2) (keeps_playTrack (List.Subset.refl _) (.refl _ _)) (by decide) ?_
    | refine LK.keep (u := sendSymbols _ _ _ _) (keeps_sendSymbols (List.Subset.refl _) (.refl _ _)) (by decide) ?_
    | refine lk_countEnergy (subL hq (by decide)) ?_
    | refine lk_setDisc (subL hq (by decide)) ?_
    | refine lk_encodeNext (subL hq (by decide)) ?_
    | refine lk_setWr (subL hq (by decide)) ?_
    | refine LK.fold2 _ _ _ (fun _ _ _ => ?_) ?_
    | refine LK.foldl _ _ _ (fun _ _ _ => ?_) ?_
    | refine LK.ite ?_ ?_
    | refine LK.snd (by assumption) ?_
    | split

theorem lk_execSectorPlayout {Lq : List LanePart} {K0 : State} {n : LaneId} {s : State}  (hq : [.life, .flt, .loop, .spin, .sled, .disc, .wr, .plife, .waiting] ⊆ Lq) (hK : LK n Lq K0 s) :
    LKO n Lq K0 (execSectorPlayout n s) := by
  unfold execSectorPlayout
  with_reducible repeat' first
    | assumption
    | refine LKO.next ?_
    | refine LKO.ite ?_ ?_
    | refine lk_sectorPlayout (subL hq (by decide)) ?_

theorem lk_extentVerified {Lq : List LanePart} {K0 : State} {n : LaneId} {s : State} {layer : Nat} {k : TrackId} {slot : Nat} {pt : PassTrack} (hq : [.flt, .disc, .wr] ⊆ Lq) (hK : LK n Lq K0 s) :
    LK n Lq K0 (extentVerified n layer k slot pt s) := by
  unfold extentVerified
  with_reducible repeat' first
    | assumption
    | refine lk_setDisc (subL hq (by decide)) ?_
    | refine LK.keep (u := setNs _ _ _) (keeps_setNs (List.Subset.refl _) (.refl _ _)) (by decide) ?_
    | refine LK.keep (u := setExtent _ _ _ _) (keeps_setExtent (List.Subset.refl _) (.refl _ _)) (by decide) ?_
    | refine lk_postCompletion (subL hq (by decide)) ?_
    | refine lk_setWr (subL hq (by decide)) ?_
    | refine LK.keep (u := freeExtents _ _) (keeps_freeExtents (List.Subset.refl _) (.refl _ _)) (by decide) ?_
    | refine LK.keep (u := settleWrites _ _) (keeps_settleWrites (List.Subset.refl _) (.refl _ _)) (by decide) ?_
    | refine LK.fold2 _ _ _ (fun _ _ _ => ?_) ?_
    | refine LK.foldl _ _ _ (fun _ _ _ => ?_) ?_
    | refine LK.ite ?_ ?_

theorem lk_abandonSlot {Lq : List LanePart} {K0 : State} {n : LaneId} {s : State} {layer : Nat} {k : TrackId} {slot : Nat} {e : Nat} {failed : Nat} (hq : [.flt, .disc, .wr] ⊆ Lq) (hK : LK n Lq K0 s) :
    LK n Lq K0 (abandonSlot n layer k slot e failed s) := by
  unfold abandonSlot
  with_reducible repeat' first
    | assumption
    | refine lk_setWr (subL hq (by decide)) ?_
    | refine lk_postCompletion (subL hq (by decide)) ?_
    | refine LK.keep (u := raise _ _ _) (keeps_raise (List.Subset.refl _) (.refl _ _)) (by decide) ?_
    | refine LK.keep (u := lbump _ _ _ _ _ _) (keeps_lbump (List.Subset.refl _) (.refl _ _)) (by decide) ?_
    | refine lk_skipSlot (subL hq (by decide)) ?_
    | refine LK.keep (u := warningCheck _) (keeps_warningCheck (List.Subset.refl _) (.refl _ _)) (by decide) ?_
    | refine LK.keep (u := beginWaits _ _) (keeps_beginWaits (List.Subset.refl _) (.refl _ _)) (by decide) ?_
    | refine LK.ite ?_ ?_

theorem lk_abandonExtent {Lq : List LanePart} {K0 : State} {n : LaneId} {s : State} {p : Pass} {k : TrackId} {pt : PassTrack} (hq : [.flt, .disc, .wr] ⊆ Lq) (hK : LK n Lq K0 s) :
    LK n Lq K0 (abandonExtent n p k pt s) := by
  unfold abandonExtent
  with_reducible repeat' first
    | assumption
    | refine lk_abandonSlot (subL hq (by decide)) ?_
    | refine lk_setPass (subL hq (by decide)) ?_

theorem lk_queueCopy {Lq : List LanePart} {K0 : State} {n : LaneId} {s : State} {p : Pass} {k : TrackId} {pt : PassTrack} {sec : Nat} (hq : [.disc, .wr] ⊆ Lq) (hK : LK n Lq K0 s) :
    LK n Lq K0 (queueCopy n p k pt sec s) := by
  unfold queueCopy
  with_reducible repeat' first
    | assumption
    | refine LK.keep (u := (takeSector _ _ _).2) (keeps_takeSector (List.Subset.refl _) (.refl _ _)) (by decide) ?_
    | refine lk_setWr (subL hq (by decide)) ?_
    | refine LK.keep (u := refuseSector _ _ _ _ _) (keeps_refuseSector (List.Subset.refl _) (.refl _ _)) (by decide) ?_
    | refine lk_enterReloc (subL hq (by decide)) ?_
    | refine LK.ite ?_ ?_
    | refine LK.snd (by assumption) ?_
    | split

theorem lk_endVerifyFrame {Lq : List LanePart} {K0 : State} {n : LaneId} {s : State} {k : TrackId} {psa : Nat} (hq : [.rd] ⊆ Lq) (hK : LK n Lq K0 s) :
    LK n Lq K0 (endVerifyFrame n k psa s) := by
  unfold endVerifyFrame
  with_reducible repeat' first
    | assumption
    | refine LK.set ?_ ?_
    | (intro l x hx; cases x <;> with_unfolding_all first | exact absurd (memL hq (by decide)) hx | exact rfl | (dsimp only [LanePart.same]; (repeat' split) <;> rfl))
    | refine LK.keep (u := lbump _ _ _ _ _ _) (keeps_lbump (List.Subset.refl _) (.refl _ _)) (by decide) ?_

theorem lk_sectorFailed {Lq : List LanePart} {K0 : State} {n : LaneId} {s : State} {p : Pass} {k : TrackId} {pt : PassTrack} {sec : Nat} (hq : [.disc, .wr] ⊆ Lq) (hK : LK n Lq K0 s) :
    LK n Lq K0 (sectorFailed n p k pt sec s) := by
  unfold sectorFailed
  with_reducible repeat' first
    | assumption
    | refine LK.keep (u := lbump _ _ _ _ _ _) (keeps_lbump (List.Subset.refl _) (.refl _ _)) (by decide) ?_
    | refine lk_queueCopy (subL hq (by decide)) ?_
    | refine lk_enterReloc (subL hq (by decide)) ?_
    | refine LK.ite ?_ ?_

theorem lk_sectorVerify {Lq : List LanePart} {K0 : State} {n : LaneId} {s : State} {k : TrackId} {v : VerifyRead} (hq : [.flt, .disc, .wr, .rd] ⊆ Lq) (hK : LK n Lq K0 s) :
    LK n Lq K0 (sectorVerify n k v s) := by
  unfold sectorVerify
  with_reducible repeat' first
    | assumption
    | refine lk_setPass (subL hq (by decide)) ?_
    | refine lk_endVerifyFrame (subL hq (by decide)) ?_
    | refine lk_sectorFailed (subL hq (by decide)) ?_
    | refine lk_abandonExtent (subL hq (by decide)) ?_
    | refine lk_extentVerified (subL hq (by decide)) ?_
    | refine LK.ite ?_ ?_
    | split

theorem lk_execSectorVerify {Lq : List LanePart} {K0 : State} {n : LaneId} {s : State} {k : TrackId} {v : VerifyRead} (hq : [.flt, .disc, .wr, .rd] ⊆ Lq) (hK : LK n Lq K0 s) :
    LKO n Lq K0 (execSectorVerify n k v s) := by
  unfold execSectorVerify
  with_reducible repeat' first
    | assumption
    | refine LKO.next ?_
    | refine LKO.ite ?_ ?_
    | refine lk_sectorVerify (subL hq (by decide)) ?_

theorem lk_cutPass {Lq : List LanePart} {K0 : State} {n : LaneId} {s : State}  (hq : [.disc, .wr] ⊆ Lq) (hK : LK n Lq K0 s) :
    LK n Lq K0 (cutPass n s) := by
  unfold cutPass
  with_reducible repeat' first
    | assumption
    | refine lk_skipSlot (subL hq (by decide)) ?_
    | refine lk_setWr (subL hq (by decide)) ?_
    | refine LK.fold2 _ _ _ (fun _ _ _ => ?_) ?_
    | refine LK.foldl _ _ _ (fun _ _ _ => ?_) ?_
    | refine LK.ite ?_ ?_
    | split

theorem lk_moveOffset {Lq : List LanePart} {K0 : State} {n : LaneId} {s : State} {sum : Int} {count : Nat} (hq : [.wr] ⊆ Lq) (hK : LK n Lq K0 s) :
    LK n Lq K0 (moveOffset n sum count s) := by
  unfold moveOffset
  with_reducible repeat' first
    | assumption
    | refine lk_setWr (subL hq (by decide)) ?_
    | refine LK.ite ?_ ?_

theorem lk_leaveWriting {Lq : List LanePart} {K0 : State} {n : LaneId} {s : State}  (hq : [.st, .life, .rd] ⊆ Lq) (hK : LK n Lq K0 s) :
    LK n Lq K0 (leaveWriting n s) := by
  unfold leaveWriting
  with_reducible repeat' first
    | assumption
    | refine LK.set ?_ ?_
    | (intro l x hx; cases x <;> with_unfolding_all first | exact absurd (memL hq (by decide)) hx | exact rfl | (dsimp only [LanePart.same]; (repeat' split) <;> rfl))
    | refine lk_enter (subL hq (by decide)) ?_
    | refine lk_idleChannels (subL hq (by decide)) ?_
    | refine LK.ite ?_ ?_

theorem lk_passEnd {Lq : List LanePart} {K0 : State} {n : LaneId} {s : State}  (hq : [.st, .life, .flt, .disc, .wr, .rd] ⊆ Lq) (hK : LK n Lq K0 s) :
    LK n Lq K0 (passEnd n s) := by
  unfold passEnd
  with_reducible repeat' first
    | assumption
    | refine lk_collect (subL hq (by decide)) ?_
    | refine lk_leaveWriting (subL hq (by decide)) ?_
    | refine lk_setWr (subL hq (by decide)) ?_
    | refine lk_moveOffset (subL hq (by decide)) ?_
    | refine lk_cutPass (subL hq (by decide)) ?_
    | refine LK.ite ?_ ?_
    | split

theorem lk_asWriting {Lq : List LanePart} {K0 : State} {n : LaneId} {s : State} {f : State → State} (hq : [.st, .life] ⊆ Lq) (hK : LK n Lq K0 s) (hk : ∀ q, LK n Lq K0 q → LK n Lq K0 (f q)) :
    LK n Lq K0 (asWriting n f s) := by
  unfold asWriting
  with_reducible repeat' first
    | assumption
    | refine LK.set ?_ ?_
    | (intro l x hx; cases x <;> with_unfolding_all first | exact absurd (memL hq (by decide)) hx | exact rfl | (dsimp only [LanePart.same]; (repeat' split) <;> rfl))
    | refine lk_enter (subL hq (by decide)) ?_
    | refine LK.ite ?_ ?_
    | apply hk

theorem lk_dropRefresh {Lq : List LanePart} {K0 : State} {n : LaneId} {s : State} {reason : Nat} {p : Copy → Bool} (hq : [.wr] ⊆ Lq) (hK : LK n Lq K0 s) :
    LK n Lq K0 (dropRefresh n reason p s) := by
  unfold dropRefresh
  with_reducible repeat' first
    | assumption
    | refine LK.keep (u := raise _ _ _) (keeps_raise (List.Subset.refl _) (.refl _ _)) (by decide) ?_
    | refine LK.keep (u := lbump _ _ _ _ _ _) (keeps_lbump (List.Subset.refl _) (.refl _ _)) (by decide) ?_
    | refine lk_setWr (subL hq (by decide)) ?_
    | refine LK.ite ?_ ?_

theorem lk_checkSpare {Lq : List LanePart} {K0 : State} {n : LaneId} {s : State} {layer : Nat} {k : Nat} (hq : [.disc, .wr] ⊆ Lq) (hK : LK n Lq K0 s) :
    LK n Lq K0 (checkSpare n layer k s) := by
  unfold checkSpare
  with_reducible repeat' first
    | assumption
    | refine LK.keep (u := raise _ _ _) (keeps_raise (List.Subset.refl _) (.refl _ _)) (by decide) ?_
    | refine lk_setDisc (subL hq (by decide)) ?_
    | refine lk_dropRefresh (subL hq (by decide)) ?_
    | refine LK.ite ?_ ?_
    | split

theorem lk_copyVerified {Lq : List LanePart} {K0 : State} {n : LaneId} {s : State} {c : Copy} (hq : [.wr] ⊆ Lq) (hK : LK n Lq K0 s) :
    LK n Lq K0 (copyVerified n c s) := by
  unfold copyVerified
  dsimp only
  with_reducible repeat' first
    | assumption
    | refine LK.keep (u := lbump _ _ _ _ _ _) (keeps_lbump (List.Subset.refl _) (.refl _ _)) (by decide) ?_
    | refine lk_setTrack (subL hq (by decide)) ?_
    | refine LK.keep (u := freeExtents _ _) (keeps_freeExtents (List.Subset.refl _) (.refl _ _)) (by decide) ?_
    | refine LK.keep (u := settleWrites _ _) (keeps_settleWrites (List.Subset.refl _) (.refl _ _)) (by decide) ?_
    | refine LK.keep (u := setExtent _ _ _ _) (keeps_setExtent (List.Subset.refl _) (.refl _ _)) (by decide) ?_
    | refine LK.ite ?_ ?_
    | split

theorem lk_abandonVerified {Lq : List LanePart} {K0 : State} {n : LaneId} {s : State} {c : Copy} (hq : [.flt, .disc, .wr] ⊆ Lq) (hK : LK n Lq K0 s) :
    LK n Lq K0 (abandonVerified n c s) := by
  unfold abandonVerified
  with_reducible repeat' first
    | assumption
    | refine lk_abandonSlot (subL hq (by decide)) ?_
    | refine lk_setDisc (subL hq (by decide)) ?_
    | refine LK.keep (u := setExtent _ _ _ _) (keeps_setExtent (List.Subset.refl _) (.refl _ _)) (by decide) ?_
    | split

theorem lk_requeue {Lq : List LanePart} {K0 : State} {n : LaneId} {s : State} {c : Copy} (hq : [.flt, .disc, .wr] ⊆ Lq) (hK : LK n Lq K0 s) :
    LK n Lq K0 (requeue n c s) := by
  unfold requeue
  with_reducible repeat' first
    | assumption
    | refine lk_setWr (subL hq (by decide)) ?_
    | refine LK.keep (u := lbump _ _ _ _ _ _) (keeps_lbump (List.Subset.refl _) (.refl _ _)) (by decide) ?_
    | refine lk_abandonVerified (subL hq (by decide)) ?_
    | refine LK.ite ?_ ?_
    | split

theorem lk_recordCopies {Lq : List LanePart} {K0 : State} {n : LaneId} {s : State} {layer : Nat} {k : TrackId} {band : Nat} {q : Nat} {cs : List Copy} {ok : Nat → Bool} (hq : [.flt, .disc, .wr] ⊆ Lq) (hK : LK n Lq K0 s) :
    LK n Lq K0 (recordCopies n layer k band q cs ok s) := by
  unfold recordCopies
  with_reducible repeat' first
    | assumption
    | refine lk_enterReloc (subL hq (by decide)) ?_
    | refine lk_copyVerified (subL hq (by decide)) ?_
    | refine lk_requeue (subL hq (by decide)) ?_
    | refine LK.keep (u := lbump _ _ _ _ _ _) (keeps_lbump (List.Subset.refl _) (.refl _ _)) (by decide) ?_
    | refine LK.fold2 _ _ _ (fun _ _ _ => ?_) ?_
    | refine LK.foldl _ _ _ (fun _ _ _ => ?_) ?_
    | refine LK.ite ?_ ?_
    | split

theorem lk_playExtent {Lq : List LanePart} {K0 : State} {n : LaneId} {s : State} {switch : Bool} {tracks : List (Nat × List Bytes × (Nat → Nat))} (hq : [.plife] ⊆ Lq) (hK : LK n Lq K0 s) :
    LK n Lq K0 (playExtent n switch tracks s) := by
  unfold playExtent
  with_reducible repeat' first
    | assumption
    | refine LK.keep (u := sendSymbols _ _ _ _) (keeps_sendSymbols (List.Subset.refl _) (.refl _ _)) (by decide) ?_
    | refine lk_countEnergy (subL hq (by decide)) ?_
    | refine LK.fold2 _ _ _ (fun _ _ _ => ?_) ?_
    | refine LK.foldl _ _ _ (fun _ _ _ => ?_) ?_

theorem lk_playReloc {Lq : List LanePart} {K0 : State} {n : LaneId} {s : State} {d : Disc} {layer : Nat} {band : Nat} {use : List RelocUse} (hq : [.plife] ⊆ Lq) (hK : LK n Lq K0 s) :
    LK n Lq K0 (playReloc n d layer band use s) := by
  unfold playReloc
  with_reducible repeat' first
    | assumption
    | refine lk_playExtent (subL hq (by decide)) ?_
    | refine LK.fold2 _ _ _ (fun _ _ _ => ?_) ?_
    | refine LK.foldl _ _ _ (fun _ _ _ => ?_) ?_

theorem lk_offsetOf {Lq : List LanePart} {K0 : State} {n : LaneId} {s : State} {reads : List VerifyRead} (hq : [.wr] ⊆ Lq) (hK : LK n Lq K0 s) :
    LK n Lq K0 (offsetOf n reads s) := by
  unfold offsetOf
  with_reducible repeat' first
    | assumption
    | refine lk_moveOffset (subL hq (by decide)) ?_
    | refine LK.fold2 _ _ _ (fun _ _ _ => ?_) ?_
    | refine LK.foldl _ _ _ (fun _ _ _ => ?_) ?_

theorem lk_relocate {Lq : List LanePart} {K0 : State} {n : LaneId} {s : State} {layer : Nat} {band : Nat} {taken : List RelocUse} {verify : List (TrackId × List VerifyRead)} (hq : [.flt, .disc, .wr, .rd, .warm, .plife] ⊆ Lq) (hK : LK n Lq K0 s) :
    LK n Lq K0 (relocate n layer band taken verify s) := by
  unfold relocate
  with_reducible repeat' first
    | assumption
    | refine LK.keep (u := (loadUses _ _ _).2) (keeps_loadUses (List.Subset.refl _) (.refl _ _)) (by decide) ?_
    | refine lk_setWr (subL hq (by decide)) ?_
    | refine lk_loadStrategies (subL hq (by decide)) ?_
    | refine lk_passBegins (subL hq (by decide)) ?_
    | refine lk_beginSession (subL hq (by decide)) ?_
    | refine lk_playReloc (subL hq (by decide)) ?_
    | refine lk_setDisc (subL hq (by decide)) ?_
    | refine LK.keep (u := lbump _ _ _ _ _ _) (keeps_lbump (List.Subset.refl _) (.refl _ _)) (by decide) ?_
    | refine lk_checkSpare (subL hq (by decide)) ?_
    | refine lk_recordCopies (subL hq (by decide)) ?_
    | refine lk_offsetOf (subL hq (by decide)) ?_
    | refine LK.fold2 _ _ _ (fun _ _ _ => ?_) ?_
    | refine LK.foldl _ _ _ (fun _ _ _ => ?_) ?_
    | refine LK.snd (by assumption) ?_
    | split

theorem lk_endMove {Lq : List LanePart} {K0 : State} {n : LaneId} {s : State}  (hq : [.life, .wr] ⊆ Lq) (hK : LK n Lq K0 s) :
    LK n Lq K0 (endMove n s) := by
  unfold endMove
  with_reducible repeat' first
    | assumption
    | refine LK.set ?_ ?_
    | (intro l x hx; cases x <;> with_unfolding_all first | exact absurd (memL hq (by decide)) hx | exact rfl | (dsimp only [LanePart.same]; (repeat' split) <;> rfl))
    | split

theorem lk_relocationPass {Lq : List LanePart} {K0 : State} {n : LaneId} {s : State} {verify : List (TrackId × List VerifyRead)} (hq : [.st, .life, .flt, .disc, .wr, .rd, .warm, .plife] ⊆ Lq) (hK : LK n Lq K0 s) :
    LK n Lq K0 (relocationPass n verify s) := by
  unfold relocationPass
  dsimp only
  with_reducible repeat' first
    | assumption
    | (intro _; try intros)
    | refine lk_endMove (subL hq (by decide)) ?_
    | refine lk_asWriting (subL hq (by decide)) ?_ ?_
    | refine lk_relocate (subL hq (by decide)) ?_
    | refine LK.ite ?_ ?_
    | split

theorem lk_execRelocationPass {Lq : List LanePart} {K0 : State} {n : LaneId} {s : State} {verify : List (TrackId × List VerifyRead)} (hq : [.st, .life, .flt, .disc, .wr, .rd, .warm, .plife] ⊆ Lq) (hK : LK n Lq K0 s) :
    LKO n Lq K0 (execRelocationPass n verify s) := by
  unfold execRelocationPass
  with_reducible repeat' first
    | assumption
    | refine LKO.next ?_
    | refine LKO.ite ?_ ?_
    | refine lk_relocationPass (subL hq (by decide)) ?_

theorem lk_relocationMove {Lq : List LanePart} {K0 : State} {n : LaneId} {s : State}  (hq : [.life, .wr] ⊆ Lq) (hK : LK n Lq K0 s) :
    LK n Lq K0 (relocationMove n s) := by
  unfold relocationMove
  extract_lets
  with_reducible repeat' first
    | assumption
    | refine LK.set ?_ ?_
    | (intro l x hx; cases x <;> with_unfolding_all first | exact absurd (memL hq (by decide)) hx | exact rfl | (dsimp only [LanePart.same]; (repeat' split) <;> rfl))
    | refine LK.ite ?_ ?_
    | split

theorem lk_execRelocationMove {Lq : List LanePart} {K0 : State} {n : LaneId} {s : State}  (hq : [.life, .wr] ⊆ Lq) (hK : LK n Lq K0 s) :
    LKO n Lq K0 (execRelocationMove n s) := by
  unfold execRelocationMove
  with_reducible repeat' first
    | assumption
    | refine LKO.next ?_
    | refine LKO.ite ?_ ?_
    | refine lk_relocationMove (subL hq (by decide)) ?_

end Sys2Proof.Machine
end

