-- ==== Sys2Proof/Laws/LaneWarmUpLaws.lean ====
section
/-! SUPPORT. What the operations of WarmUp.lean on a lane keep of it and of the other lanes. -/

namespace Sys2Proof.Machine

set_option linter.unusedTactic false
set_option linter.unreachableTactic false
set_option linter.unusedVariables false

theorem lk_setWarm {Lq : List LanePart} {K0 : State} {n : LaneId} {s : State} {f : WarmUp → WarmUp} (hq : [.warm] ⊆ Lq) (hK : LK n Lq K0 s) :
    LK n Lq K0 (setWarm n f s) := by
  unfold setWarm
  with_reducible repeat' first
    | assumption
    | refine LK.set ?_ ?_
    | (intro l x hx; cases x <;> with_unfolding_all first | exact absurd (memL hq (by decide)) hx | exact rfl | (dsimp only [LanePart.same]; (repeat' split) <;> rfl))

theorem lk_putTrims {Lq : List LanePart} {K0 : State} {n : LaneId} {s : State} {vals : List (Nat × Int)} (hq : [.rd, .warm] ⊆ Lq) (hK : LK n Lq K0 s) :
    LK n Lq K0 (putTrims n vals s) := by
  unfold putTrims
  with_reducible repeat' first
    | assumption
    | refine lk_takeRfAtOnce (subL hq (by decide)) ?_
    | refine lk_setWarm (subL hq (by decide)) ?_
    | refine LK.fold2 _ _ _ (fun _ _ _ => ?_) ?_
    | refine LK.foldl _ _ _ (fun _ _ _ => ?_) ?_

theorem lk_leaveHold {Lq : List LanePart} {K0 : State} {n : LaneId} {s : State}  (hq : [.st, .life] ⊆ Lq) (hK : LK n Lq K0 s) :
    LK n Lq K0 (leaveHold n s) := by
  unfold leaveHold
  with_reducible repeat' first
    | assumption
    | refine LK.set ?_ ?_
    | (intro l x hx; cases x <;> with_unfolding_all first | exact absurd (memL hq (by decide)) hx | exact rfl | (dsimp only [LanePart.same]; (repeat' split) <;> rfl))
    | refine lk_enter (subL hq (by decide)) ?_
    | refine LK.ite ?_ ?_

theorem lk_opcHold {Lq : List LanePart} {K0 : State} {n : LaneId} {s : State}  (hq : [.st, .life, .wr, .warm] ⊆ Lq) (hK : LK n Lq K0 s) :
    LK n Lq K0 (opcHold n s) := by
  unfold opcHold
  with_reducible repeat' first
    | assumption
    | refine lk_orderTo (subL hq (by decide)) ?_
    | refine lk_enter (subL hq (by decide)) ?_
    | refine lk_setWarm (subL hq (by decide)) ?_
    | refine LK.ite ?_ ?_
    | split

theorem lk_opcReturned {Lq : List LanePart} {K0 : State} {n : LaneId} {s : State}  (hq : [.st, .life, .warm] ⊆ Lq) (hK : LK n Lq K0 s) :
    LK n Lq K0 (opcReturned n s) := by
  unfold opcReturned
  extract_lets
  with_reducible repeat' first
    | assumption
    | refine lk_leaveHold (subL hq (by decide)) ?_
    | refine lk_setWarm (subL hq (by decide)) ?_
    | refine LK.ite ?_ ?_
    | split

theorem lk_holdCheck {Lq : List LanePart} {K0 : State} {n : LaneId} {s : State}  (hq : [.st, .life, .wr, .warm] ⊆ Lq) (hK : LK n Lq K0 s) :
    LK n Lq K0 (holdCheck n s) := by
  unfold holdCheck
  with_reducible repeat' first
    | assumption
    | refine lk_enter (subL hq (by decide)) ?_
    | refine lk_opcHold (subL hq (by decide)) ?_
    | refine LK.ite ?_ ?_

theorem lk_execPassEnd {Lq : List LanePart} {K0 : State} {n : LaneId} {s : State}  (hq : [.st, .life, .flt, .disc, .wr, .rd, .warm] ⊆ Lq) (hK : LK n Lq K0 s) :
    LKO n Lq K0 (execPassEnd n s) := by
  unfold execPassEnd
  with_reducible repeat' first
    | assumption
    | refine LKO.next ?_
    | refine LKO.ite ?_ ?_
    | refine lk_holdCheck (subL hq (by decide)) ?_
    | refine lk_passEnd (subL hq (by decide)) ?_

theorem lk_warmEnd {Lq : List LanePart} {K0 : State} {n : LaneId} {s : State}  (hq : [.st, .life, .wr, .warm, .plife] ⊆ Lq) (hK : LK n Lq K0 s) :
    LK n Lq K0 (warmEnd n s) := by
  unfold warmEnd
  with_reducible repeat' first
    | assumption
    | refine LK.set ?_ ?_
    | (intro l x hx; cases x <;> with_unfolding_all first | exact absurd (memL hq (by decide)) hx | exact rfl | (dsimp only [LanePart.same]; (repeat' split) <;> rfl))
    | refine lk_leaveHold (subL hq (by decide)) ?_
    | refine lk_setWarm (subL hq (by decide)) ?_
    | refine LK.keep (u := raise _ _ _) (keeps_raise (List.Subset.refl _) (.refl _ _)) (by decide) ?_
    | refine LK.keep (u := lbump _ _ _ _ _ _) (keeps_lbump (List.Subset.refl _) (.refl _ _)) (by decide) ?_
    | refine lk_setWr (subL hq (by decide)) ?_
    | refine LK.keep (u := endWaits _ _) (keeps_endWaits (List.Subset.refl _) (.refl _ _)) (by decide) ?_
    | refine LK.ite ?_ ?_

theorem lk_partResult {Lq : List LanePart} {K0 : State} {n : LaneId} {s : State} {part : Nat} {code : Nat} (hq : [.warm] ⊆ Lq) (hK : LK n Lq K0 s) :
    LK n Lq K0 (partResult n part code s) := by
  unfold partResult
  with_reducible repeat' first
    | assumption
    | refine lk_setWarm (subL hq (by decide)) ?_
    | refine LK.keep (u := raise _ _ _) (keeps_raise (List.Subset.refl _) (.refl _ _)) (by decide) ?_
    | refine LK.keep (u := lbump _ _ _ _ _ _) (keeps_lbump (List.Subset.refl _) (.refl _ _)) (by decide) ?_
    | refine LK.ite ?_ ?_

theorem lk_beginPart {Lq : List LanePart} {K0 : State} {n : LaneId} {s : State} {y0 : Nat} (hq : [.st, .life, .wr, .warm, .plife] ⊆ Lq) (hK : LK n Lq K0 s) :
    LK n Lq K0 (beginPart n y0 s) := by
  induction y0 generalizing s with
  | zero => exact hK
  | succ n ih =>
    unfold beginPart
    with_reducible repeat' first
      | assumption
      | refine ih ?_
      | refine lk_warmEnd (subL hq (by decide)) ?_
      | refine lk_setWarm (subL hq (by decide)) ?_
      | refine lk_leaveHold (subL hq (by decide)) ?_
      | refine LK.keep (u := raise _ _ _) (keeps_raise (List.Subset.refl _) (.refl _ _)) (by decide) ?_
      | refine lk_partResult (subL hq (by decide)) ?_
      | refine lk_opcHold (subL hq (by decide)) ?_
      | refine LK.ite ?_ ?_
      | split

theorem lk_endPart {Lq : List LanePart} {K0 : State} {n : LaneId} {s : State} {code : Nat} (hq : [.st, .life, .wr, .warm, .plife] ⊆ Lq) (hK : LK n Lq K0 s) :
    LK n Lq K0 (endPart n code s) := by
  unfold endPart
  with_reducible repeat' first
    | assumption
    | refine lk_beginPart (subL hq (by decide)) ?_
    | refine lk_partResult (subL hq (by decide)) ?_

theorem lk_warmUpStart {Lq : List LanePart} {K0 : State} {n : LaneId} {s : State}  (hq : [.st, .life, .wr, .warm, .plife] ⊆ Lq) (hK : LK n Lq K0 s) :
    LK n Lq K0 (warmUpStart n s) := by
  unfold warmUpStart
  with_reducible repeat' first
    | assumption
    | refine lk_beginPart (subL hq (by decide)) ?_
    | refine LK.keep (u := lbump _ _ _ _ _ _) (keeps_lbump (List.Subset.refl _) (.refl _ _)) (by decide) ?_
    | refine lk_setWarm (subL hq (by decide)) ?_
    | refine LK.ite ?_ ?_

theorem lk_execWarmUpStart {Lq : List LanePart} {K0 : State} {n : LaneId} {s : State}  (hq : [.st, .life, .wr, .warm, .plife] ⊆ Lq) (hK : LK n Lq K0 s) :
    LKO n Lq K0 (execWarmUpStart n s) := by
  unfold execWarmUpStart
  with_reducible repeat' first
    | assumption
    | refine LKO.next ?_
    | refine LKO.ite ?_ ?_
    | refine lk_warmUpStart (subL hq (by decide)) ?_

theorem lk_warmCut {Lq : List LanePart} {K0 : State} {n : LaneId} {s : State}  (hq : [.st, .life, .wr, .warm, .plife] ⊆ Lq) (hK : LK n Lq K0 s) :
    LK n Lq K0 (warmCut n s) := by
  unfold warmCut
  with_reducible repeat' first
    | assumption
    | refine lk_setWarm (subL hq (by decide)) ?_
    | refine lk_warmEnd (subL hq (by decide)) ?_
    | refine lk_partResult (subL hq (by decide)) ?_
    | refine LK.ite ?_ ?_

theorem lk_settlePart {Lq : List LanePart} {K0 : State} {n : LaneId} {s : State} {ok : Bool} {vals : List (Nat × Int)} (hq : [.st, .life, .wr, .rd, .warm, .plife] ⊆ Lq) (hK : LK n Lq K0 s) :
    LK n Lq K0 (settlePart n ok vals s) := by
  unfold settlePart
  with_reducible repeat' first
    | assumption
    | refine lk_endPart (subL hq (by decide)) ?_
    | refine lk_putTrims (subL hq (by decide)) ?_
    | refine LK.ite ?_ ?_

theorem lk_detectorEnd {Lq : List LanePart} {K0 : State} {n : LaneId} {s : State} {samples : List (List Int)} (hq : [.rd, .warm] ⊆ Lq) (hK : LK n Lq K0 s) :
    LK n Lq K0 (detectorEnd n samples s) := by
  unfold detectorEnd
  with_reducible repeat' first
    | assumption
    | refine lk_partResult (subL hq (by decide)) ?_
    | refine lk_setWarm (subL hq (by decide)) ?_
    | refine lk_putTrims (subL hq (by decide)) ?_
    | refine LK.ite ?_ ?_

theorem lk_probeEnd {Lq : List LanePart} {K0 : State} {n : LaneId} {s : State}  (hq : [.st, .life, .wr, .rd, .warm, .plife] ⊆ Lq) (hK : LK n Lq K0 s) :
    LK n Lq K0 (probeEnd n s) := by
  unfold probeEnd
  extract_lets
  with_reducible repeat' first
    | assumption
    | refine lk_setWarm (subL hq (by decide)) ?_
    | refine lk_settlePart (subL hq (by decide)) ?_
    | refine LK.ite ?_ ?_
    | split

theorem lk_warmUpPartEnd {Lq : List LanePart} {K0 : State} {n : LaneId} {s : State} {samples : List (List Int)} (hq : [.st, .life, .wr, .rd, .warm, .plife] ⊆ Lq) (hK : LK n Lq K0 s) :
    LK n Lq K0 (warmUpPartEnd n samples s) := by
  unfold warmUpPartEnd
  with_reducible repeat' first
    | assumption
    | refine lk_detectorEnd (subL hq (by decide)) ?_
    | refine lk_settlePart (subL hq (by decide)) ?_
    | refine lk_probeEnd (subL hq (by decide)) ?_
    | refine LK.ite ?_ ?_

theorem lk_execWarmUpPartEnd {Lq : List LanePart} {K0 : State} {n : LaneId} {s : State} {samples : List (List Int)} (hq : [.st, .life, .wr, .rd, .warm, .plife] ⊆ Lq) (hK : LK n Lq K0 s) :
    LKO n Lq K0 (execWarmUpPartEnd n samples s) := by
  unfold execWarmUpPartEnd
  with_reducible repeat' first
    | assumption
    | refine LKO.next ?_
    | refine LKO.ite ?_ ?_
    | refine lk_warmUpPartEnd (subL hq (by decide)) ?_

theorem lk_execWarmUpPartTimeout {Lq : List LanePart} {K0 : State} {n : LaneId} {s : State}  (hq : [.st, .life, .wr, .warm, .plife] ⊆ Lq) (hK : LK n Lq K0 s) :
    LKO n Lq K0 (execWarmUpPartTimeout n s) := by
  unfold execWarmUpPartTimeout
  with_reducible repeat' first
    | assumption
    | refine LKO.next ?_
    | refine LKO.ite ?_ ?_
    | refine lk_endPart (subL hq (by decide)) ?_
    | refine LK.ite ?_ ?_

theorem lk_warmUpRead {Lq : List LanePart} {K0 : State} {n : LaneId} {s : State}  (hq : [.st, .life, .wr, .rd, .warm] ⊆ Lq) (hK : LK n Lq K0 s) :
    LK n Lq K0 (warmUpRead n s) := by
  unfold warmUpRead
  with_reducible repeat' first
    | assumption
    | refine LK.set ?_ ?_
    | (intro l x hx; cases x <;> with_unfolding_all first | exact absurd (memL hq (by decide)) hx | exact rfl | (dsimp only [LanePart.same]; (repeat' split) <;> rfl))
    | refine lk_enter (subL hq (by decide)) ?_
    | refine lk_orderTo (subL hq (by decide)) ?_
    | refine lk_frameBegins (subL hq (by decide)) ?_
    | refine lk_idleChannels (subL hq (by decide)) ?_
    | refine LK.ite ?_ ?_
    | split

theorem lk_execWarmUpRead {Lq : List LanePart} {K0 : State} {n : LaneId} {s : State}  (hq : [.st, .life, .wr, .rd, .warm] ⊆ Lq) (hK : LK n Lq K0 s) :
    LKO n Lq K0 (execWarmUpRead n s) := by
  unfold execWarmUpRead
  with_reducible repeat' first
    | assumption
    | refine LKO.next ?_
    | refine LKO.ite ?_ ?_
    | refine lk_warmUpRead (subL hq (by decide)) ?_

theorem lk_execOpcWaitExpire {Lq : List LanePart} {K0 : State} {n : LaneId} {s : State}  (hq : [.st, .life, .wr, .warm] ⊆ Lq) (hK : LK n Lq K0 s) :
    LKO n Lq K0 (execOpcWaitExpire n s) := by
  unfold execOpcWaitExpire
  with_reducible repeat' first
    | assumption
    | refine LKO.next ?_
    | refine LKO.ite ?_ ?_
    | refine lk_opcHold (subL hq (by decide)) ?_

theorem lk_testFrame {Lq : List LanePart} {K0 : State} {n : LaneId} {s : State} {d : Disc} {layer : Nat} {u0 : Nat} {j : Nat} (hq : [.wr, .plife] ⊆ Lq) (hK : LK n Lq K0 s) :
    LK n Lq K0 (testFrame n d layer u0 j s) := by
  unfold testFrame
  with_reducible repeat' first
    | assumption
    | refine LK.keep (u := sendLaser _ _ _ _) (keeps_sendLaser (List.Subset.refl _) (.refl _ _)) (by decide) ?_
    | refine LK.keep (u := (drawBytes _ _).2) (keeps_drawBytes (List.Subset.refl _) (.refl _ _)) (by decide) ?_
    | refine LK.keep (u := (draw _ _).2) (keeps_draw (List.Subset.refl _) (.refl _ _)) (by decide) ?_
    | refine LK.keep (u := sendSymbols _ _ _ _) (keeps_sendSymbols (List.Subset.refl _) (.refl _ _)) (by decide) ?_
    | refine lk_setWr (subL hq (by decide)) ?_
    | refine lk_countEnergy (subL hq (by decide)) ?_
    | refine LK.fold2 _ _ _ (fun _ _ _ => ?_) ?_
    | refine LK.foldl _ _ _ (fun _ _ _ => ?_) ?_
    | refine LK.snd (by assumption) ?_
    | split

theorem lk_testVisit {Lq : List LanePart} {K0 : State} {n : LaneId} {s : State} {layer : Nat} {u0 : Nat} {beta : List (List Int)} {diffs : List (List Nat)} (hq : [.disc, .wr, .rd, .warm, .plife] ⊆ Lq) (hK : LK n Lq K0 s) :
    LK n Lq K0 (testVisit n layer u0 beta diffs s) := by
  unfold testVisit
  with_reducible repeat' first
    | assumption
    | refine lk_loadStrategies (subL hq (by decide)) ?_
    | refine lk_passBegins (subL hq (by decide)) ?_
    | refine lk_beginSession (subL hq (by decide)) ?_
    | refine lk_testFrame (subL hq (by decide)) ?_
    | refine LK.keep (u := lbump _ _ _ _ _ _) (keeps_lbump (List.Subset.refl _) (.refl _ _)) (by decide) ?_
    | refine lk_setDisc (subL hq (by decide)) ?_
    | refine lk_setWarm (subL hq (by decide)) ?_
    | refine LK.fold2 _ _ _ (fun _ _ _ => ?_) ?_
    | refine LK.foldl _ _ _ (fun _ _ _ => ?_) ?_

theorem lk_writePowerPass {Lq : List LanePart} {K0 : State} {n : LaneId} {s0 : State} {beta : List (List Int)} {diffs : List (List Nat)} (hq : [.st, .life, .spin, .pace, .disc, .wr, .rd, .warm, .plife] ⊆ Lq) (hK : LK n Lq K0 s0) :
    LK n Lq K0 (writePowerPass n beta diffs s0) := by
  unfold writePowerPass
  extract_lets
  with_reducible repeat' first
    | assumption
    | refine lk_slowForWrite (subL hq (by decide)) ?_
    | refine lk_opcReturned (subL hq (by decide)) ?_
    | refine lk_orderTo (subL hq (by decide)) ?_
    | refine lk_testVisit (subL hq (by decide)) ?_
    | refine LK.ite ?_ ?_
    | split

theorem lk_execWritePowerPass {Lq : List LanePart} {K0 : State} {n : LaneId} {s : State} {beta : List (List Int)} {diffs : List (List Nat)} (hq : [.st, .life, .spin, .pace, .disc, .wr, .rd, .warm, .plife] ⊆ Lq) (hK : LK n Lq K0 s) :
    LKO n Lq K0 (execWritePowerPass n beta diffs s) := by
  unfold execWritePowerPass
  with_reducible repeat' first
    | assumption
    | refine LKO.next ?_
    | refine LKO.ite ?_ ?_
    | refine lk_writePowerPass (subL hq (by decide)) ?_

theorem lk_execWarmUpRetry {Lq : List LanePart} {K0 : State} {n : LaneId} {s : State}  (hq : [.st, .life, .wr, .warm, .plife] ⊆ Lq) (hK : LK n Lq K0 s) :
    LKO n Lq K0 (execWarmUpRetry n s) := by
  unfold execWarmUpRetry
  with_reducible repeat' first
    | assumption
    | refine LKO.next ?_
    | refine LKO.ite ?_ ?_
    | refine lk_warmUpStart (subL hq (by decide)) ?_
    | refine lk_setWarm (subL hq (by decide)) ?_
    | refine LK.ite ?_ ?_
    | split

theorem lk_warmResume {Lq : List LanePart} {K0 : State} {n : LaneId} {s : State}  (hq : [.warm] ⊆ Lq) (hK : LK n Lq K0 s) :
    LK n Lq K0 (warmResume n s) := by
  unfold warmResume
  with_reducible repeat' first
    | assumption
    | refine lk_setWarm (subL hq (by decide)) ?_
    | refine LK.ite ?_ ?_

theorem lk_startWarmEffect {Lq : List LanePart} {K0 : State} {n : LaneId} {s : State} {v : Bytes} (hq : [.warm] ⊆ Lq) (hK : LK n Lq K0 s) :
    LKE n Lq K0 (startWarmEffect n v s) := by
  unfold startWarmEffect
  with_reducible repeat' first
    | assumption
    | refine LKE.ok ?_
    | exact LKE.error
    | refine LKE.ite ?_ ?_
    | refine lk_setWarm (subL hq (by decide)) ?_
    | refine LK.ite ?_ ?_

theorem lk_trimEffect {Lq : List LanePart} {K0 : State} {n : LaneId} {s : State} {first : Nat} {vals : List Int} {window : Bool} (hq : [.rd, .warm] ⊆ Lq) (hK : LK n Lq K0 s) :
    LKE n Lq K0 (trimEffect n first vals window s) := by
  unfold trimEffect
  with_reducible repeat' first
    | assumption
    | refine LKE.ok ?_
    | exact LKE.error
    | refine LKE.ite ?_ ?_
    | refine LKE.map ?_ (fun _ _ => ?_)
    | refine lk_putTrims (subL hq (by decide)) ?_
    | refine LK.ite ?_ ?_

theorem lk_trimRestoreEffect {Lq : List LanePart} {K0 : State} {n : LaneId} {s : State} {v : Bytes} (hq : [.rd, .warm] ⊆ Lq) (hK : LK n Lq K0 s) :
    LKE n Lq K0 (trimRestoreEffect n v s) := by
  unfold trimRestoreEffect
  with_reducible repeat' first
    | assumption
    | refine LKE.ok ?_
    | exact LKE.error
    | refine LKE.ite ?_ ?_
    | refine LKE.map ?_ (fun _ _ => ?_)
    | refine LK.keep (u := raise _ _ _) (keeps_raise (List.Subset.refl _) (.refl _ _)) (by decide) ?_
    | refine lk_setWarm (subL hq (by decide)) ?_
    | refine lk_putTrims (subL hq (by decide)) ?_
    | refine LK.ite ?_ ?_

end Sys2Proof.Machine
end

