-- ==== Sys2Proof/Laws/LaneLaneFaultLaws.lean ====
section
/-! SUPPORT. What the operations of LaneFault.lean on a lane keep of it and of the other lanes. -/

namespace Sys2Proof.Machine

set_option linter.unusedTactic false
set_option linter.unreachableTactic false
set_option linter.unusedVariables false

theorem lk_detectCode {Lq : List LanePart} {K0 : State} {n : LaneId} {s : State} {code : Nat} (hq : [.life, .flt, .links, .loop, .spin, .sled, .wr, .waiting] ⊆ Lq) (hK : LK n Lq K0 s) :
    LK n Lq K0 (detectCode n code s) := by
  unfold detectCode
  with_reducible repeat' first
    | assumption
    | refine LK.set ?_ ?_
    | (intro l x hx; cases x <;> with_unfolding_all first | exact absurd (memL hq (by decide)) hx | exact rfl | (dsimp only [LanePart.same]; (repeat' split) <;> rfl))
    | refine lk_rotorLost (subL hq (by decide)) ?_
    | refine lk_detectFault (subL hq (by decide)) ?_
    | refine LK.ite ?_ ?_

theorem lk_rampIfTurning {Lq : List LanePart} {K0 : State} {n : LaneId} {s : State}  (hq : [.life, .flt, .loop, .spin, .sled, .waiting] ⊆ Lq) (hK : LK n Lq K0 s) :
    LK n Lq K0 (rampIfTurning n s) := by
  unfold rampIfTurning
  with_reducible repeat' first
    | assumption
    | refine lk_rampOrder (subL hq (by decide)) ?_
    | refine LK.ite ?_ ?_

theorem lk_latchFault {Lq : List LanePart} {K0 : State} {n : LaneId} {s : State} {code : Nat} (hq : [.flt] ⊆ Lq) (hK : LK n Lq K0 s) :
    LK n Lq K0 (latchFault n code s) := by
  unfold latchFault
  with_reducible repeat' first
    | assumption
    | refine LK.set ?_ ?_
    | (intro l x hx; cases x <;> with_unfolding_all first | exact absurd (memL hq (by decide)) hx | exact rfl | (dsimp only [LanePart.same]; (repeat' split) <;> rfl))
    | refine LK.keep (u := latchEnds _ _) (keeps_latchEnds (List.Subset.refl _) (.refl _ _)) (by decide) ?_
    | refine LK.keep (u := raise _ _ _) (keeps_raise (List.Subset.refl _) (.refl _ _)) (by decide) ?_

theorem lk_countAttempt {Lq : List LanePart} {K0 : State} {n : LaneId} {s : State}  (hq : [.life, .flt, .loop, .spin, .sled, .waiting] ⊆ Lq) (hK : LK n Lq K0 s) :
    LK n Lq K0 (countAttempt n s) := by
  unfold countAttempt
  with_reducible repeat' first
    | assumption
    | refine LK.set ?_ ?_
    | (intro l x hx; cases x <;> with_unfolding_all first | exact absurd (memL hq (by decide)) hx | exact rfl | (dsimp only [LanePart.same]; (repeat' split) <;> rfl))
    | refine lk_latchFault (subL hq (by decide)) ?_
    | refine lk_rampIfTurning (subL hq (by decide)) ?_
    | refine LK.ite ?_ ?_

theorem lk_dropExtents {Lq : List LanePart} {K0 : State} {n : LaneId} {s : State}  (hq : [.pace, .disc, .wr, .rd] ⊆ Lq) (hK : LK n Lq K0 s) :
    LK n Lq K0 (dropExtents n s) := by
  unfold dropExtents
  with_reducible repeat' first
    | assumption
    | refine LK.set ?_ ?_
    | (intro l x hx; cases x <;> with_unfolding_all first | exact absurd (memL hq (by decide)) hx | exact rfl | (dsimp only [LanePart.same]; (repeat' split) <;> rfl))
    | refine lk_cutPass (subL hq (by decide)) ?_

theorem lk_reenter {Lq : List LanePart} {K0 : State} {n : LaneId} {s : State} {st : LaneState} (hq : [.st, .life, .flt, .loop, .sled] ⊆ Lq) (hK : LK n Lq K0 s) :
    LK n Lq K0 (reenter n st s) := by
  unfold reenter
  with_reducible repeat' first
    | assumption
    | refine LK.set ?_ ?_
    | (intro l x hx; cases x <;> with_unfolding_all first | exact absurd (memL hq (by decide)) hx | exact rfl | (dsimp only [LanePart.same]; (repeat' split) <;> rfl))
    | refine lk_openTracking (subL hq (by decide)) ?_
    | refine lk_openFocus (subL hq (by decide)) ?_
    | refine lk_enter (subL hq (by decide)) ?_
    | refine LK.ite ?_ ?_
    | split

end Sys2Proof.Machine
end

