-- ==== Sys2Proof/Laws/LaneLaneLifeLaws.lean ====
section
/-! SUPPORT. What the operations of LaneLife.lean on a lane keep of it and of the other lanes. -/

namespace Sys2Proof.Machine

set_option linter.unusedTactic false
set_option linter.unreachableTactic false
set_option linter.unusedVariables false

theorem lk_setLife {Lq : List LanePart} {K0 : State} {n : LaneId} {s : State} {f : Life → Life} (hq : [.life] ⊆ Lq)
    (hf : ∀ x, (f x).st = x.st) (hK : LK n Lq K0 s) : LK n Lq K0 (setLife n f s) := by
  refine LK.set (fun l x hx => ?_) hK
  cases x <;> first
    | exact hf _
    | exact absurd (memL hq (by decide)) hx
    | rfl

theorem lk_setLinks {Lq : List LanePart} {K0 : State} {n : LaneId} {s : State} {f : Links → Links} (hq : [.links] ⊆ Lq) (hK : LK n Lq K0 s) :
    LK n Lq K0 (setLinks n f s) := by
  unfold setLinks
  with_reducible repeat' first
    | assumption
    | refine LK.set ?_ ?_
    | (intro l x hx; cases x <;> with_unfolding_all first | exact absurd (memL hq (by decide)) hx | exact rfl | (dsimp only [LanePart.same]; (repeat' split) <;> rfl))

theorem lk_announceDisc {Lq : List LanePart} {K0 : State} {n : LaneId} {s : State}  (hq : [.life] ⊆ Lq) (hK : LK n Lq K0 s) :
    LK n Lq K0 (announceDisc n s) := by
  unfold announceDisc
  with_reducible repeat' first
    | assumption
    | refine LK.keep (u := raise _ _ _) (keeps_raise (List.Subset.refl _) (.refl _ _)) (by decide) ?_
    | refine lk_setLife (subL hq (by decide)) (fun _ => rfl) ?_
    | refine LK.ite ?_ ?_

theorem lk_dropClose {Lq : List LanePart} {K0 : State} {n : LaneId} {s : State}  (hq : [.disc] ⊆ Lq) (hK : LK n Lq K0 s) :
    LK n Lq K0 (dropClose n s) := by
  unfold dropClose
  with_reducible repeat' first
    | assumption
    | refine lk_setDisc (subL hq (by decide)) ?_

theorem lk_brakeIfTurning {Lq : List LanePart} {K0 : State} {n : LaneId} {s : State}  (hq : [.spin] ⊆ Lq) (hK : LK n Lq K0 s) :
    LK n Lq K0 (brakeIfTurning n s) := by
  unfold brakeIfTurning
  with_reducible repeat' first
    | assumption
    | refine lk_shortBrake (subL hq (by decide)) ?_
    | refine LK.ite ?_ ?_

theorem lk_enterOff {Lq : List LanePart} {K0 : State} {n : LaneId} {s : State}  (hq : [.st, .life, .flt, .loop, .sled, .disc, .waiting] ⊆ Lq) (hK : LK n Lq K0 s) :
    LK n Lq K0 (enterOff n s) := by
  unfold enterOff
  with_reducible repeat' first
    | assumption
    | refine LK.set ?_ ?_
    | (intro l x hx; cases x <;> with_unfolding_all first | exact absurd (memL hq (by decide)) hx | exact rfl | (dsimp only [LanePart.same, endHoming]; (repeat' split) <;> rfl))
    | refine lk_enter (subL hq (by decide)) ?_
    | refine lk_dropClose (subL hq (by decide)) ?_
    | refine lk_openFocus (subL hq (by decide)) ?_

theorem lk_enterParked {Lq : List LanePart} {K0 : State} {n : LaneId} {s : State}  (hq : [.st, .life, .loop, .spin, .sled, .disc, .plife, .waiting] ⊆ Lq) (hK : LK n Lq K0 s) :
    LK n Lq K0 (enterParked n s) := by
  unfold enterParked
  with_reducible repeat' first
    | assumption
    | refine LK.set ?_ ?_
    | (intro l x hx; cases x <;> with_unfolding_all first | exact absurd (memL hq (by decide)) hx | exact rfl | (dsimp only [LanePart.same]; (repeat' split) <;> rfl))
    | refine lk_announceDisc (subL hq (by decide)) ?_
    | refine lk_enter (subL hq (by decide)) ?_
    | refine lk_dropClose (subL hq (by decide)) ?_
    | refine lk_openFocus (subL hq (by decide)) ?_
    | split

theorem lk_execPresenceSample {Lq : List LanePart} {K0 : State} {n : LaneId} {s : State} {presence : Bool} {disc : Bool} {clamp : Bool} (hq : [.life] ⊆ Lq) (hK : LK n Lq K0 s) :
    LKO n Lq K0 (execPresenceSample n presence disc clamp s) := by
  unfold execPresenceSample
  with_reducible repeat' first
    | assumption
    | refine LKO.next ?_
    | refine LKO.ite ?_ ?_
    | refine lk_setLife (subL hq (by decide)) (fun _ => rfl) ?_
    | refine LK.ite ?_ ?_

theorem lk_homeIfTrained {Lq : List LanePart} {K0 : State} {n : LaneId} {s : State}  (hq : [.life, .sled] ⊆ Lq) (hK : LK n Lq K0 s) :
    LK n Lq K0 (homeIfTrained n s) := by
  unfold homeIfTrained
  with_reducible repeat' first
    | assumption
    | refine lk_beginHoming (subL hq (by decide)) ?_
    | refine LK.ite ?_ ?_

theorem lk_startTraining {Lq : List LanePart} {K0 : State} {n : LaneId} {s : State} {laser : Bool} (hq : [.links] ⊆ Lq) (hK : LK n Lq K0 s) :
    LK n Lq K0 (startTraining n laser s) := by
  unfold startTraining
  with_reducible repeat' first
    | assumption
    | refine LK.keep (u := lbump _ _ _ _ _ _) (keeps_lbump (List.Subset.refl _) (.refl _ _)) (by decide) ?_
    | refine lk_setLinks (subL hq (by decide)) ?_
    | refine LK.keep (u := sendTraining _ _) (keeps_sendTraining (List.Subset.refl _) (.refl _ _)) (by decide) ?_
    | refine LK.ite ?_ ?_

theorem lk_leaveOff {Lq : List LanePart} {K0 : State} {n : LaneId} {s : State}  (hq : [.life, .links, .sled] ⊆ Lq) (hK : LK n Lq K0 s) :
    LK n Lq K0 (leaveOff n s) := by
  unfold leaveOff
  with_reducible repeat' first
    | assumption
    | refine lk_setLinks (subL hq (by decide)) ?_
    | refine lk_startTraining (subL hq (by decide)) ?_
    | refine lk_homeIfTrained (subL hq (by decide)) ?_
    | refine LK.ite ?_ ?_

theorem lk_offAtRest {Lq : List LanePart} {K0 : State} {n : LaneId} {s : State}  (hq : [.st, .life, .flt, .links, .loop, .spin, .sled, .disc, .waiting] ⊆ Lq) (hK : LK n Lq K0 s) :
    LK n Lq K0 (offAtRest n s) := by
  unfold offAtRest
  with_reducible repeat' first
    | assumption
    | refine lk_leaveOff (subL hq (by decide)) ?_
    | refine lk_enterOff (subL hq (by decide)) ?_
    | refine lk_brakeIfTurning (subL hq (by decide)) ?_
    | refine LK.ite ?_ ?_

theorem lk_recoveryGoes {Lq : List LanePart} {K0 : State} {n : LaneId} {s : State}  (hq : [.st, .life, .flt, .links, .loop, .spin, .sled, .waiting] ⊆ Lq) (hK : LK n Lq K0 s) :
    LK n Lq K0 (recoveryGoes n s) := by
  unfold recoveryGoes
  extract_lets
  with_reducible repeat' first
    | assumption
    | refine lk_startTraining (subL hq (by decide)) ?_
    | refine lk_rampOrder (subL hq (by decide)) ?_
    | refine lk_beginHoming (subL hq (by decide)) ?_
    | refine lk_reenter (subL hq (by decide)) ?_
    | refine LK.ite ?_ ?_
    | split

theorem lk_linkTrainingDone {Lq : List LanePart} {K0 : State} {n : LaneId} {s : State} {laser : Bool} (hq : [.st, .life, .flt, .links, .loop, .spin, .sled, .waiting] ⊆ Lq) (hK : LK n Lq K0 s) :
    LK n Lq K0 (linkTrainingDone n laser s) := by
  unfold linkTrainingDone
  with_reducible repeat' first
    | assumption
    | refine LK.keep (u := raise _ _ _) (keeps_raise (List.Subset.refl _) (.refl _ _)) (by decide) ?_
    | refine lk_setLinks (subL hq (by decide)) ?_
    | refine lk_recoveryGoes (subL hq (by decide)) ?_
    | refine lk_homeIfTrained (subL hq (by decide)) ?_
    | refine LK.ite ?_ ?_

theorem lk_execLinkTrainingDone {Lq : List LanePart} {K0 : State} {n : LaneId} {s : State} {laser : Bool} (hq : [.st, .life, .flt, .links, .loop, .spin, .sled, .waiting] ⊆ Lq) (hK : LK n Lq K0 s) :
    LKO n Lq K0 (execLinkTrainingDone n laser s) := by
  unfold execLinkTrainingDone
  with_reducible repeat' first
    | assumption
    | refine LKO.next ?_
    | refine LKO.ite ?_ ?_
    | refine lk_linkTrainingDone (subL hq (by decide)) ?_

theorem lk_laneRecovery {Lq : List LanePart} {K0 : State} {n : LaneId} {s : State}  (hq : [.st, .life, .flt, .links, .loop, .spin, .sled, .waiting] ⊆ Lq) (hK : LK n Lq K0 s) :
    LK n Lq K0 (laneRecovery n s) := by
  unfold laneRecovery
  with_reducible repeat' first
    | assumption
    | refine LK.set ?_ ?_
    | (intro l x hx; cases x <;> with_unfolding_all first | exact absurd (memL hq (by decide)) hx | exact rfl | (dsimp only [LanePart.same]; (repeat' split) <;> rfl))
    | refine lk_countAttempt (subL hq (by decide)) ?_
    | refine lk_recoveryGoes (subL hq (by decide)) ?_
    | refine LK.ite ?_ ?_

theorem lk_execLaneRecovery {Lq : List LanePart} {K0 : State} {n : LaneId} {s : State}  (hq : [.st, .life, .flt, .links, .loop, .spin, .sled, .waiting] ⊆ Lq) (hK : LK n Lq K0 s) :
    LKO n Lq K0 (execLaneRecovery n s) := by
  unfold execLaneRecovery
  with_reducible repeat' first
    | assumption
    | refine LKO.next ?_
    | refine LKO.ite ?_ ?_
    | refine lk_laneRecovery (subL hq (by decide)) ?_

theorem lk_linkTrainingTimeout {Lq : List LanePart} {K0 : State} {n : LaneId} {s : State} {laser : Bool} (hq : [.life, .flt, .links, .loop, .spin, .sled, .waiting] ⊆ Lq) (hK : LK n Lq K0 s) :
    LK n Lq K0 (linkTrainingTimeout n laser s) := by
  unfold linkTrainingTimeout
  with_reducible repeat' first
    | assumption
    | refine lk_setLinks (subL hq (by decide)) ?_
    | refine lk_countAttempt (subL hq (by decide)) ?_
    | refine lk_startTraining (subL hq (by decide)) ?_
    | refine LK.keep (u := raise _ _ _) (keeps_raise (List.Subset.refl _) (.refl _ _)) (by decide) ?_
    | refine LK.ite ?_ ?_

theorem lk_execLinkTrainingTimeout {Lq : List LanePart} {K0 : State} {n : LaneId} {s : State} {laser : Bool} (hq : [.life, .flt, .links, .loop, .spin, .sled, .waiting] ⊆ Lq) (hK : LK n Lq K0 s) :
    LKO n Lq K0 (execLinkTrainingTimeout n laser s) := by
  unfold execLinkTrainingTimeout
  with_reducible repeat' first
    | assumption
    | refine LKO.next ?_
    | refine LKO.ite ?_ ?_
    | refine lk_linkTrainingTimeout (subL hq (by decide)) ?_

theorem lk_execLinkRetrainRetry {Lq : List LanePart} {K0 : State} {n : LaneId} {s : State} {laser : Bool} (hq : [.links] ⊆ Lq) (hK : LK n Lq K0 s) :
    LKO n Lq K0 (execLinkRetrainRetry n laser s) := by
  unfold execLinkRetrainRetry
  extract_lets
  with_reducible repeat' first
    | assumption
    | refine LKO.next ?_
    | refine LKO.ite ?_ ?_
    | refine lk_startTraining (subL hq (by decide)) ?_
    | refine lk_setLinks (subL hq (by decide)) ?_
    | refine LK.ite ?_ ?_
    | split

theorem lk_homingStall {Lq : List LanePart} {K0 : State} {n : LaneId} {s : State}  (hq : [.st, .life, .flt, .loop, .spin, .sled, .disc, .plife, .waiting] ⊆ Lq) (hK : LK n Lq K0 s) :
    LK n Lq K0 (homingStall n s) := by
  unfold homingStall
  with_reducible repeat' first
    | assumption
    | refine LK.set ?_ ?_
    | (intro l x hx; cases x <;> with_unfolding_all first | exact absurd (memL hq (by decide)) hx | exact rfl | (dsimp only [LanePart.same]; (repeat' split) <;> rfl))
    | refine LK.keep (u := lbump _ _ _ _ _ _) (keeps_lbump (List.Subset.refl _) (.refl _ _)) (by decide) ?_
    | refine lk_homeCoordinate (subL hq (by decide)) ?_
    | refine lk_backOff (subL hq (by decide)) ?_
    | refine lk_enterParked (subL hq (by decide)) ?_
    | refine lk_reenter (subL hq (by decide)) ?_
    | refine LK.ite ?_ ?_

theorem lk_execHomingStall {Lq : List LanePart} {K0 : State} {n : LaneId} {s : State}  (hq : [.st, .life, .flt, .loop, .spin, .sled, .disc, .plife, .waiting] ⊆ Lq) (hK : LK n Lq K0 s) :
    LKO n Lq K0 (execHomingStall n s) := by
  unfold execHomingStall
  with_reducible repeat' first
    | assumption
    | refine LKO.next ?_
    | refine LKO.ite ?_ ?_
    | refine lk_homingStall (subL hq (by decide)) ?_

theorem lk_takePickup {Lq : List LanePart} {K0 : State} {n : LaneId} {s : State} {b : Bytes} {temp : Int} (hq : [.life, .links, .loop, .spin, .sled, .warm, .plife] ⊆ Lq) (hK : LK n Lq K0 s) :
    LK n Lq K0 (takePickup n b temp s) := by
  unfold takePickup
  with_reducible repeat' first
    | assumption
    | refine LK.set ?_ ?_
    | (intro l x hx; cases x <;> with_unfolding_all first | exact absurd (memL hq (by decide)) hx | exact rfl | (dsimp only [LanePart.same]; (repeat' split) <;> rfl))
    | refine lk_leaveOff (subL hq (by decide)) ?_
    | refine LK.keep (u := raise _ _ _) (keeps_raise (List.Subset.refl _) (.refl _ _)) (by decide) ?_
    | refine lk_loadBanks (subL hq (by decide)) ?_

theorem lk_pickupAccept {Lq : List LanePart} {K0 : State} {n : LaneId} {s : State} {r : IdRead} (hq : [.life, .links, .loop, .spin, .sled, .warm, .plife] ⊆ Lq) (hK : LK n Lq K0 s) :
    LK n Lq K0 (pickupAccept n r s) := by
  unfold pickupAccept
  with_reducible repeat' first
    | assumption
    | refine lk_setLife (subL hq (by decide)) (fun _ => rfl) ?_
    | refine LK.keep (u := raise _ _ _) (keeps_raise (List.Subset.refl _) (.refl _ _)) (by decide) ?_
    | refine lk_takePickup (subL hq (by decide)) ?_
    | refine LK.ite ?_ ?_
    | split

theorem lk_execPickupAccept {Lq : List LanePart} {K0 : State} {n : LaneId} {s : State} {r : IdRead} (hq : [.life, .links, .loop, .spin, .sled, .warm, .plife] ⊆ Lq) (hK : LK n Lq K0 s) :
    LKO n Lq K0 (execPickupAccept n r s) := by
  unfold execPickupAccept
  with_reducible repeat' first
    | assumption
    | refine LKO.next ?_
    | refine LKO.ite ?_ ?_
    | refine lk_pickupAccept (subL hq (by decide)) ?_

theorem lk_pickupTempRead {Lq : List LanePart} {K0 : State} {n : LaneId} {s : State} {temp : Int} (hq : [.life, .flt, .loop, .spin, .sled, .wr, .warm, .plife, .waiting] ⊆ Lq) (hK : LK n Lq K0 s) :
    LK n Lq K0 (pickupTempRead n temp s) := by
  unfold pickupTempRead
  with_reducible repeat' first
    | assumption
    | refine LK.set ?_ ?_
    | (intro l x hx; cases x <;> with_unfolding_all first | exact absurd (memL hq (by decide)) hx | exact rfl | (dsimp only [LanePart.same]; (repeat' split) <;> rfl))
    | refine lk_warmResume (subL hq (by decide)) ?_
    | refine lk_detectFault (subL hq (by decide)) ?_
    | refine LK.ite ?_ ?_
    | split

theorem lk_execPickupTempRead {Lq : List LanePart} {K0 : State} {n : LaneId} {s : State} {temp : Int} (hq : [.life, .flt, .loop, .spin, .sled, .wr, .warm, .plife, .waiting] ⊆ Lq) (hK : LK n Lq K0 s) :
    LKO n Lq K0 (execPickupTempRead n temp s) := by
  unfold execPickupTempRead
  with_reducible repeat' first
    | assumption
    | refine LKO.next ?_
    | refine LKO.ite ?_ ?_
    | refine lk_pickupTempRead (subL hq (by decide)) ?_

theorem lk_forgetDisc {Lq : List LanePart} {K0 : State} {n : LaneId} {s : State}  (hq : [.life, .loop, .disc, .wr, .rd] ⊆ Lq) (hK : LK n Lq K0 s) :
    LK n Lq K0 (forgetDisc n s) := by
  unfold forgetDisc
  with_reducible repeat' first
    | assumption
    | refine LK.set ?_ ?_
    | (intro l x hx; cases x <;> with_unfolding_all first | exact absurd (memL hq (by decide)) hx | exact rfl | (dsimp only [LanePart.same]; (repeat' split) <;> rfl))
    | refine lk_dropRefresh (subL hq (by decide)) ?_
    | split

theorem lk_writeLead {Lq : List LanePart} {K0 : State} {n : LaneId} {s : State} {backup : Bool} {epoch : Nat} {records : List Bytes} (hq : [.wr, .rd, .warm, .plife] ⊆ Lq) (hK : LK n Lq K0 s) :
    LK n Lq K0 (writeLead n backup epoch records s) := by
  unfold writeLead
  with_reducible repeat' first
    | assumption
    | refine lk_loadStrategies (subL hq (by decide)) ?_
    | refine lk_passBegins (subL hq (by decide)) ?_
    | refine LK.keep (u := (leadMessages _ _ _ _ _ _).2) (keeps_leadMessages (List.Subset.refl _) (.refl _ _)) (by decide) ?_
    | refine LK.keep (u := lbump _ _ _ _ _ _) (keeps_lbump (List.Subset.refl _) (.refl _ _)) (by decide) ?_
    | refine lk_setWr (subL hq (by decide)) ?_
    | refine lk_playExtent (subL hq (by decide)) ?_
    | refine LK.ite ?_ ?_
    | refine LK.snd (by assumption) ?_
    | split

theorem lk_useLead {Lq : List LanePart} {K0 : State} {n : LaneId} {s : State} {backup : Bool} (hq : [.disc] ⊆ Lq) (hK : LK n Lq K0 s) :
    LK n Lq K0 (useLead n backup s) := by
  unfold useLead
  with_reducible repeat' first
    | assumption
    | refine lk_setDisc (subL hq (by decide)) ?_
    | refine LK.ite ?_ ?_

theorem lk_checkLeadFull {Lq : List LanePart} {K0 : State} {n : LaneId} {s : State}  (hq : [.disc, .wr] ⊆ Lq) (hK : LK n Lq K0 s) :
    LK n Lq K0 (checkLeadFull n s) := by
  unfold checkLeadFull
  with_reducible repeat' first
    | assumption
    | refine LK.keep (u := checkReadOnlyLane _ _) (keeps_checkReadOnlyLane (List.Subset.refl _) (.refl _ _)) (by decide) ?_
    | refine lk_dropRefresh (subL hq (by decide)) ?_
    | refine LK.keep (u := raise _ _ _) (keeps_raise (List.Subset.refl _) (.refl _ _)) (by decide) ?_
    | refine lk_setDisc (subL hq (by decide)) ?_
    | refine LK.ite ?_ ?_
    | split

theorem lk_blockDone {Lq : List LanePart} {K0 : State} {n : LaneId} {s : State}  (hq : [.disc] ⊆ Lq) (hK : LK n Lq K0 s) :
    LK n Lq K0 (blockDone n s) := by
  unfold blockDone
  with_reducible repeat' first
    | assumption
    | refine lk_setDisc (subL hq (by decide)) ?_

theorem lk_startLeadIn {Lq : List LanePart} {K0 : State} {n : LaneId} {s : State}  (hq : [.st, .life, .rd, .warm] ⊆ Lq) (hK : LK n Lq K0 s) :
    LK n Lq K0 (startLeadIn n s) := by
  unfold startLeadIn
  with_reducible repeat' first
    | assumption
    | refine LK.set ?_ ?_
    | (intro l x hx; cases x <;> with_unfolding_all first | exact absurd (memL hq (by decide)) hx | exact rfl | (dsimp only [LanePart.same]; (repeat' split) <;> rfl))
    | refine lk_enter (subL hq (by decide)) ?_
    | refine lk_frameBegins (subL hq (by decide)) ?_
    | refine lk_idleChannels (subL hq (by decide)) ?_

theorem lk_leadInReadStart {Lq : List LanePart} {K0 : State} {n : LaneId} {s : State}  (hq : [.st, .life, .wr, .rd, .warm] ⊆ Lq) (hK : LK n Lq K0 s) :
    LK n Lq K0 (leadInReadStart n s) := by
  unfold leadInReadStart
  with_reducible repeat' first
    | assumption
    | refine lk_orderTo (subL hq (by decide)) ?_
    | refine lk_startLeadIn (subL hq (by decide)) ?_
    | refine LK.ite ?_ ?_

theorem lk_execLeadInReadStart {Lq : List LanePart} {K0 : State} {n : LaneId} {s : State}  (hq : [.st, .life, .wr, .rd, .warm] ⊆ Lq) (hK : LK n Lq K0 s) :
    LKO n Lq K0 (execLeadInReadStart n s) := by
  unfold execLeadInReadStart
  with_reducible repeat' first
    | assumption
    | refine LKO.next ?_
    | refine LKO.ite ?_ ?_
    | refine lk_leadInReadStart (subL hq (by decide)) ?_

theorem lk_discUnusable {Lq : List LanePart} {K0 : State} {n : LaneId} {s : State} {reason : Nat} (hq : [.life, .flt, .loop, .spin, .sled, .waiting] ⊆ Lq) (hK : LK n Lq K0 s) :
    LK n Lq K0 (discUnusable n reason s) := by
  unfold discUnusable
  with_reducible repeat' first
    | assumption
    | refine lk_rampIfTurning (subL hq (by decide)) ?_
    | refine LK.keep (u := evaluateLane _ _) (keeps_evaluateLane (List.Subset.refl _) (.refl _ _)) (by decide) ?_
    | refine LK.keep (u := raise _ _ _) (keeps_raise (List.Subset.refl _) (.refl _ _)) (by decide) ?_
    | refine lk_setLife (subL hq (by decide)) (fun _ => rfl) ?_
    | split

theorem lk_leaveReading {Lq : List LanePart} {K0 : State} {n : LaneId} {s : State}  (hq : [.st, .life, .wr, .rd, .warm] ⊆ Lq) (hK : LK n Lq K0 s) :
    LK n Lq K0 (leaveReading n s) := by
  unfold leaveReading
  with_reducible repeat' first
    | assumption
    | refine LK.set ?_ ?_
    | (intro l x hx; cases x <;> with_unfolding_all first | exact absurd (memL hq (by decide)) hx | exact rfl | (dsimp only [LanePart.same]; (repeat' split) <;> rfl))
    | refine lk_holdCheck (subL hq (by decide)) ?_
    | refine lk_enter (subL hq (by decide)) ?_
    | refine lk_setLife (subL hq (by decide)) (fun _ => rfl) ?_
    | refine LK.ite ?_ ?_

theorem lk_limitDisc {Lq : List LanePart} {K0 : State} {n : LaneId} {s : State}  (hq : [.disc] ⊆ Lq) (hK : LK n Lq K0 s) :
    LK n Lq K0 (limitDisc n s) := by
  unfold limitDisc
  with_reducible repeat' first
    | assumption
    | refine lk_setDisc (subL hq (by decide)) ?_
    | refine LK.keep (u := raise _ _ _) (keeps_raise (List.Subset.refl _) (.refl _ _)) (by decide) ?_
    | refine LK.ite ?_ ?_
    | split

theorem lk_leadInRead {Lq : List LanePart} {K0 : State} {n : LaneId} {s : State} {d : Disc} (hq : [.life, .flt, .loop, .spin, .sled, .disc, .waiting] ⊆ Lq) (hK : LK n Lq K0 s) :
    LK n Lq K0 (leadInRead n d s) := by
  unfold leadInRead
  with_reducible repeat' first
    | assumption
    | refine LK.set ?_ ?_
    | (intro l x hx; cases x <;> with_unfolding_all first | exact absurd (memL hq (by decide)) hx | exact rfl | (dsimp only [LanePart.same]; (repeat' split) <;> rfl))
    | refine LK.keep (u := evaluateLane _ _) (keeps_evaluateLane (List.Subset.refl _) (.refl _ _)) (by decide) ?_
    | refine LK.keep (u := raiseIdentified _ _) (keeps_raiseIdentified (List.Subset.refl _) (.refl _ _)) (by decide) ?_
    | refine lk_limitDisc (subL hq (by decide)) ?_
    | refine lk_takeIdentity (subL hq (by decide)) ?_
    | refine lk_discUnusable (subL hq (by decide)) ?_
    | refine LK.ite ?_ ?_

theorem lk_sessionCloseDue {Lq : List LanePart} {K0 : State} {n : LaneId} {s : State}  (hq : [.disc] ⊆ Lq) (hK : LK n Lq K0 s) :
    LK n Lq K0 (sessionCloseDue n s) := by
  unfold sessionCloseDue
  with_reducible repeat' first
    | assumption
    | refine lk_setDisc (subL hq (by decide)) ?_
    | refine LK.ite ?_ ?_
    | split

theorem lk_execSessionCloseDue {Lq : List LanePart} {K0 : State} {n : LaneId} {s : State}  (hq : [.disc] ⊆ Lq) (hK : LK n Lq K0 s) :
    LKO n Lq K0 (execSessionCloseDue n s) := by
  unfold execSessionCloseDue
  with_reducible repeat' first
    | assumption
    | refine LKO.next ?_
    | refine LKO.ite ?_ ?_
    | refine lk_sessionCloseDue (subL hq (by decide)) ?_

theorem lk_sessionClosed {Lq : List LanePart} {K0 : State} {n : LaneId} {s : State} {d : Disc} {kind : Nat} (hq : [.disc] ⊆ Lq) (hK : LK n Lq K0 s) :
    LK n Lq K0 (sessionClosed n d kind s) := by
  unfold sessionClosed
  with_reducible repeat' first
    | assumption
    | refine lk_setDisc (subL hq (by decide)) ?_
    | refine LK.keep (u := raise _ _ _) (keeps_raise (List.Subset.refl _) (.refl _ _)) (by decide) ?_
    | refine LK.keep (u := startupCheck _) (keeps_startupCheck (List.Subset.refl _) (.refl _ _)) (by decide) ?_
    | refine LK.keep (u := endWaits _ _) (keeps_endWaits (List.Subset.refl _) (.refl _ _)) (by decide) ?_
    | refine LK.ite ?_ ?_

theorem lk_blockRecorded {Lq : List LanePart} {K0 : State} {n : LaneId} {s : State}  (hq : [.disc] ⊆ Lq) (hK : LK n Lq K0 s) :
    LK n Lq K0 (blockRecorded n s) := by
  unfold blockRecorded
  with_reducible repeat' first
    | assumption
    | refine lk_blockDone (subL hq (by decide)) ?_
    | refine LK.keep (u := setTeam _ _ _) (keeps_setTeam (List.Subset.refl _) (.refl _ _)) (by decide) ?_
    | refine lk_sessionClosed (subL hq (by decide)) ?_
    | split

theorem lk_blockLost {Lq : List LanePart} {K0 : State} {n : LaneId} {s : State}  (hq : [.disc] ⊆ Lq) (hK : LK n Lq K0 s) :
    LK n Lq K0 (blockLost n s) := by
  unfold blockLost
  with_reducible repeat' first
    | assumption
    | refine lk_setDisc (subL hq (by decide)) ?_
    | refine LK.keep (u := endWaits _ _) (keeps_endWaits (List.Subset.refl _) (.refl _ _)) (by decide) ?_
    | refine LK.ite ?_ ?_

theorem lk_recordBlock {Lq : List LanePart} {K0 : State} {n : LaneId} {s : State} {b : DueBlock} {backup : Bool} {verify : List VerifyRead} (hq : [.st, .life, .disc, .wr, .rd, .warm, .plife] ⊆ Lq) (hK : LK n Lq K0 s) :
    LK n Lq K0 (recordBlock n b backup verify s) := by
  unfold recordBlock
  with_reducible repeat' first
    | assumption
    | (intro _; try intros)
    | refine lk_offsetOf (subL hq (by decide)) ?_
    | refine lk_useLead (subL hq (by decide)) ?_
    | refine lk_asWriting (subL hq (by decide)) ?_ ?_
    | refine lk_writeLead (subL hq (by decide)) ?_
    | refine lk_blockRecorded (subL hq (by decide)) ?_
    | refine lk_setDisc (subL hq (by decide)) ?_
    | refine lk_checkLeadFull (subL hq (by decide)) ?_
    | refine LK.ite ?_ ?_

theorem lk_sessionCloseWrite {Lq : List LanePart} {K0 : State} {n : LaneId} {s0 : State} {verify : List VerifyRead} (hq : [.st, .life, .spin, .pace, .disc, .wr, .rd, .warm, .plife] ⊆ Lq) (hK : LK n Lq K0 s0) :
    LK n Lq K0 (sessionCloseWrite n verify s0) := by
  unfold sessionCloseWrite
  extract_lets
  with_reducible repeat' first
    | assumption
    | refine lk_blockLost (subL hq (by decide)) ?_
    | refine lk_slowForWrite (subL hq (by decide)) ?_
    | refine lk_orderTo (subL hq (by decide)) ?_
    | refine lk_recordBlock (subL hq (by decide)) ?_
    | refine LK.ite ?_ ?_
    | split

theorem lk_execSessionCloseWrite {Lq : List LanePart} {K0 : State} {n : LaneId} {s : State} {verify : List VerifyRead} (hq : [.st, .life, .spin, .pace, .disc, .wr, .rd, .warm, .plife] ⊆ Lq) (hK : LK n Lq K0 s) :
    LKO n Lq K0 (execSessionCloseWrite n verify s) := by
  unfold execSessionCloseWrite
  with_reducible repeat' first
    | assumption
    | refine LKO.next ?_
    | refine LKO.ite ?_ ?_
    | refine lk_sessionCloseWrite (subL hq (by decide)) ?_

theorem lk_scanSlots {Lq : List LanePart} {K0 : State} {n : LaneId} {s : State} {layer : Nat} {k : Nat} {y0 : List SlotRead} {y1 : Nat} (hq : [.disc] ⊆ Lq) (hK : LK n Lq K0 s) :
    LK n Lq K0 (scanSlots n layer k y0 y1 s) := by
  induction y0 generalizing y1 s with
  | nil => exact hK
  | cons a l ih =>
    unfold scanSlots
    with_reducible repeat' first
      | assumption
      | refine ih ?_
      | refine lk_setDisc (subL hq (by decide)) ?_
      | refine lk_skipSlot (subL hq (by decide)) ?_
      | refine LK.ite ?_ ?_
      | split

theorem lk_scanCopy {Lq : List LanePart} {K0 : State} {n : LaneId} {s : State} {c : CopyRead} (hq : [.disc] ⊆ Lq) (hK : LK n Lq K0 s) :
    LK n Lq K0 (scanCopy n c s) := by
  unfold scanCopy
  with_reducible repeat' first
    | assumption
    | refine lk_enterReloc (subL hq (by decide)) ?_
    | refine LK.ite ?_ ?_
    | split

theorem lk_recoveryScanEnd {Lq : List LanePart} {K0 : State} {n : LaneId} {s : State} {r : ScanRead} (hq : [.disc] ⊆ Lq) (hK : LK n Lq K0 s) :
    LK n Lq K0 (recoveryScanEnd n r s) := by
  unfold recoveryScanEnd
  extract_lets
  with_reducible repeat' first
    | assumption
    | refine LK.keep (u := (draw _ _).2) (keeps_draw (List.Subset.refl _) (.refl _ _)) (by decide) ?_
    | refine lk_setDisc (subL hq (by decide)) ?_
    | refine lk_scanSlots (subL hq (by decide)) ?_
    | refine lk_scanCopy (subL hq (by decide)) ?_
    | refine LK.fold2 _ _ _ (fun _ _ _ => ?_) ?_
    | refine LK.foldl _ _ _ (fun _ _ _ => ?_) ?_
    | refine LK.ite ?_ ?_
    | refine LK.snd (by assumption) ?_
    | split

theorem lk_execRecoveryScanEnd {Lq : List LanePart} {K0 : State} {n : LaneId} {s : State} {r : ScanRead} (hq : [.disc] ⊆ Lq) (hK : LK n Lq K0 s) :
    LKO n Lq K0 (execRecoveryScanEnd n r s) := by
  unfold execRecoveryScanEnd
  with_reducible repeat' first
    | assumption
    | refine LKO.next ?_
    | refine LKO.ite ?_ ?_
    | refine lk_recoveryScanEnd (subL hq (by decide)) ?_

end Sys2Proof.Machine
end

