-- ==== Sys2Proof/Laws/LanePacerLaws.lean ====
section
/-! SUPPORT. What the operations of Pacer.lean on a lane keep of it and of the other lanes. -/

namespace Sys2Proof.Machine

set_option linter.unusedTactic false
set_option linter.unreachableTactic false
set_option linter.unusedVariables false

theorem lk_takeVelocity {Lq : List LanePart} {K0 : State} {n : LaneId} {s : State} {v : Nat} (hq : [.pace] ⊆ Lq) (hK : LK n Lq K0 s) :
    LK n Lq K0 (takeVelocity n v s) := by
  unfold takeVelocity
  with_reducible repeat' first
    | assumption
    | refine LK.set ?_ ?_
    | (intro l x hx; cases x <;> with_unfolding_all first | exact absurd (memL hq (by decide)) hx | exact rfl | (dsimp only [LanePart.same]; (repeat' split) <;> rfl))
    | refine LK.ite ?_ ?_

theorem lk_pacerEvaluation {Lq : List LanePart} {K0 : State} {n : LaneId} {s : State}  (hq : [.pace] ⊆ Lq) (hK : LK n Lq K0 s) :
    LK n Lq K0 (pacerEvaluation n s) := by
  unfold pacerEvaluation
  with_reducible repeat' first
    | assumption
    | refine LK.set ?_ ?_
    | (intro l x hx; cases x <;> with_unfolding_all first | exact absurd (memL hq (by decide)) hx | exact rfl | (dsimp only [LanePart.same]; (repeat' split) <;> rfl))
    | refine LK.keep (u := raise _ _ _) (keeps_raise (List.Subset.refl _) (.refl _ _)) (by decide) ?_
    | refine lk_takeVelocity (subL hq (by decide)) ?_
    | refine LK.ite ?_ ?_
    | split

theorem lk_execPacerEvaluation {Lq : List LanePart} {K0 : State} {n : LaneId} {s : State}  (hq : [.pace] ⊆ Lq) (hK : LK n Lq K0 s) :
    LKO n Lq K0 (execPacerEvaluation n s) := by
  unfold execPacerEvaluation
  with_reducible repeat' first
    | assumption
    | refine LKO.next ?_
    | refine LKO.ite ?_ ?_
    | refine lk_pacerEvaluation (subL hq (by decide)) ?_

end Sys2Proof.Machine
end

