-- ==== Sys2Proof/Laws/LaneTrackLaws.lean ====
section
/-! SUPPORT. What the operations of Track.lean on a lane keep of it and of the other lanes. -/

namespace Sys2Proof.Machine

set_option linter.unusedTactic false
set_option linter.unreachableTactic false
set_option linter.unusedVariables false

theorem lk_beginStart {Lq : List LanePart} {K0 : State} {n : LaneId} {s : State}  (hq : [.life, .spin, .warm, .waiting] ⊆ Lq) (hK : LK n Lq K0 s) :
    LK n Lq K0 (beginStart n s) := by
  unfold beginStart
  with_reducible repeat' first
    | assumption
    | refine LK.set ?_ ?_
    | (intro l x hx; cases x <;> with_unfolding_all first | exact absurd (memL hq (by decide)) hx | exact rfl | (dsimp only [LanePart.same]; (repeat' split) <;> rfl))
    | refine LK.keep (u := lbump _ _ _ _ _ _) (keeps_lbump (List.Subset.refl _) (.refl _ _)) (by decide) ?_
    | refine LK.ite ?_ ?_
    | split

theorem lk_spinUp {Lq : List LanePart} {K0 : State} {n : LaneId} {s : State}  (hq : [.life, .flt, .spin, .warm, .waiting] ⊆ Lq) (hK : LK n Lq K0 s) :
    LK n Lq K0 (spinUp n s) := by
  unfold spinUp
  with_reducible repeat' first
    | assumption
    | refine LK.set ?_ ?_
    | (intro l x hx; cases x <;> with_unfolding_all first | exact absurd (memL hq (by decide)) hx | exact rfl | (dsimp only [LanePart.same]; (repeat' split) <;> rfl))
    | (intro _; try intros)
    | refine lk_orderNow (subL hq (by decide)) ?_ ?_
    | refine lk_beginStart (subL hq (by decide)) ?_
    | refine LK.keep (u := raiseSupply _ _) (keeps_raiseSupply (List.Subset.refl _) (.refl _ _)) (by decide) ?_
    | refine LK.ite ?_ ?_

theorem lk_execSpinUp {Lq : List LanePart} {K0 : State} {n : LaneId} {s : State}  (hq : [.life, .flt, .spin, .warm, .waiting] ⊆ Lq) (hK : LK n Lq K0 s) :
    LKO n Lq K0 (execSpinUp n s) := by
  unfold execSpinUp
  with_reducible repeat' first
    | assumption
    | refine LKO.next ?_
    | refine LKO.ite ?_ ?_
    | refine lk_spinUp (subL hq (by decide)) ?_

theorem lk_sweepFailed {Lq : List LanePart} {K0 : State} {n : LaneId} {s : State}  (hq : [.life, .flt, .loop, .spin, .sled, .wr, .waiting] ⊆ Lq) (hK : LK n Lq K0 s) :
    LK n Lq K0 (sweepFailed n s) := by
  unfold sweepFailed
  with_reducible repeat' first
    | assumption
    | refine lk_openFocus (subL hq (by decide)) ?_
    | refine lk_setLife (subL hq (by decide)) (fun _ => rfl) ?_
    | refine lk_discUnusable (subL hq (by decide)) ?_
    | refine lk_detectFault (subL hq (by decide)) ?_
    | refine LK.ite ?_ ?_
    | split

theorem lk_focusReached {Lq : List LanePart} {K0 : State} {n : LaneId} {s : State}  (hq : [.st, .life] ⊆ Lq) (hK : LK n Lq K0 s) :
    LK n Lq K0 (focusReached n s) := by
  unfold focusReached
  with_reducible repeat' first
    | assumption
    | refine lk_enter (subL hq (by decide)) ?_
    | refine LK.ite ?_ ?_

theorem lk_focusClosed {Lq : List LanePart} {K0 : State} {n : LaneId} {s : State} {position : Int} (hq : [.st, .life, .loop] ⊆ Lq) (hK : LK n Lq K0 s) :
    LK n Lq K0 (focusClosed n position s) := by
  unfold focusClosed
  with_reducible repeat' first
    | assumption
    | refine LK.set ?_ ?_
    | (intro l x hx; cases x <;> with_unfolding_all first | exact absurd (memL hq (by decide)) hx | exact rfl | (dsimp only [LanePart.same]; (repeat' split) <;> rfl))
    | refine lk_focusReached (subL hq (by decide)) ?_
    | refine lk_setClosed (subL hq (by decide)) ?_

theorem lk_focusCapture {Lq : List LanePart} {K0 : State} {n : LaneId} {s : State} {peaks : List Nat} {position : Int} (hq : [.st, .life, .flt, .loop, .spin, .sled, .wr, .waiting] ⊆ Lq) (hK : LK n Lq K0 s) :
    LK n Lq K0 (focusCapture n peaks position s) := by
  unfold focusCapture
  with_reducible repeat' first
    | assumption
    | refine lk_focusClosed (subL hq (by decide)) ?_
    | refine lk_sweepFailed (subL hq (by decide)) ?_
    | refine LK.ite ?_ ?_

theorem lk_execFocusCapture {Lq : List LanePart} {K0 : State} {n : LaneId} {s : State} {peaks : List Nat} {position : Int} (hq : [.st, .life, .flt, .loop, .spin, .sled, .wr, .waiting] ⊆ Lq) (hK : LK n Lq K0 s) :
    LKO n Lq K0 (execFocusCapture n peaks position s) := by
  unfold execFocusCapture
  with_reducible repeat' first
    | assumption
    | refine LKO.next ?_
    | refine LKO.ite ?_ ?_
    | refine lk_focusCapture (subL hq (by decide)) ?_

theorem lk_warmJump {Lq : List LanePart} {K0 : State} {n : LaneId} {s : State}  (hq : [.warm] ⊆ Lq) (hK : LK n Lq K0 s) :
    LK n Lq K0 (warmJump n s) := by
  unfold warmJump
  with_reducible repeat' first
    | assumption
    | refine lk_setWarm (subL hq (by decide)) ?_
    | refine LK.ite ?_ ?_

theorem lk_strideToTarget {Lq : List LanePart} {K0 : State} {n : LaneId} {s : State}  (hq : [.flt, .loop, .sled] ⊆ Lq) (hK : LK n Lq K0 s) :
    LK n Lq K0 (strideToTarget n s) := by
  unfold strideToTarget
  with_reducible repeat' first
    | assumption
    | refine lk_strideAccept (subL hq (by decide)) ?_

theorem lk_layerJump {Lq : List LanePart} {K0 : State} {n : LaneId} {s : State} {outward : Bool} {landed : Bool} (hq : [.st, .life, .flt, .loop, .spin, .sled, .wr, .rd, .warm, .waiting] ⊆ Lq) (hK : LK n Lq K0 s) :
    LK n Lq K0 (layerJump n outward landed s) := by
  unfold layerJump
  extract_lets
  with_reducible repeat' first
    | assumption
    | refine LK.set ?_ ?_
    | (intro l x hx; cases x <;> with_unfolding_all first | exact absurd (memL hq (by decide)) hx | exact rfl | (dsimp only [LanePart.same]; (repeat' split) <;> rfl))
    | refine lk_spoil (subL hq (by decide)) ?_
    | refine lk_openTracking (subL hq (by decide)) ?_
    | refine LK.keep (u := lifeLane _ _ _ _) (keeps_lifeLane (List.Subset.refl _) (.refl _ _)) (by decide) ?_
    | refine lk_idleChannels (subL hq (by decide)) ?_
    | refine lk_strideToTarget (subL hq (by decide)) ?_
    | refine lk_focusReached (subL hq (by decide)) ?_
    | refine lk_warmJump (subL hq (by decide)) ?_
    | refine lk_setLife (subL hq (by decide)) (fun _ => rfl) ?_
    | refine lk_detectFault (subL hq (by decide)) ?_
    | refine LK.ite ?_ ?_
    | split

theorem lk_execLayerJump {Lq : List LanePart} {K0 : State} {n : LaneId} {s : State} {outward : Bool} {landed : Bool} (hq : [.st, .life, .flt, .loop, .spin, .sled, .wr, .rd, .warm, .waiting] ⊆ Lq) (hK : LK n Lq K0 s) :
    LKO n Lq K0 (execLayerJump n outward landed s) := by
  unfold execLayerJump
  with_reducible repeat' first
    | assumption
    | refine LKO.next ?_
    | refine LKO.ite ?_ ?_
    | refine lk_layerJump (subL hq (by decide)) ?_

theorem lk_armAt {Lq : List LanePart} {K0 : State} {n : LaneId} {s : State} {pos : Nat} {num : Int} (hq : [.sled] ⊆ Lq) (hK : LK n Lq K0 s) :
    LK n Lq K0 (armAt n pos num s) := by
  unfold armAt
  with_reducible repeat' first
    | assumption
    | refine LK.set ?_ ?_
    | (intro l x hx; cases x <;> with_unfolding_all first | exact absurd (memL hq (by decide)) hx | exact rfl | (dsimp only [LanePart.same]; (repeat' split) <;> rfl))

theorem lk_seek {Lq : List LanePart} {K0 : State} {n : LaneId} {s : State}  (hq : [.life, .flt, .loop, .spin, .sled, .rd] ⊆ Lq) (hK : LK n Lq K0 s) :
    LK n Lq K0 (seek n s) := by
  unfold seek
  extract_lets
  with_reducible repeat' first
    | assumption
    | refine LK.set ?_ ?_
    | (intro l x hx; cases x <;> with_unfolding_all first | exact absurd (memL hq (by decide)) hx | exact rfl | (dsimp only [LanePart.same]; (repeat' split) <;> rfl))
    | refine lk_setLife (subL hq (by decide)) (fun _ => rfl) ?_
    | refine lk_armAt (subL hq (by decide)) ?_
    | refine lk_spoil (subL hq (by decide)) ?_
    | refine lk_idleChannels (subL hq (by decide)) ?_
    | refine lk_strideToTarget (subL hq (by decide)) ?_
    | refine lk_openTracking (subL hq (by decide)) ?_
    | refine LK.ite ?_ ?_
    | split

theorem lk_follow {Lq : List LanePart} {K0 : State} {n : LaneId} {s : State}  (hq : [.sled] ⊆ Lq) (hK : LK n Lq K0 s) :
    LK n Lq K0 (follow n s) := by
  unfold follow
  with_reducible repeat' first
    | assumption
    | refine LK.set ?_ ?_
    | (intro l x hx; cases x <;> with_unfolding_all first | exact absurd (memL hq (by decide)) hx | exact rfl | (dsimp only [LanePart.same]; (repeat' split) <;> rfl))
    | refine lk_armAt (subL hq (by decide)) ?_
    | refine LK.ite ?_ ?_

theorem lk_captured {Lq : List LanePart} {K0 : State} {n : LaneId} {s : State} {w : WobbleRead} {a : WobbleAddr} (hq : [.st, .life, .flt, .loop, .spin, .sled, .wr, .rd] ⊆ Lq) (hK : LK n Lq K0 s) :
    LK n Lq K0 (captured n w a s) := by
  unfold captured
  with_reducible repeat' first
    | assumption
    | refine LK.set ?_ ?_
    | (intro l x hx; cases x <;> with_unfolding_all first | exact absurd (memL hq (by decide)) hx | exact rfl | (dsimp only [LanePart.same]; (repeat' split) <;> rfl))
    | refine lk_gearEngage (subL hq (by decide)) ?_
    | refine lk_setClosed (subL hq (by decide)) ?_
    | refine lk_startLearning (subL hq (by decide)) ?_
    | refine lk_enter (subL hq (by decide)) ?_
    | refine lk_seek (subL hq (by decide)) ?_
    | refine LK.ite ?_ ?_
    | split

theorem lk_bandCapture {Lq : List LanePart} {K0 : State} {n : LaneId} {s : State} {w : WobbleRead} {speeds : List Nat} (hq : [.st, .life, .flt, .loop, .spin, .sled, .wr, .rd, .waiting] ⊆ Lq) (hK : LK n Lq K0 s) :
    LK n Lq K0 (bandCapture n w speeds s) := by
  unfold bandCapture
  with_reducible repeat' first
    | assumption
    | refine lk_setLife (subL hq (by decide)) (fun _ => rfl) ?_
    | refine lk_sweepFailed (subL hq (by decide)) ?_
    | refine lk_captured (subL hq (by decide)) ?_
    | refine lk_shiftCoordinate (subL hq (by decide)) ?_
    | refine lk_detectFault (subL hq (by decide)) ?_
    | refine LK.keep (u := raise _ _ _) (keeps_raise (List.Subset.refl _) (.refl _ _)) (by decide) ?_
    | refine LK.keep (u := lbump _ _ _ _ _ _) (keeps_lbump (List.Subset.refl _) (.refl _ _)) (by decide) ?_
    | refine LK.ite ?_ ?_
    | split

theorem lk_execBandCapture {Lq : List LanePart} {K0 : State} {n : LaneId} {s : State} {w : WobbleRead} {speeds : List Nat} (hq : [.st, .life, .flt, .loop, .spin, .sled, .wr, .rd, .waiting] ⊆ Lq) (hK : LK n Lq K0 s) :
    LKO n Lq K0 (execBandCapture n w speeds s) := by
  unfold execBandCapture
  with_reducible repeat' first
    | assumption
    | refine LKO.next ?_
    | refine LKO.ite ?_ ?_
    | refine lk_bandCapture (subL hq (by decide)) ?_

theorem lk_takeAddress {Lq : List LanePart} {K0 : State} {n : LaneId} {s : State} {w : WobbleRead} (hq : [.life, .spin, .wr] ⊆ Lq) (hK : LK n Lq K0 s) :
    LK n Lq K0 (takeAddress n w s) := by
  unfold takeAddress
  with_reducible repeat' first
    | assumption
    | refine LK.set ?_ ?_
    | (intro l x hx; cases x <;> with_unfolding_all first | exact absurd (memL hq (by decide)) hx | exact rfl | (dsimp only [LanePart.same]; (repeat' split) <;> rfl))
    | refine LK.ite ?_ ?_

theorem lk_takeIndex {Lq : List LanePart} {K0 : State} {n : LaneId} {s : State} {w : WobbleRead} (hq : [.loop] ⊆ Lq) (hK : LK n Lq K0 s) :
    LK n Lq K0 (takeIndex n w s) := by
  unfold takeIndex
  with_reducible repeat' first
    | assumption
    | refine LK.set ?_ ?_
    | (intro l x hx; cases x <;> with_unfolding_all first | exact absurd (memL hq (by decide)) hx | exact rfl | (dsimp only [LanePart.same]; (repeat' split) <;> rfl))
    | refine LK.ite ?_ ?_

theorem lk_addressMismatch {Lq : List LanePart} {K0 : State} {n : LaneId} {s : State}  (hq : [.loop, .sled, .wr] ⊆ Lq) (hK : LK n Lq K0 s) :
    LK n Lq K0 (addressMismatch n s) := by
  unfold addressMismatch
  with_reducible repeat' first
    | assumption
    | refine lk_openTracking (subL hq (by decide)) ?_
    | refine LK.keep (u := raise _ _ _) (keeps_raise (List.Subset.refl _) (.refl _ _)) (by decide) ?_
    | refine lk_setPass (subL hq (by decide)) ?_

theorem lk_becomeReady {Lq : List LanePart} {K0 : State} {n : LaneId} {s : State}  (hq : [.st, .life, .flt, .wr, .warm] ⊆ Lq) (hK : LK n Lq K0 s) :
    LK n Lq K0 (becomeReady n s) := by
  unfold becomeReady
  with_reducible repeat' first
    | assumption
    | refine LK.set ?_ ?_
    | (intro l x hx; cases x <;> with_unfolding_all first | exact absurd (memL hq (by decide)) hx | exact rfl | (dsimp only [LanePart.same]; (repeat' split) <;> rfl))
    | refine lk_enter (subL hq (by decide)) ?_
    | refine lk_holdCheck (subL hq (by decide)) ?_
    | refine LK.keep (u := endWaits _ _) (keeps_endWaits (List.Subset.refl _) (.refl _ _)) (by decide) ?_
    | refine LK.ite ?_ ?_

theorem lk_preamble {Lq : List LanePart} {K0 : State} {n : LaneId} {s : State}  (hq : [.rd] ⊆ Lq) (hK : LK n Lq K0 s) :
    LK n Lq K0 (preamble n s) := by
  unfold preamble
  with_reducible repeat' first
    | assumption
    | refine LK.set ?_ ?_
    | (intro l x hx; cases x <;> with_unfolding_all first | exact absurd (memL hq (by decide)) hx | exact rfl | (dsimp only [LanePart.same]; (repeat' split) <;> rfl))
    | refine lk_idleChannels (subL hq (by decide)) ?_
    | refine LK.ite ?_ ?_

theorem lk_wobbleFrame {Lq : List LanePart} {K0 : State} {n : LaneId} {s : State} {w : WobbleRead} (hq : [.st, .life, .flt, .loop, .spin, .sled, .wr, .rd, .warm] ⊆ Lq) (hK : LK n Lq K0 s) :
    LK n Lq K0 (wobbleFrame n w s) := by
  unfold wobbleFrame
  with_reducible repeat' first
    | assumption
    | refine lk_preamble (subL hq (by decide)) ?_
    | refine lk_takeIndex (subL hq (by decide)) ?_
    | refine lk_takeAddress (subL hq (by decide)) ?_
    | refine lk_addressMismatch (subL hq (by decide)) ?_
    | refine lk_follow (subL hq (by decide)) ?_
    | refine lk_seek (subL hq (by decide)) ?_
    | refine lk_becomeReady (subL hq (by decide)) ?_
    | refine lk_opcReturned (subL hq (by decide)) ?_
    | refine LK.ite ?_ ?_
    | split

theorem lk_execWobbleFrame {Lq : List LanePart} {K0 : State} {n : LaneId} {s : State} {w : WobbleRead} (hq : [.st, .life, .flt, .loop, .spin, .sled, .wr, .rd, .warm] ⊆ Lq) (hK : LK n Lq K0 s) :
    LKO n Lq K0 (execWobbleFrame n w s) := by
  unfold execWobbleFrame
  with_reducible repeat' first
    | assumption
    | refine LKO.next ?_
    | refine LKO.ite ?_ ?_
    | refine lk_wobbleFrame (subL hq (by decide)) ?_

theorem lk_execWriteClockUnlock {Lq : List LanePart} {K0 : State} {n : LaneId} {s : State} {errors : List Int} (hq : [.life, .flt, .loop, .spin, .sled, .wr, .waiting] ⊆ Lq) (hK : LK n Lq K0 s) :
    LKO n Lq K0 (execWriteClockUnlock n errors s) := by
  unfold execWriteClockUnlock
  with_reducible repeat' first
    | assumption
    | refine LKO.next ?_
    | refine LKO.ite ?_ ?_
    | refine lk_detectFault (subL hq (by decide)) ?_
    | refine lk_setWr (subL hq (by decide)) ?_
    | refine LK.ite ?_ ?_

theorem lk_execIdleParkTimeout {Lq : List LanePart} {K0 : State} {n : LaneId} {s : State}  (hq : [.life, .flt, .loop, .spin, .sled, .waiting] ⊆ Lq) (hK : LK n Lq K0 s) :
    LKO n Lq K0 (execIdleParkTimeout n s) := by
  unfold execIdleParkTimeout
  with_reducible repeat' first
    | assumption
    | refine LKO.next ?_
    | refine LKO.ite ?_ ?_
    | refine lk_rampOrder (subL hq (by decide)) ?_
    | refine LK.ite ?_ ?_

theorem lk_execRampDown {Lq : List LanePart} {K0 : State} {n : LaneId} {s : State}  (hq : [.life, .flt, .loop, .spin, .sled, .waiting] ⊆ Lq) (hK : LK n Lq K0 s) :
    LKO n Lq K0 (execRampDown n s) := by
  unfold execRampDown
  with_reducible repeat' first
    | assumption
    | refine LKO.next ?_
    | refine LKO.ite ?_ ?_
    | refine lk_rampOrder (subL hq (by decide)) ?_
    | refine LK.ite ?_ ?_

theorem lk_resetLane {Lq : List LanePart} {K0 : State} {n : LaneId} {s : State}  (hq : [.st, .life, .flt, .loop, .sled, .disc, .wr, .rd, .warm, .plife, .waiting] ⊆ Lq) (hK : LK n Lq K0 s) :
    LK n Lq K0 (resetLane n s) := by
  unfold resetLane
  with_reducible repeat' first
    | assumption
    | refine LK.set ?_ ?_
    | (intro l x hx; cases x <;> with_unfolding_all first | exact absurd (memL hq (by decide)) hx | exact rfl | (dsimp only [LanePart.same]; (repeat' split) <;> rfl))
    | refine lk_dropRefresh (subL hq (by decide)) ?_
    | refine lk_enterOff (subL hq (by decide)) ?_
    | refine LK.keep (u := endWaits _ _) (keeps_endWaits (List.Subset.refl _) (.refl _ _)) (by decide) ?_
    | refine LK.keep (u := unstore _ _ _) (keeps_unstore (List.Subset.refl _) (.refl _ _)) (by decide) ?_

theorem lk_atRest {Lq : List LanePart} {K0 : State} {n : LaneId} {s : State}  (hq : [.st, .life, .flt, .links, .loop, .spin, .sled, .disc, .wr, .rd, .warm, .plife, .waiting] ⊆ Lq) (hK : LK n Lq K0 s) :
    LK n Lq K0 (atRest n s) := by
  unfold atRest
  with_reducible repeat' first
    | assumption
    | refine LK.set ?_ ?_
    | (intro l x hx; cases x <;> with_unfolding_all first | exact absurd (memL hq (by decide)) hx | exact rfl | (dsimp only [LanePart.same]; (repeat' split) <;> rfl))
    | refine lk_resetLane (subL hq (by decide)) ?_
    | refine lk_enterParked (subL hq (by decide)) ?_
    | refine lk_leaveOff (subL hq (by decide)) ?_
    | refine lk_enterOff (subL hq (by decide)) ?_
    | refine lk_setLife (subL hq (by decide)) (fun _ => rfl) ?_
    | refine lk_recoveryGoes (subL hq (by decide)) ?_
    | refine LK.ite ?_ ?_

theorem lk_execShortBrakeRest {Lq : List LanePart} {K0 : State} {n : LaneId} {s : State}  (hq : [.st, .life, .flt, .links, .loop, .spin, .sled, .disc, .wr, .rd, .warm, .plife, .waiting] ⊆ Lq) (hK : LK n Lq K0 s) :
    LKO n Lq K0 (execShortBrakeRest n s) := by
  unfold execShortBrakeRest
  with_reducible repeat' first
    | assumption
    | refine LKO.next ?_
    | refine LKO.ite ?_ ?_
    | refine LK.set ?_ ?_
    | (intro l x hx; cases x <;> with_unfolding_all first | exact absurd (memL hq (by decide)) hx | exact rfl | (dsimp only [LanePart.same]; (repeat' split) <;> rfl))
    | refine lk_atRest (subL hq (by decide)) ?_
    | refine lk_floatBridge (subL hq (by decide)) ?_
    | refine LK.ite ?_ ?_

theorem lk_laneModeEffect {Lq : List LanePart} {K0 : State} {n : LaneId} {s : State} {v : Bytes} (hq : [.st, .life, .wr, .warm] ⊆ Lq) (hK : LK n Lq K0 s) :
    LKE n Lq K0 (laneModeEffect n v s) := by
  unfold laneModeEffect
  with_reducible repeat' first
    | assumption
    | refine LKE.ok ?_
    | exact LKE.error
    | refine LKE.ite ?_ ?_
    | refine LK.keep (u := store _ _ _ _) (keeps_store (List.Subset.refl _) (.refl _ _)) (by decide) ?_
    | refine lk_holdCheck (subL hq (by decide)) ?_
    | refine lk_leaveHold (subL hq (by decide)) ?_
    | refine LK.ite ?_ ?_

theorem lk_laneResetEffect {Lq : List LanePart} {K0 : State} {n : LaneId} {s : State}  (hq : [.st, .life, .flt, .loop, .spin, .pace, .sled, .disc, .wr, .rd, .warm, .plife, .waiting] ⊆ Lq) (hK : LK n Lq K0 s) :
    LKE n Lq K0 (laneResetEffect n s) := by
  unfold laneResetEffect
  with_reducible repeat' first
    | assumption
    | refine LKE.ok ?_
    | exact LKE.error
    | refine LKE.ite ?_ ?_
    | refine LK.set ?_ ?_
    | (intro l x hx; cases x <;> with_unfolding_all first | exact absurd (memL hq (by decide)) hx | exact rfl | (dsimp only [LanePart.same]; (repeat' split) <;> rfl))
    | refine lk_resetLane (subL hq (by decide)) ?_
    | refine lk_dropExtents (subL hq (by decide)) ?_
    | refine lk_rampIfTurning (subL hq (by decide)) ?_
    | refine LK.ite ?_ ?_

theorem lk_startLearningEffect {Lq : List LanePart} {K0 : State} {n : LaneId} {s : State}  (hq : [.loop] ⊆ Lq) (hK : LK n Lq K0 s) :
    LKE n Lq K0 (startLearningEffect n s) := by
  unfold startLearningEffect
  with_reducible repeat' first
    | assumption
    | refine LKE.ok ?_
    | exact LKE.error
    | refine LKE.ite ?_ ?_
    | refine lk_startLearning (subL hq (by decide)) ?_
    | refine LK.ite ?_ ?_

end Sys2Proof.Machine
end

