-- ==== Sys2Proof/Laws/LaneChannelLaws.lean ====
section
/-! SUPPORT. What the operations of Channel.lean on a lane keep of it and of the other lanes. -/

namespace Sys2Proof.Machine

set_option linter.unusedTactic false
set_option linter.unreachableTactic false
set_option linter.unusedVariables false

theorem lk_setRd {Lq : List LanePart} {K0 : State} {n : LaneId} {s : State} {f : ReadPath → ReadPath} (hq : [.rd] ⊆ Lq) (hK : LK n Lq K0 s) :
    LK n Lq K0 (setRd n f s) := by
  unfold setRd
  with_reducible repeat' first
    | assumption
    | refine LK.set ?_ ?_
    | (intro l x hx; cases x <;> with_unfolding_all first | exact absurd (memL hq (by decide)) hx | exact rfl | (dsimp only [LanePart.same]; (repeat' split) <;> rfl))

theorem lk_setChan {Lq : List LanePart} {K0 : State} {n : LaneId} {s : State} {c : ChanId} {f : Channel → Channel} (hq : [.rd] ⊆ Lq) (hK : LK n Lq K0 s) :
    LK n Lq K0 (setChan n c f s) := by
  unfold setChan
  with_reducible repeat' first
    | assumption
    | refine lk_setRd (subL hq (by decide)) ?_

theorem lk_setJob {Lq : List LanePart} {K0 : State} {n : LaneId} {s : State} {k : TrackId} {f : ReadJob → ReadJob} (hq : [.rd] ⊆ Lq) (hK : LK n Lq K0 s) :
    LK n Lq K0 (setJob n k f s) := by
  unfold setJob
  with_reducible repeat' first
    | assumption
    | refine lk_setRd (subL hq (by decide)) ?_

theorem lk_endLaneFrame {Lq : List LanePart} {K0 : State} {n : LaneId} {s : State} {good : Bool} (hq : [.rd, .warm] ⊆ Lq) (hK : LK n Lq K0 s) :
    LK n Lq K0 (endLaneFrame n good s) := by
  unfold endLaneFrame
  with_reducible repeat' first
    | assumption
    | refine LK.set ?_ ?_
    | (intro l x hx; cases x <;> with_unfolding_all first | exact absurd (memL hq (by decide)) hx | exact rfl | (dsimp only [LanePart.same]; (repeat' split) <;> rfl))
    | refine lk_frameBegins (subL hq (by decide)) ?_
    | refine LK.ite ?_ ?_

theorem lk_deliver {Lq : List LanePart} {K0 : State} {n : LaneId} {s : State} {k : TrackId} {r : SectorRead} (hq : [.rd, .warm] ⊆ Lq) (hK : LK n Lq K0 s) :
    LK n Lq K0 (deliver n k r s) := by
  unfold deliver
  with_reducible repeat' first
    | assumption
    | refine lk_setChan (subL hq (by decide)) ?_
    | refine lk_setJob (subL hq (by decide)) ?_
    | refine LK.keep (u := setPool _ _) (keeps_setPool (List.Subset.refl _) (.refl _ _)) (by decide) ?_
    | refine LK.keep (u := awaitCore _ _ _ _ _ _) (keeps_awaitCore (List.Subset.refl _) (.refl _ _)) (by decide) ?_
    | refine lk_endLaneFrame (subL hq (by decide)) ?_
    | refine LK.ite ?_ ?_
    | split

theorem lk_blankFrame {Lq : List LanePart} {K0 : State} {n : LaneId} {s : State} {c : ChanId} (hq : [.rd, .warm] ⊆ Lq) (hK : LK n Lq K0 s) :
    LK n Lq K0 (blankFrame n c s) := by
  unfold blankFrame
  with_reducible repeat' first
    | assumption
    | refine LK.keep (u := lbump _ _ _ _ _ _) (keeps_lbump (List.Subset.refl _) (.refl _ _)) (by decide) ?_
    | refine lk_setChan (subL hq (by decide)) ?_
    | refine lk_deliver (subL hq (by decide)) ?_
    | refine LK.ite ?_ ?_
    | split

theorem lk_lockFailed {Lq : List LanePart} {K0 : State} {n : LaneId} {s : State} {c : ChanId} (hq : [.rd, .warm] ⊆ Lq) (hK : LK n Lq K0 s) :
    LK n Lq K0 (lockFailed n c s) := by
  unfold lockFailed
  with_reducible repeat' first
    | assumption
    | refine LK.keep (u := lbump _ _ _ _ _ _) (keeps_lbump (List.Subset.refl _) (.refl _ _)) (by decide) ?_
    | refine lk_setChan (subL hq (by decide)) ?_
    | refine LK.keep (u := raise _ _ _) (keeps_raise (List.Subset.refl _) (.refl _ _)) (by decide) ?_
    | refine lk_deliver (subL hq (by decide)) ?_
    | refine LK.ite ?_ ?_
    | split

theorem lk_lockPassed {Lq : List LanePart} {K0 : State} {n : LaneId} {s : State} {c : ChanId} {phase : Int} {residual : Int} (hq : [.rd] ⊆ Lq) (hK : LK n Lq K0 s) :
    LK n Lq K0 (lockPassed n c phase residual s) := by
  unfold lockPassed
  with_reducible repeat' first
    | assumption
    | refine lk_setChan (subL hq (by decide)) ?_

theorem lk_acquisition {Lq : List LanePart} {K0 : State} {n : LaneId} {s : State} {c : ChanId} {level : Nat} {rms : Nat} {phase : Int} {phaseError : Nat} {residual : Int} (hq : [.rd, .warm] ⊆ Lq) (hK : LK n Lq K0 s) :
    LK n Lq K0 (acquisition n c level rms phase phaseError residual s) := by
  unfold acquisition
  with_reducible repeat' first
    | assumption
    | refine lk_setChan (subL hq (by decide)) ?_
    | refine lk_blankFrame (subL hq (by decide)) ?_
    | refine lk_lockPassed (subL hq (by decide)) ?_
    | refine lk_lockFailed (subL hq (by decide)) ?_
    | refine LK.ite ?_ ?_

theorem lk_execAcquisition {Lq : List LanePart} {K0 : State} {n : LaneId} {s : State} {c : ChanId} {level : Nat} {rms : Nat} {phase : Int} {phaseError : Nat} {residual : Int} (hq : [.rd, .warm] ⊆ Lq) (hK : LK n Lq K0 s) :
    LKO n Lq K0 (execAcquisition n c level rms phase phaseError residual s) := by
  unfold execAcquisition
  with_reducible repeat' first
    | assumption
    | refine LKO.next ?_
    | refine LKO.ite ?_ ?_
    | refine lk_acquisition (subL hq (by decide)) ?_

theorem lk_acceptMark {Lq : List LanePart} {K0 : State} {n : LaneId} {s : State} {c : ChanId} {off : Int} {rest : List Int} (hq : [.rd] ⊆ Lq) (hK : LK n Lq K0 s) :
    LK n Lq K0 (acceptMark n c off rest s) := by
  unfold acceptMark
  with_reducible repeat' first
    | assumption
    | refine LK.keep (u := lbump _ _ _ _ _ _) (keeps_lbump (List.Subset.refl _) (.refl _ _)) (by decide) ?_
    | refine lk_setChan (subL hq (by decide)) ?_
    | refine lk_setRd (subL hq (by decide)) ?_
    | refine LK.ite ?_ ?_

theorem lk_markDrop {Lq : List LanePart} {K0 : State} {n : LaneId} {s : State} {c : ChanId} {from' : Nat} (hq : [.rd] ⊆ Lq) (hK : LK n Lq K0 s) :
    LK n Lq K0 (markDrop n c from' s) := by
  unfold markDrop
  with_reducible repeat' first
    | assumption
    | refine lk_setChan (subL hq (by decide)) ?_
    | refine LK.keep (u := lbump _ _ _ _ _ _) (keeps_lbump (List.Subset.refl _) (.refl _ _)) (by decide) ?_
    | refine lk_setRd (subL hq (by decide)) ?_
    | refine LK.ite ?_ ?_

theorem lk_missMark {Lq : List LanePart} {K0 : State} {n : LaneId} {s : State} {c : ChanId} (hq : [.rd] ⊆ Lq) (hK : LK n Lq K0 s) :
    LK n Lq K0 (missMark n c s) := by
  unfold missMark
  with_reducible repeat' first
    | assumption
    | refine LK.keep (u := lbump _ _ _ _ _ _) (keeps_lbump (List.Subset.refl _) (.refl _ _)) (by decide) ?_
    | refine lk_setChan (subL hq (by decide)) ?_
    | refine lk_markDrop (subL hq (by decide)) ?_
    | refine LK.ite ?_ ?_

theorem lk_syncMarkSearch {Lq : List LanePart} {K0 : State} {n : LaneId} {s : State} {c : ChanId} {w : MarkWindow} (hq : [.rd] ⊆ Lq) (hK : LK n Lq K0 s) :
    LK n Lq K0 (syncMarkSearch n c w s) := by
  unfold syncMarkSearch
  with_reducible repeat' first
    | assumption
    | refine lk_setChan (subL hq (by decide)) ?_
    | refine lk_acceptMark (subL hq (by decide)) ?_
    | refine lk_missMark (subL hq (by decide)) ?_
    | refine LK.ite ?_ ?_
    | split

theorem lk_execSyncMarkSearch {Lq : List LanePart} {K0 : State} {n : LaneId} {s : State} {c : ChanId} {w : MarkWindow} (hq : [.rd] ⊆ Lq) (hK : LK n Lq K0 s) :
    LKO n Lq K0 (execSyncMarkSearch n c w s) := by
  unfold execSyncMarkSearch
  with_reducible repeat' first
    | assumption
    | refine LKO.next ?_
    | refine LKO.ite ?_ ?_
    | refine lk_syncMarkSearch (subL hq (by decide)) ?_

theorem lk_beginDropout {Lq : List LanePart} {K0 : State} {n : LaneId} {s : State} {c : ChanId} {bit : Nat} (hq : [.rd] ⊆ Lq) (hK : LK n Lq K0 s) :
    LK n Lq K0 (beginDropout n c bit s) := by
  unfold beginDropout
  with_reducible repeat' first
    | assumption
    | refine LK.keep (u := lbump _ _ _ _ _ _) (keeps_lbump (List.Subset.refl _) (.refl _ _)) (by decide) ?_
    | refine lk_setChan (subL hq (by decide)) ?_
    | refine LK.ite ?_ ?_

theorem lk_closeDropout {Lq : List LanePart} {K0 : State} {n : LaneId} {s : State} {c : ChanId} {lo : Nat} {hi : Nat} (hq : [.rd] ⊆ Lq) (hK : LK n Lq K0 s) :
    LK n Lq K0 (closeDropout n c lo hi s) := by
  unfold closeDropout
  with_reducible repeat' first
    | assumption
    | refine LK.keep (u := lbump _ _ _ _ _ _) (keeps_lbump (List.Subset.refl _) (.refl _ _)) (by decide) ?_
    | refine lk_setChan (subL hq (by decide)) ?_

theorem lk_execTimingLost {Lq : List LanePart} {K0 : State} {n : LaneId} {s : State} {c : ChanId} {bit : Nat} (hq : [.rd] ⊆ Lq) (hK : LK n Lq K0 s) :
    LKO n Lq K0 (execTimingLost n c bit s) := by
  unfold execTimingLost
  with_reducible repeat' first
    | assumption
    | refine LKO.next ?_
    | refine LKO.ite ?_ ?_
    | refine lk_beginDropout (subL hq (by decide)) ?_
    | refine lk_setChan (subL hq (by decide)) ?_
    | refine LK.ite ?_ ?_

theorem lk_execDropoutStart {Lq : List LanePart} {K0 : State} {n : LaneId} {s : State} {c : ChanId} {bit : Nat} (hq : [.rd] ⊆ Lq) (hK : LK n Lq K0 s) :
    LKO n Lq K0 (execDropoutStart n c bit s) := by
  unfold execDropoutStart
  with_reducible repeat' first
    | assumption
    | refine LKO.next ?_
    | refine LKO.ite ?_ ?_
    | refine lk_beginDropout (subL hq (by decide)) ?_

theorem lk_execDropoutEnd {Lq : List LanePart} {K0 : State} {n : LaneId} {s : State} {c : ChanId} {bit : Nat} (hq : [.rd] ⊆ Lq) (hK : LK n Lq K0 s) :
    LKO n Lq K0 (execDropoutEnd n c bit s) := by
  unfold execDropoutEnd
  with_reducible repeat' first
    | assumption
    | refine LKO.next ?_
    | refine LKO.ite ?_ ?_
    | refine lk_closeDropout (subL hq (by decide)) ?_
    | split

theorem lk_execDropoutCoastLimit {Lq : List LanePart} {K0 : State} {n : LaneId} {s : State} {c : ChanId} {bit : Nat} (hq : [.rd] ⊆ Lq) (hK : LK n Lq K0 s) :
    LKO n Lq K0 (execDropoutCoastLimit n c bit s) := by
  unfold execDropoutCoastLimit
  with_reducible repeat' first
    | assumption
    | refine LKO.next ?_
    | refine LKO.ite ?_ ?_
    | refine lk_setChan (subL hq (by decide)) ?_
    | refine lk_closeDropout (subL hq (by decide)) ?_
    | refine LK.ite ?_ ?_
    | split

theorem lk_adaptOutput {Lq : List LanePart} {K0 : State} {n : LaneId} {s : State} {r : SectorSamples} {d : Detected} {c : ChanId} (hq : [.rd] ⊆ Lq) (hK : LK n Lq K0 s) :
    LK n Lq K0 (adaptOutput n r d c s) := by
  unfold adaptOutput
  with_reducible repeat' first
    | assumption
    | refine lk_setChan (subL hq (by decide)) ?_
    | refine LK.ite ?_ ?_
    | split

theorem lk_storeTaps {Lq : List LanePart} {K0 : State} {n : LaneId} {s : State} {k : TrackId} {d : Detected} (hq : [.rd] ⊆ Lq) (hK : LK n Lq K0 s) :
    LK n Lq K0 (storeTaps n k d s) := by
  unfold storeTaps
  with_reducible repeat' first
    | assumption
    | refine lk_setRd (subL hq (by decide)) ?_
    | refine LK.keep (u := store _ _ _ _) (keeps_store (List.Subset.refl _) (.refl _ _)) (by decide) ?_
    | refine LK.ite ?_ ?_

theorem lk_adaptTrack {Lq : List LanePart} {K0 : State} {n : LaneId} {s : State} {k : TrackId} {r : SectorSamples} {d : Detected} (hq : [.rd] ⊆ Lq) (hK : LK n Lq K0 s) :
    LK n Lq K0 (adaptTrack n k r d s) := by
  unfold adaptTrack
  with_reducible repeat' first
    | assumption
    | refine lk_storeTaps (subL hq (by decide)) ?_
    | refine lk_adaptOutput (subL hq (by decide)) ?_
    | refine LK.keep (u := store _ _ _ _) (keeps_store (List.Subset.refl _) (.refl _ _)) (by decide) ?_
    | refine lk_setRd (subL hq (by decide)) ?_
    | refine LK.ite ?_ ?_

theorem lk_sectorRecord {Lq : List LanePart} {K0 : State} {n : LaneId} {s : State} {k : TrackId} {r : SectorSamples} (hq : [.rd, .warm] ⊆ Lq) (hK : LK n Lq K0 s) :
    LK n Lq K0 (sectorRecord n k r s) := by
  unfold sectorRecord
  extract_lets
  with_reducible repeat' first
    | assumption
    | refine LK.keep (u := lbump _ _ _ _ _ _) (keeps_lbump (List.Subset.refl _) (.refl _ _)) (by decide) ?_
    | refine lk_deliver (subL hq (by decide)) ?_
    | refine lk_adaptTrack (subL hq (by decide)) ?_
    | refine LK.ite ?_ ?_
    | split

theorem lk_execSectorRecord {Lq : List LanePart} {K0 : State} {n : LaneId} {s : State} {k : TrackId} {r : SectorSamples} (hq : [.rd, .warm] ⊆ Lq) (hK : LK n Lq K0 s) :
    LKO n Lq K0 (execSectorRecord n k r s) := by
  unfold execSectorRecord
  with_reducible repeat' first
    | assumption
    | refine LKO.next ?_
    | refine LKO.ite ?_ ?_
    | refine lk_sectorRecord (subL hq (by decide)) ?_

theorem lk_captureArmEffect {Lq : List LanePart} {K0 : State} {n : LaneId} {s : State} {v : Bytes} (hq : [.rd] ⊆ Lq) (hK : LK n Lq K0 s) :
    LKE n Lq K0 (captureArmEffect n v s) := by
  unfold captureArmEffect
  with_reducible repeat' first
    | assumption
    | refine LKE.ok ?_
    | exact LKE.error
    | refine LKE.ite ?_ ?_
    | refine lk_setRd (subL hq (by decide)) ?_

theorem lk_execCaptureStart {Lq : List LanePart} {K0 : State} {n : LaneId} {s : State} {samples : List Bytes} (hq : [.rd] ⊆ Lq) (hK : LK n Lq K0 s) :
    LKO n Lq K0 (execCaptureStart n samples s) := by
  unfold execCaptureStart
  with_reducible repeat' first
    | assumption
    | refine LKO.next ?_
    | refine LKO.ite ?_ ?_
    | refine lk_setRd (subL hq (by decide)) ?_
    | refine LK.ite ?_ ?_

theorem lk_clearDefectsEffect {Lq : List LanePart} {K0 : State} {n : LaneId} {s : State}  (hq : [.rd] ⊆ Lq) (hK : LK n Lq K0 s) :
    LKE n Lq K0 (clearDefectsEffect n s) := by
  unfold clearDefectsEffect
  with_reducible repeat' first
    | assumption
    | refine LKE.ok ?_
    | exact LKE.error
    | refine LKE.ite ?_ ?_
    | refine lk_setRd (subL hq (by decide)) ?_

end Sys2Proof.Machine
end

