-- ==== Sys2Proof/Laws/LaneReadLaws.lean ====
section
/-! SUPPORT. What the operations of Read.lean on a lane keep of it and of the other lanes. -/

namespace Sys2Proof.Machine

set_option linter.unusedTactic false
set_option linter.unreachableTactic false
set_option linter.unusedVariables false

theorem lk_setSector {Lq : List LanePart} {K0 : State} {n : LaneId} {s : State} {k : TrackId} {i : Nat} {f : SectorRead → SectorRead} (hq : [.rd] ⊆ Lq) (hK : LK n Lq K0 s) :
    LK n Lq K0 (setSector n k i f s) := by
  unfold setSector
  with_reducible repeat' first
    | assumption
    | refine lk_setJob (subL hq (by decide)) ?_
    | refine LK.ite ?_ ?_

theorem lk_realignNext {Lq : List LanePart} {K0 : State} {n : LaneId} {s : State} {k : TrackId} {i : Nat} {r : SectorRead} (hq : [.rd] ⊆ Lq) (hK : LK n Lq K0 s) :
    LK n Lq K0 (realignNext n k i r s) := by
  unfold realignNext
  with_reducible repeat' first
    | assumption
    | refine LK.keep (u := awaitCore _ _ _ _ _ _) (keeps_awaitCore (List.Subset.refl _) (.refl _ _)) (by decide) ?_
    | refine LK.keep (u := freeCore _ _ _ _) (keeps_freeCore (List.Subset.refl _) (.refl _ _)) (by decide) ?_
    | refine lk_setSector (subL hq (by decide)) ?_

theorem lk_judgeEmpty {Lq : List LanePart} {K0 : State} {n : LaneId} {s : State} {k : TrackId} {i : Nat} {d : Disc} {j : ReadJob} {r : SectorRead} (hq : [.rd] ⊆ Lq) (hK : LK n Lq K0 s) :
    LK n Lq K0 (judgeEmpty n k i d j r s) := by
  unfold judgeEmpty
  with_reducible repeat' first
    | assumption
    | refine lk_setSector (subL hq (by decide)) ?_
    | refine lk_setRd (subL hq (by decide)) ?_
    | refine LK.ite ?_ ?_

theorem lk_judgeDecode {Lq : List LanePart} {K0 : State} {n : LaneId} {s : State} {k : TrackId} {i : Nat} {d : Disc} {j : ReadJob} {r : SectorRead} {m : Option Bytes} (hq : [.rd] ⊆ Lq) (hK : LK n Lq K0 s) :
    LK n Lq K0 (judgeDecode n k i d j r m s) := by
  unfold judgeDecode
  with_reducible repeat' first
    | assumption
    | refine lk_setSector (subL hq (by decide)) ?_
    | refine LK.keep (u := lbump _ _ _ _ _ _) (keeps_lbump (List.Subset.refl _) (.refl _ _)) (by decide) ?_
    | refine lk_setRd (subL hq (by decide)) ?_
    | refine LK.ite ?_ ?_

theorem lk_decodeRecord {Lq : List LanePart} {K0 : State} {n : LaneId} {s : State} {k : TrackId} {i : Nat} {d : Disc} {j : ReadJob} {r : SectorRead} (hq : [.rd] ⊆ Lq) (hK : LK n Lq K0 s) :
    LK n Lq K0 (decodeRecord n k i d j r s) := by
  unfold decodeRecord
  with_reducible repeat' first
    | assumption
    | refine lk_judgeEmpty (subL hq (by decide)) ?_
    | refine LK.keep (u := lbump _ _ _ _ _ _) (keeps_lbump (List.Subset.refl _) (.refl _ _)) (by decide) ?_
    | refine lk_realignNext (subL hq (by decide)) ?_
    | refine lk_judgeDecode (subL hq (by decide)) ?_
    | refine LK.ite ?_ ?_
    | split

theorem lk_decodeSector {Lq : List LanePart} {K0 : State} {n : LaneId} {s0 : State} {k : TrackId} {i : Nat} (hq : [.rd] ⊆ Lq) (hK : LK n Lq K0 s0) :
    LK n Lq K0 (decodeSector n k i s0) := by
  unfold decodeSector
  extract_lets
  with_reducible repeat' first
    | assumption
    | refine LK.keep (u := fillCores _) (keeps_fillCores (List.Subset.refl _) (.refl _ _)) (by decide) ?_
    | refine lk_decodeRecord (subL hq (by decide)) ?_
    | refine LK.ite ?_ ?_
    | split

theorem lk_execLdpcDecode {Lq : List LanePart} {K0 : State} {n : LaneId} {s : State} {k : TrackId} {sector : Nat} (hq : [.rd] ⊆ Lq) (hK : LK n Lq K0 s) :
    LKO n Lq K0 (execLdpcDecode n k sector s) := by
  unfold execLdpcDecode
  with_reducible repeat' first
    | assumption
    | refine LKO.next ?_
    | refine LKO.ite ?_ ?_
    | refine lk_decodeSector (subL hq (by decide)) ?_

theorem lk_queueRefresh {Lq : List LanePart} {K0 : State} {n : LaneId} {s : State} {k : TrackId} {j : ReadJob} {i : Nat} {msg : Bytes} (hq : [.wr] ⊆ Lq) (hK : LK n Lq K0 s) :
    LK n Lq K0 (queueRefresh n k j i msg s) := by
  unfold queueRefresh
  with_reducible repeat' first
    | assumption
    | refine lk_setWr (subL hq (by decide)) ?_
    | refine LK.keep (u := bufferWrite _ _ _ _ _) (keeps_bufferWrite (List.Subset.refl _) (.refl _ _)) (by decide) ?_
    | refine LK.ite ?_ ?_
    | refine LK.snd (by assumption) ?_

theorem lk_queueRefreshes {Lq : List LanePart} {K0 : State} {n : LaneId} {s : State} {k : TrackId} {j : ReadJob} (hq : [.disc, .wr] ⊆ Lq) (hK : LK n Lq K0 s) :
    LK n Lq K0 (queueRefreshes n k j s) := by
  unfold queueRefreshes
  with_reducible repeat' first
    | assumption
    | refine lk_checkSpare (subL hq (by decide)) ?_
    | refine lk_queueRefresh (subL hq (by decide)) ?_
    | refine LK.fold2 _ _ _ (fun _ _ _ => ?_) ?_
    | refine LK.foldl _ _ _ (fun _ _ _ => ?_) ?_
    | refine LK.ite ?_ ?_
    | split

theorem lk_lapseStep {Lq : List LanePart} {K0 : State} {n : LaneId} {s : State}  (hq : [.pace, .rd] ⊆ Lq) (hK : LK n Lq K0 s) :
    LK n Lq K0 (lapseStep n s) := by
  unfold lapseStep
  with_reducible repeat' first
    | assumption
    | refine LK.set ?_ ?_
    | (intro l x hx; cases x <;> with_unfolding_all first | exact absurd (memL hq (by decide)) hx | exact rfl | (dsimp only [LanePart.same]; (repeat' split) <;> rfl))

theorem lk_settleDefects {Lq : List LanePart} {K0 : State} {n : LaneId} {s : State} {j : ReadJob} {lost : List Nat} (hq : [.rd] ⊆ Lq) (hK : LK n Lq K0 s) :
    LK n Lq K0 (settleDefects n j lost s) := by
  unfold settleDefects
  with_reducible repeat' first
    | assumption
    | refine lk_setRd (subL hq (by decide)) ?_
    | refine LK.fold2 _ _ _ (fun _ _ _ => ?_) ?_
    | refine LK.foldl _ _ _ (fun _ _ _ => ?_) ?_
    | refine LK.ite ?_ ?_

theorem lk_readsEnd {Lq : List LanePart} {K0 : State} {n : LaneId} {s : State}  (hq : [.st, .life, .wr, .rd, .warm] ⊆ Lq) (hK : LK n Lq K0 s) :
    LK n Lq K0 (readsEnd n s) := by
  unfold readsEnd
  with_reducible repeat' first
    | assumption
    | refine lk_leaveReading (subL hq (by decide)) ?_
    | refine lk_idleChannels (subL hq (by decide)) ?_
    | refine LK.ite ?_ ?_

theorem lk_noteSlot {Lq : List LanePart} {K0 : State} {n : LaneId} {s : State} {k : TrackId} {j : ReadJob} (hq : [.disc] ⊆ Lq) (hK : LK n Lq K0 s) :
    LK n Lq K0 (noteSlot n k j s) := by
  unfold noteSlot
  with_reducible repeat' first
    | assumption
    | refine lk_setDisc (subL hq (by decide)) ?_
    | refine LK.ite ?_ ?_

theorem lk_finishJob {Lq : List LanePart} {K0 : State} {n : LaneId} {s : State} {k : TrackId} (hq : [.st, .life, .flt, .pace, .disc, .wr, .rd, .warm] ⊆ Lq) (hK : LK n Lq K0 s) :
    LK n Lq K0 (finishJob n k s) := by
  unfold finishJob
  with_reducible repeat' first
    | assumption
    | refine lk_settleDefects (subL hq (by decide)) ?_
    | refine lk_lapseStep (subL hq (by decide)) ?_
    | refine lk_postCompletion (subL hq (by decide)) ?_
    | refine lk_noteSlot (subL hq (by decide)) ?_
    | refine lk_queueRefreshes (subL hq (by decide)) ?_
    | refine LK.keep (u := loseSectors _ _ _ _ _) (keeps_loseSectors (List.Subset.refl _) (.refl _ _)) (by decide) ?_
    | refine LK.keep (u := deliverGood _ _ _) (keeps_deliverGood (List.Subset.refl _) (.refl _ _)) (by decide) ?_
    | refine lk_readsEnd (subL hq (by decide)) ?_
    | refine lk_setRd (subL hq (by decide)) ?_
    | refine LK.ite ?_ ?_
    | split

theorem lk_readCopies {Lq : List LanePart} {K0 : State} {n : LaneId} {s : State} {k : TrackId} {j : ReadJob} (hq : [.life, .rd] ⊆ Lq) (hK : LK n Lq K0 s) :
    LK n Lq K0 (readCopies n k j s) := by
  unfold readCopies
  with_reducible repeat' first
    | assumption
    | refine LK.set ?_ ?_
    | (intro l x hx; cases x <;> with_unfolding_all first | exact absurd (memL hq (by decide)) hx | exact rfl | (dsimp only [LanePart.same]; (repeat' split) <;> rfl))
    | refine lk_setRd (subL hq (by decide)) ?_
    | refine lk_idleChannels (subL hq (by decide)) ?_
    | split

theorem lk_swapCopies {Lq : List LanePart} {K0 : State} {n : LaneId} {s : State} {k : TrackId} (hq : [.rd] ⊆ Lq) (hK : LK n Lq K0 s) :
    LK n Lq K0 (swapCopies n k s) := by
  unfold swapCopies
  with_reducible repeat' first
    | assumption
    | refine lk_setRd (subL hq (by decide)) ?_
    | split

theorem lk_beginRead {Lq : List LanePart} {K0 : State} {n : LaneId} {s : State} {k : TrackId} {step : Nat} {r : Nat} (hq : [.life, .pace, .rd] ⊆ Lq) (hK : LK n Lq K0 s) :
    LK n Lq K0 (beginRead n k step r s) := by
  unfold beginRead
  extract_lets
  with_reducible repeat' first
    | assumption
    | refine LK.set ?_ ?_
    | (intro l x hx; cases x <;> with_unfolding_all first | exact absurd (memL hq (by decide)) hx | exact rfl | (dsimp only [LanePart.same]; (repeat' split) <;> rfl))
    | refine lk_setJob (subL hq (by decide)) ?_
    | refine lk_idleChannels (subL hq (by decide)) ?_
    | refine LK.keep (u := awaitCore _ _ _ _ _ _) (keeps_awaitCore (List.Subset.refl _) (.refl _ _)) (by decide) ?_
    | refine lk_setRd (subL hq (by decide)) ?_
    | refine lk_readCopies (subL hq (by decide)) ?_
    | refine lk_swapCopies (subL hq (by decide)) ?_
    | refine LK.fold2 _ _ _ (fun _ _ _ => ?_) ?_
    | refine LK.foldl _ _ _ (fun _ _ _ => ?_) ?_
    | refine LK.ite ?_ ?_
    | split

theorem lk_ladderNext {Lq : List LanePart} {K0 : State} {n : LaneId} {s : State} {k : TrackId} (hq : [.st, .life, .flt, .pace, .disc, .wr, .rd, .warm] ⊆ Lq) (hK : LK n Lq K0 s) :
    LK n Lq K0 (ladderNext n k s) := by
  unfold ladderNext
  with_reducible repeat' first
    | assumption
    | refine lk_beginRead (subL hq (by decide)) ?_
    | refine lk_lapseStep (subL hq (by decide)) ?_
    | refine lk_finishJob (subL hq (by decide)) ?_
    | refine LK.ite ?_ ?_
    | split

theorem lk_startLadder {Lq : List LanePart} {K0 : State} {n : LaneId} {s : State} {k : TrackId} (hq : [.life, .pace, .rd, .warm] ⊆ Lq) (hK : LK n Lq K0 s) :
    LK n Lq K0 (startLadder n k s) := by
  unfold startLadder
  with_reducible repeat' first
    | assumption
    | refine LK.set ?_ ?_
    | (intro l x hx; cases x <;> with_unfolding_all first | exact absurd (memL hq (by decide)) hx | exact rfl | (dsimp only [LanePart.same]; (repeat' split) <;> rfl))
    | refine lk_beginRead (subL hq (by decide)) ?_
    | refine LK.keep (u := lbump _ _ _ _ _ _) (keeps_lbump (List.Subset.refl _) (.refl _ _)) (by decide) ?_

theorem lk_ladderOrEnd {Lq : List LanePart} {K0 : State} {n : LaneId} {s : State} {k : TrackId} (hq : [.st, .life, .flt, .pace, .disc, .wr, .rd, .warm] ⊆ Lq) (hK : LK n Lq K0 s) :
    LK n Lq K0 (ladderOrEnd n k s) := by
  unfold ladderOrEnd
  with_reducible repeat' first
    | assumption
    | refine lk_finishJob (subL hq (by decide)) ?_
    | refine lk_setJob (subL hq (by decide)) ?_
    | refine lk_startLadder (subL hq (by decide)) ?_
    | refine LK.ite ?_ ?_
    | split

theorem lk_copiesRead {Lq : List LanePart} {K0 : State} {n : LaneId} {s : State} {k : TrackId} {sub : ReadJob} {main : ReadJob} (hq : [.life, .rd] ⊆ Lq) (hK : LK n Lq K0 s) :
    LK n Lq K0 (copiesRead n k sub main s) := by
  unfold copiesRead
  with_reducible repeat' first
    | assumption
    | refine lk_readCopies (subL hq (by decide)) ?_
    | refine LK.keep (u := lbump _ _ _ _ _ _) (keeps_lbump (List.Subset.refl _) (.refl _ _)) (by decide) ?_
    | split

theorem lk_concludeJob {Lq : List LanePart} {K0 : State} {n : LaneId} {s : State} {k : TrackId} {good : Bool} (hq : [.st, .life, .flt, .pace, .disc, .wr, .rd, .warm] ⊆ Lq) (hK : LK n Lq K0 s) :
    LK n Lq K0 (concludeJob n k good s) := by
  unfold concludeJob
  with_reducible repeat' first
    | assumption
    | refine lk_copiesRead (subL hq (by decide)) ?_
    | refine lk_finishJob (subL hq (by decide)) ?_
    | refine lk_ladderOrEnd (subL hq (by decide)) ?_
    | refine lk_ladderNext (subL hq (by decide)) ?_
    | refine LK.ite ?_ ?_
    | split

theorem lk_takeCount {Lq : List LanePart} {K0 : State} {n : LaneId} {s : State} {k : TrackId} (hq : [.st, .life, .flt, .pace, .disc, .wr, .rd, .warm] ⊆ Lq) (hK : LK n Lq K0 s) :
    LK n Lq K0 (takeCount n k s) := by
  unfold takeCount
  with_reducible repeat' first
    | assumption
    | refine lk_concludeJob (subL hq (by decide)) ?_
    | refine lk_setJob (subL hq (by decide)) ?_
    | refine LK.ite ?_ ?_
    | split

theorem lk_extentReadOutcome {Lq : List LanePart} {K0 : State} {n : LaneId} {s : State} {k : TrackId} (hq : [.st, .life, .flt, .pace, .disc, .wr, .rd, .warm] ⊆ Lq) (hK : LK n Lq K0 s) :
    LK n Lq K0 (extentReadOutcome n k s) := by
  unfold extentReadOutcome
  with_reducible repeat' first
    | assumption
    | refine lk_takeCount (subL hq (by decide)) ?_
    | refine LK.keep (u := lbump _ _ _ _ _ _) (keeps_lbump (List.Subset.refl _) (.refl _ _)) (by decide) ?_
    | refine LK.ite ?_ ?_
    | split

theorem lk_execExtentReadOutcome {Lq : List LanePart} {K0 : State} {n : LaneId} {s : State} {k : TrackId} (hq : [.st, .life, .flt, .pace, .disc, .wr, .rd, .warm] ⊆ Lq) (hK : LK n Lq K0 s) :
    LKO n Lq K0 (execExtentReadOutcome n k s) := by
  unfold execExtentReadOutcome
  with_reducible repeat' first
    | assumption
    | refine LKO.next ?_
    | refine LKO.ite ?_ ?_
    | refine lk_extentReadOutcome (subL hq (by decide)) ?_

theorem lk_outerStepOf {Lq : List LanePart} {K0 : State} {n : LaneId} {s : State} {k : TrackId} (hq : [.st, .life, .flt, .pace, .disc, .wr, .rd, .warm] ⊆ Lq) (hK : LK n Lq K0 s) :
    LK n Lq K0 (outerStepOf n k s) := by
  unfold outerStepOf
  with_reducible repeat' first
    | assumption
    | refine lk_concludeJob (subL hq (by decide)) ?_
    | refine lk_setJob (subL hq (by decide)) ?_
    | refine LK.keep (u := lbump _ _ _ _ _ _) (keeps_lbump (List.Subset.refl _) (.refl _ _)) (by decide) ?_
    | refine LK.ite ?_ ?_
    | split

theorem lk_execOuterDecode {Lq : List LanePart} {K0 : State} {n : LaneId} {s : State} {k : TrackId} (hq : [.st, .life, .flt, .pace, .disc, .wr, .rd, .warm] ⊆ Lq) (hK : LK n Lq K0 s) :
    LKO n Lq K0 (execOuterDecode n k s) := by
  unfold execOuterDecode
  with_reducible repeat' first
    | assumption
    | refine LKO.next ?_
    | refine LKO.ite ?_ ?_
    | refine lk_outerStepOf (subL hq (by decide)) ?_

theorem lk_ladderStep {Lq : List LanePart} {K0 : State} {n : LaneId} {s : State} {k : TrackId} (hq : [.st, .life, .flt, .pace, .disc, .wr, .rd, .warm] ⊆ Lq) (hK : LK n Lq K0 s) :
    LK n Lq K0 (ladderStep n k s) := by
  unfold ladderStep
  with_reducible repeat' first
    | assumption
    | refine lk_ladderOrEnd (subL hq (by decide)) ?_
    | refine lk_takeCount (subL hq (by decide)) ?_
    | refine LK.ite ?_ ?_
    | split

theorem lk_execLadderStep {Lq : List LanePart} {K0 : State} {n : LaneId} {s : State} {k : TrackId} (hq : [.st, .life, .flt, .pace, .disc, .wr, .rd, .warm] ⊆ Lq) (hK : LK n Lq K0 s) :
    LKO n Lq K0 (execLadderStep n k s) := by
  unfold execLadderStep
  with_reducible repeat' first
    | assumption
    | refine LKO.next ?_
    | refine LKO.ite ?_ ?_
    | refine lk_ladderStep (subL hq (by decide)) ?_

theorem lk_beginJob {Lq : List LanePart} {K0 : State} {n : LaneId} {s : State} {k : TrackId} {j : ReadJob} (hq : [.st, .life, .rd, .warm] ⊆ Lq) (hK : LK n Lq K0 s) :
    LK n Lq K0 (beginJob n k j s) := by
  unfold beginJob
  with_reducible repeat' first
    | assumption
    | refine lk_idleChannels (subL hq (by decide)) ?_
    | refine lk_enter (subL hq (by decide)) ?_
    | refine lk_frameBegins (subL hq (by decide)) ?_
    | refine lk_setRd (subL hq (by decide)) ?_
    | refine LK.ite ?_ ?_

theorem lk_takeJob {Lq : List LanePart} {K0 : State} {n : LaneId} {s : State} {k : TrackId} {j : ReadJob} (hq : [.st, .life, .flt, .rd, .warm] ⊆ Lq) (hK : LK n Lq K0 s) :
    LK n Lq K0 (takeJob n k j s) := by
  unfold takeJob
  with_reducible repeat' first
    | assumption
    | (intro _; try intros)
    | refine lk_orderNow (subL hq (by decide)) ?_ ?_
    | refine lk_beginJob (subL hq (by decide)) ?_

theorem lk_resumeLadder {Lq : List LanePart} {K0 : State} {n : LaneId} {s : State} {k : TrackId} {j : ReadJob} (hq : [.st, .life, .flt, .pace, .rd, .warm] ⊆ Lq) (hK : LK n Lq K0 s) :
    LK n Lq K0 (resumeLadder n k j s) := by
  unfold resumeLadder
  with_reducible repeat' first
    | assumption
    | refine lk_takeJob (subL hq (by decide)) ?_
    | refine lk_beginRead (subL hq (by decide)) ?_
    | refine LK.ite ?_ ?_

theorem lk_extentReadStart {Lq : List LanePart} {K0 : State} {n : LaneId} {s : State} {k : TrackId} {slot : Nat} (hq : [.st, .life, .flt, .pace, .wr, .rd, .warm] ⊆ Lq) (hK : LK n Lq K0 s) :
    LK n Lq K0 (extentReadStart n k slot s) := by
  unfold extentReadStart
  extract_lets
  with_reducible repeat' first
    | assumption
    | refine lk_resumeLadder (subL hq (by decide)) ?_
    | refine lk_orderTo (subL hq (by decide)) ?_
    | refine lk_takeJob (subL hq (by decide)) ?_
    | refine LK.ite ?_ ?_
    | split

theorem lk_execExtentReadStart {Lq : List LanePart} {K0 : State} {n : LaneId} {s : State} {k : TrackId} {slot : Nat} (hq : [.st, .life, .flt, .pace, .wr, .rd, .warm] ⊆ Lq) (hK : LK n Lq K0 s) :
    LKO n Lq K0 (execExtentReadStart n k slot s) := by
  unfold execExtentReadStart
  with_reducible repeat' first
    | assumption
    | refine LKO.next ?_
    | refine LKO.ite ?_ ?_
    | refine lk_extentReadStart (subL hq (by decide)) ?_

theorem lk_refreshWaitExpire {Lq : List LanePart} {K0 : State} {n : LaneId} {s : State}  (hq : [.life, .disc, .wr] ⊆ Lq) (hK : LK n Lq K0 s) :
    LK n Lq K0 (refreshWaitExpire n s) := by
  unfold refreshWaitExpire
  extract_lets
  with_reducible repeat' first
    | assumption
    | refine LK.set ?_ ?_
    | (intro l x hx; cases x <;> with_unfolding_all first | exact absurd (memL hq (by decide)) hx | exact rfl | (dsimp only [LanePart.same]; (repeat' split) <;> rfl))
    | refine lk_checkSpare (subL hq (by decide)) ?_
    | refine LK.ite ?_ ?_
    | split

theorem lk_execRefreshWaitExpire {Lq : List LanePart} {K0 : State} {n : LaneId} {s : State}  (hq : [.life, .disc, .wr] ⊆ Lq) (hK : LK n Lq K0 s) :
    LKO n Lq K0 (execRefreshWaitExpire n s) := by
  unfold execRefreshWaitExpire
  with_reducible repeat' first
    | assumption
    | refine LKO.next ?_
    | refine LKO.ite ?_ ?_
    | refine lk_refreshWaitExpire (subL hq (by decide)) ?_

end Sys2Proof.Machine
end

