-- ==== Sys2Proof/Laws/LaneOrdersLaws.lean ====
section
/-! SUPPORT. What the operations of Orders.lean on a lane keep of it and of the other lanes. -/

namespace Sys2Proof.Machine

set_option linter.unusedTactic false
set_option linter.unreachableTactic false
set_option linter.unusedVariables false

theorem lk_applyOrder {Lq : List LanePart} {K0 : State} {n : LaneId} {s : State} {y0 : Order} (hq : [.st, .life, .flt, .loop, .spin, .sled, .disc, .wr, .rd, .warm, .waiting] ⊆ Lq) (hK : LK n Lq K0 s) :
    LK n Lq K0 (applyOrder n s y0) := by
  cases y0
  all_goals
    unfold applyOrder
    with_reducible repeat' first
      | assumption
      | refine LK.set ?_ ?_
      | (intro l x hx; cases x <;> with_unfolding_all first | exact absurd (memL hq (by decide)) hx | exact rfl | (dsimp only [LanePart.same]; (repeat' split) <;> rfl))
      | refine lk_strideAccept (subL hq (by decide)) ?_
      | refine lk_beginStart (subL hq (by decide)) ?_
      | refine LK.keep (u := raiseSupply _ _) (keeps_raiseSupply (List.Subset.refl _) (.refl _ _)) (by decide) ?_
      | refine lk_rampStart (subL hq (by decide)) ?_
      | refine lk_beginJob (subL hq (by decide)) ?_
      | refine lk_startPass (subL hq (by decide)) ?_
      | refine LK.ite ?_ ?_
      | split

theorem lk_orderTakeUp {Lq : List LanePart} {K0 : State} {n : LaneId} {s : State} {b : Boundary} (hq : [.st, .life, .flt, .loop, .spin, .sled, .disc, .wr, .rd, .warm, .waiting] ⊆ Lq) (hK : LK n Lq K0 s) :
    LK n Lq K0 (orderTakeUp n b s) := by
  unfold orderTakeUp
  with_reducible repeat' first
    | assumption
    | refine lk_applyOrder (subL hq (by decide)) ?_
    | refine lk_takeOrder (subL hq (by decide)) ?_
    | refine LK.ite ?_ ?_
    | split

theorem lk_execOrderTakeUp {Lq : List LanePart} {K0 : State} {n : LaneId} {s : State} {b : Boundary} (hq : [.st, .life, .flt, .loop, .spin, .sled, .disc, .wr, .rd, .warm, .waiting] ⊆ Lq) (hK : LK n Lq K0 s) :
    LKO n Lq K0 (execOrderTakeUp n b s) := by
  unfold execOrderTakeUp
  with_reducible repeat' first
    | assumption
    | refine LKO.next ?_
    | refine LKO.ite ?_ ?_
    | refine lk_orderTakeUp (subL hq (by decide)) ?_

end Sys2Proof.Machine
end

