-- ==== Sys2Proof/Laws/LaneRecordsLaws.lean ====
section
/-! SUPPORT. What the operations of Records.lean on a lane keep of it and of the other lanes. -/

namespace Sys2Proof.Machine

set_option linter.unusedTactic false
set_option linter.unreachableTactic false
set_option linter.unusedVariables false

theorem lk_ageCheck {Lq : List LanePart} {K0 : State} {n : LaneId} {s : State}  (hq : [.plife] ⊆ Lq) (hK : LK n Lq K0 s) :
    LK n Lq K0 (ageCheck n s) := by
  unfold ageCheck
  extract_lets
  with_reducible repeat' first
    | assumption
    | refine LK.set ?_ ?_
    | (intro l x hx; cases x <;> with_unfolding_all first | exact absurd (memL hq (by decide)) hx | exact rfl | (dsimp only [LanePart.same]; (repeat' split) <;> rfl))
    | refine LK.keep (u := raise _ _ _) (keeps_raise (List.Subset.refl _) (.refl _ _)) (by decide) ?_
    | refine LK.ite ?_ ?_
    | split

theorem lk_pickupLifetimeWrite {Lq : List LanePart} {K0 : State} {n : LaneId} {s : State}  (hq : [.life, .plife] ⊆ Lq) (hK : LK n Lq K0 s) :
    LK n Lq K0 (pickupLifetimeWrite n s) := by
  unfold pickupLifetimeWrite
  extract_lets
  with_reducible repeat' first
    | assumption
    | refine LK.set ?_ ?_
    | (intro l x hx; cases x <;> with_unfolding_all first | exact absurd (memL hq (by decide)) hx | exact rfl | (dsimp only [LanePart.same]; (repeat' split) <;> rfl))
    | refine lk_ageCheck (subL hq (by decide)) ?_
    | refine LK.keep (u := send _ _) (keeps_send (List.Subset.refl _) (.refl _ _)) (by decide) ?_
    | refine LK.ite ?_ ?_
    | split

theorem lk_execPickupLifetimeWrite {Lq : List LanePart} {K0 : State} {n : LaneId} {s : State}  (hq : [.life, .plife] ⊆ Lq) (hK : LK n Lq K0 s) :
    LKO n Lq K0 (execPickupLifetimeWrite n s) := by
  unfold execPickupLifetimeWrite
  with_reducible repeat' first
    | assumption
    | refine LKO.next ?_
    | refine LKO.ite ?_ ?_
    | refine lk_pickupLifetimeWrite (subL hq (by decide)) ?_

end Sys2Proof.Machine
end

