-- ==== Sys2Proof/Laws/LanePairLaws.lean ====
section
/-! SUPPORT. What the operations of Pair.lean on a lane keep of it and of the other lanes. -/

namespace Sys2Proof.Machine

set_option linter.unusedTactic false
set_option linter.unreachableTactic false
set_option linter.unusedVariables false

theorem lk_settlePass {Lq : List LanePart} {K0 : State} {n : LaneId} {s : State}  (hq : [.disc, .wr] ⊆ Lq) (hK : LK n Lq K0 s) :
    LK n Lq K0 (settlePass n s) := by
  unfold settlePass
  with_reducible repeat' first
    | assumption
    | refine LK.set ?_ ?_
    | (intro l x hx; cases x <;> with_unfolding_all first | exact absurd (memL hq (by decide)) hx | exact rfl | (dsimp only [LanePart.same]; (repeat' split) <;> rfl))
    | refine lk_setDisc (subL hq (by decide)) ?_
    | refine lk_cutPass (subL hq (by decide)) ?_
    | refine LK.ite ?_ ?_
    | split

end Sys2Proof.Machine
end

