-- ==== Sys2Proof/Laws/LanePowerLaws.lean ====
section
/-! SUPPORT. What the operations of Power.lean on a lane keep of it and of the other lanes. -/

namespace Sys2Proof.Machine

set_option linter.unusedTactic false
set_option linter.unreachableTactic false
set_option linter.unusedVariables false

theorem lk_laneSleeps {Lq : List LanePart} {K0 : State} {n : LaneId} {s : State}  (hq : [.st, .life, .flt, .loop, .spin, .sled, .disc, .waiting] ⊆ Lq) (hK : LK n Lq K0 s) :
    LK n Lq K0 (laneSleeps n s) := by
  unfold laneSleeps
  with_reducible repeat' first
    | assumption
    | refine LK.set ?_ ?_
    | (intro l x hx; cases x <;> with_unfolding_all first | exact absurd (memL hq (by decide)) hx | exact rfl | (dsimp only [LanePart.same]; (repeat' split) <;> rfl))
    | refine lk_enterOff (subL hq (by decide)) ?_
    | refine lk_driveFrame (subL hq (by decide)) ?_
    | refine LK.keep (u := sendPowers _ _ _) (keeps_sendPowers (List.Subset.refl _) (.refl _ _)) (by decide) ?_
    | refine LK.ite ?_ ?_

theorem lk_laneWakes {Lq : List LanePart} {K0 : State} {n : LaneId} {s : State}  (hq : [.life, .links, .loop, .sled] ⊆ Lq) (hK : LK n Lq K0 s) :
    LK n Lq K0 (laneWakes n s) := by
  unfold laneWakes
  with_reducible repeat' first
    | assumption
    | refine LK.set ?_ ?_
    | (intro l x hx; cases x <;> with_unfolding_all first | exact absurd (memL hq (by decide)) hx | exact rfl | (dsimp only [LanePart.same]; (repeat' split) <;> rfl))
    | refine lk_loadBanks (subL hq (by decide)) ?_
    | refine lk_leaveOff (subL hq (by decide)) ?_
    | refine LK.ite ?_ ?_
    | split
    | apply LK.upd

end Sys2Proof.Machine
end

