-- ==== Sys2Proof/Laws/LanePortsLaws.lean ====
section
/-! SUPPORT. What the operations of Ports.lean on a lane keep of it and of the other lanes. -/

namespace Sys2Proof.Machine

set_option linter.unusedTactic false
set_option linter.unreachableTactic false
set_option linter.unusedVariables false

theorem lk_linkFault {Lq : List LanePart} {K0 : State} {n : LaneId} {s : State} {laser : Bool} {cause : Nat} (hq : [.life, .flt, .links, .loop, .spin, .sled, .wr, .waiting] ⊆ Lq) (hK : LK n Lq K0 s) :
    LK n Lq K0 (linkFault n laser cause s) := by
  unfold linkFault
  with_reducible repeat' first
    | assumption
    | refine lk_detectCode (subL hq (by decide)) ?_
    | refine lk_setLinks (subL hq (by decide)) ?_
    | refine LK.ite ?_ ?_

theorem lk_judgeStatus {Lq : List LanePart} {K0 : State} {n : LaneId} {s : State} {laser : Bool} {trained : Bool} {old : Nat} {new : Nat} (hq : [.life, .flt, .links, .loop, .spin, .sled, .wr, .waiting] ⊆ Lq) (hK : LK n Lq K0 s) :
    LK n Lq K0 (judgeStatus n laser trained old new s) := by
  unfold judgeStatus
  with_reducible repeat' first
    | assumption
    | refine lk_linkFault (subL hq (by decide)) ?_
    | refine LK.keep (u := raise _ _ _) (keeps_raise (List.Subset.refl _) (.refl _ _)) (by decide) ?_
    | refine LK.ite ?_ ?_

theorem lk_driveStatus {Lq : List LanePart} {K0 : State} {n : LaneId} {s : State} {payload : Bytes} {crc : Nat} (hq : [.life, .flt, .links, .loop, .spin, .sled, .wr, .waiting] ⊆ Lq) (hK : LK n Lq K0 s) :
    LK n Lq K0 (driveStatus n payload crc s) := by
  unfold driveStatus
  with_reducible repeat' first
    | assumption
    | refine LK.keep (u := lbump _ _ _ _ _ _) (keeps_lbump (List.Subset.refl _) (.refl _ _)) (by decide) ?_
    | refine lk_setLinks (subL hq (by decide)) ?_
    | refine lk_judgeStatus (subL hq (by decide)) ?_
    | refine LK.ite ?_ ?_

theorem lk_execDriveStatus {Lq : List LanePart} {K0 : State} {n : LaneId} {s : State} {payload : Bytes} {crc : Nat} (hq : [.life, .flt, .links, .loop, .spin, .sled, .wr, .waiting] ⊆ Lq) (hK : LK n Lq K0 s) :
    LKO n Lq K0 (execDriveStatus n payload crc s) := by
  unfold execDriveStatus
  with_reducible repeat' first
    | assumption
    | refine LKO.next ?_
    | refine LKO.ite ?_ ?_
    | refine lk_driveStatus (subL hq (by decide)) ?_

theorem lk_execDriveStatusTimeout {Lq : List LanePart} {K0 : State} {n : LaneId} {s : State}  (hq : [.life, .flt, .links, .loop, .spin, .sled, .wr, .waiting] ⊆ Lq) (hK : LK n Lq K0 s) :
    LKO n Lq K0 (execDriveStatusTimeout n s) := by
  unfold execDriveStatusTimeout
  with_reducible repeat' first
    | assumption
    | refine LKO.next ?_
    | refine LKO.ite ?_ ?_
    | refine lk_linkFault (subL hq (by decide)) ?_
    | refine LK.ite ?_ ?_

theorem lk_laserStatus {Lq : List LanePart} {K0 : State} {n : LaneId} {s : State} {payload : Bytes} {crc : Nat} (hq : [.life, .flt, .links, .loop, .spin, .sled, .wr, .waiting] ⊆ Lq) (hK : LK n Lq K0 s) :
    LK n Lq K0 (laserStatus n payload crc s) := by
  unfold laserStatus
  with_reducible repeat' first
    | assumption
    | refine LK.keep (u := lbump _ _ _ _ _ _) (keeps_lbump (List.Subset.refl _) (.refl _ _)) (by decide) ?_
    | refine lk_setLinks (subL hq (by decide)) ?_
    | refine lk_judgeStatus (subL hq (by decide)) ?_
    | refine LK.ite ?_ ?_

theorem lk_execLaserStatus {Lq : List LanePart} {K0 : State} {n : LaneId} {s : State} {payload : Bytes} {crc : Nat} (hq : [.life, .flt, .links, .loop, .spin, .sled, .wr, .waiting] ⊆ Lq) (hK : LK n Lq K0 s) :
    LKO n Lq K0 (execLaserStatus n payload crc s) := by
  unfold execLaserStatus
  with_reducible repeat' first
    | assumption
    | refine LKO.next ?_
    | refine LKO.ite ?_ ?_
    | refine lk_laserStatus (subL hq (by decide)) ?_

theorem lk_execLaserStatusTimeout {Lq : List LanePart} {K0 : State} {n : LaneId} {s : State}  (hq : [.life, .flt, .links, .loop, .spin, .sled, .wr, .waiting] ⊆ Lq) (hK : LK n Lq K0 s) :
    LKO n Lq K0 (execLaserStatusTimeout n s) := by
  unfold execLaserStatusTimeout
  with_reducible repeat' first
    | assumption
    | refine LKO.next ?_
    | refine LKO.ite ?_ ?_
    | refine lk_linkFault (subL hq (by decide)) ?_
    | refine LK.ite ?_ ?_

theorem lk_sidebandRetry {Lq : List LanePart} {K0 : State} {n : LaneId} {s : State} {acked : Bool} (hq : [.life, .flt, .links, .loop, .spin, .sled, .wr, .waiting] ⊆ Lq) (hK : LK n Lq K0 s) :
    LK n Lq K0 (sidebandRetry n acked s) := by
  unfold sidebandRetry
  with_reducible repeat' first
    | assumption
    | refine lk_setLinks (subL hq (by decide)) ?_
    | refine LK.keep (u := lbump _ _ _ _ _ _) (keeps_lbump (List.Subset.refl _) (.refl _ _)) (by decide) ?_
    | refine lk_detectCode (subL hq (by decide)) ?_
    | refine LK.keep (u := raise _ _ _) (keeps_raise (List.Subset.refl _) (.refl _ _)) (by decide) ?_
    | refine lk_setLife (subL hq (by decide)) (fun _ => rfl) ?_
    | refine LK.ite ?_ ?_

theorem lk_execSidebandRetry {Lq : List LanePart} {K0 : State} {n : LaneId} {s : State} {acked : Bool} (hq : [.life, .flt, .links, .loop, .spin, .sled, .wr, .waiting] ⊆ Lq) (hK : LK n Lq K0 s) :
    LKO n Lq K0 (execSidebandRetry n acked s) := by
  unfold execSidebandRetry
  with_reducible repeat' first
    | assumption
    | refine LKO.next ?_
    | refine LKO.ite ?_ ?_
    | refine lk_sidebandRetry (subL hq (by decide)) ?_

end Sys2Proof.Machine
end

