-- ==== Sys2Proof/Laws/LaneServerLaws.lean ====
section
/-! SUPPORT. What the operations of Server.lean on a lane keep of it and of the other lanes. -/

namespace Sys2Proof.Machine

set_option linter.unusedTactic false
set_option linter.unreachableTactic false
set_option linter.unusedVariables false

theorem lk_applyShadow {Lq : List LanePart} {K0 : State} {n : LaneId} {s : State} {obs : Bool} {v : Bytes} (hq : [.loop] ⊆ Lq) (hK : LK n Lq K0 s) :
    LKE n Lq K0 (applyShadow n obs v s) := by
  unfold applyShadow
  with_reducible repeat' first
    | assumption
    | refine LKE.ok ?_
    | exact LKE.error
    | refine LKE.ite ?_ ?_
    | refine LK.set ?_ ?_
    | (intro l x hx; cases x <;> with_unfolding_all first | exact absurd (memL hq (by decide)) hx | exact rfl | (dsimp only [LanePart.same]; (repeat' split) <;> rfl))
    | refine LK.ite ?_ ?_

end Sys2Proof.Machine
end

