-- ==== Sys2Proof/Laws/PerInstr.lean ====
section
/-! SUPPORT. Statements per constructor: a command is well-formed exactly when each of its operands lies in its range. -/

namespace Sys2Proof.Laws.F

/-- What is stated of each command: the Boolean test of well-formedness says what the ranges of the operands say. -/
def Statement (i : Instr) : Prop := i.wellFormed = true ↔ ∀ b ∈ i.bounds, b.2.1 ≤ b.1 ∧ b.1 ≤ b.2.2

/-- The statement of any command. -/
theorem wellFormed_iff (i : Instr) : Statement i := by simp [Statement, Instr.wellFormed, Bound.ok]

theorem orderTakeUp (n : LaneId) (b : Boundary) : Statement (.orderTakeUp n b) := wellFormed_iff _
theorem laneFaultDetect (src : FaultSource) : Statement (.laneFaultDetect src) := wellFormed_iff _
theorem laneFault (n : LaneId) : Statement (.laneFault n) := wellFormed_iff _
theorem laneRecovery (n : LaneId) : Statement (.laneRecovery n) := wellFormed_iff _
theorem observerUpdate (n : LaneId) (codes : List Int) (f : List Int) (ia : Int) (ib : Int) (volts : List Int) (late : Bool) : Statement (.observerUpdate n codes f ia ib volts late) := wellFormed_iff _
theorem outputRelease (n : LaneId) (l : LoopId) : Statement (.outputRelease n l) := wellFormed_iff _
theorem biquadSlot (n : LaneId) (powerMonitor : Int) (late : List Nat) : Statement (.biquadSlot n powerMonitor late) := wellFormed_iff _
theorem overrunBankCheck (n : LaneId) : Statement (.overrunBankCheck n) := wellFormed_iff _
theorem coreSupplyChange : Statement (.coreSupplyChange) := wellFormed_iff _
theorem coreSupplyInForce : Statement (.coreSupplyInForce) := wellFormed_iff _
theorem hello (d : Datagram) : Statement (.hello d) := wellFormed_iff _
theorem prove (d : Datagram) : Statement (.prove d) := wellFormed_iff _
theorem proveTimeout (session : Nat) : Statement (.proveTimeout session) := wellFormed_iff _
theorem close (d : Datagram) : Statement (.close d) := wellFormed_iff _
theorem kyeriRead (d : Datagram) : Statement (.kyeriRead d) := wellFormed_iff _
theorem kyeriWrite (d : Datagram) : Statement (.kyeriWrite d) := wellFormed_iff _
theorem batch (d : Datagram) : Statement (.batch d) := wellFormed_iff _
theorem eventAck (d : Datagram) : Statement (.eventAck d) := wellFormed_iff _
theorem discover (d : Datagram) : Statement (.discover d) := wellFormed_iff _
theorem discoverReply : Statement (.discoverReply) := wellFormed_iff _
theorem announce : Statement (.announce) := wellFormed_iff _
theorem eventResend (slot : Fin 8) : Statement (.eventResend slot) := wellFormed_iff _
theorem sessionIdleTimeout (slot : Fin 8) : Statement (.sessionIdleTimeout slot) := wellFormed_iff _
theorem dictionaryWrite (c : CmdId) (dw10 : Nat) (dw11 : Nat) (dw12 : Nat) (data : HostData) : Statement (.dictionaryWrite c dw10 dw11 dw12 data) := wellFormed_iff _
theorem dictionaryRead (c : CmdId) (dw10 : Nat) (dw11 : Nat) (dw12 : Nat) (failed : Option Nat) : Statement (.dictionaryRead c dw10 dw11 dw12 failed) := wellFormed_iff _
theorem dictionaryBatch (c : CmdId) (dw10 : Nat) (data : HostData) : Statement (.dictionaryBatch c dw10 data) := wellFormed_iff _
theorem entryWrite (who : Who) (index : Nat) (sub : Nat) (value : Bytes) : Statement (.entryWrite who index sub value) := wellFormed_iff _
theorem save (who : Who) (value : Bytes) : Statement (.save who value) := wellFormed_iff _
theorem saveDone (readBackOk : Bool) : Statement (.saveDone readBackOk) := wellFormed_iff _
theorem restoreFactoryDefaults (who : Who) (value : Bytes) : Statement (.restoreFactoryDefaults who value) := wellFormed_iff _
theorem keySlotWrite (who : Who) (slot : Fin 8) (value : Bytes) : Statement (.keySlotWrite who slot value) := wellFormed_iff _
theorem keyRoleWrite (who : Who) (slot : Fin 8) (value : Bytes) : Statement (.keyRoleWrite who slot value) := wellFormed_iff _
theorem presenceSample (n : LaneId) (presence : Bool) (disc : Bool) (clamp : Bool) : Statement (.presenceSample n presence disc clamp) := wellFormed_iff _
theorem presenceChange (n : LaneId) : Statement (.presenceChange n) := wellFormed_iff _
theorem pickupAccept (n : LaneId) (r : IdRead) : Statement (.pickupAccept n r) := wellFormed_iff _
theorem linkTrainingDone (n : LaneId) (laser : Bool) : Statement (.linkTrainingDone n laser) := wellFormed_iff _
theorem linkTrainingTimeout (n : LaneId) (laser : Bool) : Statement (.linkTrainingTimeout n laser) := wellFormed_iff _
theorem linkRetrainRetry (n : LaneId) (laser : Bool) : Statement (.linkRetrainRetry n laser) := wellFormed_iff _
theorem homingStall (n : LaneId) : Statement (.homingStall n) := wellFormed_iff _
theorem homingNoStall (n : LaneId) : Statement (.homingNoStall n) := wellFormed_iff _
theorem discStatusChange (n : LaneId) : Statement (.discStatusChange n) := wellFormed_iff _
theorem leadInReadStart (n : LaneId) : Statement (.leadInReadStart n) := wellFormed_iff _
theorem leadInReadComplete (n : LaneId) (r : LeadIn) : Statement (.leadInReadComplete n r) := wellFormed_iff _
theorem teamMembersWrite (who : Who) (t : TeamId) (value : Bytes) : Statement (.teamMembersWrite who t value) := wellFormed_iff _
theorem createVolume (who : Who) (t : TeamId) (value : Bytes) : Statement (.createVolume who t value) := wellFormed_iff _
theorem volumeCreated (t : TeamId) : Statement (.volumeCreated t) := wellFormed_iff _
theorem spinUp (n : LaneId) : Statement (.spinUp n) := wellFormed_iff _
theorem atSpeed (n : LaneId) : Statement (.atSpeed n) := wellFormed_iff _
theorem focusCapture (n : LaneId) (peaks : List Nat) (position : Int) : Statement (.focusCapture n peaks position) := wellFormed_iff _
theorem layerJump (n : LaneId) (outward : Bool) (landed : Bool) : Statement (.layerJump n outward landed) := wellFormed_iff _
theorem bandCapture (n : LaneId) (w : WobbleRead) (speeds : List Nat) : Statement (.bandCapture n w speeds) := wellFormed_iff _
theorem wobbleFrame (n : LaneId) (w : WobbleRead) : Statement (.wobbleFrame n w) := wellFormed_iff _
theorem writeClockUnlock (n : LaneId) (errors : List Int) : Statement (.writeClockUnlock n errors) := wellFormed_iff _
theorem runoutRevolution (n : LaneId) : Statement (.runoutRevolution n) := wellFormed_iff _
theorem startLearningRun (who : Who) (n : LaneId) (value : Bytes) : Statement (.startLearningRun who n value) := wellFormed_iff _
theorem idleParkTimeout (n : LaneId) : Statement (.idleParkTimeout n) := wellFormed_iff _
theorem rampDown (n : LaneId) : Statement (.rampDown n) := wellFormed_iff _
theorem laneModeWrite (who : Who) (n : LaneId) (value : Bytes) : Statement (.laneModeWrite who n value) := wellFormed_iff _
theorem laneEnableWrite (who : Who) (n : LaneId) (value : Bytes) : Statement (.laneEnableWrite who n value) := wellFormed_iff _
theorem laneReset (who : Who) (n : LaneId) (value : Bytes) : Statement (.laneReset who n value) := wellFormed_iff _
theorem pickupTempRead (n : LaneId) (temp : Int) : Statement (.pickupTempRead n temp) := wellFormed_iff _
theorem sessionCloseDue (n : LaneId) : Statement (.sessionCloseDue n) := wellFormed_iff _
theorem sessionCloseWrite (n : LaneId) (verify : List VerifyRead) : Statement (.sessionCloseWrite n verify) := wellFormed_iff _
theorem recoveryScan (n : LaneId) : Statement (.recoveryScan n) := wellFormed_iff _
theorem recoveryScanEnd (n : LaneId) (r : ScanRead) : Statement (.recoveryScanEnd n r) := wellFormed_iff _
theorem passStart (n : LaneId) (blank : List (TrackId × Bool)) : Statement (.passStart n blank) := wellFormed_iff _
theorem sectorPlayout (n : LaneId) : Statement (.sectorPlayout n) := wellFormed_iff _
theorem sectorVerify (n : LaneId) (k : TrackId) (v : VerifyRead) : Statement (.sectorVerify n k v) := wellFormed_iff _
theorem passEnd (n : LaneId) : Statement (.passEnd n) := wellFormed_iff _
theorem relocationPass (n : LaneId) (verify : List (TrackId × List VerifyRead)) : Statement (.relocationPass n verify) := wellFormed_iff _
theorem relocationMove (n : LaneId) : Statement (.relocationMove n) := wellFormed_iff _
theorem sealDelayExpire (t : TeamId) (extent : Nat) : Statement (.sealDelayExpire t extent) := wellFormed_iff _
theorem extentReadStart (n : LaneId) (k : TrackId) (slot : Nat) : Statement (.extentReadStart n k slot) := wellFormed_iff _
theorem acquisition (n : LaneId) (c : ChanId) (level : Nat) (rms : Nat) (phase : Int) (phaseError : Nat) (residual : Int) : Statement (.acquisition n c level rms phase phaseError residual) := wellFormed_iff _
theorem syncMarkSearch (n : LaneId) (c : ChanId) (w : MarkWindow) : Statement (.syncMarkSearch n c w) := wellFormed_iff _
theorem timingLost (n : LaneId) (c : ChanId) (bit : Nat) : Statement (.timingLost n c bit) := wellFormed_iff _
theorem dropoutStart (n : LaneId) (c : ChanId) (bit : Nat) : Statement (.dropoutStart n c bit) := wellFormed_iff _
theorem dropoutEnd (n : LaneId) (c : ChanId) (bit : Nat) : Statement (.dropoutEnd n c bit) := wellFormed_iff _
theorem dropoutCoastLimit (n : LaneId) (c : ChanId) (bit : Nat) : Statement (.dropoutCoastLimit n c bit) := wellFormed_iff _
theorem sectorRecord (n : LaneId) (k : TrackId) (r : SectorSamples) : Statement (.sectorRecord n k r) := wellFormed_iff _
theorem captureArm (who : Who) (n : LaneId) (value : Bytes) : Statement (.captureArm who n value) := wellFormed_iff _
theorem captureStart (n : LaneId) (samples : List Bytes) : Statement (.captureStart n samples) := wellFormed_iff _
theorem testSourceWrite (who : Who) (n : LaneId) (value : Bytes) : Statement (.testSourceWrite who n value) := wellFormed_iff _
theorem restoreClassTaps (who : Who) (n : LaneId) (value : Bytes) : Statement (.restoreClassTaps who n value) := wellFormed_iff _
theorem ldpcDecode (n : LaneId) (k : TrackId) (sector : Nat) : Statement (.ldpcDecode n k sector) := wellFormed_iff _
theorem extentReadOutcome (n : LaneId) (k : TrackId) : Statement (.extentReadOutcome n k) := wellFormed_iff _
theorem outerDecode (n : LaneId) (k : TrackId) : Statement (.outerDecode n k) := wellFormed_iff _
theorem ladderStep (n : LaneId) (k : TrackId) : Statement (.ladderStep n k) := wellFormed_iff _
theorem refreshWaitExpire (n : LaneId) : Statement (.refreshWaitExpire n) := wellFormed_iff _
theorem clearReadDefectList (who : Who) (n : LaneId) (value : Bytes) : Statement (.clearReadDefectList who n value) := wellFormed_iff _
theorem observerSwitchRequest (who : Who) (value : Bytes) : Statement (.observerSwitchRequest who value) := wellFormed_iff _
theorem biquadSwitchRequest (who : Who) (value : Bytes) : Statement (.biquadSwitchRequest who value) := wellFormed_iff _
theorem observerShadowWrite (who : Who) (n : LaneId) (value : Bytes) : Statement (.observerShadowWrite who n value) := wellFormed_iff _
theorem biquadShadowWrite (who : Who) (n : LaneId) (value : Bytes) : Statement (.biquadShadowWrite who n value) := wellFormed_iff _
theorem librarySlotWrite (who : Who) (slot : Fin 16) (sub : Nat) (value : Bytes) : Statement (.librarySlotWrite who slot sub value) := wellFormed_iff _
theorem commutationStep (n : LaneId) : Statement (.commutationStep n) := wellFormed_iff _
theorem zeroCrossing (n : LaneId) : Statement (.zeroCrossing n) := wellFormed_iff _
theorem rotorLost (n : LaneId) : Statement (.rotorLost n) := wellFormed_iff _
theorem startFromRest (n : LaneId) (peaks : List (List Nat)) : Statement (.startFromRest n peaks) := wellFormed_iff _
theorem handover (n : LaneId) : Statement (.handover n) := wellFormed_iff _
theorem openLoopTimeout (n : LaneId) : Statement (.openLoopTimeout n) := wellFormed_iff _
theorem coastEnd (n : LaneId) (backEmf : Nat) : Statement (.coastEnd n backEmf) := wellFormed_iff _
theorem voltageLimitEnter (n : LaneId) : Statement (.voltageLimitEnter n) := wellFormed_iff _
theorem voltageLimitExit (n : LaneId) : Statement (.voltageLimitExit n) := wellFormed_iff _
theorem busSample (g : SegId) (mv : Nat) : Statement (.busSample g mv) := wellFormed_iff _
theorem chopFailureDetect (g : SegId) : Statement (.chopFailureDetect g) := wellFormed_iff _
theorem clearChopperFailure (who : Who) (g : SegId) (value : Bytes) : Statement (.clearChopperFailure who g value) := wellFormed_iff _
theorem busOvervoltage (g : SegId) : Statement (.busOvervoltage g) := wellFormed_iff _
theorem regenToShort (n : LaneId) : Statement (.regenToShort n) := wellFormed_iff _
theorem shortBrakeRest (n : LaneId) : Statement (.shortBrakeRest n) := wellFormed_iff _
theorem flyingRestart (n : LaneId) (b : BackEmf) : Statement (.flyingRestart n b) := wellFormed_iff _
theorem flyingRestartTimeout (n : LaneId) : Statement (.flyingRestartTimeout n) := wellFormed_iff _
theorem pacerEvaluation (n : LaneId) : Statement (.pacerEvaluation n) := wellFormed_iff _
theorem sledSetpoint (n : LaneId) (master : Nat) (sa : Int) (sb : Int) : Statement (.sledSetpoint n master sa sb) := wellFormed_iff _
theorem hostStride (who : Who) (n : LaneId) (value : Bytes) : Statement (.hostStride who n value) := wellFormed_iff _
theorem hostStop (who : Who) (n : LaneId) (value : Bytes) : Statement (.hostStop who n value) := wellFormed_iff _
theorem quietDelayExpire (n : LaneId) : Statement (.quietDelayExpire n) := wellFormed_iff _
theorem holdCurrentTimeout (n : LaneId) : Statement (.holdCurrentTimeout n) := wellFormed_iff _
theorem encFailure (n : LaneId) (noEdge : Bool) : Statement (.encFailure n noEdge) := wellFormed_iff _
theorem microstepTableWrite (who : Who) (n : LaneId) (value : Bytes) : Statement (.microstepTableWrite who n value) := wellFormed_iff _
theorem restoreDefaultTable (who : Who) (n : LaneId) (value : Bytes) : Statement (.restoreDefaultTable who n value) := wellFormed_iff _
theorem startWarmUp (who : Who) (n : LaneId) (value : Bytes) : Statement (.startWarmUp who n value) := wellFormed_iff _
theorem warmUpStart (n : LaneId) : Statement (.warmUpStart n) := wellFormed_iff _
theorem warmUpPartEnd (n : LaneId) (samples : List (List Int)) : Statement (.warmUpPartEnd n samples) := wellFormed_iff _
theorem warmUpRead (n : LaneId) : Statement (.warmUpRead n) := wellFormed_iff _
theorem warmUpPartTimeout (n : LaneId) : Statement (.warmUpPartTimeout n) := wellFormed_iff _
theorem opcWaitExpire (n : LaneId) : Statement (.opcWaitExpire n) := wellFormed_iff _
theorem writePowerPass (n : LaneId) (beta : List (List Int)) (diffs : List (List Nat)) : Statement (.writePowerPass n beta diffs) := wellFormed_iff _
theorem warmUpRetry (n : LaneId) : Statement (.warmUpRetry n) := wellFormed_iff _
theorem trimSetRestore (who : Who) (n : LaneId) (value : Bytes) : Statement (.trimSetRestore who n value) := wellFormed_iff _
theorem createIoSq (c : CmdId) (dw10 : Nat) (dw11 : Nat) (prp : Nat) : Statement (.createIoSq c dw10 dw11 prp) := wellFormed_iff _
theorem createIoCq (c : CmdId) (dw10 : Nat) (dw11 : Nat) (prp : Nat) : Statement (.createIoCq c dw10 dw11 prp) := wellFormed_iff _
theorem deleteIoSq (c : CmdId) (dw10 : Nat) : Statement (.deleteIoSq c dw10) := wellFormed_iff _
theorem deleteIoCq (c : CmdId) (dw10 : Nat) : Statement (.deleteIoCq c dw10) := wellFormed_iff _
theorem getLogPage (c : CmdId) (nsid : Nat) (dw10 : Nat) (dw11 : Nat) (dw12 : Nat) (dw13 : Nat) : Statement (.getLogPage c nsid dw10 dw11 dw12 dw13) := wellFormed_iff _
theorem identify (c : CmdId) (nsid : Nat) (dw10 : Nat) (dw11 : Nat) : Statement (.identify c nsid dw10 dw11) := wellFormed_iff _
theorem abort (c : CmdId) (dw10 : Nat) : Statement (.abort c dw10) := wellFormed_iff _
theorem setFeaturesArbitration (c : CmdId) (sv : Bool) (dw11 : Nat) : Statement (.setFeaturesArbitration c sv dw11) := wellFormed_iff _
theorem setFeaturesPowerManagement (c : CmdId) (sv : Bool) (dw11 : Nat) : Statement (.setFeaturesPowerManagement c sv dw11) := wellFormed_iff _
theorem setFeaturesTempThreshold (c : CmdId) (sv : Bool) (dw11 : Nat) : Statement (.setFeaturesTempThreshold c sv dw11) := wellFormed_iff _
theorem setFeaturesNumberOfQueues (c : CmdId) (sv : Bool) (dw11 : Nat) : Statement (.setFeaturesNumberOfQueues c sv dw11) := wellFormed_iff _
theorem setFeaturesIntCoalescing (c : CmdId) (sv : Bool) (dw11 : Nat) : Statement (.setFeaturesIntCoalescing c sv dw11) := wellFormed_iff _
theorem setFeaturesIntVectorConfig (c : CmdId) (sv : Bool) (dw11 : Nat) : Statement (.setFeaturesIntVectorConfig c sv dw11) := wellFormed_iff _
theorem setFeaturesAsyncEventConfig (c : CmdId) (sv : Bool) (dw11 : Nat) : Statement (.setFeaturesAsyncEventConfig c sv dw11) := wellFormed_iff _
theorem setFeaturesUnsupported (c : CmdId) (sv : Bool) (fid : Nat) : Statement (.setFeaturesUnsupported c sv fid) := wellFormed_iff _
theorem getFeatures (c : CmdId) (dw10 : Nat) (dw11 : Nat) : Statement (.getFeatures c dw10 dw11) := wellFormed_iff _
theorem asyncEventRequest (c : CmdId) : Statement (.asyncEventRequest c) := wellFormed_iff _
theorem firmwareImageDownload (c : CmdId) (ofst : Nat) (data : Option Bytes) : Statement (.firmwareImageDownload c ofst data) := wellFormed_iff _
theorem firmwareCommitVerify (c : CmdId) (fs : Nat) : Statement (.firmwareCommitVerify c fs) := wellFormed_iff _
theorem firmwareCommitPending (c : CmdId) (fs : Nat) : Statement (.firmwareCommitPending c fs) := wellFormed_iff _
theorem firmwareCommitSelect (c : CmdId) (fs : Nat) : Statement (.firmwareCommitSelect c fs) := wellFormed_iff _
theorem firmwareCommitActivate (c : CmdId) (fs : Nat) (peerHolds : Bool) : Statement (.firmwareCommitActivate c fs peerHolds) := wellFormed_iff _
theorem securitySend (c : CmdId) (protocol : Nat) (data : Option Bytes) : Statement (.securitySend c protocol data) := wellFormed_iff _
theorem securityReceive (c : CmdId) (protocol : Nat) (len : Nat) : Statement (.securityReceive c protocol len) := wellFormed_iff _
theorem getVersion : Statement (.getVersion) := wellFormed_iff _
theorem getCapabilities (flags : Nat) : Statement (.getCapabilities flags) := wellFormed_iff _
theorem negotiateAlgorithms (asym : Nat) (hash : Nat) : Statement (.negotiateAlgorithms asym hash) := wellFormed_iff _
theorem getDigests : Statement (.getDigests) := wellFormed_iff _
theorem getCertificate (slot : Nat) (offset : Nat) (len : Nat) : Statement (.getCertificate slot offset len) := wellFormed_iff _
theorem challenge (slot : Nat) (summary : Nat) (nonce : Bytes) : Statement (.challenge slot summary nonce) := wellFormed_iff _
theorem getMeasurements (index : Nat) (nonce : Option Bytes) : Statement (.getMeasurements index nonce) := wellFormed_iff _
theorem spdmUnsupportedRequest (code : Nat) : Statement (.spdmUnsupportedRequest code) := wellFormed_iff _
theorem invalidOpcode (c : CmdId) (opcode : Nat) : Statement (.invalidOpcode c opcode) := wellFormed_iff _
theorem flush (c : CmdId) (nsid : Nat) : Statement (.flush c nsid) := wellFormed_iff _
theorem write (c : CmdId) (nsid : Nat) (slba : Nat) (nlb : Nat) (x : Transfer) : Statement (.write c nsid slba nlb x) := wellFormed_iff _
theorem read (c : CmdId) (nsid : Nat) (slba : Nat) (nlb : Nat) (x : Transfer) : Statement (.read c nsid slba nlb x) := wellFormed_iff _
theorem zoneAppend (c : CmdId) (nsid : Nat) (zslba : Nat) (nlb : Nat) (x : Transfer) : Statement (.zoneAppend c nsid zslba nlb x) := wellFormed_iff _
theorem zoneManagementReceive (c : CmdId) (nsid : Nat) (slba : Nat) (option : Nat) (numd : Nat) (part : Bool) : Statement (.zoneManagementReceive c nsid slba option numd part) := wellFormed_iff _
theorem zoneOpen (c : CmdId) (nsid : Nat) (slba : Nat) (all : Bool) : Statement (.zoneOpen c nsid slba all) := wellFormed_iff _
theorem zoneClose (c : CmdId) (nsid : Nat) (slba : Nat) (all : Bool) : Statement (.zoneClose c nsid slba all) := wellFormed_iff _
theorem zoneFinish (c : CmdId) (nsid : Nat) (slba : Nat) (all : Bool) : Statement (.zoneFinish c nsid slba all) := wellFormed_iff _
theorem zoneReset (c : CmdId) (nsid : Nat) (slba : Nat) (all : Bool) : Statement (.zoneReset c nsid slba all) := wellFormed_iff _
theorem zoneOffline (c : CmdId) (nsid : Nat) (slba : Nat) (all : Bool) : Statement (.zoneOffline c nsid slba all) := wellFormed_iff _
theorem setZoneDescriptorExtension (c : CmdId) (nsid : Nat) (slba : Nat) : Statement (.setZoneDescriptorExtension c nsid slba) := wellFormed_iff _
theorem sqDoorbell (ctrl : PortId) (q : Nat) (tail : Nat) : Statement (.sqDoorbell ctrl q tail) := wellFormed_iff _
theorem cqDoorbell (ctrl : PortId) (q : Nat) (head : Nat) : Statement (.cqDoorbell ctrl q head) := wellFormed_iff _
theorem commandComplete (c : CmdId) : Statement (.commandComplete c) := wellFormed_iff _
theorem detachHoldExpire (t : TeamId) : Statement (.detachHoldExpire t) := wellFormed_iff _
theorem orderWaitExpire (t : TeamId) (extent : Nat) : Statement (.orderWaitExpire t extent) := wellFormed_iff _
theorem zoneRebuild (t : TeamId) : Statement (.zoneRebuild t) := wellFormed_iff _
theorem controllerEnable (ctrl : PortId) (ams : Nat) (aqa : Nat) : Statement (.controllerEnable ctrl ams aqa) := wellFormed_iff _
theorem controllerReset (ctrl : PortId) : Statement (.controllerReset ctrl) := wellFormed_iff _
theorem pcieLinkDown (port : PortId) : Statement (.pcieLinkDown port) := wellFormed_iff _
theorem shutdownNotify (ctrl : PortId) : Statement (.shutdownNotify ctrl) := wellFormed_iff _
theorem laneWaitExpire (n : LaneId) : Statement (.laneWaitExpire n) := wellFormed_iff _
theorem testOrderingWrite (who : Who) (value : Bytes) : Statement (.testOrderingWrite who value) := wellFormed_iff _
theorem memoryChannelLost (ch : PortId) (cause : Nat) : Statement (.memoryChannelLost ch cause) := wellFormed_iff _
theorem bufferFillDone : Statement (.bufferFillDone) := wellFormed_iff _
theorem scrubStep (flips : List (Nat × Nat)) : Statement (.scrubStep flips) := wellFormed_iff _
theorem scrubModeWrite (who : Who) (value : Bytes) : Statement (.scrubModeWrite who value) := wellFormed_iff _
theorem startPass (who : Who) (value : Bytes) : Statement (.startPass who value) := wellFormed_iff _
theorem endPass (who : Who) (value : Bytes) : Statement (.endPass who value) := wellFormed_iff _
theorem cmbRead (port : PortId) (offset : Nat) (len : Nat) : Statement (.cmbRead port offset len) := wellFormed_iff _
theorem cmbWrite (port : PortId) (offset : Nat) (data : Bytes) (ep : Bool) : Statement (.cmbWrite port offset data ep) := wellFormed_iff _
theorem hostDataCompletion (c : CmdId) (lba : Nat) (data : Bytes) (ep : Bool) (error : Bool) : Statement (.hostDataCompletion c lba data ep error) := wellFormed_iff _
theorem hostDataTimeout (c : CmdId) (lba : Nat) : Statement (.hostDataTimeout c lba) := wellFormed_iff _
theorem cacheAccess (addr : Nat) (data : Option Bytes) (flips : List (Nat × Nat)) : Statement (.cacheAccess addr data flips) := wellFormed_iff _
theorem cacheFillComplete (bank : Fin 16) (flips : List (Nat × Nat)) : Statement (.cacheFillComplete bank flips) := wellFormed_iff _
theorem writebackDrain : Statement (.writebackDrain) := wellFormed_iff _
theorem wayModeWrite (who : Who) (value : Bytes) : Statement (.wayModeWrite who value) := wellFormed_iff _
theorem modeChangeComplete : Statement (.modeChangeComplete) := wellFormed_iff _
theorem cacheClean (who : Who) (value : Bytes) : Statement (.cacheClean who value) := wellFormed_iff _
theorem cacheInvalidate (who : Who) (value : Bytes) : Statement (.cacheInvalidate who value) := wellFormed_iff _
theorem cacheCleanInvalidate (who : Who) (value : Bytes) : Statement (.cacheCleanInvalidate who value) := wellFormed_iff _
theorem cacheLoad (who : Who) (value : Bytes) : Statement (.cacheLoad who value) := wellFormed_iff _
theorem maintenanceComplete : Statement (.maintenanceComplete) := wellFormed_iff _
theorem soloTimeout : Statement (.soloTimeout) := wellFormed_iff _
theorem peerArrived (serial : Bytes) : Statement (.peerArrived serial) := wellFormed_iff _
theorem pairselClaim (low : Nat) : Statement (.pairselClaim low) := wellFormed_iff _
theorem holdConflict : Statement (.holdConflict) := wellFormed_iff _
theorem demandRelease : Statement (.demandRelease) := wellFormed_iff _
theorem batonLinkTrained (link : PortId) (serial : Bytes) : Statement (.batonLinkTrained link serial) := wellFormed_iff _
theorem batonLinkLost (link : PortId) : Statement (.batonLinkLost link) := wellFormed_iff _
theorem peerDeparted : Statement (.peerDeparted) := wellFormed_iff _
theorem pairHello (frame : Bytes) (side : Bool) : Statement (.pairHello frame side) := wellFormed_iff _
theorem heartbeatSend : Statement (.heartbeatSend) := wellFormed_iff _
theorem heartbeat (frame : Bytes) : Statement (.heartbeat frame) := wellFormed_iff _
theorem mirror (frame : Bytes) : Statement (.mirror frame) := wellFormed_iff _
theorem commit (frame : Bytes) : Statement (.commit frame) := wellFormed_iff _
theorem ack (frame : Bytes) : Statement (.ack frame) := wellFormed_iff _
theorem config (frame : Bytes) : Statement (.config frame) := wellFormed_iff _
theorem drill (frame : Bytes) : Statement (.drill frame) := wellFormed_iff _
theorem aliveLoss : Statement (.aliveLoss) := wellFormed_iff _
theorem heartbeatLoss : Statement (.heartbeatLoss) := wellFormed_iff _
theorem takeoverRefused : Statement (.takeoverRefused) := wellFormed_iff _
theorem startDrill (who : Who) (value : Bytes) : Statement (.startDrill who value) := wellFormed_iff _
theorem drillSchedule : Statement (.drillSchedule) := wellFormed_iff _
theorem drillQuiesceExpire : Statement (.drillQuiesceExpire) := wellFormed_iff _
theorem drillRelease : Statement (.drillRelease) := wellFormed_iff _
theorem drillCheck (holdHigh : Bool) : Statement (.drillCheck holdHigh) := wellFormed_iff _
theorem laneViewMismatch (n : LaneId) (peerPresence : Bool) (peerDisc : Bool) : Statement (.laneViewMismatch n peerPresence peerDisc) := wellFormed_iff _
theorem unitStateWrite (who : Who) (value : Bytes) : Statement (.unitStateWrite who value) := wellFormed_iff _
theorem standEntry : Statement (.standEntry) := wellFormed_iff _
theorem standEntryTimeout : Statement (.standEntryTimeout) := wellFormed_iff _
theorem sleepEntry : Statement (.sleepEntry) := wellFormed_iff _
theorem wakeStep (ok : Bool) : Statement (.wakeStep ok) := wellFormed_iff _
theorem wakeStepTimeout : Statement (.wakeStepTimeout) := wellFormed_iff _
theorem wakeFromStand : Statement (.wakeFromStand) := wellFormed_iff _
theorem demandWake : Statement (.demandWake) := wellFormed_iff _
theorem openDownload (who : Who) (value : Bytes) : Statement (.openDownload who value) := wellFormed_iff _
theorem chunk (who : Who) (value : Bytes) : Statement (.chunk who value) := wellFormed_iff _
theorem imageVerify : Statement (.imageVerify) := wellFormed_iff _
theorem imageCopyToPeer : Statement (.imageCopyToPeer) := wellFormed_iff _
theorem abandonDownload (who : Who) (value : Bytes) : Statement (.abandonDownload who value) := wellFormed_iff _
theorem activate (who : Who) (value : Bytes) (peerHolds : Bool) : Statement (.activate who value peerHolds) := wellFormed_iff _
theorem activationStep : Statement (.activationStep) := wellFormed_iff _
theorem rollingActivationStep (ok : Bool) : Statement (.rollingActivationStep ok) := wellFormed_iff _
theorem trialExpire : Statement (.trialExpire) := wellFormed_iff _
theorem commitTrial (who : Who) (value : Bytes) : Statement (.commitTrial who value) := wellFormed_iff _
theorem watchdogExpire (core : Fin 12) : Statement (.watchdogExpire core) := wellFormed_iff _
theorem failStop (cause : Nat) : Statement (.failStop cause) := wellFormed_iff _
theorem bootRom (ddr : List DdrSeen) : Statement (.bootRom ddr) := wellFormed_iff _
theorem deviceReset (aon : Bool) : Statement (.deviceReset aon) := wellFormed_iff _
theorem lifetimeSave : Statement (.lifetimeSave) := wellFormed_iff _
theorem pickupLifetimeWrite (n : LaneId) : Statement (.pickupLifetimeWrite n) := wellFormed_iff _
theorem setCalendar (who : Who) (value : Bytes) : Statement (.setCalendar who value) := wellFormed_iff _
theorem setPpsTime (who : Who) (value : Bytes) : Statement (.setPpsTime who value) := wellFormed_iff _
theorem ppsEdge : Statement (.ppsEdge) := wellFormed_iff _
theorem ppsTimeout : Statement (.ppsTimeout) := wellFormed_iff _
theorem driveStatus (n : LaneId) (payload : Bytes) (crc : Nat) : Statement (.driveStatus n payload crc) := wellFormed_iff _
theorem driveStatusTimeout (n : LaneId) : Statement (.driveStatusTimeout n) := wellFormed_iff _
theorem laserStatus (n : LaneId) (payload : Bytes) (crc : Nat) : Statement (.laserStatus n payload crc) := wellFormed_iff _
theorem laserStatusTimeout (n : LaneId) : Statement (.laserStatusTimeout n) := wellFormed_iff _
theorem sidebandRetry (n : LaneId) (acked : Bool) : Statement (.sidebandRetry n acked) := wellFormed_iff _
theorem mdioPoll (port : PortId) (up : Bool) : Statement (.mdioPoll port up) := wellFormed_iff _
theorem thermalTrip (die : Fin 5) (temp : Int) : Statement (.thermalTrip die temp) := wellFormed_iff _
theorem clearAlert (who : Who) (value : Bytes) : Statement (.clearAlert who value) := wellFormed_iff _
theorem powerUpStep (group : Fin 5) : Statement (.powerUpStep group) := wellFormed_iff _
theorem powerUpTimeout : Statement (.powerUpTimeout) := wellFormed_iff _
theorem powerUpRetry : Statement (.powerUpRetry) := wellFormed_iff _
theorem supplyCheck (mv : List Nat) : Statement (.supplyCheck mv) := wellFormed_iff _
theorem pmicPgFall (group : Fin 4) : Statement (.pmicPgFall group) := wellFormed_iff _
theorem aonPowerFail : Statement (.aonPowerFail) := wellFormed_iff _
theorem compositeTemperatureChange (temps : List Int) : Statement (.compositeTemperatureChange temps) := wellFormed_iff _
theorem referenceClockLost (clk : PortId) : Statement (.referenceClockLost clk) := wellFormed_iff _
theorem pcieLinkTrained (port : PortId) (speed : Nat) (width : Nat) : Statement (.pcieLinkTrained port speed width) := wellFormed_iff _
theorem powerDownStep (pgFell : Bool) : Statement (.powerDownStep pgFell) := wellFormed_iff _
theorem commandAddressParityError (ch : PortId) (cleared : Bool) : Statement (.commandAddressParityError ch cleared) := wellFormed_iff _
theorem interruptCoalescingTimeout (ctrl : PortId) (vector : Nat) : Statement (.interruptCoalescingTimeout ctrl vector) := wellFormed_iff _
theorem jtagInstruction (ir : Nat) (tdi : List Bool) : Statement (.jtagInstruction ir tdi) := wellFormed_iff _
theorem neighbourDiscovery (port : PortId) (addr : Bytes) (msg : Bytes) : Statement (.neighbourDiscovery port addr msg) := wellFormed_iff _

end Sys2Proof.Laws.F
end

