-- ==== Sys2Proof/Laws/State.lean ====
section
/-! SUPPORT. One lemma per field of the state for each shared update, and the readings of lanes, teams and segments. -/

namespace Sys2Proof.Machine

variable {s : State}

@[simp] theorem pending_setLane {n : LaneId} {f : Lane → Lane} : (setLane n f s).pending = s.pending := rfl
@[simp] theorem ticks_setLane {n : LaneId} {f : Lane → Lane} : (setLane n f s).ticks = s.ticks := rfl
@[simp] theorem free_setLane {n : LaneId} {f : Lane → Lane} : (setLane n f s).free = s.free := rfl
@[simp] theorem sent_setLane {n : LaneId} {f : Lane → Lane} : (setLane n f s).sent = s.sent := rfl
@[simp] theorem dict_setLane {n : LaneId} {f : Lane → Lane} : (setLane n f s).dict = s.dict := rfl
@[simp] theorem conf_setLane {n : LaneId} {f : Lane → Lane} : (setLane n f s).conf = s.conf := rfl
@[simp] theorem log_setLane {n : LaneId} {f : Lane → Lane} : (setLane n f s).log = s.log := rfl
@[simp] theorem cal_setLane {n : LaneId} {f : Lane → Lane} : (setLane n f s).cal = s.cal := rfl
@[simp] theorem life_setLane {n : LaneId} {f : Lane → Lane} : (setLane n f s).life = s.life := rfl
@[simp] theorem pool_setLane {n : LaneId} {f : Lane → Lane} : (setLane n f s).pool = s.pool := rfl
@[simp] theorem teams_setLane {n : LaneId} {f : Lane → Lane} : (setLane n f s).teams = s.teams := rfl
@[simp] theorem segs_setLane {n : LaneId} {f : Lane → Lane} : (setLane n f s).segs = s.segs := rfl
@[simp] theorem alert_setLane {n : LaneId} {f : Lane → Lane} : (setLane n f s).alert = s.alert := rfl
@[simp] theorem coreMv_setLane {n : LaneId} {f : Lane → Lane} : (setLane n f s).coreMv = s.coreMv := rfl
@[simp] theorem coreGoal_setLane {n : LaneId} {f : Lane → Lane} : (setLane n f s).coreGoal = s.coreGoal := rfl
@[simp] theorem host_setLane {n : LaneId} {f : Lane → Lane} : (setLane n f s).host = s.host := rfl
@[simp] theorem mem_setLane {n : LaneId} {f : Lane → Lane} : (setLane n f s).mem = s.mem := rfl
@[simp] theorem cache_setLane {n : LaneId} {f : Lane → Lane} : (setLane n f s).cache = s.cache := rfl
@[simp] theorem pair_setLane {n : LaneId} {f : Lane → Lane} : (setLane n f s).pair = s.pair := rfl
@[simp] theorem work_setLane {n : LaneId} {f : Lane → Lane} : (setLane n f s).work = s.work := rfl
@[simp] theorem power_setLane {n : LaneId} {f : Lane → Lane} : (setLane n f s).power = s.power := rfl
@[simp] theorem fw_setLane {n : LaneId} {f : Lane → Lane} : (setLane n f s).fw = s.fw := rfl
@[simp] theorem island_setLane {n : LaneId} {f : Lane → Lane} : (setLane n f s).island = s.island := rfl
@[simp] theorem sup_setLane {n : LaneId} {f : Lane → Lane} : (setLane n f s).sup = s.sup := rfl
@[simp] theorem ports_setLane {n : LaneId} {f : Lane → Lane} : (setLane n f s).ports = s.ports := rfl

@[simp] theorem pending_setTeam {t : TeamId} {f : Team → Team} : (setTeam t f s).pending = s.pending := rfl
@[simp] theorem ticks_setTeam {t : TeamId} {f : Team → Team} : (setTeam t f s).ticks = s.ticks := rfl
@[simp] theorem free_setTeam {t : TeamId} {f : Team → Team} : (setTeam t f s).free = s.free := rfl
@[simp] theorem sent_setTeam {t : TeamId} {f : Team → Team} : (setTeam t f s).sent = s.sent := rfl
@[simp] theorem dict_setTeam {t : TeamId} {f : Team → Team} : (setTeam t f s).dict = s.dict := rfl
@[simp] theorem conf_setTeam {t : TeamId} {f : Team → Team} : (setTeam t f s).conf = s.conf := rfl
@[simp] theorem log_setTeam {t : TeamId} {f : Team → Team} : (setTeam t f s).log = s.log := rfl
@[simp] theorem cal_setTeam {t : TeamId} {f : Team → Team} : (setTeam t f s).cal = s.cal := rfl
@[simp] theorem life_setTeam {t : TeamId} {f : Team → Team} : (setTeam t f s).life = s.life := rfl
@[simp] theorem lanes_setTeam {t : TeamId} {f : Team → Team} : (setTeam t f s).lanes = s.lanes := rfl
@[simp] theorem pool_setTeam {t : TeamId} {f : Team → Team} : (setTeam t f s).pool = s.pool := rfl
@[simp] theorem segs_setTeam {t : TeamId} {f : Team → Team} : (setTeam t f s).segs = s.segs := rfl
@[simp] theorem alert_setTeam {t : TeamId} {f : Team → Team} : (setTeam t f s).alert = s.alert := rfl
@[simp] theorem coreMv_setTeam {t : TeamId} {f : Team → Team} : (setTeam t f s).coreMv = s.coreMv := rfl
@[simp] theorem coreGoal_setTeam {t : TeamId} {f : Team → Team} : (setTeam t f s).coreGoal = s.coreGoal := rfl
@[simp] theorem host_setTeam {t : TeamId} {f : Team → Team} : (setTeam t f s).host = s.host := rfl
@[simp] theorem mem_setTeam {t : TeamId} {f : Team → Team} : (setTeam t f s).mem = s.mem := rfl
@[simp] theorem cache_setTeam {t : TeamId} {f : Team → Team} : (setTeam t f s).cache = s.cache := rfl
@[simp] theorem pair_setTeam {t : TeamId} {f : Team → Team} : (setTeam t f s).pair = s.pair := rfl
@[simp] theorem work_setTeam {t : TeamId} {f : Team → Team} : (setTeam t f s).work = s.work := rfl
@[simp] theorem power_setTeam {t : TeamId} {f : Team → Team} : (setTeam t f s).power = s.power := rfl
@[simp] theorem fw_setTeam {t : TeamId} {f : Team → Team} : (setTeam t f s).fw = s.fw := rfl
@[simp] theorem island_setTeam {t : TeamId} {f : Team → Team} : (setTeam t f s).island = s.island := rfl
@[simp] theorem sup_setTeam {t : TeamId} {f : Team → Team} : (setTeam t f s).sup = s.sup := rfl
@[simp] theorem ports_setTeam {t : TeamId} {f : Team → Team} : (setTeam t f s).ports = s.ports := rfl

@[simp] theorem pending_setSeg {g : SegId} {f : Segment → Segment} : (setSeg g f s).pending = s.pending := rfl
@[simp] theorem ticks_setSeg {g : SegId} {f : Segment → Segment} : (setSeg g f s).ticks = s.ticks := rfl
@[simp] theorem free_setSeg {g : SegId} {f : Segment → Segment} : (setSeg g f s).free = s.free := rfl
@[simp] theorem sent_setSeg {g : SegId} {f : Segment → Segment} : (setSeg g f s).sent = s.sent := rfl
@[simp] theorem dict_setSeg {g : SegId} {f : Segment → Segment} : (setSeg g f s).dict = s.dict := rfl
@[simp] theorem conf_setSeg {g : SegId} {f : Segment → Segment} : (setSeg g f s).conf = s.conf := rfl
@[simp] theorem log_setSeg {g : SegId} {f : Segment → Segment} : (setSeg g f s).log = s.log := rfl
@[simp] theorem cal_setSeg {g : SegId} {f : Segment → Segment} : (setSeg g f s).cal = s.cal := rfl
@[simp] theorem life_setSeg {g : SegId} {f : Segment → Segment} : (setSeg g f s).life = s.life := rfl
@[simp] theorem lanes_setSeg {g : SegId} {f : Segment → Segment} : (setSeg g f s).lanes = s.lanes := rfl
@[simp] theorem pool_setSeg {g : SegId} {f : Segment → Segment} : (setSeg g f s).pool = s.pool := rfl
@[simp] theorem teams_setSeg {g : SegId} {f : Segment → Segment} : (setSeg g f s).teams = s.teams := rfl
@[simp] theorem alert_setSeg {g : SegId} {f : Segment → Segment} : (setSeg g f s).alert = s.alert := rfl
@[simp] theorem coreMv_setSeg {g : SegId} {f : Segment → Segment} : (setSeg g f s).coreMv = s.coreMv := rfl
@[simp] theorem coreGoal_setSeg {g : SegId} {f : Segment → Segment} : (setSeg g f s).coreGoal = s.coreGoal := rfl
@[simp] theorem host_setSeg {g : SegId} {f : Segment → Segment} : (setSeg g f s).host = s.host := rfl
@[simp] theorem mem_setSeg {g : SegId} {f : Segment → Segment} : (setSeg g f s).mem = s.mem := rfl
@[simp] theorem cache_setSeg {g : SegId} {f : Segment → Segment} : (setSeg g f s).cache = s.cache := rfl
@[simp] theorem pair_setSeg {g : SegId} {f : Segment → Segment} : (setSeg g f s).pair = s.pair := rfl
@[simp] theorem work_setSeg {g : SegId} {f : Segment → Segment} : (setSeg g f s).work = s.work := rfl
@[simp] theorem power_setSeg {g : SegId} {f : Segment → Segment} : (setSeg g f s).power = s.power := rfl
@[simp] theorem fw_setSeg {g : SegId} {f : Segment → Segment} : (setSeg g f s).fw = s.fw := rfl
@[simp] theorem island_setSeg {g : SegId} {f : Segment → Segment} : (setSeg g f s).island = s.island := rfl
@[simp] theorem sup_setSeg {g : SegId} {f : Segment → Segment} : (setSeg g f s).sup = s.sup := rfl
@[simp] theorem ports_setSeg {g : SegId} {f : Segment → Segment} : (setSeg g f s).ports = s.ports := rfl

@[simp] theorem pending_send {x : Sent} : (send x s).pending = s.pending := rfl
@[simp] theorem ticks_send {x : Sent} : (send x s).ticks = s.ticks := rfl
@[simp] theorem free_send {x : Sent} : (send x s).free = s.free := rfl
@[simp] theorem dict_send {x : Sent} : (send x s).dict = s.dict := rfl
@[simp] theorem conf_send {x : Sent} : (send x s).conf = s.conf := rfl
@[simp] theorem log_send {x : Sent} : (send x s).log = s.log := rfl
@[simp] theorem cal_send {x : Sent} : (send x s).cal = s.cal := rfl
@[simp] theorem life_send {x : Sent} : (send x s).life = s.life := rfl
@[simp] theorem lanes_send {x : Sent} : (send x s).lanes = s.lanes := rfl
@[simp] theorem pool_send {x : Sent} : (send x s).pool = s.pool := rfl
@[simp] theorem teams_send {x : Sent} : (send x s).teams = s.teams := rfl
@[simp] theorem segs_send {x : Sent} : (send x s).segs = s.segs := rfl
@[simp] theorem alert_send {x : Sent} : (send x s).alert = s.alert := rfl
@[simp] theorem coreMv_send {x : Sent} : (send x s).coreMv = s.coreMv := rfl
@[simp] theorem coreGoal_send {x : Sent} : (send x s).coreGoal = s.coreGoal := rfl
@[simp] theorem host_send {x : Sent} : (send x s).host = s.host := rfl
@[simp] theorem mem_send {x : Sent} : (send x s).mem = s.mem := rfl
@[simp] theorem cache_send {x : Sent} : (send x s).cache = s.cache := rfl
@[simp] theorem pair_send {x : Sent} : (send x s).pair = s.pair := rfl
@[simp] theorem work_send {x : Sent} : (send x s).work = s.work := rfl
@[simp] theorem power_send {x : Sent} : (send x s).power = s.power := rfl
@[simp] theorem fw_send {x : Sent} : (send x s).fw = s.fw := rfl
@[simp] theorem island_send {x : Sent} : (send x s).island = s.island := rfl
@[simp] theorem sup_send {x : Sent} : (send x s).sup = s.sup := rfl
@[simp] theorem ports_send {x : Sent} : (send x s).ports = s.ports := rfl

@[simp] theorem pending_store {i k : Nat} {v : Bytes} : (store i k v s).pending = s.pending := rfl
@[simp] theorem ticks_store {i k : Nat} {v : Bytes} : (store i k v s).ticks = s.ticks := rfl
@[simp] theorem free_store {i k : Nat} {v : Bytes} : (store i k v s).free = s.free := rfl
@[simp] theorem sent_store {i k : Nat} {v : Bytes} : (store i k v s).sent = s.sent := rfl
@[simp] theorem conf_store {i k : Nat} {v : Bytes} : (store i k v s).conf = s.conf := rfl
@[simp] theorem log_store {i k : Nat} {v : Bytes} : (store i k v s).log = s.log := rfl
@[simp] theorem cal_store {i k : Nat} {v : Bytes} : (store i k v s).cal = s.cal := rfl
@[simp] theorem life_store {i k : Nat} {v : Bytes} : (store i k v s).life = s.life := rfl
@[simp] theorem lanes_store {i k : Nat} {v : Bytes} : (store i k v s).lanes = s.lanes := rfl
@[simp] theorem pool_store {i k : Nat} {v : Bytes} : (store i k v s).pool = s.pool := rfl
@[simp] theorem teams_store {i k : Nat} {v : Bytes} : (store i k v s).teams = s.teams := rfl
@[simp] theorem segs_store {i k : Nat} {v : Bytes} : (store i k v s).segs = s.segs := rfl
@[simp] theorem alert_store {i k : Nat} {v : Bytes} : (store i k v s).alert = s.alert := rfl
@[simp] theorem coreMv_store {i k : Nat} {v : Bytes} : (store i k v s).coreMv = s.coreMv := rfl
@[simp] theorem coreGoal_store {i k : Nat} {v : Bytes} : (store i k v s).coreGoal = s.coreGoal := rfl
@[simp] theorem host_store {i k : Nat} {v : Bytes} : (store i k v s).host = s.host := rfl
@[simp] theorem mem_store {i k : Nat} {v : Bytes} : (store i k v s).mem = s.mem := rfl
@[simp] theorem cache_store {i k : Nat} {v : Bytes} : (store i k v s).cache = s.cache := rfl
@[simp] theorem pair_store {i k : Nat} {v : Bytes} : (store i k v s).pair = s.pair := rfl
@[simp] theorem work_store {i k : Nat} {v : Bytes} : (store i k v s).work = s.work := rfl
@[simp] theorem power_store {i k : Nat} {v : Bytes} : (store i k v s).power = s.power := rfl
@[simp] theorem fw_store {i k : Nat} {v : Bytes} : (store i k v s).fw = s.fw := rfl
@[simp] theorem island_store {i k : Nat} {v : Bytes} : (store i k v s).island = s.island := rfl
@[simp] theorem sup_store {i k : Nat} {v : Bytes} : (store i k v s).sup = s.sup := rfl
@[simp] theorem ports_store {i k : Nat} {v : Bytes} : (store i k v s).ports = s.ports := rfl

@[simp] theorem pending_unstore {i k : Nat} : (unstore i k s).pending = s.pending := rfl
@[simp] theorem ticks_unstore {i k : Nat} : (unstore i k s).ticks = s.ticks := rfl
@[simp] theorem free_unstore {i k : Nat} : (unstore i k s).free = s.free := rfl
@[simp] theorem sent_unstore {i k : Nat} : (unstore i k s).sent = s.sent := rfl
@[simp] theorem conf_unstore {i k : Nat} : (unstore i k s).conf = s.conf := rfl
@[simp] theorem log_unstore {i k : Nat} : (unstore i k s).log = s.log := rfl
@[simp] theorem cal_unstore {i k : Nat} : (unstore i k s).cal = s.cal := rfl
@[simp] theorem life_unstore {i k : Nat} : (unstore i k s).life = s.life := rfl
@[simp] theorem lanes_unstore {i k : Nat} : (unstore i k s).lanes = s.lanes := rfl
@[simp] theorem pool_unstore {i k : Nat} : (unstore i k s).pool = s.pool := rfl
@[simp] theorem teams_unstore {i k : Nat} : (unstore i k s).teams = s.teams := rfl
@[simp] theorem segs_unstore {i k : Nat} : (unstore i k s).segs = s.segs := rfl
@[simp] theorem alert_unstore {i k : Nat} : (unstore i k s).alert = s.alert := rfl
@[simp] theorem coreMv_unstore {i k : Nat} : (unstore i k s).coreMv = s.coreMv := rfl
@[simp] theorem coreGoal_unstore {i k : Nat} : (unstore i k s).coreGoal = s.coreGoal := rfl
@[simp] theorem host_unstore {i k : Nat} : (unstore i k s).host = s.host := rfl
@[simp] theorem mem_unstore {i k : Nat} : (unstore i k s).mem = s.mem := rfl
@[simp] theorem cache_unstore {i k : Nat} : (unstore i k s).cache = s.cache := rfl
@[simp] theorem pair_unstore {i k : Nat} : (unstore i k s).pair = s.pair := rfl
@[simp] theorem work_unstore {i k : Nat} : (unstore i k s).work = s.work := rfl
@[simp] theorem power_unstore {i k : Nat} : (unstore i k s).power = s.power := rfl
@[simp] theorem fw_unstore {i k : Nat} : (unstore i k s).fw = s.fw := rfl
@[simp] theorem island_unstore {i k : Nat} : (unstore i k s).island = s.island := rfl
@[simp] theorem sup_unstore {i k : Nat} : (unstore i k s).sup = s.sup := rfl
@[simp] theorem ports_unstore {i k : Nat} : (unstore i k s).ports = s.ports := rfl

@[simp] theorem pending_bump {i k j d : Nat} : (bump i k j d s).pending = s.pending := rfl
@[simp] theorem ticks_bump {i k j d : Nat} : (bump i k j d s).ticks = s.ticks := rfl
@[simp] theorem free_bump {i k j d : Nat} : (bump i k j d s).free = s.free := rfl
@[simp] theorem sent_bump {i k j d : Nat} : (bump i k j d s).sent = s.sent := rfl
@[simp] theorem conf_bump {i k j d : Nat} : (bump i k j d s).conf = s.conf := rfl
@[simp] theorem log_bump {i k j d : Nat} : (bump i k j d s).log = s.log := rfl
@[simp] theorem cal_bump {i k j d : Nat} : (bump i k j d s).cal = s.cal := rfl
@[simp] theorem life_bump {i k j d : Nat} : (bump i k j d s).life = s.life := rfl
@[simp] theorem lanes_bump {i k j d : Nat} : (bump i k j d s).lanes = s.lanes := rfl
@[simp] theorem pool_bump {i k j d : Nat} : (bump i k j d s).pool = s.pool := rfl
@[simp] theorem teams_bump {i k j d : Nat} : (bump i k j d s).teams = s.teams := rfl
@[simp] theorem segs_bump {i k j d : Nat} : (bump i k j d s).segs = s.segs := rfl
@[simp] theorem alert_bump {i k j d : Nat} : (bump i k j d s).alert = s.alert := rfl
@[simp] theorem coreMv_bump {i k j d : Nat} : (bump i k j d s).coreMv = s.coreMv := rfl
@[simp] theorem coreGoal_bump {i k j d : Nat} : (bump i k j d s).coreGoal = s.coreGoal := rfl
@[simp] theorem host_bump {i k j d : Nat} : (bump i k j d s).host = s.host := rfl
@[simp] theorem mem_bump {i k j d : Nat} : (bump i k j d s).mem = s.mem := rfl
@[simp] theorem cache_bump {i k j d : Nat} : (bump i k j d s).cache = s.cache := rfl
@[simp] theorem pair_bump {i k j d : Nat} : (bump i k j d s).pair = s.pair := rfl
@[simp] theorem work_bump {i k j d : Nat} : (bump i k j d s).work = s.work := rfl
@[simp] theorem power_bump {i k j d : Nat} : (bump i k j d s).power = s.power := rfl
@[simp] theorem fw_bump {i k j d : Nat} : (bump i k j d s).fw = s.fw := rfl
@[simp] theorem island_bump {i k j d : Nat} : (bump i k j d s).island = s.island := rfl
@[simp] theorem sup_bump {i k j d : Nat} : (bump i k j d s).sup = s.sup := rfl
@[simp] theorem ports_bump {i k j d : Nat} : (bump i k j d s).ports = s.ports := rfl

@[simp] theorem pending_lbump {n : LaneId} {o k j d : Nat} : (lbump n o k j d s).pending = s.pending := rfl
@[simp] theorem ticks_lbump {n : LaneId} {o k j d : Nat} : (lbump n o k j d s).ticks = s.ticks := rfl
@[simp] theorem free_lbump {n : LaneId} {o k j d : Nat} : (lbump n o k j d s).free = s.free := rfl
@[simp] theorem sent_lbump {n : LaneId} {o k j d : Nat} : (lbump n o k j d s).sent = s.sent := rfl
@[simp] theorem conf_lbump {n : LaneId} {o k j d : Nat} : (lbump n o k j d s).conf = s.conf := rfl
@[simp] theorem log_lbump {n : LaneId} {o k j d : Nat} : (lbump n o k j d s).log = s.log := rfl
@[simp] theorem cal_lbump {n : LaneId} {o k j d : Nat} : (lbump n o k j d s).cal = s.cal := rfl
@[simp] theorem life_lbump {n : LaneId} {o k j d : Nat} : (lbump n o k j d s).life = s.life := rfl
@[simp] theorem lanes_lbump {n : LaneId} {o k j d : Nat} : (lbump n o k j d s).lanes = s.lanes := rfl
@[simp] theorem pool_lbump {n : LaneId} {o k j d : Nat} : (lbump n o k j d s).pool = s.pool := rfl
@[simp] theorem teams_lbump {n : LaneId} {o k j d : Nat} : (lbump n o k j d s).teams = s.teams := rfl
@[simp] theorem segs_lbump {n : LaneId} {o k j d : Nat} : (lbump n o k j d s).segs = s.segs := rfl
@[simp] theorem alert_lbump {n : LaneId} {o k j d : Nat} : (lbump n o k j d s).alert = s.alert := rfl
@[simp] theorem coreMv_lbump {n : LaneId} {o k j d : Nat} : (lbump n o k j d s).coreMv = s.coreMv := rfl
@[simp] theorem coreGoal_lbump {n : LaneId} {o k j d : Nat} : (lbump n o k j d s).coreGoal = s.coreGoal := rfl
@[simp] theorem host_lbump {n : LaneId} {o k j d : Nat} : (lbump n o k j d s).host = s.host := rfl
@[simp] theorem mem_lbump {n : LaneId} {o k j d : Nat} : (lbump n o k j d s).mem = s.mem := rfl
@[simp] theorem cache_lbump {n : LaneId} {o k j d : Nat} : (lbump n o k j d s).cache = s.cache := rfl
@[simp] theorem pair_lbump {n : LaneId} {o k j d : Nat} : (lbump n o k j d s).pair = s.pair := rfl
@[simp] theorem work_lbump {n : LaneId} {o k j d : Nat} : (lbump n o k j d s).work = s.work := rfl
@[simp] theorem power_lbump {n : LaneId} {o k j d : Nat} : (lbump n o k j d s).power = s.power := rfl
@[simp] theorem fw_lbump {n : LaneId} {o k j d : Nat} : (lbump n o k j d s).fw = s.fw := rfl
@[simp] theorem island_lbump {n : LaneId} {o k j d : Nat} : (lbump n o k j d s).island = s.island := rfl
@[simp] theorem sup_lbump {n : LaneId} {o k j d : Nat} : (lbump n o k j d s).sup = s.sup := rfl
@[simp] theorem ports_lbump {n : LaneId} {o k j d : Nat} : (lbump n o k j d s).ports = s.ports := rfl

@[simp] theorem pending_lifeLane {n : LaneId} {i : Fin 4} {k : Nat} : (lifeLane n i k s).pending = s.pending := rfl
@[simp] theorem ticks_lifeLane {n : LaneId} {i : Fin 4} {k : Nat} : (lifeLane n i k s).ticks = s.ticks := rfl
@[simp] theorem free_lifeLane {n : LaneId} {i : Fin 4} {k : Nat} : (lifeLane n i k s).free = s.free := rfl
@[simp] theorem sent_lifeLane {n : LaneId} {i : Fin 4} {k : Nat} : (lifeLane n i k s).sent = s.sent := rfl
@[simp] theorem dict_lifeLane {n : LaneId} {i : Fin 4} {k : Nat} : (lifeLane n i k s).dict = s.dict := rfl
@[simp] theorem conf_lifeLane {n : LaneId} {i : Fin 4} {k : Nat} : (lifeLane n i k s).conf = s.conf := rfl
@[simp] theorem log_lifeLane {n : LaneId} {i : Fin 4} {k : Nat} : (lifeLane n i k s).log = s.log := rfl
@[simp] theorem cal_lifeLane {n : LaneId} {i : Fin 4} {k : Nat} : (lifeLane n i k s).cal = s.cal := rfl
@[simp] theorem lanes_lifeLane {n : LaneId} {i : Fin 4} {k : Nat} : (lifeLane n i k s).lanes = s.lanes := rfl
@[simp] theorem pool_lifeLane {n : LaneId} {i : Fin 4} {k : Nat} : (lifeLane n i k s).pool = s.pool := rfl
@[simp] theorem teams_lifeLane {n : LaneId} {i : Fin 4} {k : Nat} : (lifeLane n i k s).teams = s.teams := rfl
@[simp] theorem segs_lifeLane {n : LaneId} {i : Fin 4} {k : Nat} : (lifeLane n i k s).segs = s.segs := rfl
@[simp] theorem alert_lifeLane {n : LaneId} {i : Fin 4} {k : Nat} : (lifeLane n i k s).alert = s.alert := rfl
@[simp] theorem coreMv_lifeLane {n : LaneId} {i : Fin 4} {k : Nat} : (lifeLane n i k s).coreMv = s.coreMv := rfl
@[simp] theorem coreGoal_lifeLane {n : LaneId} {i : Fin 4} {k : Nat} : (lifeLane n i k s).coreGoal = s.coreGoal := rfl
@[simp] theorem host_lifeLane {n : LaneId} {i : Fin 4} {k : Nat} : (lifeLane n i k s).host = s.host := rfl
@[simp] theorem mem_lifeLane {n : LaneId} {i : Fin 4} {k : Nat} : (lifeLane n i k s).mem = s.mem := rfl
@[simp] theorem cache_lifeLane {n : LaneId} {i : Fin 4} {k : Nat} : (lifeLane n i k s).cache = s.cache := rfl
@[simp] theorem pair_lifeLane {n : LaneId} {i : Fin 4} {k : Nat} : (lifeLane n i k s).pair = s.pair := rfl
@[simp] theorem work_lifeLane {n : LaneId} {i : Fin 4} {k : Nat} : (lifeLane n i k s).work = s.work := rfl
@[simp] theorem power_lifeLane {n : LaneId} {i : Fin 4} {k : Nat} : (lifeLane n i k s).power = s.power := rfl
@[simp] theorem fw_lifeLane {n : LaneId} {i : Fin 4} {k : Nat} : (lifeLane n i k s).fw = s.fw := rfl
@[simp] theorem island_lifeLane {n : LaneId} {i : Fin 4} {k : Nat} : (lifeLane n i k s).island = s.island := rfl
@[simp] theorem sup_lifeLane {n : LaneId} {i : Fin 4} {k : Nat} : (lifeLane n i k s).sup = s.sup := rfl
@[simp] theorem ports_lifeLane {n : LaneId} {i : Fin 4} {k : Nat} : (lifeLane n i k s).ports = s.ports := rfl

@[simp] theorem pending_lifeUnit {i : Fin 8} {k : Nat} : (lifeUnit i k s).pending = s.pending := rfl
@[simp] theorem ticks_lifeUnit {i : Fin 8} {k : Nat} : (lifeUnit i k s).ticks = s.ticks := rfl
@[simp] theorem free_lifeUnit {i : Fin 8} {k : Nat} : (lifeUnit i k s).free = s.free := rfl
@[simp] theorem sent_lifeUnit {i : Fin 8} {k : Nat} : (lifeUnit i k s).sent = s.sent := rfl
@[simp] theorem dict_lifeUnit {i : Fin 8} {k : Nat} : (lifeUnit i k s).dict = s.dict := rfl
@[simp] theorem conf_lifeUnit {i : Fin 8} {k : Nat} : (lifeUnit i k s).conf = s.conf := rfl
@[simp] theorem log_lifeUnit {i : Fin 8} {k : Nat} : (lifeUnit i k s).log = s.log := rfl
@[simp] theorem cal_lifeUnit {i : Fin 8} {k : Nat} : (lifeUnit i k s).cal = s.cal := rfl
@[simp] theorem lanes_lifeUnit {i : Fin 8} {k : Nat} : (lifeUnit i k s).lanes = s.lanes := rfl
@[simp] theorem pool_lifeUnit {i : Fin 8} {k : Nat} : (lifeUnit i k s).pool = s.pool := rfl
@[simp] theorem teams_lifeUnit {i : Fin 8} {k : Nat} : (lifeUnit i k s).teams = s.teams := rfl
@[simp] theorem segs_lifeUnit {i : Fin 8} {k : Nat} : (lifeUnit i k s).segs = s.segs := rfl
@[simp] theorem alert_lifeUnit {i : Fin 8} {k : Nat} : (lifeUnit i k s).alert = s.alert := rfl
@[simp] theorem coreMv_lifeUnit {i : Fin 8} {k : Nat} : (lifeUnit i k s).coreMv = s.coreMv := rfl
@[simp] theorem coreGoal_lifeUnit {i : Fin 8} {k : Nat} : (lifeUnit i k s).coreGoal = s.coreGoal := rfl
@[simp] theorem host_lifeUnit {i : Fin 8} {k : Nat} : (lifeUnit i k s).host = s.host := rfl
@[simp] theorem mem_lifeUnit {i : Fin 8} {k : Nat} : (lifeUnit i k s).mem = s.mem := rfl
@[simp] theorem cache_lifeUnit {i : Fin 8} {k : Nat} : (lifeUnit i k s).cache = s.cache := rfl
@[simp] theorem pair_lifeUnit {i : Fin 8} {k : Nat} : (lifeUnit i k s).pair = s.pair := rfl
@[simp] theorem work_lifeUnit {i : Fin 8} {k : Nat} : (lifeUnit i k s).work = s.work := rfl
@[simp] theorem power_lifeUnit {i : Fin 8} {k : Nat} : (lifeUnit i k s).power = s.power := rfl
@[simp] theorem fw_lifeUnit {i : Fin 8} {k : Nat} : (lifeUnit i k s).fw = s.fw := rfl
@[simp] theorem island_lifeUnit {i : Fin 8} {k : Nat} : (lifeUnit i k s).island = s.island := rfl
@[simp] theorem sup_lifeUnit {i : Fin 8} {k : Nat} : (lifeUnit i k s).sup = s.sup := rfl
@[simp] theorem ports_lifeUnit {i : Fin 8} {k : Nat} : (lifeUnit i k s).ports = s.ports := rfl

@[simp] theorem pending_draw {m : Nat} : ((draw m s).2).pending = s.pending := rfl
@[simp] theorem ticks_draw {m : Nat} : ((draw m s).2).ticks = s.ticks := rfl
@[simp] theorem sent_draw {m : Nat} : ((draw m s).2).sent = s.sent := rfl
@[simp] theorem dict_draw {m : Nat} : ((draw m s).2).dict = s.dict := rfl
@[simp] theorem conf_draw {m : Nat} : ((draw m s).2).conf = s.conf := rfl
@[simp] theorem log_draw {m : Nat} : ((draw m s).2).log = s.log := rfl
@[simp] theorem cal_draw {m : Nat} : ((draw m s).2).cal = s.cal := rfl
@[simp] theorem life_draw {m : Nat} : ((draw m s).2).life = s.life := rfl
@[simp] theorem lanes_draw {m : Nat} : ((draw m s).2).lanes = s.lanes := rfl
@[simp] theorem pool_draw {m : Nat} : ((draw m s).2).pool = s.pool := rfl
@[simp] theorem teams_draw {m : Nat} : ((draw m s).2).teams = s.teams := rfl
@[simp] theorem segs_draw {m : Nat} : ((draw m s).2).segs = s.segs := rfl
@[simp] theorem alert_draw {m : Nat} : ((draw m s).2).alert = s.alert := rfl
@[simp] theorem coreMv_draw {m : Nat} : ((draw m s).2).coreMv = s.coreMv := rfl
@[simp] theorem coreGoal_draw {m : Nat} : ((draw m s).2).coreGoal = s.coreGoal := rfl
@[simp] theorem host_draw {m : Nat} : ((draw m s).2).host = s.host := rfl
@[simp] theorem mem_draw {m : Nat} : ((draw m s).2).mem = s.mem := rfl
@[simp] theorem cache_draw {m : Nat} : ((draw m s).2).cache = s.cache := rfl
@[simp] theorem pair_draw {m : Nat} : ((draw m s).2).pair = s.pair := rfl
@[simp] theorem work_draw {m : Nat} : ((draw m s).2).work = s.work := rfl
@[simp] theorem power_draw {m : Nat} : ((draw m s).2).power = s.power := rfl
@[simp] theorem fw_draw {m : Nat} : ((draw m s).2).fw = s.fw := rfl
@[simp] theorem island_draw {m : Nat} : ((draw m s).2).island = s.island := rfl
@[simp] theorem sup_draw {m : Nat} : ((draw m s).2).sup = s.sup := rfl
@[simp] theorem ports_draw {m : Nat} : ((draw m s).2).ports = s.ports := rfl

@[simp] theorem pending_drawBytes {m : Nat} : ((drawBytes m s).2).pending = s.pending := rfl
@[simp] theorem ticks_drawBytes {m : Nat} : ((drawBytes m s).2).ticks = s.ticks := rfl
@[simp] theorem sent_drawBytes {m : Nat} : ((drawBytes m s).2).sent = s.sent := rfl
@[simp] theorem dict_drawBytes {m : Nat} : ((drawBytes m s).2).dict = s.dict := rfl
@[simp] theorem conf_drawBytes {m : Nat} : ((drawBytes m s).2).conf = s.conf := rfl
@[simp] theorem log_drawBytes {m : Nat} : ((drawBytes m s).2).log = s.log := rfl
@[simp] theorem cal_drawBytes {m : Nat} : ((drawBytes m s).2).cal = s.cal := rfl
@[simp] theorem life_drawBytes {m : Nat} : ((drawBytes m s).2).life = s.life := rfl
@[simp] theorem lanes_drawBytes {m : Nat} : ((drawBytes m s).2).lanes = s.lanes := rfl
@[simp] theorem pool_drawBytes {m : Nat} : ((drawBytes m s).2).pool = s.pool := rfl
@[simp] theorem teams_drawBytes {m : Nat} : ((drawBytes m s).2).teams = s.teams := rfl
@[simp] theorem segs_drawBytes {m : Nat} : ((drawBytes m s).2).segs = s.segs := rfl
@[simp] theorem alert_drawBytes {m : Nat} : ((drawBytes m s).2).alert = s.alert := rfl
@[simp] theorem coreMv_drawBytes {m : Nat} : ((drawBytes m s).2).coreMv = s.coreMv := rfl
@[simp] theorem coreGoal_drawBytes {m : Nat} : ((drawBytes m s).2).coreGoal = s.coreGoal := rfl
@[simp] theorem host_drawBytes {m : Nat} : ((drawBytes m s).2).host = s.host := rfl
@[simp] theorem mem_drawBytes {m : Nat} : ((drawBytes m s).2).mem = s.mem := rfl
@[simp] theorem cache_drawBytes {m : Nat} : ((drawBytes m s).2).cache = s.cache := rfl
@[simp] theorem pair_drawBytes {m : Nat} : ((drawBytes m s).2).pair = s.pair := rfl
@[simp] theorem work_drawBytes {m : Nat} : ((drawBytes m s).2).work = s.work := rfl
@[simp] theorem power_drawBytes {m : Nat} : ((drawBytes m s).2).power = s.power := rfl
@[simp] theorem fw_drawBytes {m : Nat} : ((drawBytes m s).2).fw = s.fw := rfl
@[simp] theorem island_drawBytes {m : Nat} : ((drawBytes m s).2).island = s.island := rfl
@[simp] theorem sup_drawBytes {m : Nat} : ((drawBytes m s).2).sup = s.sup := rfl
@[simp] theorem ports_drawBytes {m : Nat} : ((drawBytes m s).2).ports = s.ports := rfl

@[simp] theorem pending_postCompletion {n : LaneId} {c : Completion} : (postCompletion n c s).pending = s.pending := rfl
@[simp] theorem ticks_postCompletion {n : LaneId} {c : Completion} : (postCompletion n c s).ticks = s.ticks := rfl
@[simp] theorem free_postCompletion {n : LaneId} {c : Completion} : (postCompletion n c s).free = s.free := rfl
@[simp] theorem sent_postCompletion {n : LaneId} {c : Completion} : (postCompletion n c s).sent = s.sent := rfl
@[simp] theorem dict_postCompletion {n : LaneId} {c : Completion} : (postCompletion n c s).dict = s.dict := rfl
@[simp] theorem conf_postCompletion {n : LaneId} {c : Completion} : (postCompletion n c s).conf = s.conf := rfl
@[simp] theorem log_postCompletion {n : LaneId} {c : Completion} : (postCompletion n c s).log = s.log := rfl
@[simp] theorem cal_postCompletion {n : LaneId} {c : Completion} : (postCompletion n c s).cal = s.cal := rfl
@[simp] theorem life_postCompletion {n : LaneId} {c : Completion} : (postCompletion n c s).life = s.life := rfl
@[simp] theorem pool_postCompletion {n : LaneId} {c : Completion} : (postCompletion n c s).pool = s.pool := rfl
@[simp] theorem teams_postCompletion {n : LaneId} {c : Completion} : (postCompletion n c s).teams = s.teams := rfl
@[simp] theorem segs_postCompletion {n : LaneId} {c : Completion} : (postCompletion n c s).segs = s.segs := rfl
@[simp] theorem alert_postCompletion {n : LaneId} {c : Completion} : (postCompletion n c s).alert = s.alert := rfl
@[simp] theorem coreMv_postCompletion {n : LaneId} {c : Completion} : (postCompletion n c s).coreMv = s.coreMv := rfl
@[simp] theorem coreGoal_postCompletion {n : LaneId} {c : Completion} : (postCompletion n c s).coreGoal = s.coreGoal := rfl
@[simp] theorem host_postCompletion {n : LaneId} {c : Completion} : (postCompletion n c s).host = s.host := rfl
@[simp] theorem mem_postCompletion {n : LaneId} {c : Completion} : (postCompletion n c s).mem = s.mem := rfl
@[simp] theorem cache_postCompletion {n : LaneId} {c : Completion} : (postCompletion n c s).cache = s.cache := rfl
@[simp] theorem pair_postCompletion {n : LaneId} {c : Completion} : (postCompletion n c s).pair = s.pair := rfl
@[simp] theorem work_postCompletion {n : LaneId} {c : Completion} : (postCompletion n c s).work = s.work := rfl
@[simp] theorem power_postCompletion {n : LaneId} {c : Completion} : (postCompletion n c s).power = s.power := rfl
@[simp] theorem fw_postCompletion {n : LaneId} {c : Completion} : (postCompletion n c s).fw = s.fw := rfl
@[simp] theorem island_postCompletion {n : LaneId} {c : Completion} : (postCompletion n c s).island = s.island := rfl
@[simp] theorem sup_postCompletion {n : LaneId} {c : Completion} : (postCompletion n c s).sup = s.sup := rfl
@[simp] theorem ports_postCompletion {n : LaneId} {c : Completion} : (postCompletion n c s).ports = s.ports := rfl

@[simp] theorem pending_enter {n : LaneId} {x : LaneState} : (enter n x s).pending = s.pending := rfl
@[simp] theorem ticks_enter {n : LaneId} {x : LaneState} : (enter n x s).ticks = s.ticks := rfl
@[simp] theorem free_enter {n : LaneId} {x : LaneState} : (enter n x s).free = s.free := rfl
@[simp] theorem sent_enter {n : LaneId} {x : LaneState} : (enter n x s).sent = s.sent := rfl
@[simp] theorem dict_enter {n : LaneId} {x : LaneState} : (enter n x s).dict = s.dict := rfl
@[simp] theorem conf_enter {n : LaneId} {x : LaneState} : (enter n x s).conf = s.conf := rfl
@[simp] theorem log_enter {n : LaneId} {x : LaneState} : (enter n x s).log = s.log := rfl
@[simp] theorem cal_enter {n : LaneId} {x : LaneState} : (enter n x s).cal = s.cal := rfl
@[simp] theorem life_enter {n : LaneId} {x : LaneState} : (enter n x s).life = s.life := rfl
@[simp] theorem pool_enter {n : LaneId} {x : LaneState} : (enter n x s).pool = s.pool := rfl
@[simp] theorem teams_enter {n : LaneId} {x : LaneState} : (enter n x s).teams = s.teams := rfl
@[simp] theorem segs_enter {n : LaneId} {x : LaneState} : (enter n x s).segs = s.segs := rfl
@[simp] theorem alert_enter {n : LaneId} {x : LaneState} : (enter n x s).alert = s.alert := rfl
@[simp] theorem coreMv_enter {n : LaneId} {x : LaneState} : (enter n x s).coreMv = s.coreMv := rfl
@[simp] theorem coreGoal_enter {n : LaneId} {x : LaneState} : (enter n x s).coreGoal = s.coreGoal := rfl
@[simp] theorem host_enter {n : LaneId} {x : LaneState} : (enter n x s).host = s.host := rfl
@[simp] theorem mem_enter {n : LaneId} {x : LaneState} : (enter n x s).mem = s.mem := rfl
@[simp] theorem cache_enter {n : LaneId} {x : LaneState} : (enter n x s).cache = s.cache := rfl
@[simp] theorem pair_enter {n : LaneId} {x : LaneState} : (enter n x s).pair = s.pair := rfl
@[simp] theorem work_enter {n : LaneId} {x : LaneState} : (enter n x s).work = s.work := rfl
@[simp] theorem power_enter {n : LaneId} {x : LaneState} : (enter n x s).power = s.power := rfl
@[simp] theorem fw_enter {n : LaneId} {x : LaneState} : (enter n x s).fw = s.fw := rfl
@[simp] theorem island_enter {n : LaneId} {x : LaneState} : (enter n x s).island = s.island := rfl
@[simp] theorem sup_enter {n : LaneId} {x : LaneState} : (enter n x s).sup = s.sup := rfl
@[simp] theorem ports_enter {n : LaneId} {x : LaneState} : (enter n x s).ports = s.ports := rfl

@[simp] theorem pending_raise {c : Nat} {l : List EvField} : (raise c l s).pending = s.pending :=
  (keeps_raise (List.Subset.refl _) (.refl _ s)).queue
@[simp] theorem ticks_raise {c : Nat} {l : List EvField} : (raise c l s).ticks = s.ticks :=
  (keeps_raise (List.Subset.refl _) (.refl _ s)).ticks
@[simp] theorem free_raise {c : Nat} {l : List EvField} : (raise c l s).free = s.free :=
  (keeps_raise (List.Subset.refl _) (.refl _ s)).frame .free (by decide)
@[simp] theorem conf_raise {c : Nat} {l : List EvField} : (raise c l s).conf = s.conf :=
  (keeps_raise (List.Subset.refl _) (.refl _ s)).frame .conf (by decide)
@[simp] theorem cal_raise {c : Nat} {l : List EvField} : (raise c l s).cal = s.cal :=
  (keeps_raise (List.Subset.refl _) (.refl _ s)).frame .cal (by decide)
@[simp] theorem lanes_raise {c : Nat} {l : List EvField} : (raise c l s).lanes = s.lanes :=
  (keeps_raise (List.Subset.refl _) (.refl _ s)).frame .lanes (by decide)
@[simp] theorem pool_raise {c : Nat} {l : List EvField} : (raise c l s).pool = s.pool :=
  (keeps_raise (List.Subset.refl _) (.refl _ s)).frame .pool (by decide)
@[simp] theorem teams_raise {c : Nat} {l : List EvField} : (raise c l s).teams = s.teams :=
  (keeps_raise (List.Subset.refl _) (.refl _ s)).frame .teams (by decide)
@[simp] theorem segs_raise {c : Nat} {l : List EvField} : (raise c l s).segs = s.segs :=
  (keeps_raise (List.Subset.refl _) (.refl _ s)).frame .segs (by decide)
@[simp] theorem coreMv_raise {c : Nat} {l : List EvField} : (raise c l s).coreMv = s.coreMv :=
  ((keeps_raise (List.Subset.refl _) (.refl _ s)).frame .core (by decide)).1
@[simp] theorem coreGoal_raise {c : Nat} {l : List EvField} : (raise c l s).coreGoal = s.coreGoal :=
  ((keeps_raise (List.Subset.refl _) (.refl _ s)).frame .core (by decide)).2
@[simp] theorem host_raise {c : Nat} {l : List EvField} : (raise c l s).host = s.host :=
  (keeps_raise (List.Subset.refl _) (.refl _ s)).frame .host (by decide)
@[simp] theorem mem_raise {c : Nat} {l : List EvField} : (raise c l s).mem = s.mem :=
  (keeps_raise (List.Subset.refl _) (.refl _ s)).frame .mem (by decide)
@[simp] theorem cache_raise {c : Nat} {l : List EvField} : (raise c l s).cache = s.cache :=
  (keeps_raise (List.Subset.refl _) (.refl _ s)).frame .cache (by decide)
@[simp] theorem pair_raise {c : Nat} {l : List EvField} : (raise c l s).pair = s.pair :=
  (keeps_raise (List.Subset.refl _) (.refl _ s)).frame .pair (by decide)
@[simp] theorem work_raise {c : Nat} {l : List EvField} : (raise c l s).work = s.work :=
  (keeps_raise (List.Subset.refl _) (.refl _ s)).frame .work (by decide)
@[simp] theorem power_raise {c : Nat} {l : List EvField} : (raise c l s).power = s.power :=
  (keeps_raise (List.Subset.refl _) (.refl _ s)).frame .power (by decide)
@[simp] theorem fw_raise {c : Nat} {l : List EvField} : (raise c l s).fw = s.fw :=
  (keeps_raise (List.Subset.refl _) (.refl _ s)).frame .fw (by decide)
@[simp] theorem island_raise {c : Nat} {l : List EvField} : (raise c l s).island = s.island :=
  (keeps_raise (List.Subset.refl _) (.refl _ s)).frame .island (by decide)
@[simp] theorem sup_raise {c : Nat} {l : List EvField} : (raise c l s).sup = s.sup :=
  (keeps_raise (List.Subset.refl _) (.refl _ s)).frame .sup (by decide)
@[simp] theorem ports_raise {c : Nat} {l : List EvField} : (raise c l s).ports = s.ports :=
  (keeps_raise (List.Subset.refl _) (.refl _ s)).frame .ports (by decide)

@[simp] theorem reg_raise {c : Nat} {l : List EvField} : (raise c l s).dict.reg = s.dict.reg :=
  (keeps_raise (List.Subset.refl _) (.refl _ s)).frame .reg (by decide)
@[simp] theorem keys_raise {c : Nat} {l : List EvField} : (raise c l s).dict.keys = s.dict.keys :=
  (keeps_raise (List.Subset.refl _) (.refl _ s)).frame .keys (by decide)

/-- The log after an entry has been appended. -/
theorem entries_logAppend {c src fl t : Nat} {d : Bytes} :
    (logAppend c src fl t d s).log.entries = ⟨s.log.nextSeq, c, src, fl, t, d⟩ :: s.log.entries.take 65535 := by
  unfold logAppend
  extract_lets e s1 w s2
  have h1 : s1.log = logPut e s.log := rfl
  have h2 : s2.log = s1.log := by
    by_cases h : s1.life.lastSeq + 2 ^ 19 ≤ s1.log.nextSeq ∧ s1.life.due = none
    · simp only [s2, if_pos h]
    · simp only [s2, if_neg h]
  clear_value s2
  have q := (Keeps.foldl (fun a i => sendEvent e i a) (List.ofFn (fun i : Fin 8 => i)) s2
    (fun _ _ h => keeps_sendEvent (List.Subset.refl [Part.sent, .dict]) h) (.refl _ s2)).frame .log (by decide)
  simp only [Part.same] at q
  rw [q, h2, h1]
  rfl
/-- An event raised is the newest entry of the log. -/
@[simp] theorem lastEvent_raise {c : Nat} {l : List EvField} : lastEvent (raise c l s) = some (c, evData l) := by
  unfold raise lastEvent
  rw [entries_logAppend]
  rfl

/-! ### Lanes, teams and segments read after an update -/

@[simp] theorem laneAt_setLane {n : LaneId} {f : Lane → Lane} : laneAt (setLane n f s) n = f (laneAt s n) := by
  simp [laneAt, setLane, vecModify]

theorem laneAt_setLane_other {n m : LaneId} {f : Lane → Lane} (h : m ≠ n) : laneAt (setLane n f s) m = laneAt s m := by
  have : n.val ≠ m.val := fun e => h (Fin.ext e.symm)
  simp [laneAt, setLane, vecModify, this]

@[simp] theorem teamAt_setTeam {t : TeamId} {f : Team → Team} : teamAt (setTeam t f s) t = f (teamAt s t) := by
  simp [teamAt, setTeam, vecModify]

@[simp] theorem seg_setSeg {g : SegId} {f : Segment → Segment} : (setSeg g f s).segs[g] = f s.segs[g] := by
  simp [setSeg, vecModify]

/-- A lane read after an operation that leaves the lanes alone. -/
theorem laneAt_of {p : List Part} {t : State} (h : Keeps p s t) (hp : p.contains .lanes = false) (n : LaneId) : laneAt t n = laneAt s n := by
  have := h.frame .lanes (fun c => by simp [c] at hp)
  unfold laneAt; rw [this]

@[simp] theorem laneAt_raise {n : LaneId} {c : Nat} {l : List EvField} : laneAt (raise c l s) n = laneAt s n := by unfold laneAt; simp
@[simp] theorem laneAt_bump {n : LaneId} {i k j d : Nat} : laneAt (bump i k j d s) n = laneAt s n := rfl
@[simp] theorem laneAt_lbump {n m : LaneId} {i k j d : Nat} : laneAt (lbump m i k j d s) n = laneAt s n := rfl
@[simp] theorem laneAt_store {n : LaneId} {i k : Nat} {v : Bytes} : laneAt (store i k v s) n = laneAt s n := rfl
@[simp] theorem laneAt_send {n : LaneId} {x : Sent} : laneAt (send x s) n = laneAt s n := rfl
@[simp] theorem laneAt_lifeLane {n m : LaneId} {i : Fin 4} {k : Nat} : laneAt (lifeLane m i k s) n = laneAt s n := rfl
@[simp] theorem laneAt_lifeUnit {n : LaneId} {i : Fin 8} {k : Nat} : laneAt (lifeUnit i k s) n = laneAt s n := rfl
@[simp] theorem laneAt_setTeam {n : LaneId} {t : TeamId} {f : Team → Team} : laneAt (setTeam t f s) n = laneAt s n := rfl

/-! ### Stored entries read after an update -/

@[simp] theorem stored_raise {i k c : Nat} {l : List EvField} : stored (raise c l s) i k = stored s i k := by
  unfold stored pickupClass; simp
@[simp] theorem cfg_raise {i k c : Nat} {l : List EvField} : cfg (raise c l s) i k = cfg s i k := by unfold cfg; simp

end Sys2Proof.Machine
end

