-- ==== Sys2Proof/Tests/Slice0.lean ====
section
/-! SUPPORT. Tests: states that meet the hypotheses of every statement, ill-formed commands that WellFormed refuses, and small tests on
values taken from the spec. -/

set_option maxRecDepth 20000
set_option linter.unusedVariables false
set_option Elab.async false

open Sys2Proof Sys2Proof.Machine

namespace Sys2Proof.Tests

/-! ### States -/

/-- PAIRSEL held. -/
def held (s : State) : State := { s with pair := { s.pair with hold := true } }
/-- The state after reset with a lane changed. -/
def laneWith (n : LaneId) (f : Lane → Lane) : State := setLane n f State.reset
/-- With its spindle changed. -/
def spinWith (n : LaneId) (f : Spindle → Spindle) : State := laneWith n (fun l => { l with spin := f l.spin })

/-- A bank of zeros with its check word. -/
def goodBank : Bytes := List.replicate 2044 0 ++ toLE 4 (crc32 (List.replicate 2044 0))

/-- The state after reset, booted from its first slot. -/
def up : State := { State.reset with fw := { State.reset.fw with booted := true, running := some 0 } }
/-- A session of the service role in the first slot. -/
def aSession : Session :=
  { number := 1, role := 3, port := 0, own := [], addr := [], uport := 9, slot := 0, key := [1], highest := 1, last := 0, stored := [], txSeq := 0 }
/-- Booted, with that session open, one held segment and one event not acknowledged. -/
def inSessionState : State :=
  { up with ticks := 10, dict := { up.dict with
      sessions := up.dict.sessions.set 0 (some aSession)
      held := [{ owner := .session 1, index := 5, sub := 1, total := 9, data := [] }]
      eventWaits := [{ slot := 0, seq := 4, body := [], sends := 1, tick := 0 }] } }
/-- An exchange that waits for its proof. -/
def anExchange : Hello := { number := 1, ns := List.replicate 32 0, nd := List.replicate 32 0, slot := 0, tick := 0 }
/-- Booted, with a key in the first slot and the exchange begun. -/
def keyed : State :=
  store 0x1111 1 [3] { up with dict := { up.dict with keys := up.dict.keys.set 0 (some (List.replicate 32 7)), hellos := [anExchange] } }

/-- Booted, with both controllers ready. -/
def hostReady : State :=
  { up with host := { up.host with ctrls := Vector.replicate 2 { Controller.reset with enabled := true, ready := true, asq := SubQueue.admin 16, acq := CompQueue.admin 16 } } }
/-- Booted, with both controllers ready, and an admin command that waits on the second. -/
def hostUp : State := setCtrl 1 (fun k => { k with asq := { k.asq with tail := 1 } }) hostReady

/-- A pickup image of class 1 with its check word. -/
def goodImage : Bytes :=
  let b := toLE 4 0x4B595055 ++ toLE 2 1 ++ toLE 2 1 ++ List.replicate 244 0
  b ++ toLE 4 (crc32 b)

/-- A lead-in block that holds a media record and nothing else. -/
def aBlock : Bytes :=
  toLE 4 0x314E4C54 ++ toLE 2 1 ++ toLE 4 0 ++ toLE 2 1 ++ List.replicate 20 0 ++
    leadRecord 1 (structure' 128 [(1, [1]), (2, [1, 0]), (36, [8, 75]), (38, toLE 2 500), (40, toLE 4 22000000), (44, toLE 2 960),
      (46, toLE 2 40304), (48, [176]), (68, toLE 2 9984)])

/-- A lane parked with a disc clamped, ready to read its lead-in. -/
def parkedDisc : State :=
  laneWith 6 (fun l => { l with life := { l.life with
    st := .parked, discKnown := true, disc := { raw := true, since := 0, stable := true }, clamp := { raw := true, since := 0, stable := true } } })

/-- Team 0 attached on lane 0, with one sealed extent due there and the lane ready in place. -/
def writing0 : State :=
  setTeam 0 (fun x => { x with
      st := .attached, map := [0]
      ns := { x.ns with listed := true, count := 1, extents := [(0, { Extent.fresh with isSealed := true })] } })
    (laneWith 0 (fun l => { l with
      disc := some { Disc.fresh with media := List.replicate 68 0 ++ [0, 39] }
      life := { l.life with st := .ready, layer := some 0, band := some (dataPlace 0).1 }
      wr := { l.wr with clockLocked := true }, spin := { l.spin with atSpeed := true } }))
/-- An extent of a pass. -/
def aTrack : PassTrack := { team := 2, x := 0, e := 0, msgs := [], ready := some ([], false), copied := [], judged := 0, failed := [] }
/-- A pass of which nothing has been played out. -/
def aPass : Pass :=
  { layer := 2, slot := 5, tracks := #v[none, some aTrack, none, none], sector := 0, begun := false, cut := false, syncSum := 0, syncCount := 0 }
/-- A pass of the same extent on the first track. -/
def latePass : Pass := { aPass with tracks := #v[some { aTrack with ready := none }, none, none, none] }
/-- A verify read without errors. -/
def goodVerify : VerifyRead := { decisions := true, syncOffset := 0, resyncFound := 19, diffs := [], dropoutBits := 0 }
/-- A copy that waits for its relocation. -/
def aCopy : Copy :=
  { track := 1, psa := 77, dra := 3, layer := 2, sector := 3, kind := 0, extent := 9, user := [], addr := none, refresh := true, tick := 0 }
/-- A lane in place with that copy queued. -/
def copying : State :=
  { laneWith 6 (fun l => { l with
      disc := some { Disc.fresh with openEpoch := 1 }
      life := { l.life with st := .ready, layer := some 2, band := some 100 }
      wr := { l.wr with clockLocked := true, queue := [aCopy] } }) with ticks := 2 ^ 40 }

/-- A lane that reads its lead-in. -/
def reading6 : State :=
  laneWith 6 (fun l => { l with
    life := { l.life with st := .reading, layer := some 0 }, loop := { l.loop with closed := #v[true, true, true] }
    rd := { l.rd with mode := 1, jobs := leadJobs 0 } })
/-- It, with its second channel given. -/
def chan6 (x : Channel) : State := setLane 6 (fun l => { l with rd := { l.rd with channels := l.rd.channels.set 1 x } }) reading6
/-- A read of LBA 0 of namespace 1. -/
def readFlight : Flight :=
  { newFlight { ctrl := 0, sq := 1, cid := 1 } 1 .read with nsid := 1, slba := 0, count := 1, left := [0] }
/-- The lane of `writing0` with that read in flight and the extent recorded. -/
def reading0 : State := held <|
  setTeam 0 (fun x => { x with ns := { x.ns with built := true, extents := [], zones := [(0, { Zone.blank with wp := 64, st := .closed })] } })
    (setLane 0 (fun l => { l with
        life := { l.life with leadIn := .identified }
        disc := l.disc.map (fun d => { d with extents := d.extents.set 0 1, nextSlot := d.nextSlot.set 0 1 }) })
      { writing0 with host := { writing0.host with flights := [readFlight] } })
/-- A read of an extent in which every sector is judged, with the message given. -/
def fullJob (good : Option Bytes) : ReadJob :=
  { newJob 0 0 none false 0 with
    next := 72, sectors := (upTo 72).map (fun i => (i, { emptyRecord i false false with judged := true, good := good })) }
/-- It, with its fourth sector flagged. -/
def oneBad : ReadJob :=
  let j := fullJob (some [])
  { j with sectors := j.sectors.map (fun p => if p.1 = 3 then (p.1, { p.2 with good := none }) else p) }
/-- A lane with a disc that reads it. -/
def jobOn6 (j : ReadJob) : State :=
  laneWith 6 (fun l => { l with
    disc := some Disc.fresh, life := { l.life with st := .reading }, rd := { l.rd with jobs := l.rd.jobs.set 1 (some j) } })

/-- An observer bank of one state, three measurements and three inputs, with its check word. -/
def goodObserver : Bytes :=
  let b := natBytes [1, 3, 3, 1] ++ List.replicate 2040 0
  b ++ toLE 4 (crc32 b)
/-- Booted, with a class 1 pickup and good shadow banks on lane 6. -/
def banked : State :=
  { up with lanes := (laneWith 6 (fun l => { l with
      life := { l.life with pickup := some { serial := [], cls := 1, image := [] } }
      loop := { l.loop with banks := { l.loop.banks with obsShadow := goodBank, bqShadow := goodBank } } })).lanes }
/-- A stride of 1 micrometre. -/
def aStride : Stride := { target := 100, speed := 10, accel := 10, jerk := 10, flags := 0, status := 0, tag := 7 }
/-- Booted, with lane 6 parked. -/
def parked6 : State := { up with lanes := (laneWith 6 (fun l => { l with life := { l.life with st := .parked } })).lanes }
/-- A sled that runs that stride. -/
def running6 : State :=
  { up with lanes := (laneWith 6 (fun l => { l with life := { l.life with st := .parked }, sled := { l.sled with
      queue := [aStride], running := true, profile := some { x0 := 0, v0 := 0, a0 := 0, segs := [(0, 200000)], t := 0, target := 6553600, vEnd := 0 } } })).lanes }

/-- Booted, with lane 6 ready and its warm-up record changed. -/
def warm6 (f : WarmUp → WarmUp) : State :=
  { up with ticks := 2 ^ 45, lanes := (laneWith 6 (fun l => { l with life := { l.life with st := .ready, layer := some 0 }, warm := f l.warm })).lanes }
/-- A lane on which the write-power part of a warm-up holds its test pass. -/
def opc6 : State :=
  let s := warm6 (fun w => { w with running := true, part := 6, testPass := some (0, 0) })
  setLane 6 (fun l => { l with
    life := { l.life with st := .holding, band := some 5 }
    disc := some { Disc.fresh with openEpoch := 1, media := List.replicate 68 0 ++ [0, 39] }
    wr := { l.wr with clockLocked := true, wobbleKind := 3 }, spin := { l.spin with atSpeed := true } }) s

/-- An admin command of controller 1. -/
def anAdmin : CmdId := { ctrl := 1, sq := 0, cid := 7 }
/-- An I/O completion queue. -/
def aCq : CompQueue := { id := 3, size := 16, base := 0, vector := 3, ien := true, head := 0, tail := 0, phase := true, waiting := 0, held := [] }
/-- An I/O submission queue. -/
def aSq : SubQueue := { id := 5, size := 16, base := 0, cls := 0, cq := 3, head := 0, tail := 1 }
/-- Ready controllers with a completion queue. -/
def withCq : State := setCtrl 1 (fun k => { k with cqs := [aCq] }) hostUp
/-- And a submission queue. -/
def withQueues : State := setCtrl 1 (fun k => { k with sqs := [aSq] }) withCq

/-- Ready controllers; the running slot and the other, verified one hold blank images. -/
def fwUp : State :=
  { hostUp with ticks := 2 ^ 40, fw := { hostUp.fw with slots := #v[
      { st := 5, version := 1, security := 0, length := 4096, image := zeroBytes 4096 },
      { st := 2, version := 2, security := 0, length := 4096, image := zeroBytes 4096 }] } }
/-- The second slot takes a download whose image spans three chunks. -/
def loading : State :=
  { fwUp with fw := { fwUp.fw with
      load := { state := 1, nvme := true, slot := 1, header := patch (zeroBytes 4096) 32 (toLE 4 40000), chunks := [0], status := 0, due := false } } }
/-- The download's chunks are all there. -/
def loaded : State := { loading with fw := { loading.fw with load := { loading.fw.load with chunks := [0, 1, 2], due := true } } }
/-- An activation at a step. -/
def activating (k : Nat) : State := { fwUp with fw := { fwUp.fw with act := { Activation.idle with state := 1, step := k } } }
/-- A rolling activation at a stage. -/
def rolling (k : Nat) : State := { fwUp with fw := { fwUp.fw with act := { Activation.idle with state := 1, rolling := k } } }
/-- The running image is on trial. -/
def onTrial : State :=
  { fwUp with ticks := 2 ^ 45, fw := { fwUp.fw with slots := fwUp.fw.slots.set 0 { st := 4, version := 1, security := 0, length := 4096, image := zeroBytes 4096 } } }

/-- The SPDM responder after the algorithms were negotiated. -/
def negotiated : State := { fwUp with host := { fwUp.host with spdm := { stage := 3, transcript := [1, 2], response := none } } }

/-- An I/O command of the queue of `withQueues`. -/
def anIo : CmdId := { ctrl := 1, sq := 5, cid := 9 }
/-- The queues, and namespace 1 of one disc, rebuilt, its first zone written up to LBA 64. -/
def ioUp : State :=
  setTeam 0 (fun x => { x with st := .attached, map := [0], ns := { x.ns with
    listed := true, count := 1, built := true, zones := [(0, { Zone.blank with wp := 64, st := .closed })] } })
    (setCtrl 1 (fun k => { k with cqs := [aCq], sqs := [aSq] }) hostReady)
/-- A read that waits for nothing but its completion. -/
def doneRead : Flight := { newFlight anIo 1 .read with nsid := 1, count := 1 }
/-- That read in flight. -/
def flying (f : Flight) : State := { ioUp with ticks := 2 ^ 45, host := { ioUp.host with flights := [f] } }

/-- Ready controllers, one DDR channel filled, CMBs of 16 MiB, and the cache serving. -/
def memUp : State :=
  { ioUp with
    mem := { ioUp.mem with chan := #v[{ DdrChannel.reset with ready := true, present := true, ranks := 1, density := 16 }, DdrChannel.reset], fillDone := true, cmb := #v[1, 1] }
    cache := { ioUp.cache with serving := true } }
/-- Line 0 resident in way 2, written to. -/
def resident : State :=
  setCache (slotSet (setOf 0) 2 { tag := tagOf 0, valid := true, dirty := true, age := 1, poison := 0, data := List.replicate 64 7 }) memUp
/-- The first line of controller 0's CMB resident in way 3. -/
def cmbResident : State :=
  setCache (slotSet (setOf 75497472) 3 { tag := tagOf 75497472, valid := true, dirty := false, age := 1, poison := 0, data := List.replicate 64 7 }) memUp
/-- A maintenance command's value. -/
def maintValue (op way start len : Nat) : Bytes := natBytes [op, 0, way, 0, 0, 0, 0, 0] ++ toLE 8 start ++ toLE 8 len
/-- A write in flight whose data is awaited. -/
def aWrite : Flight := { newFlight anIo 1 .write with nsid := 1, slba := 64, count := 1, left := [64] }
/-- That write, with its LBA staged in its extent. -/
def writing : State :=
  setExtent 0 1 (fun e => { e with lbas := [{ pos := 0, seq := 1, addr := none }] })
    { memUp with host := { memUp.host with flights := [aWrite] } }

/-- A unit of a pair with one link up. -/
def paired (role : Nat) : State :=
  { ioUp with ticks := 2 ^ 45, pair := { ioUp.pair with role := role, decided := true, alive := true, hold := decide (role = 1), peerSerial := [65], links := #v[true, false] } }
/-- A STANDBY whose takeover waits for HOLD. -/
def takingOver (cause : Nat) : State := { paired 2 with work := { (paired 2).work with taking := some (5, cause) } }
/-- An ACTIVE in a drill at a stage. -/
def drilling (k : Nat) : State := { paired 1 with work := { (paired 1).work with armed := true, drill := some { stage := k, began := 5, td := 100 } } }

/-- A power request of an accessor. -/
def aPower (ps : Nat) : PowerReq := { ps := ps, who := .dict (.record (.nvme 0) 0x2200 1) }
/-- The unit in a power state with that request running. -/
def powered (unit ps goal : Nat) (s : State) : State :=
  { s with ticks := 2 ^ 45, power := { s.power with unit := unit, ps := ps, running := some (aPower goal) } }
/-- A wake from SLEEP at a step. -/
def waking (k : Nat) : State :=
  let s := powered 2 4 0 fwUp
  { s with power := { s.power with wake := k, isolated := true } }

/-- Step 4 of the power-up sequence is done. -/
def supplied : State :=
  { State.reset with sup := { State.reset.sup with step := 5, en := Vector.replicate 4 true, pg := Vector.replicate 4 true } }
/-- A unit that runs on all its supplies. -/
def running : State := { fwUp with ticks := 2 ^ 45, sup := { supplied.sup with step := 6, powerOn := false, inReset := false }, pair := { fwUp.pair with alive := true, hold := true } }

/-- Booted, with a lane that takes its links' statuses. -/
def linked (n : LaneId) : State :=
  { setLane n (fun l => { l with life := { l.life with st := .ready }, links := { l.links with driveTrained := true, laserTrained := true } }) running with ticks := 2 ^ 45 }
/-- Booted, with an accepted pickup whose lifetime area is due. -/
def aging : State :=
  setLane 6 (fun l => { l with life := { l.life with pickup := some { serial := [65], cls := 1, image := goodImage } }, plife := { l.plife with due := true, warmUps := 2 } }) running
/-- A solicitation for an address, from a neighbour with an option that names it. -/
def aSolicit (ty opt : Nat) (target : Bytes) : Bytes := natBytes [ty, 0, 0, 0, 0, 0, 0, 0] ++ target ++ natBytes [opt, 1, 2, 3, 4, 5, 6, 7]
/-- A static address set on the first MGMT port, where Kyeri is served. -/
def addressed : State := store 0x1100 3 (List.replicate 16 9) (store 0x1100 1 [1] running)

/-- A unit that runs, with a lane changed, at a tick. -/
def ticking (t : Nat) (n : LaneId) (f : Lane → Lane) : State := setLane n f { running with ticks := t }
/-- A disc that may be written at every velocity, with an open session whose close is due. -/
def closing : Disc := { Disc.fresh with openEpoch := 1, closeDue := some 0, media := List.replicate 68 0 ++ [0, 39] }
/-- A lane that stands at the first lead-in slot with such a disc. -/
def atLead (d : Disc) (layer : Nat) : State :=
  held (laneWith 6 (fun l => { l with
    disc := some d, spin := { l.spin with atSpeed := true }, life := { l.life with st := .ready, layer := some layer, band := some 220 }
    wr := { l.wr with clockLocked := true, wobbleLayer := layer, wobbleBand := 220, wobbleFrame := 0, wobbleKind := 0 } }))

/-- A wobble frame of layer 3, band 8, frame 5. -/
def groove : WobbleRead := { wobbles := frameWobbles (wobbleBits 3 8 5 1), rms := 0, angle := 0 }
/-- A lane FOCUSED on a layer, on its way to a band. -/
def capturing (layer band : Nat) : State :=
  laneWith 6 (fun l => { l with
    life := { l.life with st := .focused, layer := some layer, targetBand := band }, loop := { l.loop with closed := #v[true, false, false] } })
/-- A lane that sweeps with a layer threshold of 0. -/
def sweeping : State := store (laneIdx 6 6) 3 [0, 0] (laneWith 6 (fun l => { l with life := { l.life with st := .spun } }))
/-- A peak above the surface threshold and one above a layer's threshold of 0 show layer 7. -/
theorem sweep_peak (s : State) (n : LaneId) (hc : (pickupClass s n).getD 0 = 0) (hl : lcfg s n 0x06 3 = 0) :
    layerSeen s n [Sys2Proof.Config.surfaceThreshold 0 + 1, 1] = true := by
  simp [layerSeen, hc, hl, List.dropWhile]

/-- A lane that has come to the frame of its pass's first sector. -/
def playing (p : Pass) : State :=
  held (laneWith 6 (fun l => { l with
    disc := some Disc.fresh, life := { l.life with st := .writing, layer := some 2 }
    wr := { l.wr with pass := some p, wobbleLayer := 2, wobbleBand := (dataPlace 360).1, wobbleFrame := (dataPlace 360).2, wobbleKind := 1 } }))
/-- A disc with an open session that may be written at every velocity. -/
def spareDisc : Disc := { Disc.fresh with openEpoch := 1, media := List.replicate 68 0 ++ [0, 39] }
/-- A lane at the index of a spare band with a copy queued. -/
def atSpare : State :=
  held (setLane 6 (fun l => { l with
    disc := some spareDisc, spin := { l.spin with atSpeed := true }, life := { l.life with band := some 549 }
    wr := { l.wr with wobbleLayer := 2, wobbleBand := 549, wobbleFrame := 0, wobbleKind := 2 } }) copying)

/-- A channel that follows the frames of its extent read. -/
def following : Channel := { Channel.reset with reacquire := false, ahead := frameNow (laneAt reading6 6) 1 }
/-- A lead-in read with one sector delivered. -/
def decodingJob (r : SectorRead) : ReadJob := { newJob 0 0 none true 0 with sectors := [(5, r)] }
/-- A lane with it, whose sector waits for a core. -/
def decoding (r : SectorRead) : State :=
  setPool (fun p => { p with waiting := [{ lane := 6, track := 1, sector := 5, stamp := 0, later := false }] })
    (laneWith 6 (fun l => { l with disc := some Disc.fresh, rd := { l.rd with jobs := l.rd.jobs.set 1 (some (decodingJob r)) } }))


/-! ### Witnesses: concrete states and operands that meet the hypotheses of every clause -/

theorem witness_StepRunsTheFrontCommand : ¬ (∀ (c : Instr) (rest : List Instr) (s : State), s.pending = c :: rest → False) :=
  fun h => h .announce [] { State.reset with pending := [.announce] } rfl

theorem witness_IdleStepIsOneTick : ¬ (∀ s : State, s.pending = [] → False) :=
  fun h => h State.reset rfl

theorem witness_InvKeptByEveryStep : ¬ (∀ s t : State, Inv s → step s = .next t → False) :=
  fun h => h State.reset { State.reset with ticks := 1 }
    ⟨by decide, Nat.zero_le _, fun i x e => by revert i x; decide⟩ rfl

theorem witness_FrameOfEveryCommand : ¬ (∀ (i : Instr) (s t : State), exec i s = .next t → False) :=
  fun h => h .announce State.reset _ rfl

theorem witness_LanesKeptApart : ¬ (∀ (i : Instr) (n : LaneId) (ps : List LanePart) (s t : State), laneOfCmd i = some (n, ps) →
    exec i s = .next t → False) :=
  fun h => h (.sessionCloseDue 6) 6 _ State.reset _ rfl rfl

theorem witness_LaneOrdersFaultsAndRecovery_1 : ∃ (n : LaneId) (b : Boundary) (o : Order) (s : State),
    ((laneAt s n).flt.orders.find? (orderAt b) = some o) ∧
    (orderFits s n o = false) :=
  ⟨(4), (.period), (.gearing 1 2 3), (laneWith 4 (fun l => { l with flt := { l.flt with orders := [.gearing 1 2 3] }, sled := { l.sled with armed := [(1, 1, 1), (2, 1, 1), (3, 1, 1), (4, 1, 1)] } })), by decide⟩


theorem witness_LaneOrdersFaultsAndRecovery_2 : ∃ (n : LaneId) (b : Boundary) (s : State),
    (laneAt s n).flt.orders.find? (orderAt b) = none :=
  ⟨(4), (.preamble), (laneWith 4 (fun l => { l with flt := { l.flt with orders := [.gearing 1 2 3] } })), by decide⟩


theorem witness_LaneOrdersFaultsAndRecovery_3 : ∃ (n : LaneId) (p : Nat) (a : Int) (d : Nat) (s : State),
    ((laneAt s n).flt.orders.find? (orderAt .period) = some (.gearing p a d)) ∧
    ((laneAt s n).sled.armed.length < 4) :=
  ⟨(4), (1), (2), (3), (laneWith 4 (fun l => { l with flt := { l.flt with orders := [.gearing 1 2 3] }, sled := { l.sled with armed := [(1, 1, 1), (2, 1, 1), (3, 1, 1)] } })), by decide⟩


theorem witness_LaneOrdersFaultsAndRecovery_4 : ∃ (n : LaneId) (r : Stride) (s : State),
    ((laneAt s n).flt.orders.find? (orderAt .joint) = some (.stride r)) ∧
    ((laneAt s n).sled.queue = []) ∧
    (withinSoft s n r.target = true) :=
  ⟨(4), (Stride.zero), (store (laneIdx 4 0xA3) 2 [1, 0, 0, 0] (store (laneIdx 4 0xA3) 1 [0, 0, 0, 0] (laneWith 4 (fun l => { l with flt := { l.flt with orders := [.stride Stride.zero] } })))), by decide⟩


theorem witness_LaneOrdersFaultsAndRecovery_5 : ∃ (n : LaneId) (r : Stride) (s : State),
    ((laneAt s n).flt.orders.find? (orderAt .joint) = some (.stride r)) ∧
    (orderFits s n (.stride r) = true) ∧
    (withinSoft s n r.target = false) :=
  ⟨(4), ({ Stride.zero with target := 7 }), (store (laneIdx 4 0xA3) 2 [1, 0, 0, 0] (store (laneIdx 4 0xA3) 1 [0, 0, 0, 0] (laneWith 4 (fun l => { l with flt := { l.flt with orders := [.stride { Stride.zero with target := 7 }] } })))), by decide⟩


theorem witness_LaneOrdersFaultsAndRecovery_6 : ∃ (n : LaneId) (code : Nat) (s : State),
    ((laneAt s n).life.st ≠ .off) ∧
    (code ∈ faultCodes) :=
  ⟨(7), (0x1102), (laneWith 7 (fun l => { l with life := { l.life with st := .ready } })), by decide⟩


theorem witness_LaneOrdersFaultsAndRecovery_7 : ∃ (n : LaneId) (code : Nat) (s : State),
    ((laneAt s n).life.st ≠ .off) ∧
    (code ∈ faultCodes) ∧
    ((laneAt s n).sled.queue = []) ∧
    ((laneAt s n).flt.completions.length < 64) :=
  ⟨(7), (0x1105), (laneWith 7 (fun l => { l with life := { l.life with st := .ready } })), by decide⟩


theorem witness_LaneOrdersFaultsAndRecovery_8 : ∃ (n : LaneId) (code : Nat) (s : State),
    (laneAt s n).life.st = .off :=
  ⟨(7), (0x1102), (State.reset), by decide⟩


theorem witness_LaneOrdersFaultsAndRecovery_9 : ∃ (d : Fin 4) (n : LaneId) (s : State),
    (n.val / 8 = d.val) ∧
    ((laneAt s n).life.st ≠ .off) :=
  ⟨(3), (31), (laneWith 31 (fun l => { l with life := { l.life with st := .spun } })), by decide⟩


theorem witness_LaneOrdersFaultsAndRecovery_10 : ∃ (n : LaneId) (code : Nat) (at' : LaneState) (rest : List Completion) (s : State),
    (takeFault (laneAt s n).flt.completions = some (code, at', rest)) ∧
    ((laneAt s n).life.st ≠ .off) ∧
    ((laneAt s n).flt.latched = false) ∧
    ((laneAt s n).flt.recovering = false) :=
  ⟨(7), (0x1102), (.ready), ([.stride 1 0]), (laneWith 7 (fun l => { l with life := { l.life with st := .ready }, flt := { l.flt with completions := [.stride 1 0, .fault 0x1102 .ready] } })), by decide⟩


theorem witness_LaneOrdersFaultsAndRecovery_11 : ∃ (n : LaneId) (s : State),
    takeFault (laneAt s n).flt.completions = none :=
  ⟨(7), (laneWith 7 (fun l => { l with flt := { l.flt with completions := [.stride 1 0] } })), by decide⟩


theorem witness_LaneOrdersFaultsAndRecovery_12 : ∃ (n : LaneId) (s : State),
    (mayRecover (laneAt s n) = true) ∧
    (lostLink (laneAt s n) = none) ∧
    (mustRamp (laneAt s n) = false) ∧
    (recoveryReady s n = true) ∧
    ((laneAt s n).flt.rehome = false) ∧
    ((laneAt s n).flt.recovering = true) ∧
    ((laneAt s n).flt.resume ≠ .fault) :=
  ⟨(7), (laneWith 7 (fun l => { l with life := { l.life with st := .fault, pickup := some { serial := [], cls := 0, image := [] } }, links := { l.links with driveTrained := true, laserTrained := true }, flt := { l.flt with last := 0x1104, recovering := true, resume := .parked } })), by decide⟩


theorem witness_LaneOrdersFaultsAndRecovery_13 : ∃ (n : LaneId) (s : State),
    (mayRecover (laneAt s n) = true) ∧
    (recoveryStands s n = true) ∧
    ((laneAt s n).flt.recovering = false) ∧
    (lcfg s n 0x02 4 ≤ (attemptsNow s n).length) :=
  ⟨(7), (store (laneIdx 7 0x02) 4 [0] (laneWith 7 (fun l => { l with life := { l.life with st := .fault }, flt := { l.flt with last := 0x1104 } }))), by decide⟩


theorem witness_LaneOrdersFaultsAndRecovery_14 : ∃ (n : LaneId) (s : State),
    (laneAt s n).flt.latched = true :=
  ⟨(7), (laneWith 7 (fun l => { l with life := { l.life with st := .fault }, flt := { l.flt with latched := true } })), by decide⟩


theorem witness_LoopPeriodSlotsKept_1 : ∃ (n : LaneId) (codes f : List Int) (ia ib : Int) (volts : List Int) (s : State),
    observerDue s n = true :=
  ⟨(4), ([1, 2, 3]), ([0, 0, 0]), (5), (-9), ([700, 0, 20]), (ticking 200000 4 (fun l => { l with spin := { l.spin with omega := 77 } })), by decide⟩


theorem witness_LoopPeriodSlotsKept_2 : ∃ (n : LaneId) (codes f : List Int) (ia ib : Int) (volts : List Int) (s : State),
    observerDue s n = true :=
  ⟨(5), ([1, 2, 3]), ([0, 0, 0]), (5), (-9), ([]), (ticking 203125 5 (fun l => { l with loop := { l.loop with latch := some [1] } })), by decide⟩


theorem witness_LoopPeriodSlotsKept_3 : ∃ (n : LaneId) (codes f : List Int) (ia ib : Int) (volts : List Int) (late : Bool) (s : State),
    observerDue s n = false :=
  ⟨(5), ([1]), ([]), (5), (-9), ([]), (false), (ticking 200000 5 id), by decide⟩


theorem witness_LoopPeriodSlotsKept_4 : ∃ (n : LaneId) (u : List Int) (s : State),
    (releaseDue s n .actuator = true) ∧
    ((laneAt s n).loop.latch = some u) ∧
    ((laneAt s n).loop.sampledAt = some (sampleOf s .actuator)) ∧
    ((laneAt s n).loop.overrun.zeroNext = false) ∧
    ((laneAt s n).loop.overrun.zero = false) :=
  ⟨(4), ([1, 2, 3]), (ticking 203125 4 (fun l => { l with loop := { l.loop with latch := some [1, 2, 3], sampledAt := some 200000 } })), by decide⟩


theorem witness_LoopPeriodSlotsKept_5 : ∃ (n : LaneId) (s : State),
    (releaseDue s n .actuator = true) ∧
    (((laneAt s n).loop.latch = none ∨ (laneAt s n).loop.sampledAt ≠ some (sampleOf s .actuator))) ∧
    ((laneAt s n).loop.overrun.zeroNext = false) ∧
    ((laneAt s n).loop.overrun.zero = false) :=
  ⟨(4), (ticking 203125 4 id), by decide⟩


theorem witness_LoopPeriodSlotsKept_6 : ∃ (n : LaneId) (s : State),
    (releaseDue s n .actuator = true) ∧
    ((laneAt s n).loop.overrun.zero = true) :=
  ⟨(4), (ticking 203125 4 (fun l => { l with loop := { l.loop with overrun := { l.loop.overrun with zero := true } } })), by decide⟩


theorem witness_LoopPeriodSlotsKept_7 : ∃ (n : LaneId) (lp : LoopId) (s : State),
    (releaseDue s n lp = true) ∧
    (lp ≠ .actuator) ∧
    ((∀ c ∈ releaseSet (laneAt s n) lp, resultReady (laneAt s n) (sampleOf s lp) c = true)) :=
  ⟨(4), (.spindleSpeed), (ticking 225000 4 (fun l => { l with loop := { l.loop with cascades := Vector.replicate 6 { Cascade.reset with latch := some 5, born := 200000 } } })), by decide⟩


theorem witness_LoopPeriodSlotsKept_8 : ∃ (n : LaneId) (lp : LoopId) (c : Nat) (s : State),
    (releaseDue s n lp = true) ∧
    (lp ≠ .actuator) ∧
    (c ∈ releaseSet (laneAt s n) lp) ∧
    (resultReady (laneAt s n) (sampleOf s lp) c = false) :=
  ⟨(4), (.readPower), (3), (ticking 206250 4 id), by decide⟩


theorem witness_LoopPeriodSlotsKept_9 : ∃ (n : LaneId) (lp : LoopId) (s : State),
    releaseDue s n lp = false :=
  ⟨(4), (.spindleCurrent), (ticking 203125 4 id), by decide⟩


theorem witness_LoopPeriodSlotsKept_10 : ∃ (n : LaneId) (pm : Int) (late : List Nat) (s : State),
    (slotDue s n = true) ∧
    (lanePeriod s n = 4 ∨ lanePeriod s n = 12) ∧
    ((laneAt s n).loop.overrun.readPowerHeld = false) ∧
    (3 ∉ late) :=
  ⟨(4), (100), ([]), (ticking 250000 4 id), by decide⟩


theorem witness_LoopPeriodSlotsKept_11 : ∃ (n : LaneId) (pm : Int) (late : List Nat) (s : State),
    (slotDue s n = true) ∧
    (lanePeriod s n = 4 ∨ lanePeriod s n = 12) ∧
    ((laneAt s n).loop.overrun.readPowerHeld = false) ∧
    (3 ∈ late) :=
  ⟨(4), (100), ([3]), (ticking 350000 4 id), by decide⟩


theorem witness_LoopPeriodSlotsKept_12 : ∃ (n : LaneId) (pm : Int) (late : List Nat) (s : State),
    (slotDue s n = true) ∧
    (lanePeriod s n = 1) ∧
    ((laneAt s n).loop.overrun.spindleHeld = false) ∧
    ((laneAt s n).loop.overrun.stopped = false) ∧
    (0 ∉ late) ∧
    (5 ∉ late) :=
  ⟨(4), (100), ([]), (ticking 212500 4 (fun l => { l with spin := { l.spin with ref := 2400000 * 960 } })), by decide⟩


theorem witness_LoopPeriodSlotsKept_13 : ∃ (n : LaneId) (pm : Int) (late : List Nat) (s : State),
    (slotDue s n = true) ∧
    (lanePeriod s n = 8 ∨ lanePeriod s n = 0) ∧
    ((laneAt s n).loop.overrun.readPowerHeld = false) ∧
    ((laneAt s n).loop.overrun.spindleHeld = false) ∧
    ((laneAt s n).loop.overrun.stopped = false) ∧
    ((laneAt s n).loop.overrun.sledHeld = false) ∧
    ((laneAt s n).loop.overrun.reloadBq = false) ∧
    ((laneAt s n).loop.banks.bqPending = false) ∧
    (late = []) ∧
    ((lanePeriod s n = 0 → (laneAt s n).spin.stopping = false)) :=
  ⟨(4), (100), ([]), (ticking 300000 4 (fun l => { l with loop := { l.loop with released := [1, 2, 3] } })), by decide⟩


theorem witness_LoopPeriodSlotsKept_14 : ∃ (n : LaneId) (pm : Int) (late : List Nat) (s : State),
    lanePeriod s n ∉ [0, 1, 4, 8, 12] :=
  ⟨(4), (100), ([]), (ticking 225000 4 id), by decide⟩


theorem witness_LoopPeriodSlotsKept_15 : ∃ (n : LaneId) (pm : Int) (late : List Nat) (s : State),
    slotDue s n = false :=
  ⟨(4), (100), ([]), (ticking 250000 4 (fun l => { l with loop := { l.loop with slotAt := some 250000 } })), by decide⟩


theorem witness_LoopPeriodSlotsKept_16 : ∃ (n : LaneId) (s : State),
    ((laneAt s n).loop.overrun.checkDue = true) ∧
    (bankCheck (laneAt s n).loop.banks.obsActive = true) ∧
    (bankCheck (laneAt s n).loop.banks.bqActive = false) :=
  ⟨(7), (laneWith 7 (fun l => { l with loop := { l.loop with overrun := { l.loop.overrun with checkDue := true }, banks := { l.loop.banks with obsActive := goodBank, bqActive := [] } } })), by decide, by decide +kernel, by decide +kernel⟩


theorem witness_LoopPeriodSlotsKept_17 : ∃ (n : LaneId) (s : State),
    ((laneAt s n).loop.overrun.checkDue = true) ∧
    (bankCheck (laneAt s n).loop.banks.obsActive = false) ∧
    (bankCheck (laneAt s n).loop.banks.bqActive = true) :=
  ⟨(7), (laneWith 7 (fun l => { l with loop := { l.loop with overrun := { l.loop.overrun with checkDue := true }, banks := { l.loop.banks with obsActive := [], bqActive := goodBank } } })), by decide, by decide +kernel, by decide +kernel⟩


theorem witness_LoopPeriodSlotsKept_18 : ∃ (n : LaneId) (s : State),
    ((laneAt s n).loop.overrun.checkDue = true) ∧
    (bankCheck (laneAt s n).loop.banks.obsActive = true) ∧
    (bankCheck (laneAt s n).loop.banks.bqActive = true) :=
  ⟨(7), (laneWith 7 (fun l => { l with loop := { l.loop with overrun := { l.loop.overrun with checkDue := true }, banks := { l.loop.banks with obsActive := goodBank, bqActive := goodBank } } })), by decide, by decide +kernel, by decide +kernel⟩


theorem witness_LoopPeriodSlotsKept_19 : ∃ (n : LaneId) (s : State),
    (laneAt s n).loop.overrun.checkDue = false :=
  ⟨(7), (State.reset), by decide⟩


theorem witness_CommutationFollowsTheRotor_1 : ∃ (n : LaneId) (s : State),
    ¬(levelsRun s = true ∧ lanePhase s n % 100000 = 50000 ∧ (laneAt s n).spin.commAt ≠ some (timerCount s)) :=
  ⟨(4), (ticking 200000 4 id), by decide⟩


theorem witness_CommutationFollowsTheRotor_2 : ∃ (n : LaneId) (s : State),
    (levelsRun s = true) ∧
    (lanePhase s n % 100000 = 50000) ∧
    ((laneAt s n).spin.commAt ≠ some (timerCount s)) ∧
    (¬((laneAt s n).spin.mode = 1 ∧ ((laneAt s n).spin.phase = 2 ∨ (laneAt s n).spin.phase = 3))) :=
  ⟨(4), (ticking 250000 4 (fun l => { l with spin := { l.spin with mode := 2, phase := 5 } })), by decide⟩


theorem witness_CommutationFollowsTheRotor_3 : ∃ (n : LaneId) (s : State),
    (levelsRun s = true) ∧
    (lanePhase s n % 100000 = 50000) ∧
    ((laneAt s n).spin.commAt ≠ some (timerCount s)) ∧
    ((laneAt s n).spin.mode = 1) ∧
    ((laneAt s n).spin.phase = 3) ∧
    ((laneAt s n).spin.omega ≤ 0) :=
  ⟨(4), (ticking 350000 4 (fun l => { l with spin := { l.spin with mode := 1, phase := 3 } })), by decide⟩


theorem witness_CommutationFollowsTheRotor_4 : ∃ (n : LaneId) (s : State) (phi k k2 : Int),
    (levelsRun s = true) ∧
    (lanePhase s n % 100000 = 50000) ∧
    ((laneAt s n).spin.commAt ≠ some (timerCount s)) ∧
    ((laneAt s n).spin.mode = 1) ∧
    ((laneAt s n).spin.phase = 2 ∨ (laneAt s n).spin.phase = 3) ∧
    (phi = (((laneAt s n).spin.theta : Int) - (deciDegrees (lcfg s n 0x82 1) - deciDegrees 300)) % 2 ^ 40) ∧
    (k = phi * 6 / 2 ^ 40) ∧
    (k2 = (phi + 8 * (laneAt s n).spin.omega) * 6 / 2 ^ 40) ∧
    (0 < (laneAt s n).spin.omega) ∧
    (k < k2) :=
  ⟨(4), (store (laneIdx 4 0x82) 1 [44, 1] (ticking 250000 4 (fun l => { l with spin := { l.spin with mode := 1, phase := 3, omega := 2 ^ 36 } }))), (0), (0), (3), by decide⟩


theorem witness_CommutationFollowsTheRotor_5 : ∃ (n : LaneId) (s : State),
    crossingAge ((laneAt s n).loop.sampledAt.getD 0) (laneAt s n).spin = none :=
  ⟨(3), (State.reset), by decide⟩


theorem witness_CommutationFollowsTheRotor_6 : ∃ (n : LaneId) (age : Nat) (e : Int) (s : State),
    (crossingAge ((laneAt s n).loop.sampledAt.getD 0) (laneAt s n).spin = some age) ∧
    ((laneAt s n).spin.phase = 3) ∧
    (e = crossingError (laneAt s n).spin age) ∧
    (-deciDegrees (lcfg s n 0x82 4) ≤ e) ∧
    (e ≤ deciDegrees (lcfg s n 0x82 4)) :=
  ⟨(4), (100000), (0), (store (laneIdx 4 0x82) 4 [44, 1] (ticking 400000 4 (fun l => { l with loop := { l.loop with sampledAt := some 400000 }, spin := { l.spin with phase := 3, theta := 91625968981, crossing := [(500, 400000), (-500, 200000)] } }))), by decide⟩


theorem witness_CommutationFollowsTheRotor_7 : ∃ (n : LaneId) (age : Nat) (e : Int) (s : State),
    (crossingAge ((laneAt s n).loop.sampledAt.getD 0) (laneAt s n).spin = some age) ∧
    ((laneAt s n).spin.phase = 3) ∧
    (e = crossingError (laneAt s n).spin age) ∧
    ((e < -deciDegrees (lcfg s n 0x82 4) ∨ deciDegrees (lcfg s n 0x82 4) < e)) :=
  ⟨(4), (100000), (2), (store (laneIdx 4 0x82) 4 [0, 0] (ticking 400000 4 (fun l => { l with loop := { l.loop with sampledAt := some 400000 }, spin := { l.spin with phase := 3, theta := 91625968979, crossing := [(500, 400000), (-500, 200000)] } }))), by decide⟩


theorem witness_CommutationFollowsTheRotor_8 : ∃ (n : LaneId) (age : Nat) (s : State),
    (crossingAge ((laneAt s n).loop.sampledAt.getD 0) (laneAt s n).spin = some age) ∧
    ((laneAt s n).spin.phase = 2) ∧
    (3 * openLoopTop ≤ 4 * (laneAt s n).spin.omega) :=
  ⟨(4), (100000), (ticking 400000 4 (fun l => { l with loop := { l.loop with sampledAt := some 400000 }, spin := { l.spin with phase := 2, omega := 45812984, crossing := [(500, 400000), (-500, 200000)] } })), by decide⟩


theorem witness_SpindlesStartAndRestart_1 : ∃ (n : LaneId) (peaks : List (List Nat)) (k : Nat) (s : State),
    ((laneAt s n).spin.phase = 1) ∧
    (rotorSector peaks = some k) :=
  ⟨(3), ([[10, 20, 10, 10, 10, 10], [10, 20, 10, 10, 10, 10]]), (1), (spinWith 3 (fun p => { p with phase := 1 })), by decide⟩


theorem witness_SpindlesStartAndRestart_2 : ∃ (n : LaneId) (peaks : List (List Nat)) (s : State),
    ((laneAt s n).spin.phase = 1) ∧
    (rotorSector peaks = none) ∧
    ((laneAt s n).sled.queue = []) ∧
    ((laneAt s n).flt.completions.length < 64) :=
  ⟨(3), ([]), (spinWith 3 (fun p => { p with phase := 1 })), by decide⟩


theorem witness_SpindlesStartAndRestart_3 : ∃ (n : LaneId) (s : State),
    ((laneAt s n).spin.phase = 2) ∧
    (lcfg s n 0x83 5 ≤ (laneAt s n).spin.handover.length) ∧
    ((∀ e ∈ (laneAt s n).spin.handover.take (lcfg s n 0x83 5), -deciDegrees 150 ≤ e ∧ e ≤ deciDegrees 150)) :=
  ⟨(3), (store (laneIdx 3 0x83) 5 [2] (spinWith 3 (fun p => { p with phase := 2, omega := 45812984, handover := [7, -7, 2 ^ 39] }))), by decide⟩


theorem witness_SpindlesStartAndRestart_4 : ∃ (n : LaneId) (s : State),
    (laneAt s n).spin.phase ≠ 2 ∨ (laneAt s n).spin.handover.length < lcfg s n 0x83 5 :=
  ⟨(3), (store (laneIdx 3 0x83) 5 [2] (spinWith 3 (fun p => { p with phase := 2, handover := [7] }))), by decide⟩


theorem witness_SpindlesStartAndRestart_5 : ∃ (n : LaneId) (s : State),
    ((laneAt s n).spin.phase = 2) ∧
    (1200 ≤ (laneAt s n).spin.near) :=
  ⟨(3), (spinWith 3 (fun p => { p with phase := 2, near := 1200 })), by decide⟩


theorem witness_SpindlesStartAndRestart_6 : ∃ (n : LaneId) (v : Nat) (s : State),
    ((laneAt s n).spin.phase = 4) ∧
    (v < lcfg s n 0x84 2) :=
  ⟨(3), (99), (store (laneIdx 3 0x84) 2 [100, 0] (spinWith 3 (fun p => { p with phase := 4 }))), by decide⟩


theorem witness_SpindlesStartAndRestart_7 : ∃ (n : LaneId) (s : State),
    (rotorIsLost (laneAt s n).spin = true) ∧
    (lcfg s n 0x84 1 = 1) ∧
    ((laneAt s n).sled.queue = []) ∧
    ((laneAt s n).flt.completions.length < 64) :=
  ⟨(3), (store (laneIdx 3 0x84) 1 [1] (spinWith 3 (fun p => { p with phase := 3, omega := 45812984, largeErr := -3 }))), by decide⟩


theorem witness_SpindlesStartAndRestart_8 : ∃ (n : LaneId) (s : State),
    rotorIsLost (laneAt s n).spin = false :=
  ⟨(3), (State.reset), by decide⟩


theorem witness_SpindlesStartAndRestart_9 : ∃ (n : LaneId) (b : BackEmf) (s : State),
    ((laneAt s n).spin.phase = 6) ∧
    (b.forward = true) ∧
    (restartInTime s (laneAt s n).spin = true) ∧
    (evenIntervals b.intervals = true) ∧
    (lcfg s n 0x84 2 ≤ b.amplitude) :=
  ⟨(3), ({ forward := true, intervals := [90, 100], amplitude := 300, speed := 300000, angle := 0 }), (store (laneIdx 3 0x84) 2 [100, 0] (spinWith 3 (fun p => { p with phase := 6, lostSpeed := 300000 }))), by decide⟩


theorem witness_SpindlesStartAndRestart_10 : ∃ (n : LaneId) (b : BackEmf) (s : State),
    ((laneAt s n).spin.phase = 6) ∧
    (b.forward = false) :=
  ⟨(3), ({ forward := false, intervals := [], amplitude := 300, speed := 300000, angle := 0 }), (spinWith 3 (fun p => { p with phase := 6, lostSpeed := 300000 })), by decide⟩


theorem witness_SpindlesStartAndRestart_11 : ∃ (n : LaneId) (s : State),
    ((laneAt s n).spin.phase = 6) ∧
    (restartInTime s (laneAt s n).spin = false) :=
  ⟨(31), (ticking (2 ^ 45) 31 (fun l => { l with spin := { l.spin with phase := 6, lostSpeed := 300000 } })), by decide⟩


theorem witness_SpindlesShareTheBus_1 : ∃ (n : LaneId) (s : State),
    ((laneAt s n).spin.phase = 3) ∧
    ((laneAt s n).spin.limited = false) ∧
    (480 ≤ (laneAt s n).spin.atLimit) :=
  ⟨(9), (spinWith 9 (fun p => { p with phase := 3, atLimit := 480, omega := 45812984 })), by decide⟩


theorem witness_SpindlesShareTheBus_2 : ∃ (n : LaneId) (s : State),
    ((laneAt s n).spin.limited = true) ∧
    (480 ≤ (laneAt s n).spin.belowLimit) :=
  ⟨(9), (spinWith 9 (fun p => { p with limited := true, belowLimit := 480, limitSpeed := 5 })), by decide⟩


theorem witness_SpindlesShareTheBus_3 : ∃ (n : LaneId) (s : State),
    ((laneAt s n).spin.phase = 3) ∧
    (96 ≤ (laneAt s n).spin.regenWins) ∧
    ((laneAt s n).spin.stopping = true) :=
  ⟨(9), (spinWith 9 (fun p => { p with phase := 3, regenWins := 96, stopping := true })), by decide⟩


theorem witness_SpindlesShareTheBus_4 : ∃ (n : LaneId) (s : State),
    ((laneAt s n).spin.phase = 3) ∧
    (96 ≤ (laneAt s n).spin.regenWins) ∧
    ((laneAt s n).spin.stopping = false) :=
  ⟨(9), (spinWith 9 (fun p => { p with phase := 3, regenWins := 96 })), by decide⟩


theorem witness_SpindlesShareTheBus_6 : ∃ (g : SegId) (s : State),
    (s.segs[g].chop = true) ∧
    (s.segs[g].failed = false) ∧
    (384 * cfg s (segIdx g) 6 ≤ 1000 * s.segs[g].chopFor) ∧
    (s.segs[g].chopMv < s.segs[g].mv + 200) :=
  ⟨(2), (store 0x2242 6 [10, 0] (setSeg 2 (fun c => { c with chop := true, chopFor := 10, mv := 52000, chopMv := 52199 }) State.reset)), by decide⟩


theorem witness_SpindlesShareTheBus_7 : ∃ (g : SegId) (s : State),
    (s.segs[g].overvoltage = false) ∧
    (384 * 50 ≤ 1000 * s.segs[g].overFor) :=
  ⟨(1), (setSeg 1 (fun c => { c with overFor := 20 }) (laneWith 8 (fun l => { l with loop := { l.loop with selected := -1 } }))), by decide⟩


theorem witness_SpindlesShareTheBus_8 : ∃ (n : LaneId) (c term : Nat) (s : State),
    (lcfg s n 0x88 1 = 1) ∧
    (ceilingOf s n = (c, term)) ∧
    (2496 ≤ c) ∧
    (min (lcfg s n 0x88 2) c ≤ (laneAt s n).pace.v) :=
  ⟨(6), (9984), (0), (store (laneIdx 6 0x88) 1 [1] State.reset), by decide, by decide +kernel, by decide, by decide +kernel⟩


theorem witness_SpindlesShareTheBus_9 : ∃ (n : LaneId) (c term : Nat) (s : State),
    (ceilingOf s n = (c, term)) ∧
    (c < 2496) ∧
    ((laneAt s n).pace.warned = false) :=
  ⟨(6), (1000), (2), (laneWith 6 (fun l => { l with pace := { l.pace with unitCeiling := 1000 } })), by decide +kernel, by decide, by decide⟩


theorem witness_SpindlesShareTheBus_10 : ∃ (n : LaneId) (c term : Nat) (s : State),
    (lcfg s n 0x88 1 = 1) ∧
    (ceilingOf s n = (c, term)) ∧
    (2496 ≤ c) ∧
    ((laneAt s n).pace.v < min (lcfg s n 0x88 2) c) :=
  ⟨(6), (9984), (0), (store (laneIdx 6 0x88) 1 [1] { laneWith 6 (fun l => { l with life := { l.life with st := .ready }, pace := { l.pace with v := 3000 } }) with coreMv := 0 }), by decide, by decide +kernel, by decide, by decide +kernel⟩


theorem witness_SpindlesShareTheBus_11 : ∃ (n : LaneId) (c term : Nat) (s : State),
    (lcfg s n 0x88 1 ≠ 1) ∧
    (ceilingOf s n = (c, term)) ∧
    (2496 ≤ c) ∧
    ((laneAt s n).pace.begun = false) ∧
    (c ≤ (laneAt s n).pace.v) :=
  ⟨(6), (9984), (0), (State.reset), by decide, by decide +kernel, by decide, by decide, by decide +kernel⟩


theorem witness_SpindlesShareTheBus_12 : ∃ (n : LaneId) (u : TeamId) (c term : Nat) (s : State),
    (lcfg s n 0x88 1 ≠ 1) ∧
    (ceilingOf s n = (c, term)) ∧
    (2496 ≤ c) ∧
    ((laneAt s n).pace.begun = true) ∧
    (teamOfLane s n = some u) ∧
    ((teamAt s u).history = true) ∧
    ((laneAt s n).pace.v < min (max (targetVelocity s n (demandNext s n).1) 2496) c) ∧
    (supplyCovers s (if drawsRate (laneAt s n)
        then 138 * (min (max (targetVelocity s n (demandNext s n).1) 2496) c - (laneAt s n).pace.v) else 0) = true) :=
  ⟨(6), (1), (9984), (0), (store (teamIdx 1 0) 1 [64, 0, 0, 0] (setTeam 1 (fun x => { x with history := true }) (laneWith 6 (fun l => { l with pace := { l.pace with v := 1000, begun := true } })))), by decide, by decide +kernel, by decide, by decide, by decide +kernel, by decide, by decide +kernel, by decide +kernel⟩


theorem witness_SpindlesShareTheBus_13 : ∃ (who : Who) (g : SegId) (v : Bytes) (s : State),
    (writePasses s who (segIdx g) 8 v = true) ∧
    (needsAck s = false) :=
  ⟨(.nvme 0), (2), (toLE 4 1128812368), ({ up with segs := up.segs.set 2 { Segment.reset with failed := true } }), by decide⟩


theorem witness_CoreSupplyFollowsTheRates_2 : ∃ s : State,
    needMv s (raiseSum s) ≤ s.coreGoal :=
  ⟨(laneWith 5 (fun l => { l with pace := { l.pace with raise := some 9000, v := 5000 } })), by decide⟩


theorem witness_CoreSupplyFollowsTheRates_3 : ∃ s : State,
    (needMv s 0 ≤ s.coreGoal) ∧
    (s.coreGoal < needMv s (raiseSum s)) :=
  ⟨({ (allLanes.foldl (fun a n => setLane n (fun l => { l with life := { l.life with spinning := true }, pace := { l.pace with raise := some 9984, v := 0 } }) a) State.reset) with coreGoal := 700 }), by decide⟩


theorem witness_CoreSupplyFollowsTheRates_4 : ∃ s : State,
    s.coreGoal < needMv s 0 :=
  ⟨({ State.reset with coreGoal := 649 }), by decide⟩


theorem witness_SessionsOpenAndDiscovery_1 : ∃ (p : PortId) (own addr ns : Bytes) (uport seq : Nat) (k : Fin 8) (s : State),
    (own ∈ ownAddresses s p) ∧
    (listens s p = true) ∧
    (ns.length = 32) ∧
    (seq < 2 ^ 32) ∧
    (recentFails s < 5) ∧
    ((s.dict.keys[k]).isSome = true) ∧
    (cfg s 0x1111 (k.val + 1) ≠ 0) ∧
    (allSlots.all (fun i => (s.dict.sessions[i]).isSome) = false) :=
  ⟨(0), (linkLocal 0), ([]), (List.replicate 32 1), (9), (0), (0), (keyed), List.mem_cons_self, by decide⟩


theorem witness_SessionsOpenAndDiscovery_2 : ∃ (p : PortId) (own addr body : Bytes) (uport seq : Nat) (s : State),
    (own ∈ ownAddresses s p) ∧
    (listens s p = true) ∧
    (body.length = 33) ∧
    (seq < 2 ^ 32) ∧
    (5 ≤ recentFails s) :=
  ⟨(0), (linkLocal 0), ([]), (List.replicate 33 1), (9), (0), ({ keyed with dict := { keyed.dict with proofFails := [0, 0, 0, 0, 0] } }), List.mem_cons_self, by decide⟩


theorem witness_SessionsOpenAndDiscovery_3 : ∃ (p : PortId) (own addr key : Bytes) (uport : Nat) (h : Hello) (slot : Fin 8) (s : State),
    (own ∈ ownAddresses s p) ∧
    (listens s p = true) ∧
    (0 < h.number ∧ h.number < 2 ^ 32) ∧
    (h.slot < 8) ∧
    (sessionOf s h.number = none) ∧
    (s.dict.hellos.find? (fun g => decide (g.number = h.number)) = some h) ∧
    (s.dict.keys[Fin.ofNat 8 h.slot] = some key) ∧
    (cfg s 0x1111 (h.slot + 1) ≠ 0) ∧
    (passed s h.tick (secTicks 2) = false) ∧
    (allSlots.find? (fun i => (s.dict.sessions[i]).isNone) = some slot) :=
  ⟨(0), (linkLocal 0), ([]), (List.replicate 32 7), (9), (anExchange), (0), (keyed), List.mem_cons_self, by decide⟩


theorem witness_SessionsOpenAndDiscovery_4 : ∃ (p : PortId) (own addr body tag : Bytes) (uport number seq : Nat) (s : State),
    (own ∈ ownAddresses s p) ∧
    (listens s p = true) ∧
    (0 < number ∧ number < 2 ^ 32) ∧
    (seq < 2 ^ 32) ∧
    (body.length ≤ 1200) ∧
    (tag.length = 16) ∧
    (sessionOf s number = none) ∧
    (s.dict.hellos.find? (fun g => decide (g.number = number)) = none) :=
  ⟨(0), (linkLocal 0), ([]), ([]), (List.replicate 16 0), (9), (5), (1), (keyed), List.mem_cons_self, by decide⟩


theorem witness_SessionsOpenAndDiscovery_6 : ∃ (p : PortId) (own addr : Bytes) (uport seq : Nat) (s : State),
    (own ∈ ownAddresses s p) ∧
    (listens s p = true) ∧
    (seq < 2 ^ 32) :=
  ⟨(1), (linkLocal 1), ([1]), (9), (0), (up), List.mem_cons_self, by decide⟩


theorem witness_SessionsOpenAndDiscovery_7 : ∃ (q : Discovery) (rest : List Discovery) (s : State),
    (s.dict.discoveries = q :: rest) ∧
    (q.own ≠ announceGroup) :=
  ⟨({ port := 1, own := [2], addr := [], uport := 3, tick := 0 }), ([]), ({ up with dict := { up.dict with discoveries := [{ port := 1, own := [2], addr := [], uport := 3, tick := 0 }] } }), by decide⟩


theorem witness_SessionsOpenAndDiscovery_8 : ∃ (q : Discovery) (rest : List Discovery) (s : State),
    (s.dict.discoveries = q :: rest) ∧
    (q.own = announceGroup) :=
  ⟨({ port := 1, own := announceGroup, addr := [], uport := 3, tick := 0 }), ([]), ({ up with dict := { up.dict with discoveries := [{ port := 1, own := announceGroup, addr := [], uport := 3, tick := 0 }] } }), by decide⟩


theorem witness_SessionsOpenAndDiscovery_9 : ∃ s : State,
    (s.fw.booted = true) ∧
    (cfg s 0x1100 9 = 1) ∧
    (s.dict.announced.all (fun t => passed s t (msTicks 990)) = true) ∧
    (s.ports.mdioUp = Vector.replicate 2 true) ∧
    (cfg s 0x1100 1 = 1) ∧
    (cfg s 0x1100 2 = 1) :=
  ⟨({ up with ports := { up.ports with mdioUp := Vector.replicate 2 true } }), by decide⟩


theorem witness_IdleSessionCloses_1 : ∃ (slot : Fin 8) (x : Session) (s : State),
    (s.dict.sessions[slot] = some x) ∧
    (passed s x.last (secTicks (cfg s 0x1100 0xB)) = true) :=
  ⟨(0), (aSession), ({ inSessionState with ticks := 2 ^ 45 }), by decide⟩


theorem witness_IdleSessionCloses_2 : ∃ (slot : Fin 8) (x : Session) (s : State),
    (s.dict.sessions[slot] = some x) ∧
    (passed s x.last (secTicks (cfg s 0x1100 0xB)) = false) :=
  ⟨(0), (aSession), (inSessionState), by decide⟩


theorem witness_SessionFramesAndWrites_1 : ∃ (p : PortId) (own addr body : Bytes) (uport seq : Nat) (slot : Fin 8) (x : Session) (s : State),
    (own ∈ ownAddresses s p) ∧
    (hears s p slot x seq body = true) :=
  ⟨(0), (linkLocal 0), ([]), ([]), (9), (2), (0), (aSession), (inSessionState), List.mem_cons_self, by decide⟩


theorem witness_SessionFramesAndWrites_2 : ∃ (p : PortId) (own addr v : Bytes) (uport seq index sub : Nat) (slot : Fin 8) (x : Session) (s : State),
    (own ∈ ownAddresses s p) ∧
    (hears s p slot x seq [] = true) ∧
    (index < 65536) ∧
    (sub < 256) ∧
    (0 < v.length) ∧
    (v.length ≤ 1180) ∧
    (readAccess (heard s p own addr uport slot x seq) (.session slot) index sub = .ok v) :=
  ⟨(0), (linkLocal 0), ([]), ([1]), (9), (2), (0x1100), (1), (0), (aSession), (inSessionState), List.mem_cons_self, by decide, by decide, by decide, by decide, by decide, by decide +kernel⟩


theorem witness_SessionFramesAndWrites_3 : ∃ (p : PortId) (own addr : Bytes) (uport seq k : Nat) (slot : Fin 8) (x : Session) (s : State),
    (own ∈ ownAddresses s p) ∧
    (hears s p slot x seq [] = true) ∧
    (k < 2 ^ 32) :=
  ⟨(0), (linkLocal 0), ([]), (9), (2), (4), (0), (aSession), (inSessionState), List.mem_cons_self, by decide⟩


theorem witness_SessionFramesAndWrites_4 : ∃ (slot : Fin 8) (x : Session) (w : EventWait) (s : State),
    (s.dict.sessions[slot] = some x) ∧
    (s.dict.eventWaits = [w]) ∧
    (w.slot = slot.val) ∧
    (passed s w.tick (msTicks 500) = true) ∧
    (w.sends < 5) :=
  ⟨(0), (aSession), ({ slot := 0, seq := 4, body := [], sends := 1, tick := 0 }), ({ inSessionState with ticks := 2 ^ 40 }), by decide⟩


theorem witness_SessionFramesAndWrites_5 : ∃ (slot : Fin 8) (w : EventWait) (s : State),
    (s.dict.eventWaits = [w]) ∧
    (w.slot = slot.val) ∧
    (passed s w.tick (msTicks 500) = true) ∧
    (5 ≤ w.sends) :=
  ⟨(0), ({ slot := 0, seq := 4, body := [], sends := 5, tick := 0 }), ({ inSessionState with ticks := 2 ^ 40, dict := { inSessionState.dict with eventWaits := [{ slot := 0, seq := 4, body := [], sends := 5, tick := 0 }] } }), by decide⟩


theorem witness_SessionFramesAndWrites_6 : ∃ (p : PortId) (own addr v : Bytes) (uport seq index sub : Nat) (slot : Fin 8) (x : Session) (s : State),
    (own ∈ ownAddresses s p) ∧
    (hears s p slot x seq (List.replicate 12 0 ++ v) = true) ∧
    (index < 65536) ∧
    (sub < 256) ∧
    (plainEntry index sub = true) ∧
    (heldOf s (.session x.number) index sub = none) ∧
    (needsAck s = false) ∧
    (writePasses (heard s p own addr uport slot x seq) (.session slot) index sub v = true) :=
  ⟨(0), (linkLocal 0), ([]), ([30]), (9), (2), (0x4030), (2), (0), (aSession), (inSessionState), List.mem_cons_self, by decide⟩


theorem witness_SessionFramesAndWrites_7 : ∃ (p : PortId) (own addr b : Bytes) (uport seq : Nat) (l : List Put) (scratch : State) (slot : Fin 8) (x : Session) (s : State),
    (own ∈ ownAddresses s p) ∧
    (hears s p slot x seq ([0, 0, 0, 0] ++ b) = true) ∧
    (needsAck s = false) ∧
    (l.length < 256) ∧
    (batchPuts l.length b = .ok l) ∧
    ((∀ q ∈ l, plainEntry q.index q.sub = true)) ∧
    ((l.map (fun q => regKey q.index q.sub)).Nodup) ∧
    (checkPuts (.session slot) false l 1 (heard s p own addr uport slot x seq) = .ok scratch) ∧
    (consistPuts scratch l 1 = none) :=
  ⟨(0), (linkLocal 0), ([]), (toLE 2 0x4030 ++ [2, 0] ++ toLE 2 1 ++ [30, 0]), (9), (2), ([{ index := 0x4030, sub := 2, value := [30] }]), (store 0x4030 2 [30] (heard inSessionState 0 (linkLocal 0) [] 9 0 aSession 2)), (0), (aSession), (inSessionState), List.mem_cons_self, by decide, by decide, by decide, by rfl, by decide, by decide, by rfl, by decide⟩


theorem witness_SessionFramesAndWrites_8 : ∃ (p : PortId) (own addr b : Bytes) (uport seq k : Nat) (slot : Fin 8) (x : Session) (s : State),
    (own ∈ ownAddresses s p) ∧
    (hears s p slot x seq ([0, 0, 0, 0] ++ b) = true) ∧
    (k < 256) ∧
    ((k = 0 ∨ 32 < k)) :=
  ⟨(0), (linkLocal 0), ([]), ([]), (9), (2), (33), (0), (aSession), (inSessionState), List.mem_cons_self, by decide⟩


theorem witness_SessionFramesAndWrites_9 : ∃ (p : PortId) (own addr b : Bytes) (uport seq e k : Nat) (l : List Put) (slot : Fin 8) (x : Session) (s : State),
    (own ∈ ownAddresses s p) ∧
    (hears s p slot x seq ([0, 0, 0, 0] ++ b) = true) ∧
    (l.length < 256) ∧
    (batchPuts l.length b = .ok l) ∧
    ((∀ q ∈ l, plainEntry q.index q.sub = true)) ∧
    (checkPuts (.session slot) false l 1 (heard s p own addr uport slot x seq) = .error (e, k)) :=
  ⟨(0), (linkLocal 0), ([]), (toLE 2 0x4030 ++ [2, 0] ++ toLE 2 1 ++ [10, 0]), (9), (2), (0x0301), (1), ([{ index := 0x4030, sub := 2, value := [10] }]), (0), (aSession), (inSessionState), List.mem_cons_self, by decide, by decide, by rfl, by decide, by rfl⟩


theorem witness_RefusedWriteChangesNothing_1 : ∃ (who : Who) (index sub e : Nat) (v : Bytes) (s : State),
    (ownBehaviour index sub = false) ∧
    (writeChecks s who index sub v = .error e) :=
  ⟨(.nvme 0), (0x1234), (1), (0x0101), ([]), (up), by decide, by rfl⟩


theorem witness_RefusedWriteChangesNothing_2 : ∃ (who : Who) (index sub : Nat) (v : Bytes) (en : Entry) (s : State),
    (ownBehaviour index sub = false) ∧
    (who ≠ .peer) ∧
    (writeChecks s who index sub v = .ok en) ∧
    (consistent (store index sub v s) index sub = false) :=
  ⟨(.nvme 0), (0x4030), (2), ([20]), (e 2 .u8 1 .rwp .none (.nat 20 200) (.num 60)), (store 0x4030 1 [40] up), by decide, by decide, by rfl, by decide⟩


theorem witness_AcceptedWriteTakesForce_1 : ∃ (who : Who) (index sub : Nat) (v : Bytes) (s : State),
    (plainEntry index sub = true) ∧
    (writePasses s who index sub v = true) ∧
    (needsAck s = false) ∧
    (index < 65536) ∧
    (sub < 256) :=
  ⟨(.nvme 0), (0x4030), (2), ([30]), (up), by decide⟩


theorem witness_AcceptedWriteTakesForce_2 : ∃ (index sub : Nat) (v : Bytes) (en : Entry) (s : State),
    (plainEntry index sub = true) ∧
    (writeChecks s .peer index sub v = .ok en) ∧
    (needsAck s = false) ∧
    (index < 65536) ∧
    (sub < 256) :=
  ⟨(0x4030), (2), ([20]), (e 2 .u8 1 .rwp .none (.nat 20 200) (.num 60)), (store 0x4030 1 [40] up), by decide, by rfl, by decide, by decide, by decide⟩


theorem witness_DictionaryOverNvme_1 : ∃ (c : CmdId) (index sub : Nat) (v : Bytes) (s : State),
    (adminOpen s c = true) ∧
    (index < 65536) ∧
    (sub < 256) ∧
    (plainEntry index sub = true) ∧
    (heldOf s (.queue c.ctrl 0) index sub = none) ∧
    (writePasses (taken s c 0xC1) (.nvme c.ctrl) index sub v = true) :=
  ⟨({ ctrl := 1, sq := 0, cid := 7 }), (0x4030), (2), ([30]), (hostUp), by decide⟩


theorem witness_DictionaryOverNvme_2 : ∃ (c : CmdId) (index sub len : Nat) (v : Bytes) (s : State),
    (adminOpen s c = true) ∧
    (index < 65536) ∧
    (sub < 256) ∧
    (0 < v.length) ∧
    (readAccess (taken s c 0xC2) (.nvme c.ctrl) index sub = .ok v) ∧
    (v.length ≤ len) ∧
    (v.length ≤ 65536) :=
  ⟨({ ctrl := 1, sq := 0, cid := 7 }), (0x4030), (2), (9), ([60]), (hostUp), by decide, by decide, by decide, by decide, by rfl, by decide, by decide⟩


theorem witness_DictionaryOverNvme_3 : ∃ (c : CmdId) (b : Bytes) (l : List Put) (scratch : State) (s : State),
    (adminOpen s c = true) ∧
    (batchPuts l.length b = .ok l) ∧
    ((∀ q ∈ l, plainEntry q.index q.sub = true)) ∧
    ((l.map (fun q => regKey q.index q.sub)).Nodup) ∧
    (checkPuts (.nvme c.ctrl) false l 1 (taken s c 0xC5) = .ok scratch) ∧
    (consistPuts scratch l 1 = none) :=
  ⟨({ ctrl := 1, sq := 0, cid := 7 }), (toLE 2 0x4030 ++ [2, 0] ++ toLE 2 1 ++ [30, 0]), ([{ index := 0x4030, sub := 2, value := [30] }]), (store 0x4030 2 [30] (taken hostUp { ctrl := 1, sq := 0, cid := 7 } 0xC5)), (hostUp), by decide, by rfl, by decide, by decide, by rfl, by decide⟩


theorem witness_DictionaryOverNvme_4 : ∃ (c : CmdId) (k : Nat) (data : HostData) (s : State),
    (adminOpen s c = true) ∧
    ((k = 0 ∨ 32 < k)) :=
  ⟨({ ctrl := 1, sq := 0, cid := 7 }), (0), (.failed 4), (hostUp), by decide⟩


theorem witness_KeySlotsAndRoles_1 : ∃ (who : Who) (n : Fin 8) (v : Bytes) (s : State),
    (writePasses s who 0x1110 (n.val + 1) v = true) ∧
    (needsAck s = false) ∧
    (v ≠ []) :=
  ⟨(.nvme 0), (0), (List.replicate 32 9), (inSessionState), by decide⟩


theorem witness_KeySlotsAndRoles_2 : ∃ (who : Who) (n : Fin 8) (s : State),
    (writePasses s who 0x1111 (n.val + 1) [0] = true) ∧
    (needsAck s = false) :=
  ⟨(.nvme 0), (0), ({ inSessionState with dict := { inSessionState.dict with keys := inSessionState.dict.keys.set 0 (some [1]) } }), by decide⟩


theorem witness_KeySlotsAndRoles_3 : ∃ (who : Who) (n : Fin 8) (v : Bytes) (s : State),
    (writePasses s who 0x1111 (n.val + 1) v = true) ∧
    (needsAck s = false) ∧
    (fromLE v ≠ 0) :=
  ⟨(.nvme 0), (3), ([2]), (inSessionState), by decide⟩


theorem witness_SavesAndDefaults_1 : ∃ (who : Who) (v : Bytes) (s : State),
    (writePasses s who 0x2000 2 v = true) ∧
    (needsAck s = false) ∧
    (s.conf.save = none) :=
  ⟨(.nvme 0), (toLE 4 0x53415645), (up), by decide⟩


theorem witness_SavesAndDefaults_2 : ∃ (who : Who) (v : Bytes) (r : SaveRun) (s : State),
    (writePasses s who 0x2000 2 v = true) ∧
    (s.conf.save = some r) :=
  ⟨(.nvme 0), (toLE 4 0x53415645), ({ copy := false, image := [], tick := 0, reply := .peer 1 }), ({ up with conf := { up.conf with save := some { copy := false, image := [], tick := 0, reply := .peer 1 } } }), by decide⟩


theorem witness_SavesAndDefaults_3 : ∃ (r : SaveRun) (s : State),
    s.conf.save = some r :=
  ⟨({ copy := true, image := [], tick := 0, reply := .record (.nvme 0) 0x2000 2 }), ({ up with conf := { up.conf with save := some { copy := true, image := [], tick := 0, reply := .record (.nvme 0) 0x2000 2 } } }), by decide⟩


theorem witness_SavesAndDefaults_4 : ∃ (r : SaveRun) (s : State),
    s.conf.save = some r :=
  ⟨({ copy := true, image := [], tick := 0, reply := .record (.nvme 0) 0x2000 2 }), ({ up with conf := { up.conf with save := some { copy := true, image := [], tick := 0, reply := .record (.nvme 0) 0x2000 2 } } }), by decide⟩


theorem witness_SavesAndDefaults_6 : ∃ (ok : Bool) (s : State),
    s.conf.save = none :=
  ⟨(true), (up), by decide⟩


theorem witness_SavesAndDefaults_7 : ∃ (who : Who) (v : Bytes) (s : State),
    (writePasses s who 0x2000 4 v = true) ∧
    (needsAck s = false) :=
  ⟨(.nvme 0), (toLE 4 0x46414354), ({ up with power := { up.power with unit := 1 } }), by decide⟩


theorem witness_SavesAndDefaults_8 : ∃ (index sub : Nat) (en : Entry) (s : State),
    (sub < 256) ∧
    (findEntry index sub = some en) ∧
    (en.acc = .rwp) ∧
    (isComm index = false) :=
  ⟨(0x4030), (2), (e 2 .u8 1 .rwp .none (.nat 20 200) (.num 60)), (store 0x4030 2 [1] up), by decide, by rfl, by decide, by decide⟩


theorem witness_PickupComesAndGoes_1 : ∃ (n : LaneId) (p d c : Bool) (s : State),
    s.power.unit ≠ 2 :=
  ⟨(6), (true), (false), (true), (State.reset), by decide⟩


theorem witness_PickupComesAndGoes_2 : ∃ (n : LaneId) (s : State),
    (laneAt s n).life.presence.settled s.ticks = false :=
  ⟨(6), (State.reset), by decide⟩


theorem witness_PickupComesAndGoes_3 : ∃ (n : LaneId) (s : State),
    (s.power.unit ≠ 2) ∧
    ((laneAt s n).life.presence.settled s.ticks = true) ∧
    ((laneAt s n).life.presence.raw = true) :=
  ⟨(6), ({ laneWith 6 (fun l => { l with life := { l.life with presence := { raw := true, since := 0, stable := false } } }) with ticks := 240000000 }), by decide⟩


theorem witness_PickupComesAndGoes_4 : ∃ (n : LaneId) (p : Pickup) (s : State),
    (s.power.unit ≠ 2) ∧
    ((laneAt s n).life.presence.settled s.ticks = true) ∧
    ((laneAt s n).life.presence.raw = false) ∧
    ((laneAt s n).spin.phase = 0) ∧
    ((laneAt s n).life.pickup = some p) :=
  ⟨(6), ({ serial := [65, 32], cls := 1, image := [] }), ({ laneWith 6 (fun l => { l with life := { l.life with presence := { raw := false, since := 0, stable := true }, st := .parked, pickup := some { serial := [65, 32], cls := 1, image := [] } } }) with ticks := 240000000 }), by decide⟩


theorem witness_PickupComesAndGoes_5 : ∃ (n : LaneId) (s : State),
    (laneAt s n).life.arriving = true :=
  ⟨(6), (laneWith 6 (fun l => { l with life := { l.life with arriving := true } })), by decide⟩


theorem witness_PickupComesAndGoes_6 : ∃ (n : LaneId) (b : Bytes) (temp : Int) (k : Nat) (s : State),
    ((laneAt s n).life.arriving = true) ∧
    (idReason s b = some k) :=
  ⟨(6), ([]), (250), (2), (laneWith 6 (fun l => { l with life := { l.life with arriving := true } })), by decide⟩


theorem witness_PickupComesAndGoes_7 : ∃ (n : LaneId) (b : Bytes) (temp : Int) (s : State),
    ((laneAt s n).life.arriving = true) ∧
    (idReason s b = none) :=
  ⟨(6), (goodImage), (250), (store 0x6080 1 [1, 0] (laneWith 6 (fun l => { l with life := { l.life with arriving := true } }))), by decide, by decide +kernel⟩


theorem witness_LinksTrainAndRetry_1 : ∃ (n : LaneId) (laser : Bool) (s : State),
    ((if laser then (laneAt s n).links.laserTraining else (laneAt s n).links.driveTraining) = true) ∧
    ((laneAt s n).life.st ≠ .fault) :=
  ⟨(6), (true), ({ laneWith 6 (fun l => { l with links := { l.links with laserTraining := true } }) with ticks := 960000 }), by decide⟩


theorem witness_LinksTrainAndRetry_2 : ∃ (n : LaneId) (s : State),
    ((laneAt s n).links.laserTraining = true) ∧
    ((laneAt s n).links.driveTrained = true) ∧
    (mayLeaveOff s n = true) ∧
    ((laneAt s n).life.homing = false) :=
  ⟨(6), (laneWith 6 (fun l => { l with links := { l.links with laserTraining := true, driveTrained := true }, life := { l.life with pickup := some { serial := [], cls := 0, image := [] } } })), by decide⟩


theorem witness_LinksTrainAndRetry_3 : ∃ (n : LaneId) (laser : Bool) (s : State),
    ((if laser then (laneAt s n).links.laserTraining else (laneAt s n).links.driveTraining) = true) ∧
    ((laneAt s n).life.st ≠ .fault) ∧
    (passed s (if laser then (laneAt s n).links.laserFrom else (laneAt s n).links.driveFrom) (msTicks 1) = true) ∧
    ((if laser then (laneAt s n).links.laserTries else (laneAt s n).links.driveTries) < 3) :=
  ⟨(6), (false), (ticking (2 ^ 40) 6 (fun l => { l with links := { l.links with driveTraining := true, driveTries := 2 } })), by decide⟩


theorem witness_LinksTrainAndRetry_4 : ∃ (n : LaneId) (laser : Bool) (s : State),
    ((if laser then (laneAt s n).links.laserTraining else (laneAt s n).links.driveTraining) = true) ∧
    ((laneAt s n).life.st ≠ .fault) ∧
    (passed s (if laser then (laneAt s n).links.laserFrom else (laneAt s n).links.driveFrom) (msTicks 1) = true) ∧
    (3 ≤ (if laser then (laneAt s n).links.laserTries else (laneAt s n).links.driveTries)) :=
  ⟨(6), (false), (ticking (2 ^ 40) 6 (fun l => { l with links := { l.links with driveTraining := true, driveTries := 3 } })), by decide⟩


theorem witness_LinksTrainAndRetry_5 : ∃ (n : LaneId) (laser : Bool) (s : State),
    ((if laser then (laneAt s n).links.laserTraining else (laneAt s n).links.driveTraining) = true) ∧
    ((laneAt s n).life.st = .fault) ∧
    (passed s (if laser then (laneAt s n).links.laserFrom else (laneAt s n).links.driveFrom) (msTicks 1) = true) :=
  ⟨(6), (true), (ticking (2 ^ 40) 6 (fun l => { l with links := { l.links with laserTraining := true }, life := { l.life with st := .fault } })), by decide⟩


theorem witness_LinksTrainAndRetry_6 : ∃ (n : LaneId) (laser : Bool) (s : State),
    (if laser then (laneAt s n).links.laserTraining else (laneAt s n).links.driveTraining) = false :=
  ⟨(6), (true), (up), by decide⟩


theorem witness_LinksTrainAndRetry_7 : ∃ (n : LaneId) (laser : Bool) (t0 : Nat) (s : State),
    ((laneAt s n).links.retrainAt = some t0) ∧
    ((laneAt s n).life.st = .fault) ∧
    ((laneAt s n).flt.latched = false) ∧
    ((laneAt s n).links.driveTrained = false) ∧
    ((laneAt s n).links.driveTraining = false) ∧
    ((laneAt s n).links.laserTrained = false) ∧
    ((laneAt s n).links.laserTraining = false) ∧
    (passed s t0 (msTicks 100) = true) :=
  ⟨(6), (true), (0), ({ laneWith 6 (fun l => { l with links := { l.links with retrainAt := some 0 }, life := { l.life with st := .fault } }) with ticks := 480000000 }), by decide⟩


theorem witness_HomingAndTemperature_1 : ∃ (n : LaneId) (s : State),
    ((laneAt s n).life.homing = true) ∧
    (sledStalled s n = true) :=
  ⟨(6), (laneWith 6 (fun l => { l with life := { l.life with homing := true }, sled := { l.sled with homeSteps := 16, loads := [512, 0, 0, 0, 0, 0, 0, 0, 0] } })), by decide⟩


theorem witness_HomingAndTemperature_2 : ∃ (n : LaneId) (s : State),
    sledStalled s n = false :=
  ⟨(6), (laneWith 6 (fun l => { l with life := { l.life with homing := true } })), by decide⟩


theorem witness_HomingAndTemperature_3 : ∃ (n : LaneId) (s : State),
    ((laneAt s n).life.homing = true) ∧
    (2667 ≤ (laneAt s n).sled.homeSteps) ∧
    ((laneAt s n).life.st = .off) ∧
    (noFault (laneAt s n) = true) ∧
    ((laneAt s n).flt.completions.length < 64) :=
  ⟨(6), (laneWith 6 (fun l => { l with life := { l.life with homing := true }, sled := { l.sled with homeSteps := 2667 } })), by decide⟩


theorem witness_HomingAndTemperature_4 : ∃ (n : LaneId) (s : State),
    (laneAt s n).life.homing = false :=
  ⟨(6), (State.reset), by decide⟩


theorem witness_HomingAndTemperature_5 : ∃ (n : LaneId) (temp : Int) (s : State),
    (laneAt s n).life.st ≠ .off :=
  ⟨(6), (300), (laneWith 6 (fun l => { l with life := { l.life with st := .parked } })), by decide⟩


theorem witness_HomingAndTemperature_6 : ∃ (n : LaneId) (temp : Int) (s : State),
    (laneAt s n).life.st = .off :=
  ⟨(6), (300), (State.reset), by decide⟩


theorem witness_DiscsComeGoAndAreRead_1 : ∃ (n : LaneId) (s : State),
    (s.power.unit ≠ 2) ∧
    ((laneAt s n).life.disc.settled s.ticks = true) ∧
    ((laneAt s n).life.disc.raw = true) ∧
    ((laneAt s n).life.clamp.settled s.ticks = false) ∧
    ((laneAt s n).life.clamp.stable = true) ∧
    ((laneAt s n).life.discKnown = false) ∧
    ((laneAt s n).life.st ≠ .off) :=
  ⟨(6), ({ laneWith 6 (fun l => { l with life := { l.life with st := .parked, disc := { raw := true, since := 0, stable := false }, clamp := { raw := true, since := 0, stable := true } } }) with ticks := 240000000 }), by decide⟩


theorem witness_DiscsComeGoAndAreRead_2 : ∃ (n : LaneId) (s : State),
    (s.power.unit ≠ 2) ∧
    ((laneAt s n).life.disc.settled s.ticks = true) ∧
    ((laneAt s n).life.disc.raw = false) ∧
    ((laneAt s n).life.clamp.stable = true) :=
  ⟨(6), ({ laneWith 6 (fun l => { l with life := { l.life with st := .parked, disc := { raw := false, since := 0, stable := true }, clamp := { raw := true, since := 0, stable := true } } }) with ticks := 240000000 }), by decide⟩


theorem witness_DiscsComeGoAndAreRead_3 : ∃ (n : LaneId) (s : State),
    ((laneAt s n).life.disc.settled s.ticks = false) ∧
    ((laneAt s n).life.clamp.settled s.ticks = false) :=
  ⟨(6), (State.reset), by decide⟩


theorem witness_DiscsComeGoAndAreRead_4 : ∃ (n : LaneId) (s : State),
    ((laneAt s n).life.st = .ready) ∧
    ((laneAt s n).life.ramping = false) ∧
    (atExtentBoundary (laneAt s n) = true) ∧
    (clamped (laneAt s n) = true) ∧
    (leadInDue s n = true) ∧
    ((laneAt s n).life.layer = some 0) ∧
    (standsAt (laneAt s n) 220 = true) ∧
    (readable s n = true) :=
  ⟨(6), (held (laneWith 6 (fun l => { l with spin := { l.spin with atSpeed := true }, life := { l.life with st := .ready, layer := some 0, band := some 220, disc := { raw := true, since := 0, stable := true }, clamp := { raw := true, since := 0, stable := true } } }))), by decide⟩


theorem witness_DiscsComeGoAndAreRead_5 : ∃ (n : LaneId) (s : State),
    ((laneAt s n).life.st = .ready) ∧
    ((laneAt s n).life.ramping = false) ∧
    (atExtentBoundary (laneAt s n) = true) ∧
    (clamped (laneAt s n) = true) ∧
    (leadInDue s n = true) ∧
    (((laneAt s n).life.layer ≠ some 0 ∨ standsAt (laneAt s n) 220 = false)) :=
  ⟨(6), (laneWith 6 (fun l => { l with life := { l.life with st := .ready, layer := some 3, band := some 221, targetLayer := 3, disc := { raw := true, since := 0, stable := true }, clamp := { raw := true, since := 0, stable := true } } })), by decide⟩


theorem witness_DiscsComeGoAndAreRead_6 : ∃ (n : LaneId) (r : LeadIn) (s : State),
    ((laneAt s n).life.st = .reading) ∧
    ((laneAt s n).life.leadIn = .reading) ∧
    (creating s n = none) ∧
    (leadBlocks r = none) :=
  ⟨(6), ({ primary := [none], backup := [], epoch := 0 }), (laneWith 6 (fun l => { l with life := { l.life with st := .reading, leadIn := .reading } })), by decide⟩


theorem witness_DiscsComeGoAndAreRead_7 : ∃ (n : LaneId) (r : LeadIn) (bs : List Bytes) (s : State),
    ((laneAt s n).life.st = .reading) ∧
    ((laneAt s n).life.leadIn = .reading) ∧
    (creating s n = none) ∧
    (leadBlocks r = some bs) ∧
    (mediaOk (discFrom bs r).media = true) :=
  ⟨(6), ({ primary := [some aBlock], backup := [], epoch := 0 }), ([aBlock]), (laneWith 6 (fun l => { l with life := { l.life with st := .reading, leadIn := .reading } })), by decide⟩


theorem witness_VolumesAndTeams_1 : ∃ (who : Who) (u : TeamId) (v : Bytes) (s : State),
    (writePasses s who (teamIdx u 0) 1 v = true) ∧
    (needsAck s = false) :=
  ⟨(.nvme 0), (9), ([0, 0, 0, 0]), ({ up with power := { up.power with unit := 1 } }), by decide⟩


theorem witness_VolumesAndTeams_2 : ∃ (u : TeamId) (cause : Option LaneId) (s : State),
    (teamAt s u).creation = none :=
  ⟨(2), (none), (up), by decide⟩


theorem witness_VolumesAndTeams_3 : ∃ (who : Who) (u : TeamId) (v : Bytes) (s : State),
    (writePasses s who (teamIdx u 0) 5 v = true) ∧
    (needsAck s = false) ∧
    ((teamAt s u).st = .blank) ∧
    ((teamAt s u).creation = none) :=
  ⟨(.nvme 0), (2), (toLE 4 1313167190), (setTeam 2 (fun x => { x with st := .blank }) up), by decide⟩


theorem witness_VolumesAndTeams_4 : ∃ (who : Who) (u : TeamId) (v : Bytes) (s : State),
    (writePasses s who (teamIdx u 0) 5 v = true) ∧
    ((teamAt s u).st ≠ .blank) :=
  ⟨(.nvme 0), (2), (toLE 4 1313167190), (up), by decide⟩


theorem witness_VolumesAndTeams_5 : ∃ (u : TeamId) (c : Creation) (s : State),
    ((teamAt s u).creation = some c) ∧
    ((membersOf s u).all (fun n => c.readBack.contains n) = true) :=
  ⟨(30), ({ volume := [1], written := [], readBack := [] }), (setTeam 30 (fun x => { x with creation := some { volume := [1], written := [], readBack := [] } }) up), by decide⟩


theorem witness_VolumesAndTeams_6 : ∃ (u : TeamId) (c : Creation) (s : State),
    ((teamAt s u).creation = some c) ∧
    ((membersOf s u).all (fun n => c.readBack.contains n) = false) :=
  ⟨(2), ({ volume := [1], written := [], readBack := [] }), (setTeam 2 (fun x => { x with creation := some { volume := [1], written := [], readBack := [] } }) up), by decide⟩


theorem witness_WriteSessionsClose_1 : ∃ (n : LaneId) (d : Disc) (s : State),
    ((laneAt s n).disc = some d) ∧
    (d.openEpoch ≠ 0) ∧
    (d.scanDue = false) ∧
    (d.closeDue = none) ∧
    (readyUp (laneAt s n).life.st = true) :=
  ⟨(6), ({ Disc.fresh with openEpoch := 1 }), (laneWith 6 (fun l => { l with life := { l.life with st := .ready }, disc := some { Disc.fresh with openEpoch := 1 } })), by decide⟩


theorem witness_WriteSessionsClose_2 : ∃ (n : LaneId) (d : Disc) (k layer slot tr : Nat) (v : List VerifyRead) (s : State),
    ((laneAt s n).disc = some d) ∧
    (d.closeDue = some k) ∧
    (creating s n = none) ∧
    (d.primaryDone = false) ∧
    (d.usedPrimary < leadRoom) ∧
    (leadSlot false d.usedPrimary = (layer, slot, tr)) ∧
    (readyUp (laneAt s n).life.st = true) ∧
    ((laneAt s n).wr.pass = none) ∧
    (laneReading (laneAt s n) = false) ∧
    ((laneAt s n).life.ramping = false) ∧
    ((laneAt s n).life.layer = some layer) ∧
    (standsAt (laneAt s n) (leadPlace (72 * slot)).1 = true) ∧
    (mayRecord (slowForWrite n s) n = true) ∧
    (framedAt (laneAt s n).wr layer (leadPlace (72 * slot)).1 (leadPlace (72 * slot)).2 0 = true) :=
  ⟨(6), (closing), (0), (0), (0), (0), (List.replicate 72 goodVerify), (atLead closing 0), by decide⟩


theorem witness_WriteSessionsClose_3 : ∃ (n : LaneId) (d : Disc) (k layer slot tr : Nat) (v : List VerifyRead) (s : State),
    ((laneAt s n).disc = some d) ∧
    (d.closeDue = some k) ∧
    (creating s n = none) ∧
    (d.primaryDone = true) ∧
    (d.usedBackup < leadRoom) ∧
    (leadSlot true d.usedBackup = (layer, slot, tr)) ∧
    (readyUp (laneAt s n).life.st = true) ∧
    ((laneAt s n).wr.pass = none) ∧
    (laneReading (laneAt s n) = false) ∧
    ((laneAt s n).life.ramping = false) ∧
    ((laneAt s n).life.layer = some layer) ∧
    (standsAt (laneAt s n) (leadPlace (72 * slot)).1 = true) ∧
    (mayRecord (slowForWrite n s) n = true) ∧
    (framedAt (laneAt s n).wr layer (leadPlace (72 * slot)).1 (leadPlace (72 * slot)).2 0 = true) :=
  ⟨(6), ({ closing with primaryDone := true }), (0), (7), (0), (0), (List.replicate 72 goodVerify), (atLead { closing with primaryDone := true } 7), by decide⟩


theorem witness_WriteSessionsClose_4 : ∃ (n : LaneId) (d : Disc) (s : State),
    ((laneAt s n).disc = some d) ∧
    (d.scanDue = true) ∧
    (readyUp (laneAt s n).life.st = true) :=
  ⟨(6), ({ Disc.fresh with scanDue := true }), (laneWith 6 (fun l => { l with life := { l.life with st := .ready }, disc := some { Disc.fresh with scanDue := true } })), by decide⟩


theorem witness_WriteSessionsClose_5 : ∃ (n : LaneId) (d : Disc) (r : ScanRead) (s : State),
    ((laneAt s n).disc = some d) ∧
    (d.scanDue = true) ∧
    (d.closeDue = none) ∧
    (readyUp (laneAt s n).life.st = true) ∧
    ((laneAt s n).wr.pass = none) ∧
    (laneReading (laneAt s n) = false) :=
  ⟨(6), ({ Disc.fresh with scanDue := true, seenEpoch := 3 }), ({ slots := [(0, 1, [{ decodes := true, epoch := 3, extent := 1 }, { decodes := false, epoch := 3, extent := 1 }])], copies := [{ psa := 7, epoch := 3, extent := 1, sector := 4 }], units := [(2, 5)] }), (laneWith 6 (fun l => { l with life := { l.life with st := .ready }, disc := some { Disc.fresh with scanDue := true, seenEpoch := 3 } })), by decide⟩


theorem witness_LanesStartAndGetToSpeed_1 : ∃ (n : LaneId) (s : State),
    (maySpin s n = true) ∧
    ((laneAt s n).life.spinning = false) ∧
    (starting s (segOf n) < cfg s 0x2200 6) ∧
    ((laneAt s n).flt.orders.length < 64) :=
  ⟨(6), (parkedDisc), by decide⟩


theorem witness_LanesStartAndGetToSpeed_2 : ∃ (n : LaneId) (s : State),
    (maySpin s n = true) ∧
    ((laneAt s n).life.spinning = false) ∧
    (cfg s 0x2200 6 ≤ starting s (segOf n)) :=
  ⟨(6), (store 0x2200 6 [0] parkedDisc), by decide⟩


theorem witness_LanesStartAndGetToSpeed_3 : ∃ (n : LaneId) (s : State),
    maySpin s n = false :=
  ⟨(6), (State.reset), by decide⟩


theorem witness_LanesStartAndGetToSpeed_4 : ∃ (n : LaneId) (s : State),
    ((laneAt s n).spin.phase = 3) ∧
    (480 ≤ (laneAt s n).spin.near) ∧
    ((laneAt s n).spin.atSpeed = false) ∧
    ((laneAt s n).life.st = .parked) ∧
    ((laneAt s n).life.spinning = true) ∧
    (needMv s 0 ≤ s.coreMv) :=
  ⟨(6), (laneWith 6 (fun l => { l with life := { l.life with st := .parked, spinning := true }, spin := { l.spin with phase := 3, near := 480 } })), by decide⟩


theorem witness_LanesStartAndGetToSpeed_5 : ∃ (n : LaneId) (s : State),
    ((laneAt s n).life.st = .parked) ∧
    ((laneAt s n).life.spinning = true) ∧
    (s.coreMv < needMv s 0) :=
  ⟨(6), ({ laneWith 6 (fun l => { l with life := { l.life with st := .parked, spinning := true }, spin := { l.spin with phase := 3, near := 480 } }) with coreMv := 0 }), by decide⟩


theorem witness_FocusLayersAndBands_1 : ∃ (n : LaneId) (peaks : List Nat) (position : Int) (s : State),
    ((laneAt s n).life.st = .spun) ∧
    ((laneAt s n).life.ramping = false) ∧
    ((laneAt s n).loop.closed[0] = false) ∧
    (layerSeen s n peaks = true) :=
  ⟨(6), ([Sys2Proof.Config.surfaceThreshold 0 + 1, 1]), (3), (sweeping), by decide, by decide, by decide, sweep_peak sweeping 6 (by decide) (by decide)⟩


theorem witness_FocusLayersAndBands_2 : ∃ (n : LaneId) (peaks : List Nat) (position : Int) (s : State),
    ((laneAt s n).life.st = .spun) ∧
    ((laneAt s n).life.ramping = false) ∧
    ((laneAt s n).loop.closed[0] = false) ∧
    (layerSeen s n peaks = false) :=
  ⟨(6), ([]), (0), (laneWith 6 (fun l => { l with life := { l.life with st := .spun, sweeps := 2 } })), by decide⟩


theorem witness_FocusLayersAndBands_3 : ∃ (n : LaneId) (peaks : List Nat) (position : Int) (s : State),
    (laneAt s n).life.st ≠ .spun :=
  ⟨(6), ([]), (0), (State.reset), by decide⟩


theorem witness_FocusLayersAndBands_4 : ∃ (n : LaneId) (outward : Bool) (k : Nat) (s : State),
    ((laneAt s n).life.layer = some k) ∧
    ((laneAt s n).loop.closed[0] = true) ∧
    (abovePark (laneAt s n).life.st = true) ∧
    ((laneAt s n).life.ramping = false) ∧
    ((laneAt s n).wr.pass = none) ∧
    (laneReading (laneAt s n) = false) ∧
    ((if outward then k < 7 else 0 < k)) :=
  ⟨(6), (false), (7), (laneWith 6 (fun l => { l with life := { l.life with st := .spun, layer := some 7 }, loop := { l.loop with closed := #v[true, false, false] } })), by decide⟩


theorem witness_FocusLayersAndBands_5 : ∃ (n : LaneId) (outward : Bool) (k : Nat) (s : State),
    ((laneAt s n).life.layer = some k) ∧
    ((laneAt s n).loop.closed[0] = true) ∧
    (abovePark (laneAt s n).life.st = true) ∧
    ((laneAt s n).life.ramping = false) ∧
    ((laneAt s n).wr.pass = none) ∧
    (laneReading (laneAt s n) = false) ∧
    ((if outward then k < 7 else 0 < k)) :=
  ⟨(6), (true), (6), (laneWith 6 (fun l => { l with life := { l.life with st := .spun, layer := some 6 }, loop := { l.loop with closed := #v[true, false, false] } })), by decide⟩


theorem witness_FocusLayersAndBands_6 : ∃ (n : LaneId) (w : WobbleRead) (a : WobbleAddr) (speeds : List Nat) (s : State),
    (mayCapture s n speeds = true) ∧
    (wobbleAddr w.wobbles = some a) ∧
    ((laneAt s n).life.layer = some a.layer) ∧
    (((a.band : Int) - expectedBand (laneAt s n).sled).natAbs ≤ lcfg s n 0xA3 3) ∧
    ((((laneAt s n).life.targetBand : Int) - a.band).natAbs ≤ 32) :=
  ⟨(6), (groove), ({ layer := 3, band := 8, frame := 5, kind := 1 }), (List.replicate 192 0), (capturing 3 20), by decide⟩


theorem witness_FocusLayersAndBands_7 : ∃ (n : LaneId) (w : WobbleRead) (a : WobbleAddr) (speeds : List Nat) (s : State),
    (mayCapture s n speeds = true) ∧
    (wobbleAddr w.wobbles = some a) ∧
    ((laneAt s n).life.layer = some a.layer) ∧
    (lcfg s n 0xA3 3 < ((a.band : Int) - expectedBand (laneAt s n).sled).natAbs) :=
  ⟨(6), (groove), ({ layer := 3, band := 8, frame := 5, kind := 1 }), (List.replicate 192 0), (store (laneIdx 6 0xA3) 3 [7, 0] (capturing 3 20)), by decide⟩


theorem witness_FocusLayersAndBands_8 : ∃ (n : LaneId) (w : WobbleRead) (a : WobbleAddr) (speeds : List Nat) (s : State),
    (mayCapture s n speeds = true) ∧
    (wobbleAddr w.wobbles = some a) ∧
    ((laneAt s n).life.layer ≠ some a.layer) ∧
    ((laneAt s n).life.mismatches < 2) :=
  ⟨(6), (groove), ({ layer := 3, band := 8, frame := 5, kind := 1 }), (List.replicate 192 0), (capturing 4 20), by decide⟩


theorem witness_FocusLayersAndBands_9 : ∃ (n : LaneId) (w : WobbleRead) (speeds : List Nat) (s : State),
    (mayCapture s n speeds = false ∨ wobbleAddr w.wobbles = none) :=
  ⟨(6), ({ groove with wobbles := [] }), (List.replicate 192 0), (capturing 3 20), by decide⟩


theorem witness_FocusLayersAndBands_10 : ∃ (n : LaneId) (w : WobbleRead) (a : WobbleAddr) (s : State),
    ((laneAt s n).loop.closed[1] = true) ∧
    (4 ≤ (laneAt s n).life.st.code) ∧
    ((laneAt s n).life.st.code ≤ 8) ∧
    ((laneAt s n).wr.pass = none) ∧
    (wobbleAddr w.wobbles = some a) ∧
    (a.frame ≠ 0) :=
  ⟨(6), (groove), ({ layer := 3, band := 8, frame := 5, kind := 1 }), (laneWith 6 (fun l => { l with life := { l.life with st := .tracking }, loop := { l.loop with closed := #v[true, true, true] } })), by decide⟩


theorem witness_FocusLayersAndBands_11 : ∃ (n : LaneId) (w : WobbleRead) (s : State),
    (laneAt s n).loop.closed[1] = false :=
  ⟨(6), (groove), (State.reset), by decide⟩


theorem witness_FocusLayersAndBands_12 : ∃ (n : LaneId) (e : List Int) (s : State),
    ((laneAt s n).loop.closed[1] = true) ∧
    (4 ≤ (laneAt s n).life.st.code) ∧
    ((laneAt s n).life.st.code ≤ 8) ∧
    ((e.reverse.take 4).length = 4) ∧
    ((e.reverse.take 4).all (fun x => decide (lcfg s n 0x41 4 < x.natAbs)) = true) :=
  ⟨(6), ([0, 32767, 32767, -32767, 32767]), (laneWith 6 (fun l => { l with life := { l.life with st := .ready }, loop := { l.loop with closed := #v[true, true, true] } })), by decide⟩


theorem witness_FocusLayersAndBands_13 : ∃ (n : LaneId) (e : List Int) (s : State),
    (e.reverse.take 4).all (fun x => decide (lcfg s n 0x41 4 < x.natAbs)) = false :=
  ⟨(6), ([0, 32767, 32767, -32767, 0]), (State.reset), by decide⟩


theorem witness_RunoutIsLearned_1 : ∃ (n : LaneId) (s : State),
    (laneAt s n).loop.runout.spoiled = true :=
  ⟨(6), (State.reset), by decide⟩


theorem witness_RunoutIsLearned_2 : ∃ (n : LaneId) (s : State),
    ((laneAt s n).loop.runout.spoiled = false) ∧
    ((laneAt s n).loop.runout.idxValid = true) ∧
    ((laneAt s n).loop.runout.learning = true) :=
  ⟨(6), (laneWith 6 (fun l => { l with loop := { l.loop with runout := { l.loop.runout with spoiled := false, idxValid := true, learning := true, counted := 7 } } })), by decide⟩


theorem witness_RunoutIsLearned_3 : ∃ (who : Who) (n : LaneId) (v : Bytes) (s : State),
    (writePasses s who (laneIdx n 0x62) 6 v = true) ∧
    (needsAck s = false) ∧
    (4 ≤ (laneAt s n).life.st.code) ∧
    ((laneAt s n).life.st.code ≤ 8) :=
  ⟨(.nvme 0), (6), (toLE 4 1279611470), ({ up with lanes := (laneWith 6 (fun l => { l with life := { l.life with st := .tracking } })).lanes }), by decide⟩


theorem witness_RunoutIsLearned_4 : ∃ (ctrl : PortId) (n : LaneId) (s : State),
    ((laneAt s n).life.st = .spun) ∧
    (s.fw.running.isSome = true) ∧
    (s.power.unit ≠ 2) ∧
    (s.pair.role ≠ 2) :=
  ⟨(0), (6), ({ up with lanes := (laneWith 6 (fun l => { l with life := { l.life with st := .spun } })).lanes }), by decide⟩


theorem witness_LanesParkAndRest_1 : ∃ (n : LaneId) (s : State),
    (mayRamp (laneAt s n) = true) ∧
    ((laneAt s n).life.st = .ready) ∧
    (modeOf s n = 0) ∧
    (demanded s n = false) ∧
    ((laneAt s n).flt.orders.length < 64) ∧
    (passed s (laneAt s n).life.idle (secTicks (lcfg s n 0x01 3)) = true) :=
  ⟨(6), (store (laneIdx 6 1) 3 [10, 0] { laneWith 6 (fun l => { l with life := { l.life with st := .ready }, spin := { l.spin with phase := 3 } }) with ticks := secTicks 10 }), by decide⟩


theorem witness_LanesParkAndRest_2 : ∃ (n : LaneId) (s : State),
    demanded s n = true :=
  ⟨(6), ({ State.reset with host := { HostSide.reset with flights := [{ newFlight { ctrl := 0, sq := 1, cid := 1 } 1 .read with nsid := 1, left := [0] }] }, teams := (setTeam 0 (fun x => { x with map := [6], ns := { x.ns with count := 1 } }) State.reset).teams }), by decide⟩


theorem witness_LanesParkAndRest_3 : ∃ (n : LaneId) (s : State),
    (mayRamp (laneAt s n) = true) ∧
    (rampCause s n = true) ∧
    ((laneAt s n).flt.orders.length < 64) :=
  ⟨(6), (laneWith 6 (fun l => { l with life := { l.life with st := .ready, leadIn := .unusable }, spin := { l.spin with phase := 3 } })), by decide⟩


theorem witness_LanesParkAndRest_4 : ∃ (n : LaneId) (s : State),
    rampCause s n = false :=
  ⟨(6), (store (laneIdx 6 1) 1 [1] State.reset), by decide⟩


theorem witness_LanesParkAndRest_5 : ∃ (n : LaneId) (s : State),
    ((laneAt s n).spin.phase = 5) ∧
    (48 * lcfg s n 0x84 4 ≤ (laneAt s n).spin.quiet) ∧
    ((laneAt s n).life.st ≠ .off) ∧
    ((laneAt s n).life.st ≠ .fault) ∧
    ((laneAt s n).flt.resetting = false) ∧
    (offDue s n = false) :=
  ⟨(6), (laneWith 6 (fun l => { l with life := { l.life with st := .ready, ramping := true, pickup := some { serial := [], cls := 1, image := [] } }, spin := { l.spin with phase := 5, quiet := 1000000 } })), by decide⟩


theorem witness_LanesParkAndRest_6 : ∃ (n : LaneId) (s : State),
    ((laneAt s n).spin.phase = 5) ∧
    (48 * lcfg s n 0x84 4 ≤ (laneAt s n).spin.quiet) ∧
    ((laneAt s n).flt.resetting = true) :=
  ⟨(6), (laneWith 6 (fun l => { l with life := { l.life with st := .fault }, flt := { l.flt with resetting := true }, spin := { l.spin with phase := 5, quiet := 1000000 } })), by decide⟩


theorem witness_LaneModeEnableAndReset_1 : ∃ (who : Who) (n : LaneId) (v : Bytes) (s : State),
    (writePasses s who (laneIdx n 0x01) 2 v = true) ∧
    (needsAck s = false) ∧
    (inAttached s n = false) :=
  ⟨(.nvme 0), (6), ([3]), ({ up with lanes := (laneWith 6 (fun l => { l with life := { l.life with st := .ready } })).lanes }), by decide⟩


theorem witness_LaneModeEnableAndReset_2 : ∃ (who : Who) (n : LaneId) (v : Bytes) (s : State),
    (writePasses s who (laneIdx n 0x01) 2 v = true) ∧
    (inAttached s n = true) ∧
    ((fromLE v = 1 ∨ fromLE v = 3)) :=
  ⟨(.nvme 0), (3), ([1]), (setTeam 0 (fun x => { x with st := .attached }) up), by decide⟩


theorem witness_LaneModeEnableAndReset_3 : ∃ (who : Who) (n : LaneId) (s : State),
    (writePasses s who (laneIdx n 0x01) 1 [0] = true) ∧
    (inAttached s n = true) :=
  ⟨(.nvme 0), (3), (setTeam 0 (fun x => { x with st := .attached }) up), by decide⟩


theorem witness_LaneModeEnableAndReset_4 : ∃ (who : Who) (n : LaneId) (s : State),
    (writePasses s who (laneIdx n 0x01) 1 [0] = true) ∧
    (needsAck s = false) ∧
    (inAttached s n = false) ∧
    ((laneAt s n).life.st = .parked) ∧
    ((laneAt s n).spin.phase = 0) :=
  ⟨(.nvme 0), (6), ({ up with lanes := (laneWith 6 (fun l => { l with life := { l.life with st := .parked } })).lanes }), by decide⟩


theorem witness_LaneModeEnableAndReset_5 : ∃ (who : Who) (n : LaneId) (s : State),
    (writePasses s who (laneIdx n 0x01) 1 [0] = true) ∧
    (needsAck s = false) ∧
    (inAttached s n = false) ∧
    ((laneAt s n).life.st = .parked) ∧
    ((laneAt s n).spin.phase ≠ 0) ∧
    ((laneAt s n).spin.phase ≠ 5) ∧
    ((laneAt s n).life.ramping = false) ∧
    ((laneAt s n).flt.orders.length < 64) :=
  ⟨(.nvme 0), (6), ({ up with lanes := (laneWith 6 (fun l => { l with life := { l.life with st := .parked }, spin := { l.spin with phase := 3 } })).lanes }), by decide⟩


theorem witness_LaneModeEnableAndReset_6 : ∃ (who : Who) (n : LaneId) (s : State),
    (writePasses s who (laneIdx n 0x01) 1 [0] = true) ∧
    (needsAck s = false) ∧
    (inAttached s n = false) ∧
    (abovePark (laneAt s n).life.st = true) :=
  ⟨(.nvme 0), (6), ({ up with lanes := (laneWith 6 (fun l => { l with life := { l.life with st := .ready } })).lanes }), by decide⟩


theorem witness_LaneModeEnableAndReset_7 : ∃ (who : Who) (n : LaneId) (s : State),
    (writePasses s who (laneIdx n 0x01) 1 [1] = true) ∧
    (needsAck s = false) :=
  ⟨(.nvme 0), (6), (up), by decide⟩


theorem witness_LaneModeEnableAndReset_8 : ∃ (who : Who) (n : LaneId) (v : Bytes) (s : State),
    (writePasses s who (laneIdx n 0x01) 4 v = true) ∧
    (needsAck s = false) ∧
    ((laneAt s n).spin.phase = 0) :=
  ⟨(.nvme 0), (6), (toLE 4 1381192780), ({ up with lanes := (laneWith 6 (fun l => { l with life := { l.life with st := .fault } })).lanes }), by decide⟩


theorem witness_LaneModeEnableAndReset_9 : ∃ (who : Who) (n : LaneId) (v : Bytes) (s : State),
    (writePasses s who (laneIdx n 0x01) 4 v = true) ∧
    (needsAck s = false) ∧
    ((laneAt s n).spin.phase ≠ 0) :=
  ⟨(.nvme 0), (6), (toLE 4 1381192780), ({ up with lanes := (laneWith 6 (fun l => { l with spin := { l.spin with phase := 3 } })).lanes }), by decide⟩


theorem witness_PassesStartInPlace_1 : ∃ (n : LaneId) (blank : List (TrackId × Bool)) (s : State),
    nextPass s n = none :=
  ⟨(0), ([]), (State.reset), by decide⟩


theorem witness_PassesStartInPlace_2 : ∃ (n : LaneId) (blank : List (TrackId × Bool)) (d : Disc) (layer slot : Nat) (l : List (Nat × TeamId × Nat)) (s : State),
    ((laneAt s n).disc = some d) ∧
    (nextPass s n = some (layer, slot, l)) ∧
    (readJobs s n = []) ∧
    (((laneAt s n).life.layer ≠ some layer ∨ standsAt (laneAt s n) (dataPlace (72 * slot)).1 = false)) :=
  ⟨(0), ([]), ({ Disc.fresh with media := List.replicate 68 0 ++ [0, 39] }), (0), (0), ([(0, 0, 0)]), (setLane 0 (fun l => { l with life := { l.life with layer := none } }) writing0), by decide, by decide +kernel, by decide, by decide⟩


theorem witness_PassesStartInPlace_3 : ∃ (n : LaneId) (blank : List (TrackId × Bool)) (d : Disc) (layer slot : Nat) (l : List (Nat × TeamId × Nat)) (s : State),
    ((laneAt s n).disc = some d) ∧
    (nextPass s n = some (layer, slot, l)) ∧
    (readJobs s n = []) ∧
    (l ≠ []) ∧
    ((laneAt s n).life.layer = some layer) ∧
    (standsAt (laneAt s n) (dataPlace (72 * slot)).1 = true) ∧
    (mayWrite s n = true) ∧
    ((laneAt s n).pace.v ≤ max 2496 (mediaVelocity (laneAt s n))) ∧
    ((laneAt s n).flt.orders.length < 64) ∧
    (l.all (fun q => decide (slotSeen d layer q.1 slot blank = .blank)) = true) :=
  ⟨(0), ([(0, true)]), ({ Disc.fresh with media := List.replicate 68 0 ++ [0, 39] }), (0), (0), ([(0, 0, 0)]), (held writing0), by decide, by decide +kernel, by decide, by decide, by decide, by decide +kernel, by decide +kernel, by decide, by decide, by decide +kernel⟩


theorem witness_PassesStartInPlace_4 : ∃ (n : LaneId) (blank : List (TrackId × Bool)) (d : Disc) (layer slot : Nat) (q : Nat × TeamId × Nat) (s : State),
    ((laneAt s n).disc = some d) ∧
    (nextPass s n = some (layer, slot, [q])) ∧
    (readJobs s n = []) ∧
    ((laneAt s n).life.layer = some layer) ∧
    (standsAt (laneAt s n) (dataPlace (72 * slot)).1 = true) ∧
    (mayWrite s n = true) ∧
    ((laneAt s n).pace.v ≤ max 2496 (mediaVelocity (laneAt s n))) ∧
    (slotSeen d layer q.1 slot blank = .recorded) :=
  ⟨(0), ([(0, false)]), ({ Disc.fresh with media := List.replicate 68 0 ++ [0, 39] }), (0), (0), ((0, 0, 0)), (held writing0), by decide, by decide +kernel, by decide, by decide, by decide +kernel, by decide +kernel, by decide, by decide +kernel⟩


theorem witness_PassesStartInPlace_5 : ∃ (n : LaneId) (blank : List (TrackId × Bool)) (d : Disc) (layer slot : Nat) (l : List (Nat × TeamId × Nat)) (s : State),
    ((laneAt s n).disc = some d) ∧
    (nextPass s n = some (layer, slot, l)) ∧
    (readJobs s n = []) ∧
    ((laneAt s n).life.layer = some layer) ∧
    (standsAt (laneAt s n) (dataPlace (72 * slot)).1 = true) ∧
    ((laneAt s n).pace.v ≤ max 2496 (mediaVelocity (laneAt s n))) ∧
    (l.any (fun q => decide (slotSeen d layer q.1 slot blank = .unknown)) = true) :=
  ⟨(0), ([]), ({ Disc.fresh with media := List.replicate 68 0 ++ [0, 39] }), (0), (0), ([(0, 0, 0)]), (held writing0), by decide, by decide +kernel, by decide, by decide, by decide +kernel, by decide, by decide +kernel⟩


theorem witness_SectorsPlayedAndVerified_1 : ∃ (n : LaneId) (p : Pass) (s : State),
    ((laneAt s n).wr.pass = some p) ∧
    (p.cut = false) ∧
    (p.sector < 72) ∧
    (gateMatches (laneAt s n).wr p = true) ∧
    (notReady p = false) :=
  ⟨(6), (aPass), (playing aPass), by decide⟩


theorem witness_SectorsPlayedAndVerified_2 : ∃ (n : LaneId) (p : Pass) (s : State),
    ((laneAt s n).wr.pass = some p) ∧
    (p.cut = false) ∧
    (p.sector < 72) ∧
    (gateMatches (laneAt s n).wr p = true) ∧
    (notReady p = true) :=
  ⟨(6), (latePass), (playing latePass), by decide⟩


theorem witness_SectorsPlayedAndVerified_3 : ∃ (n : LaneId) (p : Pass) (s : State),
    ((laneAt s n).wr.pass = some p) ∧
    (gateMatches (laneAt s n).wr p = false) :=
  ⟨(6), ({ aPass with sector := 1 }), (playing { aPass with sector := 1 }), by decide⟩


theorem witness_SectorsPlayedAndVerified_4 : ∃ (n : LaneId) (k : TrackId) (v : VerifyRead) (p : Pass) (pt : PassTrack) (s : State),
    ((laneAt s n).wr.pass = some p) ∧
    (p.tracks[k] = some pt) ∧
    (p.cut = false) ∧
    (pt.judged < p.sector) ∧
    (pt.judged < 71) ∧
    (verifyOk s n v = true) ∧
    (pt.failed.length ≤ lcfg s n 0x40 5) :=
  ⟨(6), (1), (goodVerify), ({ aPass with sector := 1 }), (aTrack), (laneWith 6 (fun l => { l with wr := { l.wr with pass := some { aPass with sector := 1 } } })), by decide⟩


theorem witness_SectorsPlayedAndVerified_5 : ∃ (n : LaneId) (k : TrackId) (v : VerifyRead) (p : Pass) (pt : PassTrack) (s : State),
    ((laneAt s n).wr.pass = some p) ∧
    (p.tracks[k] = some pt) ∧
    (p.cut = false) ∧
    (pt.judged < p.sector) ∧
    (verifyOk s n v = false) ∧
    (lcfg s n 0x40 5 ≤ pt.failed.length) :=
  ⟨(6), (1), ({ goodVerify with decisions := false }), ({ aPass with sector := 1 }), (aTrack), (store (laneIdx 6 0x40) 5 [0] (laneWith 6 (fun l => { l with wr := { l.wr with pass := some { aPass with sector := 1 } } }))), by decide⟩


theorem witness_SectorsPlayedAndVerified_6 : ∃ (n : LaneId) (k : TrackId) (v : VerifyRead) (p : Pass) (pt : PassTrack) (d : Disc) (s : State),
    ((laneAt s n).wr.pass = some p) ∧
    (p.tracks[k] = some pt) ∧
    (p.cut = false) ∧
    (71 < p.sector) ∧
    (pt.judged = 71) ∧
    (verifyOk s n v = true) ∧
    (pt.failed.length ≤ lcfg s n 0x40 5) ∧
    ((laneAt s n).disc = some d) :=
  ⟨(6), (1), (goodVerify), ({ aPass with sector := 72, tracks := Vector.replicate 4 (some { aTrack with judged := 71 }) }), ({ aTrack with judged := 71 }), (Disc.fresh), (laneWith 6 (fun l => { l with disc := some Disc.fresh, wr := { l.wr with pass := some { aPass with sector := 72, tracks := Vector.replicate 4 (some { aTrack with judged := 71 }) } } })), by decide⟩


theorem witness_SectorsPlayedAndVerified_7 : ∃ (n : LaneId) (p : Pass) (s : State),
    ((laneAt s n).wr.pass = some p) ∧
    (p.cut = false) ∧
    (passDone p = true) :=
  ⟨(6), ({ aPass with sector := 72, tracks := Vector.replicate 4 none, syncSum := 50, syncCount := 3 }), (laneWith 6 (fun l => { l with life := { l.life with st := .writing }, wr := { l.wr with pass := some { aPass with sector := 72, tracks := Vector.replicate 4 none, syncSum := 50, syncCount := 3 } } })), by decide⟩


theorem witness_SectorsPlayedAndVerified_8 : ∃ (n : LaneId) (p : Pass) (s : State),
    ((laneAt s n).wr.pass = some p) ∧
    (p.cut = true) :=
  ⟨(6), ({ aPass with cut := true, begun := true }), (laneWith 6 (fun l => { l with life := { l.life with st := .writing }, wr := { l.wr with pass := some { aPass with cut := true, begun := true } } })), by decide⟩


theorem witness_SectorsPlayedAndVerified_9 : ∃ (n : LaneId) (p : Pass) (s : State),
    ((laneAt s n).wr.pass = some p) ∧
    (p.cut = false) ∧
    (passDone p = false) :=
  ⟨(6), (aPass), (playing aPass), by decide⟩


theorem witness_SectorsRelocated_1 : ∃ (n : LaneId) (d : Disc) (layer b q : Nat) (c : Copy) (verify : List (TrackId × List VerifyRead)) (s : State),
    ((laneAt s n).disc = some d) ∧
    ((laneAt s n).life.layer = some layer) ∧
    ((laneAt s n).life.band = some b) ∧
    (mayRelocate s n = true) ∧
    (framedAt (laneAt s n).wr layer b 0 2 = true) ∧
    ((laneAt s n).wr.pass = none) ∧
    ((laneAt s n).wr.queue = [c]) ∧
    (c.layer = layer) ∧
    (c.addr = none) ∧
    (passed s c.tick (nsTicks 200000) = true) ∧
    (d.openEpoch ≠ 0) ∧
    (freeReloc d layer c.track.val b = some q) ∧
    ((upTo 72).all (readOk s n (readsOf verify c.track)) = true) :=
  ⟨(6), (spareDisc), (2), (549), (0), (aCopy), ([(1, List.replicate 72 goodVerify)]), (atSpare), by decide, by decide, by decide, by decide +kernel, by decide, by decide, by decide, by decide, by decide, by decide, by decide, by decide +kernel, by decide +kernel⟩


theorem witness_SectorsRelocated_2 : ∃ (n : LaneId) (verify : List (TrackId × List VerifyRead)) (s : State),
    (laneAt s n).wr.queue = [] :=
  ⟨(6), ([]), (State.reset), by decide⟩


theorem witness_SectorsRelocated_3 : ∃ (n : LaneId) (d : Disc) (layer b sb : Nat) (s : State),
    ((laneAt s n).disc = some d) ∧
    ((laneAt s n).life.layer = some layer) ∧
    ((laneAt s n).life.band = some b) ∧
    ((laneAt s n).life.st = .ready) ∧
    (queuedTracks (laneAt s n).wr.queue layer ≠ []) ∧
    ((laneAt s n).wr.moveFrom = none) ∧
    ((laneAt s n).wr.pass = none) ∧
    (discOpen (laneAt s n) d = true) ∧
    (laneReading (laneAt s n) = false) ∧
    (dueCrosses s n layer b = false) ∧
    (nearestSpare d layer (queuedTracks (laneAt s n).wr.queue layer) b = some sb) :=
  ⟨(6), ({ Disc.fresh with openEpoch := 1 }), (2), (100), (549), (copying), by decide, by decide, by decide, by decide, by decide, by decide, by decide, by decide, by decide, by decide +kernel, by decide +kernel⟩


theorem witness_SectorsRelocated_4 : ∃ (n : LaneId) (s : State),
    (laneAt s n).wr.moveFrom.isSome = true :=
  ⟨(6), (laneWith 6 (fun l => { l with wr := { l.wr with moveFrom := some 7 } })), by decide⟩


theorem witness_SectorsRelocated_5 : ∃ (u : TeamId) (x : Nat) (e : Extent) (s : State),
    (extentAt (nsAt s u) x = some e) ∧
    (e.isSealed = false) ∧
    (passed s e.last (msTicks (cfg s (teamIdx u 0x40) 1)) = true) :=
  ⟨(2), (0), (Extent.fresh), ({ setNs 2 (fun ns => { ns with extents := [(0, Extent.fresh)] }) State.reset with ticks := 2 ^ 45 }), by decide⟩


theorem witness_SectorsRelocated_6 : ∃ (u : TeamId) (x : Nat) (e : Extent) (s : State),
    (extentAt (nsAt s u) x = some e) ∧
    (passed s e.last (msTicks (cfg s (teamIdx u 0x40) 1)) = false) :=
  ⟨(2), (0), (Extent.fresh), (store (teamIdx 2 0x40) 1 [1, 0] (setNs 2 (fun ns => { ns with extents := [(0, Extent.fresh)] }) State.reset)), by decide⟩


theorem witness_ChannelsAcquireAndLose_1 : ∃ (n : LaneId) (c : ChanId) (level rms : Nat) (phase : Int) (e : Nat) (f : Int) (s : State),
    frames (laneAt s n) c = false :=
  ⟨(6), (1), (9), (9), (0), (0), (0), (State.reset), by decide⟩


theorem witness_ChannelsAcquireAndLose_2 : ∃ (n : LaneId) (c : ChanId) (level rms : Nat) (phase : Int) (e : Nat) (f : Int) (s : State),
    (frames (laneAt s n) c = true) ∧
    ((laneAt s n).rd.channels[c].reacquire = true) ∧
    (gateLow (laneAt s n) c = false) ∧
    (lcfg s n 0x28 1 * blankReference s n (laneAt s n).rd.layer ≤ 1000 * level) ∧
    (e ≤ lcfg s n 0x23 5) :=
  ⟨(6), (1), (9), (9), (77), (0), (6000), (reading6), by decide⟩


theorem witness_ChannelsAcquireAndLose_3 : ∃ (n : LaneId) (c : ChanId) (level rms : Nat) (phase : Int) (e : Nat) (f : Int) (s : State),
    (frames (laneAt s n) c = true) ∧
    ((laneAt s n).rd.channels[c].reacquire = true) ∧
    (gateLow (laneAt s n) c = false) ∧
    (lcfg s n 0x28 1 * blankReference s n (laneAt s n).rd.layer ≤ 1000 * level) ∧
    (lcfg s n 0x23 5 < e) :=
  ⟨(6), (1), (9), (9), (77), (99999), (0), (reading6), by decide⟩


theorem witness_ChannelsAcquireAndLose_4 : ∃ (n : LaneId) (c : ChanId) (level rms : Nat) (phase : Int) (e : Nat) (f : Int) (s : State),
    (frames (laneAt s n) c = true) ∧
    ((laneAt s n).rd.channels[c].reacquire = true) ∧
    (1000 * level < lcfg s n 0x28 1 * blankReference s n (laneAt s n).rd.layer) :=
  ⟨(6), (1), (0), (9), (77), (0), (0), (store (laneIdx 6 0x28) 2 (List.replicate 16 9) reading6), by decide⟩


theorem witness_ChannelsAcquireAndLose_5 : ∃ (n : LaneId) (c : ChanId) (w : MarkWindow) (x : Channel) (off : Int) (rest : List Int) (s : State),
    (frames (laneAt s n) c = true) ∧
    ((laneAt s n).rd.channels[c] = x) ∧
    ((acquires (laneAt s n) c && x.aligns.isEmpty) = false) ∧
    (2 ≤ x.sync ∧ x.sync ≤ 5) ∧
    (w.sync = decide (x.mark = 0)) ∧
    (x.aligns.length < 20) ∧
    (2 * markFlagged x (lcfg s n 0x27 4) (if w.sync then 48 else 32) ≤ (if w.sync then 48 else 32)) ∧
    (qualifying (lcfg s n 0x26 (if w.sync then 2 else 3)) w.offsets = off :: rest) :=
  ⟨(6), (1), ({ sync := true, offsets := [(-9, 0), (-3, 4)] }), ({ following with sync := 2, predicted := 192 }), (-3), ([]), (store (laneIdx 6 0x26) 2 [4] (chan6 { following with sync := 2, predicted := 192 })), by decide⟩


theorem witness_ChannelsAcquireAndLose_6 : ∃ (n : LaneId) (c : ChanId) (w : MarkWindow) (x : Channel) (s : State),
    (frames (laneAt s n) c = true) ∧
    ((laneAt s n).rd.channels[c] = x) ∧
    ((acquires (laneAt s n) c && x.aligns.isEmpty) = false) ∧
    (2 ≤ x.sync ∧ x.sync ≤ 5) ∧
    (w.sync = decide (x.mark = 0)) ∧
    (x.aligns.length < 20) ∧
    (2 * markFlagged x (lcfg s n 0x27 4) (if w.sync then 48 else 32) ≤ (if w.sync then 48 else 32)) ∧
    (qualifying (lcfg s n 0x26 (if w.sync then 2 else 3)) w.offsets = []) ∧
    (x.misses < 2) :=
  ⟨(6), (1), ({ sync := true, offsets := [(-9, 0)] }), ({ following with sync := 4, misses := 1, predicted := 192 }), (chan6 { following with sync := 4, misses := 1, predicted := 192 }), by decide⟩


theorem witness_ChannelsAcquireAndLose_7 : ∃ (n : LaneId) (c : ChanId) (w : MarkWindow) (x : Channel) (s : State),
    (frames (laneAt s n) c = true) ∧
    ((laneAt s n).rd.channels[c] = x) ∧
    ((acquires (laneAt s n) c && x.aligns.isEmpty) = false) ∧
    (2 ≤ x.sync ∧ x.sync ≤ 5) ∧
    (w.sync = decide (x.mark = 0)) ∧
    (x.aligns.length < 20) ∧
    (2 * markFlagged x (lcfg s n 0x27 4) (if w.sync then 48 else 32) ≤ (if w.sync then 48 else 32)) ∧
    (qualifying (lcfg s n 0x26 (if w.sync then 2 else 3)) w.offsets = []) ∧
    (2 ≤ x.misses) :=
  ⟨(6), (1), ({ sync := true, offsets := [(-9, 0)] }), ({ following with sync := 5, misses := 2, predicted := 192 }), (chan6 { following with sync := 5, misses := 2, predicted := 192 }), by decide⟩


theorem witness_ChannelsAcquireAndLose_8 : ∃ (n : LaneId) (c : ChanId) (b : Nat) (s : State),
    (frames (laneAt s n) c = true) ∧
    (gateLow (laneAt s n) c = false) ∧
    ((laneAt s n).rd.channels[c].dropout = none) ∧
    (3 ≤ (laneAt s n).rd.channels[c].sync) :=
  ⟨(6), (1), (900), (chan6 { following with sync := 3, locked := true }), by decide⟩


theorem witness_ChannelsAcquireAndLose_9 : ∃ (n : LaneId) (c : ChanId) (b : Nat) (s : State),
    (frames (laneAt s n) c = true) ∧
    (gateLow (laneAt s n) c = false) ∧
    ((laneAt s n).rd.channels[c].dropout = none) :=
  ⟨(6), (1), (900), (chan6 { following with sync := 3, locked := true }), by decide⟩


theorem witness_ChannelsAcquireAndLose_10 : ∃ (n : LaneId) (c : ChanId) (b a : Nat) (s : State),
    (laneAt s n).rd.channels[c].dropout = some a :=
  ⟨(6), (1), (900), (400), (chan6 { Channel.reset with dropout := some 400 }), by decide⟩


theorem witness_ChannelsAcquireAndLose_11 : ∃ (n : LaneId) (c : ChanId) (b a : Nat) (s : State),
    ((laneAt s n).rd.channels[c].dropout = some a) ∧
    (lcfg s n 0x27 5 < b - a) :=
  ⟨(6), (1), (30000), (400), (chan6 { Channel.reset with dropout := some 400 }), by decide⟩


theorem witness_ChannelsAcquireAndLose_12 : ∃ (n : LaneId) (c : ChanId) (b a : Nat) (s : State),
    ((laneAt s n).rd.channels[c].dropout = some a) ∧
    (b - a ≤ lcfg s n 0x27 5) :=
  ⟨(6), (1), (400), (400), (chan6 { Channel.reset with dropout := some 400 }), by decide⟩


theorem witness_ExtentsReadAndDecoded_1 : ∃ (n : LaneId) (k : TrackId) (slot y i : Nat) (fs : List Flight) (r : JobRank) (d : Disc) (s : State),
    ((laneAt s n).rd.held = Vector.replicate 4 none) ∧
    ((laneAt s n).life.layer = some y) ∧
    (readJobs s n = [((y, k.val, slot), fs)]) ∧
    (rankOf fs = some r) ∧
    ((laneAt s n).rd.jobs[k] = none) ∧
    (standsAt (laneAt s n) (dataPlace (72 * slot)).1 = true) ∧
    (mayRead s n = true) ∧
    ((laneAt s n).flt.orders.length < 64) ∧
    ((laneAt s n).disc = some d) ∧
    (indexOfSlot d.skips[trackPos y k.val] slot = some i) :=
  ⟨(0), (0), (0), (0), (0), ([readFlight]), ({ seq := 1, cls := 0, tick := 0 }), ({ Disc.fresh with media := List.replicate 68 0 ++ [0, 39], extents := Disc.fresh.extents.set 0 1, nextSlot := Disc.fresh.nextSlot.set 0 1 }), (reading0), by decide, by decide, by decide +kernel, by decide, by decide, by decide +kernel, by decide, by decide, by decide, by decide⟩


theorem witness_ExtentsReadAndDecoded_2 : ∃ (n : LaneId) (k : TrackId) (slot : Nat) (s : State),
    ((laneAt s n).rd.held[k] = none) ∧
    (readJobs s n = []) :=
  ⟨(0), (0), (0), (State.reset), by decide⟩


theorem witness_ExtentsReadAndDecoded_3 : ∃ (n : LaneId) (k : TrackId) (r : SectorSamples) (j : ReadJob) (s : State),
    ((laneAt s n).rd.jobs[k] = some j) ∧
    (j.next < 72) ∧
    (channelMode (laneAt s n) = 1) ∧
    ((j.leadIn = true ∨ r.psa = j.psa k.val j.next)) :=
  ⟨(6), (1), ({ psa := 0, codes := [] }), (newJob 0 0 none true 0), (reading6), by decide⟩


theorem witness_ExtentsReadAndDecoded_4 : ∃ (n : LaneId) (k : TrackId) (r : SectorSamples) (s : State),
    (laneAt s n).rd.jobs[k] = none :=
  ⟨(6), (1), ({ psa := 0, codes := [] }), (State.reset), by decide⟩


theorem witness_ExtentsReadAndDecoded_5 : ∃ (n : LaneId) (k : TrackId) (i : Nat) (d : Disc) (j : ReadJob) (r : SectorRead) (s : State),
    ((laneAt s n).disc = some d) ∧
    ((laneAt s n).rd.jobs[k] = some j) ∧
    (mapGet j.sectors i = some r) ∧
    ((r.noTiming = true ∨ r.blank = true)) ∧
    ((fillCores s).pool.held.any (fun x => decide (x.lane = n ∧ x.track = k ∧ x.sector = i)) = true) :=
  ⟨(6), (1), (5), (Disc.fresh), (decodingJob (emptyRecord 9 true false)), (emptyRecord 9 true false), (decoding (emptyRecord 9 true false)), by decide⟩


theorem witness_ExtentsReadAndDecoded_6 : ∃ (n : LaneId) (k : TrackId) (i : Nat) (d : Disc) (j : ReadJob) (r : SectorRead) (s : State),
    ((laneAt s n).disc = some d) ∧
    ((laneAt s n).rd.jobs[k] = some j) ∧
    (mapGet j.sectors i = some r) ∧
    (r.noTiming = false) ∧
    (r.blank = false) ∧
    (r.falseStarts = []) ∧
    ((fillCores s).pool.held.any (fun x => decide (x.lane = n ∧ x.track = k ∧ x.sector = i)) = true) :=
  ⟨(6), (1), (5), (Disc.fresh), (decodingJob (emptyRecord 9 false false)), (emptyRecord 9 false false), (decoding (emptyRecord 9 false false)), by decide⟩


theorem witness_ExtentsReadAndDecoded_7 : ∃ (n : LaneId) (k : TrackId) (i : Nat) (s : State),
    (fillCores s).pool.held.any (fun x => decide (x.lane = n ∧ x.track = k ∧ x.sector = i)) = false :=
  ⟨(6), (1), (5), (State.reset), by decide⟩


theorem witness_ExtentsReadAndDecoded_8 : ∃ (n : LaneId) (k : TrackId) (d : Disc) (j : ReadJob) (s : State),
    ((laneAt s n).disc = some d) ∧
    ((laneAt s n).rd.jobs[k] = some j) ∧
    ((laneAt s n).rd.held[k] = none) ∧
    (j.leadIn = false) ∧
    (j.relocBand = none) ∧
    (j.phase = 0) ∧
    (j.step = 0) ∧
    (allJudged j = true) ∧
    ((flaggedOf d j k.val).any (fun i => decide (i < 64)) = false) :=
  ⟨(6), (1), (Disc.fresh), (fullJob (some [])), (jobOn6 (fullJob (some []))), by decide⟩


theorem witness_ExtentsReadAndDecoded_9 : ∃ (n : LaneId) (k : TrackId) (d : Disc) (j : ReadJob) (s : State),
    ((laneAt s n).disc = some d) ∧
    ((laneAt s n).rd.jobs[k] = some j) ∧
    (j.phase = 0) ∧
    (j.step = 0) ∧
    (allJudged j = true) ∧
    ((flaggedOf d j k.val).any (fun i => decide (i < 64)) = true) ∧
    ((flaggedOf d j k.val).length ≤ 8) :=
  ⟨(6), (1), (Disc.fresh), (oneBad), (jobOn6 oneBad), by decide⟩


theorem witness_ExtentsReadAndDecoded_10 : ∃ (n : LaneId) (k : TrackId) (j : ReadJob) (s : State),
    ((laneAt s n).rd.jobs[k] = some j) ∧
    (allJudged j = false) :=
  ⟨(6), (1), (newJob 0 0 none true 0), (reading6), by decide⟩


theorem witness_ExtentsReadAndDecoded_11 : ∃ (n : LaneId) (k : TrackId) (d : Disc) (j : ReadJob) (s : State),
    ((laneAt s n).disc = some d) ∧
    ((laneAt s n).rd.jobs[k] = some j) ∧
    ((laneAt s n).rd.held[k] = none) ∧
    (j.leadIn = false) ∧
    (j.relocBand = none) ∧
    (j.phase = 1) ∧
    (j.step = 0) ∧
    (lcfg s n 0x30 3 = 0) :=
  ⟨(6), (1), (Disc.fresh), ({ oneBad with phase := 1 }), (store (laneIdx 6 0x30) 3 [0] (jobOn6 { oneBad with phase := 1 })), by decide⟩


theorem witness_ExtentsReadAndDecoded_12 : ∃ (n : LaneId) (k : TrackId) (d : Disc) (j : ReadJob) (s : State),
    ((laneAt s n).disc = some d) ∧
    ((laneAt s n).rd.jobs[k] = some j) ∧
    ((laneAt s n).rd.held[k] = none) ∧
    (j.phase = 2) ∧
    (j.step = 0) ∧
    (lcfg s n 0x30 3 ≠ 0) ∧
    (missing s n k j ≠ []) ∧
    (otherLadder (laneAt s n) k = false) :=
  ⟨(6), (1), (Disc.fresh), ({ oneBad with phase := 2, leadIn := true }), (jobOn6 { oneBad with phase := 2, leadIn := true }), by decide⟩


theorem witness_ExtentsReadAndDecoded_13 : ∃ (n : LaneId) (k : TrackId) (j : ReadJob) (s : State),
    ((laneAt s n).rd.jobs[k] = some j) ∧
    (j.phase ≠ 2) :=
  ⟨(6), (1), (newJob 0 0 none true 0), (reading6), by decide⟩


theorem witness_CaptureTestSourceAndDefects_1 : ∃ (who : Who) (n : LaneId) (v : Bytes) (s : State),
    (writePasses s who (laneIdx n 0x2A) 1 v = true) ∧
    (needsAck s = false) :=
  ⟨(.nvme 0), (6), ([2, 0, 0, 0]), (up), by decide⟩


theorem witness_CaptureTestSourceAndDefects_2 : ∃ (n : LaneId) (l : List Bytes) (s : State),
    ((laneAt s n).rd.capStatus = 1) ∧
    ((laneAt s n).rd.channels.toList.any (fun x => decide (2 ≤ x.sync)) = true) ∧
    (l.length = (laneAt s n).rd.capCount) :=
  ⟨(6), ([[1, 2, 3, 4, 5, 6, 7, 8]]), (setLane 6 (fun l => { l with rd := { l.rd with capStatus := 1, capCount := 1 } }) (chan6 { following with sync := 2 })), by decide⟩


theorem witness_CaptureTestSourceAndDefects_3 : ∃ (n : LaneId) (l : List Bytes) (s : State),
    (laneAt s n).rd.capStatus ≠ 1 :=
  ⟨(6), ([]), (State.reset), by decide⟩


theorem witness_CaptureTestSourceAndDefects_4 : ∃ (who : Who) (n : LaneId) (v : Bytes) (s : State),
    (writePasses s who (laneIdx n 0x2A) 4 v = true) ∧
    (needsAck s = false) :=
  ⟨(.nvme 0), (6), ([2, 0]), ({ up with lanes := parkedDisc.lanes }), by decide⟩


theorem witness_CaptureTestSourceAndDefects_5 : ∃ (ctrl : PortId) (n : LaneId) (v : Bytes) (s : State),
    ((laneAt s n).life.st ≠ .parked) ∧
    (s.fw.running.isSome = true) ∧
    (s.power.unit ≠ 2) :=
  ⟨(0), (6), ([2, 0]), (up), by decide⟩


theorem witness_CaptureTestSourceAndDefects_6 : ∃ (who : Who) (n : LaneId) (v : Bytes) (s : State),
    (writePasses s who (laneIdx n 0x24) 0x0B v = true) ∧
    (needsAck s = false) :=
  ⟨(.nvme 0), (6), ([5]), (store (laneIdx 6 0x24) 2 [7] (store (laneIdx 6 0x24) 1 [9] up)), by decide⟩


theorem witness_CaptureTestSourceAndDefects_7 : ∃ (who : Who) (n : LaneId) (v : Bytes) (s : State),
    (writePasses s who (laneIdx n 0x32) 3 v = true) ∧
    (needsAck s = false) :=
  ⟨(.nvme 0), (6), (toLE 4 1129075268), ({ up with lanes := (laneWith 6 (fun l => { l with rd := { l.rd with defects := [{ psa := 1, time := 0, hits := 1, outcome := 15 }] } })).lanes }), by decide⟩


theorem witness_CaptureTestSourceAndDefects_8 : ∃ (n : LaneId) (c : Copy) (d : Disc) (sb : Nat) (s : State),
    ((laneAt s n).wr.queue.find? (fun x => x.refresh && passed s x.tick (secTicks (lcfg s n 0x31 3))) = some c) ∧
    ((laneAt s n).life.st = .ready) ∧
    ((laneAt s n).wr.moveFrom = none) ∧
    (readJobs s n = []) ∧
    (dueOn s n = []) ∧
    ((laneAt s n).disc = some d) ∧
    (nearestSpare d c.layer (queuedTracks (laneAt s n).wr.queue c.layer) ((laneAt s n).life.band.getD 0) = some sb) :=
  ⟨(6), (aCopy), ({ Disc.fresh with openEpoch := 1 }), (549), (store (laneIdx 6 0x31) 3 [1, 0] { copying with ticks := 2 ^ 46 }), by decide, by decide, by decide, by decide, by decide, by decide, by decide +kernel⟩


theorem witness_CaptureTestSourceAndDefects_9 : ∃ (n : LaneId) (s : State),
    (laneAt s n).wr.queue.find? (fun x => x.refresh && passed s x.tick (secTicks (lcfg s n 0x31 3))) = none :=
  ⟨(6), (State.reset), by decide⟩


theorem witness_BanksSwitchOnRequest_1 : ∃ (who : Who) (v : Bytes) (s : State),
    (writePasses s who 0x6001 1 v = true) ∧
    (needsAck s = false) ∧
    (switchStatus s true (fromLE v) = 0) :=
  ⟨(.nvme 0), ([0x40, 0, 0, 0]), (banked), by decide, by decide, by decide +kernel⟩


theorem witness_BanksSwitchOnRequest_2 : ∃ (who : Who) (v : Bytes) (s : State),
    (writePasses s who 0x6001 2 v = true) ∧
    (needsAck s = false) ∧
    (switchStatus s false (fromLE v) = 0) :=
  ⟨(.nvme 0), ([0x40, 0, 0, 0]), (banked), by decide, by decide, by decide +kernel⟩


theorem witness_BanksSwitchOnRequest_3 : ∃ (who : Who) (v : Bytes) (s : State),
    (writePasses s who 0x6001 1 v = true) ∧
    (switchStatus s true (fromLE v) ≠ 0) :=
  ⟨(.nvme 0), ([0x80, 0, 0, 0]), (banked), by decide⟩


theorem witness_BanksSwitchOnRequest_4 : ∃ (who : Who) (v : Bytes) (s : State),
    (writePasses s who 0x6001 2 v = true) ∧
    (switchStatus s false (fromLE v) ≠ 0) :=
  ⟨(.nvme 0), ([0x80, 0, 0, 0]), (banked), by decide⟩


theorem witness_BanksSwitchOnRequest_5 : ∃ (who : Who) (n : LaneId) (v : Bytes) (s : State),
    (writePasses s who (0x6010 + n.val) 1 v = true) ∧
    (needsAck s = false) ∧
    (bankCheck v = true) ∧
    ((laneAt s n).loop.banks.obsPending = false) :=
  ⟨(.nvme 0), (6), (goodObserver), (banked), by decide +kernel⟩


theorem witness_BanksSwitchOnRequest_6 : ∃ (who : Who) (n : LaneId) (v : Bytes) (s : State),
    (writePasses s who (0x6010 + n.val) 1 v = true) ∧
    ((bankCheck v = false ∨ (laneAt s n).loop.banks.obsPending = true)) :=
  ⟨(.nvme 0), (6), (natBytes [1, 3, 3, 1] ++ List.replicate 2044 0), (banked), by decide +kernel⟩


theorem witness_BanksSwitchOnRequest_7 : ∃ (who : Who) (n : LaneId) (v : Bytes) (s : State),
    (writePasses s who (0x6030 + n.val) 1 v = true) ∧
    (needsAck s = false) ∧
    (bankCheck v = true) ∧
    ((laneAt s n).loop.banks.bqPending = false) :=
  ⟨(.nvme 0), (6), (goodBank), (banked), by decide +kernel⟩


theorem witness_BanksSwitchOnRequest_8 : ∃ (who : Who) (n : LaneId) (v : Bytes) (s : State),
    (writePasses s who (0x6030 + n.val) 1 v = true) ∧
    ((bankCheck v = false ∨ (laneAt s n).loop.banks.bqPending = true)) :=
  ⟨(.nvme 0), (6), (List.replicate 2048 0), (banked), by decide +kernel⟩


theorem witness_BanksSwitchOnRequest_9 : ∃ (who : Who) (slot : Fin 16) (sub : Nat) (v : Bytes) (s : State),
    (writePasses s who (0x6080 + slot.val) sub v = true) ∧
    (needsAck s = false) ∧
    (1 ≤ sub ∧ sub ≤ 3) ∧
    ((sub ≠ 1 → bankCheck v = true)) :=
  ⟨(.nvme 0), (3), (3), (goodBank), (store 0x6083 1 [1, 0] banked), by decide +kernel⟩


theorem witness_BanksSwitchOnRequest_10 : ∃ (who : Who) (slot : Fin 16) (sub : Nat) (v : Bytes) (s : State),
    (writePasses s who (0x6080 + slot.val) sub v = true) ∧
    ((sub = 2 ∨ sub = 3)) ∧
    (bankCheck v = false) :=
  ⟨(.nvme 0), (3), (3), (List.replicate 2048 0), (banked), by decide +kernel⟩


theorem witness_SledFollowsItsOrders_1 : ∃ (n : LaneId) (e : Nat) (sa sb : Int) (d : Sled) (s : State),
    (sledDue s n = true) ∧
    ((laneAt s n).life.homing = false) ∧
    ((laneAt s n).sled = d) ∧
    (d.profile = none) ∧
    (d.geared = false) ∧
    (d.running = false) ∧
    ((laneAt s n).loop.overrun.sledHeld = false) ∧
    (65536 * lcfgInt s n 0xA3 1 ≤ d.p + offProfile { d with c := (laneAt s n).loop.cascades[2].out }) ∧
    (d.p + offProfile { d with c := (laneAt s n).loop.cascades[2].out } ≤ 65536 * lcfgInt s n 0xA3 2) :=
  ⟨(6), (77), (0), (0), (Sled.reset), (ticking 206250 6 (fun l => l)), by decide⟩


theorem witness_SledFollowsItsOrders_2 : ∃ (n : LaneId) (e : Nat) (sa sb : Int) (d : Sled) (pr : Profile) (s : State),
    (sledDue s n = true) ∧
    ((laneAt s n).life.homing = false) ∧
    ((laneAt s n).sled = d) ∧
    (d.profile = some pr) ∧
    (d.geared = false) ∧
    (pr.vEnd = 0) ∧
    (pr.t + 100000 < segsTime pr.segs) ∧
    ((laneAt s n).loop.overrun.sledHeld = false) ∧
    (65536 * lcfgInt s n 0xA3 1 ≤ pr.target + offProfile { d with c := (laneAt s n).loop.cascades[2].out }) ∧
    (pr.target + offProfile { d with c := (laneAt s n).loop.cascades[2].out } ≤ 65536 * lcfgInt s n 0xA3 2) :=
  ⟨(6), (77), (0), (0), ((laneAt running6 6).sled), ({ x0 := 0, v0 := 0, a0 := 0, segs := [(0, 200000)], t := 0, target := 6553600, vEnd := 0 }), (ticking 206250 6 (fun _ => laneAt running6 6)), by decide⟩


theorem witness_SledFollowsItsOrders_3 : ∃ (n : LaneId) (e : Nat) (sa sb : Int) (pr : Profile) (s : State),
    (sledDue s n = true) ∧
    ((laneAt s n).life.homing = true) ∧
    ((laneAt s n).sled.profile = some pr) :=
  ⟨(6), (77), (5), (9), ({ x0 := 0, v0 := -qSpeed 2000, a0 := 0, segs := [], t := 0, target := 0, vEnd := 0 }), (beginHoming 6 (ticking 206250 6 (fun l => l))), by decide⟩


theorem witness_SledFollowsItsOrders_4 : ∃ (n : LaneId) (e : Nat) (sa sb : Int) (s : State),
    sledDue s n = false :=
  ⟨(6), (77), (0), (0), (ticking 206251 6 (fun l => l)), by decide⟩


theorem witness_SledFollowsItsOrders_5 : ∃ (who : Who) (n : LaneId) (v : Bytes) (s : State),
    (writePasses s who (laneIdx n 0xA2) 2 v = true) ∧
    (needsAck s = false) ∧
    (withinSoft s n (strideOf v).target = true) ∧
    ((laneAt s n).flt.orders.length < 64) :=
  ⟨(.nvme 0), (6), (strideBytes aStride), (parked6), by decide⟩


theorem witness_SledFollowsItsOrders_6 : ∃ (who : Who) (n : LaneId) (v : Bytes) (s : State),
    (writePasses s who (laneIdx n 0xA2) 2 v = true) ∧
    (withinSoft s n (strideOf v).target = false) :=
  ⟨(.nvme 0), (6), (strideBytes { aStride with target := 10000000 }), (parked6), by decide⟩


theorem witness_SledFollowsItsOrders_7 : ∃ (who : Who) (n : LaneId) (v : Bytes) (r : Stride) (s : State),
    (writePasses s who (laneIdx n 0xA2) 3 v = true) ∧
    (needsAck s = false) ∧
    ((laneAt s n).sled.running = true) ∧
    ((laneAt s n).sled.stopping = false) ∧
    ((laneAt s n).sled.queue = [r]) :=
  ⟨(.nvme 0), (6), (toLE 4 1398034256), (aStride), (running6), by decide⟩


theorem witness_SledFollowsItsOrders_8 : ∃ (n : LaneId) (s : State),
    ((laneAt s n).sled.mode = 2) ∧
    (48 * lcfg s n 0xA5 6 ≤ (laneAt s n).sled.below) :=
  ⟨(6), (laneWith 6 (fun l => { l with sled := { l.sled with mode := 2, below := 10000000 } })), by decide⟩


theorem witness_SledFollowsItsOrders_9 : ∃ (n : LaneId) (s : State),
    ((laneAt s n).sled.mode = 1) ∧
    ((laneAt s n).sled.hold = false) ∧
    (48 * lcfg s n 0xA5 7 ≤ (laneAt s n).sled.rest) :=
  ⟨(6), (laneWith 6 (fun l => { l with sled := { l.sled with mode := 1, rest := 10000000 } })), by decide⟩


theorem witness_SledFollowsItsOrders_10 : ∃ (n : LaneId) (noEdge : Bool) (s : State),
    (lcfg s n 0xA6 1 = 1) ∧
    ((laneAt s n).sled.fallback = false) ∧
    ((noEdge = true → 24000 < (laneAt s n).spin.omega * 576000000 / 2 ^ 40)) :=
  ⟨(6), (false), (store (laneIdx 6 0xA6) 1 [1] State.reset), by decide⟩


theorem witness_SledFollowsItsOrders_11 : ∃ (n : LaneId) (noEdge : Bool) (s : State),
    (lcfg s n 0xA6 1 ≠ 1 ∨ (laneAt s n).sled.fallback = true) :=
  ⟨(6), (true), (State.reset), by decide⟩


theorem witness_SledFollowsItsOrders_12 : ∃ (who : Who) (n : LaneId) (v : Bytes) (s : State),
    (writePasses s who (laneIdx n 0xA4) 2 v = true) ∧
    (needsAck s = false) ∧
    (crc32 (v.take 512) = field v 512 4) :=
  ⟨(.nvme 0), (6), (defaultTable ++ toLE 4 (crc32 defaultTable)), (up), by decide +kernel⟩


theorem witness_SledFollowsItsOrders_13 : ∃ (who : Who) (n : LaneId) (v : Bytes) (s : State),
    (writePasses s who (laneIdx n 0xA4) 2 v = true) ∧
    (crc32 (v.take 512) ≠ field v 512 4) :=
  ⟨(.nvme 0), (6), (List.replicate 516 0), (up), by decide +kernel⟩


theorem witness_SledFollowsItsOrders_14 : ∃ (who : Who) (n : LaneId) (v : Bytes) (s : State),
    (writePasses s who (laneIdx n 0xA4) 3 v = true) ∧
    (needsAck s = false) :=
  ⟨(.nvme 0), (6), (toLE 4 1413562956), (up), by decide⟩


theorem witness_WarmUpsRunAndEnd_1 : ∃ (who : Who) (n : LaneId) (v : Bytes) (s : State),
    (writePasses s who (laneIdx n 0xC0) 1 v = true) ∧
    (needsAck s = false) ∧
    ((laneAt s n).warm.running = false) ∧
    ((fromLE v = 1 ∨ readyUp (laneAt s n).life.st = true)) :=
  ⟨(.nvme 0), (6), ([127]), (warm6 (fun w => w)), by decide⟩


theorem witness_WarmUpsRunAndEnd_2 : ∃ (who : Who) (n : LaneId) (v : Bytes) (s : State),
    (writePasses s who (laneIdx n 0xC0) 1 v = true) ∧
    (((laneAt s n).warm.running = true ∨ (fromLE v ≠ 1 ∧ readyUp (laneAt s n).life.st = false))) :=
  ⟨(.nvme 0), (6), ([127]), (up), by decide⟩


theorem witness_WarmUpsRunAndEnd_3 : ∃ (n : LaneId) (p : Nat) (rest : List Nat) (s : State),
    (readyUp (laneAt s n).life.st = true) ∧
    ((laneAt s n).warm.running = false) ∧
    (warmStarts s n = true) ∧
    ((if (laneAt s n).warm.asked = 0 then [1, 2, 3, 4, 5, 6] else [1, 2, 3, 4, 5, 6].filter (fun p => bit (laneAt s n).warm.asked p)) = p :: rest) ∧
    (p ≠ 6) :=
  ⟨(6), (2), ([5]), (warm6 (fun w => { w with asked := 36 })), by decide⟩


theorem witness_WarmUpsRunAndEnd_4 : ∃ (n : LaneId) (s : State),
    (readyUp (laneAt s n).life.st = false ∨ (laneAt s n).warm.running = true ∨ warmStarts s n = false) :=
  ⟨(6), (State.reset), by decide⟩


theorem witness_WarmUpsRunAndEnd_5 : ∃ (n : LaneId) (k : Nat) (s : State),
    ((laneAt s n).warm.retryAt = some k) ∧
    (k ≤ s.ticks) ∧
    (readyUp (laneAt s n).life.st = true) ∧
    ((laneAt s n).warm.running = false) ∧
    ((laneAt s n).warm.asked = 0) ∧
    ((laneAt s n).warm.autoStopped = false) ∧
    ((laneAt s n).warm.baseline = true) :=
  ⟨(6), (5), (warm6 (fun w => { w with retryAt := some 5 })), by decide⟩


theorem witness_WarmUpsRunAndEnd_6 : ∃ (n : LaneId) (s : State),
    ((laneAt s n).warm.retryAt = none ∨ ∃ k, (laneAt s n).warm.retryAt = some k ∧ s.ticks < k) :=
  ⟨(6), (State.reset), .inl rfl⟩


theorem witness_WarmUpsRunAndEnd_7 : ∃ (n : LaneId) (d : Disc) (s : State),
    ((laneAt s n).warm.running = true) ∧
    ((laneAt s n).warm.opcWaiting = true) ∧
    (atExtentBoundary (laneAt s n) = true) ∧
    (passed s (laneAt s n).warm.started (msTicks (lcfg s n 0xC0 5)) = true) ∧
    ((laneAt s n).disc = some d) :=
  ⟨(6), (Disc.fresh), (setLane 6 (fun l => { l with disc := some Disc.fresh }) (warm6 (fun w => { w with running := true, part := 6, opcWaiting := true }))), by decide⟩


theorem witness_WarmUpsRunAndEnd_8 : ∃ (n : LaneId) (s : State),
    ((laneAt s n).warm.running = false ∨ (laneAt s n).warm.opcWaiting = false) :=
  ⟨(6), (State.reset), by decide⟩


theorem witness_WarmUpsRunAndEnd_9 : ∃ (who : Who) (n : LaneId) (v : Bytes) (s : State),
    (writePasses s who (laneIdx n 0xC1) 1 v = true) ∧
    (needsAck s = false) ∧
    ((slice v 66 6).any (fun b => decide (b ≠ 0)) = false) ∧
    ((upTo 32).any (fun i => decide (windowOf s n i < ((trimWords v).getD i 0 - (laneAt s n).warm.factory.getD i 0).natAbs)) = false) ∧
    ((laneAt s n).warm.running = false) ∧
    ((laneAt s n).warm.detecting = false) ∧
    ((laneAt s n).warm.trims.length = 32) :=
  ⟨(.nvme 0), (6), ([9, 0] ++ List.replicate 62 0 ++ [5, 0] ++ List.replicate 14 0), (up), by decide⟩


theorem witness_WarmUpsRunAndEnd_10 : ∃ (who : Who) (n : LaneId) (v : Bytes) (s : State),
    (writePasses s who (laneIdx n 0xC1) 1 v = true) ∧
    ((slice v 66 6).any (fun b => decide (b ≠ 0)) = false) ∧
    ((upTo 32).any (fun i => decide (windowOf s n i < ((trimWords v).getD i 0 - (laneAt s n).warm.factory.getD i 0).natAbs)) = true) :=
  ⟨(.nvme 0), (6), ([0, 80] ++ List.replicate 78 0), (up), by decide⟩


theorem witness_WarmUpsRunAndEnd_11 : ∃ (n : LaneId) (d : Disc) (y : Nat) (s : State),
    ((laneAt s n).warm.running = true) ∧
    (1 ≤ (laneAt s n).warm.part) ∧
    ((laneAt s n).warm.part ≤ 5) ∧
    (atExtentBoundary (laneAt s n) = true) ∧
    (passed s (max (laneAt s n).life.idle (laneAt s n).warm.started) (msTicks 100) = true) ∧
    ((laneAt s n).disc = some d) ∧
    ((laneAt s n).life.layer = some y) ∧
    (nearestRecorded d y ((laneAt s n).life.band.getD 0) = none) ∧
    (standsAt (laneAt s n) 220 = true) ∧
    (readable s n = true) :=
  ⟨(6), (Disc.fresh), (0), (held (setLane 6 (fun l => { l with disc := some Disc.fresh, spin := { l.spin with atSpeed := true }, life := { l.life with band := some 220 } }) (warm6 (fun w => { w with running := true, part := 2 })))), by decide⟩


theorem witness_WarmUpsRunAndEnd_12 : ∃ (n : LaneId) (d : Disc) (y : Nat) (s : State),
    ((laneAt s n).warm.running = true) ∧
    (1 ≤ (laneAt s n).warm.part) ∧
    ((laneAt s n).warm.part ≤ 5) ∧
    (atExtentBoundary (laneAt s n) = true) ∧
    (passed s (max (laneAt s n).life.idle (laneAt s n).warm.started) (msTicks 100) = true) ∧
    ((laneAt s n).disc = some d) ∧
    ((laneAt s n).life.layer = some y) ∧
    (nearestRecorded d y ((laneAt s n).life.band.getD 0) = none) ∧
    (standsAt (laneAt s n) 220 = false) :=
  ⟨(6), (Disc.fresh), (0), (setLane 6 (fun l => { l with disc := some Disc.fresh }) (warm6 (fun w => { w with running := true, part := 2 }))), by decide⟩


theorem witness_WarmUpsRunAndEnd_13 : ∃ (n : LaneId) (s : State),
    ((laneAt s n).warm.running = false ∨ atExtentBoundary (laneAt s n) = false) :=
  ⟨(6), (State.reset), by decide⟩


theorem witness_WarmUpsRunAndEnd_14 : ∃ (n : LaneId) (m : List (List Int)) (s : State),
    ((laneAt s n).warm.detecting = true) ∧
    (m.length = 1024) ∧
    ((upTo 8).all (fun j => decide (spread (detectorCodes m j) ≤ 256)) = false) :=
  ⟨(6), ([999] :: List.replicate 1023 []), (warm6 (fun w => { w with detecting := true })), by decide, by simp, by decide +kernel⟩


theorem witness_WarmUpsRunAndEnd_15 : ∃ (n : LaneId) (m : List (List Int)) (s : State),
    ((laneAt s n).warm.detecting = true) ∧
    (m.length = 1024) ∧
    ((upTo 8).all (fun j => decide (spread (detectorCodes m j) ≤ 256)) = true) ∧
    ((laneAt s n).warm.trims.length = 32) ∧
    (judgeTrims s n ((upTo 8).map (fun j =>
        (16 + j, (laneAt s n).warm.trims.getD (16 + j) 0 - roundDiv (sumInt (detectorCodes m j)) 1024))) = 1) :=
  ⟨(6), (List.replicate 1024 [1, 12, -1]), (warm6 (fun w => { w with detecting := true })), by decide, by simp, by decide +kernel, by decide, by decide +kernel⟩


theorem witness_WarmUpsRunAndEnd_16 : ∃ (n : LaneId) (m : List (List Int)) (p : Nat) (rest : List Nat) (s : State),
    ((laneAt s n).warm.detecting = false) ∧
    ((laneAt s n).warm.running = true) ∧
    ((laneAt s n).warm.part = 1) ∧
    (64 ≤ (laneAt s n).warm.frames) ∧
    (rfQuality (laneAt s n).warm = false) ∧
    ((laneAt s n).warm.todo = p :: rest) ∧
    (p ≠ 6) :=
  ⟨(6), ([]), (2), ([3]), (warm6 (fun w => { w with running := true, part := 1, frames := 64, todo := [2, 3] })), by decide⟩


theorem witness_WarmUpsRunAndEnd_17 : ∃ (n : LaneId) (m : List (List Int)) (p : Nat) (rest : List Nat) (s : State),
    ((laneAt s n).warm.detecting = false) ∧
    ((laneAt s n).warm.running = true) ∧
    ((laneAt s n).warm.part = 2) ∧
    (64 ≤ (laneAt s n).warm.frames) ∧
    ((laneAt s n).warm.trims.length = 32) ∧
    (judgeTrims s n [(25, trackingValue s n)] = 1) ∧
    ((laneAt s n).warm.todo = p :: rest) ∧
    (p ≠ 6) :=
  ⟨(6), ([]), (3), ([]), (warm6 (fun w => { w with running := true, part := 2, frames := 64, sums := [640], todo := [3] })), by decide⟩


theorem witness_WarmUpsRunAndEnd_18 : ∃ (n : LaneId) (m : List (List Int)) (s : State),
    ((laneAt s n).warm.detecting = false) ∧
    ((laneAt s n).warm.running = true) ∧
    (3 ≤ (laneAt s n).warm.part ∧ (laneAt s n).warm.part ≤ 5) ∧
    (8 ≤ (laneAt s n).warm.frames) ∧
    ((laneAt s n).warm.probe < 2) :=
  ⟨(6), ([]), (warm6 (fun w => { w with running := true, part := 4, frames := 8, probe := 1, sums := [700] })), by decide⟩


theorem witness_WarmUpsRunAndEnd_19 : ∃ (n : LaneId) (m : List (List Int)) (s : State),
    ((laneAt s n).warm.detecting = false) ∧
    (((laneAt s n).warm.running = false ∨ (laneAt s n).warm.frames < partFrames (laneAt s n).warm.part)) :=
  ⟨(6), ([[700]]), (State.reset), by decide⟩


theorem witness_WarmUpsRunAndEnd_20 : ∃ (n : LaneId) (p : Nat) (rest : List Nat) (s : State),
    ((laneAt s n).warm.running = true) ∧
    (1 ≤ (laneAt s n).warm.part ∧ (laneAt s n).warm.part ≤ 5) ∧
    ((laneAt s n).warm.frames < partFrames (laneAt s n).warm.part) ∧
    (passed s (laneAt s n).warm.started (msTicks (lcfg s n 0xC0 8)) = true) ∧
    ((laneAt s n).warm.todo = p :: rest) ∧
    (p ≠ 6) :=
  ⟨(6), (4), ([]), (warm6 (fun w => { w with running := true, part := 3, todo := [4] })), by decide⟩


theorem witness_WarmUpsRunAndEnd_21 : ∃ (n : LaneId) (s : State),
    passed s (laneAt s n).warm.started (msTicks (lcfg s n 0xC0 8)) = false :=
  ⟨(6), (State.reset), by decide⟩


theorem witness_WarmUpsRunAndEnd_22 : ∃ (n : LaneId) (beta : List (List Int)) (diffs : List (List Nat)) (y u0 : Nat) (d : Disc) (s : State),
    ((laneAt s n).warm.testPass = some (y, u0)) ∧
    ((laneAt s n).disc = some d) ∧
    ((laneAt s n).warm.running = true) ∧
    ((laneAt s n).warm.part = 6) ∧
    ((laneAt s n).life.st = .holding) ∧
    (testable d = true) ∧
    (mayRecord s n = true) ∧
    ((laneAt s n).pace.v ≤ max 2496 (mediaVelocity (laneAt s n))) ∧
    (framedAt (laneAt s n).wr y (testPlace u0).1 (testPlace u0).2.2 3 = true) :=
  ⟨(6), ([]), ([]), (0), (0), ({ Disc.fresh with openEpoch := 1, media := List.replicate 68 0 ++ [0, 39] }), (held opc6), by decide⟩


theorem witness_WarmUpsRunAndEnd_23 : ∃ (n : LaneId) (beta : List (List Int)) (diffs : List (List Nat)) (s : State),
    (laneAt s n).warm.testPass = none :=
  ⟨(6), ([]), ([]), (State.reset), by decide⟩


theorem witness_QueuesCreatedAndDeleted_1 : ∃ (c : CmdId) (id size vec : Nat) (prp : Nat) (s : State),
    (adminOpen s c = true) ∧
    (1 ≤ id ∧ id ≤ 64) ∧
    (2 ≤ size ∧ size ≤ 4096) ∧
    (vec ≤ 64) ∧
    (prp < 2 ^ 63) ∧
    (s.host.ctrls[c.ctrl].cqs.all (fun q => decide (q.id ≠ id)) = true) :=
  ⟨(anAdmin), (3), (16), (3), (0), (hostUp), by decide⟩


theorem witness_QueuesCreatedAndDeleted_2 : ∃ (c : CmdId) (dw10 dw11 prp : Nat) (s : State),
    (adminOpen s c = true) ∧
    ((dw10 % 65536 = 0 ∨ 64 < dw10 % 65536 ∨ s.host.ctrls[c.ctrl].cqs.any (fun q => q.id = dw10 % 65536) = true)) :=
  ⟨(anAdmin), (65), (0), (0), (hostUp), by decide, by decide +kernel⟩


theorem witness_QueuesCreatedAndDeleted_3 : ∃ (c : CmdId) (id size vec : Nat) (prp : Nat) (s : State),
    (adminOpen s c = true) ∧
    (1 ≤ id ∧ id ≤ 64) ∧
    (2 ≤ size ∧ size ≤ 4096) ∧
    (vec ≤ 64) ∧
    (2 ^ 63 ≤ prp) ∧
    (s.host.ctrls[c.ctrl].cqs.all (fun q => decide (q.id ≠ id)) = true) :=
  ⟨(anAdmin), (3), (16), (3), (2 ^ 63), (hostUp), by decide⟩


theorem witness_QueuesCreatedAndDeleted_4 : ∃ (c : CmdId) (id size cls cq : Nat) (prp : Nat) (s : State),
    (adminOpen s c = true) ∧
    (1 ≤ id ∧ id ≤ 64) ∧
    (2 ≤ size ∧ size ≤ 4096) ∧
    (s.host.ctrls[c.ctrl].sqs.all (fun q => decide (q.id ≠ id)) = true) ∧
    (s.host.ctrls[c.ctrl].cqs.any (fun q => q.id = cq) = true) ∧
    (cls < 4) ∧
    (cq < 65536) :=
  ⟨(anAdmin), (5), (16), (2), (3), (0), (withCq), by decide⟩


theorem witness_QueuesCreatedAndDeleted_5 : ∃ (c : CmdId) (id size : Nat) (dw11 prp : Nat) (s : State),
    (adminOpen s c = true) ∧
    (1 ≤ id ∧ id ≤ 64) ∧
    (2 ≤ size ∧ size ≤ 4096) ∧
    (s.host.ctrls[c.ctrl].cqs.any (fun q => q.id = dw11 / 65536 % 65536) = false) ∧
    (s.host.ctrls[c.ctrl].sqs.all (fun q => decide (q.id ≠ id)) = true) :=
  ⟨(anAdmin), (5), (16), (3), (0), (hostUp), by decide⟩


theorem witness_QueuesCreatedAndDeleted_6 : ∃ (c : CmdId) (q : SubQueue) (s : State),
    (canFetch s (adminId c) = true) ∧
    (busyId s (adminId c) = false) ∧
    (s.power.unit ≠ 2) ∧
    (0 < q.id) ∧
    (q.id < 65536) ∧
    (s.host.ctrls[c.ctrl].sqs = [q]) ∧
    (s.host.ctrls[c.ctrl].deletes = []) ∧
    (s.host.flights = []) :=
  ⟨(anAdmin), (aSq), (withQueues), by decide⟩


theorem witness_QueuesCreatedAndDeleted_7 : ∃ (c : CmdId) (dw10 : Nat) (s : State),
    (adminOpen s c = true) ∧
    (s.host.ctrls[c.ctrl].sqs = []) :=
  ⟨(anAdmin), (5), (withCq), by decide⟩


theorem witness_QueuesCreatedAndDeleted_8 : ∃ (c : CmdId) (q : CompQueue) (s : State),
    (adminOpen s c = true) ∧
    (0 < q.id) ∧
    (q.id < 65536) ∧
    (s.host.ctrls[c.ctrl].cqs = [q]) ∧
    (s.host.ctrls[c.ctrl].sqs.any (fun x => x.cq = q.id) = false) :=
  ⟨(anAdmin), (aCq), (withCq), by decide⟩


theorem witness_QueuesCreatedAndDeleted_9 : ∃ (c : CmdId) (q : CompQueue) (s : State),
    (adminOpen s c = true) ∧
    (0 < q.id) ∧
    (q.id < 65536) ∧
    (s.host.ctrls[c.ctrl].cqs = [q]) ∧
    (s.host.ctrls[c.ctrl].sqs.any (fun x => x.cq = q.id) = true) :=
  ⟨(anAdmin), (aCq), (withQueues), by decide⟩


theorem witness_AdminQueriesAnswered_1 : ∃ (c : CmdId) (nsid lid : Nat) (b : Bytes) (numd : Nat) (s : State),
    (adminOpen s c = true) ∧
    (lid < 256) ∧
    (numd < 65536) ∧
    (logPage s c.ctrl lid false = some b) ∧
    ((lid = 2 → nsid = 0)) :=
  ⟨(anAdmin), (0), (4), (zeroBytes 4096), (3), (hostUp), by decide, by decide, by decide, by rfl, by decide⟩


theorem witness_AdminQueriesAnswered_2 : ∃ (c : CmdId) (nsid dw10 dw11 dw12 dw13 : Nat) (s : State),
    (adminOpen s c = true) ∧
    (logPage s c.ctrl (dw10 % 256) (dw10 % 256 = 0xC && bit dw10 8) = none) :=
  ⟨(anAdmin), (0), (0x7F), (0), (0), (0), (hostUp), by decide⟩


theorem witness_AdminQueriesAnswered_3 : ∃ (c : CmdId) (nsid cns csi : Nat) (b : Bytes) (s : State),
    (adminOpen s c = true) ∧
    (cns < 256) ∧
    (csi < 256) ∧
    (identifyResult s c.ctrl nsid cns csi = .ok b) :=
  ⟨(anAdmin), (5), (0), (0), (zeroBytes 4096), (hostUp), by decide, by decide, by decide, by rfl⟩


theorem witness_AdminQueriesAnswered_4 : ∃ (c : CmdId) (nsid cns csi sct sc : Nat) (d : Option Bool) (s : State),
    (adminOpen s c = true) ∧
    (cns < 256) ∧
    (csi < 256) ∧
    (identifyResult s c.ctrl nsid cns csi = .error (sct, sc, d)) ∧
    (d = none) :=
  ⟨(anAdmin), (33), (0), (0), (0), (0x0B), (none), (hostUp), by decide, by decide, by decide, by rfl, by rfl⟩


theorem witness_AdminQueriesAnswered_5 : ∃ (c : CmdId) (fid dw11 v : Nat) (s : State),
    (adminOpen s c = true) ∧
    (fid < 256) ∧
    (featureValue s c.ctrl fid dw11 = some v) :=
  ⟨(anAdmin), (7), (0), (0x003F003F), (hostUp), by decide⟩


theorem witness_AdminQueriesAnswered_6 : ∃ (c : CmdId) (fid dw11 : Nat) (s : State),
    (adminOpen s c = true) ∧
    (fid < 256) ∧
    (featureValue s c.ctrl fid dw11 = none) :=
  ⟨(anAdmin), (3), (0), (hostUp), by decide⟩


theorem witness_AdminQueriesAnswered_7 : ∃ (c : CmdId) (dw10 : Nat) (s : State),
    (adminOpen s c = true) ∧
    (s.host.flights = []) ∧
    (40 ≤ (stored s 0x2510 9).length) :=
  ⟨(anAdmin), (0x00070005), (hostUp), by decide⟩


theorem witness_AdminQueriesAnswered_8 : ∃ (c : CmdId) (f : Flight) (s : State),
    (adminOpen s c = true) ∧
    (s.host.flights = [f]) ∧
    (f.kind = .read) ∧
    (f.committing = false) ∧
    (f.c.ctrl = c.ctrl) ∧
    (0 < f.c.sq ∧ f.c.sq < 65536) ∧
    (f.c.cid < 65536) ∧
    (40 ≤ (stored s 0x2510 9).length) :=
  ⟨(anAdmin), ({ newFlight { ctrl := 1, sq := 5, cid := 9 } 1 .read with nsid := 1, left := [0] }), ({ withQueues with host := { withQueues.host with flights := [{ newFlight { ctrl := 1, sq := 5, cid := 9 } 1 .read with nsid := 1, left := [0] }] } }), by decide⟩


theorem witness_AdminQueriesAnswered_9 : ∃ (c : CmdId) (s : State),
    (adminOpen s c = true) ∧
    (s.host.ctrls[c.ctrl].aers.length < 8) ∧
    (s.host.ctrls[c.ctrl].events = []) :=
  ⟨(anAdmin), (hostUp), by decide⟩


theorem witness_AdminQueriesAnswered_10 : ∃ (c : CmdId) (s : State),
    (adminOpen s c = true) ∧
    (8 ≤ s.host.ctrls[c.ctrl].aers.length) :=
  ⟨(anAdmin), (setCtrl 1 (fun k => { k with aers := [11, 12, 13, 14, 15, 16, 17, 18] }) hostUp), by decide⟩


theorem witness_AdminQueriesAnswered_11 : ∃ (c : CmdId) (op : Nat) (s : State),
    (adminOpen s c = true) ∧
    (c.sq = 0) :=
  ⟨(anAdmin), (0x55), (hostUp), by decide⟩


theorem witness_FeaturesTakeTheirValues_1 : ∃ (c : CmdId) (v : Nat) (s : State),
    (adminOpen s c = true) ∧
    (v < 2 ^ 32) ∧
    (bits v 7 3 = 0) :=
  ⟨(anAdmin), (0x01020304), (hostUp), by decide⟩


theorem witness_FeaturesTakeTheirValues_2 : ∃ (c : CmdId) (k : Nat) (under : Bool) (s : State),
    (adminOpen s c = true) ∧
    (k < 65536) :=
  ⟨(anAdmin), (370), (true), (hostUp), by decide⟩


theorem witness_FeaturesTakeTheirValues_3 : ∃ (c : CmdId) (a b : Nat) (s : State),
    (adminOpen s c = true) ∧
    (a < 65535) ∧
    (b < 65535) ∧
    (s.host.ctrls[c.ctrl].sqs = []) ∧
    (s.host.ctrls[c.ctrl].cqs = []) :=
  ⟨(anAdmin), (200), (7), (hostUp), by decide⟩


theorem witness_FeaturesTakeTheirValues_4 : ∃ (c : CmdId) (v : Nat) (s : State),
    (adminOpen s c = true) ∧
    (v < 65536) :=
  ⟨(anAdmin), (0x0203), (hostUp), by decide⟩


theorem witness_FeaturesTakeTheirValues_5 : ∃ (c : CmdId) (v : Nat) (cd : Bool) (s : State),
    (adminOpen s c = true) ∧
    (v ≤ 64) :=
  ⟨(anAdmin), (5), (true), (hostUp), by decide⟩


theorem witness_FeaturesTakeTheirValues_6 : ∃ (c : CmdId) (v : Nat) (s : State),
    (adminOpen s c = true) ∧
    (v < 2 ^ 32) :=
  ⟨(anAdmin), (0x0807), (hostUp), by decide⟩


theorem witness_FeaturesTakeTheirValues_7 : ∃ (c : CmdId) (fid : Nat) (sv : Bool) (s : State),
    adminOpen s c = true :=
  ⟨(anAdmin), (3), (false), (hostUp), by decide⟩


theorem witness_FeaturesTakeTheirValues_8 : ∃ (c : CmdId) (v : Nat) (s : State),
    adminOpen s c = true :=
  ⟨(anAdmin), (3), (hostUp), by decide⟩


theorem witness_FeaturesTakeTheirValues_9 : ∃ (c : CmdId) (v : Nat) (s : State),
    (adminOpen s c = true) ∧
    ((¬ s.host.ctrls[c.ctrl].sqs = [] ∨ ¬ s.host.ctrls[c.ctrl].cqs = [])) ∧
    (v % 65536 ≠ 65535) ∧
    (v / 65536 % 65536 ≠ 65535) :=
  ⟨(anAdmin), (3), (withCq), by decide⟩


theorem witness_ImagesDownloaded_1 : ∃ (who : Who) (v : Bytes) (s : State),
    (writePasses s who 0x2610 1 v = true) ∧
    (needsAck s = false) ∧
    (s.fw.slots[otherSlot (inactiveSlot s)].st ≠ 4) ∧
    (s.fw.slots[inactiveSlot s].st ≠ 3) :=
  ⟨(.nvme 0), (zeroBytes 4096), (fwUp), by decide +kernel⟩


theorem witness_ImagesDownloaded_2 : ∃ (who : Who) (v : Bytes) (s : State),
    (writePasses s who 0x2610 2 v = true) ∧
    (needsAck s = false) ∧
    (s.fw.load.state = 1) ∧
    (field v 0 2 < chunkCount s.fw.load.header) ∧
    (field v 0 2 ≠ 0) :=
  ⟨(.nvme 0), ([1, 0, 0, 0] ++ zeroBytes 16416), (loading), by decide +kernel⟩


theorem witness_ImagesDownloaded_3 : ∃ (who : Who) (v : Bytes) (s : State),
    (writePasses s who 0x2610 2 v = true) ∧
    ((s.fw.load.state ≠ 1 ∨ chunkCount s.fw.load.header ≤ field v 0 2)) :=
  ⟨(.nvme 0), ([9, 0, 0, 0] ++ zeroBytes 16416), (loading), by decide +kernel⟩


theorem witness_ImagesDownloaded_4 : ∃ (s : State),
    (s.fw.load.state = 1) ∧
    (s.fw.load.due = true) :=
  ⟨(loaded), by decide⟩


theorem witness_ImagesDownloaded_5 : ∃ (s : State),
    (s.fw.load.state ≠ 1 ∨ s.fw.load.due = false) :=
  ⟨(loading), by decide⟩


theorem witness_ImagesDownloaded_6 : ∃ (s : State),
    (s.pair.role = 1) ∧
    (batonUp s = true) ∧
    (s.fw.load.state = 2) ∧
    (s.fw.slots[inactiveSlot s].st = 2) :=
  ⟨({ fwUp with fw := { fwUp.fw with load := { Download.none with state := 2 } }, pair := { fwUp.pair with role := 1, links := #v[true, false] } }), by decide⟩


theorem witness_ImagesDownloaded_7 : ∃ (s : State),
    (s.pair.role ≠ 1 ∨ batonUp s = false ∨ s.fw.load.state ≠ 2) :=
  ⟨(loading), by decide⟩


theorem witness_ImagesDownloaded_8 : ∃ (who : Who) (v : Bytes) (s : State),
    (writePasses s who 0x2610 4 v = true) ∧
    (needsAck s = false) :=
  ⟨(.nvme 0), (toLE 4 1094864452), (loading), by decide⟩


theorem witness_ImagesDownloaded_9 : ∃ (c : CmdId) (b : Bytes) (s : State),
    (adminOpen s c = true) ∧
    (s.pair.role ≠ 2) ∧
    (s.fw.load.state ≠ 1) ∧
    (4096 ≤ b.length) ∧
    (s.fw.slots[otherSlot (inactiveSlot s)].st ≠ 4) ∧
    (s.fw.slots[inactiveSlot s].st ≠ 3) ∧
    (transferFits (b.take 4096) 0 b.length = true) ∧
    (b.length ≤ 33554432) :=
  ⟨(anAdmin), (patch (zeroBytes 4096) 32 (toLE 4 4096)), (fwUp), by decide +kernel⟩


theorem witness_ImagesDownloaded_10 : ∃ (c : CmdId) (ofst : Nat) (b : Bytes) (s : State),
    (adminOpen s c = true) ∧
    (s.pair.role ≠ 2) ∧
    (s.fw.load.state = 1) ∧
    (s.fw.load.nvme = true) ∧
    (ofst ≠ 0) ∧
    (transferFits s.fw.load.header ofst b.length = true) ∧
    (b.length ≤ 33554432) :=
  ⟨(anAdmin), (32768), (zeroBytes 7232), (loading), by decide +kernel⟩


theorem witness_ImagesDownloaded_11 : ∃ (c : CmdId) (ofst : Nat) (b : Bytes) (s : State),
    (adminOpen s c = true) ∧
    (s.pair.role ≠ 2) ∧
    (s.fw.load.state ≠ 1) ∧
    (ofst ≠ 0) ∧
    (ofst % 16384 = 0) ∧
    (b ≠ []) :=
  ⟨(anAdmin), (16384), ([1]), (fwUp), by decide⟩


theorem witness_ImagesCommittedAndActivated_1 : ∃ (c : CmdId) (fs : Nat) (r : Fin 2) (s : State),
    (adminOpen s c = true) ∧
    (s.pair.role ≠ 2) ∧
    (slotOfFs s fs = some r) ∧
    (s.fw.load.state ≠ 1) ∧
    (s.fw.slots[r].st = 2) :=
  ⟨(anAdmin), (0), (1), (fwUp), by decide⟩


theorem witness_ImagesCommittedAndActivated_2 : ∃ (c : CmdId) (fs : Nat) (s : State),
    (adminOpen s c = true) ∧
    (s.pair.role ≠ 2) ∧
    (slotOfFs s fs = none) :=
  ⟨(anAdmin), (1), (fwUp), by decide⟩


theorem witness_ImagesCommittedAndActivated_3 : ∃ (c : CmdId) (fs : Nat) (ph : Bool) (r : Fin 2) (s : State),
    (adminOpen s c = true) ∧
    (s.pair.role ≠ 1) ∧
    (slotOfFs s fs = some r) ∧
    (s.fw.load.state ≠ 1) ∧
    (actRefused ph s = none) :=
  ⟨(anAdmin), (2), (true), (1), (fwUp), by decide⟩


theorem witness_ImagesCommittedAndActivated_4 : ∃ (c : CmdId) (fs : Nat) (ph : Bool) (r : Fin 2) (e : ActRefusal) (s : State),
    (adminOpen s c = true) ∧
    (s.pair.role ≠ 2) ∧
    (slotOfFs s fs = some r) ∧
    (s.fw.load.state ≠ 1) ∧
    ((s.fw.slots[r].st = 2 ∨ s.fw.slots[r].st = 3)) ∧
    (actRefused ph s = some e) :=
  ⟨(anAdmin), (2), (true), (1), ({ dict := 0x0501, nvme := (1, 0x13, none), pending := false }), (activating 2), by decide, by decide, by decide, by decide, by decide, by rfl⟩


theorem witness_ImagesCommittedAndActivated_5 : ∃ (who : Who) (v : Bytes) (ph : Bool) (s : State),
    (writePasses s who 0x2620 1 v = true) ∧
    (needsAck s = false) ∧
    (s.pair.role ≠ 1) ∧
    (actRefused ph s = none) :=
  ⟨(.nvme 0), (toLE 4 1094931542), (true), (fwUp), by decide⟩


theorem witness_ImagesCommittedAndActivated_6 : ∃ (who : Who) (v : Bytes) (ph : Bool) (e : ActRefusal) (s : State),
    (writePasses s who 0x2620 1 v = true) ∧
    (actRefused ph s = some e) :=
  ⟨(.nvme 0), (toLE 4 1094931542), (true), ({ dict := 0x0501, nvme := (1, 0x13, none), pending := false }), (activating 2), by decide, by rfl⟩


theorem witness_ImagesCommittedAndActivated_7 : ∃ (who : Who) (v : Bytes) (r : Fin 2) (s : State),
    (writePasses s who 0x2600 7 v = true) ∧
    (needsAck s = false) ∧
    (s.fw.running = some r) ∧
    (s.fw.slots[r].st = 4) :=
  ⟨(.nvme 0), (toLE 4 1129138516), (0), (onTrial), by decide⟩


theorem witness_ImagesCommittedAndActivated_8 : ∃ (r : Fin 2) (s : State),
    (s.fw.running = some r) ∧
    (s.fw.slots[r].st = 4) ∧
    (passed s s.fw.trialTick (secTicks (cfg s 0x2600 6)) = true) :=
  ⟨(0), (onTrial), by decide⟩


theorem witness_ImagesCommittedAndActivated_9 : ∃ (s : State),
    passed s s.fw.trialTick (secTicks (cfg s 0x2600 6)) = false :=
  ⟨(State.reset), by decide⟩


theorem witness_ImagesCommittedAndActivated_10 : ∃ (s : State),
    (s.fw.act.state = 1) ∧
    (s.fw.act.rolling = 0) ∧
    (s.fw.act.step = 1) ∧
    (s.fw.act.who = none) :=
  ⟨(activating 1), by decide⟩


theorem witness_ImagesCommittedAndActivated_11 : ∃ (s : State),
    (s.fw.act.state = 1) ∧
    (s.fw.act.rolling = 0) ∧
    (s.fw.act.step = 2) :=
  ⟨(activating 2), by decide⟩


theorem witness_ImagesCommittedAndActivated_12 : ∃ (s : State),
    (s.fw.act.state = 1) ∧
    (s.fw.act.rolling = 0) ∧
    (s.fw.act.step = 3) :=
  ⟨(activating 3), by decide⟩


theorem witness_ImagesCommittedAndActivated_13 : ∃ (s : State),
    (s.fw.act.state = 1) ∧
    (s.fw.act.rolling = 0) ∧
    (s.fw.act.step = 4) :=
  ⟨(activating 4), by decide⟩


theorem witness_ImagesCommittedAndActivated_14 : ∃ (s : State),
    (s.fw.act.state = 1) ∧
    (s.fw.act.rolling = 0) ∧
    (s.fw.act.step = 5) :=
  ⟨(activating 5), by decide⟩


theorem witness_ImagesCommittedAndActivated_15 : ∃ (s : State),
    (s.fw.act.state = 1) ∧
    (s.fw.act.rolling = 0) ∧
    (s.fw.act.step = 6) ∧
    (s.fw.act.who = none) ∧
    (s.host.flights = []) :=
  ⟨(activating 6), by decide⟩


theorem witness_ImagesCommittedAndActivated_16 : ∃ (s : State),
    (s.fw.act.state ≠ 1 ∨ (s.fw.act.rolling ≠ 0 ∧ s.fw.act.rolling ≠ 5)) :=
  ⟨(fwUp), by decide⟩


theorem witness_ImagesCommittedAndActivated_17 : ∃ (s : State),
    (s.fw.act.state = 1) ∧
    (s.fw.act.rolling ≠ 0) ∧
    (s.fw.act.who = none) :=
  ⟨(rolling 3), by decide⟩


theorem witness_ImagesCommittedAndActivated_18 : ∃ (s : State),
    (s.fw.act.state = 1) ∧
    (s.fw.act.rolling = 2) :=
  ⟨(rolling 2), by decide⟩


theorem witness_ImagesCommittedAndActivated_19 : ∃ (ok : Bool) (s : State),
    (s.fw.act.state ≠ 1 ∨ s.fw.act.rolling = 0) :=
  ⟨(true), (fwUp), by decide⟩


theorem witness_SpdmAnswers_2 : ∃ (f : Nat) (s : State),
    1 ≤ s.host.spdm.stage :=
  ⟨(7), (negotiated), by decide⟩


theorem witness_SpdmAnswers_3 : ∃ (asym hash : Nat) (s : State),
    2 ≤ s.host.spdm.stage :=
  ⟨(0x80), (2), (negotiated), by decide⟩


theorem witness_SpdmAnswers_4 : ∃ (s : State),
    3 ≤ s.host.spdm.stage :=
  ⟨(negotiated), by decide⟩


theorem witness_SpdmAnswers_5 : ∃ (off len : Nat) (s : State),
    3 ≤ s.host.spdm.stage :=
  ⟨(0), (64), (negotiated), by decide⟩


theorem witness_SpdmAnswers_6 : ∃ (summary : Nat) (nonce : Bytes) (s : State),
    (3 ≤ s.host.spdm.stage) ∧
    ((summary = 0 ∨ summary = 0xFF)) :=
  ⟨(0xFF), ([9]), (negotiated), by decide⟩


theorem witness_SpdmAnswers_7 : ∃ (index : Nat) (nonce : Option Bytes) (s : State),
    (3 ≤ s.host.spdm.stage) ∧
    (1 ≤ index ∧ index ≤ 7) :=
  ⟨(3), (some [9]), (negotiated), by decide⟩


theorem witness_SpdmAnswers_8 : ∃ (nonce : Option Bytes) (s : State),
    3 ≤ s.host.spdm.stage :=
  ⟨(none), (negotiated), by decide⟩


theorem witness_SpdmAnswers_9 : ∃ (f a h off len slot summary : Nat) (n : Bytes) (m : Option Bytes) (s : State),
    s.host.spdm.stage = 0 :=
  ⟨(1), (2), (3), (4), (5), (0), (0), ([]), (none), (fwUp), by decide⟩


theorem witness_SpdmAnswers_11 : ∃ (c : CmdId) (s : State),
    adminOpen s c = true :=
  ⟨(anAdmin), (fwUp), by decide⟩


theorem witness_SpdmAnswers_12 : ∃ (c : CmdId) (p : Nat) (m : Option Bytes) (s : State),
    (adminOpen s c = true) ∧
    (p ≠ 0xE8) :=
  ⟨(anAdmin), (0), (none), (fwUp), by decide⟩


theorem witness_SpdmAnswers_13 : ∃ (c : CmdId) (len : Nat) (s : State),
    adminOpen s c = true :=
  ⟨(anAdmin), (9), (negotiated), by decide⟩


theorem witness_HostCommandsServed_1 : ∃ (c : CmdId) (nsid slba nlb : Nat) (x : Transfer) (tm : TeamId) (s : State),
    (ioOpen s c = true) ∧
    ((readCheck s nsid slba (nlb + 1)).toOption = some tm) ∧
    (x.list = none) ∧
    (x.data.all (fun off => decide (off + 4096 * (nlb + 1) ≤ cmbBytes s.mem c.ctrl)) = true) ∧
    (s.host.flights = []) ∧
    ((nsAt s tm).built = true) :=
  ⟨(anIo), (1), (60), (9), (⟨none, none⟩), (0), (ioUp), by decide +kernel⟩


theorem witness_HostCommandsServed_2 : ∃ (c : CmdId) (nsid slba nlb : Nat) (x : Transfer) (e : Nat × Nat × Option Bool) (s : State),
    (ioOpen s c = true) ∧
    (readCheck s nsid slba (nlb + 1) = .error e) :=
  ⟨(anIo), (2), (60), (9), (⟨none, none⟩), ((0, 0x0B, none)), (ioUp), by decide, by rfl⟩


theorem witness_HostCommandsServed_3 : ∃ (c : CmdId) (nsid slba nlb : Nat) (x : Transfer) (tm : TeamId) (z : Zone) (s : State),
    (ioOpen s c = true) ∧
    ((writeCheck s nsid slba (nlb + 1) false).toOption = some tm) ∧
    (x.list = none) ∧
    (x.data.all (fun off => decide (off + 4096 * (nlb + 1) ≤ cmbBytes s.mem c.ctrl)) = true) ∧
    (zoneAt (nsAt s tm) (slba / 2 ^ 20) = z) ∧
    ((z.isOpen = true ∨ (openZones s < 128 ∧ activeZones s < 256))) :=
  ⟨(anIo), (1), (64), (3), (⟨none, none⟩), (0), ({ Zone.blank with wp := 64, st := .closed }), (ioUp), by decide +kernel⟩


theorem witness_HostCommandsServed_4 : ∃ (c : CmdId) (nsid slba nlb : Nat) (x : Transfer) (tm : TeamId) (z : Zone) (s : State),
    (ioOpen s c = true) ∧
    ((writeCheck s nsid slba (nlb + 1) true).toOption = some tm) ∧
    (x.list = none) ∧
    (x.data.all (fun off => decide (off + 4096 * (nlb + 1) ≤ cmbBytes s.mem c.ctrl)) = true) ∧
    (zoneAt (nsAt s tm) (slba / 2 ^ 20) = z) ∧
    ((z.isOpen = true ∨ (openZones s < 128 ∧ activeZones s < 256))) :=
  ⟨(anIo), (1), (0), (3), (⟨none, none⟩), (0), ({ Zone.blank with wp := 64, st := .closed }), (ioUp), by decide +kernel⟩


theorem witness_HostCommandsServed_5 : ∃ (c : CmdId) (nsid slba nlb : Nat) (x : Transfer) (e : Nat × Nat × Option Bool) (s : State),
    (ioOpen s c = true) ∧
    (writeCheck s nsid slba (nlb + 1) false = .error e) :=
  ⟨(anIo), (0), (0), (3), (⟨none, none⟩), ((0, 0x0B, none)), (ioUp), by decide, by rfl⟩


theorem witness_HostCommandsServed_6 : ∃ (c : CmdId) (nsid slba nlb : Nat) (x : Transfer) (e : Nat × Nat × Option Bool) (s : State),
    (ioOpen s c = true) ∧
    (writeCheck s nsid slba (nlb + 1) true = .error e) :=
  ⟨(anIo), (0), (0), (3), (⟨none, none⟩), ((0, 0x0B, none)), (ioUp), by decide, by rfl⟩


theorem witness_HostCommandsServed_7 : ∃ (c : CmdId) (nsid slba nlb off len : Nat) (a b : TeamId) (d : Option Nat) (s : State),
    (ioOpen s c = true) ∧
    (cmbBytes s.mem c.ctrl < off + len) ∧
    ((readCheck s nsid slba (nlb + 1)).toOption = some a) ∧
    ((writeCheck s nsid slba (nlb + 1) false).toOption = some b) :=
  ⟨(anIo), (1), (64), (3), (0), (64), (0), (0), (none), (ioUp), by decide +kernel⟩


theorem witness_HostCommandsServed_8 : ∃ (c : CmdId) (nsid : Nat) (tm : TeamId) (s : State),
    (ioOpen s c = true) ∧
    (nsCheck s nsid = .ok tm) ∧
    (s.host.flights = []) ∧
    (((nsAt s tm).extents.map (fun p => p.1)).Pairwise (· < ·)) :=
  ⟨(anIo), (1), (0), (setExtent 0 1 (fun e => { e with lbas := [{ pos := 0, seq := 0, addr := none }] }) ioUp), by decide, by rfl, by decide, by decide⟩


theorem witness_HostCommandsServed_9 : ∃ (c : CmdId) (nsid slba : Nat) (tm : TeamId) (z : Zone) (s : State),
    (ioOpen s c = true) ∧
    ((zoneCheck s nsid slba false).toOption = some tm) ∧
    (zoneAt (nsAt s tm) (slba / 2 ^ 20) = z) ∧
    (z.st ≠ .full) ∧
    (z.st ≠ .readOnly) ∧
    (emptyBelow (nsAt s tm) (slba / 2 ^ 20) = false) ∧
    (openZones s < 128) ∧
    (activeZones s < 256) :=
  ⟨(anIo), (1), (0), (0), ({ Zone.blank with wp := 64, st := .closed }), (setZone 0 0 (fun z => { z with st := .closed }) ioUp), by decide +kernel⟩


theorem witness_HostCommandsServed_10 : ∃ (c : CmdId) (nsid slba : Nat) (tm : TeamId) (z : Zone) (s : State),
    (ioOpen s c = true) ∧
    ((zoneCheck s nsid slba false).toOption = some tm) ∧
    (zoneAt (nsAt s tm) (slba / 2 ^ 20) = z) ∧
    ((z.st = .full ∨ z.st = .readOnly)) :=
  ⟨(anIo), (1), (0), (0), ({ Zone.blank with wp := 64, st := .full }), (setZone 0 0 (fun z => { z with st := .full }) ioUp), by decide +kernel⟩


theorem witness_HostCommandsServed_11 : ∃ (c : CmdId) (nsid slba : Nat) (tm : TeamId) (z : Zone) (s : State),
    (ioOpen s c = true) ∧
    ((zoneCheck s nsid slba false).toOption = some tm) ∧
    (zoneAt (nsAt s tm) (slba / 2 ^ 20) = z) ∧
    (z.isOpen = true) :=
  ⟨(anIo), (1), (0), (0), ({ Zone.blank with wp := 64, st := .implicit }), (setZone 0 0 (fun z => { z with st := .implicit }) ioUp), by decide +kernel⟩


theorem witness_HostCommandsServed_12 : ∃ (c : CmdId) (nsid slba : Nat) (tm : TeamId) (z : Zone) (s : State),
    (ioOpen s c = true) ∧
    ((zoneCheck s nsid slba false).toOption = some tm) ∧
    (zoneAt (nsAt s tm) (slba / 2 ^ 20) = z) ∧
    (z.isOpen = false) ∧
    (z.st ≠ .closed) :=
  ⟨(anIo), (1), (0), (0), ({ Zone.blank with wp := 64, st := .full }), (setZone 0 0 (fun z => { z with st := .full }) ioUp), by decide +kernel⟩


theorem witness_HostCommandsServed_13 : ∃ (c : CmdId) (nsid slba : Nat) (tm : TeamId) (z : Zone) (s : State),
    (ioOpen s c = true) ∧
    ((zoneCheck s nsid slba false).toOption = some tm) ∧
    (zoneAt (nsAt s tm) (slba / 2 ^ 20) = z) ∧
    (z.st ≠ .readOnly) ∧
    (s.host.flights = []) :=
  ⟨(anIo), (1), (0), (0), ({ Zone.blank with wp := 64, st := .closed }), (setZone 0 0 (fun z => { z with st := .closed }) ioUp), by decide +kernel⟩


theorem witness_HostCommandsServed_14 : ∃ (c : CmdId) (nsid slba : Nat) (all : Bool) (tm : TeamId) (s : State),
    (ioOpen s c = true) ∧
    (nsCheck s nsid = .ok tm) :=
  ⟨(anIo), (1), (0), (true), (0), (ioUp), by decide, by rfl⟩


theorem witness_HostCommandsServed_15 : ∃ (c : CmdId) (nsid slba option numd : Nat) (part : Bool) (tm : TeamId) (s : State),
    (ioOpen s c = true) ∧
    (nsCheck s nsid = .ok tm) ∧
    ((nsAt s tm).built = true) ∧
    (slba < nsSize (nsAt s tm)) ∧
    (option ≤ 7) ∧
    (numd < 2 ^ 18) :=
  ⟨(anIo), (1), (0), (0), (47), (true), (0), (ioUp), by decide, by rfl, by decide, by decide, by decide, by decide⟩


theorem witness_HostQueuesAndWaits_1 : ∃ (p : PortId) (q v : Nat) (x : SubQueue) (s : State),
    (q ≠ 0) ∧
    (s.host.ctrls[p].sqs.find? (fun y => y.id = q) = some x) ∧
    (v < x.size) :=
  ⟨(1), (5), (7), (aSq), (withQueues), by decide⟩


theorem witness_HostQueuesAndWaits_2 : ∃ (p : PortId) (q v : Nat) (x : CompQueue) (s : State),
    (q ≠ 0) ∧
    (s.host.ctrls[p].cqs.find? (fun y => y.id = q) = some x) ∧
    (v < x.size) ∧
    (x.held = []) :=
  ⟨(1), (3), (7), (aCq), (withQueues), by decide⟩


theorem witness_HostQueuesAndWaits_3 : ∃ (p : PortId) (q v : Nat) (x : CompQueue) (e : CqEntry) (rest : List CqEntry) (s : State),
    (q ≠ 0) ∧
    (s.host.ctrls[p].cqs.find? (fun y => y.id = q) = some x) ∧
    (v < x.size) ∧
    (x.held = e :: rest) ∧
    ((x.tail + 1) % x.size ≠ v) :=
  ⟨(1), (3), (7), ({ aCq with held := [{ c := anIo, sct := 0, sc := 0, dnr := none, dw0 := 0, dw1 := 0 }] }), ({ c := anIo, sct := 0, sc := 0, dnr := none, dw0 := 0, dw1 := 0 }), ([]), (setCtrl 1 (fun k => { k with cqs := [{ aCq with held := [{ c := anIo, sct := 0, sc := 0, dnr := none, dw0 := 0, dw1 := 0 }] }] }) withQueues), by decide⟩


theorem witness_HostQueuesAndWaits_4 : ∃ (p : PortId) (q v : Nat) (s : State),
    (q ≠ 0) ∧
    (s.host.ctrls[p].ready = true) ∧
    (s.host.ctrls[p].masked.contains 0 = false) ∧
    (s.host.ctrls[p].aers = []) ∧
    (s.host.ctrls[p].sqs.find? (fun y => y.id = q) = none) :=
  ⟨(1), (9), (7), (withQueues), by decide⟩


theorem witness_HostQueuesAndWaits_5 : ∃ (p : PortId) (q v : Nat) (s : State),
    (q ≠ 0) ∧
    (s.host.ctrls[p].ready = true) ∧
    (s.host.ctrls[p].masked.contains 0 = false) ∧
    (s.host.ctrls[p].aers = []) ∧
    (s.host.ctrls[p].cqs.find? (fun y => y.id = q) = none) :=
  ⟨(1), (9), (7), (withQueues), by decide⟩


theorem witness_HostQueuesAndWaits_6 : ∃ (c : CmdId) (f : Flight) (s : State),
    (s.host.frozen = false) ∧
    (needsAck s = false) ∧
    (cqRoom s c = true) ∧
    (s.host.flights = [f]) ∧
    (f.c = c) ∧
    (f.kind = .read) ∧
    (f.left = []) ∧
    (f.status = none) ∧
    (f.committing = false) ∧
    (f.silent = false) ∧
    (s.host.ctrls[c.ctrl].deletes = []) ∧
    (s.host.reassembly = []) :=
  ⟨(anIo), (doneRead), (flying doneRead), by decide⟩


theorem witness_HostQueuesAndWaits_7 : ∃ (c : CmdId) (s : State),
    s.host.frozen = true :=
  ⟨(anIo), (activating 9 |> fun s => { s with host := { s.host with frozen := true } }), by decide⟩


theorem witness_HostQueuesAndWaits_8 : ∃ (tm : TeamId) (k : Nat) (f : Flight) (s : State),
    ((nsAt s tm).detached = some k) ∧
    ((teamAt s tm).st ≠ .attached) ∧
    (passed s k (secTicks (cfg s (teamIdx tm 0x18) 3)) = true) ∧
    (s.host.flights = [f]) ∧
    (f.nsid = tm.val + 1) ∧
    (f.kind = .read) ∧
    (f.committing = false) ∧
    (f.silent = false) ∧
    (needsAck s = false) ∧
    (s.host.frozen = false) ∧
    (cqRoom s f.c = true) :=
  ⟨(0), (5), ({ doneRead with left := [0] }), (setTeam 0 (fun x => { x with st := .assembling, ns := { x.ns with detached := some 5 } }) (flying { doneRead with left := [0] })), by decide⟩


theorem witness_HostQueuesAndWaits_9 : ∃ (tm : TeamId) (s : State),
    (nsAt s tm).detached = none :=
  ⟨(0), (State.reset), by decide⟩


theorem witness_HostQueuesAndWaits_10 : ∃ (tm : TeamId) (x k z : Nat) (q : Zone) (s : State),
    ((extentAt (nsAt s tm) x).bind (fun e => e.heldSince) = some k) ∧
    (passed s k (msTicks (cfg s (teamIdx tm 0x18) 4)) = true) ∧
    ((nsAt s tm).zones.filter (fun q => decide (q.1 < x / 16384) && q.2.isActive) = [(z, q)]) :=
  ⟨(0), (16384), (5), (0), ({ Zone.blank with wp := 64, st := .closed }), (setExtent 0 16384 (fun e => { e with heldSince := some 5 }) (flying doneRead)), by decide⟩


theorem witness_HostQueuesAndWaits_11 : ∃ (tm : TeamId) (x : Nat) (s : State),
    (extentAt (nsAt s tm) x).bind (fun e => e.heldSince) = none :=
  ⟨(0), (16384), (State.reset), by decide⟩


theorem witness_HostQueuesAndWaits_12 : ∃ (n : LaneId) (tm : TeamId) (w : Nat) (f : Flight) (s : State),
    (teamOfLane s n = some tm) ∧
    (s.host.flights = [f]) ∧
    (f.nsid = tm.val + 1) ∧
    (f.kind = .read) ∧
    (usesLane s f n = true) ∧
    (f.left.all (fun l => decide (lbaLane s tm l = some n)) = true) ∧
    (f.waits = [(n, w)]) ∧
    (w + secTicks (cfg s (teamIdx tm 0x1C) 1) ≤ s.ticks) ∧
    (f.badLba = none) ∧
    (f.committing = false) ∧
    (f.silent = false) ∧
    (needsAck s = false) ∧
    (s.host.frozen = false) ∧
    (cqRoom s f.c = true) :=
  ⟨(0), (0), (0), ({ doneRead with left := [3], waits := [(0, 0)] }), ({ flying { doneRead with left := [3], waits := [(0, 0)] } with ticks := 2 ^ 50 }), by decide⟩


theorem witness_HostQueuesAndWaits_13 : ∃ (n : LaneId) (s : State),
    teamOfLane s n = none :=
  ⟨(0), (store 0x3000 1 [0, 0, 0, 0] State.reset), by decide⟩


theorem witness_HostQueuesAndWaits_14 : ∃ (tm : TeamId) (s : State),
    ((nsAt s tm).listed = true) ∧
    ((nsAt s tm).built = false) ∧
    ((teamAt s tm).st = .attached) ∧
    ((teamDiscs s tm).length = (nsAt s tm).count) ∧
    ((teamDiscs s tm).all (fun q => !q.2.2.scanDue) = true) ∧
    ((teamDiscs s tm).any (fun q => q.2.2.closed || (List.ofFn (fun p : Fin 32 => p)).any (fun p => (unwritableFrom q.2.2 p).isSome)) = false) :=
  ⟨(0), (setTeam 0 (fun x => { x with st := .attached, ns := { x.ns with listed := true } }) up), by decide⟩


theorem witness_HostQueuesAndWaits_15 : ∃ (tm : TeamId) (s : State),
    ((nsAt s tm).listed = false ∨ (nsAt s tm).built = true) :=
  ⟨(0), (State.reset), by decide⟩


theorem witness_HostQueuesAndWaits_16 : ∃ (p : PortId) (ams aqa : Nat) (s : State),
    s.host.ctrls[p].speed ≠ 0 :=
  ⟨(1), (1), (0xF000F), (setCtrl 1 (fun k => { k with speed := 3, width := 4 }) up), by decide⟩


theorem witness_HostQueuesAndWaits_17 : ∃ (p : PortId) (s : State),
    s.host.flights.all (fun f => !f.writes || (teamOfNsid f.nsid).isSome) = true :=
  ⟨(1), (flying doneRead), by decide⟩


theorem witness_HostQueuesAndWaits_19 : ∃ (who : Who) (v : Bytes) (s : State),
    (writePasses s who 0x2510 3 v = true) ∧
    (needsAck s = false) :=
  ⟨(.nvme 0), ([1]), (hostUp), by decide⟩


theorem witness_HostQueuesAndWaits_20 : ∃ (p : PortId) (k : Nat) (s : State),
    s.host.ctrls[p].cqs.any (fun q => decide (q.vector = k) && q.ien && decide (q.waiting ≠ 0)) = true :=
  ⟨(1), (3), (setCtrl 1 (fun k => { k with cqs := [{ aCq with waiting := 2 }] }) hostUp), by decide⟩


theorem witness_HostQueuesAndWaits_21 : ∃ (p : PortId) (k : Nat) (s : State),
    s.host.ctrls[p].cqs.any (fun q => decide (q.vector = k) && q.ien && decide (q.waiting ≠ 0)) = false :=
  ⟨(1), (3), (withCq), by decide⟩


theorem witness_BufferMemoryServed_1 : ∃ (s : State),
    (s.mem.fillDone = false) ∧
    ((channelsUsed s.mem).isEmpty = false) :=
  ⟨({ memUp with mem := { memUp.mem with fillDone := false } }), by decide⟩


theorem witness_BufferMemoryServed_2 : ∃ (s : State),
    (s.mem.fillDone = true ∨ (channelsUsed s.mem).isEmpty = true) :=
  ⟨(memUp), by decide⟩


theorem witness_BufferMemoryServed_3 : ∃ (p : PortId) (off line w : Nat) (data : Bytes) (ep : Bool) (s : State),
    (s.cache.serving = true) ∧
    (off + data.length ≤ cmbBytes s.mem p) ∧
    (data ≠ []) ∧
    (line = ((regionOf s.mem (2 + p.val)).1 + off) / 64) ∧
    (((regionOf s.mem (2 + p.val)).1 + off) % 64 + data.length ≤ 64) ∧
    (findWay s.cache line = some w) ∧
    (s.cache.misses[bankOf line] = none) ∧
    ((slotAt s.cache (setOf line) w).poison = 0) ∧
    ((slotAt s.cache (setOf line) w).data.length = 64) :=
  ⟨(0), (5), (75497472), (3), ([1, 2, 3]), (true), (cmbResident), by decide +kernel⟩


theorem witness_BufferMemoryServed_4 : ∃ (p : PortId) (off len line w : Nat) (s : State),
    (s.cache.serving = true) ∧
    (off + len ≤ cmbBytes s.mem p) ∧
    (0 < len) ∧
    (line = ((regionOf s.mem (2 + p.val)).1 + off) / 64) ∧
    (((regionOf s.mem (2 + p.val)).1 + off) % 64 + len ≤ 64) ∧
    (findWay s.cache line = some w) ∧
    (s.cache.misses[bankOf line] = none) ∧
    ((slotAt s.cache (setOf line) w).poison = 0) :=
  ⟨(0), (5), (3), (75497472), (3), (cmbResident), by decide +kernel⟩


theorem witness_BufferMemoryServed_5 : ∃ (p : PortId) (off len : Nat) (data : Bytes) (ep : Bool) (s : State),
    (s.cache.serving = true) ∧
    (cmbBytes s.mem p < off + len) ∧
    (data.length = len) :=
  ⟨(1), (16777215), (2), ([1, 2]), (false), (memUp), by decide⟩


theorem witness_BufferMemoryServed_6 : ∃ (p : PortId) (off len : Nat) (data : Bytes) (ep : Bool) (s : State),
    s.cache.serving = false :=
  ⟨(1), (0), (2), ([1, 2]), (false), (State.reset), by decide⟩


theorem witness_BufferMemoryServed_7 : ∃ (c : CmdId) (lba : Nat) (data : Bytes) (ep err : Bool) (tm : TeamId) (f : Flight) (e : Extent) (s : State),
    (s.host.flights = [f]) ∧
    (f.c = c) ∧
    (f.writes = true) ∧
    (teamOfNsid f.nsid = some tm) ∧
    (f.left.contains lba = true) ∧
    (extentAt (nsAt s tm) (lba / 64) = some e) ∧
    (e.lbas = [{ pos := lba % 64, seq := f.seq, addr := none }]) :=
  ⟨(anIo), (64), ([1]), (false), (false), (0), (aWrite), ({ Extent.fresh with lbas := [{ pos := 0, seq := 1, addr := none }] }), (writing), by decide⟩


theorem witness_BufferMemoryServed_8 : ∃ (flips : List (Nat × Nat)) (s : State),
    (s.mem.fillDone = true) ∧
    (s.power.unit = 0) ∧
    (s.mem.pass = none) ∧
    (cfg s 0x2310 1 = 0) ∧
    (s.mem.lapPos + 128 < bufferSize s.mem) :=
  ⟨([]), (memUp), by decide⟩


theorem witness_BufferMemoryServed_9 : ∃ (flips : List (Nat × Nat)) (x : Summary) (s : State),
    (s.mem.fillDone = true) ∧
    (s.power.unit = 0) ∧
    (s.mem.pass = some x) ∧
    (s.mem.passPos + 128 < x.start + x.length) :=
  ⟨([]), ({ Summary.blank with length := 512 }), ({ memUp with mem := { memUp.mem with pass := some { Summary.blank with length := 512 } } }), by decide⟩


theorem witness_BufferMemoryServed_10 : ∃ (flips : List (Nat × Nat)) (x : Summary) (s : State),
    (s.mem.fillDone = true) ∧
    (s.power.unit = 0) ∧
    (s.mem.pass = some x) ∧
    (x.start + x.length ≤ s.mem.passPos + 128) :=
  ⟨([]), ({ Summary.blank with length := 128 }), ({ memUp with mem := { memUp.mem with pass := some { Summary.blank with length := 128 } } }), by decide⟩


theorem witness_BufferMemoryServed_11 : ∃ (flips : List (Nat × Nat)) (s : State),
    (s.mem.fillDone = false ∨ s.power.unit ≠ 0) :=
  ⟨([]), (State.reset), by decide⟩


theorem witness_BufferMemoryServed_12 : ∃ (who : Who) (v : Bytes) (s : State),
    (writePasses s who 0x2310 1 v = true) ∧
    (needsAck s = false) ∧
    (s.mem.pass = none) :=
  ⟨(.nvme 0), ([1]), (memUp), by decide⟩


theorem witness_BufferMemoryServed_13 : ∃ (who : Who) (v : Bytes) (s : State),
    (writePasses s who 0x2310 1 v = true) ∧
    (s.mem.pass.isSome = true) :=
  ⟨(.nvme 0), ([1]), ({ memUp with mem := { memUp.mem with pass := some Summary.blank } }), by decide⟩


theorem witness_BufferMemoryServed_14 : ∃ (who : Who) (v : Bytes) (s : State),
    (writePasses s who 0x2311 3 v = true) ∧
    (needsAck s = false) ∧
    (s.mem.pass = none) ∧
    (cfg s 0x2310 1 ≠ 0) ∧
    (elem s 0x2311 1 8 0 % 128 = 0) ∧
    (elem s 0x2311 1 8 1 % 128 = 0) ∧
    (elem s 0x2311 1 8 1 ≠ 0) ∧
    (elem s 0x2311 1 8 0 + elem s 0x2311 1 8 1 ≤ bufferSize s.mem) :=
  ⟨(.nvme 0), (toLE 4 1346458451), (store 0x2310 1 [1] (store 0x2311 1 (toLE 8 0 ++ toLE 8 256) memUp)), by decide +kernel⟩


theorem witness_BufferMemoryServed_15 : ∃ (who : Who) (v : Bytes) (s : State),
    (writePasses s who 0x2311 3 v = true) ∧
    ((s.mem.pass.isSome = true ∨ cfg s 0x2310 1 = 0)) :=
  ⟨(.nvme 0), (toLE 4 1346458451), (memUp), by decide⟩


theorem witness_BufferMemoryServed_16 : ∃ (who : Who) (v : Bytes) (x : Summary) (s : State),
    (writePasses s who 0x2311 6 v = true) ∧
    (needsAck s = false) ∧
    (s.mem.pass = some x) :=
  ⟨(.nvme 0), (toLE 4 1094865492), (Summary.blank), ({ memUp with mem := { memUp.mem with pass := some Summary.blank } }), by decide⟩


theorem witness_BufferMemoryServed_18 : ∃ (ch : PortId) (cause : Nat) (s : State),
    (s.mem.chan[ch].ready = true) ∧
    (s.sup.resetDue = false) ∧
    (((cause = 0 ∧ 3 ≤ s.mem.chan[ch].parityTries) ∨ (cause = 1 ∧ 64 ≤ s.mem.chan[ch].badReads))) :=
  ⟨(0), (1), ({ memUp with mem := { memUp.mem with chan := memUp.mem.chan.set 0 { memUp.mem.chan[0] with badReads := 64 } } }), by decide⟩


theorem witness_BufferMemoryServed_19 : ∃ (ch : PortId) (cause : Nat) (s : State),
    (s.mem.chan[ch].ready = false ∨ 1 < cause) :=
  ⟨(0), (1), (State.reset), by decide⟩


theorem witness_CacheServed_1 : ∃ (a w : Nat) (s : State),
    (s.cache.serving = true) ∧
    (inBuffer s.mem a = true) ∧
    (s.cache.misses[bankOf (a / 64)] = none) ∧
    (findWay s.cache (a / 64) = some w) ∧
    ((slotAt s.cache (setOf (a / 64)) w).poison = 0) :=
  ⟨(5), (2), (resident), by decide⟩


theorem witness_CacheServed_2 : ∃ (a w : Nat) (d : Bytes) (s : State),
    (s.cache.serving = true) ∧
    (inBuffer s.mem a = true) ∧
    (s.cache.misses[bankOf (a / 64)] = none) ∧
    (findWay s.cache (a / 64) = some w) ∧
    ((slotAt s.cache (setOf (a / 64)) w).data.length = 64) ∧
    (a % 64 + d.length ≤ 64) :=
  ⟨(5), (2), ([1, 2]), (resident), by decide⟩


theorem witness_CacheServed_3 : ∃ (a : Nat) (s : State),
    (s.cache.serving = true) ∧
    (inBuffer s.mem a = true) ∧
    (s.cache.misses[bankOf (a / 64)] = none) ∧
    (findWay s.cache (a / 64) = none) :=
  ⟨(5), (memUp), by decide⟩


theorem witness_CacheServed_4 : ∃ (a : Nat) (d : Option Bytes) (fl : List (Nat × Nat)) (s : State),
    (s.cache.serving = true) ∧
    (inBuffer s.mem a = false) :=
  ⟨(34359738368), (none), ([]), (memUp), by decide⟩


theorem witness_CacheServed_5 : ∃ (a : Nat) (d : Option Bytes) (fl : List (Nat × Nat)) (s : State),
    s.cache.serving = false :=
  ⟨(0), (none), ([]), (State.reset), by decide⟩


theorem witness_CacheServed_6 : ∃ (b : Fin 16) (m : Miss) (fl : List (Nat × Nat)) (s : State),
    (s.cache.misses[b] = some m) ∧
    (wbFull s.cache = false) ∧
    (m.way < 16) ∧
    (wayMode s.cache m.way ≤ 1) ∧
    (s.cache.maint.deferred = []) ∧
    ((∀ k : Fin 16, (s.cache.misses[k]).all (fun x => decide (bankOf x.line = k)) = true)) :=
  ⟨(0), ({ line := 0, way := 0, write := none, tick := 0 }), ([]), ({ memUp with cache := { memUp.cache with misses := memUp.cache.misses.set 0 (some { line := 0, way := 0, write := none, tick := 0 }) } }), by decide⟩


theorem witness_CacheServed_7 : ∃ (b : Fin 16) (fl : List (Nat × Nat)) (s : State),
    s.cache.misses[b] = none :=
  ⟨(0), ([]), (memUp), by decide⟩


theorem witness_CacheServed_8 : ∃ (w : WriteBack) (rest : List WriteBack) (s : State),
    (s.cache.wb = w :: rest) ∧
    (s.mem.wf = true) :=
  ⟨({ line := 9, data := List.replicate 64 3, poison := 0 }), ([]), ({ memUp with cache := { memUp.cache with wb := [{ line := 9, data := List.replicate 64 3, poison := 0 }] } }), by decide⟩


theorem witness_CacheServed_9 : ∃ (s : State),
    s.cache.wb = [] :=
  ⟨(memUp), by decide⟩


theorem witness_CacheServed_10 : ∃ (who : Who) (v : Bytes) (s : State),
    (writePasses s who 0x2401 1 v = true) ∧
    (needsAck s = false) ∧
    (s.cache.change = none) ∧
    (s.cache.maint.state ≠ 1) ∧
    (s.cache.serving = true) ∧
    (v.map (fun b => b.toNat) ≠ s.cache.modes) :=
  ⟨(.nvme 0), ([0, 0, 0, 0, 0, 0, 0, 0, 0, 0, 0, 0, 2, 1, 3, 3]), (memUp), by decide⟩


theorem witness_CacheServed_11 : ∃ (who : Who) (v : Bytes) (s : State),
    (writePasses s who 0x2401 1 v = true) ∧
    ((s.cache.change.isSome = true ∨ s.cache.maint.state = 1)) :=
  ⟨(.nvme 0), ([0, 0, 0, 0, 0, 0, 0, 0, 0, 0, 0, 0, 2, 1, 3, 3]), ({ memUp with cache := { memUp.cache with maint := { Maint.idle with state := 1 } } }), by decide⟩


theorem witness_CacheServed_12 : ∃ (l : List Nat) (s : State),
    (s.cache.change = some l) ∧
    (l.length = 16) ∧
    (s.cache.modes.length = 16) :=
  ⟨([0, 0, 0, 0, 0, 0, 0, 0, 0, 0, 0, 0, 2, 1, 3, 3]), ({ resident with cache := { resident.cache with change := some [0, 0, 0, 0, 0, 0, 0, 0, 0, 0, 0, 0, 2, 1, 3, 3] } }), by decide⟩


theorem witness_CacheServed_13 : ∃ (s : State),
    s.cache.change = none :=
  ⟨(memUp), by decide⟩


theorem witness_CacheServed_14 : ∃ (who : Who) (v : Bytes) (s : State),
    (writePasses s who 0x2410 1 v = true) ∧
    (needsAck s = false) ∧
    (field v 0 1 = 1) ∧
    (maintOk s v = true) ∧
    (field v 1 1 = 0) :=
  ⟨(.nvme 0), (maintValue 1 0 0 4096), (resident), by decide⟩


theorem witness_CacheServed_15 : ∃ (who : Who) (v : Bytes) (s : State),
    (writePasses s who 0x2410 1 v = true) ∧
    (needsAck s = false) ∧
    (field v 0 1 = 2) ∧
    (maintOk s v = true) ∧
    (field v 1 1 = 0) ∧
    ((s.cache.slots.map (fun p => p.1)).Pairwise (· < ·)) :=
  ⟨(.nvme 0), (maintValue 2 0 0 4096), (resident), by decide⟩


theorem witness_CacheServed_16 : ∃ (who : Who) (v : Bytes) (s : State),
    (writePasses s who 0x2410 1 v = true) ∧
    (needsAck s = false) ∧
    (field v 0 1 = 3) ∧
    (maintOk s v = true) ∧
    (field v 1 1 = 0) ∧
    ((s.cache.slots.map (fun p => p.1)).Pairwise (· < ·)) :=
  ⟨(.nvme 0), (maintValue 3 0 0 4096), (resident), by decide⟩


theorem witness_CacheServed_17 : ∃ (who : Who) (v : Bytes) (s : State),
    (writePasses s who 0x2410 1 v = true) ∧
    (needsAck s = false) ∧
    (field v 0 1 = 4) ∧
    (maintOk s v = true) ∧
    (field v 16 8 = 64) ∧
    (s.cache.misses = Vector.replicate 16 none) :=
  ⟨(.nvme 0), (maintValue 4 5 128 64), (resident), by decide⟩


theorem witness_CacheServed_18 : ∃ (who : Who) (v : Bytes) (s : State),
    (writePasses s who 0x2410 1 v = true) ∧
    ((s.cache.maint.state = 1 ∨ s.cache.change.isSome = true)) ∧
    (1 ≤ field v 0 1) ∧
    (field v 0 1 ≤ 4) :=
  ⟨(.nvme 0), (maintValue 4 5 128 64), ({ memUp with cache := { memUp.cache with maint := { Maint.idle with state := 1 } } }), by decide⟩


theorem witness_CacheServed_19 : ∃ (s : State),
    (s.cache.maint.state = 1) ∧
    (s.cache.maint.deferred = []) :=
  ⟨({ memUp with cache := { memUp.cache with maint := { Maint.idle with state := 1, locked := 2 } } }), by decide⟩


theorem witness_CacheServed_20 : ∃ (s : State),
    s.cache.maint.state ≠ 1 :=
  ⟨(memUp), by decide⟩


theorem witness_PairFormsAndParts_1 : ∃ (s : State),
    (s.pair.decided = false) ∧
    (passed s s.pair.began (secTicks 1) = true) ∧
    (s.pair.peerAlive = false) ∧
    (batonUp s = false) :=
  ⟨({ up with ticks := 2 ^ 45 }), by decide⟩


theorem witness_PairFormsAndParts_2 : ∃ (s : State),
    s.pair.decided = true :=
  ⟨(paired 1), by decide⟩


theorem witness_PairFormsAndParts_3 : ∃ (serial : Bytes) (s : State),
    batonUp s = false :=
  ⟨([65]), (up), by decide⟩


theorem witness_PairFormsAndParts_4 : ∃ (low : Nat) (s : State),
    (s.pair.alive = true) ∧
    (s.pair.hold = false) ∧
    (s.work.taking = none) ∧
    (s.pair.decided = true) ∧
    ((s.pair.role = 0 ∨ (s.pair.role = 3 ∧ batonUp s = false ∧ s.pair.hello = none))) ∧
    (2400 ≤ low) ∧
    (claimWait ≤ low) :=
  ⟨(480000000), ({ paired 0 with pair := { (paired 0).pair with hold := false } }), by decide, by decide, by decide, by decide, by decide, by decide, by unfold claimWait; split <;> decide⟩


theorem witness_PairFormsAndParts_5 : ∃ (low k : Nat) (s : State),
    (s.pair.alive = true) ∧
    (s.pair.hold = false) ∧
    (s.work.taking = some (k, 0)) ∧
    (s.work.armed = false) ∧
    (2400 ≤ low) :=
  ⟨(2400), (5), (takingOver 0), by decide⟩


theorem witness_PairFormsAndParts_6 : ∃ (low : Nat) (s : State),
    (s.pair.alive = false ∨ s.pair.hold = true ∨ low < 2400) :=
  ⟨(2399), (paired 2), by decide⟩


theorem witness_PairFormsAndParts_7 : ∃ (s : State),
    s.pair.hold = true :=
  ⟨(paired 1), by decide⟩


theorem witness_PairFormsAndParts_8 : ∃ (s : State),
    s.pair.hold = false :=
  ⟨(paired 2), by decide⟩


theorem witness_PairFormsAndParts_9 : ∃ (s : State),
    (s.pair.hold = true) ∧
    (s.power.unit ≠ 2) ∧
    (s.pair.role ≠ 1) :=
  ⟨({ paired 3 with pair := { (paired 3).pair with hold := true } }), by decide⟩


theorem witness_PairFormsAndParts_10 : ∃ (s : State),
    (s.pair.hold = true) ∧
    (s.power.unit ≠ 2) ∧
    (s.pair.role = 1) ∧
    (s.work.armed = true) :=
  ⟨(drilling 1), by decide⟩


theorem witness_PairFormsAndParts_11 : ∃ (s : State),
    (s.pair.hold = false ∨ s.power.unit = 2) :=
  ⟨(paired 2), by decide⟩


theorem witness_PairFormsAndParts_12 : ∃ (k : PortId) (serial : Bytes) (s : State),
    (batonUp s = false) ∧
    (s.power.unit ≠ 2) :=
  ⟨(1), ([65]), (fwUp), by decide⟩


theorem witness_PairFormsAndParts_13 : ∃ (k : PortId) (serial : Bytes) (s : State),
    (batonUp s = true) ∧
    (s.pair.links[k] = false) ∧
    (s.power.unit ≠ 2) :=
  ⟨(1), ([65]), (paired 1), by decide⟩


theorem witness_PairFormsAndParts_14 : ∃ (k : PortId) (serial : Bytes) (s : State),
    (s.pair.links[k] = true ∨ s.power.unit = 2) :=
  ⟨(0), ([65]), (paired 1), by decide⟩


theorem witness_PairFormsAndParts_15 : ∃ (k j : PortId) (s : State),
    (s.pair.links[k] = true) ∧
    (j ≠ k) ∧
    (s.pair.links[j] = true) :=
  ⟨(0), (1), ({ paired 1 with pair := { (paired 1).pair with links := #v[true, true] } }), by decide⟩


theorem witness_PairFormsAndParts_16 : ∃ (k : PortId) (s : State),
    s.pair.links[k] = false :=
  ⟨(1), (paired 1), by decide⟩


theorem witness_PairFormsAndParts_17 : ∃ (s : State),
    (s.pair.peerSerial ≠ []) ∧
    (s.work.taking = none) :=
  ⟨(paired 1), by decide⟩


theorem witness_PairFormsAndParts_18 : ∃ (s : State),
    (s.pair.peerSerial = []) ∧
    (s.pair.role = 0) :=
  ⟨(up), by decide⟩


theorem witness_PairFormsAndParts_19 : ∃ (epoch seq cut : Nat) (body : Bytes) (side : Bool) (r : Nat) (s : State),
    (hearsBaton s s.pair.epoch seq body = true) ∧
    (epoch < 2 ^ 32) ∧
    (helloReason s body side = some r) :=
  ⟨(0), (9), (0), ([9, 9]), (true), (1), (paired 1), by decide⟩


theorem witness_PairFormsAndParts_20 : ∃ (epoch seq cut : Nat) (body : Bytes) (side : Bool) (s : State),
    (hearsBaton s s.pair.epoch seq body = true) ∧
    (epoch < 2 ^ 32) :=
  ⟨(0), (9), (0), ([1, 0]), (true), (paired 1), by decide⟩


theorem witness_PairFormsAndParts_21 : ∃ (s : State),
    (s.pair.role = 2) ∧
    (s.work.suppressed = false) ∧
    (s.work.taking = none) :=
  ⟨(paired 2), by decide⟩


theorem witness_PairFormsAndParts_22 : ∃ (s : State),
    s.pair.role ≠ 2 :=
  ⟨(paired 1), by decide⟩


theorem witness_PairFormsAndParts_23 : ∃ (s : State),
    (s.pair.role = 2) ∧
    (s.work.suppressed = false) ∧
    (s.work.taking = none) ∧
    (passed s s.work.lastBeat 29280 = true) :=
  ⟨(paired 2), by decide⟩


theorem witness_PairFormsAndParts_24 : ∃ (s : State),
    (s.pair.role ≠ 2 ∨ passed s s.work.lastBeat 29280 = false) :=
  ⟨(paired 1), by decide⟩


theorem witness_PairFormsAndParts_25 : ∃ (k cause : Nat) (s : State),
    (s.work.taking = some (k, cause)) ∧
    (passed s k 36000 = true) ∧
    (cause ≠ 3) :=
  ⟨(5), (1), (takingOver 1), by decide⟩


theorem witness_PairFormsAndParts_26 : ∃ (s : State),
    s.work.taking = none :=
  ⟨(paired 1), by decide⟩


theorem witness_PairWorksTogether_1 : ∃ (s : State),
    (s.pair.role = 1) ∧
    (s.pair.hold = true) ∧
    (batonUp s = true) ∧
    (s.power.unit ≠ 2) ∧
    (passed s s.work.lastCut 9120 = true) ∧
    (s.work.drill = none) :=
  ⟨(paired 1), by decide⟩


theorem witness_PairWorksTogether_2 : ∃ (s : State),
    (s.pair.role ≠ 1 ∨ s.pair.hold = false ∨ batonUp s = false) :=
  ⟨(paired 2), by decide⟩


theorem witness_PairWorksTogether_3 : ∃ (epoch seq cut timer time : Nat) (s : State),
    (hearsBaton s epoch seq (zeroBytes 20) = true) ∧
    (s.pair.role = 2) ∧
    (timer < 2 ^ 64) ∧
    (time < 2 ^ 64) :=
  ⟨(0), (9), (0), (5), (5), (paired 2), by decide⟩


theorem witness_PairWorksTogether_4 : ∃ (epoch seq cut : Nat) (body : Bytes) (s : State),
    (hearsBaton s epoch seq body = true) ∧
    (s.pair.role = 2) :=
  ⟨(0), (9), (0), ([1, 2]), (paired 2), by decide⟩


theorem witness_PairWorksTogether_5 : ∃ (epoch seq cut : Nat) (body : Bytes) (s : State),
    (hearsBaton s epoch seq body = true) ∧
    (s.pair.role = 2) :=
  ⟨(0), (9), (0), ([1, 2]), (paired 2), by decide⟩


theorem witness_PairWorksTogether_6 : ∃ (epoch seq cut k : Nat) (c : CmdId) (f : Flight) (s : State),
    (hearsBaton s epoch seq (zeroBytes 8) = true) ∧
    (k < 2 ^ 32) ∧
    (s.work.commits = [(k, c)]) ∧
    (s.host.flights = [f]) ∧
    (f.c = c) ∧
    (f.silent = false) ∧
    (cqRoom s c = true) :=
  ⟨(0), (9), (0), (4), (anIo), ({ doneRead with committing := true, status := some (0, 0, none) }), ({ paired 1 with work := { (paired 1).work with commits := [(4, anIo)] }, host := { (paired 1).host with flights := [{ doneRead with committing := true, status := some (0, 0, none) }] } }), by decide⟩


theorem witness_PairWorksTogether_7 : ∃ (epoch seq cut k : Nat) (who : Who) (i j : Nat) (s : State),
    (hearsBaton s epoch seq (zeroBytes 8) = true) ∧
    (k < 2 ^ 32) ∧
    (s.work.commits = []) ∧
    (s.work.configs = [(k, .record who i j)]) :=
  ⟨(0), (9), (0), (4), (.nvme 0), (0x4030), (2), ({ paired 1 with work := { (paired 1).work with configs := [(4, .record (.nvme 0) 0x4030 2)] } }), by decide⟩


theorem witness_PairWorksTogether_8 : ∃ (epoch seq cut k : Nat) (s : State),
    (hearsBaton s epoch seq (zeroBytes 8) = true) ∧
    (k < 2 ^ 32) ∧
    (s.work.commits = []) ∧
    (s.work.configs = []) ∧
    (s.work.asked = []) ∧
    (s.pair.role = 1) ∧
    (s.work.full = true) ∧
    (s.work.armed = false) ∧
    (s.work.mismatch = false) ∧
    (s.work.barred = false) :=
  ⟨(0), (9), (0), (4), ({ paired 1 with work := { (paired 1).work with full := true } }), by decide⟩


theorem witness_PairWorksTogether_9 : ∃ (epoch seq cut index sub word : Nat) (v : Bytes) (s : State),
    (hearsBaton s epoch seq (zeroBytes 8 ++ v) = true) ∧
    (s.pair.role = 2) ∧
    (index < 65536) ∧
    (sub < 256) ∧
    (word < 2 ^ 32) ∧
    (plainEntry index sub = true) ∧
    (writePasses (heardBaton s seq) .peer index sub v = true) :=
  ⟨(0), (9), (0), (0x4030), (2), (7), ([30]), (paired 2), by decide⟩


theorem witness_PairWorksTogether_10 : ∃ (epoch seq cut td : Nat) (s : State),
    (hearsBaton s epoch seq (zeroBytes 8) = true) ∧
    (s.pair.role = 2) ∧
    (s.work.taking = none) ∧
    (td < 2 ^ 64) :=
  ⟨(0), (9), (0), (77), (paired 2), by decide⟩


theorem witness_PairWorksTogether_11 : ∃ (who : Who) (v : Bytes) (s : State),
    (writePasses s who 0x2101 2 v = true) ∧
    (s.work.armed = true) ∧
    (carriedQueues s = false) ∧
    (s.work.drill = none) :=
  ⟨(.nvme 0), (toLE 4 1146243404), ({ paired 1 with work := { (paired 1).work with armed := true } }), by decide⟩


theorem witness_PairWorksTogether_12 : ∃ (who : Who) (v : Bytes) (s : State),
    (writePasses s who 0x2101 2 v = true) ∧
    (s.work.armed = false) :=
  ⟨(.nvme 0), (toLE 4 1146243404), (paired 1), by decide⟩


theorem witness_PairWorksTogether_13 : ∃ (s : State),
    (s.pair.role = 1) ∧
    (cfg s 0x2101 1 ≠ 0) ∧
    (passed s s.work.drillFrom (secTicks (cfg s 0x2101 1)) = true) ∧
    (s.work.deferred ≤ s.ticks) ∧
    (s.work.armed = false) :=
  ⟨({ paired 1 with ticks := 2 ^ 60 }), by decide⟩


theorem witness_PairWorksTogether_14 : ∃ (s : State),
    (s.pair.role = 1) ∧
    (cfg s 0x2101 1 ≠ 0) ∧
    (passed s s.work.drillFrom (secTicks (cfg s 0x2101 1)) = true) ∧
    (s.work.deferred ≤ s.ticks) ∧
    (s.work.armed = true) ∧
    (carriedQueues s = false) ∧
    (s.work.drill = none) :=
  ⟨({ paired 1 with ticks := 2 ^ 60, work := { (paired 1).work with armed := true } }), by decide⟩


theorem witness_PairWorksTogether_15 : ∃ (d : Drill) (s : State),
    (s.work.drill = some d) ∧
    (d.stage = 1) ∧
    (passed s d.began (msTicks (cfg s 0x2101 5)) = true) ∧
    (anyPass s = true) :=
  ⟨({ stage := 1, began := 5, td := 100 }), ({ drilling 1 with lanes := (laneWith 6 (fun l => { l with wr := { l.wr with pass := some aPass } })).lanes }), by decide⟩


theorem witness_PairWorksTogether_16 : ∃ (s : State),
    s.work.drill = none :=
  ⟨(paired 1), by decide⟩


theorem witness_PairWorksTogether_17 : ∃ (d : Drill) (s : State),
    (s.work.drill = some d) ∧
    (s.pair.role = 1) ∧
    (d.stage = 2) ∧
    (d.td ≤ timerCount s) :=
  ⟨({ stage := 2, began := 5, td := 100 }), (drilling 2), by decide⟩


theorem witness_PairWorksTogether_18 : ∃ (s : State),
    s.work.drill = none :=
  ⟨(paired 1), by decide⟩


theorem witness_PairWorksTogether_19 : ∃ (d : Drill) (h : Bool) (s : State),
    (s.work.drill = some d) ∧
    (d.stage = 4) :=
  ⟨({ stage := 4, began := 5, td := 100 }), (true), (drilling 4), by decide⟩


theorem witness_PairWorksTogether_20 : ∃ (d : Drill) (h : Bool) (s : State),
    (s.work.drill = some d) ∧
    (d.stage = 3) ∧
    (d.td + 48000 ≤ timerCount s) :=
  ⟨({ stage := 3, began := 5, td := 100 }), (false), (drilling 3), by decide⟩


theorem witness_PairWorksTogether_21 : ∃ (h : Bool) (s : State),
    s.work.drill = none :=
  ⟨(true), (paired 1), by decide⟩


theorem witness_PairWorksTogether_22 : ∃ (n : LaneId) (pp pd : Bool) (s : State),
    ((s.pair.role = 1 ∨ s.pair.role = 2)) ∧
    ((laneAt s n).life.presence.stable ≠ pp) ∧
    (bit s.work.view n.val = false) :=
  ⟨(6), (true), (false), (paired 1), by decide⟩


theorem witness_PairWorksTogether_23 : ∃ (n : LaneId) (pp pd : Bool) (s : State),
    (bit s.work.view n.val = true ∨ (s.pair.role ≠ 1 ∧ s.pair.role ≠ 2)) :=
  ⟨(6), (true), (false), (up), by decide⟩


theorem witness_PowerRequestsTaken_1 : ∃ (c : CmdId) (dw11 : Nat) (s : State),
    adminOpen s c = true :=
  ⟨(anAdmin), (0), (fwUp), by decide⟩


theorem witness_PowerRequestsTaken_2 : ∃ (c : CmdId) (dw11 : Nat) (s : State),
    (adminOpen s c = true) ∧
    (s.power.unit = 0) ∧
    (s.power.running = none) ∧
    (s.pair.role ≠ 2) ∧
    (dw11 % 32 ≤ 1) ∧
    (dw11 % 32 ≠ s.power.ps) :=
  ⟨(anAdmin), (1), (fwUp), by decide⟩


theorem witness_PowerRequestsTaken_3 : ∃ (c : CmdId) (dw11 : Nat) (s : State),
    (adminOpen s c = true) ∧
    (dw11 % 32 = 2) :=
  ⟨(anAdmin), (2), (fwUp), by decide⟩


theorem witness_PowerRequestsTaken_4 : ∃ (c : CmdId) (dw11 : Nat) (s : State),
    (adminOpen s c = true) ∧
    (4 < dw11 % 32) :=
  ⟨(anAdmin), (5), (fwUp), by decide⟩


theorem witness_PowerRequestsTaken_5 : ∃ (c : CmdId) (dw11 : Nat) (s : State),
    (adminOpen s c = true) ∧
    (s.power.unit = 0) ∧
    (s.power.running = none) ∧
    (s.pair.role ≠ 2) ∧
    ((dw11 % 32 = 3 ∨ dw11 % 32 = 4)) ∧
    (dw11 % 32 ≠ s.power.ps) ∧
    (queueInCmb s = false) :=
  ⟨(anAdmin), (4), (fwUp), by decide⟩


theorem witness_PowerRequestsTaken_6 : ∃ (c : CmdId) (dw11 : Nat) (s : State),
    (adminOpen s c = true) ∧
    (s.power.unit = 0) ∧
    (s.power.running = none) ∧
    (s.pair.role ≠ 2) ∧
    (dw11 % 32 = 4) ∧
    (s.power.ps ≠ 4) ∧
    (queueInCmb s = true) :=
  ⟨(anAdmin), (4), (setCtrl 1 (fun k => { k with cqs := [{ aCq with base := 2 ^ 63 }] }) fwUp), by decide⟩


theorem witness_PowerRequestsTaken_7 : ∃ (who : Who) (v : Bytes) (s : State),
    (writePasses s who 0x2200 1 v = true) ∧
    (s.power.unit = 0) ∧
    (s.power.running = none) ∧
    (s.pair.role ≠ 2) ∧
    (fromLE v = 0) :=
  ⟨(.nvme 0), ([0]), (fwUp), by decide⟩


theorem witness_PowerRequestsTaken_8 : ∃ (who : Who) (v : Bytes) (s : State),
    (writePasses s who 0x2200 1 v = true) ∧
    (s.power.unit = 0) ∧
    (s.power.ps ≤ 1) ∧
    (s.power.running = none) ∧
    (s.pair.role ≠ 2) ∧
    (fromLE v = 1) :=
  ⟨(.nvme 0), ([1]), (fwUp), by decide⟩


theorem witness_PowerRequestsTaken_9 : ∃ (s : State),
    (s.power.unit = 2) ∧
    (s.power.ps = 4) ∧
    (s.power.wake = 0) ∧
    (s.power.running = none) :=
  ⟨((let s := waking 0; { s with power := { s.power with running := none } })), by decide⟩


theorem witness_PowerRequestsTaken_10 : ∃ (s : State),
    (s.power.unit ≠ 2 ∨ s.power.wake ≠ 0) :=
  ⟨(fwUp), by decide⟩


theorem witness_StandEnteredAndLeft_1 : ∃ (who : Who) (i j : Nat) (s : State),
    (s.power.running = some { ps := 3, who := .dict (.record who i j) }) ∧
    (s.power.waiting = []) ∧
    (s.work.asked = []) ∧
    (s.power.unit = 0) ∧
    (standReady s = true) :=
  ⟨(.nvme 0), (0x2200), (1), (powered 0 0 3 fwUp), by decide⟩


theorem witness_StandEnteredAndLeft_2 : ∃ (r : PowerReq) (s : State),
    (s.power.running = some r) ∧
    (3 < r.ps) ∧
    (s.power.unit = 0) ∧
    (standReady s = true) :=
  ⟨(aPower 4), (powered 0 0 4 fwUp), by decide⟩


theorem witness_StandEnteredAndLeft_3 : ∃ (s : State),
    (s.power.running = none ∨ s.power.unit ≠ 0 ∨ standReady s = false) :=
  ⟨(fwUp), by decide⟩


theorem witness_StandEnteredAndLeft_4 : ∃ (ps : Nat) (who : Who) (i j : Nat) (s : State),
    (s.power.running = some { ps := ps, who := .dict (.record who i j) }) ∧
    (s.power.waiting = []) ∧
    (s.power.unit = 0) ∧
    (3 ≤ ps) ∧
    (passed s s.power.began (secTicks (cfg s 0x2200 5)) = true) :=
  ⟨(3), (.nvme 0), (0x2200), (1), ({ powered 0 0 3 fwUp with ticks := 2 ^ 60 }), by decide⟩


theorem witness_StandEnteredAndLeft_5 : ∃ (s : State),
    (s.power.running = none ∨ s.power.unit ≠ 0) :=
  ⟨(fwUp), by decide⟩


theorem witness_StandEnteredAndLeft_6 : ∃ (ps : Nat) (who : Who) (i j : Nat) (s : State),
    (s.power.running = some { ps := ps, who := .dict (.record who i j) }) ∧
    (s.power.waiting = []) ∧
    (s.work.asked = []) ∧
    (s.power.unit = 1) ∧
    (ps ≤ 1) :=
  ⟨(0), (.nvme 0), (0x2200), (1), (powered 1 3 0 fwUp), by decide⟩


theorem witness_StandEnteredAndLeft_7 : ∃ (s : State),
    (s.power.running = none ∨ s.power.unit ≠ 1) :=
  ⟨(fwUp), by decide⟩


theorem witness_StandEnteredAndLeft_8 : ∃ (r : PowerReq) (s : State),
    (s.power.running = some r) ∧
    (r.ps = 4) ∧
    (s.power.unit = 1) ∧
    (s.power.isolated = false) ∧
    (s.conf.save = none) :=
  ⟨(aPower 4), (powered 1 3 4 fwUp), by decide⟩


theorem witness_StandEnteredAndLeft_9 : ∃ (s : State),
    (s.power.running = none ∨ s.power.unit ≠ 1) :=
  ⟨(fwUp), by decide⟩


theorem witness_WakesStepByStep_1 : ∃ (r : PowerReq) (s : State),
    (s.power.running = some r) ∧
    (s.power.unit = 2) ∧
    (s.power.wake = 1) :=
  ⟨(aPower 0), (waking 1), by decide⟩


theorem witness_WakesStepByStep_2 : ∃ (r : PowerReq) (s : State),
    (s.power.running = some r) ∧
    (s.power.unit = 2) ∧
    (s.power.wake = 2) :=
  ⟨(aPower 0), (waking 2), by decide⟩


theorem witness_WakesStepByStep_3 : ∃ (r : PowerReq) (s : State),
    (s.power.running = some r) ∧
    (s.power.unit = 2) ∧
    (s.power.wake = 3) :=
  ⟨(aPower 0), (waking 3), by decide⟩


theorem witness_WakesStepByStep_4 : ∃ (r : PowerReq) (s : State),
    (s.power.running = some r) ∧
    (s.power.unit = 2) ∧
    (s.power.wake = 4) :=
  ⟨(aPower 0), (waking 4), by decide⟩


theorem witness_WakesStepByStep_5 : ∃ (r : PowerReq) (s : State),
    (s.power.running = some r) ∧
    (s.power.unit = 2) ∧
    (s.power.wake = 5) :=
  ⟨(aPower 0), (waking 5), by decide⟩


theorem witness_WakesStepByStep_6 : ∃ (ps : Nat) (who : Who) (i j : Nat) (s : State),
    (s.power.running = some { ps := ps, who := .dict (.record who i j) }) ∧
    (ps ≤ 1) ∧
    (s.power.waiting = []) ∧
    (s.work.asked = []) ∧
    (s.power.unit = 2) ∧
    (s.power.wake = 6) :=
  ⟨(0), (.nvme 0), (0x2200), (1), (waking 6), by decide⟩


theorem witness_WakesStepByStep_7 : ∃ (r : PowerReq) (k : Nat) (s : State),
    (s.power.running = some r) ∧
    (s.power.unit = 2) ∧
    (s.power.wake = k) ∧
    ((k = 5 ∨ k = 6)) ∧
    (s.sup.resetDue = false) :=
  ⟨(aPower 0), (5), (waking 5), by decide⟩


theorem witness_WakesStepByStep_8 : ∃ (ok : Bool) (s : State),
    (s.power.running = none ∨ s.power.unit ≠ 2 ∨ s.power.wake = 0) :=
  ⟨(true), (fwUp), by decide⟩


theorem witness_WakesStepByStep_9 : ∃ (s : State),
    (s.power.unit = 2) ∧
    (1 ≤ s.power.wake) ∧
    (passed s s.power.began (msTicks (4 * wakeBound s.power.wake)) = true) :=
  ⟨(waking 4), by decide⟩


theorem witness_WakesStepByStep_10 : ∃ (s : State),
    (s.power.unit ≠ 2 ∨ s.power.wake = 0) :=
  ⟨(fwUp), by decide⟩


theorem witness_HealthEndsInAReset_1 : ∃ (core : Fin 12) (s : State),
    (watchdogRuns core s = true) ∧
    (s.sup.resetDue = false) :=
  ⟨(3), (running), by decide⟩


theorem witness_HealthEndsInAReset_2 : ∃ (core : Fin 12) (s : State),
    watchdogRuns core s = false :=
  ⟨(3), (State.reset), by decide⟩


theorem witness_HealthEndsInAReset_3 : ∃ (k : Nat) (r : Fin 2) (s : State),
    (s.fw.running = some r) ∧
    (1 ≤ k) ∧
    (k ≤ 7) ∧
    (k ≠ 4) ∧
    (k ≠ 5) ∧
    (s.sup.resetDue = false) ∧
    (s.fw.slots[r].st ≠ 4) :=
  ⟨(6), (0), (running), by decide⟩


theorem witness_HealthEndsInAReset_4 : ∃ (k : Nat) (r : Fin 2) (s : State),
    (s.fw.running = some r) ∧
    (1 ≤ k) ∧
    (k ≤ 7) ∧
    (k ≠ 4) ∧
    (k ≠ 5) ∧
    (s.sup.resetDue = false) ∧
    (s.fw.slots[r].st = 4) :=
  ⟨(6), (0), (onTrial), by decide⟩


theorem witness_HealthEndsInAReset_5 : ∃ (k : Nat) (s : State),
    (s.fw.running = none ∨ k = 0 ∨ 7 < k) :=
  ⟨(8), (running), by decide⟩


theorem witness_HealthEndsInAReset_7 : ∃ (s : State),
    s.sup.aonPg = true :=
  ⟨(running), by decide⟩


theorem witness_HealthEndsInAReset_8 : ∃ (s : State),
    s.sup.aonPg = false :=
  ⟨({ running with sup := { running.sup with aonPg := false } }), by decide⟩


theorem witness_HealthEndsInAReset_9 : ∃ (mv : List Nat) (i : Fin 7) (s : State),
    (s.sup.resetDue = false) ∧
    (railWatched s i.val = true) ∧
    ((10 * mv.getD i.val 0 < (railRange i.val).1 ∨ (railRange i.val).2 < 10 * mv.getD i.val 0)) ∧
    (1 ≤ s.sup.bad.getD i.val 0) ∧
    ((∀ j : Fin 7, j < i → s.sup.bad.getD j.val 0 = 0)) :=
  ⟨([950, 1100, 900, 1100, 900, 1800, 750]), (1), ({ running with sup := { running.sup with bad := [0, 1, 0, 0, 0, 0, 0] } }), by decide⟩


theorem witness_HealthEndsInAReset_10 : ∃ (mv : List Nat) (s : State),
    (∀ i : Fin 7, s.sup.bad.getD i.val 0 = 0 ∨ ((railRange i.val).1 ≤ 10 * mv.getD i.val 0 ∧ 10 * mv.getD i.val 0 ≤ (railRange i.val).2)) :=
  ⟨([950, 1100, 900, 1100, 900, 1800, 750]), (running), by decide⟩


theorem witness_HealthEndsInAReset_11 : ∃ (g : Fin 4) (s : State),
    (s.sup.en[g] = true) ∧
    (s.sup.pg[g] = true) ∧
    (s.sup.resetDue = false) :=
  ⟨(1), (running), by decide⟩


theorem witness_HealthEndsInAReset_12 : ∃ (g : Fin 4) (s : State),
    (s.sup.en[g] = false ∨ s.sup.pg[g] = false ∨ s.sup.resetDue = true) :=
  ⟨(1), (State.reset), by decide⟩


theorem witness_HealthEndsInAReset_14 : ∃ (die : Fin 5) (temp : Int) (s : State),
    (1250 < temp) ∧
    (s.sup.trip = false) :=
  ⟨(2), (1260), (running), by decide⟩


theorem witness_HealthEndsInAReset_15 : ∃ (die : Fin 5) (temp : Int) (s : State),
    (temp ≤ 1250 ∨ s.sup.trip = true) :=
  ⟨(2), (1250), (running), by decide⟩


theorem witness_HealthEndsInAReset_16 : ∃ (temps : List Int) (s : State),
    temps.length = 5 :=
  ⟨([100, 200, 1051, 0, -50]), (running), by decide⟩


theorem witness_HealthEndsInAReset_17 : ∃ (temps : List Int) (p : PortId) (s : State),
    (temps.length = 5) ∧
    (s.host.ctrls[p].warning / 2 % 2 = 0) ∧
    (s.host.ctrls[p].feat.tempOver = 358) ∧
    ((∃ x ∈ temps, 849 ≤ x)) :=
  ⟨([100, 200, 1051, 0, -50]), (0), (setCtrl 0 (fun k => { k with feat := { k.feat with tempOver := 358 } }) running), by decide⟩


theorem witness_BootsInSequence_1 : ∃ (k : Nat) (x : Fin 5) (g : Fin 4) (nx : Option (Fin 4)) (s : State),
    (s.sup.lowering = []) ∧
    (s.sup.aonPg = true) ∧
    (s.sup.step = k) ∧
    (powerUpWaits k = some (g, nx)) ∧
    (x.val = g.val) :=
  ⟨(1), (3), (3), (some 0), (State.reset), by decide⟩


theorem witness_BootsInSequence_2 : ∃ (s : State),
    (s.sup.aonPg = false) ∧
    (s.sup.lowering = []) :=
  ⟨({ running with sup := { running.sup with aonPg := false, step := 4 } }), by decide⟩


theorem witness_BootsInSequence_3 : ∃ (x : Fin 5) (s : State),
    (s.sup.lowering ≠ [] ∨ (x = 4 ∧ s.sup.aonPg = true) ∨
    (x ≠ 4 ∧ (s.sup.aonPg = false ∨ (powerUpWaits s.sup.step).all (fun q => decide (q.1.val ≠ x.val)) = true))) :=
  ⟨(3), (running), by decide⟩


theorem witness_BootsInSequence_4 : ∃ (s : State),
    (1 ≤ s.sup.step) ∧
    (s.sup.step ≤ 4) ∧
    (s.sup.lowering = []) ∧
    (s.sup.failures = 0) ∧
    (passed s s.sup.stepAt (msTicks (16 + 4 * s.sup.step)) = true) :=
  ⟨({ State.reset with ticks := 2 ^ 40 }), by decide⟩


theorem witness_BootsInSequence_5 : ∃ (g : Fin 4) (nx : Option (Fin 4)) (s : State),
    (powerUpWaits s.sup.step = some (g, nx)) ∧
    (s.sup.lowering = []) ∧
    (s.sup.failures ≠ 0) ∧
    (passed s s.sup.stepAt (msTicks (16 + 4 * s.sup.step)) = true) :=
  ⟨(3), (some 0), ({ State.reset with ticks := 2 ^ 40, sup := { State.reset.sup with failures := 1 } }), by decide⟩


theorem witness_BootsInSequence_6 : ∃ (s : State),
    powerUpWaits s.sup.step = none :=
  ⟨(running), by decide⟩


theorem witness_BootsInSequence_7 : ∃ (s : State),
    (s.sup.step = 0) ∧
    (s.sup.failures = 1) ∧
    (passed s s.sup.stepAt (secTicks 1) = true) :=
  ⟨({ State.reset with ticks := 2 ^ 40, sup := { State.reset.sup with failures := 1, step := 0 } }), by decide⟩


theorem witness_BootsInSequence_8 : ∃ (s : State),
    (s.sup.step ≠ 0 ∨ s.sup.failures ≠ 1) :=
  ⟨(running), by decide⟩


theorem witness_BootsInSequence_9 : ∃ (ddr : List DdrSeen) (s : State),
    (s.fw.booted = false) ∧
    (5 ≤ s.sup.step) ∧
    (s.sup.lowering = []) :=
  ⟨([.ready 1 16, .absent]), (supplied), by decide⟩


theorem witness_BootsInSequence_10 : ∃ (ddr : List DdrSeen) (s : State),
    (s.fw.booted = true ∨ s.sup.step < 5 ∨ s.sup.lowering ≠ []) :=
  ⟨([]), (running), by decide⟩


theorem witness_BootsInSequence_11 : ∃ (g : Fin 4) (rest : List (Fin 4)) (s : State),
    (s.sup.lowering = g :: rest) ∧
    ((s.power.isolated = false ∨ s.power.unit ≠ 1)) :=
  ⟨(0), ([]), ({ running with sup := { running.sup with lowering := [0] } }), by decide⟩


theorem witness_BootsInSequence_12 : ∃ (g : Fin 4) (rest : List (Fin 4)) (s : State),
    (s.sup.lowering = g :: rest) ∧
    ((s.power.isolated = false ∨ s.power.unit ≠ 1)) ∧
    (passed s s.sup.loweredAt 2400000 = true) :=
  ⟨(0), ([]), ({ running with sup := { running.sup with lowering := [0] } }), by decide⟩


theorem witness_BootsInSequence_13 : ∃ (g : Fin 4) (who : Who) (i j : Nat) (s : State),
    (s.sup.lowering = [g]) ∧
    (s.power.isolated = true) ∧
    (s.power.unit = 1) ∧
    (s.power.running = some { ps := 4, who := .dict (.record who i j) }) ∧
    (s.power.waiting = []) ∧
    (s.work.asked = []) :=
  ⟨(0), (.nvme 0), (0x2200), (1), ((let s := powered 1 3 4 running; { s with power := { s.power with isolated := true }, sup := { s.sup with lowering := [0] } })), by decide⟩


theorem witness_BootsInSequence_14 : ∃ (s : State),
    s.sup.lowering = [] :=
  ⟨(running), by decide⟩


theorem witness_RecordsAndCalendarKept_1 : ∃ (clean : Bool) (q : Fin 16) (s : State),
    (s.conf.save = none) ∧
    (s.life.due = some clean) ∧
    (s.life.page = some q) :=
  ⟨(true), (0), ({ running with life := { running.life with due := some true, page := some 0 } }), by decide⟩


theorem witness_RecordsAndCalendarKept_2 : ∃ (s : State),
    (s.conf.save = none) ∧
    (s.life.due = none) ∧
    (passed s s.life.lastSave (secTicks (cfg s 0x2710 3)) = true) ∧
    (s.life.page = none) :=
  ⟨({ running with ticks := 2 ^ 60 }), by decide⟩


theorem witness_RecordsAndCalendarKept_3 : ∃ (s : State),
    (s.conf.save.isSome = true ∨ (s.life.due = none ∧ passed s s.life.lastSave (secTicks (cfg s 0x2710 3)) = false)) :=
  ⟨(State.reset), by decide⟩


theorem witness_RecordsAndCalendarKept_4 : ∃ (n : LaneId) (p : Pickup) (s : State),
    ((laneAt s n).life.pickup = some p) ∧
    ((laneAt s n).plife.due = true) :=
  ⟨(6), ({ serial := [65], cls := 1, image := goodImage }), (aging), rfl, by decide⟩


theorem witness_RecordsAndCalendarKept_5 : ∃ (n : LaneId) (s : State),
    ((laneAt s n).life.pickup = none ∨ ((laneAt s n).plife.due = false ∧
  passed s (laneAt s n).plife.written (secTicks (lcfg s n 0xE8 7)) = false)) :=
  ⟨(6), (State.reset), by decide⟩


theorem witness_RecordsAndCalendarKept_6 : ∃ (who : Who) (v : Bytes) (s : State),
    writePasses s who 0x2700 1 v = true :=
  ⟨(.nvme 0), (toLE 8 1000000), (running), by decide⟩


theorem witness_RecordsAndCalendarKept_7 : ∃ (who : Who) (v : Bytes) (s : State),
    writePasses s who 0x2700 2 v = true :=
  ⟨(.nvme 0), (toLE 8 1000000), (running), by decide⟩


theorem witness_RecordsAndCalendarKept_8 : ∃ (time k : Nat) (s : State),
    (s.cal.named = some (time, k)) ∧
    (s.ticks ≤ k + msTicks 1100) :=
  ⟨(77), (2 ^ 45), ({ running with cal := { running.cal with named := some (77, 2 ^ 45) } }), by decide⟩


theorem witness_RecordsAndCalendarKept_9 : ∃ (s : State),
    (s.cal.named = none) ∧
    (s.cal.unset = false) ∧
    (s.cal.ppsMismatch = false) ∧
    ((secondOffset (timeNow s)).natAbs ≤ 1000000) :=
  ⟨({ running with cal := { running.cal with unset := false, tick := 2 ^ 45, base := 999999000 } }), by decide⟩


theorem witness_RecordsAndCalendarKept_10 : ∃ (s : State),
    (s.cal.named = none) ∧
    (s.cal.unset = false) ∧
    (s.cal.ppsMismatch = false) ∧
    (1000000 < (secondOffset (timeNow s)).natAbs) :=
  ⟨({ running with cal := { running.cal with unset := false, tick := 2 ^ 45, base := 499999000 } }), by decide⟩


theorem witness_RecordsAndCalendarKept_11 : ∃ (s : State),
    (s.cal.named = none) ∧
    ((s.cal.unset = true ∨ s.cal.ppsMismatch = true)) :=
  ⟨(running), by decide⟩


theorem witness_RecordsAndCalendarKept_12 : ∃ (time k : Nat) (s : State),
    (s.cal.named = some (time, k)) ∧
    (passed s k (msTicks 1100) = true) :=
  ⟨(77), (5), ({ running with cal := { running.cal with named := some (77, 5) } }), by decide⟩


theorem witness_RecordsAndCalendarKept_13 : ∃ (s : State),
    s.cal.named = none :=
  ⟨(running), by decide⟩


theorem witness_RecordsAndCalendarKept_14 : ∃ (who : Who) (v : Bytes) (s : State),
    writePasses s who 0x2010 6 v = true :=
  ⟨(.nvme 0), (toLE 4 1095520852), ({ running with alert := true }), by decide⟩


theorem witness_LinksWatchedAndPortsServed_1 : ∃ (n : LaneId) (p : Bytes) (crc : Nat) (s : State),
    (p.length ≠ 6 ∨ crc16 p ≠ crc) :=
  ⟨(6), ([1, 2, 3]), (0), (linked 6), by decide⟩


theorem witness_LinksWatchedAndPortsServed_2 : ∃ (n : LaneId) (p : Bytes) (s : State),
    (p.length = 6) ∧
    ((laneAt s n).links.driveTrained = true) ∧
    (bit (field p 0 1) 4 = true) ∧
    (field (laneAt s n).links.driveStatus 1 1 % 32 &&& field p 1 1 % 32 = 0) :=
  ⟨(6), ([0x18, 0, 0, 0, 0, 0]), (linked 6), by decide⟩


theorem witness_LinksWatchedAndPortsServed_3 : ∃ (n : LaneId) (p : Bytes) (s : State),
    (p.length = 6) ∧
    ((laneAt s n).links.driveTrained = true) ∧
    ((laneAt s n).life.st ≠ .off) ∧
    (field (laneAt s n).links.driveStatus 1 1 % 32 &&& field p 1 1 % 32 ≠ 0) :=
  ⟨(6), ([0x18, 4, 0, 0, 0, 0]), (setLane 6 (fun l => { l with links := { l.links with driveStatus := [0x18, 6, 0, 0, 0, 0] } }) (linked 6)), by decide⟩


theorem witness_LinksWatchedAndPortsServed_4 : ∃ (n : LaneId) (p : Bytes) (s : State),
    (p.length = 6) ∧
    ((laneAt s n).links.driveTrained = true) ∧
    ((laneAt s n).life.st ≠ .off) ∧
    (bit (field p 0 1) 4 = false) ∧
    (field (laneAt s n).links.driveStatus 1 1 % 32 &&& field p 1 1 % 32 = 0) :=
  ⟨(6), ([0x08, 4, 0, 0, 0, 0]), (linked 6), by decide⟩


theorem witness_LinksWatchedAndPortsServed_5 : ∃ (n : LaneId) (s : State),
    ((laneAt s n).links.driveTrained = true) ∧
    (passed s (laneAt s n).links.driveSeen 200000 = true) ∧
    ((laneAt s n).life.st ≠ .off) :=
  ⟨(6), (linked 6), by decide⟩


theorem witness_LinksWatchedAndPortsServed_6 : ∃ (n : LaneId) (s : State),
    ((laneAt s n).links.driveTrained = false ∨ passed s (laneAt s n).links.driveSeen 200000 = false) :=
  ⟨(6), (State.reset), by decide⟩


theorem witness_LinksWatchedAndPortsServed_7 : ∃ (n : LaneId) (p : Bytes) (crc : Nat) (s : State),
    (p.length ≠ 4 ∨ crc16 p ≠ crc) :=
  ⟨(6), ([1, 2, 3]), (0), (linked 6), by decide⟩


theorem witness_LinksWatchedAndPortsServed_8 : ∃ (n : LaneId) (p : Bytes) (s : State),
    (p.length = 4) ∧
    ((laneAt s n).links.laserTrained = true) ∧
    (bit (field p 0 1) 0 = true) ∧
    (field (laneAt s n).links.laserStatus 1 1 % 16 &&& field p 1 1 % 16 = 0) :=
  ⟨(6), ([3, 0, 0, 0]), (linked 6), by decide⟩


theorem witness_LinksWatchedAndPortsServed_9 : ∃ (n : LaneId) (p : Bytes) (s : State),
    (p.length = 4) ∧
    ((laneAt s n).links.laserTrained = true) ∧
    ((laneAt s n).life.st ≠ .off) ∧
    ((bit (field p 0 1) 0 = false ∨ field (laneAt s n).links.laserStatus 1 1 % 16 &&& field p 1 1 % 16 ≠ 0)) :=
  ⟨(6), ([2, 0, 0, 0]), (linked 6), by decide⟩


theorem witness_LinksWatchedAndPortsServed_10 : ∃ (n : LaneId) (s : State),
    ((laneAt s n).links.laserTrained = true) ∧
    (passed s (laneAt s n).links.laserSeen 153600 = true) ∧
    ((laneAt s n).life.st ≠ .off) :=
  ⟨(6), (linked 6), by decide⟩


theorem witness_LinksWatchedAndPortsServed_11 : ∃ (n : LaneId) (s : State),
    ((laneAt s n).links.laserTrained = false ∨ passed s (laneAt s n).links.laserSeen 153600 = false) :=
  ⟨(6), (State.reset), by decide⟩


theorem witness_LinksWatchedAndPortsServed_13 : ∃ (n : LaneId) (s : State),
    (laneAt s n).links.sidebandFails < 2 :=
  ⟨(6), (linked 6), by decide⟩


theorem witness_LinksWatchedAndPortsServed_14 : ∃ (n : LaneId) (s : State),
    ((laneAt s n).links.sidebandFails = 2) ∧
    (abovePark (laneAt s n).life.st = true) :=
  ⟨(6), (setLane 6 (fun l => { l with links := { l.links with sidebandFails := 2 } }) (linked 6)), by decide⟩


theorem witness_LinksWatchedAndPortsServed_15 : ∃ (n : LaneId) (s : State),
    ((laneAt s n).links.sidebandFails = 2) ∧
    ((laneAt s n).life.st = .off) ∧
    ((laneAt s n).life.arriving = true) :=
  ⟨(6), (setLane 6 (fun l => { l with links := { l.links with sidebandFails := 2 }, life := { l.life with st := .off, arriving := true } }) (linked 6)), by decide⟩


theorem witness_LinksWatchedAndPortsServed_18 : ∃ (ir : Nat) (tdi : List Bool) (s : State),
    (ir ≠ 2) ∧
    (ir ≠ 3) :=
  ⟨(1), ([true, true, false]), (State.reset), by decide⟩


theorem witness_LinksWatchedAndPortsServed_19 : ∃ (ir : Nat) (tdi : List Bool) (s : State),
    (ir = 2 ∨ ir = 3) :=
  ⟨(2), ([true, true, false]), (State.reset), by decide⟩


theorem witness_LinksWatchedAndPortsServed_20 : ∃ (port : PortId) (addr msg : Bytes) (s : State),
    (cfg s 0x1100 (1 + port.val) ≠ 0) ∧
    (field msg 0 1 = 135) ∧
    ((slice msg 8 16 = linkLocal port ∨ ((stored s 0x1100 (3 + port.val)).all (fun b => decide (b = 0)) = false ∧
        slice msg 8 16 = stored s 0x1100 (3 + port.val)))) :=
  ⟨(0), (List.replicate 16 3), (aSolicit 135 1 (List.replicate 16 9)), (addressed), by decide⟩


theorem witness_LinksWatchedAndPortsServed_21 : ∃ (port : PortId) (addr msg : Bytes) (s : State),
    (cfg s 0x1100 (1 + port.val) ≠ 0) ∧
    (field msg 0 1 = 136) ∧
    (field msg 24 1 = 2) :=
  ⟨(0), (List.replicate 16 3), (aSolicit 136 2 (List.replicate 16 9)), (addressed), by decide⟩


theorem witness_LinksWatchedAndPortsServed_22 : ∃ (port : PortId) (addr msg : Bytes) (s : State),
    (cfg s 0x1100 (1 + port.val) ≠ 0) ∧
    (field msg 0 1 = 130) :=
  ⟨(0), (List.replicate 16 3), (aSolicit 130 0 (List.replicate 16 9)), (addressed), by decide⟩


theorem witness_LinksWatchedAndPortsServed_23 : ∃ (port : PortId) (addr msg : Bytes) (s : State),
    (cfg s 0x1100 (1 + port.val) = 0 ∨ field msg 0 1 < 130) :=
  ⟨(0), (List.replicate 16 3), (aSolicit 128 0 (List.replicate 16 9)), (addressed), by decide⟩


/-! ### WellFormed refuses what is ill-formed -/

/-- A command of the first controller. -/
def aCmd : CmdId := { ctrl := 0, sq := 0, cid := 0 }
/-- A datagram in range. -/
def aGram : Datagram := { port := 0, own := List.replicate 16 0, addr := List.replicate 16 0, uport := 1, data := [] }

theorem test_wf_accepts_datagram : (Instr.hello aGram).wellFormed = true := by decide
theorem test_wf_refuses_own : (Instr.hello { aGram with own := [1] }).wellFormed = false := by decide
theorem test_wf_refuses_address : (Instr.hello { aGram with addr := [1] }).wellFormed = false := by decide
theorem test_wf_refuses_port : (Instr.batch { aGram with uport := 65536 }).wellFormed = false := by decide
theorem test_wf_refuses_datagram (v : Bytes) (h : v.length = 65528) :
    (Instr.kyeriWrite { aGram with data := v }).wellFormed = false := by
  simp [Instr.wellFormed, Instr.bounds, datagramBounds, Bound.ok, aGram, h]
theorem test_wf_accepts_command : (Instr.flush aCmd 1).wellFormed = true := by decide
theorem test_wf_refuses_queue : (Instr.flush { aCmd with sq := 65536 } 1).wellFormed = false := by decide
theorem test_wf_refuses_identifier : (Instr.flush { aCmd with cid := 65536 } 1).wellFormed = false := by decide
theorem test_wf_refuses_namespace : (Instr.flush aCmd 4294967296).wellFormed = false := by decide
theorem test_wf_refuses_dwords : (Instr.dictionaryRead aCmd 0 4294967296 0 none).wellFormed = false := by decide
theorem test_wf_refuses_status : (Instr.dictionaryRead aCmd 0 0 0 (some 256)).wellFormed = false := by decide
theorem test_wf_refuses_batch_count : (Instr.dictionaryBatch aCmd 4294967296 (.failed 4)).wellFormed = false := by decide
theorem test_wf_refuses_session : (Instr.proveTimeout 4294967296).wellFormed = false := by decide
theorem test_wf_refuses_index : (Instr.entryWrite .peer 65536 1 []).wellFormed = false := by decide
theorem test_wf_refuses_subindex : (Instr.entryWrite .peer 1 256 []).wellFormed = false := by decide
theorem test_wf_refuses_value (v : Bytes) (h : v.length = 4294967296) : (Instr.save .peer v).wellFormed = false := by
  simp [Instr.wellFormed, Instr.bounds, Bound.ok, h]
theorem test_wf_refuses_library_entry : (Instr.librarySlotWrite .peer 0 256 []).wellFormed = false := by decide
theorem test_wf_accepts_wobble : (Instr.wobbleFrame 3 groove).wellFormed = true := by decide +kernel
theorem test_wf_refuses_wobbles : (Instr.wobbleFrame 3 { groove with wobbles := [] }).wellFormed = false := by decide
theorem test_wf_refuses_sector : (Instr.ldpcDecode 3 0 32).wellFormed = false := by decide
theorem test_wf_refuses_prp : (Instr.createIoSq aCmd 0 0 18446744073709551616).wellFormed = false := by decide
theorem test_wf_refuses_log_page : (Instr.getLogPage aCmd 0 0 0 0 4294967296).wellFormed = false := by decide
theorem test_wf_refuses_slot : (Instr.firmwareCommitVerify aCmd 8).wellFormed = false := by decide
theorem test_wf_refuses_protocol : (Instr.securitySend aCmd 256 none).wellFormed = false := by decide
theorem test_wf_refuses_flags : (Instr.getCapabilities 4294967296).wellFormed = false := by decide
theorem test_wf_refuses_algorithms : (Instr.negotiateAlgorithms 0 4294967296).wellFormed = false := by decide
theorem test_wf_refuses_certificate : (Instr.getCertificate 0 65536 0).wellFormed = false := by decide
theorem test_wf_refuses_nonce : (Instr.challenge 0 0 [1]).wellFormed = false := by decide
theorem test_wf_refuses_measurement : (Instr.getMeasurements 256 none).wellFormed = false := by decide
theorem test_wf_refuses_request_code : (Instr.spdmUnsupportedRequest 256).wellFormed = false := by decide
theorem test_wf_refuses_opcode : (Instr.invalidOpcode aCmd 256).wellFormed = false := by decide
theorem test_wf_refuses_slba : (Instr.read aCmd 1 18446744073709551616 0 ⟨none, none⟩).wellFormed = false := by decide
theorem test_wf_refuses_nlb : (Instr.read aCmd 1 0 65536 ⟨none, none⟩).wellFormed = false := by decide
theorem test_wf_refuses_list : (Instr.write aCmd 1 0 0 ⟨some (0, 4294967296), none⟩).wellFormed = false := by decide
theorem test_wf_refuses_data : (Instr.zoneAppend aCmd 1 0 0 ⟨none, some 18446744073709551616⟩).wellFormed = false := by decide
theorem test_wf_refuses_tail : (Instr.sqDoorbell 0 1 65536).wellFormed = false := by decide
theorem test_wf_refuses_head : (Instr.cqDoorbell 0 65536 1).wellFormed = false := by decide
theorem test_wf_refuses_arbitration : (Instr.controllerEnable 0 8 0).wellFormed = false := by decide
theorem test_wf_refuses_admin_sizes : (Instr.controllerEnable 0 0 4294967296).wellFormed = false := by decide
theorem test_wf_refuses_cmb_read : (Instr.cmbRead 0 18446744073709551616 1).wellFormed = false := by decide
theorem test_wf_refuses_cmb_write : (Instr.cmbWrite 0 18446744073709551616 [] false).wellFormed = false := by decide
theorem test_wf_refuses_line : (Instr.cacheAccess 0 (some (List.replicate 65 0)) []).wellFormed = false := by decide
theorem test_wf_refuses_serial : (Instr.peerArrived [1]).wellFormed = false := by decide
theorem test_wf_refuses_baton_frame : (Instr.pairHello [1] false).wellFormed = false := by decide
theorem test_wf_refuses_drive_status : (Instr.driveStatus 3 [1] 0).wellFormed = false := by decide
theorem test_wf_refuses_laser_crc : (Instr.laserStatus 3 [0, 0, 0, 0] 65536).wellFormed = false := by decide
theorem test_wf_refuses_speed : (Instr.pcieLinkTrained 0 6 8).wellFormed = false := by decide
theorem test_wf_refuses_width : (Instr.pcieLinkTrained 0 5 17).wellFormed = false := by decide
theorem test_wf_refuses_vector : (Instr.interruptCoalescingTimeout 0 65536).wellFormed = false := by decide
theorem test_wf_refuses_message (v : Bytes) (h : v.length = 1241) :
    (Instr.neighbourDiscovery 0 (List.replicate 16 0) v).wellFormed = false := by
  simp [Instr.wellFormed, Instr.bounds, Bound.ok, h]

/-! ### Values from the spec -/

/-- The check value that CRC-32 has for the ASCII digits 1 to 9 (R119's polynomial, reflected, inverted). -/
theorem test_crc32 : crc32 (natBytes [0x31, 0x32, 0x33, 0x34, 0x35, 0x36, 0x37, 0x38, 0x39]) = 0xCBF43926 := by decide +kernel
/-- The SHA-384 of the empty message (FIPS 180-4) begins 38 B0 60 A7. -/
theorem test_sha384 : (sha384 []).take 4 = natBytes [0x38, 0xB0, 0x60, 0xA7] := by decide +kernel
/-- R185 to R187: the wobbles of the frame of layer 3, band 8, frame 5, kind 1 give its address back. -/
theorem test_wobble : (wobbleAddr groove.wobbles).map (fun a => (a.layer, a.band, a.frame, a.kind)) = some (3, 8, 5, 1) := by decide +kernel
/-- R809: the core rail may lie between 0.92 V and 0.98 V. -/
theorem test_rail : railRange 0 = (9200, 9800) := by decide
/-- R693: a write of 0 to 2200:01 names RUN. -/
theorem test_unit_of_ps : (unitOfPs 0, unitOfPs 1, unitOfPs 3, unitOfPs 4) = (0, 0, 1, 2) := by decide
/-- R800: the IDCODE comes out with its least significant bit first. -/
theorem test_idcode : (jtagInstruction 1 (List.replicate 4 false) State.reset).ports.jtagOut = [true, true, false, false] := by decide
/-- R816: the first power-good raises PMIC0_EN. -/
theorem test_power_up : (match execPowerUpStep 3 State.reset with
    | .next t => t.sup.en.toList
    | _ => []) = [true, false, false, true] := by decide
/-- No row of the table gives bits, so no word is a command. -/
theorem test_decode : decodeTableWord 32 0 = none := rfl
/-- The queue is first in, first out. -/
theorem test_step_order : step { State.reset with pending := [.mdioPoll 1 true, .announce] } =
    .next { State.reset with pending := [.announce], ports := { State.reset.ports with mdioUp := #v[false, true] } } := rfl


end Sys2Proof.Tests
end

section
/-! PROOFS. The step on an empty queue, and the core supply (R58, R71 to R73, R811). -/

namespace Sys2Proof.Machine

/-- Settles O2: the step's first branch. -/
theorem idleStepIsOneTick : Obligations.IdleStepIsOneTick := by
  intro s idle
  unfold step
  rw [idle]

/-! ### Every lane changed in turn -/

theorem mem_allLanes (n : LaneId) : n ∈ allLanes := List.mem_ofFn.mpr ⟨n, rfl⟩

theorem nodup_allLanes : allLanes.Nodup := List.nodup_ofFn.mpr fun _ _ h => h

/-- A lane after one change has been made on each lane of a list that names no lane twice. -/
theorem laneAt_foldl_setLane (f : Lane → Lane) (n : LaneId) :
    ∀ (l : List LaneId) (s : State), l.Nodup →
      laneAt (l.foldl (fun a m => setLane m f a) s) n = if n ∈ l then f (laneAt s n) else laneAt s n
  | [], _, _ => rfl
  | m :: l, s, nodup => by
    obtain ⟨notLater, nodup⟩ := List.nodup_cons.mp nodup
    rw [List.foldl_cons, laneAt_foldl_setLane f n l _ nodup]
    by_cases own : n = m
    · subst own
      simp [notLater]
    · simp [laneAt_setLane_other own, own]

theorem coreMv_foldl_setLane (f : Lane → Lane) :
    ∀ (l : List LaneId) (s : State), (l.foldl (fun a m => setLane m f a) s).coreMv = s.coreMv
  | [], _ => rfl
  | m :: l, s => coreMv_foldl_setLane f l (setLane m f s)

/-! ### The voltage that the rates need -/

theorem coverMv_mono {a b : Nat} (h : a ≤ b) : coverMv a ≤ coverMv b := by
  unfold coverMv
  split_ifs <;> omega

/-- A greater addition to the sum never needs a lower set-point (R72). -/
theorem needMv_mono {s : State} {a b : Nat} (h : a ≤ b) : needMv s a ≤ needMv s b :=
  max_le_max (coverMv_mono (Nat.add_le_add_left h _)) le_rfl

/-! ### The set-point comes into force -/

/-- A lane takes the raise that it waits for (R73). -/
def takeRaise (l : Lane) : Lane :=
  match l.pace.raise with
  | some v => { l with pace := { l.pace with v := v, raise := none } }
  | none => l

theorem raise_takeRaise (l : Lane) : (takeRaise l).pace.raise = none := by
  cases h : l.pace.raise <;> simp [takeRaise, h]

theorem v_takeRaise (l : Lane) : (takeRaise l).pace.v = l.pace.raise.getD l.pace.v := by
  cases h : l.pace.raise <;> simp [takeRaise, h]

/-- What CORE_SUPPLY_IN_FORCE does: the need rests on lanes and entries, and not on the voltage in force. -/
theorem exec_coreSupplyInForce (s : State) : exec .coreSupplyInForce s =
    if s.coreGoal < needMv s 0 then .next s
    else if needMv s (raiseSum s) ≤ s.coreGoal then
      .next (allLanes.foldl (fun a n => setLane n takeRaise a) { s with coreMv := s.coreGoal })
    else .next { s with coreMv := s.coreGoal } := rfl

/-- Settles O13: the need grows with the raises, so a set-point that covers them covers the velocities in force. -/
theorem coreSupplyFollowsTheRates : Obligations.CoreSupplyFollowsTheRates := by
  refine ⟨fun s => ⟨_, rfl, rfl, rfl⟩, fun s covers => ?_, fun s stands short => ?_, fun s below => ?_⟩
  · have stands : needMv s 0 ≤ s.coreGoal := (needMv_mono (Nat.zero_le _)).trans covers
    rw [exec_coreSupplyInForce, if_neg (Nat.not_lt.mpr stands), if_pos covers]
    refine ⟨_, rfl, coreMv_foldl_setLane _ _ _, fun n => ?_⟩
    rw [laneAt_foldl_setLane _ n _ _ nodup_allLanes, if_pos (mem_allLanes n)]
    exact ⟨raise_takeRaise _, v_takeRaise _⟩
  · rw [exec_coreSupplyInForce, if_neg (Nat.not_lt.mpr stands), if_neg (Nat.not_le.mpr short)]
    exact ⟨_, rfl, rfl, fun _ => rfl⟩
  · rw [exec_coreSupplyInForce, if_pos below]

end Sys2Proof.Machine
end

section
/-! PROOFS. Rules of the lanes' shared operations: entries read after a lane has changed, the completion ring (R36), strides (R471, R473,
R476), the safe condition (R49, R168) and the re-entry (R169). -/

namespace Sys2Proof.Machine

variable {s t : State} {n m : LaneId}

/-- What an operation keeps of its own lane. -/
theorem LK.part {q : List LanePart} {x : LanePart} (k : LK n q s t) (hx : x ∉ q) : x.same (laneAt s n) (laneAt t n) := k.own x hx

/-! ### Entries read after a lane has changed -/

/-- A stored entry rests on the stored values and, by its default, on the class of its lane's pickup. -/
theorem stored_congr (reg : t.dict.reg = s.dict.reg) (pickups : ∀ m, (laneAt t m).life.pickup = (laneAt s m).life.pickup) (i k : Nat) :
    stored t i k = stored s i k := by
  have classes : pickupClass t = pickupClass s := funext fun m => by unfold pickupClass; rw [pickups m]
  unfold stored
  rw [reg, classes]

/-- An entry of the unit rests on the stored values alone. -/
theorem cfg_congr_reg {i : Nat} (reg : t.dict.reg = s.dict.reg) (unit : laneOfIndex i = none) (k : Nat) : cfg t i k = cfg s i k := by
  unfold cfg stored
  rw [reg, unit]
  rfl

section
variable {f : Lane → Lane} (pickup : (f (laneAt s n)).life.pickup = (laneAt s n).life.pickup)
include pickup

theorem stored_setLane (i k : Nat) : stored (setLane n f s) i k = stored s i k := by
  refine stored_congr (s := s) (t := setLane n f s) rfl (fun m => ?_) i k
  by_cases own : m = n
  · subst own
    rw [laneAt_setLane, pickup]
  · rw [laneAt_setLane_other own]

theorem cfg_setLane (i k : Nat) : cfg (setLane n f s) i k = cfg s i k := by unfold cfg; rw [stored_setLane pickup]

theorem lcfg_setLane (i k : Nat) : lcfg (setLane n f s) m i k = lcfg s m i k := cfg_setLane pickup _ _

theorem lcfgInt_setLane (i k : Nat) : lcfgInt (setLane n f s) m i k = lcfgInt s m i k := by
  unfold lcfgInt cfgInt; rw [stored_setLane pickup]

theorem withinSoft_setLane (x : Int) : withinSoft (setLane n f s) m x = withinSoft s m x := by
  unfold withinSoft; rw [lcfgInt_setLane pickup, lcfgInt_setLane pickup]

end

/-! ### The completion ring (R36) -/

@[simp] theorem laneAt_postCompletion {c : Completion} : laneAt (postCompletion n c s) n =
    { laneAt s n with flt := { (laneAt s n).flt with completions := ringKeep ((laneAt s n).flt.completions ++ [c]) } } := laneAt_setLane

@[simp] theorem laneAt_collect : laneAt (collect n s) n = { laneAt s n with flt := { (laneAt s n).flt with
    completions := (laneAt s n).flt.completions.filter Completion.isFault } } := laneAt_setLane

@[simp] theorem laneAt_takeOrder {o : Order} : laneAt (takeOrder n o s) n = { laneAt s n with flt := { (laneAt s n).flt with
    orders := removeFirst (fun x => decide (x = o)) (laneAt s n).flt.orders
    completions := ringKeep ((laneAt s n).flt.completions ++ [.taken o]) } } := by simp [takeOrder]

/-- A ring within its bound loses nothing. -/
theorem ringKeep_of_le {l : List Completion} (h : l.length ≤ 64) : ringKeep l = l := by
  unfold ringKeep; rw [if_pos h, List.take_of_length_le h]

/-- The first element that satisfies a test lies between elements that do not and the rest, which removal joins. -/
theorem removeFirst_split {α : Type} {p : α → Bool} {l : List α} {x : α} (hx : x ∈ l) (px : p x = true) (tail : List α) :
    ∃ a y b, l = a ++ y :: b ∧ removeFirst p (l ++ tail) = a ++ b ++ tail := by
  induction l with
  | nil => cases hx
  | cons z l ih =>
    by_cases pz : p z = true
    · exact ⟨[], z, l, rfl, by simp [removeFirst, pz]⟩
    · have later : x ∈ l := (List.mem_cons.mp hx).resolve_left fun e => pz (e ▸ px)
      obtain ⟨a, y, b, split, removed⟩ := ih later
      exact ⟨z :: a, y, b, by rw [split]; rfl, by simp [removeFirst, pz, removed]⟩

/-- The ring takes a further completion without losing a fault: it has a free place, or holds a result that it can put out. -/
def RoomForFault (l : List Completion) : Prop :=
  l.length < 64 ∨ l.length = 64 ∧ ∃ c ∈ l, c.isFault = false

/-- What is posted to a ring with room stands at its end, before it the ring as it was or without a result. -/
theorem ringKeep_of_room {l : List Completion} (room : RoomForFault l) (c : Completion) :
    ∃ k, ringKeep (l ++ [c]) = k ++ [c] ∧ k.length ≤ 63 := by
  obtain free | ⟨full, x, mem, result⟩ := room
  · exact ⟨l, ringKeep_of_le (by simp; omega), by omega⟩
  · obtain ⟨a, y, b, split, removed⟩ := removeFirst_split (p := fun c => !c.isFault) mem (by simp [result]) [c]
    have size : (a ++ b).length = 63 := by simp [split] at full ⊢; omega
    refine ⟨a ++ b, ?_, size.le⟩
    unfold ringKeep
    rw [if_neg (by simp [full]), removed, List.take_of_length_le (by rw [List.length_append, size]; rfl)]

/-- A result posted to a ring with room leaves it with room. -/
theorem RoomForFault.post {l : List Completion} {c : Completion} (room : RoomForFault l) (result : c.isFault = false) :
    RoomForFault (ringKeep (l ++ [c])) := by
  obtain ⟨k, kept, size⟩ := ringKeep_of_room room c
  rw [kept]
  obtain less | full := (by simp; omega : (k ++ [c]).length < 64 ∨ (k ++ [c]).length = 64)
  · exact .inl less
  · exact .inr ⟨full, c, by simp, result⟩

theorem RoomForFault.mem_post {l : List Completion} (room : RoomForFault l) (c : Completion) : c ∈ ringKeep (l ++ [c]) := by
  obtain ⟨k, kept, -⟩ := ringKeep_of_room room c
  simp [kept]

/-! ### Operations that post results -/

/-- What a fault record keeps however many results are posted to its ring. -/
def KeptByResults (P : FaultRec → Prop) : Prop :=
  ∀ f c, c.isFault = false → P f → P { f with completions := ringKeep (f.completions ++ [c]) }

theorem keptByResults_room : KeptByResults (fun f => RoomForFault f.completions) := fun _ _ result room => room.post result

theorem keptByResults_safe : KeptByResults (fun f => f.safe = true) := fun _ _ _ safe => safe

@[simp] theorem laneAt_strideComplete {r : Stride} : laneAt (strideComplete n r s) n = { laneAt s n with
    flt := { (laneAt s n).flt with completions := ringKeep ((laneAt s n).flt.completions ++ [.stride r.tag r.status]) }
    sled := { (laneAt s n).sled with last := r } } := by
  unfold strideComplete
  split_ifs <;> simp

@[simp] theorem queue_strideStart : (laneAt (strideStart n s) n).sled.queue = (laneAt s n).sled.queue := by
  simp [strideStart, foldCascade]

@[simp] theorem running_strideStart : (laneAt (strideStart n s) n).sled.running = !(laneAt s n).sled.queue.isEmpty := by
  simp [strideStart, foldCascade]

@[simp] theorem flt_strideStart : (laneAt (strideStart n s) n).flt = (laneAt s n).flt :=
  (lk_strideStart (List.Subset.refl _) (.refl n _ s)).part (x := .flt) (by decide)

@[simp] theorem flt_openFocus : (laneAt (openFocus n s) n).flt = (laneAt s n).flt :=
  (lk_openFocus (List.Subset.refl _) (.refl n _ s)).part (x := .flt) (by decide)

@[simp] theorem flt_openTracking : (laneAt (openTracking n s) n).flt = (laneAt s n).flt :=
  (lk_openTracking (List.Subset.refl _) (.refl n _ s)).part (x := .flt) (by decide)

@[simp] theorem flt_shortBrake : (laneAt (shortBrake n s) n).flt = (laneAt s n).flt :=
  (lk_shortBrake (List.Subset.refl _) (.refl n _ s)).part (x := .flt) (by decide)

@[simp] theorem laneAt_safeLaser : laneAt (safeLaser n s) m = laneAt s m :=
  laneAt_of (keeps_safeLaser (List.Subset.refl _) (.refl _ s)) (by decide) m

namespace KeptByResults

variable {P : FaultRec → Prop} (hP : KeptByResults P)
include hP

theorem strideComplete {r : Stride} (h : P (laneAt s n).flt) : P (laneAt (strideComplete n r s) n).flt := by
  rw [laneAt_strideComplete]
  exact hP _ _ rfl h

theorem strideDrop {x : Nat} {l : List Stride} (h : P (laneAt s n).flt) : P (laneAt (strideDrop n x l s) n).flt := by
  induction l generalizing s with
  | nil => exact h
  | cons r l ih => exact ih (hP.strideComplete h)

/-- A stop of the sled aborts the strides that wait. -/
theorem sledStop (h : P (laneAt s n).flt) : P (laneAt (sledStop n s) n).flt := by
  unfold Machine.sledStop
  extract_lets d
  split
  · exact h
  · split
    · rw [laneAt_setLane]
      exact hP.strideDrop h
    · exact h

/-- A stride taken posts the strides that it replaces, or itself where it is refused. -/
theorem strideAccept {r : Stride} (h : P (laneAt s n).flt) : P (laneAt (strideAccept n r s) n).flt := by
  unfold Machine.strideAccept
  dsimp only
  split
  · exact hP.strideComplete h
  · split
    · rw [flt_strideStart, laneAt_setLane]
      exact hP.strideDrop h
    · split
      · rwa [flt_strideStart, laneAt_setLane]
      · split <;> simpa using h

theorem rampStart {park : Bool} (h : P (laneAt s n).flt) : P (laneAt (rampStart n park s) n).flt := by
  unfold Machine.rampStart
  extract_lets turning s1 s2 zero s3
  have h2 : P (laneAt s2 n).flt := by simpa [s2, s1] using h
  have h3 : P (laneAt s3 n).flt := by
    cases park with
    | true => exact hP.strideAccept h2
    | false => exact h2
  split
  · exact h3
  · rwa [flt_shortBrake]

theorem faultSpindle {code : Nat} (h : P (laneAt s n).flt) : P (laneAt (faultSpindle n code s) n).flt := by
  unfold Machine.faultSpindle
  split_ifs
  · exact h
  · rwa [flt_shortBrake]
  · exact h
  · exact hP.rampStart h
  · exact hP.rampStart h
  · exact h

/-- The fault is posted behind the results of the strides that the safe condition ends (R49, R168). -/
theorem detectFault {code : Nat} (h : P { (laneAt s n).flt with safe := true }) :
    ∃ f, P f ∧ (laneAt (detectFault n code s) n).flt =
      { f with completions := ringKeep (f.completions ++ [.fault code (laneAt s n).life.st]) } := by
  unfold Machine.detectFault
  extract_lets st s1 s2 s3
  have h2 : P (laneAt s2 n).flt := hP.sledStop (by simpa [s1] using h)
  have h3 : P (laneAt s3 n).flt := by
    simp only [s3]
    split_ifs
    · rwa [flt_openFocus]
    · rwa [flt_openTracking]
    · exact h2
  exact ⟨_, hP.faultSpindle (code := code) h3, congrArg Lane.flt laneAt_postCompletion⟩

end KeptByResults

/-! ### Strides taken (R471, R473, R476) -/

/-- A stride whose target lies outside the soft limits completes at once with status 8. -/
theorem strideAccept_refused {r : Stride} (outside : withinSoft s n r.target = false) :
    strideAccept n r s = strideComplete n { r with status := 8 } s := by
  unfold strideAccept
  rw [outside]
  rfl

/-- A stride taken on an empty queue starts. -/
theorem strideAccept_empty {r : Stride} (inside : withinSoft s n r.target = true) (empty : (laneAt s n).sled.queue = []) :
    (laneAt (strideAccept n r s) n).sled.queue = [r] ∧ (laneAt (strideAccept n r s) n).sled.running = true ∧
      (laneAt (strideAccept n r s) n).flt = (laneAt s n).flt := by
  unfold strideAccept
  cases strideReplaces r <;> simp [inside, empty, strideDrop]

/-! ### Faults detected (R49, R53, R168) -/

theorem safe_detectFault {code : Nat} : (laneAt (detectFault n code s) n).flt.safe = true := by
  obtain ⟨f, safe, eq⟩ := keptByResults_safe.detectFault (s := s) (n := n) (code := code) rfl
  rw [eq]
  exact safe

theorem fault_mem_detectFault {code : Nat} (room : RoomForFault (laneAt s n).flt.completions) :
    .fault code (laneAt s n).life.st ∈ (laneAt (detectFault n code s) n).flt.completions := by
  obtain ⟨f, room, eq⟩ := keptByResults_room.detectFault (s := s) (n := n) (code := code) room
  rw [eq]
  exact room.mem_post _

/-- The pass in progress is cut; what else the safe condition does leaves the write path alone. -/
theorem pass_detectFault {code : Nat} : (laneAt (detectFault n code s) n).wr.pass =
    (laneAt s n).wr.pass.map (fun p => { p with cut := true }) := by
  unfold detectFault
  extract_lets st s1 s2 s3
  have k2 : LK n [.life, .flt, .loop, .spin, .sled, .waiting] s1 s2 := lk_sledStop (subL (List.Subset.refl _) (by decide)) (.refl ..)
  have k3 : LK n [.life, .flt, .loop, .spin, .sled, .waiting] s1 s3 :=
    .ite (lk_openFocus (subL (List.Subset.refl _) (by decide)) k2) (.ite (lk_openTracking (subL (List.Subset.refl _) (by decide)) k2) k2)
  have k := lk_postCompletion (c := .fault code st) (subL (List.Subset.refl _) (by decide))
    (lk_faultSpindle (code := code) (List.Subset.refl _) k3)
  have same : _ = (laneAt s1 n).wr := k.part (x := .wr) (by decide)
  rw [same]
  simp only [s1, laneAt_safeLaser, laneAt_setLane]

/-- An overrun's fault leaves the loops as they are: its axes stay closed until the output is zeroed (R169, R415). -/
theorem loop_detectFault_overrun : (laneAt (detectFault n 0x1101 s) n).loop = (laneAt s n).loop := by
  unfold detectFault
  extract_lets st s1 s2 s3
  have k : LK n [.flt, .sled] s1 s2 := lk_sledStop (List.Subset.refl _) (.refl ..)
  have same : (laneAt s2 n).loop = (laneAt s1 n).loop := k.part (x := .loop) (by decide)
  have s3_eq : s3 = s2 := by simp [s3]
  rw [laneAt_postCompletion, s3_eq]
  simp [faultSpindle, same, s1]

/-- The links that a fault takes down: the DRIVE link by 1106, the LASER link by 1107 and 1108 (R50). -/
def linksFallen (code : Nat) (l : Lane) : Lane :=
  { l with links := { l.links with
    driveTrained := l.links.driveTrained && decide (code ≠ 0x1106)
    laserTrained := l.links.laserTrained && decide (code ≠ 0x1107 ∧ code ≠ 0x1108) } }

/-- Every fault is detected alike; of a lost rotor the spindle's response follows (R446). -/
theorem lk_detectCode_detectFault {code : Nat} :
    LK n [.spin] (detectFault n code (setLane n (linksFallen code) s)) (detectCode n code s) := by
  unfold detectCode
  split
  next lost =>
    subst lost
    refine .ite (.set ?_ (lk_floatBridge (List.Subset.refl _) (.refl ..)))
      (lk_shortBrake (List.Subset.refl _) (.set ?_ (lk_floatBridge (List.Subset.refl _) (.refl ..))))
    all_goals
      intro l x hx
      cases x <;> first | rfl | exact absurd (List.mem_singleton.mpr rfl) hx
  next => exact .refl ..

theorem flt_detectCode {code : Nat} :
    (laneAt (detectCode n code s) n).flt = (laneAt (detectFault n code (setLane n (linksFallen code) s)) n).flt :=
  lk_detectCode_detectFault.part (x := .flt) (by decide)

theorem safe_detectCode {code : Nat} : (laneAt (detectCode n code s) n).flt.safe = true := by
  rw [flt_detectCode, safe_detectFault]

theorem pass_detectCode {code : Nat} : (laneAt (detectCode n code s) n).wr.pass =
    (laneAt s n).wr.pass.map (fun p => { p with cut := true }) := by
  have same : (laneAt (detectCode n code s) n).wr = _ := lk_detectCode_detectFault.part (x := .wr) (by decide)
  rw [same, pass_detectFault, laneAt_setLane]
  rfl

theorem fault_mem_detectCode {code : Nat} (room : RoomForFault (laneAt s n).flt.completions) :
    .fault code (laneAt s n).life.st ∈ (laneAt (detectCode n code s) n).flt.completions := by
  have posted := fault_mem_detectFault (s := setLane n (linksFallen code) s) (n := n) (code := code) (by rwa [laneAt_setLane])
  rw [laneAt_setLane] at posted
  rwa [flt_detectCode]

theorem st_detectCode {code : Nat} : (laneAt (detectCode m code s) n).life.st = (laneAt s n).life.st := by
  have k := lk_detectCode (n := m) (code := code) (List.Subset.refl _) (.refl m _ s)
  by_cases own : n = m
  · subst own
    exact k.part (x := .st) (by decide)
  · exact congrArg (fun l : Lane => l.life.st) (k.others n own)

end Sys2Proof.Machine
end

section
/-! PROOFS. Orders taken up (R37), lane faults detected and collected (R49, R53, R168, R169), and the recovery of a lane (R171 to R173). -/

namespace Sys2Proof.Machine

variable {s t : State} {n m : LaneId}

/-! ### Orders taken up (R37, R471, R485) -/

theorem exec_orderTakeUp {b : Boundary} : exec (.orderTakeUp n b) s = .next (orderTakeUp n b s) := rfl

theorem orderTakeUp_none {b : Boundary} (empty : (laneAt s n).flt.orders.find? (orderAt b) = none) : orderTakeUp n b s = s := by
  unfold orderTakeUp; rw [empty]

theorem orderTakeUp_waits {b : Boundary} {o : Order} (first : (laneAt s n).flt.orders.find? (orderAt b) = some o)
    (full : orderFits s n o = false) : orderTakeUp n b s = s := by
  unfold orderTakeUp; rw [first]; exact if_neg (by simp [full])

theorem orderTakeUp_fits {b : Boundary} {o : Order} (first : (laneAt s n).flt.orders.find? (orderAt b) = some o)
    (fits : orderFits s n o = true) : orderTakeUp n b s = applyOrder n (takeOrder n o s) o := by
  unfold orderTakeUp; rw [first]; exact if_pos fits

theorem withinSoft_takeOrder {o : Order} {x : Int} : withinSoft (takeOrder n o s) n x = withinSoft s n x := by
  unfold takeOrder postCompletion
  rw [withinSoft_setLane rfl, withinSoft_setLane rfl]

/-! ### Detection (R49, R53, R168) -/

theorem exec_laneFaultDetect {src : FaultSource} : exec (.laneFaultDetect src) s = .next (laneFaultDetect src s) := rfl

theorem laneFaultDetect_lane {code : Nat} (up : (laneAt s n).life.st ≠ .off) (listed : code ∈ faultCodes) :
    laneFaultDetect (.lane n code) s = detectCode n code s :=
  if_pos (by simp [mayFault, up, listed])

theorem laneFaultDetect_off {code : Nat} (off : (laneAt s n).life.st = .off) : laneFaultDetect (.lane n code) s = s :=
  if_neg (by simp [mayFault, off])

/-- A front-end die's fault met on one of its lanes: it carries the LASER link's transmitter, and a lane in OFF is left as it is. -/
def dieFaultOn (s : State) (m : LaneId) : State := if mayFault (laneAt s m) then detectCode m 0x1108 s else s

theorem laneFaultDetect_die (d : Fin 4) : laneFaultDetect (.die d) s = (lanesOfDie d).foldl dieFaultOn s := rfl

theorem st_dieFaultOn : (laneAt (dieFaultOn s m) n).life.st = (laneAt s n).life.st := by
  unfold dieFaultOn
  split
  · exact st_detectCode
  · rfl

theorem safe_dieFaultOn (up : (laneAt s n).life.st ≠ .off) : (laneAt (dieFaultOn s n) n).flt.safe = true := by
  unfold dieFaultOn
  rw [if_pos (by simp [mayFault, up])]
  exact safe_detectCode

/-- A lane in the safe condition stays in it, whichever lane the fault is met on. -/
theorem safe_dieFaultOn_of_safe (safe : (laneAt s n).flt.safe = true) : (laneAt (dieFaultOn s m) n).flt.safe = true := by
  unfold dieFaultOn
  split
  · by_cases own : n = m
    · subst own
      exact safe_detectCode
    · have other : laneAt (detectCode m 0x1108 s) n = laneAt s n := (lk_detectCode (List.Subset.refl _) (.refl m _ s)).others n own
      rwa [other]
  · exact safe

theorem safe_foldl_of_safe (l : List LaneId) (safe : (laneAt s n).flt.safe = true) : (laneAt (l.foldl dieFaultOn s) n).flt.safe = true := by
  induction l generalizing s with
  | nil => exact safe
  | cons m l ih => exact ih (safe_dieFaultOn_of_safe safe)

theorem safe_foldl_dieFaultOn {l : List LaneId} (mem : n ∈ l) (up : (laneAt s n).life.st ≠ .off) :
    (laneAt (l.foldl dieFaultOn s) n).flt.safe = true := by
  induction l generalizing s with
  | nil => cases mem
  | cons m l ih =>
    obtain rfl | later := List.mem_cons.mp mem
    · exact safe_foldl_of_safe l (safe_dieFaultOn up)
    · exact ih later (by rwa [st_dieFaultOn])

/-! ### Collection (R168 to R173) -/

theorem exec_laneFault : exec (.laneFault n) s = .next (laneFault n s) := rfl

/-- The next posted fault is the same once the results have been collected. -/
theorem takeFault_filter (l : List Completion) :
    takeFault (l.filter Completion.isFault) = (takeFault l).map (fun r => (r.1, r.2.1, r.2.2.filter Completion.isFault)) := by
  induction l with
  | nil => rfl
  | cons c l ih =>
    cases c with
    | fault code at' => rfl
    | _ => simp [Completion.isFault, takeFault, ih, Function.comp_def]

theorem filter_isFault_of_takeFault {l : List Completion} (noFault : takeFault l = none) : l.filter Completion.isFault = [] := by
  induction l with
  | nil => rfl
  | cons c l ih =>
    cases c with
    | fault code at' => cases noFault
    | _ =>
      simp only [takeFault, Option.map_eq_none_iff] at noFault
      simp [Completion.isFault, ih noFault]

theorem st_enter {x : LaneState} : (laneAt (enter n x s) n).life.st = x := by
  unfold enter
  rw [laneAt_setLane]
  split
  next same => exact same
  next => rfl

theorem flt_enter {x : LaneState} : (laneAt (enter n x s) n).flt = (laneAt s n).flt :=
  (lk_enter (List.Subset.refl _) (.refl n _ s)).part (x := .flt) (by decide)

/-- A lane stands as regards its state of R140 and its fault record. -/
def SameFault (n : LaneId) (s t : State) : Prop :=
  (laneAt t n).life.st = (laneAt s n).life.st ∧ (laneAt t n).flt = (laneAt s n).flt

theorem SameFault.trans {u : State} (h : SameFault n s t) (k : SameFault n t u) : SameFault n s u := ⟨k.1.trans h.1, k.2.trans h.2⟩

theorem SameFault.of_laneAt (h : laneAt t n = laneAt s n) : SameFault n s t := ⟨by rw [h], by rw [h]⟩

theorem SameFault.of_lk {q : List LanePart} (k : LK n q s t) (st : .st ∉ q) (flt : .flt ∉ q) : SameFault n s t := ⟨k.part st, k.part flt⟩

theorem SameFault.foldl {α : Type} {f : State → α → State} (each : ∀ a x, SameFault n a (f a x)) (l : List α) : SameFault n s (l.foldl f s) := by
  induction l generalizing s with
  | nil => exact ⟨rfl, rfl⟩
  | cons x l ih => exact (each s x).trans ih

theorem sameFault_takeIdentity {rec : Bytes} : SameFault n s (takeIdentity m rec s) := by
  unfold takeIdentity
  by_cases own : n = m
  · subst own
    constructor <;> rw [laneAt_setLane]
  · exact .of_laneAt (laneAt_setLane_other own)

theorem laneAt_raiseIdentified {k : LaneId} : laneAt (raiseIdentified k s) n = laneAt s n := laneAt_raise

theorem laneAt_evaluateTeam {u : TeamId} {k : Option LaneId} : laneAt (evaluateTeam u k s) n = laneAt s n :=
  laneAt_of (keeps_evaluateTeam (List.Subset.refl _) (.refl _ s)) (by decide) n

/-- A creation that ends early identifies discs and evaluates the team: no lane changes its state for that (R163). -/
theorem sameFault_abortCreationOf : SameFault n s (abortCreationOf m s) := by
  unfold abortCreationOf
  split
  · unfold abortCreation
    split
    · exact ⟨rfl, rfl⟩
    · refine .trans (.of_laneAt laneAt_setTeam) (.foldl (fun a k => ?_) _)
      exact .trans (sameFault_takeIdentity (m := k)) (.of_laneAt (laneAt_evaluateTeam.trans laneAt_raiseIdentified))
  · exact ⟨rfl, rfl⟩

/-- The end of a warm-up takes a lane out of HOLDING alone (R143). -/
theorem leaveHold_of_st (st : (laneAt s n).life.st ≠ .holding) : leaveHold n s = s := if_neg fun h => st h.1

theorem life_setWarm {f : WarmUp → WarmUp} : (laneAt (setWarm n f s) n).life = (laneAt s n).life := by
  unfold setWarm; rw [laneAt_setLane]

theorem life_setWr {f : WritePath → WritePath} : (laneAt (setWr n f s) n).life = (laneAt s n).life := by
  unfold setWr; rw [laneAt_setLane]

theorem laneAt_endWaits {m : LaneId} : laneAt (endWaits n s) m = laneAt s m :=
  laneAt_of (keeps_endWaits (List.Subset.refl _) (.refl _ s)) (by decide) m

theorem life_warmEnd (st : (laneAt s n).life.st ≠ .holding) : (laneAt (warmEnd n s) n).life = (laneAt s n).life := by
  unfold warmEnd
  rw [leaveHold_of_st (by rwa [life_setWarm])]
  dsimp only
  split_ifs <;> simp [life_setWarm, life_setWr, laneAt_endWaits]

theorem life_partResult {part code : Nat} : (laneAt (partResult n part code s) n).life = (laneAt s n).life := by
  unfold partResult
  dsimp only
  split_ifs <;> simp [life_setWarm]

/-- A warm-up that is cut leaves the lane's state (R525). -/
theorem life_warmCut (st : (laneAt s n).life.st ≠ .holding) : (laneAt (warmCut n s) n).life = (laneAt s n).life := by
  unfold warmCut
  extract_lets w s0 again
  have h0 : (laneAt s0 n).life = (laneAt s n).life := life_setWarm
  have h1 {f : WarmUp → WarmUp} : (laneAt (setWarm n f (partResult n w.part 6 s0)) n).life = (laneAt s n).life := by
    rw [life_setWarm, life_partResult, h0]
  split
  · rw [life_setWarm, life_warmEnd (by rwa [h1]), h1]
  · exact h0

theorem sameFault_warmCut (st : (laneAt s n).life.st ≠ .holding) : SameFault n s (warmCut n s) :=
  ⟨congrArg Life.st (life_warmCut st), (lk_warmCut (List.Subset.refl _) (.refl n _ s)).part (x := .flt) (by decide)⟩

/-- What a latched fault does to commands and warnings leaves the lanes alone. -/
theorem laneAt_latchEnds : laneAt (latchEnds n s) m = laneAt s m :=
  laneAt_of (keeps_latchEnds (List.Subset.refl _) (.refl _ s)) (by decide) m

theorem laneAt_latchFault {code : Nat} : laneAt (latchFault n code s) n =
    { laneAt s n with flt := { (laneAt s n).flt with latched := true, recovering := false } } := by
  unfold latchFault
  rw [laneAt_latchEnds, laneAt_raise, laneAt_setLane]

theorem laneAt_beginWaits : laneAt (beginWaits n s) m = laneAt s m :=
  laneAt_of (keeps_beginWaits (List.Subset.refl _) (.refl _ s)) (by decide) m

/-- What follows a fault on the rest of the lane: its extents are disposed of, a creation and a warm-up end, and commands begin to
wait (R163, R170, R525, R588). -/
theorem sameFault_faultEnds (st : (laneAt s n).life.st ≠ .holding) :
    SameFault n s (warmCut n (beginWaits n (abortCreationOf n (dropExtents n s)))) := by
  have dropped : SameFault n s (dropExtents n s) :=
    .of_lk (lk_dropExtents (List.Subset.refl _) (.refl ..)) (by decide) (by decide)
  have waiting : SameFault n s (beginWaits n (abortCreationOf n (dropExtents n s))) :=
    (dropped.trans sameFault_abortCreationOf).trans (.of_laneAt laneAt_beginWaits)
  exact waiting.trans (sameFault_warmCut (by rwa [waiting.1]))

/-- The re-entry state of a fault rests on the lane's spindle alone. -/
theorem reentryOf_congr {l k : Lane} {code : Nat} (spin : l.spin = k.spin) : reentryOf l code = reentryOf k code := by
  unfold reentryOf; rw [spin]

theorem endHoming_keeps (l : Lane) : (endHoming l).spin = l.spin ∧ (endHoming l).flt = l.flt := by
  unfold endHoming; split <;> exact ⟨rfl, rfl⟩

/-- A lane stands in FAULT with a code, a re-entry state and the state to resume. -/
def InFault (l : Lane) (code : Nat) (re resume : LaneState) : Prop :=
  l.life.st = .fault ∧ l.flt.last = code ∧ l.flt.reentry = re ∧ l.flt.resume = resume

theorem InFault.latch {l : Lane} {code : Nat} {re resume : LaneState} (h : InFault l code re resume) :
    InFault { l with flt := { l.flt with latched := true, recovering := false } } code re resume := h

/-- A fault collected on a lane that was not recovering (R168, R169). -/
theorem inFault_enterFault {code : Nat} {at' : LaneState} (unlatched : (laneAt s n).flt.latched = false)
    (fresh : (laneAt s n).flt.recovering = false) : InFault (laneAt (enterFault n code at' s) n) code (reentryOf (laneAt s n) code)
      (lowerState (reentryOf (laneAt s n) code) at') := by
  obtain ⟨spin, flt⟩ := endHoming_keeps (laneAt s n)
  unfold enterFault
  extract_lets s' l re low again s1 s2
  have l_eq : l = endHoming (laneAt s n) := laneAt_setLane
  have re_eq : re = reentryOf (laneAt s n) code := by simp only [re, l_eq, reentryOf_congr spin]
  have entered : InFault (laneAt s1 n) code re low := by
    simp [InFault, s1, st_enter, flt_enter, s', flt, fresh]
  have ends : SameFault n s1 s2 := sameFault_faultEnds (by rw [entered.1]; decide)
  have settled : InFault (laneAt s2 n) code re low := by
    unfold InFault; rw [ends.1, ends.2]; exact entered
  rw [if_neg (by simp [l_eq, flt, unlatched]), ← re_eq]
  split
  · rw [laneAt_latchFault]
    exact settled.latch
  · rw [if_neg (by simp [again, l_eq, flt, fresh])]
    exact settled

theorem laneFault_none (noFault : takeFault (laneAt s n).flt.completions = none) : laneFault n s = collect n s := by
  unfold laneFault
  dsimp only
  rw [laneAt_collect]
  dsimp only
  rw [takeFault_filter, noFault]
  rfl

/-- A fault taken from the ring of a lane that is not OFF is entered. -/
theorem laneFault_some {code : Nat} {at' : LaneState} {rest : List Completion} (up : (laneAt s n).life.st ≠ .off)
    (posted : takeFault (laneAt s n).flt.completions = some (code, at', rest)) :
    laneFault n s = enterFault n code at' (setLane n (fun l => { l with flt := { l.flt with
      completions := rest.filter Completion.isFault } }) (collect n s)) := by
  unfold laneFault
  dsimp only
  rw [laneAt_collect]
  dsimp only
  rw [takeFault_filter, posted]
  exact if_pos (by simp [mayFault, up])

/-! ### Recovery (R169, R171 to R173) -/

theorem exec_laneRecovery : exec (.laneRecovery n) s = .next (laneRecovery n s) := rfl

theorem mayRecover_of_latched (latched : (laneAt s n).flt.latched = true) : mayRecover (laneAt s n) = false := by
  simp [mayRecover, latched]

theorem latched_of_mayRecover (may : mayRecover (laneAt s n) = true) : (laneAt s n).flt.latched = false := by
  by_contra latched
  rw [mayRecover_of_latched (by simpa using latched)] at may
  cases may

/-- A re-entry brings the lane into its state and out of the safe condition (R140, R169). -/
theorem reenter_spec {x : LaneState} : (laneAt (reenter n x s) n).life.st = x ∧ (laneAt (reenter n x s) n).flt.safe = false := by
  unfold reenter
  rw [st_enter, flt_enter, laneAt_setLane]
  exact ⟨rfl, rfl⟩

/-- A recovery that goes on with no lost link, no spindle to ramp down and no homing due re-enters. -/
theorem recoveryGoes_reenters (linked : lostLink (laneAt s n) = none) (still : mustRamp (laneAt s n) = false)
    (homed : (laneAt s n).flt.rehome = false) : recoveryGoes n s = reenter n (laneAt s n).flt.resume s := by
  unfold recoveryGoes
  dsimp only
  rw [linked, still, homed]
  rfl

/-- The ramp-down posts results alone beside its own order (R35): attempts stand. -/
theorem attempts_rampIfTurning : (laneAt (rampIfTurning n s) n).flt.attempts = (laneAt s n).flt.attempts := by
  have kept (u : State) : (laneAt (rampStart n true u) n).flt.attempts = (laneAt u n).flt.attempts :=
    KeptByResults.rampStart (P := fun f => f.attempts = (laneAt u n).flt.attempts) (fun _ _ _ h => h) rfl
  unfold rampIfTurning rampOrder orderNow
  dsimp only
  split
  · rfl
  · split
    · rw [kept]; simp [postOrder]
    · simp [postOrder]

/-- An attempt beyond the limit latches the fault (R173). -/
theorem countAttempt_latches (limit : lcfg s n 0x02 4 ≤ (attemptsNow s n).length) :
    (laneAt (countAttempt n s) n).flt.latched = true ∧ (laneAt (countAttempt n s) n).flt.attempts = s.ticks :: attemptsNow s n := by
  unfold countAttempt
  dsimp only
  rw [if_pos (by rw [List.length_cons]; omega), laneAt_latchFault]
  refine ⟨rfl, ?_⟩
  dsimp only
  rw [attempts_rampIfTurning, laneAt_setLane]

theorem laneRecovery_idle (barred : mayRecover (laneAt s n) = false) : laneRecovery n s = s := if_neg (by simp [barred])

/-- A recovery that restarts one that a further fault broke has been counted. -/
theorem laneRecovery_goes (may : mayRecover (laneAt s n) = true) (stands : recoveryStands s n = true)
    (broken : (laneAt s n).flt.recovering = true) :
    laneRecovery n s = recoveryGoes n (setLane n (fun l => { l with flt := { l.flt with recovering := true } }) s) := by
  unfold laneRecovery
  dsimp only
  rw [may, stands, broken]
  simp [latched_of_mayRecover may]

theorem laneRecovery_latches (may : mayRecover (laneAt s n) = true) (stands : recoveryStands s n = true)
    (fresh : (laneAt s n).flt.recovering = false) (latches : (laneAt (countAttempt n s) n).flt.latched = true) :
    laneRecovery n s = countAttempt n s := by
  unfold laneRecovery
  dsimp only
  rw [may, stands, fresh]
  simp [latches]

/-- A lane that waits for no link and no ramp-down goes on once its row's conditions have come about. -/
theorem recoveryStands_of_ready (linked : lostLink (laneAt s n) = none) (ready : recoveryReady s n = true) : recoveryStands s n = true := by
  unfold recoveryStands
  dsimp only
  rw [linked]
  simp [ready]

/-- Settles O8: orders by whether they fit; faults because what the safe condition does posts results alone, behind which the ring has room
for the fault; collection because nothing that ends with a fault leaves FAULT; recovery by its next part. -/
theorem laneOrdersFaultsAndRecovery : Obligations.LaneOrdersFaultsAndRecovery := by
  simp only [Obligations.LaneOrdersFaultsAndRecovery, exec_orderTakeUp, exec_laneFaultDetect, exec_laneFault, exec_laneRecovery]
  refine ⟨?waits, ?none, ?gearing, ?stride, ?refused, ?cut, ?posted, ?off, ?die, ?enters, ?collected, ?reenters, ?latches, ?latched⟩
  case waits =>
    intro n b o s first full
    rw [orderTakeUp_waits first full]
  case none =>
    intro n b s empty
    rw [orderTakeUp_none empty]
  case gearing =>
    intro n p a d s first room
    refine ⟨_, rfl, ?_⟩
    rw [orderTakeUp_fits first (decide_eq_true room)]
    simp [applyOrder]
  case stride =>
    intro n r s first empty inside
    refine ⟨_, rfl, ?_⟩
    rw [orderTakeUp_fits first (by simp [orderFits, empty])]
    obtain ⟨queue, running, flt⟩ := strideAccept_empty (s := takeOrder n (.stride r) s) (n := n) (r := r)
      (by rwa [withinSoft_takeOrder]) (by simpa using empty)
    exact ⟨queue, running, by simp [applyOrder, flt]⟩
  case refused =>
    intro n r s first fits outside
    refine ⟨_, rfl, ?_⟩
    rw [orderTakeUp_fits first fits, applyOrder, strideAccept_refused (by rwa [withinSoft_takeOrder])]
    simp
  case cut =>
    intro n code s up listed
    rw [laneFaultDetect_lane up listed]
    exact ⟨_, rfl, safe_detectCode, pass_detectCode⟩
  case posted =>
    intro n code s up listed _ room
    rw [laneFaultDetect_lane up listed]
    exact ⟨_, rfl, fault_mem_detectCode (.inl room)⟩
  case off =>
    intro n code s off
    rw [laneFaultDetect_off off]
  case die =>
    intro d n s own up
    rw [laneFaultDetect_die]
    exact ⟨_, rfl, safe_foldl_dieFaultOn (List.mem_filter.mpr ⟨mem_allLanes n, decide_eq_true own⟩) up⟩
  case enters =>
    intro n code at' rest s posted up unlatched fresh
    rw [laneFault_some up posted]
    have entered := inFault_enterFault (n := n) (code := code) (at' := at') (s := setLane n (fun l => { l with flt := { l.flt with
      completions := rest.filter Completion.isFault } }) (collect n s)) (by simpa using unlatched) (by simpa using fresh)
    rw [reentryOf_congr (k := laneAt s n) (by simp)] at entered
    exact ⟨_, rfl, entered⟩
  case collected =>
    intro n s noFault
    rw [laneFault_none noFault]
    exact ⟨_, rfl, by simp, by simp [filter_isFault_of_takeFault noFault]⟩
  case reenters =>
    intro n s may linked still ready homed broken _
    rw [laneRecovery_goes may (recoveryStands_of_ready linked ready) broken,
      recoveryGoes_reenters (by rw [laneAt_setLane]; exact linked) (by rw [laneAt_setLane]; exact still) (by rw [laneAt_setLane]; exact homed),
      laneAt_setLane]
    exact ⟨_, rfl, reenter_spec⟩
  case latches =>
    intro n s may stands fresh limit
    obtain ⟨latches, attempts⟩ := countAttempt_latches limit
    rw [laneRecovery_latches may stands fresh latches]
    exact ⟨_, rfl, latches, attempts⟩
  case latched =>
    intro n s latched
    rw [laneRecovery_idle (mayRecover_of_latched latched)]

end Sys2Proof.Machine
end

section
/-! PROOFS. The loop period: the observer instant (R384, R425, R427), the releases and their overruns (R60, R65 to R67, R414, R415), the
biquad slots (R377, R390) and the check of the banks (R414). -/

namespace Sys2Proof.Machine

variable {s t : State} {n m : LaneId}

theorem getElem_vecModify {α : Type} {k : Nat} {v : Vector α k} {i j : Fin k} {f : α → α} :
    (vecModify v i f)[j] = if i = j then f v[j] else v[j] := by
  by_cases own : i = j
  · subst own
    simp [vecModify]
  · have apart : i.val ≠ j.val := fun e => own (Fin.ext e)
    simp [vecModify, own, apart]

/-! ### The observer instant (R64, R384, R425, R427) -/

theorem exec_observerUpdate {codes f : List Int} {ia ib : Int} {volts : List Int} {late : Bool} :
    exec (.observerUpdate n codes f ia ib volts late) s = .next (observerUpdate n codes f ia ib volts late s) := rfl

theorem observerUpdate_idle {codes f : List Int} {ia ib : Int} {volts : List Int} {late : Bool} (idle : observerDue s n = false) :
    observerUpdate n codes f ia ib volts late s = s := if_neg (by simp [idle])

/-- At the instant the sample is computed from the sampled state; what it counts beside leaves the lanes alone. -/
theorem laneAt_observerUpdate {codes f : List Int} {ia ib : Int} {volts : List Int} {late : Bool} (due : observerDue s n = true) :
    laneAt (observerUpdate n codes f ia ib volts late s) n =
      laneAt (observerCompute n codes f late (sampledState s n ia ib volts)) n := by
  unfold observerUpdate
  rw [if_pos due]
  unfold observerSample
  extract_lets s1 t0 s2 s3 k
  split
  · rfl
  · simp [s3, s2, s1, sampledState]

theorem sampledAt_observerBanks : (laneAt (observerBanks n s) n).loop.sampledAt = (laneAt s n).loop.sampledAt := by
  unfold observerBanks
  dsimp only
  split_ifs <;> simp [reloadObserver, switchObserver]

theorem spin_observerBanks : (laneAt (observerBanks n s) n).spin = (laneAt s n).spin :=
  (lk_observerBanks (List.Subset.refl _) (.refl n _ s)).part (x := .spin) (by decide)

theorem loop_takeOffsets : (laneAt (takeOffsets n s) n).loop = (laneAt s n).loop :=
  (lk_takeOffsets (List.Subset.refl _) (.refl n _ s)).part (x := .loop) (by decide)

theorem spin_takeOffsets : (laneAt (takeOffsets n s) n).spin = (laneAt s n).spin :=
  (lk_takeOffsets (List.Subset.refl _) (.refl n _ s)).part (x := .spin) (by decide)

/-- What the sample instant has taken of a lane: its own instant, the phase currents, the third from the other two, and the angle advanced
by one period (R384, R425, R427). -/
def Sampled (tick : Nat) (ia ib : Int) (p : Spindle) (l : Lane) : Prop :=
  l.loop.sampledAt = some tick ∧ l.spin.ia = ia ∧ l.spin.ib = ib ∧ l.spin.ic = -(ia + ib) ∧
    l.spin.theta = ((p.theta + p.omega) % 2 ^ 40).toNat

theorem sampled_spindleSample {u : State} {ia ib : Int} {volts : List Int} {tick : Nat} {l : Lane} (taken : l.loop.sampledAt = some tick) :
    Sampled tick ia ib l.spin (spindleSample u n ia ib volts l) := ⟨taken, rfl, rfl, rfl, rfl⟩

theorem sampled_sampledState {ia ib : Int} {volts : List Int} :
    Sampled (timerCount s) ia ib (laneAt s n).spin (laneAt (sampledState s n ia ib volts) n) := by
  unfold sampledState
  extract_lets s1
  have taken : (laneAt s1 n).loop.sampledAt = some (timerCount s) := by
    simp only [s1, loop_takeOffsets, sampledAt_observerBanks, laneAt_setLane]
  have spin : (laneAt s1 n).spin = (laneAt s n).spin := by
    simp only [s1, spin_takeOffsets, spin_observerBanks, laneAt_setLane]
  rw [laneAt_setLane, ← spin]
  exact sampled_spindleSample taken

/-- The update reaches the latch, the states and the bins of the runout: what was sampled stands. -/
theorem Sampled.compute {tick : Nat} {ia ib : Int} {p : Spindle} {codes f : List Int} {late : Bool} (h : Sampled tick ia ib p (laneAt s n)) :
    Sampled tick ia ib p (laneAt (observerCompute n codes f late s) n) := by
  have spin : (laneAt (observerCompute n codes f late s) n).spin = (laneAt s n).spin :=
    (lk_observerCompute (List.Subset.refl _) (.refl n _ s)).part (x := .spin) (by decide)
  have taken : (laneAt (observerCompute n codes f late s) n).loop.sampledAt = (laneAt s n).loop.sampledAt := by
    unfold observerCompute
    split
    · rw [laneAt_setLane]
    · dsimp only
      split_ifs <;> simp [binSample] <;> split <;> rfl
  unfold Sampled
  rw [spin, taken]
  exact h

theorem observerCompute_late {codes f : List Int} :
    (laneAt (observerCompute n codes f true s) n).loop.latch = none ∧
      (laneAt (observerCompute n codes f true s) n).loop.x = (laneAt s n).loop.x := by
  unfold observerCompute
  rw [if_pos rfl, laneAt_setLane]
  exact ⟨rfl, rfl⟩

theorem observerCompute_inTime {codes f : List Int} :
    (laneAt (observerCompute n codes f false s) n).loop.latch = some (observerCell s n (detectorValues codes) f).1 ∧
      (laneAt (observerCompute n codes f false s) n).loop.x = (observerCell s n (detectorValues codes) f).2.2.1 := by
  unfold observerCompute
  rw [if_neg (by decide)]
  dsimp only
  constructor <;> split_ifs <;> simp [binSample] <;> split <;> rfl

/-! ### Deadline overruns (R66, R67, R414, R415) -/

/-- What an overrun makes due: the check of the banks, both reloads, and zero as the next output. -/
def OverrunDue (o : Overrun) : Prop := o.checkDue = true ∧ o.reloadObs = true ∧ o.reloadBq = true ∧ o.zeroNext = true

theorem laneAt_foldl_lbump {i k : Nat} (cs : List Nat) : laneAt (cs.foldl (fun a c => lbump n i k c 1 a) s) m = laneAt s m := by
  induction cs generalizing s with
  | nil => rfl
  | cons c cs ih => exact ih

theorem loop_shortBrake : (laneAt (shortBrake n s) n).loop = (laneAt s n).loop :=
  (lk_shortBrake (List.Subset.refl _) (.refl n _ s)).part (x := .loop) (by decide)

/-- The loops with another record of overruns. -/
def withOverrun (o : Overrun) (k : Loop) : Loop := { k with overrun := o }

/-- An overrun changes of the loops the overrun's record alone, and puts the lane into the safe condition. -/
theorem overrunOf_spec {cs : List Nat} : (laneAt (overrunOf n cs s) n).flt.safe = true ∧
    ∃ o, OverrunDue o ∧ (laneAt (overrunOf n cs s) n).loop = withOverrun o (laneAt s n).loop := by
  unfold overrunOf
  extract_lets l spindle again s1 s2 s3
  have h1 : laneAt s1 n = laneAt s n := by
    simp only [s1]
    split
    · rfl
    · exact laneAt_foldl_lbump _
  have h2 : laneAt s2 n = laneAt s n := by simp only [s2, laneAt_lifeLane, laneAt_bump, h1]
  have h3 : ∃ o, OverrunDue o ∧ (laneAt s3 n).loop = withOverrun o (laneAt s n).loop := by
    simp only [s3, laneAt_setLane, h2]
    exact ⟨_, ⟨rfl, rfl, rfl, rfl⟩, rfl⟩
  obtain ⟨o, due, eq⟩ := h3
  split
  · rw [laneAt_raise, flt_shortBrake, loop_shortBrake, loop_detectFault_overrun, laneAt_setLane, eq]
    exact ⟨safe_detectFault, { o with stopped := true }, due, rfl⟩
  · rw [loop_detectFault_overrun, eq]
    exact ⟨safe_detectFault, o, due, rfl⟩

theorem released_overrunOf {cs : List Nat} : (laneAt (overrunOf n cs s) n).loop.released = (laneAt s n).loop.released := by
  obtain ⟨-, o, -, eq⟩ := overrunOf_spec (s := s) (n := n) (cs := cs)
  rw [eq]
  rfl

theorem cascades_overrunOf {cs : List Nat} : (laneAt (overrunOf n cs s) n).loop.cascades = (laneAt s n).loop.cascades := by
  obtain ⟨-, o, -, eq⟩ := overrunOf_spec (s := s) (n := n) (cs := cs)
  rw [eq]
  rfl

theorem due_overrunOf {cs : List Nat} : OverrunDue (laneAt (overrunOf n cs s) n).loop.overrun := by
  obtain ⟨-, o, due, eq⟩ := overrunOf_spec (s := s) (n := n) (cs := cs)
  rwa [eq]

/-! ### Releases (R60) -/

theorem exec_outputRelease {lp : LoopId} : exec (.outputRelease n lp) s = .next (outputRelease n lp s) := rfl

theorem outputRelease_idle {lp : LoopId} (idle : releaseDue s n lp = false) : outputRelease n lp s = s := if_neg (by simp [idle])

/-- The release instant of a class taken. -/
def releaseTaken (n : LaneId) (lp : LoopId) (s : State) : State :=
  setLane n (fun l => { l with loop := { l.loop with releasedAt := l.loop.releasedAt.set (loopIdx lp) (some (timerCount s)) } }) s

theorem outputRelease_actuator (due : releaseDue s n .actuator = true) :
    outputRelease n .actuator s = releaseActuator n (releaseTaken n .actuator s) := if_pos due

theorem outputRelease_biquad {lp : LoopId} (due : releaseDue s n lp = true) (biquad : lp ≠ .actuator) :
    outputRelease n lp s = releaseBiquad n lp (releaseTaken n lp s) := by
  cases lp with
  | actuator => exact absurd rfl biquad
  | _ => exact if_pos due

@[simp] theorem laneAt_releaseTaken {lp : LoopId} : laneAt (releaseTaken n lp s) n = { laneAt s n with loop := { (laneAt s n).loop with
    releasedAt := (laneAt s n).loop.releasedAt.set (loopIdx lp) (some (timerCount s)) } } := laneAt_setLane

theorem releaseSet_releaseTaken {lp k : LoopId} : releaseSet (laneAt (releaseTaken n lp s) n) k = releaseSet (laneAt s n) k := by
  rw [laneAt_releaseTaken]
  rfl

@[simp] theorem laneAt_driveFrame : laneAt (driveFrame n s) n = { laneAt s n with loop := { (laneAt s n).loop with
    carrierSlot := lanePeriod s n % 8, frameSeq := ((laneAt s n).loop.frameSeq + 1) % 8 } } := by
  simp [driveFrame]

theorem sent_driveFrame : (driveFrame n s).sent = .drive n (withCrc (drivePayload s.pair.hold { laneAt s n with
    loop := { (laneAt s n).loop with carrierSlot := lanePeriod s n % 8 } })) :: s.sent := by
  simp [driveFrame, send]

/-- The actuator's output as a release leaves it: zero after an overrun, else the value, else as it stood (R66, R415). -/
def setOutput (value : Option (List Int)) (l : Lane) : Lane :=
  { l with loop := { l.loop with released := if l.loop.overrun.zero then [0, 0, 0] else value.getD l.loop.released, latch := none } }

/-- The release of the actuator's own sample. -/
theorem releaseActuator_ready {u : List Int} (latch : (laneAt s n).loop.latch = some u)
    (own : (laneAt s n).loop.sampledAt = some (sampleOf s .actuator)) (zeroNext : (laneAt s n).loop.overrun.zeroNext = false) :
    releaseActuator n s = driveFrame n (setLane n (setOutput (some u)) s) := by
  unfold releaseActuator
  simp [latch, own, zeroNext]
  rfl

/-- Without the result of its own sample the previous output is released, and the loop has overrun. -/
theorem releaseActuator_missed (missed : (laneAt s n).loop.latch = none ∨ (laneAt s n).loop.sampledAt ≠ some (sampleOf s .actuator))
    (zeroNext : (laneAt s n).loop.overrun.zeroNext = false) :
    releaseActuator n s = overrunOf n [] (driveFrame n (setLane n (setOutput none) s)) := by
  have nothing : (if (laneAt s n).loop.sampledAt = some (sampleOf s .actuator) then (laneAt s n).loop.latch else none) = none := by
    obtain empty | other := missed
    · simp [empty]
    · simp [other]
  unfold releaseActuator
  simp [nothing, zeroNext]
  rfl

/-- While zero is released nothing else is, whether the sample's result is there or not (R415). -/
theorem released_releaseActuator_zero (zero : (laneAt s n).loop.overrun.zero = true) :
    (laneAt (releaseActuator n s) n).loop.released = [0, 0, 0] := by
  unfold releaseActuator
  extract_lets s0 l value s1
  have zero0 : (laneAt s0 n).loop.overrun.zero = true := by
    simp only [s0]
    split
    · rw [laneAt_setLane]
    · exact zero
  have released1 : (laneAt s1 n).loop.released = [0, 0, 0] := by
    simp only [s1, laneAt_driveFrame, laneAt_setLane, zero0, if_true]
  split
  · exact released1
  · rw [released_overrunOf, released1]

/-- A cascade's latch released; without a result the released value stands. -/
def takeLatch (x : Cascade) : Cascade := { x with released := x.latch.getD x.released, latch := none }

theorem takeLatch_takeLatch (x : Cascade) : takeLatch (takeLatch x) = takeLatch x := rfl

theorem cascade_releaseCascade {c d : Fin 6} : (laneAt (setLane n (releaseCascade c) s) n).loop.cascades[d] =
    if c = d then takeLatch (laneAt s n).loop.cascades[d] else (laneAt s n).loop.cascades[d] := by
  rw [laneAt_setLane]
  exact getElem_vecModify

/-- The cascades of a set released, each once. -/
theorem cascade_foldl_release {d : Fin 6} (cs : List Nat) :
    (laneAt (cs.foldl (fun a c => setLane n (releaseCascade (Fin.ofNat 6 c)) a) s) n).loop.cascades[d] =
      if d ∈ cs.map (Fin.ofNat 6) then takeLatch (laneAt s n).loop.cascades[d] else (laneAt s n).loop.cascades[d] := by
  induction cs generalizing s with
  | nil => rfl
  | cons c cs ih =>
    rw [List.foldl_cons, ih, cascade_releaseCascade]
    by_cases own : Fin.ofNat 6 c = d
    · simp only [List.map_cons, List.mem_cons, own, true_or, if_true, takeLatch_takeLatch, ite_self]
    · simp only [List.map_cons, List.mem_cons, if_neg own, Ne.symm own, false_or]

theorem laneAt_sendPowers {ps : List Nat} : laneAt (sendPowers m ps s) n = laneAt s n :=
  laneAt_of (keeps_sendPowers (List.Subset.refl _) (.refl _ s)) (by decide) n

theorem cascades_releasePowers {fresh : Bool} : (laneAt (releasePowers n fresh s) n).loop.cascades = (laneAt s n).loop.cascades := by
  unfold releasePowers
  extract_lets ps s1
  have h1 : (laneAt s1 n).loop.cascades = (laneAt s n).loop.cascades := by simp only [s1, laneAt_setLane]
  split
  · rw [laneAt_sendPowers, laneAt_setLane]
    exact h1
  · exact h1

theorem cascades_carryOutput {lp : LoopId} {fresh : Bool} :
    (laneAt (carryOutput n lp fresh s) n).loop.cascades = (laneAt s n).loop.cascades := by
  cases lp with
  | readPower => exact cascades_releasePowers
  | sledPosition =>
    simp only [carryOutput, laneAt_setLane]
    split <;> rfl
  | _ => simp [carryOutput]

/-- A release names cascades of the bank (R377). -/
theorem lt_of_mem_releaseSet {l : Lane} {lp : LoopId} : ∀ c ∈ releaseSet l lp, c < 6 := by
  cases lp with
  | actuator => simp [releaseSet]
  | _ => dsimp only [releaseSet]; split <;> simp

theorem ofNat_val (c : Fin 6) : Fin.ofNat 6 c.val = c := Fin.ext (Nat.mod_eq_of_lt c.isLt)

/-- The cascades of a class that miss the result of the release's own sample. -/
def missingOf (s : State) (n : LaneId) (lp : LoopId) : List Nat :=
  (releaseSet (laneAt s n) lp).filter (fun c => !resultReady (laneAt s n) (sampleOf s lp) c)

/-- The cascades of a class that have the result of the release's own sample. -/
def readyOf (s : State) (n : LaneId) (lp : LoopId) : List Nat :=
  (releaseSet (laneAt s n) lp).filter (fun c => !(missingOf s n lp).contains c)

/-- The state in which those are released, and given to what carries them. -/
def readyReleased (n : LaneId) (lp : LoopId) (s : State) : State :=
  carryOutput n lp (!(releaseSet (laneAt s n) lp).isEmpty && (missingOf s n lp).isEmpty)
    ((readyOf s n lp).foldl (fun a c => setLane n (releaseCascade (Fin.ofNat 6 c)) a) s)

theorem releaseBiquad_eq {lp : LoopId} : releaseBiquad n lp s =
    if (missingOf s n lp).isEmpty then readyReleased n lp s else overrunOf n (missingOf s n lp) (readyReleased n lp s) := rfl

theorem cascade_readyReleased {lp : LoopId} {d : Fin 6} : (laneAt (readyReleased n lp s) n).loop.cascades[d] =
    if d ∈ (readyOf s n lp).map (Fin.ofNat 6) then takeLatch (laneAt s n).loop.cascades[d] else (laneAt s n).loop.cascades[d] := by
  unfold readyReleased
  rw [cascades_carryOutput, cascade_foldl_release]

/-- A class's outputs are released where all results are there. -/
theorem cascade_releaseBiquad_ready {lp : LoopId} {c : Fin 6} (mem : c.val ∈ releaseSet (laneAt s n) lp)
    (ready : missingOf s n lp = []) :
    (laneAt (releaseBiquad n lp s) n).loop.cascades[c] = takeLatch (laneAt s n).loop.cascades[c] := by
  have named : c.val ∈ readyOf s n lp := List.mem_filter.mpr ⟨mem, by simp [ready]⟩
  rw [releaseBiquad_eq, ready, if_pos List.isEmpty_nil, cascade_readyReleased, if_pos (List.mem_map.mpr ⟨_, named, ofNat_val c⟩)]

/-- A cascade without its result is not released, and the loop has overrun (R66). -/
theorem releaseBiquad_missed {lp : LoopId} {c : Nat} (mem : c ∈ missingOf s n lp) :
    (laneAt (releaseBiquad n lp s) n).flt.safe = true ∧ OverrunDue (laneAt (releaseBiquad n lp s) n).loop.overrun ∧
      (laneAt (releaseBiquad n lp s) n).loop.cascades[Fin.ofNat 6 c] = (laneAt s n).loop.cascades[Fin.ofNat 6 c] := by
  have inSet : c ∈ releaseSet (laneAt s n) lp := (List.mem_filter.mp mem).1
  have unnamed : Fin.ofNat 6 c ∉ (readyOf s n lp).map (Fin.ofNat 6) := fun named => by
    obtain ⟨d, ready, same⟩ := List.mem_map.mp named
    obtain ⟨dSet, notMissing⟩ := List.mem_filter.mp ready
    have eq : d = c := by
      have := congrArg Fin.val same
      rwa [Fin.val_ofNat, Fin.val_ofNat, Nat.mod_eq_of_lt (lt_of_mem_releaseSet d dSet), Nat.mod_eq_of_lt (lt_of_mem_releaseSet c inSet)] at this
    simp [eq, mem] at notMissing
  have nonempty : ¬ (missingOf s n lp).isEmpty = true := fun empty => by
    rw [List.isEmpty_iff.mp empty] at mem
    cases mem
  rw [releaseBiquad_eq, if_neg nonempty]
  exact ⟨overrunOf_spec.1, due_overrunOf, by rw [cascades_overrunOf, cascade_readyReleased, if_neg unnamed]⟩

/-- The instant taken changes neither the results nor the cascades that a class releases. -/
theorem missingOf_releaseTaken {lp : LoopId} : missingOf (releaseTaken n lp s) n lp = missingOf s n lp := by
  unfold missingOf
  rw [laneAt_releaseTaken]
  rfl

/-- A payload rests on the links, the outputs and the frame's own numbers (R779). -/
theorem drivePayload_congr {hold : Bool} {l k : Lane} (links : l.links = k.links) (released : l.loop.released = k.loop.released)
    (slot : l.loop.carrierSlot = k.loop.carrierSlot) (seq : l.loop.frameSeq = k.loop.frameSeq) (spin : l.spin = k.spin)
    (sled : l.sled = k.sled) : drivePayload hold l = drivePayload hold k := by
  unfold drivePayload
  rw [links, released, slot, seq, spin, sled]

theorem outputRelease_ready {u : List Int} (due : releaseDue s n .actuator = true) (latch : (laneAt s n).loop.latch = some u)
    (own : (laneAt s n).loop.sampledAt = some (sampleOf s .actuator)) (zeroNext : (laneAt s n).loop.overrun.zeroNext = false)
    (zero : (laneAt s n).loop.overrun.zero = false) :
    (laneAt (outputRelease n .actuator s) n).loop.released = u ∧ (laneAt (outputRelease n .actuator s) n).loop.latch = none ∧
      (outputRelease n .actuator s).sent.head? = some (.drive n (withCrc (drivePayload s.pair.hold { laneAt s n with
        loop := { (laneAt s n).loop with released := u, carrierSlot := lanePeriod s n % 8 } }))) := by
  have output : laneAt (setLane n (setOutput (some u)) (releaseTaken n .actuator s)) n = { laneAt (releaseTaken n .actuator s) n with
      loop := { (laneAt (releaseTaken n .actuator s) n).loop with released := u, latch := none } } := by
    rw [laneAt_setLane, setOutput, laneAt_releaseTaken, zero]
    rfl
  rw [outputRelease_actuator due, releaseActuator_ready (by rwa [laneAt_releaseTaken]) (by rwa [laneAt_releaseTaken])
    (by rwa [laneAt_releaseTaken]), laneAt_driveFrame, sent_driveFrame, output, laneAt_releaseTaken]
  refine ⟨rfl, rfl, ?_⟩
  rw [List.head?_cons]
  exact congrArg (fun b => some (Sent.drive n (withCrc b))) (drivePayload_congr rfl rfl rfl rfl rfl rfl)

theorem outputRelease_missed (due : releaseDue s n .actuator = true)
    (missed : (laneAt s n).loop.latch = none ∨ (laneAt s n).loop.sampledAt ≠ some (sampleOf s .actuator))
    (zeroNext : (laneAt s n).loop.overrun.zeroNext = false) (zero : (laneAt s n).loop.overrun.zero = false) :
    OverrunDue (laneAt (outputRelease n .actuator s) n).loop.overrun ∧ (laneAt (outputRelease n .actuator s) n).flt.safe = true ∧
      (laneAt (outputRelease n .actuator s) n).loop.released = (laneAt s n).loop.released := by
  rw [outputRelease_actuator due, releaseActuator_missed (by rwa [laneAt_releaseTaken]) (by rwa [laneAt_releaseTaken])]
  refine ⟨due_overrunOf, overrunOf_spec.1, ?_⟩
  rw [released_overrunOf, laneAt_driveFrame, laneAt_setLane, setOutput, laneAt_releaseTaken, zero]
  rfl

theorem outputRelease_zero (due : releaseDue s n .actuator = true) (zero : (laneAt s n).loop.overrun.zero = true) :
    (laneAt (outputRelease n .actuator s) n).loop.released = [0, 0, 0] := by
  rw [outputRelease_actuator due]
  exact released_releaseActuator_zero (by rwa [laneAt_releaseTaken])

theorem outputRelease_class {lp : LoopId} {c : Fin 6} (due : releaseDue s n lp = true) (biquad : lp ≠ .actuator)
    (ready : ∀ d ∈ releaseSet (laneAt s n) lp, resultReady (laneAt s n) (sampleOf s lp) d = true)
    (mem : c.val ∈ releaseSet (laneAt s n) lp) :
    some (laneAt (outputRelease n lp s) n).loop.cascades[c].released = (laneAt s n).loop.cascades[c].latch ∧
      (laneAt (outputRelease n lp s) n).loop.cascades[c].latch = none := by
  have complete : missingOf s n lp = [] := List.filter_eq_nil_iff.mpr fun d hd => by simp [ready d hd]
  have result := ready c.val mem
  simp only [resultReady, ofNat_val, Bool.and_eq_true] at result
  obtain ⟨v, latched⟩ := Option.isSome_iff_exists.mp result.1
  rw [outputRelease_biquad due biquad, cascade_releaseBiquad_ready (by rwa [releaseSet_releaseTaken]) (by rw [missingOf_releaseTaken, complete]),
    laneAt_releaseTaken, latched]
  refine ⟨?_, rfl⟩
  rw [takeLatch, latched]
  rfl

theorem outputRelease_classMissed {lp : LoopId} {c : Nat} (due : releaseDue s n lp = true) (biquad : lp ≠ .actuator)
    (mem : c ∈ releaseSet (laneAt s n) lp) (missing : resultReady (laneAt s n) (sampleOf s lp) c = false) :
    OverrunDue (laneAt (outputRelease n lp s) n).loop.overrun ∧ (laneAt (outputRelease n lp s) n).flt.safe = true ∧
      (laneAt (outputRelease n lp s) n).loop.cascades[Fin.ofNat 6 c] = (laneAt s n).loop.cascades[Fin.ofNat 6 c] := by
  have named : c ∈ missingOf (releaseTaken n lp s) n lp := by
    rw [missingOf_releaseTaken]
    exact List.mem_filter.mpr ⟨mem, by simp [missing]⟩
  obtain ⟨safe, overrun, cascade⟩ := releaseBiquad_missed named
  rw [outputRelease_biquad due biquad]
  exact ⟨overrun, safe, by rw [cascade, laneAt_releaseTaken]⟩

/-! ### The biquad slots (R377, R390, R391) -/

theorem exec_biquadSlot {pm : Int} {late : List Nat} : exec (.biquadSlot n pm late) s = .next (biquadSlot n pm late s) := rfl

theorem biquadSlot_idle {pm : Int} {late : List Nat} (idle : slotDue s n = false) : biquadSlot n pm late s = s := if_neg (by simp [idle])

theorem biquadSlot_due {pm : Int} {late : List Nat} (due : slotDue s n = true) :
    biquadSlot n pm late s = slotCascades n pm late (lanePeriod s n) (slotTaken s n) := if_pos due

@[simp] theorem laneAt_slotTaken : laneAt (slotTaken s n) n = { laneAt s n with loop := { (laneAt s n).loop with
    slotAt := some (timerCount s - laneOffset s n) } } := laneAt_setLane

/-- A run of a cascade rests on the active bank and the cascade's section states. -/
theorem runOf_congr {l k : Lane} {c : Fin 6} {v : Int} (banks : l.loop.banks = k.loop.banks)
    (secs : l.loop.cascades[c].secs = k.loop.cascades[c].secs) : runOf l c v = runOf k c v := by
  unfold runOf; rw [banks, secs]

/-- A cascade after its run: a late result is discarded, states and all (R66). -/
def ranCascade (x : Cascade) (r : CascadeOut) (born : Nat) (hold late : Bool) : Cascade :=
  if late then { x with latch := none }
  else { x with secs := if hold then x.secs else r.secs, out := r.out, latch := some r.out, born := born }

theorem ranCascade_inTime {x : Cascade} {r : CascadeOut} {born : Nat} : (ranCascade x r born false false).out = r.out ∧
    (ranCascade x r born false false).latch = some r.out ∧ (ranCascade x r born false false).secs = r.secs := ⟨rfl, rfl, rfl⟩

theorem ranCascade_late {x : Cascade} {r : CascadeOut} {born : Nat} {hold : Bool} : (ranCascade x r born hold true).latch = none ∧
    (ranCascade x r born hold true).out = x.out ∧ (ranCascade x r born hold true).secs = x.secs := ⟨rfl, rfl, rfl⟩

/-- The lane with one cascade replaced. -/
def setCascade (c : Fin 6) (y : Cascade) (l : Lane) : Lane := { l with loop := { l.loop with cascades := l.loop.cascades.set c y } }

/-- A run replaces its own cascade and nothing else of the lane. -/
theorem laneAt_runCascade {c : Fin 6} {v : Int} {hold late : Bool} : laneAt (runCascade n c v hold late s) n =
    setCascade c (ranCascade (laneAt s n).loop.cascades[c] (runOf (laneAt s n) c v) (timerCount s - laneOffset s n) hold late) (laneAt s n) := by
  unfold runCascade
  extract_lets l x put r s1 s2
  cases late with
  | true =>
    rw [if_pos rfl]
    exact laneAt_setLane
  | false =>
    rw [if_neg (by decide)]
    have h1 : laneAt s1 n = setCascade c (ranCascade x (runOf l c v) (timerCount s - laneOffset s n) hold false) l := laneAt_setLane
    have h2 : laneAt s2 n = laneAt s1 n := by
      simp only [s2]
      split
      · exact laneAt_lbump
      · rfl
    split
    · rw [laneAt_lbump, h2, h1]
    · rw [h2, h1]

theorem cascade_setCascade {c d : Fin 6} {y : Cascade} {l : Lane} :
    (setCascade c y l).loop.cascades[d] = if c = d then y else l.loop.cascades[d] := getElem_vecModify (f := fun _ => y)

/-- The result of a run in time stands in its latch. -/
theorem latch_runCascade {c : Fin 6} {v : Int} {hold : Bool} :
    (laneAt (runCascade n c v hold false s) n).loop.cascades[c].latch = some (runOf (laneAt s n) c v).out := by
  rw [laneAt_runCascade, cascade_setCascade, if_pos rfl]
  rfl

theorem cascade_runCascade_other {c d : Fin 6} {v : Int} {hold late : Bool} (other : c ≠ d) :
    (laneAt (runCascade n c v hold late s) n).loop.cascades[d] = (laneAt s n).loop.cascades[d] := by
  rw [laneAt_runCascade, cascade_setCascade, if_neg other]

theorem banks_runCascade {c : Fin 6} {v : Int} {hold late : Bool} :
    (laneAt (runCascade n c v hold late s) n).loop.banks = (laneAt s n).loop.banks := by
  rw [laneAt_runCascade]
  rfl

theorem released_runCascade {c : Fin 6} {v : Int} {hold late : Bool} :
    (laneAt (runCascade n c v hold late s) n).loop.released = (laneAt s n).loop.released := by
  rw [laneAt_runCascade]
  rfl

/-- A cascade's run rests on nothing that another one's run has changed. -/
theorem runOf_runCascade_other {c d : Fin 6} {v w : Int} {hold late : Bool} (other : c ≠ d) :
    runOf (laneAt (runCascade n c v hold late s) n) d w = runOf (laneAt s n) d w :=
  runOf_congr banks_runCascade (by rw [cascade_runCascade_other other])

/-- The selector of R395 marks who has lost, and leaves what a cascade holds. -/
theorem cascade_selector {c : Fin 6} {l : Lane} : (selector l).loop.cascades[c].latch = l.loop.cascades[c].latch ∧
    (selector l).loop.cascades[c].secs = l.loop.cascades[c].secs := by
  unfold selector
  dsimp only
  simp only [getElem_vecModify]
  constructor <;> split_ifs <;> rfl

theorem runOf_selector {c : Fin 6} {v : Int} {l : Lane} : runOf (selector l) c v = runOf l c v := runOf_congr rfl cascade_selector.2

theorem loop_countSample : (laneAt (countSample n s) n).loop = (laneAt s n).loop :=
  (lk_countSample (List.Subset.refl _) (.refl n _ s)).part (x := .loop) (by decide)

theorem loop_takePower : (laneAt (takePower n s) n).loop = (laneAt s n).loop :=
  (lk_takePower (List.Subset.refl _) (.refl n _ s)).part (x := .loop) (by decide)

theorem isLate_eq_false {late : List Nat} {c : Nat} (inTime : c ∉ late) : isLate late c = false := by simpa [isLate] using inTime

theorem isLate_eq_true {late : List Nat} {c : Nat} (isIn : c ∈ late) : isLate late c = true := by simpa [isLate] using isIn

theorem released_selector {l : Lane} : (selector l).loop.released = l.loop.released := rfl

/-- No class of the 48 kHz slot is held by an overrun, and the spindle is not stopped (R414, R415). -/
def RunsFreely (o : Overrun) : Prop :=
  o.readPowerHeld = false ∧ o.spindleHeld = false ∧ o.stopped = false ∧ o.sledHeld = false

/-- What the 48 kHz slot of a state leaves in a lane's latches: the read power, bus voltage, sled and current cascades have run (R377). -/
def Slot48Done (s : State) (n : LaneId) (pm : Int) (l : Lane) : Prop :=
  l.loop.cascades[(3 : Fin 6)].latch = some (runOf (laneAt s n) 3 (256 * pm)).out ∧
  l.loop.cascades[(4 : Fin 6)].latch =
    some (runOf (laneAt s n) 4 (milliQ ((cfg s (segIdx (segOf n)) 4 : Nat) - (s.segs[segOf n].mv : Int)))).out ∧
  l.loop.cascades[(2 : Fin 6)].latch = some (runOf (laneAt s n) 2 ((laneAt s n).loop.released.getD 1 0)).out ∧
  l.loop.cascades[(1 : Fin 6)].latch.isSome = true

/-- The 48 kHz slot runs the cascades 3, 4, 1 and 2, the selector between the second and the third (R377). -/
theorem slot48_done {pm : Int} (free : RunsFreely (laneAt s n).loop.overrun) : Slot48Done s n pm (laneAt (slot48 n pm [] s) n) := by
  obtain ⟨power, spindle, stopped, sled⟩ := free
  unfold slot48
  extract_lets ov spindleOff s1 reg s2 t s3 s4 l s5
  have off : spindleOff = false := by simp [spindleOff, ov, spindle, stopped]
  have eq1 : s1 = runCascade n 3 (256 * pm) false false s := if_neg (by simp [ov, power])
  have eq2 : s2 = runCascade n 4 (milliQ (reg - (s.segs[segOf n].mv : Int))) (laneAt s1 n).loop.cascades[4].lost false s1 :=
    if_neg (by simp [off])
  have lane3 : laneAt s3 n = selector (laneAt s2 n) := by
    have eq3 : s3 = lbump n 0x63 3 (laneAt t n).loop.winner 1 t := if_neg (by simp [off])
    rw [eq3, laneAt_lbump]
    exact laneAt_setLane
  have eq4 : s4 = runCascade n 1 (currentInput s3 n) false false s3 := if_neg (by simp [off])
  have eq5 : s5 = runCascade n 2 (l.loop.released.getD 1 0) (!(l.loop.closed[1] && l.sled.geared)) false s4 :=
    if_neg (by simp [ov, sled])
  unfold Slot48Done
  rw [loop_countSample]
  refine ⟨?_, ?_, ?_, ?_⟩
  · rw [eq5, cascade_runCascade_other (by decide), eq4, cascade_runCascade_other (by decide), lane3, cascade_selector.1, eq2,
      cascade_runCascade_other (by decide), eq1, latch_runCascade]
  · rw [eq5, cascade_runCascade_other (by decide), eq4, cascade_runCascade_other (by decide), lane3, cascade_selector.1, eq2,
      latch_runCascade, eq1, runOf_runCascade_other (by decide)]
  · have released : l.loop.released = (laneAt s n).loop.released := by
      simp only [l, eq4, released_runCascade, lane3, released_selector, eq2, eq1]
    rw [eq5, latch_runCascade, released, eq4, runOf_runCascade_other (by decide), lane3, runOf_selector, eq2,
      runOf_runCascade_other (by decide), eq1, runOf_runCascade_other (by decide)]
  · rw [eq5, cascade_runCascade_other (by decide), eq4, latch_runCascade]
    rfl

/-- The slot rests on the lane's loops, the stored entries and the segment's voltage. -/
theorem Slot48Done.congr {u : State} {pm : Int} {l : Lane} (h : Slot48Done u n pm l) (banks : (laneAt u n).loop.banks = (laneAt s n).loop.banks)
    (cascades : (laneAt u n).loop.cascades = (laneAt s n).loop.cascades) (released : (laneAt u n).loop.released = (laneAt s n).loop.released)
    (reg : u.dict.reg = s.dict.reg) (segs : u.segs = s.segs) : Slot48Done s n pm l := by
  have run (c : Fin 6) (v : Int) : runOf (laneAt u n) c v = runOf (laneAt s n) c v := runOf_congr banks (by rw [cascades])
  have unit : laneOfIndex (segIdx (segOf n)) = none := if_neg (by unfold segIdx; omega)
  unfold Slot48Done at h
  rwa [run, run, run, released, segs, cfg_congr_reg reg unit] at h

/-- A spindle that is not stopping follows its reference (R434): no entry changes. -/
theorem reg_speedRamp (runs : (laneAt s n).spin.stopping = false) : (speedRamp n s).dict.reg = s.dict.reg := by
  unfold speedRamp
  dsimp only
  rw [if_neg (by simp [runs])]
  rfl

theorem loop_speedRamp : (laneAt (speedRamp n s) n).loop = (laneAt s n).loop :=
  (lk_speedRamp (List.Subset.refl _) (.refl n _ s)).part (x := .loop) (by decide)

theorem spin_takePower : (laneAt (takePower n s) n).spin = (laneAt s n).spin :=
  (lk_takePower (List.Subset.refl _) (.refl n _ s)).part (x := .spin) (by decide)

theorem biquadBanks_idle (reload : (laneAt s n).loop.overrun.reloadBq = false) (pending : (laneAt s n).loop.banks.bqPending = false) :
    biquadBanks n s = s := by
  unfold biquadBanks
  simp [reload, pending]

/-- The slot of a 48 kHz instant at a state whose classes run freely: in period 0 banks and speed reference come before it. -/
theorem slotCascades_48 {pm : Int} {p : Nat} (period : p = 8 ∨ p = 0) (free : RunsFreely (laneAt s n).loop.overrun)
    (reload : (laneAt s n).loop.overrun.reloadBq = false) (pending : (laneAt s n).loop.banks.bqPending = false)
    (runs : p = 0 → (laneAt s n).spin.stopping = false) : Slot48Done s n pm (laneAt (slotCascades n pm [] p s) n) := by
  have taken := keeps_takePower (n := n) (List.Subset.refl _) (.refl _ s)
  have reg : (takePower n s).dict.reg = s.dict.reg := taken.frame .reg (by decide)
  have segs : (takePower n s).segs = s.segs := taken.frame .segs (by decide)
  have loop := loop_takePower (s := s) (n := n)
  obtain rfl | rfl := period
  · have eq : slotCascades n pm [] 8 s = slot48 n pm [] (takePower n s) := by simp [slotCascades]
    rw [eq]
    exact (slot48_done (by rwa [loop])).congr (by rw [loop]) (by rw [loop]) (by rw [loop]) reg segs
  · have eq : slotCascades n pm [] 0 s = slot48 n pm [] (speedRamp n (takePower n s)) := by
      simp [slotCascades, biquadBanks_idle, loop, reload, pending]
    have ramped := keeps_speedRamp (n := n) (List.Subset.refl _) (.refl _ (takePower n s))
    have loop' : (laneAt (speedRamp n (takePower n s)) n).loop = (laneAt s n).loop := loop_speedRamp.trans loop
    rw [eq]
    refine (slot48_done (by rwa [loop'])).congr (by rw [loop']) (by rw [loop']) (by rw [loop']) ?_ ?_
    · rw [reg_speedRamp (by rw [spin_takePower]; exact runs rfl), reg]
    · exact (ramped.frame .segs (by decide)).trans segs

/-- The temperature estimate rests on life and spindle of the lane, and on its entries (R437). -/
theorem thermal_setLane {f : Lane → Lane} (life : (f (laneAt s n)).life = (laneAt s n).life) (spin : (f (laneAt s n)).spin = (laneAt s n).spin) :
    thermal (setLane n f s) n = thermal s n := by
  have pickup : (f (laneAt s n)).life.pickup = (laneAt s n).life.pickup := by rw [life]
  unfold thermal longRest
  simp only [laneAt_setLane, life, spin, lcfg_setLane pickup]

/-- The slot of period 1 runs the speed cascade on the reference less the speed, the thermal one on the limit less the estimate (R377). -/
theorem slot24_done {late : List Nat} (held : (laneAt s n).loop.overrun.spindleHeld = false)
    (stopped : (laneAt s n).loop.overrun.stopped = false) (speedInTime : 0 ∉ late) (limitInTime : 5 ∉ late) :
    (laneAt (slot24 n late s) n).loop.cascades[(0 : Fin 6)].latch =
      some (runOf (laneAt s n) 0 (sat32 ((laneAt s n).spin.ref * 2 ^ 23 / 2400000000 - speedQ (laneAt s n).spin))).out ∧
    (laneAt (slot24 n late s) n).loop.cascades[(5 : Fin 6)].latch =
      some (runOf (laneAt s n) 5 (milliQ (1000 * (lcfg s n 0x85 5 : Nat) - 100 * (thermal s n / 2 ^ 20)))).out := by
  unfold slot24
  extract_lets ov tmp s0 l s1
  rw [if_neg (by simp [ov, held, stopped]), isLate_eq_false limitInTime]
  have lane0 : l.loop = (laneAt s n).loop ∧ l.spin.ref = (laneAt s n).spin.ref ∧ speedQ l.spin = speedQ (laneAt s n).spin := by
    simp only [l, s0, laneAt_setLane, speedQ, and_self]
  obtain ⟨loop, ref, q⟩ := lane0
  have run (c : Fin 6) (v : Int) : runOf (laneAt s0 n) c v = runOf (laneAt s n) c v :=
    runOf_congr (congrArg Loop.banks loop) (by rw [show (laneAt s0 n).loop = _ from loop])
  have eq1 : s1 = runCascade n 0 (sat32 (l.spin.ref * 2 ^ 23 / 2400000000 - speedQ l.spin))
      (l.loop.cascades[0].lost || l.spin.limited) false s0 := by simp only [s1, isLate_eq_false speedInTime]
  constructor
  · rw [cascade_runCascade_other (by decide), eq1, latch_runCascade, run, ref, q]
  · rw [latch_runCascade, eq1, runOf_runCascade_other (by decide), run]

/-- The slots of the read power class alone (R377). -/
theorem slotCascades_power {pm : Int} {late : List Nat} {p : Nat} (period : p = 4 ∨ p = 12)
    (held : (laneAt s n).loop.overrun.readPowerHeld = false) :
    slotCascades n pm late p s = runCascade n 3 (256 * pm) false (isLate late 3) (takePower n s) := by
  have held' : (laneAt (takePower n s) n).loop.overrun.readPowerHeld = false := by rwa [loop_takePower]
  obtain rfl | rfl := period <;> simp [slotCascades, held']

/-- The read power cascade after its slot (R66, R377). -/
theorem cascade_powerSlot {pm : Int} {late : List Nat} (due : slotDue s n = true) (period : lanePeriod s n = 4 ∨ lanePeriod s n = 12)
    (held : (laneAt s n).loop.overrun.readPowerHeld = false) : ∃ born, (laneAt (biquadSlot n pm late s) n).loop.cascades[(3 : Fin 6)] =
      ranCascade (laneAt s n).loop.cascades[(3 : Fin 6)] (runOf (laneAt s n) 3 (256 * pm)) born false (isLate late 3) := by
  have banks : (laneAt (takePower n (slotTaken s n)) n).loop.banks = (laneAt s n).loop.banks := by rw [loop_takePower, laneAt_slotTaken]
  have cascades : (laneAt (takePower n (slotTaken s n)) n).loop.cascades = (laneAt s n).loop.cascades := by
    rw [loop_takePower, laneAt_slotTaken]
  rw [biquadSlot_due due, slotCascades_power period (by rwa [laneAt_slotTaken]), laneAt_runCascade, cascade_setCascade, if_pos rfl,
    runOf_congr banks (by rw [cascades]), cascades]
  exact ⟨_, rfl⟩

theorem biquadSlot_speed {pm : Int} {late : List Nat} (due : slotDue s n = true) (period : lanePeriod s n = 1)
    (held : (laneAt s n).loop.overrun.spindleHeld = false) (stopped : (laneAt s n).loop.overrun.stopped = false)
    (speedInTime : 0 ∉ late) (limitInTime : 5 ∉ late) :
    (laneAt (biquadSlot n pm late s) n).loop.cascades[(0 : Fin 6)].latch =
      some (runOf (laneAt s n) 0 (sat32 ((laneAt s n).spin.ref * 2 ^ 23 / 2400000000 - speedQ (laneAt s n).spin))).out ∧
    (laneAt (biquadSlot n pm late s) n).loop.cascades[(5 : Fin 6)].latch =
      some (runOf (laneAt s n) 5 (milliQ (1000 * (lcfg s n 0x85 5 : Nat) - 100 * (thermal s n / 2 ^ 20)))).out := by
  have eq : slotCascades n pm late (lanePeriod s n) (slotTaken s n) = slot24 n late (slotTaken s n) := by
    rw [period]
    rfl
  have run (c : Fin 6) (v : Int) : runOf (laneAt (slotTaken s n) n) c v = runOf (laneAt s n) c v := by
    rw [laneAt_slotTaken]
    rfl
  have spin : (laneAt (slotTaken s n) n).spin = (laneAt s n).spin := by rw [laneAt_slotTaken]
  have limit : lcfg (slotTaken s n) n 0x85 5 = lcfg s n 0x85 5 := lcfg_setLane rfl _ _
  have estimate : thermal (slotTaken s n) n = thermal s n := thermal_setLane rfl rfl
  have done := slot24_done (s := slotTaken s n) (n := n) (by rwa [laneAt_slotTaken]) (by rwa [laneAt_slotTaken]) speedInTime limitInTime
  rw [run, run, spin, limit, estimate] at done
  rwa [biquadSlot_due due, eq]

theorem biquadSlot_48 {pm : Int} (due : slotDue s n = true) (period : lanePeriod s n = 8 ∨ lanePeriod s n = 0)
    (free : RunsFreely (laneAt s n).loop.overrun) (reload : (laneAt s n).loop.overrun.reloadBq = false)
    (pending : (laneAt s n).loop.banks.bqPending = false) (runs : lanePeriod s n = 0 → (laneAt s n).spin.stopping = false) :
    Slot48Done s n pm (laneAt (biquadSlot n pm [] s) n) := by
  have done : Slot48Done (slotTaken s n) n pm (laneAt (slotCascades n pm [] (lanePeriod s n) (slotTaken s n)) n) :=
    slotCascades_48 period (by rwa [laneAt_slotTaken]) (by rwa [laneAt_slotTaken]) (by rwa [laneAt_slotTaken]) (by rwa [laneAt_slotTaken])
  rw [biquadSlot_due due]
  exact done.congr (by rw [laneAt_slotTaken]) (by rw [laneAt_slotTaken]) (by rw [laneAt_slotTaken]) rfl rfl

/-- In another period no cascade runs. -/
theorem cascades_slotCascades_none {pm : Int} {late : List Nat} {p : Nat} (period : p ∉ [0, 1, 4, 8, 12]) :
    (laneAt (slotCascades n pm late p s) n).loop.cascades = (laneAt s n).loop.cascades := by
  simp only [List.mem_cons, List.not_mem_nil, or_false, not_or] at period
  obtain ⟨p0, p1, p4, p8, p12⟩ := period
  unfold slotCascades
  simp only [p0, p1, p4, p8, p12, or_self, if_false]
  split
  · rw [loop_takePower]
  · rfl

/-! ### The check of the banks (R414) -/

theorem exec_overrunBankCheck : exec (.overrunBankCheck n) s = execOverrunBankCheck n s := rfl

/-- The check of an overrun has been made. -/
def checkMade (l : Lane) : Lane := { l with loop := { l.loop with overrun := { l.loop.overrun with checkDue := false } } }

/-- Event 1301 for each active bank, 0 of the observer and 1 of the biquads, whose check word fails. -/
theorem execOverrunBankCheck_due (due : (laneAt s n).loop.overrun.checkDue = true) : execOverrunBankCheck n s =
    .next (let s2 := if bankCheck (laneAt s n).loop.banks.obsActive then setLane n checkMade s
        else raise 0x1301 [.u8 n.val, .u8 0] (setLane n checkMade s)
      if bankCheck (laneAt s n).loop.banks.bqActive then s2 else raise 0x1301 [.u8 n.val, .u8 1] s2) := by
  unfold execOverrunBankCheck
  exact if_pos due

theorem execOverrunBankCheck_idle (idle : (laneAt s n).loop.overrun.checkDue = false) : execOverrunBankCheck n s = .next s := by
  unfold execOverrunBankCheck
  exact if_neg (by simp [idle])

/-- Settles O9, instant by instant: the observer's by what the sampled state computes, the releases by what `OverrunDue` and the latches
say, the slots by the runs of their cascades, the check by the banks' check words. -/
theorem loopPeriodSlotsKept : Obligations.LoopPeriodSlotsKept := by
  simp only [Obligations.LoopPeriodSlotsKept, exec_observerUpdate, exec_outputRelease, exec_biquadSlot, exec_overrunBankCheck]
  refine ⟨?observed, ?late, ?noInstant, ?released, ?overrun, ?zero, ?classReleased, ?classOverrun, ?noRelease, ?power, ?powerLate, ?speed,
    ?slot48, ?noCascade, ?noSlot, ?biquadBad, ?observerBad, ?banksGood, ?noCheck⟩
  case observed =>
    intro n codes f ia ib volts s due
    refine ⟨_, rfl, ?_⟩
    rw [laneAt_observerUpdate due]
    obtain ⟨latch, x⟩ := observerCompute_inTime (s := sampledState s n ia ib volts) (n := n) (codes := codes) (f := f)
    exact ⟨latch, x, sampled_sampledState.compute⟩
  case late =>
    intro n codes f ia ib volts s due
    refine ⟨_, rfl, ?_⟩
    rw [laneAt_observerUpdate due]
    obtain ⟨latch, x⟩ := observerCompute_late (s := sampledState s n ia ib volts) (n := n) (codes := codes) (f := f)
    exact ⟨latch, x, sampled_sampledState.compute⟩
  case noInstant =>
    intro n codes f ia ib volts late s idle
    rw [observerUpdate_idle idle]
  case released =>
    intro n u s due latch own zeroNext zero
    exact ⟨_, rfl, outputRelease_ready due latch own zeroNext zero⟩
  case overrun =>
    intro n s due missed zeroNext zero
    obtain ⟨⟨check, obs, bq, next⟩, safe, released⟩ := outputRelease_missed due missed zeroNext zero
    exact ⟨_, rfl, check, obs, bq, next, safe, released⟩
  case zero =>
    intro n s due zero
    exact ⟨_, rfl, outputRelease_zero due zero⟩
  case classReleased =>
    intro n lp s due biquad ready
    exact ⟨_, rfl, fun c mem => outputRelease_class due biquad ready mem⟩
  case classOverrun =>
    intro n lp c s due biquad mem missing
    obtain ⟨⟨check, -⟩, safe, cascade⟩ := outputRelease_classMissed due biquad mem missing
    exact ⟨_, rfl, check, safe, by rw [cascade]⟩
  case noRelease =>
    intro n lp s idle
    rw [outputRelease_idle idle]
  case power =>
    intro n pm late s due period held inTime
    obtain ⟨born, ran⟩ := cascade_powerSlot (pm := pm) (late := late) due period held
    refine ⟨_, rfl, ?_⟩
    rw [ran, isLate_eq_false inTime]
    exact ranCascade_inTime
  case powerLate =>
    intro n pm late s due period held isIn
    obtain ⟨born, ran⟩ := cascade_powerSlot (pm := pm) (late := late) due period held
    refine ⟨_, rfl, ?_⟩
    rw [ran, isLate_eq_true isIn]
    exact ranCascade_late
  case speed =>
    intro n pm late s due period held stopped speedInTime limitInTime
    exact ⟨_, rfl, biquadSlot_speed due period held stopped speedInTime limitInTime⟩
  case slot48 =>
    intro n pm late s due period power spindle stopped sled reload pending inTime runs
    subst inTime
    exact ⟨_, rfl, biquadSlot_48 due period ⟨power, spindle, stopped, sled⟩ reload pending runs⟩
  case noCascade =>
    intro n pm late s period
    refine ⟨_, rfl, ?_⟩
    cases due : slotDue s n with
    | false => rw [biquadSlot_idle due]
    | true => rw [biquadSlot_due due, cascades_slotCascades_none period, laneAt_slotTaken]
  case noSlot =>
    intro n pm late s idle
    rw [biquadSlot_idle idle]
  case biquadBad =>
    intro n s due obs bq
    refine ⟨_, execOverrunBankCheck_due due, ?_, ?_⟩ <;> simp [obs, bq, checkMade]
  case observerBad =>
    intro n s due obs bq
    refine ⟨_, execOverrunBankCheck_due due, ?_, ?_⟩ <;> simp [obs, bq, checkMade]
  case banksGood =>
    intro n s due obs bq
    refine ⟨_, execOverrunBankCheck_due due, ?_, ?_⟩ <;> simp [obs, bq, checkMade]
  case noCheck =>
    intro n s idle
    exact execOverrunBankCheck_idle idle

end Sys2Proof.Machine
end

section
/-! PROOFS. Byte strings, the digests' length, and Kyeri frames as they are parsed and answered (R98 to R108). -/

namespace Sys2Proof.Machine

variable {s t : State}

/-! ### Little-endian bytes (R86) -/

@[simp] theorem length_toLE (n v : Nat) : (toLE n v).length = n := by
  induction n generalizing v with
  | zero => rfl
  | succ n ih => simp [toLE, ih]

theorem fromLE_toLE (n v : Nat) : fromLE (toLE n v) = v % 256 ^ n := by
  induction n generalizing v with
  | zero => simp [toLE, fromLE, Nat.mod_one]
  | succ n ih =>
    have low : (byte v).toNat = v % 256 := BitVec.toNat_ofNat v 8
    rw [toLE, fromLE, ih, low, Nat.pow_succ', Nat.mod_mul]

theorem fromLE_toLE_of_lt {n v : Nat} (fits : v < 256 ^ n) : fromLE (toLE n v) = v := by
  rw [fromLE_toLE, Nat.mod_eq_of_lt fits]

/-- A slice that begins where a first part ends. -/
theorem slice_append_right (a b : Bytes) (n : Nat) : slice (a ++ b) a.length n = b.take n := by
  unfold slice; rw [List.drop_left]

theorem slice_all {b : Bytes} {n : Nat} (covers : b.length ≤ n) : slice b 0 n = b := List.take_of_length_le covers

/-! ### Digests (R107, R108) -/

theorem length_shaRound {k : ShaKind} {v : List Nat} {c : Nat × Nat} : (shaRound k v c).length = v.length := by
  unfold shaRound
  split <;> rfl

theorem length_shaBlock {k : ShaKind} {consts hash block : List Nat} : (shaBlock k consts hash block).length = hash.length := by
  have rounds (l : List (Nat × Nat)) : (l.foldl (shaRound k) hash).length = hash.length :=
    List.foldlRecOn l (shaRound k) (motive := fun v => v.length = hash.length) rfl (fun v same c _ => length_shaRound.trans same)
  simp [shaBlock, rounds]

theorem length_shaDigest_sha384 {b : Bytes} : (shaDigest sha384Kind b).length = 8 := by
  unfold shaDigest
  extract_lets m consts start
  have eight : start.length = 8 := by decide
  exact List.foldlRecOn _ _ (motive := fun h : List Nat => h.length = 8) eight (fun h same block _ => length_shaBlock.trans same)

theorem length_sha384 {b : Bytes} : (sha384 b).length = 48 := by
  unfold sha384
  simp [toBigEndian, length_shaDigest_sha384, List.length_flatMap]

@[simp] theorem length_hmacSha384 {key message : Bytes} : (hmacSha384 key message).length = 48 := length_sha384

@[simp] theorem length_kyeriTag {key frame : Bytes} : (kyeriTag key frame).length = 16 := by simp [kyeriTag]

/-! ### Frames parsed (R98, R100, R101) -/

@[simp] theorem length_kyeriHeader {ty session seq status : Nat} {body : Bytes} :
    (kyeriHeader ty session seq status body).length = 16 + body.length := by
  simp [kyeriHeader]; omega

/-- A frame of the type asked for, at an address of the port, is taken apart into its fields. -/
theorem parseFrame_kyeriHeader {ty session seq status : Nat} {body tag : Bytes} {d : Datagram}
    (data : d.data = kyeriHeader ty session seq status body ++ tag) (own : d.own ∈ ownAddresses s d.port) (up : listens s d.port = true)
    (htype : ty < 256) (hsession : session < 2 ^ 32) (hseq : seq < 2 ^ 32) (hbody : body.length ≤ 1200)
    (htag : tag.length = if session = 0 then 0 else 16) :
    parseFrame ty d s =
      some { session := session, seq := seq, body := body, head := kyeriHeader ty session seq status body, tag := tag } := by
  obtain ⟨⟨allowed, booted⟩, running⟩ : (cfg s 0x1100 (1 + d.port.val) = 1 ∧ s.fw.booted = true) ∧ s.host.frozen = false := by
    simpa [listens] using up
  have ty_eq : field d.data 3 1 = ty := by
    rw [data]; exact fromLE_toLE_of_lt (n := 1) (by omega)
  have session_eq : field d.data 4 4 = session := by
    rw [data]; exact fromLE_toLE_of_lt (n := 4) (by omega)
  have seq_eq : field d.data 8 4 = seq := by
    rw [data]; exact fromLE_toLE_of_lt (n := 4) (by omega)
  have length_eq : field d.data 12 2 = body.length := by
    rw [data]; exact fromLE_toLE_of_lt (n := 2) (by omega)
  have start : d.data.take 2 = natBytes [0x4B, 0x59] ∧ field d.data 2 1 = 1 := by rw [data]; exact ⟨rfl, rfl⟩
  have body_eq : slice d.data 16 body.length = body := by
    rw [data]
    show (body ++ tag).take body.length = body
    exact List.take_left
  have size : d.data.length = 16 + body.length + tag.length := by rw [data]; simp
  unfold parseFrame
  simp only [ty_eq, session_eq, seq_eq, length_eq, body_eq]
  rw [if_pos ⟨by rw [size, htag]; split <;> omega, start.1, start.2, trivial, hbody, by rw [size, htag], allowed, booted, by simp [running],
    .inl (by simpa using own)⟩, data, ← length_kyeriHeader (ty := ty) (session := session) (seq := seq) (status := status),
    List.take_left, List.drop_left]

/-- A frame outside a session goes to what answers those. -/
theorem receive_out {ty seq : Nat} {body : Bytes} {d : Datagram} {out : KFrame → State → State}
    {k : KFrame → Fin 8 → Session → State → State} (data : d.data = kyeriHeader ty 0 seq 0 body) (own : d.own ∈ ownAddresses s d.port)
    (up : listens s d.port = true) (htype : ty < 256) (hseq : seq < 2 ^ 32) (hbody : body.length ≤ 1200) :
    receive ty d out k s = out { session := 0, seq := seq, body := body, head := kyeriHeader ty 0 seq 0 body, tag := [] } s := by
  unfold receive
  rw [parseFrame_kyeriHeader (by rw [data, List.append_nil]) own up htype (by decide) hseq hbody rfl]
  exact if_pos rfl

end Sys2Proof.Machine
end

section
/-! PROOFS. Sessions as they take frames, answer and close (R99 to R112), and the session that idles out (R112). -/

namespace Sys2Proof.Machine

variable {s t : State} {p : PortId} {own addr : Bytes} {uport : Nat} {slot : Fin 8} {x y : Session}

theorem mem_allSlots (i : Fin 8) : i ∈ allSlots := List.mem_ofFn.mpr ⟨i, rfl⟩

/-- A slot of a vector read after one has been set. -/
theorem getElem_set_slot {α : Type} {k : Nat} {v : Vector α k} {i j : Fin k} {a : α} : (v.set i a)[j] = if i = j then a else v[j] := by
  by_cases own : i = j
  · subst own
    simp
  · have apart : i.val ≠ j.val := fun e => own (Fin.ext e)
    simp [own, apart]

/-! ### Frames taken by a session (R101, R104, R105) -/

/-- What `hears` says. -/
theorem hears_iff {seq : Nat} {body : Bytes} : hears s p slot x seq body = true ↔ listens s p = true ∧
    sessionOf s x.number = some (slot, x) ∧ (0 < x.number ∧ x.number < 2 ^ 32) ∧ (x.highest < seq ∧ seq < 2 ^ 32) ∧ body.length ≤ 1200 := by
  simp only [hears, Bool.and_eq_true, decide_eq_true_eq, and_assoc]

/-- A session's frame as parsed. -/
def sessionKFrame (x : Session) (ty seq : Nat) (body : Bytes) : KFrame :=
  { session := x.number, seq := seq, body := body, head := kyeriHeader ty x.number seq 0 body
    tag := kyeriTag x.key (kyeriHeader ty x.number seq 0 body) }

/-- A frame of a session with a right tag and a new sequence is taken. -/
theorem receive_sessionFrame {ty seq : Nat} {body small : Bytes} {out : KFrame → State → State}
    {k : KFrame → Fin 8 → Session → State → State} (at' : own ∈ ownAddresses s p) (taken : hears s p slot x seq small = true)
    (htype : ty < 256) (hbody : body.length ≤ 1200) :
    receive ty (gram p own addr uport (sessionFrame x ty seq 0 body)) out k s =
      k (sessionKFrame x ty seq body) slot (heardSession s p own addr uport x seq) (heard s p own addr uport slot x seq) := by
  obtain ⟨up, found, ⟨named, hnumber⟩, ⟨newer, hseq⟩, -⟩ := hears_iff.mp taken
  have parsed : parseFrame ty (gram p own addr uport (sessionFrame x ty seq 0 body)) s = some (sessionKFrame x ty seq body) :=
    parseFrame_kyeriHeader rfl at' up htype hnumber hseq hbody (by rw [length_kyeriTag, if_neg named.ne'])
  have outside : (sessionKFrame x ty seq body).session ≠ 0 := named.ne'
  have known : sessionOf s (sessionKFrame x ty seq body).session = some (slot, x) := found
  have tagged : kyeriTag x.key (sessionKFrame x ty seq body).head = (sessionKFrame x ty seq body).tag := rfl
  have new : ¬(sessionKFrame x ty seq body).seq ≤ x.highest := Nat.not_le.mpr newer
  simp only [receive, parsed, if_neg outside, inSession, known, tagged, ne_eq, not_true_eq_false, if_false, if_neg new]
  rfl

@[simp] theorem sessions_heard {seq : Nat} :
    (heard s p own addr uport slot x seq).dict.sessions[slot] = some (heardSession s p own addr uport x seq) := by
  simp [heard]

/-! ### Answers in a session (R99, R100, R104) -/

/-- An answer in a session goes to the frame's sender under the session's key, whether or not the session is still open. -/
theorem sent_answerIn {d : Datagram} {ty seq status : Nat} {body : Bytes}
    (same : ∀ z, s.dict.sessions[slot] = some z → z.number = x.number → z.key = x.key) :
    (answerIn slot x d ty seq status body s).sent =
      .kyeri d.port d.own d.addr d.uport (sessionFrame x (ty + 0x80) seq status body) :: s.sent := by
  unfold answerIn
  split
  next isOpen =>
    obtain ⟨z, stands, number⟩ : ∃ z, s.dict.sessions[slot] = some z ∧ z.number = x.number := by
      cases stands : s.dict.sessions[slot] with
      | none => simp [stands] at isOpen
      | some z => exact ⟨z, rfl, by simpa [stands] using isOpen⟩
    unfold respond
    rw [stands]
    dsimp only
    rw [number, same z stands number]
    rfl
  next => rfl

/-- An answer in a session changes of the dictionary the sessions alone, of which it closes none. -/
theorem dict_answerIn {d : Datagram} {ty seq status : Nat} {body : Bytes} : ∃ v : Vector (Option Session) 8,
    (answerIn slot x d ty seq status body s).dict = { s.dict with sessions := v } ∧
      ∀ i : Fin 8, (v[i]).map (fun z => z.number) = (s.dict.sessions[i]).map (fun z => z.number) := by
  unfold answerIn
  split
  · unfold respond
    split
    · exact ⟨_, rfl, fun _ => rfl⟩
    next z stands =>
      refine ⟨_, rfl, fun i => ?_⟩
      rw [getElem_set_slot]
      split
      next own =>
        subst own
        rw [stands]
        rfl
      next => rfl
  · exact ⟨s.dict.sessions, rfl, fun _ => rfl⟩

/-! ### Sessions closed (R102, R112) -/

/-- A session closed leaves its slot, and its held segments and events that wait for an acknowledgement go. -/
theorem dict_closeSession (stands : s.dict.sessions[slot] = some x) : (closeSession slot s).dict = { s.dict with
    sessions := s.dict.sessions.set slot none
    held := s.dict.held.filter (fun h => decide (h.owner ≠ .session x.number))
    eventWaits := s.dict.eventWaits.filter (fun w => decide (w.slot ≠ slot.val)) } := by
  unfold closeSession; rw [stands]

@[simp] theorem sent_closeSession : (closeSession slot s).sent = s.sent := by
  unfold closeSession; split <;> rfl

theorem exec_sessionIdleTimeout : exec (.sessionIdleTimeout slot) s = execSessionIdleTimeout slot s := rfl

/-- SESSION_IDLE_TIMEOUT on an open session (R112). -/
theorem execSessionIdleTimeout_open (stands : s.dict.sessions[slot] = some x) : execSessionIdleTimeout slot s =
    .next (if passed s x.last (secTicks (cfg s 0x1100 0xB)) then closeSession slot s else s) := by
  unfold execSessionIdleTimeout; rw [stands]

/-- Settles O15, by whether the idle time has passed since the session's last frame. -/
theorem idleSessionCloses : Obligations.IdleSessionCloses := by
  simp only [Obligations.IdleSessionCloses, exec_sessionIdleTimeout]
  refine ⟨fun slot x s stands idle => ?_, fun slot x s stands fresh => ?_⟩
  · rw [execSessionIdleTimeout_open stands, if_pos idle]
    refine ⟨_, rfl, ?_⟩
    rw [dict_closeSession stands]
    exact ⟨by simp, rfl, fun i other => by rw [getElem_set_slot, if_neg other.symm]⟩
  · rw [execSessionIdleTimeout_open stands, if_neg (by simp [fresh])]

end Sys2Proof.Machine
end

section
/-! PROOFS. Sessions opened by HELLO and PROVE (R107, R109, R110), and discovery (R130 to R132). -/

namespace Sys2Proof.Machine

variable {s t : State} {p : PortId} {own addr : Bytes} {uport : Nat} {d : Datagram}

/-! ### Dictionaries after frames have been sent -/

/-- Two dictionaries that differ at most in what sending leaves in open sessions, and in the events that wait for an acknowledgement. -/
structure SentAlone (d e : Dict) : Prop where
  rest : e = { d with sessions := e.sessions, eventWaits := e.eventWaits }
  opened : ∀ i : Fin 8, (e.sessions[i]).isSome = (d.sessions[i]).isSome

theorem SentAlone.refl (d : Dict) : SentAlone d d := ⟨rfl, fun _ => rfl⟩

theorem SentAlone.trans {d e f : Dict} (h : SentAlone d e) (k : SentAlone e f) : SentAlone d f :=
  ⟨by rw [k.rest, h.rest], fun i => (k.opened i).trans (h.opened i)⟩

/-- A session that stands is changed, and events may begin to wait. -/
theorem SentAlone.set {d : Dict} {i : Fin 8} {x y : Session} {w : List EventWait} (stands : d.sessions[i] = some x) :
    SentAlone d { d with sessions := d.sessions.set i (some y), eventWaits := w } := by
  refine ⟨rfl, fun j => ?_⟩
  dsimp only
  rw [getElem_set_slot]
  split
  next own =>
    subst own
    rw [stands]
    rfl
  next => rfl

theorem sentAlone_sendEvent {e : LogEntry} {i : Fin 8} : SentAlone s.dict (sendEvent e i s).dict := by
  unfold sendEvent
  split
  · exact .refl _
  next x stands =>
    split
    · exact .set stands
    · exact .refl _

theorem sentAlone_foldl_sendEvent {e : LogEntry} (l : List (Fin 8)) : SentAlone s.dict (l.foldl (fun a i => sendEvent e i a) s).dict := by
  induction l generalizing s with
  | nil => exact .refl _
  | cons i l ih => exact sentAlone_sendEvent.trans ih

theorem sentAlone_logAppend {code source flags time : Nat} {data : Bytes} :
    SentAlone s.dict (logAppend code source flags time data s).dict := by
  unfold logAppend
  extract_lets e s1 w s2
  have same : s2.dict = s.dict := by simp only [s2, apply_ite State.dict, s1, ite_self]
  clear_value s2
  rw [← same]
  exact sentAlone_foldl_sendEvent _

theorem reg_logAppend {code source flags time : Nat} {data : Bytes} : (logAppend code source flags time data s).dict.reg = s.dict.reg :=
  (keeps_logAppend (List.Subset.refl _) (.refl _ s)).frame .reg (by decide)

@[simp] theorem dict_answerOut {ty seq status : Nat} {body : Bytes} : (answerOut d ty seq status body s).dict = s.dict := rfl

/-! ### HELLO (R107, R110) -/

theorem exec_hello : exec (.hello d) s = .next (hello d s) := rfl

theorem helloStatus_barred {body : Bytes} (size : body.length = 33) (fails : 5 ≤ recentFails s) : helloStatus s body = 0x0203 := by
  unfold helloStatus
  simp [size, fails]

/-- The key slot that a HELLO names. -/
theorem field_helloSlot {ns : Bytes} {k : Fin 8} (size : ns.length = 32) : field (ns ++ [byte (k.val + 1)]) 32 1 = k.val + 1 := by
  unfold field
  rw [← size, slice_append_right]
  exact fromLE_toLE_of_lt (n := 1) (by omega)

/-- A HELLO of a slot that holds a key and a role is accepted while a session can be opened. -/
theorem helloStatus_accepts {ns : Bytes} {k : Fin 8} (size : ns.length = 32) (fails : recentFails s < 5)
    (key : (s.dict.keys[k]).isSome = true) (role : cfg s 0x1111 (k.val + 1) ≠ 0)
    (room : allSlots.all (fun i => (s.dict.sessions[i]).isSome) = false) : helloStatus s (ns ++ [byte (k.val + 1)]) = 0 := by
  have slot : Fin.ofNat 8 (k.val + 1 - 1) = k := Fin.ext (Nat.mod_eq_of_lt (by omega))
  have keyed : (s.dict.keys[k]).isNone = false := by simpa using key
  unfold helloStatus
  simp only [field_helloSlot size, slot, keyed, role, room, Nat.not_le.mpr fails, List.length_append, size]
  simp

/-- What an accepted HELLO leaves (R107): the exchange with its nonce and the number of the next session, and the answer. -/
def helloTaken (d : Datagram) (body : Bytes) (s : State) : State :=
  answerOut d 0x01 0 0 ((drawBytes 32 s).1 ++ toLE 4 s.dict.nextSession) { (drawBytes 32 s).2 with dict := { s.dict with
    hellos := s.dict.hellos ++ [{ number := s.dict.nextSession, ns := body.take 32, nd := (drawBytes 32 s).1
                                  slot := field body 32 1 - 1, tick := s.ticks }]
    nextSession := s.dict.nextSession + 1 } }

theorem hello_eq {seq : Nat} {body : Bytes} (data : d.data = kyeriHeader 1 0 seq 0 body) (at' : d.own ∈ ownAddresses s d.port)
    (up : listens s d.port = true) (hseq : seq < 2 ^ 32) (hbody : body.length = 33) : hello d s =
      if helloStatus s body ≠ 0 then answerOut d 0x01 0 (helloStatus s body) [] s else helloTaken d body s := by
  unfold hello
  rw [receive_out data at' up (by decide) hseq (by omega)]
  rfl

/-! ### PROVE (R107, R109, R110) -/

theorem exec_prove : exec (.prove d) s = .next (prove d s) := rfl

/-- A PROVE that names a session which is not open is judged by its exchange. -/
theorem prove_eq {number seq : Nat} {body tag : Bytes} (data : d.data = kyeriHeader 2 number seq 0 body ++ tag)
    (at' : d.own ∈ ownAddresses s d.port) (up : listens s d.port = true) (hnumber : 0 < number ∧ number < 2 ^ 32) (hseq : seq < 2 ^ 32)
    (hbody : body.length ≤ 1200) (htag : tag.length = 16) (closed : sessionOf s number = none) : prove d s =
      proveNew d { session := number, seq := seq, body := body, head := kyeriHeader 2 number seq 0 body, tag := tag } s := by
  unfold prove
  rw [parseFrame_kyeriHeader data at' up (by decide) hnumber.2 hseq hbody (by rw [htag, if_neg hnumber.1.ne'])]
  dsimp only
  rw [if_neg hnumber.1.ne', closed]
  rfl

theorem proveNew_unknown {f : KFrame} (unknown : s.dict.hellos.find? (fun h => decide (h.number = f.session)) = none) :
    proveNew d f s = proofFailed d f.seq s := by
  unfold proveNew; rw [unknown]

/-- The session that an exchange opens under a key (R107 step 5). -/
def newSession (h : Hello) (key : Bytes) (d : Datagram) (s : State) : Session :=
  { number := h.number, role := cfg s 0x1111 (h.slot + 1), port := d.port, own := d.own, addr := d.addr, uport := d.uport, slot := h.slot
    key := exchangeKey h key, highest := 1, last := s.ticks, stored := [], txSeq := 0 }

theorem openedBy_eq {h : Hello} {key : Bytes} (keyed : s.dict.keys[Fin.ofNat 8 h.slot] = some key)
    (role : cfg s 0x1111 (h.slot + 1) ≠ 0) : openedBy h d s = some (newSession h key d s) := by
  unfold openedBy
  rw [keyed]
  exact if_neg role

theorem proofRight_proveFrame {h : Hello} {key : Bytes} (keyed : s.dict.keys[Fin.ofNat 8 h.slot] = some key) :
    proofRight h (newSession h key d s) (sessionKFrame (newSession h key d s) 2 1 (hmacSha384 key (natBytes [1] ++ proofBytes h))) s = true := by
  unfold proofRight
  rw [keyed]
  simp [sessionKFrame]

/-- The session of an exchange open in a slot, and the exchange ended. -/
def exchangeEnded (h : Hello) (slot : Fin 8) (x : Session) (s : State) : State :=
  { s with dict := { s.dict with
    sessions := s.dict.sessions.set slot (some x), hellos := s.dict.hellos.filter (fun g => decide (g.number ≠ h.number)) } }

theorem sessions_exchangeEnded {h : Hello} {slot : Fin 8} {x : Session} : (exchangeEnded h slot x s).dict.sessions[slot] = some x := by
  simp [exchangeEnded]

/-- The right proof in time opens the session in the lowest free slot, and is answered in it. -/
theorem proveNew_right {f : KFrame} {h : Hello} {key : Bytes} {slot : Fin 8}
    (found : s.dict.hellos.find? (fun g => decide (g.number = f.session)) = some h) (keyed : s.dict.keys[Fin.ofNat 8 h.slot] = some key)
    (role : cfg s 0x1111 (h.slot + 1) ≠ 0) (inTime : passed s h.tick (secTicks 2) = false)
    (right : proofRight h (newSession h key d s) f s = true)
    (room : allSlots.find? (fun i => (s.dict.sessions[i]).isNone) = some slot) : proveNew d f s =
      answerIn slot (newSession h key d s) d 0x02 1 0 [] (exchangeEnded h slot (newSession h key d s) s) := by
  unfold proveNew
  simp only [found, openedBy_eq keyed role, inTime, right, room]
  rfl

/-- An answer in an open session is stored in it and changes nothing else of the dictionary (R104). -/
theorem dict_answerIn_open {slot : Fin 8} {x : Session} {ty seq status : Nat} {body : Bytes} (stands : s.dict.sessions[slot] = some x) :
    ∃ l, (answerIn slot x d ty seq status body s).dict = { s.dict with sessions := s.dict.sessions.set slot (some { x with stored := l }) } := by
  unfold answerIn respond
  simp only [stands, Option.any_some, decide_true, if_true]
  exact ⟨_, rfl⟩

/-- The state in which a failed proof has been counted. -/
def proofCounted (s : State) : State :=
  let s2 := (drawBytes 16 (draw 65536 s).2).2
  store 0x1122 1 (toLE 4 (cfg s 0x1122 1 + 1)) { s2 with dict := { s.dict with proofFails := s.ticks :: s.dict.proofFails } }

/-- A failed proof is counted, logged and answered (R109, R110). -/
theorem proofFailed_eq {seq : Nat} : ∃ code flags time data, proofFailed d seq s =
    answerOut d 0x02 seq 0x0203 [] (logAppend code 0 flags time data (proofCounted s)) := ⟨_, _, _, _, rfl⟩

theorem cfg_proofFailed {seq : Nat} : cfg (proofFailed d seq s) 0x1122 1 = (cfg s 0x1122 1 + 1) % 2 ^ 32 := by
  obtain ⟨code, flags, time, data, eq⟩ := proofFailed_eq (d := d) (seq := seq) (s := s)
  rw [eq, cfg_congr_reg (s := proofCounted s) (by rw [dict_answerOut, reg_logAppend]) (by decide)]
  simp [cfg, stored, proofCounted, store, mapGet_mapSet, fromLE_toLE]

theorem sentAlone_proofFailed {seq : Nat} : SentAlone (proofCounted s).dict (proofFailed d seq s).dict := by
  obtain ⟨code, flags, time, data, eq⟩ := proofFailed_eq (d := d) (seq := seq) (s := s)
  rw [eq, dict_answerOut]
  exact sentAlone_logAppend

theorem sent_proofFailed {seq : Nat} : (proofFailed d seq s).sent.head? =
    some (.kyeri d.port d.own d.addr d.uport (kyeriHeader 0x82 0 seq 0x0203 [])) := by
  obtain ⟨code, flags, time, data, eq⟩ := proofFailed_eq (d := d) (seq := seq) (s := s)
  rw [eq]
  rfl

/-! ### Discovery (R130 to R132) -/

theorem exec_discover : exec (.discover d) s = execDiscover d s := rfl

theorem execDiscover_eq {seq : Nat} (data : d.data = kyeriHeader 0x30 0 seq 0 []) (at' : d.own ∈ ownAddresses s d.port)
    (up : listens s d.port = true) (hseq : seq < 2 ^ 32) : execDiscover d s = .next { s with dict := { s.dict with
      discoveries := s.dict.discoveries ++ [{ port := d.port, own := d.own, addr := d.addr, uport := d.uport, tick := s.ticks }] } } := by
  unfold execDiscover
  rw [receive_out data at' up (by decide) hseq (by decide)]

theorem exec_discoverReply : exec .discoverReply s = execDiscoverReply s := rfl

theorem execDiscoverReply_eq {q : Discovery} {rest : List Discovery} (first : s.dict.discoveries = q :: rest) : execDiscoverReply s =
    .next (send (.kyeri q.port (if q.own = announceGroup then linkLocal q.port else q.own) q.addr q.uport
      (kyeriHeader 0xB0 0 0 0 (announceBody s))) { s with dict := { s.dict with discoveries := rest } }) := by
  unfold execDiscoverReply; rw [first]

/-- The live check word rests on the stored values and, by their defaults, on the pickups. -/
theorem liveCheck_congr (reg : t.dict.reg = s.dict.reg) (pickups : ∀ m, (laneAt t m).life.pickup = (laneAt s m).life.pickup) :
    liveCheck t = liveCheck s := by
  have record : entryRecord t = entryRecord s := funext fun k => by unfold entryRecord; rw [stored_congr reg pickups]
  unfold liveCheck checkStream
  rw [record]

/-- What an ANNOUNCE tells does not rest on what has been sent, nor on when the last was. -/
theorem announceBody_announced {sent : List Sent} {at' : Option Nat} :
    announceBody { s with sent := sent, dict := { s.dict with announced := at' } } = announceBody s := by
  unfold announceBody
  rw [stored_congr (s := s) rfl (fun _ => rfl), liveCheck_congr (s := s) rfl (fun _ => rfl)]
  rfl

theorem exec_announce : exec .announce s = execAnnounce s := rfl

/-- One ANNOUNCE on a port. -/
def announced (p : PortId) (s : State) : Sent := .announce p announceGroup 1 (kyeriHeader 0x31 0 0 0 (announceBody s))

/-- ANNOUNCE on one port, where it is enabled and its link up. -/
def announceOn (p : PortId) (s : State) : State :=
  if s.ports.mdioUp[p] ∧ cfg s 0x1100 (1 + p.val) = 1 then send (announced p s) s else s

theorem execAnnounce_due (booted : s.fw.booted = true) (on : cfg s 0x1100 9 = 1)
    (due : s.dict.announced.all (fun t => passed s t (msTicks 990)) = true) : execAnnounce s =
      .next (announceOn 1 (announceOn 0 { s with dict := { s.dict with announced := some s.ticks } })) := by
  unfold execAnnounce
  rw [if_pos ⟨booted, on, due⟩]
  rfl

theorem announceOn_up {sent : List Sent} {at' : Option Nat} (up : s.ports.mdioUp[p] = true) (on : cfg s 0x1100 (1 + p.val) = 1) :
    announceOn p { s with sent := sent, dict := { s.dict with announced := at' } } =
      { s with sent := announced p s :: sent, dict := { s.dict with announced := at' } } := by
  have on' : cfg { s with sent := sent, dict := { s.dict with announced := at' } } 0x1100 (1 + p.val) = 1 :=
    (cfg_congr_reg (s := s) rfl (by decide) _).trans on
  unfold announceOn
  rw [if_pos ⟨up, on'⟩]
  unfold announced
  rw [announceBody_announced]
  rfl

/-- ANNOUNCE where both ports are enabled and their links up. -/
theorem execAnnounce_both (booted : s.fw.booted = true) (on : cfg s 0x1100 9 = 1)
    (due : s.dict.announced.all (fun t => passed s t (msTicks 990)) = true) (links : s.ports.mdioUp = Vector.replicate 2 true)
    (first : cfg s 0x1100 1 = 1) (second : cfg s 0x1100 2 = 1) : execAnnounce s = .next { s with
      sent := announced 1 s :: announced 0 s :: s.sent, dict := { s.dict with announced := some s.ticks } } := by
  have up (q : PortId) : s.ports.mdioUp[q] = true := by rw [links]; simp
  rw [execAnnounce_due booted on due, announceOn_up (up 0) first, announceOn_up (up 1) second]

/-- Settles O14: each frame is parsed into the fields it was made of, and goes by what the exchanges and sessions hold. -/
theorem sessionsOpenAndDiscovery : Obligations.SessionsOpenAndDiscovery := by
  simp only [Obligations.SessionsOpenAndDiscovery, exec_hello, exec_prove, exec_discover, exec_discoverReply, exec_announce]
  refine ⟨?hello, ?barred, ?prove, ?unknown, ?timeout, ?discover, ?reply, ?groupReply, ?announce⟩
  case hello =>
    intro p own addr ns uport seq k s at' up size hseq fails key role room
    have taken := hello_eq (d := gram p own addr uport (kyeriHeader 1 0 seq 0 (ns ++ [byte (k.val + 1)]))) rfl at' up hseq (by simp [size])
    rw [helloStatus_accepts size fails key role room] at taken
    refine ⟨_, congrArg _ taken, ?_, rfl, rfl⟩
    have nonce : (ns ++ [byte (k.val + 1)]).take 32 = ns := by rw [← size, List.take_left]
    simp [helloTaken, field_helloSlot size, nonce]
  case barred =>
    intro p own addr body uport seq s at' up size hseq fails
    have taken := hello_eq (d := gram p own addr uport (kyeriHeader 1 0 seq 0 body)) rfl at' up hseq size
    rw [helloStatus_barred size fails] at taken
    exact ⟨_, congrArg _ taken, rfl, rfl⟩
  case prove =>
    intro p own addr key uport h slot s at' up hnumber hslot closed found keyed role inTime room
    have judged := (prove_eq (d := gram p own addr uport (proveFrame h key)) rfl at' up hnumber (by decide) (by simp) length_kyeriTag
      closed).trans (proveNew_right found keyed role inTime (proofRight_proveFrame keyed) room)
    refine ⟨_, congrArg _ judged, ?_⟩
    obtain ⟨l, eq⟩ := dict_answerIn_open (d := gram p own addr uport (proveFrame h key)) (ty := 2) (seq := 1) (status := 0) (body := [])
      (sessions_exchangeEnded (h := h) (slot := slot) (x := newSession h key (gram p own addr uport (proveFrame h key)) s) (s := s))
    rw [eq]
    simp [newSession, exchangeEnded]
  case unknown =>
    intro p own addr body tag uport number seq s at' up hnumber hseq hbody htag closed unknown
    have judged := prove_eq (d := gram p own addr uport (kyeriHeader 2 number seq 0 body ++ tag)) rfl at' up hnumber hseq hbody htag closed
    rw [proveNew_unknown unknown] at judged
    refine ⟨_, congrArg _ judged, ?_⟩
    obtain ⟨rest, opened⟩ := sentAlone_proofFailed (d := gram p own addr uport (kyeriHeader 2 number seq 0 body ++ tag)) (s := s) (seq := seq)
    exact ⟨by rw [rest]; rfl, cfg_proofFailed, opened, sent_proofFailed⟩
  case timeout =>
    intro number s
    exact ⟨_, rfl, rfl⟩
  case discover =>
    intro p own addr uport seq s at' up hseq
    exact ⟨_, execDiscover_eq rfl at' up hseq, rfl, rfl⟩
  case reply =>
    intro q rest s first unicast
    refine ⟨_, execDiscoverReply_eq first, rfl, ?_⟩
    rw [if_neg unicast]
    rfl
  case groupReply =>
    intro q rest s first group
    refine ⟨_, execDiscoverReply_eq first, rfl, ?_⟩
    rw [if_pos group]
    rfl
  case announce =>
    intro s booted on due links first second
    exact ⟨_, execAnnounce_both booted on due links first second, rfl, rfl⟩

end Sys2Proof.Machine
end

section
/-! PROOFS. The dictionary server (R86 to R95): stored values, the effects of plain writes, and what comes of writes. -/

namespace Sys2Proof.Machine

variable {s t u : State} {index sub i j : Nat} {v : Bytes} {p : Put} {l : List Put} {who : Who} {reply : Reply} {ph : Bool}

/-! ### Stored values -/

theorem regKey_ne (low : sub < 256) (low' : j < 256) (apart : i ≠ index ∨ j ≠ sub) : regKey index sub ≠ regKey i j := by
  unfold regKey
  omega

/-- A stored value is what was last written. -/
theorem stored_store_same : stored (store index sub v s) index sub = v := by
  simp only [stored, store, mapGet_mapSet, if_true]

theorem stored_store_of_ne (apart : regKey index sub ≠ regKey i j) : stored (store index sub v s) i j = stored s i j := by
  simp only [stored, store, mapGet_mapSet, if_neg apart]
  rfl

theorem changeOf_countChange : changeOf (countChange index sub s) index sub = (changeOf s index sub + 1) % 2 ^ 32 := by
  simp only [changeOf, countChange, List.find?_cons, decide_true]
  rfl

/-! ### What a plain write can do -/

/-- Two states that differ in lanes alone, and not in their life. -/
structure LanesAlone (s t : State) : Prop where
  rest : t = { s with lanes := t.lanes }
  life : ∀ n, (laneAt t n).life = (laneAt s n).life

theorem LanesAlone.refl (s : State) : LanesAlone s s := ⟨rfl, fun _ => rfl⟩

theorem LanesAlone.trans (h : LanesAlone s t) (k : LanesAlone t u) : LanesAlone s u :=
  ⟨by rw [k.rest, h.rest], fun n => (k.life n).trans (h.life n)⟩

theorem LanesAlone.dict (h : LanesAlone s t) : t.dict = s.dict := by rw [h.rest]

theorem LanesAlone.mem (h : LanesAlone s t) : t.mem = s.mem := by rw [h.rest]

theorem LanesAlone.sent (h : LanesAlone s t) : t.sent = s.sent := by rw [h.rest]

theorem LanesAlone.host (h : LanesAlone s t) : t.host = s.host := by rw [h.rest]

theorem LanesAlone.work (h : LanesAlone s t) : t.work = s.work := by rw [h.rest]

theorem LanesAlone.needsAck (h : LanesAlone s t) : Machine.needsAck t = Machine.needsAck s := by rw [h.rest]; rfl

theorem LanesAlone.stored (h : LanesAlone s t) : Machine.stored t i j = Machine.stored s i j :=
  stored_congr (by rw [h.dict]) (fun n => by rw [h.life]) i j

theorem LanesAlone.store (h : LanesAlone s t) : LanesAlone (store index sub v s) (store index sub v t) :=
  ⟨by rw [h.rest]; rfl, h.life⟩

theorem LanesAlone.countChange (h : LanesAlone s t) : LanesAlone (countChange index sub s) (countChange index sub t) :=
  ⟨by rw [h.rest]; rfl, h.life⟩

theorem lanesAlone_sourceWritten {n : LaneId} : LanesAlone s (sourceWritten n s) := by
  refine ⟨rfl, fun m => ?_⟩
  by_cases own : m = n
  · rw [own, sourceWritten, laneAt_setLane]
  · rw [sourceWritten, laneAt_setLane_other own]

/-! ### The effect of a plain write -/

/-- A place with a behaviour of its own is not that of a plain entry. -/
theorem not_of_plainEntry {c : Prop} (plain : plainEntry index sub = true) (own : c → plainEntry index sub = false) : ¬c :=
  fun h => by rw [own h] at plain; cases plain

theorem familyOf_lane (low : 0x4000 ≤ index) (high : index < 0x6000) : familyOf index = 0x4000 + index % 256 := if_pos ⟨low, high⟩

theorem laneIdx_laneOf (low : 0x4000 ≤ index) (high : index < 0x6000) :
    laneIdx (laneOf ((index - 0x4000) / 256)) (index % 256) = index := by
  simp only [laneIdx, laneOf, Fin.val_ofNat]
  omega

theorem eq_of_familyOf_unit (f : familyOf index = 0x2200) : index = 0x2200 := by
  unfold familyOf at f
  split at f
  · omega
  · split at f
    · omega
    · repeat' split at f
      all_goals omega

theorem applyLane_plain {n : LaneId} {off : Nat} (family : familyOf index = 0x4000 + off) (plain : plainEntry index sub = true) :
    ∃ t, applyLane n off sub v s = .ok t ∧ LanesAlone (store (laneIdx n off) sub v s) t := by
  have no {a : Nat} {c : Prop} (own : familyOf index = 0x4000 + a → c → plainEntry index sub = false) : ¬(off = a ∧ c) :=
    not_of_plainEntry plain fun ⟨here, hc⟩ => own (here ▸ family) hc
  unfold applyLane
  -- The master source alone among the plain entries of a lane has more to it than its value (R483).
  iterate 13 rw [if_neg (no fun f h => by simp [plainEntry, ownBehaviour, f, h])]
  split
  case isTrue => exact ⟨_, rfl, lanesAlone_sourceWritten⟩
  case isFalse =>
    iterate 6 rw [if_neg (no fun f h => by simp [plainEntry, ownBehaviour, f, h])]
    exact ⟨_, rfl, .refl _⟩

theorem applyEngine_plain (plain : plainEntry index sub = true) : applyEngine index sub v s = .ok (store index sub v s) := by
  have no {a : Nat} {c : Prop} (own : familyOf index = a → c → plainEntry index sub = false) : ¬(familyOf index = a ∧ c) :=
    not_of_plainEntry plain fun ⟨f, hc⟩ => own f hc
  have bank {a : Nat} (own : familyOf index = a → plainEntry index sub = false) : ¬familyOf index = a := not_of_plainEntry plain own
  unfold applyEngine
  rw [if_neg (no fun f h => by simp [plainEntry, ownBehaviour, f, h]), if_neg (no fun f h => by simp [plainEntry, ownBehaviour, f, h])]
  iterate 3 rw [if_neg (bank fun f => by simp [plainEntry, ownBehaviour, f])]

theorem applyUnit_plain (plain : plainEntry index sub = true) : applyUnit reply ph index sub v s = .ok (store index sub v s) := by
  have no {a : Nat} {c : Prop} (own : familyOf index = a → c → plainEntry index sub = false) : ¬(familyOf index = a ∧ c) :=
    not_of_plainEntry plain fun ⟨f, hc⟩ => own f hc
  have key {a : Nat} (own : familyOf index = a → plainEntry index sub = false) : ¬familyOf index = a := not_of_plainEntry plain own
  have ps : ¬(familyOf index = 0x2200 ∧ sub = 4) := no fun f h => by simp [plainEntry, eq_of_familyOf_unit f, h]
  unfold applyUnit
  iterate 2 rw [if_neg (key fun f => by simp [plainEntry, ownBehaviour, f])]
  iterate 5 rw [if_neg (no fun f h => by simp [plainEntry, ownBehaviour, f, h])]
  rw [if_neg ps]
  iterate 15 rw [if_neg (no fun f h => by simp [plainEntry, ownBehaviour, f, h])]

/-- A plain write stores its value. -/
theorem applyWrite_plain (plain : plainEntry p.index p.sub = true) :
    ∃ t, applyWrite reply ph p s = .ok t ∧ LanesAlone (store p.index p.sub p.value s) t := by
  unfold applyWrite
  split
  case isTrue lane =>
    obtain ⟨t, done, alone⟩ := applyLane_plain (v := p.value) (s := s) (familyOf_lane lane.1 lane.2) plain
    exact ⟨t, done, laneIdx_laneOf lane.1 lane.2 ▸ alone⟩
  case isFalse =>
    split
    case isTrue => exact ⟨_, applyEngine_plain plain, .refl _⟩
    case isFalse => exact ⟨_, applyUnit_plain plain, .refl _⟩

/-! ### Plain writes in order -/

/-- The state in which the value of a plain write is stored, and the write counted (R93). -/
def putPlain (s : State) (p : Put) : State := countChange p.index p.sub (store p.index p.sub p.value s)

theorem LanesAlone.foldl_putPlain (h : LanesAlone s t) : LanesAlone (l.foldl putPlain s) (l.foldl putPlain t) := by
  induction l generalizing s t with
  | nil => exact h
  | cons q l ih => exact ih h.store.countChange

theorem needsAck_foldl_putPlain : needsAck (l.foldl putPlain s) = needsAck s := by
  induction l generalizing s with
  | nil => rfl
  | cons q l ih => exact ih

theorem sessions_foldl_putPlain : (l.foldl putPlain s).dict.sessions = s.dict.sessions := by
  induction l generalizing s with
  | nil => rfl
  | cons q l ih => exact ih

theorem host_foldl_putPlain : (l.foldl putPlain s).host = s.host := by
  induction l generalizing s with
  | nil => rfl
  | cons q l ih => exact ih

/-- An entry that no write names keeps its value. -/
theorem stored_foldl_putPlain_other (apart : ∀ q ∈ l, regKey q.index q.sub ≠ regKey i j) :
    stored (l.foldl putPlain s) i j = stored s i j := by
  induction l generalizing s with
  | nil => rfl
  | cons q l ih =>
    obtain ⟨first, rest⟩ := List.forall_mem_cons.mp apart
    exact (ih rest).trans (stored_store_of_ne first)

/-- Writes of different entries put all their values in force. -/
theorem stored_foldl_putPlain (different : (l.map fun q => regKey q.index q.sub).Nodup) (mem : p ∈ l) :
    stored (l.foldl putPlain s) p.index p.sub = p.value := by
  induction l generalizing s with
  | nil => cases mem
  | cons q l ih =>
    obtain ⟨fresh, rest⟩ := List.nodup_cons.mp different
    rcases List.mem_cons.mp mem with rfl | later
    · have kept : stored (l.foldl putPlain (putPlain s p)) p.index p.sub = stored (putPlain s p) p.index p.sub :=
        stored_foldl_putPlain_other fun r named same => fresh (List.mem_map.mpr ⟨r, named, same⟩)
      exact kept.trans stored_store_same
    · exact ih rest later

theorem isLater_of_plain (plain : plainEntry p.index p.sub = true) : p.isLater = false := by
  have save : ¬(p.index = 0x2000 ∧ p.sub = 2) := not_of_plainEntry plain fun h => by simp [plainEntry, ownBehaviour, familyOf, h]
  have unit : ¬(p.index = 0x2200 ∧ p.sub = 1) := not_of_plainEntry plain fun h => by simp [plainEntry, ownBehaviour, familyOf, h]
  simp only [Put.isLater, save, unit, decide_false, Bool.or_self]

theorem any_isLater_of_plain (plain : ∀ q ∈ l, plainEntry q.index q.sub = true) : l.any Put.isLater = false :=
  List.any_eq_false.mpr fun q mem => by rw [isLater_of_plain (plain q mem)]; exact Bool.false_ne_true

/-- Plain writes store their values and are counted. -/
theorem applyPuts_plain {k : Nat} (plain : ∀ q ∈ l, plainEntry q.index q.sub = true) :
    ∃ t, applyPuts who reply ph l k s = .ok t ∧ LanesAlone (l.foldl putPlain s) t := by
  induction l generalizing s k with
  | nil => exact ⟨s, rfl, .refl s⟩
  | cons q l ih =>
    obtain ⟨first, rest⟩ := List.forall_mem_cons.mp plain
    obtain ⟨a, done, alone⟩ := applyWrite_plain (ph := ph) (s := s)
      (reply := if l.any Put.isLater then .record who q.index q.sub else reply.atPos k) first
    obtain ⟨t, doneAll, aloneAll⟩ := ih (s := countChange q.index q.sub a) (k := k + 1) rest
    have counted : LanesAlone (putPlain s q) (countChange q.index q.sub a) := alone.countChange
    refine ⟨t, ?_, counted.foldl_putPlain.trans aloneAll⟩
    simp only [applyPuts, done, isLater_of_plain first, Bool.false_eq_true, if_false, doneAll]

/-- Plain writes leave the teams as they are. -/
theorem settleTeams_plain (plain : ∀ q ∈ l, plainEntry q.index q.sub = true) : settleTeams l s = s := by
  unfold settleTeams
  rw [if_neg]
  rw [Bool.not_eq_true, List.any_eq_false]
  intro q mem team
  simp only [Bool.or_eq_true, Bool.and_eq_true, decide_eq_true_eq] at team
  rcases team with ⟨f, h⟩ | ⟨f, h⟩
  · exact not_of_plainEntry (plain q mem) (fun _ => by simp [plainEntry, ownBehaviour, f, h]) trivial
  · exact not_of_plainEntry (plain q mem) (fun _ => by simp [plainEntry, ownBehaviour, familyOf, f, h]) trivial

/-! ### Consistency (R87 check 8) -/

/-- Check 8 depends on the stored values and on the size of the buffer memory. -/
theorem consistent_congr (values : ∀ i j, stored t i j = stored s i j) (mem : t.mem = s.mem) :
    consistent t index sub = consistent s index sub := by
  have same : stored t = stored s := funext fun i => funext fun j => values i j
  simp only [consistent, otherMembers, cfg, cfgInt, same, mem]
  rfl

/-- The state that a plain write would leave, its value stored over its effect, has the value stored. -/
theorem stored_asWritten_plain (plain : plainEntry p.index p.sub = true) :
    stored (asWritten ph p s) i j = stored (store p.index p.sub p.value s) i j := by
  obtain ⟨t, done, alone⟩ := applyWrite_plain (reply := .record .peer p.index p.sub) (ph := ph) (s := s) plain
  simp only [asWritten, done]
  by_cases own : regKey p.index p.sub = regKey i j
  · simp only [stored, store, mapGet_mapSet, own, if_true]
  · rw [stored_store_of_ne own, alone.stored]

theorem mem_asWritten_plain (plain : plainEntry p.index p.sub = true) : (asWritten ph p s).mem = s.mem := by
  obtain ⟨t, done, alone⟩ := applyWrite_plain (reply := .record .peer p.index p.sub) (ph := ph) (s := s) plain
  simp only [asWritten, done]
  exact alone.mem

theorem consistent_asWritten_plain (plain : plainEntry p.index p.sub = true) :
    consistent (asWritten ph p s) p.index p.sub = consistent (store p.index p.sub p.value s) p.index p.sub :=
  consistent_congr (fun _ _ => stored_asWritten_plain plain) (mem_asWritten_plain plain)

end Sys2Proof.Machine
end

section
/-! PROOFS. What comes of writes (R87, R94), and a single write by an accessor (R29, R89, R93). -/

namespace Sys2Proof.Machine

variable {s t scratch : State} {index sub i j e k : Nat} {v : Bytes} {p : Put} {l : List Put} {who : Who} {reply : Reply} {ph : Bool}
  {en : Entry}

/-! ### What comes of writes -/

theorem serve_refused (checks : checkPuts who ph l 1 s = .error (e, k)) : serve who reply ph l s = .now e k s := by
  simp only [serve, checks]

theorem serve_inconsistent (mine : who ≠ .peer) (checks : checkPuts who ph l 1 s = .ok scratch)
    (conflict : consistPuts scratch l 1 = some k) : serve who reply ph l s = .now 0x0304 k s := by
  simp only [serve, checks, if_neg mine, conflict]

/-- Writes that pass the checks of the whole and are denied by checks 9 or 10. -/
theorem serve_denied (checks : checkPuts who ph l 1 s = .ok scratch) (consist : who ≠ .peer → consistPuts scratch l 1 = none)
    (effects : applyPuts who reply ph l 1 s = .error (e, k)) : serve who reply ph l s = .now e k (residue ph l k s) := by
  have none' : (if who = .peer then none else consistPuts scratch l 1) = none := by simpa using consist
  simp only [serve, checks, none', effects]

/-- Writes carried out while no STANDBY has to acknowledge them. -/
theorem serve_done (checks : checkPuts who ph l 1 s = .ok scratch) (consist : who ≠ .peer → consistPuts scratch l 1 = none)
    (effects : applyPuts who reply ph l 1 s = .ok t) (alone : needsAck (settleTeams l t) = false) :
    serve who reply ph l s = if l.any Put.isLater then .later (settleTeams l t) else .now 0 0 (settleTeams l t) := by
  have none' : (if who = .peer then none else consistPuts scratch l 1) = none := by simpa using consist
  have unshared : ¬((settleTeams l t).pair.role = 1 ∧ batonUp (settleTeams l t) = true) := by simpa [needsAck] using alone
  simp only [serve, checks, none', effects, shareConfig, if_neg unshared]

/-- Plain writes that pass put all their values in force, and are answered at once. -/
theorem serve_plain (plain : ∀ q ∈ l, plainEntry q.index q.sub = true) (checks : checkPuts who ph l 1 s = .ok scratch)
    (consist : who ≠ .peer → consistPuts scratch l 1 = none) (alone : needsAck s = false) :
    ∃ t, serve who reply ph l s = .now 0 0 t ∧ LanesAlone (l.foldl putPlain s) t := by
  obtain ⟨t, effects, kept⟩ := applyPuts_plain (who := who) (reply := reply) (ph := ph) (s := s) (k := 1) plain
  have settled : settleTeams l t = t := settleTeams_plain plain
  refine ⟨t, ?_, kept⟩
  rw [serve_done checks consist effects (by rw [settled, kept.needsAck, needsAck_foldl_putPlain, alone]), any_isLater_of_plain plain, settled]
  rfl

/-! ### One write -/

theorem checkPuts_single_error (checks : writeChecks s who index sub v = .error e) :
    checkPuts who ph [{ index := index, sub := sub, value := v }] k s = .error (e, k) := by
  simp only [checkPuts, checks]

theorem checkPuts_single_ok (checks : writeChecks s who p.index p.sub p.value = .ok en) :
    checkPuts who ph [p] k s = .ok (asWritten ph p s) := by
  simp only [checkPuts, checks]

theorem consistPuts_single (consist : consistent scratch p.index p.sub = true) : consistPuts scratch [p] k = none := by
  simp only [consistPuts, consist, if_true]

theorem consistPuts_single_conflict (conflict : consistent scratch p.index p.sub = false) : consistPuts scratch [p] k = some k := by
  simp only [consistPuts, conflict, Bool.false_eq_true, if_false]

/-- What `writePasses` says. -/
theorem writePasses_iff : writePasses s who index sub v = true ↔
    (∃ en, writeChecks s who index sub v = .ok en) ∧ consistent (store index sub v s) index sub = true := by
  unfold writePasses
  split
  next en checks => simp [checks]
  next e checks => simp [checks]

theorem execEntryWrite_served (own : ownBehaviour index sub = false) :
    exec (.entryWrite who index sub v) s = .next (putEntry who index sub v s) := by
  show execEntryWrite who index sub v s = _
  simp only [execEntryWrite, own, Bool.false_eq_true, if_false]

/-- A write whose status is found at once is answered. -/
theorem putEntryWith_now (served : serve who (.record who index sub) ph [{ index := index, sub := sub, value := v }] s = .now e k t) :
    putEntryWith ph who index sub v s = send (.answer who index sub e) t := by
  simp only [putEntryWith, served]

theorem putEntryWith_later (served : serve who (.record who index sub) ph [{ index := index, sub := sub, value := v }] s = .later t) :
    putEntryWith ph who index sub v s = t := by
  simp only [putEntryWith, served]

/-- Check 8 is made of plain entries alone, beside those with a behaviour of their own. -/
theorem plainEntry_of_conflict (own : ownBehaviour index sub = false) (conflict : consistent s index sub = false) :
    plainEntry index sub = true := by
  by_contra notPlain
  have trims : index = 0x2200 ∨ familyOf index = 0x4022 ∨ (familyOf index = 0x40C1 ∧ sub = 3) ∨ (familyOf index = 0x40C2 ∧ sub ≤ 3) ∨
      familyOf index = 0x40C3 ∨ familyOf index = 0x40C4 := by
    simp only [plainEntry, own, Bool.not_false, Bool.true_and, Bool.and_eq_true, Bool.not_eq_true', Bool.and_eq_false_iff,
      decide_eq_false_iff_not] at notPlain
    omega
  rw [Bool.eq_false_iff] at conflict
  apply conflict
  rcases trims with f | f | ⟨f, h⟩ | ⟨f, h⟩ | f | f
  · simp [consistent, f, familyOf]
  · simp [consistent, f]
  · simp [consistent, f]
  · have above : ¬(sub = 5 ∨ sub = 7) ∧ ¬(sub = 6 ∨ sub = 8) := by omega
    simp [consistent, f, above]
  · simp [consistent, f]
  · simp [consistent, f]

/-- Settles O17: the first check that fails ends the service before any effect; check 8 bears on plain entries alone, whose scratch
state holds the value written and no other change that a check reads. -/
theorem refusedWriteChangesNothing : Obligations.RefusedWriteChangesNothing := by
  unfold Obligations.RefusedWriteChangesNothing
  refine ⟨?refused, ?conflict⟩
  case refused =>
    intro who index sub e v s own checks
    rw [execEntryWrite_served own]
    exact congrArg _ (putEntryWith_now (serve_refused (checkPuts_single_error checks)))
  case conflict =>
    intro who index sub v en s own mine checks conflict
    have plain : plainEntry index sub = true := plainEntry_of_conflict own conflict
    have scratch : consistent (asWritten false { index := index, sub := sub, value := v } s) index sub = false :=
      (consistent_asWritten_plain (p := { index := index, sub := sub, value := v }) plain).trans conflict
    rw [execEntryWrite_served own]
    exact congrArg _ (putEntryWith_now (serve_inconsistent mine (checkPuts_single_ok checks) (consistPuts_single_conflict scratch)))

theorem ownBehaviour_of_plain (plain : plainEntry index sub = true) : ownBehaviour index sub = false := by
  simp only [plainEntry, Bool.and_eq_true, Bool.not_eq_true'] at plain
  exact plain.1.1.1.1.1

theorem changeOf_putPlain : changeOf (putPlain s p) p.index p.sub = (changeOf s p.index p.sub + 1) % 2 ^ 32 := changeOf_countChange

theorem changeOf_congr (chg : t.dict.chg = s.dict.chg) : changeOf t i j = changeOf s i j := by
  rw [changeOf, chg, changeOf]

theorem LanesAlone.changeOf (h : LanesAlone s t) : Machine.changeOf t i j = Machine.changeOf s i j :=
  changeOf_congr (by rw [h.dict])

theorem stored_send {x : Sent} : stored (send x s) i j = stored s i j := rfl

/-- What an accessor finds after a plain write that has been carried out. -/
theorem plainWrite_in_force (plain : plainEntry p.index p.sub = true) (low : p.sub < 256)
    (checks : writeChecks s who p.index p.sub p.value = .ok en)
    (consist : who ≠ .peer → consistent (store p.index p.sub p.value s) p.index p.sub = true) (alone : needsAck s = false) :
    ∃ t, exec (.entryWrite who p.index p.sub p.value) s = .next t ∧ stored t p.index p.sub = p.value ∧
      changeOf t p.index p.sub = (changeOf s p.index p.sub + 1) % 2 ^ 32 ∧ answered t who p.index p.sub 0 ∧
      ∀ i j : Nat, j < 256 → (i ≠ p.index ∨ j ≠ p.sub) → stored t i j = stored s i j := by
  have scratch : who ≠ .peer → consistPuts (asWritten false p s) [p] 1 = none := fun mine =>
    consistPuts_single ((consistent_asWritten_plain plain).trans (consist mine))
  obtain ⟨t, served, kept⟩ := serve_plain (reply := .record who p.index p.sub) (List.forall_mem_singleton.mpr plain)
    (checkPuts_single_ok checks) scratch alone
  rw [List.foldl_cons, List.foldl_nil] at kept
  refine ⟨send (.answer who p.index p.sub 0) t, ?_, ?_, kept.changeOf.trans changeOf_putPlain, rfl, ?_⟩
  · rw [execEntryWrite_served (ownBehaviour_of_plain plain)]
    exact congrArg _ (putEntryWith_now served)
  · rw [stored_send, kept.stored]
    exact stored_store_same
  · intro i j low' apart
    rw [stored_send, kept.stored]
    exact stored_store_of_ne (regKey_ne low low' apart)

/-- Settles O18: the effect of a plain write is its value stored and counted, whoever writes. -/
theorem acceptedWriteTakesForce : Obligations.AcceptedWriteTakesForce := by
  unfold Obligations.AcceptedWriteTakesForce
  refine ⟨?own, ?peer⟩
  case own =>
    intro who index sub v s plain passes alone _ low
    obtain ⟨⟨en, checks⟩, consist⟩ := writePasses_iff.mp passes
    exact plainWrite_in_force (p := ⟨index, sub, v⟩) plain low checks (fun _ => consist) alone
  case peer =>
    intro index sub v en s plain checks alone _ low
    obtain ⟨t, done, value, -, reply, others⟩ := plainWrite_in_force (p := ⟨index, sub, v⟩) plain low checks (fun mine => absurd rfl mine) alone
    exact ⟨t, done, value, reply, others⟩

end Sys2Proof.Machine
end

section
/-! PROOFS. The frames of a session: close, read, write, batch, event acknowledgement (R94, R95, R101 to R103), and the resending of
events (R136). -/

namespace Sys2Proof.Machine

variable {s t : State} {p : PortId} {own addr : Bytes} {uport seq index sub : Nat} {slot : Fin 8} {x y : Session} {d : Datagram}

/-! ### Answers after a frame has been taken -/

theorem lanes_answerIn {ty status : Nat} {body : Bytes} : (answerIn slot x d ty seq status body s).lanes = s.lanes := by
  unfold answerIn respond
  split
  · split <;> rfl
  · rfl

theorem reg_answerIn {ty status : Nat} {body : Bytes} : (answerIn slot x d ty seq status body s).dict.reg = s.dict.reg := by
  obtain ⟨v, same, -⟩ := dict_answerIn (slot := slot) (x := x) (d := d) (ty := ty) (seq := seq) (status := status) (body := body) (s := s)
  rw [same]

theorem stored_answerIn {ty status i j : Nat} {body : Bytes} : stored (answerIn slot x d ty seq status body s) i j = stored s i j :=
  stored_congr reg_answerIn (fun m => by unfold laneAt; rw [lanes_answerIn]) i j

/-- The answer to a frame that a session has taken goes where the frame came from, under the session's key. -/
theorem sent_answerIn_heard {highest ty status : Nat} {data body : Bytes}
    (open' : t.dict.sessions = (heard s p own addr uport slot x highest).dict.sessions) :
    (answerIn slot (heardSession s p own addr uport x highest) (gram p own addr uport data) ty seq status body t).sent =
      .kyeri p own addr uport (sessionFrame x (ty + 0x80) seq status body) :: t.sent := by
  refine sent_answerIn fun z stands _ => ?_
  rw [open', sessions_heard] at stands
  cases stands
  rfl

theorem changeOf_heard : changeOf (heard s p own addr uport slot x seq) index sub = changeOf s index sub := rfl

/-! ### CLOSE (R102) -/

theorem exec_close : exec (.close d) s = execClose d s := rfl

theorem execClose_heard (at' : own ∈ ownAddresses s p) {body : Bytes} (taken : hears s p slot x seq body = true) :
    execClose (gram p own addr uport (sessionFrame x 3 seq 0 body)) s =
      .next (closeSession slot (answerIn slot (heardSession s p own addr uport x seq) (gram p own addr uport (sessionFrame x 3 seq 0 body))
        3 seq 0 [] (heard s p own addr uport slot x seq))) := by
  obtain ⟨-, -, -, -, fits⟩ := hears_iff.mp taken
  exact congrArg _ (receive_sessionFrame at' taken (by decide) fits)

/-- A session that has answered under its number is closed by that number. -/
theorem dict_closeSession_answerIn {ty status : Nat} {body : Bytes} (stands : s.dict.sessions[slot] = some y) (number : y.number = x.number) :
    (closeSession slot (answerIn slot y d ty seq status body s)).dict.sessions[slot] = none ∧
    (closeSession slot (answerIn slot y d ty seq status body s)).dict.held =
      s.dict.held.filter (fun h => decide (h.owner ≠ .session x.number)) ∧
    (closeSession slot (answerIn slot y d ty seq status body s)).dict.eventWaits =
      s.dict.eventWaits.filter (fun w => decide (w.slot ≠ slot.val)) := by
  obtain ⟨v, same, numbers⟩ := dict_answerIn (slot := slot) (x := y) (d := d) (ty := ty) (seq := seq) (status := status) (body := body) (s := s)
  obtain ⟨z, still, zNumber⟩ : ∃ z, v[slot] = some z ∧ z.number = y.number := by
    simpa [stands] using numbers slot
  have here : (answerIn slot y d ty seq status body s).dict.sessions[slot] = some z := by rw [same]; exact still
  rw [dict_closeSession here, same, zNumber, number]
  exact ⟨by simp, rfl, rfl⟩

/-! ### KYERI_READ (R103) -/

/-- The body of a READ from the start of a value. -/
def readBody (index sub len : Nat) : Bytes := toLE 2 index ++ [byte sub, 0] ++ toLE 4 0 ++ toLE 2 len

theorem exec_kyeriRead : exec (.kyeriRead d) s = execKyeriRead d s := rfl

/-- A value read whole from its start. -/
theorem readSegment_whole {who : Who} {v : Bytes} {len limit : Nat} (access : readAccess s who index sub = .ok v)
    (some' : 0 < v.length) (covers : v.length ≤ min len limit) : readSegment s who index sub 0 len limit = .ok (v.length, v) := by
  have inside : ¬(v.length ≤ 0 ∧ (!(decide (0 = 0) && decide (v.length = 0))) = true) := by omega
  unfold readSegment
  rw [access]
  dsimp only
  rw [if_neg inside, slice_all covers]

theorem readAnswer_readBody {who : Who} {v : Bytes} (access : readAccess s who index sub = .ok v) (hindex : index < 65536) (hsub : sub < 256)
    (some' : 0 < v.length) (fits : v.length ≤ 1180) :
    readAnswer s who (readBody index sub v.length) = (0, toLE 4 v.length ++ toLE 4 (changeOf s index sub) ++ v) := by
  have index_eq : field (readBody index sub v.length) 0 2 = index := fromLE_toLE_of_lt (n := 2) hindex
  have sub_eq : field (readBody index sub v.length) 2 1 = sub := fromLE_toLE_of_lt (n := 1) hsub
  have off_eq : field (readBody index sub v.length) 4 4 = 0 := rfl
  have len_eq : field (readBody index sub v.length) 8 2 = v.length := fromLE_toLE_of_lt (n := 2) (by omega)
  have size : ¬(readBody index sub v.length).length ≠ 10 := not_not.mpr rfl
  simp only [readAnswer, if_neg size, index_eq, sub_eq, off_eq, len_eq,
    readSegment_whole access some' (le_min le_rfl fits)]

theorem execKyeriRead_heard (at' : own ∈ ownAddresses s p) {len : Nat} (taken : hears s p slot x seq [] = true) :
    execKyeriRead (gram p own addr uport (sessionFrame x 0x10 seq 0 (readBody index sub len))) s =
      .next (answerIn slot (heardSession s p own addr uport x seq) (gram p own addr uport (sessionFrame x 0x10 seq 0 (readBody index sub len)))
        0x10 seq (readAnswer (heard s p own addr uport slot x seq) (.session slot) (readBody index sub len)).1
        (readAnswer (heard s p own addr uport slot x seq) (.session slot) (readBody index sub len)).2
        (heard s p own addr uport slot x seq)) := by
  have fits : (readBody index sub len).length ≤ 1200 := by simp [readBody]
  exact congrArg _ (receive_sessionFrame at' taken (by decide) fits)

/-! ### EVENT_ACK and EVENT_RESEND (R136) -/

theorem exec_eventAck : exec (.eventAck d) s = execEventAck d s := rfl

theorem execEventAck_heard (at' : own ∈ ownAddresses s p) {k : Nat} (taken : hears s p slot x seq [] = true) (fits : k < 2 ^ 32) :
    ∃ t, execEventAck (gram p own addr uport (sessionFrame x 0x21 seq 0 (toLE 4 k))) s = .next t ∧
      t.dict.eventWaits = s.dict.eventWaits.filter (fun w => !decide (w.slot = slot.val ∧ w.seq = k)) := by
  have seq_eq : field (toLE 4 k) 0 4 = k := fromLE_toLE_of_lt (n := 4) fits
  have size : (toLE 4 k).length ≤ 1200 := by rw [length_toLE]; decide
  refine ⟨_, congrArg Host.Outcome.next (receive_sessionFrame at' taken (by decide) size), ?_⟩
  simp only [sessionKFrame, seq_eq]
  rfl

theorem exec_eventResend : exec (.eventResend slot) s = execEventResend slot s := rfl

/-- The one event that waits, when it is due. -/
theorem execEventResend_one {w : EventWait} (only : s.dict.eventWaits = [w]) (mine : w.slot = slot.val)
    (due : passed s w.tick (msTicks 500) = true) : execEventResend slot s = .next (resendEvent slot w s) := by
  simp only [execEventResend, only, List.filter_cons, mine, due, decide_true, Bool.and_self, if_true, List.filter_nil, List.foldl_cons,
    List.foldl_nil]

/-- The events that wait beside one that stands alone. -/
theorem eventWaits_without {w : EventWait} (only : s.dict.eventWaits = [w]) :
    s.dict.eventWaits.filter (fun q => !decide (q.slot = w.slot ∧ q.seq = w.seq)) = [] := by
  simp [only]

theorem resendEvent_again {w : EventWait} (stands : s.dict.sessions[slot] = some x) (only : s.dict.eventWaits = [w]) (few : w.sends < 5) :
    (resendEvent slot w s).dict.eventWaits = [{ w with sends := w.sends + 1, tick := s.ticks }] ∧
    (resendEvent slot w s).sent.head? = some (.kyeri x.port x.own x.addr x.uport (
      kyeriHeader 0x20 x.number (x.txSeq + 1) 0 w.body ++ kyeriTag x.key (kyeriHeader 0x20 x.number (x.txSeq + 1) 0 w.body))) := by
  simp only [resendEvent, stands, if_neg (Nat.not_le.mpr few), eventWaits_without only]
  exact ⟨rfl, rfl⟩

theorem resendEvent_missed {w : EventWait} (only : s.dict.eventWaits = [w]) (many : 5 ≤ w.sends) :
    (resendEvent slot w s).dict.eventWaits = [] ∧ (resendEvent slot w s).sent = s.sent := by
  unfold resendEvent
  rw [eventWaits_without only]
  dsimp only
  split
  · exact ⟨rfl, rfl⟩
  · rw [if_pos many]
    exact ⟨rfl, rfl⟩

/-! ### KYERI_WRITE (R95) -/

/-- The body of a WRITE that holds a whole value in one segment. -/
def writeBody (index sub : Nat) (v : Bytes) : Bytes := toLE 2 index ++ [byte sub, 1] ++ toLE 4 0 ++ toLE 4 v.length ++ v

theorem exec_kyeriWrite : exec (.kyeriWrite d) s = execKyeriWrite d s := rfl

/-- Where no segments are held of a value, none are discarded. -/
theorem dropHeld_of_none {o : Owner} (fresh : heldOf s o index sub = none) : dropHeld o index sub s = s := by
  have kept : s.dict.held.filter (fun h => !decide (h.owner = o ∧ h.index = index ∧ h.sub = sub)) = s.dict.held := by
    rw [List.filter_eq_self]
    intro h mem
    rw [Bool.not_eq_true', ← Bool.not_eq_true]
    exact List.find?_eq_none.mp fresh h mem
  simp only [dropHeld, kept]

/-- A value in one segment is taken whole. -/
theorem takeSegment_whole {o : Owner} {v : Bytes} (fresh : heldOf s o index sub = none) :
    takeSegment o index sub 0 v.length true v s = .ok (v, s) := by
  simp only [takeSegment, fresh, dropHeld_of_none fresh, Option.map_none, Option.getD_none, if_true, List.nil_append]
  exact if_neg (by simp)

/-- Checks 1 to 7 hold checks 1 to 4. -/
theorem accessChecks_of_writeChecks {who : Who} {v : Bytes} {en : Entry} (checks : writeChecks s who index sub v = .ok en) :
    ∃ en, accessChecks s who index sub = .ok en := by
  unfold writeChecks at checks
  split at checks
  · cases checks
  next e access => exact ⟨e, access⟩

theorem writeSegment_whole {who : Who} {o : Owner} {v : Bytes} {en : Entry} (checks : writeChecks s who index sub v = .ok en)
    (fresh : heldOf s o index sub = none) : writeSegment who o index sub 0 v.length true v s = .ok (v, s) := by
  obtain ⟨e, access⟩ := accessChecks_of_writeChecks checks
  simp only [writeSegment, access, takeSegment_whole fresh]

/-- Plain writes ask nothing of the peer. -/
theorem serveDrawn_plain {who : Who} {reply : Reply} {l : List Put} (plain : ∀ q ∈ l, plainEntry q.index q.sub = true) :
    serveDrawn who reply l s = serve who reply false l s := by
  have none' : l.any (fun q => decide (q.index = 0x2620) && decide (q.sub = 1)) = false := by
    refine List.any_eq_false.mpr fun q mem activate => ?_
    simp only [Bool.and_eq_true, decide_eq_true_eq] at activate
    exact not_of_plainEntry (plain q mem) (fun _ => by simp [plainEntry, ownBehaviour, familyOf, activate]) trivial
  simp only [serveDrawn, peerAnswer, none', Bool.false_eq_true, if_false]

/-- A WRITE in one segment that a session has sent. -/
theorem execKyeriWrite_heard (at' : own ∈ ownAddresses s p) {v : Bytes} {en : Entry}
    (taken : hears s p slot x seq (List.replicate 12 0 ++ v) = true) (hindex : index < 65536) (hsub : sub < 256)
    (fresh : heldOf s (.session x.number) index sub = none)
    (checks : writeChecks (heard s p own addr uport slot x seq) (.session slot) index sub v = .ok en) {reached : State}
    (served : serveDrawn (.session slot)
      (.frame slot x.number 0x11 seq (gram p own addr uport (sessionFrame x 0x11 seq 0 (writeBody index sub v))) 0)
      [{ index := index, sub := sub, value := v }] (heard s p own addr uport slot x seq) = .now 0 0 reached) :
    execKyeriWrite (gram p own addr uport (sessionFrame x 0x11 seq 0 (writeBody index sub v))) s =
      .next (answerIn slot (heardSession s p own addr uport x seq)
        (gram p own addr uport (sessionFrame x 0x11 seq 0 (writeBody index sub v))) 0x11 seq 0 [] reached) := by
  obtain ⟨-, -, -, -, fits⟩ := hears_iff.mp taken
  rw [List.length_append, List.length_replicate] at fits
  have size : (writeBody index sub v).length = 12 + v.length := by simp [writeBody]; omega
  have long : ¬(writeBody index sub v).length < 12 := by omega
  have index_eq : field (writeBody index sub v) 0 2 = index := fromLE_toLE_of_lt (n := 2) hindex
  have sub_eq : field (writeBody index sub v) 2 1 = sub := fromLE_toLE_of_lt (n := 1) hsub
  have off_eq : field (writeBody index sub v) 4 4 = 0 := rfl
  have total_eq : field (writeBody index sub v) 8 4 = v.length := fromLE_toLE_of_lt (n := 4) (by omega)
  have last_eq : bit (field (writeBody index sub v) 3 1) 0 = true := by
    have flags : field (writeBody index sub v) 3 1 = 1 := rfl
    rw [flags]
    rfl
  have data_eq : (writeBody index sub v).drop 12 = v := rfl
  have whole := writeSegment_whole (o := .session x.number) checks fresh
  refine congrArg _ ((receive_sessionFrame at' taken (by decide) (by omega)).trans ?_)
  simp only [sessionKFrame, heardSession, index_eq, sub_eq, off_eq, total_eq, last_eq, data_eq, if_neg long, whole, served]

/-! ### BATCH (R94, R102) -/

/-- The body of a BATCH of a count of writes. -/
def batchBody (count : Nat) (b : Bytes) : Bytes := [byte count, 0, 0, 0] ++ b

theorem exec_batch : exec (.batch d) s = execBatch d s := rfl

theorem field_batchBody {count : Nat} {b : Bytes} (fits : count < 256) : field (batchBody count b) 0 1 = count :=
  fromLE_toLE_of_lt (n := 1) fits

theorem drop_batchBody {count : Nat} {b : Bytes} : (batchBody count b).drop 4 = b := rfl

theorem length_batchBody {count : Nat} {b : Bytes} : (batchBody count b).length = ([0, 0, 0, 0] ++ b : Bytes).length := rfl

/-- A BATCH whose writes cannot be told apart is refused before any of them. -/
theorem execBatch_malformed (at' : own ∈ ownAddresses s p) {b : Bytes} {count k : Nat}
    (taken : hears s p slot x seq ([0, 0, 0, 0] ++ b) = true) (hcount : count < 256) (puts : batchPuts count b = .error k) :
    execBatch (gram p own addr uport (sessionFrame x 0x12 seq 0 (batchBody count b))) s =
      .next (answerIn slot (heardSession s p own addr uport x seq) (gram p own addr uport (sessionFrame x 0x12 seq 0 (batchBody count b)))
        0x12 seq 0x0302 (toLE 1 k) (heard s p own addr uport slot x seq)) := by
  obtain ⟨-, -, -, -, fits⟩ := hears_iff.mp taken
  refine congrArg Host.Outcome.next ((receive_sessionFrame at' taken (by decide) (length_batchBody.trans_le fits)).trans ?_)
  simp only [sessionKFrame, field_batchBody hcount, drop_batchBody, puts]

/-- A BATCH whose status is found at once is answered. -/
theorem execBatch_now (at' : own ∈ ownAddresses s p) {b : Bytes} {count e k : Nat} {l : List Put} {reached : State}
    (taken : hears s p slot x seq ([0, 0, 0, 0] ++ b) = true) (hcount : count < 256) (puts : batchPuts count b = .ok l)
    (served : serveDrawn (.session slot)
      (.frame slot x.number 0x12 seq (gram p own addr uport (sessionFrame x 0x12 seq 0 (batchBody count b))) 1) l
      (heard s p own addr uport slot x seq) = .now e k reached) :
    execBatch (gram p own addr uport (sessionFrame x 0x12 seq 0 (batchBody count b))) s =
      .next (answerIn slot (heardSession s p own addr uport x seq) (gram p own addr uport (sessionFrame x 0x12 seq 0 (batchBody count b)))
        0x12 seq e (toLE 1 k) reached) := by
  obtain ⟨-, -, -, -, fits⟩ := hears_iff.mp taken
  refine congrArg Host.Outcome.next ((receive_sessionFrame at' taken (by decide) (length_batchBody.trans_le fits)).trans ?_)
  simp only [sessionKFrame, heardSession, field_batchBody hcount, drop_batchBody, puts, served]

theorem batchPuts_badCount {count : Nat} {b : Bytes} (bad : count = 0 ∨ 32 < count) : batchPuts count b = .error 0 := if_pos bad

theorem needsAck_heard : needsAck (heard s p own addr uport slot x seq) = needsAck s := rfl

/-- Plain writes leave the sessions open. -/
theorem LanesAlone.sessions {l : List Put} (h : LanesAlone (l.foldl putPlain s) t) : t.dict.sessions = s.dict.sessions := by
  rw [h.dict, sessions_foldl_putPlain]

/-- Settles O16, frame by frame: each is taken by its session, and the answer goes out under that session's key. -/
theorem sessionFramesAndWrites : Obligations.SessionFramesAndWrites := by
  simp only [Obligations.SessionFramesAndWrites, exec_close, exec_kyeriRead, exec_eventAck, exec_eventResend, exec_kyeriWrite, exec_batch]
  refine ⟨?close, ?read, ?ack, ?again, ?missed, ?write, ?batch, ?badCount, ?failing⟩
  case close =>
    intro p own addr body uport seq slot x s at' taken
    obtain ⟨gone, held, waits⟩ := dict_closeSession_answerIn (d := gram p own addr uport (sessionFrame x 3 seq 0 body)) (ty := 3) (seq := seq)
      (status := 0) (body := []) (sessions_heard (s := s) (p := p) (own := own) (addr := addr) (uport := uport) (slot := slot) (x := x)
        (seq := seq)) (x := x) rfl
    refine ⟨_, execClose_heard at' taken, gone, held, waits, ?_⟩
    rw [sent_closeSession, sent_answerIn_heard rfl, List.head?_cons]
  case read =>
    intro p own addr v uport seq index sub slot x s at' taken hindex hsub some' fits access
    have answer := readAnswer_readBody access hindex hsub some' fits
    refine ⟨_, execKyeriRead_heard at' taken, ?_, reg_answerIn⟩
    rw [answer, sent_answerIn_heard rfl, List.head?_cons, changeOf_heard]
  case ack => exact fun p own addr uport seq k slot x s at' taken fits => execEventAck_heard at' taken fits
  case again =>
    intro slot x w s stands only mine due few
    exact ⟨_, execEventResend_one only mine due, resendEvent_again stands only few⟩
  case missed =>
    intro slot w s only mine due many
    exact ⟨_, execEventResend_one only mine due, resendEvent_missed only many⟩
  case write =>
    intro p own addr v uport seq index sub slot x s at' taken hindex hsub plain fresh alone passes
    obtain ⟨⟨en, checks⟩, consist⟩ := writePasses_iff.mp passes
    have allPlain : ∀ q ∈ [Put.mk index sub v], plainEntry q.index q.sub = true := List.forall_mem_singleton.mpr plain
    have consist' := consistPuts_single (k := 1) ((consistent_asWritten_plain (ph := false) (p := ⟨index, sub, v⟩) plain).trans consist)
    obtain ⟨t, served, kept⟩ := serve_plain allPlain (checkPuts_single_ok checks) (fun _ => consist') (needsAck_heard.trans alone)
    refine ⟨_, execKyeriWrite_heard at' taken hindex hsub fresh checks ((serveDrawn_plain allPlain).trans served), ?_, ?_⟩
    · rw [stored_answerIn, kept.stored]
      exact stored_store_same
    · rw [sent_answerIn_heard kept.sessions, List.head?_cons]
  case batch =>
    intro p own addr b uport seq l scratch slot x s at' taken alone hcount puts plain different checks consist
    obtain ⟨t, served, kept⟩ := serve_plain plain checks (fun _ => consist) (needsAck_heard.trans alone)
    refine ⟨_, execBatch_now at' taken hcount puts ((serveDrawn_plain plain).trans served), fun q mem => ?_, ?_⟩
    · rw [stored_answerIn, kept.stored]
      exact stored_foldl_putPlain different mem
    · rw [sent_answerIn_heard kept.sessions, List.head?_cons]
      rfl
  case badCount =>
    intro p own addr b uport seq k slot x s at' taken hcount bad
    refine ⟨_, execBatch_malformed at' taken hcount (batchPuts_badCount bad), reg_answerIn, ?_⟩
    rw [sent_answerIn_heard rfl, List.head?_cons]
    rfl
  case failing =>
    intro p own addr b uport seq e k l slot x s at' taken hcount puts plain checks
    refine ⟨_, execBatch_now at' taken hcount puts ((serveDrawn_plain plain).trans (serve_refused checks)), reg_answerIn, ?_⟩
    rw [sent_answerIn_heard rfl, List.head?_cons]

end Sys2Proof.Machine
end

section
/-! PROOFS. Key slots and roles (R138, R139): a new key, or the role 0, closes every session of the slot. -/

namespace Sys2Proof.Machine

variable {s t : State} {k e : Nat} {v : Bytes} {p : Put} {who : Who} {reply : Reply} {ph : Bool} {en : Entry}

/-! ### A single write with an effect of its own -/

theorem serve_effect (checks : writeChecks s who p.index p.sub p.value = .ok en)
    (consist : consistent (asWritten ph p s) p.index p.sub = true) (effect : applyWrite (reply.atPos 1) ph p s = .ok t)
    (now : p.isLater = false) (alone : needsAck (settleTeams [p] (countChange p.index p.sub t)) = false) :
    serve who reply ph [p] s = .now 0 0 (settleTeams [p] (countChange p.index p.sub t)) := by
  have effects : applyPuts who reply ph [p] 1 s = .ok (countChange p.index p.sub t) := by
    simp only [applyPuts, List.any_nil, Bool.false_eq_true, if_false, effect, now]
  rw [serve_done (checkPuts_single_ok checks) (fun _ => consistPuts_single consist) effects alone]
  simp only [List.any_cons, now, List.any_nil, Bool.or_self, Bool.false_eq_true, if_false]

theorem serve_effect_denied (checks : writeChecks s who p.index p.sub p.value = .ok en)
    (consist : consistent (asWritten ph p s) p.index p.sub = true) (effect : applyWrite (reply.atPos 1) ph p s = .error e) :
    serve who reply ph [p] s = .now e 1 (residue ph [p] 1 s) := by
  have effects : applyPuts who reply ph [p] 1 s = .error (e, 1) := by
    simp only [applyPuts, List.any_nil, Bool.false_eq_true, if_false, effect]
  exact serve_denied (checkPuts_single_ok checks) (fun _ => consistPuts_single consist) effects

/-- A write whose status is due later, its effect begun. -/
theorem serve_effect_later (checks : writeChecks s who p.index p.sub p.value = .ok en)
    (consist : consistent (asWritten ph p s) p.index p.sub = true) (effect : applyWrite (reply.atPos 1) ph p s = .ok t)
    (later : p.isLater = true) (alone : needsAck (settleTeams [p] t) = false) :
    serve who reply ph [p] s = .later (settleTeams [p] t) := by
  have effects : applyPuts who reply ph [p] 1 s = .ok t := by
    simp only [applyPuts, List.any_nil, Bool.false_eq_true, if_false, effect, later, if_true]
  rw [serve_done (checkPuts_single_ok checks) (fun _ => consistPuts_single consist) effects alone]
  simp only [List.any_cons, later, Bool.true_or, if_true]

/-- A write alone, neither of members nor a restore, leaves the teams as they are. -/
theorem settleTeams_single (members : familyOf p.index ≠ 0x3000) (restore : p.index ≠ 0x2000) : settleTeams [p] s = s := by
  simp [settleTeams, members, restore]

/-! ### Sessions closed by their key -/

/-- A session of a key, when there is one in the slot. -/
def heldBy (k : Nat) (x : Option Session) : Bool := x.any (fun y => decide (y.slot = k))

/-- The session in a slot closed where it was opened with a key. -/
def closeIfHeldBy (k : Nat) (s : State) (i : Fin 8) : State := if heldBy k s.dict.sessions[i] then closeSession i s else s

theorem closeKey_eq : closeKey k s = allSlots.foldl (closeIfHeldBy k) s := rfl

@[simp] theorem heldBy_none : heldBy k none = false := rfl

theorem sessions_closeSession {i j : Fin 8} {x : Session} (stands : s.dict.sessions[i] = some x) :
    (closeSession i s).dict.sessions[j] = if i = j then none else s.dict.sessions[j] :=
  (congrArg (fun d : Dict => d.sessions[j]) (dict_closeSession stands)).trans getElem_set_slot

theorem sessions_closeIfHeldBy {i j : Fin 8} : (closeIfHeldBy k s i).dict.sessions[j] =
    if i = j ∧ heldBy k s.dict.sessions[j] then none else s.dict.sessions[j] := by
  unfold closeIfHeldBy
  split
  next held =>
    obtain ⟨x, stands⟩ : ∃ x, s.dict.sessions[i] = some x := by
      cases stands : s.dict.sessions[i] with
      | none => rw [stands] at held; cases held
      | some x => exact ⟨x, rfl⟩
    rw [sessions_closeSession stands]
    by_cases own : i = j
    · subst own
      rw [if_pos rfl, if_pos ⟨rfl, held⟩]
    · rw [if_neg own, if_neg fun h => own h.1]
  next free =>
    refine (if_neg ?_).symm
    rintro ⟨rfl, held⟩
    exact free held

theorem sessions_foldl_closeIfHeldBy {j : Fin 8} (l : List (Fin 8)) : (l.foldl (closeIfHeldBy k) s).dict.sessions[j] =
    if j ∈ l ∧ heldBy k s.dict.sessions[j] then none else s.dict.sessions[j] := by
  induction l generalizing s with
  | nil => exact (if_neg fun h => List.not_mem_nil h.1).symm
  | cons i l ih =>
    rw [List.foldl_cons, ih, sessions_closeIfHeldBy]
    generalize s.dict.sessions[j] = x
    by_cases held : heldBy k x = true
    · by_cases own : i = j
      · simp [own, held]
      · simp [own, held, Ne.symm own]
    · simp [held]

/-- After a key's sessions are closed no slot holds one, and the others stand. -/
theorem sessions_closeKey {j : Fin 8} : (closeKey k s).dict.sessions[j] =
    if heldBy k s.dict.sessions[j] then none else s.dict.sessions[j] := by
  rw [closeKey_eq, sessions_foldl_closeIfHeldBy]
  simp [mem_allSlots]

theorem keeps_closeKey_dict : Keeps [.dict] s (closeKey k s) := keeps_closeKey (List.Subset.refl _) (.refl _ s)

@[simp] theorem keys_closeKey : (closeKey k s).dict.keys = s.dict.keys := keeps_closeKey_dict.frame .keys (by decide)

@[simp] theorem needsAck_closeKey : needsAck (closeKey k s) = needsAck s := by
  have pair : (closeKey k s).pair = s.pair := keeps_closeKey_dict.frame .pair (by decide)
  simp only [needsAck, batonUp, pair]

@[simp] theorem needsAck_countChange {i j : Nat} : needsAck (countChange i j s) = needsAck s := rfl

@[simp] theorem needsAck_store {i j : Nat} : needsAck (store i j v s) = needsAck s := rfl

@[simp] theorem needsAck_putKey {j : Nat} : needsAck (putKey j v s) = needsAck s := rfl

theorem keys_putKey {n : Fin 8} : (putKey (n.val + 1) v s).dict.keys[n] = if v.isEmpty then none else some v := by
  have place : Fin.ofNat 8 (n.val + 1 - 1) = n := by
    rw [Nat.add_sub_cancel]
    exact Fin.ofNat_val_eq_self n
  exact getElem_set_slot.trans (if_pos place)

/-! ### Writes of key slots and roles -/

theorem consistent_key {j : Nat} : consistent s 0x1110 j = true := by simp [consistent, familyOf]

theorem consistent_role {j : Nat} : consistent s 0x1111 j = true := by simp [consistent, familyOf]

theorem exec_keySlotWrite {n : Fin 8} : exec (.keySlotWrite who n v) s = .next (putEntry who 0x1110 (n.val + 1) v s) := rfl

theorem exec_keyRoleWrite {n : Fin 8} : exec (.keyRoleWrite who n v) s = .next (putEntry who 0x1111 (n.val + 1) v s) := rfl

/-- The state after a key or a role has been written, before it is counted: no session of the slot is open, and the others stand. -/
structure SlotClosed (n : Fin 8) (s t : State) : Prop where
  gone : ∀ i : Fin 8, heldBy n.val t.dict.sessions[i] = false
  kept : ∀ i : Fin 8, heldBy n.val s.dict.sessions[i] = false → t.dict.sessions[i] = s.dict.sessions[i]

theorem slotClosed_closeKey {n : Fin 8} : SlotClosed n s (closeKey n.val s) := by
  refine ⟨fun i => ?_, fun i other => ?_⟩
  · rw [sessions_closeKey]
    split
    next => rfl
    next other => exact Bool.eq_false_iff.mpr other
  · rw [sessions_closeKey, if_neg (Bool.eq_false_iff.mp other)]

theorem applyWrite_key {j : Nat} : applyWrite reply ph ⟨0x1110, j, v⟩ s = .ok (closeKey (j - 1) (putKey j v s)) := by
  simp [applyWrite, applyUnit, familyOf]

theorem applyWrite_role {j : Nat} : applyWrite reply ph ⟨0x1111, j, v⟩ s = .ok (if fromLE v = 0 then
    closeKey (j - 1) (putKey j [] (store 0x1111 j v s)) else store 0x1111 j v s) := by
  simp [applyWrite, applyUnit, familyOf]

theorem putEntry_key {n : Fin 8} (passes : writePasses s who 0x1110 (n.val + 1) v = true) (alone : needsAck s = false) :
    putEntry who 0x1110 (n.val + 1) v s =
      send (.answer who 0x1110 (n.val + 1) 0) (countChange 0x1110 (n.val + 1) (closeKey n.val (putKey (n.val + 1) v s))) := by
  obtain ⟨⟨en, checks⟩, -⟩ := writePasses_iff.mp passes
  have settled {a : State} : settleTeams [⟨0x1110, n.val + 1, v⟩] a = a := settleTeams_single (by simp [familyOf]) (by simp)
  have alone' : needsAck (countChange 0x1110 (n.val + 1) (closeKey n.val (putKey (n.val + 1) v s))) = false := by
    simp only [needsAck_countChange, needsAck_closeKey, needsAck_putKey, alone]
  have served := serve_effect (reply := .record who 0x1110 (n.val + 1)) (ph := false) (p := ⟨0x1110, n.val + 1, v⟩) checks consistent_key
    applyWrite_key (by simp [Put.isLater]) (by rw [settled]; exact alone')
  rw [settled] at served
  exact putEntryWith_now served

theorem putEntry_role {n : Fin 8} (passes : writePasses s who 0x1111 (n.val + 1) v = true) (alone : needsAck s = false) :
    putEntry who 0x1111 (n.val + 1) v s = send (.answer who 0x1111 (n.val + 1) 0) (countChange 0x1111 (n.val + 1) (if fromLE v = 0 then
      closeKey n.val (putKey (n.val + 1) [] (store 0x1111 (n.val + 1) v s)) else store 0x1111 (n.val + 1) v s)) := by
  obtain ⟨⟨en, checks⟩, -⟩ := writePasses_iff.mp passes
  have settled {a : State} : settleTeams [⟨0x1111, n.val + 1, v⟩] a = a := settleTeams_single (by simp [familyOf]) (by simp)
  have alone' : needsAck (countChange 0x1111 (n.val + 1) (if fromLE v = 0 then
      closeKey n.val (putKey (n.val + 1) [] (store 0x1111 (n.val + 1) v s)) else store 0x1111 (n.val + 1) v s)) = false := by
    rw [needsAck_countChange]
    split
    · simp only [needsAck_closeKey, needsAck_putKey, needsAck_store, alone]
    · simp only [needsAck_store, alone]
  have served := serve_effect (reply := .record who 0x1111 (n.val + 1)) (ph := false) (p := ⟨0x1111, n.val + 1, v⟩) checks consistent_role
    applyWrite_role (by simp [Put.isLater]) (by rw [settled]; exact alone')
  rw [settled] at served
  exact putEntryWith_now served

/-- Settles O20: the effect of a key, or of the role 0, closes the sessions of its slot one by one, and no other. -/
theorem keySlotsAndRoles : Obligations.KeySlotsAndRoles := by
  simp only [Obligations.KeySlotsAndRoles, exec_keySlotWrite, exec_keyRoleWrite]
  refine ⟨?key, ?empty, ?role⟩
  case key =>
    intro who n v s passes alone some'
    have closed : SlotClosed n (putKey (n.val + 1) v s) (closeKey n.val (putKey (n.val + 1) v s)) := slotClosed_closeKey
    have key : (closeKey n.val (putKey (n.val + 1) v s)).dict.keys[n] = some v := by
      rw [keys_closeKey, keys_putKey, if_neg (by simpa using some')]
    rw [putEntry_key passes alone]
    generalize closeKey n.val (putKey (n.val + 1) v s) = a at closed key
    exact ⟨_, rfl, key, rfl, closed.gone, closed.kept⟩
  case empty =>
    intro who n s passes alone
    have closed := slotClosed_closeKey (n := n) (s := putKey (n.val + 1) [] (store 0x1111 (n.val + 1) [0] s))
    have key : (closeKey n.val (putKey (n.val + 1) [] (store 0x1111 (n.val + 1) [0] s))).dict.keys[n] = none := by
      rw [keys_closeKey, keys_putKey]
      rfl
    have role : fromLE [0] = 0 := rfl
    rw [putEntry_role passes alone, if_pos role]
    generalize closeKey n.val (putKey (n.val + 1) [] (store 0x1111 (n.val + 1) [0] s)) = a at closed key
    exact ⟨_, rfl, key, rfl, closed.gone, closed.kept⟩
  case role =>
    intro who n v s passes alone other
    rw [putEntry_role passes alone, if_neg other]
    exact ⟨_, rfl, rfl, rfl, stored_store_same⟩

end Sys2Proof.Machine
end

section
/-! PROOFS. Saves and factory defaults (R120, R121, R125). -/

namespace Sys2Proof.Machine

variable {s t : State} {v : Bytes} {who : Who} {reply : Reply} {ph : Bool} {r : SaveRun} {index sub : Nat}

/-! ### Saves -/

theorem exec_save : exec (.save who v) s = .next (putEntry who 0x2000 2 v s) := rfl

theorem exec_saveDone {ok : Bool} : exec (.saveDone ok) s = execSaveDone ok s := rfl

theorem consistent_store {j : Nat} : consistent s 0x2000 j = true := by simp [consistent, familyOf]

theorem applyWrite_save : applyWrite reply ph ⟨0x2000, 2, v⟩ s = startSave reply s := by
  simp [applyWrite, applyUnit, familyOf]

/-- A save that is refused leaves nothing (R29). -/
theorem residue_save : residue ph [⟨0x2000, 2, v⟩] 1 s = s := by simp [residue]

/-- The state in which a save runs (R120). -/
def saveBegun (reply : Reply) (s : State) : State :=
  { s with conf := { s.conf with save := some { copy := saveTarget s.conf, image := copyImage (highestGen s.conf + 1) (saveRecords s),
                                                tick := s.ticks, reply := reply } } }

theorem startSave_busy (running : s.conf.save = some r) : startSave reply s = .error 0x0501 := by
  simp [startSave, running]

theorem startSave_fits (idle : s.conf.save = none) (fits : (copyImage (highestGen s.conf + 1) (saveRecords s)).length ≤ 2 ^ 18) :
    startSave reply s = .ok (saveBegun reply s) := by
  unfold startSave saveBegun
  rw [idle]
  exact (if_neg Bool.false_ne_true).trans (if_neg (Nat.not_lt.mpr fits))

theorem startSave_large (idle : s.conf.save = none) (large : ¬(copyImage (highestGen s.conf + 1) (saveRecords s)).length ≤ 2 ^ 18) :
    startSave reply s = .error 0x0502 := by
  unfold startSave
  rw [idle]
  exact (if_neg Bool.false_ne_true).trans (if_pos (Nat.not_le.mp large))

theorem putEntry_save_denied {e : Nat} (passes : writePasses s who 0x2000 2 v = true)
    (denied : startSave (.record who 0x2000 2) s = .error e) : putEntry who 0x2000 2 v s = send (.answer who 0x2000 2 e) s := by
  obtain ⟨⟨en, checks⟩, -⟩ := writePasses_iff.mp passes
  have served := serve_effect_denied (reply := .record who 0x2000 2) (ph := false) (p := ⟨0x2000, 2, v⟩) checks consistent_store
    (applyWrite_save.trans denied)
  rw [residue_save] at served
  exact putEntryWith_now served

theorem putEntry_save_begun (passes : writePasses s who 0x2000 2 v = true) (alone : needsAck s = false)
    (begun : startSave (.record who 0x2000 2) s = .ok (saveBegun (.record who 0x2000 2) s)) :
    putEntry who 0x2000 2 v s = saveBegun (.record who 0x2000 2) s := by
  obtain ⟨⟨en, checks⟩, -⟩ := writePasses_iff.mp passes
  have settled {a : State} : settleTeams [⟨0x2000, 2, v⟩] a = a := by simp [settleTeams, familyOf]
  have served := serve_effect_later (reply := .record who 0x2000 2) (ph := false) (p := ⟨0x2000, 2, v⟩) checks consistent_store
    (applyWrite_save.trans begun) (by simp [Put.isLater]) (by rw [settled]; exact alone)
  rw [settled] at served
  exact putEntryWith_later served

theorem execSaveDone_running (running : s.conf.save = some r) {ok : Bool} : execSaveDone ok s = if ok then
      .next (answerReply r.reply 0 (countChange 0x2000 2 { s with
        conf := { putCopy r.copy true r.image s.conf with
          save := none, inForce := some (field r.image 8 4, savedCheck (slice r.image 32 (field r.image 12 4))) }
        fw := { s.fw with config := sha384 r.image } }))
    else .next (answerReply r.reply 0x0601 { s with conf := { putCopy r.copy false [] s.conf with save := none } }) := by
  simp only [execSaveDone, running]

theorem execSaveDone_idle (idle : s.conf.save = none) {ok : Bool} : execSaveDone ok s = .next s := by
  simp only [execSaveDone, idle]

/-- A copy written, the other as it stands. -/
theorem putCopy_eq {copy ok : Bool} {b : Bytes} {c : ConfigRegion} : putCopy copy ok b c =
    { c with copyA := if copy then c.copyA else b, aBad := if copy then c.aBad else !ok
             copyB := if copy then b else c.copyB, bBad := if copy then !ok else c.bBad } := by
  cases copy <;> rfl

/-! ### Factory defaults (R125) -/

theorem exec_restoreFactoryDefaults : exec (.restoreFactoryDefaults who v) s = .next (putEntry who 0x2000 4 v s) := rfl

theorem applyWrite_restore : applyWrite reply ph ⟨0x2000, 4, v⟩ s = .ok (restoreEffect s) := by
  simp [applyWrite, applyUnit, familyOf]

theorem needsAck_restoreEffect : needsAck (restoreEffect s) = needsAck s := by
  have pair : (restoreEffect s).pair = s.pair := (keeps_restoreEffect (List.Subset.refl _) (.refl _ s)).frame .pair (by decide)
  simp only [needsAck, batonUp, pair]

theorem needsAck_settleTeams {l : List Put} : needsAck (settleTeams l s) = needsAck s := by
  have pair : (settleTeams l s).pair = s.pair := (keeps_settleTeams (List.Subset.refl _) (.refl _ s)).frame .pair (by decide)
  simp only [needsAck, batonUp, pair]

theorem putEntry_restore (passes : writePasses s who 0x2000 4 v = true) (alone : needsAck s = false) :
    putEntry who 0x2000 4 v s =
      send (.answer who 0x2000 4 0) (settleTeams [⟨0x2000, 4, v⟩] (countChange 0x2000 4 (restoreEffect s))) := by
  obtain ⟨⟨en, checks⟩, -⟩ := writePasses_iff.mp passes
  refine putEntryWith_now (serve_effect (p := ⟨0x2000, 4, v⟩) checks consistent_store applyWrite_restore (by simp [Put.isLater]) ?_)
  rw [needsAck_settleTeams, needsAck_countChange, needsAck_restoreEffect, alone]

/-- A map without the keys that fail a test holds nothing at one of them. -/
theorem mapGet_filter_none {α : Type} {test : Nat → Bool} {x : Nat} (fails : test x = false) (m : List (Nat × α)) :
    mapGet (m.filter (fun q => test q.1)) x = none := by
  induction m with
  | nil => rfl
  | cons q m ih =>
    rw [List.filter_cons]
    split
    next passes =>
      have other : q.1 ≠ x := fun e => by rw [e, fails] at passes; cases passes
      exact (if_neg other).trans ih
    next => exact ih

/-- A persisted entry outside the communication entries holds its default after the restore. -/
theorem stored_restoreDefaults {en : Entry} (low : sub < 256) (found : findEntry index sub = some en) (saved : en.acc = .rwp)
    (kept : isComm index = false) :
    stored (restoreDefaults s) index sub = defaultOf ((laneOfIndex index).bind (pickupClass s)) index en := by
  have index_eq : regKey index sub / 256 = index := by unfold regKey; omega
  have sub_eq : regKey index sub % 256 = sub := by unfold regKey; omega
  have gone : mapGet (restoreDefaults s).dict.reg (regKey index sub) = none := by
    refine mapGet_filter_none (test := fun k => isComm (k / 256) ||
      !((findEntry (k / 256) (k % 256)).map (fun e => decide (e.acc = .rwp))).getD false) ?_ s.dict.reg
    simp only [index_eq, sub_eq, kept, found, saved, Option.map_some, decide_true, Option.getD_some, Bool.not_true, Bool.or_self]
  simp only [stored, gone, found]
  rfl

/-- Settles O21: a save is refused or runs until its read-back, whose two outcomes write the copy it was taken into; the restore
filters the stored values. -/
theorem savesAndDefaults : Obligations.SavesAndDefaults := by
  simp only [Obligations.SavesAndDefaults, exec_save, exec_saveDone, exec_restoreFactoryDefaults]
  refine ⟨?begins, ?busy, ?good, ?bad, ?answer, ?idle, ?restore, ?defaults⟩
  case begins =>
    intro who v s passes alone idle
    split
    next fits =>
      rw [putEntry_save_begun passes alone (startSave_fits idle fits)]
      exact ⟨_, rfl, rfl, rfl⟩
    next large =>
      rw [putEntry_save_denied passes (startSave_large idle large)]
      exact ⟨_, rfl, rfl, rfl⟩
  case busy =>
    intro who v r s passes running
    rw [putEntry_save_denied passes (startSave_busy running)]
    exact ⟨_, rfl, rfl, rfl⟩
  case good =>
    intro r s running
    rw [execSaveDone_running running, if_pos rfl, putCopy_eq]
    cases r.copy <;> simp
  case bad =>
    intro r s running
    rw [execSaveDone_running running, if_neg Bool.false_ne_true, putCopy_eq]
    cases r.copy <;> simp
  case answer => exact fun who k index sub s => rfl
  case idle => exact fun ok s idle => execSaveDone_idle idle
  case restore => exact fun who v s passes alone => congrArg _ (putEntry_restore passes alone)
  case defaults => exact fun index sub en s low found saved kept => stored_restoreDefaults low found saved kept

end Sys2Proof.Machine
end

section
/-! PROOFS. The dictionary over NVMe (R114, R115): commands taken up, and completed with the dictionary's status. -/

namespace Sys2Proof.Machine

variable {s t : State} {c : CmdId} {opcode index sub dw0 dw1 : Nat} {v : Bytes}

/-! ### A dictionary command taken up (R564, R573) -/

/-- What `adminOpen` says. -/
theorem adminOpen_iff : adminOpen s c = true ↔ canFetch s (adminId c) = true ∧ busyId s (adminId c) = false ∧ s.power.unit ≠ 2 ∧
    needsAck s = false ∧ cqRoom s (adminId c) = true ∧ (s.host.ctrls[c.ctrl].acq.id = 0 ∧ s.host.ctrls[c.ctrl].acq.vector = 0) ∧
    s.host.ctrls[c.ctrl].acq.ien = true ∧ ∀ q ∈ s.host.ctrls[c.ctrl].sqs, q.id ≠ 0 := by
  simp only [adminOpen, Bool.and_eq_true, decide_eq_true_eq, Bool.not_eq_true', List.all_eq_true, and_assoc]

/-- A command of which no other bears the identifier is not in flight. -/
theorem busyId_eq_false {a : CmdId} : busyId s a = false ↔ flightOf s a = none ∧ ¬(a.sq = 0 ∧ s.host.ctrls[a.ctrl].aers.contains a.cid = true) := by
  simp only [busyId, Bool.or_eq_false_iff, Option.isSome_eq_false_iff, Option.isNone_iff_eq_none, Bool.and_eq_false_iff,
    decide_eq_false_iff_not, not_and, Bool.not_eq_true]
  tauto

/-- The entry of a queue that is in no CMB is not marked. -/
theorem entryPoisoned_admin (own : ∀ q ∈ s.host.ctrls[c.ctrl].sqs, q.id ≠ 0) : entryPoisoned (adminId c) s = (false, s) := by
  have absent : s.host.ctrls[(adminId c).ctrl].sqs.find? (fun q => decide (q.id = (adminId c).sq)) = none :=
    List.find?_eq_none.mpr fun q mem => by rw [decide_eq_true_eq]; exact own q mem
  simp only [entryPoisoned, absent]

/-- The state in which a command has the next arrival sequence. -/
def fetched (s : State) (a : CmdId) : State := setHost (fun h => { h with seq := h.seq + 1 }) (advanceHead a s)

theorem ctrl_fetched : (fetched s (adminId c)).host.ctrls[c.ctrl] =
    { s.host.ctrls[c.ctrl] with asq := { s.host.ctrls[c.ctrl].asq with
      head := (s.host.ctrls[c.ctrl].asq.head + 1) % (if s.host.ctrls[c.ctrl].asq.size = 0 then 1 else s.host.ctrls[c.ctrl].asq.size) } } := by
  show (vecModify s.host.ctrls c.ctrl _)[c.ctrl] = _
  rw [getElem_vecModify, if_pos rfl]
  rfl

theorem fetchAny_open {k : CmdId → State → State} (ready : adminOpen s c = true) : fetchAny c k s = k (adminId c) (fetched s (adminId c)) := by
  obtain ⟨next, free, -, -, -, -, -, own⟩ := adminOpen_iff.mp ready
  have free' : busyId (fetched s (adminId c)) (adminId c) = false := by
    obtain ⟨unseen, unasked⟩ := busyId_eq_false.mp free
    refine busyId_eq_false.mpr ⟨unseen, fun ⟨h, asked⟩ => unasked ⟨h, ?_⟩⟩
    have same : (fetched s (adminId c)).host.ctrls[c.ctrl].aers = s.host.ctrls[c.ctrl].aers := by rw [ctrl_fetched]
    exact same ▸ asked
  simp only [fetchAny, fetch, next, if_true, entryPoisoned_admin own]
  exact if_neg (Bool.eq_false_iff.mp free')

/-- A dictionary command taken up outside SLEEP is carried out. -/
theorem dictCommand_open {indices : List Nat} {k : CmdId → State → State} (ready : adminOpen s c = true) :
    dictCommand c opcode indices k s = k (adminId c) (taken s c opcode) := by
  obtain ⟨-, -, awake, -⟩ := adminOpen_iff.mp ready
  refine (fetchAny_open ready).trans (if_neg ?_)
  exact fun asleep => awake asleep.1

theorem flights_fetched {a : CmdId} : (fetched s a).host.flights = s.host.flights := rfl

/-- The flight of a command that is taken up. -/
def takenFlight (s : State) (c : CmdId) (opcode : Nat) : Flight :=
  { newFlight (adminId c) (fetched s (adminId c)).host.seq (.admin opcode false) with tick := s.ticks }

/-- Taking a flight up changes the flights, and of the dictionary the counters stored. -/
theorem takeOff_eq {f : Flight} : ∃ r, takeOff f s = { s with
    host := { s.host with flights := s.host.flights ++ [{ f with tick := s.ticks }] }, dict := { s.dict with reg := r } } := by
  unfold takeOff
  dsimp only
  split
  · exact ⟨_, rfl⟩
  · exact ⟨_, rfl⟩

theorem taken_eq : ∃ r, taken s c opcode = { s with
    host := { (fetched s (adminId c)).host with flights := (fetched s (adminId c)).host.flights ++ [takenFlight s c opcode] }
    dict := { s.dict with reg := r } } := by
  have whole : fetched s (adminId c) = { s with host := (fetched s (adminId c)).host } := rfl
  show ∃ r, takeOff (newFlight (adminId c) (fetched s (adminId c)).host.seq (.admin opcode false)) (fetched s (adminId c)) = _
  rw [whole, takenFlight]
  generalize (fetched s (adminId c)).host = h
  exact takeOff_eq (s := { s with host := h })

theorem host_taken : (taken s c opcode).host =
    { (fetched s (adminId c)).host with flights := (fetched s (adminId c)).host.flights ++ [takenFlight s c opcode] } := by
  obtain ⟨r, eq⟩ := taken_eq (s := s) (c := c) (opcode := opcode)
  rw [eq]

theorem dict_taken : ∃ r, (taken s c opcode).dict = { s.dict with reg := r } := by
  obtain ⟨r, eq⟩ := taken_eq (s := s) (c := c) (opcode := opcode)
  exact ⟨r, by rw [eq]⟩

theorem needsAck_taken : needsAck (taken s c opcode) = needsAck s := by
  obtain ⟨r, eq⟩ := taken_eq (s := s) (c := c) (opcode := opcode)
  rw [eq]
  rfl

/-! ### A command completed (R115, R537, R539) -/

/-- An admin command is in flight and can complete at once. -/
structure AdminDue (h : HostSide) (c : CmdId) : Prop where
  running : h.frozen = false
  flight : ∃ seq opcode tick, h.flights.find? (fun f => decide (f.c = adminId c)) =
    some { newFlight (adminId c) seq (.admin opcode false) with tick := tick }
  room : h.ctrls[c.ctrl].acq.full = false ∧ h.ctrls[c.ctrl].acq.held.isEmpty = true
  queue : h.ctrls[c.ctrl].acq.id = 0 ∧ h.ctrls[c.ctrl].acq.vector = 0 ∧ h.ctrls[c.ctrl].acq.ien = true

theorem adminDue_taken (ready : adminOpen s c = true) : AdminDue (taken s c opcode).host c := by
  obtain ⟨next, free, -, -, room, ⟨id, vector⟩, ien, -⟩ := adminOpen_iff.mp ready
  obtain ⟨unseen, -⟩ := busyId_eq_false.mp free
  have running : s.host.frozen = false := by
    simp only [canFetch, Bool.and_eq_true, Bool.not_eq_true'] at next
    exact next.1
  have slot : s.host.ctrls[c.ctrl].acq.full = false ∧ s.host.ctrls[c.ctrl].acq.held.isEmpty = true := by
    have free' : (!s.host.ctrls[c.ctrl].acq.full && s.host.ctrls[c.ctrl].acq.held.isEmpty) = true := room
    simpa only [Bool.and_eq_true, Bool.not_eq_true'] using free'
  have same : (taken s c opcode).host.ctrls[c.ctrl].acq = s.host.ctrls[c.ctrl].acq := by
    have acq : (fetched s (adminId c)).host.ctrls[c.ctrl].acq = s.host.ctrls[c.ctrl].acq := by rw [ctrl_fetched]
    rw [host_taken]
    exact acq
  refine ⟨?_, ?_, ?_, ?_⟩
  · rw [host_taken]
    exact running
  · refine ⟨(fetched s (adminId c)).host.seq, opcode, s.ticks, ?_⟩
    rw [host_taken]
    dsimp only
    rw [flights_fetched, List.find?_append, show s.host.flights.find? (fun f => decide (f.c = adminId c)) = none from unseen, Option.none_or]
    exact List.find?_cons_of_pos (decide_eq_true rfl)
  · rw [same]
    exact slot
  · rw [same]
    exact ⟨id, vector, ien⟩

/-- The flight of an identifier, changed. -/
theorem flightOf_setFlight {a : CmdId} {g : Flight → Flight} (own : ∀ f, (g f).c = f.c) :
    flightOf (setFlight a g s) a = (flightOf s a).map g := by
  show (s.host.flights.map fun f => if f.c = a then g f else f).find? _ = (s.host.flights.find? _).map g
  induction s.host.flights with
  | nil => rfl
  | cons f l ih =>
    by_cases here : f.c = a
    · rw [List.map_cons, if_pos here, List.find?_cons_of_pos (by simp [own, here]), List.find?_cons_of_pos (by simp [here])]
      rfl
    · rw [List.map_cons, if_neg here, List.find?_cons_of_neg (by simp [here]), List.find?_cons_of_neg (by simp [here]), ih]

/-- A flight of no namespace leaves no more than its own entry. -/
theorem removeFlight_unspaced {a : CmdId} {f : Flight} (flight : flightOf s a = some f) (unspaced : f.nsid = 0) :
    removeFlight a s = setFlights (fun l => l.filter (fun x => decide (x.c ≠ a))) s := by
  have none' : (flightOf s a).bind (fun x => teamOfNsid x.nsid) = none := by rw [flight, Option.bind_some, unspaced]; rfl
  simp only [removeFlight, none']

/-- A success that the admin completion queue has room for is posted with its interrupt. -/
theorem sent_postAt_admin {lba nsid : Nat} {h : HostSide} (host : s.host.ctrls = h.ctrls)
    (room : h.ctrls[c.ctrl].acq.full = false ∧ h.ctrls[c.ctrl].acq.held.isEmpty = true)
    (queue : h.ctrls[c.ctrl].acq.id = 0 ∧ h.ctrls[c.ctrl].acq.vector = 0 ∧ h.ctrls[c.ctrl].acq.ien = true) :
    (postAt lba nsid (adminId c) 0 0 none dw0 dw1 s).sent = adminAnswer c 0 0 dw0 dw1 ++ s.sent := by
  rw [← host] at room queue
  obtain ⟨free, empty⟩ := room
  obtain ⟨id, vector, ien⟩ := queue
  have put : postAt lba nsid (adminId c) 0 0 none dw0 dw1 s = cqTake c.ctrl s.host.ctrls[c.ctrl].acq ⟨adminId c, 0, 0, none, dw0, dw1⟩ s := by
    show (if s.host.ctrls[c.ctrl].acq.full || !s.host.ctrls[c.ctrl].acq.held.isEmpty then _ else _) = _
    rw [free, empty]
    rfl
  rw [put]
  simp only [cqTake, coalesces, id, ien, ne_eq, not_true_eq_false, decide_false, Bool.false_and, Bool.not_false, Bool.true_or,
    Bool.and_self, if_true, vector]
  rfl

/-- A dictionary command done completes successfully, with the dictionary's status in Dword 0. -/
theorem sent_dictDone (due : AdminDue s.host c) (alone : needsAck s = false) :
    (dictDone (adminId c) dw0 dw1 s).sent = adminAnswer c 0 0 dw0 dw1 ++ s.sent := by
  obtain ⟨seq, op, tick, flight⟩ := due.flight
  have flight' : flightOf s (adminId c) = some { newFlight (adminId c) seq (.admin op false) with tick := tick } := flight
  have ended := flightOf_setFlight (s := s) (a := adminId c)
    (g := fun f => { f with status := some (0, 0, none), dw0 := dw0, dw1 := dw1 }) fun _ => rfl
  rw [flight', Option.map_some] at ended
  have alone' : needsAck (setFlight (adminId c) (fun f => { f with status := some (0, 0, none), dw0 := dw0, dw1 := dw1 }) s) = false := alone
  have running : (setFlight (adminId c) (fun f => { f with status := some (0, 0, none), dw0 := dw0, dw1 := dw1 }) s).host.frozen = false :=
    due.running
  have kept : (setFlight (adminId c) (fun f => { f with status := some (0, 0, none), dw0 := dw0, dw1 := dw1 }) s).host.ctrls = s.host.ctrls := rfl
  have sent : (setFlight (adminId c) (fun f => { f with status := some (0, 0, none), dw0 := dw0, dw1 := dw1 }) s).sent = s.sent := rfl
  unfold dictDone
  rw [flight']
  dsimp only
  generalize setFlight (adminId c) (fun f => { f with status := some (0, 0, none), dw0 := dw0, dw1 := dw1 }) s = a at *
  simp only [tryComplete, ended, newFlight, running, dueStatus, alone', Bool.or_self, Bool.false_eq_true, if_false, Bool.false_and,
    commitFlight, removeFlight_unspaced ended rfl]
  refine (sent_postAt_admin (s := setFlights _ a) kept due.room due.queue).trans ?_
  exact congrArg _ sent

theorem keeps_dictDone_parts : Keeps [.sent, .teams, .host, .pair, .work] s (dictDone c dw0 dw1 s) :=
  keeps_dictDone (List.Subset.refl _) (.refl _ s)

theorem dict_dictDone : (dictDone c dw0 dw1 s).dict = s.dict := by
  have reg := keeps_dictDone_parts.frame (s := s) (t := dictDone c dw0 dw1 s) .reg (by decide)
  have keys := keeps_dictDone_parts.frame (s := s) (t := dictDone c dw0 dw1 s) .keys (by decide)
  have dict := keeps_dictDone_parts.frame (s := s) (t := dictDone c dw0 dw1 s) .dict (by decide)
  simp only [Part.same] at reg keys dict
  rw [dict, reg, keys]

theorem stored_dictDone : stored (dictDone c dw0 dw1 s) index sub = stored s index sub := by
  have lanes : (dictDone c dw0 dw1 s).lanes = s.lanes := keeps_dictDone_parts.frame .lanes (by decide)
  exact stored_congr (by rw [dict_dictDone]) (fun m => by unfold laneAt; rw [lanes]) index sub

/-! ### Dictionary commands (R94, R114, R115) -/

/-- Dword 10 of a dictionary command: index, subindex, and whether the segment is the last. -/
theorem fields_dw10 {last : Nat} (hindex : index < 65536) (hsub : sub < 256) :
    bits (index + 65536 * sub + 2 ^ 24 * last) 15 0 = index ∧ bits (index + 65536 * sub + 2 ^ 24 * last) 23 16 = sub := by
  unfold bits
  omega

theorem last_dw10 (hindex : index < 65536) (hsub : sub < 256) : bit (index + 65536 * sub + 2 ^ 24) 24 = true := by
  unfold bit
  rw [decide_eq_true_eq]
  omega

theorem heldOf_taken {o : Owner} : heldOf (taken s c opcode) o index sub = heldOf s o index sub := by
  obtain ⟨r, dict⟩ := dict_taken (s := s) (c := c) (opcode := opcode)
  simp only [heldOf, dict]

theorem changeOf_taken : changeOf (taken s c opcode) index sub = changeOf s index sub := by
  obtain ⟨r, dict⟩ := dict_taken (s := s) (c := c) (opcode := opcode)
  exact changeOf_congr (by rw [dict])

theorem exec_dictionaryWrite {dw10 dw11 dw12 : Nat} {data : HostData} :
    exec (.dictionaryWrite c dw10 dw11 dw12 data) s = execDictionaryWrite c dw10 dw11 dw12 data s := rfl

theorem exec_dictionaryRead {dw10 dw11 dw12 : Nat} {failed : Option Nat} :
    exec (.dictionaryRead c dw10 dw11 dw12 failed) s = execDictionaryRead c dw10 dw11 dw12 failed s := rfl

theorem exec_dictionaryBatch {dw10 : Nat} {data : HostData} :
    exec (.dictionaryBatch c dw10 data) s = execDictionaryBatch c dw10 data s := rfl

/-- A value written whole by a DICTIONARY_WRITE. -/
theorem execDictionaryWrite_whole {en : Entry} (ready : adminOpen s c = true) (hindex : index < 65536) (hsub : sub < 256)
    (fresh : heldOf s (.queue c.ctrl 0) index sub = none) (checks : writeChecks (taken s c 0xC1) (.nvme c.ctrl) index sub v = .ok en)
    {e k : Nat} (served : serveDrawn (.nvme c.ctrl) (.command (adminId c) 0) [{ index := index, sub := sub, value := v }]
      (taken s c 0xC1) = .now e k t) :
    execDictionaryWrite c (index + 65536 * sub + 2 ^ 24) 0 v.length (.bytes v) s = .next (dictDone (adminId c) e 0 t) := by
  obtain ⟨index_eq, sub_eq⟩ := fields_dw10 (last := 1) hindex hsub
  rw [Nat.mul_one] at index_eq sub_eq
  have whole := writeSegment_whole (o := .queue c.ctrl 0) checks (heldOf_taken.trans fresh)
  have owner : (adminId c).ctrl = c.ctrl ∧ (adminId c).sq = 0 := ⟨rfl, rfl⟩
  simp only [execDictionaryWrite, index_eq, sub_eq, last_dw10 hindex hsub, dictCommand_open ready, owner, whole, served]

/-- A value read whole by a DICTIONARY_READ. -/
theorem execDictionaryRead_whole {len : Nat} (ready : adminOpen s c = true) (hindex : index < 65536) (hsub : sub < 256)
    (some' : 0 < v.length) (access : readAccess (taken s c 0xC2) (.nvme c.ctrl) index sub = .ok v) (covers : v.length ≤ min len 65536) :
    execDictionaryRead c (index + 65536 * sub) 0 len none s =
      .next (dictDone (adminId c) 0 (changeOf s index sub) (send (.data (adminId c) v) (taken s c 0xC2))) := by
  obtain ⟨index_eq, sub_eq⟩ := fields_dw10 (last := 0) hindex hsub
  rw [Nat.mul_zero, Nat.add_zero] at index_eq sub_eq
  have owner : (adminId c).ctrl = c.ctrl := rfl
  have full : v.isEmpty = false := by simpa [List.isEmpty_iff] using some'.ne'
  simp only [execDictionaryRead, index_eq, sub_eq, dictCommand_open ready, owner, readSegment_whole access some' covers, full,
    Bool.false_eq_true, if_false, changeOf_taken]

theorem execDictionaryBatch_badCount {k : Nat} {data : HostData} (ready : adminOpen s c = true) (bad : k = 0 ∨ 32 < k) :
    execDictionaryBatch c k data s = .next (dictDone (adminId c) 0x0302 0 (taken s c 0xC5)) := by
  simp only [execDictionaryBatch, if_pos bad, dictCommand_open ready]

/-- A batch whose writes are told apart is within the counts allowed (R94). -/
theorem count_of_batchPuts {k : Nat} {b : Bytes} {l : List Put} (puts : batchPuts k b = .ok l) : ¬(k = 0 ∨ 32 < k) := by
  intro bad
  rw [batchPuts_badCount bad] at puts
  cases puts

theorem execDictionaryBatch_now {k e pos : Nat} {b : Bytes} {l : List Put} (ready : adminOpen s c = true) (puts : batchPuts k b = .ok l)
    (served : serveDrawn (.nvme c.ctrl) (.command (adminId c) 1) l (taken s c 0xC5) = .now e pos t) :
    execDictionaryBatch c k (.bytes b) s = .next (dictDone (adminId c) (e + 65536 * pos) 0 t) := by
  have owner : (adminId c).ctrl = c.ctrl := rfl
  simp only [execDictionaryBatch, if_neg (count_of_batchPuts puts), puts, dictCommand_open ready, owner, served, dictOutcome]

/-- What plain writes leave in the state that took a command up lets the command complete. -/
theorem due_of_lanesAlone {l : List Put} (ready : adminOpen s c = true) (kept : LanesAlone (l.foldl putPlain (taken s c opcode)) t) :
    AdminDue t.host c ∧ needsAck t = false := by
  obtain ⟨-, -, -, alone, -⟩ := adminOpen_iff.mp ready
  refine ⟨?_, ?_⟩
  · rw [kept.host, host_foldl_putPlain]
    exact adminDue_taken ready
  · rw [kept.needsAck, needsAck_foldl_putPlain, needsAck_taken, alone]

theorem take_adminAnswer {sct sc : Nat} {l : List Sent} : (adminAnswer c sct sc dw0 dw1 ++ l).take 2 = adminAnswer c sct sc dw0 dw1 := rfl

/-- Settles O19: a command that can be taken up at once is carried out on the state that took it, and completes there. -/
theorem dictionaryOverNvme : Obligations.DictionaryOverNvme := by
  simp only [Obligations.DictionaryOverNvme, exec_dictionaryWrite, exec_dictionaryRead, exec_dictionaryBatch]
  refine ⟨?write, ?read, ?batch, ?badCount⟩
  case write =>
    intro c index sub v s ready hindex hsub plain fresh passes
    obtain ⟨-, -, -, alone, -⟩ := adminOpen_iff.mp ready
    obtain ⟨⟨en, checks⟩, consist⟩ := writePasses_iff.mp passes
    have allPlain : ∀ q ∈ [Put.mk index sub v], plainEntry q.index q.sub = true := List.forall_mem_singleton.mpr plain
    have consist' := consistPuts_single (k := 1) ((consistent_asWritten_plain (ph := false) (p := ⟨index, sub, v⟩) plain).trans consist)
    obtain ⟨t, served, kept⟩ := serve_plain allPlain (checkPuts_single_ok checks) (fun _ => consist') (needsAck_taken.trans alone)
    obtain ⟨due, alone'⟩ := due_of_lanesAlone ready kept
    refine ⟨_, execDictionaryWrite_whole ready hindex hsub fresh checks ((serveDrawn_plain allPlain).trans served), ?_, ?_⟩
    · rw [stored_dictDone, kept.stored]
      exact stored_store_same
    · rw [sent_dictDone due alone', take_adminAnswer]
  case read =>
    intro c index sub len v s ready hindex hsub some' access covers fits
    obtain ⟨-, -, -, alone, -⟩ := adminOpen_iff.mp ready
    have due : AdminDue (send (.data (adminId c) v) (taken s c 0xC2)).host c := adminDue_taken ready
    have alone' : needsAck (send (.data (adminId c) v) (taken s c 0xC2)) = false := needsAck_taken.trans alone
    refine ⟨_, execDictionaryRead_whole ready hindex hsub some' access (le_min covers fits), dict_dictDone, ?_⟩
    rw [sent_dictDone due alone']
    rfl
  case batch =>
    intro c b l scratch s ready puts plain different checks consist
    obtain ⟨-, -, -, alone, -⟩ := adminOpen_iff.mp ready
    obtain ⟨t, served, kept⟩ := serve_plain plain checks (fun _ => consist) (needsAck_taken.trans alone)
    obtain ⟨due, alone'⟩ := due_of_lanesAlone ready kept
    refine ⟨_, execDictionaryBatch_now ready puts ((serveDrawn_plain plain).trans served), fun q mem => ?_, ?_⟩
    · rw [stored_dictDone, kept.stored]
      exact stored_foldl_putPlain different mem
    · rw [sent_dictDone due alone', take_adminAnswer]
  case badCount =>
    intro c k data s ready bad
    obtain ⟨-, -, -, alone, -⟩ := adminOpen_iff.mp ready
    refine ⟨_, execDictionaryBatch_badCount ready bad, dict_dictDone, ?_⟩
    rw [sent_dictDone (adminDue_taken ready) (needsAck_taken.trans alone), take_adminAnswer]

end Sys2Proof.Machine
end

section
/-! PROOFS. What the operations of a pair make of it: roles, disarming, the peer met and known, frames received (R133, R665 to R670). -/

namespace Sys2Proof.Machine

variable {s t : State} {f : Pair → Pair} {serial : Bytes} {reason : Nat}

/-! ### Roles -/

/-- A change of the pair may raise ANA Change beside it, and no more. -/
theorem keeps_roleChange_pair : Keeps [.sent, .host] { s with pair := f s.pair } (roleChange f s) := by
  unfold roleChange
  exact Keeps.foldl _ _ _ (fun _ _ h => keeps_anaChange (List.Subset.refl _) h) (.refl _ _)

@[simp] theorem pair_roleChange : (roleChange f s).pair = f s.pair := keeps_roleChange_pair.frame .pair (by decide)

@[simp] theorem work_roleChange : (roleChange f s).work = s.work := keeps_roleChange_pair.frame .work (by decide)

@[simp] theorem lanes_roleChange : (roleChange f s).lanes = s.lanes := keeps_roleChange_pair.frame .lanes (by decide)

/-! ### Disarming -/

@[simp] theorem pair_disarm : (disarm s).pair = s.pair := by unfold disarm; split <;> simp

@[simp] theorem host_disarm : (disarm s).host = s.host := by unfold disarm; split <;> simp

@[simp] theorem lanes_disarm : (disarm s).lanes = s.lanes := by unfold disarm; split <;> simp

@[simp] theorem work_disarm : (disarm s).work = { s.work with armed := false } := by
  unfold disarm
  split
  · simp
  next unarmed => rw [← Bool.eq_false_iff.mpr unarmed]

/-! ### Unpairing -/

@[simp] theorem pair_unpair : (unpair reason s).pair = { s.pair with role := 3, decided := true, reason := reason, hello := none } := by
  simp [unpair]

@[simp] theorem work_unpair : (unpair reason s).work = { s.work with armed := false } := by simp [unpair]

@[simp] theorem lastEvent_unpair : lastEvent (unpair reason s) = some (0x4004, evData [.u8 reason]) := lastEvent_raise

/-! ### The peer met and known (R133, R665) -/

@[simp] theorem pair_meetPeer : (meetPeer s).pair =
    if s.pair.role = 0 then { s.pair with role := 3, decided := true, reason := 0 } else s.pair := by
  unfold meetPeer
  split
  · exact pair_roleChange
  · rfl

theorem batonUp_congr (links : t.pair.links = s.pair.links) : batonUp t = batonUp s := by simp only [batonUp, links]

@[simp] theorem batonUp_meetPeer : batonUp (meetPeer s) = batonUp s := by
  refine batonUp_congr ?_
  rw [pair_meetPeer]
  split <;> rfl

/-- Without a trained link the peer's serial number is not known. -/
theorem peerKnown_down (down : batonUp s = false) : peerKnown serial s = s := by
  unfold peerKnown
  rw [if_neg (by simp [down])]

theorem pair_peerKnown : (peerKnown serial s).pair =
    { s.pair with peerSerial := if s.pair.peerSerial.isEmpty ∧ batonUp s then serial else s.pair.peerSerial } := by
  unfold peerKnown
  split <;> simp

theorem peerKnown_first (unknown : s.pair.peerSerial = []) (up : batonUp s = true) : peerKnown serial s =
    raise 0x4001 [.tail (unpad serial)] { s with pair := { s.pair with peerSerial := serial } } := by
  unfold peerKnown
  rw [if_pos ⟨by rw [unknown]; rfl, up⟩]

/-- Meeting a peer leaves what a PAIR_HELLO tells of this device. -/
theorem keeps_peer : Keeps [.sent, .dict, .log, .life, .alert, .host, .pair] s (peerKnown serial (meetPeer s)) :=
  keeps_peerKnown (by decide) (keeps_meetPeer (by decide) (.refl _ s))

/-! ### Check words (R119) -/

theorem crcShift_lt {poly w : Nat} (fits : poly < 2 ^ w) {n c : Nat} (small : c < 2 ^ w) : crcShift poly n c < 2 ^ w := by
  induction n generalizing c with
  | zero => exact small
  | succ n ih =>
    refine ih ?_
    have half : c / 2 < 2 ^ w := (Nat.div_le_self c 2).trans_lt small
    split
    · exact Nat.xor_lt_two_pow half fits
    · exact half

theorem crcReflected_lt {poly w : Nat} (fits : poly < 2 ^ w) (wide : 8 ≤ w) {b : Bytes} {c : Nat} (small : c < 2 ^ w) :
    crcReflected poly b c < 2 ^ w := by
  induction b generalizing c with
  | nil => exact small
  | cons x b ih =>
    refine ih (crcShift_lt fits (Nat.xor_lt_two_pow small ?_))
    exact x.isLt.trans_le (Nat.pow_le_pow_right (by decide) wide)

theorem crc32_lt {b : Bytes} : crc32 b < 2 ^ 32 :=
  Nat.xor_lt_two_pow (crcReflected_lt (by decide) (by decide) (by decide)) (by decide)

/-! ### Baton frames (R667, R670) -/

/-- The part of a baton frame that its check word covers. -/
def batonHead (ty flags epoch seq cut : Nat) (body : Bytes) : Bytes :=
  [byte ty, byte flags] ++ toLE 2 body.length ++ toLE 4 epoch ++ toLE 4 seq ++ toLE 4 cut ++ body

theorem length_batonHead {ty flags epoch seq cut : Nat} {body : Bytes} : (batonHead ty flags epoch seq cut body).length = 16 + body.length := by
  simp [batonHead]
  omega

theorem batonFrame_eq {ty flags epoch seq cut : Nat} {body : Bytes} : batonFrame ty flags epoch seq cut body =
    batonHead ty flags epoch seq cut body ++ toLE 4 (crc32 (batonHead ty flags epoch seq cut body)) := rfl

/-- A frame that a peer sends is taken apart into its fields. -/
theorem parseBaton_batonFrame {ty flags epoch seq cut : Nat} {body : Bytes} (htype : ty < 256) (hepoch : epoch < 2 ^ 32) (hseq : seq < 2 ^ 32)
    (hbody : body.length ≤ 8192) : parseBaton (batonFrame ty flags epoch seq cut body) =
      some { ty := ty, epoch := epoch, seq := seq, body := body } := by
  have size : (batonFrame ty flags epoch seq cut body).length = 20 + body.length := by
    rw [batonFrame_eq, List.length_append, length_batonHead, length_toLE]
    omega
  have length_eq : field (batonFrame ty flags epoch seq cut body) 2 2 = body.length := fromLE_toLE_of_lt (n := 2) (by omega)
  have type_eq : field (batonFrame ty flags epoch seq cut body) 0 1 = ty := fromLE_toLE_of_lt (n := 1) (by omega)
  have epoch_eq : field (batonFrame ty flags epoch seq cut body) 4 4 = epoch := fromLE_toLE_of_lt (n := 4) hepoch
  have seq_eq : field (batonFrame ty flags epoch seq cut body) 8 4 = seq := fromLE_toLE_of_lt (n := 4) hseq
  have head_eq : (batonFrame ty flags epoch seq cut body).take (16 + body.length) = batonHead ty flags epoch seq cut body := by
    rw [batonFrame_eq, ← length_batonHead (ty := ty) (flags := flags) (epoch := epoch) (seq := seq) (cut := cut), List.take_left]
  have check_eq : field (batonFrame ty flags epoch seq cut body) (16 + body.length) 4 = crc32 (batonHead ty flags epoch seq cut body) := by
    rw [batonFrame_eq, ← length_batonHead (ty := ty) (flags := flags) (epoch := epoch) (seq := seq) (cut := cut), field, slice_append_right,
      List.take_of_length_le (by rw [length_toLE])]
    exact fromLE_toLE_of_lt (n := 4) crc32_lt
  have body_eq : slice (batonFrame ty flags epoch seq cut body) 16 body.length = body := by
    show (body ++ _).take body.length = body
    exact List.take_left
  unfold parseBaton
  simp only [length_eq, type_eq, epoch_eq, seq_eq, head_eq, check_eq, body_eq]
  exact if_pos ⟨size, hbody, trivial⟩

/-- What `hearsBaton` says. -/
theorem hearsBaton_iff {epoch seq : Nat} {body : Bytes} : hearsBaton s epoch seq body = true ↔ batonUp s = true ∧
    (s.pair.epoch ≤ epoch ∧ epoch < 2 ^ 32) ∧ (s.pair.rxSeq < seq ∧ seq < 2 ^ 32) ∧ body.length ≤ 8192 := by
  simp only [hearsBaton, Bool.and_eq_true, decide_eq_true_eq, and_assoc]

/-- A PAIR_HELLO with a new sequence is taken, whatever its epoch (R667). -/
theorem batonReceive_hello {epoch seq cut : Nat} {body : Bytes} {k : BatonIn → Nat → State → State} (up : batonUp s = true)
    (hepoch : epoch < 2 ^ 32) (newer : s.pair.rxSeq < seq) (hseq : seq < 2 ^ 32) (hbody : body.length ≤ 8192) :
    batonReceive 2 (batonFrame 2 0 epoch seq cut body) k s =
      k { ty := 2, epoch := epoch, seq := seq, body := body } s.pair.rxSeq (heardBaton s seq) := by
  have taken : ¬(2 ≠ 2 ∨ (2 ≠ 2 ∧ epoch < s.pair.epoch) ∨ seq ≤ s.pair.rxSeq) := by omega
  simp only [batonReceive, up, parseBaton_batonFrame (ty := 2) (flags := 0) (cut := cut) (by decide) hepoch hseq hbody, Bool.not_true,
    Bool.false_eq_true, if_false]
  exact if_neg taken

end Sys2Proof.Machine
end

section
/-! PROOFS. A takeover without a mirror (R675, R678): every lane with a pickup stands in FAULT. -/

namespace Sys2Proof.Machine

variable {s t : State} {n m : LaneId} {code : Nat} {at' : LaneState}

/-! ### The lane that enters FAULT (R168) -/

theorem st_rampIfTurning : (laneAt (rampIfTurning n s) n).life.st = (laneAt s n).life.st :=
  (lk_rampIfTurning (List.Subset.refl _) (.refl n _ s)).part (x := .st) (by decide)

theorem st_countAttempt : (laneAt (countAttempt n s) n).life.st = (laneAt s n).life.st :=
  (lk_countAttempt (List.Subset.refl _) (.refl n _ s)).part (x := .st) (by decide)

theorem st_latchFault : (laneAt (latchFault n code s) n).life.st = (laneAt s n).life.st := by rw [laneAt_latchFault]

/-- A lane that enters FAULT stands there, whatever its fault record held. -/
theorem st_enterFault : (laneAt (enterFault n code at' s) n).life.st = .fault := by
  unfold enterFault
  extract_lets s' l re low again s1 s2
  have entered : (laneAt s1 n).life.st = .fault := by rw [laneAt_raise, st_enter]
  have ends : SameFault n s1 s2 := sameFault_faultEnds (by rw [entered]; decide)
  have settled : (laneAt s2 n).life.st = .fault := ends.1.trans entered
  clear_value s2
  split
  · rw [laneAt_latchEnds, st_rampIfTurning, settled]
  · split
    · rw [st_latchFault, settled]
    · split
      · rw [st_countAttempt, settled]
      · exact settled

/-! ### The other lanes -/

/-- A lane stands as regards its state of R140 and its pickup. -/
def Stands (n : LaneId) (s t : State) : Prop :=
  (laneAt t n).life.st = (laneAt s n).life.st ∧ (laneAt t n).life.pickup = (laneAt s n).life.pickup

theorem Stands.refl (n : LaneId) (s : State) : Stands n s s := ⟨rfl, rfl⟩

theorem Stands.trans {u : State} (h : Stands n s t) (k : Stands n t u) : Stands n s u := ⟨k.1.trans h.1, k.2.trans h.2⟩

theorem Stands.of_laneAt (h : laneAt t n = laneAt s n) : Stands n s t := ⟨by rw [h], by rw [h]⟩

theorem Stands.of_lk {q : List LanePart} (k : LK m q s t) (other : n ≠ m) : Stands n s t := .of_laneAt (k.others n other)

theorem Stands.foldl {α : Type} {f : State → α → State} (each : ∀ a x, Stands n a (f a x)) (l : List α) : Stands n s (l.foldl f s) := by
  induction l generalizing s with
  | nil => exact .refl n s
  | cons x l ih => exact (each s x).trans ih

theorem stands_takeIdentity {rec : Bytes} : Stands n s (takeIdentity m rec s) := by
  unfold takeIdentity
  by_cases own : n = m
  · subst own
    constructor <;> rw [laneAt_setLane]
  · exact .of_laneAt (laneAt_setLane_other own)

theorem stands_abortCreationOf : Stands n s (abortCreationOf m s) := by
  unfold abortCreationOf
  split
  · unfold abortCreation
    split
    · exact .refl n s
    · refine .trans (.of_laneAt laneAt_setTeam) (.foldl (fun a k => ?_) _)
      exact .trans (stands_takeIdentity (m := k)) (.of_laneAt (laneAt_evaluateTeam.trans laneAt_raiseIdentified))
  · exact .refl n s

theorem laneAt_enter_other {x : LaneState} (other : n ≠ m) : laneAt (enter m x s) n = laneAt s n := laneAt_setLane_other other

/-- A lane that enters FAULT leaves the state and the pickup of every other. -/
theorem stands_enterFault (other : n ≠ m) : Stands n s (enterFault m code at' s) := by
  unfold enterFault
  extract_lets s' l re low again s1 s2
  have entered : Stands n s s1 := .of_laneAt <| by
    simp only [s1, s', laneAt_raise, laneAt_enter_other other, laneAt_setLane_other other]
  have ends : Stands n s1 s2 := .trans (.of_lk (lk_dropExtents (List.Subset.refl _) (.refl m _ s1)) other)
    (.trans stands_abortCreationOf (.trans (.of_laneAt laneAt_beginWaits) (.of_lk (lk_warmCut (List.Subset.refl _) (.refl m _ _)) other)))
  have settled : Stands n s s2 := entered.trans ends
  clear_value s2
  split
  · exact settled.trans (.trans (.of_lk (lk_rampIfTurning (List.Subset.refl _) (.refl m _ s2)) other) (.of_laneAt laneAt_latchEnds))
  · split
    · exact settled.trans (.of_lk (lk_latchFault (List.Subset.refl _) (.refl m _ s2)) other)
    · split
      · exact settled.trans (.of_lk (lk_countAttempt (List.Subset.refl _) (.refl m _ s2)) other)
      · exact settled

/-! ### Lanes of a cold takeover (R678) -/

theorem coldLane_fault (fitted : (laneAt s n).life.pickup.isSome = true) : (laneAt (coldLane n s) n).life.st = .fault := by
  unfold coldLane
  rw [if_neg (by rw [Option.isNone_iff_eq_none]; exact Option.isSome_iff_ne_none.mp fitted)]
  exact st_enterFault

theorem stands_coldLane (other : n ≠ m) : Stands n s (coldLane m s) := by
  unfold coldLane
  split
  · exact .refl n s
  · refine .trans (.of_lk (lk_rotorLost (List.Subset.refl _) (.refl m _ s)) other) (.trans ?_ (stands_enterFault other))
    exact .of_laneAt (laneAt_setLane_other other)

theorem stands_foldl_coldLane {l : List LaneId} (absent : n ∉ l) : Stands n s (l.foldl (fun a k => coldLane k a) s) := by
  induction l generalizing s with
  | nil => exact .refl n s
  | cons m l ih =>
    rw [List.mem_cons, not_or] at absent
    obtain ⟨other, rest⟩ := absent
    exact (stands_coldLane other).trans (ih rest)

theorem st_foldl_coldLane {l : List LaneId} (once : l.Nodup) (mem : n ∈ l) (fitted : (laneAt s n).life.pickup.isSome = true) :
    (laneAt (l.foldl (fun a k => coldLane k a) s) n).life.st = .fault := by
  induction l generalizing s with
  | nil => cases mem
  | cons m l ih =>
    obtain ⟨fresh, once'⟩ := List.nodup_cons.mp once
    rcases List.mem_cons.mp mem with rfl | later
    · exact (stands_foldl_coldLane fresh).1.trans (coldLane_fault fitted)
    · have other : n ≠ m := fun e => fresh (e ▸ later)
      exact ih once' later (by rw [(stands_coldLane other).2]; exact fitted)

/-- Every lane of a device goes through a cold takeover. -/
def coldLanes (s : State) : State := allLanes.foldl (fun a k => coldLane k a) s

theorem keeps_coldLanes : Keeps [.sent, .reg, .dict, .log, .life, .lanes, .teams, .alert, .host, .ports] s (coldLanes s) :=
  Keeps.foldl _ _ _ (fun _ _ h => keeps_coldLane (List.Subset.refl _) h) (.refl _ s)

theorem pair_coldLanes : (coldLanes s).pair = s.pair := keeps_coldLanes.frame .pair (by decide)

theorem work_coldLanes : (coldLanes s).work = s.work := keeps_coldLanes.frame .work (by decide)

theorem st_coldLanes (fitted : (laneAt s n).life.pickup.isSome = true) : (laneAt (coldLanes s) n).life.st = .fault := by
  unfold coldLanes
  exact st_foldl_coldLane nodup_allLanes (mem_allLanes n) fitted

/-! ### The takeover -/

/-- The state in which a device has taken PAIRSEL for a peer whose alive line was lost, before its lanes are seen to. -/
def takenOver (s : State) : State :=
  { s with
    free := s.free + 1
    pair := { s.pair with hold := true, demand := false, peerHold := false, epoch := s.pair.epoch + 1, commits := [] }
    work := { s.work with taking := none, drill := none, drillFrom := s.ticks } }

/-- The pair of a device that goes on alone once its peer's alive line is lost. -/
def aloneAfter (p : Pair) : Pair := { p with commits := [], role := 0, reason := 0 }

/-- A takeover without a mirror, its peer's alive line lost: event 4006 ends it. -/
theorem takeover_cold (unarmed : s.work.armed = false) : ∃ fields w a, a = roleChange aloneAfter (coldLanes (takenOver s)) ∧
    w.taking = none ∧ takeover 0 s = raise 0x4006 fields (lifeUnit 3 1 (bump 0x2102 1 0 1 (disarm { a with work := w }))) := by
  have free : (roleChange aloneAfter (coldLanes (takenOver s))).work.taking = none := by
    rw [work_roleChange, work_coldLanes]
    rfl
  unfold takeover
  split
  next hold s0 drawn =>
    obtain ⟨rfl, rfl⟩ := Prod.mk.inj drawn
    extract_lets img p0 w0 s1 p1 s2 s3 e
    have s1_eq : s1 = takenOver s := rfl
    have img_eq : img = none := by simp only [img, unarmed, Bool.false_eq_true, if_false]
    have s2_eq : s2 = coldLanes (takenOver s) := by
      rw [← s1_eq]
      simp only [s2, img_eq]
      rfl
    have s3_eq : s3 = roleChange aloneAfter (coldLanes (takenOver s)) := by
      rw [← s2_eq]
      rfl
    clear_value e s3 img
    have taking : s3.work.taking = none := by rw [s3_eq, free]
    rw [if_neg (by decide)]
    refine ⟨_, _, s3, s3_eq, ?_, rfl⟩
    exact taking

theorem pair_takeover_cold (unarmed : s.work.armed = false) : (takeover 0 s).pair = aloneAfter (takenOver s).pair := by
  obtain ⟨fields, w, a, a_eq, -, eq⟩ := takeover_cold unarmed
  rw [eq]
  simp [a_eq, pair_coldLanes]

theorem taking_takeover_cold (unarmed : s.work.armed = false) : (takeover 0 s).work.taking = none := by
  obtain ⟨fields, w, a, -, free, eq⟩ := takeover_cold unarmed
  rw [eq]
  simp [free]

theorem lastEvent_takeover_cold (unarmed : s.work.armed = false) : (lastEvent (takeover 0 s)).map (fun e => e.1) = some 0x4006 := by
  obtain ⟨fields, w, a, -, -, eq⟩ := takeover_cold unarmed
  rw [eq, lastEvent_raise]
  rfl

/-- A takeover without a mirror leaves every lane with a pickup in FAULT. -/
theorem st_takeover_cold (unarmed : s.work.armed = false) (fitted : (laneAt s n).life.pickup.isSome = true) :
    (laneAt (takeover 0 s) n).life.st = .fault := by
  obtain ⟨fields, w, a, a_eq, -, eq⟩ := takeover_cold unarmed
  have lanes : (takeover 0 s).lanes = (coldLanes (takenOver s)).lanes := by
    rw [eq]
    simp [a_eq]
  have same : laneAt (takeover 0 s) n = laneAt (coldLanes (takenOver s)) n := by
    unfold laneAt
    rw [lanes]
  rw [same]
  exact st_coldLanes fitted

end Sys2Proof.Machine
end

section
/-! PROOFS. A pair forms and parts (R133, R660, R665 to R668, R675, R678): arrival, HOLD, links, PAIR_HELLO and departure. -/

namespace Sys2Proof.Machine

variable {s t : State} {f : Pair → Pair} {serial body : Bytes} {reason : Nat} {p : PortId} {side : Bool}

/-! ### Queues of a device that has released PAIRSEL (R681) -/

/-- No controller has an I/O queue. -/
def QueuesGone (h : HostSide) : Prop := ∀ p : PortId, h.ctrls[p].sqs = [] ∧ h.ctrls[p].cqs = []

theorem queuesGone_setCtrl {g : Controller → Controller} (gone : QueuesGone s.host)
    (kept : ∀ c : Controller, c.sqs = [] ∧ c.cqs = [] → (g c).sqs = [] ∧ (g c).cqs = []) : QueuesGone (setCtrl p g s).host := by
  intro q
  show (vecModify s.host.ctrls p g)[q].sqs = [] ∧ (vecModify s.host.ctrls p g)[q].cqs = []
  rw [getElem_vecModify]
  split
  · exact kept _ (gone q)
  · exact gone q

theorem queuesGone_setCq {id : Nat} {g : CompQueue → CompQueue} (gone : QueuesGone s.host) : QueuesGone (setCq p id g s).host := by
  refine queuesGone_setCtrl gone fun c empty => ?_
  split
  · exact empty
  · exact ⟨empty.1, by rw [empty.2, List.map_nil]⟩

theorem queuesGone_cqTake {q : CompQueue} {e : CqEntry} (gone : QueuesGone s.host) : QueuesGone (cqTake p q e s).host := by
  unfold cqTake
  dsimp only
  split
  · exact queuesGone_setCq (s := s) gone
  · exact queuesGone_setCq (s := s) gone

theorem queuesGone_cqPut {id : Nat} {e : CqEntry} (gone : QueuesGone s.host) : QueuesGone (cqPut p id e s).host := by
  unfold cqPut
  split
  · exact gone
  · split
    · exact queuesGone_setCq gone
    · exact queuesGone_cqTake gone

theorem queuesGone_asyncEvent {ty info : Nat} (gone : QueuesGone s.host) : QueuesGone (asyncEvent p ty info s).host := by
  unfold asyncEvent asyncPost
  dsimp only
  split
  · split
    · exact queuesGone_setCtrl gone fun _ empty => empty
    · split
      · exact queuesGone_setCtrl gone fun _ empty => empty
      · exact queuesGone_cqPut (queuesGone_setCtrl gone fun _ empty => empty)
  · exact gone

theorem queuesGone_anaChange (gone : QueuesGone s.host) : QueuesGone (anaChange s).host :=
  queuesGone_asyncEvent (queuesGone_asyncEvent gone)

theorem queuesGone_foldl_anaChange {l : List TeamId} (gone : QueuesGone s.host) : QueuesGone (l.foldl (fun a _ => anaChange a) s).host := by
  induction l generalizing s with
  | nil => exact gone
  | cons u l ih => exact ih (queuesGone_anaChange gone)

/-- A change of the pair makes no queue. -/
theorem queuesGone_roleChange (gone : QueuesGone s.host) : QueuesGone (roleChange f s).host :=
  queuesGone_foldl_anaChange (s := { s with pair := f s.pair }) gone

theorem host_unpair : (unpair reason s).host =
    (roleChange (fun p => { p with role := 3, decided := true, reason := reason, hello := none }) (disarm s)).host := host_raise

theorem queuesGone_unpair (gone : QueuesGone s.host) : QueuesGone (unpair reason s).host := by
  rw [host_unpair]
  exact queuesGone_roleChange (by rw [host_disarm]; exact gone)

theorem host_foldl_setLane {g : Lane → Lane} {l : List LaneId} : (l.foldl (fun a n => setLane n g a) s).host = s.host := by
  induction l generalizing s with
  | nil => rfl
  | cons n l ih => exact ih

theorem queuesGone_clear {g : Controller → Controller} (clears : ∀ c : Controller, (g c).sqs = [] ∧ (g c).cqs = []) :
    QueuesGone (bothPorts.foldl (fun a q => setCtrl q g a) s).host := by
  intro q
  show (vecModify (vecModify s.host.ctrls 0 g) 1 g)[q].sqs = [] ∧ (vecModify (vecModify s.host.ctrls 0 g) 1 g)[q].cqs = []
  rw [getElem_vecModify, getElem_vecModify]
  split
  · exact clears _
  next other =>
    rw [if_pos (by omega)]
    exact clears _

theorem queuesGone_yieldQueues : QueuesGone (yieldQueues s).host := by
  unfold yieldQueues
  extract_lets s1 s2
  rw [host_foldl_setLane]
  exact queuesGone_clear (s := s1) fun _ => ⟨rfl, rfl⟩

theorem pair_yieldQueues : (yieldQueues s).pair = s.pair :=
  (keeps_yieldQueues (List.Subset.refl _) (.refl _ s)).frame .pair (by decide)

/-! ### Departure (R133, R673) -/

/-- The device is SOLO, its peer forgotten, with a given rest of the pair's work. -/
structure Departed (w : PairWork) (s : State) : Prop where
  role : s.pair.role = 0
  serial : s.pair.peerSerial = []
  hello : s.pair.hello = none
  work : s.work = w

theorem Departed.of_same {w : PairWork} (h : Departed w s) (pair : t.pair = s.pair) (work : t.work = s.work) : Departed w t :=
  ⟨by rw [pair, h.role], by rw [pair, h.serial], by rw [pair, h.hello], by rw [work, h.work]⟩

/-- What keeps the pair and its work keeps a departure. -/
theorem Departed.of_keeps {w : PairWork} {l : List Part} (h : Departed w s) (k : Keeps l s t) (pair : .pair ∉ l) (work : .work ∉ l) :
    Departed w t := h.of_same (k.frame .pair pair) (k.frame .work work)

theorem Departed.needsAck {w : PairWork} (h : Departed w s) : Machine.needsAck s = false := by
  simp [Machine.needsAck, h.role]

theorem departed_commitFlight {w : PairWork} {x : Flight} {st : Nat × Nat × Option Bool} (h : Departed w s) :
    Departed w (commitFlight x st s) :=
  h.of_keeps (keeps_commitFlight (List.Subset.refl _) (.refl _ s)) (by decide) (by decide)

/-- A SOLO device completes its commands without a COMMIT record. -/
theorem departed_tryComplete {w : PairWork} {c : CmdId} (h : Departed w s) : Departed w (tryComplete c s) := by
  unfold tryComplete
  split
  · exact h
  · split
    · exact h
    · split
      · exact h
      · rw [h.needsAck, Bool.false_and, if_neg Bool.false_ne_true]
        exact departed_commitFlight h

theorem departed_answerReply {w : PairWork} {r : Reply} {status : Nat} (h : Departed w s) : Departed w (answerReply r status s) := by
  cases r with
  | frame slot number ty seq d pos =>
    unfold answerReply respond
    dsimp only
    repeat' split
    all_goals exact h.of_same rfl rfl
  | command c pos =>
    unfold answerReply dictDone
    dsimp only
    split
    · exact departed_tryComplete (h.of_same rfl rfl)
    · exact h
  | record who i sub => exact h.of_same rfl rfl
  | peer seq =>
    unfold answerReply sendAck batonSend
    dsimp only
    split
    · exact ⟨h.role, h.serial, h.hello, h.work⟩
    · exact h

theorem departed_foldl {α : Type} {w : PairWork} {g : State → α → State} (each : ∀ a x, Departed w a → Departed w (g a x)) (l : List α)
    (h : Departed w s) : Departed w (l.foldl g s) := by
  induction l generalizing s with
  | nil => exact h
  | cons x l ih => exact ih (each s x h)

/-- Nothing waits for an acknowledgement once a peer has departed. -/
theorem departed_flushAcks {w : PairWork} (h : Departed w s) : Departed { w with commits := [], configs := [] } (flushAcks s) := by
  unfold flushAcks
  extract_lets w0 s1 s2
  have h1 : Departed { w with commits := [], configs := [] } s1 := ⟨h.role, h.serial, h.hello, by rw [← h.work]⟩
  have h2 : Departed { w with commits := [], configs := [] } s2 := by
    refine departed_foldl (fun a q ha => ?_) _ h1
    split
    · exact departed_commitFlight ha
    · exact ha
  exact (departed_foldl (fun a q ha => departed_answerReply ha) _ h2).of_keeps (keeps_carriedCheck (List.Subset.refl _) (.refl _ _))
    (by decide) (by decide)

/-- A peer known, no takeover begun: the device is SOLO and disarmed. -/
theorem departed_peerDeparted (known : s.pair.peerSerial ≠ []) (settled : s.work.taking = none) :
    Departed { s.work with armed := false, commits := [], configs := [] } (peerDeparted s) := by
  have full : s.pair.peerSerial.isEmpty = false := by simpa [List.isEmpty_iff] using known
  unfold peerDeparted
  rw [full, settled, if_neg (by simp)]
  refine departed_flushAcks (w := { s.work with armed := false }) ⟨?_, ?_, ?_, ?_⟩ <;> simp

/-! ### What a PAIR_HELLO tells (R668, R688) -/

theorem runningHeader_congr (fw : t.fw = s.fw) : runningHeader t = runningHeader s := by
  unfold runningHeader
  rw [fw]

/-- The checks of a PAIR_HELLO rest on the firmware that runs. -/
theorem helloReason_congr (fw : t.fw = s.fw) : helloReason t body side = helloReason s body side := by
  simp only [helloReason, runningHeader_congr fw]

theorem helloBody_congr (fw : t.fw = s.fw) (live : liveCheck t = liveCheck s) (hold : t.pair.hold = s.pair.hold)
    (epoch : t.pair.epoch = s.pair.epoch) (time : timeNow t = timeNow s) : helloBody t = helloBody s := by
  simp only [helloBody, runningHeader_congr fw, live, hold, epoch, time]

/-- A peer that is met and known changes nothing of what this device tells. -/
theorem helloBody_peer : helloBody (peerKnown serial (meetPeer s)) = helloBody s := by
  have lanes : (peerKnown serial (meetPeer s)).lanes = s.lanes := keeps_peer.frame .lanes (by decide)
  have cal : (peerKnown serial (meetPeer s)).cal = s.cal := keeps_peer.frame .cal (by decide)
  refine helloBody_congr (keeps_peer.frame .fw (by decide)) (liveCheck_congr (keeps_peer.frame .reg (by decide)) fun m => ?_) ?_ ?_ ?_
  · unfold laneAt
    rw [lanes]
  · rw [pair_peerKnown, pair_meetPeer]
    split <;> rfl
  · rw [pair_peerKnown, pair_meetPeer]
    split <;> rfl
  · unfold timeNow
    rw [cal, keeps_peer.ticks]

/-! ### The pair forms (R665 to R669) -/

/-- The pair waits while neither device holds PAIRSEL, or both do. -/
theorem formPair_waits (even : s.pair.hold = s.pair.peerHold) : formPair s = s := by
  unfold formPair
  split
  · rfl
  · rw [if_neg fun h => h.2 even]

theorem formPair_unpaired (unheard : s.pair.role = 0 ∨ s.pair.hello = none) : formPair s = s := by
  unfold formPair
  split
  · rfl
  next heard =>
    rcases unheard with solo | silent
    · rw [if_neg fun h => h.1 solo]
    · rw [silent] at heard
      cases heard

/-- The pair formed: the holder of PAIRSEL is ACTIVE, in an epoch above those of both. -/
theorem pair_formPair {epoch word time : Nat} (heard : s.pair.hello = some (epoch, word, time)) (met : s.pair.role ≠ 0)
    (odd : s.pair.hold ≠ s.pair.peerHold) : (formPair s).pair = { s.pair with
      role := if s.pair.hold then 1 else 2, decided := true, reason := 0, epoch := max s.pair.epoch epoch + 1, hello := none
      gathering := [], mirror := [], commits := [] } := by
  unfold formPair
  split
  next silent =>
    rw [silent] at heard
    cases heard
  next theirs word' time' heard' =>
    obtain ⟨rfl, rfl, rfl⟩ : theirs = epoch ∧ word' = word ∧ time' = time := by simpa [heard', eq_comm] using heard
    rw [if_pos ⟨met, odd⟩]
    extract_lets e role s1 w s2
    have formed : s2.pair = { s.pair with
        role := role, decided := true, reason := 0, epoch := e, hello := none, gathering := [], mirror := [], commits := [] } := by
      simp only [s2, pair_raise, s1, pair_roleChange]
    clear_value s2
    split
    · exact ((keeps_putTime (List.Subset.refl _) (.refl _ s2)).frame .pair (by decide)).trans formed
    · exact formed

end Sys2Proof.Machine
end

section
/-! PROOFS. The happenings of a pair that forms and parts (R133, R660, R665 to R668, R675, R678). -/

namespace Sys2Proof.Machine

variable {s t : State} {serial body : Bytes} {p : PortId} {side : Bool}

/-! ### Each happening of a pair -/

theorem exec_soloTimeout : exec .soloTimeout s = execSoloTimeout s := rfl

theorem exec_peerArrived : exec (.peerArrived serial) s = execPeerArrived serial s := rfl

theorem exec_pairselClaim {low : Nat} : exec (.pairselClaim low) s = .next (pairselClaim low s) := rfl

theorem exec_holdConflict : exec .holdConflict s = execHoldConflict s := rfl

theorem exec_demandRelease : exec .demandRelease s = .next (demandRelease s) := rfl

theorem exec_batonLinkTrained : exec (.batonLinkTrained p serial) s = execBatonLinkTrained p serial s := rfl

theorem exec_batonLinkLost : exec (.batonLinkLost p) s = execBatonLinkLost p s := rfl

theorem exec_peerDeparted : exec .peerDeparted s = .next (peerDeparted s) := rfl

theorem exec_pairHello {frame : Bytes} : exec (.pairHello frame side) s = .next (batonReceive 2 frame (fun f _ a => pairHello side f a) s) := rfl

theorem exec_aliveLoss : exec .aliveLoss s = execAliveLoss s := rfl

theorem exec_heartbeatLoss : exec .heartbeatLoss s = execHeartbeatLoss s := rfl

theorem exec_takeoverRefused : exec .takeoverRefused s = execTakeoverRefused s := rfl

/-! ### HOLD and PAIRSEL (R660, R666, R678) -/

/-- A device without a peer to pair with takes PAIRSEL for itself. -/
theorem pairselClaim_alone {low : Nat} (alive : s.pair.alive = true) (free : s.pair.hold = false) (settled : s.work.taking = none)
    (decided : s.pair.decided = true) (alone : s.pair.role = 0 ∨ (s.pair.role = 3 ∧ batonUp s = false ∧ s.pair.hello = none))
    (long : 2400 ≤ low) (waited : claimWait ≤ low) :
    (pairselClaim low s).pair = { s.pair with hold := true, peerHold := false } := by
  have open' : ¬((!s.pair.alive) = true ∨ s.pair.hold = true ∨ low < 2400) := by simp [alive, free, long]
  have role : s.pair.role = 0 ∨ s.pair.role = 3 := alone.imp_right fun h => h.1
  have quiet : ¬((roleChange (fun q => { q with hold := true, peerHold := false }) s).pair.role = 3 ∧
      batonUp (roleChange (fun q => { q with hold := true, peerHold := false }) s) = true) := by
    rw [pair_roleChange, batonUp_congr (s := s) (by rw [pair_roleChange])]
    rintro ⟨three, up⟩
    rcases alone with solo | ⟨-, down, -⟩
    · exact absurd (solo.symm.trans three) (by decide)
    · rw [down] at up
      cases up
  have unpaired : (roleChange (fun q => { q with hold := true, peerHold := false }) s).pair.role = 0 ∨
      (roleChange (fun q => { q with hold := true, peerHold := false }) s).pair.hello = none := by
    rw [pair_roleChange]
    exact alone.imp_right fun h => h.2.2
  unfold pairselClaim
  rw [if_neg open', settled]
  dsimp only
  rw [if_pos ⟨decided, role, waited⟩, if_neg quiet, formPair_unpaired unpaired, pair_roleChange]

theorem pairselClaim_takeover {low k : Nat} (alive : s.pair.alive = true) (free : s.pair.hold = false) (taking : s.work.taking = some (k, 0))
    (long : 2400 ≤ low) : pairselClaim low s = takeover 0 s := by
  have open' : ¬((!s.pair.alive) = true ∨ s.pair.hold = true ∨ low < 2400) := by simp [alive, free, long]
  unfold pairselClaim
  rw [if_neg open', taking]
  exact if_neg fun h => absurd h.1 (by decide)

theorem pairselClaim_barred {low : Nat} (barred : s.pair.alive = false ∨ s.pair.hold = true ∨ low < 2400) : pairselClaim low s = s :=
  if_pos (by simpa using barred)

theorem demandRelease_idle (idle : s.pair.hold = false ∨ s.power.unit = 2) : demandRelease s = s := by
  refine if_neg fun h => ?_
  rcases idle with free | asleep
  · rw [free] at h
    exact Bool.false_ne_true h.1
  · exact h.2 asleep

theorem demandRelease_passive (held : s.pair.hold = true) (awake : s.power.unit ≠ 2) (passive : s.pair.role ≠ 1) :
    demandRelease s = roleChange (fun q => { q with hold := false, peerHold := true }) s := by
  unfold demandRelease
  rw [if_pos ⟨held, awake⟩, if_neg passive, if_neg passive]

/-- An ACTIVE device with a mirror yields its queues to the other. -/
theorem demandRelease_active (held : s.pair.hold = true) (awake : s.power.unit ≠ 2) (active : s.pair.role = 1) (armed : s.work.armed = true) :
    ∃ w, demandRelease s =
      unpair 6 { yieldQueues (roleChange (fun q => { q with hold := false, peerHold := true }) s) with work := w } := by
  unfold demandRelease
  rw [if_pos ⟨held, awake⟩, if_pos active, if_pos active, if_pos armed]
  exact ⟨_, rfl⟩

/-- The queues of a device that yields them are gone. -/
theorem queuesGone_demandRelease (held : s.pair.hold = true) (awake : s.power.unit ≠ 2) (active : s.pair.role = 1)
    (armed : s.work.armed = true) : QueuesGone (demandRelease s).host := by
  obtain ⟨w, eq⟩ := demandRelease_active held awake active armed
  rw [eq]
  refine queuesGone_unpair ?_
  dsimp only
  exact queuesGone_yieldQueues

/-! ### Links (R133, R665, R671, R802) -/

theorem port_cases (k : PortId) : k = 0 ∨ k = 1 :=
  match k with
  | 0 => .inl rfl
  | 1 => .inr rfl

/-- The state in which a link is trained. -/
def linkUp (k : PortId) (rx : Nat) (s : State) : State :=
  { s with pair := { s.pair with links := s.pair.links.set k true, rxSeq := rx } }

theorem batonUp_linkUp {k : PortId} {rx : Nat} : batonUp (linkUp k rx s) = true := by
  show ((s.pair.links.set k true)[(0 : Fin 2)] || (s.pair.links.set k true)[(1 : Fin 2)]) = true
  rw [getElem_set_slot, getElem_set_slot]
  rcases port_cases k with first | second
  · rw [if_pos first, Bool.true_or]
  · rw [if_pos second, Bool.or_true]

/-- What meeting a peer, and knowing it, leave of the pair. -/
theorem pair_peer : (peerKnown serial (meetPeer s)).pair.links = s.pair.links ∧ (peerKnown serial (meetPeer s)).pair.rxSeq = s.pair.rxSeq ∧
    (peerKnown serial (meetPeer s)).pair.hold = s.pair.hold ∧ (peerKnown serial (meetPeer s)).pair.epoch = s.pair.epoch ∧
    (peerKnown serial (meetPeer s)).pair.role = if s.pair.role = 0 then 3 else s.pair.role := by
  rw [pair_peerKnown, pair_meetPeer]
  split
  · exact ⟨rfl, rfl, rfl, rfl, rfl⟩
  · exact ⟨rfl, rfl, rfl, rfl, rfl⟩

/-- A peer met over a link for the first time is known by its serial number. -/
theorem peer_first (unknown : s.pair.peerSerial = []) (up : batonUp s = true) :
    (peerKnown serial (meetPeer s)).pair.peerSerial = serial ∧
    lastEvent (peerKnown serial (meetPeer s)) = some (0x4001, evData [.tail (unpad serial)]) := by
  have unknown' : (meetPeer s).pair.peerSerial = [] := by
    rw [pair_meetPeer]
    split <;> exact unknown
  rw [peerKnown_first unknown' (by rw [batonUp_meetPeer, up]), pair_raise]
  exact ⟨rfl, lastEvent_raise⟩

theorem batonSend_up {ty flags : Nat} (up : batonUp s = true) : batonSend ty flags body s =
    send (.baton (batonFrame ty flags s.pair.epoch (s.pair.txSeq + 1) s.pair.txCut body))
      { s with pair := { s.pair with txSeq := s.pair.txSeq + 1 } } := if_pos up

/-- The first link: the peer is met and known, and a PAIR_HELLO goes out. -/
theorem execBatonLinkTrained_first {k : PortId} (down : batonUp s = false) (awake : s.power.unit ≠ 2) :
    execBatonLinkTrained k serial s = .next (batonSend 2 0 (helloBody (linkUp k 0 s)) (peerKnown serial (meetPeer (linkUp k 0 s)))) := by
  have unlinked : ¬(s.pair.links[k] = true ∨ s.power.unit = 2) := by
    have both : s.pair.links[(0 : Fin 2)] = false ∧ s.pair.links[(1 : Fin 2)] = false := Bool.or_eq_false_iff.mp down
    rintro (up | asleep)
    · rcases port_cases k with rfl | rfl
      · exact Bool.false_ne_true (both.1.symm.trans up)
      · exact Bool.false_ne_true (both.2.symm.trans up)
    · exact awake asleep
  unfold execBatonLinkTrained
  rw [if_neg unlinked, down]
  rfl

theorem execBatonLinkTrained_second {k : PortId} (up : batonUp s = true) (unlinked : s.pair.links[k] = false) (awake : s.power.unit ≠ 2) :
    execBatonLinkTrained k serial s = .next (linkUp k s.pair.rxSeq s) := by
  unfold execBatonLinkTrained
  rw [if_neg (by rw [unlinked]; simp [awake]), up]
  rfl

theorem execBatonLinkTrained_idle {k : PortId} (idle : s.pair.links[k] = true ∨ s.power.unit = 2) :
    execBatonLinkTrained k serial s = .next s := if_pos idle

/-- One link is lost while the other stands. -/
theorem execBatonLinkLost_other {k j : PortId} (linked : s.pair.links[k] = true) (other : j ≠ k) (stands : s.pair.links[j] = true) :
    execBatonLinkLost k s =
      .next (raise 0x4009 [.u8 k.val] { s with pair := { s.pair with links := s.pair.links.set k false } }) := by
  have up : batonUp { s with pair := { s.pair with links := s.pair.links.set k false } } = true := by
    show ((s.pair.links.set k false)[(0 : Fin 2)] || (s.pair.links.set k false)[(1 : Fin 2)]) = true
    rw [getElem_set_slot, getElem_set_slot]
    rcases port_cases j with rfl | rfl
    · rw [if_neg other.symm, stands, Bool.true_or]
    · rw [if_neg other.symm, stands, Bool.or_true]
  unfold execBatonLinkLost
  rw [if_pos linked]
  exact congrArg _ (if_pos up)

/-! ### PAIR_HELLO (R668, R688) -/

/-- The state in which the sender of a PAIR_HELLO is met and known. -/
def helloMet (seq : Nat) (body : Bytes) (s : State) : State := peerKnown (slice body 6 12) (meetPeer (heardBaton s seq))

/-- The state in which a PAIR_HELLO that passes its checks waits for one of the two to hold PAIRSEL. -/
def helloPassed (seq : Nat) (body : Bytes) (s : State) : State :=
  { helloMet seq body s with pair := { (helloMet seq body s).pair with
      peerSerial := slice body 6 12, peerHold := decide (field body 34 1 = 1)
      hello := some (field body 35 4, field body 30 4, field body 39 8) } }

theorem exec_pairHello_heard {epoch seq cut : Nat} (heard : hearsBaton s s.pair.epoch seq body = true) (hepoch : epoch < 2 ^ 32) :
    exec (.pairHello (batonFrame 2 0 epoch seq cut body) side) s = .next (match helloReason s body side with
      | some r => unpair r (helloMet seq body s)
      | none => formPair (helloPassed seq body s)) := by
  obtain ⟨up, -, ⟨newer, hseq⟩, hbody⟩ := hearsBaton_iff.mp heard
  have same : helloReason (helloMet seq body s) body side = helloReason s body side :=
    helloReason_congr (keeps_peer.frame .fw (by decide))
  rw [exec_pairHello, batonReceive_hello up hepoch newer hseq hbody, ← same]
  rfl

/-- What a PAIR_HELLO leaves of the pair before its checks. -/
theorem pair_helloMet {seq : Nat} : (helloMet seq body s).pair.rxSeq = seq ∧ (helloMet seq body s).pair.hold = s.pair.hold ∧
    (helloMet seq body s).pair.epoch = s.pair.epoch ∧ (helloMet seq body s).pair.role ≠ 0 := by
  obtain ⟨-, rx, hold, epoch, role⟩ := pair_peer (s := heardBaton s seq) (serial := slice body 6 12)
  refine ⟨rx, hold, epoch, fun solo => ?_⟩
  rw [helloMet, role] at solo
  split at solo
  next => exact absurd solo (by decide)
  next met => exact met solo

/-- A PAIR_HELLO that passes forms the pair where one of the two holds PAIRSEL; else its hello is kept. -/
theorem formPair_helloPassed {seq : Nat} : (formPair (helloPassed seq body s)).pair.rxSeq = seq ∧
    (formPair (helloPassed seq body s)).pair.peerHold = decide (field body 34 1 = 1) ∧
    (s.pair.hold ≠ decide (field body 34 1 = 1) → (formPair (helloPassed seq body s)).pair.role = (if s.pair.hold then 1 else 2) ∧
      (formPair (helloPassed seq body s)).pair.epoch = max s.pair.epoch (field body 35 4) + 1 ∧
      (formPair (helloPassed seq body s)).pair.hello = none) ∧
    (s.pair.hold = decide (field body 34 1 = 1) →
      (formPair (helloPassed seq body s)).pair.hello = some (field body 35 4, field body 30 4, field body 39 8)) := by
  obtain ⟨rx, hold, epoch, met⟩ := pair_helloMet (s := s) (body := body) (seq := seq)
  have hold' : (helloPassed seq body s).pair.hold = s.pair.hold := hold
  have epoch' : (helloPassed seq body s).pair.epoch = s.pair.epoch := epoch
  by_cases even : s.pair.hold = decide (field body 34 1 = 1)
  · rw [formPair_waits (hold'.trans even)]
    exact ⟨rx, rfl, fun odd => absurd even odd, fun _ => rfl⟩
  · have formed := pair_formPair (s := helloPassed seq body s) rfl met (fun e => even (hold'.symm.trans e))
    rw [formed]
    exact ⟨rx, rfl, fun _ => ⟨by rw [hold'], by rw [epoch'], rfl⟩, fun e => absurd e even⟩

/-! ### Losses and refusals (R661, R675, R676, R678) -/

/-- A takeover that is refused leaves the device UNPAIRED with reason 7. -/
theorem execTakeoverRefused_late {k cause : Nat} (taking : s.work.taking = some (k, cause)) (late : passed s k 36000 = true) (own : cause ≠ 3) :
    execTakeoverRefused s = .next (raise 0x400A [.u32 s.pair.epoch] (unpair 7 (bump 0x2102 1 2 1 { s with
      work := { s.work with taking := none, drill := none }, pair := { s.pair with demand := false, peerHold := true } }))) := by
  unfold execTakeoverRefused
  rw [taking]
  dsimp only
  rw [if_pos late, if_neg own]

/-- Settles O52, happening by happening; the two long ones are a takeover without a mirror, which leaves every lane with a pickup in
FAULT, and a departure, after which nothing waits for an acknowledgement. -/
theorem pairFormsAndParts : Obligations.PairFormsAndParts := by
  simp only [Obligations.PairFormsAndParts, exec_soloTimeout, exec_peerArrived, exec_pairselClaim, exec_holdConflict, exec_demandRelease,
    exec_batonLinkTrained, exec_batonLinkLost, exec_peerDeparted, exec_aliveLoss, exec_heartbeatLoss, exec_takeoverRefused]
  refine ⟨?solo, ?decided, ?arrived, ?claims, ?takes, ?barred, ?conflict, ?noConflict, ?releases, ?yields, ?keeps, ?first, ?second, ?linked,
    ?lost, ?unlinked, ?departs, ?alone, ?refused, ?forms, ?alive, ?unalive, ?beats, ?beating, ?late, ?idle⟩
  case solo =>
    intro s undecided began noPeer down
    refine ⟨_, if_pos ⟨by simp [undecided], began, by simp [noPeer], by simp [down]⟩, pair_roleChange⟩
  case decided => exact fun s decided => if_neg fun h => by simp [decided] at h
  case arrived =>
    intro serial s down
    have down' : batonUp (meetPeer { s with pair := { s.pair with peerAlive := true } }) = false := batonUp_meetPeer.trans down
    refine ⟨_, rfl, ?_⟩
    rw [peerKnown_down down', pair_meetPeer]
  case claims =>
    intro low s alive free settled decided alone long waited
    exact ⟨_, rfl, pairselClaim_alone alive free settled decided alone long waited⟩
  case takes =>
    intro low k s alive free taking unarmed long
    have pair := pair_takeover_cold unarmed
    rw [pairselClaim_takeover alive free taking long]
    exact ⟨_, rfl, by rw [pair]; rfl, by rw [pair]; rfl, by rw [pair]; rfl, taking_takeover_cold unarmed, lastEvent_takeover_cold unarmed,
      fun n fitted => st_takeover_cold unarmed fitted⟩
  case barred => exact fun low s barred => congrArg _ (pairselClaim_barred barred)
  case conflict =>
    intro s held
    refine ⟨_, if_pos held, ?_⟩
    cases Sys2Proof.Config.side with
    | false => exact ⟨held, rfl⟩
    | true =>
      rw [if_pos rfl, pair_roleChange]
      exact ⟨rfl, rfl⟩
  case noConflict => exact fun s free => if_neg (Bool.eq_false_iff.mp free)
  case releases =>
    intro s held awake passive
    rw [demandRelease_passive held awake passive]
    exact ⟨_, rfl, pair_roleChange⟩
  case yields =>
    intro s held awake active armed
    have gone : QueuesGone (demandRelease s).host := queuesGone_demandRelease held awake active armed
    obtain ⟨w, eq⟩ := demandRelease_active held awake active armed
    rw [eq] at gone ⊢
    refine ⟨_, rfl, ?_, by rw [pair_unpair], by rw [pair_unpair], by rw [work_unpair], lastEvent_unpair, gone⟩
    rw [pair_unpair, pair_yieldQueues, pair_roleChange]
  case keeps => exact fun s idle => congrArg _ (demandRelease_idle idle)
  case first =>
    intro k serial s down awake
    obtain ⟨links, rx, hold, epoch, role⟩ := pair_peer (s := linkUp k 0 s) (serial := serial)
    have body : helloBody (peerKnown serial (meetPeer (linkUp k 0 s))) = helloBody (linkUp k 0 s) := helloBody_peer
    have named (unknown : s.pair.peerSerial = []) := peer_first (s := linkUp k 0 s) (serial := serial) unknown batonUp_linkUp
    have up : batonUp (peerKnown serial (meetPeer (linkUp k 0 s))) = true := (batonUp_congr links).trans batonUp_linkUp
    rw [execBatonLinkTrained_first down awake, batonSend_up up, ← body]
    generalize peerKnown serial (meetPeer (linkUp k 0 s)) = a at links rx role named
    refine ⟨_, rfl, links, rx, role, ?_, named⟩
    exact congrArg (fun b => some (Sent.baton (batonFrame 2 0 a.pair.epoch (a.pair.txSeq + 1) a.pair.txCut b)))
      (helloBody_congr rfl (liveCheck_congr rfl fun _ => rfl) rfl rfl rfl).symm
  case second =>
    intro k serial s up unlinked awake
    exact execBatonLinkTrained_second up unlinked awake
  case linked => exact fun k serial s idle => execBatonLinkTrained_idle idle
  case lost =>
    intro k j s linked other stands
    exact ⟨_, execBatonLinkLost_other linked other stands, pair_raise, lastEvent_raise⟩
  case unlinked => exact fun k s unlinked => if_neg (Bool.eq_false_iff.mp unlinked)
  case departs =>
    intro s known settled
    have gone := departed_peerDeparted known settled
    exact ⟨_, rfl, gone.role, gone.serial, gone.hello, by rw [gone.work], by rw [gone.work], by rw [gone.work]⟩
  case alone => exact fun s unknown solo => congrArg _ (if_pos ⟨by rw [unknown]; rfl, solo⟩)
  case refused =>
    intro epoch seq cut body side r s heard hepoch fails
    rw [exec_pairHello_heard heard hepoch, fails]
    refine ⟨_, rfl, by rw [pair_unpair], by rw [pair_unpair], ?_, by rw [work_unpair], lastEvent_unpair⟩
    rw [pair_unpair]
    exact pair_helloMet.1
  case forms =>
    intro epoch seq cut body side s heard hepoch
    rw [exec_pairHello_heard heard hepoch]
    cases fails : helloReason s body side with
    | some r =>
      refine ⟨_, rfl, ?_, fun passes => nomatch passes⟩
      rw [pair_unpair]
      exact pair_helloMet.1
    | none =>
      obtain ⟨rx, rest⟩ := formPair_helloPassed (s := s) (body := body) (seq := seq)
      exact ⟨_, rfl, rx, fun _ => rest⟩
  case alive =>
    intro s standby heard settled
    exact ⟨_, if_pos ⟨standby, by simp [heard], by simp [settled]⟩, rfl, rfl⟩
  case unalive =>
    intro s other
    exact ⟨_, if_neg fun h => other h.1, rfl, rfl⟩
  case beats =>
    intro s standby heard settled late
    exact ⟨_, if_pos ⟨standby, by simp [heard], by simp [settled], late⟩, rfl, rfl⟩
  case beating =>
    intro s fresh
    refine if_neg fun h => ?_
    rcases fresh with other | early
    · exact other h.1
    · exact Bool.false_ne_true (early.symm.trans h.2.2.2)
  case late =>
    intro k cause s taking late own
    refine ⟨_, execTakeoverRefused_late taking late own, ?_, ?_, ?_, ?_, ?_, lastEvent_raise⟩ <;> simp
  case idle =>
    intro s settled
    unfold execTakeoverRefused
    rw [settled]

end Sys2Proof.Machine
end

section
/-! PROOFS. The reset state, and two statements on a lane's way to PARKED and to FAULT that fail (R146, R154). -/

namespace Sys2Proof.Machine

/-! ### The state after reset -/

theorem inv_reset : Inv State.reset where
  mem := by decide
  log := Nat.zero_le _
  dict := fun i x opened => by
    have closed : ∀ i : Fin 8, State.reset.dict.sessions[i] = none := by decide
    cases (closed i).symm.trans opened

/-- Settles O3: each part evaluated on the reset state. -/
theorem invAtReset : Obligations.InvAtReset :=
  ⟨inv_reset, rfl, by decide, rfl, rfl, by decide, rfl, rfl⟩

/-! ### Homing from an engaged gear (R154, R469, R484) -/

/-- A lane homing against its stop with the gear engaged and a cascade of one step: 128 units of 1/128 step. -/
def homingGeared : State :=
  Tests.laneWith 6 fun l => { l with
    life := { l.life with homing := true }
    sled := { l.sled with homeSteps := 16, loads := [512, 0, 0, 0, 0, 0, 0, 0, 0], geared := true, c := 128 } }

/-- PARKED opens tracking, which folds the cascade into the set-point that homing has just put on its coordinate (R469, R484). -/
theorem homingStall_geared_position : (laneAt (homingStall 6 homingGeared) 6).sled.p = 65536 * -256 + 1 := by decide

/-- Refutes O24: the stall of a lane whose gear is engaged leaves the set-point beside the coordinate, by the cascade folded in
when PARKED opens tracking. -/
theorem not_homingAndTemperature : ¬ Obligations.HomingAndTemperature := by
  rintro ⟨stall, -⟩
  obtain ⟨t, ran, -, -, -, position⟩ := stall 6 homingGeared (by decide) (by decide)
  cases ran
  exact absurd (homingStall_geared_position.symm.trans position) (by decide)

/-! ### A fault at a completion ring beyond its size (R146, log 73) -/

/-- A READY lane whose ring holds 65 results, one more than it takes. -/
def readyOverfull : State :=
  { Tests.up with lanes := (Tests.laneWith 6 fun l => { l with
      life := { l.life with st := .ready }
      flt := { l.flt with completions := List.replicate 65 (.stride 0 0) } }).lanes }

/-- The ring puts out one result only for the fault of the disable, is cut at 64, and so loses the fault: none is collected. -/
theorem disable_readyOverfull_state :
    (laneAt (putEntry (.nvme 0) (laneIdx 6 0x01) 1 [0] readyOverfull) 6).life.st = .ready := by decide

/-- Refutes O32: the disable of a lane above PARKED does not bring it to FAULT where the completion ring, beyond its size, loses
the fault posted for it. -/
theorem not_laneModeEnableAndReset : ¬ Obligations.LaneModeEnableAndReset := by
  rintro ⟨-, -, -, -, -, disable, -⟩
  obtain ⟨t, ran, fault, -, -⟩ := disable (.nvme 0) 6 readyOverfull (by decide) (by decide) (by decide) (by decide)
  cases ran
  exact absurd (disable_readyOverfull_state.symm.trans fault) (by decide)

end Sys2Proof.Machine
end

section
/-! PROOFS. Spin-up and the arrival at speed (R72, R73, R144, R438, R708). -/

namespace Sys2Proof.Machine

variable {s t : State} {n m : LaneId}

/-! ### Orders at their boundary, and what an operation keeps of a lane's life -/

/-- An operation that changes neither the state nor the rest of a lane's life. -/
theorem LK.life {q : List LanePart} (k : LK n q s t) (st : LanePart.st ∉ q) (rest : LanePart.life ∉ q) :
    (laneAt t n).life = (laneAt s n).life := by
  have same : (laneAt t n).life = { (laneAt s n).life with st := (laneAt t n).life.st } := k.part rest
  rw [same, k.part st]

/-- A lane's change of state: its state, the one before and the time, and nothing else of the lane. -/
theorem lane_enter (n : LaneId) (x : LaneState) (s : State) : ∃ (p : LaneState) (c : Nat), laneAt (enter n x s) n =
    { laneAt s n with life := { (laneAt s n).life with st := x, prev := p, changed := c } } := by
  unfold enter
  rw [laneAt_setLane]
  split
  next same => exact ⟨_, _, by rw [← same]⟩
  next => exact ⟨_, _, rfl⟩

/-- An order posted in a lane's ring and taken up at once. -/
def orderTaken (n : LaneId) (o : Order) (s : State) : State := takeOrder n o (postOrder n o (collect n s))

/-- A ring with room takes the order, and it is carried out at once (R37). -/
theorem orderNow_of_room {o : Order} {f : State → State} (room : (laneAt s n).flt.orders.length < 64) :
    orderNow n o f s = f (orderTaken n o s) := by
  have posted : (laneAt (postOrder n o (collect n s)) n).flt.orders = (laneAt s n).flt.orders ++ [o] := by
    simp only [postOrder, collect, laneAt_setLane]
    exact List.take_of_length_le (by simp; omega)
  unfold orderNow orderTaken
  rw [if_pos (by rw [posted]; simp)]

theorem lk_orderTaken (n : LaneId) (o : Order) (s : State) : LK n [.flt] s (orderTaken n o s) :=
  lk_takeOrder (List.Subset.refl _) (lk_postOrder (List.Subset.refl _) (lk_collect (List.Subset.refl _) (.refl n _ s)))

theorem keeps_orderTaken (n : LaneId) (o : Order) (s : State) : Keeps [.lanes] s (orderTaken n o s) :=
  keeps_takeOrder (List.Subset.refl _) (keeps_postOrder (List.Subset.refl _) (keeps_collect (List.Subset.refl _) (.refl _ s)))

/-! ### Spin-up -/

theorem exec_spinUp (n : LaneId) (s : State) : exec (.spinUp n) s = .next (spinUp n s) := rfl

theorem spinUp_of_mayNot (not : maySpin s n = false) : spinUp n s = s := by simp [spinUp, not]

/-- A lane above PARKED does not spin up. -/
theorem maySpin_of_st (st : (laneAt s n).life.st ≠ .parked) : maySpin s n = false := by simp [maySpin, st]

theorem spinUp_starts (may : maySpin s n = true) (rests : (laneAt s n).life.spinning = false)
    (free : starting s (segOf n) < cfg s 0x2200 6) (room : (laneAt s n).flt.orders.length < 64) :
    spinUp n s = beginStart n (orderTaken n .spin (raiseSupply n s)) := by
  have goes : (maySpin s n && (!(laneAt s n).life.spinning || (laneAt s n).startWaiting)) = true := by simp [may, rests]
  unfold spinUp
  rw [if_pos goes, if_pos free]
  exact orderNow_of_room (s := raiseSupply n s) room

theorem spinUp_waits (may : maySpin s n = true) (rests : (laneAt s n).life.spinning = false)
    (full : cfg s 0x2200 6 ≤ starting s (segOf n)) :
    spinUp n s = setLane n (fun l => { l with startWaiting := true, life := { l.life with spinning := true } }) s := by
  have goes : (maySpin s n && (!(laneAt s n).life.spinning || (laneAt s n).startWaiting)) = true := by simp [may, rests]
  unfold spinUp
  rw [if_pos goes, if_neg (Nat.not_lt.mpr full)]

/-- The next start of a segment leaves the state and the spindle of a lane above PARKED. -/
theorem lane_nextStart {g : SegId} (st : (laneAt s n).life.st ≠ .parked) : laneAt (nextStart g s) n = laneAt s n := by
  unfold nextStart
  split
  case h_1 k _ =>
    by_cases own : n = k
    · rw [← own, spinUp_of_mayNot (maySpin_of_st st)]
    · exact (lk_spinUp (n := k) (List.Subset.refl _) (.refl k _ s)).others n own
  case h_2 => rfl

/-! ### The arrival at speed -/

theorem exec_atSpeed (n : LaneId) (s : State) : exec (.atSpeed n) s = .next (atSpeed n s) := rfl

/-- A lane that enters SPUN has ended its start; its spindle is as it was. -/
theorem enterSpun_lane : (laneAt (enterSpun n s) n).life.st = .spun ∧ (laneAt (enterSpun n s) n).life.spinning = false ∧
    (laneAt (enterSpun n s) n).spin = (laneAt s n).spin := by
  unfold enterSpun
  extract_lets s1
  have ended : LK n [.warm] s s1 := .ite
    (lk_partResult (List.Subset.refl _) (lk_setWarm (List.Subset.refl _) (.refl n _ s))) (.refl n _ s)
  clear_value s1
  set s2 : State := setLane n (fun l => { l with life := { l.life with spinning := false } })
    { s1 with power := { s1.power with spinAfter := s1.power.spinAfter.filter (fun k => decide (k ≠ n)) } }
  obtain ⟨p, c, entered⟩ := lane_enter n .spun s2
  have spin : (laneAt s2 n).spin = (laneAt s1 n).spin := by rw [laneAt_setLane]; rfl
  have stopped : (laneAt s2 n).life.spinning = false := by rw [laneAt_setLane]
  rw [lane_nextStart (by rw [st_enter]; decide), entered]
  exact ⟨rfl, stopped, spin.trans (ended.part (x := .spin) (by decide))⟩

theorem atSpeed_arrives (phase : (laneAt s n).spin.phase = 3) (near : 480 ≤ (laneAt s n).spin.near)
    (fresh : (laneAt s n).spin.atSpeed = false) (parked : (laneAt s n).life.st = .parked)
    (spinning : (laneAt s n).life.spinning = true) (covered : needMv s 0 ≤ s.coreMv) :
    atSpeed n s = enterSpun n (setLane n (fun l => { l with spin := { l.spin with atSpeed := true } }) s) := by
  simp [atSpeed, phase, near, fresh, parked, spinning, covered]

/-- A core supply below the need holds a starting lane in PARKED (R72, R73). -/
theorem atSpeed_of_uncovered (parked : (laneAt s n).life.st = .parked) (spinning : (laneAt s n).life.spinning = true)
    (short : s.coreMv < needMv s 0) : atSpeed n s = s := by
  simp [atSpeed, parked, spinning, short]

/-- Settles O28: the start is an order taken up at its boundary; the arrival starts only other lanes. -/
theorem lanesStartAndGetToSpeed : Obligations.LanesStartAndGetToSpeed := by
  refine ⟨fun n s may rests free room => ?_, fun n s may rests full => ?_, fun n s not => ?_,
    fun n s phase near fresh parked spinning covered => ?_, fun n s parked spinning short => ?_⟩
  · rw [exec_spinUp, spinUp_starts may rests free room]
    exact ⟨_, rfl, by simp [beginStart]⟩
  · rw [exec_spinUp, spinUp_waits may rests full]
    exact ⟨_, rfl, by simp, by simp⟩
  · rw [exec_spinUp, spinUp_of_mayNot not]
  · rw [exec_atSpeed, atSpeed_arrives phase near fresh parked spinning covered]
    obtain ⟨st, started, spin⟩ := enterSpun_lane (n := n)
      (s := setLane n (fun l => { l with spin := { l.spin with atSpeed := true } }) s)
    exact ⟨_, rfl, st, by rw [spin]; simp, started⟩
  · rw [exec_atSpeed, atSpeed_of_uncovered parked spinning short]

end Sys2Proof.Machine
end

section
/-! PROOFS. The ramp-down, and what a lane becomes at rest (R144, R145, R147, R174, R444). -/

namespace Sys2Proof.Machine

variable {s t : State} {n m : LaneId}

/-! ### The axes of the loops (R387, R469, R484) -/

@[simp] theorem closed_foldCascade : (laneAt (foldCascade n s) n).loop.closed = (laneAt s n).loop.closed := by
  simp [foldCascade]

@[simp] theorem closed_gearDisengage : (laneAt (gearDisengage n s) n).loop.closed = (laneAt s n).loop.closed := by
  unfold gearDisengage
  split <;> simp

@[simp] theorem closed_openTracking :
    (laneAt (openTracking n s) n).loop.closed = #v[(laneAt s n).loop.closed[0], false, false] := by
  simp [openTracking]

@[simp] theorem closed_openFocus : (laneAt (openFocus n s) n).loop.closed = Vector.replicate 3 false := by
  simp only [openFocus, closed_openTracking, laneAt_setLane]
  rfl

@[simp] theorem closed_strideStart : (laneAt (strideStart n s) n).loop.closed = (laneAt s n).loop.closed := by
  simp [strideStart]

/-- A stride taken moves the sled only: every axis stays as it is. -/
@[simp] theorem closed_strideAccept {r : Stride} :
    (laneAt (strideAccept n r s) n).loop.closed = (laneAt s n).loop.closed := by
  have dropped (q : List Stride) : (laneAt (strideDrop n 2 q s) n).loop = (laneAt s n).loop :=
    (lk_strideDrop (Lq := [.flt, .sled]) (List.Subset.refl _) (.refl n _ s)).part (x := .loop) (by decide)
  have refused : (laneAt (strideComplete n { r with status := 8 } s) n).loop = (laneAt s n).loop :=
    (lk_strideComplete (List.Subset.refl _) (.refl n _ s)).part (x := .loop) (by decide)
  unfold strideAccept
  split
  · rw [refused]
  · extract_lets d s1
    split
    · simp [dropped]
    · split
      · simp
      · split <;> simp [s1]

/-! ### The ramp-down (R147) -/

@[simp] theorem stopping_shortBrake : (laneAt (shortBrake n s) n).spin.stopping = true := by simp [shortBrake]

/-- What a ramp-down leaves of a lane: the loops open, no start, no place, and the spindle stopping where it turns. -/
structure RampsDown (n : LaneId) (s t : State) : Prop where
  life : (laneAt t n).life = { (laneAt s n).life with
    ramping := decide ((laneAt s n).spin.phase ≠ 0), spinning := false, layer := none, band := none, jump := none }
  closed : (laneAt t n).loop.closed = Vector.replicate 3 false
  stopping : (laneAt t n).spin.stopping = decide ((laneAt s n).spin.phase ≠ 0)
  atRest : (laneAt s n).spin.phase = 0 → (laneAt t n).spin.phase = 0

theorem rampsDown_rampStart (n : LaneId) (park : Bool) (s : State) : RampsDown n s (rampStart n park s) := by
  unfold rampStart
  extract_lets turning s1 s2 zero s3
  have opened : LK n [.loop, .sled] s s1 := lk_openFocus (List.Subset.refl _) (.refl n _ s)
  have moved : LK n [.flt, .loop, .sled] s2 s3 := .ite (lk_strideAccept (List.Subset.refl _) (.refl n _ s2)) (.refl n _ s2)
  have life1 : (laneAt s1 n).life = (laneAt s n).life := opened.life (by decide) (by decide)
  have phase1 : (laneAt s1 n).spin.phase = (laneAt s n).spin.phase := congrArg _ (opened.part (x := .spin) (by decide))
  have spin3 : (laneAt s3 n).spin = (laneAt s2 n).spin := moved.part (x := .spin) (by decide)
  have closed3 : (laneAt s3 n).loop.closed = Vector.replicate 3 false := by
    have closed2 : (laneAt s2 n).loop.closed = Vector.replicate 3 false := by simp [s2, s1]
    cases park <;> simp [s3, closed2]
  have phase3 : (laneAt s3 n).spin.phase = (laneAt s n).spin.phase := by rw [spin3, laneAt_setLane]; exact phase1
  have ramps3 : RampsDown n s s3 :=
    { life := by rw [moved.life (by decide) (by decide), laneAt_setLane]; simp only [life1]; rfl
      closed := closed3
      stopping := by rw [spin3, laneAt_setLane]
      atRest := fun rests => phase3.trans rests }
  split
  · exact ramps3
  next turns =>
    have braked := lk_shortBrake (n := n) (List.Subset.refl _) (.refl n _ s3)
    have moves : (laneAt s n).spin.phase ≠ 0 := by simp [turning] at turns; tauto
    exact
      { life := (braked.life (by decide) (by decide)).trans ramps3.life
        closed := by rw [braked.part (x := .loop) (by decide)]; exact closed3
        stopping := by simp [moves]
        atRest := fun rests => absurd rests moves }

/-- What goes before a ramp-down in the lane's rings does not show in it. -/
theorem RampsDown.of_lk {u : State} (k : LK n [.flt] s u) (h : RampsDown n u t) : RampsDown n s t := by
  have life : (laneAt u n).life = (laneAt s n).life := k.life (by decide) (by decide)
  have spin : (laneAt u n).spin = (laneAt s n).spin := k.part (x := .spin) (by decide)
  obtain ⟨h1, h2, h3, h4⟩ := h
  rw [life, spin] at h1
  rw [spin] at h3 h4
  exact ⟨h1, h2, h3, h4⟩

/-- The park order at its boundary (R35, R37). -/
theorem rampsDown_rampOrder (room : (laneAt s n).flt.orders.length < 64) : RampsDown n s (rampOrder n s) := by
  unfold rampOrder
  rw [orderNow_of_room room]
  exact (rampsDown_rampStart n true _).of_lk (lk_orderTaken n .park s)

theorem exec_idleParkTimeout (n : LaneId) (s : State) : exec (.idleParkTimeout n) s =
    (if mayRamp (laneAt s n) ∧ (laneAt s n).life.st = .ready ∧ modeOf s n = 0 ∧ !demanded s n ∧
        passed s (laneAt s n).life.idle (secTicks (lcfg s n 0x01 3)) then .next (rampOrder n s) else .next s) := rfl

theorem exec_rampDown (n : LaneId) (s : State) : exec (.rampDown n) s =
    (if mayRamp (laneAt s n) ∧ rampCause s n then .next (rampOrder n s) else .next s) := rfl

/-! ### At rest (R144, R174, R444) -/

/-- A disc announced becomes known with its lead-in unread; nothing else of the lane changes. -/
theorem lane_announceDisc (n : LaneId) (s : State) : ∃ (k : Bool) (r : LeadInState), laneAt (announceDisc n s) n =
    { laneAt s n with life := { (laneAt s n).life with discKnown := k, leadIn := r } } := by
  unfold announceDisc
  dsimp only
  split
  · rw [laneAt_raise, setLife, laneAt_setLane]
    exact ⟨_, _, rfl⟩
  · exact ⟨_, _, rfl⟩

/-- A lane that enters PARKED: no ramp-down runs, and its spindle is no longer stopping. -/
theorem lane_enterParked (n : LaneId) (s : State) : (laneAt (enterParked n s) n).life.st = .parked ∧
    (laneAt (enterParked n s) n).life.ramping = false ∧
    (laneAt (enterParked n s) n).spin = { (laneAt s n).spin with stopping := false, wobbleValid := false } := by
  have opened := lk_openFocus (List.Subset.refl _) (.refl n _ s)
  unfold enterParked
  set s1 := dropClose n (setLane n _ (openFocus n s)) with s1_eq
  obtain ⟨p, c, entered⟩ := lane_enter n .parked s1
  obtain ⟨k, r, announced⟩ := lane_announceDisc n (enter n .parked s1)
  have spin : (laneAt (openFocus n s) n).spin = (laneAt s n).spin := opened.part (x := .spin) (by decide)
  rw [announced, entered]
  refine ⟨rfl, ?_, ?_⟩
  · simp [s1_eq, dropClose, setDisc]
  · simp [s1_eq, dropClose, setDisc, spin]

/-- A lane that enters OFF. -/
theorem st_enterOff : (laneAt (enterOff n s) n).life.st = .off := st_enter

@[simp] theorem laneAt_unstore {i k : Nat} : laneAt (unstore i k s) n = laneAt s n := rfl

theorem lane_resetLane (n : LaneId) (s : State) : (laneAt (resetLane n s) n).life.st = .off ∧
    (laneAt (resetLane n s) n).flt = FaultRec.reset ∧ (laneAt (resetLane n s) n).life.pickup = none := by
  unfold resetLane
  extract_lets s1 cleared s2
  have kept : LK n [.wr] (enterOff n s) s1 := lk_dropRefresh (List.Subset.refl _) (.refl n _ _)
  have st : (laneAt s1 n).life.st = .off := (kept.part (x := .st) (by decide)).trans st_enterOff
  clear_value s1
  rw [laneAt_endWaits, laneAt_unstore]
  simp only [s2, laneAt_setLane]
  exact ⟨st, trivial, trivial⟩

/-- The bridge floats and the spindle is recorded at rest (R421, R444). -/
def floatAtRest (n : LaneId) (s : State) : State :=
  setLane n (fun l => { l with spin := { l.spin with stopping := false, omega := 0, ref := 0 } }) (floatBridge n 0 s)

theorem lane_floatAtRest (n : LaneId) (s : State) : laneAt (floatAtRest n s) n = { laneAt s n with
    spin := (laneAt (floatAtRest n s) n).spin } ∧ (laneAt (floatAtRest n s) n).spin.phase = 0 ∧
    (laneAt (floatAtRest n s) n).spin.mode = 0 := by
  simp [floatAtRest, floatBridge]

/-- A spindle at rest leaves what makes a lane's OFF due as it is. -/
theorem offDue_floatAtRest : offDue (floatAtRest n s) n = offDue s n := by
  obtain ⟨lane, -, -⟩ := lane_floatAtRest n s
  have enabled : lcfg (floatAtRest n s) n 0x01 1 = lcfg s n 0x01 1 := by
    unfold floatAtRest floatBridge
    rw [lcfg_setLane rfl, lcfg_setLane rfl]
  unfold offDue
  rw [lane, enabled]

theorem exec_shortBrakeRest (n : LaneId) (s : State) : exec (.shortBrakeRest n) s =
    (if (laneAt s n).spin.phase = 5 ∧ 48 * lcfg s n 0x84 4 ≤ (laneAt s n).spin.quiet then .next (atRest n (floatAtRest n s))
     else .next s) := rfl

theorem atRest_resetting (resetting : (laneAt s n).flt.resetting = true) :
    atRest n s = resetLane n (if (laneAt s n).life.st = .fault then s else enterParked n s) := by
  unfold atRest
  rw [if_pos resetting]

theorem atRest_parks (up : (laneAt s n).life.st ≠ .off) (whole : (laneAt s n).life.st ≠ .fault)
    (kept : (laneAt s n).flt.resetting = false) (stays : offDue s n = false) : atRest n s = enterParked n s := by
  simp [atRest, up, whole, kept, stays]

/-- Settles O31: every ramp-down is the park order carried out at once, and a rotor at rest ends in PARKED, or in the reset that
waited for it. -/
theorem lanesParkAndRest : Obligations.LanesParkAndRest := by
  refine ⟨fun n s may ready auto idle room long => ?_, fun n s due => ?_, fun n s may cause room => ?_, fun n s none => ?_,
    fun n s phase quiet up whole kept stays => ?_, fun n s phase quiet resetting => ?_⟩
  · rw [exec_idleParkTimeout, if_pos ⟨may, ready, auto, by rw [idle]; rfl, long⟩]
    have ramps := rampsDown_rampOrder room
    exact ⟨_, rfl, by rw [ramps.life], ramps.closed, ramps.stopping⟩
  · rw [exec_idleParkTimeout, if_neg (by simp [due])]
  · rw [exec_rampDown, if_pos ⟨may, cause⟩]
    have ramps := rampsDown_rampOrder room
    exact ⟨_, rfl, by rw [ramps.life], ramps.closed, ramps.stopping⟩
  · rw [exec_rampDown, if_neg (by simp [none])]
  · obtain ⟨lane, rests, floats⟩ := lane_floatAtRest n s
    rw [exec_shortBrakeRest, if_pos ⟨phase, quiet⟩,
      atRest_parks (by rwa [lane]) (by rwa [lane]) (by rwa [lane]) (offDue_floatAtRest.trans stays)]
    obtain ⟨st, ramping, spin⟩ := lane_enterParked n (floatAtRest n s)
    exact ⟨_, rfl, st, by rw [spin]; exact rests, by rw [spin]; exact floats, ramping⟩
  · obtain ⟨lane, -, -⟩ := lane_floatAtRest n s
    rw [exec_shortBrakeRest, if_pos ⟨phase, quiet⟩, atRest_resetting (by rwa [lane])]
    exact ⟨_, rfl, lane_resetLane n _⟩

end Sys2Proof.Machine
end

section
/-! PROOFS. Training of the DRIVE and LASER links (R154, R785, R794, R808, R839). -/

namespace Sys2Proof.Machine

variable {s t : State} {n m : LaneId} {laser : Bool}

theorem lastEvent_of_log (log : t.log = s.log) : lastEvent t = lastEvent s := by unfold lastEvent; rw [log]

/-! ### What the trainings do to a lane -/

/-- The links of a lane one of whose trainings has come about. -/
def linkCome (laser : Bool) (tick : Nat) (k : Links) : Links :=
  if laser then { k with laserTraining := false, laserTrained := true, retrainAt := none, laserBad := 0, laserSeen := tick }
  else { k with driveTraining := false, driveTrained := true, retrainAt := none, driveBad := 0, driveSeen := tick }

/-- The links of a lane one of whose trainings begins. -/
def linkBegun (laser : Bool) (tick : Nat) (k : Links) : Links :=
  if laser then { k with laserTraining := true, laserTrained := false, laserFrom := tick }
  else { k with driveTraining := true, driveTrained := false, driveFrom := tick }

theorem links_startTraining : (laneAt (startTraining n laser s) n).links = linkBegun laser s.ticks (laneAt s n).links := by
  unfold startTraining
  extract_lets s1
  have begun : (laneAt s1 n).links = linkBegun laser s.ticks (laneAt s n).links := by
    simp only [s1, laneAt_lbump, setLinks, laneAt_setLane]
    rfl
  split
  · have sent : laneAt (sendTraining n s1) n = laneAt s1 n :=
      laneAt_of (keeps_sendTraining (List.Subset.refl _) (.refl _ s1)) (by decide) n
    rw [sent, begun]
  · exact begun

theorem log_startTraining : (startTraining n laser s).log = s.log :=
  (keeps_startTraining (List.Subset.refl _) (.refl _ s)).frame .log (by decide)

theorem links_homeIfTrained : (laneAt (homeIfTrained n s) n).links = (laneAt s n).links :=
  (lk_homeIfTrained (List.Subset.refl _) (.refl n _ s)).part (x := .links) (by decide)

theorem log_homeIfTrained : (homeIfTrained n s).log = s.log :=
  (keeps_homeIfTrained (List.Subset.refl _) (.refl _ s)).frame .log (by decide)

/-- A lane of which both links are trained, and that may leave OFF, homes. -/
theorem homeIfTrained_homes (may : mayLeaveOff s n = true) (drive : (laneAt s n).links.driveTrained = true)
    (laser : (laneAt s n).links.laserTrained = true) (rests : (laneAt s n).life.homing = false) :
    homeIfTrained n s = beginHoming n s := by
  simp [homeIfTrained, may, drive, laser, rests]

theorem homing_beginHoming : (laneAt (beginHoming n s) n).life.homing = true ∧ (laneAt (beginHoming n s) n).life.homed = false := by
  simp [beginHoming]

theorem lcfg_setLinks {f : Links → Links} {i k : Nat} : lcfg (setLinks n f s) m i k = lcfg s m i k := by
  unfold setLinks
  rw [lcfg_setLane rfl]

/-- A lane may leave OFF by its life, its fault and its pickup, not by its links. -/
theorem mayLeaveOff_setLinks {f : Links → Links} : mayLeaveOff (setLinks n f s) n = mayLeaveOff s n := by
  unfold mayLeaveOff
  rw [lcfg_setLinks, setLinks, laneAt_setLane]
  rfl

theorem mayLeaveOff_raise {code : Nat} {l : List EvField} : mayLeaveOff (raise code l s) n = mayLeaveOff s n := by
  have power : (raise code l s).power = s.power := keeps_raise (List.Subset.refl _) (.refl _ s) |>.frame .power (by decide)
  have enabled : lcfg (raise code l s) n 0x01 1 = lcfg s n 0x01 1 := cfg_raise
  unfold mayLeaveOff
  rw [laneAt_raise, enabled, power]

/-! ### A training that comes about -/

/-- The lane with its link up and the event of it. -/
def linkRecorded (n : LaneId) (laser : Bool) (s : State) : State :=
  raise 0x1802 [.u8 n.val, .u8 (b2n laser), .u32 (tickNs (s.ticks -
      (if laser then (laneAt s n).links.laserFrom else (laneAt s n).links.driveFrom)) / 1000)]
    (setLinks n (linkCome laser s.ticks) s)

theorem lane_linkRecorded (n : LaneId) (laser : Bool) (s : State) : laneAt (linkRecorded n laser s) n =
    { laneAt s n with links := linkCome laser s.ticks (laneAt s n).links } := by
  simp [linkRecorded, setLinks]

theorem exec_linkTrainingDone : exec (.linkTrainingDone n laser) s = .next (linkTrainingDone n laser s) := rfl

theorem linkTrainingDone_untrained
    (idle : (if laser then (laneAt s n).links.laserTraining else (laneAt s n).links.driveTraining) = false) :
    linkTrainingDone n laser s = s := by
  unfold linkTrainingDone
  rw [if_neg (by rw [idle]; decide)]

theorem linkTrainingDone_eq (n : LaneId) (laser : Bool) (s : State) : linkTrainingDone n laser s =
    if (if laser then (laneAt s n).links.laserTraining else (laneAt s n).links.driveTraining) then
      if (laneAt (linkRecorded n laser s) n).life.st = .fault then
        if (laneAt (linkRecorded n laser s) n).flt.recovering && recoveryStands (linkRecorded n laser s) n then
          recoveryGoes n (linkRecorded n laser s)
        else linkRecorded n laser s
      else homeIfTrained n (linkRecorded n laser s)
    else s := by
  unfold linkTrainingDone linkRecorded linkCome
  with_reducible rfl

/-- A lane outside FAULT homes, once both links are trained, after the link has been recorded. -/
theorem linkTrainingDone_homes
    (training : (if laser then (laneAt s n).links.laserTraining else (laneAt s n).links.driveTraining) = true)
    (whole : (laneAt s n).life.st ≠ .fault) : linkTrainingDone n laser s = homeIfTrained n (linkRecorded n laser s) := by
  have st : (laneAt (linkRecorded n laser s) n).life.st ≠ .fault := by rw [lane_linkRecorded]; exact whole
  rw [linkTrainingDone_eq, if_pos training, if_neg st]

/-! ### A training that does not come about -/

/-- The links of a lane one of whose trainings has been given up. -/
def linkStopped (laser : Bool) (k : Links) : Links :=
  if laser then { k with laserTraining := false } else { k with driveTraining := false }

/-- The links of a lane with one training more counted. -/
def linkTried (laser : Bool) (k : Links) : Links :=
  if laser then { k with laserTries := k.laserTries + 1 } else { k with driveTries := k.driveTries + 1 }

theorem exec_linkTrainingTimeout : exec (.linkTrainingTimeout n laser) s = .next (linkTrainingTimeout n laser s) := rfl

theorem linkTrainingTimeout_untrained
    (idle : (if laser then (laneAt s n).links.laserTraining else (laneAt s n).links.driveTraining) = false) :
    linkTrainingTimeout n laser s = s := by
  unfold linkTrainingTimeout
  rw [if_neg (by rw [idle]; simp)]

section
variable (training : (if laser then (laneAt s n).links.laserTraining else (laneAt s n).links.driveTraining) = true)
  (long : passed s (if laser then (laneAt s n).links.laserFrom else (laneAt s n).links.driveFrom) (msTicks 1) = true)
include training long

theorem linkTrainingTimeout_again (whole : (laneAt s n).life.st ≠ .fault)
    (few : (if laser then (laneAt s n).links.laserTries else (laneAt s n).links.driveTries) < 3) :
    linkTrainingTimeout n laser s = startTraining n laser (setLinks n (linkTried laser) (setLinks n (linkStopped laser) s)) := by
  unfold linkTrainingTimeout
  rw [if_pos (by rw [training, long]; rfl), if_neg whole, if_pos few]
  rfl

theorem linkTrainingTimeout_ends (whole : (laneAt s n).life.st ≠ .fault)
    (many : 3 ≤ (if laser then (laneAt s n).links.laserTries else (laneAt s n).links.driveTries)) :
    linkTrainingTimeout n laser s = raise 0x1003 [.u8 n.val, .u8 (if laser then 6 else 5)] (setLinks n (linkStopped laser) s) := by
  unfold linkTrainingTimeout
  rw [if_pos (by rw [training, long]; rfl), if_neg whole, if_neg (Nat.not_lt.mpr many)]
  rfl

theorem linkTrainingTimeout_counts (fault : (laneAt s n).life.st = .fault) :
    linkTrainingTimeout n laser s =
      countAttempt n (setLinks n (fun k => { k with retrainAt := some s.ticks }) (setLinks n (linkStopped laser) s)) := by
  unfold linkTrainingTimeout
  rw [if_pos (by rw [training, long]; rfl), if_pos fault]
  rfl

end

/-- A counted attempt is the newest of those in the window, latched or not (R171 to R173). -/
theorem attempts_countAttempt : (laneAt (countAttempt n s) n).flt.attempts = s.ticks :: attemptsNow s n := by
  by_cases limit : lcfg s n 0x02 4 ≤ (attemptsNow s n).length
  · exact (countAttempt_latches limit).2
  · unfold countAttempt
    dsimp only
    rw [if_neg (by rw [List.length_cons]; omega), laneAt_setLane]

theorem links_countAttempt : (laneAt (countAttempt n s) n).links = (laneAt s n).links :=
  (lk_countAttempt (List.Subset.refl _) (.refl n _ s)).part (x := .links) (by decide)

theorem attemptsNow_setLinks {f : Links → Links} : attemptsNow (setLinks n f s) n = attemptsNow s n := by
  unfold attemptsNow
  rw [lcfg_setLinks, setLinks, laneAt_setLane]
  rfl

theorem linkRetrainRetry_begins {t0 : Nat} (ended : (laneAt s n).links.retrainAt = some t0) (fault : (laneAt s n).life.st = .fault)
    (unlatched : (laneAt s n).flt.latched = false)
    (down : (if laser then !(laneAt s n).links.laserTrained && !(laneAt s n).links.laserTraining
      else !(laneAt s n).links.driveTrained && !(laneAt s n).links.driveTraining) = true)
    (long : passed s t0 (msTicks 100) = true) :
    exec (.linkRetrainRetry n laser) s = .next (startTraining n laser (setLinks n (fun k => { k with retrainAt := none }) s)) := by
  change execLinkRetrainRetry n laser s = _
  unfold execLinkRetrainRetry
  dsimp only
  rw [ended]
  exact if_pos ⟨fault, by rw [unlatched]; rfl, down, long⟩

/-- Settles O23: each command by what the lane's links and state make of it; what follows a recorded link, a homing or a ramp-down,
leaves the links and the log alone. -/
theorem linksTrainAndRetry : Obligations.LinksTrainAndRetry := by
  refine ⟨fun n laser s training whole => ?_, fun n s training drive may rests => ?_,
    fun n laser s training whole long few => ?_, fun n laser s training whole long many => ?_,
    fun n laser s training fault long => ?_, fun n laser s idle => ?_,
    fun n laser t0 s ended fault unlatched driveDown driveIdle laserDown laserIdle long => ?_⟩
  · rw [exec_linkTrainingDone, linkTrainingDone_homes training whole]
    refine ⟨_, rfl, ?_, ?_, ?_⟩
    · rw [links_homeIfTrained, lane_linkRecorded]
      cases laser <;> rfl
    · rw [links_homeIfTrained, lane_linkRecorded]
      cases laser <;> rfl
    · rw [lastEvent_of_log log_homeIfTrained]
      exact lastEvent_raise
  · have off : (laneAt s n).life.st ≠ .fault := by
      intro fault
      simp [mayLeaveOff, fault] at may
    have lane := lane_linkRecorded n true s
    rw [exec_linkTrainingDone, linkTrainingDone_homes (laser := true) training off,
      homeIfTrained_homes (by rw [linkRecorded, mayLeaveOff_raise, mayLeaveOff_setLinks, may]) (by rw [lane]; exact drive)
        (by rw [lane]; rfl) (by rw [lane]; exact rests)]
    exact ⟨_, rfl, homing_beginHoming⟩
  · rw [exec_linkTrainingTimeout, linkTrainingTimeout_again training long whole few]
    refine ⟨_, rfl, log_startTraining, ?_, ?_⟩
    · rw [links_startTraining]
      cases laser <;> rfl
    · rw [links_startTraining]
      cases laser <;> simp [setLinks, linkBegun, linkTried, linkStopped]
  · rw [exec_linkTrainingTimeout, linkTrainingTimeout_ends training long whole many]
    refine ⟨_, rfl, ?_, lastEvent_raise⟩
    cases laser <;> simp [setLinks, linkStopped]
  · rw [exec_linkTrainingTimeout, linkTrainingTimeout_counts training long fault]
    refine ⟨_, rfl, ?_, ?_⟩
    · rw [links_countAttempt]
      simp [setLinks]
    · rw [attempts_countAttempt, attemptsNow_setLinks, attemptsNow_setLinks]
      rfl
  · rw [exec_linkTrainingTimeout, exec_linkTrainingDone, linkTrainingTimeout_untrained idle, linkTrainingDone_untrained idle]
    exact ⟨rfl, rfl⟩
  · rw [linkRetrainRetry_begins ended fault unlatched (by simp [driveDown, driveIdle, laserDown, laserIdle]) long]
    refine ⟨_, rfl, ?_, ?_⟩
    · rw [links_startTraining]
      cases laser <;> simp [setLinks, linkBegun]
    · rw [links_startTraining]
      cases laser <;> rfl

end Sys2Proof.Machine
end

section
/-! PROOFS. What stands on a lane through a fault: its lines, its pickup, its disc, and a spindle at rest (R146, R150, R168). Presence
line, pickup acceptance and departure (R150 to R152). -/

namespace Sys2Proof.Machine

variable {s t : State} {n m : LaneId} {code : Nat} {at' : LaneState}

/-! ### What is fitted in a lane -/

/-- The lines of a lane, its pickup, and whether its disc is known. -/
def Life.fittings (l : Life) : Line × Line × Line × Option Pickup × Bool := (l.presence, l.disc, l.clamp, l.pickup, l.discKnown)

/-- From `s` to `t` what is fitted in a lane stands, and a spindle at rest stays at rest. -/
structure Fit (n : LaneId) (s t : State) : Prop where
  fittings : (laneAt t n).life.fittings = (laneAt s n).life.fittings
  rests : (laneAt s n).spin.phase = 0 → (laneAt t n).spin.phase = 0

theorem Fit.refl (n : LaneId) (s : State) : Fit n s s := ⟨rfl, id⟩

theorem Fit.trans {u : State} (h : Fit n s t) (k : Fit n t u) : Fit n s u :=
  ⟨k.fittings.trans h.fittings, fun rests => k.rests (h.rests rests)⟩

theorem Fit.of_laneAt (h : laneAt t n = laneAt s n) : Fit n s t := ⟨by rw [h], by rw [h]; exact id⟩

theorem Fit.of_lk {q : List LanePart} (k : LK n q s t) (life : .life ∉ q) (spin : .spin ∉ q) : Fit n s t where
  fittings := by
    have same : (laneAt t n).life = { (laneAt s n).life with st := (laneAt t n).life.st } := k.part life
    rw [same]
    rfl
  rests := by
    have same : (laneAt t n).spin = (laneAt s n).spin := k.part spin
    rw [same]
    exact id

/-- A change of the lane that leaves its fittings and its spindle. -/
theorem Fit.set {f : Lane → Lane} (fittings : (f (laneAt s n)).life.fittings = (laneAt s n).life.fittings)
    (spin : (f (laneAt s n)).spin = (laneAt s n).spin) : Fit n s (setLane n f s) := by
  constructor <;> rw [laneAt_setLane]
  · exact fittings
  · rw [spin]
    exact id

theorem Fit.pickup (h : Fit n s t) : (laneAt t n).life.pickup = (laneAt s n).life.pickup :=
  congrArg (fun f => f.2.2.2.1) h.fittings

theorem Fit.disc (h : Fit n s t) : (laneAt t n).life.disc = (laneAt s n).life.disc := congrArg (fun f => f.2.1) h.fittings

theorem Fit.discKnown (h : Fit n s t) : (laneAt t n).life.discKnown = (laneAt s n).life.discKnown :=
  congrArg (fun f => f.2.2.2.2) h.fittings

theorem Fit.foldl {α : Type} {f : State → α → State} (each : ∀ a x, Fit n a (f a x)) (l : List α) : Fit n s (l.foldl f s) := by
  induction l generalizing s with
  | nil => exact .refl n s
  | cons x l ih => exact (each s x).trans ih

theorem fit_enter {x : LaneState} : Fit n s (enter n x s) := by
  obtain ⟨p, c, entered⟩ := lane_enter n x s
  constructor <;> rw [entered]
  · rfl
  · exact id

theorem fit_endHoming : Fit n s (setLane n endHoming s) := .set (by unfold endHoming; split <;> rfl) (endHoming_keeps _).1

/-! ### Warm-ups and creations -/

theorem fit_setWarm {f : WarmUp → WarmUp} : Fit n s (setWarm n f s) := .set rfl rfl

theorem fit_leaveHold : Fit n s (leaveHold n s) := by
  unfold leaveHold
  split
  · exact (Fit.set rfl rfl).trans fit_enter
  · exact .refl n s

theorem fit_partResult {part : Nat} : Fit n s (partResult n part code s) :=
  .of_lk (lk_partResult (List.Subset.refl _) (.refl n _ s)) (by decide) (by decide)

theorem fit_warmEnd : Fit n s (warmEnd n s) := by
  have spin : (laneAt (warmEnd n s) n).spin = (laneAt s n).spin :=
    (lk_warmEnd (List.Subset.refl _) (.refl n _ s)).part (x := .spin) (by decide)
  refine ⟨?_, by rw [spin]; exact id⟩
  have left (f : WarmUp → WarmUp) : (laneAt (leaveHold n (setWarm n f s)) n).life.fittings = (laneAt s n).life.fittings :=
    (fit_setWarm.trans fit_leaveHold).fittings
  unfold warmEnd
  dsimp only
  split_ifs <;> simp [life_setWarm, life_setWr, laneAt_endWaits, left]

theorem fit_warmCut : Fit n s (warmCut n s) := by
  unfold warmCut
  extract_lets w s0 again
  split
  · exact ((fit_setWarm.trans fit_partResult).trans fit_setWarm).trans (fit_warmEnd.trans fit_setWarm)
  · exact fit_setWarm

/-- From `s` to `t` a lane stands but for the identity of its disc (L+05). -/
def Identified (n : LaneId) (s t : State) : Prop := ∃ r v c i, laneAt t n =
  { laneAt s n with life := { (laneAt s n).life with leadIn := r, volume := v, discCount := c, discIndex := i } }

theorem Identified.of_laneAt (same : laneAt t n = laneAt s n) : Identified n s t := ⟨_, _, _, _, same⟩

theorem Identified.trans {u : State} (h : Identified n s t) (k : Identified n t u) : Identified n s u := by
  obtain ⟨r, v, c, i, h⟩ := h
  obtain ⟨r', v', c', i', k⟩ := k
  exact ⟨r', v', c', i', by rw [k, h]⟩

theorem Identified.foldl {α : Type} {f : State → α → State} (each : ∀ a x, Identified n a (f a x)) (l : List α) :
    Identified n s (l.foldl f s) := by
  induction l generalizing s with
  | nil => exact .of_laneAt rfl
  | cons x l ih => exact (each s x).trans ih

theorem Identified.fit (h : Identified n s t) : Fit n s t := by
  obtain ⟨r, v, c, i, h⟩ := h
  constructor <;> rw [h]
  · rfl
  · exact id

theorem identified_takeIdentity {rec : Bytes} : Identified n s (takeIdentity m rec s) := by
  unfold takeIdentity
  by_cases own : n = m
  · subst own
    rw [Identified, laneAt_setLane]
    exact ⟨_, _, _, _, rfl⟩
  · exact .of_laneAt (laneAt_setLane_other own)

/-- A creation that ends early identifies discs and evaluates the team (R163). -/
theorem identified_abortCreationOf : Identified n s (abortCreationOf m s) := by
  unfold abortCreationOf
  split
  · unfold abortCreation
    split
    · exact .of_laneAt rfl
    · refine .trans (.of_laneAt laneAt_setTeam) (.foldl (fun a k => ?_) _)
      exact .trans (identified_takeIdentity (m := k)) (.of_laneAt (laneAt_evaluateTeam.trans laneAt_raiseIdentified))
  · exact .of_laneAt rfl

/-! ### Ramp-downs and faults -/

theorem RampsDown.fit (h : RampsDown n s t) : Fit n s t := ⟨by rw [h.life]; rfl, h.atRest⟩

/-- From `s` to `t` a ramp-down at most has begun: a lane's life stands but for its motion and its place, and a spindle at rest
stays at rest. -/
structure MayRampDown (n : LaneId) (s t : State) : Prop where
  life : (laneAt t n).life = (laneAt s n).life ∨ ∃ r, (laneAt t n).life =
    { (laneAt s n).life with ramping := r, spinning := false, layer := none, band := none, jump := none }
  rests : (laneAt s n).spin.phase = 0 → (laneAt t n).spin.phase = 0

theorem RampsDown.may (h : RampsDown n s t) : MayRampDown n s t := ⟨.inr ⟨_, h.life⟩, h.atRest⟩

theorem MayRampDown.fit (h : MayRampDown n s t) : Fit n s t := by
  refine ⟨?_, h.rests⟩
  obtain life | ⟨r, life⟩ := h.life
  · rw [life]
  · rw [life]
    rfl

theorem MayRampDown.leadIn (h : MayRampDown n s t) : (laneAt t n).life.leadIn = (laneAt s n).life.leadIn := by
  obtain life | ⟨r, life⟩ := h.life <;> rw [life]

theorem MayRampDown.layer (h : MayRampDown n s t) (lost : (laneAt s n).life.layer = none) : (laneAt t n).life.layer = none := by
  obtain life | ⟨r, life⟩ := h.life <;> rw [life]
  exact lost

theorem MayRampDown.of_lk {q : List LanePart} (k : LK n q s t) (st : .st ∉ q) (life : .life ∉ q) (spin : .spin ∉ q) :
    MayRampDown n s t where
  life := .inl (k.life st life)
  rests := (Fit.of_lk k life spin).rests

/-- A full ring may not take the park order, and then no ramp-down begins (log 73). -/
theorem mayRampDown_rampOrder : MayRampDown n s (rampOrder n s) := by
  have posted : LK n [.flt] s (postOrder n .park (collect n s)) :=
    lk_postOrder (List.Subset.refl _) (lk_collect (List.Subset.refl _) (.refl n _ s))
  unfold rampOrder orderNow
  dsimp only
  split
  · exact ((rampsDown_rampStart n true _).of_lk (lk_takeOrder (o := .park) (List.Subset.refl _) posted)).may
  · exact .of_lk posted (by decide) (by decide) (by decide)

theorem mayRampDown_rampIfTurning : MayRampDown n s (rampIfTurning n s) := by
  unfold rampIfTurning
  dsimp only
  split
  · exact .of_lk (.refl n [] s) (by decide) (by decide) (by decide)
  · exact mayRampDown_rampOrder

theorem fit_shortBrake (turns : (laneAt s n).spin.phase ≠ 0) : Fit n s (shortBrake n s) := by
  refine ⟨?_, fun rests => absurd rests turns⟩
  rw [(lk_shortBrake (List.Subset.refl _) (.refl n _ s)).life (by decide) (by decide)]

/-- The response of the spindle to a fault leaves one at rest there (R169). -/
theorem fit_faultSpindle : Fit n s (faultSpindle n code s) := by
  unfold faultSpindle
  split_ifs with brakes rests
  · exact .refl n s
  · exact fit_shortBrake rests
  · exact .refl n s
  · exact (rampsDown_rampStart n false s).fit
  · exact (rampsDown_rampStart n true s).fit
  · exact .refl n s

theorem fit_detectFault : Fit n s (detectFault n code s) := by
  unfold detectFault
  extract_lets st s1 s2 s3
  have safe : Fit n s s1 := (Fit.set rfl rfl).trans (.of_laneAt laneAt_safeLaser)
  have stopped : Fit n s1 s2 := .of_lk (lk_sledStop (List.Subset.refl _) (.refl n _ s1)) (by decide) (by decide)
  have opened : LK n [.loop, .sled] s2 s3 := .ite (lk_openFocus (List.Subset.refl _) (.refl n _ s2))
    (.ite (lk_openTracking (List.Subset.refl _) (.refl n _ s2)) (.refl n _ s2))
  have posted {u : State} : Fit n u (postCompletion n (.fault code st) u) :=
    .of_lk (lk_postCompletion (List.Subset.refl _) (.refl n _ u)) (by decide) (by decide)
  exact ((safe.trans stopped).trans (.of_lk opened (by decide) (by decide))).trans (fit_faultSpindle.trans posted)

/-- A lost rotor aside, a fault detected leaves a spindle at rest there. -/
theorem fit_detectCode (other : code ≠ 0x1104) : Fit n s (detectCode n code s) := by
  unfold detectCode
  dsimp only
  rw [if_neg other]
  exact (Fit.set rfl rfl).trans fit_detectFault

theorem fit_latchFault : Fit n s (latchFault n code s) := by
  rw [latchFault]
  exact (Fit.set rfl rfl).trans (.of_laneAt (laneAt_latchEnds.trans laneAt_raise))

theorem fit_countAttempt : Fit n s (countAttempt n s) := by
  unfold countAttempt
  extract_lets l s1
  have counted : Fit n s s1 := .set rfl rfl
  split
  · exact (counted.trans mayRampDown_rampIfTurning.fit).trans fit_latchFault
  · exact counted

theorem fit_enterFault : Fit n s (enterFault n code at' s) := by
  unfold enterFault
  extract_lets s' l re low again s1 s2
  have entered : Fit n s s1 := (fit_endHoming.trans (Fit.set rfl rfl)).trans (fit_enter.trans (.of_laneAt laneAt_raise))
  have dropped : Fit n s1 (dropExtents n s1) := .of_lk (lk_dropExtents (List.Subset.refl _) (.refl n _ s1)) (by decide) (by decide)
  have ended : Fit n s s2 :=
    (entered.trans dropped).trans (identified_abortCreationOf.fit.trans ((Fit.of_laneAt laneAt_beginWaits).trans fit_warmCut))
  clear_value s2
  split_ifs
  · exact (ended.trans mayRampDown_rampIfTurning.fit).trans (.of_laneAt laneAt_latchEnds)
  · exact ended.trans fit_latchFault
  · exact ended.trans fit_countAttempt
  · exact ended

theorem fit_laneFault : Fit n s (laneFault n s) := by
  have collected : Fit n s (collect n s) := .of_lk (lk_collect (List.Subset.refl _) (.refl n _ s)) (by decide) (by decide)
  unfold laneFault
  extract_lets s0 l
  split
  · exact collected
  · extract_lets s1
    have taken : Fit n s s1 := collected.trans (.set rfl rfl)
    split
    · exact taken.trans fit_enterFault
    · exact (taken.trans (.set rfl rfl)).trans (.of_laneAt laneAt_raise)

theorem fit_collectFaults (k : Nat) : ∀ s, Fit n s (collectFaults n k s) := by
  induction k with
  | zero => exact .refl n
  | succ k ih => exact fun s => fit_laneFault.trans (ih _)

theorem fit_faultNow (other : code ≠ 0x1104) : Fit n s (faultNow n code s) := (fit_detectCode other).trans (fit_collectFaults _ _)

/-! ### Presence (R146, R150) -/

theorem exec_presenceChange (n : LaneId) (s : State) : exec (.presenceChange n) s = .next (presenceChange n s) := rfl

theorem presenceChange_unsettled (young : (laneAt s n).life.presence.settled s.ticks = false) : presenceChange n s = s := by
  simp [presenceChange, young]

/-- A presence line that has settled, taken over. -/
def presenceTaken (n : LaneId) (s : State) : State :=
  setLife n (fun f => { f with presence := { f.presence with stable := f.presence.raw } }) s

section
variable (awake : s.power.unit ≠ 2) (settled : (laneAt s n).life.presence.settled s.ticks = true)
include awake settled

theorem presenceChange_arrives (raw : (laneAt s n).life.presence.raw = true) :
    presenceChange n s = setLife n (fun f => { f with arriving := true }) (presenceTaken n s) := by
  unfold presenceChange
  dsimp only
  rw [if_pos ⟨awake, settled⟩, if_pos raw]
  rfl

theorem presenceChange_departs (raw : (laneAt s n).life.presence.raw = false) :
    presenceChange n s = pickupDeparted n (presenceTaken n s) := by
  unfold presenceChange
  dsimp only
  rw [if_pos ⟨awake, settled⟩, if_neg (by rw [raw]; decide)]
  rfl

end

/-- A lane without a pickup does not leave OFF. -/
theorem leaveOff_of_noPickup (gone : (laneAt s n).life.pickup = none) : leaveOff n s = s := by
  simp [leaveOff, mayLeaveOff, gone]

/-- A lane that enters OFF keeps what is fitted in it. -/
theorem fit_enterOff : Fit n s (enterOff n s) := by
  unfold enterOff
  refine .trans (.trans (.trans (.set ?_ ?_) (.of_lk (lk_openFocus (List.Subset.refl _) (.refl n _ _)) (by decide) (by decide)))
    (.of_lk (lk_dropClose (List.Subset.refl _) (.refl n _ _)) (by decide) (by decide))) fit_enter
  · rfl
  · exact (endHoming_keeps _).1

/-- OFF leaves the links and the record of the pickup's life as they are. -/
theorem lanePart_enterOff : (laneAt (enterOff n s) n).links = (laneAt s n).links ∧
    (laneAt (enterOff n s) n).plife = (laneAt s n).plife := by
  have kept := lk_enterOff (List.Subset.refl _) (.refl n _ s)
  exact ⟨kept.part (x := .links) (by decide), kept.part (x := .plife) (by decide)⟩

/-- The lane without its pickup, as the departure leaves it before OFF. -/
def withoutPickup (l : Lane) : Lane :=
  { endHoming l with
    life := { l.life with arriving := false, pickup := none, spinning := false, homing := false }
    links := { Links.reset with driveSelected := l.links.driveSelected, laserSelected := l.links.laserSelected, lastCause := l.links.lastCause }
    plife := PickupLife.reset, startWaiting := false }

/-- What a departure does before the pickup is gone: above PARKED, fault 110D. -/
def departFault (n : LaneId) (s : State) : State := if abovePark (laneAt s n).life.st then faultNow n 0x110D s else s

theorem fit_departFault : Fit n s (departFault n s) := by
  unfold departFault
  split
  · exact fit_faultNow (by decide)
  · exact .refl n s

/-- A pickup that leaves a lane whose spindle is at rest brings the lane to OFF at once. -/
theorem pickupDeparted_atRest {p : Pickup} (fitted : (laneAt s n).life.pickup = some p) (rests : (laneAt s n).spin.phase = 0) :
    pickupDeparted n s =
      raise 0x1002 [.u8 n.val, .tail (unpad p.serial)] (enterOff n (setLane n withoutPickup (departFault n s))) := by
  have still : (laneAt (setLane n withoutPickup (departFault n s)) n).spin.phase = 0 := by
    rw [laneAt_setLane]
    exact (congrArg Spindle.phase (endHoming_keeps _).1).trans (fit_departFault.rests rests)
  have gone : (laneAt (enterOff n (setLane n withoutPickup (departFault n s))) n).life.pickup = none := by
    rw [fit_enterOff.pickup, laneAt_setLane]
    rfl
  have off : offAtRest n (setLane n withoutPickup (departFault n s)) = enterOff n (setLane n withoutPickup (departFault n s)) := by
    unfold offAtRest
    rw [if_pos still, leaveOff_of_noPickup gone]
  unfold pickupDeparted
  dsimp only
  rw [fitted, ← off]
  rfl

/-! ### Acceptance (R151, R152) -/

theorem exec_pickupAccept {r : IdRead} : exec (.pickupAccept n r) s = .next (pickupAccept n r s) := rfl

/-- The lane whose ID memory is being read is no longer arriving. -/
def arrived (n : LaneId) (s : State) : State := setLife n (fun f => { f with arriving := false }) s

/-- Whether an ID memory is sound rests on it and on the bank library. -/
theorem idReason_arrived (b : Bytes) : idReason (arrived n s) b = idReason s b := by
  have library : librarySlot (arrived n s) (field b 6 2) = librarySlot s (field b 6 2) := by
    unfold librarySlot arrived setLife
    simp only [cfg_setLane]
  unfold idReason
  rw [library]

section
variable (arriving : (laneAt s n).life.arriving = true)
include arriving

theorem pickupAccept_noAnswer : pickupAccept n .noAnswer s = raise 0x1003 [.u8 n.val, .u8 1] (arrived n s) := by
  unfold pickupAccept
  rw [if_pos arriving]
  rfl

theorem pickupAccept_read {b : Bytes} {temp : Int} : pickupAccept n (.read b temp) s =
    (match idReason s b with
      | some k => raise 0x1003 [.u8 n.val, .u8 k] (arrived n s)
      | none => takePickup n b temp (arrived n s)) := by
  rw [← idReason_arrived (n := n), pickupAccept, if_pos arriving]
  rfl

end

theorem lane_arrived : laneAt (arrived n s) n = { laneAt s n with life := { (laneAt s n).life with arriving := false } } := by
  rw [arrived, setLife, laneAt_setLane]

theorem life_startTraining {laser : Bool} : (laneAt (startTraining n laser s) n).life = (laneAt s n).life :=
  (lk_startTraining (List.Subset.refl _) (.refl n _ s)).life (by decide) (by decide)

/-- From `s` to `t` a lane's life stands but for its homing. -/
def LivesOn (n : LaneId) (s t : State) : Prop := ∃ h k, (laneAt t n).life = { (laneAt s n).life with homing := h, homed := k }

theorem LivesOn.of_life {u : State} (same : (laneAt t n).life = (laneAt s n).life) (k : LivesOn n t u) : LivesOn n s u := by
  unfold LivesOn
  rw [← same]
  exact k

theorem livesOn_homeIfTrained : LivesOn n s (homeIfTrained n s) := by
  unfold homeIfTrained
  dsimp only
  split
  · exact ⟨true, false, by rw [beginHoming, laneAt_setLane]⟩
  · exact ⟨_, _, rfl⟩

/-- The trainings and the homing with which a lane leaves OFF are all that they change of its life. -/
theorem livesOn_leaveOff : LivesOn n s (leaveOff n s) := by
  unfold leaveOff
  split
  · extract_lets k s1 s2
    have life2 : (laneAt s2 n).life = (laneAt s n).life := by
      have life1 : (laneAt s1 n).life = (laneAt s n).life := by simp [s1, setLinks]
      simp only [s2]
      split
      · exact life1
      · rw [life_startTraining, life1]
    clear_value s2
    split
    · exact livesOn_homeIfTrained.of_life life2
    · exact livesOn_homeIfTrained.of_life (life_startTraining.trans life2)
  · exact ⟨_, _, rfl⟩

theorem log_leaveOff : (leaveOff n s).log = s.log := (keeps_leaveOff (List.Subset.refl _) (.refl _ s)).frame .log (by decide)

/-- An accepted pickup is recorded with its temperature; what follows on a lane that may leave OFF is its links and homing. -/
theorem takePickup_records {b : Bytes} {temp : Int} :
    (laneAt (takePickup n b temp s) n).life.pickup = some { serial := slice b 8 16, cls := field b 6 2, image := b } ∧
    (laneAt (takePickup n b temp s) n).life.temp = temp ∧
    lastEvent (takePickup n b temp s) = some (0x1001, evData [.u8 n.val, .tail (unpad (slice b 8 16))]) := by
  unfold takePickup
  extract_lets trims cleared fresh s1
  obtain ⟨h, k, left⟩ := livesOn_leaveOff (n := n)
    (s := raise 0x1001 [.u8 n.val, .tail (unpad (slice b 8 16))] (loadBanks n (field b 6 2) s1))
  have banks : (laneAt (loadBanks n (field b 6 2) s1) n).life = (laneAt s1 n).life :=
    (lk_loadBanks (List.Subset.refl _) (.refl n _ s1)).life (by decide) (by decide)
  have taken : (laneAt s1 n).life = { (laneAt s n).life with
      pickup := some { serial := slice b 8 16, cls := field b 6 2, image := b }, temp := temp } := by
    simp only [s1, laneAt_setLane]
  clear_value s1
  refine ⟨?_, ?_, by rw [lastEvent_of_log log_leaveOff, lastEvent_raise]⟩ <;> rw [left, laneAt_raise, banks, taken]

/-- Settles O22: a departure meets a spindle at rest, which fault 110D leaves there, so that OFF comes at once; an acceptance is
decided by the ID memory. -/
theorem pickupComesAndGoes : Obligations.PickupComesAndGoes := by
  refine ⟨fun n p d c s awake => ?_, fun n s young => ?_, fun n s awake settled raw => ?_,
    fun n p s awake settled raw rests fitted => ?_, fun n s arriving => ?_, fun n b temp k s arriving reason => ?_,
    fun n b temp s arriving sound => ?_⟩
  · have sampled : exec (.presenceSample n p d c) s = .next (setLife n (fun f => { f with
        presence := f.presence.sample s.ticks p, disc := f.disc.sample s.ticks d, clamp := f.clamp.sample s.ticks c }) s) :=
      if_neg awake
    rw [sampled]
    exact ⟨_, rfl, by simp [setLife], by simp [setLife], by simp [setLife], by simp [setLife]⟩
  · rw [exec_presenceChange, presenceChange_unsettled young]
  · rw [exec_presenceChange, presenceChange_arrives awake settled raw]
    exact ⟨_, rfl, by simp [setLife], by simp [setLife, presenceTaken, raw]⟩
  · have taken : laneAt (presenceTaken n s) n = { laneAt s n with life := { (laneAt s n).life with
        presence := { (laneAt s n).life.presence with stable := (laneAt s n).life.presence.raw } } } := by
      rw [presenceTaken, setLife, laneAt_setLane]
    rw [exec_presenceChange, presenceChange_departs awake settled raw,
      pickupDeparted_atRest (p := p) (by rw [taken]; exact fitted) (by rw [taken]; exact rests)]
    refine ⟨_, rfl, ?_, ?_, ?_, ?_, lastEvent_raise⟩
    · rw [laneAt_raise, fit_enterOff.pickup, laneAt_setLane]
      rfl
    · rw [laneAt_raise, st_enterOff]
    · rw [laneAt_raise, lanePart_enterOff.1, laneAt_setLane]
      rfl
    · rw [laneAt_raise, lanePart_enterOff.2, laneAt_setLane]
      rfl
  · rw [exec_pickupAccept, pickupAccept_noAnswer arriving]
    exact ⟨_, rfl, by simp [lane_arrived], by simp [lane_arrived], lastEvent_raise⟩
  · rw [exec_pickupAccept, pickupAccept_read arriving, reason]
    exact ⟨_, rfl, by simp [lane_arrived], by simp [lane_arrived], lastEvent_raise⟩
  · rw [exec_pickupAccept, pickupAccept_read arriving, sound]
    exact ⟨takePickup n b temp (arrived n s), rfl, takePickup_records⟩

end Sys2Proof.Machine
end

section
/-! PROOFS. Disc status and the lead-in read (R156 to R158). -/

namespace Sys2Proof.Machine

variable {s t : State} {n m : LaneId}

theorem laneAt_evaluateLane : laneAt (evaluateLane m s) n = laneAt s n :=
  laneAt_of (keeps_evaluateLane (List.Subset.refl _) (.refl _ s)) (by decide) n

/-! ### Disc status (R150, R156) -/

theorem exec_discStatusChange (n : LaneId) (s : State) : exec (.discStatusChange n) s = .next (discStatusChange n s) := rfl

/-- A line whose change has settled is taken over. -/
def Line.taken (tick : Nat) (x : Line) : Line := if x.settled tick then { x with stable := x.raw } else x

theorem Line.stable_taken_settled {tick : Nat} {x : Line} (settled : x.settled tick = true) : (x.taken tick).stable = x.raw := by
  simp [Line.taken, settled]

/-- A line that has settled at a level was stable at the other. -/
theorem Line.stable_of_settled {tick : Nat} {x : Line} (settled : x.settled tick = true) : x.stable = !x.raw := by
  have changed : x.raw ≠ x.stable := by
    intro same
    simp [Line.settled, same] at settled
  cases hr : x.raw <;> cases hs : x.stable <;> simp_all

/-- The disc lines of a lane taken over where they have settled. -/
def linesTaken (n : LaneId) (s : State) : State :=
  setLife n (fun f => { f with disc := f.disc.taken s.ticks, clamp := f.clamp.taken s.ticks }) s

theorem lane_linesTaken (n : LaneId) (s : State) : laneAt (linesTaken n s) n = { laneAt s n with
    life := { (laneAt s n).life with
      disc := (laneAt s n).life.disc.taken s.ticks, clamp := (laneAt s n).life.clamp.taken s.ticks } } := by
  rw [linesTaken, setLife, laneAt_setLane]

/-- A lane whose disc line has settled is clamped by the line's level and by its clamp. -/
theorem clamped_linesTaken (settled : (laneAt s n).life.disc.settled s.ticks = true) : clamped (laneAt (linesTaken n s) n) =
    ((laneAt s n).life.disc.raw && ((laneAt s n).life.clamp.taken s.ticks).stable) := by
  unfold clamped
  rw [lane_linesTaken]
  dsimp only
  rw [Line.stable_taken_settled settled]

theorem discStatusChange_unsettled (disc : (laneAt s n).life.disc.settled s.ticks = false)
    (clamp : (laneAt s n).life.clamp.settled s.ticks = false) : discStatusChange n s = s := by
  simp [discStatusChange, disc, clamp]

section
variable (awake : s.power.unit ≠ 2) (settled : (laneAt s n).life.disc.settled s.ticks = true)
include awake settled

theorem discStatusChange_eq : discStatusChange n s =
    (if clamped (laneAt s n) && !clamped (laneAt (linesTaken n s) n) then discDeparted n (linesTaken n s)
     else if clamped (laneAt (linesTaken n s) n) && !clamped (laneAt s n) then
       let s2 := setLane n (fun l => { l with disc := some Disc.fresh }) (linesTaken n s)
       if (laneAt s2 n).life.st = .off then s2 else announceDisc n s2
     else linesTaken n s) := by
  unfold discStatusChange
  dsimp only
  rw [if_pos ⟨awake, by rw [settled]; rfl⟩]
  rfl

/-- A disc line that settles high on a clamped lane brings a disc (R156). -/
theorem discStatusChange_arrives (raw : (laneAt s n).life.disc.raw = true)
    (still : (laneAt s n).life.clamp.settled s.ticks = false) (clamp : (laneAt s n).life.clamp.stable = true)
    (up : (laneAt s n).life.st ≠ .off) :
    discStatusChange n s = announceDisc n (setLane n (fun l => { l with disc := some Disc.fresh }) (linesTaken n s)) := by
  have before : clamped (laneAt s n) = false := by simp [clamped, Line.stable_of_settled settled, raw]
  have after : clamped (laneAt (linesTaken n s) n) = true := by simp [clamped_linesTaken settled, raw, Line.taken, still, clamp]
  have stands : (laneAt (setLane n (fun l => { l with disc := some Disc.fresh }) (linesTaken n s)) n).life.st ≠ .off := by
    rw [laneAt_setLane, lane_linesTaken]
    exact up
  rw [discStatusChange_eq awake settled, before, after]
  exact if_neg stands

theorem discStatusChange_departs (raw : (laneAt s n).life.disc.raw = false) (clamp : (laneAt s n).life.clamp.stable = true) :
    discStatusChange n s = discDeparted n (linesTaken n s) := by
  have before : clamped (laneAt s n) = true := by simp [clamped, Line.stable_of_settled settled, raw, clamp]
  have after : clamped (laneAt (linesTaken n s) n) = false := by simp [clamped_linesTaken settled, raw]
  rw [discStatusChange_eq awake settled, before, after]
  exact if_pos rfl

end

theorem announceDisc_announces (clamps : clamped (laneAt s n) = true) (fresh : (laneAt s n).life.discKnown = false) :
    announceDisc n s = raise 0x2001 [.u8 n.val] (setLife n (fun f => { f with discKnown := true, leadIn := .unread }) s) := by
  unfold announceDisc
  exact if_pos ⟨clamps, by rw [fresh]; rfl⟩

/-! ### A disc that departs -/

theorem lane_forgetDisc (n : LaneId) (s : State) : (laneAt (forgetDisc n s) n).disc = none ∧
    (laneAt (forgetDisc n s) n).life.discKnown = false ∧ (laneAt (forgetDisc n s) n).life.disc = (laneAt s n).life.disc := by
  have dropped : (laneAt (dropRefresh n 0 (fun _ => true) s) n).life.disc = (laneAt s n).life.disc :=
    (Fit.of_lk (lk_dropRefresh (List.Subset.refl _) (.refl n _ s)) (by decide) (by decide)).disc
  unfold forgetDisc
  rw [laneAt_setLane]
  exact ⟨rfl, rfl, dropped⟩

theorem Identified.disc (h : Identified n s t) : (laneAt t n).disc = (laneAt s n).disc := by
  obtain ⟨r, v, c, i, h⟩ := h
  rw [h]

theorem disc_warmCut : (laneAt (warmCut n s) n).disc = (laneAt s n).disc :=
  (lk_warmCut (List.Subset.refl _) (.refl n _ s)).part (x := .disc) (by decide)

theorem fit_brakeIfTurning : Fit n s (brakeIfTurning n s) := by
  unfold brakeIfTurning
  split
  · exact .refl n s
  next turns => exact fit_shortBrake (fun rests => turns (.inl rests))

/-- What a departing disc does to its lane before it is forgotten: above PARKED fault 110C, else braking. -/
def discFault (n : LaneId) (s : State) : State :=
  if abovePark (laneAt s n).life.st then faultNow n 0x110C s
  else brakeIfTurning n (setLane n (fun l => { l with life := { l.life with spinning := false }, startWaiting := false }) s)

theorem fit_discFault : Fit n s (discFault n s) := by
  unfold discFault
  split
  · exact fit_faultNow (by decide)
  · exact (Fit.set rfl rfl).trans fit_brakeIfTurning

/-- The lane once its disc is forgotten, with the warm-up and the creation that it took part in ended. -/
def discForgotten (n : LaneId) (s : State) : State := abortCreationOf n (warmCut n (forgetDisc n (discFault n s)))

/-- Event 2003 and the judgement of the team change no lane. -/
theorem laneAt_discDeparted : laneAt (discDeparted n s) n = laneAt (discForgotten n s) n := by
  unfold discDeparted
  extract_lets s1 known s2
  have s2_eq : s2 = discForgotten n s := rfl
  rw [laneAt_evaluateLane, s2_eq]
  clear_value known s2
  split
  · rw [laneAt_raise]
  · rfl

/-- A disc that departs is forgotten; nothing that follows brings it back. -/
theorem lane_discDeparted (n : LaneId) (s : State) : (laneAt (discDeparted n s) n).disc = none ∧
    (laneAt (discDeparted n s) n).life.discKnown = false ∧
    (laneAt (discDeparted n s) n).life.disc = (laneAt s n).life.disc := by
  obtain ⟨gone, unknown, line⟩ := lane_forgetDisc n (discFault n s)
  have aborted : Identified n (warmCut n (forgetDisc n (discFault n s))) (discForgotten n s) := identified_abortCreationOf
  have ended : Fit n (forgetDisc n (discFault n s)) (discForgotten n s) := fit_warmCut.trans aborted.fit
  rw [laneAt_discDeparted]
  exact ⟨by rw [aborted.disc, disc_warmCut, gone], by rw [ended.discKnown, unknown], by rw [ended.disc, line, fit_discFault.disc]⟩

/-! ### The lead-in read begins (R157) -/

theorem exec_leadInReadStart (n : LaneId) (s : State) : exec (.leadInReadStart n) s = .next (leadInReadStart n s) := rfl

section
variable (ready : (laneAt s n).life.st = .ready) (level : (laneAt s n).life.ramping = false)
  (boundary : atExtentBoundary (laneAt s n) = true) (clamps : clamped (laneAt s n) = true) (due : leadInDue s n = true)
include ready level boundary clamps due

theorem leadInReadStart_eq : leadInReadStart n s =
    (if (laneAt s n).life.layer ≠ some 0 ∨ !standsAt (laneAt s n) 220 then orderTo n 0 220 s
     else if readable s n then startLeadIn n s else s) := by
  unfold leadInReadStart
  exact if_pos ⟨ready, by rw [level]; rfl, boundary, clamps, due⟩

end

theorem jobs_takeTrims {p : Nat → Bool} : (laneAt (takeTrims n p s) n).rd.jobs = (laneAt s n).rd.jobs := by
  unfold takeTrims
  dsimp only
  split
  · rfl
  · rw [laneAt_setLane]

theorem jobs_takeRf {c : ChanId} : (laneAt (takeRf n c s) n).rd.jobs = (laneAt s n).rd.jobs := by
  unfold takeRf
  dsimp only
  split
  · rfl
  · rw [jobs_takeTrims, laneAt_setLane]

theorem jobs_foldl_takeRf (l : List ChanId) :
    (laneAt (l.foldl (fun a c => takeRf n c a) s) n).rd.jobs = (laneAt s n).rd.jobs := by
  induction l generalizing s with
  | nil => rfl
  | cons c l ih => exact ih.trans jobs_takeRf

/-- A frame that begins retakes trims and channels; the extent reads stay (R523). -/
theorem jobs_frameBegins : (laneAt (frameBegins n s) n).rd.jobs = (laneAt s n).rd.jobs := by
  unfold frameBegins
  rw [jobs_foldl_takeRf, laneAt_setLane]

theorem lane_startLeadIn (n : LaneId) (s : State) : (laneAt (startLeadIn n s) n).life.st = .reading ∧
    (laneAt (startLeadIn n s) n).life.leadIn = .reading ∧ (laneAt (startLeadIn n s) n).rd.jobs = leadJobs 0 := by
  unfold startLeadIn
  set begun : State := idleChannels n (setLane n (fun l => { l with
    life := { l.life with leadIn := .reading }, rd := { l.rd with jobs := leadJobs 0 } }) s) with begun_eq
  obtain ⟨p, c, entered⟩ := lane_enter n .reading (frameBegins n begun)
  have life : (laneAt (frameBegins n begun) n).life = (laneAt begun n).life :=
    (lk_frameBegins (List.Subset.refl _) (.refl n _ begun)).life (by decide) (by decide)
  rw [entered]
  refine ⟨rfl, ?_, ?_⟩
  · dsimp only
    rw [life, begun_eq, idleChannels, laneAt_setLane, laneAt_setLane]
  · dsimp only
    rw [jobs_frameBegins, begun_eq, idleChannels, laneAt_setLane, laneAt_setLane]

/-! ### The lead-in read ends (R158) -/

theorem exec_leadInReadComplete {r : LeadIn} : exec (.leadInReadComplete n r) s = .next (leadInReadComplete n r s) := rfl

theorem leadIn_discUnusable {reason : Nat} : (laneAt (discUnusable n reason s) n).life.leadIn = .unusable := by
  unfold discUnusable
  rw [mayRampDown_rampIfTurning.leadIn, laneAt_evaluateLane, laneAt_raise, setLife, laneAt_setLane]

/-- The identity that a readable lead-in gives the lane is its volume record's (R219). -/
theorem identity_leadInRead {d : Disc} (sound : mediaOk d.media = true) :
    (laneAt (leadInRead n d s) n).life.volume = d.volumeRec.take 16 ∧
    (laneAt (leadInRead n d s) n).life.leadIn = (if d.volumeRec.isEmpty then .blank else .identified) := by
  have limited (u : State) : (laneAt (limitDisc n u) n).life = (laneAt u n).life :=
    (lk_limitDisc (List.Subset.refl _) (.refl n _ u)).life (by decide) (by decide)
  unfold leadInRead
  dsimp only
  rw [if_pos sound, laneAt_evaluateLane, laneAt_raiseIdentified, limited, takeIdentity, laneAt_setLane]
  exact ⟨rfl, rfl⟩

section
variable (reading : (laneAt s n).life.st = .reading) (lead : (laneAt s n).life.leadIn = .reading) (alone : creating s n = none)
include reading lead alone

theorem leadInReadComplete_unread {r : LeadIn} (none : leadBlocks r = none) :
    leadInReadComplete n r s = discUnusable n 1 (leaveReading n s) := by
  unfold leadInReadComplete
  dsimp only
  rw [if_pos ⟨reading, lead⟩, none, alone]

theorem leadInReadComplete_read {r : LeadIn} {bs : List Bytes} (read : leadBlocks r = some bs) :
    leadInReadComplete n r s = leadInRead n (discFrom bs r) (leaveReading n s) := by
  unfold leadInReadComplete
  dsimp only
  rw [if_pos ⟨reading, lead⟩, read, alone]

end

/-- Settles O25: a disc comes and goes by its settled lines; its lead-in is read where the lane stands on it, and what the read brings
is taken last of the lane's own state. -/
theorem discsComeGoAndAreRead : Obligations.DiscsComeGoAndAreRead := by
  refine ⟨fun n s awake settled raw still clamp fresh up => ?_, fun n s awake settled raw clamp => ?_,
    fun n s disc clamp => ?_, fun n s ready level boundary clamps due layer stands readable => ?_,
    fun n s ready level boundary clamps due elsewhere => ?_, fun n r s reading lead alone unread => ?_,
    fun n r bs s reading lead alone read sound => ?_⟩
  · have lane : laneAt (setLane n (fun l => { l with disc := some Disc.fresh }) (linesTaken n s)) n =
        { laneAt (linesTaken n s) n with disc := some Disc.fresh } := laneAt_setLane
    have holds : clamped (laneAt (setLane n (fun l => { l with disc := some Disc.fresh }) (linesTaken n s)) n) = true := by
      rw [lane]
      exact (clamped_linesTaken settled).trans (by simp [raw, Line.taken, still, clamp])
    rw [exec_discStatusChange, discStatusChange_arrives awake settled raw still clamp up,
      announceDisc_announces holds (by rw [lane, lane_linesTaken]; exact fresh)]
    refine ⟨_, rfl, ?_, ?_, ?_, lastEvent_raise⟩ <;> rw [laneAt_raise, setLife, laneAt_setLane, laneAt_setLane]
  · rw [exec_discStatusChange, discStatusChange_departs awake settled raw clamp]
    obtain ⟨gone, unknown, line⟩ := lane_discDeparted n (linesTaken n s)
    refine ⟨_, rfl, gone, unknown, ?_⟩
    rw [line, lane_linesTaken]
    exact (Line.stable_taken_settled settled).trans raw
  · rw [exec_discStatusChange, discStatusChange_unsettled disc clamp]
  · rw [exec_leadInReadStart, leadInReadStart_eq ready level boundary clamps due, if_neg (by simp [layer, stands]), if_pos readable]
    exact ⟨_, rfl, lane_startLeadIn n s⟩
  · rw [exec_leadInReadStart, leadInReadStart_eq ready level boundary clamps due,
      if_pos (elsewhere.imp_right fun off => by rw [off]; rfl)]
    exact ⟨_, rfl, by simp [orderTo], by simp [orderTo], by simp [orderTo, ready]⟩
  · rw [exec_leadInReadComplete, leadInReadComplete_unread reading lead alone unread]
    exact ⟨_, rfl, leadIn_discUnusable⟩
  · rw [exec_leadInReadComplete, leadInReadComplete_read reading lead alone read]
    exact ⟨_, rfl, identity_leadInRead sound⟩

end Sys2Proof.Machine
end

section
/-! PROOFS. Team membership, volume creation and the team's state (R161 to R163, R177). -/

namespace Sys2Proof.Machine

variable {s t : State} {u : TeamId} {n : LaneId} {who : Who} {v : Bytes}

/-! ### The entries of a team -/

theorem familyOf_team : familyOf (teamIdx u 0) = 0x3000 := by
  have small := u.isLt
  unfold familyOf teamIdx
  rw [if_neg (by omega), if_pos (by omega)]
  omega

theorem teamOf_teamIdx : Fin.ofNat 32 ((teamIdx u 0 - 0x3000) / 128) = u := by
  have small := u.isLt
  have place : (teamIdx u 0 - 0x3000) / 128 = u.val := by unfold teamIdx; omega
  rw [place]
  exact Fin.ofNat_val_eq_self u

theorem teamIdx_bounds : 0x3000 ≤ teamIdx u 0 ∧ teamIdx u 0 < 0x4000 := by
  have small := u.isLt
  unfold teamIdx
  omega

/-- A write of a team entry is one of the unit's. -/
theorem applyWrite_team {reply : Reply} {ph : Bool} {k : Nat} : applyWrite reply ph ⟨teamIdx u 0, k, v⟩ s =
    if k = 5 then createVolumeEffect u s else .ok (store (teamIdx u 0) k v s) := by
  obtain ⟨low, high⟩ := teamIdx_bounds (u := u)
  have team : Fin.ofNat 32 ((teamIdx u 0 - 0x3000) / 128) = u := teamOf_teamIdx
  unfold applyWrite
  dsimp only
  rw [if_neg (by omega), if_neg (by omega)]
  simp only [applyUnit, familyOf_team, team]
  simp

theorem isLater_team {k : Nat} : (Put.mk (teamIdx u 0) k v).isLater = false := by
  have low := (teamIdx_bounds (u := u)).1
  simp only [Put.isLater, Bool.or_eq_false_iff, decide_eq_false_iff_not]
  omega

theorem stored_store_twice {i k j l : Nat} : stored (store i k v (store i k v s)) j l = stored (store i k v s) j l := by
  by_cases own : regKey i k = regKey j l
  · simp only [stored, store, mapGet_mapSet, own, if_true]
  · rw [stored_store_of_ne own]

/-- Members have consistency of their own; the order to create has none (R87, R177). -/
theorem consistent_create : consistent s (teamIdx u 0) 5 = true := by simp [consistent, familyOf_team]

theorem exec_teamMembersWrite : exec (.teamMembersWrite who u v) s = .next (putEntry who (teamIdx u 0) 1 v s) := rfl

/-- A membership that passes is stored, and every team is judged anew (R161, R177). -/
theorem putEntry_members (passes : writePasses s who (teamIdx u 0) 1 v = true) (alone : needsAck s = false) :
    putEntry who (teamIdx u 0) 1 v s = send (.answer who (teamIdx u 0) 1 0)
      (settleTeams [{ index := teamIdx u 0, sub := 1, value := v }] (countChange (teamIdx u 0) 1 (store (teamIdx u 0) 1 v s))) := by
  obtain ⟨⟨en, checks⟩, consist⟩ := writePasses_iff.mp passes
  have effect {reply : Reply} : applyWrite reply false ⟨teamIdx u 0, 1, v⟩ s = .ok (store (teamIdx u 0) 1 v s) := applyWrite_team
  have written : asWritten false ⟨teamIdx u 0, 1, v⟩ s = store (teamIdx u 0) 1 v (store (teamIdx u 0) 1 v s) := by
    unfold asWritten
    rw [effect]
  have notLater : (Put.mk (teamIdx u 0) 1 v).isLater = false := isLater_team
  refine putEntryWith_now (serve_effect checks ?_ effect notLater ?_)
  · rw [written, consistent_congr (fun _ _ => stored_store_twice) rfl]
    exact consist
  · rw [needsAck_settleTeams, needsAck_countChange, needsAck_store, alone]

/-! ### A creation ordered (R163) -/

theorem exec_createVolume : exec (.createVolume who u v) s = .next (putEntry who (teamIdx u 0) 5 v s) := rfl

/-- The team with its creation begun. -/
def creationBegun (u : TeamId) (s : State) : State := setTeam u (fun x => { x with creation := some {
  volume := toLE 8 (timeNow s) ++ Sys2Proof.Config.serialNumber.toList.drop 4, written := [], readBack := [] } }) s

theorem team_creationBegun : teamAt (creationBegun u s) u = { teamAt s u with creation := some {
    volume := toLE 8 (timeNow s) ++ Sys2Proof.Config.serialNumber.toList.drop 4, written := [], readBack := [] } } := teamAt_setTeam

theorem needsAck_creationBegun : needsAck (creationBegun u s) = needsAck s := rfl

theorem putEntry_create (passes : writePasses s who (teamIdx u 0) 5 v = true) (alone : needsAck s = false)
    (blank : (teamAt s u).st = .blank) (fresh : (teamAt s u).creation = none) : putEntry who (teamIdx u 0) 5 v s =
      send (.answer who (teamIdx u 0) 5 0) (countChange (teamIdx u 0) 5 (creationBegun u s)) := by
  obtain ⟨⟨en, checks⟩, -⟩ := writePasses_iff.mp passes
  have effect {reply : Reply} : applyWrite reply false ⟨teamIdx u 0, 5, v⟩ s = .ok (creationBegun u s) := by
    rw [applyWrite_team, if_pos rfl]
    simp [createVolumeEffect, blank, fresh, creationBegun]
  have notLater : (Put.mk (teamIdx u 0) 5 v).isLater = false := isLater_team
  have settled {a : State} : settleTeams [⟨teamIdx u 0, 5, v⟩] a = a := by simp [settleTeams]
  have served := serve_effect (reply := .record who (teamIdx u 0) 5) (p := ⟨teamIdx u 0, 5, v⟩) (ph := false) checks consistent_create effect notLater
    (by rw [settled, needsAck_countChange, needsAck_creationBegun, alone])
  rw [settled] at served
  exact putEntryWith_now served

/-- A team that is not BLANK refuses a creation (R163). -/
theorem putEntry_create_refused (passes : writePasses s who (teamIdx u 0) 5 v = true) (other : (teamAt s u).st ≠ .blank) :
    putEntry who (teamIdx u 0) 5 v s = send (.answer who (teamIdx u 0) 5 0x0304) s := by
  obtain ⟨⟨en, checks⟩, -⟩ := writePasses_iff.mp passes
  have effect {reply : Reply} : applyWrite reply false ⟨teamIdx u 0, 5, v⟩ s = .error 0x0304 := by
    rw [applyWrite_team, if_pos rfl]
    simp [createVolumeEffect, other]
  have served := serve_effect_denied (reply := .record who (teamIdx u 0) 5) (p := ⟨teamIdx u 0, 5, v⟩) (ph := false) checks consistent_create effect
  have kept : residue false [⟨teamIdx u 0, 5, v⟩] 1 s = s := by
    have low := (teamIdx_bounds (u := u)).1
    simp only [residue, Nat.sub_self, List.drop_zero]
    rw [if_neg (by omega)]
  rw [kept] at served
  exact putEntryWith_now served

/-! ### What the judgement of a team leaves of it -/

/-- From `s` to `t` a team stands but for its namespace. -/
def TeamStands (u : TeamId) (s t : State) : Prop := ∃ ns, teamAt t u = { teamAt s u with ns := ns }

theorem TeamStands.refl (u : TeamId) (s : State) : TeamStands u s s := ⟨_, rfl⟩

theorem TeamStands.trans {r : State} (h : TeamStands u s t) (k : TeamStands u t r) : TeamStands u s r := by
  obtain ⟨a, h⟩ := h
  obtain ⟨b, k⟩ := k
  exact ⟨b, by rw [k, h]⟩

theorem TeamStands.of_keeps {p : List Part} (k : Keeps p s t) (teams : p.contains .teams = false) : TeamStands u s t := by
  have same : t.teams = s.teams := k.frame .teams (fun c => by simp [c] at teams)
  exact ⟨(teamAt s u).ns, by unfold teamAt; rw [same]⟩

theorem TeamStands.foldl {α : Type} {f : State → α → State} (each : ∀ a x, TeamStands u a (f a x)) (l : List α) :
    TeamStands u s (l.foldl f s) := by
  induction l generalizing s with
  | nil => exact .refl u s
  | cons x l ih => exact (each s x).trans ih

theorem TeamStands.creation (h : TeamStands u s t) : (teamAt t u).creation = (teamAt s u).creation := by
  obtain ⟨ns, h⟩ := h
  rw [h]

theorem TeamStands.st (h : TeamStands u s t) : (teamAt t u).st = (teamAt s u).st := by
  obtain ⟨ns, h⟩ := h
  rw [h]

theorem teamStands_setNs {f : Namespace → Namespace} : TeamStands u s (setNs u f s) := by
  unfold setNs
  exact ⟨_, teamAt_setTeam⟩

theorem teamStands_raise {code : Nat} {l : List EvField} : TeamStands u s (raise code l s) :=
  .of_keeps (keeps_raise (List.Subset.refl _) (.refl _ s)) (by decide)

theorem teamStands_namespaceChanged {k : Nat} : TeamStands u s (namespaceChanged k s) :=
  .of_keeps (keeps_namespaceChanged (List.Subset.refl _) (.refl _ s)) (by decide)

theorem teamStands_nsLeave {reason : Nat} : TeamStands u s (nsLeave u reason s) := by
  unfold nsLeave
  split
  · exact (teamStands_setNs.trans teamStands_raise).trans teamStands_namespaceChanged
  · exact .refl u s

theorem teamStands_nsEnter {volume : Bytes} {k : Nat} : TeamStands u s (nsEnter u volume k s) :=
  teamStands_setNs.trans teamStands_namespaceChanged

theorem teamStands_addZeros {i k : Nat} : TeamStands u s (addZeros u i k s) := by
  unfold addZeros
  split
  · exact .refl u s
  · exact teamStands_setNs

theorem teamStands_endExtent {x : Nat} : TeamStands u s (endExtent u x s) := by
  unfold endExtent
  split
  · exact .refl u s
  · split
    · exact .refl u s
    · exact teamStands_setNs.trans teamStands_addZeros

theorem teamStands_endLostWrites : TeamStands u s (endLostWrites u s) := by
  unfold endLostWrites
  refine .foldl (fun a q => ?_) _
  exact (TeamStands.of_keeps (keeps_setFlights (List.Subset.refl _) (.refl _ a)) (by decide)).trans teamStands_endExtent

theorem teamStands_checkReadOnly : TeamStands u s (checkReadOnly u s) := by
  unfold checkReadOnly
  dsimp only
  split
  · refine .trans (.foldl (fun a z => ?_) _) teamStands_endLostWrites
    split
    · exact .refl u a
    · split
      · exact .refl u a
      · exact (teamStands_setNs.trans (.of_keeps (keeps_asyncBoth (List.Subset.refl _) (.refl _ _)) (by decide))).trans teamStands_raise
  · exact .refl u s

theorem teamStands_anaChange : TeamStands u s (anaChange s) :=
  .of_keeps (keeps_anaChange (List.Subset.refl _) (.refl _ s)) (by decide)

theorem teamStands_checks : TeamStands u s (warningCheck (startupCheck s)) :=
  .trans (.of_keeps (keeps_startupCheck (List.Subset.refl _) (.refl _ s)) (by decide))
    (.of_keeps (keeps_warningCheck (List.Subset.refl _) (.refl _ _)) (by decide))

/-- A team that attaches is ATTACHED, and its creation as it was. -/
theorem team_teamAttach {l : List (LaneId × Seen)} : (teamAt (teamAttach u l s) u).st = .attached ∧
    (teamAt (teamAttach u l s) u).creation = (teamAt s u).creation := by
  unfold teamAttach
  extract_lets v s1 s2 s3
  have attached : (teamAt s1 u).st = .attached ∧ (teamAt s1 u).creation = (teamAt s u).creation := by
    have stands := teamStands_raise (u := u) (code := 0x7001) (l := [.u8 u.val, .u32 (u.val + 1)])
      (s := setTeam u (fun x => { x with st := .attached, volume := v, map := discMap l }) s)
    exact ⟨stands.st.trans (by rw [teamAt_setTeam]), stands.creation.trans (by rw [teamAt_setTeam])⟩
  have left : TeamStands u s1 s2 := by
    simp only [s2]
    split
    · exact teamStands_nsLeave
    · exact .refl u s1
  have entered : TeamStands u s2 s3 := by
    simp only [s3]
    split
    · exact teamStands_setNs
    · exact teamStands_nsEnter
  have stands : TeamStands u s1 (checkReadOnly u (anaChange s3)) :=
    (left.trans entered).trans (teamStands_anaChange.trans teamStands_checkReadOnly)
  exact ⟨stands.st.trans attached.1, stands.creation.trans attached.2⟩

theorem creation_teamDetach {x : TeamState} : (teamAt (teamDetach u x s) u).creation = (teamAt s u).creation := by
  unfold teamDetach
  rw [((teamStands_setNs.trans teamStands_raise).trans teamStands_anaChange).creation, teamAt_setTeam]

/-- A team without a creation takes the state that its members' discs give it (R161, R162). -/
theorem team_evaluateTeam {cause : Option LaneId} (alone : (teamAt s u).creation = none) :
    (teamAt (evaluateTeam u cause s) u).st = teamVerdict (seenMembers s u) ∧
    (teamAt (evaluateTeam u cause s) u).creation = none := by
  unfold evaluateTeam
  rw [if_neg (by rw [alone]; decide)]
  extract_lets l old new same s1 s2 s3 s4
  have creation1 : (teamAt s1 u).creation = none := by
    simp only [s1]
    split
    · rw [creation_teamDetach, alone]
    · exact alone
  have judged : (teamAt s2 u).st = new ∧ (teamAt s2 u).creation = none := by
    simp only [s2]
    split
    next attached =>
      split
      next stays =>
        obtain ⟨isSame, was⟩ := Bool.and_eq_true_iff.mp stays
        have s1_eq : s1 = s := if_neg (by simp [isSame])
        exact ⟨by rw [s1_eq, attached]; exact of_decide_eq_true was, creation1⟩
      next => exact ⟨by rw [attached]; exact team_teamAttach.1, team_teamAttach.2.trans creation1⟩
    next => exact ⟨by rw [teamAt_setTeam], by rw [teamAt_setTeam]; exact creation1⟩
  have stands3 : TeamStands u s2 s3 := by
    simp only [s3]
    split
    · exact teamStands_raise
    · exact .refl u s2
  have stands4 : TeamStands u s3 s4 := by
    simp only [s4]
    split
    · exact teamStands_nsLeave
    · exact .refl u s3
  have stands : TeamStands u s2 (warningCheck (startupCheck s4)) := (stands3.trans stands4).trans teamStands_checks
  exact ⟨stands.st.trans judged.1, stands.creation.trans judged.2⟩

/-! ### A creation that is complete (R163) -/

theorem exec_volumeCreated : exec (.volumeCreated u) s = .next (volumeCreated u s) := rfl

theorem teamStands_takeIdentity {rec : Bytes} : TeamStands u s (takeIdentity n rec s) :=
  .of_keeps (keeps_takeIdentity (List.Subset.refl _) (.refl _ s)) (by decide)

theorem teamStands_raiseIdentified : TeamStands u s (raiseIdentified n s) := teamStands_raise

theorem creation_volumeCreated {c : Creation} (creates : (teamAt s u).creation = some c)
    (complete : (membersOf s u).all (fun n => c.readBack.contains n) = true) : (teamAt (volumeCreated u s) u).creation = none := by
  unfold volumeCreated
  dsimp only
  rw [creates]
  dsimp only
  rw [if_pos complete]
  refine (team_evaluateTeam ?_).2
  have identified := TeamStands.foldl (u := u) (s := setTeam u (fun x => { x with creation := none }) s)
    (f := fun a n => raiseIdentified n (takeIdentity n (((laneAt a n).disc.map (fun d => d.volumeRec)).getD []) a))
    (fun a n => teamStands_takeIdentity.trans teamStands_raiseIdentified) (membersOf s u)
  rw [identified.creation, teamAt_setTeam]

theorem volumeCreated_waits {c : Creation} (creates : (teamAt s u).creation = some c)
    (incomplete : (membersOf s u).all (fun n => c.readBack.contains n) = false) : volumeCreated u s = s := by
  unfold volumeCreated
  dsimp only
  rw [creates]
  exact if_neg (by rw [incomplete]; decide)

/-- Settles O26: the writes by their checks and effects; a judgement sets the state before everything that follows it, and nothing that
follows changes more of the team than its namespace. -/
theorem volumesAndTeams : Obligations.VolumesAndTeams := by
  refine ⟨fun who u v s passes alone => ?_, fun u cause s alone => (team_evaluateTeam alone).1,
    fun who u v s passes alone blank fresh => ?_, fun who u v s passes other => ?_, fun u c s creates complete => ?_,
    fun u c s creates incomplete => ?_⟩
  · rw [exec_teamMembersWrite, putEntry_members passes alone]
  · rw [exec_createVolume, putEntry_create passes alone blank fresh]
    exact ⟨_, rfl, rfl, congrArg Team.creation team_creationBegun⟩
  · rw [exec_createVolume, putEntry_create_refused passes other]
  · rw [exec_volumeCreated]
    exact ⟨_, rfl, creation_volumeCreated creates complete⟩
  · rw [exec_volumeCreated, volumeCreated_waits creates incomplete]

end Sys2Proof.Machine
end

section
/-! PROOFS. Focus capture, layer jumps, band capture, wobble frames and the write clock (R144, R164 to R166, R186, R259, R261). -/

namespace Sys2Proof.Machine

variable {s t : State} {n : LaneId} {w : WobbleRead} {a : WobbleAddr}

/-! ### Focus (R160, R164) -/

theorem exec_focusCapture {peaks : List Nat} {position : Int} :
    exec (.focusCapture n peaks position) s = .next (focusCapture n peaks position s) := rfl

theorem focusCapture_other {peaks : List Nat} {position : Int} (st : (laneAt s n).life.st ≠ .spun) :
    focusCapture n peaks position s = s := by
  simp [focusCapture, st]

/-- A lane whose focus stands on its target layer is FOCUSED; nothing else of it changes but the record of its state. -/
theorem lane_focusReached (n : LaneId) (s : State) : ∃ p c, laneAt (focusReached n s) n = { laneAt s n with
    life := { (laneAt s n).life with
      st := if (laneAt s n).life.st = .spun ∧ (laneAt s n).life.layer = some (laneAt s n).life.targetLayer then .focused
        else (laneAt s n).life.st
      prev := p, changed := c } } := by
  unfold focusReached
  dsimp only
  split
  · exact lane_enter n .focused s
  · exact ⟨_, _, rfl⟩

section
variable {peaks : List Nat} {position : Int} (spun : (laneAt s n).life.st = .spun) (level : (laneAt s n).life.ramping = false)
  (opened : (laneAt s n).loop.closed[0] = false)
include spun level opened

theorem focusCapture_sees (sees : layerSeen s n peaks = true) : focusCapture n peaks position s = focusClosed n position s := by
  simp [focusCapture, spun, level, opened, sees]

theorem focusCapture_misses (misses : layerSeen s n peaks = false) : focusCapture n peaks position s = sweepFailed n s := by
  simp [focusCapture, spun, level, opened, misses]

end

/-- Focus closes on layer 7 from the position measured (R164). -/
theorem lane_focusClosed {position : Int} (spun : (laneAt s n).life.st = .spun) :
    (laneAt (focusClosed n position s) n).loop.closed = #v[true, false, false] ∧
    (laneAt (focusClosed n position s) n).life.layer = some 7 ∧
    (laneAt (focusClosed n position s) n).loop.x = position :: List.replicate 11 0 ∧
    (laneAt (focusClosed n position s) n).life.st = (if (laneAt s n).life.targetLayer = 7 then .focused else .spun) := by
  unfold focusClosed
  set closed : State := setClosed n true false false (setLane n (fun l => { l with
    life := { l.life with layer := some 7 }
    loop := { l.loop with
      x := position :: List.replicate 11 0, overrun := { l.loop.overrun with zero := false, zeroNext := false } } }) s) with closed_eq
  have lane : laneAt closed n = { laneAt s n with
      life := { (laneAt s n).life with layer := some 7 }
      loop := { (laneAt s n).loop with
        closed := #v[true, false, false], x := position :: List.replicate 11 0
        overrun := { (laneAt s n).loop.overrun with zero := false, zeroNext := false } } } := by
    rw [closed_eq, setClosed, laneAt_setLane, laneAt_setLane]
  obtain ⟨p, c, reached⟩ := lane_focusReached n closed
  rw [reached, lane]
  simp [spun, eq_comm]

/-- A sweep that fails on a SPUN lane is counted, and the third makes the disc unusable (R164). -/
theorem lane_sweepFailed (spun : (laneAt s n).life.st = .spun) : (laneAt (sweepFailed n s) n).life.layer = none ∧
    (if 3 ≤ (laneAt s n).life.sweeps + 1 then (laneAt (sweepFailed n s) n).life.leadIn = .unusable
     else (laneAt (sweepFailed n s) n).life.sweeps = (laneAt s n).life.sweeps + 1) := by
  unfold sweepFailed
  extract_lets k s1
  have life : (laneAt s1 n).life = { (laneAt s n).life with
      sweeps := k, mismatches := 0, layer := none, band := none, jump := none } := by
    have opened := (lk_openFocus (List.Subset.refl _) (.refl n _
      (setLife n (fun f => { f with sweeps := k, mismatches := 0, layer := none, band := none, jump := none }) s))).life
        (by decide) (by decide)
    simp only [s1, opened]
    rw [setLife, laneAt_setLane]
  clear_value s1
  split
  next =>
    refine ⟨?_, leadIn_discUnusable⟩
    unfold discUnusable
    refine mayRampDown_rampIfTurning.layer ?_
    rw [laneAt_evaluateLane, laneAt_raise, setLife, laneAt_setLane, life]
  next => exact ⟨by rw [life], by rw [life]⟩

/-! ### Layer jumps (R165) -/

/-- The lane as a jump leaves its layer: tracking open, no band, the channels idle (R165, R323). -/
def jumpLeft (n : LaneId) (s : State) : State :=
  spoil n (openTracking n (lifeLane n 2 1 (idleChannels n (setLane n (fun l => { l with
    spin := { l.spin with wobbleValid := false }, life := { l.life with band := none, jump := none } }) s))))

/-- The stride that begins with a jump whose band lies far off (R841). -/
def jumpStride (n : LaneId) (s : State) : State :=
  if ((laneAt s n).life.band.map (fun b => decide (32 < (((laneAt s n).life.targetBand : Int) - b).natAbs))).getD false &&
      decide ((laneAt s n).life.layer ≠ some (laneAt s n).life.targetLayer) then strideToTarget n (jumpLeft n s)
  else jumpLeft n s

@[simp] theorem closed_spoil : (laneAt (spoil n s) n).loop.closed = (laneAt s n).loop.closed := by simp [spoil]

theorem closed_jumpStride : (laneAt (jumpStride n s) n).loop.closed = #v[(laneAt s n).loop.closed[0], false, false] := by
  have left : (laneAt (jumpLeft n s) n).loop.closed = #v[(laneAt s n).loop.closed[0], false, false] := by
    simp [jumpLeft, idleChannels]
  unfold jumpStride
  split
  · rw [strideToTarget, closed_strideAccept, left]
  · exact left

theorem exec_layerJump {outward landed : Bool} : exec (.layerJump n outward landed) s = .next (layerJump n outward landed s) := rfl

theorem layerJump_eq {k : Nat} {outward landed : Bool} (layer : (laneAt s n).life.layer = some k)
    (may : mayJump (laneAt s n) k outward = true) : layerJump n outward landed s =
      if landed then focusReached n (warmJump n (setLife n (fun f => { f with layer := some (jumpLayer k outward) }) (jumpStride n s)))
      else detectFault n 0x1102 (jumpStride n s) := by
  unfold layerJump
  dsimp only
  rw [layer]
  dsimp only
  rw [if_pos may]
  unfold jumpStride
  rw [layer]
  rfl

theorem mayJump_iff {l : Lane} {k : Nat} {outward : Bool} (focus : l.loop.closed[0] = true) (up : abovePark l.life.st = true)
    (level : l.life.ramping = false) (noPass : l.wr.pass = none) (idle : laneReading l = false)
    (inside : if outward then k < 7 else 0 < k) : mayJump l k outward = true := by
  cases outward <;> simp_all [mayJump]

/-- A jump that lands has moved one layer, with tracking open. -/
theorem lane_layerJump_lands {k : Nat} {outward : Bool} (layer : (laneAt s n).life.layer = some k)
    (may : mayJump (laneAt s n) k outward = true) (focus : (laneAt s n).loop.closed[0] = true) :
    (laneAt (layerJump n outward true s) n).life.layer = some (jumpLayer k outward) ∧
    (laneAt (layerJump n outward true s) n).loop.closed = #v[true, false, false] := by
  rw [layerJump_eq layer may, if_pos rfl]
  set moved := setLife n (fun f => { f with layer := some (jumpLayer k outward) }) (jumpStride n s) with moved_eq
  have warm := lk_warmJump (List.Subset.refl _) (.refl n _ moved)
  have life : (laneAt (warmJump n moved) n).life = (laneAt moved n).life := warm.life (by decide) (by decide)
  have loop : (laneAt (warmJump n moved) n).loop = (laneAt moved n).loop := warm.part (x := .loop) (by decide)
  obtain ⟨p, c, reached⟩ := lane_focusReached n (warmJump n moved)
  rw [reached]
  refine ⟨?_, ?_⟩
  · dsimp only
    rw [life, moved_eq, setLife, laneAt_setLane]
  · dsimp only
    rw [loop, moved_eq, setLife, laneAt_setLane]
    exact closed_jumpStride.trans (by rw [focus])

/-- A focus that is lost opens every axis (R169). -/
theorem closed_detectFault_focus : (laneAt (detectFault n 0x1102 s) n).loop.closed = Vector.replicate 3 false := by
  unfold detectFault
  extract_lets st s1 s2 s3
  have s3_eq : s3 = openFocus n s2 := if_pos (.inl rfl)
  rw [laneAt_postCompletion, s3_eq]
  simp [faultSpindle]

/-! ### Band capture (R164, R166) -/

theorem exec_bandCapture {speeds : List Nat} : exec (.bandCapture n w speeds) s = .next (bandCapture n w speeds s) := rfl

theorem bandCapture_none {speeds : List Nat} (barred : mayCapture s n speeds = false ∨ wobbleAddr w.wobbles = none) :
    bandCapture n w speeds s = s := by
  unfold bandCapture
  obtain barred | unread := barred
  · rw [barred]
  · rw [unread]
    cases mayCapture s n speeds <;> rfl

section
variable {speeds : List Nat} (may : mayCapture s n speeds = true) (read : wobbleAddr w.wobbles = some a)
include may read

/-- A frame of another layer is a mismatch; the third in a row would end the focus (R164). -/
theorem bandCapture_mismatch (other : (laneAt s n).life.layer ≠ some a.layer) (few : (laneAt s n).life.mismatches < 2) :
    bandCapture n w speeds s = setLife n (fun f => { f with layer := some a.layer, mismatches := f.mismatches + 1 }) s := by
  unfold bandCapture
  rw [may, read]
  dsimp only
  rw [if_pos other, if_neg (by omega)]

theorem bandCapture_near (own : (laneAt s n).life.layer = some a.layer)
    (near : ((a.band : Int) - expectedBand (laneAt s n).sled).natAbs ≤ lcfg s n 0xA3 3) : bandCapture n w speeds s =
      captured n w a (shiftCoordinate n (roundDiv (16384 * ((a.band : Int) - expectedBand (laneAt s n).sled)) 1000) s) := by
  unfold bandCapture
  rw [may, read]
  dsimp only
  rw [if_neg (by rw [own]; simp), if_pos near]

theorem bandCapture_far (own : (laneAt s n).life.layer = some a.layer)
    (far : lcfg s n 0xA3 3 < ((a.band : Int) - expectedBand (laneAt s n).sled).natAbs) : bandCapture n w speeds s =
      detectFault n 0x1105 (raise 0x1503 [.u8 n.val, .u32 a.band, .s32 (expectedBand (laneAt s n).sled)] (lbump n 0xE6 4 0 1 s)) := by
  unfold bandCapture
  rw [may, read]
  dsimp only
  rw [if_neg (by rw [own]; simp), if_neg (Nat.not_le.mpr far)]

end

theorem log_detectFault {code : Nat} : (detectFault n code s).log = s.log :=
  (keeps_detectFault (List.Subset.refl _) (.refl _ s)).frame .log (by decide)

/-- Tracking closes on a band near the target: the lane stands there, the gear engaged (R166, R484). -/
theorem lane_captured (near : (((laneAt s n).life.targetBand : Int) - a.band).natAbs ≤ 32) :
    (laneAt (captured n w a s) n).life.band = some a.band ∧
    (laneAt (captured n w a s) n).loop.closed = #v[true, true, true] ∧
    (laneAt (captured n w a s) n).life.mismatches = 0 ∧ (laneAt (captured n w a s) n).sled.geared = true ∧
    (laneAt (captured n w a s) n).life.st =
      (if (laneAt s n).life.st = .focused ∧ a.layer = (laneAt s n).life.targetLayer then .tracking else (laneAt s n).life.st) := by
  unfold captured
  extract_lets l s1 s2 s3
  have closes : (laneAt s1 n).loop.closed = #v[true, true, true] := by simp [s1, gearEngage, setClosed]
  have stands : (laneAt s1 n).life = { (laneAt s n).life with band := some a.band, mismatches := 0, sweeps := 0, jump := none } := by
    simp [s1, gearEngage, setClosed]
  have gears : (laneAt s1 n).sled.geared = true := by simp [s1, gearEngage]
  have learns : LK n [.loop] s1 s2 := .ite (.refl n _ s1) (lk_startLearning (List.Subset.refl _) (.refl n _ s1))
  have closes2 : (laneAt s2 n).loop.closed = (laneAt s1 n).loop.closed := by
    simp only [s2]
    split
    · rfl
    · simp [startLearning]
  have life2 : (laneAt s2 n).life = (laneAt s1 n).life := learns.life (by decide) (by decide)
  have sled2 : (laneAt s2 n).sled = (laneAt s1 n).sled := learns.part (x := .sled) (by decide)
  clear_value s2
  rw [if_neg (Nat.not_lt.mpr near)]
  simp only [s3]
  split
  next =>
    obtain ⟨p, c, entered⟩ := lane_enter n .tracking s2
    rw [entered]
    exact ⟨by rw [life2, stands], closes2.trans closes, by rw [life2, stands], by rw [sled2]; exact gears, rfl⟩
  next => exact ⟨by rw [life2, stands], closes2.trans closes, by rw [life2, stands], by rw [sled2]; exact gears, by rw [life2, stands]⟩

/-- A shift of the coordinate moves the sled's set-point and nothing else (R466). -/
theorem life_shiftCoordinate {d : Int} : (laneAt (shiftCoordinate n d s) n).life = (laneAt s n).life :=
  (lk_shiftCoordinate (List.Subset.refl _) (.refl n _ s)).life (by decide) (by decide)

/-! ### Wobble frames (R186, R259) -/

/-- The groove's address and the state of the write clock's frames, with the band that the lane stands on. -/
def Lane.groove (l : Lane) : Nat × Nat × Nat × Nat × Nat × Nat × Int × Option Nat :=
  (l.wr.wobbleLayer, l.wr.wobbleBand, l.wr.wobbleFrame, l.wr.wobbleKind, l.wr.badFrames, l.wr.goodFrames, l.wr.rms, l.life.band)

theorem groove_set {f : Lane → Lane} (same : (f (laneAt s n)).groove = (laneAt s n).groove) :
    (laneAt (setLane n f s) n).groove = (laneAt s n).groove := by rw [laneAt_setLane, same]

theorem groove_enter {x : LaneState} : (laneAt (enter n x s) n).groove = (laneAt s n).groove := by
  obtain ⟨p, c, entered⟩ := lane_enter n x s
  rw [entered]
  rfl

theorem groove_setWarm {f : WarmUp → WarmUp} : (laneAt (setWarm n f s) n).groove = (laneAt s n).groove := groove_set rfl

theorem groove_leaveHold : (laneAt (leaveHold n s) n).groove = (laneAt s n).groove := by
  unfold leaveHold
  split
  · rw [groove_enter]
    exact groove_set rfl
  · rfl

theorem groove_opcReturned : (laneAt (opcReturned n s) n).groove = (laneAt s n).groove := by
  unfold opcReturned
  dsimp only
  split
  · split
    · rw [groove_leaveHold, groove_setWarm]
    · rfl
  · rfl

theorem groove_opcHold : (laneAt (opcHold n s) n).groove = (laneAt s n).groove := by
  unfold opcHold
  dsimp only
  split
  · split
    · rfl
    · refine (groove_set rfl).trans ?_
      rw [groove_enter, groove_setWarm]
  · rfl

theorem groove_holdCheck : (laneAt (holdCheck n s) n).groove = (laneAt s n).groove := by
  unfold holdCheck
  split
  · exact groove_enter
  · exact groove_opcHold

/-- A lane that becomes READY stays on the groove that it followed (R144). -/
theorem groove_becomeReady : (laneAt (becomeReady n s) n).groove = (laneAt s n).groove := by
  unfold becomeReady
  extract_lets l r s1
  have entered : (laneAt s1 n).groove = (laneAt s n).groove := groove_enter.trans (groove_set rfl)
  clear_value s1
  split
  · rw [groove_holdCheck]
    split
    · exact entered
    · rw [laneAt_endWaits]
      exact entered
  · rfl

/-- The lane that has taken a frame's address, with its index and its channels' boundary (R400, R323). -/
def frameTaken (n : LaneId) (w : WobbleRead) (s : State) : State := preamble n (takeIndex n w (takeAddress n w s))

theorem lk_afterAddress : LK n [.loop, .rd] (takeAddress n w s) (frameTaken n w s) :=
  lk_preamble (subL (List.Subset.refl _) (by decide)) (lk_takeIndex (subL (List.Subset.refl _) (by decide)) (.refl n _ _))

theorem wr_frameTaken : (laneAt (frameTaken n w s) n).wr = (laneAt (takeAddress n w s) n).wr :=
  lk_afterAddress.part (x := .wr) (by decide)

theorem life_frameTaken : (laneAt (frameTaken n w s) n).life = (laneAt (takeAddress n w s) n).life :=
  lk_afterAddress.life (by decide) (by decide)

theorem exec_wobbleFrame : exec (.wobbleFrame n w) s = .next (wobbleFrame n w s) := rfl

theorem wobbleFrame_open (opened : (laneAt s n).loop.closed[1] = false) : wobbleFrame n w s = s := by
  simp [wobbleFrame, opened]

/-- The address taken from a frame that is read. -/
theorem groove_frameTaken (read : wobbleAddr w.wobbles = some a) : (laneAt (frameTaken n w s) n).groove =
    (a.layer, a.band, a.frame, a.kind, 0, (laneAt s n).wr.goodFrames + 1, w.rms, some a.band) := by
  unfold Lane.groove
  rw [wr_frameTaken, life_frameTaken, takeAddress, laneAt_setLane]
  simp [frameAddr, read]

/-- A frame read in tracking with no pass, and not the first of its revolution: the address is taken, and no move follows. -/
theorem wobbleFrame_reads (closed : (laneAt s n).loop.closed[1] = true) (low : 4 ≤ (laneAt s n).life.st.code)
    (high : (laneAt s n).life.st.code ≤ 8) (noPass : (laneAt s n).wr.pass = none) (read : wobbleAddr w.wobbles = some a)
    (inside : a.frame ≠ 0) : wobbleFrame n w s = becomeReady n (opcReturned n (frameTaken n w s)) := by
  have pass : (laneAt (frameTaken n w s) n).wr.pass = none := by
    rw [wr_frameTaken, takeAddress, laneAt_setLane]
    exact noPass
  have frame : (laneAt (frameTaken n w s) n).wr.wobbleFrame ≠ 0 := by
    rw [wr_frameTaken, takeAddress, laneAt_setLane]
    simpa [frameAddr, read] using inside
  have noMismatch : passMismatch (laneAt (frameTaken n w s) n) = false := by unfold passMismatch; rw [pass]
  unfold wobbleFrame
  extract_lets l s1 l1 busy s2
  have s1_eq : s1 = frameTaken n w s := rfl
  have l1_eq : l1 = laneAt s1 n := rfl
  have s2_eq : s2 = s1 := if_neg (by rw [l1_eq, s1_eq]; exact frame)
  rw [if_pos ⟨closed, low, high⟩, if_neg (by rw [l1_eq, s1_eq, noMismatch, pass]; simp), s2_eq, s1_eq]

/-! ### The write clock (R261) -/

theorem execWriteClockUnlock_holds {e : List Int}
    (few : (e.reverse.take 4).all (fun x => decide (lcfg s n 0x41 4 < x.natAbs)) = false) : exec (.writeClockUnlock n e) s = .next s :=
  if_neg fun h => by
    obtain ⟨-, -, -, -, all⟩ := h
    rw [few] at all
    cases all

theorem execWriteClockUnlock_unlocks {e : List Int} (closed : (laneAt s n).loop.closed[1] = true) (low : 4 ≤ (laneAt s n).life.st.code)
    (high : (laneAt s n).life.st.code ≤ 8) (four : (e.reverse.take 4).length = 4)
    (all : (e.reverse.take 4).all (fun x => decide (lcfg s n 0x41 4 < x.natAbs)) = true) :
    exec (.writeClockUnlock n e) s = .next (detectFault n 0x110E (setWr n (fun w => { w with clockLocked := false }) s)) :=
  if_pos ⟨closed, low, high, four, all⟩

/-- A fault detected cuts the pass in progress and leaves the rest of the write path alone (R49). -/
theorem wr_detectFault {code : Nat} : (laneAt (detectFault n code s) n).wr =
    { (laneAt s n).wr with pass := (laneAt s n).wr.pass.map (fun p => { p with cut := true }) } := by
  unfold detectFault
  extract_lets st s1 s2 s3
  have k2 : LK n [.life, .flt, .loop, .spin, .sled, .waiting] s1 s2 := lk_sledStop (subL (List.Subset.refl _) (by decide)) (.refl ..)
  have k3 : LK n [.life, .flt, .loop, .spin, .sled, .waiting] s1 s3 :=
    .ite (lk_openFocus (subL (List.Subset.refl _) (by decide)) k2) (.ite (lk_openTracking (subL (List.Subset.refl _) (by decide)) k2) k2)
  have k := lk_postCompletion (c := .fault code st) (subL (List.Subset.refl _) (by decide))
    (lk_faultSpindle (code := code) (List.Subset.refl _) k3)
  have cut : (laneAt s1 n).wr = { (laneAt s n).wr with pass := (laneAt s n).wr.pass.map (fun p => { p with cut := true }) } := by
    rw [laneAt_safeLaser, laneAt_setLane]
  exact (k.part (x := .wr) (by decide)).trans cut

/-- Settles O29: focus, jumps and captures by what the loops and the frame say; a frame followed leaves the lane on its address, whatever
state the lane then takes. -/
theorem focusLayersAndBands : Obligations.FocusLayersAndBands := by
  refine ⟨fun n peaks position s spun level opened sees => ?_, fun n peaks position s spun level opened misses => ?_,
    fun n peaks position s other => ?_, fun n outward k s layer focus up level noPass idle inside => ?_,
    fun n outward k s layer focus up level noPass idle inside => ?_, fun n w a speeds s may read own near target => ?_,
    fun n w a speeds s may read own far => ?_, fun n w a speeds s may read other few => ?_,
    fun n w speeds s barred => ?_, fun n w a s closed low high noPass read inside => ?_, fun n w s opened => ?_,
    fun n e s closed low high four all => ?_, fun n e s few => ?_⟩
  · rw [exec_focusCapture, focusCapture_sees spun level opened sees]
    exact ⟨_, rfl, lane_focusClosed spun⟩
  · rw [exec_focusCapture, focusCapture_misses spun level opened misses]
    exact ⟨_, rfl, lane_sweepFailed spun⟩
  · rw [exec_focusCapture, focusCapture_other other]
  · rw [exec_layerJump]
    exact ⟨_, rfl, lane_layerJump_lands layer (mayJump_iff focus up level noPass idle inside) focus⟩
  · rw [exec_layerJump, layerJump_eq layer (mayJump_iff focus up level noPass idle inside), if_neg (by decide)]
    exact ⟨_, rfl, safe_detectFault, by rw [closed_detectFault_focus]; rfl⟩
  · rw [exec_bandCapture, bandCapture_near may read own near]
    have captured := lane_captured (n := n) (w := w) (a := a)
      (s := shiftCoordinate n (roundDiv (16384 * ((a.band : Int) - expectedBand (laneAt s n).sled)) 1000) s)
      (by rw [life_shiftCoordinate]; exact target)
    rw [life_shiftCoordinate] at captured
    exact ⟨_, rfl, captured⟩
  · rw [exec_bandCapture, bandCapture_far may read own far]
    exact ⟨_, rfl, safe_detectFault, by rw [lastEvent_of_log log_detectFault, lastEvent_raise]⟩
  · rw [exec_bandCapture, bandCapture_mismatch may read other few]
    exact ⟨_, rfl, by simp [setLife], by simp [setLife]⟩
  · rw [exec_bandCapture, bandCapture_none barred]
  · rw [exec_wobbleFrame, wobbleFrame_reads closed low high noPass read inside]
    have groove := groove_becomeReady.trans (groove_opcReturned.trans (groove_frameTaken (s := s) (n := n) read))
    simp only [Lane.groove, Prod.mk.injEq] at groove
    obtain ⟨layer, band, frame, kind, bad, good, rms, place⟩ := groove
    exact ⟨_, rfl, layer, band, frame, kind, bad, good, rms, place⟩
  · rw [exec_wobbleFrame, wobbleFrame_open opened]
  · rw [execWriteClockUnlock_unlocks closed low high four all]
    exact ⟨_, rfl, by rw [wr_detectFault, setWr, laneAt_setLane], safe_detectFault⟩
  · rw [execWriteClockUnlock_holds few]

end Sys2Proof.Machine
end

section
/-! PROOFS. Extent reads: their start, their sectors, the decodes and the outcome (R141, R311, R339, R341, R346, R351, R352). -/

namespace Sys2Proof.Machine

variable {s t : State} {n : LaneId} {k : TrackId} {j : ReadJob} {d : Disc}

/-! ### The extent reads of a lane -/

/-- The extent read on a track of a lane. -/
def jobOf (n : LaneId) (k : TrackId) (s : State) : Option ReadJob := (laneAt s n).rd.jobs[k]

theorem jobOf_of_laneAt (same : laneAt t n = laneAt s n) : jobOf n k t = jobOf n k s := by unfold jobOf; rw [same]

theorem jobOf_of_jobs (same : (laneAt t n).rd.jobs = (laneAt s n).rd.jobs) : jobOf n k t = jobOf n k s := by unfold jobOf; rw [same]

theorem jobOf_setJob {f : ReadJob → ReadJob} : jobOf n k (setJob n k f s) = (jobOf n k s).map f := by
  unfold jobOf setJob setRd
  rw [laneAt_setLane]
  exact getElem_vecModify.trans (if_pos rfl)

theorem jobOf_setSector {i : Nat} {f : SectorRead → SectorRead} : jobOf n k (setSector n k i f s) =
    (jobOf n k s).map (fun j => { j with sectors := j.sectors.map (fun p => if p.1 = i then (p.1, f p.2) else p) }) := jobOf_setJob

theorem jobOf_setRd {f : ReadPath → ReadPath} (same : (f (laneAt s n).rd).jobs = (laneAt s n).rd.jobs) :
    jobOf n k (setRd n f s) = jobOf n k s := by
  refine jobOf_of_jobs ?_
  rw [setRd, laneAt_setLane]
  exact same

/-- A sector of a map of sectors after one has changed. -/
theorem mapGet_map_sector {i : Nat} {f : SectorRead → SectorRead} {r : SectorRead} :
    ∀ {l : List (Nat × SectorRead)}, mapGet l i = some r →
      mapGet (l.map (fun p => if p.1 = i then (p.1, f p.2) else p)) i = some (f r)
  | (a, x) :: rest, found => by
    by_cases own : a = i
    · subst own
      simp only [mapGet, if_true, Option.some.injEq] at found
      simp [mapGet, found]
    · simp only [mapGet, own, if_false] at found
      simpa [mapGet, own] using mapGet_map_sector found

/-- The sector changed is the one read afterwards. -/
theorem sector_setSector {i : Nat} {f : SectorRead → SectorRead} {r : SectorRead} (reads : jobOf n k s = some j)
    (record : mapGet j.sectors i = some r) : (jobOf n k (setSector n k i f s)).bind (fun x => mapGet x.sectors i) = some (f r) := by
  rw [jobOf_setSector, reads]
  exact mapGet_map_sector record

theorem laneAt_fillCores : laneAt (fillCores s) n = laneAt s n :=
  laneAt_of (keeps_fillCores (List.Subset.refl _) (.refl _ s)) (by decide) n

theorem laneAt_awaitCore {m : LaneId} {i stamp : Nat} {later : Bool} : laneAt (awaitCore m k i stamp later s) n = laneAt s n :=
  laneAt_of (keeps_awaitCore (List.Subset.refl _) (.refl _ s)) (by decide) n

/-! ### The start of a read (R37, R141, R572) -/

theorem exec_extentReadStart {slot : Nat} : exec (.extentReadStart n k slot) s = .next (extentReadStart n k slot s) := rfl

/-- A job alone is the first (R572). -/
theorem takenFirst_alone (r : JobRank) : takenFirst s r [r] = true := by
  unfold takenFirst
  split
  · simp
  · dsimp only
    split
    · simp_all
    · simp

theorem held_of_none (free : (laneAt s n).rd.held = Vector.replicate 4 none) : (laneAt s n).rd.held[k] = none := by
  rw [free]
  simp

theorem extentReadStart_idle {slot : Nat} (free : (laneAt s n).rd.held[k] = none) (noJobs : readJobs s n = []) :
    extentReadStart n k slot s = s := by
  unfold extentReadStart
  dsimp only
  rw [free, noJobs]
  rfl

/-- The only wanted extent is taken up where the lane stands in place (R141). -/
theorem extentReadStart_takes {slot y i : Nat} {fs : List Flight} {r : JobRank} (free : (laneAt s n).rd.held = Vector.replicate 4 none)
    (layer : (laneAt s n).life.layer = some y) (wanted : readJobs s n = [((y, k.val, slot), fs)]) (ranked : rankOf fs = some r)
    (idle : (laneAt s n).rd.jobs[k] = none) (stands : standsAt (laneAt s n) (dataPlace (72 * slot)).1 = true)
    (may : mayRead s n = true) (disc : (laneAt s n).disc = some d) (place : indexOfSlot d.skips[trackPos y k.val] slot = some i) :
    extentReadStart n k slot s = takeJob n k (newJob y slot none false (logicalExtent y k.val i)) s := by
  simp only [Fin.getElem_fin] at place
  unfold extentReadStart
  dsimp only
  rw [held_of_none free, wanted, layer]
  simp [ranked, takenFirst_alone, idle, stands, may, free, disc, place]

theorem lane_beginJob (n : LaneId) (k : TrackId) (j : ReadJob) (s : State) : (laneAt (beginJob n k j s) n).life.st = .reading ∧
    jobOf n k (beginJob n k j s) = some j := by
  unfold beginJob
  extract_lets s1
  refine ⟨st_enter, ?_⟩
  obtain ⟨p, c, entered⟩ := lane_enter n .reading (frameBegins n (setRd n (fun r => { r with
    jobs := r.jobs.set k (some j), held := r.held.set k none }) s1))
  unfold jobOf
  rw [entered]
  dsimp only
  rw [jobs_frameBegins, setRd, laneAt_setLane]
  simp

/-! ### Sector records (R311, R341) -/

theorem exec_sectorRecord {r : SectorSamples} : exec (.sectorRecord n k r) s = .next (sectorRecord n k r s) := rfl

theorem sectorRecord_none {r : SectorSamples} (idle : (laneAt s n).rd.jobs[k] = none) : sectorRecord n k r s = s := by
  unfold sectorRecord
  dsimp only
  rw [idle]

theorem jobOf_endLaneFrame {good : Bool} : jobOf n k (endLaneFrame n good s) = jobOf n k s := by
  unfold endLaneFrame
  refine jobOf_of_jobs ?_
  rw [jobs_frameBegins, laneAt_setLane]

theorem jobOf_setChan {c : ChanId} {f : Channel → Channel} : jobOf n k (setChan n c f s) = jobOf n k s := jobOf_setRd rfl

/-- What a delivered record becomes in its extent read (R344, R353). -/
def recordNow (j : ReadJob) (stamp : Nat) (r : SectorRead) : SectorRead :=
  { combine (decide (j.step ≠ 0)) (mapGet j.sectors j.next) r with stamp := stamp, tries := 0 }

theorem count_awaitCore {i stamp : Nat} {later : Bool} : (awaitCore n k i stamp later s).pool.count = s.pool.count := rfl

/-- A record delivered joins the extent read as its next sector, and the pool counts it. -/
theorem deliver_joins {r : SectorRead} (reads : jobOf n k s = some j) :
    jobOf n k (deliver n k r s) =
      some { j with sectors := mapSet j.sectors j.next (recordNow j s.pool.count r), next := j.next + 1 } ∧
    (deliver n k r s).pool.count = s.pool.count + 1 := by
  unfold deliver
  split
  next idle => cases idle.symm.trans reads
  next j' found =>
  obtain rfl : j' = j := Option.some.inj (found.symm.trans reads)
  extract_lets lead stamp fin combined now s1 s2 s3
  have joined : jobOf n k s1 = some { j' with sectors := mapSet j'.sectors j'.next now, next := j'.next + 1 } := by
    simp only [s1]
    rw [jobOf_setChan, jobOf_setChan, jobOf_setJob, reads]
    rfl
  have joined2 : jobOf n k s2 = jobOf n k s1 := rfl
  have count2 : s2.pool.count = stamp + 1 := rfl
  clear_value s2
  have after : jobOf n k s3 = jobOf n k s2 ∧ s3.pool.count = s2.pool.count := by
    simp only [s3]
    split
    · exact ⟨rfl, rfl⟩
    · exact ⟨jobOf_of_laneAt laneAt_awaitCore, count_awaitCore⟩
  clear_value s3
  split
  · have pool : (endLaneFrame n (!r.noTiming && !r.laneDrop) s3).pool = s3.pool :=
      (keeps_endLaneFrame (List.Subset.refl _) (.refl _ s3)).frame .pool (by decide)
    rw [jobOf_endLaneFrame, pool, after.1, after.2, joined2, joined, count2]
    exact ⟨rfl, rfl⟩
  · rw [after.1, after.2, joined2, joined, count2]
    exact ⟨rfl, rfl⟩

theorem jobs_adaptOutput {r : SectorSamples} {x : Detected} {c : ChanId} :
    (laneAt (adaptOutput n r x c s) n).rd.jobs = (laneAt s n).rd.jobs := by
  unfold adaptOutput
  dsimp only
  split
  · rfl
  · rw [setChan, setRd, laneAt_setLane]

theorem jobs_storeTaps {x : Detected} : (laneAt (storeTaps n k x s) n).rd.jobs = (laneAt s n).rd.jobs := by
  unfold storeTaps
  dsimp only
  split
  · rw [setRd, laneAt_setLane]
    rfl
  · rfl

/-- What a sector leaves in the outputs and taps of its track leaves the extent reads (R292, R302, R327). -/
theorem jobs_adaptTrack {r : SectorSamples} {x : Detected} : (laneAt (adaptTrack n k r x s) n).rd.jobs = (laneAt s n).rd.jobs := by
  unfold adaptTrack
  extract_lets l c codes env bal s1 s2
  have jobs1 : (laneAt s1 n).rd.jobs = (laneAt s n).rd.jobs := by
    simp only [s1]
    rw [jobs_storeTaps, jobs_adaptOutput, jobs_adaptOutput]
  have jobs2 : (laneAt s2 n).rd.jobs = (laneAt s1 n).rd.jobs := by
    simp only [s2]
    split <;> rfl
  clear_value s2
  split
  · rw [setRd, laneAt_setLane]
    exact jobs2.trans jobs1
  · exact jobs2.trans jobs1

/-- A sector that its track reads is delivered as the record that the detector gives. -/
theorem sectorRecord_joins {r : SectorSamples} (reads : (laneAt s n).rd.jobs[k] = some j) (unread : j.next < 72)
    (mode : channelMode (laneAt s n) = 1) (own : j.leadIn = true ∨ r.psa = j.psa k.val j.next) :
    jobOf n k (sectorRecord n k r s) = some { j with
      sectors := mapSet j.sectors j.next (recordNow j s.pool.count (recordOf s n k r.psa (detectSector s n k r)))
      next := j.next + 1 } ∧
    (sectorRecord n k r s).pool.count = s.pool.count + 1 := by
  unfold sectorRecord
  extract_lets l x record lost s1 s2
  split
  next idle => cases idle.symm.trans reads
  next j' found =>
  obtain rfl : j' = j := Option.some.inj (found.symm.trans reads)
  rw [if_pos ⟨unread, mode, own⟩]
  have same : jobOf n k (adaptTrack n k r x s2) = some j' := (jobOf_of_jobs jobs_adaptTrack).trans reads
  have pool : (adaptTrack n k r x s2).pool = s.pool :=
    (keeps_adaptTrack (List.Subset.refl _) (.refl _ s2)).frame .pool (by decide)
  rw [← pool]
  exact deliver_joins same

/-! ### Decodes (R339, R341, R343) -/

theorem exec_ldpcDecode {i : Nat} : exec (.ldpcDecode n k i) s = .next (decodeSector n k i s) := rfl

/-- A sector that no core holds waits (R341). -/
theorem decodeSector_waits {i : Nat}
    (free : (fillCores s).pool.held.any (fun x => decide (x.lane = n ∧ x.track = k ∧ x.sector = i)) = false) :
    decodeSector n k i s = fillCores s := by
  unfold decodeSector
  extract_lets s1
  split
  · split
    · exact if_neg (by rw [free]; decide)
    · rfl
  · rfl

section
variable {i : Nat} {r : SectorRead} (disc : (laneAt s n).disc = some d) (reads : (laneAt s n).rd.jobs[k] = some j)
  (record : mapGet j.sectors i = some r)
  (held : (fillCores s).pool.held.any (fun x => decide (x.lane = n ∧ x.track = k ∧ x.sector = i)) = true)
include disc reads record held

theorem decodeSector_completes : decodeSector n k i s = fillCores (decodeRecord n k i d j r (fillCores s)) := by
  unfold decodeSector
  dsimp only
  rw [laneAt_fillCores, disc, reads]
  dsimp only
  rw [record]
  exact if_pos held

end

theorem jobOf_lbump {m : LaneId} {i q x y : Nat} : jobOf n k (lbump m i q x y s) = jobOf n k s := rfl

/-- A record without soft values is judged as it stands. -/
theorem jobOf_judgeEmpty {i : Nat} {r : SectorRead} (reads : jobOf n k s = some j) (record : mapGet j.sectors i = some r) :
    ((jobOf n k (judgeEmpty n k i d j r s)).bind (fun x => mapGet x.sectors i)).map (fun x => (x.judged, x.good)) = some (true, r.good) := by
  unfold judgeEmpty
  extract_lets bad s1
  have judged : ((jobOf n k s1).bind (fun x => mapGet x.sectors i)).map (fun x => (x.judged, x.good)) = some (true, r.good) := by
    simp only [s1]
    rw [sector_setSector reads record]
    rfl
  clear_value s1
  split
  · rw [jobOf_setRd rfl]
    exact judged
  · exact judged

/-- The message that the last decode of a record leaves: the one decoded, where the checks of R343 hold. -/
theorem jobOf_judgeDecode {i : Nat} {r : SectorRead} {m : Option Bytes} (reads : jobOf n k s = some j)
    (record : mapGet j.sectors i = some r) :
    ((jobOf n k (judgeDecode n k i d j r m s)).bind (fun x => mapGet x.sectors i)).map (fun x => (x.judged, x.good)) =
      some (true, m.bind (fun m => if sectorOk d j k.val i m && !defective d r.psa then some m else none)) := by
  unfold judgeDecode
  extract_lets first ok good saved s1 s2 s3
  have good_eq : good = m.bind (fun m => if sectorOk d j k.val i m && !defective d r.psa then some m else none) := by
    cases m <;> rfl
  have judged : ((jobOf n k s1).bind (fun x => mapGet x.sectors i)).map (fun x => (x.judged, x.good)) = some (true, good) := by
    simp only [s1]
    rw [sector_setSector reads record]
    rfl
  have same : jobOf n k s3 = jobOf n k s1 := by
    simp only [s3]
    split <;> rfl
  rw [← good_eq, ← judged, ← same]
  clear_value s3
  split
  · rw [jobOf_setRd rfl]
  · split
    · rw [jobOf_setRd rfl]
    · rfl

/-- A record with soft values and no false start is decoded once and judged. -/
theorem decodeRecord_judges {i : Nat} {r : SectorRead} (timed : r.noTiming = false) (recorded : r.blank = false)
    (noStarts : r.falseStarts = []) : ∃ u, laneAt u n = laneAt s n ∧ decodeRecord n k i d j r s = judgeDecode n k i d j r
      (decodeOnce (lcfg s n 0x30 4) (lcfg s n 0x30 (if j.step = 0 then 1 else 2)) r).1 u := by
  unfold decodeRecord
  rw [if_neg (by simp [timed, recorded])]
  simp only [noStarts, List.isEmpty_nil, Bool.not_true, Bool.and_false, Bool.false_and, Bool.false_eq_true, if_false, decide_eq_true_eq]
  refine ⟨_, ?_, rfl⟩
  split <;> rfl

/-! ### The outcome (R351) -/

theorem exec_extentReadOutcome : exec (.extentReadOutcome n k) s = .next (extentReadOutcome n k s) := rfl

theorem extentReadOutcome_waits (reads : (laneAt s n).rd.jobs[k] = some j) (partly : allJudged j = false) :
    extentReadOutcome n k s = s := by
  unfold extentReadOutcome
  rw [reads]
  dsimp only
  rw [if_neg (by rw [partly]; simp)]

/-- An extent read at its outcome, with its count entered in the histogram of L+E3:0A. -/
def outcomeCounted (n : LaneId) (j : ReadJob) (s : State) : State :=
  lbump n 0xE3 0xA (histogramBin ((j.sectors.filter (fun p => p.2.firstFlagged)).length)) 1 s

theorem laneAt_outcomeCounted : laneAt (outcomeCounted n j s) n = laneAt s n := laneAt_lbump

theorem extentReadOutcome_counts (reads : (laneAt s n).rd.jobs[k] = some j) (phase : j.phase = 0) (step : j.step = 0)
    (judged : allJudged j = true) : extentReadOutcome n k s = takeCount n k (outcomeCounted n j s) := by
  unfold extentReadOutcome
  rw [reads]
  dsimp only
  rw [if_pos ⟨phase, step, judged⟩]
  rfl

section
variable (disc : (laneAt s n).disc = some d) (reads : (laneAt s n).rd.jobs[k] = some j) (phase : j.phase = 0) (step : j.step = 0)
  (judged : allJudged j = true)
include disc reads phase step judged

/-- No flagged data sector: the read ends (R351). -/
theorem extentReadOutcome_ends (whole : (laneAt s n).rd.held[k] = none)
    (clean : (flaggedOf d j k.val).any (fun i => decide (i < 64)) = false) :
    extentReadOutcome n k s = finishJob n k (outcomeCounted n j s) := by
  have lane := laneAt_outcomeCounted (n := n) (j := j) (s := s)
  rw [extentReadOutcome_counts reads phase step judged]
  unfold takeCount
  rw [lane, disc, reads]
  dsimp only
  rw [if_pos (by rw [clean]; rfl)]
  unfold concludeJob
  rw [lane, reads, whole]
  rfl

/-- Up to 8 flagged sectors go to the outer code (R346, R351). -/
theorem extentReadOutcome_outer (flagged : (flaggedOf d j k.val).any (fun i => decide (i < 64)) = true)
    (few : (flaggedOf d j k.val).length ≤ 8) :
    extentReadOutcome n k s = setJob n k (fun x => { x with phase := 1 }) (outcomeCounted n j s) := by
  have lane := laneAt_outcomeCounted (n := n) (j := j) (s := s)
  rw [extentReadOutcome_counts reads phase step judged]
  unfold takeCount
  rw [lane, disc, reads]
  dsimp only
  rw [if_neg (by rw [flagged]; decide), if_neg (by rw [step]; simp), if_pos few]

end

/-! ### The ladder (R352, R355) -/

theorem exec_ladderStep : exec (.ladderStep n k) s = .next (ladderStep n k s) := rfl

theorem ladderStep_other (reads : (laneAt s n).rd.jobs[k] = some j) (other : j.phase ≠ 2) : ladderStep n k s = s := by
  unfold ladderStep
  rw [reads]
  exact if_pos other

theorem ladderStep_starts (reads : (laneAt s n).rd.jobs[k] = some j) (phase : j.phase = 2) (step : j.step = 0)
    (on : lcfg s n 0x30 3 ≠ 0) (lost : missing s n k j ≠ []) (alone : otherLadder (laneAt s n) k = false) :
    ladderStep n k s = startLadder n k s := by
  unfold ladderStep
  rw [reads]
  dsimp only
  rw [if_neg (by rw [phase]; decide), if_pos step, if_neg (by rw [alone]; decide)]
  unfold ladderOrEnd
  rw [reads]
  dsimp only
  rw [if_neg (by simp [on, lost]), if_neg (by rw [alone]; decide)]

theorem jobOf_foldl_awaitCore (f : Nat → Nat) (l : List Nat) :
    jobOf n k (l.foldl (fun a i => awaitCore n k i (f i) true a) s) = jobOf n k s := by
  induction l generalizing s with
  | nil => rfl
  | cons i l ih => exact ih.trans (jobOf_of_laneAt laneAt_awaitCore)

/-- A ladder starts with step 1: the flagged sectors are decoded again (R352). -/
theorem jobOf_startLadder (disc : (laneAt s n).disc = some d) (reads : (laneAt s n).rd.jobs[k] = some j) :
    (jobOf n k (startLadder n k s)).map (fun x => (x.step, x.reads, x.phase)) = some (1, 0, 2) := by
  unfold startLadder
  set s1 : State := lbump n 0xE3 7 0 1 (setLane n (fun l => { l with warm := { l.warm with frames := 0 } }) s) with s1_eq
  have lane : laneAt s1 n = { laneAt s n with warm := { (laneAt s n).warm with frames := 0 } } := by
    rw [s1_eq, laneAt_lbump, laneAt_setLane]
  have reads1 : (laneAt s1 n).rd.jobs[k] = some j := by rw [lane]; exact reads
  have disc1 : (laneAt s1 n).disc = some d := by rw [lane]; exact disc
  clear_value s1
  unfold beginRead
  dsimp only
  rw [disc1, reads1]
  dsimp only
  rw [if_pos rfl, if_pos rfl, jobOf_foldl_awaitCore, jobOf_setJob]
  rw [show jobOf n k s1 = some j from reads1]
  rfl

end Sys2Proof.Machine
end

section
/-! PROOFS. The counters of the outer code in L+E3: what the end of an extent read leaves of them (R346). -/

namespace Sys2Proof.Machine

variable {s t u : State} {n : LaneId} {k : TrackId} {j : ReadJob} {d : Disc}

/-! ### The counters of the outer code -/

theorem laneOfIndex_laneIdx {off : Nat} (own : off < 256) : laneOfIndex (laneIdx n off) = some n := by
  unfold laneOfIndex laneIdx laneOf
  rw [if_pos (by omega)]
  refine congrArg some (Fin.ext ?_)
  simp only [Fin.ofNat]
  omega

/-- A lane's entry rests on the stored values and, by its default, on the lane's pickup. -/
theorem stored_laneIdx_congr {off : Nat} (own : off < 256) (reg : t.dict.reg = s.dict.reg)
    (pickup : (laneAt t n).life.pickup = (laneAt s n).life.pickup) (q : Nat) : stored t (laneIdx n off) q = stored s (laneIdx n off) q := by
  have cls : pickupClass t n = pickupClass s n := by unfold pickupClass; rw [pickup]
  unfold stored
  rw [reg, laneOfIndex_laneIdx own]
  simp only [Option.bind_some, cls]

/-- The counts of L+E3:05 and L+E3:06 stand from `s` to `t`. -/
def OuterCounts (n : LaneId) (s t : State) : Prop := ∀ q, q = 5 ∨ q = 6 → stored t (laneIdx n 0xE3) q = stored s (laneIdx n 0xE3) q

theorem OuterCounts.refl (n : LaneId) (s : State) : OuterCounts n s s := fun _ _ => rfl

theorem OuterCounts.trans (h : OuterCounts n s t) (h' : OuterCounts n t u) : OuterCounts n s u :=
  fun q own => (h' q own).trans (h q own)

/-- What writes no entry and leaves the lane its pickup leaves the counts. -/
theorem OuterCounts.of_fit {p : List Part} (kept : Keeps p s t) (reg : .reg ∉ p) (fit : Fit n s t) : OuterCounts n s t :=
  fun q _ => stored_laneIdx_congr (by decide) (kept.frame .reg reg) fit.pickup q

theorem OuterCounts.of_keeps {p : List Part} (kept : Keeps p s t) (reg : .reg ∉ p) (lanes : p.contains .lanes = false) : OuterCounts n s t :=
  .of_fit kept reg (.of_laneAt (laneAt_of kept lanes n))

theorem OuterCounts.foldl {α : Type} {f : State → α → State} (each : ∀ a x, OuterCounts n a (f a x)) (l : List α) :
    OuterCounts n s (l.foldl f s) := by
  induction l generalizing s with
  | nil => exact .refl n s
  | cons x l ih => exact (each s x).trans ih

/-- The count of another entry leaves them. -/
theorem outerCounts_bump {index sub i c : Nat} (low : sub < 256) (apart : index ≠ laneIdx n 0xE3 ∨ (sub ≠ 5 ∧ sub ≠ 6)) :
    OuterCounts n s (bump index sub i c s) := by
  intro q own
  refine stored_store_of_ne (regKey_ne low (by omega) ?_)
  rcases apart with index' | sub'
  · exact .inl index'.symm
  · exact .inr (by omega)

/-- The counters of the unit, below the lanes' entries, leave them. -/
theorem outerCounts_bump_unit {index sub i c : Nat} (low : sub < 256) (unit : index < 0x4000) : OuterCounts n s (bump index sub i c s) :=
  outerCounts_bump low (.inl (by unfold laneIdx; omega))

theorem outerCounts_raise {code : Nat} {l : List EvField} : OuterCounts n s (raise code l s) :=
  .of_keeps (keeps_raise (List.Subset.refl _) (.refl _ s)) (by decide) (by decide)

/-! ### The buffer memory and its cache -/

theorem outerCounts_mem {m : Memory} : OuterCounts n s { s with mem := m } := fun _ _ => rfl

theorem outerCounts_setCache {f : Cache → Cache} : OuterCounts n s (setCache f s) := fun _ _ => rfl

theorem outerCounts_lifeUnit {i : Fin 8} {c : Nat} : OuterCounts n s (lifeUnit i c s) := fun _ _ => rfl

theorem outerCounts_countBadRead {line : Nat} {bad : Bool} : OuterCounts n s (countBadRead line bad s) := fun _ _ => rfl

theorem outerCounts_raiseUncorrectable {line found : Nat} : OuterCounts n s (raiseUncorrectable line found s) := by
  unfold raiseUncorrectable
  dsimp only
  split
  · exact outerCounts_mem.trans (outerCounts_bump_unit (by decide) (by decide))
  · exact outerCounts_mem.trans outerCounts_raise

theorem outerCounts_countCorrection {line dev : Nat} : OuterCounts n s (countCorrection line dev s) := by
  unfold countCorrection
  extract_lets i c m s1 m1
  have counted : OuterCounts n s s1 := outerCounts_mem.trans ((outerCounts_bump_unit (by decide) (by decide)).trans outerCounts_lifeUnit)
  clear_value s1
  split
  · exact counted.trans (outerCounts_mem.trans outerCounts_raise)
  · exact counted

theorem outerCounts_fetchLine {found line : Nat} : OuterCounts n s (fetchLine found line s).2.2 := by
  unfold fetchLine
  dsimp only
  split
  · exact outerCounts_countBadRead
  · exact outerCounts_mem.trans (outerCounts_countBadRead.trans outerCounts_countCorrection)
  · exact outerCounts_countBadRead.trans (outerCounts_bump_unit (by decide) (by decide))
  · exact outerCounts_mem.trans (outerCounts_countBadRead.trans ((outerCounts_bump_unit (by decide) (by decide)).trans
      (outerCounts_lifeUnit.trans outerCounts_raiseUncorrectable)))

theorem outerCounts_demandRead {line : Nat} : OuterCounts n s (demandRead line s).2 :=
  outerCounts_fetchLine.trans outerCounts_fetchLine

theorem outerCounts_demandWrite {line poison : Nat} {data : Bytes} : OuterCounts n s (demandWrite line data poison s) :=
  outerCounts_fetchLine.trans outerCounts_mem

theorem outerCounts_drainOne : OuterCounts n s (drainOne s) := by
  unfold drainOne
  split
  · exact .refl n s
  · exact outerCounts_setCache.trans (outerCounts_demandWrite.trans (outerCounts_bump_unit (by decide) (by decide)))

theorem outerCounts_drainAll : OuterCounts n s (drainAll s) := .foldl (fun _ _ => outerCounts_drainOne) _

theorem outerCounts_evict {set way : Nat} : OuterCounts n s (evict set way s) :=
  .of_keeps (keeps_evict (List.Subset.refl _) (.refl _ s)) (by decide) (by decide)

theorem outerCounts_install {line way poison age : Nat} {data : Bytes} {dirty : Bool} :
    OuterCounts n s (install line way data poison age dirty s) :=
  outerCounts_setCache.trans (outerCounts_bump_unit (by decide) (by decide))

/-- A victim made free for a line: the write-back buffer drained, the victim's line in it. -/
theorem outerCounts_makeRoom {set way : Nat} : OuterCounts n s (evict set way (drainAll s)) := outerCounts_drainAll.trans outerCounts_evict

theorem outerCounts_completeFill {b : Fin 16} : OuterCounts n s (completeFill b s) := by
  unfold completeFill
  split
  · exact .refl n s
  · next m _ =>
    extract_lets set s1 s2
    have room : OuterCounts n s s1 := outerCounts_makeRoom
    clear_value s1
    have filled : OuterCounts n s1 s2 := by
      simp only [s2]
      split
      · split
        · exact outerCounts_install
        · exact outerCounts_demandRead.trans outerCounts_install
      · exact outerCounts_demandRead.trans outerCounts_install
    exact (room.trans filled).trans (outerCounts_setCache.trans (outerCounts_bump_unit (by decide) (by decide)))

/-- A miss: counted, the victim made free. -/
theorem outerCounts_missed {set way : Nat} {c : Cache} :
    OuterCounts n s (evict set way (drainAll (bump 0x2430 1 1 1 { s with cache := c }))) :=
  (outerCounts_setCache (f := fun _ => c)).trans ((outerCounts_bump_unit (by decide) (by decide)).trans outerCounts_makeRoom)

theorem outerCounts_ensureLine {line : Nat} : OuterCounts n s (ensureLine line s).2 := by
  unfold ensureLine
  extract_lets s0
  have filled : OuterCounts n s s0 := outerCounts_completeFill
  clear_value s0
  split
  · exact filled.trans (outerCounts_setCache.trans (outerCounts_bump_unit (by decide) (by decide)))
  · exact filled.trans (outerCounts_missed.trans (outerCounts_demandRead.trans outerCounts_install))

theorem outerCounts_lineGet {line : Nat} : OuterCounts n s (lineGet line s).2 := by
  unfold lineGet
  split
  · exact outerCounts_ensureLine
  · exact outerCounts_demandRead

theorem outerCounts_linePut {line poison : Nat} {data : Bytes} : OuterCounts n s (linePut line data poison s) := by
  unfold linePut
  split
  · extract_lets s0
    have filled : OuterCounts n s s0 := outerCounts_completeFill
    clear_value s0
    split
    · exact filled.trans (outerCounts_setCache.trans (outerCounts_bump_unit (by decide) (by decide)))
    · exact filled.trans (outerCounts_missed.trans outerCounts_install)
  · exact outerCounts_demandWrite

theorem outerCounts_linePart {line off mark : Nat} {b : Bytes} : OuterCounts n s (linePart line off b mark s) := by
  unfold linePart
  split
  · exact outerCounts_linePut
  · exact outerCounts_lineGet.trans outerCounts_linePut

theorem outerCounts_bufferWrite {a mark : Nat} {b : Bytes} (fuel : Nat) : OuterCounts n s (bufferWrite fuel a b mark s) := by
  induction fuel generalizing a b s with
  | zero => exact .refl n s
  | succ fuel ih =>
    unfold bufferWrite
    split
    · exact .refl n s
    · exact outerCounts_linePart.trans ih

/-! ### Delivery, losses and refresh copies -/

theorem outerCounts_deliverGood : OuterCounts n s (deliverGood n j s) := by
  unfold deliverGood
  split
  · exact .refl n s
  · refine .foldl (fun a i => ?_) _
    split
    · exact outerCounts_bufferWrite 65
    · exact .refl n a

theorem outerCounts_loseSectors {lost : List Nat} : OuterCounts n s (loseSectors n k j lost s) := by
  unfold loseSectors
  split
  · exact .refl n s
  · next team x _ =>
    split
    · exact .refl n s
    · extract_lets lbas now s1 s2
      have marked : OuterCounts n s s2 := .of_keeps (p := [.teams, .host])
        (keeps_setTeam (by decide) (keeps_setFlights (by decide) (.refl _ s))) (by decide) (by decide)
      clear_value s2
      exact marked.trans ((outerCounts_bump (by decide) (.inr (by decide))).trans ((outerCounts_bump (by decide) (.inr (by decide))).trans outerCounts_raise))

theorem outerCounts_setLane {f : Lane → Lane} (pickup : (f (laneAt s n)).life.pickup = (laneAt s n).life.pickup) :
    OuterCounts n s (setLane n f s) := fun q _ => stored_setLane pickup _ q

theorem outerCounts_dropRefresh {reason : Nat} {p : Copy → Bool} : OuterCounts n s (dropRefresh n reason p s) := by
  unfold dropRefresh
  dsimp only
  split
  · exact .refl n s
  · exact ((outerCounts_setLane rfl).trans (outerCounts_bump (by decide) (.inr (by decide)))).trans outerCounts_raise

theorem outerCounts_checkSpare {layer track : Nat} : OuterCounts n s (checkSpare n layer track s) := by
  unfold checkSpare
  split
  · exact .refl n s
  · extract_lets left pos s1
    have warned : OuterCounts n s s1 := by
      simp only [s1]
      split
      · exact (outerCounts_setLane rfl).trans outerCounts_raise
      · exact .refl n s
    clear_value s1
    split
    · exact warned.trans outerCounts_dropRefresh
    · exact warned

theorem outerCounts_queueRefresh {i : Nat} {msg : Bytes} : OuterCounts n s (queueRefresh n k j i msg s) := by
  unfold queueRefresh
  split
  · exact .refl n s
  · exact (outerCounts_bufferWrite 65).trans (outerCounts_setLane rfl)

theorem outerCounts_queueRefreshes : OuterCounts n s (queueRefreshes n k j s) := by
  unfold queueRefreshes
  dsimp only
  split
  · refine .trans (.foldl (fun a p => ?_) _) outerCounts_checkSpare
    split
    · split
      · exact outerCounts_queueRefresh
      · exact .refl n a
    · exact .refl n a
  · exact .refl n s

/-! ### The end of an extent read -/

theorem fit_opcHold : Fit n s (opcHold n s) := by
  unfold opcHold
  dsimp only
  split
  · split
    · exact .refl n s
    · exact (fit_setWarm.trans fit_enter).trans (.set rfl rfl)
  · exact .refl n s

theorem fit_holdCheck : Fit n s (holdCheck n s) := by
  unfold holdCheck
  split
  · exact fit_enter
  · exact fit_opcHold

theorem fit_leaveReading : Fit n s (leaveReading n s) := by
  unfold leaveReading
  extract_lets l s1
  have left : Fit n s s1 := .set rfl rfl
  clear_value s1
  split
  · exact left.trans ((Fit.set rfl rfl).trans (fit_enter.trans fit_holdCheck))
  · exact left

theorem fit_readsEnd : Fit n s (readsEnd n s) := by
  have idle : Fit n s (idleChannels n s) := .set rfl rfl
  unfold readsEnd
  dsimp only
  split
  · exact .refl n s
  · split
    · exact idle.trans fit_leaveReading
    · exact idle

theorem outerCounts_readsEnd : OuterCounts n s (readsEnd n s) :=
  .of_fit (keeps_readsEnd (List.Subset.refl _) (.refl _ s)) (by decide) fit_readsEnd

theorem outerCounts_noteSlot : OuterCounts n s (noteSlot n k j s) := by
  unfold noteSlot
  split
  · exact .refl n s
  · exact outerCounts_setLane rfl

theorem outerCounts_finishJob : OuterCounts n s (finishJob n k s) := by
  unfold finishJob
  split
  · exact .refl n s
  · next j _ =>
    extract_lets lost s1 s2 more
    have settled : OuterCounts n s s1 := (outerCounts_setLane rfl).trans (outerCounts_setLane rfl)
    clear_value s1
    have posted : OuterCounts n s1 s2 := outerCounts_deliverGood.trans (outerCounts_loseSectors.trans
      (outerCounts_queueRefreshes.trans (outerCounts_noteSlot.trans (outerCounts_setLane rfl))))
    clear_value s2
    exact (settled.trans posted).trans ((outerCounts_setLane rfl).trans outerCounts_readsEnd)

/-! ### The read that has ended -/

theorem jobOf_holdCheck : jobOf n k (holdCheck n s) = jobOf n k s := by
  have rd : (laneAt (holdCheck n s) n).rd = (laneAt s n).rd := (lk_holdCheck (List.Subset.refl _) (.refl n _ s)).part (x := .rd) (by decide)
  exact jobOf_of_jobs (congrArg ReadPath.jobs rd)

theorem jobOf_idleChannels : jobOf n k (idleChannels n s) = jobOf n k s := by
  refine jobOf_of_jobs ?_
  rw [idleChannels, laneAt_setLane]

theorem jobOf_enter {x : LaneState} : jobOf n k (enter n x s) = jobOf n k s := by
  obtain ⟨p, c, entered⟩ := lane_enter n x s
  refine jobOf_of_jobs ?_
  rw [entered]

theorem jobOf_setLife {f : Life → Life} : jobOf n k (setLife n f s) = jobOf n k s := by
  refine jobOf_of_jobs ?_
  rw [setLife, laneAt_setLane]

theorem jobOf_leaveReading : jobOf n k (leaveReading n s) = none := by
  unfold leaveReading
  extract_lets l s1
  have emptied : jobOf n k s1 = none := by
    simp only [s1, jobOf, laneAt_setLane]
    simp
  clear_value s1
  split
  · rw [jobOf_holdCheck, jobOf_enter, jobOf_setLife, emptied]
  · exact emptied

/-- Whether the lane reads on or not, a read that has gone stays gone. -/
theorem jobOf_readsEnd (gone : jobOf n k s = none) : jobOf n k (readsEnd n s) = none := by
  unfold readsEnd
  dsimp only
  split
  · exact gone
  · split
    · exact jobOf_leaveReading
    · exact jobOf_idleChannels.trans gone

/-- An extent read outside a lead-in is gone once it has ended (R47). -/
theorem jobOf_finishJob (reads : (laneAt s n).rd.jobs[k] = some j) (extent : j.leadIn = false) : jobOf n k (finishJob n k s) = none := by
  unfold finishJob
  rw [reads]
  dsimp only
  refine jobOf_readsEnd ?_
  unfold jobOf
  rw [setRd, laneAt_setLane]
  simp [extent]

/-! ### The outer code (R346 to R348) -/

theorem exec_outerDecode : exec (.outerDecode n k) s = .next (outerStepOf n k s) := rfl

theorem held_setJob {f : ReadJob → ReadJob} : (laneAt (setJob n k f s) n).rd.held = (laneAt s n).rd.held := by
  rw [setJob, setRd, laneAt_setLane]

theorem outerCounts_setJob {f : ReadJob → ReadJob} : OuterCounts n s (setJob n k f s) := outerCounts_setLane rfl

theorem concludeJob_good (reads : (laneAt s n).rd.jobs[k] = some j) (whole : (laneAt s n).rd.held[k] = none) :
    concludeJob n k true s = finishJob n k s := by
  unfold concludeJob
  rw [reads, whole]
  rfl

/-- A read that fails its first pass ends where L+30:03 allows no ladder (R351). -/
theorem concludeJob_noLadder (reads : (laneAt s n).rd.jobs[k] = some j) (whole : (laneAt s n).rd.held[k] = none) (step : j.step = 0)
    (off : lcfg s n 0x30 3 = 0) : concludeJob n k false s = finishJob n k s := by
  unfold concludeJob
  rw [reads, whole]
  dsimp only
  rw [if_neg (by decide), if_pos step]
  unfold ladderOrEnd
  rw [reads]
  exact if_pos (.inl off)

/-- An extent read whose data sectors the outer code has rebuilt (R347). -/
def rebuiltJob (l : List (Nat × Bytes)) (x : ReadJob) : ReadJob :=
  { x with
    phase := 2
    sectors := x.sectors.map (fun p =>
      match l.find? (fun q => decide (q.1 = p.1)) with
      | some q => (p.1, { p.2 with good := some q.2, outcome := 7 })
      | none => p) }

section
variable (disc : (laneAt s n).disc = some d) (reads : (laneAt s n).rd.jobs[k] = some j) (whole : (laneAt s n).rd.held[k] = none)
  (phase : j.phase = 1)
include disc reads whole phase

/-- Sectors rebuilt are counted and the read ends. -/
theorem outerStepOf_rebuilds {l : List (Nat × Bytes)} (found : rebuilt d j k.val = some l) : outerStepOf n k s =
    finishJob n k (lbump n 0xE3 5 0 1 (lbump n 0xE3 6 0 l.length (setJob n k (rebuiltJob l) s))) := by
  unfold outerStepOf
  rw [disc, reads]
  dsimp only
  rw [if_neg (by rw [phase]; decide), found]
  dsimp only
  refine concludeJob_good (j := rebuiltJob l j) ?_ ?_
  · exact jobOf_setJob.trans (congrArg (Option.map _) reads)
  · rw [laneAt_lbump, laneAt_lbump, held_setJob]
    exact whole

/-- Without a rebuild and without a ladder the read ends. -/
theorem outerStepOf_fails (step : j.step = 0) (off : lcfg s n 0x30 3 = 0) (lost : rebuilt d j k.val = none) : outerStepOf n k s =
    finishJob n k (setJob n k (fun x => { x with phase := if x.step = 0 then 0 else 2 }) s) := by
  unfold outerStepOf
  rw [disc, reads]
  dsimp only
  rw [if_neg (by rw [phase]; decide), lost]
  dsimp only
  refine concludeJob_noLadder (j := { j with phase := if j.step = 0 then 0 else 2 }) ?_ ?_ step ?_
  · exact jobOf_setJob.trans (congrArg (Option.map _) reads)
  · rw [held_setJob]
    exact whole
  · exact (lcfg_setLane rfl _ _).trans off

end

/-- The counts of a read rebuilt are those of its state, advanced (R346). -/
theorem stored_rebuilt {l : List (Nat × Bytes)} {f : ReadJob → ReadJob} :
    let t := lbump n 0xE3 5 0 1 (lbump n 0xE3 6 0 l.length (setJob n k f s))
    stored t (laneIdx n 0xE3) 5 = stored (lbump n 0xE3 5 0 1 s) (laneIdx n 0xE3) 5 ∧
      stored t (laneIdx n 0xE3) 6 = stored (lbump n 0xE3 6 0 l.length s) (laneIdx n 0xE3) 6 := by
  have kept := outerCounts_setJob (n := n) (k := k) (f := f) (s := s)
  have apart : regKey (laneIdx n 0xE3) 6 ≠ regKey (laneIdx n 0xE3) 5 := regKey_ne (by decide) (by decide) (.inr (by decide))
  unfold lbump bump
  dsimp only
  constructor
  · rw [stored_store_same, stored_store_same, stored_store_of_ne apart, kept 5 (.inl rfl)]
  · rw [stored_store_of_ne apart.symm, stored_store_same, stored_store_same, kept 6 (.inr rfl)]

end Sys2Proof.Machine
end

section
/-! PROOFS. Extents are read sector by sector, decoded, and end (R141, R311, R339, R341, R346, R351, R352). -/

namespace Sys2Proof.Machine

variable {s t : State} {n : LaneId} {k : TrackId} {j : ReadJob} {d : Disc}

/-- A read taken up by an order is the lane's, and the lane is READING (R37, R141). -/
theorem takeJob_begins (room : (laneAt s n).flt.orders.length < 64) : (laneAt (takeJob n k j s) n).life.st = .reading ∧
    (laneAt (takeJob n k j s) n).rd.jobs[k] = some j := by
  unfold takeJob
  rw [orderNow_of_room room]
  exact lane_beginJob n k j _

/-- A sector's record becomes the sector that its track reads next. -/
theorem sectorRecord_reads {r : SectorSamples} (reads : (laneAt s n).rd.jobs[k] = some j) (unread : j.next < 72)
    (mode : channelMode (laneAt s n) = 1) (own : j.leadIn = true ∨ r.psa = j.psa k.val j.next) :
    (laneAt (sectorRecord n k r s) n).rd.jobs[k].map (fun x => x.next) = some (j.next + 1) ∧
    ((laneAt (sectorRecord n k r s) n).rd.jobs[k].bind (fun x => mapGet x.sectors j.next)) =
      some (recordNow j s.pool.count (recordOf s n k r.psa (detectSector s n k r))) ∧
    (sectorRecord n k r s).pool.count = s.pool.count + 1 := by
  obtain ⟨joined, counted⟩ := sectorRecord_joins reads unread mode own
  unfold jobOf at joined
  rw [joined]
  refine ⟨rfl, ?_, counted⟩
  simp only [Option.bind_some, mapGet_mapSet, if_true]

section
variable {i : Nat} {r : SectorRead} (disc : (laneAt s n).disc = some d) (reads : (laneAt s n).rd.jobs[k] = some j)
  (record : mapGet j.sectors i = some r)
  (held : (fillCores s).pool.held.any (fun x => decide (x.lane = n ∧ x.track = k ∧ x.sector = i)) = true)
include disc reads record held

/-- A record without soft values is judged by the core that holds it. -/
theorem decodeSector_judgesEmpty (empty : r.noTiming = true ∨ r.blank = true) :
    ((laneAt (decodeSector n k i s) n).rd.jobs[k].bind (fun x => mapGet x.sectors i)).map (fun x => (x.judged, x.good)) =
      some (true, r.good) := by
  rw [decodeSector_completes disc reads record held, laneAt_fillCores]
  have judges : decodeRecord n k i d j r (fillCores s) = judgeEmpty n k i d j r (fillCores s) := by
    unfold decodeRecord
    exact if_pos (by simpa using empty)
  rw [judges]
  exact jobOf_judgeEmpty ((jobOf_of_laneAt laneAt_fillCores).trans reads) record

/-- A record with soft values is judged by the message decoded and the checks of R343. -/
theorem decodeSector_judgesMessage (timed : r.noTiming = false) (recorded : r.blank = false) (noStarts : r.falseStarts = []) :
    ((laneAt (decodeSector n k i s) n).rd.jobs[k].bind (fun x => mapGet x.sectors i)).map (fun x => (x.judged, x.good)) =
      some (true, ((decodeOnce (lcfg s n 0x30 4) (lcfg s n 0x30 (if j.step = 0 then 1 else 2)) r).1).bind
        (fun m => if sectorOk d j k.val i m && !defective d r.psa then some m else none)) := by
  obtain ⟨u, lane, judges⟩ := decodeRecord_judges (s := fillCores s) (n := n) (k := k) (d := d) (j := j) (i := i) timed recorded noStarts
  rw [decodeSector_completes disc reads record held, laneAt_fillCores, judges]
  exact jobOf_judgeDecode ((jobOf_of_laneAt (lane.trans laneAt_fillCores)).trans reads) record

end

section
variable (disc : (laneAt s n).disc = some d) (reads : (laneAt s n).rd.jobs[k] = some j) (whole : (laneAt s n).rd.held[k] = none)
  (extent : j.leadIn = false)
include disc reads whole extent

/-- An extent with no flagged data sector ends at its outcome (R351). -/
theorem extentReadOutcome_gone (phase : j.phase = 0) (step : j.step = 0) (judged : allJudged j = true)
    (clean : (flaggedOf d j k.val).any (fun i => decide (i < 64)) = false) : (laneAt (extentReadOutcome n k s) n).rd.jobs[k] = none := by
  rw [extentReadOutcome_ends disc reads phase step judged whole clean]
  refine jobOf_finishJob (j := j) ?_ extent
  rw [laneAt_outcomeCounted]
  exact reads

/-- An extent read that the outer code has rebuilt ends, its rebuild and the rebuilt sectors counted (R346, R351). -/
theorem outerStepOf_rebuilt (phase : j.phase = 1) {l : List (Nat × Bytes)} (found : rebuilt d j k.val = some l) :
    (laneAt (outerStepOf n k s) n).rd.jobs[k] = none ∧
    stored (outerStepOf n k s) (laneIdx n 0xE3) 5 = stored (lbump n 0xE3 5 0 1 s) (laneIdx n 0xE3) 5 ∧
    stored (outerStepOf n k s) (laneIdx n 0xE3) 6 = stored (lbump n 0xE3 6 0 l.length s) (laneIdx n 0xE3) 6 := by
  rw [outerStepOf_rebuilds disc reads whole phase found]
  obtain ⟨five, six⟩ := stored_rebuilt (s := s) (n := n) (k := k) (l := l) (f := rebuiltJob l)
  refine ⟨jobOf_finishJob (j := rebuiltJob l j) ?_ extent, ?_, ?_⟩
  · exact (jobOf_setJob (s := s)).trans (congrArg (Option.map _) reads)
  · exact (outerCounts_finishJob 5 (.inl rfl)).trans five
  · exact (outerCounts_finishJob 6 (.inr rfl)).trans six

/-- One that the outer code cannot rebuild ends where no ladder follows, and counts nothing (R351). -/
theorem outerStepOf_lost (phase : j.phase = 1) (step : j.step = 0) (off : lcfg s n 0x30 3 = 0) (lost : rebuilt d j k.val = none) :
    (laneAt (outerStepOf n k s) n).rd.jobs[k] = none ∧
    stored (outerStepOf n k s) (laneIdx n 0xE3) 5 = stored s (laneIdx n 0xE3) 5 ∧
    stored (outerStepOf n k s) (laneIdx n 0xE3) 6 = stored s (laneIdx n 0xE3) 6 := by
  rw [outerStepOf_fails disc reads whole phase step off lost]
  have kept := outerCounts_setJob (s := s) (n := n) (k := k) (f := fun x => { x with phase := if x.step = 0 then 0 else 2 })
  have counts := kept.trans (outerCounts_finishJob (k := k))
  refine ⟨jobOf_finishJob (j := { j with phase := if j.step = 0 then 0 else 2 }) ?_ extent, counts 5 (.inl rfl), counts 6 (.inr rfl)⟩
  exact jobOf_setJob.trans (congrArg (Option.map _) reads)

end

/-- Settles O37, one lemma to a clause: the start of a read, its records, its decodes, its outcome, the outer code and the start
of the ladder. -/
theorem extentsReadAndDecoded : Obligations.ExtentsReadAndDecoded := by
  unfold Obligations.ExtentsReadAndDecoded
  refine ⟨?taken, ?idle, ?joins, ?unread, ?empty, ?decoded, ?waits, ?ends, ?outer, ?partly, ?outerCode, ?ladder, ?noLadder⟩
  case taken =>
    intro n k slot y i fs r d s free layer wanted ranked idle stands may room disc place
    refine ⟨_, exec_extentReadStart, ?_⟩
    rw [extentReadStart_takes free layer wanted ranked idle stands may disc place]
    exact takeJob_begins room
  case idle =>
    intro n k slot s free noJobs
    exact exec_extentReadStart.trans (congrArg _ (extentReadStart_idle free noJobs))
  case joins =>
    intro n k r j s reads unread mode own
    exact ⟨_, exec_sectorRecord, sectorRecord_reads reads unread mode own⟩
  case unread =>
    intro n k r s idle
    exact exec_sectorRecord.trans (congrArg _ (sectorRecord_none idle))
  case empty =>
    intro n k i d j r s disc reads record empty held
    exact ⟨_, exec_ldpcDecode, decodeSector_judgesEmpty disc reads record held empty⟩
  case decoded =>
    intro n k i d j r s disc reads record timed recorded noStarts held
    exact ⟨_, exec_ldpcDecode, decodeSector_judgesMessage disc reads record held timed recorded noStarts⟩
  case waits =>
    intro n k i s free
    exact exec_ldpcDecode.trans (congrArg _ (decodeSector_waits free))
  case ends =>
    intro n k d j s disc reads whole extent _ phase step judged clean
    exact ⟨_, exec_extentReadOutcome, extentReadOutcome_gone disc reads whole extent phase step judged clean⟩
  case outer =>
    intro n k d j s disc reads phase step judged flagged few
    refine ⟨_, exec_extentReadOutcome, ?_⟩
    rw [extentReadOutcome_outer disc reads phase step judged flagged few]
    have counted : jobOf n k (outcomeCounted n j s) = some j := (jobOf_of_laneAt laneAt_outcomeCounted).trans reads
    exact jobOf_setJob.trans (congrArg (Option.map _) counted)
  case partly =>
    intro n k j s reads partly
    exact exec_extentReadOutcome.trans (congrArg _ (extentReadOutcome_waits reads partly))
  case outerCode =>
    intro n k d j s disc reads whole extent _ phase step off
    refine ⟨_, exec_outerDecode, ?_⟩
    split
    next l found => exact outerStepOf_rebuilt disc reads whole extent phase found
    next lost => exact outerStepOf_lost disc reads whole extent phase step off lost
  case ladder =>
    intro n k d j s disc reads _ phase step on lost alone
    refine ⟨_, exec_ladderStep, ?_⟩
    rw [ladderStep_starts reads phase step on lost alone]
    exact jobOf_startLadder disc reads
  case noLadder =>
    intro n k j s reads other
    exact exec_ladderStep.trans (congrArg _ (ladderStep_other reads other))

end Sys2Proof.Machine
end

section
/-! PROOFS. What a close of a write session rests on: the creations of volumes as its writes leave them, and the fields of a disc that
an operation keeps (R163, R213). -/

namespace Sys2Proof.Machine

variable {s t : State} {n m : LaneId} {d : Disc} {b : DueBlock} {backup : Bool} {v : List VerifyRead}

/-! ### Creations of volumes -/

/-- From `s` to `t` the teams and their members stand, so that every lane creates what it did. -/
structure MembersStand (s t : State) : Prop where
  teams : t.teams = s.teams
  members : ∀ u, cfg t (teamIdx u 0) 1 = cfg s (teamIdx u 0) 1

theorem MembersStand.refl (s : State) : MembersStand s s := ⟨rfl, fun _ => rfl⟩

theorem MembersStand.trans {r : State} (h : MembersStand s t) (k : MembersStand t r) : MembersStand s r :=
  ⟨k.teams.trans h.teams, fun u => (k.members u).trans (h.members u)⟩

theorem laneOfIndex_teamIdx {u : TeamId} : laneOfIndex (teamIdx u 0) = none :=
  if_neg fun lane => absurd lane.1 (Nat.not_le.mpr teamIdx_bounds.2)

theorem MembersStand.of_keeps {p : List Part} (kept : Keeps p s t) (teams : .teams ∉ p) (reg : .reg ∉ p) : MembersStand s t :=
  ⟨kept.frame .teams teams, fun _ => cfg_congr_reg (kept.frame .reg reg) laneOfIndex_teamIdx 1⟩

/-- A count of a lane leaves the teams' entries. -/
theorem membersStand_lbump {off sub i k : Nat} (low : sub < 256) : MembersStand s (lbump n off sub i k s) where
  teams := rfl
  members u := by
    have apart : teamIdx u 0 ≠ laneIdx n off := by
      have below := (teamIdx_bounds (u := u)).2
      unfold laneIdx
      omega
    exact congrArg fromLE (stored_store_of_ne (regKey_ne low (by decide) (.inl apart)))

theorem MembersStand.creating (h : MembersStand s t) : creating t n = creating s n := by
  unfold Sys2Proof.Machine.creating teamOfLane teamAt
  simp only [h.members, h.teams]

theorem membersStand_slowForWrite : MembersStand s (slowForWrite n s) :=
  .of_keeps (keeps_slowForWrite (List.Subset.refl _) (.refl _ s)) (by decide) (by decide)

theorem membersStand_writeLead {epoch : Nat} {records : List Bytes} : MembersStand s (writeLead n backup epoch records s) := by
  unfold writeLead
  split
  · exact .refl s
  · split
    extract_lets block s1
    have begun : MembersStand s s1 := .of_keeps (p := [.sent, .lanes, .ports])
      (keeps_loadStrategies (by decide) (keeps_passBegins (by decide) (.refl _ s))) (by decide) (by decide)
    clear_value s1
    split
    next msgs s2 built =>
    have drawn : MembersStand s1 s2 :=
      .of_keeps (.snd built (keeps_leadMessages (List.Subset.refl _) (.refl _ s1))) (by decide) (by decide)
    refine (begun.trans drawn).trans (.trans ?_ (membersStand_lbump (by decide)))
    exact .of_keeps (p := [.sent, .lanes, .ports]) (keeps_setWr (by decide) (keeps_playExtent (by decide) (.refl _ s2))) (by decide)
      (by decide)

theorem membersStand_asWriting {f : State → State} (each : ∀ a, MembersStand a (f a)) : MembersStand s (asWriting n f s) := by
  unfold asWriting
  dsimp only
  split
  · exact each s
  · have begun : MembersStand s (enter n .writing s) :=
      .of_keeps (keeps_enter (List.Subset.refl _) (.refl _ s)) (by decide) (by decide)
    refine (begun.trans (each _)).trans ?_
    exact .of_keeps (p := [.lanes]) (keeps_enter (by decide) (keeps_setLane (by decide) (.refl _ _))) (by decide) (by decide)

/-! ### Fields of a lane's disc -/

/-- From `s` to `t` what `g` reads of the disc in a lane stands. -/
def DiscStands {α : Type} (g : Disc → α) (n : LaneId) (s t : State) : Prop := (laneAt t n).disc.map g = (laneAt s n).disc.map g

section
variable {α : Type} {g : Disc → α}

theorem DiscStands.refl (g : Disc → α) (n : LaneId) (s : State) : DiscStands g n s s := rfl

theorem DiscStands.trans {r : State} (h : DiscStands g n s t) (k : DiscStands g n t r) : DiscStands g n s r := Eq.trans k h

theorem DiscStands.of_disc (same : (laneAt t n).disc = (laneAt s n).disc) : DiscStands g n s t := congrArg (Option.map g) same

theorem DiscStands.foldl {β : Type} {f : State → β → State} (each : ∀ a x, DiscStands g n a (f a x)) (l : List β) :
    DiscStands g n s (l.foldl f s) := by
  induction l generalizing s with
  | nil => exact .refl g n s
  | cons x l ih => exact (each s x).trans ih

theorem disc_setDisc {f : Disc → Disc} : (laneAt (setDisc n f s) n).disc = (laneAt s n).disc.map f := by
  unfold setDisc
  rw [laneAt_setLane]

section
variable (h : DiscStands g n s t)
include h

theorem DiscStands.setDisc {f : Disc → Disc} (same : ∀ d, g (f d) = g d) : DiscStands g n s (setDisc n f t) := by
  refine h.trans ?_
  unfold DiscStands
  rw [disc_setDisc, Option.map_map]
  exact congrArg (fun k => (laneAt t n).disc.map k) (funext same)

theorem DiscStands.raise {code : Nat} {l : List EvField} : DiscStands g n s (raise code l t) :=
  h.trans (.of_disc (congrArg Lane.disc laneAt_raise))

theorem DiscStands.checkReadOnlyLane : DiscStands g n s (checkReadOnlyLane m t) :=
  h.trans (.of_disc (congrArg Lane.disc (laneAt_of (keeps_checkReadOnlyLane (List.Subset.refl _) (.refl _ t)) (by decide) n)))

theorem DiscStands.dropRefresh {reason : Nat} {p : Copy → Bool} : DiscStands g n s (dropRefresh n reason p t) :=
  h.trans (.of_disc ((lk_dropRefresh (List.Subset.refl _) (.refl n _ t)).part (x := .disc) (by decide)))

end

end

end Sys2Proof.Machine
end

section
/-! PROOFS. A write session falls due, is closed in both lead-ins, and is closed by the recovery scan (R213, R215, R216, R225, R226). -/

namespace Sys2Proof.Machine

variable {s : State} {n : LaneId} {d : Disc} {b : DueBlock} {backup : Bool} {v : List VerifyRead}

/-! ### A session falls due (R213) -/

theorem exec_sessionCloseDue : exec (.sessionCloseDue n) s = .next (sessionCloseDue n s) := rfl

/-- What makes the close of an open session due: its length first, then its idle time. -/
theorem closeDue_sessionCloseDue (disc : (laneAt s n).disc = some d) (opened : d.openEpoch ≠ 0) (noScan : d.scanDue = false)
    (notDue : d.closeDue = none) (up : readyUp (laneAt s n).life.st = true) :
    (laneAt (sessionCloseDue n s) n).disc.map (fun x => x.closeDue) = some (
      if passed s d.sessionTick (secTicks (lcfg s n 0x21 2)) then some 1
      else if passed s d.lastStart (secTicks (lcfg s n 0x21 1)) then some 0 else none) := by
  unfold sessionCloseDue
  simp only [disc]
  rw [if_neg (by simp [opened, noScan, notDue, up])]
  split
  · rw [disc_setDisc, disc]; rfl
  · split
    · rw [disc_setDisc, disc]; rfl
    · rw [disc, ← notDue]; rfl

/-! ### A copy of the close is recorded (R215, R216, R258) -/

/-- The fields of a disc in which the close of a session shows. -/
def Disc.closing (d : Disc) : Bool × Nat × Nat × Nat × Nat × Option Nat :=
  (d.primaryDone, d.usedPrimary, d.usedBackup, d.epoch, d.openEpoch, d.closeDue)

/-- A disc with one slot more used of a lead-in. -/
def Disc.slotUsed (backup : Bool) (d : Disc) : Disc :=
  if backup then { d with usedBackup := d.usedBackup + 1 } else { d with usedPrimary := d.usedPrimary + 1 }

/-- The state with one copy of a block recorded, before its verify is judged. -/
def copyWritten (n : LaneId) (b : DueBlock) (backup : Bool) (v : List VerifyRead) (s : State) : State :=
  offsetOf n v (useLead n backup (asWriting n (writeLead n backup b.epoch b.records) s))

theorem disc_copyWritten : (laneAt (copyWritten n b backup v s) n).disc = (laneAt s n).disc.map (Disc.slotUsed backup) := by
  let played := asWriting n (writeLead n backup b.epoch b.records) s
  have before : (laneAt played n).disc = (laneAt s n).disc :=
    (lk_asWriting (Lq := [.st, .life, .wr, .rd, .warm, .plife]) (by decide) (.refl n _ s) fun _ k => lk_writeLead (by decide) k).part
      (x := .disc) (by decide)
  have after : (laneAt (copyWritten n b backup v s) n).disc = (laneAt (useLead n backup played) n).disc :=
    (lk_offsetOf (List.Subset.refl _) (.refl n _ (useLead n backup played))).part (x := .disc) (by decide)
  rw [after, ← before]
  exact disc_setDisc

theorem creating_copyWritten : creating (copyWritten n b backup v s) n = creating s n := by
  have played : MembersStand s (asWriting n (writeLead n backup b.epoch b.records) s) :=
    membersStand_asWriting fun _ => membersStand_writeLead
  refine (played.trans ?_).creating
  exact .of_keeps (p := [.lanes]) (keeps_offsetOf (by decide) (keeps_useLead (by decide) (.refl _ _))) (by decide) (by decide)

/-- A lead-in found full closes the disc for writing and leaves the close of its session as it stands (R227). -/
theorem discStands_checkLeadFull : DiscStands Disc.closing n s (checkLeadFull n s) := by
  unfold checkLeadFull
  split
  · exact .refl _ n s
  · split
    · exact .checkReadOnlyLane (.dropRefresh (.raise (.setDisc (.refl _ n s) fun _ => by rfl)))
    · exact .refl _ n s

/-- A disc whose session is closed. -/
def Disc.sessionEnded (d : Disc) : Disc :=
  { d with
    epoch := d.openEpoch, openEpoch := 0, ours := false, closeDue := none, scanDue := false, recNext := d.nextSlot, sessionRelocs := []
    sessionSkipped := 0 }

theorem laneAt_startupCheck : laneAt (startupCheck s) n = laneAt s n :=
  laneAt_of (keeps_startupCheck (List.Subset.refl _) (.refl _ s)) (by decide) n

/-- The close ends the session, whatever its kind. -/
theorem disc_sessionClosed {kind : Nat} :
    (laneAt (sessionClosed n d kind s) n).disc = (laneAt s n).disc.map Disc.sessionEnded := by
  unfold sessionClosed
  extract_lets s1 s2
  have ended : (laneAt s1 n).disc = (laneAt s n).disc.map Disc.sessionEnded := disc_setDisc
  clear_value s1
  have raised : laneAt s2 n = laneAt s1 n := laneAt_raise
  clear_value s2
  split
  · rw [laneAt_startupCheck, apply_ite (laneAt · n), laneAt_endWaits, ite_self, raised, ended]
  · exact ended

/-- A close that stands verified in both lead-ins ends its session. -/
theorem closing_blockRecorded {k : Nat} (disc : (laneAt s n).disc = some d) (due : d.closeDue = some k) (free : creating s n = none) :
    (laneAt (blockRecorded n s) n).disc.map Disc.closing = some (false, d.usedPrimary, d.usedBackup, d.openEpoch, 0, none) := by
  unfold blockRecorded
  simp only [disc, free, due]
  rw [disc_sessionClosed, blockDone, disc_setDisc, disc]
  rfl

/-- The first copy, once recorded, uses a slot of the primary lead-in, and its verify says whether that lead-in is done. -/
theorem closing_recordBlock_primary (disc : (laneAt s n).disc = some d) (fresh : d.primaryDone = false) :
    (laneAt (recordBlock n b false v s) n).disc.map Disc.closing =
      some ((upTo 72).all (readOk s n v), d.usedPrimary + 1, d.usedBackup, d.epoch, d.openEpoch, d.closeDue) := by
  have written : (laneAt (copyWritten n b false v s) n).disc = some (d.slotUsed false) := disc_copyWritten.trans (by rw [disc]; rfl)
  refine Eq.trans discStands_checkLeadFull ?_
  split
  next whole =>
    rw [if_neg Bool.false_ne_true]
    refine (congrArg (Option.map Disc.closing) (disc_setDisc (s := copyWritten n b false v s))).trans ?_
    rw [written, whole]
    rfl
  next failed =>
    refine (congrArg (Option.map Disc.closing) written).trans ?_
    rw [Bool.eq_false_of_not_eq_true failed]
    simp [Disc.closing, Disc.slotUsed, fresh]

/-- The second copy uses a slot of the backup lead-in; verified, it ends the session, and else the close stays due. -/
theorem closing_recordBlock_backup {k : Nat} (disc : (laneAt s n).disc = some d) (primary : d.primaryDone = true)
    (due : d.closeDue = some k) (free : creating s n = none) :
    (laneAt (recordBlock n b true v s) n).disc.map Disc.closing =
      some (if (upTo 72).all (readOk s n v) then (false, d.usedPrimary, d.usedBackup + 1, d.openEpoch, 0, none)
        else (true, d.usedPrimary, d.usedBackup + 1, d.epoch, d.openEpoch, some k)) := by
  have written : (laneAt (copyWritten n b true v s) n).disc = some (d.slotUsed true) := disc_copyWritten.trans (by rw [disc]; rfl)
  refine Eq.trans discStands_checkLeadFull ?_
  split
  next whole =>
    rw [if_pos rfl]
    exact closing_blockRecorded written due (creating_copyWritten.trans free)
  next failed =>
    refine (congrArg (Option.map Disc.closing) written).trans ?_
    simp [Disc.closing, Disc.slotUsed, primary, due]

/-! ### A lane in place records the next copy (R213, R251) -/

theorem exec_sessionCloseWrite : exec (.sessionCloseWrite n v) s = .next (sessionCloseWrite n v s) := rfl

/-- The block of a close that is due on a lane whose team creates nothing. -/
theorem dueBlock_close {k : Nat} (disc : (laneAt s n).disc = some d) (due : d.closeDue = some k) (free : creating s n = none) :
    dueBlock s n = some { epoch := d.openEpoch, records := closeRecords s n d k } := by
  unfold dueBlock
  simp only [disc, free, due, Option.map_some]

theorem disc_slowForWrite : (laneAt (slowForWrite n s) n).disc = (laneAt s n).disc :=
  (lk_slowForWrite (List.Subset.refl _) (.refl n _ s)).part (x := .disc) (by decide)

theorem creating_slowForWrite : creating (slowForWrite n s) n = creating s n := membersStand_slowForWrite.creating

/-- A lane that stands at the slot of the next copy of a due block and may write records it there. -/
theorem sessionCloseWrite_records {used layer slot tr : Nat} (disc : (laneAt s n).disc = some d) (due : dueBlock s n = some b)
    (taken : (if d.primaryDone then d.usedBackup else d.usedPrimary) = used) (room : used < leadRoom)
    (place : leadSlot d.primaryDone used = (layer, slot, tr)) (up : readyUp (laneAt s n).life.st = true)
    (idle : (laneAt s n).wr.pass = none) (noRead : laneReading (laneAt s n) = false) (steady : (laneAt s n).life.ramping = false)
    (focused : (laneAt s n).life.layer = some layer) (stands : standsAt (laneAt s n) (leadPlace (72 * slot)).1 = true)
    (may : mayRecord (slowForWrite n s) n = true)
    (framed : framedAt (laneAt s n).wr layer (leadPlace (72 * slot)).1 (leadPlace (72 * slot)).2 0 = true) :
    sessionCloseWrite n v s = recordBlock n b d.primaryDone v (slowForWrite n s) := by
  unfold sessionCloseWrite
  simp only [disc, due, taken, place]
  rw [if_neg (by simp [up, idle, noRead, steady]), if_neg (Nat.not_le.mpr room), if_neg (by simp [focused, stands]),
    if_pos (by simp [may, framed])]

/-! ### The recovery scan (R225, R226, R588) -/

theorem exec_recoveryScan_waits (disc : (laneAt s n).disc = some d) (due : d.scanDue = true) (up : readyUp (laneAt s n).life.st = true) :
    exec (.recoveryScan n) s = .next (beginWaits n s) :=
  if_pos ⟨up, by rw [disc]; exact due⟩

theorem exec_recoveryScanEnd {r : ScanRead} : exec (.recoveryScanEnd n r) s = .next (recoveryScanEnd n r s) := rfl

/-- The epochs of a disc: that of its last closed session, and that of the open one. -/
def Disc.epochs (d : Disc) : Nat × Nat := (d.epoch, d.openEpoch)

theorem epochs_addReloc {e : RelocEntry} : (addReloc d e).epochs = d.epochs := by
  unfold addReloc
  split <;> rfl

theorem epochs_scanWritten {layer k slot : Nat} : (scanWritten layer k slot d).epochs = d.epochs := by
  unfold scanWritten
  dsimp only
  split <;> rfl

theorem discStands_enterReloc {e : RelocEntry} : DiscStands Disc.epochs n s (enterReloc n e s) :=
  .setDisc (.refl _ n s) fun _ => epochs_addReloc

theorem discStands_checkOuter {pos : Fin 32} : DiscStands Disc.epochs n s (checkOuter n pos s) := by
  unfold checkOuter
  split
  · exact .refl _ n s
  · split
    · exact .refl _ n s
    · split
      · exact .checkReadOnlyLane (.refl _ n s)
      · exact .checkReadOnlyLane (.raise (.setDisc (.refl _ n s) fun _ => by rfl))

theorem discStands_skipSlot {layer k slot : Nat} : DiscStands Disc.epochs n s (skipSlot n layer k slot s) := by
  unfold skipSlot
  exact .trans (.setDisc discStands_enterReloc fun _ => by rfl) discStands_checkOuter

theorem discStands_scanSlots {layer k : Nat} (l : List SlotRead) (p : Nat) :
    DiscStands Disc.epochs n s (scanSlots n layer k l p s) := by
  induction l generalizing p s with
  | nil => exact .refl _ n s
  | cons r rest ih =>
    refine .trans (?taken : DiscStands Disc.epochs n s _) (ih (p + 1))
    split
    · exact .refl _ n s
    · split
      · exact .refl _ n s
      · split
        · exact .setDisc (.refl _ n s) fun _ => epochs_scanWritten
        · exact discStands_skipSlot

theorem discStands_scanCopy {c : CopyRead} : DiscStands Disc.epochs n s (scanCopy n c s) := by
  unfold scanCopy
  split
  · exact .refl _ n s
  · dsimp only
    split
    · exact discStands_enterReloc
    · exact .refl _ n s

/-- The state in which the scan has found a session open, as the epochs on the disc show it: what it holds of the session is known only
where the session is this device's. -/
def scanOpened (n : LaneId) (r : ScanRead) (d : Disc) (s : State) : State :=
  setDisc n (fun x => { x with
    openEpoch := x.seenEpoch, sessionStart := if x.ours then x.sessionStart else (draw (2 ^ 64) s).1
    sessionSectors := if x.ours then x.sessionSectors else 0, sessionRelocated := if x.ours then x.sessionRelocated else 0
    testUnit := r.units.foldl (fun v u => v.set u.1 (max v[u.1] u.2)) x.testUnit }) (if d.ours then s else (draw (2 ^ 64) s).2)

/-- The slots and then the copies that the scan has read, taken in. -/
def scanTaken (n : LaneId) (r : ScanRead) (d : Disc) (s : State) : State :=
  r.copies.foldl (fun a c => scanCopy n c a)
    (r.slots.foldl (fun a q => scanSlots n q.1.val q.2.1.val q.2.2 d.recNext[trackPos q.1.val q.2.1.val] a) s)

theorem epochs_scanOpened {r : ScanRead} (disc : (laneAt s n).disc = some d) :
    (laneAt (scanOpened n r d s) n).disc.map Disc.epochs = some (d.epoch, d.seenEpoch) := by
  have kept : (laneAt (if d.ours then s else (draw (2 ^ 64) s).2) n).disc = some d := by split <;> exact disc
  rw [scanOpened, disc_setDisc, kept]
  rfl

theorem discStands_scanTaken {r : ScanRead} : DiscStands Disc.epochs n s (scanTaken n r d s) :=
  .trans (.foldl (fun _ _ => discStands_scanSlots _ _) r.slots) (.foldl (fun _ _ => discStands_scanCopy) r.copies)

section
variable {r : ScanRead} (disc : (laneAt s n).disc = some d) (due : d.scanDue = true) (notDue : d.closeDue = none)
  (up : readyUp (laneAt s n).life.st = true) (idle : (laneAt s n).wr.pass = none) (noRead : laneReading (laneAt s n) = false)
include disc due notDue up idle noRead

theorem recoveryScanEnd_takes : recoveryScanEnd n r s =
    setDisc n (fun x => { x with closeDue := some 2 }) (scanTaken n r d (scanOpened n r d s)) := by
  unfold recoveryScanEnd
  simp only [disc]
  rw [if_pos (by simp [due, notDue, up, idle, noRead])]
  rfl

/-- The scan ends with the epoch that the disc shows open, whose close of kind 2 is due; the last closed epoch stands. -/
theorem recoveryScanEnd_closes : (laneAt (recoveryScanEnd n r s) n).disc.map (fun x => (x.closeDue, x.epochs)) =
    some (some 2, d.epoch, d.seenEpoch) := by
  have read : (laneAt (scanTaken n r d (scanOpened n r d s)) n).disc.map Disc.epochs = some (d.epoch, d.seenEpoch) :=
    Eq.trans discStands_scanTaken (epochs_scanOpened disc)
  obtain ⟨x, found, epochs⟩ := Option.map_eq_some_iff.mp read
  rw [recoveryScanEnd_takes disc due notDue up idle noRead, disc_setDisc, found]
  exact congrArg (fun e => some (some 2, e)) epochs

end

/-- Settles O27, one lemma to a clause: the session due, its two copies, the scan's hold and its end. -/
theorem writeSessionsClose : Obligations.WriteSessionsClose := by
  unfold Obligations.WriteSessionsClose
  refine ⟨?due, ?primary, ?backup, ?scan, ?scanned⟩
  case due =>
    intro n d s disc opened noScan notDue up
    exact ⟨_, exec_sessionCloseDue, closeDue_sessionCloseDue disc opened noScan notDue up⟩
  case primary =>
    intro n d k layer slot tr v s disc due free fresh room place up idle noRead steady focused stands may framed
    refine ⟨_, exec_sessionCloseWrite, ?_⟩
    rw [sessionCloseWrite_records disc (dueBlock_close disc due free) (by rw [fresh]; rfl) room (by rw [fresh]; exact place) up idle noRead
      steady focused stands may framed, fresh, ← due]
    exact closing_recordBlock_primary (disc_slowForWrite.trans disc) fresh
  case backup =>
    intro n d k layer slot tr v s disc due free primary room place up idle noRead steady focused stands may framed
    refine ⟨_, exec_sessionCloseWrite, ?_⟩
    rw [sessionCloseWrite_records disc (dueBlock_close disc due free) (by rw [primary]; rfl) room (by rw [primary]; exact place) up idle
      noRead steady focused stands may framed, primary]
    exact closing_recordBlock_backup (disc_slowForWrite.trans disc) primary due (creating_slowForWrite.trans free)
  case scan =>
    intro n d s disc due up
    exact exec_recoveryScan_waits disc due up
  case scanned =>
    intro n d r s disc due notDue up idle noRead
    exact ⟨_, exec_recoveryScanEnd, recoveryScanEnd_closes disc due notDue up idle noRead⟩

end Sys2Proof.Machine
end

section
/-! PROOFS. The write path of a lane: what an update of it leaves to be read, and what of a pass the encoder keeps (R240, R241, R262). -/

namespace Sys2Proof.Machine

variable {s t : State} {n : LaneId} {k : TrackId}

/-! ### The write path read after an update -/

theorem wr_setWr {f : WritePath → WritePath} : (laneAt (setWr n f s) n).wr = f (laneAt s n).wr := by
  unfold setWr
  rw [laneAt_setLane]

theorem wr_enter {x : LaneState} : (laneAt (enter n x s) n).wr = (laneAt s n).wr :=
  (lk_enter (List.Subset.refl _) (.refl n _ s)).part (x := .wr) (by decide)

/-- What a fold leaves alone at every step stands after it. -/
theorem foldl_leaves {α β γ : Type} {g : α → γ} {f : α → β → α} (each : ∀ a x, g (f a x) = g a) (l : List β) (a : α) :
    g (l.foldl f a) = g a := by
  induction l generalizing a with
  | nil => rfl
  | cons x l ih => exact (ih (f a x)).trans (each a x)

/-- A change that leaves the lane as it is changes nothing. -/
theorem setLane_same {f : Lane → Lane} (same : f (laneAt s n) = laneAt s n) : setLane n f s = s := by
  have lanes : vecModify s.lanes n f = s.lanes := by
    unfold vecModify
    unfold laneAt at same
    rw [same]
    exact Vector.set_getElem_self _
  unfold setLane
  rw [lanes]

/-! ### Where a pass stands in its sectors (R241, R262) -/

/-- Place, next sector and gates of a pass. -/
def Pass.course (p : Pass) : Nat × Nat × Nat × Bool × Bool := (p.layer, p.slot, p.sector, p.begun, p.cut)

/-- The course of the pass of a lane. -/
def courseOf (n : LaneId) (s : State) : Option (Nat × Nat × Nat × Bool × Bool) := (laneAt s n).wr.pass.map Pass.course

theorem courseOf_setTrack {f : PassTrack → PassTrack} : courseOf n (setTrack n k f s) = courseOf n s := by
  unfold courseOf setTrack setPass
  rw [wr_setWr]
  exact Option.map_map ..

/-- The encoder fills one track, after what it has read left the lanes alone, or does nothing. -/
theorem encodeSector_cases (n : LaneId) (sec : Nat) (k : TrackId) (s : State) :
    encodeSector n sec k s = s ∨ ∃ f u, laneAt u n = laneAt s n ∧ encodeSector n sec k s = setTrack n k f u := by
  unfold encodeSector
  dsimp only
  split
  · split
    · exact .inr ⟨_, s, rfl, rfl⟩
    · refine .inr ⟨_, _, ?_, rfl⟩
      exact laneAt_of (keeps_buildSector (List.Subset.refl _) (.refl _ s)) (by decide) n
  · exact .inl rfl

theorem courseOf_encodeSector {sec : Nat} : courseOf n (encodeSector n sec k s) = courseOf n s := by
  obtain idle | ⟨f, u, kept, filled⟩ := encodeSector_cases n sec k s
  · rw [idle]
  · rw [filled, courseOf_setTrack, courseOf, kept, courseOf]

/-- The encoder fills the tracks of a pass and moves nothing else of it. -/
theorem courseOf_encodeNext {sec : Nat} : courseOf n (encodeNext n sec s) = courseOf n s := by
  unfold encodeNext
  split
  · rfl
  · exact foldl_leaves (fun _ _ => courseOf_encodeSector) _ _

end Sys2Proof.Machine
end

section
/-! PROOFS. A write pass starts in place, or its lane is ordered there (R37, R208, R212, R236, R239, R251). -/

namespace Sys2Proof.Machine

variable {s : State} {n : LaneId} {d : Disc} {blank : List (TrackId × Bool)} {layer slot : Nat} {l : List (Nat × TeamId × Nat)}

/-! ### What comes before a pass (R236, R251, R572) -/

theorem exec_passStart : exec (.passStart n blank) s = .next (passStart n blank s) := rfl

theorem passStart_none (idle : nextPass s n = none) : passStart n blank s = s := by
  unfold passStart
  rw [idle]
  split
  next pass => cases pass
  · rfl

/-- With no read beside it, a pass is taken first, whatever it serves. -/
theorem takenFirst_unopposed (fs : List Flight) : ((rankOf fs).map (fun r => takenFirst s r [])).getD true = true := by
  cases rankOf fs with
  | none => rfl
  | some r => simp [takenFirst]

/-- A lane that a pass start has lowered to the write velocity. -/
def slowed (n : LaneId) (d : Disc) (s : State) : State :=
  if (laneAt s n).life.st = .ready ∧ discOpen (laneAt s n) d then slowForWrite n s else s

theorem lk_slowed : LK n [.spin, .pace] s (slowed n d s) := .ite (lk_slowForWrite (List.Subset.refl _) (.refl n _ s)) (.refl n _ s)

theorem slowForWrite_slow (slow : (laneAt s n).pace.v ≤ max 2496 (mediaVelocity (laneAt s n))) : slowForWrite n s = s :=
  setLane_same (if_neg (Nat.not_lt.mpr slow))

theorem slowed_slow (slow : (laneAt s n).pace.v ≤ max 2496 (mediaVelocity (laneAt s n))) : slowed n d s = s := by
  unfold slowed
  rw [slowForWrite_slow slow, ite_self]

/-- The disc of every lane stands while one is slowed. -/
theorem disc_slowForWrite_each (m : LaneId) : (laneAt (slowForWrite n s) m).disc = (laneAt s m).disc := by
  by_cases own : m = n
  · subst own
    exact disc_slowForWrite
  · exact congrArg Lane.disc ((lk_slowForWrite (List.Subset.refl _) (.refl n _ s)).others m own)

theorem wantedOn_slowForWrite {u : TeamId} {f : Flight} {m : LaneId} : wantedOn (slowForWrite n s) u f m = wantedOn s u f m := by
  have held : ∀ x, lbaHeld (slowForWrite n s) u x = lbaHeld s u x := fun x => by
    unfold lbaHeld
    simp only [disc_slowForWrite_each]
    rfl
  unfold wantedOn readsZero
  simp only [held]
  rfl

theorem readJobs_slowForWrite : readJobs (slowForWrite n s) n = readJobs s n := by
  have team : teamOfLane (slowForWrite n s) n = teamOfLane s n := by
    unfold teamOfLane
    simp only [membersStand_slowForWrite.members]
  unfold readJobs
  simp only [team, disc_slowForWrite, wantedOn_slowForWrite]
  rfl

theorem readJobs_slowed : readJobs (slowed n d s) n = readJobs s n := by
  unfold slowed
  split
  · exact readJobs_slowForWrite
  · rfl

/-! ### A lane in place (R239) -/

/-- What a pass start does on a lane in place: the slots found recorded are skipped, and the pass begins on the others. -/
def startInPlace (n : LaneId) (blank : List (TrackId × Bool)) (d : Disc) (layer slot : Nat) (l : List (Nat × TeamId × Nat)) (s : State) :
    State :=
  if mayWrite s n && !l.any (fun q => decide (slotSeen d layer q.1 slot blank = .unknown)) then
    let bad := (l.filter (fun q => decide (slotSeen d layer q.1 slot blank = .recorded))).map (fun q => q.1)
    let good := l.filter (fun q => !bad.contains q.1)
    if good.isEmpty then skipRecorded n layer slot bad s else beginPass n layer slot good (skipRecorded n layer slot bad s)
  else s

section
variable (disc : (laneAt s n).disc = some d) (due : nextPass s n = some (layer, slot, l)) (alone : readJobs s n = [])
include disc due alone

theorem passStart_first : passStart n blank s =
    if (laneAt (slowed n d s) n).life.layer ≠ some layer ∨ !standsAt (laneAt (slowed n d s) n) (dataPlace (72 * slot)).1 then
      orderTo n layer (dataPlace (72 * slot)).1 (slowed n d s)
    else startInPlace n blank d layer slot l (slowed n d s) := by
  have noRead : (readJobs (slowed n d s) n).filterMap (fun j => rankOf j.2) = [] := by rw [readJobs_slowed, alone]; rfl
  unfold passStart
  simp only [disc, due]
  rw [← slowed, noRead, List.isEmpty_nil, takenFirst_unopposed]
  rfl

theorem passStart_orders (away : (laneAt s n).life.layer ≠ some layer ∨ standsAt (laneAt s n) (dataPlace (72 * slot)).1 = false) :
    passStart n blank s = orderTo n layer (dataPlace (72 * slot)).1 (slowed n d s) := by
  have life : (laneAt (slowed n d s) n).life = (laneAt s n).life := lk_slowed.life (by decide) (by decide)
  rw [passStart_first disc due alone, if_pos]
  rw [standsAt, life]
  exact away.imp_right fun apart => by rw [← standsAt, apart]; rfl

theorem passStart_inPlace (focused : (laneAt s n).life.layer = some layer)
    (stands : standsAt (laneAt s n) (dataPlace (72 * slot)).1 = true)
    (slow : (laneAt s n).pace.v ≤ max 2496 (mediaVelocity (laneAt s n))) :
    passStart n blank s = startInPlace n blank d layer slot l s := by
  rw [passStart_first disc due alone, slowed_slow slow, if_neg (by simp [focused, stands])]

end

theorem startInPlace_unknown (unknown : l.any (fun q => decide (slotSeen d layer q.1 slot blank = .unknown)) = true) :
    startInPlace n blank d layer slot l s = s :=
  if_neg (by rw [unknown]; simp)

/-- On blank slots the pass begins with every extent due in them. -/
theorem startInPlace_blank (may : mayWrite s n = true) (filled : l ≠ [])
    (clear : l.all (fun q => decide (slotSeen d layer q.1 slot blank = .blank)) = true) :
    startInPlace n blank d layer slot l s = beginPass n layer slot l s := by
  have seen : ∀ q ∈ l, slotSeen d layer q.1 slot blank = .blank := by simpa using clear
  have known : l.any (fun q => decide (slotSeen d layer q.1 slot blank = .unknown)) = false :=
    List.any_eq_false.mpr fun q mem => by simp [seen q mem]
  have fresh : l.filter (fun q => decide (slotSeen d layer q.1 slot blank = .recorded)) = [] :=
    List.filter_eq_nil_iff.mpr fun q mem => by simp [seen q mem]
  unfold startInPlace
  rw [if_pos (by rw [may, known]; rfl), fresh]
  simp [skipRecorded, filled]

theorem skipRecorded_singleton {k : Nat} : skipRecorded n layer slot [k] s =
    raise 0x2014 [.u8 n.val, .u8 layer, .u8 k, .u32 slot] (skipSlot n layer k slot s) := by
  unfold skipRecorded
  rw [List.foldl_cons, List.foldl_nil]

/-- A single slot found recorded is skipped, and no pass begins. -/
theorem startInPlace_recorded {q : Nat × TeamId × Nat} (may : mayWrite s n = true)
    (recorded : slotSeen d layer q.1 slot blank = .recorded) :
    startInPlace n blank d layer slot [q] s = raise 0x2014 [.u8 n.val, .u8 layer, .u8 q.1, .u32 slot] (skipSlot n layer q.1 slot s) := by
  have known : [q].any (fun q => decide (slotSeen d layer q.1 slot blank = .unknown)) = false := by simp [recorded]
  have found : [q].filter (fun q => decide (slotSeen d layer q.1 slot blank = .recorded)) = [q] := by simp [recorded]
  have left : [q].filter (fun x => !([q].map (fun y => y.1)).contains x.1) = [] := by simp
  unfold startInPlace
  rw [if_pos (by rw [may, known]; rfl), found]
  dsimp only
  rw [left, if_pos List.isEmpty_nil, List.map_singleton, skipRecorded_singleton]

/-! ### The pass begins (R37, R212, R241) -/

/-- The epoch that is open once a session has begun: that of the session under way, or the one after the last closed. -/
theorem openEpoch_beginSession : (laneAt (beginSession n s) n).disc.map (fun x => x.openEpoch) =
    (laneAt s n).disc.map (fun d => if d.openEpoch ≠ 0 then d.openEpoch else d.epoch + 1) := by
  unfold beginSession
  dsimp only
  rw [disc_setDisc, Option.map_map]
  refine congrArg (fun g => (laneAt s n).disc.map g) (funext fun d => ?_)
  dsimp only [Function.comp_apply]
  split <;> rfl

theorem lane_startPass (good : List (Nat × TeamId × Nat)) : (laneAt (startPass n layer slot good s) n).life.st = .writing ∧
    courseOf n (startPass n layer slot good s) = some (layer, slot, 0, false, false) ∧
    (laneAt (startPass n layer slot good s) n).disc.map (fun x => x.openEpoch) =
      (laneAt s n).disc.map (fun d => if d.openEpoch ≠ 0 then d.openEpoch else d.epoch + 1) := by
  unfold startPass
  generalize begun : loadStrategies n layer (passBegins n (beginSession n s)) = u
  have session : (laneAt u n).disc = (laneAt (beginSession n s) n).disc := by
    rw [← begun]
    have kept : LK n [.wr, .rd, .warm] (beginSession n s) (loadStrategies n layer (passBegins n (beginSession n s))) :=
      lk_loadStrategies (by decide) (lk_passBegins (by decide) (.refl n _ _))
    exact kept.part (x := .disc) (by decide)
  refine ⟨?_, ?_, ?_⟩
  · have encoded : LK n [.wr] (enter n .writing (setWr n (fun w => { w with pass := some (newPass s layer slot good) }) u)) _ :=
      lk_encodeNext (sec := 0) (List.Subset.refl _) (.refl n _ _)
    exact (encoded.part (x := .st) (by decide)).trans st_enter
  · rw [courseOf_encodeNext, courseOf, wr_enter, wr_setWr]
    rfl
  · have encoded : LK n [.st, .life, .wr] u (encodeNext n 0 (enter n .writing
        (setWr n (fun w => { w with pass := some (newPass s layer slot good) }) u))) :=
      lk_encodeNext (by decide) (lk_enter (by decide) (lk_setWr (by decide) (.refl n _ u)))
    rw [encoded.part (x := .disc) (by decide), session, openEpoch_beginSession]

theorem beginPass_starts (room : (laneAt s n).flt.orders.length < 64) :
    beginPass n layer slot l s = startPass n layer slot l (orderTaken n (.write layer slot) s) := orderNow_of_room room

/-! ### A slot is skipped (R208) -/

theorem slots_addReloc {e : RelocEntry} : (addReloc d e).slots = d.slots := by
  unfold addReloc
  split <;> rfl

theorem discStands_slots_checkOuter {pos : Fin 32} : DiscStands Disc.slots n s (checkOuter n pos s) := by
  unfold checkOuter
  split
  · exact .refl _ n s
  · split
    · exact .refl _ n s
    · split
      · exact .checkReadOnlyLane (.refl _ n s)
      · exact .checkReadOnlyLane (.raise (.setDisc (.refl _ n s) fun _ => by rfl))

theorem slots_skipSlot {k : Nat} (disc : (laneAt s n).disc = some d) : (laneAt (skipSlot n layer k slot s) n).disc.map Disc.slots =
    some (vecModify d.slots (trackPos layer k) (fun m => mapSet m slot .skipped)) := by
  refine Eq.trans discStands_slots_checkOuter ?_
  rw [disc_setDisc, enterReloc, disc_setDisc, disc]
  simp [slots_addReloc]

theorem pass_of_mayWrite (may : mayWrite s n = true) : (laneAt s n).wr.pass = none := by
  unfold mayWrite at may
  dsimp only at may
  split at may
  · cases may
  · simp only [Bool.and_eq_true, Option.isNone_iff_eq_none] at may
    obtain ⟨⟨⟨⟨⟨⟨-, idle⟩, -⟩, -⟩, -⟩, -⟩, -⟩ := may
    exact idle

/-- Settles O33, one lemma to a clause: nothing due, a lane elsewhere, blank slots, a slot recorded and one not known. -/
theorem passesStartInPlace : Obligations.PassesStartInPlace := by
  unfold Obligations.PassesStartInPlace
  refine ⟨?idle, ?away, ?blank, ?recorded, ?unknown⟩
  case idle =>
    intro n blank s idle
    exact exec_passStart.trans (congrArg _ (passStart_none idle))
  case away =>
    intro n blank d layer slot l s disc due alone away
    refine ⟨_, exec_passStart, ?_⟩
    rw [passStart_orders disc due alone away, orderTo, laneAt_setLane]
    exact ⟨rfl, rfl, congrArg (fun w : WritePath => { w with moveFrom := none }) (lk_slowed.part (x := .wr) (by decide))⟩
  case blank =>
    intro n blank d layer slot l s disc due alone filled focused stands may slow room clear
    refine ⟨_, exec_passStart, ?_⟩
    rw [passStart_inPlace disc due alone focused stands slow, startInPlace_blank may filled clear, beginPass_starts room]
    obtain ⟨st, course, epoch⟩ := lane_startPass (n := n) (layer := layer) (slot := slot) (s := orderTaken n (.write layer slot) s) l
    refine ⟨st, course, epoch.trans ?_⟩
    rw [(lk_orderTaken n (.write layer slot) s).part (x := .disc) (by decide), disc]
    rfl
  case recorded =>
    intro n blank d layer slot q s disc due alone focused stands may slow recorded
    refine ⟨_, exec_passStart, ?_⟩
    rw [passStart_inPlace disc due alone focused stands slow, startInPlace_recorded may recorded]
    refine ⟨?_, ?_, lastEvent_raise⟩
    · have kept : LK n [.disc] s (skipSlot n layer q.1 slot s) := lk_skipSlot (List.Subset.refl _) (.refl n _ s)
      rw [laneAt_raise, kept.part (x := .wr) (by decide), pass_of_mayWrite may]
    · have skipped := congrArg (Option.map (fun v : Vector _ 32 => v[trackPos layer q.1]))
        (slots_skipSlot (k := q.1) (slot := slot) (layer := layer) disc)
      rw [laneAt_raise]
      simpa [vecModify] using skipped
  case unknown =>
    intro n blank d layer slot l s disc due alone focused stands slow unknown
    rw [exec_passStart, passStart_inPlace disc due alone focused stands slow, startInPlace_unknown unknown]

end Sys2Proof.Machine
end

section
/-! PROOFS. The end of a pass that has not come to it: a statement on it that fails (R141, R143). -/

namespace Sys2Proof.Machine

/-- A READY lane in mode HOLD with a pass that is neither cut nor played out. -/
def readyInPass : State :=
  store (laneIdx 6 0x01) 2 [3] (Tests.laneWith 6 fun l => { l with
    life := { l.life with st := .ready }
    wr := { l.wr with pass := some Tests.aPass } })

/-- PASS_END leaves the pass, and what the mode HOLD asks of a READY lane is done all the same. -/
theorem passEnd_readyInPass_state : (laneAt (holdCheck 6 (passEnd 6 readyInPass)) 6).life.st = .holding := by decide

/-- Refutes O34 in its last clause: with the pass still running, PASS_END brings a lane that is READY in mode HOLD to HOLDING, for the
clause does not ask that the lane be WRITING. -/
theorem not_sectorsPlayedAndVerified : ¬ Obligations.SectorsPlayedAndVerified := by
  rintro ⟨-, -, -, -, -, -, -, -, running⟩
  have stands : holdCheck 6 (passEnd 6 readyInPass) = readyInPass :=
    Host.Outcome.next.inj (running 6 Tests.aPass readyInPass (by decide) (by decide) (by decide))
  exact absurd (passEnd_readyInPass_state.symm.trans (congrArg (fun t => (laneAt t 6).life.st) stands)) (by decide)

end Sys2Proof.Machine
end

section
/-! PROOFS. What recording copies in a relocation slot leaves of a lane: its queue, its strategy bank and the entries of its session (R254,
R258, R267 to R270, R371, R372). -/

namespace Sys2Proof.Machine

variable {s t : State} {n : LaneId} {d : Disc} {c : Copy} {layer b q : Nat} {verify : List (TrackId × List VerifyRead)}

/-! ### The copies of a lane -/

/-- The queue of copies of a lane, its strategy bank, and the relocation entries of the session on its disc. -/
def Lane.copying (l : Lane) : List Copy × Fin 2 × Option (List RelocEntry) :=
  (l.wr.queue, l.wr.bank, l.disc.map (fun d => d.sessionRelocs))

theorem LK.copying {p : List LanePart} (k : LK n p s t) (disc : .disc ∉ p) (wr : .wr ∉ p) :
    (laneAt t n).copying = (laneAt s n).copying := by
  have kept : (laneAt t n).wr = (laneAt s n).wr := k.part (x := .wr) wr
  have kept' : (laneAt t n).disc = (laneAt s n).disc := k.part (x := .disc) disc
  unfold Lane.copying
  rw [kept, kept']

theorem copying_setWr {f : WritePath → WritePath} (queue : ∀ w, (f w).queue = w.queue) (bank : ∀ w, (f w).bank = w.bank) :
    (laneAt (setWr n f s) n).copying = (laneAt s n).copying := by
  unfold setWr
  rw [laneAt_setLane]
  unfold Lane.copying
  dsimp only
  rw [queue, bank]

theorem copying_setDisc {f : Disc → Disc} (relocs : ∀ d, (f d).sessionRelocs = d.sessionRelocs) :
    (laneAt (setDisc n f s) n).copying = (laneAt s n).copying := by
  unfold setDisc
  rw [laneAt_setLane]
  unfold Lane.copying
  dsimp only
  rw [Option.map_map]
  exact congrArg (fun g => ((laneAt s n).wr.queue, (laneAt s n).wr.bank, (laneAt s n).disc.map g)) (funext relocs)

theorem copying_beginSession : (laneAt (beginSession n s) n).copying = (laneAt s n).copying :=
  copying_setDisc fun d => by split <;> rfl

theorem copying_loadStrategies : (laneAt (loadStrategies n layer s) n).copying = (laneAt s n).copying := by
  unfold loadStrategies
  split
  · rfl
  · extract_lets l o tabs s1
    have sent : laneAt s1 n = laneAt s n := laneAt_of (p := [.sent, .ports])
      (.foldl _ _ _ (fun _ _ kept => .ite kept (keeps_sendLaser (by decide) kept)) (.refl _ s)) (by decide) n
    clear_value s1
    exact (copying_setWr (fun _ => by rfl) (fun _ => by rfl)).trans (congrArg Lane.copying sent)

theorem copying_offsetOf {reads : List VerifyRead} : (laneAt (offsetOf n reads s) n).copying = (laneAt s n).copying := by
  unfold offsetOf moveOffset
  dsimp only
  split
  · rfl
  · exact copying_setWr (fun _ => rfl) (fun _ => rfl)

theorem copying_enter {x : LaneState} : (laneAt (enter n x s) n).copying = (laneAt s n).copying :=
  (lk_enter (List.Subset.refl _) (.refl n _ s)).copying (by decide) (by decide)

theorem copying_endMove : (laneAt (endMove n s) n).copying = (laneAt s n).copying := by
  unfold endMove
  rw [laneAt_setLane]
  split <;> rfl

/-! ### A copy verified, and the room for others (R270, R278, R371, R372) -/

/-- A verified copy is told to its pass and to its extent. -/
theorem copying_copyVerified : (laneAt (copyVerified n c s) n).copying = (laneAt s n).copying := by
  unfold copyVerified
  split
  · rfl
  · extract_lets s1
    have told : (laneAt s1 n).copying = (laneAt s n).copying :=
      (copying_setWr (s := lbump n 0xE2 3 0 1 s) (fun _ => rfl) (fun _ => rfl))
    clear_value s1
    split
    · exact told
    · dsimp only
      split
      · exact told
      · refine Eq.trans (congrArg Lane.copying (laneAt_of (p := [.sent, .teams, .host, .pair, .work]) ?_ (by decide) n)) told
        exact keeps_freeExtents (by decide) (keeps_settleWrites (by decide) (keeps_setExtent (by decide) (.refl _ s1)))

/-- Where no copy is queued, none is dropped. -/
theorem dropRefresh_empty {reason : Nat} {f : Copy → Bool} (empty : (laneAt s n).wr.queue = []) : dropRefresh n reason f s = s := by
  unfold dropRefresh
  dsimp only
  rw [empty]
  rfl

theorem copying_checkSpare {track : Nat} (empty : (laneAt s n).wr.queue = []) :
    (laneAt (checkSpare n layer track s) n).copying = (laneAt s n).copying := by
  unfold checkSpare
  split
  · rfl
  · extract_lets left pos s1
    have warned : (laneAt s1 n).copying = (laneAt s n).copying := by
      simp only [s1]
      split
      · rw [laneAt_raise]
        exact copying_setDisc fun _ => rfl
      · rfl
    clear_value s1
    split
    · rw [dropRefresh_empty ((congrArg Prod.fst warned).trans empty), warned]
    · exact warned

/-! ### A relocation slot with one copy (R267, R268) -/

/-- The table's entry of a copy that is the first of its relocation slot. -/
def Copy.entry (layer b q : Nat) (c : Copy) : RelocEntry := { kind := 0, psa := c.psa, repl := relocPsa layer c.track.val b q 0 }

/-- One copy in a relocation slot whose sectors all pass verify gets its entry. -/
theorem recordCopies_verified {ok : Nat → Bool} (first : ok 0 = true) (parity : ∀ i < 8, ok (64 + i) = true) :
    recordCopies n layer c.track b q [c] ok s =
      copyVerified n c (enterReloc n (c.entry layer b q) s) := by
  have clean : (upTo 8).filter (fun i => !ok (64 + i)) = [] :=
    List.filter_eq_nil_iff.mpr fun i mem => by simp [parity i (List.mem_range.mp mem)]
  unfold recordCopies
  dsimp only
  rw [clean, List.foldl_nil, List.length_singleton, upTo, List.range_one, List.foldl_cons, List.foldl_nil]
  simp only [List.getElem?_cons_zero, first, if_true, Copy.entry]

theorem copying_enterReloc {e : RelocEntry} : (laneAt (enterReloc n e s) n).copying =
    ((laneAt s n).copying.1, (laneAt s n).copying.2.1, (laneAt s n).copying.2.2.map (fun l => l ++ [e])) := by
  unfold enterReloc setDisc
  rw [laneAt_setLane]
  unfold Lane.copying
  dsimp only
  rw [Option.map_map, Option.map_map]
  rfl

end Sys2Proof.Machine
end

section
/-! PROOFS. Relocation passes and moves, and the seal of an open extent (R266, R268, R269, R275). -/

namespace Sys2Proof.Machine

variable {s : State} {n : LaneId} {d : Disc} {c : Copy} {layer b q : Nat} {verify : List (TrackId × List VerifyRead)}

/-! ### The copies that a pass takes (R268) -/

theorem exec_relocationPass : exec (.relocationPass n verify) s = .next (relocationPass n verify s) := rfl

theorem relocUses_empty {l : Lane} (empty : l.wr.queue = []) : relocUses s l d layer b = [] := by
  unfold relocUses
  rw [empty]
  rfl

/-- One track of the four that brings something. -/
theorem filterMap_allTracks {α : Type} (k : TrackId) (x : α) : allTracks.filterMap (fun j => if j = k then some x else none) = [x] := by
  match k with
  | 0 | 1 | 2 | 3 => rfl

/-- A copy queued long enough goes to the lowest free slot of its track. -/
theorem relocUses_single {l : Lane} (queue : l.wr.queue = [c]) (own : c.layer = layer)
    (ready : passed s c.tick (nsTicks 200000) = true) (free : freeReloc d layer c.track.val b = some q) :
    relocUses s l d layer b = [(c.track, q, [c])] := by
  unfold relocUses
  dsimp only
  rw [queue, List.filter_cons_of_pos (by simp [own, ready]), List.filter_nil, ← filterMap_allTracks c.track (c.track, q, [c])]
  refine congrArg (allTracks.filterMap ·) (funext fun k => ?_)
  by_cases same : k = c.track
  · subst same
    simp [free]
  · simp [same, Ne.symm same]

/-- A copy that holds its bytes needs no staging. -/
theorem loadUses_single {k : TrackId} (loaded : c.addr = none) : loadUses n [(k, q, [c])] s = ([(k, q, [c])], s) := by
  unfold loadUses loadCopy
  simp [loaded]

/-! ### The copy recorded (R254, R267, R268) -/

/-- The state in which the relocation slots of a pass have been played out. -/
def relocPlayed (n : LaneId) (layer b : Nat) (use : List RelocUse) (s : State) : State :=
  let s1 := loadStrategies n layer (passBegins n (beginSession n s))
  let s2 := playReloc n (((laneAt s1 n).disc).getD Disc.fresh) layer b use (setWr n (fun w => { w with bank := otherBank w.bank }) s1)
  setDisc n (fun d => { d with sessionSectors := d.sessionSectors + 72 * use.length })
    (lbump n 0xE2 1 0 (72 * use.length) (lbump n 0xE2 6 0 (sumNat (use.map (fun u => 64 - u.2.2.length))) s2))

theorem copying_relocPlayed {use : List RelocUse} : (laneAt (relocPlayed n layer b use s) n).copying =
    ((laneAt s n).wr.queue, otherBank (laneAt s n).wr.bank, (laneAt s n).disc.map (fun d => d.sessionRelocs)) := by
  unfold relocPlayed
  extract_lets s1 s2
  have begun : (laneAt s1 n).copying = (laneAt s n).copying :=
    copying_loadStrategies.trans (((lk_passBegins (List.Subset.refl _) (.refl n _ _)).copying (by decide) (by decide)).trans
      copying_beginSession)
  clear_value s1
  have played : (laneAt s2 n).copying = (laneAt (setWr n (fun w => { w with bank := otherBank w.bank }) s1) n).copying :=
    (lk_playReloc (List.Subset.refl _) (.refl n _ _)).copying (by decide) (by decide)
  clear_value s2
  refine (copying_setDisc fun _ => by rfl).trans (played.trans ?_)
  rw [setWr, laneAt_setLane]
  exact congrArg (fun x : List Copy × Fin 2 × Option (List RelocEntry) => (x.1, otherBank x.2.1, x.2.2)) begun

/-- The lane whose queue holds the copies of a pass no longer. -/
def copiesTaken (n : LaneId) (use : List RelocUse) (s : State) : State :=
  setWr n (fun w => { w with queue := w.queue.filter (fun c => !use.any (fun u => u.2.2.contains c)) }) s

/-- A relocation pass for one copy that holds its bytes. -/
theorem relocate_single (loaded : c.addr = none) : relocate n layer b [(c.track, q, [c])] verify s =
    offsetOf n (readsOf verify c.track) (checkSpare n layer c.track.val
      (recordCopies n layer c.track b q [c] (readOk s n (readsOf verify c.track))
        (relocPlayed n layer b [(c.track, q, [c])] (copiesTaken n [(c.track, q, [c])] s)))) := by
  unfold relocate
  rw [← copiesTaken, loadUses_single loaded]
  dsimp only
  rw [List.flatMap_singleton, List.foldl_cons, List.foldl_nil]
  rfl

theorem copying_copiesTaken {k : TrackId} (queue : (laneAt s n).wr.queue = [c]) : (laneAt (copiesTaken n [(k, q, [c])] s) n).copying =
    ([], (laneAt s n).wr.bank, (laneAt s n).disc.map (fun d => d.sessionRelocs)) := by
  unfold copiesTaken setWr
  rw [laneAt_setLane]
  unfold Lane.copying
  dsimp only
  rw [queue, List.filter_cons_of_neg (by simp), List.filter_nil]

/-- A copy recorded and verified has left the queue and stands in the table; the bank has been switched. -/
theorem copying_relocate_single (queue : (laneAt s n).wr.queue = [c]) (loaded : c.addr = none)
    (verified : ∀ i < 72, readOk s n (readsOf verify c.track) i = true) :
    (laneAt (relocate n layer b [(c.track, q, [c])] verify s) n).copying = ([], otherBank (laneAt s n).wr.bank,
      (laneAt s n).disc.map (fun d => d.sessionRelocs ++ [c.entry layer b q])) := by
  have taken := copying_copiesTaken (q := q) (k := c.track) queue
  rw [relocate_single loaded, recordCopies_verified (verified 0 (by decide)) fun i small => verified (64 + i) (by omega)]
  generalize copiesTaken n [(c.track, q, [c])] s = u at taken
  obtain ⟨empty, bank, relocs⟩ : (laneAt u n).wr.queue = [] ∧ (laneAt u n).wr.bank = (laneAt s n).wr.bank ∧
      (laneAt u n).disc.map (fun d => d.sessionRelocs) = (laneAt s n).disc.map (fun d => d.sessionRelocs) := by
    simpa [Lane.copying] using taken
  have recorded : (laneAt (copyVerified n c (enterReloc n (c.entry layer b q) (relocPlayed n layer b [(c.track, q, [c])] u))) n).copying =
      ([], otherBank (laneAt s n).wr.bank,
      (laneAt s n).disc.map (fun d => d.sessionRelocs ++ [c.entry layer b q])) := by
    rw [copying_copyVerified, copying_enterReloc, copying_relocPlayed, empty, bank, relocs, Option.map_map]
    rfl
  rw [copying_offsetOf, copying_checkSpare (congrArg Prod.fst recorded), recorded]

/-! ### The pass (R141, R268) -/

theorem asWriting_idle {f : State → State} (idle : (laneAt s n).wr.pass = none) : asWriting n f s = enter n (laneAt s n).life.st
    (setLane n (fun x => { x with life := { x.life with idle := s.ticks } }) (f (enter n .writing s))) := by
  unfold asWriting
  rw [idle]
  rfl

theorem readOk_enter {x : LaneState} {reads : List VerifyRead} {i : Nat} : readOk (enter n x s) n reads i = readOk s n reads i := by
  have same : ∀ sub, lcfg (enter n x s) n 0x40 sub = lcfg s n 0x40 sub := lcfg_setLane (by split <;> rfl) 0x40
  unfold readOk verifyOk
  simp only [same]

theorem relocationPass_idle (empty : (laneAt s n).wr.queue = []) : relocationPass n verify s = s := by
  unfold relocationPass
  dsimp only
  split
  · rw [relocUses_empty empty, if_neg (by simp)]
  · rfl

theorem st_of_mayRelocate (may : mayRelocate s n = true) (idle : (laneAt s n).wr.pass = none) : (laneAt s n).life.st = .ready := by
  unfold mayRelocate at may
  dsimp only at may
  rw [idle] at may
  split at may
  · cases may
  · simp only [Bool.and_eq_true, decide_eq_true_eq] at may
    exact may.2

section
variable (disc : (laneAt s n).disc = some d) (focused : (laneAt s n).life.layer = some layer) (band : (laneAt s n).life.band = some b)
include disc focused band

/-- A lane at the index of a spare band, with one copy queued long enough for its layer, records it. -/
theorem relocationPass_records (may : mayRelocate s n = true) (framed : framedAt (laneAt s n).wr layer b 0 2 = true)
    (queue : (laneAt s n).wr.queue = [c]) (own : c.layer = layer) (ready : passed s c.tick (nsTicks 200000) = true)
    (free : freeReloc d layer c.track.val b = some q) : relocationPass n verify s =
      endMove n (asWriting n (relocate n layer b [(c.track, q, [c])] verify) s) := by
  unfold relocationPass
  simp only [disc, focused, band, relocUses_single queue own ready free]
  exact if_pos (by rw [may, framed]; rfl)

end

/-- After a pass for the one copy queued, the copy stands in the table and the queue is empty; the lane is READY again. -/
theorem asWriting_relocate_records (disc : (laneAt s n).disc = some d) (may : mayRelocate s n = true)
    (idle : (laneAt s n).wr.pass = none) (queue : (laneAt s n).wr.queue = [c]) (loaded : c.addr = none)
    (verified : (upTo 72).all (readOk s n (readsOf verify c.track)) = true) :
    (laneAt (endMove n (asWriting n (relocate n layer b [(c.track, q, [c])] verify) s)) n).life.st = .ready ∧
    (laneAt (endMove n (asWriting n (relocate n layer b [(c.track, q, [c])] verify) s)) n).copying =
      ([], otherBank (laneAt s n).wr.bank,
        some (d.sessionRelocs ++ [c.entry layer b q])) := by
  have disc' : (laneAt (enter n .writing s) n).disc = some d :=
    ((lk_enter (List.Subset.refl _) (.refl n _ s)).part (x := .disc) (by decide)).trans disc
  have verified' : ∀ i < 72, readOk (enter n .writing s) n (readsOf verify c.track) i = true := fun i small =>
    readOk_enter.trans (List.all_eq_true.mp verified i (List.mem_range.mpr small))
  have recorded := copying_relocate_single (layer := layer) (b := b) (q := q) (by rw [wr_enter, queue]) loaded verified'
  rw [wr_enter, disc'] at recorded
  rw [asWriting_idle idle]
  generalize relocate n layer b [(c.track, q, [c])] verify (enter n .writing s) = u at recorded
  constructor
  · refine Eq.trans ((lk_endMove (List.Subset.refl _) (.refl n _ _)).part (x := .st) (by decide)) ?_
    exact st_enter.trans (st_of_mayRelocate may idle)
  · rw [copying_endMove, copying_enter, laneAt_setLane]
    exact recorded

/-! ### The move (R269) -/

theorem exec_relocationMove : exec (.relocationMove n) s = .next (relocationMove n s) := rfl

theorem relocationMove_underWay (moving : (laneAt s n).wr.moveFrom.isSome = true) : relocationMove n s = s := by
  unfold relocationMove
  dsimp only
  split
  · rw [if_pos (.inr (.inl moving))]
  · rfl

theorem relocationMove_moves {sb : Nat} (disc : (laneAt s n).disc = some d) (focused : (laneAt s n).life.layer = some layer)
    (band : (laneAt s n).life.band = some b) (ready : (laneAt s n).life.st = .ready)
    (queued : queuedTracks (laneAt s n).wr.queue layer ≠ []) (rests : (laneAt s n).wr.moveFrom = none)
    (idle : (laneAt s n).wr.pass = none) (opened : discOpen (laneAt s n) d = true) (noRead : laneReading (laneAt s n) = false)
    (alone : dueCrosses s n layer b = false) (near : nearestSpare d layer (queuedTracks (laneAt s n).wr.queue layer) b = some sb) :
    relocationMove n s =
      setLane n (fun x => { x with wr := { x.wr with moveFrom := some b }, life := { x.life with targetBand := sb } }) s := by
  unfold relocationMove
  simp only [disc, focused, band, near]
  exact if_neg (by simp [queued, rests, idle, opened, ready, noRead, alone])

/-! ### The seal of an open extent (R275) -/

section
variable {u : TeamId} {x : Nat} {e : Extent}

theorem exec_sealDelayExpire : exec (.sealDelayExpire u x) s = execSealDelayExpire u x s := rfl

/-- What is read of an entry stands where every value of its list has kept it. -/
theorem mapGet_map_field {α β : Type} {f : Nat × α → α} {g : α → β} (same : ∀ p, g (f p) = g p.2) (l : List (Nat × α)) (x : Nat) :
    (mapGet (l.map (fun p => (p.1, f p))) x).map g = (mapGet l x).map g := by
  induction l with
  | nil => rfl
  | cons p l ih =>
    simp only [List.map_cons, mapGet]
    split
    · exact congrArg some (same p)
    · exact ih

theorem nsAt_setNs {f : Namespace → Namespace} : nsAt (setNs u f s) u = f (nsAt s u) := congrArg Team.ns teamAt_setTeam

theorem extents_addZeros {first count : Nat} : (nsAt (addZeros u first count s) u).extents = (nsAt s u).extents := by
  unfold addZeros
  split
  · rfl
  · rw [nsAt_setNs]

theorem extents_moveWp {z wp : Nat} : (nsAt (moveWp u z wp s) u).extents = (nsAt s u).extents := by
  unfold moveWp setZone
  rw [nsAt_setNs]

theorem extentAt_sealExtent (found : extentAt (nsAt s u) x = some e) (opened : e.isSealed = false) :
    extentAt (nsAt (sealExtent u x s) u) x = some { e with isSealed := true } := by
  unfold sealExtent
  simp only [found, opened, Bool.false_eq_true, if_false]
  have marked : mapGet (nsAt (setExtent u x (fun e => { e with isSealed := true }) s) u).extents x = some { e with isSealed := true } := by
    unfold setExtent
    unfold extentAt at found
    rw [nsAt_setNs, mapGet_mapSet, if_pos rfl, found]
    rfl
  unfold extentAt
  split
  · rwa [extents_moveWp, extents_addZeros]
  · exact marked

theorem isSealed_markHeld : (extentAt (nsAt (markHeld u s) u) x).map (fun y => y.isSealed) =
    (extentAt (nsAt s u) x).map (fun y => y.isSealed) := by
  unfold markHeld extentAt
  rw [nsAt_setNs]
  refine mapGet_map_field (fun p => ?_) _ x
  split
  · split <;> rfl
  · rfl

theorem execSealDelayExpire_seals (found : extentAt (nsAt s u) x = some e) (opened : e.isSealed = false)
    (late : passed s e.last (msTicks (cfg s (teamIdx u 0x40) 1)) = true) :
    execSealDelayExpire u x s = .next (markHeld u (sealExtent u x s)) := by
  unfold execSealDelayExpire
  simp only [found]
  exact if_pos ⟨by rw [opened]; rfl, late⟩

theorem execSealDelayExpire_early (found : extentAt (nsAt s u) x = some e)
    (early : passed s e.last (msTicks (cfg s (teamIdx u 0x40) 1)) = false) : execSealDelayExpire u x s = .next s := by
  unfold execSealDelayExpire
  simp only [found]
  exact if_neg (by simp [early])

end

/-- Settles O35, one lemma to a clause: a copy recorded, an empty queue; the move ordered, and under way; the seal due, and not yet. -/
theorem sectorsRelocated : Obligations.SectorsRelocated := by
  unfold Obligations.SectorsRelocated
  refine ⟨?records, ?idle, ?moves, ?underWay, ?seals, ?early⟩
  case records =>
    intro n d layer b q c verify s disc focused band may framed idle queue own loaded ready _ free verified
    refine ⟨_, exec_relocationPass, ?_⟩
    rw [relocationPass_records disc focused band may framed queue own ready free]
    obtain ⟨st, recorded⟩ := asWriting_relocate_records (layer := layer) (b := b) (q := q) disc may idle queue loaded verified
    simp only [Lane.copying, Prod.mk.injEq] at recorded
    obtain ⟨empty, bank, relocs⟩ := recorded
    exact ⟨empty, st, bank, relocs⟩
  case idle =>
    intro n verify s empty
    exact exec_relocationPass.trans (congrArg _ (relocationPass_idle empty))
  case moves =>
    intro n d layer b sb s disc focused band ready queued rests idle opened noRead alone near
    refine ⟨_, exec_relocationMove, ?_⟩
    rw [relocationMove_moves disc focused band ready queued rests idle opened noRead alone near, laneAt_setLane]
    exact ⟨rfl, rfl⟩
  case underWay =>
    intro n s moving
    exact exec_relocationMove.trans (congrArg _ (relocationMove_underWay moving))
  case seals =>
    intro u x e s found opened late
    refine ⟨_, exec_sealDelayExpire.trans (execSealDelayExpire_seals found opened late), ?_⟩
    rw [isSealed_markHeld, extentAt_sealExtent found opened]
    rfl
  case early =>
    intro u x e s found early
    exact exec_sealDelayExpire.trans (execSealDelayExpire_early found early)

end Sys2Proof.Machine
end

section
/-! PROOFS. The read channels: acquisition, the search for marks, dropouts and the loss of timing (R292 to R299, R312 to R326). -/

namespace Sys2Proof.Machine

variable {s : State} {n : LaneId} {c c' : ChanId}

/-! ### One channel of a lane -/

/-- A read channel of a lane. -/
def chanAt (s : State) (n : LaneId) (c : ChanId) : Channel := (laneAt s n).rd.channels[c]

theorem chanAt_setRd {f : ReadPath → ReadPath} : chanAt (setRd n f s) n c = (f (laneAt s n).rd).channels[c] := by
  rw [chanAt, setRd, laneAt_setLane]

@[simp] theorem chanAt_setChan {f : Channel → Channel} : chanAt (setChan n c f s) n c = f (chanAt s n c) :=
  chanAt_setRd.trans (getElem_vecModify.trans (if_pos rfl))

theorem chanAt_setChan_cases {f : Channel → Channel} :
    chanAt (setChan n c' f s) n c = f (chanAt s n c) ∨ chanAt (setChan n c' f s) n c = chanAt s n c := by
  rw [setChan, chanAt_setRd, getElem_vecModify]
  split
  · exact .inl rfl
  · exact .inr rfl

@[simp] theorem chanAt_lbump {off sub i k : Nat} : chanAt (lbump n off sub i k s) n c = chanAt s n c := rfl

theorem chanAt_of_laneAt {t : State} (same : laneAt t n = laneAt s n) : chanAt t n c = chanAt s n c := by rw [chanAt, same, chanAt]

/-- What decides whether a channel frames sectors lies outside its channels. -/
@[simp] theorem frames_setChan {f : Channel → Channel} : frames (laneAt (setChan n c' f s) n) c = frames (laneAt s n) c := by
  rw [setChan, setRd, laneAt_setLane]
  rfl

@[simp] theorem gateLow_setChan {f : Channel → Channel} : gateLow (laneAt (setChan n c' f s) n) c = gateLow (laneAt s n) c := by
  rw [setChan, setRd, laneAt_setLane]
  rfl

/-! ### A channel that waits for the next preamble (R294, R297, R323) -/

/-- The channel searches for no mark and has lost its lock: it acquires at the next preamble. -/
def Channel.Waits (fails : Nat) (x : Channel) : Prop := x.sync = 0 ∧ x.locked = false ∧ x.reacquire = true ∧ x.lockFails = fails

section
variable {fails : Nat} (waits : (chanAt s n c).Waits fails)
include waits

theorem waits_setChan {f : Channel → Channel} (keeps : ∀ x : Channel, x.Waits fails → (f x).Waits fails) :
    (chanAt (setChan n c' f s) n c).Waits fails := by
  rcases chanAt_setChan_cases (s := s) (n := n) (c := c) (c' := c') (f := f) with own | other
  · exact own ▸ keeps _ waits
  · exact other ▸ waits

theorem waits_takeTrims {p : Nat → Bool} : (chanAt (takeTrims n p s) n c).Waits fails := by
  unfold takeTrims
  dsimp only
  split
  · exact waits
  · unfold chanAt
    rw [laneAt_setLane]
    exact waits

/-- RF trims that take force make their channel acquire, which one that waits does anyway (R523). -/
theorem waits_takeRf : (chanAt (takeRf n c' s) n c).Waits fails := by
  unfold takeRf
  dsimp only
  split
  · exact waits
  · have again : (chanAt (setChan n c' (fun x => { x with reacquire := true }) s) n c).Waits fails :=
      waits_setChan waits fun x ⟨sync, locked, _, count⟩ => ⟨sync, locked, rfl, count⟩
    exact waits_takeTrims again

theorem waits_foldl_takeRf (l : List ChanId) : (chanAt (l.foldl (fun a k => takeRf n k a) s) n c).Waits fails := by
  induction l generalizing s with
  | nil => exact waits
  | cons k l ih => exact ih (waits_takeRf waits)

theorem waits_endLaneFrame {good : Bool} : (chanAt (endLaneFrame n good s) n c).Waits fails := by
  unfold endLaneFrame frameBegins
  refine waits_foldl_takeRf ?_ _
  unfold chanAt
  rw [laneAt_setLane, laneAt_setLane]
  exact waits

/-- A record delivered ends the frame of its track's channels, and leaves one that waits waiting (R311, R341). -/
theorem waits_deliver {k : TrackId} {r : SectorRead} : (chanAt (deliver n k r s) n c).Waits fails := by
  unfold deliver
  split
  · exact waits
  next j _ =>
  extract_lets lead stamp fin combined now s1 s2 s3
  have ended : (chanAt s1 n c).Waits fails := by
    have ends : ∀ x : Channel, x.Waits fails → (fin x).Waits fails := fun _ h => h
    simp only [s1]
    refine waits_setChan (waits_setChan ?_ ends) ends
    rw [setJob, chanAt_setRd]
    exact waits
  have queued : (chanAt s3 n c).Waits fails := by
    simp only [s3]
    split
    · exact ended
    · exact (chanAt_of_laneAt laneAt_awaitCore).symm ▸ ended
  clear_value s3
  split
  · exact waits_endLaneFrame queued
  · exact queued

end

/-! ### Acquisition (R292 to R297, R323, R328) -/

variable {level rms e : Nat} {phase f : Int}

theorem exec_acquisition : exec (.acquisition n c level rms phase e f) s = .next (acquisition n c level rms phase e f s) := rfl

theorem acquisition_unframed (idle : frames (laneAt s n) c = false) : acquisition n c level rms phase e f s = s :=
  if_neg (by simp [idle])

/-- The last frame of the channel ends before it acquires. -/
def frameLeft (n : LaneId) (c : ChanId) (s : State) : State := setChan n c (fun x => x.endFrame x.ahead) s

/-- The channel at its lock test: the gain has taken up the preamble's rms (R292, R293). -/
def atLockTest (n : LaneId) (c : ChanId) (rms : Nat) (s : State) : State :=
  setChan n c (fun x => { x with sync := 1, agc := agcAcquire (frameLeft n c s) n c rms }) (frameLeft n c s)

section
variable (framed : frames (laneAt s n) c = true) (again : (laneAt s n).rd.channels[c].reacquire = true)
include framed again

theorem acquisition_begins : (frames (laneAt s n) c && acquires (laneAt s n) c) = true := by
  rw [framed, acquires, again]
  rfl

theorem acquisition_blank (low : 1000 * level < lcfg s n 0x28 1 * blankReference s n (laneAt s n).rd.layer) :
    acquisition n c level rms phase e f s = blankFrame n c (frameLeft n c s) := by
  unfold acquisition
  dsimp only
  rw [if_pos (acquisition_begins framed again), if_pos (by simp [low])]
  rfl

/-- A preamble of enough level is put to the lock test (R293, R295). -/
theorem acquisition_tests (gate : gateLow (laneAt s n) c = false)
    (high : lcfg s n 0x28 1 * blankReference s n (laneAt s n).rd.layer ≤ 1000 * level) :
    acquisition n c level rms phase e f s = if e ≤ lcfg s n 0x23 5 then lockPassed n c phase f (atLockTest n c rms s)
      else lockFailed n c (atLockTest n c rms s) := by
  unfold acquisition
  dsimp only
  rw [if_pos (acquisition_begins framed again), if_neg (by simp [gate, high])]
  rfl

end

theorem waits_blankFrame : (chanAt (blankFrame n c s) n c).Waits (chanAt s n c).lockFails := by
  unfold blankFrame
  extract_lets s1
  have waits : (chanAt s1 n c).Waits (chanAt s n c).lockFails := by
    simp only [s1, chanAt_lbump, chanAt_setChan]
    exact ⟨rfl, rfl, rfl, rfl⟩
  clear_value s1
  split
  · split
    · exact waits_deliver waits
    · exact waits
  · exact waits

/-- A failed lock test is counted, whether or not its 32nd failure in a row is told (R296, R297). -/
theorem waits_lockFailed : (chanAt (lockFailed n c s) n c).Waits ((chanAt s n c).lockFails + 1) := by
  unfold lockFailed
  extract_lets k s1 s2
  have waits : (chanAt s2 n c).Waits ((chanAt s n c).lockFails + 1) := by
    have raised : chanAt s2 n c = chanAt s1 n c := by
      simp only [s2]
      split
      · exact chanAt_of_laneAt laneAt_raise
      · rfl
    simp only [raised, s1, chanAt_lbump, chanAt_setChan]
    exact ⟨rfl, rfl, rfl, rfl⟩
  clear_value s2
  split
  · split
    · exact waits_deliver waits
    · exact waits
  · exact waits

theorem chanAt_lockPassed : ∃ predicted, chanAt (lockPassed n c phase f s) n c = { chanAt s n c with
    sync := 2, noTiming := false, blank := false, reacquire := false, ahead := frameNow (laneAt s n) c, locked := true, lockFails := 0
    misses := 0, mark := 0, predicted := predicted, phase := phase, residual := sat f (-5000) 5000 } :=
  ⟨_, chanAt_setChan⟩

theorem lockFails_atLockTest : (chanAt (atLockTest n c rms s) n c).lockFails = (chanAt s n c).lockFails := by
  rw [atLockTest, chanAt_setChan, frameLeft, chanAt_setChan, Channel.endFrame]

/-! ### Marks (R312 to R319, R323) -/

theorem exec_syncMarkSearch {w : MarkWindow} : exec (.syncMarkSearch n c w) s = .next (syncMarkSearch n c w s) := rfl

section
variable {w : MarkWindow} {x : Channel} (framed : frames (laneAt s n) c = true) (own : (laneAt s n).rd.channels[c] = x)
  (begun : (acquires (laneAt s n) c && x.aligns.isEmpty) = false) (opened : 2 ≤ x.sync ∧ x.sync ≤ 5)
  (kind : w.sync = decide (x.mark = 0)) (room : x.aligns.length < 20)
include framed own begun opened kind room

/-- The channel expects the mark of the window that closes. -/
theorem syncMarkSearch_expects : (frames (laneAt s n) c && !(acquires (laneAt s n) c && (laneAt s n).rd.channels[c].aligns.isEmpty) &&
    decide (2 ≤ (laneAt s n).rd.channels[c].sync ∧ (laneAt s n).rd.channels[c].sync ≤ 5) &&
    decide (w.sync = decide ((laneAt s n).rd.channels[c].mark = 0)) &&
    decide ((laneAt s n).rd.channels[c].aligns.length < 20)) = true := by
  subst own
  simp only [framed, begun, opened, kind, room, decide_true, Bool.not_false, and_self, Bool.and_self]

variable (clear : 2 * markFlagged x (lcfg s n 0x27 4) (if w.sync then 48 else 32) ≤ (if w.sync then 48 else 32))
include clear

theorem syncMarkSearch_accepts {off : Int} {rest : List Int}
    (found : qualifying (lcfg s n 0x26 (if w.sync then 2 else 3)) w.offsets = off :: rest) :
    syncMarkSearch n c w s = acceptMark n c off rest s := by
  unfold syncMarkSearch
  dsimp only
  rw [if_pos (syncMarkSearch_expects framed own begun opened kind room), own, if_neg (Nat.not_lt.mpr clear), found]

theorem syncMarkSearch_misses (unfound : qualifying (lcfg s n 0x26 (if w.sync then 2 else 3)) w.offsets = []) :
    syncMarkSearch n c w s = missMark n c s := by
  unfold syncMarkSearch
  dsimp only
  rw [if_pos (syncMarkSearch_expects framed own begun opened kind room), own, if_neg (Nat.not_lt.mpr clear), unfound]

end

/-- A mark accepted aligns its segment at the position found, and the channel is locked to its marks (R312, R313). -/
theorem chanAt_acceptMark {off : Int} {rest : List Int} : ∃ starts, chanAt (acceptMark n c off rest s) n c =
    { takeMark { chanAt s n c with falseStarts := starts } off true with sync := 3, misses := 0 } := by
  unfold acceptMark
  extract_lets x early s1 s2
  have early1 : ∃ starts, chanAt s1 n c = { chanAt s n c with falseStarts := starts } := by
    simp only [s1]
    split
    · exact ⟨_, by rw [chanAt_lbump, chanAt_setChan]⟩
    · exact ⟨_, rfl⟩
  have offset : chanAt s2 n c = chanAt s1 n c := by
    simp only [s2]
    split
    · rw [chanAt_setRd]
      rfl
    · rfl
  obtain ⟨starts, early1⟩ := early1
  exact ⟨starts, by rw [chanAt_lbump, chanAt_setChan, offset, early1]⟩

/-- The flywheel over a missed mark (R316). -/
def flywheeled (n : LaneId) (c : ChanId) (s : State) : State :=
  lbump n 0xE0 3 c.val 1 (setChan n c (fun x => { takeMark x 0 false with
    misses := (chanAt s n c).misses + 1, sync := if (chanAt s n c).sync = 4 then 5 else 4 }) s)

theorem missMark_eq : missMark n c s = if 3 ≤ (chanAt s n c).misses + 1 then
    markDrop n c (chanAt s n c).predicted.toNat (flywheeled n c s) else flywheeled n c s := rfl

theorem chanAt_flywheeled : chanAt (flywheeled n c s) n c = { takeMark (chanAt s n c) 0 false with
    misses := (chanAt s n c).misses + 1, sync := if (chanAt s n c).sync = 4 then 5 else 4 } := by
  rw [flywheeled, chanAt_lbump, chanAt_setChan]

/-- The third miss in a row gives the sector up; a lane that drops makes every channel acquire, this one among them (R318, R319). -/
theorem chanAt_markDrop {from' : Nat} : (chanAt (markDrop n c from' s) n c).sync = 0 ∧
    (chanAt (markDrop n c from' s) n c).misses = 0 ∧ (chanAt (markDrop n c from' s) n c).reacquire = true := by
  unfold markDrop
  extract_lets s1
  have dropped : chanAt s1 n c = { chanAt s n c with
      sync := 0, misses := 0, reacquire := true, flags := (chanAt s n c).flags ++ [(from', 40304)] } := chanAt_setChan
  clear_value s1
  split
  · rw [chanAt_lbump, chanAt_setRd]
    have marked : (laneAt (setChan n c (fun x => { x with laneDrop := true }) s1) n).rd.channels[c] =
        { chanAt s1 n c with laneDrop := true } := chanAt_setChan
    rw [Fin.getElem_fin] at marked ⊢
    rw [Vector.getElem_map, marked, dropped]
    exact ⟨rfl, rfl, rfl⟩
  · rw [dropped]
    exact ⟨rfl, rfl, rfl⟩

/-! ### Dropouts (R299, R324 to R326) -/

variable {b a : Nat}

theorem exec_timingLost : exec (.timingLost n c b) s = execTimingLost n c b s := rfl

theorem exec_dropoutStart : exec (.dropoutStart n c b) s = .next (beginDropout n c b s) := rfl

theorem exec_dropoutEnd : exec (.dropoutEnd n c b) s = execDropoutEnd n c b s := rfl

theorem exec_dropoutCoastLimit : exec (.dropoutCoastLimit n c b) s = execDropoutCoastLimit n c b s := rfl

theorem chanAt_beginDropout (framed : frames (laneAt s n) c = true) (gate : gateLow (laneAt s n) c = false)
    (clear : (chanAt s n c).dropout = none) : chanAt (beginDropout n c b s) n c = { chanAt s n c with dropout := some b } := by
  have begins : (frames (laneAt s n) c && !gateLow (laneAt s n) c && ((laneAt s n).rd.channels[c].dropout).isNone) = true := by
    rw [framed, gate, show (laneAt s n).rd.channels[c].dropout = none from clear]
    rfl
  unfold beginDropout
  rw [if_pos begins, chanAt_lbump, chanAt_setChan]

theorem execTimingLost_following (following : 3 ≤ (laneAt s n).rd.channels[c].sync) :
    execTimingLost n c b s = .next (beginDropout n c b (setChan n c (fun x => { x with locked := false }) s)) := if_pos following

theorem chanAt_closeDropout {lo hi : Nat} : chanAt (closeDropout n c lo hi s) n c =
    { chanAt s n c with dropout := none, flags := (chanAt s n c).flags ++ [(lo, hi)] } := by
  rw [closeDropout, chanAt_lbump, chanAt_setChan]

section
variable (dropped : (laneAt s n).rd.channels[c].dropout = some a)
include dropped

theorem execDropoutEnd_closes : execDropoutEnd n c b s =
    .next (closeDropout n c (a - lcfg s n 0x27 4) (b + lcfg s n 0x27 4) s) := by
  unfold execDropoutEnd
  rw [dropped]

theorem execDropoutCoastLimit_eq : execDropoutCoastLimit n c b s = if lcfg s n 0x27 5 < b - a then
    .next (setChan n c (fun x => { x with sync := 0, reacquire := true }) (closeDropout n c (a - lcfg s n 0x27 4) 40304 s))
    else .next s := by
  unfold execDropoutCoastLimit
  rw [dropped]

end

/-- Settles O36: each happening is one change of its channel; what a failed acquisition delivers beside leaves the channel waiting for
the next preamble. -/
theorem channelsAcquireAndLose : Obligations.ChannelsAcquireAndLose := by
  unfold Obligations.ChannelsAcquireAndLose
  refine ⟨?idle, ?passes, ?fails, ?blank, ?accepts, ?misses, ?drops, ?timing, ?dropout, ?ends, ?beyond, ?within⟩
  case idle =>
    intro n c level rms phase e f s idle
    exact exec_acquisition.trans (congrArg _ (acquisition_unframed idle))
  case passes =>
    intro n c level rms phase e f s framed again gate high good
    obtain ⟨predicted, locked⟩ := chanAt_lockPassed (s := atLockTest n c rms s) (n := n) (c := c) (phase := phase) (f := f)
    refine ⟨_, exec_acquisition, ?_⟩
    rw [acquisition_tests framed again gate high, if_pos good]
    unfold chanAt at locked
    rw [locked]
    exact ⟨rfl, rfl, rfl, rfl, rfl, rfl⟩
  case fails =>
    intro n c level rms phase e f s framed again gate high bad
    obtain ⟨sync, locked, reacquire, count⟩ := waits_lockFailed (s := atLockTest n c rms s) (n := n) (c := c)
    refine ⟨_, exec_acquisition, ?_⟩
    rw [acquisition_tests framed again gate high, if_neg (Nat.not_le.mpr bad)]
    exact ⟨sync, locked, reacquire, count.trans (congrArg (· + 1) lockFails_atLockTest)⟩
  case blank =>
    intro n c level rms phase e f s framed again low
    obtain ⟨sync, locked, reacquire, -⟩ := waits_blankFrame (s := frameLeft n c s) (n := n) (c := c)
    refine ⟨_, exec_acquisition, ?_⟩
    rw [acquisition_blank framed again low]
    exact ⟨sync, locked, reacquire⟩
  case accepts =>
    intro n c w x off rest s framed own begun opened kind room clear found
    obtain ⟨starts, accepted⟩ := chanAt_acceptMark (s := s) (n := n) (c := c) (off := off) (rest := rest)
    refine ⟨_, exec_syncMarkSearch, ?_⟩
    rw [syncMarkSearch_accepts framed own begun opened kind room clear found]
    unfold chanAt at accepted
    rw [accepted, own]
    exact ⟨rfl, rfl, rfl⟩
  case misses =>
    intro n c w x s framed own begun opened kind room clear unfound few
    have wheeled := chanAt_flywheeled (s := s) (n := n) (c := c)
    refine ⟨_, exec_syncMarkSearch, ?_⟩
    rw [syncMarkSearch_misses framed own begun opened kind room clear unfound]
    unfold chanAt at wheeled
    rw [missMark_eq, if_neg (by rw [chanAt, own]; omega), wheeled, own]
    exact ⟨rfl, rfl⟩
  case drops =>
    intro n c w x s framed own begun opened kind room clear unfound many
    refine ⟨_, exec_syncMarkSearch, ?_⟩
    rw [syncMarkSearch_misses framed own begun opened kind room clear unfound]
    rw [missMark_eq, if_pos (by rw [chanAt, own]; omega)]
    exact chanAt_markDrop
  case timing =>
    intro n c b s framed gate clear following
    have unlocked : chanAt (setChan n c (fun x => { x with locked := false }) s) n c = { chanAt s n c with locked := false } :=
      chanAt_setChan
    have begun := chanAt_beginDropout (b := b) (frames_setChan.trans framed) (gateLow_setChan.trans gate)
      ((congrArg Channel.dropout unlocked).trans clear)
    rw [unlocked] at begun
    exact ⟨_, exec_timingLost.trans (execTimingLost_following following), congrArg Channel.locked begun, congrArg Channel.dropout begun⟩
  case dropout =>
    intro n c b s framed gate clear
    exact ⟨_, exec_dropoutStart, chanAt_beginDropout framed gate clear⟩
  case ends =>
    intro n c b a s dropped
    exact ⟨_, exec_dropoutEnd.trans (execDropoutEnd_closes dropped), chanAt_closeDropout⟩
  case beyond =>
    intro n c b a s dropped long
    refine ⟨_, exec_dropoutCoastLimit.trans ((execDropoutCoastLimit_eq dropped).trans (if_pos long)), chanAt_setChan.trans ?_⟩
    rw [chanAt_closeDropout]
    rfl
  case within =>
    intro n c b a s dropped short
    exact exec_dropoutCoastLimit.trans ((execDropoutCoastLimit_eq dropped).trans (if_neg (Nat.not_lt.mpr short)))

end Sys2Proof.Machine
end

section
/-! PROOFS. The restore of a class's taps where the stored values list one entry twice: a statement on it that fails (R337). -/

namespace Sys2Proof.Machine

/-- A lane whose first equaliser taps stand twice among the stored values. -/
def tapsTwice : State :=
  { Tests.up with dict := { Tests.up.dict with
      reg := [(regKey (laneIdx 6 0x24) 1, [9]), (regKey (laneIdx 6 0x24) 1, [7])] } }

/-- The restore forgets the first of the two values, and the second comes to light. -/
theorem restoreTaps_tapsTwice_state :
    mapGet (putEntry (.nvme 0) (laneIdx 6 0x24) 0x0B [1] tapsTwice).dict.reg (regKey (laneIdx 6 0x24) 1) = some [7] := by decide

/-- Refutes O38 in its clause on RESTORE_CLASS_TAPS: taps that stand twice among the stored values do not read the class's again.
The clause lacks the hypothesis that the keys of the stored values rise strictly, `mapSorted s.dict.reg = true`, by which
`mapGet_mapErase` says what forgetting an entry leaves. -/
theorem not_captureTestSourceAndDefects : ¬ Obligations.CaptureTestSourceAndDefects := by
  rintro ⟨-, -, -, -, -, restore, -⟩
  obtain ⟨t, ran, -, taps⟩ := restore (.nvme 0) 6 [1] tapsTwice (by decide) (by decide)
  cases ran
  exact absurd (restoreTaps_tapsTwice_state.symm.trans (taps 0)) (by decide)

end Sys2Proof.Machine
end

section
/-! PROOFS. Single writes of entries from 4000 up: an effect that is carried out, and one that is refused (R87, R93). -/

namespace Sys2Proof.Machine

variable {s t : State} {n : LaneId} {index sub code : Nat} {v : Bytes} {who : Who} {reply : Reply} {ph : Bool}

/-! ### Changes of lanes -/

theorem lanesAlone_setLane {f : Lane → Lane} (life : (f (laneAt s n)).life = (laneAt s n).life) : LanesAlone s (setLane n f s) := by
  refine ⟨rfl, fun m => ?_⟩
  by_cases own : m = n
  · rw [own, laneAt_setLane, life]
  · rw [laneAt_setLane_other own]

/-- One change made on each lane of a list that leaves every lane its life. -/
theorem lanesAlone_foldl_setLane {f : Lane → Lane} (life : ∀ x, (f x).life = x.life) (l : List LaneId) :
    LanesAlone s (l.foldl (fun a m => setLane m f a) s) := by
  induction l generalizing s with
  | nil => exact .refl s
  | cons m l ih => exact (lanesAlone_setLane (life _)).trans ih

theorem setLane_congr {f g : Lane → Lane} (same : f (laneAt s n) = g (laneAt s n)) : setLane n f s = setLane n g s := by
  unfold laneAt at same
  unfold setLane vecModify
  rw [same]

/-! ### A write counted -/

@[simp] theorem stored_countChange {i j : Nat} : stored (countChange index sub s) i j = stored s i j := rfl

@[simp] theorem laneAt_countChange : laneAt (countChange index sub s) n = laneAt s n := rfl

/-! ### A single write from 4000 up -/

section
variable (high : 0x4000 ≤ index)
include high

theorem isLater_high : (Put.mk index sub v).isLater = false := by
  simp only [Put.isLater, Bool.or_eq_false_iff, decide_eq_false_iff_not]
  omega

theorem familyOf_high : familyOf index ≠ 0x3000 := by
  unfold familyOf
  split_ifs <;> omega

/-- A write that passes the checks, whose effect leaves what check 8 reads of it: the effect is carried out, counted and answered. -/
theorem putEntry_effect (passes : writePasses s who index sub v = true) (alone : needsAck t = false)
    (effect : ∀ reply, applyWrite reply false ⟨index, sub, v⟩ s = .ok t)
    (values : ∀ i j, stored (store index sub v t) i j = stored (store index sub v s) i j) (mem : t.mem = s.mem) :
    putEntry who index sub v s = send (.answer who index sub 0) (countChange index sub t) := by
  obtain ⟨⟨en, checks⟩, consist⟩ := writePasses_iff.mp passes
  have written : asWritten false ⟨index, sub, v⟩ s = store index sub v t := by
    unfold asWritten
    rw [effect]
  have settled {a : State} : settleTeams [⟨index, sub, v⟩] a = a := settleTeams_single (familyOf_high high) (by dsimp only; omega)
  have served := serve_effect (reply := .record who index sub) (p := ⟨index, sub, v⟩) checks
    (by rw [written, consistent_congr values mem, consist]) (effect _) (isLater_high high) (by rw [settled, needsAck_countChange, alone])
  rw [settled] at served
  exact putEntryWith_now served

/-- A write of an entry that holds no value, whose effect is on the lanes. -/
theorem putEntry_lanes (passes : writePasses s who index sub v = true) (alone : needsAck s = false)
    (effect : ∀ reply, applyWrite reply false ⟨index, sub, v⟩ s = .ok t) (lanes : LanesAlone s t) :
    putEntry who index sub v s = send (.answer who index sub 0) (countChange index sub t) :=
  putEntry_effect high passes (lanes.needsAck.trans alone) effect (fun _ _ => lanes.store.stored) lanes.mem

/-- A write of an entry that holds its value, with an effect on the lanes beside. -/
theorem putEntry_stored (passes : writePasses s who index sub v = true) (alone : needsAck s = false)
    (effect : ∀ reply, applyWrite reply false ⟨index, sub, v⟩ s = .ok t) (lanes : LanesAlone (store index sub v s) t) :
    putEntry who index sub v s = send (.answer who index sub 0) (countChange index sub t) :=
  putEntry_effect high passes (lanes.needsAck.trans alone) effect (fun _ _ => lanes.store.stored.trans stored_store_twice) lanes.mem

/-- A write that its effect refuses changes nothing. -/
theorem putEntry_denied (passes : writePasses s who index sub v = true)
    (effect : ∀ reply, applyWrite reply false ⟨index, sub, v⟩ s = .error code) :
    putEntry who index sub v s = send (.answer who index sub code) s := by
  obtain ⟨⟨en, checks⟩, consist⟩ := writePasses_iff.mp passes
  have written : asWritten false ⟨index, sub, v⟩ s = store index sub v s := by
    unfold asWritten
    rw [effect]
  have kept : residue false [⟨index, sub, v⟩] 1 s = s := if_neg (by dsimp only; omega)
  have served := serve_effect_denied (reply := .record who index sub) (p := ⟨index, sub, v⟩) checks
    (by rw [written, consist]) (effect _)
  rw [kept] at served
  exact putEntryWith_now served

end

/-! ### Entries of a lane -/

section
variable {off : Nat} (own : off < 256)
include own

theorem laneIdx_bounds : 0x4000 ≤ laneIdx n off ∧ laneIdx n off < 0x6000 := by
  have small := n.isLt
  unfold laneIdx
  omega

theorem laneIdx_mod : laneIdx n off % 256 = off := by
  unfold laneIdx
  omega

theorem laneOf_laneIdx : laneOf ((laneIdx n off - 0x4000) / 256) = n := by
  have place : (laneIdx n off - 0x4000) / 256 = n.val := by unfold laneIdx; omega
  rw [place]
  exact Fin.ofNat_val_eq_self n

theorem familyOf_laneIdx : familyOf (laneIdx n off) = 0x4000 + off := by
  obtain ⟨low, high⟩ := laneIdx_bounds (n := n) own
  rw [familyOf_lane low high, laneIdx_mod own]

theorem entriesAt_laneIdx : entriesAt (laneIdx n off) = tableAt laneEntries off := by
  unfold entriesAt
  rw [if_pos (laneIdx_bounds own), laneIdx_mod own]

theorem applyWrite_laneIdx : applyWrite reply ph ⟨laneIdx n off, sub, v⟩ s = applyLane n off sub v s := by
  unfold applyWrite
  rw [if_pos (laneIdx_bounds own), laneIdx_mod own, laneOf_laneIdx own]

end

end Sys2Proof.Machine
end

section
/-! PROOFS. Runout tables: revolutions and learning runs (R401 to R403). -/

namespace Sys2Proof.Machine

variable {s : State} {n : LaneId} {v : Bytes} {who : Who} {reply : Reply} {ph : Bool}

/-! ### Revolutions (R401) -/

/-- The next revolution begins, with no bin filled. -/
def revolutionBegun (r : Runout) : Runout := { r with revBins := Vector.replicate 3 [], spoiled := false }

/-- The bins of a learning run with those of the revolution. -/
def binsJoined (r : Runout) : Vector (List (Nat × Int × Nat)) 3 := Vector.ofFn (fun a => binJoin r.runBins[a] r.revBins[a])

/-- A revolution counted in the learning run. -/
def revolutionCounted (r : Runout) : Runout := { r with runBins := binsJoined r, counted := r.counted + 1, total := r.total + 1 }

/-- The tables after the last revolution of a learning run at a speed. -/
def tablesLearned (speed : Int) (r : Runout) : Runout :=
  { revolutionCounted r with
    table := Vector.ofFn (fun a => runoutAdd r.table[a] (binsJoined r)[a] 32768)
    valid := true, learning := false, runSpeed := some speed, runBins := Vector.replicate 3 [] }

theorem exec_runoutRevolution : exec (.runoutRevolution n) s = .next (runoutRevolution n s) := rfl

theorem runout_revolution_spoiled (spoiled : (laneAt s n).loop.runout.spoiled = true) :
    (laneAt (runoutRevolution n s) n).loop.runout = revolutionBegun (laneAt s n).loop.runout := by
  unfold runoutRevolution
  rw [if_pos (.inl spoiled), laneAt_setLane]
  rfl

section
variable (clean : (laneAt s n).loop.runout.spoiled = false) (indexed : (laneAt s n).loop.runout.idxValid = true)
  (learning : (laneAt s n).loop.runout.learning = true)
include clean indexed learning

/-- A clean revolution of a learning run, counted, or the last. -/
theorem runout_revolution_learning : (laneAt (runoutRevolution n s) n).loop.runout =
    if (laneAt s n).loop.runout.counted + 1 < 8 then revolutionBegun (revolutionCounted (laneAt s n).loop.runout)
    else revolutionBegun (tablesLearned (speedCenti (laneAt s n).spin) (laneAt s n).loop.runout) := by
  unfold runoutRevolution
  dsimp only
  rw [if_neg (by simp [clean, indexed]), if_pos learning]
  split <;> exact congrArg (fun x => x.loop.runout) laneAt_setLane

theorem runout_revolution_counted (few : (laneAt s n).loop.runout.counted + 1 < 8) :
    (laneAt (runoutRevolution n s) n).loop.runout = revolutionBegun (revolutionCounted (laneAt s n).loop.runout) :=
  (runout_revolution_learning clean indexed learning).trans (if_pos few)

theorem runout_revolution_last (all : 8 ≤ (laneAt s n).loop.runout.counted + 1) : (laneAt (runoutRevolution n s) n).loop.runout =
    revolutionBegun (tablesLearned (speedCenti (laneAt s n).spin) (laneAt s n).loop.runout) :=
  (runout_revolution_learning clean indexed learning).trans (if_neg (Nat.not_lt.mpr all))

end

/-! ### Learning runs (R403) -/

theorem exec_startLearningRun : exec (.startLearningRun who n v) s = .next (putEntry who (laneIdx n 0x62) 6 v s) := rfl

theorem runout_startLearning : (laneAt (startLearning n s) n).loop.runout = { (laneAt s n).loop.runout with
    learning := true, counted := 0, runBins := Vector.replicate 3 [], revBins := Vector.replicate 3 [], spoiled := true } :=
  congrArg (fun l => l.loop.runout) laneAt_setLane

theorem lanesAlone_startLearning : LanesAlone s (startLearning n s) := lanesAlone_setLane rfl

/-- A run starts from TRACKING up. -/
theorem startLearningEffect_tracking (low : 4 ≤ (laneAt s n).life.st.code) (high : (laneAt s n).life.st.code ≤ 8) :
    startLearningEffect n s = .ok (startLearning n s) := if_pos ⟨low, high⟩

theorem applyWrite_learning : applyWrite reply ph ⟨laneIdx n 0x62, 6, v⟩ s = startLearningEffect n s := by
  rw [applyWrite_laneIdx (by decide)]
  simp [applyLane]

theorem putEntry_learning (passes : writePasses s who (laneIdx n 0x62) 6 v = true) (alone : needsAck s = false)
    (low : 4 ≤ (laneAt s n).life.st.code) (high : (laneAt s n).life.st.code ≤ 8) : putEntry who (laneIdx n 0x62) 6 v s =
      send (.answer who (laneIdx n 0x62) 6 0) (countChange (laneIdx n 0x62) 6 (startLearning n s)) :=
  putEntry_lanes (laneIdx_bounds (by decide)).1 passes alone
    (fun _ => applyWrite_learning.trans (startLearningEffect_tracking low high)) lanesAlone_startLearning

/-- L+62:06 is write-only and takes the word of R403 alone; the tables give it no gate. -/
theorem entryIn_learning : ∃ es, tableAt laneEntries 0x62 = some es ∧ ¬highestSub es < 6 ∧
    entryIn es 6 = some (e 6 .u32 4 .wo .none (.nat 1279611470 1279611470) .zero) := ⟨_, rfl, by decide, rfl⟩

/-- Below TRACKING the gate of L+62:06 is closed, whatever is written. -/
theorem writeChecks_learning_below {ctrl : PortId} (below : (laneAt s n).life.st.code < 4) (runs : s.fw.running.isSome = true)
    (awake : s.power.unit ≠ 2) (own : s.pair.role ≠ 2) : writeChecks s (.nvme ctrl) (laneIdx n 0x62) 6 v = .error 0x0401 := by
  have gate : gateStatus s (.nvme ctrl) (laneIdx n 0x62) (e 6 .u32 4 .wo .none (.nat 1279611470 1279611470) .zero) = 0x0401 := by
    have present : s.fw.running.isNone = false := by simpa using runs
    have closed : ¬(4 ≤ (laneAt s n).life.st.code ∧ (laneAt s n).life.st.code ≤ 8) := by omega
    simp [gateStatus, e, awake, own, present, familyOf_laneIdx, laneOfIndex_laneIdx, closed]
  obtain ⟨es, table, inRange, found⟩ := entryIn_learning
  have access : accessChecks s (.nvme ctrl) (laneIdx n 0x62) 6 = .error 0x0401 := by
    simp only [accessChecks, entriesAt_laneIdx (n := n) (off := 0x62) (by decide), table, if_neg inRange, found, gate]
    simp [e, mayWriteEntry]
  simp only [writeChecks, access]

/-- Settles O30: a revolution goes by whether it is clean and how many were counted; a run goes by the lane's state, which the gate of
L+62:06 checks before the value. -/
theorem runoutIsLearned : Obligations.RunoutIsLearned := by
  unfold Obligations.RunoutIsLearned
  refine ⟨?spoiled, ?clean, ?starts, ?below⟩
  case spoiled =>
    intro n s spoiled
    refine ⟨_, exec_runoutRevolution, ?_⟩
    rw [runout_revolution_spoiled spoiled]
    exact ⟨rfl, rfl, rfl⟩
  case clean =>
    intro n s clean indexed learning
    refine ⟨_, exec_runoutRevolution, ?_⟩
    by_cases few : (laneAt s n).loop.runout.counted + 1 < 8
    · rw [runout_revolution_counted clean indexed learning few]
      exact ⟨rfl, fun _ => ⟨learning, rfl⟩, fun all => absurd few (Nat.not_lt.mpr all)⟩
    · rw [runout_revolution_last clean indexed learning (Nat.not_lt.mp few)]
      exact ⟨rfl, fun all => absurd all few, fun _ => ⟨rfl, rfl, rfl⟩⟩
  case starts =>
    intro who n v s passes alone low high
    refine ⟨_, exec_startLearningRun.trans (congrArg _ (putEntry_learning passes alone low high)), ?_⟩
    rw [laneAt_send, laneAt_countChange, runout_startLearning]
    exact ⟨rfl, rfl, rfl⟩
  case below =>
    intro ctrl n s spun runs awake own
    have low : (laneAt s n).life.st.code < 4 := by rw [spun]; decide
    exact exec_startLearningRun.trans (congrArg _ (putEntryWith_now
      (serve_refused (checkPuts_single_error (writeChecks_learning_below low runs awake own)))))

end Sys2Proof.Machine
end

section
/-! PROOFS. Coefficient banks: switch requests, shadow banks and library slots (R389, R393, R407, R409, R412). -/

namespace Sys2Proof.Machine

variable {s : State} {n : LaneId} {slot : Fin 16} {sub mask : Nat} {v : Bytes} {who : Who} {reply : Reply} {ph obs : Bool}

/-! ### The banks of a lane -/

/-- A lane with its banks changed. -/
def withBanks (f : Banks → Banks) (l : Lane) : Lane := { l with loop := { l.loop with banks := f l.loop.banks } }

@[simp] theorem life_withBanks {f : Banks → Banks} {l : Lane} : (withBanks f l).life = l.life := rfl

@[simp] theorem banks_withBanks {f : Banks → Banks} {l : Lane} : (withBanks f l).loop.banks = f l.loop.banks := rfl

/-- A write from 6000 up is one of the loop engine's. -/
theorem applyWrite_engine {index : Nat} (high : 0x6000 ≤ index) :
    applyWrite reply ph ⟨index, sub, v⟩ s = applyEngine index sub v s := by
  unfold applyWrite
  rw [if_neg (by dsimp only; omega), if_pos high]

/-! ### Switch requests (R409, R412) -/

/-- The subindex of 6001 that requests the switch of the observer banks, or of the biquad banks. -/
def switchSub : Bool → Nat
  | true => 1
  | false => 2

/-- Banks with a switch of the observer, or of the biquads, that is pending. -/
def switchMarked (obs : Bool) (b : Banks) : Banks := if obs then { b with obsPending := true } else { b with bqPending := true }

theorem requestSwitch_eq : requestSwitch obs mask s =
    (lanesOfMask mask).foldl (fun a m => setLane m (withBanks (switchMarked obs)) a) s := rfl

theorem nodup_lanesOfMask : (lanesOfMask mask).Nodup := nodup_allLanes.filter _

/-- A request marks every lane of its mask, and no other. -/
theorem laneAt_requestSwitch : laneAt (requestSwitch obs mask s) n =
    if n ∈ lanesOfMask mask then withBanks (switchMarked obs) (laneAt s n) else laneAt s n := by
  rw [requestSwitch_eq, laneAt_foldl_setLane _ n _ _ nodup_lanesOfMask]

theorem lanesAlone_requestSwitch : LanesAlone s (requestSwitch obs mask s) := by
  rw [requestSwitch_eq]
  exact lanesAlone_foldl_setLane (fun _ => life_withBanks) _

theorem applyWrite_switch : applyWrite reply ph ⟨0x6001, switchSub obs, v⟩ s = applySwitch obs v s := by
  rw [applyWrite_engine (by decide)]
  cases obs <;> simp [applyEngine, familyOf, switchSub]

theorem putEntry_switch (passes : writePasses s who 0x6001 (switchSub obs) v = true) (alone : needsAck s = false)
    (free : switchStatus s obs (fromLE v) = 0) : putEntry who 0x6001 (switchSub obs) v s =
      send (.answer who 0x6001 (switchSub obs) 0) (countChange 0x6001 (switchSub obs) (requestSwitch obs (fromLE v) s)) :=
  putEntry_lanes (by decide) passes alone (fun _ => applyWrite_switch.trans (if_pos free)) lanesAlone_requestSwitch

theorem putEntry_switch_barred (passes : writePasses s who 0x6001 (switchSub obs) v = true)
    (barred : switchStatus s obs (fromLE v) ≠ 0) : putEntry who 0x6001 (switchSub obs) v s =
      send (.answer who 0x6001 (switchSub obs) (switchStatus s obs (fromLE v))) s :=
  putEntry_denied (by decide) passes (fun _ => applyWrite_switch.trans (if_neg barred))

/-- What a request that no lane bars leaves. -/
theorem switch_requested (passes : writePasses s who 0x6001 (switchSub obs) v = true) (alone : needsAck s = false)
    (free : switchStatus s obs (fromLE v) = 0) : ∃ t, putEntry who 0x6001 (switchSub obs) v s = t ∧
      answered t who 0x6001 (switchSub obs) 0 ∧
      (∀ n : LaneId, n ∈ lanesOfMask (fromLE v) → (laneAt t n).loop.banks = switchMarked obs (laneAt s n).loop.banks) ∧
      ∀ n : LaneId, n ∉ lanesOfMask (fromLE v) → laneAt t n = laneAt s n := by
  refine ⟨_, putEntry_switch passes alone free, rfl, fun n named => ?_, fun n other => ?_⟩
  · exact congrArg (fun l => l.loop.banks) (laneAt_requestSwitch.trans (if_pos named))
  · exact laneAt_requestSwitch.trans (if_neg other)

theorem exec_observerSwitchRequest : exec (.observerSwitchRequest who v) s = .next (putEntry who 0x6001 1 v s) := rfl

theorem exec_biquadSwitchRequest : exec (.biquadSwitchRequest who v) s = .next (putEntry who 0x6001 2 v s) := rfl

/-! ### Shadow banks (R389, R393) -/

/-- The index of a lane's observer banks, or of its biquad banks. -/
def bankIdx : Bool → LaneId → Nat
  | true, n => 0x6010 + n.val
  | false, n => 0x6030 + n.val

theorem bankIdx_high : 0x6000 ≤ bankIdx obs n := by
  cases obs <;> (dsimp only [bankIdx]; omega)

/-- Banks with a switch of the observer, or of the biquads, pending. -/
def switchPending (obs : Bool) (b : Banks) : Bool := if obs then b.obsPending else b.bqPending

/-- Banks with a new shadow copy of the observer, or of the biquads. -/
def shadowWritten (obs : Bool) (v : Bytes) (b : Banks) : Banks := if obs then { b with obsShadow := v } else { b with bqShadow := v }

theorem applyWrite_shadow : applyWrite reply ph ⟨bankIdx obs n, 1, v⟩ s = applyShadow n obs v s := by
  have small := n.isLt
  have own : laneOf n.val = n := Fin.ofNat_val_eq_self n
  rw [applyWrite_engine bankIdx_high]
  cases obs
  case true =>
    have family : familyOf (0x6010 + n.val) = 0x6010 := by
      unfold familyOf
      iterate 3 rw [if_neg (by omega)]
      exact if_pos (by omega)
    simp [bankIdx, applyEngine, family, own]
  case false =>
    have family : familyOf (0x6030 + n.val) = 0x6030 := by
      unfold familyOf
      iterate 4 rw [if_neg (by omega)]
      exact if_pos (by omega)
    simp [bankIdx, applyEngine, family, own]

theorem applyShadow_free (good : bankCheck v = true) (free : switchPending obs (laneAt s n).loop.banks = false) :
    applyShadow n obs v s = .ok (setLane n (withBanks (shadowWritten obs v)) s) := by
  unfold applyShadow
  dsimp only
  rw [if_neg (by simp [good]), if_neg (by simpa [switchPending] using free)]
  rfl

/-- A wrong check word comes before a switch that is pending. -/
theorem applyShadow_barred (barred : bankCheck v = false ∨ switchPending obs (laneAt s n).loop.banks = true) :
    applyShadow n obs v s = .error (if bankCheck v then 0x0501 else 0x0601) := by
  unfold applyShadow
  cases good : bankCheck v
  case false => rfl
  case true =>
    have pending : switchPending obs (laneAt s n).loop.banks = true := barred.resolve_left (by simp [good])
    exact if_pos pending

theorem shadow_written (passes : writePasses s who (bankIdx obs n) 1 v = true) (alone : needsAck s = false)
    (good : bankCheck v = true) (free : switchPending obs (laneAt s n).loop.banks = false) :
    ∃ t, putEntry who (bankIdx obs n) 1 v s = t ∧ answered t who (bankIdx obs n) 1 0 ∧
      (laneAt t n).loop.banks = shadowWritten obs v (laneAt s n).loop.banks :=
  ⟨_, putEntry_lanes (le_trans (by decide) bankIdx_high) passes alone
    (fun _ => applyWrite_shadow.trans (applyShadow_free good free)) (lanesAlone_setLane life_withBanks), rfl, congrArg (fun l => l.loop.banks) laneAt_setLane⟩

theorem putEntry_shadow_barred (passes : writePasses s who (bankIdx obs n) 1 v = true)
    (barred : bankCheck v = false ∨ switchPending obs (laneAt s n).loop.banks = true) : putEntry who (bankIdx obs n) 1 v s =
      send (.answer who (bankIdx obs n) 1 (if bankCheck v then 0x0501 else 0x0601)) s :=
  putEntry_denied (le_trans (by decide) bankIdx_high) passes (fun _ => applyWrite_shadow.trans (applyShadow_barred barred))

theorem exec_observerShadowWrite : exec (.observerShadowWrite who n v) s = .next (putEntry who (0x6010 + n.val) 1 v s) := rfl

theorem exec_biquadShadowWrite : exec (.biquadShadowWrite who n v) s = .next (putEntry who (0x6030 + n.val) 1 v s) := rfl

/-! ### Library slots (R407) -/

/-- Banks with new reference copies. -/
def referenced (ob bq : Bytes) (b : Banks) : Banks := { b with obsRef := ob, bqRef := bq }

/-- A lane whose pickup is of a class with its reference copies renewed, and any other lane as it is. -/
def referenceTaken (cls : Nat) (ob bq : Bytes) (l : Lane) : Lane :=
  if l.life.pickup.map (fun p => p.cls) = some cls then withBanks (referenced ob bq) l else l

theorem referenceTaken_own {cls : Nat} {ob bq : Bytes} (own : pickupClass s n = some cls) :
    referenceTaken cls ob bq (laneAt s n) = withBanks (referenced ob bq) (laneAt s n) := if_pos own

theorem referenceTaken_other {cls : Nat} {ob bq : Bytes} (other : pickupClass s n ≠ some cls) :
    referenceTaken cls ob bq (laneAt s n) = laneAt s n := if_neg other

theorem refreshReferences_eq {k : Nat} : refreshReferences k s = allLanes.foldl (fun a m => setLane m
    (referenceTaken (cfg s (0x6080 + k) 1) (stored s (0x6080 + k) 2) (stored s (0x6080 + k) 3)) a) s := by
  unfold refreshReferences
  dsimp only
  congr 1
  funext a m
  split
  next own => exact setLane_congr (referenceTaken_own own).symm
  next other => exact (setLane_same (referenceTaken_other other)).symm

/-- A lane of the slot's class takes the slot's banks for reference. -/
theorem banks_refreshReferences {k : Nat} (own : pickupClass s n = some (cfg s (0x6080 + k) 1)) :
    (laneAt (refreshReferences k s) n).loop.banks =
      referenced (stored s (0x6080 + k) 2) (stored s (0x6080 + k) 3) (laneAt s n).loop.banks := by
  rw [refreshReferences_eq, laneAt_foldl_setLane _ n _ _ nodup_allLanes, if_pos (mem_allLanes n), referenceTaken_own own,
    banks_withBanks]

theorem lanesAlone_refreshReferences {k : Nat} : LanesAlone s (refreshReferences k s) := by
  rw [refreshReferences_eq]
  refine lanesAlone_foldl_setLane (fun l => ?_) _
  unfold referenceTaken
  split <;> rfl

theorem applyWrite_library : applyWrite reply ph ⟨0x6080 + slot.val, sub, v⟩ s = applyLibrary slot.val sub v s := by
  have small := slot.isLt
  have family : familyOf (0x6080 + slot.val) = 0x6080 := by
    unfold familyOf
    iterate 5 rw [if_neg (by omega)]
    exact if_pos (by omega)
  rw [applyWrite_engine (by omega)]
  simp [applyEngine, family]

/-- A class, or a bank with its check word, is taken by the lanes of the class. -/
theorem applyLibrary_good {k : Nat} (high : sub ≤ 3) (good : sub ≠ 1 → bankCheck v = true) :
    applyLibrary k sub v s = .ok (refreshReferences k (store (0x6080 + k) sub v s)) := by
  have passes : ¬((sub = 2 ∨ sub = 3) ∧ (!bankCheck v) = true) := by
    rintro ⟨bank, bad⟩
    simp [good (by omega)] at bad
  unfold applyLibrary
  dsimp only
  rw [if_neg passes, if_pos high]

theorem applyLibrary_bad {k : Nat} (bank : sub = 2 ∨ sub = 3) (bad : bankCheck v = false) : applyLibrary k sub v s = .error 0x0601 :=
  if_pos ⟨bank, by simp [bad]⟩

/-- The state after a library slot has been written, counted and answered. -/
def libraryWritten (who : Who) (slot : Fin 16) (sub : Nat) (v : Bytes) (s : State) : State :=
  send (.answer who (0x6080 + slot.val) sub 0) (countChange (0x6080 + slot.val) sub
    (refreshReferences slot.val (store (0x6080 + slot.val) sub v s)))

theorem putEntry_library (passes : writePasses s who (0x6080 + slot.val) sub v = true) (alone : needsAck s = false)
    (high : sub ≤ 3) (good : sub ≠ 1 → bankCheck v = true) :
    putEntry who (0x6080 + slot.val) sub v s = libraryWritten who slot sub v s :=
  putEntry_stored (by omega) passes alone (fun _ => applyWrite_library.trans (applyLibrary_good high good))
    lanesAlone_refreshReferences

theorem stored_libraryWritten {i j : Nat} :
    stored (libraryWritten who slot sub v s) i j = stored (store (0x6080 + slot.val) sub v s) i j := by
  rw [libraryWritten, stored_send, stored_countChange, lanesAlone_refreshReferences.stored]

/-- The lanes of the slot's class have its banks for reference. -/
theorem references_libraryWritten (own : pickupClass s n = some (cfg (store (0x6080 + slot.val) sub v s) (0x6080 + slot.val) 1)) :
    (laneAt (libraryWritten who slot sub v s) n).loop.banks.obsRef = stored (libraryWritten who slot sub v s) (0x6080 + slot.val) 2 ∧
    (laneAt (libraryWritten who slot sub v s) n).loop.banks.bqRef = stored (libraryWritten who slot sub v s) (0x6080 + slot.val) 3 := by
  rw [stored_libraryWritten, stored_libraryWritten, libraryWritten, laneAt_send, laneAt_countChange, banks_refreshReferences own]
  exact ⟨rfl, rfl⟩

theorem putEntry_library_bad (passes : writePasses s who (0x6080 + slot.val) sub v = true) (bank : sub = 2 ∨ sub = 3)
    (bad : bankCheck v = false) : putEntry who (0x6080 + slot.val) sub v s = send (.answer who (0x6080 + slot.val) sub 0x0601) s :=
  putEntry_denied (by omega) passes (fun _ => applyWrite_library.trans (applyLibrary_bad bank bad))

theorem exec_librarySlotWrite : exec (.librarySlotWrite who slot sub v) s = .next (putEntry who (0x6080 + slot.val) sub v s) := rfl

/-- Settles O39: a request or a write is refused by its effect, which changes nothing, or is carried out on its lanes alone. -/
theorem banksSwitchOnRequest : Obligations.BanksSwitchOnRequest := by
  simp only [Obligations.BanksSwitchOnRequest, exec_observerSwitchRequest, exec_biquadSwitchRequest, exec_observerShadowWrite,
    exec_biquadShadowWrite, exec_librarySlotWrite, Host.Outcome.next.injEq]
  refine ⟨?observer, ?biquad, ?observerBarred, ?biquadBarred, ?observerBank, ?observerBankBarred, ?biquadBank, ?biquadBankBarred,
    ?library, ?libraryBad⟩
  case observer => exact fun who v s passes alone free => switch_requested (obs := true) passes alone free
  case biquad => exact fun who v s passes alone free => switch_requested (obs := false) passes alone free
  case observerBarred => exact fun who v s passes barred => putEntry_switch_barred (obs := true) passes barred
  case biquadBarred => exact fun who v s passes barred => putEntry_switch_barred (obs := false) passes barred
  case observerBank => exact fun who n v s passes alone good free => shadow_written (obs := true) passes alone good free
  case observerBankBarred => exact fun who n v s passes barred => putEntry_shadow_barred (obs := true) passes barred
  case biquadBank => exact fun who n v s passes alone good free => shadow_written (obs := false) passes alone good free
  case biquadBankBarred => exact fun who n v s passes barred => putEntry_shadow_barred (obs := false) passes barred
  case library =>
    intro who slot sub v s passes alone range good
    exact ⟨_, putEntry_library passes alone range.2 good, stored_libraryWritten.trans stored_store_same, rfl,
      fun n own => references_libraryWritten (own.trans (congrArg (fun b => some (fromLE b)) stored_libraryWritten))⟩
  case libraryBad => exact fun who slot sub v s passes bank bad => putEntry_library_bad passes bank bad

end Sys2Proof.Machine
end

section
/-! PROOFS. The commutation cell and the zero crossings of a lane's spindle (R424, R426, R427, R429, R431). -/

namespace Sys2Proof.Machine

variable {s : State} {n : LaneId} {l : Lane} {p : Spindle} {age : Nat} {e : Int}

/-! ### The commutation cell (R424, R429) -/

/-- The commutation cell is due: a carrier period starts in which it has not run. -/
def CommutationDue (s : State) (n : LaneId) : Prop :=
  levelsRun s = true ∧ lanePhase s n % 100000 = 50000 ∧ (laneAt s n).spin.commAt ≠ some (timerCount s)

/-- The bridge is stepped by the rotor's angle: DRIVE, in open or closed loop. -/
def SteppedByAngle (p : Spindle) : Prop := p.mode = 1 ∧ (p.phase = 2 ∨ p.phase = 3)

/-- The rotor's angle from where STEP 0 begins, at the commutation delay of L+82:01. -/
def stepAngle (s : State) (n : LaneId) (p : Spindle) : Int :=
  ((p.theta : Int) - (deciDegrees (lcfg s n 0x82 1) - deciDegrees 300)) % 2 ^ 40

/-- Sixths of an electrical revolution in an angle. -/
def sixths (phi : Int) : Int := phi * 6 / 2 ^ 40

/-- A boundary of STEP falls within the carrier period. -/
def StepFalls (s : State) (n : LaneId) (p : Spindle) : Prop :=
  sixths (stepAngle s n p) < sixths (stepAngle s n p + 8 * p.omega) ∧ 0 < 8 * p.omega

theorem commutate_other (other : ¬SteppedByAngle l.spin) : commutate s n l = l := if_neg other

/-- Without a boundary within the period STEP stands, with COMM_OFFSET 0. -/
theorem commutate_repeats (drive : SteppedByAngle l.spin) (none : ¬StepFalls s n l.spin) :
    commutate s n l = { l with spin := { l.spin with commOffset := 0 } } :=
  (if_pos drive).trans (if_neg none)

theorem commutate_steps (drive : SteppedByAngle l.spin) (falls : StepFalls s n l.spin) :
    (commutate s n l).spin = { l.spin with
      step := ((sixths (stepAngle s n l.spin) + 1) % 6).toNat
      commOffset := (((sixths (stepAngle s n l.spin) + 1) * 2 ^ 40 / 6 - stepAngle s n l.spin) * 256 / (8 * l.spin.omega)).toNat % 256
      crossing := [] } :=
  congrArg Lane.spin ((if_pos drive).trans (if_pos falls))

theorem exec_commutationStep : exec (.commutationStep n) s = .next (commutationStep n s) := rfl

theorem commutationStep_idle (idle : ¬CommutationDue s n) : commutationStep n s = s := if_neg idle

/-- A run of the cell is noted with the timer's count. -/
def cellRun (s : State) (l : Lane) : Lane := { l with spin := { l.spin with commAt := some (timerCount s) } }

section
variable (due : CommutationDue s n)
include due

theorem laneAt_commutationStep : laneAt (commutationStep n s) n = commutate s n (cellRun s (laneAt s n)) := by
  have run : commutationStep n s = setLane n (commutate s n) (setLane n (cellRun s) s) := if_pos due
  rw [run, laneAt_setLane, laneAt_setLane]

theorem spin_commutationStep_other (other : ¬SteppedByAngle (laneAt s n).spin) :
    (laneAt (commutationStep n s) n).spin = (cellRun s (laneAt s n)).spin := by
  rw [laneAt_commutationStep due, commutate_other (l := cellRun s (laneAt s n)) other]

theorem spin_commutationStep_repeats (drive : SteppedByAngle (laneAt s n).spin) (none : ¬StepFalls s n (laneAt s n).spin) :
    (laneAt (commutationStep n s) n).spin = { (cellRun s (laneAt s n)).spin with commOffset := 0 } := by
  rw [laneAt_commutationStep due, commutate_repeats (l := cellRun s (laneAt s n)) drive none]

/-- The bridge takes the next STEP, with the point of the crossing within the period. -/
theorem spin_commutationStep_steps (drive : SteppedByAngle (laneAt s n).spin) (falls : StepFalls s n (laneAt s n).spin) :
    (laneAt (commutationStep n s) n).spin.step = ((sixths (stepAngle s n (laneAt s n).spin) + 1) % 6).toNat ∧
      (laneAt (commutationStep n s) n).spin.commOffset =
        (((sixths (stepAngle s n (laneAt s n).spin) + 1) * 2 ^ 40 / 6 - stepAngle s n (laneAt s n).spin) * 256 /
          (8 * (laneAt s n).spin.omega)).toNat % 256 := by
  rw [laneAt_commutationStep due, commutate_steps (l := cellRun s (laneAt s n)) drive falls]
  exact ⟨rfl, rfl⟩

end

/-! ### Zero crossings (R426, R427, R431) -/

theorem acceptCrossing_within (low : -deciDegrees (lcfg s n 0x82 4) ≤ e) (high : e ≤ deciDegrees (lcfg s n 0x82 4)) :
    (acceptCrossing s n e p).lastCross = 0 ∧
      (acceptCrossing s n e p).theta = ((p.theta + lcfgInt s n 0x82 2 * e / 32768) % 2 ^ 40).toNat ∧
      (acceptCrossing s n e p).omega = p.omega + lcfgInt s n 0x82 3 * e * (6 * p.omega) / (32768 * 2 ^ 40) := by
  unfold acceptCrossing
  dsimp only
  rw [if_pos ⟨low, high⟩]
  exact ⟨rfl, rfl, rfl⟩

theorem acceptCrossing_outside (outside : e < -deciDegrees (lcfg s n 0x82 4) ∨ deciDegrees (lcfg s n 0x82 4) < e) :
    acceptCrossing s n e p = p :=
  if_neg fun ⟨low, high⟩ => outside.elim (fun below => absurd low (Int.not_le.mpr below)) (fun above => absurd high (Int.not_le.mpr above))

theorem exec_zeroCrossing : exec (.zeroCrossing n) s = .next (zeroCrossing n s) := rfl

theorem zeroCrossing_none (unseen : crossingAge ((laneAt s n).loop.sampledAt.getD 0) (laneAt s n).spin = none) :
    zeroCrossing n s = s := by
  unfold zeroCrossing
  dsimp only
  rw [unseen]

/-- The samples of a crossing are used up by it. -/
def samplesUsed (p : Spindle) : Spindle := { p with crossing := [] }

section
variable (seen : crossingAge ((laneAt s n).loop.sampledAt.getD 0) (laneAt s n).spin = some age)
include seen

/-- What a crossing does, by the phase in which the spindle is. -/
theorem spin_zeroCrossing : (laneAt (zeroCrossing n s) n).spin =
    if (laneAt s n).spin.phase = 3 then
      acceptCrossing s n (crossingError (laneAt s n).spin age) (samplesUsed (laneAt s n).spin)
    else if (laneAt s n).spin.phase = 2 ∧ 3 * openLoopTop ≤ 4 * (laneAt s n).spin.omega then
      { samplesUsed (laneAt s n).spin with
        handover := (crossingError (laneAt s n).spin age :: (laneAt s n).spin.handover).take 16 }
    else samplesUsed (laneAt s n).spin := by
  unfold zeroCrossing
  dsimp only
  rw [seen]
  dsimp only
  rw [laneAt_setLane]
  rfl

theorem spin_zeroCrossing_closed (closed : (laneAt s n).spin.phase = 3) : (laneAt (zeroCrossing n s) n).spin =
    acceptCrossing s n (crossingError (laneAt s n).spin age) (samplesUsed (laneAt s n).spin) :=
  (spin_zeroCrossing seen).trans (if_pos closed)

theorem spin_zeroCrossing_ramp (ramp : (laneAt s n).spin.phase = 2) (late : 3 * openLoopTop ≤ 4 * (laneAt s n).spin.omega) :
    (laneAt (zeroCrossing n s) n).spin = { samplesUsed (laneAt s n).spin with
      handover := (crossingError (laneAt s n).spin age :: (laneAt s n).spin.handover).take 16 } :=
  (spin_zeroCrossing seen).trans ((if_neg (by rw [ramp]; decide)).trans (if_pos ⟨ramp, late⟩))

end

/-- Settles O10: the cell by whether it is due, whether the bridge is driven, and whether a boundary of STEP falls within the period; a
crossing by whether the samples enclose one, and by the spindle's phase. -/
theorem commutationFollowsTheRotor : Obligations.CommutationFollowsTheRotor := by
  simp only [Obligations.CommutationFollowsTheRotor, exec_commutationStep, exec_zeroCrossing]
  refine ⟨?idle, ?other, ?still, ?steps, ?unseen, ?within, ?outside, ?ramp⟩
  case idle =>
    intro n s idle
    rw [commutationStep_idle idle]
  case other => exact fun n s runs start fresh other => ⟨_, rfl, spin_commutationStep_other ⟨runs, start, fresh⟩ other⟩
  case still =>
    intro n s runs start fresh drive closed still
    have none : ¬StepFalls s n (laneAt s n).spin := fun ⟨_, forward⟩ => by omega
    exact ⟨_, rfl, spin_commutationStep_repeats ⟨runs, start, fresh⟩ ⟨drive, .inr closed⟩ none⟩
  case steps =>
    rintro n s phi k k2 runs start fresh drive loop rfl rfl rfl forward crossed
    have falls : StepFalls s n (laneAt s n).spin := ⟨crossed, Int.mul_pos (by decide) forward⟩
    exact ⟨_, rfl, spin_commutationStep_steps ⟨runs, start, fresh⟩ ⟨drive, loop⟩ falls⟩
  case unseen =>
    intro n s unseen
    rw [zeroCrossing_none unseen]
  case within =>
    rintro n age e s seen closed rfl low high
    refine ⟨_, rfl, ?_⟩
    rw [spin_zeroCrossing_closed seen closed]
    exact acceptCrossing_within low high
  case outside =>
    rintro n age e s seen closed rfl outside
    refine ⟨_, rfl, ?_⟩
    rw [spin_zeroCrossing_closed seen closed, acceptCrossing_outside outside]
    rfl
  case ramp =>
    intro n age s seen ramp late
    refine ⟨_, rfl, ?_⟩
    rw [spin_zeroCrossing_ramp seen ramp late]
    exact ⟨rfl, rfl⟩

end Sys2Proof.Machine
end

section
/-! PROOFS. The spindle's start from rest, the loss of its rotor, flying restarts and short braking (R430 to R433, R444, R446 to R448). -/

namespace Sys2Proof.Machine

variable {s : State} {n : LaneId} {p : Spindle} {b : BackEmf} {phase reason rpm k v : Nat} {peaks : List (List Nat)}

/-! ### The bridge in SHORT and in FLOAT (R421, R444) -/

/-- The spindle as short braking begins. -/
def braking (p : Spindle) : Spindle :=
  { p with mode := 2, phase := 5, quiet := 0, shorted := false, duty := 0, stopping := true, atSpeed := false }

theorem laneAt_shortBrake : laneAt (shortBrake n s) n = { laneAt s n with spin := braking (laneAt s n).spin } := by
  unfold shortBrake
  rw [laneAt_lbump, laneAt_setLane]
  rfl

theorem spin_shortBrake : (laneAt (shortBrake n s) n).spin = braking (laneAt s n).spin := by rw [laneAt_shortBrake]

/-- The spindle as its bridge goes to FLOAT in a phase. -/
def floating (phase : Nat) (p : Spindle) : Spindle := { p with mode := 0, duty := 0, commOffset := 0, phase := phase, atSpeed := false }

theorem laneAt_floatBridge : laneAt (floatBridge n phase s) n = { laneAt s n with spin := floating phase (laneAt s n).spin } :=
  laneAt_setLane

theorem spin_floatBridge : (laneAt (floatBridge n phase s) n).spin = floating phase (laneAt s n).spin := by rw [laneAt_floatBridge]

theorem flt_floatBridge : (laneAt (floatBridge n phase s) n).flt = (laneAt s n).flt := by rw [laneAt_floatBridge]

theorem log_floatBridge : (floatBridge n phase s).log = s.log := rfl

/-! ### A fault 1104 (R169, R446) -/

/-- On detection of 1104 the spindle does nothing by R169: its response is that of R446 to R448. -/
theorem spin_detectFault_rotor : (laneAt (detectFault n 0x1104 s) n).spin = (laneAt s n).spin := by
  unfold detectFault
  extract_lets st s1 s2 s3
  have stopped : (laneAt s2 n).spin = (laneAt s1 n).spin :=
    (lk_sledStop (List.Subset.refl _) (.refl n _ s1)).part (x := .spin) (by decide)
  have loops : s3 = s2 := by simp [s3]
  rw [laneAt_postCompletion, loops]
  simp [faultSpindle, stopped, s1]

/-! ### A start from rest (R430 to R433) -/

/-- A failed start counted, with its event. -/
def startReported (n : LaneId) (reason : Nat) (s : State) : State := raise 0x1401 [.u8 n.val, .u8 reason] (lbump n 0xE5 2 1 1 s)

theorem startFailed_eq : startFailed n reason s = detectFault n 0x1104 (startReported n reason s) := rfl

theorem laneAt_startReported : laneAt (startReported n reason s) n = laneAt s n := by
  unfold startReported
  rw [laneAt_raise, laneAt_lbump]

theorem lastEvent_startFailed : lastEvent (startFailed n reason s) = some (0x1401, evData [.u8 n.val, .u8 reason]) := by
  rw [startFailed_eq, lastEvent_of_log log_detectFault, startReported, lastEvent_raise]

theorem spin_startFailed : (laneAt (startFailed n reason s) n).spin = (laneAt s n).spin := by
  rw [startFailed_eq, spin_detectFault_rotor, laneAt_startReported]

theorem safe_startFailed : (laneAt (startFailed n reason s) n).flt.safe = true := by
  rw [startFailed_eq, safe_detectFault]

theorem fault_mem_startFailed (room : RoomForFault (laneAt s n).flt.completions) :
    .fault 0x1104 (laneAt s n).life.st ∈ (laneAt (startFailed n reason s) n).flt.completions := by
  have posted := fault_mem_detectFault (s := startReported n reason s) (n := n) (code := 0x1104) (by rwa [laneAt_startReported])
  rw [laneAt_startReported] at posted
  rwa [startFailed_eq]

theorem exec_startFromRest_none (injecting : (laneAt s n).spin.phase = 1) (none : rotorSector peaks = none) :
    exec (.startFromRest n peaks) s = .next (startFailed n 1 (floatBridge n 0 s)) := by
  refine (if_pos injecting).trans ?_
  rw [none]

/-- The spindle as its open-loop ramp begins, in the STEP after the rotor's sector. -/
def rampBegun (k : Nat) (p : Spindle) : Spindle :=
  { p with
    phase := 2, mode := 1, step := (k + 1) % 6, commOffset := 0, omega := 0, near := 0
    theta := ((2 * ((k + 1) % 6) + 1) * 2 ^ 40) / 12, elecRev := 0, largeErr := 0, lastCross := 0
    crossing := [], handover := [] }

theorem exec_startFromRest_sector (injecting : (laneAt s n).spin.phase = 1) (sector : rotorSector peaks = some k) :
    exec (.startFromRest n peaks) s = .next (setLane n (fun l => { l with spin := rampBegun k l.spin }) s) := by
  refine (if_pos injecting).trans ?_
  rw [sector]
  rfl

/-- The ramp's last crossings, as many as L+83:05 asks for, lie within 15 degrees of its angle. -/
def HandoverDue (s : State) (n : LaneId) : Prop :=
  (laneAt s n).spin.phase = 2 ∧ ((laneAt s n).spin.handover.take (lcfg s n 0x83 5)).length = lcfg s n 0x83 5 ∧
    ((laneAt s n).spin.handover.take (lcfg s n 0x83 5)).all
      (fun e => decide (-deciDegrees 150 ≤ e) && decide (e ≤ deciDegrees 150)) = true

theorem exec_handover_due (due : HandoverDue s n) :
    ∃ t, exec (.handover n) s = .next t ∧ (laneAt t n).spin.phase = 3 ∧ (laneAt t n).spin.ref = 2400000 * 240 := by
  refine ⟨_, if_pos due, ?_⟩
  rw [laneAt_setLane]
  exact ⟨rfl, rfl⟩

theorem exec_handover_early (early : ¬HandoverDue s n) : exec (.handover n) s = .next s := if_neg early

theorem exec_openLoopTimeout_late (ramp : (laneAt s n).spin.phase = 2) (late : 1200 ≤ (laneAt s n).spin.near) :
    exec (.openLoopTimeout n) s = .next (floatBridge n 4 (startFailed n 2 s)) := if_pos ⟨ramp, late⟩

theorem exec_coastEnd_fallen (coasting : (laneAt s n).spin.phase = 4) (fallen : v < lcfg s n 0x84 2) :
    exec (.coastEnd n v) s = .next (shortBrake n s) := if_pos ⟨coasting, fallen⟩

/-! ### A lost rotor (R446) -/

theorem exec_rotorLost : exec (.rotorLost n) s =
    if rotorIsLost (laneAt s n).spin then .next (rotorLost n s) else .next s := rfl

/-- The spindle as it floats for a flying restart, the speed before the loss and its tick kept. -/
def rotorFloats (tick : Nat) (p : Spindle) : Spindle :=
  { floating 6 p with lostSpeed := speedCenti p, lostAt := tick, largeErr := 0 }

/-- A lost rotor is a fault 1104, and floats for a flying restart where L+84:01 allows one. -/
theorem laneAt_rotorLost_restarts (restarts : lcfg s n 0x84 1 = 1) : laneAt (rotorLost n s) n =
    { laneAt (detectFault n 0x1104 s) n with spin := rotorFloats s.ticks (laneAt s n).spin } := by
  unfold rotorLost
  dsimp only
  rw [if_pos restarts, laneAt_setLane, laneAt_floatBridge, spin_detectFault_rotor]
  rfl

theorem spin_rotorLost_restarts (restarts : lcfg s n 0x84 1 = 1) :
    (laneAt (rotorLost n s) n).spin = rotorFloats s.ticks (laneAt s n).spin := by
  rw [laneAt_rotorLost_restarts restarts]

theorem flt_rotorLost_restarts (restarts : lcfg s n 0x84 1 = 1) :
    (laneAt (rotorLost n s) n).flt = (laneAt (detectFault n 0x1104 s) n).flt := by
  rw [laneAt_rotorLost_restarts restarts]

/-! ### Flying restarts (R447, R448) -/

theorem laneAt_flyingFailed : laneAt (flyingFailed n rpm s) n = { laneAt s n with
    spin := braking (laneAt s n).spin
    flt := { (laneAt s n).flt with reentry := .parked, resume := .parked } } := by
  unfold flyingFailed
  rw [laneAt_raise, laneAt_lbump, laneAt_shortBrake, laneAt_setLane]

/-- What a failed restart leaves: short braking, re-entry at PARKED, and event 1403. -/
theorem flyingFailed_spec : (laneAt (flyingFailed n rpm s) n).spin.phase = 5 ∧
    (laneAt (flyingFailed n rpm s) n).flt.reentry = .parked ∧
    lastEvent (flyingFailed n rpm s) = some (0x1403, evData [.u8 n.val, .u8 1, .u32 rpm]) := by
  rw [laneAt_flyingFailed]
  exact ⟨rfl, rfl, lastEvent_raise⟩

/-- The rotor turns forward, and its back-EMF is even and high enough, in time for the restart (R447). -/
def RestartSucceeds (s : State) (n : LaneId) (b : BackEmf) : Prop :=
  b.forward = true ∧ restartInTime s (laneAt s n).spin = true ∧ evenIntervals b.intervals = true ∧ lcfg s n 0x84 2 ≤ b.amplitude

section
variable (floats : (laneAt s n).spin.phase = 6)
include floats

theorem exec_flyingRestart_succeeds (succeeds : RestartSucceeds s n b) :
    ∃ t, exec (.flyingRestart n b) s = .next t ∧ (laneAt t n).spin.phase = 3 ∧
      (laneAt t n).spin.omega = b.speed * 2 ^ 40 / 576000000 ∧
      lastEvent t = some (0x1403, evData [.u8 n.val, .u8 0, .u32 (b.speed.toNat / 100)]) := by
  refine ⟨_, (if_neg (not_not_intro floats)).trans (if_pos succeeds), ?_⟩
  rw [laneAt_raise, laneAt_lbump, laneAt_setLane]
  exact ⟨rfl, rfl, lastEvent_raise⟩

theorem exec_flyingRestart_fails (fails : ¬RestartSucceeds s n b) :
    exec (.flyingRestart n b) s = .next (flyingFailed n (b.speed.toNat / 100) s) :=
  (if_neg (not_not_intro floats)).trans (if_neg fails)

theorem exec_flyingRestartTimeout_late (late : restartInTime s (laneAt s n).spin = false) :
    exec (.flyingRestartTimeout n) s = .next (flyingFailed n 0 s) := if_pos ⟨floats, by rw [late]; rfl⟩

end

/-- Settles O11: each happening by its branch; a fault 1104 leaves the spindle to the response that follows it, and is posted behind what
the ring holds. -/
theorem spindlesStartAndRestart : Obligations.SpindlesStartAndRestart := by
  unfold Obligations.SpindlesStartAndRestart
  refine ⟨?sector, ?noSector, ?handover, ?early, ?timeout, ?coastEnd, ?lost, ?turns, ?restarts, ?backward, ?late⟩
  case sector =>
    intro n peaks k s injecting sector
    refine ⟨_, exec_startFromRest_sector injecting sector, ?_⟩
    rw [laneAt_setLane]
    exact ⟨rfl, rfl, rfl, rfl⟩
  case noSector =>
    intro n peaks s injecting none _ room
    refine ⟨_, exec_startFromRest_none injecting none, lastEvent_startFailed, ?_, ?_⟩
    · have posted := fault_mem_startFailed (s := floatBridge n 0 s) (n := n) (reason := 1) (by rw [laneAt_floatBridge]; exact .inl room)
      rwa [laneAt_floatBridge] at posted
    · rw [spin_startFailed, spin_floatBridge]
      rfl
  case handover =>
    intro n s ramp enough near
    refine exec_handover_due ⟨ramp, List.length_take_of_le enough, List.all_eq_true.mpr fun e mem => ?_⟩
    simpa using near e mem
  case early =>
    intro n s early
    refine exec_handover_early fun ⟨ramp, count, _⟩ => ?_
    rw [List.length_take] at count
    omega
  case timeout =>
    intro n s ramp late
    refine ⟨_, exec_openLoopTimeout_late ramp late, (lastEvent_of_log log_floatBridge).trans lastEvent_startFailed, ?_⟩
    rw [spin_floatBridge, flt_floatBridge, safe_startFailed]
    exact ⟨rfl, rfl, rfl⟩
  case coastEnd =>
    intro n v s coasting fallen
    refine ⟨_, exec_coastEnd_fallen coasting fallen, ?_⟩
    rw [spin_shortBrake]
    exact ⟨rfl, rfl, rfl⟩
  case lost =>
    intro n s lost restarts _ room
    refine ⟨_, exec_rotorLost.trans (if_pos lost), ?_⟩
    rw [spin_rotorLost_restarts restarts, flt_rotorLost_restarts restarts]
    exact ⟨rfl, rfl, rfl, fault_mem_detectFault (.inl room)⟩
  case turns => exact fun n s turns => exec_rotorLost.trans (if_neg (by simp [turns]))
  case restarts =>
    exact fun n b s floats forward inTime even high => exec_flyingRestart_succeeds floats ⟨forward, inTime, even, high⟩
  case backward =>
    intro n b s floats backward
    have fails : ¬RestartSucceeds s n b := fun ⟨forward, _⟩ => by simp [backward] at forward
    exact ⟨_, exec_flyingRestart_fails floats fails, flyingFailed_spec⟩
  case late => exact fun n s floats late => ⟨_, exec_flyingRestartTimeout_late floats late, flyingFailed_spec⟩

end Sys2Proof.Machine
end

section
/-! PROOFS. The bus segments: samples, the chopper and its failure, and overvoltage (R440, R441, R443). -/

namespace Sys2Proof.Machine

variable {s t : State} {n : LaneId} {g h : SegId} {mv sub code : Nat} {f : Segment → Segment} {v : Bytes} {who : Who} {reply : Reply}
  {ph : Bool}

/-! ### Segments read after an update -/

theorem seg_setSeg_other (other : h ≠ g) : (setSeg g f s).segs[h] = s.segs[h] := by
  have : g.val ≠ h.val := fun e => other (Fin.ext e.symm)
  simp [setSeg, vecModify, this]

theorem segs_foldl_setLane (F : Lane → Lane) (l : List LaneId) : (l.foldl (fun a m => setLane m F a) s).segs = s.segs := by
  induction l generalizing s with
  | nil => rfl
  | cons m l ih => exact ih

theorem mem_lanesOfSeg : n ∈ lanesOfSeg g ↔ segOf n = g := by simp [lanesOfSeg, mem_allLanes]

/-! ### Bus samples (R440) -/

/-- What a sample makes of the chopper: a failed one stays off, and between the thresholds it holds. -/
def chopAfter (s : State) (g : SegId) (mv : Nat) : Bool :=
  if s.segs[g].failed then false
  else if cfg s (segIdx g) 2 ≤ mv then true else if mv ≤ cfg s (segIdx g) 3 then false else s.segs[g].chop

/-- The segment after a sample. -/
def sampled (s : State) (g : SegId) (mv : Nat) (c : Segment) : Segment :=
  let on := chopAfter s g mv
  let high := decide (cfg s (segIdx g) 5 ≤ mv)
  { c with
    mv := mv, chop := on
    chopFor := if on then (if c.chop then c.chopFor + 1 else 0) else 0
    chopMv := if on && !c.chop then mv else c.chopMv
    overFor := if high then c.overFor + 1 else 0
    peak := if high then max c.peak mv else 0
    overvoltage := c.overvoltage && high }

theorem segs_busSample : (busSample g mv s).segs = (setSeg g (sampled s g mv) s).segs := segs_foldl_setLane _ _

theorem seg_busSample : (busSample g mv s).segs[g] = sampled s g mv s.segs[g] := by simp only [segs_busSample, seg_setSeg]

theorem seg_busSample_other (other : h ≠ g) : (busSample g mv s).segs[h] = s.segs[h] := by
  simp only [segs_busSample, seg_setSeg_other other]

theorem exec_busSample : exec (.busSample g mv) s = .next (busSample g mv s) := rfl

section
variable (works : s.segs[g].failed = false)
include works

theorem chopAfter_works : chopAfter s g mv =
    if cfg s (segIdx g) 2 ≤ mv then true else if mv ≤ cfg s (segIdx g) 3 then false else s.segs[g].chop :=
  if_neg (by rw [works]; decide)

theorem chopAfter_high (high : cfg s (segIdx g) 2 ≤ mv) : chopAfter s g mv = true := (chopAfter_works works).trans (if_pos high)

theorem chopAfter_low (under : mv < cfg s (segIdx g) 2) (low : mv ≤ cfg s (segIdx g) 3) : chopAfter s g mv = false :=
  (chopAfter_works works).trans ((if_neg (Nat.not_le.mpr under)).trans (if_pos low))

theorem chopAfter_between (under : mv < cfg s (segIdx g) 2) (above : cfg s (segIdx g) 3 < mv) : chopAfter s g mv = s.segs[g].chop :=
  (chopAfter_works works).trans ((if_neg (Nat.not_le.mpr under)).trans (if_neg (Nat.not_le.mpr above)))

end

theorem chopAfter_failed (failed : s.segs[g].failed = true) : chopAfter s g mv = false := if_pos failed

/-! ### A chopper that fails (R441) -/

/-- The chopper has been on for the time of 2240+:06, and the bus stands less than 0.2 V below where it was. -/
def ChopperFails (s : State) (g : SegId) : Prop :=
  s.segs[g].chop = true ∧ (!s.segs[g].failed) = true ∧ 384 * cfg s (segIdx g) 6 ≤ 1000 * s.segs[g].chopFor ∧
    s.segs[g].chopMv < s.segs[g].mv + 200

theorem exec_chopFailureDetect_fails (fails : ChopperFails s g) : exec (.chopFailureDetect g) s =
    .next (raise 0x5101 [.u8 g.val, .u32 s.segs[g].mv] (setSeg g (fun c => { c with failed := true, chop := false, chopFor := 0 }) s)) :=
  if_pos fails

/-! ### Overvoltage (R443) -/

/-- The lanes of a segment that feed current into it. -/
def feedingLanes (s : State) (g : SegId) : List LaneId := (lanesOfSeg g).filter (fun n => decide ((laneAt s n).loop.selected < 0))

/-- An overvoltage met: the segment notes it, and its feeding lanes take a fault 110B. -/
def overvoltageMet (g : SegId) (s : State) : State :=
  (feedingLanes s g).foldl (fun a n => detectFault n 0x110B a) (setSeg g (fun c => { c with overvoltage := true }) s)

theorem exec_busOvervoltage_met (fresh : s.segs[g].overvoltage = false) (long : 384 * 50 ≤ 1000 * s.segs[g].overFor) :
    exec (.busOvervoltage g) s = .next (raise 0x5102
      [.u8 g.val, .u32 s.segs[g].peak, .u32 (sumNat ((feedingLanes s g).map (fun n => 2 ^ n.val)))] (overvoltageMet g s)) :=
  if_pos ⟨by rw [fresh]; rfl, long⟩

theorem segs_foldl_detectFault (l : List LaneId) : (l.foldl (fun a n => detectFault n code a) s).segs = s.segs :=
  (Keeps.foldl _ l s (fun _ _ kept => keeps_detectFault (List.Subset.refl _) kept) (.refl _ s)).frame .segs (by decide)

/-- Of lanes that take a fault in turn, each is in the safe condition at the end, and one that was in it before stays. -/
theorem safe_foldl_detectFault (l : List LaneId) (met : n ∈ l ∨ (laneAt s n).flt.safe = true) :
    (laneAt (l.foldl (fun a m => detectFault m code a) s) n).flt.safe = true := by
  induction l generalizing s with
  | nil => exact met.resolve_left List.not_mem_nil
  | cons m l ih =>
    refine ih ?_
    by_cases own : n = m
    · subst own
      exact .inr safe_detectFault
    · have stands : laneAt (detectFault m code s) n = laneAt s n := (lk_detectFault (List.Subset.refl _) (.refl m _ s)).others n own
      rw [stands]
      exact met.imp_left fun mem => (List.mem_cons.mp mem).resolve_left own

theorem seg_overvoltageMet : (overvoltageMet g s).segs[g].overvoltage = true := by
  simp only [overvoltageMet, segs_foldl_detectFault, seg_setSeg]

theorem safe_overvoltageMet (own : segOf n = g) (feeds : (laneAt s n).loop.selected < 0) :
    (laneAt (overvoltageMet g s) n).flt.safe = true :=
  safe_foldl_detectFault _ (.inl (List.mem_filter.mpr ⟨mem_lanesOfSeg.mpr own, decide_eq_true feeds⟩))

/-! ### A failure cleared (R441) -/

theorem segIdx_bounds : 0x2240 ≤ segIdx g ∧ segIdx g < 0x2244 := by
  have small := g.isLt
  unfold segIdx
  omega

theorem familyOf_segIdx : familyOf (segIdx g) = 0x2240 := by
  obtain ⟨low, high⟩ := segIdx_bounds (g := g)
  unfold familyOf
  rw [if_neg (by omega), if_neg (by omega), if_pos ⟨low, high⟩]

theorem segOf_segIdx : Fin.ofNat 4 (segIdx g - 0x2240) = g := by
  have place : segIdx g - 0x2240 = g.val := by unfold segIdx; omega
  rw [place]
  exact Fin.ofNat_val_eq_self g

/-- The segment's chopper is taken for sound again. -/
def failureCleared (g : SegId) (s : State) : State := setSeg g (fun c => { c with failed := false }) s

theorem applyWrite_clearFailure : applyWrite reply ph ⟨segIdx g, 8, v⟩ s = .ok (failureCleared g s) := by
  obtain ⟨low, high⟩ := segIdx_bounds (g := g)
  unfold applyWrite
  dsimp only
  rw [if_neg (by omega), if_neg (by omega)]
  simp only [applyUnit, familyOf_segIdx, segOf_segIdx]
  rfl

/-- The order to clear has no consistency of its own (R87, R459). -/
theorem consistent_clearFailure : consistent s (segIdx g) 8 = true := by simp [consistent, familyOf_segIdx]

theorem isLater_segIdx : (Put.mk (segIdx g) sub v).isLater = false := by
  have low := (segIdx_bounds (g := g)).1
  simp only [Put.isLater, Bool.or_eq_false_iff, decide_eq_false_iff_not]
  omega

theorem putEntry_clearFailure (passes : writePasses s who (segIdx g) 8 v = true) (alone : needsAck s = false) :
    putEntry who (segIdx g) 8 v s = send (.answer who (segIdx g) 8 0) (countChange (segIdx g) 8 (failureCleared g s)) := by
  obtain ⟨⟨en, checks⟩, -⟩ := writePasses_iff.mp passes
  have settled {a : State} : settleTeams [⟨segIdx g, 8, v⟩] a = a :=
    settleTeams_single (by rw [familyOf_segIdx]; decide) (by have low := (segIdx_bounds (g := g)).1; dsimp only; omega)
  have served := serve_effect (ph := false) (reply := .record who (segIdx g) 8) (p := ⟨segIdx g, 8, v⟩) checks consistent_clearFailure
    applyWrite_clearFailure isLater_segIdx (by rw [settled]; exact alone)
  rw [settled] at served
  exact putEntryWith_now served

theorem exec_clearChopperFailure : exec (.clearChopperFailure who g v) s = .next (putEntry who (segIdx g) 8 v s) := rfl

end Sys2Proof.Machine
end

section
/-! PROOFS. The pacer of a lane (R73, R451 to R455). -/

namespace Sys2Proof.Machine

variable {s : State} {n : LaneId} {u : TeamId} {l : Lane} {c term v : Nat} {f : Pacer → Pacer} {e : Option (Nat × Bytes)}

/-! ### What the core supply covers after a change of a lane's pacer (R72, R73) -/

theorem setLane_setLane {F G : Lane → Lane} : setLane n G (setLane n F s) = setLane n (fun l => G (F l)) s := by
  simp [setLane, vecModify, Vector.set_set]

/-- A lane with its pacer changed. -/
def paced (f : Pacer → Pacer) (l : Lane) : Lane := { l with pace := f l.pace }

/-- What a lane adds to the sum of R72. -/
def laneRate (l : Lane) : Nat := if drawsRate l then 138 * max l.pace.v (velocity l) else 0

theorem rateSum_eq : rateSum s = sumNat (allLanes.map (fun n => laneRate (laneAt s n))) := rfl

section
variable (same : (f (laneAt s n).pace).v = (laneAt s n).pace.v) (override : (f (laneAt s n).pace).override = (laneAt s n).pace.override)
include same override

theorem laneRate_setLane (m : LaneId) : laneRate (laneAt (setLane n (paced f) s) m) = laneRate (laneAt s m) := by
  by_cases own : m = n
  · subst own
    have velocity_same : velocity (paced f (laneAt s m)) = velocity (laneAt s m) := by
      simp only [velocity, paced, same, override]
    have draws : drawsRate (paced f (laneAt s m)) = drawsRate (laneAt s m) := rfl
    rw [laneAt_setLane, laneRate, draws, velocity_same, paced, same]
    rfl
  · rw [laneAt_setLane_other own]

/-- A change of the pacer that leaves its velocities leaves what the supply covers. -/
theorem supplyCovers_setLane {extra : Nat} : supplyCovers (setLane n (paced f) s) extra = supplyCovers s extra := by
  have sum : rateSum (setLane n (paced f) s) = rateSum s := by
    simp only [rateSum_eq, laneRate_setLane same override]
  have floor : cfg (setLane n (paced f) s) 0x2210 2 = cfg s 0x2210 2 := cfg_congr_reg rfl rfl 2
  have need : needMv (setLane n (paced f) s) extra = needMv s extra := by rw [needMv, sum, floor, needMv]
  unfold supplyCovers
  rw [need]
  rfl

end

/-! ### A velocity taken (R73, R454) -/

/-- What a rise of a lane's velocity adds to the sum of R72. -/
def riseCost (l : Lane) (v : Nat) : Nat := if drawsRate l then 138 * (v - l.pace.v) else 0

/-- The pacer with a velocity in force. -/
def velocityTaken (v : Nat) (p : Pacer) : Pacer := { p with v := v, raise := none }

/-- The pacer with a rise that waits for the core supply. -/
def riseWaits (v : Nat) (p : Pacer) : Pacer := { p with raise := some v }

theorem takeVelocity_eq : takeVelocity n v s =
    if v ≤ (laneAt s n).pace.v then setLane n (paced (velocityTaken v)) s
    else if supplyCovers s (riseCost (laneAt s n) v) then setLane n (paced (velocityTaken v)) s
    else setLane n (paced (riseWaits v)) s := rfl

theorem log_takeVelocity : (takeVelocity n v s).log = s.log := by
  rw [takeVelocity_eq]
  split_ifs
  · rfl
  · rfl
  · rfl

section
variable (same : (f (laneAt s n).pace).v = (laneAt s n).pace.v)
include same

/-- A velocity that falls is taken at once, whatever else of the pacer has changed before. -/
theorem pace_takeVelocity_fall (fall : v ≤ (laneAt s n).pace.v) :
    (laneAt (takeVelocity n v (setLane n (paced f) s)) n).pace = velocityTaken v (f (laneAt s n).pace) := by
  rw [takeVelocity_eq, laneAt_setLane, if_pos (by rwa [paced, same]), laneAt_setLane, laneAt_setLane]
  rfl

variable (override : (f (laneAt s n).pace).override = (laneAt s n).pace.override) (rise : (laneAt s n).pace.v < v)
include override rise

/-- A velocity that rises is taken at once where the supply covers it, and else waits for the supply. -/
theorem pace_takeVelocity_rise : (laneAt (takeVelocity n v (setLane n (paced f) s)) n).pace =
    if supplyCovers s (riseCost (laneAt s n) v) = true then velocityTaken v (f (laneAt s n).pace) else riseWaits v (f (laneAt s n).pace) := by
  have cost : riseCost (paced f (laneAt s n)) v = riseCost (laneAt s n) v := by
    rw [riseCost, paced, same]
    rfl
  rw [takeVelocity_eq, laneAt_setLane, if_neg (by rw [paced, same]; omega), supplyCovers_setLane same override, cost]
  split
  · rw [laneAt_setLane, laneAt_setLane]
    rfl
  · rw [laneAt_setLane, laneAt_setLane]
    rfl

end

/-! ### The evaluation (R451, R452, R455) -/

/-- The pacer with the evaluation's ceiling and demand noted. -/
def evaluated (c term : Nat) (d : Nat × Nat) (p : Pacer) : Pacer :=
  { p with ceiling := c, term := term, demand := d.1, seen := d.2, begun := true, warned := p.warned && decide (c < 2496) }

/-- The state in which the evaluation chooses its velocity, when the ceiling raises no event. -/
def evaluation (n : LaneId) (c term : Nat) (s : State) : State := setLane n (paced (evaluated c term (demandNext s n))) s

section
variable (ceiling : ceilingOf s n = (c, term)) (high : 2496 ≤ c)
include ceiling high

theorem pacerEvaluation_ordered (ordered : lcfg s n 0x88 1 = 1) :
    pacerEvaluation n s = takeVelocity n (min (lcfg s n 0x88 2) c) (evaluation n c term s) := by
  unfold pacerEvaluation
  rw [ceiling]
  refine (if_pos ordered).trans ?_
  rw [if_neg fun low => absurd low.1 (Nat.not_lt.mpr high)]
  rfl

theorem pacerEvaluation_first (auto : lcfg s n 0x88 1 ≠ 1) (fresh : (laneAt s n).pace.begun = false) :
    pacerEvaluation n s = takeVelocity n c (evaluation n c term s) := by
  unfold pacerEvaluation
  rw [ceiling]
  refine (if_neg auto).trans ((if_pos (.inl (by rw [fresh]; rfl))).trans ?_)
  rw [if_neg fun low => absurd low.1 (Nat.not_lt.mpr high)]
  rfl

/-- A target above the velocity in force is taken, and the evaluations below it are counted anew. -/
theorem pacerEvaluation_demand (auto : lcfg s n 0x88 1 ≠ 1) (begun : (laneAt s n).pace.begun = true) (team : teamOfLane s n = some u)
    (history : (teamAt s u).history = true) (below : (laneAt s n).pace.v < min (max (targetVelocity s n (demandNext s n).1) 2496) c) :
    pacerEvaluation n s = takeVelocity n (min (max (targetVelocity s n (demandNext s n).1) 2496) c)
      (setLane n (paced fun p => { evaluated c term (demandNext s n) p with low := 0 }) s) := by
  unfold pacerEvaluation
  rw [ceiling, team]
  refine (if_neg auto).trans ((if_neg ?_).trans ((if_pos below).trans ?_))
  · simp [begun, history]
  · rw [if_neg fun low => absurd low.1 (Nat.not_lt.mpr high), setLane_setLane]
    rfl

end

/-! ### A low ceiling (R455) -/

/-- A lane has been warned of its ceiling, and an event is the newest of the log. -/
def Warned (n : LaneId) (e : Option (Nat × Bytes)) (t : State) : Prop := (laneAt t n).pace.warned = true ∧ lastEvent t = e

theorem Warned.paced (warned : Warned n e s) (keeps : ∀ p, (f p).warned = p.warned) : Warned n e (setLane n (paced f) s) := by
  refine ⟨?_, warned.2⟩
  rw [laneAt_setLane]
  exact (keeps _).trans warned.1

theorem Warned.lowered (warned : Warned n e s) (k : Nat) : Warned n e (setLane n (Machine.paced fun p => { p with low := k }) s) :=
  warned.paced fun _ => rfl

theorem Warned.ite {x : Prop} [Decidable x] {a b : State} (h : Warned n e a) (k : Warned n e b) : Warned n e (if x then a else b) := by
  split
  · exact h
  · exact k

theorem Warned.takeVelocity (warned : Warned n e s) : Warned n e (takeVelocity n v s) := by
  rw [takeVelocity_eq]
  exact .ite (warned.paced fun _ => rfl) (.ite (warned.paced fun _ => rfl) (warned.paced fun _ => rfl))

/-- The state in which the evaluation chooses its velocity, when the ceiling raises event 1404. -/
def warnedEvaluation (n : LaneId) (c term : Nat) (s : State) : State :=
  raise 0x1404 [.u8 n.val, .u32 c, .u8 term] (setLane n (paced fun p => { p with warned := true }) (evaluation n c term s))

theorem warned_warnedEvaluation : Warned n (some (0x1404, evData [.u8 n.val, .u32 c, .u8 term])) (warnedEvaluation n c term s) := by
  refine ⟨?_, lastEvent_raise⟩
  rw [warnedEvaluation, laneAt_raise, laneAt_setLane]
  rfl

/-- A ceiling that has come to lie below 2,496 mm/s is warned of, whatever velocity is then taken. -/
theorem pacerEvaluation_warns (ceiling : ceilingOf s n = (c, term)) (low : c < 2496) (fresh : (laneAt s n).pace.warned = false) :
    Warned n (some (0x1404, evData [.u8 n.val, .u32 c, .u8 term])) (pacerEvaluation n s) := by
  have due : c < 2496 ∧ (!(laneAt s n).pace.warned) = true := ⟨low, by rw [fresh]; rfl⟩
  have warned := warned_warnedEvaluation (n := n) (c := c) (term := term) (s := s)
  unfold pacerEvaluation
  rw [ceiling]
  dsimp only
  rw [if_pos due]
  exact .ite warned.takeVelocity (.ite warned.takeVelocity (.ite (warned.lowered 0).takeVelocity
    (.ite ((warned.lowered _).lowered 0).takeVelocity (.ite (warned.lowered _).takeVelocity (warned.lowered _)))))

end Sys2Proof.Machine
end

section
/-! PROOFS. Spindles on a bus: the voltage limit, regeneration, the chopper, overvoltage and the pacer (R439 to R443, R445, R451 to R455). -/

namespace Sys2Proof.Machine

variable {s : State} {n : LaneId}

/-! ### The voltage limit (R439, R451) -/

/-- The lane has been at the limit in closed loop for 10 ms, and has not been called limited. -/
def LimitMet (s : State) (n : LaneId) : Prop :=
  (laneAt s n).spin.phase = 3 ∧ (!(laneAt s n).spin.limited) = true ∧ 480 ≤ (laneAt s n).spin.atLimit

/-- The spindle as it becomes voltage-limited at a speed and a bus voltage. -/
def limitRecorded (speed : Int) (mv : Nat) (p : Spindle) : Spindle :=
  { p with limited := true, limitSpeed := speed, limitBus := mv, belowLimit := 0 }

theorem exec_voltageLimitEnter_met (met : LimitMet s n) : exec (.voltageLimitEnter n) s = .next
    (raise 0x1402 [.u8 n.val, .u32 ((speedCenti (laneAt s n).spin).toNat / 100), .u32 s.segs[segOf n].mv]
      (setLane n (fun l => { l with spin := limitRecorded (speedCenti (laneAt s n).spin) s.segs[segOf n].mv l.spin }) s)) :=
  if_pos met

/-- A lane that has been below the limit for 10 ms is limited no more. -/
def limitLeft (l : Lane) : Lane :=
  if l.spin.limited = true ∧ 480 ≤ l.spin.belowLimit then { l with spin := { l.spin with limited := false, atLimit := 0 } } else l

theorem exec_voltageLimitExit : exec (.voltageLimitExit n) s = .next (setLane n limitLeft s) := rfl

/-! ### Regeneration that goes on (R445) -/

section
variable (closed : (laneAt s n).spin.phase = 3) (wins : 96 ≤ (laneAt s n).spin.regenWins)
include closed wins

theorem exec_regenToShort_stop (stop : (laneAt s n).spin.stopping = true) : exec (.regenToShort n) s = .next (shortBrake n s) :=
  (if_pos ⟨closed, wins⟩).trans (if_pos stop)

theorem exec_regenToShort_retarget (retarget : (laneAt s n).spin.stopping = false) : exec (.regenToShort n) s =
    .next (setLane n (fun l => { l with spin := { l.spin with coast := true, regenWins := 0 } }) s) :=
  (if_pos ⟨closed, wins⟩).trans (if_neg (ne_true_of_eq_false retarget))

end

theorem exec_pacerEvaluation : exec (.pacerEvaluation n) s = .next (pacerEvaluation n s) := rfl

/-- Settles O12: the limit and regeneration by their branches; samples, failures and overvoltages by what they do to the segment, which
nothing on its lanes changes; the pacer by how its velocity is chosen, which the supply covers or not whatever the evaluation has noted. -/
theorem spindlesShareTheBus : Obligations.SpindlesShareTheBus := by
  simp only [Obligations.SpindlesShareTheBus, exec_busSample, exec_voltageLimitExit, exec_pacerEvaluation, exec_clearChopperFailure]
  refine ⟨?enters, ?leaves, ?stops, ?retargets, ?sample, ?fails, ?overvoltage, ?ordered, ?warns, ?raised, ?first, ?demand, ?clears⟩
  case enters =>
    intro n s closed free long
    refine ⟨_, exec_voltageLimitEnter_met ⟨closed, by rw [free]; rfl, long⟩, ?_⟩
    rw [laneAt_raise, laneAt_setLane]
    exact ⟨rfl, rfl, rfl, lastEvent_raise⟩
  case leaves =>
    intro n s limited long
    refine ⟨_, rfl, ?_⟩
    rw [laneAt_setLane, limitLeft, if_pos ⟨limited, long⟩]
    exact ⟨rfl, rfl⟩
  case stops =>
    intro n s closed wins stop
    refine ⟨_, exec_regenToShort_stop closed wins stop, ?_⟩
    rw [spin_shortBrake]
    exact ⟨rfl, rfl⟩
  case retargets =>
    intro n s closed wins retarget
    refine ⟨_, exec_regenToShort_retarget closed wins retarget, ?_⟩
    rw [laneAt_setLane]
    exact ⟨rfl, closed⟩
  case sample =>
    intro g mv s
    refine ⟨_, rfl, ?_⟩
    rw [seg_busSample]
    exact ⟨rfl, chopAfter_failed, chopAfter_high, chopAfter_low, chopAfter_between, fun h other => seg_busSample_other other⟩
  case fails =>
    intro g s on sound long near
    refine ⟨_, exec_chopFailureDetect_fails ⟨on, by rw [sound]; rfl, long, near⟩, ?_⟩
    simp only [segs_raise, seg_setSeg, lastEvent_raise, and_self]
  case overvoltage =>
    intro g s fresh long
    refine ⟨_, exec_busOvervoltage_met fresh long, ?_, by rw [lastEvent_raise]; rfl, fun n own feeds => ?_⟩
    · simp only [segs_raise, seg_overvoltageMet]
    · rw [laneAt_raise]
      exact safe_overvoltageMet own feeds
  case ordered =>
    intro n c term s ordered ceiling high fall
    refine ⟨_, rfl, ?_⟩
    rw [pacerEvaluation_ordered ceiling high ordered, evaluation, pace_takeVelocity_fall rfl fall, log_takeVelocity]
    exact ⟨rfl, rfl, rfl, rfl, rfl, rfl⟩
  case warns => exact fun n c term s ceiling low fresh => ⟨_, rfl, pacerEvaluation_warns ceiling low fresh⟩
  case raised =>
    intro n c term s ordered ceiling high rise
    refine ⟨_, rfl, ?_⟩
    rw [pacerEvaluation_ordered ceiling high ordered, evaluation, pace_takeVelocity_rise rfl rfl rise]
    change if supplyCovers s (riseCost (laneAt s n) (min (lcfg s n 0x88 2) c)) = true then _ else _
    by_cases covered : supplyCovers s (riseCost (laneAt s n) (min (lcfg s n 0x88 2) c)) = true
    · rw [if_pos covered, if_pos covered]
      exact ⟨rfl, rfl⟩
    · rw [if_neg covered, if_neg covered]
      exact ⟨rfl, rfl⟩
  case first =>
    intro n c term s auto ceiling high fresh fall
    refine ⟨_, rfl, ?_⟩
    rw [pacerEvaluation_first ceiling high auto fresh, evaluation, pace_takeVelocity_fall rfl fall]
    exact ⟨rfl, rfl, rfl⟩
  case demand =>
    intro n u c term s auto ceiling high begun team history below covered
    refine ⟨_, rfl, ?_⟩
    rw [pacerEvaluation_demand ceiling high auto begun team history below, pace_takeVelocity_rise rfl rfl below, riseCost, if_pos covered]
    exact ⟨rfl, rfl⟩
  case clears =>
    intro who g v s passes alone
    refine ⟨_, rfl, ?_⟩
    rw [putEntry_clearFailure passes alone]
    exact ⟨rfl, seg_setSeg, rfl⟩

end Sys2Proof.Machine
end

section
/-! PROOFS. The default microstep table restored (R491, R492, L+A4:03), and the statement on the sled, which fails where the stored
values list one entry twice. -/

namespace Sys2Proof.Machine

variable {s : State} {n : LaneId} {v : Bytes} {who : Who} {reply : Reply} {ph : Bool}

/-- The written table forgotten, and the default one pending its boundary. -/
def tableRestored (n : LaneId) (s : State) : State := loadTable n defaultTable (unstore (laneIdx n 0xA4) 2 s)

theorem applyWrite_restoreTable : applyWrite reply ph ⟨laneIdx n 0xA4, 3, v⟩ s = .ok (tableRestored n s) := by
  rw [applyWrite_laneIdx (by decide)]
  simp [applyLane, tableRestored]

/-- Check 8 asks nothing of L+A4:03. -/
theorem consistent_restoreTable : consistent s (laneIdx n 0xA4) 3 = true := by
  simp [consistent, familyOf_laneIdx (n := n) (off := 0xA4) (by decide)]

/-- RESTORE_DEFAULT_TABLE restores the table, and is counted and answered. -/
theorem putEntry_restoreTable (passes : writePasses s who (laneIdx n 0xA4) 3 v = true) (alone : needsAck s = false) :
    putEntry who (laneIdx n 0xA4) 3 v s =
      send (.answer who (laneIdx n 0xA4) 3 0) (countChange (laneIdx n 0xA4) 3 (tableRestored n s)) := by
  obtain ⟨⟨en, checks⟩, -⟩ := writePasses_iff.mp passes
  have high : 0x4000 ≤ laneIdx n 0xA4 := (laneIdx_bounds (by decide)).1
  have settled {a : State} : settleTeams [⟨laneIdx n 0xA4, 3, v⟩] a = a :=
    settleTeams_single (familyOf_high high) (by dsimp only; omega)
  have served := serve_effect (ph := false) (reply := .record who (laneIdx n 0xA4) 3) (p := ⟨laneIdx n 0xA4, 3, v⟩) checks
    consistent_restoreTable applyWrite_restoreTable (isLater_high high) (by rw [settled]; exact alone)
  rw [settled] at served
  exact putEntryWith_now served

theorem exec_restoreDefaultTable :
    exec (.restoreDefaultTable who n v) s = .next (putEntry who (laneIdx n 0xA4) 3 v s) := rfl

/-- Of the stored values, the restore erases the written table. -/
theorem reg_restoreTable (passes : writePasses s who (laneIdx n 0xA4) 3 v = true) (alone : needsAck s = false) :
    (putEntry who (laneIdx n 0xA4) 3 v s).dict.reg = mapErase s.dict.reg (regKey (laneIdx n 0xA4) 2) := by
  rw [putEntry_restoreTable passes alone]
  rfl

/-- Where the keys of the stored values rise strictly, the restore forgets the written table. -/
theorem forgotten_restoreTable (passes : writePasses s who (laneIdx n 0xA4) 3 v = true) (alone : needsAck s = false)
    (sorted : mapSorted s.dict.reg = true) :
    mapGet (putEntry who (laneIdx n 0xA4) 3 v s).dict.reg (regKey (laneIdx n 0xA4) 2) = none := by
  rw [reg_restoreTable passes alone, mapGet_mapErase _ _ sorted, if_pos rfl]

/-- A lane whose microstep table stands twice among the stored values. -/
def tableTwice : State :=
  { Tests.up with dict := { Tests.up.dict with
      reg := [(regKey (laneIdx 6 0xA4) 2, [9]), (regKey (laneIdx 6 0xA4) 2, [7])] } }

/-- The first of the two values erased, the second comes to light. -/
theorem mapGet_mapErase_tableTwice :
    mapGet (mapErase tableTwice.dict.reg (regKey (laneIdx 6 0xA4) 2)) (regKey (laneIdx 6 0xA4) 2) = some [7] := by decide

/-- Refutes O40 in its clause on RESTORE_DEFAULT_TABLE: a microstep table that stands twice among the stored values is not forgotten.
The clause lacks the hypothesis that the keys of the stored values rise strictly, `mapSorted s.dict.reg = true`, with which
`forgotten_restoreTable` proves it. -/
theorem not_sledFollowsItsOrders : ¬ Obligations.SledFollowsItsOrders := by
  rintro ⟨-, -, -, -, -, -, -, -, -, -, -, -, -, restore⟩
  have passes : writePasses tableTwice (.nvme 0) (laneIdx 6 0xA4) 3 (toLE 4 1413562956) = true := by decide
  have alone : needsAck tableTwice = false := by decide
  obtain ⟨t, ran, -, -, forgotten⟩ := restore (.nvme 0) 6 (toLE 4 1413562956) tableTwice passes alone
  have written : t = putEntry (.nvme 0) (laneIdx 6 0xA4) 3 (toLE 4 1413562956) tableTwice :=
    (Host.Outcome.next.inj (exec_restoreDefaultTable.symm.trans ran)).symm
  rw [written, reg_restoreTable passes alone, mapGet_mapErase_tableTwice] at forgotten
  cases forgotten

end Sys2Proof.Machine
end

section
/-! PROOFS. Warm-up rules: what the operations of 11_warm_up.md do to the warm-up record of their lane. -/

namespace Sys2Proof.Machine

variable {s : State} {n : LaneId} {p part code fuel : Nat} {rest : List Nat} {vals : List (Nat × Int)}

@[simp] theorem warm_setWarm {f : WarmUp → WarmUp} : (laneAt (setWarm n f s) n).warm = f (laneAt s n).warm := by
  unfold setWarm
  rw [laneAt_setLane]

@[simp] theorem lastEvent_setWarm {f : WarmUp → WarmUp} : lastEvent (setWarm n f s) = lastEvent s := rfl

@[simp] theorem warm_leaveHold : (laneAt (leaveHold n s) n).warm = (laneAt s n).warm :=
  (lk_leaveHold (List.Subset.refl _) (.refl n _ s)).part (x := .warm) (by decide)

@[simp] theorem lastEvent_leaveHold : lastEvent (leaveHold n s) = lastEvent s :=
  lastEvent_of_log ((keeps_leaveHold (List.Subset.refl _) (.refl _ s)).frame .log (by decide))

/-! ### Results of parts (R520, R521) -/

@[simp] theorem ticks_partResult : (partResult n part code s).ticks = s.ticks :=
  (keeps_partResult (List.Subset.refl _) (.refl _ s)).ticks

/-- A part that passed leaves its result alone. -/
theorem warm_partResult_passed : (laneAt (partResult n part 1 s) n).warm =
    { (laneAt s n).warm with results := (laneAt s n).warm.results.set part 1 } := by
  unfold partResult
  exact (congrArg (fun t => (laneAt t n).warm) (if_pos (.inl rfl))).trans warm_setWarm

section
variable (failed : ¬(code = 1 ∨ code = 7))
include failed

/-- A part that failed fails its run, but for DETECTOR, which belongs to none (R508). -/
theorem warm_partResult_failed : (laneAt (partResult n part code s) n).warm =
    { (laneAt s n).warm with
      results := (laneAt s n).warm.results.set part code, failed := (laneAt s n).warm.failed || decide (part ≠ 0) } := by
  simp [partResult, if_neg failed]

theorem lastEvent_partResult_failed : lastEvent (partResult n part code s) =
    some (0x1602, evData [.u8 n.val, .u8 part, .u8 code]) := by
  simp [partResult, if_neg failed]

end

theorem todo_partResult : (laneAt (partResult n part code s) n).warm.todo = (laneAt s n).warm.todo := by
  by_cases failed : code = 1 ∨ code = 7
  · simp [partResult, failed]
  · rw [warm_partResult_failed failed]

/-! ### Parts begin and end (R508, R510, R521) -/

/-- A part of a run as it begins at a tick, with the parts that follow it. -/
def partBegun (p : Nat) (rest : List Nat) (tick : Nat) (w : WarmUp) : WarmUp :=
  { w with
    part := p, todo := rest, ran := w.ran ++ [p], started := tick, frames := 0, probe := 0, q := []
    v0 := w.trims.getD (probeIndex p) 0, opcWaiting := decide (p = 6) }

section
variable (todo : (laneAt s n).warm.todo = p :: rest) (inLine : p ≠ 6)
include todo inLine

theorem beginPart_next : beginPart n (fuel + 1) s = setWarm n (partBegun p rest s.ticks) (leaveHold n s) := by
  unfold beginPart
  rw [todo]
  exact if_neg inLine

/-- After a part that ends, the next in-line part of the run begins. -/
theorem endPart_next : endPart n code s =
    setWarm n (partBegun p rest s.ticks) (leaveHold n (partResult n (laneAt s n).warm.part code s)) := by
  unfold endPart
  rw [beginPart_next (todo_partResult.trans todo) inLine, ticks_partResult]

theorem warm_endPart_passed : (laneAt (endPart n 1 s) n).warm = partBegun p rest s.ticks
    { (laneAt s n).warm with results := (laneAt s n).warm.results.set (laneAt s n).warm.part 1 } := by
  rw [endPart_next todo inLine, warm_setWarm, warm_leaveHold, warm_partResult_passed]

/-- An in-line part that fails: its result, the failed run, and event 1602; the trims stay. -/
theorem endPart_failed (failed : ¬(code = 1 ∨ code = 7)) (own : 1 ≤ (laneAt s n).warm.part) :
    (laneAt (endPart n code s) n).warm = partBegun p rest s.ticks
      { (laneAt s n).warm with results := (laneAt s n).warm.results.set (laneAt s n).warm.part code, failed := true } ∧
    lastEvent (endPart n code s) = some (0x1602, evData [.u8 n.val, .u8 (laneAt s n).warm.part, .u8 code]) := by
  have counts : ((laneAt s n).warm.failed || decide ((laneAt s n).warm.part ≠ 0)) = true := by
    rw [decide_eq_true (by omega), Bool.or_true]
  rw [endPart_next todo inLine, warm_setWarm, warm_leaveHold, lastEvent_setWarm, lastEvent_leaveHold,
    warm_partResult_failed failed, lastEvent_partResult_failed failed, counts]
  exact ⟨rfl, rfl⟩

end

/-! ### Trims put and taken in force (R523) -/

/-- From `w` to `w'` a warm-up stands but for the values in force and the frames to settle. -/
def Retaken (w w' : WarmUp) : Prop := ∃ f k, w' = { w with inForce := f, settle := k }

theorem Retaken.refl (w : WarmUp) : Retaken w w := ⟨_, _, rfl⟩

theorem Retaken.trans {w v u : WarmUp} (h : Retaken w v) (k : Retaken v u) : Retaken w u := by
  obtain ⟨f, i, rfl⟩ := h
  obtain ⟨g, j, rfl⟩ := k
  exact ⟨g, j, rfl⟩

theorem retaken_takeTrims {test : Nat → Bool} : Retaken (laneAt s n).warm (laneAt (takeTrims n test s) n).warm := by
  unfold takeTrims
  dsimp only
  split
  · exact .refl _
  · rw [laneAt_setLane]
    exact ⟨_, _, rfl⟩

theorem retaken_takeRf {c : ChanId} : Retaken (laneAt s n).warm (laneAt (takeRf n c s) n).warm := by
  unfold takeRf
  dsimp only
  split
  · exact .refl _
  · refine .trans ?_ retaken_takeTrims
    rw [laneAt_setLane]
    exact .refl _

theorem retaken_foldl_takeRf (l : List ChanId) :
    Retaken (laneAt s n).warm (laneAt (l.foldl (fun a c => takeRf n c a) s) n).warm := by
  induction l generalizing s with
  | nil => exact .refl _
  | cons c l ih => exact retaken_takeRf.trans ih

theorem retaken_takeRfAtOnce : Retaken (laneAt s n).warm (laneAt (takeRfAtOnce n s) n).warm := by
  unfold takeRfAtOnce
  dsimp only
  split
  · exact .refl _
  · exact retaken_foldl_takeRf _

/-- Values put into a trim set, by index. -/
def trimsPut (vals : List (Nat × Int)) (trims : List Int) : List Int := vals.foldl (fun t v => t.set v.1 v.2) trims

/-- Trims that are put change the trim set and, where they take force at once, what is in force. -/
theorem retaken_putTrims : Retaken { (laneAt s n).warm with trims := trimsPut vals (laneAt s n).warm.trims }
    (laneAt (putTrims n vals s) n).warm := by
  have taken := retaken_takeRfAtOnce (n := n)
    (s := setWarm n (fun w => { w with trims := trimsPut vals w.trims }) s)
  rwa [warm_setWarm] at taken

theorem length_trimsPut {trims : List Int} : (trimsPut vals trims).length = trims.length := by
  induction vals generalizing trims with
  | nil => rfl
  | cons v vals ih => exact ih.trans List.length_set

/-- A run of values put from an index on. -/
theorem getElem?_trimsPut {first count : Nat} {f : Nat → Int} {trims : List Int} (fits : first + count ≤ trims.length) (i : Nat) :
    (trimsPut ((upTo count).map (fun j => (first + j, f j))) trims)[i]? =
      if first ≤ i ∧ i < first + count then some (f (i - first)) else trims[i]? := by
  induction count with
  | zero => rw [if_neg (by omega)]; rfl
  | succ count ih =>
    have last : trimsPut ((upTo (count + 1)).map (fun j => (first + j, f j))) trims =
        (trimsPut ((upTo count).map (fun j => (first + j, f j))) trims).set (first + count) (f count) := by
      simp [trimsPut, upTo, List.range_succ]
    rw [last, List.getElem?_set, length_trimsPut, ih (by omega)]
    by_cases here : first + count = i
    · rw [if_pos here, if_pos (by omega), if_pos (by omega), ← here, Nat.add_sub_cancel_left]
    · rw [if_neg here]
      exact if_congr (by omega) rfl rfl

end Sys2Proof.Machine
end

section
/-! PROOFS. Warm-up runs: how they start and are retried, what ends a part, and the wait for a boundary (R507, R508, R512 to R517, R522). -/

namespace Sys2Proof.Machine

variable {s : State} {n : LaneId} {p layer : Nat} {rest : List Nat} {d : Disc} {samples : List (List Int)} {vals : List (Nat × Int)}

/-! ### Runs start (R507, R508, R522) -/

/-- The parts of a run that was asked for by a mask, or of one that starts of itself. -/
def partsAsked (asked : Nat) : List Nat :=
  if asked = 0 then [1, 2, 3, 4, 5, 6] else [1, 2, 3, 4, 5, 6].filter (fun p => bit asked p)

/-- A run begun, before its first part. -/
def runBegun (w : WarmUp) : WarmUp :=
  { w with
    running := true, byHost := decide (w.asked ≠ 0), asked := 0, failed := false, ran := [], todo := partsAsked w.asked
    results := w.results.take 1 ++ List.replicate 6 0 }

theorem exec_warmUpStart : exec (.warmUpStart n) s = .next (warmUpStart n s) := rfl

section
variable (up : readyUp (laneAt s n).life.st = true) (rests : (laneAt s n).warm.running = false) (starts : warmStarts s n = true)
include up rests starts

theorem warmUpStart_starts : warmUpStart n s = beginPart n 8 (lbump n 0xE7 1 0 1 (setWarm n runBegun s)) :=
  (if_pos (by rw [up, rests, starts]; rfl)).trans
    (congrArg (fun t => beginPart n 8 (lbump n 0xE7 1 0 1 t)) (setLane_congr rfl))

/-- A run that starts is in its first part. -/
theorem warm_warmUpStart (parts : partsAsked (laneAt s n).warm.asked = p :: rest) (inLine : p ≠ 6) :
    (laneAt (warmUpStart n s) n).warm = partBegun p rest s.ticks (runBegun (laneAt s n).warm) := by
  rw [warmUpStart_starts up rests starts, beginPart_next (p := p) (rest := rest) (by rw [laneAt_lbump, warm_setWarm]; exact parts) inLine,
    warm_setWarm, warm_leaveHold, laneAt_lbump, warm_setWarm, ticks_lbump]
  rfl

end

theorem warmUpStart_rests
    (held : readyUp (laneAt s n).life.st = false ∨ (laneAt s n).warm.running = true ∨ warmStarts s n = false) :
    warmUpStart n s = s := if_neg (by rcases held with h | h | h <;> simp [h])

/-- The interval before the next automatic run is over. -/
def intervalOver (n : LaneId) (s : State) : State := setWarm n (fun w => { w with retryAt := none }) s

theorem exec_warmUpRetry_due {k : Nat} (set : (laneAt s n).warm.retryAt = some k) (due : k ≤ s.ticks) :
    exec (.warmUpRetry n) s = .next (warmUpStart n (intervalOver n s)) := by
  show execWarmUpRetry n s = _
  unfold execWarmUpRetry
  rw [set]
  exact if_pos due

theorem exec_warmUpRetry_waits
    (waits : (laneAt s n).warm.retryAt = none ∨ ∃ k, (laneAt s n).warm.retryAt = some k ∧ s.ticks < k) :
    exec (.warmUpRetry n) s = .next s := by
  show execWarmUpRetry n s = _
  unfold execWarmUpRetry
  rcases waits with unset | ⟨k, set, early⟩
  · rw [unset]
  · rw [set]
    exact if_neg (Nat.not_le.mpr early)

/-- Once the interval is over, a baseline that is due starts a run of every part. -/
theorem warm_retry (up : readyUp (laneAt s n).life.st = true) (rests : (laneAt s n).warm.running = false)
    (unasked : (laneAt s n).warm.asked = 0) (free : (laneAt s n).warm.autoStopped = false) (due : (laneAt s n).warm.baseline = true) :
    (laneAt (warmUpStart n (intervalOver n s)) n).warm =
      partBegun 1 [2, 3, 4, 5, 6] s.ticks (runBegun { (laneAt s n).warm with retryAt := none }) := by
  have waited : (laneAt (intervalOver n s) n).warm = { (laneAt s n).warm with retryAt := none } := warm_setWarm
  have starts : warmStarts (intervalOver n s) n = true := by simp [warmStarts, waited, free, due]
  rw [warm_warmUpStart (by rw [intervalOver, life_setWarm, up]) (by rw [waited, rests]) starts
    (by rw [waited, partsAsked, if_pos unasked]) (by decide), waited]
  rfl

/-! ### WRITE_POWER takes a boundary (R517) -/

theorem exec_opcWaitExpire : exec (.opcWaitExpire n) s = .next (opcHold n s) := rfl

theorem opcHold_rests (rests : (laneAt s n).warm.running = false ∨ (laneAt s n).warm.opcWaiting = false) : opcHold n s = s :=
  if_neg (by rcases rests with h | h <;> simp [h])

/-- WRITE_POWER that has waited its time holds the lane at the boundary and orders it to the test units of its layer. -/
theorem opcHold_waited (running : (laneAt s n).warm.running = true) (waiting : (laneAt s n).warm.opcWaiting = true)
    (boundary : atExtentBoundary (laneAt s n) = true)
    (late : passed s (laneAt s n).warm.started (msTicks (lcfg s n 0xC0 5)) = true) (disc : (laneAt s n).disc = some d) :
    opcHold n s = orderTo n (opcLayer s n) (testPlace (firstUnit d (opcLayer s n))).1 (enter n .holding (setWarm n (fun w => { w with
      opcWaiting := false, testPass := some (opcLayer s n, firstUnit d (opcLayer s n))
      backTo := some ((laneAt s n).life.layer.getD (laneAt s n).life.targetLayer,
        (laneAt s n).life.band.getD (laneAt s n).life.targetBand) }) s)) := by
  unfold opcHold
  dsimp only
  rw [if_pos (by rw [running, waiting, boundary, late, Bool.or_true]; rfl), disc]

@[simp] theorem warm_orderTo {band : Nat} : (laneAt (orderTo n layer band s) n).warm = (laneAt s n).warm :=
  (lk_orderTo (List.Subset.refl _) (.refl n _ s)).part (x := .warm) (by decide)

@[simp] theorem warm_enter {x : LaneState} : (laneAt (enter n x s) n).warm = (laneAt s n).warm :=
  (lk_enter (List.Subset.refl _) (.refl n _ s)).part (x := .warm) (by decide)

theorem life_orderTo {band : Nat} : (laneAt (orderTo n layer band s) n).life =
    { (laneAt s n).life with targetLayer := layer, targetBand := band } := by
  unfold orderTo
  rw [laneAt_setLane]

theorem rd_orderTo {band : Nat} : (laneAt (orderTo n layer band s) n).rd = (laneAt s n).rd :=
  (lk_orderTo (List.Subset.refl _) (.refl n _ s)).part (x := .rd) (by decide)

theorem rd_enter {x : LaneState} : (laneAt (enter n x s) n).rd = (laneAt s n).rd :=
  (lk_enter (List.Subset.refl _) (.refl n _ s)).part (x := .rd) (by decide)

/-! ### Parts end with their measurement (R513 to R516, R520) -/

theorem exec_warmUpPartEnd : exec (.warmUpPartEnd n samples) s = .next (warmUpPartEnd n samples s) := rfl

/-- The values that DETECTOR gives its indices (R513). -/
def detectorTrims (w : WarmUp) (samples : List (List Int)) : List (Nat × Int) :=
  (upTo 8).map (fun j => (16 + j, w.trims.getD (16 + j) 0 - roundDiv (sumInt (detectorCodes samples j)) 1024))

/-- The detectors' trims once the values of DETECTOR are put. -/
theorem getD_detectorTrims {w : WarmUp} (whole : w.trims.length = 32) (i : Nat) :
    (trimsPut (detectorTrims w samples) w.trims).getD i 0 = if 16 ≤ i ∧ i < 24 then
      w.trims.getD i 0 - roundDiv (sumInt (detectorCodes samples (i - 16))) 1024 else w.trims.getD i 0 := by
  rw [List.getD_eq_getElem?_getD, detectorTrims, getElem?_trimsPut (by rw [whole]; decide)]
  by_cases own : 16 ≤ i ∧ i < 24
  · rw [if_pos own, if_pos own, Option.getD_some, Nat.add_sub_cancel' own.1]
  · rw [if_neg own, if_neg own, ← List.getD_eq_getElem?_getD]

section
variable (detecting : (laneAt s n).warm.detecting = true) (all : samples.length = 1024)
include detecting all

theorem warmUpPartEnd_detector : warmUpPartEnd n samples s = detectorEnd n samples s := by
  unfold warmUpPartEnd
  exact (if_pos detecting).trans (if_pos all)

/-- DETECTOR with a spread too wide: its trims stay, and event 1602 is raised (R520). -/
theorem warmUpPartEnd_detector_spread (wide : (upTo 8).all (fun j => decide (spread (detectorCodes samples j) ≤ 256)) = false) :
    (laneAt (warmUpPartEnd n samples s) n).warm = { (laneAt s n).warm with
      detecting := false, detectorPending := false, results := (laneAt s n).warm.results.set 0 4 } ∧
    lastEvent (warmUpPartEnd n samples s) = some (0x1602, evData [.u8 n.val, .u8 0, .u8 4]) := by
  have ended : detectorEnd n samples s =
      partResult n 0 4 (setWarm n (fun w => { w with detecting := false, detectorPending := false }) s) := by
    unfold detectorEnd
    rw [wide]
    rfl
  rw [warmUpPartEnd_detector detecting all, ended, warm_partResult_failed (by decide), warm_setWarm,
    lastEvent_partResult_failed (by decide)]
  exact ⟨by simp, rfl⟩

/-- DETECTOR within its limits: its values are the trims (R513). -/
theorem warmUpPartEnd_detector_passed (narrow : (upTo 8).all (fun j => decide (spread (detectorCodes samples j) ≤ 256)) = true)
    (within : judgeTrims s n (detectorTrims (laneAt s n).warm samples) = 1) :
    Retaken { (laneAt s n).warm with
        trims := trimsPut (detectorTrims (laneAt s n).warm samples) (laneAt s n).warm.trims
        detecting := false, detectorPending := false, results := (laneAt s n).warm.results.set 0 1 }
      (laneAt (warmUpPartEnd n samples s) n).warm := by
  have ended : detectorEnd n samples s = partResult n 0 1 (setWarm n (fun w => { w with detecting := false, detectorPending := false })
      (putTrims n (detectorTrims (laneAt s n).warm samples) s)) := by
    unfold detectorEnd
    rw [narrow]
    change partResult n 0 (judgeTrims s n (detectorTrims (laneAt s n).warm samples)) (setWarm n _
      (if judgeTrims s n (detectorTrims (laneAt s n).warm samples) = 1 then _ else _)) = _
    rw [within]
    rfl
  obtain ⟨f, k, put⟩ := retaken_putTrims (s := s) (n := n) (vals := detectorTrims (laneAt s n).warm samples)
  rw [warmUpPartEnd_detector detecting all, ended, warm_partResult_passed, warm_setWarm, put]
  exact ⟨f, k, rfl⟩

end

theorem settlePart_fails : settlePart n false vals s = endPart n 4 s := rfl

theorem settlePart_passes (within : judgeTrims s n vals = 1) : settlePart n true vals s = endPart n 1 (putTrims n vals s) := by
  unfold settlePart
  simp only [within, if_true]

/-- A part that passes puts its values before the next part begins. -/
theorem warm_settlePart_passes (within : judgeTrims s n vals = 1) (todo : (laneAt s n).warm.todo = p :: rest) (inLine : p ≠ 6) :
    ∃ f k, (laneAt (settlePart n true vals s) n).warm = partBegun p rest s.ticks { (laneAt s n).warm with
      trims := trimsPut vals (laneAt s n).warm.trims, inForce := f, settle := k
      results := (laneAt s n).warm.results.set (laneAt s n).warm.part 1 } := by
  obtain ⟨f, k, put⟩ := retaken_putTrims (s := s) (n := n) (vals := vals)
  have ticks : (putTrims n vals s).ticks = s.ticks := (keeps_putTrims (List.Subset.refl _) (.refl _ s)).ticks
  refine ⟨f, k, ?_⟩
  rw [settlePart_passes within, warm_endPart_passed (by rw [put]; exact todo) inLine, put, ticks]

section
variable (apart : (laneAt s n).warm.detecting = false)
include apart

theorem warmUpPartEnd_rests
    (rests : (laneAt s n).warm.running = false ∨ (laneAt s n).warm.frames < partFrames (laneAt s n).warm.part) :
    warmUpPartEnd n samples s = s := by
  unfold warmUpPartEnd
  refine (if_neg (ne_true_of_eq_false apart)).trans (if_neg fun counted => ?_)
  rcases rests with still | few
  · exact absurd counted.1 (ne_true_of_eq_false still)
  · exact absurd counted.2 (Nat.not_le.mpr few)

variable (running : (laneAt s n).warm.running = true)
include running

/-- A measurement whose frames are counted is judged by its part. -/
theorem warmUpPartEnd_counted (frames : partFrames (laneAt s n).warm.part ≤ (laneAt s n).warm.frames) : warmUpPartEnd n samples s =
    if (laneAt s n).warm.part = 1 then settlePart n (rfQuality (laneAt s n).warm) (rfValues (laneAt s n)) s
    else if (laneAt s n).warm.part = 2 then settlePart n true [(25, trackingValue s n)] s
    else if (laneAt s n).warm.part ≤ 5 then probeEnd n s
    else settlePart n (decide ((laneAt s n).warm.q.length = 4)) ((upTo 4).map (fun k => (28 + k, (laneAt s n).warm.q.getD k 0))) s := by
  unfold warmUpPartEnd
  exact (if_neg (ne_true_of_eq_false apart)).trans (if_pos ⟨running, frames⟩)

theorem warmUpPartEnd_rf (part : (laneAt s n).warm.part = 1) (frames : 64 ≤ (laneAt s n).warm.frames) :
    warmUpPartEnd n samples s = settlePart n (rfQuality (laneAt s n).warm) (rfValues (laneAt s n)) s := by
  rw [warmUpPartEnd_counted apart running (by rw [part]; exact frames), if_pos part]

theorem warmUpPartEnd_tracking (part : (laneAt s n).warm.part = 2) (frames : 64 ≤ (laneAt s n).warm.frames) :
    warmUpPartEnd n samples s = settlePart n true [(25, trackingValue s n)] s := by
  rw [warmUpPartEnd_counted apart running (by rw [part]; exact frames), if_neg (by omega), if_pos part]

/-- A probe level but the last: its sum is kept, and the next level begins (R516). -/
theorem warm_warmUpPartEnd_level (low : 3 ≤ (laneAt s n).warm.part) (high : (laneAt s n).warm.part ≤ 5)
    (frames : 8 ≤ (laneAt s n).warm.frames) (level : (laneAt s n).warm.probe < 2) :
    (laneAt (warmUpPartEnd n samples s) n).warm = { (laneAt s n).warm with
      q := (laneAt s n).warm.q ++ [(laneAt s n).warm.sums.getD 0 0], probe := (laneAt s n).warm.probe + 1, frames := 0 } := by
  have count : partFrames (laneAt s n).warm.part = 8 := by rw [partFrames, if_neg (by omega), if_pos high]
  rw [warmUpPartEnd_counted apart running (by rw [count]; exact frames), if_neg (by omega), if_neg (by omega), if_pos high, probeEnd]
  exact (congrArg (fun t => (laneAt t n).warm) (if_pos level)).trans warm_setWarm

end

/-! ### Parts that time out (R512) -/

theorem exec_warmUpPartTimeout_early (early : passed s (laneAt s n).warm.started (msTicks (lcfg s n 0xC0 8)) = false) :
    exec (.warmUpPartTimeout n) s = .next s := if_neg (by simp [early])

theorem exec_warmUpPartTimeout_late (running : (laneAt s n).warm.running = true) (low : 1 ≤ (laneAt s n).warm.part)
    (high : (laneAt s n).warm.part ≤ 5) (few : (laneAt s n).warm.frames < partFrames (laneAt s n).warm.part)
    (late : passed s (laneAt s n).warm.started (msTicks (lcfg s n 0xC0 8)) = true) :
    exec (.warmUpPartTimeout n) s = .next (endPart n 5 s) := if_pos ⟨running, low, high, few, late⟩

/-! ### Warm-up reads (R512) -/

theorem exec_warmUpRead : exec (.warmUpRead n) s = .next (warmUpRead n s) := rfl

theorem warmUpRead_rests (rests : (laneAt s n).warm.running = false ∨ atExtentBoundary (laneAt s n) = false) : warmUpRead n s = s :=
  if_neg (by rcases rests with h | h <;> simp [h])

/-- The part in progress waits for frames, and for 100 ms no extent has been read. -/
def warmReadDue (s : State) (n : LaneId) : Prop :=
  (laneAt s n).warm.running = true ∧ 1 ≤ (laneAt s n).warm.part ∧ (laneAt s n).warm.part ≤ 5 ∧
    atExtentBoundary (laneAt s n) = true ∧ passed s (max (laneAt s n).life.idle (laneAt s n).warm.started) (msTicks 100) = true

/-- The lead-in read of a layer begun on a held lane. -/
def leadInHeld (n : LaneId) (layer : Nat) (s : State) : State :=
  frameBegins n (idleChannels n (setLane n (fun l => { l with rd := { l.rd with jobs := leadJobs layer } }) (enter n .holding s)))

theorem lane_leadInHeld : (laneAt (leadInHeld n layer s) n).life.st = .holding ∧
    (laneAt (leadInHeld n layer s) n).rd.jobs = leadJobs layer := by
  unfold leadInHeld
  constructor
  · refine ((lk_frameBegins (List.Subset.refl _) (.refl n _ _)).part (x := .st) (by decide)).trans ?_
    rw [idleChannels, laneAt_setLane, laneAt_setLane]
    exact st_enter
  · rw [jobs_frameBegins, idleChannels, laneAt_setLane, laneAt_setLane]

section
variable (due : warmReadDue s n) (disc : (laneAt s n).disc = some d) (focused : (laneAt s n).life.layer = some layer)
  (blank : nearestRecorded d layer ((laneAt s n).life.band.getD 0) = none)
include due disc focused blank

/-- On a layer that holds no slot the lead-in is read, where the lane stands at it. -/
theorem warmUpRead_leadIn : warmUpRead n s =
    if standsAt (laneAt s n) 220 = false then orderTo n layer 220 (enter n .holding s)
    else if readable s n = true then leadInHeld n layer s
    else enter n .holding s := by
  unfold warmUpRead
  refine (if_pos due).trans ?_
  rw [disc, focused]
  dsimp only
  rw [blank]
  simp [leadInHeld]

theorem warmUpRead_away (away : standsAt (laneAt s n) 220 = false) : warmUpRead n s = orderTo n layer 220 (enter n .holding s) :=
  (warmUpRead_leadIn due disc focused blank).trans (if_pos away)

theorem warmUpRead_there (there : standsAt (laneAt s n) 220 = true) (turns : readable s n = true) : warmUpRead n s = leadInHeld n layer s :=
  (warmUpRead_leadIn due disc focused blank).trans ((if_neg (by simp [there])).trans (if_pos turns))

end

end Sys2Proof.Machine
end

section
/-! PROOFS. Passes of WRITE_POWER in the test zone, the entries of warm-ups, and the statement on them (R509, R517, R518, R525, R527). -/

namespace Sys2Proof.Machine

variable {s : State} {n : LaneId} {layer u0 : Nat} {d : Disc} {beta : List (List Int)} {diffs : List (List Nat)} {who : Who} {v : Bytes}
  {reply : Reply} {ph : Bool}

/-! ### The visit of the test zone (R517, R518) -/

theorem exec_writePowerPass : exec (.writePowerPass n beta diffs) s = .next (writePowerPass n beta diffs s) := rfl

theorem writePowerPass_rests (rests : (laneAt s n).warm.testPass = none) : writePowerPass n beta diffs s = s := by
  unfold writePowerPass
  rw [rests]

/-- A lane that stands at its test units, no faster than its disc is written, makes its visit and is ordered back. -/
theorem writePowerPass_visits (pass : (laneAt s n).warm.testPass = some (layer, u0)) (disc : (laneAt s n).disc = some d)
    (running : (laneAt s n).warm.running = true) (part : (laneAt s n).warm.part = 6) (holds : (laneAt s n).life.st = .holding)
    (takes : testable d = true) (may : mayRecord s n = true) (slow : (laneAt s n).pace.v ≤ max 2496 (mediaVelocity (laneAt s n)))
    (framed : framedAt (laneAt s n).wr layer (testPlace u0).1 (testPlace u0).2.2 3 = true) : writePowerPass n beta diffs s =
      opcReturned n (orderTo n ((laneAt s n).warm.backTo.getD (layer, (testPlace u0).1)).1
        ((laneAt s n).warm.backTo.getD (layer, (testPlace u0).1)).2 (testVisit n layer u0 beta diffs s)) := by
  unfold writePowerPass
  rw [pass, disc]
  dsimp only
  rw [if_pos holds, slowForWrite_slow slow]
  exact if_pos ⟨running, part, holds, takes, may, framed⟩

/-- The factors that a visit gives (R518). -/
def visitFactors (s : State) (n : LaneId) (beta : List (List Int)) (diffs : List (List Nat)) : List Int :=
  (upTo 4).filterMap (fun k => opcFactor (lcfgInt s n 0xC4 2) ((laneAt s n).warm.trims.getD (28 + k) 0)
    (lcfg s n 0x40 1) (beta.getD k []) (diffs.getD k []))

/-- The sixteen test frames of a visit played, in an open session with the strategies of the layer. -/
def framesPlayed (n : LaneId) (layer u0 : Nat) (s : State) : State :=
  let s1 := loadStrategies n layer (passBegins n (beginSession n s))
  (upTo 16).foldl (fun a j => testFrame n (((laneAt s1 n).disc).getD Disc.fresh) layer u0 j a) s1

/-- A disc after a visit that began at a test unit. -/
def Disc.unitsUsed (layer u0 : Nat) (d : Disc) : Disc :=
  { d with testUnit := d.testUnit.set (Fin.ofNat 8 layer) (u0 + 4), sessionSectors := d.sessionSectors + 64 }

/-- A visit plays its frames, uses its units, which are counted, and keeps the factors for the end of the part. -/
theorem testVisit_eq : ∃ k, testVisit n layer u0 beta diffs s =
    setWarm n (fun w => { w with q := visitFactors s n beta diffs, frames := 16, testPass := none })
      (lbump n 0xE7 3 0 k (setDisc n (Disc.unitsUsed layer u0) (framesPlayed n layer u0 s))) := ⟨_, rfl⟩

theorem warm_testVisit : ∃ w : WarmUp, (laneAt (testVisit n layer u0 beta diffs s) n).warm =
    { w with q := visitFactors s n beta diffs, frames := 16, testPass := none } := by
  obtain ⟨k, visited⟩ := testVisit_eq (n := n) (layer := layer) (u0 := u0) (beta := beta) (diffs := diffs) (s := s)
  rw [visited, warm_setWarm]
  exact ⟨_, rfl⟩

theorem lk_framesPlayed : LK n [.wr, .rd, .warm, .plife] (beginSession n s) (framesPlayed n layer u0 s) :=
  LK.foldl _ _ _ (fun _ _ => lk_testFrame (by decide))
    (lk_loadStrategies (by decide) (lk_passBegins (by decide) (.refl n _ _)))

theorem disc_setWarm {f : WarmUp → WarmUp} : (laneAt (setWarm n f s) n).disc = (laneAt s n).disc := by
  unfold setWarm
  rw [laneAt_setLane]

/-- A visit uses four test units of the disc that is there. -/
theorem testUnit_testVisit (disc : (laneAt s n).disc = some d) :
    (laneAt (testVisit n layer u0 beta diffs s) n).disc.map (fun x => x.testUnit[Fin.ofNat 8 layer]) = some (u0 + 4) := by
  obtain ⟨k, visited⟩ := testVisit_eq (n := n) (layer := layer) (u0 := u0) (beta := beta) (diffs := diffs) (s := s)
  have begun : ∃ x, (laneAt (beginSession n s) n).disc = some x := by
    unfold beginSession
    rw [disc_setDisc, disc]
    exact ⟨_, rfl⟩
  obtain ⟨x, begun⟩ := begun
  rw [visited, disc_setWarm, laneAt_lbump, disc_setDisc, lk_framesPlayed.part (x := .disc) (by decide), begun]
  simp [Disc.unitsUsed]

/-! ### The return (R517 step 6) -/

theorem targets_leaveHold : (laneAt (leaveHold n s) n).life.targetLayer = (laneAt s n).life.targetLayer ∧
    (laneAt (leaveHold n s) n).life.targetBand = (laneAt s n).life.targetBand := by
  unfold leaveHold
  split
  · obtain ⟨p, c, entered⟩ := lane_enter n .ready (setLane n (fun l => { l with life := { l.life with idle := s.ticks } }) s)
    rw [entered, laneAt_setLane]
    exact ⟨rfl, rfl⟩
  · exact ⟨rfl, rfl⟩

/-- A lane that has returned forgets where it came from; its target and the rest of its warm-up stand. -/
theorem lane_opcReturned : (∃ b, (laneAt (opcReturned n s) n).warm = { (laneAt s n).warm with backTo := b }) ∧
    (laneAt (opcReturned n s) n).life.targetLayer = (laneAt s n).life.targetLayer ∧
    (laneAt (opcReturned n s) n).life.targetBand = (laneAt s n).life.targetBand := by
  unfold opcReturned
  dsimp only
  split
  · split
    · rw [warm_leaveHold, warm_setWarm, targets_leaveHold.1, targets_leaveHold.2, life_setWarm]
      exact ⟨⟨_, rfl⟩, rfl, rfl⟩
    · exact ⟨⟨_, rfl⟩, rfl, rfl⟩
  · exact ⟨⟨_, rfl⟩, rfl, rfl⟩

theorem lk_orderedBack {band : Nat} : LK n [.st, .life, .wr, .warm] s (opcReturned n (orderTo n layer band s)) :=
  lk_opcReturned (by decide) (lk_orderTo (by decide) (.refl n _ s))

/-! ### START_WARM_UP (R509) -/

theorem exec_startWarmUp : exec (.startWarmUp who n v) s = .next (putEntry who (laneIdx n 0xC0) 1 v s) := rfl

theorem applyWrite_startWarm : applyWrite reply ph ⟨laneIdx n 0xC0, 1, v⟩ s = startWarmEffect n v s := by
  rw [applyWrite_laneIdx (by decide)]
  simp [applyLane]

/-- A warm-up with the parts of a mask asked for. -/
def warmAsked (m : Nat) (w : WarmUp) : WarmUp :=
  { w with
    asked := m - m % 2, detectorPending := w.detectorPending || bit m 0
    failures := if w.autoStopped then 0 else w.failures, autoStopped := false }

theorem startWarmEffect_asked (rests : (laneAt s n).warm.running = false) (may : fromLE v = 1 ∨ readyUp (laneAt s n).life.st = true) :
    startWarmEffect n v s = .ok (setWarm n (warmAsked (fromLE v)) s) := by
  unfold startWarmEffect
  refine (if_neg (ne_true_of_eq_false rests)).trans (if_neg ?_)
  rcases may with h | h <;> simp [h]

theorem startWarmEffect_refused
    (bars : (laneAt s n).warm.running = true ∨ (fromLE v ≠ 1 ∧ readyUp (laneAt s n).life.st = false)) :
    startWarmEffect n v s = .error (if (laneAt s n).warm.running then 0x0501 else 0x0401) := by
  unfold startWarmEffect
  dsimp only
  split
  next => rfl
  next rests => exact if_pos (by simpa [rests] using bars)

theorem putEntry_startWarm (passes : writePasses s who (laneIdx n 0xC0) 1 v = true) (alone : needsAck s = false)
    (rests : (laneAt s n).warm.running = false) (may : fromLE v = 1 ∨ readyUp (laneAt s n).life.st = true) :
    putEntry who (laneIdx n 0xC0) 1 v s =
      send (.answer who (laneIdx n 0xC0) 1 0) (countChange (laneIdx n 0xC0) 1 (setWarm n (warmAsked (fromLE v)) s)) :=
  putEntry_lanes (laneIdx_bounds (by decide)).1 passes alone
    (fun _ => applyWrite_startWarm.trans (startWarmEffect_asked rests may)) (lanesAlone_setLane rfl)

theorem putEntry_startWarm_refused (passes : writePasses s who (laneIdx n 0xC0) 1 v = true)
    (bars : (laneAt s n).warm.running = true ∨ (fromLE v ≠ 1 ∧ readyUp (laneAt s n).life.st = false)) :
    putEntry who (laneIdx n 0xC0) 1 v s =
      send (.answer who (laneIdx n 0xC0) 1 (if (laneAt s n).warm.running then 0x0501 else 0x0401)) s :=
  putEntry_denied (laneIdx_bounds (by decide)).1 passes (fun _ => applyWrite_startWarm.trans (startWarmEffect_refused bars))

/-! ### TRIM_SET_RESTORE (R526, R527) -/

theorem exec_trimSetRestore : exec (.trimSetRestore who n v) s = .next (putEntry who (laneIdx n 0xC1) 1 v s) := rfl

theorem applyWrite_trimRestore : applyWrite reply ph ⟨laneIdx n 0xC1, 1, v⟩ s = trimRestoreEffect n v s := by
  rw [applyWrite_laneIdx (by decide)]
  simp [applyLane]

/-- The indices and values of a trim set. -/
def trimSetValues (v : Bytes) : List (Nat × Int) := (upTo 32).map (fun i => (i, (trimWords v).getD i 0))

/-- A warm-up accepted as a trim set records it. -/
def setAccepted (v : Bytes) (w : WarmUp) : WarmUp :=
  { w with
    refTemp := fromLEInt (slice v 64 2), accepted := field v 72 8, baseline := false, failures := 0, retryAt := none
    autoStopped := false }

/-- A trim set in force on a lane, with event 1601. -/
def trimSetRestored (n : LaneId) (v : Bytes) (s : State) : State :=
  raise 0x1601 [.u8 n.val, .u16 0, .s32 (laneAt s n).life.temp] (setWarm n (setAccepted v) (putTrims n (trimSetValues v) s))

section
variable (zeros : (slice v 66 6).any (fun b => decide (b ≠ 0)) = false)
include zeros

theorem trimRestoreEffect_outside (outside : (upTo 32).any
      (fun i => decide (windowOf s n i < ((trimWords v).getD i 0 - (laneAt s n).warm.factory.getD i 0).natAbs)) = true) :
    trimRestoreEffect n v s = .error 0x0301 := (if_neg (ne_true_of_eq_false zeros)).trans (if_pos outside)

theorem trimRestoreEffect_within (within : (upTo 32).any
      (fun i => decide (windowOf s n i < ((trimWords v).getD i 0 - (laneAt s n).warm.factory.getD i 0).natAbs)) = false)
    (rests : (laneAt s n).warm.running = false) (still : (laneAt s n).warm.detecting = false) :
    trimRestoreEffect n v s = .ok (trimSetRestored n v s) := by
  unfold trimRestoreEffect
  exact (if_neg (ne_true_of_eq_false zeros)).trans
    ((if_neg (ne_true_of_eq_false within)).trans (if_neg (by simp [rests, still])))

end

theorem lk_trimSetRestored : LK n [.rd, .warm] s (trimSetRestored n v s) :=
  .keep (keeps_raise (List.Subset.refl _) (.refl _ _)) (by decide) (lk_setWarm (by decide) (lk_putTrims (by decide) (.refl n _ s)))

theorem keeps_trimSetRestored : Keeps [.sent, .dict, .log, .life, .alert, .lanes] s (trimSetRestored n v s) :=
  keeps_raise (by decide) (keeps_setWarm (by decide) (keeps_putTrims (by decide) (.refl _ s)))

theorem stored_trimSetRestored {i j : Nat} : stored (trimSetRestored n v s) i j = stored s i j := by
  refine stored_congr (keeps_trimSetRestored.frame .reg (by decide)) (fun m => ?_) i j
  by_cases own : m = n
  · rw [own, lk_trimSetRestored.life (by decide) (by decide)]
  · exact congrArg (fun l => l.life.pickup) (lk_trimSetRestored.others m own)

theorem needsAck_trimSetRestored : needsAck (trimSetRestored n v s) = needsAck s := by
  have pair : (trimSetRestored n v s).pair = s.pair := keeps_trimSetRestored.frame .pair (by decide)
  simp only [needsAck, batonUp, pair]

theorem putEntry_trimRestore (passes : writePasses s who (laneIdx n 0xC1) 1 v = true) (alone : needsAck s = false)
    (effect : trimRestoreEffect n v s = .ok (trimSetRestored n v s)) : putEntry who (laneIdx n 0xC1) 1 v s =
      send (.answer who (laneIdx n 0xC1) 1 0) (countChange (laneIdx n 0xC1) 1 (trimSetRestored n v s)) := by
  refine putEntry_effect (laneIdx_bounds (by decide)).1 passes (needsAck_trimSetRestored.trans alone)
    (fun _ => applyWrite_trimRestore.trans effect) (fun i j => ?_) (keeps_trimSetRestored.frame .mem (by decide))
  by_cases own : regKey (laneIdx n 0xC1) 1 = regKey i j
  · simp only [stored, store, mapGet_mapSet, own, if_true]
  · rw [stored_store_of_ne own, stored_store_of_ne own, stored_trimSetRestored]

/-- A whole trim set put leaves nothing of the trims before it. -/
theorem trimsPut_trimSetValues {trims : List Int} (whole : trims.length = 32) : trimsPut (trimSetValues v) trims = trimWords v := by
  have words : (trimWords v).length = 32 := by simp [trimWords, upTo]
  have put := getElem?_trimsPut (first := 0) (count := 32) (f := fun i => (trimWords v).getD i 0) (trims := trims) (by omega)
  simp only [Nat.zero_add, Nat.zero_le, true_and, Nat.sub_zero] at put
  refine List.ext_getElem? fun i => (put i).trans ?_
  split
  next small => simp [List.getD_eq_getElem?_getD, List.getElem?_eq_getElem (words ▸ small : i < (trimWords v).length)]
  next large => rw [List.getElem?_eq_none (by omega), List.getElem?_eq_none (by omega)]

theorem warm_trimSetRestored (whole : (laneAt s n).warm.trims.length = 32) :
    Retaken { setAccepted v (laneAt s n).warm with trims := trimWords v } (laneAt (trimSetRestored n v s) n).warm := by
  obtain ⟨f, k, put⟩ := retaken_putTrims (s := s) (n := n) (vals := trimSetValues v)
  rw [trimSetRestored, laneAt_raise, warm_setWarm, put, trimsPut_trimSetValues whole]
  exact ⟨f, k, rfl⟩

/-- Settles O41, one lemma to a clause: what is asked for, a run and its retry, the wait of WRITE_POWER, a trim set; the warm-up read; each
part's end by its measurement or its time; the visit of the test zone. -/
theorem warmUpsRunAndEnd : Obligations.WarmUpsRunAndEnd := by
  unfold Obligations.WarmUpsRunAndEnd
  refine ⟨?asked, ?refused, ?starts, ?startRests, ?retries, ?retryWaits, ?holds, ?holdRests, ?restored, ?outside, ?readsThere, ?readsAway,
    ?readRests, ?spread, ?detector, ?rf, ?tracking, ?level, ?endRests, ?late, ?early, ?visits, ?visitRests⟩
  case asked =>
    intro who n v s passes alone rests may
    refine ⟨_, exec_startWarmUp, ?_⟩
    rw [putEntry_startWarm passes alone rests may, laneAt_send, laneAt_countChange, warm_setWarm]
    exact ⟨rfl, rfl, rfl, rfl, rfl⟩
  case refused =>
    intro who n v s passes bars
    exact exec_startWarmUp.trans (congrArg _ (putEntry_startWarm_refused passes bars))
  case starts =>
    intro n p rest s up rests starts parts inLine
    refine ⟨_, exec_warmUpStart, ?_⟩
    rw [warm_warmUpStart up rests starts parts inLine]
    exact ⟨rfl, rfl, rfl, rfl, rfl, rfl, rfl⟩
  case startRests =>
    intro n s held
    exact exec_warmUpStart.trans (congrArg _ (warmUpStart_rests held))
  case retries =>
    intro n k s set due up rests unasked free baseline
    refine ⟨_, exec_warmUpRetry_due set due, ?_⟩
    rw [warm_retry up rests unasked free baseline]
    exact ⟨rfl, rfl, rfl, rfl⟩
  case retryWaits =>
    intro n s waits
    exact exec_warmUpRetry_waits waits
  case holds =>
    intro n d s running waiting boundary late disc
    refine ⟨_, exec_opcWaitExpire, ?_⟩
    rw [opcHold_waited running waiting boundary late disc, life_orderTo, warm_orderTo, warm_enter, warm_setWarm]
    exact ⟨st_enter, rfl, rfl, rfl, rfl⟩
  case holdRests =>
    intro n s rests
    exact exec_opcWaitExpire.trans (congrArg _ (opcHold_rests rests))
  case restored =>
    intro who n v s passes alone zeros within rests still whole
    refine ⟨_, exec_trimSetRestore, ?_⟩
    obtain ⟨f, k, restored⟩ := warm_trimSetRestored (v := v) whole
    rw [putEntry_trimRestore passes alone (trimRestoreEffect_within zeros within rests still), laneAt_send, laneAt_countChange, restored]
    exact ⟨rfl, rfl, rfl, rfl, rfl, rfl⟩
  case outside =>
    intro who n v s passes zeros outside
    exact exec_trimSetRestore.trans (congrArg _ (putEntry_denied (laneIdx_bounds (by decide)).1 passes
      (fun _ => applyWrite_trimRestore.trans (trimRestoreEffect_outside zeros outside))))
  case readsThere =>
    intro n d y s running low high boundary quiet disc focused blank there turns
    refine ⟨_, exec_warmUpRead, ?_⟩
    rw [warmUpRead_there ⟨running, low, high, boundary, quiet⟩ disc focused blank there turns]
    exact lane_leadInHeld
  case readsAway =>
    intro n d y s running low high boundary quiet disc focused blank away
    refine ⟨_, exec_warmUpRead, ?_⟩
    rw [warmUpRead_away ⟨running, low, high, boundary, quiet⟩ disc focused blank away, life_orderTo, rd_orderTo, rd_enter]
    exact ⟨st_enter, rfl, rfl, rfl⟩
  case readRests =>
    intro n s rests
    exact exec_warmUpRead.trans (congrArg _ (warmUpRead_rests rests))
  case spread =>
    intro n m s detecting all wide
    refine ⟨_, exec_warmUpPartEnd, ?_⟩
    obtain ⟨warm, event⟩ := warmUpPartEnd_detector_spread detecting all wide
    rw [warm]
    exact ⟨rfl, rfl, rfl, event⟩
  case detector =>
    intro n m s detecting all narrow whole within
    refine ⟨_, exec_warmUpPartEnd, ?_⟩
    obtain ⟨f, k, warm⟩ := warmUpPartEnd_detector_passed detecting all narrow within
    rw [warm]
    exact ⟨rfl, rfl, fun i => getD_detectorTrims whole i⟩
  case rf =>
    intro n m p rest s apart running part frames poor todo inLine
    refine ⟨_, exec_warmUpPartEnd, ?_⟩
    obtain ⟨warm, event⟩ := endPart_failed (code := 4) todo inLine (by decide) (by omega)
    rw [warmUpPartEnd_rf apart running part frames, poor, settlePart_fails, warm, event, part]
    exact ⟨rfl, rfl, rfl, rfl, rfl, rfl⟩
  case tracking =>
    intro n m p rest s apart running part frames _ within todo inLine
    refine ⟨_, exec_warmUpPartEnd, ?_⟩
    obtain ⟨f, k, warm⟩ := warm_settlePart_passes within todo inLine
    rw [warmUpPartEnd_tracking apart running part frames, warm, part]
    exact ⟨rfl, rfl, rfl, rfl⟩
  case level =>
    intro n m s apart running part frames level
    exact ⟨_, exec_warmUpPartEnd, warm_warmUpPartEnd_level apart running part.1 part.2 frames level⟩
  case endRests =>
    intro n m s apart rests
    exact exec_warmUpPartEnd.trans (congrArg _ (warmUpPartEnd_rests apart rests))
  case late =>
    intro n p rest s running part few late todo inLine
    refine ⟨_, exec_warmUpPartTimeout_late running part.1 part.2 few late, ?_⟩
    obtain ⟨warm, event⟩ := endPart_failed (code := 5) todo inLine (by decide) part.1
    rw [warm, event]
    exact ⟨rfl, rfl, rfl, rfl⟩
  case early =>
    intro n s early
    exact exec_warmUpPartTimeout_early early
  case visits =>
    intro n beta diffs y u0 d s pass disc running part holds takes may slow framed
    refine ⟨_, exec_writePowerPass, ?_⟩
    rw [writePowerPass_visits pass disc running part holds takes may slow framed]
    obtain ⟨w, visited⟩ := warm_testVisit (s := s) (n := n) (layer := y) (u0 := u0) (beta := beta) (diffs := diffs)
    obtain ⟨⟨b, warm⟩, layer, band⟩ := lane_opcReturned (n := n) (s := orderTo n
      ((laneAt s n).warm.backTo.getD (y, (testPlace u0).1)).1 ((laneAt s n).warm.backTo.getD (y, (testPlace u0).1)).2
      (testVisit n y u0 beta diffs s))
    have unit := testUnit_testVisit (layer := y) (u0 := u0) (beta := beta) (diffs := diffs) disc
    rw [warm, layer, band, warm_orderTo, visited, life_orderTo]
    refine ⟨rfl, rfl, ?_, rfl, rfl⟩
    rw [← unit]
    exact congrArg _ (lk_orderedBack.part (x := .disc) (by decide))
  case visitRests =>
    intro n beta diffs s rests
    exact exec_writePowerPass.trans (congrArg _ (writePowerPass_rests rests))

end Sys2Proof.Machine
end

section
/-! PROOFS. Two statements on the host's commands that fail: an abort whose target completes on the admin completion queue (R537, R579),
and a completion that ends a cause of ORDERED mode (R571, R579). -/

namespace Sys2Proof.Machine

/-! ### An abort on a crowded admin completion queue (R537, R579) -/

/-- A Read in flight whose submission queue names completion queue 0, the admin queue's, in which one place is free. -/
def abortCrowded : State :=
  setCtrl 1 (fun k => { k with
      asq := { k.asq with tail := 1 }, acq := { CompQueue.admin 3 with tail := 1 }, sqs := [{ Tests.aSq with cq := 0 }] })
    (Tests.flying Tests.doneRead)

/-- The aborted Read takes the free place, and the Abort's own completion waits for another. -/
theorem abort_crowded_sent : (fetchAdmin Tests.anAdmin (abortCommand (5 + 65536 * 9)) abortCrowded).sent.take 2 =
    [.interrupt 1 0, .completion Tests.anIo 0 7 none 0 0] := by decide

/-- Refutes O43 in its clause on an abort that finds a Read: its completion is not sent where the Read's took the last place of the
admin completion queue. The clause lacks the hypothesis that no I/O submission queue names that queue, which R537 gives of every
queue created: `s.host.ctrls[c.ctrl].sqs.all (fun q => decide (q.cq ≠ 0)) = true`. -/
theorem not_adminQueriesAnswered : ¬ Obligations.AdminQueriesAnswered := by
  rintro ⟨-, -, -, -, -, -, -, abort, -⟩
  obtain ⟨t, ran, -, answer⟩ := abort Tests.anAdmin Tests.doneRead abortCrowded (by decide) rfl rfl rfl rfl (by decide) (by decide) (by decide)
  cases ran
  exact absurd (abort_crowded_sent.symm.trans answer) (by decide)

/-! ### A completion that ends takeover recovery (R571, R579) -/

/-- What is sent is a completion. -/
def Sent.isCompletion : Sent → Bool
  | .completion .. => true
  | _ => false

/-- ORDERED for takeover recovery, of which the last command waits for its completion, while a session takes the events of class 7. -/
def recovering : State :=
  let s := store 0x1121 1 [0x80] (Tests.flying Tests.doneRead)
  { s with host := { s.host with causes := 4 }, dict := { s.dict with sessions := s.dict.sessions.set 0 (some Tests.aSession) } }

/-- COMMAND_COMPLETE of that command. -/
def recovered : State :=
  carriedCheck (settleSilent (tryComplete Tests.anIo (settleDelete Tests.anIo (sendReassembled Tests.anIo (serveZeros Tests.anIo recovering)))))

theorem exec_commandComplete_recovering : exec (.commandComplete Tests.anIo) recovering = .next recovered := rfl

/-- The completion and its interrupt go out before the EVENT frame of the change to NORMAL mode. -/
theorem recovered_sent : (recovered.sent.take 2).any Sent.isCompletion = false := by decide

/-- Refutes O49 in its clause on COMMAND_COMPLETE: the command that ends takeover recovery ends ORDERED mode too, and event 7008 is sent
to a session after the completion, which so is not among the two things sent last. The clause lacks the hypothesis that no recovery
is a cause of ORDERED: `bit s.host.causes 2 = false ∧ bit s.host.causes 3 = false`. -/
theorem not_hostQueuesAndWaits : ¬ Obligations.HostQueuesAndWaits := by
  rintro ⟨-, -, -, -, -, complete, -⟩
  obtain ⟨t, ran, -, posted, -, -⟩ := complete Tests.anIo Tests.doneRead recovering
    (by decide) (by decide) (by decide) rfl rfl rfl rfl rfl rfl rfl rfl rfl
  obtain rfl := Host.Outcome.next.inj (exec_commandComplete_recovering.symm.trans ran)
  exact absurd (List.any_eq_true.mpr ⟨_, posted, rfl⟩) (by rw [recovered_sent]; decide)

end Sys2Proof.Machine
end

section
/-! PROOFS. NVMe admin commands that complete at once: what the command and its completion make of the controller (R566, R579). -/

namespace Sys2Proof.Machine

variable {s u t : State} {c : CmdId} {sct sc dw0 : Nat}

/-! ### A controller served -/

theorem vecModify_vecModify {α : Type} {n : Nat} {v : Vector α n} {i : Fin n} {f g : α → α} :
    vecModify (vecModify v i f) i g = vecModify v i (g ∘ f) := by
  simp [vecModify]

/-- The admin completion queue of a controller has taken an entry and interrupted. -/
def answeredCtrl (k : Controller) : Controller :=
  { k with acq := { k.acq with
      tail := (k.acq.tail + 1) % (if k.acq.size = 0 then 1 else k.acq.size)
      phase := if k.acq.tail + 1 = k.acq.size then !k.acq.phase else k.acq.phase
      waiting := 0 } }

/-- The head of a controller's admin submission queue has advanced. -/
def headMoved (k : Controller) : Controller :=
  { k with asq := { k.asq with head := (k.asq.head + 1) % (if k.asq.size = 0 then 1 else k.asq.size) } }

/-- What the Error Information log of a controller takes of a command that ends with an error. -/
def errorLogged (c : CmdId) (status : Nat) (k : Controller) : Controller :=
  { k with
    errorCount := k.errorCount + 1
    errors := ((k.errorCount + 1, (adminId c).sq, (adminId c).cid, status, 0, 0) :: k.errors).take 64 }

@[simp] theorem sqs_answeredCtrl {k : Controller} : (answeredCtrl k).sqs = k.sqs := rfl
@[simp] theorem cqs_answeredCtrl {k : Controller} : (answeredCtrl k).cqs = k.cqs := rfl
@[simp] theorem feat_answeredCtrl {k : Controller} : (answeredCtrl k).feat = k.feat := rfl
@[simp] theorem deletes_answeredCtrl {k : Controller} : (answeredCtrl k).deletes = k.deletes := rfl

@[simp] theorem sqs_headMoved {k : Controller} : (headMoved k).sqs = k.sqs := rfl
@[simp] theorem cqs_headMoved {k : Controller} : (headMoved k).cqs = k.cqs := rfl
@[simp] theorem feat_headMoved {k : Controller} : (headMoved k).feat = k.feat := rfl
@[simp] theorem deletes_headMoved {k : Controller} : (headMoved k).deletes = k.deletes := rfl

@[simp] theorem sqs_errorLogged {n : Nat} {k : Controller} : (errorLogged c n k).sqs = k.sqs := rfl
@[simp] theorem cqs_errorLogged {n : Nat} {k : Controller} : (errorLogged c n k).cqs = k.cqs := rfl
@[simp] theorem feat_errorLogged {n : Nat} {k : Controller} : (errorLogged c n k).feat = k.feat := rfl
@[simp] theorem deletes_errorLogged {n : Nat} {k : Controller} : (errorLogged c n k).deletes = k.deletes := rfl

theorem ctrls_fetched : (fetched s (adminId c)).host.ctrls = vecModify s.host.ctrls c.ctrl headMoved := rfl

theorem ctrls_setCtrl {p : PortId} {g : Controller → Controller} : (setCtrl p g s).host.ctrls = vecModify s.host.ctrls p g := rfl

theorem ctrl_setCtrl {p : PortId} {g : Controller → Controller} : (setCtrl p g s).host.ctrls[p] = g s.host.ctrls[p] := by
  rw [ctrls_setCtrl, getElem_vecModify, if_pos rfl]

/-! ### Completions on the admin queue -/

/-- The admin completion queue of a command's controller takes an entry at once and interrupts, and no peer has to acknowledge it. -/
structure AdminFree (u : State) (c : CmdId) : Prop where
  alone : needsAck u = false
  room : u.host.ctrls[c.ctrl].acq.full = false ∧ u.host.ctrls[c.ctrl].acq.held.isEmpty = true
  queue : u.host.ctrls[c.ctrl].acq.id = 0 ∧ u.host.ctrls[c.ctrl].acq.vector = 0 ∧ u.host.ctrls[c.ctrl].acq.ien = true

theorem AdminFree.congr (free : AdminFree u c) (acq : t.host.ctrls[c.ctrl].acq = u.host.ctrls[c.ctrl].acq) (pair : t.pair = u.pair) :
    AdminFree t c := by
  obtain ⟨alone, room, queue⟩ := free
  refine ⟨?_, acq ▸ room, acq ▸ queue⟩
  unfold needsAck batonUp at *
  rwa [pair]

theorem AdminFree.setCtrl {g : Controller → Controller} (free : AdminFree u c) (acq : ∀ k, (g k).acq = k.acq) :
    AdminFree (setCtrl c.ctrl g u) c :=
  free.congr (by rw [ctrl_setCtrl, acq]) rfl

theorem adminFree_fetched (ready : adminOpen s c = true) : AdminFree (fetched s (adminId c)) c := by
  have due : AdminDue (taken s c 0).host c := adminDue_taken ready
  rw [host_taken] at due
  obtain ⟨-, -, -, alone, -⟩ := adminOpen_iff.mp ready
  exact ⟨alone, due.room, due.queue⟩

/-- An entry is posted with the admin queue's interrupt. -/
theorem cqPut_admin {e : CqEntry} (free : AdminFree u c) :
    (cqPut c.ctrl 0 e u).sent = .interrupt c.ctrl 0 :: .completion e.c e.sct e.sc e.dnr e.dw0 e.dw1 :: u.sent ∧
      (cqPut c.ctrl 0 e u).host.ctrls = vecModify u.host.ctrls c.ctrl answeredCtrl := by
  obtain ⟨-, ⟨open', empty⟩, id, vector, ien⟩ := free
  have put : cqPut c.ctrl 0 e u = cqTake c.ctrl u.host.ctrls[c.ctrl].acq e u := by
    show (if u.host.ctrls[c.ctrl].acq.full || !u.host.ctrls[c.ctrl].acq.held.isEmpty then _ else _) = _
    rw [open', empty]
    rfl
  have fires : (u.host.ctrls[c.ctrl].acq.ien && (!coalesces u.host.ctrls[c.ctrl].feat u.host.ctrls[c.ctrl].acq ||
      decide (u.host.ctrls[c.ctrl].feat.coalescing % 256 < u.host.ctrls[c.ctrl].acq.waiting + 1))) = true := by
    have plain : coalesces u.host.ctrls[c.ctrl].feat u.host.ctrls[c.ctrl].acq = false := by
      rw [coalesces, id]
      rfl
    rw [ien, plain]
    rfl
  rw [put]
  simp only [cqTake, fires, if_true]
  refine ⟨by rw [vector]; rfl, ?_⟩
  exact congrArg (u.host.ctrls.set c.ctrl · _) (if_pos id)

theorem completeAs_admin (free : AdminFree u c) :
    (completeAs (adminId c) (sct, sc, none) dw0 u).sent = adminAnswer c sct sc dw0 0 ++ u.sent ∧
      (completeAs (adminId c) (sct, sc, none) dw0 u).host.ctrls =
        vecModify (if sct = 0 ∧ sc = 0 then u.host.ctrls else vecModify u.host.ctrls c.ctrl (errorLogged c (256 * sct + sc))) c.ctrl answeredCtrl := by
  have posted : completeAs (adminId c) (sct, sc, none) dw0 u = post (adminId c) sct sc none dw0 0 u :=
    if_neg (by rw [free.alone]; exact Bool.false_ne_true)
  rw [posted]
  unfold post postAt
  split
  · exact cqPut_admin (c := c) free
  · exact cqPut_admin (c := c) (free.setCtrl (g := errorLogged c (256 * sct + sc)) fun _ => rfl)

/-- An admin command done: the completion and the interrupt are what was sent last, and the controller has answered. -/
theorem adminDone_free (free : AdminFree u c) :
    (adminDone (adminId c) dw0 u).sent = adminAnswer c 0 0 dw0 0 ++ u.sent ∧
      (adminDone (adminId c) dw0 u).host.ctrls = vecModify u.host.ctrls c.ctrl answeredCtrl := by
  obtain ⟨sent, ctrls⟩ := completeAs_admin (sct := 0) (sc := 0) (dw0 := dw0) (free.congr (t := admitted u) rfl rfl)
  exact ⟨sent, ctrls⟩

theorem refuse_free (free : AdminFree u c) (bad : ¬(sct = 0 ∧ sc = 0)) :
    (refuse (adminId c) (sct, sc, none) u).sent = adminAnswer c sct sc 0 0 ++ u.sent ∧
      (refuse (adminId c) (sct, sc, none) u).host.ctrls =
        vecModify (vecModify u.host.ctrls c.ctrl (errorLogged c (256 * sct + sc))) c.ctrl answeredCtrl := by
  obtain ⟨sent, ctrls⟩ := completeAs_admin (sct := sct) (sc := sc) (dw0 := 0) (free.congr (t := bump 0x2510 9 1 1 u) rfl rfl)
  rw [if_neg bad] at ctrls
  exact ⟨sent, ctrls⟩

/-! ### Admin commands taken up (R564, R566) -/

/-- A controller of which a submission queue's head has advanced. -/
def queueMoved (a : CmdId) (k : Controller) : Controller :=
  let next (q : SubQueue) : SubQueue := { q with head := (q.head + 1) % (if q.size = 0 then 1 else q.size) }
  if a.sq = 0 then { k with asq := next k.asq } else { k with sqs := k.sqs.map (fun q => if q.id = a.sq then next q else q) }

theorem ctrls_fetched_queue {a : CmdId} : (fetched s a).host.ctrls = vecModify s.host.ctrls a.ctrl (queueMoved a) := rfl

/-- A flight taken up is the last of those in flight; what is sent and the teams stand. -/
theorem host_takeOff {f : Flight} : (takeOff f s).host = { s.host with flights := s.host.flights ++ [{ f with tick := s.ticks }] } := by
  obtain ⟨r, eq⟩ := takeOff_eq (s := s) (f := f)
  rw [eq]

theorem sent_takeOff {f : Flight} : (takeOff f s).sent = s.sent := by
  obtain ⟨r, eq⟩ := takeOff_eq (s := s) (f := f)
  rw [eq]

theorem teams_takeOff {f : Flight} : (takeOff f s).teams = s.teams := by
  obtain ⟨r, eq⟩ := takeOff_eq (s := s) (f := f)
  rw [eq]

/-- A command whose entry carries no mark and whose identifier is free is taken up. -/
theorem fetch_clean {a : CmdId} {k : State → State} (next : canFetch s a = true) (clean : entryPoisoned a s = (false, s))
    (free : busyId s a = false) : fetch a k s = k (fetched s a) := by
  have aers : (fetched s a).host.ctrls[a.ctrl].aers = s.host.ctrls[a.ctrl].aers := by
    rw [ctrls_fetched_queue, getElem_vecModify, if_pos rfl, queueMoved]
    split <;> rfl
  have free' : busyId (fetched s a) a = false := by
    obtain ⟨unseen, unasked⟩ := busyId_eq_false.mp free
    exact busyId_eq_false.mpr ⟨unseen, by rwa [aers]⟩
  simp only [fetch, next, if_true, clean]
  exact if_neg (Bool.eq_false_iff.mp free')

theorem fetchAdmin_open {k : CmdId → State → State} (ready : adminOpen s c = true) :
    fetchAdmin c k s = k (adminId c) (fetched s (adminId c)) := by
  obtain ⟨-, -, awake, -⟩ := adminOpen_iff.mp ready
  exact (fetchAny_open ready).trans (if_neg awake)

/-- A command refused as it is taken up is answered with its status, and the controller logs the error. -/
theorem refuse_fetched (ready : adminOpen s c = true) (bad : ¬(sct = 0 ∧ sc = 0)) :
    (refuse (adminId c) (sct, sc, none) (fetched s (adminId c))).sent.take 2 = adminAnswer c sct sc 0 0 ∧
      (refuse (adminId c) (sct, sc, none) (fetched s (adminId c))).host.ctrls =
        s.host.ctrls.set c.ctrl (answeredCtrl (errorLogged c (256 * sct + sc) (headMoved s.host.ctrls[c.ctrl]))) := by
  obtain ⟨sent, ctrls⟩ := refuse_free (adminFree_fetched ready) bad
  refine ⟨by rw [sent]; rfl, ?_⟩
  rw [ctrls, ctrls_fetched, vecModify_vecModify, vecModify_vecModify]
  rfl

theorem ctrl_refuse_fetched (ready : adminOpen s c = true) (bad : ¬(sct = 0 ∧ sc = 0)) :
    (refuse (adminId c) (sct, sc, none) (fetched s (adminId c))).host.ctrls[c.ctrl] =
      answeredCtrl (errorLogged c (256 * sct + sc) (headMoved s.host.ctrls[c.ctrl])) := by
  rw [(refuse_fetched ready bad).2]
  exact Vector.getElem_set_self _

/-- A command that changes its controller is answered with success. -/
theorem adminDone_fetched {g : Controller → Controller} (ready : adminOpen s c = true) (acq : ∀ k, (g k).acq = k.acq) :
    (adminDone (adminId c) dw0 (setCtrl c.ctrl g (fetched s (adminId c)))).sent.take 2 = adminAnswer c 0 0 dw0 0 ∧
      (adminDone (adminId c) dw0 (setCtrl c.ctrl g (fetched s (adminId c)))).host.ctrls =
        s.host.ctrls.set c.ctrl (answeredCtrl (g (headMoved s.host.ctrls[c.ctrl]))) := by
  obtain ⟨sent, ctrls⟩ := adminDone_free (dw0 := dw0) ((adminFree_fetched ready).setCtrl acq)
  refine ⟨by rw [sent]; rfl, ?_⟩
  rw [ctrls, ctrls_setCtrl, ctrls_fetched, vecModify_vecModify, vecModify_vecModify]
  rfl

theorem ctrl_adminDone_fetched {g : Controller → Controller} (ready : adminOpen s c = true) (acq : ∀ k, (g k).acq = k.acq) :
    (adminDone (adminId c) dw0 (setCtrl c.ctrl g (fetched s (adminId c)))).host.ctrls[c.ctrl] =
      answeredCtrl (g (headMoved s.host.ctrls[c.ctrl])) := by
  rw [(adminDone_fetched ready acq).2]
  exact Vector.getElem_set_self _

end Sys2Proof.Machine
end

section
/-! PROOFS. I/O queues are created and deleted (R537, R539, R585). -/

namespace Sys2Proof.Machine

variable {s u : State} {c : CmdId} {id size vec cls cq dw10 dw11 prp : Nat}

theorem exec_createIoCq : exec (.createIoCq c dw10 dw11 prp) s = .next (fetchAdmin c (createCq dw10 dw11 prp) s) := rfl

theorem exec_createIoSq : exec (.createIoSq c dw10 dw11 prp) s = .next (fetchAdmin c (createSq dw10 dw11 prp) s) := rfl

theorem exec_deleteIoSq : exec (.deleteIoSq c dw10) s = .next (fetchAdmin c (deleteSq dw10) s) := rfl

theorem exec_deleteIoCq : exec (.deleteIoCq c dw10) s = .next (fetchAdmin c (deleteCq dw10) s) := rfl

/-- The I/O queues of a controller stand as its admin queue moves on. -/
theorem sqs_fetched : (fetched s (adminId c)).host.ctrls[c.ctrl].sqs = s.host.ctrls[c.ctrl].sqs := by rw [ctrl_fetched]

theorem cqs_fetched : (fetched s (adminId c)).host.ctrls[c.ctrl].cqs = s.host.ctrls[c.ctrl].cqs := by rw [ctrl_fetched]

theorem deletes_fetched : (fetched s (adminId c)).host.ctrls[c.ctrl].deletes = s.host.ctrls[c.ctrl].deletes := by rw [ctrl_fetched]

/-- Dword 10 of a creation: the identifier and the size, zero based. -/
theorem fields_creation (idOk : 1 ≤ id ∧ id ≤ 64) (sizeOk : 2 ≤ size ∧ size ≤ 4096) :
    (id + 65536 * (size - 1)) % 65536 = id ∧ (id + 65536 * (size - 1)) / 65536 % 65536 + 1 = size := by omega

/-- An identifier that no queue of a list has may be given. -/
theorem id_allowed {α : Type} {name : α → Nat} {l : List α} (idOk : 1 ≤ id ∧ id ≤ 64) (free : l.all (fun q => decide (name q ≠ id)) = true) :
    ¬(id = 0 ∨ 64 < id ∨ l.any (fun q => decide (name q = id)) = true) := by
  rintro (zero | above | used)
  · omega
  · omega
  · obtain ⟨q, mem, same⟩ := List.any_eq_true.mp used
    exact of_decide_eq_true (List.all_eq_true.mp free q mem) (of_decide_eq_true same)

/-! ### Completion queues (R537, R539, R544) -/

/-- A controller with a completion queue more. -/
def cqAdded (id size vec prp : Nat) (k : Controller) : Controller :=
  { k with cqs := k.cqs ++
      [{ id := id, size := size, base := prp, vector := vec, ien := true, head := 0, tail := 0, phase := true, waiting := 0, held := [] }] }

/-- A completion queue of a free identifier and an allowed size is created, but not in a CMB. -/
theorem createCq_allowed (idOk : 1 ≤ id ∧ id ≤ 64) (sizeOk : 2 ≤ size ∧ size ≤ 4096) (vecOk : vec ≤ 64)
    (free : u.host.ctrls[c.ctrl].cqs.all (fun q => decide (q.id ≠ id)) = true) :
    createCq (id + 65536 * (size - 1)) (3 + 65536 * vec) prp (adminId c) u =
      if 2 ^ 63 ≤ prp then refuse (adminId c) (0, 0x12, none) u
      else adminDone (adminId c) 0 (setCtrl c.ctrl (cqAdded id size vec prp) u) := by
  obtain ⟨id_eq, size_eq⟩ := fields_creation idOk sizeOk
  have vec_eq : (3 + 65536 * vec) / 65536 % 65536 = vec := by omega
  have ien : bit (3 + 65536 * vec) 1 = true := by
    unfold bit
    rw [decide_eq_true_eq]
    omega
  unfold createCq
  rw [id_eq, size_eq, vec_eq, ien]
  exact (if_neg (id_allowed idOk free)).trans ((if_neg (by omega)).trans (if_neg (by omega)))

theorem createCq_badId (bad : dw10 % 65536 = 0 ∨ 64 < dw10 % 65536 ∨ u.host.ctrls[c.ctrl].cqs.any (fun q => q.id = dw10 % 65536) = true) :
    createCq dw10 dw11 prp (adminId c) u = refuse (adminId c) (1, 1, none) u := if_pos bad

/-! ### Submission queues (R537, R568) -/

/-- A controller with a submission queue more: its class counts where the weighted arbitration is selected. -/
def sqAdded (id size cls cq prp : Nat) (k : Controller) : Controller :=
  { k with sqs := k.sqs ++
      [{ id := id, size := size, base := prp, cls := if k.wrr then cls else 0, cq := cq, head := 0, tail := 0 }] }

theorem sqs_sqAdded_headMoved {k : Controller} : (sqAdded id size cls cq prp (headMoved k)).sqs = k.sqs ++
    [{ id := id, size := size, base := prp, cls := if k.wrr then cls else 0, cq := cq, head := 0, tail := 0 }] := rfl

/-- Dword 11 of a submission queue's creation: PC, the class and the completion queue. -/
theorem fields_createSq (clsOk : cls < 4) (cqOk : cq < 65536) : bit (1 + 2 * cls + 65536 * cq) 0 = true ∧
    bits (1 + 2 * cls + 65536 * cq) 2 1 = cls ∧ (1 + 2 * cls + 65536 * cq) / 65536 % 65536 = cq := by
  unfold bit bits
  rw [decide_eq_true_eq]
  omega

theorem createSq_allowed (idOk : 1 ≤ id ∧ id ≤ 64) (sizeOk : 2 ≤ size ∧ size ≤ 4096)
    (free : u.host.ctrls[c.ctrl].sqs.all (fun q => decide (q.id ≠ id)) = true)
    (named : u.host.ctrls[c.ctrl].cqs.any (fun q => q.id = cq) = true) (clsOk : cls < 4) (cqOk : cq < 65536) :
    createSq (id + 65536 * (size - 1)) (1 + 2 * cls + 65536 * cq) prp (adminId c) u =
      adminDone (adminId c) 0 (setCtrl c.ctrl (sqAdded id size cls cq prp) u) := by
  obtain ⟨id_eq, size_eq⟩ := fields_creation idOk sizeOk
  obtain ⟨whole, cls_eq, cq_eq⟩ := fields_createSq clsOk cqOk
  unfold createSq
  rw [id_eq, size_eq, cq_eq, cls_eq, whole]
  refine (if_neg (id_allowed idOk free)).trans ((if_neg (by omega)).trans ((if_neg ?_).trans ?_))
  · rw [show u.host.ctrls[(adminId c).ctrl].cqs.any (fun q => q.id = cq) = true from named]
    exact Bool.false_ne_true
  · rfl

theorem createSq_unnamed (idOk : 1 ≤ id ∧ id ≤ 64) (sizeOk : 2 ≤ size ∧ size ≤ 4096)
    (free : u.host.ctrls[c.ctrl].sqs.all (fun q => decide (q.id ≠ id)) = true)
    (absent : u.host.ctrls[c.ctrl].cqs.any (fun q => q.id = dw11 / 65536 % 65536) = false) :
    createSq (id + 65536 * (size - 1)) dw11 prp (adminId c) u = refuse (adminId c) (1, 0, none) u := by
  obtain ⟨id_eq, size_eq⟩ := fields_creation idOk sizeOk
  unfold createSq
  rw [id_eq, size_eq]
  refine (if_neg (id_allowed idOk free)).trans ((if_neg (by omega)).trans (if_pos ?_))
  rw [show u.host.ctrls[(adminId c).ctrl].cqs.any (fun q => q.id = dw11 / 65536 % 65536) = false from absent]
  rfl

/-! ### Deletions (R585) -/

/-- A controller with a deletion pending. -/
def deleteAdded (c : CmdId) (id : Nat) (k : Controller) : Controller := { k with deletes := k.deletes ++ [(adminId c, id)] }

/-- A command of a queue that is deleted: a Read ends, another runs on. -/
def sqLeft (c : CmdId) (id : Nat) (f : Flight) : Flight :=
  if f.c.ctrl = c.ctrl ∧ f.c.sq = id then
    (if f.kind = .read ∧ !f.committing then { f with sqGone := true, status := some (0, 8, none), left := [] } else { f with sqGone := true })
  else f

/-- The deletion of a submission queue without commands goes into flight and stays pending. -/
theorem deleteSq_pending {q : SubQueue} (named : 0 < q.id ∧ q.id < 65536) (sqs : u.host.ctrls[c.ctrl].sqs = [q])
    (deletes : u.host.ctrls[c.ctrl].deletes = []) (flights : u.host.flights = []) :
    deleteSq q.id (adminId c) u = setFlights (fun l => l.map (sqLeft c q.id))
      (takeOff (newFlight (adminId c) u.host.seq (.admin 0 false)) (setCtrl c.ctrl (deleteAdded c q.id) u)) := by
  have id_eq : q.id % 65536 = q.id := Nat.mod_eq_of_lt named.2
  have may : ¬(q.id = 0 ∨ (!u.host.ctrls[c.ctrl].sqs.any fun x => decide (x.id = q.id)) = true ∨
      (u.host.ctrls[c.ctrl].deletes.any fun d => decide (d.2 = q.id)) = true) := by
    rw [sqs, deletes]
    simp
    omega
  unfold deleteSq
  rw [id_eq, flights]
  exact if_neg may

theorem deleteSq_absent (sqs : u.host.ctrls[c.ctrl].sqs = []) : deleteSq dw10 (adminId c) u = refuse (adminId c) (1, 1, none) u := by
  refine if_pos (.inr (.inl ?_))
  rw [show u.host.ctrls[(adminId c).ctrl].sqs = [] from sqs]
  rfl

/-- A controller without the completion queue of an identifier. -/
def cqRemoved (id : Nat) (k : Controller) : Controller := { k with cqs := k.cqs.filter (fun x => decide (x.id ≠ id)) }

theorem deleteCq_named {q : CompQueue} (named : 0 < q.id ∧ q.id < 65536) (cqs : u.host.ctrls[c.ctrl].cqs = [q]) :
    deleteCq q.id (adminId c) u =
      if u.host.ctrls[c.ctrl].sqs.any (fun x => x.cq = q.id) = true then refuse (adminId c) (1, 0x0C, none) u
      else adminDone (adminId c) 0 (setCtrl c.ctrl (cqRemoved q.id) u) := by
  have id_eq : q.id % 65536 = q.id := Nat.mod_eq_of_lt named.2
  have may : ¬(q.id = 0 ∨ (!u.host.ctrls[c.ctrl].cqs.any fun x => decide (x.id = q.id)) = true) := by
    rw [cqs]
    simp
    omega
  unfold deleteCq
  rw [id_eq]
  exact if_neg may

/-- The deletion leaves the queue where it is until every command of it has ended. -/
theorem fetchAdmin_deleteSq_pending {q : SubQueue} (next : canFetch s (adminId c) = true) (free : busyId s (adminId c) = false)
    (awake : s.power.unit ≠ 2) (named : 0 < q.id ∧ q.id < 65536) (sqs : s.host.ctrls[c.ctrl].sqs = [q])
    (deletes : s.host.ctrls[c.ctrl].deletes = []) (flights : s.host.flights = []) :
    (fetchAdmin c (deleteSq q.id) s).host.ctrls = vecModify s.host.ctrls c.ctrl (deleteAdded c q.id ∘ headMoved) ∧
      (fetchAdmin c (deleteSq q.id) s).host.flights.map (fun f => f.c) = [adminId c] ∧ (fetchAdmin c (deleteSq q.id) s).sent = s.sent := by
  have clean : entryPoisoned (adminId c) s = (false, s) := entryPoisoned_admin (by rw [sqs]; simp; omega)
  have begun : fetchAdmin c (deleteSq q.id) s = deleteSq q.id (adminId c) (fetched s (adminId c)) := by
    unfold fetchAdmin fetchAny
    rw [fetch_clean next clean free]
    exact if_neg awake
  rw [begun, deleteSq_pending named (sqs_fetched.trans sqs) (deletes_fetched.trans deletes) flights]
  refine ⟨?_, ?_, ?_⟩
  · show (takeOff _ _).host.ctrls = _
    rw [host_takeOff]
    show vecModify (vecModify s.host.ctrls c.ctrl headMoved) c.ctrl (deleteAdded c q.id) = _
    rw [vecModify_vecModify]
  · have kept : ∀ f : Flight, (sqLeft c q.id f).c = f.c := fun f => by
      unfold sqLeft
      split_ifs <;> rfl
    show ((takeOff _ _).host.flights.map (sqLeft c q.id)).map (fun f : Flight => f.c) = _
    rw [host_takeOff]
    show ((s.host.flights ++ _).map (sqLeft c q.id)).map (fun f : Flight => f.c) = _
    rw [flights, List.map_map]
    exact congrArg (fun x => [x]) (kept _)
  · show (takeOff _ _).sent = _
    rw [sent_takeOff]
    rfl

/-- Settles O42, command by command: the checks in their order, then the controller that the admin queue's answer leaves. -/
theorem queuesCreatedAndDeleted : Obligations.QueuesCreatedAndDeleted := by
  simp only [Obligations.QueuesCreatedAndDeleted, exec_createIoCq, exec_createIoSq, exec_deleteIoSq, exec_deleteIoCq]
  refine ⟨?cqMade, ?cqId, ?cqCmb, ?sqMade, ?sqUnnamed, ?sqDeleted, ?sqAbsent, ?cqDeleted, ?cqNamed⟩
  case cqMade =>
    intro c id size vec prp s ready idOk sizeOk vecOk outside free
    rw [← cqs_fetched] at free
    refine ⟨_, rfl, ?_⟩
    rw [fetchAdmin_open ready, createCq_allowed idOk sizeOk vecOk free, if_neg outside.not_ge,
      ctrl_adminDone_fetched (g := cqAdded id size vec prp) ready fun _ => rfl]
    exact ⟨by simp [cqAdded], (adminDone_fetched (g := cqAdded id size vec prp) ready fun _ => rfl).1⟩
  case cqId =>
    intro c dw10 dw11 prp s ready bad
    rw [← cqs_fetched] at bad
    refine ⟨_, rfl, ?_⟩
    rw [fetchAdmin_open ready, createCq_badId bad, ctrl_refuse_fetched ready (by decide)]
    exact ⟨by simp, (refuse_fetched ready (by decide)).1⟩
  case cqCmb =>
    intro c id size vec prp s ready idOk sizeOk vecOk inside free
    rw [← cqs_fetched] at free
    refine ⟨_, rfl, ?_⟩
    rw [fetchAdmin_open ready, createCq_allowed idOk sizeOk vecOk free, if_pos inside, ctrl_refuse_fetched ready (by decide)]
    exact ⟨by simp, (refuse_fetched ready (by decide)).1⟩
  case sqMade =>
    intro c id size cls cq prp s ready idOk sizeOk free named clsOk cqOk
    rw [← sqs_fetched] at free
    rw [← cqs_fetched] at named
    refine ⟨_, rfl, ?_⟩
    rw [fetchAdmin_open ready, createSq_allowed idOk sizeOk free named clsOk cqOk,
      ctrl_adminDone_fetched (g := sqAdded id size cls cq prp) ready fun _ => rfl]
    exact ⟨by rw [sqs_answeredCtrl, sqs_sqAdded_headMoved], (adminDone_fetched (g := sqAdded id size cls cq prp) ready fun _ => rfl).1⟩
  case sqUnnamed =>
    intro c id size dw11 prp s ready idOk sizeOk absent free
    rw [← sqs_fetched] at free
    rw [← cqs_fetched] at absent
    refine ⟨_, rfl, ?_⟩
    rw [fetchAdmin_open ready, createSq_unnamed idOk sizeOk free absent, ctrl_refuse_fetched ready (by decide)]
    exact ⟨(refuse_fetched ready (by decide)).2, by simp, (refuse_fetched ready (by decide)).1⟩
  case sqDeleted =>
    intro c q s next free awake zero small sqs deletes flights
    obtain ⟨ctrls, flying, sent⟩ := fetchAdmin_deleteSq_pending next free awake ⟨zero, small⟩ sqs deletes flights
    refine ⟨_, rfl, ?_⟩
    rw [ctrls, getElem_vecModify, if_pos rfl]
    exact ⟨congrArg (· ++ [(adminId c, q.id)]) deletes, sqs, flying, sent⟩
  case sqAbsent =>
    intro c dw10 s ready sqs
    rw [← sqs_fetched] at sqs
    refine ⟨_, rfl, ?_⟩
    rw [fetchAdmin_open ready, deleteSq_absent sqs, ctrl_refuse_fetched ready (by decide)]
    exact ⟨by simp, (refuse_fetched ready (by decide)).1⟩
  case cqDeleted =>
    intro c q s ready zero small cqs unnamed
    rw [← sqs_fetched] at unnamed
    refine ⟨_, rfl, ?_⟩
    rw [fetchAdmin_open ready, deleteCq_named ⟨zero, small⟩ (cqs_fetched.trans cqs), if_neg (Bool.eq_false_iff.mp unnamed),
      ctrl_adminDone_fetched (g := cqRemoved q.id) ready fun _ => rfl]
    refine ⟨?_, (adminDone_fetched (g := cqRemoved q.id) ready fun _ => rfl).1⟩
    rw [cqs_answeredCtrl]
    show (headMoved s.host.ctrls[c.ctrl]).cqs.filter (fun x => decide (x.id ≠ q.id)) = []
    rw [cqs_headMoved, cqs]
    simp
  case cqNamed =>
    intro c q s ready zero small cqs named
    rw [← sqs_fetched] at named
    refine ⟨_, rfl, ?_⟩
    rw [fetchAdmin_open ready, deleteCq_named ⟨zero, small⟩ (cqs_fetched.trans cqs), if_pos named, ctrl_refuse_fetched ready (by decide)]
    exact ⟨by simpa using cqs, (refuse_fetched ready (by decide)).1⟩

end Sys2Proof.Machine
end

section
/-! PROOFS. Set Features (R541): a value takes force on its controller, or the command is refused. -/

namespace Sys2Proof.Machine

variable {s t u : State} {c : CmdId} {p : PortId} {sct sc dw0 v : Nat} {sv : Bool}

/-! ### What an asynchronous event leaves (R543) -/

/-- From `s` to `t` the features of both controllers stand, and what has been sent has been sent. -/
structure FeatsStand (s t : State) : Prop where
  feat : ∀ q : PortId, t.host.ctrls[q].feat = s.host.ctrls[q].feat
  sent : s.sent ⊆ t.sent

theorem FeatsStand.refl (s : State) : FeatsStand s s := ⟨fun _ => rfl, List.Subset.refl _⟩

theorem FeatsStand.trans (h : FeatsStand s t) (k : FeatsStand t u) : FeatsStand s u :=
  ⟨fun q => (k.feat q).trans (h.feat q), List.Subset.trans h.sent k.sent⟩

theorem featsStand_setCtrl {g : Controller → Controller} (kept : ∀ k, (g k).feat = k.feat) : FeatsStand s (setCtrl p g s) := by
  refine ⟨fun q => ?_, List.Subset.refl _⟩
  rw [ctrls_setCtrl, getElem_vecModify]
  split
  · exact kept _
  · rfl

theorem featsStand_setCq {id : Nat} {g : CompQueue → CompQueue} : FeatsStand s (setCq p id g s) :=
  featsStand_setCtrl fun k => by split <;> rfl

theorem featsStand_send {x : Sent} : FeatsStand s (send x s) := ⟨fun _ => rfl, List.subset_cons_self _ _⟩

theorem featsStand_cqTake {q : CompQueue} {e : CqEntry} : FeatsStand s (cqTake p q e s) := by
  unfold cqTake
  dsimp only
  split
  · exact (featsStand_setCq.trans featsStand_send).trans featsStand_send
  · exact featsStand_setCq.trans featsStand_send

theorem featsStand_cqPut {id : Nat} {e : CqEntry} : FeatsStand s (cqPut p id e s) := by
  unfold cqPut
  split
  · exact .refl s
  · split
    · exact featsStand_setCq
    · exact featsStand_cqTake

theorem featsStand_asyncPost {ty info : Nat} : FeatsStand s (asyncPost p ty info s) := by
  unfold asyncPost
  split
  · exact featsStand_setCtrl fun _ => rfl
  · refine .trans ?_ featsStand_cqPut
    exact featsStand_setCtrl fun _ => rfl

theorem featsStand_asyncEvent {ty info : Nat} : FeatsStand s (asyncEvent p ty info s) := by
  unfold asyncEvent
  dsimp only
  split
  · split
    · exact featsStand_setCtrl fun _ => rfl
    · exact featsStand_asyncPost
  · exact .refl s

theorem FeatsStand.asyncEvent_if {b : Prop} [Decidable b] {ty info : Nat} (h : FeatsStand s t) :
    FeatsStand s (if b then asyncEvent p ty info t else t) := by
  split
  · exact h.trans featsStand_asyncEvent
  · exact h

theorem FeatsStand.foldl {α : Type} {f : State → α → State} (each : ∀ a x, FeatsStand a (f a x)) (l : List α) : FeatsStand s (l.foldl f s) := by
  induction l generalizing s with
  | nil => exact .refl s
  | cons x l ih => exact (each s x).trans ih

theorem featsStand_warningCheck : FeatsStand s (warningCheck s) := by
  refine .foldl (fun a q => ?_) _
  exact .asyncEvent_if (.asyncEvent_if (.asyncEvent_if (featsStand_setCtrl fun _ => rfl)))

/-! ### Set Features (R541) -/

theorem exec_setFeaturesArbitration : exec (.setFeaturesArbitration c sv v) s = execSetFeaturesArbitration c sv v s := rfl

theorem exec_setFeaturesTempThreshold : exec (.setFeaturesTempThreshold c sv v) s = execSetFeaturesTempThreshold c sv v s := rfl

theorem exec_setFeaturesNumberOfQueues : exec (.setFeaturesNumberOfQueues c sv v) s = execSetFeaturesNumberOfQueues c sv v s := rfl

theorem exec_setFeaturesIntCoalescing : exec (.setFeaturesIntCoalescing c sv v) s = execSetFeaturesIntCoalescing c sv v s := rfl

theorem exec_setFeaturesIntVectorConfig : exec (.setFeaturesIntVectorConfig c sv v) s = execSetFeaturesIntVectorConfig c sv v s := rfl

theorem exec_setFeaturesAsyncEventConfig : exec (.setFeaturesAsyncEventConfig c sv v) s = execSetFeaturesAsyncEventConfig c sv v s := rfl

theorem exec_setFeaturesUnsupported : exec (.setFeaturesUnsupported c sv v) s = execSetFeaturesUnsupported c sv v s := rfl

/-- A controller with its features changed. -/
def featured (f : Features → Features) (k : Controller) : Controller := { k with feat := f k.feat }

theorem answered_featured {f : Features → Features} {k : Controller} :
    answeredCtrl (featured f (headMoved k)) = { servedAdmin k with feat := f k.feat } := rfl

section
variable {g : CmdId → State → Except (Nat × Nat × Option Bool) (Nat × State)} (ready : adminOpen s c = true)
include ready

/-- A feature whose value is accepted takes it on its controller alone. -/
theorem setFeature_accepted {f : Features → Features}
    (accepted : g (adminId c) (fetched s (adminId c)) = .ok (dw0, setCtrl c.ctrl (featured f) (fetched s (adminId c)))) :
    (fetchAdmin c (setFeature false g) s).sent.take 2 = adminAnswer c 0 0 dw0 0 ∧
      (fetchAdmin c (setFeature false g) s).host.ctrls =
        s.host.ctrls.set c.ctrl { servedAdmin s.host.ctrls[c.ctrl] with feat := f s.host.ctrls[c.ctrl].feat } := by
  have done : fetchAdmin c (setFeature false g) s = adminDone (adminId c) dw0 (setCtrl c.ctrl (featured f) (fetched s (adminId c))) := by
    rw [fetchAdmin_open ready]
    simp only [setFeature, Bool.false_eq_true, if_false, accepted]
  rw [done, ← answered_featured]
  exact adminDone_fetched ready fun _ => rfl

theorem feat_setFeature_accepted {f : Features → Features}
    (accepted : g (adminId c) (fetched s (adminId c)) = .ok (dw0, setCtrl c.ctrl (featured f) (fetched s (adminId c)))) :
    (fetchAdmin c (setFeature false g) s).host.ctrls[c.ctrl].feat = f s.host.ctrls[c.ctrl].feat ∧
      (fetchAdmin c (setFeature false g) s).sent.take 2 = adminAnswer c 0 0 dw0 0 := by
  obtain ⟨sent, ctrls⟩ := setFeature_accepted ready accepted
  rw [ctrls]
  exact ⟨congrArg Controller.feat (Vector.getElem_set_self _), sent⟩

/-- What the new value makes of the Critical Warning comes after the answer. -/
theorem setFeature_warned {f : Features → Features}
    (accepted : g (adminId c) (fetched s (adminId c)) = .ok (dw0, setCtrl c.ctrl (featured f) (fetched s (adminId c)))) :
    (fetchAdmin c (fun a x => warningCheck (setFeature false g a x)) s).host.ctrls[c.ctrl].feat = f s.host.ctrls[c.ctrl].feat ∧
      .completion (adminId c) 0 0 none dw0 0 ∈ (fetchAdmin c (fun a x => warningCheck (setFeature false g a x)) s).sent := by
  have after : fetchAdmin c (fun a x => warningCheck (setFeature false g a x)) s = warningCheck (fetchAdmin c (setFeature false g) s) := by
    rw [fetchAdmin_open ready, fetchAdmin_open ready]
  obtain ⟨feat, sent⟩ := feat_setFeature_accepted ready accepted
  have stand := featsStand_warningCheck (s := fetchAdmin c (setFeature false g) s)
  rw [after, stand.feat, feat]
  refine ⟨rfl, stand.sent (List.mem_of_mem_take (i := 2) ?_)⟩
  rw [sent]
  exact List.mem_cons_of_mem _ (List.mem_singleton.mpr rfl)

theorem setFeature_refused (bad : ¬(sct = 0 ∧ sc = 0))
    (refused : setFeature sv g (adminId c) (fetched s (adminId c)) = refuse (adminId c) (sct, sc, none) (fetched s (adminId c))) :
    (fetchAdmin c (setFeature sv g) s).host.ctrls[c.ctrl].feat = s.host.ctrls[c.ctrl].feat ∧
      (fetchAdmin c (setFeature sv g) s).sent.take 2 = adminAnswer c sct sc 0 0 := by
  rw [fetchAdmin_open ready, refused, ctrl_refuse_fetched ready bad]
  exact ⟨by simp, (refuse_fetched ready bad).1⟩

end

/-! ### The values (R539, R541, R543) -/

/-- Dword 11 of a temperature threshold: the value, and bit 20 for the under threshold. -/
theorem fields_threshold {under : Bool} (small : v < 65536) :
    ¬(bits (v + if under then 2 ^ 20 else 0) 19 16 ≠ 0 ∨ 1 < bits (v + if under then 2 ^ 20 else 0) 21 20 ∨
      bits (v + if under then 2 ^ 20 else 0) 31 22 ≠ 0) ∧
    bit (v + if under then 2 ^ 20 else 0) 20 = under ∧ (v + if under then 2 ^ 20 else 0) % 65536 = v := by
  unfold bits bit
  cases under
  · simp only [Bool.false_eq_true, if_false, decide_eq_false_iff_not]
    omega
  · simp only [if_true, decide_eq_true_eq]
    omega

/-- A temperature threshold set. -/
def thresholdSet (under : Bool) (k : Nat) (f : Features) : Features := if under then { f with tempUnder := k } else { f with tempOver := k }

/-- Dword 11 of an interrupt vector's configuration: the vector, and bit 16 for coalescing disabled. -/
theorem fields_vector {cd : Bool} (small : v ≤ 64) :
    (v + if cd then 65536 else 0) % 65536 = v ∧ bits (v + if cd then 65536 else 0) 31 17 = 0 ∧ bit (v + if cd then 65536 else 0) 16 = cd := by
  unfold bits bit
  cases cd
  · simp only [Bool.false_eq_true, if_false, decide_eq_false_iff_not]
    omega
  · simp only [if_true, decide_eq_true_eq]
    omega

/-- The vectors with coalescing disabled, with one of them set. -/
def vectorSet (v : Nat) (cd : Bool) (f : Features) : Features :=
  { f with noCoalesce := if cd then v :: f.noCoalesce.filter (fun x => x ≠ v) else f.noCoalesce.filter (fun x => x ≠ v) }

theorem contains_vectorSet {cd : Bool} {f : Features} (w : Nat) :
    (vectorSet v cd f).noCoalesce.contains w = if w = v then cd else f.noCoalesce.contains w := by
  unfold vectorSet
  by_cases own : w = v
  · cases cd <;> simp [own]
  · cases cd <;> simp [own, List.contains_eq_mem]

/-- Settles O44, feature by feature: each value that its checks accept takes force; the save bit, an unsupported identifier and a queue
count that comes too late are refused. -/
theorem featuresTakeTheirValues : Obligations.FeaturesTakeTheirValues := by
  simp only [Obligations.FeaturesTakeTheirValues, exec_setFeaturesArbitration, exec_setFeaturesTempThreshold,
    exec_setFeaturesNumberOfQueues, exec_setFeaturesIntCoalescing, exec_setFeaturesIntVectorConfig, exec_setFeaturesAsyncEventConfig,
    exec_setFeaturesUnsupported]
  refine ⟨?arbitration, ?threshold, ?queues, ?coalescing, ?vector, ?async, ?unsupported, ?save, ?late⟩
  case arbitration =>
    intro c v s ready small reserved
    refine ⟨_, rfl, setFeature_accepted (f := fun f => { f with arbitration := v }) ready ?_⟩
    rw [if_neg (by simpa using reserved), Nat.mod_eq_of_lt small]
    rfl
  case threshold =>
    intro c k under s ready small
    obtain ⟨within, which, value⟩ := fields_threshold (under := under) small
    refine ⟨_, rfl, setFeature_warned (f := thresholdSet under k) ready ?_⟩
    rw [if_neg within, which, value]
    cases under <;> rfl
  case queues =>
    intro c a b s ready smallA smallB sqs cqs
    have low : (a + 65536 * b) % 65536 = a ∧ (a + 65536 * b) / 65536 % 65536 = b := by omega
    refine ⟨_, rfl, (feat_setFeature_accepted (f := fun f => { f with queues := min a 63 + 65536 * min b 63 }) ready ?_).imp_left
      (congrArg Features.queues)⟩
    dsimp only
    rw [low.1, low.2, if_neg (by omega)]
    refine if_neg ?_
    rw [show (fetched s (adminId c)).host.ctrls[(adminId c).ctrl].sqs = [] from sqs_fetched.trans sqs,
      show (fetched s (adminId c)).host.ctrls[(adminId c).ctrl].cqs = [] from cqs_fetched.trans cqs]
    simp
  case coalescing =>
    intro c v s ready small
    have reserved : bits v 31 16 = 0 := by
      unfold bits
      omega
    refine ⟨_, rfl, setFeature_accepted (f := fun f => { f with coalescing := v }) ready ?_⟩
    rw [if_neg (by simpa using reserved), Nat.mod_eq_of_lt small]
    rfl
  case vector =>
    intro c v cd s ready small
    obtain ⟨value, reserved, which⟩ := fields_vector (cd := cd) small
    refine ⟨_, rfl, (feat_setFeature_accepted (f := vectorSet v cd) ready ?_).symm.imp_right fun feat w => ?_⟩
    · dsimp only
      rw [value, reserved, which]
      exact if_neg (by omega)
    · rw [feat, contains_vectorSet]
  case async =>
    intro c v s ready small
    refine ⟨_, rfl, setFeature_accepted (f := fun f => { f with async := v }) ready ?_⟩
    rw [Nat.mod_eq_of_lt small]
    rfl
  case unsupported =>
    intro c fid sv s ready
    cases sv with
    | true => exact ⟨_, rfl, setFeature_refused ready (by decide) rfl⟩
    | false => exact ⟨_, rfl, setFeature_refused ready (by decide) rfl⟩
  case save =>
    intro c v s ready
    exact ⟨_, rfl, setFeature_refused ready (by decide) rfl⟩
  case late =>
    intro c v s ready queued a b
    refine ⟨_, rfl, setFeature_refused ready (by decide) ?_⟩
    have there : (!(fetched s (adminId c)).host.ctrls[(adminId c).ctrl].sqs.isEmpty) = true ∨
        (!(fetched s (adminId c)).host.ctrls[(adminId c).ctrl].cqs.isEmpty) = true := by
      rw [show (fetched s (adminId c)).host.ctrls[(adminId c).ctrl].sqs = _ from sqs_fetched,
        show (fetched s (adminId c)).host.ctrls[(adminId c).ctrl].cqs = _ from cqs_fetched]
      simpa using queued
    simp only [setFeature, Bool.false_eq_true, if_false, a, b, or_self, there, if_true]

end Sys2Proof.Machine
end

section
/-! PROOFS. NVMe I/O commands taken up (R564, R566), and commands whose completion queue takes them at once (R579). -/

namespace Sys2Proof.Machine

variable {s t u : State} {a c : CmdId} {p : PortId} {f : Flight} {tm : TeamId} {st e : Nat × Nat × Option Bool} {dw0 : Nat}

/-! ### Commands taken up (R564) -/

/-- What `ioOpen` says. -/
theorem ioOpen_iff : ioOpen s c = true ↔ canFetch s c = true ∧ busyId s c = false ∧ c.sq ≠ 0 ∧ needsAck s = false ∧ cqRoom s c = true ∧
    ∀ q ∈ s.host.ctrls[c.ctrl].sqs, q.id ≠ c.sq ∨ q.base < 2 ^ 63 := by
  simp only [ioOpen, Bool.and_eq_true, decide_eq_true_eq, Bool.not_eq_true', List.all_eq_true, and_assoc]

/-- The entry of a queue that lies in no CMB is not marked. -/
theorem entryPoisoned_hostMemory (outside : ∀ q ∈ s.host.ctrls[c.ctrl].sqs, q.id ≠ c.sq ∨ q.base < 2 ^ 63) :
    entryPoisoned c s = (false, s) := by
  unfold entryPoisoned
  split
  next => rfl
  next q found =>
    have named : q.id = c.sq := by simpa using List.find?_some found
    have base : q.base < 2 ^ 63 := (outside q (List.mem_of_find?_eq_some found)).resolve_left (not_not_intro named)
    rw [cmbPlace, if_neg (not_le.mpr base)]

theorem fetch_open {k : State → State} (ready : ioOpen s c = true) : fetch c k s = k (fetched s c) := by
  obtain ⟨next, free, -, -, -, outside⟩ := ioOpen_iff.mp ready
  exact fetch_clean next (entryPoisoned_hostMemory outside) free

theorem running_of_canFetch (next : canFetch s c = true) : s.host.frozen = false := by
  simp only [canFetch, Bool.and_eq_true, Bool.not_eq_true'] at next
  exact next.1

/-! ### Room on the completion queue (R537, R539) -/

/-- A controller on which a command's submission queue names the same completion queue, and every completion queue stands. -/
def SameQueues (c : CmdId) (k k' : Controller) : Prop := cqOf k' c.sq = cqOf k c.sq ∧ k'.cqs = k.cqs ∧ k'.acq = k.acq

theorem sameQueues_queueMoved (k : Controller) : SameQueues c k (queueMoved c k) := by
  unfold queueMoved SameQueues
  dsimp only
  split
  next admin => exact ⟨rfl, rfl, rfl⟩
  next =>
    refine ⟨?_, rfl, rfl⟩
    unfold cqOf
    rw [List.find?_map, Option.map_map]
    have kept : ∀ q : SubQueue, decide ((if q.id = c.sq then
        { q with head := (q.head + 1) % (if q.size = 0 then 1 else q.size) } else q).id = c.sq) = decide (q.id = c.sq) := fun q => by
      split_ifs <;> rfl
    split
    · rfl
    · refine congrArg₂ (fun g x => Option.map g x) (funext fun q => ?_) (congrArg (List.find? · _) (funext kept))
      dsimp only [Function.comp]
      split_ifs <;> rfl

/-- The completion queue of a command takes it at once, and no peer has to acknowledge it. -/
structure IoFree (u : State) (c : CmdId) : Prop where
  alone : needsAck u = false
  room : cqRoom u c = true

theorem IoFree.congr (free : IoFree u c) (ctrls : SameQueues c u.host.ctrls[c.ctrl] t.host.ctrls[c.ctrl]) (pair : t.pair = u.pair) :
    IoFree t c := by
  obtain ⟨alone, room⟩ := free
  obtain ⟨named, cqs, acq⟩ := ctrls
  refine ⟨?_, ?_⟩
  · unfold needsAck batonUp at *
    rwa [pair]
  · unfold cqRoom cqAt at *
    rwa [named, cqs, acq]

theorem IoFree.of_ctrls (free : IoFree u c) (ctrls : t.host.ctrls = u.host.ctrls) (pair : t.pair = u.pair) : IoFree t c :=
  free.congr (by rw [ctrls]; exact ⟨rfl, rfl, rfl⟩) pair

theorem ioFree_fetched (ready : ioOpen s c = true) : IoFree (fetched s c) c := by
  obtain ⟨-, -, -, alone, room, -⟩ := ioOpen_iff.mp ready
  refine IoFree.congr (u := s) ⟨alone, room⟩ ?_ rfl
  rw [ctrls_fetched_queue, getElem_vecModify, if_pos rfl]
  exact sameQueues_queueMoved _

/-! ### Completions posted (R579) -/

theorem flights_cqTake {q : CompQueue} {x : CqEntry} : (cqTake p q x u).host.flights = u.host.flights := by
  unfold cqTake
  dsimp only
  split <;> rfl

theorem flights_cqPut {id : Nat} {x : CqEntry} : (cqPut p id x u).host.flights = u.host.flights := by
  unfold cqPut
  split
  · rfl
  · split
    · rfl
    · exact flights_cqTake

theorem flights_postAt {lba nsid sct sc dw0 dw1 : Nat} {dnr : Option Bool} :
    (postAt lba nsid c sct sc dnr dw0 dw1 u).host.flights = u.host.flights := by
  unfold postAt
  dsimp only
  split
  · split
    · exact flights_cqPut
    · exact flights_cqPut
  · split <;> rfl

theorem teams_postAt {lba nsid sct sc dw0 dw1 : Nat} {dnr : Option Bool} : (postAt lba nsid c sct sc dnr dw0 dw1 u).teams = u.teams :=
  (keeps_postAt (List.Subset.refl _) (.refl _ u)).frame .teams (by decide)

/-- An entry that its queue takes is sent, before or with the queue's interrupt. -/
theorem sent_cqTake {q : CompQueue} {x : CqEntry} :
    .completion x.c x.sct x.sc x.dnr x.dw0 x.dw1 ∈ (cqTake p q x u).sent.take 2 := by
  unfold cqTake
  dsimp only
  split <;> simp [send]

theorem cqRoom_iff : cqRoom u c = true ↔ ∃ id q, cqOf u.host.ctrls[c.ctrl] c.sq = some id ∧ cqAt u.host.ctrls[c.ctrl] id = some q ∧
    (q.full || !q.held.isEmpty) = false := by
  unfold cqRoom
  generalize u.host.ctrls[c.ctrl] = k
  cases cqOf k c.sq with
  | none => simp
  | some id =>
    cases there : cqAt k id with
    | none => simp [there]
    | some q => simp [there]

theorem sent_postAt {lba nsid sct sc dw0 dw1 : Nat} {dnr : Option Bool} (free : IoFree u c) :
    .completion c sct sc dnr dw0 dw1 ∈ (postAt lba nsid c sct sc dnr dw0 dw1 u).sent.take 2 := by
  unfold postAt
  extract_lets v
  have free' : IoFree v c := by
    simp only [v]
    split
    · exact free
    · refine free.congr ?_ rfl
      show SameQueues c _ (setCtrl c.ctrl _ u).host.ctrls[c.ctrl]
      rw [ctrl_setCtrl]
      exact ⟨rfl, rfl, rfl⟩
  obtain ⟨id, q, named, there, room⟩ := cqRoom_iff.mp free'.room
  rw [named]
  dsimp only
  unfold cqPut
  rw [there]
  dsimp only
  rw [room]
  exact sent_cqTake

/-! ### Commands that end (R566, R579) -/

theorem post_free {sct sc dw1 : Nat} {dnr : Option Bool} (free : IoFree u c) :
    .completion c sct sc dnr dw0 dw1 ∈ (post c sct sc dnr dw0 dw1 u).sent.take 2 ∧
      (post c sct sc dnr dw0 dw1 u).host.flights = u.host.flights ∧ (post c sct sc dnr dw0 dw1 u).teams = u.teams :=
  ⟨sent_postAt free, flights_postAt, teams_postAt⟩

theorem completeAs_free (free : IoFree u c) : ioDone (completeAs c e dw0 u) c e dw0 0 ∧
    (completeAs c e dw0 u).host.flights = u.host.flights ∧ (completeAs c e dw0 u).teams = u.teams := by
  have posted : completeAs c e dw0 u = post c e.1 e.2.1 e.2.2 dw0 0 u := if_neg (by rw [free.alone]; exact Bool.false_ne_true)
  rw [posted]
  exact post_free free

/-- A command refused completes with its status and has no other effect. -/
theorem refuse_io (free : IoFree u c) :
    ioDone (refuse c e u) c e 0 0 ∧ (refuse c e u).host.flights = u.host.flights ∧ (refuse c e u).teams = u.teams :=
  completeAs_free (u := bump 0x2510 9 1 1 u) (free.of_ctrls rfl rfl)

/-- A command of which the effect stands at admission succeeds. -/
theorem succeed_io (free : IoFree u c) : ioDone (succeed c (admitted u)) c (0, 0, none) 0 0 ∧ (succeed c (admitted u)).teams = u.teams := by
  obtain ⟨done, -, teams⟩ := completeAs_free (u := admitted u) (e := (0, 0, none)) (dw0 := 0) (free.of_ctrls rfl rfl)
  exact ⟨done, teams⟩

/-! ### Flights that complete (R243, R579) -/

/-- A flight that leaves takes its own entry, and of a team's staging what nobody needs. -/
theorem host_removeFlight : (removeFlight c u).host = { u.host with flights := u.host.flights.filter (fun x => decide (x.c ≠ c)) } := by
  unfold removeFlight
  extract_lets f s1
  have freed (t : TeamId) : (freeExtents t s1).host = s1.host := (keeps_freeExtents (List.Subset.refl _) (.refl _ s1)).frame .host (by decide)
  split
  · exact freed _
  · rfl

theorem pair_removeFlight : (removeFlight c u).pair = u.pair :=
  (keeps_removeFlight (List.Subset.refl _) (.refl _ u)).frame .pair (by decide)

theorem ioFree_removeFlight (free : IoFree u c) : IoFree (removeFlight a u) c :=
  free.of_ctrls (by rw [host_removeFlight]) pair_removeFlight

theorem commitFlight_free (free : IoFree u f.c) (loud : f.silent = false) : ioDone (commitFlight f st u) f.c st f.dw0 f.dw1 ∧
    (commitFlight f st u).host.flights = u.host.flights.filter (fun x => decide (x.c ≠ f.c)) ∧
    (commitFlight f st u).teams = (removeFlight f.c u).teams := by
  unfold commitFlight
  dsimp only
  rw [loud, if_neg Bool.false_ne_true]
  refine ⟨sent_postAt (ioFree_removeFlight free), ?_, teams_postAt⟩
  refine flights_postAt.trans ?_
  rw [host_removeFlight]

/-- A flight whose conditions hold is committed. -/
theorem tryComplete_due (flight : flightOf u c = some f) (still : f.committing = false) (running : u.host.frozen = false)
    (due : dueStatus u f = some st) (alone : needsAck u = false) : tryComplete c u = commitFlight f st u := by
  unfold tryComplete
  simp only [flight, still, running, due, alone, Bool.or_self, Bool.false_eq_true, if_false, Bool.false_and]

/-- A flight of a free identifier that has been taken up is the one of its identifier. -/
theorem flightOf_takeOff (unseen : flightOf u f.c = none) : flightOf (takeOff f u) f.c = some { f with tick := u.ticks } := by
  unfold flightOf at *
  rw [host_takeOff, List.find?_append, unseen, Option.none_or]
  exact List.find?_cons_of_pos (decide_eq_true rfl)

end Sys2Proof.Machine
end

section
/-! PROOFS. Namespaces read after an update: zones (R552 to R559), extents and their seals (R275, R276, R581). -/

namespace Sys2Proof.Machine

variable {s t : State} {u tm : TeamId} {x y z k first count : Nat} {ns : Namespace}

/-! ### Zones -/

theorem nsAt_congr (teams : t.teams = s.teams) : nsAt t tm = nsAt s tm := by
  unfold nsAt teamAt
  rw [teams]

theorem nsAt_setNs_team {f : Namespace → Namespace} : nsAt (setNs u f s) tm = if u = tm then f (nsAt s tm) else nsAt s tm := by
  show ((vecModify s.teams u fun q => { q with ns := f q.ns })[tm]).ns = _
  rw [getElem_vecModify]
  split <;> rfl

theorem zones_setExtent {f : Extent → Extent} : (nsAt (setExtent u x f s) u).zones = (nsAt s u).zones := by
  unfold setExtent
  rw [nsAt_setNs]

theorem zones_markHeld : (nsAt (markHeld u s) u).zones = (nsAt s u).zones := by
  unfold markHeld
  rw [nsAt_setNs]

theorem zones_claim {seq : Nat} (l : List Nat) : (nsAt (claim u seq l s) u).zones = (nsAt s u).zones := by
  induction l generalizing s with
  | nil => rfl
  | cons x l ih => exact ih.trans zones_setExtent

theorem zones_countDemand : nsAt (countDemand u count s) u = nsAt s u := by
  unfold countDemand nsAt
  rw [teamAt_setTeam]

theorem zoneAt_congr {ns' : Namespace} (zones : ns'.zones = ns.zones) : zoneAt ns' z = zoneAt ns z := by
  unfold zoneAt
  rw [zones]

theorem zoneAt_setZone {f : Zone → Zone} : zoneAt (nsAt (setZone u z f s) u) z = f (zoneAt (nsAt s u) z) := by
  unfold setZone
  rw [nsAt_setNs]
  unfold zoneAt
  rw [mapGet_mapSet, if_pos rfl]
  rfl

/-- A zone finished is Full at its end, whatever is sealed in it before. -/
theorem zoneAt_fillZone {byCtrl : Bool} : (zoneAt (nsAt (fillZone u z byCtrl s) u) z).st = .full ∧
    (zoneAt (nsAt (fillZone u z byCtrl s) u) z).wp = 2 ^ 20 := by
  unfold fillZone
  dsimp only
  rw [zoneAt_setZone]
  exact ⟨rfl, rfl⟩

/-! ### What a flight that leaves takes of a namespace (R243) -/

theorem nsAt_freeExtents : ∃ keep, nsAt (freeExtents u s) tm = { nsAt s tm with extents := (nsAt s tm).extents.filter keep } := by
  unfold freeExtents
  dsimp only
  rw [nsAt_setNs_team]
  split
  · exact ⟨_, rfl⟩
  · exact ⟨fun _ => true, by rw [List.filter_true]⟩

theorem nsAt_removeFlight {c : CmdId} : ∃ keep, nsAt (removeFlight c s) tm =
    { nsAt s tm with extents := (nsAt s tm).extents.filter keep } := by
  unfold removeFlight
  extract_lets f s1
  split
  · exact nsAt_freeExtents (s := s1)
  · exact ⟨fun _ => true, by rw [List.filter_true]; rfl⟩

theorem zones_removeFlight {c : CmdId} : (nsAt (removeFlight c s) tm).zones = (nsAt s tm).zones := by
  obtain ⟨keep, eq⟩ := nsAt_removeFlight (s := s) (tm := tm) (c := c)
  rw [eq]

/-! ### Maps with rising keys -/

theorem mapGet_of_mem {α : Type} {m : List (Nat × α)} {q : Nat × α} (sorted : mapSorted m = true) (mem : q ∈ m) : mapGet m q.1 = some q.2 := by
  induction m with
  | nil => cases mem
  | cons c m ih =>
    obtain ⟨k, v⟩ := c
    rw [mapSorted_cons, Bool.and_eq_true] at sorted
    obtain ⟨low, rest⟩ := sorted
    obtain rfl | later := List.mem_cons.mp mem
    · exact if_pos rfl
    · have apart : k ≠ q.1 := Nat.ne_of_lt (by simpa [above] using List.all_eq_true.mp low q later)
      exact (if_neg apart).trans (ih rest later)

theorem mem_of_mapGet {α : Type} {m : List (Nat × α)} {v : α} (found : mapGet m x = some v) : (x, v) ∈ m := by
  induction m with
  | nil => cases found
  | cons c m ih =>
    obtain ⟨k, w⟩ := c
    unfold mapGet at found
    split at found
    next own =>
      cases found
      subst own
      exact List.mem_cons_self
    next => exact List.mem_cons_of_mem _ (ih found)

theorem mapSorted_of_pairwise {α : Type} {m : List (Nat × α)} (rising : (m.map (fun p => p.1)).Pairwise (· < ·)) : mapSorted m = true := by
  induction m with
  | nil => rfl
  | cons c m ih =>
    obtain ⟨k, v⟩ := c
    rw [List.map_cons, List.pairwise_cons] at rising
    rw [mapSorted_cons, Bool.and_eq_true]
    refine ⟨?_, ih rising.2⟩
    simp only [above, List.all_eq_true, decide_eq_true_eq]
    exact fun q mem => rising.1 q.1 (List.mem_map_of_mem mem)

/-! ### Open extents (R275, R581) -/

/-- The open extents of a namespace whose extents rise. -/
theorem mem_openExtents (sorted : mapSorted ns.extents = true) :
    x ∈ openExtents ns ↔ ∃ e, extentAt ns x = some e ∧ e.isSealed = false ∧ e.lbas.isEmpty = false := by
  unfold openExtents extentAt
  simp only [List.mem_map, List.mem_filter, Bool.and_eq_true, Bool.not_eq_true']
  constructor
  · rintro ⟨q, ⟨mem, opened, some'⟩, rfl⟩
    exact ⟨q.2, mapGet_of_mem sorted mem, opened, some'⟩
  · rintro ⟨e, found, opened, some'⟩
    exact ⟨(x, e), ⟨mem_of_mapGet found, opened, some'⟩, rfl⟩

/-- A seal leaves an extent that is absent or sealed, and marks another. -/
theorem extents_sealExtent :
    ((nsAt (sealExtent u x s) u).extents = (nsAt s u).extents ∧ ∀ e, extentAt (nsAt s u) x = some e → e.isSealed = true) ∨
      ∃ e : Extent, (nsAt (sealExtent u x s) u).extents = mapSet (nsAt s u).extents x { e with isSealed := true } := by
  unfold sealExtent
  split
  next absent => exact .inl ⟨rfl, fun e found => by rw [absent] at found; cases found⟩
  next e found =>
    have marked : (nsAt (setExtent u x (fun e => { e with isSealed := true }) s) u).extents =
        mapSet (nsAt s u).extents x { e with isSealed := true } := by
      unfold setExtent
      unfold extentAt at found
      rw [nsAt_setNs, found]
      rfl
    split
    next closed =>
      refine .inl ⟨rfl, fun e' found' => ?_⟩
      cases found.symm.trans found'
      exact closed
    next =>
      refine .inr ⟨e, ?_⟩
      dsimp only
      split
      · rw [extents_moveWp, extents_addZeros, marked]
      · exact marked

theorem sorted_sealExtent (sorted : mapSorted (nsAt s u).extents = true) : mapSorted (nsAt (sealExtent u x s) u).extents = true := by
  obtain ⟨eq, -⟩ | ⟨e, eq⟩ := extents_sealExtent (s := s) (u := u) (x := x)
  · rwa [eq]
  · rw [eq]
    exact mapSorted_mapSet sorted

/-- A sealed extent is open no longer, and no other comes to be open. -/
theorem openExtents_sealExtent (sorted : mapSorted (nsAt s u).extents = true) (mem : y ∈ openExtents (nsAt (sealExtent u x s) u)) :
    y ∈ openExtents (nsAt s u) ∧ y ≠ x := by
  rw [mem_openExtents (sorted_sealExtent sorted)] at mem
  rw [mem_openExtents sorted]
  obtain ⟨e', found, opened, some'⟩ := mem
  unfold extentAt at *
  obtain ⟨eq, closed⟩ | ⟨e, eq⟩ := extents_sealExtent (s := s) (u := u) (x := x)
  · rw [eq] at found
    refine ⟨⟨e', found, opened, some'⟩, fun own => ?_⟩
    subst own
    exact Bool.false_ne_true (opened.symm.trans (closed e' found))
  · rw [eq, mapGet_mapSet] at found
    split at found
    next own =>
      cases found
      cases opened
    next apart => exact ⟨⟨e', found, opened, some'⟩, Ne.symm apart⟩

theorem openExtents_foldl_sealExtent (l : List Nat) (sorted : mapSorted (nsAt s u).extents = true) :
    mapSorted (nsAt (l.foldl (fun a x => sealExtent u x a) s) u).extents = true ∧
      ∀ y ∈ openExtents (nsAt (l.foldl (fun a x => sealExtent u x a) s) u), y ∈ openExtents (nsAt s u) ∧ y ∉ l := by
  induction l generalizing s with
  | nil => exact ⟨sorted, fun y mem => ⟨mem, List.not_mem_nil⟩⟩
  | cons x l ih =>
    obtain ⟨sorted', left⟩ := ih (sorted_sealExtent (x := x) sorted)
    refine ⟨sorted', fun y mem => ?_⟩
    obtain ⟨mem', absent⟩ := left y mem
    obtain ⟨mem'', apart⟩ := openExtents_sealExtent sorted mem'
    exact ⟨mem'', List.not_mem_cons_of_ne_of_not_mem apart absent⟩

/-- Once all are sealed, no extent is open. -/
theorem openExtents_sealAll (sorted : mapSorted (nsAt s u).extents = true) : openExtents (nsAt (sealAll u s) u) = [] := by
  refine List.eq_nil_iff_forall_not_mem.mpr fun y mem => ?_
  obtain ⟨there, gone⟩ := (openExtents_foldl_sealExtent (openExtents (nsAt s u)) sorted).2 y mem
  exact gone there

/-- No extent is open, whatever the order. -/
theorem openExtents_nil_iff : openExtents ns = [] ↔ ∀ q ∈ ns.extents, q.2.isSealed = false → q.2.lbas.isEmpty = true := by
  unfold openExtents
  simp only [List.map_eq_nil_iff, List.filter_eq_nil_iff, Bool.and_eq_true, Bool.not_eq_true', not_and, Bool.not_eq_false]

theorem openExtents_markHeld (none' : openExtents (nsAt s u) = []) : openExtents (nsAt (markHeld u s) u) = [] := by
  rw [openExtents_nil_iff] at *
  unfold markHeld
  rw [nsAt_setNs]
  intro q mem
  obtain ⟨p, mem', rfl⟩ := List.mem_map.mp mem
  dsimp only
  split
  · split <;> exact none' p mem'
  · exact none' p mem'

theorem openExtents_removeFlight {c : CmdId} (none' : openExtents (nsAt s u) = []) : openExtents (nsAt (removeFlight c s) u) = [] := by
  obtain ⟨keep, eq⟩ := nsAt_removeFlight (s := s) (tm := u) (c := c)
  rw [openExtents_nil_iff] at *
  rw [eq]
  exact fun q mem => none' q (List.mem_of_mem_filter mem)

end Sys2Proof.Machine
end

section
/-! PROOFS. I/O reads and writes admitted (R553 to R557, R560, R565). -/

namespace Sys2Proof.Machine

variable {s t u v : State} {c : CmdId} {f : Flight} {tm : TeamId} {e : Nat × Nat × Option Bool} {nsid slba nlb count off len l zn : Nat}
  {x : Transfer} {append all : Bool} {z : Zone}

/-! ### Checks at admission (R550, R554, R557, R560) -/

theorem nsCheck_congr (teams : t.teams = s.teams) (pair : t.pair = s.pair) : nsCheck t nsid = nsCheck s nsid := by
  unfold nsCheck anaOptimized teamAt
  simp only [nsAt_congr teams, teams, pair]

theorem builtCheck_congr (teams : t.teams = s.teams) : builtCheck t tm = builtCheck s tm := by
  unfold builtCheck
  rw [nsAt_congr teams]

theorem readCheck_congr (teams : t.teams = s.teams) (pair : t.pair = s.pair) : readCheck t nsid slba count = readCheck s nsid slba count := by
  unfold readCheck
  simp only [nsCheck_congr teams pair, nsAt_congr teams]

theorem writeCheck_congr (teams : t.teams = s.teams) (pair : t.pair = s.pair) :
    writeCheck t nsid slba count append = writeCheck s nsid slba count append := by
  unfold writeCheck
  simp only [nsCheck_congr teams pair, builtCheck_congr teams, nsAt_congr teams]

theorem zoneCheck_congr (teams : t.teams = s.teams) (pair : t.pair = s.pair) : zoneCheck t nsid slba all = zoneCheck s nsid slba all := by
  unfold zoneCheck
  simp only [nsCheck_congr teams pair, builtCheck_congr teams, nsAt_congr teams]

theorem zonesWhere_congr (teams : t.teams = s.teams) : zonesWhere t = zonesWhere s := by
  funext p
  unfold zonesWhere
  simp only [nsAt_congr teams]

theorem teams_fetched : (fetched s c).teams = s.teams := rfl

theorem pair_fetched : (fetched s c).pair = s.pair := rfl

theorem nsAt_fetched : nsAt (fetched s c) tm = nsAt s tm := nsAt_congr teams_fetched

theorem nsCheck_fetched : nsCheck (fetched s c) nsid = nsCheck s nsid := nsCheck_congr teams_fetched pair_fetched

theorem readCheck_fetched : readCheck (fetched s c) nsid slba count = readCheck s nsid slba count := readCheck_congr teams_fetched pair_fetched

theorem writeCheck_fetched : writeCheck (fetched s c) nsid slba count append = writeCheck s nsid slba count append :=
  writeCheck_congr teams_fetched pair_fetched

theorem zoneCheck_fetched : zoneCheck (fetched s c) nsid slba all = zoneCheck s nsid slba all := zoneCheck_congr teams_fetched pair_fetched

theorem openZones_fetched : openZones (fetched s c) = openZones s := congrArg (fun g => (g Zone.isOpen).length) (zonesWhere_congr teams_fetched)

theorem activeZones_fetched : activeZones (fetched s c) = activeZones s :=
  congrArg (fun g => (g Zone.isActive).length) (zonesWhere_congr teams_fetched)

section
variable {α ε : Type} {a : α} {e : ε} {r : Except ε α}

/-- A check that passes for somebody passes. -/
theorem eq_ok_of_toOption (passed : r.toOption = some a) : r = .ok a := by
  cases r with
  | error _ => cases passed
  | ok _ => cases passed; rfl

/-- A list of checks that passes has passed its first. -/
theorem ok_of_ite {p : Prop} [Decidable p] (passes : (if p then .error e else r) = .ok a) : ¬p ∧ r = .ok a := by
  by_cases fails : p
  · rw [if_pos fails] at passes
    cases passes
  · exact ⟨fails, (if_neg fails).symm.trans passes⟩

end

theorem teamOfNsid_of_nsCheck (passes : nsCheck s nsid = .ok tm) : teamOfNsid nsid = some tm := by
  unfold nsCheck at passes
  split at passes
  · cases passes
  next t named =>
    obtain ⟨-, passes⟩ := ok_of_ite passes
    split at passes
    · cases passes
      exact named
    · cases passes

theorem nsCheck_of_readCheck (passes : readCheck s nsid slba count = .ok tm) : nsCheck s nsid = .ok tm := by
  unfold readCheck at passes
  split at passes
  · cases passes
  next t named =>
    obtain ⟨-, passes⟩ := ok_of_ite passes
    obtain ⟨-, passes⟩ := ok_of_ite passes
    cases passes
    exact named

/-- A write that passes the checks begins at its zone's write pointer, and an append at its zone's start. -/
theorem slba_of_writeCheck (passes : writeCheck s nsid slba count append = .ok tm) :
    slba % 2 ^ 20 = if append then 0 else (zoneAt (nsAt s tm) (slba / 2 ^ 20)).wp := by
  unfold writeCheck at passes
  split at passes
  · cases passes
  · split at passes
    · cases passes
    · obtain ⟨-, passes⟩ := ok_of_ite passes
      obtain ⟨-, passes⟩ := ok_of_ite passes
      obtain ⟨start, passes⟩ := ok_of_ite passes
      obtain ⟨-, passes⟩ := ok_of_ite passes
      obtain ⟨-, passes⟩ := ok_of_ite passes
      obtain ⟨-, passes⟩ := ok_of_ite passes
      obtain ⟨-, passes⟩ := ok_of_ite passes
      obtain ⟨pointer, passes⟩ := ok_of_ite passes
      obtain ⟨-, passes⟩ := ok_of_ite passes
      cases passes
      cases append with
      | false => exact not_not.mp fun apart => pointer ⟨rfl, apart⟩
      | true => exact not_not.mp fun apart => start ⟨rfl, apart⟩

theorem list_fits (none' : x.list = none) (fits : x.data.all (fun off => decide (off + 4096 * count ≤ cmbBytes s.mem c.ctrl)) = true) :
    transferFails c.ctrl x count s = (false, s) := by
  have stays : x.data.any (fun off => decide (cmbBytes s.mem c.ctrl < off + 4096 * count)) = false := by
    cases stored : x.data with
    | none => rfl
    | some off =>
      rw [stored, Option.all_some, decide_eq_true_eq] at fits
      rw [Option.any_some]
      exact decide_eq_false (not_lt.mpr fits)
  unfold transferFails
  rw [stays, none', if_neg Bool.false_ne_true]
  rfl

theorem list_outside {d : Option Nat} (outside : cmbBytes s.mem c.ctrl < off + len) :
    transferFails c.ctrl ⟨some (off, len), d⟩ count s = (true, s) := by
  unfold transferFails
  split
  · rfl
  · exact if_pos outside

/-! ### Reads (R556) -/

/-- The flight of a Read at its admission. -/
def readFlight (c : CmdId) (nsid slba nlb : Nat) (x : Transfer) (tm : TeamId) (u : State) : Flight :=
  { newFlight c u.host.seq .read with
    nsid := nsid, slba := slba, count := nlb + 1, cls := queueClass u c, left := lbaRange slba (nlb + 1)
    above := if (nsAt u tm).built then
      (lbaRange slba (nlb + 1)).filter (fun l => decide ((zoneAt (nsAt u tm) (l / 2 ^ 20)).wp ≤ l % 2 ^ 20)) else []
    tick := u.ticks, cmb := x.data, viaCmb := x.data.isSome || x.list.isSome }

theorem readCommand_ok (passes : readCheck u nsid slba (nlb + 1) = .ok tm) (fits : transferFails c.ctrl x (nlb + 1) u = (false, u)) :
    readCommand c nsid slba nlb x u =
      waitOnHeldLanes c (serveZeros c (takeOff (readFlight c nsid slba nlb x tm u) (countDemand tm (nlb + 1) u))) := by
  unfold readCommand
  rw [passes, fits]
  rfl

theorem readCommand_error (bad : readCheck u nsid slba (nlb + 1) = .error e) : readCommand c nsid slba nlb x u = refuse c e u := by
  unfold readCommand
  rw [bad]

theorem readCommand_outside (passes : readCheck u nsid slba (nlb + 1) = .ok tm) (fails : transferFails c.ctrl x (nlb + 1) u = (true, u)) :
    readCommand c nsid slba nlb x u = refuse c (0, 4, none) u := by
  unfold readCommand
  rw [passes, fails]

/-- LBAs that read as zeros go out in their order. -/
theorem sent_foldl_putLba (host : f.cmb = none) (ls : List Nat) : (ls.foldl (fun a l => putLba c f l (zeroBytes 4096) 0 a) v).sent =
    (ls.map (fun l => Sent.lba c l (zeroBytes 4096) false)).reverse ++ v.sent := by
  induction ls generalizing v with
  | nil => rfl
  | cons l ls ih =>
    have one : (putLba c f l (zeroBytes 4096) 0 v).sent = .lba c l (zeroBytes 4096) false :: v.sent := by
      unfold putLba
      rw [host]
      rfl
    rw [List.foldl_cons, ih, one, List.map_cons, List.reverse_cons, List.append_assoc]
    rfl

theorem host_foldl_putLba (ls : List Nat) : (ls.foldl (fun a l => putLba c f l (zeroBytes 4096) 0 a) v).host = v.host := by
  induction ls generalizing v with
  | nil => rfl
  | cons l ls ih => exact ih.trans ((keeps_putLba (List.Subset.refl _) (.refl _ v)).frame .host (by decide))

theorem stallsOn_self : stallsOn f f = false := by simp [stallsOn]

/-- A Read alone in flight sends what reads as zeros, and keeps the rest. -/
theorem serveZeros_alone (alone : v.host.flights = [f]) (read : f.kind = .read) (team : teamOfNsid f.nsid = some tm) :
    serveZeros f.c v = setFlight f.c (fun g => { g with left := g.left.filter (fun l => !(f.left.filter (readsZero v tm f)).contains l) })
      ((f.left.filter (readsZero v tm f)).foldl (fun a l => putLba f.c f l (zeroBytes 4096) 0 a) v) := by
  have flight : flightOf v f.c = some f := by
    unfold flightOf
    rw [alone]
    exact List.find?_cons_of_pos (decide_eq_true rfl)
  have free : stalled v f = false := by
    unfold stalled
    rw [alone, List.any_cons, List.any_nil, stallsOn_self]
    rfl
  unfold serveZeros
  simp only [flight, read, team, free, Bool.false_eq_true, if_false]

theorem flights_setFlight_alone {g : Flight → Flight} (alone : v.host.flights = [f]) (own : f.c = c) :
    (setFlight c g v).host.flights = [g f] := by
  show v.host.flights.map _ = _
  rw [alone]
  exact congrArg (fun y => [y]) (if_pos own)

/-- What is in flight once a Read alone has been served: the Read without the LBAs that read as zeros. -/
theorem flights_serveZeros (alone : v.host.flights = [f]) (read : f.kind = .read) (team : teamOfNsid f.nsid = some tm) :
    (serveZeros f.c v).host.flights = [{ f with left := f.left.filter (fun l => !(f.left.filter (readsZero v tm f)).contains l) }] := by
  rw [serveZeros_alone alone read team]
  exact flights_setFlight_alone (by rw [host_foldl_putLba, alone]) rfl

theorem mem_sent_serveZeros (alone : v.host.flights = [f]) (read : f.kind = .read) (team : teamOfNsid f.nsid = some tm)
    (host : f.cmb = none) (mem : l ∈ f.left) (zero : readsZero v tm f l = true) :
    .lba f.c l (zeroBytes 4096) false ∈ (serveZeros f.c v).sent := by
  rw [serveZeros_alone alone read team]
  show _ ∈ (List.foldl _ v _).sent
  rw [sent_foldl_putLba host]
  exact List.mem_append_left _ (List.mem_reverse.mpr (List.mem_map_of_mem (List.mem_filter.mpr ⟨mem, zero⟩)))

/-- A Read alone in flight that has been served and waits on its lanes: of the LBAs above a write pointer, none is left. -/
theorem serveZeros_above (alone : v.host.flights = [f]) (read : f.kind = .read) (team : teamOfNsid f.nsid = some tm) :
    ∃ left waits, (waitOnHeldLanes f.c (serveZeros f.c v)).host.flights = [{ f with left := left, waits := waits }] ∧
      ∀ l ∈ f.left, l ∈ f.above → l ∉ left ∧
        (f.cmb = none → .lba f.c l (zeroBytes 4096) false ∈ (waitOnHeldLanes f.c (serveZeros f.c v)).sent) := by
  have served := flights_serveZeros alone read team
  refine ⟨f.left.filter (fun l => !(f.left.filter (readsZero v tm f)).contains l), _, flights_setFlight_alone served rfl, fun l mem above => ?_⟩
  have zero : readsZero v tm f l = true := by
    unfold readsZero
    rw [List.contains_iff_mem.mpr above]
    rfl
  refine ⟨fun left => ?_, fun host => mem_sent_serveZeros alone read team host mem zero⟩
  have kept := (List.mem_filter.mp left).2
  rw [Bool.not_eq_true'] at kept
  exact absurd (List.contains_iff_mem.mpr (List.mem_filter.mpr ⟨mem, zero⟩)) (Bool.eq_false_iff.mp kept)

theorem lanes_takeOff : (takeOff f v).lanes = v.lanes := by
  obtain ⟨reg, eq⟩ := takeOff_eq (s := v) (f := f)
  rw [eq]

theorem lanes_readCommand_ok : (waitOnHeldLanes c (serveZeros c v)).lanes = v.lanes :=
  ((keeps_waitOnHeldLanes (List.Subset.refl _) (.refl _ _)).frame .lanes (by decide)).trans
    ((keeps_serveZeros (List.Subset.refl _) (.refl _ _)).frame .lanes (by decide))

/-- A Read that passes the checks, with nothing else in flight. -/
theorem readCommand_serves (passes : readCheck u nsid slba (nlb + 1) = .ok tm) (fits : transferFails c.ctrl x (nlb + 1) u = (false, u))
    (alone : u.host.flights = []) (built : (nsAt u tm).built = true) :
    (readCommand c nsid slba nlb x u).host.flights.map (fun f => (f.c, f.kind, f.nsid, f.slba, f.count, f.cmb)) =
        [(c, .read, nsid, slba, nlb + 1, x.data)] ∧
      (∀ l ∈ lbaRange slba (nlb + 1), (zoneAt (nsAt u tm) (l / 2 ^ 20)).wp ≤ l % 2 ^ 20 →
        (x.data = none → .lba c l (List.replicate 4096 0) false ∈ (readCommand c nsid slba nlb x u).sent) ∧
          ∀ f ∈ (readCommand c nsid slba nlb x u).host.flights, l ∉ f.left) ∧
      (readCommand c nsid slba nlb x u).lanes = u.lanes := by
  have one : (takeOff (readFlight c nsid slba nlb x tm u) (countDemand tm (nlb + 1) u)).host.flights =
      [readFlight c nsid slba nlb x tm u] := by
    rw [host_takeOff]
    exact congrArg (· ++ _) alone
  have team := teamOfNsid_of_nsCheck (nsCheck_of_readCheck passes)
  rw [readCommand_ok passes fits]
  obtain ⟨left, waits, flights, zeros⟩ := serveZeros_above one rfl team
  refine ⟨(congrArg (List.map _) flights).trans rfl, fun l mem above => ?_, lanes_readCommand_ok.trans lanes_takeOff⟩
  have noted : l ∈ (readFlight c nsid slba nlb x tm u).above := by
    unfold readFlight
    rw [if_pos built]
    exact List.mem_filter.mpr ⟨mem, decide_eq_true above⟩
  obtain ⟨gone, out⟩ := zeros l mem noted
  refine ⟨out, fun g there => ?_⟩
  obtain rfl := List.mem_singleton.mp (flights ▸ there)
  exact gone

/-! ### Writes and appends (R553, R554, R565) -/

/-- The flight of a Write or Zone Append at its admission, from its first LBA. -/
def writeFlight (c : CmdId) (nsid first nlb : Nat) (append : Bool) (x : Transfer) (u : State) : Flight :=
  { newFlight c u.host.seq (if append then .append else .write) with
    nsid := nsid, slba := first, count := nlb + 1, cls := queueClass u c, left := lbaRange first (nlb + 1)
    dw0 := if append then first % 2 ^ 32 else 0, dw1 := if append then first / 2 ^ 32 else 0
    cmb := x.data, viaCmb := x.data.isSome || x.list.isSome }

/-- A zone that takes a write, opened. -/
def writtenZone (seq : Nat) (q : Zone) : Zone := { q with st := if q.isOpen then q.st else .implicit, used := seq }

/-- A namespace of which a zone has taken the LBAs of a write at its write pointer. -/
def written (tm : TeamId) (zn first nlb wp : Nat) (u : State) : State :=
  moveWp tm zn (wp + nlb + 1)
    (claim tm u.host.seq (lbaRange first (nlb + 1)) (setZone tm zn (writtenZone u.host.seq) u))

theorem openRoom_free (room : (zoneAt (nsAt u tm) zn).isOpen = true ∨ (openZones u < 128 ∧ activeZones u < 256)) :
    openRoom tm zn u = .ok u := by
  unfold openRoom
  dsimp only
  split_ifs with opened full few
  · rfl
  · rw [Bool.and_eq_true, decide_eq_true_eq] at full
    exact absurd full.2 (not_le.mpr (room.resolve_left opened).2)
  · rfl
  · exact absurd (room.resolve_left opened).1 few

theorem writeCommand_ok (passes : writeCheck u nsid slba (nlb + 1) append = .ok tm) (fits : transferFails c.ctrl x (nlb + 1) u = (false, u))
    (zone : zoneAt (nsAt u tm) (slba / 2 ^ 20) = z) (first : slba / 2 ^ 20 * 2 ^ 20 + z.wp = off)
    (room : z.isOpen = true ∨ (openZones u < 128 ∧ activeZones u < 256)) :
    writeCommand c nsid slba nlb append x u = waitOnHeldLanes c (markHeld tm (takeOff (writeFlight c nsid off nlb append x u)
      (countDemand tm (nlb + 1) (written tm (slba / 2 ^ 20) off nlb z.wp u)))) := by
  unfold writeCommand openForWrite
  rw [passes, fits]
  dsimp only
  rw [openRoom_free (by rwa [zone])]
  dsimp only
  rw [zone, first]
  rfl

theorem writeCommand_error (bad : writeCheck u nsid slba (nlb + 1) append = .error e) :
    writeCommand c nsid slba nlb append x u = refuse c e u := by
  unfold writeCommand
  rw [bad]

theorem writeCommand_outside (passes : writeCheck u nsid slba (nlb + 1) append = .ok tm)
    (fails : transferFails c.ctrl x (nlb + 1) u = (true, u)) : writeCommand c nsid slba nlb append x u = refuse c (0, 4, none) u := by
  unfold writeCommand
  rw [passes, fails]

theorem keeps_written {wp : Nat} : Keeps [.teams] u (written tm zn off nlb wp u) :=
  keeps_moveWp (List.Subset.refl _) (keeps_claim (List.Subset.refl _) (keeps_setZone (List.Subset.refl _) (.refl _ u)))

/-- The zone's write pointer advances, and the zone is open or Full. -/
theorem zoneAt_written (zone : zoneAt (nsAt u tm) zn = z) : zoneAt (nsAt (written tm zn off nlb z.wp u) tm) zn =
    { writtenZone u.host.seq z with
      wp := z.wp + nlb + 1
      st := if 2 ^ 20 ≤ z.wp + nlb + 1 then .full else (writtenZone u.host.seq z).st } := by
  unfold written moveWp
  rw [zoneAt_setZone, zoneAt_congr (zones_claim _), zoneAt_setZone, zone]

theorem flightOf_congr (host : v.host = u.host) : flightOf v c = flightOf u c := by
  unfold flightOf
  rw [host]

theorem flightOf_waitOnHeldLanes (flight : flightOf v c = some f) :
    ∃ waits, flightOf (waitOnHeldLanes c v) c = some { f with waits := waits } := by
  unfold waitOnHeldLanes
  rw [flightOf_setFlight, flight]
  · exact ⟨_, rfl⟩
  · exact fun _ => rfl

/-- A write that its zone takes is in flight, and nothing is sent for it yet. -/
theorem writeCommand_admits (passes : writeCheck u nsid slba (nlb + 1) append = .ok tm) (fits : transferFails c.ctrl x (nlb + 1) u = (false, u))
    (zone : zoneAt (nsAt u tm) (slba / 2 ^ 20) = z) (first : slba / 2 ^ 20 * 2 ^ 20 + z.wp = off)
    (room : z.isOpen = true ∨ (openZones u < 128 ∧ activeZones u < 256)) (unseen : flightOf u c = none) :
    (∃ tick waits, flightOf (writeCommand c nsid slba nlb append x u) c =
        some { writeFlight c nsid off nlb append x u with tick := tick, waits := waits }) ∧
      zoneAt (nsAt (writeCommand c nsid slba nlb append x u) tm) (slba / 2 ^ 20) =
        zoneAt (nsAt (written tm (slba / 2 ^ 20) off nlb z.wp u) tm) (slba / 2 ^ 20) ∧
      (writeCommand c nsid slba nlb append x u).sent = u.sent := by
  rw [writeCommand_ok passes fits zone first room]
  have kept : Keeps [.teams] u (countDemand tm (nlb + 1) (written tm (slba / 2 ^ 20) off nlb z.wp u)) :=
    keeps_countDemand (List.Subset.refl _) keeps_written
  refine ⟨?_, ?_, ?_⟩
  · have free : flightOf (countDemand tm (nlb + 1) (written tm (slba / 2 ^ 20) off nlb z.wp u)) (writeFlight c nsid off nlb append x u).c = none :=
      (flightOf_congr (kept.frame .host (by decide))).trans unseen
    have flight := (flightOf_congr ((keeps_markHeld (t := tm) (List.Subset.refl _) (.refl _ _)).frame .host (by decide))).trans
      (flightOf_takeOff free)
    obtain ⟨waits, waiting⟩ := flightOf_waitOnHeldLanes (c := c) flight
    exact ⟨_, waits, waiting⟩
  · refine zoneAt_congr ?_
    show (nsAt (markHeld tm _) tm).zones = _
    rw [zones_markHeld, nsAt_congr teams_takeOff, zones_countDemand]
  · refine ((keeps_waitOnHeldLanes (List.Subset.refl _) (.refl _ _)).frame .sent (by decide)).trans ?_
    refine ((keeps_markHeld (List.Subset.refl _) (.refl _ _)).frame .sent (by decide)).trans ?_
    exact sent_takeOff.trans (kept.frame .sent (by decide))

end Sys2Proof.Machine
end

section
/-! PROOFS. Flush, the zone commands and the report of the zones (R553, R558, R567, R581). -/

namespace Sys2Proof.Machine

variable {s t u v : State} {c : CmdId} {p : PortId} {f : Flight} {tm : TeamId} {e st : Nat × Nat × Option Bool} {m : Sent}
  {nsid slba zn option numd : Nat} {part : Bool} {z : Zone}

/-! ### What is sent before a completion stays sent (R579) -/

theorem mem_sent_cqTake {q : CompQueue} {x : CqEntry} (mem : m ∈ u.sent) : m ∈ (cqTake p q x u).sent := by
  unfold cqTake
  dsimp only
  split
  · exact List.mem_cons_of_mem _ (List.mem_cons_of_mem _ mem)
  · exact List.mem_cons_of_mem _ mem

theorem mem_sent_cqPut {id : Nat} {x : CqEntry} (mem : m ∈ u.sent) : m ∈ (cqPut p id x u).sent := by
  unfold cqPut
  split
  · exact mem
  · split
    · exact mem
    · exact mem_sent_cqTake mem

theorem mem_sent_postAt {lba nsid sct sc dw0 dw1 : Nat} {dnr : Option Bool} (mem : m ∈ u.sent) :
    m ∈ (postAt lba nsid c sct sc dnr dw0 dw1 u).sent := by
  unfold postAt
  dsimp only
  split
  · refine mem_sent_cqPut ?_
    split <;> exact mem
  · split <;> exact mem

theorem sent_removeFlight : (removeFlight c u).sent = u.sent :=
  (keeps_removeFlight (List.Subset.refl _) (.refl _ u)).frame .sent (by decide)

theorem mem_sent_commitFlight (loud : f.silent = false) (mem : m ∈ u.sent) : m ∈ (commitFlight f st u).sent := by
  unfold commitFlight
  dsimp only
  rw [loud, if_neg Bool.false_ne_true]
  refine mem_sent_postAt ?_
  rwa [sent_removeFlight]

/-! ### A command that is put in flight and completes at once (R564, R579) -/

/-- A command of a free identifier that nothing holds up. -/
structure Unhindered (f : Flight) (v : State) : Prop where
  unseen : flightOf v f.c = none
  free : IoFree v f.c
  running : v.host.frozen = false
  loud : f.silent = false
  still : f.committing = false

theorem Unhindered.congr (open' : Unhindered f u) (host : v.host = u.host) (pair : v.pair = u.pair) : Unhindered f v := by
  obtain ⟨unseen, free, running, loud, still⟩ := open'
  exact ⟨(flightOf_congr host).trans unseen, free.of_ctrls (by rw [host]) pair, by rwa [host], loud, still⟩

theorem Unhindered.keeps {Kp : List Part} (open' : Unhindered f u) (kept : Keeps Kp u v) (host : .host ∉ Kp) (pair : .pair ∉ Kp) :
    Unhindered f v :=
  open'.congr (kept.frame .host host) (kept.frame .pair pair)

theorem unhindered_fetched (ready : ioOpen s f.c = true) (loud : f.silent = false) (still : f.committing = false) :
    Unhindered f (fetched s f.c) := by
  obtain ⟨next, unused, -⟩ := ioOpen_iff.mp ready
  exact ⟨(busyId_eq_false.mp unused).1, ioFree_fetched ready, running_of_canFetch (s := s) next, loud, still⟩

theorem tryComplete_takeOff (open' : Unhindered f v) (due : dueStatus (takeOff f v) { f with tick := v.ticks } = some st) :
    tryComplete f.c (takeOff f v) = commitFlight { f with tick := v.ticks } st (takeOff f v) := by
  obtain ⟨unseen, free, running, loud, still⟩ := open'
  have alone : needsAck (takeOff f v) = false := by
    obtain ⟨reg, eq⟩ := takeOff_eq (s := v) (f := f)
    rw [eq]
    exact free.alone
  exact tryComplete_due (flightOf_takeOff unseen) still (by rw [host_takeOff]; exact running) due alone

theorem ioFree_takeOff (free : IoFree v c) : IoFree (takeOff f v) c := by
  obtain ⟨reg, eq⟩ := takeOff_eq (s := v) (f := f)
  rw [eq]
  exact free.of_ctrls rfl rfl

/-- It completes with its status, takes nothing else from flight and leaves the zones as they are. -/
theorem complete_takeOff (own : f.c = c) (open' : Unhindered f v) (due : dueStatus (takeOff f v) { f with tick := v.ticks } = some st) :
    ioDone (tryComplete c (takeOff f v)) c st f.dw0 f.dw1 ∧ (v.host.flights = [] → (tryComplete c (takeOff f v)).host.flights = []) ∧
      (∀ tm, nsAt (tryComplete c (takeOff f v)) tm = nsAt (removeFlight c (takeOff f v)) tm) ∧
      ∀ m ∈ v.sent, m ∈ (tryComplete c (takeOff f v)).sent := by
  subst own
  rw [tryComplete_takeOff open' due]
  obtain ⟨done, flights, teams⟩ := commitFlight_free (f := { f with tick := v.ticks }) (st := st) (ioFree_takeOff (f := f) open'.free) open'.loud
  refine ⟨done, fun alone => flights.trans ?_, fun tm => nsAt_congr teams, fun m mem => mem_sent_commitFlight open'.loud ?_⟩
  · rw [host_takeOff]
    dsimp only
    rw [alone]
    exact List.filter_cons_of_neg (by simp)
  · rwa [sent_takeOff]

/-- The zones that stand once a command has been put in flight and completed are those before. -/
theorem zones_complete_takeOff (ns : nsAt u tm = nsAt (removeFlight c (takeOff f v)) tm) : (nsAt u tm).zones = (nsAt v tm).zones := by
  rw [ns, zones_removeFlight, nsAt_congr teams_takeOff]

/-- Nothing that writes is in flight before a command that is alone. -/
theorem earlierWrites_alone {zone : Option Nat} (alone : v.host.flights = []) (reads : f.writes = false) :
    earlierWrites (takeOff f v) { f with tick := v.ticks } zone = false := by
  unfold earlierWrites
  rw [host_takeOff]
  dsimp only
  rw [alone, List.nil_append, List.any_cons, List.any_nil]
  have reads' : Flight.writes { f with tick := v.ticks } = false := reads
  rw [reads', Bool.false_and, Bool.false_and, Bool.false_and, Bool.false_or]

/-! ### Flush (R581) -/

/-- The flight of a Flush. -/
def flushFlight (c : CmdId) (nsid : Nat) (u : State) : Flight :=
  { newFlight c u.host.seq .flush with nsid := nsid, cls := queueClass u c }

theorem flushCommand_ok (passes : nsCheck u nsid = .ok tm) :
    flushCommand c nsid u = tryComplete c (takeOff (flushFlight c nsid u) (markHeld tm (sealAll tm u))) := by
  have named := teamOfNsid_of_nsCheck passes
  have own : nsid ≠ 0xFFFFFFFF := by
    rintro rfl
    cases named
  unfold flushCommand flushTeams
  simp only [own, passes, named, if_false, List.foldl_cons, List.foldl_nil, flushFlight]

theorem flushCommand_seals (ready : ioOpen s c = true) (passes : nsCheck s nsid = .ok tm) (alone : s.host.flights = [])
    (rising : ((nsAt s tm).extents.map (fun p => p.1)).Pairwise (· < ·)) :
    (flushCommand c nsid (fetched s c)).host.flights = [] ∧ ioDone (flushCommand c nsid (fetched s c)) c (0, 0, none) 0 0 ∧
      openExtents (nsAt (flushCommand c nsid (fetched s c)) tm) = [] := by
  have kept : Keeps [.teams] (fetched s c) (markHeld tm (sealAll tm (fetched s c))) :=
    keeps_markHeld (List.Subset.refl _) (keeps_sealAll (List.Subset.refl _) (.refl _ _))
  have open' := (unhindered_fetched (f := flushFlight c nsid (fetched s c)) ready rfl rfl).keeps kept (by decide) (by decide)
  have alone' : (markHeld tm (sealAll tm (fetched s c))).host.flights = [] := by
    rw [kept.frame .host (by decide)]
    exact alone
  have due : dueStatus (takeOff (flushFlight c nsid (fetched s c)) (markHeld tm (sealAll tm (fetched s c))))
      { flushFlight c nsid (fetched s c) with tick := (markHeld tm (sealAll tm (fetched s c))).ticks } = some (0, 0, none) :=
    if_neg (Bool.eq_false_iff.mp (earlierWrites_alone alone' rfl))
  rw [flushCommand_ok (nsCheck_fetched.trans passes)]
  obtain ⟨done, flights, ns, -⟩ := complete_takeOff (c := c) rfl open' due
  refine ⟨flights alone', done, ?_⟩
  rw [ns]
  refine openExtents_removeFlight ?_
  rw [nsAt_congr teams_takeOff]
  refine openExtents_markHeld (openExtents_sealAll ?_)
  rw [nsAt_fetched]
  exact mapSorted_of_pairwise rising

/-! ### Zones opened, closed and finished (R553, R557, R558) -/

section
variable {p : Zone → Bool} {g : TeamId → Nat → State → Except (Nat × Nat × Option Bool) State}

/-- A zone action that is refused. -/
theorem zoneSendNow_refused (free : IoFree u c) (passes : zoneCheck u nsid slba false = .ok tm) (bad : g tm (slba / 2 ^ 20) u = .error e) :
    (zoneSendNow c nsid slba false p g u).teams = u.teams ∧ ioDone (zoneSendNow c nsid slba false p g u) c e 0 0 := by
  have refused : zoneSendNow c nsid slba false p g u = refuse c e u := by
    unfold zoneSendNow
    simp only [passes, Bool.false_eq_true, if_false, bad]
  rw [refused]
  obtain ⟨done, -, teams⟩ := refuse_io (e := e) free
  exact ⟨teams, done⟩

/-- A zone action that stands at admission. -/
theorem zoneSendNow_done (free : IoFree u c) (passes : zoneCheck u nsid slba false = .ok tm) (ok : g tm (slba / 2 ^ 20) u = .ok v)
    (kept : Keeps [.teams] u v) :
    zoneAt (nsAt (zoneSendNow c nsid slba false p g u) tm) zn = zoneAt (nsAt v tm) zn ∧
      ioDone (zoneSendNow c nsid slba false p g u) c (0, 0, none) 0 0 := by
  have taken : zoneSendNow c nsid slba false p g u = succeed c (admitted (markHeld tm v)) := by
    unfold zoneSendNow
    simp only [passes, Bool.false_eq_true, if_false, ok]
  rw [taken]
  have kept' : Keeps [.teams] u (markHeld tm v) := keeps_markHeld (List.Subset.refl _) kept
  have free' : IoFree (markHeld tm v) c := free.of_ctrls (by rw [kept'.frame .host (by decide)]) (kept'.frame .pair (by decide))
  obtain ⟨done, teams⟩ := succeed_io free'
  refine ⟨zoneAt_congr ?_, done⟩
  rw [nsAt_congr teams, zones_markHeld]

end

/-- A zone that may be opened is opened explicitly. -/
theorem openZone_ok (zone : zoneAt (nsAt u tm) zn = z) (full : z.st ≠ .full) (live : z.st ≠ .readOnly)
    (low : emptyBelow (nsAt u tm) zn = false) (few : openZones u < 128) (room : activeZones u < 256) :
    ∃ v, openZone tm zn u = .ok v ∧ Keeps [.teams] u v ∧ zoneAt (nsAt v tm) zn = { z with st := .explicit } := by
  subst zone
  unfold openZone
  dsimp only
  rw [if_neg (not_or.mpr ⟨full, live⟩), low, if_neg Bool.false_ne_true]
  split
  next done => exact ⟨u, rfl, .refl _ u, by rw [← done]⟩
  next =>
    rw [openRoom_free (.inr ⟨few, room⟩)]
    exact ⟨_, rfl, keeps_setZone (List.Subset.refl _) (.refl _ u), zoneAt_setZone⟩

/-- A Full or Read Only zone is not opened. -/
theorem openZone_error (zone : zoneAt (nsAt u tm) zn = z) (shut : z.st = .full ∨ z.st = .readOnly) :
    openZone tm zn u = .error (1, 0xBF, none) := by
  subst zone
  unfold openZone
  exact if_pos shut

theorem closeZoneAsked_ok (zone : zoneAt (nsAt u tm) zn = z) (opened : z.isOpen = true) :
    closeZoneAsked tm zn u = .ok (closeZone tm zn u) := by
  subst zone
  unfold closeZoneAsked
  exact if_pos opened

/-- A zone closed: Empty again where nothing is written in it. -/
def closedZone (q : Zone) : Zone := { q with st := if q.wp = 0 then .empty else .closed }

theorem zoneAt_closeZone : zoneAt (nsAt (closeZone tm zn u) tm) zn = closedZone (zoneAt (nsAt u tm) zn) := zoneAt_setZone

/-- A zone that is neither open nor Closed is not closed. -/
theorem closeZoneAsked_error (zone : zoneAt (nsAt u tm) zn = z) (shut : z.isOpen = false) (other : z.st ≠ .closed) :
    closeZoneAsked tm zn u = .error (1, 0xBF, none) := by
  subst zone
  unfold closeZoneAsked
  dsimp only
  rw [shut, if_neg Bool.false_ne_true, if_neg other]

/-- A zone that may be finished is Full. -/
theorem finishZone_ok (zone : zoneAt (nsAt u tm) zn = z) (live : z.st ≠ .readOnly) :
    ∃ v, finishZone tm zn u = .ok v ∧ Keeps [.teams] u v ∧ (zoneAt (nsAt v tm) zn).st = .full ∧
      (zoneAt (nsAt v tm) zn).wp = if z.st = .full then z.wp else 2 ^ 20 := by
  subst zone
  unfold finishZone
  dsimp only
  rw [if_neg live]
  split
  next full => exact ⟨u, rfl, .refl _ u, full, rfl⟩
  next => exact ⟨_, rfl, keeps_fillZone (List.Subset.refl _) (.refl _ u), zoneAt_fillZone.1, zoneAt_fillZone.2⟩

/-- The flight of a Zone Finish of one zone. -/
def finishFlight (c : CmdId) (nsid slba : Nat) (u : State) : Flight :=
  { newFlight c u.host.seq (.zoneSend (some (slba / 2 ^ 20))) with nsid := nsid, slba := slba, cls := queueClass u c }

theorem zoneFinishCommand_ok (passes : zoneCheck u nsid slba false = .ok tm) (ok : finishZone tm (slba / 2 ^ 20) u = .ok v) :
    zoneFinishCommand c nsid slba false u = tryComplete c (takeOff (finishFlight c nsid slba u) (markHeld tm v)) := by
  unfold zoneFinishCommand
  simp only [passes, Bool.false_eq_true, if_false, ok, finishFlight]

theorem zoneFinishCommand_finishes (ready : ioOpen s c = true) (passes : zoneCheck s nsid slba false = .ok tm)
    (zone : zoneAt (nsAt s tm) (slba / 2 ^ 20) = z) (live : z.st ≠ .readOnly) (alone : s.host.flights = []) :
    (zoneAt (nsAt (zoneFinishCommand c nsid slba false (fetched s c)) tm) (slba / 2 ^ 20)).st = .full ∧
      (zoneAt (nsAt (zoneFinishCommand c nsid slba false (fetched s c)) tm) (slba / 2 ^ 20)).wp =
        (if z.st = .full then z.wp else 2 ^ 20) ∧
      ioDone (zoneFinishCommand c nsid slba false (fetched s c)) c (0, 0, none) 0 0 := by
  obtain ⟨v, ok, kept, full, wp⟩ := finishZone_ok (u := fetched s c) (by rw [nsAt_fetched, zone]) live
  have kept' : Keeps [.teams] (fetched s c) (markHeld tm v) := keeps_markHeld (List.Subset.refl _) kept
  have open' := (unhindered_fetched (f := finishFlight c nsid slba (fetched s c)) ready rfl rfl).keeps kept' (by decide) (by decide)
  have alone' : (markHeld tm v).host.flights = [] := by
    rw [kept'.frame .host (by decide)]
    exact alone
  have due : dueStatus (takeOff (finishFlight c nsid slba (fetched s c)) (markHeld tm v))
      { finishFlight c nsid slba (fetched s c) with tick := (markHeld tm v).ticks } = some (0, 0, none) :=
    if_neg (Bool.eq_false_iff.mp (earlierWrites_alone alone' rfl))
  rw [zoneFinishCommand_ok (zoneCheck_fetched.trans passes) ok]
  obtain ⟨done, -, ns, -⟩ := complete_takeOff (c := c) rfl open' due
  have finished : zoneAt (nsAt (tryComplete c (takeOff (finishFlight c nsid slba (fetched s c)) (markHeld tm v))) tm) (slba / 2 ^ 20) =
      zoneAt (nsAt v tm) (slba / 2 ^ 20) := by
    refine zoneAt_congr ?_
    rw [zones_complete_takeOff (ns tm), zones_markHeld]
  rw [finished]
  exact ⟨full, wp, done⟩

/-- A zone action that is not supported is refused. -/
theorem zoneUnsupported_refused (free : IoFree u c) (passes : nsCheck u nsid = .ok tm) :
    (zoneUnsupported c nsid u).teams = u.teams ∧ ioDone (zoneUnsupported c nsid u) c (0, 2, none) 0 0 := by
  have refused : zoneUnsupported c nsid u = refuse c (0, 2, none) u := by
    unfold zoneUnsupported
    rw [passes]
  rw [refused]
  obtain ⟨done, -, teams⟩ := refuse_io (e := (0, 2, none)) free
  exact ⟨teams, done⟩

/-! ### The report of the zones (R567) -/

/-- The flight of a Zone Management Receive. -/
def receiveFlight (c : CmdId) (nsid slba : Nat) (u : State) : Flight :=
  { newFlight c u.host.seq .zoneReceive with nsid := nsid, slba := slba, cls := queueClass u c }

theorem zoneReceive_ok (passes : nsCheck u nsid = .ok tm) (built : (nsAt u tm).built = true) (within : slba < nsSize (nsAt u tm))
    (known : option ≤ 7) (short : numd < 2 ^ 18) :
    zoneReceive c nsid slba option numd part u =
      tryComplete c (takeOff (receiveFlight c nsid slba u) (send (.data c (zoneReport (nsAt u tm) slba option (4 * (numd + 1)) part)) u)) := by
  have inside : ¬(7 < option ∨ 2 ^ 18 < numd + 1) := not_or.mpr ⟨not_lt.mpr known, not_lt.mpr short⟩
  unfold zoneReceive builtCheck
  rw [passes]
  dsimp only
  rw [built, if_pos rfl]
  dsimp only
  rw [if_neg (not_le.mpr within), if_neg inside]
  rfl

/-- A report that is sent, and the command completed. -/
theorem receive_completes {data : Bytes} (ready : ioOpen s c = true) :
    ioDone (tryComplete c (takeOff (receiveFlight c nsid slba (fetched s c)) (send (.data c data) (fetched s c)))) c (0, 0, none) 0 0 ∧
      .data c data ∈ (tryComplete c (takeOff (receiveFlight c nsid slba (fetched s c)) (send (.data c data) (fetched s c)))).sent ∧
      (nsAt (tryComplete c (takeOff (receiveFlight c nsid slba (fetched s c)) (send (.data c data) (fetched s c)))) tm).zones =
        (nsAt s tm).zones := by
  have open' := (unhindered_fetched (f := receiveFlight c nsid slba (fetched s c)) ready rfl rfl).congr
    (v := send (.data c data) (fetched s c)) rfl rfl
  have due : dueStatus (takeOff (receiveFlight c nsid slba (fetched s c)) (send (.data c data) (fetched s c)))
      { receiveFlight c nsid slba (fetched s c) with tick := (send (.data c data) (fetched s c)).ticks } = some (0, 0, none) := rfl
  obtain ⟨done, -, ns, sent⟩ := complete_takeOff (c := c) rfl open' due
  have zones := zones_complete_takeOff (ns tm)
  exact ⟨done, sent _ List.mem_cons_self, zones⟩

end Sys2Proof.Machine
end

section
/-! PROOFS. The commands of a namespace (R554, R556, R558, R567, R581). -/

namespace Sys2Proof.Machine

variable {s t u v : State} {c : CmdId} {f : Flight} {tm : TeamId} {e : Nat × Nat × Option Bool}
  {nsid slba nlb off len first : Nat} {x : Transfer} {append : Bool} {z : Zone}

/-- An I/O command that is taken up does what its body does. -/
theorem exec_fetch {i : Instr} {k : State → State} (arm : exec i s = .next (fetch c k s)) (ready : ioOpen s c = true) :
    exec i s = .next (k (fetched s c)) := by
  rw [arm, fetch_open ready]

/-- A command taken up whose namespace or LBAs fail a check. -/
theorem refuse_fetched_io (ready : ioOpen s c = true) : ioDone (refuse c e (fetched s c)) c e 0 0 ∧
    (refuse c e (fetched s c)).host.flights = s.host.flights ∧ (refuse c e (fetched s c)).teams = s.teams :=
  refuse_io (ioFree_fetched ready)

/-- A Read taken up, with nothing else in flight. -/
theorem readCommand_taken (ready : ioOpen s c = true) (passes : readCheck s nsid slba (nlb + 1) = .ok tm) (none' : x.list = none)
    (fits : x.data.all (fun off => decide (off + 4096 * (nlb + 1) ≤ cmbBytes s.mem c.ctrl)) = true) (alone : s.host.flights = [])
    (built : (nsAt s tm).built = true) : ∃ t, exec (.read c nsid slba nlb x) s = .next t ∧
      t.host.flights.map (fun f => (f.c, f.kind, f.nsid, f.slba, f.count, f.cmb)) = [(c, .read, nsid, slba, nlb + 1, x.data)] ∧
      (∀ l ∈ lbaRange slba (nlb + 1), (zoneAt (nsAt s tm) (l / 2 ^ 20)).wp ≤ l % 2 ^ 20 →
        (x.data = none → .lba c l (List.replicate 4096 0) false ∈ t.sent) ∧ ∀ f ∈ t.host.flights, l ∉ f.left) ∧
      t.lanes = s.lanes := by
  have served := readCommand_serves (u := fetched s c) (readCheck_fetched.trans passes) (list_fits none' fits) alone (by rwa [nsAt_fetched])
  rw [nsAt_fetched] at served
  exact ⟨_, exec_fetch rfl ready, served⟩

/-- A Write or Zone Append that its zone takes, from its first LBA. -/
theorem writeCommand_taken (ready : ioOpen s c = true) (passes : writeCheck s nsid slba (nlb + 1) append = .ok tm) (none' : x.list = none)
    (fits : x.data.all (fun off => decide (off + 4096 * (nlb + 1) ≤ cmbBytes s.mem c.ctrl)) = true)
    (zone : zoneAt (nsAt s tm) (slba / 2 ^ 20) = z) (start : slba / 2 ^ 20 * 2 ^ 20 + z.wp = first)
    (room : z.isOpen = true ∨ (openZones s < 128 ∧ activeZones s < 256)) :
    (flightOf (writeCommand c nsid slba nlb append x (fetched s c)) c).map (fun f => (f.nsid, f.slba, f.count, f.left, f.dw0, f.dw1, f.cmb)) =
        some (nsid, first, nlb + 1, lbaRange first (nlb + 1), if append then first % 2 ^ 32 else 0, if append then first / 2 ^ 32 else 0, x.data) ∧
      (zoneAt (nsAt (writeCommand c nsid slba nlb append x (fetched s c)) tm) (slba / 2 ^ 20)).wp = z.wp + nlb + 1 ∧
      (zoneAt (nsAt (writeCommand c nsid slba nlb append x (fetched s c)) tm) (slba / 2 ^ 20)).st =
        (if 2 ^ 20 ≤ z.wp + nlb + 1 then .full else if z.isOpen then z.st else .implicit) ∧
      (writeCommand c nsid slba nlb append x (fetched s c)).sent = s.sent := by
  obtain ⟨-, unused, -⟩ := ioOpen_iff.mp ready
  have zone' : zoneAt (nsAt (fetched s c) tm) (slba / 2 ^ 20) = z := by rw [nsAt_fetched, zone]
  have room' : z.isOpen = true ∨ (openZones (fetched s c) < 128 ∧ activeZones (fetched s c) < 256) := by
    rwa [openZones_fetched, activeZones_fetched]
  obtain ⟨⟨tick, waits, flight⟩, taken, sent⟩ := writeCommand_admits (x := x) (writeCheck_fetched.trans passes) (list_fits none' fits) zone'
    start room' (busyId_eq_false.mp unused).1
  rw [taken, zoneAt_written zone', flight]
  exact ⟨rfl, rfl, rfl, sent⟩

/-- An LBA from its zone's start. -/
theorem zone_start : slba / 2 ^ 20 * 2 ^ 20 + slba % 2 ^ 20 = slba := by
  rw [mul_comm]
  exact Nat.div_add_mod slba (2 ^ 20)

/-- Settles O48: a command of a free identifier is taken up (`fetch_open`), and a clause is what its body does from there: a refusal
(`refuse_io`), a Read served (`readCommand_serves`), a write that its zone takes (`writeCommand_taken`), or a command put in flight
that completes at once (`complete_takeOff`). -/
theorem hostCommandsServed : Obligations.HostCommandsServed := by
  unfold Obligations.HostCommandsServed
  refine ⟨?_, ?_, ?_, ?_, ?_, ?_, ?_, ?_, ?_, ?_, ?_, ?_, ?_, ?_, ?_⟩
  · intro c nsid slba nlb x tm s ready passes none' fits alone built
    exact readCommand_taken ready (eq_ok_of_toOption passes) none' fits alone built
  · intro c nsid slba nlb x e s ready bad
    obtain ⟨done, flights, -⟩ := refuse_fetched_io (e := e) ready
    exact ⟨_, (exec_fetch rfl ready).trans (congrArg _ (readCommand_error (readCheck_fetched.trans bad))), flights, done⟩
  · intro c nsid slba nlb x tm z s ready passes none' fits zone room
    have passes' := eq_ok_of_toOption passes
    have start := slba_of_writeCheck passes'
    rw [if_neg Bool.false_ne_true, zone] at start
    exact ⟨_, exec_fetch rfl ready, writeCommand_taken ready passes' none' fits zone (by rw [← start, zone_start]) room⟩
  · intro c nsid slba nlb x tm z s ready passes none' fits zone room
    have passes' := eq_ok_of_toOption passes
    have start := slba_of_writeCheck passes'
    rw [if_pos rfl] at start
    have first : slba / 2 ^ 20 * 2 ^ 20 + z.wp = slba + z.wp := by
      conv_rhs => rw [← zone_start (slba := slba), start, Nat.add_zero]
    exact ⟨_, exec_fetch rfl ready, writeCommand_taken ready passes' none' fits zone first room⟩
  · intro c nsid slba nlb x e s ready bad
    obtain ⟨done, flights, teams⟩ := refuse_fetched_io (e := e) ready
    exact ⟨_, (exec_fetch rfl ready).trans (congrArg _ (writeCommand_error (writeCheck_fetched.trans bad))), teams, flights, done⟩
  · intro c nsid slba nlb x e s ready bad
    obtain ⟨done, flights, teams⟩ := refuse_fetched_io (e := e) ready
    exact ⟨_, (exec_fetch rfl ready).trans (congrArg _ (writeCommand_error (writeCheck_fetched.trans bad))), teams, flights, done⟩
  · intro c nsid slba nlb off len a b d s ready outside read write
    obtain ⟨done, flights, teams⟩ := refuse_fetched_io (e := (0, 4, none)) ready
    have read' := readCommand_outside (u := fetched s c) (readCheck_fetched.trans (eq_ok_of_toOption read)) (list_outside (d := d) outside)
    have write' := writeCommand_outside (u := fetched s c) (writeCheck_fetched.trans (eq_ok_of_toOption write)) (list_outside (d := d) outside)
    exact ⟨⟨_, (exec_fetch rfl ready).trans (congrArg _ read'), teams, flights, done⟩,
      ⟨_, (exec_fetch rfl ready).trans (congrArg _ write'), teams, flights, done⟩⟩
  · intro c nsid tm s ready passes alone rising
    exact ⟨_, exec_fetch rfl ready, flushCommand_seals ready passes alone rising⟩
  · intro c nsid slba tm z s ready passes zone full live low few room
    obtain ⟨v, ok, kept, opened⟩ := openZone_ok (u := fetched s c) (by rw [nsAt_fetched, zone]) full live (by rwa [nsAt_fetched])
      (by rwa [openZones_fetched]) (by rwa [activeZones_fetched])
    obtain ⟨stands, done⟩ := zoneSendNow_done (ioFree_fetched ready) (zoneCheck_fetched.trans (eq_ok_of_toOption passes)) ok kept
    exact ⟨_, exec_fetch rfl ready, stands.trans opened, done⟩
  · intro c nsid slba tm z s ready passes zone shut
    have refused := openZone_error (u := fetched s c) (by rw [nsAt_fetched, zone]) shut
    exact ⟨_, exec_fetch rfl ready,
      zoneSendNow_refused (ioFree_fetched ready) (zoneCheck_fetched.trans (eq_ok_of_toOption passes)) refused⟩
  · intro c nsid slba tm z s ready passes zone opened
    have zone' : zoneAt (nsAt (fetched s c) tm) (slba / 2 ^ 20) = z := by rw [nsAt_fetched, zone]
    obtain ⟨stands, done⟩ := zoneSendNow_done (ioFree_fetched ready) (zoneCheck_fetched.trans (eq_ok_of_toOption passes))
      (closeZoneAsked_ok zone' opened) (keeps_closeZone (List.Subset.refl _) (.refl _ _))
    have closed := (zoneAt_closeZone (tm := tm)).trans (congrArg closedZone zone')
    exact ⟨_, exec_fetch rfl ready, stands.trans closed, done⟩
  · intro c nsid slba tm z s ready passes zone shut other
    have refused := closeZoneAsked_error (u := fetched s c) (by rw [nsAt_fetched, zone]) shut other
    exact ⟨_, exec_fetch rfl ready,
      zoneSendNow_refused (ioFree_fetched ready) (zoneCheck_fetched.trans (eq_ok_of_toOption passes)) refused⟩
  · intro c nsid slba tm z s ready passes zone live alone
    exact ⟨_, exec_fetch rfl ready, zoneFinishCommand_finishes ready (eq_ok_of_toOption passes) zone live alone⟩
  · intro c nsid slba all tm s ready passes
    have refused := zoneUnsupported_refused (ioFree_fetched ready) (nsCheck_fetched.trans passes)
    exact ⟨⟨_, exec_fetch rfl ready, refused⟩, ⟨_, exec_fetch rfl ready, refused⟩, ⟨_, exec_fetch rfl ready, refused⟩⟩
  · intro c nsid slba option numd part tm s ready passes built within known short
    have reported := zoneReceive_ok (c := c) (part := part) (u := fetched s c) (nsCheck_fetched.trans passes) (by rwa [nsAt_fetched])
      (by rwa [nsAt_fetched]) known short
    rw [nsAt_fetched] at reported
    exact ⟨_, (exec_fetch rfl ready).trans (congrArg _ reported), receive_completes ready⟩

end Sys2Proof.Machine
end

section
/-! PROOFS. DRIVE and LASER statuses, the SIDEBAND bus, and the JTAG and MGMT ports (R784 to R786, R793 to R803). -/

namespace Sys2Proof.Machine

variable {s t : State} {n : LaneId} {code cause old new : Nat} {laser : Bool} {p : Bytes} {port : PortId} {addr msg target mac : Bytes}
  {f : Links → Links} {ir : Nat} {tdi : List Bool}

/-! ### Counters and links read after an update -/

theorem laneAt_setLinks : laneAt (setLinks n f s) n = { laneAt s n with links := f (laneAt s n).links } := laneAt_setLane

/-- A counting entry's first element advanced by one wraps at eight bytes. -/
theorem elem_bump_first {index sub : Nat} : elem (bump index sub 0 1 s) index sub 8 0 = (elem s index sub 8 0 + 1) % 2 ^ 64 := by
  unfold elem bump
  dsimp only
  rw [stored_store_same]
  have head : slice (patch (stored s index sub) 0 (toLE 8 (field (stored s index sub) 0 8 + 1))) 0 8 =
      toLE 8 (field (stored s index sub) 0 8 + 1) := by
    unfold slice patch
    rw [List.take_zero, List.nil_append, List.drop_zero, List.take_append_of_le_length (length_toLE _ _).ge]
    exact List.take_of_length_le (length_toLE _ _).le
  show fromLE (slice (patch (stored s index sub) 0 (toLE 8 (field (stored s index sub) 0 8 + 1))) 0 8) = _
  rw [head, fromLE_toLE]
  rfl

/-- A counter of a lane advanced as its links change. -/
theorem elem_lbump_setLinks {sub : Nat} : elem (lbump n 0xE9 sub 0 1 (setLinks n f s)) (laneIdx n 0xE9) sub 8 0 =
    (elem s (laneIdx n 0xE9) sub 8 0 + 1) % 2 ^ 64 := by
  refine elem_bump_first.trans ?_
  unfold elem setLinks
  rw [stored_setLane rfl]

/-! ### Faults of the links (R50, R144) -/

theorem links_detectFault : (laneAt (detectFault n code s) n).links = (laneAt s n).links :=
  (lk_detectFault (List.Subset.refl _) (.refl n _ s)).part (x := .links) (by decide)

/-- Of its lane's links a fault takes down those that it concerns, and leaves the rest. -/
theorem links_detectCode : (laneAt (detectCode n code s) n).links = (linksFallen code (laneAt s n)).links := by
  have same : (laneAt (detectCode n code s) n).links = _ := lk_detectCode_detectFault.part (x := .links) (by decide)
  rw [same, links_detectFault, laneAt_setLane]

theorem log_detectCode (other : code ≠ 0x1104) : (detectCode n code s).log = s.log := by
  unfold detectCode
  rw [if_neg other, log_detectFault]
  rfl

/-- The fault of a link, by its kind. -/
def linkCode (laser : Bool) : Nat := if laser then 0x1107 else 0x1106

/-- A lane whose links keep the cause of a link fault. -/
def causeKept (n : LaneId) (laser : Bool) (cause : Nat) (s : State) : State :=
  if laser then s else setLinks n (fun k => { k with lastCause := cause }) s

theorem linkFault_eq (up : (laneAt s n).life.st ≠ .off) :
    linkFault n laser cause s = detectCode n (linkCode laser) (causeKept n laser cause s) :=
  if_pos (decide_eq_true up)

theorem causeKept_keeps : (laneAt (causeKept n laser cause s) n).life = (laneAt s n).life ∧
    (laneAt (causeKept n laser cause s) n).flt = (laneAt s n).flt ∧ (causeKept n laser cause s).log = s.log := by
  unfold causeKept
  split
  · exact ⟨rfl, rfl, rfl⟩
  · rw [laneAt_setLinks]
    exact ⟨rfl, rfl, rfl⟩

theorem lastCause_causeKept : (laneAt (causeKept n false cause s) n).links.lastCause = cause := by
  unfold causeKept
  rw [if_neg Bool.false_ne_true, laneAt_setLinks]

section
variable (up : (laneAt s n).life.st ≠ .off)
include up

theorem safe_linkFault : (laneAt (linkFault n laser cause s) n).flt.safe = true := by
  rw [linkFault_eq up]
  exact safe_detectCode

theorem fault_mem_linkFault (room : (laneAt s n).flt.completions.length < 64) :
    .fault (linkCode laser) (laneAt s n).life.st ∈ (laneAt (linkFault n laser cause s) n).flt.completions := by
  obtain ⟨life, flt, -⟩ := causeKept_keeps (s := s) (n := n) (laser := laser) (cause := cause)
  rw [linkFault_eq up, ← life]
  refine fault_mem_detectCode (.inl ?_)
  rwa [flt]

theorem lastEvent_linkFault : lastEvent (linkFault n laser cause s) = lastEvent s := by
  rw [linkFault_eq up]
  refine lastEvent_of_log ((log_detectCode ?_).trans causeKept_keeps.2.2)
  cases laser <;> decide

/-- A DRIVE link at fault is no longer trained, and keeps the cause. -/
theorem links_linkFault_drive : (laneAt (linkFault n false cause s) n).links.driveTrained = false ∧
    (laneAt (linkFault n false cause s) n).links.lastCause = cause := by
  rw [linkFault_eq up, links_detectCode]
  exact ⟨Bool.and_false _, lastCause_causeKept⟩

/-- A LASER link at fault is no longer trained. -/
theorem links_linkFault_laser : (laneAt (linkFault n true cause s) n).links.laserTrained = false := by
  rw [linkFault_eq up, links_detectCode]
  exact Bool.and_false _

end

/-! ### Statuses (R784, R786, R793, R794) -/

/-- The link is trained. -/
def linkTrained (laser : Bool) (k : Links) : Bool := if laser then k.laserTrained else k.driveTrained

section
variable {trained : Bool} (up : linkTrained laser (laneAt s n).links = true)
include up

/-- A fault bit set twice in a row is reported and is a link fault. -/
theorem judgeStatus_twice (twice : old &&& new ≠ 0) :
    judgeStatus n laser trained old new s = linkFault n laser 3 (raise 0x1801 [.u8 n.val, .u8 (b2n laser), .u8 new] s) :=
  (if_pos up).trans (if_pos twice)

/-- TRAINED clear is a link fault. -/
theorem judgeStatus_untrained (quiet : old &&& new = 0) : judgeStatus n laser false old new s = linkFault n laser 2 s :=
  (if_pos up).trans (if_neg (not_not_intro quiet))

theorem judgeStatus_quiet (quiet : old &&& new = 0) : judgeStatus n laser true old new s = s :=
  (if_pos up).trans (if_neg (not_not_intro quiet))

end

/-- What a DRIVE status with a right CRC leaves of a lane's links. -/
def driveHeard (p : Bytes) (now : Nat) (k : Links) : Links :=
  { k with driveStatus := p, driveSeen := now, driveBad := 0, driveSelected := bit (field p 0 1) 3 }

/-- What a LASER status with a right CRC leaves of a lane's links. -/
def laserHeard (p : Bytes) (now : Nat) (k : Links) : Links :=
  { k with laserStatus := p, laserSeen := now, laserBad := 0, laserSelected := bit (field p 0 1) 1, laserFallen := bit (field p 0 1) 2 }

theorem driveStatus_good (long : p.length = 6) : driveStatus n p (crc16 p) s =
    judgeStatus n false (bit (field p 0 1) 4) (field (laneAt s n).links.driveStatus 1 1 % 32) (field p 1 1 % 32)
      (setLinks n (driveHeard p s.ticks) s) :=
  if_neg (not_or.mpr ⟨not_not_intro long, not_not_intro rfl⟩)

theorem laserStatus_good (long : p.length = 4) : laserStatus n p (crc16 p) s =
    judgeStatus n true (bit (field p 0 1) 0) (field (laneAt s n).links.laserStatus 1 1 % 16) (field p 1 1 % 16)
      (setLinks n (laserHeard p s.ticks) s) :=
  if_neg (not_or.mpr ⟨not_not_intro long, not_not_intro rfl⟩)

theorem driveStatus_bad {crc : Nat} (bad : p.length ≠ 6 ∨ crc16 p ≠ crc) :
    driveStatus n p crc s = lbump n 0xE9 1 0 1 (setLinks n (fun k => { k with driveBad := k.driveBad + 1 }) s) := if_pos bad

theorem laserStatus_bad {crc : Nat} (bad : p.length ≠ 4 ∨ crc16 p ≠ crc) :
    laserStatus n p crc s = lbump n 0xE9 2 0 1 (setLinks n (fun k => { k with laserBad := k.laserBad + 1 }) s) := if_pos bad

/-! ### SIDEBAND (R797) -/

/-- A SIDEBAND transaction that has failed is counted. -/
def sidebandFailed (n : LaneId) (s : State) : State :=
  lbump n 0xE9 4 0 1 (setLinks n (fun k => { k with sidebandFails := ((laneAt s n).links.sidebandFails + 1) % 3 }) s)

theorem laneAt_sidebandFailed : laneAt (sidebandFailed n s) n =
    { laneAt s n with links := { (laneAt s n).links with sidebandFails := ((laneAt s n).links.sidebandFails + 1) % 3 } } := by
  unfold sidebandFailed
  rw [laneAt_lbump, laneAt_setLinks]

theorem sidebandRetry_few (few : (laneAt s n).links.sidebandFails < 2) : sidebandRetry n false s = sidebandFailed n s :=
  if_pos (Nat.succ_lt_succ few)

section
variable (third : (laneAt s n).links.sidebandFails = 2)
include third

theorem sidebandFails_third : (laneAt (sidebandFailed n s) n).links.sidebandFails = 0 := by
  rw [laneAt_sidebandFailed, third]

theorem sidebandRetry_third : sidebandRetry n false s = if abovePark (laneAt s n).life.st then detectCode n 0x110A (sidebandFailed n s)
    else if (laneAt s n).life.arriving then
      raise 0x1003 [.u8 n.val, .u8 1] (setLife n (fun f => { f with arriving := false }) (sidebandFailed n s))
    else sidebandFailed n s := by
  have last : ¬(laneAt s n).links.sidebandFails + 1 < 3 := by omega
  exact (if_neg Bool.false_ne_true).trans (if_neg last)

/-- The third failure in a row above PARKED is a lane fault. -/
theorem sidebandRetry_fault (up : abovePark (laneAt s n).life.st = true) : sidebandRetry n false s = detectCode n 0x110A (sidebandFailed n s) :=
  (sidebandRetry_third third).trans (if_pos up)

/-- The third failure in a row rejects a pickup that arrives. -/
theorem sidebandRetry_rejects (off : (laneAt s n).life.st = .off) (arriving : (laneAt s n).life.arriving = true) :
    sidebandRetry n false s = raise 0x1003 [.u8 n.val, .u8 1] (setLife n (fun f => { f with arriving := false }) (sidebandFailed n s)) :=
  (sidebandRetry_third third).trans ((if_neg (by rw [off]; decide)).trans (if_pos arriving))

end

/-! ### JTAG (R800) -/

theorem length_drawBytes {k : Nat} : (drawBytes k s).1.length = k := by
  unfold drawBytes
  rw [List.length_take, List.length_append, List.length_replicate]
  omega

/-! ### Neighbours (R803) -/

/-- A port's neighbours once one has been learned. -/
def learned (port : PortId) (addr mac : Bytes) (s : State) : State :=
  { s with ports := { s.ports with
    neighbours := s.ports.neighbours.filter (fun q => decide (q ≠ (port, addr ++ mac)) && !(decide (q.1 = port) && decide (q.2.take 16 = addr))) ++
      [(port, addr ++ mac)] } }

theorem mem_learned : (port, addr ++ mac) ∈ (learned port addr mac s).ports.neighbours := List.mem_append_right _ (List.mem_singleton_self _)

theorem ownAddresses_contains (own : target = linkLocal port ∨
    ((stored s 0x1100 (3 + port.val)).all (fun b => decide (b = 0)) = false ∧ target = stored s 0x1100 (3 + port.val))) :
    (ownAddresses s port).contains target = true := by
  rw [List.contains_iff_mem]
  unfold ownAddresses
  obtain rfl | ⟨set', rfl⟩ := own
  · exact List.mem_cons_self
  · dsimp only
    rw [set', if_neg Bool.false_ne_true]
    exact List.mem_cons_of_mem _ (List.mem_singleton_self _)

section
variable (on : cfg s 0x1100 (1 + port.val) ≠ 0)
include on

theorem neighbourDiscovery_solicited (solicits : field msg 0 1 = 135) (own : (ownAddresses s port).contains (slice msg 8 16) = true) :
    neighbourDiscovery port addr msg s = send (.neighbour port (icmpMessage (slice msg 8 16) addr 136
      (natBytes [0x60, 0, 0, 0] ++ slice msg 8 16 ++ natBytes [2, 1] ++ (Sys2Proof.Config.macAddress port).toList)))
        (if field msg 24 1 = 1 then learned port addr (slice msg 26 6) s else s) := by
  unfold neighbourDiscovery
  exact (if_neg on).trans ((if_pos solicits).trans (if_pos own))

theorem neighbourDiscovery_advertised (advertises : field msg 0 1 = 136) (link : field msg 24 1 = 2) :
    neighbourDiscovery port addr msg s = learned port (slice msg 8 16) (slice msg 26 6) s := by
  unfold neighbourDiscovery
  exact (if_neg on).trans ((if_neg (by rw [advertises]; decide)).trans ((if_pos advertises).trans (if_pos link)))

theorem neighbourDiscovery_queried (queries : field msg 0 1 = 130) :
    neighbourDiscovery port addr msg s = send (.neighbour port (icmpMessage (linkLocal port) reportGroup 143
      (natBytes [0, 0, 0, 1, 4, 0, 0, 0] ++ announceGroup))) s := by
  unfold neighbourDiscovery
  exact (if_neg on).trans ((if_neg (by rw [queries]; decide)).trans ((if_neg (by rw [queries]; decide)).trans (if_pos queries)))

end

/-- A port that is off, and a message of another protocol, are left. -/
theorem neighbourDiscovery_ignored (other : cfg s 0x1100 (1 + port.val) = 0 ∨ field msg 0 1 < 130) : neighbourDiscovery port addr msg s = s := by
  unfold neighbourDiscovery
  split
  · rfl
  next on =>
    have low := other.resolve_left on
    exact (if_neg (by omega)).trans ((if_neg (by omega)).trans (if_neg (by omega)))

end Sys2Proof.Machine
end

section
/-! PROOFS. The links watched and the ports served (R784 to R803). -/

namespace Sys2Proof.Machine

variable {s : State} {n : LaneId} {p addr msg : Bytes} {port : PortId}

/-- What a DRIVE status that is heard leaves of the lane, before it is judged. -/
theorem laneAt_driveHeard : laneAt (setLinks n (driveHeard p s.ticks) s) n =
    { laneAt s n with links := driveHeard p s.ticks (laneAt s n).links } := laneAt_setLinks

theorem laneAt_laserHeard : laneAt (setLinks n (laserHeard p s.ticks) s) n =
    { laneAt s n with links := laserHeard p s.ticks (laneAt s n).links } := laneAt_setLinks

/-- The lane is in its safe condition, and its ring holds the fault of its link. -/
structure LinkFaulted (n : LaneId) (laser : Bool) (s t : State) : Prop where
  safe : (laneAt t n).flt.safe = true
  posted : (laneAt s n).flt.completions.length < 64 → .fault (linkCode laser) (laneAt s n).life.st ∈ (laneAt t n).flt.completions

theorem linkFaulted {laser : Bool} {cause : Nat} {u : State} (up : (laneAt s n).life.st ≠ .off) (life : (laneAt u n).life = (laneAt s n).life)
    (flt : (laneAt u n).flt = (laneAt s n).flt) : LinkFaulted n laser s (linkFault n laser cause u) := by
  have up' : (laneAt u n).life.st ≠ .off := by rwa [life]
  refine ⟨safe_linkFault up', fun room => ?_⟩
  rw [← life]
  exact fault_mem_linkFault up' (by rwa [flt])

/-! ### Statuses heard (R784, R786, R793, R794) -/

/-- A DRIVE status that is quiet is kept. -/
theorem driveStatus_quiet (long : p.length = 6) (trained : (laneAt s n).links.driveTrained = true) (up : bit (field p 0 1) 4 = true)
    (quiet : field (laneAt s n).links.driveStatus 1 1 % 32 &&& field p 1 1 % 32 = 0) :
    driveStatus n p (crc16 p) s = setLinks n (driveHeard p s.ticks) s := by
  rw [driveStatus_good long, up]
  refine judgeStatus_quiet (laser := false) ?_ quiet
  rw [laneAt_driveHeard]
  exact trained

theorem laserStatus_quiet (long : p.length = 4) (trained : (laneAt s n).links.laserTrained = true) (up : bit (field p 0 1) 0 = true)
    (quiet : field (laneAt s n).links.laserStatus 1 1 % 16 &&& field p 1 1 % 16 = 0) :
    laserStatus n p (crc16 p) s = setLinks n (laserHeard p s.ticks) s := by
  rw [laserStatus_good long, up]
  refine judgeStatus_quiet (laser := true) ?_ quiet
  rw [laneAt_laserHeard]
  exact trained

/-- A DRIVE fault bit set twice in a row is a link fault. -/
theorem driveStatus_twice (long : p.length = 6) (trained : (laneAt s n).links.driveTrained = true)
    (twice : field (laneAt s n).links.driveStatus 1 1 % 32 &&& field p 1 1 % 32 ≠ 0) : driveStatus n p (crc16 p) s =
      linkFault n false 3 (raise 0x1801 [.u8 n.val, .u8 0, .u8 (field p 1 1 % 32)] (setLinks n (driveHeard p s.ticks) s)) := by
  rw [driveStatus_good long]
  refine judgeStatus_twice (laser := false) ?_ twice
  rw [laneAt_driveHeard]
  exact trained

/-- A DRIVE status with TRAINED clear is a link fault. -/
theorem driveStatus_untrained (long : p.length = 6) (trained : (laneAt s n).links.driveTrained = true) (down : bit (field p 0 1) 4 = false)
    (quiet : field (laneAt s n).links.driveStatus 1 1 % 32 &&& field p 1 1 % 32 = 0) :
    driveStatus n p (crc16 p) s = linkFault n false 2 (setLinks n (driveHeard p s.ticks) s) := by
  rw [driveStatus_good long, down]
  refine judgeStatus_untrained (laser := false) ?_ quiet
  rw [laneAt_driveHeard]
  exact trained

/-- A LASER status with TRAINED clear, or with a fault bit set twice in a row, is a link fault. -/
theorem laserStatus_fault (long : p.length = 4) (trained : (laneAt s n).links.laserTrained = true)
    (bad : bit (field p 0 1) 0 = false ∨ field (laneAt s n).links.laserStatus 1 1 % 16 &&& field p 1 1 % 16 ≠ 0) :
    ∃ u cause, laserStatus n p (crc16 p) s = linkFault n true cause u ∧ (laneAt u n).life = (laneAt s n).life ∧
      (laneAt u n).flt = (laneAt s n).flt := by
  have trained' : linkTrained true (laneAt (setLinks n (laserHeard p s.ticks) s) n).links = true := by
    rw [laneAt_laserHeard]
    exact trained
  rw [laserStatus_good long]
  by_cases quiet : field (laneAt s n).links.laserStatus 1 1 % 16 &&& field p 1 1 % 16 = 0
  · rw [bad.resolve_right (not_not_intro quiet), judgeStatus_untrained trained' quiet]
    refine ⟨_, _, rfl, ?_⟩
    rw [laneAt_laserHeard]
    exact ⟨rfl, rfl⟩
  · rw [judgeStatus_twice trained' quiet]
    refine ⟨_, _, rfl, ?_⟩
    rw [laneAt_raise, laneAt_laserHeard]
    exact ⟨rfl, rfl⟩

/-! ### Statuses that stay out (R786, R794) -/

theorem execDriveStatusTimeout_fault (trained : (laneAt s n).links.driveTrained = true)
    (late : passed s (laneAt s n).links.driveSeen 200000 = true) : exec (.driveStatusTimeout n) s = .next (linkFault n false 1 s) :=
  if_pos ⟨trained, late⟩

theorem execDriveStatusTimeout_none (idle : (laneAt s n).links.driveTrained = false ∨ passed s (laneAt s n).links.driveSeen 200000 = false) :
    exec (.driveStatusTimeout n) s = .next s :=
  if_neg fun ⟨trained, late⟩ => idle.elim (Bool.eq_false_iff.mp · trained) (Bool.eq_false_iff.mp · late)

theorem execLaserStatusTimeout_fault (trained : (laneAt s n).links.laserTrained = true)
    (late : passed s (laneAt s n).links.laserSeen 153600 = true) : exec (.laserStatusTimeout n) s = .next (linkFault n true 1 s) :=
  if_pos ⟨trained, late⟩

theorem execLaserStatusTimeout_none (idle : (laneAt s n).links.laserTrained = false ∨ passed s (laneAt s n).links.laserSeen 153600 = false) :
    exec (.laserStatusTimeout n) s = .next s :=
  if_neg fun ⟨trained, late⟩ => idle.elim (Bool.eq_false_iff.mp · trained) (Bool.eq_false_iff.mp · late)

/-! ### JTAG (R800) -/

theorem jtagInstruction_register {ir : Nat} {tdi : List Bool} (other : ir ≠ 2) (other' : ir ≠ 3) : jtagInstruction ir tdi s =
    { s with ports := { s.ports with
      jtag := if ir = 1 then 1 else 0
      jtagOut := ((if ir = 1 then bitsLE 32 0x159320A3 else [false]) ++ tdi).take tdi.length } } := by
  unfold jtagInstruction
  by_cases idcode : ir = 1
  · simp only [idcode, if_true]
  · simp only [idcode, other, other', or_self, if_false]

/-- SAMPLE/PRELOAD and EXTEST shift the boundary cells. -/
theorem jtagInstruction_boundary {ir : Nat} {tdi : List Bool} (cells : ir = 2 ∨ ir = 3) : jtagInstruction ir tdi s =
    { (drawBytes tdi.length s).2 with ports := { s.ports with
      jtag := ir, preload := tdi, jtagOut := (drawBytes tdi.length s).1.map (fun x => decide (x.toNat % 2 = 1)) } } := by
  have other : ir ≠ 1 := by omega
  exact (if_neg other).trans (if_pos cells)

/-- Settles O60: a link fault is `linkFault`, whose lane is safe and holds the fault (`linkFaulted`); the ports are their equations. -/
theorem linksWatchedAndPortsServed : Obligations.LinksWatchedAndPortsServed := by
  unfold Obligations.LinksWatchedAndPortsServed
  refine ⟨?_, ?_, ?_, ?_, ?_, ?_, ?_, ?_, ?_, ?_, ?_, ?_, ?_, ?_, ?_, ?_, ?_, ?_, ?_, ?_, ?_, ?_, ?_⟩
  · intro n p crc s bad
    refine ⟨_, congrArg Host.Outcome.next (driveStatus_bad bad), rfl, elem_lbump_setLinks⟩
  · intro n p s long trained up quiet
    refine ⟨_, congrArg Host.Outcome.next (driveStatus_quiet long trained up quiet), ?_⟩
    rw [laneAt_driveHeard]
    exact ⟨rfl, rfl⟩
  · intro n p s long trained up twice
    refine ⟨_, congrArg Host.Outcome.next (driveStatus_twice long trained twice), ?_⟩
    have lane : laneAt (raise 0x1801 [.u8 n.val, .u8 0, .u8 (field p 1 1 % 32)] (setLinks n (driveHeard p s.ticks) s)) n = _ :=
      laneAt_raise.trans laneAt_driveHeard
    have up' : (laneAt (raise 0x1801 [.u8 n.val, .u8 0, .u8 (field p 1 1 % 32)] (setLinks n (driveHeard p s.ticks) s)) n).life.st ≠ .off := by
      rwa [lane]
    obtain ⟨fallen, cause⟩ := links_linkFault_drive (cause := 3) up'
    obtain ⟨safe, posted⟩ := linkFaulted (laser := false) (cause := 3) up (by rw [lane]) (by rw [lane])
    exact ⟨fallen, cause, safe, fun _ => posted, (lastEvent_linkFault up').trans lastEvent_raise⟩
  · intro n p s long trained up down quiet
    refine ⟨_, congrArg Host.Outcome.next (driveStatus_untrained long trained down quiet), ?_⟩
    have up' : (laneAt (setLinks n (driveHeard p s.ticks) s) n).life.st ≠ .off := by rwa [laneAt_driveHeard]
    obtain ⟨fallen, cause⟩ := links_linkFault_drive (cause := 2) up'
    exact ⟨fallen, cause, safe_linkFault up'⟩
  · intro n s trained late up
    obtain ⟨fallen, cause⟩ := links_linkFault_drive (cause := 1) up
    exact ⟨_, execDriveStatusTimeout_fault trained late, fallen, cause, safe_linkFault up⟩
  · exact fun n s idle => execDriveStatusTimeout_none idle
  · intro n p crc s bad
    exact ⟨_, congrArg Host.Outcome.next (laserStatus_bad bad), rfl, elem_lbump_setLinks⟩
  · intro n p s long trained up quiet
    refine ⟨_, congrArg Host.Outcome.next (laserStatus_quiet long trained up quiet), ?_⟩
    rw [laneAt_laserHeard]
    exact ⟨rfl, rfl⟩
  · intro n p s long trained up bad
    obtain ⟨u, cause, judged, life, flt⟩ := laserStatus_fault long trained bad
    obtain ⟨safe, posted⟩ := linkFaulted (laser := true) (cause := cause) up life flt
    exact ⟨_, congrArg Host.Outcome.next judged, links_linkFault_laser (by rwa [life]), safe, fun _ => posted⟩
  · intro n s trained late up
    exact ⟨_, execLaserStatusTimeout_fault trained late, links_linkFault_laser up, safe_linkFault up⟩
  · exact fun n s idle => execLaserStatusTimeout_none idle
  · exact fun n s => rfl
  · intro n s few
    refine ⟨_, congrArg Host.Outcome.next (sidebandRetry_few few), ?_, ?_, elem_lbump_setLinks⟩
    · rw [laneAt_sidebandFailed]
      exact Nat.mod_eq_of_lt (Nat.succ_lt_succ few)
    · rw [laneAt_sidebandFailed]
  · intro n s third up
    refine ⟨_, congrArg Host.Outcome.next (sidebandRetry_fault third up), ?_, safe_detectCode, fun _ room => ?_⟩
    · rw [links_detectCode]
      exact sidebandFails_third third
    · have posted := fault_mem_detectCode (s := sidebandFailed n s) (n := n) (code := 0x110A) (.inl (by rwa [laneAt_sidebandFailed]))
      rwa [laneAt_sidebandFailed] at posted
  · intro n s third off arriving
    refine ⟨_, congrArg Host.Outcome.next (sidebandRetry_rejects third off arriving), ?_, lastEvent_raise⟩
    rw [laneAt_raise, setLife, laneAt_setLane]
  · exact fun port up s => rfl
  · exact fun port speed width s => rfl
  · exact fun ir tdi s other other' => congrArg Host.Outcome.next (jtagInstruction_register other other')
  · intro ir tdi s cells
    exact ⟨_, congrArg Host.Outcome.next (jtagInstruction_boundary cells), rfl, rfl, (List.length_map _).trans length_drawBytes, rfl, rfl, rfl⟩
  · intro port addr msg s on solicits own
    refine ⟨_, congrArg Host.Outcome.next (neighbourDiscovery_solicited on solicits (ownAddresses_contains own)), ?_, fun link => ?_⟩
    · show _ :: (ite _ _ _ : State).sent = _
      split <;> rfl
    · rw [if_pos link]
      exact mem_learned
  · intro port addr msg s on advertises link
    exact ⟨_, congrArg Host.Outcome.next (neighbourDiscovery_advertised on advertises link), rfl, mem_learned⟩
  · intro port addr msg s on queries
    exact ⟨_, congrArg Host.Outcome.next (neighbourDiscovery_queried on queries), rfl, rfl⟩
  · exact fun port addr msg s other => congrArg Host.Outcome.next (neighbourDiscovery_ignored other)

end Sys2Proof.Machine
end
